-- ==== Sys2Proof/Word.lean ====
section
/-! DEFINITION. Word.lean: the word types of the BZ9680 and their plainest arithmetic (00 R3, R7).
Registers are 32 bits wide and little-endian; bit 0 is the least significant bit. -/
namespace Sys2Proof

/-- A 32-bit register value (00 R7). -/
abbrev Word := BitVec 32

/-- A byte of an in-memory structure (00 R3). -/
abbrev Byte := BitVec 8

/-- A 48-bit stroke number, which wraps (07 R152). -/
abbrev Stroke := BitVec 48

/-- A 64-bit address or sequence number. -/
abbrev Addr := BitVec 64

/-- Bits `hi` to `lo` of a natural number. -/
def bitsOf (v hi lo : Nat) : Nat := (v / 2 ^ lo) % 2 ^ (hi + 1 - lo)

/-- `v` with bits `hi` to `lo` replaced by `x`, truncated to the field. -/
def withBits (v hi lo x : Nat) : Nat :=
  v - bitsOf v hi lo * 2 ^ lo + (x % 2 ^ (hi + 1 - lo)) * 2 ^ lo

/-- Bit `b` of a natural number. -/
def bitOf (v b : Nat) : Bool := (v / 2 ^ b) % 2 == 1

/-- `v` with bit `b` set. -/
def orBit (v b : Nat) : Nat := if bitOf v b then v else v + 2 ^ b

/-- `v` with bit `b` cleared. -/
def clearBit (v b : Nat) : Nat := if bitOf v b then v - 2 ^ b else v

/-- How many of the lowest `n` bits of `v` are 1. -/
def popCount (n v : Nat) : Nat := ((List.range n).filter (fun b => bitOf v b)).length

/-- The smallest multiple count: `a` divided by `b`, rounded up. -/
def ceilDiv (a b : Nat) : Nat := (a + b - 1) / b

/-- A little-endian number read from a list of bytes (00 R3). -/
def leNat : List Byte → Nat
  | [] => 0
  | b :: bs => b.toNat + 256 * leNat bs

/-- The lowest `n` bytes of a number, little-endian (00 R3). -/
def leBytes : Nat → Nat → List Byte
  | 0, _ => []
  | n + 1, v => BitVec.ofNat 8 v :: leBytes n (v / 256)

/-- `n` bytes of a list from byte `off`, absent bytes reading 0. -/
def sliceBytes (l : List Byte) (off n : Nat) : List Byte :=
  (List.range n).map (fun i => l.getD (off + i) 0)

/-- The little-endian number in `n` bytes from byte `off`. -/
def leAt (l : List Byte) (off n : Nat) : Nat := leNat (sliceBytes l off n)

end Sys2Proof
end

