-- ==== Sys2Proof/Syntax.lean ====
section
/-! DEFINITION. Syntax.lean: the commands of the BZ9680, one constructor per row of spec/opcode_table.json.
Each constructor carries what arrives with the command from outside the block: the function or port it concerns,
the address and value of a register access, the data of a packet, or the choice that the spec leaves to a party
outside (which engine, which block). Nothing that the device itself holds is an operand. -/

namespace Sys2Proof

/-- A master of the register bus (20 R466). `host 0` is the physical function; `host n` is virtual function n,
which reaches its own context page only (05 R123). -/
inductive Master where
  | host (fn : Fin 1024)
  | bc
  | core (c : Fin 4)
  | debug
deriving DecidableEq, Repr

/-- A request of the host outside the supported set, with the function it names (04 Table 04-8). -/
inductive UnsupportedReq where
  | io (fn : Fin 1024) | locked (fn : Fin 1024) | atomic (fn : Fin 1024) | poisoned (fn : Fin 1024) | ecrc (fn : Fin 1024)
  | vendor0 (fn : Fin 1024) | vendor1
deriving DecidableEq, Repr

/-- An error of the host link's own layers: correctable, uncorrectable, or a FLIT that FEC corrected (04 Tables 04-9 and
04-22). -/
inductive LinkError where
  | receiver | badTlp | badDllp | replayTimer | replayRollover | malformed | flowControl | dataLink | overflow | fec
deriving DecidableEq, Repr

/-- Why a descriptor fetch read failed (06 R475). -/
inductive FetchFailure where
  | refused | poisoned | timeout | denied
deriving DecidableEq, Repr

/-- A route entry (10 Table 10-1): of the routing table, or of a port's FRAME or SIDEBAND table. -/
inductive RouteSel where
  | msg (i : Fin 65536) | frame (p : Fin 4) (k : Fin 16) | sideband (p : Fin 4) (k : Fin 16)
deriving DecidableEq, Repr

/-- What every packet received on a local bus port carries beside its own fields: its SEQ, its trailer bits [31:16],
and whether a reserved field of it is not 0 (08 Table 08-3, R183). -/
structure Rx where
  seq : BitVec 8
  credits : BitVec 16
  reserved : Bool
deriving DecidableEq, Repr

/-- A link error detected by a port's receiver (08 R185); the row carries the trailer credits of a packet that passes CRC
and is discarded for another reason. -/
inductive RxError where
  | parity | crc | frame | idle | op
deriving DecidableEq, Repr

/-- A block of a LUN (12 R279). -/
abbrev NandBlock := Fin 64 × Fin 65536

/-- What an uncorrectable DRAM error hit (11 R273, 18 R439): a clean or dirty unit of the cache, a map entry, the map
journal or a change bitmap (`both`: in both copies), context state, the key cache. -/
inductive DramHit where
  | clean (a : Fin 2048) (u : BitVec 32)
  | dirty (a : Fin 2048) (u : BitVec 32)
  | map
  | journal (both : Bool)
  | bitmap (a : Fin 2048) (units : List (BitVec 32)) (both : Bool)
  | context
  | keyCache
deriving DecidableEq, Repr

/-- How the check of a peer request ended when its cell was accepted (09 R217): its context is not IDLE or ACTIVE; refused,
with the CAUSE code and the guard; passed, with the aperture attached and the port, local address, timeout and
acknowledgement of its window then. -/
inductive PeerSeen where
  | gone
  | denied (cause guard : Nat)
  | pass (apt : Option Nat) (port laddr tmo : Nat) (acked : Bool)
deriving DecidableEq, Repr

/-- A message of the Ulirin stream (13 Table 13-9). `send` marks a ROUTED message that a SEND descriptor addresses to a
window of a peer context (10 R243), which the spec gives no encoding of its own (log 40). Three notes of this member that
do not travel: the port a routed item entered on with its kind and ID, the link a received message came on with that
link's count of flushes, and how the check of a received request ended. -/
structure UMsg where
  mtype : Nat
  cls : Nat := 0
  dst : Nat := 0
  stat : Nat := 0
  tag : Nat := 0
  src : Nat := 0
  ctx : Nat := 0
  win : Nat := 0
  off : Nat := 0
  data : List Byte := []
  send : Bool := false
  port : Option (Nat × Nat × Nat) := none
  via : Option (Nat × Nat) := none
  seen : Option PeerSeen := none
deriving DecidableEq, Repr

/-- What the receiver of a Ulirin link finds wrong (13 R330): a CRC mismatch of a cell or of a bypass cell, an invalid
sync header (`sync`) or an unknown block type on a lane, a MARKER with a bad check byte, a unit of unknown KIND. -/
inductive UlError where
  | crc | bypassCrc | block (lane : Fin 9) (sync : Bool) | marker | kind
deriving DecidableEq, Repr

/-- The access that a checker's parity error refuses (18 Table 18-3, source 275): a host request of a function to BAR2 or
BAR4, a register access, an upstream request of a port, with its tag where it has an answer, the oldest peer request on a link, the
next descriptor of a queue pair to be dealt (its source or destination). -/
inductive RefusedAccess where
  | host (c : Fin 1024) (bar4 write : Bool) (off : BitVec 40) (len : Fin 4097)
  | reg (m : Master) (a : BitVec 32) (write : Bool)
  | up (p : Fin 4) (ctx : Fin 1024) (addr : BitVec 48) (tag : Option (Fin 512))
  | peer (k : Fin 4)
  | desc (c : Fin 1024) (q : Fin 64) (dst : Bool)
deriving DecidableEq, Repr

/-- A parity error inside a block, one for each source of Table 18-3, with what it hit (18 R443). -/
inductive ParityErr where
  /-- DEV, CRP and KS registers. -/
  | dev
  /-- The host link: an outbound TLP, an inbound posted request, an inbound non-posted request of a function. -/
  | hlOut | hlPosted | hlNonPosted (fn : Fin 1024)
  | lb (p : Fin 4)
  | ul (k : Fin 4)
  /-- The DRAM controller: its crypto engine, or the controller itself. -/
  | drc (crypto : Bool) (ch rank : Fin 2) (line : BitVec 30) (hit : DramHit)
  | nf (n : Fin 8)
  /-- The durable store: a map-cache entry, or the admission logic. -/
  | ds (admission : Bool)
  | med
  | qmJournal
  /-- The queue manager: the state of a queue pair, or the dealing logic. -/
  | qmPair (c : Fin 1024) (q : Fin 64) | qmDealing
  /-- Active lists or the stroke counter: one copy, or both. -/
  | cad (both : Bool)
  | acc (x : RefusedAccess)
deriving DecidableEq, Repr

/-- What firmware finds on a NAND channel at power-up: the class of its LUNs (0 none), whether one matched no class, the
trained rate, which chip enables carry two LUNs, which are populated (12 Table 12-11). -/
structure NandChannel where
  cls : Fin 4
  unqual : Bool
  rate : Fin 4
  lun2 : BitVec 4
  ce : BitVec 4
deriving DecidableEq, Repr

/-- The DRAM organisation of the boot image's parameter set (11 Table 11-8): both channels, two ranks, 16 Gb dies, rate. -/
structure DramOrg where
  both : Bool
  ranks2 : Bool
  dense : Bool
  rate : Fin 3
deriving DecidableEq, Repr

/-- The commands of the block (spec/opcode_table.json). Those without operands stand last: Lean can build at run time
only the first 245 constructors that have operands. -/
inductive Instr where
  /-- R466. A write to a register without behaviour of its own is checked and applied by its access type. -/
  | registerWrite (m : Master) (a : BitVec 32) (be : BitVec 8) (wide : Bool) (v met : BitVec 64)
  /-- R383. A write that clears an MSI-X table entry's Mask bit sends the pending message of that vector and clears its PBA bit. -/
  | msixVectorUnmask (c : Fin 1024) (v : Fin 64)
  /-- R8. A read of a register with RC fields returns and clears them, or a read of a gated block returns 0xFFFF_FFFF and is recorded. -/
  | registerRead (m : Master) (a : BitVec 32) (be : BitVec 8) (wide : Bool)
  /-- R445. A block giving no answer within 64 PBUS cycles returns 0xFFFF_FFFF and records a HUNG gated access. -/
  | registerAnswerTimeout (m : Master) (a : BitVec 32) (write : Bool)
  /-- R54. A recognised release of SYS_RST_N samples the straps and starts the boot ROM on the ring oscillator. -/
  | sysRstNRelease (straps : BitVec 8)
  /-- R55. The boot ROM accepts a boot image copy, loads it and starts firmware, and the device enters STANDBY. `unread` and
  `mute`: the copies that do not read without an uncorrectable error, and those whose NAND does not respond. -/
  | bootCopyAccepted (unread mute : BitVec 4)
  /-- R56. Every boot copy is rejected; DEV_BOOT.STAGE becomes 0xF, BC_IRQ_N is asserted, and a held extraction order leads to PRESERVE. -/
  | bootNoCopyAccepted (unread mute : BitVec 4)
  /-- R58. Firmware finishes building configuration space, training DRAM, recovering the store and joining the peloton, then sends DRS and ends CRS. -/
  | functionsReady (nand : List NandChannel) (dram : DramOrg)
  /-- R431. 115 °C on any sensor, or an external THERM_TRIP_N assertion, raises source 3, asserts THERM_TRIP_N and starts PRESERVE. -/
  | thermTripRecognised (external : Bool)
  /-- R65. A write of DEV_DRAIN_LIMIT sets the drain limit and applies to a drain in progress at the next boundary. -/
  | devDrainLimitWrite (m : Master) (v : BitVec 10)
  /-- R154. A read of CAD_STROKE_LO returns counter bits [31:0] and latches bits [47:32] into the reading master's CAD_STROKE_HI. -/
  | cadStrokeLoRead (m : Master)
  /-- R97. Every PERIOD strokes the device runs a PTM dialogue and, on success, anchors or updates the phase error of its strokes. -/
  | ptmDialogue (host : BitVec 64)
  /-- R156. A write of CAD_PTM_CTL sets or clears DISCIPLINE; clearing stops slipping at once and clears ANCHORED and LOCKED. -/
  | cadPtmCtlWrite (v : Word)
  /-- R418. At order stroke R the standby HUB and CPU PLLs start relocking and, for a higher voltage, VID is raised one level. -/
  | levelChangeOrder (fw : Option (Fin 4))
  /-- R430. Every 64 strokes the thermal policy reads the hottest sensor and steps the thermal cap down or up. -/
  | thermalRefresh (t0 t1 t2 t3 t4 t5 t6 t7 : BitVec 16)
  /-- R72. The host link trains to the highest rate and widest width both ends allow and reports its slot capacity. -/
  | hlLinkUp (width : Fin 17) (speed : Fin 7) (flit : Bool)
  /-- R72. A host-link lane fails and the link retrains to the widest width whose lanes all pass. -/
  | hlLaneFail (pass : BitVec 16)
  /-- R90. A configuration request is answered with CRS before DRS or FRS, Unsupported Request for a disabled function, or served. -/
  | configRequest (c dw : Fin 1024) (wr : Option (BitVec 32 × BitVec 4))
  /-- R80. Setting VF Enable with a valid NumVFs creates contexts 1 to NumVFs; an invalid value is refused. -/
  | vfEnableSet (n : BitVec 16) (ari : Bool)
  /-- R78. A write to a BAR size control takes effect only while Memory Space Enable or VF Enable is clear. -/
  | barSizeWrite (vf bar4 : Bool) (log2 : Fin 64)
  /-- R472. A change of a function's Bus Master Enable holds or releases its memory requests and MSI-X writes. -/
  | busMasterEnableWrite (c : Fin 1024) (v : Bool)
  /-- R95. A PMCSR write moves a function between D0 and D3hot, holding its host-link steps in D3hot. -/
  | pmcsrWrite (c : Fin 1024) (d3 pmeEn clrStatus : Bool)
  /-- R384. At the boundary after a function returns to D0, its held unmasked vectors are sent before any held completion entry. -/
  | d0Return (c : Fin 1024)
  /-- R98. An FLR resets a virtual function's context, or for the physical function clears VF Enable and resets context 0. -/
  | flrReceived (c : Fin 1024)
  /-- R121. When the last affected context leaves SQUASH the device sends FRS with reason FLR Completed. -/
  | flrComplete (c : Fin 1024)
  /-- R159. A host read of BAR2 is checked, classed, scheduled in slots and sent to the window's port. -/
  | hostReadBar2 (c : Fin 1024) (off : BitVec 34) (len : Fin 4097)
  /-- R145. A host posted write to BAR2 takes the next write sequence number, is checked and sent as WRITE_POSTED or WRITE_ACKED. -/
  | hostWriteBar2 (c : Fin 1024) (off : BitVec 34) (data : List Byte)
  /-- R249. A host read of BAR4 returns aperture data, zeros for unwritten units, or poisoned data for uncorrectable or LOST units. -/
  | hostReadBar4 (c : Fin 1024) (off : BitVec 36) (len : Fin 4097)
  /-- R252. A host posted write to BAR4 is checked and held in the staging buffer until admitted into the write cache. -/
  | hostWriteBar4 (c : Fin 1024) (off : BitVec 36) (data : List Byte)
  /-- R90. I/O, locked, AtomicOp, poisoned, ECRC-failing and vendor-defined requests are answered or dropped as Table 04-8 gives. -/
  | hostUnsupportedRequest (k : UnsupportedReq)
  /-- R85. A completion for a request the device issued continues the descriptor or upstream read, or ends it as Table 04-7 gives. -/
  | deviceRequestCompletion (c tag : Fin 1024) (st : Fin 4) (data : List Byte)
  /-- R85. A request of the device unanswered within its completion timeout ends with TIMEOUT and its tag is retired. -/
  | deviceRequestTimeout (c tag : Fin 1024)
  /-- R86. A Translation Completion fills the ATS cache and lets the access issue with the translated address. -/
  | atsTranslationCompletion (c : Fin 1024) (iova ta : Addr) (log2 : Fin 53) (r w u n g : Bool)
  /-- R87. An Invalidation Request is received and queued against accesses that use the invalidated translation. -/
  | atsInvalidationRequest (c : Fin 1024) (iova : Addr) (log2 : Fin 65) (itag : Fin 32)
  /-- R87. Once every access using the invalidated translation is issued, the device completes the invalidation. -/
  | atsInvalidationComplete (itag : Fin 32)
  /-- R110. The command validates a complete share record against ranges, pools and use, and schedules it whole. -/
  | ctxSetShare (mb : Fin 1032) (core : Fin 4) (d : Fin 201)
  /-- R110. An accepted share record takes effect whole at a boundary within 200 strokes, or completes NO_RESOURCE if it no longer fits. -/
  | shareRecordApply (c : Fin 1024)
  /-- R403. The command returns a context's state, capabilities, occupancy, share words and watchdog status. -/
  | ctxQuery (mb : Fin 1032) (core : Fin 4)
  /-- R115. The command starts a reset of a context through drain and squash, ending IDLE. -/
  | ctxReset (mb : Fin 1032) (core : Fin 4) (d : Fin 201)
  /-- R115. The command destroys a user context through drain and squash, ending BARE with its share returned. -/
  | ctxDestroy (mb : Fin 1032) (core : Fin 4) (d : Fin 201)
  /-- R122. The command sets a context's watchdog mode, action and period. -/
  | ctxWdogCfg (mb : Fin 1032) (core : Fin 4)
  /-- R403. The command returns the state of every context, one byte each. -/
  | ctxList (mb : Fin 1032) (core : Fin 4)
  /-- R116. At stroke D the context enters DRAIN: no dealing, unstarted descriptors complete CONTEXT_RESET, started ones run out. -/
  | contextDrainStart (c : Fin 1024)
  /-- R117. When drain empties or its timeout passes, the context enters SQUASH, cutting work, abandoning tags and clearing its state. -/
  | contextSquash (c : Fin 1024)
  /-- R117. At the end of squash the end state is set, RESET_PEND and the reset-done event raised, and ordering commands complete. -/
  | squashComplete (c : Fin 1024)
  /-- R128. At the first boundary with no queue pair enabled, all quiesced and no tag outstanding, an ACTIVE context becomes IDLE or BARE. -/
  | contextQuiesce (c : Fin 1024)
  /-- R122. A context watchdog reaches zero, sets WDOG_FIRED and its pending bit, raises the event and may start a reset. -/
  | watchdogExpiry (c : Fin 1024)
  /-- R122. Any write of CTX_WDOG_KICK by the context's function reloads a KICK-mode watchdog. -/
  | ctxWdogKickWrite (c : Fin 1024)
  /-- R122. A write of CTX_SEL_WDOG configures and reloads the selected context's watchdog. -/
  | ctxSelWdogWrite (m : Master) (v : Word)
  /-- R119. A tag abandoned by a squash returns to the pool when its late completion arrives or its timeout expires. -/
  | tagQuarantineRelease (c tag : Fin 1024) (late : Bool)
  /-- R127. Writing 1 to QP_CTL.EN enables the queue pair if five conditions hold, or records CFG_ERR. -/
  | qpEnable (c : Fin 1024) (q : Fin 64)
  /-- R128. Writing 0 to QP_CTL.EN disables the queue pair at the next boundary and aborts uncommitted descriptors. -/
  | qpDisable (c : Fin 1024) (q : Fin 64)
  /-- R130. A doorbell write updates SQ_TAIL and CQ_HEAD, admits new descriptors under DESC_MAX and completes the excess OVER_SHARE. -/
  | doorbellWrite (c : Fin 1024) (q : Fin 64) (tail head : Option (BitVec 16))
  /-- R135. The queue manager fetches a batch of descriptors and checks each, completing malformed ones. -/
  | descriptorFetch (c : Fin 1024) (q : Fin 64) (data : List Byte)
  /-- R475. A failed fetch read completes every covered submission slot with a fetch-failure status; the `k` reads of its batch before
  it deliver `data`. -/
  | descriptorFetchFail (c : Fin 1024) (q : Fin 64) (k : Fin 64) (data : List Byte) (why : FetchFailure)
  /-- R137. The queue manager deals descriptors of a queue pair in ring order to spoke engines under the fence rules. -/
  | descriptorDeal (c : Fin 1024) (q : Fin 64) (e : Fin 32)
  /-- R134. The NOP descriptor moves nothing and completes. -/
  | nop (c : Fin 1024) (q : Fin 64) (slot : Fin 65536)
  /-- R134. The COPY descriptor reads the source range and writes the destination range. -/
  | copy (c : Fin 1024) (q : Fin 64) (slot : Fin 65536)
  /-- R134. The FILL descriptor writes its pattern repeatedly over the destination range. -/
  | fill (c : Fin 1024) (q : Fin 64) (slot : Fin 65536)
  /-- R137. The FENCE descriptor completes when earlier descriptors of its scope are complete and holds later ones back. -/
  | fence (c : Fin 1024) (q : Fin 64) (slot : Fin 65536)
  /-- R255. The PERSIST descriptor completes once every earlier durable write of its queue pair is protected. -/
  | persist (c : Fin 1024) (q : Fin 64) (slot : Fin 65536)
  /-- R134. The ATOMIC descriptor runs one atomic operation on a local or peer target and returns the old value. -/
  | atomic (c : Fin 1024) (q : Fin 64) (slot : Fin 65536)
  /-- R243. The SEND descriptor sends one MSG packet on the port of its destination window. -/
  | send (c : Fin 1024) (q : Fin 64) (slot : Fin 65536)
  /-- R244. The FRAME_OUT descriptor reads a frame from host memory and sends it as FRAME segments. -/
  | frameOut (c : Fin 1024) (q : Fin 64) (slot : Fin 65536)
  /-- R134. The MARK descriptor completes with the stroke dealt and optionally writes a 16-byte record. -/
  | mark (c : Fin 1024) (q : Fin 64) (slot : Fin 65536)
  /-- R136. A descriptor whose status is final and whose writes are issued, acknowledged or accepted becomes complete. -/
  | descriptorComplete (c : Fin 1024) (q : Fin 64) (slot : Fin 65536)
  /-- R139. A completion entry is written with the phase bit once the completion ring has a free slot. -/
  | completionEntryWrite (c : Fin 1024) (q : Fin 64)
  /-- R142. Writing 1 to QP_ABORT.GO stamps an abort of the tagged descriptor and sets RESULT PENDING. -/
  | qpAbortGo (c : Fin 1024) (q : Fin 64)
  /-- R142. At the end of the stamp stroke the abort is resolved as TOO_LATE, ABORTED, NOT_FOUND or NONE. -/
  | abortResolve (c : Fin 1024) (q : Fin 64)
  /-- R143. A parity mismatch or journal disagreement fences a spoke engine and its descriptors are re-dealt per operation kind. -/
  | spokeEngineFence (e : Fin 32) (journal : Bool)
  /-- R147. A read of CTX_WFENCE is held until every earlier posted write of the function is resolved. -/
  | ctxWfenceRead (c : Fin 1024)
  /-- R147. The held CTX_WFENCE read returns and clears the failure count once the covered writes are resolved. -/
  | ctxWfenceReturn (c : Fin 1024)
  /-- R147. A CTX_WFENCE read held 62 ms returns with INCOMPLETE set. -/
  | ctxWfenceTimeout (c : Fin 1024)
  /-- R177. A write of LB_CTL.EN enables the port to train or sends it to RESET. -/
  | lbCtlEnWrite (p : Fin 4) (en : Bool)
  /-- R209. A write of 1 to LB_CTL.RETRAIN takes the port out of ACTIVE to RESET. -/
  | lbRetrain (p : Fin 4)
  /-- R177. An enabled port that has spent 2 strokes in RESET releases LBn_RST_N and enters TRAIN. -/
  | lbResetExit (p : Fin 4)
  /-- R178. The receiver locks after centring, deskewing and 16 clean blocks, and the port sends locked blocks. -/
  | lbReceiverLock (p : Fin 4) (delays : List (BitVec 7))
  /-- R177. Eight consecutive locked blocks received move the port to INIT, which sends LINK INIT. -/
  | lbLockedBlocksReceived (p : Fin 4)
  /-- R179. A port not ACTIVE TMO strokes after release enters FAILED and raises LB_TRAIN_FAIL. -/
  | lbTrainTimeout (p : Fin 4) (strobe : Bool)
  /-- R177. GAP strokes after entering FAILED the port returns to RESET and retries. -/
  | lbFailedGapExpiry (p : Fin 4)
  /-- R209. Four consecutive training blocks from the local agent take an ACTIVE port to TRAIN. -/
  | lbTrainingBlocksInActive (p : Fin 4)
  /-- R188. A LINK INIT packet gives the agent's credits, and with own INIT sent the port enters ACTIVE. -/
  | linkInitReceive (p : Fin 4) (counts : Word) (rev : BitVec 8)
  /-- R189. A LINK CREDIT packet or any trailer updates credits from the freed-credit counts. -/
  | linkCreditReceive (p : Fin 4) (credits : BitVec 16)
  /-- R186. A LINK NAK makes the sender replay every held packet from the named SEQ. -/
  | linkNakReceive (p : Fin 4) (seq : BitVec 8) (credits : BitVec 16)
  /-- R185. A parity, CRC, frame, idle, OP or SEQ error discards packets and sends a LINK NAK. -/
  | lbLinkError (p : Fin 4) (k : RxError) (credits : Option (BitVec 16))
  /-- R187. No expected packet 512 beats after a NAK, or a second NAK within 4 strokes, retrains the port. -/
  | lbNakTimeout (p : Fin 4)
  /-- R189. A side with unsignalled freed credits and no packet for 64 beats sends LINK CREDIT. -/
  | lbCreditSend (p : Fin 4)
  /-- R192. At each packet boundary the port sends the first available packet in NAK, replay, C0, credit, other order. -/
  | lbEgressPacket (p : Fin 4)
  /-- R206. An upstream READ from the local agent is matched to an upstream rule, checked and issued on the host link. -/
  | lbReadReceive (p : Fin 4) (rx : Rx) (tag : Fin 512) (addr : BitVec 48) (len : Fin 512)
  /-- R206. An upstream WRITE_POSTED is matched, checked and issued on the host link or dropped. -/
  | lbWritePostedReceive (p : Fin 4) (rx : Rx) (addr : BitVec 48) (data : List Byte)
  /-- R206. An upstream WRITE_ACKED is matched, checked, issued and answered OK once its writes are issued. -/
  | lbWriteAckedReceive (p : Fin 4) (rx : Rx) (tag : Fin 512) (addr : BitVec 48) (data : List Byte)
  /-- R233. An inbound MSG packet is routed by its port bank and held in the bridge buffer. -/
  | lbMsgReceive (p : Fin 4) (rx : Rx) (id : BitVec 16) (data : List Byte)
  /-- R237. An inbound FRAME segment is held until EOF, when the frame becomes an item routed by its SOF entry. -/
  | lbFrameReceive (p : Fin 4) (rx : Rx) (sof eof : Bool) (info : Word) (data : List Byte)
  /-- R233. An inbound SIDEBAND packet is routed by its event number. -/
  | lbSidebandReceive (p : Fin 4) (rx : Rx) (event : Fin 16)
  /-- R182. A RESP from the local agent ends its request with its code, or is a protocol error. -/
  | lbRespReceive (p : Fin 4) (rx : Rx) (tag : Fin 512) (code : BitVec 4) (data : List Byte)
  /-- R181. An ATOMIC from the local agent is a protocol error. -/
  | lbAtomicReceive (p : Fin 4) (rx : Rx)
  /-- R201. GAP beats after a RETRY_LATER answer the device sends the request again with a new SEQ. -/
  | lbRetryLaterResend (p : Fin 4) (tag : Fin 512)
  /-- R201. A request unanswered at its window timeout ends timed out and its tag is quarantined. -/
  | windowCompletionTimeout (p : Fin 4) (tag : Fin 512)
  /-- R203. A speculative READ not issued within 8 strokes is abandoned. -/
  | speculativeReadAbandon (p : Fin 4)
  /-- R203. A prefetch block leaves the buffer LIFE strokes after its arrival. -/
  | prefetchBlockExpiry (p : Fin 4)
  /-- R205. At E + 1,024 a stranded entry with unserved bytes is dropped and counted. -/
  | strandedEntryExpiry (p : Fin 4) (e : Fin 16)
  /-- R207. A selected LINT edge becomes a SIDEBAND item placed in the port's inbound stream, or is held while the port is not ACTIVE. -/
  | lintEdge (p : Fin 4) (line : Fin 4) (rising : Bool)
  /-- R196. Writing 1 to WIN_CTL.EN maps the window at the next boundary if its checks pass. -/
  | winMap (c : Fin 1024) (w : Fin 16)
  /-- R197. Writing 0 to WIN_CTL.EN unmaps the window at the next boundary and drops its buffers. -/
  | winUnmap (c : Fin 1024) (w : Fin 16)
  /-- R198. A write of WIN_ATTR changes class, prefetch, acked, timeout or once-only, or clears AUTOCLR. -/
  | winAttrWrite (c : Fin 1024) (w : Fin 16) (v : Word)
  /-- R235. An 8-byte write to a route entry takes effect at the next boundary. -/
  | routeEntryWrite (e : RouteSel) (v : BitVec 64)
  /-- R239. When a routed item gets its first slot it is tested, then its payload, wrapper and completion entry are written. -/
  | routedItemDelivery (p : Fin 4)
  /-- R242. A routed item with PEER 1 is sent to the peer member and then on its port. -/
  | routedItemPeerSend (p : Fin 4)
  /-- R248. The command creates an aperture with a new key and returns its number. -/
  | aptCreate (mb : Fin 1032) (core : Fin 4)
  /-- R248. The command attaches an aperture as a context's BAR4 at the next boundary. -/
  | aptAttach (mb : Fin 1032) (core : Fin 4)
  /-- R248. The command detaches an aperture once no write to it waits for admission. -/
  | aptDetach (mb : Fin 1032) (core : Fin 4)
  /-- R248. The command destroys an aperture's wrapped key and frees its capacity. -/
  | aptErase (mb : Fin 1032) (core : Fin 4)
  /-- R248. The command returns an aperture's status, lost units, occupancy, generation and resync count. -/
  | aptQuery (mb : Fin 1032) (core : Fin 4)
  /-- R251. A waiting durable write is admitted into the write cache once budget, occupancy and presence conditions hold. -/
  | writeAdmission (n : Fin 65536)
  /-- R254. A read of CTX_PERSIST is held until every earlier BAR4 write of the function is protected. -/
  | ctxPersistRead (c : Fin 1024)
  /-- R254. The held CTX_PERSIST read returns once the covered writes are protected. -/
  | ctxPersistReturn (c : Fin 1024)
  /-- R254. A CTX_PERSIST read held 62 ms returns with INCOMPLETE set. -/
  | ctxPersistTimeout (c : Fin 1024)
  /-- R253. The tandem partner's acknowledgement of a mirror copy makes the write protected. -/
  | mirrorAckReceive (k : Fin 4)
  /-- R261. A mirror write unacknowledged for ACK_TMO strokes sends the aperture to SOLO. -/
  | mirrorAckTimeout (a : Fin 2048)
  /-- R260. When the change bitmap is empty the aperture returns from RESYNC to TANDEM. -/
  | resyncComplete (a : Fin 2048)
  /-- R264. A write of DS_BUDGET is accepted or refused against the hold-up energy. -/
  | dsBudgetWrite (v : Word)
  /-- R264. A write of DS_HOLDUP is accepted or refused against the energy the budget needs. -/
  | dsHoldupWrite (v : Word)
  /-- R251. A confirmed flush to NAND makes a unit clean and frees its budget. -/
  | unitFlushComplete (a : Fin 2048) (u : BitVec 32)
  /-- R286. The media engine writes a stripe of 15 data members and one parity member. -/
  | stripeWrite (members : List NandBlock) (units : List (Fin 2048 × BitVec 32))
  /-- R272. A corrected DRAM error is counted, and enough from one device mark it failed. -/
  | dramCorrectedError (ch rank : Fin 2) (dev : Fin 10) (line : BitVec 30)
  /-- R273. An uncorrectable DRAM error is handled by where it falls: refetch, rebuild, LOST or firmware-data repair. -/
  | dramUncorrectableError (ch rank : Fin 2) (line : BitVec 30) (hit : DramHit)
  /-- R283. A NAND read climbs the read-retry ladder until it decodes, or is uncorrectable. -/
  | nandRead (b : NandBlock) (a : Fin 2048) (u : BitVec 32) (step : Option (Fin 11))
  /-- R294. A program status fail retires the block and rewrites its data in a later stripe. -/
  | nandProgramFail (b : NandBlock)
  /-- R295. A LUN is declared lost, reads go to reconstruction and a rebuild starts. -/
  | lunLost (lun : Fin 64) (cause : Fin 5)
  /-- R296. The rebuild of a lost LUN's stripes completes and STATE returns to NORMAL. -/
  | rebuildComplete (dest : List (List NandBlock))
  /-- R293. The retention patrol reads every written block and marks blocks for refresh. -/
  | patrolPass (read : List (NandBlock × Fin 11))
  /-- R293. A marked block's valid data is moved to new stripes and the block is erased. -/
  | blockRefresh (victim : NandBlock) (dest : List (List NandBlock)) (after : Fin 11)
  /-- R289. Garbage collection reclaims the blocks with least valid data while the reserve holds. -/
  | garbageCollection (victim : NandBlock) (dest : List (List NandBlock))
  /-- R288. When the P/E spread exceeds SPREAD, data of least-worn blocks is moved to worn ones. -/
  | wearLevelling (victim : NandBlock) (dest : List (List NandBlock))
  /-- R404. The command returns the store format, budget, hold-up, recovery and PRESERVE records. -/
  | storeQuery (mb : Fin 1032) (core : Fin 4)
  /-- R404. The command returns a context's entry in the last context state record. -/
  | storeRecord (mb : Fin 1032) (core : Fin 4)
  /-- R281. The long command formats the store at 128 GiB or 512 GiB if capacity allows. -/
  | storeFormat (mb : Fin 1032) (core : Fin 4)
  /-- R301. The command returns the media state, lost LUNs, life, wear and retry histogram. -/
  | mediaHealth (mb : Fin 1032) (core : Fin 4)
  /-- R300. The long command rescans every block to rebuild the map. -/
  | mediaRebuild (mb : Fin 1032) (core : Fin 4)
  /-- R311. A write of UL_CTL.EN starts training of a link or sends it to RESET. -/
  | ulCtlEnWrite (k : Fin 4) (en : Bool)
  /-- R338. A write of 1 to UL_CTL.RETRAIN takes the link down for retraining. -/
  | ulRetrain (k : Fin 4)
  /-- R313. Locked lanes let the receiver select W and the lane map, and the link enters PARAM. -/
  | ulLanesLocked (k : Fin 4) (passed : BitVec 9)
  /-- R311. TRAIN_TMO expires and training restarts, counting TRAIN_FAIL. -/
  | ulTrainTimeout (k : Fin 4)
  /-- R318. A received INIT is checked for revision and digest, and its map is adopted with INIT_ACK or refused. -/
  | bypassInit (k : Fin 4) (back rev member topo : BitVec 8) (fresh w4 : Bool) (credits : Word) (exp : BitVec 12) (grace : BitVec 8) (map : Word) (digest : BitVec 64)
  /-- R318. A received INIT_ACK completes the INIT exchange and the link enters or resumes ACTIVE. -/
  | bypassInitAck (k : Fin 4) (back epoch : BitVec 8)
  /-- R327. An ACK cell releases every held cell before its EXP_SEQ. -/
  | bypassAck (k : Fin 4) (back : BitVec 8) (exp : BitVec 12)
  /-- R332. A NAK cell makes the sender replay from its EXP_SEQ after a REPLAY marker row. -/
  | bypassNak (k : Fin 4) (back : BitVec 8) (exp : BitVec 12)
  /-- R324. A CREDIT cell updates the credits of all four VCs. -/
  | bypassCredit (k : Fin 4) (back : BitVec 8) (counts : Word)
  /-- R157. A STROKE cell aligns the member's stroke boundary to the leader's, or sets its count once at join. -/
  | bypassStroke (k : Fin 4) (back : BitVec 8) (stroke : Stroke) (leader : Fin 8) (hops : BitVec 8) (phase : BitVec 16) (skew : BitVec 8)
  /-- R316. A DELAY_REQ cell is answered with DELAY_RESP. -/
  | bypassDelayReq (k : Fin 4) (back : BitVec 8) (sent recv : BitVec 64) (turn : Word)
  /-- R316. A DELAY_RESP gives the one-way link delay shown in UL_DELAY. -/
  | bypassDelayResp (k : Fin 4) (back : BitVec 8) (sent now_ : BitVec 64) (turn : Word)
  /-- R334. A SHIFT_REQ makes the transmitter send a SHIFT marker row, use the new map and replay. -/
  | bypassShiftReq (k : Fin 4) (bseq back lane epoch : BitVec 8) (map : Word)
  /-- R336. An LPM_REQ for Coast or Park is accepted or refused with LPM_ACK. -/
  | bypassLpmReq (k : Fin 4) (bseq back st : BitVec 8)
  /-- R336. An accepting LPM_ACK makes both ends drain and enter Coast or Park. -/
  | bypassLpmAck (k : Fin 4) (bseq back st : BitVec 8)
  /-- R454. A PHOTO cell is forwarded once and schedules a latch at its named stroke, or a late latch. -/
  | bypassPhoto (k : Fin 4) (bseq back : BitVec 8) (stroke : Stroke) (origin : Fin 8) (src : BitVec 8) (num : BitVec 16)
  /-- R412. A PEER_MBX cell carries one fragment of a forwarded command or its result. -/
  | bypassPeerMbx (k : Fin 4) (bseq back : BitVec 8) (txn : BitVec 16) (idx flags : BitVec 8) (data : List Byte)
  /-- R317. A NULL cell carries BACK to acknowledge sequenced bypass cells. -/
  | bypassNull (k : Fin 4) (back : BitVec 8) (reserved : Bool)
  /-- R317. A sequenced bypass cell unacknowledged for 1 µs is sent again with later cells, and eight retries take the link down. -/
  | bypassRetransmit (k : Fin 4)
  /-- R328. A cell passing CRC is accepted, discarded as a duplicate, discarded under error, or is a protocol error. -/
  | ulCellReceive (k : Fin 4) (vc : Fin 4) (seq : BitVec 12) (ack : Option (BitVec 12)) (crVc : Fin 4) (crCount : BitVec 8) (off : Fin 257) (reserved : Bool) (data : List Byte)
  /-- R330. A CRC, block, marker, kind or lane error loses delineation and sends a NAK. -/
  | ulLinkError (k : Fin 4) (e : UlError)
  /-- R333. A receive lane becomes faulty and starts a derailleur shift, retires the spare, or takes the link down. -/
  | ulLaneFault (k : Fin 4) (lane : Fin 9)
  /-- R338. A down cause puts the link in HOLD, keeps its state and starts retraining within the grace period. -/
  | ulLinkDown (k : Fin 4)
  /-- R340. At the boundary when the grace period elapses without ACTIVE, the link is flushed. -/
  | ulGraceExpiry (k : Fin 4)
  /-- R336. A link idle COAST_IDLE strokes with COAST_EN sends LPM_REQ Coast. -/
  | ulCoastIdle (k : Fin 4)
  /-- R336. An end leaves Coast by sending a marker row and units, and the far end follows. -/
  | ulCoastExit (k : Fin 4)
  /-- R337. An end leaves Park by restarting its PLL and sending TRAIN rows, and both ends resume ACTIVE. -/
  | ulParkExit (k : Fin 4)
  /-- R349. A peer WRITE is checked by the peer-to-local checker, executed and answered with RESP. -/
  | ulWriteReceive (k : Fin 4)
  /-- R349. A peer READ is checked, executed and answered with RESP carrying data. -/
  | ulReadReceive (k : Fin 4)
  /-- R349. A peer ATOMIC is checked, executed on the window's port and answered with the old value. -/
  | ulAtomicReceive (k : Fin 4)
  /-- R323. A RESP message ends the requesting descriptor with the mapped status. -/
  | ulRespReceive (k : Fin 4)
  /-- R242. A ROUTED message is sent on its destination port, or dropped PEER_LOST. -/
  | ulRoutedReceive (k : Fin 4)
  /-- R260. A MIRROR_WRITE is admitted into the standby aperture and acknowledged after admission. -/
  | mirrorWriteReceive (k : Fin 4)
  /-- R348. A message for another member is forwarded on its route, or answered NO_TARGET. -/
  | messageForward (k : Fin 4)
  /-- R352. A VIEW message updates the member's view, epoch and JOINED set. -/
  | stateView (k : Fin 4)
  /-- R346. A JOIN makes the leader add the member, raise the epoch and send VIEW. -/
  | stateJoin (k : Fin 4)
  /-- R353. A LEAVE makes the sender lost at the next boundary. -/
  | stateLeave (k : Fin 4)
  /-- R357. A TANDEM message pairs, updates, resets or unpairs the standby copy of a home context. -/
  | stateTandem (k : Fin 4) (gen : Word) (units : Fin 257)
  /-- R360. A HANDOVER makes the partner make the context live at once, or answer TARGET_ERR. -/
  | stateHandover (k : Fin 4)
  /-- R347. A RELOCATE updates PEL_LOC for a global context. -/
  | stateRelocate (k : Fin 4)
  /-- R346. From its first ACTIVE link a JOINING member sends JOIN to the lowest joined member it reaches. -/
  | joinSend (k : Fin 4) (dst : Fin 8)
  /-- R353. A joined member with no direct link in any view is lost while quorum holds. -/
  | memberLoss (m : Fin 8)
  /-- R358. FENCE_MARGIN after a loss the partner makes each paired standby context live and sends RELOCATE. -/
  | failover (c : Fin 1024)
  /-- R360. In DRAINING the home member sends HANDOVER for a context whose work has retired and whose writes are acknowledged. -/
  | handoverSend (c : Fin 1024)
  /-- R405. The command returns the peloton status, view, route, control and counts. -/
  | pelQuery (mb : Fin 1032) (core : Fin 4)
  /-- R405. The command orders this member to leave the peloton, entering DRAINING with CAUSE 0x05. -/
  | pelLeave (mb : Fin 1032) (core : Fin 4)
  /-- R356. The command pairs a home context with a standby context on a partner and returns the generation. -/
  | tandemPair (mb : Fin 1032) (core : Fin 4) (gen : Word)
  /-- R357. The command ends a pairing through TANDEM op 3. -/
  | tandemUnpair (mb : Fin 1032) (core : Fin 4)
  /-- R405. The command returns a context's pairing, generation and aperture status. -/
  | tandemQuery (mb : Fin 1032) (core : Fin 4)
  /-- R366. A rising edge on an internal source line sets its pending bit. -/
  | sourceEdge (n : Fin 288)
  /-- R369. A write to IC_PEND_SET sets the named pending bits. -/
  | icPendSet (m : Master) (w : Fin 9) (bits : Word)
  /-- R369. A write to IC_PEND_CLR clears the named pending bits. -/
  | icPendClr (m : Master) (w : Fin 9) (bits edges sets : Word)
  /-- R369. A write to IC_EN_SET sets the named enable bits. -/
  | icEnSet (m : Master) (w : Fin 9) (bits clears : Word)
  /-- R369. A write to IC_EN_CLR clears the named enable bits. -/
  | icEnClr (m : Master) (w : Fin 9) (bits : Word)
  /-- R374. A core's read of IC_CLAIM returns and pushes its most urgent offered candidate. -/
  | icClaim (m : Master) (edge : Bool)
  /-- R376. A core's write of IC_EOI pops a matching stack top, or records a fault and raises source 287. -/
  | icEoi (m : Master) (src : BitVec 9)
  /-- R377. A hold-off group's timer expires and its members become candidates again. -/
  | holdOffExpiry (g : Fin 32)
  /-- R377. A write of IC_HOLD.STROKES sets the hold-off, and 0 ends a running hold-off at once. -/
  | icHoldWrite (m : Master) (g : Fin 32) (strokes : BitVec 16)
  /-- R368. A stroke timer reaches zero, raises its source and reloads or stops. -/
  | strokeTimerExpiry (t : Fin 4)
  /-- R433. A GPIO input sees its selected edge and raises source 12. -/
  | gpioEdge (g : Fin 16) (rising : Bool)
  /-- R380. A context event bit becoming 1 while enabled triggers the context event vector. -/
  | contextEventSet (c : Fin 1024) (b : Fin 8)
  /-- R381. A coalescing timer reaching zero triggers the group's vector. -/
  | coalescingTimerExpiry (c : Fin 1024) (q : Fin 64)
  /-- R381. A write of CQ_EVT_CFG reconfigures a coalescing group at the next boundary. -/
  | cqEvtCfgWrite (c : Fin 1024) (q : Fin 64) (v : Word)
  /-- R383. A trigger is sent as MSI-X, set in the PBA, held with PME, or dropped and counted. -/
  | msixTriggerDelivery (c : Fin 1024) (v : Fin 64)
  /-- R390. A write of 1 to MBX_DOORBELL.GO stamps the command and makes the mailbox PENDING. -/
  | mbxDoorbellGo (mb : Fin 1032)
  /-- R396. A command not DONE MS ms after its stamp completes with TIMEOUT. -/
  | mbxWatchdogExpiry (mb : Fin 1032)
  /-- R399. A long operation ends, writes its final status to the OP word and raises the completion event again. -/
  | longOperationEnd (fw : Bool) (code : Fin 13)
  /-- R411. A forwarded command is carried to the target's peer mailbox and its result returned to the origin. -/
  | mbxForward (mb : Fin 1032) (core : Fin 4)
  /-- R401. The command returns mode, firmware revision, reset cause, boot state, stroke, level and sleep state. -/
  | devQuery (mb : Fin 1032) (core : Fin 4)
  /-- R401. The command, accepted in MAINTENANCE, schedules a system reset 2,000 strokes after DONE. -/
  | devReset (mb : Fin 1032) (core : Fin 4)
  /-- R66. The command enters MAINTENANCE when no VF, dirty data or pairing is present. -/
  | maintEnter (mb : Fin 1032) (core : Fin 4)
  /-- R62. The command starts a planned extraction: DRAINING, held in BOOT, or PRESERVE at a safe point. -/
  | prepareExtract (mb : Fin 1032) (core : Fin 4)
  /-- R418. The command orders a performance level and completes with the stroke of change or REFUSED. -/
  | perfSet (mb : Fin 1032) (core : Fin 4)
  /-- R421. The command orders Freewheel or Rest at the next boundary if the entry conditions hold. -/
  | sleepEnter (mb : Fin 1032) (core : Fin 4)
  /-- R427. The command writes the wake-enable bitmap and returns the previous one. -/
  | wakeCfg (mb : Fin 1032) (core : Fin 4)
  /-- R402. The command returns the eight sensor readings and the hottest. -/
  | thermQuery (mb : Fin 1032) (core : Fin 4)
  /-- R417. The command sets IDLE_SLEEP, AUTO_LEVEL and the lowest level firmware may choose. -/
  | powerPolicy (mb : Fin 1032) (core : Fin 4)
  /-- R402. The command returns level, sleep state, last wake and power estimate. -/
  | powerQuery (mb : Fin 1032) (core : Fin 4)
  /-- R406. The command returns the running and stored firmware releases, stage state and trial state. -/
  | fwQuery (mb : Fin 1032) (core : Fin 4)
  /-- R409. The command starts staging an image of a given size, discarding any staged image. -/
  | fwStageBegin (mb : Fin 1032) (core : Fin 4)
  /-- R409. The command writes a piece of the staged image into the staging blocks. -/
  | fwStageData (mb : Fin 1032) (core : Fin 4)
  /-- R409. The command verifies the staged image by the tests of R54. -/
  | fwStageEnd (mb : Fin 1032) (core : Fin 4) (unread : Bool)
  /-- R410. The long command writes the verified image into copies 0 and 1. -/
  | fwActivate (mb : Fin 1032) (core : Fin 4)
  /-- R410. The long command rewrites copies 2 and 3 with the running image, ending TRIAL. -/
  | fwCommit (mb : Fin 1032) (core : Fin 4)
  /-- R410. The long command rewrites copies 0 and 1 from copy 2. -/
  | fwRollback (mb : Fin 1032) (core : Fin 4)
  /-- R407. The command returns the programmed fields, region entries, debug policy and identity digest. -/
  | fuseQuery (mb : Fin 1032) (core : Fin 4)
  /-- R461. The command programs one fuse field under the programming conditions and writes its marker. -/
  | fuseProgram (mb : Fin 1032) (core : Fin 4) (en vdd lapse bad : Bool) (got : BitVec 128)
  /-- R408. The command returns the interface revision and the supported opcodes. -/
  | ifQuery (mb : Fin 1032) (core : Fin 4)
  /-- R408. The command returns its argument bytes. -/
  | echo (mb : Fin 1032) (core : Fin 4)
  /-- R447. The command returns fault-log entries from a given index. -/
  | logRead (mb : Fin 1032) (core : Fin 4)
  /-- R408. The command returns the stroke and the host-time and alignment registers. -/
  | timeQuery (mb : Fin 1032) (core : Fin 4)
  /-- R413. An SMBus REG_READ reads an internal register and returns data and status. -/
  | smbRegRead (dev : BitVec 7) (a : BitVec 32)
  /-- R413. An SMBus REG_WRITE writes an internal register and returns status. -/
  | smbRegWrite (dev : BitVec 7) (pec : Bool) (a v : BitVec 32)
  /-- R413. An SMBus MBX_WRITE writes bytes into the board-controller mailbox in ascending order. -/
  | smbMbxWrite (dev : BitVec 7) (pec : Bool) (off : Fin 4096) (data : List (BitVec 8))
  /-- R413. An SMBus MBX_READ returns bytes from the board-controller mailbox. -/
  | smbMbxRead (dev : BitVec 7) (off : Fin 4096) (len : Fin 256)
  /-- R413. An SMBus ATTN read returns MBX_BC_ATTN. -/
  | smbAttn (dev : BitVec 7)
  /-- R423. Rest entry stops dealing, parks links, holds ports and puts DRAM in self-refresh. -/
  | restEntry (l1 : Bool)
  /-- R436. A control core's watchdog expires after 10 ms without reload and raises source 282. -/
  | coreWatchdogExpiry (core : Fin 4)
  /-- R437. A core is fenced and held in reset, its sources and commands taken over by others. -/
  | coreFence (core : Fin 4) (parity : Bool) (just : Option (Fin 1032))
  /-- R438. A fault stop records its reason and orders PREPARE_EXTRACT, leading to DRAINING and PRESERVE. -/
  | faultStop (reason : Fin 6)
  /-- R440. Firmware is reloaded and restarted while the datapath runs on. -/
  | firmwareRestart (check : Bool) (just : List (Fin 1032))
  /-- R443. A block's parity error raises its INT_ERR source and is handled by Table 18-3. -/
  | internalParityError (e : ParityErr)
  /-- R91. A receiver error, bad TLP, bad DLLP, replay timer timeout or replay rollover on the host link is logged as a correctable AER error and raises HL_AER_COR. -/
  | hlLinkLayerError (k : LinkError)
  /-- R334. A Ulirin marker row is received, restoring delineation and deskew, and the receiver switches to a new lane map when the row carries a new epoch. -/
  | markerRowReceive (k : Fin 4) (epoch : BitVec 8) (lanes : Fin 10) (flags : BitVec 8) (wrong : BitVec 9)
  /-- R318. Every 2 µs in PARAM, and in HOLD once the lanes have locked, the link sends an INIT bypass cell. -/
  | ulInitSend (k : Fin 4)
  /-- R325. At each unit boundary the Ulirin transmitter takes the first available unit in bypass, replay, VC0, VC2, then VC3 and VC1 order. -/
  | ulEgressUnit (k : Fin 4)
  /-- R92. After 2,000 strokes of upward use below the threshold, the device requests an L0p width reduction within its limits. -/
  | l0pRequest (width : Fin 17) (accepted : Bool)
  /-- R93. After L1_IDLE idle strokes with no C0 reservation, the device requests L1 entry. -/
  | l1EntryRequest (accepted : Bool)
  /-- R190. A BND credit returned later than 1,632 beats sets BND_SHORT and raises LBn_CREDIT_SHORT. -/
  | lbBndCreditLate (p : Fin 4)
  /-- R294. An erase status fail retires the block. -/
  | nandEraseFail (b : NandBlock)
  /-- R316. Every 2,000 strokes the device sends DELAY_REQ on each link. -/
  | delayReqSend (k : Fin 4) (t : BitVec 64)
  /-- R329. The receiver acknowledges after 16 accepted cells or 128 ns after the first unacknowledged one. -/
  | ulAckSend (k : Fin 4)
  /-- R324. An end with unreported freed credits and no cell sent for 64 ns sends a CREDIT cell. -/
  | ulCreditReport (k : Fin 4)
  /-- R330. While a link error is outstanding the NAK is repeated every 1 µs, and the fourth takes the link down. -/
  | ulNakRepeat (k : Fin 4)
  /-- R332. An oldest held cell unacknowledged for 2 µs without a NAK is replayed. -/
  | ulReplayTimeout (k : Fin 4)
  /-- R351. A STATE of a reserved STYPE is answered TARGET_ERR and otherwise ignored. -/
  | stateReservedStype (k : Fin 4)
  /-- R346. Two formed groups meeting on a link never merge; the group of the higher leader reads SPLIT. -/
  | pelotonSplit (k : Fin 4) (leader : Fin 8)
  /-- R362. A rejoining member compares aperture generations with former partners and supersedes the lower copy. -/
  | rejoinCompare (a : Fin 2048) (other : Word)
  /-- R440. The restarted firmware rebuilds its state and resumes mailbox service. -/
  | firmwareRestartComplete (rejected : Fin 4)
  /-- R440. An uncorrectable control-core SRAM error starts a firmware restart. -/
  | sramUncorrectableError (a : BitVec 32)
  /-- R458. The SAMPLE/PRELOAD instruction samples or preloads the boundary register. -/
  | samplePreload (sampled cells : BitVec 2157)
  /-- R458. The EXTEST instruction drives balls from the boundary register only under reset or STRAP TEST. -/
  | extest (sampled cells : BitVec 2157)
  /-- R459. An Update-DR with GO starts one 32-bit debug access, checked by the region map and debug policy. -/
  | dapAccessGo (a : BitVec 32) (write : Bool) (data : BitVec 32)
  /-- R271. DDRn_ALERT_N reports a CA parity or write CRC error and the controller retries the access, raising source 158 or 159. -/
  | dramAlert (ch : Fin 2)
  /-- R92. The link partner requests an L0p width change, and the device declines it when the width's slot capacity is below either C0 reservation. -/
  | l0pPartnerRequest (width : Fin 17)
  /-- R47. VDD_KS and VDDIO_MGMT come into tolerance and the kickstand domain leaves its power-on reset after 2,048 KS_FAST cycles, clearing everything. -/
  | coldPowerOnReset
  /-- R52. A filtered SYS_RST_N assertion applies a system reset at once, or is taken as a PWR_FAIL condition when protected dirty data is held. -/
  | sysRstNAssertion
  /-- R50. The SYS PLL locks and the stroke counter starts from zero. -/
  | sysPllLock
  /-- R59. At the stroke boundary after Bus Master Enable is first set following DRS, the device enters SERVING. -/
  | enterServing
  /-- R61. A recognised PWR_FAIL_N assertion starts PRESERVE in the same stroke from any mode but PRESERVE. -/
  | pwrFailRecognised
  /-- R64. A CARD_EJECT_N assertion recognised after 1 ms enters DRAINING, is held in BOOT, or leads to PRESERVE from MAINTENANCE at a safe point. -/
  | cardEjectRecognised
  /-- R64. Once no context, port or tandem handover holds the drain back, the device leaves DRAINING for PRESERVE. -/
  | drainComplete
  /-- R65. The drain limit expires; remaining descriptors complete with CONTEXT_RESET, tags are abandoned and the device enters PRESERVE. -/
  | drainLimitReached
  /-- R62. A maintenance operation reaches a safe point while an extraction order is pending, and PRESERVE is entered with CAUSE 0x0E. -/
  | maintenanceSafePoint
  /-- R266. The kickstand sequencer starts PRESERVE, releases BC_IRQ_N, ends admission, sheds blocks and starts the flush of dirty data. -/
  | preserveEntry
  /-- R266. After the flush, the map journal, the context state record and the PRESERVE record are written, the core halts and BC_IRQ_N is asserted. -/
  | preserveHalt
  /-- R63. 2,000 strokes after DEV_RESET reaches DONE, the system reset is applied unless a PRESERVE cause has cancelled it. -/
  | devResetApply
  /-- R152. Every 125 TICK cycles (124 or 126 in a slip) a stroke ends and the 48-bit stroke counter increments. -/
  | strokeBoundary
  /-- R97. A PTM dialogue with no response within 10 µs counts a failure and clears VALID. -/
  | ptmResponseTimeout
  /-- R162. A write of 1 to CAD_COMMIT.GO requests a commit of the shadow lists; RESULT reads PENDING. -/
  | cadCommitGo
  /-- R162. Within 8 strokes of GO, the shadow lists are checked and either copied whole into the active lists or refused. -/
  | cadenceCommitApply
  /-- R168. At stroke B the level change is checked against the cadence plan and either switches clocks and slot plan or is refused. -/
  | levelSwitch
  /-- R418. Every 20 strokes during a level change VID moves one 50 mV level. -/
  | vidStep
  /-- R169. A throttle step still refused GRACE strokes after its first refusal is applied without the check and C0_OVERCOMMIT is set. -/
  | throttleGraceExpiry
  /-- R74. The LTSSM leaves L0 and the link is in recovery for R15 until two strokes after its return. -/
  | hlRecoveryEntry
  /-- R53. HL_PERST_N assertion is recognised and the event is classed as a host-link reset. -/
  | hlPerstAssertion
  /-- R57. Release of HL_PERST_N lets the device begin host-link training within 20 ms. -/
  | hlPerstRelease
  /-- R53. A received hot reset or link disable makes the following down event a host-link reset. -/
  | hotResetReceived
  /-- R99. At a data link layer down event the device stops issuing requests, abandons every tag and records the event. -/
  | dlDown
  /-- R99. 200 strokes after a down event the device classes it as a host-link reset or a surprise link-down and acts per mode. -/
  | dlDownClassify
  /-- R80. Within 20 ms of VF Enable the device sends FRS with reason VF Enabled and ends CRS for virtual functions. -/
  | vfFrsSend
  /-- R81. Clearing VF Enable destroys contexts 1 to NumVFs through drain and squash. -/
  | vfEnableClear
  /-- R96. PME_Turn_Off is answered with PME_TO_Ack within 1 ms and the link enters L2/L3 Ready. -/
  | pmeTurnOff
  /-- R87. A write of 1 to HL_ATS_CTL.FLUSH discards every ATS cache entry. -/
  | hlAtsFlush
  /-- R72. A write of 1 to HL_LINK_CTL.RETRAIN retrains the host link. -/
  | hlRetrain
  /-- R94. On SERVING entry, each write of HL_LTR_VAL and Rest exit, the device sends an LTR message. -/
  | ltrSend
  /-- R274. A patrol scrub reads all DRAM once every HOURS hours and raises source 161 at the end. -/
  | dramScrubPass
  /-- R301. Free blocks outside the reserve are exhausted and STATE becomes WORN. -/
  | mediaWorn
  /-- R346. With no joined member after JOIN_WAIT, the lowest reachable JOINING member forms the peloton. -/
  | joinWaitExpiry
  /-- R352. Each joined member sends VIEW at link or epoch change and every 2,000 strokes. -/
  | viewSend
  /-- R354. A member that loses quorum fences itself and moves its paired home contexts to MOVED. -/
  | memberFence
  /-- R368. The stroke counter reaches IC_STROKE_CMP, raises source 280 and clears EN. -/
  | strokeCompareMatch
  /-- R433. KS_TIME equals KS_ALARM while armed, raising source 281 and clearing ALARM_EN. -/
  | ksAlarmMatch
  /-- R410. A boot in TRIAL counts, and the third without FW_COMMIT restores copies 0 and 1 and resets. -/
  | trialBoot
  /-- R420. The device enters Freewheel: links to Coast, cores clock-gated when idle. -/
  | freewheelEntry
  /-- R420. A wake event ends Freewheel within 4 µs. -/
  | freewheelExit
  /-- R421. After 2,000 idle strokes under IDLE_SLEEP, firmware orders Freewheel. -/
  | idleSleepOrder
  /-- R423. Hub, engines and cores are power-gated and PLLs turned off; the kickstand count carries the strokes. -/
  | restEntryComplete
  /-- R427. An enabled wake-capable edge starts a Freewheel or Rest exit, or is noted during entry. -/
  | wakeEvent
  /-- R423. Rest exit restores power, PLLs, DRAM, links and ports and merges latched edges. -/
  | restExit
  /-- R452. A write of 1 to PFS_TRIG.GO triggers a photo-finish. -/
  | pfsTrigGo
  /-- R452. A PHOTO_N falling edge triggers a photo-finish and raises source 6. -/
  | photoNEdge
  /-- R453. At the latching boundary the 180 snapshot words latch and the stroke is recorded. -/
  | photoLatch
  /-- R456. A write of 1 to PFS_CTL.ARM clears the snapshot and re-arms. -/
  | pfsArm
  /-- R457. JTAG_TRST_N or five TCK cycles with TMS high reset the TAP and close a debug session. -/
  | tapReset
  /-- R457. The IDCODE instruction selects the 32-bit identification register. -/
  | idcode
  /-- R458. The CLAMP instruction holds outputs from the boundary register and selects bypass, only under reset or TEST. -/
  | clamp
  /-- R458. The HIGHZ instruction floats outputs, only under reset or TEST. -/
  | highz
  /-- R457. The BYPASS instruction, and every undefined code, selects the bypass register. -/
  | bypass
  /-- R459. The DAP instruction selects the 66-bit debug access register. -/
  | dap
  /-- R48. The device's supplies leave tolerance or are removed, after a PRESERVE halt, during a PRESERVE, or without PWR_FAIL, and the device stops. -/
  | supplyLoss
  /-- R47. The 32.768 kHz crystal reaches its first stable oscillation and KS_SLOW begins counting. -/
  | ksXtalStart
  /-- R74. The LTSSM returns to L0 from Recovery, and IN_RECOVERY clears at the end of the second stroke after the return. -/
  | hlRecoveryExit
deriving DecidableEq, Repr

end Sys2Proof
end

