-- ==== Sys2Proof/Machine/Ecdsa.lean ====
section
/-! DEFINITION. Machine/Ecdsa.lean: verification of an ECDSA P-384 signature (03 R54; FIPS 186-5 by 00 Table 00-6a; the curve and the
algorithm are taken from that standard: PRESUMED, log 93). A point is none (the point at infinity) or a pair of coordinates. -/
namespace Sys2Proof.Machine

/-- The prime of the field. -/
def ecP : Nat := 2 ^ 384 - 2 ^ 128 - 2 ^ 96 + 2 ^ 32 - 1

/-- The order of the base point. -/
def ecN : Nat := 0xFFFFFFFFFFFFFFFFFFFFFFFFFFFFFFFFFFFFFFFFFFFFFFFFC7634D81F4372DDF581A0DB248B0A77AECEC196ACCC52973

/-- The coefficient b of the curve y² = x³ - 3x + b. -/
def ecB : Nat := 0xB3312FA7E23EE7E4988E056BE3F82D19181D9C6EFE8141120314088F5013875AC656398D8A2ED19D2A85C8EDD3EC2AEF

/-- The base point. -/
def ecG : Option (Nat × Nat) :=
  some (0xAA87CA22BE8B05378EB1C71EF320AD746E1D3B628BA79B9859F741E082542A385502F25DBF55296C3A545E3872760AB7,
        0x3617DE4A96262C6F5D9E98BF9292DC29F8F41DBD289A147CE9DA3113B5F0B8C00A60B1CE1D7E819D7A431D7C90EA0E5F)

/-- A point lies on the curve, with both coordinates below the prime. -/
def ecOn (x y : Nat) : Bool := decide (x < ecP ∧ y < ecP ∧ y * y % ecP = (x * x * x + 3 * (ecP - x) + ecB) % ecP)

/-- The inverse of `a` modulo `m`, by the extended algorithm of Euclid: `fuel` bounds its divisions. -/
def modInv (m : Nat) : Nat → Nat → Nat → Nat → Nat → Nat
  | 0, _, _, _, _ => 0
  | fuel + 1, r0, r1, t0, t1 =>
    if r1 = 0 then t0 else modInv m fuel r1 (r0 % r1) t1 ((t0 + (m - r0 / r1 % m) * t1) % m)

/-- The inverse of `a` modulo a prime of at most 384 bits. -/
def invMod (m a : Nat) : Nat := modInv m 1000 m (a % m) 0 1

/-- The sum of two points. -/
def ecAdd (a b : Option (Nat × Nat)) : Option (Nat × Nat) :=
  match a, b with
  | none, q => q
  | p, none => p
  | some (x1, y1), some (x2, y2) =>
    if x1 = x2 ∧ (y1 + y2) % ecP = 0 then none
    else
      let l := if x1 = x2 then (3 * x1 * x1 + (ecP - 3)) * invMod ecP (2 * y1) % ecP
               else (y2 + ecP - y1) * invMod ecP (x2 + ecP - x1) % ecP
      let x := (l * l + 2 * ecP - x1 - x2) % ecP
      some (x, (l * (x1 + ecP - x) + ecP - y1) % ecP)

/-- A multiple of a point, by the low `n` bits of the factor. -/
def ecMul : Nat → Nat → Option (Nat × Nat) → Option (Nat × Nat)
  | 0, _, _ => none
  | n + 1, k, p => let r := ecMul n (k / 2) (ecAdd p p)
    if k % 2 = 1 then ecAdd p r else r

/-- A big-endian number. -/
def beNat (b : List Byte) : Nat := leNat b.reverse

/-- A signature (96 bytes: r, s) over a digest (48 bytes) verifies under a public key (97 bytes, uncompressed), each number
big-endian. -/
def ecdsaOk (key digest sig : List Byte) : Bool :=
  let x := beNat ((key.drop 1).take 48)
  let y := beNat ((key.drop 49).take 48)
  let r := beNat (sig.take 48)
  let t := beNat ((sig.drop 48).take 48)
  let w := invMod ecN t
  key.head? == some 4 && ecOn x y && decide (0 < r ∧ r < ecN ∧ 0 < t ∧ t < ecN) &&
    (match ecAdd (ecMul 384 (beNat digest * w % ecN) ecG) (ecMul 384 (r * w % ecN) (some (x, y))) with
     | none => false
     | some p => p.1 % ecN == r)

end Sys2Proof.Machine
end

