-- ==== Sys2Proof/Machine/Aes.lean ====
section
/-! DEFINITION. Machine/Aes.lean: AES-256-XTS, in which the spec has apertures stored on NAND and DRAM held (11 R258, R259): AES of
FIPS 197 and XTS of IEEE 1619 (00 Table 00-6a; the algorithms are taken from those standards: PRESUMED, log 193). -/
namespace Sys2Proof.Machine

/-- The S-box and its inverse as numbers, the entry of 0 in the most significant byte. -/
def aesSbox : Nat :=
  0x637C777BF26B6FC53001672BFED7AB76CA82C97DFA5947F0ADD4A2AF9CA472C0 * 2 ^ 1792 +
  0xB7FD9326363FF7CC34A5E5F171D8311504C723C31896059A071280E2EB27B275 * 2 ^ 1536 +
  0x09832C1A1B6E5AA0523BD6B329E32F8453D100ED20FCB15B6ACBBE394A4C58CF * 2 ^ 1280 +
  0xD0EFAAFB434D338545F9027F503C9FA851A3408F929D38F5BCB6DA2110FFF3D2 * 2 ^ 1024 +
  0xCD0C13EC5F974417C4A77E3D645D197360814FDC222A908846EEB814DE5E0BDB * 2 ^ 768 +
  0xE0323A0A4906245CC2D3AC629195E479E7C8376D8DD54EA96C56F4EA657AAE08 * 2 ^ 512 +
  0xBA78252E1CA6B4C6E8DD741F4BBD8B8A703EB5664803F60E613557B986C11D9E * 2 ^ 256 +
  0xE1F8981169D98E949B1E87E9CE5528DF8CA1890DBFE6426841992D0FB054BB16

/-- See `aesSbox`. -/
def aesInvSbox : Nat :=
  0x52096AD53036A538BF40A39E81F3D7FB7CE339829B2FFF87348E4344C4DEE9CB * 2 ^ 1792 +
  0x547B9432A6C2233DEE4C950B42FAC34E082EA16628D924B2765BA2496D8BD125 * 2 ^ 1536 +
  0x72F8F66486689816D4A45CCC5D65B6926C704850FDEDB9DA5E154657A78D9D84 * 2 ^ 1280 +
  0x90D8AB008CBCD30AF7E45805B8B34506D02C1E8FCA3F0F02C1AFBD0301138A6B * 2 ^ 1024 +
  0x3A9111414F67DCEA97F2CFCEF0B4E67396AC7422E7AD3585E2F937E81C75DF6E * 2 ^ 768 +
  0x47F11A711D29C5896FB7620EAA18BE1BFC563E4BC6D279209ADBC0FE78CD5AF4 * 2 ^ 512 +
  0x1FDDA8338807C731B11210592780EC5F60517FA919B54A0D2DE57A9F93C99CEF * 2 ^ 256 +
  0xA0E03B4DAE2AF5B0C8EBBB3C83539961172B047EBA77D626E169146355210C7D

/-- One entry of such a table. -/
def aesLook (t : Nat) (b : Byte) : Byte := BitVec.ofNat 8 (t >>> (8 * (255 - b.toNat)))

/-- The bytes of two lists, xored. -/
def xorBytes (a b : List Byte) : List Byte := (a.zip b).map fun x => x.1 ^^^ x.2

/-- Multiplication by x in the field of AES. -/
def aesX (b : Byte) : Byte := (b <<< 1) ^^^ (if b.msb then 0x1B else 0)

/-- Multiplication by a constant below 16 in the field of AES. -/
def aesMul (k : Nat) (b : Byte) : Byte :=
  let pick (i : Nat) (v : Byte) : Byte := if k.testBit i then v else 0
  pick 0 b ^^^ pick 1 (aesX b) ^^^ pick 2 (aesX (aesX b)) ^^^ pick 3 (aesX (aesX (aesX b)))

/-- A column multiplied by the circulant matrix whose first row is `m`. -/
def aesColumn (m : List Nat) (c : List Byte) : List Byte :=
  (List.range 4).map fun r => ((List.range 4).map fun j => aesMul (m.getD ((j + 4 - r) % 4) 0) (c.getD j 0)).foldl (· ^^^ ·) 0

/-- All four columns of a block so. -/
def aesColumns (m : List Nat) (b : List Byte) : List Byte :=
  ((List.range 4).map fun c => aesColumn m ((b.drop (4 * c)).take 4)).flatten

/-- Row r of a block turned by k × r places to the left. -/
def aesRows (k : Nat) (b : List Byte) : List Byte := (List.range 16).map fun i => b.getD ((i + 4 * k * (i % 4)) % 16) 0

/-- The key schedule: `n` more words follow those there are, oldest first; word i follows from words i - 1 and i - 8. -/
def aesExpand : Nat → List (List Byte) → List (List Byte)
  | 0, w => w
  | n + 1, w =>
    let i := w.length
    let t := w.getD (i - 1) []
    let t := if i % 8 = 0 then xorBytes ((t.drop 1 ++ t.take 1).map (aesLook aesSbox)) [BitVec.ofNat 8 (2 ^ (i / 8 - 1)), 0, 0, 0]
             else if i % 8 = 4 then t.map (aesLook aesSbox) else t
    aesExpand n (w ++ [xorBytes (w.getD (i - 8) []) t])

/-- The round keys of a 32-byte key, 15 of 16 bytes each. -/
def aesKeys (key : List Byte) : List (List Byte) :=
  let w := aesExpand 52 ((List.range 8).map fun i => (key.drop (4 * i)).take 4)
  (List.range 15).map fun r => ((w.drop (4 * r)).take 4).flatten

/-- A block encrypted under round keys. -/
def aesEncrypt (ks : List (List Byte)) (b : List Byte) : List Byte :=
  let sub (b : List Byte) : List Byte := aesRows 1 (b.map (aesLook aesSbox))
  let mid := ((ks.drop 1).take 13).foldl (fun b k => xorBytes (aesColumns [2, 3, 1, 1] (sub b)) k) (xorBytes b (ks.getD 0 []))
  xorBytes (sub mid) (ks.getD 14 [])

/-- A block decrypted under round keys. -/
def aesDecrypt (ks : List (List Byte)) (b : List Byte) : List Byte :=
  let sub (b : List Byte) : List Byte := (aesRows 3 b).map (aesLook aesInvSbox)
  let mid := ((ks.drop 1).take 13).reverse.foldl (fun b k => aesColumns [14, 11, 13, 9] (xorBytes (sub b) k)) (xorBytes b (ks.getD 14 []))
  xorBytes (sub mid) (ks.getD 0 [])

/-- The tweak of the next block: multiplication by x in the field of 128 bits, bytes little-endian. -/
def xtsNext (t : List Byte) : List Byte :=
  let n := leNat t
  leBytes 16 (if n < 2 ^ 127 then 2 * n else (2 * n % 2 ^ 128) ^^^ 0x87)

/-- The blocks of a data unit, each under its tweak. -/
def xtsBlocks (f : List Byte → List Byte) : Nat → List Byte → List Byte → List Byte
  | 0, _, _ => []
  | n + 1, t, d => xorBytes (f (xorBytes (d.take 16) t)) t ++ xtsBlocks f n (xtsNext t) (d.drop 16)

/-- A data unit of whole blocks encrypted under a key pair (64 bytes: data key, tweak key) and the number of its tweak. -/
def xtsEncrypt (key : List Byte) (tweak : Nat) (d : List Byte) : List Byte :=
  xtsBlocks (aesEncrypt (aesKeys (key.take 32))) (d.length / 16) (aesEncrypt (aesKeys (key.drop 32)) (leBytes 16 tweak)) d

/-- A data unit decrypted. -/
def xtsDecrypt (key : List Byte) (tweak : Nat) (d : List Byte) : List Byte :=
  xtsBlocks (aesDecrypt (aesKeys (key.take 32))) (d.length / 16) (aesEncrypt (aesKeys (key.drop 32)) (leBytes 16 tweak)) d

end Sys2Proof.Machine
end

