-- ==== Sys2Proof/Config.lean ====
section
/-! DEFINITION. Config.lean: what an implementation fixes and the free values, which the spec leaves open.
A free value has no body: nothing can be proved of it, and a claim that holds, holds whatever it is. -/
namespace Sys2Proof

/-- Which register of its block a photo-finish directory word names, and in which order the words stand (19 R451, Table 19-8: "Fixed"):
Table 19-1 gives how many words each block has. Free (log 6). -/
opaque Config.pfsPick : Nat → Nat

/-- Corrected errors of control-core SRAM in a stroke (18 Table 18-16): no command reports them. Free (log 120). -/
opaque Config.sramFixed : BitVec 48 → Nat

/-- What stands on FUSE_EN (bit 0) and whether VDD_FUSE is in range (bit 1), by stroke, while no fuse is programmed (19 Table 19-9).
Free (log 97). -/
opaque Config.fusePins : BitVec 48 → BitVec 2

/-- A value that the device draws or measures and the spec does not state, one for each draw: the model counts the
draws in State.draws (log 7). -/
opaque Config.drawn : Nat → BitVec 64

/-- The signing root fused at the factory: the SHA-384 hash of the release key (03 R54). Not stated. Free (log 93). -/
opaque Config.signingRoot : List Byte

/-- The AES-256-XTS key pair (64 bytes) that the random number generator gave the n-th created aperture, and the one it gave DRAM at
the n-th reset (11 R258, R259). Drawn. Free (log 193). -/
opaque Config.aptKeyPair : Nat → List Byte
opaque Config.dramKeyPair : Nat → List Byte

/-- A key pair wrapped under the fused device key (11 R258). Neither the wrapping nor that key is stated. Free (log 193). -/
opaque Config.wrapKey : List Byte → List Byte

/-- The layout of the programmed-field bitmap (16 Table 16-11), from which fields are programmed. Not stated. Free (log
94). -/
opaque Config.fuseBitmap : List Nat → BitVec 16

/-- A configuration word's bits that the device sets and the spec does not state, by function and dword: serial number,
power figures, latencies (04 R75, Tables 04-3 and 04-4). Free (log 148). -/
opaque Config.cfgConst : Nat → Nat → BitVec 32

/-- The header of a received TLP that an error report keeps, one for each report, of up to eight dwords (04 R76, R91). The
commands carry no headers. Free (log 149). -/
opaque Config.tlpHeader : Nat → BitVec 256

/-- The Header Log entry that the device builds from Routing ID, BAR address and length of a write that failed after it was
received (04 R91). The layout is not stated. Free (log 149). -/
opaque Config.headerLog : Nat → Nat → Nat → BitVec 128

/-- A window of a peer's context is once-only in a stroke (06 Table 06-7): its WIN_ATTR stands in the other member, and no message
tells it; by global context, window and stroke. Free (log 182). -/
opaque Config.peerOnce : Nat → Nat → BitVec 48 → Bool

/-- The state of a transmit lane's scrambler before the lane's first block, by link and lane (13 R308). Not stated. Free (log
183). -/
opaque Config.ulSeed : Nat → Nat → BitVec 58

/-- Boot blocks with a factory bad-block mark, by copy and block; how many blocks a boot image of a size takes, and the shipped image
(12 R299). Not stated. Free (log 226). -/
opaque Config.factoryBad : Nat → Nat → Bool
opaque Config.bootBlocks : Nat → Nat
opaque Config.shippedBlocks : Nat

/-- How far a running rebuild has come, in thousandths, and the patrol pass under way, in percent, by stroke (12 Table 12-10): firmware's
pace. Free (log 192). -/
opaque Config.rebuildDone : BitVec 48 → Nat
opaque Config.patrolDone : BitVec 48 → Nat

end Sys2Proof
end

