-- ==== Sys2Proof/Machine/Regs.lean ====
section
/-! DEFINITION. Machine/Regs.lean: where every register lies and what its fields are (20 R464 to R471 and the field
maps of the chapters 03 to 19). The lists are written from the field-map tables of spec/: offset, bits, access
type (00 R8) and reset value. Registers reached through a bank selection (20 R467) and the context pages of
contexts 1 to 1,023 lie, in this model, at home addresses above 2^32 (Adr), which no bus address names. -/
namespace Sys2Proof.Machine

/-- Access types of a register field (00 R8, Table 00-5). -/
inductive Access where
  | ro | rw | rw1c | rw1s | wo | rc | rsvd
deriving DecidableEq, Repr

/-- One field of a field map: bits, access, and the encodings a write may hold (00 R6); `0, 0` where every one is. -/
structure FieldDef where
  hi : Nat
  lo : Nat
  acc : Access
  least : Nat := 0
  most : Nat := 0
deriving DecidableEq, Repr

/-- One register layout: name, base, array strides and counts (largest first), value at reset, and fields.
The value at reset of element i is `rst0` for i = 0 and `rst + i * step` otherwise. -/
structure RegDef where
  name : String
  base : Nat
  dims : List (Nat × Nat)
  rst0 : Nat
  rst : Nat
  step : Nat
  fields : List FieldDef
deriving Repr

/-- A named field: the address of its register and its bits. -/
structure Field where
  addr : Nat
  hi : Nat
  lo : Nat
deriving DecidableEq, Repr

namespace Adr

/-- DEV_FWREV (Table 03-10). -/
def DEV_FWREV : Nat := 0x100004
/-- DEV_STRAP (Table 03-11). -/
def DEV_STRAP : Nat := 0x100008
/-- DEV_MODE (Table 03-12). -/
def DEV_MODE : Nat := 0x100010
/-- DEV_RST_CAUSE (Table 03-14). -/
def DEV_RST_CAUSE : Nat := 0x100020
/-- DEV_BOOT (Table 03-15). -/
def DEV_BOOT : Nat := 0x100024
/-- DEV_FAULT_STATUS (Table 18-16). -/
def DEV_FAULT_STATUS : Nat := 0x100050
/-- DEV_FAULT_CNT (Table 18-16). -/
def DEV_FAULT_CNT : Nat := 0x100054
/-- DEV_FAULT_LOG (Table 18-16). -/
def DEV_FAULT_LOG : Nat := 0x100058
/-- DEV_SRAM_ECC (Table 18-16). -/
def DEV_SRAM_ECC : Nat := 0x100060
/-- DEV_FAULT_TS (Table 18-16). -/
def DEV_FAULT_TS : Nat := 0x10005C
/-- KS_LAST_WAKE (Table 17-10). -/
def KS_LAST_WAKE : Nat := 0x120010
/-- KS_LAST_WAKE_TS (Table 17-10). -/
def KS_LAST_WAKE_TS : Nat := 0x120014
/-- KS_WAKE_LATCH_LO (Table 17-10). -/
def KS_WAKE_LATCH_LO : Nat := 0x120008
/-- KS_WAKE_LATCH_HI (Table 17-10). -/
def KS_WAKE_LATCH_HI : Nat := 0x12000C
/-- KS_TIME (Table 17-11). -/
def KS_TIME : Nat := 0x120018
/-- KS_ALARM (Table 17-11). -/
def KS_ALARM : Nat := 0x12001C
/-- KS_GPIO_EDGE (Table 17-11). -/
def KS_GPIO_EDGE : Nat := 0x120020
/-- HL_LTR_VAL (Table 04-14). -/
def HL_LTR_VAL : Nat := 0x140014
/-- CTX_STATE (Table 05-14). -/
def CTX_STATE (n : Nat) : Nat := 0x100000004 + 65536 * n
/-- CTX_CAPS (Table 05-15). -/
def CTX_CAPS (n : Nat) : Nat := 0x100000008 + 65536 * n
/-- CTX_WDOG_STATUS (Table 05-16). -/
def CTX_WDOG_STATUS (n : Nat) : Nat := 0x100000014 + 65536 * n
/-- CTX_OCC (Table 05-16). -/
def CTX_OCC (n : Nat) : Nat := 0x100000018 + 65536 * n
/-- CTX_SHARE0 (Table 05-17). -/
def CTX_SHARE0 (n : Nat) : Nat := 0x100000040 + 65536 * n
/-- CTX_SHARE1 (Table 05-17). -/
def CTX_SHARE1 (n : Nat) : Nat := 0x100000044 + 65536 * n
/-- CTX_SHARE2 (Table 05-17). -/
def CTX_SHARE2 (n : Nat) : Nat := 0x100000048 + 65536 * n
/-- CTX_SHARE3 (Table 05-17). -/
def CTX_SHARE3 (n : Nat) : Nat := 0x10000004C + 65536 * n
/-- CTX_SHARE4 (Table 05-17). -/
def CTX_SHARE4 (n : Nat) : Nat := 0x100000050 + 65536 * n
/-- CTX_SHARE5 (Table 05-17). -/
def CTX_SHARE5 (n : Nat) : Nat := 0x100000054 + 65536 * n
/-- CTX_SHARE6 (Table 05-17). -/
def CTX_SHARE6 (n : Nat) : Nat := 0x100000058 + 65536 * n
/-- CTX_SHARE7 (Table 05-17). -/
def CTX_SHARE7 (n : Nat) : Nat := 0x10000005C + 65536 * n
/-- CTX_PERSIST (Table 11-3). -/
def CTX_PERSIST (n : Nat) : Nat := 0x100000100 + 65536 * n
/-- CTX_VIOL_CFG (Table 09-11). -/
def CTX_VIOL_CFG (n : Nat) : Nat := 0x100000110 + 65536 * n
/-- CTX_VIOL0 (Table 09-12). -/
def CTX_VIOL0 (n k : Nat) : Nat := 0x100000120 + 65536 * n + 16 * k
/-- CTX_PWE_BASE_LO (Table 06-17). -/
def CTX_PWE_BASE_LO (n : Nat) : Nat := 0x100000200 + 65536 * n
/-- CTX_PWE_BASE_HI (Table 06-17). -/
def CTX_PWE_BASE_HI (n : Nat) : Nat := 0x100000204 + 65536 * n
/-- CTX_PWE_WSEQ_LO (Table 06-17). -/
def CTX_PWE_WSEQ_LO (n : Nat) : Nat := 0x100000218 + 65536 * n
/-- CTX_PWE_WSEQ_HI (Table 06-17). -/
def CTX_PWE_WSEQ_HI (n : Nat) : Nat := 0x10000021C + 65536 * n
/-- QP_SQ_BASE_LO (Table 06-12). -/
def QP_SQ_BASE_LO (n k : Nat) : Nat := 0x100001000 + 65536 * n + 64 * k
/-- QP_SQ_BASE_HI (Table 06-12). -/
def QP_SQ_BASE_HI (n k : Nat) : Nat := 0x100001004 + 65536 * n + 64 * k
/-- QP_CQ_BASE_LO (Table 06-12). -/
def QP_CQ_BASE_LO (n k : Nat) : Nat := 0x100001008 + 65536 * n + 64 * k
/-- QP_CQ_BASE_HI (Table 06-12). -/
def QP_CQ_BASE_HI (n k : Nat) : Nat := 0x10000100C + 65536 * n + 64 * k
/-- QP_PTR (Table 06-14). -/
def QP_PTR (n k : Nat) : Nat := 0x10000101C + 65536 * n + 64 * k
/-- CQ_EVT_CFG (Table 15-15). -/
def CQ_EVT_CFG (n k : Nat) : Nat := 0x100003000 + 65536 * n + 16 * k
/-- CQ_EVT_STATUS (Table 15-15). -/
def CQ_EVT_STATUS (n k : Nat) : Nat := 0x100003004 + 65536 * n + 16 * k
/-- CTX_EVT_STATUS (Table 15-15). -/
def CTX_EVT_STATUS (n : Nat) : Nat := 0x100003404 + 65536 * n
/-- MBX_CMD (Table 16-2). -/
def MBX_CMD (n : Nat) : Nat := 0x780000 + 4096 * n
/-- MBXS_CMD (Table 16-2). -/
def MBXS_CMD (n : Nat) : Nat := 0x100004000 + 65536 * n
/-- CTX_SEL (Table 05-18). -/
def CTX_SEL : Nat := 0x180000
/-- CTX_SEL_WDOG (Table 05-19). -/
def CTX_SEL_WDOG (n : Nat) : Nat := 0x2000000000 + 64 * n
/-- CAD_STROKE_HI (Table 07-10). -/
def CAD_STROKE_HI : Nat := 0x280004
/-- CAD_COMMIT (Table 07-11). -/
def CAD_COMMIT : Nat := 0x280010
/-- CAD_RSV_TGT_LB (Table 07-13). -/
def CAD_RSV_TGT_LB : Nat := 0x28002C
/-- CAD_RSV_TGT_UL (Table 07-13). -/
def CAD_RSV_TGT_UL : Nat := 0x280030
/-- CAD_LEVEL_LOG (Table 07-14). -/
def CAD_LEVEL_LOG : Nat := 0x280040
/-- CAD_PTM_STATUS (Table 07-15). -/
def CAD_PTM_STATUS : Nat := 0x280054
/-- CAD_HOSTT_LO (Table 07-15). -/
def CAD_HOSTT_LO : Nat := 0x280058
/-- CAD_HOSTT_HI (Table 07-15). -/
def CAD_HOSTT_HI : Nat := 0x28005C
/-- CAD_HOSTT_STROKE (Table 07-15). -/
def CAD_HOSTT_STROKE : Nat := 0x280060
/-- CAD_PEL_ALIGN (Table 07-16). -/
def CAD_PEL_ALIGN : Nat := 0x280070
/-- LB_CRED (Table 08-14). -/
def LB_CRED (n : Nat) : Nat := 0x300008 + 65536 * n
/-- LB_LINT_CFG (Table 08-17). -/
def LB_LINT_CFG (n : Nat) : Nat := 0x300030 + 65536 * n
/-- LB_SRB0 (Table 08-18). -/
def LB_SRB0 (n k : Nat) : Nat := 0x300200 + 65536 * n + 16 * k
/-- LB_UPR_LADDR_LO (Table 08-19). -/
def LB_UPR_LADDR_LO (n k : Nat) : Nat := 0x300400 + 65536 * n + 32 * k
/-- LB_UPR_LADDR_HI (Table 08-19). -/
def LB_UPR_LADDR_HI (n k : Nat) : Nat := 0x300404 + 65536 * n + 32 * k
/-- LB_UPR_HADDR_LO (Table 08-19). -/
def LB_UPR_HADDR_LO (n k : Nat) : Nat := 0x300408 + 65536 * n + 32 * k
/-- LB_UPR_HADDR_HI (Table 08-19). -/
def LB_UPR_HADDR_HI (n k : Nat) : Nat := 0x30040C + 65536 * n + 32 * k
/-- LB_UPR_CFG (Table 08-19). -/
def LB_UPR_CFG (n k : Nat) : Nat := 0x300410 + 65536 * n + 32 * k
/-- WIN_SEL (Table 08-20). -/
def WIN_SEL : Nat := 0x308000
/-- WIN_BAR (Table 08-20). -/
def WIN_BAR (n k : Nat) : Nat := 0x400000004 + 512 * n + 32 * k
/-- WIN_LADDR_LO (Table 08-20). -/
def WIN_LADDR_LO (n k : Nat) : Nat := 0x400000008 + 512 * n + 32 * k
/-- WIN_LADDR_HI (Table 08-20). -/
def WIN_LADDR_HI (n k : Nat) : Nat := 0x40000000C + 512 * n + 32 * k
/-- WIN_CTL (Table 08-21). -/
def WIN_CTL (n k : Nat) : Nat := 0x400000010 + 512 * n + 32 * k
/-- WIN_ATTR (Table 08-21). -/
def WIN_ATTR (n k : Nat) : Nat := 0x400000014 + 512 * n + 32 * k
/-- ACC_REGION_LO (Table 09-14). -/
def ACC_REGION_LO (n : Nat) : Nat := 0x380100 + 8 * n
/-- ACC_REGION_HI (Table 09-14). -/
def ACC_REGION_HI (n : Nat) : Nat := 0x380104 + 8 * n
/-- ACC_VLOG0 (Table 09-15). -/
def ACC_VLOG0 (n : Nat) : Nat := 0x380400 + 16 * n
/-- ACC_GUARD_BASE_LO (Table 09-16). -/
def ACC_GUARD_BASE_LO (n : Nat) : Nat := 0x380800 + 32 * n
/-- ACC_PEER0 (Table 09-17). -/
def ACC_PEER0 (n : Nat) : Nat := 0x381000 + 8 * n
/-- MSG_RXB_SEL (Table 10-9). -/
def MSG_RXB_SEL : Nat := 0x400100
/-- MSG_RXB_BASE_LO (Table 10-9). -/
def MSG_RXB_BASE_LO (n k : Nat) : Nat := 0x800000004 + 2048 * n + 32 * k
/-- MSG_RXB_BASE_HI (Table 10-9). -/
def MSG_RXB_BASE_HI (n k : Nat) : Nat := 0x800000008 + 2048 * n + 32 * k
/-- MSG_FRT_LO (Table 10-10). -/
def MSG_FRT_LO (n k : Nat) : Nat := 0x400400 + 128 * n + 8 * k
/-- MSG_SBT_LO (Table 10-10). -/
def MSG_SBT_LO (n k : Nat) : Nat := 0x400600 + 128 * n + 8 * k
/-- MSG_RT_LO (Table 10-10). -/
def MSG_RT_LO (n : Nat) : Nat := 0x1000000 + 8 * n
/-- DS_CFG (Table 11-11). -/
def DS_CFG : Nat := 0x480000
/-- DS_BUDGET (Table 11-11). -/
def DS_BUDGET : Nat := 0x480004
/-- DS_HOLDUP (Table 11-11). -/
def DS_HOLDUP : Nat := 0x480008
/-- DS_RECOVER (Table 11-13). -/
def DS_RECOVER : Nat := 0x480040
/-- DS_RECOVER_UNITS (Table 11-13). -/
def DS_RECOVER_UNITS : Nat := 0x480044
/-- DS_PRESERVE_LOG (Table 11-13). -/
def DS_PRESERVE_LOG : Nat := 0x480048
/-- DS_PRESERVE_UNITS (Table 11-13). -/
def DS_PRESERVE_UNITS : Nat := 0x48004C
/-- DS_APT_SEL (Table 11-14). -/
def DS_APT_SEL : Nat := 0x480100
/-- DS_APT_STATUS (Table 11-14). -/
def DS_APT_STATUS (n : Nat) : Nat := 0x1000000004 + 32 * n
/-- DS_APT_LOST (Table 11-14). -/
def DS_APT_LOST (n : Nat) : Nat := 0x1000000008 + 32 * n
/-- DS_APT_OCC (Table 11-14). -/
def DS_APT_OCC (n : Nat) : Nat := 0x100000000C + 32 * n
/-- DS_APT_RESYNC (Table 11-14). -/
def DS_APT_RESYNC (n : Nat) : Nat := 0x1000000010 + 32 * n
/-- MED_STATUS (Table 12-8). -/
def MED_STATUS : Nat := 0x500000
/-- MED_LUN_LOST_LO (Table 12-8). -/
def MED_LUN_LOST_LO : Nat := 0x500004
/-- MED_LUN_LOST_HI (Table 12-8). -/
def MED_LUN_LOST_HI : Nat := 0x500008
/-- MED_LIFE (Table 12-9). -/
def MED_LIFE : Nat := 0x500010
/-- MED_PE (Table 12-9). -/
def MED_PE : Nat := 0x500014
/-- MED_WA (Table 12-9). -/
def MED_WA : Nat := 0x500018
/-- MED_PATROL_STATUS (Table 12-10). -/
def MED_PATROL_STATUS : Nat := 0x500028
/-- MED_REBUILD_STATUS (Table 12-10). -/
def MED_REBUILD_STATUS : Nat := 0x500034
/-- MED_RETRY_HIST (Table 12-10). -/
def MED_RETRY_HIST : Nat := 0x500040
/-- UL_MAP (Table 13-16). -/
def UL_MAP (n : Nat) : Nat := 0x60000C + 65536 * n
/-- PEL_STATUS (Table 14-8). -/
def PEL_STATUS : Nat := 0x680000
/-- PEL_VIEW (Table 14-8). -/
def PEL_VIEW : Nat := 0x680004
/-- PEL_ROUTE (Table 14-8). -/
def PEL_ROUTE : Nat := 0x680008
/-- PEL_CTL (Table 14-9). -/
def PEL_CTL : Nat := 0x680010
/-- PEL_IDENT_LO (Table 14-9). -/
def PEL_IDENT_LO : Nat := 0x680020
/-- PEL_IDENT_HI (Table 14-9). -/
def PEL_IDENT_HI : Nat := 0x680024
/-- PEL_CNT (Table 14-9). -/
def PEL_CNT : Nat := 0x680028
/-- PEL_SBY (Table 14-10). -/
def PEL_SBY (n : Nat) : Nat := 0x680100 + 4 * n
/-- PEL_SEL (Table 14-10). -/
def PEL_SEL : Nat := 0x680200
/-- PEL_TANDEM (Table 14-10). -/
def PEL_TANDEM (n : Nat) : Nat := 0x2000000008 + 64 * n
/-- PEL_GEN (Table 14-10). -/
def PEL_GEN (n : Nat) : Nat := 0x200000000C + 64 * n
/-- IC_PEND (Table 15-9). -/
def IC_PEND (n : Nat) : Nat := 0x700000 + 4 * n
/-- IC_EN (Table 15-9). -/
def IC_EN (n : Nat) : Nat := 0x7000C0 + 4 * n
/-- IC_CORE_CFG (Table 15-11). -/
def IC_CORE_CFG (n : Nat) : Nat := 0x4000000000 + 4 * n
/-- EV_SEL (Table 15-14). -/
def EV_SEL : Nat := 0x740010
/-- MBX_BC_ATTN (Table 16-15). -/
def MBX_BC_ATTN : Nat := 0x788010
/-- MBX_BC_ATTN_EN (Table 16-15). -/
def MBX_BC_ATTN_EN : Nat := 0x788014
/-- PFS_BCAST (Table 19-8). -/
def PFS_BCAST : Nat := 0x7C0018
/-- PFS_SNAP (Table 19-8). -/
def PFS_SNAP (n : Nat) : Nat := 0x7C1000 + 4 * n
/-- DBG_STATUS (Table 19-9). -/
def DBG_STATUS : Nat := 0x7E0000
/-- DBG_DENY_ADDR (Table 19-9). -/
def DBG_DENY_ADDR : Nat := 0x7E0008
/-- DBG_DENY_TS (Table 19-9). -/
def DBG_DENY_TS : Nat := 0x7E000C
/-- DBG_POLICY (Table 19-9). -/
def DBG_POLICY : Nat := 0x7E0010

end Adr

namespace Fld

/-- DEV_STRAP.INVALID (Table 03-11). -/
def DEV_STRAP_INVALID : Field := ⟨0x100008, 8, 8⟩
/-- DEV_STRAP.TEST (Table 03-11). -/
def DEV_STRAP_TEST : Field := ⟨0x100008, 7, 7⟩
/-- DEV_STRAP.UL_PRESET_CLASS (Table 03-11). -/
def DEV_STRAP_UL_PRESET_CLASS : Field := ⟨0x100008, 6, 5⟩
/-- DEV_STRAP.TOPOLOGY (Table 03-11). -/
def DEV_STRAP_TOPOLOGY : Field := ⟨0x100008, 4, 3⟩
/-- DEV_STRAP.MEMBER_ID (Table 03-11). -/
def DEV_STRAP_MEMBER_ID : Field := ⟨0x100008, 2, 0⟩
/-- DEV_MODE.CAUSE (Table 03-12). -/
def DEV_MODE_CAUSE : Field := ⟨0x100010, 23, 16⟩
/-- DEV_MODE.PREV (Table 03-12). -/
def DEV_MODE_PREV : Field := ⟨0x100010, 10, 8⟩
/-- DEV_MODE.MODE (Table 03-12). -/
def DEV_MODE_MODE : Field := ⟨0x100010, 2, 0⟩
/-- DEV_MODE_TS_LO.STROKE_LO (Table 03-13). -/
def DEV_MODE_TS_LO_STROKE_LO : Field := ⟨0x100014, 31, 0⟩
/-- DEV_MODE_TS_HI.STROKE_HI (Table 03-13). -/
def DEV_MODE_TS_HI_STROKE_HI : Field := ⟨0x100018, 15, 0⟩
/-- DEV_RST_CAUSE.PRESERVE_CUT (Table 03-14). -/
def DEV_RST_CAUSE_PRESERVE_CUT : Field := ⟨0x100020, 8, 8⟩
/-- DEV_RST_CAUSE.PRESERVE_DONE (Table 03-14). -/
def DEV_RST_CAUSE_PRESERVE_DONE : Field := ⟨0x100020, 7, 7⟩
/-- DEV_RST_CAUSE.CMD_RESET (Table 03-14). -/
def DEV_RST_CAUSE_CMD_RESET : Field := ⟨0x100020, 6, 6⟩
/-- DEV_RST_CAUSE.THERM_TRIP (Table 03-14). -/
def DEV_RST_CAUSE_THERM_TRIP : Field := ⟨0x100020, 5, 5⟩
/-- DEV_RST_CAUSE.PWR_FAIL (Table 03-14). -/
def DEV_RST_CAUSE_PWR_FAIL : Field := ⟨0x100020, 4, 4⟩
/-- DEV_RST_CAUSE.SYS_RST (Table 03-14). -/
def DEV_RST_CAUSE_SYS_RST : Field := ⟨0x100020, 3, 3⟩
/-- DEV_BOOT.ERR (Table 03-15). -/
def DEV_BOOT_ERR : Field := ⟨0x100024, 23, 16⟩
/-- DEV_BOOT.FAILED (Table 03-15). -/
def DEV_BOOT_FAILED : Field := ⟨0x100024, 15, 12⟩
/-- DEV_BOOT.COPY (Table 03-15). -/
def DEV_BOOT_COPY : Field := ⟨0x100024, 9, 8⟩
/-- DEV_BOOT.STAGE (Table 03-15). -/
def DEV_BOOT_STAGE : Field := ⟨0x100024, 3, 0⟩
/-- DEV_DRAIN_LIMIT.LIMIT_MS (Table 03-16). -/
def DEV_DRAIN_LIMIT_LIMIT_MS : Field := ⟨0x100030, 9, 0⟩
/-- DEV_GATED_ACC.VALID (Table 18-15). -/
def DEV_GATED_ACC_VALID : Field := ⟨0x100040, 31, 31⟩
/-- DEV_GATED_ACC.WRITE (Table 18-15). -/
def DEV_GATED_ACC_WRITE : Field := ⟨0x100040, 30, 30⟩
/-- DEV_GATED_ACC.HUNG (Table 18-15). -/
def DEV_GATED_ACC_HUNG : Field := ⟨0x100040, 29, 29⟩
/-- DEV_GATED_ACC.MASTER (Table 18-15). -/
def DEV_GATED_ACC_MASTER : Field := ⟨0x100040, 26, 24⟩
/-- DEV_GATED_ACC.CORE (Table 18-15). -/
def DEV_GATED_ACC_CORE : Field := ⟨0x100040, 21, 20⟩
/-- DEV_GATED_ACC.BLOCK (Table 18-15). -/
def DEV_GATED_ACC_BLOCK : Field := ⟨0x100040, 12, 8⟩
/-- DEV_GATED_ADDR.ADDR (Table 18-15). -/
def DEV_GATED_ADDR_ADDR : Field := ⟨0x100044, 31, 0⟩
/-- DEV_GATED_TS.STROKE_LO (Table 18-15). -/
def DEV_GATED_TS_STROKE_LO : Field := ⟨0x100048, 31, 0⟩
/-- DEV_GATED_CNT.COUNT (Table 18-15). -/
def DEV_GATED_CNT_COUNT : Field := ⟨0x10004C, 15, 0⟩
/-- DEV_FAULT_STATUS.STOP (Table 18-16). -/
def DEV_FAULT_STATUS_STOP : Field := ⟨0x100050, 31, 31⟩
/-- DEV_FAULT_STATUS.DEGRADED (Table 18-16). -/
def DEV_FAULT_STATUS_DEGRADED : Field := ⟨0x100050, 30, 30⟩
/-- DEV_FAULT_STATUS.RESTARTING (Table 18-16). -/
def DEV_FAULT_STATUS_RESTARTING : Field := ⟨0x100050, 29, 29⟩
/-- DEV_FAULT_STATUS.STOP_REASON (Table 18-16). -/
def DEV_FAULT_STATUS_STOP_REASON : Field := ⟨0x100050, 23, 20⟩
/-- DEV_FAULT_STATUS.RESTARTS (Table 18-16). -/
def DEV_FAULT_STATUS_RESTARTS : Field := ⟨0x100050, 11, 8⟩
/-- DEV_FAULT_STATUS.SPOKES_FENCED (Table 18-16). -/
def DEV_FAULT_STATUS_SPOKES_FENCED : Field := ⟨0x100050, 5, 0⟩
/-- DEV_FAULT_CNT.CORE_FENCES (Table 18-16). -/
def DEV_FAULT_CNT_CORE_FENCES : Field := ⟨0x100054, 31, 24⟩
/-- DEV_FAULT_CNT.FW_RESTARTS (Table 18-16). -/
def DEV_FAULT_CNT_FW_RESTARTS : Field := ⟨0x100054, 23, 16⟩
/-- DEV_FAULT_CNT.SRAM_UNCORR (Table 18-16). -/
def DEV_FAULT_CNT_SRAM_UNCORR : Field := ⟨0x100054, 15, 8⟩
/-- DEV_FAULT_CNT.DRAM_FW_REPAIR (Table 18-16). -/
def DEV_FAULT_CNT_DRAM_FW_REPAIR : Field := ⟨0x100054, 7, 0⟩
/-- DEV_FAULT_LOG.VALID (Table 18-16). -/
def DEV_FAULT_LOG_VALID : Field := ⟨0x100058, 31, 31⟩
/-- DEV_FAULT_LOG.CODE (Table 18-16). -/
def DEV_FAULT_LOG_CODE : Field := ⟨0x100058, 15, 0⟩
/-- DEV_FAULT_TS.STROKE_LO (Table 18-16). -/
def DEV_FAULT_TS_STROKE_LO : Field := ⟨0x10005C, 31, 0⟩
/-- DEV_SRAM_ECC.UNCORR (Table 18-16). -/
def DEV_SRAM_ECC_UNCORR : Field := ⟨0x100060, 15, 8⟩
/-- CRP_LEVEL.CUR (Table 17-7). -/
def CRP_LEVEL_CUR : Field := ⟨0x110000, 31, 30⟩
/-- CRP_LEVEL.ORDERED (Table 17-7). -/
def CRP_LEVEL_ORDERED : Field := ⟨0x110000, 29, 28⟩
/-- CRP_LEVEL.CAP (Table 17-7). -/
def CRP_LEVEL_CAP : Field := ⟨0x110000, 27, 26⟩
/-- CRP_LEVEL.FLOOR (Table 17-7). -/
def CRP_LEVEL_FLOOR : Field := ⟨0x110000, 25, 24⟩
/-- CRP_LEVEL.AUTO (Table 17-7). -/
def CRP_LEVEL_AUTO : Field := ⟨0x110000, 23, 23⟩
/-- CRP_LEVEL.IDLE_SLEEP (Table 17-7). -/
def CRP_LEVEL_IDLE_SLEEP : Field := ⟨0x110000, 22, 22⟩
/-- CRP_LEVEL.CHANGES (Table 17-7). -/
def CRP_LEVEL_CHANGES : Field := ⟨0x110000, 15, 0⟩
/-- CRP_SLEEP.STATE (Table 17-7). -/
def CRP_SLEEP_STATE : Field := ⟨0x110004, 31, 29⟩
/-- CRP_SLEEP.FW_ENTRIES (Table 17-7). -/
def CRP_SLEEP_FW_ENTRIES : Field := ⟨0x110004, 15, 8⟩
/-- CRP_SLEEP.REST_ENTRIES (Table 17-7). -/
def CRP_SLEEP_REST_ENTRIES : Field := ⟨0x110004, 7, 0⟩
/-- CRP_SLEEP_TS.STROKE_LO (Table 17-7). -/
def CRP_SLEEP_TS_STROKE_LO : Field := ⟨0x110008, 31, 0⟩
/-- CRP_THERM.HYST (Table 17-8). -/
def CRP_THERM_HYST : Field := ⟨0x110010, 31, 24⟩
/-- CRP_THERM.STEP_GAP (Table 17-8). -/
def CRP_THERM_STEP_GAP : Field := ⟨0x110010, 15, 0⟩
/-- CRP_TEMP.TEMP (Table 17-8). -/
def CRP_TEMP_TEMP (n : Nat) : Field := ⟨0x110020 + 4 * n, 15, 0⟩
/-- CRP_TEMP_MAX.HWM (Table 17-8). -/
def CRP_TEMP_MAX_HWM : Field := ⟨0x110040, 31, 16⟩
/-- CRP_TEMP_MAX.HOTTEST (Table 17-8). -/
def CRP_TEMP_MAX_HOTTEST : Field := ⟨0x110040, 2, 0⟩
/-- CRP_CLK.CPU_LOCK (Table 17-9). -/
def CRP_CLK_CPU_LOCK : Field := ⟨0x110050, 31, 31⟩
/-- CRP_CLK.HUB_LOCK (Table 17-9). -/
def CRP_CLK_HUB_LOCK : Field := ⟨0x110050, 30, 30⟩
/-- CRP_CLK.SYS_LOCK (Table 17-9). -/
def CRP_CLK_SYS_LOCK : Field := ⟨0x110050, 29, 29⟩
/-- CRP_CLK.DRAM_LOCK (Table 17-9). -/
def CRP_CLK_DRAM_LOCK : Field := ⟨0x110050, 28, 28⟩
/-- CRP_CLK.LB_LOCK (Table 17-9). -/
def CRP_CLK_LB_LOCK : Field := ⟨0x110050, 27, 27⟩
/-- CRP_CLK.RING_OSC (Table 17-9). -/
def CRP_CLK_RING_OSC : Field := ⟨0x110050, 3, 0⟩
/-- CRP_THROTTLE_CNT.STEPS (Table 17-9). -/
def CRP_THROTTLE_CNT_STEPS : Field := ⟨0x110054, 31, 16⟩
/-- CRP_THROTTLE_CNT.FORCED (Table 17-9). -/
def CRP_THROTTLE_CNT_FORCED : Field := ⟨0x110054, 15, 8⟩
/-- CRP_THROTTLE_CNT.TRIPS (Table 17-9). -/
def CRP_THROTTLE_CNT_TRIPS : Field := ⟨0x110054, 7, 0⟩
/-- KS_WAKE_EN_LO.EN (Table 17-10). -/
def KS_WAKE_EN_LO_EN : Field := ⟨0x120000, 31, 0⟩
/-- KS_WAKE_EN_HI.EN (Table 17-10). -/
def KS_WAKE_EN_HI_EN : Field := ⟨0x120004, 15, 0⟩
/-- KS_LAST_WAKE.VALID (Table 17-10). -/
def KS_LAST_WAKE_VALID : Field := ⟨0x120010, 31, 31⟩
/-- KS_LAST_WAKE.DURING_ENTRY (Table 17-10). -/
def KS_LAST_WAKE_DURING_ENTRY : Field := ⟨0x120010, 30, 30⟩
/-- KS_LAST_WAKE.FROM (Table 17-10). -/
def KS_LAST_WAKE_FROM : Field := ⟨0x120010, 29, 28⟩
/-- KS_LAST_WAKE.SOURCE (Table 17-10). -/
def KS_LAST_WAKE_SOURCE : Field := ⟨0x120010, 24, 16⟩
/-- KS_LAST_WAKE.INDEX (Table 17-10). -/
def KS_LAST_WAKE_INDEX : Field := ⟨0x120010, 5, 0⟩
/-- KS_GPIO_STATUS.SEEN (Table 17-11). -/
def KS_GPIO_STATUS_SEEN : Field := ⟨0x120024, 15, 0⟩
/-- KS_CTL.ALARM_EN (Table 17-11). -/
def KS_CTL_ALARM_EN : Field := ⟨0x120028, 31, 31⟩
/-- HL_LINK_STATUS.DL_UP (Table 04-11). -/
def HL_LINK_STATUS_DL_UP : Field := ⟨0x140000, 31, 31⟩
/-- HL_LINK_STATUS.FLIT (Table 04-11). -/
def HL_LINK_STATUS_FLIT : Field := ⟨0x140000, 30, 30⟩
/-- HL_LINK_STATUS.C0_SHORT (Table 04-11). -/
def HL_LINK_STATUS_C0_SHORT : Field := ⟨0x140000, 29, 29⟩
/-- HL_LINK_STATUS.IN_RECOVERY (Table 04-11). -/
def HL_LINK_STATUS_IN_RECOVERY : Field := ⟨0x140000, 28, 28⟩
/-- HL_LINK_STATUS.SLOT_CAP (Table 04-11). -/
def HL_LINK_STATUS_SLOT_CAP : Field := ⟨0x140000, 23, 16⟩
/-- HL_LINK_STATUS.LSTATE (Table 04-11). -/
def HL_LINK_STATUS_LSTATE : Field := ⟨0x140000, 15, 13⟩
/-- HL_LINK_STATUS.WIDTH (Table 04-11). -/
def HL_LINK_STATUS_WIDTH : Field := ⟨0x140000, 12, 8⟩
/-- HL_LINK_STATUS.TRAINED_WIDTH (Table 04-11). -/
def HL_LINK_STATUS_TRAINED_WIDTH : Field := ⟨0x140000, 7, 3⟩
/-- HL_LINK_STATUS.SPEED (Table 04-11). -/
def HL_LINK_STATUS_SPEED : Field := ⟨0x140000, 2, 0⟩
/-- HL_LINK_CTL.MAX_WIDTH (Table 04-12). -/
def HL_LINK_CTL_MAX_WIDTH : Field := ⟨0x140004, 7, 3⟩
/-- HL_LINK_CTL.MAX_SPEED (Table 04-12). -/
def HL_LINK_CTL_MAX_SPEED : Field := ⟨0x140004, 2, 0⟩
/-- HL_LPM_CTL.L1_WITH_C0 (Table 04-13). -/
def HL_LPM_CTL_L1_WITH_C0 : Field := ⟨0x140010, 31, 31⟩
/-- HL_LPM_CTL.L0P_EN (Table 04-13). -/
def HL_LPM_CTL_L0P_EN : Field := ⟨0x140010, 30, 30⟩
/-- HL_LPM_CTL.L0P_MIN_WIDTH (Table 04-13). -/
def HL_LPM_CTL_L0P_MIN_WIDTH : Field := ⟨0x140010, 26, 24⟩
/-- HL_LPM_CTL.L1_IDLE (Table 04-13). -/
def HL_LPM_CTL_L1_IDLE : Field := ⟨0x140010, 15, 0⟩
/-- HL_TAG_CTL.CTX_MAX (Table 04-15). -/
def HL_TAG_CTL_CTX_MAX : Field := ⟨0x140020, 26, 16⟩
/-- HL_TAG_CTL.QM_RSV (Table 04-15). -/
def HL_TAG_CTL_QM_RSV : Field := ⟨0x140020, 6, 0⟩
/-- HL_TAG_STATUS.HWM (Table 04-16). -/
def HL_TAG_STATUS_HWM : Field := ⟨0x140024, 26, 16⟩
/-- HL_TAG_STATUS.IN_USE (Table 04-16). -/
def HL_TAG_STATUS_IN_USE : Field := ⟨0x140024, 10, 0⟩
/-- HL_ATS_CTL.CTX_CAP (Table 04-17). -/
def HL_ATS_CTL_CTX_CAP : Field := ⟨0x140030, 12, 0⟩
/-- HL_ATS_STATUS.VALID (Table 04-18). -/
def HL_ATS_STATUS_VALID : Field := ⟨0x140034, 28, 16⟩
/-- HL_ATS_STATUS.INVAL_PEND (Table 04-18). -/
def HL_ATS_STATUS_INVAL_PEND : Field := ⟨0x140034, 5, 0⟩
/-- HL_PTM_CTL.AUTO (Table 04-19). -/
def HL_PTM_CTL_AUTO : Field := ⟨0x140040, 31, 31⟩
/-- HL_PTM_CTL.PERIOD (Table 04-19). -/
def HL_PTM_CTL_PERIOD : Field := ⟨0x140040, 15, 0⟩
/-- HL_PTM_STATUS.VALID (Table 04-20). -/
def HL_PTM_STATUS_VALID : Field := ⟨0x140044, 31, 31⟩
/-- HL_PTM_STATUS.FAILS (Table 04-20). -/
def HL_PTM_STATUS_FAILS : Field := ⟨0x140044, 15, 0⟩
/-- HL_SDOWN.VALID (Table 04-21). -/
def HL_SDOWN_VALID : Field := ⟨0x140050, 31, 31⟩
/-- HL_SDOWN.CLASS (Table 04-21). -/
def HL_SDOWN_CLASS : Field := ⟨0x140050, 30, 30⟩
/-- HL_SDOWN.ABORTED (Table 04-21). -/
def HL_SDOWN_ABORTED : Field := ⟨0x140050, 10, 0⟩
/-- HL_SDOWN_TS_LO.STROKE_LO (Table 04-21). -/
def HL_SDOWN_TS_LO_STROKE_LO : Field := ⟨0x140054, 31, 0⟩
/-- HL_SDOWN_TS_HI.STROKE_HI (Table 04-21). -/
def HL_SDOWN_TS_HI_STROKE_HI : Field := ⟨0x140058, 15, 0⟩
/-- HL_LPM_CTL.L0P_UTIL (Table 04-16). -/
def HL_LPM_CTL_L0P_UTIL : Field := ⟨0x140010, 23, 16⟩
/-- HL_ERR_CNT.RCV_ERR (Table 04-22). -/
def HL_ERR_CNT_RCV_ERR : Field := ⟨0x140060, 31, 24⟩
/-- HL_ERR_CNT.REPLAY (Table 04-22). -/
def HL_ERR_CNT_REPLAY : Field := ⟨0x140060, 23, 16⟩
/-- HL_ERR_CNT.FEC_CORR (Table 04-22). -/
def HL_ERR_CNT_FEC_CORR : Field := ⟨0x140060, 15, 8⟩
/-- HL_ERR_CNT.WIDTH_DOWN (Table 04-22). -/
def HL_ERR_CNT_WIDTH_DOWN : Field := ⟨0x140060, 7, 0⟩
/-- HL_SRIOV_STATUS.BAD_NUMVFS (Table 04-22). -/
def HL_SRIOV_STATUS_BAD_NUMVFS : Field := ⟨0x140070, 31, 31⟩
/-- HL_SRIOV_STATUS.ACTIVE_VFS (Table 04-22). -/
def HL_SRIOV_STATUS_ACTIVE_VFS : Field := ⟨0x140070, 10, 0⟩
/-- CTX_STATE.WDOG_FIRED (Table 05-14). -/
def CTX_STATE_WDOG_FIRED (n : Nat) : Field := ⟨0x100000004 + 65536 * n, 31, 31⟩
/-- CTX_STATE.CPL_DROPPED (Table 05-14). -/
def CTX_STATE_CPL_DROPPED (n : Nat) : Field := ⟨0x100000004 + 65536 * n, 30, 30⟩
/-- CTX_STATE.OVER_DESC (Table 05-14). -/
def CTX_STATE_OVER_DESC (n : Nat) : Field := ⟨0x100000004 + 65536 * n, 29, 29⟩
/-- CTX_STATE.LAST_CAUSE (Table 05-14). -/
def CTX_STATE_LAST_CAUSE (n : Nat) : Field := ⟨0x100000004 + 65536 * n, 27, 24⟩
/-- CTX_STATE.DB_REFUSED (Table 05-14). -/
def CTX_STATE_DB_REFUSED (n : Nat) : Field := ⟨0x100000004 + 65536 * n, 23, 16⟩
/-- CTX_STATE.RESETS (Table 05-14). -/
def CTX_STATE_RESETS (n : Nat) : Field := ⟨0x100000004 + 65536 * n, 15, 8⟩
/-- CTX_STATE.STATE (Table 05-14). -/
def CTX_STATE_STATE (n : Nat) : Field := ⟨0x100000004 + 65536 * n, 2, 0⟩
/-- CTX_CAPS.QP_EN (Table 05-15). -/
def CTX_CAPS_QP_EN (n : Nat) : Field := ⟨0x100000008 + 65536 * n, 30, 24⟩
/-- CTX_CAPS.WINDOWS (Table 05-15). -/
def CTX_CAPS_WINDOWS (n : Nat) : Field := ⟨0x100000008 + 65536 * n, 20, 16⟩
/-- CTX_CAPS.MIRROR (Table 05-15). -/
def CTX_CAPS_MIRROR (n : Nat) : Field := ⟨0x100000008 + 65536 * n, 9, 9⟩
/-- CTX_CAPS.APERTURE (Table 05-15). -/
def CTX_CAPS_APERTURE (n : Nat) : Field := ⟨0x100000008 + 65536 * n, 8, 8⟩
/-- CTX_WDOG_STATUS.MODE (Table 05-16). -/
def CTX_WDOG_STATUS_MODE (n : Nat) : Field := ⟨0x100000014 + 65536 * n, 31, 30⟩
/-- CTX_WDOG_STATUS.ACTION (Table 05-16). -/
def CTX_WDOG_STATUS_ACTION (n : Nat) : Field := ⟨0x100000014 + 65536 * n, 29, 29⟩
/-- CTX_WDOG_STATUS.RUNNING (Table 05-16). -/
def CTX_WDOG_STATUS_RUNNING (n : Nat) : Field := ⟨0x100000014 + 65536 * n, 28, 28⟩
/-- CTX_WDOG_STATUS.REMAIN (Table 05-16). -/
def CTX_WDOG_STATUS_REMAIN (n : Nat) : Field := ⟨0x100000014 + 65536 * n, 23, 0⟩
/-- CTX_OCC.OUTSTANDING (Table 05-16). -/
def CTX_OCC_OUTSTANDING (n : Nat) : Field := ⟨0x100000018 + 65536 * n, 22, 0⟩
/-- CTX_SHARE0.W_C1_DN (Table 05-17). -/
def CTX_SHARE0_W_C1_DN (n : Nat) : Field := ⟨0x100000040 + 65536 * n, 31, 16⟩
/-- CTX_SHARE0.W_C0_DN (Table 05-17). -/
def CTX_SHARE0_W_C0_DN (n : Nat) : Field := ⟨0x100000040 + 65536 * n, 15, 0⟩
/-- CTX_SHARE1.W_C3_DN (Table 05-17). -/
def CTX_SHARE1_W_C3_DN (n : Nat) : Field := ⟨0x100000044 + 65536 * n, 31, 16⟩
/-- CTX_SHARE1.W_C2_DN (Table 05-17). -/
def CTX_SHARE1_W_C2_DN (n : Nat) : Field := ⟨0x100000044 + 65536 * n, 15, 0⟩
/-- CTX_SHARE2.W_C1_UP (Table 05-17). -/
def CTX_SHARE2_W_C1_UP (n : Nat) : Field := ⟨0x100000048 + 65536 * n, 31, 16⟩
/-- CTX_SHARE2.W_C0_UP (Table 05-17). -/
def CTX_SHARE2_W_C0_UP (n : Nat) : Field := ⟨0x100000048 + 65536 * n, 15, 0⟩
/-- CTX_SHARE3.W_C3_UP (Table 05-17). -/
def CTX_SHARE3_W_C3_UP (n : Nat) : Field := ⟨0x10000004C + 65536 * n, 31, 16⟩
/-- CTX_SHARE3.W_C2_UP (Table 05-17). -/
def CTX_SHARE3_W_C2_UP (n : Nat) : Field := ⟨0x10000004C + 65536 * n, 15, 0⟩
/-- CTX_SHARE4.QP_MAX (Table 05-17). -/
def CTX_SHARE4_QP_MAX (n : Nat) : Field := ⟨0x100000050 + 65536 * n, 30, 24⟩
/-- CTX_SHARE4.DESC_MAX (Table 05-17). -/
def CTX_SHARE4_DESC_MAX (n : Nat) : Field := ⟨0x100000050 + 65536 * n, 22, 0⟩
/-- CTX_SHARE5.VECTORS (Table 05-17). -/
def CTX_SHARE5_VECTORS (n : Nat) : Field := ⟨0x100000054 + 65536 * n, 30, 24⟩
/-- CTX_SHARE5.WIN_MIB (Table 05-17). -/
def CTX_SHARE5_WIN_MIB (n : Nat) : Field := ⟨0x100000054 + 65536 * n, 14, 0⟩
/-- CTX_SHARE6.CACHE_MIB (Table 05-17). -/
def CTX_SHARE6_CACHE_MIB (n : Nat) : Field := ⟨0x100000058 + 65536 * n, 31, 16⟩
/-- CTX_SHARE6.DUR_UNITS (Table 05-17). -/
def CTX_SHARE6_DUR_UNITS (n : Nat) : Field := ⟨0x100000058 + 65536 * n, 8, 0⟩
/-- CTX_SHARE7.STROKE_LO (Table 05-17). -/
def CTX_SHARE7_STROKE_LO (n : Nat) : Field := ⟨0x10000005C + 65536 * n, 31, 0⟩
/-- CTX_WFENCE.INCOMPLETE (Table 06-16). -/
def CTX_WFENCE_INCOMPLETE (n : Nat) : Field := ⟨0x100000104 + 65536 * n, 31, 31⟩
/-- CTX_WFENCE.FAILS (Table 06-16). -/
def CTX_WFENCE_FAILS (n : Nat) : Field := ⟨0x100000104 + 65536 * n, 15, 0⟩
/-- CTX_VIOL_CFG.EVT_EN (Table 09-11). -/
def CTX_VIOL_CFG_EVT_EN (n : Nat) : Field := ⟨0x100000110 + 65536 * n, 31, 31⟩
/-- CTX_VIOL_CFG.VECTOR (Table 09-11). -/
def CTX_VIOL_CFG_VECTOR (n : Nat) : Field := ⟨0x100000110 + 65536 * n, 21, 16⟩
/-- CTX_VIOL_STATUS.TOTAL (Table 09-11). -/
def CTX_VIOL_STATUS_TOTAL (n : Nat) : Field := ⟨0x100000114 + 65536 * n, 31, 16⟩
/-- CTX_VIOL_STATUS.LOST (Table 09-11). -/
def CTX_VIOL_STATUS_LOST (n : Nat) : Field := ⟨0x100000114 + 65536 * n, 15, 8⟩
/-- CTX_VIOL_STATUS.NEXT (Table 09-11). -/
def CTX_VIOL_STATUS_NEXT (n : Nat) : Field := ⟨0x100000114 + 65536 * n, 2, 0⟩
/-- CTX_VIOL0.VALID (Table 09-12). -/
def CTX_VIOL0_VALID (n k : Nat) : Field := ⟨0x100000120 + 65536 * n + 16 * k, 31, 31⟩
/-- CTX_VIOL0.PRECISE (Table 09-12). -/
def CTX_VIOL0_PRECISE (n k : Nat) : Field := ⟨0x100000120 + 65536 * n + 16 * k, 30, 30⟩
/-- CTX_VIOL0.KIND (Table 09-12). -/
def CTX_VIOL0_KIND (n k : Nat) : Field := ⟨0x100000120 + 65536 * n + 16 * k, 29, 27⟩
/-- CTX_VIOL0.CAUSE (Table 09-12). -/
def CTX_VIOL0_CAUSE (n k : Nat) : Field := ⟨0x100000120 + 65536 * n + 16 * k, 26, 24⟩
/-- CTX_VIOL0.GUARD (Table 09-12). -/
def CTX_VIOL0_GUARD (n k : Nat) : Field := ⟨0x100000120 + 65536 * n + 16 * k, 23, 18⟩
/-- CTX_VIOL0.QP (Table 09-12). -/
def CTX_VIOL0_QP (n k : Nat) : Field := ⟨0x100000120 + 65536 * n + 16 * k, 13, 8⟩
/-- CTX_VIOL0.WIN (Table 09-12). -/
def CTX_VIOL0_WIN (n k : Nat) : Field := ⟨0x100000120 + 65536 * n + 16 * k, 3, 0⟩
/-- CTX_VIOL1.OFFSET_LO (Table 09-12). -/
def CTX_VIOL1_OFFSET_LO (n k : Nat) : Field := ⟨0x100000124 + 65536 * n + 16 * k, 31, 0⟩
/-- CTX_VIOL2.OFFSET_HI (Table 09-12). -/
def CTX_VIOL2_OFFSET_HI (n k : Nat) : Field := ⟨0x100000128 + 65536 * n + 16 * k, 31, 16⟩
/-- CTX_VIOL2.LEN (Table 09-12). -/
def CTX_VIOL2_LEN (n k : Nat) : Field := ⟨0x100000128 + 65536 * n + 16 * k, 15, 0⟩
/-- CTX_VIOL3.STROKE_LO (Table 09-12). -/
def CTX_VIOL3_STROKE_LO (n k : Nat) : Field := ⟨0x10000012C + 65536 * n + 16 * k, 31, 0⟩
/-- CTX_PWE_CFG.EN (Table 06-17). -/
def CTX_PWE_CFG_EN (n : Nat) : Field := ⟨0x100000208 + 65536 * n, 31, 31⟩
/-- CTX_PWE_CFG.VECTOR (Table 06-17). -/
def CTX_PWE_CFG_VECTOR (n : Nat) : Field := ⟨0x100000208 + 65536 * n, 21, 16⟩
/-- CTX_PWE_CFG.LOG2 (Table 06-17). -/
def CTX_PWE_CFG_LOG2 (n : Nat) : Field := ⟨0x100000208 + 65536 * n, 3, 0⟩
/-- CTX_PWE_HEAD.HEAD (Table 06-17). -/
def CTX_PWE_HEAD_HEAD (n : Nat) : Field := ⟨0x10000020C + 65536 * n, 11, 0⟩
/-- CTX_PWE_TAIL.PHASE (Table 06-17). -/
def CTX_PWE_TAIL_PHASE (n : Nat) : Field := ⟨0x100000210 + 65536 * n, 31, 31⟩
/-- CTX_PWE_TAIL.TAIL (Table 06-17). -/
def CTX_PWE_TAIL_TAIL (n : Nat) : Field := ⟨0x100000210 + 65536 * n, 11, 0⟩
/-- CTX_PWE_STATUS.LOST (Table 06-17). -/
def CTX_PWE_STATUS_LOST (n : Nat) : Field := ⟨0x100000214 + 65536 * n, 31, 16⟩
/-- CTX_PWE_STATUS.TOTAL (Table 06-17). -/
def CTX_PWE_STATUS_TOTAL (n : Nat) : Field := ⟨0x100000214 + 65536 * n, 15, 0⟩
/-- QP_CFG.NOSNOOP (Table 06-13). -/
def QP_CFG_NOSNOOP (n k : Nat) : Field := ⟨0x100001010 + 65536 * n + 64 * k, 16, 16⟩
/-- QP_CFG.CQ_LOG2 (Table 06-13). -/
def QP_CFG_CQ_LOG2 (n k : Nat) : Field := ⟨0x100001010 + 65536 * n + 64 * k, 12, 8⟩
/-- QP_CFG.SQ_LOG2 (Table 06-13). -/
def QP_CFG_SQ_LOG2 (n k : Nat) : Field := ⟨0x100001010 + 65536 * n + 64 * k, 4, 0⟩
/-- QP_CTL.EN (Table 06-13). -/
def QP_CTL_EN (n k : Nat) : Field := ⟨0x100001014 + 65536 * n + 64 * k, 0, 0⟩
/-- QP_STATUS.EN_ACTIVE (Table 06-14). -/
def QP_STATUS_EN_ACTIVE (n k : Nat) : Field := ⟨0x100001018 + 65536 * n + 64 * k, 31, 31⟩
/-- QP_STATUS.QUIESCED (Table 06-14). -/
def QP_STATUS_QUIESCED (n k : Nat) : Field := ⟨0x100001018 + 65536 * n + 64 * k, 30, 30⟩
/-- QP_STATUS.OVER_SHARE (Table 06-14). -/
def QP_STATUS_OVER_SHARE (n k : Nat) : Field := ⟨0x100001018 + 65536 * n + 64 * k, 29, 29⟩
/-- QP_STATUS.CQ_FULL (Table 06-14). -/
def QP_STATUS_CQ_FULL (n k : Nat) : Field := ⟨0x100001018 + 65536 * n + 64 * k, 28, 28⟩
/-- QP_STATUS.DB_ERR (Table 06-14). -/
def QP_STATUS_DB_ERR (n k : Nat) : Field := ⟨0x100001018 + 65536 * n + 64 * k, 27, 27⟩
/-- QP_STATUS.MALFORMED (Table 06-14). -/
def QP_STATUS_MALFORMED (n k : Nat) : Field := ⟨0x100001018 + 65536 * n + 64 * k, 26, 26⟩
/-- QP_STATUS.CQ_PHASE (Table 06-14). -/
def QP_STATUS_CQ_PHASE (n k : Nat) : Field := ⟨0x100001018 + 65536 * n + 64 * k, 25, 25⟩
/-- QP_STATUS.CFG_ERR (Table 06-14). -/
def QP_STATUS_CFG_ERR (n k : Nat) : Field := ⟨0x100001018 + 65536 * n + 64 * k, 23, 20⟩
/-- QP_STATUS.OUTSTANDING (Table 06-14). -/
def QP_STATUS_OUTSTANDING (n k : Nat) : Field := ⟨0x100001018 + 65536 * n + 64 * k, 15, 0⟩
/-- QP_PTR.CQ_TAIL (Table 06-14). -/
def QP_PTR_CQ_TAIL (n k : Nat) : Field := ⟨0x10000101C + 65536 * n + 64 * k, 31, 16⟩
/-- QP_PTR.SQ_HEAD (Table 06-14). -/
def QP_PTR_SQ_HEAD (n k : Nat) : Field := ⟨0x10000101C + 65536 * n + 64 * k, 15, 0⟩
/-- QP_ABORT_TAG.TAG (Table 06-15). -/
def QP_ABORT_TAG_TAG (n k : Nat) : Field := ⟨0x100001020 + 65536 * n + 64 * k, 31, 0⟩
/-- QP_ABORT.RESULT (Table 06-15). -/
def QP_ABORT_RESULT (n k : Nat) : Field := ⟨0x100001024 + 65536 * n + 64 * k, 2, 0⟩
/-- QP_CNT.OVER_SHARE (Table 06-15). -/
def QP_CNT_OVER_SHARE (n k : Nat) : Field := ⟨0x100001028 + 65536 * n + 64 * k, 31, 16⟩
/-- QP_CNT.RETRIED (Table 06-15). -/
def QP_CNT_RETRIED (n k : Nat) : Field := ⟨0x100001028 + 65536 * n + 64 * k, 15, 8⟩
/-- QP_CNT.MALFORMED (Table 06-15). -/
def QP_CNT_MALFORMED (n k : Nat) : Field := ⟨0x100001028 + 65536 * n + 64 * k, 7, 0⟩
/-- CQ_EVT_CFG.EN (Table 15-15). -/
def CQ_EVT_CFG_EN (n k : Nat) : Field := ⟨0x100003000 + 65536 * n + 16 * k, 31, 31⟩
/-- CQ_EVT_CFG.VECTOR (Table 15-15). -/
def CQ_EVT_CFG_VECTOR (n k : Nat) : Field := ⟨0x100003000 + 65536 * n + 16 * k, 29, 24⟩
/-- CQ_EVT_CFG.COUNT (Table 15-15). -/
def CQ_EVT_CFG_COUNT (n k : Nat) : Field := ⟨0x100003000 + 65536 * n + 16 * k, 23, 16⟩
/-- CQ_EVT_CFG.TIME (Table 15-15). -/
def CQ_EVT_CFG_TIME (n k : Nat) : Field := ⟨0x100003000 + 65536 * n + 16 * k, 15, 0⟩
/-- CQ_EVT_STATUS.TIMER_RUN (Table 15-15). -/
def CQ_EVT_STATUS_TIMER_RUN (n k : Nat) : Field := ⟨0x100003004 + 65536 * n + 16 * k, 31, 31⟩
/-- CQ_EVT_STATUS.HELD (Table 15-15). -/
def CQ_EVT_STATUS_HELD (n k : Nat) : Field := ⟨0x100003004 + 65536 * n + 16 * k, 30, 30⟩
/-- CQ_EVT_STATUS.PENDING (Table 15-15). -/
def CQ_EVT_STATUS_PENDING (n k : Nat) : Field := ⟨0x100003004 + 65536 * n + 16 * k, 23, 16⟩
/-- CQ_EVT_STATUS.REMAIN (Table 15-15). -/
def CQ_EVT_STATUS_REMAIN (n k : Nat) : Field := ⟨0x100003004 + 65536 * n + 16 * k, 15, 0⟩
/-- CQ_EVT_CNT.SENT (Table 15-15). -/
def CQ_EVT_CNT_SENT (n k : Nat) : Field := ⟨0x100003008 + 65536 * n + 16 * k, 31, 16⟩
/-- CQ_EVT_CNT.PBA (Table 15-15). -/
def CQ_EVT_CNT_PBA (n k : Nat) : Field := ⟨0x100003008 + 65536 * n + 16 * k, 15, 0⟩
/-- CTX_EVT_CFG.EN (Table 15-15). -/
def CTX_EVT_CFG_EN (n : Nat) : Field := ⟨0x100003400 + 65536 * n, 31, 31⟩
/-- CTX_EVT_CFG.VECTOR (Table 15-15). -/
def CTX_EVT_CFG_VECTOR (n : Nat) : Field := ⟨0x100003400 + 65536 * n, 21, 16⟩
/-- CTX_EVT_STATUS.EVT (Table 15-15). -/
def CTX_EVT_STATUS_EVT (n : Nat) : Field := ⟨0x100003404 + 65536 * n, 7, 0⟩
/-- CTX_EVT_EN.EN (Table 15-15). -/
def CTX_EVT_EN_EN (n : Nat) : Field := ⟨0x100003408 + 65536 * n, 7, 0⟩
/-- CTX_SEL_WDOG.MODE (Table 05-19). -/
def CTX_SEL_WDOG_MODE (n : Nat) : Field := ⟨0x2000000000 + 64 * n, 31, 30⟩
/-- CTX_SEL_WDOG.ACTION (Table 05-19). -/
def CTX_SEL_WDOG_ACTION (n : Nat) : Field := ⟨0x2000000000 + 64 * n, 29, 29⟩
/-- CTX_SEL_WDOG.PERIOD (Table 05-19). -/
def CTX_SEL_WDOG_PERIOD (n : Nat) : Field := ⟨0x2000000000 + 64 * n, 23, 0⟩
/-- CTX_DRAIN_TMO.TMO (Table 05-19). -/
def CTX_DRAIN_TMO_TMO : Field := ⟨0x180040, 16, 0⟩
/-- CTX_POOL_QP.GRANTED (Table 05-20). -/
def CTX_POOL_QP_GRANTED : Field := ⟨0x180044, 29, 16⟩
/-- CTX_POOL_QP.ENABLED (Table 05-20). -/
def CTX_POOL_QP_ENABLED : Field := ⟨0x180044, 13, 0⟩
/-- CTX_POOL_VEC.GRANTED (Table 05-20). -/
def CTX_POOL_VEC_GRANTED : Field := ⟨0x180048, 14, 0⟩
/-- CTX_POOL_C0.UP (Table 05-20). -/
def CTX_POOL_C0_UP : Field := ⟨0x18004C, 31, 16⟩
/-- CTX_POOL_C0.DN (Table 05-20). -/
def CTX_POOL_C0_DN : Field := ⟨0x18004C, 15, 0⟩
/-- CTX_POOL_C1.UP (Table 05-20). -/
def CTX_POOL_C1_UP : Field := ⟨0x180050, 31, 16⟩
/-- CTX_POOL_C1.DN (Table 05-20). -/
def CTX_POOL_C1_DN : Field := ⟨0x180050, 15, 0⟩
/-- CTX_WDOG_PEND.CTX (Table 05-21). -/
def CTX_WDOG_PEND_CTX (n : Nat) : Field := ⟨0x180100 + 4 * n, 31, 0⟩
/-- CTX_RESET_PEND.CTX (Table 05-21). -/
def CTX_RESET_PEND_CTX (n : Nat) : Field := ⟨0x180180 + 4 * n, 31, 0⟩
/-- QM_SPOKE_FENCED.ENGINE (Table 06-18). -/
def QM_SPOKE_FENCED_ENGINE : Field := ⟨0x200000, 31, 0⟩
/-- QM_SPOKE_LOG.VALID (Table 06-18). -/
def QM_SPOKE_LOG_VALID : Field := ⟨0x200004, 31, 31⟩
/-- QM_SPOKE_LOG.ENGINE (Table 06-18). -/
def QM_SPOKE_LOG_ENGINE : Field := ⟨0x200004, 28, 24⟩
/-- QM_SPOKE_LOG.CAUSE (Table 06-18). -/
def QM_SPOKE_LOG_CAUSE : Field := ⟨0x200004, 23, 16⟩
/-- QM_SPOKE_LOG.REDEALT (Table 06-18). -/
def QM_SPOKE_LOG_REDEALT : Field := ⟨0x200004, 15, 0⟩
/-- QM_SPOKE_TS.STROKE_LO (Table 06-18). -/
def QM_SPOKE_TS_STROKE_LO : Field := ⟨0x200008, 31, 0⟩
/-- QM_RETRY_CNT.OK_RETRIED (Table 06-18). -/
def QM_RETRY_CNT_OK_RETRIED : Field := ⟨0x20000C, 31, 16⟩
/-- QM_RETRY_CNT.UNCERTAIN (Table 06-18). -/
def QM_RETRY_CNT_UNCERTAIN : Field := ⟨0x20000C, 15, 8⟩
/-- QM_RETRY_CNT.NOT_RETRIED (Table 06-18). -/
def QM_RETRY_CNT_NOT_RETRIED : Field := ⟨0x20000C, 7, 0⟩
/-- QM_DEALT.COUNT (Table 06-19). -/
def QM_DEALT_COUNT : Field := ⟨0x200010, 31, 0⟩
/-- QM_MALFORMED.VALID (Table 06-19). -/
def QM_MALFORMED_VALID : Field := ⟨0x200014, 31, 31⟩
/-- QM_MALFORMED.CTX (Table 06-19). -/
def QM_MALFORMED_CTX : Field := ⟨0x200014, 25, 16⟩
/-- QM_MALFORMED.QP (Table 06-19). -/
def QM_MALFORMED_QP : Field := ⟨0x200014, 15, 10⟩
/-- QM_MALFORMED.OFFSET (Table 06-19). -/
def QM_MALFORMED_OFFSET : Field := ⟨0x200014, 5, 0⟩
/-- QM_CPL_STALL.STALLS (Table 06-19). -/
def QM_CPL_STALL_STALLS : Field := ⟨0x200018, 15, 0⟩
/-- QM_FETCH_CTL.BATCH (Table 06-19). -/
def QM_FETCH_CTL_BATCH : Field := ⟨0x200020, 3, 0⟩
/-- CAD_COMMIT.DIR (Table 07-11). -/
def CAD_COMMIT_DIR : Field := ⟨0x280010, 29, 29⟩
/-- CAD_COMMIT.LEVEL (Table 07-11). -/
def CAD_COMMIT_LEVEL : Field := ⟨0x280010, 28, 27⟩
/-- CAD_COMMIT.SLOT (Table 07-11). -/
def CAD_COMMIT_SLOT : Field := ⟨0x280010, 26, 19⟩
/-- CAD_COMMIT.ERR (Table 07-11). -/
def CAD_COMMIT_ERR : Field := ⟨0x280010, 11, 8⟩
/-- CAD_COMMIT.RESULT (Table 07-11). -/
def CAD_COMMIT_RESULT : Field := ⟨0x280010, 2, 0⟩
/-- CAD_COMMIT_TS.STROKE_LO (Table 07-11). -/
def CAD_COMMIT_TS_STROKE_LO : Field := ⟨0x280014, 31, 0⟩
/-- CAD_STATUS.C0_OVERCOMMIT (Table 07-12). -/
def CAD_STATUS_C0_OVERCOMMIT : Field := ⟨0x280020, 31, 31⟩
/-- CAD_STATUS.THROTTLE_PEND (Table 07-12). -/
def CAD_STATUS_THROTTLE_PEND : Field := ⟨0x280020, 30, 30⟩
/-- CAD_STATUS.PTM_LOCKED (Table 07-12). -/
def CAD_STATUS_PTM_LOCKED : Field := ⟨0x280020, 29, 29⟩
/-- CAD_STATUS.ALIGNED (Table 07-12). -/
def CAD_STATUS_ALIGNED : Field := ⟨0x280020, 28, 28⟩
/-- CAD_STATUS.LEVEL (Table 07-12). -/
def CAD_STATUS_LEVEL : Field := ⟨0x280020, 1, 0⟩
/-- CAD_RSV_DN.C1 (Table 07-13). -/
def CAD_RSV_DN_C1 : Field := ⟨0x280024, 24, 16⟩
/-- CAD_RSV_DN.C0 (Table 07-13). -/
def CAD_RSV_DN_C0 : Field := ⟨0x280024, 8, 0⟩
/-- CAD_RSV_UP.C1 (Table 07-13). -/
def CAD_RSV_UP_C1 : Field := ⟨0x280028, 24, 16⟩
/-- CAD_RSV_UP.C0 (Table 07-13). -/
def CAD_RSV_UP_C0 : Field := ⟨0x280028, 8, 0⟩
/-- CAD_LEVEL_LOG.VALID (Table 07-14). -/
def CAD_LEVEL_LOG_VALID : Field := ⟨0x280040, 31, 31⟩
/-- CAD_LEVEL_LOG.SOURCE (Table 07-14). -/
def CAD_LEVEL_LOG_SOURCE : Field := ⟨0x280040, 30, 29⟩
/-- CAD_LEVEL_LOG.REQ_LEVEL (Table 07-14). -/
def CAD_LEVEL_LOG_REQ_LEVEL : Field := ⟨0x280040, 28, 27⟩
/-- CAD_LEVEL_LOG.DIR (Table 07-14). -/
def CAD_LEVEL_LOG_DIR : Field := ⟨0x280040, 26, 26⟩
/-- CAD_LEVEL_LOG.CLASS (Table 07-14). -/
def CAD_LEVEL_LOG_CLASS : Field := ⟨0x280040, 25, 25⟩
/-- CAD_LEVEL_LOG.NEEDED (Table 07-14). -/
def CAD_LEVEL_LOG_NEEDED : Field := ⟨0x280040, 24, 16⟩
/-- CAD_LEVEL_LOG.AVAIL (Table 07-14). -/
def CAD_LEVEL_LOG_AVAIL : Field := ⟨0x280040, 8, 0⟩
/-- CAD_THROTTLE.GRACE (Table 07-14). -/
def CAD_THROTTLE_GRACE : Field := ⟨0x280044, 15, 0⟩
/-- CAD_AGE.AGE (Table 07-14). -/
def CAD_AGE_AGE : Field := ⟨0x280048, 15, 0⟩
/-- CAD_PTM_CTL.DISCIPLINE (Table 07-15). -/
def CAD_PTM_CTL_DISCIPLINE : Field := ⟨0x280050, 31, 31⟩
/-- CAD_PTM_CTL.MIN_GAP (Table 07-15). -/
def CAD_PTM_CTL_MIN_GAP : Field := ⟨0x280050, 7, 0⟩
/-- CAD_PTM_STATUS.LOCKED (Table 07-15). -/
def CAD_PTM_STATUS_LOCKED : Field := ⟨0x280054, 31, 31⟩
/-- CAD_PTM_STATUS.ANCHORED (Table 07-15). -/
def CAD_PTM_STATUS_ANCHORED : Field := ⟨0x280054, 30, 30⟩
/-- CAD_PTM_STATUS.REANCHOR (Table 07-15). -/
def CAD_PTM_STATUS_REANCHOR : Field := ⟨0x280054, 23, 16⟩
/-- CAD_PTM_STATUS.ERR_NS (Table 07-15). -/
def CAD_PTM_STATUS_ERR_NS : Field := ⟨0x280054, 15, 0⟩
/-- CAD_HOSTT_LO.NS_LO (Table 07-15). -/
def CAD_HOSTT_LO_NS_LO : Field := ⟨0x280058, 31, 0⟩
/-- CAD_HOSTT_HI.NS_HI (Table 07-15). -/
def CAD_HOSTT_HI_NS_HI : Field := ⟨0x28005C, 31, 0⟩
/-- CAD_HOSTT_STROKE.STROKE_LO (Table 07-15). -/
def CAD_HOSTT_STROKE_STROKE_LO : Field := ⟨0x280060, 31, 0⟩
/-- CAD_SLIPS.LONG (Table 07-15). -/
def CAD_SLIPS_LONG : Field := ⟨0x280068, 31, 16⟩
/-- CAD_SLIPS.SHORT (Table 07-15). -/
def CAD_SLIPS_SHORT : Field := ⟨0x280068, 15, 0⟩
/-- CAD_PEL_ALIGN.ALIGNED (Table 07-16). -/
def CAD_PEL_ALIGN_ALIGNED : Field := ⟨0x280070, 31, 31⟩
/-- CAD_PEL_ALIGN.LEADER (Table 07-16). -/
def CAD_PEL_ALIGN_LEADER : Field := ⟨0x280070, 30, 30⟩
/-- CAD_PEL_ALIGN.LEADER_ID (Table 07-16). -/
def CAD_PEL_ALIGN_LEADER_ID : Field := ⟨0x280070, 29, 27⟩
/-- CAD_PEL_ALIGN.SKEW (Table 07-16). -/
def CAD_PEL_ALIGN_SKEW : Field := ⟨0x280070, 15, 8⟩
/-- CAD_PEL_ALIGN.LOSSES (Table 07-16). -/
def CAD_PEL_ALIGN_LOSSES : Field := ⟨0x280070, 7, 0⟩
/-- CAD_C0_DEMOTED.CTX (Table 07-16). -/
def CAD_C0_DEMOTED_CTX : Field := ⟨0x280078, 25, 16⟩
/-- CAD_C0_DEMOTED.COUNT (Table 07-16). -/
def CAD_C0_DEMOTED_COUNT : Field := ⟨0x280078, 15, 0⟩
/-- LB_CTL.EN (Table 08-14). -/
def LB_CTL_EN (n : Nat) : Field := ⟨0x300000 + 65536 * n, 31, 31⟩
/-- LB_CTL.RSP_PASS (Table 08-14). -/
def LB_CTL_RSP_PASS (n : Nat) : Field := ⟨0x300000 + 65536 * n, 29, 29⟩
/-- LB_STATUS.STATE (Table 08-14). -/
def LB_STATUS_STATE (n : Nat) : Field := ⟨0x300004 + 65536 * n, 31, 29⟩
/-- LB_STATUS.BND_SHORT (Table 08-14). -/
def LB_STATUS_BND_SHORT (n : Nat) : Field := ⟨0x300004 + 65536 * n, 28, 28⟩
/-- LB_TRAIN.GAP (Table 08-15). -/
def LB_TRAIN_GAP (n : Nat) : Field := ⟨0x300010 + 65536 * n, 31, 16⟩
/-- LB_TRAIN.TMO (Table 08-15). -/
def LB_TRAIN_TMO (n : Nat) : Field := ⟨0x300010 + 65536 * n, 15, 0⟩
/-- LB_TRAIN_STAT.ATTEMPTS (Table 08-15). -/
def LB_TRAIN_STAT_ATTEMPTS (n : Nat) : Field := ⟨0x300014 + 65536 * n, 31, 24⟩
/-- LB_TRAIN_STAT.FAILS (Table 08-15). -/
def LB_TRAIN_STAT_FAILS (n : Nat) : Field := ⟨0x300014 + 65536 * n, 23, 16⟩
/-- LB_TRAIN_STAT.LAST_ERR (Table 08-15). -/
def LB_TRAIN_STAT_LAST_ERR (n : Nat) : Field := ⟨0x300014 + 65536 * n, 7, 0⟩
/-- LB_PF_CTL.LIFE (Table 08-16). -/
def LB_PF_CTL_LIFE (n : Nat) : Field := ⟨0x30001C + 65536 * n, 15, 0⟩
/-- LB_ERR_CNT.CRC (Table 08-16). -/
def LB_ERR_CNT_CRC (n : Nat) : Field := ⟨0x300020 + 65536 * n, 31, 24⟩
/-- LB_ERR_CNT.PARITY (Table 08-16). -/
def LB_ERR_CNT_PARITY (n : Nat) : Field := ⟨0x300020 + 65536 * n, 23, 16⟩
/-- LB_ERR_CNT.NAK_SENT (Table 08-16). -/
def LB_ERR_CNT_NAK_SENT (n : Nat) : Field := ⟨0x300020 + 65536 * n, 15, 8⟩
/-- LB_ERR_CNT.NAK_RCVD (Table 08-16). -/
def LB_ERR_CNT_NAK_RCVD (n : Nat) : Field := ⟨0x300020 + 65536 * n, 7, 0⟩
/-- LB_RESP_CNT.TARGET_ERR (Table 08-16). -/
def LB_RESP_CNT_TARGET_ERR (n : Nat) : Field := ⟨0x300024 + 65536 * n, 31, 24⟩
/-- LB_RESP_CNT.DATA_ERR (Table 08-16). -/
def LB_RESP_CNT_DATA_ERR (n : Nat) : Field := ⟨0x300024 + 65536 * n, 23, 16⟩
/-- LB_RESP_CNT.NO_TARGET (Table 08-16). -/
def LB_RESP_CNT_NO_TARGET (n : Nat) : Field := ⟨0x300024 + 65536 * n, 15, 8⟩
/-- LB_RESP_CNT.RETRY_LATER (Table 08-16). -/
def LB_RESP_CNT_RETRY_LATER (n : Nat) : Field := ⟨0x300024 + 65536 * n, 7, 0⟩
/-- LB_TMO_CNT.TIMEOUT (Table 08-16). -/
def LB_TMO_CNT_TIMEOUT (n : Nat) : Field := ⟨0x300028 + 65536 * n, 31, 16⟩
/-- LB_TMO_CNT.LATE (Table 08-16). -/
def LB_TMO_CNT_LATE (n : Nat) : Field := ⟨0x300028 + 65536 * n, 15, 8⟩
/-- LB_TMO_CNT.SE_NONSPEC (Table 08-16). -/
def LB_TMO_CNT_SE_NONSPEC (n : Nat) : Field := ⟨0x300028 + 65536 * n, 7, 0⟩
/-- LB_PROTO_LOG.VALID (Table 08-17). -/
def LB_PROTO_LOG_VALID (n : Nat) : Field := ⟨0x30002C + 65536 * n, 31, 31⟩
/-- LB_PROTO_LOG.CODE (Table 08-17). -/
def LB_PROTO_LOG_CODE (n : Nat) : Field := ⟨0x30002C + 65536 * n, 15, 8⟩
/-- LB_PROTO_LOG.SEQ (Table 08-17). -/
def LB_PROTO_LOG_SEQ (n : Nat) : Field := ⟨0x30002C + 65536 * n, 7, 0⟩
/-- LB_SRB_CNT.SERVED (Table 08-17). -/
def LB_SRB_CNT_SERVED (n : Nat) : Field := ⟨0x300034 + 65536 * n, 31, 16⟩
/-- LB_SRB_CNT.DROPPED (Table 08-17). -/
def LB_SRB_CNT_DROPPED (n : Nat) : Field := ⟨0x300034 + 65536 * n, 15, 0⟩
/-- LB_UP_CNT.NO_RULE (Table 08-17). -/
def LB_UP_CNT_NO_RULE (n : Nat) : Field := ⟨0x300038 + 65536 * n, 31, 16⟩
/-- LB_UP_CNT.DENIED (Table 08-17). -/
def LB_UP_CNT_DENIED (n : Nat) : Field := ⟨0x300038 + 65536 * n, 15, 0⟩
/-- LB_DESKEW.VALID (Table 08-18). -/
def LB_DESKEW_VALID (n k : Nat) : Field := ⟨0x300100 + 65536 * n + 4 * k, 7, 7⟩
/-- LB_DESKEW.DELAY (Table 08-18). -/
def LB_DESKEW_DELAY (n k : Nat) : Field := ⟨0x300100 + 65536 * n + 4 * k, 6, 0⟩
/-- LB_SRB0.VALID (Table 08-18). -/
def LB_SRB0_VALID (n k : Nat) : Field := ⟨0x300200 + 65536 * n + 16 * k, 31, 31⟩
/-- LB_SRB0.WIN (Table 08-18). -/
def LB_SRB0_WIN (n k : Nat) : Field := ⟨0x300200 + 65536 * n + 16 * k, 30, 27⟩
/-- LB_SRB0.CTX (Table 08-18). -/
def LB_SRB0_CTX (n k : Nat) : Field := ⟨0x300200 + 65536 * n + 16 * k, 26, 17⟩
/-- LB_SRB0.REMAIN (Table 08-18). -/
def LB_SRB0_REMAIN (n k : Nat) : Field := ⟨0x300200 + 65536 * n + 16 * k, 8, 0⟩
/-- LB_SRB1.OFFSET_LO (Table 08-18). -/
def LB_SRB1_OFFSET_LO (n k : Nat) : Field := ⟨0x300204 + 65536 * n + 16 * k, 31, 0⟩
/-- LB_SRB2.OFFSET_HI (Table 08-18). -/
def LB_SRB2_OFFSET_HI (n k : Nat) : Field := ⟨0x300208 + 65536 * n + 16 * k, 1, 0⟩
/-- LB_SRB3.STROKE_LO (Table 08-18). -/
def LB_SRB3_STROKE_LO (n k : Nat) : Field := ⟨0x30020C + 65536 * n + 16 * k, 31, 0⟩
/-- LB_UPR_LADDR_LO.ADDR (Table 08-19). -/
def LB_UPR_LADDR_LO_ADDR (n k : Nat) : Field := ⟨0x300400 + 65536 * n + 32 * k, 31, 12⟩
/-- LB_UPR_LADDR_HI.ADDR (Table 08-19). -/
def LB_UPR_LADDR_HI_ADDR (n k : Nat) : Field := ⟨0x300404 + 65536 * n + 32 * k, 15, 0⟩
/-- LB_UPR_HADDR_LO.ADDR (Table 08-19). -/
def LB_UPR_HADDR_LO_ADDR (n k : Nat) : Field := ⟨0x300408 + 65536 * n + 32 * k, 31, 12⟩
/-- LB_UPR_HADDR_HI.ADDR (Table 08-19). -/
def LB_UPR_HADDR_HI_ADDR (n k : Nat) : Field := ⟨0x30040C + 65536 * n + 32 * k, 31, 0⟩
/-- LB_UPR_CFG.EN (Table 08-19). -/
def LB_UPR_CFG_EN (n k : Nat) : Field := ⟨0x300410 + 65536 * n + 32 * k, 31, 31⟩
/-- LB_UPR_CFG.RD (Table 08-19). -/
def LB_UPR_CFG_RD (n k : Nat) : Field := ⟨0x300410 + 65536 * n + 32 * k, 30, 30⟩
/-- LB_UPR_CFG.WR (Table 08-19). -/
def LB_UPR_CFG_WR (n k : Nat) : Field := ⟨0x300410 + 65536 * n + 32 * k, 29, 29⟩
/-- LB_UPR_CFG.CLASS (Table 08-19). -/
def LB_UPR_CFG_CLASS (n k : Nat) : Field := ⟨0x300410 + 65536 * n + 32 * k, 26, 25⟩
/-- LB_UPR_CFG.SIZE_LOG2 (Table 08-19). -/
def LB_UPR_CFG_SIZE_LOG2 (n k : Nat) : Field := ⟨0x300410 + 65536 * n + 32 * k, 21, 16⟩
/-- LB_UPR_CFG.CTX (Table 08-19). -/
def LB_UPR_CFG_CTX (n k : Nat) : Field := ⟨0x300410 + 65536 * n + 32 * k, 9, 0⟩
/-- WIN_BAR.SIZE_LOG2 (Table 08-20). -/
def WIN_BAR_SIZE_LOG2 (n k : Nat) : Field := ⟨0x400000004 + 512 * n + 32 * k, 20, 16⟩
/-- WIN_BAR.OFF_MIB (Table 08-20). -/
def WIN_BAR_OFF_MIB (n k : Nat) : Field := ⟨0x400000004 + 512 * n + 32 * k, 13, 0⟩
/-- WIN_LADDR_LO.ADDR (Table 08-20). -/
def WIN_LADDR_LO_ADDR (n k : Nat) : Field := ⟨0x400000008 + 512 * n + 32 * k, 31, 12⟩
/-- WIN_LADDR_HI.ADDR (Table 08-20). -/
def WIN_LADDR_HI_ADDR (n k : Nat) : Field := ⟨0x40000000C + 512 * n + 32 * k, 15, 0⟩
/-- WIN_CTL.EN (Table 08-21). -/
def WIN_CTL_EN (n k : Nat) : Field := ⟨0x400000010 + 512 * n + 32 * k, 31, 31⟩
/-- WIN_CTL.ERR (Table 08-21). -/
def WIN_CTL_ERR (n k : Nat) : Field := ⟨0x400000010 + 512 * n + 32 * k, 27, 24⟩
/-- WIN_CTL.PORT (Table 08-21). -/
def WIN_CTL_PORT (n k : Nat) : Field := ⟨0x400000010 + 512 * n + 32 * k, 1, 0⟩
/-- WIN_ATTR.AUTOCLR (Table 08-21). -/
def WIN_ATTR_AUTOCLR (n k : Nat) : Field := ⟨0x400000014 + 512 * n + 32 * k, 31, 31⟩
/-- WIN_ATTR.TMO (Table 08-21). -/
def WIN_ATTR_TMO (n k : Nat) : Field := ⟨0x400000014 + 512 * n + 32 * k, 11, 8⟩
/-- WIN_ATTR.CLASS (Table 08-21). -/
def WIN_ATTR_CLASS (n k : Nat) : Field := ⟨0x400000014 + 512 * n + 32 * k, 7, 6⟩
/-- WIN_ATTR.ONCE (Table 08-21). -/
def WIN_ATTR_ONCE (n k : Nat) : Field := ⟨0x400000014 + 512 * n + 32 * k, 5, 5⟩
/-- WIN_ATTR.ACKED (Table 08-21). -/
def WIN_ATTR_ACKED (n k : Nat) : Field := ⟨0x400000014 + 512 * n + 32 * k, 3, 3⟩
/-- WIN_ATTR.PREFETCH (Table 08-21). -/
def WIN_ATTR_PREFETCH (n k : Nat) : Field := ⟨0x400000014 + 512 * n + 32 * k, 2, 2⟩
/-- ACC_STATUS.FUSE_BAD (Table 09-13). -/
def ACC_STATUS_FUSE_BAD : Field := ⟨0x380000, 31, 31⟩
/-- ACC_STATUS.BAD_MASK (Table 09-13). -/
def ACC_STATUS_BAD_MASK : Field := ⟨0x380000, 15, 0⟩
/-- ACC_VLOG_STATUS.TOTAL (Table 09-13). -/
def ACC_VLOG_STATUS_TOTAL : Field := ⟨0x380004, 31, 16⟩
/-- ACC_VLOG_STATUS.LOST (Table 09-13). -/
def ACC_VLOG_STATUS_LOST : Field := ⟨0x380004, 15, 8⟩
/-- ACC_VLOG_STATUS.NEXT (Table 09-13). -/
def ACC_VLOG_STATUS_NEXT : Field := ⟨0x380004, 4, 0⟩
/-- ACC_CNT.HOST (Table 09-13). -/
def ACC_CNT_HOST : Field := ⟨0x380008, 31, 24⟩
/-- ACC_CNT.DESC (Table 09-13). -/
def ACC_CNT_DESC : Field := ⟨0x380008, 23, 16⟩
/-- ACC_CNT.UP (Table 09-13). -/
def ACC_CNT_UP : Field := ⟨0x380008, 15, 8⟩
/-- ACC_CNT.PEER (Table 09-13). -/
def ACC_CNT_PEER : Field := ⟨0x380008, 7, 0⟩
/-- ACC_CNT2.INT (Table 09-13). -/
def ACC_CNT2_INT : Field := ⟨0x38000C, 31, 24⟩
/-- ACC_CNT2.DBG (Table 09-13). -/
def ACC_CNT2_DBG : Field := ⟨0x38000C, 23, 16⟩
/-- ACC_CNT2.ATS (Table 09-13). -/
def ACC_CNT2_ATS : Field := ⟨0x38000C, 15, 8⟩
/-- ACC_CNT2.KEY (Table 09-13). -/
def ACC_CNT2_KEY : Field := ⟨0x38000C, 7, 0⟩
/-- ACC_VLOG0.VALID (Table 09-15). -/
def ACC_VLOG0_VALID (n : Nat) : Field := ⟨0x380400 + 16 * n, 31, 31⟩
/-- ACC_VLOG0.PRECISE (Table 09-15). -/
def ACC_VLOG0_PRECISE (n : Nat) : Field := ⟨0x380400 + 16 * n, 30, 30⟩
/-- ACC_VLOG0.CHECKER (Table 09-15). -/
def ACC_VLOG0_CHECKER (n : Nat) : Field := ⟨0x380400 + 16 * n, 29, 27⟩
/-- ACC_VLOG0.CAUSE (Table 09-15). -/
def ACC_VLOG0_CAUSE (n : Nat) : Field := ⟨0x380400 + 16 * n, 26, 24⟩
/-- ACC_VLOG0.MASTER (Table 09-15). -/
def ACC_VLOG0_MASTER (n : Nat) : Field := ⟨0x380400 + 16 * n, 23, 22⟩
/-- ACC_VLOG0.SRC (Table 09-15). -/
def ACC_VLOG0_SRC (n : Nat) : Field := ⟨0x380400 + 16 * n, 21, 19⟩
/-- ACC_VLOG0.GUARD (Table 09-15). -/
def ACC_VLOG0_GUARD (n : Nat) : Field := ⟨0x380400 + 16 * n, 15, 10⟩
/-- ACC_VLOG0.CTX (Table 09-15). -/
def ACC_VLOG0_CTX (n : Nat) : Field := ⟨0x380400 + 16 * n, 9, 0⟩
/-- ACC_VLOG1.ADDR_LO (Table 09-15). -/
def ACC_VLOG1_ADDR_LO (n : Nat) : Field := ⟨0x380404 + 16 * n, 31, 0⟩
/-- ACC_VLOG2.ADDR_HI (Table 09-15). -/
def ACC_VLOG2_ADDR_HI (n : Nat) : Field := ⟨0x380408 + 16 * n, 31, 0⟩
/-- ACC_VLOG3.STROKE_LO (Table 09-15). -/
def ACC_VLOG3_STROKE_LO (n : Nat) : Field := ⟨0x38040C + 16 * n, 31, 0⟩
/-- ACC_GUARD_BASE_LO.ADDR (Table 09-16). -/
def ACC_GUARD_BASE_LO_ADDR (n : Nat) : Field := ⟨0x380800 + 32 * n, 31, 12⟩
/-- ACC_GUARD_BASE_HI.ADDR (Table 09-16). -/
def ACC_GUARD_BASE_HI_ADDR (n : Nat) : Field := ⟨0x380804 + 32 * n, 31, 0⟩
/-- ACC_GUARD_LIMIT_LO.ADDR (Table 09-16). -/
def ACC_GUARD_LIMIT_LO_ADDR (n : Nat) : Field := ⟨0x380808 + 32 * n, 31, 12⟩
/-- ACC_GUARD_LIMIT_HI.ADDR (Table 09-16). -/
def ACC_GUARD_LIMIT_HI_ADDR (n : Nat) : Field := ⟨0x38080C + 32 * n, 31, 0⟩
/-- ACC_GUARD_CFG.EN (Table 09-16). -/
def ACC_GUARD_CFG_EN (n : Nat) : Field := ⟨0x380810 + 32 * n, 31, 31⟩
/-- ACC_GUARD_CFG.DENY_RD (Table 09-16). -/
def ACC_GUARD_CFG_DENY_RD (n : Nat) : Field := ⟨0x380810 + 32 * n, 30, 30⟩
/-- ACC_GUARD_CFG.DENY_WR (Table 09-16). -/
def ACC_GUARD_CFG_DENY_WR (n : Nat) : Field := ⟨0x380810 + 32 * n, 29, 29⟩
/-- ACC_GUARD_CFG.PRIV (Table 09-16). -/
def ACC_GUARD_CFG_PRIV (n : Nat) : Field := ⟨0x380810 + 32 * n, 28, 28⟩
/-- ACC_GUARD_CFG.ALLCTX (Table 09-16). -/
def ACC_GUARD_CFG_ALLCTX (n : Nat) : Field := ⟨0x380810 + 32 * n, 27, 27⟩
/-- ACC_GUARD_CFG.SPACE (Table 09-16). -/
def ACC_GUARD_CFG_SPACE (n : Nat) : Field := ⟨0x380810 + 32 * n, 26, 24⟩
/-- ACC_GUARD_CFG.CTX (Table 09-16). -/
def ACC_GUARD_CFG_CTX (n : Nat) : Field := ⟨0x380810 + 32 * n, 9, 0⟩
/-- ACC_PEER0.EN (Table 09-17). -/
def ACC_PEER0_EN (n : Nat) : Field := ⟨0x381000 + 8 * n, 31, 31⟩
/-- ACC_PEER0.RD (Table 09-17). -/
def ACC_PEER0_RD (n : Nat) : Field := ⟨0x381000 + 8 * n, 30, 30⟩
/-- ACC_PEER0.WR (Table 09-17). -/
def ACC_PEER0_WR (n : Nat) : Field := ⟨0x381000 + 8 * n, 29, 29⟩
/-- ACC_PEER0.DUR (Table 09-17). -/
def ACC_PEER0_DUR (n : Nat) : Field := ⟨0x381000 + 8 * n, 28, 28⟩
/-- ACC_PEER0.SRC_ANY (Table 09-17). -/
def ACC_PEER0_SRC_ANY (n : Nat) : Field := ⟨0x381000 + 8 * n, 27, 27⟩
/-- ACC_PEER0.SRC_GCTX (Table 09-17). -/
def ACC_PEER0_SRC_GCTX (n : Nat) : Field := ⟨0x381000 + 8 * n, 12, 0⟩
/-- ACC_PEER1.DST_CTX (Table 09-17). -/
def ACC_PEER1_DST_CTX (n : Nat) : Field := ⟨0x381004 + 8 * n, 25, 16⟩
/-- ACC_PEER1.WIN_MASK (Table 09-17). -/
def ACC_PEER1_WIN_MASK (n : Nat) : Field := ⟨0x381004 + 8 * n, 15, 0⟩
/-- MSG_PORT_MAP.EN (Table 10-6). -/
def MSG_PORT_MAP_EN (n : Nat) : Field := ⟨0x400000 + 4 * n, 31, 31⟩
/-- MSG_PORT_MAP.BITS (Table 10-6). -/
def MSG_PORT_MAP_BITS (n : Nat) : Field := ⟨0x400000 + 4 * n, 20, 16⟩
/-- MSG_PORT_MAP.BASE (Table 10-6). -/
def MSG_PORT_MAP_BASE (n : Nat) : Field := ⟨0x400000 + 4 * n, 15, 0⟩
/-- MSG_BUF.HWM (Table 10-6). -/
def MSG_BUF_HWM (n : Nat) : Field := ⟨0x400010 + 4 * n, 31, 16⟩
/-- MSG_BUF.USED (Table 10-6). -/
def MSG_BUF_USED (n : Nat) : Field := ⟨0x400010 + 4 * n, 15, 0⟩
/-- MSG_DROP_CNT.NO_ROUTE (Table 10-7). -/
def MSG_DROP_CNT_NO_ROUTE (n : Nat) : Field := ⟨0x400020 + 4 * n, 31, 24⟩
/-- MSG_DROP_CNT.NOT_READY (Table 10-7). -/
def MSG_DROP_CNT_NOT_READY (n : Nat) : Field := ⟨0x400020 + 4 * n, 23, 16⟩
/-- MSG_DROP_CNT.RQ_FULL (Table 10-7). -/
def MSG_DROP_CNT_RQ_FULL (n : Nat) : Field := ⟨0x400020 + 4 * n, 15, 8⟩
/-- MSG_DROP_CNT.BUF_FULL (Table 10-7). -/
def MSG_DROP_CNT_BUF_FULL (n : Nat) : Field := ⟨0x400020 + 4 * n, 7, 0⟩
/-- MSG_DROP_CNT2.TOO_BIG (Table 10-7). -/
def MSG_DROP_CNT2_TOO_BIG (n : Nat) : Field := ⟨0x400030 + 4 * n, 31, 24⟩
/-- MSG_DROP_CNT2.PARTIAL (Table 10-7). -/
def MSG_DROP_CNT2_PARTIAL (n : Nat) : Field := ⟨0x400030 + 4 * n, 23, 16⟩
/-- MSG_DROP_CNT2.PEER_LOST (Table 10-7). -/
def MSG_DROP_CNT2_PEER_LOST (n : Nat) : Field := ⟨0x400030 + 4 * n, 15, 8⟩
/-- MSG_DROP_CNT2.DRAINING (Table 10-7). -/
def MSG_DROP_CNT2_DRAINING (n : Nat) : Field := ⟨0x400030 + 4 * n, 7, 0⟩
/-- MSG_DELIV_CNT.COUNT (Table 10-7). -/
def MSG_DELIV_CNT_COUNT (n : Nat) : Field := ⟨0x400040 + 4 * n, 31, 0⟩
/-- MSG_DROP_LOG.VALID (Table 10-8). -/
def MSG_DROP_LOG_VALID : Field := ⟨0x400050, 31, 31⟩
/-- MSG_DROP_LOG.CAUSE (Table 10-8). -/
def MSG_DROP_LOG_CAUSE : Field := ⟨0x400050, 30, 27⟩
/-- MSG_DROP_LOG.KIND (Table 10-8). -/
def MSG_DROP_LOG_KIND : Field := ⟨0x400050, 26, 25⟩
/-- MSG_DROP_LOG.PORT (Table 10-8). -/
def MSG_DROP_LOG_PORT : Field := ⟨0x400050, 24, 23⟩
/-- MSG_DROP_LOG.ID (Table 10-8). -/
def MSG_DROP_LOG_ID : Field := ⟨0x400050, 15, 0⟩
/-- MSG_DROP_TS.STROKE_LO (Table 10-8). -/
def MSG_DROP_TS_STROKE_LO : Field := ⟨0x400054, 31, 0⟩
/-- MSG_RXB_CFG.EN (Table 10-9). -/
def MSG_RXB_CFG_EN (n k : Nat) : Field := ⟨0x80000000C + 2048 * n + 32 * k, 31, 31⟩
/-- MSG_RXB_CFG.SLOT_LOG2 (Table 10-9). -/
def MSG_RXB_CFG_SLOT_LOG2 (n k : Nat) : Field := ⟨0x80000000C + 2048 * n + 32 * k, 3, 0⟩
/-- DS_CFG.STATE (Table 11-11). -/
def DS_CFG_STATE : Field := ⟨0x480000, 31, 30⟩
/-- DS_CFG.MAP_UNIT (Table 11-11). -/
def DS_CFG_MAP_UNIT : Field := ⟨0x480000, 29, 29⟩
/-- DS_CFG.CAP_UNITS (Table 11-11). -/
def DS_CFG_CAP_UNITS : Field := ⟨0x480000, 15, 0⟩
/-- DS_BUDGET.REFUSED (Table 11-11). -/
def DS_BUDGET_REFUSED : Field := ⟨0x480004, 31, 31⟩
/-- DS_BUDGET.CUT (Table 11-11). -/
def DS_BUDGET_CUT : Field := ⟨0x480004, 30, 30⟩
/-- DS_BUDGET.EFF_MIB (Table 11-11). -/
def DS_BUDGET_EFF_MIB : Field := ⟨0x480004, 24, 16⟩
/-- DS_BUDGET.MIB (Table 11-11). -/
def DS_BUDGET_MIB : Field := ⟨0x480004, 8, 0⟩
/-- DS_HOLDUP.REFUSED (Table 11-11). -/
def DS_HOLDUP_REFUSED : Field := ⟨0x480008, 31, 31⟩
/-- DS_HOLDUP.MJ (Table 11-11). -/
def DS_HOLDUP_MJ : Field := ⟨0x480008, 15, 0⟩
/-- DS_PRESERVE_EST.MJ (Table 11-11). -/
def DS_PRESERVE_EST_MJ : Field := ⟨0x48000C, 31, 16⟩
/-- DS_PRESERVE_EST.T_10US (Table 11-11). -/
def DS_PRESERVE_EST_T_10US : Field := ⟨0x48000C, 15, 0⟩
/-- DS_FLUSH_RATE.LUNS (Table 11-11). -/
def DS_FLUSH_RATE_LUNS : Field := ⟨0x480010, 31, 24⟩
/-- DS_FLUSH_RATE.MBPS (Table 11-11). -/
def DS_FLUSH_RATE_MBPS : Field := ⟨0x480010, 15, 0⟩
/-- DS_DIRTY.HWM (Table 11-12). -/
def DS_DIRTY_HWM : Field := ⟨0x480014, 31, 16⟩
/-- DS_DIRTY.DIRTY (Table 11-12). -/
def DS_DIRTY_DIRTY : Field := ⟨0x480014, 15, 0⟩
/-- DS_CACHE.TOTAL_MIB (Table 11-12). -/
def DS_CACHE_TOTAL_MIB : Field := ⟨0x480018, 31, 16⟩
/-- DS_CACHE.GRANTED_MIB (Table 11-12). -/
def DS_CACHE_GRANTED_MIB : Field := ⟨0x480018, 15, 0⟩
/-- DS_STAGE.FULL (Table 11-12). -/
def DS_STAGE_FULL : Field := ⟨0x48001C, 31, 16⟩
/-- DS_STAGE.USED_KIB (Table 11-12). -/
def DS_STAGE_USED_KIB : Field := ⟨0x48001C, 15, 0⟩
/-- DS_MAPC_HIT.COUNT (Table 11-12). -/
def DS_MAPC_HIT_COUNT : Field := ⟨0x480020, 31, 0⟩
/-- DS_MAPC_MISS.COUNT (Table 11-12). -/
def DS_MAPC_MISS_COUNT : Field := ⟨0x480024, 31, 0⟩
/-- DS_MIRROR_CTL.ACK_TMO (Table 11-13). -/
def DS_MIRROR_CTL_ACK_TMO : Field := ⟨0x480030, 16, 0⟩
/-- DS_MIRROR_STATUS.SOLO (Table 11-13). -/
def DS_MIRROR_STATUS_SOLO : Field := ⟨0x480034, 21, 11⟩
/-- DS_MIRROR_STATUS.RESYNC (Table 11-13). -/
def DS_MIRROR_STATUS_RESYNC : Field := ⟨0x480034, 10, 0⟩
/-- DS_RECOVER.RESULT (Table 11-13). -/
def DS_RECOVER_RESULT : Field := ⟨0x480040, 31, 28⟩
/-- DS_RECOVER.APT_LOST (Table 11-13). -/
def DS_RECOVER_APT_LOST : Field := ⟨0x480040, 15, 0⟩
/-- DS_RECOVER_UNITS.LOST (Table 11-13). -/
def DS_RECOVER_UNITS_LOST : Field := ⟨0x480044, 31, 0⟩
/-- DS_PRESERVE_LOG.DISCARDED (Table 11-13). -/
def DS_PRESERVE_LOG_DISCARDED : Field := ⟨0x480048, 31, 16⟩
/-- DS_PRESERVE_LOG.T_10US (Table 11-13). -/
def DS_PRESERVE_LOG_T_10US : Field := ⟨0x480048, 15, 0⟩
/-- DS_PRESERVE_UNITS.FLUSHED (Table 11-13). -/
def DS_PRESERVE_UNITS_FLUSHED : Field := ⟨0x48004C, 31, 0⟩
/-- DS_APT_STATUS.VALID (Table 11-14). -/
def DS_APT_STATUS_VALID (n : Nat) : Field := ⟨0x1000000004 + 32 * n, 31, 31⟩
/-- DS_APT_STATUS.ATTACHED (Table 11-14). -/
def DS_APT_STATUS_ATTACHED (n : Nat) : Field := ⟨0x1000000004 + 32 * n, 30, 30⟩
/-- DS_APT_STATUS.MIRROR (Table 11-14). -/
def DS_APT_STATUS_MIRROR (n : Nat) : Field := ⟨0x1000000004 + 32 * n, 29, 28⟩
/-- DS_APT_STATUS.UNCLEAN (Table 11-14). -/
def DS_APT_STATUS_UNCLEAN (n : Nat) : Field := ⟨0x1000000004 + 32 * n, 27, 27⟩
/-- DS_APT_STATUS.UNITS (Table 11-14). -/
def DS_APT_STATUS_UNITS (n : Nat) : Field := ⟨0x1000000004 + 32 * n, 26, 18⟩
/-- DS_APT_STATUS.CTX (Table 11-14). -/
def DS_APT_STATUS_CTX (n : Nat) : Field := ⟨0x1000000004 + 32 * n, 9, 0⟩
/-- DS_APT_LOST.LOST (Table 11-14). -/
def DS_APT_LOST_LOST (n : Nat) : Field := ⟨0x1000000008 + 32 * n, 31, 0⟩
/-- DS_APT_OCC.CACHE_MIB (Table 11-14). -/
def DS_APT_OCC_CACHE_MIB (n : Nat) : Field := ⟨0x100000000C + 32 * n, 31, 16⟩
/-- DS_APT_OCC.DIRTY (Table 11-14). -/
def DS_APT_OCC_DIRTY (n : Nat) : Field := ⟨0x100000000C + 32 * n, 15, 0⟩
/-- DS_APT_RESYNC.REMAIN (Table 11-14). -/
def DS_APT_RESYNC_REMAIN (n : Nat) : Field := ⟨0x1000000010 + 32 * n, 31, 0⟩
/-- DRC_CFG.RATE (Table 11-15). -/
def DRC_CFG_RATE : Field := ⟨0x580000, 11, 8⟩
/-- DRC_CFG.DENSITY (Table 11-15). -/
def DRC_CFG_DENSITY : Field := ⟨0x580000, 5, 4⟩
/-- DRC_CFG.RANKS (Table 11-15). -/
def DRC_CFG_RANKS : Field := ⟨0x580000, 3, 2⟩
/-- DRC_CFG.CHANNELS (Table 11-15). -/
def DRC_CFG_CHANNELS : Field := ⟨0x580000, 1, 0⟩
/-- DRC_STATUS.TRAINED1 (Table 11-15). -/
def DRC_STATUS_TRAINED1 : Field := ⟨0x580004, 31, 31⟩
/-- DRC_STATUS.TRAINED0 (Table 11-15). -/
def DRC_STATUS_TRAINED0 : Field := ⟨0x580004, 30, 30⟩
/-- DRC_STATUS.SELF_REFRESH (Table 11-15). -/
def DRC_STATUS_SELF_REFRESH : Field := ⟨0x580004, 29, 29⟩
/-- DRC_STATUS.FAIL_DEV1 (Table 11-15). -/
def DRC_STATUS_FAIL_DEV1 : Field := ⟨0x580004, 23, 20⟩
/-- DRC_STATUS.FAIL_DEV0 (Table 11-15). -/
def DRC_STATUS_FAIL_DEV0 : Field := ⟨0x580004, 19, 16⟩
/-- DRC_ECC_CNT.CORR (Table 11-15). -/
def DRC_ECC_CNT_CORR (n : Nat) : Field := ⟨0x580010 + 4 * n, 31, 16⟩
/-- DRC_ECC_CNT.UNCORR (Table 11-15). -/
def DRC_ECC_CNT_UNCORR (n : Nat) : Field := ⟨0x580010 + 4 * n, 15, 8⟩
/-- DRC_ECC_CNT.ALERT (Table 11-15). -/
def DRC_ECC_CNT_ALERT (n : Nat) : Field := ⟨0x580010 + 4 * n, 7, 0⟩
/-- DRC_ECC_LOG.VALID (Table 11-16). -/
def DRC_ECC_LOG_VALID : Field := ⟨0x580020, 31, 31⟩
/-- DRC_ECC_LOG.UNCORR (Table 11-16). -/
def DRC_ECC_LOG_UNCORR : Field := ⟨0x580020, 30, 30⟩
/-- DRC_ECC_LOG.CH (Table 11-16). -/
def DRC_ECC_LOG_CH : Field := ⟨0x580020, 29, 29⟩
/-- DRC_ECC_LOG.RANK (Table 11-16). -/
def DRC_ECC_LOG_RANK : Field := ⟨0x580020, 28, 28⟩
/-- DRC_ECC_LOG.DEV (Table 11-16). -/
def DRC_ECC_LOG_DEV : Field := ⟨0x580020, 27, 24⟩
/-- DRC_ECC_ADDR.LINE (Table 11-16). -/
def DRC_ECC_ADDR_LINE : Field := ⟨0x580024, 29, 0⟩
/-- DRC_ECC_TS.STROKE_LO (Table 11-16). -/
def DRC_ECC_TS_STROKE_LO : Field := ⟨0x580028, 31, 0⟩
/-- DRC_SCRUB.PASSES (Table 11-16). -/
def DRC_SCRUB_PASSES : Field := ⟨0x580030, 31, 16⟩
/-- DRC_FAIL_CTL.THRESH (Table 11-16). -/
def DRC_FAIL_CTL_THRESH : Field := ⟨0x580034, 15, 0⟩
/-- MED_STATUS.STATE (Table 12-8). -/
def MED_STATUS_STATE : Field := ⟨0x500000, 31, 29⟩
/-- MED_STATUS.UNQUAL (Table 12-8). -/
def MED_STATUS_UNQUAL : Field := ⟨0x500000, 28, 28⟩
/-- MED_STATUS.HEALTHY (Table 12-8). -/
def MED_STATUS_HEALTHY : Field := ⟨0x500000, 23, 16⟩
/-- MED_STATUS.POP (Table 12-8). -/
def MED_STATUS_POP : Field := ⟨0x500000, 15, 8⟩
/-- MED_STATUS.LOST (Table 12-8). -/
def MED_STATUS_LOST : Field := ⟨0x500000, 7, 0⟩
/-- MED_LIFE.PE_AVG (Table 12-9). -/
def MED_LIFE_PE_AVG : Field := ⟨0x500010, 31, 16⟩
/-- MED_LIFE.LIFE_PCT (Table 12-9). -/
def MED_LIFE_LIFE_PCT : Field := ⟨0x500010, 15, 8⟩
/-- MED_LIFE.SPARE_PCT (Table 12-9). -/
def MED_LIFE_SPARE_PCT : Field := ⟨0x500010, 7, 0⟩
/-- MED_PE.PE_MAX (Table 12-9). -/
def MED_PE_PE_MAX : Field := ⟨0x500014, 31, 16⟩
/-- MED_PE.PE_MIN (Table 12-9). -/
def MED_PE_PE_MIN : Field := ⟨0x500014, 15, 0⟩
/-- MED_WA.WA_X100 (Table 12-9). -/
def MED_WA_WA_X100 : Field := ⟨0x500018, 31, 16⟩
/-- MED_WA.RETIRED (Table 12-9). -/
def MED_WA_RETIRED : Field := ⟨0x500018, 15, 0⟩
/-- MED_WEAR_CTL.WARN_PCT (Table 12-9). -/
def MED_WEAR_CTL_WARN_PCT : Field := ⟨0x500020, 31, 24⟩
/-- MED_WEAR_CTL.SPARE_LOW_PCT (Table 12-9). -/
def MED_WEAR_CTL_SPARE_LOW_PCT : Field := ⟨0x500020, 23, 16⟩
/-- MED_WEAR_CTL.SPREAD (Table 12-9). -/
def MED_WEAR_CTL_SPREAD : Field := ⟨0x500020, 15, 0⟩
/-- MED_PATROL_CTL.REFRESH_STEP (Table 12-10). -/
def MED_PATROL_CTL_REFRESH_STEP : Field := ⟨0x500024, 15, 12⟩
/-- MED_PATROL_STATUS.PASSES (Table 12-10). -/
def MED_PATROL_STATUS_PASSES : Field := ⟨0x500028, 31, 16⟩
/-- MED_PATROL_STATUS.PROGRESS (Table 12-10). -/
def MED_PATROL_STATUS_PROGRESS : Field := ⟨0x500028, 15, 8⟩
/-- MED_REFRESH_CNT.BLOCKS (Table 12-10). -/
def MED_REFRESH_CNT_BLOCKS : Field := ⟨0x50002C, 31, 0⟩
/-- MED_REBUILD_STATUS.ACTIVE (Table 12-10). -/
def MED_REBUILD_STATUS_ACTIVE : Field := ⟨0x500034, 31, 31⟩
/-- MED_REBUILD_STATUS.LUN (Table 12-10). -/
def MED_REBUILD_STATUS_LUN : Field := ⟨0x500034, 21, 16⟩
/-- MED_REBUILD_STATUS.PERMILLE (Table 12-10). -/
def MED_REBUILD_STATUS_PERMILLE : Field := ⟨0x500034, 9, 0⟩
/-- MED_RETRY_HIST.HARD_RETRY (Table 12-10). -/
def MED_RETRY_HIST_HARD_RETRY : Field := ⟨0x500040, 31, 24⟩
/-- MED_RETRY_HIST.SOFT (Table 12-10). -/
def MED_RETRY_HIST_SOFT : Field := ⟨0x500040, 23, 16⟩
/-- MED_RETRY_HIST.RECON (Table 12-10). -/
def MED_RETRY_HIST_RECON : Field := ⟨0x500040, 15, 8⟩
/-- MED_RETRY_HIST.UNCORR (Table 12-10). -/
def MED_RETRY_HIST_UNCORR : Field := ⟨0x500040, 7, 0⟩
/-- MED_NF_CFG.CLASS (Table 12-11). -/
def MED_NF_CFG_CLASS (n : Nat) : Field := ⟨0x500100 + 8 * n, 31, 30⟩
/-- MED_NF_CFG.UNQUAL (Table 12-11). -/
def MED_NF_CFG_UNQUAL (n : Nat) : Field := ⟨0x500100 + 8 * n, 29, 29⟩
/-- MED_NF_CFG.RATE (Table 12-11). -/
def MED_NF_CFG_RATE (n : Nat) : Field := ⟨0x500100 + 8 * n, 17, 16⟩
/-- MED_NF_CFG.LUN2_MASK (Table 12-11). -/
def MED_NF_CFG_LUN2_MASK (n : Nat) : Field := ⟨0x500100 + 8 * n, 7, 4⟩
/-- MED_NF_CFG.CE_MASK (Table 12-11). -/
def MED_NF_CFG_CE_MASK (n : Nat) : Field := ⟨0x500100 + 8 * n, 3, 0⟩
/-- MED_NF_CNT.PROG_FAIL (Table 12-11). -/
def MED_NF_CNT_PROG_FAIL (n : Nat) : Field := ⟨0x500104 + 8 * n, 31, 24⟩
/-- MED_NF_CNT.ERASE_FAIL (Table 12-11). -/
def MED_NF_CNT_ERASE_FAIL (n : Nat) : Field := ⟨0x500104 + 8 * n, 23, 16⟩
/-- MED_NF_CNT.RB_TMO (Table 12-11). -/
def MED_NF_CNT_RB_TMO (n : Nat) : Field := ⟨0x500104 + 8 * n, 15, 8⟩
/-- MED_NF_CNT.UNCORR (Table 12-11). -/
def MED_NF_CNT_UNCORR (n : Nat) : Field := ⟨0x500104 + 8 * n, 7, 0⟩
/-- UL_CTL.EN (Table 13-15). -/
def UL_CTL_EN (n : Nat) : Field := ⟨0x600000 + 65536 * n, 31, 31⟩
/-- UL_STATUS.STATE (Table 13-15). -/
def UL_STATUS_STATE (n : Nat) : Field := ⟨0x600004 + 65536 * n, 31, 29⟩
/-- UL_STATUS.LPM (Table 13-15). -/
def UL_STATUS_LPM (n : Nat) : Field := ⟨0x600004 + 65536 * n, 28, 27⟩
/-- UL_STATUS.W4 (Table 13-15). -/
def UL_STATUS_W4 (n : Nat) : Field := ⟨0x600004 + 65536 * n, 26, 26⟩
/-- UL_STATUS.C0_SHORT (Table 13-15). -/
def UL_STATUS_C0_SHORT (n : Nat) : Field := ⟨0x600004 + 65536 * n, 25, 25⟩
/-- UL_STATUS.SHIFT (Table 13-15). -/
def UL_STATUS_SHIFT (n : Nat) : Field := ⟨0x600004 + 65536 * n, 24, 24⟩
/-- UL_STATUS.REPLAY (Table 13-15). -/
def UL_STATUS_REPLAY (n : Nat) : Field := ⟨0x600004 + 65536 * n, 23, 23⟩
/-- UL_STATUS.SPARE_TX (Table 13-15). -/
def UL_STATUS_SPARE_TX (n : Nat) : Field := ⟨0x600004 + 65536 * n, 22, 22⟩
/-- UL_STATUS.SPARE_RX (Table 13-15). -/
def UL_STATUS_SPARE_RX (n : Nat) : Field := ⟨0x600004 + 65536 * n, 21, 21⟩
/-- UL_LANES.EPOCH (Table 13-16). -/
def UL_LANES_EPOCH (n : Nat) : Field := ⟨0x600008 + 65536 * n, 31, 24⟩
/-- UL_LANES.RETIRED (Table 13-16). -/
def UL_LANES_RETIRED (n : Nat) : Field := ⟨0x600008 + 65536 * n, 22, 14⟩
/-- UL_LANES.PASSED (Table 13-16). -/
def UL_LANES_PASSED (n : Nat) : Field := ⟨0x600008 + 65536 * n, 8, 0⟩
/-- UL_TIMERS.GRACE (Table 13-16). -/
def UL_TIMERS_GRACE (n : Nat) : Field := ⟨0x600014 + 65536 * n, 23, 16⟩
/-- UL_PRESET.PRESET (Table 13-16). -/
def UL_PRESET_PRESET (n : Nat) : Field := ⟨0x600010 + 65536 * n, 3, 0⟩
/-- UL_TIMERS.TRAIN_TMO (Table 13-16). -/
def UL_TIMERS_TRAIN_TMO (n : Nat) : Field := ⟨0x600014 + 65536 * n, 15, 0⟩
/-- UL_LPM.COAST_EN (Table 13-17). -/
def UL_LPM_COAST_EN (n : Nat) : Field := ⟨0x600018 + 65536 * n, 31, 31⟩
/-- UL_LPM.COAST_IDLE (Table 13-17). -/
def UL_LPM_COAST_IDLE (n : Nat) : Field := ⟨0x600018 + 65536 * n, 15, 0⟩
/-- UL_CREDIT_PEER.VC3 (Table 13-17). -/
def UL_CREDIT_PEER_VC3 (n : Nat) : Field := ⟨0x600020 + 65536 * n, 31, 24⟩
/-- UL_CREDIT_PEER.VC2 (Table 13-17). -/
def UL_CREDIT_PEER_VC2 (n : Nat) : Field := ⟨0x600020 + 65536 * n, 23, 16⟩
/-- UL_CREDIT_PEER.VC1 (Table 13-17). -/
def UL_CREDIT_PEER_VC1 (n : Nat) : Field := ⟨0x600020 + 65536 * n, 15, 8⟩
/-- UL_CREDIT_PEER.VC0 (Table 13-17). -/
def UL_CREDIT_PEER_VC0 (n : Nat) : Field := ⟨0x600020 + 65536 * n, 7, 0⟩
/-- UL_CREDIT_AVAIL.VC3 (Table 13-17). -/
def UL_CREDIT_AVAIL_VC3 (n : Nat) : Field := ⟨0x600024 + 65536 * n, 31, 24⟩
/-- UL_CREDIT_AVAIL.VC2 (Table 13-17). -/
def UL_CREDIT_AVAIL_VC2 (n : Nat) : Field := ⟨0x600024 + 65536 * n, 23, 16⟩
/-- UL_CREDIT_AVAIL.VC1 (Table 13-17). -/
def UL_CREDIT_AVAIL_VC1 (n : Nat) : Field := ⟨0x600024 + 65536 * n, 15, 8⟩
/-- UL_CREDIT_AVAIL.VC0 (Table 13-17). -/
def UL_CREDIT_AVAIL_VC0 (n : Nat) : Field := ⟨0x600024 + 65536 * n, 7, 0⟩
/-- UL_SEQ.TX_NEXT (Table 13-18). -/
def UL_SEQ_TX_NEXT (n : Nat) : Field := ⟨0x600028 + 65536 * n, 27, 16⟩
/-- UL_SEQ.RX_EXP (Table 13-18). -/
def UL_SEQ_RX_EXP (n : Nat) : Field := ⟨0x600028 + 65536 * n, 11, 0⟩
/-- UL_REPLAY.HWM (Table 13-18). -/
def UL_REPLAY_HWM (n : Nat) : Field := ⟨0x60002C + 65536 * n, 31, 24⟩
/-- UL_REPLAY.HELD (Table 13-18). -/
def UL_REPLAY_HELD (n : Nat) : Field := ⟨0x60002C + 65536 * n, 23, 16⟩
/-- UL_REPLAY.REPLAYED (Table 13-18). -/
def UL_REPLAY_REPLAYED (n : Nat) : Field := ⟨0x60002C + 65536 * n, 15, 0⟩
/-- UL_ERR_CNT.CRC (Table 13-19). -/
def UL_ERR_CNT_CRC (n : Nat) : Field := ⟨0x600030 + 65536 * n, 31, 24⟩
/-- UL_ERR_CNT.BLOCK (Table 13-19). -/
def UL_ERR_CNT_BLOCK (n : Nat) : Field := ⟨0x600030 + 65536 * n, 23, 16⟩
/-- UL_ERR_CNT.NAK_SENT (Table 13-19). -/
def UL_ERR_CNT_NAK_SENT (n : Nat) : Field := ⟨0x600030 + 65536 * n, 15, 8⟩
/-- UL_ERR_CNT.NAK_RCVD (Table 13-19). -/
def UL_ERR_CNT_NAK_RCVD (n : Nat) : Field := ⟨0x600030 + 65536 * n, 7, 0⟩
/-- UL_EVT_CNT.SHIFTS (Table 13-19). -/
def UL_EVT_CNT_SHIFTS (n : Nat) : Field := ⟨0x600034 + 65536 * n, 31, 24⟩
/-- UL_EVT_CNT.DOWNS (Table 13-19). -/
def UL_EVT_CNT_DOWNS (n : Nat) : Field := ⟨0x600034 + 65536 * n, 23, 16⟩
/-- UL_EVT_CNT.FLUSHES (Table 13-19). -/
def UL_EVT_CNT_FLUSHES (n : Nat) : Field := ⟨0x600034 + 65536 * n, 15, 8⟩
/-- UL_EVT_CNT.TRAIN_FAIL (Table 13-19). -/
def UL_EVT_CNT_TRAIN_FAIL (n : Nat) : Field := ⟨0x600034 + 65536 * n, 7, 0⟩
/-- UL_PROTO_LOG.VALID (Table 13-19). -/
def UL_PROTO_LOG_VALID (n : Nat) : Field := ⟨0x600038 + 65536 * n, 31, 31⟩
/-- UL_PROTO_LOG.CODE (Table 13-19). -/
def UL_PROTO_LOG_CODE (n : Nat) : Field := ⟨0x600038 + 65536 * n, 19, 16⟩
/-- UL_PROTO_LOG.SEQ (Table 13-19). -/
def UL_PROTO_LOG_SEQ (n : Nat) : Field := ⟨0x600038 + 65536 * n, 11, 0⟩
/-- UL_DOWN_TS.STROKE_LO (Table 13-19). -/
def UL_DOWN_TS_STROKE_LO (n : Nat) : Field := ⟨0x60003C + 65536 * n, 31, 0⟩
/-- UL_PEER.MISMATCH (Table 13-20). -/
def UL_PEER_MISMATCH (n : Nat) : Field := ⟨0x600040 + 65536 * n, 31, 31⟩
/-- UL_PEER.REV (Table 13-20). -/
def UL_PEER_REV (n : Nat) : Field := ⟨0x600040 + 65536 * n, 15, 8⟩
/-- UL_PEER.TOPOLOGY (Table 13-20). -/
def UL_PEER_TOPOLOGY (n : Nat) : Field := ⟨0x600040 + 65536 * n, 4, 3⟩
/-- UL_PEER.MEMBER (Table 13-20). -/
def UL_PEER_MEMBER (n : Nat) : Field := ⟨0x600040 + 65536 * n, 2, 0⟩
/-- UL_DELAY.ONE_WAY (Table 13-20). -/
def UL_DELAY_ONE_WAY (n : Nat) : Field := ⟨0x600044 + 65536 * n, 15, 0⟩
/-- UL_BYP.RETX (Table 13-20). -/
def UL_BYP_RETX (n : Nat) : Field := ⟨0x600048 + 65536 * n, 31, 16⟩
/-- UL_BYP.CRC (Table 13-20). -/
def UL_BYP_CRC (n : Nat) : Field := ⟨0x600048 + 65536 * n, 15, 8⟩
/-- UL_BYP.BAD (Table 13-20). -/
def UL_BYP_BAD (n : Nat) : Field := ⟨0x600048 + 65536 * n, 7, 0⟩
/-- UL_LANE_RX.LOCKED (Table 13-20). -/
def UL_LANE_RX_LOCKED (n k : Nat) : Field := ⟨0x600100 + 65536 * n + 4 * k, 31, 31⟩
/-- UL_LANE_RX.CTLE (Table 13-20). -/
def UL_LANE_RX_CTLE (n k : Nat) : Field := ⟨0x600100 + 65536 * n + 4 * k, 23, 20⟩
/-- UL_LANE_RX.DFE1 (Table 13-20). -/
def UL_LANE_RX_DFE1 (n k : Nat) : Field := ⟨0x600100 + 65536 * n + 4 * k, 19, 14⟩
/-- UL_LANE_RX.EYE (Table 13-20). -/
def UL_LANE_RX_EYE (n k : Nat) : Field := ⟨0x600100 + 65536 * n + 4 * k, 13, 8⟩
/-- UL_LANE_RX.SYNC_ERR (Table 13-20). -/
def UL_LANE_RX_SYNC_ERR (n k : Nat) : Field := ⟨0x600100 + 65536 * n + 4 * k, 7, 0⟩
/-- PEL_STATUS.STATE (Table 14-8). -/
def PEL_STATUS_STATE : Field := ⟨0x680000, 31, 29⟩
/-- PEL_STATUS.REASON (Table 14-8). -/
def PEL_STATUS_REASON : Field := ⟨0x680000, 28, 26⟩
/-- PEL_STATUS.MISWIRED (Table 14-8). -/
def PEL_STATUS_MISWIRED : Field := ⟨0x680000, 25, 22⟩
/-- PEL_STATUS.LEADER (Table 14-8). -/
def PEL_STATUS_LEADER : Field := ⟨0x680000, 11, 9⟩
/-- PEL_STATUS.MEMBER (Table 14-8). -/
def PEL_STATUS_MEMBER : Field := ⟨0x680000, 8, 6⟩
/-- PEL_STATUS.TOPOLOGY (Table 14-8). -/
def PEL_STATUS_TOPOLOGY : Field := ⟨0x680000, 5, 4⟩
/-- PEL_VIEW.EPOCH (Table 14-8). -/
def PEL_VIEW_EPOCH : Field := ⟨0x680004, 31, 16⟩
/-- PEL_VIEW.JOINED (Table 14-8). -/
def PEL_VIEW_JOINED : Field := ⟨0x680004, 15, 8⟩
/-- PEL_VIEW.REACH (Table 14-8). -/
def PEL_VIEW_REACH : Field := ⟨0x680004, 7, 0⟩
/-- PEL_CTL.JOIN_WAIT (Table 14-9). -/
def PEL_CTL_JOIN_WAIT : Field := ⟨0x680010, 25, 16⟩
/-- PEL_CTL.PHOTO_LEAD (Table 14-9). -/
def PEL_CTL_PHOTO_LEAD : Field := ⟨0x680010, 15, 8⟩
/-- PEL_CTL.FENCE_MARGIN (Table 14-9). -/
def PEL_CTL_FENCE_MARGIN : Field := ⟨0x680010, 7, 0⟩
/-- PEL_LOSS_LOG.VALID (Table 14-9). -/
def PEL_LOSS_LOG_VALID : Field := ⟨0x680014, 31, 31⟩
/-- PEL_LOSS_LOG.MEMBER (Table 14-9). -/
def PEL_LOSS_LOG_MEMBER : Field := ⟨0x680014, 30, 28⟩
/-- PEL_LOSS_LOG.HOW (Table 14-9). -/
def PEL_LOSS_LOG_HOW : Field := ⟨0x680014, 27, 26⟩
/-- PEL_LOSS_LOG.LIVE (Table 14-9). -/
def PEL_LOSS_LOG_LIVE : Field := ⟨0x680014, 15, 0⟩
/-- PEL_LOSS_TS.STROKE_LO (Table 14-9). -/
def PEL_LOSS_TS_STROKE_LO : Field := ⟨0x680018, 31, 0⟩
/-- PEL_CNT.LOSSES (Table 14-9). -/
def PEL_CNT_LOSSES : Field := ⟨0x680028, 31, 24⟩
/-- PEL_CNT.FAILOVERS (Table 14-9). -/
def PEL_CNT_FAILOVERS : Field := ⟨0x680028, 23, 16⟩
/-- PEL_CNT.FENCES (Table 14-9). -/
def PEL_CNT_FENCES : Field := ⟨0x680028, 15, 8⟩
/-- PEL_CNT.VIEWS (Table 14-9). -/
def PEL_CNT_VIEWS : Field := ⟨0x680028, 7, 0⟩
/-- PEL_TANDEM.ROLE (Table 14-10). -/
def PEL_TANDEM_ROLE (n : Nat) : Field := ⟨0x2000000008 + 64 * n, 31, 30⟩
/-- PEL_TANDEM.CLEAN_OK (Table 14-10). -/
def PEL_TANDEM_CLEAN_OK (n : Nat) : Field := ⟨0x2000000008 + 64 * n, 29, 29⟩
/-- PEL_TANDEM.PEER_MEMBER (Table 14-10). -/
def PEL_TANDEM_PEER_MEMBER (n : Nat) : Field := ⟨0x2000000008 + 64 * n, 28, 26⟩
/-- PEL_TANDEM.PEER_CTX (Table 14-10). -/
def PEL_TANDEM_PEER_CTX (n : Nat) : Field := ⟨0x2000000008 + 64 * n, 25, 16⟩
/-- PEL_GEN.GENERATION (Table 14-10). -/
def PEL_GEN_GENERATION (n : Nat) : Field := ⟨0x200000000C + 64 * n, 31, 0⟩
/-- PEL_LOC.MOVED (Table 14-11). -/
def PEL_LOC_MOVED (n : Nat) : Field := ⟨0x688000 + 4 * n, 30, 30⟩
/-- PEL_LOC.MEMBER (Table 14-11). -/
def PEL_LOC_MEMBER (n : Nat) : Field := ⟨0x688000 + 4 * n, 26, 24⟩
/-- PEL_LOC.CTX (Table 14-11). -/
def PEL_LOC_CTX (n : Nat) : Field := ⟨0x688000 + 4 * n, 9, 0⟩
/-- IC_SRC_CFG.HGRP (Table 15-10). -/
def IC_SRC_CFG_HGRP (n : Nat) : Field := ⟨0x700400 + 4 * n, 20, 16⟩
/-- IC_SRC_CFG.HGEN (Table 15-10). -/
def IC_SRC_CFG_HGEN (n : Nat) : Field := ⟨0x700400 + 4 * n, 15, 15⟩
/-- IC_SRC_CFG.TARGET (Table 15-10). -/
def IC_SRC_CFG_TARGET (n : Nat) : Field := ⟨0x700400 + 4 * n, 10, 8⟩
/-- IC_SRC_CFG.PRIO (Table 15-10). -/
def IC_SRC_CFG_PRIO (n : Nat) : Field := ⟨0x700400 + 4 * n, 7, 0⟩
/-- IC_HOLD.RUNNING (Table 15-10). -/
def IC_HOLD_RUNNING (n : Nat) : Field := ⟨0x700900 + 4 * n, 31, 31⟩
/-- IC_HOLD.STROKES (Table 15-10). -/
def IC_HOLD_STROKES (n : Nat) : Field := ⟨0x700900 + 4 * n, 15, 0⟩
/-- IC_CORE_CFG.SPLIT (Table 15-11). -/
def IC_CORE_CFG_SPLIT (n : Nat) : Field := ⟨0x4000000000 + 4 * n, 2, 0⟩
/-- IC_CORE_STATUS.FENCED (Table 15-11). -/
def IC_CORE_STATUS_FENCED (n : Nat) : Field := ⟨0x700A40 + 4 * n, 31, 31⟩
/-- IC_FAULT_LOG.VALID (Table 15-12). -/
def IC_FAULT_LOG_VALID : Field := ⟨0x700A80, 31, 31⟩
/-- IC_FAULT_LOG.CORE (Table 15-12). -/
def IC_FAULT_LOG_CORE : Field := ⟨0x700A80, 30, 29⟩
/-- IC_FAULT_LOG.WRITTEN (Table 15-12). -/
def IC_FAULT_LOG_WRITTEN : Field := ⟨0x700A80, 25, 17⟩
/-- IC_FAULT_LOG.TOP (Table 15-12). -/
def IC_FAULT_LOG_TOP : Field := ⟨0x700A80, 16, 8⟩
/-- IC_FAULT_LOG.DEPTH (Table 15-12). -/
def IC_FAULT_LOG_DEPTH : Field := ⟨0x700A80, 4, 0⟩
/-- IC_FAULT_TS.STROKE_LO (Table 15-12). -/
def IC_FAULT_TS_STROKE_LO : Field := ⟨0x700A84, 31, 0⟩
/-- IC_TMR_CTL.EN (Table 15-13). -/
def IC_TMR_CTL_EN (n : Nat) : Field := ⟨0x700E00 + 8 * n, 31, 31⟩
/-- IC_TMR_CTL.PERIODIC (Table 15-13). -/
def IC_TMR_CTL_PERIODIC (n : Nat) : Field := ⟨0x700E00 + 8 * n, 30, 30⟩
/-- IC_TMR_CTL.PERIOD (Table 15-13). -/
def IC_TMR_CTL_PERIOD (n : Nat) : Field := ⟨0x700E00 + 8 * n, 23, 0⟩
/-- IC_TMR_CNT.REMAIN (Table 15-13). -/
def IC_TMR_CNT_REMAIN (n : Nat) : Field := ⟨0x700E04 + 8 * n, 23, 0⟩
/-- IC_STROKE_CMP_LO.STROKE_LO (Table 15-13). -/
def IC_STROKE_CMP_LO_STROKE_LO : Field := ⟨0x700E40, 31, 0⟩
/-- IC_STROKE_CMP_HI.EN (Table 15-13). -/
def IC_STROKE_CMP_HI_EN : Field := ⟨0x700E44, 31, 31⟩
/-- IC_STROKE_CMP_HI.STROKE_HI (Table 15-13). -/
def IC_STROKE_CMP_HI_STROKE_HI : Field := ⟨0x700E44, 15, 0⟩
/-- EV_DROP.D3COLD (Table 15-14). -/
def EV_DROP_D3COLD : Field := ⟨0x740000, 31, 16⟩
/-- EV_DROP.BEYOND (Table 15-14). -/
def EV_DROP_BEYOND : Field := ⟨0x740000, 15, 8⟩
/-- EV_DROP.DISABLED (Table 15-14). -/
def EV_DROP_DISABLED : Field := ⟨0x740000, 7, 0⟩
/-- EV_PME.PME_SENT (Table 15-14). -/
def EV_PME_PME_SENT : Field := ⟨0x740004, 31, 16⟩
/-- EV_PME.HELD (Table 15-14). -/
def EV_PME_HELD : Field := ⟨0x740004, 15, 0⟩
/-- EV_MSIX_CNT.SENT (Table 15-14). -/
def EV_MSIX_CNT_SENT : Field := ⟨0x740008, 31, 0⟩
/-- MBX_WDOG_CTL.MS (Table 16-15). -/
def MBX_WDOG_CTL_MS : Field := ⟨0x788000, 15, 0⟩
/-- MBX_CNT.TIMEOUT (Table 16-15). -/
def MBX_CNT_TIMEOUT : Field := ⟨0x788004, 31, 24⟩
/-- MBX_CNT.INTERRUPTED (Table 16-15). -/
def MBX_CNT_INTERRUPTED : Field := ⟨0x788004, 23, 16⟩
/-- MBX_CNT.SUPERSEDED (Table 16-15). -/
def MBX_CNT_SUPERSEDED : Field := ⟨0x788004, 15, 8⟩
/-- MBX_CNT.RERUN (Table 16-15). -/
def MBX_CNT_RERUN : Field := ⟨0x788004, 7, 0⟩
/-- MBX_CONFLICT_LOG.VALID (Table 16-15). -/
def MBX_CONFLICT_LOG_VALID : Field := ⟨0x788008, 31, 31⟩
/-- MBX_CONFLICT_LOG.LOSER_SRC (Table 16-15). -/
def MBX_CONFLICT_LOG_LOSER_SRC : Field := ⟨0x788008, 30, 28⟩
/-- MBX_CONFLICT_LOG.LOSER_CTX (Table 16-15). -/
def MBX_CONFLICT_LOG_LOSER_CTX : Field := ⟨0x788008, 27, 18⟩
/-- MBX_CONFLICT_LOG.LOSER_OPCODE (Table 16-15). -/
def MBX_CONFLICT_LOG_LOSER_OPCODE : Field := ⟨0x788008, 15, 0⟩
/-- MBX_CONFLICT_TS.STROKE_LO (Table 16-15). -/
def MBX_CONFLICT_TS_STROKE_LO : Field := ⟨0x78800C, 31, 0⟩
/-- MBX_BC_ATTN.BOOT_FAIL (Table 16-15). -/
def MBX_BC_ATTN_BOOT_FAIL : Field := ⟨0x788010, 7, 7⟩
/-- MBX_BC_ATTN.CORE (Table 16-15). -/
def MBX_BC_ATTN_CORE : Field := ⟨0x788010, 6, 6⟩
/-- MBX_BC_ATTN.FW_OP (Table 16-15). -/
def MBX_BC_ATTN_FW_OP : Field := ⟨0x788010, 5, 5⟩
/-- MBX_BC_ATTN.STORE (Table 16-15). -/
def MBX_BC_ATTN_STORE : Field := ⟨0x788010, 4, 4⟩
/-- MBX_BC_ATTN.PEL (Table 16-15). -/
def MBX_BC_ATTN_PEL : Field := ⟨0x788010, 3, 3⟩
/-- MBX_BC_ATTN.MODE (Table 16-15). -/
def MBX_BC_ATTN_MODE : Field := ⟨0x788010, 2, 2⟩
/-- MBX_BC_ATTN.THERM (Table 16-15). -/
def MBX_BC_ATTN_THERM : Field := ⟨0x788010, 1, 1⟩
/-- MBX_BC_ATTN.MBX_DONE (Table 16-15). -/
def MBX_BC_ATTN_MBX_DONE : Field := ⟨0x788010, 0, 0⟩
/-- MBX_SMB_CFG.PEC_REQ (Table 16-15). -/
def MBX_SMB_CFG_PEC_REQ : Field := ⟨0x788018, 31, 31⟩
/-- MBX_SMB_CNT.PEC_ERR (Table 16-15). -/
def MBX_SMB_CNT_PEC_ERR : Field := ⟨0x78801C, 31, 16⟩
/-- MBX_SMB_CNT.DENIED (Table 16-15). -/
def MBX_SMB_CNT_DENIED : Field := ⟨0x78801C, 15, 8⟩
/-- MBX_SMB_CNT.DROPPED (Table 16-15). -/
def MBX_SMB_CNT_DROPPED : Field := ⟨0x78801C, 7, 0⟩
/-- PFS_CTL.PEL (Table 19-8). -/
def PFS_CTL_PEL : Field := ⟨0x7C0000, 30, 30⟩
/-- PFS_CTL.PIN_EN (Table 19-8). -/
def PFS_CTL_PIN_EN : Field := ⟨0x7C0000, 29, 29⟩
/-- PFS_CTL.MATCH_EN (Table 19-8). -/
def PFS_CTL_MATCH_EN : Field := ⟨0x7C0000, 28, 28⟩
/-- PFS_STAT.VALID (Table 19-8). -/
def PFS_STAT_VALID : Field := ⟨0x7C0004, 31, 31⟩
/-- PFS_STAT.ARMED (Table 19-8). -/
def PFS_STAT_ARMED : Field := ⟨0x7C0004, 30, 30⟩
/-- PFS_STAT.PEL_PENDING (Table 19-8). -/
def PFS_STAT_PEL_PENDING : Field := ⟨0x7C0004, 29, 29⟩
/-- PFS_STAT.LATE (Table 19-8). -/
def PFS_STAT_LATE : Field := ⟨0x7C0004, 28, 28⟩
/-- PFS_STAT.UNALIGNED (Table 19-8). -/
def PFS_STAT_UNALIGNED : Field := ⟨0x7C0004, 27, 27⟩
/-- PFS_STAT.BCAST_LOST (Table 19-8). -/
def PFS_STAT_BCAST_LOST : Field := ⟨0x7C0004, 26, 26⟩
/-- PFS_STAT.SRC (Table 19-8). -/
def PFS_STAT_SRC : Field := ⟨0x7C0004, 19, 16⟩
/-- PFS_STAT.MISSED (Table 19-8). -/
def PFS_STAT_MISSED : Field := ⟨0x7C0004, 15, 8⟩
/-- PFS_STAT.LATE_BY (Table 19-8). -/
def PFS_STAT_LATE_BY : Field := ⟨0x7C0004, 7, 0⟩
/-- PFS_TS_LO.STROKE_LO (Table 19-8). -/
def PFS_TS_LO_STROKE_LO : Field := ⟨0x7C0008, 31, 0⟩
/-- PFS_TS_HI.STROKE_HI (Table 19-8). -/
def PFS_TS_HI_STROKE_HI : Field := ⟨0x7C000C, 15, 0⟩
/-- PFS_MATCH.SOURCE (Table 19-8). -/
def PFS_MATCH_SOURCE : Field := ⟨0x7C0010, 8, 0⟩
/-- PFS_BCAST.VALID (Table 19-8). -/
def PFS_BCAST_VALID : Field := ⟨0x7C0018, 31, 31⟩
/-- PFS_BCAST.ORIGIN (Table 19-8). -/
def PFS_BCAST_ORIGIN : Field := ⟨0x7C0018, 18, 16⟩
/-- PFS_BCAST.NUMBER (Table 19-8). -/
def PFS_BCAST_NUMBER : Field := ⟨0x7C0018, 15, 0⟩
/-- DBG_STATUS.SESSION (Table 19-9). -/
def DBG_STATUS_SESSION : Field := ⟨0x7E0000, 31, 31⟩
/-- DBG_STATUS.ACCESSES (Table 19-9). -/
def DBG_STATUS_ACCESSES : Field := ⟨0x7E0000, 15, 0⟩
/-- DBG_DENY.VALID (Table 19-9). -/
def DBG_DENY_VALID : Field := ⟨0x7E0004, 31, 31⟩
/-- DBG_DENY.WRITE (Table 19-9). -/
def DBG_DENY_WRITE : Field := ⟨0x7E0004, 30, 30⟩
/-- DBG_DENY.CAUSE (Table 19-9). -/
def DBG_DENY_CAUSE : Field := ⟨0x7E0004, 29, 27⟩
/-- DBG_DENY.COUNT (Table 19-9). -/
def DBG_DENY_COUNT : Field := ⟨0x7E0004, 15, 0⟩
/-- DBG_FUSE_STAT.FUSE_EN (Table 19-9). -/
def DBG_FUSE_STAT_FUSE_EN : Field := ⟨0x7E0014, 31, 31⟩
/-- DBG_FUSE_STAT.VDD_OK (Table 19-9). -/
def DBG_FUSE_STAT_VDD_OK : Field := ⟨0x7E0014, 30, 30⟩
/-- DBG_FUSE_STAT.BUSY (Table 19-9). -/
def DBG_FUSE_STAT_BUSY : Field := ⟨0x7E0014, 29, 29⟩
/-- DBG_FUSE_STAT.RESULT (Table 19-9). -/
def DBG_FUSE_STAT_RESULT : Field := ⟨0x7E0014, 7, 0⟩

end Fld

/-- The registers of the DEV group. -/
def regs_dev : List RegDef := [
  ⟨"DEV_ID", 0x100000, [], 0x9680B100, 0x9680B100, 0x0,
   [⟨31, 16, .ro, 0, 0⟩, ⟨15, 12, .ro, 0, 0⟩, ⟨11, 8, .ro, 0, 0⟩, ⟨7, 4, .ro, 0, 0⟩]⟩,
  ⟨"DEV_FWREV", 0x100004, [], 0x0, 0x0, 0x0,
   [⟨31, 24, .ro, 0, 0⟩, ⟨23, 16, .ro, 0, 0⟩, ⟨15, 8, .ro, 0, 0⟩, ⟨7, 0, .ro, 0, 0⟩]⟩,
  ⟨"DEV_STRAP", 0x100008, [], 0x0, 0x0, 0x0,
   [⟨8, 8, .ro, 0, 0⟩, ⟨7, 7, .ro, 0, 0⟩, ⟨6, 5, .ro, 0, 0⟩, ⟨4, 3, .ro, 0, 0⟩, ⟨2, 0, .ro, 0, 0⟩]⟩,
  ⟨"DEV_MODE", 0x100010, [], 0x0, 0x0, 0x0,
   [⟨23, 16, .ro, 0, 0⟩, ⟨10, 8, .ro, 0, 0⟩, ⟨2, 0, .ro, 0, 0⟩]⟩,
  ⟨"DEV_MODE_TS_LO", 0x100014, [], 0x0, 0x0, 0x0,
   [⟨31, 0, .ro, 0, 0⟩]⟩,
  ⟨"DEV_MODE_TS_HI", 0x100018, [], 0x0, 0x0, 0x0,
   [⟨15, 0, .ro, 0, 0⟩]⟩,
  ⟨"DEV_RST_CAUSE", 0x100020, [], 0x1, 0x1, 0x0,
   [⟨8, 8, .rw1c, 0, 0⟩, ⟨7, 7, .rw1c, 0, 0⟩, ⟨6, 6, .rw1c, 0, 0⟩, ⟨5, 5, .rw1c, 0, 0⟩, ⟨4, 4, .rw1c, 0, 0⟩, ⟨3, 3, .rw1c, 0, 0⟩, ⟨0, 0, .rw1c, 0, 0⟩]⟩,
  ⟨"DEV_BOOT", 0x100024, [], 0x0, 0x0, 0x0,
   [⟨23, 16, .ro, 0, 0⟩, ⟨15, 12, .ro, 0, 0⟩, ⟨9, 8, .ro, 0, 0⟩, ⟨3, 0, .ro, 0, 0⟩]⟩,
  ⟨"DEV_DRAIN_LIMIT", 0x100030, [], 0x14, 0x14, 0x0,
   [⟨9, 0, .rw, 1, 1000⟩]⟩,
  ⟨"DEV_GATED_ACC", 0x100040, [], 0x0, 0x0, 0x0,
   [⟨31, 31, .rw1c, 0, 0⟩, ⟨30, 30, .ro, 0, 0⟩, ⟨29, 29, .ro, 0, 0⟩, ⟨26, 24, .ro, 0, 0⟩, ⟨21, 20, .ro, 0, 0⟩, ⟨12, 8, .ro, 0, 0⟩]⟩,
  ⟨"DEV_GATED_ADDR", 0x100044, [], 0x0, 0x0, 0x0,
   [⟨31, 0, .ro, 0, 0⟩]⟩,
  ⟨"DEV_GATED_TS", 0x100048, [], 0x0, 0x0, 0x0,
   [⟨31, 0, .ro, 0, 0⟩]⟩,
  ⟨"DEV_GATED_CNT", 0x10004C, [], 0x0, 0x0, 0x0,
   [⟨15, 0, .rc, 0, 0⟩]⟩,
  ⟨"DEV_FAULT_STATUS", 0x100050, [], 0x0, 0x0, 0x0,
   [⟨31, 31, .rw1c, 0, 0⟩, ⟨30, 30, .ro, 0, 0⟩, ⟨29, 29, .ro, 0, 0⟩, ⟨23, 20, .ro, 0, 0⟩, ⟨11, 8, .ro, 0, 0⟩, ⟨5, 0, .ro, 0, 0⟩]⟩,
  ⟨"DEV_FAULT_CNT", 0x100054, [], 0x0, 0x0, 0x0,
   [⟨31, 24, .rc, 0, 0⟩, ⟨23, 16, .rc, 0, 0⟩, ⟨15, 8, .rc, 0, 0⟩, ⟨7, 0, .rc, 0, 0⟩]⟩,
  ⟨"DEV_FAULT_LOG", 0x100058, [], 0x0, 0x0, 0x0,
   [⟨31, 31, .rw1c, 0, 0⟩, ⟨15, 0, .ro, 0, 0⟩]⟩,
  ⟨"DEV_FAULT_TS", 0x10005C, [], 0x0, 0x0, 0x0,
   [⟨31, 0, .ro, 0, 0⟩]⟩,
  ⟨"DEV_SRAM_ECC", 0x100060, [], 0x0, 0x0, 0x0,
   [⟨31, 16, .rc, 0, 0⟩, ⟨15, 8, .rc, 0, 0⟩]⟩]

/-- The registers of the CRP group. -/
def regs_crp : List RegDef := [
  ⟨"CRP_LEVEL", 0x110000, [], 0x3000000, 0x3000000, 0x0,
   [⟨31, 30, .ro, 0, 0⟩, ⟨29, 28, .ro, 0, 0⟩, ⟨27, 26, .ro, 0, 0⟩, ⟨25, 24, .ro, 0, 0⟩, ⟨23, 23, .ro, 0, 0⟩, ⟨22, 22, .ro, 0, 0⟩, ⟨15, 0, .rc, 0, 0⟩]⟩,
  ⟨"CRP_SLEEP", 0x110004, [], 0x0, 0x0, 0x0,
   [⟨31, 29, .ro, 0, 0⟩, ⟨15, 8, .rc, 0, 0⟩, ⟨7, 0, .rc, 0, 0⟩]⟩,
  ⟨"CRP_SLEEP_TS", 0x110008, [], 0x0, 0x0, 0x0,
   [⟨31, 0, .ro, 0, 0⟩]⟩,
  ⟨"CRP_THERM", 0x110010, [], 0x5000400, 0x5000400, 0x0,
   [⟨31, 24, .rw, 1, 20⟩, ⟨15, 0, .rw, 64, 65535⟩]⟩,
  ⟨"CRP_TEMP", 0x110020, [(4, 8)], 0x0, 0x0, 0x0,
   [⟨15, 0, .ro, 0, 0⟩]⟩,
  ⟨"CRP_TEMP_MAX", 0x110040, [], 0x0, 0x0, 0x0,
   [⟨31, 16, .rc, 0, 0⟩, ⟨2, 0, .ro, 0, 0⟩]⟩,
  ⟨"CRP_CLK", 0x110050, [], 0xF, 0xF, 0x0,
   [⟨31, 31, .ro, 0, 0⟩, ⟨30, 30, .ro, 0, 0⟩, ⟨29, 29, .ro, 0, 0⟩, ⟨28, 28, .ro, 0, 0⟩, ⟨27, 27, .ro, 0, 0⟩, ⟨3, 0, .ro, 0, 0⟩]⟩,
  ⟨"CRP_THROTTLE_CNT", 0x110054, [], 0x0, 0x0, 0x0,
   [⟨31, 16, .rc, 0, 0⟩, ⟨15, 8, .rc, 0, 0⟩, ⟨7, 0, .rc, 0, 0⟩]⟩]

/-- The registers of the KS group. -/
def regs_ks : List RegDef := [
  ⟨"KS_WAKE_EN_LO", 0x120000, [], 0xFFFFFFFF, 0xFFFFFFFF, 0x0,
   [⟨31, 0, .rw, 0, 0⟩]⟩,
  ⟨"KS_WAKE_EN_HI", 0x120004, [], 0xFFFF, 0xFFFF, 0x0,
   [⟨15, 0, .rw, 0, 0⟩]⟩,
  ⟨"KS_LAST_WAKE", 0x120010, [], 0x0, 0x0, 0x0,
   [⟨31, 31, .rw1c, 0, 0⟩, ⟨30, 30, .ro, 0, 0⟩, ⟨29, 28, .ro, 0, 0⟩, ⟨24, 16, .ro, 0, 0⟩, ⟨5, 0, .ro, 0, 0⟩]⟩,
  ⟨"KS_LAST_WAKE_TS", 0x120014, [], 0x0, 0x0, 0x0,
   [⟨31, 0, .ro, 0, 0⟩]⟩,
  ⟨"KS_WAKE_LATCH_LO", 0x120008, [], 0x0, 0x0, 0x0,
   [⟨31, 0, .ro, 0, 0⟩]⟩,
  ⟨"KS_WAKE_LATCH_HI", 0x12000C, [], 0x0, 0x0, 0x0,
   [⟨15, 0, .ro, 0, 0⟩]⟩,
  ⟨"KS_TIME", 0x120018, [], 0x0, 0x0, 0x0,
   [⟨31, 0, .ro, 0, 0⟩]⟩,
  ⟨"KS_ALARM", 0x12001C, [], 0x0, 0x0, 0x0,
   [⟨31, 0, .rw, 0, 0⟩]⟩,
  ⟨"KS_GPIO_EDGE", 0x120020, [], 0x0, 0x0, 0x0,
   [⟨1, 0, .rw, 0, 0⟩, ⟨3, 2, .rw, 0, 0⟩, ⟨5, 4, .rw, 0, 0⟩, ⟨7, 6, .rw, 0, 0⟩, ⟨9, 8, .rw, 0, 0⟩, ⟨11, 10, .rw, 0, 0⟩, ⟨13, 12, .rw, 0, 0⟩, ⟨15, 14, .rw, 0, 0⟩, ⟨17, 16, .rw, 0, 0⟩, ⟨19, 18, .rw, 0, 0⟩, ⟨21, 20, .rw, 0, 0⟩, ⟨23, 22, .rw, 0, 0⟩, ⟨25, 24, .rw, 0, 0⟩, ⟨27, 26, .rw, 0, 0⟩, ⟨29, 28, .rw, 0, 0⟩, ⟨31, 30, .rw, 0, 0⟩]⟩,
  ⟨"KS_GPIO_STATUS", 0x120024, [], 0x0, 0x0, 0x0,
   [⟨15, 0, .rw1c, 0, 0⟩]⟩,
  ⟨"KS_CTL", 0x120028, [], 0x0, 0x0, 0x0,
   [⟨31, 31, .rw, 0, 0⟩]⟩]

/-- The registers of the HL group. -/
def regs_hl : List RegDef := [
  ⟨"HL_LINK_STATUS", 0x140000, [], 0x0, 0x0, 0x0,
   [⟨31, 31, .ro, 0, 0⟩, ⟨30, 30, .ro, 0, 0⟩, ⟨29, 29, .ro, 0, 0⟩, ⟨28, 28, .ro, 0, 0⟩, ⟨23, 16, .ro, 0, 0⟩, ⟨15, 13, .ro, 0, 0⟩, ⟨12, 8, .ro, 0, 0⟩, ⟨7, 3, .ro, 0, 0⟩, ⟨2, 0, .ro, 0, 0⟩]⟩,
  ⟨"HL_LINK_CTL", 0x140004, [], 0x86, 0x86, 0x0,
   [⟨31, 31, .wo, 0, 0⟩, ⟨7, 3, .rw, 0, 0⟩, ⟨2, 0, .rw, 1, 6⟩]⟩,
  ⟨"HL_LPM_CTL", 0x140010, [], 0x43190040, 0x43190040, 0x0,
   [⟨31, 31, .rw, 0, 0⟩, ⟨30, 30, .rw, 0, 0⟩, ⟨26, 24, .rw, 0, 3⟩, ⟨23, 16, .rw, 1, 100⟩, ⟨15, 0, .rw, 1, 65535⟩]⟩,
  ⟨"HL_LTR_VAL", 0x140014, [], 0x80A, 0x80A, 0x0,
   [⟨12, 10, .rw, 0, 5⟩, ⟨9, 0, .rw, 0, 0⟩]⟩,
  ⟨"HL_TAG_CTL", 0x140020, [], 0x1000040, 0x1000040, 0x0,
   [⟨26, 16, .rw, 1, 1024⟩, ⟨6, 0, .rw, 0, 0⟩]⟩,
  ⟨"HL_TAG_STATUS", 0x140024, [], 0x0, 0x0, 0x0,
   [⟨26, 16, .rc, 0, 0⟩, ⟨10, 0, .ro, 0, 0⟩]⟩,
  ⟨"HL_ATS_CTL", 0x140030, [], 0x200, 0x200, 0x0,
   [⟨31, 31, .wo, 0, 0⟩, ⟨12, 0, .rw, 1, 4096⟩]⟩,
  ⟨"HL_ATS_STATUS", 0x140034, [], 0x0, 0x0, 0x0,
   [⟨28, 16, .ro, 0, 0⟩, ⟨5, 0, .ro, 0, 0⟩]⟩,
  ⟨"HL_PTM_CTL", 0x140040, [], 0x800007D0, 0x800007D0, 0x0,
   [⟨31, 31, .rw, 0, 0⟩, ⟨15, 0, .rw, 200, 65535⟩]⟩,
  ⟨"HL_PTM_STATUS", 0x140044, [], 0x0, 0x0, 0x0,
   [⟨31, 31, .ro, 0, 0⟩, ⟨15, 0, .rc, 0, 0⟩]⟩,
  ⟨"HL_SDOWN", 0x140050, [], 0x0, 0x0, 0x0,
   [⟨31, 31, .rw1c, 0, 0⟩, ⟨30, 30, .ro, 0, 0⟩, ⟨10, 0, .ro, 0, 0⟩]⟩,
  ⟨"HL_SDOWN_TS_LO", 0x140054, [], 0x0, 0x0, 0x0,
   [⟨31, 0, .ro, 0, 0⟩]⟩,
  ⟨"HL_SDOWN_TS_HI", 0x140058, [], 0x0, 0x0, 0x0,
   [⟨15, 0, .ro, 0, 0⟩]⟩,
  ⟨"HL_ERR_CNT", 0x140060, [], 0x0, 0x0, 0x0,
   [⟨31, 24, .rc, 0, 0⟩, ⟨23, 16, .rc, 0, 0⟩, ⟨15, 8, .rc, 0, 0⟩, ⟨7, 0, .rc, 0, 0⟩]⟩,
  ⟨"HL_SRIOV_STATUS", 0x140070, [], 0x0, 0x0, 0x0,
   [⟨31, 31, .rw1c, 0, 0⟩, ⟨10, 0, .ro, 0, 0⟩]⟩]

/-- The registers of the PAGE group. -/
def regs_page : List RegDef := [
  ⟨"CTX_ID", 0x100000000, [(65536, 1024)], 0x80000000, 0x0, 0x1,
   [⟨31, 31, .ro, 0, 0⟩, ⟨30, 30, .ro, 0, 0⟩, ⟨29, 29, .ro, 0, 0⟩, ⟨12, 10, .ro, 0, 0⟩, ⟨9, 0, .ro, 0, 0⟩]⟩,
  ⟨"CTX_STATE", 0x100000004, [(65536, 1024)], 0x2, 0x0, 0x0,
   [⟨31, 31, .rw1c, 0, 0⟩, ⟨30, 30, .rw1c, 0, 0⟩, ⟨29, 29, .ro, 0, 0⟩, ⟨28, 28, .ro, 0, 0⟩, ⟨27, 24, .ro, 0, 0⟩, ⟨23, 16, .rc, 0, 0⟩, ⟨15, 8, .ro, 0, 0⟩, ⟨2, 0, .ro, 0, 0⟩]⟩,
  ⟨"CTX_CAPS", 0x100000008, [(65536, 1024)], 0x30, 0x30, 0x0,
   [⟨30, 24, .ro, 0, 0⟩, ⟨20, 16, .ro, 0, 0⟩, ⟨9, 9, .ro, 0, 0⟩, ⟨8, 8, .ro, 0, 0⟩, ⟨7, 4, .ro, 0, 0⟩]⟩,
  ⟨"CTX_WDOG_KICK", 0x100000010, [(65536, 1024)], 0x0, 0x0, 0x0,
   [⟨31, 0, .wo, 0, 0⟩]⟩,
  ⟨"CTX_WDOG_STATUS", 0x100000014, [(65536, 1024)], 0x0, 0x0, 0x0,
   [⟨31, 30, .ro, 0, 0⟩, ⟨29, 29, .ro, 0, 0⟩, ⟨28, 28, .ro, 0, 0⟩, ⟨23, 0, .ro, 0, 0⟩]⟩,
  ⟨"CTX_OCC", 0x100000018, [(65536, 1024)], 0x0, 0x0, 0x0,
   [⟨22, 0, .ro, 0, 0⟩]⟩,
  ⟨"CTX_SHARE0", 0x100000040, [(65536, 1024)], 0x0, 0x0, 0x0,
   [⟨31, 16, .ro, 0, 0⟩, ⟨15, 0, .ro, 0, 0⟩]⟩,
  ⟨"CTX_SHARE1", 0x100000044, [(65536, 1024)], 0x0, 0x0, 0x0,
   [⟨31, 16, .ro, 0, 0⟩, ⟨15, 0, .ro, 0, 0⟩]⟩,
  ⟨"CTX_SHARE2", 0x100000048, [(65536, 1024)], 0x0, 0x0, 0x0,
   [⟨31, 16, .ro, 0, 0⟩, ⟨15, 0, .ro, 0, 0⟩]⟩,
  ⟨"CTX_SHARE3", 0x10000004C, [(65536, 1024)], 0x0, 0x0, 0x0,
   [⟨31, 16, .ro, 0, 0⟩, ⟨15, 0, .ro, 0, 0⟩]⟩,
  ⟨"CTX_SHARE4", 0x100000050, [(65536, 1024)], 0x0, 0x0, 0x0,
   [⟨30, 24, .ro, 0, 0⟩, ⟨22, 0, .ro, 0, 0⟩]⟩,
  ⟨"CTX_SHARE5", 0x100000054, [(65536, 1024)], 0x0, 0x0, 0x0,
   [⟨30, 24, .ro, 0, 0⟩, ⟨14, 0, .ro, 0, 0⟩]⟩,
  ⟨"CTX_SHARE6", 0x100000058, [(65536, 1024)], 0x0, 0x0, 0x0,
   [⟨31, 16, .ro, 0, 0⟩, ⟨8, 0, .ro, 0, 0⟩]⟩,
  ⟨"CTX_SHARE7", 0x10000005C, [(65536, 1024)], 0x0, 0x0, 0x0,
   [⟨31, 0, .ro, 0, 0⟩]⟩,
  ⟨"CTX_PERSIST", 0x100000100, [(65536, 1024)], 0x0, 0x0, 0x0,
   [⟨31, 31, .ro, 0, 0⟩, ⟨30, 30, .ro, 0, 0⟩, ⟨29, 29, .ro, 0, 0⟩, ⟨23, 0, .ro, 0, 0⟩]⟩,
  ⟨"CTX_WFENCE", 0x100000104, [(65536, 1024)], 0x0, 0x0, 0x0,
   [⟨31, 31, .ro, 0, 0⟩, ⟨15, 0, .rc, 0, 0⟩]⟩,
  ⟨"CTX_VIOL_CFG", 0x100000110, [(65536, 1024)], 0x0, 0x0, 0x0,
   [⟨31, 31, .rw, 0, 0⟩, ⟨21, 16, .rw, 0, 0⟩]⟩,
  ⟨"CTX_VIOL_STATUS", 0x100000114, [(65536, 1024)], 0x0, 0x0, 0x0,
   [⟨31, 16, .rc, 0, 0⟩, ⟨15, 8, .rc, 0, 0⟩, ⟨2, 0, .ro, 0, 0⟩]⟩,
  ⟨"CTX_VIOL0", 0x100000120, [(65536, 1024), (16, 8)], 0x0, 0x0, 0x0,
   [⟨31, 31, .rw1c, 0, 0⟩, ⟨30, 30, .ro, 0, 0⟩, ⟨29, 27, .ro, 0, 0⟩, ⟨26, 24, .ro, 0, 0⟩, ⟨23, 18, .ro, 0, 0⟩, ⟨13, 8, .ro, 0, 0⟩, ⟨3, 0, .ro, 0, 0⟩]⟩,
  ⟨"CTX_VIOL1", 0x100000124, [(65536, 1024), (16, 8)], 0x0, 0x0, 0x0,
   [⟨31, 0, .ro, 0, 0⟩]⟩,
  ⟨"CTX_VIOL2", 0x100000128, [(65536, 1024), (16, 8)], 0x0, 0x0, 0x0,
   [⟨31, 16, .ro, 0, 0⟩, ⟨15, 0, .ro, 0, 0⟩]⟩,
  ⟨"CTX_VIOL3", 0x10000012C, [(65536, 1024), (16, 8)], 0x0, 0x0, 0x0,
   [⟨31, 0, .ro, 0, 0⟩]⟩,
  ⟨"CTX_PWE_BASE_LO", 0x100000200, [(65536, 1024)], 0x0, 0x0, 0x0,
   [⟨31, 12, .rw, 0, 0⟩]⟩,
  ⟨"CTX_PWE_BASE_HI", 0x100000204, [(65536, 1024)], 0x0, 0x0, 0x0,
   [⟨31, 0, .rw, 0, 0⟩]⟩,
  ⟨"CTX_PWE_CFG", 0x100000208, [(65536, 1024)], 0x4, 0x4, 0x0,
   [⟨31, 31, .rw, 0, 0⟩, ⟨21, 16, .rw, 0, 0⟩, ⟨3, 0, .rw, 4, 12⟩]⟩,
  ⟨"CTX_PWE_HEAD", 0x10000020C, [(65536, 1024)], 0x0, 0x0, 0x0,
   [⟨11, 0, .rw, 0, 0⟩]⟩,
  ⟨"CTX_PWE_TAIL", 0x100000210, [(65536, 1024)], 0x80000000, 0x80000000, 0x0,
   [⟨31, 31, .ro, 0, 0⟩, ⟨11, 0, .ro, 0, 0⟩]⟩,
  ⟨"CTX_PWE_STATUS", 0x100000214, [(65536, 1024)], 0x0, 0x0, 0x0,
   [⟨31, 16, .rc, 0, 0⟩, ⟨15, 0, .rc, 0, 0⟩]⟩,
  ⟨"CTX_PWE_WSEQ_LO", 0x100000218, [(65536, 1024)], 0x0, 0x0, 0x0,
   [⟨31, 0, .ro, 0, 0⟩]⟩,
  ⟨"CTX_PWE_WSEQ_HI", 0x10000021C, [(65536, 1024)], 0x0, 0x0, 0x0,
   [⟨31, 0, .ro, 0, 0⟩]⟩,
  ⟨"QP_SQ_BASE_LO", 0x100001000, [(65536, 1024), (64, 64)], 0x0, 0x0, 0x0,
   [⟨31, 12, .rw, 0, 0⟩]⟩,
  ⟨"QP_SQ_BASE_HI", 0x100001004, [(65536, 1024), (64, 64)], 0x0, 0x0, 0x0,
   [⟨31, 0, .rw, 0, 0⟩]⟩,
  ⟨"QP_CQ_BASE_LO", 0x100001008, [(65536, 1024), (64, 64)], 0x0, 0x0, 0x0,
   [⟨31, 12, .rw, 0, 0⟩]⟩,
  ⟨"QP_CQ_BASE_HI", 0x10000100C, [(65536, 1024), (64, 64)], 0x0, 0x0, 0x0,
   [⟨31, 0, .rw, 0, 0⟩]⟩,
  ⟨"QP_CFG", 0x100001010, [(65536, 1024), (64, 64)], 0x404, 0x404, 0x0,
   [⟨16, 16, .rw, 0, 0⟩, ⟨12, 8, .rw, 0, 0⟩, ⟨4, 0, .rw, 0, 0⟩]⟩,
  ⟨"QP_CTL", 0x100001014, [(65536, 1024), (64, 64)], 0x0, 0x0, 0x0,
   [⟨0, 0, .rw, 0, 0⟩]⟩,
  ⟨"QP_STATUS", 0x100001018, [(65536, 1024), (64, 64)], 0x42000000, 0x42000000, 0x0,
   [⟨31, 31, .ro, 0, 0⟩, ⟨30, 30, .ro, 0, 0⟩, ⟨29, 29, .rw1c, 0, 0⟩, ⟨28, 28, .ro, 0, 0⟩, ⟨27, 27, .rw1c, 0, 0⟩, ⟨26, 26, .rw1c, 0, 0⟩, ⟨25, 25, .ro, 0, 0⟩, ⟨23, 20, .ro, 0, 0⟩, ⟨15, 0, .ro, 0, 0⟩]⟩,
  ⟨"QP_PTR", 0x10000101C, [(65536, 1024), (64, 64)], 0x0, 0x0, 0x0,
   [⟨31, 16, .ro, 0, 0⟩, ⟨15, 0, .ro, 0, 0⟩]⟩,
  ⟨"QP_ABORT_TAG", 0x100001020, [(65536, 1024), (64, 64)], 0x0, 0x0, 0x0,
   [⟨31, 0, .rw, 0, 0⟩]⟩,
  ⟨"QP_ABORT", 0x100001024, [(65536, 1024), (64, 64)], 0x0, 0x0, 0x0,
   [⟨31, 31, .wo, 0, 0⟩, ⟨2, 0, .ro, 0, 0⟩]⟩,
  ⟨"QP_CNT", 0x100001028, [(65536, 1024), (64, 64)], 0x0, 0x0, 0x0,
   [⟨31, 16, .rc, 0, 0⟩, ⟨15, 8, .rc, 0, 0⟩, ⟨7, 0, .rc, 0, 0⟩]⟩,
  ⟨"CQ_EVT_CFG", 0x100003000, [(65536, 1024), (16, 64)], 0x10000, 0x10000, 0x0,
   [⟨31, 31, .rw, 0, 0⟩, ⟨29, 24, .rw, 0, 0⟩, ⟨23, 16, .rw, 1, 255⟩, ⟨15, 0, .rw, 0, 0⟩]⟩,
  ⟨"CQ_EVT_STATUS", 0x100003004, [(65536, 1024), (16, 64)], 0x0, 0x0, 0x0,
   [⟨31, 31, .ro, 0, 0⟩, ⟨30, 30, .ro, 0, 0⟩, ⟨23, 16, .ro, 0, 0⟩, ⟨15, 0, .ro, 0, 0⟩]⟩,
  ⟨"CQ_EVT_CNT", 0x100003008, [(65536, 1024), (16, 64)], 0x0, 0x0, 0x0,
   [⟨31, 16, .rc, 0, 0⟩, ⟨15, 0, .rc, 0, 0⟩]⟩,
  ⟨"CTX_EVT_CFG", 0x100003400, [(65536, 1024)], 0x0, 0x0, 0x0,
   [⟨31, 31, .rw, 0, 0⟩, ⟨21, 16, .rw, 0, 0⟩]⟩,
  ⟨"CTX_EVT_STATUS", 0x100003404, [(65536, 1024)], 0x0, 0x0, 0x0,
   [⟨7, 0, .rw1c, 0, 0⟩]⟩,
  ⟨"CTX_EVT_EN", 0x100003408, [(65536, 1024)], 0xFF, 0xFF, 0x0,
   [⟨7, 0, .rw, 0, 0⟩]⟩,
  ⟨"MBXS_CMD", 0x100004000, [(65536, 1024)], 0x0, 0x0, 0x0,
   [⟨31, 31, .rw, 0, 0⟩, ⟨26, 24, .rw, 0, 0⟩, ⟨23, 16, .rw, 0, 0⟩, ⟨15, 0, .rw, 0, 0⟩]⟩,
  ⟨"MBXS_ARGLEN", 0x100004004, [(65536, 1024)], 0x0, 0x0, 0x0,
   [⟨11, 0, .rw, 0, 0⟩]⟩,
  ⟨"MBXS_TOKEN", 0x100004008, [(65536, 1024)], 0x0, 0x0, 0x0,
   [⟨31, 0, .rw, 0, 0⟩]⟩,
  ⟨"MBXS_STATUS", 0x10000400C, [(65536, 1024)], 0x0, 0x0, 0x0,
   [⟨23, 16, .ro, 0, 0⟩, ⟨7, 7, .ro, 0, 0⟩, ⟨6, 6, .rw1c, 0, 0⟩, ⟨5, 5, .ro, 0, 0⟩, ⟨2, 0, .ro, 0, 0⟩]⟩,
  ⟨"MBXS_RESLEN", 0x100004010, [(65536, 1024)], 0x0, 0x0, 0x0,
   [⟨11, 0, .ro, 0, 0⟩]⟩,
  ⟨"MBXS_STAMP", 0x100004014, [(65536, 1024)], 0x0, 0x0, 0x0,
   [⟨31, 0, .ro, 0, 0⟩]⟩,
  ⟨"MBXS_DONE_TS", 0x100004018, [(65536, 1024)], 0x0, 0x0, 0x0,
   [⟨31, 0, .ro, 0, 0⟩]⟩,
  ⟨"MBXS_DOORBELL", 0x10000401C, [(65536, 1024)], 0x0, 0x0, 0x0,
   [⟨0, 0, .wo, 0, 0⟩]⟩]

/-- The registers of the MBX group. -/
def regs_mbx : List RegDef := [
  ⟨"MBX_CMD", 0x780000, [(4096, 6)], 0x0, 0x0, 0x0,
   [⟨31, 31, .rw, 0, 0⟩, ⟨26, 24, .rw, 0, 0⟩, ⟨23, 16, .rw, 0, 0⟩, ⟨15, 0, .rw, 0, 0⟩]⟩,
  ⟨"MBX_ARGLEN", 0x780004, [(4096, 6)], 0x0, 0x0, 0x0,
   [⟨11, 0, .rw, 0, 0⟩]⟩,
  ⟨"MBX_TOKEN", 0x780008, [(4096, 6)], 0x0, 0x0, 0x0,
   [⟨31, 0, .rw, 0, 0⟩]⟩,
  ⟨"MBX_STATUS", 0x78000C, [(4096, 6)], 0x0, 0x0, 0x0,
   [⟨23, 16, .ro, 0, 0⟩, ⟨7, 7, .ro, 0, 0⟩, ⟨6, 6, .rw1c, 0, 0⟩, ⟨5, 5, .ro, 0, 0⟩, ⟨2, 0, .ro, 0, 0⟩]⟩,
  ⟨"MBX_RESLEN", 0x780010, [(4096, 6)], 0x0, 0x0, 0x0,
   [⟨11, 0, .ro, 0, 0⟩]⟩,
  ⟨"MBX_STAMP", 0x780014, [(4096, 6)], 0x0, 0x0, 0x0,
   [⟨31, 0, .ro, 0, 0⟩]⟩,
  ⟨"MBX_DONE_TS", 0x780018, [(4096, 6)], 0x0, 0x0, 0x0,
   [⟨31, 0, .ro, 0, 0⟩]⟩,
  ⟨"MBX_DOORBELL", 0x78001C, [(4096, 6)], 0x0, 0x0, 0x0,
   [⟨0, 0, .wo, 0, 0⟩]⟩,
  ⟨"MBX_WDOG_CTL", 0x788000, [], 0x64, 0x64, 0x0,
   [⟨15, 0, .rw, 10, 10000⟩]⟩,
  ⟨"MBX_CNT", 0x788004, [], 0x0, 0x0, 0x0,
   [⟨31, 24, .rc, 0, 0⟩, ⟨23, 16, .rc, 0, 0⟩, ⟨15, 8, .rc, 0, 0⟩, ⟨7, 0, .rc, 0, 0⟩]⟩,
  ⟨"MBX_CONFLICT_LOG", 0x788008, [], 0x0, 0x0, 0x0,
   [⟨31, 31, .rw1c, 0, 0⟩, ⟨30, 28, .ro, 0, 0⟩, ⟨27, 18, .ro, 0, 0⟩, ⟨15, 0, .ro, 0, 0⟩]⟩,
  ⟨"MBX_CONFLICT_TS", 0x78800C, [], 0x0, 0x0, 0x0,
   [⟨31, 0, .ro, 0, 0⟩]⟩,
  ⟨"MBX_BC_ATTN", 0x788010, [], 0x0, 0x0, 0x0,
   [⟨7, 7, .ro, 0, 0⟩, ⟨6, 6, .rw1c, 0, 0⟩, ⟨5, 5, .rw1c, 0, 0⟩, ⟨4, 4, .rw1c, 0, 0⟩, ⟨3, 3, .rw1c, 0, 0⟩, ⟨2, 2, .rw1c, 0, 0⟩, ⟨1, 1, .rw1c, 0, 0⟩, ⟨0, 0, .rw1c, 0, 0⟩]⟩,
  ⟨"MBX_BC_ATTN_EN", 0x788014, [], 0xFF, 0xFF, 0x0,
   [⟨7, 0, .rw, 0, 0⟩]⟩,
  ⟨"MBX_SMB_CFG", 0x788018, [], 0x0, 0x0, 0x0,
   [⟨31, 31, .rw, 0, 0⟩]⟩,
  ⟨"MBX_SMB_CNT", 0x78801C, [], 0x0, 0x0, 0x0,
   [⟨31, 16, .rc, 0, 0⟩, ⟨15, 8, .rc, 0, 0⟩, ⟨7, 0, .rc, 0, 0⟩]⟩]

/-- The registers of the CTX group. -/
def regs_ctx : List RegDef := [
  ⟨"CTX_SEL", 0x180000, [], 0x0, 0x0, 0x0,
   [⟨9, 0, .rw, 0, 0⟩]⟩,
  ⟨"CTX_DRAIN_TMO", 0x180040, [], 0x200, 0x200, 0x0,
   [⟨16, 0, .rw, 16, 128000⟩]⟩,
  ⟨"CTX_POOL_QP", 0x180044, [], 0x400000, 0x400000, 0x0,
   [⟨29, 16, .ro, 0, 0⟩, ⟨13, 0, .ro, 0, 0⟩]⟩,
  ⟨"CTX_POOL_VEC", 0x180048, [], 0x40, 0x40, 0x0,
   [⟨14, 0, .ro, 0, 0⟩]⟩,
  ⟨"CTX_POOL_C0", 0x18004C, [], 0x0, 0x0, 0x0,
   [⟨31, 16, .ro, 0, 0⟩, ⟨15, 0, .ro, 0, 0⟩]⟩,
  ⟨"CTX_POOL_C1", 0x180050, [], 0x0, 0x0, 0x0,
   [⟨31, 16, .ro, 0, 0⟩, ⟨15, 0, .ro, 0, 0⟩]⟩,
  ⟨"CTX_WDOG_PEND", 0x180100, [(4, 32)], 0x0, 0x0, 0x0,
   [⟨31, 0, .rw1c, 0, 0⟩]⟩,
  ⟨"CTX_RESET_PEND", 0x180180, [(4, 32)], 0x0, 0x0, 0x0,
   [⟨31, 0, .rw1c, 0, 0⟩]⟩]

/-- The registers of the PERC group. -/
def regs_perc : List RegDef := [
  ⟨"CTX_SEL_WDOG", 0x2000000000, [(64, 1024)], 0xF4240, 0xF4240, 0x0,
   [⟨31, 30, .rw, 0, 0⟩, ⟨29, 29, .rw, 0, 0⟩, ⟨23, 0, .rw, 1000, 16777215⟩]⟩,
  ⟨"PEL_TANDEM", 0x2000000008, [(64, 1024)], 0x0, 0x0, 0x0,
   [⟨31, 30, .ro, 0, 0⟩, ⟨29, 29, .ro, 0, 0⟩, ⟨28, 26, .ro, 0, 0⟩, ⟨25, 16, .ro, 0, 0⟩]⟩,
  ⟨"PEL_GEN", 0x200000000C, [(64, 1024)], 0x0, 0x0, 0x0,
   [⟨31, 0, .ro, 0, 0⟩]⟩]

/-- The registers of the QM group. -/
def regs_qm : List RegDef := [
  ⟨"QM_SPOKE_FENCED", 0x200000, [], 0x0, 0x0, 0x0,
   [⟨31, 0, .ro, 0, 0⟩]⟩,
  ⟨"QM_SPOKE_LOG", 0x200004, [], 0x0, 0x0, 0x0,
   [⟨31, 31, .rw1c, 0, 0⟩, ⟨28, 24, .ro, 0, 0⟩, ⟨23, 16, .ro, 0, 0⟩, ⟨15, 0, .ro, 0, 0⟩]⟩,
  ⟨"QM_SPOKE_TS", 0x200008, [], 0x0, 0x0, 0x0,
   [⟨31, 0, .ro, 0, 0⟩]⟩,
  ⟨"QM_RETRY_CNT", 0x20000C, [], 0x0, 0x0, 0x0,
   [⟨31, 16, .rc, 0, 0⟩, ⟨15, 8, .rc, 0, 0⟩, ⟨7, 0, .rc, 0, 0⟩]⟩,
  ⟨"QM_DEALT", 0x200010, [], 0x0, 0x0, 0x0,
   [⟨31, 0, .rc, 0, 0⟩]⟩,
  ⟨"QM_MALFORMED", 0x200014, [], 0x0, 0x0, 0x0,
   [⟨31, 31, .rw1c, 0, 0⟩, ⟨25, 16, .ro, 0, 0⟩, ⟨15, 10, .ro, 0, 0⟩, ⟨5, 0, .ro, 0, 0⟩]⟩,
  ⟨"QM_CPL_STALL", 0x200018, [], 0x0, 0x0, 0x0,
   [⟨15, 0, .rc, 0, 0⟩]⟩,
  ⟨"QM_FETCH_CTL", 0x200020, [], 0x8, 0x8, 0x0,
   [⟨3, 0, .rw, 1, 8⟩]⟩]

/-- The registers of the CAD group. -/
def regs_cad : List RegDef := [
  ⟨"CAD_STROKE_LO", 0x280000, [], 0x0, 0x0, 0x0,
   [⟨31, 0, .ro, 0, 0⟩]⟩,
  ⟨"CAD_STROKE_HI", 0x280004, [], 0x0, 0x0, 0x0,
   [⟨15, 0, .ro, 0, 0⟩]⟩,
  ⟨"CAD_COMMIT", 0x280010, [], 0x0, 0x0, 0x0,
   [⟨31, 31, .wo, 0, 0⟩, ⟨29, 29, .ro, 0, 0⟩, ⟨28, 27, .ro, 0, 0⟩, ⟨26, 19, .ro, 0, 0⟩, ⟨11, 8, .ro, 0, 0⟩, ⟨2, 0, .ro, 0, 0⟩]⟩,
  ⟨"CAD_COMMIT_TS", 0x280014, [], 0x0, 0x0, 0x0,
   [⟨31, 0, .ro, 0, 0⟩]⟩,
  ⟨"CAD_STATUS", 0x280020, [], 0x0, 0x0, 0x0,
   [⟨31, 31, .ro, 0, 0⟩, ⟨30, 30, .ro, 0, 0⟩, ⟨29, 29, .ro, 0, 0⟩, ⟨28, 28, .ro, 0, 0⟩, ⟨1, 0, .ro, 0, 0⟩]⟩,
  ⟨"CAD_RSV_DN", 0x280024, [], 0x0, 0x0, 0x0,
   [⟨24, 16, .ro, 0, 0⟩, ⟨8, 0, .ro, 0, 0⟩]⟩,
  ⟨"CAD_RSV_UP", 0x280028, [], 0x0, 0x0, 0x0,
   [⟨24, 16, .ro, 0, 0⟩, ⟨8, 0, .ro, 0, 0⟩]⟩,
  ⟨"CAD_RSV_TGT_LB", 0x28002C, [], 0x0, 0x0, 0x0,
   [⟨31, 24, .ro, 0, 0⟩, ⟨23, 16, .ro, 0, 0⟩, ⟨15, 8, .ro, 0, 0⟩, ⟨7, 0, .ro, 0, 0⟩]⟩,
  ⟨"CAD_RSV_TGT_UL", 0x280030, [], 0x0, 0x0, 0x0,
   [⟨31, 24, .ro, 0, 0⟩, ⟨23, 16, .ro, 0, 0⟩, ⟨15, 8, .ro, 0, 0⟩, ⟨7, 0, .ro, 0, 0⟩]⟩,
  ⟨"CAD_LEVEL_LOG", 0x280040, [], 0x0, 0x0, 0x0,
   [⟨31, 31, .rw1c, 0, 0⟩, ⟨30, 29, .ro, 0, 0⟩, ⟨28, 27, .ro, 0, 0⟩, ⟨26, 26, .ro, 0, 0⟩, ⟨25, 25, .ro, 0, 0⟩, ⟨24, 16, .ro, 0, 0⟩, ⟨8, 0, .ro, 0, 0⟩]⟩,
  ⟨"CAD_THROTTLE", 0x280044, [], 0x7D0, 0x7D0, 0x0,
   [⟨15, 0, .rw, 0, 0⟩]⟩,
  ⟨"CAD_AGE", 0x280048, [], 0x800, 0x800, 0x0,
   [⟨15, 0, .rw, 64, 65535⟩]⟩,
  ⟨"CAD_PTM_CTL", 0x280050, [], 0x40, 0x40, 0x0,
   [⟨31, 31, .rw, 0, 0⟩, ⟨7, 0, .rw, 16, 255⟩]⟩,
  ⟨"CAD_PTM_STATUS", 0x280054, [], 0x0, 0x0, 0x0,
   [⟨31, 31, .ro, 0, 0⟩, ⟨30, 30, .ro, 0, 0⟩, ⟨23, 16, .rc, 0, 0⟩, ⟨15, 0, .ro, 0, 0⟩]⟩,
  ⟨"CAD_HOSTT_LO", 0x280058, [], 0x0, 0x0, 0x0,
   [⟨31, 0, .ro, 0, 0⟩]⟩,
  ⟨"CAD_HOSTT_HI", 0x28005C, [], 0x0, 0x0, 0x0,
   [⟨31, 0, .ro, 0, 0⟩]⟩,
  ⟨"CAD_HOSTT_STROKE", 0x280060, [], 0x0, 0x0, 0x0,
   [⟨31, 0, .ro, 0, 0⟩]⟩,
  ⟨"CAD_SLIPS", 0x280068, [], 0x0, 0x0, 0x0,
   [⟨31, 16, .rc, 0, 0⟩, ⟨15, 0, .rc, 0, 0⟩]⟩,
  ⟨"CAD_PEL_ALIGN", 0x280070, [], 0x0, 0x0, 0x0,
   [⟨31, 31, .ro, 0, 0⟩, ⟨30, 30, .ro, 0, 0⟩, ⟨29, 27, .ro, 0, 0⟩, ⟨15, 8, .ro, 0, 0⟩, ⟨7, 0, .rc, 0, 0⟩]⟩,
  ⟨"CAD_C0_DEMOTED", 0x280078, [], 0x0, 0x0, 0x0,
   [⟨25, 16, .ro, 0, 0⟩, ⟨15, 0, .rc, 0, 0⟩]⟩]

/-- The registers of the LB group. -/
def regs_lb : List RegDef := [
  ⟨"LB_CTL", 0x300000, [(65536, 4)], 0x0, 0x0, 0x0,
   [⟨31, 31, .rw, 0, 0⟩, ⟨30, 30, .wo, 0, 0⟩, ⟨29, 29, .rw, 0, 0⟩]⟩,
  ⟨"LB_STATUS", 0x300004, [(65536, 4)], 0x0, 0x0, 0x0,
   [⟨31, 29, .ro, 0, 0⟩, ⟨28, 28, .rw1c, 0, 0⟩, ⟨25, 16, .ro, 0, 0⟩, ⟨9, 0, .ro, 0, 0⟩]⟩,
  ⟨"LB_CRED", 0x300008, [(65536, 4)], 0x0, 0x0, 0x0,
   [⟨31, 24, .ro, 0, 0⟩, ⟨23, 16, .ro, 0, 0⟩, ⟨15, 8, .ro, 0, 0⟩, ⟨7, 0, .ro, 0, 0⟩]⟩,
  ⟨"LB_PHY", 0x30000C, [(65536, 4)], 0x1E21, 0x1E21, 0x0,
   [⟨13, 8, .rw, 0, 60⟩, ⟨5, 4, .rw, 0, 0⟩, ⟨1, 0, .rw, 0, 2⟩]⟩,
  ⟨"LB_TRAIN", 0x300010, [(65536, 4)], 0x7D000C8, 0x7D000C8, 0x0,
   [⟨31, 16, .rw, 200, 65535⟩, ⟨15, 0, .rw, 20, 65535⟩]⟩,
  ⟨"LB_TRAIN_STAT", 0x300014, [(65536, 4)], 0x0, 0x0, 0x0,
   [⟨31, 24, .rc, 0, 0⟩, ⟨23, 16, .rc, 0, 0⟩, ⟨7, 0, .ro, 0, 0⟩]⟩,
  ⟨"LB_RETRY", 0x300018, [(65536, 4)], 0x140, 0x140, 0x0,
   [⟨15, 0, .rw, 16, 65535⟩]⟩,
  ⟨"LB_PF_CTL", 0x30001C, [(65536, 4)], 0x40, 0x40, 0x0,
   [⟨15, 0, .rw, 1, 65535⟩]⟩,
  ⟨"LB_ERR_CNT", 0x300020, [(65536, 4)], 0x0, 0x0, 0x0,
   [⟨31, 24, .rc, 0, 0⟩, ⟨23, 16, .rc, 0, 0⟩, ⟨15, 8, .rc, 0, 0⟩, ⟨7, 0, .rc, 0, 0⟩]⟩,
  ⟨"LB_RESP_CNT", 0x300024, [(65536, 4)], 0x0, 0x0, 0x0,
   [⟨31, 24, .rc, 0, 0⟩, ⟨23, 16, .rc, 0, 0⟩, ⟨15, 8, .rc, 0, 0⟩, ⟨7, 0, .rc, 0, 0⟩]⟩,
  ⟨"LB_TMO_CNT", 0x300028, [(65536, 4)], 0x0, 0x0, 0x0,
   [⟨31, 16, .rc, 0, 0⟩, ⟨15, 8, .rc, 0, 0⟩, ⟨7, 0, .rc, 0, 0⟩]⟩,
  ⟨"LB_PROTO_LOG", 0x30002C, [(65536, 4)], 0x0, 0x0, 0x0,
   [⟨31, 31, .rw1c, 0, 0⟩, ⟨15, 8, .ro, 0, 0⟩, ⟨7, 0, .ro, 0, 0⟩]⟩,
  ⟨"LB_LINT_CFG", 0x300030, [(65536, 4)], 0x1111, 0x1111, 0x0,
   [⟨3, 3, .rw, 0, 0⟩, ⟨7, 7, .rw, 0, 0⟩, ⟨11, 11, .rw, 0, 0⟩, ⟨15, 15, .rw, 0, 0⟩, ⟨1, 0, .rw, 1, 3⟩, ⟨5, 4, .rw, 1, 3⟩, ⟨9, 8, .rw, 1, 3⟩, ⟨13, 12, .rw, 1, 3⟩]⟩,
  ⟨"LB_SRB_CNT", 0x300034, [(65536, 4)], 0x0, 0x0, 0x0,
   [⟨31, 16, .rc, 0, 0⟩, ⟨15, 0, .rc, 0, 0⟩]⟩,
  ⟨"LB_UP_CNT", 0x300038, [(65536, 4)], 0x0, 0x0, 0x0,
   [⟨31, 16, .rc, 0, 0⟩, ⟨15, 0, .rc, 0, 0⟩]⟩,
  ⟨"LB_DESKEW", 0x300100, [(65536, 4), (4, 37)], 0x0, 0x0, 0x0,
   [⟨7, 7, .ro, 0, 0⟩, ⟨6, 0, .ro, 0, 0⟩]⟩,
  ⟨"LB_SRB0", 0x300200, [(65536, 4), (16, 16)], 0x0, 0x0, 0x0,
   [⟨31, 31, .ro, 0, 0⟩, ⟨30, 27, .ro, 0, 0⟩, ⟨26, 17, .ro, 0, 0⟩, ⟨8, 0, .ro, 0, 0⟩]⟩,
  ⟨"LB_SRB1", 0x300204, [(65536, 4), (16, 16)], 0x0, 0x0, 0x0,
   [⟨31, 0, .ro, 0, 0⟩]⟩,
  ⟨"LB_SRB2", 0x300208, [(65536, 4), (16, 16)], 0x0, 0x0, 0x0,
   [⟨1, 0, .ro, 0, 0⟩]⟩,
  ⟨"LB_SRB3", 0x30020C, [(65536, 4), (16, 16)], 0x0, 0x0, 0x0,
   [⟨31, 0, .ro, 0, 0⟩]⟩,
  ⟨"LB_UPR_LADDR_LO", 0x300400, [(65536, 4), (32, 32)], 0x0, 0x0, 0x0,
   [⟨31, 12, .rw, 0, 0⟩]⟩,
  ⟨"LB_UPR_LADDR_HI", 0x300404, [(65536, 4), (32, 32)], 0x0, 0x0, 0x0,
   [⟨15, 0, .rw, 0, 0⟩]⟩,
  ⟨"LB_UPR_HADDR_LO", 0x300408, [(65536, 4), (32, 32)], 0x0, 0x0, 0x0,
   [⟨31, 12, .rw, 0, 0⟩]⟩,
  ⟨"LB_UPR_HADDR_HI", 0x30040C, [(65536, 4), (32, 32)], 0x0, 0x0, 0x0,
   [⟨31, 0, .rw, 0, 0⟩]⟩,
  ⟨"LB_UPR_CFG", 0x300410, [(65536, 4), (32, 32)], 0x40C0000, 0x40C0000, 0x0,
   [⟨31, 31, .rw, 0, 0⟩, ⟨30, 30, .rw, 0, 0⟩, ⟨29, 29, .rw, 0, 0⟩, ⟨26, 25, .rw, 1, 3⟩, ⟨21, 16, .rw, 12, 40⟩, ⟨9, 0, .rw, 0, 0⟩]⟩]

/-- The registers of the WIN group. -/
def regs_win : List RegDef := [
  ⟨"WIN_SEL", 0x308000, [], 0x0, 0x0, 0x0,
   [⟨13, 4, .rw, 0, 0⟩, ⟨3, 0, .rw, 0, 0⟩]⟩,
  ⟨"WIN_BAR", 0x400000004, [(512, 1024), (32, 16)], 0x0, 0x0, 0x0,
   [⟨20, 16, .rw, 0, 14⟩, ⟨13, 0, .rw, 0, 0⟩]⟩,
  ⟨"WIN_LADDR_LO", 0x400000008, [(512, 1024), (32, 16)], 0x0, 0x0, 0x0,
   [⟨31, 12, .rw, 0, 0⟩]⟩,
  ⟨"WIN_LADDR_HI", 0x40000000C, [(512, 1024), (32, 16)], 0x0, 0x0, 0x0,
   [⟨15, 0, .rw, 0, 0⟩]⟩,
  ⟨"WIN_CTL", 0x400000010, [(512, 1024), (32, 16)], 0x0, 0x0, 0x0,
   [⟨31, 31, .rw, 0, 0⟩, ⟨30, 30, .ro, 0, 0⟩, ⟨27, 24, .ro, 0, 0⟩, ⟨1, 0, .rw, 0, 0⟩]⟩,
  ⟨"WIN_ATTR", 0x400000014, [(512, 1024), (32, 16)], 0x780, 0x780, 0x0,
   [⟨31, 31, .rw1c, 0, 0⟩, ⟨11, 8, .rw, 0, 0⟩, ⟨7, 6, .rw, 0, 0⟩, ⟨5, 5, .rw, 0, 0⟩, ⟨3, 3, .rw, 0, 0⟩, ⟨2, 2, .rw, 0, 0⟩]⟩]

/-- The registers of the ACC group. -/
def regs_acc : List RegDef := [
  ⟨"ACC_STATUS", 0x380000, [], 0x0, 0x0, 0x0,
   [⟨31, 31, .ro, 0, 0⟩, ⟨15, 0, .ro, 0, 0⟩]⟩,
  ⟨"ACC_VLOG_STATUS", 0x380004, [], 0x0, 0x0, 0x0,
   [⟨31, 16, .rc, 0, 0⟩, ⟨15, 8, .rc, 0, 0⟩, ⟨4, 0, .ro, 0, 0⟩]⟩,
  ⟨"ACC_CNT", 0x380008, [], 0x0, 0x0, 0x0,
   [⟨31, 24, .rc, 0, 0⟩, ⟨23, 16, .rc, 0, 0⟩, ⟨15, 8, .rc, 0, 0⟩, ⟨7, 0, .rc, 0, 0⟩]⟩,
  ⟨"ACC_CNT2", 0x38000C, [], 0x0, 0x0, 0x0,
   [⟨31, 24, .rc, 0, 0⟩, ⟨23, 16, .rc, 0, 0⟩, ⟨15, 8, .rc, 0, 0⟩, ⟨7, 0, .rc, 0, 0⟩]⟩,
  ⟨"ACC_REGION_LO", 0x380100, [(8, 16)], 0x0, 0x0, 0x0,
   [⟨31, 0, .ro, 0, 0⟩]⟩,
  ⟨"ACC_REGION_HI", 0x380104, [(8, 16)], 0x0, 0x0, 0x0,
   [⟨31, 0, .ro, 0, 0⟩]⟩,
  ⟨"ACC_VLOG0", 0x380400, [(16, 32)], 0x0, 0x0, 0x0,
   [⟨31, 31, .rw1c, 0, 0⟩, ⟨30, 30, .ro, 0, 0⟩, ⟨29, 27, .ro, 0, 0⟩, ⟨26, 24, .ro, 0, 0⟩, ⟨23, 22, .ro, 0, 0⟩, ⟨21, 19, .ro, 0, 0⟩, ⟨15, 10, .ro, 0, 0⟩, ⟨9, 0, .ro, 0, 0⟩]⟩,
  ⟨"ACC_VLOG1", 0x380404, [(16, 32)], 0x0, 0x0, 0x0,
   [⟨31, 0, .ro, 0, 0⟩]⟩,
  ⟨"ACC_VLOG2", 0x380408, [(16, 32)], 0x0, 0x0, 0x0,
   [⟨31, 0, .ro, 0, 0⟩]⟩,
  ⟨"ACC_VLOG3", 0x38040C, [(16, 32)], 0x0, 0x0, 0x0,
   [⟨31, 0, .ro, 0, 0⟩]⟩,
  ⟨"ACC_GUARD_BASE_LO", 0x380800, [(32, 64)], 0x0, 0x0, 0x0,
   [⟨31, 12, .rw, 0, 0⟩]⟩,
  ⟨"ACC_GUARD_BASE_HI", 0x380804, [(32, 64)], 0x0, 0x0, 0x0,
   [⟨31, 0, .rw, 0, 0⟩]⟩,
  ⟨"ACC_GUARD_LIMIT_LO", 0x380808, [(32, 64)], 0x0, 0x0, 0x0,
   [⟨31, 12, .rw, 0, 0⟩]⟩,
  ⟨"ACC_GUARD_LIMIT_HI", 0x38080C, [(32, 64)], 0x0, 0x0, 0x0,
   [⟨31, 0, .rw, 0, 0⟩]⟩,
  ⟨"ACC_GUARD_CFG", 0x380810, [(32, 64)], 0x0, 0x0, 0x0,
   [⟨31, 31, .rw, 0, 0⟩, ⟨30, 30, .rw, 0, 0⟩, ⟨29, 29, .rw, 0, 0⟩, ⟨28, 28, .rw, 0, 0⟩, ⟨27, 27, .rw, 0, 0⟩, ⟨26, 24, .rw, 0, 4⟩, ⟨9, 0, .rw, 0, 0⟩]⟩,
  ⟨"ACC_PEER0", 0x381000, [(8, 64)], 0x0, 0x0, 0x0,
   [⟨31, 31, .rw, 0, 0⟩, ⟨30, 30, .rw, 0, 0⟩, ⟨29, 29, .rw, 0, 0⟩, ⟨28, 28, .rw, 0, 0⟩, ⟨27, 27, .rw, 0, 0⟩, ⟨12, 0, .rw, 0, 0⟩]⟩,
  ⟨"ACC_PEER1", 0x381004, [(8, 64)], 0x0, 0x0, 0x0,
   [⟨25, 16, .rw, 0, 0⟩, ⟨15, 0, .rw, 0, 0⟩]⟩]

/-- The registers of the MSG group. -/
def regs_msg : List RegDef := [
  ⟨"MSG_PORT_MAP", 0x400000, [(4, 4)], 0x800E0000, 0x800E0000, 0x4000,
   [⟨31, 31, .rw, 0, 0⟩, ⟨20, 16, .rw, 0, 16⟩, ⟨15, 0, .rw, 0, 0⟩]⟩,
  ⟨"MSG_BUF", 0x400010, [(4, 4)], 0x0, 0x0, 0x0,
   [⟨31, 16, .rc, 0, 0⟩, ⟨15, 0, .ro, 0, 0⟩]⟩,
  ⟨"MSG_DROP_CNT", 0x400020, [(4, 4)], 0x0, 0x0, 0x0,
   [⟨31, 24, .rc, 0, 0⟩, ⟨23, 16, .rc, 0, 0⟩, ⟨15, 8, .rc, 0, 0⟩, ⟨7, 0, .rc, 0, 0⟩]⟩,
  ⟨"MSG_DROP_CNT2", 0x400030, [(4, 4)], 0x0, 0x0, 0x0,
   [⟨31, 24, .rc, 0, 0⟩, ⟨23, 16, .rc, 0, 0⟩, ⟨15, 8, .rc, 0, 0⟩, ⟨7, 0, .rc, 0, 0⟩]⟩,
  ⟨"MSG_DELIV_CNT", 0x400040, [(4, 4)], 0x0, 0x0, 0x0,
   [⟨31, 0, .rc, 0, 0⟩]⟩,
  ⟨"MSG_DROP_LOG", 0x400050, [], 0x0, 0x0, 0x0,
   [⟨31, 31, .rw1c, 0, 0⟩, ⟨30, 27, .ro, 0, 0⟩, ⟨26, 25, .ro, 0, 0⟩, ⟨24, 23, .ro, 0, 0⟩, ⟨15, 0, .ro, 0, 0⟩]⟩,
  ⟨"MSG_DROP_TS", 0x400054, [], 0x0, 0x0, 0x0,
   [⟨31, 0, .ro, 0, 0⟩]⟩,
  ⟨"MSG_RXB_SEL", 0x400100, [], 0x0, 0x0, 0x0,
   [⟨15, 6, .rw, 0, 0⟩, ⟨5, 0, .rw, 0, 0⟩]⟩,
  ⟨"MSG_FRT_LO", 0x400400, [(128, 4), (8, 16)], 0x0, 0x0, 0x0,
   [⟨31, 0, .rw, 0, 0⟩]⟩,
  ⟨"MSG_FRT_HI", 0x400404, [(128, 4), (8, 16)], 0x0, 0x0, 0x0,
   [⟨31, 0, .rw, 0, 0⟩]⟩,
  ⟨"MSG_SBT_LO", 0x400600, [(128, 4), (8, 16)], 0x0, 0x0, 0x0,
   [⟨31, 0, .rw, 0, 0⟩]⟩,
  ⟨"MSG_SBT_HI", 0x400604, [(128, 4), (8, 16)], 0x0, 0x0, 0x0,
   [⟨31, 0, .rw, 0, 0⟩]⟩,
  ⟨"MSG_RT_LO", 0x1000000, [(8, 65536)], 0x0, 0x0, 0x0,
   [⟨31, 0, .rw, 0, 0⟩]⟩,
  ⟨"MSG_RT_HI", 0x1000004, [(8, 65536)], 0x0, 0x0, 0x0,
   [⟨31, 0, .rw, 0, 0⟩]⟩]

/-- The registers of the RXB group. -/
def regs_rxb : List RegDef := [
  ⟨"MSG_RXB_BASE_LO", 0x800000004, [(2048, 1024), (32, 64)], 0x0, 0x0, 0x0,
   [⟨31, 12, .rw, 0, 0⟩]⟩,
  ⟨"MSG_RXB_BASE_HI", 0x800000008, [(2048, 1024), (32, 64)], 0x0, 0x0, 0x0,
   [⟨31, 0, .rw, 0, 0⟩]⟩,
  ⟨"MSG_RXB_CFG", 0x80000000C, [(2048, 1024), (32, 64)], 0xB, 0xB, 0x0,
   [⟨31, 31, .rw, 0, 0⟩, ⟨3, 0, .rw, 8, 14⟩]⟩]

/-- The registers of the DS group. -/
def regs_ds : List RegDef := [
  ⟨"DS_CFG", 0x480000, [], 0x200, 0x200, 0x0,
   [⟨31, 30, .ro, 0, 0⟩, ⟨29, 29, .ro, 0, 0⟩, ⟨15, 0, .ro, 0, 0⟩]⟩,
  ⟨"DS_BUDGET", 0x480004, [], 0x400040, 0x400040, 0x0,
   [⟨31, 31, .rw1c, 0, 0⟩, ⟨30, 30, .ro, 0, 0⟩, ⟨24, 16, .ro, 0, 0⟩, ⟨8, 0, .rw, 0, 0⟩]⟩,
  ⟨"DS_HOLDUP", 0x480008, [], 0x212, 0x212, 0x0,
   [⟨31, 31, .rw1c, 0, 0⟩, ⟨15, 0, .rw, 0, 0⟩]⟩,
  ⟨"DS_PRESERVE_EST", 0x48000C, [], 0x21209AE, 0x21209AE, 0x0,
   [⟨31, 16, .ro, 0, 0⟩, ⟨15, 0, .ro, 0, 0⟩]⟩,
  ⟨"DS_FLUSH_RATE", 0x480010, [], 0xFA0, 0xFA0, 0x0,
   [⟨31, 24, .ro, 0, 0⟩, ⟨15, 0, .ro, 0, 0⟩]⟩,
  ⟨"DS_DIRTY", 0x480014, [], 0x0, 0x0, 0x0,
   [⟨31, 16, .rc, 0, 0⟩, ⟨15, 0, .ro, 0, 0⟩]⟩,
  ⟨"DS_CACHE", 0x480018, [], 0x0, 0x0, 0x0,
   [⟨31, 16, .ro, 0, 0⟩, ⟨15, 0, .ro, 0, 0⟩]⟩,
  ⟨"DS_STAGE", 0x48001C, [], 0x0, 0x0, 0x0,
   [⟨31, 16, .rc, 0, 0⟩, ⟨15, 0, .ro, 0, 0⟩]⟩,
  ⟨"DS_MAPC_HIT", 0x480020, [], 0x0, 0x0, 0x0,
   [⟨31, 0, .rc, 0, 0⟩]⟩,
  ⟨"DS_MAPC_MISS", 0x480024, [], 0x0, 0x0, 0x0,
   [⟨31, 0, .rc, 0, 0⟩]⟩,
  ⟨"DS_MIRROR_CTL", 0x480030, [], 0xFA0, 0xFA0, 0x0,
   [⟨16, 0, .rw, 200, 100000⟩]⟩,
  ⟨"DS_MIRROR_STATUS", 0x480034, [], 0x0, 0x0, 0x0,
   [⟨21, 11, .ro, 0, 0⟩, ⟨10, 0, .ro, 0, 0⟩]⟩,
  ⟨"DS_RECOVER", 0x480040, [], 0x0, 0x0, 0x0,
   [⟨31, 28, .ro, 0, 0⟩, ⟨15, 0, .ro, 0, 0⟩]⟩,
  ⟨"DS_RECOVER_UNITS", 0x480044, [], 0x0, 0x0, 0x0,
   [⟨31, 0, .ro, 0, 0⟩]⟩,
  ⟨"DS_PRESERVE_LOG", 0x480048, [], 0x0, 0x0, 0x0,
   [⟨31, 16, .ro, 0, 0⟩, ⟨15, 0, .ro, 0, 0⟩]⟩,
  ⟨"DS_PRESERVE_UNITS", 0x48004C, [], 0x0, 0x0, 0x0,
   [⟨31, 0, .ro, 0, 0⟩]⟩,
  ⟨"DS_APT_SEL", 0x480100, [], 0x0, 0x0, 0x0,
   [⟨10, 0, .rw, 0, 0⟩]⟩]

/-- The registers of the APT group. -/
def regs_apt : List RegDef := [
  ⟨"DS_APT_STATUS", 0x1000000004, [(32, 2048)], 0x0, 0x0, 0x0,
   [⟨31, 31, .ro, 0, 0⟩, ⟨30, 30, .ro, 0, 0⟩, ⟨29, 28, .ro, 0, 0⟩, ⟨27, 27, .rw1c, 0, 0⟩, ⟨26, 18, .ro, 0, 0⟩, ⟨9, 0, .ro, 0, 0⟩]⟩,
  ⟨"DS_APT_LOST", 0x1000000008, [(32, 2048)], 0x0, 0x0, 0x0,
   [⟨31, 0, .ro, 0, 0⟩]⟩,
  ⟨"DS_APT_OCC", 0x100000000C, [(32, 2048)], 0x0, 0x0, 0x0,
   [⟨31, 16, .ro, 0, 0⟩, ⟨15, 0, .ro, 0, 0⟩]⟩,
  ⟨"DS_APT_RESYNC", 0x1000000010, [(32, 2048)], 0x0, 0x0, 0x0,
   [⟨31, 0, .ro, 0, 0⟩]⟩]

/-- The registers of the DRC group. -/
def regs_drc : List RegDef := [
  ⟨"DRC_CFG", 0x580000, [], 0x0, 0x0, 0x0,
   [⟨11, 8, .ro, 0, 0⟩, ⟨5, 4, .ro, 0, 0⟩, ⟨3, 2, .ro, 0, 0⟩, ⟨1, 0, .ro, 0, 0⟩]⟩,
  ⟨"DRC_STATUS", 0x580004, [], 0xFF0000, 0xFF0000, 0x0,
   [⟨31, 31, .ro, 0, 0⟩, ⟨30, 30, .ro, 0, 0⟩, ⟨29, 29, .ro, 0, 0⟩, ⟨23, 20, .ro, 0, 0⟩, ⟨19, 16, .ro, 0, 0⟩]⟩,
  ⟨"DRC_ECC_CNT", 0x580010, [(4, 2)], 0x0, 0x0, 0x0,
   [⟨31, 16, .rc, 0, 0⟩, ⟨15, 8, .rc, 0, 0⟩, ⟨7, 0, .rc, 0, 0⟩]⟩,
  ⟨"DRC_ECC_LOG", 0x580020, [], 0x0, 0x0, 0x0,
   [⟨31, 31, .rw1c, 0, 0⟩, ⟨30, 30, .ro, 0, 0⟩, ⟨29, 29, .ro, 0, 0⟩, ⟨28, 28, .ro, 0, 0⟩, ⟨27, 24, .ro, 0, 0⟩]⟩,
  ⟨"DRC_ECC_ADDR", 0x580024, [], 0x0, 0x0, 0x0,
   [⟨29, 0, .ro, 0, 0⟩]⟩,
  ⟨"DRC_ECC_TS", 0x580028, [], 0x0, 0x0, 0x0,
   [⟨31, 0, .ro, 0, 0⟩]⟩,
  ⟨"DRC_SCRUB", 0x580030, [], 0x18, 0x18, 0x0,
   [⟨31, 16, .rc, 0, 0⟩, ⟨7, 0, .rw, 1, 168⟩]⟩,
  ⟨"DRC_FAIL_CTL", 0x580034, [], 0x10, 0x10, 0x0,
   [⟨15, 0, .rw, 4, 65535⟩]⟩]

/-- The registers of the MED group. -/
def regs_med : List RegDef := [
  ⟨"MED_STATUS", 0x500000, [], 0x0, 0x0, 0x0,
   [⟨31, 29, .ro, 0, 0⟩, ⟨28, 28, .ro, 0, 0⟩, ⟨23, 16, .ro, 0, 0⟩, ⟨15, 8, .ro, 0, 0⟩, ⟨7, 0, .ro, 0, 0⟩]⟩,
  ⟨"MED_LUN_LOST_LO", 0x500004, [], 0x0, 0x0, 0x0,
   [⟨31, 0, .ro, 0, 0⟩]⟩,
  ⟨"MED_LUN_LOST_HI", 0x500008, [], 0x0, 0x0, 0x0,
   [⟨31, 0, .ro, 0, 0⟩]⟩,
  ⟨"MED_LIFE", 0x500010, [], 0x64, 0x64, 0x0,
   [⟨31, 16, .ro, 0, 0⟩, ⟨15, 8, .ro, 0, 0⟩, ⟨7, 0, .ro, 0, 0⟩]⟩,
  ⟨"MED_PE", 0x500014, [], 0x0, 0x0, 0x0,
   [⟨31, 16, .ro, 0, 0⟩, ⟨15, 0, .ro, 0, 0⟩]⟩,
  ⟨"MED_WA", 0x500018, [], 0x640000, 0x640000, 0x0,
   [⟨31, 16, .ro, 0, 0⟩, ⟨15, 0, .ro, 0, 0⟩]⟩,
  ⟨"MED_WEAR_CTL", 0x500020, [], 0x5A0A0100, 0x5A0A0100, 0x0,
   [⟨31, 24, .rw, 1, 255⟩, ⟨23, 16, .rw, 0, 100⟩, ⟨15, 0, .rw, 16, 65535⟩]⟩,
  ⟨"MED_PATROL_CTL", 0x500024, [], 0x7184000, 0x7184000, 0x0,
   [⟨31, 24, .rw, 1, 90⟩, ⟨23, 16, .rw, 1, 168⟩, ⟨15, 12, .rw, 1, 10⟩]⟩,
  ⟨"MED_PATROL_STATUS", 0x500028, [], 0x0, 0x0, 0x0,
   [⟨31, 16, .rc, 0, 0⟩, ⟨15, 8, .ro, 0, 0⟩]⟩,
  ⟨"MED_REFRESH_CNT", 0x50002C, [], 0x0, 0x0, 0x0,
   [⟨31, 0, .rc, 0, 0⟩]⟩,
  ⟨"MED_REBUILD_CTL", 0x500030, [], 0x3E8, 0x3E8, 0x0,
   [⟨15, 0, .rw, 100, 4000⟩]⟩,
  ⟨"MED_REBUILD_STATUS", 0x500034, [], 0x0, 0x0, 0x0,
   [⟨31, 31, .ro, 0, 0⟩, ⟨21, 16, .ro, 0, 0⟩, ⟨9, 0, .ro, 0, 0⟩]⟩,
  ⟨"MED_RETRY_HIST", 0x500040, [], 0x0, 0x0, 0x0,
   [⟨31, 24, .rc, 0, 0⟩, ⟨23, 16, .rc, 0, 0⟩, ⟨15, 8, .rc, 0, 0⟩, ⟨7, 0, .rc, 0, 0⟩]⟩,
  ⟨"MED_NF_CFG", 0x500100, [(8, 8)], 0x0, 0x0, 0x0,
   [⟨31, 30, .ro, 0, 0⟩, ⟨29, 29, .ro, 0, 0⟩, ⟨17, 16, .ro, 0, 0⟩, ⟨7, 4, .ro, 0, 0⟩, ⟨3, 0, .ro, 0, 0⟩]⟩,
  ⟨"MED_NF_CNT", 0x500104, [(8, 8)], 0x0, 0x0, 0x0,
   [⟨31, 24, .rc, 0, 0⟩, ⟨23, 16, .rc, 0, 0⟩, ⟨15, 8, .rc, 0, 0⟩, ⟨7, 0, .rc, 0, 0⟩]⟩]

/-- The registers of the UL group. -/
def regs_ul : List RegDef := [
  ⟨"UL_CTL", 0x600000, [(65536, 4)], 0x0, 0x0, 0x0,
   [⟨31, 31, .rw, 0, 0⟩, ⟨30, 30, .wo, 0, 0⟩]⟩,
  ⟨"UL_STATUS", 0x600004, [(65536, 4)], 0x0, 0x0, 0x0,
   [⟨31, 29, .ro, 0, 0⟩, ⟨28, 27, .ro, 0, 0⟩, ⟨26, 26, .ro, 0, 0⟩, ⟨25, 25, .ro, 0, 0⟩, ⟨24, 24, .ro, 0, 0⟩, ⟨23, 23, .ro, 0, 0⟩, ⟨22, 22, .ro, 0, 0⟩, ⟨21, 21, .ro, 0, 0⟩]⟩,
  ⟨"UL_LANES", 0x600008, [(65536, 4)], 0x0, 0x0, 0x0,
   [⟨31, 24, .ro, 0, 0⟩, ⟨22, 14, .ro, 0, 0⟩, ⟨8, 0, .ro, 0, 0⟩]⟩,
  ⟨"UL_MAP", 0x60000C, [(65536, 4)], 0x0, 0x0, 0x0,
   [⟨3, 0, .ro, 0, 0⟩, ⟨7, 4, .ro, 0, 0⟩, ⟨11, 8, .ro, 0, 0⟩, ⟨15, 12, .ro, 0, 0⟩, ⟨19, 16, .ro, 0, 0⟩, ⟨23, 20, .ro, 0, 0⟩, ⟨27, 24, .ro, 0, 0⟩, ⟨31, 28, .ro, 0, 0⟩]⟩,
  ⟨"UL_PRESET", 0x600010, [(65536, 4)], 0x2, 0x2, 0x0,
   [⟨3, 0, .rw, 0, 0⟩]⟩,
  ⟨"UL_TIMERS", 0x600014, [(65536, 4)], 0x41F40, 0x41F40, 0x0,
   [⟨23, 16, .rw, 1, 128⟩, ⟨15, 0, .rw, 2000, 65535⟩]⟩,
  ⟨"UL_LPM", 0x600018, [(65536, 4)], 0x40, 0x40, 0x0,
   [⟨31, 31, .rw, 0, 0⟩, ⟨15, 0, .rw, 1, 65535⟩]⟩,
  ⟨"UL_CREDIT_PEER", 0x600020, [(65536, 4)], 0x0, 0x0, 0x0,
   [⟨31, 24, .ro, 0, 0⟩, ⟨23, 16, .ro, 0, 0⟩, ⟨15, 8, .ro, 0, 0⟩, ⟨7, 0, .ro, 0, 0⟩]⟩,
  ⟨"UL_CREDIT_AVAIL", 0x600024, [(65536, 4)], 0x0, 0x0, 0x0,
   [⟨31, 24, .ro, 0, 0⟩, ⟨23, 16, .ro, 0, 0⟩, ⟨15, 8, .ro, 0, 0⟩, ⟨7, 0, .ro, 0, 0⟩]⟩,
  ⟨"UL_SEQ", 0x600028, [(65536, 4)], 0x0, 0x0, 0x0,
   [⟨27, 16, .ro, 0, 0⟩, ⟨11, 0, .ro, 0, 0⟩]⟩,
  ⟨"UL_REPLAY", 0x60002C, [(65536, 4)], 0x0, 0x0, 0x0,
   [⟨31, 24, .rc, 0, 0⟩, ⟨23, 16, .ro, 0, 0⟩, ⟨15, 0, .rc, 0, 0⟩]⟩,
  ⟨"UL_ERR_CNT", 0x600030, [(65536, 4)], 0x0, 0x0, 0x0,
   [⟨31, 24, .rc, 0, 0⟩, ⟨23, 16, .rc, 0, 0⟩, ⟨15, 8, .rc, 0, 0⟩, ⟨7, 0, .rc, 0, 0⟩]⟩,
  ⟨"UL_EVT_CNT", 0x600034, [(65536, 4)], 0x0, 0x0, 0x0,
   [⟨31, 24, .rc, 0, 0⟩, ⟨23, 16, .rc, 0, 0⟩, ⟨15, 8, .rc, 0, 0⟩, ⟨7, 0, .rc, 0, 0⟩]⟩,
  ⟨"UL_PROTO_LOG", 0x600038, [(65536, 4)], 0x0, 0x0, 0x0,
   [⟨31, 31, .rw1c, 0, 0⟩, ⟨19, 16, .ro, 0, 0⟩, ⟨11, 0, .ro, 0, 0⟩]⟩,
  ⟨"UL_DOWN_TS", 0x60003C, [(65536, 4)], 0x0, 0x0, 0x0,
   [⟨31, 0, .ro, 0, 0⟩]⟩,
  ⟨"UL_PEER", 0x600040, [(65536, 4)], 0x0, 0x0, 0x0,
   [⟨31, 31, .rw1c, 0, 0⟩, ⟨15, 8, .ro, 0, 0⟩, ⟨4, 3, .ro, 0, 0⟩, ⟨2, 0, .ro, 0, 0⟩]⟩,
  ⟨"UL_DELAY", 0x600044, [(65536, 4)], 0x0, 0x0, 0x0,
   [⟨15, 0, .ro, 0, 0⟩]⟩,
  ⟨"UL_BYP", 0x600048, [(65536, 4)], 0x0, 0x0, 0x0,
   [⟨31, 16, .rc, 0, 0⟩, ⟨15, 8, .rc, 0, 0⟩, ⟨7, 0, .rc, 0, 0⟩]⟩,
  ⟨"UL_LANE_RX", 0x600100, [(65536, 4), (4, 9)], 0x0, 0x0, 0x0,
   [⟨31, 31, .ro, 0, 0⟩, ⟨23, 20, .ro, 0, 0⟩, ⟨19, 14, .ro, 0, 0⟩, ⟨13, 8, .ro, 0, 0⟩, ⟨7, 0, .rc, 0, 0⟩]⟩]

/-- The registers of the PEL group. -/
def regs_pel : List RegDef := [
  ⟨"PEL_STATUS", 0x680000, [], 0x20000000, 0x20000000, 0x0,
   [⟨31, 29, .ro, 0, 0⟩, ⟨28, 26, .ro, 0, 0⟩, ⟨25, 22, .ro, 0, 0⟩, ⟨11, 9, .ro, 0, 0⟩, ⟨8, 6, .ro, 0, 0⟩, ⟨5, 4, .ro, 0, 0⟩]⟩,
  ⟨"PEL_VIEW", 0x680004, [], 0x0, 0x0, 0x0,
   [⟨31, 16, .ro, 0, 0⟩, ⟨15, 8, .ro, 0, 0⟩, ⟨7, 0, .ro, 0, 0⟩]⟩,
  ⟨"PEL_ROUTE", 0x680008, [], 0xFFFFFFFF, 0xFFFFFFFF, 0x0,
   [⟨3, 0, .ro, 0, 0⟩, ⟨7, 4, .ro, 0, 0⟩, ⟨11, 8, .ro, 0, 0⟩, ⟨15, 12, .ro, 0, 0⟩, ⟨19, 16, .ro, 0, 0⟩, ⟨23, 20, .ro, 0, 0⟩, ⟨27, 24, .ro, 0, 0⟩, ⟨31, 28, .ro, 0, 0⟩]⟩,
  ⟨"PEL_CTL", 0x680010, [], 0x1900832, 0x1900832, 0x0,
   [⟨25, 16, .rw, 50, 900⟩, ⟨15, 8, .rw, 4, 64⟩, ⟨7, 0, .rw, 10, 255⟩]⟩,
  ⟨"PEL_LOSS_LOG", 0x680014, [], 0x0, 0x0, 0x0,
   [⟨31, 31, .rw1c, 0, 0⟩, ⟨30, 28, .ro, 0, 0⟩, ⟨27, 26, .ro, 0, 0⟩, ⟨15, 0, .ro, 0, 0⟩]⟩,
  ⟨"PEL_LOSS_TS", 0x680018, [], 0x0, 0x0, 0x0,
   [⟨31, 0, .ro, 0, 0⟩]⟩,
  ⟨"PEL_IDENT_LO", 0x680020, [], 0x0, 0x0, 0x0,
   [⟨31, 0, .ro, 0, 0⟩]⟩,
  ⟨"PEL_IDENT_HI", 0x680024, [], 0x0, 0x0, 0x0,
   [⟨31, 0, .ro, 0, 0⟩]⟩,
  ⟨"PEL_CNT", 0x680028, [], 0x0, 0x0, 0x0,
   [⟨31, 24, .rc, 0, 0⟩, ⟨23, 16, .rc, 0, 0⟩, ⟨15, 8, .rc, 0, 0⟩, ⟨7, 0, .rc, 0, 0⟩]⟩,
  ⟨"PEL_SBY", 0x680100, [(4, 32)], 0x0, 0x0, 0x0,
   [⟨31, 0, .rw, 0, 0⟩]⟩,
  ⟨"PEL_SEL", 0x680200, [], 0x0, 0x0, 0x0,
   [⟨9, 0, .rw, 0, 0⟩]⟩,
  ⟨"PEL_LOC", 0x688000, [(4, 8192)], 0x0, 0x0, 0x0,
   [⟨31, 31, .ro, 0, 0⟩, ⟨30, 30, .ro, 0, 0⟩, ⟨26, 24, .ro, 0, 0⟩, ⟨9, 0, .ro, 0, 0⟩]⟩]

/-- The registers of the IC group. -/
def regs_ic : List RegDef := [
  ⟨"IC_PEND", 0x700000, [(4, 9)], 0x0, 0x0, 0x0,
   [⟨31, 0, .ro, 0, 0⟩]⟩,
  ⟨"IC_PEND_SET", 0x700040, [(4, 9)], 0x0, 0x0, 0x0,
   [⟨31, 0, .wo, 0, 0⟩]⟩,
  ⟨"IC_PEND_CLR", 0x700080, [(4, 9)], 0x0, 0x0, 0x0,
   [⟨31, 0, .wo, 0, 0⟩]⟩,
  ⟨"IC_EN", 0x7000C0, [(4, 9)], 0x0, 0x0, 0x0,
   [⟨31, 0, .ro, 0, 0⟩]⟩,
  ⟨"IC_EN_SET", 0x700100, [(4, 9)], 0x0, 0x0, 0x0,
   [⟨31, 0, .wo, 0, 0⟩]⟩,
  ⟨"IC_EN_CLR", 0x700140, [(4, 9)], 0x0, 0x0, 0x0,
   [⟨31, 0, .wo, 0, 0⟩]⟩,
  ⟨"IC_ACTIVE", 0x700180, [(4, 9)], 0x0, 0x0, 0x0,
   [⟨31, 0, .ro, 0, 0⟩]⟩,
  ⟨"IC_SRC_CFG", 0x700400, [(4, 288)], 0x480, 0x480, 0x0,
   [⟨20, 16, .rw, 0, 0⟩, ⟨15, 15, .rw, 0, 0⟩, ⟨10, 8, .rw, 0, 4⟩, ⟨7, 0, .rw, 0, 0⟩]⟩,
  ⟨"IC_HOLD", 0x700900, [(4, 32)], 0x0, 0x0, 0x0,
   [⟨31, 31, .ro, 0, 0⟩, ⟨15, 0, .rw, 0, 0⟩]⟩,
  ⟨"IC_CLAIM", 0x700A00, [], 0x1FF, 0x1FF, 0x0,
   [⟨31, 31, .rc, 0, 0⟩, ⟨8, 0, .rc, 0, 0⟩]⟩,
  ⟨"IC_EOI", 0x700A04, [], 0x0, 0x0, 0x0,
   [⟨8, 0, .wo, 0, 0⟩]⟩,
  ⟨"IC_CORE_STATUS", 0x700A40, [(4, 4)], 0x1FF, 0x1FF, 0x0,
   [⟨31, 31, .ro, 0, 0⟩, ⟨30, 30, .ro, 0, 0⟩, ⟨20, 16, .ro, 0, 0⟩, ⟨8, 0, .ro, 0, 0⟩]⟩,
  ⟨"IC_FAULT_LOG", 0x700A80, [], 0x0, 0x0, 0x0,
   [⟨31, 31, .rw1c, 0, 0⟩, ⟨30, 29, .ro, 0, 0⟩, ⟨25, 17, .ro, 0, 0⟩, ⟨16, 8, .ro, 0, 0⟩, ⟨4, 0, .ro, 0, 0⟩]⟩,
  ⟨"IC_FAULT_TS", 0x700A84, [], 0x0, 0x0, 0x0,
   [⟨31, 0, .ro, 0, 0⟩]⟩,
  ⟨"IC_STACK", 0x700C00, [(128, 4), (4, 17)], 0x0, 0x0, 0x0,
   [⟨31, 31, .ro, 0, 0⟩, ⟨16, 9, .ro, 0, 0⟩, ⟨8, 0, .ro, 0, 0⟩]⟩,
  ⟨"IC_TMR_CTL", 0x700E00, [(8, 4)], 0x0, 0x0, 0x0,
   [⟨31, 31, .rw, 0, 0⟩, ⟨30, 30, .rw, 0, 0⟩, ⟨23, 0, .rw, 1, 16777215⟩]⟩,
  ⟨"IC_TMR_CNT", 0x700E04, [(8, 4)], 0x0, 0x0, 0x0,
   [⟨23, 0, .ro, 0, 0⟩]⟩,
  ⟨"IC_STROKE_CMP_LO", 0x700E40, [], 0x0, 0x0, 0x0,
   [⟨31, 0, .rw, 0, 0⟩]⟩,
  ⟨"IC_STROKE_CMP_HI", 0x700E44, [], 0x0, 0x0, 0x0,
   [⟨31, 31, .rw, 0, 0⟩, ⟨15, 0, .rw, 0, 0⟩]⟩]

/-- The registers of the CORE group. -/
def regs_core : List RegDef := [
  ⟨"IC_CORE_CFG", 0x4000000000, [(4, 4)], 0x0, 0x0, 0x0,
   [⟨2, 0, .rw, 0, 0⟩]⟩]

/-- The registers of the EV group. -/
def regs_ev : List RegDef := [
  ⟨"EV_DROP", 0x740000, [], 0x0, 0x0, 0x0,
   [⟨31, 16, .rc, 0, 0⟩, ⟨15, 8, .rc, 0, 0⟩, ⟨7, 0, .rc, 0, 0⟩]⟩,
  ⟨"EV_PME", 0x740004, [], 0x0, 0x0, 0x0,
   [⟨31, 16, .rc, 0, 0⟩, ⟨15, 0, .ro, 0, 0⟩]⟩,
  ⟨"EV_MSIX_CNT", 0x740008, [], 0x0, 0x0, 0x0,
   [⟨31, 0, .rc, 0, 0⟩]⟩,
  ⟨"EV_SEL", 0x740010, [], 0x0, 0x0, 0x0,
   [⟨9, 0, .rw, 0, 0⟩]⟩]

/-- The registers of the PFS group. -/
def regs_pfs : List RegDef := [
  ⟨"PFS_CTL", 0x7C0000, [], 0x20000000, 0x20000000, 0x0,
   [⟨31, 31, .wo, 0, 0⟩, ⟨30, 30, .rw, 0, 0⟩, ⟨29, 29, .rw, 0, 0⟩, ⟨28, 28, .rw, 0, 0⟩]⟩,
  ⟨"PFS_STAT", 0x7C0004, [], 0x40000000, 0x40000000, 0x0,
   [⟨31, 31, .ro, 0, 0⟩, ⟨30, 30, .ro, 0, 0⟩, ⟨29, 29, .ro, 0, 0⟩, ⟨28, 28, .ro, 0, 0⟩, ⟨27, 27, .ro, 0, 0⟩, ⟨26, 26, .rw1c, 0, 0⟩, ⟨19, 16, .ro, 0, 0⟩, ⟨15, 8, .rc, 0, 0⟩, ⟨7, 0, .ro, 0, 0⟩]⟩,
  ⟨"PFS_TS_LO", 0x7C0008, [], 0x0, 0x0, 0x0,
   [⟨31, 0, .ro, 0, 0⟩]⟩,
  ⟨"PFS_TS_HI", 0x7C000C, [], 0x0, 0x0, 0x0,
   [⟨15, 0, .ro, 0, 0⟩]⟩,
  ⟨"PFS_MATCH", 0x7C0010, [], 0x0, 0x0, 0x0,
   [⟨8, 0, .rw, 0, 287⟩]⟩,
  ⟨"PFS_TRIG", 0x7C0014, [], 0x0, 0x0, 0x0,
   [⟨31, 31, .wo, 0, 0⟩]⟩,
  ⟨"PFS_BCAST", 0x7C0018, [], 0x0, 0x0, 0x0,
   [⟨31, 31, .rw1c, 0, 0⟩, ⟨18, 16, .ro, 0, 0⟩, ⟨15, 0, .ro, 0, 0⟩]⟩,
  ⟨"PFS_DIR", 0x7C0800, [(4, 180)], 0x0, 0x0, 0x0,
   [⟨31, 31, .ro, 0, 0⟩, ⟨28, 24, .ro, 0, 0⟩, ⟨15, 0, .ro, 0, 0⟩]⟩,
  ⟨"PFS_SNAP", 0x7C1000, [(4, 180)], 0x0, 0x0, 0x0,
   [⟨31, 0, .ro, 0, 0⟩]⟩]

/-- The registers of the DBG group. -/
def regs_dbg : List RegDef := [
  ⟨"DBG_STATUS", 0x7E0000, [], 0x0, 0x0, 0x0,
   [⟨31, 31, .ro, 0, 0⟩, ⟨30, 30, .ro, 0, 0⟩, ⟨29, 29, .ro, 0, 0⟩, ⟨15, 0, .rc, 0, 0⟩]⟩,
  ⟨"DBG_DENY", 0x7E0004, [], 0x0, 0x0, 0x0,
   [⟨31, 31, .rw1c, 0, 0⟩, ⟨30, 30, .ro, 0, 0⟩, ⟨29, 27, .ro, 0, 0⟩, ⟨15, 0, .rc, 0, 0⟩]⟩,
  ⟨"DBG_DENY_ADDR", 0x7E0008, [], 0x0, 0x0, 0x0,
   [⟨31, 0, .ro, 0, 0⟩]⟩,
  ⟨"DBG_DENY_TS", 0x7E000C, [], 0x0, 0x0, 0x0,
   [⟨31, 0, .ro, 0, 0⟩]⟩,
  ⟨"DBG_POLICY", 0x7E0010, [], 0x0, 0x0, 0x0,
   [⟨31, 0, .ro, 0, 0⟩]⟩,
  ⟨"DBG_FUSE_STAT", 0x7E0014, [], 0x0, 0x0, 0x0,
   [⟨31, 31, .ro, 0, 0⟩, ⟨30, 30, .ro, 0, 0⟩, ⟨29, 29, .ro, 0, 0⟩, ⟨7, 0, .ro, 0, 0⟩]⟩]

/-- The registers of the ATS group. -/
def regs_ats : List RegDef := [
  ⟨"ATS_VIEW0", 0x1200000, [(32, 4096)], 0x0, 0x0, 0x0,
   [⟨31, 31, .ro, 0, 0⟩, ⟨30, 30, .ro, 0, 0⟩, ⟨29, 29, .ro, 0, 0⟩, ⟨28, 28, .ro, 0, 0⟩, ⟨27, 27, .ro, 0, 0⟩, ⟨26, 26, .ro, 0, 0⟩, ⟨23, 16, .ro, 0, 0⟩, ⟨15, 10, .ro, 0, 0⟩, ⟨9, 0, .ro, 0, 0⟩]⟩,
  ⟨"ATS_VIEW1", 0x1200004, [(32, 4096)], 0x0, 0x0, 0x0,
   [⟨31, 12, .ro, 0, 0⟩]⟩,
  ⟨"ATS_VIEW2", 0x1200008, [(32, 4096)], 0x0, 0x0, 0x0,
   [⟨31, 0, .ro, 0, 0⟩]⟩,
  ⟨"ATS_VIEW3", 0x120000C, [(32, 4096)], 0x0, 0x0, 0x0,
   [⟨31, 12, .ro, 0, 0⟩]⟩,
  ⟨"ATS_VIEW4", 0x1200010, [(32, 4096)], 0x0, 0x0, 0x0,
   [⟨31, 0, .ro, 0, 0⟩]⟩,
  ⟨"ATS_VIEW5", 0x1200014, [(32, 4096)], 0x0, 0x0, 0x0,
   [⟨31, 0, .ro, 0, 0⟩]⟩,
  ⟨"ATS_VIEW6", 0x1200018, [(32, 4096)], 0x0, 0x0, 0x0,
   [⟨31, 16, .ro, 0, 0⟩]⟩,
  ⟨"ATS_VIEW7", 0x120001C, [(32, 4096)], 0x0, 0x0, 0x0,
   [⟨7, 0, .ro, 0, 0⟩]⟩]

/-- Every register layout of the device (20 R464, R468, R471). -/
def regTable : List RegDef :=
  regs_dev ++ regs_crp ++ regs_ks ++ regs_hl ++ regs_page ++ regs_mbx ++ regs_ctx ++ regs_perc ++ regs_qm ++ regs_cad ++ regs_lb ++ regs_win ++ regs_acc ++ regs_msg ++ regs_rxb ++ regs_ds ++ regs_apt ++ regs_drc ++ regs_med ++ regs_ul ++ regs_pel ++ regs_ic ++ regs_core ++ regs_ev ++ regs_pfs ++ regs_dbg ++ regs_ats

/-- The element of an array that byte offset `off` names, if it names one exactly. -/
def arrayIndex : List (Nat × Nat) → Nat → Nat → Option Nat
  | [], off, acc => if off = 0 then some acc else none
  | (st, ct) :: ds, off, acc =>
    if off / st < ct then arrayIndex ds (off % st) (acc * ct + off / st) else none

/-- The element of register `r` that address `a` names. -/
def RegDef.index (r : RegDef) (a : Nat) : Option Nat :=
  if r.base ≤ a then arrayIndex r.dims (a - r.base) 0 else none

/-- The layouts among which an address is looked up: those of its block (20 R464, R468, R471). -/
def regPart (a : Nat) : List RegDef :=
  if 0x100000000 ≤ a then
    if a < 0x400000000 then regs_page
    else if a < 0x800000000 then regs_win
    else if a < 0x1000000000 then regs_rxb
    else if a < 0x2000000000 then regs_apt
    else if a < 0x4000000000 then regs_perc
    else regs_core
  else if a < 0x300000 then
    if a < 0x180000 then
      if a < 0x110000 then regs_dev else if a < 0x120000 then regs_crp else if a < 0x140000 then regs_ks else regs_hl
    else if a < 0x200000 then regs_ctx
    else if a < 0x280000 then regs_qm
    else regs_cad
  else if a < 0x600000 then
    if a < 0x308000 then regs_lb
    else if a < 0x380000 then regs_win ++ regs_lb
    else if a < 0x400000 then regs_acc
    else if a < 0x480000 then regs_msg
    else if a < 0x500000 then regs_ds
    else if a < 0x580000 then regs_med
    else regs_drc
  else if a < 0x780000 then
    if a < 0x680000 then regs_ul else if a < 0x700000 then regs_pel else if a < 0x740000 then regs_ic else regs_ev
  else if a < 0x7C0000 then regs_mbx
  else if a < 0x7E0000 then regs_pfs
  else if a < 0x1000000 then regs_dbg
  else if a < 0x1200000 then regs_msg
  else regs_ats

/-- The register layout at an address (20 R464): none for a reserved offset. -/
def regAt (a : Nat) : Option RegDef := (regPart a).find? (fun r => (r.index a).isSome)

/-- The value of the register at an address after reset (the Reset columns of the field maps). -/
def resetOf (a : Nat) : BitVec 32 :=
  match regAt a with
  | none => 0
  | some r =>
    match r.index a with
    | none => 0
    | some i => BitVec.ofNat 32 (if i = 0 then r.rst0 else r.rst + i * r.step)

end Sys2Proof.Machine
end

