-- ==== Sys2Proof/Machine/Table.lean ====
section
/-! DEFINITION. Machine/Table.lean: finite tables keyed by a number, in one canonical form.
A table lists keys in strictly rising order and lists no value equal to what an unlisted key
holds, so that equal tables are equal data. Every array of State that is too large to write
out is held so: the register file, contexts, queue pairs, windows and aperture bytes. -/
namespace Sys2Proof.Machine

/-- Key and value pairs, keys strictly rising. -/
abbrev Table (α : Type) := List (Nat × α)

/-- The entry of a key, if it is listed. -/
def tabFind {α : Type} : Table α → Nat → Option α
  | [], _ => none
  | (j, v) :: t, k => if j = k then some v else tabFind t k

/-- The value at a key; `d` gives what an unlisted key holds. -/
def tabGet {α : Type} (d : Nat → α) (t : Table α) (k : Nat) : α := (tabFind t k).getD (d k)

/-- The table with the entry of `k` removed. -/
def tabDel {α : Type} : Table α → Nat → Table α
  | [], _ => []
  | (j, v) :: t, k => if j = k then tabDel t k else (j, v) :: tabDel t k

/-- The table with the entry of `k` put in its place. -/
def tabPut {α : Type} : Table α → Nat → α → Table α
  | [], k, v => [(k, v)]
  | (j, w) :: t, k, v =>
    if j = k then (k, v) :: t else if k < j then (k, v) :: (j, w) :: t else (j, w) :: tabPut t k v

/-- The table in which `k` holds `v`: a value equal to the unlisted one removes the entry. -/
def tabSet {α : Type} [DecidableEq α] (d : Nat → α) (t : Table α) (k : Nat) (v : α) : Table α :=
  if v = d k then tabDel t k else tabPut t k v

/-- The keys of a table, in order. -/
def tabKeys {α : Type} (t : Table α) : List Nat := t.map Prod.fst

/-- The entries whose key satisfies `p`. -/
def tabKeep {α : Type} (p : Nat → Bool) (t : Table α) : Table α := t.filter (fun e => p e.1)

/-- Keys strictly rising, all above `lo` where it is given. -/
def tabRising {α : Type} : Option Nat → Table α → Bool
  | _, [] => true
  | none, (k, _) :: t => tabRising (some k) t
  | some l, (k, _) :: t => decide (l < k) && tabRising (some k) t

/-- The canonical form: keys strictly rising, and no entry equal to the unlisted value. -/
def tabWf {α : Type} [DecidableEq α] (d : Nat → α) (t : Table α) : Bool :=
  tabRising none t && t.all (fun e => decide (e.2 ≠ d e.1))

end Sys2Proof.Machine
end

