-- ==== Sys2Proof/Machine/State.lean ====
section
/-! DEFINITION. Machine/State.lean: everything the spec gives the block, as plain data, and its value after reset.
A value that a register shows has its one home in that register (`regs`, keyed by address, Regs.lean); State holds
beside it what no register shows whole. Large arrays are canonical tables (Table.lean). -/
namespace Sys2Proof.Machine

/-- The six operating modes (01 R12, Table 01-4). -/
inductive Mode where
  | boot | standby | serving | draining | preserve | maintenance
deriving DecidableEq, Repr

/-- The code of a mode in DEV_MODE (01 Table 01-4). -/
def Mode.code : Mode → Nat
  | .boot => 0 | .standby => 1 | .serving => 2 | .draining => 3 | .preserve => 4 | .maintenance => 5

/-- The mode a code names; codes 6 and 7 are never reported (01 R12). -/
def Mode.ofCode : Nat → Mode
  | 1 => .standby | 2 => .serving | 3 => .draining | 4 => .preserve | 5 => .maintenance | _ => .boot

/-- A cause of a mode transition recognised in the current stroke and not yet taken (03 R63, Table 03-6). -/
inductive ModeCause where
  | cardEject | surpriseDown | prepareExtract | pelLeave | linkReset | maintEntry | heldOrder | toStandby
deriving DecidableEq, Repr

/-- One transfer of the lines of a local bus port: 32 data bits, 4 parity bits, the frame bit (08 R173). -/
structure Beat where
  data : Word
  parity : BitVec 4
  frame : Bool
deriving DecidableEq, Repr

/-- What a local bus port drives beside packets (08 Table 08-1): its reset levels, training or locked blocks, idle beats;
of FAILED the spec says only that the strobe stands. -/
inductive LbLines where
  | reset | train | locked | idle | unstated
deriving DecidableEq, Repr

/-- A 66-bit block of a Ulirin lane: its sync header as Table 13-3 writes it and 64 payload bits, bit 0 sent first (13 R308). -/
structure Blk where
  sync : BitVec 2
  payload : BitVec 64
deriving DecidableEq, Repr

/-- What leaves the block. Every write, message or answer that a party outside can see is recorded here, newest
first (log 3). -/
inductive Out where
  /-- An MSI-X write of vector `vec` of context `ctx` (15 R382), with the steering tag of its vector where TPH is enabled in
  Interrupt Vector mode (04 Table 04-1, 15 R379; log 181). -/
  | msix (ctx vec : Nat) (addr : Addr) (data : Word) (tag : Option Nat)
  /-- A PME message or HL_WAKE_N assertion of a function (15 R383, 04 R95). -/
  | pme (fn : Nat)
  /-- A PCI Express message: DRS, FRS with its reason, LTR, PME_TO_Ack, ERR_COR, ERR_NONFATAL, ERR_FATAL, and so on. -/
  | pcie (fn : Nat) (what : String) (v : Nat)
  /-- A completion sent to the host for a request of function `fn`: 0 successful, 1 Unsupported Request, 2 Completer
  Abort, 3 CRS, 4 successful with poisoned data. -/
  | cpl (fn : Nat) (status : Nat) (data : List Byte)
  /-- A memory write the device issues for a context (completion entry, error-ring entry, wrapper, payload, data). -/
  | hostWrite (ctx : Nat) (addr : Addr) (data : List Byte) (relaxed noSnoop : Bool)
  /-- A non-posted read the device issues for a context under a tag. -/
  | hostRead (ctx tag : Nat) (addr : Addr) (len : Nat) (noSnoop : Bool)
  /-- An ATS Translation Request of a context. -/
  | atsRequest (ctx : Nat) (iova : Addr)
  /-- A packet sent on a local bus port: its beats, back to back: header, data, trailer (08 R175, R180). -/
  | lb (port : Nat) (beats : List Beat)
  /-- What a local bus port drives from here on between packets, and whether its strobe runs (08 Table 08-1). -/
  | lbTx (port : Nat) (strobe : Bool) (lines : LbLines)
  /-- A bypass cell sent on a Ulirin link: BTYPE, SEQD, BSEQ, BACK and its 32 bytes, CRC and all (13 Table 13-6). -/
  | bypass (link btype : Nat) (seqd : Bool) (bseq back : Nat) (cell : List Byte)
  /-- A unit or marker row sent on a Ulirin link. -/
  | cell (link : Nat) (what : String) (seq : Nat) (data : List Byte)
  /-- The blocks of a unit or marker row of a Ulirin link, with the IDLE words before it: row since the last marker row, physical
  lane, scrambled block (13 R308, R309). -/
  | ulBlocks (link : Nat) (blocks : List (Nat × Nat × Blk))
  /-- What a Ulirin link's transmitter sends from here on between units: IDLE rows with a marker row of `flags` every `rows`
  rows; electrical idle where `rows` is 0 (13 R309, Table 13-4). -/
  | ulLine (link rows flags : Nat)
  /-- What the FIR of every transmit lane of a link applies from here on: the coefficients C-1, C0 and C+1 in thousandths (13 R306,
  Table 13-2). -/
  | ulFir (link : Nat) (pre main post : Int)
  /-- A message handed to the Ulirin transmitter for a member. -/
  | peer (member : Nat) (mtype : Nat) (data : List Byte)
  /-- An answer on SMBus: status, data bytes and the PEC byte that follows them (16 R413). -/
  | smb (status : Nat) (data : List Byte) (pec : Byte)
  /-- An answer of the JTAG data register. -/
  | jtag (bits : Nat) (value : Nat)
  /-- The answer of a register read: master and value. -/
  | reg (m : Master) (value : Word)
  /-- The answer of a read of fewer than four bytes of a register: the enabled bytes, lowest first (00 R7). -/
  | regPart (m : Master) (data : List Byte)
  /-- A bus error to a control core (09 Table 09-4). -/
  | busError (core : Nat)
  /-- A TLP that left poisoned, by a parity error (18 Table 18-3). -/
  | poisoned (tlp : Out)
deriving DecidableEq, Repr

/-- What the AER Header Log of a function holds (04 R91): nothing; the header of a received TLP, by the number of the
report; the entry the device builds from function, BAR address and length. -/
inductive AerHdr where
  | none
  | tlp (n : Nat)
  | built (fn addr len : Nat)
deriving DecidableEq, Repr

/-- The configuration-space bits of one function that the device acts on (04 R75 to R86, R91, R95). AER: the two status
registers, their masks (0 at reset, so that every signal of 04 Table 04-9 is sent: DESIGN CHOICE, log 194) and severities (log 149),
the control register, the First Error Pointer where one is valid, the Header Log. `pmeAt` is when
PME was last signalled. -/
structure Fn where
  enabled : Bool := false
  ready : Bool := false
  bme : Bool := false
  mse : Bool := false
  d3 : Bool := false
  msixEn : Bool := false
  fmask : Bool := false
  pmeEn : Bool := false
  pmeStat : Bool := false
  pmeAt : Option Stroke := none
  atsEn : Bool := false
  tag10 : Bool := false
  ero : Bool := true
  ens : Bool := true
  mps : Nat := 128
  mrrs : Nat := 512
  cto : Nat := 0
  d0due : Bool := false
  aerCor : Nat := 0
  aerUnc : Nat := 0
  uncMask : Nat := 0
  uncSev : Nat := 0x62030
  corMask : Nat := 0
  aerCtl : Nat := 0
  fep : Option Nat := none
  hdr : AerHdr := .none
deriving DecidableEq, Repr

/-- One MSI-X table entry (15 R379). -/
structure MsixEntry where
  addr : Addr := 0
  data : Word := 0
  ctl : Word := 1
deriving DecidableEq, Repr

/-- Device-wide state of power-up, reset and modes (03). `relTicks` counts the strokes since the release of SYS_RST_N, to 1 ms (16
R414). -/
structure Dev where
  ksReady : Bool := true
  ksSlow : Bool := false
  sysRst : Bool := true
  rstAtHalt : Bool := false
  supplies : Bool := true
  rom : Bool := false
  drs : Bool := false
  heldOrder : Bool := false
  causes : List ModeCause := []
  servingAt : Option Stroke := none
  straps : BitVec 8 := 0
  counting : Bool := false
  heldEject : Bool := false
  presPend : Option Nat := none
  presFrom : Option Stroke := none
  halted : Bool := false
  devResetAt : Option Stroke := none
  drainFrom : Stroke := 0
  perst : Bool := false
  tripOut : Bool := false
  vid : BitVec 6 := 0b111000
  lbRst : BitVec 4 := 0b1111
  wake : Bool := false
  relTicks : Nat := 0
deriving DecidableEq, Repr

/-- Firmware, control cores and the fault log (18). `stopRuns`: a fault stop was ordered since the last system reset (R438); `corrFrom`:
since when DEV_SRAM_ECC.CORR counts. -/
structure Flt where
  log : List (Nat × Stroke × List Byte) := []
  logged : Nat := 0
  fenceDue : List (Nat × Nat) := []
  restartDue : Option Nat := none
  restarts : List Stroke := []
  restartAt : Stroke := 0
  nfErr : List (Nat × Stroke) := []
  stopRuns : Bool := false
  corrFrom : Stroke := 0
deriving DecidableEq, Repr

/-- The photo-finish block beside its registers (19 R453 to R456). -/
structure Pfs where
  due : Option (Stroke × Nat) := none
  pel : Option (Stroke × Nat) := none
  trigNo : Nat := 0
  seen : List (Nat × Nat) := []
deriving DecidableEq, Repr

/-- A register write that takes effect at the next stroke boundary. -/
inductive Deferred where
  /-- CQ_EVT_CFG of a queue pair (15 R381). -/
  | cqEvt (c q : Nat) (v : Word)
  /-- Disabling of a queue pair (06 R128). -/
  | qpOff (c q : Nat)
  /-- Mapping, unmapping and the attributes of a window (08 R196 to R198). -/
  | winMap (c w : Nat)
  | winUnmap (c w : Nat)
  | winAttr (c w : Nat) (v : Word)
  /-- Attachment and detachment of an aperture (11 Table 11-1), with the number of the command. -/
  | aptAttach (a c cmd : Nat)
  | aptDetach (a cmd : Nat)
  /-- An accepted dirty budget or hold-up energy (11 R264). -/
  | budget (mib : Nat)
  | holdup (mj : Nat)
  /-- A route entry (10 R235): its address and its 64 bits. -/
  | route (a : Nat) (v : Addr)
  /-- Contexts 1 to `n` that VF Enable creates (05 R105). -/
  | vfs (n : Nat)
  /-- A spoke engine that is fenced at the end of the stroke, by journal disagreement or parity (06 R143). -/
  | engineFence (e : Nat) (journal : Bool)
  /-- A home context handed over, and a standby context made live under a generation (05 R105, 14 R360). -/
  | ctxMoved (c : Nat)
  | ctxLive (c gen : Nat)
  /-- The state of a standby context that its home's reset resets (14 Table 14-5). -/
  | standbyReset (c : Nat)
  /-- What is found due for a context in a stroke: the end of its drain, the end of its squash, its quiescence. The boundary looks
  again (05 R105, R116, R117; 06 R128). -/
  | drainEnd (c : Nat)
  | squashEnd (c : Nat)
  | quiesce (c : Nat)
  /-- What else is found due at the boundary to come, which looks again and makes the change in its place (07 R163): the DRAIN
  of a context and a share record (05 R105, R110), a commit (07 R162), a level change (17 R418), the loss of a member, a fence
  and a failover (14 R353, R354, R358), the end of an abort (06 R142), SERVING and the drain limit (03 R59, R65), a snapshot
  (19 R453). -/
  | drainStart (c : Nat)
  | shareNow (c : Nat)
  | commit
  | levelNow
  | lost (m : Nat)
  | fence
  | failover (c : Nat)
  | abortEnd (c q : Nat)
  | serving
  | drainLimit
  | photo
  /-- The end of FUSE_PROGRAM (19 R461): the command, how it goes, and which bits are programmed where it does not end well. -/
  | fuse (id : Nat) (lapse bad : Bool) (got : BitVec 128)
deriving DecidableEq, Repr

/-- A descriptor as the engines name it: context, queue pair, submission slot, and a number that each acceptance and each
re-dealing takes anew, so that a slot used again is another descriptor (06 R126, R137) and an answer to an earlier dealing
finds nothing (06 R143). -/
structure DKey where
  c : Nat
  q : Nat
  slot : Nat
  gen : Nat
deriving DecidableEq, Repr

/-- The 64 bytes of a descriptor (06 R131). -/
abbrev Raw := List Byte

/-- Where a window led when an access to it was checked (08 R197, R198): port, local address of the window's first byte,
timeout, and whether writes are acked and requests once-only. -/
structure WinMap where
  port : Nat := 0
  laddr : Nat := 0
  tmo : Nat := 0
  acked : Bool := false
  once : Bool := false
deriving DecidableEq, Repr

/-- The translations that an access of a context keeps from its check (09 R217): of each page found, its translated address;
none at all where ATS was not enabled, so that the access is issued untranslated (04 R86). -/
abbrev Pages := Option (List (Nat × Addr))

/-- An outstanding descriptor (06 R131 to R143): its number in the order of acceptance, its doorbell's stamp, whether it was beyond DESC_MAX, its 64 bytes
once fetched, the engine it is dealt to, its commit stroke, and how far its source and destination have come; `spages` and
`dpages` keep the translations found for its two sides before any byte moved (R133, 09 R217), and `done`
lists the pieces accepted into the write cache, which the journal keeps over a fence (R143). -/
structure Desc where
  slot : Nat
  gen : Nat := 0
  no : Nat := 0
  stamp : Stroke := 0
  surplus : Bool := false
  raw : Option Raw := none
  engine : Option Nat := none
  dealt : Stroke := 0
  commit : Option Stroke := none
  spages : Pages := none
  dpages : Pages := none
  rnext : Nat := 0
  rpend : Nat := 0
  got : List (Nat × List Byte) := []
  wnext : Nat := 0
  wpend : Nat := 0
  bytes : Nat := 0
  ack : Nat := 0
  done : List (Nat × Nat) := []
  swin : WinMap := {}
  dwin : WinMap := {}
  apt : Nat := 0
  old : List Byte := []
  sent : Bool := false
  localRead : Bool := false
  ended : Bool := false
  persistAt : Option Nat := none
  fail : Option (Nat × Nat) := none
  detail : Nat := 0
  retried : Bool := false
  fenced : Bool := false
deriving DecidableEq, Repr

/-- A completion entry that waits to be written (06 Table 06-4), with its descriptor's number in the order of acceptance,
if the descriptor was fetched (06 R142). -/
structure Cpl where
  tag : Nat
  status : Nat
  bytes : Nat
  detail : Nat
  retried : Bool
  evt : Bool
  surplus : Bool := false
  no : Option Nat := none
deriving DecidableEq, Repr

/-- A queue pair beside its registers (06 R126 to R142); `resv` lists the routed items for which the completion indices from
CQ_TAIL on are reserved (10 R239). -/
structure Qp where
  sqTail : Nat := 0
  cqHead : Nat := 0
  descs : List Desc := []
  cpls : List Cpl := []
  abort : Option Stroke := none
  off : Bool := false
  drops : Nat := 0
  resv : List Nat := []
  nextGen : Nat := 0
deriving DecidableEq, Repr

/-- A pending or running reset or destroy of a context (05 R115 to R120): its D, the drain timeout it took, its squash's stroke. -/
structure CtxOp where
  destroy : Bool
  absent : Bool
  host : Bool
  cpl : Bool
  cause : Nat
  stamp : Stroke
  start : Stroke
  cmds : List Nat
  tmo : Nat := 512
  squashAt : Stroke := 0
deriving DecidableEq, Repr

/-- A share record accepted for a boundary (05 R110): the boundary, the stamp, the seven words, the number of
the command. -/
structure SharePend where
  at_ : Stroke
  stamp : Stroke
  words : List Word
  cmd : Nat
deriving DecidableEq, Repr

/-- A held read of CTX_WFENCE or CTX_PERSIST (06 R147, 11 R254): when it came and how many of the function's writes it
covers, by number; the byte enables of its register, those of CTX_WFENCE where an 8-byte read of both goes on there, and the
bytes that its first half gave (00 R7, 20 R465). -/
structure HeldRead where
  since : Stroke
  upTo2 : Nat
  upTo4 : Nat
  be : Nat := 15
  rest : Option Nat := none
  pre : List Byte := []
deriving DecidableEq, Repr

/-- A TANDEM exchange of a home context that a command waits for (14 R356, R357): the op, the partner and its context, the
command, the share record it carries. -/
structure Pairing where
  op : Nat
  member : Nat
  sctx : Nat
  cmd : Nat
  words : List Word := []
  at_ : Stroke := 0
  gen : Nat := 0
deriving DecidableEq, Repr

/-- A context beside its registers: reset or destroy, share record, held reads, posted writes of its
function; the global context it serves after a failover, the HANDOVER sent (1) or refused (2), and of a standby context the
ACK_TMO and write sequence number of its home's last message. -/
structure Ctx where
  op : Option CtxOp := none
  flr : Bool := false
  share : Option SharePend := none
  wfence : List HeldRead := []
  persist : List HeldRead := []
  wseq4 : Nat := 0
  apt : Option Nat := none
  pweOverflow : Bool := false
  pweWait : List (Nat × List Byte) := []
  c0out : Nat := 0
  soloFrom : Option Nat := none
  pairing : Option Pairing := none
  rejoin : Bool := false
  serves : Option Nat := none
  handover : Nat := 0
  homeAck : Nat := 0
  homeSeq : Nat := 0
deriving DecidableEq, Repr

/-- On whose behalf the device sends a request to a local agent or a peer. -/
inductive ReqSrc where
  /-- Piece at offset `off` of host read `id`. -/
  | hostRead (id off : Nat)
  /-- A packet of a host posted write to window `w` of context `c` with sequence number `seq`. -/
  | hostWrite (c w seq off len : Nat)
  /-- A source read, destination write, atomic operation, message or frame of a descriptor. -/
  | desc (k : DKey) (off len : Nat)
  /-- A speculative read of a window's block. -/
  | spec (c w blk : Nat)
  /-- A request of a peer: the link it came on, its member, tag and context. -/
  | peer (msg : UMsg) (off : Nat)
  /-- Mirror copy `n` of the durable store. -/
  | mirror (n : Nat)
  /-- A STATE message of this member (14 R351), by its type and the local context it concerns. -/
  | state (stype c : Nat)
  /-- The party was abandoned: the answer is discarded (05 R117). -/
  | nobody
deriving DecidableEq, Repr

/-- A cell of the stream (13 Table 13-8): its sequence number, virtual channel and MSG_OFF, its payload, and the messages
that end in it. -/
structure UCell where
  seq : Nat
  vc : Nat
  off : Nat
  data : List Byte
  ends : List UMsg
deriving DecidableEq, Repr

/-- A sequenced bypass cell held until it is acknowledged: BSEQ, BTYPE, body, the stroke in which it was last sent, and how often it was
sent again (13 R317). -/
structure BCell where
  seq : Nat
  bt : Nat
  body : List Byte
  sent : Stroke
  tries : Nat := 0
deriving DecidableEq, Repr

/-- What an accepted INIT says of the far end (13 R318). -/
structure UInit where
  fresh : Bool
  w4 : Bool
  credits : List Nat
  exp : Nat
  grace : Nat
deriving DecidableEq, Repr

/-- One Ulirin link beside its registers (13): the bypass numbers and held bypass cells; messages that wait for the
stream and requests that await a response with their tags; the entry to the state, the stroke of the down event, the
INIT exchange; what the transmitter has packed, holds and sends again; credits and the two ends' freed counters; what the
receiver has accepted and not processed; the steps toward Coast and Park; `epoch` counts the flushes; the preset in force; invalid sync headers of each receive lane since the last marker row, and the lanes that gave a wrong logical lane in it;
the last INIT; the bypass cells and cells sent in this stroke, and the bypass cells that wait for the next; cells still to come in
the receiver's replay window; whether the receiver has told what lanes passed; requests that wait for a free tag (R322); whether
UL_CTL.RETRAIN ordered the training under way (R335). -/
structure Ul where
  bseq : Nat := 0
  bexp : Nat := 0
  bheld : List BCell := []
  bwait : List (Nat × List Byte) := []
  tx : List UMsg := []
  reqs : List (Nat × ReqSrc × UMsg) := []
  ntag : Nat := 0
  since : Stroke := 0
  holdAt : Option Stroke := none
  locked : Bool := false
  ackSent : Bool := false
  ackRcvd : Bool := false
  init : Option UInit := none
  fresh : Bool := true
  txMap : Nat := 0
  txEpoch : Nat := 0
  downDue : Bool := false
  epoch : Nat := 0
  part : Table (List Byte × UMsg) := []
  held : List UCell := []
  heldAt : Stroke := 0
  replay : List Nat := []
  replayTo : Option Nat := none
  alt : Bool := false
  stalled : Bool := false
  crSeen : List Nat := [0, 0, 0, 0]
  crFreed : List Nat := [0, 0, 0, 0]
  crTold : List Nat := [0, 0, 0, 0]
  crHeld : List Nat := [0, 0, 0, 0]
  crNext : Nat := 0
  errOut : Bool := false
  nakNo : Nat := 0
  nakAt : Stroke := 0
  lostSync : Bool := false
  newMap : Option (Nat × Nat) := none
  rxPart : Table (List Byte) := []
  rx : List (Nat × UMsg) := []
  unacked : Nat := 0
  lpmAsk : Option Nat := none
  lpmGo : Option Nat := none
  busyAt : Stroke := 0
  delayAt : Stroke := 0
  preset : Nat := 0
  syncErr : Table Nat := []
  wrong : Nat := 0
  initAt : Option Stroke := none
  bsent : Nat := 0
  csent : Nat := 0
  blate : List (Nat × Bool × Nat × List Byte) := []
  rxLeft : Nat := 0
  told : Bool := false
  upAt : Stroke := 0
  treq : List (ReqSrc × UMsg) := []
  retrain : Bool := false
deriving DecidableEq, Repr

/-- The line of a Ulirin transmitter (13 R308, R309): words sent since the last marker row, the state of each lane's scrambler, the
map and epoch in use, and those that the next marker row brings. After reset lanes 0 to 7 carry the stream and lane 8 is the spare (02
R18). -/
structure Line where
  words : Nat := 0
  scram : Table (BitVec 58) := []
  map : Nat := 0x76543210
  epoch : Nat := 0
  next : Option (Nat × Nat) := none
deriving DecidableEq, Repr

/-- A packet of a local bus port (08 Table 08-3). -/
structure Pkt where
  op : Nat
  cls : Nat := 0
  spec : Bool := false
  len : Nat := 0
  sub : Nat := 0
  tag : Nat := 0
  addr : Nat := 0
  ctx : Nat := 0
  win : Nat := 0
  aux : Nat := 0
  data : List Byte := []
deriving DecidableEq, Repr

/-- A packet waiting at a port's egress: its source, if its request has a party that waits for it, its window timeout in
strokes, the context whose outstanding C0 write it ends (07 R166), the host context it came from, its tag where it
is sent again after RETRY_LATER, the number of the routed frame it is a segment of, the member a
routed item came from (10 R242). -/
structure Egr where
  pkt : Pkt
  src : Option ReqSrc := none
  tmo : Nat := 0
  c0 : Bool := false
  host : Option Nat := none
  tag : Option Nat := none
  frame : Option Nat := none
  origin : Option Nat := none
deriving DecidableEq, Repr

/-- A request issued to a local agent and not answered. -/
structure Req where
  tag : Nat
  pkt : Pkt
  src : ReqSrc
  tmo : Nat
  issued : Stroke
  retry : Bool := false
deriving DecidableEq, Repr

/-- A block of a port's prefetch buffer (08 R203). -/
structure PfBlock where
  c : Nat
  w : Nat
  off : Nat
  laddr : Nat
  data : List Byte
  came : Stroke
  used : Stroke
deriving DecidableEq, Repr

/-- The bytes of a stranded-read entry, and which of them are served (08 R204, R205). -/
structure Stranded where
  e : Nat
  c : Nat
  w : Nat
  off : Nat
  laddr : Nat
  since : Stroke
  data : List Byte
  served : List Nat
deriving DecidableEq, Repr

/-- An upstream read of a local agent under way: its tag, context, class, host address, length, the upstream writes it
may not pass (those numbered below `after` in the cadence), the translations it keeps, how far its requests are issued, the bytes that have come,
the pieces still awaited and the code of the first failing piece. -/
structure UpRead where
  tag : Nat
  c : Nat
  cls : Nat
  addr : Nat
  len : Nat
  after : Nat
  pages : Pages := none
  next : Nat := 0
  got : List (Nat × List Byte) := []
  pend : Nat := 0
  fail : Option Nat := none
deriving DecidableEq, Repr

/-- A frame whose EOF has not come (10 R237): FRAME_INFO, the route of its SOF, the bytes held, dropped or not, and how
many bytes have come. -/
structure FrameIn where
  info : Nat
  route : Nat
  data : List Byte
  dropped : Bool
  size : Nat := 0
deriving DecidableEq, Repr

/-- A local bus port beside its registers (08). Credits are in the order BND, P, NP, RSP: `cred` what the device may
still send, `seen` the agent's freed counts last taken, `freed` what the device has freed and not signalled, `told` the
counts it last signalled. `errAt` is the stroke of the last link error; `outFrame` and `routedFrame` name the frame whose
SOF has left and whose EOF has not, of a descriptor or by the number and FRAME_INFO of a routed one; `rframes` the routed frames
still coming in, by source member, link and class, with their numbers. -/
structure Lb where
  since : Stroke := 0
  released : Stroke := 0
  initSent : Bool := false
  initRcvd : Bool := false
  txSeq : Nat := 0
  rxSeq : Nat := 0
  cred : List Nat := [0, 0, 0, 0]
  seen : List Nat := [0, 0, 0, 0]
  freed : List Nat := [0, 0, 0, 0]
  told : List Nat := [0, 0, 0, 0]
  agent : List Nat := [0, 0, 0, 0]
  held : List (Nat × Pkt × Stroke) := []
  replay : List (Nat × Pkt) := []
  naks : List Nat := []
  errOut : Bool := false
  errAt : Option Stroke := none
  lastNak : Option Stroke := none
  egress : List Egr := []
  reqs : List Req := []
  quar : List Nat := []
  frame : Option FrameIn := none
  outFrame : Option DKey := none
  routedFrame : Option (Nat × Nat) := none
  rframes : List ((Nat × Nat × Nat) × Nat) := []
  bndSent : List Stroke := []
  lint : List (Nat × Nat × Stroke) := []
  lintWait : List (Nat × Nat × Stroke) := []
  ups : List UpRead := []
  pf : List PfBlock := []
  srb : List Stranded := []
deriving DecidableEq, Repr

/-- A host read being served (06 R147 and 08 R202 apart): the function, the BAR (2 or 4), where and how long it is,
the pieces to be asked of the agent, whether its window prefetches, the pieces that have come, how many are still
awaited, the first failing piece and its outcome. -/
structure HRead where
  id : Nat
  c : Nat
  bar : Nat
  w : Nat
  port : Nat
  laddr : Nat
  off : Nat
  len : Nat
  cls : Nat
  tmo : Nat
  c0 : Bool := false
  todo : List (Nat × Nat) := []
  apt : Nat := 0
  spec : Bool := false
  got : List (Nat × List Byte) := []
  pend : Nat := 0
  fail : Option (Nat × Nat) := none
deriving DecidableEq, Repr

/-- What an item of the cadence moves (07 Table 07-2). -/
inductive Work where
  /-- A host posted write to window `w`: sequence number, window offset, port, local address, WRITE_ACKED or not. -/
  | hostWrite (c w seq off port laddr tmo : Nat) (acked c0 : Bool) (data : List Byte)
  /-- The request of host read `id`. -/
  | hostRead (id : Nat)
  /-- The response data of host read `id`. -/
  | hostData (id : Nat)
  /-- A host write to BAR4: its number among the function's BAR4 writes, the aperture it was checked against. -/
  | staged (c n apt off : Nat) (data : List Byte)
  /-- A packet of a descriptor for a local port. -/
  | descLocal (port : Nat) (e : Egr)
  /-- A message of a descriptor for a peer. -/
  | descPeer (k : DKey) (off len : Nat) (m : UMsg)
  /-- Destination bytes of a descriptor for host memory. -/
  | descHost (k : DKey) (off : Nat) (addr : Addr) (data : List Byte)
  /-- Destination bytes of a descriptor for an aperture. -/
  | descDur (k : DKey) (off apt at_ : Nat) (data : List Byte)
  /-- A speculative read. -/
  | spec (port : Nat) (e : Egr)
  /-- An upstream write of a port: tag where acked; the translations it keeps. -/
  | upWrite (port c : Nat) (tag : Option Nat) (addr : Addr) (pages : Pages) (data : List Byte)
  /-- The answer of an upstream read. -/
  | upData (port tag : Nat) (data : List Byte)
  /-- A peer's request on an aperture. -/
  | peerDur (m : UMsg) (apt : Nat)
  /-- Mirror copy `n`. -/
  | mirror (n : Nat)
  /-- A message toward a link: a response, a forwarded message, or what a routed item becomes at its member. -/
  | message (m : UMsg)
  /-- A routed item of the message bridge. -/
  | routed (id : Nat)
deriving DecidableEq, Repr

/-- An item waiting for slots (07 R158, R165). `tgt` is 0 to 3 for a port, 4 to 7 for a link, 8 for the store, 9 for
the host link. -/
structure Item where
  id : Nat
  up : Bool
  ctx : Nat
  cls : Nat
  tgt : Nat
  left : Nat
  since : Stroke
  host : Bool := false
  first : Bool := false
  work : Work
deriving DecidableEq, Repr

/-- The cadence scheduler beside its registers (07): waiting items, deficits and round-robin pointers by direction, class
and context, the sixteen lists of the table aperture in its order, the stroke of a commit's GO, whether a C0 request
was demoted in this stroke (R166), host time, and the leader's last stroke marker (R157). -/
structure Cad where
  items : List Item := []
  nextId : Nat := 0
  deficit : Table Nat := []
  ptr : Table Nat := []
  lists : Table (List (BitVec 8)) := []
  commitAt : Option Stroke := none
  demotedNow : Bool := false
  anchor : Stroke := 0
  ptmErr : Int := 0
  ptmGood : Nat := 0
  ptmFails : Nat := 0
  slipAt : Option Stroke := none
  mark : Option Stroke := none
  leader : Option Nat := none
deriving DecidableEq, Repr

/-- A mailbox command that passed tests 1 to 6 (16 R473) and has not been completed: a number of its own, the mailbox,
its stamp, its opcode, its argument bytes, whether it came with FWD for another member, the core that runs it.
`ranked` once the stroke of its stamp has ended (R395); `dropped` where its result is discarded (R396, R400). -/
structure Cmd where
  id : Nat
  mb : Nat
  stamp : Stroke
  op : Nat
  args : List Byte := []
  fwd : Bool := false
  ranked : Bool := false
  core : Option Nat := none
  dropped : Bool := false
deriving DecidableEq, Repr

/-- The long operation of a group (16 R399): its opcode, the mailbox that ordered it, STATE, CODE and PERCENT of the OP
word. -/
structure LongOp where
  op : Nat := 0
  mb : Nat := 0
  state : Nat := 0
  code : Nat := 0
  pct : Nat := 0
deriving DecidableEq, Repr

/-- A command sent to another member (16 R411): the command's number, the member, the transaction number, the link it
left on, whether its last fragment is acknowledged, and the result bytes that have come. -/
structure FwdOut where
  id : Nat
  member : Nat
  txn : Nat
  link : Nat
  acked : Bool := false
  next : Nat := 0
  got : List Byte := []
deriving DecidableEq, Repr

/-- A request of another member (16 R412): the link and transaction, whether the board controller ordered it, the next
fragment expected, the bytes that have come, the stroke its last fragment came. -/
structure FwdIn where
  link : Nat
  txn : Nat
  originB : Bool := false
  next : Nat := 0
  got : List Byte := []
  whole : Option Stroke := none
deriving DecidableEq, Repr

/-- Mailboxes beside their registers (16): the next command number, the long operations of the store and firmware
groups, the commands forwarded from here, the requests that come in, and for those passing through, the links they go
between. -/
structure Mbx where
  cmdNo : Nat := 0
  store : LongOp := {}
  fw : LongOp := {}
  txn : Nat := 0
  out : List FwdOut := []
  got : List FwdIn := []
  cur : Option FwdIn := none
  relay : List (Nat × Nat × Nat) := []
deriving DecidableEq, Repr

/-- One translation held in the ATS cache (20 Table 20-5). -/
structure AtsEntry where
  idx : Nat
  ctx : Nat
  iova : Addr
  ta : Addr
  log2 : Nat
  r : Bool
  w : Bool
  u : Bool
  n : Bool
  g : Bool
  used : Stroke
  hits : Nat
deriving DecidableEq, Repr

/-- Which access asked for a translation (04 R86, Table 04-7): a side of a descriptor, an upstream read or write of a
port, the descriptor fetch of a queue pair, an entry the device itself writes for a context. -/
inductive AtsFor where
  | desc (k : DKey) (dst : Bool)
  | up (port rtag : Nat)
  | upWrite (item : Nat)
  | fetch (c q : Nat)
  | entry (c : Nat)
deriving DecidableEq, Repr

/-- What an outstanding non-posted request of the device serves (04 R82). -/
inductive TagUse where
  /-- A host read of a descriptor: `len` bytes from `off` in its range. -/
  | desc (k : DKey) (off len : Nat)
  /-- A piece of an upstream read of a local agent: port, its tag, offset and length. -/
  | up (port rtag off len : Nat)
  /-- A fetch read of a queue pair whose completion did not come. -/
  | fetch (q : Nat)
  /-- A Translation Request for a page. -/
  | ats (page : Addr) (who : AtsFor)
deriving DecidableEq, Repr

/-- An outstanding tag of the device: the context it serves, its use, whether its request was abandoned, when it was issued,
whether its request timed out and the tag is retired (Table 04-7), and whether a squash abandoned it, so that it is no longer the
context's (05 R119). -/
structure HostTag where
  ctx : Nat
  use : TagUse
  quarantined : Bool
  issued : Stroke
  retired : Bool := false
  squashed : Bool := false
deriving DecidableEq, Repr

/-- An Invalidation Request that waits for its completion (04 R87): its tag, function, address, log2 of its size, and when it
came. -/
structure AtsInval where
  itag : Nat
  ctx : Nat
  iova : Addr
  log2 : Nat
  since : Stroke
deriving DecidableEq, Repr

/-- What waits in the receive buffers of the host link: a request of the host that is not processed yet, or the answer to one
that was. -/
inductive RxWhat where
  | req (i : Instr)
  | ans (l : List Out)
deriving DecidableEq, Repr

/-- An entry of the receive buffers (04 R88; 17 R423): its number among the cadence's items, its function, the stroke of its
receipt, whether it came from Rest entry to the end of Rest exit. -/
structure RxReq where
  id : Nat
  c : Nat
  at_ : Stroke
  rest : Bool
  what : RxWhat
deriving DecidableEq, Repr

/-- The host link beside its registers (04). `partW`, `partV` and `partFlit` are what the partner supports, `lanes` those
that pass; `fec` counts corrected FEC symbols below the unit of HL_ERR_CNT; `lowUse` the strokes in a row of upward use below
L0P_UTIL (R92); `sub` the L1 substate, 1 for L1.1 and 2 for L1.2 (04 Table 04-1); `rx` the receive buffers, oldest first. -/
structure Hl where
  partW : Nat := 0
  partV : Nat := 0
  partFlit : Bool := false
  lanes : BitVec 16 := 0xFFFF
  fec : Nat := 0
  lowUse : Nat := 0
  sub : Nat := 0
  rx : List RxReq := []
  down : Option Stroke := none
  downReset : Bool := false
  hot : Bool := false
  drsOwed : Bool := false
  recClear : Option Stroke := none
  ats : List AtsEntry := []
  atsSeq : Table Nat := []
  inval : List AtsInval := []
  tags : List (Nat × HostTag) := []
  pfBar2 : Nat := 14
  pfBar4 : Nat := 16
  vfBar2 : Nat := 8
  vfBar4 : Nat := 10
  vfEnable : Bool := false
  numVfs : Nat := 0
  ari : Bool := false
  vfMse : Bool := false
  vfWaitFrs : Bool := false
  ptmEn : Bool := false
  ptmWait : Option Stroke := none
  aspmL1 : Bool := false
  cfg : Table Word := []
deriving DecidableEq, Repr

/-- Which of the four kinds of durable write a write is (11 R251). -/
inductive WrSrc where
  /-- A host posted write to BAR4: function and number among its BAR4 writes. -/
  | host (c n : Nat)
  /-- A piece of a descriptor's destination. -/
  | desc (k : DKey) (len : Nat)
  /-- A MIRROR_WRITE of a partner: the link it came on and the message. -/
  | mirror (link : Nat) (m : UMsg)
  /-- A write of a peer's request. -/
  | peer (link : Nat) (m : UMsg)
deriving DecidableEq, Repr

/-- A durable write that waits for admission. -/
structure Wr where
  src : WrSrc
  apt : Nat
  off : Nat
  data : List Byte
deriving DecidableEq, Repr

/-- A mirror copy not yet acknowledged: its number, aperture, unit, the write it copies (none for a resync copy), its
message and when it was sent. -/
structure MirrorOut where
  n : Nat
  apt : Nat
  unit : Nat
  src : Option WrSrc
  msg : UMsg
  sent : Option Stroke := none
deriving DecidableEq, Repr

/-- A PRESERVE record (11 R266): the stroke of entry, the cause, the units flushed, DS_BUDGET and DS_HOLDUP. -/
structure PresRecord where
  at_ : Stroke
  cause : Nat
  flushed : Nat
  mib : Nat
  mj : Nat
deriving DecidableEq, Repr

/-- What NAND says of an aperture while no boot has recovered the store: number, UNITS, mirrored, UNCLEAN, and whether its partner held
it current (11 R269). -/
structure AptRecord where
  apt : Nat
  units : Nat
  mirrored : Bool
  unclean : Bool
  current : Bool := false
deriving DecidableEq, Repr

/-- A tandem pairing as the store records it over a reset (14 R360): the local context, its PEL_TANDEM word, the generation, and the
mirrored aperture, the home's own or the standby one. -/
structure PairRec where
  ctx : Nat
  word : Word
  gen : Nat
  apt : Nat
deriving DecidableEq, Repr

/-- The durable store beside its registers (11). Aperture bytes are keyed aperture × 2^40 + offset; units are
(aperture, index) pairs. `mem` is what a read returns, `nand` what the last confirmed flush left; `dirty` and `clean` are
the units in the write cache, oldest first; `flushing` those written to a stripe and not confirmed; `bitmap` the change
bitmaps; `keys` the wrapped aperture keys by generation; `standby` the standby apertures by local context;
`gens` the generations of mirrored apertures (14 R356); `units` the units written since their aperture's creation (R260); `pairs` the
pairings of an earlier boot, not yet compared (14 R362); `back` the units that a cut PRESERVE lost here and the partner holds current,
and `backFor` the home contexts whose partner copies them back (R269); `dramKey` the number of the DRAM key pair in use (R259);
`recovered` once this boot has recovered the store; `stop` how the last use of it stopped (1 halted, 2 cut, 3 no record); the
host writes discarded by the last PRESERVE and its duration;
`errs` the corrected DRAM errors (channel, rank, device, stroke) and `failed` the devices marked failed. -/
structure Store where
  mem : Table Byte := []
  nand : Table Byte := []
  dirty : List (Nat × Nat) := []
  clean : List (Nat × Nat) := []
  flushing : List (Nat × Nat) := []
  lost : List (Nat × Nat) := []
  bad : List (Nat × Nat) := []
  bitmap : List (Nat × Nat) := []
  wait : List Wr := []
  copies : List MirrorOut := []
  copyNo : Nat := 0
  full : Bool := false
  keyGen : Nat := 0
  keys : Table Nat := []
  standby : Table (Option Nat) := []
  superseded : List Nat := []
  gens : Table Nat := []
  units : List (Nat × Nat) := []
  pairs : List PairRec := []
  back : List (Nat × Nat) := []
  backFor : List (Nat × Nat) := []
  dramKey : Nat := 0
  journalAttached : List Nat := []
  presDirty : List (Nat × Nat) := []
  soloDue : List Nat := []
  cfgMib : Nat := 64
  cfgMj : Nat := 530
  presAt : Option Stroke := none
  presCause : Nat := 0
  presFlushed : Nat := 0
  record : Option PresRecord := none
  ctxRecord : Table (List Byte) := []
  ctxRecordWritten : Bool := false
  formatted : Bool := true
  recovered : Bool := false
  stop : Nat := 0
  catalog : List AptRecord := []
  presDisc : Nat := 0
  presTime : Nat := 0
  errs : List (Nat × Nat × Nat × Stroke) := []
  failed : List (Nat × Nat × Nat) := []
deriving DecidableEq, Repr

/-- A stripe (12 R286): the LUN and block of each member, none once that block was erased or its program failed; which member carries
parity; the units on it, each with its member; whether the parity member is confirmed, without which the stripe does not count as
written; how many of its members are missing because their program failed (R298). -/
structure Stripe where
  members : List (Option (Nat × Nat))
  parity : Nat
  units : List (Nat × (Nat × Nat))
  closed : Bool
  failed : Nat := 0
deriving DecidableEq, Repr

/-- The media engine beside its registers (12): stripes and how many were written; P/E counts, and page sets programmed since the last
erase, by LUN × 65,536 + block; blocks of a LUN; retired blocks, blocks marked for refresh, blocks whose erase is ordered; units flushed
since the last format and unit places programmed for them and for relocations; LUNs lost in an earlier boot, SPARE_PCT, whether a rescan
was cut short, whether a rebuild runs (1) or cannot (2), and whether the free blocks outside the reserve are exhausted. -/
structure Media where
  stripes : List Stripe := []
  count : Nat := 0
  pe : Table Nat := []
  fill : Table Nat := []
  blocks : Nat := 0
  retired : List (Nat × Nat) := []
  marked : List (Nat × Nat) := []
  erasing : List (Nat × Nat) := []
  flushed : Nat := 0
  progs : Nat := 0
  gone : List Nat := []
  spare : Nat := 100
  rescan : Bool := false
  reb : Nat := 0
  worn : Bool := false
deriving DecidableEq, Repr

/-- A routed item of the message bridge (10 R233 to R242): the port it entered on, its kind (1 FRAME, 2 MSG, 3 SIDEBAND),
its ID and FRAME_INFO, its payload, the route entry it keeps, its acceptance stroke, the number of its cadence item,
whether that item has its slots, and whether it passed the tests of R239 and holds a completion index. -/
structure RItem where
  id : Nat
  port : Nat
  kind : Nat
  ident : Nat
  info : Nat
  data : List Byte
  route : Nat
  at_ : Stroke
  ready : Bool := false
  tested : Bool := false
deriving DecidableEq, Repr

/-- A level change in progress (17 R418, R419): the effective level it goes to, who ordered it as CAD_LEVEL_LOG codes it,
the PERF_SET command, the ordered level, thermal cap or firmware level it brings, R, B, the next VID step, and how it went
at B. -/
structure LevelChange where
  target : Nat
  src : Nat
  cmd : Option Nat := none
  ordered : Option Nat := none
  cap : Option Nat := none
  fw : Option Nat := none
  r : Stroke
  b : Stroke
  vidAt : Option Stroke := none
  switched : Bool := false
  refused : Bool := false
deriving DecidableEq, Repr

/-- A power order of firmware's own, given in the stroke that runs (17 R417, R421): a level, or Freewheel. -/
inductive FwOrder where
  | level (l : Nat)
  | sleep
deriving DecidableEq, Repr

/-- A transaction of Table 16-14 as the SMBus target takes it; `go` stands for an MBX_WRITE that reaches MBX_DOORBELL.GO. -/
inductive SmbReq where
  | regRead (a : Word)
  | regWrite (pec : Bool) (a v : Word)
  | mbxWrite (pec : Bool) (off : Nat) (data : List Byte)
  | mbxRead (off len : Nat)
  | attn
  | go
deriving DecidableEq, Repr

/-- Performance levels, sleep and the kickstand domain beside their registers (17): the level firmware chose, a PERF_SET
that waits for its change (level, source, command), the change in progress; the thermal policy's last refresh, crossing,
last step, first refusal and cool refreshes; entry stroke E of the sleep state, whether its first step is taken, the
waking source not yet served and whether it came during entry, the state an exit leaves (1 Freewheel, 2 Rest), the end of
the last exit while cores are on the ring oscillator; the last stroke with a descriptor outstanding or a host TLP, and the last with
work or any TLP; how long `out` was at the last boundary, the phase of KS_SLOW in millionths of a cycle, and the GPIO
levels; firmware's own order of this stroke (R417), and the SMBus transaction that waits for Rest exit with its clock stretched (16
R414). -/
structure Pwr where
  fw : Nat := 0
  want : Option (Nat × Nat × Nat) := none
  chg : Option LevelChange := none
  refreshed : Option Stroke := none
  hot : Bool := false
  stepAt : Option Stroke := none
  refusedAt : Option Stroke := none
  cool : Nat := 0
  sleepAt : Stroke := 0
  begun : Bool := false
  wake : Option (Nat × Bool) := none
  leaving : Nat := 0
  ringAt : Option Stroke := none
  busyAt : Stroke := 0
  tlpAt : Stroke := 0
  outSeen : Nat := 0
  ksPhase : Nat := 0
  gpio : BitVec 16 := 0
  fwWant : Option FwOrder := none
  smbHeld : Option SmbReq := none
deriving DecidableEq, Repr

/-- A member's latest VIEW (14 Table 14-4). -/
structure View where
  epoch : Nat
  joined : Nat
  links : Nat
deriving DecidableEq, Repr

/-- A loss recognised here (14 R353): the member, when, and NOT_TANDEM where it was recognised by LEAVE. -/
structure Loss where
  member : Nat
  at_ : Stroke
  leave : Option (List Byte) := none
deriving DecidableEq, Repr

/-- The peloton block beside its registers (14): when the straps were sampled, whether JOIN was sent and a VIEW has named
this member, the stroke count to adopt, the latest views, LEAVEs accepted and losses recognised, what the last VIEW sent
said and when, links that carry no messages since a split, contexts made live in this stroke, hops from the leader; members that a
VIEW took out of JOINED before their loss was recognised here, with the JOINED of the last view that included them; while JOINING,
the leaders whose STROKE cells came, with the link; STATE messages that wait for the end of a firmware restart: member, STYPE, local
context, data (18 R441). -/
structure Pel where
  since : Stroke := 0
  joinSent : Bool := false
  named : Bool := false
  adopt : Option Stroke := none
  views : Table (Option View) := []
  leaves : List (Nat × List Byte) := []
  losses : List Loss := []
  viewAt : Stroke := 0
  saidLinks : Nat := 0
  saidEpoch : Nat := 0
  split : List Nat := []
  liveNow : Nat := 0
  hops : Nat := 0
  gone : List (Nat × Nat) := []
  heard : List (Nat × Nat) := []
  stateWait : List (Nat × Nat × Nat × List Byte) := []
deriving DecidableEq, Repr

/-- The test access port and the debug access port (19 R457 to R459): the instruction, the boundary register's update
stage, whether EXTEST (1), CLAMP (2) or HIGHZ (3) acts on the balls, what Capture-DR returns, and whether a GO came since the last TAP
reset (R459). -/
structure Tap where
  instr : Nat := 1
  cells : BitVec 2157 := 0
  drive : Nat := 0
  data : Word := 0
  denied : Bool := false
  gated : Bool := false
  opened : Bool := false
deriving DecidableEq, Repr

/-- A fused region entry as it leaves the factory (09 Tables 09-6 and 09-7): regions 0 and 1, the others unprogrammed. -/
def regionFused : Nat → BitVec 64 × BitVec 64
  | 0 => (0xE000011000011000, 0xE000011000011000)
  | 1 => (0xC008011010011010, 0xC008011010011010)
  | _ => (0, 0)

/-- The fuse array as far as the spec names its fields (09 R225, 14 R343, 16 R407, 19 R460): both copies of each region
entry, the debug policy, the subsystem IDs, the peloton identity, and which of the fields 0x01 to 0x04 are programmed:
region `i` counts as 16 + `i`. -/
structure Fuses where
  regions : Table (BitVec 64 × BitVec 64) := []
  policy : Word := 0
  subsys : Word := 0
  identity : List Byte := List.replicate 16 0
  marks : List Nat := []
deriving DecidableEq, Repr

/-- A firmware image: its release word, and its size and bytes; none of an image the card came with, which is taken to
pass the tests of R54 (log 92). Of a boot copy also the blocks of its range that it lies in (12 R299). -/
structure Image where
  rel : Word := 0
  body : Option (Nat × Table (Option Byte)) := none
  blocks : List Nat := []
deriving DecidableEq, Repr

/-- The blocks of the range of boot copy `k` without a factory bad-block mark, in order (12 R299). -/
def bootGood (k : Nat) : List Nat := (List.range 16).filter fun b => !Config.factoryBad k b

/-- A boot image copy as the card comes (log 92), in the first good blocks of its range. -/
def copyShipped (k : Nat) : Image := ⟨0x03020300, none, (bootGood k).take (max 1 Config.shippedBlocks)⟩

/-- Firmware images (16 R409, R410): the boot copies and the image that runs; of the staged image its
state (0 empty, 1 loading, 2 verified), size and bytes; trial boots, whether this boot is counted; of the long operation
under way the image it writes and the copies it has yet to write; the words of control-core SRAM. -/
structure Fw where
  copies : Table Image := []
  running : Image := {}
  sram : Table Word := []
  stage : Nat := 0
  size : Nat := 0
  bytes : Table (Option Byte) := []
  trials : Nat := 0
  counted : Bool := false
  src : Image := {}
  todo : List Nat := []
deriving DecidableEq, Repr

/-- The whole block. `pending` is the queue of waiting commands, first in, first out. -/
structure State where
  pending : List Instr := []
  out : List Out := []
  draws : Nat := 0
  now : Stroke := 0
  regs : Table Word := []
  banks : Table Word := []
  fns : Table Fn := []
  msix : Table MsixEntry := []
  pba : Table (BitVec 64) := []
  held : Table (BitVec 64) := []
  msixDue : List (Nat × Nat × Option Nat) := []
  irqStacks : Table (List (Nat × Nat)) := []
  holdLeft : Table Nat := []
  dev : Dev := {}
  flt : Flt := {}
  pfs : Pfs := {}
  ul : Table Ul := []
  lines : List Line := [{}, {}, {}, {}]
  deferred : List Deferred := []
  hl : Hl := {}
  ctxs : Table Ctx := []
  qps : Table Qp := []
  lbs : Table Lb := []
  hreads : List HRead := []
  cad : Cad := {}
  cmds : List Cmd := []
  inForce : Table Word := []
  ds : Store := {}
  ritems : List RItem := []
  med : Media := {}
  mbx : Mbx := {}
  pwr : Pwr := {}
  pel : Pel := {}
  tap : Tap := {}
  fuses : Fuses := {}
  fw : Fw := {}
deriving DecidableEq, Repr

/-- Why a command stops the machine. -/
inductive Fault where
  /-- Reserved for a command whose operands no sender can form; no meaning raises it (log 11). Safe: the block stops nowhere. -/
  | illFormed (mnemonic : String)
deriving DecidableEq, Repr

/-- Why a command has no meaning here. -/
inductive Refusal where
  /-- Reserved for a command that has no meaning in the model; every command has one (log 11). Safe: nothing is claimed of it. -/
  | notModelled (mnemonic : String)
deriving DecidableEq, Repr

/-- What every meaning answers. -/
abbrev Result := Host.Outcome State Fault Refusal

/-- The block after a cold power-on reset (03 R51, Table 03-3), SYS_RST_N still asserted: every register at the value
of its field map, no command waiting, nothing sent. Values the spec does not state are named in notes/assumptions. -/
def State.reset : State := {}

end Sys2Proof.Machine
end

