-- ==== Sys2Proof/Machine/LineCode.lean ====
section
/-! DEFINITION. Machine/LineCode.lean: the line code of a Ulirin transmitter: 66-bit blocks, the scrambler, the words of the
link stream on their lanes, IDLE words and marker rows (13 R304, R308, R309). -/
namespace Sys2Proof.Machine

/-! ## Blocks (13 R308, Table 13-3) -/

/-- A data block: 8 bytes of the link stream. -/
def dataBlock (b : List Byte) : Blk := ⟨1, BitVec.ofNat 64 (leAt b 0 8)⟩

/-- A control block: its type byte and 7 more bytes. -/
def controlBlock (b : List Byte) : Blk := ⟨2, BitVec.ofNat 64 (leAt b 0 8)⟩

/-- The IDLE block. -/
def idleBlock : Blk := controlBlock [0x1E]

/-- The data blocks of a unit, word by word. -/
def dataBlocks (unit : List Byte) : List Blk := (List.range (unit.length / 8)).map fun i => dataBlock (sliceBytes unit (8 * i) 8)

/-- The logical lane that a physical lane carries by a map, 0xF for one that carries none. -/
def logicalLane (map p : Nat) : Nat := ((List.range 8).find? fun j => bitsOf map (4 * j + 3) (4 * j) == p).getD 15

/-- The MARKER block of a physical lane: type, logical lane, physical lane, epoch, flags, zeros, check (13 Table 13-3). -/
def markerBlock (map epoch flags p : Nat) : List Byte :=
  leBytes 1 0x4B ++ leBytes 1 (logicalLane map p) ++ leBytes 1 p ++ leBytes 1 epoch ++ leBytes 1 flags ++ leBytes 2 0 ++
    leBytes 1 (logicalLane map p ^^^ p ^^^ epoch ^^^ flags)

/-! ## The scrambler x^58 + x^39 + 1 (IEEE 802.3 clause 49) -/

/-- One bit: the sent bit is the payload bit plus the bits sent 39 and 58 before. -/
def scrambleBit (b : Bool) (st : BitVec 58) : BitVec 58 × Bool :=
  let o := b ^^ st.getLsbD 38 ^^ st.getLsbD 57
  ((st <<< 1) ||| BitVec.ofNat 58 o.toNat, o)

/-- The 64 payload bits of a block, bit 0 first; the sync header is not scrambled. -/
def scramble (b : Blk) (st : BitVec 58) : BitVec 58 × Blk :=
  let r := (List.range 64).foldl (fun x i =>
    let y := scrambleBit (b.payload.getLsbD i) x.1
    (y.1, x.2 ||| (BitVec.ofNat 64 y.2.toNat <<< i))) (st, (0 : BitVec 64))
  (r.1, ⟨b.sync, r.2⟩)

/-! ## Rows -/

/-- Blocks as they leave: row since the last marker row, physical lane, scrambled block. -/
abbrev LaneBlocks := List (Nat × Nat × Blk)

/-- What a transmitter's line does not hold in State.lines: the link, its width W, the lane that carries IDLE as the spare. -/
structure LineWay where
  link : Nat
  width : Nat
  spare : Option Nat

/-- A block leaves on a physical lane. The state of a lane's scrambler before its first block is not stated (log 183). -/
def laneBlock (y : LineWay) (row p : Nat) (b : Blk) (x : Line × LaneBlocks) : Line × LaneBlocks :=
  let r := scramble b (tabGet (Config.ulSeed y.link) x.1.scram p)
  ({ x.1 with scram := (p, r.1) :: x.1.scram.filter fun e => e.1 != p }, x.2 ++ [(row, p, r.2)])

/-- The next word of the stream leaves: word w on logical lane w mod W of row w / W; with each row's first word the spare lane
carries an IDLE block. -/
def wordOut (y : LineWay) (x : Line × LaneBlocks) (b : Blk) : Line × LaneBlocks :=
  let w := x.1.words
  let lane := bitsOf x.1.map (4 * (w % y.width) + 3) (4 * (w % y.width))
  let x := match y.spare with
    | some p => if w % y.width = 0 then laneBlock y (w / y.width) p idleBlock x else x
    | none => x
  let x := if lane < 9 then laneBlock y (w / y.width) lane b x else x
  ({ x.1 with words := w + 1 }, x.2)

/-- Words of the stream leave, first to last. -/
def wordsOut (y : LineWay) (l : List Blk) (x : Line × LaneBlocks) : Line × LaneBlocks := l.foldl (wordOut y) x

/-- A marker row on all nine lanes, behind a row filled with IDLE; a map that waits is used from it on (13 R309, R313). -/
def markerOut (y : LineWay) (flags : Nat) (x : Line × LaneBlocks) : Line × LaneBlocks :=
  let x := wordsOut y (List.replicate ((y.width - x.1.words % y.width) % y.width) idleBlock) x
  let l := match x.1.next with | some (e, m) => { x.1 with epoch := e, map := m, next := none } | none => x.1
  let x := (List.range 9).foldl (fun x p => laneBlock y (l.words / y.width) p (controlBlock (markerBlock l.map l.epoch flags p)) x) (l, x.2)
  ({ x.1 with words := 0 }, x.2)

/-- A unit leaves behind IDLE words, how many is a matter of time that the model does not keep (`gap`, log 183). A marker row is due
`rows` rows after the last one: a unit in progress may delay it by at most 5 rows, so one that would delay it longer waits behind it
(13 R309). -/
def unitOut (y : LineWay) (rows flags gap : Nat) (unit : List Blk) (x : Line × LaneBlocks) : Line × LaneBlocks :=
  let due := (rows - 1) * y.width
  let x := wordsOut y (List.replicate (gap % (due - x.1.words + 1)) idleBlock) x
  wordsOut y unit
    (if due ≤ x.1.words ∨ due + 5 * y.width < x.1.words + unit.length then
      markerOut y flags (wordsOut y (List.replicate (due - x.1.words) idleBlock) x)
    else x)

end Sys2Proof.Machine
end

