-- ==== Sys2Proof/Machine/Ops.lean ====
section
/-! DEFINITION. Machine/Ops.lean: the named operations every meaning is built from: register fields, time, tables of
State, interrupt sources, error reports, the fault log, MSI-X triggers, photo-finish triggers. -/
namespace Sys2Proof.Machine

/-! ## Registers -/

/-- The stored value of the register at an address. -/
def State.word (s : State) (a : Nat) : Word := tabGet resetOf s.regs a

/-- The state with a register's stored value replaced. -/
def State.setWord (s : State) (a : Nat) (v : Word) : State := { s with regs := tabSet resetOf s.regs a v }

/-- The value of a field. -/
def State.get (s : State) (f : Field) : Nat := bitsOf (s.word f.addr).toNat f.hi f.lo

/-- The state with a field set, whatever its access type: what the hardware itself does to a register. -/
def State.set (s : State) (f : Field) (v : Nat) : State :=
  s.setWord f.addr (BitVec.ofNat 32 (withBits (s.word f.addr).toNat f.hi f.lo v))

/-- A one-bit field reads 1 (or a wider one is not 0). -/
def State.isSet (s : State) (f : Field) : Bool := s.get f != 0

/-- The largest value of a field. -/
def Field.max (f : Field) : Nat := 2 ^ (f.hi + 1 - f.lo) - 1

/-- A counter field stepped by `n`, saturating at its maximum (04 R101 and the other blocks). -/
def State.inc (s : State) (f : Field) (n : Nat) : State := s.set f (min f.max (s.get f + n))

/-- A counter field stepped down by `n`, not below 0. -/
def State.dec (s : State) (f : Field) (n : Nat) : State := s.set f (s.get f - n)

/-- A high-water mark raised to `v`. -/
def State.peak (s : State) (f : Field) (v : Nat) : State := if s.get f < v then s.set f (min f.max v) else s

/-- `f` applied where `c` holds. -/
def doIf (c : Bool) (f : State → State) (s : State) : State := if c then f s else s

/-- `f` applied for every element of a list, first element first. -/
def doAll {α : Type} (l : List α) (f : α → State → State) (s : State) : State := l.foldl (fun s a => f a s) s

/-- The next state of a meaning. -/
def done (s : State) : Result := .next s

/-! ## Time -/

/-- Bits [31:0] of the current stroke number. -/
def State.nowLo (s : State) : Nat := s.now.toNat % 2 ^ 32

/-- Bits [47:32] of the current stroke number. -/
def State.nowHi (s : State) : Nat := s.now.toNat / 2 ^ 32

/-- Strokes since stroke `t`, modulo 2^48 (07 R152). -/
def State.since (s : State) (t : Stroke) : Nat := (s.now - t).toNat

/-- `n` strokes have passed since a moment, if there was one. -/
def State.passed (s : State) (t : Option Stroke) (n : Nat) : Bool :=
  match t with
  | some t => decide (n ≤ s.since t)
  | none => false

/-- What takes effect at the boundary to come, which makes the change in its place. -/
def atBoundary (d : Deferred) (s : State) : State := { s with deferred := s.deferred ++ [d] }

/-! ## Output and free values -/

/-- Something leaves the block. -/
def emit (o : Out) (s : State) : State := { s with out := o :: s.out }

/-- The value the device draws next, which the spec leaves open (log 7). -/
def State.draw (s : State) : BitVec 64 := Config.drawn s.draws

/-- One value drawn. -/
def State.drewOne (s : State) : State := { s with draws := s.draws + 1 }

/-- The enabled bytes of four, lowest first (00 R7). -/
def enabledBytes (be : Nat) (l : List Byte) : List Byte := (l.zipIdx.filter fun x => bitOf be x.2).map (·.1)

/-! ## Mode -/

/-- The operating mode (03 DEV_MODE.MODE). -/
def State.mode (s : State) : Mode := Mode.ofCode (s.get Fld.DEV_MODE_MODE)

/-- Device-wide state updated. -/
def State.devUpd (s : State) (f : Dev → Dev) : State := { s with dev := f s.dev }

/-! ## Functions -/

/-- Function configuration at reset: the physical function exists, virtual functions are not enabled (04 R75, R80). -/
def fnReset (c : Nat) : Fn := { enabled := c == 0 }

/-- The configuration bits of a function. -/
def State.fn (s : State) (c : Nat) : Fn := tabGet fnReset s.fns c

/-- The state with a function's configuration bits changed. -/
def State.fnUpd (s : State) (c : Nat) (f : Fn → Fn) : State := { s with fns := tabSet fnReset s.fns c (f (s.fn c)) }

/-- An MSI-X table entry at reset: address and data 0, masked. -/
def msixReset (_ : Nat) : MsixEntry := {}

/-- Entry `v` of the MSI-X table of context `c`. -/
def State.msixAt (s : State) (c v : Nat) : MsixEntry := tabGet msixReset s.msix (c * 64 + v)

/-- Pending bits of a context's vectors. -/
def State.pbaOf (s : State) (c : Nat) : BitVec 64 := tabGet (fun _ => 0) s.pba c

/-- Vectors of a context held for D3hot (15 R383). -/
def State.heldOf (s : State) (c : Nat) : BitVec 64 := tabGet (fun _ => 0) s.held c

/-- The state with the pending bits of a context replaced. -/
def State.setPba (s : State) (c : Nat) (v : BitVec 64) : State := { s with pba := tabSet (fun _ => 0) s.pba c v }

/-- The state with the held marks of a context replaced. -/
def State.setHeld (s : State) (c : Nat) (v : BitVec 64) : State := { s with held := tabSet (fun _ => 0) s.held c v }

/-- The state with an MSI-X table entry replaced. -/
def State.setMsix (s : State) (c v : Nat) (e : MsixEntry) : State :=
  { s with msix := tabSet msixReset s.msix (c * 64 + v) e }

/-! ## Ulirin bypass cells -/

/-- A link at reset. -/
def ulReset (_ : Nat) : Ul := {}

/-- One Ulirin link. -/
def State.link (s : State) (k : Nat) : Ul := tabGet ulReset s.ul k

/-- The state with a link changed. -/
def State.linkUpd (s : State) (k : Nat) (f : Ul → Ul) : State := { s with ul := tabSet ulReset s.ul k (f (s.link k)) }

/-- The line of a link's transmitter. -/
def State.line (s : State) (k : Nat) : Line := s.lines.getD k {}

/-- The state with the line of a link's transmitter changed. -/
def State.lineUpd (s : State) (k : Nat) (f : Line → Line) : State := { s with lines := s.lines.set k (f (s.line k)) }

/-- W of a link, the way of its words, and the spare lane: at W = 8 the one lane in no logical lane, while it is healthy; before ACTIVE
every physical lane transmits (13 R304, R312, R313). -/
def lineWay (s : State) (k : Nat) : LineWay :=
  let map := (s.line k).map
  { link := k,
    width := if s.isSet (Fld.UL_STATUS_W4 k) then 4 else 8,
    spare := if s.isSet (Fld.UL_STATUS_SPARE_TX k) ∨ s.get (Fld.UL_STATUS_STATE k) ≠ 3 then (List.range 9).find? fun p => logicalLane map p == 15 else none }

/-- The rows from one marker row to the next, and the flags of such a row: in ACTIVE 1,024, before it 64 with TRAIN (13 R309,
Table 13-4). -/
def lineRows (s : State) (k : Nat) : Nat × Nat := if s.get (Fld.UL_STATUS_STATE k) = 3 then (1024, 0) else (64, 4)

/-- The blocks that `f` sends on a link's lanes leave. -/
def lineSend (k : Nat) (f : LineWay → Line × LaneBlocks → Line × LaneBlocks) (s : State) : State :=
  let r := f (lineWay s k) (s.line k, [])
  s.lineUpd k (fun _ => r.1) |> emit (.ulBlocks k r.2)

/-- The blocks of a unit leave. -/
def emitUnit (k : Nat) (unit : List Byte) (s : State) : State :=
  let r := lineRows s k
  s |> lineSend k (fun y => unitOut y r.1 r.2 s.draw.toNat (dataBlocks unit)) |>.drewOne

/-- The bypass types that are sequenced: SHIFT_REQ, LPM_REQ, LPM_ACK, PHOTO, PEER_MBX (13 Table 13-7). -/
def bypassSequenced (bt : Nat) : Bool := decide (9 ≤ bt ∧ bt ≤ 13)

/-! ## CRC-32C (13 R320) -/

/-- One bit of the reflected CRC-32C. -/
def crc32Bit (crc : BitVec 32) : BitVec 32 := if crc.getLsbD 0 then (crc >>> 1) ^^^ 0x82F63B78 else crc >>> 1

/-- One byte of the CRC-32C. -/
def crc32Byte (crc : BitVec 32) (b : Byte) : BitVec 32 :=
  (List.range 8).foldl (fun c _ => crc32Bit c) (crc ^^^ b.setWidth 32)

/-- The CRC-32C of a list of bytes. -/
def crc32c (l : List Byte) : BitVec 32 := l.foldl crc32Byte 0xFFFFFFFF ^^^ 0xFFFFFFFF

/-! ## Bypass cells (13 R315, R317) -/

/-- A bypass cell body of 24 bytes, unused bytes 0 (13 Table 13-6). -/
def bypassBody (b : List Byte) : List Byte := sliceBytes b 0 24

/-- The 32 bytes of a bypass cell (13 Table 13-6). -/
def bypassCell (bt : Nat) (seqd : Bool) (bseq back : Nat) (body : List Byte) : List Byte :=
  let b := leBytes 1 (32 + seqd.toNat) ++ leBytes 1 bseq ++ leBytes 1 back ++ leBytes 1 bt ++ bypassBody body
  b ++ leBytes 4 (crc32c b).toNat

/-- Bypass cells that a link sends in a stroke at most (13 R325, R326). -/
def bypassRoom (s : State) (k : Nat) : Nat := if s.isSet (Fld.UL_STATUS_W4 k) then 4 else 8

/-- A bypass cell must wait: for the next stroke, where the stroke's cells are sent in ACTIVE outside a shift; or for the end of
Park (13 R325, R326, R337). -/
def bypassWaits (s : State) (k : Nat) : Bool :=
  s.get (Fld.UL_STATUS_STATE k) == 3 &&
    (s.get (Fld.UL_STATUS_LPM k) == 2 ||
      (!s.isSet (Fld.UL_STATUS_SHIFT k) && (decide (bypassRoom s k ≤ (s.link k).bsent) || !(s.link k).blate.isEmpty)))

/-- A bypass cell leaves on the link now, with the BACK of now. -/
def bypassOut (k bt : Nat) (seqd : Bool) (bseq : Nat) (body : List Byte) (s : State) : State :=
  let c := bypassCell bt seqd bseq (s.link k).bexp body
  s.linkUpd k (fun l => { l with bsent := l.bsent + 1 }) |> emitUnit k c |> emit (.bypass k bt seqd bseq (s.link k).bexp c)

/-- A bypass cell that is due leaves, or waits. -/
def emitBypass (k bt : Nat) (seqd : Bool) (bseq : Nat) (body : List Byte) (s : State) : State :=
  if bypassWaits s k then s.linkUpd k fun l => { l with blate := l.blate ++ [(bt, seqd, bseq, body)] }
  else bypassOut k bt seqd bseq body s

/-- A bypass cell is sent: a sequenced one takes the next BSEQ and is held until acknowledged, and waits while 16 are
held (13 R317). -/
def sendBypass (k bt : Nat) (body : List Byte) (s : State) : State :=
  let l := s.link k
  if bypassSequenced bt then
    if l.bheld.length < 16 then
      (s.linkUpd k fun l =>
          { l with bseq := (l.bseq + 1) % 256, bheld := l.bheld ++ [⟨l.bseq, bt, bypassBody body, s.now, 0⟩] })
        |> emitBypass k bt true l.bseq body
    else s.linkUpd k fun l => { l with bwait := l.bwait ++ [(bt, body)] }
  else emitBypass k bt false 0 body s

/-- Bypass cells that waited leave, as many as the stroke takes, oldest first. -/
def sendLate (k : Nat) (s : State) : State :=
  if s.get (Fld.UL_STATUS_LPM k) = 2 then s
  else
    let late := (s.link k).blate
    let n := bypassRoom s k - (s.link k).bsent
    s.linkUpd k (fun l => { l with blate := late.drop n }) |> doAll (late.take n) (fun b => bypassOut k b.1 b.2.1 b.2.2.1 b.2.2.2)

/-- The links in ACTIVE (13 Table 13-4). -/
def State.activeLinks (s : State) : List Nat := [0, 1, 2, 3].filter (fun k => s.get (Fld.UL_STATUS_STATE k) == 3)

/-! ## Photo-finish triggers (19 R452 to R455) -/

/-- The body of a PHOTO cell (19 R454). -/
def photoBody (stroke : Stroke) (origin src num : Nat) : List Byte :=
  leBytes 6 stroke.toNat ++ leBytes 1 origin ++ leBytes 1 src ++ leBytes 2 num

/-- A trigger counted in PFS_STAT.MISSED (19 R455). -/
def pfsMissed (s : State) : State := s.inc Fld.PFS_STAT_MISSED 1

/-- A trigger of source bit `b` of Table 19-2 is recognised in the current stroke. With PFS_CTL.PEL 0 it latches at
the next boundary; with PEL 1 it is broadcast, once in a stroke, and latches PHOTO_LEAD strokes later; the cases of Table 19-3
decide what is missed. -/
def pfsTrigger (b : Nat) (s : State) : State :=
  if s.isSet Fld.PFS_CTL_PEL then
    let at_ : Stroke := s.now + BitVec.ofNat 48 (s.get Fld.PEL_CTL_PHOTO_LEAD)
    match s.pfs.pel with
    | some (t, src) =>
      if t = at_ ∧ ¬ s.isSet Fld.PFS_STAT_VALID ∧ src % 8 ≠ 0 then { s with pfs := { s.pfs with pel := some (t, orBit src b) } }
      else
        let num := s.pfs.trigNo
        let s := { s with pfs := { s.pfs with trigNo := (num + 1) % 65536, seen := (s.get Fld.DEV_STRAP_MEMBER_ID, num) :: s.pfs.seen } }
        let s := s |> doAll s.activeLinks (fun k => sendBypass k 12 (photoBody at_ (s.get Fld.DEV_STRAP_MEMBER_ID) (b + 1) num))
        if ¬ s.isSet Fld.PFS_STAT_VALID ∧ t = at_ then { s with pfs := { s.pfs with pel := some (t, orBit src b) } }
        else if ¬ s.isSet Fld.PFS_STAT_VALID ∧ (t - at_).toNat < 2 ^ 47 then { s with pfs := { s.pfs with pel := some (at_, 2 ^ b) } } |> pfsMissed
        else pfsMissed s
    | none =>
      let num := s.pfs.trigNo
      let s := { s with pfs := { s.pfs with trigNo := (num + 1) % 65536, seen := (s.get Fld.DEV_STRAP_MEMBER_ID, num) :: s.pfs.seen } }
      let s := s |> doAll s.activeLinks (fun k => sendBypass k 12 (photoBody at_ (s.get Fld.DEV_STRAP_MEMBER_ID) (b + 1) num))
      if s.isSet Fld.PFS_STAT_VALID || s.pfs.due.isSome then pfsMissed s
      else { s with pfs := { s.pfs with pel := some (at_, 2 ^ b) } } |>.set Fld.PFS_STAT_PEL_PENDING 1
  else if s.isSet Fld.PFS_STAT_VALID || s.pfs.pel.isSome then pfsMissed s
  else
    match s.pfs.due with
    | some (t, src) => { s with pfs := { s.pfs with due := some (t, orBit src b) } }
    | none => { s with pfs := { s.pfs with due := some (s.now + 1, 2 ^ b) } }

/-! ## MSI-X triggers (15 R379 to R383) -/

/-- The 48 wake-capable sources in the order of their wake bits (15 Table 15-5). -/
def wakeSources : List Nat :=
  [0, 1, 2, 3, 6, 7, 8, 9, 10, 12, 16, 17, 18, 19, 24, 25, 26, 27, 38, 40, 56, 72, 88, 53, 69, 85, 101] ++
  [104, 116, 128, 140, 105, 117, 129, 141, 113, 125, 137, 149, 276, 277, 278, 279, 280, 281, 284, 285, 286]

/-- The wake bit of a source, if it is wake-capable. -/
def wakeIndex (n : Nat) : Option Nat := wakeSources.findIdx? (· == n)

/-- A source's pending bit set (15 R366). -/
def setPending (n : Nat) (s : State) : State :=
  s.setWord (Adr.IC_PEND (n / 32)) (BitVec.ofNat 32 (orBit (s.word (Adr.IC_PEND (n / 32))).toNat (n % 32)))

/-- A source's pending bit cleared. -/
def clearPending (n : Nat) (s : State) : State :=
  s.setWord (Adr.IC_PEND (n / 32)) (BitVec.ofNat 32 (clearBit (s.word (Adr.IC_PEND (n / 32))).toNat (n % 32)))

/-- The device is powered down in Rest (17 Table 17-2, CRP_SLEEP.STATE 4). -/
def State.inRest (s : State) : Bool := s.get Fld.CRP_SLEEP_STATE == 4

/-- From the power-gating of Rest entry to the end of Rest exit: blocks are gated and the SMBus target stretches (18 Table 18-7; 16
R414). -/
def State.restGated (s : State) : Bool := s.inRest || (s.get Fld.CRP_SLEEP_STATE == 5 && s.pwr.leaving == 2)

/-- From Rest entry to the end of Rest exit: dealing stops, host requests wait (17 Tables 17-4 and 17-5). -/
def State.resting (s : State) : Bool :=
  s.get Fld.CRP_SLEEP_STATE == 3 || s.inRest || (s.get Fld.CRP_SLEEP_STATE == 5 && s.pwr.leaving == 2)

/-- Levels, sleep and kickstand state changed. -/
def State.pwrUpd (s : State) (f : Pwr → Pwr) : State := { s with pwr := f s.pwr }

/-- Bit `i` of the wake-enable bitmap. -/
def State.wakeBit (s : State) (i : Nat) : Bool :=
  if i < 32 then bitOf (s.get Fld.KS_WAKE_EN_LO_EN) i else bitOf (s.get Fld.KS_WAKE_EN_HI_EN) (i - 32)

/-- An edge of source `n` wakes the device: wake-capable, enabled, and no PRESERVE cause (17 R427). -/
def wakes (s : State) (n : Nat) : Bool :=
  match wakeIndex n with
  | some i => n != 0 && n != 3 && (s.wakeBit i || [1, 17, 18].contains n)
  | none => false

/-- A sleep state, or its entry. -/
def State.sleeps (s : State) : Bool := decide (1 ≤ s.get Fld.CRP_SLEEP_STATE ∧ s.get Fld.CRP_SLEEP_STATE ≤ 4)

/-- CRP_SLEEP.STATE. -/
def State.sleepState (s : State) : Nat := s.get Fld.CRP_SLEEP_STATE

/-- The sleep state that is in force or being entered: 1 Freewheel, 2 Rest. -/
def sleepKind (s : State) : Nat :=
  if s.sleepState = 1 ∨ s.sleepState = 2 then 1 else if s.sleepState = 3 ∨ s.sleepState = 4 then 2 else 0

/-- The edges the kickstand domain latched are merged into IC_PEND (15 R378). -/
def mergeLatched (s : State) : State :=
  let seen (i : Nat) : Bool :=
    if i < 32 then bitOf (s.word Adr.KS_WAKE_LATCH_LO).toNat i else bitOf (s.word Adr.KS_WAKE_LATCH_HI).toNat (i - 32)
  s |> doAll (((List.range 48).filter seen).filterMap fun i => wakeSources[i]?) setPending

/-- An exit from the sleep state in force, or being entered, starts. Out of Rest the latched edges are merged as the cores are released,
before any of them claims (15 R378, 17 Table 17-5). -/
def sleepExit (s : State) : State :=
  if s.sleeps then s.set Fld.CRP_SLEEP_STATE 5 |>.pwrUpd (fun p => { p with leaving := sleepKind s }) |> doIf s.inRest mergeLatched else s

/-- The first wake event of a sleep is noted, with whether it came during entry (17 R427, R428). -/
def noteWake (n : Nat) (s : State) : State :=
  if s.sleeps ∧ s.pwr.wake.isNone ∧ wakes s n then
    s.pwrUpd fun p => { p with wake := some (n, s.get Fld.CRP_SLEEP_STATE == 1 || s.get Fld.CRP_SLEEP_STATE == 3) }
  else s

/-- In Freewheel the cores serve a mailbox command without an exit (17 R429). -/
def servedAsleep (s : State) (n : Nat) : Bool := decide (284 ≤ n ∧ n ≤ 286) && decide (s.get Fld.CRP_SLEEP_STATE ≤ 2)

/-- A rising edge of source `n` reaches the controller: its pending bit is set, or in Rest the kickstand domain latches it, where it is a
source of Table 15-5: no other is raised then (15 R366, R378); it may wake the device (17 R427); a matched source triggers a photo-finish (19 R452). -/
def raiseEdge (n : Nat) (s : State) : State :=
  let s := doIf (!servedAsleep s n) (noteWake n) s
  let s :=
    if s.inRest then
      match wakeIndex n with
      | some i =>
        if i < 32 then s.setWord Adr.KS_WAKE_LATCH_LO (BitVec.ofNat 32 (orBit (s.word Adr.KS_WAKE_LATCH_LO).toNat i))
        else s.setWord Adr.KS_WAKE_LATCH_HI (BitVec.ofNat 32 (orBit (s.word Adr.KS_WAKE_LATCH_HI).toNat (i - 32)))
      | none => s
    else setPending n s
  s |> doIf (s.isSet Fld.PFS_CTL_MATCH_EN && s.get Fld.PFS_MATCH_SOURCE == n) (pfsTrigger 2)

/-- The number of backed MSI-X entries of a context (15 R379, 05 R107). -/
def State.vectorsOf (s : State) (c : Nat) : Nat := s.get (Fld.CTX_SHARE5_VECTORS c)

/-- One of a queue pair's event counters stepped, where a coalescing group triggered. -/
def countCqEvt (c : Nat) (q : Option Nat) (f : Nat → Nat → Field) (s : State) : State :=
  match q with
  | none => s
  | some q => s.inc (f c q) 1

/-- An MSI-X write is due: it leaves at the end of the stroke, after the entries that caused it; `q` is the queue pair whose
coalescing group triggered, if one did. -/
def sendMsix (c v : Nat) (q : Option Nat) (s : State) : State :=
  if (c, v, q) ∈ s.msixDue then s else { s with msixDue := s.msixDue ++ [(c, v, q)] }

/-- Triggers that are due and not sent are lost (15 R381): those that satisfy `p`. -/
def msixLose (p : Nat × Nat × Option Nat → Bool) (s : State) : State := { s with msixDue := s.msixDue.filter fun x => !p x }

/-- The steering tag that the MSI-X write of a vector carries: with TPH enabled in Interrupt Vector mode the low 8 bits of its
Steering Tag in Vector Control (04 Tables 04-1 and 04-4, 15 R379; log 181). -/
def steeringTag (s : State) (c v : Nat) : Option Nat :=
  let w := (tabGet (fun _ => 0) s.hl.cfg (c * 1024 + 0xAA)).toNat
  if bitsOf w 9 8 = 1 ∧ bitsOf w 2 0 = 1 then some (bitsOf (s.msixAt c v).ctl.toNat 23 16) else none

/-- An MSI-X write leaves the host link (15 R382). -/
def msixNow (c v : Nat) (s : State) : State :=
  s |> emit (.msix c v (s.msixAt c v).addr (s.msixAt c v).data (steeringTag s c v)) |>.inc Fld.EV_MSIX_CNT_SENT 1

/-- The LTSSM leaves L0: the link is in recovery (04 R74). -/
def leaveL0 (s : State) : State :=
  { s.set Fld.HL_LINK_STATUS_IN_RECOVERY 1 with hl := { s.hl with recClear := none } }

/-- The LTSSM is in L0 again: IN_RECOVERY reads 1 to the end of the second stroke after the return (04 R74). -/
def backToL0 (s : State) : State := { s with hl := { s.hl with recClear := some (s.now + 3) } }

/-- The LSTATE of a link that comes back to L0: one that L0p had narrowed is still narrow, in L0p (DESIGN CHOICE, log 207). -/
def l0State (s : State) : Nat := if s.get Fld.HL_LINK_STATUS_WIDTH < s.get Fld.HL_LINK_STATUS_TRAINED_WIDTH then 2 else 1

/-- The link leaves L1, and the substate it is in there (04 R93, Table 04-10). -/
def leaveL1 (s : State) : State :=
  if s.get Fld.HL_LINK_STATUS_LSTATE = 4 then
    { s.set Fld.HL_LINK_STATUS_LSTATE (l0State s) with hl := { s.hl with sub := 0 } } |> backToL0
      |> doIf (s.hl.sub != 0) (raiseEdge 24) |> raiseEdge 24
  else s

/-- A vector's PBA bit set. -/
def setPbaBit (c v : Nat) (s : State) : State := s.setPba c (s.pbaOf c ||| (1#64 <<< v))

/-- PME of a function is signalled: by message, in L2 by asserting HL_WAKE_N (04 R95). -/
def sendPme (c : Nat) (s : State) : State :=
  (if s.get Fld.HL_LINK_STATUS_LSTATE = 5 then s.devUpd fun d => { d with wake := true } else emit (.pme c) s)
    |>.inc Fld.EV_PME_PME_SENT 1 |>.fnUpd c fun f => { f with pmeAt := some s.now }

/-- PME as the paragraph after Table 15-7 states: a held trigger that finds PME_Status 0 sets it, and with PME_En 1
signals PME once. -/
def signalPme (c : Nat) (s : State) : State :=
  if (s.fn c).pmeStat then s
  else s.fnUpd c (fun f => { f with pmeStat := true }) |> doIf (s.fn c).pmeEn (sendPme c)

/-- While PME_Status and PME_En stay 1 the PME message is sent again after each PME service timeout of PCI Express, 100 ms
(PRESUMED, log 176). -/
def resendPme (c : Nat) (s : State) : State :=
  let f := s.fn c
  if f.pmeStat ∧ f.pmeEn ∧ s.isSet Fld.HL_LINK_STATUS_DL_UP ∧ s.get Fld.HL_LINK_STATUS_LSTATE ≠ 5 ∧
      s.passed f.pmeAt 200000 then sendPme c s
  else s

/-- The link is down, or a reset that takes it down is recognised (15 Table 15-7, row 1). -/
def State.linkLost (s : State) : Bool := !s.isSet Fld.HL_LINK_STATUS_DL_UP || s.dev.perst || s.hl.hot

/-- The held vectors of a context are held no longer (15 R383); EV_PME.HELD follows. -/
def dropHeld (c : Nat) (s : State) : State := s.dec Fld.EV_PME_HELD (popCount 64 (s.heldOf c).toNat) |>.setHeld c 0

/-- The function takes no MSI-X: it is in D3hot, or the link in L2/L3 Ready (15 Table 15-7, row 4). -/
def msixHeld (s : State) (c : Nat) : Bool := (s.fn c).d3 || s.get Fld.HL_LINK_STATUS_LSTATE == 5

/-- A trigger is held: PBA bit, held mark, PME (15 Table 15-7, row 4). -/
def holdMsix (c v : Nat) (q : Option Nat) (s : State) : State :=
  s |> doIf (! (s.heldOf c).getLsbD v) (·.inc Fld.EV_PME_HELD 1)
    |> setPbaBit c v
    |> (fun s => s.setHeld c (s.heldOf c ||| (1#64 <<< v)))
    |> (fun s => match q with | none => s | some q => s.set (Fld.CQ_EVT_STATUS_HELD c q) 1)
    |> signalPme c

/-- The MSI-X writes due leave the device, in the order of their triggers, those of one vector as one; what the link or the function
has become since decides by the rows of Table 15-7 (15 R382; 04 R472). While the link is in Recovery they wait for L0. -/
def msixOut (s : State) : State :=
  if s.get Fld.HL_LINK_STATUS_LSTATE = 3 ∧ s.isSet Fld.HL_LINK_STATUS_DL_UP then s
  else
    { s with msixDue := [] }
      |> doAll (s.msixDue.map fun x => (x.1, x.2.1)).eraseDups (fun x s =>
          if ¬ s.isSet Fld.HL_LINK_STATUS_DL_UP then s.inc Fld.EV_DROP_D3COLD 1
          else if msixHeld s x.1 then holdMsix x.1 x.2 none s
          else if ¬ (s.fn x.1).bme then setPbaBit x.1 x.2 s
          else s |> leaveL1 |> msixNow x.1 x.2)

/-- A trigger for vector `v` of context `c` is delivered by the first row of Table 15-7 whose condition holds; `q` is
the queue pair whose coalescing group triggered, if one did. -/
def trigger (c v : Nat) (q : Option Nat) (s : State) : State :=
  if s.linkLost then s.inc Fld.EV_DROP_D3COLD 1
  else if ¬ (s.fn c).msixEn then s.inc Fld.EV_DROP_DISABLED 1
  else if s.vectorsOf c ≤ v then s.inc Fld.EV_DROP_BEYOND 1
  else if msixHeld s c then s |> countCqEvt c q Fld.CQ_EVT_CNT_PBA |> holdMsix c v q
  else if ¬ (s.fn c).bme then setPbaBit c v s
  else if (s.fn c).fmask || (s.msixAt c v).ctl.getLsbD 0 then setPbaBit c v s |> countCqEvt c q Fld.CQ_EVT_CNT_PBA
  else
    s |> leaveL1
      |> sendMsix c v q
      |> countCqEvt c q Fld.CQ_EVT_CNT_SENT

/-- A context event bit (15 Table 15-6) becomes 1: the event vector is triggered when the bit was 0 and is enabled. -/
def ctxEvent (c b : Nat) (s : State) : State :=
  let st := s.get (Fld.CTX_EVT_STATUS_EVT c)
  if bitOf st b then s
  else
    s.set (Fld.CTX_EVT_STATUS_EVT c) (orBit st b)
      |> doIf (bitOf (s.get (Fld.CTX_EVT_EN_EN c)) b && s.isSet (Fld.CTX_EVT_CFG_EN c))
          (trigger c (s.get (Fld.CTX_EVT_CFG_VECTOR c)) none)

/-- A bit of MBX_BC_ATTN set (16 Table 16-15). -/
def bcAttn (f : Field) (s : State) : State := s.set f 1

/-- The sources that set CTX_EVT_STATUS.STORE (15 Table 15-6). -/
def storeSource (n : Nat) : Bool := decide (233 ≤ n ∧ n ≤ 238) || decide (240 ≤ n ∧ n ≤ 245)

/-- The sources that set CTX_EVT_STATUS.LINK (15 Table 15-6): 20, 36, PEL_VIEW, UL_DOWN and UL_FLUSH of any link. -/
def linkSource (n : Nat) : Bool := [20, 36, 8, 105, 117, 129, 141, 111, 123, 135, 147].contains n

/-- A source is raised (15 R366): its edge, the context events of the physical function that follow it (15 R380) and
the board controller's attention bits (16 Table 16-15). -/
def raise (n : Nat) (s : State) : State :=
  s |> raiseEdge n
    |> doIf (n == 4) (fun s => s |> ctxEvent 0 5 |> bcAttn Fld.MBX_BC_ATTN_MODE)
    |> doIf (storeSource n) (fun s => s |> ctxEvent 0 6 |> bcAttn Fld.MBX_BC_ATTN_STORE)
    |> doIf (linkSource n) (ctxEvent 0 7)
    |> doIf (n == 2 || n == 3) (bcAttn Fld.MBX_BC_ATTN_THERM)
    |> doIf (n == 8 || n == 9 || n == 10) (bcAttn Fld.MBX_BC_ATTN_PEL)

/-- A match of the device's SMBus address in Rest: source 285; with its wake bit at 1 the transaction waits for the exit with its clock
stretched, so that no other can come, with the bit at 0 it ends (16 R414). -/
def smbMatch (r : SmbReq) (s : State) : State :=
  if s.pwr.smbHeld.isSome then s
  else
    let woken : Bool := match wakeIndex 285 with | some i => s.wakeBit i | none => false
    raise 285 s |> doIf woken (·.pwrUpd fun p => { p with smbHeld := some r })

/-! ## Error reports (04 R91, Table 04-9) -/

/-- A message of an error report leaves, unless the function masks it. -/
def aerMessage (c b : Nat) (masked : Bool) (what : String) (s : State) : State :=
  doIf (!masked) (emit (.pcie c what b)) s

/-- A correctable error of function `c` with AER status bit `b` (log 8): ERR_COR unless masked, and HL_AER_COR. -/
def aerCor (c b : Nat) (s : State) : State :=
  s.fnUpd c (fun f => { f with aerCor := orBit f.aerCor b }) |> aerMessage c b (bitOf (s.fn c).corMask b) "ERR_COR" |> raise 28

/-- An uncorrectable error is logged: its status bit; the first that is not masked sets First Error Pointer and Header Log. -/
def aerLogged (c b : Nat) (h : AerHdr) (s : State) : State :=
  s.fnUpd c fun f =>
    let first : Bool := !bitOf f.uncMask b && f.fep.isNone
    { f with aerUnc := orBit f.aerUnc b, fep := if first then some b else f.fep, hdr := if first then h else f.hdr }

/-- The header of the TLP that an error report concerns; the model's commands carry none (log 149). -/
def State.tlpHdr (s : State) : AerHdr := .tlp s.draws

/-- An uncorrectable error with Advisory Non-Fatal where its severity is non-fatal (AER correctable bit 13): ERR_COR, else
ERR_FATAL, each unless masked; its source is 28, or 30 where fatal, or the one that Table 04-9 names for the case. -/
def aerAdvisoryOf (c b src : Nat) (h : AerHdr) (s : State) : State :=
  let f := s.fn c
  let s := aerLogged c b h s
  if bitOf f.uncSev b then
    aerMessage c b (bitOf f.uncMask b) "ERR_FATAL" s |> raise (if src = 28 then 30 else src)
  else
    s.fnUpd c (fun f => { f with aerCor := orBit f.aerCor 13 })
      |> aerMessage c 13 (bitOf f.uncMask b || bitOf f.corMask 13) "ERR_COR" |> raise src

/-- An advisory error that concerns a received TLP. -/
def aerAdvisory (c b src : Nat) (s : State) : State := aerAdvisoryOf c b src s.tlpHdr s.drewOne

/-- An uncorrectable error reported by its severity: ERR_FATAL and HL_AER_FATAL, or ERR_NONFATAL and HL_AER_NONFATAL, the
message unless masked. -/
def aerUnc (c b : Nat) (h : AerHdr) (s : State) : State :=
  let f := s.fn c
  let s := aerLogged c b h s
  if bitOf f.uncSev b then aerMessage c b (bitOf f.uncMask b) "ERR_FATAL" s |> raise 30
  else aerMessage c b (bitOf f.uncMask b) "ERR_NONFATAL" s |> raise 29

/-- An uncorrectable error that concerns a received TLP and is not advisory. -/
def aerTlp (c b : Nat) (s : State) : State := aerUnc c b s.tlpHdr s.drewOne

/-- Corrected Internal Error on the physical function: an absorbed single fault (01 R13). -/
def reportCie (s : State) : State := aerCor 0 14 s

/-- Uncorrectable Internal Error on the physical function: a fault outside the single-fault list (18 Table 18-1). -/
def reportUie (s : State) : State := aerUnc 0 22 .none s

/-- A degrading fault: DEGRADED set and Uncorrectable Internal Error (18 Table 18-1). -/
def reportDegraded (s : State) : State := s.set Fld.DEV_FAULT_STATUS_DEGRADED 1 |> reportUie

/-- Completer Abort with Advisory Non-Fatal (AER uncorrectable bit 15); the device builds the Header Log entry from the
BAR address of the first failing byte and the length (04 R91). -/
def reportAbort (c addr len : Nat) (s : State) : State := aerAdvisoryOf c 15 28 (.built c addr len) s

/-! ## Fault log (18 R447) -/

/-- An entry of code `code` with detail bytes from byte 8 is written; the oldest of 4,096 is overwritten. -/
def logEv (code : Nat) (detail : List Byte) (s : State) : State :=
  { s with flt := { s.flt with log := ((code, s.now, sliceBytes detail 0 24) :: s.flt.log).take 4096,
                               logged := s.flt.logged + 1 } }
    |>.set Fld.DEV_FAULT_LOG_VALID 1
    |>.set Fld.DEV_FAULT_LOG_CODE code
    |>.set Fld.DEV_FAULT_TS_STROKE_LO s.nowLo

/-! ## Mode causes and transitions (03 R60 to R63) -/

/-- A mode transition takes effect (03 R60): DEV_MODE, its stamp, source 4. -/
def modeTo (m : Mode) (cause : Nat) (s : State) : State :=
  s |>.set Fld.DEV_MODE_PREV (s.get Fld.DEV_MODE_MODE)
    |>.set Fld.DEV_MODE_MODE m.code
    |>.set Fld.DEV_MODE_CAUSE cause
    |>.set Fld.DEV_MODE_TS_LO_STROKE_LO s.nowLo
    |>.set Fld.DEV_MODE_TS_HI_STROKE_HI s.nowHi
    |> raise 4

/-- A cause is recognised in this stroke and waits for the boundary (03 R60, R63). -/
def addCause (c : ModeCause) (s : State) : State :=
  if c ∈ s.dev.causes then s else s.devUpd fun d => { d with causes := d.causes ++ [c] }

/-- An extraction order acts by mode (03 R61, R62): it starts a drain in STANDBY or SERVING, is held in BOOT and in
MAINTENANCE, and adds nothing in DRAINING or PRESERVE. -/
def orderExtract (c : ModeCause) (s : State) : State :=
  match s.mode with
  | .standby | .serving => addCause c s
  | .boot =>
    s.devUpd fun d => { d with heldOrder := true, heldEject := d.heldEject || c == .cardEject }
  | .maintenance => s.devUpd (fun d => { d with heldOrder := true }) |> addCause .heldOrder
  | .draining | .preserve => s

/-- PRESERVE is ordered with a cause: the kickstand sequencer starts it (03 R60); from PRESERVE itself nothing more
is ordered. -/
def orderPreserve (cause : Nat) (s : State) : State :=
  if s.mode = .preserve ∨ s.dev.presPend.isSome then s
  else s.devUpd fun d => { d with presPend := some cause, devResetAt := none }

/-- A fault stop is already under way: one ordered since the last system reset. -/
def faultStopRuns (s : State) : Bool := s.flt.stopRuns

/-- The fault stop (18 R438): STOP and its reason, log code 0x0013, Uncorrectable Internal Error, and PREPARE_EXTRACT,
which a sleeping device leaves its sleep state for (17 R428; DESIGN CHOICE, log 233). While a fault stop is already running it changes nothing. -/
def faultStop (reason : Nat) (s : State) : State :=
  if faultStopRuns s then s
  else
    s |>.set Fld.DEV_FAULT_STATUS_STOP 1
      |>.set Fld.DEV_FAULT_STATUS_STOP_REASON reason
      |> logEv 0x0013 (leBytes 1 reason)
      |> reportUie
      |> orderExtract .prepareExtract
      |> (fun s => { s with flt := { s.flt with stopRuns := true } })
      |> sleepExit

/-! ## Requests of the host (04 R88; 17 R421, R423) -/

/-- A posted write of a function waits in the cadence that was received before item `id`: a read may not pass it (04 R88). -/
def writesAhead (s : State) (c id : Nat) : Bool :=
  s.cad.items.any fun i => decide (i.id < id) &&
    match i.work with | .hostWrite d _ _ _ _ _ _ _ _ _ => d == c | .staged d _ _ _ _ => d == c | _ => false

/-- A request of function `c` to a register, or to its configuration space, waits for its turn: an earlier one of the function waits,
or an earlier posted write to a window or aperture (04 R88; log 206). -/
def hostBehind (s : State) (c : Nat) : Bool := (s.hl.rx.any fun e => e.c == c) || writesAhead s c s.cad.nextId

/-- A request received in stroke `t`, or an answer, of function `c` joins the receive buffers. -/
def rxHold (c : Nat) (t : Stroke) (rest : Bool) (w : RxWhat) (s : State) : State :=
  { s with hl := { s.hl with rx := s.hl.rx ++ [⟨s.cad.nextId, c, t, rest, w⟩] },
           cad := { s.cad with nextId := s.cad.nextId + 1 } }

/-- A request of function `c` that came in Rest is not processed yet. -/
def restHeld (s : State) (c : Nat) : Bool := s.hl.rx.any fun e => e.c == c && e.rest

/-- Host traffic is noted; it ends L1 (04 R93). -/
def hostHeard (s : State) : State := leaveL1 s |>.pwrUpd fun p => { p with busyAt := s.now, tlpAt := s.now }

/-- A TLP of the host that names function `c`, row `i`, with the effect `f`. From Rest entry to the end of the exit it is an edge of
source 24 and waits in the receive buffers, and those behind it wait too (17 R423, R429); none comes while the link is down or
shed. -/
def hostTlp (c : Nat) (i : Instr) (f : State → State) (s : State) : State :=
  if s.mode = .preserve ∨ ¬ s.isSet Fld.HL_LINK_STATUS_DL_UP then s
  else if s.resting then s |> raise 24 |> rxHold c s.now true (.req i)
  else if restHeld s c then s |> hostHeard |> rxHold c s.now false (.req i)
  else f (hostHeard s)

/-- A posted TLP of the host: while the staging buffer is full the link has no posted credit, and posted traffic of every
function stalls (11 R252): it is not received. -/
def hostPosted (c : Nat) (i : Instr) (f : State → State) (s : State) : State := if s.ds.full then s else hostTlp c i f s

/-- The effect of a request received in stroke `t` that is processed in its function's order of arrival (04 R88). -/
def inOrder (c : Nat) (t : Stroke) (i : Instr) (f : State → State) (s : State) : State :=
  if hostBehind s c then rxHold c t false (.req i) s else f s

/-- A completion of function `c` leaves behind the earlier posted writes of the function (04 R88). -/
def answerHost (c : Nat) (l : List Out) (s : State) : State :=
  if hostBehind s c then rxHold c s.now false (.ans l) s else doAll l emit s

/-- What is received in an earlier stroke takes effect with the stamps of its receipt (06 R130, 16 R391). -/
def stampedAs (t : Stroke) (f : State → State) (s : State) : State := { f { s with now := t } with now := s.now }

end Sys2Proof.Machine
end

