-- ==== Sys2Proof/Machine/Interrupts.lean ====
section
/-! DEFINITION. Machine/Interrupts.lean: the internal interrupt controller and the host events (15 R366 to R387). -/
namespace Sys2Proof.Machine

/-! ## Candidates, routing, claim -/

/-- The active stack of a core, top first: priority at claim and source (15 R374). -/
def State.stack (s : State) (c : Nat) : List (Nat × Nat) := tabGet (fun _ => []) s.irqStacks c

/-- The state with a core's stack replaced. -/
def State.setStack (s : State) (c : Nat) (l : List (Nat × Nat)) : State :=
  { s with irqStacks := tabSet (fun _ => []) s.irqStacks c l }

/-- A core is fenced (15 R373). -/
def State.coreFenced (s : State) (c : Nat) : Bool := s.isSet (Fld.IC_CORE_STATUS_FENCED c)

/-- A source is on some core's stack. -/
def icActive (s : State) (n : Nat) : Bool := [0, 1, 2, 3].any fun c => (s.stack c).any fun e => e.2 == n

/-- A source belongs to a hold-off group whose timer runs (15 R377); source 287 belongs to none. -/
def icHeldOff (s : State) (n : Nat) : Bool :=
  n != 287 && s.isSet (Fld.IC_SRC_CFG_HGEN n) && s.isSet (Fld.IC_HOLD_RUNNING (s.get (Fld.IC_SRC_CFG_HGRP n)))

/-- Pending bit of a source. -/
def State.isPending (s : State) (n : Nat) : Bool := bitOf (s.word (Adr.IC_PEND (n / 32))).toNat (n % 32)

/-- Enable bit of a source. -/
def State.isEnabled (s : State) (n : Nat) : Bool := bitOf (s.word (Adr.IC_EN (n / 32))).toNat (n % 32)

/-- A source is a candidate (15 R369): pending, enabled, not active, not held off. -/
def icCandidate (s : State) (n : Nat) : Bool :=
  s.isPending n && s.isEnabled n && !icActive s n && !icHeldOff s n

/-- The rank of a source among candidates: source 287 above every other, then by PRIO (15 R371). -/
def icRank (s : State) (n : Nat) : Nat := if n = 287 then 0 else s.get (Fld.IC_SRC_CFG_PRIO n) + 1

/-- A candidate may preempt the top of a core's stack under the core's split point (15 R372, R376), and the stack has
room for it (R375). -/
def icCanTake (s : State) (c n : Nat) : Bool :=
  !s.coreFenced c &&
  match s.stack c with
  | [] => true
  | (p, top) :: _ =>
    if n = 287 then true
    else
      decide ((s.stack c).length < 16) && top != 287 &&
        decide (s.get (Fld.IC_SRC_CFG_PRIO n) / 2 ^ s.get (Fld.IC_CORE_CFG_SPLIT c) < p / 2 ^ s.get (Fld.IC_CORE_CFG_SPLIT c))

/-- How urgent the top of a core's stack is: larger is less urgent, an empty stack least of all (15 R373). -/
def icTopUrgency (s : State) (c : Nat) : Nat :=
  match s.stack c with
  | [] => 512
  | (p, top) :: _ => if top = 287 then 0 else p + 1

/-- Among cores that can take a candidate, the one whose stack top is least urgent; ties go to the lowest core. -/
def icPickCore (s : State) (n : Nat) : Option Nat :=
  ([0, 1, 2, 3].filter fun c => icCanTake s c n).foldl
    (fun best c =>
      match best with
      | none => some c
      | some b => if icTopUrgency s b < icTopUrgency s c then some c else some b) none

/-- The core a candidate is routed to: none for any-of-four. Source 287 goes to the core whose end-of-interrupt write
failed; a source routed to a fenced core is treated as any-of-four (15 R373, R376). -/
def icTarget (s : State) (n : Nat) : Option Nat :=
  let t := if n = 287 then s.get Fld.IC_FAULT_LOG_CORE else s.get (Fld.IC_SRC_CFG_TARGET n)
  if t < 4 ∧ ¬ s.coreFenced t then some t else none

/-- A candidate is offered to core `c` (15 R372, R373, R375). -/
def icOffered (s : State) (c n : Nat) : Bool :=
  icCandidate s n &&
  match icTarget s n with
  | some t => t == c && icCanTake s c n
  | none => icPickCore s n == some c

/-- The source core `c` takes: lowest PRIO, then lowest source number (15 R372). -/
def icBest (s : State) (c : Nat) : Option Nat :=
  ((List.range 288).filter fun n => s.isPending n && icOffered s c n).foldl
    (fun best n =>
      match best with
      | none => some n
      | some b => if icRank s n < icRank s b then some n else some b) none

/-- The priority with which a source is pushed: its PRIO, 0 for source 287 (15 Table 15-10). -/
def icPrioOf (s : State) (n : Nat) : Nat := if n = 287 then 0 else s.get (Fld.IC_SRC_CFG_PRIO n)

/-- The hold-off timer of a claimed source's group starts, if the group has a hold-off (15 R377). -/
def icStartHold (n : Nat) (s : State) : State :=
  let g := s.get (Fld.IC_SRC_CFG_HGRP n)
  if n ≠ 287 ∧ s.isSet (Fld.IC_SRC_CFG_HGEN n) ∧ s.get (Fld.IC_HOLD_STROKES g) ≠ 0 then
    { s with holdLeft := tabSet (fun _ => 0) s.holdLeft g (s.get (Fld.IC_HOLD_STROKES g)) }.set (Fld.IC_HOLD_RUNNING g) 1
  else s

/-- The answer of IC_CLAIM (15 Table 15-11). -/
def icClaimWord (src : Option Nat) : Word :=
  match src with
  | none => 0x1FF
  | some n => BitVec.ofNat 32 (2 ^ 31 + n)

/-- Core `c` claims (15 R374); an edge of the claimed source in the same cycle sets its pending bit again. In Rest no core runs
(R378). -/
def icClaim (c : Nat) (edge : Bool) (s : State) : State × Word :=
  match (if s.inRest then none else icBest s c) with
  | none => (s, icClaimWord none)
  | some n =>
    ((s.setStack c ((icPrioOf s n, n) :: s.stack c)) |> clearPending n |> icStartHold n |> doIf edge (setPending n),
      icClaimWord (some n))

/-- A core's end of interrupt (15 R376). -/
def icEoi (c src : Nat) (s : State) : State :=
  match s.stack c with
  | (p, top) :: rest =>
    if top = src then s.setStack c rest
    else
      s |>.set Fld.IC_FAULT_LOG_VALID 1 |>.set Fld.IC_FAULT_LOG_CORE c |>.set Fld.IC_FAULT_LOG_WRITTEN src
        |>.set Fld.IC_FAULT_LOG_TOP top |>.set Fld.IC_FAULT_LOG_DEPTH ((p, top) :: rest).length
        |>.set Fld.IC_FAULT_TS_STROKE_LO s.nowLo |> raise 287
  | [] =>
    s |>.set Fld.IC_FAULT_LOG_VALID 1 |>.set Fld.IC_FAULT_LOG_CORE c |>.set Fld.IC_FAULT_LOG_WRITTEN src
      |>.set Fld.IC_FAULT_LOG_TOP 0x1FF |>.set Fld.IC_FAULT_LOG_DEPTH 0
      |>.set Fld.IC_FAULT_TS_STROKE_LO s.nowLo |> raise 287

/-- A core's stack is emptied and its sources are pending again (15 R373, 18 Table 18-6). -/
def icUnstack (c : Nat) (s : State) : State :=
  (s.setStack c []) |> doAll ((s.stack c).map Prod.snd) setPending

/-- The controller fences a core (15 R373). -/
def icFence (c : Nat) (s : State) : State := s.set (Fld.IC_CORE_STATUS_FENCED c) 1 |> icUnstack c

/-! ## Coalescing -/

/-- A coalescing group triggers: PENDING returns to 0 and the timer stops (15 R381). -/
def cqTrigger (c q : Nat) (s : State) : State :=
  s |>.set (Fld.CQ_EVT_STATUS_PENDING c q) 0
    |>.set (Fld.CQ_EVT_STATUS_TIMER_RUN c q) 0
    |>.set (Fld.CQ_EVT_STATUS_REMAIN c q) 0
    |> trigger c (s.get (Fld.CQ_EVT_CFG_VECTOR c q)) (some q)

/-- A qualifying entry of a queue pair is counted (15 R381). -/
def coalesce (c q : Nat) (s : State) : State :=
  if ¬ s.isSet (Fld.CQ_EVT_CFG_EN c q) then s
  else
    s.inc (Fld.CQ_EVT_STATUS_PENDING c q) 1
      |> doIf (!s.isSet (Fld.CQ_EVT_STATUS_TIMER_RUN c q) && s.get (Fld.CQ_EVT_CFG_TIME c q) != 0)
          (fun s => s.set (Fld.CQ_EVT_STATUS_TIMER_RUN c q) 1
            |>.set (Fld.CQ_EVT_STATUS_REMAIN c q) (s.get (Fld.CQ_EVT_CFG_TIME c q)))
      |> (fun s => if s.get (Fld.CQ_EVT_CFG_COUNT c q) ≤ s.get (Fld.CQ_EVT_STATUS_PENDING c q) then cqTrigger c q s else s)

/-- The coalescing group of a queue pair is cleared, and its trigger that is due and not sent is lost (15 R381, Table 05-9). -/
def cqClear (c q : Nat) (s : State) : State :=
  s |> msixLose (fun x => x.1 == c && x.2.2 == some q)
    |>.setWord (Adr.CQ_EVT_CFG c q) (resetOf (Adr.CQ_EVT_CFG c q))
    |>.setWord (Adr.CQ_EVT_STATUS c q) 0

/-- A write of CQ_EVT_CFG takes effect (15 R381): EN with a vector not backed is left 0; EN 0 stops the timer and
clears PENDING; a running timer is capped at the new TIME, and stops where TIME 0 leaves the count alone to trigger; a PENDING that meets the new COUNT triggers. COUNT 0 is a
reserved encoding and keeps its value. -/
def cqEvtApply (c q : Nat) (v : Word) (s : State) : State :=
  let n := v.toNat
  let vec := bitsOf n 29 24
  let en := bitOf n 31 && decide (vec < s.vectorsOf c)
  let s := s |>.set (Fld.CQ_EVT_CFG_VECTOR c q) vec
    |> doIf (bitsOf n 23 16 != 0) (·.set (Fld.CQ_EVT_CFG_COUNT c q) (bitsOf n 23 16))
    |>.set (Fld.CQ_EVT_CFG_TIME c q) (bitsOf n 15 0)
    |>.set (Fld.CQ_EVT_CFG_EN c q) en.toNat
  if ¬ en then
    s |>.set (Fld.CQ_EVT_STATUS_TIMER_RUN c q) 0 |>.set (Fld.CQ_EVT_STATUS_REMAIN c q) 0
      |>.set (Fld.CQ_EVT_STATUS_PENDING c q) 0
  else
    s |>.set (Fld.CQ_EVT_STATUS_REMAIN c q) (min (s.get (Fld.CQ_EVT_STATUS_REMAIN c q)) (bitsOf n 15 0))
      |> doIf (bitsOf n 15 0 == 0) (·.set (Fld.CQ_EVT_STATUS_TIMER_RUN c q) 0)
      |> (fun s =>
        if s.get (Fld.CQ_EVT_CFG_COUNT c q) ≤ s.get (Fld.CQ_EVT_STATUS_PENDING c q) then cqTrigger c q s else s)

/-! ## Held vectors -/

/-- A pending vector that nothing blocks (15 Table 15-7) loses its PBA bit and is sent by `f`. -/
def pendingVector (f : Nat → Nat → State → State) (c v : Nat) (s : State) : State :=
  if (s.pbaOf c).getLsbD v ∧ s.isSet Fld.HL_LINK_STATUS_DL_UP ∧ (s.fn c).msixEn ∧ (s.fn c).bme ∧ ¬ msixHeld s c ∧
      ¬ (s.fn c).fmask ∧ (s.msixAt c v).ctl.getLsbD 0 = false then
    (s.setPba c (s.pbaOf c &&& ~~~(1#64 <<< v))) |> f c v
  else s

/-- A pending vector that nothing blocks is sent with this stroke. -/
def sendPendingVector (c v : Nat) (s : State) : State := pendingVector (fun c v => sendMsix c v none) c v s

/-- At the boundary after the return to D0: every held vector that is not masked is sent, before any entry or delivery of the
function; HELD is cleared, and a masked one becomes an ordinary masked PBA bit (15 R384). -/
def d0Return (c : Nat) (s : State) : State :=
  if (s.fn c).d0due then
    let vs := (List.range 64).filter fun v => (s.heldOf c).getLsbD v
    dropHeld c s
      |> doAll (List.range 64) (fun q s => s.set (Fld.CQ_EVT_STATUS_HELD c q) 0)
      |> doAll vs (pendingVector msixNow c)
      |> (fun s => s.fnUpd c fun f => { f with d0due := false })
  else s

/-! ## Meanings -/

/-- Sources that no block owns: they are never raised (11 R275, Table 11-10). -/
def sourceReserved (n : Nat) : Bool := decide (164 ≤ n ∧ n ≤ 166)

/-- R366: a rising edge of a source. -/
def execSourceEdge (n : Fin 288) (s : State) : Result := done (doIf (!sourceReserved n) (raise n) s)

/-- R377: a hold-off timer expires: its members become candidates again. -/
def execHoldOffExpiry (g : Fin 32) (s : State) : Result :=
  done (if s.isSet (Fld.IC_HOLD_RUNNING g) ∧ tabGet (fun _ => 0) s.holdLeft g = 0 then s.set (Fld.IC_HOLD_RUNNING g) 0 else s)

/-- R368: stroke timer `t` has reached zero. -/
def execStrokeTimerExpiry (t : Fin 4) (s : State) : Result :=
  done (if s.isSet (Fld.IC_TMR_CTL_EN t) ∧ s.get (Fld.IC_TMR_CNT_REMAIN t) = 0 then
      (if s.isSet (Fld.IC_TMR_CTL_PERIODIC t) then s.set (Fld.IC_TMR_CNT_REMAIN t) (s.get (Fld.IC_TMR_CTL_PERIOD t))
        else s.set (Fld.IC_TMR_CTL_EN t) 0) |> raise (276 + t)
    else s)

/-- R368: the stroke counter reached IC_STROKE_CMP while EN was 1. -/
def execStrokeCompareMatch (s : State) : Result :=
  done (if s.isSet Fld.IC_STROKE_CMP_HI_EN ∧ s.get Fld.IC_STROKE_CMP_LO_STROKE_LO = s.nowLo ∧
      s.get Fld.IC_STROKE_CMP_HI_STROKE_HI = s.nowHi then s.set Fld.IC_STROKE_CMP_HI_EN 0 |> raise 280 else s)

/-- R380: a context event bit becomes 1; bits 1 to 7 exist on the physical function only. -/
def execContextEventSet (c : Fin 1024) (b : Fin 8) (s : State) : Result :=
  done (if b.val = 0 ∨ c.val = 0 then ctxEvent c b s else s)

/-- R381: a coalescing timer reached zero at a boundary. -/
def execCoalescingTimerExpiry (c : Fin 1024) (q : Fin 64) (s : State) : Result :=
  done (if s.isSet (Fld.CQ_EVT_STATUS_TIMER_RUN c q) ∧ s.get (Fld.CQ_EVT_STATUS_REMAIN c q) = 0 then cqTrigger c q s else s)

/-- A write of CQ_EVT_CFG waits for the next stroke boundary (15 R381). -/
def cqEvtWrite (c q : Nat) (v : Word) (s : State) : State :=
  doIf (s.fn c).enabled (fun s => { s with deferred := s.deferred ++ [.cqEvt c q v] }) s

/-- R381: a write of CQ_EVT_CFG. -/
def execCqEvtCfgWrite (c : Fin 1024) (q : Fin 64) (v : Word) (s : State) : Result :=
  done (hostPosted c (.cqEvtCfgWrite c q v) (inOrder c s.now (.cqEvtCfgWrite c q v) (cqEvtWrite c q v)) s)

/-- R383: a trigger for a vector is delivered as Table 15-7 gives. -/
def execMsixTriggerDelivery (c : Fin 1024) (v : Fin 64) (s : State) : Result := done (trigger c v none s)

/-- An entry's Mask bit is cleared; an entry that is not backed ignores it (15 R379, R383). -/
def unmask (c v : Nat) (s : State) : State :=
  if v < s.vectorsOf c then
    s.setMsix c v { s.msixAt c v with ctl := (s.msixAt c v).ctl &&& ~~~1#32 } |> sendPendingVector c v
  else s

/-- R379, R383: a write that clears an entry's Mask bit. -/
def execMsixVectorUnmask (c : Fin 1024) (v : Fin 64) (s : State) : Result :=
  done (hostPosted c (.msixVectorUnmask c v) (inOrder c s.now (.msixVectorUnmask c v) (unmask c v)) s)

/-- R384: the boundary after the return to D0. -/
def execD0Return (c : Fin 1024) (s : State) : Result := done (d0Return c s)

end Sys2Proof.Machine
end

