-- ==== Sys2Proof/Machine/Operands.lean ====
section
/-! DEFINITION. Machine/Operands.lean: the operand forms of a descriptor (06 R131, R132, Table 06-1 to 06-3) and the
check made when it is fetched (06 R135). A descriptor is its 64 bytes. -/
namespace Sys2Proof.Machine

/-- OPCODE, byte 0. -/
def Raw.opcode (r : Raw) : Nat := leAt r 0 1
/-- FLAGS, byte 1. -/
def Raw.flags (r : Raw) : Nat := leAt r 1 1
/-- CMPL: a completion entry is written for OK. -/
def Raw.cmpl (r : Raw) : Bool := bitOf r.flags 0
/-- EVT: the entry counts toward coalescing. -/
def Raw.evt (r : Raw) : Bool := bitOf r.flags 1
/-- FENCE_BEFORE. -/
def Raw.fenceBefore (r : Raw) : Bool := bitOf r.flags 2
/-- ONCE. -/
def Raw.once (r : Raw) : Bool := bitOf r.flags 3
/-- MIRROR. -/
def Raw.mirror (r : Raw) : Bool := bitOf r.flags 4
/-- CLASS, bits 1:0 of byte 2. -/
def Raw.cls (r : Raw) : Nat := bitsOf (leAt r 2 1) 1 0
/-- TAG, bytes 4 to 7. -/
def Raw.tag (r : Raw) : Nat := leAt r 4 4
/-- SRC, bytes 8 to 15. -/
def Raw.src (r : Raw) : Nat := leAt r 8 8
/-- DST, bytes 16 to 23. -/
def Raw.dst (r : Raw) : Nat := leAt r 16 8
/-- LENGTH, bytes 24 to 27. -/
def Raw.length (r : Raw) : Nat := leAt r 24 4
/-- SRC_KIND, bits 3:0 of byte 28. -/
def Raw.srcKind (r : Raw) : Nat := bitsOf (leAt r 28 1) 3 0
/-- DST_KIND, bits 7:4 of byte 28. -/
def Raw.dstKind (r : Raw) : Nat := bitsOf (leAt r 28 1) 7 4
/-- SRC_WIN, byte 29. -/
def Raw.srcWin (r : Raw) : Nat := leAt r 29 1
/-- DST_WIN, byte 30. -/
def Raw.dstWin (r : Raw) : Nat := leAt r 30 1
/-- PATTERN of FILL and VALUE of MARK, bytes 32 to 39. -/
def Raw.pattern (r : Raw) : List Byte := sliceBytes r 32 8
/-- PLEN of FILL, byte 40. -/
def Raw.plen (r : Raw) : Nat := leAt r 40 1
/-- SCOPE of FENCE, bit 0 of byte 32. -/
def Raw.scope (r : Raw) : Nat := bitsOf (leAt r 32 1) 0 0
/-- AOP of ATOMIC, byte 32. -/
def Raw.aop (r : Raw) : Nat := leAt r 32 1
/-- SIZE of ATOMIC, byte 33. -/
def Raw.size (r : Raw) : Nat := leAt r 33 1
/-- MSG_ID of SEND, bytes 32 and 33. -/
def Raw.msgId (r : Raw) : Nat := leAt r 32 2
/-- FRAME_INFO of FRAME_OUT, bytes 32 to 35. -/
def Raw.frameInfo (r : Raw) : Nat := leAt r 32 4
/-- WRITE of MARK, bit 0 of byte 40. -/
def Raw.markWrite (r : Raw) : Bool := bitOf (leAt r 40 1) 0

/-- Where the inline data of a descriptor begins: byte 32 of COPY, byte 36 of SEND, the OPERAND of ATOMIC. -/
def Raw.inlineAt (r : Raw) : Nat := if r.opcode = 6 then 36 else 32

/-- The global context of a kind-3 address, bits [60:48]. -/
def peerGctx (addr : Nat) : Nat := bitsOf addr 60 48
/-- The byte offset of a kind-3 address, bits [47:0]. -/
def peerOff (addr : Nat) : Nat := bitsOf addr 47 0

/-- The first byte of `lo … lo + n - 1` that is not 0: a reserved field is counted there (06 R135). -/
def Raw.nonZero (r : Raw) (lo n : Nat) : List Nat :=
  match (List.range n).find? fun i => leAt r (lo + i) 1 != 0 with
  | none => []
  | some i => [lo + i]

/-- `off` is an offending field where `bad` holds. -/
def offend (bad : Bool) (off : Nat) : List Nat := if bad then [off] else []

/-- Which of SRC, DST, their kinds and windows an opcode uses, and which kinds it permits (06 Table 06-3). -/
structure Form where
  srcKinds : List Nat
  dstKinds : List Nat
  usesSrc : Bool
  usesDst : Bool
  least : Nat
  most : Nat

/-- The forms of Table 06-3. -/
def formOf : Nat → Option Form
  | 0 => some ⟨[], [], false, false, 0, 0⟩
  | 1 => some ⟨[0, 1, 2, 3, 4], [0, 1, 2, 3], true, true, 0, 16777216⟩
  | 2 => some ⟨[4], [0, 1, 2, 3], true, true, 0, 16777216⟩
  | 3 => some ⟨[], [], false, false, 0, 0⟩
  | 4 => some ⟨[], [], false, false, 0, 0⟩
  | 5 => some ⟨[0, 4], [1, 3], true, true, 4, 8⟩
  | 6 => some ⟨[0, 4], [1, 3], true, true, 0, 256⟩
  | 7 => some ⟨[0], [1], true, true, 1, 9216⟩
  | 8 => some ⟨[], [0], false, true, 0, 0⟩
  | _ => none

/-- Offending fields of one side: the kind, the window byte and the address (06 Table 06-2). -/
def Raw.sideBad (r : Raw) (kind addr win kindsAt addrAt winAt : Nat) (uses : Bool) (kinds : List Nat) : List Nat :=
  if ¬ uses then offend (kind != 0) kindsAt ++ r.nonZero addrAt 8 ++ offend (win != 0) winAt
  else
    offend (!kinds.contains kind) kindsAt ++
      offend ((kind == 0 || kind == 2 || kind == 4) && win != 0) winAt ++
      (if kind = 4 then r.nonZero addrAt 8 else []) ++
      offend (kind == 3 && bitsOf addr 63 61 != 0) (addrAt + 7)

/-- Offending fields among bytes 32 to 63 (06 Table 06-3); what stands behind the inline data of a COPY or SEND is not
taken as reserved (DESIGN CHOICE, log 152). -/
def Raw.tailBad (r : Raw) : List Nat :=
  match r.opcode with
  | 1 => if r.srcKind = 4 then [] else r.nonZero 32 32
  | 2 => offend (!([1, 2, 4, 8].contains r.plen)) 40 ++ r.nonZero 41 23
  | 3 => offend (decide (1 < leAt r 32 1)) 32 ++ r.nonZero 33 31
  | 5 =>
    offend (decide (5 < r.aop)) 32 ++ offend (r.size != 4 && r.size != 8) 33 ++ r.nonZero 34 6 ++
      (if r.aop = 2 then [] else r.nonZero 48 8) ++ r.nonZero 56 8 ++
      offend ((r.size == 4 || r.size == 8) && r.dst % r.size != 0) 16
  | 6 =>
    offend (r.dstKind == 1 && r.dst != 0) 16 ++ offend (r.dstKind == 3 && peerOff r.dst != 0) 16 ++ r.nonZero 34 2 ++ (if r.srcKind = 4 then [] else r.nonZero 36 28)
  | 7 => offend (r.dst != 0) 16 ++ r.nonZero 36 28
  | 8 => offend (decide (1 < leAt r 40 1)) 40 ++ r.nonZero 41 23
  | _ => r.nonZero 32 32

/-- LENGTH lies outside Table 06-3; that of ATOMIC equals SIZE. -/
def Raw.lengthBad (r : Raw) (f : Form) : Bool :=
  (r.opcode != 5 && decide (r.length < f.least ∨ f.most < r.length)) ||
    (r.opcode == 1 && r.srcKind == 4 && decide (32 < r.length)) ||
    (r.opcode == 5 && r.length != r.size) ||
    (r.opcode == 6 && r.srcKind == 4 && decide (28 < r.length))

/-- The offset a MALFORMED completion reports, or none for a well-formed descriptor (06 R135): the lowest offset among
the offending fields, 0 for an unknown opcode. -/
def Raw.malformed (r : Raw) : Option Nat :=
  match formOf r.opcode with
  | none => some 0
  | some f =>
    (offend (decide (32 ≤ r.flags)) 1 ++ offend (r.mirror && !(f.usesDst && r.dstKind == 2 && f.dstKinds.contains 2)) 1 ++
      offend (decide (4 ≤ leAt r 2 1)) 2 ++ r.nonZero 3 1 ++
      r.sideBad r.srcKind r.src r.srcWin 28 8 29 f.usesSrc f.srcKinds ++
      r.sideBad r.dstKind r.dst r.dstWin 28 16 30 f.usesDst f.dstKinds ++
      offend (r.lengthBad f) 24 ++ r.nonZero 31 1 ++ r.tailBad).min?

/-- The bytes a FILL writes at offset `off`: PATTERN's first PLEN bytes, repeated from the destination's start. -/
def Raw.fillBytes (r : Raw) (off n : Nat) : List Byte :=
  (List.range n).map fun i => r.pattern.getD ((off + i) % max 1 r.plen) 0

/-- The completion status names of Table 06-5 that the model writes. -/
def stOk : Nat := 0
def stOkRetried : Nat := 1
def stAborted : Nat := 2
def stDenied : Nat := 4
def stTarget : Nat := 5
def stNoTarget : Nat := 6
def stTimeout : Nat := 7
def stLinkLost : Nat := 8
def stMedia : Nat := 9
def stOverShare : Nat := 0xA
def stReset : Nat := 0xB
def stUncertain : Nat := 0xC
def stNotRetried : Nat := 0xD
def stMoved : Nat := 0xE
def stMalformed : Nat := 0xF
def stPoisoned : Nat := 0x10

/-- DETAIL of a failing side: bit 31 is 1 for the destination (06 Table 06-5). -/
def sideDetail (dst : Bool) (low : Nat) : Nat := dst.toNat * 2 ^ 31 + low

/-- The completion status of a local response code (06 Table 06-5, 08 Table 08-5). -/
def statusOfResp : Nat → Nat
  | 0 => 0 | 2 => 0x10 | 3 => 6 | 5 => 0 | _ => 5

end Sys2Proof.Machine
end

