-- ==== Sys2Proof/Machine/Flags.lean ====
section
/-! DEFINITION. Machine/Flags.lean: status bits that the hardware computes from other state: the queue-pair status, the
context's occupancy and share flags, the cadence summaries, and the conditions under which the host link serves a
function. -/
namespace Sys2Proof.Machine

/-! ## Homes of the structured state -/

/-- A context at reset. -/
def ctxReset (_ : Nat) : Ctx := {}
/-- A context beside its registers. -/
def State.ctx (s : State) (c : Nat) : Ctx := tabGet ctxReset s.ctxs c
/-- The state with a context changed. -/
def State.ctxUpd (s : State) (c : Nat) (f : Ctx → Ctx) : State := { s with ctxs := tabSet ctxReset s.ctxs c (f (s.ctx c)) }

/-- A queue pair at reset. -/
def qpReset (_ : Nat) : Qp := {}
/-- Queue pair `q` of context `c` beside its registers. -/
def State.qp (s : State) (c q : Nat) : Qp := tabGet qpReset s.qps (c * 64 + q)

/-- A local bus port at reset. -/
def lbReset (_ : Nat) : Lb := {}
/-- A local bus port beside its registers. -/
def State.lb (s : State) (p : Nat) : Lb := tabGet lbReset s.lbs p
/-- The state with a port changed. -/
def State.lbUpd (s : State) (p : Nat) (f : Lb → Lb) : State := { s with lbs := tabSet lbReset s.lbs p (f (s.lb p)) }

/-- The cadence scheduler changed. -/
def State.cadUpd (s : State) (f : Cad → Cad) : State := { s with cad := f s.cad }

/-! ## Contexts (05 Table 05-2) -/

/-- The context's state code. -/
def State.cst (s : State) (c : Nat) : Nat := s.get (Fld.CTX_STATE_STATE c)

/-- IDLE or ACTIVE. -/
def State.live (s : State) (c : Nat) : Bool := s.cst c == 2 || s.cst c == 3

/-- Every context that holds anything. -/
def State.ctxIds (s : State) : List Nat := (List.range 1024).filter fun c => s.cst c != 0

/-- DESC_MAX of the record in force. -/
def State.descMax (s : State) (c : Nat) : Nat := s.get (Fld.CTX_SHARE4_DESC_MAX c)

/-- QP_MAX of the record in force. -/
def State.qpMax (s : State) (c : Nat) : Nat := s.get (Fld.CTX_SHARE4_QP_MAX c)

/-- The class weight of a context: class 0 to 3, downward or upward (05 Table 05-17). -/
def State.weight (s : State) (c : Nat) (up : Bool) (cls : Nat) : Nat :=
  match up, cls with
  | false, 0 => s.get (Fld.CTX_SHARE0_W_C0_DN c)
  | false, 1 => s.get (Fld.CTX_SHARE0_W_C1_DN c)
  | false, 2 => s.get (Fld.CTX_SHARE1_W_C2_DN c)
  | false, _ => s.get (Fld.CTX_SHARE1_W_C3_DN c)
  | true, 0 => s.get (Fld.CTX_SHARE2_W_C0_UP c)
  | true, 1 => s.get (Fld.CTX_SHARE2_W_C1_UP c)
  | true, 2 => s.get (Fld.CTX_SHARE3_W_C2_UP c)
  | true, _ => s.get (Fld.CTX_SHARE3_W_C3_UP c)

/-- A share field changed from `old` to `new` in its sum register, by the difference (05 R108). -/
def sumShift (f : Field) (old new : Nat) (s : State) : State := s.set f (s.get f + new - old)

/-- The seven share words written, the sums of the pools following them (05 R107, R108, Table 05-20). -/
def setShare (c : Nat) (w : List Word) (s : State) : State :=
  let n (i : Nat) : Nat := (w.getD i 0).toNat
  s |> sumShift Fld.CTX_POOL_C0_DN (s.weight c false 0) (bitsOf (n 0) 15 0)
    |> sumShift Fld.CTX_POOL_C1_DN (s.weight c false 1) (bitsOf (n 0) 31 16)
    |> sumShift Fld.CTX_POOL_C0_UP (s.weight c true 0) (bitsOf (n 2) 15 0)
    |> sumShift Fld.CTX_POOL_C1_UP (s.weight c true 1) (bitsOf (n 2) 31 16)
    |> sumShift Fld.CTX_POOL_QP_GRANTED (s.qpMax c) (bitsOf (n 4) 30 24)
    |> sumShift Fld.CTX_POOL_VEC_GRANTED (s.vectorsOf c) (bitsOf (n 5) 30 24)
    |> sumShift Fld.DS_CACHE_GRANTED_MIB (s.get (Fld.CTX_SHARE6_CACHE_MIB c)) (bitsOf (n 6) 31 16)
    |>.setWord (Adr.CTX_SHARE0 c) (w.getD 0 0) |>.setWord (Adr.CTX_SHARE1 c) (w.getD 1 0)
    |>.setWord (Adr.CTX_SHARE2 c) (w.getD 2 0) |>.setWord (Adr.CTX_SHARE3 c) (w.getD 3 0)
    |>.setWord (Adr.CTX_SHARE4 c) (w.getD 4 0) |>.setWord (Adr.CTX_SHARE5 c) (w.getD 5 0)
    |>.setWord (Adr.CTX_SHARE6 c) (w.getD 6 0)

/-- OVER_DESC follows the occupancy and DESC_MAX (05 R111, Table 05-14). -/
def updOverDesc (c : Nat) (s : State) : State :=
  s.set (Fld.CTX_STATE_OVER_DESC c) (decide (s.descMax c < s.get (Fld.CTX_OCC_OUTSTANDING c))).toNat

/-! ## Queue pairs (06 Tables 06-13 to 06-15) -/

/-- Depth of the submission ring. -/
def State.sqDepth (s : State) (c q : Nat) : Nat := 2 ^ s.get (Fld.QP_CFG_SQ_LOG2 c q)
/-- Depth of the completion ring. -/
def State.cqDepth (s : State) (c q : Nat) : Nat := 2 ^ s.get (Fld.QP_CFG_CQ_LOG2 c q)

/-- Outstanding descriptors of a queue pair: accepted ones not complete, and waiting completions (05 R107, 06 R139). -/
def Qp.outstanding (p : Qp) : Nat :=
  (p.descs.filter fun d => !d.surplus).length + (p.cpls.filter fun e => !e.surplus).length

/-- Distance from CQ_HEAD to CQ_TAIL. -/
def State.cqUsed (s : State) (c q : Nat) : Nat :=
  (s.get (Fld.QP_PTR_CQ_TAIL c q) + s.cqDepth c q - (s.qp c q).cqHead) % s.cqDepth c q

/-- The ring has no free slot (06 R139); a reserved index counts as used (10 R239). -/
def State.cqFull (s : State) (c q : Nat) : Bool := decide (s.cqDepth c q - 1 ≤ s.cqUsed c q + (s.qp c q).resv.length)

/-- CQ_FULL follows the ring; QM_CPL_STALL is raised and counted on entry to the full state (06 R139). -/
def updCqFull (c q : Nat) (s : State) : State :=
  if s.cqFull c q then
    if s.isSet (Fld.QP_STATUS_CQ_FULL c q) then s
    else s.set (Fld.QP_STATUS_CQ_FULL c q) 1 |>.inc Fld.QM_CPL_STALL_STALLS 1 |> raise 252
  else s.set (Fld.QP_STATUS_CQ_FULL c q) 0

/-- The state with a queue pair changed: OUTSTANDING, QUIESCED, the context's occupancy and OVER_DESC follow. -/
def State.qpUpd (s : State) (c q : Nat) (f : Qp → Qp) : State :=
  let old := s.qp c q
  let new := f old
  let s1 := { s with qps := tabSet qpReset s.qps (c * 64 + q) new }
  s1.set (Fld.QP_STATUS_OUTSTANDING c q) (min 65535 new.outstanding)
    |>.set (Fld.QP_STATUS_QUIESCED c q)
        (!s.isSet (Fld.QP_STATUS_EN_ACTIVE c q) && new.descs.isEmpty && new.cpls.isEmpty && new.resv.isEmpty).toNat
    |>.set (Fld.CTX_OCC_OUTSTANDING c) (s.get (Fld.CTX_OCC_OUTSTANDING c) + new.outstanding - old.outstanding)
    |> updOverDesc c

/-- One outstanding descriptor. -/
def State.desc? (s : State) (k : DKey) : Option Desc :=
  (s.qp k.c k.q).descs.find? fun d => d.slot == k.slot && d.gen == k.gen

/-- The state with one descriptor changed. -/
def State.descUpd (s : State) (k : DKey) (f : Desc → Desc) : State :=
  let p := s.qp k.c k.q
  let ds := p.descs.map fun d => if d.slot = k.slot ∧ d.gen = k.gen then f d else d
  { s with qps := tabSet qpReset s.qps (k.c * 64 + k.q) { p with descs := ds } }

/-! ## The host link and a function (04 R95, R472, R99) -/

/-- The data link layer is up and requests may be issued: from a down event to its end none is (04 R99). -/
def State.linkUp (s : State) : Bool := s.isSet Fld.HL_LINK_STATUS_DL_UP

/-- The device may issue memory requests for a function: link up, Bus Master Enable 1, D0, and no reset of the function
that has ended its host-link requests (04 R95, R472; 05 Table 05-8). -/
def State.hostOpen (s : State) (c : Nat) : Bool :=
  s.linkUp && (s.fn c).bme && !(s.fn c).d3 && !(s.fn c).d0due &&
    (match (s.ctx c).op with
      | some o => o.host || decide (s.since o.start ≥ 2 ^ 47)
      | none => true)

/-- The device serves no doorbell, window or aperture access: DRAINING (03 Table 03-7). -/
def State.draining (s : State) : Bool := s.mode == .draining

/-! ## Time comparisons (07 R152) -/

/-- Stroke `t` has come: comparisons are modulo 2^48 over half the range. -/
def State.reached (s : State) (t : Stroke) : Bool := decide (s.since t < 2 ^ 47)

end Sys2Proof.Machine
end

