-- ==== Sys2Proof/Machine/HostLink.lean ====
section
/-! DEFINITION. Machine/HostLink.lean: the host link's own state: training, capacity, recovery, power, readiness,
ATS cache (04 R70 to R97, R101). Requests that reach contexts and queues are in HostRequests.lean. -/
namespace Sys2Proof.Machine

/-- Host-link state updated. -/
def State.hlUpd (s : State) (f : Hl → Hl) : State := { s with hl := f s.hl }

/-- Slots per stroke at x16 in thousandths (04 R73, Table 04-2): the effective rate times 500 ns over 256 B; the rows
that the table leaves out follow by halving. -/
def slotBase : Nat → Nat
  | 6 => 236328 | 5 => 111718 | 4 => 55859 | 3 => 27929 | 2 => 13964 | 1 => 6982 | _ => 0

/-- The link slot capacity at a rate code and a width (04 R73). -/
def slotCap (speed width : Nat) : Nat := slotBase speed * width / 16000

/-- C0_SHORT follows the link slot capacity and the C0 reservations; HL_C0_SHORT is raised when it becomes 1 (04 R74). -/
def updC0Short (s : State) : State :=
  let short := decide (s.get Fld.HL_LINK_STATUS_SLOT_CAP < s.get Fld.CAD_RSV_DN_C0 ∨
    s.get Fld.HL_LINK_STATUS_SLOT_CAP < s.get Fld.CAD_RSV_UP_C0)
  let was := s.isSet Fld.HL_LINK_STATUS_C0_SHORT
  s.set Fld.HL_LINK_STATUS_C0_SHORT short.toNat |> doIf (short && !was) (raise 36)

/-- The widths a link may have. -/
def linkWidths : List Nat := [16, 8, 4, 2, 1]

/-- The widest width not above `a` and `b`. -/
def widestWidth (a b : Nat) : Nat := (linkWidths.find? fun w => decide (w ≤ a ∧ w ≤ b)).getD 0

/-- The widest width whose lanes all pass, from lane 0 up or from lane 15 down (04 R72). -/
def widthPassing (pass : BitVec 16) : Nat :=
  (linkWidths.find? fun w =>
    (List.range w).all (fun i => pass.getLsbD i) || (List.range w).all (fun i => pass.getLsbD (15 - i))).getD 0

/-- The link runs at a width and rate: the status fields and the slot capacity follow (04 R73). -/
def setLink (width speed : Nat) (s : State) : State :=
  s |>.set Fld.HL_LINK_STATUS_WIDTH width
    |>.set Fld.HL_LINK_STATUS_SPEED speed
    |>.set Fld.HL_LINK_STATUS_SLOT_CAP (slotCap speed width)
    |> updC0Short

/-- R72: the link trains to the highest rate and widest width that both ends and HL_LINK_CTL permit; `width`, `speed`
and `flit` are what the partner supports. The boot ROM enables the link once the PLLs are locked (03 R54); with STRAP TEST it does not train. -/
def execHlLinkUp (width : Fin 17) (speed : Fin 7) (flit : Bool) (s : State) : Result :=
  let w := widestWidth width (s.get Fld.HL_LINK_CTL_MAX_WIDTH)
  let v := if flit then min speed.val (s.get Fld.HL_LINK_CTL_MAX_SPEED) else min (min speed.val (s.get Fld.HL_LINK_CTL_MAX_SPEED)) 5
  done (if ¬ s.dev.rom ∨ ¬ s.dev.counting ∨ s.mode = .preserve ∨ s.isSet Fld.DEV_STRAP_TEST ∨ s.dev.perst ∨ w = 0 ∨ v = 0 ∨ s.isSet Fld.HL_LINK_STATUS_DL_UP ∨ s.hl.down.isSome then s
    else
      let oldW := s.get Fld.HL_LINK_STATUS_TRAINED_WIDTH
      let oldV := s.get Fld.HL_LINK_STATUS_SPEED
      s |>.hlUpd (fun h => { h with partW := width, partV := speed, partFlit := flit, lanes := 0xFFFF, lowUse := 0 })
        |>.devUpd (fun d => { d with wake := false })
        |> backToL0
        |>.set Fld.HL_LINK_STATUS_DL_UP 1
        |>.set Fld.HL_LINK_STATUS_FLIT flit.toNat
        |>.set Fld.HL_LINK_STATUS_LSTATE 1
        |>.set Fld.HL_LINK_STATUS_TRAINED_WIDTH w
        |> setLink w v
        |> raise 16
        |> doIf (oldW != 0 && oldW != w) (raise 20)
        |> doIf (oldV != 0 && oldV != v) (raise 21)
        |> doIf s.hl.drsOwed (emit (.pcie 0 "DRS" 0))
        |> (fun s => s.hlUpd fun h => { h with hot := false, drsOwed := false }))

/-- R72: lanes fail, `pass` are those that still pass, and the link retrains to the widest width whose lanes all pass (18 Table 18-2). -/
def execHlLaneFail (pass : BitVec 16) (s : State) : Result :=
  let old := s.get Fld.HL_LINK_STATUS_TRAINED_WIDTH
  let w := widestWidth (widthPassing pass) (s.get Fld.HL_LINK_CTL_MAX_WIDTH)
  done (if ¬ s.isSet Fld.HL_LINK_STATUS_DL_UP ∨ w = 0 ∨ old ≤ w then s
    else
      s |>.hlUpd (fun h => { h with lanes := pass })
        |>.set Fld.HL_LINK_STATUS_TRAINED_WIDTH w
        |> setLink w (s.get Fld.HL_LINK_STATUS_SPEED)
        |>.inc Fld.HL_ERR_CNT_WIDTH_DOWN 1
        |> raise 20
        |> logEv 0x0050 (leBytes 1 old ++ leBytes 1 w))

/-- R74: the LTSSM leaves L0. -/
def execHlRecoveryEntry (s : State) : Result :=
  done (if s.isSet Fld.HL_LINK_STATUS_DL_UP ∧ (s.get Fld.HL_LINK_STATUS_LSTATE = 1 ∨ s.get Fld.HL_LINK_STATUS_LSTATE = 2) then
      s |>.set Fld.HL_LINK_STATUS_LSTATE 3
        |> leaveL0
        |> raise 22
    else s)

/-- R74: the LTSSM returns to L0; IN_RECOVERY reads 1 to the end of the second stroke after the return. A width that L0p had narrowed
stays, which LSTATE shows as L0p (DESIGN CHOICE, log 207). -/
def execHlRecoveryExit (s : State) : Result :=
  done (if s.get Fld.HL_LINK_STATUS_LSTATE = 3 then
      s.set Fld.HL_LINK_STATUS_LSTATE (l0State s) |> backToL0
    else s)

/-- R53, R96: HL_PERST_N assertion is recognised. A down event that waits for its class becomes a host-link reset; so
does the assertion itself when the link is already down. -/
def execHlPerstAssertion (s : State) : Result :=
  done (if s.dev.perst then s
    else
      s.devUpd (fun d => { d with perst := true })
        |> raise 18
        |> (fun s => s.hlUpd fun h =>
            { h with downReset := true,
                     down := if h.down.isNone ∧ ¬ s.isSet Fld.HL_LINK_STATUS_DL_UP then some s.now else h.down }))

/-- R57: release of HL_PERST_N lets training begin. -/
def execHlPerstRelease (s : State) : Result :=
  done (s.devUpd (fun d => { d with perst := false })
    |> (fun s => s.hlUpd fun h => { h with downReset := h.downReset && h.down.isSome })
    |> doIf (!s.isSet Fld.HL_LINK_STATUS_DL_UP) (·.set Fld.HL_LINK_STATUS_LSTATE 0))

/-- The link has left L1 or L2, where it was in one (`low`), and the L1 substate it was in (04 Table 04-10). -/
def leftLow (low : Bool) (s : State) : State :=
  s |> doIf (s.hl.sub != 0) (fun s => s.hlUpd (fun h => { h with sub := 0 }) |> raise 24) |> doIf low (raise 24)

/-- R53: a hot reset or link disable is received; the down event that follows is a host-link reset. -/
def execHotResetReceived (s : State) : Result :=
  done (doIf (s.isSet Fld.HL_LINK_STATUS_DL_UP) (fun s =>
    let low : Bool := s.get Fld.HL_LINK_STATUS_LSTATE == 4 || s.get Fld.HL_LINK_STATUS_LSTATE == 5
    s.hlUpd (fun h => { h with hot := true }) |>.set Fld.HL_LINK_STATUS_LSTATE 6 |> leaveL0 |> leftLow low |> raise 19) s)

/-- Configuration requests of a function are served: it is enabled, and DRS or FRS is sent (04 R90). -/
def cfgOpen (s : State) (c : Nat) : Bool := (s.fn 0).ready && (s.fn c).enabled && (s.fn c).ready

/-- A BAR size: HL_BAR_RESIZE is raised where it changes (04 R100). -/
def barSize (vf bar4 : Bool) (log2 : Nat) (s : State) : State :=
  let was := match vf, bar4 with
    | false, false => s.hl.pfBar2 | false, true => s.hl.pfBar4 | true, false => s.hl.vfBar2 | true, true => s.hl.vfBar4
  s.hlUpd (fun h => match vf, bar4 with
      | false, false => { h with pfBar2 := log2 }
      | false, true => { h with pfBar4 := log2 }
      | true, false => { h with vfBar2 := log2 }
      | true, true => { h with vfBar4 := log2 }) |> doIf (was != log2) (raise 37)

/-- A function's configuration bits are replaced by a reset: HL_DSTATE and HL_BME where they change (04 R100). -/
def fnTo (c : Nat) (g : Fn → Fn) (s : State) : State :=
  let f := s.fn c
  s.fnUpd c g |> doIf (f.d3 && !(g f).d3) (raise 25) |> doIf (f.bme && !(g f).bme) (raise 38)

/-- A write of a size control: it takes effect only while Memory Space Enable, or VF Enable, is clear; sizes are powers of
two of 1 MiB to 16 GiB for BAR2 and 256 MiB to 64 GiB for BAR4 (04 R78, Table 04-5). -/
def barSizeWrite (vf bar4 : Bool) (log2 : Nat) (s : State) : State :=
  let legal := if bar4 then decide (8 ≤ log2 ∧ log2 ≤ 16) else decide (log2 ≤ 14)
  let open_ := if vf then !s.hl.vfEnable else !(s.fn 0).mse
  if cfgOpen s 0 && legal && open_ then barSize vf bar4 log2 s else s

/-- R78: a BAR size write. -/
def execBarSizeWrite (vf bar4 : Bool) (log2 : Fin 64) (s : State) : Result := 
  done (hostTlp 0 (.barSizeWrite vf bar4 log2) (inOrder 0 s.now (.barSizeWrite vf bar4 log2) (barSizeWrite vf bar4 log2)) s)

/-- Every pending vector of a function is sent if nothing blocks it now. -/
def sendPendingVectors (c : Nat) (s : State) : State := s |> doAll (List.range 64) (sendPendingVector c)

/-- R472, R59: Bus Master Enable of a function changes. Setting it lets pending vectors leave; the physical function's
change from 0 to 1 in STANDBY after DRS leads to SERVING. -/
def setBme (c : Nat) (v : Bool) (s : State) : State :=
  if (s.fn c).bme = v then s
  else
    s.fnUpd c (fun f => { f with bme := v })
      |> raise 38
      |> doIf v (sendPendingVectors c)
      |> doIf (v && c == 0 && s.dev.drs && s.mode == .standby) (fun s => s.devUpd fun d => { d with servingAt := some s.now })

/-- Bus Master Enable of a function is written. -/
def bmeWrite (c : Nat) (v : Bool) (s : State) : State := doIf (cfgOpen s c) (setBme c v) s

/-- R472: a write of Bus Master Enable. -/
def execBusMasterEnableWrite (c : Fin 1024) (v : Bool) (s : State) : Result :=
  done (hostTlp c (.busMasterEnableWrite c v) (inOrder c s.now (.busMasterEnableWrite c v) (bmeWrite c v)) s)

/-- R95: a PMCSR write moves a function between D0 and D3hot; the return to D0 is completed at the next boundary
(15 R384). Writing 1 to PME_Status clears it. -/
def setPmcsr (c : Nat) (d3 pmeEn clrStatus : Bool) (s : State) : State :=
  let was := (s.fn c).d3
  s.fnUpd c (fun f => { f with d3 := d3, pmeEn := pmeEn, pmeStat := f.pmeStat && !clrStatus && (d3 || !was),
                               d0due := f.d0due || (was && !d3) })
    |> doIf (was != d3) (raise 25)

/-- PMCSR of a function is written. -/
def pmcsrPut (c : Nat) (d3 pmeEn clrStatus : Bool) (s : State) : State := doIf (cfgOpen s c) (setPmcsr c d3 pmeEn clrStatus) s

/-- R95: a PMCSR write. -/
def execPmcsrWrite (c : Fin 1024) (d3 pmeEn clrStatus : Bool) (s : State) : Result :=
  done (hostTlp c (.pmcsrWrite c d3 pmeEn clrStatus)
    (inOrder c s.now (.pmcsrWrite c d3 pmeEn clrStatus) (pmcsrPut c d3 pmeEn clrStatus)) s)

/-- PME_Turn_Off is answered with PME_TO_Ack and the link enters L2/L3 Ready. -/
def turnOff (s : State) : State :=
  s |> emit (.pcie 0 "PME_TO_Ack" 0) |>.set Fld.HL_LINK_STATUS_LSTATE 5 |> leaveL0 |> raise 24

/-- R96: PME_Turn_Off. -/
def execPmeTurnOff (s : State) : Result := done (hostPosted 0 .pmeTurnOff turnOff s)

/-- The function that a request outside the supported set names. -/
def unsupportedFn : UnsupportedReq → Nat
  | .io fn | .locked fn | .atomic fn | .vendor0 fn | .poisoned fn | .ecrc fn => fn
  | .vendor1 => 0

/-- What a request outside the supported set gets (04 Tables 04-8 and 04-9). A vendor-defined message of type 0 is posted: no
completion answers it, and Unsupported Request is logged (log 150). -/
def unsupported (k : UnsupportedReq) (s : State) : State :=
  match k with
  | .io fn | .locked fn | .atomic fn => answerHost fn [.cpl fn 1 []] s
  | .vendor0 fn => aerTlp fn 20 s
  | .vendor1 => s
  | .poisoned fn => aerAdvisory fn 12 28 s
  | .ecrc fn => aerTlp fn 19 s

/-- R90: requests outside the supported set. -/
def execHostUnsupportedRequest (k : UnsupportedReq) (s : State) : Result :=
  done (match k with
    | .io _ | .locked _ | .atomic _ | .ecrc _ => hostTlp (unsupportedFn k) (.hostUnsupportedRequest k) (unsupported k) s
    | .vendor0 _ | .vendor1 | .poisoned _ => hostPosted (unsupportedFn k) (.hostUnsupportedRequest k) (unsupported k) s)

/-! ## ATS cache -/

/-- ATS cache entry `e` is filled or discarded: its SEQ steps (20 R470). -/
def atsBump (e : Nat) (s : State) : State :=
  s.hlUpd fun h => { h with atsSeq := tabSet (fun _ => 0) h.atsSeq e ((tabGet (fun _ => 0) h.atsSeq e + 1) % 256) }

/-- Cache entries that satisfy `p` are discarded. -/
def atsDiscard (p : AtsEntry → Bool) (s : State) : State :=
  let gone := s.hl.ats.filter p
  s.hlUpd (fun h => { h with ats := h.ats.filter (fun e => !p e) })
    |> doAll (gone.map (·.idx)) atsBump
    |> (fun s => s.set Fld.HL_ATS_STATUS_VALID s.hl.ats.length)

/-- The least recently used of some entries. -/
def atsOldest (s : State) (l : List AtsEntry) : Option AtsEntry :=
  l.foldl (fun best e => match best with
    | none => some e
    | some b => if s.since b.used < s.since e.used then some e else some b) none

/-- The lowest index no entry holds; an entry's position carries no meaning (20 R470, log 12). -/
def atsFree (s : State) : Nat :=
  ((List.range 4096).find? fun i => !(s.hl.ats.any fun e => e.idx == i)).getD 0

/-- The entry that translates an address of a context. -/
def atsLookup (s : State) (c : Nat) (iova : Addr) : Option AtsEntry :=
  s.hl.ats.find? fun e => e.ctx == c && e.iova.toNat / 2 ^ e.log2 == iova.toNat / 2 ^ e.log2

/-- A translation is used: its stroke of last use and its use count (20 Table 20-5). -/
def atsUse (c : Nat) (iova : Addr) (s : State) : State :=
  match atsLookup s c iova with
  | none => s
  | some e => s.hlUpd fun h =>
      { h with ats := h.ats.map fun x => if x.idx = e.idx then { x with used := s.now, hits := min 65535 (x.hits + 1) } else x }

/-- Each context keeps no more entries than HL_ATS_CTL.CTX_CAP: the least recently used go (04 R86). -/
def atsTrim (s : State) : State :=
  let newer (e x : AtsEntry) : Bool :=
    x.ctx == e.ctx && (decide (s.since x.used < s.since e.used) || (x.used == e.used && decide (x.idx < e.idx)))
  atsDiscard (fun e => decide (s.get Fld.HL_ATS_CTL_CTX_CAP ≤ (s.hl.ats.filter (newer e)).length)) s

/-- Room is made for one entry of a context: least recently used first, within the context at its cap, then across the
device (04 R86). -/
def atsMakeRoom (c : Nat) (s : State) : State :=
  let mine := s.hl.ats.filter fun e => e.ctx == c
  let s :=
    if s.get Fld.HL_ATS_CTL_CTX_CAP ≤ mine.length then
      (match atsOldest s mine with
        | some o => atsDiscard (fun e => e.idx == o.idx) s
        | none => s)
    else s
  if 4096 ≤ s.hl.ats.length then
    match atsOldest s s.hl.ats with
    | some o => atsDiscard (fun e => e.idx == o.idx) s
    | none => s
  else s

/-- A translation fills the cache (04 R86); HL_ATS_FULL is raised where the context has then reached its cap. -/
def atsFill (c : Nat) (iova ta : Addr) (log2 : Nat) (r w u n g : Bool) (s : State) : State :=
  let s := atsDiscard (fun e => e.ctx == c && e.iova == iova) s |> atsMakeRoom c
  let i := atsFree s
  s.hlUpd (fun h => { h with ats := h.ats ++ [⟨i, c, iova, ta, max 12 log2, r, w, u, n, g, s.now, 0⟩] })
    |> atsBump i
    |> (fun s => s.set Fld.HL_ATS_STATUS_VALID s.hl.ats.length)
    |> (fun s => doIf (decide (s.get Fld.HL_ATS_CTL_CTX_CAP ≤ (s.hl.ats.filter fun e => e.ctx == c).length)) (raise 33) s)

/-- A translation that an Invalidation Request for 2^log2 bytes names. -/
def invalNames (c : Nat) (iova : Addr) (log2 : Nat) (e : AtsEntry) : Bool :=
  e.ctx == c && e.iova.toNat / 2 ^ max log2 e.log2 == iova.toNat / 2 ^ max log2 e.log2

/-- The translations that an Invalidation Request names serve no further access, and it waits for those issued (04 R87). -/
def atsInvalidate (c : Nat) (iova : Addr) (log2 itag : Nat) (s : State) : State :=
  s.hlUpd (fun h => { h with inval := h.inval ++ [⟨itag, c, iova, log2, s.now⟩] })
    |>.inc Fld.HL_ATS_STATUS_INVAL_PEND 1
    |> atsDiscard (invalNames c iova log2)
    |> raise 32

/-- R87: an Invalidation Request. -/
def execAtsInvalidationRequest (c : Fin 1024) (iova : Addr) (log2 : Fin 65) (itag : Fin 32) (s : State) : Result :=
  done (hostPosted c (.atsInvalidationRequest c iova log2 itag) (atsInvalidate c iova log2 itag) s)

/-- A kept translation is one that an Invalidation Request names. -/
def AtsInval.names (e : AtsInval) (c : Nat) (kept : Pages) : Bool :=
  e.ctx == c && (kept.getD []).any fun x => x.1 * 4096 / 2 ^ max 12 e.log2 == e.iova.toNat / 2 ^ max 12 e.log2

/-- An access checked under a translation that an Invalidation Request names is still to be issued (04 R87, 09 R217). -/
def invalInUse (s : State) (e : AtsInval) : Bool :=
  (s.qps.any fun x => x.2.descs.any fun d => d.fail.isNone && (e.names (x.1 / 64) d.spages || e.names (x.1 / 64) d.dpages)) ||
    (s.lbs.any fun x => x.2.ups.any fun u => u.fail.isNone && decide (u.next < u.len) && e.names u.c u.pages) ||
    s.cad.items.any fun i => match i.work with | .upWrite _ c _ _ kept _ => e.names c kept | _ => false

/-- R87: the Invalidation Request with tag `itag` is completed: after every access that uses the invalidated translation has
been issued, and no later than 2 ms after it came (log 43). -/
def execAtsInvalidationComplete (itag : Fin 32) (s : State) : Result :=
  done (match s.hl.inval.find? fun e => e.itag == itag.val with
    | none => s
    | some e =>
      if invalInUse s e ∧ s.since e.since < 4000 then s
      else
        s.hlUpd (fun h => { h with inval := h.inval.erase e })
          |>.dec Fld.HL_ATS_STATUS_INVAL_PEND 1
          |> emit (.pcie e.ctx "Invalidate Completion" itag))

/-- Every cache entry is discarded (04 R87). -/
def atsFlush (s : State) : State := atsDiscard (fun _ => true) s

/-- R87: a write of 1 to HL_ATS_CTL.FLUSH. -/
def execHlAtsFlush (s : State) : Result := done (atsFlush s)

/-! ## Retraining and link power -/

/-- The width that both ends, the passing lanes and HL_LINK_CTL permit, the present one where they permit none. -/
def bestWidth (s : State) : Nat :=
  match widestWidth (min s.hl.partW (widthPassing s.hl.lanes)) (s.get Fld.HL_LINK_CTL_MAX_WIDTH) with
  | 0 => s.get Fld.HL_LINK_STATUS_TRAINED_WIDTH
  | w => w

/-- The rate that both ends and HL_LINK_CTL permit: 64 GT/s in FLIT mode only. -/
def bestSpeed (s : State) : Nat :=
  match min (min s.hl.partV (s.get Fld.HL_LINK_CTL_MAX_SPEED)) (if s.hl.partFlit then 6 else 5) with
  | 0 => s.get Fld.HL_LINK_STATUS_SPEED
  | v => v

/-- R72: a write of 1 to HL_LINK_CTL.RETRAIN takes the link through Recovery to the highest rate and widest width that
both ends, the passing lanes and HL_LINK_CTL permit; out of L1 or L2 it changes its power state (04 R100), and triggers that L2/L3
Ready held are sent as those of a return to D0 (DEDUCED, log 208). -/
def hlRetrain (s : State) : State :=
  if s.isSet Fld.HL_LINK_STATUS_DL_UP then
    let w := bestWidth s
    let v := bestSpeed s
    let low : Bool := s.get Fld.HL_LINK_STATUS_LSTATE == 4 || s.get Fld.HL_LINK_STATUS_LSTATE == 5
    s |>.set Fld.HL_LINK_STATUS_LSTATE 3
      |> leaveL0
      |> leftLow low
      |> doAll (tabKeys s.held) (fun c s => doIf (s.heldOf c != 0 && !(s.fn c).d3) (·.fnUpd c fun f => { f with d0due := true }) s)
      |> raise 22
      |> doIf (w != s.get Fld.HL_LINK_STATUS_TRAINED_WIDTH) (raise 20)
      |> doIf (v != s.get Fld.HL_LINK_STATUS_SPEED) (raise 21)
      |>.set Fld.HL_LINK_STATUS_TRAINED_WIDTH w
      |> setLink w v
  else s

/-- R72: HL_LINK_CTL.RETRAIN. -/
def execHlRetrain (s : State) : Result := done (hlRetrain s)

/-- The narrowest width HL_LPM_CTL.L0P_MIN_WIDTH permits. -/
def l0pMinWidth (s : State) : Nat := 2 ^ s.get Fld.HL_LPM_CTL_L0P_MIN_WIDTH

/-- A width's slot capacity holds both C0 reservations (04 R92). -/
def widthHoldsC0 (s : State) (w : Nat) : Bool :=
  decide (s.get Fld.CAD_RSV_DN_C0 ≤ slotCap (s.get Fld.HL_LINK_STATUS_SPEED) w ∧
    s.get Fld.CAD_RSV_UP_C0 ≤ slotCap (s.get Fld.HL_LINK_STATUS_SPEED) w)

/-- The link takes an L0p width: HL_L0P where it changes (04 Table 04-10). -/
def l0pTo (w : Nat) (s : State) : State :=
  setLink w (s.get Fld.HL_LINK_STATUS_SPEED) s
    |>.set Fld.HL_LINK_STATUS_LSTATE (if w < s.get Fld.HL_LINK_STATUS_TRAINED_WIDTH then 2 else 1)
    |> doIf (w != s.get Fld.HL_LINK_STATUS_WIDTH) (raise 23)

/-- R92: the device requests an L0p width once its upward use has stayed below L0P_UTIL for 2,000 strokes; it never requests one below the minimum or below either C0 reservation. -/
def execL0pRequest (width : Fin 17) (accepted : Bool) (s : State) : Result :=
  done (if s.isSet Fld.HL_LINK_STATUS_FLIT ∧ s.isSet Fld.HL_LPM_CTL_L0P_EN ∧
      (s.get Fld.HL_LINK_STATUS_LSTATE = 1 ∨ s.get Fld.HL_LINK_STATUS_LSTATE = 2) ∧ width.val ∈ linkWidths ∧
      width.val < s.get Fld.HL_LINK_STATUS_WIDTH ∧ l0pMinWidth s ≤ width.val ∧ widthHoldsC0 s width ∧
      2000 ≤ s.hl.lowUse then
      s |>.hlUpd (fun h => { h with lowUse := 0 }) |> emit (.pcie 0 "L0p request" width) |> doIf accepted (l0pTo width)
    else s)

/-- R92: the partner requests an L0p width: declined when its slot capacity is below either C0 reservation. -/
def execL0pPartnerRequest (width : Fin 17) (s : State) : Result :=
  done (if s.isSet Fld.HL_LINK_STATUS_FLIT ∧ (s.get Fld.HL_LINK_STATUS_LSTATE = 1 ∨ s.get Fld.HL_LINK_STATUS_LSTATE = 2) ∧
      width.val ∈ linkWidths ∧ width.val ≤ s.get Fld.HL_LINK_STATUS_TRAINED_WIDTH then
      (if widthHoldsC0 s width then s |> emit (.pcie 0 "L0p accept" width) |> l0pTo width
        else s |> emit (.pcie 0 "L0p decline" width))
    else s)

/-- R94: an LTR message with the value of HL_LTR_VAL; the Requirement bits are bit 31 of the recorded value. -/
def ltrSend (required : Bool) (s : State) : State :=
  s |> emit (.pcie 0 "LTR" (required.toNat * 2 ^ 31 + (s.word Adr.HL_LTR_VAL).toNat))

/-- R94: an LTR message. -/
def execLtrSend (s : State) : Result := done (ltrSend true s)

/-- R91: an error of the link's own layers, logged in the physical function only: correctable, or fatal by its default
severity; a FLIT that FEC corrected is counted in units of 1,024 (Table 04-22). -/
def execHlLinkLayerError (k : LinkError) (s : State) : Result :=
  done (match k with
    | .receiver => s.inc Fld.HL_ERR_CNT_RCV_ERR 1 |> aerCor 0 0
    | .badTlp => aerCor 0 6 s
    | .badDllp => aerCor 0 7 s
    | .replayTimer => s.inc Fld.HL_ERR_CNT_REPLAY 1 |> aerCor 0 12
    | .replayRollover => s.inc Fld.HL_ERR_CNT_REPLAY 1 |> aerCor 0 8
    | .malformed => aerTlp 0 18 s
    | .flowControl => aerUnc 0 13 .none s
    | .dataLink => aerUnc 0 4 .none s
    | .overflow => aerTlp 0 17 s
    | .fec => s.hlUpd (fun h => { h with fec := (h.fec + 1) % 1024 }) |> doIf (s.hl.fec == 1023) (·.inc Fld.HL_ERR_CNT_FEC_CORR 1))

/-- R80: FRS with reason VF Enabled; configuration requests of the virtual functions receive CRS no longer. -/
def execVfFrsSend (s : State) : Result :=
  done (if s.hl.vfWaitFrs then
      s.hlUpd (fun h => { h with vfWaitFrs := false })
        |> (fun s => { s with fns := s.fns.map fun e => (e.1, if e.2.enabled then { e.2 with ready := true } else e.2) })
        |> emit (.pcie 0 "FRS VF Enabled" 0)
    else s)

end Sys2Proof.Machine
end

