-- ==== Sys2Proof/Machine/Checks.lean ====
section
/-! DEFINITION. Machine/Checks.lean: the access checkers at the hub's edges and the reports of their refusals
(09 R213 to R223). -/
namespace Sys2Proof.Machine

/-- What a checker says of an access: it passes, no entry holds any byte of it, or it is refused with a CAUSE of Table
09-2 and, for a guard, its number. -/
inductive Verdict where
  | pass
  | noEntry
  | refused (cause guard : Nat)
deriving DecidableEq, Repr

/-- The value in force of a guard or peer-rule register: changes take effect at the next boundary (09 R217). -/
def State.forced (s : State) (f : Field) : Nat := bitsOf (tabGet resetOf s.inForce f.addr).toNat f.hi f.lo

/-- First and last byte of a guard's range (09 R218). -/
def guardRange (s : State) (g : Nat) : Nat × Nat :=
  (s.forced (Fld.ACC_GUARD_BASE_HI_ADDR g) * 2 ^ 32 + s.forced (Fld.ACC_GUARD_BASE_LO_ADDR g) * 4096,
   s.forced (Fld.ACC_GUARD_LIMIT_HI_ADDR g) * 2 ^ 32 + s.forced (Fld.ACC_GUARD_LIMIT_LO_ADDR g) * 4096 + 4095)

/-- A guard applies to a master acting for a context (09 R218). -/
def guardApplies (s : State) (g c : Nat) : Bool :=
  if c = 0 then s.forced (Fld.ACC_GUARD_CFG_PRIV g) == 1
  else s.forced (Fld.ACC_GUARD_CFG_ALLCTX g) == 1 || s.forced (Fld.ACC_GUARD_CFG_CTX g) == c

/-- The lowest-numbered enabled guard that denies an access to `len` bytes at `addr` of a space (09 R218); one whose BASE
lies above its LIMIT covers no page. -/
def guardHit (s : State) (space addr len c : Nat) (rd wr : Bool) : Option Nat :=
  if len = 0 then none
  else
    (List.range 64).find? fun g =>
      s.forced (Fld.ACC_GUARD_CFG_EN g) == 1 && s.forced (Fld.ACC_GUARD_CFG_SPACE g) == space && guardApplies s g c &&
        ((rd && s.forced (Fld.ACC_GUARD_CFG_DENY_RD g) == 1) || (wr && s.forced (Fld.ACC_GUARD_CFG_DENY_WR g) == 1)) &&
        decide ((guardRange s g).1 ≤ (guardRange s g).2 ∧ (guardRange s g).1 < addr + len ∧ addr ≤ (guardRange s g).2)

/-! ## Windows (08 R196) -/

/-- A window is mapped. -/
def State.winOn (s : State) (c w : Nat) : Bool := decide (w < 16) && s.isSet (Fld.WIN_CTL_EN c w)
/-- Size of a window in bytes. -/
def State.winSize (s : State) (c w : Nat) : Nat := 2 ^ (20 + s.get (Fld.WIN_BAR_SIZE_LOG2 c w))
/-- BAR2 offset of a window in bytes. -/
def State.winOff (s : State) (c w : Nat) : Nat := s.get (Fld.WIN_BAR_OFF_MIB c w) * 2 ^ 20
/-- First local address of a window. -/
def State.winLocal (s : State) (c w : Nat) : Nat :=
  s.get (Fld.WIN_LADDR_HI_ADDR c w) * 2 ^ 32 + s.get (Fld.WIN_LADDR_LO_ADDR c w) * 4096
/-- The port a window maps onto. -/
def State.winPort (s : State) (c w : Nat) : Nat := s.get (Fld.WIN_CTL_PORT c w)
/-- Window timeout in strokes (08 Table 08-8). -/
def State.winTmo (s : State) (c w : Nat) : Nat :=
  let k := s.get (Fld.WIN_ATTR_TMO c w)
  if k = 15 then 100000 else 2 ^ (k + 1)

/-- The first enabled window of a context, in index order, that holds at least one byte of an access at a BAR2 offset. -/
def winAt (s : State) (c off len : Nat) : Option Nat :=
  (List.range 16).find? fun w =>
    s.winOn c w && decide (s.winOff c w < off + max 1 len ∧ off < s.winOff c w + s.winSize c w)

/-- A range inside a window or aperture of size `size`; an empty range may lie at its end (09 R215). -/
def rangeHeld (off len size : Nat) : Bool := if len = 0 then decide (off ≤ size) else decide (off + len ≤ size)

/-- A range touches a window or aperture of size `size`. -/
def rangeTouches (off len size : Nat) : Bool := if len = 0 then decide (off ≤ size) else decide (off < size)

/-- Steps 2 to 4 of Table 09-2 on an access to a window, given by its offset in the window. -/
def checkWindow (s : State) (c w off len : Nat) (rd wr : Bool) : Verdict :=
  if ¬ s.winOn c w then .noEntry
  else if ¬ rangeTouches off len (s.winSize c w) then .noEntry
  else if ¬ rangeHeld off len (s.winSize c w) then .refused 1 0
  else
    match guardHit s (s.winPort c w) (s.winLocal c w + off) len c rd wr with
    | some g => .refused 2 g
    | none => .pass

/-- Host to local: an access of a function to its BAR2. -/
def checkBar2 (s : State) (c off len : Nat) (wr : Bool) : Verdict × Nat :=
  match winAt s c off len with
  | none => (.noEntry, 0)
  | some w => (checkWindow s c w (off - s.winOff c w) len (!wr) wr, w)

/-! ## Apertures -/

/-- Size of an aperture in bytes. -/
def State.aptSize (s : State) (a : Nat) : Nat := s.get (Fld.DS_APT_STATUS_UNITS a) * 2 ^ 28

/-- Steps 2 and 3 on an access to an aperture. -/
def checkApt (s : State) (a : Option Nat) (off len : Nat) : Verdict :=
  match a with
  | none => .noEntry
  | some a =>
    if ¬ rangeTouches off len (s.aptSize a) then .noEntry
    else if ¬ rangeHeld off len (s.aptSize a) then .refused 1 0
    else .pass

/-- The aperture that a context's BAR4 and its descriptors reach: none while the store is not online (03 R66). -/
def onlineApt (s : State) (c : Nat) : Option Nat := if s.get Fld.DS_CFG_STATE = 2 then (s.ctx c).apt else none

/-! ## Host addresses and ATS (04 R86) -/

/-- The 4 KiB pages that a range touches. -/
def pagesOf (addr len : Nat) : List Nat :=
  if len = 0 then [] else (List.range ((addr + len - 1) / 4096 + 1 - addr / 4096)).map fun i => addr / 4096 + i

/-- The cache says that a page lacks the needed permission. -/
def atsRefuses (s : State) (c page : Nat) (wr : Bool) : Bool :=
  match atsLookup s c (BitVec.ofNat 64 (page * 4096)) with
  | some e => if wr then !e.w else !e.r
  | none => false

/-- Steps 4 and 5 on a range of the host address space. -/
def checkHost (s : State) (c addr len : Nat) (wr : Bool) : Verdict :=
  match guardHit s 4 addr len c (!wr) wr with
  | some g => .refused 2 g
  | none => if (s.fn c).atsEn && (pagesOf addr len).any (fun p => atsRefuses s c p wr) then .refused 3 0 else .pass

/-! ## Reports (09 R220 to R222) -/

/-- A refusal in a function's violation log (09 R221). -/
def violLog (c : Nat) (precise : Bool) (kind cause guard qp win off len : Nat) (s : State) : State :=
  let n := s.get (Fld.CTX_VIOL_STATUS_NEXT c)
  let s := s.inc (Fld.CTX_VIOL_STATUS_TOTAL c) 1
  if s.isSet (Fld.CTX_VIOL0_VALID c n) then s.inc (Fld.CTX_VIOL_STATUS_LOST c) 1
  else
    s |>.setWord (Adr.CTX_VIOL0 c n) 0
      |>.set (Fld.CTX_VIOL0_VALID c n) 1 |>.set (Fld.CTX_VIOL0_PRECISE c n) precise.toNat
      |>.set (Fld.CTX_VIOL0_KIND c n) kind |>.set (Fld.CTX_VIOL0_CAUSE c n) cause
      |>.set (Fld.CTX_VIOL0_GUARD c n) guard |>.set (Fld.CTX_VIOL0_QP c n) qp |>.set (Fld.CTX_VIOL0_WIN c n) win
      |>.set (Fld.CTX_VIOL1_OFFSET_LO c n) off |>.set (Fld.CTX_VIOL2_OFFSET_HI c n) (off / 2 ^ 32)
      |>.set (Fld.CTX_VIOL2_LEN c n) (min 65535 len) |>.set (Fld.CTX_VIOL3_STROKE_LO c n) s.nowLo
      |>.set (Fld.CTX_VIOL_STATUS_NEXT c) ((n + 1) % 8)

/-- A refusal in ACC_VLOG (09 R222); source 270 where an entry is lost. -/
def accVlog (precise : Bool) (checker cause master src guard ctx addr : Nat) (s : State) : State :=
  let n := s.get Fld.ACC_VLOG_STATUS_NEXT
  let s := s.inc Fld.ACC_VLOG_STATUS_TOTAL 1
  if s.isSet (Fld.ACC_VLOG0_VALID n) then s.inc Fld.ACC_VLOG_STATUS_LOST 1 |> raise 270
  else
    s |>.setWord (Adr.ACC_VLOG0 n) 0
      |>.set (Fld.ACC_VLOG0_VALID n) 1 |>.set (Fld.ACC_VLOG0_PRECISE n) precise.toNat
      |>.set (Fld.ACC_VLOG0_CHECKER n) checker |>.set (Fld.ACC_VLOG0_CAUSE n) cause
      |>.set (Fld.ACC_VLOG0_MASTER n) master |>.set (Fld.ACC_VLOG0_SRC n) src
      |>.set (Fld.ACC_VLOG0_GUARD n) guard |>.set (Fld.ACC_VLOG0_CTX n) ctx
      |>.set (Fld.ACC_VLOG1_ADDR_LO n) addr |>.set (Fld.ACC_VLOG2_ADDR_HI n) (addr / 2 ^ 32)
      |>.set (Fld.ACC_VLOG3_STROKE_LO n) s.nowLo |>.set Fld.ACC_VLOG_STATUS_NEXT ((n + 1) % 32)

/-- Step 5 failures raise source 271 and are counted (09 Table 09-10). -/
def countAts (cause : Nat) (s : State) : State :=
  if cause = 3 then s.inc Fld.ACC_CNT2_ATS 1 |> raise 271 else s

/-- A refused host non-posted request is logged and counted (09 Table 09-4). -/
def noteHostRead (c kind cause guard win off len : Nat) (s : State) : State :=
  s |> violLog c true kind cause guard 0 win off len |>.inc Fld.ACC_CNT_HOST 1 |> countAts cause |> raise 264

/-- Completer Abort, behind the earlier posted writes of the function (04 R88), with an AER advisory answers a refused host read. -/
def abortRead (c off len : Nat) (s : State) : State := s |> answerHost c [.cpl c 2 []] |> reportAbort c off len

/-- A host non-posted request is refused (09 Table 09-4): Completer Abort with an AER advisory. -/
def refuseHostRead (c kind cause guard win off len : Nat) (s : State) : State :=
  s |> noteHostRead c kind cause guard win off len |> abortRead c off len

/-- A host posted write is refused: dropped whole, an imprecise notice (09 Table 09-4). -/
def refuseHostWrite (c kind cause guard win off len : Nat) (s : State) : State :=
  s |> violLog c false kind cause guard 0 win off len |>.inc Fld.ACC_CNT_HOST 1 |> countAts cause |> raise 264
    |> doIf (s.isSet (Fld.CTX_VIOL_CFG_EVT_EN c)) (trigger c (s.get (Fld.CTX_VIOL_CFG_VECTOR c)) none)
    |> reportAbort c off len

/-- A descriptor range is refused (09 Table 09-4): its log entry and source 265. -/
def refuseDesc (c q : Nat) (dst : Bool) (cause guard win off len : Nat) (s : State) : State :=
  s |> violLog c true (4 + dst.toNat) cause guard q win off len |>.inc Fld.ACC_CNT_DESC 1 |> countAts cause |> raise 265

/-- Step 1 for a host access to BAR2 or BAR4: none where it is admitted, `some true` where its refusal is reported,
`some false` where a dropped write is not (05 Table 05-2, 03 Table 03-7; a refused read is reported in either case,
09 R220). -/
def hostStateRefuses (s : State) (c : Nat) : Option Bool :=
  if s.cst c = 4 ∨ s.cst c = 5 then some false
  else if ¬ s.live c ∨ s.draining then some true
  else none

end Sys2Proof.Machine
end

