-- ==== Sys2Proof/Machine/Items.lean ====
section
/-! DEFINITION. Machine/Items.lean: items of the cadence, tags of host requests, routes to peers: what every movement of
data across the hub is built from (07 R158, 04 R82, 14 R348). -/
namespace Sys2Proof.Machine

/-! ## Items (07 R158) -/

/-- An item joins the queue of the cadence: an item of n bytes takes max(1, ⌈n/256⌉) slots. -/
def addItem (up : Bool) (ctx cls tgt bytes : Nat) (host : Bool) (w : Work) (s : State) : State :=
  s.cadUpd fun k =>
    { k with items := k.items ++ [⟨k.nextId, up, ctx, cls, tgt, max 1 (ceilDiv bytes 256), s.now, host, false, w⟩],
             nextId := k.nextId + 1 }

/-- An item of a class that takes no slots waits for what its work waits for. -/
def addWaiting (up : Bool) (ctx cls tgt : Nat) (w : Work) (s : State) : State :=
  s.cadUpd fun k =>
    { k with items := k.items ++ [⟨k.nextId, up, ctx, cls, tgt, 0, s.now, true, true, w⟩], nextId := k.nextId + 1 }

/-- The earlier upstream writes of a port have been issued on the host link (08 R195, 10 R241). -/
def upWritesIssued (s : State) (p before : Nat) : Bool :=
  s.cad.items.all fun i =>
    decide (before ≤ i.id) || (match i.work with | .upWrite q _ _ _ _ _ => q != p | _ => true)

/-- Items that satisfy `p` are removed. -/
def dropItems (p : Item → Bool) (s : State) : State := s.cadUpd fun k => { k with items := k.items.filter fun i => !p i }

/-- The class that carries a downward descriptor item: C0 for the durable store is carried as C2 (07 R158). -/
def carried (cls tgt : Nat) : Nat := if cls = 0 ∧ tgt = 8 then 2 else cls

/-! ## Tags of host requests (04 R82) -/

/-- Outstanding tags of a context: those abandoned by a squash have left it (05 R119), and of a retired one the request has ended
(04 Table 04-7); one that an aborted descriptor gave up is outstanding still. -/
def tagsOf (s : State) (c : Nat) : Nat := (s.hl.tags.filter fun t => t.2.ctx == c && !t.2.squashed && !t.2.retired).length

/-- Tags the function may have outstanding by its tag width (04 R82). -/
def tagWidth (s : State) (c : Nat) : Nat :=
  if s.isSet Fld.HL_LINK_STATUS_FLIT then 1024 else if (s.fn c).tag10 then 768 else 256

/-- An outstanding tag is tag `t` of function `c`. -/
def tagIs (c t : Nat) (x : Nat × HostTag) : Bool := x.1 == t && x.2.ctx == c

/-- The tag numbers a function uses: 8 bits, 10 bits that PCI Express tells from those by the upper two, or 14 (04 Table 04-1). -/
def tagNumbers (s : State) (c : Nat) : List Nat :=
  if s.isSet Fld.HL_LINK_STATUS_FLIT then List.range 1024
  else if (s.fn c).tag10 then (List.range 768).map (· + 256) else List.range 256

/-- The lowest tag of a function not in use, if there is one; which one a request takes is not seen by host software (log 42). -/
def freeHostTag (s : State) (c : Nat) : Option Nat := (tagNumbers s c).find? fun t => !(s.hl.tags.any (tagIs c t))

/-- The limits of R82 leave a tag for a request of a context, `rsv` tags kept back: of the device, of the context, and of the
function's width, whose numbers quarantined and retired tags hold as well. -/
def tagLeft (s : State) (c rsv : Nat) : Bool :=
  decide (s.hl.tags.length < 1024 - rsv ∧ tagsOf s c < tagWidth s c ∧ tagsOf s c < s.get Fld.HL_TAG_CTL_CTX_MAX) &&
    (freeHostTag s c).isSome

/-- A tag is free for a request of a context other than a descriptor fetch. -/
def tagFree (s : State) (c : Nat) : Bool := tagLeft s c (s.get Fld.HL_TAG_CTL_QM_RSV)

/-- A request that finds no free tag waits for one: HL_TAG_EXHAUST (04 R82, R100). -/
def tagWaits (s : State) : State := raise 34 s

/-- IN_USE and its high-water mark follow the tags. -/
def updTags (s : State) : State :=
  s |>.set Fld.HL_TAG_STATUS_IN_USE s.hl.tags.length |>.peak Fld.HL_TAG_STATUS_HWM s.hl.tags.length

/-- The tag that the next request of a function takes; one is asked for only where `tagLeft` finds one. -/
def nextTag (s : State) (c : Nat) : Nat := (freeHostTag s c).getD 0

/-- A tag is taken for a use. -/
def takeTag (c : Nat) (use : TagUse) (s : State) : State :=
  s.hlUpd (fun h => { h with tags := h.tags ++ [(nextTag s c, { ctx := c, use := use, quarantined := false, issued := s.now })] }) |> updTags

/-- A non-posted read leaves for the host under a tag. -/
def hostReadOut (c : Nat) (use : TagUse) (addr : Addr) (len : Nat) (noSnoop : Bool) (s : State) : State :=
  takeTag c use s |> emit (.hostRead c (nextTag s c) addr len noSnoop)

/-- The tags that satisfy `p` are freed. -/
def freeTags (p : Nat × HostTag → Bool) (s : State) : State :=
  s.hlUpd (fun h => { h with tags := h.tags.filter fun t => !p t }) |> updTags

/-- The tag of a request that timed out is retired: it is in use until its late completion comes (Table 04-7, log 151). -/
def retireTag (c t : Nat) (s : State) : State :=
  s.hlUpd fun h => { h with tags := h.tags.map fun x => if tagIs c t x then (x.1, { x.2 with quarantined := true, retired := true }) else x }

/-- The shortest timeout in strokes that a Completion Timeout Value allows: 50 ms for the default; none where disabled. -/
def ctoStrokes (v : Nat) : Option Nat :=
  if bitOf v 4 then none
  else some (match v % 16 with
    | 1 => 100 | 2 => 2000 | 5 => 32000 | 6 => 130000 | 9 => 520000 | 10 => 2000000 | 13 => 8000000 | 14 => 34000000 | _ => 100000)

/-- The completion timeout of a tag's request has passed (04 R85). -/
def tagTimedOut (s : State) (u : HostTag) : Bool :=
  match ctoStrokes (s.fn u.ctx).cto with
  | some n => decide (n ≤ s.since u.issued)
  | none => false

/-! ## Translation (04 R86) -/

/-- The address to issue for a host address of a context, where it is known. -/
def xlate (s : State) (c addr : Nat) (wr : Bool) : Option Addr :=
  if ¬ (s.fn c).atsEn then some (BitVec.ofNat 64 addr)
  else
    match atsLookup s c (BitVec.ofNat 64 addr) with
    | some e =>
      if (if wr then e.w else e.r) then some (BitVec.ofNat 64 (e.ta.toNat / 2 ^ e.log2 * 2 ^ e.log2 + addr % 2 ^ e.log2))
      else none
    | none => none

/-- The page that a Translation Request asks for. -/
def atsPage (addr : Nat) : Addr := BitVec.ofNat 64 (addr / 4096 * 4096)

/-- A Translation Request for a page of a context is under way. -/
def atsAsked (s : State) (c : Nat) (page : Addr) : Bool :=
  s.hl.tags.any fun t => t.2.ctx == c && !t.2.quarantined && (match t.2.use with | .ats p _ => p == page | _ => false)

/-- A Translation Request for the page of an address, once, under a tag of its own (04 R82, R86). -/
def atsAsk (who : AtsFor) (c addr : Nat) (s : State) : State :=
  if atsAsked s c (atsPage addr) then s
  else if ¬ tagFree s c then tagWaits s
  else takeTag c (.ats (atsPage addr) who) s |> emit (.atsRequest c (atsPage addr))

/-- Host bytes whose translations are known, refused, or still to be asked for (04 R86). -/
inductive HostWay where
  | go | denied | wait
deriving DecidableEq, Repr

/-- How an access of a context to `n` bytes of host memory stands; the first page without a translation is asked for. -/
def hostWay (who : AtsFor) (c addr n : Nat) (wr : Bool) (s : State) : State × HostWay :=
  if ¬ s.hostOpen c then (s, .wait)
  else if (s.fn c).atsEn && (pagesOf addr n).any (fun p => atsRefuses s c p wr) then (s, .denied)
  else
    match (pagesOf addr n).find? fun p => (xlate s c (p * 4096) wr).isNone with
    | none => (s, .go)
    | some p => (atsAsk who c (p * 4096) s, .wait)

/-- The translations known now of the pages of a range, where ATS is enabled: what an access keeps from its check. -/
def knownPages (s : State) (c addr n : Nat) (wr : Bool) : Pages :=
  if (s.fn c).atsEn then some ((pagesOf addr n).filterMap fun p => (xlate s c (p * 4096) wr).map fun a => (p, a)) else none

/-- The pages of a range that an access has not found. -/
def pagesLeft (kept : Pages) (addr n : Nat) : List Nat :=
  match kept with
  | none => []
  | some l => (pagesOf addr n).filter fun p => !(l.any fun x => x.1 == p)

/-- The address to issue for a host address of an access, by the translations it keeps. -/
def keptAddr (kept : Pages) (addr : Nat) : Addr :=
  match (kept.getD []).find? fun x => x.1 == addr / 4096 with
  | some x => x.2 + BitVec.ofNat 64 (addr % 4096)
  | none => BitVec.ofNat 64 addr

/-- How an access that keeps its translations stands before it is issued: pages not yet found are looked up, and the first
still missing is asked for; one found without permission refuses the access (04 R86, 09 R215, R217). -/
def findPages (who : AtsFor) (c : Nat) (kept : Pages) (addr n : Nat) (wr : Bool) (s : State) : State × Pages × HostWay :=
  let left := pagesLeft kept addr n
  let got := kept.map fun l => l ++ left.filterMap fun p => (xlate s c (p * 4096) wr).map fun a => (p, a)
  if ¬ s.hostOpen c then (s, kept, .wait)
  else if (s.fn c).atsEn && left.any (fun p => atsRefuses s c p wr) then (s, kept, .denied)
  else
    match left.find? fun p => (xlate s c (p * 4096) wr).isNone with
    | none => (s, got, .go)
    | some p => (atsAsk who c (p * 4096) s, got, .wait)

/-- The next piece of a range that one TLP may carry: within `limit` bytes and one 4 KiB page (04 R83). -/
def pieceLen (addr left limit : Nat) : Nat := min left (min (limit - addr % limit) (4096 - addr % 4096))

/-- A range cut into pieces of at most `limit` bytes at addresses aligned to it: offsets and lengths. -/
def pieces (limit addr : Nat) : Nat → Nat → Nat → List (Nat × Nat)
  | 0, _, _ => []
  | fuel + 1, off, len =>
    if len ≤ off then []
    else
      let n := pieceLen (addr + off) (len - off) limit
      (off, n) :: pieces limit addr fuel (off + n) len

/-- The packets of a request to a local address: one of up to 256 bytes, a longer one cut at 256-byte-aligned local
addresses (08 R199). -/
def localPieces (laddr len : Nat) : List (Nat × Nat) :=
  if len = 0 then [] else if len ≤ 256 then [(0, len)] else pieces 256 laddr (len + 1) 0 len

/-- Bytes written to host memory for a context at the addresses that `way` gives, in TLPs of Maximum Payload Size (04 R83,
R84). -/
def hostWriteVia (way : Nat → Addr) (c addr : Nat) (data : List Byte) (relaxed noSnoop : Bool) (s : State) : State :=
  s |> doAll (pieces (s.fn c).mps addr (data.length + 1) 0 data.length) (fun p s =>
    emit (.hostWrite c (way (addr + p.1)) (sliceBytes data p.1 p.2) relaxed noSnoop) (atsUse c (BitVec.ofNat 64 (addr + p.1)) s))

/-- Bytes that the device itself writes to host memory for a context, at the addresses of the ATS cache. -/
def hostWriteOut (c addr : Nat) (data : List Byte) (relaxed noSnoop : Bool) (s : State) : State :=
  hostWriteVia (fun a => (xlate s c a true).getD (BitVec.ofNat 64 a)) c addr data relaxed noSnoop s

/-- The completions that return the data of a host read at an offset of its BAR: no larger than Maximum Payload Size, cut at
addresses aligned to it and so to the Read Completion Boundary (04 R83). -/
def cplOuts (s : State) (c off : Nat) (data : List Byte) : List Out :=
  if data.isEmpty then [.cpl c 0 []]
  else (pieces (s.fn c).mps off (data.length + 1) 0 data.length).map fun p => .cpl c 0 (sliceBytes data p.1 p.2)

/-- The data of a host read is returned. -/
def cplData (c off : Nat) (data : List Byte) (s : State) : State := doAll (cplOuts s c off data) emit s

/-! ## Peers (14 R347, R348) -/

/-- Member 0 of a peloton of one: PEL_STATUS.STATE 0 (14 R344). -/
def State.standAlone (s : State) : Bool := s.get Fld.PEL_STATUS_STATE == 0

/-- This member's number. -/
def State.me (s : State) : Nat := if s.standAlone then 0 else s.get Fld.DEV_STRAP_MEMBER_ID

/-- Bit `m` of JOINED. -/
def State.joined (s : State) (m : Nat) : Bool := bitOf (s.get Fld.PEL_VIEW_JOINED) m

/-- The first hop of PEL_ROUTE toward a member: a link, or none where it is not reachable. -/
def State.hop (s : State) (m : Nat) : Option Nat :=
  let h := bitsOf (s.word Adr.PEL_ROUTE).toNat (4 * m + 3) (4 * m)
  if h < 4 then some h else none

/-- The link toward a member for traffic to its local context `c`: a ring with doubled links chooses between the two by
bit 0 of the context (14 R345). -/
def State.routeFor (s : State) (m c : Nat) : Option Nat :=
  match s.hop m with
  | none => none
  | some k =>
    let other := (k + 2) % 4
    let twin : Bool := s.get Fld.PEL_STATUS_TOPOLOGY == 1 && [3, 4].contains (s.get (Fld.UL_STATUS_STATE other)) &&
      !bitOf (s.get Fld.PEL_STATUS_MISWIRED) other &&
      s.get (Fld.UL_PEER_MEMBER other) == s.get (Fld.UL_PEER_MEMBER k)
    some (if twin then k % 2 + 2 * (c % 2) else k)

/-- The link toward a member. -/
def State.route (s : State) (m : Nat) : Option Nat := s.routeFor m 0

/-- The member and local context that PEL_LOC names for a global context (14 R347). -/
def State.placeOf (s : State) (g : Nat) : Nat × Nat :=
  if s.isSet (Fld.PEL_LOC_MOVED g) then (s.get (Fld.PEL_LOC_MEMBER g), s.get (Fld.PEL_LOC_CTX g)) else (g / 1024, g % 1024)

/-- A member is recognised as lost here and has not joined again (14 R353). -/
def State.lostMember (s : State) (m : Nat) : Bool := s.pel.losses.any fun l => l.member == m

/-- The member and local context that serve a global context, while that member is joined and not recognised as lost (14 R347,
R349). -/
def State.located (s : State) (g : Nat) : Option (Nat × Nat) :=
  let p := s.placeOf g
  if s.joined p.1 ∧ ¬ s.lostMember p.1 then some p else none

/-- The global number of a local context: its own, or the one it serves after a failover. -/
def State.gctx (s : State) (c : Nat) : Nat := ((s.ctx c).serves).getD (s.me * 1024 + c)

/-- A message waits for its VC's stream on a link (13 R321). -/
def sendMsg (k : Nat) (m : UMsg) (s : State) : State := s.linkUpd k fun l => { l with tx := l.tx ++ [m] }

/-- The next tag from `t` on that no outstanding request holds (13 R322). -/
def tagFrom (used : List Nat) : Nat → Nat → Nat
  | 0, t => t
  | n + 1, t => if used.contains t then tagFrom used n ((t + 1) % 4096) else t

/-- Every one of a link's 4,096 request tags is outstanding. -/
def tagsOut (s : State) (k : Nat) : Bool := decide (4096 ≤ (s.link k).reqs.length)

/-- The tag of a link's next request. -/
def Ul.tagNext (l : Ul) : Nat := tagFrom (l.reqs.map (·.1)) l.reqs.length l.ntag

/-- A request message waits for the stream under the link's next free tag; its source waits for the response. -/
def sendTagged (k : Nat) (src : ReqSrc) (m : UMsg) (s : State) : State :=
  let t := (s.link k).tagNext
  s.linkUpd k fun l =>
    { l with tx := l.tx ++ [{ m with tag := t }], reqs := l.reqs ++ [(t, src, { m with tag := t })], ntag := (t + 1) % 4096 }

/-- A request message is sent; with every tag outstanding it waits, in order, for the next that a response frees (13 R322). -/
def sendReq (k : Nat) (src : ReqSrc) (m : UMsg) (s : State) : State :=
  if tagsOut s k then s.linkUpd k fun l => { l with treq := l.treq ++ [(src, m)] } else sendTagged k src m s

/-- A message to a member by its route; false where it has none. -/
def sendTo (m : UMsg) (s : State) : State :=
  match s.routeFor m.dst m.ctx with
  | some k => sendMsg k m s
  | none => s

end Sys2Proof.Machine
end

