-- ==== Sys2Proof/Machine/Queues.lean ====
section
/-! DEFINITION. Machine/Queues.lean: queue pairs, doorbells, fetching and dealing of descriptors, completions, aborts and
spoke-engine fences (06 R125 to R144, R475). -/
namespace Sys2Proof.Machine

/-! ## Ending a descriptor -/

/-- Completion entries of the context are written: not after a cause that writes none (05 Table 05-8). -/
def cplWritten (s : State) (c : Nat) : Bool :=
  match (s.ctx c).op with
  | some o => o.cpl
  | none => true

/-- The status a descriptor reports: OK becomes OK_RETRIED on a descriptor that was re-dealt (06 R143). -/
def retriedStatus (d : Desc) (st : Nat) : Nat := if d.fenced ∧ st = stOk then stOkRetried else st

/-- Counters of a completion that carries RETRIED (06 Table 06-18). -/
def countRetry (st : Nat) (s : State) : State :=
  s |> doIf (st == stOkRetried) (·.inc Fld.QM_RETRY_CNT_OK_RETRIED 1)
    |> doIf (st == stUncertain) (·.inc Fld.QM_RETRY_CNT_UNCERTAIN 1)
    |> doIf (st == stNotRetried) (·.inc Fld.QM_RETRY_CNT_NOT_RETRIED 1)

/-- The TAG of a descriptor: of one never fetched it is not known to the device, and is a value the device draws
(06 R135, R142; log 7). -/
def descTag (d : Desc) (s : State) : Nat :=
  match d.raw with
  | some r => r.tag
  | none => s.draw.toNat % 2 ^ 32

/-- A descriptor leaves its queue with a status (06 R140): with CMPL clear and status OK no entry is written (06 R131). -/
def finish (c q : Nat) (d : Desc) (status detail bytes : Nat) (s : State) : State :=
  let st := retriedStatus d status
  let quiet := st == stOk && (match d.raw with | some r => !r.cmpl | none => false)
  let evt := match d.raw with | some r => r.evt | none => false
  let e : Cpl := { tag := descTag d s, status := st, bytes := bytes, detail := detail, retried := d.fenced,
                   evt := evt || (st != stOk && st != stOkRetried), surplus := d.surplus,
                   no := if (match d.raw with | some r => decide (List.length r = 64) | none => false) then some d.no else none }
  let wr := cplWritten s c
  let s := if d.raw.isNone then s.drewOne else s
  s.qpUpd c q (fun p =>
      { p with descs := p.descs.filter (fun x => x.slot != d.slot || x.gen != d.gen),
               cpls := if quiet || !wr then p.cpls else p.cpls ++ [e] })
    |> countRetry st

/-- A descriptor completes OVER_SHARE (05 R112): QP_STATUS.OVER_SHARE, its counter, source 250 when the bit becomes 1. -/
def finishOver (c q : Nat) (d : Desc) (s : State) : State :=
  let was := s.isSet (Fld.QP_STATUS_OVER_SHARE c q)
  finish c q d stOverShare 0 0 s
    |>.set (Fld.QP_STATUS_OVER_SHARE c q) 1 |>.inc (Fld.QP_CNT_OVER_SHARE c q) 1 |> doIf (!was) (raise 250)

/-- A descriptor completes MALFORMED (06 R135). -/
def finishMalformed (c q off : Nat) (d : Desc) (s : State) : State :=
  finish c q d stMalformed off 0 s
    |>.set (Fld.QP_STATUS_MALFORMED c q) 1 |>.inc (Fld.QP_CNT_MALFORMED c q) 1
    |>.set Fld.QM_MALFORMED_VALID 1 |>.set Fld.QM_MALFORMED_CTX c |>.set Fld.QM_MALFORMED_QP q
    |>.set Fld.QM_MALFORMED_OFFSET off |> raise 249

/-- A descriptor that has not reached its commit point (06 R141). -/
def Desc.unstarted (d : Desc) : Bool := d.commit.isNone

/-- Every outstanding movement of a descriptor is withdrawn: its waiting items, its host tags (quarantined until their
completions arrive, 05 R119), its local and peer requests, its waiting durable writes. -/
def cancelDesc (k : DKey) (s : State) : State :=
  let mine (x : DKey) : Bool := x == k
  let srcMine (x : ReqSrc) : Bool := match x with | .desc y _ _ => mine y | _ => false
  let workMine (w : Work) : Bool :=
    match w with
    | .descLocal _ e => (match e.src with | some x => srcMine x | none => false)
    | .descPeer y _ _ _ => mine y
    | .descHost y _ _ _ => mine y
    | .descDur y _ _ _ _ => mine y
    | _ => false
  s |> dropItems (fun i => workMine i.work)
    |> (fun s => s.hlUpd fun h => { h with tags := h.tags.map fun t =>
        match t.2.use with
        | .desc y _ _ | .ats _ (.desc y _) => if mine y then (t.1, { t.2 with quarantined := true }) else t
        | _ => t })
    |> doAll [0, 1, 2, 3] (fun p s => s.lbUpd p fun l =>
        { l with egress := l.egress.filter fun e => !(match e.src with | some x => srcMine x | none => false),
                 reqs := l.reqs.map fun r => if srcMine r.src then { r with src := .nobody } else r })
    |> doAll [0, 1, 2, 3] (fun k s => s.linkUpd k fun l =>
        { l with reqs := l.reqs.map fun r => if srcMine r.2.1 then (r.1, .nobody, r.2.2) else r })
    |> (fun s => { s with ds := { s.ds with wait := s.ds.wait.filter fun w =>
        match w.src with | .desc y _ => !mine y | _ => true } })

/-- The key of an outstanding descriptor. -/
def keyOf (c q : Nat) (d : Desc) : DKey := ⟨c, q, d.slot, d.gen⟩

/-- Descriptors of a queue pair that have not reached their commit point complete with a status, in ring order
(05 R116, 06 R128); one accepted beyond DESC_MAX that is not fetched yet is among them (DESIGN CHOICE, log 167). -/
def endUnstarted (c q status : Nat) (s : State) : State :=
  s |> doAll ((s.qp c q).descs.filter Desc.unstarted) (fun d s => cancelDesc (keyOf c q d) s |> finish c q d status 0 0)

/-! ## Enable and disable (06 R127, R128) -/

/-- The first failing condition of R127, as QP_STATUS.CFG_ERR codes it; 0 where all five hold. -/
def qpCfgErr (s : State) (c q : Nat) : Nat :=
  if ¬ s.live c then 1
  else if s.qpMax c ≤ s.get (Fld.CTX_CAPS_QP_EN c) then 2
  else if (s.word (Adr.QP_SQ_BASE_LO c q)).toNat % 4096 ≠ 0 ∨ (s.word (Adr.QP_CQ_BASE_LO c q)).toNat % 4096 ≠ 0 then 3
  else if ¬ (4 ≤ s.get (Fld.QP_CFG_SQ_LOG2 c q) ∧ s.get (Fld.QP_CFG_SQ_LOG2 c q) ≤ 16 ∧
      4 ≤ s.get (Fld.QP_CFG_CQ_LOG2 c q) ∧ s.get (Fld.QP_CFG_CQ_LOG2 c q) ≤ 16) then 4
  else if ¬ s.isSet (Fld.QP_STATUS_QUIESCED c q) then 5
  else 0

/-- Writing 1 to QP_CTL.EN; an IDLE context becomes ACTIVE at the next boundary (05 R105). -/
def qpEnable (c q : Nat) (s : State) : State :=
  if s.isSet (Fld.QP_STATUS_EN_ACTIVE c q) ∧ s.isSet (Fld.QP_CTL_EN c q) then s
  else
    let e := qpCfgErr s c q
    if e ≠ 0 then s.set (Fld.QP_STATUS_CFG_ERR c q) e
    else
      s |>.set (Fld.QP_CTL_EN c q) 1
        |>.set (Fld.QP_STATUS_EN_ACTIVE c q) 1
        |>.set (Fld.QP_STATUS_CQ_PHASE c q) 1
        |>.setWord (Adr.QP_PTR c q) 0
        |>.qpUpd c q (fun p => { p with sqTail := 0, cqHead := 0, off := false, drops := 0 })
        |> updCqFull c q
        |>.inc (Fld.CTX_CAPS_QP_EN c) 1
        |>.inc Fld.CTX_POOL_QP_ENABLED 1

/-- A queue pair is disabled at a boundary (06 R128): each accepted descriptor not yet committed completes ABORTED; its
coalescing group is cleared (15 R381). -/
def qpOff (c q : Nat) (s : State) : State :=
  if s.isSet (Fld.QP_STATUS_EN_ACTIVE c q) then
    s |>.set (Fld.QP_CTL_EN c q) 0
      |>.set (Fld.QP_STATUS_EN_ACTIVE c q) 0
      |>.dec (Fld.CTX_CAPS_QP_EN c) 1
      |>.dec Fld.CTX_POOL_QP_ENABLED 1
      |> endUnstarted c q stAborted
      |>.qpUpd c q id
      |> cqClear c q
  else s

/-- A queue pair is disabled and cleared (05 Table 05-9): no entry, no descriptor, registers and delivery buffer (10 R238)
at reset. -/
def qpClear (c q : Nat) (s : State) : State :=
  s |> doIf (s.isSet (Fld.QP_STATUS_EN_ACTIVE c q)) (fun s =>
      s.dec (Fld.CTX_CAPS_QP_EN c) 1 |>.dec Fld.CTX_POOL_QP_ENABLED 1)
    |>.qpUpd c q (fun p => { nextGen := p.nextGen })
    |> doAll [0x00, 0x04, 0x08, 0x0C, 0x10, 0x14, 0x18, 0x1C, 0x20, 0x24, 0x28] (fun o s =>
        s.setWord (Adr.QP_SQ_BASE_LO c q + o) (resetOf (Adr.QP_SQ_BASE_LO c q + o)))
    |> doAll [0x00, 0x04, 0x08] (fun o s => s.setWord (Adr.MSG_RXB_BASE_LO c q + o) (resetOf (Adr.MSG_RXB_BASE_LO c q + o)))
    |> cqClear c q

/-- R127: writing 1 to QP_CTL.EN. -/
def execQpEnable (c : Fin 1024) (q : Fin 64) (s : State) : Result := done (qpEnable c q s)

/-- Writing 0 to QP_CTL.EN, which reads 0 from then on (00 R8), disables the queue pair at the next boundary (06 R128). -/
def qpDisable (c q : Nat) (s : State) : State :=
  if s.isSet (Fld.QP_STATUS_EN_ACTIVE c q) then { s.set (Fld.QP_CTL_EN c q) 0 with deferred := s.deferred ++ [.qpOff c q] } else s

/-- R128: writing 0 to QP_CTL.EN. -/
def execQpDisable (c : Fin 1024) (q : Fin 64) (s : State) : Result := done (qpDisable c q s)

/-! ## Doorbells (06 R129, R130; 05 R112) -/

/-- A doorbell is discarded (05 R104, R116; 06 R130; 04 R95; 03 Table 03-7). -/
def doorbellRefused (s : State) (c q : Nat) : Bool :=
  !s.isSet (Fld.QP_STATUS_EN_ACTIVE c q) || (s.qp c q).off || s.cst c != 3 || (s.fn c).d3 || s.draining

/-- DB_ERR set; source 251 when the bit becomes 1. -/
def dbErr (c q : Nat) (s : State) : State :=
  if s.isSet (Fld.QP_STATUS_DB_ERR c q) then s else s.set (Fld.QP_STATUS_DB_ERR c q) 1 |> raise 251

/-- A new submission tail: descriptors are admitted while DESC_MAX leaves room, the rest will complete OVER_SHARE. -/
def doorbellTail (c q tail : Nat) (s : State) : State :=
  if s.sqDepth c q ≤ tail then dbErr c q s
  else
    let p := s.qp c q
    let n := (tail + s.sqDepth c q - p.sqTail) % s.sqDepth c q
    let room := s.descMax c - s.get (Fld.CTX_OCC_OUTSTANDING c)
    let ds := (List.range n).map fun i =>
      ({ slot := (p.sqTail + i) % s.sqDepth c q, gen := p.nextGen + i, no := p.nextGen + i, stamp := s.now,
         surplus := decide (room ≤ i) } : Desc)
    s.qpUpd c q fun p => { p with sqTail := tail, nextGen := p.nextGen + n, descs := p.descs ++ ds }

/-- A new completion head: one at or beyond the depth, or one that would pass CQ_TAIL, is ignored. -/
def doorbellHead (c q head : Nat) (s : State) : State :=
  let d := s.cqDepth c q
  if d ≤ head ∨ s.cqUsed c q < (head + d - (s.qp c q).cqHead) % d then dbErr c q s
  else s.qpUpd c q (fun p => { p with cqHead := head }) |> updCqFull c q

/-- A doorbell write, each half where its dword is enabled (06 R129, R130). Of a function that does not exist, or whose context
is ABSENT, nothing of the device claims it (05 Table 05-2). -/
def doorbell (c q : Nat) (tail head : Option Nat) (s : State) : State :=
  if ¬ (s.fn c).enabled ∨ s.cst c = 0 then s
  else if doorbellRefused s c q then s.inc (Fld.CTX_STATE_DB_REFUSED c) 1
  else
    s |> (fun s => match tail with | some t => doorbellTail c q (t % 65536) s | none => s)
      |> (fun s => match head with | some h => doorbellHead c q (h % 65536) s | none => s)

/-- A doorbell write received in stroke `t`, its stamp (06 R130). -/
def doorbellAt (t : Stroke) (c q : Nat) (tail head : Option (BitVec 16)) (s : State) : State :=
  stampedAs t (doorbell c q (tail.map (·.toNat)) (head.map (·.toNat))) s

/-- R130: a doorbell write. -/
def execDoorbellWrite (c : Fin 1024) (q : Fin 64) (tail head : Option (BitVec 16)) (s : State) : Result :=
  done (hostPosted c (.doorbellWrite c q tail head)
    (inOrder c s.now (.doorbellWrite c q tail head) (doorbellAt s.now c q tail head)) s)

/-! ## Fetch (06 R135, R475) -/

/-- Slots not yet fetched, in ring order. -/
def Qp.unfetched (p : Qp) : List Desc := p.descs.filter fun d => d.raw.isNone

/-- Host address of a submission slot. -/
def sqSlotAddr (s : State) (c q slot : Nat) : Nat :=
  (s.word (Adr.QP_SQ_BASE_HI c q)).toNat * 2 ^ 32 + (s.word (Adr.QP_SQ_BASE_LO c q)).toNat + 64 * slot

/-- How many descriptors the next batch covers: at most BATCH, up to the end of the ring, and with ATS the page. -/
def fetchCount (s : State) (c q : Nat) : Nat :=
  match (s.qp c q).unfetched with
  | [] => 0
  | d :: ds =>
    let n := min (s.get Fld.QM_FETCH_CTL_BATCH) (min (ds.length + 1) (s.sqDepth c q - d.slot))
    if (s.fn c).atsEn then min n ((4096 - sqSlotAddr s c q d.slot % 4096) / 64) else n

/-- Host address of the next batch. -/
def fetchAddr (s : State) (c q : Nat) : Nat := sqSlotAddr s c q (((s.qp c q).unfetched.map (·.slot)).headD 0)

/-- The reads of the batch: offsets and lengths (04 R83). -/
def fetchPieces (s : State) (c q : Nat) : List (Nat × Nat) := pieces (s.fn c).mrrs (fetchAddr s c q) 64 0 (64 * fetchCount s c q)

/-- Fetch reads may be issued for a queue pair (04 R472, R95; 05 R116; 06 R128). -/
def mayFetch (s : State) (c q : Nat) : Bool :=
  s.isSet (Fld.QP_STATUS_EN_ACTIVE c q) && s.cst c == 3 && s.hostOpen c && !s.resting && decide (0 < fetchCount s c q)

/-- Slots are fetched: SQ_HEAD passes them. -/
def passSlots (c q n : Nat) (s : State) : State :=
  s.set (Fld.QP_PTR_SQ_HEAD c q) ((s.get (Fld.QP_PTR_SQ_HEAD c q) + n) % s.sqDepth c q)

/-- A fetched descriptor: beyond DESC_MAX it completes OVER_SHARE undecoded, malformed it completes MALFORMED, else it
waits to be dealt. -/
def tookDesc (c q : Nat) (d : Desc) (raw : Raw) (s : State) : State :=
  let d' := { d with raw := some raw }
  let s := s.qpUpd c q fun p => { p with descs := p.descs.map fun x => if x.slot = d.slot ∧ x.gen = d.gen then d' else x }
  if d.surplus then finishOver c q d' s
  else match Raw.malformed raw with
    | some off => finishMalformed c q off d' s
    | none => s

/-- Reads of a batch leave, each within Maximum Read Request Size (04 R83), and take a tag each while they are
outstanding (log 151). -/
def fetchReads (c : Nat) (ta : Addr) (l : List (Nat × Nat)) (s : State) : State :=
  s |>.peak Fld.HL_TAG_STATUS_HWM (s.hl.tags.length + 1)
    |> doAll l (fun p s => emit (.hostRead c (nextTag s c) (ta + BitVec.ofNat 64 p.1) p.2 false) s)

/-- The first `n` slots of a batch are fetched with these bytes. -/
def fetched (c q n : Nat) (data : List Byte) (s : State) : State :=
  s |> passSlots c q n
    |> doAll (((s.qp c q).unfetched.take n).zip (List.range n)) (fun e s => tookDesc c q e.1 (sliceBytes data (64 * e.2) 64) s)

/-- A failed fetch read completes the first `n` unfetched slots with TAG 0 (06 R475). -/
def fetchFailed (c q n status : Nat) (s : State) : State :=
  s |> passSlots c q n
    |> doAll ((s.qp c q).unfetched.take n) (fun d s =>
        finish c q { d with raw := some [1#8, 1#8] } status (2 ^ 30 + d.slot) 0 s)

/-- R135: the queue manager fetches a batch; `data` is what host memory holds there. A ring page without a translation is
asked for, one without permission fails the fetch (04 R86, 06 R475); without a free tag the fetch waits (04 R82). -/
def execDescriptorFetch (c : Fin 1024) (q : Fin 64) (data : List Byte) (s : State) : Result :=
  done (if ¬ mayFetch s c q then s
    else if ¬ tagLeft s c 0 then tagWaits s
    else
      let n := fetchCount s c q
      match xlate s c (fetchAddr s c q) false with
      | some ta =>
        s |> fetchReads c ta (fetchPieces s c q) |> atsUse c (BitVec.ofNat 64 (fetchAddr s c q)) |> fetched c q n data
      | none =>
        if atsRefuses s c (fetchAddr s c q / 4096) false then fetchFailed c q n stDenied s
        else atsAsk (.fetch c q) c (fetchAddr s c q) s)

/-- The statuses of a failed fetch (06 R475): Unsupported Request or Completer Abort, poison, timeout, no permission. -/
def fetchFailStatus : FetchFailure → Nat
  | .refused => stTarget
  | .poisoned => stPoisoned
  | .timeout => stTimeout
  | .denied => stDenied

/-- What a failed fetch read reports beside its entries (04 Table 04-9): a poisoned completion, a timeout, whose tag is
retired. -/
def fetchReport (c q : Nat) (why : FetchFailure) (s : State) : State :=
  match why with
  | .poisoned => aerAdvisory c 12 28 s
  | .timeout =>
    aerAdvisory c 14 31 s
      |>.hlUpd (fun h => { h with tags := h.tags ++
          [(nextTag s c, { ctx := c, use := .fetch q, quarantined := true, issued := s.now, retired := true })] }) |> updTags
  | _ => s

/-- The reads of a batch up to its failed one leave: a read that fails for its translation does not (04 R86). -/
def fetchTried (c q k : Nat) (why : FetchFailure) (s : State) : State :=
  match xlate s c (fetchAddr s c q) false with
  | some ta => fetchReads c ta ((fetchPieces s c q).take (if why = .denied then k else k + 1)) s
  | none => s

/-- R475: of a batch of reads the first `k` succeed and deliver `data`; the next fails, and completes every slot that it covered. What
the batch had beyond it is fetched later. -/
def execDescriptorFetchFail (c : Fin 1024) (q : Fin 64) (k : Fin 64) (data : List Byte) (why : FetchFailure) (s : State) : Result :=
  done (match (fetchPieces s c q)[k.val]? with
    | some p =>
      if mayFetch s c q ∧ tagLeft s c 0 then
        s |> fetchTried c q k why |> fetched c q (p.1 / 64) data |> fetchReport c q why |> fetchFailed c q (p.2 / 64) (fetchFailStatus why)
      else s
    | none => s)

/-! ## Dealing (06 R133, R137; 05 R113) -/

/-- The first fetched descriptor of a queue pair that is not dealt. -/
def nextUndealt (p : Qp) : Option Desc := p.descs.find? fun d => d.raw.isSome && d.engine.isNone

/-- Descriptors before one in its ring. -/
def earlier (p : Qp) (d : Desc) : List Desc := p.descs.takeWhile fun x => x.slot != d.slot || x.gen != d.gen

/-- The opcode of a fetched descriptor. -/
def Desc.op (d : Desc) : Nat := match d.raw with | some r => r.opcode | none => 0xFF

/-- The fence rules of R137 let a descriptor be dealt: FENCE_BEFORE waits for every earlier one, and no earlier FENCE of
the queue pair is outstanding. -/
def fencesAllow (p : Qp) (d : Desc) (r : Raw) : Bool :=
  (!r.fenceBefore || (earlier p d).isEmpty) && !((earlier p d).any fun x => x.op == 3)

/-- The movements of a descriptor: whether upward, to host memory, or downward, to a window, the store or a peer; and whether it is
the item of a write to the store. The read request to a window or a peer is one of its own (07 Table 07-2). -/
def Raw.moves (r : Raw) : List (Bool × Bool) :=
  let toDst : Bool × Bool := (r.dstKind == 0, r.dstKind == 2)
  match r.opcode with
  | 1 => toDst :: (if r.srcKind = 1 ∨ r.srcKind = 3 then [(false, false)] else [])
  | 2 => [toDst]
  | 5 => (false, r.dstKind == 2) :: (if r.srcKind = 0 then [(true, false)] else [])
  | 6 | 7 => [(false, false)]
  | 8 => if r.markWrite then [(true, false)] else []
  | _ => []

/-- A descriptor whose class has weight 0 in a direction it needs waits in its queue (05 R113); a C0 item for the store
is carried as C2 and served by age promotion even with weight 0 (07 R158). -/
def weightsAllow (s : State) (c : Nat) (r : Raw) : Bool :=
  r.moves.all fun m => s.weight c m.1 r.cls != 0 || (m.2 && r.cls == 0)

/-- Verdict on one side of a descriptor (06 R133, 09 Table 09-1); `len` bytes read or written. The host address space holds
2^64 bytes; a kind-3 address names a context on this member where PEL_LOC has this member serve it (14 R347). -/
def sideVerdict (s : State) (c kind addr win len : Nat) (rd wr : Bool) : Verdict :=
  match kind with
  | 0 => if 2 ^ 64 < addr + len then .refused 1 0 else checkHost s c addr len wr
  | 1 => checkWindow s c win addr len rd wr
  | 2 => checkApt s (onlineApt s c) addr len
  | 3 => if (s.placeOf (peerGctx addr)).1 = s.me ∨ 2 ^ 40 ≤ peerOff addr then .noEntry else .pass
  | _ => .pass

/-- Bytes on the source side that a descriptor reads from, or writes back to, and whether it writes there. -/
def Raw.srcLen (r : Raw) : Nat := if r.opcode = 5 ∧ r.srcKind = 0 then r.size else r.length

/-- Bytes on the destination side: SIZE of ATOMIC, 16 of a MARK record; SEND and FRAME_OUT are checked as a write of
LENGTH bytes at offset 0 of the window (10 R243). -/
def Raw.dstLen (r : Raw) : Nat :=
  match r.opcode with
  | 8 => if r.markWrite then 16 else 0
  | _ => r.length

/-- Bytes of host memory that a side of a descriptor reads or writes; true for the destination. -/
def hostSpan (r : Raw) (dst : Bool) : Nat :=
  match formOf r.opcode with
  | none => 0
  | some f => if dst then (if f.usesDst ∧ r.dstKind = 0 then r.dstLen else 0) else if f.usesSrc ∧ r.srcKind = 0 then r.srcLen else 0

/-- The first refused side of a descriptor: false for the source; its verdict, window, offset and length. Where both fail, the source
is the one reported, and steps 2 to 4 of both come before step 5 on pages that are not cached (DESIGN CHOICE, log 201). -/
def descRefusal (s : State) (c : Nat) (r : Raw) : Option (Bool × Verdict × Nat × Nat × Nat) :=
  let f := (formOf r.opcode).getD ⟨[], [], false, false, 0, 0⟩
  let sv := if f.usesSrc ∧ r.srcKind ≠ 4 then
    sideVerdict s c r.srcKind r.src r.srcWin r.srcLen (r.opcode != 5) (r.opcode == 5) else .pass
  let dv := if f.usesDst then
    sideVerdict s c r.dstKind r.dst r.dstWin r.dstLen (r.opcode == 5) true else .pass
  if sv ≠ .pass then some (false, sv, r.srcWin, r.src, r.srcLen)
  else if dv ≠ .pass then some (true, dv, r.dstWin, r.dst, r.dstLen)
  else none

/-- MIRROR is satisfied: the durable destination is mirrored and in TANDEM (06 R131, 11 R255). -/
def mirrorHolds (s : State) (c : Nat) : Bool :=
  match onlineApt s c with
  | some a => s.get (Fld.DS_APT_STATUS_MIRROR a) == 1
  | none => false

/-- Where a window leads now. -/
def winMap (s : State) (c w : Nat) : WinMap :=
  ⟨s.winPort c w, s.winLocal c w, s.winTmo c w, s.isSet (Fld.WIN_ATTR_ACKED c w), s.isSet (Fld.WIN_ATTR_ONCE c w)⟩

/-- A descriptor is dealt to an engine, unless it is refused; it keeps the windows as they were checked (08 R197), and the
translations found (09 R217). -/
def dealDesc (c q e : Nat) (d : Desc) (r : Raw) (s : State) : State :=
  let s := s.inc Fld.QM_DEALT_COUNT 1
  match descRefusal s c r with
  | some (dst, v, w, off, len) =>
    let cg : Nat × Nat := match v with | .refused cause g => (cause, g) | _ => (0, 0)
    s |> refuseDesc c q dst cg.1 cg.2 (match v with | .refused _ _ => w | _ => 0) off len
      |> finish c q d stDenied (sideDetail dst (if cg.1 = 3 then 1 else 0)) 0
  | none =>
    if r.mirror ∧ ¬ mirrorHolds s c then finish c q d stTarget (sideDetail true 0xFD) 0 s
    else s.descUpd (keyOf c q d) fun d => { 
      d with engine := some e, dealt := s.now, swin := winMap s c r.srcWin, dwin := winMap s c r.dstWin,
             apt := (onlineApt s c).getD 0, spages := knownPages s c r.src (hostSpan r false) (r.opcode == 5),
             dpages := knownPages s c r.dst (hostSpan r true) true }

/-- R137: the next descriptor of a queue pair is dealt to engine `e`, which is not fenced, while the completion ring has
room and the fence rules and weights allow. -/
def execDescriptorDeal (c : Fin 1024) (q : Fin 64) (e : Fin 32) (s : State) : Result :=
  done (match nextUndealt (s.qp c q) with
    | none => s
    | some d =>
      match d.raw with
      | none => s
      | some r =>
        if s.isSet (Fld.QP_STATUS_EN_ACTIVE c q) ∧ s.cst c = 3 ∧ ¬ s.resting ∧
            bitOf (s.get Fld.QM_SPOKE_FENCED_ENGINE) e = false ∧ ¬ s.cqFull c q ∧
            fencesAllow (s.qp c q) d r ∧ weightsAllow s c r then dealDesc c q e d r s
        else s)

/-! ## Completion (06 R136 to R140) -/

/-- The descriptor's work is done: it has ended, or failed, and nothing of it is outstanding (06 R136). -/
def Desc.finished (d : Desc) : Bool :=
  d.engine.isSome && d.rpend == 0 && d.wpend == 0 &&
    (d.fail.isSome || d.ended || match d.raw with
      | some r => (r.opcode == 1 || r.opcode == 2) && d.wnext == r.length
      | none => false)

/-- R136: a descriptor whose status is final and whose writes are all issued, acknowledged or accepted. -/
def execDescriptorComplete (c : Fin 1024) (q : Fin 64) (slot : Fin 65536) (s : State) : Result :=
  done (match (s.qp c q).descs.find? fun d => d.slot == slot.val && d.finished with
    | some d =>
      match d.fail with
      | some (st, det) => finish c q d st det d.bytes s
      | none => finish c q d stOk d.detail d.bytes s
    | none => s)

/-- Bytes of a completion entry (06 Table 06-4). -/
def cplBytes (e : Cpl) (head : Nat) (phase late : Bool) : List Byte :=
  leBytes 4 e.tag ++ leBytes 2 head ++ leBytes 1 e.status ++
    leBytes 1 (phase.toNat + 2 * e.retried.toNat + 4 * late.toNat) ++ leBytes 4 e.bytes ++ leBytes 4 e.detail

/-- Host address of a completion slot. -/
def cqSlotAddr (s : State) (c q slot : Nat) : Nat :=
  (s.word (Adr.QP_CQ_BASE_HI c q)).toNat * 2 ^ 32 + (s.word (Adr.QP_CQ_BASE_LO c q)).toNat + 16 * slot

/-- CQ_TAIL advances; PHASE inverts on each wrap (06 R139). -/
def cqAdvance (c q : Nat) (s : State) : State :=
  let t := (s.get (Fld.QP_PTR_CQ_TAIL c q) + 1) % s.cqDepth c q
  s |>.set (Fld.QP_PTR_CQ_TAIL c q) t
    |> doIf (t == 0) (fun s => s.set (Fld.QP_STATUS_CQ_PHASE c q) (1 - s.get (Fld.QP_STATUS_CQ_PHASE c q)))

/-- A PROGRESS watchdog reloads at each completion entry written for the context (05 Table 05-11). -/
def wdogReload (c : Nat) (s : State) : State :=
  s.set (Fld.CTX_WDOG_STATUS_REMAIN c) (s.get (Fld.CTX_SEL_WDOG_PERIOD c))

/-- One completion entry is written for a queue pair. -/
def writeEntry (c q : Nat) (e : Cpl) (data : List Byte) (s : State) : State :=
  s |> hostWriteOut c (cqSlotAddr s c q (s.get (Fld.QP_PTR_CQ_TAIL c q))) data false false
    |> cqAdvance c q
    |> doIf e.retried (·.inc (Fld.QP_CNT_RETRIED c q) 1)
    |> doIf (s.get (Fld.CTX_WDOG_STATUS_MODE c) == 2) (wdogReload c)
    |> doIf e.evt (coalesce c q)
    |> updCqFull c q

/-- R139: the oldest waiting completion entry of a queue pair is written, while the ring has a free slot and the host
link may be used for the context, behind the entries of reserved indices (10 R239); its ring page is translated (04 R86), and an entry whose page is not permitted waits
(log 153). -/
def execCompletionEntryWrite (c : Fin 1024) (q : Fin 64) (s : State) : Result :=
  done (match (s.qp c q).cpls with
    | [] => s
    | e :: es =>
      if s.cqFull c q ∨ (s.qp c q).resv ≠ [] then s
      else
        match hostWay (.entry c) c (cqSlotAddr s c q (s.get (Fld.QP_PTR_CQ_TAIL c q))) 16 true s with
        | (s, .go) => s |> writeEntry c q e (cplBytes e (s.get (Fld.QP_PTR_SQ_HEAD c q)) (s.isSet (Fld.QP_STATUS_CQ_PHASE c q))
              (s.get (Fld.CTX_WFENCE_FAILS c) != 0))
          |>.qpUpd c q (fun p => { p with cpls := es })
        | (s, _) => s)

/-! ## Abort (06 R142) -/

/-- R142: writing 1 to QP_ABORT.GO; ignored while RESULT reads PENDING. -/
def qpAbortGo (c q : Nat) (s : State) : State :=
  if s.get (Fld.QP_ABORT_RESULT c q) = 1 then s
  else s.set (Fld.QP_ABORT_RESULT c q) 1 |>.qpUpd c q fun p => { p with abort := some s.now }

/-- R142: QP_ABORT.GO. -/
def execQpAbortGo (c : Fin 1024) (q : Fin 64) (s : State) : Result := done (qpAbortGo c q s)

/-- The abort of a queue pair is resolved: RESULT takes its final value. -/
def abortDone (c q result : Nat) (s : State) : State :=
  s.set (Fld.QP_ABORT_RESULT c q) result |>.qpUpd c q fun p => { p with abort := none }

/-- A commit point lies in or before stroke `t`. -/
def Desc.committedBy (d : Desc) (t : Stroke) : Bool :=
  match d.commit with
  | some x => decide ((t - x).toNat < 2 ^ 47)
  | none => false

/-- The first of a queue pair's outstanding descriptors in ring order that were fetched and whose TAG matches: one that
waits for its completion entry, or one that still runs (06 R142). -/
def abortTarget (p : Qp) (tag : Nat) : Option (Option Desc) :=
  let running := (p.descs.filter fun d => match d.raw with | some r => r.tag == tag | none => false).map fun d => (d.no, some d)
  let ended := p.cpls.filterMap fun e => if e.tag = tag then e.no.map fun n => (n, (none : Option Desc)) else none
  ((running ++ ended).foldl (fun (b : Option (Nat × Option Desc)) x =>
    match b with
    | none => some x
    | some y => if x.1 < y.1 then some x else some y) none).map (·.2)

/-- A reset or destroy of a context was stamped in a stroke: one that is pending, or a command that no core has taken (06 R142). -/
def resetStamped (s : State) (c : Nat) (t : Stroke) : Bool :=
  (match (s.ctx c).op with | some o => o.stamp == t | none => false) ||
    s.cmds.any fun x => (x.op == 0x0203 || x.op == 0x0204) && leAt x.args 0 2 == c && x.stamp == t && !x.dropped && !x.fwd

/-- R142: an abort is resolved for the end of its stamp stroke S against the descriptor whose TAG stands in QP_ABORT_TAG
now (DESIGN CHOICE, log 154); a reset or destroy stamped in S wins. -/
def abortResolve (c q : Nat) (s : State) : State :=
  match (s.qp c q).abort with
  | none => s
  | some at_ =>
    if resetStamped s c at_ then abortDone c q 0 s
    else
      match abortTarget (s.qp c q) (s.get (Fld.QP_ABORT_TAG_TAG c q)) with
      | none => abortDone c q 4 s
      | some none => abortDone c q 3 s
      | some (some d) =>
        if d.committedBy at_ then abortDone c q 3 s
        else cancelDesc (keyOf c q d) s |> finish c q d stAborted 0 0 |> abortDone c q 2

/-- Every pending abort is resolved: at the end of its stamp stroke (06 R142). -/
def abortsEnd (s : State) : State :=
  s |> doAll (s.qps.filter fun x => x.2.abort.isSome) (fun x => abortResolve (x.1 / 64) (x.1 % 64))

/-- R142: the abort of a queue pair is resolved at the end of its stamp stroke, which the boundary to come is; one left over from an
earlier stroke at once. -/
def execAbortResolve (c : Fin 1024) (q : Fin 64) (s : State) : Result :=
  done (if (s.qp c q).abort = some s.now then atBoundary (.abortEnd c q) s else abortResolve c q s)

/-! ## Spoke-engine fence (06 R143, R144) -/

/-- What becomes of a fenced engine's descriptor (06 Table 06-7). -/
inductive Refence where
  | again
  | uncertain
  | notRetried
deriving DecidableEq, Repr

/-- A destination of a descriptor is not repeated once issued: ONCE is set, or its window is once-only; that of a peer stands in
the other member (log 182). -/
def onceSide (s : State) (c : Nat) (r : Raw) : Bool :=
  r.once || (r.dstKind == 1 && s.isSet (Fld.WIN_ATTR_ONCE c r.dstWin)) ||
    (r.dstKind == 3 && Config.peerOnce (peerGctx r.dst) r.dstWin s.now)

/-- The row of Table 06-7 for a descriptor. One with ONCE set is never repeated: once it has issued or had accepted any
write it ends UNCERTAIN, whatever its destination, and once it has read a window, NOT_RETRIED (06 R131; log 155). -/
def refenceOf (s : State) (c : Nat) (d : Desc) (r : Raw) : Refence :=
  let wrote : Bool := d.sent || !d.done.isEmpty
  match r.opcode with
  | 1 | 2 =>
    if wrote ∧ (r.once ∨ r.dstKind = 1 ∨ r.dstKind = 3) ∧ onceSide s c r then .uncertain
    else if r.opcode = 1 ∧ d.localRead ∧ r.srcKind = 1 ∧ (r.once ∨ s.isSet (Fld.WIN_ATTR_ONCE c r.srcWin)) then .notRetried
    else .again
  | 5 | 6 | 7 => if d.sent then .uncertain else .again
  | _ => if r.once ∧ wrote then .uncertain else .again

/-- The end of the bytes accepted without a gap from an offset on. -/
def acceptedTo : Nat → Nat → List (Nat × Nat) → Nat
  | 0, at_, _ => at_
  | fuel + 1, at_, l =>
    match l.find? fun p => p.1 == at_ && p.2 != 0 with
    | some p => acceptedTo fuel (at_ + p.2) l
    | none => at_

/-- A fenced engine's descriptor is treated and, where it is repeated, re-dealt to engine `takes` (06 R143): durable
writes already accepted stay, and the rest is written from the journal's place on. -/
def refence (c q takes : Nat) (d : Desc) (s : State) : State :=
  match d.raw with
  | none => s
  | some r =>
    let s := cancelDesc (keyOf c q d) s
    match refenceOf s c d r with
    | .again =>
      let at_ := acceptedTo d.done.length 0 d.done
      let n := (d.done.map (·.2)).sum
      s.qpUpd c q fun p => { p with nextGen := p.nextGen + 1, descs := p.descs.map fun x =>
        if x.slot = d.slot ∧ x.gen = d.gen then
          { x with gen := p.nextGen, engine := some takes, rnext := at_, rpend := 0, got := [], wnext := at_, wpend := 0,
                   bytes := n, ack := n, old := [], persistAt := none, sent := false, localRead := false, ended := false, fail := none, fenced := true }
        else x }
    | .uncertain => finish c q { d with fenced := true } stUncertain d.ack d.bytes s
    | .notRetried => finish c q { d with fenced := true } stNotRetried 0 d.bytes s

/-- Descriptors that an engine holds: context, queue pair, descriptor. -/
def heldBy (s : State) (e : Nat) : List (Nat × Nat × Desc) :=
  s.qps.flatMap fun x => (x.2.descs.filter fun d => d.engine == some e).map fun d => (x.1 / 64, x.1 % 64, d)

/-- How many of a fenced engine's descriptors are re-dealt. -/
def redealt (s : State) (held : List (Nat × Nat × Desc)) : Nat :=
  (held.filter fun h => match h.2.2.raw with | some r => refenceOf s h.1 h.2.2 r == .again | none => false).length

/-- R143, R144: engine `e` is fenced with CAUSE 0x01 or 0x02; its descriptors go to the lowest-numbered engine left
(DESIGN CHOICE, log 156). -/
def engineFence (e : Nat) (journal : Bool) (s : State) : State :=
  let old := s.get Fld.QM_SPOKE_FENCED_ENGINE
  if bitOf old e then s
  else
    let new := orBit old e
    let n := popCount 32 new
    let takes := ((List.range 32).find? fun i => !bitOf new i).getD 0
    let held := heldBy s e
    let again := redealt s held
    let cause := 1 + journal.toNat
    s |>.set Fld.QM_SPOKE_FENCED_ENGINE new |>.set Fld.DEV_FAULT_STATUS_SPOKES_FENCED n
      |>.set Fld.QM_SPOKE_LOG_VALID 1 |>.set Fld.QM_SPOKE_LOG_ENGINE e |>.set Fld.QM_SPOKE_LOG_CAUSE cause
      |>.set Fld.QM_SPOKE_LOG_REDEALT (min 65535 again) |>.set Fld.QM_SPOKE_TS_STROKE_LO s.nowLo
      |> doAll held (fun h s => refence h.1 h.2.1 takes h.2.2 s)
      |> raise 248 |> ctxEvent 0 3
      |> logEv 0x0010 (leBytes 1 e ++ leBytes 1 cause ++ leBytes 2 again)
      |> (fun s =>
        if n = 1 then reportCie s
        else if n < 8 then reportDegraded s
        else if n = 8 && !faultStopRuns s then faultStop 1 s
        else reportUie s)

/-- Engines found faulty in the stroke are fenced at its end (06 R143). -/
def enginesFence (s : State) : State :=
  { s with deferred := s.deferred.filter fun d => match d with | .engineFence _ _ => false | _ => true }
    |> doAll s.deferred (fun d s => match d with | .engineFence e j => engineFence e j s | _ => s)

/-- R143: a parity mismatch or a journal disagreement of engine `e`: it is fenced at the end of the stroke. -/
def execSpokeEngineFence (e : Fin 32) (journal : Bool) (s : State) : Result :=
  done { s with deferred := s.deferred ++ [.engineFence e journal] }

end Sys2Proof.Machine
end

