-- ==== Sys2Proof/Machine/Answers.lean ====
section
/-! DEFINITION. Machine/Answers.lean: what the end of a request to a local agent or a peer does to the party that waits
for it: host reads (08 R202), posted writes (06 R145, R146), descriptors (06 R140), peers (14 R349). -/
namespace Sys2Proof.Machine

/-- How a request ended. -/
inductive Ans where
  /-- Performed, with the data that came back. -/
  | ok (data : List Byte)
  /-- A final response code of Table 08-5 other than OK and SIDE_EFFECT. -/
  | code (n : Nat)
  /-- Unsupported Request or Completer Abort of the host (04 Table 04-7). -/
  | hostFail
  | timeout
  /-- The port was not ACTIVE before issue, the member is not reachable, or the target context is absent. -/
  | notIssued
  /-- The link was flushed. -/
  | linkLost (k : Nat)
  /-- Refused at the peer: with the ATS bit clear. -/
  | denied
  /-- Uncorrectable durable data at an offset in 4 KiB units. -/
  | media (at_ : Nat)
deriving DecidableEq, Repr

/-! ## Host reads -/

/-- One host read changed. -/
def hreadUpd (id : Nat) (f : HRead → HRead) (s : State) : State :=
  { s with hreads := s.hreads.map fun r => if r.id = id then f r else r }

/-- A host read leaves the device's books: its C0 request no longer counts as outstanding (07 R166). -/
def hreadGone (r : HRead) (s : State) : State :=
  { s with hreads := s.hreads.filter fun x => x.id != r.id }
    |> doIf r.c0 (fun s => s.ctxUpd r.c fun x => { x with c0out := x.c0out - 1 })

/-- The bytes of a host read, put together in address order. -/
def gather (len : Nat) (got : List (Nat × List Byte)) : List Byte :=
  (List.range len).map fun i =>
    match got.find? fun g => decide (g.1 ≤ i ∧ i < g.1 + g.2.length) with
    | some g => g.2.getD (i - g.1) 0
    | none => 0

/-- The first failing piece of a host read answers it: a Completer Abort reported as an advisory (outcome 2), one before issue
(outcome 4), or poisoned data (outcome 3). -/
def hreadFailed (r : HRead) (at_ outcome : Nat) (s : State) : State :=
  let s := hreadGone r s
  match outcome with
  | 3 => emit (.cpl r.c 4 []) s
  | 4 => emit (.cpl r.c 2 []) s
  | _ => s |> emit (.cpl r.c 2 []) |> reportAbort r.c (r.off + at_) r.len

/-- A host read whose pieces have all ended: its data takes upward slots; an error completion takes none, but leaves the device
only behind the earlier upstream writes of its port (08 R195). -/
def hreadSettle (id : Nat) (s : State) : State :=
  match s.hreads.find? fun r => r.id == id with
  | none => s
  | some r =>
    if r.pend ≠ 0 then s
    else
      match r.fail with
      | none => addItem true r.c (if r.bar = 4 then 2 else r.cls) 9 r.len true (.hostData id) s
      | some (at_, x) =>
        if r.bar = 2 ∧ ¬ upWritesIssued s r.port s.cad.nextId then addWaiting true r.c r.cls 9 (.hostData id) s else hreadFailed r at_ x s

/-- The outcome code of an answer for a host read (08 Table 08-9). -/
def hreadOutcome : Ans → Nat
  | .code 2 => 3
  | .media _ => 3
  | .notIssued => 4
  | _ => 2

/-- A piece of a host read ends: a failing piece earlier in address order decides over a later one (08 R199). -/
def hreadAns (id off : Nat) (a : Ans) (s : State) : State :=
  s |> hreadUpd id (fun r =>
      match a with
      | .ok d => { r with pend := r.pend - 1, got := r.got ++ [(off, d)] }
      | _ => { r with pend := r.pend - 1,
                      fail := match r.fail with
                        | some (o, x) => if o ≤ off then some (o, x) else some (off, hreadOutcome a)
                        | none => some (off, hreadOutcome a) })
    |> hreadSettle id

/-! ## Posted-write errors (06 R145, R146) -/

/-- Entries of the error ring. -/
def pweSize (s : State) (c : Nat) : Nat := 2 ^ s.get (Fld.CTX_PWE_CFG_LOG2 c)

/-- The error ring has no free slot: one is kept free. -/
def pweFull (s : State) (c : Nat) : Bool :=
  (s.get (Fld.CTX_PWE_TAIL_TAIL c) + 1) % pweSize s c == s.get (Fld.CTX_PWE_HEAD_HEAD c) % pweSize s c

/-- The bytes of an error-ring entry (06 Table 06-9). -/
def pweBytes (seq off : Nat) (st : Stroke) (len w resp : Nat) (phase overflow : Bool) : List Byte :=
  leBytes 8 seq ++ leBytes 8 off ++ leBytes 8 st.toNat ++ leBytes 4 len ++ leBytes 1 (w % 16) ++ leBytes 1 resp ++
    leBytes 1 (phase.toNat + 2 * overflow.toNat) ++ leBytes 1 0

/-- The oldest entry that waits for the host link, or for the translation of its page, is written with its MSI-X signal
(04 R472, R86). -/
def pweFlushOne (c : Nat) (s : State) : State :=
  match (s.ctx c).pweWait with
  | [] => s
  | e :: es =>
    match hostWay (.entry c) c e.1 e.2.length true s with
    | (s, .go) =>
      s |> hostWriteOut c e.1 e.2 false false |> trigger c (s.get (Fld.CTX_PWE_CFG_VECTOR c)) none
        |>.ctxUpd c fun x => { x with pweWait := es }
    | (s, _) => s

/-- Entries that wait are written, oldest first, as far as they can go. -/
def pweFlush (c : Nat) (s : State) : State := s |> doAll (s.ctx c).pweWait (fun _ => pweFlushOne c)

/-- TAIL passes a slot; PHASE inverts at each wrap. -/
def pweAdvance (c : Nat) (s : State) : State :=
  let t := (s.get (Fld.CTX_PWE_TAIL_TAIL c) + 1) % pweSize s c
  s |>.set (Fld.CTX_PWE_TAIL_TAIL c) t
    |> doIf (t == 0) (fun s => s.set (Fld.CTX_PWE_TAIL_PHASE c) (1 - s.get (Fld.CTX_PWE_TAIL_PHASE c)))

/-- A failing packet of a host posted write to an acked window. -/
def pweFail (c w seq off len resp : Nat) (s : State) : State :=
  let s := s.inc (Fld.CTX_PWE_STATUS_TOTAL c) 1 |>.inc (Fld.CTX_WFENCE_FAILS c) 1
  (if s.isSet (Fld.CTX_PWE_CFG_EN c) && !pweFull s c then
      let a := (s.word (Adr.CTX_PWE_BASE_HI c)).toNat * 2 ^ 32 + (s.word (Adr.CTX_PWE_BASE_LO c)).toNat +
        32 * s.get (Fld.CTX_PWE_TAIL_TAIL c)
      let b := pweBytes seq off s.now len w resp (s.isSet (Fld.CTX_PWE_TAIL_PHASE c)) (s.ctx c).pweOverflow
      s.ctxUpd c (fun x => { x with pweWait := x.pweWait ++ [(a, b)], pweOverflow := false })
        |> pweAdvance c |> pweFlush c
    else
      s.inc (Fld.CTX_PWE_STATUS_LOST c) 1
        |> (fun s => s.ctxUpd c fun x => { x with pweOverflow := true }) |> raise 253)
    |> reportAbort c off len

/-- The RESP byte of an error-ring entry: the local code, NO_TARGET for a port not ACTIVE, 0xFF for a timeout. -/
def pweResp : Ans → Nat
  | .code n => n
  | .notIssued => 3
  | _ => 0xFF

/-! ## Descriptors -/

/-- Bytes of waiting items of a descriptor that read and that write: they are withdrawn when it fails. -/
def itemShare (k : DKey) (i : Item) : Nat × Nat :=
  match i.work with
  | .descLocal _ e =>
    match e.src with
    | some (.desc y _ n) => if y = k then (if e.pkt.op = 0 then (n, 0) else (0, n)) else (0, 0)
    | _ => (0, 0)
  | .descPeer y _ n m => if y = k then (if m.mtype = 2 then (n, 0) else (0, n)) else (0, 0)
  | .descHost y _ _ d => if y = k then (0, d.length) else (0, 0)
  | .descDur y _ _ _ d => if y = k then (0, d.length) else (0, 0)
  | _ => (0, 0)

/-- An item that moves bytes of a descriptor. -/
def itemOf (k : DKey) (i : Item) : Bool :=
  match i.work with
  | .descLocal _ e => (match e.src with | some (.desc y _ _) => y == k | _ => false)
  | .descPeer y _ _ _ => y == k
  | .descHost y _ _ _ => y == k
  | .descDur y _ _ _ _ => y == k
  | _ => false

/-- The first failing step of a descriptor decides its status; no later step is taken (06 R140): what it has not yet
issued is withdrawn. -/
def descFail (k : DKey) (st det : Nat) (s : State) : State :=
  let mine := s.cad.items.filter (itemOf k)
  let rd := (mine.map fun i => (itemShare k i).1).sum
  let wr := (mine.map fun i => (itemShare k i).2).sum
  s |> dropItems (itemOf k)
    |>.descUpd k (fun d => { d with fail := d.fail.orElse fun _ => some (st, det),
                                    rpend := d.rpend - rd, wpend := d.wpend - wr })

/-- Status and DETAIL of a failing answer (06 Table 06-5). -/
def failOf (dst : Bool) : Ans → Nat × Nat
  | .ok _ => (stOk, 0)
  | .code 2 => (stPoisoned, sideDetail dst 0)
  | .code 3 => (stNoTarget, sideDetail dst 0)
  | .hostFail => (stTarget, sideDetail dst 0xFE)
  | .code n => (stTarget, sideDetail dst n)
  | .timeout => (stTimeout, sideDetail dst 0)
  | .notIssued => (stNoTarget, sideDetail dst 0)
  | .linkLost k => (stLinkLost, k)
  | .denied => (stDenied, sideDetail dst 0)
  | .media n => (stMedia, n)

/-- A read of a descriptor's source is answered. -/
def descRead (k : DKey) (off len : Nat) (a : Ans) (s : State) : State :=
  match a with
  | .ok d => s.descUpd k fun x => { x with rpend := x.rpend - len, got := x.got ++ [(off, d)] }
  | _ => s.descUpd k (fun x => { x with rpend := x.rpend - len }) |> descFail k (failOf false a).1 (failOf false a).2

/-- An acked write of a descriptor's destination is answered; one that was never issued was not counted as done (06
R138). -/
def descWrite (k : DKey) (len : Nat) (a : Ans) (s : State) : State :=
  match a with
  | .ok _ => s.descUpd k fun x => { x with wpend := x.wpend - len, ack := x.ack + len }
  | _ =>
    s.descUpd k (fun x => { x with wpend := x.wpend - len, bytes := if a = .notIssued then x.bytes else x.bytes - len })
      |> descFail k (failOf true a).1 (failOf true a).2

/-- An atomic operation is answered: the original value is kept for SRC, or its low 32 bits for DETAIL (06 R134). -/
def descAtomic (k : DKey) (len : Nat) (a : Ans) (s : State) : State :=
  match a with
  | .ok d =>
    s.descUpd k fun x =>
      { x with wpend := x.wpend - len, ack := x.ack + len, old := d,
               detail := (match x.raw with | some r => if r.srcKind = 4 then leAt d 0 4 else 0 | none => 0),
               ended := (match x.raw with | some r => r.srcKind == 4 | none => true) }
  | _ => descWrite k len a s

/-- Bytes of a descriptor's destination are issued: written without an answer they are confirmed at once. -/
def descIssued (k : DKey) (len : Nat) (acked : Bool) (s : State) : State :=
  s.descUpd k fun x =>
    { x with bytes := x.bytes + len, sent := true, wpend := if acked then x.wpend else x.wpend - len,
             ack := if acked then x.ack else x.ack + len }

/-! ## Peers -/

/-- The response status of an answer (13 Table 13-11). -/
def peerStat : Ans → Nat
  | .ok _ => 0
  | .code n => n
  | .hostFail => 1
  | .timeout => 4
  | .notIssued => 3
  | .linkLost _ => 3
  | .denied => 5
  | .media _ => 6

/-- The member and local context a message came from: those that serve SRC_GCTX, or its own member where that is not
joined. -/
def senderOf (s : State) (m : UMsg) : Nat × Nat := (s.located m.src).getD (m.src / 1024, m.src % 1024)

/-- The response to a request of a peer: it returns to where SRC_GCTX is served, in the request's class (13 R321). -/
def respMsg (s : State) (m : UMsg) (stat : Nat) (data : List Byte) : UMsg :=
  { mtype := 4, cls := m.cls, dst := (senderOf s m).1, stat := stat, tag := m.tag, src := s.gctx m.ctx, ctx := (senderOf s m).2,
    win := 0, off := 0, data := data }

/-- A message takes downward slots toward its first hop, charged to a context in its class (14 R348, R349). A message
with no route is not sent. -/
def messageItem (c : Nat) (m : UMsg) (s : State) : State :=
  match s.routeFor m.dst m.ctx with
  | some k => addItem false c m.cls (4 + k) m.data.length false (.message m) s
  | none => s

/-- The link a received message came on was flushed since: its response is discarded (13 Table 13-13). -/
def viaGone (s : State) (m : UMsg) : Bool :=
  match m.via with
  | some (k, e) => (s.link k).epoch != e
  | none => false

/-- A request of a peer is answered. -/
def peerAns (m : UMsg) (a : Ans) (s : State) : State :=
  if viaGone s m then s else
  messageItem m.ctx (respMsg s m (peerStat a) (match a with | .ok d => d | _ => [])) s

/-! ## All -/

/-- What the end of a request does to its source; `op` is the operation of Table 08-4. A host write to a plain window
reports nothing (08 R200); speculative reads are ended by their port, mirror copies by the durable store, STATE messages
by the peloton. -/
def answer (src : ReqSrc) (op : Nat) (a : Ans) (s : State) : State :=
  match src with
  | .hostRead id off => hreadAns id off a s
  | .hostWrite c w seq off len => 
    (match a with | .ok _ => s | _ => if op = 1 then s else pweFail c w seq off len (pweResp a) s)
  | .desc k off len => if op = 0 then descRead k off len a s else if op = 3 then descAtomic k len a s else descWrite k len a s
  | .peer m _ => peerAns m a s
  | .spec _ _ _ => s
  | .mirror _ => s
  | .state _ _ => s
  | .nobody => s

end Sys2Proof.Machine
end

