-- ==== Sys2Proof/Machine/Bridge.lean ====
section
/-! DEFINITION. Machine/Bridge.lean: the message bridge: routes, acceptance, delivery to queue pairs, peer routes, drops
(10 R233 to R246). -/
namespace Sys2Proof.Machine

/-! ## Routes -/

/-- The address of the entry for an item, if its port's bank routes it (10 Table 10-1): kind 1 FRAME, 2 MSG, 3
SIDEBAND. -/
def routeAddr (s : State) (p kind ident info : Nat) : Option Nat :=
  match kind with
  | 1 => some (Adr.MSG_FRT_LO p (info % 16))
  | 2 =>
    if s.isSet (Fld.MSG_PORT_MAP_EN p) ∧ ident < 2 ^ s.get (Fld.MSG_PORT_MAP_BITS p) then
      some (Adr.MSG_RT_LO ((s.get (Fld.MSG_PORT_MAP_BASE p) + ident) % 65536))
    else none
  | _ => some (Adr.MSG_SBT_LO p (ident % 16))

/-- The 64 bits in force of the entry at an address (10 R235). -/
def routeWord (s : State) (a : Nat) : Nat :=
  (tabGet resetOf s.inForce a).toNat + 2 ^ 32 * (tabGet resetOf s.inForce (a + 4)).toNat

/-- PEER of a route. -/
def routePeer (r : Nat) : Bool := bitOf r 62
/-- CLASS of a route. -/
def routeCls (r : Nat) : Nat := bitsOf r 61 60
/-- CTX of a route with PEER 0. -/
def routeCtx (r : Nat) : Nat := bitsOf r 25 16
/-- QP of a route with PEER 0. -/
def routeQp (r : Nat) : Nat := bitsOf r 5 0
/-- MEMBER of a route with PEER 1. -/
def routeMember (r : Nat) : Nat := bitsOf r 22 20
/-- PORT of a route with PEER 1. -/
def routePort (r : Nat) : Nat := bitsOf r 17 16
/-- ID of a route with PEER 1. -/
def routeId (r : Nat) : Nat := bitsOf r 15 0

/-- An entry acts as VALID 1 (10 R234). -/
def routeOk (s : State) (r : Nat) : Bool :=
  bitOf r 63 && routeCls r != 0 && bitsOf r 58 48 == 0 &&
    (if routePeer r then bitsOf r 47 23 == 0 && bitsOf r 19 18 == 0 && routeMember r != s.me && !s.standAlone
      else bitsOf r 47 26 == 0 && bitsOf r 15 6 == 0)

/-! ## Drops (10 R245) -/

/-- The counter of a cause. -/
def dropCounter (p : Nat) : Nat → Field
  | 1 => Fld.MSG_DROP_CNT_NO_ROUTE p
  | 2 => Fld.MSG_DROP_CNT_NOT_READY p
  | 3 => Fld.MSG_DROP_CNT_RQ_FULL p
  | 4 => Fld.MSG_DROP_CNT_BUF_FULL p
  | 5 => Fld.MSG_DROP_CNT2_TOO_BIG p
  | 6 => Fld.MSG_DROP_CNT2_PARTIAL p
  | 7 => Fld.MSG_DROP_CNT2_PEER_LOST p
  | _ => Fld.MSG_DROP_CNT2_DRAINING p

/-- A drop is counted and recorded; RQ_FULL, TOO_BIG and BUF_FULL count in DROPS of the queue pair that the route names, if
there is one: `route` 0 stands for none. -/
def countDrop (p cause kind ident route : Nat) (s : State) : State :=
  s |>.inc (dropCounter p cause) 1
    |>.set Fld.MSG_DROP_LOG_VALID 1 |>.set Fld.MSG_DROP_LOG_CAUSE cause |>.set Fld.MSG_DROP_LOG_KIND kind
    |>.set Fld.MSG_DROP_LOG_PORT p |>.set Fld.MSG_DROP_LOG_ID ident |>.set Fld.MSG_DROP_TS_STROKE_LO s.nowLo
    |> doIf ((cause == 3 || cause == 4 || cause == 5) && bitOf route 63 && !routePeer route) (fun s =>
        s.qpUpd (routeCtx route) (routeQp route) fun q => { q with drops := min 65535 (q.drops + 1) })

/-! ## The bridge buffer (10 R236) -/

/-- Bytes of a port's bridge buffer in use. -/
def bridgeUsed (s : State) (p : Nat) : Nat :=
  ((s.ritems.filter fun r => r.port == p).map fun r => 32 + r.data.length).sum +
    (match (s.lb p).frame with | some f => if f.dropped then 0 else 32 + f.data.length | none => 0)

/-- MSG_BUF follows the buffer, in units of 64 B rounded up (DESIGN CHOICE, log 203). -/
def updBuf (p : Nat) (s : State) : State :=
  let u := ceilDiv (bridgeUsed s p) 64
  s.set (Fld.MSG_BUF_USED p) u |>.peak (Fld.MSG_BUF_HWM p) u

/-- A routed item leaves the buffer, with what is left of its cadence item. -/
def dropRItem (r : RItem) (s : State) : State :=
  { s with ritems := s.ritems.filter fun x => x.id != r.id }
    |> dropItems (fun i => i.work == .routed r.id)
    |> updBuf r.port

/-- An accepted item with a route takes its place: upward slots for a queue pair, downward slots toward a peer's link
(10 R239, R242). A peer without a route drops it as PEER_LOST, as a flushed link does (DESIGN CHOICE, log 202). -/
def queueRItem (p kind ident info route : Nat) (data : List Byte) (at_ : Stroke) (s : State) : State :=
  let id := s.cad.nextId
  let s1 := { s with ritems := s.ritems ++ [⟨id, p, kind, ident, info, data, route, at_, false, false⟩] }
  if routePeer route then
    match s.route (routeMember route) with
    | some k => s1 |> addItem false 0 (routeCls route) (4 + k) data.length false (.routed id) |> updBuf p
    | none => countDrop p 7 kind ident route s |> updBuf p
  else s1 |> addItem true (routeCtx route) (routeCls route) 9 (32 + data.length) false (.routed id) |> updBuf p

/-- A MSG or SIDEBAND item whose route is chosen takes its place, or is dropped (10 R234 to R236). -/
def acceptWith (p kind ident : Nat) (data : List Byte) (r : Nat) (at_ : Stroke) (s : State) : State :=
  if ¬ routeOk s r then countDrop p 1 kind ident 0 s
  else if 65536 < bridgeUsed s p + 32 + data.length then countDrop p 4 kind ident r s
  else queueRItem p kind ident 0 r data at_ s

/-- The route word in force for a MSG or SIDEBAND item; 0, which acts as VALID 0, where the bank has none. -/
def routeNow (s : State) (p kind ident : Nat) : Nat := ((routeAddr s p kind ident 0).map (routeWord s)).getD 0

/-- The LINT queue of a port is full: the edge is dropped as BUF_FULL (08 R208). -/
def lintFull (p line route : Nat) (s : State) : State := countDrop p 4 3 line (if routeOk s route then route else 0) s

/-- A MSG or SIDEBAND item is accepted (10 R233). -/
def acceptItem (p kind ident : Nat) (data : List Byte) (s : State) : State :=
  acceptWith p kind ident data (routeNow s p kind ident) s.now s

/-! ## Frames (10 R237) -/

/-- A frame in progress is cut short: PARTIAL, unless it was dropped already. -/
def framePartial (p : Nat) (s : State) : State :=
  match (s.lb p).frame with
  | none => s
  | some f =>
    s.lbUpd p (fun l => { l with frame := none })
      |> doIf (!f.dropped) (countDrop p 6 1 (f.info % 65536) f.route)
      |> updBuf p

/-- A frame's bytes so far are put in place of what the port held. -/
def frameHold (p : Nat) (f : FrameIn) (eof : Bool) (s : State) : State :=
  if eof then
    s.lbUpd p (fun l => { l with frame := none })
      |> (fun s => if f.dropped then updBuf p s else queueRItem p 1 (f.info % 65536) f.info f.route f.data s.now s)
  else s.lbUpd p (fun l => { l with frame := some f }) |> updBuf p

/-- A segment of a frame is held: a segment that does not fit drops the whole frame; the frame is routed by its SOF; what
comes of a dropped frame still counts to its length. -/
def frameSegment (p : Nat) (sof eof : Bool) (info : Nat) (data : List Byte) (s : State) : State :=
  let n := data.length
  if sof then
    let r := routeWord s (Adr.MSG_FRT_LO p (info % 16))
    if ¬ routeOk s r then s |> countDrop p 1 1 (info % 65536) 0 |> frameHold p ⟨info, 0, [], true, n⟩ eof
    else if 65536 < bridgeUsed s p + 32 + n then
      s |> countDrop p 4 1 (info % 65536) r |> frameHold p ⟨info, r, [], true, n⟩ eof
    else frameHold p ⟨info, r, data, false, n⟩ eof s
  else
    match (s.lb p).frame with
    | none => s
    | some f =>
      if f.dropped then frameHold p { f with size := f.size + n } eof s
      else if 65536 < bridgeUsed s p + n then
        s |> countDrop p 4 1 (f.info % 65536) f.route |> frameHold p { f with data := [], dropped := true, size := f.size + n } eof
      else frameHold p { f with data := f.data ++ data, size := f.size + n } eof s

/-! ## Delivery (10 R239 to R241) -/

/-- The cause with which an item is dropped when it gets its first slot, 0 where every test passes. -/
def deliveryTest (s : State) (r : RItem) : Nat :=
  let c := routeCtx r.route
  let q := routeQp r.route
  if s.draining then 8
  else if ¬ s.live c then 2
  else if ¬ s.isSet (Fld.QP_STATUS_EN_ACTIVE c q) then 2
  else if ¬ s.isSet (Fld.MSG_RXB_CFG_EN c q) then 2
  else if s.cqFull c q then 3
  else if 2 ^ s.get (Fld.MSG_RXB_CFG_SLOT_LOG2 c q) < 32 + r.data.length then 5
  else 0

/-- The 32-byte wrapper (10 Table 10-3). -/
def wrapper (r : RItem) (drops : Nat) : List Byte :=
  leBytes 1 r.kind ++ leBytes 1 r.port ++ leBytes 2 r.ident ++ leBytes 4 (if r.kind = 1 then r.info else 0) ++
    leBytes 4 r.data.length ++ leBytes 2 drops ++ leBytes 2 0 ++ leBytes 8 r.at_.toNat ++ leBytes 8 0

/-- An item is of the same port and queue pair as another. -/
def sameQueue (a b : RItem) : Bool :=
  a.port == b.port && !routePeer a.route && !routePeer b.route && routeCtx a.route == routeCtx b.route && routeQp a.route == routeQp b.route

/-- An earlier item of the port and queue pair has not been tested (10 R240). -/
def testWaits (s : State) (r : RItem) : Bool := (s.ritems.takeWhile fun (x : RItem) => x.id != r.id).any fun (x : RItem) => sameQueue x r && !x.tested

/-- The queue pair's reserved index of a tested item; a reset or destroy of the context takes it away. -/
def reservedFor (s : State) (r : RItem) : Bool := (s.qp (routeCtx r.route) (routeQp r.route)).resv.contains r.id

/-- An item for a queue pair that has its first slot is tested, in acceptance order for its port and queue pair: it is
dropped with the cause of its first failing test, or it reserves the next completion index (10 R239, R240). One whose index
went with its queue pair's configuration is dropped as NOT_READY (log 157). -/
def testItem (r : RItem) (s : State) : State :=
  if r.tested then doIf (!reservedFor s r) (fun s => s |> dropRItem r |> countDrop r.port 2 r.kind r.ident r.route) s
  else if ¬ r.ready ∨ testWaits s r then s
  else
    let t := deliveryTest s r
    if t ≠ 0 then s |> dropRItem r |> countDrop r.port t r.kind r.ident r.route
    else
      { s with ritems := s.ritems.map fun (x : RItem) => if x.id = r.id then { x with tested := true } else x }
        |>.qpUpd (routeCtx r.route) (routeQp r.route) (fun q => { q with resv := q.resv ++ [r.id] })
        |> updCqFull (routeCtx r.route) (routeQp r.route)

/-- Every item for a queue pair that can be tested. -/
def testRouted (s : State) : State := s |> doAll (s.ritems.filter fun r => !routePeer r.route) testItem

/-- The completion entry of a delivery. -/
def deliveryCpl (r : RItem) (drops : Nat) : Cpl :=
  { tag := 0xFFFFFF00 + r.kind, status := stOk, bytes := 32 + r.data.length, detail := leAt (wrapper r drops) 0 4, retried := false,
    evt := bitOf r.route 59 }

/-- Host address of the receive-buffer slot of completion index `i` (10 R238). -/
def rxbSlot (s : State) (c q i : Nat) : Nat :=
  (s.word (Adr.MSG_RXB_BASE_HI c q)).toNat * 2 ^ 32 + (s.word (Adr.MSG_RXB_BASE_LO c q)).toNat + i * 2 ^ s.get (Fld.MSG_RXB_CFG_SLOT_LOG2 c q)

/-- Payload, wrapper and completion entry of a delivery are written, in this order; the entry takes the reserved index. -/
def deliver (r : RItem) (s : State) : State :=
  let c := routeCtx r.route
  let q := routeQp r.route
  let base := rxbSlot s c q (s.get (Fld.QP_PTR_CQ_TAIL c q))
  let drops := (s.qp c q).drops
  s |> hostWriteOut c (base + 32) r.data false false
    |> hostWriteOut c base (wrapper r drops) false false
    |>.qpUpd c q (fun p => { p with drops := 0, resv := p.resv.drop 1 })
    |> (fun s => writeEntry c q (deliveryCpl r drops)
        (cplBytes (deliveryCpl r drops) (s.get (Fld.QP_PTR_SQ_HEAD c q)) (s.isSet (Fld.QP_STATUS_CQ_PHASE c q))
          (s.get (Fld.CTX_WFENCE_FAILS c) != 0)) s)
    |>.inc (Fld.MSG_DELIV_CNT_COUNT r.port) 1

/-- The host link can take a delivery: its buffer slot and its completion slot are translated (10 R238, 04 R86); a page that
is not permitted is waited for (log 153). -/
def deliverWay (r : RItem) (s : State) : State × HostWay :=
  let c := routeCtx r.route
  let q := routeQp r.route
  let i := s.get (Fld.QP_PTR_CQ_TAIL c q)
  match hostWay (.entry c) c (rxbSlot s c q i) (32 + r.data.length) true s with
  | (s, .go) => hostWay (.entry c) c (cqSlotAddr s c q i) 16 true s
  | x => x

/-- An item has had all its slots: nothing of it waits in the cadence (07 R158). -/
def routedMoved (s : State) (r : RItem) : Bool := !s.cad.items.any fun i => i.work == .routed r.id

/-- R239 to R241: the oldest item of port `p` for a queue pair, once tested and moved whole, is delivered when its index is the queue
pair's next one and the earlier upstream writes of its port are issued; every earlier delivery of the port has been. -/
def execRoutedItemDelivery (p : Fin 4) (s : State) : Result :=
  done (match s.ritems.find? fun r => r.port == p.val && !routePeer r.route with
    | none => s
    | some r =>
      if r.tested ∧ routedMoved s r ∧ (s.qp (routeCtx r.route) (routeQp r.route)).resv.head? = some r.id ∧ upWritesIssued s p r.id then
        match deliverWay r s with
        | (s, .go) => deliver r s |> (fun s => { s with ritems := s.ritems.filter fun x => x.id != r.id }) |> updBuf p
        | (s, _) => s
      else s)

/-! ## Peer routes (10 R242) -/

/-- The ROUTED messages of an item: a FRAME in segments of 256 bytes, else one MSG. -/
def routedMsgs (r : RItem) (s : State) : List UMsg :=
  let m (info f : Nat) (d : List Byte) : UMsg :=
    { mtype := 5, cls := routeCls r.route, dst := routeMember r.route, src := s.gctx 0, win := routePort r.route,
      off := info + 2 ^ 32 * f, data := d, port := some (r.port, r.kind, r.ident) }
  if r.kind = 1 then
    (pieces 256 0 (r.data.length + 1) 0 r.data.length).map fun p =>
      m r.info (1 + 4 * (p.1 == 0).toNat + 8 * (p.1 + p.2 == r.data.length).toNat) (sliceBytes r.data p.1 p.2)
  else [m (routeId r.route) 2 r.data]

/-- R242: the oldest peer-routed item of port `p` that has its slots leaves for its member, behind the earlier upstream
writes and deliveries of its port. -/
def execRoutedItemPeerSend (p : Fin 4) (s : State) : Result :=
  done (match s.ritems.find? fun r => r.port == p.val with
    | none => s
    | some r =>
      if routePeer r.route ∧ r.ready ∧ upWritesIssued s p r.id then
        (match s.route (routeMember r.route) with
          | some k => s |> doAll (routedMsgs r s) (sendMsg k) |>.inc (Fld.MSG_DELIV_CNT_COUNT p) 1
          | none => countDrop p 7 r.kind r.ident r.route s)
          |> dropRItem r
      else s)

/-- R235: an 8-byte write to a route entry: a read returns it at once, items are routed by it from the next boundary. -/
def execRouteEntryWrite (e : RouteSel) (v : BitVec 64) (s : State) : Result :=
  let a := match e with
    | .msg i => Adr.MSG_RT_LO i
    | .frame p k => Adr.MSG_FRT_LO p k
    | .sideband p k => Adr.MSG_SBT_LO p k
  done ({ s with deferred := s.deferred ++ [Deferred.route a v] }
    |>.setWord a (v.setWidth 32) |>.setWord (a + 4) ((v >>> 32).setWidth 32))

end Sys2Proof.Machine
end

