-- ==== Sys2Proof/Machine/Ports.lean ====
section
/-! DEFINITION. Machine/Ports.lean: a local bus port: training, credits, sequence numbers, egress, responses, timeouts,
prefetch and stranded reads, leaving ACTIVE (08 R173 to R205, R209). -/
namespace Sys2Proof.Machine

/-! ## Beats (08 R173 to R175, R178) -/

/-- The four parity bits of a beat: bit `k` is the odd parity of byte `k` (08 R174). -/
def beatParity (d : Word) : BitVec 4 :=
  BitVec.ofNat 4 (([0, 1, 2, 3].map fun k => (popCount 8 (d.toNat / 2 ^ (8 * k)) + 1) % 2 * 2 ^ k).sum)

/-- A beat with its parity. -/
def beat (d : Word) (frame : Bool) : Beat := ⟨d, beatParity d, frame⟩

/-- The beats of a packet: the frame bit is 1 on the first alone (08 R175). -/
def packetBeats : List Word → List Beat
  | [] => []
  | w :: ws => beat w true :: ws.map fun x => beat x false

/-- Bytes as beat words: byte `k` of a beat is data bits [8k+7:8k] (08 R173). -/
def beatWords (d : List Byte) : List Word := (List.range (ceilDiv d.length 4)).map fun i => BitVec.ofNat 32 (leAt d (4 * i) 4)

/-- One step of the generator x^7 + x^6 + 1. -/
def prbsStep (x : Nat) : Nat := x % 64 * 2 + (bitOf x 6 != bitOf x 5).toNat

/-- The generator after `n` steps. -/
def prbsAfter : Nat → Nat → Nat
  | 0, x => x
  | n + 1, x => prbsAfter n (prbsStep x)

/-- Beat `n` since the first training beat: data bit `i` is the output of the generator seeded with i + 1, whose period is
127 (log 159); the frame bit marks beat 0 of each 64-beat block, and of a locked block beat 1 too (08 R178). -/
def trainBeat (locked : Bool) (n : Nat) : Beat :=
  beat (BitVec.ofNat 32 ((List.range 32).map fun i => (bitOf (prbsAfter (n % 127) (i + 1)) 6).toNat * 2 ^ i).sum)
    (n % 64 == 0 || (locked && n % 64 == 1))

/-- Beat `n` of what a port drives between packets, where it drives beats (08 Table 08-1, R175). -/
def lineBeat : LbLines → Nat → Option Beat
  | .train, n => some (trainBeat false n)
  | .locked, n => some (trainBeat true n)
  | .idle, _ => some (beat 0 false)
  | _, _ => none

/-- What the device transmits in a port state (08 Table 08-1): whether the strobe runs, and the lines. -/
def lbDrives : Nat → Bool × LbLines
  | 0 => (false, .reset)
  | 1 => (true, .train)
  | 2 => (true, .locked)
  | 5 => (false, .unstated)
  | 6 => (false, .idle)
  | _ => (true, .idle)

/-! ## State of a port (08 Table 08-1) -/

/-- STATE of a port. -/
def State.lbState (s : State) (p : Nat) : Nat := s.get (Fld.LB_STATUS_STATE p)

/-- The port is ACTIVE. -/
def State.lbActive (s : State) (p : Nat) : Bool := s.lbState p == 4

/-- A source of a port (08 Table 08-13). -/
def lbRaise (p off : Nat) (s : State) : State := raise (40 + 16 * p + off) s

/-- A port's state changes, and with it what it transmits; LBn_RST_N is asserted in RESET and FAILED only. -/
def portTo (p st : Nat) (s : State) : State :=
  let pins : Nat := if st = 0 ∨ st = 5 then orBit s.dev.lbRst.toNat p else clearBit s.dev.lbRst.toNat p
  s.set (Fld.LB_STATUS_STATE p) st
    |>.lbUpd p (fun l => { l with since := s.now })
    |>.devUpd (fun d => { d with lbRst := BitVec.ofNat 4 pins })
    |> emit (.lbTx p (lbDrives st).1 (lbDrives st).2)

/-- BND_SHORT set; LBn_CREDIT_SHORT when it becomes 1 (08 R190). -/
def bndShort (p : Nat) (s : State) : State :=
  if s.isSet (Fld.LB_STATUS_BND_SHORT p) then s else s.set (Fld.LB_STATUS_BND_SHORT p) 1 |> lbRaise p 5

/-! ## Packets (08 R180 to R183) -/

/-- The header beats of a packet (08 Table 08-3). -/
def hdrWords (k : Pkt) (seq : Nat) : List Word :=
  [BitVec.ofNat 32 (k.op * 2 ^ 28 + (if k.op = 8 ∨ k.op = 12 then 0 else k.cls) * 2 ^ 26 + k.spec.toNat * 2 ^ 25 +
     k.len * 2 ^ 16 + k.sub * 2 ^ 12 + k.tag),
   BitVec.ofNat 32 k.addr,
   BitVec.ofNat 32 (k.ctx * 2 ^ 22 + k.win * 2 ^ 16 + bitsOf k.addr 47 32),
   BitVec.ofNat 32 (seq * 2 ^ 24 + k.aux)]

/-- One bit of the CRC-16 with polynomial 0x1021. -/
def crcBit (crc : Nat) (b : Bool) : Nat :=
  let top := bitOf crc 15
  let sh := (crc * 2) % 65536
  if top != b then sh ^^^ 0x1021 else sh

/-- The CRC-16 over bytes, each most significant bit first (08 R183). -/
def crc16 (bytes : List Byte) : Nat :=
  bytes.foldl (fun crc b => [7, 6, 5, 4, 3, 2, 1, 0].foldl (fun c i => crcBit c (b.getLsbD i)) crc) 0xFFFF

/-- Bytes in whole beats. -/
def padBeats (d : List Byte) : List Byte := sliceBytes d 0 (4 * ceilDiv d.length 4)

/-- The credit class of a packet (08 R188): 0 BND, 1 P, 2 NP, 3 RSP. -/
def creditClass (k : Pkt) : Nat :=
  if k.op = 8 then 3 else if k.cls = 0 then 0 else if k.op = 0 ∨ k.op = 2 ∨ k.op = 3 then 2 else 1

/-- The trailer's credit counts as they stand: each count moves by at most 7 (08 R189). -/
def tellCredits (p : Nat) (s : State) : State :=
  s.lbUpd p fun l =>
    { l with told := (l.told.zip l.freed).map (fun x => (x.1 + min 7 x.2) % 16), freed := l.freed.map fun n => n - 7 }

/-- Trailer bits [31:16] of the told counts: RSP, NP, P, BND. -/
def trailerCredits (told : List Nat) : Nat :=
  told.getD 3 0 * 2 ^ 12 + told.getD 2 0 * 2 ^ 8 + told.getD 1 0 * 2 ^ 4 + told.getD 0 0

/-- A packet leaves the port under a sequence number. -/
def emitPkt (p : Nat) (k : Pkt) (seq : Nat) (s : State) : State :=
  let s := tellCredits p s
  let cr := trailerCredits (s.lb p).told
  let hdr := hdrWords k seq
  let data := padBeats k.data
  let crc := crc16 (hdr.flatMap (fun w => leBytes 4 w.toNat) ++ data ++ leBytes 2 cr)
  emit (.lb p (packetBeats (hdr ++ beatWords data ++ [BitVec.ofNat 32 (cr * 65536 + crc)]))) s

/-- Credit counts of a received trailer are added (08 R189). -/
def takeCredits (p : Nat) (v : BitVec 16) (s : State) : State :=
  let new := [bitsOf v.toNat 3 0, bitsOf v.toNat 7 4, bitsOf v.toNat 11 8, bitsOf v.toNat 15 12]
  s.lbUpd p fun l =>
    let d := (new.zip l.seen).map fun x => (x.1 + 16 - x.2) % 16
    { l with cred := (l.cred.zip d).map (fun x => x.1 + x.2), seen := new, bndSent := l.bndSent.drop (d.getD 0 0) }

/-! ## Host requests toward a port -/

/-- The packets of a host write (08 R199, R200). -/
def hostWritePkts (c w seq off laddr tmo : Nat) (acked c0 : Bool) (cls : Nat) (data : List Byte) : List Egr :=
  (localPieces laddr data.length).map fun x =>
    { pkt := { op := if acked then 2 else 1, cls := cls, len := x.2, addr := laddr + x.1, ctx := c, win := w,
               data := sliceBytes data x.1 x.2 },
      src := some (.hostWrite c w seq (off + x.1) x.2), tmo := tmo, c0 := c0 && x.1 + x.2 == data.length,
      host := some c }

/-- The READ packets of a host read. -/
def hostReadPkts (r : HRead) (cls : Nat) : List Egr :=
  r.todo.map fun x =>
    { pkt := { op := 0, cls := cls, len := x.2, addr := r.laddr + x.1, ctx := r.c, win := r.w },
      src := some (.hostRead r.id x.1), tmo := r.tmo, host := some r.c }

/-- A C0 write is no longer outstanding (07 R166). -/
def c0WriteEnds (c : Nat) (c0 : Bool) (s : State) : State := doIf c0 (fun s => s.ctxUpd c fun x => { x with c0out := x.c0out - 1 }) s

/-! ## What ends without being issued (08 R209, Table 08-9) -/

/-- A packet ends before issue, its port not ACTIVE: its source is answered; a routed MSG, or a routed FRAME with its SOF, is
dropped as PEER_LOST (10 R242); a frame of a descriptor ends it with NO_TARGET and BYTES_DONE 0 (10 R244). -/
def endEgr (p : Nat) (e : Egr) (s : State) : State :=
  match e.tag with
  | some _ => s
  | none =>
    match e.src with
    | some (.hostWrite c w seq off len) => s |> c0WriteEnds c e.c0 |> answer (.hostWrite c w seq off len) e.pkt.op .notIssued
    | some (.desc k off len) =>
      answer (.desc k off len) e.pkt.op .notIssued s |> doIf (e.pkt.op == 5) (·.descUpd k fun d => { d with bytes := 0, wpend := 0 })
    | some x => answer x e.pkt.op .notIssued s
    | none =>
      if e.pkt.op = 4 then countDrop p 7 2 e.pkt.addr 0 s
      else if e.pkt.op = 5 ∧ bitOf e.pkt.aux 0 then countDrop p 7 1 (e.pkt.addr % 65536) 0 s
      else s

/-- A cadence item on its way to a port ends before issue. -/
def endItem (p : Nat) (w : Work) (s : State) : State :=
  match w with
  | .hostRead id =>
    match s.hreads.find? fun r => r.id == id with
    | some r => s |> doAll (hostReadPkts r r.cls) (endEgr p)
    | none => s
  | .hostWrite c w seq off _ laddr tmo acked c0 data => s |> doAll (hostWritePkts c w seq off laddr tmo acked c0 0 data) (endEgr p)
  | .descLocal _ e => endEgr p e s
  | _ => s

/-- Items that wait for slots toward a port. -/
def towardPort (p : Nat) (i : Item) : Bool := !i.up && i.tgt == p

/-! ## Leaving and entering ACTIVE (08 R209) -/

/-- The port leaves ACTIVE: everything not issued and everything unanswered ends, tags and buffers are freed. -/
def leaveActive (p next : Nat) (s : State) : State :=
  let l := s.lb p
  let waiting := s.cad.items.filter (towardPort p)
  s |> portTo p next
    |> lbRaise p 1
    |> dropItems (towardPort p)
    |>.lbUpd p (fun l => { l with egress := [], reqs := [], quar := [], pf := [], held := [], replay := [], naks := [],
                                  errOut := false, errAt := none, lastNak := none, outFrame := none, routedFrame := none, rframes := [], bndSent := [], initSent := false,
                                  initRcvd := false })
    |> framePartial p
    |> doAll l.lintWait (fun e s =>
        if 16 ≤ (s.lb p).lint.length then lintFull p e.1 e.2.1 s
        else s.lbUpd p fun l => { l with lint := l.lint ++ [e] })
    |>.lbUpd p (fun l => { l with lintWait := [] })
    |> (fun s => match l.outFrame with
        | some k => descFail k stNoTarget (sideDetail true 0) s |>.descUpd k fun d => { d with bytes := 0, wpend := 0 }
        | none => s)
    |> (fun s => match l.routedFrame with
        | some (_, info) => countDrop p 7 1 (info % 65536) 0 s
        | none => s)
    |> doAll l.reqs (fun r s => answer r.src r.pkt.op .timeout s)
    |> doAll l.egress (endEgr p)
    |> doAll waiting (fun i s => endItem p i.work s)

/-- The port goes to RESET, whatever its state (08 Table 08-12). -/
def portReset (p : Nat) (s : State) : State :=
  if s.lbActive p then leaveActive p 0 s
  else if s.lbState p = 0 then s
  else portTo p 0 s |>.lbUpd p fun l => { l with initSent := false, initRcvd := false }

/-- A protocol error is recorded and the port leaves ACTIVE (08 R209); a frame in progress is cut short with it. -/
def protoErr (p code seq : Nat) (s : State) : State :=
  s |>.set (Fld.LB_PROTO_LOG_VALID p) 1 |>.set (Fld.LB_PROTO_LOG_CODE p) code |>.set (Fld.LB_PROTO_LOG_SEQ p) seq
    |> lbRaise p 4 |> leaveActive p 0

/-- Entry to ACTIVE: sequence numbers and credits start (log 160), LINT edges held become SIDEBAND items (08 R208). -/
def enterActive (p : Nat) (s : State) : State :=
  let held := (s.lb p).lint
  s |> portTo p 4
    |>.lbUpd p (fun l => { l with txSeq := 0, rxSeq := 0, cred := l.agent, seen := [0, 0, 0, 0], freed := [0, 0, 0, 0],
                                  told := [0, 0, 0, 0], lint := [], lintWait := [], bndSent := [] })
    |> lbRaise p 0
    |> doAll held (fun e s => acceptWith p 3 e.1 [] e.2.1 e.2.2 s)

/-- ACTIVE is entered once the own INIT is sent and a valid one received. -/
def tryActive (p : Nat) (s : State) : State :=
  if s.lbState p = 3 ∧ (s.lb p).initSent ∧ (s.lb p).initRcvd then enterActive p s else s

/-- The port enters FAILED (08 R179). -/
def portFailed (p err : Nat) (s : State) : State :=
  s |> portTo p 5 |>.set (Fld.LB_TRAIN_STAT_LAST_ERR p) err |>.inc (Fld.LB_TRAIN_STAT_FAILS p) 1 |> lbRaise p 2
    |>.lbUpd p fun l => { l with initSent := false, initRcvd := false }

/-! ## Training -/

/-- R177: LB_CTL.EN. Written 0 it takes the port to RESET at once, also out of a state that is not ACTIVE, of which the spec gives no such
cause (DESIGN CHOICE, log 219). -/
def lbCtlEn (p : Nat) (en : Bool) (s : State) : State :=
  s.set (Fld.LB_CTL_EN p) en.toNat |> doIf (!en) (portReset p)

/-- R177: a write of LB_CTL.EN. -/
def execLbCtlEnWrite (p : Fin 4) (en : Bool) (s : State) : Result := done (lbCtlEn p en s)

/-- R209: LB_CTL.RETRAIN takes the port out of ACTIVE to RESET; in another state it does nothing (DESIGN CHOICE, log 199). -/
def lbRetrain (p : Nat) (s : State) : State := doIf (s.lbActive p) (leaveActive p 0) s

/-- R209: a write of 1 to LB_CTL.RETRAIN. -/
def execLbRetrain (p : Fin 4) (s : State) : Result := done (lbRetrain p s)

/-- A training starts: TRAIN is entered and counted. -/
def startTrain (p : Nat) (s : State) : State :=
  portTo p 1 s |>.inc (Fld.LB_TRAIN_STAT_ATTEMPTS p) 1
    |>.lbUpd p fun l => { l with released := s.now, initSent := false, initRcvd := false }

/-- R177: an enabled port leaves RESET after 2 strokes, only in STANDBY, SERVING or DRAINING. -/
def execLbResetExit (p : Fin 4) (s : State) : Result :=
  done (if s.lbState p = 0 ∧ s.isSet (Fld.LB_CTL_EN p) ∧ 2 ≤ s.since (s.lb p).since ∧
      (s.mode = .standby ∨ s.mode = .serving ∨ s.mode = .draining) then startTrain p s
    else s)

/-- R178: the receiver is locked; `delays` are the 37 deskew values found. -/
def execLbReceiverLock (p : Fin 4) (delays : List (BitVec 7)) (s : State) : Result :=
  done (if s.lbState p = 1 then
      portTo p 2 s |> doAll (List.range 37) (fun k s =>
        s.set (Fld.LB_DESKEW_VALID p k) 1 |>.set (Fld.LB_DESKEW_DELAY p k) (delays.getD k 0).toNat)
    else s)

/-- The LINK INIT the device sends: BND 32, P 64, NP 64, RSP 128, PROTO_REV 1 (08 R188). -/
def linkInit : Pkt := { op := 12, sub := 1, addr := 128 * 2 ^ 24 + 64 * 2 ^ 16 + 64 * 2 ^ 8 + 32 + 2 ^ 32 }

/-- R177: 8 consecutive locked blocks move the port to INIT, which sends LINK INIT; no credit is freed yet (log 160). -/
def execLbLockedBlocksReceived (p : Fin 4) (s : State) : Result :=
  done (if s.lbState p = 2 then
      portTo p 3 s |>.lbUpd p (fun l => { l with freed := [0, 0, 0, 0], told := [0, 0, 0, 0] }) |> emitPkt p linkInit 0 |>.lbUpd p (fun l => { l with initSent := true }) |> tryActive p
    else s)

/-- R179: the port is not ACTIVE LB_TRAIN.TMO strokes after the release; `strobe`: in TRAIN, whether the agent's strobe
was seen. -/
def execLbTrainTimeout (p : Fin 4) (strobe : Bool) (s : State) : Result :=
  done (if s.get (Fld.LB_TRAIN_TMO p) ≤ s.since (s.lb p).released then
      (match s.lbState p with
        | 1 => portFailed p (if strobe then 2 else 1) s
        | 2 => portFailed p 3 s
        | 3 => portFailed p 4 s
        | _ => s)
    else s)

/-- R177: LB_TRAIN.GAP strokes after entering FAILED the port returns to RESET. -/
def execLbFailedGapExpiry (p : Fin 4) (s : State) : Result :=
  done (if s.lbState p = 5 ∧ s.get (Fld.LB_TRAIN_GAP p) ≤ s.since (s.lb p).since then portTo p 0 s else s)

/-- R209: four consecutive training blocks take an ACTIVE port to TRAIN, LBn_RST_N left released. -/
def execLbTrainingBlocksInActive (p : Fin 4) (s : State) : Result :=
  done (if s.lbActive p then leaveActive p 1 s |> startTrain p else s)

/-- R188: a LINK INIT with a count of 0 or another PROTO_REV fails training. -/
def execLinkInitReceive (p : Fin 4) (counts : Word) (rev : BitVec 8) (s : State) : Result :=
  let n := counts.toNat
  let cs := [bitsOf n 7 0, bitsOf n 15 8, bitsOf n 23 16, bitsOf n 31 24]
  done (if s.lbState p ≠ 3 then s
    else if rev ≠ 1 then portFailed p 5 s
    else if cs.any (· == 0) then portFailed p 6 s
    else
      s.setWord (Adr.LB_CRED p) counts
        |>.lbUpd p (fun l => { l with agent := cs, initRcvd := true })
        |> doIf (decide (cs.getD 0 0 < 32)) (bndShort p)
        |> tryActive p)

/-! ## Credits and sequence -/

/-- R189: a LINK CREDIT packet. -/
def execLinkCreditReceive (p : Fin 4) (credits : BitVec 16) (s : State) : Result :=
  done (if s.lbActive p then takeCredits p credits s else s)

/-- A NAK was sent or received: a second one within 4 strokes retrains the port (08 R187). -/
def nakSeen (p : Nat) (s : State) : State :=
  match (s.lb p).lastNak with
  | some t => if s.since t < 4 then leaveActive p 0 s else s.lbUpd p fun l => { l with lastNak := some s.now }
  | none => s.lbUpd p fun l => { l with lastNak := some s.now }

/-- R186: a LINK NAK: every held packet from the named SEQ is sent again; a SEQ not held is a protocol error. -/
def execLinkNakReceive (p : Fin 4) (seq : BitVec 8) (credits : BitVec 16) (s : State) : Result :=
  done (if ¬ s.lbActive p then s
    else
      let s := takeCredits p credits s |>.inc (Fld.LB_ERR_CNT_NAK_RCVD p) 1 |> lbRaise p 3
      let h := (s.lb p).held
      match h.findIdx? fun e => e.1 == seq.toNat with
      | none => protoErr p 7 seq.toNat s
      | some i => s.lbUpd p (fun l => { l with replay := (h.drop i).map fun e => (e.1, e.2.1) }) |> nakSeen p)

/-- A link error is detected: LBn_LINK_ERR is raised (08 R187), the packet is discarded, and a NAK with the expected SEQ
waits to be sent; while one is outstanding a further error sends no second one (08 R185; log 158). -/
def linkError (p : Nat) (s : State) : State :=
  let s := lbRaise p 3 s |>.lbUpd p fun l => { l with errAt := some s.now }
  if (s.lb p).errOut then s
  else s.lbUpd p fun l => { l with errOut := true, naks := l.naks ++ [l.rxSeq] }

/-- R185: a link error; `credits` are the trailer credits of a packet that passes CRC and is discarded for another reason. In
INIT it is a LINK INIT that fails its checks, and training fails (08 R188; log 158). -/
def execLbLinkError (p : Fin 4) (k : RxError) (credits : Option (BitVec 16)) (s : State) : Result :=
  done (if s.lbActive p then
      s |> doIf (k == .crc) (·.inc (Fld.LB_ERR_CNT_CRC p) 1) |> doIf (k == .parity) (·.inc (Fld.LB_ERR_CNT_PARITY p) 1)
        |> (fun s => match credits with | some v => if k = .crc ∨ k = .idle then s else takeCredits p v s | none => s)
        |> linkError p
    else if s.lbState p = 3 ∧ k ≠ .idle then portFailed p 4 s
    else s)

/-- R187: a NAK was sent, and the expected packet has not come 512 beats after it. -/
def execLbNakTimeout (p : Fin 4) (s : State) : Result :=
  done (if s.lbActive p ∧ (s.lb p).errOut ∧ (s.lb p).naks = [] then leaveActive p 0 s else s)

/-- R190: a BND credit is out longer than 1,632 beats, one stroke and 32 beats. -/
def execLbBndCreditLate (p : Fin 4) (s : State) : Result :=
  done (match (s.lb p).bndSent with
    | t :: _ => if s.lbActive p ∧ 1 ≤ s.since t then bndShort p s else s
    | [] => s)

/-- The credits the device advertised, by class. -/
def advertised : List Nat := [32, 64, 64, 128]

/-- A received packet other than LINK: its trailer credits are taken; a request of the agent, whose CLASS is 0, uses a P or NP
credit by its operation (log 158); true where the packet is acted on (08 R184, R185):
it carries the expected SEQ. A SEQ ahead is a link error; one behind is a duplicate. A reserved field that is not 0 and
a packet without a credit are protocol errors. -/
def rxAccept (p : Nat) (rx : Rx) (cls : Nat) (s : State) : State × Bool :=
  if ¬ s.lbActive p then (s, false)
  else
    let s := takeCredits p rx.credits s
    let l := s.lb p
    let ahead := (rx.seq.toNat + 256 - l.rxSeq) % 256
    if ahead = 0 then
      let s := s.lbUpd p fun l => { l with rxSeq := (l.rxSeq + 1) % 256, errOut := false }
      if rx.reserved then (protoErr p 1 rx.seq.toNat s, false)
      else if advertised.getD cls 0 ≤ l.freed.getD cls 0 then (protoErr p 2 rx.seq.toNat s, false)
      else (s.lbUpd p (fun l => { l with freed := l.freed.set cls (l.freed.getD cls 0 + 1) }), true)
    else if ahead < 128 then (linkError p s, false)
    else (s, false)

/-! ## What a write to local bytes drops (08 R203, R205) -/

/-- The 256-byte block at a local address overlaps a range. -/
def blockMeets (la lo n : Nat) : Bool := decide (la < lo + n ∧ lo < la + 256)

/-- SRB registers of an entry. -/
def srbRegs (p : Nat) (x : Stranded) (s : State) : State :=
  s |>.set (Fld.LB_SRB0_VALID p x.e) 1 |>.set (Fld.LB_SRB0_WIN p x.e) x.w |>.set (Fld.LB_SRB0_CTX p x.e) x.c
    |>.set (Fld.LB_SRB0_REMAIN p x.e) (256 - x.served.length)
    |>.set (Fld.LB_SRB1_OFFSET_LO p x.e) x.off |>.set (Fld.LB_SRB2_OFFSET_HI p x.e) (x.off / 2 ^ 32)
    |>.set (Fld.LB_SRB3_STROKE_LO p x.e) (x.since.toNat % 2 ^ 32)

/-- An entry leaves the stranded-read buffer. -/
def srbRemove (p e : Nat) (s : State) : State :=
  s.lbUpd p (fun l => { l with srb := l.srb.filter fun x => x.e != e }) |>.setWord (Adr.LB_SRB0 p e) 0

/-- An entry with unserved bytes is dropped and counted. -/
def srbDrop (p e : Nat) (s : State) : State :=
  srbRemove p e s |>.inc (Fld.LB_SRB_CNT_DROPPED p) 1 |> lbRaise p 7

/-- Stranded entries of a port that satisfy `f` are dropped. -/
def srbDropAll (p : Nat) (f : Stranded → Bool) (s : State) : State :=
  s |> doAll (((s.lb p).srb.filter f).map (·.e)) (srbDrop p)

/-- A host or descriptor write to local bytes drops the blocks and entries it overlaps (08 R203, R205). -/
def overwrite (p la n : Nat) (s : State) : State :=
  s.lbUpd p (fun l => { l with pf := l.pf.filter fun b => !blockMeets b.laddr la n })
    |> srbDropAll p (fun x => blockMeets x.laddr la n)

/-! ## Egress (08 R192) -/

/-- A tag not in use, if there is one (08 R191). -/
def freeTag (l : Lb) : Option Nat :=
  (List.range 512).find? fun t => !(l.reqs.any fun r => r.tag == t) && !l.quar.contains t

/-- A packet may leave now: a credit of its class, a tag where it needs one, and no other frame in progress. -/
def mayIssue (l : Lb) (e : Egr) : Bool :=
  decide (0 < l.cred.getD (creditClass e.pkt) 0) &&
    (!(e.pkt.op == 0 || e.pkt.op == 2 || e.pkt.op == 3) || e.tag.isSome || (freeTag l).isSome)

/-- The packet belongs to a frame that must wait for another frame's EOF (10 R244). -/
def frameWaits (l : Lb) (e : Egr) : Bool :=
  e.pkt.op == 5 &&
    match l.outFrame, l.routedFrame with
    | some k, _ => (match e.src with | some (.desc j _ _) => k != j | _ => true)
    | none, some f => e.src.isSome || e.frame != some f.1
    | none, none => !bitOf e.pkt.aux 0

/-- The packet waits for another frame's EOF, or behind such a packet of the member that its routed item came from (10 R242; log
184). -/
def egrWaits (l : Lb) (e : Egr) : Bool :=
  frameWaits l e || (e.origin.isSome && (l.egress.takeWhile (· != e)).any fun x => x.origin == e.origin && frameWaits l x)

/-- Which waiting packet leaves next: C0 requests first in order of delivery, then the others in order of delivery; a
response does not wait for a request that has no credit. -/
def nextEgr (l : Lb) : Option Nat :=
  let ready := l.egress.filter fun e => !egrWaits l e
  let c0 := ready.find? fun e => creditClass e.pkt == 0
  let rq := ready.find? fun e => creditClass e.pkt != 0 && creditClass e.pkt != 3
  let rs := ready.find? fun e => creditClass e.pkt == 3
  match c0 with
  | some e => if mayIssue l e then l.egress.findIdx? (· == e) else other rq rs
  | none => other rq rs
where
  other (rq rs : Option Egr) : Option Nat :=
    let i := match rq with | some e => if mayIssue l e then l.egress.findIdx? (· == e) else none | none => none
    let j := match rs with | some e => if mayIssue l e then l.egress.findIdx? (· == e) else none | none => none
    match i, j with
    | some a, some b => some (min a b)
    | some a, none => some a
    | none, b => b

/-- What the issue of a packet means to its source. -/
def issued (p : Nat) (e : Egr) (s : State) : State :=
  match e.src with
  | some (.hostWrite c _ _ _ _) => c0WriteEnds c e.c0 s
  | some (.desc k _ len) =>
    match e.pkt.op with
    | 0 => s.descUpd k fun d => { d with localRead := true }
    | 1 => descIssued k len false s
    | 2 => descIssued k len true s
    | 3 => s.descUpd k (fun d => { d with commit := d.commit.orElse fun _ => some s.now }) |> descIssued k len true
    | 4 => s.descUpd k (fun d => { d with commit := d.commit.orElse fun _ => some s.now, ended := true }) |> descIssued k len false
    | _ =>
      s.descUpd k (fun d => { d with commit := d.commit.orElse fun _ => some s.now, ended := d.ended || bitOf e.pkt.aux 1 })
        |> descIssued k len false
        |>.lbUpd p fun l => { l with outFrame := if bitOf e.pkt.aux 1 then none else some k }
  | none =>
    doIf (e.pkt.op == 5) (·.lbUpd p fun l =>
      { l with routedFrame :=
          if bitOf e.pkt.aux 1 then none
          else if bitOf e.pkt.aux 0 then e.frame.map fun f => (f, e.pkt.addr)
          else l.routedFrame }) s
  | some (.peer m o) => if e.pkt.op = 1 ∨ e.pkt.op = 4 then answer (.peer m o) e.pkt.op (.ok []) s else s
  | _ => s

/-- A packet is sent for the first time: it takes a credit, a SEQ and, where it has a response, a tag; a write drops the blocks and
entries it overlaps as it is issued. -/
def sendEgr (p i : Nat) (e : Egr) (s : State) : State :=
  let l := s.lb p
  let wants := e.pkt.op == 0 || e.pkt.op == 2 || e.pkt.op == 3
  let tag := match e.tag with | some t => t | none => if wants then (freeTag l).getD 0 else e.pkt.tag
  let pkt := { e.pkt with tag := tag }
  let cls := creditClass pkt
  s.lbUpd p (fun l =>
      { l with egress := l.egress.eraseIdx i, txSeq := (l.txSeq + 1) % 256, held := l.held ++ [(l.txSeq, pkt, s.now)],
               cred := l.cred.set cls (l.cred.getD cls 0 - 1),
               bndSent := if cls = 0 then l.bndSent ++ [s.now] else l.bndSent,
               reqs := if ¬ wants then l.reqs
                 else if e.tag.isSome then l.reqs.map fun r => if r.tag = tag then { r with retry := false } else r
                 else l.reqs ++ [⟨tag, pkt, e.src.getD .nobody, e.tmo, s.now, false⟩] })
    |> emitPkt p pkt l.txSeq
    |> doIf (e.tag.isNone && (pkt.op == 1 || pkt.op == 2 || pkt.op == 3)) (overwrite p pkt.addr pkt.len)
    |> doIf e.tag.isNone (issued p e)

/-- A C0 packet may leave now. -/
def c0Ready (l : Lb) : Bool :=
  match (l.egress.filter fun e => !egrWaits l e).find? fun e => creditClass e.pkt == 0 with
  | some e => mayIssue l e
  | none => false

/-- R189: freed credits not yet signalled are sent in a LINK CREDIT, behind a NAK, a replay and C0 packets (08 R192). -/
def execLbCreditSend (p : Fin 4) (s : State) : Result :=
  done (if s.lbActive p ∧ (s.lb p).freed.any (· != 0) ∧ (s.lb p).naks = [] ∧ (s.lb p).replay = [] ∧ c0Ready (s.lb p) = false then
      emitPkt p { op := 12, sub := 0 } 0 s
    else s)

/-- R192: the port sends one packet: a NAK, a replayed packet, which is held anew (08 R186), then the next waiting one. -/
def execLbEgressPacket (p : Fin 4) (s : State) : Result :=
  done (if ¬ s.lbActive p then s
    else
      let l := s.lb p
      match l.naks, l.replay with
      | n :: ns, _ =>
        s.lbUpd p (fun l => { l with naks := ns }) |>.inc (Fld.LB_ERR_CNT_NAK_SENT p) 1
          |> emitPkt p { op := 12, sub := 2, aux := n } 0 |> nakSeen p
      | [], (q, k) :: rs =>
        s.lbUpd p (fun l => { l with replay := rs, held := l.held.map fun e => if e.1 = q then (q, e.2.1, s.now) else e }) |> emitPkt p k q
      | [], [] =>
        match nextEgr l with
        | none => s
        | some i =>
          match l.egress[i]? with
          | none => s
          | some e => sendEgr p i e s)

/-! ## Prefetch and stranded reads (08 R203 to R205) -/

/-- Blocks and entries of a window, or of a context (w none), are dropped. -/
def dropWindowBuffers (c : Nat) (w : Option Nat) (s : State) : State :=
  let hit (bc bw : Nat) : Bool := bc == c && (match w with | some v => bw == v | none => true)
  s |> doAll [0, 1, 2, 3] (fun p s =>
    s.lbUpd p (fun l => { l with pf := l.pf.filter fun b => !hit b.c b.w }) |> srbDropAll p (fun x => hit x.c x.w))

/-- Host writes that were received for a port and are not issued: local addresses and lengths. -/
def hostWritesWaiting (s : State) (p : Nat) : List (Nat × Nat) :=
  (s.cad.items.filterMap fun i => match i.work with
    | .hostWrite _ _ _ _ port la _ _ _ d => if port = p then some (la, d.length) else none
    | _ => none) ++
  (s.lb p).egress.filterMap fun e => if e.host.isSome ∧ (e.pkt.op = 1 ∨ e.pkt.op = 2) then some (e.pkt.addr, e.pkt.len) else none

/-- What came from the agent before a host write received earlier was issued is dropped at once: a later read of the function
may not miss that write (04 R88). -/
def overtaken (p : Nat) (s : State) : State := s |> doAll (hostWritesWaiting s p) (fun x => overwrite p x.1 x.2)

/-- A speculative read is answered OK: its block goes into the buffer of 32 blocks, least recently used out first. -/
def pfInsert (p c w blk la : Nat) (data : List Byte) (s : State) : State :=
  s.lbUpd p fun l =>
    let old := l.pf.foldl (fun b x => match b with
      | none => some x
      | some y => if s.since y.used < s.since x.used then some x else some y) (none : Option PfBlock)
    let kept := if 32 ≤ l.pf.length then (match old with | some o => l.pf.erase o | none => l.pf) else l.pf
    { l with pf := kept ++ [⟨c, w, blk, la, data, s.now, s.now⟩] }

/-- The oldest of the stranded entries. -/
def srbOldest (s : State) (l : List Stranded) : Option Stranded :=
  l.foldl (fun b x => match b with
    | none => some x
    | some y => if s.since y.since < s.since x.since then some x else some y) none

/-- A speculative read is answered SIDE_EFFECT: a stranded entry is made, the window's prefetch ends (08 R204). -/
def strand (p c w blk la : Nat) (data : List Byte) (s : State) : State :=
  let s := if 16 ≤ (s.lb p).srb.length then (match srbOldest s (s.lb p).srb with | some o => srbDrop p o.e s | none => s) else s
  let e := ((List.range 16).find? fun i => !((s.lb p).srb.any fun x => x.e == i)).getD 0
  let x : Stranded := ⟨e, c, w, blk, la, s.now, data, []⟩
  s.lbUpd p (fun l => { l with srb := l.srb ++ [x] })
    |> srbRegs p x
    |>.set (Fld.WIN_ATTR_PREFETCH c w) 0 |>.set (Fld.WIN_ATTR_AUTOCLR c w) 1
    |> lbRaise p 6
    |> dropItems (fun i => match i.work with
        | .spec _ y => (match y.src with | some (.spec a b _) => a == c && b == w | _ => false)
        | _ => false)

/-- R203: speculative reads toward port `p` not issued within 8 strokes are abandoned. -/
def execSpeculativeReadAbandon (p : Fin 4) (s : State) : Result :=
  done (dropItems (fun i => match i.work with | .spec q _ => q == p.val && decide (8 ≤ s.since i.since) | _ => false) s)

/-- R203: blocks older than LB_PF_CTL.LIFE leave the buffer. -/
def execPrefetchBlockExpiry (p : Fin 4) (s : State) : Result :=
  done (s.lbUpd p fun l => { l with pf := l.pf.filter fun b => decide (s.since b.came < s.get (Fld.LB_PF_CTL_LIFE p)) })

/-- R205: at the boundary of E + 1,024 an entry with unserved bytes is dropped. -/
def execStrandedEntryExpiry (p : Fin 4) (e : Fin 16) (s : State) : Result :=
  done (match (s.lb p).srb.find? fun x => x.e == e.val with
    | some x => if 1024 ≤ s.since x.since then srbDrop p e s else s
    | none => s)

/-! ## Responses (08 R182, R201) -/

/-- The LEN a response must have (08 R182). -/
def respLen (k : Pkt) (code : Nat) : Nat :=
  if code = 0 ∨ code = 5 then (if k.op = 0 then k.len else if k.op = 3 then k.len else 0) else 0

/-- A response code allowed in answer to a request (08 Table 08-5). -/
def respAllowed (k : Pkt) (code : Nat) : Bool := decide (code ≤ 4) || (code == 5 && k.op == 0)

/-- A request ends: its tag is free. -/
def reqGone (p tag : Nat) (s : State) : State := s.lbUpd p fun l => { l with reqs := l.reqs.filter fun r => r.tag != tag }

/-- The counters and sources of a final or retry response; those of a speculative READ count and raise as well, where R203 has its
failure report nothing (to a requester: DESIGN CHOICE, log 198). -/
def countResp (p code : Nat) (spec : Bool) (s : State) : State :=
  s |> doIf (code == 1) (·.inc (Fld.LB_RESP_CNT_TARGET_ERR p) 1) |> doIf (code == 2) (·.inc (Fld.LB_RESP_CNT_DATA_ERR p) 1)
    |> doIf (code == 3) (·.inc (Fld.LB_RESP_CNT_NO_TARGET p) 1)
    |> doIf (code == 1 || code == 2 || code == 3) (lbRaise p 9)
    |> doIf (code == 4) (fun s => s.inc (Fld.LB_RESP_CNT_RETRY_LATER p) 1 |> lbRaise p 10)
    |> doIf (code == 5 && !spec) (·.inc (Fld.LB_TMO_CNT_SE_NONSPEC p) 1)

/-- A request is answered with a code that its operation allows. The data of a speculative READ enters its buffer also where a write that
overlaps it was issued after it, or its window was unmapped meanwhile (DESIGN CHOICE, logs 216, 218). -/
def respond (p : Nat) (r : Req) (code : Nat) (data : List Byte) (s : State) : State :=
  let s := countResp p code r.pkt.spec s
  if code = 4 then s.lbUpd p fun l => { l with reqs := l.reqs.map fun x => if x.tag = r.tag then { x with retry := true } else x }
  else
    let s := reqGone p r.tag s
    match r.src with
    | .spec c w blk =>
      if code = 0 then pfInsert p c w blk r.pkt.addr data s |> overtaken p
      else if code = 5 then strand p c w blk r.pkt.addr data s |> overtaken p
      else s
    | src => answer src r.pkt.op (if code = 0 ∨ code = 5 then .ok data else .code code) s

/-- R182, R201: a RESP from the local agent. One for a tag that waits for its retry meets no request: an unknown tag, code 0x03 (DESIGN
CHOICE, log 197). -/
def execLbRespReceive (p : Fin 4) (rx : Rx) (tag : Fin 512) (code : BitVec 4) (data : List Byte) (s : State) : Result :=
  let (s, ok) := rxAccept p rx 3 s
  done (if ¬ ok then s
    else if (s.lb p).quar.contains tag.val then
      s.lbUpd p (fun l => { l with quar := l.quar.filter (· != tag.val) }) |>.inc (Fld.LB_TMO_CNT_LATE p) 1
    else
      match (s.lb p).reqs.find? fun r => r.tag == tag.val && !r.retry with
      | none => protoErr p 3 rx.seq.toNat s
      | some r =>
        if ¬ respAllowed r.pkt code.toNat then protoErr p 4 rx.seq.toNat s
        else if data.length ≠ respLen r.pkt code.toNat then protoErr p 9 rx.seq.toNat s
        else respond p r code.toNat data s)

/-- R201: GAP beats after RETRY_LATER the request is sent again under the same tag; the retry takes no hub slot. -/
def execLbRetryLaterResend (p : Fin 4) (tag : Fin 512) (s : State) : Result :=
  done (match (s.lb p).reqs.find? fun r => r.tag == tag.val && r.retry with
    | some r =>
      if s.lbActive p ∧ ¬ ((s.lb p).egress.any fun e => e.tag == some tag.val) then
        s.lbUpd p fun l => { l with egress := l.egress ++ [{ pkt := r.pkt, src := some r.src, tmo := r.tmo, tag := some tag }] }
      else s
    | none => s)

/-- R201: a request's window timeout has expired: it ends timed out and its tag is quarantined. -/
def execWindowCompletionTimeout (p : Fin 4) (tag : Fin 512) (s : State) : Result :=
  done (match (s.lb p).reqs.find? fun r => r.tag == tag.val with
    | some r =>
      if r.tmo ≤ s.since r.issued then
        reqGone p tag s
          |>.lbUpd p (fun l => { l with quar := l.quar ++ [tag.val], egress := l.egress.filter fun e => e.tag != some tag.val })
          |>.inc (Fld.LB_TMO_CNT_TIMEOUT p) 1 |> lbRaise p 8 |> lbRaise p 14
          |> answer r.src r.pkt.op .timeout
      else s
    | none => s)

end Sys2Proof.Machine
end

