-- ==== Sys2Proof/Machine/Windows.lean ====
section
/-! DEFINITION. Machine/Windows.lean: windows, upstream requests and other packets of the local agent, LINT edges
(08 R196 to R198, R206 to R208; 10 R233, R237). -/
namespace Sys2Proof.Machine

/-! ## Windows -/

/-- A packet is of a request through a window. -/
def pktThrough (c w : Nat) (k : Pkt) : Bool := k.op != 8 && k.op != 12 && k.ctx == c && k.win == w

/-- A dealt descriptor names the window. -/
def descThrough (w : Nat) (d : Desc) : Bool :=
  d.engine.isSome && match d.raw with
    | some r => (r.srcKind == 1 && r.srcWin == w) || (r.dstKind == 1 && r.dstWin == w)
    | none => false

/-- WIN_CTL.BUSY: a request through the window is outstanding (08 R197). -/
def winBusy (s : State) (c w : Nat) : Bool :=
  (s.hreads.any fun r => r.c == c && r.w == w && r.bar == 2) ||
    (s.cad.items.any fun i => match i.work with
      | .hostWrite a b _ _ _ _ _ _ _ _ => a == c && b == w
      | .descLocal _ e => pktThrough c w e.pkt
      | .spec _ e => pktThrough c w e.pkt
      | _ => false) ||
    ([0, 1, 2, 3].any fun p => ((s.lb p).egress.any fun e => pktThrough c w e.pkt) || (s.lb p).reqs.any fun r => pktThrough c w r.pkt) ||
    (s.qps.any fun x => x.1 / 64 == c && x.2.descs.any (descThrough w))

/-- MiB of the mapped windows of a context other than `w`. -/
def mappedMib (s : State) (c w : Nat) : Nat :=
  (((List.range 16).filter fun v => v != w && s.winOn c v).map fun v => s.winSize c v / 2 ^ 20).sum

/-- The first failing check of a mapping, as WIN_CTL.ERR codes it (08 R196). -/
def winMapErr (s : State) (c w : Nat) : Nat :=
  if ¬ s.live c then 1
  else if s.get (Fld.CTX_SHARE5_WIN_MIB c) < mappedMib s c w + s.winSize c w / 2 ^ 20 then 2
  else if s.winOff c w % s.winSize c w ≠ 0 then 3
  else if (List.range 16).any (fun v => v != w && s.winOn c v &&
      decide (s.winOff c v < s.winOff c w + s.winSize c w ∧ s.winOff c w < s.winOff c v + s.winSize c v)) then 4
  else if 2 ^ 48 < s.winLocal c w + s.winSize c w then 5
  else if winBusy s c w then 6
  else 0

/-- At the boundary after a write of 1 to WIN_CTL.EN: the window is mapped, or ERR names the first failing check. -/
def winMapApply (c w : Nat) (s : State) : State :=
  if s.winOn c w then s
  else
    let e := winMapErr s c w
    if e ≠ 0 then s.set (Fld.WIN_CTL_ERR c w) e
    else s.set (Fld.WIN_CTL_EN c w) 1 |>.inc (Fld.CTX_CAPS_WINDOWS c) 1

/-- At the boundary after a write of 0: the window is unmapped and its buffers are dropped (08 R197). -/
def winUnmapApply (c w : Nat) (s : State) : State :=
  if s.winOn c w then s.set (Fld.WIN_CTL_EN c w) 0 |>.dec (Fld.CTX_CAPS_WINDOWS c) 1 |> dropWindowBuffers c (some w) else s

/-- At the boundary after a write of WIN_ATTR: CLASS, PREFETCH, ACKED and TMO take effect; PREFETCH cannot be set while
ONCE is 1 (08 R198). -/
def winAttrApply (c w : Nat) (v : Word) (s : State) : State :=
  let n := v.toNat
  s |>.set (Fld.WIN_ATTR_TMO c w) (bitsOf n 11 8) |>.set (Fld.WIN_ATTR_CLASS c w) (bitsOf n 7 6)
    |>.set (Fld.WIN_ATTR_ACKED c w) (bitsOf n 3 3)
    |>.set (Fld.WIN_ATTR_PREFETCH c w) (if s.isSet (Fld.WIN_ATTR_ONCE c w) then 0 else bitsOf n 2 2)

/-- A write of 1 to WIN_CTL.EN: it changes nothing of a window that is mapped, unless an unmap of it waits, after which it is mapped again
(log 196). -/
def winEnable (c w : Nat) (s : State) : State :=
  if s.winOn c w ∧ ¬ s.deferred.contains (.winUnmap c w) then s else { s with deferred := s.deferred ++ [.winMap c w] }

/-- R196: a write of 1 to WIN_CTL.EN. -/
def execWinMap (c : Fin 1024) (w : Fin 16) (s : State) : Result := done (winEnable c w s)

/-- R197: a write of 0 to WIN_CTL.EN. -/
def execWinUnmap (c : Fin 1024) (w : Fin 16) (s : State) : Result :=
  done { s with deferred := s.deferred ++ [.winUnmap c w] }

/-- R198: a write of WIN_ATTR; ONCE takes the value at once, unless the window is enabled or busy (08 R196), and writing 1 to
AUTOCLR clears it. -/
def winAttrWrite (c w : Nat) (v : Word) (s : State) : State :=
  { s with deferred := s.deferred ++ [.winAttr c w v] }
    |> doIf (!(s.winOn c w || winBusy s c w)) (·.set (Fld.WIN_ATTR_ONCE c w) (bitsOf v.toNat 5 5))
    |> doIf (v.getLsbD 31) (·.set (Fld.WIN_ATTR_AUTOCLR c w) 0)

/-- R198: a write of WIN_ATTR. -/
def execWinAttrWrite (c : Fin 1024) (w : Fin 16) (v : Word) (s : State) : Result := done (winAttrWrite c w v s)

/-! ## Upstream requests (08 R206, Table 08-11) -/

/-- First local address, size and first host address of an upstream rule. -/
def ruleLaddr (s : State) (p r : Nat) : Nat :=
  s.get (Fld.LB_UPR_LADDR_HI_ADDR p r) * 2 ^ 32 + s.get (Fld.LB_UPR_LADDR_LO_ADDR p r) * 4096
/-- Bytes that a rule covers. -/
def ruleSize (s : State) (p r : Nat) : Nat := 2 ^ s.get (Fld.LB_UPR_CFG_SIZE_LOG2 p r)
/-- First host address of a rule. -/
def ruleHost (s : State) (p r : Nat) : Nat :=
  s.get (Fld.LB_UPR_HADDR_HI_ADDR p r) * 2 ^ 32 + s.get (Fld.LB_UPR_HADDR_LO_ADDR p r) * 4096

/-- The lowest-numbered enabled rule whose range holds the whole request. -/
def upRule (s : State) (p addr len : Nat) : Option Nat :=
  (List.range 32).find? fun r =>
    s.isSet (Fld.LB_UPR_CFG_EN p r) && decide (ruleLaddr s p r ≤ addr ∧ addr + len ≤ ruleLaddr s p r + ruleSize s p r)

/-- The host link cannot issue a request of a function. -/
def upCannot (s : State) (c : Nat) : Bool :=
  !s.linkUp || !(s.fn c).bme || (s.ctx c).flr || !(s.fn c).enabled

/-- The outcome of an upstream request. -/
inductive UpVerdict where
  | refused (code : Nat)
  | passes (c cls addr : Nat)
deriving DecidableEq, Repr

/-- A refusal of the local-to-host checker is logged (09 Table 09-4). -/
def upRefused (p c cause guard addr : Nat) (precise : Bool) (s : State) : State :=
  s |> accVlog precise 2 cause 0 p guard c addr |>.inc Fld.ACC_CNT_UP 1 |> countAts cause |> raise 266

/-- The tests of R206 in their order. -/
def upDecide (p addr len : Nat) (wr precise : Bool) (s : State) : State × UpVerdict :=
  match upRule s p addr len with
  | none => (s.inc (Fld.LB_UP_CNT_NO_RULE p) 1 |> lbRaise p 11, .refused 3)
  | some r =>
    let c := s.get (Fld.LB_UPR_CFG_CTX p r)
    let ha := (ruleHost s p r + (addr - ruleLaddr s p r)) % 2 ^ 64
    if (if wr then !s.isSet (Fld.LB_UPR_CFG_WR p r) else !s.isSet (Fld.LB_UPR_CFG_RD p r)) then
      (s.inc (Fld.LB_UP_CNT_DENIED p) 1 |> lbRaise p 12, .refused 1)
    else if ¬ s.live c ∨ s.draining then (s, .refused 3)
    else
      match checkHost s c ha len wr with
      | .refused cause g => (upRefused p c cause g ha precise s, .refused 1)
      | _ => if upCannot s c then (s, .refused 3) else (s, .passes c (s.get (Fld.LB_UPR_CFG_CLASS p r)) ha)

/-- A RESP of the device waits at the port's egress, where one to a request accepted before the port left ACTIVE is sent in the ACTIVE
period that it meets; read data whose slots come while the port is not ACTIVE is dropped (DESIGN CHOICE, log 220). -/
def respOut (p tag code : Nat) (data : List Byte) (s : State) : State :=
  s.lbUpd p fun l => { l with egress := l.egress ++ [{ pkt := { op := 8, len := data.length, sub := code, tag := tag, data := data } }] }

/-- An upstream read changed, by its place in the list of its port. -/
def upUpd (p i : Nat) (f : UpRead → UpRead) (s : State) : State :=
  s.lbUpd p fun l => { l with ups := l.ups.modify i f }

/-- An upstream read whose requests have all ended is answered: with data, which takes upward slots, or with a code. -/
def upSettle (p i : Nat) (s : State) : State :=
  match (s.lb p).ups[i]? with
  | none => s
  | some u =>
    if u.pend ≠ 0 ∨ (u.fail.isNone ∧ u.next < u.len) then s
    else
      let s := s.lbUpd p fun l => { l with ups := l.ups.eraseIdx i }
      match u.fail with
      | some code => respOut p u.tag code [] s
      | none => addItem true u.c u.cls 9 u.len false (.upData p u.tag (gather u.len u.got)) s

/-- A waiting upstream read issues its next host read, if nothing holds it back: no earlier upstream write of its port
waits (08 R195), the function may use the link, every page of the read is translated and keeps its translation (04 R86; 09 R215, R217), and a tag is free
(04 R82); it is split as 04 R83 says. -/
def upIssueOne (p i : Nat) (s : State) : State :=
  match (s.lb p).ups[i]? with
  | none => s
  | some u =>
    if u.fail.isSome ∨ u.len ≤ u.next ∨ ¬ upWritesIssued s p u.after then s
    else if upCannot s u.c then s |> upUpd p i (fun u => { u with fail := some 3 }) |> upSettle p i
    else
      match findPages (.up p u.tag) u.c u.pages u.addr u.len false s with
      | (s, kept, .wait) => upUpd p i (fun u => { u with pages := kept }) s
      | (s, _, .denied) => s |> upRefused p u.c 3 0 u.addr true |> upUpd p i (fun u => { u with fail := some 1 }) |> upSettle p i
      | (s, kept, .go) =>
        let s := upUpd p i (fun u => { u with pages := kept }) s
        if ¬ tagFree s u.c then tagWaits s
        else
          let a := u.addr + u.next
          let n := pieceLen a (u.len - u.next) (s.fn u.c).mrrs
          s |> atsUse u.c (BitVec.ofNat 64 a) |> hostReadOut u.c (.up p u.tag u.next n) (keptAddr kept a) n false
            |> upUpd p i (fun u => { u with next := u.next + n, pend := u.pend + 1 })

/-- The upstream reads of a port issue what they can; a request has at most 4 pieces. -/
def upIssue (p : Nat) (s : State) : State :=
  s |> doAll ((List.range (s.lb p).ups.length).reverse) (fun i s => s |> upIssueOne p i |> upIssueOne p i |> upIssueOne p i |> upIssueOne p i)

/-- A completion for an upstream read's request (04 Table 04-7): `none` is no success, with the code to answer. -/
def upAnswered (p tag off : Nat) (r : Except Nat (List Byte)) (s : State) : State :=
  match (s.lb p).ups.findIdx? fun u => u.tag == tag with
  | none => s
  | some i =>
    s |> upUpd p i (fun u => match r with
        | .ok d => { u with pend := u.pend - 1, got := u.got ++ [(off, d)] }
        | .error code => { u with pend := u.pend - 1, fail := u.fail.orElse fun _ => some code })
      |> upSettle p i

/-- R206: an upstream READ. -/
def execLbReadReceive (p : Fin 4) (rx : Rx) (tag : Fin 512) (addr : BitVec 48) (len : Fin 512) (s : State) : Result :=
  let (s, ok) := rxAccept p rx 2 s
  done (if ¬ ok then s
    else if len.val = 0 ∨ 256 < len.val then protoErr p 5 rx.seq.toNat s
    else
      match upDecide p addr.toNat len false true s with
      | (s, .refused code) => respOut p tag code [] s
      | (s, .passes c cls ha) =>
        let u : UpRead := { tag := tag, c := c, cls := cls, addr := ha, len := len, after := s.cad.nextId,
                            pages := knownPages s c ha len false }
        s.lbUpd p (fun l => { l with ups := l.ups ++ [u] })
          |> upIssue p)

/-- An upstream write, posted or acked. -/
def upWrite (p : Nat) (rx : Rx) (tag : Option Nat) (addr : Nat) (data : List Byte) (s : State) : State :=
  let (s, ok) := rxAccept p rx (if tag.isSome then 2 else 1) s
  if ¬ ok then s
  else if data.length = 0 ∨ 256 < data.length then protoErr p 5 rx.seq.toNat s
  else
    match upDecide p addr data.length true tag.isSome s, tag with
    | (s, .refused code), some t => respOut p t code [] s
    | (s, .refused _), none => s
    | (s, .passes c cls ha), t => addItem true c cls 9 data.length false 
        (.upWrite p c t (BitVec.ofNat 64 ha) (knownPages s c ha data.length true) data) s

/-- R206: an upstream WRITE_POSTED. -/
def execLbWritePostedReceive (p : Fin 4) (rx : Rx) (addr : BitVec 48) (data : List Byte) (s : State) : Result :=
  done (upWrite p rx none addr.toNat data s)

/-- R206: an upstream WRITE_ACKED. -/
def execLbWriteAckedReceive (p : Fin 4) (rx : Rx) (tag : Fin 512) (addr : BitVec 48) (data : List Byte) (s : State) : Result :=
  done (upWrite p rx (some tag.val) addr.toNat data s)

/-! ## Other packets of the local agent -/

/-- R181: an ATOMIC from the local agent is a protocol error. -/
def execLbAtomicReceive (p : Fin 4) (rx : Rx) (s : State) : Result :=
  let (s, ok) := rxAccept p rx 2 s
  done (if ok then protoErr p 8 rx.seq.toNat s else s)

/-- R233: a MSG. -/
def execLbMsgReceive (p : Fin 4) (rx : Rx) (id : BitVec 16) (data : List Byte) (s : State) : Result :=
  let (s, ok) := rxAccept p rx 1 s
  done (if ¬ ok then s
    else if 256 < data.length then protoErr p 5 rx.seq.toNat s
    else acceptItem p 2 id.toNat data s)

/-- A frame-sequence error of a segment: a SOF within a frame, a segment outside one, a short segment that is not the
last, a frame longer than 9,216 bytes (10 R237). -/
def frameBad (f : Option FrameIn) (sof eof : Bool) (n : Nat) : Bool :=
  (sof && f.isSome) || (!sof && f.isNone) || (!eof && n != 256) ||
    (match f with | some g => decide (9216 < g.size + n) | none => false)

/-- R237: a FRAME segment. -/
def execLbFrameReceive (p : Fin 4) (rx : Rx) (sof eof : Bool) (info : Word) (data : List Byte) (s : State) : Result :=
  let (s, ok) := rxAccept p rx 1 s
  done (if ¬ ok then s
    else if data.length = 0 ∨ 256 < data.length then protoErr p 5 rx.seq.toNat s
    else if frameBad (s.lb p).frame sof eof data.length then protoErr p 6 rx.seq.toNat s
    else frameSegment p sof eof info.toNat data s)

/-- R233: a SIDEBAND. -/
def execLbSidebandReceive (p : Fin 4) (rx : Rx) (event : Fin 16) (s : State) : Result :=
  let (s, ok) := rxAccept p rx 1 s
  done (if ok then acceptItem p 3 event [] s else s)

/-! ## LINT (08 R207, R208) -/

/-- LB_LINT_CFG recognises an edge of a line. -/
def lintSelected (s : State) (p line : Nat) (rising : Bool) : Bool :=
  let v := (s.word (Adr.LB_LINT_CFG p)).toNat
  bitOf v (4 * line + 3) && bitOf v (4 * line + (if rising then 0 else 1))

/-- R207, R208, 17 R425: an edge of a LINT line; in HELD it is latched until the port is ACTIVE again. One that comes while a
NAK is outstanding, or in the stroke of a link error (log 158), waits. -/
def execLintEdge (p line : Fin 4) (rising : Bool) (s : State) : Result :=
  done (if ¬ s.isSet (Fld.LB_CTL_EN p) ∨ s.mode = .maintenance ∨ s.mode = .preserve ∨ ¬ lintSelected s p line rising then s
    else if s.lbState p = 6 then
      lbRaise p 13 s |>.lbUpd p fun l => { l with lint := l.lint ++ [(line.val, routeNow s p 3 line, s.now)] }
    else
      let s := lbRaise p 13 s
      let e : Nat × Nat × Stroke := (line.val, routeNow s p 3 line, s.now)
      if s.lbActive p then
        if (s.lb p).errOut ∨ (s.lb p).lintWait ≠ [] ∨ (s.lb p).errAt = some s.now then s.lbUpd p fun l => { l with lintWait := l.lintWait ++ [e] }
        else acceptItem p 3 line [] s
      else if 16 ≤ (s.lb p).lint.length then lintFull p line e.2.1 s
      else s.lbUpd p fun l => { l with lint := l.lint ++ [e] })

/-- Edges that waited for the end of a link error become items (08 R207): 512 beats after the replay began are less
than a stroke, and the model releases them at the boundary. -/
def lintRelease (p : Nat) (s : State) : State :=
  if s.lbActive p ∧ ¬ (s.lb p).errOut then
    s.lbUpd p (fun l => { l with lintWait := [] })
      |> doAll (s.lb p).lintWait (fun e s => acceptWith p 3 e.1 [] e.2.1 e.2.2 s)
  else s

end Sys2Proof.Machine
end

