-- ==== Sys2Proof/Machine/Store.lean ====
section
/-! DEFINITION. Machine/Store.lean: the durable store: aperture bytes, admission, protection, mirror copies, persist
barriers, budget and hold-up energy, aperture commands (11 R247 to R265, R269, R474). -/
namespace Sys2Proof.Machine

/-- The durable store changed. -/
def State.dsUpd (s : State) (f : Store → Store) : State := { s with ds := f s.ds }

/-- What an aperture byte never written reads as (11 R249). -/
def aptByteReset (_ : Nat) : Byte := 0

/-- The canonical form of aperture memory: addresses strictly rising, no byte listed that reads as an unlisted one. -/
def Memory.wf (t : Table Byte) : Bool := tabWf aptByteReset t

/-- Bytes of a map unit (11 R247). -/
def State.unitSize (s : State) : Nat := if s.isSet Fld.DS_CFG_MAP_UNIT then 16384 else 4096

/-- The aperture exists. -/
def State.aptValid (s : State) (a : Nat) : Bool := s.isSet (Fld.DS_APT_STATUS_VALID a)

/-- The context an aperture is attached to. -/
def State.aptCtx (s : State) (a : Nat) : Option Nat :=
  if s.isSet (Fld.DS_APT_STATUS_ATTACHED a) then some (s.get (Fld.DS_APT_STATUS_CTX a)) else none

/-- Aperture numbers that exist. -/
def State.aptIds (s : State) : List Nat := (List.range 2048).filter s.aptValid

/-- MIRROR of an aperture: 0 not mirrored, 1 TANDEM, 2 SOLO, 3 RESYNC (11 Table 11-4). -/
def State.mirror (s : State) (a : Nat) : Nat := s.get (Fld.DS_APT_STATUS_MIRROR a)

/-- The units of an aperture that a range touches. -/
def unitsOf (s : State) (a off len : Nat) : List (Nat × Nat) :=
  if len = 0 then []
  else (List.range ((off + len - 1) / s.unitSize + 1 - off / s.unitSize)).map fun i => (a, off / s.unitSize + i)

/-- A unit wholly inside a range. -/
def wholeUnit (s : State) (u : Nat × Nat) (off len : Nat) : Bool :=
  decide (off ≤ u.2 * s.unitSize ∧ (u.2 + 1) * s.unitSize ≤ off + len)

/-! ## Aperture bytes -/

/-- Key of an aperture byte. -/
def aptKey (a off : Nat) : Nat := a * 2 ^ 40 + off

/-- Bytes of an aperture. -/
def aptBytes (s : State) (a off n : Nat) : List Byte := (List.range n).map fun i => tabGet aptByteReset s.ds.mem (aptKey a (off + i))

/-- A list of bytes written into a table from a key on. -/
def putBytes (m : Table Byte) (k : Nat) : List Byte → Table Byte
  | [] => m
  | b :: bs => putBytes (tabSet aptByteReset m k b) (k + 1) bs

/-- The bytes of a table in a range of keys removed: they read 0 again. -/
def clearBytes (m : Table Byte) (k n : Nat) : Table Byte := tabKeep (fun j => decide (j < k ∨ k + n ≤ j)) m

/-- The part of `src` in a range of keys replaces that of `dst`. -/
def copyBytes (src dst : Table Byte) (k n : Nat) : Table Byte :=
  (src.filter fun e => decide (k ≤ e.1 ∧ e.1 < k + n)).foldl (fun m e => tabSet aptByteReset m e.1 e.2) (clearBytes dst k n)

/-- First key and length of a unit. -/
def unitKeys (s : State) (u : Nat × Nat) : Nat × Nat := (aptKey u.1 (u.2 * s.unitSize), s.unitSize)

/-! ## Counts that follow the cache -/

/-- Occupancy registers of an aperture follow the cache. -/
def updAptOcc (a : Nat) (s : State) : State :=
  let d := (s.ds.dirty.filter fun u => u.1 == a).length * s.unitSize
  let c := (s.ds.clean.filter fun u => u.1 == a).length * s.unitSize
  s |>.set (Fld.DS_APT_OCC_CACHE_MIB a) (ceilDiv (d + c) (2 ^ 20)) |>.set (Fld.DS_APT_OCC_DIRTY a) (ceilDiv d 65536)
    |>.set (Fld.DS_APT_LOST_LOST a) (s.ds.lost.filter fun u => u.1 == a).length
    |>.set (Fld.DS_APT_RESYNC_REMAIN a) (s.ds.bitmap.filter fun u => u.1 == a).length

/-- DS_DIRTY and the occupancy of an aperture follow the cache. -/
def updDirty (a : Nat) (s : State) : State :=
  let n := ceilDiv (s.ds.dirty.length * s.unitSize) 65536
  s |>.set Fld.DS_DIRTY_DIRTY n |>.peak Fld.DS_DIRTY_HWM n |> updAptOcc a

/-- Attached apertures in SOLO and in RESYNC (11 Table 11-13). -/
def updMirrorStatus (s : State) : State :=
  let att := s.aptIds.filter fun a => (s.aptCtx a).isSome
  s |>.set Fld.DS_MIRROR_STATUS_SOLO (att.filter fun a => s.mirror a == 2).length
    |>.set Fld.DS_MIRROR_STATUS_RESYNC (att.filter fun a => s.mirror a == 3).length

/-- Bytes of host writes that wait for admission. -/
def stagedBytes (s : State) : Nat :=
  ((s.ds.wait.filter fun w => match w.src with | .host _ _ => true | _ => false).map fun w => w.data.length).sum +
    (s.cad.items.map fun i => match i.work with | .staged _ _ _ _ d => d.length | _ => 0).sum

/-- DS_STAGE follows the staging buffer; the full state is counted and raises source 232 (11 R252). -/
def updStage (s : State) : State :=
  let n := stagedBytes s
  let full := decide (4 * 2 ^ 20 ≤ n)
  let was := s.ds.full
  s.set Fld.DS_STAGE_USED_KIB (min 4096 (ceilDiv n 1024))
    |>.dsUpd (fun d => { d with full := full })
    |> doIf (full && !was) (fun s => s.inc Fld.DS_STAGE_FULL 1 |> raise 232)

/-- One lookup of the map cache, whose replacement the spec does not state: hit or miss is a value the device draws
(11 R257, log 7). -/
def mapLookup (s : State) : State :=
  (if s.draw.getLsbD 0 then s.inc Fld.DS_MAPC_HIT_COUNT 1 else s.inc Fld.DS_MAPC_MISS_COUNT 1) |>.drewOne

/-! ## Reading (11 R249, R269) -/

/-- The first 4 KiB block of a range whose data is LOST, uncorrectable, or still to be copied back from the partner. -/
def badAt (s : State) (a off len : Nat) : Option Nat :=
  match (unitsOf s a off len).find? fun u => s.ds.lost.contains u || s.ds.bad.contains u || s.ds.back.contains u with
  | some u => some (max off (u.2 * s.unitSize) / 4096)
  | none => none

/-- The units of a range that the cache does not hold are looked up in the map. -/
def lookupAll (a off len : Nat) (s : State) : State :=
  s |> doAll ((unitsOf s a off len).filter fun u => !s.ds.dirty.contains u && !s.ds.clean.contains u) (fun _ s => mapLookup s)

/-! ## Persist and protection (11 R253, R254) -/

/-- The partner of a home context (14 Table 14-10): member and its local context. -/
def State.partner (s : State) (c : Nat) : Option (Nat × Nat) :=
  if s.get (Fld.PEL_TANDEM_ROLE c) = 1 then some (s.get (Fld.PEL_TANDEM_PEER_MEMBER c), s.get (Fld.PEL_TANDEM_PEER_CTX c)) else none

/-- A write of function `c` numbered at most `n` satisfies `f`. -/
def hostWr (c n : Nat) : WrSrc → Bool
  | .host d m => d == c && decide (m ≤ n)
  | _ => false

/-- Every BAR4 write of function `c` up to number `n` is admitted. -/
def admittedTo (s : State) (c n : Nat) : Bool :=
  !(s.cad.items.any fun i => match i.work with | .staged d m _ _ _ => d == c && decide (m ≤ n) | _ => false) &&
    !(s.ds.wait.any fun w => hostWr c n w.src)

/-- Every BAR4 write of function `c` up to number `n` is protected. -/
def protectedTo (s : State) (c n : Nat) : Bool :=
  admittedTo s c n && !(s.ds.copies.any fun x => match x.src with | some w => hostWr c n w | none => false)

/-- Strokes in 62 ms (06 R147, 11 R254). -/
def heldLimit : Nat := 124000

/-- The word a CTX_PERSIST read returns (11 Table 11-3). -/
def persistWord (solo noApt incomplete : Bool) (wait : Nat) : Nat :=
  solo.toNat * 2 ^ 31 + noApt.toNat * 2 ^ 30 + incomplete.toNat * 2 ^ 29 + min (2 ^ 24 - 1) wait

/-- The write sequence number of a context (06 R145). -/
def State.wseq (s : State) (c : Nat) : Nat :=
  (s.word (Adr.CTX_PWE_WSEQ_HI c)).toNat * 2 ^ 32 + (s.word (Adr.CTX_PWE_WSEQ_LO c)).toNat

/-- A posted write of a function to BAR2 takes the next write sequence number, a refused one too (06 R145, 09 R223). -/
def takeWseq (c : Nat) (s : State) : State :=
  let n := s.wseq c + 1
  s |>.setWord (Adr.CTX_PWE_WSEQ_LO c) (BitVec.ofNat 32 n) |>.setWord (Adr.CTX_PWE_WSEQ_HI c) (BitVec.ofNat 32 (n / 2 ^ 32))

/-- A barrier read received now: it covers every earlier write of its function. -/
def heldNow (s : State) (c be : Nat) (rest : Option Nat) : HeldRead :=
  { since := s.now, upTo2 := s.wseq c, upTo4 := (s.ctx c).wseq4, be := be, rest := rest }

/-- A barrier read has its word: the enabled bytes are returned, or an 8-byte read goes on with CTX_WFENCE (20 R465). -/
def heldAnswer (c v : Nat) (r : HeldRead) (s : State) : State :=
  let data := r.pre ++ enabledBytes r.be (leBytes 4 v)
  match r.rest with
  | some be => s.ctxUpd c fun x => { x with wfence := x.wfence ++ [{ r with be := be, rest := none, pre := data }] }
  | none => emit (.cpl c 0 data) s

/-- The oldest held CTX_PERSIST read of a context returns a word, which the register shows. -/
def persistReturn (c v : Nat) (r : HeldRead) (s : State) : State :=
  s.setWord (Adr.CTX_PERSIST c) (BitVec.ofNat 32 v)
    |>.ctxUpd c (fun x => { x with persist := x.persist.drop 1 })
    |> heldAnswer c v r

/-- A read of CTX_PERSIST with byte enables; without an aperture it returns at once. -/
def persistRead (c be : Nat) (rest : Option Nat) (s : State) : State :=
  match (s.ctx c).apt with
  | none =>
    s.setWord (Adr.CTX_PERSIST c) (BitVec.ofNat 32 (persistWord false true false 0))
      |> heldAnswer c (persistWord false true false 0) (heldNow s c be rest)
  | some _ => s.ctxUpd c fun x => { x with persist := x.persist ++ [heldNow s c be rest] }

/-- R254: a read of CTX_PERSIST, whole. -/
def execCtxPersistRead (c : Fin 1024) (s : State) : Result := done (hostTlp c (.ctxPersistRead c) (persistRead c 15 none) s)

/-- A write of function `c` up to number `n` was protected in SOLO. -/
def soloSeen (s : State) (c n : Nat) : Bool :=
  match (s.ctx c).soloFrom with
  | some m => decide (m ≤ n)
  | none => false

/-- R254: the oldest held read returns once the writes it covers are protected; never in PRESERVE (R256). -/
def execCtxPersistReturn (c : Fin 1024) (s : State) : Result :=
  done (match (s.ctx c).persist with
    | r :: _ =>
      if protectedTo s c r.upTo4 ∧ s.mode ≠ .preserve then
        persistReturn c (persistWord (soloSeen s c r.upTo4) false false (s.since r.since)) r s
      else s
    | [] => s)

/-- R254: a read held 62 ms returns with INCOMPLETE. -/
def execCtxPersistTimeout (c : Fin 1024) (s : State) : Result :=
  done (match (s.ctx c).persist with
    | r :: _ =>
      if heldLimit ≤ s.since r.since ∧ ¬ protectedTo s c r.upTo4 ∧ s.mode ≠ .preserve then
        persistReturn c (persistWord (soloSeen s c r.upTo4) false true (s.since r.since)) r s
      else s
    | [] => s)

/-! ## Mirror copies (11 R260, R261) -/

/-- Mirror copies of bytes of an aperture are queued for the partner: one message for each 256 bytes. -/
def mirrorSend (a c : Nat) (src : Option WrSrc) (off : Nat) (data : List Byte) (s : State) : State :=
  match s.partner c with
  | none => s
  | some (m, sc) =>
    s |> doAll (pieces 256 off (data.length + 1) 0 data.length) (fun p s =>
      let n := s.ds.copyNo
      let msg : UMsg := { mtype := 6, cls := 2, dst := m, src := s.gctx c, ctx := sc, win := 255, off := off + p.1,
                          data := sliceBytes data p.1 p.2 }
      s.dsUpd (fun d => { d with copies := d.copies ++ [⟨n, a, (off + p.1) / s.unitSize, src, msg, none⟩], copyNo := n + 1 })
        |> (fun s => match s.routeFor m sc with
            | some k => addItem false c 2 (4 + k) p.2 false (.mirror n) s
            | none => s))

/-- A write that waited for its mirror copies is protected: a peer that waits for protection is answered. -/
def nowProtected (src : Option WrSrc) (s : State) : State :=
  match src with
  | some w =>
    if s.ds.copies.any fun x => x.src == some w then s
    else
      match w with
      | .peer _ m => peerAns m (.ok []) s
      | _ => s
  | none => s

/-- A mirror copy is acknowledged: the write is protected once all its copies are; a unit resynced whole leaves the
change bitmap (11 R253, R260). -/
def mirrorAcked (n : Nat) (s : State) : State :=
  match s.ds.copies.find? fun x => x.n == n with
  | none => s
  | some x =>
    let s := s.dsUpd fun d => { d with copies := d.copies.filter fun y => y.n != n }
    match x.src with
    | some w => nowProtected (some w) s
    | none =>
      if s.ds.copies.any fun y => y.apt == x.apt && y.unit == x.unit && y.src.isNone then s
      else s.dsUpd (fun d => { d with bitmap := d.bitmap.filter (· != (x.apt, x.unit)) }) |> updAptOcc x.apt

/-- A host write is protected in SOLO: CTX_PERSIST reports it. -/
def markSolo (src : Option WrSrc) (s : State) : State :=
  match src with
  | some (.host c n) => s.ctxUpd c fun x => { x with soloFrom := some (match x.soloFrom with | some m => min m n | none => n) }
  | _ => s

/-- An aperture enters SOLO (11 R261): writes that await acknowledgement become protected, their units are recorded,
source 235 is raised. -/
def enterSolo (a : Nat) (s : State) : State :=
  if s.mirror a ≠ 1 ∧ s.mirror a ≠ 3 then s
  else
    let mine := s.ds.copies.filter fun x => x.apt == a
    let us := (mine.map fun x => (a, x.unit)).filter fun u => !s.ds.bitmap.contains u
    s.dsUpd (fun d => { d with copies := d.copies.filter (fun x => x.apt != a), bitmap := d.bitmap ++ us.eraseDups,
                               soloDue := d.soloDue.filter (· != a) })
      |> dropItems (fun i => match i.work with | .mirror n => mine.any (fun x => x.n == n) | _ => false)
      |>.set (Fld.DS_APT_STATUS_MIRROR a) 2
      |> doAll mine (fun x s => s |> markSolo x.src |> nowProtected x.src)
      |> updMirrorStatus |> updAptOcc a |> raise 235

/-- Apertures enter SOLO at the next stroke boundary (R261). -/
def soloNext (l : List Nat) (s : State) : State := s.dsUpd fun d => { d with soloDue := d.soloDue ++ l.filter fun a => !d.soloDue.contains a }

/-- R261: a mirror copy of the aperture has been unacknowledged for ACK_TMO strokes: SOLO at the next boundary. -/
def execMirrorAckTimeout (a : Fin 2048) (s : State) : Result :=
  done (if s.ds.copies.any (fun x => x.apt == a.val && (match x.sent with
        | some t => decide (s.get Fld.DS_MIRROR_CTL_ACK_TMO ≤ s.since t)
        | none => false)) then
      soloNext [a.val] s
    else s)

/-- R260: the change bitmap of an aperture in RESYNC is empty: TANDEM, source 236. -/
def execResyncComplete (a : Fin 2048) (s : State) : Result :=
  done (if s.mirror a = 3 ∧ ¬ (s.ds.bitmap.any fun u => u.1 == a.val) then
      s.set (Fld.DS_APT_STATUS_MIRROR a) 1 |> updMirrorStatus |> raise 236
    else s)

/-- Resync sends one unit at a time of each aperture in RESYNC (11 Table 11-4). -/
def resyncStep (a : Nat) (s : State) : State :=
  if s.mirror a ≠ 3 ∨ (s.ds.copies.any fun x => x.apt == a && x.src.isNone) then s
  else
    match s.ds.bitmap.find? fun u => u.1 == a, s.aptCtx a with
    | some u, some c => mirrorSend a c none (u.2 * s.unitSize) (aptBytes s a (u.2 * s.unitSize) s.unitSize) s
    | _, _ => s

/-! ## Admission (11 R251) -/

/-- Cache bytes an aperture may hold: CACHE_MIB of its context, at least 4 MiB; 4 MiB while it is detached. -/
def cacheBound (s : State) (a : Nat) : Nat :=
  match s.aptCtx a with
  | some c => max 4 (s.get (Fld.CTX_SHARE6_CACHE_MIB c)) * 2 ^ 20
  | none => 4 * 2 ^ 20

/-- Units of a write that are not dirty yet. -/
def freshUnits (s : State) (w : Wr) : List (Nat × Nat) :=
  (unitsOf s w.apt w.off w.data.length).filter fun u => !s.ds.dirty.contains u

/-- A write may go into the units it touches: what the partner is to copy back of them is not lost to a write of a part (R269; log 190). -/
def backClear (s : State) (w : Wr) : Bool :=
  (match w.src with | .mirror _ _ => true | _ => false) ||
    (unitsOf s w.apt w.off w.data.length).all fun u => !s.ds.back.contains u || wholeUnit s u w.off w.data.length

/-- The conditions of R251: the budget, the aperture's occupancy once its other clean units are evicted, and in WORN only
units already dirty (12 R301). Units covered in part are read from NAND first, which never fails to end. Admission ends
at PRESERVE entry and stops in Rest (17 R423). -/
def mayAdmit (s : State) (w : Wr) : Bool :=
  let new := (freshUnits s w).length
  s.mode != .preserve && !s.resting && s.get Fld.DS_CFG_STATE == 2 &&
    decide ((s.ds.dirty.length + new) * s.unitSize ≤ s.get Fld.DS_BUDGET_EFF_MIB * 2 ^ 20) &&
    decide (((s.ds.dirty.filter fun u => u.1 == w.apt).length + new) * s.unitSize ≤ cacheBound s w.apt) &&
    (new == 0 || !s.med.worn) && backClear s w

/-- Two writes are of one source, within which admission keeps their order. -/
def sameSource : WrSrc → WrSrc → Bool
  | .host c _, .host d _ => c == d
  | .desc j _, .desc k _ => j == k
  | .mirror j m, .mirror k n => j == k && m.src == n.src
  | .peer j m, .peer k n => j == k && m.src == n.src
  | _, _ => false

/-- The oldest clean units of an aperture are evicted until its occupancy is within its bound. -/
def evict (a : Nat) (keep : List (Nat × Nat)) (s : State) : State :=
  let mine (u : Nat × Nat) : Bool := u.1 == a
  let total := (s.ds.dirty.filter mine).length + (s.ds.clean.filter mine).length
  let excess := total - cacheBound s a / s.unitSize
  let victims := ((s.ds.clean.filter fun u => mine u && !keep.contains u).take excess)
  s.dsUpd fun d => { d with clean := d.clean.filter fun u => !victims.contains u }

/-- A LOST unit that a write touches is LOST no more: bytes not written read as zero (11 R269). A unit whose data is
uncorrectable is repaired only by a write that covers it whole. -/
def clearLost (w : Wr) (s : State) : State :=
  let us := unitsOf s w.apt w.off w.data.length
  s |> doAll (us.filter s.ds.lost.contains) (fun u s =>
      s.dsUpd fun d => { d with mem := clearBytes d.mem (unitKeys s u).1 (unitKeys s u).2 })
    |>.dsUpd (fun d => { d with lost := d.lost.filter (fun u => !us.contains u),
                                bad := d.bad.filter fun u => !(us.contains u && wholeUnit s u w.off w.data.length) })

/-- A unit that the partner copies back is whole: the write covers it, or ends it as the last piece of the copy (R269). -/
def backDone (s : State) (w : Wr) (u : Nat × Nat) : Bool :=
  wholeUnit s u w.off w.data.length ||
    (match w.src with | .mirror _ _ => w.off + w.data.length == (u.2 + 1) * s.unitSize | _ => false)

/-- Units that satisfy `p` are on their way no more; a stripe not yet closed that none is left of is given up. -/
def dropFlights (p : Nat × Nat → Bool) (s : State) : State :=
  let ss := s.med.stripes.map fun x => if x.closed then x else { x with units := x.units.filter fun u => !p u.2 }
  { s with med := { s.med with stripes := ss.filter fun x => x.closed || !x.units.isEmpty } }
    |>.dsUpd fun d => { d with flushing := d.flushing.filter fun u => !p u }

/-- Units that satisfy `p` are on no closed stripe any more; one without units is no stripe. -/
def offStripes (p : Nat × Nat → Bool) (s : State) : State :=
  let ss := s.med.stripes.map fun x => if x.closed then { x with units := x.units.filter fun u => !p u.2 } else x
  { s with med := { s.med with stripes := ss.filter fun x => !x.closed || !x.units.isEmpty } }

/-- The bytes of a write enter the write cache: its units are dirty. -/
def cacheWrite (w : Wr) (s : State) : State :=
  let us := unitsOf s w.apt w.off w.data.length
  let new := freshUnits s w
  s |> lookupAll w.apt w.off w.data.length
    |> clearLost w
    |> dropFlights us.contains
    |>.dsUpd (fun d => { d with mem := putBytes d.mem (aptKey w.apt w.off) w.data, dirty := d.dirty ++ new,
                                clean := d.clean.filter (fun u => !us.contains u),
                                units := d.units ++ us.filter (fun u => !d.units.contains u),
                                back := d.back.filter fun u => !(us.contains u && backDone s w u) })
    |> evict w.apt us
    |> updDirty w.apt

/-- What admission does for the source of a write: a descriptor's bytes are accepted and the journal keeps the piece (06 R143),
a mirror write is acknowledged, and a peer's write without a mirror copy to wait for is answered. -/
def admittedFor (w : Wr) (s : State) : State :=
  match w.src with
  | .desc k len =>
    descIssued k len false s |>.descUpd k fun d =>
      { d with done := d.done ++ [(w.off - (match d.raw with | some r => r.dst | none => 0), len)] }
  | .mirror _ m => peerAns m (.ok []) s
  | .peer _ m => if s.ds.copies.any (fun x => x.src == some w.src) then s else peerAns m (.ok []) s
  | .host _ _ => s

/-- The context whose partner takes the mirror copies of an aperture: it is in TANDEM or RESYNC, attached, and paired. -/
def mirrorTo (s : State) (a : Nat) : Option Nat :=
  if s.mirror a = 1 ∨ s.mirror a = 3 then (s.aptCtx a).filter fun c => (s.partner c).isSome else none

/-- Mirroring of an admitted write: copies in TANDEM and RESYNC; the change bitmap in SOLO, and where no partner is left. What the
partner copied back goes nowhere. -/
def mirrorWrite (w : Wr) (s : State) : State :=
  let us := unitsOf s w.apt w.off w.data.length
  let copied : Bool := (s.aptCtx w.apt).isSome && (match w.src with | .mirror _ _ => true | _ => false)
  if s.mirror w.apt = 0 ∨ copied then s
  else
    match mirrorTo s w.apt with
    | some c => mirrorSend w.apt c (some w.src) w.off w.data s
    | none =>
      s.dsUpd (fun d => { d with bitmap := d.bitmap ++ us.filter fun u => !d.bitmap.contains u })
        |> markSolo (some w.src) |> updAptOcc w.apt

/-- R251: the `n`-th waiting write is admitted if its conditions hold and no earlier write of its source waits. -/
def execWriteAdmission (n : Fin 65536) (s : State) : Result :=
  done (match s.ds.wait[n.val]? with
    | none => s
    | some w =>
      if mayAdmit s w ∧ ¬ ((s.ds.wait.take n).any fun x => sameSource x.src w.src) then
        s.dsUpd (fun d => { d with wait := d.wait.eraseIdx n })
          |> cacheWrite w |> mirrorWrite w |> admittedFor w |> updStage
      else s)

/-- The source of a write to an aperture that exists no more: a peer is answered, a descriptor's piece was not issued, a host write
is discarded (R248). -/
def aptGone (w : Wr) (s : State) : State :=
  match w.src with
  | .mirror _ m | .peer _ m => peerAns m .notIssued s
  | .desc k len => answer (.desc k w.off len) 2 .notIssued s
  | .host _ _ => s

/-- A write to an aperture takes its place among those that wait for admission. -/
def waitAdmission (w : Wr) (s : State) : State :=
  if s.aptValid w.apt then s.dsUpd (fun d => { d with wait := d.wait ++ [w] }) |> updStage else aptGone w s |> updStage

/-! ## Budget and energy (11 R263 to R265) -/

/-- E of a budget in mJ at a rate in MB/s: 1.5 × 14 W × (8 ms + B / F), up to a whole 10 mJ. -/
def energyOf (mib rate : Nat) : Nat := 10 * ceilDiv (21 * (8000 * rate + mib * 2 ^ 20)) (10000 * rate)

/-- T of a budget in units of 10 µs, rounded up. -/
def timeOf (mib rate : Nat) : Nat := ceilDiv (8000 * rate + mib * 2 ^ 20) (10 * rate)

/-- F now. -/
def State.flushRate (s : State) : Nat := s.get Fld.DS_FLUSH_RATE_MBPS

/-- The budgets of DS_BUDGET.MIB, largest first. -/
def budgets : List Nat := (List.range 16).reverse.map fun i => 16 * (i + 1)

/-- DS_PRESERVE_EST, EFF_MIB and CUT follow the budget, the hold-up energy and F; source 233 when CUT changes. Where few LUNs are left
MJ and T_10US keep the low bits of a figure that their fields do not hold, and with none left they read 0 (DESIGN CHOICE, log 222). -/
def updBudget (s : State) : State :=
  let mib := s.get Fld.DS_BUDGET_MIB
  let fit := (budgets.find? fun b => decide (energyOf b s.flushRate ≤ s.get Fld.DS_HOLDUP_MJ)).getD 16
  let eff := max 16 (min mib fit)
  let cut := decide (eff < mib)
  let was := s.isSet Fld.DS_BUDGET_CUT
  s |>.set Fld.DS_PRESERVE_EST_MJ (energyOf mib s.flushRate) |>.set Fld.DS_PRESERVE_EST_T_10US (timeOf mib s.flushRate)
    |>.set Fld.DS_BUDGET_EFF_MIB eff |>.set Fld.DS_BUDGET_CUT cut.toNat
    |> doIf (cut != was) (raise 233)

/-- F follows the healthy LUNs (11 R263). -/
def updFlushRate (s : State) : State :=
  let n := s.get Fld.MED_STATUS_HEALTHY
  s.set Fld.DS_FLUSH_RATE_LUNS n |>.set Fld.DS_FLUSH_RATE_MBPS (min 4000 (85 * n)) |> updBudget

/-- R264: a write of DS_BUDGET: refused if it needs more energy than DS_HOLDUP, else in force at the next boundary; a
reserved encoding keeps the value (00 R6); REFUSED is cleared by writing 1. -/
def dsBudgetWrite (v : Word) (s : State) : State :=
  let mib := bitsOf v.toNat 8 0
  let s := doIf (v.getLsbD 31) (·.set Fld.DS_BUDGET_REFUSED 0) s
  if mib % 16 ≠ 0 ∨ mib < 16 ∨ 256 < mib then s
  else if s.get Fld.DS_HOLDUP_MJ < energyOf mib s.flushRate then s.set Fld.DS_BUDGET_REFUSED 1 |> raise 234
  else { s with deferred := s.deferred ++ [.budget mib] }

/-- R264: a write of DS_BUDGET. -/
def execDsBudgetWrite (v : Word) (s : State) : Result := done (dsBudgetWrite v s)

/-- R264: a write of DS_HOLDUP: refused below the energy of the current budget. -/
def dsHoldupWrite (v : Word) (s : State) : State :=
  let mj := bitsOf v.toNat 15 0
  let s := doIf (v.getLsbD 31) (·.set Fld.DS_HOLDUP_REFUSED 0) s
  if mj < energyOf (s.get Fld.DS_BUDGET_MIB) s.flushRate then s.set Fld.DS_HOLDUP_REFUSED 1 |> raise 234
  else { s with deferred := s.deferred ++ [.holdup mj] }

/-- R264: a write of DS_HOLDUP. -/
def execDsHoldupWrite (v : Word) (s : State) : Result := done (dsHoldupWrite v s)

/-- The energy of PRESERVE at reset: DS_PRESERVE_EST of Table 11-11. -/
theorem energyOf_default : energyOf 64 4000 = 0x212 ∧ timeOf 64 4000 = 0x9AE := by decide

/-! ## Apertures (11 Table 11-1) -/

/-- Logical capacity not taken by an aperture, in 256 MiB units. -/
def freeUnits (s : State) : Nat :=
  s.get Fld.DS_CFG_CAP_UNITS - (s.aptIds.map fun a => s.get (Fld.DS_APT_STATUS_UNITS a)).sum

/-- Capacity that standby functions hold in reserve for their homes: DUR_UNITS of each record, less the copy made (14 R356). -/
def unitsReserved (s : State) : Nat :=
  ((s.ctxIds.filter fun c => s.get (Fld.PEL_TANDEM_ROLE c) == 2).map fun c =>
    s.get (Fld.CTX_SHARE6_DUR_UNITS c) -
      (match tabGet (fun _ => none) s.ds.standby c with | some a => s.get (Fld.DS_APT_STATUS_UNITS a) | none => 0)).sum

/-- The lowest free aperture number. -/
def nextApt (s : State) : Nat := ((List.range 2048).find? fun a => !s.aptValid a).getD 0

/-- An aperture is created under a new key. -/
def aptCreate (a units : Nat) (mirror : Bool) (s : State) : State :=
  s.setWord (Adr.DS_APT_STATUS a) 0
    |>.set (Fld.DS_APT_STATUS_VALID a) 1 |>.set (Fld.DS_APT_STATUS_UNITS a) units
    |>.set (Fld.DS_APT_STATUS_MIRROR a) (if mirror then 2 else 0)
    |>.dsUpd (fun d => { d with keyGen := d.keyGen + 1, keys := tabSet (fun _ => 0) d.keys a (d.keyGen + 1) })
    |> updAptOcc a

/-- What waits to write to an aperture is gone with it: a new aperture of the number reads as zero (R248). -/
def writesGone (a : Nat) (s : State) : State :=
  let here (w : Work) : Bool := match w with | .staged _ _ b _ _ | .peerDur _ b => b == a | _ => false
  let items := s.cad.items.filter fun i => here i.work
  let ws := s.ds.wait.filter fun w => w.apt == a
  s |> dropItems (fun i => here i.work) |>.dsUpd (fun d => { d with wait := d.wait.filter fun w => w.apt != a })
    |> doAll items (fun i s => match i.work with | .peerDur m _ => peerAns m .notIssued s | _ => s)
    |> doAll ws aptGone

/-- An aperture is destroyed: its key, its data and its capacity are gone, and whatever waits to write to it. -/
def aptErase (a : Nat) (s : State) : State :=
  let mine (u : Nat × Nat) : Bool := u.1 == a
  s |> writesGone a |> dropFlights mine
    |>.dsUpd (fun d => { d with keys := tabSet (fun _ => 0) d.keys a 0, mem := clearBytes d.mem (aptKey a 0) (2 ^ 40),
                                nand := clearBytes d.nand (aptKey a 0) (2 ^ 40), dirty := d.dirty.filter (fun u => !mine u),
                                clean := d.clean.filter (fun u => !mine u), lost := d.lost.filter (fun u => !mine u),
                                superseded := d.superseded.filter (· != a), back := d.back.filter (fun u => !mine u),
                                backFor := d.backFor.filter (fun x => x.2 != a),
                                bad := d.bad.filter (fun u => !mine u), bitmap := d.bitmap.filter (fun u => !mine u),
                                units := d.units.filter (fun u => !mine u), pairs := d.pairs.filter (fun r => r.apt != a),
                                soloDue := d.soloDue.filter (· != a) })
    |> offStripes mine
    |>.setWord (Adr.DS_APT_STATUS a) 0
    |> updDirty a |> updStage

/-- The written units of an aperture (11 R260). -/
def writtenUnits (s : State) (a : Nat) : List (Nat × Nat) := s.ds.units.filter fun u => u.1 == a

/-- Mirroring of an aperture resumes: RESYNC where it holds a written unit, else TANDEM, which raises source 236 (11 R260, Table 11-9). -/
def mirrorResumes (a : Nat) (s : State) : State :=
  if writtenUnits s a = [] then s.set (Fld.DS_APT_STATUS_MIRROR a) 1 |> raise 236 else s.set (Fld.DS_APT_STATUS_MIRROR a) 3

/-- An aperture is attached to a context (at a boundary): recorded in the map journal first (11 R268). A home context's mirrored
aperture comes under the generation of its pairing; one that is in SOLO starts in RESYNC with every written unit in the bitmap, a fresh one in TANDEM (14 R356); one whose pairing a
rejoin restored goes on as that left it (14 R362). -/
def aptAttach (a c : Nat) (s : State) : State :=
  let s := doIf (s.ds.soloDue.contains a) (enterSolo a) s
  let bits := writtenUnits s a
  s |>.set (Fld.DS_APT_STATUS_ATTACHED a) 1 |>.set (Fld.DS_APT_STATUS_CTX a) c
    |>.dsUpd (fun d => { d with journalAttached := d.journalAttached ++ [a] })
    |>.ctxUpd c (fun x => { x with apt := some a })
    |>.set (Fld.CTX_CAPS_APERTURE c) 1 |>.set (Fld.CTX_CAPS_MIRROR c) (decide (s.mirror a ≠ 0)).toNat
    |> doIf (s.mirror a != 0 && (s.partner c).isSome) (·.dsUpd fun d =>
        { d with gens := tabSet (fun _ => 0) d.gens a (s.get (Fld.PEL_GEN_GENERATION c)) })
    |> doIf (s.mirror a == 2 && (s.partner c).isSome) (fun s =>
        s.dsUpd (fun d => { d with bitmap := d.bitmap.filter (fun u => u.1 != a) ++ bits }) |> mirrorResumes a)
    |> updMirrorStatus |> updAptOcc a

/-- An aperture is detached (at a boundary): no pairing is in force for it any more, and a mirrored one enters SOLO at the next
boundary (11 R260, R261). A write to it may still wait for admission (05 Table 05-9). -/
def aptDetach (a : Nat) (s : State) : State :=
  match s.aptCtx a with
  | none => s
  | some c =>
    s |> soloNext [a]
      |>.set (Fld.DS_APT_STATUS_ATTACHED a) 0 |>.set (Fld.DS_APT_STATUS_CTX a) 0
      |>.dsUpd (fun d => { d with journalAttached := d.journalAttached.filter (· != a) })
      |>.ctxUpd c (fun x => { x with apt := none })
      |>.set (Fld.CTX_CAPS_APERTURE c) 0 |>.set (Fld.CTX_CAPS_MIRROR c) 0
      |> updMirrorStatus

/-- A write to the aperture waits for admission: a detach waits for it (11 Table 11-1). -/
def aptWaiting (s : State) (a : Nat) : Bool :=
  (s.ds.wait.any fun w => w.apt == a) ||
    (s.cad.items.any fun i => match i.work with
      | .staged _ _ b _ _ => b == a
      | .descDur _ _ b _ _ => b == a
      | _ => false)

end Sys2Proof.Machine
end

