-- ==== Sys2Proof/Machine/Media.lean ====
section
/-! DEFINITION. Machine/Media.lean: the media engine and the DRAM controller: stripes, reads, defects, lost LUNs,
reclaim, wear, DRAM errors (12 R278 to R301; 11 R270 to R274; 18 R439). Which blocks a stripe takes, which block is moved
where, and how a read decodes come with the command. -/
namespace Sys2Proof.Machine

/-- The media engine changed. -/
def State.medUpd (s : State) (f : Media → Media) : State := { s with med := f s.med }

/-- A block as State names it: LUN and block. -/
def nandPair (b : NandBlock) : Nat × Nat := (b.1.val, b.2.val)

/-! ## Encryption (11 R258, R259)

`Store.nand` and `Store.mem` hold what the engines decrypt; the cells hold what these definitions give (log 193). -/

/-- The key pair of an aperture: the one drawn when it was created; none once it is destroyed. -/
def State.aptKeyPair (s : State) (a : Nat) : Option (List Byte) :=
  let g := tabGet (fun _ => 0) s.ds.keys a
  if g = 0 then none else some (Config.aptKeyPair g)

/-- The key as NAND holds it. -/
def State.wrappedKey (s : State) (a : Nat) : Option (List Byte) := (s.aptKeyPair a).map Config.wrapKey

/-- The key cache of the crypto engine: the keys of the attached apertures, at most one of each of 1,024 contexts. No master reaches
it. -/
def State.keyCache (s : State) : List (Nat × List Byte) :=
  (List.range 2048).filterMap fun a => if (s.aptCtx a).isSome then (s.aptKeyPair a).map fun k => (a, k) else none

/-- The tweak of a map unit. -/
def unitTweak (u : Nat × Nat) : Nat := u.1 * 2 ^ 32 + u.2

/-- A flush encrypts a map unit: what the cells then hold. -/
def State.nandUnit (s : State) (u : Nat × Nat) : Option (List Byte) :=
  (s.aptKeyPair u.1).map fun k =>
    xtsEncrypt k (unitTweak u) ((List.range s.unitSize).map fun i => tabGet aptByteReset s.ds.nand ((unitKeys s u).1 + i))

/-- A NAND read decrypts what the cells of a map unit hold. -/
def State.nandPlain (s : State) (u : Nat × Nat) (cells : List Byte) : Option (List Byte) :=
  (s.aptKeyPair u.1).map fun k => xtsDecrypt k (unitTweak u) cells

/-- What DRAM holds of 64 bytes at a DRAM address, under the key pair made at the last reset. -/
def State.dramLine (s : State) (addr : Nat) (d : List Byte) : List Byte :=
  xtsEncrypt (Config.dramKeyPair s.ds.dramKey) (addr / 64) d

/-- What the inline decryption gives of them. -/
def State.dramPlain (s : State) (addr : Nat) (cells : List Byte) : List Byte :=
  xtsDecrypt (Config.dramKeyPair s.ds.dramKey) (addr / 64) cells

/-! ## Population (12 R279) -/

/-- Channel of a LUN. -/
def lunChannel (l : Nat) : Nat := l / 8

/-- The LUN is populated. -/
def State.lunThere (s : State) (l : Nat) : Bool :=
  bitOf (s.get (Fld.MED_NF_CFG_CE_MASK (l / 8))) (l / 2 % 4) &&
    (l % 2 == 0 || bitOf (s.get (Fld.MED_NF_CFG_LUN2_MASK (l / 8))) (l / 2 % 4))

/-- The LUN was declared lost. -/
def State.lunGone (s : State) (l : Nat) : Bool :=
  if l < 32 then bitOf (s.word Adr.MED_LUN_LOST_LO).toNat l else bitOf (s.word Adr.MED_LUN_LOST_HI).toNat (l - 32)

/-- The LUN is in use. -/
def State.lunOk (s : State) (l : Nat) : Bool := s.lunThere l && !s.lunGone l

/-- Size of a LUN of the population's class in units of 256 MiB (12 Table 12-1). -/
def lunUnits (s : State) : Nat :=
  match s.get (Fld.MED_NF_CFG_CLASS 0) with | 1 => 128 | 2 => 256 | 3 => 512 | _ => 0

/-- The rated P/E cycles of the population's class. -/
def ratedPe (s : State) : Nat := if s.get (Fld.MED_NF_CFG_CLASS 0) = 3 then 2000 else 3000

/-- Bytes that 15 data members of 4 planes hold. -/
def stripeBytes : Nat := 15 * 4 * 16384

/-- R281: `luns` LUNs of size `size` carry a logical capacity, both in 256 MiB units: after one loss 1.25 times it is
still there, with 3 % of the blocks and one page in 16 taken. -/
def carries (luns size cap : Nat) : Bool := decide (5 * cap * 1600 ≤ 4 * ((luns - 1) * size * 15 * 97))

/-- The worked figures of R281: 16 LUNs of class A carry 128 GiB and not 512 GiB; 16 of class B carry 512 GiB. -/
theorem carries_examples : carries 16 128 512 = true ∧ carries 16 128 2048 = false ∧ carries 16 256 2048 = true := by decide

/-! ## Blocks and page sets (12 R286, R299) -/

/-- Place of a block in the tables by block. -/
def blockKey (b : Nat × Nat) : Nat := b.1 * 65536 + b.2

/-- The block that a key of those tables names. -/
def blockAt (k : Nat) : Nat × Nat := (k / 65536, k % 65536)

/-- P/E count of a block. -/
def State.peOf (s : State) (b : Nat × Nat) : Nat := tabGet (fun _ => 0) s.med.pe (blockKey b)

/-- Page sets, the members of stripes, programmed on a block since its last erase: one is 4 planes of 16 KiB. -/
def State.fillOf (s : State) (b : Nat × Nat) : Nat := tabGet (fun _ => 0) s.med.fill (blockKey b)

/-- Page sets of a block: how many blocks a LUN has is what the engine finds (log 66). -/
def blockSets (s : State) : Nat := max 1 (lunUnits s * 4096 / max 1 s.med.blocks)

/-- Blocks with a programmed page. -/
def inUse (s : State) : List (Nat × Nat) := s.med.fill.map fun e => blockAt e.1

/-- Blocks in use, over which wear is counted (R288, R301): a retired block is never used again (R294), nor one of a lost LUN (R295). -/
def wearBlocks (s : State) : List (Nat × Nat) := (inUse s).filter fun b => s.lunOk b.1 && !s.med.retired.contains b

/-- A boot or staging block (12 R299). -/
def bootBlock (b : Nat × Nat) : Bool := decide (b.2 < 32) && [0, 8, 16, 24].contains b.1

/-- The store may place data in a block. -/
def blockFree (s : State) (b : Nat × Nat) : Bool :=
  s.lunOk b.1 && !bootBlock b && !s.med.retired.contains b && !s.med.erasing.contains b && decide (b.2 < s.med.blocks)

/-- A block that the store may use has room for another page set. -/
def blockRoom (s : State) (b : Nat × Nat) : Bool := blockFree s b && decide (s.fillOf b < blockSets s)

/-- A block of a LUN is partly programmed: it takes the next page sets of the LUN. -/
def lunOpen (s : State) (l : Nat) : Bool := (inUse s).any fun b => b.1 == l && blockRoom s b

/-- R288: among the free blocks of its LUN, a free block has the lowest P/E count. -/
def leastWorn (s : State) (b : Nat × Nat) : Bool :=
  (List.range s.med.blocks).all fun n => decide (s.peOf b ≤ s.peOf (b.1, n)) || !blockFree s (b.1, n) || s.fillOf (b.1, n) != 0

/-- R288: where a page set goes: the block that is partly programmed, or where its LUN has none a free block with the lowest count. -/
def nextBlock (s : State) (b : Nat × Nat) : Bool :=
  blockRoom s b && (s.fillOf b != 0 || (!lunOpen s b.1 && leastWorn s b))

/-! ## The free-block reserve and write amplification (12 R289 to R291) -/

/-- Page sets that one LUN holds, 3 % of its blocks taken; free blocks are counted in these (log 66). -/
def lunSets (s : State) : Nat := lunUnits s * 4096 * 97 / 100

/-- Free page sets on the healthy LUNs: those not programmed since their block's last erase. -/
def freeSets (s : State) : Nat :=
  s.get Fld.MED_STATUS_HEALTHY * lunSets s - ((s.med.fill.filter fun e => s.lunOk (blockAt e.1).1).map (·.2)).sum

/-- R290: the reserve: a PRESERVE of 256 MiB with its parity, 274 stripes of 16 members, and the rebuild of one LUN. -/
def reserveSets (s : State) : Nat := 274 * 16 + lunSets s

/-- `n` page sets may be programmed without entering the reserve. -/
def roomFor (s : State) (n : Nat) : Bool := decide (reserveSets s + n ≤ freeSets s)

/-- A stripe may be written without entering the reserve. -/
def roomOutside (s : State) : Bool := roomFor s 16

/-- R291: 100 times the bound of Table 12-5 for the store's over-provisioning; none below 25 %, which R281 rules out. -/
def waBound (s : State) : Option Nat :=
  let d := s.get Fld.MED_STATUS_POP * lunUnits s * 15 * 97
  let cap := s.get Fld.DS_CFG_CAP_UNITS * 16 * 100
  if 2 * cap ≤ d then some 115
  else if 7 * cap ≤ 4 * d then some 125
  else if 3 * cap ≤ 2 * d then some 150
  else if 5 * cap ≤ 4 * d then some 220
  else none

/-- Write amplification stays within its bound with `n` more unit places programmed, of which `new` take units flushed. -/
def waAllows (s : State) (n new : Nat) : Bool :=
  match waBound s with
  | some b => decide (100 * (s.med.progs + n) ≤ b * (s.med.flushed + new))
  | none => true

/-- 274 stripes are what 256 MiB take. -/
theorem reserve_figures : 256 * 2 ^ 20 ≤ 274 * stripeBytes ∧ 273 * stripeBytes < 256 * 2 ^ 20 := by decide

/-- Background operations run: the store is online, not in PRESERVE (12 R298) nor in Rest (17 R423), and firmware is not
restarting (18 R441). -/
def mediaIdle (s : State) : Bool :=
  s.get Fld.DS_CFG_STATE == 2 && s.mode != .preserve && !s.resting && !s.isSet Fld.DEV_FAULT_STATUS_RESTARTING

/-! ## Health (12 R288, R296, R301) -/

/-- LIFE and PE follow the blocks in use; MED_WEAR_WARN is raised when LIFE_PCT reaches WARN_PCT. -/
def updWear (s : State) : State :=
  let pes := (wearBlocks s).map s.peOf
  let avg := pes.sum / max 1 pes.length
  let pct := min 255 (100 * avg / ratedPe s)
  let was := s.get Fld.MED_LIFE_LIFE_PCT
  let warn := s.get Fld.MED_WEAR_CTL_WARN_PCT
  s |>.set Fld.MED_LIFE_PE_AVG avg |>.set Fld.MED_LIFE_LIFE_PCT pct
    |>.set Fld.MED_PE_PE_MAX (pes.foldl max 0) |>.set Fld.MED_PE_PE_MIN (pes.min?.getD 0)
    |> doIf (decide (was < warn ∧ warn ≤ pct)) (raise 243)

/-- MED_WA follows the units flushed and the unit places programmed since the last format. -/
def updWa (s : State) : State :=
  if s.med.flushed = 0 then s
  else s.set Fld.MED_WA_WA_X100 (min 65535 (100 * s.med.progs / s.med.flushed))

/-- STATE of a recovered store: WORN before EXPOSED before REBUILDING (R296, R301; log 68). -/
def updMedState (s : State) : State :=
  if s.get Fld.MED_STATUS_STATE = 0 then s
  else s.set Fld.MED_STATUS_STATE (if s.med.worn then 4 else if s.med.reb = 2 then 3 else if s.med.reb = 1 then 2 else 1)

/-- WORN ends once free blocks outside the reserve exist again (R301). -/
def unworn (s : State) : State := if s.med.worn ∧ roomOutside s then s.medUpd (fun m => { m with worn := false }) |> updMedState else s

/-- A block is erased: its P/E count steps, and all its page sets are free. -/
def eraseBlock (b : Nat × Nat) (s : State) : State :=
  s.medUpd fun m => { m with pe := tabSet (fun _ => 0) m.pe (blockKey b) (s.peOf b + 1), fill := tabSet (fun _ => 0) m.fill (blockKey b) 0,
                             erasing := m.erasing.filter (· != b), marked := m.marked.filter (· != b) }

/-- Blocks fully programmed that hold nothing any more: what a rewrite or an APT_ERASE left invalid (R301). -/
def deadBlocks (s : State) : List (Nat × Nat) :=
  (inUse s).filter fun b =>
    blockFree s b && decide (blockSets s ≤ s.fillOf b) && !s.med.stripes.any fun p => p.members.contains (some b)

/-- Ordered erases complete at a boundary, and those of blocks without data; one that PRESERVE or Rest aborted is done again after
recovery or the exit (R298, 17 R423). -/
def eraseStep (s : State) : State :=
  let l := s.med.erasing.filter (fun b => s.lunOk b.1 && !s.med.retired.contains b) ++ deadBlocks s
  if l = [] then s else s |> doAll l eraseBlock |> updWear |> unworn

/-- A block is retired (12 R294): SPARE_PCT falls to a value the spec does not compute (log 7); MED_SPARE_LOW where it
falls to SPARE_LOW_PCT; wear is counted without the block. -/
def retire (b : Nat × Nat) (s : State) : State :=
  if s.med.retired.contains b then s
  else
    let was := s.get Fld.MED_LIFE_SPARE_PCT
    let now_ := s.draw.toNat % (was + 1)
    let low := s.get Fld.MED_WEAR_CTL_SPARE_LOW_PCT
    s.medUpd (fun m => { m with retired := m.retired ++ [b], erasing := m.erasing.filter (· != b), spare := now_ })
      |>.drewOne
      |>.inc Fld.MED_WA_RETIRED 1
      |>.set Fld.MED_LIFE_SPARE_PCT now_
      |> doIf (decide (low < was ∧ now_ ≤ low)) (raise 244)
      |> updWear

/-- A source of a NAND channel (12 Table 12-6). -/
def nfRaise (l off : Nat) (s : State) : State := raise (168 + 8 * lunChannel l + off) s

/-! ## Stripes (12 R286, 11 R251) -/

/-- R286: members of a new stripe: blocks that `ok` holds of, each on a different LUN: 16, or as many as there are healthy LUNs (log
66). With no LUN lost they lie on all 8 channels, exactly two on each where there are 64 LUNs. -/
def membersOk (ok : State → Nat × Nat → Bool) (s : State) (ms : List (Nat × Nat)) : Bool :=
  let on (n : Nat) : Nat := (ms.filter fun b => lunChannel b.1 == n).length
  ms.length == min 16 (s.get Fld.MED_STATUS_HEALTHY) && decide (2 ≤ ms.length) && decide ((ms.map Prod.fst).Nodup) && ms.all (ok s) &&
    (s.get Fld.MED_STATUS_LOST != 0 ||
      (List.range 8).all fun n => if s.get Fld.MED_STATUS_POP = 64 then on n == 2 else decide (1 ≤ on n))

/-- R288: a member on a block not yet programmed takes the lowest count also among the LUNs that the stripe leaves out and that could
carry the member: those of its channel, and others where the stripe still has a member on that channel or a LUN is lost. -/
def lowestLuns (s : State) (ms : List (Nat × Nat)) : Bool :=
  let free := (List.range 64).filter fun l => s.lunOk l && !(ms.map Prod.fst).contains l
  ms.all fun b => s.fillOf b != 0 || free.all fun l =>
    (lunChannel l != lunChannel b.1 && s.get Fld.MED_STATUS_LOST == 0 &&
      (s.get Fld.MED_STATUS_POP == 64 || !ms.any fun x => x != b && lunChannel x.1 == lunChannel b.1)) ||
      (List.range s.med.blocks).all fun n => decide (s.peOf b ≤ s.peOf (l, n)) || !blockFree s (l, n) || s.fillOf (l, n) != 0

/-- R286, R288: a new stripe takes these members: those next in their LUNs, on the LUNs with the lowest counts. -/
def nextStripe (s : State) (ms : List (Nat × Nat)) : Bool := membersOk nextBlock s ms && lowestLuns s ms

/-- Unit places of a stripe with these members. -/
def placesOf (s : State) (ms : List (Nat × Nat)) : Nat := (ms.length - 1) * (65536 / s.unitSize)

/-- Units in the places of the data members, in order: each member holds as many as 64 KiB take, and the parity member none. -/
def placeUnits (per parity : Nat) (us : List (Nat × Nat)) : List (Nat × (Nat × Nat)) :=
  us.zipIdx.map fun u => (if u.2 / per < parity then u.2 / per else u.2 / per + 1, u.1)

/-- A stripe is programmed: the parity position rotates from one to the next (R286). -/
def addStripe (closed : Bool) (ms us : List (Nat × Nat)) (s : State) : State :=
  let parity := s.med.count % ms.length
  let p : Stripe := { members := ms.map some, parity := parity, units := placeUnits (65536 / s.unitSize) parity us, closed := closed }
  s.medUpd fun m => { m with stripes := m.stripes ++ [p], count := m.count + 1,
                             fill := ms.foldl (fun t b => tabSet (fun _ => 0) t (blockKey b) (tabGet (fun _ => 0) t (blockKey b) + 1)) m.fill }

/-- Dirty units not yet on their way to NAND, oldest first. -/
def toFlush (s : State) : List (Nat × Nat) := s.ds.dirty.filter fun u => !s.ds.flushing.contains u

/-- R286: a stripe may be written: members on the blocks that are next, and units that are dirty. A flush that would enter the reserve
waits (R290), and one of a stripe filled in part while write amplification would exceed its bound (R291); in PRESERVE, for which the
reserve is held, neither does, and the oldest unit goes first (11 Table 11-6). -/
def mayStripe (s : State) (ms us : List (Nat × Nat)) : Bool :=
  let n := placesOf s ms
  s.ds.recovered && nextStripe s ms &&
    decide (us ≠ []) && decide us.Nodup && us.all ((toFlush s).contains ·) && decide (us.length ≤ n) &&
    (if s.mode = .preserve then us == (toFlush s).take us.length
      else roomOutside s && (us.length == n || waAllows s n us.length))

/-- What a stripe of the flush adds to MED_WA: its units flushed, and all its places programmed; in PRESERVE the padding of its last
stripe is not counted (DESIGN CHOICE, log 224). -/
def countFlush (places units : Nat) (s : State) : State :=
  s.medUpd (fun m => { m with flushed := m.flushed + units, progs := m.progs + if s.mode = .preserve then units else places }) |> updWa

/-- R286: the units are on their way to a new stripe. -/
def execStripeWrite (members : List NandBlock) (units : List (Fin 2048 × BitVec 32)) (s : State) : Result :=
  let ms := members.map nandPair
  let us := units.map fun u => (u.1.val, u.2.toNat)
  done (if mayStripe s ms us then
      s |> addStripe false ms us |>.dsUpd (fun d => { d with flushing := d.flushing ++ us }) |> countFlush (placesOf s ms) us.length |> updWear
    else s)

/-- The stripe on which a unit is on its way. -/
def flightOf (s : State) (u : Nat × Nat) : Option Stripe := s.med.stripes.find? fun p => !p.closed && p.units.any fun x => x.2 == u

/-- The parity member of a stripe is confirmed, and with it each of its units: they are clean, the map names the new stripe for them,
and an earlier one holds them no more (R285, R286, R287; 11 R251). -/
def closeStripe (p : Stripe) (s : State) : State :=
  let us := p.units.map (·.2)
  s |> offStripes us.contains
    |>.dsUpd (fun d => { d with dirty := d.dirty.filter (fun u => !us.contains u), flushing := d.flushing.filter (fun u => !us.contains u),
                                clean := d.clean ++ us, bad := d.bad.filter (fun u => !us.contains u),
                                nand := us.foldl (fun t u => copyBytes d.mem t (unitKeys s u).1 (unitKeys s u).2) d.nand,
                                presDirty := d.presDirty.filter (fun u => !us.contains u),
                                presFlushed := if s.mode = .preserve then d.presFlushed + us.length else d.presFlushed })
    |>.medUpd (fun m => { m with stripes := m.stripes.map fun x => if x == p then { p with closed := true } else x })
    |> doAll ((us.map Prod.fst).eraseDups) updDirty

/-- R251, R286: the flush of a unit that has not been written since is confirmed, with the stripe it is on. -/
def execUnitFlushComplete (a : Fin 2048) (u : BitVec 32) (s : State) : Result :=
  done (match flightOf s (a.val, u.toNat) with | some p => closeStripe p s | none => s)

/-! ## Reads (12 R283, R284) -/

/-- The codeword of a unit on a block was uncorrectable: a host read of it is poisoned, unless the cache holds it. -/
def uncorrectable (b u : Nat × Nat) (s : State) : State :=
  s |>.inc (Fld.MED_RETRY_HIST_UNCORR) 1 |>.inc (Fld.MED_NF_CNT_UNCORR (lunChannel b.1)) 1 |> nfRaise b.1 4
    |> doIf (!s.ds.dirty.contains u && !s.ds.clean.contains u && !s.ds.bad.contains u) (fun s =>
        s.dsUpd fun d => { d with bad := d.bad ++ [u] })

/-- The units of a stripe on a block. -/
def Stripe.unitsOn (p : Stripe) (b : Nat × Nat) : List (Nat × Nat) := (p.units.filter fun u => p.members[u.1]? == some (some b)).map (·.2)

/-- The closed stripes. -/
def closedStripes (s : State) : List Stripe := s.med.stripes.filter (·.closed)

/-- A read that a ladder step of Table 12-4 decoded is counted, and from step 8 on raises NF_RETRY_SOFT (R283, R302). -/
def mediaStep (l n : Nat) (s : State) : State :=
  s |> (fun s =>
      if n = 10 then s.inc Fld.MED_RETRY_HIST_RECON 1
      else if 8 ≤ n then s.inc Fld.MED_RETRY_HIST_SOFT 1
      else if 1 ≤ n then s.inc Fld.MED_RETRY_HIST_HARD_RETRY 1
      else s)
    |> doIf (decide (8 ≤ n)) (nfRaise l 3)

/-- R283, R284: a codeword of unit (a, u) is read from block `b`, on which a stripe holds it; `step` is the ladder step that
decodes it, none where step 10 fails. On a lost LUN the read goes straight to step 10. -/
def execNandRead (b : NandBlock) (a : Fin 2048) (u : BitVec 32) (step : Option (Fin 11)) (s : State) : Result :=
  let x := (nandPair b)
  let st : Option Nat := if s.lunGone x.1 then step.map (fun _ => 10) else step.map (·.val)
  done (if (closedStripes s).any fun p => (p.unitsOn x).contains (a.val, u.toNat) then
      s |> (match st with
          | none => fun s => s |> uncorrectable x (a.val, u.toNat) |> nfRaise x.1 3
          | some n => mediaStep x.1 n)
        |> doIf (decide (4 ≤ st.getD 10) && !s.med.marked.contains x) (·.medUpd fun m => { m with marked := m.marked ++ [x] })
    else s)

/-! ## Defects (12 R294) -/

/-- A member of a stripe is missing. -/
def Stripe.without (b : Nat × Nat) (p : Stripe) : Stripe := { p with members := p.members.map fun x => if x = some b then none else x }

/-- A member of a stripe being written is missing, because its program failed. -/
def Stripe.failsOn (b : Nat × Nat) (p : Stripe) : Stripe :=
  if p.closed ∨ ¬ p.members.contains (some b) then p else { p.without b with failed := p.failed + 1 }

/-- Programs on a block, or a LUN, have failed: units that were being written there are simply dirty again; in PRESERVE the stripes
are closed on their parity (R294, R298). -/
def flightsFail (at_ : Nat × Nat → Bool) (s : State) : State :=
  if s.mode = .preserve then s
  else
    let us := (s.med.stripes.filter fun p => !p.closed && p.members.any fun b => b.any at_).flatMap fun p => p.units.map (·.2)
    dropFlights us.contains s

/-- R294: a program status fail: the block is retired. In PRESERVE the member stays missing from the stripe being written (R298). A
block that holds data of closed stripes is moved at the next refresh. -/
def execNandProgramFail (b : NandBlock) (s : State) : Result :=
  let x := (nandPair b)
  done (if s.lunOk x.1 then
      s |>.inc (Fld.MED_NF_CNT_PROG_FAIL (lunChannel x.1)) 1 |> nfRaise x.1 1 |> retire x |> flightsFail (· == x)
        |>.medUpd (fun m => { m with stripes := m.stripes.map (·.failsOn x) })
        |> doIf ((closedStripes s).any (fun p => p.members.contains (some x)) && !s.med.marked.contains x)
            (·.medUpd fun m => { m with marked := m.marked ++ [x] })
    else s)

/-- R294: an erase status fail. -/
def execNandEraseFail (b : NandBlock) (s : State) : Result :=
  let x := (nandPair b)
  done (if s.lunOk x.1 then s |>.inc (Fld.MED_NF_CNT_ERASE_FAIL (lunChannel x.1)) 1 |> nfRaise x.1 2 |> retire x else s)

/-! ## Relocation (12 R285, R286) -/

/-- Units go into new stripes, `dests` naming the members of each; true where none is left over, no stripe is empty and every
stripe will do. -/
def openStripes (ok : State → List (Nat × Nat) → Bool) : List (List (Nat × Nat)) → List (Nat × Nat) → State → State × Bool
  | [], us, s => (s, us.isEmpty)
  | ms :: rest, us, s =>
    if us.isEmpty || !ok s ms then (s, false)
    else openStripes ok rest (us.drop (placesOf s ms)) (addStripe true ms (us.take (placesOf s ms)) s)

/-- Data to move off a block of a stripe before it is erased: the units on it, or where it holds the parity all of the stripe's, which
nothing would protect any more (log 66). -/
def Stripe.toMove (p : Stripe) (b : Nat × Nat) : List (Nat × Nat) :=
  if p.members[p.parity]? == some (some b) then p.units.map (·.2) else p.unitsOn b

/-- Data to move off a block. -/
def movesOff (s : State) (b : Nat × Nat) : List (Nat × Nat) := (closedStripes s).flatMap (·.toMove b)

/-- Valid units on a block. -/
def validIn (s : State) (b : Nat × Nat) : Nat := ((closedStripes s).flatMap (·.unitsOn b)).length

/-- Units go from where they are into new stripes; nothing happens where those will not do. -/
def relocateUnits (ok : State → List (Nat × Nat) → Bool) (dests : List (List (Nat × Nat))) (us : List (Nat × Nat)) (s : State) : State × Bool :=
  match openStripes ok dests us (offStripes us.contains s) with
  | (t, true) => (updWear t, true)
  | (_, false) => (s, false)

/-- Unit places that moving a block's data programs. -/
def moveCost (s : State) (dests : List (List (Nat × Nat))) : Nat := (dests.map (placesOf s)).sum

/-- A block's valid data is in new stripes and its erase is ordered (R285, R293); true where this could be. The programs count in
MED_WA, and nothing as flushed (R289). -/
def moveBlock (ok : State → List (Nat × Nat) → Bool) (v : Nat × Nat) (dests : List (List (Nat × Nat))) (s : State) : State × Bool :=
  match relocateUnits (fun s ms => !ms.contains v && ok s ms) dests (movesOff s v) s with
  | (t, true) =>
    (updWa <| t.medUpd fun m => { m with progs := m.progs + moveCost s dests, erasing := m.erasing ++ [v], marked := m.marked.filter (· != v), stripes := m.stripes.map (·.without v) },
      true)
  | (t, false) => (t, false)

/-! ## Lost LUNs (12 R295 to R297) -/

/-- Units become LOST (11 R269): counted, logged, source 237; NAND holds nothing of them. -/
def loseUnits (us : List (Nat × Nat)) (s : State) : State :=
  if us = [] then s
  else
    s |> offStripes us.contains
      |>.dsUpd (fun d => { d with lost := d.lost ++ us.filter (fun u => !d.lost.contains u),
                                  bad := d.bad.filter fun u => !us.contains u })
      |> doAll ((us.map Prod.fst).eraseDups) (fun a s =>
          logEv 0x0032 (leBytes 2 a ++ leBytes 2 0 ++ leBytes 4 (us.filter fun u => u.1 == a).length) s |> updAptOcc a)
      |> raise 237

/-- A member of a stripe is on a lost LUN. -/
def memberGone (s : State) (b : Option (Nat × Nat)) : Bool := b.any fun x => s.lunGone x.1

/-- A stripe holds a member on a lost LUN. -/
def Stripe.hurt (s : State) (p : Stripe) : Bool := p.members.any (memberGone s)

/-- Members of a stripe that do not read: on a lost LUN, or missing because their program failed in PRESERVE (R298). -/
def Stripe.lostMembers (s : State) (p : Stripe) : Nat := (p.members.filter (memberGone s)).length + p.failed

/-- Units whose only copy lies on a stripe of which two members are lost. -/
def unrecoverable (s : State) : List (Nat × Nat) :=
  ((closedStripes s).filter fun p => decide (2 ≤ p.lostMembers s)).flatMap fun p =>
    (p.units.map (·.2)).filter fun u => !s.ds.dirty.contains u && !s.ds.lost.contains u

/-- A rebuild starts, or none can where the remaining LUNs do not meet R281; STATE and source 242 tell (R296). -/
def rebuildStarts (l : Nat) (s : State) : State :=
  let was := s.med.reb
  let reb := if was = 2 ∨ ¬ carries (s.get Fld.MED_STATUS_HEALTHY) (lunUnits s) (s.get Fld.DS_CFG_CAP_UNITS) then 2 else 1
  s.medUpd (fun m => { m with reb := reb })
    |>.set Fld.MED_REBUILD_STATUS_ACTIVE (decide (reb = 1)).toNat
    |> doIf (reb == 1) (fun s => s |>.set Fld.MED_REBUILD_STATUS_LUN l |>.set Fld.MED_REBUILD_STATUS_PERMILLE 0)
    |> doIf (reb == 2 && was != 2) (raise 242)
    |> updMedState

/-- A LUN is declared lost with a cause of Table 18-12 (1 to 5). A second one before the first is rebuilt loses the units of stripes on
both; during the flush of PRESERVE they are found LOST at recovery (R295 to R298). -/
def lunLost (l cause : Nat) (s : State) : State :=
  if ¬ s.lunOk l then s
  else
    let second := s.med.reb != 0
    let a := if l < 32 then Adr.MED_LUN_LOST_LO else Adr.MED_LUN_LOST_HI
    let s := s.setWord a (BitVec.ofNat 32 (orBit (s.word a).toNat (l % 32)))
      |>.inc Fld.MED_STATUS_LOST 1 |>.dec Fld.MED_STATUS_HEALTHY 1
      |> doIf (cause == 1) (fun s => s.inc (Fld.MED_NF_CNT_RB_TMO (lunChannel l)) 1 |> nfRaise l 0)
      |> nfRaise l 5 |> raise 240 |> logEv 0x0030 (leBytes 1 l ++ leBytes 1 cause) |> updFlushRate
      |> flightsFail (fun b => b.1 == l) |> updWear
    let s := if second then s |> doIf (s.mode != .preserve) (loseUnits (unrecoverable s)) |> reportDegraded else reportCie s
    rebuildStarts l s

/-- R295 to R297: a LUN is declared lost; `cause` 0 to 4 is cause 1 to 5 of Table 18-12. -/
def execLunLost (lun : Fin 64) (cause : Fin 5) (s : State) : Result := done (lunLost lun (cause + 1) s)

/-- The members of new stripes as a command names them. -/
def destPairs (dest : List (List NandBlock)) : List (List (Nat × Nat)) := dest.map fun ms => ms.map nandPair

/-- The data of every stripe with a member on a lost LUN is in new stripes (R296), for which the reserve is held (R290). The programs
are those of a fault, and MED_WA does not count them (R289; DESIGN CHOICE, log 224). -/
def rebuildInto (dests : List (List (Nat × Nat))) (s : State) : State × Bool :=
  relocateUnits nextStripe dests (((closedStripes s).filter (Stripe.hurt s)).flatMap fun p => p.units.map (·.2)) s

/-- R296: the rebuild is complete: the units of every stripe with a member on a lost LUN are in the stripes `dest`. -/
def execRebuildComplete (dest : List (List NandBlock)) (s : State) : Result :=
  let n := ((closedStripes s).filter (Stripe.hurt s)).length
  done (if s.med.reb = 1 ∧ mediaIdle s then
      match rebuildInto (destPairs dest) s with
      | (t, true) =>
        t.medUpd (fun m => { m with reb := 0 })
          |>.set Fld.MED_REBUILD_STATUS_ACTIVE 0 |>.set Fld.MED_REBUILD_STATUS_PERMILLE 1000
          |> logEv 0x0031 (leBytes 4 (s.get Fld.MED_REBUILD_STATUS_LUN) ++ leBytes 4 n)
          |> updMedState |> raise 241
      | (t, false) => t
    else s)

/-! ## Patrol and reclaim (12 R287 to R293) -/

/-- R293: a patrol pass ends; `read` are blocks with the ladder step that their worst read needed, which counts as any read: those at
REFRESH_STEP or above are marked. -/
def execPatrolPass (read : List (NandBlock × Fin 11)) (s : State) : Result :=
  let ms := ((read.filter fun x => decide (s.get Fld.MED_PATROL_CTL_REFRESH_STEP ≤ x.2.val)).map fun x => nandPair x.1).filter fun b =>
    (inUse s).contains b && !s.med.marked.contains b
  done (if mediaIdle s then
      s |> doAll (read.filter fun x => (inUse s).contains (nandPair x.1)) (fun x => mediaStep x.1.1 x.2)
        |>.medUpd (fun m => { m with marked := m.marked ++ ms }) |>.inc Fld.MED_PATROL_STATUS_PASSES 1 |> raise 246
    else s)

/-- A block's valid data may move: its LUN is in use, its erase is not ordered, and no program on it is under way. -/
def mayMove (s : State) (v : Nat × Nat) : Bool :=
  mediaIdle s && (inUse s).contains v && s.lunOk v.1 && !s.med.erasing.contains v &&
    !s.med.stripes.any fun p => !p.closed && p.members.contains (some v)

/-- R290, R291: data may move into these stripes: outside the reserve, and within the bound of write amplification. -/
def moveAllowed (s : State) (dests : List (List (Nat × Nat))) : Bool :=
  roomFor s (dests.map List.length).sum && waAllows s (moveCost s dests) 0

/-- R293: a marked block is refreshed, outside the reserve of R290 and within the bound of R291; where its reads, `after` it, still need
REFRESH_STEP or more it is retired (R294). -/
def execBlockRefresh (victim : NandBlock) (dest : List (List NandBlock)) (after : Fin 11) (s : State) : Result :=
  let v := nandPair victim
  done (if s.med.marked.contains v ∧ mayMove s v ∧ moveAllowed s (destPairs dest) then
      match moveBlock nextStripe v (destPairs dest) s with
      | (t, true) => t.inc Fld.MED_REFRESH_CNT_BLOCKS 1 |> mediaStep v.1 after |> doIf (decide (s.get Fld.MED_PATROL_CTL_REFRESH_STEP ≤ after.val)) (retire v)
      | (t, false) => t
    else s)

/-- R288 to R291: blocks that reclaim may take: full, in use, not retired. -/
def reclaimable (s : State) (b : Nat × Nat) : Bool :=
  mayMove s b && !s.med.retired.contains b && decide (blockSets s ≤ s.fillOf b)

/-- R289 to R291: reclaim of a block may run: free blocks remain above the reserve, so that a flush can be served, and write
amplification stays within its bound. -/
def mayReclaim (s : State) (v : Nat × Nat) (dests : List (List (Nat × Nat))) : Bool :=
  reclaimable s v && moveAllowed s dests

/-- R289: garbage collection moves a block with the least valid data. -/
def execGarbageCollection (victim : NandBlock) (dest : List (List NandBlock)) (s : State) : Result :=
  let v := nandPair victim
  done (if mayReclaim s v (destPairs dest) ∧ ((inUse s).filter (reclaimable s)).all (fun b => decide (validIn s v ≤ validIn s b)) then
      (moveBlock nextStripe v (destPairs dest) s).1
    else s)

/-- R288: a block more worn than another has room. -/
def wornThan (n : Nat) (s : State) (b : Nat × Nat) : Bool := blockRoom s b && decide (n < s.peOf b)

/-- R288: the P/E spread exceeds SPREAD: the data of a least-worn block moves onto worn ones, within the budget of garbage
collection. -/
def execWearLevelling (victim : NandBlock) (dest : List (List NandBlock)) (s : State) : Result :=
  let v := nandPair victim
  done (if mayReclaim s v (destPairs dest) ∧ s.get Fld.MED_WEAR_CTL_SPREAD < s.get Fld.MED_PE_PE_MAX - s.get Fld.MED_PE_PE_MIN ∧
      s.peOf v = s.get Fld.MED_PE_PE_MIN then
      (moveBlock (membersOk (wornThan (s.peOf v))) v (destPairs dest) s).1
    else s)

/-- R301: the free blocks outside the reserve are exhausted. -/
def execMediaWorn (s : State) : Result :=
  done (if s.get Fld.MED_STATUS_STATE = 0 ∨ s.med.worn ∨ roomOutside s then s
    else s.medUpd (fun m => { m with worn := true }) |> updMedState |> raise 245)

/-! ## DRAM (11 R271 to R274; 18 R435, R439) -/

/-- DRC_ECC_LOG records an error. -/
def eccLog (unc : Bool) (ch rank dev line : Nat) (s : State) : State :=
  s |>.set Fld.DRC_ECC_LOG_VALID 1 |>.set Fld.DRC_ECC_LOG_UNCORR unc.toNat |>.set Fld.DRC_ECC_LOG_CH ch
    |>.set Fld.DRC_ECC_LOG_RANK rank |>.set Fld.DRC_ECC_LOG_DEV dev |>.set Fld.DRC_ECC_ADDR_LINE line
    |>.set Fld.DRC_ECC_TS_STROKE_LO s.nowLo

/-- The field that names the failed device of a channel. -/
def failDev (ch : Nat) : Field := if ch = 0 then Fld.DRC_STATUS_FAIL_DEV0 else Fld.DRC_STATUS_FAIL_DEV1

/-- A device is marked failed (11 R272): the second in one channel is a fault stop (18 Table 18-2). -/
def markDevice (ch rank dev : Nat) (s : State) : State :=
  let second := s.ds.failed.any fun f => f.1 == ch
  s.dsUpd (fun d => { d with failed := d.failed ++ [(ch, rank, dev)] })
    |>.set (failDev ch) dev |> raise (156 + ch) |> logEv 0x0020 (leBytes 1 ch ++ leBytes 1 rank ++ leBytes 1 dev)
    |> (if second then faultStop 2 else reportCie)

/-- R272: a corrected error of one device; THRESH of them within 2^20 strokes mark it failed. -/
def execDramCorrectedError (ch rank : Fin 2) (dev : Fin 10) (line : BitVec 30) (s : State) : Result :=
  let s := s.inc (Fld.DRC_ECC_CNT_CORR ch) 1 |> eccLog false ch rank dev line.toNat |> raise (152 + ch)
    |> fun s => s.dsUpd fun d => { d with errs := (ch.val, rank.val, dev.val, s.now) :: d.errs.filter fun e => decide (s.since e.2.2.2 < 2 ^ 20) }
  let n := (s.ds.errs.filter fun e => e.1 == ch.val && e.2.1 == rank.val && e.2.2.1 == dev.val).length
  done (if s.get Fld.DRC_FAIL_CTL_THRESH ≤ n ∧ (ch.val, rank.val, dev.val) ∉ s.ds.failed then markDevice ch rank dev s else s)

/-- The region code of a log entry 0x0021 (18 Table 18-12). -/
def dramRegion : DramHit → Nat
  | .clean _ _ => 0 | .dirty _ _ => 1 | .map => 2 | .journal _ => 3 | .bitmap _ _ _ => 4 | .context => 5 | .keyCache => 6

/-- A line of firmware data is repaired (18 R439). -/
def fwRepair (s : State) : State := s.inc Fld.DEV_FAULT_CNT_DRAM_FW_REPAIR 1 |> reportCie

/-- An uncorrectable DRAM error has its effect by where it falls (11 R273, 18 Table 18-5). An aperture in TANDEM that has units to
resync shows RESYNC (DESIGN CHOICE, log 236). -/
def dramHit (h : DramHit) (s : State) : State :=
  match h with
  | .clean a u => s.dsUpd (fun d => { d with clean := d.clean.filter (· != (a.val, u.toNat)) }) |> updDirty a
  | .dirty a u =>
    let x : Nat × Nat := (a.val, u.toNat)
    if s.ds.dirty.contains x then
      s.dsUpd (fun d => { d with dirty := d.dirty.filter (· != x), flushing := d.flushing.filter (· != x) })
        |> loseUnits [x] |> updDirty a |> reportUie
    else s
  | .map => s
  | .journal both => if both then faultStop 6 s else fwRepair s
  | .bitmap a us both =>
    (if both then
      s.dsUpd (fun d => { d with bitmap := d.bitmap ++ (us.map fun u => (a.val, u.toNat)).filter fun u => !d.bitmap.contains u })
        |> doIf (s.mirror a == 1 && !us.isEmpty) (fun s => s.set (Fld.DS_APT_STATUS_MIRROR a) 3 |> updMirrorStatus)
        |> updAptOcc a
    else s) |> fwRepair
  | .context => fwRepair s
  | .keyCache => fwRepair s

/-- An uncorrectable DRAM error is counted, logged and has its effect. -/
def dramUncorrectable (ch rank line : Nat) (hit : DramHit) (s : State) : State :=
  s.inc (Fld.DRC_ECC_CNT_UNCORR ch) 1 |> eccLog true ch rank 15 line |> raise (154 + ch)
    |> logEv 0x0021 (leBytes 1 ch ++ leBytes 1 (dramRegion hit) ++ leBytes 2 0 ++ leBytes 4 line) |> dramHit hit

/-- R273, R439: an uncorrectable DRAM error. -/
def execDramUncorrectableError (ch rank : Fin 2) (line : BitVec 30) (hit : DramHit) (s : State) : Result :=
  done (dramUncorrectable ch rank line.toNat hit s)

/-- R274: a scrub pass ends. -/
def execDramScrubPass (s : State) : Result := done (s.inc Fld.DRC_SCRUB_PASSES 1 |> raise 161)

/-- R271: an alert is retried. -/
def execDramAlert (ch : Fin 2) (s : State) : Result := done (s.inc (Fld.DRC_ECC_CNT_ALERT ch) 1 |> raise (158 + ch))

end Sys2Proof.Machine
end

