-- ==== Sys2Proof/Machine/Descriptors.lean ====
section
/-! DEFINITION. Machine/Descriptors.lean: what a spoke engine does for each opcode of a dealt descriptor (06 R134, Table
06-3), and the write fence of a context (06 R147). One command moves a descriptor as far as it can go now: it asks for
source bytes and hands destination bytes to the cadence; slots, packets and answers come with their own commands. -/
namespace Sys2Proof.Machine

/-! ## The descriptor an engine works on -/

/-- The dealt descriptor of a submission slot with an opcode, still running. -/
def working (s : State) (c q slot op : Nat) : Option (Desc × Raw) :=
  if s.mode = .preserve then none
  else
    (s.qp c q).descs.findSome? fun d =>
      match d.raw with
      | some r => if d.slot = slot ∧ d.engine.isSome ∧ r.opcode = op ∧ d.fail.isNone ∧ ¬ d.ended then some (d, r) else none
      | none => none

/-- The running descriptor of a key, with its 64 bytes. -/
def runningRaw (s : State) (k : DKey) : Option (Desc × Raw) :=
  match s.desc? k with
  | some d => (match d.raw with | some r => if d.fail.isNone then some (d, r) else none | none => none)
  | none => none

/-- A page of a host range turns out to lack permission after the descriptor was dealt, before any byte moves: the side is
refused as R133 states. -/
def hostDenied (k : DKey) (dst : Bool) (s : State) : State :=
  match runningRaw s k with
  | none => s
  | some (_, r) =>
    s |> refuseDesc k.c k.q dst 3 0 0 (if dst then r.dst else r.src) (if dst then r.dstLen else r.srcLen)
      |> descFail k stDenied (sideDetail dst 1)

/-- Every host page of a descriptor was found to permit its access; without ATS there is nothing to find (06 R133). -/
def pagesChecked (s : State) (k : DKey) : Bool :=
  match runningRaw s k with
  | some (d, r) => (pagesLeft d.spages r.src (hostSpan r false)).isEmpty && (pagesLeft d.dpages r.dst (hostSpan r true)).isEmpty
  | none => false

/-- The host pages of one side of a descriptor are looked up: kept, asked for, or refused (06 R133, 04 R86). -/
def checkSide (k : DKey) (dst : Bool) (s : State) : State :=
  match runningRaw s k with
  | none => s
  | some (d, r) =>
    match findPages (.desc k dst) k.c (if dst then d.dpages else d.spages) (if dst then r.dst else r.src) (hostSpan r dst)
        (dst || r.opcode == 5) s with
    | (s, _, .denied) => hostDenied k dst s
    | (s, kept, _) => s.descUpd k fun d => if dst then { d with dpages := kept } else { d with spages := kept }

/-- The pages that a descriptor has yet to check are looked up, the source before the destination. -/
def checkPages (k : DKey) (s : State) : State := if pagesChecked s k then s else s |> checkSide k false |> checkSide k true

/-- `f` done for the dealt descriptor once its host pages are checked, nothing where there is none. -/
def onDesc (c q slot op : Nat) (f : DKey → State → State) (s : State) : Result :=
  done (match working s c q slot op with
    | some (d, _) =>
      let s := checkPages (keyOf c q d) s
      if pagesChecked s (keyOf c q d) then f (keyOf c q d) s else s
    | none => s)

/-! ## Reading a source -/

/-- Bytes a descriptor may have read ahead of what it has written. -/
def readAhead : Nat := 16384

/-- Bytes of a source of `n` bytes are asked for, or are there. -/
def asked (k : DKey) (n : Nat) (s : State) : State :=
  s.descUpd k fun d => { d with rnext := d.rnext + n, rpend := d.rpend + n }

/-- Bytes of a source are there at once. -/
def gotNow (k : DKey) (off : Nat) (data : List Byte) (s : State) : State :=
  s.descUpd k fun d => { d with rnext := d.rnext + data.length, got := d.got ++ [(off, data)] }

/-- The next piece of a host source is read, at the translation kept from the check (04 R82, R83, R86, R472; 09 R217). -/
def readHost (k : DKey) (kept : Pages) (addr off len : Nat) (s : State) : State :=
  if ¬ s.hostOpen k.c then s
  else if ¬ tagFree s k.c then tagWaits s
  else
    let n := pieceLen addr len (s.fn k.c).mrrs
    s |> atsUse k.c (BitVec.ofNat 64 addr)
      |> hostReadOut k.c (.desc k off n) (keptAddr kept addr) n ((s.fn k.c).ens && s.isSet (Fld.QP_CFG_NOSNOOP k.c k.q)) |> asked k n

/-- The length of the next packet of a request of `total` bytes to a local address, `left` of them to come (08 R199). -/
def localPiece (la left total : Nat) : Nat := if total ≤ 256 then left else pieceLen la left 256

/-- The next piece of a local source is asked of the agent: one item of one slot (07 Table 07-2). -/
def readLocal (k : DKey) (w : WinMap) (win cls at_ off len total : Nat) (s : State) : State :=
  let la := w.laddr + at_
  let n := localPiece la len total
  let e : Egr := { pkt := { op := 0, cls := cls, len := n, addr := la, ctx := k.c, win := win }, src := some (.desc k off n),
                   tmo := w.tmo }
  if s.lbActive w.port then s |> asked k n |> addItem false k.c cls w.port 0 false (.descLocal w.port e)
  else descFail k stNoTarget (sideDetail false 0) s

/-- The next piece of an aperture source: poisoned data ends the descriptor with MEDIA_ERROR (11 R249); a store that is no
longer online has no target (03 R66). -/
def readDurable (k : DKey) (a at_ off len : Nat) (s : State) : State :=
  let n := pieceLen at_ len 4096
  if s.get Fld.DS_CFG_STATE ≠ 2 then descFail k stNoTarget (sideDetail false 0) s
  else match badAt s a at_ n with
  | some u => descFail k stMedia u s
  | none => s |> lookupAll a at_ n |> gotNow k off (aptBytes s a at_ n)

/-- The link and the place that serve a global context now (14 R347, R348). -/
def peerPlace (s : State) (g : Nat) : Option (Nat × Nat × Nat) :=
  match s.located g with
  | none => none
  | some (m, lc) => (s.routeFor m lc).map fun l => (l, m, lc)

/-- A message of a descriptor waits for slots toward its link; without a route the member is absent (14 R349). -/
def askPeer (k : DKey) (dst : Bool) (g cls bytes off len : Nat) (m : UMsg) (f : State → State) (s : State) : State :=
  match peerPlace s g with
  | none => descFail k stNoTarget (sideDetail dst 0) s
  | some (l, mem, lc) =>
    f s |> addItem false k.c cls (4 + l) bytes false (.descPeer k off len { m with cls := cls, dst := mem, src := s.gctx k.c, ctx := lc })

/-- The next piece of a peer source (13 R322): a READ of at most 256 bytes. -/
def readPeer (k : DKey) (r : Raw) (off len : Nat) (s : State) : State :=
  let n := min len 256
  askPeer k false (peerGctx r.src) r.cls 0 off n
    { mtype := 2, win := r.srcWin, off := peerOff r.src + off, data := leBytes 2 n } (asked k n) s

/-- The next source piece of a descriptor that reads `r.length` bytes. -/
def readStep (k : DKey) (s : State) : State :=
  match runningRaw s k with
  | none => s
  | some (d, r) =>
    let left := r.length - d.rnext
    if left = 0 ∨ d.wnext + readAhead ≤ d.rnext then s
    else
      match r.srcKind with
      | 0 => readHost k d.spages (r.src + d.rnext) d.rnext left s
      | 1 => readLocal k d.swin r.srcWin r.cls (r.src + d.rnext) d.rnext left r.length s
      | 2 => readDurable k d.apt (r.src + d.rnext) d.rnext left s
      | 3 => readPeer k r d.rnext left s
      | _ => gotNow k d.rnext (sliceBytes r (r.inlineAt + d.rnext) left) s

/-! ## Writing a destination -/

/-- The bytes that have come without a gap from an offset on. -/
def contiguous : Nat → Nat → List (Nat × List Byte) → List Byte
  | 0, _, _ => []
  | fuel + 1, at_, got =>
    match got.find? fun g => decide (g.1 ≤ at_ ∧ at_ < g.1 + g.2.length) with
    | none => []
    | some g =>
      let part := g.2.drop (at_ - g.1)
      part ++ contiguous fuel (at_ + part.length) got

/-- Destination bytes handed to the cadence. -/
def handed (k : DKey) (n : Nat) (s : State) : State :=
  s.descUpd k fun d =>
    { d with wnext := d.wnext + n, wpend := d.wpend + n, got := d.got.filter fun g => decide (d.wnext + n < g.1 + g.2.length) }

/-- Bytes written through a window: one packet (08 R200). -/
def writeLocal (k : DKey) (w : WinMap) (win cls at_ off : Nat) (data : List Byte) (s : State) : State :=
  let la := w.laddr + at_
  let e : Egr := { pkt := { op := if w.acked then 2 else 1, cls := cls, len := data.length, addr := la, ctx := k.c, win := win,
                            data := data },
                   src := some (.desc k off data.length), tmo := w.tmo }
  if s.lbActive w.port then
    s |> handed k data.length
      |> addItem false k.c cls w.port data.length false (.descLocal w.port e)
  else descFail k stNoTarget (sideDetail true 0) s

/-- Bytes written to a peer: one WRITE (13 R322). -/
def writePeer (k : DKey) (r : Raw) (off : Nat) (data : List Byte) (s : State) : State :=
  askPeer k true (peerGctx r.dst) r.cls data.length off data.length
    { mtype := 1, win := r.dstWin, off := peerOff r.dst + off, data := data } (handed k data.length) s

/-- Most bytes of the next destination piece. -/
def destPiece (d : Desc) (r : Raw) : Nat :=
  let left := r.length - d.wnext
  match r.dstKind with
  | 0 => pieceLen (r.dst + d.wnext) left 256
  | 1 => localPiece (d.dwin.laddr + r.dst + d.wnext) left r.length
  | 2 => pieceLen (r.dst + d.wnext) left 4096
  | _ => min left 256

/-- A destination piece that was accepted into the write cache before its engine was fenced is not written again (06 R143). -/
def skipDone (k : DKey) (n : Nat) (s : State) : State :=
  s.descUpd k fun d => { d with wnext := d.wnext + n, got := d.got.filter fun g => decide (d.wnext + n < g.1 + g.2.length) }

/-- The next destination piece of a COPY or FILL is handed to the cadence once its bytes have come. -/
def writeStep (k : DKey) (s : State) : State :=
  match runningRaw s k with
  | none => s
  | some (d, r) =>
    let n := destPiece d r
    let data := if r.opcode = 2 then r.fillBytes d.wnext n else (contiguous (d.got.length + 1) d.wnext d.got).take n
    if n = 0 ∨ data.length < n then s
    else
      match r.dstKind with
      | 0 => s |> handed k n |> addItem true k.c r.cls 9 n false (.descHost k d.wnext (BitVec.ofNat 64 (r.dst + d.wnext)) data)
      | 1 => writeLocal k d.dwin r.dstWin r.cls (r.dst + d.wnext) d.wnext data s
      | 2 =>
        if d.done.any fun p => p.1 == d.wnext then skipDone k n s
        else s |> handed k n |> addItem false k.c (carried r.cls 8) 8 n false (.descDur k d.wnext d.apt (r.dst + d.wnext) data)
      | _ => writePeer k r d.wnext data s

/-- Steps one command takes: as many as the read-ahead holds pieces. -/
def burst : Nat := 64

/-- A descriptor reads and writes what it can. -/
def moveData (reads : Bool) (k : DKey) (s : State) : State :=
  s |> doAll (List.range burst) (fun _ s => s |> doIf reads (readStep k) |> writeStep k)

/-- A descriptor has done its own part. -/
def endDesc (k : DKey) (detail : Nat) (s : State) : State := s.descUpd k fun d => { d with ended := true, detail := detail }

/-! ## The opcodes -/

/-- R134: NOP. -/
def execNop (c : Fin 1024) (q : Fin 64) (slot : Fin 65536) (s : State) : Result :=
  onDesc c q slot 0 (fun k s => endDesc k 0 s) s

/-- R134: COPY. -/
def execCopy (c : Fin 1024) (q : Fin 64) (slot : Fin 65536) (s : State) : Result :=
  onDesc c q slot 1 (fun k s => moveData true k s) s

/-- R134: FILL. -/
def execFill (c : Fin 1024) (q : Fin 64) (slot : Fin 65536) (s : State) : Result :=
  onDesc c q slot 2 (fun k s => moveData false k s) s

/-- Every earlier descriptor of the queue pair is complete (06 R137). -/
def earlierDone (s : State) (k : DKey) : Bool :=
  match s.desc? k with
  | some d => (earlier (s.qp k.c k.q) d).isEmpty
  | none => true

/-- Every descriptor of the context accepted by a doorbell stamped before `at_` is complete. -/
def contextDone (s : State) (c : Nat) (at_ : Stroke) : Bool :=
  s.qps.all fun x => x.1 / 64 != c || x.2.descs.all fun d => !(decide (0 < (at_ - d.stamp).toNat ∧ (at_ - d.stamp).toNat < 2 ^ 47))

/-- R134, R137: FENCE. -/
def execFence (c : Fin 1024) (q : Fin 64) (slot : Fin 65536) (s : State) : Result :=
  onDesc c q slot 3 (fun k s =>
    match runningRaw s k with
    | some (d, r) => if earlierDone s k ∧ (r.scope = 0 ∨ contextDone s c d.stamp) then endDesc k 0 s else s
    | none => s) s

/-- A mirror copy of a durable write of the queue pair's descriptors, made before copy number `n`, is unacknowledged. -/
def unprotectedBefore (s : State) (k : DKey) (n : Nat) : Bool :=
  s.ds.copies.any fun x => decide (x.n < n) && match x.src with
    | some (.desc j _) => j.c == k.c && j.q == k.q
    | _ => false

/-- R134, R255: PERSIST waits as a FENCE of SCOPE 0, then for protection; it confirms nothing in PRESERVE (R256). -/
def execPersist (c : Fin 1024) (q : Fin 64) (slot : Fin 65536) (s : State) : Result :=
  onDesc c q slot 4 (fun k s =>
    match runningRaw s k with
    | some (d, _) =>
      let upTo := d.persistAt.getD s.ds.copyNo
      if ¬ earlierDone s k then s
      else if unprotectedBefore s k upTo then s.descUpd k fun d => { d with persistAt := some upTo }
      else endDesc k s.nowLo s
    | none => s) s

/-- The data of an ATOMIC request: OPERAND, and COMPARE for COMPARE_SWAP (08 Table 08-4). -/
def atomicData (r : Raw) : List Byte := sliceBytes r 40 r.size ++ (if r.aop = 2 then sliceBytes r 48 r.size else [])

/-- The request of an ATOMIC is handed to the cadence. -/
def sendAtomic (k : DKey) (d : Desc) (r : Raw) (s : State) : State :=
  if r.dstKind = 1 then
    let e : Egr := { pkt := { op := 3, cls := r.cls, len := r.size, sub := r.aop, addr := d.dwin.laddr + r.dst, ctx := k.c,
                              win := r.dstWin, data := atomicData r },
                     src := some (.desc k 0 r.size), tmo := d.dwin.tmo }
    if s.lbActive d.dwin.port then
      s |> handed k r.size
        |> addItem false k.c r.cls d.dwin.port (atomicData r).length false (.descLocal d.dwin.port e)
    else descFail k stNoTarget (sideDetail true 0) s
  else
    askPeer k true (peerGctx r.dst) r.cls (atomicData r).length 0 r.size
      { mtype := 3, stat := r.aop, win := r.dstWin, off := peerOff r.dst, data := atomicData r } (handed k r.size) s

/-- R134: ATOMIC: the request, then the original value to SRC. -/
def execAtomic (c : Fin 1024) (q : Fin 64) (slot : Fin 65536) (s : State) : Result :=
  onDesc c q slot 5 (fun k s =>
    match runningRaw s k with
    | some (d, r) =>
      if d.wnext = 0 then sendAtomic k d r s
      else if d.old ≠ [] ∧ d.wpend = 0 then
        s.descUpd k (fun d => { d with wpend := r.size, ended := true })
          |> addItem true c r.cls 9 r.size false (.descHost k 0 (BitVec.ofNat 64 r.src) (sliceBytes d.old 0 r.size))
      else s
    | none => s) s

/-- A MSG leaves for its port or its peer. -/
def sendMessage (k : DKey) (d : Desc) (r : Raw) (data : List Byte) (s : State) : State :=
  if r.dstKind = 1 then
    let e : Egr := { pkt := { op := 4, cls := r.cls, len := data.length, addr := r.msgId, ctx := k.c, win := r.dstWin,
                              data := data }, src := some (.desc k 0 data.length) }
    if s.lbActive d.dwin.port then
      s.descUpd k (fun d => { d with wpend := data.length, localRead := true })
        |> addItem false k.c r.cls d.dwin.port data.length false (.descLocal d.dwin.port e)
    else descFail k stNoTarget (sideDetail true 0) s
  else
    askPeer k true (peerGctx r.dst) r.cls data.length 0 data.length
      { mtype := 5, win := r.dstWin, off := r.msgId + 2 ^ 33, data := data, send := true }
      (fun s => s.descUpd k fun d => { d with wpend := data.length, localRead := true }) s

/-- R134, R243: SEND: its payload is read, then one MSG is sent. `localRead` marks that the MSG is on its way. -/
def execSend (c : Fin 1024) (q : Fin 64) (slot : Fin 65536) (s : State) : Result :=
  onDesc c q slot 6 (fun k s =>
    let s := s |> readStep k |> readStep k
    match runningRaw s k with
    | some (d, r) =>
      let data := contiguous (d.got.length + 1) 0 d.got
      if ¬ d.localRead ∧ data.length = r.length then sendMessage k d r data s else s
    | none => s) s

/-- The next segment of a frame, once its bytes have come (10 R244). -/
def frameStep (k : DKey) (s : State) : State :=
  match runningRaw s k with
  | none => s
  | some (d, r) =>
    let n := min 256 (r.length - d.wnext)
    let data := (contiguous (d.got.length + 1) d.wnext d.got).take n
    if n = 0 ∨ data.length < n then s
    else
      let sof := d.wnext == 0
      let eof := d.wnext + n == r.length
      let e : Egr := { pkt := { op := 5, cls := r.cls, len := n, addr := if sof then r.frameInfo else 0, ctx := k.c, win := r.dstWin,
                                aux := sof.toNat + 2 * eof.toNat, data := data },
                       src := some (.desc k d.wnext n) }
      if s.lbActive d.dwin.port then
        s |> handed k n |> addItem false k.c r.cls d.dwin.port n false (.descLocal d.dwin.port e)
      else descFail k stNoTarget (sideDetail true 0) s |>.descUpd k fun d => { d with bytes := 0, wpend := 0 }

/-- R134, R244: FRAME_OUT. -/
def execFrameOut (c : Fin 1024) (q : Fin 64) (slot : Fin 65536) (s : State) : Result :=
  onDesc c q slot 7 (fun k s => s |> doAll (List.range burst) (fun _ s => s |> readStep k |> frameStep k)) s

/-- The 16-byte record of MARK. -/
def markRecord (d : Desc) (r : Raw) : List Byte := r.pattern ++ leBytes 6 d.dealt.toNat ++ leBytes 2 0

/-- R134: MARK. -/
def execMark (c : Fin 1024) (q : Fin 64) (slot : Fin 65536) (s : State) : Result :=
  onDesc c q slot 8 (fun k s =>
    match runningRaw s k with
    | some (d, r) =>
      let s := endDesc k (d.dealt.toNat % 2 ^ 32) s
      if r.markWrite then
        s.descUpd k (fun d => { d with wpend := 16 })
          |> addItem true c r.cls 9 16 false (.descHost k 0 (BitVec.ofNat 64 r.dst) (markRecord d r))
      else s
    | none => s) s

/-! ## The write fence (06 R147) -/

/-- A host posted write of context `c` numbered at most `n`. -/
def hostWriteUpTo (c n : Nat) : ReqSrc → Bool
  | .hostWrite d _ seq _ _ => d == c && decide (seq ≤ n)
  | _ => false

/-- No BAR2 write of the function up to number `n` waits to be issued or, where acked, to be acknowledged. -/
def bar2Done (s : State) (c n : Nat) : Bool :=
  !(s.cad.items.any fun i => match i.work with | .hostWrite d _ seq _ _ _ _ _ _ _ => d == c && decide (seq ≤ n) | _ => false) &&
    [0, 1, 2, 3].all fun p =>
      !((s.lb p).egress.any fun e => match e.src with | some x => hostWriteUpTo c n x | none => false) &&
        !((s.lb p).reqs.any fun r => hostWriteUpTo c n r.src)

/-- A read of CTX_WFENCE with byte enables is held with the writes it covers. -/
def wfenceRead (c be : Nat) (s : State) : State :=
  s.ctxUpd c fun x => { x with wfence := x.wfence ++ [heldNow s c be none] }

/-- R147: a read of CTX_WFENCE, whole, is held. -/
def execCtxWfenceRead (c : Fin 1024) (s : State) : Result := done (hostTlp c (.ctxWfenceRead c) (wfenceRead c 15) s)

/-- The writes that a held read covers are all acknowledged, issued or admitted. -/
def fenceDone (s : State) (c : Nat) (r : HeldRead) : Bool := bar2Done s c r.upTo2 && admittedTo s c r.upTo4

/-- The oldest held CTX_WFENCE read returns the failures counted and clears them. -/
def wfenceReturn (c : Nat) (incomplete : Bool) (r : HeldRead) (s : State) : State :=
  let v := incomplete.toNat * 2 ^ 31 + s.get (Fld.CTX_WFENCE_FAILS c)
  s |>.set (Fld.CTX_WFENCE_FAILS c) 0 |>.set (Fld.CTX_WFENCE_INCOMPLETE c) incomplete.toNat
    |>.ctxUpd c (fun x => { x with wfence := x.wfence.drop 1 }) |> heldAnswer c v r

/-- R147: the oldest held read of CTX_WFENCE returns. -/
def execCtxWfenceReturn (c : Fin 1024) (s : State) : Result :=
  done (match (s.ctx c).wfence with
    | r :: _ => if fenceDone s c r then wfenceReturn c false r s else s
    | [] => s)

/-- R147: a read held 62 ms returns with INCOMPLETE. -/
def execCtxWfenceTimeout (c : Fin 1024) (s : State) : Result :=
  done (match (s.ctx c).wfence with
    | r :: _ => if heldLimit ≤ s.since r.since ∧ ¬ fenceDone s c r then wfenceReturn c true r s else s
    | [] => s)

end Sys2Proof.Machine
end

