-- ==== Sys2Proof/Machine/Mailbox.lean ====
section
/-! DEFINITION. Machine/Mailbox.lean: the mailboxes: the header and argument area, the doorbell, the tests of R473, objects
and their order, ranking, completion, the hardware watchdog, forwarding to another member (16 R388 to R412). -/
namespace Sys2Proof.Machine

/-- The mailbox state beside the registers changed. -/
def State.mbxUpd (s : State) (f : Mbx → Mbx) : State := { s with mbx := f s.mbx }

/-- The commands not done changed. -/
def State.cmdsUpd (s : State) (f : List Cmd → List Cmd) : State := { s with cmds := f s.cmds }

/-! ## Places (16 Tables 16-1 and 16-2)

A mailbox is numbered 0 to 3 for the host mailboxes, 4 for the board controller's, 5 for the peer mailbox, and 8 + c for
the slot of context c; the slot of context 0 is host mailbox 0. -/

/-- The mailbox itself: context 0's slot is host mailbox 0. -/
def mbxId (mb : Nat) : Nat := if mb = 8 then 0 else mb

/-- Where a mailbox's buffer begins. -/
def mbxBase (mb : Nat) : Nat := if mb < 8 then Adr.MBX_CMD mb else Adr.MBXS_CMD (mb - 8)

/-- A header field of a mailbox. -/
def mbxField (mb off hi lo : Nat) : Field := ⟨mbxBase mb + off, hi, lo⟩

/-- MBX_STATUS.STATE. -/
def mbxState (mb : Nat) : Field := mbxField mb 0x0C 2 0

/-- MBX_STATUS.LONG. -/
def mbxLong (mb : Nat) : Field := mbxField mb 0x0C 5 5

/-- PENDING or RUNNING. -/
def mbxBusy (s : State) (mb : Nat) : Bool := s.get (mbxState mb) == 1 || s.get (mbxState mb) == 2

/-- The context of a mailbox's issuer: that of a slot, otherwise the physical function. -/
def mbxCtx (mb : Nat) : Nat := mb - 8

/-- A byte of the registers and buffers. -/
def byteAt (s : State) (a : Nat) : Byte := BitVec.ofNat 8 ((s.word (a - a % 4)).toNat / 2 ^ (8 * (a % 4)))

/-- A byte replaced. -/
def setByte (a : Nat) (b : Byte) (s : State) : State :=
  s.setWord (a - a % 4) (BitVec.ofNat 32 (withBits (s.word (a - a % 4)).toNat (8 * (a % 4) + 7) (8 * (a % 4)) b.toNat))

/-- Bytes written from an address on. -/
def putArea : Nat → List Byte → State → State
  | _, [], s => s
  | a, b :: bs, s => putArea (a + 1) bs (setByte a b s)

/-- `n` bytes of the argument and result area. -/
def mbxArea (s : State) (mb n : Nat) : List Byte := (List.range n).map fun i => byteAt s (mbxBase mb + 0x20 + i)

/-! ## The command set (16 Tables 16-5 to 16-12) -/

/-- Query, go, stop, mode. -/
inductive Kind where
  | q | g | s | m
deriving DecidableEq, Repr

/-- A row of Tables 16-5 to 16-12: opcode, kind, whether a context slot may submit it, whether it may be forwarded, the
Idem column, the mark that admits it in MAINTENANCE only. P and B may submit every command. -/
structure CmdInfo where
  op : Nat
  kind : Kind
  v : Bool := false
  f : Bool := false
  idem : Bool := true
  maint : Bool := false
deriving DecidableEq, Repr

/-- The commands of interface revision 3. -/
def commands : List CmdInfo :=
  [{ op := 0x0001, kind := .q, f := true }, { op := 0x0002, kind := .m, maint := true }, { op := 0x0003, kind := .m },
   { op := 0x0004, kind := .m },
   { op := 0x0101, kind := .g }, { op := 0x0102, kind := .s }, { op := 0x0103, kind := .g },
   { op := 0x0104, kind := .q, f := true }, { op := 0x0105, kind := .g }, { op := 0x0106, kind := .q, f := true },
   { op := 0x0201, kind := .q, v := true, f := true }, { op := 0x0202, kind := .g, v := true },
   { op := 0x0203, kind := .s, v := true }, { op := 0x0204, kind := .s }, { op := 0x0205, kind := .g },
   { op := 0x0206, kind := .q }] ++
  [{ op := 0x0301, kind := .g, idem := false }, { op := 0x0302, kind := .g }, { op := 0x0303, kind := .g },
   { op := 0x0304, kind := .g }, { op := 0x0305, kind := .q, v := true, f := true }, { op := 0x0306, kind := .q, f := true },
   { op := 0x0307, kind := .q }, { op := 0x0308, kind := .g, idem := false, maint := true },
   { op := 0x0309, kind := .q, f := true }, { op := 0x030A, kind := .g, maint := true },
   { op := 0x0401, kind := .q, f := true }, { op := 0x0402, kind := .m }, { op := 0x0403, kind := .g, idem := false },
   { op := 0x0404, kind := .g }, { op := 0x0405, kind := .q, f := true }] ++
  [{ op := 0x0501, kind := .q, f := true }, { op := 0x0502, kind := .g }, { op := 0x0503, kind := .g },
   { op := 0x0504, kind := .g }, { op := 0x0505, kind := .g, maint := true }, { op := 0x0506, kind := .g },
   { op := 0x0507, kind := .g },
   { op := 0x0601, kind := .q }, { op := 0x0602, kind := .g, idem := false, maint := true },
   { op := 0x0701, kind := .q, v := true, f := true }, { op := 0x0702, kind := .q, v := true, f := true },
   { op := 0x0703, kind := .q }, { op := 0x0704, kind := .q, v := true, f := true }]

/-- The row of an opcode. -/
def commandOf (op : Nat) : Option CmdInfo := commands.find? fun x => x.op == op

/-- What a command acts on (16 R394). -/
inductive Obj where
  | none | mode | power | ctx (c : Nat) | apt (a : Nat) | newApt | store | firmware | fuses
deriving DecidableEq, Repr

/-- The Object column. -/
def objOf (op : Nat) (args : List Byte) : Obj :=
  match op with
  | 0x0002 | 0x0003 | 0x0004 | 0x0402 => .mode
  | 0x0101 | 0x0102 | 0x0103 | 0x0105 => .power
  | 0x0202 | 0x0203 | 0x0204 | 0x0205 | 0x0403 | 0x0404 => .ctx (leAt args 0 2)
  | 0x0301 => .newApt
  | 0x0302 | 0x0303 | 0x0304 => .apt (leAt args 0 2)
  | 0x0308 | 0x030A => .store
  | 0x0502 | 0x0503 | 0x0504 | 0x0505 | 0x0506 | 0x0507 => .firmware
  | 0x0602 => .fuses
  | _ => .none

/-- A command's object. -/
def Cmd.obj (x : Cmd) : Obj := objOf x.op x.args

/-! ## Arguments (16 R473, test 6) -/

/-- Word `i` of a share record in an argument area. -/
def shareWord (args : List Byte) (i : Nat) : Nat := leAt args (4 + 4 * i) 4

/-- The thirteen fields of a share record with their largest values: word, high bit, low bit, bound (05 Table 05-4). -/
def shareFields : List (Nat × Nat × Nat × Nat) :=
  [(0, 15, 0, 4096), (0, 31, 16, 4096), (1, 15, 0, 4096), (1, 31, 16, 4096), (2, 15, 0, 4096), (2, 31, 16, 4096),
   (3, 15, 0, 4096), (3, 31, 16, 4096), (4, 30, 24, 64), (4, 22, 0, 4194304), (5, 30, 24, 64), (5, 14, 0, 16384),
   (6, 31, 16, 65535), (6, 8, 0, 256)]

/-- A field of a share record in an argument area. -/
def shareArg (args : List Byte) (w hi lo : Nat) : Nat := bitsOf (shareWord args w) hi lo

/-- A field of a share record lies outside Table 05-4, or a reserved bit of it is not 0. -/
def shareBad (args : List Byte) : Bool :=
  shareFields.any (fun f => decide (f.2.2.2 < shareArg args f.1 f.2.1 f.2.2.1)) ||
    decide (0 < shareArg args 4 22 0 ∧ shareArg args 4 22 0 < 16) ||
    bitOf (shareWord args 4) 31 || bitOf (shareWord args 4) 23 || bitOf (shareWord args 5) 31 ||
    shareArg args 5 23 15 != 0 || shareArg args 6 15 9 != 0

/-- A share record raises a field of the one in force (05 R114). -/
def shareRaises (s : State) (c : Nat) (args : List Byte) : Bool :=
  shareFields.any fun f => decide (bitsOf (s.word (Adr.CTX_SHARE0 c + 4 * f.1)).toNat f.2.1 f.2.2.1 < shareArg args f.1 f.2.1 f.2.2.1)

/-- A CTX_SEL_WDOG image with a reserved bit, a reserved MODE or a reserved PERIOD (05 Table 05-19). -/
def wdogBad (v : Nat) : Bool := bitsOf v 31 30 == 3 || bitsOf v 28 24 != 0 || decide (bitsOf v 23 0 < 1000)

/-- The size of a fuse field's value (16 Table 16-11). -/
def fuseSize : Nat → Nat
  | 1 => 4 | 2 => 8 | 3 => 4 | 4 => 16 | _ => 0

/-- ARGLEN suits the opcode, every field lies in its range and every reserved field is 0. -/
def argsGood (op : Nat) (a : List Byte) : Bool :=
  let n := a.length
  let b (i : Nat) : Nat := leAt a i 1
  let ctx : Bool := decide (leAt a 0 2 < 1024)
  match op with
  | 0x0101 => n == 1 && decide (b 0 < 4)
  | 0x0102 => n == 1 && (b 0 == 1 || b 0 == 2)
  | 0x0103 => n == 6
  | 0x0105 => n == 2 && decide (b 0 < 4 ∧ b 1 < 4)
  | 0x0201 | 0x0203 | 0x0204 | 0x0307 | 0x0405 => n == 2 && ctx
  | 0x0202 => n == 32 && ctx && leAt a 2 2 == 0 && !shareBad a
  | 0x0205 => n == 8 && ctx && leAt a 2 2 == 0 && !wdogBad (leAt a 4 4)
  | 0x0301 => n == 3 && decide (1 ≤ leAt a 0 2 ∧ leAt a 0 2 ≤ 256 ∧ b 2 < 2)
  | 0x0302 => n == 4 && decide (leAt a 2 2 < 1024)
  | 0x0303 | 0x0304 | 0x0305 => n == 2
  | 0x0308 => n == 1 && decide (b 0 < 2)
  | 0x0403 => n == 6 && ctx && leAt a 0 2 != 0 && decide (b 2 < 8) && b 3 == 0 && leAt a 4 2 != 0 && decide (leAt a 4 2 < 1024)
  | 0x0404 => n == 2 && ctx && leAt a 0 2 != 0
  | 0x0502 => n == 4 && decide (8192 ≤ leAt a 0 4 ∧ leAt a 0 4 ≤ 6295552)
  | 0x0503 =>
    leAt a 0 4 % 16 == 0 && decide (16 ≤ leAt a 4 4 ∧ leAt a 4 4 ≤ 4032) && leAt a 4 4 % 16 == 0 && n == 32 + leAt a 4 4 &&
      (sliceBytes a 8 24).all (· == 0)
  | 0x0602 =>
    decide (1 ≤ b 0 ∧ b 0 ≤ 4) && (if b 0 = 2 then decide (b 1 ≤ 15) else b 1 == 0) &&
      (sliceBytes a 2 6).all (· == 0) && n == 8 + fuseSize (b 0)
  | 0x0702 => decide (n ≤ 4064)
  | 0x0703 => n == 4
  | _ => n == 0

/-! ## The tests at the stamp (16 R393, R473) -/

/-- Test 3: the submission is permitted (05 Table 05-8a). -/
def issuerMay (s : State) (mb : Nat) (fwd : Bool) (i : CmdInfo) (a : List Byte) : Bool :=
  let named : Bool := decide (2 ≤ a.length)
  let c := leAt a 0 2
  if 8 ≤ mb then
    i.v && !fwd &&
      (match i.op with
        | 0x0201 | 0x0203 => !named || c == mbxCtx mb
        | 0x0202 => !named || (c == mbxCtx mb && !(decide (32 ≤ a.length) && shareRaises s c a))
        | _ => true)
  else if mb = 5 then i.f
  else
    match i.op with
    | 0x0203 | 0x0205 => !(named && c == 0 && decide (mb < 4))
    | 0x0204 => !(named && c == 0)
    | _ => true

/-- MAINTENANCE was entered from BOOT (16 Table 16-3). -/
def maintFromBoot (s : State) : Bool := s.get Fld.DEV_MODE_PREV == 0

/-- Test 4: the status a command gets for the current mode; `none` where it is accepted (16 R392, Table 16-3). -/
def modeTest (s : State) (mb : Nat) (i : CmdInfo) : Option Nat :=
  let ok (b : Bool) : Option Nat := if b then none else some 9
  match s.mode with
  | .boot => ok (mb == 4 && ([1, 0x0701, 4].contains i.op || (i.op == 3 && s.get Fld.DEV_BOOT_STAGE == 0xF)))
  | .standby | .serving => ok (!i.maint)
  | .draining => if i.kind = .q ∨ i.op = 4 then none else some 5
  | .maintenance =>
    if maintFromBoot s then
      ok (mb == 4 && [0x0001, 0x0701, 0x0501, 0x0502, 0x0503, 0x0504, 0x0505, 0x0004, 0x0002].contains i.op)
    else
      ok (i.kind == .q || [0, 1, 5, 6].contains (i.op / 256) || i.op == 0x0308 || i.op == 0x030A)
  | .preserve => some 9

/-- The aperture that a command names lies outside the range of DS_CFG.CAP_UNITS (test 6; 11 R248). A context slot names none for
APT_QUERY, and a forwarded command is tested at its target. -/
def aptOutside (s : State) (op : Nat) (a : List Byte) : Bool :=
  [0x0302, 0x0303, 0x0304, 0x0305].contains op && decide (s.get Fld.DS_CFG_CAP_UNITS ≤ leAt a 0 2)

/-- Tests 1 to 6 of R473 on what stands in a mailbox: the status of the first that fails. -/
def submitTest (s : State) (mb : Nat) (fwd : Bool) (op : Nat) (a : List Byte) : Option Nat :=
  if s.get (mbxField mb 0 23 16) ≠ 3 then some 3
  else
    match commandOf op with
    | none => some 8
    | some i =>
      if ¬ issuerMay s mb fwd i a then some 2
      else
        match modeTest s mb i with
        | some e => some e
        | none =>
          if fwd ∧ ¬ (i.f ∧ a.length ≤ 480) then some 3
          else if argsGood op a ∧ ¬ (mb < 8 ∧ ¬ fwd ∧ aptOutside s op a) then none
          else some 3

/-! ## Completion (16 R390, R396 to R398) -/

/-- A loss is recorded in MBX_CONFLICT_LOG (16 R395). -/
def logConflict (mb op : Nat) (stamp : Stroke) (s : State) : State :=
  s |>.set Fld.MBX_CONFLICT_LOG_VALID 1
    |>.set Fld.MBX_CONFLICT_LOG_LOSER_SRC (if mb < 8 then mb else 6)
    |>.set Fld.MBX_CONFLICT_LOG_LOSER_CTX (mbxCtx mb)
    |>.set Fld.MBX_CONFLICT_LOG_LOSER_OPCODE op
    |>.set Fld.MBX_CONFLICT_TS_STROKE_LO (stamp.toNat % 2 ^ 32)
    |>.inc Fld.MBX_CNT_SUPERSEDED 1

/-- The completion event of a mailbox's issuer. -/
def mbxEvent (mb : Nat) (s : State) : State :=
  if mb = 4 then bcAttn Fld.MBX_BC_ATTN_MBX_DONE s else if mb = 5 then s else ctxEvent (mbxCtx mb) 0 s

/-- `n` drawn bytes from an address on: a result shorter than the arguments leaves those beyond it undefined (R390). -/
def drawBytes : Nat → Nat → State → State
  | _, 0, s => s
  | a, n + 1, s => drawBytes (a + 1) n (setByte a (s.draw.truncate 8) s.drewOne)

/-- The 20-byte fragments of a stream of bytes, from fragment `i` on (16 R412). -/
def fragments (txn flags i : Nat) : Nat → List Byte → List (List Byte)
  | 0, _ => []
  | fuel + 1, bytes =>
    let last : Bool := decide (bytes.length ≤ 20)
    (leBytes 2 txn ++ leBytes 1 i ++ leBytes 1 (flags + last.toNat) ++ sliceBytes bytes 0 20) ::
      (if last then [] else fragments txn flags (i + 1) fuel (bytes.drop 20))

/-- The result of a peer's command goes back on the link its request came on: the CODE byte, then at most 480 bytes. -/
def peerReply (code : Nat) (res : List Byte) (s : State) : State :=
  match s.mbx.cur with
  | none => s
  | some p =>
    s.mbxUpd (fun m => { m with cur := none })
      |> doAll (fragments p.txn (2 + 4 * p.originB.toNat) 0 32 (leBytes 1 code ++ res.take 480)) (fun b => sendBypass p.link 13 b)

/-- A command reaches DONE with a status and a result. -/
def mbxDone (mb op : Nat) (stamp : Stroke) (code : Nat) (res : List Byte) (s : State) : State :=
  let args := s.get (mbxField mb 0x04 11 0)
  s |> putArea (mbxBase mb + 0x20) res
    |> drawBytes (mbxBase mb + 0x20 + res.length) (args - res.length)
    |>.set (mbxField mb 0x10 11 0) res.length
    |>.set (mbxField mb 0x0C 23 16) code
    |>.set (mbxField mb 0x18 31 0) s.nowLo
    |>.set (mbxState mb) 3
    |> doIf (code == 5) (logConflict mb op stamp)
    |> doIf (code == 6) (·.inc Fld.MBX_CNT_INTERRUPTED 1)
    |> doIf (code == 7) (·.inc Fld.MBX_CNT_TIMEOUT 1)
    |> doIf (mb == 5) (peerReply code res)
    |> mbxEvent mb

/-- A command by its number. -/
def State.cmdId (s : State) (id : Nat) : Option Cmd := s.cmds.find? fun x => x.id == id

/-- A command is over: its result is written, unless it is to be discarded (R396, R400). -/
def cmdDone (id code : Nat) (res : List Byte) (s : State) : State :=
  match s.cmdId id with
  | none => s
  | some x =>
    s.cmdsUpd (fun l => l.filter fun y => y.id != id)
      |> doIf (!x.dropped) (mbxDone x.mb x.op x.stamp code res)

/-! ## The doorbell (16 R390, R391) -/

/-- A command enters a mailbox with its stamp: STATE, MBX_STAMP, then the tests. -/
def submitAt (stamp : Stroke) (mb : Nat) (s : State) : State :=
  let op := s.get (mbxField mb 0 15 0)
  let n := s.get (mbxField mb 4 11 0)
  let a := mbxArea s mb n
  let fwd : Bool := s.isSet (mbxField mb 0 31 31) && s.get (mbxField mb 0 26 24) != s.me
  let bad := submitTest s mb fwd op a
  let s := s |>.set (mbxState mb) 1 |>.set (mbxField mb 0x14 31 0) (stamp.toNat % 2 ^ 32)
    |>.set (mbxLong mb) 0 |>.set (mbxField mb 0x0C 7 7) 0
  match bad with
  | some e => mbxDone mb op stamp e [] s
  | none =>
    let q : Bool := match commandOf op with | some i => i.kind == .q | none => false
    let x : Cmd := { id := s.mbx.cmdNo, mb := mb, stamp := stamp, op := op, args := a, fwd := fwd, ranked := q }
    s.cmdsUpd (fun l => l ++ [x])
      |>.mbxUpd fun m => { m with cmdNo := m.cmdNo + 1 }

/-- A command enters a mailbox in the stroke of its GO write (16 R391). -/
def submit (mb : Nat) (s : State) : State := submitAt s.now mb s

/-- The doorbell source of a mailbox (16 Table 16-1). -/
def mbxSource (mb : Nat) : Nat := if mb = 4 then 285 else if mb = 5 then 286 else 284

/-- In Freewheel a command on the power object, but for SLEEP_ENTER, and one on the mode are served after an exit, which the doorbell
starts where its wake bit is 1 (17 R428, R429, R421; log 90). -/
def powerWake (mb : Nat) (s : State) : State :=
  let needs : Bool := s.cmds.any fun x => x.mb == mb && ((x.obj == .power && x.op != 0x0102) || x.obj == .mode)
  doIf (needs && decide (s.get Fld.CRP_SLEEP_STATE ≤ 2)) (noteWake (mbxSource mb)) s

/-- A write of 1 to MBX_DOORBELL.GO. -/
def mbxGo (mb : Nat) (s : State) : State :=
  let m := mbxId mb
  if s.mode = .preserve then s
  else if mbxBusy s m then s.set (mbxField m 0x0C 6 6) 1
  else s |> raise (mbxSource m) |> submit m |> powerWake m

/-- The function whose host software writes a mailbox. -/
def mbxFn (mb : Nat) : Nat := if mb < 8 then 0 else mbxCtx mb

/-- A write of 1 to MBX_DOORBELL.GO that the host sent in stroke `t`, which stamps the command (16 R391). -/
def mbxGoHost (t : Stroke) (mb : Nat) (s : State) : State := doIf (mb < 8 || (s.fn (mbxCtx mb)).enabled) (stampedAs t (mbxGo mb)) s

/-- A write of 1 to MBX_DOORBELL.GO as it arrives: from the host as a posted TLP of a function that exists; from the board
controller in Rest its address match is seen, as source 285, and the transaction waits or ends (R414). Numbers 6 and 7 name no
mailbox (R388). -/
def mbxGoFrom (mb : Fin 1032) (s : State) : State :=
  if mb.val = 6 ∨ mb.val = 7 then s
  else if mb.val = 4 ∧ (s.restGated ∨ s.pwr.smbHeld.isSome) then smbMatch .go s
  else if mb.val = 4 ∨ mb.val = 5 then mbxGo mb s
  else hostPosted (mbxFn mb) (.mbxDoorbellGo mb) (inOrder (mbxFn mb) s.now (.mbxDoorbellGo mb) (mbxGoHost s.now mb)) s

/-- R390: a write of 1 to MBX_DOORBELL.GO. -/
def execMbxDoorbellGo (mb : Fin 1032) (s : State) : Result := done (mbxGoFrom mb s)

/-! ## Objects and order (16 R394, R395) -/

/-- The order among creates of one stroke: P, then B, then the lower SRC code (16 R394). -/
def srcOf (mb : Nat) : Nat := if mb < 8 then mb else 6

/-- Order of issuers on a context, aperture, firmware, store or fuse object: P, B, V; a forwarded command's origin is
P. -/
def issuerRank (mb : Nat) : Nat := if mb < 4 then 0 else if mb = 4 then 1 else if mb = 5 then 2 else 3

/-- A command waits behind another on its object: an earlier stamp, or an earlier create of the same stroke. A reset,
destroy or share change of a context does not wait behind a reset or destroy (R394). -/
def waitsFor (x y : Cmd) : Bool :=
  let ctxOps := [0x0203, 0x0204]
  x.id != y.id && x.obj == y.obj && x.obj != .none &&
    !(ctxOps.contains y.op && (ctxOps.contains x.op || x.op == 0x0202)) &&
    (if x.obj = .newApt ∧ x.stamp = y.stamp then
      decide ((issuerRank y.mb, srcOf y.mb) = (issuerRank x.mb, srcOf x.mb) ∧ y.id < x.id) ||
        decide (issuerRank y.mb < issuerRank x.mb) ||
        decide (issuerRank y.mb = issuerRank x.mb ∧ srcOf y.mb < srcOf x.mb)
    else x.stamp != y.stamp && decide (y.id < x.id))

/-- A core runs firmware: not fenced, and no firmware restart is under way. -/
def coreRuns (s : State) (core : Nat) : Bool :=
  !s.inRest && !s.isSet (Fld.IC_CORE_STATUS_FENCED core) && !s.isSet Fld.DEV_FAULT_STATUS_RESTARTING

/-- The command of a mailbox that is not done. -/
def State.cmdOf (s : State) (mb : Nat) : Option Cmd := s.cmds.find? fun x => x.mb == mbxId mb && !x.dropped

/-- The command of a mailbox that a core may take now: its opcode, PENDING, its stroke ranked, its object free; one that orders a mode
only outside the sleep states, since the mode follows the exit (17 R428). -/
def mayTake (s : State) (mb core op : Nat) : Option Cmd :=
  match s.cmdOf mb with
  | some x =>
    if x.op = op ∧ ¬ x.fwd ∧ s.get (mbxState x.mb) = 1 ∧ x.ranked ∧ s.mode ≠ .preserve ∧ coreRuns s core ∧
        (x.obj ≠ .mode ∨ s.sleepState = 0) ∧ ¬ s.cmds.any (waitsFor x) then some x
    else none
  | none => none

/-- A core takes a command: RUNNING. -/
def takeCmd (x : Cmd) (core : Nat) (s : State) : State :=
  s.cmdsUpd (fun l => l.map fun y => if y.id = x.id then { y with core := some core } else y)
    |>.set (mbxState x.mb) 2

/-- A command that a core takes and completes at once: `f` answers the state, the status and the result. -/
def runCmd (mb core op : Nat) (f : Cmd → State → State × Nat × List Byte) (s : State) : Result :=
  match mayTake s mb core op with
  | none => done s
  | some x =>
    let (s, code, res) := f x (takeCmd x core s)
    done (cmdDone x.id code res s)

/-- A command that a core takes and that ends later: `f` starts it. -/
def startCmd (mb core op : Nat) (f : Cmd → State → State) (s : State) : Result :=
  match mayTake s mb core op with
  | none => done s
  | some x => done (f x (takeCmd x core s))

/-- Position of a command among those of its stroke and object; the lowest wins (16 R395). -/
def cmdRank (x : Cmd) : Nat :=
  let bp : Nat := if x.mb = 4 then 0 else 1
  match x.obj with
  | .mode => if x.op = 2 then 2 else if x.op = 3 then 5 else 3
  | .power => (if x.op = 0x0102 then 0 else 100) + 10 * bp + srcOf x.mb
  | _ => (if x.op = 0x0204 then 0 else if x.op = 0x0203 then 100 else 200) + 10 * issuerRank x.mb + srcOf x.mb

/-- Position of an order of firmware's own among the power commands of its stroke: behind those of the board controller, as one of
which it counts, ahead of those of P (17 R417, 16 R393; DESIGN CHOICE, log 232). -/
def FwOrder.rank : FwOrder → Nat
  | .level _ => 109
  | .sleep => 9

/-- A power command of a stroke overtakes firmware's order of that stroke. -/
def overtakesFw (s : State) (w : FwOrder) (x : Cmd) : Bool := x.obj == .power && x.stamp == s.now && decide (cmdRank x < w.rank)

/-- Firmware's order of the stroke overtakes a power command of that stroke. -/
def losesToFw (s : State) (x : Cmd) : Bool :=
  match s.pwr.fwWant with
  | some w => x.obj == .power && x.stamp == s.now && decide (w.rank < cmdRank x)
  | none => false

/-- Two slots of one context cannot both hold a command; every other tie is broken by SRC. M commands of one rank both
take effect. -/
def losesTo (x y : Cmd) : Bool :=
  x.id != y.id && x.obj == y.obj && x.obj != .newApt && x.obj != .none && x.stamp == y.stamp && decide (cmdRank y < cmdRank x)

/-- A cause of the ended stroke that is no command overtakes a command (03 Table 03-6, 05 R120). -/
def losesToCause (s : State) (x : Cmd) : Bool :=
  match x.op with
  | 0x0003 => s.dev.causes.any fun c => [.cardEject, .surpriseDown, .linkReset].contains c
  | 0x0202 | 0x0203 =>
    (match (s.ctx (leAt x.args 0 2)).op with
      | some o => o.stamp == x.stamp && o.cmds.isEmpty && (x.op == 0x0202 || o.destroy)
      | none => false)
  | _ => false

/-- R395: the commands stamped in the stroke that ends are ranked, and firmware's own order with them; the losers complete with
CONFLICT_SUPERSEDED. -/
def rankCmds (s : State) : State :=
  let new := s.cmds.filter fun x => !x.ranked
  let losers := new.filter fun x => s.cmds.any (losesTo x) || losesToCause s x || losesToFw s x
  let want := s.pwr.fwWant.filter fun w => !s.cmds.any (overtakesFw s w)
  s.cmdsUpd (fun l => l.map fun x => { x with ranked := true })
    |>.pwrUpd (fun p => { p with fwWant := want })
    |> doAll losers (fun x => cmdDone x.id 5 [])

/-! ## Watchdog, abandoned results (16 R396, R400) -/

/-- The hardware watchdog of a mailbox has expired. -/
def mbxLate (s : State) (x : Cmd) : Bool := decide (s.get Fld.MBX_WDOG_CTL_MS * 2000 ≤ s.since x.stamp)

/-- R396: a command not DONE MBX_WDOG_CTL.MS ms after its stamp completes with TIMEOUT. One that waits never takes
effect; one that runs goes on, and its result is discarded. -/
def execMbxWatchdogExpiry (mb : Fin 1032) (s : State) : Result :=
  done (match s.cmdOf mb with
    | some x =>
      if s.mode ≠ .preserve ∧ mbxLate s x then
        let running : Bool := s.get (mbxState x.mb) == 2 && !x.fwd
        s.cmdsUpd (fun l =>
            if running then l.map fun y => if y.id = x.id then { y with dropped := true } else y
            else l.filter fun y => y.id != x.id)
          |>.mbxUpd (fun m => { m with out := m.out.filter fun o => o.id != x.id })
          |> mbxDone x.mb x.op x.stamp 7 []
          |> raise 283
      else s
    | none => s)

/-- R400: a mailbox returns to IDLE: a PENDING command is discarded, the result of a RUNNING one too. -/
def mbxIdle (mb : Nat) (s : State) : State :=
  let running : Bool := s.get (mbxState mb) == 2
  s.cmdsUpd (fun l =>
      if running then l.map fun y => if y.mb = mb then { y with dropped := true } else y
      else l.filter fun y => y.mb != mb || y.dropped)
    |>.set (mbxState mb) 0

/-! ## Forwarding (16 R411, R412) -/

/-- R411: a core carries a forwarded command to its target: its header and arguments leave as PEER_MBX fragments on the
route to the member. One command is under way to a member at a time. -/
def execMbxForward (mb : Fin 1032) (core : Fin 4) (s : State) : Result :=
  done (match s.cmdOf mb with
    | some x =>
      let m := s.get (mbxField x.mb 0 26 24)
      if x.fwd ∧ s.get (mbxState x.mb) = 1 ∧ s.mode ≠ .preserve ∧ coreRuns s core ∧
          ¬ s.mbx.out.any (fun o => o.member == m) then
        match s.route m with
        | none => cmdDone x.id 0x0C [] s
        | some k =>
          let txn := s.mbx.txn
          let bytes := (List.range 32).map (fun i => byteAt s (mbxBase x.mb + i)) ++ x.args
          s |> takeCmd x core
            |>.mbxUpd (fun b => { b with txn := (txn + 1) % 65536, out := b.out ++ [⟨x.id, m, txn, k, false, 0, []⟩] })
            |> doAll (fragments txn (4 * (x.mb == 4).toNat) 0 32 bytes) (fun b => sendBypass k 13 b)
      else s
    | none => s)

/-- The peer mailbox takes the earliest whole request, if it is free: its header, whose reserved bits are not kept (00 R4), and its
arguments are written there, and it
enters it with the stroke in which its last fragment was accepted (16 R391, R411). -/
def peerServe (s : State) : State :=
  if s.mbx.cur.isSome ∨ mbxBusy s 5 ∨ s.mode = .preserve then s
  else
    match s.mbx.got.find? fun p => p.whole.isSome with
    | none => s
    | some p =>
      s.mbxUpd (fun m => { m with cur := some p, got := m.got.filter fun x => x != p })
        |> putArea (mbxBase 5) (leBytes 4 (leAt p.got 0 4 &&& 0x87FFFFFF) ++ leBytes 4 (leAt p.got 4 4 &&& 0xFFF) ++ sliceBytes p.got 8 4)
        |> putArea (mbxBase 5 + 0x20) (p.got.drop 32)
        |> raise 286
        |> submitAt (p.whole.getD s.now) 5

end Sys2Proof.Machine
end

