-- ==== Sys2Proof/Machine/Cadence.lean ====
section
/-! DEFINITION. Machine/Cadence.lean: the cadence tables, their commit, the level check, host time and the stroke counter
as masters read it (07 R153 to R163, R168; 04 R97). -/
namespace Sys2Proof.Machine

/-! ## Banked registers (20 R467) -/

/-- Which copy of a banked register a master has. -/
def bankOf : Master → Nat
  | .host _ => 0
  | .bc => 1
  | .core c => 2 + c.val
  | .debug => 6

/-- A master's copy of a banked register. -/
def State.bank (s : State) (m : Master) (a : Nat) : Word := tabGet (fun _ => 0) s.banks (a * 8 + bankOf m)

/-- A master's copy replaced. -/
def setBank (m : Master) (a : Nat) (v : Word) (s : State) : State :=
  { s with banks := tabSet (fun _ => 0) s.banks (a * 8 + bankOf m) v }

/-! ## Lists (07 R160, R161, Table 07-3)

Lists are numbered by their place in the aperture: shadow downward 0 to 3, shadow upward 4 to 7, active downward 8 to 11,
active upward 12 to 15, each by level. -/

/-- Slots per direction at a level (07 Table 07-1). -/
def slotsOf : Nat → Nat
  | 0 => 256 | 1 => 200 | 2 => 144 | _ => 88

/-- A list after a system reset: every entry is C2. -/
def listReset (k : Nat) : List (BitVec 8) := List.replicate (slotsOf (k % 4)) 2

/-- List `k` of the aperture. -/
def State.list (s : State) (k : Nat) : List (BitVec 8) := tabGet listReset s.cad.lists k

/-- List `k` replaced. -/
def setList (k : Nat) (l : List (BitVec 8)) (s : State) : State :=
  s.cadUpd fun c => { c with lists := tabSet listReset c.lists k l }

/-- CLASS of an entry. -/
def entryCls (e : BitVec 8) : Nat := e.toNat % 4
/-- TARGET of an entry. -/
def entryTgt (e : BitVec 8) : Nat := e.toNat / 4 % 8

/-- How many entries of a class a list holds. -/
def entriesOf (l : List (BitVec 8)) (cls : Nat) : Nat := (l.filter fun e => entryCls e == cls).length

/-- How many C0 entries of a list name a target. -/
def entriesTo (l : List (BitVec 8)) (t : Nat) : Nat := (l.filter fun e => entryCls e == 0 && entryTgt e == t).length

/-- The current level. -/
def State.level (s : State) : Nat := s.get Fld.CAD_STATUS_LEVEL

/-- The active list of a direction at a level. -/
def State.active (s : State) (up : Bool) (l : Nat) : List (BitVec 8) := s.list ((if up then 12 else 8) + l)

/-- UL C0_SHORT of a link follows its width and CAD_RSV_TGT_UL; UL_DEGRADED is raised when it becomes 1 (13 R326). -/
def updUlShort (k : Nat) (s : State) : State :=
  let short : Bool := s.isSet (Fld.UL_STATUS_W4 k) && decide (16 < bitsOf (s.word Adr.CAD_RSV_TGT_UL).toNat (8 * k + 7) (8 * k))
  let was := s.isSet (Fld.UL_STATUS_C0_SHORT k)
  s.set (Fld.UL_STATUS_C0_SHORT k) short.toNat |> doIf (short && !was) (raise (107 + 12 * k))

/-- The CAD_RSV registers follow the active lists of the current level, and with them C0_SHORT (07 Table 07-13). -/
def updRsv (s : State) : State :=
  let dn := s.active false s.level
  let up := s.active true s.level
  s |>.set Fld.CAD_RSV_DN_C0 (entriesOf dn 0) |>.set Fld.CAD_RSV_DN_C1 (entriesOf dn 1)
    |>.set Fld.CAD_RSV_UP_C0 (entriesOf up 0) |>.set Fld.CAD_RSV_UP_C1 (entriesOf up 1)
    |>.setWord Adr.CAD_RSV_TGT_LB (BitVec.ofNat 32 (leNat ((List.range 4).map fun t => BitVec.ofNat 8 (entriesTo dn t))))
    |>.setWord Adr.CAD_RSV_TGT_UL (BitVec.ofNat 32 (leNat ((List.range 4).map fun t => BitVec.ofNat 8 (entriesTo dn (4 + t)))))
    |> updC0Short
    |> doAll [0, 1, 2, 3] updUlShort

/-! ## The commit (07 R162, Table 07-5) -/

/-- Check 0x1 fails for an entry of a downward or upward list. -/
def entryBad (up : Bool) (e : BitVec 8) : Bool :=
  entryCls e == 3 || decide (32 ≤ e.toNat) || ((up || entryCls e != 0) && entryTgt e != 0)

/-- The first slot of a downward list at which check 0x2 fails: the 17th C0 entry of a port, the 33rd of a link. -/
def targetOver (l : List (BitVec 8)) : Option Nat :=
  (List.range l.length).find? fun i =>
    let e := l.getD i 2
    entryCls e == 0 && decide ((if entryTgt e < 4 then 16 else 32) < entriesTo (l.take (i + 1)) (entryTgt e))

/-- The sum of the C0 or C1 weights of a direction (05 R108). -/
def State.weightSum (s : State) (up : Bool) (cls : Nat) : Nat :=
  match up, cls with
  | false, 0 => s.get Fld.CTX_POOL_C0_DN
  | false, _ => s.get Fld.CTX_POOL_C1_DN
  | true, 0 => s.get Fld.CTX_POOL_C0_UP
  | true, _ => s.get Fld.CTX_POOL_C1_UP

/-- The eight shadow lists in the order of the aperture, as direction, level and list. -/
def State.shadows (s : State) : List (Bool × Nat × List (BitVec 8)) :=
  (List.range 8).map fun k => (decide (4 ≤ k), k % 4, s.list k)

/-- The first failing check of Table 07-5: ERR, DIR, LEVEL, SLOT. -/
def commitErr (s : State) : Option (Nat × Bool × Nat × Nat) :=
  let first (f : Bool × Nat × List (BitVec 8) → Option Nat) (e : Nat) : Option (Nat × Bool × Nat × Nat) :=
    s.shadows.findSome? fun x => (f x).map fun slot => (e, x.1, x.2.1, slot)
  let cur (f : Bool → List (BitVec 8) → Bool) (e : Nat) : Option (Nat × Bool × Nat × Nat) :=
    [false, true].findSome? fun up =>
      if f up (s.list ((if up then 4 else 0) + s.level)) then some (e, up, s.level, 0) else none
  let short (cls : Nat) (up : Bool) (l : List (BitVec 8)) : Bool :=
    if s.isSet Fld.CAD_STATUS_C0_OVERCOMMIT then decide (entriesOf l cls < entriesOf (s.active up s.level) cls)
    else decide (16 * entriesOf l cls < s.weightSum up cls)
  (first (fun x => x.2.2.findIdx? (entryBad x.1)) 1)
    <|> (first (fun x => if x.1 then none else targetOver x.2.2) 2)
    <|> (first (fun x => if entriesOf x.2.2 2 < 8 then some 0 else none) 3)
    <|> (cur (short 0) 4)
    <|> (cur (short 1) 5)
    <|> (if s.linkUp then cur (fun _ l => decide (s.get Fld.HL_LINK_STATUS_SLOT_CAP < entriesOf l 0)) 6 else none)

/-- The pending commit is applied, or refused with its first failure, at the boundary to stroke `b` (07 R162). -/
def commitApply (b : Stroke) (s : State) : State :=
  match commitErr s with
  | none =>
    s |> doAll (List.range 8) (fun k s => setList (8 + k) (s.list k) s)
      |>.cadUpd (fun c => { c with commitAt := none })
      |>.setWord Adr.CAD_COMMIT 0
      |>.set Fld.CAD_COMMIT_RESULT 2
      |>.set Fld.CAD_COMMIT_TS_STROKE_LO (b.toNat % 2 ^ 32)
      |> updRsv
      |> raise 256
  | some (e, up, l, slot) =>
    s |>.cadUpd (fun c => { c with commitAt := none })
      |>.setWord Adr.CAD_COMMIT 0
      |>.set Fld.CAD_COMMIT_RESULT 3 |>.set Fld.CAD_COMMIT_ERR e |>.set Fld.CAD_COMMIT_DIR up.toNat
      |>.set Fld.CAD_COMMIT_LEVEL l |>.set Fld.CAD_COMMIT_SLOT slot
      |> raise 257

/-- A shadow list gives a direction C0 entries. -/
def shadowC0 (s : State) : Bool := s.shadows.any fun x => decide (0 < entriesOf x.2.2 0)

/-- A sleeping device, also one that enters a sleep state, leaves it for a pending commit that gives C0 entries (17 R422; DESIGN CHOICE
for an entry and for Rest, log 234). -/
def commitWakes (s : State) : State := doIf (s.get Fld.CAD_COMMIT_RESULT == 1 && shadowC0 s) sleepExit s

/-- R162, R422: a write of 1 to CAD_COMMIT.GO; while RESULT reads PENDING it is ignored. In Freewheel a commit that gives
C0 entries first leaves Freewheel. -/
def cadCommitGo (s : State) : State :=
  if s.get Fld.CAD_COMMIT_RESULT = 1 then s
  else
    s |>.setWord Adr.CAD_COMMIT 0
      |>.set Fld.CAD_COMMIT_RESULT 1
      |>.cadUpd (fun c => { c with commitAt := some s.now })
      |> commitWakes

/-- R162: a write of 1 to CAD_COMMIT.GO. -/
def execCadCommitGo (s : State) : Result := done (cadCommitGo s)

/-- A pending commit may be applied: one that gives C0 entries not in a sleep state, none while the device leaves one (17 R421,
R422). -/
def commitMay (s : State) : Bool :=
  s.get Fld.CAD_COMMIT_RESULT == 1 &&
    (s.get Fld.CRP_SLEEP_STATE == 0 || (s.get Fld.CRP_SLEEP_STATE != 5 && !shadowC0 s))

/-- R162, R163: the boundary to come is the one at which the commit is applied or refused, ahead of a level change and share
records there; at the eighth it is without being asked. -/
def execCadenceCommitApply (s : State) : Result := done (doIf (commitMay s) (atBoundary .commit) s)

/-! ## The level check (07 R168) -/

/-- The first inequality of R168 that level `l` fails: DIR, CLASS, NEEDED, AVAIL. -/
def levelErr (s : State) (l : Nat) : Option (Bool × Nat × Nat × Nat) :=
  [false, true].findSome? fun up =>
    let e := s.active up l
    if 16 * entriesOf e 0 < s.weightSum up 0 then some (up, 0, ceilDiv (s.weightSum up 0) 16, entriesOf e 0)
    else if 16 * entriesOf e 1 < s.weightSum up 1 then some (up, 1, ceilDiv (s.weightSum up 1) 16, entriesOf e 1)
    else if s.linkUp ∧ s.get Fld.HL_LINK_STATUS_SLOT_CAP < entriesOf e 0 then
      some (up, 0, s.get Fld.HL_LINK_STATUS_SLOT_CAP, entriesOf e 0)
    else none

/-- A refused level change in CAD_LEVEL_LOG; CAD_LEVEL_REFUSED (07 Table 07-14). -/
def levelLog (source l : Nat) (up : Bool) (cls needed avail : Nat) (s : State) : State :=
  s |>.setWord Adr.CAD_LEVEL_LOG 0
    |>.set Fld.CAD_LEVEL_LOG_VALID 1 |>.set Fld.CAD_LEVEL_LOG_SOURCE source |>.set Fld.CAD_LEVEL_LOG_REQ_LEVEL l
    |>.set Fld.CAD_LEVEL_LOG_DIR up.toNat |>.set Fld.CAD_LEVEL_LOG_CLASS cls
    |>.set Fld.CAD_LEVEL_LOG_NEEDED needed |>.set Fld.CAD_LEVEL_LOG_AVAIL avail
    |> raise 258

/-- C0_OVERCOMMIT clears at the first boundary at which R168 holds at the current level (07 R169). -/
def updOvercommit (s : State) : State :=
  if s.isSet Fld.CAD_STATUS_C0_OVERCOMMIT ∧ (levelErr s s.level).isNone then s.set Fld.CAD_STATUS_C0_OVERCOMMIT 0 else s

/-! ## The stroke counter as read (07 R154) -/

/-- R154: a read of CAD_STROKE_LO latches bits [47:32] for the reading master. -/
def strokeLoRead (m : Master) (s : State) : State := setBank m Adr.CAD_STROKE_HI (BitVec.ofNat 32 s.nowHi) s

/-- LOCKED of the host-time discipline; CAD_PTM_LOCK is raised when it changes. -/
def setLocked (b : Bool) (s : State) : State :=
  if s.isSet Fld.CAD_PTM_STATUS_LOCKED = b then s
  else s |>.set Fld.CAD_PTM_STATUS_LOCKED b.toNat |>.set Fld.CAD_STATUS_PTM_LOCKED b.toNat |> raise 261

/-- HL_PTM_STATUS.VALID; HL_PTM is raised when it changes (04 R100). -/
def setPtmValid (b : Bool) (s : State) : State :=
  if s.isSet Fld.HL_PTM_STATUS_VALID = b then s else s.set Fld.HL_PTM_STATUS_VALID b.toNat |> raise 35

/-- The anchor: host time of the current stroke's boundary and that stroke's number (07 R155). -/
def ptmAnchor (host : Nat) (s : State) : State :=
  s |>.set Fld.CAD_HOSTT_LO_NS_LO (host % 2 ^ 32) |>.set Fld.CAD_HOSTT_HI_NS_HI (host / 2 ^ 32)
    |>.set Fld.CAD_HOSTT_STROKE_STROKE_LO s.nowLo
    |>.set Fld.CAD_PTM_STATUS_ANCHORED 1
    |>.cadUpd fun c => { c with anchor := s.now, ptmErr := 0 }

/-- The anchor's host time. -/
def State.anchorTime (s : State) : Nat := s.get Fld.CAD_HOSTT_LO_NS_LO + 2 ^ 32 * s.get Fld.CAD_HOSTT_HI_NS_HI

/-- The phase error E of a dialogue that gives host time `host` of the current stroke's boundary (07 R155). -/
def ptmError (s : State) (host : Nat) : Int := (s.anchorTime + 500 * s.since s.cad.anchor : Nat) - (host : Int)

/-- ERR_NS as the register shows it: two's complement, saturating at ±32,767. -/
def errNs (e : Int) : Nat := ((max (-32767) (min 32767 e)) % 65536).toNat

/-- A successful dialogue under DISCIPLINE. -/
def ptmDiscipline (host : Nat) (s : State) : State :=
  if ¬ s.isSet Fld.CAD_PTM_STATUS_ANCHORED then ptmAnchor host s
  else
    let e := ptmError s host
    let s := s.set Fld.CAD_PTM_STATUS_ERR_NS (errNs e)
    let good := if e.natAbs ≤ 8 then s.cad.ptmGood + 1 else 0
    s |>.cadUpd (fun c => { c with ptmErr := e, ptmGood := min good 16 })
      |> doIf (decide (16 ≤ good)) (setLocked true)
      |> doIf (decide (64 < e.natAbs)) (setLocked false)
      |> doIf (decide (1000000 < e.natAbs)) (fun s => ptmAnchor host s |>.inc Fld.CAD_PTM_STATUS_REANCHOR 1 |> raise 261)

/-- A dialogue is due: PTM enabled, AUTO, the link up, PERIOD strokes since the last. -/
def ptmDue (s : State) : Bool :=
  s.hl.ptmEn && s.isSet Fld.HL_PTM_CTL_AUTO && s.linkUp &&
    (match s.hl.ptmWait with | none => true | some t => s.reached t)

/-- The next dialogue is due PERIOD strokes on. -/
def ptmNext (s : State) : State :=
  s.hlUpd fun h => { h with ptmWait := some (s.now + BitVec.ofNat 48 (s.get Fld.HL_PTM_CTL_PERIOD)) }

/-- R97, R155: a PTM dialogue succeeds; `host` is the host time of the current stroke's boundary. -/
def execPtmDialogue (host : BitVec 64) (s : State) : Result :=
  done (if ptmDue s then
      s |> ptmNext |> emit (.pcie 0 "PTM" 0) |> setPtmValid true
        |>.cadUpd (fun c => { c with ptmFails := 0 })
        |> doIf (s.isSet Fld.CAD_PTM_CTL_DISCIPLINE) (ptmDiscipline host.toNat)
    else s)

/-- R97, R156: a dialogue gets no response; the sixteenth in a row ends LOCKED. -/
def execPtmResponseTimeout (s : State) : Result :=
  done (if ptmDue s then
      s |> ptmNext |> emit (.pcie 0 "PTM" 0) |>.inc Fld.HL_PTM_STATUS_FAILS 1 |> setPtmValid false
        |>.cadUpd (fun c => { c with ptmFails := min 16 (c.ptmFails + 1), ptmGood := 0 })
        |> doIf (decide (15 ≤ s.cad.ptmFails)) (setLocked false)
    else s)

/-- This member follows another member's strokes: it is joined, also while it leaves, is split off or has fenced itself, and does not
lead (07 R157). -/
def follows (s : State) : Bool :=
  [2, 3, 4, 5].contains (s.get Fld.PEL_STATUS_STATE) && s.get Fld.PEL_STATUS_LEADER != s.me

/-- DISCIPLINE is cleared: slipping ends, ANCHORED and LOCKED are cleared (07 R156). -/
def ptmOff (s : State) : State :=
  s |>.set Fld.CAD_PTM_CTL_DISCIPLINE 0 |>.set Fld.CAD_PTM_STATUS_ANCHORED 0 |> setLocked false
    |>.cadUpd (fun c => { c with ptmErr := 0, ptmGood := 0, ptmFails := 0 })

/-- On a member that follows another member's strokes DISCIPLINE reads 0 (07 R156): it is cleared when that begins. -/
def followStep (s : State) : State := doIf (follows s) ptmOff s

/-- A write of CAD_PTM_CTL: MIN_GAP below 16 is a reserved encoding; DISCIPLINE cannot be set on a following member;
clearing it ends slipping and clears ANCHORED and LOCKED. -/
def ptmCtlWrite (v : Word) (s : State) : State :=
  let gap := bitsOf v.toNat 7 0
  let on : Bool := bitOf v.toNat 31 && !follows s
  s |> doIf (decide (16 ≤ gap)) (·.set Fld.CAD_PTM_CTL_MIN_GAP gap)
    |> (if on then (·.set Fld.CAD_PTM_CTL_DISCIPLINE 1) else ptmOff)

/-- R156: a write of CAD_PTM_CTL. -/
def execCadPtmCtlWrite (v : Word) (s : State) : Result := done (ptmCtlWrite v s)

/-- R155: at a boundary, a slip stroke corrects 4 ns of a phase error above 4 ns, at most once per MIN_GAP strokes; in
Rest slipping pauses (17 R426). -/
def slip (s : State) : State :=
  let e := s.cad.ptmErr
  let gap : Bool := match s.cad.slipAt with | none => true | some t => decide (s.get Fld.CAD_PTM_CTL_MIN_GAP ≤ s.since t)
  if s.isSet Fld.CAD_PTM_CTL_DISCIPLINE ∧ s.isSet Fld.CAD_PTM_STATUS_ANCHORED ∧ 4 < e.natAbs ∧ e.natAbs ≤ 1000000 ∧ gap ∧
      ¬ s.inRest then
    s |>.cadUpd (fun c => { c with ptmErr := if 0 < e then e - 4 else e + 4, slipAt := some s.now })
      |>.inc (if 0 < e then Fld.CAD_SLIPS_LONG else Fld.CAD_SLIPS_SHORT) 1
  else s

end Sys2Proof.Machine
end

