-- ==== Sys2Proof/Machine/Power.lean ====
section
/-! DEFINITION. Machine/Power.lean: performance levels, the thermal policy and the power commands (17 R417 to R419, R430;
07 R168, R169; 16 Table 16-6). -/
namespace Sys2Proof.Machine

/-! ## Level changes (17 R417 to R419, Table 17-1) -/

/-- The level firmware adds to the effective level: none without AUTO_LEVEL. -/
def State.fwLevel (s : State) : Nat := if s.isSet Fld.CRP_LEVEL_AUTO then s.pwr.fw else 0

/-- The effective level that an ordered level, a thermal cap and a firmware level give. -/
def effective (ordered cap fw : Nat) : Nat := max ordered (max cap fw)

/-- The VID code of a level (02 Table 02-12). -/
def vidOf (l : Nat) : Nat := 56 - 8 * l

/-- No sleep state, entry or exit. -/
def State.awake (s : State) : Bool := s.get Fld.CRP_SLEEP_STATE == 0

/-- A firmware restart is under way (18 R440, R441). -/
def State.restarting (s : State) : Bool := s.isSet Fld.DEV_FAULT_STATUS_RESTARTING

/-- The VID code moved by one level, 8 codes. -/
def vidMove (down : Bool) (s : State) : State :=
  s.devUpd fun d => { d with vid := if down then d.vid - 8 else d.vid + 8 }

/-- Order stroke R: the standby PLLs start relocking, and for a higher voltage VID is raised one level. -/
def startChange (target src : Nat) (cmd ordered cap fw : Option Nat) (s : State) : State :=
  let raise : Bool := decide (target < s.level)
  let k := s.level - target
  let b := s.now + BitVec.ofNat 48 (if raise then max 41 (20 * k + 1) else 41)
  let c : LevelChange :=
    { target, src, cmd, ordered, cap, fw, r := s.now, b, vidAt := if raise ∧ 1 < k then some (s.now + 20) else none }
  s |> doIf raise (vidMove false) |>.pwrUpd fun p => { p with chg := some c }

/-- The device runs at a level from a boundary on: hub, slot plan and registers (07 R168, 17 R418). -/
def setLevel (l : Nat) (s : State) : State :=
  s |>.set Fld.CRP_LEVEL_CUR l |>.set Fld.CAD_STATUS_LEVEL l |>.inc Fld.CRP_LEVEL_CHANGES 1 |> updRsv |> raise 13

/-- What an accepted change brings beside the level: ORDERED, the thermal cap, the firmware level. -/
def takeLevel (ordered cap fw : Option Nat) (s : State) : State :=
  let s := match ordered with | some l => s.set Fld.CRP_LEVEL_ORDERED l | none => s
  let s := match cap with
    | some l =>
      let lower : Bool := decide (s.get Fld.CRP_LEVEL_CAP < l)
      s |>.set Fld.CRP_LEVEL_CAP l
        |> doIf lower (fun s => s |>.inc Fld.CRP_THROTTLE_CNT_STEPS 1 |>.set Fld.CAD_STATUS_THROTTLE_PEND 0
          |>.pwrUpd (fun p => { p with refusedAt := none }))
    | none => s
  match fw with | some l => s.pwrUpd (fun p => { p with fw := l }) | none => s

/-- An order that changes no effective level takes effect at once; PERF_SET completes with result stroke 0. -/
def levelSame (cmd ordered cap fw : Option Nat) (s : State) : State :=
  let s := takeLevel ordered cap fw s
  match cmd with | some id => cmdDone id 0 (leBytes 6 0) s | none => s

/-- A level order: a change is started, or nothing changes. -/
def levelOrder (target src : Nat) (cmd ordered cap fw : Option Nat) (s : State) : State :=
  if target = s.level then levelSame cmd ordered cap fw s else startChange target src cmd ordered cap fw s

/-- The last VID step of a change to a lower voltage is still to come. -/
def vidRest (c : LevelChange) (b : Stroke) (s : State) : State :=
  let more : LevelChange := { c with switched := true, vidAt := some (b + 20) }
  let next := if s.dev.vid.toNat = vidOf s.level then none else some more
  s.pwrUpd fun p => { p with chg := next }

/-- Stroke B: the R168 check; the level and its slot plan change together, or nothing does (07 R168, 17 R418). -/
def levelSwitch (c : LevelChange) (s : State) : State :=
  match levelErr s c.target with
  | none =>
    let down : Bool := decide (s.level < c.target)
    let s := s |> setLevel c.target |> takeLevel c.ordered c.cap c.fw |> doIf down (vidMove true)
    let s := vidRest c c.b s
    (match c.cmd with | some id => cmdDone id 0 (leBytes 6 c.b.toNat) s | none => s)
  | some (up, cls, need, avail) =>
    let s := levelLog c.src c.target up cls need avail s
    let throttle : Bool := match c.cap with | some l => decide (s.get Fld.CRP_LEVEL_CAP < l) | none => false
    let s := s |> doIf throttle (fun s => s.set Fld.CAD_STATUS_THROTTLE_PEND 1
      |>.pwrUpd (fun p => { p with refusedAt := some (p.refusedAt.getD c.b) }))
    let back : LevelChange := { c with refused := true, vidAt := some c.b }
    let next := if s.dev.vid.toNat = vidOf s.level then none else some back
    let s := s.pwrUpd fun p => { p with chg := next }
    match c.cmd with
    | some id => cmdDone id 0x0A (leBytes 4 (s.word Adr.CAD_LEVEL_LOG).toNat) s
    | none => s

/-- A change whose stroke B is the boundary to come, or has passed. -/
def switchDue (s : State) : Option LevelChange :=
  match s.pwr.chg with
  | some c => if ¬ c.switched ∧ ¬ c.refused ∧ s.reached (c.b - 1) ∧ s.mode ≠ .preserve then some c else none
  | none => none

/-- Firmware may order a level under AUTO_LEVEL: between the ordered level and POWER_POLICY's lowest (R417). -/
def fwMayOrder (s : State) (l : Nat) : Bool :=
  s.isSet Fld.CRP_LEVEL_AUTO && decide (s.get Fld.CRP_LEVEL_ORDERED ≤ l ∧ l ≤ s.get Fld.CRP_LEVEL_FLOOR)

/-- R418: an order is taken at stroke R: that of a waiting PERF_SET, otherwise a level no longer held down (R417); with `fw`, a level that
firmware chooses under AUTO_LEVEL is ordered, to be ranked as an order of the board controller at the end of the stroke (R417, 16 R395).
Only one change is in progress at a time (R419); during a firmware restart the level holds (18 R441). -/
def execLevelChangeOrder (fw : Option (Fin 4)) (s : State) : Result :=
  let cap := s.get Fld.CRP_LEVEL_CAP
  let ord := s.get Fld.CRP_LEVEL_ORDERED
  done (if s.pwr.chg.isSome ∨ ¬ s.awake ∨ s.restarting ∨ s.mode = .preserve then s
    else
      match fw, s.pwr.want with
      | some l, _ =>
        doIf (fwMayOrder s l) (·.pwrUpd fun p => { p with fwWant := some (.level l) }) s
      | none, some (l, src, id) =>
        s.pwrUpd (fun p => { p with want := none }) |> levelOrder (effective l cap s.fwLevel) src (some id) (some l) none none
      | none, none => levelOrder (effective ord cap s.fwLevel) 3 none none none none s)

/-- R168, R418: stroke B of the change in progress is the boundary to come; a commit there precedes it and share records follow
it (07 R163). -/
def execLevelSwitch (s : State) : Result := done (doIf (switchDue s).isSome (atBoundary .levelNow) s)

/-- One VID step of the change in progress: toward the new level before B and after an accepted change, back to the
current one after a refusal. -/
def vidStep (c : LevelChange) (s : State) : State :=
  let ended := c.switched || c.refused
  let goal := vidOf (if ended then s.level else c.target)
  let v := s.dev.vid.toNat
  let v1 := if v < goal then v + 8 else if goal < v then v - 8 else v
  let held : LevelChange := { c with vidAt := none }
  let more : LevelChange := { c with vidAt := c.vidAt.map (· + 20) }
  let next := if v1 ≠ goal then some more else if ended then none else some held
  s |> doIf (v != v1) (vidMove (decide (v1 < v))) |>.pwrUpd fun p => { p with chg := next }

/-- R418: every 20 strokes VID moves one 50 mV level. -/
def execVidStep (s : State) : Result :=
  done (match s.pwr.chg with
    | some c =>
      (match c.vidAt with
        | some t => if s.reached t ∧ s.mode ≠ .preserve then vidStep c s else s
        | none => s)
    | none => s)

/-! ## The thermal policy (17 R430, 07 R169) -/

/-- The thermal cap moved to `cap`, by a level change where the effective level follows. -/
def capOrder (cap : Nat) (s : State) : State :=
  levelOrder (effective (s.get Fld.CRP_LEVEL_ORDERED) cap s.fwLevel) 2 none none (some cap) none s

/-- R169: GRACE strokes after its first refusal a throttle step is applied without the check; VID follows where the level
does, so that only the codes of 02 Table 02-12 are driven. -/
def execThrottleGraceExpiry (s : State) : Result :=
  let cap := s.get Fld.CRP_LEVEL_CAP + 1
  let due : Bool := match s.pwr.refusedAt with
    | some t => s.isSet Fld.CAD_STATUS_THROTTLE_PEND && s.get Fld.CAD_THROTTLE_GRACE != 0 &&
        s.reached (t + BitVec.ofNat 48 (s.get Fld.CAD_THROTTLE_GRACE))
    | none => false
  let free : Bool := match s.pwr.chg with | none => true | some c => c.cap == some cap && !c.switched && !c.refused
  done (if due ∧ free ∧ cap ≤ 3 ∧ s.awake ∧ ¬ s.restarting ∧ s.mode ≠ .preserve then
      let target := effective (s.get Fld.CRP_LEVEL_ORDERED) cap s.fwLevel
      let bad := (levelErr s target).isSome
      let c : LevelChange := { target, src := 2, r := s.now, b := s.now }
      let lower : Bool := decide (s.level < target)
      s |> doIf lower (setLevel target) |> takeLevel none (some cap) none |>.inc Fld.CRP_THROTTLE_CNT_FORCED 1
        |> doIf bad (fun s => s |>.set Fld.CAD_STATUS_C0_OVERCOMMIT 1 |> raise 259)
        |> doIf lower (fun s => vidMove true s |>.pwrUpd (fun p => { p with chg := some c }) |> vidRest c s.now)
    else s)

/-- A temperature in eighths of a degree. -/
def tempOf (t : BitVec 16) : Int := t.toInt

/-- The sensor registers follow a refresh (17 Table 17-8). -/
def setTemps (t : List (BitVec 16)) (s : State) : State :=
  let top := (t.map tempOf).foldl max (-32768)
  let hwm := tempOf (BitVec.ofNat 16 (s.get Fld.CRP_TEMP_MAX_HWM))
  s |> doAll (List.range 8) (fun k s => s.set (Fld.CRP_TEMP_TEMP k) (t.getD k 0).toNat)
    |>.set Fld.CRP_TEMP_MAX_HOTTEST ((t.findIdx? fun x => tempOf x == top).getD 0)
    |> doIf (decide (hwm < top)) (·.set Fld.CRP_TEMP_MAX_HWM (BitVec.ofInt 16 top).toNat)

/-- The thermal policy at a refresh whose hottest reading is `top` eighths of a degree. -/
def thermalPolicy (top : Int) (s : State) : State :=
  let may := s.awake && s.pwr.chg.isNone && !s.restarting
  let cap := s.get Fld.CRP_LEVEL_CAP
  if 800 ≤ top then
    let s := if s.pwr.hot then s else raise 2 s |>.pwrUpd (fun p => { p with hot := true, stepAt := none })
    let due : Bool := s.isSet Fld.CAD_STATUS_THROTTLE_PEND ||
      (match s.pwr.stepAt with | none => true | some t => decide (s.get Fld.CRP_THERM_STEP_GAP ≤ s.since t))
    s.pwrUpd (fun p => { p with cool := 0 })
      |> doIf (due && may && decide (cap < 3)) (fun s => s.pwrUpd (fun p => { p with stepAt := some s.now }) |> capOrder (cap + 1))
  else
    let cold : Bool := decide (top < 800 - 8 * (s.get Fld.CRP_THERM_HYST : Int))
    let n := if cold then min 64 (s.pwr.cool + 1) else 0
    s |>.set Fld.CAD_STATUS_THROTTLE_PEND 0
      |>.pwrUpd (fun p => { p with hot := false, stepAt := none, refusedAt := none, cool := n })
      |> doIf (n == 64 && may && decide (0 < cap)) (fun s => s.pwrUpd (fun p => { p with cool := 0 }) |> capOrder (cap - 1))

/-- The hottest of the eight sensor readings (02 R44), in eighths of a degree. -/
def State.hottest (s : State) : Int :=
  (((List.range 8).map fun k => tempOf (BitVec.ofNat 16 (s.get (Fld.CRP_TEMP_TEMP k)))).foldl max (-32768))

/-- The kickstand domain recognises board signals: supplies are up and no system reset is held. -/
def recognises (s : State) : Bool := !s.dev.sysRst && s.mode != .preserve

/-- THERM_TRIP is recognised: source 3, PRESERVE; for its own trip the device asserts THERM_TRIP_N until the next system
reset (17 R431). -/
def thermTrip (own : Bool) (s : State) : State :=
  s |> raise 3
    |> doIf own (fun s => s.devUpd (fun d => { d with tripOut := true }) |>.inc Fld.CRP_THROTTLE_CNT_TRIPS 1)
    |> orderPreserve 8

/-- The device's own trip: 115 °C on the hottest sensor, once until the next system reset (02 R44, 17 R431). -/
def ownTrip (s : State) : State := if recognises s ∧ ¬ s.dev.tripOut ∧ 920 ≤ s.hottest then thermTrip true s else s

/-- R430, R431: every 64 strokes the eight sensors are read, in eighths of a degree, and the thermal policy and the trip at
115 °C act on the hottest. -/
def execThermalRefresh (t0 t1 t2 t3 t4 t5 t6 t7 : BitVec 16) (s : State) : Result :=
  let t := [t0, t1, t2, t3, t4, t5, t6, t7]
  let due : Bool := match s.pwr.refreshed with | none => true | some r => decide (64 ≤ s.since r)
  done (if due ∧ s.mode ≠ .preserve then
      s.pwrUpd (fun p => { p with refreshed := some s.now })
        |> setTemps t
        |> thermalPolicy ((t.map tempOf).foldl max (-32768))
        |> ownTrip
    else s)

/-! ## Power commands (16 Table 16-6) -/

/-- R418: PERF_SET waits for its order stroke; its level change completes it. In a sleep state it is served after the exit
(17 R429). -/
def execPerfSet (mb : Fin 1032) (core : Fin 4) (s : State) : Result :=
  if s.awake then
    startCmd mb core 0x0101 (fun x s =>
      s.pwrUpd fun p => { p with want := some (leAt x.args 0 1, if x.mb = 4 then 1 else 0, x.id) }) s
  else done s

/-- The wake-enable bitmap of 48 bits. -/
def State.wakeEn (s : State) : Nat := s.get Fld.KS_WAKE_EN_LO_EN + 2 ^ 32 * s.get Fld.KS_WAKE_EN_HI_EN

/-- The bitmap written: the bits of sources 1, 17 and 18 read 1 (17 R427). -/
def setWakeEn (v : Nat) (s : State) : State :=
  let v := [1, 17, 18].foldl (fun v n => match wakeIndex n with | some i => orBit v i | none => v) v
  s |>.set Fld.KS_WAKE_EN_LO_EN (v % 2 ^ 32) |>.set Fld.KS_WAKE_EN_HI_EN (v / 2 ^ 32)

/-- R427: WAKE_CFG writes the wake-enable bitmap and returns the previous one. -/
def execWakeCfg (mb : Fin 1032) (core : Fin 4) (s : State) : Result :=
  if s.awake then
    runCmd mb core 0x0103 (fun x s => (setWakeEn (leAt x.args 0 6) s, 0, leBytes 6 s.wakeEn)) s
  else done s

/-- R402: THERM_QUERY. -/
def execThermQuery (mb : Fin 1032) (core : Fin 4) (s : State) : Result :=
  runCmd mb core 0x0104 (fun _ s =>
    (s, 0, (List.range 8).flatMap (fun k => leBytes 2 (s.get (Fld.CRP_TEMP_TEMP k))) ++ leBytes 1 (s.get Fld.CRP_TEMP_MAX_HOTTEST))) s

/-- R417: POWER_POLICY sets IDLE_SLEEP, AUTO_LEVEL and the lowest level, and returns the previous values. -/
def execPowerPolicy (mb : Fin 1032) (core : Fin 4) (s : State) : Result :=
  if s.awake then
    runCmd mb core 0x0105 (fun x s =>
      let old := s.get Fld.CRP_LEVEL_IDLE_SLEEP + 2 * s.get Fld.CRP_LEVEL_AUTO
      let v := leAt x.args 0 1
      (s |>.set Fld.CRP_LEVEL_IDLE_SLEEP (v % 2) |>.set Fld.CRP_LEVEL_AUTO (v / 2) |>.set Fld.CRP_LEVEL_FLOOR (leAt x.args 1 1),
        0, leBytes 1 old ++ leBytes 1 (s.get Fld.CRP_LEVEL_FLOOR))) s
  else done s

/-- The sleep state as the query commands give it: 0 none, 1 Freewheel, 2 Rest. -/
def State.sleepCode (s : State) : Nat :=
  if s.get Fld.CRP_SLEEP_STATE = 2 then 1 else if s.get Fld.CRP_SLEEP_STATE = 4 then 2 else 0

/-- R402: POWER_QUERY; the power estimate is a value the device measures (log 7). -/
def execPowerQuery (mb : Fin 1032) (core : Fin 4) (s : State) : Result :=
  runCmd mb core 0x0106 (fun _ s =>
    (s.drewOne, 0, leBytes 1 (s.get Fld.CRP_LEVEL_CUR) ++ leBytes 1 s.sleepCode ++ leBytes 2 0 ++
      leBytes 4 (s.word Adr.KS_LAST_WAKE).toNat ++ leBytes 4 (s.draw.toNat % 2 ^ 32))) s

end Sys2Proof.Machine
end

