-- ==== Sys2Proof/Machine/Tandem.lean ====
section
/-! DEFINITION. Machine/Tandem.lean: STATE messages and what the two sides of a tandem pair do when it is made, changed and
ended (14 R351, R355 to R357). -/
namespace Sys2Proof.Machine

/-- A STATE message (14 R351): DST_CTX 0, WIN 0, OFFSET 0. Its CLASS, which no rule gives, is C2
(log 41). -/
def stateMsg (s : State) (dst c : Nat) (data : List Byte) : UMsg :=
  { mtype := 7, cls := 2, dst := dst, src := s.me * 1024 + c, data := data }

/-- A STATE message about local context `c` is sent on the route to a member; `false` where there is none. During a firmware restart it
waits (18 R441). -/
def sendState (dst stype c : Nat) (data : List Byte) (s : State) : State × Bool :=
  match s.route dst with
  | some k =>
    if s.restarting then ({ s with pel := { s.pel with stateWait := s.pel.stateWait ++ [(dst, stype, c, data)] } }, true)
    else (sendReq k (.state stype c) (stateMsg s dst c data) s, true)
  | none => (s, false)

/-- The seven words of a share record in force. -/
def shareWords (s : State) (c : Nat) : List Word := (List.range 7).map fun i => s.word (Adr.CTX_SHARE0 c + 4 * i)

/-- A share record of no shares. -/
def noShare : List Word := List.replicate 7 0

/-- The 52 bytes of a TANDEM (14 Table 14-4). -/
def tandemData (s : State) (c sc op : Nat) (words : List Word) : List Byte :=
  leBytes 1 4 ++ leBytes 2 c ++ leBytes 2 sc ++ leBytes 1 op ++ leBytes 2 0 ++
    words.flatMap (fun w => leBytes 4 w.toNat) ++ leBytes 4 0 ++
    leBytes 4 (s.get Fld.DS_MIRROR_CTL_ACK_TMO) ++ leBytes 8 (s.wseq c)

/-- The partner copies nothing back of an aperture any more: what it has not copied is LOST (11 R269). -/
def loseBack (a : Nat) (s : State) : State :=
  let us := s.ds.back.filter fun u => u.1 == a
  s.dsUpd (fun d => { d with back := d.back.filter (fun u => u.1 != a), backFor := d.backFor.filter fun x => x.2 != a }) |> loseUnits us

/-- A recorded pairing of a local context is forgotten. -/
def pairForget (c : Nat) (s : State) : State :=
  let l := s.ds.pairs.filter fun r => r.ctx == c
  s.dsUpd (fun d => { d with pairs := d.pairs.filter fun r => r.ctx != c }) |> doAll l (fun r => loseBack r.apt)

/-- PEL_TANDEM of a context names its partner; CLEAN_OK is computed where the word is read. -/
def setPair (c role member pctx : Nat) (s : State) : State :=
  s |> pairForget c
    |>.setWord (Adr.PEL_TANDEM c) 0
    |>.set (Fld.PEL_TANDEM_ROLE c) role |>.set (Fld.PEL_TANDEM_PEER_MEMBER c) member
    |>.set (Fld.PEL_TANDEM_PEER_CTX c) pctx

/-- The home side of a pairing ends: at the next boundary its aperture enters SOLO (14 Table 14-5, 11 R261). -/
def unpairHome (c : Nat) (s : State) : State :=
  (match (s.ctx c).apt with | some a => s |> soloNext [a] |> loseBack a | none => s)
    |> pairForget c |>.setWord (Adr.PEL_TANDEM c) 0

/-- The standby side of a pairing ends: its aperture is erased and its reservation released (14 Table 14-5). -/
def unpairStandby (c : Nat) (s : State) : State :=
  (match tabGet (fun _ => none) s.ds.standby c with | some a => aptErase a s | none => s)
    |>.dsUpd (fun d => { d with standby := tabSet (fun _ => none) d.standby c none })
    |> setShare c noShare
    |> pairForget c
    |>.setWord (Adr.PEL_TANDEM c) 0
    |>.setWord (Adr.PEL_GEN c) 0

/-- The home context tells its partner of a reset (op 2) or of the end of the pairing (op 3). -/
def tandemTell (c op : Nat) (s : State) : State :=
  match s.partner c with
  | some (m, sc) => (sendState m 4 c (tandemData s c sc op (shareWords s c)) s).1
  | none => s

end Sys2Proof.Machine
end

