-- ==== Sys2Proof/Machine/Contexts.lean ====
section
/-! DEFINITION. Machine/Contexts.lean: share records, reset and destroy of contexts, the context watchdog, and the context
commands (05 R104 to R123; 16 Table 16-7). -/
namespace Sys2Proof.Machine

/-! ## Share records (05 R107 to R111) -/

/-- A sum would exceed its pool and also rise (R108). -/
def poolOver (pool sum old new : Nat) : Bool := decide (pool < sum + new - old ∧ old < new)

/-- R108: a record for a context exceeds a pool. -/
def shareOver (s : State) (c : Nat) (w : List Word) : Bool :=
  let n (i : Nat) : Nat := (w.getD i 0).toNat
  let units := (s.ctxIds.map fun x => s.get (Fld.CTX_SHARE6_DUR_UNITS x)).sum
  poolOver 8192 (s.get Fld.CTX_POOL_QP_GRANTED) (s.qpMax c) (bitsOf (n 4) 30 24) ||
  poolOver 16384 (s.get Fld.CTX_POOL_VEC_GRANTED) (s.vectorsOf c) (bitsOf (n 5) 30 24) ||
  poolOver (s.get Fld.DS_CFG_CAP_UNITS) units (s.get (Fld.CTX_SHARE6_DUR_UNITS c)) (bitsOf (n 6) 8 0) ||
  poolOver (s.get Fld.DS_CACHE_TOTAL_MIB) (s.get Fld.DS_CACHE_GRANTED_MIB) (s.get (Fld.CTX_SHARE6_CACHE_MIB c)) (bitsOf (n 6) 31 16) ||
  poolOver (16 * entriesOf (s.active false s.level) 0) (s.weightSum false 0) (s.weight c false 0) (bitsOf (n 0) 15 0) ||
  poolOver (16 * entriesOf (s.active false s.level) 1) (s.weightSum false 1) (s.weight c false 1) (bitsOf (n 0) 31 16) ||
  poolOver (16 * entriesOf (s.active true s.level) 0) (s.weightSum true 0) (s.weight c true 0) (bitsOf (n 2) 15 0) ||
  poolOver (16 * entriesOf (s.active true s.level) 1) (s.weightSum true 1) (s.weight c true 1) (bitsOf (n 2) 31 16)

/-- One past the highest MSI-X entry that an enabled queue pair's coalescing group uses. -/
def vectorsUsed (s : State) (c : Nat) : Nat :=
  ((List.range 64).map fun q =>
    if s.isSet (Fld.QP_STATUS_EN_ACTIVE c q) ∨ s.isSet (Fld.CQ_EVT_CFG_EN c q) then s.get (Fld.CQ_EVT_CFG_VECTOR c q) + 1 else 0).foldl max 0

/-- Table 05-6: the record lies below a use that may not shrink. -/
def shareBusy (s : State) (c : Nat) (w : List Word) : Bool :=
  let n (i : Nat) : Nat := (w.getD i 0).toNat
  decide (bitsOf (n 4) 30 24 < s.get (Fld.CTX_CAPS_QP_EN c)) || (s.cst c == 3 && bitsOf (n 4) 30 24 == 0) ||
  decide (bitsOf (n 5) 30 24 < vectorsUsed s c) ||
  decide (bitsOf (n 5) 14 0 < mappedMib s c 16) ||
  (match (s.ctx c).apt with | some a => decide (bitsOf (n 6) 8 0 < s.get (Fld.DS_APT_STATUS_UNITS a)) | none => false)

/-- The boundary an order stamped `stamp` takes effect at: `d` strokes after the stamp, at most 200, and not in the past
(05 R110). -/
def orderAt (s : State) (stamp : Stroke) (d : Nat) : Stroke :=
  let t := stamp + BitVec.ofNat 48 (max 1 d)
  if s.reached t then s.now + 1 else t

/-- The words of a share record in the arguments of a command. -/
def argWords (a : List Byte) : List Word := (List.range 7).map fun i => BitVec.ofNat 32 (leAt a (4 + 4 * i) 4)

/-- The status a context command gets for the context it names: ABSENT, STANDBY and MOVED (05 R106, R114). -/
def ctxCmdErr (s : State) (c : Nat) : Option Nat :=
  match s.cst c with
  | 0 => some 3
  | 6 | 7 => some 1
  | _ => none

/-- A reset or destroy of a context is pending, from the stamp of its cause, or in progress: also one whose command no core has
taken (05 R110). -/
def resetPending (s : State) (c : Nat) : Bool :=
  (s.ctx c).op.isSome ||
    s.cmds.any fun x => (x.op == 0x0203 || x.op == 0x0204) && leAt x.args 0 2 == c && !x.dropped && !x.fwd

/-- R110: a share record is validated and scheduled whole; on a paired home context the partner must reserve it first
(14 R357). -/
def ctxSetShare (d : Nat) (x : Cmd) (s : State) : State :=
  let c := leAt x.args 0 2
  let w := argWords x.args
  match ctxCmdErr s c with
  | some e => cmdDone x.id e [] s
  | none =>
    if resetPending s c then cmdDone x.id 1 [] s
    else if shareOver s c w then cmdDone x.id 4 [] s
    else if shareBusy s c w then cmdDone x.id 1 [] s
    else
      let t := orderAt s x.stamp d
      match s.partner c with
      | none => s.ctxUpd c fun y => { y with share := some ⟨t, x.stamp, w, x.id⟩ }
      | some (m, sc) =>
        let p : Pairing := { op := 1, member := m, sctx := sc, cmd := x.id, words := w, at_ := t }
        let (s, ok) := sendState m 4 c (tandemData s c sc 1 w) s
        if ok then s.ctxUpd c fun y => { y with pairing := some p } else cmdDone x.id 4 [] s

/-- R110: CTX_SET_SHARE; `d` says how many strokes after the stamp the record takes effect. -/
def execCtxSetShare (mb : Fin 1032) (core : Fin 4) (d : Fin 201) (s : State) : Result :=
  startCmd mb core 0x0202 (ctxSetShare d) s

/-- A share change of a context that waits, for its boundary or for the partner, completes with BUSY (05 R110). -/
def shareGone (c : Nat) (s : State) : State :=
  let x := s.ctx c
  s.ctxUpd c (fun y => { y with share := none, pairing := y.pairing.filter fun p => p.op != 1 })
    |> (fun s => match x.share with | some p => cmdDone p.cmd 1 [] s | none => s)
    |> (fun s => match x.pairing with | some p => doIf (p.op == 1) (cmdDone p.cmd 1 []) s | none => s)

/-- A record whose boundary is the one to come, or has passed. -/
def shareDue (s : State) (c : Nat) : Option SharePend :=
  match (s.ctx c).share with
  | some p => if s.reached (p.at_ - 1) then some p else none
  | none => none

/-- A record takes effect whole at its boundary: BARE and IDLE follow QP_MAX and DESC_MAX; a record that no longer fits a
pool completes with NO_RESOURCE, one that Table 05-6 refuses or that meets a reset or destroy with BUSY (05 R110, Table 05-3;
07 R163). -/
def shareApply (c : Nat) (p : SharePend) (s : State) : State :=
  let s := s.ctxUpd c fun y => { y with share := none }
  if resetPending s c then cmdDone p.cmd 1 [] s
  else if (ctxCmdErr s c).isSome then cmdDone p.cmd ((ctxCmdErr s c).getD 1) [] s
  else if shareOver s c p.words then cmdDone p.cmd 4 [] s
  else if shareBusy s c p.words then cmdDone p.cmd 1 [] s
  else
    let s := setShare c p.words s |>.set (Fld.CTX_SHARE7_STROKE_LO c) (p.at_.toNat % 2 ^ 32)
    let some_ : Bool := decide (1 ≤ s.qpMax c ∧ 16 ≤ s.descMax c)
    s |> doIf (s.cst c == 1 && some_) (·.set (Fld.CTX_STATE_STATE c) 2)
      |> doIf (s.cst c == 2 && !some_) (·.set (Fld.CTX_STATE_STATE c) 1)
      |> updOverDesc c
      |> cmdDone p.cmd 0 (leBytes 6 p.at_.toNat)

/-- R110, R163: an accepted record is due at the boundary to come, where it takes effect after a level change and in the order
of the stamps. -/
def execShareRecordApply (c : Fin 1024) (s : State) : Result := done (doIf (shareDue s c).isSome (atBoundary (.shareNow c)) s)

/-! ## The watchdog (05 R122) -/

/-- A CTX_SEL_WDOG image written for a context: reserved encodings keep the field, the counter reloads; OFF counts never. -/
def wdogWrite (c v : Nat) (s : State) : State :=
  let mode := if bitsOf v 31 30 = 3 then s.get (Fld.CTX_SEL_WDOG_MODE c) else bitsOf v 31 30
  let period := if bitsOf v 23 0 < 1000 then s.get (Fld.CTX_SEL_WDOG_PERIOD c) else bitsOf v 23 0
  s |>.set (Fld.CTX_SEL_WDOG_MODE c) mode |>.set (Fld.CTX_SEL_WDOG_ACTION c) (bitsOf v 29 29)
    |>.set (Fld.CTX_SEL_WDOG_PERIOD c) period
    |>.set (Fld.CTX_WDOG_STATUS_MODE c) mode |>.set (Fld.CTX_WDOG_STATUS_ACTION c) (bitsOf v 29 29)
    |>.set (Fld.CTX_WDOG_STATUS_REMAIN c) (if mode = 0 then 0 else period)
    |> doIf (mode == 0) (·.set (Fld.CTX_WDOG_STATUS_RUNNING c) 0)

/-- The watchdog of a context counts in this stroke (05 Table 05-11). -/
def wdogRuns (s : State) (c : Nat) : Bool :=
  s.live c && !(s.fn c).d3 && s.get (Fld.CTX_WDOG_STATUS_REMAIN c) != 0 &&
    (match s.get (Fld.CTX_WDOG_STATUS_MODE c) with
      | 1 => true
      | 2 => s.get (Fld.CTX_OCC_OUTSTANDING c) != 0
      | _ => false)

/-- R122: a write of CTX_WDOG_KICK by the context's function reloads a KICK-mode watchdog. -/
def wdogKick (c : Nat) (s : State) : State := doIf (s.get (Fld.CTX_WDOG_STATUS_MODE c) == 1) (wdogReload c) s

/-- A write of CTX_WDOG_KICK of a function that exists. -/
def wdogKicked (c : Nat) (s : State) : State := doIf (s.fn c).enabled (wdogKick c) s

/-- R122: a write of CTX_WDOG_KICK. -/
def execCtxWdogKickWrite (c : Fin 1024) (s : State) : Result :=
  done (hostPosted c (.ctxWdogKickWrite c) (inOrder c s.now (.ctxWdogKickWrite c) (wdogKicked c)) s)

/-- R114, R122: a write of CTX_SEL_WDOG acts on the context the writing master selects; the physical function may not
configure context 0's; ABSENT, STANDBY and MOVED contexts are left alone. -/
def selWdogWrite (m : Master) (v : Word) (s : State) : State :=
  let c := bitsOf (s.bank m Adr.CTX_SEL).toNat 9 0
  let denied : Bool := match m with | .host _ => c == 0 | _ => false
  if denied ∨ (ctxCmdErr s c).isSome then s else wdogWrite c v.toNat s

/-- R122: CTX_WDOG_CFG. -/
def execCtxWdogCfg (mb : Fin 1032) (core : Fin 4) (s : State) : Result :=
  runCmd mb core 0x0205 (fun x s =>
    let c := leAt x.args 0 2
    match ctxCmdErr s c with
    | some e => (s, e, [])
    | none => (wdogWrite c (leAt x.args 4 4) s, 0, [])) s

/-! ## Reset and destroy (05 R115 to R120) -/

/-- A destroy joins a reset whose partner was told of a reset only: it learns of the end of the pairing (14 Table 14-5). -/
def joinsAsDestroy (s : State) (c : Nat) (o : CtxOp) : Bool :=
  (s.cst c == 4 || s.cst c == 5) && o.destroy && (match (s.ctx c).op with | some p => !p.destroy | none => false)

/-- A reset or destroy starts, or joins the one pending or in progress (R120). -/
def ctxOrder (c : Nat) (o : CtxOp) (s : State) : State :=
  doIf (joinsAsDestroy s c o) (tandemTell c 3) s |>.ctxUpd c fun x =>
    { x with op := some (match x.op with
      | none => o
      | some p => { p with destroy := p.destroy || o.destroy, absent := p.absent || o.absent, host := p.host && o.host,
                           cpl := p.cpl && o.cpl, cause := if o.cause = 0 then p.cause else o.cause,
                           cmds := p.cmds ++ o.cmds }) }

/-- A reset or destroy ordered by something that is no command: D is the boundary after the cause. -/
def ctxCause (c : Nat) (destroy absent host : Bool) (cause : Nat) (s : State) : State :=
  ctxOrder c { destroy, absent, host, cpl := host, cause, stamp := s.now, start := s.now + 1, cmds := [] } s

/-- A CTX_RESET or CTX_DESTROY is executed: it completes at the end of the squash. -/
def ctxCommand (destroy : Bool) (d : Nat) (x : Cmd) (s : State) : State :=
  let c := leAt x.args 0 2
  match ctxCmdErr s c with
  | some e => cmdDone x.id e [] s
  | none =>
    ctxOrder c { destroy, absent := false, host := true, cpl := true, cause := if destroy then 3 else 2, stamp := x.stamp,
                 start := orderAt s x.stamp d, cmds := [x.id] } s

/-- R115: CTX_RESET; `d` says how many strokes after the stamp DRAIN begins. -/
def execCtxReset (mb : Fin 1032) (core : Fin 4) (d : Fin 201) (s : State) : Result :=
  startCmd mb core 0x0203 (ctxCommand false d) s

/-- R115: CTX_DESTROY; `d` says how many strokes after the stamp DRAIN begins. -/
def execCtxDestroy (mb : Fin 1032) (core : Fin 4) (d : Fin 201) (s : State) : Result :=
  startCmd mb core 0x0204 (ctxCommand true d) s

/-- A later CTX_RESET or CTX_DESTROY that waits joins the operation of its context, and a later CTX_SET_SHARE ends BUSY, at the boundary
after its stamp; neither waits for a core (16 R394, 05 R110, R120). -/
def ctxLater (s : State) (x : Cmd) : Bool :=
  [0x0202, 0x0203, 0x0204].contains x.op && x.ranked && !x.fwd && !x.dropped && x.core.isNone && s.get (mbxState x.mb) == 1 &&
    ((s.ctx (leAt x.args 0 2)).op.isSome ||
      (x.op == 0x0202 && s.cmds.any fun y => [0x0203, 0x0204].contains y.op && y.obj == x.obj && !y.dropped && y.stamp != x.stamp && decide (y.id < x.id)))

/-- Such a command at the boundary. -/
def ctxJoin (x : Cmd) (s : State) : State :=
  if x.op = 0x0202 then cmdDone x.id 1 [] s else s.set (mbxState x.mb) 2 |> ctxCommand (x.op == 0x0204) 0 x

/-- The later orders on contexts that a reset or destroy holds, at a boundary. -/
def joinsStep (s : State) : State := s |> doAll (s.cmds.filter (ctxLater s)) ctxJoin

/-- The context on whose behalf the device sent a request. -/
def srcCtx (s : State) : ReqSrc → Option Nat
  | .hostRead id _ => (s.hreads.find? fun r => r.id == id).map fun r => r.c
  | .hostWrite c _ _ _ _ => some c
  | .desc k _ _ => some k.c
  | .spec c _ _ => some c
  | _ => none

/-- A waiting item moves for a context itself: its host requests, its descriptors, its speculative reads, the accepted
upstream writes into it. Staged BAR4
writes, mirror copies, responses and routed items are not among them. -/
def workOf (s : State) (c : Nat) : Work → Bool
  | .hostWrite d _ _ _ _ _ _ _ _ _ => d == c
  | .hostRead id | .hostData id => s.hreads.any fun r => r.id == id && r.c == c
  | .descLocal _ e | .spec _ e => (match e.src with | some x => srcCtx s x == some c | none => false)
  | .descPeer k _ _ _ | .descHost k _ _ _ | .descDur k _ _ _ _ => k.c == c
  | .upWrite _ d _ _ _ _ => d == c
  | _ => false

/-- A waiting item belongs to a context: its work, or the data of an upstream read charged to it. -/
def itemOfCtx (s : State) (c : Nat) (i : Item) : Bool :=
  workOf s c i.work || (i.ctx == c && (match i.work with | .upData _ _ _ => true | _ => false))

/-- Everything of a context has retired: descriptors and completion entries, tags, local and peer transactions
(R116, 03 R64). -/
def ctxQuiet (s : State) (c : Nat) : Bool :=
  (List.range 64).all (fun q => (s.qp c q).descs.isEmpty && (s.qp c q).cpls.isEmpty) &&
    !(s.hl.tags.any fun t => t.2.ctx == c && !t.2.quarantined) &&
    !(s.hreads.any fun r => r.c == c) &&
    !(s.cad.items.any (itemOfCtx s c)) &&
    !(s.ritems.any fun r => r.tested && !routePeer r.route && routeCtx r.route == c) &&
    [0, 1, 2, 3].all (fun p =>
      !((s.lb p).reqs.any fun r => srcCtx s r.src == some c) &&
        !((s.lb p).egress.any fun e => e.host == some c || (match e.src with | some x => srcCtx s x == some c | none => false)) &&
        !((s.lb p).ups.any fun u => u.c == c)) &&
    [0, 1, 2, 3].all (fun k => !((s.link k).reqs.any fun r => srcCtx s r.2.1 == some c))

/-- The aperture of a context is detached. -/
def detachOf (c : Nat) (s : State) : State := match (s.ctx c).apt with | some a => aptDetach a s | none => s

/-- A destroyed context loses its share, windows and aperture; its watchdog is off; a pairing of its ends (Table 05-9). -/
def ctxDestroyed (c : Nat) (s : State) : State :=
  s |> setShare c noShare |>.setWord (Adr.CTX_SHARE7 c) 0
    |> doAll (List.range 16) (fun w s => winUnmapApply c w s)
    |> detachOf c
    |>.set (Fld.CTX_SEL_WDOG_MODE c) 0 |>.set (Fld.CTX_WDOG_STATUS_MODE c) 0 |>.set (Fld.CTX_WDOG_STATUS_REMAIN c) 0
    |>.set (Fld.CTX_WDOG_STATUS_RUNNING c) 0
    |> doIf (s.partner c).isSome (unpairHome c)

/-- A bit of a context in a bitmap of 32 registers. -/
def setCtxBit (f : Nat → Field) (c : Nat) (s : State) : State := s.set (f (c / 32)) (orBit (s.get (f (c / 32))) (c % 32))

/-- The end of a reset or destroy: end state, CTX_RESET_PEND, the reset-done event, the ordering commands (R117); LAST_CAUSE
is 0 where Table 05-8 has a dash (log 162). RESETS counts a destroy, and a reset of a BARE context, as a reset completed (DESIGN
CHOICE, log 212). -/
def ctxEnd (c : Nat) (o : CtxOp) (s : State) : State :=
  let st := if o.absent then 0 else if o.destroy then 1 else if s.cst c = 1 then 1 else 2
  s |> doIf o.destroy (ctxDestroyed c)
    |>.set (Fld.CTX_STATE_STATE c) st
    |>.set (Fld.CTX_STATE_LAST_CAUSE c) o.cause
    |>.inc (Fld.CTX_STATE_RESETS c) 1
    |>.ctxUpd c (fun x => { x with op := none })
    |> setCtxBit Fld.CTX_RESET_PEND_CTX c
    |> ctxEvent 0 1
    |> doAll o.cmds (fun id => cmdDone id 0 (leBytes 6 o.start.toNat ++ leBytes 1 st))

/-- The completion entries of the descriptors that the squash itself completes are written where the ring and the host link
take them at once; the rest is abandoned (R117). -/
def flushEntries (c q : Nat) : List Cpl → State → State
  | [], s => s
  | e :: es, s =>
    if s.cqFull c q ∨ (s.qp c q).resv ≠ [] then s.set (Fld.CTX_STATE_CPL_DROPPED c) 1
    else
      match hostWay (.entry c) c (cqSlotAddr s c q (s.get (Fld.QP_PTR_CQ_TAIL c q))) 16 true s with
      | (s, .go) =>
        writeEntry c q e (cplBytes e (s.get (Fld.QP_PTR_SQ_HEAD c q)) (s.isSet (Fld.QP_STATUS_CQ_PHASE c q))
            (s.get (Fld.CTX_WFENCE_FAILS c) != 0)) s
          |> flushEntries c q es
      | (s, _) => s.set (Fld.CTX_STATE_CPL_DROPPED c) 1

/-- A queue pair at the squash: each completion entry not yet written is abandoned; started descriptors complete with
CONTEXT_RESET and DETAIL 0 (R117, 06 Table 06-5). -/
def squashQp (c q : Nat) (o : CtxOp) (s : State) : State :=
  let s := s |> doIf (!(s.qp c q).cpls.isEmpty) (·.set (Fld.CTX_STATE_CPL_DROPPED c) 1) |>.qpUpd c q (fun p => { p with cpls := [] })
    |> doAll (s.qp c q).descs (fun d s => cancelDesc (keyOf c q d) s |> finish c q d stReset 0 d.bytes)
  let es := (s.qp c q).cpls
  if o.cpl then flushEntries c q es s else doIf (!es.isEmpty) (·.set (Fld.CTX_STATE_CPL_DROPPED c) 1) s

/-- Host reads of a context are abandoned: answered Completer Abort where the function may still complete them. -/
def dropHreads (c : Nat) (cpl : Bool) (s : State) : State :=
  s |> doAll (s.hreads.filter fun r => r.c == c) (fun _ s => doIf (cpl && s.linkUp) (emit (.cpl c 2 [])) s)
    |> (fun s => { s with hreads := s.hreads.filter fun r => r.c != c })

/-- An upstream request of a context that is abandoned is answered NO_TARGET, where it has an answer (08 Table 08-11). -/
def upAbandoned (c : Nat) (i : Item) (s : State) : State :=
  match i.work with
  | .upWrite p d (some t) _ _ _ => doIf (d == c) (respOut p t 3 []) s
  | .upData p t _ => doIf (i.ctx == c) (respOut p t 3 []) s
  | _ => s

/-- A packet at a port's egress whose party is abandoned: a speculative READ that has been issued stays, and its answer is
discarded (08 R203). -/
def egrAbandoned (mine : ReqSrc → Bool) (e : Egr) : Option Egr :=
  match e.src with
  | some (.spec a w b) => some (if mine (.spec a w b) then { e with src := some .nobody } else e)
  | some x => if mine x then none else some e
  | none => some e

/-- Every outstanding tag and local or peer transaction of a context is abandoned: a late answer finds nothing; a host
tag stays out of the pool until its completion can no longer come (R117, R119). What is left of a frame that had begun on a port is not
sent, and as its EOF never leaves, no other frame starts there until the port leaves ACTIVE (10 R244; log 223). -/
def abandonCtx (c : Nat) (cpl : Bool) (s : State) : State :=
  let mine (x : ReqSrc) : Bool := srcCtx s x == some c
  s |> doAll s.cad.items (upAbandoned c)
    |> dropItems (itemOfCtx s c)
    |>.hlUpd (fun h => { h with tags := h.tags.map fun t => if t.2.ctx = c then (t.1, { t.2 with quarantined := true, squashed := true }) else t })
    |> doAll [0, 1, 2, 3] (fun p s =>
        s |> doAll ((s.lb p).ups.filter fun u => u.c == c) (fun u => respOut p u.tag 3 [])
          |>.lbUpd p (fun l =>
            { l with egress := (l.egress.filter (fun e => e.host != some c)).filterMap (egrAbandoned mine),
                     reqs := l.reqs.map (fun r => if mine r.src then { r with src := .nobody } else r),
                     ups := l.ups.filter (fun u => u.c != c) }))
    |> doAll [0, 1, 2, 3] (fun k s => s.linkUpd k fun l =>
        { l with reqs := l.reqs.map fun r => if mine r.2.1 then (r.1, .nobody, r.2.2) else r })
    |> dropHreads c cpl
    |> updTags

/-- Registers of a context at a range of addresses return to their reset values. -/
def resetRange (lo n : Nat) (s : State) : State := { s with regs := tabKeep (fun a => decide (a < lo ∨ lo + n ≤ a)) s.regs }

/-- Every MSI-X table entry of a context is masked, its address and data 0. -/
def msixClear (c : Nat) (s : State) : State := { s with msix := tabKeep (fun k => k / 64 != c) s.msix }

/-- The items that reset and destroy clear (Table 05-9): queue pairs and coalescing groups, MSI-X table, PBA and triggers not yet sent
(15 R381), violation
log and error ring, write sequence number, ATS entries, stranded-read entries, watchdog counter. -/
def ctxClear (c : Nat) (s : State) : State :=
  s |> doAll (List.range 64) (fun q => qpClear c q)
    |> msixClear c |> msixLose (fun x => x.1 == c)
    |>.setPba c 0 |> dropHeld c
    |> resetRange (Adr.CTX_VIOL_CFG c) 0xF0
    |> resetRange (Adr.CTX_PWE_BASE_LO c) 0x100
    |> atsDiscard (fun e => e.ctx == c)
    |> dropWindowBuffers c none
    |> doIf (s.get (Fld.CTX_WDOG_STATUS_MODE c) != 0) (wdogReload c)
    |>.ctxUpd c (fun x => { x with pweOverflow := false, pweWait := [], c0out := 0,
                                   wfence := x.wfence.map fun r => { r with upTo2 := 0 } })

/-- A STANDBY or MOVED function becomes ABSENT (05 R106): a pairing of its standby side ends on both members; its share
record is zeroed (R109), and what a destroy clears is cleared (Table 05-9, 04 R87, 09 R221). -/
def ctxVanish (c : Nat) (s : State) : State :=
  let home : Option (Nat × Nat) :=
    if s.get (Fld.PEL_TANDEM_ROLE c) = 2 then some (s.get (Fld.PEL_TANDEM_PEER_MEMBER c), s.get (Fld.PEL_TANDEM_PEER_CTX c)) else none
  let s := match home with
    | some (m, h) =>
      (sendState m 4 c (leBytes 1 4 ++ leBytes 2 h ++ leBytes 2 c ++ leBytes 1 3 ++ leBytes 46 0) s).1 |> unpairStandby c
    | none => s
  s |> setShare c noShare |>.setWord (Adr.CTX_SHARE7 c) 0 |> ctxClear c
    |>.set (Fld.CTX_STATE_STATE c) 0 |>.ctxUpd c fun x => { x with op := none }

/-- D: the context enters DRAIN: unstarted descriptors complete with CONTEXT_RESET, QP_ABORT is cleared (06 R142), and a share change that waits with BUSY; a
BARE context has nothing to drain and ends at once, cleared as Table 05-9 says (R105, R110, R116). The partner of a home context
that is not MOVED learns of it (14 Table 14-5). -/
def drainStart (c : Nat) (o : CtxOp) (s : State) : State :=
  let s := shareGone c s
  if s.cst c = 6 ∨ s.cst c = 7 then ctxVanish c s
  else
    let s := tandemTell c (if o.destroy then 3 else 2) s
    if s.cst c = 1 then s |> abandonCtx c o.host |> ctxClear c |> ctxEnd c o
    else
      let o1 : CtxOp := { o with tmo := s.get Fld.CTX_DRAIN_TMO_TMO }
      s |>.set (Fld.CTX_STATE_STATE c) 4
        |>.ctxUpd c (fun x => { x with op := some o1 })
        |> doAll (List.range 64) (fun q s => s |> endUnstarted c q stReset
              |>.set (Fld.QP_ABORT_TAG_TAG c q) 0 |>.set (Fld.QP_ABORT_RESULT c q) 0)

/-- A pending reset or destroy whose D is the boundary to come, or has passed. -/
def drainDue (s : State) (c : Nat) : Option CtxOp :=
  match (s.ctx c).op with
  | some o =>
    if (s.cst c = 1 ∨ s.live c ∨ ((s.cst c = 6 ∨ s.cst c = 7) ∧ o.absent)) ∧ s.reached (o.start - 1) then some o else none
  | none => none

/-- R116: stroke D of a reset or destroy is the boundary to come, at which the context enters DRAIN (R105). -/
def execContextDrainStart (c : Fin 1024) (s : State) : Result := done (doIf (drainDue s c).isSome (atBoundary (.drainStart c)) s)

/-- The squash (R117, R118). -/
def squash (c : Nat) (o : CtxOp) (s : State) : State :=
  s |>.set (Fld.CTX_STATE_STATE c) 5
    |>.ctxUpd c (fun x => { x with op := x.op.map fun o => { o with squashAt := s.now } })
    |> doAll (List.range 64) (fun q => squashQp c q o)
    |> abandonCtx c o.host
    |> ctxClear c

/-- The drain of a context ends at a boundary: everything has retired or CTX_DRAIN_TMO strokes have passed since D, and fewer than
32 contexts are in SQUASH (05 R116, R117). -/
def drainEnd (c : Nat) (s : State) : State :=
  match (s.ctx c).op with
  | some o =>
    if s.cst c = 4 ∧ (ctxQuiet s c ∨ o.tmo ≤ s.since o.start) ∧ (s.ctxIds.filter fun x => s.cst x == 5).length < 32 then squash c o s else s
  | none => s

/-- The squash of a context ends at a boundary: where it is found done, and 64 strokes after its begin at the latest (05 R117). -/
def squashEnd (done_ : List Nat) (c : Nat) (s : State) : State :=
  match (s.ctx c).op with
  | some o => if s.cst c = 5 ∧ (c ∈ done_ ∨ 64 ≤ s.since o.squashAt) then ctxEnd c o s else s
  | none => s

/-- R128: no queue pair of an ACTIVE context is enabled, each reads QUIESCED and no tag is outstanding. -/
def quiescent (s : State) (c : Nat) : Bool :=
  s.cst c == 3 && s.get (Fld.CTX_CAPS_QP_EN c) == 0 && (List.range 64).all (fun q => s.isSet (Fld.QP_STATUS_QUIESCED c q)) &&
    tagsOf s c == 0

/-- The first boundary that finds a context quiescent moves it to IDLE, or to BARE where the record in force has QP_MAX or DESC_MAX
0 (06 R128, 05 Table 05-3). -/
def quiesce (c : Nat) (s : State) : State :=
  if quiescent s c then s.set (Fld.CTX_STATE_STATE c) (if 1 ≤ s.qpMax c ∧ 16 ≤ s.descMax c then 2 else 1) else s

/-- R116, R117: the drain of a context has emptied, or its timeout passes with this stroke: it ends at the boundary to come. -/
def execContextSquash (c : Fin 1024) (s : State) : Result :=
  done (match (s.ctx c).op with
    | some o =>
      if s.cst c = 4 ∧ (ctxQuiet s c ∨ o.tmo ≤ s.since o.start + 1) then atBoundary (.drainEnd c) s else s
    | none => s)

/-- R117: the squash of a context is done: it ends at the boundary to come (R105). -/
def execSquashComplete (c : Fin 1024) (s : State) : Result :=
  done (if s.cst c = 5 then atBoundary (.squashEnd c) s else s)

/-- R128: an ACTIVE context is quiescent: at the boundary to come it becomes IDLE or BARE. -/
def execContextQuiesce (c : Fin 1024) (s : State) : Result :=
  done (if quiescent s c then atBoundary (.quiesce c) s else s)

/-- R122: a context watchdog reaches zero: WDOG_FIRED, its pending bit and event, and with ACTION 1 a reset. -/
def execWatchdogExpiry (c : Fin 1024) (s : State) : Result :=
  done (if s.get (Fld.CTX_WDOG_STATUS_MODE c) ≠ 0 ∧ s.isSet (Fld.CTX_WDOG_STATUS_RUNNING c) ∧
      s.get (Fld.CTX_WDOG_STATUS_REMAIN c) = 0 ∧ s.live c then
      s |>.set (Fld.CTX_WDOG_STATUS_RUNNING c) 0
        |>.set (Fld.CTX_STATE_WDOG_FIRED c) 1
        |> setCtxBit Fld.CTX_WDOG_PEND_CTX c
        |> ctxEvent 0 2
        |> doIf (s.isSet (Fld.CTX_WDOG_STATUS_ACTION c)) (ctxCause c false false true 4)
    else s)

/-- R119: a tag abandoned by a squash returns to the pool when its completion arrives late, which is an Unexpected
Completion, or when the completion timeout of R85 expires; one retired by its timeout waits for the completion (log 151). -/
def execTagQuarantineRelease (c tag : Fin 1024) (late : Bool) (s : State) : Result :=
  done (match s.hl.tags.find? (tagIs c tag) with
    | some (t, u) =>
      if u.quarantined ∧ (late ∨ (tagTimedOut s u ∧ ¬ u.retired)) then
        freeTags (tagIs c t) s |> doIf late (aerAdvisory u.ctx 16 28)
      else s
    | none => s)

/-! ## Context queries (16 Table 16-7) -/

/-- R403: CTX_QUERY. -/
def execCtxQuery (mb : Fin 1032) (core : Fin 4) (s : State) : Result :=
  runCmd mb core 0x0201 (fun x s =>
    let c := leAt x.args 0 2
    (s, 0, leBytes 4 (s.word (Adr.CTX_STATE c)).toNat ++ leBytes 4 (s.word (Adr.CTX_CAPS c)).toNat ++
      leBytes 4 (s.word (Adr.CTX_OCC c)).toNat ++ (shareWords s c).flatMap (fun w => leBytes 4 w.toNat) ++
      leBytes 4 (s.word (Adr.CTX_WDOG_STATUS c)).toNat)) s

/-- R403: CTX_LIST: one byte per context, STATE and bit 7 for a standby function. -/
def execCtxList (mb : Fin 1032) (core : Fin 4) (s : State) : Result :=
  runCmd mb core 0x0206 (fun _ s =>
    (s, 0, (List.range 1024).map fun c => BitVec.ofNat 8 (s.cst c + if s.cst c = 6 then 128 else 0))) s

end Sys2Proof.Machine
end

