-- ==== Sys2Proof/Machine/StoreCmds.lean ====
section
/-! DEFINITION. Machine/StoreCmds.lean: the store commands: apertures, queries, format and media rebuild (11 R247, R248, R474;
12 R281, R300; 16 R399, R404). -/
namespace Sys2Proof.Machine

/-! ## Long operations (16 R399) -/

/-- The OP word of a group's query. -/
def opWord (o : LongOp) : Nat := o.code * 2 ^ 24 + o.pct * 2 ^ 16 + o.state

/-- A register's value as four result bytes. -/
def wordBytes (s : State) (a : Nat) : List Byte := leBytes 4 (s.word a).toNat

/-- A long operation of a command begins; PERCENT is a value the device draws (log 7). -/
def longStart (x : Cmd) (s : State) : State × LongOp :=
  ((s.set (mbxLong x.mb) 1).drewOne, { op := x.op, mb := x.mb, state := 1, pct := s.draw.toNat % 100 })

/-- A long operation of the other group, that the same mailbox ordered, goes on: LONG of the mailbox tells of it. -/
def longGoesOn (s : State) (o : LongOp) : Bool :=
  [s.mbx.store, s.mbx.fw].any fun x => x.state == 1 && x.mb == o.mb && x.op != o.op

/-- The end of a long operation: its OP word and the issuer's event again. -/
def longEnd (o : LongOp) (code : Nat) (s : State) : State × LongOp :=
  (doIf (!longGoesOn s o) (·.set (mbxLong o.mb) 0) s |> mbxEvent o.mb |> bcAttn Fld.MBX_BC_ATTN_FW_OP,
    { o with state := if code = 0 then 2 else 3, code := code, pct := if code = 0 then 100 else o.pct })

/-! ## Apertures (11 R248, R474) -/

/-- Rows 1 to 3 of Table 11-1a for a command that names aperture `a`. With an invalid population the map is not read, so that no
number is known to name no aperture, and APT_ATTACH ends NO_RESOURCE (12 R279). -/
def aptErr (s : State) (a : Nat) (mustExist : Bool) : Option Nat :=
  if s.get Fld.DS_CFG_CAP_UNITS ≤ a then some 3
  else if mustExist ∧ ¬ s.aptValid a ∧ ¬ s.isSet Fld.MED_STATUS_UNQUAL then some 3
  else if s.get Fld.DS_CFG_STATE ≠ 2 then some 4
  else none

/-- R248: APT_CREATE; what standby functions hold in reserve is not free (14 R356). -/
def execAptCreate (mb : Fin 1032) (core : Fin 4) (s : State) : Result :=
  runCmd mb core 0x0301 (fun x s =>
    let units := leAt x.args 0 2
    if s.get Fld.DS_CFG_STATE ≠ 2 ∨ freeUnits s < unitsReserved s + units then (s, 4, [])
    else
      let a := nextApt s
      (aptCreate a units (bitOf (leAt x.args 2 1) 0) s, 0, leBytes 2 a)) s

/-- An attachment of the aperture or to the context waits for the boundary. -/
def attachPending (s : State) (a c : Nat) : Bool :=
  s.deferred.any fun d => match d with | .aptAttach b e _ => b == a || e == c | _ => false

/-- R248, R474: APT_ATTACH. -/
def aptAttachCmd (x : Cmd) (s : State) : State :=
  let a := leAt x.args 0 2
  let c := leAt x.args 2 2
  if s.get Fld.DS_CFG_CAP_UNITS ≤ a ∨ s.cst c = 0 then cmdDone x.id 3 [] s
  else
    match aptErr s a true with
    | some e => cmdDone x.id e [] s
    | none =>
      if s.aptCtx a = some c then cmdDone x.id 0 (leBytes 6 0) s
      else if (s.aptCtx a).isSome ∨ attachPending s a c ∨ ¬ s.live c ∨ (s.ctx c).apt.isSome ∨
          (s.mirror a ≠ 0 ∧ (s.partner c).isNone) ∨ s.ds.superseded.contains a then cmdDone x.id 1 [] s
      else if s.get (Fld.CTX_SHARE6_DUR_UNITS c) < s.get (Fld.DS_APT_STATUS_UNITS a) then cmdDone x.id 4 [] s
      else { s with deferred := s.deferred ++ [Deferred.aptAttach a c x.id] }

/-- R248: APT_ATTACH takes effect at the next stroke boundary. -/
def execAptAttach (mb : Fin 1032) (core : Fin 4) (s : State) : Result := startCmd mb core 0x0302 aptAttachCmd s

/-- R248, R474: APT_DETACH. -/
def aptDetachCmd (x : Cmd) (s : State) : State :=
  let a := leAt x.args 0 2
  match aptErr s a true with
  | some e => cmdDone x.id e [] s
  | none =>
    if (s.aptCtx a).isNone then cmdDone x.id 0 (leBytes 6 0) s
    else { s with deferred := s.deferred ++ [Deferred.aptDetach a x.id] }

/-- R248: APT_DETACH takes effect at a stroke boundary at which no write to the aperture waits. -/
def execAptDetach (mb : Fin 1032) (core : Fin 4) (s : State) : Result := startCmd mb core 0x0303 aptDetachCmd s

/-- R248, R474: APT_ERASE. -/
def execAptErase (mb : Fin 1032) (core : Fin 4) (s : State) : Result :=
  runCmd mb core 0x0304 (fun x s =>
    let a := leAt x.args 0 2
    match aptErr s a false with
    | some e => (s, e, [])
    | none =>
      if ¬ s.aptValid a then (s, 0, [])
      else if (s.aptCtx a).isSome then (s, 1, [])
      else
        let t := aptErase a s
        (t.dsUpd fun d => { d with standby := d.standby.filter fun e => e.2 != some a }, 0, [])) s

/-- The context whose generation covers an aperture: the one it is attached to, or the standby function that keeps it. -/
def aptOwner (s : State) (a : Nat) : Option Nat :=
  match s.aptCtx a with
  | some c => some c
  | none => (s.ds.standby.find? fun e => e.2 == some a).map fun e => e.1

/-- The 20 result bytes of APT_QUERY. -/
def aptReport (s : State) (a : Nat) : List Byte :=
  wordBytes s (Adr.DS_APT_STATUS a) ++ wordBytes s (Adr.DS_APT_LOST a) ++ wordBytes s (Adr.DS_APT_OCC a) ++
    (match aptOwner s a with | some c => wordBytes s (Adr.PEL_GEN c) | none => leBytes 4 0) ++ wordBytes s (Adr.DS_APT_RESYNC a)

/-- R248, R474: APT_QUERY; a context slot asks of its own aperture. -/
def execAptQuery (mb : Fin 1032) (core : Fin 4) (s : State) : Result :=
  runCmd mb core 0x0305 (fun x s =>
    if 8 ≤ x.mb then
      match (s.ctx (mbxCtx x.mb)).apt with
      | some a => (s, 0, aptReport s a)
      | none => (s, 0, List.replicate 20 0)
    else if s.get Fld.DS_CFG_CAP_UNITS ≤ leAt x.args 0 2 then (s, 3, [])
    else (s, 0, aptReport s (leAt x.args 0 2))) s

/-! ## Queries of the store -/

/-- R404: STORE_QUERY. -/
def execStoreQuery (mb : Fin 1032) (core : Fin 4) (s : State) : Result :=
  runCmd mb core 0x0306 (fun _ s =>
    (s, 0, ([Adr.DS_CFG, Adr.DS_BUDGET, Adr.DS_HOLDUP, Adr.DS_RECOVER, Adr.DS_RECOVER_UNITS, Adr.DS_PRESERVE_LOG,
      Adr.DS_PRESERVE_UNITS].flatMap (wordBytes s)) ++ leBytes 4 (opWord s.mbx.store))) s

/-- R404: STORE_RECORD: the context's entry in the last context state record. -/
def execStoreRecord (mb : Fin 1032) (core : Fin 4) (s : State) : Result :=
  runCmd mb core 0x0307 (fun x s =>
    match tabFind s.ds.ctxRecord (leAt x.args 0 2) with
    | some r => if s.ds.ctxRecordWritten then (s, 0, r) else (s, 3, [])
    | none => (s, 3, [])) s

/-- R301, R404: MEDIA_HEALTH. -/
def execMediaHealth (mb : Fin 1032) (core : Fin 4) (s : State) : Result :=
  runCmd mb core 0x0309 (fun _ s =>
    (s, 0, ([Adr.MED_STATUS, Adr.MED_LUN_LOST_LO, Adr.MED_LUN_LOST_HI, Adr.MED_LIFE, Adr.MED_PE, Adr.MED_WA,
      Adr.MED_RETRY_HIST].flatMap (wordBytes s)) ++ leBytes 4 (opWord s.mbx.store))) s

/-! ## Format and rebuild (11 R247; 12 R281, R300) -/

/-- A long operation of the store group runs. -/
def storeBusy (s : State) : Bool := s.mbx.store.state == 1

/-- A long command of the store group starts an operation. -/
def storeStart (x : Cmd) (what : Nat) (s : State) : State × Nat × List Byte :=
  let (s, o) := longStart x s
  (s.mbxUpd (fun m => { m with store := { o with op := what } }), 0, [])

/-- R281: STORE_FORMAT; the store group's operation is 0x0308 for 128 GiB and 0x1308 for 512 GiB. -/
def execStoreFormat (mb : Fin 1032) (core : Fin 4) (s : State) : Result :=
  runCmd mb core 0x0308 (fun x s =>
    let big : Bool := bitOf (leAt x.args 0 1) 0
    if storeBusy s then (s, 1, [])
    else if ¬ carries (s.get Fld.MED_STATUS_HEALTHY) (lunUnits s) (if big then 2048 else 512) then (s, 4, [])
    else storeStart x (if big then 0x1308 else 0x0308) s) s

/-- R300: MEDIA_REBUILD. -/
def execMediaRebuild (mb : Fin 1032) (core : Fin 4) (s : State) : Result :=
  runCmd mb core 0x030A (fun x s => if storeBusy s then (s, 1, []) else storeStart x 0x030A s) s

/-- The new configuration record is written: every aperture and its key are gone, the format and the budget are the new
ones, and the figures since the last format start again (11 R247, R264; 12 R300). -/
def formatApply (big : Bool) (s : State) : State :=
  let st : Store := { cfgMib := 64, cfgMj := 530, formatted := true, recovered := s.ds.recovered, keyGen := s.ds.keyGen, errs := s.ds.errs,
                      failed := s.ds.failed, dramKey := s.ds.dramKey }
  let s := s |> doAll s.aptIds aptDetach
  let s := { s with ds := st, regs := tabKeep (fun k => decide (k < 2 ^ 36 ∨ 2 ^ 37 ≤ k)) s.regs }
  s.medUpd (fun m => { m with stripes := [], flushed := 0, progs := 0, marked := [] })
    |>.set Fld.DS_CFG_MAP_UNIT big.toNat |>.set Fld.DS_CFG_CAP_UNITS (if big then 2048 else 512)
    |>.set Fld.DS_BUDGET_MIB 64 |>.set Fld.DS_HOLDUP_MJ 530
    |>.set Fld.DS_DIRTY_DIRTY 0 |>.set Fld.DS_STAGE_USED_KIB 0
    |>.set Fld.MED_WA_WA_X100 100
    |> updBudget |> updMirrorStatus |> updWear

/-- Whether the format of the store group's operation is the large one. -/
def formatBig (o : LongOp) : Bool := o.op == 0x1308

/-- The operation of the store group is a format whose record is not yet written. -/
def formatDue (s : State) : Bool := s.mbx.store.state == 1 && (s.mbx.store.op == 0x0308 || s.mbx.store.op == 0x1308)

/-- The store group's operation ends with a status; a format that ends well has written its record. -/
def storeEnd (code : Nat) (s : State) : State :=
  let s := if formatDue s ∧ code = 0 then formatApply (formatBig s.mbx.store) s else s
  let (s, o) := longEnd s.mbx.store code s
  s.mbxUpd fun m => { m with store := o }

end Sys2Proof.Machine
end

