-- ==== Sys2Proof/Machine/Ulirin.lean ====
section
/-! DEFINITION. Machine/Ulirin.lean: a Ulirin link: training, the INIT exchange, the bypass channel, cells, credits,
acknowledgement and replay, derailleur shift, Coast and Park, down, grace and flush (13 R304 to R340). -/
namespace Sys2Proof.Machine

/-- STATE of a link. -/
def State.ulState (s : State) (k : Nat) : Nat := s.get (Fld.UL_STATUS_STATE k)

/-- The link is ACTIVE. -/
def ulActive (s : State) (k : Nat) : Bool := s.ulState k == 3

/-- A source of a link (13 Table 13-14). -/
def ulRaise (k off : Nat) (s : State) : State := raise (104 + 12 * k + off) s

/-- A link's state changes. -/
def ulTo (k st : Nat) (s : State) : State := s.set (Fld.UL_STATUS_STATE k) st |>.linkUpd k fun l => { l with since := s.now }

/-- A marker row is sent on all nine lanes with a flag (13 R309, Table 13-3): 1 SHIFT, 2 LPM, 4 TRAIN, 8 REPLAY. -/
def markerRow (k flags : Nat) (s : State) : State :=
  s |> lineSend k (fun y => markerOut y flags)
    |> (fun s => emit (.cell k "MARKER" 0 ((List.range 9).flatMap (markerBlock (s.line k).map (s.line k).epoch flags))) s)

/-- Units and marker rows of the link are heard: it is ACTIVE, and delineation is not lost (13 R310, R330). -/
def ulHears (s : State) (k : Nat) : Bool := ulActive s k && !(s.link k).lostSync

/-- The preset of the link's transmit lanes: by the strap class, or UL_PRESET (13 R306, Table 13-2). -/
def presetOf (s : State) (k : Nat) : Nat :=
  match s.get Fld.DEV_STRAP_UL_PRESET_CLASS with
  | 0 => 2 | 1 => 7 | 2 => 12 | _ => s.get (Fld.UL_PRESET_PRESET k)

/-- The main coefficient C0 in thousandths (13 R306). -/
def mainTap (t : Int × Int) : Int := 1000 - t.1.natAbs - t.2.natAbs

/-- The coefficients C-1 and C+1 of a preset in thousandths (13 Table 13-2). -/
def presetTaps (p : Nat) : Int × Int :=
  ([(0, 0), (0, -50), (0, -100), (0, -150), (0, -200), (0, -250), (-50, -100), (-50, -150), (-50, -200), (-50, -250), (-75, -200),
    (-75, -250), (-100, -250), (-100, -300), (-125, -300), (-150, -300)] : List (Int × Int)).getD p (0, 0)

/-! ## Routes (14 R348) -/

/-- The link's wiring violates Table 14-2. -/
def miswired (s : State) (k : Nat) : Bool := bitOf (s.get Fld.PEL_STATUS_MISWIRED) k

/-- A link counts as a direct link: ACTIVE or in HOLD. -/
def directLink (s : State) (k : Nat) : Bool :=
  (s.ulState k == 3 || s.ulState k == 4) && !miswired s k && !s.pel.split.contains k

/-- Members that a link of this member leads to directly, as a bitmap. -/
def directMap (s : State) : Nat :=
  ([0, 1, 2, 3].filter (directLink s)).foldl (fun b k => orBit b (s.get (Fld.UL_PEER_MEMBER k))) 0

/-- The latest VIEW of a member. -/
def State.viewOf (s : State) (m : Nat) : Option View := tabGet (fun _ => none) s.pel.views m

/-- The direct links of a member by its latest view. -/
def linksOf (s : State) (m : Nat) : Nat :=
  if m = s.me then directMap s else match s.viewOf m with | some v => v.links | none => 0

/-- Members one direct link farther than a list of members, those included. -/
def oneFarther (s : State) (ms : List Nat) : List Nat :=
  (List.range 8).filter fun m => ms.contains m || ms.any fun n => n != s.me && bitOf (linksOf s n) m

/-- Members within `n` links of a list of members. -/
def within (s : State) : Nat → List Nat → List Nat
  | 0, ms => ms
  | n + 1, ms => within s n (oneFarther s ms)

/-- Links from a neighbour to a member. -/
def distance (s : State) (n m : Nat) : Option Nat := (List.range 8).find? fun i => (within s i [n]).contains m

/-- The first hop toward a member: the shortest path, ties to the lower-numbered link. -/
def firstHop (s : State) (m : Nat) : Nat :=
  let ways := (([0, 1, 2, 3].filter (directLink s)).filterMap fun k => (distance s (s.get (Fld.UL_PEER_MEMBER k)) m).map fun d => (d, k))
  match (ways.map (·.1)).min? with
  | some d => ((ways.find? fun w => w.1 == d).map (·.2)).getD 15
  | none => 15

/-- PEL_ROUTE and REACH follow the direct links and the latest views. A stand-alone member keeps its own values. -/
def updRoutes (s : State) : State :=
  if s.standAlone then s
  else
    let hops := (List.range 8).map fun m => if m = s.me then 14 else firstHop s m
    let reach := ((List.range 8).filter fun m => hops.getD m 15 != 15).foldl orBit 0
    s |>.setWord Adr.PEL_ROUTE (BitVec.ofNat 32 ((List.range 8).map fun m => hops.getD m 15 * 16 ^ m).sum)
      |>.set Fld.PEL_VIEW_REACH reach

/-! ## Messages as bytes (13 R321, Table 13-9) -/

/-- The virtual channel of a message (13 Table 13-10). -/
def vcOf (m : UMsg) : Nat :=
  match m.mtype with
  | 1 | 2 | 3 | 5 => if m.cls ≤ 1 then 0 else 1
  | 4 => 2
  | _ => 3

/-- The header and data of a message. Bit 36 of OFFSET marks a SEND to a peer context (log 40). -/
def msgBytes (m : UMsg) : List Byte :=
  leBytes 1 (m.mtype * 16 + m.cls * 4) ++ leBytes 1 (m.dst * 32) ++ leBytes 2 (m.data.length + m.stat * 512) ++ leBytes 2 m.tag ++
    leBytes 2 m.src ++ leBytes 2 m.ctx ++ leBytes 1 m.win ++ leBytes 5 (m.off + m.send.toNat * 2 ^ 36) ++ m.data

/-- A reserved field of a message header is not 0, or LEN exceeds 256. -/
def headerBad (b : List Byte) : Bool :=
  let t := leAt b 0 1 / 16
  bitsOf (leAt b 0 1) 1 0 != 0 || bitsOf (leAt b 1 1) 4 0 != 0 || bitsOf (leAt b 2 2) 15 13 != 0 ||
    decide (256 < bitsOf (leAt b 2 2) 8 0) || (t != 3 && t != 4 && bitsOf (leAt b 2 2) 12 9 != 0) ||
    bitsOf (leAt b 4 2) 15 12 != 0 || bitsOf (leAt b 6 2) 15 13 != 0 || bitsOf (leAt b 8 2) 15 10 != 0

/-- The message that begins a list of bytes which holds it whole. -/
def readMsg (b : List Byte) : UMsg :=
  let off := leAt b 11 5
  let send := decide (leAt b 0 1 / 16 = 5) && bitOf off 36
  { mtype := leAt b 0 1 / 16, cls := bitsOf (leAt b 0 1) 3 2, dst := bitsOf (leAt b 1 1) 7 5, stat := bitsOf (leAt b 2 2) 12 9,
    tag := leAt b 4 2, src := leAt b 6 2, ctx := leAt b 8 2, win := leAt b 10 1, off := if send then off - 2 ^ 36 else off,
    data := sliceBytes b 16 (bitsOf (leAt b 2 2) 8 0), send := send }

/-- The messages of a VC's stream: those whole, the bytes of one begun, and the code of a protocol error (13 Table
13-19): 4 a reserved field, 5 a type not allowed on the VC. -/
def parseMsgs (vc : Nat) : Nat → List Byte → List UMsg × List Byte × Option Nat
  | 0, b => ([], b, none)
  | _, [] => ([], [], none)
  | fuel + 1, b =>
    if leAt b 0 1 / 16 = 0 then ([], [], if b.all (· == 0) then none else some 4)
    else if 8 ≤ leAt b 0 1 / 16 then ([], [], some 5)
    else if b.length < 16 then ([], b, none)
    else if headerBad b then ([], [], some 4)
    else
      let m := readMsg b
      if vcOf m ≠ vc ∨ (m.mtype = 5 ∧ m.cls = 0) then ([], [], some 5)
      else if b.length < 16 + m.data.length then ([], b, none)
      else
        let r := parseMsgs vc fuel (b.drop (16 + m.data.length))
        (m :: r.1, r.2.1, r.2.2)

/-! ## Down causes and protocol errors (13 R338) -/

/-- A down cause: the link goes down at the next boundary. -/
def ulDownCause (k : Nat) (s : State) : State := s.linkUpd k fun l => { l with downDue := l.downDue || ulActive s k }

/-- A protocol error is recorded. -/
def ulProto (k code seq : Nat) (s : State) : State :=
  s |>.set (Fld.UL_PROTO_LOG_VALID k) 1 |>.set (Fld.UL_PROTO_LOG_CODE k) code |>.set (Fld.UL_PROTO_LOG_SEQ k) seq
    |> ulRaise k 6 |> ulDownCause k

/-! ## The bypass channel (13 R315 to R317) -/

/-- A forwarded command's last request fragment is acknowledged (16 R411). -/
def fragAcked (k : Nat) (body : List Byte) (s : State) : State :=
  let last := bitsOf (leAt body 3 1) 1 0 == 1
  s.mbxUpd fun m => { m with out := m.out.map fun o =>
    if last && o.link == k && o.txn == leAt body 0 2 then { o with acked := true } else o }

/-- A sequenced cell lies before BACK. -/
def beforeBack (back seq : Nat) : Bool := decide (1 ≤ (back + 256 - seq) % 256 ∧ (back + 256 - seq) % 256 ≤ 128)

/-- BACK of a bypass cell acknowledges every sequenced cell before it; waiting ones follow. -/
def bypassAck (k back : Nat) (s : State) : State :=
  let gone := (s.link k).bheld.filter fun b => beforeBack back b.seq
  if gone.isEmpty then s
  else
    let wait := (s.link k).bwait
    s.linkUpd k (fun l => { l with bheld := l.bheld.filter (fun b => !beforeBack back b.seq), bwait := [] })
      |> doAll (gone.filter fun b => b.bt == 13) (fun b => fragAcked k b.body)
      |> doAll wait (fun b => sendBypass k b.1 b.2)

/-- A sequenced bypass cell is heard in ACTIVE: true where it is accepted. A cell seen before is answered with
NULL. -/
def bypassSeq (k bseq back : Nat) (s : State) : State × Bool :=
  if ¬ ulHears s k then (s, false)
  else
    let s := bypassAck k back s
    let e := (s.link k).bexp
    if bseq = e then (s.linkUpd k fun l => { l with bexp := (e + 1) % 256 }, true)
    else if (e + 256 - bseq) % 256 ≤ 128 then (sendBypass k 0xE [] s, false)
    else (s, false)

/-- In PARAM, or in HOLD with the lanes locked. -/
def inParam (s : State) (k : Nat) : Bool := s.ulState k == 2 || (s.ulState k == 4 && (s.link k).locked)

/-- Cells of the INIT exchange are heard: delineation is not lost (13 R310, R330). -/
def paramHears (s : State) (k : Nat) : Bool := inParam s k && !(s.link k).lostSync

/-- R317: a NULL cell; a cell of a reserved BTYPE is discarded and counted (R316), before ACTIVE too. -/
def execBypassNull (k : Fin 4) (back : BitVec 8) (reserved : Bool) (s : State) : Result :=
  done (if reserved then doIf (paramHears s k || ulHears s k) (·.inc (Fld.UL_BYP_BAD k) 1) s
    else if ulHears s k then bypassAck k back.toNat s
    else s)

/-- The held cells from the first that has been unacknowledged for 1 µs on (13 R317). -/
def bypassOld (s : State) (k : Nat) : List BCell := (s.link k).bheld.dropWhile fun b => decide (s.since b.sent < 2)

/-- R317: a sequenced cell unacknowledged for 1 µs is sent again, with every later one; at the eighth time of one cell the link goes
down. Nothing is sent in Park (R337). -/
def execBypassRetransmit (k : Fin 4) (s : State) : Result :=
  let old := bypassOld s k
  done (if ulActive s k ∧ s.get (Fld.UL_STATUS_LPM k) ≠ 2 ∧ old ≠ [] then
      s |> doAll old (fun b => emitBypass k b.bt true b.seq b.body)
        |>.inc (Fld.UL_BYP_RETX k) old.length
        |>.linkUpd k (fun l => { l with bheld := l.bheld.map fun b =>
            if (old.any fun x => x.seq == b.seq) then { b with sent := s.now, tries := b.tries + 1 } else b })
        |> doIf (old.any fun b => decide (8 ≤ b.tries + 1)) (ulDownCause k)
    else s)

/-! ## Credits (13 R324) -/

/-- CREDIT_AVAIL of a virtual channel. -/
def crAvail (k vc : Nat) : Field :=
  match vc with
  | 0 => Fld.UL_CREDIT_AVAIL_VC0 k | 1 => Fld.UL_CREDIT_AVAIL_VC1 k | 2 => Fld.UL_CREDIT_AVAIL_VC2 k | _ => Fld.UL_CREDIT_AVAIL_VC3 k

/-- CREDIT_PEER of a virtual channel. -/
def crPeer (k vc : Nat) : Field :=
  match vc with
  | 0 => Fld.UL_CREDIT_PEER_VC0 k | 1 => Fld.UL_CREDIT_PEER_VC1 k | 2 => Fld.UL_CREDIT_PEER_VC2 k | _ => Fld.UL_CREDIT_PEER_VC3 k

/-- The credits the device advertises. -/
def ulAdvertised : List Nat := [64, 96, 96, 64]

/-- A freed-credit counter of the far end. -/
def ulCredit (k vc count : Nat) (s : State) : State :=
  let d := (count + 256 - (s.link k).crSeen.getD vc 0) % 256
  s.set (crAvail k vc) (s.get (crAvail k vc) + d) |>.linkUpd k fun l => { l with crSeen := l.crSeen.set vc count }

/-- A cell of the VC is still being worked on: a message of it waits, or a mirror write of it waits for admission (11
R252). VC0 credits are freed at acceptance. -/
def vcBusy (s : State) (k vc : Nat) : Bool :=
  vc != 0 && ((s.link k).rx.any (fun e => e.1 == vc) ||
    (vc == 3 && s.ds.wait.any fun w => match w.src with | .mirror j _ => j == k | _ => false))

/-- Credits of cells worked off are freed, at most 127 of a VC between two reports. -/
def ulFree (k : Nat) (s : State) : State :=
  s |> doAll [0, 1, 2, 3] (fun vc s =>
    if vcBusy s k vc then s
    else s.linkUpd k fun l =>
      let n := min (l.crHeld.getD vc 0) (127 - (l.crFreed.getD vc 0 + 256 - l.crTold.getD vc 0) % 256)
      { l with crFreed := l.crFreed.set vc ((l.crFreed.getD vc 0 + n) % 256), crHeld := l.crHeld.set vc (l.crHeld.getD vc 0 - n) })

/-- Credits of a VC that the far end has used and not been told of again. -/
def crUsed (l : Ul) (vc : Nat) : Nat := l.crHeld.getD vc 0 + (l.crFreed.getD vc 0 + 256 - l.crTold.getD vc 0) % 256

/-- R324: freed credits not yet reported are reported in a CREDIT cell. -/
def execUlCreditReport (k : Fin 4) (s : State) : Result :=
  let s := ulFree k s
  let l := s.link k
  done (if ulActive s k ∧ s.get (Fld.UL_STATUS_LPM k) ≠ 2 ∧ l.crFreed ≠ l.crTold then
      s.linkUpd k (fun l => { l with crTold := l.crFreed }) |> sendBypass k 5 (l.crFreed.flatMap (leBytes 1))
    else s)

/-- R324: a CREDIT cell. -/
def execBypassCredit (k : Fin 4) (back : BitVec 8) (counts : Word) (s : State) : Result :=
  done (if ulHears s k then
      s |> bypassAck k back.toNat |> doAll [0, 1, 2, 3] (fun vc => ulCredit k vc (bitsOf counts.toNat (8 * vc + 7) (8 * vc)))
    else s)

/-! ## Coast and Park (13 R336, R337) -/

/-- Cells are queued or held. -/
def ulBusy (s : State) (k : Nat) : Bool := !(s.link k).tx.isEmpty || !(s.link k).held.isEmpty || !(s.link k).part.isEmpty

/-- The link enters the state accepted, once its cells are acknowledged. -/
def lpmTry (k : Nat) (s : State) : State :=
  match (s.link k).lpmGo with
  | some st =>
    if (s.link k).held.isEmpty ∧ ulActive s k then
      s |> markerRow k 2 |> emit (.ulLine k 0 0) |>.set (Fld.UL_STATUS_LPM k) st |>.linkUpd k (fun l => { l with lpmGo := none })
        |> ulRaise k 9
    else s
  | none => s

/-- LPM_REQ is sent. -/
def lpmRequest (k st : Nat) (s : State) : State := s.linkUpd k (fun l => { l with lpmAsk := some st }) |> sendBypass k 10 (leBytes 1 st)

/-- R336: an LPM_REQ: Park is always accepted, Coast unless cells are queued or held. -/
def execBypassLpmReq (k : Fin 4) (bseq back st : BitVec 8) (s : State) : Result :=
  let (s, ok) := bypassSeq k bseq.toNat back.toNat s
  done (if ¬ ok then s
    else if st = 2 ∨ (st = 1 ∧ ¬ ulBusy s k) then
      s |> sendBypass k 11 (leBytes 1 st.toNat) |>.linkUpd k (fun l => { l with lpmGo := some st.toNat }) |> lpmTry k
    else sendBypass k 11 (leBytes 1 0) s)

/-- R336: an LPM_ACK. -/
def execBypassLpmAck (k : Fin 4) (bseq back st : BitVec 8) (s : State) : Result :=
  let (s, ok) := bypassSeq k bseq.toNat back.toNat s
  let asked := (s.link k).lpmAsk
  done (if ok then
      s.linkUpd k (fun l => { l with lpmAsk := none, lpmGo := if asked = some st.toNat then asked else l.lpmGo }) |> lpmTry k
    else s)

/-- R336: a link idle COAST_IDLE strokes asks for Coast. -/
def execUlCoastIdle (k : Fin 4) (s : State) : Result :=
  let l := s.link k
  done (if s.isSet (Fld.UL_LPM_COAST_EN k) ∧ ulActive s k ∧ s.get (Fld.UL_STATUS_LPM k) = 0 ∧ l.lpmAsk.isNone ∧ l.lpmGo.isNone ∧
      ¬ ulBusy s k ∧ s.get (Fld.UL_LPM_COAST_IDLE k) ≤ s.since l.busyAt then lpmRequest k 1 s
    else s)

/-- Coast or Park is left; the bypass cells that waited leave. -/
def lpmLeave (k row : Nat) (s : State) : State :=
  s |>.set (Fld.UL_STATUS_LPM k) 0 |> markerRow k row |> emit (.ulLine k 1024 0) |>.linkUpd k (fun l => { l with busyAt := s.now })
    |> sendLate k |> ulRaise k 9

/-- R336: an end leaves Coast with a marker row. -/
def execUlCoastExit (k : Fin 4) (s : State) : Result :=
  done (if s.get (Fld.UL_STATUS_LPM k) = 1 then lpmLeave k 0 s else s)

/-- R337: an end leaves Park with TRAIN rows. -/
def execUlParkExit (k : Fin 4) (s : State) : Result :=
  done (if s.get (Fld.UL_STATUS_LPM k) = 2 then lpmLeave k 4 s else s)

/-! ## Acknowledgement and replay (13 R327 to R332) -/

/-- Cell `seq` lies before EXP_SEQ. -/
def beforeExp (exp seq : Nat) : Bool := decide (1 ≤ (exp + 4096 - seq) % 4096 ∧ (exp + 4096 - seq) % 4096 ≤ 2048)

/-- UL_REPLAY follows the held cells. -/
def updHeld (k : Nat) (s : State) : State :=
  let n := (s.link k).held.length
  s.set (Fld.UL_REPLAY_HELD k) n |>.peak (Fld.UL_REPLAY_HWM k) n

/-- EXP_SEQ of the far end releases every held cell before it. -/
def ackCover (k exp : Nat) (s : State) : State :=
  let l := s.link k
  if l.held.any fun c => beforeExp exp c.seq then
    s.linkUpd k (fun l =>
        { l with held := l.held.filter (fun c => !beforeExp exp c.seq), replay := l.replay.filter (fun q => !beforeExp exp q),
                 heldAt := s.now, replayTo := l.replayTo.filter fun q => !beforeExp exp q })
      |> updHeld k |> lpmTry k
  else s

/-- R327: an ACK cell. -/
def execBypassAck (k : Fin 4) (back : BitVec 8) (exp : BitVec 12) (s : State) : Result :=
  done (if ulHears s k then s |> bypassAck k back.toNat |> ackCover k exp.toNat else s)

/-- Every held cell from `exp` is to be sent again, behind the marker row that began the replay. -/
def replayFrom (k exp : Nat) (s : State) : State :=
  let qs := ((s.link k).held.map (·.seq)).filter fun q => !beforeExp exp q
  s |>.linkUpd k (fun l => { l with replay := qs, replayTo := if qs.isEmpty then l.replayTo else qs.getLast?, heldAt := s.now })
    |> doIf (!qs.isEmpty) (·.set (Fld.UL_STATUS_REPLAY k) 1)
    |> ulRaise k 4

/-- Every held cell from `exp` is to be sent again, after a marker row with REPLAY (13 R332). -/
def ulReplay (k exp : Nat) (s : State) : State := s |> markerRow k 8 |> replayFrom k exp

/-- R332: a NAK; one that names a SEQ neither held nor the next is a protocol error. -/
def execBypassNak (k : Fin 4) (back : BitVec 8) (exp : BitVec 12) (s : State) : Result :=
  done (if ¬ ulHears s k then s
    else
      let s := s |> bypassAck k back.toNat |>.inc (Fld.UL_ERR_CNT_NAK_RCVD k) 1
      if ((s.link k).held.any fun c => c.seq == exp.toNat) ∨ exp.toNat = s.get (Fld.UL_SEQ_TX_NEXT k) then
        s |> ackCover k exp.toNat |> ulReplay k exp.toNat
      else ulProto k 2 exp.toNat s)

/-- R332: the oldest held cell has been unacknowledged for 2 µs with no NAK. -/
def execUlReplayTimeout (k : Fin 4) (s : State) : Result :=
  let l := s.link k
  done (match l.held with
    | c :: _ => if ulActive s k ∧ l.replay = [] ∧ 4 ≤ s.since l.heldAt then ulReplay k c.seq s else s
    | [] => s)

/-- An ACK cell with EXP_SEQ is sent. -/
def sendAck (k : Nat) (s : State) : State :=
  s.linkUpd k (fun l => { l with unacked := 0 }) |> sendBypass k 3 (leBytes 2 (s.get (Fld.UL_SEQ_RX_EXP k)))

/-- R329: an acknowledgement is sent. -/
def execUlAckSend (k : Fin 4) (s : State) : Result :=
  done (if ulActive s k ∧ s.get (Fld.UL_STATUS_LPM k) ≠ 2 ∧ (s.link k).unacked ≠ 0 then sendAck k s else s)

/-- NAK with EXP_SEQ is sent; the fourth without progress takes the link down (R330). -/
def sendNak (k : Nat) (s : State) : State :=
  s |>.inc (Fld.UL_ERR_CNT_NAK_SENT k) 1
    |>.linkUpd k (fun l => { l with nakNo := l.nakNo + 1, nakAt := s.now })
    |> sendBypass k 4 (leBytes 2 (s.get (Fld.UL_SEQ_RX_EXP k)))
    |> doIf (decide (4 ≤ (s.link k).nakNo + 1)) (ulDownCause k)

/-- A link error: delineation is lost and a NAK is sent, unless an error is outstanding already (R330). How many cells the far
end held at the error, up to 240, the receiver does not know: a free number of cells that its replay window waits for (log 183).
Before ACTIVE, where no cell is awaited and only INIT and INIT_ACK are sent (Table 13-4), it costs the delineation alone (log 227). -/
def ulLinkError (k : Nat) (s : State) : State :=
  let was := (s.link k).errOut
  if ulActive s k then
    s.linkUpd k (fun l => { l with lostSync := true, errOut := true, nakNo := if was then l.nakNo else 0,
                                   rxLeft := if was then l.rxLeft else s.draw.toNat % 241 })
      |>.drewOne
      |>.set (Fld.UL_STATUS_REPLAY k) 1
      |> ulRaise k 5
      |> doIf (!was) (sendNak k)
  else s.linkUpd k (fun l => { l with lostSync := true }) |> ulRaise k 5

/-- R330: the NAK is repeated 1 µs after the last while the error is outstanding. -/
def execUlNakRepeat (k : Fin 4) (s : State) : Result :=
  done (if ulActive s k ∧ s.get (Fld.UL_STATUS_LPM k) ≠ 2 ∧ (s.link k).errOut ∧ 2 ≤ s.since (s.link k).nakAt then sendNak k s else s)

/-! ## Receiving cells (13 R319, R328) -/

/-- The link carries no messages: wired against Table 14-2, between two groups (14 R345, R346), or in MAINTENANCE (03 R66). -/
def ulBarred (s : State) (k : Nat) : Bool := miswired s k || s.pel.split.contains k || s.mode == .maintenance

/-- The link is ACTIVE and carries messages. -/
def ulCarries (s : State) (k : Nat) : Bool := ulActive s k && !ulBarred s k

/-! ## The peer-to-local checker (09 R213 to R219) -/

/-- The number of bytes a READ asks for (13 R322). -/
def readLen (m : UMsg) : Nat := bitsOf (leAt m.data 0 2) 8 0

/-- SIZE of an ATOMIC message: COMPARE_SWAP carries two operands. -/
def atomicSize (m : UMsg) : Nat := if m.stat = 2 then m.data.length / 2 else m.data.length

/-- A message that asks for an access to a context of this member: WRITE, READ, ATOMIC, or a SEND (14 R349, 10 R243). -/
def peerRequest (s : State) (m : UMsg) : Bool := m.dst == s.me && ([1, 2, 3].contains m.mtype || m.send)

/-- How many bytes a request accesses. -/
def peerBytes (m : UMsg) : Nat := if m.mtype = 2 then readLen m else if m.mtype = 3 then atomicSize m else m.data.length

/-- A peer rule grants a request. -/
def peerRuleGrants (s : State) (m : UMsg) (rd wr : Bool) (r : Nat) : Bool :=
  s.forced (Fld.ACC_PEER0_EN r) == 1 && (s.forced (Fld.ACC_PEER0_SRC_ANY r) == 1 || s.forced (Fld.ACC_PEER0_SRC_GCTX r) == m.src) &&
    s.forced (Fld.ACC_PEER1_DST_CTX r) == m.ctx &&
    (if m.win = 255 then s.forced (Fld.ACC_PEER0_DUR r) == 1
      else decide (m.win < 16) && bitOf (s.forced (Fld.ACC_PEER1_WIN_MASK r)) m.win) &&
    (!rd || s.forced (Fld.ACC_PEER0_RD r) == 1) && (!wr || s.forced (Fld.ACC_PEER0_WR r) == 1)

/-- The check of a peer request; a SEND is checked at offset 0 of its window. -/
def peerVerdict (s : State) (m : UMsg) : Verdict :=
  let off := if m.send then 0 else m.off
  let rd : Bool := m.mtype == 2 || m.mtype == 3
  let wr : Bool := m.mtype != 2
  if ¬ (List.range 64).any (peerRuleGrants s m rd wr) then .noEntry
  else if m.win = 255 then checkApt s (onlineApt s m.ctx) off (peerBytes m)
  else checkWindow s m.ctx m.win off (peerBytes m) rd wr

/-- A peer request is checked: a context not IDLE or ACTIVE, a refusal, or where it leads from now on (09 R217). -/
def peerSee (s : State) (m : UMsg) : PeerSeen :=
  if ¬ s.live m.ctx then .gone
  else
    match peerVerdict s m with
    | .noEntry => .denied 0 0
    | .refused cause guard => .denied cause guard
    | .pass => .pass (onlineApt s m.ctx) (s.winPort m.ctx m.win) (s.winLocal m.ctx m.win) (s.winTmo m.ctx m.win)
        (s.isSet (Fld.WIN_ATTR_ACKED m.ctx m.win))

/-- The payload of an accepted cell joins its VC's stream; the requests that end in it are checked now (09 R217). -/
def ulAccept (k vc off seq : Nat) (data : List Byte) (s : State) : State :=
  let l := s.link k
  let old := tabGet (fun _ => []) l.rxPart vc
  let r := parseMsgs vc 300 (if old.isEmpty then data.drop off else old ++ data)
  match r.2.2 with
  | some e => ulProto k e seq s
  | none =>
    s.linkUpd k (fun l =>
        { l with rxPart := tabSet (fun _ => []) l.rxPart vc r.2.1,
                 rx := l.rx ++ (r.1.map fun m => (vc, { m with via := some (k, l.epoch), seen := if peerRequest s m then some (peerSee s m) else none })),
                 crHeld := l.crHeld.set vc (l.crHeld.getD vc 0 + 1), errOut := false, nakNo := 0,
                 unacked := l.unacked + 1, busyAt := s.now, rxLeft := l.rxLeft - 1 })
      |>.set (Fld.UL_SEQ_RX_EXP k) ((seq + 1) % 4096)
      |> ulFree k

/-- R328: a cell that passed CRC and delineation; it takes the link out of Coast (R336), and the sixteenth since the last
acknowledgement is acknowledged at once (R329). -/
def execUlCellReceive (k : Fin 4) (vc : Fin 4) (seq : BitVec 12) (ack : Option (BitVec 12)) (crVc : Fin 4) (crCount : BitVec 8)
    (off : Fin 257) (reserved : Bool) (data : List Byte) (s : State) : Result :=
  let exp := s.get (Fld.UL_SEQ_RX_EXP k)
  let q := seq.toNat
  done (if ¬ ulHears s k then s
    else if reserved then ulProto k 4 q s
    else if q = exp then
      if ulAdvertised.getD vc 0 ≤ crUsed (s.link k) vc then ulProto k 3 q s
      else
        (match ack with | some a => ackCover k a.toNat s | none => s)
          |> ulCredit k crVc crCount.toNat
          |> doIf (s.get (Fld.UL_STATUS_LPM k) == 1) (lpmLeave k 0)
          |> ulAccept k vc off q (sliceBytes data 0 256)
          |> (fun s => doIf (decide (16 ≤ (s.link k).unacked)) (sendAck k) s)
    else if beforeExp exp q then sendAck k s
    else if (s.link k).errOut then s
    else ulProto k 1 q s)

/-! ## Sending units (13 R325) -/

/-- A ROUTED message that carries a routed item, not a SEND. -/
def isRouted (m : UMsg) : Bool := m.mtype == 5 && !m.send

/-- Two routed items of one member for one member, which keep their order on their way (10 R242; log 184). -/
def sameWay (x m : UMsg) : Bool := isRouted x && isRouted m && x.src / 1024 == m.src / 1024 && x.dst == m.dst

/-- Messages of a link without the routed items that an earlier one of the same way, waiting or begun (`part`), still precedes
on another VC. -/
def inTurn (part : List UMsg) : List UMsg → List UMsg
  | [] => []
  | m :: ms =>
    if part.any (fun x => sameWay x m && vcOf x != vcOf m) then inTurn part ms
    else m :: inTurn (part ++ [m]) ms

/-- The next message of a VC: C0 ahead of C1, responses to C0 and C1 requests ahead of others; routed items in turn. -/
def nextOf (vc : Nat) (part tx : List UMsg) : Option UMsg :=
  let mine := (inTurn part tx).filter fun m => vcOf m == vc
  let ahead (m : UMsg) : Bool := if vc = 0 then m.cls == 0 else vc == 2 && decide (m.cls ≤ 1)
  (mine.find? ahead).orElse fun _ => mine.head?

/-- The bytes of a cell: messages are packed until 256 bytes are there; with each message, where it ends. -/
def packCell (vc : Nat) (part : List UMsg) : Nat → List UMsg → List Byte → List (UMsg × Nat) → List UMsg × List Byte × List (UMsg × Nat)
  | 0, tx, b, es => (tx, b, es)
  | fuel + 1, tx, b, es =>
    if 256 ≤ b.length then (tx, b, es)
    else
      match nextOf vc part tx with
      | none => (tx, b, es)
      | some m => packCell vc part fuel (tx.erase m) (b ++ msgBytes m) (es ++ [(m, b.length + (msgBytes m).length)])

/-- The messages begun and not yet sent whole. -/
def Ul.begun (l : Ul) : List UMsg := l.part.map fun p => p.2.2

/-- A VC has something to send. -/
def vcReady (l : Ul) (vc : Nat) : Bool := (tabFind l.part vc).isSome || (nextOf vc l.begun l.tx).isSome

/-- A new cell of the VC may be sent. -/
def vcMay (s : State) (k vc : Nat) : Bool :=
  vcReady (s.link k) vc && s.get (crAvail k vc) != 0 && decide ((s.link k).held.length < 240)

/-- A cell as it is sent now: its header with ACK and credit fields, its payload and CRC (13 Table 13-8). -/
def cellBytes (s : State) (k : Nat) (c : UCell) : List Byte :=
  let v := (s.link k).crNext
  let b := leBytes 1 (16 + c.vc * 4 + 2) ++ leBytes 2 c.seq ++ leBytes 2 (s.get (Fld.UL_SEQ_RX_EXP k)) ++ leBytes 1 v ++
    leBytes 1 ((s.link k).crFreed.getD v 0) ++ leBytes 2 c.off ++ leBytes 3 0 ++ c.data
  b ++ leBytes 4 (crc32c b).toNat

/-- A cell leaves: its ACK field acknowledges, its credit field reports one VC. -/
def emitCell (k : Nat) (c : UCell) (s : State) : State :=
  s |> emitUnit k (cellBytes s k c) |> emit (.cell k "CELL" c.seq (cellBytes s k c))
    |>.linkUpd k (fun l => { l with unacked := 0, csent := l.csent + 1, crTold := l.crTold.set l.crNext (l.crFreed.getD l.crNext 0),
                                    crNext := (l.crNext + 1) % 4, busyAt := s.now })

/-- A new cell of a VC is formed and sent. -/
def newCell (k vc : Nat) (s : State) : State :=
  let l := s.link k
  let old := tabFind l.part vc
  let b0 := match old with | some p => p.1 | none => []
  let r := packCell vc l.begun 20 l.tx b0 (match old with | some p => [(p.2, p.1.length)] | none => [])
  let c : UCell := { seq := s.get (Fld.UL_SEQ_TX_NEXT k), vc := vc, off := min 256 b0.length, data := sliceBytes r.2.1 0 256,
                     ends := (r.2.2.filter fun e => decide (e.2 ≤ 256)).map (·.1) }
  let rest : Table (List Byte × UMsg) :=
    match r.2.2.getLast? with
    | some e => if 256 < r.2.1.length then tabPut l.part vc (r.2.1.drop 256, e.1) else tabDel l.part vc
    | none => tabDel l.part vc
  s |> emitCell k c
    |>.linkUpd k (fun l => { l with tx := r.1, part := rest, held := l.held ++ [c],
                                    heldAt := if l.held.isEmpty then s.now else l.heldAt,
                                    alt := if vc = 1 ∨ vc = 3 then !l.alt else l.alt, stalled := false })
    |>.dec (crAvail k vc) 1
    |>.set (Fld.UL_SEQ_TX_NEXT k) ((c.seq + 1) % 4096)
    |> updHeld k

/-- Cells that a direction carries in a stroke (13 R325, R326). -/
def cellRoom (s : State) (k : Nat) : Nat := if s.isSet (Fld.UL_STATUS_W4 k) then 28 else 56

/-- Something waits for the stream of a link. -/
def ulDue (s : State) (k : Nat) : Bool := !(s.link k).replay.isEmpty || !(s.link k).blate.isEmpty || [0, 1, 2, 3].any (vcReady (s.link k))

/-- R325: in Coast and Park what is due wakes the link (R336, R337); else the transmitter takes the first available unit: replay,
VC0, VC2, then VC3 and VC1 in turn, as many as the stroke carries. Bypass cells leave when they are due. UL_STALL is raised when a
full replay buffer or a zero VC0 credit stops it. -/
def execUlEgressUnit (k : Fin 4) (s : State) : Result :=
  let l := s.link k
  done (if ¬ ulCarries s k then s
    else if s.get (Fld.UL_STATUS_LPM k) ≠ 0 then
      doIf (ulDue s k) (lpmLeave k (if s.get (Fld.UL_STATUS_LPM k) = 2 then 4 else 0)) s
    else if cellRoom s k ≤ l.csent then s
    else
      match l.replay with
      | q :: qs =>
        (match l.held.find? (fun (c : UCell) => c.seq == q) with
          | some c => s |> emitCell k c |>.inc (Fld.UL_REPLAY_REPLAYED k) 1
          | none => s)
          |>.linkUpd k fun l => { l with replay := qs }
      | [] =>
        if l.lpmGo.isSome then s
        else
          match ([0, 2] ++ (if l.alt then [1, 3] else [3, 1])).find? (vcMay s k) with
          | some vc => newCell k vc s
          | none =>
            let stall : Bool := (decide (240 ≤ l.held.length) && [0, 1, 2, 3].any (vcReady l)) ||
              (vcReady l 0 && s.get (crAvail k 0) == 0)
            if stall ∧ ¬ l.stalled then s.linkUpd k (fun l => { l with stalled := true }) |> ulRaise k 8 else s)

/-! ## Training and INIT (13 R311 to R318) -/

/-- What the receiver knew of its lanes ends with a new training: MAP_EPOCH starts at 0, no lane is retired or locked (13 R312,
R313). -/
def lanesForget (k : Nat) (s : State) : State :=
  s |>.set (Fld.UL_LANES_EPOCH k) 0 |>.set (Fld.UL_LANES_RETIRED k) 0
    |> doAll (List.range 9) (fun p => (·.set (Fld.UL_LANE_RX_LOCKED k p) 0))

/-- R311, R306: training starts: the preset takes force on every transmit lane, IDLE rows with TRAIN marker rows are sent. After
reset lane 8 is the spare (02 R18); which lanes carry the stream in a later training, before the far end's map is in use, is not stated:
once the link has been ACTIVE the map is drawn (log 183). -/
def trainStart (k : Nat) (s : State) : State :=
  let p := presetOf s k
  let map := if (s.link k).upAt = 0 then 0x76543210 else s.draw.toNat % 2 ^ 32
  s |>.linkUpd k (fun l => { l with locked := false, ackSent := false, ackRcvd := false, lostSync := true, newMap := none,
                                    txEpoch := 0, preset := p, told := false, wrong := 0, syncErr := [], initAt := none, blate := [],
                                    rxLeft := 0 })
    |>.lineUpd k (fun l => { l with words := 0, map := map, epoch := 0, next := none }) |>.drewOne
    |> lanesForget k
    |> emit (.ulFir k (presetTaps p).1 (mainTap (presetTaps p)) (presetTaps p).2) |> emit (.ulLine k 64 4) |> markerRow k 4

/-- The link enters TRAIN. -/
def ulTrain (k : Nat) (s : State) : State := s |> ulTo k 1 |> trainStart k

/-- Lanes of a bitmap, lowest first. -/
def lanesOf (passed : Nat) : List Nat := (List.range 9).filter (bitOf passed)

/-- The receive map of the passing lanes: 0xF for logical lanes unused at W = 4 (13 R313). -/
def laneMap (passed : Nat) : Nat :=
  let ls := lanesOf passed
  let w := if 8 ≤ ls.length then 8 else 4
  ((List.range 8).map fun j => (if j < w then ls.getD j 15 else 15) * 16 ^ j).sum

/-- This direction supports only W = 4: fewer than 8 lanes passed, or the link ran at W = 4 and UL_CTL.RETRAIN did not order this
training (13 R313, R335; log 228). -/
def rxW4 (s : State) (k : Nat) : Bool :=
  decide ((lanesOf (s.get (Fld.UL_LANES_PASSED k))).length < 8) || (s.isSet (Fld.UL_STATUS_W4 k) && !(s.link k).retrain)

/-- What the receiver measured on a lane: values the spec does not state (log 7). -/
def laneMeasure (k : Nat) (passed p : Nat) (s : State) : State :=
  s |>.set (Fld.UL_LANE_RX_LOCKED k p) (bitOf passed p).toNat
    |>.set (Fld.UL_LANE_RX_CTLE k p) s.draw.toNat |>.set (Fld.UL_LANE_RX_DFE1 k p) (s.draw.toNat / 16)
    |>.set (Fld.UL_LANE_RX_EYE k p) (s.draw.toNat / 1024) |>.drewOne

/-- The link trains: TRAIN, or HOLD before the lanes have locked. -/
def training (s : State) (k : Nat) : Bool := s.ulState k == 1 || (s.ulState k == 4 && !(s.link k).locked)

/-- The receiver maps the lanes that passed: W, the lane map and the spare. -/
def lanesMapped (k n : Nat) (s : State) : State :=
  s |>.setWord (Adr.UL_MAP k) (BitVec.ofNat 32 (laneMap n))
    |>.set (Fld.UL_STATUS_SPARE_RX k) (decide ((lanesOf n).length = 9)).toNat
    |>.linkUpd k (fun l => { l with locked := true, lostSync := false })
    |> doIf (s.ulState k == 1) (ulTo k 2)

/-- R313: the lanes that passed the training; with four or more the receiver maps them, fewer fail the training. -/
def execUlLanesLocked (k : Fin 4) (passed : BitVec 9) (s : State) : Result :=
  let n := passed.toNat
  done (if training s k then
      s |>.set (Fld.UL_LANES_PASSED k) n |>.set (Fld.UL_LANES_RETIRED k) (511 - n)
        |> doAll (List.range 9) (fun p => laneMeasure k n p)
        |>.linkUpd k (fun l => { l with told := true })
        |> doIf (decide (4 ≤ (lanesOf n).length)) (lanesMapped k n)
    else s)

/-- R311, R312: TRAIN_TMO expires: a lane that has not passed is counted failed, and training starts again. -/
def execUlTrainTimeout (k : Fin 4) (s : State) : Result :=
  done (if training s k ∧ s.get (Fld.UL_TIMERS_TRAIN_TMO k) ≤ s.since (s.link k).since then
      s.inc (Fld.UL_EVT_CNT_TRAIN_FAIL k) 1 |> doIf (!(s.link k).told) (·.set (Fld.UL_LANES_PASSED k) 0)
        |>.linkUpd k (fun l => { l with since := s.now }) |> trainStart k
    else s)

/-- The body of INIT (13 R318). -/
def initBody (s : State) (k : Nat) : List Byte :=
  leBytes 1 1 ++ leBytes 1 s.me ++ leBytes 1 (s.get Fld.DEV_STRAP_TOPOLOGY) ++
    leBytes 1 ((s.link k).fresh.toNat + 2 * (rxW4 s k).toNat) ++ ulAdvertised.flatMap (leBytes 1) ++
    leBytes 2 (s.get (Fld.UL_SEQ_RX_EXP k)) ++ leBytes 1 (s.get (Fld.UL_TIMERS_GRACE k)) ++ leBytes 1 0 ++
    leBytes 4 (s.word (Adr.UL_MAP k)).toNat ++ leBytes 4 (s.word Adr.PEL_IDENT_LO).toNat ++ leBytes 4 (s.word Adr.PEL_IDENT_HI).toNat

/-- R318: INIT is sent every 2 µs in PARAM, and in HOLD once the lanes have locked. -/
def execUlInitSend (k : Fin 4) (s : State) : Result :=
  done (if inParam s k ∧ (s.link k).initAt.all (fun t => decide (4 ≤ s.since t)) then
      s.linkUpd k (fun l => { l with initAt := some s.now }) |> sendBypass k 1 (initBody s k)
    else s)

/-- Members that this one knows of: itself, the joined ones, those that the INITs of its other links named. -/
def knownMembers (s : State) (k : Nat) : List Nat :=
  (List.range 8).filter fun m =>
    m == s.me || s.joined m || [0, 1, 2, 3].any fun j => j != k && (s.link j).init.isSome && s.get (Fld.UL_PEER_MEMBER j) == m

/-- The member that Table 14-2 places on a link: in a mesh one member. In a ring a neighbour, and the same one on both links of a
double; the ring's size is known only by its wrap from the highest member to member 0 (14 R345; log 185). -/
def wiredRight (s : State) (k m : Nat) : Bool :=
  let me := s.me
  let known := knownMembers s k
  let twin := if k < 2 then k + 2 else k - 2
  if s.get Fld.DEV_STRAP_TOPOLOGY = 2 then m == (if k < me then k else k + 1)
  else
    (!(s.link twin).init.isSome || s.get (Fld.UL_PEER_MEMBER twin) == m) &&
      (if k % 2 = 0 then m == me + 1 || (m == 0 && me != 0 && known.all fun x => decide (x ≤ me))
       else if me = 0 then m != 0 && known.all fun x => decide (x ≤ m)
       else m + 1 == me)

/-- Everything of a link starts from 0 and from the advertisements (13 R339). -/
def ulStart (k : Nat) (i : UInit) (s : State) : State :=
  s |>.set (Fld.UL_SEQ_TX_NEXT k) 0 |>.set (Fld.UL_SEQ_RX_EXP k) 0
    |> doAll [0, 1, 2, 3] (fun vc s => s.set (crAvail k vc) (i.credits.getD vc 0))
    |>.linkUpd k (fun l => { l with crSeen := [0, 0, 0, 0], crFreed := [0, 0, 0, 0], crTold := [0, 0, 0, 0], crHeld := [0, 0, 0, 0],
                                    crNext := 0, held := [], part := [], replay := [], replayTo := none, rxPart := [],
                                    unacked := 0 })
    |> updHeld k

/-- Sequenced bypass cells are numbered from 0 at each entry to ACTIVE; those still held are sent again (13 R317). -/
def bypassStart (k : Nat) (s : State) : State :=
  let old := (s.link k).bheld.map (fun b => (b.bt, b.body)) ++ (s.link k).bwait
  s.linkUpd k (fun l => { l with bseq := 0, bexp := 0, bheld := [], bwait := [] })
    |> doAll old (fun b => sendBypass k b.1 b.2)

/-! ## Flush (13 R340, Table 13-13) -/

/-- A request of a peer that this member only forwards. -/
def forwarded (s : State) (m : UMsg) : Bool :=
  m.dst != s.me && (senderOf s m).1 != s.me && ([1, 2, 3, 6, 7].contains m.mtype || m.send)

/-- A ROUTED message carries a segment of a FRAME; its SOF and its EOF. -/
def routedFrameSeg (m : UMsg) : Bool := bitsOf m.off 33 32 == 1
def routedSof (m : UMsg) : Bool := bitOf m.off 34
def routedEof (m : UMsg) : Bool := bitOf m.off 35

/-- A routed item is dropped as PEER_LOST on its way, a FRAME once, with its EOF: counted on the port it entered on with its
kind and ID there, on a member it only passes through on the port it goes to (10 R242, R245; log 161). -/
def routedDrop (m : UMsg) (s : State) : State :=
  if ¬ isRouted m ∨ (routedFrameSeg m ∧ ¬ routedEof m) then s
  else
    match m.port with
    | some (p, kind, ident) => countDrop p 7 kind ident 0 s
    | none => countDrop (m.win % 4) 7 (if routedFrameSeg m then 1 else 2) (m.off % 65536) 0 s

/-- A message that a flush discards: a routed item is dropped; a forwarded request is answered NO_TARGET (14 R348). -/
def msgLost (s0 : State) (m : UMsg) (s : State) : State :=
  if isRouted m then routedDrop m s else if forwarded s0 m then peerAns m .notIssued s else s

/-- What names the incoming routed frame of a segment: source member, link it came on, class. -/
def frameKey (m : UMsg) : Nat × Nat × Nat := (m.src / 1024, (match m.via with | some v => v.1 | none => 4), m.cls)

/-- The segments of a port's incoming routed frames whose numbers satisfy `gone` are discarded: of a dropped item nothing
more leaves the port (10 R245). -/
def framesLost (p : Nat) (gone : Nat → Bool) (s : State) : State :=
  let mine (e : Egr) : Bool := match e.frame with | some n => gone n | none => false
  s |> dropItems (fun i => match i.work with | .descLocal q e => q == p && mine e | _ => false)
    |>.lbUpd p (fun l => { l with
        egress := l.egress.filter (fun e => !mine e),
        routedFrame := (match l.routedFrame with | some f => if gone f.1 then none else some f | none => none),
        rframes := l.rframes.filter fun x => !gone x.2 })

/-- Received messages without the segments of routed frames whose EOF is not among them. -/
def wholeFrames : List (Nat × UMsg) → List (Nat × UMsg)
  | [] => []
  | e :: es =>
    let open_ : Bool := isRouted e.2 && routedFrameSeg e.2 && !routedEof e.2 &&
      !(es.any fun x => isRouted x.2 && routedFrameSeg x.2 && routedEof x.2 && frameKey x.2 == frameKey e.2)
    if open_ then wholeFrames es else e :: wholeFrames es

/-- A flush of link `k` ends the routed frames still coming in on it (13 Table 13-13, 10 R245): their sender counts them. -/
def rxFramesLost (k : Nat) (s : State) : State :=
  let rx := (s.link k).rx
  let ends (x : Nat × Nat × Nat) : Bool := rx.any fun e => isRouted e.2 && routedFrameSeg e.2 && routedEof e.2 && frameKey e.2 == x
  s |> doAll [0, 1, 2, 3] (fun p s =>
        framesLost p (fun n => (s.lb p).rframes.any fun x => x.2 == n && x.1.2.1 == k && !ends x.1) s)
    |>.linkUpd k fun l => { l with rx := wholeFrames l.rx }

/-- An item that waits for slots toward the link ends with the flush. -/
def linkItemLost (k : Nat) (w : Work) (s : State) : State :=
  match w with
  | .descPeer d off n m => answer (.desc d off n) (if m.mtype = 2 then 0 else if m.mtype = 3 then 3 else 2) (.linkLost k) s
  | .routed id => (match s.ritems.find? fun r => r.id == id with
    | some r => s |> dropRItem r |> countDrop r.port 7 r.kind r.ident r.route
    | none => s)
  | .message m => msgLost s m s
  | _ => s

/-- A request outstanding on the link ends with the flush. A mirror copy stays unacknowledged; a STATE of a pairing or
handover counts as refused: `stateLost` says how. -/
def reqLost (stateLost : Nat → Nat → State → State) (k : Nat) (r : Nat × ReqSrc × UMsg) (s : State) : State :=
  match r.2.1 with
  | .state stype c => stateLost stype c s
  | src => answer src (if r.2.2.mtype = 2 then 0 else if r.2.2.mtype = 3 then 3 else 2) (.linkLost k) s

/-- A STATE message of a pairing or handover ended without its RESP: the command completes with NO_RESOURCE, a handover
counts as refused (14 R357, R360), a JOIN is sent again (R346), a rejoin is compared again (R362). -/
def stateLost (stype c : Nat) (s : State) : State :=
  match stype with
  | 4 =>
    (match (s.ctx c).pairing with
      | some p => s.ctxUpd c (fun x => { x with pairing := none }) |> cmdDone p.cmd 4 []
      | none => s.ctxUpd c fun x => { x with rejoin := false })
  | 5 => s.ctxUpd c fun x => { x with handover := 2 }
  | 2 => { s with pel := { s.pel with joinSent := false } }
  | _ => s

/-- Forwarded commands that went by the link: not acknowledged, PEER_UNREACHABLE; beyond that point, INTERRUPTED (16
R411); requests that came by it are forgotten. -/
def mbxLost (k : Nat) (s : State) : State :=
  let gone := s.mbx.out.filter fun o => o.link == k
  s.mbxUpd (fun m => { m with out := m.out.filter (fun o => o.link != k), got := m.got.filter (fun p => p.link != k),
                              relay := m.relay.filter fun x => x.1 != k && x.2.2 != k })
    |> doAll gone (fun o => cmdDone o.id (if o.acked then 6 else 0xC) [])

/-- Mirrored apertures whose partner is reached by the link, or which have a copy on it that is not acknowledged. -/
def mirroredBy (s : State) (k : Nat) : List Nat :=
  s.aptIds.filter fun a =>
    (s.mirror a == 1 || s.mirror a == 3) &&
      ((match s.aptCtx a with
        | some c => (match s.partner c with | some (m, sc) => s.routeFor m sc == some k | none => false)
        | none => false) ||
       s.ds.copies.any fun x => x.apt == a && (s.link k).reqs.any fun r => r.2.1 == .mirror x.n)

/-- What a flush discards of a link. It ends with the far end's group, which the two may meet again (14 R346). -/
def ulDiscard (k : Nat) (s : State) : State :=
  let l := s.link k
  let items := s.cad.items.filter fun i => !i.up && i.tgt == 4 + k && (match i.work with | .mirror _ => false | _ => true)
  let apts := mirroredBy s k
  let photo := l.bheld.any (fun b => b.bt == 12) || l.bwait.any (fun b => b.1 == 12)
  s |> dropItems (fun i => items.any fun j => j.id == i.id)
    |>.linkUpd k (fun l => { l with tx := [], part := [], held := [], replay := [], replayTo := none, rxPart := [],
                                    reqs := [], treq := [], bheld := [], bwait := [], blate := [], rxLeft := 0, fresh := true, epoch := l.epoch + 1, unacked := 0,
                                    errOut := false, nakNo := 0, holdAt := none, downDue := false, lpmAsk := none, lpmGo := none })
    |> updHeld k
    |> rxFramesLost k
    |> soloNext apts
    |> doAll (l.reqs ++ l.treq.map fun x => (0, x.1, x.2)) (reqLost stateLost k)
    |> (fun s => { s with pel := { s.pel with split := s.pel.split.filter (· != k) } })
    |> doAll items (fun i => linkItemLost k i.work)
    |> doAll (l.held.flatMap (·.ends) ++ l.part.map (fun p => p.2.2) ++ l.tx) (fun m s => msgLost s m s)
    |> mbxLost k
    |> doIf photo (·.set Fld.PFS_STAT_BCAST_LOST 1)

/-- A flush is told of: counted, in the fault log, UL_FLUSH (13 R340, 18 R447). -/
def flushTold (k : Nat) (s : State) : State :=
  s |>.inc (Fld.UL_EVT_CNT_FLUSHES k) 1 |> logEv 0x0042 (leBytes 1 k ++ leBytes 1 (s.get (Fld.UL_PEER_MEMBER k))) |> ulRaise k 7

/-- The link is flushed and goes on in TRAIN. -/
def ulFlush (k : Nat) (s : State) : State := s |> ulDiscard k |> flushTold k |> ulTrain k |> updRoutes

/-! ## The INIT exchange (13 R318, R339) -/

/-- The link runs at W = 4: only the four lowest logical lanes carry it, and there is no spare (R313). -/
def narrow (k : Nat) (s : State) : State :=
  let cut (m : Nat) : Nat := m % 65536 + 0xFFFF0000
  s.setWord (Adr.UL_MAP k) (BitVec.ofNat 32 (cut (s.word (Adr.UL_MAP k)).toNat)) |>.set (Fld.UL_STATUS_SPARE_RX k) 0
    |>.linkUpd k (fun l => { l with txMap := cut l.txMap })
    |>.lineUpd k (fun l => { l with map := cut l.map, next := l.next.map fun x => (x.1, cut x.2) })

/-- ACTIVE is entered; at W = 4 the link is degraded, a Degrading fault (13 R335; 18 R435). -/
def ulUp (k : Nat) (i : UInit) (s : State) : State :=
  let w4 : Bool := i.w4 || rxW4 s k
  s |> ulTo k 3 |> doIf w4 (narrow k)
    |>.linkUpd k (fun l => { l with holdAt := none, fresh := false, errOut := false, nakNo := 0, downDue := false, busyAt := s.now,
                                    heldAt := s.now, upAt := s.now, stalled := false, lostSync := false, retrain := false })
    |>.set (Fld.UL_STATUS_W4 k) w4.toNat
    |>.set (Fld.UL_STATUS_SPARE_TX k) (if w4 then 0 else s.draw.toNat % 2) |>.drewOne
    |> emit (.ulLine k 1024 0)
    |> bypassStart k
    |> updUlShort k
    |> updRoutes
    |> ulRaise k 0
    |> doIf w4 (ulRaise k 3)
    |> doIf (w4 && !s.isSet (Fld.UL_STATUS_W4 k)) (fun s => s |> reportDegraded |> logEv 0x0041 (leBytes 1 k))

/-- The far end's EXP_SEQ lies within the held cells or equals the next SEQ. -/
def resumable (s : State) (k : Nat) (i : UInit) : Bool :=
  !(s.link k).fresh && !i.fresh &&
    ((s.link k).held.any (fun c => c.seq == i.exp) || i.exp == s.get (Fld.UL_SEQ_TX_NEXT k))

/-- The exchange is complete: a link in HOLD resumes by replay, or both ends flush; any other starts from 0. -/
def tryUp (k : Nat) (s : State) : State :=
  match (s.link k).init with
  | some i =>
    if ¬ (inParam s k ∧ (s.link k).ackSent ∧ (s.link k).ackRcvd) then s
    else if s.ulState k = 4 ∧ resumable s k i then s |> ulUp k i |> ackCover k i.exp |> ulReplay k i.exp
    else if s.ulState k = 4 then
      s |> ulDiscard k |> flushTold k |> ulStart k i |> ulUp k i
    else s |> ulStart k i |> ulUp k i
  | none => s

/-- UL_PEER and MISWIRED follow an accepted INIT. -/
def peerKnown (k m topo : Nat) (s : State) : State :=
  let bad := !wiredRight s k m
  let was := miswired s k
  s |>.set (Fld.UL_PEER_MEMBER k) m |>.set (Fld.UL_PEER_TOPOLOGY k) topo |>.set (Fld.UL_PEER_REV k) 1
    |>.set Fld.PEL_STATUS_MISWIRED
      ((if bad then orBit else clearBit) (s.get Fld.PEL_STATUS_MISWIRED) k)
    |> doIf (bad && !was) (raise 8)

/-- R318: an INIT: refused for its revision or digest, or adopted and answered with INIT_ACK, its map in use from the first marker
row after that (R313); in ACTIVE it is answered once more. Its BACK acknowledges (R317). -/
def execBypassInit (k : Fin 4) (back rev member topo : BitVec 8) (fresh w4 : Bool) (credits : Word) (exp : BitVec 12) (grace : BitVec 8)
    (map : Word) (digest : BitVec 64) (s : State) : Result :=
  let own := (s.word Adr.PEL_IDENT_LO).toNat + 2 ^ 32 * (s.word Adr.PEL_IDENT_HI).toNat
  let cr := [0, 1, 2, 3].map fun vc => bitsOf credits.toNat (8 * vc + 7) (8 * vc)
  done (if ¬ (ulHears s k ∨ paramHears s k) then s
    else
      let s := bypassAck k back.toNat s
      if rev ≠ 1 ∨ digest.toNat ≠ own then
        s |>.set (Fld.UL_PEER_REV k) rev.toNat
          |>.set (Fld.UL_PEER_MISMATCH k) 1 |> ulRaise k 10
      else if ulActive s k then sendBypass k 2 (leBytes 1 (s.link k).txEpoch) s
      else
        s |> peerKnown k (bitsOf member.toNat 2 0) (bitsOf topo.toNat 1 0)
          |> doAll [0, 1, 2, 3] (fun vc s => s.set (crPeer k vc) (cr.getD vc 0))
          |>.linkUpd k (fun l => { l with init := some ⟨fresh, w4, cr, exp.toNat, grace.toNat⟩, txMap := map.toNat, txEpoch := 0,
                                          ackSent := true })
          |> sendBypass k 2 (leBytes 1 0)
          |>.lineUpd k (fun l => { l with next := some (0, map.toNat) })
          |> tryUp k)

/-- R318: an INIT_ACK. In ACTIVE its BACK acknowledges (R317); before it the far end may have entered ACTIVE and numbers its cells anew
(log 229). -/
def execBypassInitAck (k : Fin 4) (back epoch : BitVec 8) (s : State) : Result :=
  done (if ulHears s k then bypassAck k back.toNat s
    else if paramHears s k ∧ epoch = 0 then s.linkUpd k (fun l => { l with ackRcvd := true }) |> tryUp k
    else s)

/-! ## UL_CTL (13 R311, R338) -/

/-- Coast or Park ends with the link's ACTIVE: UL_LPM (13 R337, Table 13-14). -/
def lpmEnds (k : Nat) (s : State) : State :=
  doIf (s.get (Fld.UL_STATUS_LPM k) != 0) (fun s => s.set (Fld.UL_STATUS_LPM k) 0 |> ulRaise k 9) s

/-- R311: UL_CTL.EN: 1 starts training, 0 takes the link to RESET, which leaves it no sequence state. -/
def ulCtlEn (k : Nat) (en : Bool) (s : State) : State :=
  let st := s.ulState k
  let s := s.set (Fld.UL_CTL_EN k) en.toNat
  if en then (if st = 0 ∧ ¬ s.standAlone then ulTrain k s else s)
  else if st = 0 then s
  else if st = 3 ∨ st = 4 then
    s |> ulDiscard k |> flushTold k |> ulTo k 0 |> lpmEnds k |> emit (.ulLine k 0 0) |> updRoutes
  else s |> ulTo k 0 |> emit (.ulLine k 0 0)

/-- R311: a write of UL_CTL.EN. -/
def execUlCtlEnWrite (k : Fin 4) (en : Bool) (s : State) : Result := done (ulCtlEn k en s)

/-- R338, R335: a write of 1 to UL_CTL.RETRAIN: the link goes down, and the training it orders, or that runs already, may return it
to W = 8. -/
def execUlRetrain (k : Fin 4) (s : State) : Result :=
  done (s |> ulDownCause k |> doIf (s.ulState k != 0) (·.linkUpd k fun l => { l with retrain := true }))

/-- The link goes down at boundary `at_`: HOLD, the down event, and retraining. -/
def ulDown (k : Nat) (at_ : Stroke) (s : State) : State :=
  s |> ulTrain k |> ulTo k 4
    |>.linkUpd k (fun l => { l with downDue := false, holdAt := some at_, errOut := false, nakNo := 0, lpmAsk := none, lpmGo := none })
    |> lpmEnds k |>.set (Fld.UL_STATUS_SHIFT k) 0 |>.set (Fld.UL_STATUS_REPLAY k) 0
    |>.set (Fld.UL_DOWN_TS_STROKE_LO k) (at_.toNat % 2 ^ 32)
    |>.inc (Fld.UL_EVT_CNT_DOWNS k) 1
    |> ulRaise k 1

/-- R338: at the boundary to come a down cause takes the link to HOLD. -/
def execUlLinkDown (k : Fin 4) (s : State) : Result :=
  done (if (s.link k).downDue ∧ ulActive s k then ulDown k (s.now + 1) s else s)

/-- The grace period in strokes: the smaller of the two ends' (R338). -/
def graceOf (s : State) (k : Nat) : Nat :=
  let own := s.get (Fld.UL_TIMERS_GRACE k)
  1000 * (match (s.link k).init with | some i => min own (max 1 i.grace) | none => own)

/-- The grace periods of the links to a member, as the INITs of both ends gave them, leave 64 strokes below an ACK_TMO (14 R359). -/
def cleanOk (s : State) (m ack : Nat) : Bool :=
  let l := [0, 1, 2, 3].filter fun k => (s.link k).init.isSome && s.get (Fld.UL_PEER_MEMBER k) == m
  !l.isEmpty && l.all fun k => decide (graceOf s k + 64 ≤ ack)

/-- PEL_TANDEM: CLEAN_OK is by the ACK_TMO of the home side, as it stands there or as its last TANDEM message gave it, and the grace
periods of now (14 R359, Table 14-10). -/
def tandemWord (s : State) (c : Nat) : Nat :=
  let role := s.get (Fld.PEL_TANDEM_ROLE c)
  let ack := if role = 1 then s.get Fld.DS_MIRROR_CTL_ACK_TMO else (s.ctx c).homeAck
  withBits (s.word (Adr.PEL_TANDEM c)).toNat 29 29 (role != 0 && cleanOk s (s.get (Fld.PEL_TANDEM_PEER_MEMBER c)) ack).toNat

/-- The grace period has elapsed at boundary `at_`. -/
def graceOver (s : State) (k : Nat) (at_ : Stroke) : Bool :=
  s.ulState k == 4 && match (s.link k).holdAt with | some t => decide (graceOf s k ≤ (at_ - t).toNat) | none => false

/-- R340: at the boundary to come the grace period has elapsed without ACTIVE: the link is flushed. -/
def execUlGraceExpiry (k : Fin 4) (s : State) : Result := done (if graceOver s k (s.now + 1) then ulFlush k s else s)

/-! ## Derailleur shift (13 R333 to R335) -/

/-- The spare receive lane: passed, not retired, and in no logical lane; at W = 4 there is none (R313). -/
def spareLane (s : State) (k : Nat) : Option Nat :=
  let map := (s.word (Adr.UL_MAP k)).toNat
  if s.isSet (Fld.UL_STATUS_W4 k) then none
  else (List.range 9).find? fun p =>
    bitOf (s.get (Fld.UL_LANES_PASSED k)) p && !bitOf (s.get (Fld.UL_LANES_RETIRED k)) p &&
      !((List.range 8).any fun j => bitsOf map (4 * j + 3) (4 * j) == p)

/-- A map with one lane in place of another. -/
def swapLane (map old new : Nat) : Nat :=
  ((List.range 8).map fun j => (if bitsOf map (4 * j + 3) (4 * j) = old then new else bitsOf map (4 * j + 3) (4 * j)) * 16 ^ j).sum

/-- A shift of the receive direction starts (R334). -/
def shiftStart (k lane spare : Nat) (s : State) : State :=
  let e := (s.get (Fld.UL_LANES_EPOCH k) + 1) % 256
  let m := swapLane (s.word (Adr.UL_MAP k)).toNat lane spare
  s |>.set (Fld.UL_STATUS_SPARE_RX k) 0 |>.set (Fld.UL_STATUS_SHIFT k) 1 |>.inc (Fld.UL_EVT_CNT_SHIFTS k) 1
    |>.linkUpd k (fun l => { l with newMap := some (e, m) })
    |> ulRaise k 2 |> logEv 0x0040 (leBytes 1 k ++ leBytes 1 0 ++ leBytes 1 lane) |> ulLinkError k
    |> sendBypass k 9 (leBytes 1 lane ++ leBytes 1 e ++ leBytes 4 m)
    |> reportCie

/-- A receive lane carries a logical lane. -/
def laneUsed (s : State) (k lane : Nat) : Bool := logicalLane (s.word (Adr.UL_MAP k)).toNat lane != 15

/-- A receive lane is faulty (R333 to R335), a link error (R330): one in no logical lane is retired, the spare among them; an active
lane shifts to the spare, or the link goes down for retraining. In the INIT exchange it is retired. -/
def laneFault (k lane : Nat) (s : State) : State :=
  let spare := spareLane s k
  let s1 := s.set (Fld.UL_LANES_RETIRED k) (orBit (s.get (Fld.UL_LANES_RETIRED k)) lane)
  if bitOf (s.get (Fld.UL_LANES_RETIRED k)) lane then s
  else if ¬ ulActive s k then doIf (inParam s k) (fun _ => ulLinkError k s1) s
  else if ¬ laneUsed s k lane then s1 |> doIf (spare == some lane) (·.set (Fld.UL_STATUS_SPARE_RX k) 0) |> ulLinkError k
  else
    match spare with
    | some p => if (s.link k).newMap.isSome then s1 |> ulLinkError k |> ulDownCause k else shiftStart k lane p s1
    | none => s1 |> ulLinkError k |> ulDownCause k

/-- R333: a receive lane loses block lock. -/
def execUlLaneFault (k : Fin 4) (lane : Fin 9) (s : State) : Result :=
  done (s |> doIf (ulActive s k || inParam s k) (·.set (Fld.UL_LANE_RX_LOCKED k lane) 0) |> laneFault k lane)

/-- An invalid sync header (`sync`), or an unknown block type, on a lane: a block error, and a link error where the lane is active
(R330); invalid sync headers are counted, and the eighth since the last marker row makes the lane faulty (R333). -/
def blockError (k p : Nat) (sync : Bool) (s : State) : State :=
  let n := tabGet (fun _ => 0) (s.link k).syncErr p + 1
  s.inc (Fld.UL_ERR_CNT_BLOCK k) 1
    |> doIf sync (fun s => s.inc (Fld.UL_LANE_RX_SYNC_ERR k p) 1
        |>.linkUpd k (fun l => { l with syncErr := tabSet (fun _ => 0) l.syncErr p n }))
    |> doIf (laneUsed s k p) (ulLinkError k)
    |> doIf (sync && n == 8) (laneFault k p)

/-- R330: a link error, in ACTIVE and in the INIT exchange, whose cells are units too (R310). -/
def execUlLinkError (k : Fin 4) (e : UlError) (s : State) : Result :=
  done (if ulActive s k ∨ inParam s k then
      (match e with
        | .crc => s.inc (Fld.UL_ERR_CNT_CRC k) 1 |> ulLinkError k
        | .bypassCrc => s.inc (Fld.UL_BYP_CRC k) 1 |> ulLinkError k
        | .block p sync => blockError k p sync s
        | .marker | .kind => ulLinkError k s)
    else s)

/-- R334: a SHIFT_REQ, logged as a shift of the transmit direction (18 R447): the transmitter sends a marker row with SHIFT and the new epoch, uses the new map from the next row on, and
replays, behind a marker row with REPLAY (R332). -/
def execBypassShiftReq (k : Fin 4) (bseq back lane epoch : BitVec 8) (map : Word) (s : State) : Result :=
  let (s, ok) := bypassSeq k bseq.toNat back.toNat s
  done (if ok ∧ lane.toNat < 9 then
      s.linkUpd k (fun l => { l with txMap := map.toNat, txEpoch := epoch.toNat })
        |>.lineUpd k (fun l => { l with epoch := epoch.toNat, next := none })
        |> markerRow k 1
        |>.lineUpd k (fun l => { l with map := map.toNat })
        |>.set (Fld.UL_STATUS_SPARE_TX k) 0 |>.set (Fld.UL_STATUS_SHIFT k) 1
        |> logEv 0x0040 (leBytes 1 k ++ leBytes 1 1 ++ leBytes 1 lane.toNat)
        |> ulReplay k (match (s.link k).held with | c :: _ => c.seq | [] => s.get (Fld.UL_SEQ_TX_NEXT k))
    else s)

/-- A row that carries the new epoch on at least 6 lanes brings the new map into force (R334). -/
def mapShifts (k epoch lanes : Nat) (s : State) : State :=
  match (s.link k).newMap with
  | some (e, m) =>
    if e = epoch ∧ 6 ≤ lanes then
      s |>.setWord (Adr.UL_MAP k) (BitVec.ofNat 32 m) |>.set (Fld.UL_LANES_EPOCH k) e |>.linkUpd k fun l => { l with newMap := none }
    else s
  | none => s

/-- R309, R333, R334, R336, R337: a marker row restores delineation and may bring a new map; a lane whose MARKER is of the wrong
logical lane (`wrong`) in two rows in a row is faulty; a row without LPM takes the link out of Coast, one with TRAIN out of
Park. -/
def execMarkerRowReceive (k : Fin 4) (epoch : BitVec 8) (lanes : Fin 10) (flags : BitVec 8) (wrong : BitVec 9) (s : State) : Result :=
  let twice := wrong.toNat &&& (s.link k).wrong
  done (s |>.linkUpd k (fun l => { l with lostSync := false, syncErr := [], wrong := wrong.toNat })
    |> mapShifts k epoch.toNat lanes
    |> doIf (s.get (Fld.UL_STATUS_LPM k) == 1 && !bitOf flags.toNat 1) (lpmLeave k 0)
    |> doIf (s.get (Fld.UL_STATUS_LPM k) == 2 && bitOf flags.toNat 2) (lpmLeave k 4)
    |> doAll ((List.range 9).filter (bitOf twice)) (laneFault k))

/-- The replay and shift windows close at the end of a stroke in which nothing of them is left (R332, R334). -/
def windowsClose (k : Nat) (s : State) : State :=
  let l := s.link k
  if l.errOut ∨ l.rxLeft ≠ 0 ∨ l.replayTo.isSome ∨ l.newMap.isSome then s
  else s |>.set (Fld.UL_STATUS_REPLAY k) 0 |>.set (Fld.UL_STATUS_SHIFT k) 0

/-! ## Delay (13 R316) -/

/-- R316: a DELAY_REQ is answered; its receive time and the turnaround are measured by the link. -/
def execBypassDelayReq (k : Fin 4) (back : BitVec 8) (sent recv : BitVec 64) (turn : Word) (s : State) : Result :=
  done (if ulHears s k then
      s |> bypassAck k back.toNat |> sendBypass k 8 (leBytes 8 sent.toNat ++ leBytes 8 recv.toNat ++ leBytes 4 turn.toNat)
    else s)

/-- R316: a DELAY_RESP that arrives at time `now_`: the one-way delay is half of the round trip less the turnaround. -/
def execBypassDelayResp (k : Fin 4) (back : BitVec 8) (sent now_ : BitVec 64) (turn : Word) (s : State) : Result :=
  done (if ulHears s k then
      s |> bypassAck k back.toNat |>.set (Fld.UL_DELAY_ONE_WAY k) (min 65535 (((now_ - sent).toNat - turn.toNat) / 2))
    else s)

/-- R316: every 2,000 strokes the device sends DELAY_REQ with its send time. -/
def execDelayReqSend (k : Fin 4) (t : BitVec 64) (s : State) : Result :=
  done (if ulActive s k ∧ s.get (Fld.UL_STATUS_LPM k) ≠ 2 ∧ 2000 ≤ s.since (s.link k).delayAt then
      s.linkUpd k (fun l => { l with delayAt := s.now }) |> sendBypass k 7 (leBytes 8 t.toNat)
    else s)

end Sys2Proof.Machine
end

