-- ==== Sys2Proof/Machine/Peer.lean ====
section
/-! DEFINITION. Machine/Peer.lean: messages of the Ulirin stream at the member they address: peer requests and their check
(09 R219; 14 R349), routed items (10 R242), mirror writes (11 R260), responses (13 R323), forwarding (14 R348). -/
namespace Sys2Proof.Machine

/-! ## The message to process -/

/-- A received message stands behind an earlier routed item of the same way (10 R242). -/
def rxBehind (l : Ul) (e : Nat × UMsg) : Bool := (l.rx.takeWhile (· != e)).any fun x => sameWay x.2 e.2

/-- The oldest message of a link's VC, where `p` holds of it: messages of one VC are processed in order; on a link that carries no
messages they wait (03 R66; 14 R345, R346). -/
def rxHead (s : State) (k : Nat) (p : UMsg → Bool) : Option (Nat × UMsg) :=
  if ulBarred s k then none
  else
    [0, 1, 2, 3].findSome? fun vc =>
      match (s.link k).rx.find? fun e => e.1 == vc with
      | some e => if p e.2 ∧ ¬ rxBehind (s.link k) e then some e else none
      | none => none

/-- The oldest message of a VC that satisfies `p` is taken from the link, and `f` done with it. -/
def onMsg (k : Nat) (p : UMsg → Bool) (f : UMsg → State → State) (s : State) : Result :=
  done (match rxHead s k p with
    | some e => s.linkUpd k (fun l => { l with rx := l.rx.erase e }) |> f e.2 |> ulFree k
    | none => s)

/-- A message of a type for this member. -/
def forMe (s : State) (t : Nat) (m : UMsg) : Bool := m.mtype == t && m.dst == s.me

/-! ## Peer requests (14 R349) -/

/-- A refusal is answered DENIED and recorded (09 Table 09-4). ACC_VLOG holds as ADDR the offset that the request gives, and as SRC
the home member of its global context (DESIGN CHOICE, log 221). -/
def peerRefused (m : UMsg) (cause guard : Nat) (s : State) : State :=
  s |> accVlog true 3 cause 1 (m.src / 1024) guard m.ctx m.off |>.inc Fld.ACC_CNT_PEER 1 |> raise 267 |> peerAns m .denied

/-- A peer request goes on as its check at acceptance ended (09 R217): NO_TARGET, DENIED, or `f` is done with where it
leads. -/
def peerChecked (f : Option Nat → WinMap → State → State) (m : UMsg) (s : State) : State :=
  match m.seen.getD (peerSee s m) with
  | .gone => peerAns m .notIssued s
  | .denied cause guard => peerRefused m cause guard s
  | .pass apt port laddr tmo acked => f apt { port := port, laddr := laddr, tmo := tmo, acked := acked } s

/-- A checked request takes downward slots toward its port, charged to DST_CTX in its class. -/
def peerToPort (m : UMsg) (pkt : Pkt) (bytes : Nat) (w : WinMap) (s : State) : State :=
  let la := w.laddr + m.off
  let e : Egr := { pkt := { pkt with cls := m.cls, addr := la, ctx := m.ctx, win := m.win }, src := some (.peer m 0), tmo := w.tmo }
  if s.lbActive w.port then
    s |> addItem false m.ctx m.cls w.port bytes false (.descLocal w.port e)
  else peerAns m .notIssued s

/-- A checked request on an aperture takes downward slots toward the store. -/
def peerToStore (m : UMsg) (bytes : Nat) (apt : Option Nat) (s : State) : State :=
  match apt with
  | some a => addItem false m.ctx (carried m.cls 8) 8 bytes false (.peerDur m a) s
  | none => peerAns m .notIssued s

/-- R349: a peer WRITE. -/
def execUlWriteReceive (k : Fin 4) (s : State) : Result :=
  onMsg k (forMe s 1) (fun m s =>
    peerChecked (fun apt w s =>
      if m.win = 255 then peerToStore m m.data.length apt s
      else peerToPort m { op := if w.acked then 2 else 1, len := m.data.length, data := m.data } m.data.length w s) m s) s

/-- R349: a peer READ. -/
def execUlReadReceive (k : Fin 4) (s : State) : Result :=
  onMsg k (forMe s 2) (fun m s =>
    peerChecked (fun apt w s =>
      if m.win = 255 then peerToStore m 0 apt s else peerToPort m { op := 0, len := readLen m } 0 w s) m s) s

/-- R349: a peer ATOMIC, on a window only; an aperture has no atomic operations (06 Table 06-3). -/
def execUlAtomicReceive (k : Fin 4) (s : State) : Result :=
  onMsg k (forMe s 3) (fun m s =>
    peerChecked (fun _ w s =>
      if m.win = 255 then peerAns m (.code 1) s
      else peerToPort m { op := 3, sub := m.stat, len := atomicSize m, data := m.data } m.data.length w s) m s) s

/-- A slot given to a peer's request on an aperture: a write, or a mirror write, waits for admission, a read is answered (14 R349,
11 R260). -/
def peerStoreRun (m : UMsg) (a : Nat) (s : State) : State :=
  let k : Nat := match m.via with | some v => v.1 | none => 0
  if m.mtype = 1 then waitAdmission ⟨.peer k m, a, m.off, m.data⟩ s
  else if m.mtype = 6 then waitAdmission ⟨.mirror k m, a, m.off, m.data⟩ s
  else
    match badAt s a m.off (readLen m) with
    | some u => peerAns m (.media u) s
    | none => s |> lookupAll a m.off (readLen m) |> peerAns m (.ok (aptBytes s a m.off (readLen m)))

/-! ## Routed items (10 R242, R243) -/

/-- A routed MSG at its member: downward slots toward PORT in its class, charged to context 0; dropped where the port is not
ACTIVE: MSG_DROP_LOG then has the destination port, and the kind and ID as sent (DESIGN CHOICE, log 204). -/
def routedMsgHere (m : UMsg) (s : State) : State :=
  let p := m.win % 4
  if s.lbActive p then
    addItem false 0 m.cls p m.data.length false
      (.descLocal p { pkt := { op := 4, cls := m.cls, len := m.data.length, addr := m.off % 65536, data := m.data },
                      origin := some (m.src / 1024) }) s
  else countDrop p 7 2 (m.off % 65536) 0 s

/-- The number of the incoming routed frame that a segment belongs to. -/
def frameNo (s : State) (p : Nat) (m : UMsg) : Option Nat := ((s.lb p).rframes.find? fun x => x.1 == frameKey m).map (·.2)

/-- A segment of a routed FRAME at its member. Its SOF opens the frame under a number of its own, and ends one of the same
way whose EOF never came; a SOF that meets a port not ACTIVE drops the frame once, and so its other segments (10 R242). -/
def routedSegHere (m : UMsg) (s : State) : State :=
  let p := m.win % 4
  let info := m.off % 2 ^ 32
  let s := if ¬ routedSof m then s
    else
      let s := match frameNo s p m with | some n => framesLost p (· == n) s | none => s
      if s.lbActive p then s.lbUpd p fun l => { l with rframes := l.rframes ++ [(frameKey m, s.cad.nextId)] }
      else countDrop p 7 1 (info % 65536) 0 s
  match frameNo s p m with
  | none => s
  | some n =>
    let pkt : Pkt := { op := 5, cls := m.cls, len := m.data.length, addr := if routedSof m then info else 0,
                       aux := (routedSof m).toNat + 2 * (routedEof m).toNat, data := m.data }
    addItem false 0 m.cls p m.data.length false (.descLocal p { pkt := pkt, frame := some n, origin := some (m.src / 1024) }) s
      |> doIf (routedEof m) (·.lbUpd p fun l => { l with rframes := l.rframes.filter fun x => x.2 != n })

/-- A routed item at its member. -/
def routedHere (m : UMsg) (s : State) : State := if routedFrameSeg m then routedSegHere m s else routedMsgHere m s

/-- A SEND of a peer's descriptor to a window of this member: checked as a write, sent on the window's port, and answered when
the MSG is issued (10 R244; log 40). -/
def sendHere (m : UMsg) (s : State) : State :=
  peerChecked (fun _ w s =>
    let pkt : Pkt := { op := 4, cls := m.cls, len := m.data.length, addr := m.off % 65536, ctx := m.ctx, win := m.win, data := m.data }
    if s.lbActive w.port then
      addItem false m.ctx m.cls w.port m.data.length false (.descLocal w.port { pkt := pkt, src := some (.peer m 0), tmo := w.tmo }) s
    else peerAns m .notIssued s) m s

/-- R242: a ROUTED message. -/
def execUlRoutedReceive (k : Fin 4) (s : State) : Result :=
  onMsg k (forMe s 5) (fun m s => if m.send then sendHere m s else routedHere m s) s

/-! ## Mirror writes (11 R260; 14 R356) -/

/-- A mirror write takes downward C2 slots toward the store, charged to the context that it is for (07 R158, 11 R260), and waits then
for admission into aperture `a`. -/
def mirrorIn (m : UMsg) (a : Nat) (s : State) : State := addItem false m.ctx 2 8 m.data.length false (.peerDur m a) s

/-- R260, R269: a MIRROR_WRITE goes into the standby aperture of DST_CTX, and is acknowledged after its admission; to a home
context, of a unit that it lacks, into its aperture, and of any other it is only acknowledged. -/
def execMirrorWriteReceive (k : Fin 4) (s : State) : Result :=
  onMsg k (forMe s 6) (fun m s =>
    match tabGet (fun _ => none) s.ds.standby m.ctx, s.ds.backFor.find? fun x => x.1 == m.ctx with
    | some a, _ => if m.off + m.data.length ≤ s.aptSize a then mirrorIn m a s else peerAns m (.code 1) s
    | none, some (_, a) => if (unitsOf s a m.off m.data.length).all s.ds.back.contains then mirrorIn m a s else peerAns m (.ok []) s
    | none, none => peerAns m .notIssued s) s

/-! ## Responses (13 R323) -/

/-- The outstanding request that a RESP answers: of its own link, else of another link toward the responding member. -/
def respOf (s : State) (k : Nat) (m : UMsg) : Option (Nat × Nat × ReqSrc × UMsg) :=
  ((k :: [0, 1, 2, 3]).findSome? fun j =>
    ((s.link j).reqs.find? fun r => r.1 == m.tag && (j == k || r.2.2.dst == m.src / 1024)).map fun r => (j, r))

/-- A request is no longer outstanding; the first that waits for a tag leaves. -/
def reqEnds (j tag : Nat) (s : State) : State :=
  let s := s.linkUpd j fun l => { l with reqs := l.reqs.filter fun r => r.1 != tag }
  match (s.link j).treq with
  | x :: xs => if tagsOut s j then s else s.linkUpd j (fun l => { l with treq := xs }) |> sendTagged j x.1 x.2
  | [] => s

/-- What a RESP STATUS means (13 Table 13-11). The offset of a MEDIA_ERR, which no RESP carries, is drawn (log 7). -/
def ansOf (s : State) (m : UMsg) : Ans :=
  match m.stat with
  | 0 => .ok m.data
  | 2 => .code 2
  | 3 => .code 3
  | 4 => .timeout
  | 5 => .denied
  | 6 => .media (s.draw.toNat % 2 ^ 32)
  | _ => .code 1

/-- A RESP that acknowledges a mirror copy. -/
def acksMirror (s : State) (k : Nat) (m : UMsg) : Bool :=
  forMe s 4 m && m.stat == 0 && (match respOf s k m with | some (_, _, .mirror _, _) => true | _ => false)

/-- R253: a RESP OK of the partner acknowledges a mirror copy. -/
def execMirrorAckReceive (k : Fin 4) (s : State) : Result :=
  onMsg k (acksMirror s k) (fun m s =>
    match respOf s k m with
    | some (j, t, .mirror n, _) => s |> reqEnds j t |> mirrorAcked n
    | _ => s) s

/-! ## Forwarding (14 R348) -/

/-- R348: a message for another member takes downward slots toward its route, charged to context 0 in its class; a request
without a route is answered NO_TARGET, a routed item dropped. -/
def execMessageForward (k : Fin 4) (s : State) : Result :=
  onMsg k (fun m => m.dst != s.me) (fun m s =>
    match s.routeFor m.dst m.ctx with
    | some j => addItem false 0 m.cls (4 + j) m.data.length false (.message m) s
    | none => if [1, 2, 3, 6, 7].contains m.mtype ∨ m.send then peerAns m .notIssued s else routedDrop m s) s

end Sys2Proof.Machine
end

