-- ==== Sys2Proof/Machine/Peloton.lean ====
section
/-! DEFINITION. Machine/Peloton.lean: the peloton: joining, views, loss and quorum, fencing, pairing, failover, handover and
rejoin, stroke markers (14 R343 to R365; 07 R157; 16 R405). -/
namespace Sys2Proof.Machine

/-- The peloton block changed. -/
def State.pelUpd (s : State) (f : Pel → Pel) : State := { s with pel := f s.pel }

/-- STATE of the peloton block: 0 stand-alone, 1 JOINING, 2 JOINED, 3 FENCED, 4 LEAVING, 5 SPLIT. -/
def State.pelState (s : State) : Nat := s.get Fld.PEL_STATUS_STATE

/-- This member is joined: JOINED; LEAVING, which it reads from the drain that PEL_LEAVE orders (log 95); SPLIT, in which its group
stays joined until the board controller resets it (14 R346). -/
def State.isMember (s : State) : Bool := s.pelState == 2 || s.pelState == 4 || s.pelState == 5

/-- The joined members of the view held. -/
def joinedMembers (s : State) : List Nat := (List.range 8).filter s.joined

/-- This member leads its peloton (07 R157). -/
def State.leads (s : State) : Bool := s.isMember && s.get Fld.PEL_STATUS_LEADER == s.me

/-- Members recognised as lost and not joined again. -/
def lostAlready (s : State) (m : Nat) : Bool := s.pel.losses.any fun x => x.member == m

/-- What a new JOINED means for the losses: one that joins again is lost no more; one that leaves JOINED before its loss is recognised
here keeps the JOINED of the last view that included it (14 R353). -/
def viewMoves (old new : Nat) (s : State) : State :=
  let back (m : Nat) : Bool := bitOf new m && !bitOf old m
  let left := (List.range 8).filter fun m => bitOf old m && !bitOf new m && m != s.me && !lostAlready s m
  s.pelUpd fun p => { p with losses := p.losses.filter (fun x => !back x.member), leaves := p.leaves.filter (fun x => !back x.1),
                             gone := p.gone.filter (fun x => !back x.1) ++ left.map fun m => (m, old) }

/-- EPOCH and JOINED become new: counted, source 8; the lowest-numbered joined member leads, and a member that begins to
follow disciplines no more (07 R156, R157). -/
def setView (epoch joined : Nat) (s : State) : State :=
  if epoch = s.get Fld.PEL_VIEW_EPOCH ∧ joined = s.get Fld.PEL_VIEW_JOINED then s
  else
    s |> viewMoves (s.get Fld.PEL_VIEW_JOINED) joined
      |>.set Fld.PEL_VIEW_EPOCH epoch |>.set Fld.PEL_VIEW_JOINED joined
      |>.set Fld.PEL_STATUS_LEADER (((List.range 8).find? (bitOf joined)).getD 0)
      |>.inc Fld.PEL_CNT_VIEWS 1 |> raise 8 |> followStep

/-- The answer to a STATE message: RESP with LEN 0, which like the message itself takes no slot (log 41). -/
def stateAns (m : UMsg) (ok : Bool) (s : State) : State :=
  if viaGone s m then s
  else
    sendTo { respMsg s m (peerStat (if ok then .ok [] else .code 1)) [] with
             dst := m.src / 1024, ctx := m.src % 1024, src := s.me * 1024 } s

/-- STYPE of a STATE message for this member; during a firmware restart STATE messages wait (18 R441). -/
def stype (s : State) (t : Nat) (m : UMsg) : Bool := forMe s 7 m && leAt m.data 0 1 == t && !s.restarting

/-! ## Views (14 R352) -/

/-- The data of VIEW; `lead` is its LEADER bit. -/
def viewData (s : State) (lead : Bool) : List Byte :=
  leBytes 1 1 ++ leBytes 1 s.me ++ leBytes 2 (s.get Fld.PEL_VIEW_EPOCH) ++ leBytes 1 (s.get Fld.PEL_VIEW_JOINED) ++
    leBytes 1 (directMap s) ++ leBytes 1 lead.toNat ++ leBytes 1 0

/-- A STATE message to a member, from context 0, where there is a route. -/
def stateTo (t : Nat) (data : List Byte) (m : Nat) (s : State) : State := (sendState m t 0 data s).1

/-- VIEW to every other joined member. -/
def sendViews (lead : Bool) (s : State) : State :=
  s |> doAll ((joinedMembers s).filter (· != s.me)) (stateTo 1 (viewData s lead))
    |>.pelUpd fun p => { p with viewAt := s.now, saidLinks := directMap s, saidEpoch := s.get Fld.PEL_VIEW_EPOCH }

/-- R352: VIEW at each change of the direct links or of the epoch, and every 2,000 strokes. -/
def execViewSend (s : State) : Result :=
  done (if s.isMember ∧ ¬ s.restarting ∧ (directMap s ≠ s.pel.saidLinks ∨ s.get Fld.PEL_VIEW_EPOCH ≠ s.pel.saidEpoch ∨ 2000 ≤ s.since s.pel.viewAt) then
      sendViews s.leads s
    else s)

/-- R352: a VIEW: the sender's links; EPOCH and JOINED are adopted from the leader. -/
def execStateView (k : Fin 4) (s : State) : Result :=
  onMsg k (stype s 1) (fun m s =>
    let from_ := leAt m.data 1 1 % 8
    let v : View := ⟨leAt m.data 2 2, leAt m.data 4 1, leAt m.data 5 1⟩
    s.pelUpd (fun p => { p with views := tabSet (fun _ => none) p.views from_ (some v) })
      |> doIf (bitOf (leAt m.data 6 1) 0 && !s.leads) (fun s =>
          setView v.epoch v.joined s |>.pelUpd fun p => { p with named := p.named || bitOf v.joined s.me })
      |> updRoutes
      |> stateAns m true) s

/-! ## Joining (14 R346) -/

/-- The links that a JOINING member may send on. -/
def joinLinks (s : State) : List Nat := [0, 1, 2, 3].filter (ulCarries s)

/-- The first ACTIVE link: the one that has been ACTIVE longest, the lower-numbered of two (log 186). -/
def joinLink (s : State) : Option Nat :=
  (joinLinks s).find? fun k => (joinLinks s).all fun j => decide (s.since (s.link j).upAt ≤ s.since (s.link k).upAt)

/-- The lowest-numbered leader whose STROKE cells come on an ACTIVE link: the joined member that JOIN is for (log 186). -/
def joinTarget (s : State) : Option Nat := (List.range 8).find? fun m => s.pel.heard.any fun h => h.2 == m && (joinLinks s).contains h.1

/-- R346: a JOINING member sends JOIN on its first ACTIVE link to the lowest-numbered joined member it can reach, `dst`, which
its neighbour forwards where it is farther off; during a firmware restart it waits (18 R441). -/
def execJoinSend (k : Fin 4) (dst : Fin 8) (s : State) : Result :=
  done (if s.pelState = 1 ∧ ¬ s.restarting ∧ joinLink s = some k.val ∧ joinTarget s = some dst.val ∧ ¬ s.pel.joinSent ∧ dst.val ≠ s.me then
      sendReq k (.state 2 0) (stateMsg s dst 0 (leBytes 1 2 ++ leBytes 1 s.me ++ leBytes 1 (s.get Fld.DEV_STRAP_TOPOLOGY) ++ leBytes 1 0)) s
        |>.pelUpd fun p => { p with joinSent := true }
    else s)

/-- R346: the leader adds a member: the epoch rises, and its VIEW goes to every joined member, also where the member added is
the lowest-numbered one and leads from its join on. -/
def execStateJoin (k : Fin 4) (s : State) : Result :=
  onMsg k (stype s 2) (fun m s =>
    let j := leAt m.data 1 1 % 8
    if s.leads then
      setView ((s.get Fld.PEL_VIEW_EPOCH + 1) % 65536) (orBit (s.get Fld.PEL_VIEW_JOINED) j) s
        |> updRoutes |> stateAns m true |> sendViews true
    else stateAns m false s) s

/-- R346: with no joined member heard JOIN_WAIT ms after the straps were sampled, the lowest-numbered JOINING member reachable
forms the peloton; alone, it raises source 11. -/
def execJoinWaitExpiry (s : State) : Result :=
  let reach := (List.range 8).filter fun m => m = s.me || (s.hop m).isSome
  done (if s.pelState = 1 ∧ ¬ s.pel.joinSent ∧ s.pel.views = [] ∧ joinTarget s = none ∧ 2000 * s.get Fld.PEL_CTL_JOIN_WAIT ≤ s.since s.pel.since ∧
      reach.all (fun m => decide (s.me ≤ m)) then
      s |>.set Fld.PEL_STATUS_STATE 2 |> setView 1 (orBit 0 s.me) |> doIf (decide (reach.length ≤ 1)) (raise 11)
    else s)

/-- The link between two groups carries bypass cells only. -/
def splitLink (k : Nat) (s : State) : State := s.pelUpd (fun p => { p with split := p.split ++ [k] }) |> updRoutes

/-- R346: two formed groups have met: a member of the one, which follows `leader`, is known over a link, either as its far end, and
then the link carries bypass cells only, or through a member of the own group there (log 187). Every member of the group of the
higher leader reads SPLIT. -/
def execPelotonSplit (k : Fin 4) (leader : Fin 8) (s : State) : Result :=
  let own : Bool := s.joined (s.get (Fld.UL_PEER_MEMBER k))
  let higher : Bool := decide (leader.val < s.get Fld.PEL_STATUS_LEADER) && s.pelState != 5
  done (if s.isMember ∧ ulActive s k ∧ ¬ s.joined leader ∧ ¬ s.pel.split.contains k.val then
      s |> doIf (!own) (splitLink k) |> doIf higher (fun s => s.set Fld.PEL_STATUS_STATE 5 |> raise 8)
    else s)

/-! ## Stroke markers (07 R157) -/

/-- The skew of a marker as a number of hub cycles, from its two's complement byte. -/
def skewOf (v : Nat) : Nat := if v < 128 then v else 256 - v

/-- ALIGNED becomes 0: counted; CAD_ALIGN (07 R171). -/
def alignLost (s : State) : State :=
  if s.isSet Fld.CAD_PEL_ALIGN_ALIGNED then
    s |>.set Fld.CAD_PEL_ALIGN_ALIGNED 0 |>.set Fld.CAD_STATUS_ALIGNED 0 |>.inc Fld.CAD_PEL_ALIGN_LOSSES 1 |> raise 262
  else s

/-- ALIGNED becomes 1; CAD_ALIGN. -/
def alignGained (s : State) : State :=
  if s.isSet Fld.CAD_PEL_ALIGN_ALIGNED then s
  else s |>.set Fld.CAD_PEL_ALIGN_ALIGNED 1 |>.set Fld.CAD_STATUS_ALIGNED 1 |> raise 262

/-- The stroke leader as CAD_PEL_ALIGN shows it; CAD_ALIGN where it changes. -/
def alignLeader (s : State) : State :=
  if s.get Fld.CAD_PEL_ALIGN_LEADER = s.leads.toNat ∧ s.get Fld.CAD_PEL_ALIGN_LEADER_ID = s.get Fld.PEL_STATUS_LEADER then s
  else
    s |>.set Fld.CAD_PEL_ALIGN_LEADER s.leads.toNat |>.set Fld.CAD_PEL_ALIGN_LEADER_ID (s.get Fld.PEL_STATUS_LEADER) |> raise 262

/-- R157: a STROKE cell of the leader, with the skew measured against it: ALIGNED follows the skew; a member that a VIEW
has named and that has not joined takes the count of its peloton's cell, and adopts it at the next boundary, once. -/
def execBypassStroke (k : Fin 4) (back : BitVec 8) (stroke : Stroke) (leader : Fin 8) (hops : BitVec 8) (phase : BitVec 16)
    (skew : BitVec 8) (s : State) : Result :=
  let mine : Bool := leader.val == s.get Fld.PEL_STATUS_LEADER && (leader.val != s.me || s.pelState == 1) && s.pel.named
  done (if ¬ ulHears s k then s
    else
      bypassAck k back.toNat s
        |> doIf (s.pelState == 1 && !s.pel.heard.contains (k.val, leader.val)) (·.pelUpd fun p => { p with heard := p.heard ++ [(k.val, leader.val)] })
        |> doIf mine (fun s =>
        s |>.set Fld.CAD_PEL_ALIGN_SKEW skew.toNat
          |>.cadUpd (fun c => { c with mark := some s.now, leader := some leader.val })
          |>.pelUpd (fun p => { p with hops := if p.adopt.isSome || s.isMember then min p.hops hops.toNat else hops.toNat })
          |> doIf (decide (skewOf skew.toNat ≤ 1) && decide (phase.toNat < 8000)) alignGained
          |> doIf (decide (8 < skewOf skew.toNat)) alignLost
          |> doIf (s.pelState == 1) (·.pelUpd fun p => { p with adopt := some (stroke + 1) })))

/-- The STROKE cell of this boundary on a link: the count, the leader, the hops from it; its phase is drawn (log 7). -/
def strokeMarker (k : Nat) (s : State) : State :=
  sendBypass k 6 (leBytes 6 s.now.toNat ++ leBytes 1 (s.get Fld.PEL_STATUS_LEADER) ++
    leBytes 1 (if s.leads then 0 else s.pel.hops + 1) ++ leBytes 2 (s.draw.toNat % 8000)) s |>.drewOne

/-- The stroke of the last marker as a member follows it: one that begins to follow counts from the boundary at which it does. -/
def markStep (s : State) : State :=
  if ¬ follows s then s.cadUpd fun c => { c with mark := none }
  else if s.cad.mark.isNone then s.cadUpd fun c => { c with mark := some (s.now - 1) }
  else s

/-- Alignment at a boundary: the leader and those behind it send markers, a boundary moves one hub cycle toward the
leader's, four whole strokes without a marker lose alignment, and an adopted count takes force (07 R157). What SKEW reads on a
leader is not stated: a member that becomes the leader keeps its last value (DESIGN CHOICE, log 170). -/
def alignStep (s : State) : State :=
  let s := markStep s
  let v := s.get Fld.CAD_PEL_ALIGN_SKEW
  s |> alignLeader
    |> doIf (s.leads || s.standAlone) alignGained
    |> doIf (follows s && v != 0) (·.set Fld.CAD_PEL_ALIGN_SKEW (if v < 128 then v - 1 else (v + 1) % 256))
    |> doIf (follows s && (match s.cad.mark with | some t => decide (5 ≤ s.since t) | none => false)) alignLost
    |> (fun s => match s.pel.adopt with
        | some n =>
          if s.pelState = 1 then
            { s with now := n }.pelUpd (fun p => { p with adopt := none, heard := [] }) |>.set Fld.PEL_STATUS_STATE 2 |> raise 8 |> followStep
          else s
        | none => s)
    |> doIf (s.isMember) (doAll ([0, 1, 2, 3].filter fun k => ulActive s k && s.get (Fld.UL_STATUS_LPM k) != 2) strokeMarker)

/-! ## Loss and quorum (14 R353) -/

/-- The members of a view still reached, this one among them. -/
def reached (s : State) (l : List Nat) : List Nat := l.filter fun m => m = s.me || (s.hop m).isSome

/-- This member holds quorum in a view with these members, lowest first. -/
def quorumIn (s : State) (l : List Nat) : Bool :=
  let r := (reached s l).length
  decide (l.length < 2 * r) || (2 * r == l.length && (match l.head? with | some m => (reached s l).contains m | none => false))

/-- This member holds quorum in the view it holds. -/
def quorum (s : State) : Bool := quorumIn s (joinedMembers s)

/-- The members of the last view that included `m`, while its loss may still be recognised. -/
def lastView (s : State) (m : Nat) : Option (List Nat) :=
  if s.joined m then some (joinedMembers s)
  else (s.pel.gone.find? fun x => x.1 == m).map fun x => (List.range 8).filter (bitOf x.2)

/-- No latest view shows a direct link to a member. -/
def unseen (s : State) (m : Nat) : Bool := (joinedMembers s).all fun n => n == m || lostAlready s n || !bitOf (linksOf s n) m

/-- The LEAVE accepted from a member. -/
def leaveOf (s : State) (m : Nat) : Option (List Byte) := (s.pel.leaves.find? fun x => x.1 == m).map (·.2)

/-- R353: a member is lost at the boundary to come; also one that the leader's VIEW has taken out of JOINED since. -/
def lossDue (s : State) (m : Nat) : Bool :=
  s.isMember && m != s.me && !lostAlready s m &&
    (match lastView s m with | some l => (leaveOf s m).isSome || (unseen s m && quorumIn s l) | none => false)

/-- Mirrored apertures here whose partner is a member. -/
def mirroredWith (s : State) (m : Nat) : List Nat :=
  s.aptIds.filter fun a =>
    match s.aptCtx a with
    | some c => (match s.partner c with | some (n, _) => n == m | none => false)
    | none => false

/-- At a loss this member's own requests outstanding to the member, or waiting to be sent to it, complete with NO_TARGET; routed items
that wait for it are dropped, and of other members' requests that wait here to be forwarded to it each is answered NO_TARGET (14 R348,
R353). -/
def dropRequests (m : Nat) (s : State) : State :=
  let waitsFor (x : UMsg) : Bool := x.dst == m && x.mtype != 4
  let mine (w : Work) : Bool := match w with | .descPeer _ _ _ x | .message x => waitsFor x | _ => false
  let items := s.cad.items.filter fun i => mine i.work
  let reqs := [0, 1, 2, 3].flatMap fun k => (s.link k).reqs.filter fun r => r.2.2.dst == m
  let waiting := [0, 1, 2, 3].flatMap fun k => (s.link k).tx.filter waitsFor
  s |> dropItems (fun i => items.any fun j => j.id == i.id)
    |> doAll [0, 1, 2, 3] (fun k s => s.linkUpd k fun l =>
        { l with reqs := l.reqs.filter (fun r => r.2.2.dst != m), tx := l.tx.filter (fun x => !waitsFor x) })
    |> doAll reqs (fun r s => match r.2.1 with
        | .state t c => stateLost t c s
        | src => answer src (if r.2.2.mtype = 2 then 0 else if r.2.2.mtype = 3 then 3 else 2) (.code 3) s)
    |> doAll waiting (fun x s => msgLost s x s)
    |> doAll items (fun i s => match i.work with
        | .descPeer d off n x => answer (.desc d off n) (if x.mtype = 2 then 0 else if x.mtype = 3 then 3 else 2) .notIssued s
        | .message x => msgLost s x s
        | _ => s)

/-- A member is lost at boundary `at_`: recorded, source 8, its requests ended, its mirrored apertures due for SOLO; the
leader takes it out of JOINED. -/
def lose (m : Nat) (at_ : Stroke) (s : State) : State :=
  let lv := leaveOf s m
  let next := ((joinedMembers s).find? fun n => n != m && !lostAlready s n).getD s.me
  s.pelUpd (fun p => { p with losses := p.losses ++ [⟨m, at_, lv⟩], leaves := p.leaves.filter (fun x => x.1 != m),
                              gone := p.gone.filter (fun x => x.1 != m), views := p.views.filter (fun x => x.1 != m) })
    |> soloNext (mirroredWith s m)
    |> dropRequests m
    |>.set Fld.PEL_LOSS_LOG_VALID 1 |>.set Fld.PEL_LOSS_LOG_MEMBER m |>.set Fld.PEL_LOSS_LOG_HOW (if lv.isSome then 1 else 0)
    |>.set Fld.PEL_LOSS_LOG_LIVE 0 |>.set Fld.PEL_LOSS_TS_STROKE_LO (at_.toNat % 2 ^ 32)
    |>.inc Fld.PEL_CNT_LOSSES 1 |> raise 8 |> logEv 0x0090 (leBytes 1 m ++ leBytes 1 (if lv.isSome then 1 else 0))
    |>.set Fld.PEL_STATUS_LEADER next |> followStep
    |> doIf (next == s.me && s.joined m) (fun s =>
        setView ((s.get Fld.PEL_VIEW_EPOCH + 1) % 65536)
          ((s.pel.losses.map fun x => x.member).foldl clearBit (s.get Fld.PEL_VIEW_JOINED)) s |> sendViews true)
    |> updRoutes

/-- R353: a member is lost at the boundary to come. -/
def execMemberLoss (m : Fin 8) (s : State) : Result := done (doIf (lossDue s m) (atBoundary (.lost m)) s)

/-- R353: a LEAVE makes its sender lost at the next boundary. -/
def execStateLeave (k : Fin 4) (s : State) : Result :=
  onMsg k (stype s 3) (fun m s =>
    s.pelUpd (fun p => { p with leaves := p.leaves ++ [(leAt m.data 1 1 % 8, sliceBytes m.data 4 128)] }) |> stateAns m true) s

/-- LEAVE goes to every other joined member, ahead of every other VC3 message not begun (14 R351, R360). -/
def sendLeave (cause : Nat) (s : State) : State :=
  let bits := (List.range 128).map fun i =>
    BitVec.ofNat 8 (((List.range 8).filter (fun b =>
      match (s.ctx (8 * i + b)).apt with
      | some a => s.get (Fld.PEL_TANDEM_ROLE (8 * i + b)) == 1 && s.mirror a != 0 && s.mirror a != 1
      | none => false)).foldl orBit 0)
  let data := leBytes 1 3 ++ leBytes 1 s.me ++ leBytes 1 cause ++ leBytes 1 0 ++ bits
  s |> doAll ((joinedMembers s).filter (· != s.me)) (fun m s =>
      match s.route m with
      | some k =>
        let t := (s.link k).tagNext
        let x : UMsg := { stateMsg s m 0 data with tag := t }
        s.linkUpd k fun l => { l with tx := x :: l.tx, reqs := l.reqs ++ [(t, .state 3 0, x)], ntag := (t + 1) % 4096 }
      | none => s)

/-! ## Fencing (14 R354) -/

/-- Home contexts with a tandem partner. -/
def pairedHomes (s : State) : List Nat := (List.range 1024).filter fun c => s.get (Fld.PEL_TANDEM_ROLE c) == 1

/-- A home context is served elsewhere: MOVED. Its descriptors end with MOVED, DETAIL the partner; a held CTX_PERSIST
read ends with Completer Abort; a share change that waits ends with BUSY, a reset or destroy under way with OK. It holds no
queue pair, window or aperture here any more (05 R106). -/
def ctxMoved (c : Nat) (s : State) : State :=
  let m := s.get (Fld.PEL_TANDEM_PEER_MEMBER c)
  let cmds := match (s.ctx c).op with | some o => o.cmds.map fun id => (id, o.start) | none => []
  s |> doAll (List.range 64) (fun q s =>
      s |> doAll (s.qp c q).descs (fun d s => cancelDesc (keyOf c q d) s |> finish c q d stMoved m 0) |> qpOff c q)
    |> doAll (s.ctx c).persist (fun _ => emit (.cpl c 2 []))
    |> abandonCtx c true
    |> doAll (List.range 16) (fun w => winUnmapApply c w)
    |> detachOf c
    |> shareGone c
    |>.ctxUpd c (fun x => { x with persist := [], op := none })
    |>.set (Fld.CTX_STATE_STATE c) 7
    |> doAll cmds (fun x => cmdDone x.1 0 (leBytes 6 x.2.toNat ++ leBytes 1 7))

/-- A joined member is unreachable while this member lacks quorum. -/
def fenceDue (s : State) : Bool :=
  s.isMember && !quorum s && (joinedMembers s).any fun m => m != s.me && !lostAlready s m && (s.hop m).isNone

/-- This member fences itself. -/
def fence (s : State) : State :=
  s |>.set Fld.PEL_STATUS_STATE 3 |>.inc Fld.PEL_CNT_FENCES 1 |> raise 10 |> doAll (pairedHomes s) ctxMoved

/-- R354: a member that lost quorum fences itself at the boundary to come. -/
def execMemberFence (s : State) : Result := done (doIf (fenceDue s) (atBoundary .fence) s)

/-! ## Failover and handover (14 R358 to R361) -/

/-- The member may make standby contexts live. -/
def mayServe (s : State) : Bool := (s.mode == .standby || s.mode == .serving) && s.pelState != 3

/-- RELOCATE to every other joined member, and the own location table (14 R347, R358). -/
def relocate (g c gen : Nat) (s : State) : State :=
  let data := leBytes 1 6 ++ leBytes 2 g ++ leBytes 1 s.me ++ leBytes 2 c ++ leBytes 2 0 ++ leBytes 4 gen
  s |>.set (Fld.PEL_LOC_MOVED g) 1 |>.set (Fld.PEL_LOC_MEMBER g) s.me |>.set (Fld.PEL_LOC_CTX g) c
    |> doAll ((joinedMembers s).filter fun m => m != s.me && !lostAlready s m) (stateTo 6 data)

/-- A standby context is made live: IDLE with its reserved record, its standby aperture attached in SOLO under the new
generation. -/
def goLive (c gen : Nat) (unclean : Bool) (s : State) : State :=
  let g := s.get (Fld.PEL_TANDEM_PEER_MEMBER c) * 1024 + s.get (Fld.PEL_TANDEM_PEER_CTX c)
  let apt := tabGet (fun _ => none) s.ds.standby c
  let seq := (s.ctx c).homeSeq
  s |>.set (Fld.CTX_STATE_STATE c) 2
    |>.setWord (Adr.PEL_TANDEM c) 0 |>.set (Fld.PEL_GEN_GENERATION c) gen
    |>.setWord (Adr.CTX_PWE_WSEQ_LO c) (BitVec.ofNat 32 seq) |>.setWord (Adr.CTX_PWE_WSEQ_HI c) (BitVec.ofNat 32 (seq / 2 ^ 32))
    |>.ctxUpd c (fun x => { x with serves := some g })
    |>.dsUpd (fun d => { d with standby := tabSet (fun _ => none) d.standby c none })
    |> (fun s => match apt with
        | some a =>
          s |>.set (Fld.DS_APT_STATUS_MIRROR a) 2 |> aptAttach a c
            |>.dsUpd (fun d => { d with gens := tabSet (fun _ => 0) d.gens a gen })
            |> doIf unclean (·.set (Fld.DS_APT_STATUS_UNCLEAN a) 1) |> raise 235
        | none => s)
    |> relocate g c gen
    |>.pelUpd (fun p => { p with liveNow := p.liveNow + 1 })
    |>.inc Fld.PEL_CNT_FAILOVERS 1 |>.inc Fld.PEL_LOSS_LOG_LIVE 1
    |> raise 9 |> ctxEvent 0 4

/-- R359: the standby aperture is UNCLEAN after a loss: by NOT_TANDEM of a LEAVE, or by the home's ACK_TMO. -/
def lossUnclean (s : State) (c : Nat) (x : Loss) : Bool :=
  match x.leave with
  | some bits => let h := s.get (Fld.PEL_TANDEM_PEER_CTX c); bitOf (leAt bits (h / 8) 1) (h % 8)
  | none => !cleanOk s x.member (s.ctx c).homeAck

/-- The loss of a standby context's home whose margin is over at the boundary to stroke `b`: FENCE_MARGIN × 4 strokes, none
after LEAVE. -/
def failoverDue (s : State) (b : Stroke) (c : Nat) : Option Loss :=
  if s.cst c = 6 ∧ s.get (Fld.PEL_TANDEM_ROLE c) = 2 then
    s.pel.losses.find? fun x => x.member == s.get (Fld.PEL_TANDEM_PEER_MEMBER c) &&
      (x.leave.isSome || decide (4 * s.get Fld.PEL_CTL_FENCE_MARGIN ≤ (b - x.at_).toNat))
  else none

/-- The standby context of a lost member is made live at this boundary, where fewer than 32 were in this stroke. -/
def failover (c : Nat) (s : State) : State :=
  match failoverDue s s.now c with
  | some x => if mayServe s ∧ s.pel.liveNow < 32 then goLive c (s.get (Fld.PEL_GEN_GENERATION c) + 1) (lossUnclean s c x) s else s
  | none => s

/-- R358: a standby context of a lost member is made live at the boundary to come: those asked for first, then the others in the order
of their numbers (DESIGN CHOICE, log 214). -/
def execFailover (c : Fin 1024) (s : State) : Result :=
  done (doIf ((failoverDue s (s.now + 1) c).isSome && mayServe s) (atBoundary (.failover c)) s)

/-- Every admitted write of a context's aperture is acknowledged: nothing waits, and the aperture is in TANDEM. -/
def handoverReady (s : State) (c : Nat) : Bool :=
  ctxQuiet s c &&
    match (s.ctx c).apt with
    | some a => !aptWaiting s a && (s.mirror a == 0 || (s.mirror a == 1 && !(s.ds.copies.any fun x => x.apt == a)))
    | none => true

/-- R360: in DRAINING a home context is handed over. -/
def execHandoverSend (c : Fin 1024) (s : State) : Result :=
  done (match s.partner c with
    | some (m, _) =>
      if s.mode = .draining ∧ ¬ s.restarting ∧ (s.ctx c).handover = 0 ∧ s.cst c ≠ 7 ∧ handoverReady s c then
        let data := leBytes 1 5 ++ leBytes 2 c.val ++ leBytes 1 0 ++ leBytes 4 (s.get (Fld.PEL_GEN_GENERATION c) + 1) ++ leBytes 8 (s.wseq c)
        let (s, ok) := sendState m 5 c data s
        s.ctxUpd c fun x => { x with handover := if ok then 1 else 2 }
      else s
    | none => s)

/-- The standby context here of a home context of a member. -/
def standbyOf (s : State) (m h : Nat) : Option Nat :=
  (List.range 1024).find? fun c =>
    s.get (Fld.PEL_TANDEM_ROLE c) == 2 && s.get (Fld.PEL_TANDEM_PEER_MEMBER c) == m && s.get (Fld.PEL_TANDEM_PEER_CTX c) == h

/-- R360: a HANDOVER: the context is made live with no margin, at the next boundary (05 R105), or TARGET_ERR. -/
def execStateHandover (k : Fin 4) (s : State) : Result :=
  onMsg k (stype s 5) (fun m s =>
    let h := m.src / 1024
    match standbyOf s h (leAt m.data 1 2) with
    | some c =>
      if mayServe s ∧ s.cst c = 6 then
        s.ctxUpd c (fun x => { x with homeSeq := leAt m.data 8 8 })
          |>.set Fld.PEL_LOSS_LOG_VALID 1 |>.set Fld.PEL_LOSS_LOG_MEMBER h |>.set Fld.PEL_LOSS_LOG_HOW 2
          |>.set Fld.PEL_LOSS_LOG_LIVE 0 |>.set Fld.PEL_LOSS_TS_STROKE_LO s.nowLo
          |> (fun s => { s with deferred := s.deferred ++ [.ctxLive c (leAt m.data 4 4)] }) |> stateAns m true
      else stateAns m false s
    | none => stateAns m false s) s

/-- R347: a RELOCATE. -/
def execStateRelocate (k : Fin 4) (s : State) : Result :=
  onMsg k (stype s 6) (fun m s =>
    let g := leAt m.data 1 2 % 8192
    s |>.set (Fld.PEL_LOC_MOVED g) (decide (leAt m.data 3 1 % 8 ≠ g / 1024)).toNat
      |>.set (Fld.PEL_LOC_MEMBER g) (leAt m.data 3 1) |>.set (Fld.PEL_LOC_CTX g) (leAt m.data 4 2)
      |> stateAns m true) s

/-- R351: a STATE of a reserved STYPE. -/
def execStateReservedStype (k : Fin 4) (s : State) : Result :=
  onMsg k (fun m => forMe s 7 m && !s.restarting && (leAt m.data 0 1 == 0 || decide (7 ≤ leAt m.data 0 1))) (fun m => stateAns m false) s

/-! ## Tandem messages (14 R356, R357) -/

/-- The share record of a TANDEM. -/
def tandemWords (m : UMsg) : List Word := (List.range 7).map fun i => BitVec.ofNat 32 (leAt m.data (8 + 4 * i) 4)

/-- A superseded copy of `units`. -/
def supersededOf (s : State) (units : Nat) : Option Nat := s.ds.superseded.find? fun a => s.get (Fld.DS_APT_STATUS_UNITS a) == units

/-- The copy that a standby context keeps ends: its home holds no mirrored aperture any more, or another (log 230). -/
def standbyDrop (c : Nat) (s : State) : State :=
  match tabGet (fun _ => none) s.ds.standby c with
  | some a => aptErase a s |>.dsUpd fun d => { d with standby := tabSet (fun _ => none) d.standby c none }
  | none => s

/-- The copy that a standby context keeps is of `units`. -/
def standbyFits (s : State) (c units : Nat) : Bool :=
  match tabGet (fun _ => none) s.ds.standby c with | some a => s.get (Fld.DS_APT_STATUS_UNITS a) == units | none => false

/-- A standby aperture equal in size to the home's, which has `units`, 0 where it has none: the copy kept, a superseded copy of that
size, or a new one (14 R356, R362). -/
def standbyApt (c units gen : Nat) (s : State) : State :=
  if standbyFits s c units then s
  else if units = 0 then standbyDrop c s
  else
    let s := standbyDrop c s
    let old := supersededOf s units
    let a := old.getD (nextApt s)
    (if old.isSome then s.dsUpd (fun d => { d with superseded := d.superseded.filter (· != a) }) else aptCreate a units true s)
      |>.dsUpd fun d => { d with standby := tabSet (fun _ => none) d.standby c (some a), gens := tabSet (fun _ => 0) d.gens a gen }

/-- What the partner keeps of a TANDEM beside the record. -/
def tandemKeep (c : Nat) (m : UMsg) (s : State) : State :=
  s.ctxUpd c fun x => { x with homeAck := leAt m.data 40 4, homeSeq := leAt m.data 44 8 }

/-- The partner can reserve a record for a standby context, and the logical capacity for every mirrored aperture that its home may
attach, up to DUR_UNITS: free and held by no other reservation, or in its own copy or a superseded one that it takes (14 R356). -/
def canReserve (s : State) (c : Nat) (w : List Word) (units : Nat) : Bool :=
  let need := bitsOf (w.getD 6 0).toNat 8 0
  let own := match tabGet (fun _ => none) s.ds.standby c with | some a => s.get (Fld.DS_APT_STATUS_UNITS a) | none => 0
  let held := if s.get (Fld.PEL_TANDEM_ROLE c) = 2 then s.get (Fld.CTX_SHARE6_DUR_UNITS c) - own else 0
  let old := if (supersededOf s units).isSome ∧ ¬ standbyFits s c units then units else 0
  !shareOver s c w && decide (units ≤ need) && decide (need + (unitsReserved s - held) ≤ freeUnits s + own + old)

/-- The record of a pairing of an earlier boot in which a local context had a role toward a member's context (14 R360). -/
def recordOf (s : State) (c role m pc : Nat) : Option PairRec :=
  s.ds.pairs.find? fun r =>
    r.ctx == c && bitsOf r.word.toNat 31 30 == role && bitsOf r.word.toNat 28 26 == m && bitsOf r.word.toNat 25 16 == pc

/-- A detached copy is superseded; its pairing is over (14 R362). -/
def supersede (a : Nat) (s : State) : State :=
  s.dsUpd (fun d => { d with superseded := if d.superseded.contains a then d.superseded else d.superseded ++ [a],
                             pairs := d.pairs.filter fun r => r.apt != a,
                             standby := d.standby.filter fun e => e.2 != some a })
    |> loseBack a

/-- A recorded pairing stands again, under the same generation: PEL_TANDEM and PEL_GEN; the home side's mirroring resumes, and what it
lacks comes back from the partner (14 R362, 11 R269). -/
def pairResumes (r : PairRec) (s : State) : State :=
  s.dsUpd (fun d => { d with pairs := d.pairs.filter fun x => x.ctx != r.ctx })
    |>.setWord (Adr.PEL_TANDEM r.ctx) r.word |>.set (Fld.PEL_GEN_GENERATION r.ctx) r.gen
    |> doIf (bitsOf r.word.toNat 31 30 == 1) (fun s =>
        s |> mirrorResumes r.apt |>.dsUpd fun d => { d with backFor := if d.back.any (fun u => u.1 == r.apt) then d.backFor ++ [(r.ctx, r.apt)] else d.backFor })
    |> updMirrorStatus

/-- A partner whose pairing resumes copies the units it holds back to the home context, as mirror writes; the home takes those that
it lacks (11 R269; log 190). -/
def copyBack (r : PairRec) (s : State) : State :=
  let m := bitsOf r.word.toNat 28 26
  s |> doAll (writtenUnits s r.apt) (fun u s =>
    s |> doAll (pieces 256 0 (s.unitSize + 1) 0 s.unitSize) (fun p s =>
      match s.route m with
      | some k => sendReq k .nobody { mtype := 6, cls := 2, dst := m, src := s.gctx r.ctx, ctx := bitsOf r.word.toNat 25 16, win := 255,
                                      off := u.2 * s.unitSize + p.1, data := aptBytes s r.apt (u.2 * s.unitSize + p.1) p.2 } s
      | none => s))

/-- Op 0 from the home of a pairing recorded here, whose generation is `gen`: a lower one of this side supersedes its copy, an equal
one resumes the pairing; a higher one says that this side went live (14 R362). -/
def tandemRejoined (m : UMsg) (r : PairRec) (gen : Nat) (s : State) : State :=
  let own := tabGet (fun _ => 0) s.ds.gens r.apt
  if own < gen then s |> supersede r.apt |> stateAns m false
  else if own = gen ∧ s.cst r.ctx = 6 ∧ s.get (Fld.PEL_TANDEM_ROLE r.ctx) = 0 ∧ canReserve s r.ctx (tandemWords m) 0 then
    s |> pairResumes r |> setShare r.ctx (tandemWords m) |> tandemKeep r.ctx m |> stateAns m true |> copyBack r
  else stateAns m false s

/-- Op 0: this member becomes the partner. -/
def tandemPaired (m : UMsg) (gen units : Nat) (s : State) : State :=
  let h := leAt m.data 1 2
  let c := leAt m.data 3 2
  let w := tandemWords m
  if let some r := recordOf s c 2 (m.src / 1024) h then tandemRejoined m r gen s
  else if 1 ≤ c ∧ c < 1024 ∧ s.cst c = 6 ∧ s.get (Fld.PEL_TANDEM_ROLE c) = 0 ∧ canReserve s c w units then
    s |> setShare c w |> setPair c 2 (m.src / 1024) h |> tandemKeep c m
      |>.set (Fld.PEL_GEN_GENERATION c) gen |> standbyApt c units gen |> stateAns m true
  else stateAns m false s

/-- Ops 1 to 3 on an existing pairing; op 3 of the standby side ends it on the home side. -/
def tandemChanged (m : UMsg) (op gen units : Nat) (s : State) : State :=
  let h := leAt m.data 1 2
  let c := leAt m.data 3 2
  let w := tandemWords m
  match standbyOf s (m.src / 1024) h with
  | some c =>
    if op = 3 then s |> unpairStandby c |> stateAns m true
    else if op = 2 then
      s |> tandemKeep c m |>.ctxUpd c (fun x => { x with homeSeq := 0 })
        |> (fun s => { s with deferred := s.deferred ++ [.standbyReset c] }) |> stateAns m true
    else if op = 1 ∧ canReserve s c w units then
      s |> setShare c w |> tandemKeep c m |> standbyApt c units gen |> stateAns m true
    else stateAns m false s
  | none => if op = 3 ∧ s.partner h = some (m.src / 1024, c) then s |> unpairHome h |> stateAns m true else stateAns m false s

/-- R356, R357: a TANDEM; `gen` is the generation and `units` the size of the home's mirrored aperture, 0 where it has
none, which no field of the message carries. -/
def execStateTandem (k : Fin 4) (gen : Word) (units : Fin 257) (s : State) : Result :=
  onMsg k (stype s 4) (fun m s =>
    match leAt m.data 5 1 with
    | 0 => tandemPaired m gen.toNat units s
    | op => tandemChanged m op gen.toNat units s) s

/-! ## Responses to STATE messages -/

/-- The home's pairing is accepted: PEL_TANDEM names the partner, an attached mirrored aperture resumes (14 R356). -/
def pairAccepted (c : Nat) (p : Pairing) (s : State) : State :=
  let s := s.ctxUpd c (fun x => { x with pairing := none })
    |> setPair c 1 p.member p.sctx |>.set (Fld.PEL_GEN_GENERATION c) p.gen
  (match (s.ctx c).apt with
    | some a =>
      if s.mirror a ≠ 0 then aptAttach a c s |>.dsUpd fun d => { d with journalAttached := d.journalAttached.eraseDups } else s
    | none => s) |> cmdDone p.cmd 0 (leBytes 4 p.gen)

/-- The partner of a recorded pairing has answered op 0: OK resumes the pairing, a refusal leaves it recorded, to be compared again (14
R362; log 231). -/
def rejoinAnswered (c stat : Nat) (s : State) : State :=
  if ¬ (s.ctx c).rejoin then s
  else
    let s := s.ctxUpd c fun x => { x with rejoin := false }
    match s.ds.pairs.find? fun r => r.ctx == c && bitsOf r.word.toNat 31 30 == 1 with
    | some r => doIf (stat == 0 && s.get (Fld.PEL_TANDEM_ROLE c) == 0 && s.live c) (pairResumes r) s
    | none => s

/-- The RESP of a STATE message about local context `c`; a JOIN that is refused is sent again. -/
def stateAnswered (t c stat : Nat) (s : State) : State :=
  match t with
  | 2 => if stat = 0 then s else s.pelUpd fun p => { p with joinSent := false }
  | 4 =>
    (match (s.ctx c).pairing with
      | some p =>
        if stat = 0 then
          if p.op = 0 then pairAccepted c p s
          else s.ctxUpd c fun x => { x with pairing := none, share := some ⟨p.at_, s.now, p.words, p.cmd⟩ }
        else s.ctxUpd c (fun x => { x with pairing := none }) |> cmdDone p.cmd (if p.op = 0 ∧ stat = 3 then 1 else 4) []
      | none => rejoinAnswered c stat s)
  | 5 => if stat = 0 then { s with deferred := s.deferred ++ [.ctxMoved c] } else s.ctxUpd c fun x => { x with handover := 2 }
  | _ => s

/-- R323: a RESP ends the request it answers; an unknown TAG is a protocol error. -/
def execUlRespReceive (k : Fin 4) (s : State) : Result :=
  onMsg k (fun m => forMe s 4 m && !acksMirror s k m) (fun m s =>
    match respOf s k m with
    | none => ulProto k 6 ((s.get (Fld.UL_SEQ_RX_EXP k) + 4095) % 4096) s
    | some (j, t, .state y c, _) => s |> reqEnds j t |> stateAnswered y c m.stat
    | some (j, t, src, x) =>
      let a := ansOf s m
      s |> reqEnds j t |> doIf (m.stat == 6) (·.drewOne)
        |> answer src (if x.mtype = 2 then 0 else if x.mtype = 3 then 3 else 2) a) s

/-! ## Commands (16 R405) -/

/-- R405: PEL_QUERY. -/
def execPelQuery (mb : Fin 1032) (core : Fin 4) (s : State) : Result :=
  runCmd mb core 0x0401 (fun _ s =>
    (s, 0, [Adr.PEL_STATUS, Adr.PEL_VIEW, Adr.PEL_ROUTE, Adr.PEL_CTL, Adr.PEL_CNT].flatMap (wordBytes s))) s

/-- R405: TANDEM_QUERY. -/
def execTandemQuery (mb : Fin 1032) (core : Fin 4) (s : State) : Result :=
  runCmd mb core 0x0405 (fun x s =>
    let c := leAt x.args 0 2
    if s.cst c = 0 then (s, 3, [])
    else
      (s, 0, leBytes 4 (tandemWord s c) ++ wordBytes s (Adr.PEL_GEN c) ++
        (match (s.ctx c).apt with | some a => wordBytes s (Adr.DS_APT_STATUS a) | none => leBytes 4 0))) s

/-- R356: a pairing is asked of the partner; `gen` is the generation of the pairing. -/
def tandemPairCmd (gen : Nat) (x : Cmd) (s : State) : State :=
  let c := leAt x.args 0 2
  let m := leAt x.args 2 1
  let sc := leAt x.args 4 2
  if s.cst c = 0 then cmdDone x.id 3 [] s
  else if ¬ s.live c ∨ s.get (Fld.PEL_TANDEM_ROLE c) ≠ 0 ∨ (s.ctx c).pairing.isSome ∨ (s.ctx c).rejoin ∨ (s.ctx c).op.isSome then
    cmdDone x.id 1 [] s
  else if m = s.me ∨ ¬ bitOf (directMap s) m then cmdDone x.id 4 [] s
  else
    let (s, ok) := sendState m 4 c (tandemData s c sc 0 (shareWords s c)) s
    if ok then s.ctxUpd c fun y => { y with pairing := some { op := 0, member := m, sctx := sc, cmd := x.id, gen := gen } }
    else cmdDone x.id 4 [] s

/-- R356: TANDEM_PAIR. -/
def execTandemPair (mb : Fin 1032) (core : Fin 4) (gen : Word) (s : State) : Result :=
  startCmd mb core 0x0403 (tandemPairCmd gen.toNat) s

/-- R357: TANDEM_UNPAIR; run again on an unpaired context it completes OK. -/
def execTandemUnpair (mb : Fin 1032) (core : Fin 4) (s : State) : Result :=
  runCmd mb core 0x0404 (fun x s =>
    let c := leAt x.args 0 2
    if s.cst c = 0 then (s, 3, [])
    else if (s.ctx c).pairing.isSome then (s, 1, [])
    else if s.get (Fld.PEL_TANDEM_ROLE c) = 1 then (s |> tandemTell c 3 |> unpairHome c, 0, [])
    else (s, 0, [])) s

/-! ## Rejoin (14 R362) -/

/-- The partner of a recorded pairing is asked: TANDEM op 0, in which the home's context stands first (14 R362, Table 14-4); `resume`
says that OK resumes the pairing. -/
def rejoinAsk (r : PairRec) (resume : Bool) (s : State) : State :=
  let (s, ok) := sendState (bitsOf r.word.toNat 28 26) 4 r.ctx (tandemData s r.ctx (bitsOf r.word.toNat 25 16) 0 (shareWords s r.ctx)) s
  doIf (ok && resume) (·.ctxUpd r.ctx fun x => { x with rejoin := true }) s

/-- R362: the generation of a mirrored aperture of a recorded pairing is compared with that of its former partner's, which is `other`:
a lower copy here is superseded. Of equal ones the home side asks its partner by TANDEM op 0, whose OK resumes the pairing, in RESYNC
where the aperture holds a written unit; the standby side waits to be asked. -/
def execRejoinCompare (a : Fin 2048) (other : Word) (s : State) : Result :=
  let own := tabGet (fun _ => 0) s.ds.gens a
  done (match s.ds.pairs.find? fun r => r.apt == a.val with
    | none => s
    | some r =>
      let home : Bool := bitsOf r.word.toNat 31 30 == 1
      if ¬ s.isMember ∨ ¬ s.aptValid a ∨ (s.aptCtx a).isSome ∨ (s.hop (bitsOf r.word.toNat 28 26)).isNone ∨ (s.ctx r.ctx).rejoin then s
      else if own < other.toNat then s |> doIf home (rejoinAsk r false) |> supersede a
      else doIf (home && own == other.toNat && s.get (Fld.PEL_TANDEM_ROLE r.ctx) == 0 && s.live r.ctx) (rejoinAsk r true) s)

end Sys2Proof.Machine
end

