-- ==== Sys2Proof/Machine/Sleep.lean ====
section
/-! DEFINITION. Machine/Sleep.lean: Freewheel and Rest, wake events, the kickstand timer and GPIO edges, L1 (17 R420 to
R429, R433; 04 R93). -/
namespace Sys2Proof.Machine

/-! ## Conditions of entry (17 R421, Table 17-3) -/

/-- Conditions of both sleep states: SERVING, of which they are sub-states and which no cause is about to end (R420), and no C0
reservation. -/
def maySleep (s : State) : Bool :=
  s.mode == .serving && s.dev.causes.isEmpty && s.get Fld.CAD_RSV_DN_C0 == 0 && s.get Fld.CAD_RSV_UP_C0 == 0

/-- No descriptor is outstanding device-wide. -/
def noDescs (s : State) : Bool := s.qps.all fun e => e.2.descs.isEmpty && e.2.cpls.isEmpty

/-- No host write waits in the staging buffer. -/
def noneStaged (s : State) : Bool :=
  (s.cad.items.all fun i => match i.work with | .staged .. => false | _ => true) &&
    s.ds.wait.all fun w => match w.src with | .host .. => false | _ => true

/-- Conditions of Rest beside those of both; an upstream request is one of those outstanding on a port. -/
def mayRest (s : State) : Bool :=
  noDescs s && s.ctxIds.all (fun c => s.cst c != 4 && s.cst c != 5) && s.mbx.store.state != 1 && s.mbx.fw.state != 1 &&
    [0, 1, 2, 3].all (fun k => s.ulState k != 4 && (s.lb k).reqs.isEmpty && (s.lb k).ups.isEmpty) && noneStaged s

/-- Entry to a sleep state begins: 1 Freewheel, 2 Rest; a wake event noted in Freewheel stays noted (R427). A commit that waits and gives C0
entries ends it at once, since no C0 reservation can exist in a sleep state (DESIGN CHOICE, log 234). -/
def sleepBegin (kind : Nat) (s : State) : State :=
  s |>.set Fld.CRP_SLEEP_STATE (if kind = 1 then 1 else 3)
    |>.set Fld.CRP_SLEEP_TS_STROKE_LO s.nowLo
    |>.inc (if kind = 1 then Fld.CRP_SLEEP_FW_ENTRIES else Fld.CRP_SLEEP_REST_ENTRIES) 1
    |>.pwrUpd (fun p => { p with sleepAt := s.now, begun := false, leaving := 0 })
    |> commitWakes

/-- R421: SLEEP_ENTER at entry stroke E. For the state in force it completes with the stroke of the original entry; for
Rest in Freewheel it goes to Rest entry; otherwise it waits for the end of an entry or exit. -/
def execSleepEnter (mb : Fin 1032) (core : Fin 4) (s : State) : Result :=
  match mayTake s mb core 0x0102 with
  | none => done s
  | some x =>
    let kind := leAt x.args 0 1
    if s.sleepState = 5 ∨ (s.sleepState ≠ 0 ∧ s.sleepState ≠ 2 ∧ sleepKind s ≠ kind) then done s
    else
      runCmd mb core 0x0102 (fun _ s =>
        if sleepKind s = kind then (s, 0, leBytes 6 s.pwr.sleepAt.toNat)
        else if maySleep s ∧ (kind = 1 ∨ mayRest s) then (sleepBegin kind s, 0, leBytes 6 s.now.toNat)
        else (s, 1, [])) s

/-- R421: after 2,000 strokes in which no descriptor was outstanding and no host TLP came, firmware orders Freewheel under
IDLE_SLEEP. The order is ranked at the end of the stroke (R417; 16 R395). -/
def execIdleSleepOrder (s : State) : Result :=
  done (if s.isSet Fld.CRP_LEVEL_IDLE_SLEEP ∧ s.awake ∧ maySleep s ∧ noDescs s ∧ 2000 ≤ s.since s.pwr.busyAt ∧
      [0, 1, 2, 3].any (coreRuns s) then s.pwrUpd fun p => { p with fwWant := some .sleep }
    else s)

/-- The order of firmware that ranked first in the stroke that ended is taken, at the boundary after it. Where its conditions hold no
longer, or a level change or a power command is in progress, it lapses, and firmware may order again (DESIGN CHOICE, log 232). -/
def fwOrderGo (s : State) : State :=
  let t := s.pwrUpd fun p => { p with fwWant := none }
  if s.pwr.chg.isSome ∨ s.pwr.want.isSome ∨ ¬ s.awake ∨ s.restarting ∨ s.cmds.any (fun x => x.obj == .power) then t
  else
    match s.pwr.fwWant with
    | some (.level l) => doIf (fwMayOrder s l) (levelOrder (effective (s.get Fld.CRP_LEVEL_ORDERED) (s.get Fld.CRP_LEVEL_CAP) l) 3 none none none (some l)) t
    | some .sleep => doIf (s.isSet Fld.CRP_LEVEL_IDLE_SLEEP && maySleep s && noDescs s) (sleepBegin 1) t
    | none => t

/-! ## Freewheel (17 R420) -/

/-- R420: the device enters Freewheel: Coast is asked for on every ACTIVE link. -/
def execFreewheelEntry (s : State) : Result :=
  done (if s.sleepState = 1 then
      s |> doAll ([0, 1, 2, 3].filter fun k => ulActive s k && s.get (Fld.UL_STATUS_LPM k) == 0 && (s.link k).lpmAsk.isNone)
            (fun k => lpmRequest k 1)
        |>.set Fld.CRP_SLEEP_STATE 2
    else s)

/-- R420: the exit from Freewheel ends: links leave Coast. -/
def execFreewheelExit (s : State) : Result :=
  done (if s.sleepState = 5 ∧ s.pwr.leaving = 1 then
      s |> doAll ([0, 1, 2, 3].filter fun k => s.get (Fld.UL_STATUS_LPM k) == 1) (fun k => lpmLeave k 0)
        |>.set Fld.CRP_SLEEP_STATE 0
        |>.pwrUpd (fun p => { p with wake := none, leaving := 0 })
        |> raise 14
    else s)

/-! ## Link power state (04 R93) -/

/-- The latency that a value of ten bits and a scale of three name, in ns. -/
def latencyNs (value scale : Nat) : Nat := value * 32 ^ scale

/-- The L1 substate that the link enters from L1 (04 Table 04-1, Table 04-6; bit places and the threshold of L1 PM Substates are those
of PCI Express: PRESUMED, log 209): L1.2 where ASPM L1.2 is enabled and the latency reported by LTR reaches the threshold or, toward Rest,
nothing is required; else L1.1 where that is enabled. -/
def l1Substate (s : State) : Nat :=
  let w := (tabGet (fun _ => 0) s.hl.cfg 0xB7).toNat
  let ltr := (s.word Adr.HL_LTR_VAL).toNat
  if bitOf w 2 ∧ (s.resting ∨ latencyNs (bitsOf w 25 16) (bitsOf w 31 29) ≤ latencyNs (bitsOf ltr 9 0) (bitsOf ltr 12 10)) then 2
  else if bitOf w 3 then 1 else 0

/-- The link enters L1, and the substate that is enabled; each raises HL_LPM (04 Table 04-10). -/
def enterL1 (s : State) : State :=
  s.set Fld.HL_LINK_STATUS_LSTATE 4 |>.hlUpd (fun h => { h with sub := l1Substate s }) |> leaveL0 |> raise 24
    |> doIf (l1Substate s != 0) (raise 24)

/-- The link leaves L0 for L1 where the partner accepts; what was sent before does not end it. -/
def l1Request (accepted : Bool) (s : State) : State :=
  if s.get Fld.HL_LINK_STATUS_LSTATE = 1 ∨ s.get Fld.HL_LINK_STATUS_LSTATE = 2 then
    s |> emit (.pcie 0 "L1 request" 0) |> doIf accepted (fun s => s.pwrUpd (fun p => { p with outSeen := s.out.length }) |> enterL1)
  else s

/-- No engine holds a descriptor and no doorbell waits. -/
def enginesIdle (s : State) : Bool := s.qps.all fun e => e.2.descs.all fun d => d.raw.isSome && d.engine.isNone

/-- R93: after L1_IDLE strokes without a TLP, an outstanding tag, a pending doorbell or a busy engine, L1 is requested. -/
def execL1EntryRequest (accepted : Bool) (s : State) : Result :=
  done (if s.hl.aspmL1 ∧ s.linkUp ∧ s.hl.tags = [] ∧ enginesIdle s ∧ s.get Fld.HL_LPM_CTL_L1_IDLE ≤ s.since s.pwr.tlpAt ∧
      (s.isSet Fld.HL_LPM_CTL_L1_WITH_C0 ∨ (s.get Fld.CAD_RSV_DN_C0 = 0 ∧ s.get Fld.CAD_RSV_UP_C0 = 0)) then
      l1Request accepted s
    else s)

/-! ## Rest (17 R423 to R426) -/

/-- An enabled port is held: its strobe stops, its prefetch buffer empties, stranded entries and latched LINT edges stay, and
so do its quarantined tags (DESIGN CHOICE, log 195). -/
def portHold (p : Nat) (s : State) : State :=
  if s.isSet (Fld.LB_CTL_EN p) ∧ s.lbState p ≠ 6 then
    s |> portTo p 6
      |> framePartial p
      |>.lbUpd p fun l => { l with pf := [], held := [], replay := [], naks := [], errOut := false, lastNak := none, bndSent := [],
                                   initSent := false, initRcvd := false, lint := l.lint ++ l.lintWait, lintWait := [] }
  else s

/-- R423: step 0 of Rest entry: LTR with the Requirement bits clear, L1 requested, Park asked for, ports held; DRAM in
self-refresh. Edges latched in the last Rest are cleared. -/
def execRestEntry (l1 : Bool) (s : State) : Result :=
  done (if s.sleepState = 3 ∧ ¬ s.pwr.begun then
      s |>.pwrUpd (fun p => { p with begun := true })
        |>.setWord Adr.KS_WAKE_LATCH_LO 0 |>.setWord Adr.KS_WAKE_LATCH_HI 0
        |> doIf s.linkUp (fun s => ltrSend false s |> l1Request l1)
        |> doAll ([0, 1, 2, 3].filter fun k => ulActive s k && s.get (Fld.UL_STATUS_LPM k) != 2) (fun k => lpmRequest k 2)
        |> doAll [0, 1, 2, 3] portHold
        |>.set Fld.DRC_STATUS_SELF_REFRESH 1
    else s)

/-- R423, R426: hub, engines and cores are power-gated and the PLLs turned off; the kickstand domain carries the count. -/
def execRestEntryComplete (s : State) : Result :=
  done (if s.sleepState = 3 ∧ s.pwr.begun then
      s |>.set Fld.CRP_SLEEP_STATE 4 |>.set Fld.CRP_CLK_CPU_LOCK 0 |>.set Fld.CRP_CLK_HUB_LOCK 0
        |>.set Fld.CRP_CLK_SYS_LOCK 0 |>.set Fld.CRP_CLK_DRAM_LOCK 0 |>.set Fld.CRP_CLK_LB_LOCK 0
    else s)

/-- The PLLs are locked. -/
def pllsLock (s : State) : State :=
  s |>.set Fld.CRP_CLK_CPU_LOCK 1 |>.set Fld.CRP_CLK_HUB_LOCK 1 |>.set Fld.CRP_CLK_SYS_LOCK 1 |>.set Fld.CRP_CLK_DRAM_LOCK 1
    |>.set Fld.CRP_CLK_LB_LOCK 1

/-- R423 to R425: the exit from Rest ends: PLLs locked, DRAM leaves self-refresh, links leave
Park, held ports train, LTR is sent; cores stay on the ring oscillator for a while. -/
def execRestExit (s : State) : Result :=
  done (if s.sleepState = 5 ∧ s.pwr.leaving = 2 then
      s |> pllsLock
        |>.set Fld.CRP_CLK_RING_OSC 0xF
        |>.set Fld.DRC_STATUS_SELF_REFRESH 0
        |>.set Fld.CRP_SLEEP_STATE 0
        |>.pwrUpd (fun p => { p with wake := none, leaving := 0, begun := false, ringAt := some s.now })
        |> raise 162
        |> doAll ([0, 1, 2, 3].filter fun k => s.get (Fld.UL_STATUS_LPM k) == 2) (fun k => lpmLeave k 4)
        |> doAll ([0, 1, 2, 3].filter fun p => s.lbState p == 6) startTrain
        |> doIf s.linkUp (fun s => leaveL1 s |> ltrSend true)
        |> raise 14
    else s)

/-- R427, R428: the noted wake event starts the exit, once the state is entered; KS_LAST_WAKE records it. -/
def execWakeEvent (s : State) : Result :=
  done (match s.pwr.wake with
    | some (n, entry) =>
      if s.sleepState = 2 ∨ s.sleepState = 4 then
        sleepExit s
          |>.setWord Adr.KS_LAST_WAKE 0
          |>.set Fld.KS_LAST_WAKE_VALID 1 |>.set Fld.KS_LAST_WAKE_DURING_ENTRY entry.toNat |>.set Fld.KS_LAST_WAKE_FROM (sleepKind s)
          |>.set Fld.KS_LAST_WAKE_SOURCE n |>.set Fld.KS_LAST_WAKE_INDEX ((wakeIndex n).getD 0)
          |>.setWord Adr.KS_LAST_WAKE_TS (s.word Adr.KS_TIME)
      else s
    | none => s)

/-! ## The kickstand domain (03 R47, 17 R433) -/

/-- R47: the crystal's first stable oscillation starts KS_SLOW. -/
def execKsXtalStart (s : State) : Result := done (if s.dev.ksReady then s.devUpd fun d => { d with ksSlow := true } else s)

/-- R433: KS_TIME equals KS_ALARM while armed. -/
def execKsAlarmMatch (s : State) : Result :=
  done (if s.isSet Fld.KS_CTL_ALARM_EN ∧ s.word Adr.KS_TIME = s.word Adr.KS_ALARM then
      s.set Fld.KS_CTL_ALARM_EN 0 |> raise 281
    else s)

/-- R433: a GPIO input changes; on its selected edge its status bit is set and source 12 raised. -/
def execGpioEdge (g : Fin 16) (rising : Bool) (s : State) : Result :=
  let e := bitsOf (s.word Adr.KS_GPIO_EDGE).toNat (2 * g.val + 1) (2 * g.val)
  done (if s.pwr.gpio.getLsbD g.val = rising then s
    else
      s.pwrUpd (fun p => { p with gpio := p.gpio ^^^ (1#16 <<< g.val) })
        |> doIf (if rising then bitOf e 0 else bitOf e 1) (fun s =>
          s.set Fld.KS_GPIO_STATUS_SEEN (orBit (s.get Fld.KS_GPIO_STATUS_SEEN) g.val) |> raise 12))

end Sys2Proof.Machine
end

