-- ==== Sys2Proof/Machine/Forward.lean ====
section
/-! DEFINITION. Machine/Forward.lean: bypass cells that pass through: commands of other members, and photo-finish triggers
(16 R411, R412; 19 R453 to R455). -/
namespace Sys2Proof.Machine

/-! ## PEER_MBX (16 R411, R412) -/

/-- Length of the OK result of a command that may be forwarded (Tables 16-5 to 16-12): the fragments carry no length and
fill their last 20 bytes with 0. -/
def resultLen (op : Nat) (args : List Byte) : Nat :=
  match op with
  | 0x0001 => 24 | 0x0104 => 17 | 0x0106 => 12 | 0x0201 => 44 | 0x0305 => 20 | 0x0306 => 32 | 0x0309 => 32
  | 0x0401 => 20 | 0x0405 => 12 | 0x0501 => 32 | 0x0701 => 4 + 2 * commands.length | 0x0702 => args.length | 0x0704 => 28
  | _ => 0

/-- A fragment of a result that this member waits for. -/
def resultPart (o : FwdOut) (idx : Nat) (last : Bool) (data : List Byte) (s : State) : State :=
  if idx ≠ o.next then s
  else
    let got := o.got ++ data
    if last then
      let code := leAt got 0 1
      let n := match s.cmdId o.id with | some x => if code = 0 then min 480 (resultLen x.op x.args) else 0 | none => 0
      s.mbxUpd (fun m => { m with out := m.out.filter fun x => x.id != o.id }) |> cmdDone o.id code (sliceBytes got 1 n)
    else s.mbxUpd fun m => { m with out := m.out.map fun x => if x.id = o.id then { x with next := idx + 1, got := got } else x }

/-- A fragment of a request for this member; with its last one the request is whole, and stamped where the peer mailbox is
free. -/
def requestPart (k txn idx : Nat) (originB last : Bool) (data : List Byte) (s : State) : State :=
  let mine (p : FwdIn) : Bool := p.link == k && p.txn == txn && p.whole.isNone
  let fin : Option Stroke := if last then some s.now else none
  if idx = 0 then
    s.mbxUpd (fun m => { m with got := m.got.filter (fun p => !mine p) ++ [⟨k, txn, originB, 1, data, fin⟩] })
      |> doIf last peerServe
  else
    let add (p : FwdIn) : FwdIn := if mine p && p.next == idx then { p with next := idx + 1, got := p.got ++ data, whole := fin } else p
    s.mbxUpd (fun m => { m with got := m.got.map add })
      |> doIf last peerServe

/-- A fragment passes on: a request's first one names its member and fixes the way, its result comes back on it. -/
def relayPart (k txn : Nat) (result last : Bool) (body : List Byte) (s : State) : State :=
  let way : Option (Nat × Nat × Nat) :=
    s.mbx.relay.find? fun r => r.2.1 == txn && (if result then r.2.2 == k else r.1 == k)
  match way with
  | some r =>
    sendBypass (if result then r.1 else r.2.2) 13 body s
      |> doIf (result && last) (fun s => s.mbxUpd fun m => { m with relay := m.relay.erase r })
  | none => s

/-- R412: a PEER_MBX cell carries one fragment: of a result this member waits for, of a request to it, or of one that
passes through on the route of 14 R348. -/
def execBypassPeerMbx (k : Fin 4) (bseq back : BitVec 8) (txn : BitVec 16) (idx flags : BitVec 8) (data : List Byte)
    (s : State) : Result :=
  let (s, ok) := bypassSeq k bseq.toNat back.toNat s
  let data := sliceBytes data 0 20
  let t := txn.toNat
  let last := flags.getLsbD 0
  let body := leBytes 2 t ++ leBytes 1 idx.toNat ++ leBytes 1 flags.toNat ++ data
  done (if ¬ ok then s
    else if flags.getLsbD 1 then
      match s.mbx.out.find? fun o => o.link == k.val && o.txn == t with
      | some o => resultPart o idx.toNat last data s
      | none => relayPart k t true last body s
    else
      let m := bitsOf (leAt data 0 4) 26 24
      if idx = 0 ∧ m ≠ s.me then
        match s.route m with
        | some o => s.mbxUpd (fun b => { b with relay := b.relay.filter (fun r => !(r.1 == k.val && r.2.1 == t)) ++ [(k.val, t, o)] })
            |> sendBypass o 13 body
        | none => s
      else if s.mbx.relay.any fun r => r.1 == k.val && r.2.1 == t then relayPart k t false last body s
      else requestPart k t idx.toNat (flags.getLsbD 2) last data s)

/-! ## Photo-finish (19 R452 to R456) -/

/-- What Table 19-3 makes of a PHOTO cell that names stroke `at_`. -/
def photoPend (at_ : Stroke) (s : State) : State :=
  let pend (l : Option (Stroke × Nat)) (s : State) : State :=
    { s with pfs := { s.pfs with pel := l } } |>.set Fld.PFS_STAT_PEL_PENDING 1
  if s.isSet Fld.PFS_STAT_VALID ∨ s.pfs.due.isSome then pfsMissed s
  else
    match s.pfs.pel with
    | none => pend (some (at_, 8)) s
    | some (t, src) =>
      if t = at_ then pend (some (t, orBit src 3)) s
      else if (t - at_).toNat < 2 ^ 47 then pend (some (at_, 8)) (pfsMissed s)
      else pfsMissed s

/-- R454: a PHOTO cell: each (origin, number) pair is recorded and forwarded once on every other ACTIVE link. -/
def execBypassPhoto (k : Fin 4) (bseq back : BitVec 8) (stroke : Stroke) (origin : Fin 8) (src : BitVec 8) (num : BitVec 16)
    (s : State) : Result :=
  let (s, ok) := bypassSeq k bseq.toNat back.toNat s
  done (if ¬ ok ∨ (origin.val, num.toNat) ∈ s.pfs.seen then s
    else
      { s with pfs := { s.pfs with seen := (origin.val, num.toNat) :: s.pfs.seen } }
        |>.setWord Adr.PFS_BCAST 0
        |>.set Fld.PFS_BCAST_VALID 1 |>.set Fld.PFS_BCAST_ORIGIN origin |>.set Fld.PFS_BCAST_NUMBER num.toNat
        |> doAll (s.activeLinks.filter fun j => j != k.val) (fun j =>
            sendBypass j 12 (photoBody stroke origin src.toNat num.toNat))
        |> photoPend stroke)

/-- R452: a write of 1 to PFS_TRIG.GO. -/
def execPfsTrigGo (s : State) : Result := done (pfsTrigger 0 s)

/-- R452: a falling edge of PHOTO_N raises source 6, and with PIN_EN 1 it triggers. -/
def execPhotoNEdge (s : State) : Result := done (raise 6 s |> doIf (s.isSet Fld.PFS_CTL_PIN_EN) (pfsTrigger 1))

/-- The snapshot is released and the block armed (19 R456). -/
def pfsArm (s : State) : State :=
  s |>.set Fld.PFS_STAT_VALID 0 |>.set Fld.PFS_STAT_SRC 0 |>.set Fld.PFS_STAT_LATE 0 |>.set Fld.PFS_STAT_LATE_BY 0
    |>.set Fld.PFS_STAT_UNALIGNED 0 |>.set Fld.PFS_STAT_ARMED 1

/-- R456: a write of 1 to PFS_CTL.ARM. -/
def execPfsArm (s : State) : Result := done (pfsArm s)

end Sys2Proof.Machine
end

