-- ==== Sys2Proof/Machine/View.lean ====
section
/-! DEFINITION. Machine/View.lean: what a register shows: its stored value, or the value that the hardware computes from
other state (20 R464 to R471 and the field maps); where a bus address leads for a master (20 R467); which blocks are
gated (18 R444); the photo-finish latch (19 R451 to R455). -/
namespace Sys2Proof.Machine

/-! ## Addresses -/

/-- The element of an array of `n` words, `stride` bytes apart, that an address names. -/
def elemAt (h base stride n : Nat) : Option Nat :=
  if base ≤ h ∧ h < base + stride * n ∧ (h - base) % stride = 0 then some ((h - base) / stride) else none

/-- Home of context 0's page; the pages of the others follow at 64 KiB. -/
def pageHome : Nat := 0x100000000

/-- The context whose page holds a home address, and the offset in it. -/
def pageAt (h : Nat) : Option (Nat × Nat) :=
  if pageHome ≤ h ∧ h < pageHome + 0x10000 * 1024 then some ((h - pageHome) / 0x10000, (h - pageHome) % 0x10000) else none

/-- Where an access at an offset of a context page leads: context 0's mailbox slot is host mailbox 0 (16 R388). -/
def pagePlace (c off : Nat) : Nat :=
  if c = 0 ∧ 0x4000 ≤ off ∧ off < 0x5000 then Adr.MBX_CMD 0 + (off - 0x4000) else pageHome + 0x10000 * c + off

/-- The home address that a bus address names for a master: itself, or through that master's selection (20 Table 20-3).
A function's addresses below 64 KiB are its page. -/
def homeOf (s : State) (m : Master) (a : Nat) : Nat :=
  let sel (r : Nat) : Nat := (s.bank m r).toNat
  match m with
  | .host c => if a < 0x10000 then pagePlace c a else banked sel a
  | _ => banked sel a
where
  /-- The registers that a selection indexes. -/
  banked (sel : Nat → Nat) (a : Nat) : Nat :=
    let c := sel Adr.CTX_SEL % 1024
    let w := sel Adr.WIN_SEL
    let x := sel Adr.MSG_RXB_SEL
    if a = 0x180004 then Adr.CTX_STATE c
    else if a = 0x180008 then Adr.CTX_SEL_WDOG c
    else if a = 0x18000C then Adr.CTX_OCC c
    else if 0x180010 ≤ a ∧ a < 0x180030 then Adr.CTX_SHARE0 c + (a - 0x180010)
    else if 0x308004 ≤ a ∧ a < 0x308018 then Adr.WIN_BAR (bitsOf w 13 4) (bitsOf w 3 0) + (a - 0x308004)
    else if 0x400104 ≤ a ∧ a < 0x400110 then Adr.MSG_RXB_BASE_LO (bitsOf x 15 6) (bitsOf x 5 0) + (a - 0x400104)
    else if 0x480104 ≤ a ∧ a < 0x480114 then Adr.DS_APT_STATUS (sel Adr.DS_APT_SEL % 2048) + (a - 0x480104)
    else if a = 0x680204 then Adr.PEL_TANDEM (sel Adr.PEL_SEL % 1024)
    else if a = 0x680208 then Adr.PEL_GEN (sel Adr.PEL_SEL % 1024)
    else if a = 0x740014 then Adr.CTX_EVT_STATUS (sel Adr.EV_SEL % 1024)
    else if a = 0x740018 then pageHome + 0x10000 * (sel Adr.EV_SEL % 1024) + 0x9000
    else if a = 0x74001C then pageHome + 0x10000 * (sel Adr.EV_SEL % 1024) + 0x9004
    else a

/-- The banked registers, of which each master has its own copy. -/
def bankedRegs : List Nat :=
  [Adr.CTX_SEL, Adr.WIN_SEL, Adr.MSG_RXB_SEL, Adr.DS_APT_SEL, Adr.PEL_SEL, Adr.EV_SEL, Adr.CAD_STROKE_HI]

/-! ## Blocks (18 Table 18-9) -/

/-- The spans of the blocks in BAR0 (20 Table 20-1): BLOCK code, first address, and the one past the last; what lies between them is
reserved. -/
def blockSpans : List (Nat × Nat × Nat) :=
  [(0, 0x100000, 0x110000), (1, 0x110000, 0x120000), (2, 0x120000, 0x130000), (3, 0x140000, 0x180000), (4, 0x180000, 0x200000),
   (5, 0x200000, 0x280000), (6, 0x280000, 0x300000), (7, 0x300000, 0x310000), (8, 0x310000, 0x320000), (9, 0x320000, 0x330000),
   (0xA, 0x330000, 0x340000), (0xB, 0x380000, 0x400000), (0xC, 0x400000, 0x480000), (0xD, 0x480000, 0x500000),
   (0xE, 0x500000, 0x580000), (0xF, 0x580000, 0x600000)] ++
  [(0x10, 0x600000, 0x610000), (0x11, 0x610000, 0x620000), (0x12, 0x620000, 0x630000), (0x13, 0x630000, 0x640000),
   (0x14, 0x680000, 0x700000), (0x15, 0x700000, 0x740000), (0x16, 0x740000, 0x780000), (0x17, 0x780000, 0x7C0000),
   (0x18, 0x7C0000, 0x7E0000), (0x19, 0x7E0000, 0x800000), (0x1A, 0x1000000, 0x1080000), (0x1A, 0x1100000, 0x1101000),
   (0x1A, 0x1200000, 0x1220000)]

/-- The span that holds an address. -/
def spanAt (a : Nat) : Option (Nat × Nat × Nat) := blockSpans.find? fun x => decide (x.2.1 ≤ a ∧ a < x.2.2)

/-- The BLOCK code of a bus address; of a reserved one, which no block answers, 0x1F, which names none (18 Table 18-9). -/
def blockOf (a : Nat) : Nat := (spanAt a).elim 0x1F (·.1)

/-- An address lies in a block of Table 18-9. -/
def inBlocks (a : Nat) : Bool := (spanAt a).isSome

/-- Where a block of Table 18-9 begins. -/
def blockBase (b : Nat) : Nat := (blockSpans.find? fun x => x.1 == b).elim 0 (·.2.1)

/-- The device is strapped stand-alone, or with the combination of R28. -/
def strapAlone (s : State) : Bool := s.get Fld.DEV_STRAP_TOPOLOGY == 0 || s.isSet Fld.DEV_STRAP_INVALID

/-- A block is gated (18 Table 18-7): the links of a stand-alone device; in Rest all but DEV, KS and DBG; in PRESERVE all
but DEV, KS, DS, MED, DRC and DBG. -/
def blockGated (s : State) (b : Nat) : Bool :=
  (decide (0x10 ≤ b ∧ b ≤ 0x13) && strapAlone s) ||
    (s.restGated && decide (b ≤ 0x1A) && !([0, 2, 0x19].contains b)) ||
    (s.mode == .preserve && decide (b ≤ 0x1A) && !([0, 2, 0xD, 0xE, 0xF, 0x19].contains b))

/-! ## Computed values -/

/-- Entry `e` of the ATS cache view (20 Table 20-5). -/
def atsWord (s : State) (e w : Nat) : Nat :=
  let seq := tabGet (fun _ => 0) s.hl.atsSeq e
  match s.hl.ats.find? (fun x => x.idx == e), w with
  | none, 0 => seq * 2 ^ 16
  | none, 7 => seq
  | none, _ => 0
  | some x, 0 =>
    2 ^ 31 + x.r.toNat * 2 ^ 30 + x.w.toNat * 2 ^ 29 + x.u.toNat * 2 ^ 28 + x.n.toNat * 2 ^ 27 + x.g.toNat * 2 ^ 26 +
      seq * 2 ^ 16 + x.log2 * 2 ^ 10 + x.ctx
  | some x, 1 => bitsOf x.iova.toNat 31 12 * 4096
  | some x, 2 => bitsOf x.iova.toNat 63 32
  | some x, 3 => bitsOf x.ta.toNat 31 12 * 4096
  | some x, 4 => bitsOf x.ta.toNat 63 32
  | some x, 5 => x.used.toNat % 2 ^ 32
  | some x, 6 => x.hits * 2 ^ 16
  | some _, _ => seq

/-- CTX_ID (05 Table 05-13; 14 R355, R356): the home member and local number of the context; a standby context that is
paired, or serves after a failover, names its home. -/
def ctxIdWord (s : State) (c : Nat) : Nat :=
  let role := s.get (Fld.PEL_TANDEM_ROLE c)
  let sby := c != 0 && s.cst c != 0 && bitOf (s.word (Adr.PEL_SBY (c / 32))).toNat (c % 32)
  let home : Nat × Nat :=
    match (s.ctx c).serves with
    | some g => (g / 1024, g % 1024)
    | none => if role = 2 then (s.get (Fld.PEL_TANDEM_PEER_MEMBER c), s.get (Fld.PEL_TANDEM_PEER_CTX c)) else (s.me, c)
  (decide (c = 0)).toNat * 2 ^ 31 + (decide (role = 1)).toNat * 2 ^ 30 + sby.toNat * 2 ^ 29 + home.1 * 2 ^ 10 + home.2

/-- PEL_LOC (14 Table 14-11). -/
def pelLocWord (s : State) (g : Nat) : Nat :=
  let moved := s.isSet (Fld.PEL_LOC_MOVED g)
  let p := if moved then (s.get (Fld.PEL_LOC_MEMBER g), s.get (Fld.PEL_LOC_CTX g)) else (g / 1024, g % 1024)
  if s.joined p.1 then 2 ^ 31 + moved.toNat * 2 ^ 30 + p.1 * 2 ^ 24 + p.2 else moved.toNat * 2 ^ 30

/-- IC_ACTIVE word `w`: the sources on a core's stack (15 Table 15-9). -/
def icActiveWord (s : State) (w : Nat) : Nat :=
  (((List.range 32).filter fun b => icActive s (32 * w + b)).map fun b => 2 ^ b).sum

/-- IC_STACK[c][k]: k = 0 is the bottom, k = 16 the slot that source 287 takes on a full stack (15 R376, Table 15-12). -/
def icStackWord (s : State) (c k : Nat) : Nat :=
  match (s.stack c).reverse[k]? with
  | some (p, n) => 2 ^ 31 + p * 2 ^ 9 + n
  | none => 0

/-- IC_CORE_STATUS[c] (15 Table 15-11). -/
def icCoreWord (s : State) (c : Nat) : Nat :=
  (s.coreFenced c).toNat * 2 ^ 31 + (decide (16 ≤ (s.stack c).length)).toNat * 2 ^ 30 +
    (s.stack c).length * 2 ^ 16 + (match s.stack c with | (_, n) :: _ => n | [] => 0x1FF)

/-- WIN_CTL with BUSY as it stands (08 R197). -/
def winCtlWord (s : State) (c w : Nat) : Nat :=
  withBits (s.word (Adr.WIN_CTL c w)).toNat 30 30 (winBusy s c w).toNat

/-- A word of the cadence aperture (07 Table 07-3). -/
def cadWord (s : State) (off : Nat) : Nat :=
  leNat ((List.range 4).map fun i => (s.list (off / 256)).getD (off % 256 + i) 0)

/-- A word of a function's MSI-X table: entries that are not backed read 0 with the Mask bit 1 (15 R379). -/
def msixWord (s : State) (c off : Nat) : Nat :=
  let v := off / 16
  if s.vectorsOf c ≤ v then (if off % 16 / 4 = 3 then 1 else 0)
  else
    match off % 16 / 4 with
    | 0 => (s.msixAt c v).addr.toNat % 2 ^ 32
    | 1 => (s.msixAt c v).addr.toNat / 2 ^ 32
    | 2 => (s.msixAt c v).data.toNat
    | _ => (s.msixAt c v).ctl.toNat

/-- A word of a function's PBA; bits of entries that are not backed read 0. -/
def pbaWord (s : State) (c hi : Nat) : Nat := (s.pbaOf c).toNat % 2 ^ s.vectorsOf c / 2 ^ (32 * hi) % 2 ^ 32

/-- The LOCKED regions are open to the debug master now (19 R460). -/
def lockedOpen (s : State) : Bool := s.mode == .maintenance && bitOf (s.word Adr.DBG_POLICY).toNat 8

/-- The elements of a register. -/
def RegDef.elems (r : RegDef) : List Nat :=
  r.dims.foldl (fun l d => l.flatMap fun a => (List.range d.2).map fun i => a + i * d.1) [r.base]

/-- The registers of a list that lie in the first `n` bytes of a block. -/
def wordsIn (l : List RegDef) (b n : Nat) : List Nat :=
  (l.flatMap RegDef.elems).filter fun a => decide (blockBase b ≤ a ∧ a < blockBase b + n)

/-- Snapshot coverage (19 Table 19-1): how many words, and the registers among which they are. -/
def pfsCoverage : List (Nat × List Nat) :=
  [(10, wordsIn regs_dev 0 0x1000 ++ wordsIn regs_crp 1 0x1000 ++ wordsIn regs_ks 2 0x1000), (8, wordsIn regs_hl 3 0x1000),
   (4, [0x180044, 0x180048, 0x18004C, 0x180050]), (8, wordsIn regs_qm 5 0x1000), (8, wordsIn regs_cad 6 0x1000)] ++
  [7, 8, 9, 0xA].map (fun b => (10, wordsIn regs_lb b 0x100)) ++
  [(4, wordsIn regs_acc 0xB 0x100), (8, wordsIn (regs_msg.filter fun r => decide (r.base < 0x400400)) 0xC 0x100),
   (12, wordsIn regs_ds 0xD 0x100), (6, wordsIn regs_drc 0xF 0x100), (8, wordsIn regs_med 0xE 0x100)] ++
  [0x10, 0x11, 0x12, 0x13].map (fun b => (12, wordsIn regs_ul b 0x100)) ++
  [(6, wordsIn (regs_pel.filter fun r => decide (r.base < 0x680100)) 0x14 0x100),
   (10, ((List.range 9).map fun w => 0x700000 + 4 * w) ++ [0x7001A0])]

/-- `n` of the entries of a list, each taken once, as `Config.pfsPick` chooses from draw `i` on. -/
def pickWords : Nat → Nat → List Nat → List Nat
  | _, 0, _ => []
  | _, _ + 1, [] => []
  | i, n + 1, a :: l =>
    let x := (a :: l).getD (Config.pfsPick i % (l.length + 1)) a
    x :: pickWords (i + 1) n ((a :: l).erase x)

/-- The registers that the 180 directory words name, in their order (19 R451; log 6). -/
def pfsWords : List Nat :=
  let l := (pfsCoverage.zipIdx.map fun x => pickWords (1000 * (x.2 + 1)) x.1.1 x.1.2).flatten
  pickWords 0 180 l

/-- PFS_DIR[i]: VALID, the block and the offset in it of the register that it names (19 Table 19-8). -/
def pfsDirWord (i : Nat) : Nat :=
  let a := pfsWords.getD i 0
  2 ^ 31 + blockOf a * 2 ^ 24 + (a - blockBase (blockOf a))

/-- Corrected errors of control-core SRAM since DEV_SRAM_ECC.CORR was last cleared, stroke by stroke (18 Table 18-16). -/
def sramCorrected (s : State) : Nat :=
  ((List.range (s.since s.flt.corrFrom)).map fun i => Config.sramFixed (s.flt.corrFrom + BitVec.ofNat 48 i)).sum

/-- DBG_FUSE_STAT: while a field is programmed, what the command found on FUSE_EN and VDD_FUSE; otherwise what stands there, once the
ROM runs (19 Table 19-9; log 97). -/
def fuseStatWord (s : State) : Nat :=
  let v := (s.word 0x7E0014).toNat
  if s.isSet Fld.DBG_FUSE_STAT_BUSY then v
  else if s.dev.rom then withBits (withBits v 31 31 ((Config.fusePins s.now).toNat % 2)) 30 30 ((Config.fusePins s.now).toNat / 2)
  else v

/-- The value of a word of a context page that is computed, if it is one. -/
def pageWord (s : State) (c off : Nat) : Option Nat :=
  if off = 0 then some (ctxIdWord s c)
  else if 0x8000 ≤ off ∧ off < 0x8400 then some (msixWord s c (off - 0x8000))
  else if off = 0x9000 ∨ off = 0x9004 then some (pbaWord s c ((off - 0x9000) / 4))
  else none

/-- The value of a computed register of the global blocks, if the home address names one. -/
def globalWord (s : State) (h : Nat) : Option Nat :=
  if h = 0x280000 then some s.nowLo
  else if h = Adr.CAD_STROKE_HI then some s.nowHi
  else if h = Adr.DEV_SRAM_ECC then some (withBits (s.word h).toNat 31 16 (min 65535 (sramCorrected s)))
  else if h = 0x7E0014 then some (fuseStatWord s)
  else if h = Adr.DBG_STATUS then some (withBits (s.word h).toNat 29 29 (lockedOpen s).toNat)
  else if 0x1100000 ≤ h ∧ h < 0x1101000 then some (cadWord s (h - 0x1100000))
  else
    match elemAt h (Adr.IC_PEND 0 + 0x180) 4 9, elemAt h 0x700C00 4 128, elemAt h (Adr.IC_PEND 0 + 0xA40) 4 4 with
    | some w, _, _ => some (icActiveWord s w)
    | _, some i, _ => some (if i % 32 < 17 then icStackWord s (i / 32) (i % 32) else 0)
    | _, _, some c => some (icCoreWord s c)
    | none, none, none =>
      match elemAt h 0x7C0800 4 180, elemAt h 0x688000 4 8192, elemAt h 0x1200000 4 32768 with
      | some i, _, _ => some (pfsDirWord i)
      | _, some g, _ => some (pelLocWord s g)
      | _, _, some i => some (atsWord s (i / 8) (i % 8))
      | none, none, none =>
        match elemAt h 0x300004 0x10000 4, elemAt h (Adr.WIN_CTL 0 0) 32 16384 with
        | some p, _ => some (withBits (withBits (s.word h).toNat 25 16 (s.lb p).quar.length) 9 0 (s.lb p).reqs.length)
        | _, some i => some (winCtlWord s (i / 16) (i % 16))
        | none, none =>
          match elemAt h (Adr.PEL_TANDEM 0) 64 1024 with
          | some c => some (tandemWord s c)
          | none =>
            if h = Adr.MED_REBUILD_STATUS ∧ s.isSet Fld.MED_REBUILD_STATUS_ACTIVE then
              some (withBits (s.word h).toNat 9 0 (Config.rebuildDone s.now % 1000))
            else if h = Adr.MED_PATROL_STATUS ∧ s.get Fld.DS_CFG_STATE = 2 then
              some (withBits (s.word h).toNat 15 8 (Config.patrolDone s.now % 101))
            else if h = 0x70087C then some (withBits (s.word h).toNat 7 0 0) else none

/-- What a register reads as for a write that takes effect at the next boundary: an RW field returns the last value written
(00 R8); WIN_CTL.EN, which stays 0 until a window is mapped (08 R196), reads 1 again where a write of 1 follows one that unmaps. -/
def written (s : State) (h : Nat) (d : Deferred) (v : Nat) : Nat :=
  let put (f : Field) (x v : Nat) : Nat := withBits v f.hi f.lo x
  match d with
  | .cqEvt c q w =>
    let n := w.toNat
    if h = Adr.CQ_EVT_CFG c q then
      v |> put (Fld.CQ_EVT_CFG_VECTOR c q) (bitsOf n 29 24)
        |> (fun v => if bitsOf n 23 16 = 0 then v else put (Fld.CQ_EVT_CFG_COUNT c q) (bitsOf n 23 16) v)
        |> put (Fld.CQ_EVT_CFG_TIME c q) (bitsOf n 15 0)
        |> put (Fld.CQ_EVT_CFG_EN c q) (bitOf n 31 && decide (bitsOf n 29 24 < s.vectorsOf c)).toNat
    else v
  | .winAttr c w x =>
    let n := x.toNat
    if h = Adr.WIN_ATTR c w then
      v |> put (Fld.WIN_ATTR_TMO c w) (bitsOf n 11 8) |> put (Fld.WIN_ATTR_CLASS c w) (bitsOf n 7 6)
        |> put (Fld.WIN_ATTR_ACKED c w) (bitsOf n 3 3)
        |> put (Fld.WIN_ATTR_PREFETCH c w) (if s.isSet (Fld.WIN_ATTR_ONCE c w) then 0 else bitsOf n 2 2)
    else v
  | .winMap c w => if h = Adr.WIN_CTL c w ∧ s.winOn c w then put (Fld.WIN_CTL_EN c w) 1 v else v
  | .winUnmap c w => if h = Adr.WIN_CTL c w then put (Fld.WIN_CTL_EN c w) 0 v else v
  | .budget mib => if h = Fld.DS_BUDGET_MIB.addr then put Fld.DS_BUDGET_MIB mib v else v
  | .holdup mj => if h = Fld.DS_HOLDUP_MJ.addr then put Fld.DS_HOLDUP_MJ mj v else v
  | _ => v

/-- The value that a register shows, without any effect of reading it. -/
def liveWord (s : State) (h : Nat) : Word :=
  let base : Word :=
    match pageAt h with
    | some (c, off) => match pageWord s c off with | some v => BitVec.ofNat 32 v | none => s.word h
    | none => match globalWord s h with | some v => BitVec.ofNat 32 v | none => s.word h
  BitVec.ofNat 32 (s.deferred.foldl (fun v d => written s h d v) base.toNat)

/-! ## The photo-finish latch (19 R451 to R455) -/

/-- What snapshot word `i` takes: the live register its directory word names; of a gated block 0xFFFF_FFFF. -/
def snapWord (s : State) (i : Nat) : Word :=
  let d := pfsDirWord i
  if blockGated s (bitsOf d 28 24) then 0xFFFFFFFF else liveWord s (blockBase (bitsOf d 28 24) + bitsOf d 15 0)

/-- All 180 words latch at the boundary to the next stroke; `named` is the stroke a trigger named. -/
def pfsLatch (named : Stroke) (src : Nat) (s : State) : State :=
  let at_ := s.now + 1
  let late := (at_ - named).toNat
  s |> doAll ((List.range 180).map fun i => (i, snapWord s i)) (fun x s => s.setWord (Adr.PFS_SNAP x.1) x.2)
    |>.set Fld.PFS_STAT_VALID 1 |>.set Fld.PFS_STAT_ARMED 0 |>.set Fld.PFS_STAT_PEL_PENDING 0
    |>.set Fld.PFS_STAT_SRC src
    |>.set Fld.PFS_TS_LO_STROKE_LO (at_.toNat % 2 ^ 32) |>.set Fld.PFS_TS_HI_STROKE_HI (at_.toNat / 2 ^ 32)
    |>.set Fld.PFS_STAT_UNALIGNED (!s.isSet Fld.CAD_PEL_ALIGN_ALIGNED).toNat
    |> doIf (late != 0) (fun s => s |>.set Fld.PFS_STAT_LATE 1 |>.set Fld.PFS_STAT_LATE_BY (min 255 late))
    |> fun s => { s with pfs := { s.pfs with due := none, pel := none } }

/-- The latch that is due at the boundary to the next stroke: a local one ahead of a peloton-wide one (19 Table 19-3), each at the
boundary that its trigger named. -/
def pfsDueNow (s : State) : Option (Stroke × Nat) :=
  let come (x : Stroke × Nat) : Bool := decide ((s.now + 1 - x.1).toNat < 2 ^ 47)
  match s.pfs.due with
  | some x => if come x then some x else none
  | none => s.pfs.pel.filter come

/-- The latch at the boundary to the next stroke, if one is due. -/
def photoLatch (s : State) : State :=
  match pfsDueNow s with
  | some (t, src) => pfsLatch t src s
  | none => s

/-- R453: the boundary to come is a latching boundary, at which the 180 snapshot words latch. -/
def execPhotoLatch (s : State) : Result := done (doIf (pfsDueNow s).isSome (atBoundary .photo) s)

end Sys2Proof.Machine
end

