-- ==== Sys2Proof/Machine/Firmware.lean ====
section
/-! DEFINITION. Machine/Firmware.lean: the device, firmware, fuse and diagnostic commands, firmware staging and activation,
fuse programming, the end of a long operation (16 R399, R401, R406 to R410; 19 R461; 03 R56, R62, R66). -/
namespace Sys2Proof.Machine

/-- Firmware images changed. -/
def State.fwUpd (s : State) (f : Fw → Fw) : State := { s with fw := f s.fw }

/-- The fuse array changed. -/
def State.fuseUpd (s : State) (f : Fuses → Fuses) : State := { s with fuses := f s.fuses }

/-! ## Device commands (16 Table 16-5) -/

/-- R401: DEV_QUERY. -/
def execDevQuery (mb : Fin 1032) (core : Fin 4) (s : State) : Result :=
  runCmd mb core 0x0001 (fun _ s =>
    (s, 0, ([Adr.DEV_MODE, Adr.DEV_FWREV, Adr.DEV_RST_CAUSE, Adr.DEV_BOOT].flatMap (wordBytes s)) ++
      leBytes 6 s.now.toNat ++ leBytes 1 s.level ++ leBytes 1 s.sleepCode)) s

/-- R401, R63: DEV_RESET: the system reset follows 2,000 strokes after DONE. -/
def execDevReset (mb : Fin 1032) (core : Fin 4) (s : State) : Result :=
  runCmd mb core 0x0002 (fun _ s =>
    (s.devUpd fun d => { d with devResetAt := d.devResetAt.orElse fun _ => some (s.now + 2000) }, 0, [])) s

/-- The stroke of the last mode transition. -/
def State.modeStroke (s : State) : Nat := s.get Fld.DEV_MODE_TS_LO_STROKE_LO + 2 ^ 32 * s.get Fld.DEV_MODE_TS_HI_STROKE_HI

/-- R66 holds: no virtual function, no dirty data, neither home nor partner of a mirrored context. -/
def maintAllowed (s : State) : Bool :=
  !s.hl.vfEnable && s.ds.dirty.isEmpty && (List.range 1024).all fun c => s.get (Fld.PEL_TANDEM_ROLE c) == 0

/-- R66, R56: MAINT_ENTER: entered at the boundary, where the command completes with the stroke of entry. -/
def execMaintEnter (mb : Fin 1032) (core : Fin 4) (s : State) : Result :=
  startCmd mb core 0x0003 (fun x s =>
    match s.mode with
    | .maintenance => cmdDone x.id 0 (leBytes 6 s.modeStroke) s
    | .boot => addCause .maintEntry s
    | _ => if maintAllowed s then addCause .maintEntry s else cmdDone x.id 1 [] s) s

/-- R62, R64, R401: PREPARE_EXTRACT: completed with the stroke of DRAINING entry at that boundary; held or taken without
a drain, with 0 at once. -/
def execPrepareExtract (mb : Fin 1032) (core : Fin 4) (s : State) : Result :=
  startCmd mb core 0x0004 (fun x s =>
    match s.mode with
    | .standby | .serving => addCause .prepareExtract s
    | .draining => cmdDone x.id 0 (leBytes 6 s.dev.drainFrom.toNat) s
    | _ => orderExtract .prepareExtract s |> cmdDone x.id 0 (leBytes 6 0)) s

/-- R405: PEL_LEAVE: completed with the stroke of DRAINING entry at that boundary. -/
def execPelLeave (mb : Fin 1032) (core : Fin 4) (s : State) : Result :=
  startCmd mb core 0x0402 (fun _ s => addCause .pelLeave s) s

/-! ## Firmware images (16 R406, R409, R410) -/

/-- Bytes of an image, 0 where none was written. -/
def bodyBytes (t : Table (Option Byte)) (off n : Nat) : List Byte :=
  (List.range n).map fun i => (tabGet (fun _ => none) t (off + i)).getD 0

/-- The header of an image of a size is well formed (16 R409): the load is at most 6 MiB and fills the declared size, every
byte that the layout does not name is 0. -/
def headerGood (size : Nat) (t : Table (Option Byte)) : Bool :=
  let load := leNat (bodyBytes t 4 4)
  decide (load ≤ 6 * 2 ^ 20 ∧ 4096 + load = size) &&
    (bodyBytes t 0x0C 4 ++ bodyBytes t 0x71 15 ++ bodyBytes t 0xE0 (4096 - 0xE0)).all (· == 0)

/-- The digest that the signature covers: the whole image with the signature taken as zero. -/
def imageDigest (size : Nat) (t : Table (Option Byte)) : List Byte :=
  sha384 (bodyBytes t 0 0x80 ++ List.replicate 96 0 ++ bodyBytes t 0xE0 (size - 0xE0))

/-- The first of the tests of R54 that an image that reads fails, coded as DEV_BOOT.ERR: its header and size, the hash of
its public key, its signature; 0 where it passes them. -/
def bodyErr (size : Nat) (t : Table (Option Byte)) : Nat :=
  if ¬ headerGood size t then 2
  else if sha384 (bodyBytes t 0x10 97) ≠ Config.signingRoot then 3
  else if ¬ ecdsaOk (bodyBytes t 0x10 97) (imageDigest size t) (bodyBytes t 0x80 96) then 4
  else 0

/-- Boot copy `k`. -/
def State.copy (s : State) (k : Nat) : Image := tabGet copyShipped s.fw.copies k

/-- The ROM reads a copy whole: it reads the blocks of the range in order and skips those that are bad or do not decode; the copy is
complete where the blocks read hold its load size, that is, every block that it lies in still reads (12 R299). -/
def copyComplete (s : State) (k : Nat) : Bool := (s.copy k).blocks.all fun b => !s.med.retired.contains (8 * k, b)

/-- The first of those tests that boot copy `k` fails: a copy that is not complete falls short of its size. -/
def copyErr (s : State) (k : Nat) : Nat :=
  if ¬ copyComplete s k then 2
  else match (s.copy k).body with
    | none => 0
    | some b => bodyErr b.1 b.2

/-- Release word of boot copy `k`, 0 for an invalid copy. -/
def State.fwCopy (s : State) (k : Nat) : Word := if copyErr s k = 0 then (s.copy k).rel else 0

/-- The good blocks left in the range of boot copy `k`: without a factory mark and not retired (12 R299). -/
def copyRange (s : State) (k : Nat) : List Nat := (bootGood k).filter fun b => !s.med.retired.contains (8 * k, b)

/-- Blocks that an image takes (log 226). -/
def imageBlocks (v : Image) : Nat := max 1 (match v.body with | some b => Config.bootBlocks b.1 | none => Config.shippedBlocks)

/-- What a write that was cut short leaves: no whole image (16 R410), one of a wrong size to the ROM (log 163). -/
def cutImage : Image := { body := some (0, []) }

/-- A copy holds an image, written into the first good blocks of its range; where those are too few it holds no whole image (12
R299). -/
def setCopy (v : Image) (k : Nat) (s : State) : State :=
  let at_ := (copyRange s k).take (imageBlocks v)
  let v : Image := if at_.length = imageBlocks v then { v with blocks := at_ } else cutImage
  s.fwUpd fun f => { f with copies := tabSet copyShipped f.copies k v }

/-- Bytes of the staged image. -/
def imageBytes (s : State) (off n : Nat) : List Byte := bodyBytes s.fw.bytes off n

/-- The release word of the staged image, 0 with none. -/
def stagedRelease (s : State) : Nat := leNat (imageBytes s 0 4)

/-- The running image is in TRIAL: its release differs from copy 2's (16 R410). -/
def inTrial (s : State) : Bool := s.word Adr.DEV_FWREV != 0 && s.word Adr.DEV_FWREV != s.fwCopy 2

/-- R406: FW_QUERY. -/
def execFwQuery (mb : Fin 1032) (core : Fin 4) (s : State) : Result :=
  runCmd mb core 0x0501 (fun _ s =>
    (s, 0, wordBytes s Adr.DEV_FWREV ++ ([0, 1, 2, 3].flatMap fun k => leBytes 4 (s.fwCopy k).toNat) ++
      leBytes 4 (stagedRelease s) ++ leBytes 1 s.fw.stage ++ leBytes 1 (inTrial s).toNat ++ leBytes 2 s.fw.trials ++
      leBytes 4 (opWord s.mbx.fw))) s

/-- R409: FW_STAGE_BEGIN discards any staged image. -/
def execFwStageBegin (mb : Fin 1032) (core : Fin 4) (s : State) : Result :=
  runCmd mb core 0x0502 (fun x s => (s.fwUpd fun f => { f with stage := 1, size := leAt x.args 0 4, bytes := [] }, 0, [])) s

/-- R409: FW_STAGE_DATA; a piece outside the declared size is a field out of range; a verified image is verified no
more (log 96). -/
def execFwStageData (mb : Fin 1032) (core : Fin 4) (s : State) : Result :=
  runCmd mb core 0x0503 (fun x s =>
    let off := leAt x.args 0 4
    let n := leAt x.args 4 4
    if s.fw.stage = 0 then (s, 1, [])
    else if s.fw.size < off + n then (s, 3, [])
    else
      let put := (List.range n).foldl (fun t i => tabSet (fun _ => none) t (off + i) (some (x.args.getD (32 + i) 0))) s.fw.bytes
      (s.fwUpd fun f => { f with stage := 1, bytes := put }, 0, [])) s

/-- Every byte of the declared size is written. -/
def stagedWhole (s : State) : Bool := (List.range s.fw.size).all fun i => (tabGet (fun _ => none) s.fw.bytes i).isSome

/-- The first of the tests of R54 and R409 that the staged image fails, coded as DEV_BOOT.ERR; `unread` where the staging
blocks do not read without an uncorrectable error. The bytes must cover the declared size, and the lowest stepping be B1 or
earlier. -/
def imageErr (s : State) (unread : Bool) : Nat :=
  if unread then 1
  else if ¬ stagedWhole s ∨ ¬ leNat (imageBytes s 8 4) ≤ 0xB1 then 2
  else bodyErr s.fw.size s.fw.bytes

/-- The staged image as a copy of it. -/
def State.staged (s : State) : Image := { rel := BitVec.ofNat 32 (stagedRelease s), body := some (s.fw.size, s.fw.bytes) }

/-- R409: FW_STAGE_END verifies the staged image. -/
def execFwStageEnd (mb : Fin 1032) (core : Fin 4) (unread : Bool) (s : State) : Result :=
  runCmd mb core 0x0504 (fun _ s =>
    if s.fw.stage = 0 then (s, 1, [])
    else
      let e := imageErr s unread
      if e = 0 then (s.fwUpd fun f => { f with stage := 2 }, 0, [])
      else (s.fwUpd fun f => { f with stage := 1 }, 0xB, leBytes 1 e)) s

/-- A long command of the firmware group starts writing an image into copies. -/
def fwStart (x : Cmd) (src : Image) (todo : List Nat) (s : State) : State × Nat × List Byte :=
  let (s, o) := longStart x s
  (s.mbxUpd (fun m => { m with fw := o }) |>.fwUpd fun f => { f with src := src, todo := todo }, 0, [])

/-- A long operation of the firmware group runs. -/
def fwBusy (s : State) : Bool := s.mbx.fw.state == 1

/-- R410: FW_ACTIVATE. -/
def execFwActivate (mb : Fin 1032) (core : Fin 4) (s : State) : Result :=
  runCmd mb core 0x0505 (fun x s =>
    if fwBusy s ∨ s.fw.stage ≠ 2 then (s, 1, []) else fwStart x s.staged [0, 1] s) s

/-- R410: FW_COMMIT, in TRIAL only. -/
def execFwCommit (mb : Fin 1032) (core : Fin 4) (s : State) : Result :=
  runCmd mb core 0x0506 (fun x s =>
    if fwBusy s ∨ ¬ inTrial s then (s, 1, []) else fwStart x s.fw.running [2, 3] s) s

/-- R410: FW_ROLLBACK, while copy 2 holds a valid image of another release. -/
def execFwRollback (mb : Fin 1032) (core : Fin 4) (s : State) : Result :=
  runCmd mb core 0x0507 (fun x s =>
    if fwBusy s ∨ s.fwCopy 2 = 0 ∨ s.fwCopy 2 = s.word Adr.DEV_FWREV then (s, 1, []) else fwStart x (s.copy 2) [0, 1] s) s

/-- A firmware operation stops before its end. How many of its copies were done by then is drawn (DESIGN CHOICE, log 225); the one that
it was writing is done too at a safe point, the end of a copy, and is otherwise left as one that the ROM rejects (16 R410). -/
def fwStop (safe : Bool) (s : State) : State :=
  match s.fw.todo with
  | [] => s
  | l =>
    let n := s.draw.toNat % l.length
    s.drewOne |> doAll (l.take (n + safe.toNat)) (setCopy s.fw.src)
      |> doIf (!safe) (setCopy cutImage (l.getD n 0))
      |>.fwUpd fun f => { f with todo := [] }

/-- A firmware operation is cut short. -/
def fwCut (s : State) : State := fwStop false s

/-- The firmware group's operation ends: its copies are written, or the one in progress is invalid. -/
def fwEnd (code : Nat) (s : State) : State :=
  let s := if code = 0 then s |> doAll s.fw.todo (setCopy s.fw.src) |>.fwUpd (fun f => { f with todo := [], trials := 0 }) else fwCut s
  let (s, o) := longEnd s.mbx.fw code s
  s.mbxUpd fun m => { m with fw := o }

/-- R399: the long operation of the firmware group, or of the store group, ends with a status. -/
def execLongOperationEnd (fw : Bool) (code : Fin 13) (s : State) : Result :=
  done (if fw then (if fwBusy s then fwEnd code s else s) else if storeBusy s then storeEnd code s else s)

/-! ## Fuses (16 R407, 19 R461) -/

/-- Bytes of a 64-bit region entry as loaded. -/
def regionLoaded (s : State) (i : Nat) : List Byte := wordBytes s (Adr.ACC_REGION_LO i) ++ wordBytes s (Adr.ACC_REGION_HI i)

/-- R407: FUSE_QUERY. -/
def execFuseQuery (mb : Fin 1032) (core : Fin 4) (s : State) : Result :=
  runCmd mb core 0x0601 (fun _ s =>
    (s, 0, leBytes 2 (Config.fuseBitmap s.fuses.marks).toNat ++ leBytes 2 0 ++ leBytes 4 s.fuses.subsys.toNat ++
      ((List.range 16).flatMap (regionLoaded s)) ++ leBytes 4 s.fuses.policy.toNat ++
      wordBytes s Adr.PEL_IDENT_LO ++ wordBytes s Adr.PEL_IDENT_HI)) s

/-- The field that a FUSE_PROGRAM names, as it is marked once programmed. -/
def fuseField (args : List Byte) : Nat := if leAt args 0 1 = 2 then 16 + leAt args 1 1 else leAt args 0 1

/-- What the fuses of a field hold now, as bytes. -/
def fuseHeld (s : State) (args : List Byte) : List Byte :=
  match leAt args 0 1 with
  | 1 => leBytes 4 s.fuses.subsys.toNat
  | 2 => leBytes 8 (tabGet regionFused s.fuses.regions (leAt args 1 1)).1.toNat
  | 3 => leBytes 4 s.fuses.policy.toNat
  | _ => s.fuses.identity

/-- A value needs a bit that is programmed to read 0. -/
def fuseClears (old new : List Byte) : Bool := (old.zip new).any fun x => x.1 &&& ~~~x.2 != 0

/-- The bits of a value are programmed into a field; a region entry in both copies. -/
def fuseWrite (args : List Byte) (v : List Byte) (s : State) : State :=
  let n := leNat v
  s.fuseUpd fun f =>
    match leAt args 0 1 with
    | 1 => { f with subsys := BitVec.ofNat 32 n }
    | 2 => { f with regions := tabSet regionFused f.regions (leAt args 1 1) (BitVec.ofNat 64 n, BitVec.ofNat 64 n) }
    | 3 => { f with policy := BitVec.ofNat 32 n }
    | _ => { f with identity := v }

/-- The conditions of R461 that the device itself shows: MAINTENANCE, the hottest sensor between 0 and 85 °C, level P0. -/
def fuseReady (s : State) : Bool :=
  let t := s.get (Fld.CRP_TEMP_TEMP (s.get Fld.CRP_TEMP_MAX_HOTTEST))
  s.mode == .maintenance && decide (t ≤ 680) && s.level == 0

/-- Programming ends with a failure: some of the bits are programmed, the marker is not (R461). -/
def fusePartly (x : Cmd) (lapse : Bool) (got : BitVec 128) (s : State) : State :=
  let n := fuseSize (leAt x.args 0 1)
  let part := ((fuseHeld s x.args).zip ((sliceBytes x.args 8 n).zip (leBytes n got.toNat))).map fun y => y.1 ||| (y.2.1 &&& y.2.2)
  fuseWrite x.args part s |>.set Fld.DBG_FUSE_STAT_RESULT (if lapse then 2 else 3) |> cmdDone x.id 9 []

/-- Programming ends well: every bit and the marker are programmed. -/
def fuseWhole (x : Cmd) (s : State) : State :=
  let s := fuseWrite x.args (sliceBytes x.args 8 (fuseSize (leAt x.args 0 1))) s
    |>.fuseUpd (fun f => { f with marks := f.marks ++ [fuseField x.args] })
    |>.set Fld.DBG_FUSE_STAT_RESULT 1
  cmdDone x.id 0 (leBytes 2 (Config.fuseBitmap s.fuses.marks).toNat) s

/-- The end of FUSE_PROGRAM, at the boundary after it began (the spec bounds its time: DESIGN CHOICE, log 235): a condition that the
device shows and that holds no longer has lapsed. A command that was interrupted has had no effect (16 R397). -/
def fuseEnd (id : Nat) (lapse bad : Bool) (got : BitVec 128) (s : State) : State :=
  let s := s.set Fld.DBG_FUSE_STAT_BUSY 0
  match s.cmdId id with
  | none => s
  | some x =>
    let lapsed := lapse || !fuseReady s
    if lapsed || bad then fusePartly x lapsed got s else fuseWhole x s

/-- FUSE_PROGRAM begins: it is denied, ends at once for a condition that does not hold, or BUSY reads 1 to its end. -/
def fuseStart (en vdd lapse bad : Bool) (got : BitVec 128) (x : Cmd) (s : State) : State :=
  let s := s.set Fld.DBG_FUSE_STAT_FUSE_EN en.toNat |>.set Fld.DBG_FUSE_STAT_VDD_OK vdd.toNat
  if s.fuses.marks.contains (fuseField x.args) ∨ (leAt x.args 0 1 = 2 ∧ leAt x.args 1 1 < 2) ∨
      fuseClears (fuseHeld s x.args) (sliceBytes x.args 8 (fuseSize (leAt x.args 0 1))) then cmdDone x.id 2 [] s
  else if ¬ (en && vdd && fuseReady s) then s.set Fld.DBG_FUSE_STAT_RESULT 2 |> cmdDone x.id 9 []
  else s.set Fld.DBG_FUSE_STAT_BUSY 1 |> atBoundary (.fuse x.id lapse bad got)

/-- R461: FUSE_PROGRAM. `en` and `vdd`: FUSE_EN is high and VDD_FUSE in range; `lapse`: a condition lapses before the
field is done; `bad`: a bit fails its read-back; `got`: which of the bits to be programmed are, where it does not end
well (log 97). -/
def execFuseProgram (mb : Fin 1032) (core : Fin 4) (en vdd lapse bad : Bool) (got : BitVec 128) (s : State) : Result :=
  startCmd mb core 0x0602 (fuseStart en vdd lapse bad got) s

/-! ## Diagnostic commands (16 R408) -/

/-- R408: IF_QUERY. -/
def execIfQuery (mb : Fin 1032) (core : Fin 4) (s : State) : Result :=
  runCmd mb core 0x0701 (fun _ s =>
    (s, 0, leBytes 1 3 ++ leBytes 1 0 ++ leBytes 2 commands.length ++ commands.flatMap fun i => leBytes 2 i.op)) s

/-- R408: ECHO. -/
def execEcho (mb : Fin 1032) (core : Fin 4) (s : State) : Result := runCmd mb core 0x0702 (fun x s => (s, 0, x.args)) s

/-- The 32 bytes of a log entry. -/
def logBytes (e : Nat × Stroke × List Byte) : List Byte := leBytes 6 e.2.1.toNat ++ leBytes 2 e.1 ++ sliceBytes e.2.2 0 24

/-- R447, R408: LOG_READ: entries are numbered from 0 since system reset; the oldest kept follow an index below them. -/
def execLogRead (mb : Fin 1032) (core : Fin 4) (s : State) : Result :=
  runCmd mb core 0x0703 (fun x s =>
    let oldest := s.flt.logged - s.flt.log.length
    let first := min s.flt.logged (max oldest (leAt x.args 0 4))
    let l := (s.flt.log.reverse.drop (first - oldest)).take 126
    (s, 0, leBytes 4 (first + l.length) ++ List.replicate 28 0 ++ l.flatMap logBytes)) s

/-- R408: TIME_QUERY. -/
def execTimeQuery (mb : Fin 1032) (core : Fin 4) (s : State) : Result :=
  runCmd mb core 0x0704 (fun _ s =>
    (s, 0, leBytes 6 s.now.toNat ++ leBytes 2 0 ++
      [Adr.CAD_PTM_STATUS, Adr.CAD_HOSTT_LO, Adr.CAD_HOSTT_HI, Adr.CAD_HOSTT_STROKE, Adr.CAD_PEL_ALIGN].flatMap (wordBytes s))) s

end Sys2Proof.Machine
end

