-- ==== Sys2Proof/Machine/Bus.lean ====
section
/-! DEFINITION. Machine/Bus.lean: the register bus: the internal map and its fused regions (09 R224 to R229), gated
blocks (18 R444, R445), reads and writes by access type (00 R6 to R9) and the registers that act when they are read or
written (20 R464 to R468). -/
namespace Sys2Proof.Machine

/-! ## The internal map (09 R224 to R229) -/

/-- Bit `b` of a fused region entry as loaded (09 Table 09-6). -/
def regionBit (s : State) (i b : Nat) : Bool :=
  if b < 32 then bitOf (s.word (Adr.ACC_REGION_LO i)).toNat b else bitOf (s.word (Adr.ACC_REGION_HI i)).toNat (b - 32)

/-- Fused region entry `i` is loaded; copies that differ load fail-closed (09 R225). -/
def loadRegion (i : Nat) (s : State) : State :=
  let r := tabGet regionFused s.fuses.regions i
  let a := r.1.toNat
  let b := r.2.toNat
  let shut := 7 * 2 ^ 61 + max (bitsOf a 43 24) (bitsOf b 43 24) * 2 ^ 24 + min (bitsOf a 19 0) (bitsOf b 19 0)
  let v := if a = b then a else shut
  s |>.setWord (Adr.ACC_REGION_LO i) (BitVec.ofNat 32 v) |>.setWord (Adr.ACC_REGION_HI i) (BitVec.ofNat 32 (v / 2 ^ 32))
    |> doIf (a != b) (fun s => s.set Fld.ACC_STATUS_FUSE_BAD 1
        |>.set Fld.ACC_STATUS_BAD_MASK (orBit (s.get Fld.ACC_STATUS_BAD_MASK) i))

/-- A valid region holds an address. -/
def regionHolds (s : State) (a i : Nat) : Bool :=
  regionBit s i 63 && decide (bitsOf (s.word (Adr.ACC_REGION_LO i)).toNat 19 0 ≤ a / 4096 ∧
    a / 4096 ≤ (s.word (Adr.ACC_REGION_LO i)).toNat / 2 ^ 24 + bitsOf (s.word (Adr.ACC_REGION_HI i)).toNat 11 0 * 256)

/-- The first valid region, in index order, that holds an address (09 R225). -/
def regionAt (s : State) (a : Nat) : Option Nat := (List.range 16).find? (regionHolds s a)

/-- KEY of a region. -/
def regionKey (s : State) (i : Nat) : Bool := regionBit s i 61

/-- A region is LOCKED, or KEY, which acts as LOCKED. -/
def regionLocked (s : State) (i : Nat) : Bool := regionBit s i 62 || regionBit s i 61

/-- Where FW_RD and FW_WR act as 1 whatever is fused: the global blocks and the control-core SRAM (09 R228). -/
def fwOpen (a : Nat) : Bool :=
  decide (0x100000 ≤ a ∧ a ≤ 0x12FFFFF) || decide (0x10000000 ≤ a ∧ a ≤ 0x107FFFFF)

/-- The grant bit that a master needs for reads; the bit for writes is the one below (09 Table 09-6). -/
def grantBit : Master → Nat
  | .host _ => 55 | .bc => 53 | .core _ => 51 | .debug => 49

/-- A region grants a master the direction. -/
def regionGrants (s : State) (i : Nat) (m : Master) (wr : Bool) : Bool := regionBit s i (grantBit m - wr.toNat)

/-- The debug policy refuses an access (19 Table 19-6). -/
def policyRefuses (s : State) (a : Nat) (wr : Bool) : Bool :=
  let p := (s.word Adr.DBG_POLICY).toNat
  (bitOf p 2 && wr) || (bitOf p 3 && decide (0x10000000 ≤ a ∧ a ≤ 0x107FFFFF)) ||
    (bitOf p 4 && !decide (0x7C0000 ≤ a ∧ a < 0x800000))

/-- Step 6 of Table 09-2: the CAUSE code with which the internal map refuses a master's access, if it does (09 R216,
R226 to R229). Firmware that lacks the grant of a LOCKED region is refused with 5 REGION (DESIGN CHOICE, log 200). -/
def mapCause (s : State) (m : Master) (a : Nat) (wr : Bool) : Option Nat :=
  match regionAt s a, m with
  | none, .debug => some 0
  | none, _ => none
  | some i, .core c => if fwOpen a then none else if regionKey s i then some 7 else if regionGrants s i (.core c) wr then none else some 5
  | some i, .debug =>
    if regionKey s i then some 7
    else if regionLocked s i && !lockedOpen s then some 6
    else if !regionGrants s i .debug wr then some 5
    else if policyRefuses s a wr then some 5
    else none
  | some i, m =>
    if regionKey s i then some 7 else if regionLocked s i then some 6 else if regionGrants s i m wr then none else some 5

/-- The code of DBG_DENY.CAUSE for a refused access; where a region merely withholds the grant the spec states none of
its codes, and the value is drawn (log 98). -/
def denyCause (s : State) (a : Nat) (wr : Bool) : Option Nat :=
  match regionAt s a with
  | none => some 0
  | some i =>
    if regionKey s i then some 2
    else if regionLocked s i && !lockedOpen s then some 1
    else if !regionGrants s i .debug wr then none
    else some 3

/-- A refusal of the debug master is recorded (09 R220, R229). -/
def debugDenied (a : Nat) (wr : Bool) (s : State) : State :=
  let cause := (denyCause s a wr).getD (s.draw.toNat % 8)
  s |> doIf (denyCause s a wr).isNone (·.drewOne)
    |>.set Fld.DBG_DENY_VALID 1 |>.set Fld.DBG_DENY_WRITE wr.toNat |>.set Fld.DBG_DENY_CAUSE cause
    |>.inc Fld.DBG_DENY_COUNT 1 |>.setWord Adr.DBG_DENY_ADDR (BitVec.ofNat 32 a)
    |>.setWord Adr.DBG_DENY_TS (BitVec.ofNat 32 s.nowLo)
    |>.inc Fld.ACC_CNT2_DBG 1 |> raise 269

/-- A refusal by a KEY region is counted and raises source 274 (09 R229). -/
def keyAttempt (cause : Nat) (s : State) : State := if cause = 7 then s.inc Fld.ACC_CNT2_KEY 1 |> raise 274 else s

/-- A refusal of the internal map of an access of `len` bytes is recorded and reaches the party that can act on it (09 Table
09-4); the completion of a host read follows once its whole request is judged (`abortRead`). -/
def mapRefused (m : Master) (a len : Nat) (wr : Bool) (cause : Nat) (s : State) : State :=
  (match m with
    | .host c => if wr then refuseHostWrite c 6 cause 0 0 a len s else noteHostRead c 6 cause 0 0 a len s
    | .bc => s |> accVlog true 4 cause 2 0 0 0 a |>.inc Fld.ACC_CNT2_INT 1 |> raise 268
    | .core c => s |> accVlog true 4 cause 3 c 0 0 a |>.inc Fld.ACC_CNT2_INT 1 |> raise 268 |> emit (.busError c)
    | .debug => debugDenied a wr s) |> keyAttempt cause

/-! ## Gated blocks (18 R444, R445) -/

/-- MASTER of DEV_GATED_ACC (18 Table 18-15). -/
def masterCode : Master → Nat
  | .host _ => 0 | .bc => 1 | .core _ => 2 | .debug => 3

/-- An access that a block does not answer is recorded and counted; outside Rest, to the end of its exit, and PRESERVE source 5 and the
log follow. -/
def recordGated (m : Master) (a : Nat) (wr hung : Bool) (s : State) : State :=
  let core := match m with | .core c => c.val | _ => 0
  s |>.setWord 0x100040 0
    |>.set Fld.DEV_GATED_ACC_VALID 1 |>.set Fld.DEV_GATED_ACC_WRITE wr.toNat |>.set Fld.DEV_GATED_ACC_HUNG hung.toNat
    |>.set Fld.DEV_GATED_ACC_MASTER (masterCode m) |>.set Fld.DEV_GATED_ACC_CORE core
    |>.set Fld.DEV_GATED_ACC_BLOCK (blockOf a)
    |>.set Fld.DEV_GATED_ADDR_ADDR a |>.set Fld.DEV_GATED_TS_STROKE_LO s.nowLo |>.inc Fld.DEV_GATED_CNT_COUNT 1
    |> doIf (!s.restGated && s.mode != .preserve) (fun s =>
      s |> raise 5 |> logEv 0x0070 (leBytes 1 (blockOf a) ++ leBytes 1 (masterCode m) ++ [0, 0] ++ leBytes 4 a))

/-- The master is a virtual function, whose BAR0 is its context page only. -/
def virtualFn : Master → Bool
  | .host c => c != 0
  | _ => false

/-! ## Access types (00 R6, R8) -/

/-- The RC fields of a register are cleared by a read; DEV_SRAM_ECC.CORR counts from there on. -/
def rcClear (h : Nat) (s : State) : State :=
  let s := if h = Adr.DEV_SRAM_ECC then { s with flt := { s.flt with corrFrom := s.now } } else s
  match regAt h with
  | none => s
  | some r => s |> doAll (r.fields.filter fun f => f.acc = .rc) (fun f s => s.set ⟨h, f.hi, f.lo⟩ 0)

/-- A field of a write takes effect by its access type; a reserved encoding leaves the field as it is. -/
def writeField (h v : Nat) (f : FieldDef) (s : State) : State :=
  let x := bitsOf v f.hi f.lo
  match f.acc with
  | .rw => if f.least = 0 ∧ f.most = 0 ∨ f.least ≤ x ∧ x ≤ f.most then s.set ⟨h, f.hi, f.lo⟩ x else s
  | .rw1c => s |> doAll ((List.range (f.hi + 1 - f.lo)).filter (bitOf x)) (fun b s => s.set ⟨h, f.lo + b, f.lo + b⟩ 0)
  | .rw1s => s |> doAll ((List.range (f.hi + 1 - f.lo)).filter (bitOf x)) (fun b s => s.set ⟨h, f.lo + b, f.lo + b⟩ 1)
  | _ => s

/-- A write applied to a register by the access types of its fields; `keep` names fields, by their highest bit, that
ignore it. -/
def writeWord (keep : Nat → Bool) (h v : Nat) (s : State) : State :=
  match regAt h with
  | none => s
  | some r => s |> doAll (r.fields.filter fun f => !keep f.hi) (writeField h v)

/-- A write to a register without behaviour of its own. -/
def plainWrite (h v : Nat) (s : State) : State := writeWord (fun _ => false) h v s

/-- A write while a lock holds changes the field at bit 31 alone. -/
def lockedWrite (locked : Bool) (h v : Nat) (s : State) : State := writeWord (fun b => locked && b != 31) h v s

/-- A write to a word of an upstream rule or guard: while it is enabled only EN of its CFG word changes (08 Table 08-19, 09
R218). -/
def enLocked (on : Bool) (h v : Nat) (s : State) : State :=
  if on then (if h % 32 = 0x10 then lockedWrite true h v s else s) else plainWrite h v s

/-- The bits of a register that a write of 1 clears. -/
def rw1cBits (h : Nat) : Nat :=
  match regAt h with
  | none => 0
  | some r => ((r.fields.filter fun f => f.acc = .rw1c).map fun f => (2 ^ (f.hi + 1 - f.lo) - 1) * 2 ^ f.lo).sum

/-- The value of a write without the clears that meet the hardware: `met` names the bits that hardware sets in the same cycle,
which are left set (00 R9, 15 R370); the setting itself is the event's own command. -/
def unmet (s : State) (m : Master) (a v met : Nat) : Nat :=
  let bits := if 0x700080 ≤ a ∧ a < 0x7000A4 then 0xFFFFFFFF else rw1cBits (homeOf s m a)
  v &&& (0xFFFFFFFF - (met &&& bits))

/-! ## Mailbox buffers (16 R388 to R390) -/

/-- The mailbox that a bus address lies in, and the offset in its buffer. -/
def mbxAt (a : Nat) : Option (Nat × Nat) :=
  if 0x780000 ≤ a ∧ a < 0x786000 then some ((a - 0x780000) / 0x1000, a % 0x1000) else none

/-- A master reaches a mailbox buffer (16 Table 16-1): the physical function its four, the board controller its own,
firmware every one. -/
def mbxReached (m : Master) (mb : Nat) : Bool :=
  match m with
  | .host _ => decide (mb < 4) | .bc => mb == 4 | .core _ => true | .debug => false

/-- A 4-byte write to a mailbox buffer: while the mailbox is busy it is discarded, but for GO. -/
def mbxWrite (mb off v : Nat) (s : State) : State :=
  if off = 0x1C then (if bitOf v 0 then mbxGo mb s else s)
  else if mbxBusy s (mbxId mb) then s
  else if off < 0x20 then plainWrite (mbxBase (mbxId mb) + off) v s
  else s.setWord (mbxBase (mbxId mb) + off) (BitVec.ofNat 32 v)

/-! ## The context page (20 R468) -/

/-- A write to a function's MSI-X table: entries that are not backed ignore it; a vector unmasked is sent (15 R379,
R383). -/
def msixWrite (c off v : Nat) (s : State) : State :=
  let n := off / 16
  let e := s.msixAt c n
  let w : Word := BitVec.ofNat 32 v
  if s.vectorsOf c ≤ n then s
  else
    match off % 16 / 4 with
    | 0 => s.setMsix c n { e with addr := BitVec.ofNat 64 (e.addr.toNat / 2 ^ 32 * 2 ^ 32 + v % 2 ^ 32) }
    | 1 => s.setMsix c n { e with addr := BitVec.ofNat 64 (e.addr.toNat % 2 ^ 32 + v % 2 ^ 32 * 2 ^ 32) }
    | 2 => s.setMsix c n { e with data := w }
    | _ => s.setMsix c n { e with ctl := w &&& 0xFFFF0001 } |> doIf (!w.getLsbD 0) (sendPendingVector c n)

/-- A write to queue pair `q`'s block (06 R127, R128, R142). QP_CFG keeps a depth out of range: enabling reports it. -/
def qpWrite (c q r v : Nat) (s : State) : State :=
  if r = 0x14 then
    (if bitOf v 0 then qpEnable c q s
      else qpDisable c q s)
  else if r = 0x24 then (if bitOf v 31 then qpAbortGo c q s else s)
  else if r ≤ 0x10 then
    (if s.isSet (Fld.QP_CTL_EN c q) ∨ ¬ s.isSet (Fld.QP_STATUS_QUIESCED c q) then s
      else plainWrite (pageHome + 0x10000 * c + 0x1000 + 64 * q + r) v s)
  else plainWrite (pageHome + 0x10000 * c + 0x1000 + 64 * q + r) v s

/-- A 4-byte write to a function's context page. -/
def pageWrite (c off v : Nat) (s : State) : State :=
  let h := pageHome + 0x10000 * c + off
  if off = 0x10 then wdogKick c s
  else if off = 0x208 then writeWord (fun b => s.isSet (Fld.CTX_PWE_CFG_EN c) && b == 3) h v s
  else if 0x1000 ≤ off ∧ off < 0x2000 then qpWrite c ((off - 0x1000) / 64) (off % 64) v s
  else if 0x2000 ≤ off ∧ off < 0x2200 then
    (if off % 8 = 0 then doorbell c ((off - 0x2000) / 8) (some v) none s else doorbell c ((off - 0x2000) / 8) none (some v) s)
  else if 0x3000 ≤ off ∧ off < 0x3400 ∧ off % 16 = 0 then
    { s with deferred := s.deferred ++ [.cqEvt c ((off - 0x3000) / 16) (BitVec.ofNat 32 v)] }
  else if 0x4000 ≤ off ∧ off < 0x5000 then mbxWrite (8 + c) (off - 0x4000) v s
  else if 0x8000 ≤ off ∧ off < 0x8400 then msixWrite c (off - 0x8000) v s
  else plainWrite h v s

/-! ## Global registers that act when written -/

/-- A window register written through WIN_SEL (08 R196 to R198). -/
def winWrite (c w r v : Nat) (s : State) : State :=
  let locked : Bool := s.winOn c w || winBusy s c w
  let waits : Bool := s.deferred.contains (.winMap c w)
  if r = 0x10 then
    s |> doIf (!locked) (·.set (Fld.WIN_CTL_PORT c w) (bitsOf v 1 0))
      |> (fun s =>
        if bitOf v 31 then winEnable c w s
        else if s.winOn c w || waits then { s with deferred := s.deferred ++ [.winUnmap c w] } else s)
  else if r = 0x14 then winAttrWrite c w (BitVec.ofNat 32 v) s
  else if locked then s
  else plainWrite (Adr.WIN_BAR c w + (r - 4)) v s

/-- Four entry bytes of a shadow list (07 R160, R162): bytes beyond the level's slots are ignored, and all while a commit
is pending. -/
def shadowWrite (off v : Nat) (s : State) : State :=
  let k := off / 256
  if 8 ≤ k ∨ s.cad.commitAt.isSome then s
  else setList k ((s.list k).zipIdx.map fun e =>
    if off % 256 ≤ e.2 ∧ e.2 < off % 256 + 4 then BitVec.ofNat 8 (v / 2 ^ (8 * (e.2 - off % 256))) else e.1) s

/-- A stroke timer that is enabled loads its period (15 R368, DEDUCED: log 99). -/
def timerWrite (t v : Nat) (s : State) : State :=
  let was := s.isSet (Fld.IC_TMR_CTL_EN t)
  plainWrite (0x700E00 + 8 * t) v s
    |> fun s => if s.isSet (Fld.IC_TMR_CTL_EN t) && !was then
        s.set (Fld.IC_TMR_CNT_REMAIN t) (s.get (Fld.IC_TMR_CTL_PERIOD t)) else s

/-- A write of a control core to the interrupt controller (15 R369, R376, R377, R385). -/
def icWrite (c : Fin 4) (a v : Nat) (s : State) : State :=
  let w : Word := BitVec.ofNat 32 v
  if a = 0x700A04 then icEoi c (v % 512) s
  else if a = 0x700A08 then plainWrite (Adr.IC_CORE_CFG c) v s
  else
    match elemAt a 0x700040 4 9, elemAt a 0x700080 4 9, elemAt a 0x700100 4 9, elemAt a 0x700140 4 9 with
    | some i, _, _, _ => s.setWord (Adr.IC_PEND i) (s.word (Adr.IC_PEND i) ||| w)
    | _, some i, _, _ => s.setWord (Adr.IC_PEND i) (s.word (Adr.IC_PEND i) &&& ~~~w)
    | _, _, some i, _ => s.setWord (Adr.IC_EN i) (s.word (Adr.IC_EN i) ||| w)
    | _, _, _, some i => s.setWord (Adr.IC_EN i) (s.word (Adr.IC_EN i) &&& ~~~w)
    | none, none, none, none =>
      match elemAt a 0x700900 4 32, elemAt a 0x700E00 8 4 with
      | some g, _ =>
        s.set (Fld.IC_HOLD_STROKES g) (v % 65536)
          |> doIf (v % 65536 == 0) (fun s => { s with holdLeft := tabSet (fun _ => 0) s.holdLeft g 0 }.set (Fld.IC_HOLD_RUNNING g) 0)
      | _, some t => timerWrite t v s
      | none, none => plainWrite a v s

/-- Bits of PEL_SBY change for ABSENT contexts only (14 R355). -/
def sbyWrite (n v : Nat) (s : State) : State :=
  let old := (s.word (Adr.PEL_SBY n)).toNat
  let bits := (List.range 32).map fun i => if s.cst (32 * n + i) = 0 then bitOf v i else bitOf old i
  s.setWord (Adr.PEL_SBY n) (BitVec.ofNat 32 ((bits.zipIdx.map fun b => b.1.toNat * 2 ^ b.2).sum))

/-- The first words of the per-port and per-link blocks, guards and rules. -/
def arrayWrite (a v : Nat) (s : State) : State :=
  match elemAt a 0x300000 0x10000 4, elemAt a 0x600000 0x10000 4, elemAt a 0x680100 4 32 with
  | some p, _, _ =>
    s |>.set (Fld.LB_CTL_RSP_PASS p) (bitsOf v 29 29)
      |> doIf (s.isSet (Fld.LB_CTL_EN p) != bitOf v 31) (lbCtlEn p (bitOf v 31))
      |> doIf (bitOf v 30) (lbRetrain p)
  | _, some k, _ => s |> doIf (s.isSet (Fld.UL_CTL_EN k) != bitOf v 31) (ulCtlEn k (bitOf v 31)) |> doIf (bitOf v 30) (ulDownCause k)
  | _, _, some n => sbyWrite n v s
  | none, none, none =>
    if 0x300400 ≤ a ∧ a < 0x340000 ∧ 0x400 ≤ a % 0x10000 ∧ a % 0x10000 < 0x800 then
      enLocked (s.isSet (Fld.LB_UPR_CFG_EN ((a - 0x300000) / 0x10000) ((a % 0x10000 - 0x400) / 32))) a v s
    else if 0x380800 ≤ a ∧ a < 0x381000 then enLocked (s.isSet (Fld.ACC_GUARD_CFG_EN ((a - 0x380800) / 32))) a v s
    else plainWrite a v s

/-- A 4-byte write of a global register; those with behaviour of their own act, the others follow their access types. -/
def globalWrite (m : Master) (a v : Nat) (s : State) : State :=
  let w : Word := BitVec.ofNat 32 v
  match a with
  | 0x100050 => if bitOf v 31 then s.set Fld.DEV_FAULT_STATUS_STOP 0 |>.set Fld.DEV_FAULT_STATUS_STOP_REASON 0 else s
  | 0x120000 => setWakeEn (v % 2 ^ 32 + 2 ^ 32 * s.get Fld.KS_WAKE_EN_HI_EN) s
  | 0x120004 => setWakeEn (s.get Fld.KS_WAKE_EN_LO_EN + 2 ^ 32 * (v % 65536)) s
  | 0x140004 => writeWord (fun b => b == 7 && !linkWidths.contains (bitsOf v 7 3)) a v s |> doIf (bitOf v 31) hlRetrain
  | 0x140014 => plainWrite a v s |> ltrSend true
  | 0x140030 => plainWrite a v s |> atsTrim |> doIf (bitOf v 31) atsFlush
  | 0x180008 => selWdogWrite m w s
  | 0x280010 => if bitOf v 31 then cadCommitGo s else s
  | 0x280044 => writeWord (fun _ => decide (1 ≤ v % 65536 ∧ v % 65536 < 64)) a v s
  | 0x280050 => ptmCtlWrite w s
  | 0x480004 => dsBudgetWrite w s
  | 0x480008 => dsHoldupWrite w s
  | 0x7C0000 => plainWrite a v s |> doIf (bitOf v 31) pfsArm
  | 0x7C0014 => if bitOf v 31 then pfsTrigger 0 s else s
  | _ =>
    if (0x180004 ≤ a ∧ a < 0x180030) ∨ (0x740014 ≤ a ∧ a < 0x740020) then s
    else if 0x308004 ≤ a ∧ a < 0x308018 then
      winWrite (bitsOf (s.bank m Adr.WIN_SEL).toNat 13 4) (bitsOf (s.bank m Adr.WIN_SEL).toNat 3 0) (a - 0x308000) v s
    else if 0x400104 ≤ a ∧ a < 0x400110 then
      let x := (s.bank m Adr.MSG_RXB_SEL).toNat
      let on := s.isSet (Fld.MSG_RXB_CFG_EN (bitsOf x 15 6) (bitsOf x 5 0))
      if a = 0x40010C then lockedWrite on (homeOf s m a) v s else if on then s else plainWrite (homeOf s m a) v s
    else if (0x400400 ≤ a ∧ a < 0x400800) ∨ (0x1000000 ≤ a ∧ a < 0x1080000) then s
    else if 0x1100000 ≤ a ∧ a < 0x1101000 then shadowWrite (a - 0x1100000) v s
    else
      match mbxAt a with
      | some (mb, off) => if mbxReached m mb then mbxWrite mb off v s else s
      | none => if homeOf s m a = a then arrayWrite a v s else plainWrite (homeOf s m a) v s

/-! ## One access of a master -/

/-- What the register bus answers: a value, nothing (a host request that no BAR claims), a refusal, a gated block. -/
inductive BusAns where
  | ok (v : Word)
  | nowhere
  | denied
  | gated
deriving DecidableEq, Repr

/-- Registers that only the physical function, the board controller and firmware may access, by the rule of their block: DEV
faults and gated accesses, CRP, KS, local bus ports, ACC, MSG, DS, MED, DRC, Ulirin links, PEL, EV, MBX, the routing table
and the cadence tables (18 R450; 17 R432, R433; 08 R211, R212; 09 R231; 10 R235, R246; 11 R276, R277; 12 R303; 13 R342; 14
R365; 15 R386; 16 R416; 07 R162). -/
def debugShut (a : Nat) : Bool :=
  decide (0x100040 ≤ a ∧ a < 0x100064) || decide (0x110000 ≤ a ∧ a < 0x130000) || decide (0x300000 ≤ a ∧ a < 0x640000) ||
    decide (0x680000 ≤ a ∧ a < 0x700000) || decide (0x740000 ≤ a ∧ a < 0x7C0000) || decide (0x1000000 ≤ a ∧ a < 0x1200000)

/-- Registers that only those three may write: DEV_DRAIN_LIMIT, HL, CTX, QM, CAD; and the DBG block, which the debug master may
only read (03 Table 03-16; 04 R101; 05 R124; 06 R151; 07 R172; 19 R463). -/
def debugReads (a : Nat) : Bool :=
  a == 0x100030 || decide (0x140000 ≤ a ∧ a < 0x300000) || decide (0x7E0000 ≤ a ∧ a < 0x800000)

/-- The rule of the addressed block keeps a master out; each master has its own copy of the selection registers (20 R467). What a
debug access that the map admits and the block's rule does not meets is not stated: it reads 0 and writes nothing (log
91). -/
def blockShut (m : Master) (a : Nat) (wr : Bool) : Bool :=
  m == .debug && !bankedRegs.contains a && (debugShut a || (wr && debugReads a))

/-- A read beyond the global blocks by a control core or the debug master: a word of control-core SRAM; the fuse shadow and the
boot ROM hold what the spec does not state; every other address is reserved and reads 0 (09 R224, Table 09-5). -/
def farRead (a : Nat) (s : State) : State × BusAns :=
  if 0x10000000 ≤ a ∧ a < 0x10800000 then (s, .ok (tabGet (fun _ => 0) s.fw.sram a))
  else if (0x11000000 ≤ a ∧ a < 0x11001000) ∨ (0x11010000 ≤ a ∧ a < 0x11011000) ∨ (0x12000000 ≤ a ∧ a < 0x12010000) then
    (s.drewOne, .ok (s.draw.setWidth 32))
  else (s, .ok 0)

/-- A write there: control-core SRAM holds it (log 164). -/
def farWrite (a v : Nat) (s : State) : State :=
  if 0x10000000 ≤ a ∧ a < 0x10800000 then
    s.fwUpd fun f => { f with sram := tabSet (fun _ => 0) f.sram a (BitVec.ofNat 32 v) }
  else s

/-- A master that reaches internal addresses beyond the global blocks (09 R224). -/
def reachesFar (m : Master) : Bool := match m with | .core _ | .debug => true | _ => false

/-- A read that reached its block. -/
def readAt (m : Master) (a : Nat) (s : State) : State × BusAns :=
  let h := homeOf s m a
  let shown : State × BusAns := (if a = 0x180004 then s else rcClear h s, .ok (liveWord s h))
  if ¬ inBlocks a then (if reachesFar m then farRead a s else (s, .ok 0))
  else if blockShut m a false then (s, .ok 0)
  else if a = 0x280000 then (strokeLoRead m s, .ok (BitVec.ofNat 32 s.nowLo))
  else if bankedRegs.contains a then (s, .ok (s.bank m a))
  else if a = 0x700A00 then
    match m with
    | .core c => ((icClaim c false s).1, .ok (icClaim c false s).2)
    | _ => (s, .ok (icClaimWord none))
  else if a = 0x700A08 then
    match m with
    | .core c => (s, .ok (s.word (Adr.IC_CORE_CFG c)))
    | _ => (s.drewOne, .ok (BitVec.ofNat 32 (s.draw.toNat % 8)))
  else
    match mbxAt a with
    | some (mb, _) => if mbxReached m mb then shown else (s, .ok 0)
    | none => shown

/-- A write that reached its block: only firmware writes the interrupt controller (15 R385). -/
def writeAt (m : Master) (a v : Nat) (s : State) : State :=
  if ¬ inBlocks a then doIf (reachesFar m) (farWrite a v) s
  else if blockShut m a true then s
  else if 0x700000 ≤ a ∧ a < 0x740000 then
    match m with
    | .core c => icWrite c a v s
    | _ => s
  else if bankedRegs.contains a then
    (if a = Adr.CAD_STROKE_HI then s
      else setBank m a (BitVec.ofNat 32 (v % 2 ^ (if a = Adr.WIN_SEL then 14 else if a = Adr.MSG_RXB_SEL then 16 else if a = Adr.DS_APT_SEL then 11 else 10))) s)
  else globalWrite m a v s

/-- A 4-byte read by a master: its own page structurally, everything else through the internal map (09 R213, R224) and
past gated blocks. An address beyond BAR0, which is 64 KiB for a virtual function, is not decoded (04 R78). -/
def busRead (m : Master) (a : Nat) (s : State) : State × BusAns :=
  let checked : State × BusAns :=
    match mapCause s m a false with
    | some e => (mapRefused m a 4 false e s, .denied)
    | none => if inBlocks a && blockGated s (blockOf a) then (recordGated m a false false s, .gated) else readAt m a s
  match m with
  | .host c =>
    if a < 0x10000 then
      (rcClear (pagePlace c a) s, .ok (liveWord s (pagePlace c a)))
    else if virtualFn m ∨ 0x4000000 ≤ a then (answerHost c [.cpl c 1 []] s, .nowhere)
    else if a < 0x100000 then (s, .ok 0)
    else checked
  | _ => checked

/-- A 4-byte write by a master. -/
def busWrite (m : Master) (a v : Nat) (s : State) : State × BusAns :=
  let checked : State × BusAns :=
    match mapCause s m a true with
    | some e => (mapRefused m a 4 true e s, .denied)
    | none => if inBlocks a && blockGated s (blockOf a) then (recordGated m a true false s, .gated) else (writeAt m a v s, .ok 0)
  match m with
  | .host c =>
    if a < 0x10000 then (pageWrite c a v s, .ok 0)
    else if virtualFn m ∨ a < 0x100000 ∨ 0x4000000 ≤ a then (s, .ok 0)
    else checked
  | _ => checked

/-- The registers that take 8-byte writes only: the route entries (10 R235). -/
def routeAt (a : Nat) : Bool :=
  (decide (0x400400 ≤ a ∧ a < 0x400800) || decide (0x1000000 ≤ a ∧ a < 0x1080000)) && a % 8 == 0

/-- An 8-byte write of a route entry waits for the next boundary; a read shows it at once (10 R235). -/
def routeWrite (a : Nat) (v : BitVec 64) (s : State) : State :=
  { s with deferred := s.deferred ++ [Deferred.route a v] }
    |>.setWord a (v.setWidth 32) |>.setWord (a + 4) ((v >>> 32).setWidth 32)

/-- The argument and result area of a mailbox, which takes accesses of eight bytes whole, as the route entries do (16 R389, 20
R465). -/
def areaAt (a : Nat) : Bool := decide (0x780000 ≤ a ∧ a < 0x786000 ∧ 0x20 ≤ a % 0x1000) && a % 8 == 0

/-- An access of eight bytes is one: it is judged, and recorded where it is refused or its block is gated, once, with its eight bytes. -/
def wholeAt (m : Master) (a : Nat) : Bool := (routeAt a || areaAt a) && !virtualFn m

/-- An 8-byte read: two of 4 bytes, low address first (20 R465), each judged for itself, or one access. -/
def busRead8 (m : Master) (a : Nat) (s : State) : State × BusAns × BusAns :=
  if wholeAt m a then
    match mapCause s m a false with
    | some e => (mapRefused m a 8 false e s, .denied, .denied)
    | none =>
      if blockGated s (blockOf a) then (recordGated m a false false s, .gated, .gated)
      else
        let (s, r1) := readAt m a s
        let (s, r2) := readAt m (a + 4) s
        (s, r1, r2)
  else
    let (s, r1) := busRead m a s
    let (s, r2) := if r1 ≠ .nowhere then busRead m (a + 4) s else (s, r1)
    (s, r1, r2)

/-- An 8-byte access is two of 4 bytes, low address first (20 R465), each judged for itself. A route entry takes all eight
bytes at once (10 R235), and so does a mailbox's area. -/
def busWrite8 (m : Master) (a : Nat) (be : BitVec 8) (v met : BitVec 64) (s : State) : State × BusAns :=
  let lo := unmet s m a (v.toNat % 2 ^ 32) (met.toNat % 2 ^ 32)
  let hi := unmet s m (a + 4) (v.toNat / 2 ^ 32) (met.toNat / 2 ^ 32)
  let page : Bool := match m with | .host _ => decide (0x2000 ≤ a ∧ a < 0x2200 ∧ a % 8 = 0) | _ => false
  if be = 0xFF ∧ page then
    (match m with | .host c => doorbell c ((a - 0x2000) / 8) (some lo) (some hi) s | _ => s, .ok 0)
  else if be = 0xFF ∧ wholeAt m a then
    match mapCause s m a true with
    | some e => (mapRefused m a 8 true e s, .denied)
    | none =>
      if blockGated s (blockOf a) then (recordGated m a true false s, .gated)
      else if areaAt a then (s |> writeAt m a lo |> writeAt m (a + 4) hi, .ok 0)
      else if blockShut m a true then (s, .ok 0)
      else (routeWrite a v s, .ok 0)
  else
    let (s1, r1) := if be.toNat % 16 = 15 then busWrite m a lo s else (s, .ok 0)
    let (s2, r2) := if be.toNat / 16 = 15 then busWrite m (a + 4) hi s1 else (s1, .ok 0)
    (s2, if r1 = .ok 0 then r2 else r1)

/-! ## Rows -/

/-- What a read returns to its master: a completion to the host, values on the bus to the others, or of fewer than four bytes
those that were enabled (00 R7, 18 Table 18-8). -/
def readAnswer (m : Master) (data : List Byte) (s : State) : State :=
  match m with
  | .host c => emit (.cpl c 0 data) s
  | _ =>
    if data.length = 4 then emit (.reg m (BitVec.ofNat 32 (leAt data 0 4))) s
    else if data.length = 8 then s |> emit (.reg m (BitVec.ofNat 32 (leAt data 0 4))) |> emit (.reg m (BitVec.ofNat 32 (leAt data 4 4)))
    else emit (.regPart m data) s

/-- The bytes that the bus gives a master for 4 bytes read, with those enabled; a refused read gives the debug master 0 and the
others nothing. A read of fewer bytes has the side effects of a full one (00 R7). -/
def answerBytes (m : Master) (be : Nat) (r : BusAns) : List Byte :=
  match r with
  | .ok v => enabledBytes be (leBytes 4 v.toNat)
  | .gated => enabledBytes be (leBytes 4 0xFFFFFFFF)
  | .denied => if m = .debug then enabledBytes be (leBytes 4 0) else []
  | .nowhere => []

/-- The master gets no data for a refused or unclaimed access. -/
def noData (m : Master) (r : BusAns) : Bool := r == .nowhere || (r == .denied && m != .debug)

/-- A read of a register is served, of 4 bytes or 8; one Completer Abort answers a host request of which a part is refused. -/
def regServe (m : Master) (a : Nat) (be : BitVec 8) (wide : Bool) (s : State) : State :=
  let (s, r1, r2) := if wide then busRead8 m a s else let (s, r) := busRead m a s; (s, r, r)
  match m with
  | .host c =>
    if r1 = .nowhere then s
    else if r1 = .denied ∨ r2 = .denied then abortRead c (if r1 = .denied then a else a + 4) (if wide then 8 else 4) s
    else readAnswer m (answerBytes m (be.toNat % 16) r1 ++ if wide then answerBytes m (be.toNat / 16) r2 else []) s
  | _ =>
    if noData m r1 && noData m r2 then s
    else readAnswer m (answerBytes m (be.toNat % 16) r1 ++ if wide then answerBytes m (be.toNat / 16) r2 else []) s

/-- A read of a function's CTX_PERSIST or CTX_WFENCE, which is held: it covers what came before it (06 R147, 11 R254). -/
def barrierRead (c a : Nat) (be : BitVec 8) (wide : Bool) (s : State) : State :=
  if a = 0x100 then persistRead c (be.toNat % 16) (if wide then some (be.toNat / 16) else none) s
  else wfenceRead c (be.toNat % 16) s

/-- The device serves a host access to a BAR0 register, rather than refusing it or leaving it unclaimed: the verdict of its receipt (09
R217), which the fixed map keeps. -/
def hostPasses (s : State) (c : Fin 1024) (a : Nat) (wr : Bool) : Bool :=
  decide (a < 0x10000) ||
    (c.val == 0 && decide (a < 0x4000000) && (decide (a < 0x100000) || (mapCause s (.host c) a wr).isNone))

/-- A host read of a register as it is received in stroke `t`: a function that does not exist does not claim it (04 R90); CTX_PERSIST
and CTX_WFENCE are held by their own rules; any other waits behind the earlier requests of its function (04 R88), unless it is
refused, which is logged at once. -/
def hostReadReg (t : Stroke) (c : Fin 1024) (a : Nat) (be : BitVec 8) (wide : Bool) (i : Instr) (s : State) : State :=
  if ¬ (s.fn c).enabled then answerHost c [.cpl c 1 []] s
  else if a = 0x100 ∨ a = 0x104 then barrierRead c a be wide s
  else if hostPasses s c a false then inOrder c t i (regServe (.host c) a be wide) s
  else regServe (.host c) a be wide s

/-- A read arrives: of the host as a TLP. -/
def readArrives (m : Master) (a : Nat) (be : BitVec 8) (wide : Bool) (i : Instr) (s : State) : State :=
  match m with
  | .host c => hostTlp c i (hostReadReg s.now c a be wide i) s
  | _ => regServe m a be wide s

/-- A host write to a register as it is received in stroke `t`: it waits behind the earlier requests of its function (04 R88), unless it
is refused. -/
def hostWriteReg (t : Stroke) (c : Fin 1024) (a : Nat) (i : Instr) (f : State → State) (s : State) : State :=
  if ¬ (s.fn c).enabled then s else if hostPasses s c a true then inOrder c t i (stampedAs t f) s else f s

/-- A write to address `a` arrives, with the effect `f`: of the host as a posted TLP. -/
def writeArrives (m : Master) (a : Nat) (i : Instr) (f : State → State) (s : State) : State :=
  match m with
  | .host c => hostPosted c i (hostWriteReg s.now c a i f) s
  | _ => f s

/-- The address of an access: one that is not aligned to its 4 or 8 bytes is taken as that of its word (DESIGN CHOICE, log
165). -/
def accessAt (a : Nat) (wide : Bool) : Nat := a - a % (if wide then 8 else 4)

/-- R7, R8, R445: a read of a register, of the bytes that `be` enables; 8 bytes as two reads, low address first. -/
def execRegisterRead (m : Master) (a : BitVec 32) (be : BitVec 8) (wide : Bool) (s : State) : Result :=
  done (readArrives m (accessAt a.toNat wide) be wide (.registerRead m a be wide) s)

/-- A write of a register that reached the bus. One that enables fewer than four bytes is dropped (00 R7) before the internal map is
asked, so that it is no refusal (DESIGN CHOICE, log 213); bits that hardware sets in the same cycle (`met`) are not cleared (00
R9). -/
def putRegister (m : Master) (a : Nat) (be : BitVec 8) (wide : Bool) (v met : BitVec 64) (s : State) : State :=
  if wide then (busWrite8 m a be v met s).1
  else if be.toNat % 16 = 15 then (busWrite m a (unmet s m a (v.toNat % 2 ^ 32) (met.toNat % 2 ^ 32)) s).1 else s

/-- R466, R445: a write of a register. -/
def execRegisterWrite (m : Master) (a : BitVec 32) (be : BitVec 8) (wide : Bool) (v met : BitVec 64) (s : State) : Result :=
  done (writeArrives m (accessAt a.toNat wide) (.registerWrite m a be wide v met) (putRegister m (accessAt a.toNat wide) be wide v met) s)

/-- R154: a read of CAD_STROKE_LO by a master of the register bus (09 R213). -/
def execCadStrokeLoRead (m : Master) (s : State) : Result := done (readArrives m 0x280000 15 false (.cadStrokeLoRead m) s)

/-- Is the master a control core? Only Glawegar firmware writes the IC block (15 R385). -/
def isCoreMaster : Master → Bool
  | .core _ => true
  | _ => false

/-- One register is written whole. -/
def putWord (m : Master) (a v : Nat) (s : State) : State := (busWrite m a v s).1

/-- R369: a write of IC_PEND_SET. -/
def execIcPendSet (m : Master) (w : Fin 9) (bits : Word) (s : State) : Result :=
  done (writeArrives m (0x700040 + 4 * w) (.icPendSet m w bits) (putWord m (0x700040 + 4 * w) bits.toNat) s)

/-- R369, R370: a write of IC_PEND_CLR, met in the same cycle by hardware edges and by sets from another master, which win. -/
def execIcPendClr (m : Master) (w : Fin 9) (bits edges sets : Word) (s : State) : Result :=
  done (writeArrives m (0x700080 + 4 * w) (.icPendClr m w bits edges sets) (putWord m (0x700080 + 4 * w) bits.toNat) s
    |> fun s => s.setWord (Adr.IC_PEND w) ((s.word (Adr.IC_PEND w) ||| edges) ||| sets))

/-- R369, R370: a write of IC_EN_SET, met in the same cycle by clears from another master, which win. -/
def execIcEnSet (m : Master) (w : Fin 9) (bits clears : Word) (s : State) : Result :=
  done (writeArrives m (0x700100 + 4 * w) (.icEnSet m w bits clears) (putWord m (0x700100 + 4 * w) bits.toNat) s
    |> fun s => s.setWord (Adr.IC_EN w) (s.word (Adr.IC_EN w) &&& ~~~clears))

/-- R369: a write of IC_EN_CLR. -/
def execIcEnClr (m : Master) (w : Fin 9) (bits : Word) (s : State) : Result :=
  done (writeArrives m (0x700140 + 4 * w) (.icEnClr m w bits) (putWord m (0x700140 + 4 * w) bits.toNat) s)

/-- The source that a claim by a master takes. -/
def claimed (m : Master) (s : State) : Option Nat :=
  match m with
  | .core c => if s.inRest then none else icBest s c
  | _ => none

/-- An edge of the source that a core's claim takes, in the same cycle: it is pending again (15 R374). -/
def edgeMeets (n : Option Nat) (s : State) : State :=
  match n with
  | some n => setPending n s
  | none => s

/-- R374: a read of IC_CLAIM; by any master but a control core it claims nothing. -/
def execIcClaim (m : Master) (edge : Bool) (s : State) : Result :=
  done (readArrives m 0x700A00 15 false (.icClaim m edge) s |> doIf edge (edgeMeets (claimed m s)))

/-- R376: a write of IC_EOI; from any master but a control core it is ignored. -/
def execIcEoi (m : Master) (src : BitVec 9) (s : State) : Result :=
  done (writeArrives m 0x700A04 (.icEoi m src) (putWord m 0x700A04 src.toNat) s)

/-- R377: a write of IC_HOLD.STROKES takes effect at the next claim; 0 ends a running hold-off at once. -/
def execIcHoldWrite (m : Master) (g : Fin 32) (strokes : BitVec 16) (s : State) : Result :=
  done (writeArrives m (0x700900 + 4 * g) (.icHoldWrite m g strokes) (putWord m (0x700900 + 4 * g) strokes.toNat) s)

/-- R122: a write of CTX_SEL_WDOG by a master of the register bus (09 R213). -/
def execCtxSelWdogWrite (m : Master) (v : Word) (s : State) : Result :=
  done (writeArrives m 0x180008 (.ctxSelWdogWrite m v) (putWord m 0x180008 v.toNat) s)

/-- R65: a write of DEV_DRAIN_LIMIT by a master of the register bus; reserved encodings keep the value (00 R6). A drain in
progress sees it at the next boundary. -/
def execDevDrainLimitWrite (m : Master) (v : BitVec 10) (s : State) : Result :=
  done (writeArrives m 0x100030 (.devDrainLimitWrite m v) (putWord m 0x100030 v.toNat) s)

/-- A block gives no answer to an access (18 R445). -/
def hungAccess (m : Master) (a : Nat) (write : Bool) (s : State) : State :=
  if ¬ inBlocks a ∨ virtualFn m then s
  else
    match mapCause s m a write with
    | some e => mapRefused m a 4 write e s |> (match m with | .host c => doIf (!write) (abortRead c a 4) | _ => fun s => s)
    | none =>
      recordGated m a write (!blockGated s (blockOf a)) s |> doIf (!write) (readAnswer m (leBytes 4 0xFFFFFFFF))

/-- A host access that its block does not answer, received in stroke `t` in its function's order (04 R88). -/
def hungHost (t : Stroke) (c : Fin 1024) (a : BitVec 32) (write : Bool) (s : State) : State :=
  doIf (s.fn c).enabled (inOrder c t (.registerAnswerTimeout (.host c) a write) (hungAccess (.host c) (accessAt a.toNat false) write)) s

/-- R445: a block gives no answer within 64 PBUS cycles: HUNG. -/
def execRegisterAnswerTimeout (m : Master) (a : BitVec 32) (write : Bool) (s : State) : Result :=
  done (match m with
    | .host c =>
      if write then hostPosted c (.registerAnswerTimeout m a write) (hungHost s.now c a write) s
      else hostTlp c (.registerAnswerTimeout m a write) (hungHost s.now c a write) s
    | _ => hungAccess m (accessAt a.toNat false) write s)

end Sys2Proof.Machine
end

