-- ==== Sys2Proof/Machine/Debug.lean ====
section
/-! DEFINITION. Machine/Debug.lean: the test access port, the debug access port (19 R457 to R460) and the SMBus target of
the board controller (16 R413, R414). -/
namespace Sys2Proof.Machine

/-- The test access port changed. -/
def State.tapUpd (s : State) (f : Tap → Tap) : State := { s with tap := f s.tap }

/-! ## JTAG instructions (19 Table 19-5) -/

/-- An instruction is in force; only EXTEST, CLAMP and HIGHZ act on the balls. -/
def tapSelect (instr drive : Nat) (s : State) : State := s.tapUpd fun t => { t with instr := instr, drive := drive }

/-- An instruction is shifted in: what the 8-bit instruction register captured, 0b0000_0001, is shifted out (R457; IEEE 1149.1, log
239). -/
def tapLoad (instr drive : Nat) (s : State) : State := s |> emit (.jtag 8 1) |> tapSelect instr drive

/-- A scan of the bypass register, which captures 0 (IEEE 1149.1, log 239). -/
def bypassScan (s : State) : State := emit (.jtag 1 0) s

/-- What acts as BYPASS. -/
def tapBypass (s : State) : State := s |> tapLoad 0xFF 0 |> bypassScan

/-- R457: a TAP reset selects IDCODE and closes a debug session. -/
def execTapReset (s : State) : Result :=
  done (tapSelect 1 0 s |>.tapUpd (fun t => { t with opened := false }) |>.set Fld.DBG_STATUS_SESSION 0)

/-- R457: IDCODE: version 0x1, part 0x9680, manufacturer 0x2C7. -/
def execIdcode (s : State) : Result := done (tapLoad 1 0 s |> emit (.jtag 32 0x1968058F))

/-- R458: SAMPLE/PRELOAD is always honoured: what the cells sampled is shifted out, what is shifted in waits in their
update stage. -/
def execSamplePreload (sampled cells : BitVec 2157) (s : State) : Result :=
  done (tapLoad 2 0 s |>.tapUpd (fun t => { t with cells := cells }) |> emit (.jtag 2157 sampled.toNat))

/-- The system reset is applied, which waits for the halt of a PRESERVE (03 R52), or STRAP TEST is 1 (19 R458). -/
def scanTime (s : State) : Bool := (s.dev.sysRst && !s.dev.rstAtHalt) || s.isSet Fld.DEV_STRAP_TEST

/-- A boundary-scan instruction at a time when the balls must not be driven: source 269, recorded with CAUSE 4. -/
def scanDenied (s : State) : State :=
  s |>.set Fld.DBG_DENY_VALID 1 |>.set Fld.DBG_DENY_WRITE 0 |>.set Fld.DBG_DENY_CAUSE 4 |>.inc Fld.DBG_DENY_COUNT 1
    |>.setWord Adr.DBG_DENY_TS (BitVec.ofNat 32 s.nowLo) |> raise 269

/-- EXTEST, CLAMP and HIGHZ: effective at scan time unless BSCAN_OFF; otherwise BYPASS (19 R458, Table 19-6). -/
def scan (instr drive : Nat) (f : State → State) (s : State) : State :=
  if ¬ scanTime s then tapBypass s |> scanDenied
  else if bitOf (s.word Adr.DBG_POLICY).toNat 1 then tapBypass s
  else tapLoad instr drive s |> f

/-- R458: EXTEST. -/
def execExtest (sampled cells : BitVec 2157) (s : State) : Result :=
  done (scan 3 1 (fun s => s.tapUpd (fun t => { t with cells := cells }) |> emit (.jtag 2157 sampled.toNat)) s)

/-- R458: CLAMP. -/
def execClamp (s : State) : Result := done (scan 4 2 bypassScan s)

/-- R458: HIGHZ. -/
def execHighz (s : State) : Result := done (scan 5 3 bypassScan s)

/-- R457: BYPASS, and every code that Table 19-5 does not list. -/
def execBypass (s : State) : Result := done (tapBypass s)

/-- DAP_OFF: the DAP instruction acts as BYPASS (19 Table 19-6). -/
def dapOff (s : State) : Bool := bitOf (s.word Adr.DBG_POLICY).toNat 0

/-- R459: DAP, which acts as BYPASS under DAP_OFF. -/
def execDap (s : State) : Result := done (if dapOff s then tapBypass s else tapLoad 0x10 0 s)

/-! ## The debug access port (19 R459) -/

/-- The 66 bits of Capture-DR: the read data, DONE, DENIED, GATED. -/
def dapWord (t : Tap) : Nat := t.data.toNat + 2 ^ 32 + t.denied.toNat * 2 ^ 33 + t.gated.toNat * 2 ^ 34

/-- What an access leaves for Capture-DR. -/
def dapDone (r : BusAns) (s : State) : State :=
  let s := s.inc Fld.DBG_STATUS_ACCESSES 1 |>.tapUpd fun t =>
    { t with data := (match r with | .ok v => v | .gated => 0xFFFFFFFF | _ => 0), denied := r == .denied, gated := r == .gated }
  s |> emit (.jtag 66 (dapWord s.tap))

/-- R459: an Update-DR with GO: the first one after a TAP reset raises source 7 and opens the session, which a system reset does not
close (log 240); one access as the debug master. Under a DAP_OFF loaded meanwhile DAP acts as BYPASS (R460). -/
def execDapAccessGo (a : BitVec 32) (write : Bool) (data : BitVec 32) (s : State) : Result :=
  let a := a.toNat - a.toNat % 4
  done (if s.tap.instr ≠ 0x10 ∨ dapOff s then s
    else
      let s := s.set Fld.DBG_STATUS_SESSION 1 |> doIf (!s.tap.opened) (fun s => s.tapUpd (fun t => { t with opened := true }) |> raise 7)
      let (s, r) := if write then busWrite .debug a data.toNat s else busRead .debug a s
      dapDone (if write ∧ r ≠ .denied ∧ r ≠ .gated then .ok 0 else r) s)

/-! ## SMBus (16 R413, R414) -/

/-- The device's 7-bit SMBus address: 0x58 plus MEMBER_ID (02 R30). -/
def smbAddr (s : State) : Nat := 0x58 + s.get Fld.DEV_STRAP_MEMBER_ID

/-- A step of the CRC-8 of SMBus: x^8 + x^2 + x + 1. -/
def crc8Bit (c : Byte) : Byte := if c.getLsbD 7 then (c <<< 1) ^^^ 7 else c <<< 1

/-- The PEC of a transaction over all its bytes, addresses, command code and counts among them (SMBus: PRESUMED, log 237). -/
def pecOf (l : List Byte) : Byte := l.foldl (fun c b => (List.range 8).foldl (fun c _ => crc8Bit c) (c ^^^ b)) 0

/-- The target's address byte, of a write or a read. -/
def addrByte (s : State) (rd : Bool) : List Byte := leBytes 1 (2 * smbAddr s + rd.toNat)

/-- A process call is answered: the block read back, and the PEC that the device offers on every read (R413, Table 16-14). -/
def smbReply (code : Nat) (put : List Byte) (status : Nat) (data back : List Byte) (s : State) : State :=
  emit (.smb status data (pecOf (addrByte s false ++ leBytes 1 code ++ leBytes 1 put.length ++ put ++ addrByte s true ++
    leBytes 1 back.length ++ back))) s

/-- A write without a correct PEC is discarded and counted while PEC_REQ is 1. -/
def smbWrite (pec : Bool) (f : State → State) (s : State) : State :=
  if s.isSet Fld.MBX_SMB_CFG_PEC_REQ && !pec then s.inc Fld.MBX_SMB_CNT_PEC_ERR 1 else f s

/-- The status byte of a REG_READ or REG_WRITE: 0 OK, 1 DENIED, 2 GATED. -/
def smbStatus : BusAns → Nat
  | .ok _ | .nowhere => 0
  | .denied => 1
  | .gated => 2

/-- DENIED answers are counted. -/
def smbCount (r : BusAns) (s : State) : State := doIf (r == .denied) (·.inc Fld.MBX_SMB_CNT_DENIED 1) s

/-- Dwords written into the board-controller mailbox in ascending order; whether any reached a busy buffer. -/
def smbFill : Nat → List (Nat × Nat) → Bool → State → State × Bool
  | _, [], d, s => (s, d)
  | mb, (off, v) :: l, d, s => smbFill mb l (d || mbxBusy s mb) (mbxWrite mb off v s)

/-- A REG_READ is answered: data, then status. -/
def readReply (a : Nat) (status : Nat) (data : List Byte) (s : State) : State :=
  smbReply 0x10 (leBytes 4 a) status data (data ++ leBytes 1 status) s

/-- REG_READ; the data of a DENIED read are not stated and are drawn. -/
def smbRegRead (a : Word) (s : State) : State :=
  let (s, r) := busRead .bc (a.toNat - a.toNat % 4) s
  let s := smbCount r s
  match r with
  | .ok v => readReply a.toNat 0 (leBytes 4 v.toNat) s
  | .gated => readReply a.toNat 2 (leBytes 4 0xFFFFFFFF) s
  | _ => readReply a.toNat (smbStatus r) (leBytes 4 s.draw.toNat) s.drewOne

/-- REG_WRITE. -/
def smbRegWrite (a v : Word) (s : State) : State :=
  let (s, r) := busWrite .bc (a.toNat - a.toNat % 4) v.toNat s
  smbCount r s |> smbReply 0x11 (leBytes 4 a.toNat ++ leBytes 4 v.toNat) (smbStatus r) [] (leBytes 1 (smbStatus r))

/-- MBX_WRITE. -/
def smbMbxWrite (off : Nat) (data : List Byte) (s : State) : State :=
  let words := (List.range (data.length / 4)).map fun i => (off + 4 * i, leAt data (4 * i) 4)
  let (s, dropped) := smbFill 4 words false s
  doIf dropped (·.inc Fld.MBX_SMB_CNT_DROPPED 1) s

/-- MBX_READ. -/
def smbMbxRead (off len : Nat) (s : State) : State :=
  let data := (List.range len).map fun i => byteAt s (mbxBase 4 + off + i)
  smbReply 0x21 (leBytes 2 off ++ leBytes 1 len) 0 data data s

/-- ATTN, a Read Word: no count of bytes on either side. -/
def smbAttn (s : State) : State :=
  let data := leBytes 2 (s.word 0x788010).toNat
  emit (.smb 0 data (pecOf (addrByte s false ++ leBytes 1 0x30 ++ addrByte s true ++ data))) s

/-- A transaction is performed. -/
def smbRun : SmbReq → State → State
  | .regRead a => smbRegRead a
  | .regWrite pec a v => smbWrite pec (smbRegWrite a v)
  | .mbxWrite pec off data => smbWrite pec (smbMbxWrite off data)
  | .mbxRead off len => smbMbxRead off len
  | .attn => smbAttn
  | .go => mbxGo 4

/-- A transaction at a 7-bit address reaches the target: it is the device's (02 R30), 1 ms has passed since the release of SYS_RST_N,
the device is not in PRESERVE, and none waits with its clock stretched; from the gating of Rest to the end of its exit only the address
match is seen (R414). -/
def smb (dev : BitVec 7) (r : SmbReq) (s : State) : State :=
  if dev.toNat ≠ smbAddr s ∨ s.dev.relTicks < 2000 ∨ s.dev.sysRst ∨ s.mode = .preserve ∨ s.pwr.smbHeld.isSome then s
  else if s.restGated then smbMatch r s
  else smbRun r s

/-- The transaction that waited with its clock stretched is performed at the first boundary after the end of Rest exit (R414; log
238). -/
def smbServe (s : State) : State :=
  if s.restGated then s
  else
    match s.pwr.smbHeld with
    | some r => s.pwrUpd (fun p => { p with smbHeld := none }) |> smbRun r
    | none => s

/-- R413: REG_READ. -/
def execSmbRegRead (dev : BitVec 7) (a : BitVec 32) (s : State) : Result := done (smb dev (.regRead a) s)

/-- R413: REG_WRITE. -/
def execSmbRegWrite (dev : BitVec 7) (pec : Bool) (a v : BitVec 32) (s : State) : Result := done (smb dev (.regWrite pec a v) s)

/-- R413: MBX_WRITE. -/
def execSmbMbxWrite (dev : BitVec 7) (pec : Bool) (off : Fin 4096) (data : List (BitVec 8)) (s : State) : Result :=
  done (smb dev (.mbxWrite pec off data) s)

/-- R413: MBX_READ. -/
def execSmbMbxRead (dev : BitVec 7) (off : Fin 4096) (len : Fin 256) (s : State) : Result := done (smb dev (.mbxRead off len) s)

/-- R413: ATTN. -/
def execSmbAttn (dev : BitVec 7) (s : State) : Result := done (smb dev .attn s)

end Sys2Proof.Machine
end

