-- ==== Sys2Proof/Machine/Faults.lean ====
section
/-! DEFINITION. Machine/Faults.lean: control cores, fault stop, firmware restart, internal parity errors (18 R434 to R443;
16 R397). -/
namespace Sys2Proof.Machine

/-- Fault state changed. -/
def State.fltUpd (s : State) (f : Flt → Flt) : State := { s with flt := f s.flt }

/-! ## Commands of a core that stops (16 R397) -/

/-- A command whose core stops runs again from the start, or is interrupted without effect, by its Idem column. -/
def cmdInterrupted (x : Cmd) (s : State) : State :=
  let idem : Bool := match commandOf x.op with | some i => i.idem | none => true
  if x.dropped then s.cmdsUpd fun l => l.filter fun y => y.id != x.id
  else if idem then
    s.cmdsUpd (fun l => l.map fun y => if y.id = x.id then { y with core := none } else y)
      |>.mbxUpd (fun m => { m with out := m.out.filter fun o => o.id != x.id })
      |>.set (mbxState x.mb) 1 |>.set (mbxField x.mb 0x0C 7 7) 1 |>.inc Fld.MBX_CNT_RERUN 1
  else
    s |> doAll (List.range 1024) (fun c s =>
        match (s.ctx c).pairing with
        | some p => if p.cmd = x.id then s.ctxUpd c fun y => { y with pairing := none } else s
        | none => s)
      |> cmdDone x.id 6 []

/-- The commands that a core was running, and one it had just taken, are handled (16 R397). -/
def interruptCore (core : Nat) (just : Option Nat) (s : State) : State :=
  let mine := s.cmds.filter fun x => x.core == some core ||
    (match just with | some mb => x.mb == mbxId mb && x.core.isNone && !x.dropped && s.get (mbxState x.mb) == 1 | none => false)
  s |> doAll mine cmdInterrupted

/-! ## Control cores (18 R436, R437) -/

/-- Cores not fenced. -/
def unfenced (s : State) : List Nat := [0, 1, 2, 3].filter fun c => !s.coreFenced c

/-- R436: a core's watchdog expires: firmware has not reloaded it for 10 ms. -/
def execCoreWatchdogExpiry (core : Fin 4) (s : State) : Result :=
  done (if s.coreFenced core ∨ s.isSet Fld.DEV_FAULT_STATUS_RESTARTING ∨ s.inRest then s
    else s |> raise 282 |>.fltUpd fun f => { f with fenceDue := f.fenceDue ++ [(core.val, 1)] })

/-- A core is fenced: the last unfenced one starts a firmware restart instead. -/
def coreFence (core cause : Nat) (just : Option Nat) (s : State) : State :=
  let s := s.fltUpd fun f => { f with fenceDue := f.fenceDue.filter fun x => x.1 != core }
  if s.coreFenced core then s
  else if unfenced s = [core] then s.fltUpd fun f => { f with restartDue := some (f.restartDue.getD 1) }
  else
    let first : Bool := (unfenced s).length == 4
    s |> icFence core |> interruptCore core just
      |> bcAttn Fld.MBX_BC_ATTN_CORE |>.inc Fld.DEV_FAULT_CNT_CORE_FENCES 1
      |> logEv 0x0011 (leBytes 1 core ++ leBytes 1 cause)
      |> (if first then reportCie else reportDegraded)

/-- R437: a core is fenced at the boundary after its watchdog expired, or after it reported a parity error. `just`: the
mailbox whose command it had taken in that stroke. -/
def execCoreFence (core : Fin 4) (parity : Bool) (just : Option (Fin 1032)) (s : State) : Result :=
  done (if parity then coreFence core 2 (just.map (·.val)) s
    else if s.flt.fenceDue.contains (core.val, 1) then coreFence core 1 (just.map (·.val)) s else s)

/-! ## Fault stop and firmware restart (18 R438 to R442) -/

/-- R438: a fault stop for a reason of Table 18-4 (`reason` 0 to 5 is 0x1 to 0x6). -/
def execFaultStop (reason : Fin 6) (s : State) : Result := done (faultStop (reason + 1) s)

/-- Restarts within the last 1,200,000,000 strokes (R442). -/
def recentRestarts (s : State) : List Stroke := s.flt.restarts.filter fun t => decide (s.since t < 1200000000)

/-- A firmware restart starts: the ROM runs on the lowest unfenced core, on the ring oscillator; the one that would be the fourth of its window is a fault stop instead. -/
def fwRestart (trigger : Nat) (just : List Nat) (s : State) : State :=
  if s.isSet Fld.DEV_FAULT_STATUS_RESTARTING ∨ s.mode = .preserve then s
  else if 3 ≤ (recentRestarts s).length then s.fltUpd (fun f => { f with restartDue := none }) |> faultStop 3
  else
    s |> doAll (unfenced s) (fun c s => s |> icUnstack c |> interruptCore c none)
      |> doAll just (fun mb s => interruptCore 4 (some mb) s)
      |>.fltUpd (fun f => { f with restartDue := some trigger, restarts := recentRestarts s ++ [s.now], restartAt := s.now,
                                   fenceDue := [] })
      |>.set Fld.DEV_FAULT_STATUS_RESTARTING 1
      |>.set Fld.CRP_CLK_RING_OSC (((unfenced s).head?.map fun c => 2 ^ c).getD 0) |>.pwrUpd (fun p => { p with ringAt := none })
      |>.set Fld.DEV_FAULT_STATUS_RESTARTS ((recentRestarts s).length + 1)
      |>.inc Fld.DEV_FAULT_CNT_FW_RESTARTS 1
      |> bcAttn Fld.MBX_BC_ATTN_CORE

/-- R440: a firmware restart at the boundary after the last core's fault or an SRAM error, or after a failed consistency
check of firmware (`check`). `just`: mailboxes whose commands were just taken. -/
def execFirmwareRestart (check : Bool) (just : List (Fin 1032)) (s : State) : Result :=
  done (match s.flt.restartDue with
    | some t => fwRestart t (just.map (·.val)) s
    | none => if check then fwRestart 3 (just.map (·.val)) s else s)

/-- The boot copies in the order in which a restart tries them: the one that DEV_BOOT.COPY names, then the others (R440; 03 R54; log
241). -/
def restartOrder (s : State) : List Nat :=
  let k := s.get Fld.DEV_BOOT_COPY
  k :: [0, 1, 2, 3].filter (· != k)

/-- The copy that the ROM accepts once it has rejected at least `n`, and those rejected: a good copy can be rejected for what its NAND
reads. -/
def restartCopy (n : Nat) (s : State) : Option (Nat × List Nat) :=
  let l := restartOrder s
  (l.zipIdx.find? fun x => decide (n ≤ x.2) && copyErr s x.1 == 0).map fun x => (x.1, l.take x.2)

/-- Why a restart rejected a copy, as DEV_BOOT.ERR codes it; a read that failed, or no response of the NAND, is drawn (log 241). -/
def rejectErr (s : State) (k : Nat) : Nat := if copyErr s k ≠ 0 then copyErr s k else if s.draw.toNat % 2 = 0 then 1 else 5

/-- STATE messages that waited for the end of a restart leave (R441). -/
def sendWaiting (s : State) : State :=
  { s with pel := { s.pel with stateWait := [] } }
    |> doAll s.pel.stateWait fun x s =>
      let (t, sent) := sendState x.1 x.2.1 x.2.2.1 x.2.2.2 s
      if sent then t else stateLost x.2.1 x.2.2.1 s

/-- The restart ends with copy `k`, after the copies `bad` were rejected. -/
def restartEnd (k : Nat) (bad : List Nat) (s : State) : State :=
  s |> doIf (!bad.isEmpty) (fun s => s.set Fld.DEV_BOOT_ERR (rejectErr s (bad.getLast?.getD 0)) |>.drewOne)
    |>.set Fld.DEV_BOOT_COPY k |>.set Fld.DEV_BOOT_FAILED (bad.foldl orBit (s.get Fld.DEV_BOOT_FAILED))
    |>.setWord Adr.DEV_FWREV (s.fwCopy k) |>.fwUpd (fun f => { f with running := s.copy k })
    |>.set Fld.CRP_CLK_RING_OSC 0
    |>.set Fld.DEV_FAULT_STATUS_RESTARTING 0
    |> logEv 0x0012 (leBytes 1 (s.flt.restartDue.getD 0) ++ leBytes 1 bad.length ++ leBytes 2 (s.since s.flt.restartAt / 20))
    |>.fltUpd (fun f => { f with restartDue := none })
    |> sendWaiting

/-- R440: the restarted firmware resumes mailbox service, on the PLLs; `rejected` is how many copies the ROM rejected at least. While no
copy is accepted the restart goes on. -/
def execFirmwareRestartComplete (rejected : Fin 4) (s : State) : Result :=
  done (if s.restarting then
      match restartCopy rejected s with
      | some (k, bad) => restartEnd k bad s
      | none => s
    else s)

/-- R440: an uncorrectable error in control-core SRAM. -/
def execSramUncorrectableError (a : BitVec 32) (s : State) : Result :=
  done (s.inc Fld.DEV_SRAM_ECC_UNCORR 1 |>.inc Fld.DEV_FAULT_CNT_SRAM_UNCORR 1
    |> logEv 0x0080 (leBytes 4 0 ++ leBytes 4 a.toNat)
    |> doIf (!s.isSet Fld.DEV_FAULT_STATUS_RESTARTING) (fun s =>
      s.fltUpd fun f => { f with restartDue := some (f.restartDue.getD 2) }))

/-! ## Internal parity errors (18 R443) -/

/-- A channel's third parity error within 2,000,000 strokes makes it unusable: its LUNs are lost with cause 5. -/
def nfParity (n : Nat) (s : State) : State :=
  let s := s.fltUpd fun f => { f with nfErr := (n, s.now) :: f.nfErr.filter fun x => decide (s.since x.2 < 2000000) }
  if 3 ≤ (s.flt.nfErr.filter fun x => x.1 == n).length then
    s |> doAll ((List.range 64).filter fun l => lunChannel l == n && s.lunOk l) (fun l s => lunLost l 5 s) |> reportDegraded
  else s

/-- The oldest request of a peer on a link is refused (09 Table 09-4). -/
def failPeer (k cause : Nat) (s : State) : State :=
  match (s.link k).rx.find? fun e => peerRequest s e.2 with
  | some e => s.linkUpd k (fun l => { l with rx := l.rx.erase e }) |> peerRefused e.2 cause 0 |> ulFree k
  | none => s

/-- A register access is refused: its master is answered as for any refusal of the map (09 Table 09-4). The data of a refused read of
the board controller are drawn, and so is the PEC of a refused write, whose data the row does not name (log 237). -/
def failReg (m : Master) (a : Nat) (wr : Bool) (cause : Nat) (s : State) : State :=
  mapRefused m a 4 wr (cause % 7) s
    |> (match m with
        | .host c => doIf (!wr) (abortRead c a 4)
        | .debug => doIf (!wr) (readAnswer m (leBytes 4 0))
        | .bc => fun s =>
          s.drewOne |> smbCount .denied |>
            (if wr then emit (.smb 1 [] (s.draw.truncate 8)) else readReply a 1 (leBytes 4 s.draw.toNat))
        | .core _ => fun s => s)

/-- The checker fails closed: the access is refused in its own way; the spec gives the refusal no CAUSE, which is drawn
(log 100). The region map is reloaded from the fuses; guards and peer rules come back from their duplicates as they were. -/
def failClosed (x : RefusedAccess) (s : State) : State :=
  let cause := s.draw.toNat % 8
  let s := s.drewOne |> doAll (List.range 16) loadRegion
  match x with
  | .host c bar4 wr off len =>
    let kind := 2 * bar4.toNat + wr.toNat
    if wr then s |> doIf (!bar4) (takeWseq c) |> refuseHostWrite c kind cause 0 0 off.toNat len
    else refuseHostRead c kind cause 0 0 off.toNat len s
  | .reg m a wr => failReg m (accessAt a.toNat false) wr cause s
  | .up p c addr tag =>
    s |> upRefused p c cause 0 addr.toNat tag.isSome |>.inc (Fld.LB_UP_CNT_DENIED p) 1 |> (match tag with | some t => respOut p t.val 1 [] | none => fun s => s)
  | .peer k => failPeer k cause s
  | .desc c q dst =>
    match nextUndealt (s.qp c q) with
    | some d =>
      match d.raw with
      | some r => s |> refuseDesc c q dst cause 0 0 (if dst then r.dst else r.src) r.length |> finish c q d stDenied (sideDetail dst 0) 0
      | none => s
    | none => s

/-- A TLP that carries data. -/
def dataTlp : Out → Bool
  | .hostWrite _ _ _ _ _ | .msix _ _ _ _ _ | .cpl _ 0 (_ :: _) => true
  | _ => false

/-- The TLP with data that left last in this stroke left poisoned (18 Table 18-3; which TLP the error hit is a DESIGN CHOICE, log
215). -/
def poisonTlp (s : State) : State :=
  match (s.out.take (s.out.length - s.pwr.outSeen)).findIdx? dataTlp with
  | some i => { s with out := s.out.modify i .poisoned }
  | none => s

/-- What a parity error does beside its source and log entry. -/
def parityOutcome (e : ParityErr) (s : State) : State :=
  match e with
  | .dev => reportCie s
  | .hlOut => s |> poisonTlp |> reportDegraded
  | .hlPosted => reportDegraded s
  | .hlNonPosted fn => s |> emit (.cpl fn 2 []) |> reportDegraded
  | .lb p => doIf (s.lbActive p) (leaveActive p 0) s
  | .ul k => ulDownCause k s
  | .drc _ ch rank line hit => dramUncorrectable ch rank line.toNat hit s
  | .nf n => nfParity n s
  | .ds admission => if admission then faultStop 6 s else reportCie s
  | .med => reportCie s
  | .qmJournal => reportCie s
  | .qmPair c q => if s.isSet (Fld.QP_STATUS_EN_ACTIVE c q) then { s with deferred := s.deferred ++ [.qpOff c q] } else s
  | .qmDealing => faultStop 5 s
  | .cad both => if both then faultStop 4 s else reportCie s
  | .acc x => failClosed x s

/-- The INT_ERR source of an error (18 Table 18-3). -/
def paritySource : ParityErr → Nat
  | .dev => 15 | .hlOut | .hlPosted | .hlNonPosted _ => 39 | .lb p => 55 + 16 * p | .ul k => 115 + 12 * k
  | .drc crypto _ _ _ _ => if crypto then 163 else 167
  | .nf n => 175 + 8 * n | .ds _ => 239 | .med => 247 | .qmJournal => 254 | .qmPair _ _ | .qmDealing => 255 | .cad _ => 263 | .acc _ => 275

/-- R443: a parity error raises its source, is logged and handled by Table 18-3. -/
def execInternalParityError (e : ParityErr) (s : State) : Result :=
  done (s |> raise (paritySource e) |> logEv 0x0060 (leBytes 2 (paritySource e)) |> parityOutcome e)

end Sys2Proof.Machine
end

