-- ==== Sys2Proof/Machine/Modes.lean ====
section
/-! DEFINITION. Machine/Modes.lean: supplies, resets, the boot ROM, recovery of the durable store, the six modes and their
transitions, PRESERVE (03 R45 to R67; 11 R266 to R268; 12 R279; 14 R343, R344, R360; 16 R410). -/
namespace Sys2Proof.Machine

/-! ## What NAND keeps (11 R266, R268) -/

/-- What the map journal says of the apertures. -/
def aptRecords (s : State) : List AptRecord :=
  s.aptIds.map fun a => ⟨a, s.get (Fld.DS_APT_STATUS_UNITS a), s.mirror a != 0, s.isSet (Fld.DS_APT_STATUS_UNCLEAN a), s.mirror a == 1⟩

/-- Numbers of the lost LUNs. -/
def goneLuns (s : State) : List Nat := (List.range 64).filter s.lunGone

/-- The pairings in force whose aperture is known, as the store keeps them; those of an earlier boot that were never compared stay (14
R360, R362). -/
def pairRecords (s : State) : List PairRec :=
  let now_ := (List.range 1024).filterMap fun c =>
    let apt := if s.get (Fld.PEL_TANDEM_ROLE c) = 1 then (s.ctx c).apt.filter fun a => s.mirror a != 0
      else if s.get (Fld.PEL_TANDEM_ROLE c) = 2 then tabGet (fun _ => none) s.ds.standby c else none
    apt.map fun a => (⟨c, s.word (Adr.PEL_TANDEM c), s.get (Fld.PEL_GEN_GENERATION c), a⟩ : PairRec)
  now_ ++ s.ds.pairs.filter fun r => !now_.any fun x => x.ctx == r.ctx

/-- The store stops: 1 halted, 2 cut, 3 without a record. What a boot has not recovered stays as it stopped before. -/
def storeClose (stop : Nat) (s : State) : State :=
  let run : Bool := s.mbx.store.state == 1 && s.mbx.store.op == 0x030A
  let s := doIf run (fun s => s.medUpd fun m => { m with rescan := true }) s
  if s.ds.recovered then
    s.dsUpd (fun d => { d with catalog := aptRecords s, pairs := pairRecords s, stop := stop, recovered := false,
                               bitmap := if stop = 1 then d.bitmap else [] })
      |>.medUpd fun m => { m with gone := goneLuns s }
  else s

/-- A unit is on a closed stripe. -/
def onNand (m : Media) (u : Nat × Nat) : Bool := m.stripes.any fun p => p.closed && p.units.any fun x => x.2 == u

/-- The store as NAND holds it: the write cache and all that waits is gone, and DRAM goes on under a new key pair (11 R259). -/
def storeNand (m : Media) (d : Store) : Store :=
  { mem := d.nand, nand := d.nand, lost := d.lost, bad := d.bad, bitmap := d.bitmap, keyGen := d.keyGen, keys := d.keys,
    standby := d.standby, superseded := d.superseded, gens := d.gens, pairs := d.pairs, back := d.back,
    units := d.units.filter fun u => onNand m u || d.lost.contains u || d.bad.contains u || d.back.contains u || d.presDirty.contains u,
    dramKey := d.dramKey + 1, journalAttached := d.journalAttached,
    presDirty := d.presDirty, cfgMib := d.cfgMib, cfgMj := d.cfgMj, presFlushed := d.presFlushed, record := d.record,
    ctxRecord := d.ctxRecord, ctxRecordWritten := d.ctxRecordWritten, formatted := d.formatted, recovered := d.recovered,
    stop := d.stop, catalog := d.catalog, presDisc := d.presDisc, presTime := d.presTime }

/-- The media engine as NAND holds it: a stripe without its mark counts as not written (12 R286). -/
def mediaNand (m : Media) : Media :=
  { stripes := m.stripes.filter (·.closed), count := m.count, pe := m.pe, fill := m.fill, blocks := m.blocks, retired := m.retired,
    marked := m.marked, erasing := m.erasing, flushed := m.flushed, progs := m.progs, gone := m.gone, spare := m.spare, rescan := m.rescan }

/-! ## Resets (03 R51, Table 03-3) -/

/-- Registers that a system reset keeps: the kickstand domain, DEV_RST_CAUSE, the fault registers that it holds (18 R450), the
sampled straps and the loaded debug policy. The fault log itself is emptied (18 R447). -/
def keptReg (a : Nat) : Bool :=
  decide (0x120000 ≤ a ∧ a < 0x130000) ||
    [Adr.DEV_RST_CAUSE, Adr.DEV_STRAP, Adr.DEV_FAULT_CNT, Adr.DEV_FAULT_LOG, Adr.DEV_FAULT_TS, Adr.DBG_POLICY].contains a

/-- A system reset: everything outside the kickstand domain but fuses and NAND. -/
def systemReset (stop : Nat) (s : State) : State :=
  let s := s |> fwCut |> storeClose stop
  let d := s.dev
  let dev : Dev := { ksReady := d.ksReady, ksSlow := d.ksSlow, sysRst := d.sysRst, perst := d.perst, straps := d.straps,
                     supplies := d.supplies, relTicks := d.relTicks }
  let flt : Flt := { restarts := (recentRestarts s).map fun t => t - s.now }
  let pwr : Pwr := { gpio := s.pwr.gpio, ksPhase := s.pwr.ksPhase }
  let fw : Fw := { s.fw with counted := false, running := {}, sram := [] }
  let t : State := { pending := s.pending, out := s.out, draws := s.draws, fuses := s.fuses, tap := s.tap, fw := fw, dev := dev,
                     flt := flt, pwr := pwr, ds := storeNand s.med s.ds, med := mediaNand s.med,
                     regs := tabKeep keptReg s.regs }
  t |>.set Fld.DEV_FAULT_STATUS_STOP (s.get Fld.DEV_FAULT_STATUS_STOP)
    |>.set Fld.DEV_FAULT_STATUS_STOP_REASON (s.get Fld.DEV_FAULT_STATUS_STOP_REASON)
    |>.set Fld.DEV_FAULT_STATUS_RESTARTS flt.restarts.length
    |>.set Fld.DS_CFG_MAP_UNIT (s.get Fld.DS_CFG_MAP_UNIT) |>.set Fld.DS_CFG_CAP_UNITS (s.get Fld.DS_CFG_CAP_UNITS)

/-- A cold power-on reset clears the kickstand domain, DEV_RST_CAUSE and the test access port as well. -/
def coldReset (s : State) : State :=
  let t := systemReset 3 s
  let dev : Dev := {}
  let flt : Flt := {}
  let u : State := { pending := t.pending, out := t.out, draws := t.draws, fuses := t.fuses, fw := t.fw, dev := dev, flt := flt,
                     ds := t.ds, med := t.med }
  u |>.set Fld.DS_CFG_MAP_UNIT (t.get Fld.DS_CFG_MAP_UNIT) |>.set Fld.DS_CFG_CAP_UNITS (t.get Fld.DS_CFG_CAP_UNITS)

/-- R47, R51: VDD_KS and VDDIO_MGMT come into tolerance; SYS_RST_N is held asserted meanwhile (R46). -/
def execColdPowerOnReset (s : State) : Result := done (coldReset s)

/-- Why the device is a peloton of its own (14 Table 14-1): 0 by straps, 1 by an invalid combination, 2 without an
identity; `none` where it is a member. -/
def aloneWhy (straps : Nat) (identity : List Byte) : Option Nat :=
  let top := bitsOf straps 4 3
  if top = 0 then some 0
  else if top = 3 ∨ (top = 2 ∧ 5 ≤ bitsOf straps 2 0) then some 1
  else if identity.all (· == 0) then some 2
  else none

/-- The peloton registers of a stand-alone device (14 R344). -/
def aloneRegs (why : Nat) (s : State) : State :=
  s |>.set Fld.PEL_STATUS_STATE 0 |>.set Fld.PEL_STATUS_REASON why |>.set Fld.PEL_STATUS_LEADER 0
    |>.set Fld.PEL_VIEW_EPOCH 1 |>.set Fld.PEL_VIEW_JOINED 1 |>.set Fld.PEL_VIEW_REACH 1
    |>.setWord Adr.PEL_ROUTE 0xFFFFFFFE

/-- The ROM samples the straps and starts: protection map, debug policy and peloton identity are loaded from the fuses
(02 R27, R28; 03 R54). A boundary-scan instruction drives balls on only under STRAP TEST and without BSCAN_OFF (19 R458, R460). MEMBER_ID reads 0 where the device is stand-alone. -/
def romStart (s : State) : State :=
  let v := s.dev.straps.toNat
  let why := aloneWhy v s.fuses.identity
  let id := sha384 s.fuses.identity
  let s := s.devUpd (fun d => { d with rom := true })
    |>.set Fld.DEV_STRAP_TEST (bitsOf v 7 7) |>.set Fld.DEV_STRAP_UL_PRESET_CLASS (bitsOf v 6 5)
    |>.set Fld.DEV_STRAP_TOPOLOGY (bitsOf v 4 3) |>.set Fld.DEV_STRAP_MEMBER_ID (if why.isSome then 0 else bitsOf v 2 0)
    |>.set Fld.DEV_STRAP_INVALID (why == some 1).toNat
    |>.set Fld.PEL_STATUS_TOPOLOGY (bitsOf v 4 3)
    |> doAll (List.range 16) loadRegion
    |>.setWord Adr.DBG_POLICY s.fuses.policy
    |>.setWord Adr.PEL_IDENT_LO (BitVec.ofNat 32 (leAt id 0 4)) |>.setWord Adr.PEL_IDENT_HI (BitVec.ofNat 32 (leAt id 4 4))
    |>.set Fld.DEV_BOOT_STAGE 1
    |>.tapUpd (fun t => { t with drive := if bitOf v 7 && !bitOf s.fuses.policy.toNat 1 then t.drive else 0 })
  match why with
  | some w => aloneRegs w s
  | none => s |>.set Fld.PEL_STATUS_STATE 1 |>.set Fld.PEL_STATUS_MEMBER (bitsOf v 2 0)
      |>.set Fld.PEL_STATUS_LEADER (bitsOf v 2 0)

/-- A system reset that SYS_RST_N applies. -/
def rstByPin (stop : Nat) (s : State) : State := systemReset stop s |>.set Fld.DEV_RST_CAUSE_SYS_RST 1

/-- R52: a filtered assertion of SYS_RST_N: with protected dirty data it is a PRESERVE cause and the reset waits for the
halt, as it does in PRESERVE; otherwise the reset is applied at once. Recognition needs the device's supplies. -/
def execSysRstNAssertion (s : State) : Result :=
  done (if s.dev.sysRst ∨ ¬ s.dev.supplies then s
    else
      let s := s.devUpd fun d => { d with sysRst := true }
      if s.mode = .preserve ∧ ¬ s.dev.halted then s.devUpd fun d => { d with rstAtHalt := true }
      else if s.mode ≠ .preserve ∧ s.ds.dirty ≠ [] then orderPreserve 0x0A s |>.devUpd fun d => { d with rstAtHalt := true }
      else rstByPin 3 s)

/-- R54, R27: SYS_RST_N is released with the device's supplies up: straps are sampled and the ROM starts, once a reset that
waits for the halt of PRESERVE has been applied. -/
def execSysRstNRelease (straps : BitVec 8) (s : State) : Result :=
  done (if ¬ s.dev.sysRst then s
    else
      let s := s.devUpd fun d => { d with sysRst := false, straps := straps, supplies := true, relTicks := 0 }
      if s.dev.rstAtHalt then s else romStart s)

/-- R50: the SYS PLL locks and the stroke counter starts; the sources of Table 14-1 and R225 are raised (log 119). -/
def execSysPllLock (s : State) : Result :=
  done (if ¬ s.dev.rom ∨ s.dev.counting then s
    else
      { s with now := 0 }.devUpd (fun d => { d with counting := true })
        |> pllsLock
        |>.pelUpd (fun p => { p with since := 0 })
        |> doIf s.standAlone (raise 11)
        |> doIf (s.isSet Fld.ACC_STATUS_FUSE_BAD) (raise 272))

/-! ## The boot ROM (03 R54 to R56; 16 R410) -/

/-- The ROM's steps 3 and 4 are reached, one at each boundary after the PLLs are locked (R54; the spec bounds the time before the
first copy and gives none for each step: DESIGN CHOICE, log 163). -/
def romStep (s : State) : State :=
  let stage := s.get Fld.DEV_BOOT_STAGE
  doIf (s.dev.rom && (stage == 1 || stage == 2)) (·.set Fld.DEV_BOOT_STAGE (stage + 1)) s

/-- The ROM is trying boot copies. -/
def trying (s : State) : Bool := s.mode == .boot && s.dev.rom && s.dev.counting && s.get Fld.DEV_BOOT_STAGE == 3

/-- Why the ROM rejects copy `k`, as DEV_BOOT.ERR codes it; 0 where it accepts it: the NAND responds, the copy reads, and it
passes the other tests of R54. -/
def copyFault (unread mute : BitVec 4) (s : State) (k : Nat) : Nat :=
  if mute.getLsbD k then 5 else if unread.getLsbD k then 1 else copyErr s k

/-- The first of copies 0 to 3 that the ROM accepts. -/
def firstGood (unread mute : BitVec 4) (s : State) : Option Nat := [0, 1, 2, 3].find? fun k => copyFault unread mute s k == 0

/-- Copy `k` is accepted: its image starts on all cores; ERR tells of the last copy rejected. -/
def bootCopy (unread mute : BitVec 4) (k : Nat) (s : State) : State :=
  s |>.set Fld.DEV_BOOT_STAGE 4 |>.set Fld.DEV_BOOT_COPY k |>.set Fld.DEV_BOOT_FAILED (2 ^ k - 1)
    |>.set Fld.DEV_BOOT_ERR (if k = 0 then 0 else copyFault unread mute s (k - 1))
    |>.setWord Adr.DEV_FWREV (s.fwCopy k)
    |>.set Fld.CRP_CLK_RING_OSC 0
    |>.fwUpd (fun f => { f with counted := false, running := s.copy k })
    |> addCause .toStandby

/-- R54, R55: the first copy that passes every test is accepted and firmware starts; STANDBY follows at the next boundary. -/
def execBootCopyAccepted (unread mute : BitVec 4) (s : State) : Result :=
  done (if trying s then (match firstGood unread mute s with | some k => bootCopy unread mute k s | none => s) else s)

/-- R56: no copy is accepted: STAGE 0xF and BC_IRQ_N. -/
def execBootNoCopyAccepted (unread mute : BitVec 4) (s : State) : Result :=
  done (if trying s ∧ firstGood unread mute s = none then
      s |>.set Fld.DEV_BOOT_STAGE 0xF |>.set Fld.DEV_BOOT_FAILED 0xF |>.set Fld.DEV_BOOT_ERR (copyFault unread mute s 3)
        |> bcAttn Fld.MBX_BC_ATTN_BOOT_FAIL
    else s)

/-- R410: a boot in TRIAL counts; at the third, copies 0 and 1 are rewritten from copy 2 and the device resets. -/
def execTrialBoot (s : State) : Result :=
  done (if inTrial s ∧ ¬ s.fw.counted then
      let s := s.fwUpd fun f => { f with trials := f.trials + 1, counted := true }
      if 3 ≤ s.fw.trials then
        s |> setCopy (s.copy 2) 0 |> setCopy (s.copy 2) 1 |>.fwUpd (fun f => { f with trials := 0 })
          |> systemReset 3 |> romStart
      else s
    else s)

/-! ## Functions ready (03 R58; 11 R268, R270; 12 R279) -/

/-- What firmware finds on the NAND channels: LUN classes, masks and rates (12 Table 12-11). -/
def setChannel (n : Nat) (c : NandChannel) (s : State) : State :=
  s |>.set (Fld.MED_NF_CFG_CLASS n) c.cls |>.set (Fld.MED_NF_CFG_UNQUAL n) c.unqual.toNat |>.set (Fld.MED_NF_CFG_RATE n) c.rate
    |>.set (Fld.MED_NF_CFG_LUN2_MASK n) c.lun2.toNat |>.set (Fld.MED_NF_CFG_CE_MASK n) c.ce.toNat

/-- LUNs of a channel. -/
def chanLuns (c : NandChannel) : Nat := popCount 4 c.ce.toNat + popCount 4 (c.ce &&& c.lun2).toNat

/-- R279: a valid population: one class, as many LUNs on every channel, in all 16, 32, 48 or 64, chip enable 0 populated. -/
def populationGood (l : List NandChannel) : Bool :=
  match l with
  | [] => false
  | c :: _ =>
    l.length == 8 && c.cls != 0 && decide (chanLuns c % 2 = 0 ∧ 2 ≤ chanLuns c) &&
      l.all fun x => !x.unqual && x.cls == c.cls && chanLuns x == chanLuns c && x.ce.getLsbD 0

/-- GiB of DRAM (11 Table 11-8). -/
def dramGiB (d : DramOrg) : Nat := if d.both then 16 * (if d.ranks2 then 2 else 1) * (if d.dense then 2 else 1) else 8

/-- An organisation of Table 11-8. -/
def dramGood (d : DramOrg) : Bool := d.both || (!d.ranks2 && !d.dense)

/-- The DRAM controller is trained (11 R270, R271); at a fallback rate, training at 6,400 MT/s failed (Table 11-10; log 191). -/
def dramReady (d : DramOrg) (s : State) : State :=
  s |>.set Fld.DRC_CFG_CHANNELS (if d.both then 3 else 1) |>.set Fld.DRC_CFG_RANKS d.ranks2.toNat
    |>.set Fld.DRC_CFG_DENSITY d.dense.toNat |>.set Fld.DRC_CFG_RATE d.rate
    |>.set Fld.DRC_STATUS_TRAINED0 1 |>.set Fld.DRC_STATUS_TRAINED1 d.both.toNat
    |>.set Fld.DS_CACHE_TOTAL_MIB (1024 * dramGiB d - 512)
    |> doIf (d.rate != 2) (raise 160)

/-- DS_RECOVER.RESULT (11 Table 11-7). -/
def recoverResult (d : Store) : Nat := if d.stop = 1 then 1 else if d.stop = 2 then 2 else if d.formatted then 0 else 3

/-- An aperture comes back as the map names it: detached, a mirrored one in SOLO; UNCLEAN where it was attached at a stop
without a record. -/
def aptBack (noRecord : Bool) (r : AptRecord) (s : State) : State :=
  let un := r.unclean || (noRecord && s.ds.journalAttached.contains r.apt)
  s |>.set (Fld.DS_APT_STATUS_VALID r.apt) 1 |>.set (Fld.DS_APT_STATUS_UNITS r.apt) r.units
    |>.set (Fld.DS_APT_STATUS_MIRROR r.apt) (if r.mirrored then 2 else 0) |>.set (Fld.DS_APT_STATUS_UNCLEAN r.apt) un.toNat
    |> updAptOcc r.apt

/-- The LUN that a rebuild not yet complete rebuilds: the last lost one that stripes still have members on. -/
def rebuildLun (s : State) : Nat :=
  ((s.med.gone.filter fun l => s.med.stripes.any fun p => p.members.any fun b => b.any fun x => x.1 == l).getLast?).getD 0

/-- The store is recovered and brought ONLINE (11 R268): what a cut PRESERVE did not confirm, and what lies on stripes with two lost
members (12 R298), is LOST, but for units that a partner holds current, which are to be copied back (R269); a rebuild not yet complete
goes on, or cannot (12 R296). -/
def recoverStore (s : State) : State :=
  let d := s.ds
  let r := recoverResult d
  let s := s |> doAll d.catalog (aptBack (r == 3))
  let cut := if r = 2 then d.presDirty else []
  let unread := cut ++ (unrecoverable s).filter fun u => !cut.contains u
  let held := unread.filter fun u => d.catalog.any fun x => x.apt == u.1 && x.current
  let gone := unread.filter fun u => !held.contains u
  let s := s |> loseUnits gone |> offStripes held.contains |>.dsUpd (fun d => { d with back := d.back ++ held })
  let hurt := (s.aptIds.filter fun a => s.isSet (Fld.DS_APT_STATUS_UNCLEAN a) || s.ds.lost.any fun u => u.1 == a).length
  let lame := s.med.stripes.any (Stripe.hurt s)
  s |>.set Fld.DS_RECOVER_RESULT r |>.set Fld.DS_RECOVER_APT_LOST hurt |>.set Fld.DS_RECOVER_UNITS_LOST gone.length
    |>.set Fld.DS_PRESERVE_LOG_DISCARDED (min 65535 d.presDisc)
    |>.set Fld.DS_PRESERVE_LOG_T_10US (if r = 2 then s.draw.toNat % 65536 else d.presTime)
    |> doIf (r == 2) State.drewOne
    |>.set Fld.DS_PRESERVE_UNITS_FLUSHED d.presFlushed
    |> doIf (r == 1) (·.set Fld.DEV_RST_CAUSE_PRESERVE_DONE 1)
    |> doIf (r == 2) (·.set Fld.DEV_RST_CAUSE_PRESERVE_CUT 1)
    |>.set Fld.DS_BUDGET_MIB d.cfgMib |>.set Fld.DS_HOLDUP_MJ d.cfgMj
    |>.dsUpd (fun d => { d with recovered := true, formatted := false, journalAttached := [], presDirty := [], stop := 0 })
    |> updFlushRate
    |>.set Fld.MED_STATUS_STATE 1 |>.set Fld.MED_LIFE_SPARE_PCT s.med.spare
    |> doIf lame (rebuildStarts (rebuildLun s))
    |>.set Fld.MED_WA_RETIRED (min 65535 s.med.retired.length)
    |> updWear |> updWa |> updMirrorStatus
    |>.set Fld.DS_CFG_STATE 2
    |> raise 238

/-- The media engine finds its population and how many blocks its LUNs have; LUNs lost before stay lost. A channel that trained at
a fallback rate, or at none, failed calibration or training at 1,600 MT/s: source 174 + 8n (12 R280, Table 12-6; log 191). -/
def mediaReady (l : List NandChannel) (s : State) : State :=
  let pop := (l.map chanLuns).sum
  let lo := (s.med.gone.filter (· < 32)).foldl orBit 0
  let hi := ((s.med.gone.filter fun x => decide (32 ≤ x)).map (· - 32)).foldl orBit 0
  s |> doAll (List.range 8) (fun n s => match l[n]? with
        | some c => setChannel n c s |> doIf (c.rate != 3 && c.ce != 0) (raise (174 + 8 * n))
        | none => s)
    |>.medUpd (fun m => { m with blocks := if m.blocks = 0 then 1 + s.draw.toNat % 65536 else m.blocks }) |>.drewOne
    |>.set Fld.MED_STATUS_POP (min 255 pop) |>.set Fld.MED_STATUS_UNQUAL (!populationGood l).toNat
    |>.setWord Adr.MED_LUN_LOST_LO (BitVec.ofNat 32 lo) |>.setWord Adr.MED_LUN_LOST_HI (BitVec.ofNat 32 hi)
    |>.set Fld.MED_STATUS_LOST s.med.gone.length |>.set Fld.MED_STATUS_HEALTHY (min 255 (pop - s.med.gone.length))

/-- The record of context 0 at DRS (05 Table 05-5). -/
def share0 : List Word := [0, 0x00100010, 0, 0x00100010, 0x40010000, 0x40004000, 0]

/-- Context 0 gets its record; the pools' reset values count it already (05 R108, Table 05-20). CTX_SHR[7], the stroke of the last
change, stays 0 (DESIGN CHOICE, log 166). -/
def share0Granted (s : State) : State :=
  s |>.set Fld.CTX_POOL_QP_GRANTED 0 |>.set Fld.CTX_POOL_VEC_GRANTED 0 |> setShare 0 share0

/-- R58: firmware has built the configuration space, trained DRAM, recovered the store and joined the peloton: DRS. -/
def execFunctionsReady (nand : List NandChannel) (dram : DramOrg) (s : State) : Result :=
  done (if s.mode = .standby ∧ ¬ s.dev.drs ∧ s.pelState ≠ 1 ∧ dramGood dram then
      s |> dramReady dram
        |> mediaReady nand
        |> doIf (populationGood nand) recoverStore
        |> share0Granted
        |>.set (Fld.CTX_STATE_STATE 0) 2
        |>.fnUpd 0 (fun f => { f with ready := true })
        |>.devUpd (fun d => { d with drs := true })
        |> (fun s => if s.linkUp then emit (.pcie 0 "DRS" 0) s else s.hlUpd fun h => { h with drsOwed := true })
    else s)

/-! ## Causes (03 R60 to R62; 17 R431) -/

/-- R61: PWR_FAIL_N. -/
def execPwrFailRecognised (s : State) : Result := done (if recognises s then s |> raise 0 |> orderPreserve 7 else s)

/-- R431: an external assertion of THERM_TRIP_N, or 115 °C on any sensor as the last refresh read them. -/
def execThermTripRecognised (external : Bool) (s : State) : Result :=
  done (if external then doIf (recognises s) (thermTrip false) s else ownTrip s)

/-- R62, R64: CARD_EJECT_N, asserted for 1 ms. -/
def execCardEjectRecognised (s : State) : Result := done (if recognises s then s |> raise 1 |> orderExtract .cardEject else s)

/-! ## DRAINING (03 R64, R65) -/

/-- The three conditions of R64. -/
def drained (s : State) : Bool :=
  s.mode == .draining &&
    (s.ctxIds.all fun c => s.cst c != 4 && s.cst c != 5 && ctxQuiet s c) &&
    ((pairedHomes s).all fun c => s.cst c == 7 || (s.ctx c).handover == 2) &&
    [0, 1, 2, 3].all fun p => (s.lb p).reqs.isEmpty && (s.lb p).ups.isEmpty

/-- R64: the drain is complete: PRESERVE with CAUSE 0x09. -/
def execDrainComplete (s : State) : Result := done (if drained s then orderPreserve 9 s else s)

/-- Descriptors not complete end with CONTEXT_RESET, whose entries are written where the ring and the host link take them, and
outstanding tags are abandoned (R65). -/
def drainCut (s : State) : State :=
  s |> doAll s.qps (fun e s =>
        doAll e.2.descs (fun d s => cancelDesc (keyOf (e.1 / 64) (e.1 % 64) d) s |> finish (e.1 / 64) (e.1 % 64) d stReset 0 d.bytes) s)
    |> (fun s => s |> doAll s.qps (fun e s =>
        s |> flushEntries (e.1 / 64) (e.1 % 64) e.2.cpls |>.qpUpd (e.1 / 64) (e.1 % 64) fun p => { p with cpls := [] }))
    |>.hlUpd (fun h => { h with tags := h.tags.map fun t => (t.1, { t.2 with quarantined := true, squashed := true }) })
    |> updTags

/-- The drain limit has passed since the stroke of DRAINING entry. -/
def drainOver (s : State) : Bool :=
  s.mode == .draining && s.dev.presPend.isNone && decide (s.get Fld.DEV_DRAIN_LIMIT_LIMIT_MS * 2000 ≤ s.since s.dev.drainFrom)

/-! ## MAINTENANCE (03 R62, R66) -/

/-- A maintenance operation runs. -/
def opRuns (s : State) : Bool := storeBusy s || fwBusy s

/-- R62: the running operation reaches its safe point while an extraction order is held: it ends there, PRESERVE follows. -/
def execMaintenanceSafePoint (s : State) : Result :=
  done (if s.mode = .maintenance ∧ s.dev.heldOrder ∧ opRuns s then
      s |> doIf (formatDue s) (formatApply (formatBig s.mbx.store))
        |> doIf (storeBusy s && s.mbx.store.op == 0x030A) (fun s => s.medUpd fun m => { m with rescan := true })
        |> doIf (fwBusy s) (fwStop true)
        |>.mbxUpd (fun m => { m with store := { m.store with state := 0 }, fw := { m.fw with state := 0 } })
        |> orderPreserve 0x0E
    else s)

/-- R63: the system reset that DEV_RESET ordered. -/
def devResetDue (s : State) : Bool :=
  match s.dev.devResetAt with
  | some t => s.reached t && s.mode == .maintenance && s.dev.presPend.isNone
  | none => false

/-- The reset of DEV_RESET is applied; the straps stay as sampled. -/
def devReset (s : State) : State := systemReset 3 s |>.set Fld.DEV_RST_CAUSE_CMD_RESET 1 |> romStart

/-- R63: 2,000 strokes after DONE. -/
def execDevResetApply (s : State) : Result := done (if devResetDue s then devReset s else s)

/-! ## PRESERVE (03 R60, R67; 11 R266, R267) -/

/-- Host writes to BAR4 that wait for admission. -/
def stagedWrites (s : State) : Nat :=
  (s.ds.wait.filter fun w => match w.src with | .host .. => true | _ => false).length +
    (s.cad.items.filter fun i => match i.work with | .staged .. => true | _ => false).length

/-- The store at PRESERVE entry: admission ends, staged host writes are discarded and counted; what is dirty is noted. -/
def preserveStore (cause : Nat) (s : State) : State :=
  if s.ds.recovered then
    let n := min 65535 (stagedWrites s)
    s.dsUpd (fun d => { d with presAt := some s.now, presCause := cause, presDirty := d.dirty, presFlushed := 0, presDisc := n, wait := [] })
      |>.set Fld.DS_PRESERVE_LOG_DISCARDED n
  else s

/-- LEAVE with cause 1 to every other joined member (14 R360). -/
def emitLeave (s : State) : State :=
  let t := sendLeave 1 s
  s |> doAll ((joinedMembers s).filter (· != s.me)) (fun m s =>
    match s.route m with
    | some k => (match (t.link k).tx.find? fun x => x.dst == m && x.mtype == 7 && leAt x.data 0 1 == 3 with
        | some x => emit (.peer m 7 x.data) s
        | none => s)
    | none => s)

/-- A link is stopped: nothing of it is left, and what is held of the far end counts as of an earlier life of the link. -/
def linkStop (k : Nat) (s : State) : State :=
  let fresh : Ul := { epoch := (s.link k).epoch + 1, txEpoch := (s.link k).txEpoch }
  s.linkUpd k (fun _ => fresh) |>.lineUpd k (fun _ => {}) |>.set (Fld.UL_STATUS_STATE k) 0 |> emit (.ulLine k 0 0)

/-- The shed (11 Table 11-6): host link, local bus ports, Ulirin links, hub and spoke engines. -/
def shed (s : State) : State :=
  let s := s |> doAll [0, 1, 2, 3] portReset
    |> doIf s.isMember emitLeave
    |> doAll [0, 1, 2, 3] linkStop
  let s := s |> doAll s.qps (fun e s => s.qpUpd (e.1 / 64) (e.1 % 64) fun q => { q with descs := [], cpls := [], abort := none })
  { s with hreads := [], ritems := [], msixDue := [], hl := { s.hl with rx := [] } }
    |>.cadUpd (fun k => { k with items := [] })
    |>.hlUpd (fun h => { h with tags := [], inval := [], down := none, downReset := false, ptmWait := none })
    |> atsFlush |> updTags
    |>.set Fld.HL_ATS_STATUS_INVAL_PEND 0
    |>.set Fld.HL_LINK_STATUS_DL_UP 0 |>.set Fld.HL_LINK_STATUS_LSTATE 0 |>.set Fld.HL_LINK_STATUS_SLOT_CAP 0 |> updC0Short
    |> doAll [0, 1, 2, 3] updBuf
    |> updStage

/-- Commands at PRESERVE entry (03 Table 03-6): a mode command stamped in this stroke is superseded; the others, RUNNING ones among
them, stay where they are (16 R392; log 205). -/
def preserveCmds (s : State) : State :=
  let lost := s.cmds.filter fun x =>
    [2, 3, 4, 0x0402].contains x.op && x.stamp == s.now
  s |> doAll lost (fun x s => cmdDone x.id 5 [] s)

/-- A PRESERVE cause stops any entry to a sleep state and ends any sleep state at once: what was shed is powered again (17 R428). -/
def sleepStops (s : State) : State :=
  s |> doIf s.inRest mergeLatched |> doIf s.restGated pllsLock
    |>.set Fld.CRP_SLEEP_STATE 0
    |>.pwrUpd (fun p => { p with wake := none, leaving := 0, begun := false, fwWant := none, smbHeld := none })
    |> doIf (s.isSet Fld.DRC_STATUS_SELF_REFRESH) (fun s => s.set Fld.DRC_STATUS_SELF_REFRESH 0 |> raise 162)

/-- R60, R266: the kickstand sequencer starts PRESERVE in the stroke of its cause. -/
def preserveEnter (cause : Nat) (s : State) : State :=
  s |> sleepStops |> modeTo .preserve cause
    |> doIf (cause == 7 || cause == 0xA) (·.set Fld.DEV_RST_CAUSE_PWR_FAIL 1)
    |> doIf (cause == 8) (·.set Fld.DEV_RST_CAUSE_THERM_TRIP 1)
    |>.devUpd (fun d => { d with causes := [], servingAt := none, devResetAt := none, presPend := none, presFrom := some s.now })
    |> preserveCmds
    |> preserveStore cause
    |> fwCut
    |>.set Fld.DEV_FAULT_STATUS_RESTARTING 0
    |>.fltUpd (fun f => { f with restartDue := none, fenceDue := [] })
    |>.pelUpd (fun p => { p with stateWait := [] })
    |> shed

/-- R266: PRESERVE starts for the cause recognised. -/
def execPreserveEntry (s : State) : Result :=
  done (match s.dev.presPend with | some cause => if s.mode = .preserve then s else preserveEnter cause s | none => s)

/-- R65: the drain limit is reached: what is left is cut off, PRESERVE with CAUSE 0x0D. -/
def drainLimit (s : State) : State := s |> drainCut |> preserveEnter 0x0D

/-- R65: the drain limit is reached at the boundary to come. -/
def execDrainLimitReached (s : State) : Result :=
  done (if drainOver { s with now := s.now + 1 } then atBoundary .drainLimit s else s)

/-- A context's entry in the context state record (11 R266, 16 R404): share words, aperture, write sequence number, windows,
upstream rules. -/
def ctxEntry (s : State) (c : Nat) : List Byte :=
  let rules := [0, 1, 2, 3].flatMap fun p => ((List.range 32).filter fun r => s.isSet (Fld.LB_UPR_CFG_EN p r) && s.get (Fld.LB_UPR_CFG_CTX p r) == c).map fun r => (p, r)
  (shareWords s c).flatMap (fun w => leBytes 4 w.toNat) ++
    leBytes 2 (match (s.ctx c).apt with | some a => a | none => 0xFFFF) ++ leBytes 2 0 ++
    leBytes 8 (s.wseq c) ++ List.replicate 24 0 ++
    ((List.range 16).flatMap fun w =>
      ([Adr.WIN_BAR c w, Adr.WIN_LADDR_LO c w, Adr.WIN_LADDR_HI c w, Adr.WIN_CTL c w, Adr.WIN_ATTR c w].flatMap (wordBytes s)) ++ leBytes 4 0) ++
    leBytes 4 rules.length ++
    rules.flatMap fun x =>
      [Adr.LB_UPR_LADDR_LO x.1 x.2, Adr.LB_UPR_LADDR_HI x.1 x.2, Adr.LB_UPR_HADDR_LO x.1 x.2, Adr.LB_UPR_HADDR_HI x.1 x.2,
        Adr.LB_UPR_CFG x.1 x.2].flatMap (wordBytes s)

/-- The two records of PRESERVE and its duration. -/
def preserveRecords (s : State) : State :=
  let t := s.since (s.dev.presFrom.getD s.now)
  let r : PresRecord := { at_ := s.ds.presAt.getD s.now, cause := s.ds.presCause, flushed := s.ds.presFlushed, mib := s.ds.cfgMib,
                          mj := s.ds.cfgMj }
  let entries := s.ctxIds.map fun c => (c, ctxEntry s c)
  s.dsUpd (fun d => { d with record := some r, ctxRecord := entries, ctxRecordWritten := true, presTime := min 65535 (ceilDiv t 20) })
    |>.set Fld.DS_PRESERVE_LOG_T_10US (min 65535 (ceilDiv t 20)) |>.set Fld.DS_PRESERVE_UNITS_FLUSHED s.ds.presFlushed

/-- The halt: strokes end, BC_IRQ_N is asserted; a system reset that waited is applied, and the ROM starts where SYS_RST_N is
released already. -/
def halt (s : State) : State :=
  let s := doIf s.ds.recovered (fun s => s |> preserveRecords |> storeClose 1) s
  let s := s.devUpd fun d => { d with halted := true, counting := false }
  if s.dev.rstAtHalt then
    let up := s.dev.sysRst
    let s := rstByPin 1 s
    if up then s else romStart s
  else s

/-- R266: every dirty unit is on NAND: records are written and the device halts. A PRESERVE before recovery writes nothing. -/
def execPreserveHalt (s : State) : Result :=
  done (if s.mode = .preserve ∧ ¬ s.dev.halted ∧ (¬ s.ds.recovered ∨ s.ds.dirty = []) then halt s else s)

/-- R48: the supplies go: after a halt nothing is lost; in a PRESERVE that wrote to NAND it is cut; otherwise no record is
left. What is left is the state of a held reset without supplies. -/
def execSupplyLoss (s : State) : Result :=
  done (if ¬ s.dev.supplies then s
    else
      systemReset (if s.mode = .preserve ∧ s.ds.presAt.isSome then 2 else 3) s
        |>.devUpd fun d => { d with supplies := false, sysRst := true })

/-- BC_IRQ_N is asserted (03 R56, R67; 16 Table 16-15): in PRESERVE only at its halt. -/
def bcIrq (s : State) : Bool :=
  if s.mode = .preserve then s.dev.halted
  else (s.word Adr.MBX_BC_ATTN &&& s.word Adr.MBX_BC_ATTN_EN) != 0 || s.isSet Fld.MBX_BC_ATTN_BOOT_FAIL

/-! ## Signals (02 R18, Table 02-3) -/

/-- The signals of Table 02-3, by link, port or channel; a differential pair is two where its reset levels differ. -/
inductive Ball where
  | hlTx | hlRx | hlRefclk | hlPerstN | hlWakeN | hlClkreqN | hlRcal
  | ulTx (k : Nat) | ulRx (k : Nat) | ulRefclk (n : Nat)
  | lbTxd (p : Nat) | lbTxp (p : Nat) | lbTxf (p : Nat) | lbTxsP (p : Nat) | lbTxsN (p : Nat) | lbRstN (p : Nat) | lbRx (p : Nat) | lbLint (p : Nat)
  | ddrDq (n : Nat) | ddrDqs (n : Nat) | ddrCa (n : Nat) | ddrCsN (n : Nat) | ddrCkP (n : Nat) | ddrCkN (n : Nat) | ddrResetN (n : Nat)
  | ddrAlertN (n : Nat) | ddrZq (n : Nat)
  | nfDq (n : Nat) | nfDqs (n : Nat) | nfReP (n : Nat) | nfReN (n : Nat) | nfWeN (n : Nat) | nfCle (n : Nat) | nfAle (n : Nat) | nfCeN (n : Nat)
  | nfRbN (n : Nat)
  | smbClk | smbDat | bcIrqN | tck | trstN | tms | tdi | tdo | sysRstN | pwrFailN | cardEjectN | sysClk25 | ksXtal | photoN | thermTripN | vid
  | gpio | strap | fuseEn
deriving DecidableEq, Repr

/-- What stands on a signal: a level, electrical idle, high impedance, an open drain released, an input and the resistor on it (none,
pull-up or pull-down in kΩ), receivers without termination, a resistor to VSS in ohms, the running oscillator, a code, or what the
owning block drives or receives. -/
inductive Level where
  | low | high | idle | hiZ | released | input | pullUp (k : Nat) | pullDown (k : Nat) | termOff | resistor (ohms : Nat) | running
  | code (v : BitVec 6) | block
deriving DecidableEq, Repr

/-- The reset state of Table 02-3. -/
def resetLevel : Ball → Level
  | .hlTx | .ulTx _ => .idle
  | .hlRx | .ulRx _ | .ddrDq _ | .ddrDqs _ | .nfDq _ | .nfDqs _ | .tdo => .hiZ
  | .hlRefclk | .ulRefclk _ | .hlPerstN | .sysRstN | .pwrFailN | .cardEjectN | .sysClk25 | .strap => .input
  | .hlWakeN | .smbClk | .smbDat | .bcIrqN | .thermTripN => .released
  | .hlClkreqN | .lbTxd _ | .lbTxp _ | .lbTxf _ | .lbTxsP _ | .lbRstN _ | .ddrCkP _ | .ddrResetN _ | .nfReN _ | .nfCle _ | .nfAle _ => .low
  | .lbTxsN _ | .ddrCa _ | .ddrCsN _ | .ddrCkN _ | .nfReP _ | .nfWeN _ | .nfCeN _ => .high
  | .lbRx _ => .termOff
  | .lbLint _ | .tck | .trstN | .gpio | .fuseEn => .pullDown 50
  | .tms | .tdi | .photoN | .nfRbN _ => .pullUp 50
  | .ddrAlertN _ => .pullUp 10
  | .hlRcal => .resistor 200
  | .ddrZq _ => .resistor 240
  | .ksXtal => .running
  | .vid => .code 0b111000

/-- The host link has left reset: the ROM has enabled it (03 R54), HL_PERST_N is released (R57), and STRAP TEST lets it train (02 Table
02-8). -/
def hlEnabled (s : State) : Bool := s.dev.rom && s.dev.counting && !s.dev.perst && !s.isSet Fld.DEV_STRAP_TEST

/-- A DDR channel is trained. -/
def ddrUp (s : State) (n : Nat) : Bool := s.isSet (if n = 0 then Fld.DRC_STATUS_TRAINED0 else Fld.DRC_STATUS_TRAINED1)

/-- What stands on a signal. A signal holds its reset state until the owning block leaves reset: a Ulirin link while it is held or in
reset, a port in RESET, a DDR channel until it is trained, the NAND channels until the ROM has reset them; SMB and JTAG_TDO
outside a transaction, an open drain until it is asserted. Inputs, resistors and the oscillator stay as they are. -/
def drives (s : State) (b : Ball) : Level :=
  let held (out : Bool) (v : Level) : Level := if out then v else resetLevel b
  match b with
  | .hlTx | .hlRx | .hlClkreqN => held (hlEnabled s) .block
  | .hlWakeN => held s.dev.wake .low
  | .ulTx k | .ulRx k => held (s.ulState k != 0) .block
  | .lbTxd p | .lbTxp p | .lbTxf p | .lbTxsP p | .lbTxsN p | .lbRx p => held (s.lbState p != 0) .block
  | .lbRstN p => held (!s.dev.lbRst.getLsbD p) .high
  | .ddrDq n | .ddrDqs n | .ddrCa n | .ddrCsN n | .ddrCkP n | .ddrCkN n => held (ddrUp s n) .block
  | .ddrResetN n => held (ddrUp s n) .high
  | .nfDq _ | .nfDqs _ | .nfReP _ | .nfReN _ | .nfWeN _ | .nfCle _ | .nfAle _ | .nfCeN _ => held (decide (2 ≤ s.get Fld.DEV_BOOT_STAGE)) .block
  | .bcIrqN => held (bcIrq s) .low
  | .thermTripN => held s.dev.tripOut .low
  | .vid => .code s.dev.vid
  | _ => resetLevel b

/-! ## The balls of the boundary register (02 R20 to R25, 19 R458) -/

/-- Signals of a local bus port in a row of Table 02-4: 0 to 3 for rows A, C, E and G. -/
def portRow (p : Nat) : Nat → List Ball
  | 0 => List.replicate 23 (.lbTxd p)
  | 1 => List.replicate 9 (.lbTxd p) ++ List.replicate 4 (.lbTxp p) ++ [.lbTxf p, .lbTxsP p, .lbTxsN p, .lbRstN p]
  | 2 => List.replicate 23 (.lbRx p)
  | _ => List.replicate 16 (.lbRx p) ++ List.replicate 4 (.lbLint p)

/-- Signals of a DDR channel in rows J, L and N of Table 02-5, but for the analog ZQ. -/
def ddrRow (n : Nat) : Nat → List Ball
  | 0 => List.replicate 30 (.ddrDq n)
  | 1 => List.replicate 10 (.ddrDq n) ++ List.replicate 20 (.ddrDqs n)
  | _ => List.replicate 14 (.ddrCa n) ++ [.ddrCsN n, .ddrCsN n, .ddrCkP n, .ddrCkN n, .ddrResetN n, .ddrAlertN n]

/-- Signals of a NAND channel in its four rows of six balls (02 R24). -/
def nandRow (n : Nat) : Nat → List Ball
  | 0 => List.replicate 6 (.nfDq n)
  | 1 => List.replicate 2 (.nfDq n) ++ List.replicate 2 (.nfDqs n) ++ [.nfReP n, .nfReN n]
  | 2 => [.nfWeN n, .nfCle n, .nfAle n] ++ List.replicate 3 (.nfCeN n)
  | _ => .nfCeN n :: List.replicate 4 (.nfRbN n)

/-- The rows of two local bus ports, of which the second lies to the east. -/
def portRows (p q : Nat) : List Ball := [0, 1, 2, 3].flatMap fun r => portRow p r ++ portRow q r

/-- The rows of two NAND channels, with what lies between them in each row. -/
def nandRows (p q : Nat) (mid : Nat → List Ball) : List Ball := [0, 1, 2, 3].flatMap fun r => nandRow p r ++ mid r ++ nandRow q r

/-- The 719 balls that the boundary register covers, in ball order (R458; 02 Tables 02-4 to 02-6): rows A to G, J to N, T to W, Y to AC,
AD, AF to AN, AT to AY, BA to BG. -/
def scanBalls : List Ball :=
  portRows 0 1 ++ [0, 1, 2].flatMap (ddrRow 0)
    ++ nandRows 0 4 (fun r => match r with
        | 0 => List.replicate 16 .gpio
        | 2 => List.replicate 8 .strap ++ List.replicate 6 .vid
        | _ => [])
    ++ nandRows 1 5 (fun r => match r with
        | 0 => [.sysRstN, .pwrFailN, .cardEjectN, .thermTripN, .photoN, .fuseEn, .smbClk, .smbDat, .bcIrqN]
        | _ => [])
    ++ [.sysClk25] ++ nandRows 2 6 (fun _ => []) ++ nandRows 3 7 (fun _ => [])
    ++ ddrRow 1 0 ++ [.hlPerstN, .hlWakeN, .hlClkreqN] ++ ddrRow 1 1 ++ ddrRow 1 2 ++ portRows 2 3

/-- An input-only ball, on which an output cell has no effect. -/
def inputOnly : Ball → Bool
  | .hlPerstN | .lbRx _ | .lbLint _ | .ddrAlertN _ | .nfRbN _ | .sysRstN | .pwrFailN | .cardEjectN | .sysClk25 | .photoN | .strap | .fuseEn => true
  | _ => false

/-- What stands on ball `i` of the boundary register: its cells are 3i, the input, 3i + 1, the output, and 3i + 2, its enable. EXTEST and
CLAMP drive it by its cells, HIGHZ leaves it high-impedance; otherwise it is driven as its signal is. -/
def scanLevel (s : State) (i : Nat) : Level :=
  let b := scanBalls.getD i .fuseEn
  if s.tap.drive = 0 ∨ inputOnly b then drives s b
  else if s.tap.drive = 3 ∨ ¬ s.tap.cells.getLsbD (3 * i + 2) then .hiZ
  else if s.tap.cells.getLsbD (3 * i + 1) then .high else .low

/-! ## The boundary of a mode (03 R59 to R66) -/

/-- Commands of some opcodes that run, or wait, complete with a status. -/
def endCmds (p : Cmd → Bool) (code : Nat) (res : List Byte) (s : State) : State :=
  s |> doAll (s.cmds.filter p) (fun x s => cmdDone x.id code res s)

/-- A command of this opcode runs. -/
def runs (ops : List Nat) (x : Cmd) : Bool := ops.contains x.op && x.core.isSome

/-- An extraction or leave of the same stroke as one that runs: both take effect (16 R395). -/
def drainsToo (s : State) (x : Cmd) : Bool :=
  [0x0004, 0x0402].contains x.op && x.core.isNone && x.ranked && !x.fwd && s.cmds.any fun y => runs [0x0004, 0x0402] y && y.stamp == x.stamp

/-- DRAINING is entered (R64, Table 03-7): every later command but status queries and PREPARE_EXTRACT is superseded. -/
def enterDraining (cause : Nat) (s : State) : State :=
  let ordered (x : Cmd) : Bool := runs [0x0004, 0x0402] x || drainsToo s x
  s |> modeTo .draining cause
    |>.devUpd (fun d => { d with drainFrom := s.now, servingAt := none, causes := [], heldOrder := false })
    |> doIf ((cause == 5 || s.cmds.any fun x => x.op == 0x0402 && ordered x) && s.pelState == 2) (·.set Fld.PEL_STATUS_STATE 4)
    |> endCmds ordered 0 (leBytes 6 s.now.toNat)
    |> endCmds (runs [0x0003]) 5 []
    |> endCmds (fun x => x.core.isNone && x.ranked && x.op != 0x0004 &&
        (match commandOf x.op with | some i => i.kind != .q | none => false)) 5 []

/-- MAINTENANCE is entered (R66): apertures offline, every LBn_RST_N asserted; a rescan cut short resumes. -/
def enterMaintenance (s : State) : State :=
  s |> modeTo .maintenance 0x0B
    |>.devUpd (fun d => { d with servingAt := none, causes := [] })
    |>.set Fld.DS_CFG_STATE 0
    |> doAll [0, 1, 2, 3] portReset
    |> endCmds (runs [0x0003]) 0 (leBytes 6 s.now.toNat)
    |> doIf s.med.rescan (fun s =>
        s.mbxUpd (fun m => { m with store := { m.store with op := 0x030A, state := 1, code := 0, pct := 0 } })
          |>.medUpd fun m => { m with rescan := false })

/-- The first drain cause in the order of Table 03-6, with its code. -/
def drainCause (l : List ModeCause) : Option Nat :=
  if l.contains .cardEject then some 3 else if l.contains .surpriseDown then some 6
  else if l.contains .prepareExtract then some 4 else if l.contains .pelLeave then some 5 else none

/-- The boot log entry at STANDBY entry. -/
def bootLog (s : State) : State := logEv 0x0001 ([Adr.DEV_RST_CAUSE, Adr.DEV_BOOT, Adr.DEV_FAULT_STATUS].flatMap (wordBytes s)) s

/-- The boundary of STANDBY or SERVING: ranks 3 to 6 of Table 03-6. -/
def runBoundary (s : State) : State :=
  let l := s.dev.causes
  match drainCause l with
  | some c => enterDraining c s
  | none =>
    let serve := s.dev.servingAt.isSome
    let s := s.devUpd fun d => { d with causes := [], servingAt := none }
    if l.contains .linkReset then
      s |> doIf (s.mode == .serving) (modeTo .standby 0x0C) |> endCmds (runs [0x0003]) 5 []
    else if l.contains .maintEntry && maintAllowed s then enterMaintenance s
    else
      let s := doIf (l.contains .maintEntry) (endCmds (runs [0x0003]) 1 []) s
      if serve ∧ s.mode = .standby then
        s |> modeTo .serving 2 |> doIf s.linkUp (ltrSend true)
      else s

/-- The boundary of BOOT. -/
def bootBoundary (s : State) : State :=
  let l := s.dev.causes
  let s := s.devUpd fun d => { d with causes := [] }
  if s.get Fld.DEV_BOOT_STAGE = 0xF ∧ s.dev.heldOrder then preserveEnter 0x0E s
  else if l.contains .maintEntry then enterMaintenance s
  else if l.contains .toStandby then
    let eject := s.dev.heldEject
    let held := s.dev.heldOrder
    s |> modeTo .standby 1 |> bootLog
      |> doIf held (enterDraining (if eject then 3 else 4))
  else romStep s

/-- Every mode transition that waits for the boundary (R60, R63). The caller has moved the stroke on. From a sleep state, a sub-state of
SERVING, a transition follows the exit (17 R420, R428). -/
def modeBoundary (s : State) : State :=
  match s.mode with
  | .standby | .serving => doIf (s.sleepState == 0) runBoundary s
  | .boot => bootBoundary s
  | .maintenance =>
    let s := s.devUpd fun d => { d with causes := [] }
    if s.dev.heldOrder ∧ ¬ opRuns s then preserveEnter 0x0E s else s
  | .draining =>
    let s := s.devUpd fun d => { d with causes := [] }
    doIf (drainOver s) drainLimit s
  | .preserve => s.devUpd fun d => { d with causes := [] }

/-- A command of one of these opcodes, stamped in the stroke that ends, orders a mode of this member. -/
def orderedNow (s : State) (ops : List Nat) : Bool :=
  s.cmds.any fun x => !x.ranked && x.stamp == s.now && !x.fwd && ops.contains x.op

/-- A mode order of the stroke that ends overtakes SERVING entry (R63, ranks 3 and 5): PREPARE_EXTRACT, a peloton leave, or a
maintenance entry that is allowed. -/
def servingOvertaken (s : State) : Bool := orderedNow s [4, 0x0402] || (orderedNow s [3] && maintAllowed s)

/-- What an order of the same stroke overtakes is discarded: SERVING entry; by a drain cause also the mode change of a host-link
reset, which is then applied to the host link only (R63). -/
def dropServing (s : State) : State :=
  s |> doIf (servingOvertaken s) (fun s => s.devUpd fun d => { d with servingAt := none })
    |> doIf (orderedNow s [4, 0x0402]) (fun s => s.devUpd fun d => { d with causes := d.causes.filter (· != .linkReset) })

/-- R59: the write of Bus Master Enable leads to SERVING at the boundary to come, unless a higher-ranked cause overtakes it. -/
def execEnterServing (s : State) : Result :=
  done (if s.dev.servingAt.isSome ∧ s.mode = .standby ∧ s.dev.causes = [] ∧ s.dev.presPend.isNone ∧ ¬ servingOvertaken s then atBoundary .serving s else s)

end Sys2Proof.Machine
end

