-- ==== Sys2Proof/Machine/HostRequests.lean ====
section
/-! DEFINITION. Machine/HostRequests.lean: what the host asks of the device: configuration space, SR-IOV, FLR, BAR2 and
BAR4; the ends of the device's own requests; a down host link (04 R75 to R99; 05 R105, R106, R115 to R121; 06 R145; 07 R159,
R166; 08 R199 to R205; 11 R249, R252). -/
namespace Sys2Proof.Machine

/-! ## Virtual functions (04 R80, R81; 05 R105, R106) -/

/-- The largest NumVFs permitted. -/
def maxVfs (s : State) : Nat := if s.hl.ari then 1023 else 7

/-- A context that VF Enable created is not destroyed yet. -/
def vfsLeft (s : State) : Bool :=
  (List.range 1024).any (fun c => c != 0 && s.cst c != 0) || s.deferred.any fun d => match d with | .vfs _ => true | _ => false

/-- VF Enable is set with the NumVFs in force; the contexts exist from the next boundary on. In MAINTENANCE, where only the
physical function is served (03 R66), it is refused (DESIGN CHOICE, log 171). -/
def vfEnable (s : State) : State :=
  let n := s.hl.numVfs
  if s.hl.vfEnable then s
  else if s.mode = .maintenance then raise 27 s
  else if n = 0 ∨ maxVfs s < n then s.set Fld.HL_SRIOV_STATUS_BAD_NUMVFS 1 |> raise 27
  else if vfsLeft s then raise 27 s
  else
    { s with deferred := s.deferred ++ [Deferred.vfs n] }
      |>.hlUpd (fun h => { h with vfEnable := true, vfWaitFrs := true })
      |> doAll ((List.range n).map (· + 1)) (fun c s => s.fnUpd c fun f => { f with enabled := true })
      |>.set Fld.HL_SRIOV_STATUS_ACTIVE_VFS n
      |> raise 27

/-- The contexts of VF Enable come into being: BARE, or STANDBY where provisioned (14 R355). -/
def vfsCreate (n : Nat) (s : State) : State :=
  if ¬ s.hl.vfEnable then s
  else s |> doAll ((List.range n).map (· + 1)) (fun c s =>
    s.set (Fld.CTX_STATE_STATE c) (if bitOf (s.word (Adr.PEL_SBY (c / 32))).toNat (c % 32) then 6 else 1))

/-- A virtual function is disabled: its ATS Enable is clear (04 R87); its context is destroyed, or leaves STANDBY or MOVED, at
the next boundary. -/
def vfGone (cause c : Nat) (s : State) : State :=
  fnTo c (fun _ => fnReset c) s |> atsDiscard (fun e => e.ctx == c) |> doIf (s.cst c != 0) (ctxCause c true true false cause)

/-- VF Enable is cleared. -/
def vfClear (s : State) : State :=
  if ¬ s.hl.vfEnable then s
  else
    { s with deferred := s.deferred.filter fun d => match d with | .vfs _ => false | _ => true }
      |>.hlUpd (fun h => { h with vfEnable := false, vfWaitFrs := false })
      |> doAll ((List.range s.hl.numVfs).map (· + 1)) (vfGone 0)
      |>.set Fld.HL_SRIOV_STATUS_ACTIVE_VFS 0
      |> raise 27

/-- VF Enable is written 1, with NumVFs and ARI Capable Hierarchy. -/
def vfSet (n : Nat) (ari : Bool) (s : State) : State :=
  if ¬ (s.fn 0).ready ∨ s.hl.vfEnable then s else s.hlUpd (fun h => { h with numVfs := n, ari := ari }) |> vfEnable

/-- VF Enable is written 0. -/
def vfUnset (s : State) : State := if (s.fn 0).ready then vfClear s else s

/-- R80: VF Enable is set with NumVFs and ARI Capable Hierarchy. -/
def execVfEnableSet (n : BitVec 16) (ari : Bool) (s : State) : Result :=
  done (hostTlp 0 (.vfEnableSet n ari) (inOrder 0 s.now (.vfEnableSet n ari) (vfSet n.toNat ari)) s)

/-- R81: VF Enable is cleared. -/
def execVfEnableClear (s : State) : Result := done (hostTlp 0 .vfEnableClear (inOrder 0 s.now .vfEnableClear vfUnset) s)

/-! ## Function level reset (04 R98; 05 R106, R116, R121) -/

/-- The configuration bits of a function after FLR: the AER bits are sticky. -/
def fnAfterReset (f : Fn) : Fn :=
  { enabled := f.enabled, ready := f.ready, aerCor := f.aerCor, aerUnc := f.aerUnc, uncMask := f.uncMask, uncSev := f.uncSev,
    corMask := f.corMask, aerCtl := f.aerCtl, fep := f.fep, hdr := f.hdr }

/-- Configuration words of a function that host software wrote are forgotten, but for PTM Control, which is sticky. -/
def cfgForget (c : Nat) (s : State) : State := s.hlUpd fun h => { h with cfg := tabKeep (fun k => k / 1024 != c || k == 0xB4) h.cfg }

/-- Every BAR size returns to its reset value (04 Table 04-5). -/
def barSizesReset (s : State) : State :=
  s |> barSize false false 14 |> barSize false true 16 |> barSize true false 8 |> barSize true true 10

/-- FRS with reason FLR Completed. -/
def flrDone (c : Nat) (s : State) : State := s.ctxUpd c (fun x => { x with flr := false }) |> emit (.pcie c "FRS FLR Completed" 0)

/-- The physical function's configuration space returns to its reset values, except the sticky AER and PTM bits. -/
def pfConfigReset (s : State) : State :=
  vfClear s |> barSizesReset |>.hlUpd (fun h => { h with numVfs := 0, ari := false, vfMse := false, aspmL1 := false })

/-- An FLR of a function: what host software holds against it is discarded, its slot is idle, its context is reset. -/
def flr (c : Nat) (s : State) : State :=
  if ¬ (s.fn c).enabled ∨ ¬ (s.fn c).ready then s
  else
    let s := s.ctxUpd c (fun x => { x with wfence := [], persist := [] }) |> raise 26 |> doIf (c == 0) pfConfigReset
    let s := fnTo c fnAfterReset s |> cfgForget c |> mbxIdle (mbxId (8 + c)) |> atsDiscard (fun e => e.ctx == c)
    if s.cst c = 6 ∨ s.cst c = 7 then flrDone c s
    else
      s.ctxUpd c (fun x => { x with flr := true }) |> ctxCause c false false false 1

/-- R98: an FLR. -/
def execFlrReceived (c : Fin 1024) (s : State) : Result := done (hostTlp c (.flrReceived c) (inOrder c s.now (.flrReceived c) (flr c)) s)

/-- R121: the last context affected has left SQUASH: FRS. -/
def execFlrComplete (c : Fin 1024) (s : State) : Result :=
  done (if (s.ctx c).flr ∧ (s.ctx c).op.isNone ∧ s.linkUp ∧
      (c.val ≠ 0 ∨ (List.range 1024).all fun d => match (s.ctx d).op with | some o => !o.absent | none => true) then
      flrDone c s
    else s)

/-! ## Configuration space (04 R75 to R79, Tables 04-3 to 04-6; bit places of PCI Express, log 101) -/

/-- The header word of a capability: next offset and ID; of an extended one, with version 1. -/
def capHead (id next : Nat) : Nat := id + next * 256
def extHead (id next : Nat) : Nat := id + 0x10000 + next * 0x100000

/-- A configuration word: its dword, its value (of the bits that software writes, the reset value), the bits that the device
sets and the spec does not state, the bits that software writes. -/
structure CfgWord where
  dw : Nat
  val : Nat
  free : Nat := 0
  rw : Nat := 0

/-- Device Capabilities: 512 B payloads, extended tags, role-based errors, FLR. -/
def devCap : CfgWord := ⟨0x19, 2 + 2 ^ 5 + 2 ^ 15 + 2 ^ 28, 0x0FFC0FC0, 0⟩
/-- Link Capabilities: 64 GT/s, x16, ASPM L1 only, L1 exit latency 4 to 8 µs. -/
def linkCap : CfgWord := ⟨0x1B, 6 + 16 * 2 ^ 4 + 2 * 2 ^ 10 + 3 * 2 ^ 15 + 2 ^ 22, 0xFF007000, 0⟩
/-- Device Capabilities 2: timeout ranges A to D and Disable, LTR, 10-bit tags, FRS and DRS; no AtomicOp, no IDO. -/
def devCap2 : CfgWord := ⟨0x21, 0x8003081F, 0, 0⟩
/-- Link Capabilities 2: 2.5 to 64 GT/s; DRS. -/
def linkCap2 : CfgWord := ⟨0x23, 0x8000007E, 0, 0⟩
/-- TPH Requester: No-ST and Interrupt Vector modes, 64 tags of 8 bits in the MSI-X table; its control. -/
def tphCap : List CfgWord := [⟨0xA9, 3 + 2 * 2 ^ 9 + 63 * 2 ^ 16, 0, 0⟩, ⟨0xAA, 0, 0, 0x307⟩]
/-- Device 3: 14-bit tags, L0p; its control. -/
def dev3Cap : List CfgWord := [⟨0xD1, 0xE, 0, 0⟩, ⟨0xD2, 0, 0, 0x7C⟩]

/-- The structures of 16.0, 32.0 and 64.0 GT/s: status and lane controls are the device's; of 32.0 GT/s only Modified TS Usage
Mode 0, which the standard makes every port have, is advertised (04 R71, log 179). -/
def physCaps : List CfgWord :=
  [⟨0x68, 0, 0x1F, 0⟩, ⟨0x69, 0, 0xFFFF, 0⟩, ⟨0x6A, 0, 0xFFFF, 0⟩, ⟨0x6B, 0, 0xFFFF, 0⟩, ⟨0x6D, 0, 0xFFFFFFFF, 0⟩, ⟨0x6E, 0, 0xFFFFFFFF, 0⟩,
   ⟨0x70, 0x100, 0, 0⟩, ⟨0x72, 0, 0x1F, 0⟩, ⟨0x77, 0, 0xFFFFFFFF, 0⟩, ⟨0x7B, 0, 0x1F, 0⟩] ++
  (List.range 4).map fun i => ⟨0x7C + i, 0, 0xFFFFFFFF, 0⟩

/-- Lane Margining: port words, then a control and a status for each lane that the offsets leave room for, No Command at reset
(log 179). -/
def marginCaps : List CfgWord := ⟨0x81, 0, 0x00030001, 0⟩ :: (List.range 14).map fun i => ⟨0x82 + i, 0x9C38, 0, 0xFF7F⟩

/-- The status half of a lane's margining word answers the command in its control half: receiver, type and usage model are those of the
command, the payload that of No Command or what the receiver measures, which the spec does not state (log 179). -/
def marginStatus (dw cmd : Nat) : Nat :=
  cmd % 128 + 256 * (if cmd = 0x9C38 then 0x9C else (Config.cfgConst 0 (0x10000 * dw + cmd)).toNat % 256)

/-- Words that the device sets and the spec does not state, as the standard defines them. -/
def freeWords (first n : Nat) : List CfgWord := (List.range n).map fun i => ⟨first + i, 0, 0xFFFFFFFF, 0⟩

/-- The words of the physical function, but for those of `cfgLive` and the BARs. PCI Express Capabilities say that FLIT mode is supported
(04 Table 04-1). -/
def pfWords : List CfgWord :=
  [⟨0x00, 0x96801F3C, 0, 0⟩, ⟨0x02, 0x120000B1, 0, 0⟩, ⟨0x03, 0, 0, 0xFF⟩, ⟨0x0D, 0x40, 0, 0⟩,
   ⟨0x10, 0xC8030000 + capHead 0x01 0x50, 0, 0⟩, ⟨0x15, 0x8000, 0, 0⟩, ⟨0x16, 0x9000, 0, 0⟩, ⟨0x18, 0x80020000 + capHead 0x10 0xB0, 0, 0⟩,
   devCap, linkCap, devCap2, linkCap2, ⟨0x24, 6, 0x001F0000, 0xFFBF⟩, ⟨0x40, extHead 0x01 0x148, 0, 0⟩] ++
  [⟨0x52, extHead 0x03 0x158, 0, 0⟩, ⟨0x56, extHead 0x04 0x168, 0, 0⟩, ⟨0x57, 0, 0, 0xFF⟩, ⟨0x5A, extHead 0x19 0x188, 0, 0⟩,
   ⟨0x62, extHead 0x25 0x194, 0, 0⟩, ⟨0x63, 0x80000001, 0, 0⟩, ⟨0x65, extHead 0x26 0x1BC, 0, 0⟩, ⟨0x6F, extHead 0x2A 0x1E0, 0, 0⟩,
   ⟨0x78, extHead 0x31 0x200, 0, 0⟩, ⟨0x80, extHead 0x27 0x240, 0, 0⟩, ⟨0x90, extHead 0x0E 0x250, 0, 0⟩,
   ⟨0x94, extHead 0x10 0x290, 0, 0⟩, ⟨0x95, 0, 6, 0⟩, ⟨0x97, 0x03FF03FF, 0, 0⟩, ⟨0x99, 0x00010001, 0, 0⟩, ⟨0x9A, 0x96810000, 0, 0⟩] ++
  [⟨0x9B, 0x1F, 0, 0⟩, ⟨0x9C, 1, 0, 0x1F⟩, ⟨0xA4, extHead 0x0F 0x2A0, 0, 0⟩, ⟨0xA8, extHead 0x17 0x2C0, 0, 0⟩,
   ⟨0xB0, extHead 0x18 0x2C8, 0, 0⟩, ⟨0xB2, extHead 0x1F 0x2D4, 0, 0⟩, ⟨0xB3, 0x0401, 0, 0⟩,
   ⟨0xB5, extHead 0x1E 0x2E4, 0, 0⟩, ⟨0xB6, 0x1F + 10 * 2 ^ 8 + 2 ^ 16 + 4 * 2 ^ 19, 0, 0⟩, ⟨0xB7, 0, 0, 0xE3FFFF0F⟩, ⟨0xB8, 0, 0, 0xFB⟩,
   ⟨0xB9, extHead 0x15 0x310, 0, 0⟩, ⟨0xBA, 0x7FFF0, 0, 0⟩, ⟨0xBC, 0x1FF000, 0, 0⟩, ⟨0xC4, extHead 0x24 0x340, 0, 0⟩,
   ⟨0xC5, 0x7FFF0, 0, 0⟩, ⟨0xC7, 0x1FF000, 0, 0⟩, ⟨0xD0, extHead 0x2F 0, 0, 0⟩] ++ tphCap ++ dev3Cap ++
  freeWords 0x53 2 ++ freeWords 0x5B 7 ++ freeWords 0x64 1 ++ physCaps ++ marginCaps

/-- The words of a virtual function. -/
def vfWords : List CfgWord :=
  [⟨0x00, 0xFFFFFFFF, 0, 0⟩, ⟨0x02, 0x120000B1, 0, 0⟩, ⟨0x0D, 0x40, 0, 0⟩, ⟨0x10, 0xC8030000 + capHead 0x01 0x50, 0, 0⟩,
   ⟨0x15, 0x8000, 0, 0⟩, ⟨0x16, 0x9000, 0, 0⟩, ⟨0x18, 0x80020000 + capHead 0x10 0, 0, 0⟩, devCap, linkCap, devCap2, linkCap2,
   ⟨0x40, extHead 0x01 0x240, 0, 0⟩, ⟨0x90, extHead 0x0E 0x290, 0, 0⟩, ⟨0xA4, extHead 0x0F 0x2A0, 0, 0⟩, ⟨0xA8, extHead 0x17 0x340, 0, 0⟩,
   ⟨0xD0, extHead 0x2F 0, 0, 0⟩] ++ tphCap ++ dev3Cap

/-- The word of a function at a dword, where it is one of the lists. -/
def cfgWord (c dw : Nat) : Option CfgWord := (if c = 0 then pfWords else vfWords).find? fun e => e.dw == dw

/-- The written bits of a word at reset. -/
def cfgReset (k : Nat) : Word :=
  match cfgWord (k / 1024) (k % 1024) with
  | some w => BitVec.ofNat 32 (w.val &&& w.rw)
  | none => 0

/-- The bits that software wrote to a word, and a write of them. -/
def cfgHeld (s : State) (c dw : Nat) : Nat := (tabGet cfgReset s.hl.cfg (c * 1024 + dw)).toNat
def cfgHold (c dw v : Nat) (s : State) : State :=
  s.hlUpd fun h => { h with cfg := tabSet cfgReset h.cfg (c * 1024 + dw) (BitVec.ofNat 32 v) }

/-- The bits of a word that the device sets and the spec does not state (log 148). -/
def cfgFree (c dw mask : Nat) : Nat := (Config.cfgConst c dw).toNat &&& mask

/-- Power Budgeting Data for the selected entry: D0 maximum 58 W, D0 sustained 41 W, D3cold auxiliary 4.5 W; the order of the
entries is PRESUMED (log 172). -/
def powerData (sel : Nat) : Nat :=
  match sel with
  | 0 => 58 + 7 * 2 ^ 15
  | 1 => 41 + 3 * 2 ^ 15
  | 2 => 45 + 2 ^ 8 + 3 * 2 ^ 13 + 2 ^ 15
  | _ => 0

/-- Dword `i` of the Header Log of a function (04 R91). -/
def headerWord (h : AerHdr) (i : Nat) : Nat :=
  match h with
  | .none => 0
  | .tlp n => ((Config.tlpHeader n) >>> (32 * i)).toNat % 2 ^ 32
  | .built c addr len => ((Config.headerLog c addr len) >>> (32 * i)).toNat % 2 ^ 32

/-- A BAR of 2^log2 bytes: lower dword with its type bits, or upper dword, of the address that stands in it. -/
def barWord (v log2 : Nat) (upper pref : Bool) : Nat :=
  if upper then (if log2 ≤ 32 then v else v / 2 ^ (log2 - 32) * 2 ^ (log2 - 32))
  else (if 32 ≤ log2 then 0 else v / 2 ^ log2 * 2 ^ log2) + 4 + 8 * pref.toNat

/-- The BARs by dword: log2 of the size, upper half, prefetchable (04 Table 04-5). -/
def barOf (s : State) (dw : Nat) : Option (Nat × Bool × Bool) :=
  match dw with
  | 4 => some (26, false, false) | 5 => some (26, true, false)
  | 6 => some (20 + s.hl.pfBar2, false, true) | 7 => some (20 + s.hl.pfBar2, true, true)
  | 8 => some (20 + s.hl.pfBar4, false, true) | 9 => some (20 + s.hl.pfBar4, true, true)
  | 0x9D => some (16, false, false) | 0x9E => some (16, true, false)
  | 0x9F => some (20 + s.hl.vfBar2, false, true) | 0xA0 => some (20 + s.hl.vfBar2, true, true)
  | 0xA1 => some (20 + s.hl.vfBar4, false, true) | 0xA2 => some (20 + s.hl.vfBar4, true, true)
  | _ => none

/-- The encoding of a payload or request size: 128 bytes times a power of two. -/
def sizeCode (n : Nat) : Nat := if n ≤ 128 then 0 else if n ≤ 256 then 1 else if n ≤ 512 then 2 else if n ≤ 1024 then 3 else if n ≤ 2048 then 4 else 5

/-- In FLIT mode the control register says that the logged TLP was a FLIT mode one, and its size, which the device sets (log
179). -/
def headerSize (h : AerHdr) : Nat :=
  match h with
  | .none => 0
  | .tlp n => 2 ^ 18 + 2 ^ 19 * ((Config.tlpHeader n).toNat % 32)
  | .built c addr len => 2 ^ 18 + 2 ^ 19 * ((Config.headerLog c addr len).toNat % 32)

/-- The AER structure of a function by dword: status, mask, severity, control, Header Log, which FLIT mode makes longer (04 R76,
R91). -/
def aerWord (f : Fn) (flit : Bool) (dw : Nat) : Option Nat :=
  match dw with
  | 0x41 => some f.aerUnc
  | 0x42 => some f.uncMask
  | 0x43 => some f.uncSev
  | 0x44 => some f.aerCor
  | 0x45 => some f.corMask
  | 0x46 => some (f.fep.getD 0 + 0xA0 + f.aerCtl + if flit then headerSize f.hdr else 0)
  | 0x47 => some (headerWord f.hdr 0)
  | 0x48 => some (headerWord f.hdr 1)
  | 0x49 => some (headerWord f.hdr 2)
  | 0x4A => some (headerWord f.hdr 3)
  | 0x4E => some (if flit then headerWord f.hdr 4 else 0)
  | 0x4F => some (if flit then headerWord f.hdr 5 else 0)
  | 0x50 => some (if flit then headerWord f.hdr 6 else 0)
  | 0x51 => some (if flit then headerWord f.hdr 7 else 0)
  | _ => none

/-- What a register of the physical function that the device acts on reads as, beside those of every function. -/
def pfLive (s : State) (dw : Nat) : Option Nat :=
  match dw with
  | 0x2C => some (capHead 0x03 0 + cfgHeld s 0 0x2C)
  | 0x2D => some (cfgFree 0 (0x400 + bitsOf (cfgHeld s 0 0x2C) 30 16) 0xFFFFFFFF)
  | 0x24 => some (cfgHeld s 0 0x24 + cfgFree 0 0x24 0x001F0000 + 2 ^ 26 * (s.isSet Fld.HL_LINK_STATUS_FLIT).toNat)
  | 0x58 => some (powerData (cfgHeld s 0 0x57) + if cfgHeld s 0 0x57 ≤ 2 then cfgFree 0 (0x8400 + cfgHeld s 0 0x57) 0x1C0000 else 0)
  | 0x96 => some (s.hl.vfEnable.toNat + 8 * s.hl.vfMse.toNat + 16 * s.hl.ari.toNat)
  | 0x98 => some s.hl.numVfs
  | 0xB1 => some ((s.word Adr.HL_LTR_VAL).toNat % 2 ^ 13 * (2 ^ 16 + 1))
  | 0xB4 => some (s.hl.ptmEn.toNat + cfgHeld s 0 0xB4)
  | 0xBB => some (2 + 2 * 2 ^ 5 + 2 ^ 8 * s.hl.pfBar2)
  | 0xBD => some (4 + 2 ^ 8 * s.hl.pfBar4)
  | 0xC6 => some (2 + 2 * 2 ^ 5 + 2 ^ 8 * s.hl.vfBar2)
  | 0xC8 => some (4 + 2 ^ 8 * s.hl.vfBar4)
  | _ => if 0x82 ≤ dw ∧ dw < 0x90 then some (cfgHeld s 0 dw + 2 ^ 16 * marginStatus dw (cfgHeld s 0 dw)) else none

/-- What a configuration register that the device acts on reads as. -/
def cfgLive (s : State) (c dw : Nat) : Option Nat :=
  let f := s.fn c
  match dw with
  | 0x01 => some (0x00100000 + 2 * f.mse.toNat + 4 * f.bme.toNat + cfgHeld s c 1 + cfgFree c 1 0xF9000000)
  | 0x0B => some s.fuses.subsys.toNat
  | 0x11 => some (8 + 3 * f.d3.toNat + 2 ^ 8 * f.pmeEn.toNat + 2 ^ 15 * f.pmeStat.toNat)
  | 0x14 => some (capHead 0x11 0x60 + 2 ^ 16 * 63 + 2 ^ 30 * f.fmask.toNat + 2 ^ 31 * f.msixEn.toNat)
  | 0x1A =>
    some (16 * f.ero.toNat + 32 * sizeCode f.mps + 2 ^ 11 * f.ens.toNat + 2 ^ 12 * sizeCode f.mrrs + cfgHeld s c 0x1A +
      2 ^ 21 * (s.hl.tags.any fun t => t.2.ctx == c).toNat + cfgFree c 0x1A 0xF0000)
  | 0x1C =>
    some (if c = 0 then
      2 * s.hl.aspmL1.toNat + cfgHeld s 0 0x1C + 2 ^ 16 * s.get Fld.HL_LINK_STATUS_SPEED +
        2 ^ 20 * s.get Fld.HL_LINK_STATUS_TRAINED_WIDTH + cfgFree 0 0x1C 0x10000000
      else 0)
  | 0x22 => some (f.cto + 2 ^ 12 * f.tag10.toNat + cfgHeld s c 0x22)
  | 0xA5 => some (0x60 + 2 ^ 31 * f.atsEn.toNat + cfgHeld s c 0xA5)
  | _ => (aerWord f (s.isSet Fld.HL_LINK_STATUS_FLIT) dw).orElse fun _ => if c = 0 then pfLive s dw else none

/-- The word that a configuration read returns: what the device acts on, a word of the lists, a BAR; every other reads 0, the
Expansion ROM BAR among them (04 R77). -/
def cfgRead (s : State) (c dw : Nat) : Nat :=
  match cfgLive s c dw with
  | some v => v
  | none =>
    match cfgWord c dw with
    | some e => e.val - (e.val &&& e.rw) + cfgFree c dw e.free + cfgHeld s c dw
    | none =>
      match barOf s dw with
      | some (n, up, pref) => if c = 0 then barWord (cfgHeld s 0 dw) n up pref else 0
      | none => 0

/-- Bytes of a write merged into the word that stands there. -/
def mergeBytes (old new : Nat) (be : BitVec 4) : Nat :=
  ((List.range 4).map fun i => (if be.getLsbD i then bitsOf new (8 * i + 7) (8 * i) else bitsOf old (8 * i + 7) (8 * i)) * 256 ^ i).sum

/-- The device control registers of a function (0x068 and 0x088). -/
def setDevCtl (c v : Nat) (s : State) : State :=
  s.fnUpd c (fun f => { f with ero := bitOf v 4, ens := bitOf v 11,
                               mps := if bitsOf v 7 5 ≤ 2 then 128 * 2 ^ bitsOf v 7 5 else f.mps,
                               mrrs := if bitsOf v 14 12 ≤ 5 then 128 * 2 ^ bitsOf v 14 12 else f.mrrs })
    |> doIf (bitOf v 15) (flr c)

/-- The MSI-X control of a function: Enable and Function Mask; vectors that nothing blocks any more leave. -/
def setMsixCtl (c v : Nat) (s : State) : State :=
  s.fnUpd c (fun f => { f with fmask := bitOf v 30, msixEn := bitOf v 31 }) |> sendPendingVectors c

/-- ATS Enable: clearing it discards the context's entries (04 R87). -/
def setAtsEn (c : Nat) (b : Bool) (s : State) : State :=
  s.fnUpd c (fun f => { f with atsEn := b }) |> doIf (!b) (atsDiscard fun e => e.ctx == c)

/-- The SR-IOV control register. -/
def setSriov (v : Nat) (s : State) : State :=
  s.hlUpd (fun h => { h with vfMse := bitOf v 3, ari := bitOf v 4 }) |> (if bitOf v 0 then vfEnable else vfClear)

/-- A write of the AER structure: the status bits written 1 are cleared, and with its error the First Error Pointer and the
Header Log are free again; masks, severities and control are written (04 R91). -/
def aerWrite (dw v : Nat) (f : Fn) : Fn :=
  match dw with
  | 0x41 =>
    let gone : Bool := match f.fep with | some b => bitOf v b | none => false
    { f with aerUnc := f.aerUnc &&& (0xFFFFFFFF - v), fep := if gone then none else f.fep, hdr := if gone then .none else f.hdr }
  | 0x42 => { f with uncMask := v &&& 0x5FF010 }
  | 0x43 => { f with uncSev := (v &&& 0x5FF010) + 0x20 }
  | 0x44 => { f with aerCor := f.aerCor &&& (0xFFFFFFFF - v) }
  | 0x45 => { f with corMask := v &&& 0x71C1 }
  | 0x46 => { f with aerCtl := v &&& 0x140 }
  | _ => f

/-- A configuration write to a register of the physical function that no virtual function has; false where it is none. -/
def pfWrite (dw v : Nat) (s : State) : State × Bool :=
  match dw with
  | 0x1C => (s.hlUpd (fun h => { h with aspmL1 := bitOf v 1 }) |> cfgHold 0 0x1C (v &&& 0xC8), true)
  | 0x2C => (cfgHold 0 0x2C ((v &&& 0x7FFF0000) + if bitOf v 31 then 0 else 2 ^ 31) s, true)
  | 0x96 => (setSriov v s, true)
  | 0x98 => (if s.hl.vfEnable then s else s.hlUpd fun h => { h with numVfs := bitsOf v 15 0 }, true)
  | 0xB4 => (s.hlUpd (fun h => { h with ptmEn := bitOf v 0 }) |> cfgHold 0 0xB4 (v &&& 0xFF02), true)
  | 0xBB => (barSizeWrite false false (bitsOf v 13 8) s, true)
  | 0xBD => (barSizeWrite false true (bitsOf v 13 8) s, true)
  | 0xC6 => (barSizeWrite true false (bitsOf v 13 8) s, true)
  | 0xC8 => (barSizeWrite true true (bitsOf v 13 8) s, true)
  | _ => if (barOf s dw).isSome then (cfgHold 0 dw v s, true) else (s, false)

/-- A configuration write: registers that the device acts on, BAR addresses, and words that only hold what is written; `v` is
the merged word, `be` its bytes. -/
def cfgWrite (c dw v : Nat) (be : BitVec 4) (s : State) : State :=
  match dw with
  | 0x01 =>
    s.fnUpd c (fun f => { f with mse := if c = 0 then bitOf v 1 else f.mse })
      |> doIf (c == 0) (cfgHold 0 1 (v &&& 0x140)) |> setBme c (bitOf v 2)
  | 0x11 => setPmcsr c (match bitsOf v 1 0 with | 0 => false | 3 => true | _ => (s.fn c).d3) (bitOf v 8) (bitOf v 15 && be.getLsbD 1) s
  | 0x14 => setMsixCtl c v s
  | 0x1A => s |> cfgHold c 0x1A (v &&& 0x070F) |> setDevCtl c v
  | 0x22 => s.fnUpd c (fun f => { f with cto := bitsOf v 4 0, tag10 := bitOf v 12 }) |> doIf (c == 0) (cfgHold 0 0x22 (v &&& 0x400))
  | 0xA5 => s |> cfgHold c 0xA5 (v &&& 0x1F0000) |> setAtsEn c (bitOf v 31)
  | _ =>
    if 0x41 ≤ dw ∧ dw ≤ 0x4A then s.fnUpd c (aerWrite dw v)
    else
      match (if c = 0 then pfWrite dw v s else (s, false)) with
      | (s, true) => s
      | (s, false) =>
        match cfgWord c dw with
        | some e => cfgHold c dw (v &&& e.rw) s
        | none => s

/-- A write of some bytes: those not written keep their value, in the status registers of AER they clear nothing. -/
def cfgPut (c dw v : Nat) (be : BitVec 4) (s : State) : State :=
  cfgWrite c dw (mergeBytes (if dw = 0x41 ∨ dw = 0x44 then 0 else cfgRead s c dw) v be) be s

/-- A configuration request of a function that is ready. -/
def cfgServe (c dw : Nat) (wr : Option (Word × BitVec 4)) (s : State) : State :=
  match wr with
  | some (v, be) => s |> cfgPut c dw v.toNat be |> emit (.cpl c 0 [])
  | none => emit (.cpl c 0 (leBytes 4 (cfgRead s c dw))) s

/-- A configuration request for dword `dw`: CRS before DRS, or to a virtual function before FRS; Unsupported Request where the function
is not enabled; else served. -/
def cfgRequest (c dw : Nat) (wr : Option (Word × BitVec 4)) (s : State) : State :=
  if ¬ (s.fn 0).ready then emit (.cpl c 3 []) s
  else if ¬ (s.fn c).enabled then emit (.cpl c 1 []) s
  else if ¬ (s.fn c).ready then emit (.cpl c 3 []) s
  else cfgServe c dw wr s

/-- R90: a configuration request. -/
def execConfigRequest (c dw : Fin 1024) (wr : Option (BitVec 32 × BitVec 4)) (s : State) : Result :=
  done (hostTlp c (.configRequest c dw wr) (inOrder c s.now (.configRequest c dw wr) (cfgRequest c dw wr)) s)

/-! ## The host link goes down (03 R53; 04 R99; 05 R115) -/

/-- The descriptors whose host-directed DMA is under way: a tag, or bytes on their way to host memory. -/
def hostDma (s : State) : List DKey :=
  ((s.hl.tags.filterMap fun t => match t.2.use with | .desc k _ _ | .ats _ (.desc k _) => some k | _ => none) ++
    s.cad.items.filterMap fun i => match i.work with | .descHost k _ _ _ => some k | _ => none).eraseDups

/-- A descriptor is aborted: it is never resumed and no completion entry is written for it. -/
def abortDesc (k : DKey) (s : State) : State :=
  s |> cancelDesc k |>.qpUpd k.c k.q fun p => { p with descs := p.descs.filter fun d => d.slot != k.slot || d.gen != k.gen }

/-- A request of the host is posted. -/
def postedReq : Instr → Bool
  | .registerWrite .. | .icPendSet .. | .icPendClr .. | .icEnSet .. | .icEnClr .. | .icEoi .. | .icHoldWrite .. | .ctxSelWdogWrite ..
  | .devDrainLimitWrite .. | .ctxWdogKickWrite .. | .cqEvtCfgWrite .. | .msixVectorUnmask .. | .mbxDoorbellGo .. | .doorbellWrite ..
  | .hostWriteBar2 .. | .hostWriteBar4 .. => true
  | _ => false

/-- Of the receive buffers the posted requests stay when the link goes down. -/
def rxPosted (s : State) : State :=
  s.hlUpd fun h => { h with rx := h.rx.filter fun e => match e.what with | .req i => postedReq i | .ans _ => false }

/-- Host reads are abandoned: nothing can be returned. -/
def dropAllHreads (s : State) : State :=
  let reads (x : ReqSrc) : Bool := match x with | .hostRead _ _ => true | _ => false
  s |> doAll s.hreads (fun r => hreadGone r)
    |> rxPosted
    |> dropItems (fun i => match i.work with | .hostRead _ | .hostData _ => true | _ => false)
    |> doAll [0, 1, 2, 3] (fun p s => s.lbUpd p fun l =>
        { l with egress := l.egress.filter (fun e => match e.src with | some x => !reads x | none => true),
                 reqs := l.reqs.map fun r => if reads r.src then { r with src := .nobody } else r })

/-- An upstream read that fails before its next host request is answered with a code. -/
def upFailed (p tag code : Nat) (s : State) : State :=
  match (s.lb p).ups.findIdx? fun u => u.tag == tag with
  | none => s
  | some i => s |> upUpd p i (fun u => { u with fail := u.fail.orElse fun _ => some code }) |> upSettle p i

/-- An upstream read whose host request is abandoned is answered NO_TARGET (08 Table 08-11). -/
def dropUpTags (l : List (Nat × HostTag)) (s : State) : State :=
  s |> doAll l (fun t s => match t.2.use with
    | .up p r off _ => upAnswered p r off (.error 3) s
    | .ats _ (.up p r) => upFailed p r 3 s
    | _ => s)

/-- The data link layer goes down (04 R99). HL_SDOWN.ABORTED counts the tags whose requests are not yet abandoned: quarantined and
retired ones were abandoned before (DESIGN CHOICE, log 210). WIDTH, TRAINED_WIDTH, SPEED and FLIT keep their last values, of which the
spec gives only SLOT_CAP a value while the link is down (DESIGN CHOICE, log 211). -/
def dlDown (s : State) : State :=
  let tags := s.hl.tags
  let dma := hostDma s
  let low : Bool := s.get Fld.HL_LINK_STATUS_LSTATE == 4 || s.get Fld.HL_LINK_STATUS_LSTATE == 5
  s |>.set Fld.HL_SDOWN_VALID 1 |>.set Fld.HL_SDOWN_ABORTED (min 2047 (tags.filter fun t => !t.2.quarantined).length)
    |>.set Fld.HL_SDOWN_TS_LO_STROKE_LO s.nowLo |>.set Fld.HL_SDOWN_TS_HI_STROKE_HI s.nowHi
    |>.set Fld.HL_LINK_STATUS_DL_UP 0
    |>.set Fld.HL_LINK_STATUS_LSTATE (if s.get Fld.HL_LINK_STATUS_LSTATE = 6 then 6 else 0) |>.set Fld.HL_LINK_STATUS_SLOT_CAP 0
    |> leaveL0 |> updC0Short
    |>.hlUpd (fun h => { h with down := some s.now, downReset := h.downReset || h.hot || s.dev.perst })
    |> doAll dma abortDesc
    |>.hlUpd (fun h => { h with tags := [] })
    |> updTags
    |> dropUpTags tags
    |> dropAllHreads
    |> setPtmValid false
    |>.hlUpd (fun h => { h with ptmWait := none })
    |> leftLow low
    |> raise 17

/-- R99: a data link layer down event. -/
def execDlDown (s : State) : Result :=
  done (if s.isSet Fld.HL_LINK_STATUS_DL_UP ∧ s.mode ≠ .preserve then dlDown s else s)

/-- The VF Enable writes that wait for the boundary are gone with the host link's reset (R53, R79). -/
def vfsDropped (s : State) : State :=
  { s with deferred := s.deferred.filter fun d => match d with | .vfs _ => false | _ => true }

/-- A trigger held in D3hot is lost with a host-link reset: counted once, in D3COLD (15 R383). -/
def coldHeld (s : State) : State :=
  s |> doAll (tabKeys s.held) (fun c s =>
    s.inc Fld.EV_DROP_D3COLD (popCount 64 (s.heldOf c).toNat) |>.setPba c (s.pbaOf c &&& ~~~s.heldOf c) |> dropHeld c)

/-- The context slots that are not IDLE. -/
def slotsInUse (s : State) : List Nat :=
  (tabKeys s.regs).filterMap fun a =>
    let m := 8 + (a - (mbxBase 8 + 0x0C)) / 65536
    if a = mbxBase m + 0x0C ∧ 9 ≤ m ∧ m < 1032 ∧ s.get (mbxState m) ≠ 0 then some m else none

/-- The effects of a host-link reset (03 Table 03-3, 05 Table 05-8, 16 R400). -/
def hostLinkReset (s : State) : State :=
  let s := s |> coldHeld |> doAll ((List.range 1024).filter fun c => c != 0 && (s.fn c).enabled) (vfGone 0) |> vfsDropped
  let pf : Fn := { enabled := true, ready := (s.fn 0).ready }
  fnTo 0 (fun _ => pf) s
    |> doIf s.hl.vfEnable (raise 27)
    |> barSizesReset
    |>.hlUpd (fun h =>
        { down := h.down, downReset := h.downReset, hot := h.hot, drsOwed := h.drsOwed, ats := h.ats, atsSeq := h.atsSeq,
          fec := h.fec })
    |> atsFlush |> updTags
    |>.set Fld.HL_ATS_STATUS_INVAL_PEND 0 |>.set Fld.HL_SRIOV_STATUS_ACTIVE_VFS 0
    |> setPtmValid false
    |> dropAllHreads
    |> doAll (List.range 1024) (fun c s =>
        if (s.ctx c).wfence = [] ∧ (s.ctx c).persist = [] then s else s.ctxUpd c fun x => { x with wfence := [], persist := [] })
    |> doAll ([0, 1, 2, 3] ++ slotsInUse s) mbxIdle
    |>.devUpd (fun d => { d with servingAt := none })
    |> doIf (decide (1 ≤ s.cst 0 ∧ s.cst 0 ≤ 5)) (ctxCause 0 false false false 5)

/-- R99, R53: the class of a down event, 200 strokes after it. -/
def execDlDownClassify (s : State) : Result :=
  done (match s.hl.down with
    | some t =>
      if s.since t < 200 ∨ s.mode = .preserve then s
      else
        let reset := s.hl.downReset
        let s := s.set Fld.HL_SDOWN_CLASS reset.toNat |>.hlUpd fun h => { h with down := none, downReset := false, hot := false }
        if reset then
          hostLinkReset s |> doIf (s.mode == .serving || s.mode == .standby) (addCause .linkReset)
        else if s.mode = .serving then addCause .surpriseDown s
        else if s.mode = .standby then hostLinkReset s
        else s
    | none => s)

/-! ## Ends of the device's requests (04 R85, R86, Table 04-7) -/

/-- How a completion ends a request: 0 successful, 1 Unsupported Request, 2 Completer Abort, 3 poisoned. -/
def cplAns (st : Nat) (data : List Byte) : Ans := if st = 0 then .ok data else if st = 3 then .code 2 else .hostFail

/-- A waiting upstream write is answered with a code, where it is acked, and leaves. -/
def upWriteFailed (id code : Nat) (s : State) : State :=
  match s.cad.items.find? fun i => i.id == id with
  | some i =>
    (match i.work with
      | .upWrite p _ (some t) _ _ _ => s |> dropItems (fun j => j.id == id) |> respOut p t code []
      | .upWrite _ _ none _ _ _ => dropItems (fun j => j.id == id) s
      | _ => s)
  | none => s

/-- A Translation Request fails: what asked for it fails as its request would (DESIGN CHOICE, log 151). -/
def askerFails (who : AtsFor) (a : Ans) (s : State) : State :=
  match who with
  | .desc k dst => descFail k (failOf dst a).1 (failOf dst a).2 s
  | .up p tag => upFailed p tag (if a = .code 2 then 2 else 1) s
  | .upWrite id => upWriteFailed id 1 s
  | .fetch c q => fetchFailed c q (fetchCount s c q) (failOf false a).1 s
  | .entry _ => s

/-- A translation without any permission: what asked for it is refused (04 Table 04-7; 06 R133, R475; 09 Table 09-2). -/
def askerDenied (who : AtsFor) (s : State) : State :=
  match who with
  | .desc k dst => hostDenied k dst s
  | .up p tag =>
    (match (s.lb p).ups.find? fun u => u.tag == tag with
      | some u => s |> upRefused p u.c 3 0 u.addr true |> upFailed p tag 1
      | none => s)
  | .upWrite id =>
    (match s.cad.items.find? fun i => i.id == id with
      | some i =>
        (match i.work with
          | .upWrite p c tag addr _ _ => s |> upRefused p c 3 0 addr.toNat tag.isSome |> upWriteFailed id 1
          | _ => s)
      | none => s)
  | .fetch c q => fetchFailed c q (fetchCount s c q) stDenied s
  | .entry _ => s

/-- What a completion, or its absence, does to the request's party. -/
def tagEnds (use : TagUse) (a : Ans) (s : State) : State :=
  match use with
  | .desc k off len =>
    answer (.desc k off len) 0 (match a with | .ok d => .ok (sliceBytes d 0 len) | x => x) s
  | .up p r off len =>
    upAnswered p r off (match a with | .ok d => .ok (sliceBytes d 0 len) | .code 2 => .error 2 | _ => .error 1) s
  | .ats _ who => askerFails who a s
  | .fetch _ => s

/-- A tag's request is a Translation Request. -/
def TagUse.isAts : TagUse → Bool
  | .ats _ _ => true
  | _ => false

/-- An Unexpected Completion is logged in the function that it names, or in function 0 where that one is not enabled. -/
def unexpected (c : Nat) (s : State) : State := aerAdvisory (if (s.fn c).enabled then c else 0) 16 28 s

/-- A completion to function `c` under a tag (04 R85); one that finds no request of the function, or a request abandoned, is an
Unexpected Completion. A successful one of a Translation Request is the row of its own. -/
def completion (c tag st : Nat) (data : List Byte) (s : State) : State :=
  match s.hl.tags.find? (tagIs c tag) with
  | none => unexpected c s
  | some (t, u) =>
    if u.quarantined then freeTags (tagIs c t) s |> unexpected c
    else if st = 0 ∧ u.use.isAts then s
    else freeTags (tagIs c t) s |> doIf (st == 3) (aerAdvisory c 12 28) |> tagEnds u.use (cplAns st data)

/-- R85: a completion of a device request. -/
def execDeviceRequestCompletion (c tag : Fin 1024) (st : Fin 4) (data : List Byte) (s : State) : Result :=
  done (hostTlp c (.deviceRequestCompletion c tag st data) (completion c tag st data) s)

/-- R85: a request is unanswered within the function's completion timeout; its tag is retired (Table 04-7, log 151). -/
def execDeviceRequestTimeout (c tag : Fin 1024) (s : State) : Result :=
  done (match s.hl.tags.find? (tagIs c tag) with
    | none => s
    | some (t, u) =>
      if u.quarantined ∨ ¬ tagTimedOut s u then s
      else s |> aerAdvisory u.ctx 14 31 |> retireTag c t |> tagEnds u.use .timeout)

/-- The translation that a context asked for: it fills the cache, or without any permission what asked for it is refused (04 R86).
One that nothing asked for is an Unexpected Completion. -/
def translated (c : Nat) (iova ta : Addr) (log2 : Nat) (r w u n g : Bool) (s : State) : State :=
  let page := atsPage iova.toNat
  match s.hl.tags.find? fun t => t.2.ctx == c && (match t.2.use with | .ats p _ => p == page | _ => false) with
  | none => unexpected c s
  | some (t, x) =>
    let s := freeTags (tagIs c t) s
    if x.quarantined then unexpected c s
    else if r || w then atsFill c page ta log2 r w u n g s
    else match x.use with | .ats _ who => askerDenied who s | _ => s

/-- R86: a Translation Completion. -/
def execAtsTranslationCompletion (c : Fin 1024) (iova ta : Addr) (log2 : Fin 53) (r w u n g : Bool) (s : State) : Result :=
  done (hostTlp c (.atsTranslationCompletion c iova ta log2 r w u n g) (translated c iova ta log2 r w u n g) s)

/-! ## BAR2 and BAR4 -/

/-- A request meets no function, or lies outside its BAR: nothing of the device claims it (04 R77, R90). -/
def outsideBar (s : State) (c off len log2Mib : Nat) : Bool := !(s.fn c).enabled || s.cst c == 0 || decide (2 ^ (20 + log2Mib) < off + len)

/-- log2 of a function's BAR2 and BAR4 in MiB. -/
def State.bar2 (s : State) (c : Nat) : Nat := if c = 0 then s.hl.pfBar2 else s.hl.vfBar2
def State.bar4 (s : State) (c : Nat) : Nat := if c = 0 then s.hl.pfBar4 else s.hl.vfBar4

/-- The class a host request to a window travels in, and whether it is a C0 request (07 R159, R166). -/
def hostClass (s : State) (c w len : Nat) (read : Bool) : Nat × Bool :=
  let cls := s.get (Fld.WIN_ATTR_CLASS c w)
  if cls = 0 then
    if len ≤ 256 ∧ s.weight c false 0 ≠ 0 ∧ (¬ read ∨ s.weight c true 0 ≠ 0) ∧ (s.ctx c).c0out < 8 then (0, true) else (2, false)
  else if s.weight c false cls = 0 ∨ (read ∧ s.weight c true cls = 0) then (2, false)
  else (cls, false)

/-- A C0 request beyond the eighth outstanding: counted, its source raised at most once per stroke (07 R166). -/
def c0Demote (c w len : Nat) (read : Bool) (s : State) : State :=
  if s.get (Fld.WIN_ATTR_CLASS c w) = 0 ∧ len ≤ 256 ∧ s.weight c false 0 ≠ 0 ∧ (¬ read ∨ s.weight c true 0 ≠ 0) ∧
      8 ≤ (s.ctx c).c0out then
    s.inc Fld.CAD_C0_DEMOTED_COUNT 1 |>.set Fld.CAD_C0_DEMOTED_CTX c
      |> doIf (!s.cad.demotedNow) (raise 260) |>.cadUpd (fun k => { k with demotedNow := true })
  else s

/-- A C0 request of a context begins. -/
def c0Begins (c : Nat) (c0 : Bool) (s : State) : State := doIf c0 (fun s => s.ctxUpd c fun x => { x with c0out := x.c0out + 1 }) s

/-- Bytes of a stranded entry that a read may be served, as offsets in the entry's block. -/
def strandedHit (x : Stranded) (laddr len : Nat) : List Nat :=
  (List.range x.data.length).filter fun i => decide (laddr ≤ x.laddr + i ∧ x.laddr + i < laddr + len) && !x.served.contains i

/-- A stranded entry serves what it holds of a read: the bytes, as pieces of the read, are marked (08 R205). -/
def strandedServe (p laddr len : Nat) (x : Stranded) (s : State) : State :=
  let hit := strandedHit x laddr len
  if hit.isEmpty then s
  else
    let y := { x with served := x.served ++ hit }
    if 256 ≤ y.served.length then srbRemove p x.e s |>.inc (Fld.LB_SRB_CNT_SERVED p) 1
    else s.lbUpd p (fun l => { l with srb := l.srb.map fun z => if z.e = x.e then y else z }) |> srbRegs p y

/-- The bytes that stranded entries of a context give a read: offsets in the read and values. -/
def strandedBytes (s : State) (p c laddr len : Nat) : List (Nat × List Byte) :=
  ((s.lb p).srb.filter fun x => x.c == c).flatMap fun x =>
    (strandedHit x laddr len).map fun i => (x.laddr + i - laddr, [x.data.getD i 0])

/-- The maximal runs of offsets below `len` that are in no list of offsets; those of a request longer than 256 bytes are split
at 256-byte-aligned local addresses (08 R199). -/
def restRuns (have_ : List Nat) (laddr len : Nat) : List (Nat × Nat) :=
  ((List.range len).filter fun i => !have_.contains i).foldl (fun l i =>
    match l.getLast? with
    | some (o, n) => if o + n = i ∧ (len ≤ 256 ∨ (laddr + i) % 256 ≠ 0) then l.dropLast ++ [(o, n + 1)] else l ++ [(i, 1)]
    | none => [(i, 1)]) []

/-- A prefetched block of the context that holds a whole read. -/
def prefetched (s : State) (p c laddr len : Nat) : Option PfBlock :=
  (s.lb p).pf.find? fun b => b.c == c && decide (b.laddr ≤ laddr ∧ laddr + len ≤ b.laddr + 256)

/-- A speculative read of a block waits or is under way. -/
def fetching (s : State) (p c w off : Nat) : Bool :=
  let me (x : ReqSrc) : Bool := match x with | .spec a b o => a == c && b == w && o == off | _ => false
  (s.cad.items.any fun i => match i.work with | .spec _ e => (match e.src with | some x => me x | none => false) | _ => false) ||
    ((s.lb p).egress.any fun e => match e.src with | some x => me x | none => false) || (s.lb p).reqs.any fun r => me r.src

/-- A read in a prefetchable window starts the speculative read of the next block (08 R203), unless the context itself has it buffered, or
fetches it for the same window (DESIGN CHOICE, log 217). -/
def speculate (c w woff len : Nat) (s : State) : State :=
  let p := s.winPort c w
  let la := (s.winLocal c w + woff + len - 1) / 256 * 256 + 256
  let off := la - s.winLocal c w
  if ¬ s.isSet (Fld.WIN_ATTR_PREFETCH c w) ∨ s.isSet (Fld.WIN_ATTR_ONCE c w) ∨ s.winSize c w < off + 256 ∨
      ((s.lb p).pf.any fun b => b.c == c && b.laddr == la) ∨ fetching s p c w off then s
  else
    addItem false c 3 p 0 false (.spec p { pkt := { op := 0, cls := 3, spec := true, len := 256, addr := la, ctx := c, win := w },
                                           src := some (.spec c w off), tmo := s.winTmo c w }) s

/-- A host read of a window that passed its check. One that sends no request, because buffers serve all of it, takes no
downward slot (DESIGN CHOICE, log 168), but waits as any read for the earlier posted writes of its function (04 R88). A
prefetched block that holds all of it serves it alone (DESIGN CHOICE, log 180). -/
def windowRead (c w woff len : Nat) (s : State) : State :=
  let p := s.winPort c w
  let la := s.winLocal c w + woff
  let s := c0Demote c w len true s
  let k := hostClass s c w len true
  let id := s.cad.nextId
  let got := match prefetched s p c la len with
    | some b => [(0, sliceBytes b.data (la - b.laddr) len)]
    | none => strandedBytes s p c la len
  let todo := restRuns (got.flatMap fun g => (List.range g.2.length).map (· + g.1)) la len
  let r : HRead := { id := id, c := c, bar := 2, w := w, port := p, laddr := la, off := woff, len := len, cls := k.1,
                     tmo := s.winTmo c w, c0 := k.2, todo := todo, spec := s.isSet (Fld.WIN_ATTR_PREFETCH c w), got := got,
                     pend := todo.length }
  let s := match prefetched s p c la len with
    | some b => s.lbUpd p fun l => { l with pf := l.pf.map fun y => if y = b then { y with used := s.now } else y }
    | none => s |> doAll ((s.lb p).srb.filter fun (x : Stranded) => x.c == c) (strandedServe p la len)
  let s := { s with hreads := s.hreads ++ [r] } |> c0Begins c k.2
  let s :=
    if ¬ todo.isEmpty then addItem false c k.1 p 0 true (.hostRead id) s
    else if writesAhead s c id then addWaiting false c 2 9 (.hostRead id) s
    else hreadSettle id s
  speculate c w woff len s

/-- R159, R202: a host read of BAR2. -/
def hostReadBar2 (c off len : Nat) (s : State) : State :=
  if outsideBar s c off len (s.bar2 c) then answerHost c [.cpl c 1 []] s
  else
    match hostStateRefuses s c with
    | some _ => refuseHostRead c 0 4 0 0 off len s
    | none =>
      match checkBar2 s c off len false with
      | (.noEntry, _) => if c = 0 then answerHost c (cplOuts s c off (List.replicate len 0)) s else refuseHostRead c 0 0 0 0 off len s
      | (.refused cause g, w) => refuseHostRead c 0 cause g w off len s
      | (.pass, w) => windowRead c w (off - s.winOff c w) len s

/-- R159: a host read of BAR2. -/
def execHostReadBar2 (c : Fin 1024) (off : BitVec 34) (len : Fin 4097) (s : State) : Result :=
  done (hostTlp c (.hostReadBar2 c off len) (hostReadBar2 c off.toNat len) s)

/-- A host write to a window that passed its check: it drops the prefetched blocks and stranded entries it overlaps. -/
def windowWrite (c w woff : Nat) (data : List Byte) (s : State) : State :=
  let p := s.winPort c w
  let la := s.winLocal c w + woff
  let s := c0Demote c w data.length false s
  let k := hostClass s c w data.length false
  s |> overwrite p la data.length |> c0Begins c k.2
    |> addItem false c k.1 p data.length true
        (.hostWrite c w (s.wseq c) woff p la (s.winTmo c w) (s.isSet (Fld.WIN_ATTR_ACKED c w)) k.2 data)

/-- R145: a host posted write to BAR2. -/
def hostWriteBar2 (c off : Nat) (data : List Byte) (s : State) : State :=
  if outsideBar s c off data.length (s.bar2 c) then s
  else
    let s := takeWseq c s
    match hostStateRefuses s c with
    | some true => refuseHostWrite c 1 4 0 0 off data.length s
    | some false => s
    | none =>
      match checkBar2 s c off data.length true with
      | (.noEntry, _) => if c = 0 then s else refuseHostWrite c 1 0 0 0 off data.length s
      | (.refused cause g, w) => refuseHostWrite c 1 cause g w off data.length s
      | (.pass, w) => windowWrite c w (off - s.winOff c w) data s

/-- R145, R252: a host posted write to BAR2. -/
def execHostWriteBar2 (c : Fin 1024) (off : BitVec 34) (data : List Byte) (s : State) : Result :=
  done (hostPosted c (.hostWriteBar2 c off data) (hostWriteBar2 c off.toNat data) s)

/-- R249: a host read of BAR4: a C2 item whose data is read when it is served. -/
def hostReadBar4 (c off len : Nat) (s : State) : State :=
  if outsideBar s c off len (s.bar4 c) then answerHost c [.cpl c 1 []] s
  else
    match hostStateRefuses s c with
    | some _ => refuseHostRead c 2 4 0 0 off len s
    | none =>
      match checkApt s (onlineApt s c) off len with
      | .noEntry => if c = 0 then answerHost c (cplOuts s c off (List.replicate len 0)) s else refuseHostRead c 2 0 0 0 off len s
      | .refused cause g => refuseHostRead c 2 cause g 0 off len s
      | .pass =>
        let id := s.cad.nextId
        let r : HRead := { id := id, c := c, bar := 4, w := 0, port := 0, laddr := 0, off := off, len := len, cls := 2, tmo := 0,
                           apt := (onlineApt s c).getD 0, pend := 1 }
        { s with hreads := s.hreads ++ [r] } |> addItem false c 2 8 0 true (.hostRead id)

/-- R249: a host read of BAR4. -/
def execHostReadBar4 (c : Fin 1024) (off : BitVec 36) (len : Fin 4097) (s : State) : Result :=
  done (hostTlp c (.hostReadBar4 c off len) (hostReadBar4 c off.toNat len) s)

/-- R252: a host posted write to BAR4 is held in the staging buffer until it is admitted. -/
def hostWriteBar4 (c off : Nat) (data : List Byte) (s : State) : State :=
  if outsideBar s c off data.length (s.bar4 c) then s
  else
    match hostStateRefuses s c with
    | some true => refuseHostWrite c 3 4 0 0 off data.length s
    | some false => s
    | none =>
      match checkApt s (onlineApt s c) off data.length with
      | .noEntry => if c = 0 then s else refuseHostWrite c 3 0 0 0 off data.length s
      | .refused cause g => refuseHostWrite c 3 cause g 0 off data.length s
      | .pass =>
        let n := (s.ctx c).wseq4 + 1
        s.ctxUpd c (fun x => { x with wseq4 := n }) |> addItem false c 2 8 data.length true (.staged c n ((onlineApt s c).getD 0) off data)
          |> updStage

/-- R252: a host posted write to BAR4. -/
def execHostWriteBar4 (c : Fin 1024) (off : BitVec 36) (data : List Byte) (s : State) : Result :=
  done (hostPosted c (.hostWriteBar4 c off data) (hostWriteBar4 c off.toNat data) s)

end Sys2Proof.Machine
end

