-- ==== Sys2Proof/Machine/Receive.lean ====
section
/-! DEFINITION. Machine/Receive.lean: the receive buffers of the host link: requests that wait for their turn, or that came in Rest, are
processed at a stroke boundary (04 R88; 17 R423, R429). -/
namespace Sys2Proof.Machine

/-- A register write of the host that waited: of one that came in Rest (`rest`) what its receipt does. -/
def hostPut (rest : Bool) (t : Stroke) (c : Fin 1024) (a : Nat) (i : Instr) (f : State → State) (s : State) : State :=
  if rest then hostWriteReg t c a i f s else doIf (s.fn c).enabled (stampedAs t f) s

/-- The same of a whole word of a register. -/
def hostPutWord (rest : Bool) (t : Stroke) (i : Instr) (m : Master) (a v : Nat) (s : State) : State :=
  match m with | .host c => hostPut rest t c a i (putWord m a v) s | _ => s

/-- A request that came in Rest takes its turn as if it were received now. -/
def hostTurn (rest : Bool) (t : Stroke) (i : Instr) (c : Nat) (f : State → State) (s : State) : State :=
  if rest then inOrder c t i f s else f s

/-- A register read of the host that waited. -/
def hostGet (rest : Bool) (t : Stroke) (i : Instr) (m : Master) (a : Nat) (be : BitVec 8) (wide : Bool) (s : State) : State :=
  match m with
  | .host c => if rest then hostReadReg t c a be wide i s else regServe m a be wide s
  | _ => s

/-- A request of the host that waited since stroke `t` is processed: one that came in Rest as if it were received now, but for its
stamp, the others with the effect of their row. -/
def hostServe (rest : Bool) (t : Stroke) (i : Instr) (s : State) : State :=
  match i with
  | .registerRead m a be wide => hostGet rest t i m (accessAt a.toNat wide) be wide s
  | .cadStrokeLoRead m => hostGet rest t i m 0x280000 15 false s
  | .icClaim m _ => hostGet rest t i m 0x700A00 15 false s
  | .registerWrite (.host c) a be wide v met =>
    hostPut rest t c (accessAt a.toNat wide) i (putRegister (.host c) (accessAt a.toNat wide) be wide v met) s
  | .icPendSet m w bits => hostPutWord rest t i m (0x700040 + 4 * w) bits.toNat s
  | .icPendClr m w bits _ _ => hostPutWord rest t i m (0x700080 + 4 * w) bits.toNat s
  | .icEnSet m w bits _ => hostPutWord rest t i m (0x700100 + 4 * w) bits.toNat s
  | .icEnClr m w bits => hostPutWord rest t i m (0x700140 + 4 * w) bits.toNat s
  | .icEoi m src => hostPutWord rest t i m 0x700A04 src.toNat s
  | .icHoldWrite m g strokes => hostPutWord rest t i m (0x700900 + 4 * g) strokes.toNat s
  | .ctxSelWdogWrite m v => hostPutWord rest t i m 0x180008 v.toNat s
  | .devDrainLimitWrite m v => hostPutWord rest t i m 0x100030 v.toNat s
  | .registerAnswerTimeout (.host c) a write => hostTurn rest t i c (hungAccess (.host c) (accessAt a.toNat false) write) s
  | .ctxWdogKickWrite c => hostTurn rest t i c (wdogKicked c) s
  | .doorbellWrite c q tail head => hostTurn rest t i c (doorbellAt t c q tail head) s
  | .mbxDoorbellGo mb => hostTurn rest t i (mbxFn mb) (mbxGoHost t mb) s
  | .cqEvtCfgWrite c q v => hostTurn rest t i c (cqEvtWrite c q v) s
  | .msixVectorUnmask c v => hostTurn rest t i c (unmask c v) s
  | .configRequest c dw wr => hostTurn rest t i c (cfgRequest c dw wr) s
  | .barSizeWrite vf bar4 log2 => hostTurn rest t i 0 (barSizeWrite vf bar4 log2) s
  | .busMasterEnableWrite c v => hostTurn rest t i c (bmeWrite c v) s
  | .pmcsrWrite c d3 pmeEn clr => hostTurn rest t i c (pmcsrPut c d3 pmeEn clr) s
  | .vfEnableSet n ari => hostTurn rest t i 0 (vfSet n.toNat ari) s
  | .vfEnableClear => hostTurn rest t i 0 vfUnset s
  | .flrReceived c => hostTurn rest t i c (flr c) s
  | .hostUnsupportedRequest k => unsupported k s
  | .pmeTurnOff => turnOff s
  | .atsInvalidationRequest c iova log2 itag => atsInvalidate c iova log2 itag s
  | .atsTranslationCompletion c iova ta log2 r w u n g => translated c iova ta log2 r w u n g s
  | .deviceRequestCompletion c tag st data => completion c tag st data s
  | .ctxPersistRead c => persistRead c 15 none s
  | .ctxWfenceRead c => wfenceRead c 15 s
  | .hostReadBar2 c off len => hostReadBar2 c off.toNat len s
  | .hostWriteBar2 c off data => hostWriteBar2 c off.toNat data s
  | .hostReadBar4 c off len => hostReadBar4 c off.toNat len s
  | .hostWriteBar4 c off data => hostWriteBar4 c off.toNat data s
  | _ => s

/-- What an entry of the receive buffers does: an answer goes out, a request is processed. -/
def rxRun (e : RxReq) (s : State) : State :=
  match e.what with
  | .ans l => doAll l emit s
  | .req i => hostServe e.rest e.at_ i s

/-- An entry of the receive buffers leaves them, ahead of what stays behind it. -/
def rxTake (e : RxReq) (s : State) : State :=
  let kept := s.hl.rx.filter fun x => x.id != e.id
  s.hlUpd (fun h => { h with rx := [] })
    |> rxRun e
    |>.hlUpd fun h => { h with rx := h.rx ++ kept }

/-- An entry may be taken: it is the oldest of its function, and no earlier posted write of the function waits (04 R88). -/
def rxMay (s : State) (e : RxReq) : Bool :=
  (s.hl.rx.find? fun x => x.c == e.c) == some e && !writesAhead s e.c e.id

/-- The receive buffers at a boundary, oldest first; nothing is taken while the device rests. -/
def rxServe (s : State) : State := if s.resting then s else s |> doAll s.hl.rx (fun e s => if rxMay s e then rxTake e s else s)

end Sys2Proof.Machine
end

