-- ==== Sys2Proof/Machine/Boundary.lean ====
section
/-! DEFINITION. Machine/Boundary.lean: the stroke boundary: what ends with a stroke, the count, what takes effect with the
next, the slots of the cadence and what moves in them (07 R152 to R170; 03 R60; 05 R105, R110, R116, R122; 06 R128, R141;
08 R193, R195; 09 R217; 15 R368, R377, R381; 16 R395; 17 R426). -/
namespace Sys2Proof.Machine

/-! ## Which item may take a slot (07 R165; 08 R193, R195) -/

/-- The port behind whose earlier upstream writes an upward item stays: of an upstream write its own; while RSP_PASS is 0,
of data that a local agent answered with, the agent's (08 R195). -/
def portFrom (s : State) (w : Work) : Option Nat :=
  let answered (p : Nat) : Option Nat := if s.isSet (Fld.LB_CTL_RSP_PASS p) then none else some p
  match w with
  | .upWrite p _ _ _ _ _ => some p
  | .hostData id =>
    match s.hreads.find? fun r => r.id == id with
    | some r => if r.bar = 2 then answered r.port else none
    | none => none
  | .descHost k _ _ _ =>
    match s.desc? k with
    | some d => (match d.raw with | some r => if r.srcKind = 1 then answered d.swin.port else none | none => none)
    | none => none
  | _ => none

/-- A posted write of the host that waits. -/
def Item.isWrite (i : Item) : Bool :=
  match i.work with
  | .hostWrite _ _ _ _ _ _ _ _ _ _ | .staged _ _ _ _ _ => true
  | _ => false

/-- A read of the host that is no C0 request: it stays behind every earlier posted write of its function (04 R88). A C0 read stays
behind those to its own port, by which 08 R193 keeps R88, and spends the C0 slots of the port on no other (01 R15; DEDUCED, log
51). -/
def Item.readWaits (i : Item) : Bool := match i.work with | .hostRead _ => i.cls != 0 | _ => false

/-- Item `j` goes before item `i`: an earlier host request of the same context to the same target (08 R193), of a host read that is not
C0 any earlier posted write of its function (04 R88), of a routed item an earlier one of the same way (10 R242; log 184), or an
earlier upstream write that `i` stays behind (08 R195). -/
def goesBefore (s : State) (i j : Item) : Bool :=
  decide (j.id < i.id ∧ 0 < j.left) && j.up == i.up &&
    (if i.up then
      match portFrom s i.work, j.work with
      | some p, .upWrite q _ _ _ _ _ => p == q
      | _, _ => false
    else
      (i.host && j.host && i.ctx == j.ctx && (i.tgt == j.tgt || (i.readWaits && j.isWrite))) ||
        (match i.work, j.work with
          | .descLocal p e, .descLocal q f => p == q && e.origin.isSome && e.origin == f.origin
          | .message m, .message x => sameWay x m
          | _, _ => false))

/-- The item that a C0 slot of item `i` moves: the first that goes before it, or itself. -/
def front (s : State) (i : Item) : Item := (s.cad.items.find? (goesBefore s i)).getD i

/-- No item goes before it. -/
def mayGo (s : State) (i : Item) : Bool := !s.cad.items.any (goesBefore s i)

/-- Items of a direction and class that wait for slots, oldest first; of a target where one is given. -/
def waiting (s : State) (up : Bool) (cls : Nat) (tgt : Option Nat) : List Item :=
  s.cad.items.filter fun i =>
    i.up == up && i.cls == cls && decide (0 < i.left) && (match tgt with | some t => i.tgt == t | none => true)

/-- The oldest item of each context: items of one context and class are taken in arrival order. -/
def heads (l : List Item) : List Item := l.filter fun i => (l.find? fun j => j.ctx == i.ctx).map (·.id) == some i.id

/-! ## Deficits (07 R164) -/

/-- Place of a deficit by direction, class and context. -/
def deficitKey (up : Bool) (cls c : Nat) : Nat := (up.toNat * 4 + cls) * 1024 + c

/-- A deficit in sixteenths of a slot. -/
def State.deficit (s : State) (up : Bool) (cls c : Nat) : Nat := tabGet (fun _ => 0) s.cad.deficit (deficitKey up cls c)

/-- R164: the deficits at a boundary. -/
def updDeficits (s : State) : State :=
  let next (i : Item) : Nat :=
    let w := s.weight i.ctx i.up i.cls
    if w = 0 then 0 else min (s.deficit i.up i.cls i.ctx + w) (max (2 * w) 32)
  s.cadUpd fun k =>
    { k with deficit := (s.cad.items.filter fun i => decide (0 < i.left)).foldl (fun t i =>
        tabSet (fun _ => 0) t (deficitKey i.up i.cls i.ctx) (next i)) [] }

/-! ## The slots (07 R165) -/

/-- How far a context lies behind the rotating pointer of a direction and class. -/
def behind (s : State) (up : Bool) (cls c : Nat) : Nat := (c + 1024 - tabGet (fun _ => 0) s.cad.ptr (up.toNat * 4 + cls)) % 1024

/-- The first item of a list by the rotating pointer. -/
def nextByPtr (s : State) (up : Bool) (cls : Nat) (l : List Item) : Option Item :=
  l.foldl (fun b i =>
    match b with
    | none => some i
    | some x => if behind s up cls i.ctx < behind s up cls x.ctx then some i else some x) none

/-- What a slot is given to: the number of the item; and of a pass over contexts, its class, its context and whether its
deficit pays. -/
abbrev Pick := Option (Nat × Option (Nat × Nat × Bool))

/-- C0 items that a C0 slot may serve, oldest first: those that wait for slots, and a C0 answer without data behind which
earlier writes still wait (08 R195). -/
def c0Waits (s : State) (up : Bool) (tgt : Option Nat) : List Item :=
  s.cad.items.filter fun i =>
    i.up == up && i.cls == 0 && (match tgt with | some t => i.tgt == t | none => true) && (decide (0 < i.left) || !mayGo s i)

/-- The C0 passes of a slot: a context with a deficit, else the oldest C0 item. -/
def pickC0 (s : State) (up : Bool) (tgt : Option Nat) : Pick :=
  let l := c0Waits s up tgt
  match nextByPtr s up 0 ((heads l).filter fun i => decide (16 ≤ s.deficit up 0 i.ctx)) with
  | some i => some ((front s i).id, some (0, i.ctx, true))
  | none => l.head?.map fun i => ((front s i).id, none)

/-- A pass of class C1, C2 or C3: over contexts with a deficit, or with a weight. -/
def pickClass (s : State) (up : Bool) (cls : Nat) (deficit : Bool) : Pick :=
  let ok (i : Item) : Bool :=
    mayGo s i && (if deficit then decide (16 ≤ s.deficit up cls i.ctx) else s.weight i.ctx up cls != 0)
  (nextByPtr s up cls ((heads (waiting s up cls none)).filter ok)).map fun i => (i.id, some (cls, i.ctx, deficit))

/-- Age promotion: the oldest item that has waited CAD_AGE strokes. -/
def pickAged (s : State) (up : Bool) : Pick :=
  (s.cad.items.find? fun i => i.up == up && decide (0 < i.left ∧ s.get Fld.CAD_AGE_AGE ≤ s.since i.since)).map
    fun i => (i.id, none)

/-- R165: what a slot with an entry is given to. -/
def pickSlot (s : State) (up : Bool) (e : BitVec 8) : Pick :=
  let own : Pick :=
    match entryCls e with
    | 0 => pickC0 s up (if up then none else some (entryTgt e))
    | 1 => pickClass s up 1 true
    | _ => none
  own <|> pickAged s up <|> pickClass s up 2 true <|> pickClass s up 2 false <|> pickClass s up 3 true <|> pickClass s up 3 false

/-- A slot is given: the item has one less to wait for, the deficit pays, the pointer passes the context. -/
def giveSlot (up : Bool) (id : Nat) (pay : Option (Nat × Nat × Bool)) (s : State) : State :=
  s.cadUpd (fun k =>
      { k with items := k.items.map fun i => if i.id = id then { i with left := i.left - 1, first := true } else i })
    |> fun s => match pay with
      | none => s
      | some (cls, c, d) =>
        s.cadUpd fun k =>
          { k with ptr := tabSet (fun _ => 0) k.ptr (up.toNat * 4 + cls) ((c + 1) % 1024),
                   deficit := if d then tabSet (fun _ => 0) k.deficit (deficitKey up cls c) (s.deficit up cls c - 16) else k.deficit }

/-- Slots a direction can fill in a stroke: upward no more than the host link carries (07 R158). -/
def slotsOpen (s : State) (up : Bool) : Nat :=
  if up ∧ s.linkUp then s.get Fld.HL_LINK_STATUS_SLOT_CAP else slotsOf s.level

/-- Slots that the C0 items of a direction wait for, their own and those of the earlier writes that move in C0 slots for them (08
R195). -/
def wantC0 (s : State) (up : Bool) : Nat :=
  let c0 := c0Waits s up none
  ((s.cad.items.filter fun i => i.up == up && (i.cls == 0 || c0.any fun j => goesBefore s j i)).map fun i => i.left).sum

/-- An entry that no C0 item takes is given away only where the `room` left on the host link is more than what the C0
entries to come will take: C0 has strict precedence there (07 R158, R167; log 51). -/
def slotSpare (s : State) (e : BitVec 8) (rest : List (BitVec 8)) (room : Nat) : Bool :=
  (entryCls e == 0 && (pickC0 s true none).isSome) || decide (wantC0 s true < room) ||
    decide ((rest.filter fun e => entryCls e == 0).length < room)

/-- The walk over the entries of a direction; the number is that of the slots given. -/
def walkList (up : Bool) (cap : Nat) : List (BitVec 8) → State × Nat → State × Nat
  | [], x => x
  | e :: es, x =>
    if cap ≤ x.2 then x
    else
      match pickSlot x.1 up e with
      | some (id, pay) =>
        if up && !slotSpare x.1 e es (cap - x.2) then walkList up cap es x
        else walkList up cap es (giveSlot up id pay x.1, x.2 + 1)
      | none => walkList up cap es x

/-- The walk over the active list of a direction at the current level. -/
def walkSlots (up : Bool) (s : State) : State × Nat := walkList up (slotsOpen s up) (s.active up s.level) (s, 0)

/-- Strokes in a row whose upward use stayed below L0P_UTIL percent of the link slot capacity (04 R92). -/
def noteUse (used : Nat) (s : State) : State :=
  let low : Bool := decide (100 * used < s.get Fld.HL_LPM_CTL_L0P_UTIL * s.get Fld.HL_LINK_STATUS_SLOT_CAP)
  s.hlUpd fun h => { h with lowUse := if low then min 2000 (h.lowUse + 1) else 0 }

/-! ## What an item does once it has its slots -/

/-- The item leaves the cadence. -/
def dropItem (id : Nat) (s : State) : State := dropItems (fun i => i.id == id) s

/-- A packet joins a port's egress; a port that is not ACTIVE ends it before issue (08 R209). -/
def toEgress (p : Nat) (e : Egr) (s : State) : State :=
  if s.lbActive p then s.lbUpd p fun l => { l with egress := l.egress ++ [e] } else endEgr p e s

/-- Packets of a host request join a port's egress; earlier host packets of the context there go with a C0 request (08
R193). -/
def hostEgress (p c cls : Nat) (l : List Egr) (s : State) : State :=
  s |> doIf (cls == 0 && s.lbActive p) (·.lbUpd p fun x =>
        { x with egress := x.egress.map fun e => if e.host = some c then { e with pkt := { e.pkt with cls := 0 } } else e })
    |> doAll l (toEgress p)

/-- The commit point of a descriptor passes, once (06 R141). -/
def commits (k : DKey) (s : State) : State := s.descUpd k fun d => { d with commit := d.commit.orElse fun _ => some s.now }

/-- A descriptor's packet toward a port: a COPY or FILL commits with its first destination write. -/
def descEgress (p : Nat) (e : Egr) (s : State) : State :=
  match e.src with
  | some (.desc k _ _) => s |> doIf (s.lbActive p && (e.pkt.op == 1 || e.pkt.op == 2)) (commits k) |> toEgress p e
  | _ => toEgress p e s

/-- A request of a descriptor to a peer leaves on a link. -/
def descToPeer (link : Nat) (k : DKey) (off len : Nat) (m : UMsg) (s : State) : State :=
  let s := sendReq link (.desc k off len) m s
  if m.mtype = 2 then s
  else s |> commits k |> doIf (m.mtype == 5) (·.descUpd k fun d => { d with ended := true }) |> descIssued k len true

/-- Destination bytes of a descriptor leave on the host link at the translations kept from its check, with the attributes of
R84; the original value of an ATOMIC is written to SRC and counts no bytes. -/
def descToHost (id : Nat) (k : DKey) (addr : Addr) (data : List Byte) (s : State) : State :=
  let atomic : Bool := match s.desc? k with | some d => d.op == 5 | none => false
  let kept : Pages := match s.desc? k with | some d => if atomic then d.spages else d.dpages | none => none
  if ¬ s.hostOpen k.c then s
  else
    s |> dropItem id
      |> hostWriteVia (keptAddr kept) k.c addr.toNat data (s.fn k.c).ero ((s.fn k.c).ens && s.isSet (Fld.QP_CFG_NOSNOOP k.c k.q))
      |> (if atomic then fun s => s.descUpd k fun d => { d with wpend := d.wpend - data.length }
          else fun s => s |> commits k |> descIssued k data.length false)

/-- What a waiting upstream write keeps of its translations. -/
def keepPages (id : Nat) (kept : Pages) (s : State) : State :=
  s.cadUpd fun k => { k with items := k.items.map fun i =>
    if i.id = id then { i with work := match i.work with | .upWrite p c t a _ d => .upWrite p c t a kept d | w => w } else i }

/-- An upstream write leaves on the host link, or is answered (08 R206, Table 08-11). -/
def upWriteOut (id p c : Nat) (tag : Option Nat) (addr : Addr) (kept : Pages) (data : List Byte) (s : State) : State :=
  let reply (code : Nat) (s : State) : State := match tag with | some t => respOut p t code [] s | none => s
  if upCannot s c then s |> dropItem id |> reply 3
  else
    match findPages (.upWrite id) c kept addr.toNat data.length true s with
    | (s, kept, .wait) => keepPages id kept s
    | (s, _, .denied) => s |> dropItem id |> upRefused p c 3 0 addr.toNat tag.isSome |> reply 1
    | (s, kept, .go) => s |> dropItem id |> hostWriteVia (keptAddr kept) c addr.toNat data false false |> reply 0

/-- The aperture bytes a host read takes: writes of the function that wait for admission count as written (04 R88). -/
def bar4Bytes (s : State) (a : Nat) (r : HRead) : List Byte :=
  (s.ds.wait.filter fun w => w.apt == a && hostWr r.c (s.ctx r.c).wseq4 w.src).foldl (fun l w =>
    (List.range r.len).map fun i =>
      if w.off ≤ r.off + i ∧ r.off + i < w.off + w.data.length then w.data.getD (r.off + i - w.off) 0 else l.getD i 0)
    (aptBytes s a r.off r.len)

/-- A host read of BAR4 is served from the aperture it was checked against (09 R217); uncorrectable or LOST data is returned
poisoned, with an advisory (11 R249). -/
def bar4Serve (r : HRead) (s : State) : State :=
  if ¬ s.aptValid r.apt then hreadAns r.id 0 .notIssued s
  else
    match badAt s r.apt r.off r.len with
    | some u => s |> hreadAns r.id 0 (.media u) |> aerCor r.c 13
    | none => s |> lookupAll r.apt r.off r.len |> hreadAns r.id 0 (.ok (bar4Bytes s r.apt r))

/-- The request of a host read goes on: packets for its port, or the bytes of its aperture; one that buffers served settles. -/
def hostReadGoes (id cls : Nat) (s : State) : State :=
  match s.hreads.find? fun r => r.id == id with
  | none => s
  | some r => if r.bar = 4 then bar4Serve r s else if r.pend = 0 then hreadSettle id s else hostEgress r.port r.c cls (hostReadPkts r cls) s

/-- The data of a host read, or the completion that says how it failed, leaves the host link. -/
def hostDataGoes (id : Nat) (s : State) : State :=
  match s.hreads.find? fun r => r.id == id with
  | none => s
  | some r =>
    match r.fail with
    | some (at_, x) => hreadFailed r at_ x s
    | none => s |> hreadGone r |> cplData r.c r.off (gather r.len r.got)

/-- A mirror copy leaves for the partner (11 R260). -/
def mirrorGoes (link n : Nat) (s : State) : State :=
  match s.ds.copies.find? fun x => x.n == n with
  | none => s
  | some x =>
    s |> sendReq link (.mirror n) x.msg
      |>.dsUpd fun d => { d with copies := d.copies.map fun y => if y.n = n then { y with sent := some s.now } else y }

/-- An item that has its slots is moved; data for host memory may still wait for the link, a translation, or earlier
writes of its port (08 R195). -/
def moveItem (i : Item) (s : State) : State :=
  let behindWrites : Bool := match portFrom s i.work with | some p => !upWritesIssued s p i.id | none => false
  match i.work with
  | .hostWrite c w seq off port laddr tmo acked c0 data =>
    s |> dropItem i.id
      |> hostEgress port c i.cls (hostWritePkts c w seq off laddr tmo acked c0 i.cls data)
  | .hostRead id => if i.tgt = 9 ∧ writesAhead s i.ctx i.id then s else s |> dropItem i.id |> hostReadGoes id i.cls
  | .hostData id => if behindWrites then s else s |> dropItem i.id |> hostDataGoes id
  | .staged c n apt off data => s |> dropItem i.id |> waitAdmission ⟨.host c n, apt, off, data⟩
  | .descLocal p e => s |> dropItem i.id |> descEgress p e
  | .descPeer k off len m => if tagsOut s (i.tgt - 4) then s else s |> dropItem i.id |> descToPeer (i.tgt - 4) k off len m
  | .descHost k _ addr data => if behindWrites then s else descToHost i.id k addr data s
  | .descDur k _ a at_ data => s |> dropItem i.id |> commits k |> waitAdmission ⟨.desc k data.length, a, at_, data⟩
  | .spec p e => s |> dropItem i.id |> doIf (s.lbActive p) (toEgress p e)
  | .upWrite p c tag addr kept data => if behindWrites then s else upWriteOut i.id p c tag addr kept data s
  | .upData p tag data => s |> dropItem i.id |> doIf (s.lbActive p) (respOut p tag 0 data)
  | .peerDur m a => s |> dropItem i.id |> peerStoreRun m a
  | .mirror n => if tagsOut s (i.tgt - 4) then s else s |> dropItem i.id |> mirrorGoes (i.tgt - 4) n
  | .message m => s |> dropItem i.id |> sendMsg (i.tgt - 4) m
  | .routed _ => dropItem i.id s

/-- Routed items that have what they wait for: toward a queue pair their first slot, toward a peer all their slots (10
R239, R242). -/
def readyRouted (s : State) : State :=
  let got (r : RItem) : Bool := s.cad.items.any fun i =>
    i.work == .routed r.id && (if routePeer r.route then i.left == 0 else i.first)
  { s with ritems := s.ritems.map fun r => if got r then { r with ready := true } else r }

/-- An upward item stays behind an earlier upstream write (08 R195). -/
def staysBehind (s : State) (i j : Item) : Bool :=
  decide (j.id < i.id) && (match portFrom s i.work, j.work with | some p, .upWrite q _ _ _ _ _ => p == q | _, _ => false)

/-- The items that have their slots, in the order in which they move: first the C0 items for the host link, which leave ahead of every
other TLP (07 R167), and the earlier upstream writes that they stay behind; then the others, each in order of arrival. -/
def moveOrder (s : State) : List Nat :=
  let got := s.cad.items.filter fun i => i.left == 0
  let c0 := got.filter fun i => i.up && i.cls == 0
  let urgent (i : Item) : Bool := i.up && (i.cls == 0 || c0.any fun j => staysBehind s j i)
  (got.filter urgent ++ got.filter fun i => !urgent i).map (·.id)

/-- Items that have their slots move; items for a queue pair are tested as they get their first (10 R239). -/
def moveItems (s : State) : State :=
  s |> readyRouted |> testRouted
    |> doAll (moveOrder s) (fun id s =>
      match s.cad.items.find? fun i => i.id == id with
      | some i => moveItem i s
      | none => s)

/-- R165: the slots of a stroke and what moves in them. -/
def slots (s : State) : State :=
  if s.cad.items.isEmpty then s |> updDeficits |> testRouted |> noteUse 0
  else
    let (s, used) := s |> updDeficits |> walkSlots false |> (·.1) |> walkSlots true
    s |> noteUse used |> moveItems

/-! ## Registers in force from a boundary on -/

/-- Guard and peer-rule registers (09 Tables 09-16 and 09-17). -/
def accRule (a : Nat) : Bool := decide (Adr.ACC_GUARD_BASE_LO 0 ≤ a ∧ a < Adr.ACC_PEER0 64)

/-- R217: a change of a guard or peer rule takes effect, and raises source 273. -/
def guardsInForce (s : State) : State :=
  let want := tabKeep accRule s.regs
  if tabKeep accRule s.inForce = want then s
  else
    { s with inForce := want.foldl (fun t e => tabSet resetOf t e.1 e.2) (tabKeep (fun a => !accRule a) s.inForce) } |> raise 273

/-- An attachment takes effect, unless the context or the aperture changed since (11 Table 11-1). The partner of a home context learns
of a mirrored one, for which it makes the standby aperture, and of its detachment (14 R356; logs 188, 230). -/
def attachNow (a c cmd : Nat) (s : State) : State :=
  if s.live c ∧ (s.ctx c).apt.isNone ∧ s.aptValid a ∧ (s.aptCtx a).isNone then
    aptAttach a c s |> doIf (s.mirror a != 0) (tandemTell c 1) |> cmdDone cmd 0 (leBytes 6 s.now.toNat)
  else cmdDone cmd 1 [] s

/-- A detachment takes effect; the partner of a home context learns of that of a mirrored aperture. -/
def detachNow (a cmd : Nat) (s : State) : State :=
  let told := if s.mirror a ≠ 0 then s.aptCtx a else none
  aptDetach a s |> (fun s => match told with | some c => tandemTell c 1 s | none => s) |> cmdDone cmd 0 (leBytes 6 s.now.toNat)

/-- A deferred change takes effect; a detachment waits while a write to the aperture waits. -/
def applyDeferred (d : Deferred) (s : State) : State :=
  match d with
  | .cqEvt c q v => cqEvtApply c q v s
  | .qpOff c q => qpOff c q s
  | .winMap c w => winMapApply c w s
  | .winUnmap c w => winUnmapApply c w s
  | .winAttr c w v => winAttrApply c w v s
  | .aptAttach a c cmd => attachNow a c cmd s
  | .aptDetach a cmd =>
    if aptWaiting s a then { s with deferred := s.deferred ++ [d] }
    else detachNow a cmd s
  | .budget mib => s.set Fld.DS_BUDGET_MIB mib |>.dsUpd (fun x => { x with cfgMib := mib }) |> updBudget
  | .holdup mj => s.set Fld.DS_HOLDUP_MJ mj |>.dsUpd (fun x => { x with cfgMj := mj }) |> updBudget
  | .route a v =>
    { s with inForce := tabSet resetOf (tabSet resetOf s.inForce a (v.setWidth 32)) (a + 4) ((v >>> 32).setWidth 32) }
  | .vfs n => vfsCreate n s
  | .engineFence e j => engineFence e j s
  | .ctxMoved c => doIf (s.cst c != 7) (ctxMoved c) s
  | .ctxLive c gen => doIf (s.cst c == 6) (goLive c gen false) s
  | .standbyReset c => doIf (s.cst c == 6) (ctxClear c) s
  | .fuse id lapse bad got => fuseEnd id lapse bad got s
  | .drainEnd _ | .squashEnd _ | .quiesce _ | .drainStart _ | .shareNow _ | .commit | .levelNow | .lost _ | .fence | .failover _
  | .abortEnd _ _ | .serving | .drainLimit | .photo => s

/-- Every deferred change, in the order of the writes. -/
def applyAllDeferred (s : State) : State := { s with deferred := [] } |> doAll s.deferred applyDeferred |> guardsInForce

/-! ## Counters of strokes -/

/-- The stroke timers count down, in Rest too, which their sources may end (15 R368, Table 15-5). -/
def strokeTimers (s : State) : State :=
  s |> doAll [0, 1, 2, 3] (fun t s => doIf (s.isSet (Fld.IC_TMR_CTL_EN t)) (·.dec (Fld.IC_TMR_CNT_REMAIN t) 1) s)

/-- Stroke timers, hold-offs and coalescing timers count down (15 R368, R377, R381). -/
def countTimers (s : State) : State :=
  strokeTimers s
    |> doAll (List.range 32) (fun g s =>
        if s.isSet (Fld.IC_HOLD_RUNNING g) then
          { s with holdLeft := tabSet (fun _ => 0) s.holdLeft g (tabGet (fun _ => 0) s.holdLeft g - 1) }
        else s)
    |> doAll s.ctxIds (fun c s => s |> doAll (List.range 64) (fun q s =>
        doIf (s.isSet (Fld.CQ_EVT_STATUS_TIMER_RUN c q)) (·.dec (Fld.CQ_EVT_STATUS_REMAIN c q) 1) s))

/-- R122: the watchdog of a context counts in the strokes of Table 05-11; at 0 it stays RUNNING until its expiry. -/
def countWdog (c : Nat) (s : State) : State :=
  if wdogRuns s c then s.set (Fld.CTX_WDOG_STATUS_RUNNING c) 1 |>.dec (Fld.CTX_WDOG_STATUS_REMAIN c) 1
  else doIf (s.get (Fld.CTX_WDOG_STATUS_REMAIN c) != 0) (·.set (Fld.CTX_WDOG_STATUS_RUNNING c) 0) s

/-- KS_TIME counts 32.768 kHz: 16,384 millionths of a cycle in a stroke. -/
def ksCount (s : State) : State :=
  if ¬ s.dev.ksSlow then s
  else
    let n := s.pwr.ksPhase + 16384
    s.pwrUpd (fun p => { p with ksPhase := n % 1000000 })
      |> doIf (decide (1000000 ≤ n)) (fun s => s.setWord Adr.KS_TIME (s.word Adr.KS_TIME + 1))

/-- R152: the stroke counter. -/
def countStroke (s : State) : State := ksCount { s with now := s.now + 1 }

/-! ## The end of a stroke -/

/-- What the device sent for the host since the last boundary is a TLP: a request, a completion, an MSI-X write or a message;
the link's own requests of L0p and L1 are none (04 R93). -/
def newHostTlp (s : State) : Bool :=
  (s.out.take (s.out.length - s.pwr.outSeen)).any fun o =>
    match o with
    | .hostWrite .. | .hostRead .. | .atsRequest .. | .cpl .. | .msix .. | .pme .. | .poisoned _ => true
    | .pcie _ what _ => !(["L0p request", "L0p accept", "L0p decline", "L1 request"] : List String).contains what
    | _ => false

/-- The strokes last seen busy (17 R420, R421; 04 R93). -/
def noteBusy (s : State) : State :=
  let sent := newHostTlp s
  s |> doIf (sent && !s.resting) leaveL1
    |>.pwrUpd (fun p =>
        { p with busyAt := if noDescs s then p.busyAt else s.now,
                 tlpAt := if sent || !s.hl.tags.isEmpty || !enginesIdle s then s.now else p.tlpAt,
                 outSeen := s.out.length })

/-- A DEV_RESET stamped in the stroke overtakes an extraction order of the same stroke (03 R63). -/
def resetOvertakes (s : State) : State :=
  if s.mode = .maintenance ∧ ModeCause.heldOrder ∈ s.dev.causes ∧ s.cmds.any (fun x => x.op == 2 && x.stamp == s.now) then
    s.devUpd fun d => { d with causes := [], heldOrder := false }
  else s

/-- What ends with the stroke: engine fences and aborts (06 R142, R143), a PRESERVE or reset that is due, SERVING entry that an order
overtakes (03 R63), the ranking of commands (16 R395), a snapshot of all that (19 R453). -/
def endOfStroke (s : State) : State :=
  let s := s |> enginesFence |> abortsEnd |> msixOut |> doIf (drained s) (orderPreserve 9)
  match s.dev.presPend with
  | some cause => if s.mode = .preserve then s else s |> photoLatch |> preserveEnter cause
  | none =>
    if devResetDue s then devReset s
    else if s.mode = .preserve then s
    else s |> resetOvertakes |> dropServing |> rankCmds |> noteBusy |> photoLatch

/-! ## What takes effect with the next stroke -/

/-- Changes due at the boundary, found before the count moves: a commit asked for, the level change, share records by stamp, drains
that begin, squashes that are done, failovers asked for. -/
structure Due where
  commit : Bool
  level : Option LevelChange
  shares : List (Nat × SharePend)
  drains : List (Nat × CtxOp)
  ends : List Nat
  lives : List Nat

/-- A share record put in its place by its stamp. -/
def insertShare (x : Nat × SharePend) : List (Nat × SharePend) → List (Nat × SharePend)
  | [] => [x]
  | y :: ys => if decide ((y.2.stamp - x.2.stamp).toNat < 2 ^ 47) then x :: y :: ys else y :: insertShare x ys

/-- The changes due at the boundary to come. -/
def dueNow (s : State) : Due :=
  { commit := commitMay s && s.deferred.contains .commit,
    level := switchDue s,
    shares := ((s.ctxIds.filterMap fun c => (shareDue s c).map fun p => (c, p)).foldr insertShare []),
    drains := s.ctxIds.filterMap fun c => (drainDue s c).map fun o => (c, o),
    ends := s.deferred.filterMap fun d => match d with | .squashEnd c => some c | _ => none,
    lives := s.deferred.filterMap fun d => match d with | .failover c => some c | _ => none }

/-- The cadence commit is due: 8 strokes after GO (07 R162). -/
def commitDue (s : State) : Bool :=
  match s.cad.commitAt with
  | some t => decide (8 ≤ s.since t) && commitMay s
  | none => false

/-- Contexts change state at a boundary: squashes end, drains end in their places, ACTIVE contexts that are quiescent leave ACTIVE, and
contexts enter DRAIN (05 R105, R116, R117; 06 R128). -/
def statesStep (d : Due) (s : State) : State :=
  s |> doAll s.ctxIds (squashEnd d.ends)
    |> (fun s => s |> doAll s.ctxIds drainEnd)
    |> (fun s => s |> doAll s.ctxIds quiesce)
    |> doAll d.drains (fun x => drainStart x.1 x.2)

/-- R163: a commit, a level change, share records in the order of their stamps; then contexts change state. -/
def applyDue (d : Due) (s : State) : State :=
  s |> (fun s => doIf (d.commit || commitDue s) (commitApply s.now) s)
    |> (fun s => match d.level with | some c => levelSwitch c s | none => s)
    |> doAll d.shares (fun x => shareApply x.1 x.2)
    |> statesStep d
    |>.cadUpd (fun k => { k with demotedNow := false })
    |> updOvercommit

/-- Links, the peloton and mirrors at a boundary (13 R338, R340; 14 R353, R354; 11 R261). -/
def linksStep (s : State) : State :=
  s |> doAll [0, 1, 2, 3] (fun k s =>
        s |> doIf ((s.link k).downDue && ulActive s k) (ulDown k s.now)
          |> (fun s => doIf (graceOver s k s.now) (ulFlush k) s)
          |> windowsClose k |> sendLate k)
    |> updRoutes
    |> (fun s => doIf (fenceDue s) fence s)
    |> doAll (List.range 8) (fun m s => doIf (lossDue s m) (lose m s.now) s)
    |> (fun s => s |> doAll s.ds.soloDue enterSolo)
    |>.dsUpd (fun d => { d with soloDue := [] })

/-- Standby contexts of lost members are made live, at most 32 in the stroke (14 R358; log 214). -/
def failovers (l : List Nat) (s : State) : State := s |> doAll (l ++ s.ctxIds.filter fun c => s.cst c == 6) failover

/-- Ports at a boundary: packets of earlier strokes are held no longer, edges are released, reads go on. -/
def portStep (p : Nat) (s : State) : State :=
  s.lbUpd p (fun l => { l with held := if l.replay.isEmpty then l.held.filter fun e => decide (s.since e.2.2 ≤ 1) else l.held })
    |> lintRelease p |> upIssue p

/-- Contexts at a boundary: the first enabled queue pair makes IDLE ACTIVE (05 R105), watchdogs count, waiting error-ring
entries are written. -/
def ctxStep (c : Nat) (s : State) : State :=
  s |> doIf (s.cst c == 2 && s.get (Fld.CTX_CAPS_QP_EN c) != 0) (·.set (Fld.CTX_STATE_STATE c) 3)
    |> countWdog c
    |> (fun s => doIf (!(s.ctx c).pweWait.isEmpty) (pweFlush c) s)

/-- The window of restarts moves on; RESTARTS counts those in it (18 R442). -/
def restartsUp (s : State) : State :=
  let rs := recentRestarts s
  doIf (rs != s.flt.restarts) (fun s =>
    s.fltUpd (fun f => { f with restarts := rs }) |>.set Fld.DEV_FAULT_STATUS_RESTARTS rs.length) s

/-- Small things that end with time: IN_RECOVERY, the window of restarts, the ring oscillator (04 R74; 18 R442; 17 R424). -/
def timesUp (s : State) : State :=
  s |> (fun s => match s.hl.recClear with
        | some t => if s.reached t then s.set Fld.HL_LINK_STATUS_IN_RECOVERY 0 |>.hlUpd fun h => { h with recClear := none } else s
        | none => s)
    |> restartsUp
    |> (fun s => match s.pwr.ringAt with
        | some t =>
          if 2000 ≤ s.since t then s.set Fld.CRP_CLK_RING_OSC 0 |>.pwrUpd fun p => { p with ringAt := none } else s
        | none => s)

/-- The stroke that begins: room for bypass cells and cells on every link, stroke markers, modes, what commands and firmware order for the
boundary (16 R394, 17 R417), registers in force, R163, timers, slots, requests that waited. -/
def newStroke (d : Due) (s : State) : State :=
  let s := s |> doAll [0, 1, 2, 3] (fun k s => s.linkUpd k fun l => { l with bsent := 0, csent := 0 }) |> alignStep |> modeBoundary
  if s.mode = .preserve then s
  else
    s |>.pelUpd (fun p => { p with liveNow := 0 })
      |> commitWakes
      |> fwOrderGo
      |> joinsStep
      |> applyAllDeferred
      |> linksStep
      |> failovers d.lives
      |> applyDue d
      |> slip
      |> doAll (tabKeys s.fns) d0Return
      |> countTimers
      |> (fun s => s |> doAll s.ctxIds ctxStep)
      |> timesUp
      |> (fun s => doIf (mediaIdle s) eraseStep s)
      |> doAll (tabKeys s.fns) resendPme
      |> (fun s => s |> doAll (s.aptIds.filter fun a => s.mirror a == 3) resyncStep)
      |> slots
      |> rxServe
      |> smbServe
      |> doAll [0, 1, 2, 3] portStep
      |> peerServe

/-- Strokes since SYS_RST_N was released, up to the 1 ms after which the SMBus target answers (16 R414). -/
def countRelease (s : State) : State := doIf (!s.dev.sysRst) (·.devUpd fun d => { d with relTicks := min 2000 (d.relTicks + 1) }) s

/-- A stroke boundary. While the counter stands only KS_TIME and the time since SYS_RST_N count, in strokes of the same length (03 R47,
log 169); in PRESERVE only the counters run, in Rest also the stroke timers. -/
def strokeBoundary (s : State) : State :=
  let s := countRelease s
  if ¬ s.dev.counting then ksCount s
  else
    let s := endOfStroke s
    if ¬ s.dev.counting then ksCount s
    else if s.mode = .preserve then restartsUp (countStroke s)
    else if s.inRest then strokeTimers (restartsUp (countStroke s))
    else newStroke (dueNow s) (countStroke s)

/-- R152: a stroke boundary. -/
def execStrokeBoundary (s : State) : Result := done (strokeBoundary s)

end Sys2Proof.Machine
end

