-- ==== Sys2Proof/Machine/Dispatch.lean ====
section
/-! DEFINITION. Machine/Dispatch.lean: the meaning of each command, one direct call per constructor. -/
namespace Sys2Proof.Machine

/-- The effect of a command on everything but the queue. -/
def exec (i : Instr) (s : State) : Host.Outcome State Fault Refusal :=
  match i with
  | .coldPowerOnReset => Sys2Proof.Machine.execColdPowerOnReset s
  | .sysRstNAssertion => Sys2Proof.Machine.execSysRstNAssertion s
  | .sysRstNRelease straps => Sys2Proof.Machine.execSysRstNRelease straps s
  | .sysPllLock => Sys2Proof.Machine.execSysPllLock s
  | .bootCopyAccepted unread mute => Sys2Proof.Machine.execBootCopyAccepted unread mute s
  | .bootNoCopyAccepted unread mute => Sys2Proof.Machine.execBootNoCopyAccepted unread mute s
  | .functionsReady nand dram => Sys2Proof.Machine.execFunctionsReady nand dram s
  | .enterServing => Sys2Proof.Machine.execEnterServing s
  | .pwrFailRecognised => Sys2Proof.Machine.execPwrFailRecognised s
  | .thermTripRecognised external => Sys2Proof.Machine.execThermTripRecognised external s
  | .cardEjectRecognised => Sys2Proof.Machine.execCardEjectRecognised s
  | .drainComplete => Sys2Proof.Machine.execDrainComplete s
  | .drainLimitReached => Sys2Proof.Machine.execDrainLimitReached s
  | .devDrainLimitWrite m v => Sys2Proof.Machine.execDevDrainLimitWrite m v s
  | .maintenanceSafePoint => Sys2Proof.Machine.execMaintenanceSafePoint s
  | .preserveEntry => Sys2Proof.Machine.execPreserveEntry s
  | .preserveHalt => Sys2Proof.Machine.execPreserveHalt s
  | .devResetApply => Sys2Proof.Machine.execDevResetApply s
  | .strokeBoundary => Sys2Proof.Machine.execStrokeBoundary s
  | .cadStrokeLoRead m => Sys2Proof.Machine.execCadStrokeLoRead m s
  | .ptmDialogue host => Sys2Proof.Machine.execPtmDialogue host s
  | .ptmResponseTimeout => Sys2Proof.Machine.execPtmResponseTimeout s
  | .cadPtmCtlWrite v => Sys2Proof.Machine.execCadPtmCtlWrite v s
  | .cadCommitGo => Sys2Proof.Machine.execCadCommitGo s
  | .cadenceCommitApply => Sys2Proof.Machine.execCadenceCommitApply s
  | .levelChangeOrder fw => Sys2Proof.Machine.execLevelChangeOrder fw s
  | .levelSwitch => Sys2Proof.Machine.execLevelSwitch s
  | .vidStep => Sys2Proof.Machine.execVidStep s
  | .throttleGraceExpiry => Sys2Proof.Machine.execThrottleGraceExpiry s
  | .thermalRefresh t0 t1 t2 t3 t4 t5 t6 t7 => Sys2Proof.Machine.execThermalRefresh t0 t1 t2 t3 t4 t5 t6 t7 s
  | .hlLinkUp width speed flit => Sys2Proof.Machine.execHlLinkUp width speed flit s
  | .hlLaneFail pass => Sys2Proof.Machine.execHlLaneFail pass s
  | .hlRecoveryEntry => Sys2Proof.Machine.execHlRecoveryEntry s
  | .hlPerstAssertion => Sys2Proof.Machine.execHlPerstAssertion s
  | .hlPerstRelease => Sys2Proof.Machine.execHlPerstRelease s
  | .hotResetReceived => Sys2Proof.Machine.execHotResetReceived s
  | .dlDown => Sys2Proof.Machine.execDlDown s
  | .dlDownClassify => Sys2Proof.Machine.execDlDownClassify s
  | .configRequest c dw wr => Sys2Proof.Machine.execConfigRequest c dw wr s
  | .vfEnableSet n ari => Sys2Proof.Machine.execVfEnableSet n ari s
  | .vfFrsSend => Sys2Proof.Machine.execVfFrsSend s
  | .vfEnableClear => Sys2Proof.Machine.execVfEnableClear s
  | .barSizeWrite vf bar4 log2 => Sys2Proof.Machine.execBarSizeWrite vf bar4 log2 s
  | .busMasterEnableWrite c v => Sys2Proof.Machine.execBusMasterEnableWrite c v s
  | .pmcsrWrite c d3 pmeEn clrStatus => Sys2Proof.Machine.execPmcsrWrite c d3 pmeEn clrStatus s
  | .d0Return c => Sys2Proof.Machine.execD0Return c s
  | .pmeTurnOff => Sys2Proof.Machine.execPmeTurnOff s
  | .flrReceived c => Sys2Proof.Machine.execFlrReceived c s
  | .flrComplete c => Sys2Proof.Machine.execFlrComplete c s
  | .hostReadBar2 c off len => Sys2Proof.Machine.execHostReadBar2 c off len s
  | .hostWriteBar2 c off data => Sys2Proof.Machine.execHostWriteBar2 c off data s
  | .hostReadBar4 c off len => Sys2Proof.Machine.execHostReadBar4 c off len s
  | .hostWriteBar4 c off data => Sys2Proof.Machine.execHostWriteBar4 c off data s
  | .hostUnsupportedRequest k => Sys2Proof.Machine.execHostUnsupportedRequest k s
  | .deviceRequestCompletion c tag st data => Sys2Proof.Machine.execDeviceRequestCompletion c tag st data s
  | .deviceRequestTimeout c tag => Sys2Proof.Machine.execDeviceRequestTimeout c tag s
  | .atsTranslationCompletion c iova ta log2 r w u n g => Sys2Proof.Machine.execAtsTranslationCompletion c iova ta log2 r w u n g s
  | .atsInvalidationRequest c iova log2 itag => Sys2Proof.Machine.execAtsInvalidationRequest c iova log2 itag s
  | .atsInvalidationComplete itag => Sys2Proof.Machine.execAtsInvalidationComplete itag s
  | .hlAtsFlush => Sys2Proof.Machine.execHlAtsFlush s
  | .hlRetrain => Sys2Proof.Machine.execHlRetrain s
  | .l0pRequest width accepted => Sys2Proof.Machine.execL0pRequest width accepted s
  | .l1EntryRequest accepted => Sys2Proof.Machine.execL1EntryRequest accepted s
  | .ltrSend => Sys2Proof.Machine.execLtrSend s
  | .ctxSetShare mb core d => Sys2Proof.Machine.execCtxSetShare mb core d s
  | .shareRecordApply c => Sys2Proof.Machine.execShareRecordApply c s
  | .ctxQuery mb core => Sys2Proof.Machine.execCtxQuery mb core s
  | .ctxReset mb core d => Sys2Proof.Machine.execCtxReset mb core d s
  | .ctxDestroy mb core d => Sys2Proof.Machine.execCtxDestroy mb core d s
  | .ctxWdogCfg mb core => Sys2Proof.Machine.execCtxWdogCfg mb core s
  | .ctxList mb core => Sys2Proof.Machine.execCtxList mb core s
  | .contextDrainStart c => Sys2Proof.Machine.execContextDrainStart c s
  | .contextSquash c => Sys2Proof.Machine.execContextSquash c s
  | .squashComplete c => Sys2Proof.Machine.execSquashComplete c s
  | .contextQuiesce c => Sys2Proof.Machine.execContextQuiesce c s
  | .watchdogExpiry c => Sys2Proof.Machine.execWatchdogExpiry c s
  | .ctxWdogKickWrite c => Sys2Proof.Machine.execCtxWdogKickWrite c s
  | .ctxSelWdogWrite m v => Sys2Proof.Machine.execCtxSelWdogWrite m v s
  | .tagQuarantineRelease c tag late => Sys2Proof.Machine.execTagQuarantineRelease c tag late s
  | .qpEnable c q => Sys2Proof.Machine.execQpEnable c q s
  | .qpDisable c q => Sys2Proof.Machine.execQpDisable c q s
  | .doorbellWrite c q tail head => Sys2Proof.Machine.execDoorbellWrite c q tail head s
  | .descriptorFetch c q data => Sys2Proof.Machine.execDescriptorFetch c q data s
  | .descriptorFetchFail c q k data why => Sys2Proof.Machine.execDescriptorFetchFail c q k data why s
  | .descriptorDeal c q e => Sys2Proof.Machine.execDescriptorDeal c q e s
  | .nop c q slot => Sys2Proof.Machine.execNop c q slot s
  | .copy c q slot => Sys2Proof.Machine.execCopy c q slot s
  | .fill c q slot => Sys2Proof.Machine.execFill c q slot s
  | .fence c q slot => Sys2Proof.Machine.execFence c q slot s
  | .persist c q slot => Sys2Proof.Machine.execPersist c q slot s
  | .atomic c q slot => Sys2Proof.Machine.execAtomic c q slot s
  | .send c q slot => Sys2Proof.Machine.execSend c q slot s
  | .frameOut c q slot => Sys2Proof.Machine.execFrameOut c q slot s
  | .mark c q slot => Sys2Proof.Machine.execMark c q slot s
  | .descriptorComplete c q slot => Sys2Proof.Machine.execDescriptorComplete c q slot s
  | .completionEntryWrite c q => Sys2Proof.Machine.execCompletionEntryWrite c q s
  | .qpAbortGo c q => Sys2Proof.Machine.execQpAbortGo c q s
  | .abortResolve c q => Sys2Proof.Machine.execAbortResolve c q s
  | .spokeEngineFence e journal => Sys2Proof.Machine.execSpokeEngineFence e journal s
  | .ctxWfenceRead c => Sys2Proof.Machine.execCtxWfenceRead c s
  | .ctxWfenceReturn c => Sys2Proof.Machine.execCtxWfenceReturn c s
  | .ctxWfenceTimeout c => Sys2Proof.Machine.execCtxWfenceTimeout c s
  | .lbCtlEnWrite p en => Sys2Proof.Machine.execLbCtlEnWrite p en s
  | .lbRetrain p => Sys2Proof.Machine.execLbRetrain p s
  | .lbResetExit p => Sys2Proof.Machine.execLbResetExit p s
  | .lbReceiverLock p delays => Sys2Proof.Machine.execLbReceiverLock p delays s
  | .lbLockedBlocksReceived p => Sys2Proof.Machine.execLbLockedBlocksReceived p s
  | .lbTrainTimeout p strobe => Sys2Proof.Machine.execLbTrainTimeout p strobe s
  | .lbFailedGapExpiry p => Sys2Proof.Machine.execLbFailedGapExpiry p s
  | .lbTrainingBlocksInActive p => Sys2Proof.Machine.execLbTrainingBlocksInActive p s
  | .linkInitReceive p counts rev => Sys2Proof.Machine.execLinkInitReceive p counts rev s
  | .linkCreditReceive p credits => Sys2Proof.Machine.execLinkCreditReceive p credits s
  | .linkNakReceive p seq credits => Sys2Proof.Machine.execLinkNakReceive p seq credits s
  | .lbLinkError p k credits => Sys2Proof.Machine.execLbLinkError p k credits s
  | .lbNakTimeout p => Sys2Proof.Machine.execLbNakTimeout p s
  | .lbCreditSend p => Sys2Proof.Machine.execLbCreditSend p s
  | .lbBndCreditLate p => Sys2Proof.Machine.execLbBndCreditLate p s
  | .lbEgressPacket p => Sys2Proof.Machine.execLbEgressPacket p s
  | .lbReadReceive p rx tag addr len => Sys2Proof.Machine.execLbReadReceive p rx tag addr len s
  | .lbWritePostedReceive p rx addr data => Sys2Proof.Machine.execLbWritePostedReceive p rx addr data s
  | .lbWriteAckedReceive p rx tag addr data => Sys2Proof.Machine.execLbWriteAckedReceive p rx tag addr data s
  | .lbMsgReceive p rx id data => Sys2Proof.Machine.execLbMsgReceive p rx id data s
  | .lbFrameReceive p rx sof eof info data => Sys2Proof.Machine.execLbFrameReceive p rx sof eof info data s
  | .lbSidebandReceive p rx event => Sys2Proof.Machine.execLbSidebandReceive p rx event s
  | .lbRespReceive p rx tag code data => Sys2Proof.Machine.execLbRespReceive p rx tag code data s
  | .lbAtomicReceive p rx => Sys2Proof.Machine.execLbAtomicReceive p rx s
  | .lbRetryLaterResend p tag => Sys2Proof.Machine.execLbRetryLaterResend p tag s
  | .windowCompletionTimeout p tag => Sys2Proof.Machine.execWindowCompletionTimeout p tag s
  | .speculativeReadAbandon p => Sys2Proof.Machine.execSpeculativeReadAbandon p s
  | .prefetchBlockExpiry p => Sys2Proof.Machine.execPrefetchBlockExpiry p s
  | .strandedEntryExpiry p e => Sys2Proof.Machine.execStrandedEntryExpiry p e s
  | .lintEdge p line rising => Sys2Proof.Machine.execLintEdge p line rising s
  | .winMap c w => Sys2Proof.Machine.execWinMap c w s
  | .winUnmap c w => Sys2Proof.Machine.execWinUnmap c w s
  | .winAttrWrite c w v => Sys2Proof.Machine.execWinAttrWrite c w v s
  | .routeEntryWrite e v => Sys2Proof.Machine.execRouteEntryWrite e v s
  | .routedItemDelivery p => Sys2Proof.Machine.execRoutedItemDelivery p s
  | .routedItemPeerSend p => Sys2Proof.Machine.execRoutedItemPeerSend p s
  | .aptCreate mb core => Sys2Proof.Machine.execAptCreate mb core s
  | .aptAttach mb core => Sys2Proof.Machine.execAptAttach mb core s
  | .aptDetach mb core => Sys2Proof.Machine.execAptDetach mb core s
  | .aptErase mb core => Sys2Proof.Machine.execAptErase mb core s
  | .aptQuery mb core => Sys2Proof.Machine.execAptQuery mb core s
  | .writeAdmission n => Sys2Proof.Machine.execWriteAdmission n s
  | .ctxPersistRead c => Sys2Proof.Machine.execCtxPersistRead c s
  | .ctxPersistReturn c => Sys2Proof.Machine.execCtxPersistReturn c s
  | .ctxPersistTimeout c => Sys2Proof.Machine.execCtxPersistTimeout c s
  | .mirrorAckReceive k => Sys2Proof.Machine.execMirrorAckReceive k s
  | .mirrorAckTimeout a => Sys2Proof.Machine.execMirrorAckTimeout a s
  | .resyncComplete a => Sys2Proof.Machine.execResyncComplete a s
  | .dsBudgetWrite v => Sys2Proof.Machine.execDsBudgetWrite v s
  | .dsHoldupWrite v => Sys2Proof.Machine.execDsHoldupWrite v s
  | .unitFlushComplete a u => Sys2Proof.Machine.execUnitFlushComplete a u s
  | .stripeWrite members units => Sys2Proof.Machine.execStripeWrite members units s
  | .dramCorrectedError ch rank dev line => Sys2Proof.Machine.execDramCorrectedError ch rank dev line s
  | .dramUncorrectableError ch rank line hit => Sys2Proof.Machine.execDramUncorrectableError ch rank line hit s
  | .dramScrubPass => Sys2Proof.Machine.execDramScrubPass s
  | .nandRead b a u step => Sys2Proof.Machine.execNandRead b a u step s
  | .nandProgramFail b => Sys2Proof.Machine.execNandProgramFail b s
  | .nandEraseFail b => Sys2Proof.Machine.execNandEraseFail b s
  | .lunLost lun cause => Sys2Proof.Machine.execLunLost lun cause s
  | .rebuildComplete dest => Sys2Proof.Machine.execRebuildComplete dest s
  | .patrolPass read => Sys2Proof.Machine.execPatrolPass read s
  | .blockRefresh victim dest after => Sys2Proof.Machine.execBlockRefresh victim dest after s
  | .garbageCollection victim dest => Sys2Proof.Machine.execGarbageCollection victim dest s
  | .wearLevelling victim dest => Sys2Proof.Machine.execWearLevelling victim dest s
  | .mediaWorn => Sys2Proof.Machine.execMediaWorn s
  | .storeQuery mb core => Sys2Proof.Machine.execStoreQuery mb core s
  | .storeRecord mb core => Sys2Proof.Machine.execStoreRecord mb core s
  | .storeFormat mb core => Sys2Proof.Machine.execStoreFormat mb core s
  | .mediaHealth mb core => Sys2Proof.Machine.execMediaHealth mb core s
  | .mediaRebuild mb core => Sys2Proof.Machine.execMediaRebuild mb core s
  | .ulCtlEnWrite k en => Sys2Proof.Machine.execUlCtlEnWrite k en s
  | .ulRetrain k => Sys2Proof.Machine.execUlRetrain k s
  | .ulLanesLocked k passed => Sys2Proof.Machine.execUlLanesLocked k passed s
  | .ulTrainTimeout k => Sys2Proof.Machine.execUlTrainTimeout k s
  | .bypassInit k back rev member topo fresh w4 credits exp grace map digest => Sys2Proof.Machine.execBypassInit k back rev member topo fresh w4 credits exp grace map digest s
  | .bypassInitAck k back epoch => Sys2Proof.Machine.execBypassInitAck k back epoch s
  | .bypassAck k back exp => Sys2Proof.Machine.execBypassAck k back exp s
  | .bypassNak k back exp => Sys2Proof.Machine.execBypassNak k back exp s
  | .bypassCredit k back counts => Sys2Proof.Machine.execBypassCredit k back counts s
  | .bypassStroke k back stroke leader hops phase skew => Sys2Proof.Machine.execBypassStroke k back stroke leader hops phase skew s
  | .bypassDelayReq k back sent recv turn => Sys2Proof.Machine.execBypassDelayReq k back sent recv turn s
  | .bypassDelayResp k back sent now_ turn => Sys2Proof.Machine.execBypassDelayResp k back sent now_ turn s
  | .delayReqSend k t => Sys2Proof.Machine.execDelayReqSend k t s
  | .bypassShiftReq k bseq back lane epoch map => Sys2Proof.Machine.execBypassShiftReq k bseq back lane epoch map s
  | .bypassLpmReq k bseq back st => Sys2Proof.Machine.execBypassLpmReq k bseq back st s
  | .bypassLpmAck k bseq back st => Sys2Proof.Machine.execBypassLpmAck k bseq back st s
  | .bypassPhoto k bseq back stroke origin src num => Sys2Proof.Machine.execBypassPhoto k bseq back stroke origin src num s
  | .bypassPeerMbx k bseq back txn idx flags data => Sys2Proof.Machine.execBypassPeerMbx k bseq back txn idx flags data s
  | .bypassNull k back reserved => Sys2Proof.Machine.execBypassNull k back reserved s
  | .bypassRetransmit k => Sys2Proof.Machine.execBypassRetransmit k s
  | .ulCellReceive k vc seq ack crVc crCount off reserved data => Sys2Proof.Machine.execUlCellReceive k vc seq ack crVc crCount off reserved data s
  | .ulAckSend k => Sys2Proof.Machine.execUlAckSend k s
  | .ulCreditReport k => Sys2Proof.Machine.execUlCreditReport k s
  | .ulLinkError k e => Sys2Proof.Machine.execUlLinkError k e s
  | .ulNakRepeat k => Sys2Proof.Machine.execUlNakRepeat k s
  | .ulReplayTimeout k => Sys2Proof.Machine.execUlReplayTimeout k s
  | .ulLaneFault k lane => Sys2Proof.Machine.execUlLaneFault k lane s
  | .ulLinkDown k => Sys2Proof.Machine.execUlLinkDown k s
  | .ulGraceExpiry k => Sys2Proof.Machine.execUlGraceExpiry k s
  | .ulCoastIdle k => Sys2Proof.Machine.execUlCoastIdle k s
  | .ulCoastExit k => Sys2Proof.Machine.execUlCoastExit k s
  | .ulParkExit k => Sys2Proof.Machine.execUlParkExit k s
  | .ulWriteReceive k => Sys2Proof.Machine.execUlWriteReceive k s
  | .ulReadReceive k => Sys2Proof.Machine.execUlReadReceive k s
  | .ulAtomicReceive k => Sys2Proof.Machine.execUlAtomicReceive k s
  | .ulRespReceive k => Sys2Proof.Machine.execUlRespReceive k s
  | .ulRoutedReceive k => Sys2Proof.Machine.execUlRoutedReceive k s
  | .mirrorWriteReceive k => Sys2Proof.Machine.execMirrorWriteReceive k s
  | .messageForward k => Sys2Proof.Machine.execMessageForward k s
  | .stateView k => Sys2Proof.Machine.execStateView k s
  | .stateJoin k => Sys2Proof.Machine.execStateJoin k s
  | .stateLeave k => Sys2Proof.Machine.execStateLeave k s
  | .stateTandem k gen units => Sys2Proof.Machine.execStateTandem k gen units s
  | .stateHandover k => Sys2Proof.Machine.execStateHandover k s
  | .stateRelocate k => Sys2Proof.Machine.execStateRelocate k s
  | .stateReservedStype k => Sys2Proof.Machine.execStateReservedStype k s
  | .joinSend k dst => Sys2Proof.Machine.execJoinSend k dst s
  | .joinWaitExpiry => Sys2Proof.Machine.execJoinWaitExpiry s
  | .viewSend => Sys2Proof.Machine.execViewSend s
  | .memberLoss m => Sys2Proof.Machine.execMemberLoss m s
  | .memberFence => Sys2Proof.Machine.execMemberFence s
  | .failover c => Sys2Proof.Machine.execFailover c s
  | .handoverSend c => Sys2Proof.Machine.execHandoverSend c s
  | .pelotonSplit k leader => Sys2Proof.Machine.execPelotonSplit k leader s
  | .rejoinCompare a other => Sys2Proof.Machine.execRejoinCompare a other s
  | .pelQuery mb core => Sys2Proof.Machine.execPelQuery mb core s
  | .pelLeave mb core => Sys2Proof.Machine.execPelLeave mb core s
  | .tandemPair mb core gen => Sys2Proof.Machine.execTandemPair mb core gen s
  | .tandemUnpair mb core => Sys2Proof.Machine.execTandemUnpair mb core s
  | .tandemQuery mb core => Sys2Proof.Machine.execTandemQuery mb core s
  | .sourceEdge n => Sys2Proof.Machine.execSourceEdge n s
  | .icPendSet m w bits => Sys2Proof.Machine.execIcPendSet m w bits s
  | .icPendClr m w bits edges sets => Sys2Proof.Machine.execIcPendClr m w bits edges sets s
  | .icEnSet m w bits clears => Sys2Proof.Machine.execIcEnSet m w bits clears s
  | .icEnClr m w bits => Sys2Proof.Machine.execIcEnClr m w bits s
  | .icClaim m edge => Sys2Proof.Machine.execIcClaim m edge s
  | .icEoi m src => Sys2Proof.Machine.execIcEoi m src s
  | .holdOffExpiry g => Sys2Proof.Machine.execHoldOffExpiry g s
  | .icHoldWrite m g strokes => Sys2Proof.Machine.execIcHoldWrite m g strokes s
  | .strokeTimerExpiry t => Sys2Proof.Machine.execStrokeTimerExpiry t s
  | .strokeCompareMatch => Sys2Proof.Machine.execStrokeCompareMatch s
  | .ksAlarmMatch => Sys2Proof.Machine.execKsAlarmMatch s
  | .gpioEdge g rising => Sys2Proof.Machine.execGpioEdge g rising s
  | .contextEventSet c b => Sys2Proof.Machine.execContextEventSet c b s
  | .coalescingTimerExpiry c q => Sys2Proof.Machine.execCoalescingTimerExpiry c q s
  | .cqEvtCfgWrite c q v => Sys2Proof.Machine.execCqEvtCfgWrite c q v s
  | .msixTriggerDelivery c v => Sys2Proof.Machine.execMsixTriggerDelivery c v s
  | .mbxDoorbellGo mb => Sys2Proof.Machine.execMbxDoorbellGo mb s
  | .mbxWatchdogExpiry mb => Sys2Proof.Machine.execMbxWatchdogExpiry mb s
  | .longOperationEnd fw code => Sys2Proof.Machine.execLongOperationEnd fw code s
  | .mbxForward mb core => Sys2Proof.Machine.execMbxForward mb core s
  | .devQuery mb core => Sys2Proof.Machine.execDevQuery mb core s
  | .devReset mb core => Sys2Proof.Machine.execDevReset mb core s
  | .maintEnter mb core => Sys2Proof.Machine.execMaintEnter mb core s
  | .prepareExtract mb core => Sys2Proof.Machine.execPrepareExtract mb core s
  | .perfSet mb core => Sys2Proof.Machine.execPerfSet mb core s
  | .sleepEnter mb core => Sys2Proof.Machine.execSleepEnter mb core s
  | .wakeCfg mb core => Sys2Proof.Machine.execWakeCfg mb core s
  | .thermQuery mb core => Sys2Proof.Machine.execThermQuery mb core s
  | .powerPolicy mb core => Sys2Proof.Machine.execPowerPolicy mb core s
  | .powerQuery mb core => Sys2Proof.Machine.execPowerQuery mb core s
  | .fwQuery mb core => Sys2Proof.Machine.execFwQuery mb core s
  | .fwStageBegin mb core => Sys2Proof.Machine.execFwStageBegin mb core s
  | .fwStageData mb core => Sys2Proof.Machine.execFwStageData mb core s
  | .fwStageEnd mb core unread => Sys2Proof.Machine.execFwStageEnd mb core unread s
  | .fwActivate mb core => Sys2Proof.Machine.execFwActivate mb core s
  | .fwCommit mb core => Sys2Proof.Machine.execFwCommit mb core s
  | .fwRollback mb core => Sys2Proof.Machine.execFwRollback mb core s
  | .trialBoot => Sys2Proof.Machine.execTrialBoot s
  | .fuseQuery mb core => Sys2Proof.Machine.execFuseQuery mb core s
  | .fuseProgram mb core en vdd lapse bad got => Sys2Proof.Machine.execFuseProgram mb core en vdd lapse bad got s
  | .ifQuery mb core => Sys2Proof.Machine.execIfQuery mb core s
  | .echo mb core => Sys2Proof.Machine.execEcho mb core s
  | .logRead mb core => Sys2Proof.Machine.execLogRead mb core s
  | .timeQuery mb core => Sys2Proof.Machine.execTimeQuery mb core s
  | .smbRegRead dev a => Sys2Proof.Machine.execSmbRegRead dev a s
  | .smbRegWrite dev pec a v => Sys2Proof.Machine.execSmbRegWrite dev pec a v s
  | .smbMbxWrite dev pec off data => Sys2Proof.Machine.execSmbMbxWrite dev pec off data s
  | .smbMbxRead dev off len => Sys2Proof.Machine.execSmbMbxRead dev off len s
  | .smbAttn dev => Sys2Proof.Machine.execSmbAttn dev s
  | .freewheelEntry => Sys2Proof.Machine.execFreewheelEntry s
  | .freewheelExit => Sys2Proof.Machine.execFreewheelExit s
  | .idleSleepOrder => Sys2Proof.Machine.execIdleSleepOrder s
  | .restEntry l1 => Sys2Proof.Machine.execRestEntry l1 s
  | .restEntryComplete => Sys2Proof.Machine.execRestEntryComplete s
  | .wakeEvent => Sys2Proof.Machine.execWakeEvent s
  | .restExit => Sys2Proof.Machine.execRestExit s
  | .coreWatchdogExpiry core => Sys2Proof.Machine.execCoreWatchdogExpiry core s
  | .coreFence core parity just => Sys2Proof.Machine.execCoreFence core parity just s
  | .faultStop reason => Sys2Proof.Machine.execFaultStop reason s
  | .firmwareRestart check just => Sys2Proof.Machine.execFirmwareRestart check just s
  | .firmwareRestartComplete rejected => Sys2Proof.Machine.execFirmwareRestartComplete rejected s
  | .internalParityError e => Sys2Proof.Machine.execInternalParityError e s
  | .sramUncorrectableError a => Sys2Proof.Machine.execSramUncorrectableError a s
  | .registerAnswerTimeout m a write => Sys2Proof.Machine.execRegisterAnswerTimeout m a write s
  | .registerWrite m a be wide v met => Sys2Proof.Machine.execRegisterWrite m a be wide v met s
  | .pfsTrigGo => Sys2Proof.Machine.execPfsTrigGo s
  | .photoNEdge => Sys2Proof.Machine.execPhotoNEdge s
  | .photoLatch => Sys2Proof.Machine.execPhotoLatch s
  | .pfsArm => Sys2Proof.Machine.execPfsArm s
  | .tapReset => Sys2Proof.Machine.execTapReset s
  | .idcode => Sys2Proof.Machine.execIdcode s
  | .samplePreload sampled cells => Sys2Proof.Machine.execSamplePreload sampled cells s
  | .extest sampled cells => Sys2Proof.Machine.execExtest sampled cells s
  | .clamp => Sys2Proof.Machine.execClamp s
  | .highz => Sys2Proof.Machine.execHighz s
  | .bypass => Sys2Proof.Machine.execBypass s
  | .dap => Sys2Proof.Machine.execDap s
  | .dapAccessGo a write data => Sys2Proof.Machine.execDapAccessGo a write data s
  | .supplyLoss => Sys2Proof.Machine.execSupplyLoss s
  | .ksXtalStart => Sys2Proof.Machine.execKsXtalStart s
  | .dramAlert ch => Sys2Proof.Machine.execDramAlert ch s
  | .msixVectorUnmask c v => Sys2Proof.Machine.execMsixVectorUnmask c v s
  | .registerRead m a be wide => Sys2Proof.Machine.execRegisterRead m a be wide s
  | .hlRecoveryExit => Sys2Proof.Machine.execHlRecoveryExit s
  | .l0pPartnerRequest width => Sys2Proof.Machine.execL0pPartnerRequest width s
  | .hlLinkLayerError k => Sys2Proof.Machine.execHlLinkLayerError k s
  | .markerRowReceive k epoch lanes flags wrong => Sys2Proof.Machine.execMarkerRowReceive k epoch lanes flags wrong s
  | .ulInitSend k => Sys2Proof.Machine.execUlInitSend k s
  | .ulEgressUnit k => Sys2Proof.Machine.execUlEgressUnit k s

end Sys2Proof.Machine
end

