-- ==== Sys2Proof/Safety.lean ====
section
/-! DEFINITION. Safety.lean: what statements about the whole block are made of: the parts of State, what a step may change,
and the canonical form of the register file and of aperture memory. -/
namespace Sys2Proof.Machine

/-- The parts of State beside the queue: one for each field, and the durable store in three: `mem` and `nand` hold the
aperture bytes, `store` the rest of it. -/
inductive Part where
  | out
  | draws
  | now
  | regs
  | banks
  | fns
  | msix
  | pba
  | held
  | msixDue
  | irqStacks
  | holdLeft
  | dev
  | flt
  | pfs
  | ul
  | lines
  | deferred
  | hl
  | ctxs
  | qps
  | lbs
  | hreads
  | cad
  | cmds
  | inForce
  | store
  | ritems
  | med
  | mbx
  | pwr
  | pel
  | tap
  | fuses
  | fw
  | mem
  | nand
deriving DecidableEq, Repr

/-- A part holds the same in two states. -/
def Part.same (p : Part) (s t : State) : Prop :=
  match p with
  | .out => t.out = s.out
  | .draws => t.draws = s.draws
  | .now => t.now = s.now
  | .regs => t.regs = s.regs
  | .banks => t.banks = s.banks
  | .fns => t.fns = s.fns
  | .msix => t.msix = s.msix
  | .pba => t.pba = s.pba
  | .held => t.held = s.held
  | .msixDue => t.msixDue = s.msixDue
  | .irqStacks => t.irqStacks = s.irqStacks
  | .holdLeft => t.holdLeft = s.holdLeft
  | .dev => t.dev = s.dev
  | .flt => t.flt = s.flt
  | .pfs => t.pfs = s.pfs
  | .ul => t.ul = s.ul
  | .lines => t.lines = s.lines
  | .deferred => t.deferred = s.deferred
  | .hl => t.hl = s.hl
  | .ctxs => t.ctxs = s.ctxs
  | .qps => t.qps = s.qps
  | .lbs => t.lbs = s.lbs
  | .hreads => t.hreads = s.hreads
  | .cad => t.cad = s.cad
  | .cmds => t.cmds = s.cmds
  | .inForce => t.inForce = s.inForce
  | .store => { t.ds with mem := [], nand := [] } = { s.ds with mem := [], nand := [] }
  | .ritems => t.ritems = s.ritems
  | .med => t.med = s.med
  | .mbx => t.mbx = s.mbx
  | .pwr => t.pwr = s.pwr
  | .pel => t.pel = s.pel
  | .tap => t.tap = s.tap
  | .fuses => t.fuses = s.fuses
  | .fw => t.fw = s.fw
  | .mem => t.ds.mem = s.ds.mem
  | .nand => t.ds.nand = s.ds.nand

/-- Everything but the listed parts is the same in `t` as in `s`, the queue of commands among it. -/
def Only (l : List Part) (s t : State) : Prop := t.pending = s.pending ∧ ∀ p, p ∉ l → p.same s t

/-- From `s` to `t` no register outside the listed addresses changes. -/
def RegsOnly (l : List Nat) (s t : State) : Prop := ∀ a, a ∉ l → t.word a = s.word a

/-- The registers that the raising of source `n` may write: its pending word (in Rest the wake latch), that of source 24, the
event counters, the link's state, the events of the physical function, the board controller's attention bits and the
photo-finish status (15 R366, R378, R380 to R383; 16 Table 16-15; 19 R452, R455). -/
def raiseRegs (n : Nat) : List Nat :=
  [Adr.IC_PEND (n / 32), Adr.IC_PEND 0, Adr.KS_WAKE_LATCH_LO, Adr.KS_WAKE_LATCH_HI, Fld.PFS_STAT_MISSED.addr,
   Fld.EV_MSIX_CNT_SENT.addr, Fld.EV_DROP_D3COLD.addr, Fld.EV_PME_PME_SENT.addr, Fld.HL_LINK_STATUS_LSTATE.addr,
   (Fld.CTX_EVT_STATUS_EVT 0).addr, Fld.MBX_BC_ATTN_MODE.addr]

/-- A source is pending: its bit of the pending words is 1 (15 R366). -/
def isPending (s : State) (n : Nat) : Bool := (s.word (Adr.IC_PEND (n / 32))).getLsbD (n % 32)

/-- The command runs at `s` to a next state of which `p` holds. -/
def Runs (i : Instr) (s : State) (p : State → Prop) : Prop := ∃ t, exec i s = .next t ∧ p t

/-- Nothing stands in the way of a host TLP: no Rest, no PRESERVE, the link up and not in L1, and no earlier request waits in the
receive buffers (04 R93; 17 R421, R423). -/
abbrev HostOpen (s : State) : Prop :=
  s.resting = false ∧ s.mode ≠ .preserve ∧ s.isSet Fld.HL_LINK_STATUS_DL_UP = true ∧ s.get Fld.HL_LINK_STATUS_LSTATE ≠ 4 ∧ s.hl.rx = []

/-- Nothing stands in the way of a request of function `c` that is processed in its order: no earlier posted write of the function is
still to be issued or admitted (04 R88; the order is the model's reading, log 206). -/
abbrev HostTurn (s : State) (c : Nat) : Prop := HostOpen s ∧ writesAhead s c s.cad.nextId = false

/-- A page address whose reads are held: CTX_PERSIST or CTX_WFENCE (11 R254, 06 R147). -/
def heldAddr (a : Nat) : Bool := a == 0x100 || a == 0x104

/-- The SMBus target serves a transaction: 1 ms has passed since the release of SYS_RST_N, no PRESERVE, no Rest, and none waits with its
clock stretched (16 R414). -/
abbrev SmbOpen (s : State) : Prop :=
  2000 ≤ s.dev.relTicks ∧ s.dev.sysRst = false ∧ s.mode ≠ .preserve ∧ s.pwr.smbHeld = none ∧ s.restGated = false

/-- A tag of context `c` that asks for the translation of a page (04 R86). -/
def atsAsks (c : Nat) (page : Addr) (t : Nat × HostTag) : Bool := t.2.ctx == c && (match t.2.use with | .ats p _ => p == page | _ => false)

/-- The strokes of the last host traffic noted, as each host TLP leaves them (17 R420; 04 R93). -/
def hostNoted (s : State) : State := s.pwrUpd fun p => { p with busyAt := s.now, tlpAt := s.now }

/-- A message leaves the receive list of a link, as every row that processes one does first (13 R325). -/
def tookMsg (k : Nat) (e : Nat × UMsg) (s : State) : State := s.linkUpd k fun l => { l with rx := l.rx.erase e }

/-- Each byte of a beat and its parity bit have an odd number of ones together (08 R174). -/
abbrev OddParity (b : Beat) : Prop :=
  ∀ k : Fin 4, (((List.range 8).filter fun i => b.data.getLsbD (8 * k.val + i)).length + (b.parity.getLsbD k.val).toNat) % 2 = 1

/-- The register file and the aperture memory are in canonical form. -/
def Canonical (s : State) : Prop :=
  tabWf resetOf s.regs = true ∧ Memory.wf s.ds.mem = true ∧ Memory.wf s.ds.nand = true

/-- The parts that the raising of a source may change (15 R366, R378 to R383; 17 R427; 19 R452, R454). -/
def raised : List Part := [.out, .draws, .regs, .fns, .pba, .held, .msixDue, .dev, .pfs, .ul, .lines, .hl, .pwr]

/-- Each part but the queue. -/
def everyPart : List Part :=
  [.out, .draws, .now, .regs, .banks, .fns, .msix, .pba, .held, .msixDue, .irqStacks, .holdLeft, .dev, .flt, .pfs, .ul, .lines, .deferred, .hl,
   .ctxs, .qps, .lbs, .hreads, .cad, .cmds, .inForce, .store, .ritems, .med, .mbx, .pwr, .pel, .tap, .fuses, .fw, .mem, .nand]

/-- The parts of State that a command may change; every other part it leaves as it is. -/
def mayChange (i : Instr) : List Part :=
  match i with
  | .ltrSend .. => [.out]
  | .bootNoCopyAccepted .. | .holdOffExpiry .. | .restEntryComplete .. | .pfsArm .. => [.regs]
  | .drainComplete .. | .ksXtalStart .. => [.dev]
  | .ulRetrain .. | .stateReservedStype .. => [.ul]
  | .enterServing .. | .drainLimitReached .. | .cadenceCommitApply .. | .levelSwitch .. | .shareRecordApply ..
  | .contextDrainStart .. | .contextSquash .. | .squashComplete .. | .contextQuiesce .. | .spokeEngineFence ..
  | .winMap .. | .winUnmap .. | .memberLoss .. | .memberFence .. | .failover .. | .photoLatch .. => [.deferred]
  | .linkCreditReceive .. | .lbRetryLaterResend .. | .prefetchBlockExpiry .. => [.lbs]
  | .speculativeReadAbandon .. => [.cad]
  | .mirrorAckTimeout .. => [.store]
  | .idleSleepOrder .. => [.pwr]
  | .sramUncorrectableError .. => [.regs, .flt]
  | .stateRelocate .. => [.regs, .ul]
  | .qpDisable .. | .winAttrWrite .. | .routeEntryWrite .. => [.regs, .deferred]
  | .hlAtsFlush .. | .hlRecoveryExit .. => [.regs, .hl]
  | .flrComplete .. => [.out, .ctxs]
  | .qpAbortGo .. => [.regs, .qps]
  | .lbCreditSend .. => [.out, .lbs]
  | .mirrorWriteReceive .. => [.ul, .cad]
  | .wakeEvent .. => [.regs, .pwr]
  | .vidStep .. => [.dev, .pwr]
  | .stateLeave .. | .joinSend .. | .viewSend .. => [.ul, .pel]
  | .idcode .. | .samplePreload .. | .bypass .. | .dap .. => [.out, .tap]
  | .tapReset .. => [.regs, .tap]
  | .ulLanesLocked .. => [.draws, .regs, .ul]
  | .atsInvalidationComplete .. => [.out, .regs, .hl]
  | .vfFrsSend .. => [.out, .fns, .hl]
  | .hlPerstRelease .. => [.regs, .dev, .hl]
  | .ctxWfenceReturn .. | .ctxWfenceTimeout .. | .ctxPersistReturn .. | .ctxPersistTimeout .. => [.out, .regs, .ctxs]
  | .descriptorComplete .. => [.draws, .regs, .qps]
  | .pelLeave .. => [.regs, .dev, .cmds]
  | .cadCommitGo .. => [.regs, .cad, .pwr]
  | .perfSet .. => [.regs, .cmds, .pwr]
  | .handoverSend .. => [.ul, .ctxs, .pel]
  | .sysRstNRelease .. => [.regs, .dev, .tap]
  | .bootCopyAccepted .. => [.regs, .dev, .fw]
  | .stateHandover .. => [.regs, .ul, .deferred, .ctxs]
  | .lbResetExit .. | .lbReceiverLock .. | .lbFailedGapExpiry .. => [.out, .regs, .dev, .lbs]
  | .messageForward .. => [.regs, .ul, .qps, .cad]
  | .mirrorAckReceive .. => [.regs, .ul, .cad, .store]
  | .unitFlushComplete .. => [.regs, .store, .med, .nand]
  | .delayReqSend .. | .ulAckSend .. | .ulCreditReport .. | .ulCoastIdle .. | .ulInitSend .. =>
    [.out, .draws, .ul, .lines]
  | .d0Return .. => [.out, .regs, .fns, .pba, .held]
  | .routedItemPeerSend .. => [.regs, .ul, .qps, .cad, .ritems]
  | .ulTrainTimeout .. | .bypassRetransmit .. | .ulNakRepeat .. | .freewheelEntry .. =>
    [.out, .draws, .regs, .ul, .lines]
  | .bypassDelayReq .. => [.out, .draws, .ul, .mbx, .lines]
  | .pfsTrigGo .. => [.out, .draws, .regs, .pfs, .ul, .lines]
  | .bypassCredit .. | .bypassDelayResp .. | .bypassNull .. => [.out, .draws, .regs, .ul, .mbx, .lines]
  | .bypassPhoto .. => [.out, .draws, .regs, .pfs, .ul, .mbx, .lines]
  | .abortResolve .. => [.draws, .regs, .ul, .deferred, .hl, .qps, .lbs, .cad, .store]
  | .sysRstNAssertion .. | .supplyLoss .. =>
    [.draws, .now, .regs, .banks, .fns, .msix, .pba, .held, .msixDue, .irqStacks, .holdLeft, .dev, .flt, .pfs, .ul,
      .deferred, .hl, .ctxs, .qps, .lbs, .hreads, .cad, .cmds, .inForce, .store, .ritems, .med, .mbx, .pwr,
      .pel, .fw, .mem, .lines]
  | .coldPowerOnReset .. | .preserveHalt .. | .devResetApply .. | .trialBoot .. =>
    [.draws, .now, .regs, .banks, .fns, .msix, .pba, .held, .msixDue, .irqStacks, .holdLeft, .dev, .flt, .pfs, .ul,
      .deferred, .hl, .ctxs, .qps, .lbs, .hreads, .cad, .cmds, .inForce, .store, .ritems, .med, .mbx, .pwr,
      .pel, .tap, .fw, .mem, .lines]
  | .pwrFailRecognised .. | .thermTripRecognised .. | .cardEjectRecognised .. | .throttleGraceExpiry ..
  | .hlLinkUp .. | .hlRecoveryEntry .. | .hlPerstAssertion .. | .hotResetReceived .. | .hlRetrain ..
  | .l0pRequest .. | .l1EntryRequest .. | .tagQuarantineRelease .. | .lbBndCreditLate .. | .resyncComplete ..
  | .dramScrubPass .. | .ulCellReceive .. | .ulReplayTimeout .. | .ulLinkDown .. | .ulCoastExit .. | .ulParkExit ..
  | .sourceEdge .. | .strokeTimerExpiry .. | .strokeCompareMatch .. | .ksAlarmMatch .. | .gpioEdge ..
  | .contextEventSet .. | .coalescingTimerExpiry .. | .msixTriggerDelivery .. | .freewheelExit .. | .photoNEdge ..
  | .dramAlert .. | .l0pPartnerRequest .. | .hlLinkLayerError .. | .ulEgressUnit .. => raised
  | .hlLaneFail .. | .ulLinkError .. | .ulLaneFault .. | .coreWatchdogExpiry .. | .faultStop ..
  | .markerRowReceive .. => raised ++ [.flt]
  | .dsBudgetWrite .. | .dsHoldupWrite .. => raised ++ [.deferred]
  | .qpEnable .. | .descriptorFetch .. | .descriptorFetchFail .. | .descriptorDeal .. | .completionEntryWrite .. =>
    raised ++ [.qps]
  | .lbTrainTimeout .. | .lbLinkError .. | .strandedEntryExpiry .. | .restExit .. => raised ++ [.lbs]
  | .ptmDialogue .. | .ptmResponseTimeout .. | .cadPtmCtlWrite .. | .barSizeWrite .. | .busMasterEnableWrite ..
  | .pmcsrWrite .. | .pmeTurnOff .. | .hostUnsupportedRequest .. | .atsInvalidationRequest .. | .ctxWdogKickWrite ..
  | .ulWriteReceive .. | .ulReadReceive .. | .ulAtomicReceive .. => raised ++ [.cad]
  | .nandEraseFail .. | .patrolPass .. | .blockRefresh .. | .garbageCollection .. | .wearLevelling ..
  | .mediaWorn .. => raised ++ [.med]
  | .bypassAck .. | .bypassNak .. | .bypassLpmReq .. | .bypassLpmAck .. => raised ++ [.mbx]
  | .pelotonSplit .. => raised ++ [.pel]
  | .extest .. | .clamp .. | .highz .. => raised ++ [.tap]
  | .restEntry .. => raised ++ [.qps, .lbs]
  | .msixVectorUnmask .. => raised ++ [.msix, .cad]
  | .registerAnswerTimeout .. => raised ++ [.flt, .cad]
  | .vfEnableSet .. | .cqEvtCfgWrite .. => raised ++ [.deferred, .cad]
  | .ctxWfenceRead .. | .ctxPersistRead .. => raised ++ [.ctxs, .cad]
  | .nop .. | .copy .. | .fill .. | .fence .. | .persist .. | .atomic .. | .send .. | .frameOut .. | .mark .. =>
    raised ++ [.qps, .cad]
  | .hostReadBar4 .. => raised ++ [.hreads, .cad]
  | .dramCorrectedError .. => raised ++ [.flt, .store]
  | .routedItemDelivery .. => raised ++ [.qps, .ritems]
  | .rebuildComplete .. => raised ++ [.flt, .med]
  | .stripeWrite .. | .nandRead .. | .nandProgramFail .. => raised ++ [.store, .med]
  | .bypassShiftReq .. => raised ++ [.flt, .mbx]
  | .levelChangeOrder .. | .thermalRefresh .. | .ctxQuery .. | .ctxWdogCfg .. | .ctxList .. | .aptQuery ..
  | .storeQuery .. | .storeRecord .. | .storeFormat .. | .mediaHealth .. | .mediaRebuild .. | .bypassPeerMbx ..
  | .pelQuery .. | .tandemQuery .. | .mbxWatchdogExpiry .. | .mbxForward .. | .devQuery .. | .devReset ..
  | .maintEnter .. | .prepareExtract .. | .sleepEnter .. | .wakeCfg .. | .thermQuery .. | .powerPolicy ..
  | .powerQuery .. | .fwQuery .. | .fuseQuery .. | .ifQuery .. | .echo .. | .logRead .. | .timeQuery .. =>
    raised ++ [.cmds, .mbx]
  | .sysPllLock .. => raised ++ [.now, .pel]
  | .watchdogExpiry .. => raised ++ [.ctxs, .pel]
  | .stateView .. | .stateJoin .. | .joinWaitExpiry .. => raised ++ [.cad, .pel]
  | .doorbellWrite .. => raised ++ [.now, .qps, .cad]
  | .hostWriteBar2 .. => raised ++ [.ctxs, .lbs, .cad]
  | .atsTranslationCompletion .. | .ulRoutedReceive .. => raised ++ [.qps, .lbs, .cad]
  | .hostWriteBar4 .. => raised ++ [.ctxs, .cad, .store]
  | .functionsReady .. | .dramUncorrectableError .. | .lunLost .. => raised ++ [.flt, .store, .med]
  | .aptAttach .. | .aptDetach .. | .fuseProgram .. => raised ++ [.deferred, .cmds, .mbx]
  | .aptCreate .. => raised ++ [.cmds, .store, .mbx]
  | .bypassStroke .. => raised ++ [.cad, .mbx, .pel]
  | .fwStageBegin .. | .fwStageData .. | .fwStageEnd .. | .fwActivate .. | .fwCommit .. | .fwRollback .. =>
    raised ++ [.cmds, .mbx, .fw]
  | .hostReadBar2 .. => raised ++ [.ctxs, .lbs, .hreads, .cad]
  | .lbLockedBlocksReceived .. | .linkInitReceive .. | .lintEdge .. => raised ++ [.qps, .lbs, .cad, .ritems]
  | .mbxDoorbellGo .. => raised ++ [.now, .cad, .cmds, .mbx]
  | .vfEnableClear .. => raised ++ [.deferred, .ctxs, .cad, .pel]
  | .ctxSetShare .. | .ctxReset .. | .ctxDestroy .. | .tandemPair .. => raised ++ [.ctxs, .cmds, .mbx, .pel]
  | .deviceRequestCompletion .. | .deviceRequestTimeout .. | .lbCtlEnWrite .. | .lbRetrain ..
  | .lbTrainingBlocksInActive .. | .linkNakReceive .. | .lbNakTimeout .. | .lbEgressPacket .. | .lbReadReceive ..
  | .lbWritePostedReceive .. | .lbWriteAckedReceive .. | .lbRespReceive .. | .lbAtomicReceive ..
  | .windowCompletionTimeout .. => raised ++ [.ctxs, .qps, .lbs, .hreads, .cad]
  | .coreFence .. | .firmwareRestart .. => raised ++ [.irqStacks, .flt, .ctxs, .cmds, .mbx]
  | .configRequest .. | .flrReceived .. => raised ++ [.deferred, .ctxs, .cad, .cmds, .pel]
  | .rejoinCompare .. => raised ++ [.flt, .ctxs, .store, .med, .pel]
  | .cadStrokeLoRead .. | .icClaim .. | .registerRead .. =>
    raised ++ [.banks, .irqStacks, .holdLeft, .flt, .ctxs, .cad]
  | .dlDown .. => raised ++ [.ctxs, .qps, .lbs, .hreads, .cad, .store]
  | .lbMsgReceive .. | .lbFrameReceive .. | .lbSidebandReceive .. =>
    raised ++ [.ctxs, .qps, .lbs, .hreads, .cad, .ritems]
  | .tandemUnpair .. => raised ++ [.flt, .cmds, .store, .med, .mbx, .pel]
  | .firmwareRestartComplete .. => raised ++ [.flt, .ctxs, .cmds, .mbx, .pel, .fw]
  | .writeAdmission .. => raised ++ [.ctxs, .qps, .cad, .store, .med, .mem]
  | .dlDownClassify .. => raised ++ [.deferred, .ctxs, .lbs, .hreads, .cad, .cmds, .pel]
  | .maintenanceSafePoint .. | .longOperationEnd .. => raised ++ [.ctxs, .store, .med, .mbx, .fw, .mem, .nand]
  | .internalParityError .. => raised ++ [.flt, .deferred, .ctxs, .qps, .lbs, .hreads, .cad, .store, .med]
  | .stateTandem .. => raised ++ [.flt, .deferred, .ctxs, .qps, .hreads, .cad, .store, .med, .mem, .nand]
  | .aptErase .. => raised ++ [.ctxs, .qps, .hreads, .cad, .cmds, .store, .med, .mbx, .mem, .nand]
  | .ulCtlEnWrite .. | .bypassInit .. | .bypassInitAck .. | .ulGraceExpiry .. =>
    raised ++ [.flt, .ctxs, .qps, .lbs, .hreads, .cad, .cmds, .store, .ritems, .mbx, .pel]
  | .ulRespReceive .. => raised ++ [.flt, .deferred, .ctxs, .qps, .hreads, .cad, .cmds, .store, .med, .mbx, .pel]
  | .preserveEntry .. => raised ++ [.flt, .ctxs, .qps, .lbs, .hreads, .cad, .cmds, .store, .ritems, .mbx, .pel, .fw]
  | .smbRegRead .. | .smbRegWrite .. | .smbMbxWrite .. | .smbMbxRead .. | .smbAttn .. =>
    raised ++ [.banks, .msix, .irqStacks, .holdLeft, .flt, .deferred, .ctxs, .qps, .lbs, .hreads, .cad, .cmds,
      .store, .ritems, .mbx, .pel, .fw]
  | .devDrainLimitWrite .. | .ctxSelWdogWrite .. | .icPendSet .. | .icPendClr .. | .icEnSet .. | .icEnClr ..
  | .icEoi .. | .icHoldWrite .. | .registerWrite .. =>
    raised ++ [.now, .banks, .msix, .irqStacks, .holdLeft, .flt, .deferred, .ctxs, .qps, .lbs, .hreads, .cad, .cmds,
      .store, .ritems, .mbx, .pel, .fw]
  | .dapAccessGo .. =>
    raised ++ [.banks, .msix, .irqStacks, .holdLeft, .flt, .deferred, .ctxs, .qps, .lbs, .hreads, .cad, .cmds,
      .store, .ritems, .mbx, .pel, .tap, .fw]
  | .strokeBoundary .. =>
    raised ++ [.now, .banks, .msix, .irqStacks, .holdLeft, .flt, .deferred, .ctxs, .qps, .lbs, .hreads, .cad, .cmds,
      .inForce, .store, .ritems, .med, .mbx, .pel, .tap, .fuses, .fw, .mem, .nand]

end Sys2Proof.Machine
end

