-- ==== Sys2Proof/WellFormed.lean ====
section
/-! DEFINITION. WellFormed.lean: which commands a sender can form. Most operands are bounded by their types; the rest are
bounds on byte lists and relations between operands. The meanings are total: a command that no sender forms still has one. -/
namespace Sys2Proof

/-- The operands are such as the interface that carries the command allows: eight NAND channels and an organisation of
Table 11-8 (12 R279, 11 R270); host payloads of at most 512 bytes (04 Table
04-4) and reads of at least one; whole descriptors (06 R131); the 9-bit LEN of a local bus packet (08 Table 08-3); cells
of 256 bytes (13 Table 13-8); PEER_MBX fragments of at most 20 (16 R412); SMBus transfers of Table 16-14. -/
def Instr.wf : Instr → Bool
  | .functionsReady nand dram => decide (nand.length = 8) && (dram.both || (!dram.ranks2 && !dram.dense))
  | .hostReadBar2 _ _ len => decide (1 ≤ len.val)
  | .hostReadBar4 _ _ len => decide (1 ≤ len.val)
  | .hostWriteBar2 _ _ data => decide (1 ≤ data.length ∧ data.length ≤ 512)
  | .hostWriteBar4 _ _ data => decide (1 ≤ data.length ∧ data.length ≤ 512)
  | .deviceRequestCompletion _ _ _ data => decide (data.length ≤ 4096)
  | .descriptorFetch _ _ data => decide (data.length % 64 = 0)
  | .descriptorFetchFail _ _ _ data _ => decide (data.length % 64 = 0)
  | .lbReceiverLock _ delays => decide (delays.length = 37)
  | .lbWritePostedReceive _ _ _ data => decide (data.length < 512)
  | .lbWriteAckedReceive _ _ _ _ data => decide (data.length < 512)
  | .lbMsgReceive _ _ _ data => decide (data.length < 512)
  | .lbFrameReceive _ _ _ _ _ data => decide (data.length < 512)
  | .lbRespReceive _ _ _ _ data => decide (data.length < 512)
  | .bypassPeerMbx _ _ _ _ _ _ data => decide (data.length ≤ 20)
  | .ulCellReceive _ _ _ _ _ _ _ _ data => decide (data.length = 256)
  | .smbMbxWrite _ _ off data =>
    decide (off.val % 4 = 0 ∧ data.length % 4 = 0 ∧ 4 ≤ data.length ∧ data.length ≤ 240 ∧ off.val + data.length ≤ 4096)
  | .smbMbxRead _ off len => decide (4 ≤ len.val ∧ len.val ≤ 240 ∧ off.val + len.val ≤ 4096)
  | .sysRstNRelease .. | .bootCopyAccepted .. | .bootNoCopyAccepted .. | .thermTripRecognised .. | .devDrainLimitWrite ..
  | .cadStrokeLoRead .. | .ptmDialogue .. | .cadPtmCtlWrite .. | .levelChangeOrder .. | .thermalRefresh ..
  | .hlLinkUp .. | .hlLaneFail .. | .configRequest .. | .vfEnableSet .. | .barSizeWrite .. | .busMasterEnableWrite ..
  | .pmcsrWrite .. | .d0Return .. | .flrReceived .. | .flrComplete .. | .hostUnsupportedRequest ..
  | .deviceRequestTimeout .. | .atsTranslationCompletion .. | .atsInvalidationRequest .. | .atsInvalidationComplete ..
  | .ctxSetShare .. | .shareRecordApply .. | .ctxQuery .. | .ctxReset .. | .ctxDestroy .. | .ctxWdogCfg ..
  | .ctxList .. | .contextDrainStart .. | .contextSquash .. | .squashComplete .. | .contextQuiesce ..
  | .watchdogExpiry .. | .ctxWdogKickWrite .. | .ctxSelWdogWrite .. | .tagQuarantineRelease .. | .qpEnable ..
  | .qpDisable .. | .doorbellWrite .. | .descriptorDeal .. | .nop .. | .copy .. | .fill ..
  | .fence .. | .persist .. | .atomic .. | .send .. | .frameOut .. | .mark .. | .descriptorComplete ..
  | .completionEntryWrite .. | .qpAbortGo .. | .abortResolve .. | .spokeEngineFence .. | .ctxWfenceRead ..
  | .ctxWfenceReturn .. | .ctxWfenceTimeout .. | .lbCtlEnWrite .. | .lbRetrain .. | .lbResetExit ..
  | .lbLockedBlocksReceived .. | .lbTrainTimeout .. | .lbFailedGapExpiry .. | .lbTrainingBlocksInActive ..
  | .linkInitReceive .. | .linkCreditReceive .. | .linkNakReceive .. | .lbLinkError .. | .lbNakTimeout ..
  | .lbCreditSend .. | .lbEgressPacket .. | .lbReadReceive .. | .lbSidebandReceive .. | .lbAtomicReceive ..
  | .lbRetryLaterResend .. | .windowCompletionTimeout .. | .speculativeReadAbandon .. | .prefetchBlockExpiry ..
  | .strandedEntryExpiry .. | .lintEdge .. | .winMap .. | .winUnmap .. | .winAttrWrite .. | .routeEntryWrite ..
  | .routedItemDelivery .. | .routedItemPeerSend .. | .aptCreate .. | .aptAttach .. | .aptDetach .. | .aptErase ..
  | .aptQuery .. | .writeAdmission .. | .ctxPersistRead .. | .ctxPersistReturn .. | .ctxPersistTimeout ..
  | .mirrorAckReceive .. | .mirrorAckTimeout .. | .resyncComplete .. | .dsBudgetWrite .. | .dsHoldupWrite ..
  | .unitFlushComplete .. | .stripeWrite .. | .dramCorrectedError .. | .dramUncorrectableError .. | .nandRead ..
  | .nandProgramFail .. | .lunLost .. | .rebuildComplete .. | .patrolPass .. | .blockRefresh ..
  | .garbageCollection .. | .wearLevelling .. | .storeQuery .. | .storeRecord .. | .storeFormat .. | .mediaHealth ..
  | .mediaRebuild .. | .ulCtlEnWrite .. | .ulRetrain .. | .ulLanesLocked .. | .ulTrainTimeout .. | .bypassInit ..
  | .bypassInitAck .. | .bypassAck .. | .bypassNak .. | .bypassCredit .. | .bypassStroke .. | .bypassDelayReq ..
  | .bypassDelayResp .. | .bypassShiftReq .. | .bypassLpmReq .. | .bypassLpmAck .. | .bypassPhoto .. | .bypassNull ..
  | .bypassRetransmit .. | .ulLinkError .. | .ulLaneFault .. | .ulLinkDown .. | .ulGraceExpiry .. | .ulCoastIdle ..
  | .ulCoastExit .. | .ulParkExit .. | .ulWriteReceive .. | .ulReadReceive .. | .ulAtomicReceive ..
  | .ulRespReceive .. | .ulRoutedReceive .. | .mirrorWriteReceive .. | .messageForward .. | .stateView ..
  | .stateJoin .. | .stateLeave .. | .stateTandem .. | .stateHandover .. | .stateRelocate .. | .joinSend ..
  | .memberLoss .. | .failover .. | .handoverSend .. | .pelQuery .. | .pelLeave .. | .tandemPair .. | .tandemUnpair ..
  | .tandemQuery .. | .sourceEdge .. | .icPendSet .. | .icPendClr .. | .icEnSet .. | .icEnClr .. | .icClaim ..
  | .icEoi .. | .holdOffExpiry .. | .icHoldWrite .. | .strokeTimerExpiry .. | .gpioEdge .. | .contextEventSet ..
  | .coalescingTimerExpiry .. | .cqEvtCfgWrite .. | .msixTriggerDelivery .. | .mbxDoorbellGo ..
  | .mbxWatchdogExpiry .. | .longOperationEnd .. | .mbxForward .. | .devQuery .. | .devReset .. | .maintEnter ..
  | .prepareExtract .. | .perfSet .. | .sleepEnter .. | .wakeCfg .. | .thermQuery .. | .powerPolicy ..
  | .powerQuery .. | .fwQuery .. | .fwStageBegin .. | .fwStageData .. | .fwStageEnd .. | .fwActivate .. | .fwCommit ..
  | .fwRollback .. | .fuseQuery .. | .fuseProgram .. | .ifQuery .. | .echo .. | .logRead .. | .timeQuery ..
  | .smbRegRead .. | .smbRegWrite .. | .smbAttn .. | .restEntry .. | .coreWatchdogExpiry .. | .coreFence ..
  | .faultStop .. | .firmwareRestart .. | .internalParityError .. | .registerWrite .. | .msixVectorUnmask ..
  | .registerRead .. | .hlLinkLayerError .. | .markerRowReceive .. | .ulInitSend .. | .ulEgressUnit ..
  | .l0pRequest .. | .l1EntryRequest .. | .lbBndCreditLate .. | .nandEraseFail .. | .delayReqSend .. | .ulAckSend ..
  | .ulCreditReport .. | .ulNakRepeat .. | .ulReplayTimeout .. | .stateReservedStype .. | .pelotonSplit ..
  | .rejoinCompare .. | .firmwareRestartComplete .. | .sramUncorrectableError .. | .registerAnswerTimeout ..
  | .samplePreload .. | .extest .. | .dapAccessGo .. | .dramAlert .. | .l0pPartnerRequest .. | .coldPowerOnReset
  | .sysRstNAssertion | .sysPllLock | .enterServing | .pwrFailRecognised | .cardEjectRecognised | .drainComplete
  | .drainLimitReached | .maintenanceSafePoint | .preserveEntry | .preserveHalt | .devResetApply | .strokeBoundary
  | .ptmResponseTimeout | .cadCommitGo | .cadenceCommitApply | .levelSwitch | .vidStep | .throttleGraceExpiry
  | .hlRecoveryEntry | .hlPerstAssertion | .hlPerstRelease | .hotResetReceived | .dlDown | .dlDownClassify
  | .vfFrsSend | .vfEnableClear | .pmeTurnOff | .hlAtsFlush | .hlRetrain | .ltrSend | .dramScrubPass | .mediaWorn
  | .joinWaitExpiry | .viewSend | .memberFence | .strokeCompareMatch | .ksAlarmMatch | .trialBoot | .freewheelEntry
  | .freewheelExit | .idleSleepOrder | .restEntryComplete | .wakeEvent | .restExit | .pfsTrigGo | .photoNEdge
  | .photoLatch | .pfsArm | .tapReset | .idcode | .clamp | .highz | .bypass | .dap | .supplyLoss | .ksXtalStart
  | .hlRecoveryExit => true

end Sys2Proof
end

