-- ==== Sys2Proof/Certificates/Slice0/Obligations.lean ====
section
/-! DEFINITION. Certificates/Slice0/Obligations.lean: the statements for the provers. Runs i s p says that exec of i at s answers
a next state of which p holds; HostOpen and hostNoted are said in Safety.lean. -/
open Sys2Proof Sys2Proof.Machine

/-- For every state and every command at the front of its queue, the step is the command's effect on the state with the
rest of the queue; on an empty queue the block idles (log 1). (R388, R152; derived) -/
def Obligations.StepRunsTheFrontCommand : Prop :=
  (∀ (s : State) (c : Instr) (cs : List Instr), s.pending = c :: cs → step s = exec c { s with pending := cs }) ∧
    ∀ s : State, s.pending = [] → step s = .next s

/-- From every state whose register table and whose two tables of aperture bytes (what a read returns and what NAND holds)
list their addresses in strictly rising order and list no value equal to what an unlisted address reads as, a step to
a next state gives such a state again. The form is the model's (logs 1 and 5). (R247, R464, R3; derived) -/
def Obligations.EveryStepKeepsTheCanonicalForm : Prop :=
  ∀ s t : State, Canonical s → step s = .next t → Canonical t

/-- State.reset, the block after a cold power-on reset and before any row (log 2), has its registers and aperture memory in canonical
form, reads BOOT, has SYS_RST_N asserted, an empty queue, VID 0b111000, no aperture byte (log 5) and the stroke counter at 0. That the
pin is still asserted, and the form of memory, are the model's choices. (R51, R247, R33; derived) -/
def Obligations.ResetStateIsCanonicalAndIdle : Prop :=
  Canonical State.reset ∧ State.reset.mode = .boot ∧ State.reset.dev.sysRst = true ∧ State.reset.pending = [] ∧
    State.reset.dev.vid = 0b111000 ∧ State.reset.ds.mem = [] ∧ State.reset.now = 0

/-- For every command and every state: where exec answers a next state, the queue of commands is unchanged and every part
of State outside mayChange of the command is unchanged (the list names, for each of the 322 commands, the parts it may
change: registers, contexts' tables, host link, ports, links, store, NAND, mailboxes, fuses, and so on). (R7, R102,
R247, R388; derived) -/
def Obligations.CommandsChangeOnlyTheirParts : Prop :=
  ∀ (i : Instr) (s t : State), exec i s = .next t → Only (mayChange i) s t

/-- No command ends in a fault or a refusal in any state: there is always a next state. That a command whose conditions do not hold
changes nothing (log 4), and that no meaning answers with the fault or the refusal (log 11), are the model's choices. What the next
state holds is said by the other statements. (R6, R90, R137, R388; derived) -/
def Obligations.EveryCommandAnswersANextState : Prop :=
  ∀ (i : Instr) (s : State), ∃ t, exec i s = .next t

/-- Across a step every programmed field of the fuse array stays programmed; only a stroke boundary, at which a FUSE_PROGRAM ends (the
model's choice, log 235), may change the fuse array. (R461, R407, R32; derived) -/
def Obligations.ProgrammedFusesStayProgrammed : Prop :=
  (∀ s t : State, step s = .next t → s.fuses.marks ⊆ t.fuses.marks) ∧
    ∀ (i : Instr) (s t : State), i ≠ .strokeBoundary → exec i s = .next t → t.fuses = s.fuses

/-- With the counter running and no DEV_RESET due, a stroke boundary answers a next state whose stroke number is one more, modulo 2^48;
where a JOINING member in STANDBY is to take the count of its peloton, it is that count. (R152, R50, R157; derived) -/
def Obligations.StrokeCounterSteps : Prop :=
  ∀ s : State, s.dev.counting = true → devResetDue s = false → s.pel.adopt = none →
    Runs .strokeBoundary s fun t => t.now = s.now + 1

/-- With the host link open and the physical function ready, its configuration requests in their turn: while Memory Space Enable is set
a size write for the physical function changes no size, while VF Enable is set one for virtual functions changes none; while they are
clear a legal write of each of the four size controls sets that size and no other. (R78) -/
def Obligations.BarSizesChangeOnlyWhileClear : Prop :=
  (∀ (bar4 : Bool) (log2 : Fin 64) (s : State), HostTurn s 0 → (s.fn 0).mse = true →
      exec (.barSizeWrite false bar4 log2) s = .next (hostNoted s)) ∧
  (∀ (bar4 : Bool) (log2 : Fin 64) (s : State), HostTurn s 0 → s.hl.vfEnable = true →
      exec (.barSizeWrite true bar4 log2) s = .next (hostNoted s)) ∧
  (∀ (log2 : Fin 64) (s : State), HostTurn s 0 → cfgOpen s 0 = true → (s.fn 0).mse = false → log2.val ≤ 14 →
      Runs (.barSizeWrite false false log2) s fun t => t.hl = { s.hl with pfBar2 := log2 }) ∧
  (∀ (log2 : Fin 64) (s : State), HostTurn s 0 → cfgOpen s 0 = true → (s.fn 0).mse = false → 8 ≤ log2.val → log2.val ≤ 16 →
      Runs (.barSizeWrite false true log2) s fun t => t.hl = { s.hl with pfBar4 := log2 }) ∧
  (∀ (log2 : Fin 64) (s : State), HostTurn s 0 → cfgOpen s 0 = true → s.hl.vfEnable = false → log2.val ≤ 14 →
      Runs (.barSizeWrite true false log2) s fun t => t.hl = { s.hl with vfBar2 := log2 }) ∧
  (∀ (log2 : Fin 64) (s : State), HostTurn s 0 → cfgOpen s 0 = true → s.hl.vfEnable = false → 8 ≤ log2.val → log2.val ≤ 16 →
      Runs (.barSizeWrite true true log2) s fun t => t.hl = { s.hl with vfBar4 := log2 })

/-- After a system reset, whether by SYS_RST_N without protected dirty data or by a cold power-on reset, each entry of
each of the sixteen lists of the two cadence tables reads 0x02. (R161) -/
def Obligations.TablesHoldNoReservationAfterReset : Prop :=
  (∀ (k : Fin 16) (s : State), Runs .coldPowerOnReset s fun t => t.list k = List.replicate (slotsOf (k.val % 4)) 0x02) ∧
  (∀ (k : Fin 16) (s : State), s.dev.sysRst = false → s.dev.supplies = true → s.mode ≠ .preserve →
      s.ds.dirty = [] → Runs .sysRstNAssertion s fun t => t.list k = List.replicate (slotsOf (k.val % 4)) 0x02)

/-- A cold power-on reset clears the kickstand domain, keeps NAND and the fuses and leaves the device in BOOT
with COLD alone in DEV_RST_CAUSE. SYS_RST_N without protected dirty data resets at once and sets SYS_RST; with it, PRESERVE is ordered with CAUSE 0x0A and the
reset waits for the halt. On release the straps are sampled and the ROM starts at STAGE 1. At SYS PLL lock the stroke
counter starts at 0. The first copy in the order 0 to 3 that passes every test leads to STAGE 4, with COPY and FAILED
naming the copies, its release and its image running, and to STANDBY; where none passes, STAGE and FAILED are 0xF, ERR tells
why copy 3 was rejected, and the BOOT_FAIL attention bit is set. That any dirty unit counts as protected dirty data (log 19), and which
copies hold no whole image (logs 163 and 226), are the model's choices. (R47, R50, R51, R52, R54, R55, R56; derived) -/
def Obligations.ResetsAndBootRom : Prop :=
  (∀ s : State, Runs .coldPowerOnReset s fun t =>
      t.dev = {} ∧ t.flt = {} ∧ t.tap = {} ∧ t.pwr = {} ∧ t.now = 0 ∧ t.mode = .boot ∧ t.word Adr.DEV_RST_CAUSE = 1 ∧
        t.fuses = s.fuses ∧ t.ds.nand = s.ds.nand ∧ t.ds.mem = s.ds.nand ∧ t.ds.dirty = []) ∧
  (∀ s : State, s.dev.sysRst = false → s.dev.supplies = true → s.mode ≠ .preserve → s.ds.dirty = [] →
      Runs .sysRstNAssertion s fun t => t.dev.sysRst = true ∧ t.dev.rom = false ∧ t.dev.counting = false ∧ t.mode = .boot ∧
        t.get Fld.DEV_RST_CAUSE_SYS_RST = 1 ∧ t.now = 0 ∧ t.fuses = s.fuses ∧ t.ds.nand = s.ds.nand) ∧
  (∀ s : State, s.dev.sysRst = false → s.dev.supplies = true → s.mode ≠ .preserve → s.ds.dirty ≠ [] → s.dev.presPend = none →
      exec .sysRstNAssertion s = .next
        (s.devUpd fun d => { d with sysRst := true, presPend := some 0x0A, devResetAt := none, rstAtHalt := true })) ∧
  (∀ (straps : BitVec 8) (s : State), s.dev.sysRst = true → s.dev.rstAtHalt = false →
      Runs (.sysRstNRelease straps) s fun t => t.dev.sysRst = false ∧ t.dev.straps = straps ∧ t.dev.rom = true ∧
        t.get Fld.DEV_BOOT_STAGE = 1 ∧ t.word Adr.DBG_POLICY = s.fuses.policy) ∧
  (∀ s : State, s.dev.rom = true → s.dev.counting = false →
      Runs .sysPllLock s fun t => t.now = 0 ∧ t.dev.counting = true ∧ t.dev.rom = true ∧ t.get Fld.CRP_CLK_SYS_LOCK = 1) ∧
  (∀ (unread mute : BitVec 4) (k : Fin 4) (s : State), trying s = true → firstGood unread mute s = some k.val →
      Runs (.bootCopyAccepted unread mute) s fun t => t.get Fld.DEV_BOOT_STAGE = 4 ∧ t.get Fld.DEV_BOOT_COPY = k ∧
        t.get Fld.DEV_BOOT_FAILED = 2 ^ k.val - 1 ∧ t.word Adr.DEV_FWREV = s.fwCopy k ∧ t.fw.running = s.copy k ∧ .toStandby ∈ t.dev.causes) ∧
  (∀ (unread mute : BitVec 4) (s : State), trying s = true → firstGood unread mute s = none →
      Runs (.bootNoCopyAccepted unread mute) s fun t => t.get Fld.DEV_BOOT_STAGE = 0xF ∧ t.get Fld.DEV_BOOT_FAILED = 0xF ∧
        t.get Fld.DEV_BOOT_ERR = copyFault unread mute s 3 ∧ t.get Fld.MBX_BC_ATTN_BOOT_FAIL = 1 ∧ t.mode = .boot)

/-- In STANDBY with good DRAM and no join under way, functions ready sets DRS and makes the physical function ready. Bus
Master Enable seen in STANDBY with no other cause, and no order of the stroke that overtakes it, is due at the boundary, which then
leads to SERVING with CAUSE 0x02. PWR_FAIL_N and the thermal trip raise sources 0 and 3 and order PRESERVE with CAUSE 0x07 and 0x08;
where it is ordered already they raise the sources only. CARD_EJECT_N raises source 1 and adds its drain cause in SERVING, and is held
in BOOT and MAINTENANCE; a complete drain orders PRESERVE with CAUSE 0x09. Outside Rest the sources of PWR_FAIL_N and CARD_EJECT_N are
then pending. (R58, R59, R60, R61, R62, R63, R64, R431; derived) -/
def Obligations.ReadyServingAndBoardOrders : Prop :=
  (∀ (nand : List NandChannel) (dram : DramOrg) (s : State), s.mode = .standby → s.dev.drs = false → s.pelState ≠ 1 → dramGood dram = true →
      Runs (.functionsReady nand dram) s fun t => t.dev.drs = true ∧ (t.fn 0).ready = true ∧ t.fuses = s.fuses) ∧
  (∀ s : State, s.mode = .standby → s.dev.servingAt.isSome = true → s.dev.causes = [] → s.dev.presPend = none → servingOvertaken s = false →
      exec .enterServing s = .next (atBoundary .serving s)) ∧
  (∀ s : State, s.mode = .standby → s.dev.servingAt.isSome = true → s.dev.causes = [] → s.sleepState = 0 →
      (modeBoundary s).mode = .serving ∧ (modeBoundary s).get Fld.DEV_MODE_PREV = 1 ∧ (modeBoundary s).get Fld.DEV_MODE_CAUSE = 2 ∧
        (modeBoundary s).dev.servingAt = none ∧ (modeBoundary s).now = s.now) ∧
  (∀ s : State, recognises s = true → s.dev.presPend = none →
      exec .pwrFailRecognised s = .next ((raise 0 s).devUpd fun d => { d with presPend := some 7, devResetAt := none })) ∧
  (∀ (cause : Nat) (s : State), recognises s = true → s.dev.presPend = some cause → exec .pwrFailRecognised s = .next (raise 0 s)) ∧
  (∀ s : State, recognises s = true → s.inRest = false → Runs .pwrFailRecognised s fun t => isPending t 0 = true) ∧
  (∀ s : State, recognises s = true → s.dev.presPend = none →
      exec (.thermTripRecognised true) s = .next ((raise 3 s).devUpd fun d => { d with presPend := some 8, devResetAt := none })) ∧
  (∀ (cause : Nat) (s : State), recognises s = true → s.dev.presPend = some cause → exec (.thermTripRecognised true) s = .next (raise 3 s)) ∧
  (∀ s : State, recognises s = true → s.dev.presPend = none → s.dev.tripOut = false → 920 ≤ s.hottest →
      Runs (.thermTripRecognised false) s fun t => t.dev.tripOut = true ∧ t.dev.presPend = some 8 ∧
        t.get Fld.CRP_THROTTLE_CNT_TRIPS = min Fld.CRP_THROTTLE_CNT_TRIPS.max (s.get Fld.CRP_THROTTLE_CNT_TRIPS + 1)) ∧
  (∀ s : State, recognises s = true → s.mode = .serving → .cardEject ∉ s.dev.causes →
      exec .cardEjectRecognised s = .next ((raise 1 s).devUpd fun d => { d with causes := d.causes ++ [.cardEject] })) ∧
  (∀ s : State, recognises s = true → s.mode = .maintenance →
      Runs .cardEjectRecognised s fun t => t.dev.heldOrder = true ∧ .heldOrder ∈ t.dev.causes ∧ t.mode = .maintenance) ∧
  (∀ s : State, recognises s = true → s.mode = .boot →
      exec .cardEjectRecognised s = .next ((raise 1 s).devUpd fun d => { d with heldOrder := true, heldEject := true })) ∧
  (∀ s : State, recognises s = true → s.inRest = false → Runs .cardEjectRecognised s fun t => isPending t 1 = true) ∧
  (∀ s : State, drained s = true → s.dev.presPend = none →
      exec .drainComplete s = .next (s.devUpd fun d => { d with presPend := some 9, devResetAt := none }))

/-- A drain limit reached at the boundary to come is due there, as the model judges it (log 173), and PRESERVE is entered with CAUSE
0x0D. DEV_DRAIN_LIMIT takes values of 1 to 1,000 from the physical function, the board controller and firmware where the map lets them,
keeps its value on others, and takes none from the debug master (the model's choice, log 91). A maintenance operation at its safe point
ends for a held order, which orders PRESERVE with CAUSE 0x0E. PRESERVE entry sets the mode and CAUSE, notes the stroke, takes the device
out of any sleep state and sheds the host link; the halt stops the stroke counter once nothing is dirty. A due DEV_RESET resets the
device, with the straps as sampled (the model's choice, log 15), keeps NAND and fuses and records CMD_RESET. (R60, R62, R63, R65, R66,
R67, R266, R267; derived) -/
def Obligations.DrainLimitMaintenanceAndPreserve : Prop :=
  (∀ s : State, drainOver { s with now := s.now + 1 } = true → exec .drainLimitReached s = .next (atBoundary .drainLimit s)) ∧
  (∀ s : State, drainOver s = true → (modeBoundary s).mode = .preserve ∧ (modeBoundary s).get Fld.DEV_MODE_CAUSE = 0x0D ∧
      (modeBoundary s).dev.presFrom = some s.now ∧ (modeBoundary s).hreads = [] ∧ (modeBoundary s).now = s.now) ∧
  (∀ (m : Master) (v : BitVec 10) (s : State), (m = .bc ∨ ∃ c, m = .core c) → mapCause s m 0x100030 true = none →
      blockGated s (blockOf 0x100030) = false → 1 ≤ v.toNat → v.toNat ≤ 1000 →
      Runs (.devDrainLimitWrite m v) s fun t => t.get Fld.DEV_DRAIN_LIMIT_LIMIT_MS = v.toNat ∧ t.dev = s.dev ∧ t.mode = s.mode) ∧
  (∀ (m : Master) (v : BitVec 10) (s : State), (m = .bc ∨ ∃ c, m = .core c) → mapCause s m 0x100030 true = none →
      blockGated s (blockOf 0x100030) = false → (v = 0 ∨ 1000 < v.toNat) →
      Runs (.devDrainLimitWrite m v) s fun t => t.get Fld.DEV_DRAIN_LIMIT_LIMIT_MS = s.get Fld.DEV_DRAIN_LIMIT_LIMIT_MS ∧ t.dev = s.dev) ∧
  (∀ (v : BitVec 10) (s : State), HostTurn s 0 → s.ds.full = false → (s.fn 0).enabled = true → mapCause s (.host 0) 0x100030 true = none →
      blockGated s (blockOf 0x100030) = false → 1 ≤ v.toNat → v.toNat ≤ 1000 →
      Runs (.devDrainLimitWrite (.host 0) v) s fun t => t.get Fld.DEV_DRAIN_LIMIT_LIMIT_MS = v.toNat ∧ t.mode = s.mode) ∧
  (∀ (v : BitVec 10) (s : State), mapCause s .debug 0x100030 true = none → blockGated s (blockOf 0x100030) = false →
      exec (.devDrainLimitWrite .debug v) s = .next s) ∧
  (∀ s : State, s.mode = .maintenance → s.dev.heldOrder = true → opRuns s = true → s.dev.presPend = none →
      Runs .maintenanceSafePoint s fun t => t.dev.presPend = some 0x0E ∧ t.mbx.store.state = 0 ∧ t.mbx.fw.state = 0) ∧
  (∀ (cause : Nat) (s : State), s.mode ≠ .preserve → s.dev.presPend = some cause → cause < 256 →
      Runs .preserveEntry s fun t => t.mode = .preserve ∧ t.get Fld.DEV_MODE_CAUSE = cause ∧ t.dev.presFrom = some s.now ∧
        t.dev.presPend = none ∧ t.get Fld.CRP_SLEEP_STATE = 0 ∧ t.get Fld.HL_LINK_STATUS_DL_UP = 0 ∧ t.fuses = s.fuses ∧ t.hreads = [] ∧
        t.hl.rx = [] ∧ t.cad.items = []) ∧
  (∀ s : State, s.mode = .preserve → s.dev.halted = false → s.ds.dirty = [] → s.dev.rstAtHalt = false →
      Runs .preserveHalt s fun t => t.dev.halted = true ∧ t.dev.counting = false ∧ t.mode = .preserve ∧ t.ds.nand = s.ds.nand) ∧
  (∀ s : State, devResetDue s = true →
      Runs .devResetApply s fun t => t.mode = .boot ∧ t.get Fld.DEV_RST_CAUSE_CMD_RESET = 1 ∧ t.get Fld.DEV_BOOT_STAGE = 1 ∧
        t.now = 0 ∧ t.dev.rom = true ∧ t.dev.straps = s.dev.straps ∧ t.fuses = s.fuses ∧ t.ds.nand = s.ds.nand)

/-- While the stroke counter stands a boundary counts only KS_TIME, where the crystal runs, and the time since SYS_RST_N was released
(the model's choice, log 169); in PRESERVE the counters go on (log 117) and the store, the mode and the outputs stay. A read of
CAD_STROKE_LO answers bits [31:0] and latches bits [47:32] for the reading master. A due PTM dialogue is sent, sets VALID and clears
the count of failures; a missing response clears VALID and counts. Clearing DISCIPLINE clears ANCHORED. A commit's GO
sets RESULT to PENDING (1) and stamps it, and while it is pending changes nothing. A commit that may be applied is due at the boundary to
come (the model's choice, log 173); applied without an error it sets RESULT 2 with the boundary's stroke and each active list to its
shadow list, refused it sets RESULT 3 with its first failure and changes no list. (R97, R152, R154, R155, R156, R162; derived) -/
def Obligations.StrokesAndHostTime : Prop :=
  (∀ s : State, s.dev.counting = false → exec .strokeBoundary s = .next (ksCount (countRelease s))) ∧
  (∀ s : State, s.dev.counting = false → s.dev.ksSlow = false → s.dev.sysRst = true → exec .strokeBoundary s = .next s) ∧
  (∀ s : State, s.dev.counting = true → s.mode = .preserve → s.deferred = [] → s.qps = [] → s.msixDue = [] →
      Runs .strokeBoundary s fun t => t.now = s.now + 1 ∧ t.mode = .preserve ∧ t.dev = (countRelease s).dev ∧ t.ds = s.ds ∧ t.out = s.out) ∧
  (∀ (m : Master) (s : State), (m = .bc ∨ m = .debug ∨ ∃ c, m = .core c) → mapCause s m 0x280000 false = none → blockGated s (blockOf 0x280000) = false →
      Runs (.cadStrokeLoRead m) s fun t =>
      t.out = .reg m (BitVec.ofNat 32 s.nowLo) :: s.out ∧ t.bank m Adr.CAD_STROKE_HI = BitVec.ofNat 32 s.nowHi ∧ t.regs = s.regs ∧ t.now = s.now) ∧
  (∀ (host : BitVec 64) (s : State), ptmDue s = true → s.isSet Fld.CAD_PTM_CTL_DISCIPLINE = false →
      Runs (.ptmDialogue host) s fun t => .pcie 0 "PTM" 0 ∈ t.out ∧ t.isSet Fld.HL_PTM_STATUS_VALID = true ∧ t.cad.ptmFails = 0 ∧
        t.hl.ptmWait = some (s.now + BitVec.ofNat 48 (s.get Fld.HL_PTM_CTL_PERIOD))) ∧
  (∀ s : State, ptmDue s = true → s.cad.ptmFails < 15 →
      Runs .ptmResponseTimeout s fun t => t.isSet Fld.HL_PTM_STATUS_VALID = false ∧ t.cad.ptmFails = s.cad.ptmFails + 1 ∧ t.cad.ptmGood = 0) ∧
  (∀ (v : Word) (s : State), v.getLsbD 31 = false →
      Runs (.cadPtmCtlWrite v) s fun t => t.get Fld.CAD_PTM_CTL_DISCIPLINE = 0 ∧ t.get Fld.CAD_PTM_STATUS_ANCHORED = 0 ∧
        t.isSet Fld.CAD_PTM_STATUS_LOCKED = false ∧ t.cad.ptmErr = 0) ∧
  (∀ s : State, s.get Fld.CAD_COMMIT_RESULT ≠ 1 →
      Runs .cadCommitGo s fun t => t.get Fld.CAD_COMMIT_RESULT = 1 ∧ t.cad.commitAt = some s.now ∧ t.cad.lists = s.cad.lists) ∧
  (∀ s : State, s.get Fld.CAD_COMMIT_RESULT = 1 → exec .cadCommitGo s = .next s) ∧
  (∀ s : State, commitMay s = true → exec .cadenceCommitApply s = .next (atBoundary .commit s)) ∧
  (∀ (b : Stroke) (s : State), commitErr s = none → (commitApply b s).get Fld.CAD_COMMIT_RESULT = 2 ∧ (commitApply b s).cad.commitAt = none ∧
      (commitApply b s).get Fld.CAD_COMMIT_TS_STROKE_LO = b.toNat % 2 ^ 32 ∧ (∀ k : Fin 8, (commitApply b s).list (8 + k) = s.list k)) ∧
  (∀ (b : Stroke) (e l slot : Nat) (up : Bool) (s : State), commitErr s = some (e, up, l, slot) →
      (commitApply b s).get Fld.CAD_COMMIT_RESULT = 3 ∧ (commitApply b s).get Fld.CAD_COMMIT_ERR = e ∧ (commitApply b s).get Fld.CAD_COMMIT_DIR = up.toNat ∧
        (commitApply b s).cad.commitAt = none ∧ (commitApply b s).cad.lists = s.cad.lists)

/-- An order for a higher level number starts a change from stroke R to B 41 strokes later; an order of PERF_SET for the level in
force completes at once with stroke 0; a level that firmware may choose is kept as its order for the end of the stroke (the model's
choice, logs 85 and 232). At B, judged for the boundary to come (log 173), the level register and the slot plan change together and the
command completes with the stroke; a refused change leaves both and ends with 0x0A. Every 20 strokes VID moves one level (8 codes). A
throttle step refused for GRACE strokes is forced: the cap moves, and where the level follows it, the level with one VID step (the
model's choice, log 84). A thermal refresh at or above 100 °C (800 eighths) raises THERM_ALERT (source 2) once and notes the crossing.
(R168, R169, R417, R418, R419, R430; derived) -/
def Obligations.LevelsAndThermalPolicy : Prop :=
  (∀ s : State, s.pwr.chg = none → s.awake = true → s.mode ≠ .preserve → s.pwr.want = none →
      s.restarting = false → s.level < effective (s.get Fld.CRP_LEVEL_ORDERED) (s.get Fld.CRP_LEVEL_CAP) s.fwLevel →
      Runs (.levelChangeOrder none) s fun t => t.regs = s.regs ∧ t.dev = s.dev ∧
        t.pwr.chg = some
          { target := effective (s.get Fld.CRP_LEVEL_ORDERED) (s.get Fld.CRP_LEVEL_CAP) s.fwLevel, src := 3, r := s.now, b := s.now + 41 }) ∧
  (∀ (l src id : Nat) (s : State), s.pwr.chg = none → s.awake = true → s.mode ≠ .preserve → s.restarting = false → s.pwr.want = some (l, src, id) →
      effective l (s.get Fld.CRP_LEVEL_CAP) s.fwLevel = s.level →
      exec (.levelChangeOrder none) s = .next (cmdDone id 0 [0, 0, 0, 0, 0, 0] ((s.pwrUpd fun p => { p with want := none }).set Fld.CRP_LEVEL_ORDERED l))) ∧
  (∀ (l : Fin 4) (s : State), s.pwr.chg = none → s.awake = true → s.mode ≠ .preserve → s.restarting = false → fwMayOrder s l = true →
      exec (.levelChangeOrder (some l)) s = .next (s.pwrUpd fun p => { p with fwWant := some (.level l) })) ∧
  (∀ (c : LevelChange) (s : State), switchDue s = some c → exec .levelSwitch s = .next (atBoundary .levelNow s)) ∧
  (∀ (c : LevelChange) (s : State), levelErr s c.target = none → c.cmd = none → c.target < 4 →
      (levelSwitch c s).get Fld.CRP_LEVEL_CUR = c.target ∧ (levelSwitch c s).get Fld.CAD_STATUS_LEVEL = c.target ∧ (levelSwitch c s).now = s.now) ∧
  (∀ (c : LevelChange) (id : Nat) (s : State), levelErr s c.target = none → c.cmd = some id → c.target < 4 →
      ∃ u, levelSwitch c s = cmdDone id 0 (leBytes 6 c.b.toNat) u ∧ u.get Fld.CRP_LEVEL_CUR = c.target ∧ u.get Fld.CAD_STATUS_LEVEL = c.target) ∧
  (∀ (c : LevelChange) (id : Nat) (e : Bool × Nat × Nat × Nat) (s : State), levelErr s c.target = some e → c.cmd = some id →
      ∃ u, levelSwitch c s = cmdDone id 0x0A (leBytes 4 (u.word Adr.CAD_LEVEL_LOG).toNat) u ∧ u.get Fld.CRP_LEVEL_CUR = s.get Fld.CRP_LEVEL_CUR ∧
        u.level = s.level) ∧
  (∀ (c : LevelChange) (at_ : Stroke) (s : State), s.pwr.chg = some c → c.vidAt = some at_ → s.reached at_ = true → s.mode ≠ .preserve →
      c.switched = false → c.refused = false → c.target < 7 → s.dev.vid.toNat + 8 ≤ vidOf c.target →
      Runs .vidStep s fun t => t.dev.vid = s.dev.vid + 8 ∧ t.regs = s.regs) ∧
  (∀ (at_ : Stroke) (s : State), s.pwr.refusedAt = some at_ → s.pwr.chg = none → s.awake = true → s.restarting = false → s.mode ≠ .preserve →
      s.isSet Fld.CAD_STATUS_THROTTLE_PEND = true → s.get Fld.CAD_THROTTLE_GRACE ≠ 0 →
      s.reached (at_ + BitVec.ofNat 48 (s.get Fld.CAD_THROTTLE_GRACE)) = true → s.get Fld.CRP_LEVEL_CAP < 3 →
      s.level < effective (s.get Fld.CRP_LEVEL_ORDERED) (s.get Fld.CRP_LEVEL_CAP + 1) s.fwLevel →
      effective (s.get Fld.CRP_LEVEL_ORDERED) (s.get Fld.CRP_LEVEL_CAP + 1) s.fwLevel < 4 →
      Runs .throttleGraceExpiry s fun t => t.get Fld.CRP_LEVEL_CAP = s.get Fld.CRP_LEVEL_CAP + 1 ∧
        t.get Fld.CRP_LEVEL_CUR = effective (s.get Fld.CRP_LEVEL_ORDERED) (s.get Fld.CRP_LEVEL_CAP + 1) s.fwLevel ∧
        t.get Fld.CAD_STATUS_THROTTLE_PEND = 0 ∧ t.dev.vid = s.dev.vid - 8 ∧
        t.get Fld.CRP_THROTTLE_CNT_FORCED = min Fld.CRP_THROTTLE_CNT_FORCED.max (s.get Fld.CRP_THROTTLE_CNT_FORCED + 1)) ∧
  (∀ (t0 : BitVec 16) (s : State), s.pwr.refreshed = none → s.mode ≠ .preserve → 800 ≤ tempOf t0 → s.pwr.hot = false → s.awake = false →
      Runs (.thermalRefresh t0 t0 t0 t0 t0 t0 t0 t0) s fun t => t.pwr.hot = true ∧ t.pwr.refreshed = some s.now ∧
        t.get (Fld.CRP_TEMP_TEMP 0) = t0.toNat ∧ t.get (Fld.CRP_TEMP_TEMP 7) = t0.toNat ∧ (s.inRest = false → isPending t 2 = true)) ∧
  (∀ (t0 : BitVec 16) (s : State), s.pwr.refreshed = none → s.mode ≠ .preserve → 800 ≤ tempOf t0 → tempOf t0 < 920 → s.pwr.hot = true → s.awake = false →
      Runs (.thermalRefresh t0 t0 t0 t0 t0 t0 t0 t0) s fun t => t.pwr.hot = true ∧ t.word (Adr.IC_PEND 0) = s.word (Adr.IC_PEND 0))

/-- The host link comes up at the widest width and highest rate both ends and HL_LINK_CTL permit, and sends the DRS it
owes. A lane failure retrains to the widest passing width and logs code 0x0050. Leaving L0 sets IN_RECOVERY.
HL_PERST_N and hot reset mark the down event to come as a host-link reset; a down event records HL_SDOWN, clears DL_UP
and SLOT_CAP and abandons the tags, while WIDTH, SPEED and FLIT keep their values (the model's choice, log 211); 200 strokes later it is
classified: in SERVING a surprise becomes a drain cause. (R53, R57, R72, R74, R80, R96, R99, R472; derived) -/
def Obligations.HostLinkStates : Prop :=
  (∀ (width : Fin 17) (speed : Fin 7) (flit : Bool) (s : State), hlEnabled s = true → s.mode ≠ .preserve →
      s.isSet Fld.HL_LINK_STATUS_DL_UP = false → s.hl.down = none →
      widestWidth width (s.get Fld.HL_LINK_CTL_MAX_WIDTH) ≠ 0 → 1 ≤ speed.val → 1 ≤ s.get Fld.HL_LINK_CTL_MAX_SPEED →
      Runs (.hlLinkUp width speed flit) s fun t => t.get Fld.HL_LINK_STATUS_DL_UP = 1 ∧ t.get Fld.HL_LINK_STATUS_FLIT = flit.toNat ∧
        t.get Fld.HL_LINK_STATUS_WIDTH = widestWidth width (s.get Fld.HL_LINK_CTL_MAX_WIDTH) ∧
        t.get Fld.HL_LINK_STATUS_SPEED = min (min speed.val (s.get Fld.HL_LINK_CTL_MAX_SPEED)) (if flit then 6 else 5) ∧
        t.hl.drsOwed = false ∧ t.hl.hot = false ∧ (s.hl.drsOwed = true → t.out.head? = some (.pcie 0 "DRS" 0))) ∧
  (∀ (pass : BitVec 16) (s : State), s.isSet Fld.HL_LINK_STATUS_DL_UP = true →
      widestWidth (widthPassing pass) (s.get Fld.HL_LINK_CTL_MAX_WIDTH) ≠ 0 →
      widestWidth (widthPassing pass) (s.get Fld.HL_LINK_CTL_MAX_WIDTH) < s.get Fld.HL_LINK_STATUS_TRAINED_WIDTH →
      Runs (.hlLaneFail pass) s fun t => t.get Fld.HL_LINK_STATUS_WIDTH = widestWidth (widthPassing pass) (s.get Fld.HL_LINK_CTL_MAX_WIDTH) ∧
        t.flt.logged = s.flt.logged + 1 ∧ t.get Fld.DEV_FAULT_LOG_CODE = 0x0050) ∧
  (∀ s : State, s.isSet Fld.HL_LINK_STATUS_DL_UP = true → s.get Fld.HL_LINK_STATUS_LSTATE = 1 →
      exec .hlRecoveryEntry s = .next (raise 22
        (((s.set Fld.HL_LINK_STATUS_LSTATE 3).set Fld.HL_LINK_STATUS_IN_RECOVERY 1).hlUpd fun h => { h with recClear := none }))) ∧
  (∀ s : State, s.dev.perst = false → s.isSet Fld.HL_LINK_STATUS_DL_UP = true →
      Runs .hlPerstAssertion s fun t => t.dev.perst = true ∧ t.hl.downReset = true ∧ t.hl.down = s.hl.down ∧ t.mode = s.mode) ∧
  (∀ s : State, s.isSet Fld.HL_LINK_STATUS_DL_UP = true → s.hl.down = none →
      exec .hlPerstRelease s = .next ((s.devUpd fun d => { d with perst := false }).hlUpd fun h => { h with downReset := false })) ∧
  (∀ s : State, s.isSet Fld.HL_LINK_STATUS_DL_UP = true → s.get Fld.HL_LINK_STATUS_LSTATE ≠ 4 → s.get Fld.HL_LINK_STATUS_LSTATE ≠ 5 → s.hl.sub = 0 →
      exec .hotResetReceived s = .next (raise 19 (leaveL0 ((s.hlUpd fun h => { h with hot := true }).set Fld.HL_LINK_STATUS_LSTATE 6)))) ∧
  (∀ s : State, s.isSet Fld.HL_LINK_STATUS_DL_UP = true → s.mode ≠ .preserve →
      Runs .dlDown s fun t => t.get Fld.HL_LINK_STATUS_DL_UP = 0 ∧ t.get Fld.HL_SDOWN_VALID = 1 ∧ t.hl.down = some s.now ∧ t.get Fld.HL_LINK_STATUS_SLOT_CAP = 0 ∧
        t.get Fld.HL_LINK_STATUS_WIDTH = s.get Fld.HL_LINK_STATUS_WIDTH ∧ t.get Fld.HL_LINK_STATUS_SPEED = s.get Fld.HL_LINK_STATUS_SPEED ∧
        t.get Fld.HL_LINK_STATUS_FLIT = s.get Fld.HL_LINK_STATUS_FLIT ∧ t.hl.tags = [] ∧ t.hl.ptmWait = none ∧ t.mode = s.mode) ∧
  (∀ (at_ : Stroke) (s : State), s.hl.down = some at_ → 200 ≤ s.since at_ → s.mode = .serving → s.hl.downReset = false →
      Runs .dlDownClassify s fun t => t.get Fld.HL_SDOWN_CLASS = 0 ∧ t.hl.down = none ∧ .surpriseDown ∈ t.dev.causes ∧ t.mode = .serving)

/-- With the link open, a configuration request in its turn (the order is the model's reading, log 206) receives CRS before DRS, whatever
its function; after it, one of a function that is not enabled Unsupported Request, one of a virtual function before its FRS CRS, and
one of a ready function is served: a read returns the word, a write acts on it and completes. VF Enable with an invalid NumVFs sets
BAD_NUMVFS and enables nothing; with a valid one, outside MAINTENANCE (the model's choice, log 171), it counts the functions, whose
contexts come at the next boundary; VF FRS makes enabled functions ready; clearing VF Enable ends ACTIVE_VFS. A BAR size is written while
Memory Space Enable is clear. Bus Master Enable set in STANDBY after DRS makes SERVING due. A move to D3hot and one back to D0 raise
source 25; the return to D0 clears HELD and what was held, a held vector that is not masked leaves, a masked one stays pending.
(R78, R80, R81, R90, R95, R384, R472; derived) -/
def Obligations.ConfigurationSpaceOfTheHost : Prop :=
  (∀ (c dw : Fin 1024) (wr : Option (BitVec 32 × BitVec 4)) (s : State), HostTurn s c → (s.fn 0).ready = false →
      exec (.configRequest c dw wr) s = .next (emit (.cpl c 3 []) (hostNoted s))) ∧
  (∀ (c dw : Fin 1024) (wr : Option (BitVec 32 × BitVec 4)) (s : State), HostTurn s c → (s.fn 0).ready = true → (s.fn c).enabled = false →
      exec (.configRequest c dw wr) s = .next (emit (.cpl c 1 []) (hostNoted s))) ∧
  (∀ (c dw : Fin 1024) (wr : Option (BitVec 32 × BitVec 4)) (s : State), HostTurn s c → (s.fn 0).ready = true → (s.fn c).enabled = true → (s.fn c).ready = false →
      exec (.configRequest c dw wr) s = .next (emit (.cpl c 3 []) (hostNoted s))) ∧
  (∀ (c dw : Fin 1024) (s : State), HostTurn s c → cfgOpen s c = true →
      exec (.configRequest c dw none) s = .next (emit (.cpl c 0 (leBytes 4 (cfgRead (hostNoted s) c dw))) (hostNoted s))) ∧
  (∀ (c dw : Fin 1024) (v : BitVec 32) (be : BitVec 4) (s : State), HostTurn s c → cfgOpen s c = true →
      exec (.configRequest c dw (some (v, be))) s = .next (emit (.cpl c 0 []) (cfgPut c dw v.toNat be (hostNoted s)))) ∧
  (∀ (ari : Bool) (s : State), HostTurn s 0 → (s.fn 0).ready = true → s.hl.vfEnable = false → s.mode ≠ .maintenance →
      Runs (.vfEnableSet 0 ari) s fun t => t.get Fld.HL_SRIOV_STATUS_BAD_NUMVFS = 1 ∧ t.hl.vfEnable = false ∧ t.hl.ari = ari ∧ t.fn 1 = s.fn 1) ∧
  (∀ (n : BitVec 16) (ari : Bool) (s : State), HostTurn s 0 → (s.fn 0).ready = true → s.hl.vfEnable = false → s.mode ≠ .maintenance → 1 ≤ n.toNat →
      n.toNat ≤ (if ari then 1023 else 7) → vfsLeft s = false →
      Runs (.vfEnableSet n ari) s fun t => t.hl.vfEnable = true ∧ t.hl.vfWaitFrs = true ∧ t.hl.numVfs = n.toNat ∧ t.hl.ari = ari ∧
        t.get Fld.HL_SRIOV_STATUS_ACTIVE_VFS = n.toNat ∧ t.deferred = s.deferred ++ [.vfs n.toNat]) ∧
  (∀ s : State, s.hl.vfWaitFrs = true → Runs .vfFrsSend s fun t => t.hl.vfWaitFrs = false ∧ t.out = .pcie 0 "FRS VF Enabled" 0 :: s.out ∧
      (∀ e ∈ t.fns, e.2.enabled = true → e.2.ready = true)) ∧
  (∀ s : State, HostTurn s 0 → (s.fn 0).ready = true → s.hl.vfEnable = true →
      Runs .vfEnableClear s fun t => t.hl.vfEnable = false ∧ t.hl.vfWaitFrs = false ∧ t.get Fld.HL_SRIOV_STATUS_ACTIVE_VFS = 0) ∧
  (∀ (log2 : Fin 64) (s : State), HostTurn s 0 → cfgOpen s 0 = true → (s.fn 0).mse = false → log2.val ≤ 14 → s.hl.pfBar2 ≠ log2.val →
      exec (.barSizeWrite false false log2) s = .next (raise 37 ((hostNoted s).hlUpd fun h => { h with pfBar2 := log2 }))) ∧
  (∀ (log2 : Fin 64) (s : State), HostTurn s 0 → 14 < log2.val → exec (.barSizeWrite false false log2) s = .next (hostNoted s)) ∧
  (∀ s : State, HostTurn s 0 → cfgOpen s 0 = true → (s.fn 0).bme = false → s.pbaOf 0 = 0 → s.mode = .standby → s.dev.drs = true →
      Runs (.busMasterEnableWrite 0 true) s fun t => (t.fn 0).bme = true ∧ t.dev.servingAt = some s.now ∧ t.mode = .standby) ∧
  (∀ (c : Fin 1024) (pme clr : Bool) (s : State), HostTurn s c → cfgOpen s c = true → (s.fn c).d3 = false →
      Runs (.pmcsrWrite c true pme clr) s fun t => (t.fn c).d3 = true ∧ (t.fn c).pmeEn = pme ∧ isPending t 25 = true) ∧
  (∀ (c : Fin 1024) (pme clr : Bool) (s : State), HostTurn s c → cfgOpen s c = true → (s.fn c).d3 = true →
      Runs (.pmcsrWrite c false pme clr) s fun t => (t.fn c).d3 = false ∧ (t.fn c).d0due = true ∧ (t.fn c).pmeEn = pme ∧ isPending t 25 = true) ∧
  (∀ (c : Fin 1024) (s : State), (s.fn c).d0due = true →
      Runs (.d0Return c) s fun t => (t.fn c).d0due = false ∧ t.heldOf c = 0 ∧ ∀ q : Fin 64, t.get (Fld.CQ_EVT_STATUS_HELD c q) = 0) ∧
  (∀ (c : Fin 1024) (v : Fin 64) (s : State), (s.fn c).d0due = true → (s.fn c).d3 = false → s.heldOf c = 1#64 <<< v.val → (s.pbaOf c).getLsbD v = true →
      s.isSet Fld.HL_LINK_STATUS_DL_UP = true → s.get Fld.HL_LINK_STATUS_LSTATE ≠ 5 → (s.fn c).msixEn = true → (s.fn c).bme = true →
      (s.fn c).fmask = false → (s.msixAt c v).ctl.getLsbD 0 = false →
      Runs (.d0Return c) s fun t => t.out = .msix c v (s.msixAt c v).addr (s.msixAt c v).data (steeringTag s c v) :: s.out ∧
        (t.pbaOf c).getLsbD v = false) ∧
  (∀ (c : Fin 1024) (v : Fin 64) (s : State), (s.fn c).d0due = true → s.heldOf c = 1#64 <<< v.val → (s.fn c).fmask = true →
      Runs (.d0Return c) s fun t => t.pbaOf c = s.pbaOf c ∧ t.out = s.out)

/-- PME_Turn_Off is answered with PME_TO_Ack and the link enters L2/L3 Ready. An FLR of a standby function completes at
once with FRS and drops the held reads of CTX_WFENCE; otherwise FRS follows the context's reset. A read of BAR2 or BAR4 that passes its
checks is held, on BAR4 as one more item of the cadence; a posted write that passes takes its sequence number and becomes an item; a read
of BAR2 outside it is answered Unsupported Request (the model's choice, log 28), and one of the physical function that no entry covers
zeros; no posted write to BAR2 or BAR4 is received while the staging buffer is full (the model's choice, log 60). I/O, locked and AtomicOp
requests are answered Unsupported Request; a Vendor_Defined Type 0 message is logged as one (the model's choice, log 150), a poisoned and
an ECRC-failing request as their own errors, and a Vendor_Defined Type 1 message is discarded. An answer leaves in its turn, and a context
in DRAIN or SQUASH serves neither (the model's readings, logs 206 and 33). (R90, R96, R98, R121, R145, R159, R249, R252, R472; derived) -/
def Obligations.HostRequestsAndFlr : Prop :=
  (∀ s : State, HostOpen s → s.ds.full = false → exec .pmeTurnOff s = .next
      (raise 24 (leaveL0 ((emit (.pcie 0 "PME_TO_Ack" 0) (hostNoted s)).set Fld.HL_LINK_STATUS_LSTATE 5)))) ∧
  (∀ (c : Fin 1024) (s : State), HostTurn s c → (s.fn c).enabled = true → (s.fn c).ready = true → c.val ≠ 0 →
      (s.fn c).atsEn = false → s.cst c = 6 →
      Runs (.flrReceived c) s fun t => t.out.head? = some (.pcie c "FRS FLR Completed" 0) ∧ (t.ctx c).flr = false ∧ (t.ctx c).wfence = []) ∧
  (∀ (c : Fin 1024) (s : State), HostTurn s c → (s.fn c).enabled = true → (s.fn c).ready = true → c.val ≠ 0 →
      1 ≤ s.cst c → s.cst c ≤ 5 → Runs (.flrReceived c) s fun t => (t.ctx c).flr = true ∧ (t.fn c).bme = false ∧ (t.ctx c).op.isSome = true ∧ t.now = s.now) ∧
  (∀ (c : Fin 1024) (s : State), (s.ctx c).flr = true → (s.ctx c).op = none → s.linkUp = true → c.val ≠ 0 →
      exec (.flrComplete c) s = .next (emit (.pcie c "FRS FLR Completed" 0) (s.ctxUpd c fun x => { x with flr := false }))) ∧
  (∀ (c : Fin 1024) (off : BitVec 34) (len : Fin 4097) (s : State), HostTurn s c → outsideBar (hostNoted s) c off.toNat len (s.bar2 c) = true →
      exec (.hostReadBar2 c off len) s = .next (emit (.cpl c 1 []) (hostNoted s))) ∧
  (∀ (c : Fin 1024) (off : BitVec 34) (len : Fin 4097) (w : Nat) (s : State), HostOpen s → outsideBar s c off.toNat len (s.bar2 c) = false →
      hostStateRefuses s c = none → checkBar2 s c off.toNat len false = (.pass, w) → 1 ≤ len.val → (s.lb (s.winPort c w)).pf = [] → (s.lb (s.winPort c w)).srb = [] →
      Runs (.hostReadBar2 c off len) s fun t => t.out = s.out ∧ t.hreads.length = s.hreads.length + 1 ∧
        (t.hreads.getLast?.map fun r => (r.c, r.bar, r.w, r.len)) = some (c.val, 2, w, len.val)) ∧
  (∀ (off : BitVec 34) (len : Fin 4097) (w : Nat) (s : State), HostTurn s 0 → outsideBar s 0 off.toNat len (s.bar2 0) = false →
      hostStateRefuses s 0 = none → checkBar2 s 0 off.toNat len false = (.noEntry, w) →
      exec (.hostReadBar2 0 off len) s = .next (cplData 0 off.toNat (List.replicate len 0) (hostNoted s))) ∧
  (∀ (c : Fin 1024) (off : BitVec 34) (data : List Byte) (s : State), s.ds.full = true →
      exec (.hostWriteBar2 c off data) s = .next s) ∧
  (∀ (c : Fin 1024) (off : BitVec 34) (data : List Byte) (w : Nat) (s : State), HostOpen s → s.ds.full = false →
      outsideBar s c off.toNat data.length (s.bar2 c) = false → hostStateRefuses s c = none → checkBar2 s c off.toNat data.length true = (.pass, w) →
      s.wseq c < 2 ^ 64 - 1 → Runs (.hostWriteBar2 c off data) s fun t => t.wseq c = s.wseq c + 1 ∧ t.cad.items.length = s.cad.items.length + 1 ∧ t.out = s.out) ∧
  (∀ (c : Fin 1024) (off : BitVec 36) (len : Fin 4097) (s : State), HostOpen s → outsideBar (hostNoted s) c off.toNat len (s.bar4 c) = false →
      hostStateRefuses (hostNoted s) c = none → checkApt (hostNoted s) (onlineApt (hostNoted s) c) off.toNat len = .pass →
      Runs (.hostReadBar4 c off len) s fun t => t.cad.items.length = s.cad.items.length + 1 ∧ t.hreads.length = s.hreads.length + 1 ∧
        t.out = s.out ∧ t.ds = s.ds) ∧
  (∀ (c : Fin 1024) (off : BitVec 36) (data : List Byte) (s : State), s.ds.full = true →
      exec (.hostWriteBar4 c off data) s = .next s) ∧
  (∀ (c : Fin 1024) (off : BitVec 36) (data : List Byte) (s : State), HostOpen s → s.ds.full = false →
      outsideBar s c off.toNat data.length (s.bar4 c) = false → hostStateRefuses s c = none → checkApt s (onlineApt s c) off.toNat data.length = .pass →
      Runs (.hostWriteBar4 c off data) s fun t => (t.ctx c).wseq4 = (s.ctx c).wseq4 + 1 ∧ t.cad.items.length = s.cad.items.length + 1 ∧ t.out = s.out) ∧
  (∀ (fn : Fin 1024) (s : State), HostTurn s fn → exec (.hostUnsupportedRequest (.io fn)) s = .next (emit (.cpl fn 1 []) (hostNoted s))) ∧
  (∀ (fn : Fin 1024) (s : State), HostTurn s fn → exec (.hostUnsupportedRequest (.locked fn)) s = .next (emit (.cpl fn 1 []) (hostNoted s))) ∧
  (∀ (fn : Fin 1024) (s : State), HostTurn s fn → exec (.hostUnsupportedRequest (.atomic fn)) s = .next (emit (.cpl fn 1 []) (hostNoted s))) ∧
  (∀ (fn : Fin 1024) (s : State), HostOpen s → s.ds.full = false → exec (.hostUnsupportedRequest (.vendor0 fn)) s = .next (aerTlp fn 20 (hostNoted s))) ∧
  (∀ (fn : Fin 1024) (s : State), HostOpen s → s.ds.full = false → exec (.hostUnsupportedRequest (.poisoned fn)) s = .next (aerAdvisory fn 12 28 (hostNoted s))) ∧
  (∀ (fn : Fin 1024) (s : State), HostOpen s → exec (.hostUnsupportedRequest (.ecrc fn)) s = .next (aerTlp fn 19 (hostNoted s))) ∧
  (∀ s : State, HostOpen s → s.ds.full = false → exec (.hostUnsupportedRequest .vendor1) s = .next (hostNoted s))

/-- A completion that meets no request of its function is an Unexpected Completion; one that meets one frees its tag and ends
the request, a poisoned one is reported too, and the late one of an abandoned request only frees the tag; a timeout retires the tag (the
model's choice, logs 31 and 151) and ends the request. A translation that nothing asked for is an Unexpected Completion, one without any
permission refuses what asked for it (log 43), another fills the cache; an invalidation discards exactly the translations that it names
and is answered once no access checked under what it names is still to be issued, and 2 ms after it came at the latest; FLUSH discards
every translation. RETRAIN takes the link to Recovery. An L0p width is asked for after 2,000 strokes of low use; an accepted one narrows the
link to L0p with source 23; L1 is asked for where the conditions hold, and entered where the partner accepts. An LTR message carries
HL_LTR_VAL. An abandoned tag is free once its timeout has passed. (R72, R82, R85, R86, R87, R92, R93, R94, R119; derived) -/
def Obligations.TagsTranslationsAndLinkPower : Prop :=
  (∀ (c tag : Fin 1024) (st : Fin 4) (data : List Byte) (s : State), HostOpen s → s.hl.tags.find? (tagIs c tag) = none →
      exec (.deviceRequestCompletion c tag st data) s = .next (aerAdvisory (if (s.fn c).enabled then c.val else 0) 16 28 (hostNoted s))) ∧
  (∀ (c tag : Fin 1024) (st : Fin 4) (data : List Byte) (u : Nat × HostTag) (s : State), HostOpen s →
      s.hl.tags.find? (tagIs c tag) = some u → u.2.quarantined = false → st.val ≠ 3 → (st.val ≠ 0 ∨ u.2.use.isAts = false) →
      exec (.deviceRequestCompletion c tag st data) s = .next (tagEnds u.2.use (cplAns st data) (freeTags (tagIs c u.1) (hostNoted s)))) ∧
  (∀ (c tag : Fin 1024) (data : List Byte) (u : Nat × HostTag) (s : State), HostOpen s →
      s.hl.tags.find? (tagIs c tag) = some u → u.2.quarantined = false →
      exec (.deviceRequestCompletion c tag 3 data) s = .next (tagEnds u.2.use (cplAns 3 data) (aerAdvisory c 12 28 (freeTags (tagIs c u.1) (hostNoted s))))) ∧
  (∀ (c tag : Fin 1024) (st : Fin 4) (data : List Byte) (u : Nat × HostTag) (s : State), HostOpen s →
      s.hl.tags.find? (tagIs c tag) = some u → u.2.quarantined = true →
      Runs (.deviceRequestCompletion c tag st data) s fun t => t.hl.tags = s.hl.tags.filter (fun x => !tagIs c u.1 x)) ∧
  (∀ (c tag : Fin 1024) (s : State), s.hl.tags.find? (tagIs c tag) = none → exec (.deviceRequestTimeout c tag) s = .next s) ∧
  (∀ (c tag : Fin 1024) (u : Nat × HostTag) (n : Nat) (s : State), s.hl.tags.find? (tagIs c tag) = some u → ctoStrokes (s.fn u.2.ctx).cto = some n →
      n ≤ s.since u.2.issued → u.2.quarantined = false →
      exec (.deviceRequestTimeout c tag) s = .next (tagEnds u.2.use .timeout (retireTag c u.1 (aerAdvisory u.2.ctx 14 31 s)))) ∧
  (∀ (c tag : Fin 1024) (u : Nat × HostTag) (s : State), s.hl.tags.find? (tagIs c tag) = some u → (tagTimedOut s u.2 = false ∨ u.2.quarantined = true) →
      exec (.deviceRequestTimeout c tag) s = .next s) ∧
  (∀ (c : Fin 1024) (iova ta : Addr) (log2 : Fin 53) (r w u n g : Bool) (s : State), HostOpen s → s.hl.tags.find? (atsAsks c (atsPage iova.toNat)) = none →
      exec (.atsTranslationCompletion c iova ta log2 r w u n g) s = .next (aerAdvisory (if (s.fn c).enabled then c.val else 0) 16 28 (hostNoted s))) ∧
  (∀ (c : Fin 1024) (iova ta : Addr) (log2 : Fin 53) (u n g : Bool) (t : Nat) (page : Addr) (h : HostTag) (who : AtsFor) (s : State), HostOpen s →
      s.hl.tags.find? (atsAsks c (atsPage iova.toNat)) = some (t, h) → h.quarantined = false → h.use = .ats page who →
      exec (.atsTranslationCompletion c iova ta log2 false false u n g) s = .next (askerDenied who (freeTags (tagIs c t) (hostNoted s)))) ∧
  (∀ (c : Fin 1024) (iova ta : Addr) (log2 : Fin 53) (r w u n g : Bool) (t : Nat) (h : HostTag) (s : State), HostOpen s →
      s.hl.tags.find? (atsAsks c (atsPage iova.toNat)) = some (t, h) → h.quarantined = false → (r || w) = true →
      Runs (.atsTranslationCompletion c iova ta log2 r w u n g) s fun x => x.hl.tags = s.hl.tags.filter (fun z => !tagIs c t z) ∧
        (x.hl.ats.getLast?.map fun e => (e.ctx, e.iova, e.ta, e.r, e.w)) = some (c.val, atsPage iova.toNat, ta, r, w) ∧
        (s.hl.ats = [] → x.get Fld.HL_ATS_STATUS_VALID = 1)) ∧
  (∀ (c : Fin 1024) (iova : Addr) (log2 : Fin 65) (itag : Fin 32) (s : State), HostOpen s → s.ds.full = false →
      Runs (.atsInvalidationRequest c iova log2 itag) s fun t => t.hl.inval = s.hl.inval ++ [⟨itag, c, iova, log2, s.now⟩] ∧
        t.hl.ats = s.hl.ats.filter fun e => !invalNames c iova log2 e) ∧
  (∀ (c : Nat) (iova : Addr) (log2 : Nat) (e : AtsEntry), invalNames c iova log2 e = true ↔
      e.ctx = c ∧ e.iova.toNat / 2 ^ max log2 e.log2 = iova.toNat / 2 ^ max log2 e.log2) ∧
  (∀ (itag : Fin 32) (e : AtsInval) (s : State), (s.hl.inval.find? fun e => e.itag == itag.val) = some e → invalInUse s e = true →
      s.since e.since < 4000 → exec (.atsInvalidationComplete itag) s = .next s) ∧
  (∀ (itag : Fin 32) (e : AtsInval) (s : State), (s.hl.inval.find? fun e => e.itag == itag.val) = some e →
      (invalInUse s e = false ∨ 4000 ≤ s.since e.since) →
      exec (.atsInvalidationComplete itag) s = .next (emit (.pcie e.ctx "Invalidate Completion" itag)
        ((s.hlUpd fun h => { h with inval := h.inval.erase e }).dec Fld.HL_ATS_STATUS_INVAL_PEND 1))) ∧
  (∀ s : State, Runs .hlAtsFlush s fun t => t.hl.ats = [] ∧ t.get Fld.HL_ATS_STATUS_VALID = 0 ∧ t.hl.tags = s.hl.tags) ∧
  (∀ s : State, s.isSet Fld.HL_LINK_STATUS_DL_UP = true →
      Runs .hlRetrain s fun t => t.get Fld.HL_LINK_STATUS_LSTATE = 3 ∧ t.get Fld.HL_LINK_STATUS_IN_RECOVERY = 1 ∧ t.hl.recClear = none) ∧
  (∀ (width : Fin 17) (ok : Bool) (s : State), s.isSet Fld.HL_LINK_STATUS_FLIT = true → s.isSet Fld.HL_LPM_CTL_L0P_EN = true →
      (s.get Fld.HL_LINK_STATUS_LSTATE = 1 ∨ s.get Fld.HL_LINK_STATUS_LSTATE = 2) → width.val ∈ linkWidths → width.val < s.get Fld.HL_LINK_STATUS_WIDTH →
      l0pMinWidth s ≤ width.val → widthHoldsC0 s width = true → 2000 ≤ s.hl.lowUse →
      exec (.l0pRequest width ok) s = .next (doIf ok (l0pTo width) (emit (.pcie 0 "L0p request" width) (s.hlUpd fun h => { h with lowUse := 0 })))) ∧
  (∀ (width : Fin 17) (s : State), width.val < s.get Fld.HL_LINK_STATUS_WIDTH → s.get Fld.HL_LINK_STATUS_WIDTH ≤ s.get Fld.HL_LINK_STATUS_TRAINED_WIDTH →
      s.inRest = false → (l0pTo width s).get Fld.HL_LINK_STATUS_LSTATE = 2 ∧ (l0pTo width s).get Fld.HL_LINK_STATUS_WIDTH = width ∧ isPending (l0pTo width s) 23 = true) ∧
  (∀ (ok : Bool) (s : State), s.hl.aspmL1 = true → s.linkUp = true → s.hl.tags = [] → enginesIdle s = true →
      s.get Fld.HL_LPM_CTL_L1_IDLE ≤ s.since s.pwr.tlpAt → s.isSet Fld.HL_LPM_CTL_L1_WITH_C0 = true → s.get Fld.HL_LINK_STATUS_LSTATE = 1 →
      exec (.l1EntryRequest ok) s = .next (doIf ok (fun s => enterL1 (s.pwrUpd fun p => { p with outSeen := s.out.length })) (emit (.pcie 0 "L1 request" 0) s))) ∧
  (∀ s : State, exec .ltrSend s = .next (emit (.pcie 0 "LTR" (2 ^ 31 + (s.word Adr.HL_LTR_VAL).toNat)) s)) ∧
  (∀ (c tag : Fin 1024) (u : Nat × HostTag) (s : State), s.hl.tags.find? (tagIs c tag) = some u → u.2.quarantined = true →
      u.2.retired = false → tagTimedOut s u.2 = true →
      Runs (.tagQuarantineRelease c tag false) s fun t => t.hl.tags = s.hl.tags.filter (fun x => !tagIs c u.1 x) ∧ t.out = s.out)

/-- A context command that a core takes and that names an ABSENT context completes with code 3, one that names a STANDBY
or MOVED context with BUSY (1). CTX_QUERY answers 52 bytes of the context's registers and share record, CTX_LIST one
byte of state per context with bit 7 for a standby function. CTX_SET_SHARE of a record that exceeds a pool completes with NO_RESOURCE (4),
of one below a use that may not shrink, or on a context with a reset or destroy pending, with BUSY; an accepted one waits for its boundary.
A record that is due takes effect there: the share words and limits become the record's, CTX_SHR[7] and the result hold the stroke, BARE
and IDLE follow the limits; one that exceeds a pool by then completes with NO_RESOURCE, one that meets a reset with BUSY. A reset
or destroy is ordered with its cause. (R105, R110, R114, R115, R116, R403, R122; derived) -/
def Obligations.ContextCommandsAndShares : Prop :=
  (∀ (mb : Fin 1032) (core : Fin 4) (d : Fin 201) (x : Cmd) (e : Nat) (s : State), mayTake s mb core 0x0202 = some x →
      ctxCmdErr (takeCmd x core s) (leAt x.args 0 2) = some e →
      exec (.ctxSetShare mb core d) s = .next (cmdDone x.id e [] (takeCmd x core s))) ∧
  (∀ (mb : Fin 1032) (core : Fin 4) (d : Fin 201) (x : Cmd) (s : State), mayTake s mb core 0x0202 = some x →
      ctxCmdErr (takeCmd x core s) (leAt x.args 0 2) = none → resetPending (takeCmd x core s) (leAt x.args 0 2) = false →
      shareOver (takeCmd x core s) (leAt x.args 0 2) (argWords x.args) = false → shareBusy (takeCmd x core s) (leAt x.args 0 2) (argWords x.args) = false →
      (takeCmd x core s).partner (leAt x.args 0 2) = none →
      exec (.ctxSetShare mb core d) s = .next ((takeCmd x core s).ctxUpd (leAt x.args 0 2) fun y =>
        { y with share := some ⟨orderAt (takeCmd x core s) x.stamp d, x.stamp, argWords x.args, x.id⟩ })) ∧
  (∀ (mb : Fin 1032) (core : Fin 4) (d : Fin 201) (x : Cmd) (s : State), mayTake s mb core 0x0202 = some x →
      ctxCmdErr (takeCmd x core s) (leAt x.args 0 2) = none → resetPending (takeCmd x core s) (leAt x.args 0 2) = true →
      exec (.ctxSetShare mb core d) s = .next (cmdDone x.id 1 [] (takeCmd x core s))) ∧
  (∀ (mb : Fin 1032) (core : Fin 4) (d : Fin 201) (x : Cmd) (s : State), mayTake s mb core 0x0202 = some x →
      ctxCmdErr (takeCmd x core s) (leAt x.args 0 2) = none → resetPending (takeCmd x core s) (leAt x.args 0 2) = false →
      shareOver (takeCmd x core s) (leAt x.args 0 2) (argWords x.args) = true →
      exec (.ctxSetShare mb core d) s = .next (cmdDone x.id 4 [] (takeCmd x core s))) ∧
  (∀ (mb : Fin 1032) (core : Fin 4) (d : Fin 201) (x : Cmd) (s : State), mayTake s mb core 0x0202 = some x →
      ctxCmdErr (takeCmd x core s) (leAt x.args 0 2) = none → resetPending (takeCmd x core s) (leAt x.args 0 2) = false →
      shareOver (takeCmd x core s) (leAt x.args 0 2) (argWords x.args) = false → shareBusy (takeCmd x core s) (leAt x.args 0 2) (argWords x.args) = true →
      exec (.ctxSetShare mb core d) s = .next (cmdDone x.id 1 [] (takeCmd x core s))) ∧
  (∀ (mb : Fin 1032) (core : Fin 4) (x : Cmd) (s : State), mayTake s mb core 0x0201 = some x →
      exec (.ctxQuery mb core) s = .next (cmdDone x.id 0
        ([Adr.CTX_STATE, Adr.CTX_CAPS, Adr.CTX_OCC].flatMap (fun r => leBytes 4 ((takeCmd x core s).word (r (leAt x.args 0 2))).toNat) ++
          (shareWords (takeCmd x core s) (leAt x.args 0 2)).flatMap (fun w => leBytes 4 w.toNat) ++
          leBytes 4 ((takeCmd x core s).word (Adr.CTX_WDOG_STATUS (leAt x.args 0 2))).toNat) (takeCmd x core s))) ∧
  (∀ (mb : Fin 1032) (core : Fin 4) (d : Fin 201) (x : Cmd) (e : Nat) (s : State), mayTake s mb core 0x0203 = some x →
      ctxCmdErr (takeCmd x core s) (leAt x.args 0 2) = some e →
      exec (.ctxReset mb core d) s = .next (cmdDone x.id e [] (takeCmd x core s))) ∧
  (∀ (mb : Fin 1032) (core : Fin 4) (d : Fin 201) (x : Cmd) (s : State), mayTake s mb core 0x0203 = some x →
      ctxCmdErr (takeCmd x core s) (leAt x.args 0 2) = none → ((takeCmd x core s).ctx (leAt x.args 0 2)).op = none →
      Runs (.ctxReset mb core d) s fun t => (t.ctx (leAt x.args 0 2)).op.isSome = true) ∧
  (∀ (mb : Fin 1032) (core : Fin 4) (d : Fin 201) (x : Cmd) (s : State), mayTake s mb core 0x0204 = some x →
      ctxCmdErr (takeCmd x core s) (leAt x.args 0 2) = none → ((takeCmd x core s).ctx (leAt x.args 0 2)).op = none →
      Runs (.ctxDestroy mb core d) s fun t => ((t.ctx (leAt x.args 0 2)).op.map fun o => (o.destroy, o.cause)) = some (true, 3)) ∧
  (∀ (mb : Fin 1032) (core : Fin 4) (x : Cmd) (s : State), mayTake s mb core 0x0205 = some x →
      ctxCmdErr (takeCmd x core s) (leAt x.args 0 2) = none →
      exec (.ctxWdogCfg mb core) s = .next (cmdDone x.id 0 [] (wdogWrite (leAt x.args 0 2) (leAt x.args 4 4) (takeCmd x core s)))) ∧
  (∀ (mb : Fin 1032) (core : Fin 4) (x : Cmd) (s : State), mayTake s mb core 0x0206 = some x →
      exec (.ctxList mb core) s = .next (cmdDone x.id 0
        ((List.range 1024).map fun c => BitVec.ofNat 8 ((takeCmd x core s).cst c + if (takeCmd x core s).cst c = 6 then 128 else 0)) (takeCmd x core s))) ∧
  (∀ (c : Fin 1024) (p : SharePend) (s : State), shareDue s c = some p →
      exec (.shareRecordApply c) s = .next { s with deferred := s.deferred ++ [.shareNow c] }) ∧
  (∀ (c : Fin 1024) (p : SharePend) (s : State), p.words.length = 7 → resetPending s c = false → ctxCmdErr s c = none → shareOver s c p.words = false →
      shareBusy s c p.words = false → ∃ u, shareApply c p s = cmdDone p.cmd 0 (leBytes 6 p.at_.toNat) u ∧ shareWords u c = p.words ∧
        u.get (Fld.CTX_SHARE7_STROKE_LO c) = p.at_.toNat % 2 ^ 32 ∧ (u.ctx c).share = none ∧
        u.qpMax c = bitsOf (p.words.getD 4 0).toNat 30 24 ∧ u.vectorsOf c = bitsOf (p.words.getD 5 0).toNat 30 24 ∧
        (s.cst c = 1 → 1 ≤ u.qpMax c → 16 ≤ u.descMax c → u.cst c = 2) ∧ (s.cst c = 2 → u.qpMax c = 0 → u.cst c = 1)) ∧
  (∀ (c : Fin 1024) (p : SharePend) (s : State), resetPending s c = false → ctxCmdErr s c = none → shareOver s c p.words = true →
      shareApply c p s = cmdDone p.cmd 4 [] (s.ctxUpd c fun y => { y with share := none })) ∧
  (∀ (c : Fin 1024) (p : SharePend) (s : State), resetPending s c = true →
      shareApply c p s = cmdDone p.cmd 1 [] (s.ctxUpd c fun y => { y with share := none }))

/-- A reset that is due waits for the boundary: there a BARE context's reset ends at once (log 143) and another context enters DRAIN (4). The end of
a drain, of a squash and of ACTIVE wait for the boundary too: a context quiet or at its timeout enters SQUASH (5); a squashed one takes state IDLE, or BARE after a destroy, its
cause is recorded and its reset is over; one with no queue pair enabled and nothing outstanding leaves ACTIVE, to IDLE or, with
QP_MAX 0 or DESC_MAX below 16, to BARE. That a row of this kind marks the boundary of its stroke is the model's choice (log 173). A
watchdog that is not OFF fires at 0: RUNNING 0, WDOG_FIRED 1; a kick, in its turn (log 206), reloads a KICK-mode watchdog and no other;
CTX_SEL_WDOG, where the map lets it through, acts on the context that the master selects, and for the physical function not on context 0.
(R105, R114, R116, R117, R118, R121, R122, R128; derived) -/
def Obligations.ContextResetAndWatchdog : Prop :=
  (∀ (c : Fin 1024) (o : CtxOp) (s : State), drainDue s c = some o →
      exec (.contextDrainStart c) s = .next { s with deferred := s.deferred ++ [.drainStart c] }) ∧
  (∀ (c : Fin 1024) (o : CtxOp) (s : State), (s.ctx c).op = some o → s.live c = true → s.partner c = none → (s.ctx c).share = none → (s.ctx c).pairing = none →
      (drainStart c o s).cst c = 4 ∧ (((drainStart c o s).ctx c).op.map fun x => (x.destroy, x.cause, x.start)) = some (o.destroy, o.cause, o.start)) ∧
  (∀ (c : Fin 1024) (o : CtxOp) (s : State), (s.ctx c).op = some o → s.cst c = 1 → s.partner c = none → (s.ctx c).share = none → (s.ctx c).pairing = none →
      o.absent = false → o.cmds = [] → o.cause < 8 → (drainStart c o s).cst c = 1 ∧ ((drainStart c o s).ctx c).op = none ∧
        (drainStart c o s).get (Fld.CTX_STATE_LAST_CAUSE c) = o.cause) ∧
  (∀ (c : Fin 1024) (s : State), s.cst c = 5 → exec (.squashComplete c) s = .next { s with deferred := s.deferred ++ [.squashEnd c] }) ∧
  (∀ (c : Fin 1024) (o : CtxOp) (s : State), (s.ctx c).op = some o → s.cst c = 4 → (ctxQuiet s c = true ∨ o.tmo ≤ s.since o.start + 1) →
      exec (.contextSquash c) s = .next { s with deferred := s.deferred ++ [.drainEnd c] }) ∧
  (∀ (c : Fin 1024) (s : State), s.cst c = 3 → s.get (Fld.CTX_CAPS_QP_EN c) = 0 → (∀ q ∈ List.range 64, s.isSet (Fld.QP_STATUS_QUIESCED c q) = true) →
      tagsOf s c = 0 → exec (.contextQuiesce c) s = .next { s with deferred := s.deferred ++ [.quiesce c] }) ∧
  (∀ (c : Fin 1024) (o : CtxOp) (l : List Nat) (s : State), (s.ctx c).op = some o → s.cst c = 5 → c.val ∈ l → o.absent = false → o.destroy = false → o.cmds = [] →
      o.cause < 8 → (squashEnd l c s).cst c = 2 ∧ ((squashEnd l c s).ctx c).op = none ∧ (squashEnd l c s).get (Fld.CTX_STATE_LAST_CAUSE c) = o.cause) ∧
  (∀ (c : Fin 1024) (o : CtxOp) (l : List Nat) (s : State), (s.ctx c).op = some o → s.cst c = 5 → c.val ∈ l → o.absent = false → o.destroy = true → o.cmds = [] →
      (squashEnd l c s).cst c = 1 ∧ ((squashEnd l c s).ctx c).op = none) ∧
  (∀ (c : Fin 1024) (o : CtxOp) (s : State), (s.ctx c).op = some o → s.cst c = 4 → (ctxQuiet s c = true ∨ o.tmo ≤ s.since o.start) →
      (s.ctxIds.filter fun x => s.cst x == 5).length < 32 → (drainEnd c s).cst c = 5) ∧
  (∀ (c : Fin 1024) (s : State), quiescent s c = true → 1 ≤ s.qpMax c → 16 ≤ s.descMax c → quiesce c s = s.set (Fld.CTX_STATE_STATE c) 2) ∧
  (∀ (c : Fin 1024) (s : State), quiescent s c = true → (s.qpMax c = 0 ∨ s.descMax c < 16) → quiesce c s = s.set (Fld.CTX_STATE_STATE c) 1) ∧
  (∀ (c : Fin 1024) (s : State), s.isSet (Fld.CTX_WDOG_STATUS_RUNNING c) = true → s.get (Fld.CTX_WDOG_STATUS_REMAIN c) = 0 → s.live c = true →
      s.get (Fld.CTX_WDOG_STATUS_MODE c) ≠ 0 → s.isSet (Fld.CTX_WDOG_STATUS_ACTION c) = false →
      Runs (.watchdogExpiry c) s fun t => t.get (Fld.CTX_WDOG_STATUS_RUNNING c) = 0 ∧ t.get (Fld.CTX_STATE_WDOG_FIRED c) = 1 ∧
        bitOf (t.get (Fld.CTX_WDOG_PEND_CTX (c.val / 32))) (c.val % 32) = true ∧ t.ctx c = s.ctx c) ∧
  (∀ (c : Fin 1024) (s : State), HostTurn s c → s.ds.full = false → (s.fn c).enabled = true → s.get (Fld.CTX_WDOG_STATUS_MODE c) = 1 →
      Runs (.ctxWdogKickWrite c) s fun t => t.get (Fld.CTX_WDOG_STATUS_REMAIN c) = s.get (Fld.CTX_SEL_WDOG_PERIOD c)) ∧
  (∀ (c : Fin 1024) (s : State), HostTurn s c → s.ds.full = false → s.get (Fld.CTX_WDOG_STATUS_MODE c) ≠ 1 →
      exec (.ctxWdogKickWrite c) s = .next (hostNoted s)) ∧
  (∀ (v : Word) (s : State), HostTurn s 0 → s.ds.full = false → (s.fn 0).enabled = true → mapCause s (.host 0) 0x180008 true = none →
      blockGated s (blockOf 0x180008) = false → bitsOf (s.bank (.host 0) Adr.CTX_SEL).toNat 9 0 = 0 →
      exec (.ctxSelWdogWrite (.host 0) v) s = .next (hostNoted s)) ∧
  (∀ (v : Word) (s : State), mapCause s .bc 0x180008 true = none → blockGated s (blockOf 0x180008) = false →
      ctxCmdErr s (bitsOf (s.bank .bc Adr.CTX_SEL).toNat 9 0) = none →
      exec (.ctxSelWdogWrite .bc v) s = .next (wdogWrite (bitsOf (s.bank .bc Adr.CTX_SEL).toNat 9 0) v.toNat s))

/-- Writing EN 1 enables a queue pair whose configuration has no error, with its pointers and words at 0 and CQ_PHASE 1,
and records the error where there is one. Writing EN 0 to an enabled queue pair clears EN at once and defers the disabling to the next
boundary. A doorbell, in its turn, that is not refused sets SQ_TAIL and admits one descriptor for each new slot; a refused one steps
DB_REFUSED and changes nothing else; one of an absent function or context does nothing. A fetch passes the slots it covers in SQ_HEAD; a
failed one passes those that the reads before it fetched and those of the failed read; one of one slot completes it with TAG 0 and the
status of the failure. A descriptor that may be dealt, and that no check refuses, goes to the engine with the stroke of its dealing. A
finished descriptor leaves its queue pair, an entry that the ring has room for leaves it too. (R127, R128, R130, R135, R136, R137, R475;
derived) -/
def Obligations.DoorbellsAndFetching : Prop :=
  (∀ (c : Fin 1024) (q : Fin 64) (s : State), s.isSet (Fld.QP_STATUS_EN_ACTIVE c q) = false → qpCfgErr s c q = 0 →
      Runs (.qpEnable c q) s fun t => t.get (Fld.QP_CTL_EN c q) = 1 ∧ t.get (Fld.QP_STATUS_EN_ACTIVE c q) = 1 ∧ t.get (Fld.QP_STATUS_CQ_PHASE c q) = 1 ∧
        t.word (Adr.QP_PTR c q) = 0 ∧ (t.qp c q).sqTail = 0 ∧ (t.qp c q).cqHead = 0 ∧ (t.qp c q).descs = (s.qp c q).descs) ∧
  (∀ (c : Fin 1024) (q : Fin 64) (s : State), s.isSet (Fld.QP_STATUS_EN_ACTIVE c q) = false → qpCfgErr s c q ≠ 0 →
      exec (.qpEnable c q) s = .next (s.set (Fld.QP_STATUS_CFG_ERR c q) (qpCfgErr s c q))) ∧
  (∀ (c : Fin 1024) (q : Fin 64) (s : State), s.isSet (Fld.QP_STATUS_EN_ACTIVE c q) = true →
      exec (.qpDisable c q) s = .next { s.set (Fld.QP_CTL_EN c q) 0 with deferred := s.deferred ++ [.qpOff c q] }) ∧
  (∀ (c : Fin 1024) (q : Fin 64) (s : State), s.isSet (Fld.QP_STATUS_EN_ACTIVE c q) = true →
      Runs (.qpDisable c q) s fun t => t.get (Fld.QP_CTL_EN c q) = 0 ∧ t.isSet (Fld.QP_STATUS_EN_ACTIVE c q) = true) ∧
  (∀ (c : Fin 1024) (q : Fin 64) (s : State), s.isSet (Fld.QP_STATUS_EN_ACTIVE c q) = false → exec (.qpDisable c q) s = .next s) ∧
  (∀ (c : Fin 1024) (q : Fin 64) (tail : BitVec 16) (s : State), HostTurn s c → s.ds.full = false → (s.fn c).enabled = true → doorbellRefused (hostNoted s) c q = false →
      tail.toNat < (hostNoted s).sqDepth c q →
      Runs (.doorbellWrite c q (some tail) none) s fun t => (t.qp c q).sqTail = tail.toNat ∧ (t.qp c q).descs.length =
        ((hostNoted s).qp c q).descs.length + (tail.toNat + (hostNoted s).sqDepth c q - ((hostNoted s).qp c q).sqTail) % (hostNoted s).sqDepth c q) ∧
  (∀ (c : Fin 1024) (q : Fin 64) (tail head : Option (BitVec 16)) (s : State), HostTurn s c → s.ds.full = false → (s.fn c).enabled = true → s.cst c ≠ 0 → doorbellRefused (hostNoted s) c q = true →
      exec (.doorbellWrite c q tail head) s = .next ((hostNoted s).inc (Fld.CTX_STATE_DB_REFUSED c) 1)) ∧
  (∀ (c : Fin 1024) (q : Fin 64) (tail head : Option (BitVec 16)) (s : State), HostTurn s c → s.ds.full = false → (s.fn c).enabled = false ∨ s.cst c = 0 →
      exec (.doorbellWrite c q tail head) s = .next (hostNoted s)) ∧
  (∀ (c : Fin 1024) (q : Fin 64) (data : List Byte) (s : State), mayFetch s c q = true → tagLeft s c 0 = true → (s.fn c).atsEn = false → s.sqDepth c q ≤ 65536 →
      Runs (.descriptorFetch c q data) s fun t => t.get (Fld.QP_PTR_SQ_HEAD c q) =
        (s.get (Fld.QP_PTR_SQ_HEAD c q) + fetchCount s c q) % s.sqDepth c q) ∧
  (∀ (c : Fin 1024) (q : Fin 64) (k : Fin 64) (data : List Byte) (why : FetchFailure) (p : Nat × Nat) (s : State), mayFetch s c q = true →
      tagLeft s c 0 = true → (fetchPieces s c q)[k.val]? = some p → s.sqDepth c q ≤ 65536 → Runs (.descriptorFetchFail c q k data why) s fun t =>
        t.get (Fld.QP_PTR_SQ_HEAD c q) = (s.get (Fld.QP_PTR_SQ_HEAD c q) + p.1 / 64 + p.2 / 64) % s.sqDepth c q) ∧
  (∀ (c : Fin 1024) (q : Fin 64) (data : List Byte) (why : FetchFailure) (d : Desc) (s : State), mayFetch s c q = true → tagLeft s c 0 = true →
      (fetchPieces s c q)[0]? = some (0, 64) → (s.qp c q).unfetched.head? = some d → (s.ctx c).op = none →
      d.fenced = false → Runs (.descriptorFetchFail c q 0 data why) s fun t =>
        (t.qp c q).cpls = (s.qp c q).cpls ++ [⟨0, fetchFailStatus why, 0, 2 ^ 30 + d.slot, false, true, d.surplus, none⟩]) ∧
  (∀ (c : Fin 1024) (q : Fin 64) (e : Fin 32) (d : Desc) (r : Raw) (s : State), nextUndealt (s.qp c q) = some d → d.raw = some r →
      s.isSet (Fld.QP_STATUS_EN_ACTIVE c q) = true → s.cst c = 3 → s.resting = false → bitOf (s.get Fld.QM_SPOKE_FENCED_ENGINE) e = false → s.cqFull c q = false →
      fencesAllow (s.qp c q) d r = true → weightsAllow s c r = true → descRefusal (s.inc Fld.QM_DEALT_COUNT 1) c r = none → r.mirror = false →
      Runs (.descriptorDeal c q e) s fun t =>
        (∃ x ∈ (t.qp c q).descs, x.slot = d.slot ∧ x.gen = d.gen ∧ x.engine = some e.val ∧ x.dealt = s.now)) ∧
  (∀ (c : Fin 1024) (q : Fin 64) (slot : Fin 65536) (d : Desc) (s : State), ((s.qp c q).descs.find? fun d => d.slot == slot.val && d.finished) = some d →
      Runs (.descriptorComplete c q slot) s fun t =>
        (t.qp c q).descs = (s.qp c q).descs.filter fun x => x.slot != d.slot || x.gen != d.gen) ∧
  (∀ (c : Fin 1024) (q : Fin 64) (e : Cpl) (es : List Cpl) (s : State), (s.qp c q).cpls = e :: es → (s.qp c q).resv = [] → s.cqFull c q = false → s.hostOpen c = true → (s.fn c).atsEn = false →
      Runs (.completionEntryWrite c q) s fun t => (t.qp c q).cpls = es)

/-- A dealt descriptor of the opcode that still runs, once its host pages are found to permit its access: NOP ends with DETAIL 0; COPY
reads and writes what it can, FILL only writes; FENCE of SCOPE 0 ends once every earlier descriptor of the queue pair is complete, of
SCOPE 1 once also every descriptor of the context accepted by a doorbell stamped before its own is (log 70), and waits otherwise; PERSIST
ends with the low stroke bits once earlier descriptors are complete and no covered copy is unacknowledged; ATOMIC
sends its request first, and once the original value is back writes it to SRC; FRAME_OUT reads and sends segment after
segment; SEND sends its message once its payload is complete, and nothing before; MARK ends with the stroke of its dealing, without a
record or with one of 16 bytes, VALUE and that stroke, on its way to host memory. (R134, R137, R255; derived) -/
def Obligations.DescriptorOpcodes : Prop :=
  (∀ (c : Fin 1024) (q : Fin 64) (slot : Fin 65536) (d : Desc) (r : Raw) (s : State), working s c q slot 0 = some (d, r) → pagesChecked s (keyOf c q d) = true →
      Runs (.nop c q slot) s fun t => ((t.desc? (keyOf c q d)).map fun x => (x.ended, x.detail)) = some (true, 0)) ∧
  (∀ (c : Fin 1024) (q : Fin 64) (slot : Fin 65536) (d : Desc) (r : Raw) (s : State), working s c q slot 1 = some (d, r) → pagesChecked s (keyOf c q d) = true →
      exec (.copy c q slot) s = .next (moveData true (keyOf c q d) s)) ∧
  (∀ (c : Fin 1024) (q : Fin 64) (slot : Fin 65536) (d : Desc) (r : Raw) (s : State), working s c q slot 2 = some (d, r) → pagesChecked s (keyOf c q d) = true →
      exec (.fill c q slot) s = .next (moveData false (keyOf c q d) s)) ∧
  (∀ (c : Fin 1024) (q : Fin 64) (slot : Fin 65536) (d : Desc) (r : Raw) (s : State), working s c q slot 3 = some (d, r) → pagesChecked s (keyOf c q d) = true → r.scope = 0 →
      runningRaw s (keyOf c q d) = some (d, r) → earlierDone s (keyOf c q d) = true →
      Runs (.fence c q slot) s fun t => ((t.desc? (keyOf c q d)).map fun x => (x.ended, x.detail)) = some (true, 0)) ∧
  (∀ (c : Fin 1024) (q : Fin 64) (slot : Fin 65536) (d : Desc) (r : Raw) (s : State), working s c q slot 3 = some (d, r) → pagesChecked s (keyOf c q d) = true →
      runningRaw s (keyOf c q d) = some (d, r) → r.scope ≠ 0 → earlierDone s (keyOf c q d) = true → contextDone s c d.stamp = true →
      Runs (.fence c q slot) s fun t => ((t.desc? (keyOf c q d)).map fun x => (x.ended, x.detail)) = some (true, 0)) ∧
  (∀ (c : Fin 1024) (q : Fin 64) (slot : Fin 65536) (d : Desc) (r : Raw) (s : State), working s c q slot 3 = some (d, r) → pagesChecked s (keyOf c q d) = true →
      runningRaw s (keyOf c q d) = some (d, r) → r.scope ≠ 0 → contextDone s c d.stamp = false → exec (.fence c q slot) s = .next s) ∧
  (∀ (c : Fin 1024) (q : Fin 64) (slot : Fin 65536) (d : Desc) (r : Raw) (s : State), working s c q slot 3 = some (d, r) → pagesChecked s (keyOf c q d) = true →
      earlierDone s (keyOf c q d) = false → exec (.fence c q slot) s = .next s) ∧
  (∀ (c : Fin 1024) (q : Fin 64) (slot : Fin 65536) (d : Desc) (r : Raw) (s : State), working s c q slot 4 = some (d, r) → pagesChecked s (keyOf c q d) = true →
      runningRaw s (keyOf c q d) = some (d, r) → earlierDone s (keyOf c q d) = true → unprotectedBefore s (keyOf c q d) (d.persistAt.getD s.ds.copyNo) = false →
      Runs (.persist c q slot) s fun t => ((t.desc? (keyOf c q d)).map fun x => (x.ended, x.detail)) = some (true, s.nowLo)) ∧
  (∀ (c : Fin 1024) (q : Fin 64) (slot : Fin 65536) (d : Desc) (r : Raw) (s : State), working s c q slot 5 = some (d, r) → pagesChecked s (keyOf c q d) = true →
      runningRaw s (keyOf c q d) = some (d, r) → d.wnext = 0 → exec (.atomic c q slot) s = .next (sendAtomic (keyOf c q d) d r s)) ∧
  (∀ (c : Fin 1024) (q : Fin 64) (slot : Fin 65536) (d : Desc) (r : Raw) (s : State), working s c q slot 5 = some (d, r) → pagesChecked s (keyOf c q d) = true →
      runningRaw s (keyOf c q d) = some (d, r) → d.wnext ≠ 0 → d.old ≠ [] → d.wpend = 0 →
      Runs (.atomic c q slot) s fun t => ((t.desc? (keyOf c q d)).map fun x => (x.ended, x.wpend)) = some (true, r.size)) ∧
  (∀ (c : Fin 1024) (q : Fin 64) (slot : Fin 65536) (d : Desc) (r : Raw) (s : State), working s c q slot 7 = some (d, r) → pagesChecked s (keyOf c q d) = true →
      exec (.frameOut c q slot) s = .next (doAll (List.range burst) (fun _ s => s |> readStep (keyOf c q d) |> frameStep (keyOf c q d)) s)) ∧
  (∀ (c : Fin 1024) (q : Fin 64) (slot : Fin 65536) (d e : Desc) (r r2 : Raw) (s : State), working s c q slot 6 = some (d, r) → pagesChecked s (keyOf c q d) = true →
      runningRaw (readStep (keyOf c q d) (readStep (keyOf c q d) s)) (keyOf c q d) = some (e, r2) → (contiguous (e.got.length + 1) 0 e.got).length ≠ r2.length →
      exec (.send c q slot) s = .next (readStep (keyOf c q d) (readStep (keyOf c q d) s))) ∧
  (∀ (c : Fin 1024) (q : Fin 64) (slot : Fin 65536) (d e : Desc) (r r2 : Raw) (s : State), working s c q slot 6 = some (d, r) → pagesChecked s (keyOf c q d) = true →
      runningRaw (readStep (keyOf c q d) (readStep (keyOf c q d) s)) (keyOf c q d) = some (e, r2) → e.localRead = false → (contiguous (e.got.length + 1) 0 e.got).length = r2.length →
      exec (.send c q slot) s = .next (sendMessage (keyOf c q d) e r2 (contiguous (e.got.length + 1) 0 e.got) (readStep (keyOf c q d) (readStep (keyOf c q d) s)))) ∧
  (∀ (c : Fin 1024) (q : Fin 64) (slot : Fin 65536) (d : Desc) (r : Raw) (s : State), working s c q slot 8 = some (d, r) → pagesChecked s (keyOf c q d) = true →
      runningRaw s (keyOf c q d) = some (d, r) → r.markWrite = false →
      Runs (.mark c q slot) s fun t => ((t.desc? (keyOf c q d)).map fun x => (x.ended, x.detail)) = some (true, d.dealt.toNat % 2 ^ 32)) ∧
  (∀ (c : Fin 1024) (q : Fin 64) (slot : Fin 65536) (d : Desc) (r : Raw) (s : State), working s c q slot 8 = some (d, r) → pagesChecked s (keyOf c q d) = true →
      runningRaw s (keyOf c q d) = some (d, r) → r.markWrite = true →
      Runs (.mark c q slot) s fun t => ((t.desc? (keyOf c q d)).map fun x => (x.ended, x.detail, x.wpend)) = some (true, d.dealt.toNat % 2 ^ 32, 16) ∧
        (t.cad.items.getLast?.map fun i => i.work) =
          some (.descHost (keyOf c q d) 0 (BitVec.ofNat 64 r.dst) (r.pattern ++ leBytes 6 d.dealt.toNat ++ leBytes 2 0)))

/-- GO makes RESULT PENDING (1) with the stroke as the abort's stamp; while one is pending GO changes nothing. An abort of this stroke is
resolved at its end: to 4 where no outstanding descriptor has the TAG, to 3 where the first of them in ring order has its completion entry
waiting or had its commit point by the stamp, to 2 where it had not, which completes ABORTED, and to 0 where a reset is stamped in
the stroke. A faulty engine is fenced at the end of the stroke; the first fence of an engine sets its bit and its log, a second one
nothing. A read of CTX_WFENCE is held; the oldest returns the failure count and clears it, and after 62 ms with covered writes
unacknowledged it returns with INCOMPLETE. (R142, R143, R144, R147; derived) -/
def Obligations.AbortsEngineFencesAndWfence : Prop :=
  (∀ (c : Fin 1024) (q : Fin 64) (s : State), s.get (Fld.QP_ABORT_RESULT c q) ≠ 1 →
      Runs (.qpAbortGo c q) s fun t => t.get (Fld.QP_ABORT_RESULT c q) = 1 ∧ (t.qp c q).abort = some s.now) ∧
  (∀ (c : Fin 1024) (q : Fin 64) (s : State), s.get (Fld.QP_ABORT_RESULT c q) = 1 → exec (.qpAbortGo c q) s = .next s) ∧
  (∀ (c : Fin 1024) (q : Fin 64) (s : State), (s.qp c q).abort = some s.now →
      exec (.abortResolve c q) s = .next { s with deferred := s.deferred ++ [.abortEnd c q] }) ∧
  (∀ (c : Fin 1024) (q : Fin 64) (v : Stroke) (s : State), (s.qp c q).abort = some v → v ≠ s.now → exec (.abortResolve c q) s = .next (abortResolve c q s)) ∧
  (∀ (c : Fin 1024) (q : Fin 64) (v : Stroke) (s : State), (s.qp c q).abort = some v → resetStamped s c v = true →
      (abortResolve c q s).get (Fld.QP_ABORT_RESULT c q) = 0 ∧ ((abortResolve c q s).qp c q).abort = none ∧ ((abortResolve c q s).qp c q).descs = (s.qp c q).descs) ∧
  (∀ (c : Fin 1024) (q : Fin 64) (v : Stroke) (s : State), (s.qp c q).abort = some v → resetStamped s c v = false →
      abortTarget (s.qp c q) (s.get (Fld.QP_ABORT_TAG_TAG c q)) = none →
      (abortResolve c q s).get (Fld.QP_ABORT_RESULT c q) = 4 ∧ ((abortResolve c q s).qp c q).abort = none ∧ ((abortResolve c q s).qp c q).descs = (s.qp c q).descs) ∧
  (∀ (c : Fin 1024) (q : Fin 64) (v : Stroke) (s : State), (s.qp c q).abort = some v → resetStamped s c v = false →
      abortTarget (s.qp c q) (s.get (Fld.QP_ABORT_TAG_TAG c q)) = some none →
      (abortResolve c q s).get (Fld.QP_ABORT_RESULT c q) = 3 ∧ ((abortResolve c q s).qp c q).abort = none ∧ ((abortResolve c q s).qp c q).cpls = (s.qp c q).cpls) ∧
  (∀ (c : Fin 1024) (q : Fin 64) (v : Stroke) (d : Desc) (s : State), (s.qp c q).abort = some v → resetStamped s c v = false →
      abortTarget (s.qp c q) (s.get (Fld.QP_ABORT_TAG_TAG c q)) = some (some d) → d.committedBy v = true →
      (abortResolve c q s).get (Fld.QP_ABORT_RESULT c q) = 3 ∧ ((abortResolve c q s).qp c q).abort = none ∧ ((abortResolve c q s).qp c q).descs = (s.qp c q).descs) ∧
  (∀ (c : Fin 1024) (q : Fin 64) (v : Stroke) (d : Desc) (s : State), (s.qp c q).abort = some v → resetStamped s c v = false →
      abortTarget (s.qp c q) (s.get (Fld.QP_ABORT_TAG_TAG c q)) = some (some d) → d.committedBy v = false →
      (abortResolve c q s).get (Fld.QP_ABORT_RESULT c q) = 2 ∧ ((abortResolve c q s).qp c q).abort = none ∧
        ((abortResolve c q s).qp c q).descs = (s.qp c q).descs.filter fun x => x.slot != d.slot || x.gen != d.gen) ∧
  (∀ (e : Fin 32) (journal : Bool) (s : State), exec (.spokeEngineFence e journal) s = .next { s with deferred := s.deferred ++ [.engineFence e.val journal] }) ∧
  (∀ (e : Fin 32) (journal : Bool) (s : State), s.get Fld.QM_SPOKE_FENCED_ENGINE = 0 → s.deferred = [] →
      Runs (.spokeEngineFence e journal) s fun t => (enginesFence t).get Fld.QM_SPOKE_FENCED_ENGINE = 2 ^ e.val ∧
        (enginesFence t).get Fld.QM_SPOKE_LOG_ENGINE = e.val ∧ (enginesFence t).get Fld.QM_SPOKE_LOG_CAUSE = 1 + journal.toNat ∧ (enginesFence t).deferred = []) ∧
  (∀ (e : Fin 32) (journal : Bool) (s : State), bitOf (s.get Fld.QM_SPOKE_FENCED_ENGINE) e = true → s.deferred = [] →
      Runs (.spokeEngineFence e journal) s fun t => enginesFence t = s) ∧
  (∀ (c : Fin 1024) (s : State), HostOpen s → Runs (.ctxWfenceRead c) s fun t =>
      (t.ctx c).wfence = ((hostNoted s).ctx c).wfence ++ [⟨s.now, (hostNoted s).wseq c, ((hostNoted s).ctx c).wseq4, 15, none, []⟩]) ∧
  (∀ (c : Fin 1024) (r : HeldRead) (rs : List HeldRead) (s : State), (s.ctx c).wfence = r :: rs → fenceDone s c r = true → r.rest = none →
      Runs (.ctxWfenceReturn c) s fun t => (t.ctx c).wfence = rs ∧ t.get (Fld.CTX_WFENCE_FAILS c) = 0 ∧
        t.out.head? = some (.cpl c 0 (r.pre ++ enabledBytes r.be (leBytes 4 (s.get (Fld.CTX_WFENCE_FAILS c)))))) ∧
  (∀ (c : Fin 1024) (r : HeldRead) (rs : List HeldRead) (s : State), (s.ctx c).wfence = r :: rs → fenceDone s c r = false → heldLimit ≤ s.since r.since → r.rest = none →
      Runs (.ctxWfenceTimeout c) s fun t => (t.ctx c).wfence = rs ∧ t.get (Fld.CTX_WFENCE_FAILS c) = 0 ∧
        t.out.head? = some (.cpl c 0 (r.pre ++ enabledBytes r.be (leBytes 4 (2 ^ 31 + s.get (Fld.CTX_WFENCE_FAILS c))))))

/-- EN 1 only sets LB_CTL.EN; EN 0 takes a training or failed port to RESET (0). An enabled port leaves RESET into training after 2
strokes in STANDBY, SERVING or DRAINING. Receiver lock takes TRAIN (1) to LOCK (2) with 37 deskew values, eight locked blocks take it to
INIT (3), which sends LINK INIT; a training timeout takes it to FAILED (5) with LAST_ERR 1 or 2, 3, or 4 by state, the gap takes FAILED to
RESET. A LINK INIT of another PROTO_REV fails with 5, one with a zero count with 6, a good one before the own INIT is sent is noted, a
good one after it makes the port ACTIVE (4). RETRAIN of a port that is not ACTIVE does nothing; retraining blocks and RETRAIN of an ACTIVE
one make it leave ACTIVE. That EN 0 acts from any state, that RETRAIN does nothing out of ACTIVE, the start of the training timeout, the
codes of a refused LINK INIT and a row without its conditions are the model's choices (logs 4, 46, 47, 160, 199, 219). (R177, R178, R179,
R188, R209; derived) -/
def Obligations.PortTrainingAndFailure : Prop :=
  (∀ (p : Fin 4) (s : State), exec (.lbCtlEnWrite p true) s = .next (s.set (Fld.LB_CTL_EN p) 1)) ∧
  (∀ (p : Fin 4) (s : State), s.lbState p ≠ 0 → s.lbState p ≠ 4 → Runs (.lbCtlEnWrite p false) s fun t => t.lbState p = 0 ∧ t.get (Fld.LB_CTL_EN p) = 0) ∧
  (∀ (p : Fin 4) (s : State), s.lbState p = 0 → s.isSet (Fld.LB_CTL_EN p) = true → 2 ≤ s.since (s.lb p).since → s.mode = .standby ∨ s.mode = .serving ∨ s.mode = .draining →
      exec (.lbResetExit p) s = .next (startTrain p s)) ∧
  (∀ (p : Fin 4) (s : State), s.isSet (Fld.LB_CTL_EN p) = false → exec (.lbResetExit p) s = .next s) ∧
  (∀ (p : Fin 4) (s : State), s.lbActive p = false → exec (.lbRetrain p) s = .next s) ∧
  (∀ (p : Fin 4) (s : State), s.lbActive p = true → exec (.lbRetrain p) s = .next (leaveActive p 0 s)) ∧
  (∀ (p : Fin 4) (s : State), s.lbActive p = true → exec (.lbTrainingBlocksInActive p) s = .next (startTrain p (leaveActive p 1 s))) ∧
  (∀ (p : Fin 4) (delays : List (BitVec 7)) (s : State), s.lbState p = 1 → Runs (.lbReceiverLock p delays) s fun t => t.lbState p = 2 ∧
      (∀ k ∈ List.range 37, t.get (Fld.LB_DESKEW_VALID p k) = 1 ∧ t.get (Fld.LB_DESKEW_DELAY p k) = (delays.getD k 0).toNat)) ∧
  (∀ (p : Fin 4) (s : State), s.lbState p = 2 → (s.lb p).initRcvd = false → Runs (.lbLockedBlocksReceived p) s fun t => t.lbState p = 3 ∧ (t.lb p).initSent = true) ∧
  (∀ (p : Fin 4) (strobe : Bool) (s : State), s.lbState p = 1 → s.get (Fld.LB_TRAIN_TMO p) ≤ s.since (s.lb p).released →
      Runs (.lbTrainTimeout p strobe) s fun t => t.lbState p = 5 ∧ t.get (Fld.LB_TRAIN_STAT_LAST_ERR p) = if strobe then 2 else 1) ∧
  (∀ (p : Fin 4) (strobe : Bool) (s : State), s.lbState p = 2 ∨ s.lbState p = 3 → s.get (Fld.LB_TRAIN_TMO p) ≤ s.since (s.lb p).released →
      Runs (.lbTrainTimeout p strobe) s fun t => t.lbState p = 5 ∧ t.get (Fld.LB_TRAIN_STAT_LAST_ERR p) = s.lbState p + 1) ∧
  (∀ (p : Fin 4) (s : State), s.lbState p = 5 → s.get (Fld.LB_TRAIN_GAP p) ≤ s.since (s.lb p).since → Runs (.lbFailedGapExpiry p) s fun t => t.lbState p = 0) ∧
  (∀ (p : Fin 4) (counts : Word) (rev : BitVec 8) (s : State), s.lbState p = 3 → rev ≠ 1 →
      Runs (.linkInitReceive p counts rev) s fun t => t.lbState p = 5 ∧ t.get (Fld.LB_TRAIN_STAT_LAST_ERR p) = 5) ∧
  (∀ (p : Fin 4) (counts : Word) (s : State), s.lbState p = 3 → bitsOf counts.toNat 7 0 = 0 →
      Runs (.linkInitReceive p counts 1) s fun t => t.lbState p = 5 ∧ t.get (Fld.LB_TRAIN_STAT_LAST_ERR p) = 6) ∧
  (∀ (p : Fin 4) (counts : Word) (s : State), s.lbState p = 3 → (s.lb p).initSent = false → bitsOf counts.toNat 7 0 ≠ 0 → bitsOf counts.toNat 15 8 ≠ 0 →
      bitsOf counts.toNat 23 16 ≠ 0 → bitsOf counts.toNat 31 24 ≠ 0 →
      Runs (.linkInitReceive p counts 1) s fun t => t.lbState p = 3 ∧ (t.lb p).initRcvd = true ∧ t.word (Adr.LB_CRED p) = counts) ∧
  (∀ (p : Fin 4) (counts : Word) (s : State), s.lbState p = 3 → (s.lb p).initSent = true → (s.lb p).lint = [] → bitsOf counts.toNat 7 0 ≠ 0 →
      bitsOf counts.toNat 15 8 ≠ 0 → bitsOf counts.toNat 23 16 ≠ 0 → bitsOf counts.toNat 31 24 ≠ 0 →
      Runs (.linkInitReceive p counts 1) s fun t => t.lbState p = 4 ∧ (t.lb p).txSeq = 0 ∧ (t.lb p).rxSeq = 0 ∧ t.get (Fld.LB_STATUS_BND_SHORT p) =
        (if bitsOf counts.toNat 7 0 < 32 then 1 else s.get (Fld.LB_STATUS_BND_SHORT p)))

/-- On an ACTIVE port: credits of a LINK CREDIT are taken; a NAK of a held SEQ makes every packet held from it go again and is counted; a
link error is counted by its kind and asks for one NAK with the expected SEQ, in INIT it fails the training (4); a NAK timeout leaves
ACTIVE only while an error is outstanding whose NAK was sent; freed credits are sent where no NAK, replay or C0 packet goes before; a BND
credit late by a stroke sets BND_SHORT; a waiting NAK leaves first and is counted. How long a packet is held, a NAK of one not held, and a
further error while a NAK is out are the model's choices (logs 4, 44, 45, 158). (R185, R186, R187, R189, R190, R192; derived) -/
def Obligations.PortCreditsErrorsAndEgress : Prop :=
  (∀ (p : Fin 4) (credits : BitVec 16) (s : State), s.lbActive p = true → exec (.linkCreditReceive p credits) s = .next (takeCredits p credits s)) ∧
  (∀ (p : Fin 4) (seq : BitVec 8) (credits : BitVec 16) (i : Nat) (s : State), s.lbActive p = true → (s.lb p).lastNak = none →
      ((s.lb p).held.findIdx? fun e => e.1 == seq.toNat) = some i →
      Runs (.linkNakReceive p seq credits) s fun t => (t.lb p).replay = ((s.lb p).held.drop i).map (fun e => (e.1, e.2.1)) ∧ (t.lb p).lastNak = some s.now ∧
        t.get (Fld.LB_ERR_CNT_NAK_RCVD p) = min (Fld.LB_ERR_CNT_NAK_RCVD p).max (s.get (Fld.LB_ERR_CNT_NAK_RCVD p) + 1)) ∧
  (∀ (p : Fin 4) (s : State), s.lbActive p = true → (s.lb p).errOut = false →
      Runs (.lbLinkError p .crc none) s fun t => (t.lb p).errOut = true ∧ (t.lb p).errAt = some s.now ∧ (t.lb p).naks = (s.lb p).naks ++ [(s.lb p).rxSeq] ∧
        t.get (Fld.LB_ERR_CNT_CRC p) = min (Fld.LB_ERR_CNT_CRC p).max (s.get (Fld.LB_ERR_CNT_CRC p) + 1)) ∧
  (∀ (p : Fin 4) (s : State), s.lbActive p = true → (s.lb p).errOut = true →
      Runs (.lbLinkError p .parity none) s fun t => (t.lb p).naks = (s.lb p).naks ∧
        t.get (Fld.LB_ERR_CNT_PARITY p) = min (Fld.LB_ERR_CNT_PARITY p).max (s.get (Fld.LB_ERR_CNT_PARITY p) + 1)) ∧
  (∀ (p : Fin 4) (v : BitVec 16) (s : State), s.lbActive p = true → (s.lb p).errOut = true →
      Runs (.lbLinkError p .op (some v)) s fun t => (t.lb p).naks = (s.lb p).naks ∧ (t.lb p).seen = [bitsOf v.toNat 3 0, bitsOf v.toNat 7 4, bitsOf v.toNat 11 8, bitsOf v.toNat 15 12]) ∧
  (∀ (p : Fin 4) (v : Option (BitVec 16)) (s : State), s.lbState p = 3 →
      Runs (.lbLinkError p .crc v) s fun t => t.lbState p = 5 ∧ t.get (Fld.LB_TRAIN_STAT_LAST_ERR p) = 4) ∧
  (∀ (p : Fin 4) (s : State), (s.lb p).errOut = false ∨ (s.lb p).naks ≠ [] → exec (.lbNakTimeout p) s = .next s) ∧
  (∀ (p : Fin 4) (s : State), s.lbActive p = true → (s.lb p).errOut = true → (s.lb p).naks = [] → exec (.lbNakTimeout p) s = .next (leaveActive p 0 s)) ∧
  (∀ (p : Fin 4) (s : State), s.lbActive p = true → ((s.lb p).freed.any (· != 0)) = true → (s.lb p).naks = [] → (s.lb p).replay = [] → c0Ready (s.lb p) = false →
      exec (.lbCreditSend p) s = .next (emitPkt p { op := 12, sub := 0 } 0 s)) ∧
  (∀ (p : Fin 4) (v : Stroke) (vs : List Stroke) (s : State), s.lbActive p = true → (s.lb p).bndSent = v :: vs → 1 ≤ s.since v →
      Runs (.lbBndCreditLate p) s fun t => t.isSet (Fld.LB_STATUS_BND_SHORT p) = true ∧ t.lbState p = 4) ∧
  (∀ (p : Fin 4) (n : Nat) (ns : List Nat) (s : State), s.lbActive p = true → (s.lb p).naks = n :: ns → (s.lb p).lastNak = none →
      Runs (.lbEgressPacket p) s fun t => (t.lb p).naks = ns ∧ (t.lb p).lastNak = some s.now ∧
        t.get (Fld.LB_ERR_CNT_NAK_SENT p) = min (Fld.LB_ERR_CNT_NAK_SENT p).max (s.get (Fld.LB_ERR_CNT_NAK_SENT p) + 1)) ∧
  (∀ (p : Fin 4) (q : Nat) (k : Pkt) (rs : List (Nat × Pkt)) (s : State), s.lbActive p = true → (s.lb p).naks = [] → (s.lb p).replay = (q, k) :: rs →
      Runs (.lbEgressPacket p) s fun t => (t.lb p).replay = rs ∧ (t.lb p).held = (s.lb p).held.map fun e => if e.1 = q then (q, e.2.1, s.now) else e)

/-- A packet that the port accepts: a READ or WRITE that passes the tests of R206 waits for the host link, with the host pages it was checked
against, an acked one that does not is answered with its code and a posted one is dropped; a MSG, SIDEBAND or FRAME segment enters the
bridge, a MSG without a valid route is counted as dropped; an ATOMIC is a protocol error (8); a RESP of a quarantined tag frees it
and is counted late, and one that answers a request ends it. (R181, R182, R201, R206, R233, R237; derived) -/
def Obligations.LocalAgentsRequests : Prop :=
  (∀ (p : Fin 4) (rx : Rx) (tag : Fin 512) (addr : BitVec 48) (len : Fin 512) (c cls ha : Nat) (s u v : State), rxAccept p rx 2 s = (u, true) → len.val ≠ 0 → len.val ≤ 256 →
      upDecide p addr.toNat len false true u = (v, .passes c cls ha) →
      exec (.lbReadReceive p rx tag addr len) s = .next (upIssue p (v.lbUpd p (fun l =>
        { l with ups := l.ups ++ [{ tag := tag, c := c, cls := cls, addr := ha, len := len, after := v.cad.nextId, pages := knownPages v c ha len false }] })))) ∧
  (∀ (p : Fin 4) (rx : Rx) (tag : Fin 512) (addr : BitVec 48) (len : Fin 512) (code : Nat) (s u v : State), rxAccept p rx 2 s = (u, true) → len.val ≠ 0 → len.val ≤ 256 →
      upDecide p addr.toNat len false true u = (v, .refused code) →
      Runs (.lbReadReceive p rx tag addr len) s fun t => t = respOut p tag code [] v) ∧
  (∀ (p : Fin 4) (rx : Rx) (addr : BitVec 48) (data : List Byte) (c cls ha : Nat) (s u v : State), rxAccept p rx 1 s = (u, true) → data ≠ [] → data.length ≤ 256 →
      upDecide p addr.toNat data.length true false u = (v, .passes c cls ha) →
      exec (.lbWritePostedReceive p rx addr data) s = .next (addItem true c cls 9 data.length false (.upWrite p c none (BitVec.ofNat 64 ha) (knownPages v c ha data.length true) data) v)) ∧
  (∀ (p : Fin 4) (rx : Rx) (addr : BitVec 48) (data : List Byte) (code : Nat) (s u v : State), rxAccept p rx 1 s = (u, true) → data ≠ [] → data.length ≤ 256 →
      upDecide p addr.toNat data.length true false u = (v, .refused code) → exec (.lbWritePostedReceive p rx addr data) s = .next v) ∧
  (∀ (p : Fin 4) (rx : Rx) (tag : Fin 512) (addr : BitVec 48) (data : List Byte) (code : Nat) (s u v : State), rxAccept p rx 2 s = (u, true) → data ≠ [] → data.length ≤ 256 →
      upDecide p addr.toNat data.length true true u = (v, .refused code) → exec (.lbWriteAckedReceive p rx tag addr data) s = .next (respOut p tag code [] v)) ∧
  (∀ (p : Fin 4) (rx : Rx) (tag : Fin 512) (addr : BitVec 48) (data : List Byte) (c cls ha : Nat) (s u v : State), rxAccept p rx 2 s = (u, true) → data ≠ [] → data.length ≤ 256 →
      upDecide p addr.toNat data.length true true u = (v, .passes c cls ha) →
      exec (.lbWriteAckedReceive p rx tag addr data) s =
        .next (addItem true c cls 9 data.length false (.upWrite p c (some tag.val) (BitVec.ofNat 64 ha) (knownPages v c ha data.length true) data) v)) ∧
  (∀ (p : Fin 4) (rx : Rx) (id : BitVec 16) (data : List Byte) (s u : State), rxAccept p rx 1 s = (u, true) → data.length ≤ 256 → routeOk u (routeNow u p 2 id.toNat) = false →
      exec (.lbMsgReceive p rx id data) s = .next (countDrop p 1 2 id.toNat 0 u)) ∧
  (∀ (p : Fin 4) (rx : Rx) (id : BitVec 16) (data : List Byte) (s u : State), rxAccept p rx 1 s = (u, true) → data.length ≤ 256 →
      exec (.lbMsgReceive p rx id data) s = .next (acceptItem p 2 id.toNat data u)) ∧
  (∀ (p : Fin 4) (rx : Rx) (sof eof : Bool) (info : Word) (data : List Byte) (s u : State), rxAccept p rx 1 s = (u, true) → data ≠ [] → data.length ≤ 256 →
      frameBad (u.lb p).frame sof eof data.length = false →
      exec (.lbFrameReceive p rx sof eof info data) s = .next (frameSegment p sof eof info.toNat data u)) ∧
  (∀ (p : Fin 4) (rx : Rx) (event : Fin 16) (s u : State), rxAccept p rx 1 s = (u, true) →
      exec (.lbSidebandReceive p rx event) s = .next (acceptItem p 3 event [] u)) ∧
  (∀ (p : Fin 4) (rx : Rx) (s u : State), rxAccept p rx 2 s = (u, true) → exec (.lbAtomicReceive p rx) s = .next (protoErr p 8 rx.seq.toNat u)) ∧
  (∀ (p : Fin 4) (rx : Rx) (tag : Fin 512) (code : BitVec 4) (data : List Byte) (s u : State), rxAccept p rx 3 s = (u, true) → ((u.lb p).quar.contains tag.val) = true →
      Runs (.lbRespReceive p rx tag code data) s fun t => tag.val ∉ (t.lb p).quar ∧ t.get (Fld.LB_TMO_CNT_LATE p) = min (Fld.LB_TMO_CNT_LATE p).max (u.get (Fld.LB_TMO_CNT_LATE p) + 1)) ∧
  (∀ (p : Fin 4) (rx : Rx) (tag : Fin 512) (code : BitVec 4) (data : List Byte) (r : Req) (s u : State), rxAccept p rx 3 s = (u, true) → ((u.lb p).quar.contains tag.val) = false →
      ((u.lb p).reqs.find? fun r => r.tag == tag.val && !r.retry) = some r → respAllowed r.pkt code.toNat = true → data.length = respLen r.pkt code.toNat →
      exec (.lbRespReceive p rx tag code data) s = .next (respond p r code.toNat data u))

/-- A request answered RETRY_LATER is put at the egress again under its tag. A request whose window timeout expires is
gone, its tag is quarantined and counted. Old prefetch blocks leave; after them every block is younger than LIFE. An
unserved stranded entry 1,024 strokes old is dropped. An edge that LB_LINT_CFG does not select, or on a disabled port,
changes nothing; on an ACTIVE port it raises LBn_LINT and its SIDEBAND item joins the bridge, or while a NAK is outstanding waits (the
model's choice, log 158); in HELD it is latched. (R201, R203, R205, R207, R208; derived) -/
def Obligations.PortTimersLintAndPrefetch : Prop :=
  (∀ (p : Fin 4) (tag : Fin 512) (r : Req) (s : State), ((s.lb p).reqs.find? fun r => r.tag == tag.val && r.retry) = some r → s.lbActive p = true →
      ((s.lb p).egress.any fun e => e.tag == some tag.val) = false →
      exec (.lbRetryLaterResend p tag) s = .next (s.lbUpd p fun l =>
        { l with egress := l.egress ++ [{ pkt := r.pkt, src := some r.src, tmo := r.tmo, tag := some tag }] })) ∧
  (∀ (p : Fin 4) (tag : Fin 512) (r : Req) (s : State), ((s.lb p).reqs.find? fun r => r.tag == tag.val) = some r → r.tmo ≤ s.since r.issued → r.src = .nobody →
      Runs (.windowCompletionTimeout p tag) s fun t => ((t.lb p).reqs.any fun x => x.tag == tag.val) = false ∧ tag.val ∈ (t.lb p).quar ∧
        t.get (Fld.LB_TMO_CNT_TIMEOUT p) = min (Fld.LB_TMO_CNT_TIMEOUT p).max (s.get (Fld.LB_TMO_CNT_TIMEOUT p) + 1)) ∧
  (∀ (p : Fin 4) (s : State), Runs (.speculativeReadAbandon p) s fun t =>
      (t.cad.items.any fun i => match i.work with | .spec q _ => q == p.val && decide (8 ≤ s.since i.since) | _ => false) = false) ∧
  (∀ (p : Fin 4) (s : State), Runs (.prefetchBlockExpiry p) s fun t => (∀ b ∈ (t.lb p).pf, s.since b.came < s.get (Fld.LB_PF_CTL_LIFE p))) ∧
  (∀ (p : Fin 4) (e : Fin 16) (x : Stranded) (s : State), ((s.lb p).srb.find? fun x => x.e == e.val) = some x → 1024 ≤ s.since x.since →
      Runs (.strandedEntryExpiry p e) s fun t => ((t.lb p).srb.any fun x => x.e == e.val) = false ∧
        t.get (Fld.LB_SRB_CNT_DROPPED p) = min (Fld.LB_SRB_CNT_DROPPED p).max (s.get (Fld.LB_SRB_CNT_DROPPED p) + 1)) ∧
  (∀ (p line : Fin 4) (rising : Bool) (s : State), s.isSet (Fld.LB_CTL_EN p) = false ∨ lintSelected s p line rising = false → exec (.lintEdge p line rising) s = .next s) ∧
  (∀ (p line : Fin 4) (rising : Bool) (s : State), s.isSet (Fld.LB_CTL_EN p) = true → s.mode ≠ .maintenance → s.mode ≠ .preserve → lintSelected s p line rising = true →
      s.lbState p = 6 → Runs (.lintEdge p line rising) s fun t => ((t.lb p).lint.map fun e => (e.1, e.2.2)) = ((s.lb p).lint.map fun e => (e.1, e.2.2)) ++ [(line.val, s.now)]) ∧
  (∀ (p line : Fin 4) (rising : Bool) (s : State), s.isSet (Fld.LB_CTL_EN p) = true → s.mode ≠ .maintenance → s.mode ≠ .preserve → lintSelected s p line rising = true →
      s.lbActive p = true → (s.lb p).errOut = false → (s.lb p).lintWait = [] → (s.lb p).errAt ≠ some s.now →
      exec (.lintEdge p line rising) s = .next (acceptItem p 3 line [] (lbRaise p 13 s))) ∧
  (∀ (p line : Fin 4) (rising : Bool) (s : State), s.isSet (Fld.LB_CTL_EN p) = true → s.mode ≠ .maintenance → s.mode ≠ .preserve → lintSelected s p line rising = true →
      s.lbActive p = true → (s.lb p).errOut = true →
      Runs (.lintEdge p line rising) s fun t => ((t.lb p).lintWait.map fun e => (e.1, e.2.2)) = ((s.lb p).lintWait.map fun e => (e.1, e.2.2)) ++ [(line.val, s.now)])

/-- Mapping a window that is off, unmapping one and writing WIN_ATTR are deferred to the next boundary (writing AUTOCLR 1
clears it at once, and ONCE of a window that is off and not busy takes its value at once); mapping one that is on changes nothing, unless
its unmapping waits: then it is mapped again (the model's reading, log 196). A route entry reads back at once and is deferred. An item for a
queue pair that has its slots is dropped with the cause of its first failing test, or reserves a completion index; the oldest of a port,
tested, moved whole and next in its queue pair, is delivered, before that nothing happens. A peer-routed item leaves for its member,
counted, or without a route is dropped with cause 7 (the model's choice, log 202). (R196, R197, R198, R235, R239, R240, R242; derived) -/
def Obligations.WindowsRoutesAndDeliveries : Prop :=
  (∀ (c : Fin 1024) (w : Fin 16) (s : State), s.winOn c w = false → exec (.winMap c w) s = .next { s with deferred := s.deferred ++ [.winMap c w] }) ∧
  (∀ (c : Fin 1024) (w : Fin 16) (s : State), s.winOn c w = true → .winUnmap c w ∉ s.deferred → exec (.winMap c w) s = .next s) ∧
  (∀ (c : Fin 1024) (w : Fin 16) (s : State), .winUnmap c w ∈ s.deferred → exec (.winMap c w) s = .next { s with deferred := s.deferred ++ [.winMap c w] }) ∧
  (∀ (c : Fin 1024) (w : Fin 16) (s : State), exec (.winUnmap c w) s = .next { s with deferred := s.deferred ++ [.winUnmap c w] }) ∧
  (∀ (c : Fin 1024) (w : Fin 16) (v : Word) (s : State), v.getLsbD 31 = false → s.winOn c w = true ∨ winBusy s c w = true → exec (.winAttrWrite c w v) s = .next { s with deferred := s.deferred ++ [.winAttr c w v] }) ∧
  (∀ (c : Fin 1024) (w : Fin 16) (v : Word) (s : State), s.winOn c w = false → winBusy s c w = false →
      Runs (.winAttrWrite c w v) s fun t => t.deferred = s.deferred ++ [.winAttr c w v] ∧ t.get (Fld.WIN_ATTR_ONCE c w) = bitsOf v.toNat 5 5) ∧
  (∀ (c : Fin 1024) (w : Fin 16) (v : Word) (s : State), v.getLsbD 31 = true →
      Runs (.winAttrWrite c w v) s fun t => t.deferred = s.deferred ++ [.winAttr c w v] ∧ t.get (Fld.WIN_ATTR_AUTOCLR c w) = 0) ∧
  (∀ (i : Fin 65536) (v : BitVec 64) (s : State), Runs (.routeEntryWrite (.msg i) v) s fun t => t.word (Adr.MSG_RT_LO i) = v.setWidth 32 ∧
      t.word (Adr.MSG_RT_LO i + 4) = (v >>> 32).setWidth 32 ∧ t.deferred = s.deferred ++ [.route (Adr.MSG_RT_LO i) v]) ∧
  (∀ (p : Fin 4) (r : RItem) (s : State), (s.ritems.find? fun r => r.port == p.val && !routePeer r.route) = some r →
      (r.tested = false ∨ routedMoved s r = false) → exec (.routedItemDelivery p) s = .next s) ∧
  (∀ (r : RItem) (s : State), r.tested = false → r.ready = true → testWaits s r = false → deliveryTest s r ≠ 0 →
      testItem r s = countDrop r.port (deliveryTest s r) r.kind r.ident r.route (dropRItem r s)) ∧
  (∀ (r : RItem) (s : State), r.tested = false → r.ready = true → testWaits s r = false → deliveryTest s r = 0 →
      ((testItem r s).qp (routeCtx r.route) (routeQp r.route)).resv = (s.qp (routeCtx r.route) (routeQp r.route)).resv ++ [r.id] ∧
        (testItem r s).ritems.length = s.ritems.length ∧ (testItem r s).deferred = s.deferred) ∧
  (∀ (p : Fin 4) (r : RItem) (s : State), (s.ritems.find? fun r => r.port == p.val && !routePeer r.route) = some r → r.tested = true → routedMoved s r = true →
      (s.qp (routeCtx r.route) (routeQp r.route)).resv.head? = some r.id → s.hostOpen (routeCtx r.route) = true → (s.fn (routeCtx r.route)).atsEn = false → upWritesIssued s p r.id = true → Runs (.routedItemDelivery p) s fun t => (∀ x ∈ t.ritems, x.id ≠ r.id)) ∧
  (∀ (p : Fin 4) (r : RItem) (s : State), (s.ritems.find? fun r => r.port == p.val) = some r → routePeer r.route = true → r.ready = true →
      upWritesIssued s p r.id = true → s.route (routeMember r.route) = none →
      exec (.routedItemPeerSend p) s = .next (dropRItem r (countDrop p 7 r.kind r.ident r.route s))) ∧
  (∀ (p k : Fin 4) (r : RItem) (s : State), (s.ritems.find? fun r => r.port == p.val) = some r → routePeer r.route = true → r.ready = true →
      upWritesIssued s p r.id = true → s.route (routeMember r.route) = some k.val →
      exec (.routedItemPeerSend p) s = .next (dropRItem r ((doAll (routedMsgs r s) (sendMsg k) s).inc (Fld.MSG_DELIV_CNT_COUNT p) 1)) ∧
        Runs (.routedItemPeerSend p) s fun t => (∀ x ∈ t.ritems, x.id ≠ r.id) ∧ (t.link k).tx.length = (s.link k).tx.length + (routedMsgs r s).length)

/-- When a core takes the command: APT_CREATE takes the lowest free number, or ends with 4 where the store is not online
or UNITS, with what standby functions hold in reserve, do not fit; APT_ATTACH and APT_DETACH of what is so already end with OK and strokes
of 0, else they are deferred; APT_ERASE of an absent aperture ends OK, of an attached one BUSY (1), else it erases; APT_QUERY reports the
aperture. (R248, R251, R356, R474; derived) -/
def Obligations.ApertureCommands : Prop :=
  (∀ (mb : Fin 1032) (core : Fin 4) (x : Cmd) (s : State), mayTake s mb core 0x0301 = some x → (takeCmd x core s).get Fld.DS_CFG_STATE ≠ 2 →
      exec (.aptCreate mb core) s = .next (cmdDone x.id 4 [] (takeCmd x core s))) ∧
  (∀ (mb : Fin 1032) (core : Fin 4) (x : Cmd) (s : State), mayTake s mb core 0x0301 = some x →
      freeUnits (takeCmd x core s) < unitsReserved (takeCmd x core s) + leAt x.args 0 2 →
      exec (.aptCreate mb core) s = .next (cmdDone x.id 4 [] (takeCmd x core s))) ∧
  (∀ s : State, s.aptIds.length < 2048 → s.aptValid (nextApt s) = false ∧ (∀ a, a < nextApt s → s.aptValid a = true)) ∧
  (∀ (mb : Fin 1032) (core : Fin 4) (x : Cmd) (s : State), mayTake s mb core 0x0301 = some x → (takeCmd x core s).get Fld.DS_CFG_STATE = 2 →
      unitsReserved (takeCmd x core s) + leAt x.args 0 2 ≤ freeUnits (takeCmd x core s) → exec (.aptCreate mb core) s = .next (cmdDone x.id 0 (leBytes 2 (nextApt (takeCmd x core s)))
        (aptCreate (nextApt (takeCmd x core s)) (leAt x.args 0 2) (bitOf (leAt x.args 2 1) 0) (takeCmd x core s)))) ∧
  (∀ (mb : Fin 1032) (core : Fin 4) (x : Cmd) (s u : State), mayTake s mb core 0x0301 = some x → u = takeCmd x core s → u.get Fld.DS_CFG_STATE = 2 →
      unitsReserved u + leAt x.args 0 2 ≤ freeUnits u → 1 ≤ leAt x.args 0 2 → leAt x.args 0 2 ≤ 256 → nextApt u < 2048 →
      Runs (.aptCreate mb core) s fun t => t.aptValid (nextApt u) = true ∧ t.get (Fld.DS_APT_STATUS_UNITS (nextApt u)) = leAt x.args 0 2 ∧
        t.mirror (nextApt u) = (if bitOf (leAt x.args 2 1) 0 then 2 else 0)) ∧
  (∀ (mb : Fin 1032) (core : Fin 4) (x : Cmd) (s : State), mayTake s mb core 0x0302 = some x → leAt x.args 0 2 < (takeCmd x core s).get Fld.DS_CFG_CAP_UNITS →
      (takeCmd x core s).cst (leAt x.args 2 2) ≠ 0 → aptErr (takeCmd x core s) (leAt x.args 0 2) true = none →
      (takeCmd x core s).aptCtx (leAt x.args 0 2) = some (leAt x.args 2 2) →
      exec (.aptAttach mb core) s = .next (cmdDone x.id 0 [0, 0, 0, 0, 0, 0] (takeCmd x core s))) ∧
  (∀ (mb : Fin 1032) (core : Fin 4) (x : Cmd) (s u : State), mayTake s mb core 0x0302 = some x → u = takeCmd x core s → leAt x.args 0 2 < u.get Fld.DS_CFG_CAP_UNITS →
      aptErr u (leAt x.args 0 2) true = none → u.aptCtx (leAt x.args 0 2) = none → attachPending u (leAt x.args 0 2) (leAt x.args 2 2) = false → u.live (leAt x.args 2 2) = true →
      (u.ctx (leAt x.args 2 2)).apt = none → u.mirror (leAt x.args 0 2) = 0 → u.ds.superseded.contains (leAt x.args 0 2) = false →
      u.get (Fld.DS_APT_STATUS_UNITS (leAt x.args 0 2)) ≤ u.get (Fld.CTX_SHARE6_DUR_UNITS (leAt x.args 2 2)) →
      exec (.aptAttach mb core) s = .next { u with deferred := u.deferred ++ [.aptAttach (leAt x.args 0 2) (leAt x.args 2 2) x.id] }) ∧
  (∀ (mb : Fin 1032) (core : Fin 4) (x : Cmd) (s : State), mayTake s mb core 0x0303 = some x → aptErr (takeCmd x core s) (leAt x.args 0 2) true = none →
      ((takeCmd x core s).aptCtx (leAt x.args 0 2)).isSome = true → Runs (.aptDetach mb core) s fun t =>
        t = { takeCmd x core s with deferred := (takeCmd x core s).deferred ++ [.aptDetach (leAt x.args 0 2) x.id] }) ∧
  (∀ (mb : Fin 1032) (core : Fin 4) (x : Cmd) (s : State), mayTake s mb core 0x0303 = some x → aptErr (takeCmd x core s) (leAt x.args 0 2) true = none →
      (takeCmd x core s).aptCtx (leAt x.args 0 2) = none → exec (.aptDetach mb core) s = .next (cmdDone x.id 0 [0, 0, 0, 0, 0, 0] (takeCmd x core s))) ∧
  (∀ (mb : Fin 1032) (core : Fin 4) (x : Cmd) (s : State), mayTake s mb core 0x0304 = some x → aptErr (takeCmd x core s) (leAt x.args 0 2) false = none →
      (takeCmd x core s).aptValid (leAt x.args 0 2) = false → exec (.aptErase mb core) s = .next (cmdDone x.id 0 [] (takeCmd x core s))) ∧
  (∀ (mb : Fin 1032) (core : Fin 4) (x : Cmd) (s : State), mayTake s mb core 0x0304 = some x → aptErr (takeCmd x core s) (leAt x.args 0 2) false = none →
      (takeCmd x core s).aptValid (leAt x.args 0 2) = true → ((takeCmd x core s).aptCtx (leAt x.args 0 2)).isSome = true →
      exec (.aptErase mb core) s = .next (cmdDone x.id 1 [] (takeCmd x core s))) ∧
  (∀ (mb : Fin 1032) (core : Fin 4) (x : Cmd) (s u : State), mayTake s mb core 0x0304 = some x → u = takeCmd x core s → aptErr u (leAt x.args 0 2) false = none →
      u.aptValid (leAt x.args 0 2) = true → u.aptCtx (leAt x.args 0 2) = none →
      exec (.aptErase mb core) s = .next (cmdDone x.id 0 [] ((aptErase (leAt x.args 0 2) u).dsUpd fun d =>
        { d with standby := d.standby.filter fun e => e.2 != some (leAt x.args 0 2) }))) ∧
  (∀ (mb : Fin 1032) (core : Fin 4) (x : Cmd) (s : State), mayTake s mb core 0x0305 = some x → x.mb < 8 → leAt x.args 0 2 < (takeCmd x core s).get Fld.DS_CFG_CAP_UNITS →
      exec (.aptQuery mb core) s = .next (cmdDone x.id 0 (aptReport (takeCmd x core s) (leAt x.args 0 2)) (takeCmd x core s)))

/-- A write that meets R251, with no earlier one of its source waiting, is admitted: it leaves the list, then enters the
cache, its mirror copies and its source's account; one that does not stays. A read of CTX_PERSIST without an aperture
returns at once; else it is held, and returns when what it covers is protected, or after 62 ms with INCOMPLETE, never
in PRESERVE; an 8-byte read goes on with CTX_WFENCE. A MIRROR_ACK ends its copy; a mirror timeout makes SOLO due at the boundary. RESYNC
with an empty bitmap ends in TANDEM. A budget or hold-up write within its energy is deferred, one beyond it sets REFUSED with source 234.
(R251, R253, R254, R256, R260, R261, R264; derived) -/
def Obligations.DurableWritesPersistAndMirrors : Prop :=
  (∀ (n : Fin 65536) (x : Wr) (s : State), s.ds.wait[n.val]? = some x → mayAdmit s x = true → ((s.ds.wait.take n).any fun y => sameSource y.src x.src) = false →
      exec (.writeAdmission n) s = .next (s.dsUpd (fun d => { d with wait := d.wait.eraseIdx n }) |> cacheWrite x |> mirrorWrite x |> admittedFor x |> updStage)) ∧
  (∀ (n : Fin 65536) (x : Wr) (s : State), s.ds.wait[n.val]? = some x → mayAdmit s x = false → exec (.writeAdmission n) s = .next s) ∧
  (∀ (c : Fin 1024) (s : State), HostOpen s → ((hostNoted s).ctx c).apt = none → Runs (.ctxPersistRead c) s fun t =>
      t.out.head? = some (.cpl c 0 (leBytes 4 (2 ^ 30)))) ∧
  (∀ (c : Fin 1024) (a : Nat) (s : State), HostOpen s → ((hostNoted s).ctx c).apt = some a → Runs (.ctxPersistRead c) s fun t =>
      (t.ctx c).persist = ((hostNoted s).ctx c).persist ++ [⟨s.now, (hostNoted s).wseq c, ((hostNoted s).ctx c).wseq4, 15, none, []⟩]) ∧
  (∀ (c : Fin 1024) (r : HeldRead) (rs : List HeldRead) (s : State), (s.ctx c).persist = r :: rs → protectedTo s c r.upTo4 = true → s.mode ≠ .preserve → r.rest = none →
      Runs (.ctxPersistReturn c) s fun t => (t.ctx c).persist = rs ∧
        t.out.head? = some (.cpl c 0 (r.pre ++ enabledBytes r.be (leBytes 4 (persistWord (soloSeen s c r.upTo4) false false (s.since r.since)))))) ∧
  (∀ (c : Fin 1024) (r : HeldRead) (rs : List HeldRead) (be : Nat) (s : State), (s.ctx c).persist = r :: rs → protectedTo s c r.upTo4 = true → s.mode ≠ .preserve →
      r.rest = some be → Runs (.ctxPersistReturn c) s fun t => (t.ctx c).persist = rs ∧ t.out = s.out ∧
        ((t.ctx c).wfence.getLast?.map fun x => (x.since, x.upTo2, x.upTo4, x.be)) = some (r.since, r.upTo2, r.upTo4, be)) ∧
  (∀ (c : Fin 1024) (s : State), s.mode = .preserve → exec (.ctxPersistReturn c) s = .next s ∧ exec (.ctxPersistTimeout c) s = .next s) ∧
  (∀ (c : Fin 1024) (r : HeldRead) (rs : List HeldRead) (s : State), (s.ctx c).persist = r :: rs → protectedTo s c r.upTo4 = false → heldLimit ≤ s.since r.since → s.mode ≠ .preserve → r.rest = none →
      Runs (.ctxPersistTimeout c) s fun t => (t.ctx c).persist = rs ∧
        t.out.head? = some (.cpl c 0 (r.pre ++ enabledBytes r.be (leBytes 4 (persistWord (soloSeen s c r.upTo4) false true (s.since r.since)))))) ∧
  (∀ (k : Fin 4) (m : UMsg) (vc j n : Nat) (q : UMsg) (s : State), rxHead s k (acksMirror s k) = some (vc, m) →
      respOf (s.linkUpd k fun l => { l with rx := l.rx.erase (vc, m) }) k m = some (j, m.tag, .mirror n, q) →
      exec (.mirrorAckReceive k) s = .next (ulFree k (mirrorAcked n (reqEnds j m.tag (s.linkUpd k fun l => { l with rx := l.rx.erase (vc, m) }))))) ∧
  (∀ (a : Fin 2048) (x : MirrorOut) (v : Stroke) (s : State), x ∈ s.ds.copies → x.apt = a.val → x.sent = some v → s.get Fld.DS_MIRROR_CTL_ACK_TMO ≤ s.since v →
      s.ds.soloDue.contains a.val = false → exec (.mirrorAckTimeout a) s = .next (s.dsUpd fun d => { d with soloDue := d.soloDue ++ [a.val] })) ∧
  (∀ (a : Fin 2048) (s : State), s.mirror a = 3 → (s.ds.bitmap.any fun u => u.1 == a.val) = false → Runs (.resyncComplete a) s fun t => t.mirror a = 1) ∧
  (∀ (v : Word) (s : State), v.getLsbD 31 = false → bitsOf v.toNat 8 0 % 16 = 0 → 16 ≤ bitsOf v.toNat 8 0 → bitsOf v.toNat 8 0 ≤ 256 →
      energyOf (bitsOf v.toNat 8 0) s.flushRate ≤ s.get Fld.DS_HOLDUP_MJ → exec (.dsBudgetWrite v) s = .next { s with deferred := s.deferred ++ [.budget (bitsOf v.toNat 8 0)] }) ∧
  (∀ (v : Word) (s : State), v.getLsbD 31 = false → bitsOf v.toNat 8 0 % 16 = 0 → 16 ≤ bitsOf v.toNat 8 0 → bitsOf v.toNat 8 0 ≤ 256 →
      s.get Fld.DS_HOLDUP_MJ < energyOf (bitsOf v.toNat 8 0) s.flushRate → s.inRest = false →
      Runs (.dsBudgetWrite v) s fun t => t.get Fld.DS_BUDGET_REFUSED = 1 ∧ t.get Fld.DS_BUDGET_MIB = s.get Fld.DS_BUDGET_MIB ∧ isPending t 234 = true) ∧
  (∀ (v : Word) (s : State), v.getLsbD 31 = false → bitsOf v.toNat 15 0 < energyOf (s.get Fld.DS_BUDGET_MIB) s.flushRate → s.inRest = false →
      Runs (.dsHoldupWrite v) s fun t => t.get Fld.DS_HOLDUP_REFUSED = 1 ∧ t.get Fld.DS_HOLDUP_MJ = s.get Fld.DS_HOLDUP_MJ ∧ isPending t 234 = true) ∧
  (∀ (v : Word) (s : State), v.getLsbD 31 = false → energyOf (s.get Fld.DS_BUDGET_MIB) s.flushRate ≤ bitsOf v.toNat 15 0 →
      exec (.dsHoldupWrite v) s = .next { s with deferred := s.deferred ++ [.holdup (bitsOf v.toNat 15 0)] })

/-- The confirmed flush of a unit that is on its way confirms its stripe: each unit of it is clean and copied to NAND. A permitted
stripe is recorded with its members, its parity position, which rotates, and its units. Corrected DRAM errors below THRESH only count; an uncorrectable one in a clean unit drops it
from the cache; a scrub pass counts. A NAND read that needs hard retries counts in HARD_RETRY; a program or erase fail
of a LUN in use counts and retires the block. (R251, R272, R273, R274, R283, R284, R286, R294; derived) -/
def Obligations.FlushStripesAndMediaErrors : Prop :=
  (∀ (a : Fin 2048) (u : BitVec 32) (p : Stripe) (s : State), flightOf s (a.val, u.toNat) = some p →
      Runs (.unitFlushComplete a u) s fun t => (∀ x ∈ p.units, x.2 ∉ t.ds.dirty ∧ x.2 ∉ t.ds.flushing ∧ x.2 ∈ t.ds.clean) ∧ t.ds.mem = s.ds.mem ∧
        t.ds.nand = (p.units.map (·.2)).foldl (fun n x => copyBytes s.ds.mem n (unitKeys s x).1 (unitKeys s x).2) s.ds.nand) ∧
  (∀ (a : Fin 2048) (u : BitVec 32) (s : State), flightOf s (a.val, u.toNat) = none → exec (.unitFlushComplete a u) s = .next s) ∧
  (∀ (members : List NandBlock) (units : List (Fin 2048 × BitVec 32)) (s : State), mayStripe s (members.map nandPair) (units.map fun u => (u.1.val, u.2.toNat)) = true →
      Runs (.stripeWrite members units) s fun t => t.ds.flushing = s.ds.flushing ++ units.map (fun u => (u.1.val, u.2.toNat)) ∧
        (t.med.stripes.getLast?.map fun p => (p.members, p.parity, p.units.map (·.2), p.closed)) =
          some (members.map fun b => some (nandPair b), s.med.count % members.length, units.map fun u => (u.1.val, u.2.toNat), false) ∧
        t.med.count = s.med.count + 1 ∧ t.ds.dirty = s.ds.dirty) ∧
  (∀ (ch rank : Fin 2) (dev : Fin 10) (line : BitVec 30) (s : State), s.ds.errs = [] → 2 ≤ s.get Fld.DRC_FAIL_CTL_THRESH →
      Runs (.dramCorrectedError ch rank dev line) s fun t => t.get (Fld.DRC_ECC_CNT_CORR ch) = min (Fld.DRC_ECC_CNT_CORR ch).max (s.get (Fld.DRC_ECC_CNT_CORR ch) + 1) ∧
        t.get Fld.DRC_ECC_ADDR_LINE = line.toNat ∧ t.ds.failed = s.ds.failed) ∧
  (∀ (ch rank : Fin 2) (line : BitVec 30) (a : Fin 2048) (u : BitVec 32) (s : State), s.mode ≠ .preserve →
      Runs (.dramUncorrectableError ch rank line (.clean a u)) s fun t => (a.val, u.toNat) ∉ t.ds.clean ∧ t.get Fld.DRC_ECC_LOG_UNCORR = 1 ∧ t.ds.dirty = s.ds.dirty) ∧
  (∀ (s : State), s.inRest = false → Runs .dramScrubPass s fun t => t.get Fld.DRC_SCRUB_PASSES = min Fld.DRC_SCRUB_PASSES.max (s.get Fld.DRC_SCRUB_PASSES + 1) ∧ isPending t 161 = true) ∧
  (∀ (b : NandBlock) (a : Fin 2048) (u : BitVec 32) (k : Fin 4) (s : State), ((closedStripes s).any fun p => (p.unitsOn (nandPair b)).contains (a.val, u.toNat)) = true →
      s.lunGone (nandPair b).1 = false → k ≠ 0 →
      exec (.nandRead b a u (some (⟨k.val, by omega⟩))) s = .next (s.inc Fld.MED_RETRY_HIST_HARD_RETRY 1)) ∧
  (∀ (b : NandBlock) (s : State), s.lunOk (nandPair b).1 = true → s.med.retired.contains (nandPair b) = false →
      Runs (.nandProgramFail b) s fun t => nandPair b ∈ t.med.retired ∧ t.get (Fld.MED_NF_CNT_PROG_FAIL (lunChannel (nandPair b).1)) =
        min (Fld.MED_NF_CNT_PROG_FAIL (lunChannel (nandPair b).1)).max (s.get (Fld.MED_NF_CNT_PROG_FAIL (lunChannel (nandPair b).1)) + 1)) ∧
  (∀ (b : NandBlock) (s : State), s.lunOk (nandPair b).1 = true → s.med.retired.contains (nandPair b) = false →
      Runs (.nandEraseFail b) s fun t => nandPair b ∈ t.med.retired ∧ t.get (Fld.MED_NF_CNT_ERASE_FAIL (lunChannel (nandPair b).1)) =
        min (Fld.MED_NF_CNT_ERASE_FAIL (lunChannel (nandPair b).1)).max (s.get (Fld.MED_NF_CNT_ERASE_FAIL (lunChannel (nandPair b).1)) + 1))

/-- A LUN not in use is not lost again; one in use is marked lost and counted. A rebuild under way whose stripes' data fits the new
stripes named leaves NORMAL (1) at 1,000 per mille and ACTIVE 0; one that does not fit changes nothing. A patrol pass counts and marks
the blocks in use whose worst read needed REFRESH_STEP or more; a read that needed step 8 or 9 counts as SOFT with source NF_RETRY_SOFT. A
refresh, a garbage collection and a wear-levelling move put the block's data in the new stripes, a refresh counting, and retiring a block
whose reads it does not mend; a block that moved is due its erase and no stripe has it; without their conditions, the reserve, into which
no such move programs, and the bound of write amplification among them, nothing moves. WORN (4) is entered from any state but OFFLINE and
WORN where no block outside the reserve is free. (R283, R288, R289, R290, R291, R293, R294, R295, R296, R301, R302; derived) -/
def Obligations.RebuildPatrolAndWear : Prop :=
  (∀ (lun : Fin 64) (cause : Fin 5) (s : State), s.lunOk lun = false → exec (.lunLost lun cause) s = .next s) ∧
  (∀ (lun : Fin 64) (cause : Fin 5) (s : State), s.lunOk lun = true → s.get Fld.DS_CFG_STATE = 0 → s.med.reb = 0 →
      Runs (.lunLost lun cause) s fun t => t.lunGone lun = true ∧ t.get Fld.MED_STATUS_LOST = min Fld.MED_STATUS_LOST.max (s.get Fld.MED_STATUS_LOST + 1)) ∧
  (∀ (dest : List (List NandBlock)) (u : State) (s : State), s.med.reb = 1 → mediaIdle s = true → rebuildInto (destPairs dest) s = (u, true) →
      u.get Fld.MED_STATUS_STATE ≠ 0 → u.med.worn = false →
      Runs (.rebuildComplete dest) s fun t => t.get Fld.MED_STATUS_STATE = 1 ∧ t.get Fld.MED_REBUILD_STATUS_PERMILLE = 1000 ∧
        t.get Fld.MED_REBUILD_STATUS_ACTIVE = 0 ∧ t.med.reb = 0 ∧ t.med.stripes = u.med.stripes) ∧
  (∀ (dest : List (List NandBlock)) (s : State), (s.med.reb ≠ 1 ∨ mediaIdle s = false ∨ (rebuildInto (destPairs dest) s).2 = false) →
      exec (.rebuildComplete dest) s = .next s) ∧
  (∀ (read : List (NandBlock × Fin 11)) (s : State), mediaIdle s = true → Runs (.patrolPass read) s fun t => t.get Fld.MED_PATROL_STATUS_PASSES =
      min Fld.MED_PATROL_STATUS_PASSES.max (s.get Fld.MED_PATROL_STATUS_PASSES + 1) ∧
      (∀ x ∈ read, (inUse s).contains (nandPair x.1) = true → s.get Fld.MED_PATROL_CTL_REFRESH_STEP ≤ x.2.val → nandPair x.1 ∈ t.med.marked)) ∧
  (∀ (victim : NandBlock) (dest : List (List NandBlock)) (after : Fin 11) (u : State) (s : State), s.med.marked.contains (nandPair victim) = true → mayMove s (nandPair victim) = true →
      moveAllowed s (destPairs dest) = true → moveBlock nextStripe (nandPair victim) (destPairs dest) s = (u, true) →
      after.val < s.get Fld.MED_PATROL_CTL_REFRESH_STEP → exec (.blockRefresh victim dest after) s = .next (mediaStep victim.1 after (u.inc Fld.MED_REFRESH_CNT_BLOCKS 1))) ∧
  (∀ (victim : NandBlock) (dest : List (List NandBlock)) (after : Fin 11) (u : State) (s : State), s.med.marked.contains (nandPair victim) = true → mayMove s (nandPair victim) = true →
      moveAllowed s (destPairs dest) = true → moveBlock nextStripe (nandPair victim) (destPairs dest) s = (u, true) →
      s.get Fld.MED_PATROL_CTL_REFRESH_STEP ≤ after.val →
      exec (.blockRefresh victim dest after) s = .next (retire (nandPair victim) (mediaStep victim.1 after (u.inc Fld.MED_REFRESH_CNT_BLOCKS 1)))) ∧
  (∀ (ok : State → List (Nat × Nat) → Bool) (v : Nat × Nat) (dests : List (List (Nat × Nat))) (s : State), (moveBlock ok v dests s).2 = true →
      v ∈ (moveBlock ok v dests s).1.med.erasing ∧ (∀ p ∈ (moveBlock ok v dests s).1.med.stripes, some v ∉ p.members) ∧
        (moveBlock ok v dests s).1.ds = s.ds) ∧
  (∀ (ok : State → List (Nat × Nat) → Bool) (v : Nat × Nat) (dests : List (List (Nat × Nat))) (s : State), (moveBlock ok v dests s).2 = false →
      (moveBlock ok v dests s).1 = s) ∧
  (∀ (victim : NandBlock) (dest : List (List NandBlock)) (s : State), mayReclaim s (nandPair victim) (destPairs dest) = true →
      (((inUse s).filter (reclaimable s)).all fun b => decide (validIn s (nandPair victim) ≤ validIn s b)) = true →
      exec (.garbageCollection victim dest) s = .next (moveBlock nextStripe (nandPair victim) (destPairs dest) s).1) ∧
  (∀ (victim : NandBlock) (dest : List (List NandBlock)) (s : State), mayReclaim s (nandPair victim) (destPairs dest) = false →
      exec (.garbageCollection victim dest) s = .next s ∧ exec (.wearLevelling victim dest) s = .next s) ∧
  (∀ (victim : NandBlock) (dest : List (List NandBlock)) (s : State), mayReclaim s (nandPair victim) (destPairs dest) = true →
      s.get Fld.MED_WEAR_CTL_SPREAD < s.get Fld.MED_PE_PE_MAX - s.get Fld.MED_PE_PE_MIN → s.peOf (nandPair victim) = s.get Fld.MED_PE_PE_MIN →
      exec (.wearLevelling victim dest) s = .next (moveBlock (membersOk (wornThan (s.peOf (nandPair victim)))) (nandPair victim) (destPairs dest) s).1) ∧
  (∀ (s : State), s.get Fld.MED_STATUS_STATE ≠ 0 → s.med.worn = false → roomOutside s = false → s.inRest = false → Runs .mediaWorn s fun t => t.get Fld.MED_STATUS_STATE = 4 ∧ isPending t 245 = true) ∧
  (∀ (s : State), s.get Fld.MED_STATUS_STATE = 0 ∨ s.med.worn = true ∨ roomOutside s = true → exec .mediaWorn s = .next s) ∧
  (∀ (l n : Nat) (s : State), 8 ≤ n → n < 10 → ∃ u, mediaStep l n s = nfRaise l 3 u ∧
      u.get Fld.MED_RETRY_HIST_SOFT = min Fld.MED_RETRY_HIST_SOFT.max (s.get Fld.MED_RETRY_HIST_SOFT + 1)) ∧
  (∀ (s : State) (dests : List (List (Nat × Nat))), moveAllowed s dests = true → reserveSets s + (dests.map List.length).sum ≤ freeSets s)

/-- When a core takes it, STORE_QUERY answers the seven store registers and the OP word, MEDIA_HEALTH the seven media
words and the OP word, STORE_RECORD the context's entry of the last written record or code 3. STORE_FORMAT and
MEDIA_REBUILD end BUSY (1) while a long operation of the group runs; else, where the population carries the format,
they start one and end OK. (R281, R300, R301, R404; derived) -/
def Obligations.StoreGroupCommands : Prop :=
  (∀ (mb : Fin 1032) (core : Fin 4) (x : Cmd) (s : State), mayTake s mb core 0x0306 = some x →
      exec (.storeQuery mb core) s = .next (cmdDone x.id 0 (([Adr.DS_CFG, Adr.DS_BUDGET, Adr.DS_HOLDUP, Adr.DS_RECOVER, Adr.DS_RECOVER_UNITS, Adr.DS_PRESERVE_LOG,
        Adr.DS_PRESERVE_UNITS].flatMap (wordBytes (takeCmd x core s))) ++ leBytes 4 (opWord (takeCmd x core s).mbx.store)) (takeCmd x core s))) ∧
  (∀ (mb : Fin 1032) (core : Fin 4) (x : Cmd) (s : State), mayTake s mb core 0x0309 = some x →
      exec (.mediaHealth mb core) s = .next (cmdDone x.id 0 (([Adr.MED_STATUS, Adr.MED_LUN_LOST_LO, Adr.MED_LUN_LOST_HI, Adr.MED_LIFE, Adr.MED_PE, Adr.MED_WA,
        Adr.MED_RETRY_HIST].flatMap (wordBytes (takeCmd x core s))) ++ leBytes 4 (opWord (takeCmd x core s).mbx.store)) (takeCmd x core s))) ∧
  (∀ (mb : Fin 1032) (core : Fin 4) (x : Cmd) (r : List Byte) (s : State), mayTake s mb core 0x0307 = some x →
      tabFind (takeCmd x core s).ds.ctxRecord (leAt x.args 0 2) = some r → (takeCmd x core s).ds.ctxRecordWritten = true →
      exec (.storeRecord mb core) s = .next (cmdDone x.id 0 r (takeCmd x core s))) ∧
  (∀ (mb : Fin 1032) (core : Fin 4) (x : Cmd) (s : State), mayTake s mb core 0x0307 = some x → (takeCmd x core s).ds.ctxRecordWritten = false →
      exec (.storeRecord mb core) s = .next (cmdDone x.id 3 [] (takeCmd x core s))) ∧
  (∀ (mb : Fin 1032) (core : Fin 4) (x : Cmd) (s : State), mayTake s mb core 0x0308 = some x → storeBusy (takeCmd x core s) = true →
      exec (.storeFormat mb core) s = .next (cmdDone x.id 1 [] (takeCmd x core s))) ∧
  (∀ (mb : Fin 1032) (core : Fin 4) (x : Cmd) (s : State), mayTake s mb core 0x0308 = some x → storeBusy (takeCmd x core s) = false → bitOf (leAt x.args 0 1) 0 = false →
      carries ((takeCmd x core s).get Fld.MED_STATUS_HEALTHY) (lunUnits (takeCmd x core s)) 512 = true →
      exec (.storeFormat mb core) s = .next (cmdDone x.id 0 [] (storeStart x 0x0308 (takeCmd x core s)).1)) ∧
  (∀ (mb : Fin 1032) (core : Fin 4) (x : Cmd) (s : State), mayTake s mb core 0x030A = some x → storeBusy (takeCmd x core s) = false →
      exec (.mediaRebuild mb core) s = .next (cmdDone x.id 0 [] (storeStart x 0x030A (takeCmd x core s)).1)) ∧
  (∀ (mb : Fin 1032) (core : Fin 4) (x : Cmd) (s : State), mayTake s mb core 0x030A = some x → storeBusy (takeCmd x core s) = true →
      exec (.mediaRebuild mb core) s = .next (cmdDone x.id 1 [] (takeCmd x core s)))

/-- EN 0 of a training link takes it to RESET (0), EN 1 in RESET of a member of a peloton starts training; RETRAIN of an ACTIVE link makes it due to go down, and at the
boundary it is in HOLD (4), its downs counted. Lock of at least four lanes in TRAIN moves the link to PARAM (2) with
the map of the lanes; fewer are only recorded as passed. TRAIN_TMO counts a failed training and starts the next. An INIT of another
revision or digest is refused with MISMATCH; a good one is answered, in PARAM with the far end's map and parameters taken. An INIT_ACK in PARAM
counts, and with the INIT answered the link is ACTIVE (3). Before its grace period ends a link in HOLD is not flushed.
(R311, R313, R318, R335, R338, R340; derived) -/
def Obligations.LinkTrainingAndParameters : Prop :=
  (∀ (k : Fin 4) (s : State), s.ulState k ≠ 0 → s.ulState k ≠ 3 → s.ulState k ≠ 4 →
      Runs (.ulCtlEnWrite k false) s fun t => t.ulState k = 0 ∧ t.get (Fld.UL_CTL_EN k) = 0) ∧
  (∀ (k : Fin 4) (s : State), s.ulState k ≠ 0 → exec (.ulCtlEnWrite k true) s = .next (s.set (Fld.UL_CTL_EN k) 1)) ∧
  (∀ (k : Fin 4) (s : State), s.ulState k = 0 → s.standAlone = false → exec (.ulCtlEnWrite k true) s = .next (ulTrain k (s.set (Fld.UL_CTL_EN k) 1)) ∧
      Runs (.ulCtlEnWrite k true) s fun t => t.ulState k = 1 ∧ t.get (Fld.UL_CTL_EN k) = 1 ∧ (t.link k).since = s.now) ∧
  (∀ (k : Fin 4) (s : State), Runs (.ulRetrain k) s fun t => (t.link k).downDue = ((s.link k).downDue || ulActive s k) ∧
      (s.ulState k ≠ 0 → (t.link k).retrain = true) ∧ t.ulState k = s.ulState k ∧ t.regs = s.regs) ∧
  (∀ (k : Fin 4) (passed : BitVec 9) (s : State), s.ulState k = 1 → 4 ≤ (lanesOf passed.toNat).length → Runs (.ulLanesLocked k passed) s fun t =>
      t.ulState k = 2 ∧ t.get (Fld.UL_LANES_PASSED k) = passed.toNat ∧ t.get (Fld.UL_LANES_RETIRED k) = 511 - passed.toNat ∧ (t.link k).locked = true) ∧
  (∀ (k : Fin 4) (passed : BitVec 9) (s : State), s.ulState k = 1 → (lanesOf passed.toNat).length < 4 → Runs (.ulLanesLocked k passed) s fun t =>
      t.ulState k = 1 ∧ t.get (Fld.UL_LANES_PASSED k) = passed.toNat ∧ t.get (Fld.UL_LANES_RETIRED k) = 511 - passed.toNat ∧ t.link k = { s.link k with told := true }) ∧
  (∀ (k : Fin 4) (passed : BitVec 9) (s : State), training s k = false → exec (.ulLanesLocked k passed) s = .next s) ∧
  (∀ (k : Fin 4) (s : State), s.ulState k = 1 → s.get (Fld.UL_TIMERS_TRAIN_TMO k) ≤ s.since (s.link k).since → Runs (.ulTrainTimeout k) s fun t =>
      t.ulState k = 1 ∧ (t.link k).since = s.now ∧ (t.link k).preset = presetOf s k ∧ t.get (Fld.UL_LANES_EPOCH k) = 0 ∧ t.get (Fld.UL_EVT_CNT_TRAIN_FAIL k) = min (Fld.UL_EVT_CNT_TRAIN_FAIL k).max (s.get (Fld.UL_EVT_CNT_TRAIN_FAIL k) + 1)) ∧
  (∀ (k : Fin 4) (back rev member topo : BitVec 8) (fresh w4 : Bool) (credits : Word) (e : BitVec 12) (grace : BitVec 8) (map : Word) (digest : BitVec 64) (s : State),
      (ulHears s k = true ∨ paramHears s k = true) → (rev ≠ 1 ∨ digest.toNat ≠ (s.word Adr.PEL_IDENT_LO).toNat + 2 ^ 32 * (s.word Adr.PEL_IDENT_HI).toNat) →
      (s.link k).bheld = [] → Runs (.bypassInit k back rev member topo fresh w4 credits e grace map digest) s fun t =>
        t.isSet (Fld.UL_PEER_MISMATCH k) = true ∧ t.get (Fld.UL_PEER_REV k) = rev.toNat ∧ t.ulState k = s.ulState k ∧ (t.link k).ackSent = (s.link k).ackSent) ∧
  (∀ (k : Fin 4) (back member topo : BitVec 8) (fresh w4 : Bool) (credits : Word) (e : BitVec 12) (grace : BitVec 8) (map : Word) (digest : BitVec 64) (s : State),
      ulHears s k = true → digest.toNat = (s.word Adr.PEL_IDENT_LO).toNat + 2 ^ 32 * (s.word Adr.PEL_IDENT_HI).toNat → (s.link k).bheld = [] →
      exec (.bypassInit k back 1 member topo fresh w4 credits e grace map digest) s = .next (sendBypass k 2 (leBytes 1 (s.link k).txEpoch) s)) ∧
  (∀ (k : Fin 4) (back member topo : BitVec 8) (fresh w4 : Bool) (credits : Word) (e : BitVec 12) (grace : BitVec 8) (map : Word) (digest : BitVec 64) (s : State),
      s.ulState k = 2 → (s.link k).lostSync = false → digest.toNat = (s.word Adr.PEL_IDENT_LO).toNat + 2 ^ 32 * (s.word Adr.PEL_IDENT_HI).toNat → (s.link k).ackRcvd = false →
      Runs (.bypassInit k back 1 member topo fresh w4 credits e grace map digest) s fun t => t.ulState k = 2 ∧ (t.link k).ackSent = true ∧ (t.link k).txMap = map.toNat ∧
        ((t.link k).init.map fun i => (i.fresh, i.w4, i.exp, i.grace)) = some (fresh, w4, e.toNat, grace.toNat)) ∧
  (∀ (k : Fin 4) (back epoch : BitVec 8) (s : State), paramHears s k = false → ulHears s k = false → exec (.bypassInitAck k back epoch) s = .next s) ∧
  (∀ (k : Fin 4) (back epoch : BitVec 8) (s : State), ulHears s k = true → exec (.bypassInitAck k back epoch) s = .next (bypassAck k back.toNat s)) ∧
  (∀ (k : Fin 4) (back : BitVec 8) (s : State), paramHears s k = true → (s.link k).init = none →
      exec (.bypassInitAck k back 0) s = .next (s.linkUpd k fun l => { l with ackRcvd := true })) ∧
  (∀ (k : Fin 4) (back : BitVec 8) (i : UInit) (s : State), s.ulState k = 2 → (s.link k).lostSync = false → (s.link k).init = some i → (s.link k).ackSent = true →
      Runs (.bypassInitAck k back 0) s fun t => t.ulState k = 3 ∧ (t.link k).upAt = s.now ∧ (t.link k).fresh = false ∧ (t.link k).errOut = false) ∧
  (∀ (k : Fin 4) (s : State), (s.link k).downDue = true → ulActive s k = true → Runs (.ulLinkDown k) s fun t => t.ulState k = 4 ∧ (t.link k).downDue = false ∧
      (t.link k).holdAt = some (s.now + 1) ∧ t.get (Fld.UL_EVT_CNT_DOWNS k) = min (Fld.UL_EVT_CNT_DOWNS k).max (s.get (Fld.UL_EVT_CNT_DOWNS k) + 1)) ∧
  (∀ (k : Fin 4) (s : State), graceOver s k (s.now + 1) = false → exec (.ulGraceExpiry k) s = .next s) ∧
  (∀ (k : Fin 4) (s : State), graceOver s k (s.now + 1) = true → exec (.ulGraceExpiry k) s = .next (ulFlush k s))

/-- On an ACTIVE link an ACK releases the sequenced cells before BACK and the held cells before EXP; a NAK of a SEQ held
or next counts and replays from it, one of neither is a protocol error (2); a CREDIT adds credits; a STROKE of another
member than the leader only acknowledges; a JOINING member notes each (log 186), and takes the count of its leader's cell, one more, for
the boundary; a DELAY_REQ is answered, a DELAY_RESP sets the one-way delay, DELAY_REQ goes
every 2,000 strokes; NULL acknowledges, a reserved type is only counted; the sequenced cells from the oldest unacknowledged for 1 us on
go again, and after the eighth time the link is due to go down; in Park, and before that time, none does.
On a link that is not ACTIVE, or has lost delineation, an ACK does nothing. (R157, R316, R317, R324, R327, R332, R337, R454; derived) -/
def Obligations.BypassCells : Prop :=
  (∀ (k : Fin 4) (back : BitVec 8) (e : BitVec 12) (s : State), ulHears s k = true → exec (.bypassAck k back e) s = .next (ackCover k e.toNat (bypassAck k back.toNat s))) ∧
  (∀ (k : Fin 4) (back : BitVec 8) (e : BitVec 12) (s : State), ulHears s k = false → exec (.bypassAck k back e) s = .next s) ∧
  (∀ (k : Fin 4) (back : BitVec 8) (e : BitVec 12) (s u : State), ulHears s k = true → u = (bypassAck k back.toNat s).inc (Fld.UL_ERR_CNT_NAK_RCVD k) 1 →
      ((u.link k).held.any fun c => c.seq == e.toNat) = true → exec (.bypassNak k back e) s = .next (ulReplay k e.toNat (ackCover k e.toNat u))) ∧
  (∀ (k : Fin 4) (back : BitVec 8) (e : BitVec 12) (s u : State), ulHears s k = true → u = (bypassAck k back.toNat s).inc (Fld.UL_ERR_CNT_NAK_RCVD k) 1 →
      ((u.link k).held.any fun c => c.seq == e.toNat) = false → e.toNat ≠ u.get (Fld.UL_SEQ_TX_NEXT k) → exec (.bypassNak k back e) s = .next (ulProto k 2 e.toNat u)) ∧
  (∀ (k : Fin 4) (back : BitVec 8) (counts : Word) (s : State), ulHears s k = true → (s.link k).bheld = [] → (s.link k).crSeen = [0, 0, 0, 0] →
      s.get (crAvail k 3) + bitsOf counts.toNat 31 24 < 256 → Runs (.bypassCredit k back counts) s fun t => t.get (crAvail k 3) = s.get (crAvail k 3) + bitsOf counts.toNat 31 24) ∧
  (∀ (k : Fin 4) (back : BitVec 8) (stroke : Stroke) (leader : Fin 8) (hops : BitVec 8) (phase : BitVec 16) (skew : BitVec 8) (s : State), ulHears s k = true → s.pelState ≠ 1 →
      leader.val ≠ s.get Fld.PEL_STATUS_LEADER → exec (.bypassStroke k back stroke leader hops phase skew) s = .next (bypassAck k back.toNat s)) ∧
  (∀ (k : Fin 4) (back : BitVec 8) (stroke : Stroke) (leader : Fin 8) (hops : BitVec 8) (phase : BitVec 16) (skew : BitVec 8) (s : State), ulHears s k = true →
      leader.val = s.get Fld.PEL_STATUS_LEADER → leader.val ≠ s.me ∨ s.pelState = 1 → s.pel.named = true → (s.link k).bheld = [] → phase.toNat < 8000 → skewOf skew.toNat ≤ 1 →
      Runs (.bypassStroke k back stroke leader hops phase skew) s fun t => t.get Fld.CAD_PEL_ALIGN_ALIGNED = 1 ∧ t.get Fld.CAD_PEL_ALIGN_SKEW = skew.toNat ∧
        t.cad.mark = some s.now ∧ t.cad.leader = some leader.val ∧ t.now = s.now) ∧
  (∀ (k : Fin 4) (back : BitVec 8) (stroke : Stroke) (leader : Fin 8) (hops : BitVec 8) (phase : BitVec 16) (skew : BitVec 8) (s : State), ulHears s k = true →
      s.pelState = 1 → (s.link k).bheld = [] → Runs (.bypassStroke k back stroke leader hops phase skew) s fun t => (k.val, leader.val) ∈ t.pel.heard) ∧
  (∀ (k : Fin 4) (back : BitVec 8) (stroke : Stroke) (leader : Fin 8) (hops : BitVec 8) (phase : BitVec 16) (skew : BitVec 8) (s : State), ulHears s k = true →
      s.pelState = 1 → s.pel.named = true → leader.val = s.get Fld.PEL_STATUS_LEADER → (s.link k).bheld = [] →
      Runs (.bypassStroke k back stroke leader hops phase skew) s fun t => t.pel.adopt = some (stroke + 1)) ∧
  (∀ (k : Fin 4) (back : BitVec 8) (sent recv : BitVec 64) (turn : Word) (s : State), ulHears s k = true → exec (.bypassDelayReq k back sent recv turn) s =
      .next (sendBypass k 8 (leBytes 8 sent.toNat ++ leBytes 8 recv.toNat ++ leBytes 4 turn.toNat) (bypassAck k back.toNat s))) ∧
  (∀ (k : Fin 4) (back : BitVec 8) (sent now_ : BitVec 64) (turn : Word) (s : State), ulHears s k = true → Runs (.bypassDelayResp k back sent now_ turn) s fun t =>
      t.get (Fld.UL_DELAY_ONE_WAY k) = min 65535 (((now_ - sent).toNat - turn.toNat) / 2)) ∧
  (∀ (k : Fin 4) (v : BitVec 64) (s : State), ulActive s k = true → s.get (Fld.UL_STATUS_LPM k) ≠ 2 → 2000 ≤ s.since (s.link k).delayAt →
      exec (.delayReqSend k v) s = .next (sendBypass k 7 (leBytes 8 v.toNat) (s.linkUpd k fun l => { l with delayAt := s.now }))) ∧
  (∀ (k : Fin 4) (back : BitVec 8) (s : State), ulHears s k = true → exec (.bypassNull k back false) s = .next (bypassAck k back.toNat s)) ∧
  (∀ (k : Fin 4) (back : BitVec 8) (s : State), paramHears s k = true ∨ ulHears s k = true → exec (.bypassNull k back true) s = .next (s.inc (Fld.UL_BYP_BAD k) 1)) ∧
  (∀ (k : Fin 4) (s : State), ulActive s k = true → s.get (Fld.UL_STATUS_LPM k) ≠ 2 → bypassOld s k ≠ [] → Runs (.bypassRetransmit k) s fun t =>
      t.get (Fld.UL_BYP_RETX k) = min (Fld.UL_BYP_RETX k).max (s.get (Fld.UL_BYP_RETX k) + (bypassOld s k).length) ∧
      (t.link k).bheld.map (·.seq) = (s.link k).bheld.map (·.seq) ∧ (∀ b ∈ (t.link k).bheld, ((bypassOld s k).any fun x => x.seq == b.seq) = true → b.sent = s.now) ∧
      ((∀ b ∈ bypassOld s k, b.tries < 7) → (t.link k).downDue = (s.link k).downDue) ∧ ((∃ b ∈ bypassOld s k, 7 ≤ b.tries) → (t.link k).downDue = true)) ∧
  (∀ (k : Fin 4) (s : State), (bypassOld s k = [] ∨ s.get (Fld.UL_STATUS_LPM k) = 2 ∨ ulActive s k = false) → exec (.bypassRetransmit k) s = .next s) ∧
  (∀ (k : Fin 4) (s : State), (∀ b ∈ (s.link k).bheld, s.since b.sent < 2) → bypassOld s k = []) ∧
  (∀ (k : Fin 4) (s : State), (s.link k).bheld = [] → exec (.bypassRetransmit k) s = .next s)

/-- A sequenced cell that is not accepted has no further effect. Accepted, a SHIFT_REQ of a lane below 9 sets the transmit
map and epoch; a request for Park is acknowledged with 2, one for Coast of a busy link with 0; an LPM_ACK ends the
request, and one that grants the state asked for takes the link there once nothing is held; a PHOTO cell seen before does nothing, another
is recorded in PFS_BCAST; a PEER_MBX fragment for a member without a route is dropped, a request for this one is collected.
(R317, R334, R336, R412, R454; derived) -/
def Obligations.SequencedBypassCells : Prop :=
  (∀ (k : Fin 4) (bseq back lane epoch : BitVec 8) (map : Word) (s u : State), bypassSeq k bseq.toNat back.toNat s = (u, false) →
      exec (.bypassShiftReq k bseq back lane epoch map) s = .next u) ∧
  (∀ (k : Fin 4) (bseq back lane epoch : BitVec 8) (map : Word) (s u : State), bypassSeq k bseq.toNat back.toNat s = (u, true) → lane.toNat < 9 → (u.link k).held = [] →
      Runs (.bypassShiftReq k bseq back lane epoch map) s fun t => (t.link k).txMap = map.toNat ∧ (t.link k).txEpoch = epoch.toNat ∧ t.get (Fld.UL_STATUS_SHIFT k) = 1 ∧
        t.get (Fld.UL_STATUS_SPARE_TX k) = 0) ∧
  (∀ (k : Fin 4) (bseq back : BitVec 8) (s u : State), bypassSeq k bseq.toNat back.toNat s = (u, true) → exec (.bypassLpmReq k bseq back 2) s =
      .next (lpmTry k ((sendBypass k 11 [2] u).linkUpd k fun l => { l with lpmGo := some 2 }))) ∧
  (∀ (k : Fin 4) (bseq back : BitVec 8) (s u : State), bypassSeq k bseq.toNat back.toNat s = (u, true) → ulBusy u k = true →
      exec (.bypassLpmReq k bseq back 1) s = .next (sendBypass k 11 [0] u)) ∧
  (∀ (k : Fin 4) (bseq back st : BitVec 8) (s u : State), bypassSeq k bseq.toNat back.toNat s = (u, true) → (u.link k).lpmAsk ≠ some st.toNat → (u.link k).lpmGo = none →
      Runs (.bypassLpmAck k bseq back st) s fun t => (t.link k).lpmAsk = none ∧ t.get (Fld.UL_STATUS_LPM k) = u.get (Fld.UL_STATUS_LPM k)) ∧
  (∀ (k : Fin 4) (bseq back st : BitVec 8) (s u : State), bypassSeq k bseq.toNat back.toNat s = (u, true) → (u.link k).lpmAsk = some st.toNat →
      exec (.bypassLpmAck k bseq back st) s = .next (lpmTry k (u.linkUpd k fun l => { l with lpmAsk := none, lpmGo := some st.toNat }))) ∧
  (∀ (k : Fin 4) (st : Nat) (s : State), (s.link k).lpmGo = some st → (s.link k).held = [] → ulActive s k = true → st < 4 →
      (lpmTry k s).get (Fld.UL_STATUS_LPM k) = st ∧ ((lpmTry k s).link k).lpmGo = none) ∧
  (∀ (k : Fin 4) (st : Nat) (s : State), (s.link k).lpmGo = some st → (s.link k).held ≠ [] → lpmTry k s = s) ∧
  (∀ (k : Fin 4) (bseq back : BitVec 8) (stroke : Stroke) (origin : Fin 8) (src : BitVec 8) (num : BitVec 16) (s u : State), bypassSeq k bseq.toNat back.toNat s = (u, true) →
      (origin.val, num.toNat) ∈ u.pfs.seen → exec (.bypassPhoto k bseq back stroke origin src num) s = .next u) ∧
  (∀ (k : Fin 4) (bseq back : BitVec 8) (stroke : Stroke) (origin : Fin 8) (src : BitVec 8) (num : BitVec 16) (s u : State), bypassSeq k bseq.toNat back.toNat s = (u, true) →
      (origin.val, num.toNat) ∉ u.pfs.seen → Runs (.bypassPhoto k bseq back stroke origin src num) s fun t => (origin.val, num.toNat) ∈ t.pfs.seen ∧
        t.get Fld.PFS_BCAST_ORIGIN = origin.val ∧ t.get Fld.PFS_BCAST_NUMBER = num.toNat ∧ t.get Fld.PFS_BCAST_VALID = 1) ∧
  (∀ (k : Fin 4) (bseq back : BitVec 8) (txn : BitVec 16) (idx flags : BitVec 8) (data : List Byte) (s u : State), bypassSeq k bseq.toNat back.toNat s = (u, false) →
      exec (.bypassPeerMbx k bseq back txn idx flags data) s = .next u) ∧
  (∀ (k : Fin 4) (bseq back : BitVec 8) (txn : BitVec 16) (flags : BitVec 8) (data : List Byte) (s u : State), bypassSeq k bseq.toNat back.toNat s = (u, true) →
      flags.getLsbD 1 = false → bitsOf (leAt (sliceBytes data 0 20) 0 4) 26 24 ≠ u.me → u.route (bitsOf (leAt (sliceBytes data 0 20) 0 4) 26 24) = none →
      exec (.bypassPeerMbx k bseq back txn 0 flags data) s = .next u) ∧
  (∀ (k : Fin 4) (bseq back : BitVec 8) (txn : BitVec 16) (idx flags : BitVec 8) (data : List Byte) (s u : State), bypassSeq k bseq.toNat back.toNat s = (u, true) →
      flags.getLsbD 1 = false → bitsOf (leAt (sliceBytes data 0 20) 0 4) 26 24 = u.me → (u.mbx.relay.any fun r => r.1 == k.val && r.2.1 == txn.toNat) = false →
      exec (.bypassPeerMbx k bseq back txn idx flags data) s = .next (requestPart k txn.toNat idx.toNat (flags.getLsbD 2) (flags.getLsbD 0) (sliceBytes data 0 20) u))

/-- On an ACTIVE link in sync the expected cell without reserved bits and within credits acknowledges, adds credits and joins its VC's
stream; a cell with reserved bits is a protocol error (4), one ahead (1) unless an error is outstanding; one seen before is acknowledged
again. ACK and CREDIT go only with something to report. A CRC error counts, loses sync and asks for a NAK; before the link is ACTIVE it
counts and loses sync, and no NAK goes (the model's reading, log 227); the NAK repeats after 1 us; the oldest held cell is replayed after
2 us; a fault of an active lane shifts to the spare, or without one takes the link down; in the INIT exchange it is retired. Coast is
asked for after COAST_IDLE; Coast and Park are left to Run. (R310, R324, R328, R329, R330, R332, R333, R335, R336; derived) -/
def Obligations.CellsErrorsAndLaneFaults : Prop :=
  (∀ (k vc : Fin 4) (seq : BitVec 12) (ack : Option (BitVec 12)) (cv : Fin 4) (cc : BitVec 8) (off : Fin 257) (data : List Byte) (s : State), ulHears s k = true → seq.toNat = s.get (Fld.UL_SEQ_RX_EXP k) → crUsed (s.link k) vc < ulAdvertised.getD vc 0 → s.get (Fld.UL_STATUS_LPM k) = 0 → (s.link k).unacked < 15 →
      exec (.ulCellReceive k vc seq ack cv cc off false data) s = .next ((match ack with | some a => ackCover k a.toNat s | none => s)
        |> ulCredit k cv cc.toNat |> ulAccept k vc off seq.toNat (sliceBytes data 0 256))) ∧
  (∀ (k vc : Fin 4) (seq : BitVec 12) (ack : Option (BitVec 12)) (cv : Fin 4) (cc : BitVec 8) (off : Fin 257) (data : List Byte) (s : State), ulHears s k = true → seq.toNat ≠ s.get (Fld.UL_SEQ_RX_EXP k) → beforeExp (s.get (Fld.UL_SEQ_RX_EXP k)) seq.toNat = false → (s.link k).errOut = false →
      exec (.ulCellReceive k vc seq ack cv cc off false data) s = .next (ulProto k 1 seq.toNat s)) ∧
  (∀ (k vc : Fin 4) (seq : BitVec 12) (ack : Option (BitVec 12)) (cv : Fin 4) (cc : BitVec 8) (off : Fin 257) (data : List Byte) (s : State), ulHears s k = true →
      exec (.ulCellReceive k vc seq ack cv cc off true data) s = .next (ulProto k 4 seq.toNat s)) ∧
  (∀ (k vc : Fin 4) (seq : BitVec 12) (ack : Option (BitVec 12)) (cv : Fin 4) (cc : BitVec 8) (off : Fin 257) (data : List Byte) (s : State), ulHears s k = true → beforeExp (s.get (Fld.UL_SEQ_RX_EXP k)) seq.toNat = true →
      exec (.ulCellReceive k vc seq ack cv cc off false data) s = .next (sendAck k s)) ∧
  (∀ (k vc : Fin 4) (seq : BitVec 12) (ack : Option (BitVec 12)) (cv : Fin 4) (cc : BitVec 8) (off : Fin 257) (r : Bool) (data : List Byte) (s : State),
      ulHears s k = false → exec (.ulCellReceive k vc seq ack cv cc off r data) s = .next s) ∧
  (∀ (k : Fin 4) (s : State), ulActive s k = true → s.get (Fld.UL_STATUS_LPM k) ≠ 2 → (s.link k).unacked ≠ 0 → exec (.ulAckSend k) s =
      .next (sendBypass k 3 (leBytes 2 (s.get (Fld.UL_SEQ_RX_EXP k))) (s.linkUpd k fun l => { l with unacked := 0 }))) ∧
  (∀ (k : Fin 4) (s : State), ulActive (ulFree k s) k = true → (ulFree k s).get (Fld.UL_STATUS_LPM k) ≠ 2 → ((ulFree k s).link k).crFreed ≠ ((ulFree k s).link k).crTold → Runs (.ulCreditReport k) s fun t =>
      (t.link k).crTold = ((ulFree k s).link k).crFreed) ∧
  (∀ (k : Fin 4) (s : State), ulActive s k = true → Runs (.ulLinkError k .crc) s fun t => (t.link k).lostSync = true ∧ (t.link k).errOut = true ∧
      t.get (Fld.UL_ERR_CNT_CRC k) = min (Fld.UL_ERR_CNT_CRC k).max (s.get (Fld.UL_ERR_CNT_CRC k) + 1)) ∧
  (∀ (k : Fin 4) (s : State), inParam s k = true → ulActive s k = false → Runs (.ulLinkError k .bypassCrc) s fun t => (t.link k).lostSync = true ∧
      (t.link k).errOut = (s.link k).errOut ∧ t.get (Fld.UL_BYP_CRC k) = min (Fld.UL_BYP_CRC k).max (s.get (Fld.UL_BYP_CRC k) + 1)) ∧
  (∀ (k : Fin 4) (s : State), ulActive s k = true → (s.link k).errOut = true → s.get (Fld.UL_STATUS_LPM k) ≠ 2 → 2 ≤ s.since (s.link k).nakAt → Runs (.ulNakRepeat k) s fun t =>
      (t.link k).nakNo = (s.link k).nakNo + 1 ∧ (t.link k).nakAt = s.now) ∧
  (∀ (k : Fin 4) (c : UCell) (cs : List UCell) (s : State), (s.link k).held = c :: cs → ulActive s k = true → (s.link k).replay = [] → 4 ≤ s.since (s.link k).heldAt →
      exec (.ulReplayTimeout k) s = .next (ulReplay k c.seq s)) ∧
  (∀ (k : Fin 4) (s : State), (s.link k).held = [] → exec (.ulReplayTimeout k) s = .next s) ∧
  (∀ (k : Fin 4) (lane : Fin 9) (s : State), ulActive s k = true → laneUsed s k lane = true → bitOf (s.get (Fld.UL_LANES_RETIRED k)) lane = false →
      spareLane s k = none → Runs (.ulLaneFault k lane) s fun t => (t.link k).downDue = true ∧ bitOf (t.get (Fld.UL_LANES_RETIRED k)) lane = true ∧
        (t.link k).lostSync = true ∧ t.get (Fld.UL_LANE_RX_LOCKED k lane) = 0) ∧
  (∀ (k : Fin 4) (lane : Fin 9) (p : Nat) (s : State), ulActive s k = true → laneUsed s k lane = true → bitOf (s.get (Fld.UL_LANES_RETIRED k)) lane = false →
      spareLane s k = some p → (s.link k).newMap = none → Runs (.ulLaneFault k lane) s fun t => bitOf (t.get (Fld.UL_LANES_RETIRED k)) lane = true ∧
        (t.link k).newMap = some ((s.get (Fld.UL_LANES_EPOCH k) + 1) % 256, swapLane (s.word (Adr.UL_MAP k)).toNat lane p) ∧ (t.link k).lostSync = true) ∧
  (∀ (k : Fin 4) (lane : Fin 9) (s : State), ulActive s k = false → inParam s k = false → exec (.ulLaneFault k lane) s = .next s) ∧
  (∀ (k : Fin 4) (s : State), s.isSet (Fld.UL_LPM_COAST_EN k) = true → ulActive s k = true → s.get (Fld.UL_STATUS_LPM k) = 0 → (s.link k).lpmAsk = none → (s.link k).lpmGo = none →
      ulBusy s k = false → s.get (Fld.UL_LPM_COAST_IDLE k) ≤ s.since (s.link k).busyAt → exec (.ulCoastIdle k) s = .next (lpmRequest k 1 s)) ∧
  (∀ (k : Fin 4) (s : State), s.get (Fld.UL_STATUS_LPM k) = 1 → Runs (.ulCoastExit k) s fun t => t.get (Fld.UL_STATUS_LPM k) = 0 ∧ (t.link k).busyAt = s.now) ∧
  (∀ (k : Fin 4) (s : State), s.get (Fld.UL_STATUS_LPM k) = 2 → Runs (.ulParkExit k) s fun t => t.get (Fld.UL_STATUS_LPM k) = 0 ∧ (t.link k).busyAt = s.now) ∧
  (∀ (k : Fin 4) (lane : Fin 9) (s : State), ulActive s k = false → inParam s k = true → bitOf (s.get (Fld.UL_LANES_RETIRED k)) lane = false →
      Runs (.ulLaneFault k lane) s fun t => bitOf (t.get (Fld.UL_LANES_RETIRED k)) lane = true ∧ t.get (Fld.UL_LANE_RX_LOCKED k lane) = 0)

/-- Each row takes its message off the link's receive list and frees the credits afterwards. A WRITE, READ or ATOMIC goes on as its check
at acceptance ended: to a window's port or the aperture (an ATOMIC on the aperture answers TARGET_ERR), or refused with its cause, or
answered NO_TARGET; a RESP of an unknown TAG is a protocol error (6), one that answers ends its request; a routed item goes to its port; a
MIRROR_WRITE inside the standby aperture takes slots toward the store; a message for another member takes slots toward its route, a
request without one is answered NO_TARGET. With no such message nothing happens. The mark of a SEND, and what a response of an unknown TAG
is, are the model's choices (logs 4, 40, 127). (R217, R242, R260, R323, R348, R349; derived) -/
def Obligations.PeerRequestsAndRoutedMessages : Prop :=
  (∀ (k : Fin 4) (e : Nat × UMsg) (a : Option Nat) (w : WinMap) (s : State), rxHead s k (forMe s 1) = some e → e.2.seen = some (.pass a w.port w.laddr w.tmo w.acked) → e.2.win = 255 →
      exec (.ulWriteReceive k) s = .next (ulFree k (peerToStore e.2 e.2.data.length a (tookMsg k e s)))) ∧
  (∀ (k : Fin 4) (e : Nat × UMsg) (a : Option Nat) (w : WinMap) (s : State), rxHead s k (forMe s 1) = some e → e.2.seen = some (.pass a w.port w.laddr w.tmo w.acked) → e.2.win ≠ 255 →
      exec (.ulWriteReceive k) s = .next (ulFree k (peerToPort e.2 { op := if w.acked then 2 else 1, len := e.2.data.length, data := e.2.data } e.2.data.length w (tookMsg k e s)))) ∧
  (∀ (k : Fin 4) (e : Nat × UMsg) (cause guard : Nat) (s : State), rxHead s k (forMe s 1) = some e → e.2.seen = some (.denied cause guard) →
      exec (.ulWriteReceive k) s = .next (ulFree k (peerRefused e.2 cause guard (tookMsg k e s)))) ∧
  (∀ (k : Fin 4) (e : Nat × UMsg) (s : State), rxHead s k (forMe s 1) = some e → e.2.seen = some .gone →
      exec (.ulWriteReceive k) s = .next (ulFree k (peerAns e.2 .notIssued (tookMsg k e s)))) ∧
  (∀ (k : Fin 4) (s : State), rxHead s k (forMe s 1) = none → exec (.ulWriteReceive k) s = .next s) ∧
  (∀ (k : Fin 4) (e : Nat × UMsg) (a : Option Nat) (w : WinMap) (s : State), rxHead s k (forMe s 2) = some e → e.2.seen = some (.pass a w.port w.laddr w.tmo w.acked) → e.2.win ≠ 255 →
      exec (.ulReadReceive k) s = .next (ulFree k (peerToPort e.2 { op := 0, len := readLen e.2 } 0 w (tookMsg k e s)))) ∧
  (∀ (k : Fin 4) (e : Nat × UMsg) (a : Option Nat) (w : WinMap) (s : State), rxHead s k (forMe s 2) = some e → e.2.seen = some (.pass a w.port w.laddr w.tmo w.acked) → e.2.win = 255 →
      exec (.ulReadReceive k) s = .next (ulFree k (peerToStore e.2 0 a (tookMsg k e s)))) ∧
  (∀ (k : Fin 4) (e : Nat × UMsg) (cause guard : Nat) (s : State), rxHead s k (forMe s 2) = some e → e.2.seen = some (.denied cause guard) →
      exec (.ulReadReceive k) s = .next (ulFree k (peerRefused e.2 cause guard (tookMsg k e s)))) ∧
  (∀ (k : Fin 4) (e : Nat × UMsg) (a : Option Nat) (w : WinMap) (s : State), rxHead s k (forMe s 3) = some e → e.2.seen = some (.pass a w.port w.laddr w.tmo w.acked) → e.2.win = 255 →
      exec (.ulAtomicReceive k) s = .next (ulFree k (peerAns e.2 (.code 1) (tookMsg k e s)))) ∧
  (∀ (k : Fin 4) (e : Nat × UMsg) (a : Option Nat) (w : WinMap) (s : State), rxHead s k (forMe s 3) = some e → e.2.seen = some (.pass a w.port w.laddr w.tmo w.acked) → e.2.win ≠ 255 →
      exec (.ulAtomicReceive k) s = .next (ulFree k (peerToPort e.2 { op := 3, sub := e.2.stat, len := atomicSize e.2, data := e.2.data } e.2.data.length w (tookMsg k e s)))) ∧
  (∀ (k : Fin 4) (e : Nat × UMsg) (cause guard : Nat) (s : State), rxHead s k (forMe s 3) = some e → e.2.seen = some (.denied cause guard) →
      exec (.ulAtomicReceive k) s = .next (ulFree k (peerRefused e.2 cause guard (tookMsg k e s)))) ∧
  (∀ (k : Fin 4) (e : Nat × UMsg) (s : State), rxHead s k (fun m => forMe s 4 m && !acksMirror s k m) = some e → respOf (tookMsg k e s) k e.2 = none →
      exec (.ulRespReceive k) s = .next (ulFree k (ulProto k 6 (((tookMsg k e s).get (Fld.UL_SEQ_RX_EXP k) + 4095) % 4096) (tookMsg k e s)))) ∧
  (∀ (k : Fin 4) (e : Nat × UMsg) (j v : Nat) (src : ReqSrc) (x : UMsg) (s : State), rxHead s k (fun m => forMe s 4 m && !acksMirror s k m) = some e →
      respOf (tookMsg k e s) k e.2 = some (j, v, src, x) → (match src with | .state _ _ => true | _ => false) = false → e.2.stat ≠ 6 → exec (.ulRespReceive k) s =
      .next (ulFree k (answer src (if x.mtype = 2 then 0 else if x.mtype = 3 then 3 else 2) (ansOf (tookMsg k e s) e.2) (reqEnds j v (tookMsg k e s))))) ∧
  (∀ (k : Fin 4) (e : Nat × UMsg) (s : State), rxHead s k (forMe s 5) = some e → e.2.send = false → exec (.ulRoutedReceive k) s = .next (ulFree k (routedHere e.2 (tookMsg k e s)))) ∧
  (∀ (k : Fin 4) (e : Nat × UMsg) (s : State), rxHead s k (forMe s 5) = some e → e.2.send = true → exec (.ulRoutedReceive k) s = .next (ulFree k (sendHere e.2 (tookMsg k e s)))) ∧
  (∀ (k : Fin 4) (e : Nat × UMsg) (a : Nat) (s : State), rxHead s k (forMe s 6) = some e → tabGet (fun _ => none) (tookMsg k e s).ds.standby e.2.ctx = some a →
      e.2.off + e.2.data.length ≤ (tookMsg k e s).aptSize a →
      exec (.mirrorWriteReceive k) s = .next (ulFree k (mirrorIn e.2 a (tookMsg k e s)))) ∧
  (∀ (k : Fin 4) (e : Nat × UMsg) (s : State), rxHead s k (forMe s 6) = some e → tabGet (fun _ => none) (tookMsg k e s).ds.standby e.2.ctx = none → (tookMsg k e s).ds.backFor = [] →
      exec (.mirrorWriteReceive k) s = .next (ulFree k (peerAns e.2 .notIssued (tookMsg k e s)))) ∧
  (∀ (k : Fin 4) (e : Nat × UMsg) (j : Nat) (s : State), rxHead s k (fun m => m.dst != s.me) = some e → (tookMsg k e s).routeFor e.2.dst e.2.ctx = some j →
      exec (.messageForward k) s = .next (ulFree k (addItem false 0 e.2.cls (4 + j) e.2.data.length false (.message e.2) (tookMsg k e s)))) ∧
  (∀ (k : Fin 4) (e : Nat × UMsg) (s : State), rxHead s k (fun m => m.dst != s.me) = some e → (tookMsg k e s).routeFor e.2.dst e.2.ctx = none → e.2.mtype = 1 →
      exec (.messageForward k) s = .next (ulFree k (peerAns e.2 .notIssued (tookMsg k e s))))

/-- A VIEW of a member that does not lead is recorded and answered OK. A JOIN reaches the leader, which raises the epoch, adds the member,
answers and tells every member; any other member answers TARGET_ERR. A LEAVE is recorded with its bitmap. TANDEM op 0 makes this member
the partner or is refused. A HANDOVER for no standby context of its sender is refused; one that may be served is answered OK and makes the
context live at the next boundary, under the generation it carries. A RELOCATE changes the entry of the context it names. A reserved STYPE
is answered TARGET_ERR. What a JOIN finds at a member that does not lead, the generation and the record of a pairing, and the reset of a
standby context are the model's choices (logs 4, 86, 88, 129, 189, 230). (R346, R347, R351, R352, R353, R356, R360; derived) -/
def Obligations.StateMessages : Prop :=
  (∀ (k : Fin 4) (e : Nat × UMsg) (s : State), rxHead s k (stype s 1) = some e → bitOf (leAt e.2.data 6 1) 0 = false → exec (.stateView k) s = .next (ulFree k (stateAns e.2 true (updRoutes
      ((tookMsg k e s).pelUpd fun p => { p with views := tabSet (fun _ => none) p.views (leAt e.2.data 1 1 % 8) (some ⟨leAt e.2.data 2 2, leAt e.2.data 4 1, leAt e.2.data 5 1⟩) }))))) ∧
  (∀ (k : Fin 4) (e : Nat × UMsg) (s : State), rxHead s k (stype s 2) = some e → (tookMsg k e s).leads = false → exec (.stateJoin k) s = .next (ulFree k (stateAns e.2 false (tookMsg k e s)))) ∧
  (∀ (k : Fin 4) (e : Nat × UMsg) (s : State), rxHead s k (stype s 2) = some e → (tookMsg k e s).leads = true → exec (.stateJoin k) s = .next (ulFree k (sendViews true (stateAns e.2 true (updRoutes
      (setView (((tookMsg k e s).get Fld.PEL_VIEW_EPOCH + 1) % 65536) (orBit ((tookMsg k e s).get Fld.PEL_VIEW_JOINED) (leAt e.2.data 1 1 % 8)) (tookMsg k e s))))))) ∧
  (∀ (epoch joined m : Nat) (x : Loss) (s : State), epoch ≠ s.get Fld.PEL_VIEW_EPOCH → bitOf joined m = true → bitOf (s.get Fld.PEL_VIEW_JOINED) m = false →
      x ∈ (setView epoch joined s).pel.losses → x.member ≠ m) ∧
  (∀ (k : Fin 4) (e : Nat × UMsg) (s : State), rxHead s k (stype s 3) = some e → exec (.stateLeave k) s = .next (ulFree k (stateAns e.2 true
      ((tookMsg k e s).pelUpd fun p => { p with leaves := p.leaves ++ [(leAt e.2.data 1 1 % 8, sliceBytes e.2.data 4 128)] })))) ∧
  (∀ (k : Fin 4) (e : Nat × UMsg) (gen : Word) (units : Fin 257) (s : State), rxHead s k (stype s 4) = some e → leAt e.2.data 5 1 = 0 →
      exec (.stateTandem k gen units) s = .next (ulFree k (tandemPaired e.2 gen.toNat units (tookMsg k e s)))) ∧
  (∀ (k : Fin 4) (e : Nat × UMsg) (gen : Word) (units : Fin 257) (s : State), rxHead s k (stype s 4) = some e → leAt e.2.data 5 1 ≠ 0 →
      exec (.stateTandem k gen units) s = .next (ulFree k (tandemChanged e.2 (leAt e.2.data 5 1) gen.toNat units (tookMsg k e s)))) ∧
  (∀ (k : Fin 4) (e : Nat × UMsg) (c : Nat) (s : State), rxHead s k (stype s 5) = some e → standbyOf (tookMsg k e s) (e.2.src / 1024) (leAt e.2.data 1 2) = some c →
      (mayServe (tookMsg k e s) = false ∨ (tookMsg k e s).cst c ≠ 6) → exec (.stateHandover k) s = .next (ulFree k (stateAns e.2 false (tookMsg k e s)))) ∧
  (∀ (k : Fin 4) (e : Nat × UMsg) (c : Nat) (s : State), rxHead s k (stype s 5) = some e → standbyOf (tookMsg k e s) (e.2.src / 1024) (leAt e.2.data 1 2) = some c →
      mayServe (tookMsg k e s) = true → (tookMsg k e s).cst c = 6 → exec (.stateHandover k) s = .next (ulFree k (stateAns e.2 true
        ((tookMsg k e s).ctxUpd c (fun x => { x with homeSeq := leAt e.2.data 8 8 }) |>.set Fld.PEL_LOSS_LOG_VALID 1 |>.set Fld.PEL_LOSS_LOG_MEMBER (e.2.src / 1024)
          |>.set Fld.PEL_LOSS_LOG_HOW 2 |>.set Fld.PEL_LOSS_LOG_LIVE 0 |>.set Fld.PEL_LOSS_TS_STROKE_LO (tookMsg k e s).nowLo
          |> fun t => { t with deferred := t.deferred ++ [.ctxLive c (leAt e.2.data 4 4)] })))) ∧
  (∀ (k : Fin 4) (e : Nat × UMsg) (s : State), rxHead s k (stype s 6) = some e → exec (.stateRelocate k) s = .next (ulFree k (stateAns e.2 true
      (((tookMsg k e s).set (Fld.PEL_LOC_MOVED (leAt e.2.data 1 2 % 8192)) (decide (leAt e.2.data 3 1 % 8 ≠ leAt e.2.data 1 2 % 8192 / 1024)).toNat
        |>.set (Fld.PEL_LOC_MEMBER (leAt e.2.data 1 2 % 8192)) (leAt e.2.data 3 1)).set (Fld.PEL_LOC_CTX (leAt e.2.data 1 2 % 8192)) (leAt e.2.data 4 2))))) ∧
  (∀ (k : Fin 4) (e : Nat × UMsg) (s : State), rxHead s k (fun m => forMe s 7 m && !s.restarting && (leAt m.data 0 1 == 0 || decide (7 ≤ leAt m.data 0 1))) = some e →
      exec (.stateReservedStype k) s = .next (ulFree k (stateAns e.2 false (tookMsg k e s))))

/-- A JOINING member that has not sent JOIN sends it once, outside a restart, on its first ACTIVE link, for the lowest leader heard. The join wait, expired with nobody heard of,
forms a peloton of the lowest member. A joined member sends VIEW every 2,000 strokes, or sooner when its links or the epoch changed. A member due to
be lost, one that lost quorum and a standby context due for failover are noted, and the boundary looks again: the loss is logged and counted, the member fences itself
(state 3, source 10), the context goes live under the next generation, at most 32 in a stroke. A home context ready in DRAINING is handed over. Two groups that meet: the
one with the higher leader reads SPLIT (5). A lower generation of a detached aperture of a recorded pairing is
superseded; of an equal one the home side asks the partner, once. Which link and leader a JOIN takes, how the meeting of two groups is heard, what a rejoin asks and
the order of failovers are the model's choices (logs 183, 186, 187, 214, 231). (R346, R352,
R353, R354, R358, R360, R362; derived) -/
def Obligations.JoiningViewsLossesAndFences : Prop :=
  (∀ (k : Fin 4) (dst : Fin 8) (s : State), s.pelState = 1 → s.restarting = false → joinLink s = some k.val → joinTarget s = some dst.val → s.pel.joinSent = false → dst.val ≠ s.me → Runs (.joinSend k dst) s fun t =>
      t.pel.joinSent = true ∧ (t.link k).tx.length = (s.link k).tx.length + 1 ∧ (t.link k).reqs.length = (s.link k).reqs.length + 1) ∧
  (∀ (k : Fin 4) (dst : Fin 8) (s : State), s.pel.joinSent = true ∨ s.restarting = true ∨ joinLink s ≠ some k.val ∨ joinTarget s ≠ some dst.val → exec (.joinSend k dst) s = .next s) ∧
  (∀ (s : State), s.pelState = 1 → s.pel.joinSent = false → s.pel.views = [] → joinTarget s = none → 2000 * s.get Fld.PEL_CTL_JOIN_WAIT ≤ s.since s.pel.since →
      (((List.range 8).filter fun m => m = s.me || (s.hop m).isSome).all fun m => decide (s.me ≤ m)) = true → Runs .joinWaitExpiry s fun t =>
      t.pelState = 2 ∧ t.get Fld.PEL_VIEW_EPOCH = 1 ∧ t.get Fld.PEL_VIEW_JOINED = 2 ^ s.me) ∧
  (∀ (s : State), s.isMember = false → exec .viewSend s = .next s) ∧
  (∀ (s : State), s.isMember = true → s.restarting = false →
      (2000 ≤ s.since s.pel.viewAt ∨ directMap s ≠ s.pel.saidLinks ∨ s.get Fld.PEL_VIEW_EPOCH ≠ s.pel.saidEpoch) → exec .viewSend s = .next (sendViews s.leads s)) ∧
  (∀ (m : Fin 8) (s : State), lossDue s m = true → exec (.memberLoss m) s = .next { s with deferred := s.deferred ++ [.lost m.val] }) ∧
  (∀ (m : Nat) (s : State), let t := lose m s.now s
      t.get Fld.PEL_LOSS_LOG_VALID = 1 ∧ t.get Fld.PEL_LOSS_LOG_MEMBER = m % 8 ∧ t.get Fld.PEL_LOSS_LOG_HOW = (leaveOf s m).isSome.toNat ∧
        t.get Fld.PEL_LOSS_TS_STROKE_LO = s.now.toNat % 2 ^ 32 ∧ t.get Fld.PEL_CNT_LOSSES = min Fld.PEL_CNT_LOSSES.max (s.get Fld.PEL_CNT_LOSSES + 1) ∧
        t.pel.losses = s.pel.losses ++ [⟨m, s.now, leaveOf s m⟩] ∧ (∀ x ∈ t.pel.leaves, x.1 ≠ m)) ∧
  (∀ (m : Fin 8) (s : State), m.val = s.me → exec (.memberLoss m) s = .next s) ∧
  (∀ (s : State), fenceDue s = true → exec .memberFence s = .next { s with deferred := s.deferred ++ [.fence] }) ∧
  (∀ (s : State), fenceDue s = false → exec .memberFence s = .next s) ∧
  (∀ (s : State), (fence s).pelState = 3 ∧ (fence s).get Fld.PEL_CNT_FENCES = min Fld.PEL_CNT_FENCES.max (s.get Fld.PEL_CNT_FENCES + 1) ∧
      (s.inRest = false → isPending (fence s) 10 = true)) ∧
  (∀ (c : Fin 1024) (s : State), (failoverDue s (s.now + 1) c).isSome = true → mayServe s = true →
      exec (.failover c) s = .next { s with deferred := s.deferred ++ [.failover c.val] }) ∧
  (∀ (c : Fin 1024) (s : State), (failoverDue s (s.now + 1) c = none ∨ mayServe s = false) → exec (.failover c) s = .next s) ∧
  (∀ (c : Fin 1024) (x : Loss) (s : State), failoverDue s s.now c = some x → mayServe s = true → s.pel.liveNow < 32 →
      let t := failover c s
      t = goLive c (s.get (Fld.PEL_GEN_GENERATION c) + 1) (lossUnclean s c x) s ∧ t.pel.liveNow = s.pel.liveNow + 1 ∧ t.word (Adr.PEL_TANDEM c) = 0 ∧
        t.get Fld.PEL_CNT_FAILOVERS = min Fld.PEL_CNT_FAILOVERS.max (s.get Fld.PEL_CNT_FAILOVERS + 1)) ∧
  (∀ (c : Nat) (s : State), 32 ≤ s.pel.liveNow → failover c s = s) ∧
  (∀ (c : Fin 1024) (m sc : Nat) (s : State), s.partner c = some (m, sc) → s.mode = .draining → s.restarting = false → (s.ctx c).handover = 0 → s.cst c ≠ 7 → handoverReady s c = true →
      Runs (.handoverSend c) s fun t => (t.ctx c).handover ≠ 0 ∧ t.cst c = s.cst c) ∧
  (∀ (k : Fin 4) (leader : Fin 8) (s : State), s.isMember = true → ulActive s k = true → s.joined leader = false → s.pel.split.contains k.val = false →
      s.pelState ≠ 5 → leader.val < s.get Fld.PEL_STATUS_LEADER → Runs (.pelotonSplit k leader) s fun t => t.pelState = 5 ∧
        (s.joined (s.get (Fld.UL_PEER_MEMBER k)) = false → k.val ∈ t.pel.split) ∧ (s.joined (s.get (Fld.UL_PEER_MEMBER k)) = true → t.pel.split = s.pel.split)) ∧
  (∀ (a : Fin 2048) (other : Word) (r : PairRec) (s : State), (s.ds.pairs.find? fun r => r.apt == a.val) = some r → s.isMember = true → s.aptValid a = true → s.aptCtx a = none →
      s.hop (bitsOf r.word.toNat 28 26) ≠ none → (s.ctx r.ctx).rejoin = false → tabGet (fun _ => 0) s.ds.gens a < other.toNat →
      exec (.rejoinCompare a other) s = .next (supersede a (if bitsOf r.word.toNat 31 30 = 1 then rejoinAsk r false s else s)) ∧
      Runs (.rejoinCompare a other) s fun t => a.val ∈ t.ds.superseded ∧ (∀ x ∈ t.ds.pairs, x.apt ≠ a.val)) ∧
  (∀ (a : Fin 2048) (other : Word) (r : PairRec) (s : State), (s.ds.pairs.find? fun r => r.apt == a.val) = some r → s.isMember = true → s.aptValid a = true → s.aptCtx a = none →
      s.hop (bitsOf r.word.toNat 28 26) ≠ none → (s.ctx r.ctx).rejoin = false → tabGet (fun _ => 0) s.ds.gens a = other.toNat → s.get (Fld.PEL_TANDEM_ROLE r.ctx) = 0 →
      bitsOf r.word.toNat 31 30 = 1 → s.live r.ctx = true → exec (.rejoinCompare a other) s = .next (rejoinAsk r true s)) ∧
  (∀ (a : Fin 2048) (other : Word) (r : PairRec) (s : State), (s.ds.pairs.find? fun r => r.apt == a.val) = some r → (s.ctx r.ctx).rejoin = true → exec (.rejoinCompare a other) s = .next s) ∧
  (∀ (a : Fin 2048) (other : Word) (s : State), (s.ds.pairs.find? fun r => r.apt == a.val) = none → exec (.rejoinCompare a other) s = .next s)

/-- When a core takes it: PEL_QUERY answers the five PEL registers; PEL_LEAVE orders the drain; TANDEM_PAIR of an absent context ends with
code 3; TANDEM_UNPAIR of an unpaired context ends OK, of a home one tells the partner, ends the pairing and ends OK; TANDEM_QUERY answers
the pairing, the generation and the aperture's status word. The codes of TANDEM_PAIR and the messages of a pairing are the model's choices
(logs 4, 41, 87, 132, 188). (R356, R357, R405; derived) -/
def Obligations.PelotonCommands : Prop :=
  (∀ (mb : Fin 1032) (core : Fin 4) (x : Cmd) (s : State), mayTake s mb core 0x0401 = some x → exec (.pelQuery mb core) s =
      .next (cmdDone x.id 0 ([Adr.PEL_STATUS, Adr.PEL_VIEW, Adr.PEL_ROUTE, Adr.PEL_CTL, Adr.PEL_CNT].flatMap (wordBytes (takeCmd x core s))) (takeCmd x core s))) ∧
  (∀ (mb : Fin 1032) (core : Fin 4) (x : Cmd) (s : State), mayTake s mb core 0x0402 = some x → exec (.pelLeave mb core) s = .next (addCause .pelLeave (takeCmd x core s))) ∧
  (∀ (mb : Fin 1032) (core : Fin 4) (gen : Word) (x : Cmd) (s : State), mayTake s mb core 0x0403 = some x → (takeCmd x core s).cst (leAt x.args 0 2) = 0 →
      exec (.tandemPair mb core gen) s = .next (cmdDone x.id 3 [] (takeCmd x core s))) ∧
  (∀ (mb : Fin 1032) (core : Fin 4) (gen : Word) (x : Cmd) (s : State), mayTake s mb core 0x0403 = some x → (takeCmd x core s).cst (leAt x.args 0 2) = 4 →
      exec (.tandemPair mb core gen) s = .next (cmdDone x.id 1 [] (takeCmd x core s))) ∧
  (∀ (mb : Fin 1032) (core : Fin 4) (gen : Word) (x : Cmd) (s u v : State), mayTake s mb core 0x0403 = some x → u = takeCmd x core s → u.live (leAt x.args 0 2) = true →
      u.get (Fld.PEL_TANDEM_ROLE (leAt x.args 0 2)) = 0 → (u.ctx (leAt x.args 0 2)).pairing = none → (u.ctx (leAt x.args 0 2)).rejoin = false → (u.ctx (leAt x.args 0 2)).op = none → leAt x.args 2 1 ≠ u.me →
      bitOf (directMap u) (leAt x.args 2 1) = true →
      sendState (leAt x.args 2 1) 4 (leAt x.args 0 2) (tandemData u (leAt x.args 0 2) (leAt x.args 4 2) 0 (shareWords u (leAt x.args 0 2))) u = (v, true) →
      exec (.tandemPair mb core gen) s = .next (v.ctxUpd (leAt x.args 0 2) fun y =>
        { y with pairing := some { op := 0, member := leAt x.args 2 1, sctx := leAt x.args 4 2, cmd := x.id, gen := gen.toNat } })) ∧
  (∀ (mb : Fin 1032) (core : Fin 4) (x : Cmd) (s u : State), mayTake s mb core 0x0404 = some x → u = takeCmd x core s → u.cst (leAt x.args 0 2) ≠ 0 →
      (u.ctx (leAt x.args 0 2)).pairing = none → u.get (Fld.PEL_TANDEM_ROLE (leAt x.args 0 2)) = 1 →
      exec (.tandemUnpair mb core) s = .next (cmdDone x.id 0 [] (unpairHome (leAt x.args 0 2) (tandemTell (leAt x.args 0 2) 3 u)))) ∧
  (∀ (mb : Fin 1032) (core : Fin 4) (x : Cmd) (s u : State), mayTake s mb core 0x0404 = some x → u = takeCmd x core s → u.cst (leAt x.args 0 2) ≠ 0 →
      (u.ctx (leAt x.args 0 2)).pairing = none → u.get (Fld.PEL_TANDEM_ROLE (leAt x.args 0 2)) ≠ 1 → exec (.tandemUnpair mb core) s = .next (cmdDone x.id 0 [] u)) ∧
  (∀ (mb : Fin 1032) (core : Fin 4) (x : Cmd) (s u : State), mayTake s mb core 0x0405 = some x → u = takeCmd x core s → u.cst (leAt x.args 0 2) ≠ 0 →
      (u.ctx (leAt x.args 0 2)).apt = none → exec (.tandemQuery mb core) s = .next (cmdDone x.id 0 (leBytes 4 (tandemWord u (leAt x.args 0 2)) ++
        wordBytes u (Adr.PEL_GEN (leAt x.args 0 2)) ++ [0, 0, 0, 0]) u))

/-- Outside Rest the edge of a source sets its pending bit; of one that is not wake-capable, in Rest, nothing is latched; 164 to 166 name
no source. Writes of IC_PEND_SET, IC_PEND_CLR, IC_EN_SET and IC_EN_CLR by a control core that the map admits set or clear the bits, an
edge or another master's set in the same cycle wins over a clear of pending, another's clear over a set of enables; by the board
controller or the debug port they change nothing, or are refused by the map and logged. Outside Rest a claim by a core with no candidate
answers 0x1FF; one with a candidate pushes it on the core's stack and answers its number with VALID. EOI of the top pops it, of another
source is a fault, logged. A hold-off that has run out ends; writing 0 ends it at once. (R366, R369, R370, R374, R376, R377; derived) -/
def Obligations.SourcesAndPendingBits : Prop :=
  (∀ (n : Fin 288) (s : State), s.inRest = false → sourceReserved n = false → Runs (.sourceEdge n) s fun t => isPending t n = true) ∧
  (∀ (n : Fin 288) (s : State), n.val = 164 ∨ n.val = 165 ∨ n.val = 166 → exec (.sourceEdge n) s = .next s) ∧
  (∀ (n : Fin 288) (s : State), s.inRest = true → wakeIndex n = none → Runs (.sourceEdge n) s fun t => isPending t n = isPending s n ∧
      t.word Adr.KS_WAKE_LATCH_LO = s.word Adr.KS_WAKE_LATCH_LO ∧ t.word Adr.KS_WAKE_LATCH_HI = s.word Adr.KS_WAKE_LATCH_HI) ∧
  (∀ (c : Fin 4) (w : Fin 9) (bits : Word) (s : State), mapCause s (.core c) (0x700040 + 4 * w.val) true = none → blockGated s (blockOf (0x700040 + 4 * w.val)) = false →
      exec (.icPendSet (.core c) w bits) s = .next (s.setWord (Adr.IC_PEND w) (s.word (Adr.IC_PEND w) ||| bits))) ∧
  (∀ (c : Fin 4) (w : Fin 9) (bits edges sets : Word) (s : State), mapCause s (.core c) (0x700080 + 4 * w.val) true = none → blockGated s (blockOf (0x700080 + 4 * w.val)) = false →
      Runs (.icPendClr (.core c) w bits edges sets) s fun t =>
      t.word (Adr.IC_PEND w) = (((s.word (Adr.IC_PEND w) &&& ~~~bits) ||| edges) ||| sets)) ∧
  (∀ (c : Fin 4) (w : Fin 9) (bits clears : Word) (s : State), mapCause s (.core c) (0x700100 + 4 * w.val) true = none → blockGated s (blockOf (0x700100 + 4 * w.val)) = false →
      exec (.icEnSet (.core c) w bits clears) s = .next (s.setWord (Adr.IC_EN w) ((s.word (Adr.IC_EN w) ||| bits) &&& ~~~clears))) ∧
  (∀ (c : Fin 4) (w : Fin 9) (bits : Word) (s : State), mapCause s (.core c) (0x700140 + 4 * w.val) true = none → blockGated s (blockOf (0x700140 + 4 * w.val)) = false →
      exec (.icEnClr (.core c) w bits) s = .next (s.setWord (Adr.IC_EN w) (s.word (Adr.IC_EN w) &&& ~~~bits))) ∧
  (∀ (m : Master) (w : Fin 9) (bits : Word) (s : State), m = .bc ∨ m = .debug → mapCause s m (0x700040 + 4 * w.val) true = none → blockGated s (blockOf (0x700040 + 4 * w.val)) = false →
      exec (.icPendSet m w bits) s = .next s) ∧
  (∀ (m : Master) (w : Fin 9) (bits : Word) (e : Nat) (s : State), m = .bc ∨ m = .debug → mapCause s m (0x700040 + 4 * w.val) true = some e →
      exec (.icPendSet m w bits) s = .next (mapRefused m (0x700040 + 4 * w.val) 4 true e s)) ∧
  (∀ (m : Master) (w : Fin 9) (bits : Word) (s : State), m = .bc ∨ m = .debug → mapCause s m (0x700140 + 4 * w.val) true = none → blockGated s (blockOf (0x700140 + 4 * w.val)) = false →
      exec (.icEnClr m w bits) s = .next s) ∧
  (∀ (m : Master) (w : Fin 9) (bits : Word) (e : Nat) (s : State), m = .bc ∨ m = .debug → mapCause s m (0x700140 + 4 * w.val) true = some e →
      exec (.icEnClr m w bits) s = .next (mapRefused m (0x700140 + 4 * w.val) 4 true e s)) ∧
  (∀ (c : Fin 4) (edge : Bool) (s : State), s.inRest = false → mapCause s (.core c) 0x700A00 false = none → blockGated s (blockOf 0x700A00) = false →
      icBest s c = none → exec (.icClaim (.core c) edge) s = .next (emit (.reg (.core c) 0x1FF) s)) ∧
  (∀ (c : Fin 4) (n : Nat) (s : State), s.inRest = false → mapCause s (.core c) 0x700A00 false = none → blockGated s (blockOf 0x700A00) = false →
      icBest s c = some n → n < 288 → Runs (.icClaim (.core c) false) s fun t => t.stack c = (icPrioOf s n, n) :: s.stack c ∧
      isPending t n = false ∧ t.out.head? = some (.reg (.core c) (BitVec.ofNat 32 (2 ^ 31 + n)))) ∧
  (∀ (c : Fin 4) (src : BitVec 9) (p : Nat) (rest : List (Nat × Nat)) (s : State), mapCause s (.core c) 0x700A04 true = none → blockGated s (blockOf 0x700A04) = false →
      s.stack c = (p, src.toNat) :: rest → exec (.icEoi (.core c) src) s = .next (s.setStack c rest)) ∧
  (∀ (c : Fin 4) (src : BitVec 9) (p top : Nat) (rest : List (Nat × Nat)) (s : State), mapCause s (.core c) 0x700A04 true = none → blockGated s (blockOf 0x700A04) = false →
      s.stack c = (p, top) :: rest → top ≠ src.toNat → top < 512 → Runs (.icEoi (.core c) src) s fun t =>
      t.stack c = s.stack c ∧ t.get Fld.IC_FAULT_LOG_WRITTEN = src.toNat ∧ t.get Fld.IC_FAULT_LOG_TOP = top ∧ t.get Fld.IC_FAULT_LOG_CORE = c.val) ∧
  (∀ (g : Fin 32) (s : State), s.isSet (Fld.IC_HOLD_RUNNING g) = true → tabGet (fun _ => 0) s.holdLeft g = 0 → exec (.holdOffExpiry g) s = .next (s.set (Fld.IC_HOLD_RUNNING g) 0)) ∧
  (∀ (c : Fin 4) (g : Fin 32) (s : State), mapCause s (.core c) (0x700900 + 4 * g.val) true = none → blockGated s (blockOf (0x700900 + 4 * g.val)) = false →
      Runs (.icHoldWrite (.core c) g 0) s fun t => t.get (Fld.IC_HOLD_RUNNING g) = 0 ∧ t.get (Fld.IC_HOLD_STROKES g) = 0) ∧
  (∀ (c : Fin 4) (g : Fin 32) (v : BitVec 16) (s : State), mapCause s (.core c) (0x700900 + 4 * g.val) true = none → blockGated s (blockOf (0x700900 + 4 * g.val)) = false →
      v ≠ 0 → exec (.icHoldWrite (.core c) g v) s = .next (s.set (Fld.IC_HOLD_STROKES g) v.toNat))

/-- A stroke timer at zero reloads its PERIOD where periodic and else disables itself, and raises 276 + t; a stroke
compare and a KS alarm that match disarm and raise 280 and 281. A GPIO change on an edge not selected only changes the
level; on a selected one sets its status bit. A context event bit becomes 1. A coalescing group at zero triggers. Posted
writes of the host wait while the staging buffer is full. A trigger with the link down counts in D3COLD, without MSI-X in DISABLED, beyond the vectors in BEYOND; of a function
that is held it is held; without Bus Master Enable, or masked, it is pending in the PBA; else the MSI-X write is due, and leaves with the entry's address and data, is counted in SENT,
and is pending instead where Bus Master Enable was cleared meanwhile. Unmasking an entry clears its Mask bit; of one that is not backed it changes
nothing. That the write leaves at the end of its stroke, and the order of host requests, are the model's choices (logs 206, 173). (R368, R380, R381, R382, R383, R433, R472; derived) -/
def Obligations.TimersEventsAndMsix : Prop :=
  (∀ (v : Fin 4) (s : State), s.isSet (Fld.IC_TMR_CTL_EN v) = true → s.get (Fld.IC_TMR_CNT_REMAIN v) = 0 → s.isSet (Fld.IC_TMR_CTL_PERIODIC v) = true → s.inRest = false →
      Runs (.strokeTimerExpiry v) s fun t => t.get (Fld.IC_TMR_CNT_REMAIN v) = s.get (Fld.IC_TMR_CTL_PERIOD v) ∧ t.isSet (Fld.IC_TMR_CTL_EN v) = true ∧ isPending t (276 + v.val) = true) ∧
  (∀ (v : Fin 4) (s : State), s.isSet (Fld.IC_TMR_CTL_EN v) = true → s.get (Fld.IC_TMR_CNT_REMAIN v) = 0 → s.isSet (Fld.IC_TMR_CTL_PERIODIC v) = false → s.inRest = false →
      Runs (.strokeTimerExpiry v) s fun t => t.isSet (Fld.IC_TMR_CTL_EN v) = false ∧ isPending t (276 + v.val) = true) ∧
  (∀ (s : State), s.isSet Fld.IC_STROKE_CMP_HI_EN = true → s.get Fld.IC_STROKE_CMP_LO_STROKE_LO = s.nowLo → s.get Fld.IC_STROKE_CMP_HI_STROKE_HI = s.nowHi → s.inRest = false →
      Runs .strokeCompareMatch s fun t => t.isSet Fld.IC_STROKE_CMP_HI_EN = false ∧ isPending t 280 = true) ∧
  (∀ (s : State), s.isSet Fld.KS_CTL_ALARM_EN = true → s.word Adr.KS_TIME = s.word Adr.KS_ALARM → s.inRest = false → Runs .ksAlarmMatch s fun t =>
      t.isSet Fld.KS_CTL_ALARM_EN = false ∧ isPending t 281 = true) ∧
  (∀ (g : Fin 16) (rising : Bool) (s : State), s.pwr.gpio.getLsbD g.val = rising → exec (.gpioEdge g rising) s = .next s) ∧
  (∀ (g : Fin 16) (s : State), s.pwr.gpio.getLsbD g.val = false → bitOf (bitsOf (s.word Adr.KS_GPIO_EDGE).toNat (2 * g.val + 1) (2 * g.val)) 0 = false →
      exec (.gpioEdge g true) s = .next (s.pwrUpd fun p => { p with gpio := p.gpio ^^^ (1#16 <<< g.val) })) ∧
  (∀ (g : Fin 16) (s : State), s.pwr.gpio.getLsbD g.val = false → bitOf (bitsOf (s.word Adr.KS_GPIO_EDGE).toNat (2 * g.val + 1) (2 * g.val)) 0 = true →
      Runs (.gpioEdge g true) s fun t => bitOf (t.get Fld.KS_GPIO_STATUS_SEEN) g.val = true) ∧
  (∀ (c : Fin 1024) (b : Fin 8) (s : State), b.val = 0 ∨ c.val = 0 → Runs (.contextEventSet c b) s fun t => bitOf (t.get (Fld.CTX_EVT_STATUS_EVT c)) b.val = true) ∧
  (∀ (c : Fin 1024) (b : Fin 8) (s : State), b.val ≠ 0 → c.val ≠ 0 → exec (.contextEventSet c b) s = .next s) ∧
  (∀ (c : Fin 1024) (q : Fin 64) (s : State), s.isSet (Fld.CQ_EVT_STATUS_TIMER_RUN c q) = true → s.get (Fld.CQ_EVT_STATUS_REMAIN c q) = 0 →
      exec (.coalescingTimerExpiry c q) s = .next (cqTrigger c q s)) ∧
  (∀ (c : Fin 1024) (q : Fin 64) (v : Word) (s : State), HostTurn s c → s.ds.full = false → ((hostNoted s).fn c).enabled = true →
      exec (.cqEvtCfgWrite c q v) s = .next { hostNoted s with deferred := s.deferred ++ [.cqEvt c q v] }) ∧
  (∀ (c : Fin 1024) (q : Fin 64) (v : Word) (s : State), s.ds.full = true → exec (.cqEvtCfgWrite c q v) s = .next s) ∧
  (∀ (c : Fin 1024) (v : Fin 64) (s : State), s.linkLost = true → exec (.msixTriggerDelivery c v) s = .next (s.inc Fld.EV_DROP_D3COLD 1)) ∧
  (∀ (c : Fin 1024) (v : Fin 64) (s : State), s.linkLost = false → (s.fn c).msixEn = false → exec (.msixTriggerDelivery c v) s = .next (s.inc Fld.EV_DROP_DISABLED 1)) ∧
  (∀ (c : Fin 1024) (v : Fin 64) (s : State), s.linkLost = false → (s.fn c).msixEn = true → s.vectorsOf c ≤ v.val →
      exec (.msixTriggerDelivery c v) s = .next (s.inc Fld.EV_DROP_BEYOND 1)) ∧
  (∀ (c : Fin 1024) (v : Fin 64) (s : State), s.linkLost = false → (s.fn c).msixEn = true → v.val < s.vectorsOf c → msixHeld s c = false → (s.fn c).bme = false →
      exec (.msixTriggerDelivery c v) s = .next (setPbaBit c v s)) ∧
  (∀ (c : Fin 1024) (v : Fin 64) (s : State), s.linkLost = false → (s.fn c).msixEn = true → v.val < s.vectorsOf c → msixHeld s c = true →
      Runs (.msixTriggerDelivery c v) s fun t => (t.heldOf c).getLsbD v = true ∧ t.msixDue = s.msixDue) ∧
  (∀ (c : Fin 1024) (v : Fin 64) (s : State), s.linkLost = false → (s.fn c).msixEn = true → v.val < s.vectorsOf c → msixHeld s c = false → (s.fn c).bme = true →
      (s.fn c).fmask = false → (s.msixAt c v).ctl.getLsbD 0 = true → exec (.msixTriggerDelivery c v) s = .next (setPbaBit c v s)) ∧
  (∀ (c : Fin 1024) (v : Fin 64) (s : State), s.linkLost = false → (s.fn c).msixEn = true → v.val < s.vectorsOf c → msixHeld s c = false → (s.fn c).bme = true →
      (s.fn c).fmask = false → (s.msixAt c v).ctl.getLsbD 0 = false → s.get Fld.HL_LINK_STATUS_LSTATE ≠ 4 → (c.val, v.val, none) ∉ s.msixDue →
      exec (.msixTriggerDelivery c v) s = .next { s with msixDue := s.msixDue ++ [(c.val, v.val, none)] }) ∧
  (∀ (c v : Nat) (q : Option Nat) (s : State), s.msixDue = [(c, v, q)] → s.isSet Fld.HL_LINK_STATUS_DL_UP = true → s.get Fld.HL_LINK_STATUS_LSTATE ≠ 3 →
      s.get Fld.HL_LINK_STATUS_LSTATE ≠ 4 → msixHeld s c = false → (s.fn c).bme = true →
      (msixOut s).out = .msix c v (s.msixAt c v).addr (s.msixAt c v).data (steeringTag s c v) :: s.out ∧ (msixOut s).msixDue = [] ∧
      (msixOut s).get Fld.EV_MSIX_CNT_SENT = min Fld.EV_MSIX_CNT_SENT.max (s.get Fld.EV_MSIX_CNT_SENT + 1)) ∧
  (∀ (c v : Nat) (q : Option Nat) (s : State), s.msixDue = [(c, v, q)] → s.isSet Fld.HL_LINK_STATUS_DL_UP = true → s.get Fld.HL_LINK_STATUS_LSTATE ≠ 3 →
      msixHeld s c = false → (s.fn c).bme = false → msixOut s = setPbaBit c v { s with msixDue := [] }) ∧
  (∀ (c : Fin 1024) (v : Fin 64) (s : State), HostTurn s c → s.ds.full = false → v.val < (hostNoted s).vectorsOf c →
      Runs (.msixVectorUnmask c v) s fun t => t.msixAt c v = { s.msixAt c v with ctl := (s.msixAt c v).ctl &&& ~~~1#32 } ∧ t.ds = s.ds ∧ t.fuses = s.fuses) ∧
  (∀ (c : Fin 1024) (v : Fin 64) (s : State), HostTurn s c → s.ds.full = false → (hostNoted s).vectorsOf c ≤ v.val → exec (.msixVectorUnmask c v) s = .next (hostNoted s))

/-- GO in PRESERVE changes nothing, of a busy mailbox is only noted; of the board controller it acts outside Rest, and in Rest only its
address match is seen; of a host mailbox it comes as a posted write, in the order of its function. A late command that waits ends with
TIMEOUT (7). The end of a long operation not running changes nothing. A command forwarded to a member without a route ends with 0x0C.
DEV_QUERY answers mode, release, reset cause, boot, stroke, level and sleep code; DEV_RESET orders the reset 2,000 strokes on; MAINT_ENTER
in MAINTENANCE answers the stroke of its entry, in BOOT, or where nothing of R66 stands against it, orders the entry, else ends with 1; a
command forwarded takes a transaction to its member; PREPARE_EXTRACT in STANDBY or SERVING orders a drain; IF_QUERY answers revision 3 and
every opcode, ECHO its arguments, TIME_QUERY the stroke and clock registers, LOG_READ the entries kept from an index on. (R63, R64, R66,
R390, R396, R399, R401, R408, R411, R447; derived) -/
def Obligations.MailboxesAndDeviceCommands : Prop :=
  (∀ (mb : Fin 1032) (s : State), mb.val = 5 → s.mode = .preserve → exec (.mbxDoorbellGo mb) s = .next s) ∧
  (∀ (mb : Fin 1032) (s : State), mb.val = 5 → s.mode ≠ .preserve → mbxBusy s (mbxId mb) = true → exec (.mbxDoorbellGo mb) s = .next (s.set (mbxField (mbxId mb) 0x0C 6 6) 1)) ∧
  (∀ (mb : Fin 1032) (s : State), mb.val = 5 → s.mode ≠ .preserve → mbxBusy s (mbxId mb) = false →
      exec (.mbxDoorbellGo mb) s = .next (powerWake (mbxId mb) (submit (mbxId mb) (raise (mbxSource (mbxId mb)) s)))) ∧
  (∀ (mb : Fin 1032) (s : State), mb.val = 4 → s.restGated = false → s.pwr.smbHeld = none → exec (.mbxDoorbellGo mb) s = .next (mbxGo mb s)) ∧
  (∀ (mb : Fin 1032) (s : State), mb.val < 4 → HostTurn s (mbxFn mb) → s.ds.full = false → exec (.mbxDoorbellGo mb) s = .next (mbxGo mb (hostNoted s))) ∧
  (∀ (mb : Fin 1032) (s : State), 8 ≤ mb.val → HostTurn s (mbxFn mb) → s.ds.full = false → ((hostNoted s).fn (mbxCtx mb)).enabled = true →
      exec (.mbxDoorbellGo mb) s = .next (mbxGo mb (hostNoted s))) ∧
  (∀ (mb : Fin 1032) (s : State), mb.val = 4 → s.restGated = true → s.pwr.smbHeld = none → exec (.mbxDoorbellGo mb) s = .next (smbMatch .go s)) ∧
  (∀ (mb : Fin 1032) (s : State), mb.val < 4 ∨ 8 ≤ mb.val → s.ds.full = true → exec (.mbxDoorbellGo mb) s = .next s) ∧
  (∀ (mb : Fin 1032) (x : Cmd) (s : State), s.cmdOf mb = some x → mbxLate s x = false → exec (.mbxWatchdogExpiry mb) s = .next s) ∧
  (∀ (mb : Fin 1032) (x : Cmd) (s : State), s.cmdOf mb = some x → mbxLate s x = true → s.mode ≠ .preserve → s.get (mbxState x.mb) = 1 → x.mb = 4 → x.id = 0 →
      Runs (.mbxWatchdogExpiry mb) s fun t => (∀ y ∈ t.cmds, y.id ≠ 0) ∧ t.get (mbxState 4) = 3 ∧ t.get (mbxField 4 0x0C 23 16) = 7) ∧
  (∀ (code : Fin 13) (s : State), fwBusy s = false → exec (.longOperationEnd true code) s = .next s) ∧
  (∀ (code : Fin 13) (s : State), storeBusy s = true → exec (.longOperationEnd false code) s = .next (storeEnd code s)) ∧
  (∀ (mb : Fin 1032) (core : Fin 4) (x : Cmd) (s : State), s.cmdOf mb = some x → x.fwd = true → s.get (mbxState x.mb) = 1 → s.mode ≠ .preserve → coreRuns s core = true →
      (s.mbx.out.any fun o => o.member == s.get (mbxField x.mb 0 26 24)) = false → s.route (s.get (mbxField x.mb 0 26 24)) = none →
      exec (.mbxForward mb core) s = .next (cmdDone x.id 0x0C [] s)) ∧
  (∀ (mb : Fin 1032) (core k : Fin 4) (x : Cmd) (s : State), s.cmdOf mb = some x → x.fwd = true → s.get (mbxState x.mb) = 1 → s.mode ≠ .preserve → coreRuns s core = true →
      (s.mbx.out.any fun o => o.member == s.get (mbxField x.mb 0 26 24)) = false → s.route (s.get (mbxField x.mb 0 26 24)) = some k.val →
      Runs (.mbxForward mb core) s fun t => t.mbx.txn = (s.mbx.txn + 1) % 65536 ∧
        t.mbx.out = s.mbx.out ++ [⟨x.id, s.get (mbxField x.mb 0 26 24), s.mbx.txn, k.val, false, 0, []⟩] ∧ t.get (mbxState x.mb) = 2) ∧
  (∀ (mb : Fin 1032) (s : State), mb.val = 6 ∨ mb.val = 7 → exec (.mbxDoorbellGo mb) s = .next s) ∧
  (∀ (mb : Fin 1032) (core : Fin 4) (x : Cmd) (s u : State), mayTake s mb core 0x0001 = some x → u = takeCmd x core s → exec (.devQuery mb core) s =
      .next (cmdDone x.id 0 (([Adr.DEV_MODE, Adr.DEV_FWREV, Adr.DEV_RST_CAUSE, Adr.DEV_BOOT].flatMap (wordBytes u)) ++ leBytes 6 u.now.toNat ++ leBytes 1 u.level ++ leBytes 1 u.sleepCode) u)) ∧
  (∀ (mb : Fin 1032) (core : Fin 4) (x : Cmd) (s u : State), mayTake s mb core 0x0002 = some x → u = takeCmd x core s → u.dev.devResetAt = none →
      exec (.devReset mb core) s = .next (cmdDone x.id 0 [] (u.devUpd fun d => { d with devResetAt := some (u.now + 2000) }))) ∧
  (∀ (mb : Fin 1032) (core : Fin 4) (x : Cmd) (s u : State), mayTake s mb core 0x0003 = some x → u = takeCmd x core s → u.mode = .maintenance →
      exec (.maintEnter mb core) s = .next (cmdDone x.id 0 (leBytes 6 u.modeStroke) u)) ∧
  (∀ (mb : Fin 1032) (core : Fin 4) (x : Cmd) (s u : State), mayTake s mb core 0x0003 = some x → u = takeCmd x core s →
      u.mode = .boot ∨ (u.mode ≠ .maintenance ∧ maintAllowed u = true) →
      exec (.maintEnter mb core) s = .next (addCause .maintEntry u) ∧ Runs (.maintEnter mb core) s fun t => .maintEntry ∈ t.dev.causes) ∧
  (∀ (mb : Fin 1032) (core : Fin 4) (x : Cmd) (s u : State), mayTake s mb core 0x0003 = some x → u = takeCmd x core s → u.mode ≠ .boot →
      u.mode ≠ .maintenance → maintAllowed u = false → exec (.maintEnter mb core) s = .next (cmdDone x.id 1 [] u)) ∧
  (∀ (mb : Fin 1032) (core : Fin 4) (x : Cmd) (s u : State), mayTake s mb core 0x0004 = some x → u = takeCmd x core s → u.mode = .standby ∨ u.mode = .serving →
      exec (.prepareExtract mb core) s = .next (addCause .prepareExtract u)) ∧
  (∀ (mb : Fin 1032) (core : Fin 4) (x : Cmd) (s u : State), mayTake s mb core 0x0004 = some x → u = takeCmd x core s → u.mode = .draining →
      exec (.prepareExtract mb core) s = .next (cmdDone x.id 0 (leBytes 6 u.dev.drainFrom.toNat) u)) ∧
  (∀ (mb : Fin 1032) (core : Fin 4) (x : Cmd) (s : State), mayTake s mb core 0x0701 = some x → exec (.ifQuery mb core) s =
      .next (cmdDone x.id 0 ([3, 0] ++ leBytes 2 commands.length ++ commands.flatMap (fun i => leBytes 2 i.op)) (takeCmd x core s))) ∧
  (∀ (mb : Fin 1032) (core : Fin 4) (x : Cmd) (s : State), mayTake s mb core 0x0702 = some x → exec (.echo mb core) s = .next (cmdDone x.id 0 x.args (takeCmd x core s))) ∧
  (∀ (mb : Fin 1032) (core : Fin 4) (x : Cmd) (s u : State), mayTake s mb core 0x0703 = some x → u = takeCmd x core s → u.flt.log.length ≤ u.flt.logged → u.flt.logged ≤ leAt x.args 0 4 →
      exec (.logRead mb core) s = .next (cmdDone x.id 0 (leBytes 4 u.flt.logged ++ List.replicate 28 0) u)) ∧
  (∀ (mb : Fin 1032) (core : Fin 4) (x : Cmd) (s u : State) (i : Nat), mayTake s mb core 0x0703 = some x → u = takeCmd x core s → i = leAt x.args 0 4 → u.flt.log.length ≤ 126 →
      u.flt.log.length = u.flt.logged → i < u.flt.logged → exec (.logRead mb core) s = .next (cmdDone x.id 0 (leBytes 4 u.flt.logged ++ List.replicate 28 0 ++
        (u.flt.log.reverse.drop i).flatMap logBytes) u)) ∧
  (∀ (mb : Fin 1032) (core : Fin 4) (x : Cmd) (s u : State), mayTake s mb core 0x0704 = some x → u = takeCmd x core s → exec (.timeQuery mb core) s =
      .next (cmdDone x.id 0 (leBytes 6 u.now.toNat ++ leBytes 2 0 ++ [Adr.CAD_PTM_STATUS, Adr.CAD_HOSTT_LO, Adr.CAD_HOSTT_HI, Adr.CAD_HOSTT_STROKE, Adr.CAD_PEL_ALIGN].flatMap (wordBytes u)) u))

/-- The end of a command of the board controller's mailbox that is not to be discarded (here ECHO) leaves the mailbox DONE
(3) with its code, the length of its result, the stroke of its end, and its result in the bytes from 0x20 on; the
command is no longer among those that run, and the stroke counter is what it was. (R390, R396, R398, R400; derived) -/
def Obligations.CommandResults : Prop :=
  ∀ (core : Fin 4) (x : Cmd) (args : List Byte) (s : State), mayTake s 4 core 0x0702 = some x → s.cmds.map (fun y => y.id) = [x.id] → x.mb = 4 → x.args = args → args.length ≤ 4064 → x.dropped = false →
      Runs (.echo 4 core) s fun t => t.get (mbxState 4) = 3 ∧ t.get (mbxField 4 0x0C 23 16) = 0 ∧ t.get (mbxField 4 0x10 11 0) = args.length ∧ t.get (mbxField 4 0x18 31 0) = s.nowLo ∧
        t.cmds = [] ∧ t.now = s.now ∧ (∀ i ∈ List.range args.length, byteAt t (mbxBase 4 + 0x20 + i) = args.getD i 0)

/-- When a core takes it: PERF_SET of an awake device is noted with its level, source and command; SLEEP_ENTER for the state in force
answers the stroke of its entry, one whose conditions hold begins the entry, another ends BUSY (1); All but THERM_QUERY, POWER_QUERY and
SLEEP_ENTER wait in a sleep state for its exit. WAKE_CFG writes the wake enables and answers the previous ones; THERM_QUERY answers the
eight temperatures and the hottest; POWER_POLICY writes IDLE_SLEEP, AUTO_LEVEL and FLOOR and answers the previous ones; POWER_QUERY
answers level, sleep code, last wake and an estimate whose value is free (log 80). What waits for an exit is the model's reading (logs 4,
90). (R402, R417, R418, R421, R427; derived) -/
def Obligations.PowerCommands : Prop :=
  (∀ (mb : Fin 1032) (core : Fin 4) (x : Cmd) (s : State), s.awake = true → mayTake s mb core 0x0101 = some x → exec (.perfSet mb core) s =
      .next ((takeCmd x core s).pwrUpd fun p => { p with want := some (leAt x.args 0 1, if x.mb = 4 then 1 else 0, x.id) })) ∧
  (∀ (mb : Fin 1032) (core : Fin 4) (s : State), s.awake = false → exec (.perfSet mb core) s = .next s) ∧
  (∀ (mb : Fin 1032) (core : Fin 4) (x : Cmd) (s u : State), mayTake s mb core 0x0102 = some x → u = takeCmd x core s → s.sleepState = 0 → leAt x.args 0 1 = 1 → maySleep u = true →
      sleepKind u = 0 → exec (.sleepEnter mb core) s = .next (cmdDone x.id 0 (leBytes 6 u.now.toNat) (sleepBegin 1 u))) ∧
  (∀ (mb : Fin 1032) (core : Fin 4) (x : Cmd) (s u : State), mayTake s mb core 0x0102 = some x → u = takeCmd x core s → s.sleepState ≠ 5 → sleepKind s = leAt x.args 0 1 → sleepKind u = leAt x.args 0 1 →
      exec (.sleepEnter mb core) s = .next (cmdDone x.id 0 (leBytes 6 u.pwr.sleepAt.toNat) u)) ∧
  (∀ (mb : Fin 1032) (core : Fin 4) (s : State), s.sleepState = 5 → exec (.sleepEnter mb core) s = .next s) ∧
  (∀ (mb : Fin 1032) (core : Fin 4) (x : Cmd) (s u : State), mayTake s mb core 0x0102 = some x → u = takeCmd x core s → s.sleepState = 0 → leAt x.args 0 1 ≠ 0 → maySleep u = false →
      sleepKind u = 0 → exec (.sleepEnter mb core) s = .next (cmdDone x.id 1 [] u)) ∧
  (∀ (mb : Fin 1032) (core : Fin 4) (x : Cmd) (s u : State), s.awake = true → mayTake s mb core 0x0103 = some x → u = takeCmd x core s →
      exec (.wakeCfg mb core) s = .next (cmdDone x.id 0 (leBytes 6 u.wakeEn) (setWakeEn (leAt x.args 0 6) u))) ∧
  (∀ (mb : Fin 1032) (core : Fin 4) (x : Cmd) (s u : State), mayTake s mb core 0x0104 = some x → u = takeCmd x core s → exec (.thermQuery mb core) s =
      .next (cmdDone x.id 0 ((List.range 8).flatMap (fun k => leBytes 2 (u.get (Fld.CRP_TEMP_TEMP k))) ++ leBytes 1 (u.get Fld.CRP_TEMP_MAX_HOTTEST)) u)) ∧
  (∀ (mb : Fin 1032) (core : Fin 4) (x : Cmd) (s u : State), s.awake = true → mayTake s mb core 0x0105 = some x → u = takeCmd x core s → exec (.powerPolicy mb core) s =
      .next (cmdDone x.id 0 (leBytes 1 (u.get Fld.CRP_LEVEL_IDLE_SLEEP + 2 * u.get Fld.CRP_LEVEL_AUTO) ++ leBytes 1 (u.get Fld.CRP_LEVEL_FLOOR))
        (((u.set Fld.CRP_LEVEL_IDLE_SLEEP (leAt x.args 0 1 % 2)).set Fld.CRP_LEVEL_AUTO (leAt x.args 0 1 / 2)).set Fld.CRP_LEVEL_FLOOR (leAt x.args 1 1)))) ∧
  (∀ (mb : Fin 1032) (core : Fin 4) (x : Cmd) (s u : State), mayTake s mb core 0x0106 = some x → u = takeCmd x core s → exec (.powerQuery mb core) s =
      .next (cmdDone x.id 0 (leBytes 1 (u.get Fld.CRP_LEVEL_CUR) ++ leBytes 1 u.sleepCode ++ leBytes 2 0 ++ leBytes 4 (u.word Adr.KS_LAST_WAKE).toNat ++
        leBytes 4 (u.draw.toNat % 2 ^ 32)) u.drewOne))

/-- When a core takes it: FW_QUERY answers releases, stage and trials; FW_STAGE_BEGIN empties the stage with the size; FW_STAGE_DATA
without a stage ends BUSY (1), beyond the size with 3, else writes the bytes; FW_STAGE_END of an image without error leaves it verified
(2), with one ends 0x0B with the cause. FW_ACTIVATE starts writing copies 0 and 1 of a verified image, else ends BUSY; FW_COMMIT in TRIAL
copies 2 and 3; FW_ROLLBACK copies 0 and 1 from copy 2. Outside TRIAL a trial boot changes nothing; in it the boot is counted once. A
piece beyond the size, and the copies a boot accepts, are the model's choices (logs 4, 92, 96). (R406, R409, R410; derived) -/
def Obligations.FirmwareImagesAndTrials : Prop :=
  (∀ (mb : Fin 1032) (core : Fin 4) (x : Cmd) (s u : State), mayTake s mb core 0x0501 = some x → u = takeCmd x core s → exec (.fwQuery mb core) s =
      .next (cmdDone x.id 0 (wordBytes u Adr.DEV_FWREV ++ ([0, 1, 2, 3].flatMap fun k => leBytes 4 (u.fwCopy k).toNat) ++ leBytes 4 (stagedRelease u) ++ leBytes 1 u.fw.stage ++
        leBytes 1 (inTrial u).toNat ++ leBytes 2 u.fw.trials ++ leBytes 4 (opWord u.mbx.fw)) u)) ∧
  (∀ (mb : Fin 1032) (core : Fin 4) (x : Cmd) (s : State), mayTake s mb core 0x0502 = some x → exec (.fwStageBegin mb core) s =
      .next (cmdDone x.id 0 [] ((takeCmd x core s).fwUpd fun f => { f with stage := 1, size := leAt x.args 0 4, bytes := [] }))) ∧
  (∀ (mb : Fin 1032) (core : Fin 4) (x : Cmd) (s : State), mayTake s mb core 0x0503 = some x → (takeCmd x core s).fw.stage = 0 →
      exec (.fwStageData mb core) s = .next (cmdDone x.id 1 [] (takeCmd x core s))) ∧
  (∀ (mb : Fin 1032) (core : Fin 4) (x : Cmd) (s : State), mayTake s mb core 0x0503 = some x → (takeCmd x core s).fw.stage ≠ 0 → (takeCmd x core s).fw.size < leAt x.args 0 4 + leAt x.args 4 4 →
      exec (.fwStageData mb core) s = .next (cmdDone x.id 3 [] (takeCmd x core s))) ∧
  (∀ (mb : Fin 1032) (core : Fin 4) (x : Cmd) (s u : State), mayTake s mb core 0x0503 = some x → u = takeCmd x core s → u.fw.stage ≠ 0 → leAt x.args 0 4 + leAt x.args 4 4 ≤ u.fw.size →
      exec (.fwStageData mb core) s = .next (cmdDone x.id 0 [] (u.fwUpd fun f => { f with stage := 1, bytes := (List.range (leAt x.args 4 4)).foldl (fun t i => tabSet (fun _ => none) t (leAt x.args 0 4 + i) (some (x.args.getD (32 + i) 0))) u.fw.bytes }))) ∧
  (∀ (mb : Fin 1032) (core : Fin 4) (unread : Bool) (x : Cmd) (s u : State), mayTake s mb core 0x0504 = some x → u = takeCmd x core s → u.fw.stage ≠ 0 →
      exec (.fwStageEnd mb core unread) s = .next (if imageErr u unread = 0 then cmdDone x.id 0 [] (u.fwUpd fun f => { f with stage := 2 })
        else cmdDone x.id 0xB (leBytes 1 (imageErr u unread)) (u.fwUpd fun f => { f with stage := 1 }))) ∧
  (∀ (mb : Fin 1032) (core : Fin 4) (unread : Bool) (x : Cmd) (s u : State), mayTake s mb core 0x0504 = some x → u = takeCmd x core s → u.fw.stage = 0 →
      exec (.fwStageEnd mb core unread) s = .next (cmdDone x.id 1 [] u)) ∧
  (∀ (mb : Fin 1032) (core : Fin 4) (x : Cmd) (s u : State), mayTake s mb core 0x0505 = some x → u = takeCmd x core s → fwBusy u = false → u.fw.stage = 2 →
      exec (.fwActivate mb core) s = .next (cmdDone x.id 0 [] (fwStart x u.staged [0, 1] u).1)) ∧
  (∀ (mb : Fin 1032) (core : Fin 4) (x : Cmd) (s : State), mayTake s mb core 0x0505 = some x → (takeCmd x core s).fw.stage ≠ 2 →
      exec (.fwActivate mb core) s = .next (cmdDone x.id 1 [] (takeCmd x core s))) ∧
  (∀ (mb : Fin 1032) (core : Fin 4) (x : Cmd) (s u : State), mayTake s mb core 0x0506 = some x → u = takeCmd x core s → fwBusy u = false → inTrial u = true →
      exec (.fwCommit mb core) s = .next (cmdDone x.id 0 [] (fwStart x u.fw.running [2, 3] u).1)) ∧
  (∀ (mb : Fin 1032) (core : Fin 4) (x : Cmd) (s u : State), mayTake s mb core 0x0507 = some x → u = takeCmd x core s → fwBusy u = false → u.fwCopy 2 ≠ 0 → u.fwCopy 2 ≠ u.word Adr.DEV_FWREV →
      exec (.fwRollback mb core) s = .next (cmdDone x.id 0 [] (fwStart x (u.copy 2) [0, 1] u).1)) ∧
  (∀ (s : State), inTrial s = false → exec .trialBoot s = .next s) ∧
  (∀ (s : State), inTrial s = true → s.fw.counted = false → s.fw.trials < 2 → exec .trialBoot s = .next (s.fwUpd fun f => { f with trials := f.trials + 1, counted := true }))

/-- When a core takes it: FUSE_PROGRAM of a field already programmed, or of a value that clears a bit, ends DENIED (2);
without its conditions it ends 0x09 with RESULT 2; else BUSY reads 1 to its end, which writes the field, marks it programmed and answers the
bitmap with RESULT 1, or marks nothing where a condition lapsed. FUSE_QUERY answers what the fuses hold. SMBus, at the address 0x58 + MEMBER_ID, from 1 ms after the release of SYS_RST_N
while the device answers (no PRESERVE or Rest): MBX_READ and ATTN answer the bytes with status 0; REG_READ and REG_WRITE are one access of the board controller
on the bus, each with a PEC byte; a write without a correct PEC while PEC_REQ is 1 is only counted; MBX_WRITE fills the mailbox. In PRESERVE
and at another address nothing happens; in Rest the address match is seen, and a transaction that waited is performed after the exit. The boundary at which programming ends, the
bytes of the PEC, the boundary after Rest and the free values of the bitmap and the bits of a lapsed field are the model's choices (logs 97, 235, 237, 238).
(R30, R407, R413, R414, R461; derived) -/
def Obligations.FuseCommandsAndSmbus : Prop :=
  (∀ (mb : Fin 1032) (core : Fin 4) (x : Cmd) (s u : State), mayTake s mb core 0x0601 = some x → u = takeCmd x core s → exec (.fuseQuery mb core) s =
      .next (cmdDone x.id 0 (leBytes 2 (Config.fuseBitmap u.fuses.marks).toNat ++ leBytes 2 0 ++ leBytes 4 u.fuses.subsys.toNat ++ ((List.range 16).flatMap (regionLoaded u)) ++
        leBytes 4 u.fuses.policy.toNat ++ wordBytes u Adr.PEL_IDENT_LO ++ wordBytes u Adr.PEL_IDENT_HI) u)) ∧
  (∀ (mb : Fin 1032) (core : Fin 4) (en vdd lapse bad : Bool) (got : BitVec 128) (x : Cmd) (s u : State), mayTake s mb core 0x0602 = some x →
      u = ((takeCmd x core s).set Fld.DBG_FUSE_STAT_FUSE_EN en.toNat).set Fld.DBG_FUSE_STAT_VDD_OK vdd.toNat → u.fuses.marks.contains (fuseField x.args) = true →
      exec (.fuseProgram mb core en vdd lapse bad got) s = .next (cmdDone x.id 2 [] u)) ∧
  (∀ (mb : Fin 1032) (core : Fin 4) (lapse bad : Bool) (got : BitVec 128) (x : Cmd) (s u : State), mayTake s mb core 0x0602 = some x →
      u = ((takeCmd x core s).set Fld.DBG_FUSE_STAT_FUSE_EN 0).set Fld.DBG_FUSE_STAT_VDD_OK 1 → u.fuses.marks.contains (fuseField x.args) = false → leAt x.args 0 1 ≠ 2 →
      fuseClears (fuseHeld u x.args) (sliceBytes x.args 8 (fuseSize (leAt x.args 0 1))) = false →
      exec (.fuseProgram mb core false true lapse bad got) s = .next (cmdDone x.id 9 [] (u.set Fld.DBG_FUSE_STAT_RESULT 2))) ∧
  (∀ (mb : Fin 1032) (core : Fin 4) (lapse bad : Bool) (got : BitVec 128) (x : Cmd) (s u : State), mayTake s mb core 0x0602 = some x →
      u = ((takeCmd x core s).set Fld.DBG_FUSE_STAT_FUSE_EN 1).set Fld.DBG_FUSE_STAT_VDD_OK 1 → u.fuses.marks.contains (fuseField x.args) = false → leAt x.args 0 1 ≠ 2 →
      fuseClears (fuseHeld u x.args) (sliceBytes x.args 8 (fuseSize (leAt x.args 0 1))) = false → fuseReady u = true →
      exec (.fuseProgram mb core true true lapse bad got) s = .next { u.set Fld.DBG_FUSE_STAT_BUSY 1 with deferred := u.deferred ++ [.fuse x.id lapse bad got] }) ∧
  (∀ (id : Nat) (got : BitVec 128) (x : Cmd) (s u v : State), s.cmdId id = some x → fuseReady s = true → u = s.set Fld.DBG_FUSE_STAT_BUSY 0 →
      v = ((fuseWrite x.args (sliceBytes x.args 8 (fuseSize (leAt x.args 0 1))) u).fuseUpd (fun f => { f with marks := f.marks ++ [fuseField x.args] })).set Fld.DBG_FUSE_STAT_RESULT 1 →
      fuseEnd id false false got s = cmdDone x.id 0 (leBytes 2 (Config.fuseBitmap v.fuses.marks).toNat) v) ∧
  (∀ (id : Nat) (bad : Bool) (got : BitVec 128) (x : Cmd) (s : State), s.cmdId id = some x → (fuseEnd id true bad got s).fuses.marks = s.fuses.marks) ∧
  (∀ (dev : BitVec 7) (off : Fin 4096) (len : Fin 256) (s : State), dev.toNat = smbAddr s → SmbOpen s → Runs (.smbMbxRead dev off len) s fun t =>
      t = { s with out := t.out } ∧ ∃ pec, t.out = .smb 0 ((List.range len).map fun i => byteAt s (mbxBase 4 + off + i)) pec :: s.out) ∧
  (∀ (dev : BitVec 7) (s : State), dev.toNat = smbAddr s → SmbOpen s → Runs (.smbAttn dev) s fun t =>
      t = { s with out := t.out } ∧ ∃ pec, t.out = .smb 0 (leBytes 2 (s.word 0x788010).toNat) pec :: s.out) ∧
  (∀ (dev : BitVec 7) (a : BitVec 32) (v : Word) (s u : State), dev.toNat = smbAddr s → SmbOpen s → busRead .bc (a.toNat - a.toNat % 4) s = (u, .ok v) →
      Runs (.smbRegRead dev a) s fun t => t = { u with out := t.out } ∧ ∃ pec, t.out = .smb 0 (leBytes 4 v.toNat) pec :: u.out) ∧
  (∀ (dev : BitVec 7) (pec : Bool) (a v : BitVec 32) (r : Word) (s u : State), dev.toNat = smbAddr s → SmbOpen s → (s.isSet Fld.MBX_SMB_CFG_PEC_REQ = false ∨ pec = true) →
      busWrite .bc (a.toNat - a.toNat % 4) v.toNat s = (u, .ok r) →
      Runs (.smbRegWrite dev pec a v) s fun t => t = { u with out := t.out } ∧ ∃ p, t.out = .smb 0 [] p :: u.out) ∧
  (∀ (dev : BitVec 7) (a v : BitVec 32) (s : State), dev.toNat = smbAddr s → SmbOpen s → s.isSet Fld.MBX_SMB_CFG_PEC_REQ = true →
      exec (.smbRegWrite dev false a v) s = .next (s.inc Fld.MBX_SMB_CNT_PEC_ERR 1)) ∧
  (∀ (dev : BitVec 7) (off : Fin 4096) (data : List (BitVec 8)) (s : State), dev.toNat = smbAddr s → SmbOpen s → s.isSet Fld.MBX_SMB_CFG_PEC_REQ = true →
      exec (.smbMbxWrite dev false off data) s = .next (s.inc Fld.MBX_SMB_CNT_PEC_ERR 1)) ∧
  (∀ (dev : BitVec 7) (pec : Bool) (off : Fin 4096) (data : List (BitVec 8)) (s u : State), dev.toNat = smbAddr s → SmbOpen s → (s.isSet Fld.MBX_SMB_CFG_PEC_REQ = false ∨ pec = true) →
      smbFill 4 ((List.range (data.length / 4)).map fun i => (off.val + 4 * i, leAt data (4 * i) 4)) false s = (u, false) → exec (.smbMbxWrite dev pec off data) s = .next u) ∧
  (∀ (dev : BitVec 7) (off : Fin 4096) (len : Fin 256) (s : State), s.mode = .preserve ∨ dev.toNat ≠ smbAddr s ∨ s.dev.relTicks < 2000 →
      exec (.smbAttn dev) s = .next s ∧ exec (.smbMbxRead dev off len) s = .next s) ∧
  (∀ (dev : BitVec 7) (a : BitVec 32) (pec : Bool) (v : BitVec 32) (s : State), s.mode = .preserve ∨ dev.toNat ≠ smbAddr s ∨ s.dev.relTicks < 2000 →
      exec (.smbRegRead dev a) s = .next s ∧ exec (.smbRegWrite dev pec a v) s = .next s) ∧
  (∀ (dev : BitVec 7) (s : State), dev.toNat = smbAddr s → 2000 ≤ s.dev.relTicks → s.dev.sysRst = false → s.mode ≠ .preserve → s.pwr.smbHeld = none → s.restGated = true →
      exec (.smbAttn dev) s = .next (smbMatch .attn s)) ∧
  (∀ (r : SmbReq) (s : State), s.pwr.smbHeld = some r → s.restGated = false → smbServe s = smbRun r (s.pwrUpd fun p => { p with smbHeld := none }))

/-- Freewheel entry (1) ends in Freewheel (2); its exit clears the state; under IDLE_SLEEP firmware orders it after 2,000 idle strokes, to
be ranked at the end of the stroke (logs 232, 234: the model's choices); Rest entry (3) begins once, clears the wake latches and puts DRAM
in self-refresh, and when complete the device is in Rest (4) with its PLLs unlocked. A noted wake event in Freewheel or Rest starts the
exit (5) and is recorded in KS_LAST_WAKE; without one nothing happens. An exit from Rest ends awake. (R420, R421, R423, R424, R427, R428;
derived) -/
def Obligations.SleepStatesAndWaking : Prop :=
  (∀ (s : State), s.sleepState = 1 → Runs .freewheelEntry s fun t => t.get Fld.CRP_SLEEP_STATE = 2 ∧ t.now = s.now) ∧
  (∀ (s : State), s.sleepState ≠ 1 → exec .freewheelEntry s = .next s) ∧
  (∀ (s : State), s.sleepState = 5 → s.pwr.leaving = 1 → Runs .freewheelExit s fun t => t.get Fld.CRP_SLEEP_STATE = 0 ∧ t.pwr.leaving = 0 ∧ t.pwr.busyAt = s.pwr.busyAt) ∧
  (∀ (s : State), s.isSet Fld.CRP_LEVEL_IDLE_SLEEP = true → s.awake = true → maySleep s = true → noDescs s = true → 2000 ≤ s.since s.pwr.busyAt → ([0, 1, 2, 3].any (coreRuns s)) = true →
      exec .idleSleepOrder s = .next (s.pwrUpd fun p => { p with fwWant := some .sleep })) ∧
  (∀ (s : State), s.isSet Fld.CRP_LEVEL_IDLE_SLEEP = false → exec .idleSleepOrder s = .next s) ∧
  (∀ (l1 : Bool) (s : State), s.sleepState = 3 → s.pwr.begun = false → s.linkUp = false → Runs (.restEntry l1) s fun t => t.get Fld.DRC_STATUS_SELF_REFRESH = 1 ∧ t.pwr.begun = true ∧
      t.word Adr.KS_WAKE_LATCH_LO = 0 ∧ t.word Adr.KS_WAKE_LATCH_HI = 0) ∧
  (∀ (s : State), s.sleepState = 3 → s.pwr.begun = true → Runs .restEntryComplete s fun t => t.inRest = true ∧ t.get Fld.CRP_CLK_SYS_LOCK = 0 ∧ t.now = s.now) ∧
  (∀ (n : Nat) (entry : Bool) (s : State), s.pwr.wake = some (n, entry) → s.sleepState = 4 → n < 288 → Runs .wakeEvent s fun t => t.get Fld.CRP_SLEEP_STATE = 5 ∧ t.pwr.leaving = 2 ∧
      t.get Fld.KS_LAST_WAKE_SOURCE = n ∧ t.get Fld.KS_LAST_WAKE_DURING_ENTRY = entry.toNat ∧ t.get Fld.KS_LAST_WAKE_FROM = 2 ∧ t.word Adr.KS_LAST_WAKE_TS = s.word Adr.KS_TIME) ∧
  (∀ (n : Nat) (entry : Bool) (s : State), s.pwr.wake = some (n, entry) → s.sleepState = 2 → n < 288 → Runs .wakeEvent s fun t => t.get Fld.CRP_SLEEP_STATE = 5 ∧ t.pwr.leaving = 1 ∧
      t.get Fld.KS_LAST_WAKE_SOURCE = n ∧ t.get Fld.KS_LAST_WAKE_FROM = 1) ∧
  (∀ (s : State), s.pwr.wake = none → exec .wakeEvent s = .next s) ∧
  (∀ (s : State), s.sleepState = 5 → s.pwr.leaving = 2 → s.linkUp = false → ([0, 1, 2, 3].all fun p => s.lbState p != 6) = true → Runs .restExit s fun t => t.get Fld.CRP_SLEEP_STATE = 0 ∧
      t.pwr.leaving = 0 ∧ t.pwr.ringAt = some s.now ∧ t.get Fld.DRC_STATUS_SELF_REFRESH = 0)

/-- A watchdog expiry of a running core makes its fence due and raises 282; one of a fenced core does nothing. A core
without a due fence is not fenced; one with a parity error, among three unfenced others, is counted. A fault stop sets
STOP with its reason; while one runs, another changes nothing. A restart, ordered by a failed check, sets RESTARTING, counts, and frees the fences due; after
three in the window it is a fault stop for reason 3. Its end, with the first copy the ROM accepts, clears RESTARTING, returns the cores to the PLLs and shows that copy and its release;
with none it goes on. A parity error of DEV raises source 15. An SRAM error counts
and makes a restart due. The order of the copies and the sleep exit at a fault stop are the model's choices (logs 233, 241). (R436, R437, R438, R440, R441, R443; derived) -/
def Obligations.CoreFaultsRestartsAndStops : Prop :=
  (∀ (core : Fin 4) (s : State), s.coreFenced core = false → s.isSet Fld.DEV_FAULT_STATUS_RESTARTING = false → s.inRest = false → Runs (.coreWatchdogExpiry core) s fun t =>
      t.flt.fenceDue = s.flt.fenceDue ++ [(core.val, 1)] ∧ isPending t 282 = true) ∧
  (∀ (core : Fin 4) (s : State), s.coreFenced core = true → exec (.coreWatchdogExpiry core) s = .next s) ∧
  (∀ (core : Fin 4) (just : Option (Fin 1032)) (s : State), s.flt.fenceDue.contains (core.val, 1) = false → exec (.coreFence core false just) s = .next s) ∧
  (∀ (core : Fin 4) (s : State), s.coreFenced core = false → unfenced s ≠ [core.val] → s.flt.fenceDue = [] → Runs (.coreFence core true none) s fun t =>
      t.coreFenced core = true ∧ t.get Fld.DEV_FAULT_CNT_CORE_FENCES = min Fld.DEV_FAULT_CNT_CORE_FENCES.max (s.get Fld.DEV_FAULT_CNT_CORE_FENCES + 1)) ∧
  (∀ (reason : Fin 6) (s : State), s.flt.stopRuns = false → Runs (.faultStop reason) s fun t => t.isSet Fld.DEV_FAULT_STATUS_STOP = true ∧
      t.get Fld.DEV_FAULT_STATUS_STOP_REASON = reason.val + 1 ∧ t.get Fld.DEV_FAULT_LOG_CODE = 0x13 ∧ t.flt.stopRuns = true) ∧
  (∀ (reason : Fin 6) (s : State), s.flt.stopRuns = true → exec (.faultStop reason) s = .next s) ∧
  (∀ (just : List (Fin 1032)) (s : State), s.flt.restartDue = none → s.isSet Fld.DEV_FAULT_STATUS_RESTARTING = false → s.mode ≠ .preserve → 3 ≤ (recentRestarts s).length → s.flt.stopRuns = false →
      Runs (.firmwareRestart true just) s fun t => t.get Fld.DEV_FAULT_STATUS_STOP_REASON = 3 ∧ t.isSet Fld.DEV_FAULT_STATUS_RESTARTING = false) ∧
  (∀ (just : List (Fin 1032)) (s : State), s.flt.restartDue = none → exec (.firmwareRestart false just) s = .next s) ∧
  (∀ (s : State), s.flt.restartDue = none → s.isSet Fld.DEV_FAULT_STATUS_RESTARTING = false → s.mode ≠ .preserve → (recentRestarts s).length < 3 → Runs (.firmwareRestart true []) s fun t =>
      t.isSet Fld.DEV_FAULT_STATUS_RESTARTING = true ∧ t.flt.restartDue = some 3 ∧ t.flt.fenceDue = [] ∧ t.flt.restartAt = s.now ∧ t.now = s.now) ∧
  (∀ (rejected : Fin 4) (k : Nat) (bad : List Nat) (s : State), s.restarting = true → restartCopy rejected s = some (k, bad) → k < 4 →
      Runs (.firmwareRestartComplete rejected) s fun t => t.isSet Fld.DEV_FAULT_STATUS_RESTARTING = false ∧
      t.flt.restartDue = none ∧ t.get Fld.DEV_FAULT_LOG_CODE = 0x12 ∧ t.get Fld.DEV_BOOT_COPY = k ∧ t.get Fld.CRP_CLK_RING_OSC = 0 ∧ t.word Adr.DEV_FWREV = s.fwCopy k) ∧
  (∀ (rejected : Fin 4) (s : State), s.restarting = true → restartCopy rejected s = none → exec (.firmwareRestartComplete rejected) s = .next s) ∧
  (∀ (rejected : Fin 4) (s : State), s.isSet Fld.DEV_FAULT_STATUS_RESTARTING = false → exec (.firmwareRestartComplete rejected) s = .next s) ∧
  (∀ (s : State), s.inRest = false → Runs (.internalParityError .dev) s fun t => isPending t 15 = true ∧ t.get Fld.DEV_FAULT_LOG_CODE = 0x60 ∧ t.now = s.now) ∧
  (∀ (a : BitVec 32) (s : State), s.isSet Fld.DEV_FAULT_STATUS_RESTARTING = false → s.flt.restartDue = none → Runs (.sramUncorrectableError a) s fun t => t.flt.restartDue = some 2 ∧
      t.get Fld.DEV_SRAM_ECC_UNCORR = min Fld.DEV_SRAM_ECC_UNCORR.max (s.get Fld.DEV_SRAM_ECC_UNCORR + 1))

/-- A read by a core is one read of the bus; it answers the word, or of a read of fewer bytes those that are enabled. A write
with all four byte enables is one write of the bus, without the clears of bits that hardware sets in the same cycle; one
with fewer is dropped (before the map is asked: the model's choice, log 213); one of eight bytes is one of the bus's 8-byte writes. The host's read answers a completion, its read and its write
wait in the receive buffers behind its earlier posted writes (the order is the model's reading, log 206); a refused read is recorded at once and answered Completer Abort; a function that does not exist answers
Unsupported Request. Its reads of CTX_PERSIST, with an aperture, and CTX_WFENCE are held and answer later. An access to a block that gives no answer is recorded and a read answers all ones. Where
the internal map refuses a core, the read changes what the refusal records and answers a bus error. That a misaligned address
is its word's is the model's choice (log 165). (R7, R8, R9, R88, R147, R216, R220, R254, R445, R464, R466; derived) -/
def Obligations.RegisterAccesses : Prop :=
  (∀ (c : Fin 4) (a : BitVec 32) (be : BitVec 8) (v : Word) (s u : State), be.toNat % 16 = 15 → busRead (.core c) (a.toNat - a.toNat % 4) s = (u, .ok v) →
      exec (.registerRead (.core c) a be false) s = .next (emit (.reg (.core c) v) u)) ∧
  (∀ (c : Fin 4) (a : BitVec 32) (be : BitVec 8) (v : Word) (s u : State), be.toNat % 16 ≠ 15 → busRead (.core c) (a.toNat - a.toNat % 4) s = (u, .ok v) →
      exec (.registerRead (.core c) a be false) s = .next (emit (.regPart (.core c) (enabledBytes (be.toNat % 16) (leBytes 4 v.toNat))) u)) ∧
  (∀ (c : Fin 1024) (a : BitVec 32) (be : BitVec 8) (v : Word) (s u : State), HostTurn s c → ((hostNoted s).fn c).enabled = true → heldAddr (a.toNat - a.toNat % 4) = false →
      hostPasses (hostNoted s) c (a.toNat - a.toNat % 4) false = true → busRead (.host c) (a.toNat - a.toNat % 4) (hostNoted s) = (u, .ok v) →
      exec (.registerRead (.host c) a be false) s = .next (emit (.cpl c 0 (enabledBytes (be.toNat % 16) (leBytes 4 v.toNat))) u)) ∧
  (∀ (c : Fin 1024) (a : BitVec 32) (be : BitVec 8) (s : State), HostOpen s → ((hostNoted s).fn c).enabled = true → heldAddr (a.toNat - a.toNat % 4) = false →
      hostPasses (hostNoted s) c (a.toNat - a.toNat % 4) false = true → writesAhead s c s.cad.nextId = true →
      exec (.registerRead (.host c) a be false) s = .next (rxHold c s.now false (.req (.registerRead (.host c) a be false)) (hostNoted s))) ∧
  (∀ (a : BitVec 32) (be : BitVec 8) (e : Nat) (s : State), HostOpen s → ((hostNoted s).fn 0).enabled = true → 0x100000 ≤ a.toNat - a.toNat % 4 → a.toNat - a.toNat % 4 < 0x4000000 →
      mapCause (hostNoted s) (.host 0) (a.toNat - a.toNat % 4) false = some e →
      exec (.registerRead (.host 0) a be false) s = .next (abortRead 0 (a.toNat - a.toNat % 4) 4 (mapRefused (.host 0) (a.toNat - a.toNat % 4) 4 false e (hostNoted s)))) ∧
  (∀ (c : Fin 1024) (a : BitVec 32) (be : BitVec 8) (s : State), HostOpen s → ((hostNoted s).fn c).enabled = true → a.toNat - a.toNat % 4 = 0x104 →
      exec (.registerRead (.host c) a be false) s = .next (wfenceRead c (be.toNat % 16) (hostNoted s)) ∧
      Runs (.registerRead (.host c) a be false) s fun t => (t.ctx c).wfence.length = (s.ctx c).wfence.length + 1 ∧ t.out = s.out) ∧
  (∀ (c : Fin 1024) (a : BitVec 32) (be : BitVec 8) (x : Nat) (s : State), HostOpen s → ((hostNoted s).fn c).enabled = true → a.toNat - a.toNat % 4 = 0x100 → ((hostNoted s).ctx c).apt = some x →
      exec (.registerRead (.host c) a be false) s = .next (persistRead c (be.toNat % 16) none (hostNoted s)) ∧
      Runs (.registerRead (.host c) a be false) s fun t => (t.ctx c).persist.length = (s.ctx c).persist.length + 1 ∧ t.out = s.out) ∧
  (∀ (c : Fin 1024) (a : BitVec 32) (be : BitVec 8) (wide : Bool) (s : State), HostOpen s → ((hostNoted s).fn c).enabled = false → hostBehind s c = false →
      exec (.registerRead (.host c) a be wide) s = .next (emit (.cpl c 1 []) (hostNoted s))) ∧
  (∀ (c : Fin 1024) (a : BitVec 32) (be : BitVec 8) (v met : BitVec 64) (s : State), HostOpen s → s.ds.full = false → ((hostNoted s).fn c).enabled = true → be.toNat % 16 = 15 →
      hostPasses (hostNoted s) c (a.toNat - a.toNat % 4) true = true → writesAhead s c s.cad.nextId = true →
      exec (.registerWrite (.host c) a be false v met) s = .next (rxHold c s.now false (.req (.registerWrite (.host c) a be false v met)) (hostNoted s))) ∧
  (∀ (c : Fin 1024) (a : BitVec 32) (be : BitVec 8) (v met : BitVec 64) (s : State), HostTurn s c → s.ds.full = false → ((hostNoted s).fn c).enabled = true → be.toNat % 16 ≠ 15 →
      exec (.registerWrite (.host c) a be false v met) s = .next (hostNoted s)) ∧
  (∀ (c : Fin 4) (a : BitVec 32) (be : BitVec 8) (e : Nat) (s : State), mapCause s (.core c) (a.toNat - a.toNat % 4) false = some e →
      exec (.registerRead (.core c) a be false) s = .next (mapRefused (.core c) (a.toNat - a.toNat % 4) 4 false e s)) ∧
  (∀ (c : Fin 4) (a : BitVec 32) (be : BitVec 8) (v met : BitVec 64) (s : State), be.toNat % 16 = 15 →
      exec (.registerWrite (.core c) a be false v met) s = .next (busWrite (.core c) (a.toNat - a.toNat % 4)
        (unmet s (.core c) (a.toNat - a.toNat % 4) (v.toNat % 2 ^ 32) (met.toNat % 2 ^ 32)) s).1) ∧
  (∀ (c : Fin 4) (a : BitVec 32) (be : BitVec 8) (v met : BitVec 64) (s : State), be.toNat % 16 ≠ 15 → exec (.registerWrite (.core c) a be false v met) s = .next s) ∧
  (∀ (c : Fin 4) (a : BitVec 32) (be : BitVec 8) (v met : BitVec 64) (s : State),
      exec (.registerWrite (.core c) a be true v met) s = .next (busWrite8 (.core c) (a.toNat - a.toNat % 4) be v met s).1) ∧
  (∀ (c : Fin 4) (a : BitVec 32) (s : State), inBlocks (a.toNat - a.toNat % 4) = true → mapCause s (.core c) (a.toNat - a.toNat % 4) false = none →
      exec (.registerAnswerTimeout (.core c) a false) s = .next (emit (.reg (.core c) 0xFFFFFFFF) (recordGated (.core c) (a.toNat - a.toNat % 4) false
        (!blockGated s (blockOf (a.toNat - a.toNat % 4))) s))) ∧
  (∀ (c : Fin 4) (a : BitVec 32) (s : State), inBlocks (a.toNat - a.toNat % 4) = true → mapCause s (.core c) (a.toNat - a.toNat % 4) true = none →
      exec (.registerAnswerTimeout (.core c) a true) s = .next (recordGated (.core c) (a.toNat - a.toNat % 4) true
        (!blockGated s (blockOf (a.toNat - a.toNat % 4))) s)) ∧
  (∀ (c : Fin 4) (a : BitVec 32) (write : Bool) (s : State), inBlocks (a.toNat - a.toNat % 4) = false → exec (.registerAnswerTimeout (.core c) a write) s = .next s)

/-- PFS_TRIG.GO triggers source bit 0; a PHOTO_N edge raises source 6, and with PIN_EN 1 triggers source bit 1. No latch is taken where none is
due; one due is taken at the boundary, with VALID, its sources, its stroke, and LATE where the trigger named another. ARM frees the snapshot and arms the block. TAP reset selects IDCODE (1) and closes the session; IDCODE shifts out
0x1968058F; SAMPLE is always honoured; EXTEST, CLAMP and HIGHZ at scan time act on the balls unless BSCAN_OFF, which makes them BYPASS; BYPASS
selects 0xFF; DAP acts as BYPASS under DAP_OFF. A debug access without DAP selected does nothing; the first opens the
session, raising source 7, and counts. The captured instruction 0b0000_0001 is shifted out with each instruction, and 0 by the bypass register (the standard's, log 239); the boundary of a latch,
and the session over a system reset, are the model's choices (logs 173, 240). (R452, R453, R455, R456, R457, R458, R459, R460; derived) -/
def Obligations.PhotoFinishAndTap : Prop :=
  (∀ (s : State), exec .pfsTrigGo s = .next (pfsTrigger 0 s)) ∧
  (∀ (s : State), s.isSet Fld.PFS_CTL_PEL = false → s.isSet Fld.PFS_STAT_VALID = false → s.pfs.pel = none → s.pfs.due = none →
      Runs .pfsTrigGo s fun t => t.pfs.due = some (s.now + 1, 1) ∧ t.regs = s.regs) ∧
  (∀ (s : State), s.isSet Fld.PFS_CTL_PEL = false → s.isSet Fld.PFS_STAT_VALID = true → exec .pfsTrigGo s = .next (s.inc Fld.PFS_STAT_MISSED 1)) ∧
  (∀ (s : State), (raise 6 s).isSet Fld.PFS_CTL_PIN_EN = false → exec .photoNEdge s = .next (raise 6 s)) ∧
  (∀ (s : State), (raise 6 s).isSet Fld.PFS_CTL_PIN_EN = true → exec .photoNEdge s = .next (pfsTrigger 1 (raise 6 s))) ∧
  (∀ (s : State), s.inRest = false → s.isSet Fld.PFS_CTL_PIN_EN = true → s.isSet Fld.PFS_CTL_PEL = false → s.isSet Fld.PFS_STAT_VALID = false → s.pfs.pel = none → s.pfs.due = none →
      Runs .photoNEdge s fun t => t.pfs.due = some (s.now + 1, 2) ∧ isPending t 6 = true) ∧
  (∀ (s : State), pfsDueNow s = none → exec .photoLatch s = .next s) ∧
  (∀ (v : Stroke) (src : Nat) (s : State), pfsDueNow s = some (v, src) → exec .photoLatch s = .next { s with deferred := s.deferred ++ [.photo] }) ∧
  (∀ (v : Stroke) (src : Nat) (s : State), src < 16 → let t := pfsLatch v src s
      t.isSet Fld.PFS_STAT_VALID = true ∧ t.isSet Fld.PFS_STAT_ARMED = false ∧ t.get Fld.PFS_STAT_SRC = src ∧ t.get Fld.PFS_TS_LO_STROKE_LO = (s.now + 1).toNat % 2 ^ 32 ∧
        t.pfs.due = none ∧ (v = s.now + 1 → t.isSet Fld.PFS_STAT_LATE = s.isSet Fld.PFS_STAT_LATE) ∧ (v ≠ s.now + 1 → t.isSet Fld.PFS_STAT_LATE = true)) ∧
  (∀ (s : State), Runs .pfsArm s fun t => t.get Fld.PFS_STAT_VALID = 0 ∧ t.get Fld.PFS_STAT_ARMED = 1 ∧ t.get Fld.PFS_STAT_SRC = 0 ∧ t.get Fld.PFS_STAT_MISSED = s.get Fld.PFS_STAT_MISSED) ∧
  (∀ (s : State), Runs .tapReset s fun t => t.tap.instr = 1 ∧ t.tap.drive = 0 ∧ t.tap.opened = false ∧ t.get Fld.DBG_STATUS_SESSION = 0) ∧
  (∀ (s : State), exec .idcode s = .next (emit (.jtag 32 0x1968058F) (tapSelect 1 0 (emit (.jtag 8 1) s)))) ∧
  (∀ (sampled cells : BitVec 2157) (s : State), Runs (.samplePreload sampled cells) s fun t => t.tap.cells = cells ∧ t.tap.instr = 2 ∧ t.out = .jtag 2157 sampled.toNat :: .jtag 8 1 :: s.out) ∧
  (∀ (sampled cells : BitVec 2157) (s : State), scanTime s = true → bitOf (s.word Adr.DBG_POLICY).toNat 1 = false → Runs (.extest sampled cells) s fun t => t.tap.cells = cells ∧
      t.tap.instr = 3 ∧ t.tap.drive = 1 ∧ t.out = .jtag 2157 sampled.toNat :: .jtag 8 1 :: s.out) ∧
  (∀ (s : State), scanTime s = true → bitOf (s.word Adr.DBG_POLICY).toNat 1 = false → exec .clamp s = .next (emit (.jtag 1 0) (tapSelect 4 2 (emit (.jtag 8 1) s)))) ∧
  (∀ (s : State), scanTime s = true → bitOf (s.word Adr.DBG_POLICY).toNat 1 = false → exec .highz s = .next (emit (.jtag 1 0) (tapSelect 5 3 (emit (.jtag 8 1) s)))) ∧
  (∀ (sampled cells : BitVec 2157) (s : State), scanTime s = true → bitOf (s.word Adr.DBG_POLICY).toNat 1 = true → exec (.extest sampled cells) s = exec .bypass s ∧
      exec .clamp s = exec .bypass s ∧ exec .highz s = exec .bypass s) ∧
  (∀ (s : State), scanTime s = false → s.inRest = false → Runs .clamp s fun t => t.tap.instr = 0xFF ∧ t.tap.drive = 0 ∧ t.get Fld.DBG_DENY_CAUSE = 4 ∧ isPending t 269 = true) ∧
  (∀ (s : State), exec .bypass s = .next (emit (.jtag 1 0) (tapSelect 0xFF 0 (emit (.jtag 8 1) s)))) ∧
  (∀ (s : State), bitOf (s.word Adr.DBG_POLICY).toNat 0 = true → exec .dap s = exec .bypass s) ∧
  (∀ (s : State), bitOf (s.word Adr.DBG_POLICY).toNat 0 = false → exec .dap s = .next (tapSelect 0x10 0 (emit (.jtag 8 1) s))) ∧
  (∀ (a : BitVec 32) (write : Bool) (data : BitVec 32) (s : State), s.tap.instr ≠ 0x10 ∨ dapOff s = true → exec (.dapAccessGo a write data) s = .next s) ∧
  (∀ (a data : BitVec 32) (r : BusAns) (s u : State), s.tap.instr = 0x10 → dapOff s = false → s.tap.opened = false →
      busRead .debug (a.toNat - a.toNat % 4) (raise 7 ((s.set Fld.DBG_STATUS_SESSION 1).tapUpd fun t => { t with opened := true })) = (u, r) →
      exec (.dapAccessGo a false data) s = .next (dapDone r u)) ∧
  (∀ (a data : BitVec 32) (r : BusAns) (s u : State), s.tap.instr = 0x10 → dapOff s = false → s.tap.opened = true → busRead .debug (a.toNat - a.toNat % 4) (s.set Fld.DBG_STATUS_SESSION 1) = (u, r) →
      exec (.dapAccessGo a false data) s = .next (dapDone r u))

/-- Loss of the supplies leaves them lost with SYS_RST_N held and BOOT; when they are already lost nothing changes. The crystal starts
KS_SLOW once VDD_KS is in tolerance. A DRAM alert counts and raises 158 + channel. A host link in Recovery (3) returns to L0 (1), or to
L0p (2) with the width that L0p had narrowed (the model's choice, log 207). An L0p request of a width that cannot hold the C0 reservations
is declined. Link-layer errors are logged by kind, a FLIT that FEC corrected counts in units of 1,024. A marker row restores sync, and
with the new epoch on six lanes brings the new map into force. INIT is sent only in PARAM; a replayed cell is sent first. The marker row
that carries a new map, and a row without its conditions, are the model's choices (logs 4, 183). (R47, R48, R74, R91, R92, R271, R309,
R318, R325, R334; derived) -/
def Obligations.SuppliesLinksAndTransmitter : Prop :=
  (∀ (s : State), s.dev.supplies = true → Runs .supplyLoss s fun t => t.dev.supplies = false ∧ t.dev.sysRst = true ∧ t.mode = .boot ∧ t.fuses = s.fuses ∧ t.pending = s.pending) ∧
  (∀ (s : State), s.dev.supplies = false → exec .supplyLoss s = .next s) ∧
  (∀ (s : State), s.dev.ksReady = true → exec .ksXtalStart s = .next (s.devUpd fun d => { d with ksSlow := true })) ∧
  (∀ (ch : Fin 2) (s : State), s.inRest = false → Runs (.dramAlert ch) s fun t => isPending t (158 + ch.val) = true ∧
      t.get (Fld.DRC_ECC_CNT_ALERT ch) = min (Fld.DRC_ECC_CNT_ALERT ch).max (s.get (Fld.DRC_ECC_CNT_ALERT ch) + 1)) ∧
  (∀ (s : State), s.get Fld.HL_LINK_STATUS_LSTATE = 3 → Runs .hlRecoveryExit s fun t => t.hl.recClear = some (s.now + 3) ∧
      t.get Fld.HL_LINK_STATUS_LSTATE = (if s.get Fld.HL_LINK_STATUS_WIDTH < s.get Fld.HL_LINK_STATUS_TRAINED_WIDTH then 2 else 1) ∧ t.get Fld.HL_LINK_STATUS_WIDTH = s.get Fld.HL_LINK_STATUS_WIDTH) ∧
  (∀ (s : State), s.get Fld.HL_LINK_STATUS_LSTATE ≠ 3 → exec .hlRecoveryExit s = .next s) ∧
  (∀ (width : Fin 17) (s : State), s.isSet Fld.HL_LINK_STATUS_FLIT = true → s.get Fld.HL_LINK_STATUS_LSTATE = 1 → width.val ∈ linkWidths → width.val ≤ s.get Fld.HL_LINK_STATUS_TRAINED_WIDTH →
      widthHoldsC0 s width = false → exec (.l0pPartnerRequest width) s = .next (emit (.pcie 0 "L0p decline" width) s)) ∧
  (∀ (width : Fin 17) (s : State), s.isSet Fld.HL_LINK_STATUS_FLIT = true → s.get Fld.HL_LINK_STATUS_LSTATE = 1 → width.val ∈ linkWidths → width.val ≤ s.get Fld.HL_LINK_STATUS_TRAINED_WIDTH →
      widthHoldsC0 s width = true → exec (.l0pPartnerRequest width) s = .next (l0pTo width (emit (.pcie 0 "L0p accept" width) s))) ∧
  (∀ (s : State), exec (.hlLinkLayerError .badTlp) s = .next (aerCor 0 6 s)) ∧
  (∀ (s : State), exec (.hlLinkLayerError .badDllp) s = .next (aerCor 0 7 s)) ∧
  (∀ (s : State), exec (.hlLinkLayerError .replayTimer) s = .next (aerCor 0 12 (s.inc Fld.HL_ERR_CNT_REPLAY 1))) ∧
  (∀ (s : State), exec (.hlLinkLayerError .replayRollover) s = .next (aerCor 0 8 (s.inc Fld.HL_ERR_CNT_REPLAY 1))) ∧
  (∀ (s : State), exec (.hlLinkLayerError .receiver) s = .next (aerCor 0 0 (s.inc Fld.HL_ERR_CNT_RCV_ERR 1))) ∧
  (∀ (s : State), exec (.hlLinkLayerError .malformed) s = .next (aerTlp 0 18 s)) ∧
  (∀ (s : State), exec (.hlLinkLayerError .overflow) s = .next (aerTlp 0 17 s)) ∧
  (∀ (s : State), exec (.hlLinkLayerError .flowControl) s = .next (aerUnc 0 13 .none s)) ∧
  (∀ (s : State), exec (.hlLinkLayerError .dataLink) s = .next (aerUnc 0 4 .none s)) ∧
  (∀ (s : State), s.hl.fec < 1024 → Runs (.hlLinkLayerError .fec) s fun t => t.hl.fec = (s.hl.fec + 1) % 1024 ∧ t.get Fld.HL_ERR_CNT_FEC_CORR =
      if s.hl.fec = 1023 then min Fld.HL_ERR_CNT_FEC_CORR.max (s.get Fld.HL_ERR_CNT_FEC_CORR + 1) else s.get Fld.HL_ERR_CNT_FEC_CORR) ∧
  (∀ (k : Fin 4) (epoch : BitVec 8) (lanes : Fin 10) (flags : BitVec 8) (m : Nat) (s : State), (s.link k).newMap = some (epoch.toNat, m) → 6 ≤ lanes.val →
      Runs (.markerRowReceive k epoch lanes flags 0) s fun t => t.word (Adr.UL_MAP k) = BitVec.ofNat 32 m ∧ t.get (Fld.UL_LANES_EPOCH k) = epoch.toNat ∧ (t.link k).newMap = none ∧ (t.link k).lostSync = false) ∧
  (∀ (k : Fin 4) (epoch : BitVec 8) (lanes : Fin 10) (flags : BitVec 8) (s : State), (s.link k).newMap = none → s.get (Fld.UL_STATUS_LPM k) = 0 →
      exec (.markerRowReceive k epoch lanes flags 0) s = .next (s.linkUpd k fun l => { l with lostSync := false, syncErr := [], wrong := 0 })) ∧
  (∀ (k : Fin 4) (epoch : BitVec 8) (lanes : Fin 10) (flags : BitVec 8) (s : State), s.get (Fld.UL_STATUS_LPM k) = 1 ∧ flags.getLsbD 1 = false ∨ s.get (Fld.UL_STATUS_LPM k) = 2 ∧ flags.getLsbD 2 = true →
      Runs (.markerRowReceive k epoch lanes flags 0) s fun t => t.get (Fld.UL_STATUS_LPM k) = 0 ∧ (t.link k).busyAt = s.now) ∧
  (∀ (k : Fin 4) (s : State), inParam s k = true → ((s.link k).initAt = none ∨ ∃ t0, (s.link k).initAt = some t0 ∧ 4 ≤ s.since t0) → exec (.ulInitSend k) s = .next (sendBypass k 1 (initBody s k) (s.linkUpd k fun l => { l with initAt := some s.now }))) ∧
  (∀ (k : Fin 4) (t0 : Stroke) (s : State), (s.link k).initAt = some t0 → s.since t0 < 4 → exec (.ulInitSend k) s = .next s) ∧
  (∀ (k : Fin 4) (s : State), inParam s k = false → exec (.ulInitSend k) s = .next s) ∧
  (∀ (k : Fin 4) (c : UCell) (qs : List Nat) (s : State), ulCarries s k = true → s.get (Fld.UL_STATUS_LPM k) = 0 → (s.link k).replay = c.seq :: qs →
      ((s.link k).held.find? fun x => x.seq == c.seq) = some c → Runs (.ulEgressUnit k) s fun t => (t.link k).replay = qs ∧ (t.link k).held = (s.link k).held ∧
      t.out.head? = some (.cell k "CELL" c.seq (cellBytes s k c))) ∧
  (∀ (k : Fin 4) (s : State), ulCarries s k = false → exec (.ulEgressUnit k) s = .next s)

/-- The boot steps keep the fuses and NAND contents: at the release of SYS_RST_N STAGE is 1 and the stroke counter stands where it
was; the SYS PLL's lock leaves STAGE and starts the count; a copy accepted makes STAGE 4, none accepted 0xF, each in the
stroke it falls in. (R32, R51, R54, R55, R56, R69; derived) -/
def Obligations.BootStepsKeepFusesAndMedia : Prop :=
  (∀ (straps : BitVec 8) (s : State), s.dev.sysRst = true → s.dev.rstAtHalt = false →
      Runs (.sysRstNRelease straps) s fun t => t.get Fld.DEV_BOOT_STAGE = 1 ∧ t.dev.sysRst = false ∧ t.fuses = s.fuses ∧ t.ds.nand = s.ds.nand ∧
        t.now = s.now) ∧
  (∀ s : State, s.dev.rom = true → s.dev.counting = false →
      Runs .sysPllLock s fun t => t.dev.counting = true ∧ t.get Fld.DEV_BOOT_STAGE = s.get Fld.DEV_BOOT_STAGE ∧ t.fuses = s.fuses ∧ t.ds.nand = s.ds.nand) ∧
  (∀ (unread mute : BitVec 4) (s : State), trying s = true → firstGood unread mute s ≠ none →
      Runs (.bootCopyAccepted unread mute) s fun t => t.get Fld.DEV_BOOT_STAGE = 4 ∧ t.fuses = s.fuses ∧ t.ds.nand = s.ds.nand ∧ t.now = s.now) ∧
  (∀ (unread mute : BitVec 4) (s : State), trying s = true → firstGood unread mute s = none →
      Runs (.bootNoCopyAccepted unread mute) s fun t => t.get Fld.DEV_BOOT_STAGE = 0xF ∧ t.fuses = s.fuses ∧ t.ds.nand = s.ds.nand ∧ t.now = s.now)

/-- What the host's configuration writes leave alone. A configuration read of a ready function changes no register, no function and
nothing of the link, and answers four bytes. VF Enable set or cleared, VF FRS, Bus Master Enable, a move to D3hot, one out of it and the
return to D0 leave the fuses, NAND and the stroke counter unchanged and set the bits they name. The order of host requests is the model's
reading (log 206). (R76, R80, R81, R90, R95; derived) -/
def Obligations.ConfigurationWritesKeepTheirFrame : Prop :=
  (∀ (c dw : Fin 1024) (s : State), HostTurn s c → cfgOpen s c = true →
      Runs (.configRequest c dw none) s fun t => t.regs = s.regs ∧ t.fns = s.fns ∧ t.hl = s.hl ∧ t.ds = s.ds ∧
        ∃ d : List Byte, d.length = 4 ∧ t.out = .cpl c 0 d :: s.out) ∧
  (∀ (n : BitVec 16) (ari : Bool) (s : State), HostTurn s 0 → (s.fn 0).ready = true → s.hl.vfEnable = false → s.mode ≠ .maintenance → 1 ≤ n.toNat →
      n.toNat ≤ (if ari then 1023 else 7) → vfsLeft s = false →
      Runs (.vfEnableSet n ari) s fun t => t.hl.vfEnable = true ∧ t.fuses = s.fuses ∧ t.ds = s.ds ∧ t.now = s.now) ∧
  (∀ s : State, s.hl.vfWaitFrs = true → Runs .vfFrsSend s fun t => t.hl.vfWaitFrs = false ∧ t.regs = s.regs ∧ t.ctxs = s.ctxs ∧ t.ds = s.ds) ∧
  (∀ s : State, HostTurn s 0 → (s.fn 0).ready = true → s.hl.vfEnable = true →
      Runs .vfEnableClear s fun t => t.hl.vfEnable = false ∧ t.fuses = s.fuses ∧ t.ds.nand = s.ds.nand ∧ t.now = s.now) ∧
  (∀ (c : Fin 1024) (on : Bool) (s : State), HostTurn s c → cfgOpen s c = true →
      Runs (.busMasterEnableWrite c on) s fun t => (t.fn c).bme = on ∧ t.fuses = s.fuses ∧ t.ds.nand = s.ds.nand ∧ t.now = s.now) ∧
  (∀ (c : Fin 1024) (pme clr : Bool) (s : State), HostTurn s c → cfgOpen s c = true → (s.fn c).d3 = false →
      Runs (.pmcsrWrite c true pme clr) s fun t => (t.fn c).d3 = true ∧ t.fuses = s.fuses ∧ t.ds.nand = s.ds.nand ∧ t.now = s.now) ∧
  (∀ (c : Fin 1024) (pme clr : Bool) (s : State), HostTurn s c → cfgOpen s c = true → (s.fn c).d3 = true →
      Runs (.pmcsrWrite c false pme clr) s fun t => (t.fn c).d3 = false ∧ t.fuses = s.fuses ∧ t.ds.nand = s.ds.nand ∧ t.now = s.now) ∧
  (∀ (c : Fin 1024) (s : State), (s.fn c).d0due = true →
      Runs (.d0Return c) s fun t => (t.fn c).d0due = false ∧ t.fuses = s.fuses ∧ t.ds.nand = s.ds.nand ∧ t.now = s.now)

/-- Every beat the device drives carries odd parity on each byte, and of a packet's beats the first alone has its frame bit set; the idle
beat is data 0, parity 0xF, frame bit 0. A port that leaves RESET drives training blocks with its strobe, one locked on drives locked
blocks, and one that reaches INIT drives idle beats and sends its LINK INIT of five beats. (What leaves is recorded in the list out,
newest first: the model's choice, log 3.) (R174, R175, R177, R178, R188; derived) -/
def Obligations.BeatsAndLinesOfThePorts : Prop :=
  (∀ (d : Word) (frame : Bool), OddParity (beat d frame)) ∧
  (∀ ws : List Word, (∀ b ∈ packetBeats ws, OddParity b) ∧ (packetBeats ws).map Beat.data = ws ∧
      (packetBeats ws).map Beat.frame = (List.range ws.length).map (fun n => n == 0)) ∧
  lineBeat .idle 0 = some ⟨0, 0xF, false⟩ ∧
  (∀ (p : Fin 4) (s : State), s.lbState p = 0 → s.isSet (Fld.LB_CTL_EN p) = true → 2 ≤ s.since (s.lb p).since → s.mode = .standby ∨ s.mode = .serving ∨ s.mode = .draining →
      Runs (.lbResetExit p) s fun t => t.lbState p = 1 ∧ .lbTx p true .train ∈ t.out) ∧
  (∀ (p : Fin 4) (delays : List (BitVec 7)) (s : State), s.lbState p = 1 →
      Runs (.lbReceiverLock p delays) s fun t => t.lbState p = 2 ∧ .lbTx p true .locked ∈ t.out) ∧
  (∀ (p : Fin 4) (s : State), s.lbState p = 2 → (s.lb p).initRcvd = false →
      Runs (.lbLockedBlocksReceived p) s fun t => .lbTx p true .idle ∈ t.out ∧
        ∃ bs : List Beat, t.out.head? = some (.lb p bs) ∧ bs.length = 5 ∧ ∀ b ∈ bs, OddParity b)

/-- Outside PRESERVE a stripe is written only where the free-block reserve stands untouched after it: where STRIPE_WRITE changes the
stripes, the free page sets still cover the reserve (the table of programmed page sets being in its canonical form). Where garbage
collection, wear levelling or a refresh programs units, write amplification stays within the bound of Table 12-5 for the store's
over-provisioning. The unit of the reserve and what the ratio counts are the model's choices (logs 66, 224). (R288, R289, R290, R291,
R293; derived) -/
def Obligations.FlushAndReclaimKeepTheReserve : Prop :=
  (∀ (members : List NandBlock) (units : List (Fin 2048 × BitVec 32)) (s t : State), s.mode ≠ .preserve → tabWf (fun _ => 0) s.med.fill = true →
      exec (.stripeWrite members units) s = .next t → t.med.stripes ≠ s.med.stripes → reserveSets t ≤ freeSets t) ∧
  (∀ (v : NandBlock) (d : List (List NandBlock)) (s t : State) (b : Nat), exec (.garbageCollection v d) s = .next t → t.med.progs ≠ s.med.progs → waBound s = some b →
      100 * t.med.progs ≤ b * t.med.flushed) ∧
  (∀ (v : NandBlock) (d : List (List NandBlock)) (s t : State) (b : Nat), exec (.wearLevelling v d) s = .next t → t.med.progs ≠ s.med.progs → waBound s = some b →
      100 * t.med.progs ≤ b * t.med.flushed) ∧
  (∀ (v : NandBlock) (d : List (List NandBlock)) (after : Fin 11) (s t : State) (b : Nat), exec (.blockRefresh v d after) s = .next t → t.med.progs ≠ s.med.progs →
      waBound s = some b → 100 * t.med.progs ≤ b * t.med.flushed)

/-- After a cold power-on reset every signal of Table 02-3 has its reset state: electrical idle, high impedance, a level, a released open
drain, its input resistor, receivers without termination, the running oscillator, VID 0b111000. A system reset by SYS_RST_N puts the host
link, the ports with their resets, the DDR channels and the NAND channels back to theirs. The host link's signals leave them only when the
PLLs are locked after the ROM's start, HL_PERST_N is released and STRAP TEST is 0. What protected dirty data is, is the model's reading
(log 19). (R18, R33, R50, R51, R54, R177; derived) -/
def Obligations.OutputsInReset : Prop :=
  (∀ (b : Ball) (s : State), Runs .coldPowerOnReset s fun t => drives t b = resetLevel b) ∧
  (∀ (p n : Fin 4) (s : State), s.dev.sysRst = false → s.dev.supplies = true → s.mode ≠ .preserve → s.ds.dirty = [] →
      Runs .sysRstNAssertion s fun t => drives t .hlTx = .idle ∧ drives t .hlRx = .hiZ ∧ drives t .hlClkreqN = .low ∧ drives t (.lbTxd p) = .low ∧
        drives t (.lbTxsP p) = .low ∧ drives t (.lbTxsN p) = .high ∧ drives t (.lbRstN p) = .low ∧ drives t (.lbRx p) = .termOff ∧
        drives t (.ddrResetN n) = .low ∧ drives t (.ddrCsN n) = .high ∧ drives t (.nfWeN n) = .high ∧ drives t (.nfReN n) = .low) ∧
  (∀ s : State, drives s .hlTx = (if s.dev.rom = true ∧ s.dev.counting = true ∧ s.dev.perst = false ∧ s.isSet Fld.DEV_STRAP_TEST = false then .block else .idle)) ∧
  (∀ (b : Ball) (s : State), b ∈ [.hlRefclk, .hlPerstN, .hlRcal, .lbLint 0, .ddrAlertN 0, .nfRbN 0, .ksXtal, .photoN, .fuseEn, .strap, .tms, .tck] → drives s b = resetLevel b)

/-- What a port takes and sends leaves the other ports alone. On an ACTIVE port taking a LINK CREDIT, a NAK of a held SEQ, a link error
while none is outstanding, sending freed credits, a waiting NAK and a late BND credit change no other port, nothing of the store and no
fuse; a NAK timeout whose NAK was sent takes the port out of ACTIVE. How long a packet is held, and an error while a NAK is out, are the
model's choices (logs 3, 44, 45, 158). (R185, R186, R187, R189, R190, R192; derived) -/
def Obligations.PortTrafficKeepsTheOtherPorts : Prop :=
  (∀ (p q : Fin 4) (credits : BitVec 16) (s : State), q ≠ p → s.lbActive p = true →
      Runs (.linkCreditReceive p credits) s fun t => t.lb q = s.lb q ∧ t.ds = s.ds ∧ t.fuses = s.fuses ∧ t.regs = s.regs) ∧
  (∀ (p q : Fin 4) (seq : BitVec 8) (credits : BitVec 16) (i : Nat) (s : State), q ≠ p → s.lbActive p = true → (s.lb p).lastNak = none →
      ((s.lb p).held.findIdx? fun e => e.1 == seq.toNat) = some i →
      Runs (.linkNakReceive p seq credits) s fun t => t.lb q = s.lb q ∧ t.ds = s.ds ∧ t.fuses = s.fuses ∧ t.lbActive p = true) ∧
  (∀ (p q : Fin 4) (s : State), q ≠ p → s.lbActive p = true → (s.lb p).errOut = false →
      Runs (.lbLinkError p .crc none) s fun t => t.lb q = s.lb q ∧ t.ds = s.ds ∧ t.fuses = s.fuses ∧ (t.lb p).errOut = true) ∧
  (∀ (p : Fin 4) (s : State), s.lbActive p = true → (s.lb p).errOut = true → (s.lb p).naks = [] → (s.lb p).outFrame = none →
      Runs (.lbNakTimeout p) s fun t => t.lbState p = 0 ∧ (t.lb p).errOut = false) ∧
  (∀ (p q : Fin 4) (s : State), q ≠ p → s.lbActive p = true → ((s.lb p).freed.any (· != 0)) = true → (s.lb p).naks = [] → (s.lb p).replay = [] →
      c0Ready (s.lb p) = false →
      Runs (.lbCreditSend p) s fun t => t.lb q = s.lb q ∧ t.ds = s.ds ∧ t.fuses = s.fuses ∧ t.regs = s.regs ∧ t.out.length = s.out.length + 1) ∧
  (∀ (p q : Fin 4) (v : Stroke) (vs : List Stroke) (s : State), q ≠ p → s.lbActive p = true → (s.lb p).bndSent = v :: vs → 1 ≤ s.since v →
      Runs (.lbBndCreditLate p) s fun t => t.lb q = s.lb q ∧ t.ds = s.ds ∧ t.fuses = s.fuses ∧ t.isSet (Fld.LB_STATUS_BND_SHORT p) = true) ∧
  (∀ (p q : Fin 4) (n : Nat) (ns : List Nat) (s : State), q ≠ p → s.lbActive p = true → (s.lb p).naks = n :: ns → (s.lb p).lastNak = none →
      Runs (.lbEgressPacket p) s fun t => t.lb q = s.lb q ∧ t.ds = s.ds ∧ t.fuses = s.fuses ∧ (t.lb p).naks = ns)

/-- Writes of windows and routes leave everything else alone, and a routed item leaves its queue once. WIN_CTL and WIN_ATTR writes and a
write of a MSG route change no port, no item in progress and nothing of the store; an item delivered or dropped toward a peer without a
route leaves the queue of items, and changes neither store nor fuses. A register read of a core answers once and changes no more than its
bus access; a write without all four byte enables leaves registers and mode, and one that a block does not answer leaves the store. The
slots of a routed item and a partial write are the model's choices (logs 52, 213). (R7, R196, R198, R234, R239, R242; derived) -/
def Obligations.WindowAndRouteWritesKeepTheirFrame : Prop :=
  (∀ (c : Fin 1024) (w : Fin 16) (s : State), s.winOn c w = false →
      Runs (.winMap c w) s fun t => t.regs = s.regs ∧ t.lbs = s.lbs ∧ t.cad = s.cad ∧ t.ds = s.ds ∧ t.deferred.length = s.deferred.length + 1) ∧
  (∀ (c : Fin 1024) (w : Fin 16) (s : State),
      Runs (.winUnmap c w) s fun t => t.regs = s.regs ∧ t.lbs = s.lbs ∧ t.cad = s.cad ∧ t.ds = s.ds ∧ t.deferred.length = s.deferred.length + 1) ∧
  (∀ (c : Fin 1024) (w : Fin 16) (v : Word) (s : State),
      Runs (.winAttrWrite c w v) s fun t => t.lbs = s.lbs ∧ t.cad = s.cad ∧ t.ds = s.ds ∧ t.out = s.out ∧ t.deferred.length = s.deferred.length + 1) ∧
  (∀ (i : Fin 65536) (v : BitVec 64) (s : State),
      Runs (.routeEntryWrite (.msg i) v) s fun t => t.lbs = s.lbs ∧ t.cad = s.cad ∧ t.ds = s.ds ∧ t.out = s.out ∧ t.ritems = s.ritems) ∧
  (∀ (p : Fin 4) (r : RItem) (s : State), (s.ritems.find? fun r => r.port == p.val && !routePeer r.route) = some r → r.tested = true → routedMoved s r = true →
      (s.qp (routeCtx r.route) (routeQp r.route)).resv.head? = some r.id → s.hostOpen (routeCtx r.route) = true → (s.fn (routeCtx r.route)).atsEn = false →
      upWritesIssued s p r.id = true →
      Runs (.routedItemDelivery p) s fun t => t.ritems = s.ritems.filter (fun x => x.id != r.id) ∧ t.ds = s.ds ∧ t.fuses = s.fuses) ∧
  (∀ (p : Fin 4) (r : RItem) (s : State), (s.ritems.find? fun r => r.port == p.val) = some r → routePeer r.route = true → r.ready = true →
      upWritesIssued s p r.id = true → s.route (routeMember r.route) = none →
      Runs (.routedItemPeerSend p) s fun t => t.ritems = s.ritems.filter (fun x => x.id != r.id) ∧ t.ds = s.ds ∧ t.fuses = s.fuses) ∧
  (∀ (c : Fin 4) (a : BitVec 32) (be : BitVec 8) (v : Word) (s u : State), busRead (.core c) (a.toNat - a.toNat % 4) s = (u, .ok v) →
      Runs (.registerRead (.core c) a be false) s fun t => t.regs = u.regs ∧ t.mode = u.mode ∧ t.out.length = u.out.length + 1 ∧ t.pending = u.pending) ∧
  (∀ (c : Fin 4) (a : BitVec 32) (be : BitVec 8) (v met : BitVec 64) (s : State), be.toNat % 16 ≠ 15 →
      Runs (.registerWrite (.core c) a be false v met) s fun t => t.regs = s.regs ∧ t.out = s.out ∧ t.mode = s.mode) ∧
  (∀ (c : Fin 4) (a : BitVec 32) (s : State), inBlocks (a.toNat - a.toNat % 4) = true → mapCause s (.core c) (a.toNat - a.toNat % 4) false = none →
      Runs (.registerAnswerTimeout (.core c) a false) s fun t => t.out.head? = some (.reg (.core c) 0xFFFFFFFF) ∧ t.ds = s.ds ∧ t.fuses = s.fuses)
end

