-- ==== Sys2Proof/Laws/Table.lean ====
section
/-! SUPPORT. Laws/Table.lean: reading after writing a table, and the canonical form under every table operation. -/
set_option Elab.async false

namespace Sys2Proof.Machine

variable {α : Type}

theorem tabFind_tabPut_same (t : Table α) (k : Nat) (v : α) : tabFind (tabPut t k v) k = some v := by
  induction t with
  | nil => simp [tabPut, tabFind]
  | cons e t ih =>
    obtain ⟨j, w⟩ := e
    unfold tabPut
    split
    · simp [tabFind]
    · split <;> simp_all [tabFind]

theorem tabFind_tabPut_ne (t : Table α) {k j : Nat} (v : α) (h : j ≠ k) : tabFind (tabPut t k v) j = tabFind t j := by
  induction t with
  | nil => simp [tabPut, tabFind, h.symm]
  | cons e t ih =>
    obtain ⟨i, w⟩ := e
    unfold tabPut
    split
    · subst i; simp [tabFind, h.symm]
    · split <;> simp [tabFind, h.symm, ih]

theorem tabFind_tabDel_same (t : Table α) (k : Nat) : tabFind (tabDel t k) k = none := by
  induction t with
  | nil => rfl
  | cons e t ih => obtain ⟨i, w⟩ := e; unfold tabDel; split <;> simp_all [tabFind]

theorem tabFind_tabDel_ne (t : Table α) {k j : Nat} (h : j ≠ k) : tabFind (tabDel t k) j = tabFind t j := by
  induction t with
  | nil => rfl
  | cons e t ih =>
    obtain ⟨i, w⟩ := e
    unfold tabDel
    split
    · subst i; simp [tabFind, h.symm, ih]
    · simp [tabFind, ih]

@[simp] theorem tabGet_nil (d : Nat → α) (k : Nat) : tabGet d [] k = d k := rfl

theorem tabRising_mono {l l' : Nat} {t : Table α} (h : tabRising (some l) t = true) (hl : l' ≤ l) : tabRising (some l') t = true := by
  cases t with
  | nil => rfl
  | cons e t => obtain ⟨k, v⟩ := e; simp [tabRising] at h ⊢; exact ⟨by omega, h.2⟩

theorem tabRising_none {l : Nat} {t : Table α} (h : tabRising (some l) t = true) : tabRising none t = true := by
  cases t with
  | nil => rfl
  | cons e t => obtain ⟨k, v⟩ := e; simp [tabRising] at h ⊢; exact h.2

theorem tabRising_put {t : Table α} {l : Nat} (k : Nat) (v : α) (h : tabRising (some l) t = true) (hk : l < k) :
    tabRising (some l) (tabPut t k v) = true := by
  induction t generalizing l with
  | nil => simp [tabPut, tabRising, hk]
  | cons e t ih =>
    obtain ⟨j, w⟩ := e
    simp [tabRising] at h
    unfold tabPut
    split
    · subst j; simp [tabRising, hk, h.2]
    · split
      · simp [tabRising, hk, h.2]; assumption
      · simp [tabRising, h.1]; exact ih h.2 (by omega)

theorem tabRising_put_none {t : Table α} (k : Nat) (v : α) (h : tabRising none t = true) :
    tabRising none (tabPut t k v) = true := by
  cases t with
  | nil => simp [tabPut, tabRising]
  | cons e t =>
    obtain ⟨j, w⟩ := e
    simp [tabRising] at h
    unfold tabPut
    split
    · subst j; simp [tabRising, h]
    · split
      · simp [tabRising, h]; assumption
      · simp [tabRising]; exact tabRising_put k v h (by omega)

theorem tabRising_filter {t : Table α} {l : Nat} (p : Nat × α → Bool) (h : tabRising (some l) t = true) :
    tabRising (some l) (t.filter p) = true := by
  induction t generalizing l with
  | nil => rfl
  | cons e t ih =>
    obtain ⟨k, v⟩ := e
    simp [tabRising] at h
    rw [List.filter_cons]
    split
    · simp [tabRising, h.1]; exact ih h.2
    · exact ih (tabRising_mono h.2 (by omega))

theorem tabRising_filter_none {t : Table α} (p : Nat × α → Bool) (h : tabRising none t = true) :
    tabRising none (t.filter p) = true := by
  cases t with
  | nil => rfl
  | cons e t =>
    obtain ⟨k, v⟩ := e
    simp [tabRising] at h
    rw [List.filter_cons]
    split
    · simp [tabRising]; exact tabRising_filter p h
    · exact tabRising_none (tabRising_filter p h)

theorem tabDel_eq_filter (t : Table α) (k : Nat) : tabDel t k = t.filter (fun e => e.1 ≠ k) := by
  induction t with
  | nil => rfl
  | cons e t ih => obtain ⟨j, w⟩ := e; unfold tabDel; split <;> simp_all

theorem mem_tabPut {t : Table α} {k : Nat} {v : α} {e : Nat × α} (h : e ∈ tabPut t k v) : e = (k, v) ∨ e ∈ t := by
  induction t with
  | nil => simpa [tabPut] using h
  | cons x t ih =>
    obtain ⟨j, w⟩ := x
    unfold tabPut at h
    split at h
    · simp at h ⊢; tauto
    · split at h
      · simp at h ⊢; tauto
      · simp at h ⊢; rcases h with h | h
        · tauto
        · rcases ih h with h | h <;> tauto

variable [DecidableEq α]

/-- Reading the key that was written. -/
@[simp] theorem tabGet_tabSet_same (d : Nat → α) (t : Table α) (k : Nat) (v : α) : tabGet d (tabSet d t k v) k = v := by
  unfold tabSet tabGet
  split
  · simp_all [tabFind_tabDel_same]
  · simp [tabFind_tabPut_same]

/-- Reading another key. -/
theorem tabGet_tabSet_ne (d : Nat → α) (t : Table α) {k j : Nat} (v : α) (h : j ≠ k) :
    tabGet d (tabSet d t k v) j = tabGet d t j := by
  unfold tabSet tabGet
  split
  · rw [tabFind_tabDel_ne t h]
  · rw [tabFind_tabPut_ne t v h]

/-- Reading any key after a write. -/
theorem tabGet_tabSet (d : Nat → α) (t : Table α) (k j : Nat) (v : α) :
    tabGet d (tabSet d t k v) j = if j = k then v else tabGet d t j := by
  split
  · subst j; simp
  · exact tabGet_tabSet_ne d t v ‹_›

/-- A write keeps the canonical form. -/
theorem tabWf_tabSet (d : Nat → α) (t : Table α) (k : Nat) (v : α) (h : tabWf d t = true) : tabWf d (tabSet d t k v) = true := by
  simp only [tabWf, Bool.and_eq_true, List.all_eq_true, decide_eq_true_eq] at h ⊢
  unfold tabSet
  split
  · rw [tabDel_eq_filter]
    exact ⟨tabRising_filter_none _ h.1, fun e he => h.2 e (List.mem_filter.mp he).1⟩
  · refine ⟨tabRising_put_none k v h.1, fun e he => ?_⟩
    rcases mem_tabPut he with rfl | he
    · assumption
    · exact h.2 e he

/-- Dropping entries keeps the canonical form. -/
theorem tabWf_tabKeep (d : Nat → α) (p : Nat → Bool) (t : Table α) (h : tabWf d t = true) : tabWf d (tabKeep p t) = true := by
  simp only [tabWf, Bool.and_eq_true, List.all_eq_true, decide_eq_true_eq] at h ⊢
  exact ⟨tabRising_filter_none _ h.1, fun e he => h.2 e (List.mem_filter.mp he).1⟩

@[simp] theorem tabWf_nil (d : Nat → α) : tabWf d ([] : Table α) = true := rfl

end Sys2Proof.Machine
end

