-- ==== Sys2Proof/Laws/Keeps.lean ====
section
/-! SUPPORT. Laws/Keeps.lean: which parts of State an operation may change, and what every operation keeps: the queue, the
programmed fuse marks, the canonical form of the register file and of aperture memory. A set of parts is a mask of bits
(Part.idx). The lemma keeps_f says it of operation f, once. -/
set_option Elab.async false

namespace Sys2Proof.Machine

/-- The place of a part in a mask. -/
def Part.idx : Part → Nat
  | .out => 0
  | .draws => 1
  | .now => 2
  | .regs => 3
  | .banks => 4
  | .fns => 5
  | .msix => 6
  | .pba => 7
  | .held => 8
  | .msixDue => 9
  | .irqStacks => 10
  | .holdLeft => 11
  | .dev => 12
  | .flt => 13
  | .pfs => 14
  | .ul => 15
  | .lines => 36
  | .deferred => 16
  | .hl => 17
  | .ctxs => 18
  | .qps => 19
  | .lbs => 20
  | .hreads => 21
  | .cad => 22
  | .cmds => 23
  | .inForce => 24
  | .store => 25
  | .ritems => 26
  | .med => 27
  | .mbx => 28
  | .pwr => 29
  | .pel => 30
  | .tap => 31
  | .fuses => 32
  | .fw => 33
  | .mem => 34
  | .nand => 35

/-- The mask of a list of parts. -/
def partMask (l : List Part) : Nat := l.foldl (fun m p => m ||| 2 ^ p.idx) 0

/-- Every part of mask `a` is in mask `w`. -/
def Covers (a w : Nat) : Prop := a &&& w = a

/-- From `s` to `t` nothing changes outside the parts of mask `w`; canonical forms stay canonical and fuse marks stay. -/
structure Keeps (w : Nat) (s t : State) : Prop where
  pending : t.pending = s.pending
  marks : s.fuses.marks ⊆ t.fuses.marks
  regs : tabWf resetOf s.regs = true → tabWf resetOf t.regs = true
  mem : Memory.wf s.ds.mem = true ∧ Memory.wf s.ds.nand = true → Memory.wf t.ds.mem = true ∧ Memory.wf t.ds.nand = true
  same : ∀ p : Part, w.testBit p.idx = false → p.same s t

/-- The same of an outcome, where it is a next state. -/
def Ends (w : Nat) (s : State) (o : Result) : Prop := ∀ t, o = .next t → Keeps w s t

theorem ends_next {w : Nat} {r s : State} (h : Keeps w r s) : Ends w r (.next s) := by
  intro t ht; cases ht; exact h

theorem keeps_refl (w : Nat) (s : State) : Keeps w s s :=
  ⟨rfl, List.Subset.refl _, id, id, fun p _ => by cases p <;> rfl⟩

theorem covers_of {a b w : Nat} (hw : Covers a w) (hb : Nat.land b a = b) : Covers b w := by
  unfold Covers at *
  have hb : b &&& a = b := hb
  rw [← hb, Nat.and_assoc, hw]

theorem covers_bit {a w : Nat} (hw : Covers a w) {i : Nat} (hi : a.testBit i = true) : w.testBit i = true := by
  have := congrArg (Nat.testBit · i) hw
  simp_all

theorem covers_not {a w i : Nat} (hw : Covers a w) (hi : w.testBit i = false) (ha : a.testBit i = true) : False := by
  rw [covers_bit hw ha] at hi; cases hi

theorem keeps_cut {w : Nat} {r s : State} {G : Prop} (h : Keeps w r s) (hg : Keeps w r s → G) : G := hg h

theorem keeps_pair {w : Nat} {r : State} {α : Type} {p : State × α} {s : State} {a : α} (he : p = (s, a)) (h : Keeps w r p.1) :
    Keeps w r s := by
  subst he; exact h

/-- A state made from another by putting values into parts that may change. -/
theorem keeps_mk {w : Nat} {r s : State} {a_out : List Out} {a_draws : Nat} {a_now : Stroke} {a_banks : Table Word} {a_fns : Table Fn} {a_msix : Table MsixEntry} {a_pba : Table (BitVec 64)} {a_held : Table (BitVec 64)} {a_msixDue : List (Nat × Nat × Option Nat)} {a_stacks : Table (List (Nat × Nat))} {a_holdLeft : Table Nat} {a_dev : Dev} {a_flt : Flt} {a_pfs : Pfs} {a_ul : Table Ul} {a_lines : List Line} {a_deferred : List Deferred} {a_hl : Hl} {a_ctxs : Table Ctx} {a_qps : Table Qp} {a_lbs : Table Lb} {a_hreads : List HRead} {a_cad : Cad} {a_cmds : List Cmd} {a_inForce : Table Word} {a_ds : Store} {a_ritems : List RItem} {a_med : Media} {a_mbx : Mbx} {a_pwr : Pwr} {a_pel : Pel} {a_tap : Tap} {a_fw : Fw}
    (h : Keeps w r s)
    (h_out : w.testBit 0 = true ∨ a_out = s.out := by first | exact Or.inr rfl | exact Or.inl (covers_bit (by assumption) rfl))
    (h_draws : w.testBit 1 = true ∨ a_draws = s.draws := by first | exact Or.inr rfl | exact Or.inl (covers_bit (by assumption) rfl))
    (h_now : w.testBit 2 = true ∨ a_now = s.now := by first | exact Or.inr rfl | exact Or.inl (covers_bit (by assumption) rfl))
    (h_banks : w.testBit 4 = true ∨ a_banks = s.banks := by first | exact Or.inr rfl | exact Or.inl (covers_bit (by assumption) rfl))
    (h_fns : w.testBit 5 = true ∨ a_fns = s.fns := by first | exact Or.inr rfl | exact Or.inl (covers_bit (by assumption) rfl))
    (h_msix : w.testBit 6 = true ∨ a_msix = s.msix := by first | exact Or.inr rfl | exact Or.inl (covers_bit (by assumption) rfl))
    (h_pba : w.testBit 7 = true ∨ a_pba = s.pba := by first | exact Or.inr rfl | exact Or.inl (covers_bit (by assumption) rfl))
    (h_held : w.testBit 8 = true ∨ a_held = s.held := by first | exact Or.inr rfl | exact Or.inl (covers_bit (by assumption) rfl))
    (h_msixDue : w.testBit 9 = true ∨ a_msixDue = s.msixDue := by first | exact Or.inr rfl | exact Or.inl (covers_bit (by assumption) rfl))
    (h_stacks : w.testBit 10 = true ∨ a_stacks = s.irqStacks := by first | exact Or.inr rfl | exact Or.inl (covers_bit (by assumption) rfl))
    (h_holdLeft : w.testBit 11 = true ∨ a_holdLeft = s.holdLeft := by first | exact Or.inr rfl | exact Or.inl (covers_bit (by assumption) rfl))
    (h_dev : w.testBit 12 = true ∨ a_dev = s.dev := by first | exact Or.inr rfl | exact Or.inl (covers_bit (by assumption) rfl))
    (h_flt : w.testBit 13 = true ∨ a_flt = s.flt := by first | exact Or.inr rfl | exact Or.inl (covers_bit (by assumption) rfl))
    (h_pfs : w.testBit 14 = true ∨ a_pfs = s.pfs := by first | exact Or.inr rfl | exact Or.inl (covers_bit (by assumption) rfl))
    (h_ul : w.testBit 15 = true ∨ a_ul = s.ul := by first | exact Or.inr rfl | exact Or.inl (covers_bit (by assumption) rfl))
    (h_lines : w.testBit 36 = true ∨ a_lines = s.lines := by first | exact Or.inr rfl | exact Or.inl (covers_bit (by assumption) rfl))
    (h_deferred : w.testBit 16 = true ∨ a_deferred = s.deferred := by first | exact Or.inr rfl | exact Or.inl (covers_bit (by assumption) rfl))
    (h_hl : w.testBit 17 = true ∨ a_hl = s.hl := by first | exact Or.inr rfl | exact Or.inl (covers_bit (by assumption) rfl))
    (h_ctxs : w.testBit 18 = true ∨ a_ctxs = s.ctxs := by first | exact Or.inr rfl | exact Or.inl (covers_bit (by assumption) rfl))
    (h_qps : w.testBit 19 = true ∨ a_qps = s.qps := by first | exact Or.inr rfl | exact Or.inl (covers_bit (by assumption) rfl))
    (h_lbs : w.testBit 20 = true ∨ a_lbs = s.lbs := by first | exact Or.inr rfl | exact Or.inl (covers_bit (by assumption) rfl))
    (h_hreads : w.testBit 21 = true ∨ a_hreads = s.hreads := by first | exact Or.inr rfl | exact Or.inl (covers_bit (by assumption) rfl))
    (h_cad : w.testBit 22 = true ∨ a_cad = s.cad := by first | exact Or.inr rfl | exact Or.inl (covers_bit (by assumption) rfl))
    (h_cmds : w.testBit 23 = true ∨ a_cmds = s.cmds := by first | exact Or.inr rfl | exact Or.inl (covers_bit (by assumption) rfl))
    (h_inForce : w.testBit 24 = true ∨ a_inForce = s.inForce := by first | exact Or.inr rfl | exact Or.inl (covers_bit (by assumption) rfl))
    (h_mem : a_ds.mem = s.ds.mem ∧ a_ds.nand = s.ds.nand := by exact ⟨rfl, rfl⟩)
    (h_ds : w.testBit 25 = true ∨ a_ds = s.ds := by first | exact Or.inr rfl | exact Or.inl (covers_bit (by assumption) rfl))
    (h_ritems : w.testBit 26 = true ∨ a_ritems = s.ritems := by first | exact Or.inr rfl | exact Or.inl (covers_bit (by assumption) rfl))
    (h_med : w.testBit 27 = true ∨ a_med = s.med := by first | exact Or.inr rfl | exact Or.inl (covers_bit (by assumption) rfl))
    (h_mbx : w.testBit 28 = true ∨ a_mbx = s.mbx := by first | exact Or.inr rfl | exact Or.inl (covers_bit (by assumption) rfl))
    (h_pwr : w.testBit 29 = true ∨ a_pwr = s.pwr := by first | exact Or.inr rfl | exact Or.inl (covers_bit (by assumption) rfl))
    (h_pel : w.testBit 30 = true ∨ a_pel = s.pel := by first | exact Or.inr rfl | exact Or.inl (covers_bit (by assumption) rfl))
    (h_tap : w.testBit 31 = true ∨ a_tap = s.tap := by first | exact Or.inr rfl | exact Or.inl (covers_bit (by assumption) rfl))
    (h_fw : w.testBit 33 = true ∨ a_fw = s.fw := by first | exact Or.inr rfl | exact Or.inl (covers_bit (by assumption) rfl)) :
    Keeps w r (State.mk s.pending a_out a_draws a_now s.regs a_banks a_fns a_msix a_pba a_held a_msixDue a_stacks a_holdLeft a_dev a_flt a_pfs a_ul a_lines a_deferred a_hl a_ctxs a_qps a_lbs a_hreads a_cad a_cmds a_inForce a_ds a_ritems a_med a_mbx a_pwr a_pel a_tap s.fuses a_fw) := by
  refine ⟨h.pending, h.marks, h.regs, fun hr => ?_, fun p hp => ?_⟩
  · have := h.mem hr; dsimp only; rw [h_mem.1, h_mem.2]; exact this
  · have hs := h.same p hp
    cases p
    · rcases h_out with hb | rfl
      · simp_all [Part.idx]
      · exact hs
    · rcases h_draws with hb | rfl
      · simp_all [Part.idx]
      · exact hs
    · rcases h_now with hb | rfl
      · simp_all [Part.idx]
      · exact hs
    · exact hs
    · rcases h_banks with hb | rfl
      · simp_all [Part.idx]
      · exact hs
    · rcases h_fns with hb | rfl
      · simp_all [Part.idx]
      · exact hs
    · rcases h_msix with hb | rfl
      · simp_all [Part.idx]
      · exact hs
    · rcases h_pba with hb | rfl
      · simp_all [Part.idx]
      · exact hs
    · rcases h_held with hb | rfl
      · simp_all [Part.idx]
      · exact hs
    · rcases h_msixDue with hb | rfl
      · simp_all [Part.idx]
      · exact hs
    · rcases h_stacks with hb | rfl
      · simp_all [Part.idx]
      · exact hs
    · rcases h_holdLeft with hb | rfl
      · simp_all [Part.idx]
      · exact hs
    · rcases h_dev with hb | rfl
      · simp_all [Part.idx]
      · exact hs
    · rcases h_flt with hb | rfl
      · simp_all [Part.idx]
      · exact hs
    · rcases h_pfs with hb | rfl
      · simp_all [Part.idx]
      · exact hs
    · rcases h_ul with hb | rfl
      · simp_all [Part.idx]
      · exact hs
    · rcases h_lines with hb | rfl
      · simp_all [Part.idx]
      · exact hs
    · rcases h_deferred with hb | rfl
      · simp_all [Part.idx]
      · exact hs
    · rcases h_hl with hb | rfl
      · simp_all [Part.idx]
      · exact hs
    · rcases h_ctxs with hb | rfl
      · simp_all [Part.idx]
      · exact hs
    · rcases h_qps with hb | rfl
      · simp_all [Part.idx]
      · exact hs
    · rcases h_lbs with hb | rfl
      · simp_all [Part.idx]
      · exact hs
    · rcases h_hreads with hb | rfl
      · simp_all [Part.idx]
      · exact hs
    · rcases h_cad with hb | rfl
      · simp_all [Part.idx]
      · exact hs
    · rcases h_cmds with hb | rfl
      · simp_all [Part.idx]
      · exact hs
    · rcases h_inForce with hb | rfl
      · simp_all [Part.idx]
      · exact hs
    · rcases h_ds with hb | rfl
      · simp_all [Part.idx]
      · exact hs
    · rcases h_ritems with hb | rfl
      · simp_all [Part.idx]
      · exact hs
    · rcases h_med with hb | rfl
      · simp_all [Part.idx]
      · exact hs
    · rcases h_mbx with hb | rfl
      · simp_all [Part.idx]
      · exact hs
    · rcases h_pwr with hb | rfl
      · simp_all [Part.idx]
      · exact hs
    · rcases h_pel with hb | rfl
      · simp_all [Part.idx]
      · exact hs
    · rcases h_tap with hb | rfl
      · simp_all [Part.idx]
      · exact hs
    · exact hs
    · rcases h_fw with hb | rfl
      · simp_all [Part.idx]
      · exact hs
    · exact h_mem.1.trans hs
    · exact h_mem.2.trans hs

theorem wf_putBytes (m : Table Byte) (k : Nat) (bs : List Byte) (h : Memory.wf m = true) : Memory.wf (putBytes m k bs) = true := by
  induction bs generalizing m k with
  | nil => exact h
  | cons b bs ih => exact ih _ _ (tabWf_tabSet _ _ _ _ h)

theorem wf_clearBytes (m : Table Byte) (k n : Nat) (h : Memory.wf m = true) : Memory.wf (clearBytes m k n) = true :=
  tabWf_tabKeep _ _ _ h

theorem wf_copyBytes (src dst : Table Byte) (k n : Nat) (h : Memory.wf dst = true) : Memory.wf (copyBytes src dst k n) = true := by
  unfold copyBytes
  generalize src.filter _ = es
  suffices hs : ∀ m, Memory.wf m = true → Memory.wf (es.foldl (fun m e => tabSet aptByteReset m e.1 e.2) m) = true from
    hs _ (wf_clearBytes _ _ _ h)
  induction es with
  | nil => exact fun m hm => hm
  | cons e es ih => exact fun m hm => ih _ (tabWf_tabSet _ _ _ _ hm)

theorem wf_copyAll {α : Type} (src : Table Byte) (k n : α → Nat) (l : List α) (dst : Table Byte) (h : Memory.wf dst = true) :
    Memory.wf (l.foldl (fun t u => copyBytes src t (k u) (n u)) dst) = true := by
  induction l generalizing dst with
  | nil => exact h
  | cons u l ih => exact ih _ (wf_copyBytes src dst _ _ h)

/-- A change of the store that may reach its bytes. -/
theorem keeps_dsBytes {w : Nat} {r s : State} (f : Store → Store) (hs : w.testBit 25 = true)
    (hm : w.testBit 34 = true ∨ (f s.ds).mem = s.ds.mem) (hn : w.testBit 35 = true ∨ (f s.ds).nand = s.ds.nand)
    (hf : Memory.wf s.ds.mem = true ∧ Memory.wf s.ds.nand = true → Memory.wf (f s.ds).mem = true ∧ Memory.wf (f s.ds).nand = true)
    (h : Keeps w r s) : Keeps w r (s.dsUpd f) := by
  refine ⟨h.pending, h.marks, h.regs, fun hr => hf (h.mem hr), fun p hp => ?_⟩
  have hq := h.same p hp
  cases p <;> try exact hq
  · simp_all [Part.idx]
  · rcases hm with hm | hm
    · simp_all [Part.idx]
    · exact Eq.trans hm hq
  · rcases hn with hn | hn
    · simp_all [Part.idx]
    · exact Eq.trans hn hq

end Sys2Proof.Machine
end

