-- ==== Sys2Proof/Laws/KeepsBase.lean ====
section
/-! SUPPORT. Laws/KeepsBase.lean: what every operation may change and what it keeps: registers, sources, interrupts, host link, checks. -/
namespace Sys2Proof.Machine

set_option Elab.async false
set_option linter.unusedTactic false
set_option linter.unreachableTactic false
set_option linter.unusedVariables false

variable {w : Nat} {r : State}

theorem keeps_setWord {s : State} (a : Nat) (v : Word) (hw : Covers 0x8 w) (h : Keeps w r s) : Keeps w r (s.setWord a v) := by
  refine ⟨h.pending, h.marks, fun hr => tabWf_tabSet _ _ _ _ (h.regs hr), h.mem, fun p hp => ?_⟩
  have hs := h.same p hp
  cases p <;> try exact hs
  have := covers_bit hw (i := 3) rfl
  simp_all [Part.idx]

theorem keeps_set (f : Field) (v : Nat) {s : State}
    (hw : Covers 0x8 w) (h : Keeps w r s) : Keeps w r (State.set s f v) := by
  unfold State.set
  with_reducible repeat' (first
    | assumption | exact covers_of hw rfl | apply keeps_setWord | split | refine keeps_pair (by assumption) ?_)

theorem keeps_inc (f : Field) (n : Nat) {s : State}
    (hw : Covers 0x8 w) (h : Keeps w r s) : Keeps w r (State.inc s f n) := by
  unfold State.inc
  with_reducible repeat' (first
    | assumption | exact covers_of hw rfl | apply keeps_set | split | refine keeps_pair (by assumption) ?_)

theorem keeps_dec (f : Field) (n : Nat) {s : State}
    (hw : Covers 0x8 w) (h : Keeps w r s) : Keeps w r (State.dec s f n) := by
  unfold State.dec
  with_reducible repeat' (first
    | assumption | exact covers_of hw rfl | apply keeps_set | split | refine keeps_pair (by assumption) ?_)

theorem keeps_peak (f : Field) (v : Nat) {s : State}
    (hw : Covers 0x8 w) (h : Keeps w r s) : Keeps w r (State.peak s f v) := by
  unfold State.peak
  with_reducible repeat' (first
    | assumption | exact covers_of hw rfl | apply keeps_set | split | refine keeps_pair (by assumption) ?_)

theorem keeps_doIf (c : Bool) (f : State → State) {s : State}
    (hf : ∀ s, Keeps w r s → Keeps w r (f s)) (h : Keeps w r s) : Keeps w r (doIf c f s) := by
  unfold doIf; split
  · exact hf s h
  · exact h

theorem keeps_doAll {α : Type} (xs : List α) (f : α → State → State) {s : State}
    (hf : ∀ x s, Keeps w r s → Keeps w r (f x s)) (h : Keeps w r s) : Keeps w r (doAll xs f s) := by
  unfold doAll
  induction xs generalizing s with
  | nil => exact h
  | cons x xs ih => exact ih (hf x s h)

theorem keeps_done {s : State}
    (h : Keeps w r s) : Ends w r (done s) := by
  unfold done
  with_reducible repeat' (first | assumption | apply ends_next | split | refine keeps_pair (by assumption) ?_)

theorem keeps_atBoundary (d : Deferred) {s : State}
    (hw : Covers 0x10000 w) (h : Keeps w r s) : Keeps w r (atBoundary d s) := by
  unfold atBoundary
  with_reducible repeat' (first
    | assumption | exact covers_of hw rfl | exact ⟨rfl, rfl⟩ | split | refine keeps_pair (by assumption) ?_
    | refine keeps_mk ?_)

theorem keeps_emit (o : Out) {s : State}
    (hw : Covers 0x1 w) (h : Keeps w r s) : Keeps w r (emit o s) := by
  unfold emit
  with_reducible repeat' (first
    | assumption | exact covers_of hw rfl | exact ⟨rfl, rfl⟩ | split | refine keeps_pair (by assumption) ?_
    | refine keeps_mk ?_)

theorem keeps_drewOne {s : State}
    (hw : Covers 0x2 w) (h : Keeps w r s) : Keeps w r (State.drewOne s) := by
  unfold State.drewOne
  with_reducible repeat' (first
    | assumption | exact covers_of hw rfl | exact ⟨rfl, rfl⟩ | split | refine keeps_pair (by assumption) ?_
    | refine keeps_mk ?_)

theorem keeps_devUpd (f : Dev → Dev) {s : State}
    (hw : Covers 0x1000 w) (h : Keeps w r s) : Keeps w r (State.devUpd s f) := by
  unfold State.devUpd
  with_reducible repeat' (first
    | assumption | exact covers_of hw rfl | exact ⟨rfl, rfl⟩ | split | refine keeps_pair (by assumption) ?_
    | refine keeps_mk ?_)

theorem keeps_fnUpd (c : Nat) (f : Fn → Fn) {s : State}
    (hw : Covers 0x20 w) (h : Keeps w r s) : Keeps w r (State.fnUpd s c f) := by
  unfold State.fnUpd
  with_reducible repeat' (first
    | assumption | exact covers_of hw rfl | exact ⟨rfl, rfl⟩ | split | refine keeps_pair (by assumption) ?_
    | refine keeps_mk ?_)

theorem keeps_setPba (c : Nat) (v : BitVec 64) {s : State}
    (hw : Covers 0x80 w) (h : Keeps w r s) : Keeps w r (State.setPba s c v) := by
  unfold State.setPba
  with_reducible repeat' (beta_reduce; first
    | assumption | exact covers_of hw rfl | (intro _) | exact ⟨rfl, rfl⟩ | split
    | refine keeps_pair (by assumption) ?_ | refine keeps_mk ?_)

theorem keeps_setHeld (c : Nat) (v : BitVec 64) {s : State}
    (hw : Covers 0x100 w) (h : Keeps w r s) : Keeps w r (State.setHeld s c v) := by
  unfold State.setHeld
  with_reducible repeat' (beta_reduce; first
    | assumption | exact covers_of hw rfl | (intro _) | exact ⟨rfl, rfl⟩ | split
    | refine keeps_pair (by assumption) ?_ | refine keeps_mk ?_)

theorem keeps_setMsix (c : Nat) (v : Nat) (e : MsixEntry) {s : State}
    (hw : Covers 0x40 w) (h : Keeps w r s) : Keeps w r (State.setMsix s c v e) := by
  unfold State.setMsix
  with_reducible repeat' (first
    | assumption | exact covers_of hw rfl | exact ⟨rfl, rfl⟩ | split | refine keeps_pair (by assumption) ?_
    | refine keeps_mk ?_)

theorem keeps_linkUpd (k : Nat) (f : Ul → Ul) {s : State}
    (hw : Covers 0x8000 w) (h : Keeps w r s) : Keeps w r (State.linkUpd s k f) := by
  unfold State.linkUpd
  with_reducible repeat' (first
    | assumption | exact covers_of hw rfl | exact ⟨rfl, rfl⟩ | split | refine keeps_pair (by assumption) ?_
    | refine keeps_mk ?_)

theorem keeps_lineUpd (k : Nat) (f : Line → Line) {s : State}
    (hw : Covers 0x1000000000 w) (h : Keeps w r s) : Keeps w r (State.lineUpd s k f) := by
  unfold State.lineUpd
  with_reducible repeat' (first
    | assumption | exact covers_of hw rfl | exact ⟨rfl, rfl⟩ | split | refine keeps_pair (by assumption) ?_
    | refine keeps_mk ?_)

theorem keeps_lineSend (k : Nat) (f : LineWay → Line × LaneBlocks → Line × LaneBlocks) {s : State}
    (hw : Covers 0x1000000001 w) (h : Keeps w r s) : Keeps w r (lineSend k f s) := by
  unfold lineSend
  with_reducible repeat' (beta_reduce; first
    | assumption | exact covers_of hw rfl | (intro _)
    | (extract_lets +onlyGivenNames x; first
      | (refine keeps_cut (w := w) (r := r) (s := x) ?_ ?_; (on_goal 2 => (intro hx; clear_value x)); unfold x; clear x)
      | (refine keeps_cut (w := w) (r := r) (s := x.1) ?_ ?_; (on_goal 2 => (intro hx; clear_value x)); unfold x; clear x)
      | clear_value x)
    | apply keeps_emit | apply keeps_lineUpd | split | refine keeps_pair (by assumption) ?_)

theorem keeps_emitUnit (k : Nat) (unit : List Byte) {s : State}
    (hw : Covers 0x1000000003 w) (h : Keeps w r s) : Keeps w r (emitUnit k unit s) := by
  unfold emitUnit
  with_reducible repeat' (beta_reduce; first
    | assumption | exact covers_of hw rfl | (intro _)
    | (extract_lets +onlyGivenNames x; first
      | (refine keeps_cut (w := w) (r := r) (s := x) ?_ ?_; (on_goal 2 => (intro hx; clear_value x)); unfold x; clear x)
      | (refine keeps_cut (w := w) (r := r) (s := x.1) ?_ ?_; (on_goal 2 => (intro hx; clear_value x)); unfold x; clear x)
      | clear_value x)
    | apply keeps_drewOne | apply keeps_lineSend | split | refine keeps_pair (by assumption) ?_)

theorem keeps_bypassOut (k : Nat) (bt : Nat) (seqd : Bool) (bseq : Nat) (body : List Byte) {s : State}
    (hw : Covers 0x1000008003 w) (h : Keeps w r s) : Keeps w r (bypassOut k bt seqd bseq body s) := by
  unfold bypassOut
  with_reducible repeat' (beta_reduce; first
    | assumption | exact covers_of hw rfl | (intro _)
    | (extract_lets +onlyGivenNames x; first
      | (refine keeps_cut (w := w) (r := r) (s := x) ?_ ?_; (on_goal 2 => (intro hx; clear_value x)); unfold x; clear x)
      | (refine keeps_cut (w := w) (r := r) (s := x.1) ?_ ?_; (on_goal 2 => (intro hx; clear_value x)); unfold x; clear x)
      | clear_value x)
    | apply keeps_emit | apply keeps_emitUnit | apply keeps_linkUpd | split | refine keeps_pair (by assumption) ?_)

theorem keeps_emitBypass (k : Nat) (bt : Nat) (seqd : Bool) (bseq : Nat) (body : List Byte) {s : State}
    (hw : Covers 0x1000008003 w) (h : Keeps w r s) : Keeps w r (emitBypass k bt seqd bseq body s) := by
  unfold emitBypass
  with_reducible repeat' (beta_reduce; first
    | assumption | exact covers_of hw rfl | (intro _) | apply keeps_linkUpd | apply keeps_bypassOut | split
    | refine keeps_pair (by assumption) ?_)

theorem keeps_sendBypass (k : Nat) (bt : Nat) (body : List Byte) {s : State}
    (hw : Covers 0x1000008003 w) (h : Keeps w r s) : Keeps w r (sendBypass k bt body s) := by
  unfold sendBypass
  with_reducible repeat' (beta_reduce; first
    | assumption | exact covers_of hw rfl | (intro _)
    | (extract_lets +onlyGivenNames x; first
      | (refine keeps_cut (w := w) (r := r) (s := x) ?_ ?_; (on_goal 2 => (intro hx; clear_value x)); unfold x; clear x)
      | (refine keeps_cut (w := w) (r := r) (s := x.1) ?_ ?_; (on_goal 2 => (intro hx; clear_value x)); unfold x; clear x)
      | clear_value x)
    | apply keeps_emitBypass | apply keeps_linkUpd | split | refine keeps_pair (by assumption) ?_)

theorem keeps_sendLate (k : Nat) {s : State}
    (hw : Covers 0x1000008003 w) (h : Keeps w r s) : Keeps w r (sendLate k s) := by
  unfold sendLate
  with_reducible repeat' (beta_reduce; first
    | assumption | exact covers_of hw rfl | (intro _)
    | (extract_lets +onlyGivenNames x; first
      | (refine keeps_cut (w := w) (r := r) (s := x) ?_ ?_; (on_goal 2 => (intro hx; clear_value x)); unfold x; clear x)
      | (refine keeps_cut (w := w) (r := r) (s := x.1) ?_ ?_; (on_goal 2 => (intro hx; clear_value x)); unfold x; clear x)
      | clear_value x)
    | apply keeps_doAll | apply keeps_bypassOut | apply keeps_linkUpd | split | refine keeps_pair (by assumption) ?_)

theorem keeps_pfsMissed {s : State}
    (hw : Covers 0x8 w) (h : Keeps w r s) : Keeps w r (pfsMissed s) := by
  unfold pfsMissed
  with_reducible repeat' (first
    | assumption | exact covers_of hw rfl | apply keeps_inc | split | refine keeps_pair (by assumption) ?_)

theorem keeps_pfsTrigger (b : Nat) {s : State}
    (hw : Covers 0x100000C00B w) (h : Keeps w r s) : Keeps w r (pfsTrigger b s) := by
  unfold pfsTrigger
  with_reducible repeat' (beta_reduce; first
    | assumption | exact covers_of hw rfl | (intro _)
    | (extract_lets +onlyGivenNames x; first
      | (refine keeps_cut (w := w) (r := r) (s := x) ?_ ?_; (on_goal 2 => (intro hx; clear_value x)); unfold x; clear x)
      | (refine keeps_cut (w := w) (r := r) (s := x.1) ?_ ?_; (on_goal 2 => (intro hx; clear_value x)); unfold x; clear x)
      | clear_value x)
    | apply keeps_doAll | apply keeps_sendBypass | apply keeps_pfsMissed | apply keeps_set | exact ⟨rfl, rfl⟩ | split
    | refine keeps_pair (by assumption) ?_ | refine keeps_mk ?_)

theorem keeps_setPending (n : Nat) {s : State}
    (hw : Covers 0x8 w) (h : Keeps w r s) : Keeps w r (setPending n s) := by
  unfold setPending
  with_reducible repeat' (first
    | assumption | exact covers_of hw rfl | apply keeps_setWord | split | refine keeps_pair (by assumption) ?_)

theorem keeps_clearPending (n : Nat) {s : State}
    (hw : Covers 0x8 w) (h : Keeps w r s) : Keeps w r (clearPending n s) := by
  unfold clearPending
  with_reducible repeat' (first
    | assumption | exact covers_of hw rfl | apply keeps_setWord | split | refine keeps_pair (by assumption) ?_)

theorem keeps_pwrUpd (f : Pwr → Pwr) {s : State}
    (hw : Covers 0x20000000 w) (h : Keeps w r s) : Keeps w r (State.pwrUpd s f) := by
  unfold State.pwrUpd
  with_reducible repeat' (first
    | assumption | exact covers_of hw rfl | exact ⟨rfl, rfl⟩ | split | refine keeps_pair (by assumption) ?_
    | refine keeps_mk ?_)

theorem keeps_mergeLatched {s : State}
    (hw : Covers 0x8 w) (h : Keeps w r s) : Keeps w r (mergeLatched s) := by
  unfold mergeLatched
  with_reducible repeat' (beta_reduce; first
    | assumption | exact covers_of hw rfl | (intro _)
    | (extract_lets +onlyGivenNames x; first
      | (refine keeps_cut (w := w) (r := r) (s := x) ?_ ?_; (on_goal 2 => (intro hx; clear_value x)); unfold x; clear x)
      | (refine keeps_cut (w := w) (r := r) (s := x.1) ?_ ?_; (on_goal 2 => (intro hx; clear_value x)); unfold x; clear x)
      | clear_value x)
    | apply keeps_doAll | apply keeps_setPending | split | refine keeps_pair (by assumption) ?_)

theorem keeps_sleepExit {s : State}
    (hw : Covers 0x20000008 w) (h : Keeps w r s) : Keeps w r (sleepExit s) := by
  unfold sleepExit
  with_reducible repeat' (beta_reduce; first
    | assumption | exact covers_of hw rfl | (intro _) | apply keeps_doIf | apply keeps_mergeLatched
    | apply keeps_pwrUpd | apply keeps_set | split | refine keeps_pair (by assumption) ?_)

theorem keeps_noteWake (n : Nat) {s : State}
    (hw : Covers 0x20000000 w) (h : Keeps w r s) : Keeps w r (noteWake n s) := by
  unfold noteWake
  with_reducible repeat' (beta_reduce; first
    | assumption | exact covers_of hw rfl | (intro _) | apply keeps_pwrUpd | split
    | refine keeps_pair (by assumption) ?_)

theorem keeps_raiseEdge (n : Nat) {s : State}
    (hw : Covers 0x102000C00B w) (h : Keeps w r s) : Keeps w r (raiseEdge n s) := by
  unfold raiseEdge
  with_reducible repeat' (beta_reduce; first
    | assumption | exact covers_of hw rfl | (intro _)
    | (extract_lets +onlyGivenNames x; first
      | (refine keeps_cut (w := w) (r := r) (s := x) ?_ ?_; (on_goal 2 => (intro hx; clear_value x)); unfold x; clear x)
      | (refine keeps_cut (w := w) (r := r) (s := x.1) ?_ ?_; (on_goal 2 => (intro hx; clear_value x)); unfold x; clear x)
      | clear_value x)
    | apply keeps_doIf | apply keeps_pfsTrigger | apply keeps_setWord | apply keeps_noteWake | apply keeps_setPending
    | split | refine keeps_pair (by assumption) ?_)

theorem keeps_countCqEvt (c : Nat) (q : Option Nat) (f : Nat → Nat → Field) {s : State}
    (hw : Covers 0x8 w) (h : Keeps w r s) : Keeps w r (countCqEvt c q f s) := by
  unfold countCqEvt
  with_reducible repeat' (beta_reduce; first
    | assumption | exact covers_of hw rfl | (intro _) | apply keeps_inc | split | refine keeps_pair (by assumption) ?_)

theorem keeps_sendMsix (c : Nat) (v : Nat) (q : Option Nat) {s : State}
    (hw : Covers 0x200 w) (h : Keeps w r s) : Keeps w r (sendMsix c v q s) := by
  unfold sendMsix
  with_reducible repeat' (first
    | assumption | exact covers_of hw rfl | exact ⟨rfl, rfl⟩ | split | refine keeps_pair (by assumption) ?_
    | refine keeps_mk ?_)

theorem keeps_msixLose (p : Nat × Nat × Option Nat → Bool) {s : State}
    (hw : Covers 0x200 w) (h : Keeps w r s) : Keeps w r (msixLose p s) := by
  unfold msixLose
  with_reducible repeat' (beta_reduce; first
    | assumption | exact covers_of hw rfl | (intro _) | exact ⟨rfl, rfl⟩ | split
    | refine keeps_pair (by assumption) ?_ | refine keeps_mk ?_)

theorem keeps_msixNow (c : Nat) (v : Nat) {s : State}
    (hw : Covers 0x9 w) (h : Keeps w r s) : Keeps w r (msixNow c v s) := by
  unfold msixNow
  with_reducible repeat' (first
    | assumption | exact covers_of hw rfl | apply keeps_inc | apply keeps_emit | split
    | refine keeps_pair (by assumption) ?_)

theorem keeps_leaveL0 {s : State}
    (hw : Covers 0x20008 w) (h : Keeps w r s) : Keeps w r (leaveL0 s) := by
  unfold leaveL0
  with_reducible repeat' (first
    | assumption | exact covers_of hw rfl
    | (extract_lets +onlyGivenNames x; first
      | (refine keeps_cut (w := w) (r := r) (s := x) ?_ ?_; (on_goal 2 => (intro hx; clear_value x)); unfold x; clear x)
      | (refine keeps_cut (w := w) (r := r) (s := x.1) ?_ ?_; (on_goal 2 => (intro hx; clear_value x)); unfold x; clear x)
      | clear_value x)
    | apply keeps_set | exact ⟨rfl, rfl⟩ | split | refine keeps_pair (by assumption) ?_ | refine keeps_mk ?_)

theorem keeps_backToL0 {s : State}
    (hw : Covers 0x20000 w) (h : Keeps w r s) : Keeps w r (backToL0 s) := by
  unfold backToL0
  with_reducible repeat' (first
    | assumption | exact covers_of hw rfl
    | (extract_lets +onlyGivenNames x; first
      | (refine keeps_cut (w := w) (r := r) (s := x) ?_ ?_; (on_goal 2 => (intro hx; clear_value x)); unfold x; clear x)
      | (refine keeps_cut (w := w) (r := r) (s := x.1) ?_ ?_; (on_goal 2 => (intro hx; clear_value x)); unfold x; clear x)
      | clear_value x)
    | exact ⟨rfl, rfl⟩ | split | refine keeps_pair (by assumption) ?_ | refine keeps_mk ?_)

theorem keeps_leaveL1 {s : State}
    (hw : Covers 0x102002C00B w) (h : Keeps w r s) : Keeps w r (leaveL1 s) := by
  unfold leaveL1
  with_reducible repeat' (first
    | assumption | exact covers_of hw rfl | (intro _)
    | (extract_lets +onlyGivenNames x; first
      | (refine keeps_cut (w := w) (r := r) (s := x) ?_ ?_; (on_goal 2 => (intro hx; clear_value x)); unfold x; clear x)
      | (refine keeps_cut (w := w) (r := r) (s := x.1) ?_ ?_; (on_goal 2 => (intro hx; clear_value x)); unfold x; clear x)
      | clear_value x)
    | apply keeps_raiseEdge | apply keeps_doIf | apply keeps_backToL0 | apply keeps_set | exact ⟨rfl, rfl⟩ | split
    | refine keeps_pair (by assumption) ?_ | refine keeps_mk ?_)

theorem keeps_setPbaBit (c : Nat) (v : Nat) {s : State}
    (hw : Covers 0x80 w) (h : Keeps w r s) : Keeps w r (setPbaBit c v s) := by
  unfold setPbaBit
  with_reducible repeat' (first
    | assumption | exact covers_of hw rfl | apply keeps_setPba | split | refine keeps_pair (by assumption) ?_)

theorem keeps_sendPme (c : Nat) {s : State}
    (hw : Covers 0x1029 w) (h : Keeps w r s) : Keeps w r (sendPme c s) := by
  unfold sendPme
  with_reducible repeat' (beta_reduce; first
    | assumption | exact covers_of hw rfl | (intro _) | apply keeps_fnUpd | apply keeps_inc | apply keeps_devUpd
    | apply keeps_emit | split | refine keeps_pair (by assumption) ?_)

theorem keeps_signalPme (c : Nat) {s : State}
    (hw : Covers 0x1029 w) (h : Keeps w r s) : Keeps w r (signalPme c s) := by
  unfold signalPme
  with_reducible repeat' (beta_reduce; first
    | assumption | exact covers_of hw rfl | (intro _) | apply keeps_doIf | apply keeps_sendPme | apply keeps_fnUpd
    | split | refine keeps_pair (by assumption) ?_)

theorem keeps_resendPme (c : Nat) {s : State}
    (hw : Covers 0x1029 w) (h : Keeps w r s) : Keeps w r (resendPme c s) := by
  unfold resendPme
  with_reducible repeat' (first
    | assumption | exact covers_of hw rfl
    | (extract_lets +onlyGivenNames x; first
      | (refine keeps_cut (w := w) (r := r) (s := x) ?_ ?_; (on_goal 2 => (intro hx; clear_value x)); unfold x; clear x)
      | (refine keeps_cut (w := w) (r := r) (s := x.1) ?_ ?_; (on_goal 2 => (intro hx; clear_value x)); unfold x; clear x)
      | clear_value x)
    | apply keeps_sendPme | split | refine keeps_pair (by assumption) ?_)

theorem keeps_dropHeld (c : Nat) {s : State}
    (hw : Covers 0x108 w) (h : Keeps w r s) : Keeps w r (dropHeld c s) := by
  unfold dropHeld
  with_reducible repeat' (first
    | assumption | exact covers_of hw rfl | apply keeps_setHeld | apply keeps_dec | split
    | refine keeps_pair (by assumption) ?_)

theorem keeps_holdMsix (c : Nat) (v : Nat) (q : Option Nat) {s : State}
    (hw : Covers 0x11A9 w) (h : Keeps w r s) : Keeps w r (holdMsix c v q s) := by
  unfold holdMsix
  with_reducible repeat' (beta_reduce; first
    | assumption | exact covers_of hw rfl | (intro _) | apply keeps_signalPme | apply keeps_setHeld
    | apply keeps_setPbaBit | apply keeps_doIf | apply keeps_inc | apply keeps_set | split
    | refine keeps_pair (by assumption) ?_)

theorem keeps_msixOut {s : State}
    (hw : Covers 0x102002D3AB w) (h : Keeps w r s) : Keeps w r (msixOut s) := by
  unfold msixOut
  with_reducible repeat' (beta_reduce; first
    | assumption | exact covers_of hw rfl | (intro _) | apply keeps_doAll | apply keeps_inc | apply keeps_holdMsix
    | apply keeps_setPbaBit | apply keeps_msixNow | apply keeps_leaveL1 | exact ⟨rfl, rfl⟩ | split
    | refine keeps_pair (by assumption) ?_ | refine keeps_mk ?_)

theorem keeps_trigger (c : Nat) (v : Nat) (q : Option Nat) {s : State}
    (hw : Covers 0x102002D3AB w) (h : Keeps w r s) : Keeps w r (trigger c v q s) := by
  unfold trigger
  with_reducible repeat' (first
    | assumption | exact covers_of hw rfl | apply keeps_inc | apply keeps_holdMsix | apply keeps_countCqEvt
    | apply keeps_setPbaBit | apply keeps_sendMsix | apply keeps_leaveL1 | split
    | refine keeps_pair (by assumption) ?_)

theorem keeps_ctxEvent (c : Nat) (b : Nat) {s : State}
    (hw : Covers 0x102002D3AB w) (h : Keeps w r s) : Keeps w r (ctxEvent c b s) := by
  unfold ctxEvent
  with_reducible repeat' (first
    | assumption | exact covers_of hw rfl | (intro _)
    | (extract_lets +onlyGivenNames x; first
      | (refine keeps_cut (w := w) (r := r) (s := x) ?_ ?_; (on_goal 2 => (intro hx; clear_value x)); unfold x; clear x)
      | (refine keeps_cut (w := w) (r := r) (s := x.1) ?_ ?_; (on_goal 2 => (intro hx; clear_value x)); unfold x; clear x)
      | clear_value x)
    | apply keeps_doIf | apply keeps_trigger | apply keeps_set | split | refine keeps_pair (by assumption) ?_)

theorem keeps_bcAttn (f : Field) {s : State}
    (hw : Covers 0x8 w) (h : Keeps w r s) : Keeps w r (bcAttn f s) := by
  unfold bcAttn
  with_reducible repeat' (first
    | assumption | exact covers_of hw rfl | apply keeps_set | split | refine keeps_pair (by assumption) ?_)

theorem keeps_raise (n : Nat) {s : State}
    (hw : Covers 0x102002D3AB w) (h : Keeps w r s) : Keeps w r (raise n s) := by
  unfold raise
  with_reducible repeat' (beta_reduce; first
    | assumption | exact covers_of hw rfl | (intro _) | apply keeps_doIf | apply keeps_bcAttn | apply keeps_ctxEvent
    | apply keeps_raiseEdge | split | refine keeps_pair (by assumption) ?_)

theorem keeps_smbMatch (r0 : SmbReq) {s : State}
    (hw : Covers 0x102002D3AB w) (h : Keeps w r s) : Keeps w r (smbMatch r0 s) := by
  unfold smbMatch
  with_reducible repeat' (beta_reduce; first
    | assumption | exact covers_of hw rfl | (intro _)
    | (extract_lets +onlyGivenNames x; first
      | (refine keeps_cut (w := w) (r := r) (s := x) ?_ ?_; (on_goal 2 => (intro hx; clear_value x)); unfold x; clear x)
      | (refine keeps_cut (w := w) (r := r) (s := x.1) ?_ ?_; (on_goal 2 => (intro hx; clear_value x)); unfold x; clear x)
      | clear_value x)
    | apply keeps_doIf | apply keeps_pwrUpd | apply keeps_raise | split | refine keeps_pair (by assumption) ?_)

theorem keeps_aerMessage (c : Nat) (b : Nat) (masked : Bool) (what : String) {s : State}
    (hw : Covers 0x1 w) (h : Keeps w r s) : Keeps w r (aerMessage c b masked what s) := by
  unfold aerMessage
  with_reducible repeat' (first
    | assumption | exact covers_of hw rfl | (intro _) | apply keeps_doIf | apply keeps_emit | split
    | refine keeps_pair (by assumption) ?_)

theorem keeps_aerCor (c : Nat) (b : Nat) {s : State}
    (hw : Covers 0x102002D3AB w) (h : Keeps w r s) : Keeps w r (aerCor c b s) := by
  unfold aerCor
  with_reducible repeat' (beta_reduce; first
    | assumption | exact covers_of hw rfl | (intro _) | apply keeps_raise | apply keeps_aerMessage | apply keeps_fnUpd
    | split | refine keeps_pair (by assumption) ?_)

theorem keeps_aerLogged (c : Nat) (b : Nat) (h0 : AerHdr) {s : State}
    (hw : Covers 0x20 w) (h : Keeps w r s) : Keeps w r (aerLogged c b h0 s) := by
  unfold aerLogged
  with_reducible repeat' (beta_reduce; first
    | assumption | exact covers_of hw rfl | (intro _)
    | (extract_lets +onlyGivenNames x; first
      | (refine keeps_cut (w := w) (r := r) (s := x) ?_ ?_; (on_goal 2 => (intro hx; clear_value x)); unfold x; clear x)
      | (refine keeps_cut (w := w) (r := r) (s := x.1) ?_ ?_; (on_goal 2 => (intro hx; clear_value x)); unfold x; clear x)
      | clear_value x)
    | apply keeps_fnUpd | split | refine keeps_pair (by assumption) ?_)

theorem keeps_aerAdvisoryOf (c : Nat) (b : Nat) (src : Nat) (h0 : AerHdr) {s : State}
    (hw : Covers 0x102002D3AB w) (h : Keeps w r s) : Keeps w r (aerAdvisoryOf c b src h0 s) := by
  unfold aerAdvisoryOf
  with_reducible repeat' (beta_reduce; first
    | assumption | exact covers_of hw rfl | (intro _)
    | (extract_lets +onlyGivenNames x; first
      | (refine keeps_cut (w := w) (r := r) (s := x) ?_ ?_; (on_goal 2 => (intro hx; clear_value x)); unfold x; clear x)
      | (refine keeps_cut (w := w) (r := r) (s := x.1) ?_ ?_; (on_goal 2 => (intro hx; clear_value x)); unfold x; clear x)
      | clear_value x)
    | apply keeps_raise | apply keeps_aerMessage | apply keeps_aerLogged | apply keeps_fnUpd | split
    | refine keeps_pair (by assumption) ?_)

theorem keeps_aerAdvisory (c : Nat) (b : Nat) (src : Nat) {s : State}
    (hw : Covers 0x102002D3AB w) (h : Keeps w r s) : Keeps w r (aerAdvisory c b src s) := by
  unfold aerAdvisory
  with_reducible repeat' (first
    | assumption | exact covers_of hw rfl | apply keeps_aerAdvisoryOf | apply keeps_drewOne | split
    | refine keeps_pair (by assumption) ?_)

theorem keeps_aerUnc (c : Nat) (b : Nat) (h0 : AerHdr) {s : State}
    (hw : Covers 0x102002D3AB w) (h : Keeps w r s) : Keeps w r (aerUnc c b h0 s) := by
  unfold aerUnc
  with_reducible repeat' (first
    | assumption | exact covers_of hw rfl
    | (extract_lets +onlyGivenNames x; first
      | (refine keeps_cut (w := w) (r := r) (s := x) ?_ ?_; (on_goal 2 => (intro hx; clear_value x)); unfold x; clear x)
      | (refine keeps_cut (w := w) (r := r) (s := x.1) ?_ ?_; (on_goal 2 => (intro hx; clear_value x)); unfold x; clear x)
      | clear_value x)
    | apply keeps_raise | apply keeps_aerMessage | apply keeps_aerLogged | split
    | refine keeps_pair (by assumption) ?_)

theorem keeps_aerTlp (c : Nat) (b : Nat) {s : State}
    (hw : Covers 0x102002D3AB w) (h : Keeps w r s) : Keeps w r (aerTlp c b s) := by
  unfold aerTlp
  with_reducible repeat' (first
    | assumption | exact covers_of hw rfl | apply keeps_aerUnc | apply keeps_drewOne | split
    | refine keeps_pair (by assumption) ?_)

theorem keeps_reportCie {s : State}
    (hw : Covers 0x102002D3AB w) (h : Keeps w r s) : Keeps w r (reportCie s) := by
  unfold reportCie
  with_reducible repeat' (first
    | assumption | exact covers_of hw rfl | apply keeps_aerCor | split | refine keeps_pair (by assumption) ?_)

theorem keeps_reportUie {s : State}
    (hw : Covers 0x102002D3AB w) (h : Keeps w r s) : Keeps w r (reportUie s) := by
  unfold reportUie
  with_reducible repeat' (first
    | assumption | exact covers_of hw rfl | apply keeps_aerUnc | split | refine keeps_pair (by assumption) ?_)

theorem keeps_reportDegraded {s : State}
    (hw : Covers 0x102002D3AB w) (h : Keeps w r s) : Keeps w r (reportDegraded s) := by
  unfold reportDegraded
  with_reducible repeat' (first
    | assumption | exact covers_of hw rfl | apply keeps_reportUie | apply keeps_set | split
    | refine keeps_pair (by assumption) ?_)

theorem keeps_reportAbort (c : Nat) (addr : Nat) (len : Nat) {s : State}
    (hw : Covers 0x102002D3AB w) (h : Keeps w r s) : Keeps w r (reportAbort c addr len s) := by
  unfold reportAbort
  with_reducible repeat' (first
    | assumption | exact covers_of hw rfl | apply keeps_aerAdvisoryOf | split | refine keeps_pair (by assumption) ?_)

theorem keeps_logEv (code : Nat) (detail : List Byte) {s : State}
    (hw : Covers 0x2008 w) (h : Keeps w r s) : Keeps w r (logEv code detail s) := by
  unfold logEv
  with_reducible repeat' (first
    | assumption | exact covers_of hw rfl
    | (extract_lets +onlyGivenNames x; first
      | (refine keeps_cut (w := w) (r := r) (s := x) ?_ ?_; (on_goal 2 => (intro hx; clear_value x)); unfold x; clear x)
      | (refine keeps_cut (w := w) (r := r) (s := x.1) ?_ ?_; (on_goal 2 => (intro hx; clear_value x)); unfold x; clear x)
      | clear_value x)
    | apply keeps_set | exact ⟨rfl, rfl⟩ | split | refine keeps_pair (by assumption) ?_ | refine keeps_mk ?_)

theorem keeps_modeTo (m : Mode) (cause : Nat) {s : State}
    (hw : Covers 0x102002D3AB w) (h : Keeps w r s) : Keeps w r (modeTo m cause s) := by
  unfold modeTo
  with_reducible repeat' (first
    | assumption | exact covers_of hw rfl | apply keeps_raise | apply keeps_set | split
    | refine keeps_pair (by assumption) ?_)

theorem keeps_addCause (c : ModeCause) {s : State}
    (hw : Covers 0x1000 w) (h : Keeps w r s) : Keeps w r (addCause c s) := by
  unfold addCause
  with_reducible repeat' (beta_reduce; first
    | assumption | exact covers_of hw rfl | (intro _) | apply keeps_devUpd | split
    | refine keeps_pair (by assumption) ?_)

theorem keeps_orderExtract (c : ModeCause) {s : State}
    (hw : Covers 0x1000 w) (h : Keeps w r s) : Keeps w r (orderExtract c s) := by
  unfold orderExtract
  with_reducible repeat' (beta_reduce; first
    | assumption | exact covers_of hw rfl | (intro _) | apply keeps_addCause | apply keeps_devUpd | split
    | refine keeps_pair (by assumption) ?_)

theorem keeps_orderPreserve (cause : Nat) {s : State}
    (hw : Covers 0x1000 w) (h : Keeps w r s) : Keeps w r (orderPreserve cause s) := by
  unfold orderPreserve
  with_reducible repeat' (beta_reduce; first
    | assumption | exact covers_of hw rfl | (intro _) | apply keeps_devUpd | split
    | refine keeps_pair (by assumption) ?_)

theorem keeps_faultStop (reason : Nat) {s : State}
    (hw : Covers 0x102002F3AB w) (h : Keeps w r s) : Keeps w r (faultStop reason s) := by
  unfold faultStop
  with_reducible repeat' (beta_reduce; first
    | assumption | exact covers_of hw rfl | (intro _)
    | (extract_lets +onlyGivenNames x; first
      | (refine keeps_cut (w := w) (r := r) (s := x) ?_ ?_; (on_goal 2 => (intro hx; clear_value x)); unfold x; clear x)
      | (refine keeps_cut (w := w) (r := r) (s := x.1) ?_ ?_; (on_goal 2 => (intro hx; clear_value x)); unfold x; clear x)
      | clear_value x)
    | apply keeps_sleepExit | apply keeps_orderExtract | apply keeps_reportUie | apply keeps_logEv | apply keeps_set
    | exact ⟨rfl, rfl⟩ | split | refine keeps_pair (by assumption) ?_ | refine keeps_mk ?_)

theorem keeps_rxHold (c : Nat) (t : Stroke) (rest : Bool) (w0 : RxWhat) {s : State}
    (hw : Covers 0x420000 w) (h : Keeps w r s) : Keeps w r (rxHold c t rest w0 s) := by
  unfold rxHold
  with_reducible repeat' (first
    | assumption | exact covers_of hw rfl
    | (extract_lets +onlyGivenNames x; first
      | (refine keeps_cut (w := w) (r := r) (s := x) ?_ ?_; (on_goal 2 => (intro hx; clear_value x)); unfold x; clear x)
      | (refine keeps_cut (w := w) (r := r) (s := x.1) ?_ ?_; (on_goal 2 => (intro hx; clear_value x)); unfold x; clear x)
      | clear_value x)
    | exact ⟨rfl, rfl⟩ | split | refine keeps_pair (by assumption) ?_ | refine keeps_mk ?_)

theorem keeps_hostHeard {s : State}
    (hw : Covers 0x102002C00B w) (h : Keeps w r s) : Keeps w r (hostHeard s) := by
  unfold hostHeard
  with_reducible repeat' (beta_reduce; first
    | assumption | exact covers_of hw rfl | (intro _) | apply keeps_pwrUpd | apply keeps_leaveL1 | split
    | refine keeps_pair (by assumption) ?_)

theorem keeps_hostTlp (c : Nat) (i : Instr) (f : State → State) {s : State}
    (hf : ∀ (s : State), Keeps w r s → Keeps w r (f s)) (hw : Covers 0x102042D3AB w) (h : Keeps w r s) : Keeps w r (hostTlp c i f s) := by
  unfold hostTlp
  with_reducible repeat' (first
    | assumption | exact covers_of hw rfl | (intro _) | apply hf | apply keeps_rxHold | apply keeps_raise
    | apply keeps_hostHeard | split | refine keeps_pair (by assumption) ?_)

theorem keeps_hostPosted (c : Nat) (i : Instr) (f : State → State) {s : State}
    (hf : ∀ (s : State), Keeps w r s → Keeps w r (f s)) (hw : Covers 0x102042D3AB w) (h : Keeps w r s) : Keeps w r (hostPosted c i f s) := by
  unfold hostPosted
  with_reducible repeat' (first
    | assumption | exact covers_of hw rfl | (intro _) | apply hf | apply keeps_hostTlp | split
    | refine keeps_pair (by assumption) ?_)

theorem keeps_inOrder (c : Nat) (t : Stroke) (i : Instr) (f : State → State) {s : State}
    (hf : ∀ (s : State), Keeps w r s → Keeps w r (f s)) (hw : Covers 0x420000 w) (h : Keeps w r s) : Keeps w r (inOrder c t i f s) := by
  unfold inOrder
  with_reducible repeat' (first
    | assumption | exact covers_of hw rfl | (intro _) | apply hf | apply keeps_rxHold | split
    | refine keeps_pair (by assumption) ?_)

theorem keeps_answerHost (c : Nat) (l : List Out) {s : State}
    (hw : Covers 0x420001 w) (h : Keeps w r s) : Keeps w r (answerHost c l s) := by
  unfold answerHost
  with_reducible repeat' (first
    | assumption | exact covers_of hw rfl | (intro _) | apply keeps_rxHold | apply keeps_doAll | apply keeps_emit
    | split | refine keeps_pair (by assumption) ?_)

theorem keeps_stampedAs (t : Stroke) (f : State → State) {s : State}
    (hf : ∀ (s : State), Keeps w r s → Keeps w r (f s)) (hw : Covers 0x4 w) (h : Keeps w r s) : Keeps w r (stampedAs t f s) := by
  unfold stampedAs
  with_reducible repeat' (first
    | assumption | exact covers_of hw rfl | (intro _)
    | (extract_lets +onlyGivenNames x; first
      | (refine keeps_cut (w := w) (r := r) (s := x) ?_ ?_; (on_goal 2 => (intro hx; clear_value x)); unfold x; clear x)
      | (refine keeps_cut (w := w) (r := r) (s := x.1) ?_ ?_; (on_goal 2 => (intro hx; clear_value x)); unfold x; clear x)
      | clear_value x)
    | apply hf | exact ⟨rfl, rfl⟩ | split | refine keeps_pair (by assumption) ?_ | refine keeps_mk ?_)

theorem keeps_ctxUpd (c : Nat) (f : Ctx → Ctx) {s : State}
    (hw : Covers 0x40000 w) (h : Keeps w r s) : Keeps w r (State.ctxUpd s c f) := by
  unfold State.ctxUpd
  with_reducible repeat' (first
    | assumption | exact covers_of hw rfl | exact ⟨rfl, rfl⟩ | split | refine keeps_pair (by assumption) ?_
    | refine keeps_mk ?_)

theorem keeps_lbUpd (p : Nat) (f : Lb → Lb) {s : State}
    (hw : Covers 0x100000 w) (h : Keeps w r s) : Keeps w r (State.lbUpd s p f) := by
  unfold State.lbUpd
  with_reducible repeat' (first
    | assumption | exact covers_of hw rfl | exact ⟨rfl, rfl⟩ | split | refine keeps_pair (by assumption) ?_
    | refine keeps_mk ?_)

theorem keeps_cadUpd (f : Cad → Cad) {s : State}
    (hw : Covers 0x400000 w) (h : Keeps w r s) : Keeps w r (State.cadUpd s f) := by
  unfold State.cadUpd
  with_reducible repeat' (first
    | assumption | exact covers_of hw rfl | exact ⟨rfl, rfl⟩ | split | refine keeps_pair (by assumption) ?_
    | refine keeps_mk ?_)

theorem keeps_sumShift (f : Field) (old : Nat) (new : Nat) {s : State}
    (hw : Covers 0x8 w) (h : Keeps w r s) : Keeps w r (sumShift f old new s) := by
  unfold sumShift
  with_reducible repeat' (first
    | assumption | exact covers_of hw rfl | apply keeps_set | split | refine keeps_pair (by assumption) ?_)

theorem keeps_setShare (c : Nat) (w0 : List Word) {s : State}
    (hw : Covers 0x8 w) (h : Keeps w r s) : Keeps w r (setShare c w0 s) := by
  unfold setShare
  with_reducible repeat' (beta_reduce; first
    | assumption | exact covers_of hw rfl | (intro _)
    | (extract_lets +onlyGivenNames x; first
      | (refine keeps_cut (w := w) (r := r) (s := x) ?_ ?_; (on_goal 2 => (intro hx; clear_value x)); unfold x; clear x)
      | (refine keeps_cut (w := w) (r := r) (s := x.1) ?_ ?_; (on_goal 2 => (intro hx; clear_value x)); unfold x; clear x)
      | clear_value x)
    | apply keeps_setWord | apply keeps_sumShift | split | refine keeps_pair (by assumption) ?_)

theorem keeps_updOverDesc (c : Nat) {s : State}
    (hw : Covers 0x8 w) (h : Keeps w r s) : Keeps w r (updOverDesc c s) := by
  unfold updOverDesc
  with_reducible repeat' (first
    | assumption | exact covers_of hw rfl | apply keeps_set | split | refine keeps_pair (by assumption) ?_)

theorem keeps_updCqFull (c : Nat) (q : Nat) {s : State}
    (hw : Covers 0x102002D3AB w) (h : Keeps w r s) : Keeps w r (updCqFull c q s) := by
  unfold updCqFull
  with_reducible repeat' (first
    | assumption | exact covers_of hw rfl | apply keeps_raise | apply keeps_inc | apply keeps_set | split
    | refine keeps_pair (by assumption) ?_)

theorem keeps_qpUpd (c : Nat) (q : Nat) (f : Qp → Qp) {s : State}
    (hw : Covers 0x80008 w) (h : Keeps w r s) : Keeps w r (State.qpUpd s c q f) := by
  unfold State.qpUpd
  with_reducible repeat' (first
    | assumption | exact covers_of hw rfl
    | (extract_lets +onlyGivenNames x; first
      | (refine keeps_cut (w := w) (r := r) (s := x) ?_ ?_; (on_goal 2 => (intro hx; clear_value x)); unfold x; clear x)
      | (refine keeps_cut (w := w) (r := r) (s := x.1) ?_ ?_; (on_goal 2 => (intro hx; clear_value x)); unfold x; clear x)
      | clear_value x)
    | apply keeps_updOverDesc | apply keeps_set | exact ⟨rfl, rfl⟩ | split | refine keeps_pair (by assumption) ?_
    | refine keeps_mk ?_)

theorem keeps_descUpd (k : DKey) (f : Desc → Desc) {s : State}
    (hw : Covers 0x80000 w) (h : Keeps w r s) : Keeps w r (State.descUpd s k f) := by
  unfold State.descUpd
  with_reducible repeat' (beta_reduce; first
    | assumption | exact covers_of hw rfl | (intro _)
    | (extract_lets +onlyGivenNames x; first
      | (refine keeps_cut (w := w) (r := r) (s := x) ?_ ?_; (on_goal 2 => (intro hx; clear_value x)); unfold x; clear x)
      | (refine keeps_cut (w := w) (r := r) (s := x.1) ?_ ?_; (on_goal 2 => (intro hx; clear_value x)); unfold x; clear x)
      | clear_value x)
    | exact ⟨rfl, rfl⟩ | split | refine keeps_pair (by assumption) ?_ | refine keeps_mk ?_)

theorem keeps_setStack (c : Nat) (l : List (Nat × Nat)) {s : State}
    (hw : Covers 0x400 w) (h : Keeps w r s) : Keeps w r (State.setStack s c l) := by
  unfold State.setStack
  with_reducible repeat' (beta_reduce; first
    | assumption | exact covers_of hw rfl | (intro _) | exact ⟨rfl, rfl⟩ | split
    | refine keeps_pair (by assumption) ?_ | refine keeps_mk ?_)

theorem keeps_icStartHold (n : Nat) {s : State}
    (hw : Covers 0x808 w) (h : Keeps w r s) : Keeps w r (icStartHold n s) := by
  unfold icStartHold
  with_reducible repeat' (beta_reduce; first
    | assumption | exact covers_of hw rfl | (intro _)
    | (extract_lets +onlyGivenNames x; first
      | (refine keeps_cut (w := w) (r := r) (s := x) ?_ ?_; (on_goal 2 => (intro hx; clear_value x)); unfold x; clear x)
      | (refine keeps_cut (w := w) (r := r) (s := x.1) ?_ ?_; (on_goal 2 => (intro hx; clear_value x)); unfold x; clear x)
      | clear_value x)
    | apply keeps_set | exact ⟨rfl, rfl⟩ | split | refine keeps_pair (by assumption) ?_ | refine keeps_mk ?_)

theorem keeps_icClaim (c : Nat) (edge : Bool) {s : State}
    (hw : Covers 0xC08 w) (h : Keeps w r s) : Keeps w r (icClaim c edge s).1 := by
  unfold icClaim
  with_reducible repeat' (beta_reduce; first
    | assumption | exact covers_of hw rfl | (intro _) | apply keeps_doIf | apply keeps_setPending
    | apply keeps_icStartHold | apply keeps_clearPending | apply keeps_setStack | split
    | refine keeps_pair (by assumption) ?_)

theorem keeps_icEoi (c : Nat) (src : Nat) {s : State}
    (hw : Covers 0x102002D7AB w) (h : Keeps w r s) : Keeps w r (icEoi c src s) := by
  unfold icEoi
  with_reducible repeat' (beta_reduce; first
    | assumption | exact covers_of hw rfl | (intro _) | apply keeps_setStack | apply keeps_raise | apply keeps_set
    | split | refine keeps_pair (by assumption) ?_)

theorem keeps_icUnstack (c : Nat) {s : State}
    (hw : Covers 0x408 w) (h : Keeps w r s) : Keeps w r (icUnstack c s) := by
  unfold icUnstack
  with_reducible repeat' (first
    | assumption | exact covers_of hw rfl | (intro _) | apply keeps_doAll | apply keeps_setPending
    | apply keeps_setStack | split | refine keeps_pair (by assumption) ?_)

theorem keeps_icFence (c : Nat) {s : State}
    (hw : Covers 0x408 w) (h : Keeps w r s) : Keeps w r (icFence c s) := by
  unfold icFence
  with_reducible repeat' (first
    | assumption | exact covers_of hw rfl | apply keeps_icUnstack | apply keeps_set | split
    | refine keeps_pair (by assumption) ?_)

theorem keeps_cqTrigger (c : Nat) (q : Nat) {s : State}
    (hw : Covers 0x102002D3AB w) (h : Keeps w r s) : Keeps w r (cqTrigger c q s) := by
  unfold cqTrigger
  with_reducible repeat' (first
    | assumption | exact covers_of hw rfl | apply keeps_trigger | apply keeps_set | split
    | refine keeps_pair (by assumption) ?_)

theorem keeps_coalesce (c : Nat) (q : Nat) {s : State}
    (hw : Covers 0x102002D3AB w) (h : Keeps w r s) : Keeps w r (coalesce c q s) := by
  unfold coalesce
  with_reducible repeat' (beta_reduce; first
    | assumption | exact covers_of hw rfl | (intro _) | apply keeps_cqTrigger | apply keeps_doIf | apply keeps_set
    | apply keeps_inc | split | refine keeps_pair (by assumption) ?_)

theorem keeps_cqClear (c : Nat) (q : Nat) {s : State}
    (hw : Covers 0x208 w) (h : Keeps w r s) : Keeps w r (cqClear c q s) := by
  unfold cqClear
  with_reducible repeat' (beta_reduce; first
    | assumption | exact covers_of hw rfl | (intro _) | apply keeps_setWord | apply keeps_msixLose | split
    | refine keeps_pair (by assumption) ?_)

theorem keeps_cqEvtApply (c : Nat) (q : Nat) (v : Word) {s : State}
    (hw : Covers 0x102002D3AB w) (h : Keeps w r s) : Keeps w r (cqEvtApply c q v s) := by
  unfold cqEvtApply
  with_reducible repeat' (beta_reduce; first
    | assumption | exact covers_of hw rfl | (intro _)
    | (extract_lets +onlyGivenNames x; first
      | (refine keeps_cut (w := w) (r := r) (s := x) ?_ ?_; (on_goal 2 => (intro hx; clear_value x)); unfold x; clear x)
      | (refine keeps_cut (w := w) (r := r) (s := x.1) ?_ ?_; (on_goal 2 => (intro hx; clear_value x)); unfold x; clear x)
      | clear_value x)
    | apply keeps_set | apply keeps_doIf | apply keeps_cqTrigger | split | refine keeps_pair (by assumption) ?_)

theorem keeps_pendingVector (f : Nat → Nat → State → State) (c : Nat) (v : Nat) {s : State}
    (hf : ∀ (x0 : Nat) (x1 : Nat) (s : State), Keeps w r s → Keeps w r (f x0 x1 s)) (hw : Covers 0x80 w) (h : Keeps w r s) : Keeps w r (pendingVector f c v s) := by
  unfold pendingVector
  with_reducible repeat' (first
    | assumption | exact covers_of hw rfl | (intro _) | apply hf | apply keeps_setPba | split
    | refine keeps_pair (by assumption) ?_)

theorem keeps_sendPendingVector (c : Nat) (v : Nat) {s : State}
    (hw : Covers 0x280 w) (h : Keeps w r s) : Keeps w r (sendPendingVector c v s) := by
  unfold sendPendingVector
  with_reducible repeat' (beta_reduce; first
    | assumption | exact covers_of hw rfl | (intro _) | apply keeps_pendingVector | apply keeps_sendMsix | split
    | refine keeps_pair (by assumption) ?_)

theorem keeps_d0Return (c : Nat) {s : State}
    (hw : Covers 0x1A9 w) (h : Keeps w r s) : Keeps w r (d0Return c s) := by
  unfold d0Return
  with_reducible repeat' (beta_reduce; first
    | assumption | exact covers_of hw rfl | (intro _)
    | (extract_lets +onlyGivenNames x; first
      | (refine keeps_cut (w := w) (r := r) (s := x) ?_ ?_; (on_goal 2 => (intro hx; clear_value x)); unfold x; clear x)
      | (refine keeps_cut (w := w) (r := r) (s := x.1) ?_ ?_; (on_goal 2 => (intro hx; clear_value x)); unfold x; clear x)
      | clear_value x)
    | apply keeps_fnUpd | apply keeps_doAll | apply keeps_pendingVector | apply keeps_msixNow | apply keeps_set
    | apply keeps_dropHeld | split | refine keeps_pair (by assumption) ?_)

theorem keeps_execSourceEdge (n : Fin 288) {s : State}
    (hw : Covers 0x102002D3AB w) (h : Keeps w r s) : Ends w r (execSourceEdge n s) := by
  unfold execSourceEdge
  with_reducible repeat' (first
    | assumption | exact covers_of hw rfl | (intro _) | apply ends_next | apply keeps_done | apply keeps_doIf
    | apply keeps_raise | split | refine keeps_pair (by assumption) ?_)

theorem keeps_execHoldOffExpiry (g : Fin 32) {s : State}
    (hw : Covers 0x8 w) (h : Keeps w r s) : Ends w r (execHoldOffExpiry g s) := by
  unfold execHoldOffExpiry
  with_reducible repeat' (beta_reduce; first
    | assumption | exact covers_of hw rfl | (intro _) | apply ends_next | apply keeps_done | apply keeps_set | split
    | refine keeps_pair (by assumption) ?_)

theorem keeps_execStrokeTimerExpiry (t : Fin 4) {s : State}
    (hw : Covers 0x102002D3AB w) (h : Keeps w r s) : Ends w r (execStrokeTimerExpiry t s) := by
  unfold execStrokeTimerExpiry
  with_reducible repeat' (first
    | assumption | exact covers_of hw rfl | apply ends_next | apply keeps_done | apply keeps_raise | apply keeps_set
    | split | refine keeps_pair (by assumption) ?_)

theorem keeps_execStrokeCompareMatch {s : State}
    (hw : Covers 0x102002D3AB w) (h : Keeps w r s) : Ends w r (execStrokeCompareMatch s) := by
  unfold execStrokeCompareMatch
  with_reducible repeat' (first
    | assumption | exact covers_of hw rfl | apply ends_next | apply keeps_done | apply keeps_raise | apply keeps_set
    | split | refine keeps_pair (by assumption) ?_)

theorem keeps_execContextEventSet (c : Fin 1024) (b : Fin 8) {s : State}
    (hw : Covers 0x102002D3AB w) (h : Keeps w r s) : Ends w r (execContextEventSet c b s) := by
  unfold execContextEventSet
  with_reducible repeat' (first
    | assumption | exact covers_of hw rfl | apply ends_next | apply keeps_done | apply keeps_ctxEvent | split
    | refine keeps_pair (by assumption) ?_)

theorem keeps_execCoalescingTimerExpiry (c : Fin 1024) (q : Fin 64) {s : State}
    (hw : Covers 0x102002D3AB w) (h : Keeps w r s) : Ends w r (execCoalescingTimerExpiry c q s) := by
  unfold execCoalescingTimerExpiry
  with_reducible repeat' (first
    | assumption | exact covers_of hw rfl | apply ends_next | apply keeps_done | apply keeps_cqTrigger | split
    | refine keeps_pair (by assumption) ?_)

theorem keeps_cqEvtWrite (c : Nat) (q : Nat) (v : Word) {s : State}
    (hw : Covers 0x10000 w) (h : Keeps w r s) : Keeps w r (cqEvtWrite c q v s) := by
  unfold cqEvtWrite
  with_reducible repeat' (beta_reduce; first
    | assumption | exact covers_of hw rfl | (intro _) | apply keeps_doIf | exact ⟨rfl, rfl⟩ | split
    | refine keeps_pair (by assumption) ?_ | refine keeps_mk ?_)

theorem keeps_execCqEvtCfgWrite (c : Fin 1024) (q : Fin 64) (v : Word) {s : State}
    (hw : Covers 0x102043D3AB w) (h : Keeps w r s) : Ends w r (execCqEvtCfgWrite c q v s) := by
  unfold execCqEvtCfgWrite
  with_reducible repeat' (first
    | assumption | exact covers_of hw rfl | (intro _) | apply ends_next | apply keeps_done | apply keeps_hostPosted
    | apply keeps_inOrder | apply keeps_cqEvtWrite | split | refine keeps_pair (by assumption) ?_)

theorem keeps_execMsixTriggerDelivery (c : Fin 1024) (v : Fin 64) {s : State}
    (hw : Covers 0x102002D3AB w) (h : Keeps w r s) : Ends w r (execMsixTriggerDelivery c v s) := by
  unfold execMsixTriggerDelivery
  with_reducible repeat' (first
    | assumption | exact covers_of hw rfl | apply ends_next | apply keeps_done | apply keeps_trigger | split
    | refine keeps_pair (by assumption) ?_)

theorem keeps_unmask (c : Nat) (v : Nat) {s : State}
    (hw : Covers 0x2C0 w) (h : Keeps w r s) : Keeps w r (unmask c v s) := by
  unfold unmask
  with_reducible repeat' (first
    | assumption | exact covers_of hw rfl
    | (extract_lets +onlyGivenNames x; first
      | (refine keeps_cut (w := w) (r := r) (s := x) ?_ ?_; (on_goal 2 => (intro hx; clear_value x)); unfold x; clear x)
      | (refine keeps_cut (w := w) (r := r) (s := x.1) ?_ ?_; (on_goal 2 => (intro hx; clear_value x)); unfold x; clear x)
      | clear_value x)
    | apply keeps_sendPendingVector | apply keeps_setMsix | split | refine keeps_pair (by assumption) ?_)

theorem keeps_execMsixVectorUnmask (c : Fin 1024) (v : Fin 64) {s : State}
    (hw : Covers 0x102042D3EB w) (h : Keeps w r s) : Ends w r (execMsixVectorUnmask c v s) := by
  unfold execMsixVectorUnmask
  with_reducible repeat' (first
    | assumption | exact covers_of hw rfl | (intro _) | apply ends_next | apply keeps_done | apply keeps_hostPosted
    | apply keeps_inOrder | apply keeps_unmask | split | refine keeps_pair (by assumption) ?_)

theorem keeps_execD0Return (c : Fin 1024) {s : State}
    (hw : Covers 0x1A9 w) (h : Keeps w r s) : Ends w r (execD0Return c s) := by
  unfold execD0Return
  with_reducible repeat' (first
    | assumption | exact covers_of hw rfl | apply ends_next | apply keeps_done | apply keeps_d0Return | split
    | refine keeps_pair (by assumption) ?_)

theorem keeps_hlUpd (f : Hl → Hl) {s : State}
    (hw : Covers 0x20000 w) (h : Keeps w r s) : Keeps w r (State.hlUpd s f) := by
  unfold State.hlUpd
  with_reducible repeat' (first
    | assumption | exact covers_of hw rfl | exact ⟨rfl, rfl⟩ | split | refine keeps_pair (by assumption) ?_
    | refine keeps_mk ?_)

theorem keeps_updC0Short {s : State}
    (hw : Covers 0x102002D3AB w) (h : Keeps w r s) : Keeps w r (updC0Short s) := by
  unfold updC0Short
  with_reducible repeat' (first
    | assumption | exact covers_of hw rfl | (intro _)
    | (extract_lets +onlyGivenNames x; first
      | (refine keeps_cut (w := w) (r := r) (s := x) ?_ ?_; (on_goal 2 => (intro hx; clear_value x)); unfold x; clear x)
      | (refine keeps_cut (w := w) (r := r) (s := x.1) ?_ ?_; (on_goal 2 => (intro hx; clear_value x)); unfold x; clear x)
      | clear_value x)
    | apply keeps_doIf | apply keeps_raise | apply keeps_set | split | refine keeps_pair (by assumption) ?_)

theorem keeps_setLink (width : Nat) (speed : Nat) {s : State}
    (hw : Covers 0x102002D3AB w) (h : Keeps w r s) : Keeps w r (setLink width speed s) := by
  unfold setLink
  with_reducible repeat' (first
    | assumption | exact covers_of hw rfl | apply keeps_updC0Short | apply keeps_set | split
    | refine keeps_pair (by assumption) ?_)

theorem keeps_execHlLinkUp (width : Fin 17) (speed : Fin 7) (flit : Bool) {s : State}
    (hw : Covers 0x102002D3AB w) (h : Keeps w r s) : Ends w r (execHlLinkUp width speed flit s) := by
  unfold execHlLinkUp
  with_reducible repeat' (beta_reduce; first
    | assumption | exact covers_of hw rfl | (intro _)
    | (extract_lets +onlyGivenNames x; first
      | (refine keeps_cut (w := w) (r := r) (s := x) ?_ ?_; (on_goal 2 => (intro hx; clear_value x)); unfold x; clear x)
      | (refine keeps_cut (w := w) (r := r) (s := x.1) ?_ ?_; (on_goal 2 => (intro hx; clear_value x)); unfold x; clear x)
      | clear_value x)
    | apply ends_next | apply keeps_done | apply keeps_hlUpd | apply keeps_doIf | apply keeps_emit | apply keeps_raise
    | apply keeps_setLink | apply keeps_set | apply keeps_backToL0 | apply keeps_devUpd | split
    | refine keeps_pair (by assumption) ?_)

theorem keeps_execHlLaneFail (pass : BitVec 16) {s : State}
    (hw : Covers 0x102002F3AB w) (h : Keeps w r s) : Ends w r (execHlLaneFail pass s) := by
  unfold execHlLaneFail
  with_reducible repeat' (beta_reduce; first
    | assumption | exact covers_of hw rfl | (intro _)
    | (extract_lets +onlyGivenNames x; first
      | (refine keeps_cut (w := w) (r := r) (s := x) ?_ ?_; (on_goal 2 => (intro hx; clear_value x)); unfold x; clear x)
      | (refine keeps_cut (w := w) (r := r) (s := x.1) ?_ ?_; (on_goal 2 => (intro hx; clear_value x)); unfold x; clear x)
      | clear_value x)
    | apply ends_next | apply keeps_done | apply keeps_logEv | apply keeps_raise | apply keeps_inc
    | apply keeps_setLink | apply keeps_set | apply keeps_hlUpd | split | refine keeps_pair (by assumption) ?_)

theorem keeps_execHlRecoveryEntry {s : State}
    (hw : Covers 0x102002D3AB w) (h : Keeps w r s) : Ends w r (execHlRecoveryEntry s) := by
  unfold execHlRecoveryEntry
  with_reducible repeat' (first
    | assumption | exact covers_of hw rfl | apply ends_next | apply keeps_done | apply keeps_raise
    | apply keeps_leaveL0 | apply keeps_set | split | refine keeps_pair (by assumption) ?_)

theorem keeps_execHlRecoveryExit {s : State}
    (hw : Covers 0x20008 w) (h : Keeps w r s) : Ends w r (execHlRecoveryExit s) := by
  unfold execHlRecoveryExit
  with_reducible repeat' (first
    | assumption | exact covers_of hw rfl | apply ends_next | apply keeps_done | apply keeps_backToL0
    | apply keeps_set | split | refine keeps_pair (by assumption) ?_)

theorem keeps_execHlPerstAssertion {s : State}
    (hw : Covers 0x102002D3AB w) (h : Keeps w r s) : Ends w r (execHlPerstAssertion s) := by
  unfold execHlPerstAssertion
  with_reducible repeat' (beta_reduce; first
    | assumption | exact covers_of hw rfl | (intro _) | apply ends_next | apply keeps_done | apply keeps_hlUpd
    | apply keeps_raise | apply keeps_devUpd | split | refine keeps_pair (by assumption) ?_)

theorem keeps_execHlPerstRelease {s : State}
    (hw : Covers 0x21008 w) (h : Keeps w r s) : Ends w r (execHlPerstRelease s) := by
  unfold execHlPerstRelease
  with_reducible repeat' (beta_reduce; first
    | assumption | exact covers_of hw rfl | (intro _) | apply ends_next | apply keeps_done | apply keeps_doIf
    | apply keeps_set | apply keeps_hlUpd | apply keeps_devUpd | split | refine keeps_pair (by assumption) ?_)

theorem keeps_leftLow (low : Bool) {s : State}
    (hw : Covers 0x102002D3AB w) (h : Keeps w r s) : Keeps w r (leftLow low s) := by
  unfold leftLow
  with_reducible repeat' (beta_reduce; first
    | assumption | exact covers_of hw rfl | (intro _) | apply keeps_doIf | apply keeps_raise | apply keeps_hlUpd
    | split | refine keeps_pair (by assumption) ?_)

theorem keeps_execHotResetReceived {s : State}
    (hw : Covers 0x102002D3AB w) (h : Keeps w r s) : Ends w r (execHotResetReceived s) := by
  unfold execHotResetReceived
  with_reducible repeat' (beta_reduce; first
    | assumption | exact covers_of hw rfl | (intro _)
    | (extract_lets +onlyGivenNames x; first
      | (refine keeps_cut (w := w) (r := r) (s := x) ?_ ?_; (on_goal 2 => (intro hx; clear_value x)); unfold x; clear x)
      | (refine keeps_cut (w := w) (r := r) (s := x.1) ?_ ?_; (on_goal 2 => (intro hx; clear_value x)); unfold x; clear x)
      | clear_value x)
    | apply ends_next | apply keeps_done | apply keeps_doIf | apply keeps_raise | apply keeps_leftLow
    | apply keeps_leaveL0 | apply keeps_set | apply keeps_hlUpd | split | refine keeps_pair (by assumption) ?_)

theorem keeps_barSize (vf : Bool) (bar4 : Bool) (log2 : Nat) {s : State}
    (hw : Covers 0x102002D3AB w) (h : Keeps w r s) : Keeps w r (barSize vf bar4 log2 s) := by
  unfold barSize
  with_reducible repeat' (beta_reduce; first
    | assumption | exact covers_of hw rfl | (intro _)
    | (extract_lets +onlyGivenNames x; first
      | (refine keeps_cut (w := w) (r := r) (s := x) ?_ ?_; (on_goal 2 => (intro hx; clear_value x)); unfold x; clear x)
      | (refine keeps_cut (w := w) (r := r) (s := x.1) ?_ ?_; (on_goal 2 => (intro hx; clear_value x)); unfold x; clear x)
      | clear_value x)
    | apply keeps_doIf | apply keeps_raise | apply keeps_hlUpd | split | refine keeps_pair (by assumption) ?_)

theorem keeps_fnTo (c : Nat) (g : Fn → Fn) {s : State}
    (hw : Covers 0x102002D3AB w) (h : Keeps w r s) : Keeps w r (fnTo c g s) := by
  unfold fnTo
  with_reducible repeat' (first
    | assumption | exact covers_of hw rfl | (intro _)
    | (extract_lets +onlyGivenNames x; first
      | (refine keeps_cut (w := w) (r := r) (s := x) ?_ ?_; (on_goal 2 => (intro hx; clear_value x)); unfold x; clear x)
      | (refine keeps_cut (w := w) (r := r) (s := x.1) ?_ ?_; (on_goal 2 => (intro hx; clear_value x)); unfold x; clear x)
      | clear_value x)
    | apply keeps_doIf | apply keeps_raise | apply keeps_fnUpd | split | refine keeps_pair (by assumption) ?_)

theorem keeps_barSizeWrite (vf : Bool) (bar4 : Bool) (log2 : Nat) {s : State}
    (hw : Covers 0x102002D3AB w) (h : Keeps w r s) : Keeps w r (barSizeWrite vf bar4 log2 s) := by
  unfold barSizeWrite
  with_reducible repeat' (first
    | assumption | exact covers_of hw rfl
    | (extract_lets +onlyGivenNames x; first
      | (refine keeps_cut (w := w) (r := r) (s := x) ?_ ?_; (on_goal 2 => (intro hx; clear_value x)); unfold x; clear x)
      | (refine keeps_cut (w := w) (r := r) (s := x.1) ?_ ?_; (on_goal 2 => (intro hx; clear_value x)); unfold x; clear x)
      | clear_value x)
    | apply keeps_barSize | split | refine keeps_pair (by assumption) ?_)

theorem keeps_execBarSizeWrite (vf : Bool) (bar4 : Bool) (log2 : Fin 64) {s : State}
    (hw : Covers 0x102042D3AB w) (h : Keeps w r s) : Ends w r (execBarSizeWrite vf bar4 log2 s) := by
  unfold execBarSizeWrite
  with_reducible repeat' (first
    | assumption | exact covers_of hw rfl | (intro _) | apply ends_next | apply keeps_done | apply keeps_hostTlp
    | apply keeps_inOrder | apply keeps_barSizeWrite | split | refine keeps_pair (by assumption) ?_)

theorem keeps_sendPendingVectors (c : Nat) {s : State}
    (hw : Covers 0x280 w) (h : Keeps w r s) : Keeps w r (sendPendingVectors c s) := by
  unfold sendPendingVectors
  with_reducible repeat' (first
    | assumption | exact covers_of hw rfl | (intro _) | apply keeps_doAll | apply keeps_sendPendingVector | split
    | refine keeps_pair (by assumption) ?_)

theorem keeps_setBme (c : Nat) (v : Bool) {s : State}
    (hw : Covers 0x102002D3AB w) (h : Keeps w r s) : Keeps w r (setBme c v s) := by
  unfold setBme
  with_reducible repeat' (beta_reduce; first
    | assumption | exact covers_of hw rfl | (intro _) | apply keeps_doIf | apply keeps_devUpd
    | apply keeps_sendPendingVectors | apply keeps_raise | apply keeps_fnUpd | split
    | refine keeps_pair (by assumption) ?_)

theorem keeps_bmeWrite (c : Nat) (v : Bool) {s : State}
    (hw : Covers 0x102002D3AB w) (h : Keeps w r s) : Keeps w r (bmeWrite c v s) := by
  unfold bmeWrite
  with_reducible repeat' (first
    | assumption | exact covers_of hw rfl | (intro _) | apply keeps_doIf | apply keeps_setBme | split
    | refine keeps_pair (by assumption) ?_)

theorem keeps_execBusMasterEnableWrite (c : Fin 1024) (v : Bool) {s : State}
    (hw : Covers 0x102042D3AB w) (h : Keeps w r s) : Ends w r (execBusMasterEnableWrite c v s) := by
  unfold execBusMasterEnableWrite
  with_reducible repeat' (first
    | assumption | exact covers_of hw rfl | (intro _) | apply ends_next | apply keeps_done | apply keeps_hostTlp
    | apply keeps_inOrder | apply keeps_bmeWrite | split | refine keeps_pair (by assumption) ?_)

theorem keeps_setPmcsr (c : Nat) (d3 : Bool) (pmeEn : Bool) (clrStatus : Bool) {s : State}
    (hw : Covers 0x102002D3AB w) (h : Keeps w r s) : Keeps w r (setPmcsr c d3 pmeEn clrStatus s) := by
  unfold setPmcsr
  with_reducible repeat' (beta_reduce; first
    | assumption | exact covers_of hw rfl | (intro _)
    | (extract_lets +onlyGivenNames x; first
      | (refine keeps_cut (w := w) (r := r) (s := x) ?_ ?_; (on_goal 2 => (intro hx; clear_value x)); unfold x; clear x)
      | (refine keeps_cut (w := w) (r := r) (s := x.1) ?_ ?_; (on_goal 2 => (intro hx; clear_value x)); unfold x; clear x)
      | clear_value x)
    | apply keeps_doIf | apply keeps_raise | apply keeps_fnUpd | split | refine keeps_pair (by assumption) ?_)

theorem keeps_pmcsrPut (c : Nat) (d3 : Bool) (pmeEn : Bool) (clrStatus : Bool) {s : State}
    (hw : Covers 0x102002D3AB w) (h : Keeps w r s) : Keeps w r (pmcsrPut c d3 pmeEn clrStatus s) := by
  unfold pmcsrPut
  with_reducible repeat' (first
    | assumption | exact covers_of hw rfl | (intro _) | apply keeps_doIf | apply keeps_setPmcsr | split
    | refine keeps_pair (by assumption) ?_)

theorem keeps_execPmcsrWrite (c : Fin 1024) (d3 : Bool) (pmeEn : Bool) (clrStatus : Bool) {s : State}
    (hw : Covers 0x102042D3AB w) (h : Keeps w r s) : Ends w r (execPmcsrWrite c d3 pmeEn clrStatus s) := by
  unfold execPmcsrWrite
  with_reducible repeat' (first
    | assumption | exact covers_of hw rfl | (intro _) | apply ends_next | apply keeps_done | apply keeps_hostTlp
    | apply keeps_inOrder | apply keeps_pmcsrPut | split | refine keeps_pair (by assumption) ?_)

theorem keeps_turnOff {s : State}
    (hw : Covers 0x102002D3AB w) (h : Keeps w r s) : Keeps w r (turnOff s) := by
  unfold turnOff
  with_reducible repeat' (first
    | assumption | exact covers_of hw rfl | apply keeps_raise | apply keeps_leaveL0 | apply keeps_set
    | apply keeps_emit | split | refine keeps_pair (by assumption) ?_)

theorem keeps_execPmeTurnOff {s : State}
    (hw : Covers 0x102042D3AB w) (h : Keeps w r s) : Ends w r (execPmeTurnOff s) := by
  unfold execPmeTurnOff
  with_reducible repeat' (first
    | assumption | exact covers_of hw rfl | (intro _) | apply ends_next | apply keeps_done | apply keeps_hostPosted
    | apply keeps_turnOff | split | refine keeps_pair (by assumption) ?_)

theorem keeps_unsupported (k : UnsupportedReq) {s : State}
    (hw : Covers 0x102042D3AB w) (h : Keeps w r s) : Keeps w r (unsupported k s) := by
  unfold unsupported
  with_reducible repeat' (beta_reduce; first
    | assumption | exact covers_of hw rfl | (intro _) | apply keeps_answerHost | apply keeps_aerTlp
    | apply keeps_aerAdvisory | split | refine keeps_pair (by assumption) ?_)

theorem keeps_execHostUnsupportedRequest (k : UnsupportedReq) {s : State}
    (hw : Covers 0x102042D3AB w) (h : Keeps w r s) : Ends w r (execHostUnsupportedRequest k s) := by
  unfold execHostUnsupportedRequest
  with_reducible repeat' (beta_reduce; first
    | assumption | exact covers_of hw rfl | (intro _) | apply ends_next | apply keeps_done | apply keeps_hostTlp
    | apply keeps_unsupported | apply keeps_hostPosted | split | refine keeps_pair (by assumption) ?_)

theorem keeps_atsBump (e : Nat) {s : State}
    (hw : Covers 0x20000 w) (h : Keeps w r s) : Keeps w r (atsBump e s) := by
  unfold atsBump
  with_reducible repeat' (beta_reduce; first
    | assumption | exact covers_of hw rfl | (intro _) | apply keeps_hlUpd | split
    | refine keeps_pair (by assumption) ?_)

theorem keeps_atsDiscard (p : AtsEntry → Bool) {s : State}
    (hw : Covers 0x20008 w) (h : Keeps w r s) : Keeps w r (atsDiscard p s) := by
  unfold atsDiscard
  with_reducible repeat' (beta_reduce; first
    | assumption | exact covers_of hw rfl | (intro _)
    | (extract_lets +onlyGivenNames x; first
      | (refine keeps_cut (w := w) (r := r) (s := x) ?_ ?_; (on_goal 2 => (intro hx; clear_value x)); unfold x; clear x)
      | (refine keeps_cut (w := w) (r := r) (s := x.1) ?_ ?_; (on_goal 2 => (intro hx; clear_value x)); unfold x; clear x)
      | clear_value x)
    | apply keeps_set | apply keeps_doAll | apply keeps_atsBump | apply keeps_hlUpd | split
    | refine keeps_pair (by assumption) ?_)

theorem keeps_atsUse (c : Nat) (iova : Addr) {s : State}
    (hw : Covers 0x20000 w) (h : Keeps w r s) : Keeps w r (atsUse c iova s) := by
  unfold atsUse
  with_reducible repeat' (beta_reduce; first
    | assumption | exact covers_of hw rfl | (intro _) | apply keeps_hlUpd | split
    | refine keeps_pair (by assumption) ?_)

theorem keeps_atsTrim {s : State}
    (hw : Covers 0x20008 w) (h : Keeps w r s) : Keeps w r (atsTrim s) := by
  unfold atsTrim
  with_reducible repeat' (beta_reduce; first
    | assumption | exact covers_of hw rfl | (intro _)
    | (extract_lets +onlyGivenNames x; first
      | (refine keeps_cut (w := w) (r := r) (s := x) ?_ ?_; (on_goal 2 => (intro hx; clear_value x)); unfold x; clear x)
      | (refine keeps_cut (w := w) (r := r) (s := x.1) ?_ ?_; (on_goal 2 => (intro hx; clear_value x)); unfold x; clear x)
      | clear_value x)
    | apply keeps_atsDiscard | split | refine keeps_pair (by assumption) ?_)

theorem keeps_atsMakeRoom (c : Nat) {s : State}
    (hw : Covers 0x20008 w) (h : Keeps w r s) : Keeps w r (atsMakeRoom c s) := by
  unfold atsMakeRoom
  with_reducible repeat' (beta_reduce; first
    | assumption | exact covers_of hw rfl | (intro _)
    | (extract_lets +onlyGivenNames x; first
      | (refine keeps_cut (w := w) (r := r) (s := x) ?_ ?_; (on_goal 2 => (intro hx; clear_value x)); unfold x; clear x)
      | (refine keeps_cut (w := w) (r := r) (s := x.1) ?_ ?_; (on_goal 2 => (intro hx; clear_value x)); unfold x; clear x)
      | clear_value x)
    | apply keeps_atsDiscard | split | refine keeps_pair (by assumption) ?_)

theorem keeps_atsFill (c : Nat) (iova : Addr) (ta : Addr) (log2 : Nat) (r0 : Bool) (w0 : Bool) (u : Bool) (n : Bool) (g : Bool) {s : State}
    (hw : Covers 0x102002D3AB w) (h : Keeps w r s) : Keeps w r (atsFill c iova ta log2 r0 w0 u n g s) := by
  unfold atsFill
  with_reducible repeat' (beta_reduce; first
    | assumption | exact covers_of hw rfl | (intro _)
    | (extract_lets +onlyGivenNames x; first
      | (refine keeps_cut (w := w) (r := r) (s := x) ?_ ?_; (on_goal 2 => (intro hx; clear_value x)); unfold x; clear x)
      | (refine keeps_cut (w := w) (r := r) (s := x.1) ?_ ?_; (on_goal 2 => (intro hx; clear_value x)); unfold x; clear x)
      | clear_value x)
    | apply keeps_doIf | apply keeps_raise | apply keeps_set | apply keeps_atsBump | apply keeps_hlUpd
    | apply keeps_atsMakeRoom | apply keeps_atsDiscard | split | refine keeps_pair (by assumption) ?_)

theorem keeps_atsInvalidate (c : Nat) (iova : Addr) (log2 : Nat) (itag : Nat) {s : State}
    (hw : Covers 0x102002D3AB w) (h : Keeps w r s) : Keeps w r (atsInvalidate c iova log2 itag s) := by
  unfold atsInvalidate
  with_reducible repeat' (beta_reduce; first
    | assumption | exact covers_of hw rfl | (intro _) | apply keeps_raise | apply keeps_atsDiscard | apply keeps_inc
    | apply keeps_hlUpd | split | refine keeps_pair (by assumption) ?_)

theorem keeps_execAtsInvalidationRequest (c : Fin 1024) (iova : Addr) (log2 : Fin 65) (itag : Fin 32) {s : State}
    (hw : Covers 0x102042D3AB w) (h : Keeps w r s) : Ends w r (execAtsInvalidationRequest c iova log2 itag s) := by
  unfold execAtsInvalidationRequest
  with_reducible repeat' (first
    | assumption | exact covers_of hw rfl | (intro _) | apply ends_next | apply keeps_done | apply keeps_hostPosted
    | apply keeps_atsInvalidate | split | refine keeps_pair (by assumption) ?_)

theorem keeps_execAtsInvalidationComplete (itag : Fin 32) {s : State}
    (hw : Covers 0x20009 w) (h : Keeps w r s) : Ends w r (execAtsInvalidationComplete itag s) := by
  unfold execAtsInvalidationComplete
  with_reducible repeat' (beta_reduce; first
    | assumption | exact covers_of hw rfl | (intro _) | apply ends_next | apply keeps_done | apply keeps_emit
    | apply keeps_dec | apply keeps_hlUpd | split | refine keeps_pair (by assumption) ?_)

theorem keeps_atsFlush {s : State}
    (hw : Covers 0x20008 w) (h : Keeps w r s) : Keeps w r (atsFlush s) := by
  unfold atsFlush
  with_reducible repeat' (beta_reduce; first
    | assumption | exact covers_of hw rfl | (intro _) | apply keeps_atsDiscard | split
    | refine keeps_pair (by assumption) ?_)

theorem keeps_execHlAtsFlush {s : State}
    (hw : Covers 0x20008 w) (h : Keeps w r s) : Ends w r (execHlAtsFlush s) := by
  unfold execHlAtsFlush
  with_reducible repeat' (first
    | assumption | exact covers_of hw rfl | apply ends_next | apply keeps_done | apply keeps_atsFlush | split
    | refine keeps_pair (by assumption) ?_)

theorem keeps_hlRetrain {s : State}
    (hw : Covers 0x102002D3AB w) (h : Keeps w r s) : Keeps w r (hlRetrain s) := by
  unfold hlRetrain
  with_reducible repeat' (beta_reduce; first
    | assumption | exact covers_of hw rfl | (intro _)
    | (extract_lets +onlyGivenNames x; first
      | (refine keeps_cut (w := w) (r := r) (s := x) ?_ ?_; (on_goal 2 => (intro hx; clear_value x)); unfold x; clear x)
      | (refine keeps_cut (w := w) (r := r) (s := x.1) ?_ ?_; (on_goal 2 => (intro hx; clear_value x)); unfold x; clear x)
      | clear_value x)
    | apply keeps_setLink | apply keeps_set | apply keeps_doIf | apply keeps_raise | apply keeps_doAll
    | apply keeps_fnUpd | apply keeps_leftLow | apply keeps_leaveL0 | split | refine keeps_pair (by assumption) ?_)

theorem keeps_execHlRetrain {s : State}
    (hw : Covers 0x102002D3AB w) (h : Keeps w r s) : Ends w r (execHlRetrain s) := by
  unfold execHlRetrain
  with_reducible repeat' (first
    | assumption | exact covers_of hw rfl | apply ends_next | apply keeps_done | apply keeps_hlRetrain | split
    | refine keeps_pair (by assumption) ?_)

theorem keeps_l0pTo (w0 : Nat) {s : State}
    (hw : Covers 0x102002D3AB w) (h : Keeps w r s) : Keeps w r (l0pTo w0 s) := by
  unfold l0pTo
  with_reducible repeat' (first
    | assumption | exact covers_of hw rfl | (intro _) | apply keeps_doIf | apply keeps_raise | apply keeps_set
    | apply keeps_setLink | split | refine keeps_pair (by assumption) ?_)

theorem keeps_execL0pRequest (width : Fin 17) (accepted : Bool) {s : State}
    (hw : Covers 0x102002D3AB w) (h : Keeps w r s) : Ends w r (execL0pRequest width accepted s) := by
  unfold execL0pRequest
  with_reducible repeat' (beta_reduce; first
    | assumption | exact covers_of hw rfl | (intro _) | apply ends_next | apply keeps_done | apply keeps_doIf
    | apply keeps_l0pTo | apply keeps_emit | apply keeps_hlUpd | split | refine keeps_pair (by assumption) ?_)

theorem keeps_execL0pPartnerRequest (width : Fin 17) {s : State}
    (hw : Covers 0x102002D3AB w) (h : Keeps w r s) : Ends w r (execL0pPartnerRequest width s) := by
  unfold execL0pPartnerRequest
  with_reducible repeat' (first
    | assumption | exact covers_of hw rfl | apply ends_next | apply keeps_done | apply keeps_l0pTo | apply keeps_emit
    | split | refine keeps_pair (by assumption) ?_)

theorem keeps_ltrSend (required : Bool) {s : State}
    (hw : Covers 0x1 w) (h : Keeps w r s) : Keeps w r (ltrSend required s) := by
  unfold ltrSend
  with_reducible repeat' (first
    | assumption | exact covers_of hw rfl | apply keeps_emit | split | refine keeps_pair (by assumption) ?_)

theorem keeps_execLtrSend {s : State}
    (hw : Covers 0x1 w) (h : Keeps w r s) : Ends w r (execLtrSend s) := by
  unfold execLtrSend
  with_reducible repeat' (first
    | assumption | exact covers_of hw rfl | apply ends_next | apply keeps_done | apply keeps_ltrSend | split
    | refine keeps_pair (by assumption) ?_)

theorem keeps_execHlLinkLayerError (k : LinkError) {s : State}
    (hw : Covers 0x102002D3AB w) (h : Keeps w r s) : Ends w r (execHlLinkLayerError k s) := by
  unfold execHlLinkLayerError
  with_reducible repeat' (beta_reduce; first
    | assumption | exact covers_of hw rfl | (intro _) | apply ends_next | apply keeps_done | apply keeps_aerCor
    | apply keeps_inc | apply keeps_aerTlp | apply keeps_aerUnc | apply keeps_doIf | apply keeps_hlUpd | split
    | refine keeps_pair (by assumption) ?_)

theorem keeps_execVfFrsSend {s : State}
    (hw : Covers 0x20021 w) (h : Keeps w r s) : Ends w r (execVfFrsSend s) := by
  unfold execVfFrsSend
  with_reducible repeat' (beta_reduce; first
    | assumption | exact covers_of hw rfl | (intro _)
    | (extract_lets +onlyGivenNames x; first
      | (refine keeps_cut (w := w) (r := r) (s := x) ?_ ?_; (on_goal 2 => (intro hx; clear_value x)); unfold x; clear x)
      | (refine keeps_cut (w := w) (r := r) (s := x.1) ?_ ?_; (on_goal 2 => (intro hx; clear_value x)); unfold x; clear x)
      | clear_value x)
    | apply ends_next | apply keeps_done | apply keeps_emit | apply keeps_hlUpd | exact ⟨rfl, rfl⟩ | split
    | refine keeps_pair (by assumption) ?_ | refine keeps_mk ?_)

theorem keeps_violLog (c : Nat) (precise : Bool) (kind : Nat) (cause : Nat) (guard : Nat) (qp : Nat) (win : Nat) (off : Nat) (len : Nat) {s : State}
    (hw : Covers 0x8 w) (h : Keeps w r s) : Keeps w r (violLog c precise kind cause guard qp win off len s) := by
  unfold violLog
  with_reducible repeat' (first
    | assumption | exact covers_of hw rfl
    | (extract_lets +onlyGivenNames x; first
      | (refine keeps_cut (w := w) (r := r) (s := x) ?_ ?_; (on_goal 2 => (intro hx; clear_value x)); unfold x; clear x)
      | (refine keeps_cut (w := w) (r := r) (s := x.1) ?_ ?_; (on_goal 2 => (intro hx; clear_value x)); unfold x; clear x)
      | clear_value x)
    | apply keeps_inc | apply keeps_set | apply keeps_setWord | split | refine keeps_pair (by assumption) ?_)

theorem keeps_accVlog (precise : Bool) (checker : Nat) (cause : Nat) (master : Nat) (src : Nat) (guard : Nat) (ctx : Nat) (addr : Nat) {s : State}
    (hw : Covers 0x102002D3AB w) (h : Keeps w r s) : Keeps w r (accVlog precise checker cause master src guard ctx addr s) := by
  unfold accVlog
  with_reducible repeat' (first
    | assumption | exact covers_of hw rfl
    | (extract_lets +onlyGivenNames x; first
      | (refine keeps_cut (w := w) (r := r) (s := x) ?_ ?_; (on_goal 2 => (intro hx; clear_value x)); unfold x; clear x)
      | (refine keeps_cut (w := w) (r := r) (s := x.1) ?_ ?_; (on_goal 2 => (intro hx; clear_value x)); unfold x; clear x)
      | clear_value x)
    | apply keeps_raise | apply keeps_inc | apply keeps_set | apply keeps_setWord | split
    | refine keeps_pair (by assumption) ?_)

theorem keeps_countAts (cause : Nat) {s : State}
    (hw : Covers 0x102002D3AB w) (h : Keeps w r s) : Keeps w r (countAts cause s) := by
  unfold countAts
  with_reducible repeat' (first
    | assumption | exact covers_of hw rfl | apply keeps_raise | apply keeps_inc | split
    | refine keeps_pair (by assumption) ?_)

theorem keeps_noteHostRead (c : Nat) (kind : Nat) (cause : Nat) (guard : Nat) (win : Nat) (off : Nat) (len : Nat) {s : State}
    (hw : Covers 0x102002D3AB w) (h : Keeps w r s) : Keeps w r (noteHostRead c kind cause guard win off len s) := by
  unfold noteHostRead
  with_reducible repeat' (first
    | assumption | exact covers_of hw rfl | apply keeps_raise | apply keeps_countAts | apply keeps_inc
    | apply keeps_violLog | split | refine keeps_pair (by assumption) ?_)

theorem keeps_abortRead (c : Nat) (off : Nat) (len : Nat) {s : State}
    (hw : Covers 0x102042D3AB w) (h : Keeps w r s) : Keeps w r (abortRead c off len s) := by
  unfold abortRead
  with_reducible repeat' (first
    | assumption | exact covers_of hw rfl | apply keeps_reportAbort | apply keeps_answerHost | split
    | refine keeps_pair (by assumption) ?_)

theorem keeps_refuseHostRead (c : Nat) (kind : Nat) (cause : Nat) (guard : Nat) (win : Nat) (off : Nat) (len : Nat) {s : State}
    (hw : Covers 0x102042D3AB w) (h : Keeps w r s) : Keeps w r (refuseHostRead c kind cause guard win off len s) := by
  unfold refuseHostRead
  with_reducible repeat' (first
    | assumption | exact covers_of hw rfl | apply keeps_abortRead | apply keeps_noteHostRead | split
    | refine keeps_pair (by assumption) ?_)

theorem keeps_refuseHostWrite (c : Nat) (kind : Nat) (cause : Nat) (guard : Nat) (win : Nat) (off : Nat) (len : Nat) {s : State}
    (hw : Covers 0x102002D3AB w) (h : Keeps w r s) : Keeps w r (refuseHostWrite c kind cause guard win off len s) := by
  unfold refuseHostWrite
  with_reducible repeat' (first
    | assumption | exact covers_of hw rfl | (intro _) | apply keeps_reportAbort | apply keeps_doIf
    | apply keeps_trigger | apply keeps_raise | apply keeps_countAts | apply keeps_inc | apply keeps_violLog | split
    | refine keeps_pair (by assumption) ?_)

theorem keeps_refuseDesc (c : Nat) (q : Nat) (dst : Bool) (cause : Nat) (guard : Nat) (win : Nat) (off : Nat) (len : Nat) {s : State}
    (hw : Covers 0x102002D3AB w) (h : Keeps w r s) : Keeps w r (refuseDesc c q dst cause guard win off len s) := by
  unfold refuseDesc
  with_reducible repeat' (first
    | assumption | exact covers_of hw rfl | apply keeps_raise | apply keeps_countAts | apply keeps_inc
    | apply keeps_violLog | split | refine keeps_pair (by assumption) ?_)

theorem keeps_addItem (up : Bool) (ctx : Nat) (cls : Nat) (tgt : Nat) (bytes : Nat) (host : Bool) (w0 : Work) {s : State}
    (hw : Covers 0x400000 w) (h : Keeps w r s) : Keeps w r (addItem up ctx cls tgt bytes host w0 s) := by
  unfold addItem
  with_reducible repeat' (beta_reduce; first
    | assumption | exact covers_of hw rfl | (intro _) | apply keeps_cadUpd | split
    | refine keeps_pair (by assumption) ?_)

theorem keeps_addWaiting (up : Bool) (ctx : Nat) (cls : Nat) (tgt : Nat) (w0 : Work) {s : State}
    (hw : Covers 0x400000 w) (h : Keeps w r s) : Keeps w r (addWaiting up ctx cls tgt w0 s) := by
  unfold addWaiting
  with_reducible repeat' (beta_reduce; first
    | assumption | exact covers_of hw rfl | (intro _) | apply keeps_cadUpd | split
    | refine keeps_pair (by assumption) ?_)

theorem keeps_dropItems (p : Item → Bool) {s : State}
    (hw : Covers 0x400000 w) (h : Keeps w r s) : Keeps w r (dropItems p s) := by
  unfold dropItems
  with_reducible repeat' (beta_reduce; first
    | assumption | exact covers_of hw rfl | (intro _) | apply keeps_cadUpd | split
    | refine keeps_pair (by assumption) ?_)

theorem keeps_tagWaits {s : State}
    (hw : Covers 0x102002D3AB w) (h : Keeps w r s) : Keeps w r (tagWaits s) := by
  unfold tagWaits
  with_reducible repeat' (first
    | assumption | exact covers_of hw rfl | apply keeps_raise | split | refine keeps_pair (by assumption) ?_)

theorem keeps_updTags {s : State}
    (hw : Covers 0x8 w) (h : Keeps w r s) : Keeps w r (updTags s) := by
  unfold updTags
  with_reducible repeat' (first
    | assumption | exact covers_of hw rfl | apply keeps_peak | apply keeps_set | split
    | refine keeps_pair (by assumption) ?_)

theorem keeps_takeTag (c : Nat) (use : TagUse) {s : State}
    (hw : Covers 0x20008 w) (h : Keeps w r s) : Keeps w r (takeTag c use s) := by
  unfold takeTag
  with_reducible repeat' (beta_reduce; first
    | assumption | exact covers_of hw rfl | (intro _) | apply keeps_updTags | apply keeps_hlUpd | split
    | refine keeps_pair (by assumption) ?_)

theorem keeps_hostReadOut (c : Nat) (use : TagUse) (addr : Addr) (len : Nat) (noSnoop : Bool) {s : State}
    (hw : Covers 0x20009 w) (h : Keeps w r s) : Keeps w r (hostReadOut c use addr len noSnoop s) := by
  unfold hostReadOut
  with_reducible repeat' (first
    | assumption | exact covers_of hw rfl | apply keeps_emit | apply keeps_takeTag | split
    | refine keeps_pair (by assumption) ?_)

theorem keeps_freeTags (p : Nat × HostTag → Bool) {s : State}
    (hw : Covers 0x20008 w) (h : Keeps w r s) : Keeps w r (freeTags p s) := by
  unfold freeTags
  with_reducible repeat' (beta_reduce; first
    | assumption | exact covers_of hw rfl | (intro _) | apply keeps_updTags | apply keeps_hlUpd | split
    | refine keeps_pair (by assumption) ?_)

theorem keeps_retireTag (c : Nat) (t : Nat) {s : State}
    (hw : Covers 0x20000 w) (h : Keeps w r s) : Keeps w r (retireTag c t s) := by
  unfold retireTag
  with_reducible repeat' (beta_reduce; first
    | assumption | exact covers_of hw rfl | (intro _)
    | (extract_lets +onlyGivenNames x; first
      | (refine keeps_cut (w := w) (r := r) (s := x) ?_ ?_; (on_goal 2 => (intro hx; clear_value x)); unfold x; clear x)
      | (refine keeps_cut (w := w) (r := r) (s := x.1) ?_ ?_; (on_goal 2 => (intro hx; clear_value x)); unfold x; clear x)
      | clear_value x)
    | apply keeps_hlUpd | split | refine keeps_pair (by assumption) ?_)

theorem keeps_atsAsk (who : AtsFor) (c : Nat) (addr : Nat) {s : State}
    (hw : Covers 0x102002D3AB w) (h : Keeps w r s) : Keeps w r (atsAsk who c addr s) := by
  unfold atsAsk
  with_reducible repeat' (first
    | assumption | exact covers_of hw rfl | apply keeps_tagWaits | apply keeps_emit | apply keeps_takeTag | split
    | refine keeps_pair (by assumption) ?_)

theorem keeps_hostWay (who : AtsFor) (c : Nat) (addr : Nat) (n : Nat) (wr : Bool) {s : State}
    (hw : Covers 0x102002D3AB w) (h : Keeps w r s) : Keeps w r (hostWay who c addr n wr s).1 := by
  unfold hostWay
  with_reducible repeat' (beta_reduce; first
    | assumption | exact covers_of hw rfl | (intro _) | apply keeps_atsAsk | split
    | refine keeps_pair (by assumption) ?_)

theorem keeps_findPages (who : AtsFor) (c : Nat) (kept : Pages) (addr : Nat) (n : Nat) (wr : Bool) {s : State}
    (hw : Covers 0x102002D3AB w) (h : Keeps w r s) : Keeps w r (findPages who c kept addr n wr s).1 := by
  unfold findPages
  with_reducible repeat' (beta_reduce; first
    | assumption | exact covers_of hw rfl | (intro _)
    | (extract_lets +onlyGivenNames x; first
      | (refine keeps_cut (w := w) (r := r) (s := x) ?_ ?_; (on_goal 2 => (intro hx; clear_value x)); unfold x; clear x)
      | (refine keeps_cut (w := w) (r := r) (s := x.1) ?_ ?_; (on_goal 2 => (intro hx; clear_value x)); unfold x; clear x)
      | clear_value x)
    | apply keeps_atsAsk | split | refine keeps_pair (by assumption) ?_)

theorem keeps_hostWriteVia (way : Nat → Addr) (c : Nat) (addr : Nat) (data : List Byte) (relaxed : Bool) (noSnoop : Bool) {s : State}
    (hw : Covers 0x20001 w) (h : Keeps w r s) : Keeps w r (hostWriteVia way c addr data relaxed noSnoop s) := by
  unfold hostWriteVia
  with_reducible repeat' (beta_reduce; first
    | assumption | exact covers_of hw rfl | (intro _) | apply keeps_doAll | apply keeps_emit | apply keeps_atsUse
    | split | refine keeps_pair (by assumption) ?_)

theorem keeps_hostWriteOut (c : Nat) (addr : Nat) (data : List Byte) (relaxed : Bool) (noSnoop : Bool) {s : State}
    (hw : Covers 0x20001 w) (h : Keeps w r s) : Keeps w r (hostWriteOut c addr data relaxed noSnoop s) := by
  unfold hostWriteOut
  with_reducible repeat' (beta_reduce; first
    | assumption | exact covers_of hw rfl | (intro _) | apply keeps_hostWriteVia | split
    | refine keeps_pair (by assumption) ?_)

theorem keeps_cplData (c : Nat) (off : Nat) (data : List Byte) {s : State}
    (hw : Covers 0x1 w) (h : Keeps w r s) : Keeps w r (cplData c off data s) := by
  unfold cplData
  with_reducible repeat' (first
    | assumption | exact covers_of hw rfl | (intro _) | apply keeps_doAll | apply keeps_emit | split
    | refine keeps_pair (by assumption) ?_)

theorem keeps_sendMsg (k : Nat) (m : UMsg) {s : State}
    (hw : Covers 0x8000 w) (h : Keeps w r s) : Keeps w r (sendMsg k m s) := by
  unfold sendMsg
  with_reducible repeat' (beta_reduce; first
    | assumption | exact covers_of hw rfl | (intro _) | apply keeps_linkUpd | split
    | refine keeps_pair (by assumption) ?_)

theorem keeps_sendTagged (k : Nat) (src : ReqSrc) (m : UMsg) {s : State}
    (hw : Covers 0x8000 w) (h : Keeps w r s) : Keeps w r (sendTagged k src m s) := by
  unfold sendTagged
  with_reducible repeat' (beta_reduce; first
    | assumption | exact covers_of hw rfl | (intro _)
    | (extract_lets +onlyGivenNames x; first
      | (refine keeps_cut (w := w) (r := r) (s := x) ?_ ?_; (on_goal 2 => (intro hx; clear_value x)); unfold x; clear x)
      | (refine keeps_cut (w := w) (r := r) (s := x.1) ?_ ?_; (on_goal 2 => (intro hx; clear_value x)); unfold x; clear x)
      | clear_value x)
    | apply keeps_linkUpd | split | refine keeps_pair (by assumption) ?_)

theorem keeps_sendReq (k : Nat) (src : ReqSrc) (m : UMsg) {s : State}
    (hw : Covers 0x8000 w) (h : Keeps w r s) : Keeps w r (sendReq k src m s) := by
  unfold sendReq
  with_reducible repeat' (beta_reduce; first
    | assumption | exact covers_of hw rfl | (intro _) | apply keeps_linkUpd | apply keeps_sendTagged | split
    | refine keeps_pair (by assumption) ?_)

theorem keeps_sendTo (m : UMsg) {s : State}
    (hw : Covers 0x8000 w) (h : Keeps w r s) : Keeps w r (sendTo m s) := by
  unfold sendTo
  with_reducible repeat' (beta_reduce; first
    | assumption | exact covers_of hw rfl | (intro _) | apply keeps_sendMsg | split
    | refine keeps_pair (by assumption) ?_)

end Sys2Proof.Machine
end

