-- ==== Sys2Proof/Laws/KeepsPorts.lean ====
section
/-! SUPPORT. Laws/KeepsPorts.lean: what every operation may change and what it keeps: queue pairs, answers, message bridge, local bus ports, windows. -/
namespace Sys2Proof.Machine

set_option Elab.async false
set_option linter.unusedTactic false
set_option linter.unreachableTactic false
set_option linter.unusedVariables false

variable {w : Nat} {r : State}

theorem keeps_countRetry (st : Nat) {s : State}
    (hw : Covers 0x8 w) (h : Keeps w r s) : Keeps w r (countRetry st s) := by
  unfold countRetry
  with_reducible repeat' (beta_reduce; first
    | assumption | exact covers_of hw rfl | (intro _) | apply keeps_doIf | apply keeps_inc | split
    | refine keeps_pair (by assumption) ?_)

theorem keeps_finish (c : Nat) (q : Nat) (d : Desc) (status : Nat) (detail : Nat) (bytes : Nat) {s : State}
    (hw : Covers 0x8000A w) (h : Keeps w r s) : Keeps w r (finish c q d status detail bytes s) := by
  unfold finish
  with_reducible repeat' (beta_reduce; first
    | assumption | exact covers_of hw rfl | (intro _)
    | (extract_lets +onlyGivenNames x; first
      | (refine keeps_cut (w := w) (r := r) (s := x) ?_ ?_; (on_goal 2 => (intro hx; clear_value x)); unfold x; clear x)
      | (refine keeps_cut (w := w) (r := r) (s := x.1) ?_ ?_; (on_goal 2 => (intro hx; clear_value x)); unfold x; clear x)
      | clear_value x)
    | apply keeps_countRetry | apply keeps_qpUpd | apply keeps_drewOne | split | refine keeps_pair (by assumption) ?_)

theorem keeps_finishOver (c : Nat) (q : Nat) (d : Desc) {s : State}
    (hw : Covers 0x10200AD3AB w) (h : Keeps w r s) : Keeps w r (finishOver c q d s) := by
  unfold finishOver
  with_reducible repeat' (first
    | assumption | exact covers_of hw rfl | (intro _)
    | (extract_lets +onlyGivenNames x; first
      | (refine keeps_cut (w := w) (r := r) (s := x) ?_ ?_; (on_goal 2 => (intro hx; clear_value x)); unfold x; clear x)
      | (refine keeps_cut (w := w) (r := r) (s := x.1) ?_ ?_; (on_goal 2 => (intro hx; clear_value x)); unfold x; clear x)
      | clear_value x)
    | apply keeps_doIf | apply keeps_raise | apply keeps_inc | apply keeps_set | apply keeps_finish | split
    | refine keeps_pair (by assumption) ?_)

theorem keeps_finishMalformed (c : Nat) (q : Nat) (off : Nat) (d : Desc) {s : State}
    (hw : Covers 0x10200AD3AB w) (h : Keeps w r s) : Keeps w r (finishMalformed c q off d s) := by
  unfold finishMalformed
  with_reducible repeat' (first
    | assumption | exact covers_of hw rfl | apply keeps_raise | apply keeps_set | apply keeps_inc | apply keeps_finish
    | split | refine keeps_pair (by assumption) ?_)

theorem keeps_cancelDesc (k : DKey) {s : State}
    (hw : Covers 0x2528000 w) (h : Keeps w r s) : Keeps w r (cancelDesc k s) := by
  unfold cancelDesc
  dsimp only
  with_reducible repeat' (beta_reduce; first
    | assumption | exact covers_of hw rfl | (intro _)
    | (extract_lets +onlyGivenNames x; first
      | (refine keeps_cut (w := w) (r := r) (s := x) ?_ ?_; (on_goal 2 => (intro hx; clear_value x)); unfold x; clear x)
      | (refine keeps_cut (w := w) (r := r) (s := x.1) ?_ ?_; (on_goal 2 => (intro hx; clear_value x)); unfold x; clear x)
      | clear_value x)
    | apply keeps_doAll | apply keeps_linkUpd | apply keeps_lbUpd | apply keeps_hlUpd | apply keeps_dropItems
    | exact ⟨rfl, rfl⟩ | split | refine keeps_pair (by assumption) ?_ | refine keeps_mk ?_)

theorem keeps_endUnstarted (c : Nat) (q : Nat) (status : Nat) {s : State}
    (hw : Covers 0x25A800A w) (h : Keeps w r s) : Keeps w r (endUnstarted c q status s) := by
  unfold endUnstarted
  with_reducible repeat' (beta_reduce; first
    | assumption | exact covers_of hw rfl | (intro _) | apply keeps_doAll | apply keeps_finish
    | apply keeps_cancelDesc | split | refine keeps_pair (by assumption) ?_)

theorem keeps_qpEnable (c : Nat) (q : Nat) {s : State}
    (hw : Covers 0x10200AD3AB w) (h : Keeps w r s) : Keeps w r (qpEnable c q s) := by
  unfold qpEnable
  with_reducible repeat' (beta_reduce; first
    | assumption | exact covers_of hw rfl | (intro _)
    | (extract_lets +onlyGivenNames x; first
      | (refine keeps_cut (w := w) (r := r) (s := x) ?_ ?_; (on_goal 2 => (intro hx; clear_value x)); unfold x; clear x)
      | (refine keeps_cut (w := w) (r := r) (s := x.1) ?_ ?_; (on_goal 2 => (intro hx; clear_value x)); unfold x; clear x)
      | clear_value x)
    | apply keeps_set | apply keeps_inc | apply keeps_updCqFull | apply keeps_qpUpd | apply keeps_setWord | split
    | refine keeps_pair (by assumption) ?_)

theorem keeps_qpOff (c : Nat) (q : Nat) {s : State}
    (hw : Covers 0x25A820A w) (h : Keeps w r s) : Keeps w r (qpOff c q s) := by
  unfold qpOff
  with_reducible repeat' (first
    | assumption | exact covers_of hw rfl | apply keeps_cqClear | apply keeps_qpUpd | apply keeps_endUnstarted
    | apply keeps_dec | apply keeps_set | split | refine keeps_pair (by assumption) ?_)

theorem keeps_qpClear (c : Nat) (q : Nat) {s : State}
    (hw : Covers 0x80208 w) (h : Keeps w r s) : Keeps w r (qpClear c q s) := by
  unfold qpClear
  with_reducible repeat' (beta_reduce; first
    | assumption | exact covers_of hw rfl | (intro _) | apply keeps_cqClear | apply keeps_doAll | apply keeps_setWord
    | apply keeps_qpUpd | apply keeps_doIf | apply keeps_dec | split | refine keeps_pair (by assumption) ?_)

theorem keeps_execQpEnable (c : Fin 1024) (q : Fin 64) {s : State}
    (hw : Covers 0x10200AD3AB w) (h : Keeps w r s) : Ends w r (execQpEnable c q s) := by
  unfold execQpEnable
  with_reducible repeat' (first
    | assumption | exact covers_of hw rfl | apply ends_next | apply keeps_done | apply keeps_qpEnable | split
    | refine keeps_pair (by assumption) ?_)

theorem keeps_qpDisable (c : Nat) (q : Nat) {s : State}
    (hw : Covers 0x10008 w) (h : Keeps w r s) : Keeps w r (qpDisable c q s) := by
  unfold qpDisable
  with_reducible repeat' (first
    | assumption | exact covers_of hw rfl
    | (extract_lets +onlyGivenNames x; first
      | (refine keeps_cut (w := w) (r := r) (s := x) ?_ ?_; (on_goal 2 => (intro hx; clear_value x)); unfold x; clear x)
      | (refine keeps_cut (w := w) (r := r) (s := x.1) ?_ ?_; (on_goal 2 => (intro hx; clear_value x)); unfold x; clear x)
      | clear_value x)
    | apply keeps_set | exact ⟨rfl, rfl⟩ | split | refine keeps_pair (by assumption) ?_ | refine keeps_mk ?_)

theorem keeps_execQpDisable (c : Fin 1024) (q : Fin 64) {s : State}
    (hw : Covers 0x10008 w) (h : Keeps w r s) : Ends w r (execQpDisable c q s) := by
  unfold execQpDisable
  with_reducible repeat' (first
    | assumption | exact covers_of hw rfl | apply ends_next | apply keeps_done | apply keeps_qpDisable | split
    | refine keeps_pair (by assumption) ?_)

theorem keeps_dbErr (c : Nat) (q : Nat) {s : State}
    (hw : Covers 0x102002D3AB w) (h : Keeps w r s) : Keeps w r (dbErr c q s) := by
  unfold dbErr
  with_reducible repeat' (first
    | assumption | exact covers_of hw rfl | apply keeps_raise | apply keeps_set | split
    | refine keeps_pair (by assumption) ?_)

theorem keeps_doorbellTail (c : Nat) (q : Nat) (tail : Nat) {s : State}
    (hw : Covers 0x10200AD3AB w) (h : Keeps w r s) : Keeps w r (doorbellTail c q tail s) := by
  unfold doorbellTail
  with_reducible repeat' (beta_reduce; first
    | assumption | exact covers_of hw rfl | (intro _)
    | (extract_lets +onlyGivenNames x; first
      | (refine keeps_cut (w := w) (r := r) (s := x) ?_ ?_; (on_goal 2 => (intro hx; clear_value x)); unfold x; clear x)
      | (refine keeps_cut (w := w) (r := r) (s := x.1) ?_ ?_; (on_goal 2 => (intro hx; clear_value x)); unfold x; clear x)
      | clear_value x)
    | apply keeps_dbErr | apply keeps_qpUpd | split | refine keeps_pair (by assumption) ?_)

theorem keeps_doorbellHead (c : Nat) (q : Nat) (head : Nat) {s : State}
    (hw : Covers 0x10200AD3AB w) (h : Keeps w r s) : Keeps w r (doorbellHead c q head s) := by
  unfold doorbellHead
  with_reducible repeat' (beta_reduce; first
    | assumption | exact covers_of hw rfl | (intro _)
    | (extract_lets +onlyGivenNames x; first
      | (refine keeps_cut (w := w) (r := r) (s := x) ?_ ?_; (on_goal 2 => (intro hx; clear_value x)); unfold x; clear x)
      | (refine keeps_cut (w := w) (r := r) (s := x.1) ?_ ?_; (on_goal 2 => (intro hx; clear_value x)); unfold x; clear x)
      | clear_value x)
    | apply keeps_dbErr | apply keeps_updCqFull | apply keeps_qpUpd | split | refine keeps_pair (by assumption) ?_)

theorem keeps_doorbell (c : Nat) (q : Nat) (tail : Option Nat) (head : Option Nat) {s : State}
    (hw : Covers 0x10200AD3AB w) (h : Keeps w r s) : Keeps w r (doorbell c q tail head s) := by
  unfold doorbell
  with_reducible repeat' (beta_reduce; first
    | assumption | exact covers_of hw rfl | (intro _) | apply keeps_inc | apply keeps_doorbellTail
    | apply keeps_doorbellHead | split | refine keeps_pair (by assumption) ?_)

theorem keeps_doorbellAt (t : Stroke) (c : Nat) (q : Nat) (tail : Option (BitVec 16)) (head : Option (BitVec 16)) {s : State}
    (hw : Covers 0x10200AD3AF w) (h : Keeps w r s) : Keeps w r (doorbellAt t c q tail head s) := by
  unfold doorbellAt
  with_reducible repeat' (beta_reduce; first
    | assumption | exact covers_of hw rfl | (intro _) | apply keeps_stampedAs | apply keeps_doorbell | split
    | refine keeps_pair (by assumption) ?_)

theorem keeps_execDoorbellWrite (c : Fin 1024) (q : Fin 64) (tail : Option (BitVec 16)) (head : Option (BitVec 16)) {s : State}
    (hw : Covers 0x10204AD3AF w) (h : Keeps w r s) : Ends w r (execDoorbellWrite c q tail head s) := by
  unfold execDoorbellWrite
  with_reducible repeat' (first
    | assumption | exact covers_of hw rfl | (intro _) | apply ends_next | apply keeps_done | apply keeps_hostPosted
    | apply keeps_inOrder | apply keeps_doorbellAt | split | refine keeps_pair (by assumption) ?_)

theorem keeps_passSlots (c : Nat) (q : Nat) (n : Nat) {s : State}
    (hw : Covers 0x8 w) (h : Keeps w r s) : Keeps w r (passSlots c q n s) := by
  unfold passSlots
  with_reducible repeat' (first
    | assumption | exact covers_of hw rfl | apply keeps_set | split | refine keeps_pair (by assumption) ?_)

theorem keeps_tookDesc (c : Nat) (q : Nat) (d : Desc) (raw : Raw) {s : State}
    (hw : Covers 0x10200AD3AB w) (h : Keeps w r s) : Keeps w r (tookDesc c q d raw s) := by
  unfold tookDesc
  with_reducible repeat' (beta_reduce; first
    | assumption | exact covers_of hw rfl | (intro _)
    | (extract_lets +onlyGivenNames x; first
      | (refine keeps_cut (w := w) (r := r) (s := x) ?_ ?_; (on_goal 2 => (intro hx; clear_value x)); unfold x; clear x)
      | (refine keeps_cut (w := w) (r := r) (s := x.1) ?_ ?_; (on_goal 2 => (intro hx; clear_value x)); unfold x; clear x)
      | clear_value x)
    | apply keeps_finishOver | apply keeps_qpUpd | apply keeps_finishMalformed | split
    | refine keeps_pair (by assumption) ?_)

theorem keeps_fetchReads (c : Nat) (ta : Addr) (l : List (Nat × Nat)) {s : State}
    (hw : Covers 0x9 w) (h : Keeps w r s) : Keeps w r (fetchReads c ta l s) := by
  unfold fetchReads
  with_reducible repeat' (beta_reduce; first
    | assumption | exact covers_of hw rfl | (intro _) | apply keeps_doAll | apply keeps_emit | apply keeps_peak
    | split | refine keeps_pair (by assumption) ?_)

theorem keeps_fetched (c : Nat) (q : Nat) (n : Nat) (data : List Byte) {s : State}
    (hw : Covers 0x10200AD3AB w) (h : Keeps w r s) : Keeps w r (fetched c q n data s) := by
  unfold fetched
  with_reducible repeat' (beta_reduce; first
    | assumption | exact covers_of hw rfl | (intro _) | apply keeps_doAll | apply keeps_tookDesc
    | apply keeps_passSlots | split | refine keeps_pair (by assumption) ?_)

theorem keeps_fetchFailed (c : Nat) (q : Nat) (n : Nat) (status : Nat) {s : State}
    (hw : Covers 0x8000A w) (h : Keeps w r s) : Keeps w r (fetchFailed c q n status s) := by
  unfold fetchFailed
  with_reducible repeat' (beta_reduce; first
    | assumption | exact covers_of hw rfl | (intro _) | apply keeps_doAll | apply keeps_finish | apply keeps_passSlots
    | split | refine keeps_pair (by assumption) ?_)

theorem keeps_execDescriptorFetch (c : Fin 1024) (q : Fin 64) (data : List Byte) {s : State}
    (hw : Covers 0x10200AD3AB w) (h : Keeps w r s) : Ends w r (execDescriptorFetch c q data s) := by
  unfold execDescriptorFetch
  with_reducible repeat' (beta_reduce; first
    | assumption | exact covers_of hw rfl | (intro _)
    | (extract_lets +onlyGivenNames x; first
      | (refine keeps_cut (w := w) (r := r) (s := x) ?_ ?_; (on_goal 2 => (intro hx; clear_value x)); unfold x; clear x)
      | (refine keeps_cut (w := w) (r := r) (s := x.1) ?_ ?_; (on_goal 2 => (intro hx; clear_value x)); unfold x; clear x)
      | clear_value x)
    | apply ends_next | apply keeps_done | apply keeps_tagWaits | apply keeps_fetched | apply keeps_atsUse
    | apply keeps_fetchReads | apply keeps_fetchFailed | apply keeps_atsAsk | split
    | refine keeps_pair (by assumption) ?_)

theorem keeps_fetchReport (c : Nat) (q : Nat) (why : FetchFailure) {s : State}
    (hw : Covers 0x102002D3AB w) (h : Keeps w r s) : Keeps w r (fetchReport c q why s) := by
  unfold fetchReport
  with_reducible repeat' (beta_reduce; first
    | assumption | exact covers_of hw rfl | (intro _) | apply keeps_aerAdvisory | apply keeps_updTags
    | apply keeps_hlUpd | split | refine keeps_pair (by assumption) ?_)

theorem keeps_fetchTried (c : Nat) (q : Nat) (k : Nat) (why : FetchFailure) {s : State}
    (hw : Covers 0x9 w) (h : Keeps w r s) : Keeps w r (fetchTried c q k why s) := by
  unfold fetchTried
  with_reducible repeat' (beta_reduce; first
    | assumption | exact covers_of hw rfl | (intro _) | apply keeps_fetchReads | split
    | refine keeps_pair (by assumption) ?_)

theorem keeps_execDescriptorFetchFail (c : Fin 1024) (q : Fin 64) (k : Fin 64) (data : List Byte) (why : FetchFailure) {s : State}
    (hw : Covers 0x10200AD3AB w) (h : Keeps w r s) : Ends w r (execDescriptorFetchFail c q k data why s) := by
  unfold execDescriptorFetchFail
  with_reducible repeat' (beta_reduce; first
    | assumption | exact covers_of hw rfl | (intro _) | apply ends_next | apply keeps_done | apply keeps_fetchFailed
    | apply keeps_fetchReport | apply keeps_fetched | apply keeps_fetchTried | split
    | refine keeps_pair (by assumption) ?_)

theorem keeps_dealDesc (c : Nat) (q : Nat) (e : Nat) (d : Desc) (r0 : Raw) {s : State}
    (hw : Covers 0x10200AD3AB w) (h : Keeps w r s) : Keeps w r (dealDesc c q e d r0 s) := by
  unfold dealDesc
  with_reducible repeat' (beta_reduce; first
    | assumption | exact covers_of hw rfl | (intro _)
    | (extract_lets +onlyGivenNames x; first
      | (refine keeps_cut (w := w) (r := r) (s := x) ?_ ?_; (on_goal 2 => (intro hx; clear_value x)); unfold x; clear x)
      | (refine keeps_cut (w := w) (r := r) (s := x.1) ?_ ?_; (on_goal 2 => (intro hx; clear_value x)); unfold x; clear x)
      | clear_value x)
    | apply keeps_finish | apply keeps_refuseDesc | apply keeps_inc | apply keeps_descUpd | split
    | refine keeps_pair (by assumption) ?_)

theorem keeps_execDescriptorDeal (c : Fin 1024) (q : Fin 64) (e : Fin 32) {s : State}
    (hw : Covers 0x10200AD3AB w) (h : Keeps w r s) : Ends w r (execDescriptorDeal c q e s) := by
  unfold execDescriptorDeal
  with_reducible repeat' (beta_reduce; first
    | assumption | exact covers_of hw rfl | (intro _) | apply ends_next | apply keeps_done | apply keeps_dealDesc
    | split | refine keeps_pair (by assumption) ?_)

theorem keeps_execDescriptorComplete (c : Fin 1024) (q : Fin 64) (slot : Fin 65536) {s : State}
    (hw : Covers 0x8000A w) (h : Keeps w r s) : Ends w r (execDescriptorComplete c q slot s) := by
  unfold execDescriptorComplete
  with_reducible repeat' (beta_reduce; first
    | assumption | exact covers_of hw rfl | (intro _) | apply ends_next | apply keeps_done | apply keeps_finish
    | split | refine keeps_pair (by assumption) ?_)

theorem keeps_cqAdvance (c : Nat) (q : Nat) {s : State}
    (hw : Covers 0x8 w) (h : Keeps w r s) : Keeps w r (cqAdvance c q s) := by
  unfold cqAdvance
  with_reducible repeat' (beta_reduce; first
    | assumption | exact covers_of hw rfl | (intro _)
    | (extract_lets +onlyGivenNames x; first
      | (refine keeps_cut (w := w) (r := r) (s := x) ?_ ?_; (on_goal 2 => (intro hx; clear_value x)); unfold x; clear x)
      | (refine keeps_cut (w := w) (r := r) (s := x.1) ?_ ?_; (on_goal 2 => (intro hx; clear_value x)); unfold x; clear x)
      | clear_value x)
    | apply keeps_doIf | apply keeps_set | split | refine keeps_pair (by assumption) ?_)

theorem keeps_wdogReload (c : Nat) {s : State}
    (hw : Covers 0x8 w) (h : Keeps w r s) : Keeps w r (wdogReload c s) := by
  unfold wdogReload
  with_reducible repeat' (first
    | assumption | exact covers_of hw rfl | apply keeps_set | split | refine keeps_pair (by assumption) ?_)

theorem keeps_writeEntry (c : Nat) (q : Nat) (e : Cpl) (data : List Byte) {s : State}
    (hw : Covers 0x102002D3AB w) (h : Keeps w r s) : Keeps w r (writeEntry c q e data s) := by
  unfold writeEntry
  with_reducible repeat' (beta_reduce; first
    | assumption | exact covers_of hw rfl | (intro _) | apply keeps_updCqFull | apply keeps_doIf
    | apply keeps_coalesce | apply keeps_wdogReload | apply keeps_inc | apply keeps_cqAdvance
    | apply keeps_hostWriteOut | split | refine keeps_pair (by assumption) ?_)

theorem keeps_execCompletionEntryWrite (c : Fin 1024) (q : Fin 64) {s : State}
    (hw : Covers 0x10200AD3AB w) (h : Keeps w r s) : Ends w r (execCompletionEntryWrite c q s) := by
  unfold execCompletionEntryWrite
  with_reducible repeat' (beta_reduce; first
    | assumption | exact covers_of hw rfl | (intro _) | apply ends_next | apply keeps_done | apply keeps_hostWay
    | apply keeps_qpUpd | apply keeps_writeEntry | split | refine keeps_pair (by assumption) ?_)

theorem keeps_qpAbortGo (c : Nat) (q : Nat) {s : State}
    (hw : Covers 0x80008 w) (h : Keeps w r s) : Keeps w r (qpAbortGo c q s) := by
  unfold qpAbortGo
  with_reducible repeat' (beta_reduce; first
    | assumption | exact covers_of hw rfl | (intro _) | apply keeps_qpUpd | apply keeps_set | split
    | refine keeps_pair (by assumption) ?_)

theorem keeps_execQpAbortGo (c : Fin 1024) (q : Fin 64) {s : State}
    (hw : Covers 0x80008 w) (h : Keeps w r s) : Ends w r (execQpAbortGo c q s) := by
  unfold execQpAbortGo
  with_reducible repeat' (first
    | assumption | exact covers_of hw rfl | apply ends_next | apply keeps_done | apply keeps_qpAbortGo | split
    | refine keeps_pair (by assumption) ?_)

theorem keeps_abortDone (c : Nat) (q : Nat) (result : Nat) {s : State}
    (hw : Covers 0x80008 w) (h : Keeps w r s) : Keeps w r (abortDone c q result s) := by
  unfold abortDone
  with_reducible repeat' (beta_reduce; first
    | assumption | exact covers_of hw rfl | (intro _) | apply keeps_qpUpd | apply keeps_set | split
    | refine keeps_pair (by assumption) ?_)

theorem keeps_abortResolve (c : Nat) (q : Nat) {s : State}
    (hw : Covers 0x25A800A w) (h : Keeps w r s) : Keeps w r (abortResolve c q s) := by
  unfold abortResolve
  with_reducible repeat' (beta_reduce; first
    | assumption | exact covers_of hw rfl | (intro _) | apply keeps_abortDone | apply keeps_finish
    | apply keeps_cancelDesc | split | refine keeps_pair (by assumption) ?_)

theorem keeps_abortsEnd {s : State}
    (hw : Covers 0x25A800A w) (h : Keeps w r s) : Keeps w r (abortsEnd s) := by
  unfold abortsEnd
  with_reducible repeat' (beta_reduce; first
    | assumption | exact covers_of hw rfl | (intro _) | apply keeps_doAll | apply keeps_abortResolve | split
    | refine keeps_pair (by assumption) ?_)

theorem keeps_execAbortResolve (c : Fin 1024) (q : Fin 64) {s : State}
    (hw : Covers 0x25B800A w) (h : Keeps w r s) : Ends w r (execAbortResolve c q s) := by
  unfold execAbortResolve
  with_reducible repeat' (first
    | assumption | exact covers_of hw rfl | apply ends_next | apply keeps_done | apply keeps_atBoundary
    | apply keeps_abortResolve | split | refine keeps_pair (by assumption) ?_)

theorem keeps_refence (c : Nat) (q : Nat) (takes : Nat) (d : Desc) {s : State}
    (hw : Covers 0x25A800A w) (h : Keeps w r s) : Keeps w r (refence c q takes d s) := by
  unfold refence
  with_reducible repeat' (beta_reduce; first
    | assumption | exact covers_of hw rfl | (intro _)
    | (extract_lets +onlyGivenNames x; first
      | (refine keeps_cut (w := w) (r := r) (s := x) ?_ ?_; (on_goal 2 => (intro hx; clear_value x)); unfold x; clear x)
      | (refine keeps_cut (w := w) (r := r) (s := x.1) ?_ ?_; (on_goal 2 => (intro hx; clear_value x)); unfold x; clear x)
      | clear_value x)
    | apply keeps_qpUpd | apply keeps_cancelDesc | apply keeps_finish | split | refine keeps_pair (by assumption) ?_)

theorem keeps_engineFence (e : Nat) (journal : Bool) {s : State}
    (hw : Covers 0x10225AF3AB w) (h : Keeps w r s) : Keeps w r (engineFence e journal s) := by
  unfold engineFence
  with_reducible repeat' (beta_reduce; first
    | assumption | exact covers_of hw rfl | (intro _)
    | (extract_lets +onlyGivenNames x; first
      | (refine keeps_cut (w := w) (r := r) (s := x) ?_ ?_; (on_goal 2 => (intro hx; clear_value x)); unfold x; clear x)
      | (refine keeps_cut (w := w) (r := r) (s := x.1) ?_ ?_; (on_goal 2 => (intro hx; clear_value x)); unfold x; clear x)
      | clear_value x)
    | apply keeps_reportCie | apply keeps_logEv | apply keeps_ctxEvent | apply keeps_raise | apply keeps_doAll
    | apply keeps_refence | apply keeps_set | apply keeps_reportDegraded | apply keeps_faultStop
    | apply keeps_reportUie | split | refine keeps_pair (by assumption) ?_)

theorem keeps_enginesFence {s : State}
    (hw : Covers 0x10225BF3AB w) (h : Keeps w r s) : Keeps w r (enginesFence s) := by
  unfold enginesFence
  with_reducible repeat' (beta_reduce; first
    | assumption | exact covers_of hw rfl | (intro _) | apply keeps_doAll | apply keeps_engineFence | exact ⟨rfl, rfl⟩
    | split | refine keeps_pair (by assumption) ?_ | refine keeps_mk ?_)

theorem keeps_execSpokeEngineFence (e : Fin 32) (journal : Bool) {s : State}
    (hw : Covers 0x10000 w) (h : Keeps w r s) : Ends w r (execSpokeEngineFence e journal s) := by
  unfold execSpokeEngineFence
  with_reducible repeat' (first
    | assumption | exact covers_of hw rfl | apply ends_next | apply keeps_done | exact ⟨rfl, rfl⟩ | split
    | refine keeps_pair (by assumption) ?_ | refine keeps_mk ?_)

theorem keeps_hreadUpd (id : Nat) (f : HRead → HRead) {s : State}
    (hw : Covers 0x200000 w) (h : Keeps w r s) : Keeps w r (hreadUpd id f s) := by
  unfold hreadUpd
  with_reducible repeat' (beta_reduce; first
    | assumption | exact covers_of hw rfl | (intro _) | exact ⟨rfl, rfl⟩ | split
    | refine keeps_pair (by assumption) ?_ | refine keeps_mk ?_)

theorem keeps_hreadGone (r0 : HRead) {s : State}
    (hw : Covers 0x240000 w) (h : Keeps w r s) : Keeps w r (hreadGone r0 s) := by
  unfold hreadGone
  with_reducible repeat' (beta_reduce; first
    | assumption | exact covers_of hw rfl | (intro _) | apply keeps_doIf | apply keeps_ctxUpd | exact ⟨rfl, rfl⟩
    | split | refine keeps_pair (by assumption) ?_ | refine keeps_mk ?_)

theorem keeps_hreadFailed (r0 : HRead) (at_ : Nat) (outcome : Nat) {s : State}
    (hw : Covers 0x102026D3AB w) (h : Keeps w r s) : Keeps w r (hreadFailed r0 at_ outcome s) := by
  unfold hreadFailed
  with_reducible repeat' (beta_reduce; first
    | assumption | exact covers_of hw rfl | (intro _)
    | (extract_lets +onlyGivenNames x; first
      | (refine keeps_cut (w := w) (r := r) (s := x) ?_ ?_; (on_goal 2 => (intro hx; clear_value x)); unfold x; clear x)
      | (refine keeps_cut (w := w) (r := r) (s := x.1) ?_ ?_; (on_goal 2 => (intro hx; clear_value x)); unfold x; clear x)
      | clear_value x)
    | apply keeps_emit | apply keeps_hreadGone | apply keeps_reportAbort | split
    | refine keeps_pair (by assumption) ?_)

theorem keeps_hreadSettle (id : Nat) {s : State}
    (hw : Covers 0x102066D3AB w) (h : Keeps w r s) : Keeps w r (hreadSettle id s) := by
  unfold hreadSettle
  with_reducible repeat' (beta_reduce; first
    | assumption | exact covers_of hw rfl | (intro _) | apply keeps_addItem | apply keeps_addWaiting
    | apply keeps_hreadFailed | split | refine keeps_pair (by assumption) ?_)

theorem keeps_hreadAns (id : Nat) (off : Nat) (a : Ans) {s : State}
    (hw : Covers 0x102066D3AB w) (h : Keeps w r s) : Keeps w r (hreadAns id off a s) := by
  unfold hreadAns
  with_reducible repeat' (beta_reduce; first
    | assumption | exact covers_of hw rfl | (intro _) | apply keeps_hreadSettle | apply keeps_hreadUpd | split
    | refine keeps_pair (by assumption) ?_)

theorem keeps_pweFlushOne (c : Nat) {s : State}
    (hw : Covers 0x102006D3AB w) (h : Keeps w r s) : Keeps w r (pweFlushOne c s) := by
  unfold pweFlushOne
  with_reducible repeat' (beta_reduce; first
    | assumption | exact covers_of hw rfl | (intro _) | apply keeps_hostWay | apply keeps_ctxUpd | apply keeps_trigger
    | apply keeps_hostWriteOut | split | refine keeps_pair (by assumption) ?_)

theorem keeps_pweFlush (c : Nat) {s : State}
    (hw : Covers 0x102006D3AB w) (h : Keeps w r s) : Keeps w r (pweFlush c s) := by
  unfold pweFlush
  with_reducible repeat' (beta_reduce; first
    | assumption | exact covers_of hw rfl | (intro _) | apply keeps_doAll | apply keeps_pweFlushOne | split
    | refine keeps_pair (by assumption) ?_)

theorem keeps_pweAdvance (c : Nat) {s : State}
    (hw : Covers 0x8 w) (h : Keeps w r s) : Keeps w r (pweAdvance c s) := by
  unfold pweAdvance
  with_reducible repeat' (beta_reduce; first
    | assumption | exact covers_of hw rfl | (intro _)
    | (extract_lets +onlyGivenNames x; first
      | (refine keeps_cut (w := w) (r := r) (s := x) ?_ ?_; (on_goal 2 => (intro hx; clear_value x)); unfold x; clear x)
      | (refine keeps_cut (w := w) (r := r) (s := x.1) ?_ ?_; (on_goal 2 => (intro hx; clear_value x)); unfold x; clear x)
      | clear_value x)
    | apply keeps_doIf | apply keeps_set | split | refine keeps_pair (by assumption) ?_)

theorem keeps_pweFail (c : Nat) (w0 : Nat) (seq : Nat) (off : Nat) (len : Nat) (resp : Nat) {s : State}
    (hw : Covers 0x102006D3AB w) (h : Keeps w r s) : Keeps w r (pweFail c w0 seq off len resp s) := by
  unfold pweFail
  with_reducible repeat' (beta_reduce; first
    | assumption | exact covers_of hw rfl | (intro _)
    | (extract_lets +onlyGivenNames x; first
      | (refine keeps_cut (w := w) (r := r) (s := x) ?_ ?_; (on_goal 2 => (intro hx; clear_value x)); unfold x; clear x)
      | (refine keeps_cut (w := w) (r := r) (s := x.1) ?_ ?_; (on_goal 2 => (intro hx; clear_value x)); unfold x; clear x)
      | clear_value x)
    | apply keeps_reportAbort | apply keeps_pweFlush | apply keeps_pweAdvance | apply keeps_ctxUpd | apply keeps_inc
    | apply keeps_raise | split | refine keeps_pair (by assumption) ?_)

theorem keeps_descFail (k : DKey) (st : Nat) (det : Nat) {s : State}
    (hw : Covers 0x480000 w) (h : Keeps w r s) : Keeps w r (descFail k st det s) := by
  unfold descFail
  with_reducible repeat' (beta_reduce; first
    | assumption | exact covers_of hw rfl | (intro _)
    | (extract_lets +onlyGivenNames x; first
      | (refine keeps_cut (w := w) (r := r) (s := x) ?_ ?_; (on_goal 2 => (intro hx; clear_value x)); unfold x; clear x)
      | (refine keeps_cut (w := w) (r := r) (s := x.1) ?_ ?_; (on_goal 2 => (intro hx; clear_value x)); unfold x; clear x)
      | clear_value x)
    | apply keeps_descUpd | apply keeps_dropItems | split | refine keeps_pair (by assumption) ?_)

theorem keeps_descRead (k : DKey) (off : Nat) (len : Nat) (a : Ans) {s : State}
    (hw : Covers 0x480000 w) (h : Keeps w r s) : Keeps w r (descRead k off len a s) := by
  unfold descRead
  with_reducible repeat' (beta_reduce; first
    | assumption | exact covers_of hw rfl | (intro _) | apply keeps_descUpd | apply keeps_descFail | split
    | refine keeps_pair (by assumption) ?_)

theorem keeps_descWrite (k : DKey) (len : Nat) (a : Ans) {s : State}
    (hw : Covers 0x480000 w) (h : Keeps w r s) : Keeps w r (descWrite k len a s) := by
  unfold descWrite
  with_reducible repeat' (beta_reduce; first
    | assumption | exact covers_of hw rfl | (intro _) | apply keeps_descUpd | apply keeps_descFail | split
    | refine keeps_pair (by assumption) ?_)

theorem keeps_descAtomic (k : DKey) (len : Nat) (a : Ans) {s : State}
    (hw : Covers 0x480000 w) (h : Keeps w r s) : Keeps w r (descAtomic k len a s) := by
  unfold descAtomic
  with_reducible repeat' (beta_reduce; first
    | assumption | exact covers_of hw rfl | (intro _) | apply keeps_descUpd | apply keeps_descWrite | split
    | refine keeps_pair (by assumption) ?_)

theorem keeps_descIssued (k : DKey) (len : Nat) (acked : Bool) {s : State}
    (hw : Covers 0x80000 w) (h : Keeps w r s) : Keeps w r (descIssued k len acked s) := by
  unfold descIssued
  with_reducible repeat' (beta_reduce; first
    | assumption | exact covers_of hw rfl | (intro _) | apply keeps_descUpd | split
    | refine keeps_pair (by assumption) ?_)

theorem keeps_messageItem (c : Nat) (m : UMsg) {s : State}
    (hw : Covers 0x400000 w) (h : Keeps w r s) : Keeps w r (messageItem c m s) := by
  unfold messageItem
  with_reducible repeat' (beta_reduce; first
    | assumption | exact covers_of hw rfl | (intro _) | apply keeps_addItem | split
    | refine keeps_pair (by assumption) ?_)

theorem keeps_peerAns (m : UMsg) (a : Ans) {s : State}
    (hw : Covers 0x400000 w) (h : Keeps w r s) : Keeps w r (peerAns m a s) := by
  unfold peerAns
  with_reducible repeat' (beta_reduce; first
    | assumption | exact covers_of hw rfl | (intro _) | apply keeps_messageItem | split
    | refine keeps_pair (by assumption) ?_)

theorem keeps_answer (src : ReqSrc) (op : Nat) (a : Ans) {s : State}
    (hw : Covers 0x10206ED3AB w) (h : Keeps w r s) : Keeps w r (answer src op a s) := by
  unfold answer
  with_reducible repeat' (beta_reduce; first
    | assumption | exact covers_of hw rfl | (intro _) | apply keeps_hreadAns | apply keeps_pweFail
    | apply keeps_descRead | apply keeps_descAtomic | apply keeps_descWrite | apply keeps_peerAns | split
    | refine keeps_pair (by assumption) ?_)

theorem keeps_countDrop (p : Nat) (cause : Nat) (kind : Nat) (ident : Nat) (route : Nat) {s : State}
    (hw : Covers 0x80008 w) (h : Keeps w r s) : Keeps w r (countDrop p cause kind ident route s) := by
  unfold countDrop
  with_reducible repeat' (beta_reduce; first
    | assumption | exact covers_of hw rfl | (intro _) | apply keeps_doIf | apply keeps_qpUpd | apply keeps_set
    | apply keeps_inc | split | refine keeps_pair (by assumption) ?_)

theorem keeps_updBuf (p : Nat) {s : State}
    (hw : Covers 0x8 w) (h : Keeps w r s) : Keeps w r (updBuf p s) := by
  unfold updBuf
  with_reducible repeat' (first
    | assumption | exact covers_of hw rfl
    | (extract_lets +onlyGivenNames x; first
      | (refine keeps_cut (w := w) (r := r) (s := x) ?_ ?_; (on_goal 2 => (intro hx; clear_value x)); unfold x; clear x)
      | (refine keeps_cut (w := w) (r := r) (s := x.1) ?_ ?_; (on_goal 2 => (intro hx; clear_value x)); unfold x; clear x)
      | clear_value x)
    | apply keeps_peak | apply keeps_set | split | refine keeps_pair (by assumption) ?_)

theorem keeps_dropRItem (r0 : RItem) {s : State}
    (hw : Covers 0x4400008 w) (h : Keeps w r s) : Keeps w r (dropRItem r0 s) := by
  unfold dropRItem
  with_reducible repeat' (beta_reduce; first
    | assumption | exact covers_of hw rfl | (intro _) | apply keeps_updBuf | apply keeps_dropItems | exact ⟨rfl, rfl⟩
    | split | refine keeps_pair (by assumption) ?_ | refine keeps_mk ?_)

theorem keeps_queueRItem (p : Nat) (kind : Nat) (ident : Nat) (info : Nat) (route : Nat) (data : List Byte) (at_ : Stroke) {s : State}
    (hw : Covers 0x4480008 w) (h : Keeps w r s) : Keeps w r (queueRItem p kind ident info route data at_ s) := by
  unfold queueRItem
  with_reducible repeat' (beta_reduce; first
    | assumption | exact covers_of hw rfl | (intro _)
    | (extract_lets +onlyGivenNames x; first
      | (refine keeps_cut (w := w) (r := r) (s := x) ?_ ?_; (on_goal 2 => (intro hx; clear_value x)); unfold x; clear x)
      | (refine keeps_cut (w := w) (r := r) (s := x.1) ?_ ?_; (on_goal 2 => (intro hx; clear_value x)); unfold x; clear x)
      | clear_value x)
    | apply keeps_updBuf | apply keeps_addItem | apply keeps_countDrop | exact ⟨rfl, rfl⟩ | split
    | refine keeps_pair (by assumption) ?_ | refine keeps_mk ?_)

theorem keeps_acceptWith (p : Nat) (kind : Nat) (ident : Nat) (data : List Byte) (r0 : Nat) (at_ : Stroke) {s : State}
    (hw : Covers 0x4480008 w) (h : Keeps w r s) : Keeps w r (acceptWith p kind ident data r0 at_ s) := by
  unfold acceptWith
  with_reducible repeat' (first
    | assumption | exact covers_of hw rfl | apply keeps_countDrop | apply keeps_queueRItem | split
    | refine keeps_pair (by assumption) ?_)

theorem keeps_lintFull (p : Nat) (line : Nat) (route : Nat) {s : State}
    (hw : Covers 0x80008 w) (h : Keeps w r s) : Keeps w r (lintFull p line route s) := by
  unfold lintFull
  with_reducible repeat' (first
    | assumption | exact covers_of hw rfl | apply keeps_countDrop | split | refine keeps_pair (by assumption) ?_)

theorem keeps_acceptItem (p : Nat) (kind : Nat) (ident : Nat) (data : List Byte) {s : State}
    (hw : Covers 0x4480008 w) (h : Keeps w r s) : Keeps w r (acceptItem p kind ident data s) := by
  unfold acceptItem
  with_reducible repeat' (first
    | assumption | exact covers_of hw rfl | apply keeps_acceptWith | split | refine keeps_pair (by assumption) ?_)

theorem keeps_framePartial (p : Nat) {s : State}
    (hw : Covers 0x180008 w) (h : Keeps w r s) : Keeps w r (framePartial p s) := by
  unfold framePartial
  with_reducible repeat' (beta_reduce; first
    | assumption | exact covers_of hw rfl | (intro _) | apply keeps_updBuf | apply keeps_doIf | apply keeps_countDrop
    | apply keeps_lbUpd | split | refine keeps_pair (by assumption) ?_)

theorem keeps_frameHold (p : Nat) (f : FrameIn) (eof : Bool) {s : State}
    (hw : Covers 0x4580008 w) (h : Keeps w r s) : Keeps w r (frameHold p f eof s) := by
  unfold frameHold
  with_reducible repeat' (beta_reduce; first
    | assumption | exact covers_of hw rfl | (intro _) | apply keeps_updBuf | apply keeps_lbUpd
    | apply keeps_queueRItem | split | refine keeps_pair (by assumption) ?_)

theorem keeps_frameSegment (p : Nat) (sof : Bool) (eof : Bool) (info : Nat) (data : List Byte) {s : State}
    (hw : Covers 0x4580008 w) (h : Keeps w r s) : Keeps w r (frameSegment p sof eof info data s) := by
  unfold frameSegment
  with_reducible repeat' (beta_reduce; first
    | assumption | exact covers_of hw rfl | (intro _)
    | (extract_lets +onlyGivenNames x; first
      | (refine keeps_cut (w := w) (r := r) (s := x) ?_ ?_; (on_goal 2 => (intro hx; clear_value x)); unfold x; clear x)
      | (refine keeps_cut (w := w) (r := r) (s := x.1) ?_ ?_; (on_goal 2 => (intro hx; clear_value x)); unfold x; clear x)
      | clear_value x)
    | apply keeps_frameHold | apply keeps_countDrop | split | refine keeps_pair (by assumption) ?_)

theorem keeps_testItem (r0 : RItem) {s : State}
    (hw : Covers 0x10244AD3AB w) (h : Keeps w r s) : Keeps w r (testItem r0 s) := by
  unfold testItem
  with_reducible repeat' (beta_reduce; first
    | assumption | exact covers_of hw rfl | (intro _)
    | (extract_lets +onlyGivenNames x; first
      | (refine keeps_cut (w := w) (r := r) (s := x) ?_ ?_; (on_goal 2 => (intro hx; clear_value x)); unfold x; clear x)
      | (refine keeps_cut (w := w) (r := r) (s := x.1) ?_ ?_; (on_goal 2 => (intro hx; clear_value x)); unfold x; clear x)
      | clear_value x)
    | apply keeps_doIf | apply keeps_countDrop | apply keeps_dropRItem | apply keeps_updCqFull | apply keeps_qpUpd
    | exact ⟨rfl, rfl⟩ | split | refine keeps_pair (by assumption) ?_ | refine keeps_mk ?_)

theorem keeps_testRouted {s : State}
    (hw : Covers 0x10244AD3AB w) (h : Keeps w r s) : Keeps w r (testRouted s) := by
  unfold testRouted
  with_reducible repeat' (beta_reduce; first
    | assumption | exact covers_of hw rfl | (intro _) | apply keeps_doAll | apply keeps_testItem | split
    | refine keeps_pair (by assumption) ?_)

theorem keeps_deliver (r0 : RItem) {s : State}
    (hw : Covers 0x10200AD3AB w) (h : Keeps w r s) : Keeps w r (deliver r0 s) := by
  unfold deliver
  with_reducible repeat' (beta_reduce; first
    | assumption | exact covers_of hw rfl | (intro _)
    | (extract_lets +onlyGivenNames x; first
      | (refine keeps_cut (w := w) (r := r) (s := x) ?_ ?_; (on_goal 2 => (intro hx; clear_value x)); unfold x; clear x)
      | (refine keeps_cut (w := w) (r := r) (s := x.1) ?_ ?_; (on_goal 2 => (intro hx; clear_value x)); unfold x; clear x)
      | clear_value x)
    | apply keeps_inc | apply keeps_writeEntry | apply keeps_qpUpd | apply keeps_hostWriteOut | split
    | refine keeps_pair (by assumption) ?_)

theorem keeps_deliverWay (r0 : RItem) {s : State}
    (hw : Covers 0x102002D3AB w) (h : Keeps w r s) : Keeps w r (deliverWay r0 s).1 := by
  unfold deliverWay
  with_reducible repeat' (beta_reduce; first
    | assumption | exact covers_of hw rfl | (intro _)
    | (extract_lets +onlyGivenNames x; first
      | (refine keeps_cut (w := w) (r := r) (s := x) ?_ ?_; (on_goal 2 => (intro hx; clear_value x)); unfold x; clear x)
      | (refine keeps_cut (w := w) (r := r) (s := x.1) ?_ ?_; (on_goal 2 => (intro hx; clear_value x)); unfold x; clear x)
      | clear_value x)
    | apply keeps_hostWay | split | refine keeps_pair (by assumption) ?_)

theorem keeps_execRoutedItemDelivery (p : Fin 4) {s : State}
    (hw : Covers 0x10240AD3AB w) (h : Keeps w r s) : Ends w r (execRoutedItemDelivery p s) := by
  unfold execRoutedItemDelivery
  with_reducible repeat' (beta_reduce; first
    | assumption | exact covers_of hw rfl | (intro _) | apply ends_next | apply keeps_done | apply keeps_deliverWay
    | apply keeps_updBuf | apply keeps_deliver | exact ⟨rfl, rfl⟩ | split | refine keeps_pair (by assumption) ?_
    | refine keeps_mk ?_)

theorem keeps_execRoutedItemPeerSend (p : Fin 4) {s : State}
    (hw : Covers 0x4488008 w) (h : Keeps w r s) : Ends w r (execRoutedItemPeerSend p s) := by
  unfold execRoutedItemPeerSend
  with_reducible repeat' (beta_reduce; first
    | assumption | exact covers_of hw rfl | (intro _) | apply ends_next | apply keeps_done | apply keeps_dropRItem
    | apply keeps_inc | apply keeps_doAll | apply keeps_sendMsg | apply keeps_countDrop | split
    | refine keeps_pair (by assumption) ?_)

theorem keeps_execRouteEntryWrite (e : RouteSel) (v : BitVec 64) {s : State}
    (hw : Covers 0x10008 w) (h : Keeps w r s) : Ends w r (execRouteEntryWrite e v s) := by
  unfold execRouteEntryWrite
  with_reducible repeat' (beta_reduce; first
    | assumption | exact covers_of hw rfl | (intro _)
    | (extract_lets +onlyGivenNames x; first
      | (refine keeps_cut (w := w) (r := r) (s := x) ?_ ?_; (on_goal 2 => (intro hx; clear_value x)); unfold x; clear x)
      | (refine keeps_cut (w := w) (r := r) (s := x.1) ?_ ?_; (on_goal 2 => (intro hx; clear_value x)); unfold x; clear x)
      | clear_value x)
    | apply ends_next | apply keeps_done | apply keeps_setWord | exact ⟨rfl, rfl⟩ | split
    | refine keeps_pair (by assumption) ?_ | refine keeps_mk ?_)

theorem keeps_lbRaise (p : Nat) (off : Nat) {s : State}
    (hw : Covers 0x102002D3AB w) (h : Keeps w r s) : Keeps w r (lbRaise p off s) := by
  unfold lbRaise
  with_reducible repeat' (first
    | assumption | exact covers_of hw rfl | apply keeps_raise | split | refine keeps_pair (by assumption) ?_)

theorem keeps_portTo (p : Nat) (st : Nat) {s : State}
    (hw : Covers 0x101009 w) (h : Keeps w r s) : Keeps w r (portTo p st s) := by
  unfold portTo
  with_reducible repeat' (beta_reduce; first
    | assumption | exact covers_of hw rfl | (intro _)
    | (extract_lets +onlyGivenNames x; first
      | (refine keeps_cut (w := w) (r := r) (s := x) ?_ ?_; (on_goal 2 => (intro hx; clear_value x)); unfold x; clear x)
      | (refine keeps_cut (w := w) (r := r) (s := x.1) ?_ ?_; (on_goal 2 => (intro hx; clear_value x)); unfold x; clear x)
      | clear_value x)
    | apply keeps_emit | apply keeps_devUpd | apply keeps_lbUpd | apply keeps_set | split
    | refine keeps_pair (by assumption) ?_)

theorem keeps_bndShort (p : Nat) {s : State}
    (hw : Covers 0x102002D3AB w) (h : Keeps w r s) : Keeps w r (bndShort p s) := by
  unfold bndShort
  with_reducible repeat' (first
    | assumption | exact covers_of hw rfl | apply keeps_lbRaise | apply keeps_set | split
    | refine keeps_pair (by assumption) ?_)

theorem keeps_tellCredits (p : Nat) {s : State}
    (hw : Covers 0x100000 w) (h : Keeps w r s) : Keeps w r (tellCredits p s) := by
  unfold tellCredits
  with_reducible repeat' (beta_reduce; first
    | assumption | exact covers_of hw rfl | (intro _) | apply keeps_lbUpd | split
    | refine keeps_pair (by assumption) ?_)

theorem keeps_emitPkt (p : Nat) (k : Pkt) (seq : Nat) {s : State}
    (hw : Covers 0x100001 w) (h : Keeps w r s) : Keeps w r (emitPkt p k seq s) := by
  unfold emitPkt
  with_reducible repeat' (beta_reduce; first
    | assumption | exact covers_of hw rfl | (intro _)
    | (extract_lets +onlyGivenNames x; first
      | (refine keeps_cut (w := w) (r := r) (s := x) ?_ ?_; (on_goal 2 => (intro hx; clear_value x)); unfold x; clear x)
      | (refine keeps_cut (w := w) (r := r) (s := x.1) ?_ ?_; (on_goal 2 => (intro hx; clear_value x)); unfold x; clear x)
      | clear_value x)
    | apply keeps_emit | apply keeps_tellCredits | split | refine keeps_pair (by assumption) ?_)

theorem keeps_takeCredits (p : Nat) (v : BitVec 16) {s : State}
    (hw : Covers 0x100000 w) (h : Keeps w r s) : Keeps w r (takeCredits p v s) := by
  unfold takeCredits
  with_reducible repeat' (beta_reduce; first
    | assumption | exact covers_of hw rfl | (intro _)
    | (extract_lets +onlyGivenNames x; first
      | (refine keeps_cut (w := w) (r := r) (s := x) ?_ ?_; (on_goal 2 => (intro hx; clear_value x)); unfold x; clear x)
      | (refine keeps_cut (w := w) (r := r) (s := x.1) ?_ ?_; (on_goal 2 => (intro hx; clear_value x)); unfold x; clear x)
      | clear_value x)
    | apply keeps_lbUpd | split | refine keeps_pair (by assumption) ?_)

theorem keeps_c0WriteEnds (c : Nat) (c0 : Bool) {s : State}
    (hw : Covers 0x40000 w) (h : Keeps w r s) : Keeps w r (c0WriteEnds c c0 s) := by
  unfold c0WriteEnds
  with_reducible repeat' (beta_reduce; first
    | assumption | exact covers_of hw rfl | (intro _) | apply keeps_doIf | apply keeps_ctxUpd | split
    | refine keeps_pair (by assumption) ?_)

theorem keeps_endEgr (p : Nat) (e : Egr) {s : State}
    (hw : Covers 0x10206ED3AB w) (h : Keeps w r s) : Keeps w r (endEgr p e s) := by
  unfold endEgr
  with_reducible repeat' (beta_reduce; first
    | assumption | exact covers_of hw rfl | (intro _) | apply keeps_answer | apply keeps_c0WriteEnds
    | apply keeps_doIf | apply keeps_descUpd | apply keeps_countDrop | split | refine keeps_pair (by assumption) ?_)

theorem keeps_endItem (p : Nat) (w0 : Work) {s : State}
    (hw : Covers 0x10206ED3AB w) (h : Keeps w r s) : Keeps w r (endItem p w0 s) := by
  unfold endItem
  with_reducible repeat' (beta_reduce; first
    | assumption | exact covers_of hw rfl | (intro _) | apply keeps_doAll | apply keeps_endEgr | split
    | refine keeps_pair (by assumption) ?_)

theorem keeps_leaveActive (p : Nat) (next : Nat) {s : State}
    (hw : Covers 0x10207ED3AB w) (h : Keeps w r s) : Keeps w r (leaveActive p next s) := by
  unfold leaveActive
  with_reducible repeat' (beta_reduce; first
    | assumption | exact covers_of hw rfl | (intro _)
    | (extract_lets +onlyGivenNames x; first
      | (refine keeps_cut (w := w) (r := r) (s := x) ?_ ?_; (on_goal 2 => (intro hx; clear_value x)); unfold x; clear x)
      | (refine keeps_cut (w := w) (r := r) (s := x.1) ?_ ?_; (on_goal 2 => (intro hx; clear_value x)); unfold x; clear x)
      | clear_value x)
    | apply keeps_doAll | apply keeps_endItem | apply keeps_endEgr | apply keeps_answer | apply keeps_countDrop
    | apply keeps_descUpd | apply keeps_descFail | apply keeps_lbUpd | apply keeps_lintFull | apply keeps_framePartial
    | apply keeps_dropItems | apply keeps_lbRaise | apply keeps_portTo | split | refine keeps_pair (by assumption) ?_)

theorem keeps_portReset (p : Nat) {s : State}
    (hw : Covers 0x10207ED3AB w) (h : Keeps w r s) : Keeps w r (portReset p s) := by
  unfold portReset
  with_reducible repeat' (beta_reduce; first
    | assumption | exact covers_of hw rfl | (intro _) | apply keeps_leaveActive | apply keeps_lbUpd
    | apply keeps_portTo | split | refine keeps_pair (by assumption) ?_)

theorem keeps_protoErr (p : Nat) (code : Nat) (seq : Nat) {s : State}
    (hw : Covers 0x10207ED3AB w) (h : Keeps w r s) : Keeps w r (protoErr p code seq s) := by
  unfold protoErr
  with_reducible repeat' (first
    | assumption | exact covers_of hw rfl | apply keeps_leaveActive | apply keeps_lbRaise | apply keeps_set | split
    | refine keeps_pair (by assumption) ?_)

theorem keeps_enterActive (p : Nat) {s : State}
    (hw : Covers 0x10245AD3AB w) (h : Keeps w r s) : Keeps w r (enterActive p s) := by
  unfold enterActive
  with_reducible repeat' (beta_reduce; first
    | assumption | exact covers_of hw rfl | (intro _)
    | (extract_lets +onlyGivenNames x; first
      | (refine keeps_cut (w := w) (r := r) (s := x) ?_ ?_; (on_goal 2 => (intro hx; clear_value x)); unfold x; clear x)
      | (refine keeps_cut (w := w) (r := r) (s := x.1) ?_ ?_; (on_goal 2 => (intro hx; clear_value x)); unfold x; clear x)
      | clear_value x)
    | apply keeps_doAll | apply keeps_acceptWith | apply keeps_lbRaise | apply keeps_lbUpd | apply keeps_portTo
    | split | refine keeps_pair (by assumption) ?_)

theorem keeps_tryActive (p : Nat) {s : State}
    (hw : Covers 0x10245AD3AB w) (h : Keeps w r s) : Keeps w r (tryActive p s) := by
  unfold tryActive
  with_reducible repeat' (first
    | assumption | exact covers_of hw rfl | apply keeps_enterActive | split | refine keeps_pair (by assumption) ?_)

theorem keeps_portFailed (p : Nat) (err : Nat) {s : State}
    (hw : Covers 0x102012D3AB w) (h : Keeps w r s) : Keeps w r (portFailed p err s) := by
  unfold portFailed
  with_reducible repeat' (beta_reduce; first
    | assumption | exact covers_of hw rfl | (intro _) | apply keeps_lbUpd | apply keeps_lbRaise | apply keeps_inc
    | apply keeps_set | apply keeps_portTo | split | refine keeps_pair (by assumption) ?_)

theorem keeps_lbCtlEn (p : Nat) (en : Bool) {s : State}
    (hw : Covers 0x10207ED3AB w) (h : Keeps w r s) : Keeps w r (lbCtlEn p en s) := by
  unfold lbCtlEn
  with_reducible repeat' (first
    | assumption | exact covers_of hw rfl | (intro _) | apply keeps_doIf | apply keeps_portReset | apply keeps_set
    | split | refine keeps_pair (by assumption) ?_)

theorem keeps_execLbCtlEnWrite (p : Fin 4) (en : Bool) {s : State}
    (hw : Covers 0x10207ED3AB w) (h : Keeps w r s) : Ends w r (execLbCtlEnWrite p en s) := by
  unfold execLbCtlEnWrite
  with_reducible repeat' (first
    | assumption | exact covers_of hw rfl | apply ends_next | apply keeps_done | apply keeps_lbCtlEn | split
    | refine keeps_pair (by assumption) ?_)

theorem keeps_lbRetrain (p : Nat) {s : State}
    (hw : Covers 0x10207ED3AB w) (h : Keeps w r s) : Keeps w r (lbRetrain p s) := by
  unfold lbRetrain
  with_reducible repeat' (first
    | assumption | exact covers_of hw rfl | (intro _) | apply keeps_doIf | apply keeps_leaveActive | split
    | refine keeps_pair (by assumption) ?_)

theorem keeps_execLbRetrain (p : Fin 4) {s : State}
    (hw : Covers 0x10207ED3AB w) (h : Keeps w r s) : Ends w r (execLbRetrain p s) := by
  unfold execLbRetrain
  with_reducible repeat' (first
    | assumption | exact covers_of hw rfl | apply ends_next | apply keeps_done | apply keeps_lbRetrain | split
    | refine keeps_pair (by assumption) ?_)

theorem keeps_startTrain (p : Nat) {s : State}
    (hw : Covers 0x101009 w) (h : Keeps w r s) : Keeps w r (startTrain p s) := by
  unfold startTrain
  with_reducible repeat' (beta_reduce; first
    | assumption | exact covers_of hw rfl | (intro _) | apply keeps_lbUpd | apply keeps_inc | apply keeps_portTo
    | split | refine keeps_pair (by assumption) ?_)

theorem keeps_execLbResetExit (p : Fin 4) {s : State}
    (hw : Covers 0x101009 w) (h : Keeps w r s) : Ends w r (execLbResetExit p s) := by
  unfold execLbResetExit
  with_reducible repeat' (first
    | assumption | exact covers_of hw rfl | apply ends_next | apply keeps_done | apply keeps_startTrain | split
    | refine keeps_pair (by assumption) ?_)

theorem keeps_execLbReceiverLock (p : Fin 4) (delays : List (BitVec 7)) {s : State}
    (hw : Covers 0x101009 w) (h : Keeps w r s) : Ends w r (execLbReceiverLock p delays s) := by
  unfold execLbReceiverLock
  with_reducible repeat' (beta_reduce; first
    | assumption | exact covers_of hw rfl | (intro _) | apply ends_next | apply keeps_done | apply keeps_doAll
    | apply keeps_set | apply keeps_portTo | split | refine keeps_pair (by assumption) ?_)

theorem keeps_execLbLockedBlocksReceived (p : Fin 4) {s : State}
    (hw : Covers 0x10245AD3AB w) (h : Keeps w r s) : Ends w r (execLbLockedBlocksReceived p s) := by
  unfold execLbLockedBlocksReceived
  with_reducible repeat' (beta_reduce; first
    | assumption | exact covers_of hw rfl | (intro _) | apply ends_next | apply keeps_done | apply keeps_tryActive
    | apply keeps_lbUpd | apply keeps_emitPkt | apply keeps_portTo | split | refine keeps_pair (by assumption) ?_)

theorem keeps_execLbTrainTimeout (p : Fin 4) (strobe : Bool) {s : State}
    (hw : Covers 0x102012D3AB w) (h : Keeps w r s) : Ends w r (execLbTrainTimeout p strobe s) := by
  unfold execLbTrainTimeout
  with_reducible repeat' (beta_reduce; first
    | assumption | exact covers_of hw rfl | (intro _) | apply ends_next | apply keeps_done | apply keeps_portFailed
    | split | refine keeps_pair (by assumption) ?_)

theorem keeps_execLbFailedGapExpiry (p : Fin 4) {s : State}
    (hw : Covers 0x101009 w) (h : Keeps w r s) : Ends w r (execLbFailedGapExpiry p s) := by
  unfold execLbFailedGapExpiry
  with_reducible repeat' (first
    | assumption | exact covers_of hw rfl | apply ends_next | apply keeps_done | apply keeps_portTo | split
    | refine keeps_pair (by assumption) ?_)

theorem keeps_execLbTrainingBlocksInActive (p : Fin 4) {s : State}
    (hw : Covers 0x10207ED3AB w) (h : Keeps w r s) : Ends w r (execLbTrainingBlocksInActive p s) := by
  unfold execLbTrainingBlocksInActive
  with_reducible repeat' (first
    | assumption | exact covers_of hw rfl | apply ends_next | apply keeps_done | apply keeps_startTrain
    | apply keeps_leaveActive | split | refine keeps_pair (by assumption) ?_)

theorem keeps_execLinkInitReceive (p : Fin 4) (counts : Word) (rev : BitVec 8) {s : State}
    (hw : Covers 0x10245AD3AB w) (h : Keeps w r s) : Ends w r (execLinkInitReceive p counts rev s) := by
  unfold execLinkInitReceive
  with_reducible repeat' (beta_reduce; first
    | assumption | exact covers_of hw rfl | (intro _)
    | (extract_lets +onlyGivenNames x; first
      | (refine keeps_cut (w := w) (r := r) (s := x) ?_ ?_; (on_goal 2 => (intro hx; clear_value x)); unfold x; clear x)
      | (refine keeps_cut (w := w) (r := r) (s := x.1) ?_ ?_; (on_goal 2 => (intro hx; clear_value x)); unfold x; clear x)
      | clear_value x)
    | apply ends_next | apply keeps_done | apply keeps_portFailed | apply keeps_tryActive | apply keeps_doIf
    | apply keeps_bndShort | apply keeps_lbUpd | apply keeps_setWord | split | refine keeps_pair (by assumption) ?_)

theorem keeps_execLinkCreditReceive (p : Fin 4) (credits : BitVec 16) {s : State}
    (hw : Covers 0x100000 w) (h : Keeps w r s) : Ends w r (execLinkCreditReceive p credits s) := by
  unfold execLinkCreditReceive
  with_reducible repeat' (first
    | assumption | exact covers_of hw rfl | apply ends_next | apply keeps_done | apply keeps_takeCredits | split
    | refine keeps_pair (by assumption) ?_)

theorem keeps_nakSeen (p : Nat) {s : State}
    (hw : Covers 0x10207ED3AB w) (h : Keeps w r s) : Keeps w r (nakSeen p s) := by
  unfold nakSeen
  with_reducible repeat' (beta_reduce; first
    | assumption | exact covers_of hw rfl | (intro _) | apply keeps_leaveActive | apply keeps_lbUpd | split
    | refine keeps_pair (by assumption) ?_)

theorem keeps_execLinkNakReceive (p : Fin 4) (seq : BitVec 8) (credits : BitVec 16) {s : State}
    (hw : Covers 0x10207ED3AB w) (h : Keeps w r s) : Ends w r (execLinkNakReceive p seq credits s) := by
  unfold execLinkNakReceive
  with_reducible repeat' (beta_reduce; first
    | assumption | exact covers_of hw rfl | (intro _)
    | (extract_lets +onlyGivenNames x; first
      | (refine keeps_cut (w := w) (r := r) (s := x) ?_ ?_; (on_goal 2 => (intro hx; clear_value x)); unfold x; clear x)
      | (refine keeps_cut (w := w) (r := r) (s := x.1) ?_ ?_; (on_goal 2 => (intro hx; clear_value x)); unfold x; clear x)
      | clear_value x)
    | apply ends_next | apply keeps_done | apply keeps_protoErr | apply keeps_lbRaise | apply keeps_inc
    | apply keeps_takeCredits | apply keeps_nakSeen | apply keeps_lbUpd | split | refine keeps_pair (by assumption) ?_)

theorem keeps_linkError (p : Nat) {s : State}
    (hw : Covers 0x102012D3AB w) (h : Keeps w r s) : Keeps w r (linkError p s) := by
  unfold linkError
  with_reducible repeat' (beta_reduce; first
    | assumption | exact covers_of hw rfl | (intro _)
    | (extract_lets +onlyGivenNames x; first
      | (refine keeps_cut (w := w) (r := r) (s := x) ?_ ?_; (on_goal 2 => (intro hx; clear_value x)); unfold x; clear x)
      | (refine keeps_cut (w := w) (r := r) (s := x.1) ?_ ?_; (on_goal 2 => (intro hx; clear_value x)); unfold x; clear x)
      | clear_value x)
    | apply keeps_lbUpd | apply keeps_lbRaise | split | refine keeps_pair (by assumption) ?_)

theorem keeps_execLbLinkError (p : Fin 4) (k : RxError) (credits : Option (BitVec 16)) {s : State}
    (hw : Covers 0x102012D3AB w) (h : Keeps w r s) : Ends w r (execLbLinkError p k credits s) := by
  unfold execLbLinkError
  with_reducible repeat' (beta_reduce; first
    | assumption | exact covers_of hw rfl | (intro _) | apply ends_next | apply keeps_done | apply keeps_linkError
    | apply keeps_doIf | apply keeps_inc | apply keeps_takeCredits | apply keeps_portFailed | split
    | refine keeps_pair (by assumption) ?_)

theorem keeps_execLbNakTimeout (p : Fin 4) {s : State}
    (hw : Covers 0x10207ED3AB w) (h : Keeps w r s) : Ends w r (execLbNakTimeout p s) := by
  unfold execLbNakTimeout
  with_reducible repeat' (first
    | assumption | exact covers_of hw rfl | apply ends_next | apply keeps_done | apply keeps_leaveActive | split
    | refine keeps_pair (by assumption) ?_)

theorem keeps_execLbBndCreditLate (p : Fin 4) {s : State}
    (hw : Covers 0x102002D3AB w) (h : Keeps w r s) : Ends w r (execLbBndCreditLate p s) := by
  unfold execLbBndCreditLate
  with_reducible repeat' (beta_reduce; first
    | assumption | exact covers_of hw rfl | (intro _) | apply ends_next | apply keeps_done | apply keeps_bndShort
    | split | refine keeps_pair (by assumption) ?_)

theorem keeps_rxAccept (p : Nat) (rx : Rx) (cls : Nat) {s : State}
    (hw : Covers 0x10207ED3AB w) (h : Keeps w r s) : Keeps w r (rxAccept p rx cls s).1 := by
  unfold rxAccept
  with_reducible repeat' (beta_reduce; first
    | assumption | exact covers_of hw rfl | (intro _)
    | (extract_lets +onlyGivenNames x; first
      | (refine keeps_cut (w := w) (r := r) (s := x) ?_ ?_; (on_goal 2 => (intro hx; clear_value x)); unfold x; clear x)
      | (refine keeps_cut (w := w) (r := r) (s := x.1) ?_ ?_; (on_goal 2 => (intro hx; clear_value x)); unfold x; clear x)
      | clear_value x)
    | apply keeps_protoErr | apply keeps_lbUpd | apply keeps_takeCredits | apply keeps_linkError | split
    | refine keeps_pair (by assumption) ?_)

theorem keeps_srbRegs (p : Nat) (x0 : Stranded) {s : State}
    (hw : Covers 0x8 w) (h : Keeps w r s) : Keeps w r (srbRegs p x0 s) := by
  unfold srbRegs
  with_reducible repeat' (first
    | assumption | exact covers_of hw rfl | apply keeps_set | split | refine keeps_pair (by assumption) ?_)

theorem keeps_srbRemove (p : Nat) (e : Nat) {s : State}
    (hw : Covers 0x100008 w) (h : Keeps w r s) : Keeps w r (srbRemove p e s) := by
  unfold srbRemove
  with_reducible repeat' (beta_reduce; first
    | assumption | exact covers_of hw rfl | (intro _) | apply keeps_setWord | apply keeps_lbUpd | split
    | refine keeps_pair (by assumption) ?_)

theorem keeps_srbDrop (p : Nat) (e : Nat) {s : State}
    (hw : Covers 0x102012D3AB w) (h : Keeps w r s) : Keeps w r (srbDrop p e s) := by
  unfold srbDrop
  with_reducible repeat' (first
    | assumption | exact covers_of hw rfl | apply keeps_lbRaise | apply keeps_inc | apply keeps_srbRemove | split
    | refine keeps_pair (by assumption) ?_)

theorem keeps_srbDropAll (p : Nat) (f : Stranded → Bool) {s : State}
    (hw : Covers 0x102012D3AB w) (h : Keeps w r s) : Keeps w r (srbDropAll p f s) := by
  unfold srbDropAll
  with_reducible repeat' (beta_reduce; first
    | assumption | exact covers_of hw rfl | (intro _) | apply keeps_doAll | apply keeps_srbDrop | split
    | refine keeps_pair (by assumption) ?_)

theorem keeps_overwrite (p : Nat) (la : Nat) (n : Nat) {s : State}
    (hw : Covers 0x102012D3AB w) (h : Keeps w r s) : Keeps w r (overwrite p la n s) := by
  unfold overwrite
  with_reducible repeat' (beta_reduce; first
    | assumption | exact covers_of hw rfl | (intro _) | apply keeps_srbDropAll | apply keeps_lbUpd | split
    | refine keeps_pair (by assumption) ?_)

theorem keeps_issued (p : Nat) (e : Egr) {s : State}
    (hw : Covers 0x10207ED3AB w) (h : Keeps w r s) : Keeps w r (issued p e s) := by
  unfold issued
  with_reducible repeat' (beta_reduce; first
    | assumption | exact covers_of hw rfl | (intro _) | apply keeps_c0WriteEnds | apply keeps_descUpd
    | apply keeps_descIssued | apply keeps_lbUpd | apply keeps_doIf | apply keeps_answer | split
    | refine keeps_pair (by assumption) ?_)

theorem keeps_sendEgr (p : Nat) (i : Nat) (e : Egr) {s : State}
    (hw : Covers 0x10207ED3AB w) (h : Keeps w r s) : Keeps w r (sendEgr p i e s) := by
  unfold sendEgr
  with_reducible repeat' (beta_reduce; first
    | assumption | exact covers_of hw rfl | (intro _)
    | (extract_lets +onlyGivenNames x; first
      | (refine keeps_cut (w := w) (r := r) (s := x) ?_ ?_; (on_goal 2 => (intro hx; clear_value x)); unfold x; clear x)
      | (refine keeps_cut (w := w) (r := r) (s := x.1) ?_ ?_; (on_goal 2 => (intro hx; clear_value x)); unfold x; clear x)
      | clear_value x)
    | apply keeps_doIf | apply keeps_issued | apply keeps_overwrite | apply keeps_emitPkt | apply keeps_lbUpd | split
    | refine keeps_pair (by assumption) ?_)

theorem keeps_execLbCreditSend (p : Fin 4) {s : State}
    (hw : Covers 0x100001 w) (h : Keeps w r s) : Ends w r (execLbCreditSend p s) := by
  unfold execLbCreditSend
  with_reducible repeat' (beta_reduce; first
    | assumption | exact covers_of hw rfl | (intro _) | apply ends_next | apply keeps_done | apply keeps_emitPkt
    | split | refine keeps_pair (by assumption) ?_)

theorem keeps_execLbEgressPacket (p : Fin 4) {s : State}
    (hw : Covers 0x10207ED3AB w) (h : Keeps w r s) : Ends w r (execLbEgressPacket p s) := by
  unfold execLbEgressPacket
  with_reducible repeat' (beta_reduce; first
    | assumption | exact covers_of hw rfl | (intro _)
    | (extract_lets +onlyGivenNames x; first
      | (refine keeps_cut (w := w) (r := r) (s := x) ?_ ?_; (on_goal 2 => (intro hx; clear_value x)); unfold x; clear x)
      | (refine keeps_cut (w := w) (r := r) (s := x.1) ?_ ?_; (on_goal 2 => (intro hx; clear_value x)); unfold x; clear x)
      | clear_value x)
    | apply ends_next | apply keeps_done | apply keeps_nakSeen | apply keeps_emitPkt | apply keeps_inc
    | apply keeps_lbUpd | apply keeps_sendEgr | split | refine keeps_pair (by assumption) ?_)

theorem keeps_dropWindowBuffers (c : Nat) (w0 : Option Nat) {s : State}
    (hw : Covers 0x102012D3AB w) (h : Keeps w r s) : Keeps w r (dropWindowBuffers c w0 s) := by
  unfold dropWindowBuffers
  with_reducible repeat' (beta_reduce; first
    | assumption | exact covers_of hw rfl | (intro _)
    | (extract_lets +onlyGivenNames x; first
      | (refine keeps_cut (w := w) (r := r) (s := x) ?_ ?_; (on_goal 2 => (intro hx; clear_value x)); unfold x; clear x)
      | (refine keeps_cut (w := w) (r := r) (s := x.1) ?_ ?_; (on_goal 2 => (intro hx; clear_value x)); unfold x; clear x)
      | clear_value x)
    | apply keeps_doAll | apply keeps_srbDropAll | apply keeps_lbUpd | split | refine keeps_pair (by assumption) ?_)

theorem keeps_overtaken (p : Nat) {s : State}
    (hw : Covers 0x102012D3AB w) (h : Keeps w r s) : Keeps w r (overtaken p s) := by
  unfold overtaken
  with_reducible repeat' (beta_reduce; first
    | assumption | exact covers_of hw rfl | (intro _) | apply keeps_doAll | apply keeps_overwrite | split
    | refine keeps_pair (by assumption) ?_)

theorem keeps_pfInsert (p : Nat) (c : Nat) (w0 : Nat) (blk : Nat) (la : Nat) (data : List Byte) {s : State}
    (hw : Covers 0x100000 w) (h : Keeps w r s) : Keeps w r (pfInsert p c w0 blk la data s) := by
  unfold pfInsert
  with_reducible repeat' (beta_reduce; first
    | assumption | exact covers_of hw rfl | (intro _)
    | (extract_lets +onlyGivenNames x; first
      | (refine keeps_cut (w := w) (r := r) (s := x) ?_ ?_; (on_goal 2 => (intro hx; clear_value x)); unfold x; clear x)
      | (refine keeps_cut (w := w) (r := r) (s := x.1) ?_ ?_; (on_goal 2 => (intro hx; clear_value x)); unfold x; clear x)
      | clear_value x)
    | apply keeps_lbUpd | split | refine keeps_pair (by assumption) ?_)

theorem keeps_strand (p : Nat) (c : Nat) (w0 : Nat) (blk : Nat) (la : Nat) (data : List Byte) {s : State}
    (hw : Covers 0x102052D3AB w) (h : Keeps w r s) : Keeps w r (strand p c w0 blk la data s) := by
  unfold strand
  with_reducible repeat' (beta_reduce; first
    | assumption | exact covers_of hw rfl | (intro _)
    | (extract_lets +onlyGivenNames x; first
      | (refine keeps_cut (w := w) (r := r) (s := x) ?_ ?_; (on_goal 2 => (intro hx; clear_value x)); unfold x; clear x)
      | (refine keeps_cut (w := w) (r := r) (s := x.1) ?_ ?_; (on_goal 2 => (intro hx; clear_value x)); unfold x; clear x)
      | clear_value x)
    | apply keeps_dropItems | apply keeps_lbRaise | apply keeps_set | apply keeps_srbRegs | apply keeps_lbUpd
    | apply keeps_srbDrop | split | refine keeps_pair (by assumption) ?_)

theorem keeps_execSpeculativeReadAbandon (p : Fin 4) {s : State}
    (hw : Covers 0x400000 w) (h : Keeps w r s) : Ends w r (execSpeculativeReadAbandon p s) := by
  unfold execSpeculativeReadAbandon
  with_reducible repeat' (beta_reduce; first
    | assumption | exact covers_of hw rfl | (intro _) | apply ends_next | apply keeps_done | apply keeps_dropItems
    | split | refine keeps_pair (by assumption) ?_)

theorem keeps_execPrefetchBlockExpiry (p : Fin 4) {s : State}
    (hw : Covers 0x100000 w) (h : Keeps w r s) : Ends w r (execPrefetchBlockExpiry p s) := by
  unfold execPrefetchBlockExpiry
  with_reducible repeat' (beta_reduce; first
    | assumption | exact covers_of hw rfl | (intro _) | apply ends_next | apply keeps_done | apply keeps_lbUpd | split
    | refine keeps_pair (by assumption) ?_)

theorem keeps_execStrandedEntryExpiry (p : Fin 4) (e : Fin 16) {s : State}
    (hw : Covers 0x102012D3AB w) (h : Keeps w r s) : Ends w r (execStrandedEntryExpiry p e s) := by
  unfold execStrandedEntryExpiry
  with_reducible repeat' (beta_reduce; first
    | assumption | exact covers_of hw rfl | (intro _) | apply ends_next | apply keeps_done | apply keeps_srbDrop
    | split | refine keeps_pair (by assumption) ?_)

theorem keeps_reqGone (p : Nat) (tag : Nat) {s : State}
    (hw : Covers 0x100000 w) (h : Keeps w r s) : Keeps w r (reqGone p tag s) := by
  unfold reqGone
  with_reducible repeat' (beta_reduce; first
    | assumption | exact covers_of hw rfl | (intro _) | apply keeps_lbUpd | split
    | refine keeps_pair (by assumption) ?_)

theorem keeps_countResp (p : Nat) (code : Nat) (spec : Bool) {s : State}
    (hw : Covers 0x102002D3AB w) (h : Keeps w r s) : Keeps w r (countResp p code spec s) := by
  unfold countResp
  with_reducible repeat' (beta_reduce; first
    | assumption | exact covers_of hw rfl | (intro _) | apply keeps_doIf | apply keeps_inc | apply keeps_lbRaise
    | split | refine keeps_pair (by assumption) ?_)

theorem keeps_respond (p : Nat) (r0 : Req) (code : Nat) (data : List Byte) {s : State}
    (hw : Covers 0x10207ED3AB w) (h : Keeps w r s) : Keeps w r (respond p r0 code data s) := by
  unfold respond
  with_reducible repeat' (beta_reduce; first
    | assumption | exact covers_of hw rfl | (intro _)
    | (extract_lets +onlyGivenNames x; first
      | (refine keeps_cut (w := w) (r := r) (s := x) ?_ ?_; (on_goal 2 => (intro hx; clear_value x)); unfold x; clear x)
      | (refine keeps_cut (w := w) (r := r) (s := x.1) ?_ ?_; (on_goal 2 => (intro hx; clear_value x)); unfold x; clear x)
      | clear_value x)
    | apply keeps_lbUpd | apply keeps_countResp | apply keeps_overtaken | apply keeps_pfInsert | apply keeps_reqGone
    | apply keeps_strand | apply keeps_answer | split | refine keeps_pair (by assumption) ?_)

theorem keeps_execLbRespReceive (p : Fin 4) (rx : Rx) (tag : Fin 512) (code : BitVec 4) (data : List Byte) {s : State}
    (hw : Covers 0x10207ED3AB w) (h : Keeps w r s) : Ends w r (execLbRespReceive p rx tag code data s) := by
  unfold execLbRespReceive
  with_reducible repeat' (beta_reduce; first
    | assumption | exact covers_of hw rfl | (intro _) | apply ends_next | apply keeps_rxAccept | apply keeps_done
    | apply keeps_inc | apply keeps_lbUpd | apply keeps_protoErr | apply keeps_respond | split
    | refine keeps_pair (by assumption) ?_)

theorem keeps_execLbRetryLaterResend (p : Fin 4) (tag : Fin 512) {s : State}
    (hw : Covers 0x100000 w) (h : Keeps w r s) : Ends w r (execLbRetryLaterResend p tag s) := by
  unfold execLbRetryLaterResend
  with_reducible repeat' (beta_reduce; first
    | assumption | exact covers_of hw rfl | (intro _) | apply ends_next | apply keeps_done | apply keeps_lbUpd | split
    | refine keeps_pair (by assumption) ?_)

theorem keeps_execWindowCompletionTimeout (p : Fin 4) (tag : Fin 512) {s : State}
    (hw : Covers 0x10207ED3AB w) (h : Keeps w r s) : Ends w r (execWindowCompletionTimeout p tag s) := by
  unfold execWindowCompletionTimeout
  with_reducible repeat' (beta_reduce; first
    | assumption | exact covers_of hw rfl | (intro _) | apply ends_next | apply keeps_done | apply keeps_answer
    | apply keeps_lbRaise | apply keeps_inc | apply keeps_lbUpd | apply keeps_reqGone | split
    | refine keeps_pair (by assumption) ?_)

theorem keeps_winMapApply (c : Nat) (w0 : Nat) {s : State}
    (hw : Covers 0x8 w) (h : Keeps w r s) : Keeps w r (winMapApply c w0 s) := by
  unfold winMapApply
  with_reducible repeat' (first
    | assumption | exact covers_of hw rfl
    | (extract_lets +onlyGivenNames x; first
      | (refine keeps_cut (w := w) (r := r) (s := x) ?_ ?_; (on_goal 2 => (intro hx; clear_value x)); unfold x; clear x)
      | (refine keeps_cut (w := w) (r := r) (s := x.1) ?_ ?_; (on_goal 2 => (intro hx; clear_value x)); unfold x; clear x)
      | clear_value x)
    | apply keeps_set | apply keeps_inc | split | refine keeps_pair (by assumption) ?_)

theorem keeps_winUnmapApply (c : Nat) (w0 : Nat) {s : State}
    (hw : Covers 0x102012D3AB w) (h : Keeps w r s) : Keeps w r (winUnmapApply c w0 s) := by
  unfold winUnmapApply
  with_reducible repeat' (first
    | assumption | exact covers_of hw rfl | apply keeps_dropWindowBuffers | apply keeps_dec | apply keeps_set | split
    | refine keeps_pair (by assumption) ?_)

theorem keeps_winAttrApply (c : Nat) (w0 : Nat) (v : Word) {s : State}
    (hw : Covers 0x8 w) (h : Keeps w r s) : Keeps w r (winAttrApply c w0 v s) := by
  unfold winAttrApply
  with_reducible repeat' (first
    | assumption | exact covers_of hw rfl
    | (extract_lets +onlyGivenNames x; first
      | (refine keeps_cut (w := w) (r := r) (s := x) ?_ ?_; (on_goal 2 => (intro hx; clear_value x)); unfold x; clear x)
      | (refine keeps_cut (w := w) (r := r) (s := x.1) ?_ ?_; (on_goal 2 => (intro hx; clear_value x)); unfold x; clear x)
      | clear_value x)
    | apply keeps_set | split | refine keeps_pair (by assumption) ?_)

theorem keeps_winEnable (c : Nat) (w0 : Nat) {s : State}
    (hw : Covers 0x10000 w) (h : Keeps w r s) : Keeps w r (winEnable c w0 s) := by
  unfold winEnable
  with_reducible repeat' (first
    | assumption | exact covers_of hw rfl | exact ⟨rfl, rfl⟩ | split | refine keeps_pair (by assumption) ?_
    | refine keeps_mk ?_)

theorem keeps_execWinMap (c : Fin 1024) (w0 : Fin 16) {s : State}
    (hw : Covers 0x10000 w) (h : Keeps w r s) : Ends w r (execWinMap c w0 s) := by
  unfold execWinMap
  with_reducible repeat' (first
    | assumption | exact covers_of hw rfl | apply ends_next | apply keeps_done | apply keeps_winEnable | split
    | refine keeps_pair (by assumption) ?_)

theorem keeps_execWinUnmap (c : Fin 1024) (w0 : Fin 16) {s : State}
    (hw : Covers 0x10000 w) (h : Keeps w r s) : Ends w r (execWinUnmap c w0 s) := by
  unfold execWinUnmap
  with_reducible repeat' (first
    | assumption | exact covers_of hw rfl | apply ends_next | apply keeps_done | exact ⟨rfl, rfl⟩ | split
    | refine keeps_pair (by assumption) ?_ | refine keeps_mk ?_)

theorem keeps_winAttrWrite (c : Nat) (w0 : Nat) (v : Word) {s : State}
    (hw : Covers 0x10008 w) (h : Keeps w r s) : Keeps w r (winAttrWrite c w0 v s) := by
  unfold winAttrWrite
  with_reducible repeat' (beta_reduce; first
    | assumption | exact covers_of hw rfl | (intro _) | apply keeps_doIf | apply keeps_set | exact ⟨rfl, rfl⟩ | split
    | refine keeps_pair (by assumption) ?_ | refine keeps_mk ?_)

theorem keeps_execWinAttrWrite (c : Fin 1024) (w0 : Fin 16) (v : Word) {s : State}
    (hw : Covers 0x10008 w) (h : Keeps w r s) : Ends w r (execWinAttrWrite c w0 v s) := by
  unfold execWinAttrWrite
  with_reducible repeat' (first
    | assumption | exact covers_of hw rfl | apply ends_next | apply keeps_done | apply keeps_winAttrWrite | split
    | refine keeps_pair (by assumption) ?_)

theorem keeps_upRefused (p : Nat) (c : Nat) (cause : Nat) (guard : Nat) (addr : Nat) (precise : Bool) {s : State}
    (hw : Covers 0x102002D3AB w) (h : Keeps w r s) : Keeps w r (upRefused p c cause guard addr precise s) := by
  unfold upRefused
  with_reducible repeat' (first
    | assumption | exact covers_of hw rfl | apply keeps_raise | apply keeps_countAts | apply keeps_inc
    | apply keeps_accVlog | split | refine keeps_pair (by assumption) ?_)

theorem keeps_upDecide (p : Nat) (addr : Nat) (len : Nat) (wr : Bool) (precise : Bool) {s : State}
    (hw : Covers 0x102002D3AB w) (h : Keeps w r s) : Keeps w r (upDecide p addr len wr precise s).1 := by
  unfold upDecide
  with_reducible repeat' (beta_reduce; first
    | assumption | exact covers_of hw rfl | (intro _)
    | (extract_lets +onlyGivenNames x; first
      | (refine keeps_cut (w := w) (r := r) (s := x) ?_ ?_; (on_goal 2 => (intro hx; clear_value x)); unfold x; clear x)
      | (refine keeps_cut (w := w) (r := r) (s := x.1) ?_ ?_; (on_goal 2 => (intro hx; clear_value x)); unfold x; clear x)
      | clear_value x)
    | apply keeps_lbRaise | apply keeps_inc | apply keeps_upRefused | split | refine keeps_pair (by assumption) ?_)

theorem keeps_respOut (p : Nat) (tag : Nat) (code : Nat) (data : List Byte) {s : State}
    (hw : Covers 0x100000 w) (h : Keeps w r s) : Keeps w r (respOut p tag code data s) := by
  unfold respOut
  with_reducible repeat' (beta_reduce; first
    | assumption | exact covers_of hw rfl | (intro _) | apply keeps_lbUpd | split
    | refine keeps_pair (by assumption) ?_)

theorem keeps_upUpd (p : Nat) (i : Nat) (f : UpRead → UpRead) {s : State}
    (hw : Covers 0x100000 w) (h : Keeps w r s) : Keeps w r (upUpd p i f s) := by
  unfold upUpd
  with_reducible repeat' (beta_reduce; first
    | assumption | exact covers_of hw rfl | (intro _) | apply keeps_lbUpd | split
    | refine keeps_pair (by assumption) ?_)

theorem keeps_upSettle (p : Nat) (i : Nat) {s : State}
    (hw : Covers 0x500000 w) (h : Keeps w r s) : Keeps w r (upSettle p i s) := by
  unfold upSettle
  with_reducible repeat' (beta_reduce; first
    | assumption | exact covers_of hw rfl | (intro _)
    | (extract_lets +onlyGivenNames x; first
      | (refine keeps_cut (w := w) (r := r) (s := x) ?_ ?_; (on_goal 2 => (intro hx; clear_value x)); unfold x; clear x)
      | (refine keeps_cut (w := w) (r := r) (s := x.1) ?_ ?_; (on_goal 2 => (intro hx; clear_value x)); unfold x; clear x)
      | clear_value x)
    | apply keeps_respOut | apply keeps_lbUpd | apply keeps_addItem | split | refine keeps_pair (by assumption) ?_)

theorem keeps_upIssueOne (p : Nat) (i : Nat) {s : State}
    (hw : Covers 0x102052D3AB w) (h : Keeps w r s) : Keeps w r (upIssueOne p i s) := by
  unfold upIssueOne
  with_reducible repeat' (beta_reduce; first
    | assumption | exact covers_of hw rfl | (intro _)
    | (extract_lets +onlyGivenNames x; first
      | (refine keeps_cut (w := w) (r := r) (s := x) ?_ ?_; (on_goal 2 => (intro hx; clear_value x)); unfold x; clear x)
      | (refine keeps_cut (w := w) (r := r) (s := x.1) ?_ ?_; (on_goal 2 => (intro hx; clear_value x)); unfold x; clear x)
      | clear_value x)
    | apply keeps_upSettle | apply keeps_upUpd | apply keeps_findPages | apply keeps_upRefused | apply keeps_tagWaits
    | apply keeps_hostReadOut | apply keeps_atsUse | split | refine keeps_pair (by assumption) ?_)

theorem keeps_upIssue (p : Nat) {s : State}
    (hw : Covers 0x102052D3AB w) (h : Keeps w r s) : Keeps w r (upIssue p s) := by
  unfold upIssue
  with_reducible repeat' (beta_reduce; first
    | assumption | exact covers_of hw rfl | (intro _) | apply keeps_doAll | apply keeps_upIssueOne | split
    | refine keeps_pair (by assumption) ?_)

theorem keeps_upAnswered (p : Nat) (tag : Nat) (off : Nat) (r0 : Except Nat (List Byte)) {s : State}
    (hw : Covers 0x500000 w) (h : Keeps w r s) : Keeps w r (upAnswered p tag off r0 s) := by
  unfold upAnswered
  with_reducible repeat' (beta_reduce; first
    | assumption | exact covers_of hw rfl | (intro _) | apply keeps_upSettle | apply keeps_upUpd | split
    | refine keeps_pair (by assumption) ?_)

theorem keeps_execLbReadReceive (p : Fin 4) (rx : Rx) (tag : Fin 512) (addr : BitVec 48) (len : Fin 512) {s : State}
    (hw : Covers 0x10207ED3AB w) (h : Keeps w r s) : Ends w r (execLbReadReceive p rx tag addr len s) := by
  unfold execLbReadReceive
  with_reducible repeat' (beta_reduce; first
    | assumption | exact covers_of hw rfl | (intro _)
    | (extract_lets +onlyGivenNames x; first
      | (refine keeps_cut (w := w) (r := r) (s := x) ?_ ?_; (on_goal 2 => (intro hx; clear_value x)); unfold x; clear x)
      | (refine keeps_cut (w := w) (r := r) (s := x.1) ?_ ?_; (on_goal 2 => (intro hx; clear_value x)); unfold x; clear x)
      | clear_value x)
    | apply ends_next | apply keeps_rxAccept | apply keeps_done | apply keeps_protoErr | apply keeps_upDecide
    | apply keeps_respOut | apply keeps_upIssue | apply keeps_lbUpd | split | refine keeps_pair (by assumption) ?_)

theorem keeps_upWrite (p : Nat) (rx : Rx) (tag : Option Nat) (addr : Nat) (data : List Byte) {s : State}
    (hw : Covers 0x10207ED3AB w) (h : Keeps w r s) : Keeps w r (upWrite p rx tag addr data s) := by
  unfold upWrite
  with_reducible repeat' (beta_reduce; first
    | assumption | exact covers_of hw rfl | (intro _) | apply keeps_rxAccept | apply keeps_protoErr
    | apply keeps_upDecide | apply keeps_respOut | apply keeps_addItem | split | refine keeps_pair (by assumption) ?_)

theorem keeps_execLbWritePostedReceive (p : Fin 4) (rx : Rx) (addr : BitVec 48) (data : List Byte) {s : State}
    (hw : Covers 0x10207ED3AB w) (h : Keeps w r s) : Ends w r (execLbWritePostedReceive p rx addr data s) := by
  unfold execLbWritePostedReceive
  with_reducible repeat' (first
    | assumption | exact covers_of hw rfl | apply ends_next | apply keeps_done | apply keeps_upWrite | split
    | refine keeps_pair (by assumption) ?_)

theorem keeps_execLbWriteAckedReceive (p : Fin 4) (rx : Rx) (tag : Fin 512) (addr : BitVec 48) (data : List Byte) {s : State}
    (hw : Covers 0x10207ED3AB w) (h : Keeps w r s) : Ends w r (execLbWriteAckedReceive p rx tag addr data s) := by
  unfold execLbWriteAckedReceive
  with_reducible repeat' (first
    | assumption | exact covers_of hw rfl | apply ends_next | apply keeps_done | apply keeps_upWrite | split
    | refine keeps_pair (by assumption) ?_)

theorem keeps_execLbAtomicReceive (p : Fin 4) (rx : Rx) {s : State}
    (hw : Covers 0x10207ED3AB w) (h : Keeps w r s) : Ends w r (execLbAtomicReceive p rx s) := by
  unfold execLbAtomicReceive
  with_reducible repeat' (beta_reduce; first
    | assumption | exact covers_of hw rfl | (intro _) | apply ends_next | apply keeps_rxAccept | apply keeps_done
    | apply keeps_protoErr | split | refine keeps_pair (by assumption) ?_)

theorem keeps_execLbMsgReceive (p : Fin 4) (rx : Rx) (id : BitVec 16) (data : List Byte) {s : State}
    (hw : Covers 0x10247ED3AB w) (h : Keeps w r s) : Ends w r (execLbMsgReceive p rx id data s) := by
  unfold execLbMsgReceive
  with_reducible repeat' (beta_reduce; first
    | assumption | exact covers_of hw rfl | (intro _) | apply ends_next | apply keeps_rxAccept | apply keeps_done
    | apply keeps_protoErr | apply keeps_acceptItem | split | refine keeps_pair (by assumption) ?_)

theorem keeps_execLbFrameReceive (p : Fin 4) (rx : Rx) (sof : Bool) (eof : Bool) (info : Word) (data : List Byte) {s : State}
    (hw : Covers 0x10247ED3AB w) (h : Keeps w r s) : Ends w r (execLbFrameReceive p rx sof eof info data s) := by
  unfold execLbFrameReceive
  with_reducible repeat' (beta_reduce; first
    | assumption | exact covers_of hw rfl | (intro _) | apply ends_next | apply keeps_rxAccept | apply keeps_done
    | apply keeps_protoErr | apply keeps_frameSegment | split | refine keeps_pair (by assumption) ?_)

theorem keeps_execLbSidebandReceive (p : Fin 4) (rx : Rx) (event : Fin 16) {s : State}
    (hw : Covers 0x10247ED3AB w) (h : Keeps w r s) : Ends w r (execLbSidebandReceive p rx event s) := by
  unfold execLbSidebandReceive
  with_reducible repeat' (beta_reduce; first
    | assumption | exact covers_of hw rfl | (intro _) | apply ends_next | apply keeps_rxAccept | apply keeps_done
    | apply keeps_acceptItem | split | refine keeps_pair (by assumption) ?_)

theorem keeps_execLintEdge (p : Fin 4) (line : Fin 4) (rising : Bool) {s : State}
    (hw : Covers 0x10245AD3AB w) (h : Keeps w r s) : Ends w r (execLintEdge p line rising s) := by
  unfold execLintEdge
  with_reducible repeat' (beta_reduce; first
    | assumption | exact covers_of hw rfl | (intro _)
    | (extract_lets +onlyGivenNames x; first
      | (refine keeps_cut (w := w) (r := r) (s := x) ?_ ?_; (on_goal 2 => (intro hx; clear_value x)); unfold x; clear x)
      | (refine keeps_cut (w := w) (r := r) (s := x.1) ?_ ?_; (on_goal 2 => (intro hx; clear_value x)); unfold x; clear x)
      | clear_value x)
    | apply ends_next | apply keeps_done | apply keeps_lbUpd | apply keeps_lbRaise | apply keeps_acceptItem
    | apply keeps_lintFull | split | refine keeps_pair (by assumption) ?_)

theorem keeps_lintRelease (p : Nat) {s : State}
    (hw : Covers 0x4580008 w) (h : Keeps w r s) : Keeps w r (lintRelease p s) := by
  unfold lintRelease
  with_reducible repeat' (beta_reduce; first
    | assumption | exact covers_of hw rfl | (intro _) | apply keeps_doAll | apply keeps_acceptWith | apply keeps_lbUpd
    | split | refine keeps_pair (by assumption) ?_)

end Sys2Proof.Machine
end

