-- ==== Sys2Proof/Laws/KeepsStore.lean ====
section
/-! SUPPORT. Laws/KeepsStore.lean: what every operation may change and what it keeps: durable store, media, descriptors, mailboxes, cadence, power. -/
namespace Sys2Proof.Machine

set_option Elab.async false
set_option linter.unusedTactic false
set_option linter.unreachableTactic false
set_option linter.unusedVariables false

variable {w : Nat} {r : State}

theorem keeps_dsUpd {s : State} (f : Store → Store) (hw : Covers 0x2000000 w)
    (hf : ∀ d, (f d).mem = d.mem ∧ (f d).nand = d.nand) (h : Keeps w r s) : Keeps w r (s.dsUpd f) :=
  keeps_dsBytes f (covers_bit hw rfl) (.inr (hf _).1) (.inr (hf _).2) (fun hr => by rw [(hf _).1, (hf _).2]; exact hr) h

theorem keeps_updAptOcc (a : Nat) {s : State}
    (hw : Covers 0x8 w) (h : Keeps w r s) : Keeps w r (updAptOcc a s) := by
  unfold updAptOcc
  with_reducible repeat' (beta_reduce; first
    | assumption | exact covers_of hw rfl | (intro _)
    | (extract_lets +onlyGivenNames x; first
      | (refine keeps_cut (w := w) (r := r) (s := x) ?_ ?_; (on_goal 2 => (intro hx; clear_value x)); unfold x; clear x)
      | (refine keeps_cut (w := w) (r := r) (s := x.1) ?_ ?_; (on_goal 2 => (intro hx; clear_value x)); unfold x; clear x)
      | clear_value x)
    | apply keeps_set | split | refine keeps_pair (by assumption) ?_)

theorem keeps_updDirty (a : Nat) {s : State}
    (hw : Covers 0x8 w) (h : Keeps w r s) : Keeps w r (updDirty a s) := by
  unfold updDirty
  with_reducible repeat' (first
    | assumption | exact covers_of hw rfl
    | (extract_lets +onlyGivenNames x; first
      | (refine keeps_cut (w := w) (r := r) (s := x) ?_ ?_; (on_goal 2 => (intro hx; clear_value x)); unfold x; clear x)
      | (refine keeps_cut (w := w) (r := r) (s := x.1) ?_ ?_; (on_goal 2 => (intro hx; clear_value x)); unfold x; clear x)
      | clear_value x)
    | apply keeps_updAptOcc | apply keeps_peak | apply keeps_set | split | refine keeps_pair (by assumption) ?_)

theorem keeps_updMirrorStatus {s : State}
    (hw : Covers 0x8 w) (h : Keeps w r s) : Keeps w r (updMirrorStatus s) := by
  unfold updMirrorStatus
  with_reducible repeat' (beta_reduce; first
    | assumption | exact covers_of hw rfl | (intro _)
    | (extract_lets +onlyGivenNames x; first
      | (refine keeps_cut (w := w) (r := r) (s := x) ?_ ?_; (on_goal 2 => (intro hx; clear_value x)); unfold x; clear x)
      | (refine keeps_cut (w := w) (r := r) (s := x.1) ?_ ?_; (on_goal 2 => (intro hx; clear_value x)); unfold x; clear x)
      | clear_value x)
    | apply keeps_set | split | refine keeps_pair (by assumption) ?_)

theorem keeps_updStage {s : State}
    (hw : Covers 0x102202D3AB w) (h : Keeps w r s) : Keeps w r (updStage s) := by
  unfold updStage
  with_reducible repeat' (beta_reduce; first
    | assumption | exact covers_of hw rfl | (intro _)
    | (extract_lets +onlyGivenNames x; first
      | (refine keeps_cut (w := w) (r := r) (s := x) ?_ ?_; (on_goal 2 => (intro hx; clear_value x)); unfold x; clear x)
      | (refine keeps_cut (w := w) (r := r) (s := x.1) ?_ ?_; (on_goal 2 => (intro hx; clear_value x)); unfold x; clear x)
      | clear_value x)
    | apply keeps_doIf | apply keeps_raise | apply keeps_inc | apply keeps_dsUpd | apply keeps_set | exact ⟨rfl, rfl⟩
    | split | refine keeps_pair (by assumption) ?_)

theorem keeps_mapLookup {s : State}
    (hw : Covers 0xA w) (h : Keeps w r s) : Keeps w r (mapLookup s) := by
  unfold mapLookup
  with_reducible repeat' (first
    | assumption | exact covers_of hw rfl | apply keeps_drewOne | apply keeps_inc | split
    | refine keeps_pair (by assumption) ?_)

theorem keeps_lookupAll (a : Nat) (off : Nat) (len : Nat) {s : State}
    (hw : Covers 0xA w) (h : Keeps w r s) : Keeps w r (lookupAll a off len s) := by
  unfold lookupAll
  with_reducible repeat' (beta_reduce; first
    | assumption | exact covers_of hw rfl | (intro _) | apply keeps_doAll | apply keeps_mapLookup | split
    | refine keeps_pair (by assumption) ?_)

theorem keeps_takeWseq (c : Nat) {s : State}
    (hw : Covers 0x8 w) (h : Keeps w r s) : Keeps w r (takeWseq c s) := by
  unfold takeWseq
  with_reducible repeat' (first
    | assumption | exact covers_of hw rfl
    | (extract_lets +onlyGivenNames x; first
      | (refine keeps_cut (w := w) (r := r) (s := x) ?_ ?_; (on_goal 2 => (intro hx; clear_value x)); unfold x; clear x)
      | (refine keeps_cut (w := w) (r := r) (s := x.1) ?_ ?_; (on_goal 2 => (intro hx; clear_value x)); unfold x; clear x)
      | clear_value x)
    | apply keeps_setWord | split | refine keeps_pair (by assumption) ?_)

theorem keeps_heldAnswer (c : Nat) (v : Nat) (r0 : HeldRead) {s : State}
    (hw : Covers 0x40001 w) (h : Keeps w r s) : Keeps w r (heldAnswer c v r0 s) := by
  unfold heldAnswer
  with_reducible repeat' (beta_reduce; first
    | assumption | exact covers_of hw rfl | (intro _)
    | (extract_lets +onlyGivenNames x; first
      | (refine keeps_cut (w := w) (r := r) (s := x) ?_ ?_; (on_goal 2 => (intro hx; clear_value x)); unfold x; clear x)
      | (refine keeps_cut (w := w) (r := r) (s := x.1) ?_ ?_; (on_goal 2 => (intro hx; clear_value x)); unfold x; clear x)
      | clear_value x)
    | apply keeps_ctxUpd | apply keeps_emit | split | refine keeps_pair (by assumption) ?_)

theorem keeps_persistReturn (c : Nat) (v : Nat) (r0 : HeldRead) {s : State}
    (hw : Covers 0x40009 w) (h : Keeps w r s) : Keeps w r (persistReturn c v r0 s) := by
  unfold persistReturn
  with_reducible repeat' (beta_reduce; first
    | assumption | exact covers_of hw rfl | (intro _) | apply keeps_heldAnswer | apply keeps_ctxUpd
    | apply keeps_setWord | split | refine keeps_pair (by assumption) ?_)

theorem keeps_persistRead (c : Nat) (be : Nat) (rest : Option Nat) {s : State}
    (hw : Covers 0x40009 w) (h : Keeps w r s) : Keeps w r (persistRead c be rest s) := by
  unfold persistRead
  with_reducible repeat' (beta_reduce; first
    | assumption | exact covers_of hw rfl | (intro _) | apply keeps_heldAnswer | apply keeps_setWord
    | apply keeps_ctxUpd | split | refine keeps_pair (by assumption) ?_)

theorem keeps_execCtxPersistRead (c : Fin 1024) {s : State}
    (hw : Covers 0x102046D3AB w) (h : Keeps w r s) : Ends w r (execCtxPersistRead c s) := by
  unfold execCtxPersistRead
  with_reducible repeat' (first
    | assumption | exact covers_of hw rfl | (intro _) | apply ends_next | apply keeps_done | apply keeps_hostTlp
    | apply keeps_persistRead | split | refine keeps_pair (by assumption) ?_)

theorem keeps_execCtxPersistReturn (c : Fin 1024) {s : State}
    (hw : Covers 0x40009 w) (h : Keeps w r s) : Ends w r (execCtxPersistReturn c s) := by
  unfold execCtxPersistReturn
  with_reducible repeat' (beta_reduce; first
    | assumption | exact covers_of hw rfl | (intro _) | apply ends_next | apply keeps_done | apply keeps_persistReturn
    | split | refine keeps_pair (by assumption) ?_)

theorem keeps_execCtxPersistTimeout (c : Fin 1024) {s : State}
    (hw : Covers 0x40009 w) (h : Keeps w r s) : Ends w r (execCtxPersistTimeout c s) := by
  unfold execCtxPersistTimeout
  with_reducible repeat' (beta_reduce; first
    | assumption | exact covers_of hw rfl | (intro _) | apply ends_next | apply keeps_done | apply keeps_persistReturn
    | split | refine keeps_pair (by assumption) ?_)

theorem keeps_mirrorSend (a : Nat) (c : Nat) (src : Option WrSrc) (off : Nat) (data : List Byte) {s : State}
    (hw : Covers 0x2400000 w) (h : Keeps w r s) : Keeps w r (mirrorSend a c src off data s) := by
  unfold mirrorSend
  with_reducible repeat' (beta_reduce; first
    | assumption | exact covers_of hw rfl | (intro _)
    | (extract_lets +onlyGivenNames x; first
      | (refine keeps_cut (w := w) (r := r) (s := x) ?_ ?_; (on_goal 2 => (intro hx; clear_value x)); unfold x; clear x)
      | (refine keeps_cut (w := w) (r := r) (s := x.1) ?_ ?_; (on_goal 2 => (intro hx; clear_value x)); unfold x; clear x)
      | clear_value x)
    | apply keeps_doAll | apply keeps_addItem | apply keeps_dsUpd | exact ⟨rfl, rfl⟩ | split
    | refine keeps_pair (by assumption) ?_)

theorem keeps_nowProtected (src : Option WrSrc) {s : State}
    (hw : Covers 0x400000 w) (h : Keeps w r s) : Keeps w r (nowProtected src s) := by
  unfold nowProtected
  with_reducible repeat' (beta_reduce; first
    | assumption | exact covers_of hw rfl | (intro _) | apply keeps_peerAns | split
    | refine keeps_pair (by assumption) ?_)

theorem keeps_mirrorAcked (n : Nat) {s : State}
    (hw : Covers 0x2400008 w) (h : Keeps w r s) : Keeps w r (mirrorAcked n s) := by
  unfold mirrorAcked
  with_reducible repeat' (beta_reduce; first
    | assumption | exact covers_of hw rfl | (intro _)
    | (extract_lets +onlyGivenNames x; first
      | (refine keeps_cut (w := w) (r := r) (s := x) ?_ ?_; (on_goal 2 => (intro hx; clear_value x)); unfold x; clear x)
      | (refine keeps_cut (w := w) (r := r) (s := x.1) ?_ ?_; (on_goal 2 => (intro hx; clear_value x)); unfold x; clear x)
      | clear_value x)
    | apply keeps_nowProtected | apply keeps_dsUpd | apply keeps_updAptOcc | exact ⟨rfl, rfl⟩ | split
    | refine keeps_pair (by assumption) ?_)

theorem keeps_markSolo (src : Option WrSrc) {s : State}
    (hw : Covers 0x40000 w) (h : Keeps w r s) : Keeps w r (markSolo src s) := by
  unfold markSolo
  with_reducible repeat' (beta_reduce; first
    | assumption | exact covers_of hw rfl | (intro _) | apply keeps_ctxUpd | split
    | refine keeps_pair (by assumption) ?_)

theorem keeps_enterSolo (a : Nat) {s : State}
    (hw : Covers 0x102246D3AB w) (h : Keeps w r s) : Keeps w r (enterSolo a s) := by
  unfold enterSolo
  with_reducible repeat' (beta_reduce; first
    | assumption | exact covers_of hw rfl | (intro _)
    | (extract_lets +onlyGivenNames x; first
      | (refine keeps_cut (w := w) (r := r) (s := x) ?_ ?_; (on_goal 2 => (intro hx; clear_value x)); unfold x; clear x)
      | (refine keeps_cut (w := w) (r := r) (s := x.1) ?_ ?_; (on_goal 2 => (intro hx; clear_value x)); unfold x; clear x)
      | clear_value x)
    | apply keeps_raise | apply keeps_updAptOcc | apply keeps_updMirrorStatus | apply keeps_doAll
    | apply keeps_nowProtected | apply keeps_markSolo | apply keeps_set | apply keeps_dropItems | apply keeps_dsUpd
    | exact ⟨rfl, rfl⟩ | split | refine keeps_pair (by assumption) ?_)

theorem keeps_soloNext (l : List Nat) {s : State}
    (hw : Covers 0x2000000 w) (h : Keeps w r s) : Keeps w r (soloNext l s) := by
  unfold soloNext
  with_reducible repeat' (beta_reduce; first
    | assumption | exact covers_of hw rfl | (intro _) | apply keeps_dsUpd | exact ⟨rfl, rfl⟩ | split
    | refine keeps_pair (by assumption) ?_)

theorem keeps_execMirrorAckTimeout (a : Fin 2048) {s : State}
    (hw : Covers 0x2000000 w) (h : Keeps w r s) : Ends w r (execMirrorAckTimeout a s) := by
  unfold execMirrorAckTimeout
  with_reducible repeat' (beta_reduce; first
    | assumption | exact covers_of hw rfl | (intro _) | apply ends_next | apply keeps_done | apply keeps_soloNext
    | split | refine keeps_pair (by assumption) ?_)

theorem keeps_execResyncComplete (a : Fin 2048) {s : State}
    (hw : Covers 0x102002D3AB w) (h : Keeps w r s) : Ends w r (execResyncComplete a s) := by
  unfold execResyncComplete
  with_reducible repeat' (beta_reduce; first
    | assumption | exact covers_of hw rfl | (intro _) | apply ends_next | apply keeps_done | apply keeps_raise
    | apply keeps_updMirrorStatus | apply keeps_set | split | refine keeps_pair (by assumption) ?_)

theorem keeps_resyncStep (a : Nat) {s : State}
    (hw : Covers 0x2400000 w) (h : Keeps w r s) : Keeps w r (resyncStep a s) := by
  unfold resyncStep
  with_reducible repeat' (beta_reduce; first
    | assumption | exact covers_of hw rfl | (intro _) | apply keeps_mirrorSend | split
    | refine keeps_pair (by assumption) ?_)

theorem keeps_evict (a : Nat) (keep : List (Nat × Nat)) {s : State}
    (hw : Covers 0x2000000 w) (h : Keeps w r s) : Keeps w r (evict a keep s) := by
  unfold evict
  with_reducible repeat' (beta_reduce; first
    | assumption | exact covers_of hw rfl | (intro _)
    | (extract_lets +onlyGivenNames x; first
      | (refine keeps_cut (w := w) (r := r) (s := x) ?_ ?_; (on_goal 2 => (intro hx; clear_value x)); unfold x; clear x)
      | (refine keeps_cut (w := w) (r := r) (s := x.1) ?_ ?_; (on_goal 2 => (intro hx; clear_value x)); unfold x; clear x)
      | clear_value x)
    | apply keeps_dsUpd | exact ⟨rfl, rfl⟩ | split | refine keeps_pair (by assumption) ?_)

theorem keeps_clearLost (w0 : Wr) {s : State}
    (hw : Covers 0x402000000 w) (h : Keeps w r s) : Keeps w r (clearLost w0 s) := by
  unfold clearLost
  with_reducible repeat' (beta_reduce; first
    | assumption | exact covers_of hw rfl | (intro _)
    | (extract_lets +onlyGivenNames x; first
      | (refine keeps_cut (w := w) (r := r) (s := x) ?_ ?_; (on_goal 2 => (intro hx; clear_value x)); unfold x; clear x)
      | (refine keeps_cut (w := w) (r := r) (s := x.1) ?_ ?_; (on_goal 2 => (intro hx; clear_value x)); unfold x; clear x)
      | clear_value x)
    | apply keeps_doAll | exact ⟨rfl, rfl⟩
    | refine keeps_dsBytes _ (covers_bit hw rfl) (by first | exact .inr rfl | exact .inl (covers_bit hw rfl))
        (by first | exact .inr rfl | exact .inl (covers_bit hw rfl)) (fun hr => ?_) ?_
    | exact ⟨wf_clearBytes _ _ _ hr.1, hr.2⟩ | exact hr | split | refine keeps_pair (by assumption) ?_)

theorem keeps_dropFlights (p : Nat × Nat → Bool) {s : State}
    (hw : Covers 0xA000000 w) (h : Keeps w r s) : Keeps w r (dropFlights p s) := by
  unfold dropFlights
  with_reducible repeat' (beta_reduce; first
    | assumption | exact covers_of hw rfl | (intro _)
    | (extract_lets +onlyGivenNames x; first
      | (refine keeps_cut (w := w) (r := r) (s := x) ?_ ?_; (on_goal 2 => (intro hx; clear_value x)); unfold x; clear x)
      | (refine keeps_cut (w := w) (r := r) (s := x.1) ?_ ?_; (on_goal 2 => (intro hx; clear_value x)); unfold x; clear x)
      | clear_value x)
    | apply keeps_dsUpd | exact ⟨rfl, rfl⟩ | split | refine keeps_pair (by assumption) ?_ | refine keeps_mk ?_)

theorem keeps_offStripes (p : Nat × Nat → Bool) {s : State}
    (hw : Covers 0x8000000 w) (h : Keeps w r s) : Keeps w r (offStripes p s) := by
  unfold offStripes
  with_reducible repeat' (beta_reduce; first
    | assumption | exact covers_of hw rfl | (intro _)
    | (extract_lets +onlyGivenNames x; first
      | (refine keeps_cut (w := w) (r := r) (s := x) ?_ ?_; (on_goal 2 => (intro hx; clear_value x)); unfold x; clear x)
      | (refine keeps_cut (w := w) (r := r) (s := x.1) ?_ ?_; (on_goal 2 => (intro hx; clear_value x)); unfold x; clear x)
      | clear_value x)
    | exact ⟨rfl, rfl⟩ | split | refine keeps_pair (by assumption) ?_ | refine keeps_mk ?_)

theorem keeps_cacheWrite (w0 : Wr) {s : State}
    (hw : Covers 0x40A00000A w) (h : Keeps w r s) : Keeps w r (cacheWrite w0 s) := by
  unfold cacheWrite
  with_reducible repeat' (beta_reduce; first
    | assumption | exact covers_of hw rfl | (intro _)
    | (extract_lets +onlyGivenNames x; first
      | (refine keeps_cut (w := w) (r := r) (s := x) ?_ ?_; (on_goal 2 => (intro hx; clear_value x)); unfold x; clear x)
      | (refine keeps_cut (w := w) (r := r) (s := x.1) ?_ ?_; (on_goal 2 => (intro hx; clear_value x)); unfold x; clear x)
      | clear_value x)
    | apply keeps_updDirty | apply keeps_evict | apply keeps_dropFlights | apply keeps_clearLost
    | apply keeps_lookupAll | exact ⟨rfl, rfl⟩
    | refine keeps_dsBytes _ (covers_bit hw rfl) (by first | exact .inr rfl | exact .inl (covers_bit hw rfl))
        (by first | exact .inr rfl | exact .inl (covers_bit hw rfl)) (fun hr => ?_) ?_
    | exact ⟨wf_putBytes _ _ _ hr.1, hr.2⟩ | split | refine keeps_pair (by assumption) ?_)

theorem keeps_admittedFor (w0 : Wr) {s : State}
    (hw : Covers 0x480000 w) (h : Keeps w r s) : Keeps w r (admittedFor w0 s) := by
  unfold admittedFor
  with_reducible repeat' (beta_reduce; first
    | assumption | exact covers_of hw rfl | (intro _) | apply keeps_descUpd | apply keeps_descIssued
    | apply keeps_peerAns | split | refine keeps_pair (by assumption) ?_)

theorem keeps_mirrorWrite (w0 : Wr) {s : State}
    (hw : Covers 0x2440008 w) (h : Keeps w r s) : Keeps w r (mirrorWrite w0 s) := by
  unfold mirrorWrite
  with_reducible repeat' (beta_reduce; first
    | assumption | exact covers_of hw rfl | (intro _)
    | (extract_lets +onlyGivenNames x; first
      | (refine keeps_cut (w := w) (r := r) (s := x) ?_ ?_; (on_goal 2 => (intro hx; clear_value x)); unfold x; clear x)
      | (refine keeps_cut (w := w) (r := r) (s := x.1) ?_ ?_; (on_goal 2 => (intro hx; clear_value x)); unfold x; clear x)
      | clear_value x)
    | apply keeps_mirrorSend | apply keeps_updAptOcc | apply keeps_markSolo | apply keeps_dsUpd | exact ⟨rfl, rfl⟩
    | split | refine keeps_pair (by assumption) ?_)

theorem keeps_execWriteAdmission (n : Fin 65536) {s : State}
    (hw : Covers 0x142A4ED3AB w) (h : Keeps w r s) : Ends w r (execWriteAdmission n s) := by
  unfold execWriteAdmission
  with_reducible repeat' (beta_reduce; first
    | assumption | exact covers_of hw rfl | (intro _) | apply ends_next | apply keeps_done | apply keeps_updStage
    | apply keeps_admittedFor | apply keeps_mirrorWrite | apply keeps_cacheWrite | apply keeps_dsUpd
    | exact ⟨rfl, rfl⟩ | split | refine keeps_pair (by assumption) ?_)

theorem keeps_aptGone (w0 : Wr) {s : State}
    (hw : Covers 0x10206ED3AB w) (h : Keeps w r s) : Keeps w r (aptGone w0 s) := by
  unfold aptGone
  with_reducible repeat' (beta_reduce; first
    | assumption | exact covers_of hw rfl | (intro _) | apply keeps_peerAns | apply keeps_answer | split
    | refine keeps_pair (by assumption) ?_)

theorem keeps_waitAdmission (w0 : Wr) {s : State}
    (hw : Covers 0x10226ED3AB w) (h : Keeps w r s) : Keeps w r (waitAdmission w0 s) := by
  unfold waitAdmission
  with_reducible repeat' (beta_reduce; first
    | assumption | exact covers_of hw rfl | (intro _) | apply keeps_updStage | apply keeps_dsUpd | apply keeps_aptGone
    | exact ⟨rfl, rfl⟩ | split | refine keeps_pair (by assumption) ?_)

theorem keeps_updBudget {s : State}
    (hw : Covers 0x102002D3AB w) (h : Keeps w r s) : Keeps w r (updBudget s) := by
  unfold updBudget
  with_reducible repeat' (beta_reduce; first
    | assumption | exact covers_of hw rfl | (intro _)
    | (extract_lets +onlyGivenNames x; first
      | (refine keeps_cut (w := w) (r := r) (s := x) ?_ ?_; (on_goal 2 => (intro hx; clear_value x)); unfold x; clear x)
      | (refine keeps_cut (w := w) (r := r) (s := x.1) ?_ ?_; (on_goal 2 => (intro hx; clear_value x)); unfold x; clear x)
      | clear_value x)
    | apply keeps_doIf | apply keeps_raise | apply keeps_set | split | refine keeps_pair (by assumption) ?_)

theorem keeps_updFlushRate {s : State}
    (hw : Covers 0x102002D3AB w) (h : Keeps w r s) : Keeps w r (updFlushRate s) := by
  unfold updFlushRate
  with_reducible repeat' (first
    | assumption | exact covers_of hw rfl
    | (extract_lets +onlyGivenNames x; first
      | (refine keeps_cut (w := w) (r := r) (s := x) ?_ ?_; (on_goal 2 => (intro hx; clear_value x)); unfold x; clear x)
      | (refine keeps_cut (w := w) (r := r) (s := x.1) ?_ ?_; (on_goal 2 => (intro hx; clear_value x)); unfold x; clear x)
      | clear_value x)
    | apply keeps_updBudget | apply keeps_set | split | refine keeps_pair (by assumption) ?_)

theorem keeps_dsBudgetWrite (v : Word) {s : State}
    (hw : Covers 0x102003D3AB w) (h : Keeps w r s) : Keeps w r (dsBudgetWrite v s) := by
  unfold dsBudgetWrite
  with_reducible repeat' (beta_reduce; first
    | assumption | exact covers_of hw rfl | (intro _)
    | (extract_lets +onlyGivenNames x; first
      | (refine keeps_cut (w := w) (r := r) (s := x) ?_ ?_; (on_goal 2 => (intro hx; clear_value x)); unfold x; clear x)
      | (refine keeps_cut (w := w) (r := r) (s := x.1) ?_ ?_; (on_goal 2 => (intro hx; clear_value x)); unfold x; clear x)
      | clear_value x)
    | apply keeps_doIf | apply keeps_set | apply keeps_raise | exact ⟨rfl, rfl⟩ | split
    | refine keeps_pair (by assumption) ?_ | refine keeps_mk ?_)

theorem keeps_execDsBudgetWrite (v : Word) {s : State}
    (hw : Covers 0x102003D3AB w) (h : Keeps w r s) : Ends w r (execDsBudgetWrite v s) := by
  unfold execDsBudgetWrite
  with_reducible repeat' (first
    | assumption | exact covers_of hw rfl | apply ends_next | apply keeps_done | apply keeps_dsBudgetWrite | split
    | refine keeps_pair (by assumption) ?_)

theorem keeps_dsHoldupWrite (v : Word) {s : State}
    (hw : Covers 0x102003D3AB w) (h : Keeps w r s) : Keeps w r (dsHoldupWrite v s) := by
  unfold dsHoldupWrite
  with_reducible repeat' (beta_reduce; first
    | assumption | exact covers_of hw rfl | (intro _)
    | (extract_lets +onlyGivenNames x; first
      | (refine keeps_cut (w := w) (r := r) (s := x) ?_ ?_; (on_goal 2 => (intro hx; clear_value x)); unfold x; clear x)
      | (refine keeps_cut (w := w) (r := r) (s := x.1) ?_ ?_; (on_goal 2 => (intro hx; clear_value x)); unfold x; clear x)
      | clear_value x)
    | apply keeps_raise | apply keeps_set | apply keeps_doIf | exact ⟨rfl, rfl⟩ | split
    | refine keeps_pair (by assumption) ?_ | refine keeps_mk ?_)

theorem keeps_execDsHoldupWrite (v : Word) {s : State}
    (hw : Covers 0x102003D3AB w) (h : Keeps w r s) : Ends w r (execDsHoldupWrite v s) := by
  unfold execDsHoldupWrite
  with_reducible repeat' (first
    | assumption | exact covers_of hw rfl | apply ends_next | apply keeps_done | apply keeps_dsHoldupWrite | split
    | refine keeps_pair (by assumption) ?_)

theorem keeps_aptCreate (a : Nat) (units : Nat) (mirror : Bool) {s : State}
    (hw : Covers 0x2000008 w) (h : Keeps w r s) : Keeps w r (aptCreate a units mirror s) := by
  unfold aptCreate
  with_reducible repeat' (beta_reduce; first
    | assumption | exact covers_of hw rfl | (intro _) | apply keeps_updAptOcc | apply keeps_dsUpd | apply keeps_set
    | apply keeps_setWord | exact ⟨rfl, rfl⟩ | split | refine keeps_pair (by assumption) ?_)

theorem keeps_writesGone (a : Nat) {s : State}
    (hw : Covers 0x10226ED3AB w) (h : Keeps w r s) : Keeps w r (writesGone a s) := by
  unfold writesGone
  with_reducible repeat' (beta_reduce; first
    | assumption | exact covers_of hw rfl | (intro _)
    | (extract_lets +onlyGivenNames x; first
      | (refine keeps_cut (w := w) (r := r) (s := x) ?_ ?_; (on_goal 2 => (intro hx; clear_value x)); unfold x; clear x)
      | (refine keeps_cut (w := w) (r := r) (s := x.1) ?_ ?_; (on_goal 2 => (intro hx; clear_value x)); unfold x; clear x)
      | clear_value x)
    | apply keeps_doAll | apply keeps_aptGone | apply keeps_peerAns | apply keeps_dsUpd | apply keeps_dropItems
    | exact ⟨rfl, rfl⟩ | split | refine keeps_pair (by assumption) ?_)

theorem keeps_aptErase (a : Nat) {s : State}
    (hw : Covers 0x1C2A6ED3AB w) (h : Keeps w r s) : Keeps w r (aptErase a s) := by
  unfold aptErase
  with_reducible repeat' (beta_reduce; first
    | assumption | exact covers_of hw rfl | (intro _)
    | (extract_lets +onlyGivenNames x; first
      | (refine keeps_cut (w := w) (r := r) (s := x) ?_ ?_; (on_goal 2 => (intro hx; clear_value x)); unfold x; clear x)
      | (refine keeps_cut (w := w) (r := r) (s := x.1) ?_ ?_; (on_goal 2 => (intro hx; clear_value x)); unfold x; clear x)
      | clear_value x)
    | apply keeps_updStage | apply keeps_updDirty | apply keeps_setWord | apply keeps_offStripes
    | apply keeps_dropFlights | apply keeps_writesGone | exact ⟨rfl, rfl⟩
    | refine keeps_dsBytes _ (covers_bit hw rfl) (by first | exact .inr rfl | exact .inl (covers_bit hw rfl))
        (by first | exact .inr rfl | exact .inl (covers_bit hw rfl)) (fun hr => ?_) ?_
    | exact ⟨wf_clearBytes _ _ _ hr.1, wf_clearBytes _ _ _ hr.2⟩ | split | refine keeps_pair (by assumption) ?_)

theorem keeps_mirrorResumes (a : Nat) {s : State}
    (hw : Covers 0x102002D3AB w) (h : Keeps w r s) : Keeps w r (mirrorResumes a s) := by
  unfold mirrorResumes
  with_reducible repeat' (first
    | assumption | exact covers_of hw rfl | apply keeps_raise | apply keeps_set | split
    | refine keeps_pair (by assumption) ?_)

theorem keeps_aptAttach (a : Nat) (c : Nat) {s : State}
    (hw : Covers 0x102246D3AB w) (h : Keeps w r s) : Keeps w r (aptAttach a c s) := by
  unfold aptAttach
  with_reducible repeat' (beta_reduce; first
    | assumption | exact covers_of hw rfl | (intro _)
    | (extract_lets +onlyGivenNames x; first
      | (refine keeps_cut (w := w) (r := r) (s := x) ?_ ?_; (on_goal 2 => (intro hx; clear_value x)); unfold x; clear x)
      | (refine keeps_cut (w := w) (r := r) (s := x.1) ?_ ?_; (on_goal 2 => (intro hx; clear_value x)); unfold x; clear x)
      | clear_value x)
    | apply keeps_updAptOcc | apply keeps_updMirrorStatus | apply keeps_doIf | apply keeps_mirrorResumes
    | apply keeps_dsUpd | apply keeps_set | apply keeps_ctxUpd | apply keeps_enterSolo | exact ⟨rfl, rfl⟩ | split
    | refine keeps_pair (by assumption) ?_)

theorem keeps_aptDetach (a : Nat) {s : State}
    (hw : Covers 0x2040008 w) (h : Keeps w r s) : Keeps w r (aptDetach a s) := by
  unfold aptDetach
  with_reducible repeat' (beta_reduce; first
    | assumption | exact covers_of hw rfl | (intro _) | apply keeps_updMirrorStatus | apply keeps_set
    | apply keeps_ctxUpd | apply keeps_dsUpd | apply keeps_soloNext | exact ⟨rfl, rfl⟩ | split
    | refine keeps_pair (by assumption) ?_)

theorem keeps_medUpd (f : Media → Media) {s : State}
    (hw : Covers 0x8000000 w) (h : Keeps w r s) : Keeps w r (State.medUpd s f) := by
  unfold State.medUpd
  with_reducible repeat' (first
    | assumption | exact covers_of hw rfl | exact ⟨rfl, rfl⟩ | split | refine keeps_pair (by assumption) ?_
    | refine keeps_mk ?_)

theorem keeps_updWear {s : State}
    (hw : Covers 0x102002D3AB w) (h : Keeps w r s) : Keeps w r (updWear s) := by
  unfold updWear
  with_reducible repeat' (first
    | assumption | exact covers_of hw rfl | (intro _)
    | (extract_lets +onlyGivenNames x; first
      | (refine keeps_cut (w := w) (r := r) (s := x) ?_ ?_; (on_goal 2 => (intro hx; clear_value x)); unfold x; clear x)
      | (refine keeps_cut (w := w) (r := r) (s := x.1) ?_ ?_; (on_goal 2 => (intro hx; clear_value x)); unfold x; clear x)
      | clear_value x)
    | apply keeps_doIf | apply keeps_raise | apply keeps_set | split | refine keeps_pair (by assumption) ?_)

theorem keeps_updWa {s : State}
    (hw : Covers 0x8 w) (h : Keeps w r s) : Keeps w r (updWa s) := by
  unfold updWa
  with_reducible repeat' (first
    | assumption | exact covers_of hw rfl | apply keeps_set | split | refine keeps_pair (by assumption) ?_)

theorem keeps_updMedState {s : State}
    (hw : Covers 0x8 w) (h : Keeps w r s) : Keeps w r (updMedState s) := by
  unfold updMedState
  with_reducible repeat' (first
    | assumption | exact covers_of hw rfl | apply keeps_set | split | refine keeps_pair (by assumption) ?_)

theorem keeps_unworn {s : State}
    (hw : Covers 0x8000008 w) (h : Keeps w r s) : Keeps w r (unworn s) := by
  unfold unworn
  with_reducible repeat' (beta_reduce; first
    | assumption | exact covers_of hw rfl | (intro _) | apply keeps_updMedState | apply keeps_medUpd | split
    | refine keeps_pair (by assumption) ?_)

theorem keeps_eraseBlock (b : Nat × Nat) {s : State}
    (hw : Covers 0x8000000 w) (h : Keeps w r s) : Keeps w r (eraseBlock b s) := by
  unfold eraseBlock
  with_reducible repeat' (beta_reduce; first
    | assumption | exact covers_of hw rfl | (intro _) | apply keeps_medUpd | split
    | refine keeps_pair (by assumption) ?_)

theorem keeps_eraseStep {s : State}
    (hw : Covers 0x102802D3AB w) (h : Keeps w r s) : Keeps w r (eraseStep s) := by
  unfold eraseStep
  with_reducible repeat' (beta_reduce; first
    | assumption | exact covers_of hw rfl | (intro _)
    | (extract_lets +onlyGivenNames x; first
      | (refine keeps_cut (w := w) (r := r) (s := x) ?_ ?_; (on_goal 2 => (intro hx; clear_value x)); unfold x; clear x)
      | (refine keeps_cut (w := w) (r := r) (s := x.1) ?_ ?_; (on_goal 2 => (intro hx; clear_value x)); unfold x; clear x)
      | clear_value x)
    | apply keeps_unworn | apply keeps_updWear | apply keeps_doAll | apply keeps_eraseBlock | split
    | refine keeps_pair (by assumption) ?_)

theorem keeps_retire (b : Nat × Nat) {s : State}
    (hw : Covers 0x102802D3AB w) (h : Keeps w r s) : Keeps w r (retire b s) := by
  unfold retire
  with_reducible repeat' (beta_reduce; first
    | assumption | exact covers_of hw rfl | (intro _)
    | (extract_lets +onlyGivenNames x; first
      | (refine keeps_cut (w := w) (r := r) (s := x) ?_ ?_; (on_goal 2 => (intro hx; clear_value x)); unfold x; clear x)
      | (refine keeps_cut (w := w) (r := r) (s := x.1) ?_ ?_; (on_goal 2 => (intro hx; clear_value x)); unfold x; clear x)
      | clear_value x)
    | apply keeps_updWear | apply keeps_doIf | apply keeps_raise | apply keeps_set | apply keeps_inc
    | apply keeps_drewOne | apply keeps_medUpd | split | refine keeps_pair (by assumption) ?_)

theorem keeps_nfRaise (l : Nat) (off : Nat) {s : State}
    (hw : Covers 0x102002D3AB w) (h : Keeps w r s) : Keeps w r (nfRaise l off s) := by
  unfold nfRaise
  with_reducible repeat' (first
    | assumption | exact covers_of hw rfl | apply keeps_raise | split | refine keeps_pair (by assumption) ?_)

theorem keeps_addStripe (closed : Bool) (ms : List (Nat × Nat)) (us : List (Nat × Nat)) {s : State}
    (hw : Covers 0x8000000 w) (h : Keeps w r s) : Keeps w r (addStripe closed ms us s) := by
  unfold addStripe
  with_reducible repeat' (beta_reduce; first
    | assumption | exact covers_of hw rfl | (intro _)
    | (extract_lets +onlyGivenNames x; first
      | (refine keeps_cut (w := w) (r := r) (s := x) ?_ ?_; (on_goal 2 => (intro hx; clear_value x)); unfold x; clear x)
      | (refine keeps_cut (w := w) (r := r) (s := x.1) ?_ ?_; (on_goal 2 => (intro hx; clear_value x)); unfold x; clear x)
      | clear_value x)
    | apply keeps_medUpd | split | refine keeps_pair (by assumption) ?_)

theorem keeps_countFlush (places : Nat) (units : Nat) {s : State}
    (hw : Covers 0x8000008 w) (h : Keeps w r s) : Keeps w r (countFlush places units s) := by
  unfold countFlush
  with_reducible repeat' (beta_reduce; first
    | assumption | exact covers_of hw rfl | (intro _) | apply keeps_updWa | apply keeps_medUpd | split
    | refine keeps_pair (by assumption) ?_)

theorem keeps_execStripeWrite (members : List NandBlock) (units : List (Fin 2048 × BitVec 32)) {s : State}
    (hw : Covers 0x102A02D3AB w) (h : Keeps w r s) : Ends w r (execStripeWrite members units s) := by
  unfold execStripeWrite
  with_reducible repeat' (beta_reduce; first
    | assumption | exact covers_of hw rfl | (intro _)
    | (extract_lets +onlyGivenNames x; first
      | (refine keeps_cut (w := w) (r := r) (s := x) ?_ ?_; (on_goal 2 => (intro hx; clear_value x)); unfold x; clear x)
      | (refine keeps_cut (w := w) (r := r) (s := x.1) ?_ ?_; (on_goal 2 => (intro hx; clear_value x)); unfold x; clear x)
      | clear_value x)
    | apply ends_next | apply keeps_done | apply keeps_updWear | apply keeps_countFlush | apply keeps_dsUpd
    | apply keeps_addStripe | exact ⟨rfl, rfl⟩ | split | refine keeps_pair (by assumption) ?_)

theorem keeps_closeStripe (p : Stripe) {s : State}
    (hw : Covers 0x80A000008 w) (h : Keeps w r s) : Keeps w r (closeStripe p s) := by
  unfold closeStripe
  with_reducible repeat' (beta_reduce; first
    | assumption | exact covers_of hw rfl | (intro _)
    | (extract_lets +onlyGivenNames x; first
      | (refine keeps_cut (w := w) (r := r) (s := x) ?_ ?_; (on_goal 2 => (intro hx; clear_value x)); unfold x; clear x)
      | (refine keeps_cut (w := w) (r := r) (s := x.1) ?_ ?_; (on_goal 2 => (intro hx; clear_value x)); unfold x; clear x)
      | clear_value x)
    | apply keeps_doAll | apply keeps_updDirty | apply keeps_medUpd | apply keeps_offStripes | exact ⟨rfl, rfl⟩
    | refine keeps_dsBytes _ (covers_bit hw rfl) (by first | exact .inr rfl | exact .inl (covers_bit hw rfl))
        (by first | exact .inr rfl | exact .inl (covers_bit hw rfl)) (fun hr => ?_) ?_
    | exact ⟨hr.1, wf_copyAll _ _ _ _ _ hr.2⟩ | split | refine keeps_pair (by assumption) ?_)

theorem keeps_execUnitFlushComplete (a : Fin 2048) (u : BitVec 32) {s : State}
    (hw : Covers 0x80A000008 w) (h : Keeps w r s) : Ends w r (execUnitFlushComplete a u s) := by
  unfold execUnitFlushComplete
  with_reducible repeat' (beta_reduce; first
    | assumption | exact covers_of hw rfl | (intro _) | apply ends_next | apply keeps_done | apply keeps_closeStripe
    | split | refine keeps_pair (by assumption) ?_)

theorem keeps_uncorrectable (b : Nat × Nat) (u : Nat × Nat) {s : State}
    (hw : Covers 0x102202D3AB w) (h : Keeps w r s) : Keeps w r (uncorrectable b u s) := by
  unfold uncorrectable
  with_reducible repeat' (beta_reduce; first
    | assumption | exact covers_of hw rfl | (intro _) | apply keeps_doIf | apply keeps_dsUpd | apply keeps_nfRaise
    | apply keeps_inc | exact ⟨rfl, rfl⟩ | split | refine keeps_pair (by assumption) ?_)

theorem keeps_mediaStep (l : Nat) (n : Nat) {s : State}
    (hw : Covers 0x102002D3AB w) (h : Keeps w r s) : Keeps w r (mediaStep l n s) := by
  unfold mediaStep
  with_reducible repeat' (beta_reduce; first
    | assumption | exact covers_of hw rfl | (intro _) | apply keeps_doIf | apply keeps_nfRaise | apply keeps_inc
    | split | refine keeps_pair (by assumption) ?_)

theorem keeps_execNandRead (b : NandBlock) (a : Fin 2048) (u : BitVec 32) (step : Option (Fin 11)) {s : State}
    (hw : Covers 0x102A02D3AB w) (h : Keeps w r s) : Ends w r (execNandRead b a u step s) := by
  unfold execNandRead
  with_reducible repeat' (beta_reduce; first
    | assumption | exact covers_of hw rfl | (intro _)
    | (extract_lets +onlyGivenNames x; first
      | (refine keeps_cut (w := w) (r := r) (s := x) ?_ ?_; (on_goal 2 => (intro hx; clear_value x)); unfold x; clear x)
      | (refine keeps_cut (w := w) (r := r) (s := x.1) ?_ ?_; (on_goal 2 => (intro hx; clear_value x)); unfold x; clear x)
      | clear_value x)
    | apply ends_next | apply keeps_done | apply keeps_doIf | apply keeps_medUpd | apply keeps_nfRaise
    | apply keeps_uncorrectable | apply keeps_mediaStep | split | refine keeps_pair (by assumption) ?_)

theorem keeps_flightsFail (at_ : Nat × Nat → Bool) {s : State}
    (hw : Covers 0xA000000 w) (h : Keeps w r s) : Keeps w r (flightsFail at_ s) := by
  unfold flightsFail
  with_reducible repeat' (beta_reduce; first
    | assumption | exact covers_of hw rfl | (intro _)
    | (extract_lets +onlyGivenNames x; first
      | (refine keeps_cut (w := w) (r := r) (s := x) ?_ ?_; (on_goal 2 => (intro hx; clear_value x)); unfold x; clear x)
      | (refine keeps_cut (w := w) (r := r) (s := x.1) ?_ ?_; (on_goal 2 => (intro hx; clear_value x)); unfold x; clear x)
      | clear_value x)
    | apply keeps_dropFlights | split | refine keeps_pair (by assumption) ?_)

theorem keeps_execNandProgramFail (b : NandBlock) {s : State}
    (hw : Covers 0x102A02D3AB w) (h : Keeps w r s) : Ends w r (execNandProgramFail b s) := by
  unfold execNandProgramFail
  with_reducible repeat' (beta_reduce; first
    | assumption | exact covers_of hw rfl | (intro _)
    | (extract_lets +onlyGivenNames x; first
      | (refine keeps_cut (w := w) (r := r) (s := x) ?_ ?_; (on_goal 2 => (intro hx; clear_value x)); unfold x; clear x)
      | (refine keeps_cut (w := w) (r := r) (s := x.1) ?_ ?_; (on_goal 2 => (intro hx; clear_value x)); unfold x; clear x)
      | clear_value x)
    | apply ends_next | apply keeps_done | apply keeps_doIf | apply keeps_medUpd | apply keeps_flightsFail
    | apply keeps_retire | apply keeps_nfRaise | apply keeps_inc | split | refine keeps_pair (by assumption) ?_)

theorem keeps_execNandEraseFail (b : NandBlock) {s : State}
    (hw : Covers 0x102802D3AB w) (h : Keeps w r s) : Ends w r (execNandEraseFail b s) := by
  unfold execNandEraseFail
  with_reducible repeat' (first
    | assumption | exact covers_of hw rfl
    | (extract_lets +onlyGivenNames x; first
      | (refine keeps_cut (w := w) (r := r) (s := x) ?_ ?_; (on_goal 2 => (intro hx; clear_value x)); unfold x; clear x)
      | (refine keeps_cut (w := w) (r := r) (s := x.1) ?_ ?_; (on_goal 2 => (intro hx; clear_value x)); unfold x; clear x)
      | clear_value x)
    | apply ends_next | apply keeps_done | apply keeps_retire | apply keeps_nfRaise | apply keeps_inc | split
    | refine keeps_pair (by assumption) ?_)

theorem keeps_openStripes (ok : State → List (Nat × Nat) → Bool) (ds : List (List (Nat × Nat))) (us : List (Nat × Nat)) {s : State}
    (hw : Covers 0x8000000 w) (h : Keeps w r s) : Keeps w r (openStripes ok ds us s).1 := by
  induction ds generalizing us s with
  | nil => exact h
  | cons ms rest ih =>
    unfold openStripes
    with_reducible repeat' (first
      | assumption | exact covers_of hw rfl | apply ih | apply keeps_medUpd | apply keeps_addStripe | split)

theorem keeps_relocateUnits (ok : State → List (Nat × Nat) → Bool) (dests : List (List (Nat × Nat))) (us : List (Nat × Nat)) {s : State}
    (hw : Covers 0x102802D3AB w) (h : Keeps w r s) : Keeps w r (relocateUnits ok dests us s).1 := by
  unfold relocateUnits
  with_reducible repeat' (beta_reduce; first
    | assumption | exact covers_of hw rfl | (intro _) | apply keeps_openStripes | apply keeps_offStripes
    | apply keeps_updWear | split | refine keeps_pair (by assumption) ?_)

theorem keeps_moveBlock (ok : State → List (Nat × Nat) → Bool) (v : Nat × Nat) (dests : List (List (Nat × Nat))) {s : State}
    (hw : Covers 0x102802D3AB w) (h : Keeps w r s) : Keeps w r (moveBlock ok v dests s).1 := by
  unfold moveBlock
  with_reducible repeat' (beta_reduce; first
    | assumption | exact covers_of hw rfl | (intro _) | apply keeps_relocateUnits | apply keeps_updWa
    | apply keeps_medUpd | split | refine keeps_pair (by assumption) ?_)

theorem keeps_loseUnits (us : List (Nat × Nat)) {s : State}
    (hw : Covers 0x102A02F3AB w) (h : Keeps w r s) : Keeps w r (loseUnits us s) := by
  unfold loseUnits
  with_reducible repeat' (beta_reduce; first
    | assumption | exact covers_of hw rfl | (intro _) | apply keeps_raise | apply keeps_doAll | apply keeps_updAptOcc
    | apply keeps_logEv | apply keeps_dsUpd | apply keeps_offStripes | exact ⟨rfl, rfl⟩ | split
    | refine keeps_pair (by assumption) ?_)

theorem keeps_rebuildStarts (l : Nat) {s : State}
    (hw : Covers 0x102802D3AB w) (h : Keeps w r s) : Keeps w r (rebuildStarts l s) := by
  unfold rebuildStarts
  with_reducible repeat' (beta_reduce; first
    | assumption | exact covers_of hw rfl | (intro _)
    | (extract_lets +onlyGivenNames x; first
      | (refine keeps_cut (w := w) (r := r) (s := x) ?_ ?_; (on_goal 2 => (intro hx; clear_value x)); unfold x; clear x)
      | (refine keeps_cut (w := w) (r := r) (s := x.1) ?_ ?_; (on_goal 2 => (intro hx; clear_value x)); unfold x; clear x)
      | clear_value x)
    | apply keeps_updMedState | apply keeps_doIf | apply keeps_raise | apply keeps_set | apply keeps_medUpd | split
    | refine keeps_pair (by assumption) ?_)

theorem keeps_lunLost (l : Nat) (cause : Nat) {s : State}
    (hw : Covers 0x102A02F3AB w) (h : Keeps w r s) : Keeps w r (lunLost l cause s) := by
  unfold lunLost
  with_reducible repeat' (beta_reduce; first
    | assumption | exact covers_of hw rfl | (intro _)
    | (extract_lets +onlyGivenNames x; first
      | (refine keeps_cut (w := w) (r := r) (s := x) ?_ ?_; (on_goal 2 => (intro hx; clear_value x)); unfold x; clear x)
      | (refine keeps_cut (w := w) (r := r) (s := x.1) ?_ ?_; (on_goal 2 => (intro hx; clear_value x)); unfold x; clear x)
      | clear_value x)
    | apply keeps_rebuildStarts | apply keeps_reportDegraded | apply keeps_doIf | apply keeps_loseUnits
    | apply keeps_updWear | apply keeps_flightsFail | apply keeps_updFlushRate | apply keeps_logEv | apply keeps_raise
    | apply keeps_nfRaise | apply keeps_inc | apply keeps_dec | apply keeps_setWord | apply keeps_reportCie | split
    | refine keeps_pair (by assumption) ?_)

theorem keeps_execLunLost (lun : Fin 64) (cause : Fin 5) {s : State}
    (hw : Covers 0x102A02F3AB w) (h : Keeps w r s) : Ends w r (execLunLost lun cause s) := by
  unfold execLunLost
  with_reducible repeat' (first
    | assumption | exact covers_of hw rfl | apply ends_next | apply keeps_done | apply keeps_lunLost | split
    | refine keeps_pair (by assumption) ?_)

theorem keeps_rebuildInto (dests : List (List (Nat × Nat))) {s : State}
    (hw : Covers 0x102802D3AB w) (h : Keeps w r s) : Keeps w r (rebuildInto dests s).1 := by
  unfold rebuildInto
  with_reducible repeat' (beta_reduce; first
    | assumption | exact covers_of hw rfl | (intro _) | apply keeps_relocateUnits | split
    | refine keeps_pair (by assumption) ?_)

theorem keeps_execRebuildComplete (dest : List (List NandBlock)) {s : State}
    (hw : Covers 0x102802F3AB w) (h : Keeps w r s) : Ends w r (execRebuildComplete dest s) := by
  unfold execRebuildComplete
  with_reducible repeat' (beta_reduce; first
    | assumption | exact covers_of hw rfl | (intro _)
    | (extract_lets +onlyGivenNames x; first
      | (refine keeps_cut (w := w) (r := r) (s := x) ?_ ?_; (on_goal 2 => (intro hx; clear_value x)); unfold x; clear x)
      | (refine keeps_cut (w := w) (r := r) (s := x.1) ?_ ?_; (on_goal 2 => (intro hx; clear_value x)); unfold x; clear x)
      | clear_value x)
    | apply ends_next | apply keeps_done | apply keeps_rebuildInto | apply keeps_raise | apply keeps_updMedState
    | apply keeps_logEv | apply keeps_set | apply keeps_medUpd | split | refine keeps_pair (by assumption) ?_)

theorem keeps_execPatrolPass (read : List (NandBlock × Fin 11)) {s : State}
    (hw : Covers 0x102802D3AB w) (h : Keeps w r s) : Ends w r (execPatrolPass read s) := by
  unfold execPatrolPass
  with_reducible repeat' (beta_reduce; first
    | assumption | exact covers_of hw rfl | (intro _)
    | (extract_lets +onlyGivenNames x; first
      | (refine keeps_cut (w := w) (r := r) (s := x) ?_ ?_; (on_goal 2 => (intro hx; clear_value x)); unfold x; clear x)
      | (refine keeps_cut (w := w) (r := r) (s := x.1) ?_ ?_; (on_goal 2 => (intro hx; clear_value x)); unfold x; clear x)
      | clear_value x)
    | apply ends_next | apply keeps_done | apply keeps_raise | apply keeps_inc | apply keeps_medUpd
    | apply keeps_doAll | apply keeps_mediaStep | split | refine keeps_pair (by assumption) ?_)

theorem keeps_execBlockRefresh (victim : NandBlock) (dest : List (List NandBlock)) (after : Fin 11) {s : State}
    (hw : Covers 0x102802D3AB w) (h : Keeps w r s) : Ends w r (execBlockRefresh victim dest after s) := by
  unfold execBlockRefresh
  with_reducible repeat' (beta_reduce; first
    | assumption | exact covers_of hw rfl | (intro _)
    | (extract_lets +onlyGivenNames x; first
      | (refine keeps_cut (w := w) (r := r) (s := x) ?_ ?_; (on_goal 2 => (intro hx; clear_value x)); unfold x; clear x)
      | (refine keeps_cut (w := w) (r := r) (s := x.1) ?_ ?_; (on_goal 2 => (intro hx; clear_value x)); unfold x; clear x)
      | clear_value x)
    | apply ends_next | apply keeps_done | apply keeps_moveBlock | apply keeps_doIf | apply keeps_retire
    | apply keeps_mediaStep | apply keeps_inc | split | refine keeps_pair (by assumption) ?_)

theorem keeps_execGarbageCollection (victim : NandBlock) (dest : List (List NandBlock)) {s : State}
    (hw : Covers 0x102802D3AB w) (h : Keeps w r s) : Ends w r (execGarbageCollection victim dest s) := by
  unfold execGarbageCollection
  with_reducible repeat' (beta_reduce; first
    | assumption | exact covers_of hw rfl | (intro _)
    | (extract_lets +onlyGivenNames x; first
      | (refine keeps_cut (w := w) (r := r) (s := x) ?_ ?_; (on_goal 2 => (intro hx; clear_value x)); unfold x; clear x)
      | (refine keeps_cut (w := w) (r := r) (s := x.1) ?_ ?_; (on_goal 2 => (intro hx; clear_value x)); unfold x; clear x)
      | clear_value x)
    | apply ends_next | apply keeps_done | apply keeps_moveBlock | split | refine keeps_pair (by assumption) ?_)

theorem keeps_execWearLevelling (victim : NandBlock) (dest : List (List NandBlock)) {s : State}
    (hw : Covers 0x102802D3AB w) (h : Keeps w r s) : Ends w r (execWearLevelling victim dest s) := by
  unfold execWearLevelling
  with_reducible repeat' (first
    | assumption | exact covers_of hw rfl
    | (extract_lets +onlyGivenNames x; first
      | (refine keeps_cut (w := w) (r := r) (s := x) ?_ ?_; (on_goal 2 => (intro hx; clear_value x)); unfold x; clear x)
      | (refine keeps_cut (w := w) (r := r) (s := x.1) ?_ ?_; (on_goal 2 => (intro hx; clear_value x)); unfold x; clear x)
      | clear_value x)
    | apply ends_next | apply keeps_done | apply keeps_moveBlock | split | refine keeps_pair (by assumption) ?_)

theorem keeps_execMediaWorn {s : State}
    (hw : Covers 0x102802D3AB w) (h : Keeps w r s) : Ends w r (execMediaWorn s) := by
  unfold execMediaWorn
  with_reducible repeat' (beta_reduce; first
    | assumption | exact covers_of hw rfl | (intro _) | apply ends_next | apply keeps_done | apply keeps_raise
    | apply keeps_updMedState | apply keeps_medUpd | split | refine keeps_pair (by assumption) ?_)

theorem keeps_eccLog (unc : Bool) (ch : Nat) (rank : Nat) (dev : Nat) (line : Nat) {s : State}
    (hw : Covers 0x8 w) (h : Keeps w r s) : Keeps w r (eccLog unc ch rank dev line s) := by
  unfold eccLog
  with_reducible repeat' (first
    | assumption | exact covers_of hw rfl | apply keeps_set | split | refine keeps_pair (by assumption) ?_)

theorem keeps_markDevice (ch : Nat) (rank : Nat) (dev : Nat) {s : State}
    (hw : Covers 0x102202F3AB w) (h : Keeps w r s) : Keeps w r (markDevice ch rank dev s) := by
  unfold markDevice
  with_reducible repeat' (beta_reduce; first
    | assumption | exact covers_of hw rfl | (intro _)
    | (extract_lets +onlyGivenNames x; first
      | (refine keeps_cut (w := w) (r := r) (s := x) ?_ ?_; (on_goal 2 => (intro hx; clear_value x)); unfold x; clear x)
      | (refine keeps_cut (w := w) (r := r) (s := x.1) ?_ ?_; (on_goal 2 => (intro hx; clear_value x)); unfold x; clear x)
      | clear_value x)
    | apply keeps_faultStop | apply keeps_reportCie | apply keeps_logEv | apply keeps_raise | apply keeps_set
    | apply keeps_dsUpd | exact ⟨rfl, rfl⟩ | split | refine keeps_pair (by assumption) ?_)

theorem keeps_execDramCorrectedError (ch : Fin 2) (rank : Fin 2) (dev : Fin 10) (line : BitVec 30) {s : State}
    (hw : Covers 0x102202F3AB w) (h : Keeps w r s) : Ends w r (execDramCorrectedError ch rank dev line s) := by
  unfold execDramCorrectedError
  with_reducible repeat' (beta_reduce; first
    | assumption | exact covers_of hw rfl | (intro _)
    | (extract_lets +onlyGivenNames x; first
      | (refine keeps_cut (w := w) (r := r) (s := x) ?_ ?_; (on_goal 2 => (intro hx; clear_value x)); unfold x; clear x)
      | (refine keeps_cut (w := w) (r := r) (s := x.1) ?_ ?_; (on_goal 2 => (intro hx; clear_value x)); unfold x; clear x)
      | clear_value x)
    | apply ends_next | apply keeps_done | apply keeps_markDevice | apply keeps_dsUpd | apply keeps_raise
    | apply keeps_eccLog | apply keeps_inc | exact ⟨rfl, rfl⟩ | split | refine keeps_pair (by assumption) ?_)

theorem keeps_fwRepair {s : State}
    (hw : Covers 0x102002D3AB w) (h : Keeps w r s) : Keeps w r (fwRepair s) := by
  unfold fwRepair
  with_reducible repeat' (first
    | assumption | exact covers_of hw rfl | apply keeps_reportCie | apply keeps_inc | split
    | refine keeps_pair (by assumption) ?_)

theorem keeps_dramHit (h0 : DramHit) {s : State}
    (hw : Covers 0x102A02F3AB w) (h : Keeps w r s) : Keeps w r (dramHit h0 s) := by
  unfold dramHit
  with_reducible repeat' (beta_reduce; first
    | assumption | exact covers_of hw rfl | (intro _)
    | (extract_lets +onlyGivenNames x; first
      | (refine keeps_cut (w := w) (r := r) (s := x) ?_ ?_; (on_goal 2 => (intro hx; clear_value x)); unfold x; clear x)
      | (refine keeps_cut (w := w) (r := r) (s := x.1) ?_ ?_; (on_goal 2 => (intro hx; clear_value x)); unfold x; clear x)
      | clear_value x)
    | apply keeps_updDirty | apply keeps_dsUpd | apply keeps_reportUie | apply keeps_loseUnits | apply keeps_faultStop
    | apply keeps_fwRepair | apply keeps_updAptOcc | apply keeps_doIf | apply keeps_updMirrorStatus | apply keeps_set
    | exact ⟨rfl, rfl⟩ | split | refine keeps_pair (by assumption) ?_)

theorem keeps_dramUncorrectable (ch : Nat) (rank : Nat) (line : Nat) (hit : DramHit) {s : State}
    (hw : Covers 0x102A02F3AB w) (h : Keeps w r s) : Keeps w r (dramUncorrectable ch rank line hit s) := by
  unfold dramUncorrectable
  with_reducible repeat' (first
    | assumption | exact covers_of hw rfl | apply keeps_dramHit | apply keeps_logEv | apply keeps_raise
    | apply keeps_eccLog | apply keeps_inc | split | refine keeps_pair (by assumption) ?_)

theorem keeps_execDramUncorrectableError (ch : Fin 2) (rank : Fin 2) (line : BitVec 30) (hit : DramHit) {s : State}
    (hw : Covers 0x102A02F3AB w) (h : Keeps w r s) : Ends w r (execDramUncorrectableError ch rank line hit s) := by
  unfold execDramUncorrectableError
  with_reducible repeat' (first
    | assumption | exact covers_of hw rfl | apply ends_next | apply keeps_done | apply keeps_dramUncorrectable | split
    | refine keeps_pair (by assumption) ?_)

theorem keeps_execDramScrubPass {s : State}
    (hw : Covers 0x102002D3AB w) (h : Keeps w r s) : Ends w r (execDramScrubPass s) := by
  unfold execDramScrubPass
  with_reducible repeat' (first
    | assumption | exact covers_of hw rfl | apply ends_next | apply keeps_done | apply keeps_raise | apply keeps_inc
    | split | refine keeps_pair (by assumption) ?_)

theorem keeps_execDramAlert (ch : Fin 2) {s : State}
    (hw : Covers 0x102002D3AB w) (h : Keeps w r s) : Ends w r (execDramAlert ch s) := by
  unfold execDramAlert
  with_reducible repeat' (first
    | assumption | exact covers_of hw rfl | apply ends_next | apply keeps_done | apply keeps_raise | apply keeps_inc
    | split | refine keeps_pair (by assumption) ?_)

theorem keeps_hostDenied (k : DKey) (dst : Bool) {s : State}
    (hw : Covers 0x10204AD3AB w) (h : Keeps w r s) : Keeps w r (hostDenied k dst s) := by
  unfold hostDenied
  with_reducible repeat' (beta_reduce; first
    | assumption | exact covers_of hw rfl | (intro _) | apply keeps_descFail | apply keeps_refuseDesc | split
    | refine keeps_pair (by assumption) ?_)

theorem keeps_checkSide (k : DKey) (dst : Bool) {s : State}
    (hw : Covers 0x10204AD3AB w) (h : Keeps w r s) : Keeps w r (checkSide k dst s) := by
  unfold checkSide
  with_reducible repeat' (beta_reduce; first
    | assumption | exact covers_of hw rfl | (intro _) | apply keeps_findPages | apply keeps_hostDenied
    | apply keeps_descUpd | split | refine keeps_pair (by assumption) ?_)

theorem keeps_checkPages (k : DKey) {s : State}
    (hw : Covers 0x10204AD3AB w) (h : Keeps w r s) : Keeps w r (checkPages k s) := by
  unfold checkPages
  with_reducible repeat' (first
    | assumption | exact covers_of hw rfl | apply keeps_checkSide | split | refine keeps_pair (by assumption) ?_)

theorem keeps_onDesc (c : Nat) (q : Nat) (slot : Nat) (op : Nat) (f : DKey → State → State) {s : State}
    (hf : ∀ (x0 : DKey) (s : State), Keeps w r s → Keeps w r (f x0 s)) (hw : Covers 0x10204AD3AB w) (h : Keeps w r s) : Ends w r (onDesc c q slot op f s) := by
  unfold onDesc
  with_reducible repeat' (beta_reduce; first
    | assumption | exact covers_of hw rfl | (intro _)
    | (extract_lets +onlyGivenNames x; first
      | (refine keeps_cut (w := w) (r := r) (s := x) ?_ ?_; (on_goal 2 => (intro hx; clear_value x)); unfold x; clear x)
      | (refine keeps_cut (w := w) (r := r) (s := x.1) ?_ ?_; (on_goal 2 => (intro hx; clear_value x)); unfold x; clear x)
      | clear_value x)
    | apply ends_next | apply hf | apply keeps_done | apply keeps_checkPages | split
    | refine keeps_pair (by assumption) ?_)

theorem keeps_asked (k : DKey) (n : Nat) {s : State}
    (hw : Covers 0x80000 w) (h : Keeps w r s) : Keeps w r (asked k n s) := by
  unfold asked
  with_reducible repeat' (beta_reduce; first
    | assumption | exact covers_of hw rfl | (intro _) | apply keeps_descUpd | split
    | refine keeps_pair (by assumption) ?_)

theorem keeps_gotNow (k : DKey) (off : Nat) (data : List Byte) {s : State}
    (hw : Covers 0x80000 w) (h : Keeps w r s) : Keeps w r (gotNow k off data s) := by
  unfold gotNow
  with_reducible repeat' (beta_reduce; first
    | assumption | exact covers_of hw rfl | (intro _) | apply keeps_descUpd | split
    | refine keeps_pair (by assumption) ?_)

theorem keeps_readHost (k : DKey) (kept : Pages) (addr : Nat) (off : Nat) (len : Nat) {s : State}
    (hw : Covers 0x10200AD3AB w) (h : Keeps w r s) : Keeps w r (readHost k kept addr off len s) := by
  unfold readHost
  with_reducible repeat' (first
    | assumption | exact covers_of hw rfl
    | (extract_lets +onlyGivenNames x; first
      | (refine keeps_cut (w := w) (r := r) (s := x) ?_ ?_; (on_goal 2 => (intro hx; clear_value x)); unfold x; clear x)
      | (refine keeps_cut (w := w) (r := r) (s := x.1) ?_ ?_; (on_goal 2 => (intro hx; clear_value x)); unfold x; clear x)
      | clear_value x)
    | apply keeps_tagWaits | apply keeps_asked | apply keeps_hostReadOut | apply keeps_atsUse | split
    | refine keeps_pair (by assumption) ?_)

theorem keeps_readLocal (k : DKey) (w0 : WinMap) (win : Nat) (cls : Nat) (at_ : Nat) (off : Nat) (len : Nat) (total : Nat) {s : State}
    (hw : Covers 0x480000 w) (h : Keeps w r s) : Keeps w r (readLocal k w0 win cls at_ off len total s) := by
  unfold readLocal
  with_reducible repeat' (first
    | assumption | exact covers_of hw rfl
    | (extract_lets +onlyGivenNames x; first
      | (refine keeps_cut (w := w) (r := r) (s := x) ?_ ?_; (on_goal 2 => (intro hx; clear_value x)); unfold x; clear x)
      | (refine keeps_cut (w := w) (r := r) (s := x.1) ?_ ?_; (on_goal 2 => (intro hx; clear_value x)); unfold x; clear x)
      | clear_value x)
    | apply keeps_addItem | apply keeps_asked | apply keeps_descFail | split | refine keeps_pair (by assumption) ?_)

theorem keeps_readDurable (k : DKey) (a : Nat) (at_ : Nat) (off : Nat) (len : Nat) {s : State}
    (hw : Covers 0x48000A w) (h : Keeps w r s) : Keeps w r (readDurable k a at_ off len s) := by
  unfold readDurable
  with_reducible repeat' (beta_reduce; first
    | assumption | exact covers_of hw rfl | (intro _)
    | (extract_lets +onlyGivenNames x; first
      | (refine keeps_cut (w := w) (r := r) (s := x) ?_ ?_; (on_goal 2 => (intro hx; clear_value x)); unfold x; clear x)
      | (refine keeps_cut (w := w) (r := r) (s := x.1) ?_ ?_; (on_goal 2 => (intro hx; clear_value x)); unfold x; clear x)
      | clear_value x)
    | apply keeps_descFail | apply keeps_gotNow | apply keeps_lookupAll | split | refine keeps_pair (by assumption) ?_)

theorem keeps_askPeer (k : DKey) (dst : Bool) (g : Nat) (cls : Nat) (bytes : Nat) (off : Nat) (len : Nat) (m : UMsg) (f : State → State) {s : State}
    (hf : ∀ (s : State), Keeps w r s → Keeps w r (f s)) (hw : Covers 0x480000 w) (h : Keeps w r s) : Keeps w r (askPeer k dst g cls bytes off len m f s) := by
  unfold askPeer
  with_reducible repeat' (beta_reduce; first
    | assumption | exact covers_of hw rfl | (intro _) | apply hf | apply keeps_descFail | apply keeps_addItem | split
    | refine keeps_pair (by assumption) ?_)

theorem keeps_readPeer (k : DKey) (r0 : Raw) (off : Nat) (len : Nat) {s : State}
    (hw : Covers 0x480000 w) (h : Keeps w r s) : Keeps w r (readPeer k r0 off len s) := by
  unfold readPeer
  with_reducible repeat' (first
    | assumption | exact covers_of hw rfl | (intro _)
    | (extract_lets +onlyGivenNames x; first
      | (refine keeps_cut (w := w) (r := r) (s := x) ?_ ?_; (on_goal 2 => (intro hx; clear_value x)); unfold x; clear x)
      | (refine keeps_cut (w := w) (r := r) (s := x.1) ?_ ?_; (on_goal 2 => (intro hx; clear_value x)); unfold x; clear x)
      | clear_value x)
    | apply keeps_askPeer | apply keeps_asked | split | refine keeps_pair (by assumption) ?_)

theorem keeps_readStep (k : DKey) {s : State}
    (hw : Covers 0x10204AD3AB w) (h : Keeps w r s) : Keeps w r (readStep k s) := by
  unfold readStep
  with_reducible repeat' (beta_reduce; first
    | assumption | exact covers_of hw rfl | (intro _)
    | (extract_lets +onlyGivenNames x; first
      | (refine keeps_cut (w := w) (r := r) (s := x) ?_ ?_; (on_goal 2 => (intro hx; clear_value x)); unfold x; clear x)
      | (refine keeps_cut (w := w) (r := r) (s := x.1) ?_ ?_; (on_goal 2 => (intro hx; clear_value x)); unfold x; clear x)
      | clear_value x)
    | apply keeps_readHost | apply keeps_readLocal | apply keeps_readDurable | apply keeps_readPeer
    | apply keeps_gotNow | split | refine keeps_pair (by assumption) ?_)

theorem keeps_handed (k : DKey) (n : Nat) {s : State}
    (hw : Covers 0x80000 w) (h : Keeps w r s) : Keeps w r (handed k n s) := by
  unfold handed
  with_reducible repeat' (beta_reduce; first
    | assumption | exact covers_of hw rfl | (intro _) | apply keeps_descUpd | split
    | refine keeps_pair (by assumption) ?_)

theorem keeps_writeLocal (k : DKey) (w0 : WinMap) (win : Nat) (cls : Nat) (at_ : Nat) (off : Nat) (data : List Byte) {s : State}
    (hw : Covers 0x480000 w) (h : Keeps w r s) : Keeps w r (writeLocal k w0 win cls at_ off data s) := by
  unfold writeLocal
  with_reducible repeat' (first
    | assumption | exact covers_of hw rfl
    | (extract_lets +onlyGivenNames x; first
      | (refine keeps_cut (w := w) (r := r) (s := x) ?_ ?_; (on_goal 2 => (intro hx; clear_value x)); unfold x; clear x)
      | (refine keeps_cut (w := w) (r := r) (s := x.1) ?_ ?_; (on_goal 2 => (intro hx; clear_value x)); unfold x; clear x)
      | clear_value x)
    | apply keeps_addItem | apply keeps_handed | apply keeps_descFail | split | refine keeps_pair (by assumption) ?_)

theorem keeps_writePeer (k : DKey) (r0 : Raw) (off : Nat) (data : List Byte) {s : State}
    (hw : Covers 0x480000 w) (h : Keeps w r s) : Keeps w r (writePeer k r0 off data s) := by
  unfold writePeer
  with_reducible repeat' (first
    | assumption | exact covers_of hw rfl | (intro _) | apply keeps_askPeer | apply keeps_handed | split
    | refine keeps_pair (by assumption) ?_)

theorem keeps_skipDone (k : DKey) (n : Nat) {s : State}
    (hw : Covers 0x80000 w) (h : Keeps w r s) : Keeps w r (skipDone k n s) := by
  unfold skipDone
  with_reducible repeat' (beta_reduce; first
    | assumption | exact covers_of hw rfl | (intro _) | apply keeps_descUpd | split
    | refine keeps_pair (by assumption) ?_)

theorem keeps_writeStep (k : DKey) {s : State}
    (hw : Covers 0x480000 w) (h : Keeps w r s) : Keeps w r (writeStep k s) := by
  unfold writeStep
  with_reducible repeat' (beta_reduce; first
    | assumption | exact covers_of hw rfl | (intro _)
    | (extract_lets +onlyGivenNames x; first
      | (refine keeps_cut (w := w) (r := r) (s := x) ?_ ?_; (on_goal 2 => (intro hx; clear_value x)); unfold x; clear x)
      | (refine keeps_cut (w := w) (r := r) (s := x.1) ?_ ?_; (on_goal 2 => (intro hx; clear_value x)); unfold x; clear x)
      | clear_value x)
    | apply keeps_addItem | apply keeps_handed | apply keeps_writeLocal | apply keeps_skipDone | apply keeps_writePeer
    | split | refine keeps_pair (by assumption) ?_)

theorem keeps_moveData (reads : Bool) (k : DKey) {s : State}
    (hw : Covers 0x10204AD3AB w) (h : Keeps w r s) : Keeps w r (moveData reads k s) := by
  unfold moveData
  with_reducible repeat' (beta_reduce; first
    | assumption | exact covers_of hw rfl | (intro _) | apply keeps_doAll | apply keeps_writeStep | apply keeps_doIf
    | apply keeps_readStep | split | refine keeps_pair (by assumption) ?_)

theorem keeps_endDesc (k : DKey) (detail : Nat) {s : State}
    (hw : Covers 0x80000 w) (h : Keeps w r s) : Keeps w r (endDesc k detail s) := by
  unfold endDesc
  with_reducible repeat' (beta_reduce; first
    | assumption | exact covers_of hw rfl | (intro _) | apply keeps_descUpd | split
    | refine keeps_pair (by assumption) ?_)

theorem keeps_execNop (c : Fin 1024) (q : Fin 64) (slot : Fin 65536) {s : State}
    (hw : Covers 0x10204AD3AB w) (h : Keeps w r s) : Ends w r (execNop c q slot s) := by
  unfold execNop
  with_reducible repeat' (beta_reduce; first
    | assumption | exact covers_of hw rfl | (intro _) | apply ends_next | apply keeps_onDesc | apply keeps_endDesc
    | split | refine keeps_pair (by assumption) ?_)

theorem keeps_execCopy (c : Fin 1024) (q : Fin 64) (slot : Fin 65536) {s : State}
    (hw : Covers 0x10204AD3AB w) (h : Keeps w r s) : Ends w r (execCopy c q slot s) := by
  unfold execCopy
  with_reducible repeat' (beta_reduce; first
    | assumption | exact covers_of hw rfl | (intro _) | apply ends_next | apply keeps_onDesc | apply keeps_moveData
    | split | refine keeps_pair (by assumption) ?_)

theorem keeps_execFill (c : Fin 1024) (q : Fin 64) (slot : Fin 65536) {s : State}
    (hw : Covers 0x10204AD3AB w) (h : Keeps w r s) : Ends w r (execFill c q slot s) := by
  unfold execFill
  with_reducible repeat' (beta_reduce; first
    | assumption | exact covers_of hw rfl | (intro _) | apply ends_next | apply keeps_onDesc | apply keeps_moveData
    | split | refine keeps_pair (by assumption) ?_)

theorem keeps_execFence (c : Fin 1024) (q : Fin 64) (slot : Fin 65536) {s : State}
    (hw : Covers 0x10204AD3AB w) (h : Keeps w r s) : Ends w r (execFence c q slot s) := by
  unfold execFence
  with_reducible repeat' (beta_reduce; first
    | assumption | exact covers_of hw rfl | (intro _) | apply ends_next | apply keeps_onDesc | apply keeps_endDesc
    | split | refine keeps_pair (by assumption) ?_)

theorem keeps_execPersist (c : Fin 1024) (q : Fin 64) (slot : Fin 65536) {s : State}
    (hw : Covers 0x10204AD3AB w) (h : Keeps w r s) : Ends w r (execPersist c q slot s) := by
  unfold execPersist
  with_reducible repeat' (beta_reduce; first
    | assumption | exact covers_of hw rfl | (intro _)
    | (extract_lets +onlyGivenNames x; first
      | (refine keeps_cut (w := w) (r := r) (s := x) ?_ ?_; (on_goal 2 => (intro hx; clear_value x)); unfold x; clear x)
      | (refine keeps_cut (w := w) (r := r) (s := x.1) ?_ ?_; (on_goal 2 => (intro hx; clear_value x)); unfold x; clear x)
      | clear_value x)
    | apply ends_next | apply keeps_onDesc | apply keeps_descUpd | apply keeps_endDesc | split
    | refine keeps_pair (by assumption) ?_)

theorem keeps_sendAtomic (k : DKey) (d : Desc) (r0 : Raw) {s : State}
    (hw : Covers 0x480000 w) (h : Keeps w r s) : Keeps w r (sendAtomic k d r0 s) := by
  unfold sendAtomic
  with_reducible repeat' (first
    | assumption | exact covers_of hw rfl | (intro _)
    | (extract_lets +onlyGivenNames x; first
      | (refine keeps_cut (w := w) (r := r) (s := x) ?_ ?_; (on_goal 2 => (intro hx; clear_value x)); unfold x; clear x)
      | (refine keeps_cut (w := w) (r := r) (s := x.1) ?_ ?_; (on_goal 2 => (intro hx; clear_value x)); unfold x; clear x)
      | clear_value x)
    | apply keeps_addItem | apply keeps_handed | apply keeps_descFail | apply keeps_askPeer | split
    | refine keeps_pair (by assumption) ?_)

theorem keeps_execAtomic (c : Fin 1024) (q : Fin 64) (slot : Fin 65536) {s : State}
    (hw : Covers 0x10204AD3AB w) (h : Keeps w r s) : Ends w r (execAtomic c q slot s) := by
  unfold execAtomic
  with_reducible repeat' (beta_reduce; first
    | assumption | exact covers_of hw rfl | (intro _) | apply ends_next | apply keeps_onDesc | apply keeps_sendAtomic
    | apply keeps_addItem | apply keeps_descUpd | split | refine keeps_pair (by assumption) ?_)

theorem keeps_sendMessage (k : DKey) (d : Desc) (r0 : Raw) (data : List Byte) {s : State}
    (hw : Covers 0x480000 w) (h : Keeps w r s) : Keeps w r (sendMessage k d r0 data s) := by
  unfold sendMessage
  with_reducible repeat' (beta_reduce; first
    | assumption | exact covers_of hw rfl | (intro _)
    | (extract_lets +onlyGivenNames x; first
      | (refine keeps_cut (w := w) (r := r) (s := x) ?_ ?_; (on_goal 2 => (intro hx; clear_value x)); unfold x; clear x)
      | (refine keeps_cut (w := w) (r := r) (s := x.1) ?_ ?_; (on_goal 2 => (intro hx; clear_value x)); unfold x; clear x)
      | clear_value x)
    | apply keeps_addItem | apply keeps_descUpd | apply keeps_descFail | apply keeps_askPeer | split
    | refine keeps_pair (by assumption) ?_)

theorem keeps_execSend (c : Fin 1024) (q : Fin 64) (slot : Fin 65536) {s : State}
    (hw : Covers 0x10204AD3AB w) (h : Keeps w r s) : Ends w r (execSend c q slot s) := by
  unfold execSend
  with_reducible repeat' (beta_reduce; first
    | assumption | exact covers_of hw rfl | (intro _)
    | (extract_lets +onlyGivenNames x; first
      | (refine keeps_cut (w := w) (r := r) (s := x) ?_ ?_; (on_goal 2 => (intro hx; clear_value x)); unfold x; clear x)
      | (refine keeps_cut (w := w) (r := r) (s := x.1) ?_ ?_; (on_goal 2 => (intro hx; clear_value x)); unfold x; clear x)
      | clear_value x)
    | apply ends_next | apply keeps_onDesc | apply keeps_sendMessage | apply keeps_readStep | split
    | refine keeps_pair (by assumption) ?_)

theorem keeps_frameStep (k : DKey) {s : State}
    (hw : Covers 0x480000 w) (h : Keeps w r s) : Keeps w r (frameStep k s) := by
  unfold frameStep
  with_reducible repeat' (beta_reduce; first
    | assumption | exact covers_of hw rfl | (intro _)
    | (extract_lets +onlyGivenNames x; first
      | (refine keeps_cut (w := w) (r := r) (s := x) ?_ ?_; (on_goal 2 => (intro hx; clear_value x)); unfold x; clear x)
      | (refine keeps_cut (w := w) (r := r) (s := x.1) ?_ ?_; (on_goal 2 => (intro hx; clear_value x)); unfold x; clear x)
      | clear_value x)
    | apply keeps_addItem | apply keeps_handed | apply keeps_descUpd | apply keeps_descFail | split
    | refine keeps_pair (by assumption) ?_)

theorem keeps_execFrameOut (c : Fin 1024) (q : Fin 64) (slot : Fin 65536) {s : State}
    (hw : Covers 0x10204AD3AB w) (h : Keeps w r s) : Ends w r (execFrameOut c q slot s) := by
  unfold execFrameOut
  with_reducible repeat' (beta_reduce; first
    | assumption | exact covers_of hw rfl | (intro _) | apply ends_next | apply keeps_onDesc | apply keeps_doAll
    | apply keeps_frameStep | apply keeps_readStep | split | refine keeps_pair (by assumption) ?_)

theorem keeps_execMark (c : Fin 1024) (q : Fin 64) (slot : Fin 65536) {s : State}
    (hw : Covers 0x10204AD3AB w) (h : Keeps w r s) : Ends w r (execMark c q slot s) := by
  unfold execMark
  with_reducible repeat' (beta_reduce; first
    | assumption | exact covers_of hw rfl | (intro _)
    | (extract_lets +onlyGivenNames x; first
      | (refine keeps_cut (w := w) (r := r) (s := x) ?_ ?_; (on_goal 2 => (intro hx; clear_value x)); unfold x; clear x)
      | (refine keeps_cut (w := w) (r := r) (s := x.1) ?_ ?_; (on_goal 2 => (intro hx; clear_value x)); unfold x; clear x)
      | clear_value x)
    | apply ends_next | apply keeps_onDesc | apply keeps_addItem | apply keeps_descUpd | apply keeps_endDesc | split
    | refine keeps_pair (by assumption) ?_)

theorem keeps_wfenceRead (c : Nat) (be : Nat) {s : State}
    (hw : Covers 0x40000 w) (h : Keeps w r s) : Keeps w r (wfenceRead c be s) := by
  unfold wfenceRead
  with_reducible repeat' (beta_reduce; first
    | assumption | exact covers_of hw rfl | (intro _) | apply keeps_ctxUpd | split
    | refine keeps_pair (by assumption) ?_)

theorem keeps_execCtxWfenceRead (c : Fin 1024) {s : State}
    (hw : Covers 0x102046D3AB w) (h : Keeps w r s) : Ends w r (execCtxWfenceRead c s) := by
  unfold execCtxWfenceRead
  with_reducible repeat' (first
    | assumption | exact covers_of hw rfl | (intro _) | apply ends_next | apply keeps_done | apply keeps_hostTlp
    | apply keeps_wfenceRead | split | refine keeps_pair (by assumption) ?_)

theorem keeps_wfenceReturn (c : Nat) (incomplete : Bool) (r0 : HeldRead) {s : State}
    (hw : Covers 0x40009 w) (h : Keeps w r s) : Keeps w r (wfenceReturn c incomplete r0 s) := by
  unfold wfenceReturn
  with_reducible repeat' (beta_reduce; first
    | assumption | exact covers_of hw rfl | (intro _)
    | (extract_lets +onlyGivenNames x; first
      | (refine keeps_cut (w := w) (r := r) (s := x) ?_ ?_; (on_goal 2 => (intro hx; clear_value x)); unfold x; clear x)
      | (refine keeps_cut (w := w) (r := r) (s := x.1) ?_ ?_; (on_goal 2 => (intro hx; clear_value x)); unfold x; clear x)
      | clear_value x)
    | apply keeps_heldAnswer | apply keeps_ctxUpd | apply keeps_set | split | refine keeps_pair (by assumption) ?_)

theorem keeps_execCtxWfenceReturn (c : Fin 1024) {s : State}
    (hw : Covers 0x40009 w) (h : Keeps w r s) : Ends w r (execCtxWfenceReturn c s) := by
  unfold execCtxWfenceReturn
  with_reducible repeat' (beta_reduce; first
    | assumption | exact covers_of hw rfl | (intro _) | apply ends_next | apply keeps_done | apply keeps_wfenceReturn
    | split | refine keeps_pair (by assumption) ?_)

theorem keeps_execCtxWfenceTimeout (c : Fin 1024) {s : State}
    (hw : Covers 0x40009 w) (h : Keeps w r s) : Ends w r (execCtxWfenceTimeout c s) := by
  unfold execCtxWfenceTimeout
  with_reducible repeat' (beta_reduce; first
    | assumption | exact covers_of hw rfl | (intro _) | apply ends_next | apply keeps_done | apply keeps_wfenceReturn
    | split | refine keeps_pair (by assumption) ?_)

theorem keeps_mbxUpd (f : Mbx → Mbx) {s : State}
    (hw : Covers 0x10000000 w) (h : Keeps w r s) : Keeps w r (State.mbxUpd s f) := by
  unfold State.mbxUpd
  with_reducible repeat' (first
    | assumption | exact covers_of hw rfl | exact ⟨rfl, rfl⟩ | split | refine keeps_pair (by assumption) ?_
    | refine keeps_mk ?_)

theorem keeps_cmdsUpd (f : List Cmd → List Cmd) {s : State}
    (hw : Covers 0x800000 w) (h : Keeps w r s) : Keeps w r (State.cmdsUpd s f) := by
  unfold State.cmdsUpd
  with_reducible repeat' (first
    | assumption | exact covers_of hw rfl | exact ⟨rfl, rfl⟩ | split | refine keeps_pair (by assumption) ?_
    | refine keeps_mk ?_)

theorem keeps_setByte (a : Nat) (b : Byte) {s : State}
    (hw : Covers 0x8 w) (h : Keeps w r s) : Keeps w r (setByte a b s) := by
  unfold setByte
  with_reducible repeat' (first
    | assumption | exact covers_of hw rfl | apply keeps_setWord | split | refine keeps_pair (by assumption) ?_)

theorem keeps_putArea (a : Nat) (bs : List Byte) {s : State} (hw : Covers 0x8 w)
    (h : Keeps w r s) : Keeps w r (putArea a bs s) := by
  induction bs generalizing a s with
  | nil => exact h
  | cons b bs ih => exact ih _ (keeps_setByte _ _ (covers_of hw rfl) h)

theorem keeps_logConflict (mb : Nat) (op : Nat) (stamp : Stroke) {s : State}
    (hw : Covers 0x8 w) (h : Keeps w r s) : Keeps w r (logConflict mb op stamp s) := by
  unfold logConflict
  with_reducible repeat' (first
    | assumption | exact covers_of hw rfl | apply keeps_inc | apply keeps_set | split
    | refine keeps_pair (by assumption) ?_)

theorem keeps_mbxEvent (mb : Nat) {s : State}
    (hw : Covers 0x102002D3AB w) (h : Keeps w r s) : Keeps w r (mbxEvent mb s) := by
  unfold mbxEvent
  with_reducible repeat' (first
    | assumption | exact covers_of hw rfl | apply keeps_bcAttn | apply keeps_ctxEvent | split
    | refine keeps_pair (by assumption) ?_)

theorem keeps_drawBytes (a n : Nat) {s : State} (hw : Covers 0xA w)
    (h : Keeps w r s) : Keeps w r (drawBytes a n s) := by
  induction n generalizing a s with
  | zero => exact h
  | succ n ih => exact ih _ (keeps_setByte _ _ (covers_of hw rfl) (keeps_drewOne (covers_of hw rfl) h))

theorem keeps_peerReply (code : Nat) (res : List Byte) {s : State}
    (hw : Covers 0x1010008003 w) (h : Keeps w r s) : Keeps w r (peerReply code res s) := by
  unfold peerReply
  with_reducible repeat' (beta_reduce; first
    | assumption | exact covers_of hw rfl | (intro _) | apply keeps_doAll | apply keeps_sendBypass
    | apply keeps_mbxUpd | split | refine keeps_pair (by assumption) ?_)

theorem keeps_mbxDone (mb : Nat) (op : Nat) (stamp : Stroke) (code : Nat) (res : List Byte) {s : State}
    (hw : Covers 0x103002D3AB w) (h : Keeps w r s) : Keeps w r (mbxDone mb op stamp code res s) := by
  unfold mbxDone
  with_reducible repeat' (beta_reduce; first
    | assumption | exact covers_of hw rfl | (intro _)
    | (extract_lets +onlyGivenNames x; first
      | (refine keeps_cut (w := w) (r := r) (s := x) ?_ ?_; (on_goal 2 => (intro hx; clear_value x)); unfold x; clear x)
      | (refine keeps_cut (w := w) (r := r) (s := x.1) ?_ ?_; (on_goal 2 => (intro hx; clear_value x)); unfold x; clear x)
      | clear_value x)
    | apply keeps_mbxEvent | apply keeps_doIf | apply keeps_peerReply | apply keeps_inc | apply keeps_logConflict
    | apply keeps_set | apply keeps_drawBytes | apply keeps_putArea | split | refine keeps_pair (by assumption) ?_)

theorem keeps_cmdDone (id : Nat) (code : Nat) (res : List Byte) {s : State}
    (hw : Covers 0x103082D3AB w) (h : Keeps w r s) : Keeps w r (cmdDone id code res s) := by
  unfold cmdDone
  with_reducible repeat' (beta_reduce; first
    | assumption | exact covers_of hw rfl | (intro _) | apply keeps_doIf | apply keeps_mbxDone | apply keeps_cmdsUpd
    | exact ⟨rfl, rfl⟩ | split | refine keeps_pair (by assumption) ?_)

theorem keeps_submitAt (stamp : Stroke) (mb : Nat) {s : State}
    (hw : Covers 0x103082D3AB w) (h : Keeps w r s) : Keeps w r (submitAt stamp mb s) := by
  unfold submitAt
  with_reducible repeat' (beta_reduce; first
    | assumption | exact covers_of hw rfl | (intro _)
    | (extract_lets +onlyGivenNames x; first
      | (refine keeps_cut (w := w) (r := r) (s := x) ?_ ?_; (on_goal 2 => (intro hx; clear_value x)); unfold x; clear x)
      | (refine keeps_cut (w := w) (r := r) (s := x.1) ?_ ?_; (on_goal 2 => (intro hx; clear_value x)); unfold x; clear x)
      | clear_value x)
    | apply keeps_mbxDone | apply keeps_set | apply keeps_mbxUpd | apply keeps_cmdsUpd | exact ⟨rfl, rfl⟩ | split
    | refine keeps_pair (by assumption) ?_)

theorem keeps_submit (mb : Nat) {s : State}
    (hw : Covers 0x103082D3AB w) (h : Keeps w r s) : Keeps w r (submit mb s) := by
  unfold submit
  with_reducible repeat' (first
    | assumption | exact covers_of hw rfl | apply keeps_submitAt | split | refine keeps_pair (by assumption) ?_)

theorem keeps_powerWake (mb : Nat) {s : State}
    (hw : Covers 0x20000000 w) (h : Keeps w r s) : Keeps w r (powerWake mb s) := by
  unfold powerWake
  with_reducible repeat' (beta_reduce; first
    | assumption | exact covers_of hw rfl | (intro _)
    | (extract_lets +onlyGivenNames x; first
      | (refine keeps_cut (w := w) (r := r) (s := x) ?_ ?_; (on_goal 2 => (intro hx; clear_value x)); unfold x; clear x)
      | (refine keeps_cut (w := w) (r := r) (s := x.1) ?_ ?_; (on_goal 2 => (intro hx; clear_value x)); unfold x; clear x)
      | clear_value x)
    | apply keeps_doIf | apply keeps_noteWake | split | refine keeps_pair (by assumption) ?_)

theorem keeps_mbxGo (mb : Nat) {s : State}
    (hw : Covers 0x103082D3AB w) (h : Keeps w r s) : Keeps w r (mbxGo mb s) := by
  unfold mbxGo
  with_reducible repeat' (first
    | assumption | exact covers_of hw rfl
    | (extract_lets +onlyGivenNames x; first
      | (refine keeps_cut (w := w) (r := r) (s := x) ?_ ?_; (on_goal 2 => (intro hx; clear_value x)); unfold x; clear x)
      | (refine keeps_cut (w := w) (r := r) (s := x.1) ?_ ?_; (on_goal 2 => (intro hx; clear_value x)); unfold x; clear x)
      | clear_value x)
    | apply keeps_set | apply keeps_powerWake | apply keeps_submit | apply keeps_raise | split
    | refine keeps_pair (by assumption) ?_)

theorem keeps_mbxGoHost (t : Stroke) (mb : Nat) {s : State}
    (hw : Covers 0x103082D3AF w) (h : Keeps w r s) : Keeps w r (mbxGoHost t mb s) := by
  unfold mbxGoHost
  with_reducible repeat' (first
    | assumption | exact covers_of hw rfl | (intro _) | apply keeps_doIf | apply keeps_stampedAs | apply keeps_mbxGo
    | split | refine keeps_pair (by assumption) ?_)

theorem keeps_mbxGoFrom (mb : Fin 1032) {s : State}
    (hw : Covers 0x1030C2D3AF w) (h : Keeps w r s) : Keeps w r (mbxGoFrom mb s) := by
  unfold mbxGoFrom
  with_reducible repeat' (first
    | assumption | exact covers_of hw rfl | (intro _) | apply keeps_smbMatch | apply keeps_mbxGo
    | apply keeps_hostPosted | apply keeps_inOrder | apply keeps_mbxGoHost | split
    | refine keeps_pair (by assumption) ?_)

theorem keeps_execMbxDoorbellGo (mb : Fin 1032) {s : State}
    (hw : Covers 0x1030C2D3AF w) (h : Keeps w r s) : Ends w r (execMbxDoorbellGo mb s) := by
  unfold execMbxDoorbellGo
  with_reducible repeat' (first
    | assumption | exact covers_of hw rfl | apply ends_next | apply keeps_done | apply keeps_mbxGoFrom | split
    | refine keeps_pair (by assumption) ?_)

theorem keeps_takeCmd (x0 : Cmd) (core : Nat) {s : State}
    (hw : Covers 0x800008 w) (h : Keeps w r s) : Keeps w r (takeCmd x0 core s) := by
  unfold takeCmd
  with_reducible repeat' (beta_reduce; first
    | assumption | exact covers_of hw rfl | (intro _) | apply keeps_set | apply keeps_cmdsUpd | exact ⟨rfl, rfl⟩
    | split | refine keeps_pair (by assumption) ?_)

theorem keeps_runCmd (mb : Nat) (core : Nat) (op : Nat) (f : Cmd → State → State × Nat × List Byte) {s : State}
    (hf : ∀ (x0 : Cmd) (s : State), Keeps w r s → Keeps w r (f x0 s).1) (hw : Covers 0x103082D3AB w) (h : Keeps w r s) : Ends w r (runCmd mb core op f s) := by
  unfold runCmd
  with_reducible repeat' (beta_reduce; first
    | assumption | exact covers_of hw rfl | (intro _) | apply ends_next | apply hf | apply keeps_done
    | apply keeps_takeCmd | apply keeps_cmdDone | split | refine keeps_pair (by assumption) ?_)

theorem keeps_startCmd (mb : Nat) (core : Nat) (op : Nat) (f : Cmd → State → State) {s : State}
    (hf : ∀ (x0 : Cmd) (s : State), Keeps w r s → Keeps w r (f x0 s)) (hw : Covers 0x800008 w) (h : Keeps w r s) : Ends w r (startCmd mb core op f s) := by
  unfold startCmd
  with_reducible repeat' (beta_reduce; first
    | assumption | exact covers_of hw rfl | (intro _) | apply ends_next | apply hf | apply keeps_done
    | apply keeps_takeCmd | split | refine keeps_pair (by assumption) ?_)

theorem keeps_rankCmds {s : State}
    (hw : Covers 0x103082D3AB w) (h : Keeps w r s) : Keeps w r (rankCmds s) := by
  unfold rankCmds
  with_reducible repeat' (beta_reduce; first
    | assumption | exact covers_of hw rfl | (intro _)
    | (extract_lets +onlyGivenNames x; first
      | (refine keeps_cut (w := w) (r := r) (s := x) ?_ ?_; (on_goal 2 => (intro hx; clear_value x)); unfold x; clear x)
      | (refine keeps_cut (w := w) (r := r) (s := x.1) ?_ ?_; (on_goal 2 => (intro hx; clear_value x)); unfold x; clear x)
      | clear_value x)
    | apply keeps_doAll | apply keeps_cmdDone | apply keeps_pwrUpd | apply keeps_cmdsUpd | exact ⟨rfl, rfl⟩ | split
    | refine keeps_pair (by assumption) ?_)

theorem keeps_execMbxWatchdogExpiry (mb : Fin 1032) {s : State}
    (hw : Covers 0x103082D3AB w) (h : Keeps w r s) : Ends w r (execMbxWatchdogExpiry mb s) := by
  unfold execMbxWatchdogExpiry
  with_reducible repeat' (beta_reduce; first
    | assumption | exact covers_of hw rfl | (intro _)
    | (extract_lets +onlyGivenNames x; first
      | (refine keeps_cut (w := w) (r := r) (s := x) ?_ ?_; (on_goal 2 => (intro hx; clear_value x)); unfold x; clear x)
      | (refine keeps_cut (w := w) (r := r) (s := x.1) ?_ ?_; (on_goal 2 => (intro hx; clear_value x)); unfold x; clear x)
      | clear_value x)
    | apply ends_next | apply keeps_done | apply keeps_raise | apply keeps_mbxDone | apply keeps_mbxUpd
    | apply keeps_cmdsUpd | exact ⟨rfl, rfl⟩ | split | refine keeps_pair (by assumption) ?_)

theorem keeps_mbxIdle (mb : Nat) {s : State}
    (hw : Covers 0x800008 w) (h : Keeps w r s) : Keeps w r (mbxIdle mb s) := by
  unfold mbxIdle
  with_reducible repeat' (beta_reduce; first
    | assumption | exact covers_of hw rfl | (intro _)
    | (extract_lets +onlyGivenNames x; first
      | (refine keeps_cut (w := w) (r := r) (s := x) ?_ ?_; (on_goal 2 => (intro hx; clear_value x)); unfold x; clear x)
      | (refine keeps_cut (w := w) (r := r) (s := x.1) ?_ ?_; (on_goal 2 => (intro hx; clear_value x)); unfold x; clear x)
      | clear_value x)
    | apply keeps_set | apply keeps_cmdsUpd | exact ⟨rfl, rfl⟩ | split | refine keeps_pair (by assumption) ?_)

theorem keeps_execMbxForward (mb : Fin 1032) (core : Fin 4) {s : State}
    (hw : Covers 0x103082D3AB w) (h : Keeps w r s) : Ends w r (execMbxForward mb core s) := by
  unfold execMbxForward
  with_reducible repeat' (beta_reduce; first
    | assumption | exact covers_of hw rfl | (intro _)
    | (extract_lets +onlyGivenNames x; first
      | (refine keeps_cut (w := w) (r := r) (s := x) ?_ ?_; (on_goal 2 => (intro hx; clear_value x)); unfold x; clear x)
      | (refine keeps_cut (w := w) (r := r) (s := x.1) ?_ ?_; (on_goal 2 => (intro hx; clear_value x)); unfold x; clear x)
      | clear_value x)
    | apply ends_next | apply keeps_done | apply keeps_cmdDone | apply keeps_doAll | apply keeps_sendBypass
    | apply keeps_mbxUpd | apply keeps_takeCmd | split | refine keeps_pair (by assumption) ?_)

theorem keeps_peerServe {s : State}
    (hw : Covers 0x103082D3AB w) (h : Keeps w r s) : Keeps w r (peerServe s) := by
  unfold peerServe
  with_reducible repeat' (beta_reduce; first
    | assumption | exact covers_of hw rfl | (intro _) | apply keeps_submitAt | apply keeps_raise | apply keeps_putArea
    | apply keeps_mbxUpd | split | refine keeps_pair (by assumption) ?_)

theorem keeps_setBank (m : Master) (a : Nat) (v : Word) {s : State}
    (hw : Covers 0x10 w) (h : Keeps w r s) : Keeps w r (setBank m a v s) := by
  unfold setBank
  with_reducible repeat' (beta_reduce; first
    | assumption | exact covers_of hw rfl | (intro _) | exact ⟨rfl, rfl⟩ | split
    | refine keeps_pair (by assumption) ?_ | refine keeps_mk ?_)

theorem keeps_setList (k : Nat) (l : List (BitVec 8)) {s : State}
    (hw : Covers 0x400000 w) (h : Keeps w r s) : Keeps w r (setList k l s) := by
  unfold setList
  with_reducible repeat' (beta_reduce; first
    | assumption | exact covers_of hw rfl | (intro _) | apply keeps_cadUpd | split
    | refine keeps_pair (by assumption) ?_)

theorem keeps_updUlShort (k : Nat) {s : State}
    (hw : Covers 0x102002D3AB w) (h : Keeps w r s) : Keeps w r (updUlShort k s) := by
  unfold updUlShort
  with_reducible repeat' (first
    | assumption | exact covers_of hw rfl | (intro _)
    | (extract_lets +onlyGivenNames x; first
      | (refine keeps_cut (w := w) (r := r) (s := x) ?_ ?_; (on_goal 2 => (intro hx; clear_value x)); unfold x; clear x)
      | (refine keeps_cut (w := w) (r := r) (s := x.1) ?_ ?_; (on_goal 2 => (intro hx; clear_value x)); unfold x; clear x)
      | clear_value x)
    | apply keeps_doIf | apply keeps_raise | apply keeps_set | split | refine keeps_pair (by assumption) ?_)

theorem keeps_updRsv {s : State}
    (hw : Covers 0x102002D3AB w) (h : Keeps w r s) : Keeps w r (updRsv s) := by
  unfold updRsv
  with_reducible repeat' (beta_reduce; first
    | assumption | exact covers_of hw rfl | (intro _)
    | (extract_lets +onlyGivenNames x; first
      | (refine keeps_cut (w := w) (r := r) (s := x) ?_ ?_; (on_goal 2 => (intro hx; clear_value x)); unfold x; clear x)
      | (refine keeps_cut (w := w) (r := r) (s := x.1) ?_ ?_; (on_goal 2 => (intro hx; clear_value x)); unfold x; clear x)
      | clear_value x)
    | apply keeps_doAll | apply keeps_updUlShort | apply keeps_updC0Short | apply keeps_setWord | apply keeps_set
    | split | refine keeps_pair (by assumption) ?_)

theorem keeps_commitApply (b : Stroke) {s : State}
    (hw : Covers 0x102042D3AB w) (h : Keeps w r s) : Keeps w r (commitApply b s) := by
  unfold commitApply
  with_reducible repeat' (beta_reduce; first
    | assumption | exact covers_of hw rfl | (intro _) | apply keeps_raise | apply keeps_updRsv | apply keeps_set
    | apply keeps_setWord | apply keeps_cadUpd | apply keeps_doAll | apply keeps_setList | split
    | refine keeps_pair (by assumption) ?_)

theorem keeps_commitWakes {s : State}
    (hw : Covers 0x20000008 w) (h : Keeps w r s) : Keeps w r (commitWakes s) := by
  unfold commitWakes
  with_reducible repeat' (first
    | assumption | exact covers_of hw rfl | (intro _) | apply keeps_doIf | apply keeps_sleepExit | split
    | refine keeps_pair (by assumption) ?_)

theorem keeps_cadCommitGo {s : State}
    (hw : Covers 0x20400008 w) (h : Keeps w r s) : Keeps w r (cadCommitGo s) := by
  unfold cadCommitGo
  with_reducible repeat' (beta_reduce; first
    | assumption | exact covers_of hw rfl | (intro _) | apply keeps_commitWakes | apply keeps_cadUpd | apply keeps_set
    | apply keeps_setWord | split | refine keeps_pair (by assumption) ?_)

theorem keeps_execCadCommitGo {s : State}
    (hw : Covers 0x20400008 w) (h : Keeps w r s) : Ends w r (execCadCommitGo s) := by
  unfold execCadCommitGo
  with_reducible repeat' (first
    | assumption | exact covers_of hw rfl | apply ends_next | apply keeps_done | apply keeps_cadCommitGo | split
    | refine keeps_pair (by assumption) ?_)

theorem keeps_execCadenceCommitApply {s : State}
    (hw : Covers 0x10000 w) (h : Keeps w r s) : Ends w r (execCadenceCommitApply s) := by
  unfold execCadenceCommitApply
  with_reducible repeat' (first
    | assumption | exact covers_of hw rfl | (intro _) | apply ends_next | apply keeps_done | apply keeps_doIf
    | apply keeps_atBoundary | split | refine keeps_pair (by assumption) ?_)

theorem keeps_levelLog (source : Nat) (l : Nat) (up : Bool) (cls : Nat) (needed : Nat) (avail : Nat) {s : State}
    (hw : Covers 0x102002D3AB w) (h : Keeps w r s) : Keeps w r (levelLog source l up cls needed avail s) := by
  unfold levelLog
  with_reducible repeat' (first
    | assumption | exact covers_of hw rfl | apply keeps_raise | apply keeps_set | apply keeps_setWord | split
    | refine keeps_pair (by assumption) ?_)

theorem keeps_updOvercommit {s : State}
    (hw : Covers 0x8 w) (h : Keeps w r s) : Keeps w r (updOvercommit s) := by
  unfold updOvercommit
  with_reducible repeat' (first
    | assumption | exact covers_of hw rfl | apply keeps_set | split | refine keeps_pair (by assumption) ?_)

theorem keeps_strokeLoRead (m : Master) {s : State}
    (hw : Covers 0x10 w) (h : Keeps w r s) : Keeps w r (strokeLoRead m s) := by
  unfold strokeLoRead
  with_reducible repeat' (first
    | assumption | exact covers_of hw rfl | apply keeps_setBank | split | refine keeps_pair (by assumption) ?_)

theorem keeps_setLocked (b : Bool) {s : State}
    (hw : Covers 0x102002D3AB w) (h : Keeps w r s) : Keeps w r (setLocked b s) := by
  unfold setLocked
  with_reducible repeat' (first
    | assumption | exact covers_of hw rfl | apply keeps_raise | apply keeps_set | split
    | refine keeps_pair (by assumption) ?_)

theorem keeps_setPtmValid (b : Bool) {s : State}
    (hw : Covers 0x102002D3AB w) (h : Keeps w r s) : Keeps w r (setPtmValid b s) := by
  unfold setPtmValid
  with_reducible repeat' (first
    | assumption | exact covers_of hw rfl | apply keeps_raise | apply keeps_set | split
    | refine keeps_pair (by assumption) ?_)

theorem keeps_ptmAnchor (host : Nat) {s : State}
    (hw : Covers 0x400008 w) (h : Keeps w r s) : Keeps w r (ptmAnchor host s) := by
  unfold ptmAnchor
  with_reducible repeat' (beta_reduce; first
    | assumption | exact covers_of hw rfl | (intro _) | apply keeps_cadUpd | apply keeps_set | split
    | refine keeps_pair (by assumption) ?_)

theorem keeps_ptmDiscipline (host : Nat) {s : State}
    (hw : Covers 0x102042D3AB w) (h : Keeps w r s) : Keeps w r (ptmDiscipline host s) := by
  unfold ptmDiscipline
  with_reducible repeat' (beta_reduce; first
    | assumption | exact covers_of hw rfl | (intro _)
    | (extract_lets +onlyGivenNames x; first
      | (refine keeps_cut (w := w) (r := r) (s := x) ?_ ?_; (on_goal 2 => (intro hx; clear_value x)); unfold x; clear x)
      | (refine keeps_cut (w := w) (r := r) (s := x.1) ?_ ?_; (on_goal 2 => (intro hx; clear_value x)); unfold x; clear x)
      | clear_value x)
    | apply keeps_ptmAnchor | apply keeps_doIf | apply keeps_raise | apply keeps_inc | apply keeps_setLocked
    | apply keeps_cadUpd | apply keeps_set | split | refine keeps_pair (by assumption) ?_)

theorem keeps_ptmNext {s : State}
    (hw : Covers 0x20000 w) (h : Keeps w r s) : Keeps w r (ptmNext s) := by
  unfold ptmNext
  with_reducible repeat' (beta_reduce; first
    | assumption | exact covers_of hw rfl | (intro _) | apply keeps_hlUpd | split
    | refine keeps_pair (by assumption) ?_)

theorem keeps_execPtmDialogue (host : BitVec 64) {s : State}
    (hw : Covers 0x102042D3AB w) (h : Keeps w r s) : Ends w r (execPtmDialogue host s) := by
  unfold execPtmDialogue
  with_reducible repeat' (beta_reduce; first
    | assumption | exact covers_of hw rfl | (intro _) | apply ends_next | apply keeps_done | apply keeps_doIf
    | apply keeps_ptmDiscipline | apply keeps_cadUpd | apply keeps_setPtmValid | apply keeps_emit
    | apply keeps_ptmNext | split | refine keeps_pair (by assumption) ?_)

theorem keeps_execPtmResponseTimeout {s : State}
    (hw : Covers 0x102042D3AB w) (h : Keeps w r s) : Ends w r (execPtmResponseTimeout s) := by
  unfold execPtmResponseTimeout
  with_reducible repeat' (beta_reduce; first
    | assumption | exact covers_of hw rfl | (intro _) | apply ends_next | apply keeps_done | apply keeps_doIf
    | apply keeps_setLocked | apply keeps_cadUpd | apply keeps_setPtmValid | apply keeps_inc | apply keeps_emit
    | apply keeps_ptmNext | split | refine keeps_pair (by assumption) ?_)

theorem keeps_ptmOff {s : State}
    (hw : Covers 0x102042D3AB w) (h : Keeps w r s) : Keeps w r (ptmOff s) := by
  unfold ptmOff
  with_reducible repeat' (beta_reduce; first
    | assumption | exact covers_of hw rfl | (intro _) | apply keeps_cadUpd | apply keeps_setLocked | apply keeps_set
    | split | refine keeps_pair (by assumption) ?_)

theorem keeps_followStep {s : State}
    (hw : Covers 0x102042D3AB w) (h : Keeps w r s) : Keeps w r (followStep s) := by
  unfold followStep
  with_reducible repeat' (first
    | assumption | exact covers_of hw rfl | (intro _) | apply keeps_doIf | apply keeps_ptmOff | split
    | refine keeps_pair (by assumption) ?_)

theorem keeps_ptmCtlWrite (v : Word) {s : State}
    (hw : Covers 0x102042D3AB w) (h : Keeps w r s) : Keeps w r (ptmCtlWrite v s) := by
  unfold ptmCtlWrite
  with_reducible repeat' (beta_reduce; first
    | assumption | exact covers_of hw rfl | (intro _)
    | (extract_lets +onlyGivenNames x; first
      | (refine keeps_cut (w := w) (r := r) (s := x) ?_ ?_; (on_goal 2 => (intro hx; clear_value x)); unfold x; clear x)
      | (refine keeps_cut (w := w) (r := r) (s := x.1) ?_ ?_; (on_goal 2 => (intro hx; clear_value x)); unfold x; clear x)
      | clear_value x)
    | apply keeps_set | apply keeps_ptmOff | apply keeps_doIf | split | refine keeps_pair (by assumption) ?_)

theorem keeps_execCadPtmCtlWrite (v : Word) {s : State}
    (hw : Covers 0x102042D3AB w) (h : Keeps w r s) : Ends w r (execCadPtmCtlWrite v s) := by
  unfold execCadPtmCtlWrite
  with_reducible repeat' (first
    | assumption | exact covers_of hw rfl | apply ends_next | apply keeps_done | apply keeps_ptmCtlWrite | split
    | refine keeps_pair (by assumption) ?_)

theorem keeps_slip {s : State}
    (hw : Covers 0x400008 w) (h : Keeps w r s) : Keeps w r (slip s) := by
  unfold slip
  with_reducible repeat' (beta_reduce; first
    | assumption | exact covers_of hw rfl | (intro _)
    | (extract_lets +onlyGivenNames x; first
      | (refine keeps_cut (w := w) (r := r) (s := x) ?_ ?_; (on_goal 2 => (intro hx; clear_value x)); unfold x; clear x)
      | (refine keeps_cut (w := w) (r := r) (s := x.1) ?_ ?_; (on_goal 2 => (intro hx; clear_value x)); unfold x; clear x)
      | clear_value x)
    | apply keeps_inc | apply keeps_cadUpd | split | refine keeps_pair (by assumption) ?_)

theorem keeps_vidMove (down : Bool) {s : State}
    (hw : Covers 0x1000 w) (h : Keeps w r s) : Keeps w r (vidMove down s) := by
  unfold vidMove
  with_reducible repeat' (beta_reduce; first
    | assumption | exact covers_of hw rfl | (intro _) | apply keeps_devUpd | split
    | refine keeps_pair (by assumption) ?_)

theorem keeps_startChange (target : Nat) (src : Nat) (cmd : Option Nat) (ordered : Option Nat) (cap : Option Nat) (fw : Option Nat) {s : State}
    (hw : Covers 0x20001000 w) (h : Keeps w r s) : Keeps w r (startChange target src cmd ordered cap fw s) := by
  unfold startChange
  with_reducible repeat' (beta_reduce; first
    | assumption | exact covers_of hw rfl | (intro _)
    | (extract_lets +onlyGivenNames x; first
      | (refine keeps_cut (w := w) (r := r) (s := x) ?_ ?_; (on_goal 2 => (intro hx; clear_value x)); unfold x; clear x)
      | (refine keeps_cut (w := w) (r := r) (s := x.1) ?_ ?_; (on_goal 2 => (intro hx; clear_value x)); unfold x; clear x)
      | clear_value x)
    | apply keeps_pwrUpd | apply keeps_doIf | apply keeps_vidMove | split | refine keeps_pair (by assumption) ?_)

theorem keeps_setLevel (l : Nat) {s : State}
    (hw : Covers 0x102002D3AB w) (h : Keeps w r s) : Keeps w r (setLevel l s) := by
  unfold setLevel
  with_reducible repeat' (first
    | assumption | exact covers_of hw rfl | apply keeps_raise | apply keeps_updRsv | apply keeps_inc | apply keeps_set
    | split | refine keeps_pair (by assumption) ?_)

theorem keeps_takeLevel (ordered : Option Nat) (cap : Option Nat) (fw : Option Nat) {s : State}
    (hw : Covers 0x20000008 w) (h : Keeps w r s) : Keeps w r (takeLevel ordered cap fw s) := by
  unfold takeLevel
  with_reducible repeat' (beta_reduce; first
    | assumption | exact covers_of hw rfl | (intro _)
    | (extract_lets +onlyGivenNames x; first
      | (refine keeps_cut (w := w) (r := r) (s := x) ?_ ?_; (on_goal 2 => (intro hx; clear_value x)); unfold x; clear x)
      | (refine keeps_cut (w := w) (r := r) (s := x.1) ?_ ?_; (on_goal 2 => (intro hx; clear_value x)); unfold x; clear x)
      | clear_value x)
    | apply keeps_pwrUpd | apply keeps_doIf | apply keeps_set | apply keeps_inc | split
    | refine keeps_pair (by assumption) ?_)

theorem keeps_levelSame (cmd : Option Nat) (ordered : Option Nat) (cap : Option Nat) (fw : Option Nat) {s : State}
    (hw : Covers 0x103082D3AB w) (h : Keeps w r s) : Keeps w r (levelSame cmd ordered cap fw s) := by
  unfold levelSame
  with_reducible repeat' (beta_reduce; first
    | assumption | exact covers_of hw rfl | (intro _)
    | (extract_lets +onlyGivenNames x; first
      | (refine keeps_cut (w := w) (r := r) (s := x) ?_ ?_; (on_goal 2 => (intro hx; clear_value x)); unfold x; clear x)
      | (refine keeps_cut (w := w) (r := r) (s := x.1) ?_ ?_; (on_goal 2 => (intro hx; clear_value x)); unfold x; clear x)
      | clear_value x)
    | apply keeps_cmdDone | apply keeps_takeLevel | split | refine keeps_pair (by assumption) ?_)

theorem keeps_levelOrder (target : Nat) (src : Nat) (cmd : Option Nat) (ordered : Option Nat) (cap : Option Nat) (fw : Option Nat) {s : State}
    (hw : Covers 0x103082D3AB w) (h : Keeps w r s) : Keeps w r (levelOrder target src cmd ordered cap fw s) := by
  unfold levelOrder
  with_reducible repeat' (first
    | assumption | exact covers_of hw rfl | apply keeps_levelSame | apply keeps_startChange | split
    | refine keeps_pair (by assumption) ?_)

theorem keeps_vidRest (c : LevelChange) (b : Stroke) {s : State}
    (hw : Covers 0x20000000 w) (h : Keeps w r s) : Keeps w r (vidRest c b s) := by
  unfold vidRest
  with_reducible repeat' (beta_reduce; first
    | assumption | exact covers_of hw rfl | (intro _)
    | (extract_lets +onlyGivenNames x; first
      | (refine keeps_cut (w := w) (r := r) (s := x) ?_ ?_; (on_goal 2 => (intro hx; clear_value x)); unfold x; clear x)
      | (refine keeps_cut (w := w) (r := r) (s := x.1) ?_ ?_; (on_goal 2 => (intro hx; clear_value x)); unfold x; clear x)
      | clear_value x)
    | apply keeps_pwrUpd | split | refine keeps_pair (by assumption) ?_)

theorem keeps_levelSwitch (c : LevelChange) {s : State}
    (hw : Covers 0x103082D3AB w) (h : Keeps w r s) : Keeps w r (levelSwitch c s) := by
  unfold levelSwitch
  with_reducible repeat' (beta_reduce; first
    | assumption | exact covers_of hw rfl | (intro _)
    | (extract_lets +onlyGivenNames x; first
      | (refine keeps_cut (w := w) (r := r) (s := x) ?_ ?_; (on_goal 2 => (intro hx; clear_value x)); unfold x; clear x)
      | (refine keeps_cut (w := w) (r := r) (s := x.1) ?_ ?_; (on_goal 2 => (intro hx; clear_value x)); unfold x; clear x)
      | clear_value x)
    | apply keeps_cmdDone | apply keeps_vidRest | apply keeps_doIf | apply keeps_vidMove | apply keeps_takeLevel
    | apply keeps_setLevel | apply keeps_pwrUpd | apply keeps_set | apply keeps_levelLog | split
    | refine keeps_pair (by assumption) ?_)

theorem keeps_execLevelChangeOrder (fw : Option (Fin 4)) {s : State}
    (hw : Covers 0x103082D3AB w) (h : Keeps w r s) : Ends w r (execLevelChangeOrder fw s) := by
  unfold execLevelChangeOrder
  with_reducible repeat' (beta_reduce; first
    | assumption | exact covers_of hw rfl | (intro _)
    | (extract_lets +onlyGivenNames x; first
      | (refine keeps_cut (w := w) (r := r) (s := x) ?_ ?_; (on_goal 2 => (intro hx; clear_value x)); unfold x; clear x)
      | (refine keeps_cut (w := w) (r := r) (s := x.1) ?_ ?_; (on_goal 2 => (intro hx; clear_value x)); unfold x; clear x)
      | clear_value x)
    | apply ends_next | apply keeps_done | apply keeps_doIf | apply keeps_pwrUpd | apply keeps_levelOrder | split
    | refine keeps_pair (by assumption) ?_)

theorem keeps_execLevelSwitch {s : State}
    (hw : Covers 0x10000 w) (h : Keeps w r s) : Ends w r (execLevelSwitch s) := by
  unfold execLevelSwitch
  with_reducible repeat' (first
    | assumption | exact covers_of hw rfl | (intro _) | apply ends_next | apply keeps_done | apply keeps_doIf
    | apply keeps_atBoundary | split | refine keeps_pair (by assumption) ?_)

theorem keeps_vidStep (c : LevelChange) {s : State}
    (hw : Covers 0x20001000 w) (h : Keeps w r s) : Keeps w r (vidStep c s) := by
  unfold vidStep
  with_reducible repeat' (beta_reduce; first
    | assumption | exact covers_of hw rfl | (intro _)
    | (extract_lets +onlyGivenNames x; first
      | (refine keeps_cut (w := w) (r := r) (s := x) ?_ ?_; (on_goal 2 => (intro hx; clear_value x)); unfold x; clear x)
      | (refine keeps_cut (w := w) (r := r) (s := x.1) ?_ ?_; (on_goal 2 => (intro hx; clear_value x)); unfold x; clear x)
      | clear_value x)
    | apply keeps_pwrUpd | apply keeps_doIf | apply keeps_vidMove | split | refine keeps_pair (by assumption) ?_)

theorem keeps_execVidStep {s : State}
    (hw : Covers 0x20001000 w) (h : Keeps w r s) : Ends w r (execVidStep s) := by
  unfold execVidStep
  with_reducible repeat' (beta_reduce; first
    | assumption | exact covers_of hw rfl | (intro _) | apply ends_next | apply keeps_done | apply keeps_vidStep
    | split | refine keeps_pair (by assumption) ?_)

theorem keeps_capOrder (cap : Nat) {s : State}
    (hw : Covers 0x103082D3AB w) (h : Keeps w r s) : Keeps w r (capOrder cap s) := by
  unfold capOrder
  with_reducible repeat' (first
    | assumption | exact covers_of hw rfl | apply keeps_levelOrder | split | refine keeps_pair (by assumption) ?_)

theorem keeps_execThrottleGraceExpiry {s : State}
    (hw : Covers 0x102002D3AB w) (h : Keeps w r s) : Ends w r (execThrottleGraceExpiry s) := by
  unfold execThrottleGraceExpiry
  with_reducible repeat' (beta_reduce; first
    | assumption | exact covers_of hw rfl | (intro _)
    | (extract_lets +onlyGivenNames x; first
      | (refine keeps_cut (w := w) (r := r) (s := x) ?_ ?_; (on_goal 2 => (intro hx; clear_value x)); unfold x; clear x)
      | (refine keeps_cut (w := w) (r := r) (s := x.1) ?_ ?_; (on_goal 2 => (intro hx; clear_value x)); unfold x; clear x)
      | clear_value x)
    | apply ends_next | apply keeps_done | apply keeps_doIf | apply keeps_vidRest | apply keeps_pwrUpd
    | apply keeps_vidMove | apply keeps_raise | apply keeps_set | apply keeps_inc | apply keeps_takeLevel
    | apply keeps_setLevel | split | refine keeps_pair (by assumption) ?_)

theorem keeps_setTemps (t : List (BitVec 16)) {s : State}
    (hw : Covers 0x8 w) (h : Keeps w r s) : Keeps w r (setTemps t s) := by
  unfold setTemps
  with_reducible repeat' (beta_reduce; first
    | assumption | exact covers_of hw rfl | (intro _)
    | (extract_lets +onlyGivenNames x; first
      | (refine keeps_cut (w := w) (r := r) (s := x) ?_ ?_; (on_goal 2 => (intro hx; clear_value x)); unfold x; clear x)
      | (refine keeps_cut (w := w) (r := r) (s := x.1) ?_ ?_; (on_goal 2 => (intro hx; clear_value x)); unfold x; clear x)
      | clear_value x)
    | apply keeps_doIf | apply keeps_set | apply keeps_doAll | split | refine keeps_pair (by assumption) ?_)

theorem keeps_thermalPolicy (top : ℤ) {s : State}
    (hw : Covers 0x103082D3AB w) (h : Keeps w r s) : Keeps w r (thermalPolicy top s) := by
  unfold thermalPolicy
  with_reducible repeat' (beta_reduce; first
    | assumption | exact covers_of hw rfl | (intro _)
    | (extract_lets +onlyGivenNames x; first
      | (refine keeps_cut (w := w) (r := r) (s := x) ?_ ?_; (on_goal 2 => (intro hx; clear_value x)); unfold x; clear x)
      | (refine keeps_cut (w := w) (r := r) (s := x.1) ?_ ?_; (on_goal 2 => (intro hx; clear_value x)); unfold x; clear x)
      | clear_value x)
    | apply keeps_doIf | apply keeps_capOrder | apply keeps_pwrUpd | apply keeps_raise | apply keeps_set | split
    | refine keeps_pair (by assumption) ?_)

theorem keeps_thermTrip (own : Bool) {s : State}
    (hw : Covers 0x102002D3AB w) (h : Keeps w r s) : Keeps w r (thermTrip own s) := by
  unfold thermTrip
  with_reducible repeat' (beta_reduce; first
    | assumption | exact covers_of hw rfl | (intro _) | apply keeps_orderPreserve | apply keeps_doIf | apply keeps_inc
    | apply keeps_devUpd | apply keeps_raise | split | refine keeps_pair (by assumption) ?_)

theorem keeps_ownTrip {s : State}
    (hw : Covers 0x102002D3AB w) (h : Keeps w r s) : Keeps w r (ownTrip s) := by
  unfold ownTrip
  with_reducible repeat' (first
    | assumption | exact covers_of hw rfl | apply keeps_thermTrip | split | refine keeps_pair (by assumption) ?_)

theorem keeps_execThermalRefresh (t0 : BitVec 16) (t1 : BitVec 16) (t2 : BitVec 16) (t3 : BitVec 16) (t4 : BitVec 16) (t5 : BitVec 16) (t6 : BitVec 16) (t7 : BitVec 16) {s : State}
    (hw : Covers 0x103082D3AB w) (h : Keeps w r s) : Ends w r (execThermalRefresh t0 t1 t2 t3 t4 t5 t6 t7 s) := by
  unfold execThermalRefresh
  with_reducible repeat' (beta_reduce; first
    | assumption | exact covers_of hw rfl | (intro _)
    | (extract_lets +onlyGivenNames x; first
      | (refine keeps_cut (w := w) (r := r) (s := x) ?_ ?_; (on_goal 2 => (intro hx; clear_value x)); unfold x; clear x)
      | (refine keeps_cut (w := w) (r := r) (s := x.1) ?_ ?_; (on_goal 2 => (intro hx; clear_value x)); unfold x; clear x)
      | clear_value x)
    | apply ends_next | apply keeps_done | apply keeps_ownTrip | apply keeps_thermalPolicy | apply keeps_setTemps
    | apply keeps_pwrUpd | split | refine keeps_pair (by assumption) ?_)

theorem keeps_execPerfSet (mb : Fin 1032) (core : Fin 4) {s : State}
    (hw : Covers 0x20800008 w) (h : Keeps w r s) : Ends w r (execPerfSet mb core s) := by
  unfold execPerfSet
  with_reducible repeat' (beta_reduce; first
    | assumption | exact covers_of hw rfl | (intro _) | apply ends_next | apply keeps_startCmd | apply keeps_pwrUpd
    | apply keeps_done | split | refine keeps_pair (by assumption) ?_)

theorem keeps_setWakeEn (v : Nat) {s : State}
    (hw : Covers 0x8 w) (h : Keeps w r s) : Keeps w r (setWakeEn v s) := by
  unfold setWakeEn
  with_reducible repeat' (beta_reduce; first
    | assumption | exact covers_of hw rfl | (intro _)
    | (extract_lets +onlyGivenNames x; first
      | (refine keeps_cut (w := w) (r := r) (s := x) ?_ ?_; (on_goal 2 => (intro hx; clear_value x)); unfold x; clear x)
      | (refine keeps_cut (w := w) (r := r) (s := x.1) ?_ ?_; (on_goal 2 => (intro hx; clear_value x)); unfold x; clear x)
      | clear_value x)
    | apply keeps_set | split | refine keeps_pair (by assumption) ?_)

theorem keeps_execWakeCfg (mb : Fin 1032) (core : Fin 4) {s : State}
    (hw : Covers 0x103082D3AB w) (h : Keeps w r s) : Ends w r (execWakeCfg mb core s) := by
  unfold execWakeCfg
  with_reducible repeat' (beta_reduce; first
    | assumption | exact covers_of hw rfl | (intro _) | apply ends_next | apply keeps_runCmd | apply keeps_setWakeEn
    | apply keeps_done | split | refine keeps_pair (by assumption) ?_)

theorem keeps_execThermQuery (mb : Fin 1032) (core : Fin 4) {s : State}
    (hw : Covers 0x103082D3AB w) (h : Keeps w r s) : Ends w r (execThermQuery mb core s) := by
  unfold execThermQuery
  with_reducible repeat' (beta_reduce; first
    | assumption | exact covers_of hw rfl | (intro _) | apply ends_next | apply keeps_runCmd | split
    | refine keeps_pair (by assumption) ?_)

theorem keeps_execPowerPolicy (mb : Fin 1032) (core : Fin 4) {s : State}
    (hw : Covers 0x103082D3AB w) (h : Keeps w r s) : Ends w r (execPowerPolicy mb core s) := by
  unfold execPowerPolicy
  with_reducible repeat' (beta_reduce; first
    | assumption | exact covers_of hw rfl | (intro _)
    | (extract_lets +onlyGivenNames x; first
      | (refine keeps_cut (w := w) (r := r) (s := x) ?_ ?_; (on_goal 2 => (intro hx; clear_value x)); unfold x; clear x)
      | (refine keeps_cut (w := w) (r := r) (s := x.1) ?_ ?_; (on_goal 2 => (intro hx; clear_value x)); unfold x; clear x)
      | clear_value x)
    | apply ends_next | apply keeps_runCmd | apply keeps_set | apply keeps_done | split
    | refine keeps_pair (by assumption) ?_)

theorem keeps_execPowerQuery (mb : Fin 1032) (core : Fin 4) {s : State}
    (hw : Covers 0x103082D3AB w) (h : Keeps w r s) : Ends w r (execPowerQuery mb core s) := by
  unfold execPowerQuery
  with_reducible repeat' (beta_reduce; first
    | assumption | exact covers_of hw rfl | (intro _) | apply ends_next | apply keeps_runCmd | apply keeps_drewOne
    | split | refine keeps_pair (by assumption) ?_)

theorem keeps_sendState (dst : Nat) (stype : Nat) (c : Nat) (data : List Byte) {s : State}
    (hw : Covers 0x40008000 w) (h : Keeps w r s) : Keeps w r (sendState dst stype c data s).1 := by
  unfold sendState
  with_reducible repeat' (beta_reduce; first
    | assumption | exact covers_of hw rfl | (intro _)
    | (extract_lets +onlyGivenNames x; first
      | (refine keeps_cut (w := w) (r := r) (s := x) ?_ ?_; (on_goal 2 => (intro hx; clear_value x)); unfold x; clear x)
      | (refine keeps_cut (w := w) (r := r) (s := x.1) ?_ ?_; (on_goal 2 => (intro hx; clear_value x)); unfold x; clear x)
      | clear_value x)
    | apply keeps_sendReq | exact ⟨rfl, rfl⟩ | split | refine keeps_pair (by assumption) ?_ | refine keeps_mk ?_)

theorem keeps_loseBack (a : Nat) {s : State}
    (hw : Covers 0x102A02F3AB w) (h : Keeps w r s) : Keeps w r (loseBack a s) := by
  unfold loseBack
  with_reducible repeat' (beta_reduce; first
    | assumption | exact covers_of hw rfl | (intro _)
    | (extract_lets +onlyGivenNames x; first
      | (refine keeps_cut (w := w) (r := r) (s := x) ?_ ?_; (on_goal 2 => (intro hx; clear_value x)); unfold x; clear x)
      | (refine keeps_cut (w := w) (r := r) (s := x.1) ?_ ?_; (on_goal 2 => (intro hx; clear_value x)); unfold x; clear x)
      | clear_value x)
    | apply keeps_loseUnits | apply keeps_dsUpd | exact ⟨rfl, rfl⟩ | split | refine keeps_pair (by assumption) ?_)

theorem keeps_pairForget (c : Nat) {s : State}
    (hw : Covers 0x102A02F3AB w) (h : Keeps w r s) : Keeps w r (pairForget c s) := by
  unfold pairForget
  with_reducible repeat' (beta_reduce; first
    | assumption | exact covers_of hw rfl | (intro _)
    | (extract_lets +onlyGivenNames x; first
      | (refine keeps_cut (w := w) (r := r) (s := x) ?_ ?_; (on_goal 2 => (intro hx; clear_value x)); unfold x; clear x)
      | (refine keeps_cut (w := w) (r := r) (s := x.1) ?_ ?_; (on_goal 2 => (intro hx; clear_value x)); unfold x; clear x)
      | clear_value x)
    | apply keeps_doAll | apply keeps_loseBack | apply keeps_dsUpd | exact ⟨rfl, rfl⟩ | split
    | refine keeps_pair (by assumption) ?_)

theorem keeps_setPair (c : Nat) (role : Nat) (member : Nat) (pctx : Nat) {s : State}
    (hw : Covers 0x102A02F3AB w) (h : Keeps w r s) : Keeps w r (setPair c role member pctx s) := by
  unfold setPair
  with_reducible repeat' (first
    | assumption | exact covers_of hw rfl | apply keeps_set | apply keeps_setWord | apply keeps_pairForget | split
    | refine keeps_pair (by assumption) ?_)

theorem keeps_unpairHome (c : Nat) {s : State}
    (hw : Covers 0x102A02F3AB w) (h : Keeps w r s) : Keeps w r (unpairHome c s) := by
  unfold unpairHome
  with_reducible repeat' (beta_reduce; first
    | assumption | exact covers_of hw rfl | (intro _) | apply keeps_setWord | apply keeps_pairForget
    | apply keeps_loseBack | apply keeps_soloNext | split | refine keeps_pair (by assumption) ?_)

theorem keeps_unpairStandby (c : Nat) {s : State}
    (hw : Covers 0x1C2A6EF3AB w) (h : Keeps w r s) : Keeps w r (unpairStandby c s) := by
  unfold unpairStandby
  with_reducible repeat' (beta_reduce; first
    | assumption | exact covers_of hw rfl | (intro _) | apply keeps_setWord | apply keeps_pairForget
    | apply keeps_setShare | apply keeps_dsUpd | apply keeps_aptErase | exact ⟨rfl, rfl⟩ | split
    | refine keeps_pair (by assumption) ?_)

theorem keeps_tandemTell (c : Nat) (op : Nat) {s : State}
    (hw : Covers 0x40008000 w) (h : Keeps w r s) : Keeps w r (tandemTell c op s) := by
  unfold tandemTell
  with_reducible repeat' (beta_reduce; first
    | assumption | exact covers_of hw rfl | (intro _) | apply keeps_sendState | split
    | refine keeps_pair (by assumption) ?_)

end Sys2Proof.Machine
end

