-- ==== Sys2Proof/Laws/KeepsLinks.lean ====
section
/-! SUPPORT. Laws/KeepsLinks.lean: what every operation may change and what it keeps: contexts, store commands, Ulirin links, peer messages. -/
namespace Sys2Proof.Machine

set_option Elab.async false
set_option linter.unusedTactic false
set_option linter.unreachableTactic false
set_option linter.unusedVariables false

variable {w : Nat} {r : State}

theorem keeps_ctxSetShare (d : Nat) (x0 : Cmd) {s : State}
    (hw : Covers 0x107086D3AB w) (h : Keeps w r s) : Keeps w r (ctxSetShare d x0 s) := by
  unfold ctxSetShare
  with_reducible repeat' (beta_reduce; first
    | assumption | exact covers_of hw rfl | (intro _)
    | (extract_lets +onlyGivenNames x; first
      | (refine keeps_cut (w := w) (r := r) (s := x) ?_ ?_; (on_goal 2 => (intro hx; clear_value x)); unfold x; clear x)
      | (refine keeps_cut (w := w) (r := r) (s := x.1) ?_ ?_; (on_goal 2 => (intro hx; clear_value x)); unfold x; clear x)
      | clear_value x)
    | apply keeps_cmdDone | apply keeps_ctxUpd | apply keeps_sendState | split | refine keeps_pair (by assumption) ?_)

theorem keeps_execCtxSetShare (mb : Fin 1032) (core : Fin 4) (d : Fin 201) {s : State}
    (hw : Covers 0x107086D3AB w) (h : Keeps w r s) : Ends w r (execCtxSetShare mb core d s) := by
  unfold execCtxSetShare
  with_reducible repeat' (first
    | assumption | exact covers_of hw rfl | (intro _) | apply ends_next | apply keeps_startCmd
    | apply keeps_ctxSetShare | split | refine keeps_pair (by assumption) ?_)

theorem keeps_shareGone (c : Nat) {s : State}
    (hw : Covers 0x103086D3AB w) (h : Keeps w r s) : Keeps w r (shareGone c s) := by
  unfold shareGone
  with_reducible repeat' (beta_reduce; first
    | assumption | exact covers_of hw rfl | (intro _)
    | (extract_lets +onlyGivenNames x; first
      | (refine keeps_cut (w := w) (r := r) (s := x) ?_ ?_; (on_goal 2 => (intro hx; clear_value x)); unfold x; clear x)
      | (refine keeps_cut (w := w) (r := r) (s := x.1) ?_ ?_; (on_goal 2 => (intro hx; clear_value x)); unfold x; clear x)
      | clear_value x)
    | apply keeps_doIf | apply keeps_cmdDone | apply keeps_ctxUpd | split | refine keeps_pair (by assumption) ?_)

theorem keeps_shareApply (c : Nat) (p : SharePend) {s : State}
    (hw : Covers 0x103086D3AB w) (h : Keeps w r s) : Keeps w r (shareApply c p s) := by
  unfold shareApply
  with_reducible repeat' (beta_reduce; first
    | assumption | exact covers_of hw rfl | (intro _)
    | (extract_lets +onlyGivenNames x; first
      | (refine keeps_cut (w := w) (r := r) (s := x) ?_ ?_; (on_goal 2 => (intro hx; clear_value x)); unfold x; clear x)
      | (refine keeps_cut (w := w) (r := r) (s := x.1) ?_ ?_; (on_goal 2 => (intro hx; clear_value x)); unfold x; clear x)
      | clear_value x)
    | apply keeps_cmdDone | apply keeps_ctxUpd | apply keeps_updOverDesc | apply keeps_doIf | apply keeps_set
    | apply keeps_setShare | split | refine keeps_pair (by assumption) ?_)

theorem keeps_execShareRecordApply (c : Fin 1024) {s : State}
    (hw : Covers 0x10000 w) (h : Keeps w r s) : Ends w r (execShareRecordApply c s) := by
  unfold execShareRecordApply
  with_reducible repeat' (first
    | assumption | exact covers_of hw rfl | (intro _) | apply ends_next | apply keeps_done | apply keeps_doIf
    | apply keeps_atBoundary | split | refine keeps_pair (by assumption) ?_)

theorem keeps_wdogWrite (c : Nat) (v : Nat) {s : State}
    (hw : Covers 0x8 w) (h : Keeps w r s) : Keeps w r (wdogWrite c v s) := by
  unfold wdogWrite
  with_reducible repeat' (beta_reduce; first
    | assumption | exact covers_of hw rfl | (intro _)
    | (extract_lets +onlyGivenNames x; first
      | (refine keeps_cut (w := w) (r := r) (s := x) ?_ ?_; (on_goal 2 => (intro hx; clear_value x)); unfold x; clear x)
      | (refine keeps_cut (w := w) (r := r) (s := x.1) ?_ ?_; (on_goal 2 => (intro hx; clear_value x)); unfold x; clear x)
      | clear_value x)
    | apply keeps_doIf | apply keeps_set | split | refine keeps_pair (by assumption) ?_)

theorem keeps_wdogKick (c : Nat) {s : State}
    (hw : Covers 0x8 w) (h : Keeps w r s) : Keeps w r (wdogKick c s) := by
  unfold wdogKick
  with_reducible repeat' (first
    | assumption | exact covers_of hw rfl | (intro _) | apply keeps_doIf | apply keeps_wdogReload | split
    | refine keeps_pair (by assumption) ?_)

theorem keeps_wdogKicked (c : Nat) {s : State}
    (hw : Covers 0x8 w) (h : Keeps w r s) : Keeps w r (wdogKicked c s) := by
  unfold wdogKicked
  with_reducible repeat' (first
    | assumption | exact covers_of hw rfl | (intro _) | apply keeps_doIf | apply keeps_wdogKick | split
    | refine keeps_pair (by assumption) ?_)

theorem keeps_execCtxWdogKickWrite (c : Fin 1024) {s : State}
    (hw : Covers 0x102042D3AB w) (h : Keeps w r s) : Ends w r (execCtxWdogKickWrite c s) := by
  unfold execCtxWdogKickWrite
  with_reducible repeat' (first
    | assumption | exact covers_of hw rfl | (intro _) | apply ends_next | apply keeps_done | apply keeps_hostPosted
    | apply keeps_inOrder | apply keeps_wdogKicked | split | refine keeps_pair (by assumption) ?_)

theorem keeps_selWdogWrite (m : Master) (v : Word) {s : State}
    (hw : Covers 0x8 w) (h : Keeps w r s) : Keeps w r (selWdogWrite m v s) := by
  unfold selWdogWrite
  with_reducible repeat' (beta_reduce; first
    | assumption | exact covers_of hw rfl | (intro _)
    | (extract_lets +onlyGivenNames x; first
      | (refine keeps_cut (w := w) (r := r) (s := x) ?_ ?_; (on_goal 2 => (intro hx; clear_value x)); unfold x; clear x)
      | (refine keeps_cut (w := w) (r := r) (s := x.1) ?_ ?_; (on_goal 2 => (intro hx; clear_value x)); unfold x; clear x)
      | clear_value x)
    | apply keeps_wdogWrite | split | refine keeps_pair (by assumption) ?_)

theorem keeps_execCtxWdogCfg (mb : Fin 1032) (core : Fin 4) {s : State}
    (hw : Covers 0x103082D3AB w) (h : Keeps w r s) : Ends w r (execCtxWdogCfg mb core s) := by
  unfold execCtxWdogCfg
  with_reducible repeat' (beta_reduce; first
    | assumption | exact covers_of hw rfl | (intro _)
    | (extract_lets +onlyGivenNames x; first
      | (refine keeps_cut (w := w) (r := r) (s := x) ?_ ?_; (on_goal 2 => (intro hx; clear_value x)); unfold x; clear x)
      | (refine keeps_cut (w := w) (r := r) (s := x.1) ?_ ?_; (on_goal 2 => (intro hx; clear_value x)); unfold x; clear x)
      | clear_value x)
    | apply ends_next | apply keeps_runCmd | apply keeps_wdogWrite | split | refine keeps_pair (by assumption) ?_)

theorem keeps_ctxOrder (c : Nat) (o : CtxOp) {s : State}
    (hw : Covers 0x40048000 w) (h : Keeps w r s) : Keeps w r (ctxOrder c o s) := by
  unfold ctxOrder
  with_reducible repeat' (beta_reduce; first
    | assumption | exact covers_of hw rfl | (intro _) | apply keeps_ctxUpd | apply keeps_doIf | apply keeps_tandemTell
    | split | refine keeps_pair (by assumption) ?_)

theorem keeps_ctxCause (c : Nat) (destroy : Bool) (absent : Bool) (host : Bool) (cause : Nat) {s : State}
    (hw : Covers 0x40048000 w) (h : Keeps w r s) : Keeps w r (ctxCause c destroy absent host cause s) := by
  unfold ctxCause
  with_reducible repeat' (first
    | assumption | exact covers_of hw rfl | apply keeps_ctxOrder | split | refine keeps_pair (by assumption) ?_)

theorem keeps_ctxCommand (destroy : Bool) (d : Nat) (x0 : Cmd) {s : State}
    (hw : Covers 0x107086D3AB w) (h : Keeps w r s) : Keeps w r (ctxCommand destroy d x0 s) := by
  unfold ctxCommand
  with_reducible repeat' (beta_reduce; first
    | assumption | exact covers_of hw rfl | (intro _)
    | (extract_lets +onlyGivenNames x; first
      | (refine keeps_cut (w := w) (r := r) (s := x) ?_ ?_; (on_goal 2 => (intro hx; clear_value x)); unfold x; clear x)
      | (refine keeps_cut (w := w) (r := r) (s := x.1) ?_ ?_; (on_goal 2 => (intro hx; clear_value x)); unfold x; clear x)
      | clear_value x)
    | apply keeps_cmdDone | apply keeps_ctxOrder | split | refine keeps_pair (by assumption) ?_)

theorem keeps_execCtxReset (mb : Fin 1032) (core : Fin 4) (d : Fin 201) {s : State}
    (hw : Covers 0x107086D3AB w) (h : Keeps w r s) : Ends w r (execCtxReset mb core d s) := by
  unfold execCtxReset
  with_reducible repeat' (first
    | assumption | exact covers_of hw rfl | (intro _) | apply ends_next | apply keeps_startCmd
    | apply keeps_ctxCommand | split | refine keeps_pair (by assumption) ?_)

theorem keeps_execCtxDestroy (mb : Fin 1032) (core : Fin 4) (d : Fin 201) {s : State}
    (hw : Covers 0x107086D3AB w) (h : Keeps w r s) : Ends w r (execCtxDestroy mb core d s) := by
  unfold execCtxDestroy
  with_reducible repeat' (first
    | assumption | exact covers_of hw rfl | (intro _) | apply ends_next | apply keeps_startCmd
    | apply keeps_ctxCommand | split | refine keeps_pair (by assumption) ?_)

theorem keeps_ctxJoin (x0 : Cmd) {s : State}
    (hw : Covers 0x107086D3AB w) (h : Keeps w r s) : Keeps w r (ctxJoin x0 s) := by
  unfold ctxJoin
  with_reducible repeat' (first
    | assumption | exact covers_of hw rfl | apply keeps_cmdDone | apply keeps_ctxCommand | apply keeps_set | split
    | refine keeps_pair (by assumption) ?_)

theorem keeps_joinsStep {s : State}
    (hw : Covers 0x107086D3AB w) (h : Keeps w r s) : Keeps w r (joinsStep s) := by
  unfold joinsStep
  with_reducible repeat' (first
    | assumption | exact covers_of hw rfl | (intro _) | apply keeps_doAll | apply keeps_ctxJoin | split
    | refine keeps_pair (by assumption) ?_)

theorem keeps_detachOf (c : Nat) {s : State}
    (hw : Covers 0x2040008 w) (h : Keeps w r s) : Keeps w r (detachOf c s) := by
  unfold detachOf
  with_reducible repeat' (beta_reduce; first
    | assumption | exact covers_of hw rfl | (intro _) | apply keeps_aptDetach | split
    | refine keeps_pair (by assumption) ?_)

theorem keeps_ctxDestroyed (c : Nat) {s : State}
    (hw : Covers 0x102A16F3AB w) (h : Keeps w r s) : Keeps w r (ctxDestroyed c s) := by
  unfold ctxDestroyed
  with_reducible repeat' (beta_reduce; first
    | assumption | exact covers_of hw rfl | (intro _) | apply keeps_doIf | apply keeps_unpairHome | apply keeps_set
    | apply keeps_detachOf | apply keeps_doAll | apply keeps_winUnmapApply | apply keeps_setWord
    | apply keeps_setShare | split | refine keeps_pair (by assumption) ?_)

theorem keeps_setCtxBit (f : Nat → Field) (c : Nat) {s : State}
    (hw : Covers 0x8 w) (h : Keeps w r s) : Keeps w r (setCtxBit f c s) := by
  unfold setCtxBit
  with_reducible repeat' (first
    | assumption | exact covers_of hw rfl | apply keeps_set | split | refine keeps_pair (by assumption) ?_)

theorem keeps_ctxEnd (c : Nat) (o : CtxOp) {s : State}
    (hw : Covers 0x103A96F3AB w) (h : Keeps w r s) : Keeps w r (ctxEnd c o s) := by
  unfold ctxEnd
  with_reducible repeat' (beta_reduce; first
    | assumption | exact covers_of hw rfl | (intro _)
    | (extract_lets +onlyGivenNames x; first
      | (refine keeps_cut (w := w) (r := r) (s := x) ?_ ?_; (on_goal 2 => (intro hx; clear_value x)); unfold x; clear x)
      | (refine keeps_cut (w := w) (r := r) (s := x.1) ?_ ?_; (on_goal 2 => (intro hx; clear_value x)); unfold x; clear x)
      | clear_value x)
    | apply keeps_doAll | apply keeps_cmdDone | apply keeps_ctxEvent | apply keeps_setCtxBit | apply keeps_ctxUpd
    | apply keeps_inc | apply keeps_set | apply keeps_doIf | apply keeps_ctxDestroyed | split
    | refine keeps_pair (by assumption) ?_)

theorem keeps_flushEntries (c q : Nat) (es : List Cpl) {s : State} (hw : Covers 0x102002D3AB w)
    (h : Keeps w r s) : Keeps w r (flushEntries c q es s) := by
  induction es generalizing s with
  | nil => exact h
  | cons e es ih =>
    unfold flushEntries
    with_reducible repeat' (first
      | assumption | exact covers_of hw rfl | apply ih | apply keeps_set | apply keeps_writeEntry | apply keeps_hostWay | split
      | refine keeps_pair (by assumption) ?_)

theorem keeps_squashQp (c : Nat) (q : Nat) (o : CtxOp) {s : State}
    (hw : Covers 0x10225AD3AB w) (h : Keeps w r s) : Keeps w r (squashQp c q o s) := by
  unfold squashQp
  with_reducible repeat' (beta_reduce; first
    | assumption | exact covers_of hw rfl | (intro _)
    | (extract_lets +onlyGivenNames x; first
      | (refine keeps_cut (w := w) (r := r) (s := x) ?_ ?_; (on_goal 2 => (intro hx; clear_value x)); unfold x; clear x)
      | (refine keeps_cut (w := w) (r := r) (s := x.1) ?_ ?_; (on_goal 2 => (intro hx; clear_value x)); unfold x; clear x)
      | clear_value x)
    | apply keeps_flushEntries | apply keeps_doAll | apply keeps_finish | apply keeps_cancelDesc | apply keeps_qpUpd
    | apply keeps_doIf | apply keeps_set | split | refine keeps_pair (by assumption) ?_)

theorem keeps_dropHreads (c : Nat) (cpl : Bool) {s : State}
    (hw : Covers 0x200001 w) (h : Keeps w r s) : Keeps w r (dropHreads c cpl s) := by
  unfold dropHreads
  with_reducible repeat' (beta_reduce; first
    | assumption | exact covers_of hw rfl | (intro _) | apply keeps_doAll | apply keeps_doIf | apply keeps_emit
    | exact ⟨rfl, rfl⟩ | split | refine keeps_pair (by assumption) ?_ | refine keeps_mk ?_)

theorem keeps_upAbandoned (c : Nat) (i : Item) {s : State}
    (hw : Covers 0x100000 w) (h : Keeps w r s) : Keeps w r (upAbandoned c i s) := by
  unfold upAbandoned
  with_reducible repeat' (beta_reduce; first
    | assumption | exact covers_of hw rfl | (intro _) | apply keeps_doIf | apply keeps_respOut | split
    | refine keeps_pair (by assumption) ?_)

theorem keeps_abandonCtx (c : Nat) (cpl : Bool) {s : State}
    (hw : Covers 0x728009 w) (h : Keeps w r s) : Keeps w r (abandonCtx c cpl s) := by
  unfold abandonCtx
  with_reducible repeat' (beta_reduce; first
    | assumption | exact covers_of hw rfl | (intro _)
    | (extract_lets +onlyGivenNames x; first
      | (refine keeps_cut (w := w) (r := r) (s := x) ?_ ?_; (on_goal 2 => (intro hx; clear_value x)); unfold x; clear x)
      | (refine keeps_cut (w := w) (r := r) (s := x.1) ?_ ?_; (on_goal 2 => (intro hx; clear_value x)); unfold x; clear x)
      | clear_value x)
    | apply keeps_updTags | apply keeps_dropHreads | apply keeps_doAll | apply keeps_linkUpd | apply keeps_lbUpd
    | apply keeps_respOut | apply keeps_hlUpd | apply keeps_dropItems | apply keeps_upAbandoned | split
    | refine keeps_pair (by assumption) ?_)

theorem keeps_resetRange (lo n : Nat) {s : State} (hw : Covers 0x8 w) (h : Keeps w r s) : Keeps w r (resetRange lo n s) := by
  refine ⟨h.pending, h.marks, fun hr => ?_, h.mem, fun p hp => ?_⟩
  · unfold resetRange; dsimp only; exact tabWf_tabKeep _ _ _ (h.regs hr)
  · have hs := h.same p hp
    cases p <;> try exact hs
    have := covers_bit hw (i := 3) rfl
    simp_all [Part.idx]

theorem keeps_msixClear (c : Nat) {s : State}
    (hw : Covers 0x40 w) (h : Keeps w r s) : Keeps w r (msixClear c s) := by
  unfold msixClear
  with_reducible repeat' (beta_reduce; first
    | assumption | exact covers_of hw rfl | (intro _) | exact ⟨rfl, rfl⟩ | split
    | refine keeps_pair (by assumption) ?_ | refine keeps_mk ?_)

theorem keeps_ctxClear (c : Nat) {s : State}
    (hw : Covers 0x10201ED3EB w) (h : Keeps w r s) : Keeps w r (ctxClear c s) := by
  unfold ctxClear
  with_reducible repeat' (beta_reduce; first
    | assumption | exact covers_of hw rfl | (intro _) | apply keeps_ctxUpd | apply keeps_doIf | apply keeps_wdogReload
    | apply keeps_dropWindowBuffers | apply keeps_atsDiscard | apply keeps_resetRange | apply keeps_dropHeld
    | apply keeps_setPba | apply keeps_msixLose | apply keeps_msixClear | apply keeps_doAll | apply keeps_qpClear
    | split | refine keeps_pair (by assumption) ?_)

theorem keeps_ctxVanish (c : Nat) {s : State}
    (hw : Covers 0x1C6A7EF3EB w) (h : Keeps w r s) : Keeps w r (ctxVanish c s) := by
  unfold ctxVanish
  with_reducible repeat' (beta_reduce; first
    | assumption | exact covers_of hw rfl | (intro _)
    | (extract_lets +onlyGivenNames x; first
      | (refine keeps_cut (w := w) (r := r) (s := x) ?_ ?_; (on_goal 2 => (intro hx; clear_value x)); unfold x; clear x)
      | (refine keeps_cut (w := w) (r := r) (s := x.1) ?_ ?_; (on_goal 2 => (intro hx; clear_value x)); unfold x; clear x)
      | clear_value x)
    | apply keeps_ctxUpd | apply keeps_set | apply keeps_ctxClear | apply keeps_setWord | apply keeps_setShare
    | apply keeps_unpairStandby | apply keeps_sendState | split | refine keeps_pair (by assumption) ?_)

theorem keeps_drainStart (c : Nat) (o : CtxOp) {s : State}
    (hw : Covers 0x1C7AFEF3EB w) (h : Keeps w r s) : Keeps w r (drainStart c o s) := by
  unfold drainStart
  with_reducible repeat' (beta_reduce; first
    | assumption | exact covers_of hw rfl | (intro _)
    | (extract_lets +onlyGivenNames x; first
      | (refine keeps_cut (w := w) (r := r) (s := x) ?_ ?_; (on_goal 2 => (intro hx; clear_value x)); unfold x; clear x)
      | (refine keeps_cut (w := w) (r := r) (s := x.1) ?_ ?_; (on_goal 2 => (intro hx; clear_value x)); unfold x; clear x)
      | clear_value x)
    | apply keeps_ctxVanish | apply keeps_shareGone | apply keeps_ctxEnd | apply keeps_ctxClear
    | apply keeps_abandonCtx | apply keeps_tandemTell | apply keeps_doAll | apply keeps_set | apply keeps_endUnstarted
    | apply keeps_ctxUpd | split | refine keeps_pair (by assumption) ?_)

theorem keeps_execContextDrainStart (c : Fin 1024) {s : State}
    (hw : Covers 0x10000 w) (h : Keeps w r s) : Ends w r (execContextDrainStart c s) := by
  unfold execContextDrainStart
  with_reducible repeat' (first
    | assumption | exact covers_of hw rfl | (intro _) | apply ends_next | apply keeps_done | apply keeps_doIf
    | apply keeps_atBoundary | split | refine keeps_pair (by assumption) ?_)

theorem keeps_squash (c : Nat) (o : CtxOp) {s : State}
    (hw : Covers 0x10227ED3EB w) (h : Keeps w r s) : Keeps w r (squash c o s) := by
  unfold squash
  with_reducible repeat' (beta_reduce; first
    | assumption | exact covers_of hw rfl | (intro _) | apply keeps_ctxClear | apply keeps_abandonCtx
    | apply keeps_doAll | apply keeps_squashQp | apply keeps_ctxUpd | apply keeps_set | split
    | refine keeps_pair (by assumption) ?_)

theorem keeps_drainEnd (c : Nat) {s : State}
    (hw : Covers 0x10227ED3EB w) (h : Keeps w r s) : Keeps w r (drainEnd c s) := by
  unfold drainEnd
  with_reducible repeat' (beta_reduce; first
    | assumption | exact covers_of hw rfl | (intro _) | apply keeps_squash | split
    | refine keeps_pair (by assumption) ?_)

theorem keeps_squashEnd (done_ : List Nat) (c : Nat) {s : State}
    (hw : Covers 0x103A96F3AB w) (h : Keeps w r s) : Keeps w r (squashEnd done_ c s) := by
  unfold squashEnd
  with_reducible repeat' (beta_reduce; first
    | assumption | exact covers_of hw rfl | (intro _) | apply keeps_ctxEnd | split
    | refine keeps_pair (by assumption) ?_)

theorem keeps_quiesce (c : Nat) {s : State}
    (hw : Covers 0x8 w) (h : Keeps w r s) : Keeps w r (quiesce c s) := by
  unfold quiesce
  with_reducible repeat' (first
    | assumption | exact covers_of hw rfl | apply keeps_set | split | refine keeps_pair (by assumption) ?_)

theorem keeps_execContextSquash (c : Fin 1024) {s : State}
    (hw : Covers 0x10000 w) (h : Keeps w r s) : Ends w r (execContextSquash c s) := by
  unfold execContextSquash
  with_reducible repeat' (beta_reduce; first
    | assumption | exact covers_of hw rfl | (intro _) | apply ends_next | apply keeps_done | apply keeps_atBoundary
    | split | refine keeps_pair (by assumption) ?_)

theorem keeps_execSquashComplete (c : Fin 1024) {s : State}
    (hw : Covers 0x10000 w) (h : Keeps w r s) : Ends w r (execSquashComplete c s) := by
  unfold execSquashComplete
  with_reducible repeat' (first
    | assumption | exact covers_of hw rfl | apply ends_next | apply keeps_done | apply keeps_atBoundary | split
    | refine keeps_pair (by assumption) ?_)

theorem keeps_execContextQuiesce (c : Fin 1024) {s : State}
    (hw : Covers 0x10000 w) (h : Keeps w r s) : Ends w r (execContextQuiesce c s) := by
  unfold execContextQuiesce
  with_reducible repeat' (first
    | assumption | exact covers_of hw rfl | apply ends_next | apply keeps_done | apply keeps_atBoundary | split
    | refine keeps_pair (by assumption) ?_)

theorem keeps_execWatchdogExpiry (c : Fin 1024) {s : State}
    (hw : Covers 0x106006D3AB w) (h : Keeps w r s) : Ends w r (execWatchdogExpiry c s) := by
  unfold execWatchdogExpiry
  with_reducible repeat' (first
    | assumption | exact covers_of hw rfl | (intro _) | apply ends_next | apply keeps_done | apply keeps_doIf
    | apply keeps_ctxCause | apply keeps_ctxEvent | apply keeps_setCtxBit | apply keeps_set | split
    | refine keeps_pair (by assumption) ?_)

theorem keeps_execTagQuarantineRelease (c : Fin 1024) (tag : Fin 1024) (late : Bool) {s : State}
    (hw : Covers 0x102002D3AB w) (h : Keeps w r s) : Ends w r (execTagQuarantineRelease c tag late s) := by
  unfold execTagQuarantineRelease
  with_reducible repeat' (beta_reduce; first
    | assumption | exact covers_of hw rfl | (intro _) | apply ends_next | apply keeps_done | apply keeps_doIf
    | apply keeps_aerAdvisory | apply keeps_freeTags | split | refine keeps_pair (by assumption) ?_)

theorem keeps_execCtxQuery (mb : Fin 1032) (core : Fin 4) {s : State}
    (hw : Covers 0x103082D3AB w) (h : Keeps w r s) : Ends w r (execCtxQuery mb core s) := by
  unfold execCtxQuery
  with_reducible repeat' (beta_reduce; first
    | assumption | exact covers_of hw rfl | (intro _)
    | (extract_lets +onlyGivenNames x; first
      | (refine keeps_cut (w := w) (r := r) (s := x) ?_ ?_; (on_goal 2 => (intro hx; clear_value x)); unfold x; clear x)
      | (refine keeps_cut (w := w) (r := r) (s := x.1) ?_ ?_; (on_goal 2 => (intro hx; clear_value x)); unfold x; clear x)
      | clear_value x)
    | apply ends_next | apply keeps_runCmd | split | refine keeps_pair (by assumption) ?_)

theorem keeps_execCtxList (mb : Fin 1032) (core : Fin 4) {s : State}
    (hw : Covers 0x103082D3AB w) (h : Keeps w r s) : Ends w r (execCtxList mb core s) := by
  unfold execCtxList
  with_reducible repeat' (beta_reduce; first
    | assumption | exact covers_of hw rfl | (intro _) | apply ends_next | apply keeps_runCmd | split
    | refine keeps_pair (by assumption) ?_)

theorem keeps_longStart (x0 : Cmd) {s : State}
    (hw : Covers 0xA w) (h : Keeps w r s) : Keeps w r (longStart x0 s).1 := by
  unfold longStart
  with_reducible repeat' (first
    | assumption | exact covers_of hw rfl | apply keeps_drewOne | apply keeps_set | split
    | refine keeps_pair (by assumption) ?_)

theorem keeps_longEnd (o : LongOp) (code : Nat) {s : State}
    (hw : Covers 0x102002D3AB w) (h : Keeps w r s) : Keeps w r (longEnd o code s).1 := by
  unfold longEnd
  with_reducible repeat' (beta_reduce; first
    | assumption | exact covers_of hw rfl | (intro _) | apply keeps_bcAttn | apply keeps_mbxEvent | apply keeps_doIf
    | apply keeps_set | split | refine keeps_pair (by assumption) ?_)

theorem keeps_execAptCreate (mb : Fin 1032) (core : Fin 4) {s : State}
    (hw : Covers 0x103282D3AB w) (h : Keeps w r s) : Ends w r (execAptCreate mb core s) := by
  unfold execAptCreate
  with_reducible repeat' (beta_reduce; first
    | assumption | exact covers_of hw rfl | (intro _)
    | (extract_lets +onlyGivenNames x; first
      | (refine keeps_cut (w := w) (r := r) (s := x) ?_ ?_; (on_goal 2 => (intro hx; clear_value x)); unfold x; clear x)
      | (refine keeps_cut (w := w) (r := r) (s := x.1) ?_ ?_; (on_goal 2 => (intro hx; clear_value x)); unfold x; clear x)
      | clear_value x)
    | apply ends_next | apply keeps_runCmd | apply keeps_aptCreate | split | refine keeps_pair (by assumption) ?_)

theorem keeps_aptAttachCmd (x0 : Cmd) {s : State}
    (hw : Covers 0x103083D3AB w) (h : Keeps w r s) : Keeps w r (aptAttachCmd x0 s) := by
  unfold aptAttachCmd
  with_reducible repeat' (beta_reduce; first
    | assumption | exact covers_of hw rfl | (intro _)
    | (extract_lets +onlyGivenNames x; first
      | (refine keeps_cut (w := w) (r := r) (s := x) ?_ ?_; (on_goal 2 => (intro hx; clear_value x)); unfold x; clear x)
      | (refine keeps_cut (w := w) (r := r) (s := x.1) ?_ ?_; (on_goal 2 => (intro hx; clear_value x)); unfold x; clear x)
      | clear_value x)
    | apply keeps_cmdDone | exact ⟨rfl, rfl⟩ | split | refine keeps_pair (by assumption) ?_ | refine keeps_mk ?_)

theorem keeps_execAptAttach (mb : Fin 1032) (core : Fin 4) {s : State}
    (hw : Covers 0x103083D3AB w) (h : Keeps w r s) : Ends w r (execAptAttach mb core s) := by
  unfold execAptAttach
  with_reducible repeat' (first
    | assumption | exact covers_of hw rfl | (intro _) | apply ends_next | apply keeps_startCmd
    | apply keeps_aptAttachCmd | split | refine keeps_pair (by assumption) ?_)

theorem keeps_aptDetachCmd (x0 : Cmd) {s : State}
    (hw : Covers 0x103083D3AB w) (h : Keeps w r s) : Keeps w r (aptDetachCmd x0 s) := by
  unfold aptDetachCmd
  with_reducible repeat' (beta_reduce; first
    | assumption | exact covers_of hw rfl | (intro _)
    | (extract_lets +onlyGivenNames x; first
      | (refine keeps_cut (w := w) (r := r) (s := x) ?_ ?_; (on_goal 2 => (intro hx; clear_value x)); unfold x; clear x)
      | (refine keeps_cut (w := w) (r := r) (s := x.1) ?_ ?_; (on_goal 2 => (intro hx; clear_value x)); unfold x; clear x)
      | clear_value x)
    | apply keeps_cmdDone | exact ⟨rfl, rfl⟩ | split | refine keeps_pair (by assumption) ?_ | refine keeps_mk ?_)

theorem keeps_execAptDetach (mb : Fin 1032) (core : Fin 4) {s : State}
    (hw : Covers 0x103083D3AB w) (h : Keeps w r s) : Ends w r (execAptDetach mb core s) := by
  unfold execAptDetach
  with_reducible repeat' (first
    | assumption | exact covers_of hw rfl | (intro _) | apply ends_next | apply keeps_startCmd
    | apply keeps_aptDetachCmd | split | refine keeps_pair (by assumption) ?_)

theorem keeps_execAptErase (mb : Fin 1032) (core : Fin 4) {s : State}
    (hw : Covers 0x1C3AEED3AB w) (h : Keeps w r s) : Ends w r (execAptErase mb core s) := by
  unfold execAptErase
  with_reducible repeat' (beta_reduce; first
    | assumption | exact covers_of hw rfl | (intro _)
    | (extract_lets +onlyGivenNames x; first
      | (refine keeps_cut (w := w) (r := r) (s := x) ?_ ?_; (on_goal 2 => (intro hx; clear_value x)); unfold x; clear x)
      | (refine keeps_cut (w := w) (r := r) (s := x.1) ?_ ?_; (on_goal 2 => (intro hx; clear_value x)); unfold x; clear x)
      | clear_value x)
    | apply ends_next | apply keeps_runCmd | apply keeps_dsUpd | apply keeps_aptErase | exact ⟨rfl, rfl⟩ | split
    | refine keeps_pair (by assumption) ?_)

theorem keeps_execAptQuery (mb : Fin 1032) (core : Fin 4) {s : State}
    (hw : Covers 0x103082D3AB w) (h : Keeps w r s) : Ends w r (execAptQuery mb core s) := by
  unfold execAptQuery
  with_reducible repeat' (beta_reduce; first
    | assumption | exact covers_of hw rfl | (intro _) | apply ends_next | apply keeps_runCmd | split
    | refine keeps_pair (by assumption) ?_)

theorem keeps_execStoreQuery (mb : Fin 1032) (core : Fin 4) {s : State}
    (hw : Covers 0x103082D3AB w) (h : Keeps w r s) : Ends w r (execStoreQuery mb core s) := by
  unfold execStoreQuery
  with_reducible repeat' (beta_reduce; first
    | assumption | exact covers_of hw rfl | (intro _) | apply ends_next | apply keeps_runCmd | split
    | refine keeps_pair (by assumption) ?_)

theorem keeps_execStoreRecord (mb : Fin 1032) (core : Fin 4) {s : State}
    (hw : Covers 0x103082D3AB w) (h : Keeps w r s) : Ends w r (execStoreRecord mb core s) := by
  unfold execStoreRecord
  with_reducible repeat' (beta_reduce; first
    | assumption | exact covers_of hw rfl | (intro _) | apply ends_next | apply keeps_runCmd | split
    | refine keeps_pair (by assumption) ?_)

theorem keeps_execMediaHealth (mb : Fin 1032) (core : Fin 4) {s : State}
    (hw : Covers 0x103082D3AB w) (h : Keeps w r s) : Ends w r (execMediaHealth mb core s) := by
  unfold execMediaHealth
  with_reducible repeat' (beta_reduce; first
    | assumption | exact covers_of hw rfl | (intro _) | apply ends_next | apply keeps_runCmd | split
    | refine keeps_pair (by assumption) ?_)

theorem keeps_storeStart (x0 : Cmd) (what : Nat) {s : State}
    (hw : Covers 0x1000000A w) (h : Keeps w r s) : Keeps w r (storeStart x0 what s).1 := by
  unfold storeStart
  with_reducible repeat' (beta_reduce; first
    | assumption | exact covers_of hw rfl | (intro _) | apply keeps_longStart | apply keeps_mbxUpd | split
    | refine keeps_pair (by assumption) ?_)

theorem keeps_execStoreFormat (mb : Fin 1032) (core : Fin 4) {s : State}
    (hw : Covers 0x103082D3AB w) (h : Keeps w r s) : Ends w r (execStoreFormat mb core s) := by
  unfold execStoreFormat
  with_reducible repeat' (beta_reduce; first
    | assumption | exact covers_of hw rfl | (intro _)
    | (extract_lets +onlyGivenNames x; first
      | (refine keeps_cut (w := w) (r := r) (s := x) ?_ ?_; (on_goal 2 => (intro hx; clear_value x)); unfold x; clear x)
      | (refine keeps_cut (w := w) (r := r) (s := x.1) ?_ ?_; (on_goal 2 => (intro hx; clear_value x)); unfold x; clear x)
      | clear_value x)
    | apply ends_next | apply keeps_runCmd | apply keeps_storeStart | split | refine keeps_pair (by assumption) ?_)

theorem keeps_execMediaRebuild (mb : Fin 1032) (core : Fin 4) {s : State}
    (hw : Covers 0x103082D3AB w) (h : Keeps w r s) : Ends w r (execMediaRebuild mb core s) := by
  unfold execMediaRebuild
  with_reducible repeat' (beta_reduce; first
    | assumption | exact covers_of hw rfl | (intro _) | apply ends_next | apply keeps_runCmd | apply keeps_storeStart
    | split | refine keeps_pair (by assumption) ?_)

theorem keeps_formatApply (big : Bool) {s : State} (hw : Covers 0x1C2A06D3AB w) (h : Keeps w r s) : Keeps w r (formatApply big s) := by
  have ha := keeps_doAll s.aptIds aptDetach (fun _ _ h => keeps_aptDetach _ (covers_of hw rfl) h) h
  unfold formatApply
  generalize doAll s.aptIds aptDetach s = t at ha
  dsimp only
  repeat' (with_reducible first
    | apply keeps_updWear | apply keeps_updMirrorStatus | apply keeps_updBudget | apply keeps_set | apply keeps_medUpd
    | exact covers_of hw rfl)
  refine ⟨ha.pending, ha.marks, fun hr => ?_, fun _ => ⟨tabWf_nil _, tabWf_nil _⟩, fun p hp => ?_⟩
  · dsimp only; exact tabWf_tabKeep _ _ _ (ha.regs hr)
  · have hs := ha.same p hp
    cases p <;> first | exact hs | exact (covers_not hw hp rfl).elim

theorem keeps_storeEnd (code : Nat) {s : State}
    (hw : Covers 0x1C3A06D3AB w) (h : Keeps w r s) : Keeps w r (storeEnd code s) := by
  unfold storeEnd
  with_reducible repeat' (beta_reduce; first
    | assumption | exact covers_of hw rfl | (intro _)
    | (extract_lets +onlyGivenNames x; first
      | (refine keeps_cut (w := w) (r := r) (s := x) ?_ ?_; (on_goal 2 => (intro hx; clear_value x)); unfold x; clear x)
      | (refine keeps_cut (w := w) (r := r) (s := x.1) ?_ ?_; (on_goal 2 => (intro hx; clear_value x)); unfold x; clear x)
      | clear_value x)
    | apply keeps_longEnd | apply keeps_formatApply | apply keeps_mbxUpd | split
    | refine keeps_pair (by assumption) ?_)

theorem keeps_ulRaise (k : Nat) (off : Nat) {s : State}
    (hw : Covers 0x102002D3AB w) (h : Keeps w r s) : Keeps w r (ulRaise k off s) := by
  unfold ulRaise
  with_reducible repeat' (first
    | assumption | exact covers_of hw rfl | apply keeps_raise | split | refine keeps_pair (by assumption) ?_)

theorem keeps_ulTo (k : Nat) (st : Nat) {s : State}
    (hw : Covers 0x8008 w) (h : Keeps w r s) : Keeps w r (ulTo k st s) := by
  unfold ulTo
  with_reducible repeat' (beta_reduce; first
    | assumption | exact covers_of hw rfl | (intro _) | apply keeps_linkUpd | apply keeps_set | split
    | refine keeps_pair (by assumption) ?_)

theorem keeps_markerRow (k : Nat) (flags : Nat) {s : State}
    (hw : Covers 0x1000000001 w) (h : Keeps w r s) : Keeps w r (markerRow k flags s) := by
  unfold markerRow
  with_reducible repeat' (beta_reduce; first
    | assumption | exact covers_of hw rfl | (intro _) | apply keeps_emit | apply keeps_lineSend | split
    | refine keeps_pair (by assumption) ?_)

theorem keeps_updRoutes {s : State}
    (hw : Covers 0x8 w) (h : Keeps w r s) : Keeps w r (updRoutes s) := by
  unfold updRoutes
  with_reducible repeat' (beta_reduce; first
    | assumption | exact covers_of hw rfl | (intro _)
    | (extract_lets +onlyGivenNames x; first
      | (refine keeps_cut (w := w) (r := r) (s := x) ?_ ?_; (on_goal 2 => (intro hx; clear_value x)); unfold x; clear x)
      | (refine keeps_cut (w := w) (r := r) (s := x.1) ?_ ?_; (on_goal 2 => (intro hx; clear_value x)); unfold x; clear x)
      | clear_value x)
    | apply keeps_set | apply keeps_setWord | split | refine keeps_pair (by assumption) ?_)

theorem keeps_ulDownCause (k : Nat) {s : State}
    (hw : Covers 0x8000 w) (h : Keeps w r s) : Keeps w r (ulDownCause k s) := by
  unfold ulDownCause
  with_reducible repeat' (beta_reduce; first
    | assumption | exact covers_of hw rfl | (intro _) | apply keeps_linkUpd | split
    | refine keeps_pair (by assumption) ?_)

theorem keeps_ulProto (k : Nat) (code : Nat) (seq : Nat) {s : State}
    (hw : Covers 0x102002D3AB w) (h : Keeps w r s) : Keeps w r (ulProto k code seq s) := by
  unfold ulProto
  with_reducible repeat' (first
    | assumption | exact covers_of hw rfl | apply keeps_ulDownCause | apply keeps_ulRaise | apply keeps_set | split
    | refine keeps_pair (by assumption) ?_)

theorem keeps_fragAcked (k : Nat) (body : List Byte) {s : State}
    (hw : Covers 0x10000000 w) (h : Keeps w r s) : Keeps w r (fragAcked k body s) := by
  unfold fragAcked
  with_reducible repeat' (beta_reduce; first
    | assumption | exact covers_of hw rfl | (intro _)
    | (extract_lets +onlyGivenNames x; first
      | (refine keeps_cut (w := w) (r := r) (s := x) ?_ ?_; (on_goal 2 => (intro hx; clear_value x)); unfold x; clear x)
      | (refine keeps_cut (w := w) (r := r) (s := x.1) ?_ ?_; (on_goal 2 => (intro hx; clear_value x)); unfold x; clear x)
      | clear_value x)
    | apply keeps_mbxUpd | split | refine keeps_pair (by assumption) ?_)

theorem keeps_bypassAck (k : Nat) (back : Nat) {s : State}
    (hw : Covers 0x1010008003 w) (h : Keeps w r s) : Keeps w r (bypassAck k back s) := by
  unfold bypassAck
  with_reducible repeat' (beta_reduce; first
    | assumption | exact covers_of hw rfl | (intro _)
    | (extract_lets +onlyGivenNames x; first
      | (refine keeps_cut (w := w) (r := r) (s := x) ?_ ?_; (on_goal 2 => (intro hx; clear_value x)); unfold x; clear x)
      | (refine keeps_cut (w := w) (r := r) (s := x.1) ?_ ?_; (on_goal 2 => (intro hx; clear_value x)); unfold x; clear x)
      | clear_value x)
    | apply keeps_doAll | apply keeps_sendBypass | apply keeps_fragAcked | apply keeps_linkUpd | split
    | refine keeps_pair (by assumption) ?_)

theorem keeps_bypassSeq (k : Nat) (bseq : Nat) (back : Nat) {s : State}
    (hw : Covers 0x1010008003 w) (h : Keeps w r s) : Keeps w r (bypassSeq k bseq back s).1 := by
  unfold bypassSeq
  with_reducible repeat' (beta_reduce; first
    | assumption | exact covers_of hw rfl | (intro _)
    | (extract_lets +onlyGivenNames x; first
      | (refine keeps_cut (w := w) (r := r) (s := x) ?_ ?_; (on_goal 2 => (intro hx; clear_value x)); unfold x; clear x)
      | (refine keeps_cut (w := w) (r := r) (s := x.1) ?_ ?_; (on_goal 2 => (intro hx; clear_value x)); unfold x; clear x)
      | clear_value x)
    | apply keeps_linkUpd | apply keeps_bypassAck | apply keeps_sendBypass | split
    | refine keeps_pair (by assumption) ?_)

theorem keeps_execBypassNull (k : Fin 4) (back : BitVec 8) (reserved : Bool) {s : State}
    (hw : Covers 0x101000800B w) (h : Keeps w r s) : Ends w r (execBypassNull k back reserved s) := by
  unfold execBypassNull
  with_reducible repeat' (beta_reduce; first
    | assumption | exact covers_of hw rfl | (intro _) | apply ends_next | apply keeps_done | apply keeps_doIf
    | apply keeps_inc | apply keeps_bypassAck | split | refine keeps_pair (by assumption) ?_)

theorem keeps_execBypassRetransmit (k : Fin 4) {s : State}
    (hw : Covers 0x100000800B w) (h : Keeps w r s) : Ends w r (execBypassRetransmit k s) := by
  unfold execBypassRetransmit
  with_reducible repeat' (beta_reduce; first
    | assumption | exact covers_of hw rfl | (intro _)
    | (extract_lets +onlyGivenNames x; first
      | (refine keeps_cut (w := w) (r := r) (s := x) ?_ ?_; (on_goal 2 => (intro hx; clear_value x)); unfold x; clear x)
      | (refine keeps_cut (w := w) (r := r) (s := x.1) ?_ ?_; (on_goal 2 => (intro hx; clear_value x)); unfold x; clear x)
      | clear_value x)
    | apply ends_next | apply keeps_done | apply keeps_doIf | apply keeps_ulDownCause | apply keeps_linkUpd
    | apply keeps_inc | apply keeps_doAll | apply keeps_emitBypass | split | refine keeps_pair (by assumption) ?_)

theorem keeps_ulCredit (k : Nat) (vc : Nat) (count : Nat) {s : State}
    (hw : Covers 0x8008 w) (h : Keeps w r s) : Keeps w r (ulCredit k vc count s) := by
  unfold ulCredit
  with_reducible repeat' (beta_reduce; first
    | assumption | exact covers_of hw rfl | (intro _)
    | (extract_lets +onlyGivenNames x; first
      | (refine keeps_cut (w := w) (r := r) (s := x) ?_ ?_; (on_goal 2 => (intro hx; clear_value x)); unfold x; clear x)
      | (refine keeps_cut (w := w) (r := r) (s := x.1) ?_ ?_; (on_goal 2 => (intro hx; clear_value x)); unfold x; clear x)
      | clear_value x)
    | apply keeps_linkUpd | apply keeps_set | split | refine keeps_pair (by assumption) ?_)

theorem keeps_ulFree (k : Nat) {s : State}
    (hw : Covers 0x8000 w) (h : Keeps w r s) : Keeps w r (ulFree k s) := by
  unfold ulFree
  with_reducible repeat' (beta_reduce; first
    | assumption | exact covers_of hw rfl | (intro _)
    | (extract_lets +onlyGivenNames x; first
      | (refine keeps_cut (w := w) (r := r) (s := x) ?_ ?_; (on_goal 2 => (intro hx; clear_value x)); unfold x; clear x)
      | (refine keeps_cut (w := w) (r := r) (s := x.1) ?_ ?_; (on_goal 2 => (intro hx; clear_value x)); unfold x; clear x)
      | clear_value x)
    | apply keeps_doAll | apply keeps_linkUpd | split | refine keeps_pair (by assumption) ?_)

theorem keeps_execUlCreditReport (k : Fin 4) {s : State}
    (hw : Covers 0x1000008003 w) (h : Keeps w r s) : Ends w r (execUlCreditReport k s) := by
  unfold execUlCreditReport
  with_reducible repeat' (beta_reduce; first
    | assumption | exact covers_of hw rfl | (intro _)
    | (extract_lets +onlyGivenNames x; first
      | (refine keeps_cut (w := w) (r := r) (s := x) ?_ ?_; (on_goal 2 => (intro hx; clear_value x)); unfold x; clear x)
      | (refine keeps_cut (w := w) (r := r) (s := x.1) ?_ ?_; (on_goal 2 => (intro hx; clear_value x)); unfold x; clear x)
      | clear_value x)
    | apply ends_next | apply keeps_done | apply keeps_sendBypass | apply keeps_linkUpd | apply keeps_ulFree | split
    | refine keeps_pair (by assumption) ?_)

theorem keeps_execBypassCredit (k : Fin 4) (back : BitVec 8) (counts : Word) {s : State}
    (hw : Covers 0x101000800B w) (h : Keeps w r s) : Ends w r (execBypassCredit k back counts s) := by
  unfold execBypassCredit
  with_reducible repeat' (beta_reduce; first
    | assumption | exact covers_of hw rfl | (intro _) | apply ends_next | apply keeps_done | apply keeps_doAll
    | apply keeps_ulCredit | apply keeps_bypassAck | split | refine keeps_pair (by assumption) ?_)

theorem keeps_lpmTry (k : Nat) {s : State}
    (hw : Covers 0x102002D3AB w) (h : Keeps w r s) : Keeps w r (lpmTry k s) := by
  unfold lpmTry
  with_reducible repeat' (beta_reduce; first
    | assumption | exact covers_of hw rfl | (intro _) | apply keeps_ulRaise | apply keeps_linkUpd | apply keeps_set
    | apply keeps_emit | apply keeps_markerRow | split | refine keeps_pair (by assumption) ?_)

theorem keeps_lpmRequest (k : Nat) (st : Nat) {s : State}
    (hw : Covers 0x1000008003 w) (h : Keeps w r s) : Keeps w r (lpmRequest k st s) := by
  unfold lpmRequest
  with_reducible repeat' (beta_reduce; first
    | assumption | exact covers_of hw rfl | (intro _) | apply keeps_sendBypass | apply keeps_linkUpd | split
    | refine keeps_pair (by assumption) ?_)

theorem keeps_execBypassLpmReq (k : Fin 4) (bseq : BitVec 8) (back : BitVec 8) (st : BitVec 8) {s : State}
    (hw : Covers 0x103002D3AB w) (h : Keeps w r s) : Ends w r (execBypassLpmReq k bseq back st s) := by
  unfold execBypassLpmReq
  with_reducible repeat' (beta_reduce; first
    | assumption | exact covers_of hw rfl | (intro _) | apply ends_next | apply keeps_bypassSeq | apply keeps_done
    | apply keeps_lpmTry | apply keeps_linkUpd | apply keeps_sendBypass | split | refine keeps_pair (by assumption) ?_)

theorem keeps_execBypassLpmAck (k : Fin 4) (bseq : BitVec 8) (back : BitVec 8) (st : BitVec 8) {s : State}
    (hw : Covers 0x103002D3AB w) (h : Keeps w r s) : Ends w r (execBypassLpmAck k bseq back st s) := by
  unfold execBypassLpmAck
  with_reducible repeat' (beta_reduce; first
    | assumption | exact covers_of hw rfl | (intro _)
    | (extract_lets +onlyGivenNames x; first
      | (refine keeps_cut (w := w) (r := r) (s := x) ?_ ?_; (on_goal 2 => (intro hx; clear_value x)); unfold x; clear x)
      | (refine keeps_cut (w := w) (r := r) (s := x.1) ?_ ?_; (on_goal 2 => (intro hx; clear_value x)); unfold x; clear x)
      | clear_value x)
    | apply ends_next | apply keeps_bypassSeq | apply keeps_done | apply keeps_lpmTry | apply keeps_linkUpd | split
    | refine keeps_pair (by assumption) ?_)

theorem keeps_execUlCoastIdle (k : Fin 4) {s : State}
    (hw : Covers 0x1000008003 w) (h : Keeps w r s) : Ends w r (execUlCoastIdle k s) := by
  unfold execUlCoastIdle
  with_reducible repeat' (first
    | assumption | exact covers_of hw rfl
    | (extract_lets +onlyGivenNames x; first
      | (refine keeps_cut (w := w) (r := r) (s := x) ?_ ?_; (on_goal 2 => (intro hx; clear_value x)); unfold x; clear x)
      | (refine keeps_cut (w := w) (r := r) (s := x.1) ?_ ?_; (on_goal 2 => (intro hx; clear_value x)); unfold x; clear x)
      | clear_value x)
    | apply ends_next | apply keeps_done | apply keeps_lpmRequest | split | refine keeps_pair (by assumption) ?_)

theorem keeps_lpmLeave (k : Nat) (row : Nat) {s : State}
    (hw : Covers 0x102002D3AB w) (h : Keeps w r s) : Keeps w r (lpmLeave k row s) := by
  unfold lpmLeave
  with_reducible repeat' (beta_reduce; first
    | assumption | exact covers_of hw rfl | (intro _) | apply keeps_ulRaise | apply keeps_sendLate
    | apply keeps_linkUpd | apply keeps_emit | apply keeps_markerRow | apply keeps_set | split
    | refine keeps_pair (by assumption) ?_)

theorem keeps_execUlCoastExit (k : Fin 4) {s : State}
    (hw : Covers 0x102002D3AB w) (h : Keeps w r s) : Ends w r (execUlCoastExit k s) := by
  unfold execUlCoastExit
  with_reducible repeat' (first
    | assumption | exact covers_of hw rfl | apply ends_next | apply keeps_done | apply keeps_lpmLeave | split
    | refine keeps_pair (by assumption) ?_)

theorem keeps_execUlParkExit (k : Fin 4) {s : State}
    (hw : Covers 0x102002D3AB w) (h : Keeps w r s) : Ends w r (execUlParkExit k s) := by
  unfold execUlParkExit
  with_reducible repeat' (first
    | assumption | exact covers_of hw rfl | apply ends_next | apply keeps_done | apply keeps_lpmLeave | split
    | refine keeps_pair (by assumption) ?_)

theorem keeps_updHeld (k : Nat) {s : State}
    (hw : Covers 0x8 w) (h : Keeps w r s) : Keeps w r (updHeld k s) := by
  unfold updHeld
  with_reducible repeat' (first
    | assumption | exact covers_of hw rfl
    | (extract_lets +onlyGivenNames x; first
      | (refine keeps_cut (w := w) (r := r) (s := x) ?_ ?_; (on_goal 2 => (intro hx; clear_value x)); unfold x; clear x)
      | (refine keeps_cut (w := w) (r := r) (s := x.1) ?_ ?_; (on_goal 2 => (intro hx; clear_value x)); unfold x; clear x)
      | clear_value x)
    | apply keeps_peak | apply keeps_set | split | refine keeps_pair (by assumption) ?_)

theorem keeps_ackCover (k : Nat) (exp : Nat) {s : State}
    (hw : Covers 0x102002D3AB w) (h : Keeps w r s) : Keeps w r (ackCover k exp s) := by
  unfold ackCover
  with_reducible repeat' (beta_reduce; first
    | assumption | exact covers_of hw rfl | (intro _)
    | (extract_lets +onlyGivenNames x; first
      | (refine keeps_cut (w := w) (r := r) (s := x) ?_ ?_; (on_goal 2 => (intro hx; clear_value x)); unfold x; clear x)
      | (refine keeps_cut (w := w) (r := r) (s := x.1) ?_ ?_; (on_goal 2 => (intro hx; clear_value x)); unfold x; clear x)
      | clear_value x)
    | apply keeps_lpmTry | apply keeps_updHeld | apply keeps_linkUpd | split | refine keeps_pair (by assumption) ?_)

theorem keeps_execBypassAck (k : Fin 4) (back : BitVec 8) (exp : BitVec 12) {s : State}
    (hw : Covers 0x103002D3AB w) (h : Keeps w r s) : Ends w r (execBypassAck k back exp s) := by
  unfold execBypassAck
  with_reducible repeat' (first
    | assumption | exact covers_of hw rfl | apply ends_next | apply keeps_done | apply keeps_ackCover
    | apply keeps_bypassAck | split | refine keeps_pair (by assumption) ?_)

theorem keeps_replayFrom (k : Nat) (exp : Nat) {s : State}
    (hw : Covers 0x102002D3AB w) (h : Keeps w r s) : Keeps w r (replayFrom k exp s) := by
  unfold replayFrom
  with_reducible repeat' (beta_reduce; first
    | assumption | exact covers_of hw rfl | (intro _)
    | (extract_lets +onlyGivenNames x; first
      | (refine keeps_cut (w := w) (r := r) (s := x) ?_ ?_; (on_goal 2 => (intro hx; clear_value x)); unfold x; clear x)
      | (refine keeps_cut (w := w) (r := r) (s := x.1) ?_ ?_; (on_goal 2 => (intro hx; clear_value x)); unfold x; clear x)
      | clear_value x)
    | apply keeps_ulRaise | apply keeps_doIf | apply keeps_set | apply keeps_linkUpd | split
    | refine keeps_pair (by assumption) ?_)

theorem keeps_ulReplay (k : Nat) (exp : Nat) {s : State}
    (hw : Covers 0x102002D3AB w) (h : Keeps w r s) : Keeps w r (ulReplay k exp s) := by
  unfold ulReplay
  with_reducible repeat' (first
    | assumption | exact covers_of hw rfl | apply keeps_replayFrom | apply keeps_markerRow | split
    | refine keeps_pair (by assumption) ?_)

theorem keeps_execBypassNak (k : Fin 4) (back : BitVec 8) (exp : BitVec 12) {s : State}
    (hw : Covers 0x103002D3AB w) (h : Keeps w r s) : Ends w r (execBypassNak k back exp s) := by
  unfold execBypassNak
  with_reducible repeat' (beta_reduce; first
    | assumption | exact covers_of hw rfl | (intro _)
    | (extract_lets +onlyGivenNames x; first
      | (refine keeps_cut (w := w) (r := r) (s := x) ?_ ?_; (on_goal 2 => (intro hx; clear_value x)); unfold x; clear x)
      | (refine keeps_cut (w := w) (r := r) (s := x.1) ?_ ?_; (on_goal 2 => (intro hx; clear_value x)); unfold x; clear x)
      | clear_value x)
    | apply ends_next | apply keeps_done | apply keeps_ulReplay | apply keeps_ackCover | apply keeps_inc
    | apply keeps_bypassAck | apply keeps_ulProto | split | refine keeps_pair (by assumption) ?_)

theorem keeps_execUlReplayTimeout (k : Fin 4) {s : State}
    (hw : Covers 0x102002D3AB w) (h : Keeps w r s) : Ends w r (execUlReplayTimeout k s) := by
  unfold execUlReplayTimeout
  with_reducible repeat' (beta_reduce; first
    | assumption | exact covers_of hw rfl | (intro _)
    | (extract_lets +onlyGivenNames x; first
      | (refine keeps_cut (w := w) (r := r) (s := x) ?_ ?_; (on_goal 2 => (intro hx; clear_value x)); unfold x; clear x)
      | (refine keeps_cut (w := w) (r := r) (s := x.1) ?_ ?_; (on_goal 2 => (intro hx; clear_value x)); unfold x; clear x)
      | clear_value x)
    | apply ends_next | apply keeps_done | apply keeps_ulReplay | split | refine keeps_pair (by assumption) ?_)

theorem keeps_sendAck (k : Nat) {s : State}
    (hw : Covers 0x1000008003 w) (h : Keeps w r s) : Keeps w r (sendAck k s) := by
  unfold sendAck
  with_reducible repeat' (beta_reduce; first
    | assumption | exact covers_of hw rfl | (intro _) | apply keeps_sendBypass | apply keeps_linkUpd | split
    | refine keeps_pair (by assumption) ?_)

theorem keeps_execUlAckSend (k : Fin 4) {s : State}
    (hw : Covers 0x1000008003 w) (h : Keeps w r s) : Ends w r (execUlAckSend k s) := by
  unfold execUlAckSend
  with_reducible repeat' (first
    | assumption | exact covers_of hw rfl | apply ends_next | apply keeps_done | apply keeps_sendAck | split
    | refine keeps_pair (by assumption) ?_)

theorem keeps_sendNak (k : Nat) {s : State}
    (hw : Covers 0x100000800B w) (h : Keeps w r s) : Keeps w r (sendNak k s) := by
  unfold sendNak
  with_reducible repeat' (beta_reduce; first
    | assumption | exact covers_of hw rfl | (intro _) | apply keeps_doIf | apply keeps_ulDownCause
    | apply keeps_sendBypass | apply keeps_linkUpd | apply keeps_inc | split | refine keeps_pair (by assumption) ?_)

theorem keeps_ulLinkError (k : Nat) {s : State}
    (hw : Covers 0x102002D3AB w) (h : Keeps w r s) : Keeps w r (ulLinkError k s) := by
  unfold ulLinkError
  with_reducible repeat' (beta_reduce; first
    | assumption | exact covers_of hw rfl | (intro _)
    | (extract_lets +onlyGivenNames x; first
      | (refine keeps_cut (w := w) (r := r) (s := x) ?_ ?_; (on_goal 2 => (intro hx; clear_value x)); unfold x; clear x)
      | (refine keeps_cut (w := w) (r := r) (s := x.1) ?_ ?_; (on_goal 2 => (intro hx; clear_value x)); unfold x; clear x)
      | clear_value x)
    | apply keeps_doIf | apply keeps_sendNak | apply keeps_ulRaise | apply keeps_set | apply keeps_drewOne
    | apply keeps_linkUpd | split | refine keeps_pair (by assumption) ?_)

theorem keeps_execUlNakRepeat (k : Fin 4) {s : State}
    (hw : Covers 0x100000800B w) (h : Keeps w r s) : Ends w r (execUlNakRepeat k s) := by
  unfold execUlNakRepeat
  with_reducible repeat' (first
    | assumption | exact covers_of hw rfl | apply ends_next | apply keeps_done | apply keeps_sendNak | split
    | refine keeps_pair (by assumption) ?_)

theorem keeps_ulAccept (k : Nat) (vc : Nat) (off : Nat) (seq : Nat) (data : List Byte) {s : State}
    (hw : Covers 0x102002D3AB w) (h : Keeps w r s) : Keeps w r (ulAccept k vc off seq data s) := by
  unfold ulAccept
  with_reducible repeat' (beta_reduce; first
    | assumption | exact covers_of hw rfl | (intro _)
    | (extract_lets +onlyGivenNames x; first
      | (refine keeps_cut (w := w) (r := r) (s := x) ?_ ?_; (on_goal 2 => (intro hx; clear_value x)); unfold x; clear x)
      | (refine keeps_cut (w := w) (r := r) (s := x.1) ?_ ?_; (on_goal 2 => (intro hx; clear_value x)); unfold x; clear x)
      | clear_value x)
    | apply keeps_ulProto | apply keeps_ulFree | apply keeps_set | apply keeps_linkUpd | split
    | refine keeps_pair (by assumption) ?_)

theorem keeps_execUlCellReceive (k : Fin 4) (vc : Fin 4) (seq : BitVec 12) (ack : Option (BitVec 12)) (crVc : Fin 4) (crCount : BitVec 8) (off : Fin 257) (reserved : Bool) (data : List Byte) {s : State}
    (hw : Covers 0x102002D3AB w) (h : Keeps w r s) : Ends w r (execUlCellReceive k vc seq ack crVc crCount off reserved data s) := by
  unfold execUlCellReceive
  with_reducible repeat' (beta_reduce; first
    | assumption | exact covers_of hw rfl | (intro _)
    | (extract_lets +onlyGivenNames x; first
      | (refine keeps_cut (w := w) (r := r) (s := x) ?_ ?_; (on_goal 2 => (intro hx; clear_value x)); unfold x; clear x)
      | (refine keeps_cut (w := w) (r := r) (s := x.1) ?_ ?_; (on_goal 2 => (intro hx; clear_value x)); unfold x; clear x)
      | clear_value x)
    | apply ends_next | apply keeps_done | apply keeps_ulProto | apply keeps_doIf | apply keeps_sendAck
    | apply keeps_ulAccept | apply keeps_lpmLeave | apply keeps_ulCredit | apply keeps_ackCover | split
    | refine keeps_pair (by assumption) ?_)

theorem keeps_emitCell (k : Nat) (c : UCell) {s : State}
    (hw : Covers 0x1000008003 w) (h : Keeps w r s) : Keeps w r (emitCell k c s) := by
  unfold emitCell
  with_reducible repeat' (beta_reduce; first
    | assumption | exact covers_of hw rfl | (intro _) | apply keeps_linkUpd | apply keeps_emit | apply keeps_emitUnit
    | split | refine keeps_pair (by assumption) ?_)

theorem keeps_newCell (k : Nat) (vc : Nat) {s : State}
    (hw : Covers 0x100000800B w) (h : Keeps w r s) : Keeps w r (newCell k vc s) := by
  unfold newCell
  with_reducible repeat' (beta_reduce; first
    | assumption | exact covers_of hw rfl | (intro _)
    | (extract_lets +onlyGivenNames x; first
      | (refine keeps_cut (w := w) (r := r) (s := x) ?_ ?_; (on_goal 2 => (intro hx; clear_value x)); unfold x; clear x)
      | (refine keeps_cut (w := w) (r := r) (s := x.1) ?_ ?_; (on_goal 2 => (intro hx; clear_value x)); unfold x; clear x)
      | clear_value x)
    | apply keeps_updHeld | apply keeps_set | apply keeps_dec | apply keeps_linkUpd | apply keeps_emitCell | split
    | refine keeps_pair (by assumption) ?_)

theorem keeps_execUlEgressUnit (k : Fin 4) {s : State}
    (hw : Covers 0x102002D3AB w) (h : Keeps w r s) : Ends w r (execUlEgressUnit k s) := by
  unfold execUlEgressUnit
  with_reducible repeat' (beta_reduce; first
    | assumption | exact covers_of hw rfl | (intro _)
    | (extract_lets +onlyGivenNames x; first
      | (refine keeps_cut (w := w) (r := r) (s := x) ?_ ?_; (on_goal 2 => (intro hx; clear_value x)); unfold x; clear x)
      | (refine keeps_cut (w := w) (r := r) (s := x.1) ?_ ?_; (on_goal 2 => (intro hx; clear_value x)); unfold x; clear x)
      | clear_value x)
    | apply ends_next | apply keeps_done | apply keeps_doIf | apply keeps_lpmLeave | apply keeps_linkUpd
    | apply keeps_inc | apply keeps_emitCell | apply keeps_newCell | apply keeps_ulRaise | split
    | refine keeps_pair (by assumption) ?_)

theorem keeps_lanesForget (k : Nat) {s : State}
    (hw : Covers 0x8 w) (h : Keeps w r s) : Keeps w r (lanesForget k s) := by
  unfold lanesForget
  with_reducible repeat' (beta_reduce; first
    | assumption | exact covers_of hw rfl | (intro _) | apply keeps_doAll | apply keeps_set | split
    | refine keeps_pair (by assumption) ?_)

theorem keeps_trainStart (k : Nat) {s : State}
    (hw : Covers 0x100000800B w) (h : Keeps w r s) : Keeps w r (trainStart k s) := by
  unfold trainStart
  with_reducible repeat' (beta_reduce; first
    | assumption | exact covers_of hw rfl | (intro _)
    | (extract_lets +onlyGivenNames x; first
      | (refine keeps_cut (w := w) (r := r) (s := x) ?_ ?_; (on_goal 2 => (intro hx; clear_value x)); unfold x; clear x)
      | (refine keeps_cut (w := w) (r := r) (s := x.1) ?_ ?_; (on_goal 2 => (intro hx; clear_value x)); unfold x; clear x)
      | clear_value x)
    | apply keeps_markerRow | apply keeps_emit | apply keeps_lanesForget | apply keeps_drewOne | apply keeps_lineUpd
    | apply keeps_linkUpd | split | refine keeps_pair (by assumption) ?_)

theorem keeps_ulTrain (k : Nat) {s : State}
    (hw : Covers 0x100000800B w) (h : Keeps w r s) : Keeps w r (ulTrain k s) := by
  unfold ulTrain
  with_reducible repeat' (first
    | assumption | exact covers_of hw rfl | apply keeps_trainStart | apply keeps_ulTo | split
    | refine keeps_pair (by assumption) ?_)

theorem keeps_laneMeasure (k : Nat) (passed : Nat) (p : Nat) {s : State}
    (hw : Covers 0xA w) (h : Keeps w r s) : Keeps w r (laneMeasure k passed p s) := by
  unfold laneMeasure
  with_reducible repeat' (first
    | assumption | exact covers_of hw rfl | apply keeps_drewOne | apply keeps_set | split
    | refine keeps_pair (by assumption) ?_)

theorem keeps_lanesMapped (k : Nat) (n : Nat) {s : State}
    (hw : Covers 0x8008 w) (h : Keeps w r s) : Keeps w r (lanesMapped k n s) := by
  unfold lanesMapped
  with_reducible repeat' (beta_reduce; first
    | assumption | exact covers_of hw rfl | (intro _) | apply keeps_doIf | apply keeps_ulTo | apply keeps_linkUpd
    | apply keeps_set | apply keeps_setWord | split | refine keeps_pair (by assumption) ?_)

theorem keeps_execUlLanesLocked (k : Fin 4) (passed : BitVec 9) {s : State}
    (hw : Covers 0x800A w) (h : Keeps w r s) : Ends w r (execUlLanesLocked k passed s) := by
  unfold execUlLanesLocked
  with_reducible repeat' (beta_reduce; first
    | assumption | exact covers_of hw rfl | (intro _)
    | (extract_lets +onlyGivenNames x; first
      | (refine keeps_cut (w := w) (r := r) (s := x) ?_ ?_; (on_goal 2 => (intro hx; clear_value x)); unfold x; clear x)
      | (refine keeps_cut (w := w) (r := r) (s := x.1) ?_ ?_; (on_goal 2 => (intro hx; clear_value x)); unfold x; clear x)
      | clear_value x)
    | apply ends_next | apply keeps_done | apply keeps_doIf | apply keeps_lanesMapped | apply keeps_linkUpd
    | apply keeps_doAll | apply keeps_laneMeasure | apply keeps_set | split | refine keeps_pair (by assumption) ?_)

theorem keeps_execUlTrainTimeout (k : Fin 4) {s : State}
    (hw : Covers 0x100000800B w) (h : Keeps w r s) : Ends w r (execUlTrainTimeout k s) := by
  unfold execUlTrainTimeout
  with_reducible repeat' (beta_reduce; first
    | assumption | exact covers_of hw rfl | (intro _) | apply ends_next | apply keeps_done | apply keeps_trainStart
    | apply keeps_linkUpd | apply keeps_doIf | apply keeps_set | apply keeps_inc | split
    | refine keeps_pair (by assumption) ?_)

theorem keeps_execUlInitSend (k : Fin 4) {s : State}
    (hw : Covers 0x1000008003 w) (h : Keeps w r s) : Ends w r (execUlInitSend k s) := by
  unfold execUlInitSend
  with_reducible repeat' (beta_reduce; first
    | assumption | exact covers_of hw rfl | (intro _) | apply ends_next | apply keeps_done | apply keeps_sendBypass
    | apply keeps_linkUpd | split | refine keeps_pair (by assumption) ?_)

theorem keeps_ulStart (k : Nat) (i : UInit) {s : State}
    (hw : Covers 0x8008 w) (h : Keeps w r s) : Keeps w r (ulStart k i s) := by
  unfold ulStart
  with_reducible repeat' (beta_reduce; first
    | assumption | exact covers_of hw rfl | (intro _) | apply keeps_updHeld | apply keeps_linkUpd | apply keeps_doAll
    | apply keeps_set | split | refine keeps_pair (by assumption) ?_)

theorem keeps_bypassStart (k : Nat) {s : State}
    (hw : Covers 0x1000008003 w) (h : Keeps w r s) : Keeps w r (bypassStart k s) := by
  unfold bypassStart
  with_reducible repeat' (beta_reduce; first
    | assumption | exact covers_of hw rfl | (intro _)
    | (extract_lets +onlyGivenNames x; first
      | (refine keeps_cut (w := w) (r := r) (s := x) ?_ ?_; (on_goal 2 => (intro hx; clear_value x)); unfold x; clear x)
      | (refine keeps_cut (w := w) (r := r) (s := x.1) ?_ ?_; (on_goal 2 => (intro hx; clear_value x)); unfold x; clear x)
      | clear_value x)
    | apply keeps_doAll | apply keeps_sendBypass | apply keeps_linkUpd | split | refine keeps_pair (by assumption) ?_)

theorem keeps_routedDrop (m : UMsg) {s : State}
    (hw : Covers 0x80008 w) (h : Keeps w r s) : Keeps w r (routedDrop m s) := by
  unfold routedDrop
  with_reducible repeat' (beta_reduce; first
    | assumption | exact covers_of hw rfl | (intro _) | apply keeps_countDrop | split
    | refine keeps_pair (by assumption) ?_)

theorem keeps_msgLost (m : UMsg) (s : State) {s : State}
    (hw : Covers 0x480008 w) (h : Keeps w r s) : Keeps w r (msgLost s m s) := by
  unfold msgLost
  with_reducible repeat' (first
    | assumption | exact covers_of hw rfl | apply keeps_routedDrop | apply keeps_peerAns | split
    | refine keeps_pair (by assumption) ?_)

theorem keeps_framesLost (p : Nat) (gone : Nat → Bool) {s : State}
    (hw : Covers 0x500000 w) (h : Keeps w r s) : Keeps w r (framesLost p gone s) := by
  unfold framesLost
  with_reducible repeat' (beta_reduce; first
    | assumption | exact covers_of hw rfl | (intro _)
    | (extract_lets +onlyGivenNames x; first
      | (refine keeps_cut (w := w) (r := r) (s := x) ?_ ?_; (on_goal 2 => (intro hx; clear_value x)); unfold x; clear x)
      | (refine keeps_cut (w := w) (r := r) (s := x.1) ?_ ?_; (on_goal 2 => (intro hx; clear_value x)); unfold x; clear x)
      | clear_value x)
    | apply keeps_lbUpd | apply keeps_dropItems | split | refine keeps_pair (by assumption) ?_)

theorem keeps_rxFramesLost (k : Nat) {s : State}
    (hw : Covers 0x508000 w) (h : Keeps w r s) : Keeps w r (rxFramesLost k s) := by
  unfold rxFramesLost
  with_reducible repeat' (beta_reduce; first
    | assumption | exact covers_of hw rfl | (intro _)
    | (extract_lets +onlyGivenNames x; first
      | (refine keeps_cut (w := w) (r := r) (s := x) ?_ ?_; (on_goal 2 => (intro hx; clear_value x)); unfold x; clear x)
      | (refine keeps_cut (w := w) (r := r) (s := x.1) ?_ ?_; (on_goal 2 => (intro hx; clear_value x)); unfold x; clear x)
      | clear_value x)
    | apply keeps_linkUpd | apply keeps_doAll | apply keeps_framesLost | split | refine keeps_pair (by assumption) ?_)

theorem keeps_linkItemLost (k : Nat) (w0 : Work) {s : State}
    (hw : Covers 0x10246ED3AB w) (h : Keeps w r s) : Keeps w r (linkItemLost k w0 s) := by
  unfold linkItemLost
  with_reducible repeat' (beta_reduce; first
    | assumption | exact covers_of hw rfl | (intro _) | apply keeps_answer | apply keeps_countDrop
    | apply keeps_dropRItem | apply keeps_msgLost | split | refine keeps_pair (by assumption) ?_)

theorem keeps_reqLost (stateLost : Nat → Nat → State → State) (k : Nat) (r0 : Nat × ReqSrc × UMsg) {s : State}
    (hf : ∀ (x0 : Nat) (x1 : Nat) (s : State), Keeps w r s → Keeps w r (stateLost x0 x1 s)) (hw : Covers 0x10206ED3AB w) (h : Keeps w r s) : Keeps w r (reqLost stateLost k r0 s) := by
  unfold reqLost
  with_reducible repeat' (beta_reduce; first
    | assumption | exact covers_of hw rfl | (intro _) | apply hf | apply keeps_answer | split
    | refine keeps_pair (by assumption) ?_)

theorem keeps_stateLost (stype : Nat) (c : Nat) {s : State}
    (hw : Covers 0x107086D3AB w) (h : Keeps w r s) : Keeps w r (stateLost stype c s) := by
  unfold stateLost
  with_reducible repeat' (beta_reduce; first
    | assumption | exact covers_of hw rfl | (intro _)
    | (extract_lets +onlyGivenNames x; first
      | (refine keeps_cut (w := w) (r := r) (s := x) ?_ ?_; (on_goal 2 => (intro hx; clear_value x)); unfold x; clear x)
      | (refine keeps_cut (w := w) (r := r) (s := x.1) ?_ ?_; (on_goal 2 => (intro hx; clear_value x)); unfold x; clear x)
      | clear_value x)
    | apply keeps_cmdDone | apply keeps_ctxUpd | exact ⟨rfl, rfl⟩ | split | refine keeps_pair (by assumption) ?_
    | refine keeps_mk ?_)

theorem keeps_mbxLost (k : Nat) {s : State}
    (hw : Covers 0x103082D3AB w) (h : Keeps w r s) : Keeps w r (mbxLost k s) := by
  unfold mbxLost
  with_reducible repeat' (beta_reduce; first
    | assumption | exact covers_of hw rfl | (intro _)
    | (extract_lets +onlyGivenNames x; first
      | (refine keeps_cut (w := w) (r := r) (s := x) ?_ ?_; (on_goal 2 => (intro hx; clear_value x)); unfold x; clear x)
      | (refine keeps_cut (w := w) (r := r) (s := x.1) ?_ ?_; (on_goal 2 => (intro hx; clear_value x)); unfold x; clear x)
      | clear_value x)
    | apply keeps_doAll | apply keeps_cmdDone | apply keeps_mbxUpd | split | refine keeps_pair (by assumption) ?_)

theorem keeps_ulDiscard (k : Nat) {s : State}
    (hw : Covers 0x1076FED3AB w) (h : Keeps w r s) : Keeps w r (ulDiscard k s) := by
  unfold ulDiscard
  with_reducible repeat' (beta_reduce; first
    | assumption | exact covers_of hw rfl | (intro _)
    | (extract_lets +onlyGivenNames x; first
      | (refine keeps_cut (w := w) (r := r) (s := x) ?_ ?_; (on_goal 2 => (intro hx; clear_value x)); unfold x; clear x)
      | (refine keeps_cut (w := w) (r := r) (s := x.1) ?_ ?_; (on_goal 2 => (intro hx; clear_value x)); unfold x; clear x)
      | clear_value x)
    | apply keeps_doIf | apply keeps_set | apply keeps_mbxLost | apply keeps_doAll | apply keeps_msgLost
    | apply keeps_linkItemLost | apply keeps_reqLost | apply keeps_stateLost | apply keeps_soloNext
    | apply keeps_rxFramesLost | apply keeps_updHeld | apply keeps_linkUpd | apply keeps_dropItems | exact ⟨rfl, rfl⟩
    | split | refine keeps_pair (by assumption) ?_ | refine keeps_mk ?_)

theorem keeps_flushTold (k : Nat) {s : State}
    (hw : Covers 0x102002F3AB w) (h : Keeps w r s) : Keeps w r (flushTold k s) := by
  unfold flushTold
  with_reducible repeat' (first
    | assumption | exact covers_of hw rfl | apply keeps_ulRaise | apply keeps_logEv | apply keeps_inc | split
    | refine keeps_pair (by assumption) ?_)

theorem keeps_ulFlush (k : Nat) {s : State}
    (hw : Covers 0x1076FEF3AB w) (h : Keeps w r s) : Keeps w r (ulFlush k s) := by
  unfold ulFlush
  with_reducible repeat' (first
    | assumption | exact covers_of hw rfl | apply keeps_updRoutes | apply keeps_ulTrain | apply keeps_flushTold
    | apply keeps_ulDiscard | split | refine keeps_pair (by assumption) ?_)

theorem keeps_narrow (k : Nat) {s : State}
    (hw : Covers 0x1000008008 w) (h : Keeps w r s) : Keeps w r (narrow k s) := by
  unfold narrow
  with_reducible repeat' (beta_reduce; first
    | assumption | exact covers_of hw rfl | (intro _)
    | (extract_lets +onlyGivenNames x; first
      | (refine keeps_cut (w := w) (r := r) (s := x) ?_ ?_; (on_goal 2 => (intro hx; clear_value x)); unfold x; clear x)
      | (refine keeps_cut (w := w) (r := r) (s := x.1) ?_ ?_; (on_goal 2 => (intro hx; clear_value x)); unfold x; clear x)
      | clear_value x)
    | apply keeps_lineUpd | apply keeps_linkUpd | apply keeps_set | apply keeps_setWord | split
    | refine keeps_pair (by assumption) ?_)

theorem keeps_ulUp (k : Nat) (i : UInit) {s : State}
    (hw : Covers 0x102002F3AB w) (h : Keeps w r s) : Keeps w r (ulUp k i s) := by
  unfold ulUp
  with_reducible repeat' (beta_reduce; first
    | assumption | exact covers_of hw rfl | (intro _)
    | (extract_lets +onlyGivenNames x; first
      | (refine keeps_cut (w := w) (r := r) (s := x) ?_ ?_; (on_goal 2 => (intro hx; clear_value x)); unfold x; clear x)
      | (refine keeps_cut (w := w) (r := r) (s := x.1) ?_ ?_; (on_goal 2 => (intro hx; clear_value x)); unfold x; clear x)
      | clear_value x)
    | apply keeps_doIf | apply keeps_logEv | apply keeps_reportDegraded | apply keeps_ulRaise | apply keeps_updRoutes
    | apply keeps_updUlShort | apply keeps_bypassStart | apply keeps_emit | apply keeps_drewOne | apply keeps_set
    | apply keeps_linkUpd | apply keeps_narrow | apply keeps_ulTo | split | refine keeps_pair (by assumption) ?_)

theorem keeps_tryUp (k : Nat) {s : State}
    (hw : Covers 0x1076FEF3AB w) (h : Keeps w r s) : Keeps w r (tryUp k s) := by
  unfold tryUp
  with_reducible repeat' (beta_reduce; first
    | assumption | exact covers_of hw rfl | (intro _) | apply keeps_ulReplay | apply keeps_ackCover | apply keeps_ulUp
    | apply keeps_ulStart | apply keeps_flushTold | apply keeps_ulDiscard | split
    | refine keeps_pair (by assumption) ?_)

theorem keeps_peerKnown (k : Nat) (m : Nat) (topo : Nat) {s : State}
    (hw : Covers 0x102002D3AB w) (h : Keeps w r s) : Keeps w r (peerKnown k m topo s) := by
  unfold peerKnown
  with_reducible repeat' (first
    | assumption | exact covers_of hw rfl | (intro _)
    | (extract_lets +onlyGivenNames x; first
      | (refine keeps_cut (w := w) (r := r) (s := x) ?_ ?_; (on_goal 2 => (intro hx; clear_value x)); unfold x; clear x)
      | (refine keeps_cut (w := w) (r := r) (s := x.1) ?_ ?_; (on_goal 2 => (intro hx; clear_value x)); unfold x; clear x)
      | clear_value x)
    | apply keeps_doIf | apply keeps_raise | apply keeps_set | split | refine keeps_pair (by assumption) ?_)

theorem keeps_execBypassInit (k : Fin 4) (back : BitVec 8) (rev : BitVec 8) (member : BitVec 8) (topo : BitVec 8) (fresh : Bool) (w4 : Bool) (credits : Word) (exp : BitVec 12) (grace : BitVec 8) (map : Word) (digest : BitVec 64) {s : State}
    (hw : Covers 0x1076FEF3AB w) (h : Keeps w r s) : Ends w r (execBypassInit k back rev member topo fresh w4 credits exp grace map digest s) := by
  unfold execBypassInit
  with_reducible repeat' (beta_reduce; first
    | assumption | exact covers_of hw rfl | (intro _)
    | (extract_lets +onlyGivenNames x; first
      | (refine keeps_cut (w := w) (r := r) (s := x) ?_ ?_; (on_goal 2 => (intro hx; clear_value x)); unfold x; clear x)
      | (refine keeps_cut (w := w) (r := r) (s := x.1) ?_ ?_; (on_goal 2 => (intro hx; clear_value x)); unfold x; clear x)
      | clear_value x)
    | apply ends_next | apply keeps_done | apply keeps_ulRaise | apply keeps_set | apply keeps_bypassAck
    | apply keeps_sendBypass | apply keeps_tryUp | apply keeps_lineUpd | apply keeps_linkUpd | apply keeps_doAll
    | apply keeps_peerKnown | split | refine keeps_pair (by assumption) ?_)

theorem keeps_execBypassInitAck (k : Fin 4) (back : BitVec 8) (epoch : BitVec 8) {s : State}
    (hw : Covers 0x1076FEF3AB w) (h : Keeps w r s) : Ends w r (execBypassInitAck k back epoch s) := by
  unfold execBypassInitAck
  with_reducible repeat' (beta_reduce; first
    | assumption | exact covers_of hw rfl | (intro _) | apply ends_next | apply keeps_done | apply keeps_bypassAck
    | apply keeps_tryUp | apply keeps_linkUpd | split | refine keeps_pair (by assumption) ?_)

theorem keeps_lpmEnds (k : Nat) {s : State}
    (hw : Covers 0x102002D3AB w) (h : Keeps w r s) : Keeps w r (lpmEnds k s) := by
  unfold lpmEnds
  with_reducible repeat' (beta_reduce; first
    | assumption | exact covers_of hw rfl | (intro _) | apply keeps_doIf | apply keeps_ulRaise | apply keeps_set
    | split | refine keeps_pair (by assumption) ?_)

theorem keeps_ulCtlEn (k : Nat) (en : Bool) {s : State}
    (hw : Covers 0x1076FEF3AB w) (h : Keeps w r s) : Keeps w r (ulCtlEn k en s) := by
  unfold ulCtlEn
  with_reducible repeat' (first
    | assumption | exact covers_of hw rfl
    | (extract_lets +onlyGivenNames x; first
      | (refine keeps_cut (w := w) (r := r) (s := x) ?_ ?_; (on_goal 2 => (intro hx; clear_value x)); unfold x; clear x)
      | (refine keeps_cut (w := w) (r := r) (s := x.1) ?_ ?_; (on_goal 2 => (intro hx; clear_value x)); unfold x; clear x)
      | clear_value x)
    | apply keeps_ulTrain | apply keeps_set | apply keeps_updRoutes | apply keeps_emit | apply keeps_lpmEnds
    | apply keeps_ulTo | apply keeps_flushTold | apply keeps_ulDiscard | split | refine keeps_pair (by assumption) ?_)

theorem keeps_execUlCtlEnWrite (k : Fin 4) (en : Bool) {s : State}
    (hw : Covers 0x1076FEF3AB w) (h : Keeps w r s) : Ends w r (execUlCtlEnWrite k en s) := by
  unfold execUlCtlEnWrite
  with_reducible repeat' (first
    | assumption | exact covers_of hw rfl | apply ends_next | apply keeps_done | apply keeps_ulCtlEn | split
    | refine keeps_pair (by assumption) ?_)

theorem keeps_execUlRetrain (k : Fin 4) {s : State}
    (hw : Covers 0x8000 w) (h : Keeps w r s) : Ends w r (execUlRetrain k s) := by
  unfold execUlRetrain
  with_reducible repeat' (beta_reduce; first
    | assumption | exact covers_of hw rfl | (intro _) | apply ends_next | apply keeps_done | apply keeps_doIf
    | apply keeps_linkUpd | apply keeps_ulDownCause | split | refine keeps_pair (by assumption) ?_)

theorem keeps_ulDown (k : Nat) (at_ : Stroke) {s : State}
    (hw : Covers 0x102002D3AB w) (h : Keeps w r s) : Keeps w r (ulDown k at_ s) := by
  unfold ulDown
  with_reducible repeat' (beta_reduce; first
    | assumption | exact covers_of hw rfl | (intro _) | apply keeps_ulRaise | apply keeps_inc | apply keeps_set
    | apply keeps_lpmEnds | apply keeps_linkUpd | apply keeps_ulTo | apply keeps_ulTrain | split
    | refine keeps_pair (by assumption) ?_)

theorem keeps_execUlLinkDown (k : Fin 4) {s : State}
    (hw : Covers 0x102002D3AB w) (h : Keeps w r s) : Ends w r (execUlLinkDown k s) := by
  unfold execUlLinkDown
  with_reducible repeat' (first
    | assumption | exact covers_of hw rfl | apply ends_next | apply keeps_done | apply keeps_ulDown | split
    | refine keeps_pair (by assumption) ?_)

theorem keeps_execUlGraceExpiry (k : Fin 4) {s : State}
    (hw : Covers 0x1076FEF3AB w) (h : Keeps w r s) : Ends w r (execUlGraceExpiry k s) := by
  unfold execUlGraceExpiry
  with_reducible repeat' (first
    | assumption | exact covers_of hw rfl | apply ends_next | apply keeps_done | apply keeps_ulFlush | split
    | refine keeps_pair (by assumption) ?_)

theorem keeps_shiftStart (k : Nat) (lane : Nat) (spare : Nat) {s : State}
    (hw : Covers 0x102002F3AB w) (h : Keeps w r s) : Keeps w r (shiftStart k lane spare s) := by
  unfold shiftStart
  with_reducible repeat' (beta_reduce; first
    | assumption | exact covers_of hw rfl | (intro _)
    | (extract_lets +onlyGivenNames x; first
      | (refine keeps_cut (w := w) (r := r) (s := x) ?_ ?_; (on_goal 2 => (intro hx; clear_value x)); unfold x; clear x)
      | (refine keeps_cut (w := w) (r := r) (s := x.1) ?_ ?_; (on_goal 2 => (intro hx; clear_value x)); unfold x; clear x)
      | clear_value x)
    | apply keeps_reportCie | apply keeps_sendBypass | apply keeps_ulLinkError | apply keeps_logEv
    | apply keeps_ulRaise | apply keeps_linkUpd | apply keeps_inc | apply keeps_set | split
    | refine keeps_pair (by assumption) ?_)

theorem keeps_laneFault (k : Nat) (lane : Nat) {s : State}
    (hw : Covers 0x102002F3AB w) (h : Keeps w r s) : Keeps w r (laneFault k lane s) := by
  unfold laneFault
  with_reducible repeat' (beta_reduce; first
    | assumption | exact covers_of hw rfl | (intro _)
    | (extract_lets +onlyGivenNames x; first
      | (refine keeps_cut (w := w) (r := r) (s := x) ?_ ?_; (on_goal 2 => (intro hx; clear_value x)); unfold x; clear x)
      | (refine keeps_cut (w := w) (r := r) (s := x.1) ?_ ?_; (on_goal 2 => (intro hx; clear_value x)); unfold x; clear x)
      | clear_value x)
    | apply keeps_doIf | apply keeps_ulLinkError | apply keeps_set | apply keeps_ulDownCause | apply keeps_shiftStart
    | split | refine keeps_pair (by assumption) ?_)

theorem keeps_execUlLaneFault (k : Fin 4) (lane : Fin 9) {s : State}
    (hw : Covers 0x102002F3AB w) (h : Keeps w r s) : Ends w r (execUlLaneFault k lane s) := by
  unfold execUlLaneFault
  with_reducible repeat' (beta_reduce; first
    | assumption | exact covers_of hw rfl | (intro _) | apply ends_next | apply keeps_done | apply keeps_laneFault
    | apply keeps_doIf | apply keeps_set | split | refine keeps_pair (by assumption) ?_)

theorem keeps_blockError (k : Nat) (p : Nat) (sync : Bool) {s : State}
    (hw : Covers 0x102002F3AB w) (h : Keeps w r s) : Keeps w r (blockError k p sync s) := by
  unfold blockError
  with_reducible repeat' (beta_reduce; first
    | assumption | exact covers_of hw rfl | (intro _)
    | (extract_lets +onlyGivenNames x; first
      | (refine keeps_cut (w := w) (r := r) (s := x) ?_ ?_; (on_goal 2 => (intro hx; clear_value x)); unfold x; clear x)
      | (refine keeps_cut (w := w) (r := r) (s := x.1) ?_ ?_; (on_goal 2 => (intro hx; clear_value x)); unfold x; clear x)
      | clear_value x)
    | apply keeps_doIf | apply keeps_laneFault | apply keeps_ulLinkError | apply keeps_linkUpd | apply keeps_inc
    | split | refine keeps_pair (by assumption) ?_)

theorem keeps_execUlLinkError (k : Fin 4) (e : UlError) {s : State}
    (hw : Covers 0x102002F3AB w) (h : Keeps w r s) : Ends w r (execUlLinkError k e s) := by
  unfold execUlLinkError
  with_reducible repeat' (beta_reduce; first
    | assumption | exact covers_of hw rfl | (intro _) | apply ends_next | apply keeps_done | apply keeps_ulLinkError
    | apply keeps_inc | apply keeps_blockError | split | refine keeps_pair (by assumption) ?_)

theorem keeps_execBypassShiftReq (k : Fin 4) (bseq : BitVec 8) (back : BitVec 8) (lane : BitVec 8) (epoch : BitVec 8) (map : Word) {s : State}
    (hw : Covers 0x103002F3AB w) (h : Keeps w r s) : Ends w r (execBypassShiftReq k bseq back lane epoch map s) := by
  unfold execBypassShiftReq
  with_reducible repeat' (beta_reduce; first
    | assumption | exact covers_of hw rfl | (intro _) | apply ends_next | apply keeps_bypassSeq | apply keeps_done
    | apply keeps_ulReplay | apply keeps_logEv | apply keeps_set | apply keeps_lineUpd | apply keeps_markerRow
    | apply keeps_linkUpd | split | refine keeps_pair (by assumption) ?_)

theorem keeps_mapShifts (k : Nat) (epoch : Nat) (lanes : Nat) {s : State}
    (hw : Covers 0x8008 w) (h : Keeps w r s) : Keeps w r (mapShifts k epoch lanes s) := by
  unfold mapShifts
  with_reducible repeat' (beta_reduce; first
    | assumption | exact covers_of hw rfl | (intro _) | apply keeps_linkUpd | apply keeps_set | apply keeps_setWord
    | split | refine keeps_pair (by assumption) ?_)

theorem keeps_execMarkerRowReceive (k : Fin 4) (epoch : BitVec 8) (lanes : Fin 10) (flags : BitVec 8) (wrong : BitVec 9) {s : State}
    (hw : Covers 0x102002F3AB w) (h : Keeps w r s) : Ends w r (execMarkerRowReceive k epoch lanes flags wrong s) := by
  unfold execMarkerRowReceive
  with_reducible repeat' (beta_reduce; first
    | assumption | exact covers_of hw rfl | (intro _)
    | (extract_lets +onlyGivenNames x; first
      | (refine keeps_cut (w := w) (r := r) (s := x) ?_ ?_; (on_goal 2 => (intro hx; clear_value x)); unfold x; clear x)
      | (refine keeps_cut (w := w) (r := r) (s := x.1) ?_ ?_; (on_goal 2 => (intro hx; clear_value x)); unfold x; clear x)
      | clear_value x)
    | apply ends_next | apply keeps_done | apply keeps_doAll | apply keeps_laneFault | apply keeps_doIf
    | apply keeps_lpmLeave | apply keeps_mapShifts | apply keeps_linkUpd | split
    | refine keeps_pair (by assumption) ?_)

theorem keeps_windowsClose (k : Nat) {s : State}
    (hw : Covers 0x8 w) (h : Keeps w r s) : Keeps w r (windowsClose k s) := by
  unfold windowsClose
  with_reducible repeat' (first
    | assumption | exact covers_of hw rfl
    | (extract_lets +onlyGivenNames x; first
      | (refine keeps_cut (w := w) (r := r) (s := x) ?_ ?_; (on_goal 2 => (intro hx; clear_value x)); unfold x; clear x)
      | (refine keeps_cut (w := w) (r := r) (s := x.1) ?_ ?_; (on_goal 2 => (intro hx; clear_value x)); unfold x; clear x)
      | clear_value x)
    | apply keeps_set | split | refine keeps_pair (by assumption) ?_)

theorem keeps_execBypassDelayReq (k : Fin 4) (back : BitVec 8) (sent : BitVec 64) (recv : BitVec 64) (turn : Word) {s : State}
    (hw : Covers 0x1010008003 w) (h : Keeps w r s) : Ends w r (execBypassDelayReq k back sent recv turn s) := by
  unfold execBypassDelayReq
  with_reducible repeat' (first
    | assumption | exact covers_of hw rfl | apply ends_next | apply keeps_done | apply keeps_sendBypass
    | apply keeps_bypassAck | split | refine keeps_pair (by assumption) ?_)

theorem keeps_execBypassDelayResp (k : Fin 4) (back : BitVec 8) (sent : BitVec 64) (now_ : BitVec 64) (turn : Word) {s : State}
    (hw : Covers 0x101000800B w) (h : Keeps w r s) : Ends w r (execBypassDelayResp k back sent now_ turn s) := by
  unfold execBypassDelayResp
  with_reducible repeat' (first
    | assumption | exact covers_of hw rfl | apply ends_next | apply keeps_done | apply keeps_set
    | apply keeps_bypassAck | split | refine keeps_pair (by assumption) ?_)

theorem keeps_execDelayReqSend (k : Fin 4) (t : BitVec 64) {s : State}
    (hw : Covers 0x1000008003 w) (h : Keeps w r s) : Ends w r (execDelayReqSend k t s) := by
  unfold execDelayReqSend
  with_reducible repeat' (beta_reduce; first
    | assumption | exact covers_of hw rfl | (intro _) | apply ends_next | apply keeps_done | apply keeps_sendBypass
    | apply keeps_linkUpd | split | refine keeps_pair (by assumption) ?_)

theorem keeps_onMsg (k : Nat) (p : UMsg → Bool) (f : UMsg → State → State) {s : State}
    (hf : ∀ (x0 : UMsg) (s : State), Keeps w r s → Keeps w r (f x0 s)) (hw : Covers 0x8000 w) (h : Keeps w r s) : Ends w r (onMsg k p f s) := by
  unfold onMsg
  with_reducible repeat' (beta_reduce; first
    | assumption | exact covers_of hw rfl | (intro _) | apply ends_next | apply hf | apply keeps_done
    | apply keeps_ulFree | apply keeps_linkUpd | split | refine keeps_pair (by assumption) ?_)

theorem keeps_peerRefused (m : UMsg) (cause : Nat) (guard : Nat) {s : State}
    (hw : Covers 0x102042D3AB w) (h : Keeps w r s) : Keeps w r (peerRefused m cause guard s) := by
  unfold peerRefused
  with_reducible repeat' (first
    | assumption | exact covers_of hw rfl | apply keeps_peerAns | apply keeps_raise | apply keeps_inc
    | apply keeps_accVlog | split | refine keeps_pair (by assumption) ?_)

theorem keeps_peerChecked (f : Option Nat → WinMap → State → State) (m : UMsg) {s : State}
    (hf : ∀ (x0 : Option Nat) (x1 : WinMap) (s : State), Keeps w r s → Keeps w r (f x0 x1 s)) (hw : Covers 0x102042D3AB w) (h : Keeps w r s) : Keeps w r (peerChecked f m s) := by
  unfold peerChecked
  with_reducible repeat' (beta_reduce; first
    | assumption | exact covers_of hw rfl | (intro _) | apply hf | apply keeps_peerAns | apply keeps_peerRefused
    | split | refine keeps_pair (by assumption) ?_)

theorem keeps_peerToPort (m : UMsg) (pkt : Pkt) (bytes : Nat) (w0 : WinMap) {s : State}
    (hw : Covers 0x400000 w) (h : Keeps w r s) : Keeps w r (peerToPort m pkt bytes w0 s) := by
  unfold peerToPort
  with_reducible repeat' (first
    | assumption | exact covers_of hw rfl
    | (extract_lets +onlyGivenNames x; first
      | (refine keeps_cut (w := w) (r := r) (s := x) ?_ ?_; (on_goal 2 => (intro hx; clear_value x)); unfold x; clear x)
      | (refine keeps_cut (w := w) (r := r) (s := x.1) ?_ ?_; (on_goal 2 => (intro hx; clear_value x)); unfold x; clear x)
      | clear_value x)
    | apply keeps_addItem | apply keeps_peerAns | split | refine keeps_pair (by assumption) ?_)

theorem keeps_peerToStore (m : UMsg) (bytes : Nat) (apt : Option Nat) {s : State}
    (hw : Covers 0x400000 w) (h : Keeps w r s) : Keeps w r (peerToStore m bytes apt s) := by
  unfold peerToStore
  with_reducible repeat' (beta_reduce; first
    | assumption | exact covers_of hw rfl | (intro _) | apply keeps_addItem | apply keeps_peerAns | split
    | refine keeps_pair (by assumption) ?_)

theorem keeps_execUlWriteReceive (k : Fin 4) {s : State}
    (hw : Covers 0x102042D3AB w) (h : Keeps w r s) : Ends w r (execUlWriteReceive k s) := by
  unfold execUlWriteReceive
  with_reducible repeat' (beta_reduce; first
    | assumption | exact covers_of hw rfl | (intro _) | apply ends_next | apply keeps_onMsg | apply keeps_peerChecked
    | apply keeps_peerToStore | apply keeps_peerToPort | split | refine keeps_pair (by assumption) ?_)

theorem keeps_execUlReadReceive (k : Fin 4) {s : State}
    (hw : Covers 0x102042D3AB w) (h : Keeps w r s) : Ends w r (execUlReadReceive k s) := by
  unfold execUlReadReceive
  with_reducible repeat' (beta_reduce; first
    | assumption | exact covers_of hw rfl | (intro _) | apply ends_next | apply keeps_onMsg | apply keeps_peerChecked
    | apply keeps_peerToStore | apply keeps_peerToPort | split | refine keeps_pair (by assumption) ?_)

theorem keeps_execUlAtomicReceive (k : Fin 4) {s : State}
    (hw : Covers 0x102042D3AB w) (h : Keeps w r s) : Ends w r (execUlAtomicReceive k s) := by
  unfold execUlAtomicReceive
  with_reducible repeat' (beta_reduce; first
    | assumption | exact covers_of hw rfl | (intro _) | apply ends_next | apply keeps_onMsg | apply keeps_peerChecked
    | apply keeps_peerAns | apply keeps_peerToPort | split | refine keeps_pair (by assumption) ?_)

theorem keeps_peerStoreRun (m : UMsg) (a : Nat) {s : State}
    (hw : Covers 0x10226ED3AB w) (h : Keeps w r s) : Keeps w r (peerStoreRun m a s) := by
  unfold peerStoreRun
  with_reducible repeat' (beta_reduce; first
    | assumption | exact covers_of hw rfl | (intro _)
    | (extract_lets +onlyGivenNames x; first
      | (refine keeps_cut (w := w) (r := r) (s := x) ?_ ?_; (on_goal 2 => (intro hx; clear_value x)); unfold x; clear x)
      | (refine keeps_cut (w := w) (r := r) (s := x.1) ?_ ?_; (on_goal 2 => (intro hx; clear_value x)); unfold x; clear x)
      | clear_value x)
    | apply keeps_waitAdmission | apply keeps_peerAns | apply keeps_lookupAll | split
    | refine keeps_pair (by assumption) ?_)

theorem keeps_routedMsgHere (m : UMsg) {s : State}
    (hw : Covers 0x480008 w) (h : Keeps w r s) : Keeps w r (routedMsgHere m s) := by
  unfold routedMsgHere
  with_reducible repeat' (first
    | assumption | exact covers_of hw rfl
    | (extract_lets +onlyGivenNames x; first
      | (refine keeps_cut (w := w) (r := r) (s := x) ?_ ?_; (on_goal 2 => (intro hx; clear_value x)); unfold x; clear x)
      | (refine keeps_cut (w := w) (r := r) (s := x.1) ?_ ?_; (on_goal 2 => (intro hx; clear_value x)); unfold x; clear x)
      | clear_value x)
    | apply keeps_addItem | apply keeps_countDrop | split | refine keeps_pair (by assumption) ?_)

theorem keeps_routedSegHere (m : UMsg) {s : State}
    (hw : Covers 0x580008 w) (h : Keeps w r s) : Keeps w r (routedSegHere m s) := by
  unfold routedSegHere
  with_reducible repeat' (beta_reduce; first
    | assumption | exact covers_of hw rfl | (intro _)
    | (extract_lets +onlyGivenNames x; first
      | (refine keeps_cut (w := w) (r := r) (s := x) ?_ ?_; (on_goal 2 => (intro hx; clear_value x)); unfold x; clear x)
      | (refine keeps_cut (w := w) (r := r) (s := x.1) ?_ ?_; (on_goal 2 => (intro hx; clear_value x)); unfold x; clear x)
      | clear_value x)
    | apply keeps_lbUpd | apply keeps_framesLost | apply keeps_countDrop | apply keeps_doIf | apply keeps_addItem
    | split | refine keeps_pair (by assumption) ?_)

theorem keeps_routedHere (m : UMsg) {s : State}
    (hw : Covers 0x580008 w) (h : Keeps w r s) : Keeps w r (routedHere m s) := by
  unfold routedHere
  with_reducible repeat' (first
    | assumption | exact covers_of hw rfl | apply keeps_routedSegHere | apply keeps_routedMsgHere | split
    | refine keeps_pair (by assumption) ?_)

theorem keeps_sendHere (m : UMsg) {s : State}
    (hw : Covers 0x102042D3AB w) (h : Keeps w r s) : Keeps w r (sendHere m s) := by
  unfold sendHere
  with_reducible repeat' (beta_reduce; first
    | assumption | exact covers_of hw rfl | (intro _)
    | (extract_lets +onlyGivenNames x; first
      | (refine keeps_cut (w := w) (r := r) (s := x) ?_ ?_; (on_goal 2 => (intro hx; clear_value x)); unfold x; clear x)
      | (refine keeps_cut (w := w) (r := r) (s := x.1) ?_ ?_; (on_goal 2 => (intro hx; clear_value x)); unfold x; clear x)
      | clear_value x)
    | apply keeps_peerChecked | apply keeps_addItem | apply keeps_peerAns | split
    | refine keeps_pair (by assumption) ?_)

theorem keeps_execUlRoutedReceive (k : Fin 4) {s : State}
    (hw : Covers 0x10205AD3AB w) (h : Keeps w r s) : Ends w r (execUlRoutedReceive k s) := by
  unfold execUlRoutedReceive
  with_reducible repeat' (beta_reduce; first
    | assumption | exact covers_of hw rfl | (intro _) | apply ends_next | apply keeps_onMsg | apply keeps_sendHere
    | apply keeps_routedHere | split | refine keeps_pair (by assumption) ?_)

theorem keeps_mirrorIn (m : UMsg) (a : Nat) {s : State}
    (hw : Covers 0x400000 w) (h : Keeps w r s) : Keeps w r (mirrorIn m a s) := by
  unfold mirrorIn
  with_reducible repeat' (first
    | assumption | exact covers_of hw rfl | apply keeps_addItem | split | refine keeps_pair (by assumption) ?_)

theorem keeps_execMirrorWriteReceive (k : Fin 4) {s : State}
    (hw : Covers 0x408000 w) (h : Keeps w r s) : Ends w r (execMirrorWriteReceive k s) := by
  unfold execMirrorWriteReceive
  with_reducible repeat' (beta_reduce; first
    | assumption | exact covers_of hw rfl | (intro _) | apply ends_next | apply keeps_onMsg | apply keeps_mirrorIn
    | apply keeps_peerAns | split | refine keeps_pair (by assumption) ?_)

theorem keeps_reqEnds (j : Nat) (tag : Nat) {s : State}
    (hw : Covers 0x8000 w) (h : Keeps w r s) : Keeps w r (reqEnds j tag s) := by
  unfold reqEnds
  with_reducible repeat' (beta_reduce; first
    | assumption | exact covers_of hw rfl | (intro _)
    | (extract_lets +onlyGivenNames x; first
      | (refine keeps_cut (w := w) (r := r) (s := x) ?_ ?_; (on_goal 2 => (intro hx; clear_value x)); unfold x; clear x)
      | (refine keeps_cut (w := w) (r := r) (s := x.1) ?_ ?_; (on_goal 2 => (intro hx; clear_value x)); unfold x; clear x)
      | clear_value x)
    | apply keeps_linkUpd | apply keeps_sendTagged | split | refine keeps_pair (by assumption) ?_)

theorem keeps_execMirrorAckReceive (k : Fin 4) {s : State}
    (hw : Covers 0x2408008 w) (h : Keeps w r s) : Ends w r (execMirrorAckReceive k s) := by
  unfold execMirrorAckReceive
  with_reducible repeat' (beta_reduce; first
    | assumption | exact covers_of hw rfl | (intro _) | apply ends_next | apply keeps_onMsg | apply keeps_mirrorAcked
    | apply keeps_reqEnds | split | refine keeps_pair (by assumption) ?_)

theorem keeps_execMessageForward (k : Fin 4) {s : State}
    (hw : Covers 0x488008 w) (h : Keeps w r s) : Ends w r (execMessageForward k s) := by
  unfold execMessageForward
  with_reducible repeat' (beta_reduce; first
    | assumption | exact covers_of hw rfl | (intro _) | apply ends_next | apply keeps_onMsg | apply keeps_addItem
    | apply keeps_peerAns | apply keeps_routedDrop | split | refine keeps_pair (by assumption) ?_)

end Sys2Proof.Machine
end

