-- ==== Sys2Proof/Laws/KeepsPeloton.lean ====
section
/-! SUPPORT. Laws/KeepsPeloton.lean: what every operation may change and what it keeps: peloton, sleep, forwarding, photo-finish views, firmware. -/
namespace Sys2Proof.Machine

set_option Elab.async false
set_option linter.unusedTactic false
set_option linter.unreachableTactic false
set_option linter.unusedVariables false

variable {w : Nat} {r : State}

theorem keeps_pelUpd (f : Pel → Pel) {s : State}
    (hw : Covers 0x40000000 w) (h : Keeps w r s) : Keeps w r (State.pelUpd s f) := by
  unfold State.pelUpd
  with_reducible repeat' (first
    | assumption | exact covers_of hw rfl | exact ⟨rfl, rfl⟩ | split | refine keeps_pair (by assumption) ?_
    | refine keeps_mk ?_)

theorem keeps_viewMoves (old : Nat) (new : Nat) {s : State}
    (hw : Covers 0x40000000 w) (h : Keeps w r s) : Keeps w r (viewMoves old new s) := by
  unfold viewMoves
  with_reducible repeat' (beta_reduce; first
    | assumption | exact covers_of hw rfl | (intro _)
    | (extract_lets +onlyGivenNames x; first
      | (refine keeps_cut (w := w) (r := r) (s := x) ?_ ?_; (on_goal 2 => (intro hx; clear_value x)); unfold x; clear x)
      | (refine keeps_cut (w := w) (r := r) (s := x.1) ?_ ?_; (on_goal 2 => (intro hx; clear_value x)); unfold x; clear x)
      | clear_value x)
    | apply keeps_pelUpd | split | refine keeps_pair (by assumption) ?_)

theorem keeps_setView (epoch : Nat) (joined : Nat) {s : State}
    (hw : Covers 0x106042D3AB w) (h : Keeps w r s) : Keeps w r (setView epoch joined s) := by
  unfold setView
  with_reducible repeat' (first
    | assumption | exact covers_of hw rfl | apply keeps_followStep | apply keeps_raise | apply keeps_inc
    | apply keeps_set | apply keeps_viewMoves | split | refine keeps_pair (by assumption) ?_)

theorem keeps_stateAns (m : UMsg) (ok : Bool) {s : State}
    (hw : Covers 0x8000 w) (h : Keeps w r s) : Keeps w r (stateAns m ok s) := by
  unfold stateAns
  with_reducible repeat' (first
    | assumption | exact covers_of hw rfl
    | (extract_lets +onlyGivenNames x; first
      | (refine keeps_cut (w := w) (r := r) (s := x) ?_ ?_; (on_goal 2 => (intro hx; clear_value x)); unfold x; clear x)
      | (refine keeps_cut (w := w) (r := r) (s := x.1) ?_ ?_; (on_goal 2 => (intro hx; clear_value x)); unfold x; clear x)
      | clear_value x)
    | apply keeps_sendTo | split | refine keeps_pair (by assumption) ?_)

theorem keeps_stateTo (t : Nat) (data : List Byte) (m : Nat) {s : State}
    (hw : Covers 0x40008000 w) (h : Keeps w r s) : Keeps w r (stateTo t data m s) := by
  unfold stateTo
  with_reducible repeat' (first
    | assumption | exact covers_of hw rfl | apply keeps_sendState | split | refine keeps_pair (by assumption) ?_)

theorem keeps_sendViews (lead : Bool) {s : State}
    (hw : Covers 0x40008000 w) (h : Keeps w r s) : Keeps w r (sendViews lead s) := by
  unfold sendViews
  with_reducible repeat' (beta_reduce; first
    | assumption | exact covers_of hw rfl | (intro _) | apply keeps_pelUpd | apply keeps_doAll | apply keeps_stateTo
    | split | refine keeps_pair (by assumption) ?_)

theorem keeps_execViewSend {s : State}
    (hw : Covers 0x40008000 w) (h : Keeps w r s) : Ends w r (execViewSend s) := by
  unfold execViewSend
  with_reducible repeat' (first
    | assumption | exact covers_of hw rfl | apply ends_next | apply keeps_done | apply keeps_sendViews | split
    | refine keeps_pair (by assumption) ?_)

theorem keeps_execStateView (k : Fin 4) {s : State}
    (hw : Covers 0x106042D3AB w) (h : Keeps w r s) : Ends w r (execStateView k s) := by
  unfold execStateView
  with_reducible repeat' (beta_reduce; first
    | assumption | exact covers_of hw rfl | (intro _)
    | (extract_lets +onlyGivenNames x; first
      | (refine keeps_cut (w := w) (r := r) (s := x) ?_ ?_; (on_goal 2 => (intro hx; clear_value x)); unfold x; clear x)
      | (refine keeps_cut (w := w) (r := r) (s := x.1) ?_ ?_; (on_goal 2 => (intro hx; clear_value x)); unfold x; clear x)
      | clear_value x)
    | apply ends_next | apply keeps_onMsg | apply keeps_stateAns | apply keeps_updRoutes | apply keeps_doIf
    | apply keeps_pelUpd | apply keeps_setView | split | refine keeps_pair (by assumption) ?_)

theorem keeps_execJoinSend (k : Fin 4) (dst : Fin 8) {s : State}
    (hw : Covers 0x40008000 w) (h : Keeps w r s) : Ends w r (execJoinSend k dst s) := by
  unfold execJoinSend
  with_reducible repeat' (beta_reduce; first
    | assumption | exact covers_of hw rfl | (intro _) | apply ends_next | apply keeps_done | apply keeps_pelUpd
    | apply keeps_sendReq | split | refine keeps_pair (by assumption) ?_)

theorem keeps_execStateJoin (k : Fin 4) {s : State}
    (hw : Covers 0x106042D3AB w) (h : Keeps w r s) : Ends w r (execStateJoin k s) := by
  unfold execStateJoin
  with_reducible repeat' (beta_reduce; first
    | assumption | exact covers_of hw rfl | (intro _)
    | (extract_lets +onlyGivenNames x; first
      | (refine keeps_cut (w := w) (r := r) (s := x) ?_ ?_; (on_goal 2 => (intro hx; clear_value x)); unfold x; clear x)
      | (refine keeps_cut (w := w) (r := r) (s := x.1) ?_ ?_; (on_goal 2 => (intro hx; clear_value x)); unfold x; clear x)
      | clear_value x)
    | apply ends_next | apply keeps_onMsg | apply keeps_sendViews | apply keeps_stateAns | apply keeps_updRoutes
    | apply keeps_setView | split | refine keeps_pair (by assumption) ?_)

theorem keeps_execJoinWaitExpiry {s : State}
    (hw : Covers 0x106042D3AB w) (h : Keeps w r s) : Ends w r (execJoinWaitExpiry s) := by
  unfold execJoinWaitExpiry
  with_reducible repeat' (beta_reduce; first
    | assumption | exact covers_of hw rfl | (intro _)
    | (extract_lets +onlyGivenNames x; first
      | (refine keeps_cut (w := w) (r := r) (s := x) ?_ ?_; (on_goal 2 => (intro hx; clear_value x)); unfold x; clear x)
      | (refine keeps_cut (w := w) (r := r) (s := x.1) ?_ ?_; (on_goal 2 => (intro hx; clear_value x)); unfold x; clear x)
      | clear_value x)
    | apply ends_next | apply keeps_done | apply keeps_doIf | apply keeps_raise | apply keeps_setView
    | apply keeps_set | split | refine keeps_pair (by assumption) ?_)

theorem keeps_splitLink (k : Nat) {s : State}
    (hw : Covers 0x40000008 w) (h : Keeps w r s) : Keeps w r (splitLink k s) := by
  unfold splitLink
  with_reducible repeat' (beta_reduce; first
    | assumption | exact covers_of hw rfl | (intro _) | apply keeps_updRoutes | apply keeps_pelUpd | split
    | refine keeps_pair (by assumption) ?_)

theorem keeps_execPelotonSplit (k : Fin 4) (leader : Fin 8) {s : State}
    (hw : Covers 0x106002D3AB w) (h : Keeps w r s) : Ends w r (execPelotonSplit k leader s) := by
  unfold execPelotonSplit
  with_reducible repeat' (beta_reduce; first
    | assumption | exact covers_of hw rfl | (intro _)
    | (extract_lets +onlyGivenNames x; first
      | (refine keeps_cut (w := w) (r := r) (s := x) ?_ ?_; (on_goal 2 => (intro hx; clear_value x)); unfold x; clear x)
      | (refine keeps_cut (w := w) (r := r) (s := x.1) ?_ ?_; (on_goal 2 => (intro hx; clear_value x)); unfold x; clear x)
      | clear_value x)
    | apply ends_next | apply keeps_done | apply keeps_doIf | apply keeps_raise | apply keeps_set
    | apply keeps_splitLink | split | refine keeps_pair (by assumption) ?_)

theorem keeps_alignLost {s : State}
    (hw : Covers 0x102002D3AB w) (h : Keeps w r s) : Keeps w r (alignLost s) := by
  unfold alignLost
  with_reducible repeat' (first
    | assumption | exact covers_of hw rfl | apply keeps_raise | apply keeps_inc | apply keeps_set | split
    | refine keeps_pair (by assumption) ?_)

theorem keeps_alignGained {s : State}
    (hw : Covers 0x102002D3AB w) (h : Keeps w r s) : Keeps w r (alignGained s) := by
  unfold alignGained
  with_reducible repeat' (first
    | assumption | exact covers_of hw rfl | apply keeps_raise | apply keeps_set | split
    | refine keeps_pair (by assumption) ?_)

theorem keeps_alignLeader {s : State}
    (hw : Covers 0x102002D3AB w) (h : Keeps w r s) : Keeps w r (alignLeader s) := by
  unfold alignLeader
  with_reducible repeat' (first
    | assumption | exact covers_of hw rfl | apply keeps_raise | apply keeps_set | split
    | refine keeps_pair (by assumption) ?_)

theorem keeps_execBypassStroke (k : Fin 4) (back : BitVec 8) (stroke : Stroke) (leader : Fin 8) (hops : BitVec 8) (phase : BitVec 16) (skew : BitVec 8) {s : State}
    (hw : Covers 0x107042D3AB w) (h : Keeps w r s) : Ends w r (execBypassStroke k back stroke leader hops phase skew s) := by
  unfold execBypassStroke
  with_reducible repeat' (beta_reduce; first
    | assumption | exact covers_of hw rfl | (intro _)
    | (extract_lets +onlyGivenNames x; first
      | (refine keeps_cut (w := w) (r := r) (s := x) ?_ ?_; (on_goal 2 => (intro hx; clear_value x)); unfold x; clear x)
      | (refine keeps_cut (w := w) (r := r) (s := x.1) ?_ ?_; (on_goal 2 => (intro hx; clear_value x)); unfold x; clear x)
      | clear_value x)
    | apply ends_next | apply keeps_done | apply keeps_doIf | apply keeps_pelUpd | apply keeps_alignLost
    | apply keeps_alignGained | apply keeps_cadUpd | apply keeps_set | apply keeps_bypassAck | split
    | refine keeps_pair (by assumption) ?_)

theorem keeps_strokeMarker (k : Nat) {s : State}
    (hw : Covers 0x1000008003 w) (h : Keeps w r s) : Keeps w r (strokeMarker k s) := by
  unfold strokeMarker
  with_reducible repeat' (first
    | assumption | exact covers_of hw rfl | apply keeps_drewOne | apply keeps_sendBypass | split
    | refine keeps_pair (by assumption) ?_)

theorem keeps_markStep {s : State}
    (hw : Covers 0x400000 w) (h : Keeps w r s) : Keeps w r (markStep s) := by
  unfold markStep
  with_reducible repeat' (beta_reduce; first
    | assumption | exact covers_of hw rfl | (intro _) | apply keeps_cadUpd | split
    | refine keeps_pair (by assumption) ?_)

theorem keeps_alignStep {s : State}
    (hw : Covers 0x106042D3AF w) (h : Keeps w r s) : Keeps w r (alignStep s) := by
  unfold alignStep
  with_reducible repeat' (beta_reduce; first
    | assumption | exact covers_of hw rfl | (intro _)
    | (extract_lets +onlyGivenNames x; first
      | (refine keeps_cut (w := w) (r := r) (s := x) ?_ ?_; (on_goal 2 => (intro hx; clear_value x)); unfold x; clear x)
      | (refine keeps_cut (w := w) (r := r) (s := x.1) ?_ ?_; (on_goal 2 => (intro hx; clear_value x)); unfold x; clear x)
      | clear_value x)
    | apply keeps_doIf | apply keeps_doAll | apply keeps_strokeMarker | apply keeps_followStep | apply keeps_raise
    | apply keeps_set | apply keeps_pelUpd | apply keeps_alignLost | apply keeps_alignGained | apply keeps_alignLeader
    | apply keeps_markStep | exact ⟨rfl, rfl⟩ | split | refine keeps_pair (by assumption) ?_ | refine keeps_mk ?_)

theorem keeps_dropRequests (m : Nat) {s : State}
    (hw : Covers 0x1070EED3AB w) (h : Keeps w r s) : Keeps w r (dropRequests m s) := by
  unfold dropRequests
  with_reducible repeat' (beta_reduce; first
    | assumption | exact covers_of hw rfl | (intro _)
    | (extract_lets +onlyGivenNames x; first
      | (refine keeps_cut (w := w) (r := r) (s := x) ?_ ?_; (on_goal 2 => (intro hx; clear_value x)); unfold x; clear x)
      | (refine keeps_cut (w := w) (r := r) (s := x.1) ?_ ?_; (on_goal 2 => (intro hx; clear_value x)); unfold x; clear x)
      | clear_value x)
    | apply keeps_doAll | apply keeps_answer | apply keeps_msgLost | apply keeps_stateLost | apply keeps_linkUpd
    | apply keeps_dropItems | split | refine keeps_pair (by assumption) ?_)

theorem keeps_lose (m : Nat) (at_ : Stroke) {s : State}
    (hw : Covers 0x1072EEF3AB w) (h : Keeps w r s) : Keeps w r (lose m at_ s) := by
  unfold lose
  with_reducible repeat' (beta_reduce; first
    | assumption | exact covers_of hw rfl | (intro _)
    | (extract_lets +onlyGivenNames x; first
      | (refine keeps_cut (w := w) (r := r) (s := x) ?_ ?_; (on_goal 2 => (intro hx; clear_value x)); unfold x; clear x)
      | (refine keeps_cut (w := w) (r := r) (s := x.1) ?_ ?_; (on_goal 2 => (intro hx; clear_value x)); unfold x; clear x)
      | clear_value x)
    | apply keeps_updRoutes | apply keeps_doIf | apply keeps_sendViews | apply keeps_setView | apply keeps_followStep
    | apply keeps_set | apply keeps_logEv | apply keeps_raise | apply keeps_inc | apply keeps_dropRequests
    | apply keeps_soloNext | apply keeps_pelUpd | split | refine keeps_pair (by assumption) ?_)

theorem keeps_execMemberLoss (m : Fin 8) {s : State}
    (hw : Covers 0x10000 w) (h : Keeps w r s) : Ends w r (execMemberLoss m s) := by
  unfold execMemberLoss
  with_reducible repeat' (first
    | assumption | exact covers_of hw rfl | (intro _) | apply ends_next | apply keeps_done | apply keeps_doIf
    | apply keeps_atBoundary | split | refine keeps_pair (by assumption) ?_)

theorem keeps_execStateLeave (k : Fin 4) {s : State}
    (hw : Covers 0x40008000 w) (h : Keeps w r s) : Ends w r (execStateLeave k s) := by
  unfold execStateLeave
  with_reducible repeat' (beta_reduce; first
    | assumption | exact covers_of hw rfl | (intro _) | apply ends_next | apply keeps_onMsg | apply keeps_stateAns
    | apply keeps_pelUpd | split | refine keeps_pair (by assumption) ?_)

theorem keeps_sendLeave (cause : Nat) {s : State}
    (hw : Covers 0x8000 w) (h : Keeps w r s) : Keeps w r (sendLeave cause s) := by
  unfold sendLeave
  with_reducible repeat' (beta_reduce; first
    | assumption | exact covers_of hw rfl | (intro _)
    | (extract_lets +onlyGivenNames x; first
      | (refine keeps_cut (w := w) (r := r) (s := x) ?_ ?_; (on_goal 2 => (intro hx; clear_value x)); unfold x; clear x)
      | (refine keeps_cut (w := w) (r := r) (s := x.1) ?_ ?_; (on_goal 2 => (intro hx; clear_value x)); unfold x; clear x)
      | clear_value x)
    | apply keeps_doAll | apply keeps_linkUpd | split | refine keeps_pair (by assumption) ?_)

theorem keeps_ctxMoved (c : Nat) {s : State}
    (hw : Covers 0x1032FED3AB w) (h : Keeps w r s) : Keeps w r (ctxMoved c s) := by
  unfold ctxMoved
  with_reducible repeat' (beta_reduce; first
    | assumption | exact covers_of hw rfl | (intro _)
    | (extract_lets +onlyGivenNames x; first
      | (refine keeps_cut (w := w) (r := r) (s := x) ?_ ?_; (on_goal 2 => (intro hx; clear_value x)); unfold x; clear x)
      | (refine keeps_cut (w := w) (r := r) (s := x.1) ?_ ?_; (on_goal 2 => (intro hx; clear_value x)); unfold x; clear x)
      | clear_value x)
    | apply keeps_doAll | apply keeps_cmdDone | apply keeps_set | apply keeps_ctxUpd | apply keeps_shareGone
    | apply keeps_detachOf | apply keeps_winUnmapApply | apply keeps_abandonCtx | apply keeps_emit | apply keeps_qpOff
    | apply keeps_finish | apply keeps_cancelDesc | split | refine keeps_pair (by assumption) ?_)

theorem keeps_fence {s : State}
    (hw : Covers 0x1032FED3AB w) (h : Keeps w r s) : Keeps w r (fence s) := by
  unfold fence
  with_reducible repeat' (first
    | assumption | exact covers_of hw rfl | (intro _) | apply keeps_doAll | apply keeps_ctxMoved | apply keeps_raise
    | apply keeps_inc | apply keeps_set | split | refine keeps_pair (by assumption) ?_)

theorem keeps_execMemberFence {s : State}
    (hw : Covers 0x10000 w) (h : Keeps w r s) : Ends w r (execMemberFence s) := by
  unfold execMemberFence
  with_reducible repeat' (first
    | assumption | exact covers_of hw rfl | (intro _) | apply ends_next | apply keeps_done | apply keeps_doIf
    | apply keeps_atBoundary | split | refine keeps_pair (by assumption) ?_)

theorem keeps_relocate (g : Nat) (c : Nat) (gen : Nat) {s : State}
    (hw : Covers 0x40008008 w) (h : Keeps w r s) : Keeps w r (relocate g c gen s) := by
  unfold relocate
  with_reducible repeat' (beta_reduce; first
    | assumption | exact covers_of hw rfl | (intro _)
    | (extract_lets +onlyGivenNames x; first
      | (refine keeps_cut (w := w) (r := r) (s := x) ?_ ?_; (on_goal 2 => (intro hx; clear_value x)); unfold x; clear x)
      | (refine keeps_cut (w := w) (r := r) (s := x.1) ?_ ?_; (on_goal 2 => (intro hx; clear_value x)); unfold x; clear x)
      | clear_value x)
    | apply keeps_doAll | apply keeps_stateTo | apply keeps_set | split | refine keeps_pair (by assumption) ?_)

theorem keeps_goLive (c : Nat) (gen : Nat) (unclean : Bool) {s : State}
    (hw : Covers 0x106246D3AB w) (h : Keeps w r s) : Keeps w r (goLive c gen unclean s) := by
  unfold goLive
  with_reducible repeat' (beta_reduce; first
    | assumption | exact covers_of hw rfl | (intro _)
    | (extract_lets +onlyGivenNames x; first
      | (refine keeps_cut (w := w) (r := r) (s := x) ?_ ?_; (on_goal 2 => (intro hx; clear_value x)); unfold x; clear x)
      | (refine keeps_cut (w := w) (r := r) (s := x.1) ?_ ?_; (on_goal 2 => (intro hx; clear_value x)); unfold x; clear x)
      | clear_value x)
    | apply keeps_ctxEvent | apply keeps_raise | apply keeps_inc | apply keeps_pelUpd | apply keeps_relocate
    | apply keeps_doIf | apply keeps_set | apply keeps_dsUpd | apply keeps_aptAttach | apply keeps_ctxUpd
    | apply keeps_setWord | exact ⟨rfl, rfl⟩ | split | refine keeps_pair (by assumption) ?_)

theorem keeps_failover (c : Nat) {s : State}
    (hw : Covers 0x106246D3AB w) (h : Keeps w r s) : Keeps w r (failover c s) := by
  unfold failover
  with_reducible repeat' (beta_reduce; first
    | assumption | exact covers_of hw rfl | (intro _) | apply keeps_goLive | split
    | refine keeps_pair (by assumption) ?_)

theorem keeps_execFailover (c : Fin 1024) {s : State}
    (hw : Covers 0x10000 w) (h : Keeps w r s) : Ends w r (execFailover c s) := by
  unfold execFailover
  with_reducible repeat' (first
    | assumption | exact covers_of hw rfl | (intro _) | apply ends_next | apply keeps_done | apply keeps_doIf
    | apply keeps_atBoundary | split | refine keeps_pair (by assumption) ?_)

theorem keeps_execHandoverSend (c : Fin 1024) {s : State}
    (hw : Covers 0x40048000 w) (h : Keeps w r s) : Ends w r (execHandoverSend c s) := by
  unfold execHandoverSend
  with_reducible repeat' (beta_reduce; first
    | assumption | exact covers_of hw rfl | (intro _)
    | (extract_lets +onlyGivenNames x; first
      | (refine keeps_cut (w := w) (r := r) (s := x) ?_ ?_; (on_goal 2 => (intro hx; clear_value x)); unfold x; clear x)
      | (refine keeps_cut (w := w) (r := r) (s := x.1) ?_ ?_; (on_goal 2 => (intro hx; clear_value x)); unfold x; clear x)
      | clear_value x)
    | apply ends_next | apply keeps_done | apply keeps_sendState | apply keeps_ctxUpd | split
    | refine keeps_pair (by assumption) ?_)

theorem keeps_execStateHandover (k : Fin 4) {s : State}
    (hw : Covers 0x58008 w) (h : Keeps w r s) : Ends w r (execStateHandover k s) := by
  unfold execStateHandover
  with_reducible repeat' (beta_reduce; first
    | assumption | exact covers_of hw rfl | (intro _)
    | (extract_lets +onlyGivenNames x; first
      | (refine keeps_cut (w := w) (r := r) (s := x) ?_ ?_; (on_goal 2 => (intro hx; clear_value x)); unfold x; clear x)
      | (refine keeps_cut (w := w) (r := r) (s := x.1) ?_ ?_; (on_goal 2 => (intro hx; clear_value x)); unfold x; clear x)
      | clear_value x)
    | apply ends_next | apply keeps_onMsg | apply keeps_stateAns | apply keeps_set | apply keeps_ctxUpd
    | exact ⟨rfl, rfl⟩ | split | refine keeps_pair (by assumption) ?_ | refine keeps_mk ?_)

theorem keeps_execStateRelocate (k : Fin 4) {s : State}
    (hw : Covers 0x8008 w) (h : Keeps w r s) : Ends w r (execStateRelocate k s) := by
  unfold execStateRelocate
  with_reducible repeat' (beta_reduce; first
    | assumption | exact covers_of hw rfl | (intro _)
    | (extract_lets +onlyGivenNames x; first
      | (refine keeps_cut (w := w) (r := r) (s := x) ?_ ?_; (on_goal 2 => (intro hx; clear_value x)); unfold x; clear x)
      | (refine keeps_cut (w := w) (r := r) (s := x.1) ?_ ?_; (on_goal 2 => (intro hx; clear_value x)); unfold x; clear x)
      | clear_value x)
    | apply ends_next | apply keeps_onMsg | apply keeps_stateAns | apply keeps_set | split
    | refine keeps_pair (by assumption) ?_)

theorem keeps_execStateReservedStype (k : Fin 4) {s : State}
    (hw : Covers 0x8000 w) (h : Keeps w r s) : Ends w r (execStateReservedStype k s) := by
  unfold execStateReservedStype
  with_reducible repeat' (beta_reduce; first
    | assumption | exact covers_of hw rfl | (intro _) | apply ends_next | apply keeps_onMsg | apply keeps_stateAns
    | split | refine keeps_pair (by assumption) ?_)

theorem keeps_standbyDrop (c : Nat) {s : State}
    (hw : Covers 0x1C2A6ED3AB w) (h : Keeps w r s) : Keeps w r (standbyDrop c s) := by
  unfold standbyDrop
  with_reducible repeat' (beta_reduce; first
    | assumption | exact covers_of hw rfl | (intro _) | apply keeps_dsUpd | apply keeps_aptErase | exact ⟨rfl, rfl⟩
    | split | refine keeps_pair (by assumption) ?_)

theorem keeps_standbyApt (c : Nat) (units : Nat) (gen : Nat) {s : State}
    (hw : Covers 0x1C2A6ED3AB w) (h : Keeps w r s) : Keeps w r (standbyApt c units gen s) := by
  unfold standbyApt
  with_reducible repeat' (beta_reduce; first
    | assumption | exact covers_of hw rfl | (intro _)
    | (extract_lets +onlyGivenNames x; first
      | (refine keeps_cut (w := w) (r := r) (s := x) ?_ ?_; (on_goal 2 => (intro hx; clear_value x)); unfold x; clear x)
      | (refine keeps_cut (w := w) (r := r) (s := x.1) ?_ ?_; (on_goal 2 => (intro hx; clear_value x)); unfold x; clear x)
      | clear_value x)
    | apply keeps_standbyDrop | apply keeps_dsUpd | apply keeps_aptCreate | exact ⟨rfl, rfl⟩ | split
    | refine keeps_pair (by assumption) ?_)

theorem keeps_tandemKeep (c : Nat) (m : UMsg) {s : State}
    (hw : Covers 0x40000 w) (h : Keeps w r s) : Keeps w r (tandemKeep c m s) := by
  unfold tandemKeep
  with_reducible repeat' (beta_reduce; first
    | assumption | exact covers_of hw rfl | (intro _) | apply keeps_ctxUpd | split
    | refine keeps_pair (by assumption) ?_)

theorem keeps_supersede (a : Nat) {s : State}
    (hw : Covers 0x102A02F3AB w) (h : Keeps w r s) : Keeps w r (supersede a s) := by
  unfold supersede
  with_reducible repeat' (beta_reduce; first
    | assumption | exact covers_of hw rfl | (intro _) | apply keeps_loseBack | apply keeps_dsUpd | exact ⟨rfl, rfl⟩
    | split | refine keeps_pair (by assumption) ?_)

theorem keeps_pairResumes (r0 : PairRec) {s : State}
    (hw : Covers 0x102202D3AB w) (h : Keeps w r s) : Keeps w r (pairResumes r0 s) := by
  unfold pairResumes
  with_reducible repeat' (beta_reduce; first
    | assumption | exact covers_of hw rfl | (intro _) | apply keeps_updMirrorStatus | apply keeps_doIf
    | apply keeps_dsUpd | apply keeps_mirrorResumes | apply keeps_set | apply keeps_setWord | exact ⟨rfl, rfl⟩ | split
    | refine keeps_pair (by assumption) ?_)

theorem keeps_copyBack (r0 : PairRec) {s : State}
    (hw : Covers 0x8000 w) (h : Keeps w r s) : Keeps w r (copyBack r0 s) := by
  unfold copyBack
  with_reducible repeat' (beta_reduce; first
    | assumption | exact covers_of hw rfl | (intro _)
    | (extract_lets +onlyGivenNames x; first
      | (refine keeps_cut (w := w) (r := r) (s := x) ?_ ?_; (on_goal 2 => (intro hx; clear_value x)); unfold x; clear x)
      | (refine keeps_cut (w := w) (r := r) (s := x.1) ?_ ?_; (on_goal 2 => (intro hx; clear_value x)); unfold x; clear x)
      | clear_value x)
    | apply keeps_doAll | apply keeps_sendReq | split | refine keeps_pair (by assumption) ?_)

theorem keeps_tandemRejoined (m : UMsg) (r0 : PairRec) (gen : Nat) {s : State}
    (hw : Covers 0x102A06F3AB w) (h : Keeps w r s) : Keeps w r (tandemRejoined m r0 gen s) := by
  unfold tandemRejoined
  with_reducible repeat' (beta_reduce; first
    | assumption | exact covers_of hw rfl | (intro _)
    | (extract_lets +onlyGivenNames x; first
      | (refine keeps_cut (w := w) (r := r) (s := x) ?_ ?_; (on_goal 2 => (intro hx; clear_value x)); unfold x; clear x)
      | (refine keeps_cut (w := w) (r := r) (s := x.1) ?_ ?_; (on_goal 2 => (intro hx; clear_value x)); unfold x; clear x)
      | clear_value x)
    | apply keeps_stateAns | apply keeps_supersede | apply keeps_copyBack | apply keeps_tandemKeep
    | apply keeps_setShare | apply keeps_pairResumes | split | refine keeps_pair (by assumption) ?_)

theorem keeps_tandemPaired (m : UMsg) (gen : Nat) (units : Nat) {s : State}
    (hw : Covers 0x1C2A6EF3AB w) (h : Keeps w r s) : Keeps w r (tandemPaired m gen units s) := by
  unfold tandemPaired
  with_reducible repeat' (beta_reduce; first
    | assumption | exact covers_of hw rfl | (intro _)
    | (extract_lets +onlyGivenNames x; first
      | (refine keeps_cut (w := w) (r := r) (s := x) ?_ ?_; (on_goal 2 => (intro hx; clear_value x)); unfold x; clear x)
      | (refine keeps_cut (w := w) (r := r) (s := x.1) ?_ ?_; (on_goal 2 => (intro hx; clear_value x)); unfold x; clear x)
      | clear_value x)
    | apply keeps_tandemRejoined | apply keeps_stateAns | apply keeps_standbyApt | apply keeps_set
    | apply keeps_tandemKeep | apply keeps_setPair | apply keeps_setShare | split
    | refine keeps_pair (by assumption) ?_)

theorem keeps_tandemChanged (m : UMsg) (op : Nat) (gen : Nat) (units : Nat) {s : State}
    (hw : Covers 0x1C2A6FF3AB w) (h : Keeps w r s) : Keeps w r (tandemChanged m op gen units s) := by
  unfold tandemChanged
  with_reducible repeat' (beta_reduce; first
    | assumption | exact covers_of hw rfl | (intro _)
    | (extract_lets +onlyGivenNames x; first
      | (refine keeps_cut (w := w) (r := r) (s := x) ?_ ?_; (on_goal 2 => (intro hx; clear_value x)); unfold x; clear x)
      | (refine keeps_cut (w := w) (r := r) (s := x.1) ?_ ?_; (on_goal 2 => (intro hx; clear_value x)); unfold x; clear x)
      | clear_value x)
    | apply keeps_stateAns | apply keeps_unpairStandby | apply keeps_ctxUpd | apply keeps_tandemKeep
    | apply keeps_standbyApt | apply keeps_setShare | apply keeps_unpairHome | exact ⟨rfl, rfl⟩ | split
    | refine keeps_pair (by assumption) ?_ | refine keeps_mk ?_)

theorem keeps_execStateTandem (k : Fin 4) (gen : Word) (units : Fin 257) {s : State}
    (hw : Covers 0x1C2A6FF3AB w) (h : Keeps w r s) : Ends w r (execStateTandem k gen units s) := by
  unfold execStateTandem
  with_reducible repeat' (beta_reduce; first
    | assumption | exact covers_of hw rfl | (intro _) | apply ends_next | apply keeps_onMsg | apply keeps_tandemPaired
    | apply keeps_tandemChanged | split | refine keeps_pair (by assumption) ?_)

theorem keeps_pairAccepted (c : Nat) (p : Pairing) {s : State}
    (hw : Covers 0x103AC6F3AB w) (h : Keeps w r s) : Keeps w r (pairAccepted c p s) := by
  unfold pairAccepted
  with_reducible repeat' (beta_reduce; first
    | assumption | exact covers_of hw rfl | (intro _)
    | (extract_lets +onlyGivenNames x; first
      | (refine keeps_cut (w := w) (r := r) (s := x) ?_ ?_; (on_goal 2 => (intro hx; clear_value x)); unfold x; clear x)
      | (refine keeps_cut (w := w) (r := r) (s := x.1) ?_ ?_; (on_goal 2 => (intro hx; clear_value x)); unfold x; clear x)
      | clear_value x)
    | apply keeps_cmdDone | apply keeps_dsUpd | apply keeps_aptAttach | apply keeps_set | apply keeps_setPair
    | apply keeps_ctxUpd | exact ⟨rfl, rfl⟩ | split | refine keeps_pair (by assumption) ?_)

theorem keeps_rejoinAnswered (c : Nat) (stat : Nat) {s : State}
    (hw : Covers 0x102206D3AB w) (h : Keeps w r s) : Keeps w r (rejoinAnswered c stat s) := by
  unfold rejoinAnswered
  with_reducible repeat' (beta_reduce; first
    | assumption | exact covers_of hw rfl | (intro _)
    | (extract_lets +onlyGivenNames x; first
      | (refine keeps_cut (w := w) (r := r) (s := x) ?_ ?_; (on_goal 2 => (intro hx; clear_value x)); unfold x; clear x)
      | (refine keeps_cut (w := w) (r := r) (s := x.1) ?_ ?_; (on_goal 2 => (intro hx; clear_value x)); unfold x; clear x)
      | clear_value x)
    | apply keeps_doIf | apply keeps_pairResumes | apply keeps_ctxUpd | split | refine keeps_pair (by assumption) ?_)

theorem keeps_stateAnswered (t : Nat) (c : Nat) (stat : Nat) {s : State}
    (hw : Covers 0x107AC7F3AB w) (h : Keeps w r s) : Keeps w r (stateAnswered t c stat s) := by
  unfold stateAnswered
  with_reducible repeat' (beta_reduce; first
    | assumption | exact covers_of hw rfl | (intro _) | apply keeps_pelUpd | apply keeps_pairAccepted
    | apply keeps_ctxUpd | apply keeps_cmdDone | apply keeps_rejoinAnswered | exact ⟨rfl, rfl⟩ | split
    | refine keeps_pair (by assumption) ?_ | refine keeps_mk ?_)

theorem keeps_execUlRespReceive (k : Fin 4) {s : State}
    (hw : Covers 0x107AEFF3AB w) (h : Keeps w r s) : Ends w r (execUlRespReceive k s) := by
  unfold execUlRespReceive
  with_reducible repeat' (beta_reduce; first
    | assumption | exact covers_of hw rfl | (intro _)
    | (extract_lets +onlyGivenNames x; first
      | (refine keeps_cut (w := w) (r := r) (s := x) ?_ ?_; (on_goal 2 => (intro hx; clear_value x)); unfold x; clear x)
      | (refine keeps_cut (w := w) (r := r) (s := x.1) ?_ ?_; (on_goal 2 => (intro hx; clear_value x)); unfold x; clear x)
      | clear_value x)
    | apply ends_next | apply keeps_onMsg | apply keeps_ulProto | apply keeps_stateAnswered | apply keeps_reqEnds
    | apply keeps_answer | apply keeps_doIf | apply keeps_drewOne | split | refine keeps_pair (by assumption) ?_)

theorem keeps_execPelQuery (mb : Fin 1032) (core : Fin 4) {s : State}
    (hw : Covers 0x103082D3AB w) (h : Keeps w r s) : Ends w r (execPelQuery mb core s) := by
  unfold execPelQuery
  with_reducible repeat' (beta_reduce; first
    | assumption | exact covers_of hw rfl | (intro _) | apply ends_next | apply keeps_runCmd | split
    | refine keeps_pair (by assumption) ?_)

theorem keeps_execTandemQuery (mb : Fin 1032) (core : Fin 4) {s : State}
    (hw : Covers 0x103082D3AB w) (h : Keeps w r s) : Ends w r (execTandemQuery mb core s) := by
  unfold execTandemQuery
  with_reducible repeat' (beta_reduce; first
    | assumption | exact covers_of hw rfl | (intro _)
    | (extract_lets +onlyGivenNames x; first
      | (refine keeps_cut (w := w) (r := r) (s := x) ?_ ?_; (on_goal 2 => (intro hx; clear_value x)); unfold x; clear x)
      | (refine keeps_cut (w := w) (r := r) (s := x.1) ?_ ?_; (on_goal 2 => (intro hx; clear_value x)); unfold x; clear x)
      | clear_value x)
    | apply ends_next | apply keeps_runCmd | split | refine keeps_pair (by assumption) ?_)

theorem keeps_tandemPairCmd (gen : Nat) (x0 : Cmd) {s : State}
    (hw : Covers 0x107086D3AB w) (h : Keeps w r s) : Keeps w r (tandemPairCmd gen x0 s) := by
  unfold tandemPairCmd
  with_reducible repeat' (beta_reduce; first
    | assumption | exact covers_of hw rfl | (intro _)
    | (extract_lets +onlyGivenNames x; first
      | (refine keeps_cut (w := w) (r := r) (s := x) ?_ ?_; (on_goal 2 => (intro hx; clear_value x)); unfold x; clear x)
      | (refine keeps_cut (w := w) (r := r) (s := x.1) ?_ ?_; (on_goal 2 => (intro hx; clear_value x)); unfold x; clear x)
      | clear_value x)
    | apply keeps_cmdDone | apply keeps_sendState | apply keeps_ctxUpd | split | refine keeps_pair (by assumption) ?_)

theorem keeps_execTandemPair (mb : Fin 1032) (core : Fin 4) (gen : Word) {s : State}
    (hw : Covers 0x107086D3AB w) (h : Keeps w r s) : Ends w r (execTandemPair mb core gen s) := by
  unfold execTandemPair
  with_reducible repeat' (first
    | assumption | exact covers_of hw rfl | (intro _) | apply ends_next | apply keeps_startCmd
    | apply keeps_tandemPairCmd | split | refine keeps_pair (by assumption) ?_)

theorem keeps_execTandemUnpair (mb : Fin 1032) (core : Fin 4) {s : State}
    (hw : Covers 0x107A82F3AB w) (h : Keeps w r s) : Ends w r (execTandemUnpair mb core s) := by
  unfold execTandemUnpair
  with_reducible repeat' (beta_reduce; first
    | assumption | exact covers_of hw rfl | (intro _)
    | (extract_lets +onlyGivenNames x; first
      | (refine keeps_cut (w := w) (r := r) (s := x) ?_ ?_; (on_goal 2 => (intro hx; clear_value x)); unfold x; clear x)
      | (refine keeps_cut (w := w) (r := r) (s := x.1) ?_ ?_; (on_goal 2 => (intro hx; clear_value x)); unfold x; clear x)
      | clear_value x)
    | apply ends_next | apply keeps_runCmd | apply keeps_unpairHome | apply keeps_tandemTell | split
    | refine keeps_pair (by assumption) ?_)

theorem keeps_rejoinAsk (r0 : PairRec) (resume : Bool) {s : State}
    (hw : Covers 0x40048000 w) (h : Keeps w r s) : Keeps w r (rejoinAsk r0 resume s) := by
  unfold rejoinAsk
  with_reducible repeat' (beta_reduce; first
    | assumption | exact covers_of hw rfl | (intro _) | apply keeps_sendState | apply keeps_doIf | apply keeps_ctxUpd
    | split | refine keeps_pair (by assumption) ?_)

theorem keeps_execRejoinCompare (a : Fin 2048) (other : Word) {s : State}
    (hw : Covers 0x106A06F3AB w) (h : Keeps w r s) : Ends w r (execRejoinCompare a other s) := by
  unfold execRejoinCompare
  with_reducible repeat' (beta_reduce; first
    | assumption | exact covers_of hw rfl | (intro _)
    | (extract_lets +onlyGivenNames x; first
      | (refine keeps_cut (w := w) (r := r) (s := x) ?_ ?_; (on_goal 2 => (intro hx; clear_value x)); unfold x; clear x)
      | (refine keeps_cut (w := w) (r := r) (s := x.1) ?_ ?_; (on_goal 2 => (intro hx; clear_value x)); unfold x; clear x)
      | clear_value x)
    | apply ends_next | apply keeps_done | apply keeps_supersede | apply keeps_doIf | apply keeps_rejoinAsk | split
    | refine keeps_pair (by assumption) ?_)

theorem keeps_sleepBegin (kind : Nat) {s : State}
    (hw : Covers 0x20000008 w) (h : Keeps w r s) : Keeps w r (sleepBegin kind s) := by
  unfold sleepBegin
  with_reducible repeat' (beta_reduce; first
    | assumption | exact covers_of hw rfl | (intro _) | apply keeps_commitWakes | apply keeps_pwrUpd | apply keeps_inc
    | apply keeps_set | split | refine keeps_pair (by assumption) ?_)

theorem keeps_execSleepEnter (mb : Fin 1032) (core : Fin 4) {s : State}
    (hw : Covers 0x103082D3AB w) (h : Keeps w r s) : Ends w r (execSleepEnter mb core s) := by
  unfold execSleepEnter
  with_reducible repeat' (beta_reduce; first
    | assumption | exact covers_of hw rfl | (intro _)
    | (extract_lets +onlyGivenNames x; first
      | (refine keeps_cut (w := w) (r := r) (s := x) ?_ ?_; (on_goal 2 => (intro hx; clear_value x)); unfold x; clear x)
      | (refine keeps_cut (w := w) (r := r) (s := x.1) ?_ ?_; (on_goal 2 => (intro hx; clear_value x)); unfold x; clear x)
      | clear_value x)
    | apply ends_next | apply keeps_done | apply keeps_runCmd | apply keeps_sleepBegin | split
    | refine keeps_pair (by assumption) ?_)

theorem keeps_execIdleSleepOrder {s : State}
    (hw : Covers 0x20000000 w) (h : Keeps w r s) : Ends w r (execIdleSleepOrder s) := by
  unfold execIdleSleepOrder
  with_reducible repeat' (beta_reduce; first
    | assumption | exact covers_of hw rfl | (intro _) | apply ends_next | apply keeps_done | apply keeps_pwrUpd
    | split | refine keeps_pair (by assumption) ?_)

theorem keeps_fwOrderGo {s : State}
    (hw : Covers 0x103082D3AB w) (h : Keeps w r s) : Keeps w r (fwOrderGo s) := by
  unfold fwOrderGo
  with_reducible repeat' (beta_reduce; first
    | assumption | exact covers_of hw rfl | (intro _)
    | (extract_lets +onlyGivenNames x; first
      | (refine keeps_cut (w := w) (r := r) (s := x) ?_ ?_; (on_goal 2 => (intro hx; clear_value x)); unfold x; clear x)
      | (refine keeps_cut (w := w) (r := r) (s := x.1) ?_ ?_; (on_goal 2 => (intro hx; clear_value x)); unfold x; clear x)
      | clear_value x)
    | apply keeps_pwrUpd | apply keeps_doIf | apply keeps_levelOrder | apply keeps_sleepBegin | split
    | refine keeps_pair (by assumption) ?_)

theorem keeps_execFreewheelEntry {s : State}
    (hw : Covers 0x100000800B w) (h : Keeps w r s) : Ends w r (execFreewheelEntry s) := by
  unfold execFreewheelEntry
  with_reducible repeat' (beta_reduce; first
    | assumption | exact covers_of hw rfl | (intro _) | apply ends_next | apply keeps_done | apply keeps_set
    | apply keeps_doAll | apply keeps_lpmRequest | split | refine keeps_pair (by assumption) ?_)

theorem keeps_execFreewheelExit {s : State}
    (hw : Covers 0x102002D3AB w) (h : Keeps w r s) : Ends w r (execFreewheelExit s) := by
  unfold execFreewheelExit
  with_reducible repeat' (beta_reduce; first
    | assumption | exact covers_of hw rfl | (intro _) | apply ends_next | apply keeps_done | apply keeps_raise
    | apply keeps_pwrUpd | apply keeps_set | apply keeps_doAll | apply keeps_lpmLeave | split
    | refine keeps_pair (by assumption) ?_)

theorem keeps_enterL1 {s : State}
    (hw : Covers 0x102002D3AB w) (h : Keeps w r s) : Keeps w r (enterL1 s) := by
  unfold enterL1
  with_reducible repeat' (beta_reduce; first
    | assumption | exact covers_of hw rfl | (intro _) | apply keeps_doIf | apply keeps_raise | apply keeps_leaveL0
    | apply keeps_hlUpd | apply keeps_set | split | refine keeps_pair (by assumption) ?_)

theorem keeps_l1Request (accepted : Bool) {s : State}
    (hw : Covers 0x102002D3AB w) (h : Keeps w r s) : Keeps w r (l1Request accepted s) := by
  unfold l1Request
  with_reducible repeat' (beta_reduce; first
    | assumption | exact covers_of hw rfl | (intro _) | apply keeps_doIf | apply keeps_enterL1 | apply keeps_pwrUpd
    | apply keeps_emit | split | refine keeps_pair (by assumption) ?_)

theorem keeps_execL1EntryRequest (accepted : Bool) {s : State}
    (hw : Covers 0x102002D3AB w) (h : Keeps w r s) : Ends w r (execL1EntryRequest accepted s) := by
  unfold execL1EntryRequest
  with_reducible repeat' (first
    | assumption | exact covers_of hw rfl | apply ends_next | apply keeps_done | apply keeps_l1Request | split
    | refine keeps_pair (by assumption) ?_)

theorem keeps_portHold (p : Nat) {s : State}
    (hw : Covers 0x181009 w) (h : Keeps w r s) : Keeps w r (portHold p s) := by
  unfold portHold
  with_reducible repeat' (beta_reduce; first
    | assumption | exact covers_of hw rfl | (intro _) | apply keeps_lbUpd | apply keeps_framePartial
    | apply keeps_portTo | split | refine keeps_pair (by assumption) ?_)

theorem keeps_execRestEntry (l1 : Bool) {s : State}
    (hw : Covers 0x10201AD3AB w) (h : Keeps w r s) : Ends w r (execRestEntry l1 s) := by
  unfold execRestEntry
  with_reducible repeat' (beta_reduce; first
    | assumption | exact covers_of hw rfl | (intro _) | apply ends_next | apply keeps_done | apply keeps_set
    | apply keeps_doAll | apply keeps_portHold | apply keeps_lpmRequest | apply keeps_doIf | apply keeps_l1Request
    | apply keeps_ltrSend | apply keeps_setWord | apply keeps_pwrUpd | split | refine keeps_pair (by assumption) ?_)

theorem keeps_execRestEntryComplete {s : State}
    (hw : Covers 0x8 w) (h : Keeps w r s) : Ends w r (execRestEntryComplete s) := by
  unfold execRestEntryComplete
  with_reducible repeat' (first
    | assumption | exact covers_of hw rfl | apply ends_next | apply keeps_done | apply keeps_set | split
    | refine keeps_pair (by assumption) ?_)

theorem keeps_pllsLock {s : State}
    (hw : Covers 0x8 w) (h : Keeps w r s) : Keeps w r (pllsLock s) := by
  unfold pllsLock
  with_reducible repeat' (first
    | assumption | exact covers_of hw rfl | apply keeps_set | split | refine keeps_pair (by assumption) ?_)

theorem keeps_execRestExit {s : State}
    (hw : Covers 0x102012D3AB w) (h : Keeps w r s) : Ends w r (execRestExit s) := by
  unfold execRestExit
  with_reducible repeat' (beta_reduce; first
    | assumption | exact covers_of hw rfl | (intro _) | apply ends_next | apply keeps_done | apply keeps_raise
    | apply keeps_doIf | apply keeps_ltrSend | apply keeps_leaveL1 | apply keeps_doAll | apply keeps_startTrain
    | apply keeps_lpmLeave | apply keeps_pwrUpd | apply keeps_set | apply keeps_pllsLock | split
    | refine keeps_pair (by assumption) ?_)

theorem keeps_execWakeEvent {s : State}
    (hw : Covers 0x20000008 w) (h : Keeps w r s) : Ends w r (execWakeEvent s) := by
  unfold execWakeEvent
  with_reducible repeat' (beta_reduce; first
    | assumption | exact covers_of hw rfl | (intro _) | apply ends_next | apply keeps_done | apply keeps_setWord
    | apply keeps_set | apply keeps_sleepExit | split | refine keeps_pair (by assumption) ?_)

theorem keeps_execKsXtalStart {s : State}
    (hw : Covers 0x1000 w) (h : Keeps w r s) : Ends w r (execKsXtalStart s) := by
  unfold execKsXtalStart
  with_reducible repeat' (beta_reduce; first
    | assumption | exact covers_of hw rfl | (intro _) | apply ends_next | apply keeps_done | apply keeps_devUpd
    | split | refine keeps_pair (by assumption) ?_)

theorem keeps_execKsAlarmMatch {s : State}
    (hw : Covers 0x102002D3AB w) (h : Keeps w r s) : Ends w r (execKsAlarmMatch s) := by
  unfold execKsAlarmMatch
  with_reducible repeat' (first
    | assumption | exact covers_of hw rfl | apply ends_next | apply keeps_done | apply keeps_raise | apply keeps_set
    | split | refine keeps_pair (by assumption) ?_)

theorem keeps_execGpioEdge (g : Fin 16) (rising : Bool) {s : State}
    (hw : Covers 0x102002D3AB w) (h : Keeps w r s) : Ends w r (execGpioEdge g rising s) := by
  unfold execGpioEdge
  with_reducible repeat' (beta_reduce; first
    | assumption | exact covers_of hw rfl | (intro _)
    | (extract_lets +onlyGivenNames x; first
      | (refine keeps_cut (w := w) (r := r) (s := x) ?_ ?_; (on_goal 2 => (intro hx; clear_value x)); unfold x; clear x)
      | (refine keeps_cut (w := w) (r := r) (s := x.1) ?_ ?_; (on_goal 2 => (intro hx; clear_value x)); unfold x; clear x)
      | clear_value x)
    | apply ends_next | apply keeps_done | apply keeps_doIf | apply keeps_raise | apply keeps_set | apply keeps_pwrUpd
    | split | refine keeps_pair (by assumption) ?_)

theorem keeps_resultPart (o : FwdOut) (idx : Nat) (last : Bool) (data : List Byte) {s : State}
    (hw : Covers 0x103082D3AB w) (h : Keeps w r s) : Keeps w r (resultPart o idx last data s) := by
  unfold resultPart
  with_reducible repeat' (beta_reduce; first
    | assumption | exact covers_of hw rfl | (intro _)
    | (extract_lets +onlyGivenNames x; first
      | (refine keeps_cut (w := w) (r := r) (s := x) ?_ ?_; (on_goal 2 => (intro hx; clear_value x)); unfold x; clear x)
      | (refine keeps_cut (w := w) (r := r) (s := x.1) ?_ ?_; (on_goal 2 => (intro hx; clear_value x)); unfold x; clear x)
      | clear_value x)
    | apply keeps_cmdDone | apply keeps_mbxUpd | split | refine keeps_pair (by assumption) ?_)

theorem keeps_requestPart (k : Nat) (txn : Nat) (idx : Nat) (originB : Bool) (last : Bool) (data : List Byte) {s : State}
    (hw : Covers 0x103082D3AB w) (h : Keeps w r s) : Keeps w r (requestPart k txn idx originB last data s) := by
  unfold requestPart
  with_reducible repeat' (beta_reduce; first
    | assumption | exact covers_of hw rfl | (intro _)
    | (extract_lets +onlyGivenNames x; first
      | (refine keeps_cut (w := w) (r := r) (s := x) ?_ ?_; (on_goal 2 => (intro hx; clear_value x)); unfold x; clear x)
      | (refine keeps_cut (w := w) (r := r) (s := x.1) ?_ ?_; (on_goal 2 => (intro hx; clear_value x)); unfold x; clear x)
      | clear_value x)
    | apply keeps_doIf | apply keeps_peerServe | apply keeps_mbxUpd | split | refine keeps_pair (by assumption) ?_)

theorem keeps_relayPart (k : Nat) (txn : Nat) (result : Bool) (last : Bool) (body : List Byte) {s : State}
    (hw : Covers 0x1010008003 w) (h : Keeps w r s) : Keeps w r (relayPart k txn result last body s) := by
  unfold relayPart
  with_reducible repeat' (beta_reduce; first
    | assumption | exact covers_of hw rfl | (intro _)
    | (extract_lets +onlyGivenNames x; first
      | (refine keeps_cut (w := w) (r := r) (s := x) ?_ ?_; (on_goal 2 => (intro hx; clear_value x)); unfold x; clear x)
      | (refine keeps_cut (w := w) (r := r) (s := x.1) ?_ ?_; (on_goal 2 => (intro hx; clear_value x)); unfold x; clear x)
      | clear_value x)
    | apply keeps_doIf | apply keeps_mbxUpd | apply keeps_sendBypass | split | refine keeps_pair (by assumption) ?_)

theorem keeps_execBypassPeerMbx (k : Fin 4) (bseq : BitVec 8) (back : BitVec 8) (txn : BitVec 16) (idx : BitVec 8) (flags : BitVec 8) (data : List Byte) {s : State}
    (hw : Covers 0x103082D3AB w) (h : Keeps w r s) : Ends w r (execBypassPeerMbx k bseq back txn idx flags data s) := by
  unfold execBypassPeerMbx
  with_reducible repeat' (beta_reduce; first
    | assumption | exact covers_of hw rfl | (intro _)
    | (extract_lets +onlyGivenNames x; first
      | (refine keeps_cut (w := w) (r := r) (s := x) ?_ ?_; (on_goal 2 => (intro hx; clear_value x)); unfold x; clear x)
      | (refine keeps_cut (w := w) (r := r) (s := x.1) ?_ ?_; (on_goal 2 => (intro hx; clear_value x)); unfold x; clear x)
      | clear_value x)
    | apply ends_next | apply keeps_bypassSeq | apply keeps_done | apply keeps_resultPart | apply keeps_relayPart
    | apply keeps_sendBypass | apply keeps_mbxUpd | apply keeps_requestPart | split
    | refine keeps_pair (by assumption) ?_)

theorem keeps_photoPend (at0 : Stroke) {s : State} (hw : Covers 0x4008 w)
    (h : Keeps w r s) : Keeps w r (photoPend at0 s) := by
  have hp (x : Option (Stroke × Nat)) {s : State} (h : Keeps w r s) :
      Keeps w r (State.set { s with pfs := { s.pfs with pel := x } } Fld.PFS_STAT_PEL_PENDING 1) :=
    keeps_set _ _ (covers_of hw rfl) (keeps_mk h)
  unfold photoPend
  dsimp only
  repeat' (first
    | (with_reducible assumption)
    | (exact covers_of hw rfl)
    | (with_reducible apply keeps_pfsMissed)
    | (with_reducible apply hp)
    | split)

theorem keeps_execBypassPhoto (k : Fin 4) (bseq : BitVec 8) (back : BitVec 8) (stroke : Stroke) (origin : Fin 8) (src : BitVec 8) (num : BitVec 16) {s : State}
    (hw : Covers 0x101000C00B w) (h : Keeps w r s) : Ends w r (execBypassPhoto k bseq back stroke origin src num s) := by
  unfold execBypassPhoto
  with_reducible repeat' (beta_reduce; first
    | assumption | exact covers_of hw rfl | (intro _)
    | (extract_lets +onlyGivenNames x; first
      | (refine keeps_cut (w := w) (r := r) (s := x) ?_ ?_; (on_goal 2 => (intro hx; clear_value x)); unfold x; clear x)
      | (refine keeps_cut (w := w) (r := r) (s := x.1) ?_ ?_; (on_goal 2 => (intro hx; clear_value x)); unfold x; clear x)
      | clear_value x)
    | apply ends_next | apply keeps_bypassSeq | apply keeps_done | apply keeps_photoPend | apply keeps_doAll
    | apply keeps_sendBypass | apply keeps_set | apply keeps_setWord | exact ⟨rfl, rfl⟩ | split
    | refine keeps_pair (by assumption) ?_ | refine keeps_mk ?_)

theorem keeps_execPfsTrigGo {s : State}
    (hw : Covers 0x100000C00B w) (h : Keeps w r s) : Ends w r (execPfsTrigGo s) := by
  unfold execPfsTrigGo
  with_reducible repeat' (first
    | assumption | exact covers_of hw rfl | apply ends_next | apply keeps_done | apply keeps_pfsTrigger | split
    | refine keeps_pair (by assumption) ?_)

theorem keeps_execPhotoNEdge {s : State}
    (hw : Covers 0x102002D3AB w) (h : Keeps w r s) : Ends w r (execPhotoNEdge s) := by
  unfold execPhotoNEdge
  with_reducible repeat' (first
    | assumption | exact covers_of hw rfl | (intro _) | apply ends_next | apply keeps_done | apply keeps_doIf
    | apply keeps_pfsTrigger | apply keeps_raise | split | refine keeps_pair (by assumption) ?_)

theorem keeps_pfsArm {s : State}
    (hw : Covers 0x8 w) (h : Keeps w r s) : Keeps w r (pfsArm s) := by
  unfold pfsArm
  with_reducible repeat' (first
    | assumption | exact covers_of hw rfl | apply keeps_set | split | refine keeps_pair (by assumption) ?_)

theorem keeps_execPfsArm {s : State}
    (hw : Covers 0x8 w) (h : Keeps w r s) : Ends w r (execPfsArm s) := by
  unfold execPfsArm
  with_reducible repeat' (first
    | assumption | exact covers_of hw rfl | apply ends_next | apply keeps_done | apply keeps_pfsArm | split
    | refine keeps_pair (by assumption) ?_)

theorem keeps_pfsLatch (named : Stroke) (src : Nat) {s : State}
    (hw : Covers 0x4008 w) (h : Keeps w r s) : Keeps w r (pfsLatch named src s) := by
  unfold pfsLatch
  with_reducible repeat' (beta_reduce; first
    | assumption | exact covers_of hw rfl | (intro _)
    | (extract_lets +onlyGivenNames x; first
      | (refine keeps_cut (w := w) (r := r) (s := x) ?_ ?_; (on_goal 2 => (intro hx; clear_value x)); unfold x; clear x)
      | (refine keeps_cut (w := w) (r := r) (s := x.1) ?_ ?_; (on_goal 2 => (intro hx; clear_value x)); unfold x; clear x)
      | clear_value x)
    | apply keeps_doIf | apply keeps_set | apply keeps_doAll | apply keeps_setWord | exact ⟨rfl, rfl⟩ | split
    | refine keeps_pair (by assumption) ?_ | refine keeps_mk ?_)

theorem keeps_photoLatch {s : State}
    (hw : Covers 0x4008 w) (h : Keeps w r s) : Keeps w r (photoLatch s) := by
  unfold photoLatch
  with_reducible repeat' (beta_reduce; first
    | assumption | exact covers_of hw rfl | (intro _) | apply keeps_pfsLatch | split
    | refine keeps_pair (by assumption) ?_)

theorem keeps_execPhotoLatch {s : State}
    (hw : Covers 0x10000 w) (h : Keeps w r s) : Ends w r (execPhotoLatch s) := by
  unfold execPhotoLatch
  with_reducible repeat' (first
    | assumption | exact covers_of hw rfl | (intro _) | apply ends_next | apply keeps_done | apply keeps_doIf
    | apply keeps_atBoundary | split | refine keeps_pair (by assumption) ?_)

theorem keeps_fwUpd (f : Fw → Fw) {s : State}
    (hw : Covers 0x200000000 w) (h : Keeps w r s) : Keeps w r (State.fwUpd s f) := by
  unfold State.fwUpd
  with_reducible repeat' (first
    | assumption | exact covers_of hw rfl | exact ⟨rfl, rfl⟩ | split | refine keeps_pair (by assumption) ?_
    | refine keeps_mk ?_)

theorem keeps_fuseUpd {s : State} (f : Fuses → Fuses) (hw : Covers 0x100000000 w)
    (hf : ∀ d : Fuses, d.marks ⊆ (f d).marks) (h : Keeps w r s) : Keeps w r (s.fuseUpd f) := by
  refine ⟨h.pending, List.Subset.trans h.marks (hf _), h.regs, h.mem, fun p hp => ?_⟩
  have hs := h.same p hp
  cases p <;> try exact hs
  have := covers_bit hw (i := 32) rfl
  simp_all [Part.idx]

theorem keeps_execDevQuery (mb : Fin 1032) (core : Fin 4) {s : State}
    (hw : Covers 0x103082D3AB w) (h : Keeps w r s) : Ends w r (execDevQuery mb core s) := by
  unfold execDevQuery
  with_reducible repeat' (beta_reduce; first
    | assumption | exact covers_of hw rfl | (intro _) | apply ends_next | apply keeps_runCmd | split
    | refine keeps_pair (by assumption) ?_)

theorem keeps_execDevReset (mb : Fin 1032) (core : Fin 4) {s : State}
    (hw : Covers 0x103082D3AB w) (h : Keeps w r s) : Ends w r (execDevReset mb core s) := by
  unfold execDevReset
  with_reducible repeat' (beta_reduce; first
    | assumption | exact covers_of hw rfl | (intro _) | apply ends_next | apply keeps_runCmd | apply keeps_devUpd
    | split | refine keeps_pair (by assumption) ?_)

theorem keeps_execMaintEnter (mb : Fin 1032) (core : Fin 4) {s : State}
    (hw : Covers 0x103082D3AB w) (h : Keeps w r s) : Ends w r (execMaintEnter mb core s) := by
  unfold execMaintEnter
  with_reducible repeat' (beta_reduce; first
    | assumption | exact covers_of hw rfl | (intro _) | apply ends_next | apply keeps_startCmd | apply keeps_cmdDone
    | apply keeps_addCause | split | refine keeps_pair (by assumption) ?_)

theorem keeps_execPrepareExtract (mb : Fin 1032) (core : Fin 4) {s : State}
    (hw : Covers 0x103082D3AB w) (h : Keeps w r s) : Ends w r (execPrepareExtract mb core s) := by
  unfold execPrepareExtract
  with_reducible repeat' (beta_reduce; first
    | assumption | exact covers_of hw rfl | (intro _) | apply ends_next | apply keeps_startCmd | apply keeps_addCause
    | apply keeps_cmdDone | apply keeps_orderExtract | split | refine keeps_pair (by assumption) ?_)

theorem keeps_execPelLeave (mb : Fin 1032) (core : Fin 4) {s : State}
    (hw : Covers 0x801008 w) (h : Keeps w r s) : Ends w r (execPelLeave mb core s) := by
  unfold execPelLeave
  with_reducible repeat' (beta_reduce; first
    | assumption | exact covers_of hw rfl | (intro _) | apply ends_next | apply keeps_startCmd | apply keeps_addCause
    | split | refine keeps_pair (by assumption) ?_)

theorem keeps_setCopy (v : Image) (k : Nat) {s : State}
    (hw : Covers 0x200000000 w) (h : Keeps w r s) : Keeps w r (setCopy v k s) := by
  unfold setCopy
  with_reducible repeat' (beta_reduce; first
    | assumption | exact covers_of hw rfl | (intro _)
    | (extract_lets +onlyGivenNames x; first
      | (refine keeps_cut (w := w) (r := r) (s := x) ?_ ?_; (on_goal 2 => (intro hx; clear_value x)); unfold x; clear x)
      | (refine keeps_cut (w := w) (r := r) (s := x.1) ?_ ?_; (on_goal 2 => (intro hx; clear_value x)); unfold x; clear x)
      | clear_value x)
    | apply keeps_fwUpd | split | refine keeps_pair (by assumption) ?_)

theorem keeps_execFwQuery (mb : Fin 1032) (core : Fin 4) {s : State}
    (hw : Covers 0x103082D3AB w) (h : Keeps w r s) : Ends w r (execFwQuery mb core s) := by
  unfold execFwQuery
  with_reducible repeat' (beta_reduce; first
    | assumption | exact covers_of hw rfl | (intro _) | apply ends_next | apply keeps_runCmd | split
    | refine keeps_pair (by assumption) ?_)

theorem keeps_execFwStageBegin (mb : Fin 1032) (core : Fin 4) {s : State}
    (hw : Covers 0x123082D3AB w) (h : Keeps w r s) : Ends w r (execFwStageBegin mb core s) := by
  unfold execFwStageBegin
  with_reducible repeat' (beta_reduce; first
    | assumption | exact covers_of hw rfl | (intro _) | apply ends_next | apply keeps_runCmd | apply keeps_fwUpd
    | split | refine keeps_pair (by assumption) ?_)

theorem keeps_execFwStageData (mb : Fin 1032) (core : Fin 4) {s : State}
    (hw : Covers 0x123082D3AB w) (h : Keeps w r s) : Ends w r (execFwStageData mb core s) := by
  unfold execFwStageData
  with_reducible repeat' (beta_reduce; first
    | assumption | exact covers_of hw rfl | (intro _)
    | (extract_lets +onlyGivenNames x; first
      | (refine keeps_cut (w := w) (r := r) (s := x) ?_ ?_; (on_goal 2 => (intro hx; clear_value x)); unfold x; clear x)
      | (refine keeps_cut (w := w) (r := r) (s := x.1) ?_ ?_; (on_goal 2 => (intro hx; clear_value x)); unfold x; clear x)
      | clear_value x)
    | apply ends_next | apply keeps_runCmd | apply keeps_fwUpd | split | refine keeps_pair (by assumption) ?_)

theorem keeps_execFwStageEnd (mb : Fin 1032) (core : Fin 4) (unread : Bool) {s : State}
    (hw : Covers 0x123082D3AB w) (h : Keeps w r s) : Ends w r (execFwStageEnd mb core unread s) := by
  unfold execFwStageEnd
  with_reducible repeat' (beta_reduce; first
    | assumption | exact covers_of hw rfl | (intro _)
    | (extract_lets +onlyGivenNames x; first
      | (refine keeps_cut (w := w) (r := r) (s := x) ?_ ?_; (on_goal 2 => (intro hx; clear_value x)); unfold x; clear x)
      | (refine keeps_cut (w := w) (r := r) (s := x.1) ?_ ?_; (on_goal 2 => (intro hx; clear_value x)); unfold x; clear x)
      | clear_value x)
    | apply ends_next | apply keeps_runCmd | apply keeps_fwUpd | split | refine keeps_pair (by assumption) ?_)

theorem keeps_fwStart (x0 : Cmd) (src : Image) (todo : List Nat) {s : State}
    (hw : Covers 0x21000000A w) (h : Keeps w r s) : Keeps w r (fwStart x0 src todo s).1 := by
  unfold fwStart
  with_reducible repeat' (beta_reduce; first
    | assumption | exact covers_of hw rfl | (intro _) | apply keeps_longStart | apply keeps_fwUpd | apply keeps_mbxUpd
    | split | refine keeps_pair (by assumption) ?_)

theorem keeps_execFwActivate (mb : Fin 1032) (core : Fin 4) {s : State}
    (hw : Covers 0x123082D3AB w) (h : Keeps w r s) : Ends w r (execFwActivate mb core s) := by
  unfold execFwActivate
  with_reducible repeat' (beta_reduce; first
    | assumption | exact covers_of hw rfl | (intro _) | apply ends_next | apply keeps_runCmd | apply keeps_fwStart
    | split | refine keeps_pair (by assumption) ?_)

theorem keeps_execFwCommit (mb : Fin 1032) (core : Fin 4) {s : State}
    (hw : Covers 0x123082D3AB w) (h : Keeps w r s) : Ends w r (execFwCommit mb core s) := by
  unfold execFwCommit
  with_reducible repeat' (beta_reduce; first
    | assumption | exact covers_of hw rfl | (intro _) | apply ends_next | apply keeps_runCmd | apply keeps_fwStart
    | split | refine keeps_pair (by assumption) ?_)

theorem keeps_execFwRollback (mb : Fin 1032) (core : Fin 4) {s : State}
    (hw : Covers 0x123082D3AB w) (h : Keeps w r s) : Ends w r (execFwRollback mb core s) := by
  unfold execFwRollback
  with_reducible repeat' (beta_reduce; first
    | assumption | exact covers_of hw rfl | (intro _) | apply ends_next | apply keeps_runCmd | apply keeps_fwStart
    | split | refine keeps_pair (by assumption) ?_)

theorem keeps_fwStop (safe : Bool) {s : State}
    (hw : Covers 0x200000002 w) (h : Keeps w r s) : Keeps w r (fwStop safe s) := by
  unfold fwStop
  with_reducible repeat' (beta_reduce; first
    | assumption | exact covers_of hw rfl | (intro _)
    | (extract_lets +onlyGivenNames x; first
      | (refine keeps_cut (w := w) (r := r) (s := x) ?_ ?_; (on_goal 2 => (intro hx; clear_value x)); unfold x; clear x)
      | (refine keeps_cut (w := w) (r := r) (s := x.1) ?_ ?_; (on_goal 2 => (intro hx; clear_value x)); unfold x; clear x)
      | clear_value x)
    | apply keeps_fwUpd | apply keeps_doIf | apply keeps_setCopy | apply keeps_doAll | apply keeps_drewOne | split
    | refine keeps_pair (by assumption) ?_)

theorem keeps_fwCut {s : State}
    (hw : Covers 0x200000002 w) (h : Keeps w r s) : Keeps w r (fwCut s) := by
  unfold fwCut
  with_reducible repeat' (first
    | assumption | exact covers_of hw rfl | apply keeps_fwStop | split | refine keeps_pair (by assumption) ?_)

theorem keeps_fwEnd (code : Nat) {s : State}
    (hw : Covers 0x123002D3AB w) (h : Keeps w r s) : Keeps w r (fwEnd code s) := by
  unfold fwEnd
  with_reducible repeat' (beta_reduce; first
    | assumption | exact covers_of hw rfl | (intro _)
    | (extract_lets +onlyGivenNames x; first
      | (refine keeps_cut (w := w) (r := r) (s := x) ?_ ?_; (on_goal 2 => (intro hx; clear_value x)); unfold x; clear x)
      | (refine keeps_cut (w := w) (r := r) (s := x.1) ?_ ?_; (on_goal 2 => (intro hx; clear_value x)); unfold x; clear x)
      | clear_value x)
    | apply keeps_longEnd | apply keeps_fwUpd | apply keeps_doAll | apply keeps_setCopy | apply keeps_fwCut
    | apply keeps_mbxUpd | split | refine keeps_pair (by assumption) ?_)

theorem keeps_execLongOperationEnd (fw : Bool) (code : Fin 13) {s : State}
    (hw : Covers 0x1E3A06D3AB w) (h : Keeps w r s) : Ends w r (execLongOperationEnd fw code s) := by
  unfold execLongOperationEnd
  with_reducible repeat' (first
    | assumption | exact covers_of hw rfl | apply ends_next | apply keeps_done | apply keeps_fwEnd
    | apply keeps_storeEnd | split | refine keeps_pair (by assumption) ?_)

theorem keeps_execFuseQuery (mb : Fin 1032) (core : Fin 4) {s : State}
    (hw : Covers 0x103082D3AB w) (h : Keeps w r s) : Ends w r (execFuseQuery mb core s) := by
  unfold execFuseQuery
  with_reducible repeat' (beta_reduce; first
    | assumption | exact covers_of hw rfl | (intro _) | apply ends_next | apply keeps_runCmd | split
    | refine keeps_pair (by assumption) ?_)

theorem keeps_fuseWrite (args : List Byte) (v : List Byte) {s : State}
    (hw : Covers 0x100000000 w) (h : Keeps w r s) : Keeps w r (fuseWrite args v s) := by
  unfold fuseWrite
  with_reducible repeat' (beta_reduce; first
    | assumption | exact covers_of hw rfl | (intro _)
    | (extract_lets +onlyGivenNames x; first
      | (refine keeps_cut (w := w) (r := r) (s := x) ?_ ?_; (on_goal 2 => (intro hx; clear_value x)); unfold x; clear x)
      | (refine keeps_cut (w := w) (r := r) (s := x.1) ?_ ?_; (on_goal 2 => (intro hx; clear_value x)); unfold x; clear x)
      | clear_value x)
    | apply keeps_fuseUpd | exact List.Subset.refl _ | exact List.subset_append_left _ _ | split
    | refine keeps_pair (by assumption) ?_)

theorem keeps_fusePartly (x0 : Cmd) (lapse : Bool) (got : BitVec 128) {s : State}
    (hw : Covers 0x113082D3AB w) (h : Keeps w r s) : Keeps w r (fusePartly x0 lapse got s) := by
  unfold fusePartly
  with_reducible repeat' (beta_reduce; first
    | assumption | exact covers_of hw rfl | (intro _)
    | (extract_lets +onlyGivenNames x; first
      | (refine keeps_cut (w := w) (r := r) (s := x) ?_ ?_; (on_goal 2 => (intro hx; clear_value x)); unfold x; clear x)
      | (refine keeps_cut (w := w) (r := r) (s := x.1) ?_ ?_; (on_goal 2 => (intro hx; clear_value x)); unfold x; clear x)
      | clear_value x)
    | apply keeps_cmdDone | apply keeps_set | apply keeps_fuseWrite | split | refine keeps_pair (by assumption) ?_)

theorem keeps_fuseWhole (x0 : Cmd) {s : State}
    (hw : Covers 0x113082D3AB w) (h : Keeps w r s) : Keeps w r (fuseWhole x0 s) := by
  unfold fuseWhole
  with_reducible repeat' (beta_reduce; first
    | assumption | exact covers_of hw rfl | (intro _)
    | (extract_lets +onlyGivenNames x; first
      | (refine keeps_cut (w := w) (r := r) (s := x) ?_ ?_; (on_goal 2 => (intro hx; clear_value x)); unfold x; clear x)
      | (refine keeps_cut (w := w) (r := r) (s := x.1) ?_ ?_; (on_goal 2 => (intro hx; clear_value x)); unfold x; clear x)
      | clear_value x)
    | apply keeps_cmdDone | apply keeps_set | apply keeps_fuseUpd | apply keeps_fuseWrite | exact List.Subset.refl _
    | exact List.subset_append_left _ _ | split | refine keeps_pair (by assumption) ?_)

theorem keeps_fuseEnd (id : Nat) (lapse : Bool) (bad : Bool) (got : BitVec 128) {s : State}
    (hw : Covers 0x113082D3AB w) (h : Keeps w r s) : Keeps w r (fuseEnd id lapse bad got s) := by
  unfold fuseEnd
  with_reducible repeat' (beta_reduce; first
    | assumption | exact covers_of hw rfl | (intro _)
    | (extract_lets +onlyGivenNames x; first
      | (refine keeps_cut (w := w) (r := r) (s := x) ?_ ?_; (on_goal 2 => (intro hx; clear_value x)); unfold x; clear x)
      | (refine keeps_cut (w := w) (r := r) (s := x.1) ?_ ?_; (on_goal 2 => (intro hx; clear_value x)); unfold x; clear x)
      | clear_value x)
    | apply keeps_set | apply keeps_fusePartly | apply keeps_fuseWhole | split | refine keeps_pair (by assumption) ?_)

theorem keeps_fuseStart (en : Bool) (vdd : Bool) (lapse : Bool) (bad : Bool) (got : BitVec 128) (x0 : Cmd) {s : State}
    (hw : Covers 0x103083D3AB w) (h : Keeps w r s) : Keeps w r (fuseStart en vdd lapse bad got x0 s) := by
  unfold fuseStart
  with_reducible repeat' (first
    | assumption | exact covers_of hw rfl
    | (extract_lets +onlyGivenNames x; first
      | (refine keeps_cut (w := w) (r := r) (s := x) ?_ ?_; (on_goal 2 => (intro hx; clear_value x)); unfold x; clear x)
      | (refine keeps_cut (w := w) (r := r) (s := x.1) ?_ ?_; (on_goal 2 => (intro hx; clear_value x)); unfold x; clear x)
      | clear_value x)
    | apply keeps_cmdDone | apply keeps_set | apply keeps_atBoundary | split | refine keeps_pair (by assumption) ?_)

theorem keeps_execFuseProgram (mb : Fin 1032) (core : Fin 4) (en : Bool) (vdd : Bool) (lapse : Bool) (bad : Bool) (got : BitVec 128) {s : State}
    (hw : Covers 0x103083D3AB w) (h : Keeps w r s) : Ends w r (execFuseProgram mb core en vdd lapse bad got s) := by
  unfold execFuseProgram
  with_reducible repeat' (first
    | assumption | exact covers_of hw rfl | (intro _) | apply ends_next | apply keeps_startCmd | apply keeps_fuseStart
    | exact List.Subset.refl _ | exact List.subset_append_left _ _ | split | refine keeps_pair (by assumption) ?_)

theorem keeps_execIfQuery (mb : Fin 1032) (core : Fin 4) {s : State}
    (hw : Covers 0x103082D3AB w) (h : Keeps w r s) : Ends w r (execIfQuery mb core s) := by
  unfold execIfQuery
  with_reducible repeat' (beta_reduce; first
    | assumption | exact covers_of hw rfl | (intro _) | apply ends_next | apply keeps_runCmd | split
    | refine keeps_pair (by assumption) ?_)

theorem keeps_execEcho (mb : Fin 1032) (core : Fin 4) {s : State}
    (hw : Covers 0x103082D3AB w) (h : Keeps w r s) : Ends w r (execEcho mb core s) := by
  unfold execEcho
  with_reducible repeat' (beta_reduce; first
    | assumption | exact covers_of hw rfl | (intro _) | apply ends_next | apply keeps_runCmd | split
    | refine keeps_pair (by assumption) ?_)

theorem keeps_execLogRead (mb : Fin 1032) (core : Fin 4) {s : State}
    (hw : Covers 0x103082D3AB w) (h : Keeps w r s) : Ends w r (execLogRead mb core s) := by
  unfold execLogRead
  with_reducible repeat' (beta_reduce; first
    | assumption | exact covers_of hw rfl | (intro _)
    | (extract_lets +onlyGivenNames x; first
      | (refine keeps_cut (w := w) (r := r) (s := x) ?_ ?_; (on_goal 2 => (intro hx; clear_value x)); unfold x; clear x)
      | (refine keeps_cut (w := w) (r := r) (s := x.1) ?_ ?_; (on_goal 2 => (intro hx; clear_value x)); unfold x; clear x)
      | clear_value x)
    | apply ends_next | apply keeps_runCmd | split | refine keeps_pair (by assumption) ?_)

theorem keeps_execTimeQuery (mb : Fin 1032) (core : Fin 4) {s : State}
    (hw : Covers 0x103082D3AB w) (h : Keeps w r s) : Ends w r (execTimeQuery mb core s) := by
  unfold execTimeQuery
  with_reducible repeat' (beta_reduce; first
    | assumption | exact covers_of hw rfl | (intro _) | apply ends_next | apply keeps_runCmd | split
    | refine keeps_pair (by assumption) ?_)

end Sys2Proof.Machine
end

