-- ==== Sys2Proof/Laws/KeepsModes.lean ====
section
/-! SUPPORT. Laws/KeepsModes.lean: what every operation may change and what it keeps: register bus, debug, faults, modes. -/
namespace Sys2Proof.Machine

set_option Elab.async false
set_option linter.unusedTactic false
set_option linter.unreachableTactic false
set_option linter.unusedVariables false

variable {w : Nat} {r : State}

theorem keeps_loadRegion (i : Nat) {s : State}
    (hw : Covers 0x8 w) (h : Keeps w r s) : Keeps w r (loadRegion i s) := by
  unfold loadRegion
  with_reducible repeat' (beta_reduce; first
    | assumption | exact covers_of hw rfl | (intro _)
    | (extract_lets +onlyGivenNames x; first
      | (refine keeps_cut (w := w) (r := r) (s := x) ?_ ?_; (on_goal 2 => (intro hx; clear_value x)); unfold x; clear x)
      | (refine keeps_cut (w := w) (r := r) (s := x.1) ?_ ?_; (on_goal 2 => (intro hx; clear_value x)); unfold x; clear x)
      | clear_value x)
    | apply keeps_doIf | apply keeps_set | apply keeps_setWord | split | refine keeps_pair (by assumption) ?_)

theorem keeps_debugDenied (a : Nat) (wr : Bool) {s : State}
    (hw : Covers 0x102002D3AB w) (h : Keeps w r s) : Keeps w r (debugDenied a wr s) := by
  unfold debugDenied
  with_reducible repeat' (beta_reduce; first
    | assumption | exact covers_of hw rfl | (intro _)
    | (extract_lets +onlyGivenNames x; first
      | (refine keeps_cut (w := w) (r := r) (s := x) ?_ ?_; (on_goal 2 => (intro hx; clear_value x)); unfold x; clear x)
      | (refine keeps_cut (w := w) (r := r) (s := x.1) ?_ ?_; (on_goal 2 => (intro hx; clear_value x)); unfold x; clear x)
      | clear_value x)
    | apply keeps_raise | apply keeps_inc | apply keeps_setWord | apply keeps_set | apply keeps_doIf
    | apply keeps_drewOne | split | refine keeps_pair (by assumption) ?_)

theorem keeps_keyAttempt (cause : Nat) {s : State}
    (hw : Covers 0x102002D3AB w) (h : Keeps w r s) : Keeps w r (keyAttempt cause s) := by
  unfold keyAttempt
  with_reducible repeat' (first
    | assumption | exact covers_of hw rfl | apply keeps_raise | apply keeps_inc | split
    | refine keeps_pair (by assumption) ?_)

theorem keeps_mapRefused (m : Master) (a : Nat) (len : Nat) (wr : Bool) (cause : Nat) {s : State}
    (hw : Covers 0x102002D3AB w) (h : Keeps w r s) : Keeps w r (mapRefused m a len wr cause s) := by
  unfold mapRefused
  with_reducible repeat' (beta_reduce; first
    | assumption | exact covers_of hw rfl | (intro _) | apply keeps_keyAttempt | apply keeps_refuseHostWrite
    | apply keeps_noteHostRead | apply keeps_raise | apply keeps_inc | apply keeps_accVlog | apply keeps_emit
    | apply keeps_debugDenied | split | refine keeps_pair (by assumption) ?_)

theorem keeps_recordGated (m : Master) (a : Nat) (wr : Bool) (hung : Bool) {s : State}
    (hw : Covers 0x102002F3AB w) (h : Keeps w r s) : Keeps w r (recordGated m a wr hung s) := by
  unfold recordGated
  with_reducible repeat' (beta_reduce; first
    | assumption | exact covers_of hw rfl | (intro _)
    | (extract_lets +onlyGivenNames x; first
      | (refine keeps_cut (w := w) (r := r) (s := x) ?_ ?_; (on_goal 2 => (intro hx; clear_value x)); unfold x; clear x)
      | (refine keeps_cut (w := w) (r := r) (s := x.1) ?_ ?_; (on_goal 2 => (intro hx; clear_value x)); unfold x; clear x)
      | clear_value x)
    | apply keeps_doIf | apply keeps_logEv | apply keeps_raise | apply keeps_inc | apply keeps_set
    | apply keeps_setWord | split | refine keeps_pair (by assumption) ?_)

theorem keeps_rcClear (h0 : Nat) {s : State}
    (hw : Covers 0x2008 w) (h : Keeps w r s) : Keeps w r (rcClear h0 s) := by
  unfold rcClear
  with_reducible repeat' (beta_reduce; first
    | assumption | exact covers_of hw rfl | (intro _)
    | (extract_lets +onlyGivenNames x; first
      | (refine keeps_cut (w := w) (r := r) (s := x) ?_ ?_; (on_goal 2 => (intro hx; clear_value x)); unfold x; clear x)
      | (refine keeps_cut (w := w) (r := r) (s := x.1) ?_ ?_; (on_goal 2 => (intro hx; clear_value x)); unfold x; clear x)
      | clear_value x)
    | apply keeps_doAll | apply keeps_set | exact ⟨rfl, rfl⟩ | split | refine keeps_pair (by assumption) ?_
    | refine keeps_mk ?_)

theorem keeps_writeField (h0 : Nat) (v : Nat) (f : FieldDef) {s : State}
    (hw : Covers 0x8 w) (h : Keeps w r s) : Keeps w r (writeField h0 v f s) := by
  unfold writeField
  with_reducible repeat' (beta_reduce; first
    | assumption | exact covers_of hw rfl | (intro _)
    | (extract_lets +onlyGivenNames x; first
      | (refine keeps_cut (w := w) (r := r) (s := x) ?_ ?_; (on_goal 2 => (intro hx; clear_value x)); unfold x; clear x)
      | (refine keeps_cut (w := w) (r := r) (s := x.1) ?_ ?_; (on_goal 2 => (intro hx; clear_value x)); unfold x; clear x)
      | clear_value x)
    | apply keeps_set | apply keeps_doAll | split | refine keeps_pair (by assumption) ?_)

theorem keeps_writeWord (keep : Nat → Bool) (h0 : Nat) (v : Nat) {s : State}
    (hw : Covers 0x8 w) (h : Keeps w r s) : Keeps w r (writeWord keep h0 v s) := by
  unfold writeWord
  with_reducible repeat' (beta_reduce; first
    | assumption | exact covers_of hw rfl | (intro _) | apply keeps_doAll | apply keeps_writeField | split
    | refine keeps_pair (by assumption) ?_)

theorem keeps_plainWrite (h0 : Nat) (v : Nat) {s : State}
    (hw : Covers 0x8 w) (h : Keeps w r s) : Keeps w r (plainWrite h0 v s) := by
  unfold plainWrite
  with_reducible repeat' (beta_reduce; first
    | assumption | exact covers_of hw rfl | (intro _) | apply keeps_writeWord | split
    | refine keeps_pair (by assumption) ?_)

theorem keeps_lockedWrite (locked : Bool) (h0 : Nat) (v : Nat) {s : State}
    (hw : Covers 0x8 w) (h : Keeps w r s) : Keeps w r (lockedWrite locked h0 v s) := by
  unfold lockedWrite
  with_reducible repeat' (beta_reduce; first
    | assumption | exact covers_of hw rfl | (intro _) | apply keeps_writeWord | split
    | refine keeps_pair (by assumption) ?_)

theorem keeps_enLocked (on : Bool) (h0 : Nat) (v : Nat) {s : State}
    (hw : Covers 0x8 w) (h : Keeps w r s) : Keeps w r (enLocked on h0 v s) := by
  unfold enLocked
  with_reducible repeat' (first
    | assumption | exact covers_of hw rfl | apply keeps_lockedWrite | apply keeps_plainWrite | split
    | refine keeps_pair (by assumption) ?_)

theorem keeps_mbxWrite (mb : Nat) (off : Nat) (v : Nat) {s : State}
    (hw : Covers 0x103082D3AB w) (h : Keeps w r s) : Keeps w r (mbxWrite mb off v s) := by
  unfold mbxWrite
  with_reducible repeat' (first
    | assumption | exact covers_of hw rfl | apply keeps_mbxGo | apply keeps_plainWrite | apply keeps_setWord | split
    | refine keeps_pair (by assumption) ?_)

theorem keeps_msixWrite (c : Nat) (off : Nat) (v : Nat) {s : State}
    (hw : Covers 0x2C0 w) (h : Keeps w r s) : Keeps w r (msixWrite c off v s) := by
  unfold msixWrite
  with_reducible repeat' (beta_reduce; first
    | assumption | exact covers_of hw rfl | (intro _)
    | (extract_lets +onlyGivenNames x; first
      | (refine keeps_cut (w := w) (r := r) (s := x) ?_ ?_; (on_goal 2 => (intro hx; clear_value x)); unfold x; clear x)
      | (refine keeps_cut (w := w) (r := r) (s := x.1) ?_ ?_; (on_goal 2 => (intro hx; clear_value x)); unfold x; clear x)
      | clear_value x)
    | apply keeps_setMsix | apply keeps_doIf | apply keeps_sendPendingVector | split
    | refine keeps_pair (by assumption) ?_)

theorem keeps_qpWrite (c : Nat) (q : Nat) (r0 : Nat) (v : Nat) {s : State}
    (hw : Covers 0x10200BD3AB w) (h : Keeps w r s) : Keeps w r (qpWrite c q r0 v s) := by
  unfold qpWrite
  with_reducible repeat' (first
    | assumption | exact covers_of hw rfl | apply keeps_qpEnable | apply keeps_qpDisable | apply keeps_qpAbortGo
    | apply keeps_plainWrite | split | refine keeps_pair (by assumption) ?_)

theorem keeps_pageWrite (c : Nat) (off : Nat) (v : Nat) {s : State}
    (hw : Covers 0x10308BD3EB w) (h : Keeps w r s) : Keeps w r (pageWrite c off v s) := by
  unfold pageWrite
  with_reducible repeat' (beta_reduce; first
    | assumption | exact covers_of hw rfl | (intro _)
    | (extract_lets +onlyGivenNames x; first
      | (refine keeps_cut (w := w) (r := r) (s := x) ?_ ?_; (on_goal 2 => (intro hx; clear_value x)); unfold x; clear x)
      | (refine keeps_cut (w := w) (r := r) (s := x.1) ?_ ?_; (on_goal 2 => (intro hx; clear_value x)); unfold x; clear x)
      | clear_value x)
    | apply keeps_wdogKick | apply keeps_writeWord | apply keeps_qpWrite | apply keeps_doorbell | apply keeps_mbxWrite
    | apply keeps_msixWrite | apply keeps_plainWrite | exact ⟨rfl, rfl⟩ | split | refine keeps_pair (by assumption) ?_
    | refine keeps_mk ?_)

theorem keeps_winWrite (c : Nat) (w0 : Nat) (r0 : Nat) (v : Nat) {s : State}
    (hw : Covers 0x10008 w) (h : Keeps w r s) : Keeps w r (winWrite c w0 r0 v s) := by
  unfold winWrite
  with_reducible repeat' (beta_reduce; first
    | assumption | exact covers_of hw rfl | (intro _)
    | (extract_lets +onlyGivenNames x; first
      | (refine keeps_cut (w := w) (r := r) (s := x) ?_ ?_; (on_goal 2 => (intro hx; clear_value x)); unfold x; clear x)
      | (refine keeps_cut (w := w) (r := r) (s := x.1) ?_ ?_; (on_goal 2 => (intro hx; clear_value x)); unfold x; clear x)
      | clear_value x)
    | apply keeps_winEnable | apply keeps_doIf | apply keeps_set | apply keeps_winAttrWrite | apply keeps_plainWrite
    | exact ⟨rfl, rfl⟩ | split | refine keeps_pair (by assumption) ?_ | refine keeps_mk ?_)

theorem keeps_shadowWrite (off : Nat) (v : Nat) {s : State}
    (hw : Covers 0x400000 w) (h : Keeps w r s) : Keeps w r (shadowWrite off v s) := by
  unfold shadowWrite
  with_reducible repeat' (beta_reduce; first
    | assumption | exact covers_of hw rfl | (intro _)
    | (extract_lets +onlyGivenNames x; first
      | (refine keeps_cut (w := w) (r := r) (s := x) ?_ ?_; (on_goal 2 => (intro hx; clear_value x)); unfold x; clear x)
      | (refine keeps_cut (w := w) (r := r) (s := x.1) ?_ ?_; (on_goal 2 => (intro hx; clear_value x)); unfold x; clear x)
      | clear_value x)
    | apply keeps_setList | split | refine keeps_pair (by assumption) ?_)

theorem keeps_timerWrite (t : Nat) (v : Nat) {s : State}
    (hw : Covers 0x8 w) (h : Keeps w r s) : Keeps w r (timerWrite t v s) := by
  unfold timerWrite
  with_reducible repeat' (beta_reduce; first
    | assumption | exact covers_of hw rfl | (intro _)
    | (extract_lets +onlyGivenNames x; first
      | (refine keeps_cut (w := w) (r := r) (s := x) ?_ ?_; (on_goal 2 => (intro hx; clear_value x)); unfold x; clear x)
      | (refine keeps_cut (w := w) (r := r) (s := x.1) ?_ ?_; (on_goal 2 => (intro hx; clear_value x)); unfold x; clear x)
      | clear_value x)
    | apply keeps_set | apply keeps_plainWrite | split | refine keeps_pair (by assumption) ?_)

theorem keeps_icWrite (c : Fin 4) (a : Nat) (v : Nat) {s : State}
    (hw : Covers 0x102002DFAB w) (h : Keeps w r s) : Keeps w r (icWrite c a v s) := by
  unfold icWrite
  with_reducible repeat' (beta_reduce; first
    | assumption | exact covers_of hw rfl | (intro _)
    | (extract_lets +onlyGivenNames x; first
      | (refine keeps_cut (w := w) (r := r) (s := x) ?_ ?_; (on_goal 2 => (intro hx; clear_value x)); unfold x; clear x)
      | (refine keeps_cut (w := w) (r := r) (s := x.1) ?_ ?_; (on_goal 2 => (intro hx; clear_value x)); unfold x; clear x)
      | clear_value x)
    | apply keeps_icEoi | apply keeps_plainWrite | apply keeps_setWord | apply keeps_doIf | apply keeps_set
    | apply keeps_timerWrite | exact ⟨rfl, rfl⟩ | split | refine keeps_pair (by assumption) ?_ | refine keeps_mk ?_)

theorem keeps_sbyWrite (n : Nat) (v : Nat) {s : State}
    (hw : Covers 0x8 w) (h : Keeps w r s) : Keeps w r (sbyWrite n v s) := by
  unfold sbyWrite
  with_reducible repeat' (beta_reduce; first
    | assumption | exact covers_of hw rfl | (intro _)
    | (extract_lets +onlyGivenNames x; first
      | (refine keeps_cut (w := w) (r := r) (s := x) ?_ ?_; (on_goal 2 => (intro hx; clear_value x)); unfold x; clear x)
      | (refine keeps_cut (w := w) (r := r) (s := x.1) ?_ ?_; (on_goal 2 => (intro hx; clear_value x)); unfold x; clear x)
      | clear_value x)
    | apply keeps_setWord | split | refine keeps_pair (by assumption) ?_)

theorem keeps_arrayWrite (a : Nat) (v : Nat) {s : State}
    (hw : Covers 0x1076FEF3AB w) (h : Keeps w r s) : Keeps w r (arrayWrite a v s) := by
  unfold arrayWrite
  with_reducible repeat' (beta_reduce; first
    | assumption | exact covers_of hw rfl | (intro _) | apply keeps_doIf | apply keeps_lbRetrain | apply keeps_lbCtlEn
    | apply keeps_set | apply keeps_ulDownCause | apply keeps_ulCtlEn | apply keeps_sbyWrite | apply keeps_enLocked
    | apply keeps_plainWrite | split | refine keeps_pair (by assumption) ?_)

theorem keeps_globalWrite (m : Master) (a : Nat) (v : Nat) {s : State}
    (hw : Covers 0x1076FFF3AB w) (h : Keeps w r s) : Keeps w r (globalWrite m a v s) := by
  unfold globalWrite
  with_reducible repeat' (beta_reduce; first
    | assumption | exact covers_of hw rfl | (intro _)
    | (extract_lets +onlyGivenNames x; first
      | (refine keeps_cut (w := w) (r := r) (s := x) ?_ ?_; (on_goal 2 => (intro hx; clear_value x)); unfold x; clear x)
      | (refine keeps_cut (w := w) (r := r) (s := x.1) ?_ ?_; (on_goal 2 => (intro hx; clear_value x)); unfold x; clear x)
      | clear_value x)
    | apply keeps_set | apply keeps_setWakeEn | apply keeps_doIf | apply keeps_hlRetrain | apply keeps_writeWord
    | apply keeps_ltrSend | apply keeps_plainWrite | apply keeps_atsFlush | apply keeps_atsTrim
    | apply keeps_selWdogWrite | apply keeps_cadCommitGo | apply keeps_ptmCtlWrite | apply keeps_dsBudgetWrite
    | apply keeps_dsHoldupWrite | apply keeps_pfsArm | apply keeps_pfsTrigger | apply keeps_winWrite
    | apply keeps_lockedWrite | apply keeps_shadowWrite | apply keeps_mbxWrite | apply keeps_arrayWrite | split
    | refine keeps_pair (by assumption) ?_)

theorem keeps_farRead (a : Nat) {s : State}
    (hw : Covers 0x2 w) (h : Keeps w r s) : Keeps w r (farRead a s).1 := by
  unfold farRead
  with_reducible repeat' (beta_reduce; first
    | assumption | exact covers_of hw rfl | (intro _) | apply keeps_drewOne | split
    | refine keeps_pair (by assumption) ?_)

theorem keeps_farWrite (a : Nat) (v : Nat) {s : State}
    (hw : Covers 0x200000000 w) (h : Keeps w r s) : Keeps w r (farWrite a v s) := by
  unfold farWrite
  with_reducible repeat' (beta_reduce; first
    | assumption | exact covers_of hw rfl | (intro _) | apply keeps_fwUpd | split
    | refine keeps_pair (by assumption) ?_)

theorem keeps_readAt (m : Master) (a : Nat) {s : State}
    (hw : Covers 0x2C1A w) (h : Keeps w r s) : Keeps w r (readAt m a s).1 := by
  unfold readAt
  with_reducible repeat' (beta_reduce; first
    | assumption | exact covers_of hw rfl | (intro _)
    | (extract_lets +onlyGivenNames x; first
      | (refine keeps_cut (w := w) (r := r) (s := x) ?_ ?_; (on_goal 2 => (intro hx; clear_value x)); unfold x; clear x)
      | (refine keeps_cut (w := w) (r := r) (s := x.1) ?_ ?_; (on_goal 2 => (intro hx; clear_value x)); unfold x; clear x)
      | clear_value x)
    | apply keeps_farRead | apply keeps_strokeLoRead | apply keeps_icClaim | apply keeps_drewOne | apply keeps_rcClear
    | split | refine keeps_pair (by assumption) ?_)

theorem keeps_writeAt (m : Master) (a : Nat) (v : Nat) {s : State}
    (hw : Covers 0x1276FFFFBB w) (h : Keeps w r s) : Keeps w r (writeAt m a v s) := by
  unfold writeAt
  with_reducible repeat' (beta_reduce; first
    | assumption | exact covers_of hw rfl | (intro _) | apply keeps_doIf | apply keeps_farWrite | apply keeps_icWrite
    | apply keeps_setBank | apply keeps_globalWrite | split | refine keeps_pair (by assumption) ?_)

theorem keeps_busRead (m : Master) (a : Nat) {s : State}
    (hw : Covers 0x102042FFBB w) (h : Keeps w r s) : Keeps w r (busRead m a s).1 := by
  unfold busRead
  with_reducible repeat' (beta_reduce; first
    | assumption | exact covers_of hw rfl | (intro _)
    | (extract_lets +onlyGivenNames x; first
      | (refine keeps_cut (w := w) (r := r) (s := x) ?_ ?_; (on_goal 2 => (intro hx; clear_value x)); unfold x; clear x)
      | (refine keeps_cut (w := w) (r := r) (s := x.1) ?_ ?_; (on_goal 2 => (intro hx; clear_value x)); unfold x; clear x)
      | clear_value x)
    | apply keeps_rcClear | apply keeps_answerHost | apply keeps_mapRefused | apply keeps_recordGated
    | apply keeps_readAt | split | refine keeps_pair (by assumption) ?_)

theorem keeps_busWrite (m : Master) (a : Nat) (v : Nat) {s : State}
    (hw : Covers 0x1276FFFFFB w) (h : Keeps w r s) : Keeps w r (busWrite m a v s).1 := by
  unfold busWrite
  with_reducible repeat' (beta_reduce; first
    | assumption | exact covers_of hw rfl | (intro _)
    | (extract_lets +onlyGivenNames x; first
      | (refine keeps_cut (w := w) (r := r) (s := x) ?_ ?_; (on_goal 2 => (intro hx; clear_value x)); unfold x; clear x)
      | (refine keeps_cut (w := w) (r := r) (s := x.1) ?_ ?_; (on_goal 2 => (intro hx; clear_value x)); unfold x; clear x)
      | clear_value x)
    | apply keeps_pageWrite | apply keeps_mapRefused | apply keeps_recordGated | apply keeps_writeAt | split
    | refine keeps_pair (by assumption) ?_)

theorem keeps_routeWrite (a : Nat) (v : BitVec 64) {s : State}
    (hw : Covers 0x10008 w) (h : Keeps w r s) : Keeps w r (routeWrite a v s) := by
  unfold routeWrite
  with_reducible repeat' (first
    | assumption | exact covers_of hw rfl | apply keeps_setWord | exact ⟨rfl, rfl⟩ | split
    | refine keeps_pair (by assumption) ?_ | refine keeps_mk ?_)

theorem keeps_busRead8 (m : Master) (a : Nat) {s : State}
    (hw : Covers 0x102042FFBB w) (h : Keeps w r s) : Keeps w r (busRead8 m a s).1 := by
  unfold busRead8
  with_reducible repeat' (beta_reduce; first
    | assumption | exact covers_of hw rfl | (intro _) | apply keeps_mapRefused | apply keeps_recordGated
    | apply keeps_readAt | apply keeps_busRead | split | refine keeps_pair (by assumption) ?_)

theorem keeps_busWrite8 (m : Master) (a : Nat) (be : BitVec 8) (v : BitVec 64) (met : BitVec 64) {s : State}
    (hw : Covers 0x1276FFFFFB w) (h : Keeps w r s) : Keeps w r (busWrite8 m a be v met s).1 := by
  unfold busWrite8
  with_reducible repeat' (beta_reduce; first
    | assumption | exact covers_of hw rfl | (intro _)
    | (extract_lets +onlyGivenNames x; first
      | (refine keeps_cut (w := w) (r := r) (s := x) ?_ ?_; (on_goal 2 => (intro hx; clear_value x)); unfold x; clear x)
      | (refine keeps_cut (w := w) (r := r) (s := x.1) ?_ ?_; (on_goal 2 => (intro hx; clear_value x)); unfold x; clear x)
      | clear_value x)
    | apply keeps_doorbell | apply keeps_mapRefused | apply keeps_recordGated | apply keeps_writeAt
    | apply keeps_routeWrite | apply keeps_busWrite | split | refine keeps_pair (by assumption) ?_)

theorem keeps_readAnswer (m : Master) (data : List Byte) {s : State}
    (hw : Covers 0x1 w) (h : Keeps w r s) : Keeps w r (readAnswer m data s) := by
  unfold readAnswer
  with_reducible repeat' (beta_reduce; first
    | assumption | exact covers_of hw rfl | (intro _) | apply keeps_emit | split
    | refine keeps_pair (by assumption) ?_)

theorem keeps_regServe (m : Master) (a : Nat) (be : BitVec 8) (wide : Bool) {s : State}
    (hw : Covers 0x102042FFBB w) (h : Keeps w r s) : Keeps w r (regServe m a be wide s) := by
  unfold regServe
  with_reducible repeat' (beta_reduce; first
    | assumption | exact covers_of hw rfl | (intro _) | apply keeps_busRead8 | apply keeps_busRead
    | apply keeps_abortRead | apply keeps_readAnswer | split | refine keeps_pair (by assumption) ?_)

theorem keeps_barrierRead (c : Nat) (a : Nat) (be : BitVec 8) (wide : Bool) {s : State}
    (hw : Covers 0x40009 w) (h : Keeps w r s) : Keeps w r (barrierRead c a be wide s) := by
  unfold barrierRead
  with_reducible repeat' (first
    | assumption | exact covers_of hw rfl | apply keeps_persistRead | apply keeps_wfenceRead | split
    | refine keeps_pair (by assumption) ?_)

theorem keeps_hostReadReg (t : Stroke) (c : Fin 1024) (a : Nat) (be : BitVec 8) (wide : Bool) (i : Instr) {s : State}
    (hw : Covers 0x102046FFBB w) (h : Keeps w r s) : Keeps w r (hostReadReg t c a be wide i s) := by
  unfold hostReadReg
  with_reducible repeat' (first
    | assumption | exact covers_of hw rfl | (intro _) | apply keeps_answerHost | apply keeps_barrierRead
    | apply keeps_inOrder | apply keeps_regServe | split | refine keeps_pair (by assumption) ?_)

theorem keeps_readArrives (m : Master) (a : Nat) (be : BitVec 8) (wide : Bool) (i : Instr) {s : State}
    (hw : Covers 0x102046FFBB w) (h : Keeps w r s) : Keeps w r (readArrives m a be wide i s) := by
  unfold readArrives
  with_reducible repeat' (beta_reduce; first
    | assumption | exact covers_of hw rfl | (intro _) | apply keeps_hostTlp | apply keeps_hostReadReg
    | apply keeps_regServe | split | refine keeps_pair (by assumption) ?_)

theorem keeps_hostWriteReg (t : Stroke) (c : Fin 1024) (a : Nat) (i : Instr) (f : State → State) {s : State}
    (hf : ∀ (s : State), Keeps w r s → Keeps w r (f s)) (hw : Covers 0x420004 w) (h : Keeps w r s) : Keeps w r (hostWriteReg t c a i f s) := by
  unfold hostWriteReg
  with_reducible repeat' (first
    | assumption | exact covers_of hw rfl | (intro _) | apply hf | apply keeps_inOrder | apply keeps_stampedAs | split
    | refine keeps_pair (by assumption) ?_)

theorem keeps_writeArrives (m : Master) (a : Nat) (i : Instr) (f : State → State) {s : State}
    (hf : ∀ (s : State), Keeps w r s → Keeps w r (f s)) (hw : Covers 0x102042D3AF w) (h : Keeps w r s) : Keeps w r (writeArrives m a i f s) := by
  unfold writeArrives
  with_reducible repeat' (beta_reduce; first
    | assumption | exact covers_of hw rfl | (intro _) | apply hf | apply keeps_hostPosted | apply keeps_hostWriteReg
    | split | refine keeps_pair (by assumption) ?_)

theorem keeps_execRegisterRead (m : Master) (a : BitVec 32) (be : BitVec 8) (wide : Bool) {s : State}
    (hw : Covers 0x102046FFBB w) (h : Keeps w r s) : Ends w r (execRegisterRead m a be wide s) := by
  unfold execRegisterRead
  with_reducible repeat' (first
    | assumption | exact covers_of hw rfl | apply ends_next | apply keeps_done | apply keeps_readArrives | split
    | refine keeps_pair (by assumption) ?_)

theorem keeps_putRegister (m : Master) (a : Nat) (be : BitVec 8) (wide : Bool) (v : BitVec 64) (met : BitVec 64) {s : State}
    (hw : Covers 0x1276FFFFFB w) (h : Keeps w r s) : Keeps w r (putRegister m a be wide v met s) := by
  unfold putRegister
  with_reducible repeat' (first
    | assumption | exact covers_of hw rfl | apply keeps_busWrite8 | apply keeps_busWrite | split
    | refine keeps_pair (by assumption) ?_)

theorem keeps_execRegisterWrite (m : Master) (a : BitVec 32) (be : BitVec 8) (wide : Bool) (v : BitVec 64) (met : BitVec 64) {s : State}
    (hw : Covers 0x1276FFFFFF w) (h : Keeps w r s) : Ends w r (execRegisterWrite m a be wide v met s) := by
  unfold execRegisterWrite
  with_reducible repeat' (first
    | assumption | exact covers_of hw rfl | (intro _) | apply ends_next | apply keeps_done | apply keeps_writeArrives
    | apply keeps_putRegister | split | refine keeps_pair (by assumption) ?_)

theorem keeps_execCadStrokeLoRead (m : Master) {s : State}
    (hw : Covers 0x102046FFBB w) (h : Keeps w r s) : Ends w r (execCadStrokeLoRead m s) := by
  unfold execCadStrokeLoRead
  with_reducible repeat' (first
    | assumption | exact covers_of hw rfl | apply ends_next | apply keeps_done | apply keeps_readArrives | split
    | refine keeps_pair (by assumption) ?_)

theorem keeps_putWord (m : Master) (a : Nat) (v : Nat) {s : State}
    (hw : Covers 0x1276FFFFFB w) (h : Keeps w r s) : Keeps w r (putWord m a v s) := by
  unfold putWord
  with_reducible repeat' (first
    | assumption | exact covers_of hw rfl | apply keeps_busWrite | split | refine keeps_pair (by assumption) ?_)

theorem keeps_execIcPendSet (m : Master) (w0 : Fin 9) (bits : Word) {s : State}
    (hw : Covers 0x1276FFFFFF w) (h : Keeps w r s) : Ends w r (execIcPendSet m w0 bits s) := by
  unfold execIcPendSet
  with_reducible repeat' (first
    | assumption | exact covers_of hw rfl | (intro _) | apply ends_next | apply keeps_done | apply keeps_writeArrives
    | apply keeps_putWord | split | refine keeps_pair (by assumption) ?_)

theorem keeps_execIcPendClr (m : Master) (w0 : Fin 9) (bits : Word) (edges : Word) (sets : Word) {s : State}
    (hw : Covers 0x1276FFFFFF w) (h : Keeps w r s) : Ends w r (execIcPendClr m w0 bits edges sets s) := by
  unfold execIcPendClr
  with_reducible repeat' (beta_reduce; first
    | assumption | exact covers_of hw rfl | (intro _) | apply ends_next | apply keeps_done | apply keeps_setWord
    | apply keeps_writeArrives | apply keeps_putWord | split | refine keeps_pair (by assumption) ?_)

theorem keeps_execIcEnSet (m : Master) (w0 : Fin 9) (bits : Word) (clears : Word) {s : State}
    (hw : Covers 0x1276FFFFFF w) (h : Keeps w r s) : Ends w r (execIcEnSet m w0 bits clears s) := by
  unfold execIcEnSet
  with_reducible repeat' (beta_reduce; first
    | assumption | exact covers_of hw rfl | (intro _) | apply ends_next | apply keeps_done | apply keeps_setWord
    | apply keeps_writeArrives | apply keeps_putWord | split | refine keeps_pair (by assumption) ?_)

theorem keeps_execIcEnClr (m : Master) (w0 : Fin 9) (bits : Word) {s : State}
    (hw : Covers 0x1276FFFFFF w) (h : Keeps w r s) : Ends w r (execIcEnClr m w0 bits s) := by
  unfold execIcEnClr
  with_reducible repeat' (first
    | assumption | exact covers_of hw rfl | (intro _) | apply ends_next | apply keeps_done | apply keeps_writeArrives
    | apply keeps_putWord | split | refine keeps_pair (by assumption) ?_)

theorem keeps_edgeMeets (n : Option Nat) {s : State}
    (hw : Covers 0x8 w) (h : Keeps w r s) : Keeps w r (edgeMeets n s) := by
  unfold edgeMeets
  with_reducible repeat' (beta_reduce; first
    | assumption | exact covers_of hw rfl | (intro _) | apply keeps_setPending | split
    | refine keeps_pair (by assumption) ?_)

theorem keeps_execIcClaim (m : Master) (edge : Bool) {s : State}
    (hw : Covers 0x102046FFBB w) (h : Keeps w r s) : Ends w r (execIcClaim m edge s) := by
  unfold execIcClaim
  with_reducible repeat' (first
    | assumption | exact covers_of hw rfl | (intro _) | apply ends_next | apply keeps_done | apply keeps_doIf
    | apply keeps_edgeMeets | apply keeps_readArrives | split | refine keeps_pair (by assumption) ?_)

theorem keeps_execIcEoi (m : Master) (src : BitVec 9) {s : State}
    (hw : Covers 0x1276FFFFFF w) (h : Keeps w r s) : Ends w r (execIcEoi m src s) := by
  unfold execIcEoi
  with_reducible repeat' (first
    | assumption | exact covers_of hw rfl | (intro _) | apply ends_next | apply keeps_done | apply keeps_writeArrives
    | apply keeps_putWord | split | refine keeps_pair (by assumption) ?_)

theorem keeps_execIcHoldWrite (m : Master) (g : Fin 32) (strokes : BitVec 16) {s : State}
    (hw : Covers 0x1276FFFFFF w) (h : Keeps w r s) : Ends w r (execIcHoldWrite m g strokes s) := by
  unfold execIcHoldWrite
  with_reducible repeat' (first
    | assumption | exact covers_of hw rfl | (intro _) | apply ends_next | apply keeps_done | apply keeps_writeArrives
    | apply keeps_putWord | split | refine keeps_pair (by assumption) ?_)

theorem keeps_execCtxSelWdogWrite (m : Master) (v : Word) {s : State}
    (hw : Covers 0x1276FFFFFF w) (h : Keeps w r s) : Ends w r (execCtxSelWdogWrite m v s) := by
  unfold execCtxSelWdogWrite
  with_reducible repeat' (first
    | assumption | exact covers_of hw rfl | (intro _) | apply ends_next | apply keeps_done | apply keeps_writeArrives
    | apply keeps_putWord | split | refine keeps_pair (by assumption) ?_)

theorem keeps_execDevDrainLimitWrite (m : Master) (v : BitVec 10) {s : State}
    (hw : Covers 0x1276FFFFFF w) (h : Keeps w r s) : Ends w r (execDevDrainLimitWrite m v s) := by
  unfold execDevDrainLimitWrite
  with_reducible repeat' (first
    | assumption | exact covers_of hw rfl | (intro _) | apply ends_next | apply keeps_done | apply keeps_writeArrives
    | apply keeps_putWord | split | refine keeps_pair (by assumption) ?_)

theorem keeps_hungAccess (m : Master) (a : Nat) (write : Bool) {s : State}
    (hw : Covers 0x102042F3AB w) (h : Keeps w r s) : Keeps w r (hungAccess m a write s) := by
  unfold hungAccess
  with_reducible repeat' (beta_reduce; first
    | assumption | exact covers_of hw rfl | (intro _) | apply keeps_doIf | apply keeps_abortRead
    | apply keeps_mapRefused | apply keeps_readAnswer | apply keeps_recordGated | split
    | refine keeps_pair (by assumption) ?_)

theorem keeps_hungHost (t : Stroke) (c : Fin 1024) (a : BitVec 32) (write : Bool) {s : State}
    (hw : Covers 0x102042F3AB w) (h : Keeps w r s) : Keeps w r (hungHost t c a write s) := by
  unfold hungHost
  with_reducible repeat' (first
    | assumption | exact covers_of hw rfl | (intro _) | apply keeps_doIf | apply keeps_inOrder
    | apply keeps_hungAccess | split | refine keeps_pair (by assumption) ?_)

theorem keeps_execRegisterAnswerTimeout (m : Master) (a : BitVec 32) (write : Bool) {s : State}
    (hw : Covers 0x102042F3AB w) (h : Keeps w r s) : Ends w r (execRegisterAnswerTimeout m a write s) := by
  unfold execRegisterAnswerTimeout
  with_reducible repeat' (beta_reduce; first
    | assumption | exact covers_of hw rfl | (intro _) | apply ends_next | apply keeps_done | apply keeps_hostPosted
    | apply keeps_hungHost | apply keeps_hostTlp | apply keeps_hungAccess | split
    | refine keeps_pair (by assumption) ?_)

theorem keeps_tapUpd (f : Tap → Tap) {s : State}
    (hw : Covers 0x80000000 w) (h : Keeps w r s) : Keeps w r (State.tapUpd s f) := by
  unfold State.tapUpd
  with_reducible repeat' (first
    | assumption | exact covers_of hw rfl | exact ⟨rfl, rfl⟩ | split | refine keeps_pair (by assumption) ?_
    | refine keeps_mk ?_)

theorem keeps_tapSelect (instr : Nat) (drive : Nat) {s : State}
    (hw : Covers 0x80000000 w) (h : Keeps w r s) : Keeps w r (tapSelect instr drive s) := by
  unfold tapSelect
  with_reducible repeat' (beta_reduce; first
    | assumption | exact covers_of hw rfl | (intro _) | apply keeps_tapUpd | split
    | refine keeps_pair (by assumption) ?_)

theorem keeps_tapLoad (instr : Nat) (drive : Nat) {s : State}
    (hw : Covers 0x80000001 w) (h : Keeps w r s) : Keeps w r (tapLoad instr drive s) := by
  unfold tapLoad
  with_reducible repeat' (first
    | assumption | exact covers_of hw rfl | apply keeps_tapSelect | apply keeps_emit | split
    | refine keeps_pair (by assumption) ?_)

theorem keeps_bypassScan {s : State}
    (hw : Covers 0x1 w) (h : Keeps w r s) : Keeps w r (bypassScan s) := by
  unfold bypassScan
  with_reducible repeat' (first
    | assumption | exact covers_of hw rfl | apply keeps_emit | split | refine keeps_pair (by assumption) ?_)

theorem keeps_tapBypass {s : State}
    (hw : Covers 0x80000001 w) (h : Keeps w r s) : Keeps w r (tapBypass s) := by
  unfold tapBypass
  with_reducible repeat' (first
    | assumption | exact covers_of hw rfl | apply keeps_bypassScan | apply keeps_tapLoad | split
    | refine keeps_pair (by assumption) ?_)

theorem keeps_execTapReset {s : State}
    (hw : Covers 0x80000008 w) (h : Keeps w r s) : Ends w r (execTapReset s) := by
  unfold execTapReset
  with_reducible repeat' (beta_reduce; first
    | assumption | exact covers_of hw rfl | (intro _) | apply ends_next | apply keeps_done | apply keeps_set
    | apply keeps_tapUpd | apply keeps_tapSelect | split | refine keeps_pair (by assumption) ?_)

theorem keeps_execIdcode {s : State}
    (hw : Covers 0x80000001 w) (h : Keeps w r s) : Ends w r (execIdcode s) := by
  unfold execIdcode
  with_reducible repeat' (first
    | assumption | exact covers_of hw rfl | apply ends_next | apply keeps_done | apply keeps_emit
    | apply keeps_tapLoad | split | refine keeps_pair (by assumption) ?_)

theorem keeps_execSamplePreload (sampled : BitVec 2157) (cells : BitVec 2157) {s : State}
    (hw : Covers 0x80000001 w) (h : Keeps w r s) : Ends w r (execSamplePreload sampled cells s) := by
  unfold execSamplePreload
  with_reducible repeat' (beta_reduce; first
    | assumption | exact covers_of hw rfl | (intro _) | apply ends_next | apply keeps_done | apply keeps_emit
    | apply keeps_tapUpd | apply keeps_tapLoad | split | refine keeps_pair (by assumption) ?_)

theorem keeps_scanDenied {s : State}
    (hw : Covers 0x102002D3AB w) (h : Keeps w r s) : Keeps w r (scanDenied s) := by
  unfold scanDenied
  with_reducible repeat' (first
    | assumption | exact covers_of hw rfl | apply keeps_raise | apply keeps_setWord | apply keeps_inc
    | apply keeps_set | split | refine keeps_pair (by assumption) ?_)

theorem keeps_scan (instr : Nat) (drive : Nat) (f : State → State) {s : State}
    (hf : ∀ (s : State), Keeps w r s → Keeps w r (f s)) (hw : Covers 0x10A002D3AB w) (h : Keeps w r s) : Keeps w r (scan instr drive f s) := by
  unfold scan
  with_reducible repeat' (first
    | assumption | exact covers_of hw rfl | (intro _) | apply hf | apply keeps_scanDenied | apply keeps_tapBypass
    | apply keeps_tapLoad | split | refine keeps_pair (by assumption) ?_)

theorem keeps_execExtest (sampled : BitVec 2157) (cells : BitVec 2157) {s : State}
    (hw : Covers 0x10A002D3AB w) (h : Keeps w r s) : Ends w r (execExtest sampled cells s) := by
  unfold execExtest
  with_reducible repeat' (beta_reduce; first
    | assumption | exact covers_of hw rfl | (intro _) | apply ends_next | apply keeps_done | apply keeps_scan
    | apply keeps_emit | apply keeps_tapUpd | split | refine keeps_pair (by assumption) ?_)

theorem keeps_execClamp {s : State}
    (hw : Covers 0x10A002D3AB w) (h : Keeps w r s) : Ends w r (execClamp s) := by
  unfold execClamp
  with_reducible repeat' (first
    | assumption | exact covers_of hw rfl | (intro _) | apply ends_next | apply keeps_done | apply keeps_scan
    | apply keeps_bypassScan | split | refine keeps_pair (by assumption) ?_)

theorem keeps_execHighz {s : State}
    (hw : Covers 0x10A002D3AB w) (h : Keeps w r s) : Ends w r (execHighz s) := by
  unfold execHighz
  with_reducible repeat' (first
    | assumption | exact covers_of hw rfl | (intro _) | apply ends_next | apply keeps_done | apply keeps_scan
    | apply keeps_bypassScan | split | refine keeps_pair (by assumption) ?_)

theorem keeps_execBypass {s : State}
    (hw : Covers 0x80000001 w) (h : Keeps w r s) : Ends w r (execBypass s) := by
  unfold execBypass
  with_reducible repeat' (first
    | assumption | exact covers_of hw rfl | apply ends_next | apply keeps_done | apply keeps_tapBypass | split
    | refine keeps_pair (by assumption) ?_)

theorem keeps_execDap {s : State}
    (hw : Covers 0x80000001 w) (h : Keeps w r s) : Ends w r (execDap s) := by
  unfold execDap
  with_reducible repeat' (first
    | assumption | exact covers_of hw rfl | apply ends_next | apply keeps_done | apply keeps_tapBypass
    | apply keeps_tapLoad | split | refine keeps_pair (by assumption) ?_)

theorem keeps_dapDone (r0 : BusAns) {s : State}
    (hw : Covers 0x80000009 w) (h : Keeps w r s) : Keeps w r (dapDone r0 s) := by
  unfold dapDone
  with_reducible repeat' (beta_reduce; first
    | assumption | exact covers_of hw rfl | (intro _)
    | (extract_lets +onlyGivenNames x; first
      | (refine keeps_cut (w := w) (r := r) (s := x) ?_ ?_; (on_goal 2 => (intro hx; clear_value x)); unfold x; clear x)
      | (refine keeps_cut (w := w) (r := r) (s := x.1) ?_ ?_; (on_goal 2 => (intro hx; clear_value x)); unfold x; clear x)
      | clear_value x)
    | apply keeps_emit | apply keeps_tapUpd | apply keeps_inc | split | refine keeps_pair (by assumption) ?_)

theorem keeps_execDapAccessGo (a : BitVec 32) (write : Bool) (data : BitVec 32) {s : State}
    (hw : Covers 0x12F6FFFFFB w) (h : Keeps w r s) : Ends w r (execDapAccessGo a write data s) := by
  unfold execDapAccessGo
  with_reducible repeat' (beta_reduce; first
    | assumption | exact covers_of hw rfl | (intro _)
    | (extract_lets +onlyGivenNames x; first
      | (refine keeps_cut (w := w) (r := r) (s := x) ?_ ?_; (on_goal 2 => (intro hx; clear_value x)); unfold x; clear x)
      | (refine keeps_cut (w := w) (r := r) (s := x.1) ?_ ?_; (on_goal 2 => (intro hx; clear_value x)); unfold x; clear x)
      | clear_value x)
    | apply ends_next | apply keeps_done | apply keeps_busWrite | apply keeps_doIf | apply keeps_raise
    | apply keeps_tapUpd | apply keeps_set | apply keeps_busRead | apply keeps_dapDone | split
    | refine keeps_pair (by assumption) ?_)

theorem keeps_smbReply (code : Nat) (put : List Byte) (status : Nat) (data : List Byte) (back : List Byte) {s : State}
    (hw : Covers 0x1 w) (h : Keeps w r s) : Keeps w r (smbReply code put status data back s) := by
  unfold smbReply
  with_reducible repeat' (first
    | assumption | exact covers_of hw rfl | apply keeps_emit | split | refine keeps_pair (by assumption) ?_)

theorem keeps_smbWrite (pec : Bool) (f : State → State) {s : State}
    (hf : ∀ (s : State), Keeps w r s → Keeps w r (f s)) (hw : Covers 0x8 w) (h : Keeps w r s) : Keeps w r (smbWrite pec f s) := by
  unfold smbWrite
  with_reducible repeat' (first
    | assumption | exact covers_of hw rfl | (intro _) | apply hf | apply keeps_inc | split
    | refine keeps_pair (by assumption) ?_)

theorem keeps_smbCount (r0 : BusAns) {s : State}
    (hw : Covers 0x8 w) (h : Keeps w r s) : Keeps w r (smbCount r0 s) := by
  unfold smbCount
  with_reducible repeat' (beta_reduce; first
    | assumption | exact covers_of hw rfl | (intro _) | apply keeps_doIf | apply keeps_inc | split
    | refine keeps_pair (by assumption) ?_)

theorem keeps_smbFill (mb : Nat) (xs : List (Nat × Nat)) (d : Bool) {s : State} (hw : Covers 0x103082D3AB w)
    (h : Keeps w r s) : Keeps w r (smbFill mb xs d s).1 := by
  induction xs generalizing s d with
  | nil => exact h
  | cons x xs ih => exact ih _ (keeps_mbxWrite _ _ _ (covers_of hw rfl) h)

theorem keeps_readReply (a : Nat) (status : Nat) (data : List Byte) {s : State}
    (hw : Covers 0x1 w) (h : Keeps w r s) : Keeps w r (readReply a status data s) := by
  unfold readReply
  with_reducible repeat' (first
    | assumption | exact covers_of hw rfl | apply keeps_smbReply | split | refine keeps_pair (by assumption) ?_)

theorem keeps_smbRegRead (a : Word) {s : State} (hw : Covers 0x102042FFBB w) (h : Keeps w r s) :
    Keeps w r (smbRegRead a s) := by
  unfold smbRegRead
  have hb := keeps_busRead .bc (a.toNat - a.toNat % 4) (covers_of hw rfl) h
  generalize busRead .bc (a.toNat - a.toNat % 4) s = p at hb ⊢
  obtain ⟨s1, b⟩ := p
  have hc := keeps_smbCount b (covers_of hw rfl) hb
  cases b with
  | ok v => exact keeps_readReply _ _ _ (covers_of hw rfl) hc
  | gated => exact keeps_readReply _ _ _ (covers_of hw rfl) hc
  | nowhere => exact keeps_readReply _ _ _ (covers_of hw rfl) (keeps_drewOne (covers_of hw rfl) hc)
  | denied => exact keeps_readReply _ _ _ (covers_of hw rfl) (keeps_drewOne (covers_of hw rfl) hc)

theorem keeps_smbRegWrite (a : Word) (v : Word) {s : State}
    (hw : Covers 0x1276FFFFFB w) (h : Keeps w r s) : Keeps w r (smbRegWrite a v s) := by
  unfold smbRegWrite
  with_reducible repeat' (beta_reduce; first
    | assumption | exact covers_of hw rfl | (intro _) | apply keeps_busWrite | apply keeps_smbReply
    | apply keeps_smbCount | split | refine keeps_pair (by assumption) ?_)

theorem keeps_smbMbxWrite (off : Nat) (data : List Byte) {s : State}
    (hw : Covers 0x103082D3AB w) (h : Keeps w r s) : Keeps w r (smbMbxWrite off data s) := by
  unfold smbMbxWrite
  with_reducible repeat' (beta_reduce; first
    | assumption | exact covers_of hw rfl | (intro _)
    | (extract_lets +onlyGivenNames x; first
      | (refine keeps_cut (w := w) (r := r) (s := x) ?_ ?_; (on_goal 2 => (intro hx; clear_value x)); unfold x; clear x)
      | (refine keeps_cut (w := w) (r := r) (s := x.1) ?_ ?_; (on_goal 2 => (intro hx; clear_value x)); unfold x; clear x)
      | clear_value x)
    | apply keeps_smbFill | apply keeps_doIf | apply keeps_inc | split | refine keeps_pair (by assumption) ?_)

theorem keeps_smbMbxRead (off : Nat) (len : Nat) {s : State}
    (hw : Covers 0x1 w) (h : Keeps w r s) : Keeps w r (smbMbxRead off len s) := by
  unfold smbMbxRead
  with_reducible repeat' (beta_reduce; first
    | assumption | exact covers_of hw rfl | (intro _)
    | (extract_lets +onlyGivenNames x; first
      | (refine keeps_cut (w := w) (r := r) (s := x) ?_ ?_; (on_goal 2 => (intro hx; clear_value x)); unfold x; clear x)
      | (refine keeps_cut (w := w) (r := r) (s := x.1) ?_ ?_; (on_goal 2 => (intro hx; clear_value x)); unfold x; clear x)
      | clear_value x)
    | apply keeps_smbReply | split | refine keeps_pair (by assumption) ?_)

theorem keeps_smbAttn {s : State}
    (hw : Covers 0x1 w) (h : Keeps w r s) : Keeps w r (smbAttn s) := by
  unfold smbAttn
  with_reducible repeat' (first
    | assumption | exact covers_of hw rfl
    | (extract_lets +onlyGivenNames x; first
      | (refine keeps_cut (w := w) (r := r) (s := x) ?_ ?_; (on_goal 2 => (intro hx; clear_value x)); unfold x; clear x)
      | (refine keeps_cut (w := w) (r := r) (s := x.1) ?_ ?_; (on_goal 2 => (intro hx; clear_value x)); unfold x; clear x)
      | clear_value x)
    | apply keeps_emit | split | refine keeps_pair (by assumption) ?_)

theorem keeps_smbRun (x0 : SmbReq) {s : State}
    (hw : Covers 0x1276FFFFFB w) (h : Keeps w r s) : Keeps w r (smbRun x0 s) := by
  unfold smbRun
  with_reducible repeat' (beta_reduce; first
    | assumption | exact covers_of hw rfl | (intro _) | apply keeps_smbRegRead | apply keeps_smbWrite
    | apply keeps_smbRegWrite | apply keeps_smbMbxWrite | apply keeps_smbMbxRead | apply keeps_smbAttn
    | apply keeps_mbxGo | split | refine keeps_pair (by assumption) ?_)

theorem keeps_smb (dev : BitVec 7) (r0 : SmbReq) {s : State}
    (hw : Covers 0x1276FFFFFB w) (h : Keeps w r s) : Keeps w r (smb dev r0 s) := by
  unfold smb
  with_reducible repeat' (first
    | assumption | exact covers_of hw rfl | apply keeps_smbMatch | apply keeps_smbRun | split
    | refine keeps_pair (by assumption) ?_)

theorem keeps_smbServe {s : State}
    (hw : Covers 0x1276FFFFFB w) (h : Keeps w r s) : Keeps w r (smbServe s) := by
  unfold smbServe
  with_reducible repeat' (beta_reduce; first
    | assumption | exact covers_of hw rfl | (intro _) | apply keeps_smbRun | apply keeps_pwrUpd | split
    | refine keeps_pair (by assumption) ?_)

theorem keeps_execSmbRegRead (dev : BitVec 7) (a : BitVec 32) {s : State}
    (hw : Covers 0x1276FFFFFB w) (h : Keeps w r s) : Ends w r (execSmbRegRead dev a s) := by
  unfold execSmbRegRead
  with_reducible repeat' (first
    | assumption | exact covers_of hw rfl | apply ends_next | apply keeps_done | apply keeps_smb | split
    | refine keeps_pair (by assumption) ?_)

theorem keeps_execSmbRegWrite (dev : BitVec 7) (pec : Bool) (a : BitVec 32) (v : BitVec 32) {s : State}
    (hw : Covers 0x1276FFFFFB w) (h : Keeps w r s) : Ends w r (execSmbRegWrite dev pec a v s) := by
  unfold execSmbRegWrite
  with_reducible repeat' (first
    | assumption | exact covers_of hw rfl | apply ends_next | apply keeps_done | apply keeps_smb | split
    | refine keeps_pair (by assumption) ?_)

theorem keeps_execSmbMbxWrite (dev : BitVec 7) (pec : Bool) (off : Fin 4096) (data : List (BitVec 8)) {s : State}
    (hw : Covers 0x1276FFFFFB w) (h : Keeps w r s) : Ends w r (execSmbMbxWrite dev pec off data s) := by
  unfold execSmbMbxWrite
  with_reducible repeat' (first
    | assumption | exact covers_of hw rfl | apply ends_next | apply keeps_done | apply keeps_smb | split
    | refine keeps_pair (by assumption) ?_)

theorem keeps_execSmbMbxRead (dev : BitVec 7) (off : Fin 4096) (len : Fin 256) {s : State}
    (hw : Covers 0x1276FFFFFB w) (h : Keeps w r s) : Ends w r (execSmbMbxRead dev off len s) := by
  unfold execSmbMbxRead
  with_reducible repeat' (first
    | assumption | exact covers_of hw rfl | apply ends_next | apply keeps_done | apply keeps_smb | split
    | refine keeps_pair (by assumption) ?_)

theorem keeps_execSmbAttn (dev : BitVec 7) {s : State}
    (hw : Covers 0x1276FFFFFB w) (h : Keeps w r s) : Ends w r (execSmbAttn dev s) := by
  unfold execSmbAttn
  with_reducible repeat' (first
    | assumption | exact covers_of hw rfl | apply ends_next | apply keeps_done | apply keeps_smb | split
    | refine keeps_pair (by assumption) ?_)

theorem keeps_fltUpd (f : Flt → Flt) {s : State}
    (hw : Covers 0x2000 w) (h : Keeps w r s) : Keeps w r (State.fltUpd s f) := by
  unfold State.fltUpd
  with_reducible repeat' (first
    | assumption | exact covers_of hw rfl | exact ⟨rfl, rfl⟩ | split | refine keeps_pair (by assumption) ?_
    | refine keeps_mk ?_)

theorem keeps_cmdInterrupted (x0 : Cmd) {s : State}
    (hw : Covers 0x103086D3AB w) (h : Keeps w r s) : Keeps w r (cmdInterrupted x0 s) := by
  unfold cmdInterrupted
  with_reducible repeat' (beta_reduce; first
    | assumption | exact covers_of hw rfl | (intro _)
    | (extract_lets +onlyGivenNames x; first
      | (refine keeps_cut (w := w) (r := r) (s := x) ?_ ?_; (on_goal 2 => (intro hx; clear_value x)); unfold x; clear x)
      | (refine keeps_cut (w := w) (r := r) (s := x.1) ?_ ?_; (on_goal 2 => (intro hx; clear_value x)); unfold x; clear x)
      | clear_value x)
    | apply keeps_cmdsUpd | apply keeps_inc | apply keeps_set | apply keeps_mbxUpd | apply keeps_cmdDone
    | apply keeps_doAll | apply keeps_ctxUpd | exact ⟨rfl, rfl⟩ | split | refine keeps_pair (by assumption) ?_)

theorem keeps_interruptCore (core : Nat) (just : Option Nat) {s : State}
    (hw : Covers 0x103086D3AB w) (h : Keeps w r s) : Keeps w r (interruptCore core just s) := by
  unfold interruptCore
  with_reducible repeat' (beta_reduce; first
    | assumption | exact covers_of hw rfl | (intro _)
    | (extract_lets +onlyGivenNames x; first
      | (refine keeps_cut (w := w) (r := r) (s := x) ?_ ?_; (on_goal 2 => (intro hx; clear_value x)); unfold x; clear x)
      | (refine keeps_cut (w := w) (r := r) (s := x.1) ?_ ?_; (on_goal 2 => (intro hx; clear_value x)); unfold x; clear x)
      | clear_value x)
    | apply keeps_doAll | apply keeps_cmdInterrupted | split | refine keeps_pair (by assumption) ?_)

theorem keeps_execCoreWatchdogExpiry (core : Fin 4) {s : State}
    (hw : Covers 0x102002F3AB w) (h : Keeps w r s) : Ends w r (execCoreWatchdogExpiry core s) := by
  unfold execCoreWatchdogExpiry
  with_reducible repeat' (beta_reduce; first
    | assumption | exact covers_of hw rfl | (intro _) | apply ends_next | apply keeps_done | apply keeps_fltUpd
    | apply keeps_raise | split | refine keeps_pair (by assumption) ?_)

theorem keeps_coreFence (core : Nat) (cause : Nat) (just : Option Nat) {s : State}
    (hw : Covers 0x103086F7AB w) (h : Keeps w r s) : Keeps w r (coreFence core cause just s) := by
  unfold coreFence
  with_reducible repeat' (beta_reduce; first
    | assumption | exact covers_of hw rfl | (intro _)
    | (extract_lets +onlyGivenNames x; first
      | (refine keeps_cut (w := w) (r := r) (s := x) ?_ ?_; (on_goal 2 => (intro hx; clear_value x)); unfold x; clear x)
      | (refine keeps_cut (w := w) (r := r) (s := x.1) ?_ ?_; (on_goal 2 => (intro hx; clear_value x)); unfold x; clear x)
      | clear_value x)
    | apply keeps_fltUpd | apply keeps_reportCie | apply keeps_reportDegraded | apply keeps_logEv | apply keeps_inc
    | apply keeps_bcAttn | apply keeps_interruptCore | apply keeps_icFence | split
    | refine keeps_pair (by assumption) ?_)

theorem keeps_execCoreFence (core : Fin 4) (parity : Bool) (just : Option (Fin 1032)) {s : State}
    (hw : Covers 0x103086F7AB w) (h : Keeps w r s) : Ends w r (execCoreFence core parity just s) := by
  unfold execCoreFence
  with_reducible repeat' (beta_reduce; first
    | assumption | exact covers_of hw rfl | (intro _) | apply ends_next | apply keeps_done | apply keeps_coreFence
    | split | refine keeps_pair (by assumption) ?_)

theorem keeps_execFaultStop (reason : Fin 6) {s : State}
    (hw : Covers 0x102002F3AB w) (h : Keeps w r s) : Ends w r (execFaultStop reason s) := by
  unfold execFaultStop
  with_reducible repeat' (first
    | assumption | exact covers_of hw rfl | apply ends_next | apply keeps_done | apply keeps_faultStop | split
    | refine keeps_pair (by assumption) ?_)

theorem keeps_fwRestart (trigger : Nat) (just : List Nat) {s : State}
    (hw : Covers 0x103086F7AB w) (h : Keeps w r s) : Keeps w r (fwRestart trigger just s) := by
  unfold fwRestart
  with_reducible repeat' (beta_reduce; first
    | assumption | exact covers_of hw rfl | (intro _) | apply keeps_faultStop | apply keeps_fltUpd
    | apply keeps_bcAttn | apply keeps_inc | apply keeps_set | apply keeps_pwrUpd | apply keeps_doAll
    | apply keeps_interruptCore | apply keeps_icUnstack | split | refine keeps_pair (by assumption) ?_)

theorem keeps_execFirmwareRestart (check : Bool) (just : List (Fin 1032)) {s : State}
    (hw : Covers 0x103086F7AB w) (h : Keeps w r s) : Ends w r (execFirmwareRestart check just s) := by
  unfold execFirmwareRestart
  with_reducible repeat' (beta_reduce; first
    | assumption | exact covers_of hw rfl | (intro _) | apply ends_next | apply keeps_done | apply keeps_fwRestart
    | split | refine keeps_pair (by assumption) ?_)

theorem keeps_sendWaiting {s : State}
    (hw : Covers 0x107086D3AB w) (h : Keeps w r s) : Keeps w r (sendWaiting s) := by
  unfold sendWaiting
  with_reducible repeat' (beta_reduce; first
    | assumption | exact covers_of hw rfl | (intro _)
    | (extract_lets +onlyGivenNames x; first
      | (refine keeps_cut (w := w) (r := r) (s := x) ?_ ?_; (on_goal 2 => (intro hx; clear_value x)); unfold x; clear x)
      | (refine keeps_cut (w := w) (r := r) (s := x.1) ?_ ?_; (on_goal 2 => (intro hx; clear_value x)); unfold x; clear x)
      | clear_value x)
    | apply keeps_doAll | apply keeps_sendState | apply keeps_stateLost | exact ⟨rfl, rfl⟩ | split
    | refine keeps_pair (by assumption) ?_ | refine keeps_mk ?_)

theorem keeps_restartEnd (k : Nat) (bad : List Nat) {s : State}
    (hw : Covers 0x127086F3AB w) (h : Keeps w r s) : Keeps w r (restartEnd k bad s) := by
  unfold restartEnd
  with_reducible repeat' (beta_reduce; first
    | assumption | exact covers_of hw rfl | (intro _) | apply keeps_sendWaiting | apply keeps_fltUpd
    | apply keeps_logEv | apply keeps_set | apply keeps_fwUpd | apply keeps_setWord | apply keeps_doIf
    | apply keeps_drewOne | split | refine keeps_pair (by assumption) ?_)

theorem keeps_execFirmwareRestartComplete (rejected : Fin 4) {s : State}
    (hw : Covers 0x127086F3AB w) (h : Keeps w r s) : Ends w r (execFirmwareRestartComplete rejected s) := by
  unfold execFirmwareRestartComplete
  with_reducible repeat' (beta_reduce; first
    | assumption | exact covers_of hw rfl | (intro _) | apply ends_next | apply keeps_done | apply keeps_restartEnd
    | split | refine keeps_pair (by assumption) ?_)

theorem keeps_execSramUncorrectableError (a : BitVec 32) {s : State}
    (hw : Covers 0x2008 w) (h : Keeps w r s) : Ends w r (execSramUncorrectableError a s) := by
  unfold execSramUncorrectableError
  with_reducible repeat' (beta_reduce; first
    | assumption | exact covers_of hw rfl | (intro _) | apply ends_next | apply keeps_done | apply keeps_doIf
    | apply keeps_fltUpd | apply keeps_logEv | apply keeps_inc | split | refine keeps_pair (by assumption) ?_)

theorem keeps_nfParity (n : Nat) {s : State}
    (hw : Covers 0x102A02F3AB w) (h : Keeps w r s) : Keeps w r (nfParity n s) := by
  unfold nfParity
  with_reducible repeat' (beta_reduce; first
    | assumption | exact covers_of hw rfl | (intro _)
    | (extract_lets +onlyGivenNames x; first
      | (refine keeps_cut (w := w) (r := r) (s := x) ?_ ?_; (on_goal 2 => (intro hx; clear_value x)); unfold x; clear x)
      | (refine keeps_cut (w := w) (r := r) (s := x.1) ?_ ?_; (on_goal 2 => (intro hx; clear_value x)); unfold x; clear x)
      | clear_value x)
    | apply keeps_reportDegraded | apply keeps_doAll | apply keeps_lunLost | apply keeps_fltUpd | split
    | refine keeps_pair (by assumption) ?_)

theorem keeps_failPeer (k : Nat) (cause : Nat) {s : State}
    (hw : Covers 0x102042D3AB w) (h : Keeps w r s) : Keeps w r (failPeer k cause s) := by
  unfold failPeer
  with_reducible repeat' (beta_reduce; first
    | assumption | exact covers_of hw rfl | (intro _) | apply keeps_ulFree | apply keeps_peerRefused
    | apply keeps_linkUpd | split | refine keeps_pair (by assumption) ?_)

theorem keeps_failReg (m : Master) (a : Nat) (wr : Bool) (cause : Nat) {s : State}
    (hw : Covers 0x102042D3AB w) (h : Keeps w r s) : Keeps w r (failReg m a wr cause s) := by
  unfold failReg
  with_reducible repeat' (beta_reduce; first
    | assumption | exact covers_of hw rfl | (intro _) | apply keeps_doIf | apply keeps_abortRead
    | apply keeps_readAnswer | apply keeps_emit | apply keeps_readReply | apply keeps_smbCount | apply keeps_drewOne
    | apply keeps_mapRefused | split | refine keeps_pair (by assumption) ?_)

theorem keeps_failClosed (x0 : RefusedAccess) {s : State}
    (hw : Covers 0x10205AD3AB w) (h : Keeps w r s) : Keeps w r (failClosed x0 s) := by
  unfold failClosed
  with_reducible repeat' (beta_reduce; first
    | assumption | exact covers_of hw rfl | (intro _)
    | (extract_lets +onlyGivenNames x; first
      | (refine keeps_cut (w := w) (r := r) (s := x) ?_ ?_; (on_goal 2 => (intro hx; clear_value x)); unfold x; clear x)
      | (refine keeps_cut (w := w) (r := r) (s := x.1) ?_ ?_; (on_goal 2 => (intro hx; clear_value x)); unfold x; clear x)
      | clear_value x)
    | apply keeps_refuseHostWrite | apply keeps_doIf | apply keeps_takeWseq | apply keeps_doAll
    | apply keeps_loadRegion | apply keeps_drewOne | apply keeps_refuseHostRead | apply keeps_failReg
    | apply keeps_respOut | apply keeps_inc | apply keeps_upRefused | apply keeps_failPeer | apply keeps_finish
    | apply keeps_refuseDesc | split | refine keeps_pair (by assumption) ?_)

theorem keeps_poisonTlp {s : State}
    (hw : Covers 0x1 w) (h : Keeps w r s) : Keeps w r (poisonTlp s) := by
  unfold poisonTlp
  with_reducible repeat' (beta_reduce; first
    | assumption | exact covers_of hw rfl | (intro _) | exact ⟨rfl, rfl⟩ | split
    | refine keeps_pair (by assumption) ?_ | refine keeps_mk ?_)

theorem keeps_parityOutcome (e : ParityErr) {s : State}
    (hw : Covers 0x102A7FF3AB w) (h : Keeps w r s) : Keeps w r (parityOutcome e s) := by
  unfold parityOutcome
  with_reducible repeat' (beta_reduce; first
    | assumption | exact covers_of hw rfl | (intro _) | apply keeps_reportCie | apply keeps_reportDegraded
    | apply keeps_poisonTlp | apply keeps_emit | apply keeps_doIf | apply keeps_leaveActive | apply keeps_ulDownCause
    | apply keeps_dramUncorrectable | apply keeps_nfParity | apply keeps_faultStop | apply keeps_failClosed
    | exact ⟨rfl, rfl⟩ | split | refine keeps_pair (by assumption) ?_ | refine keeps_mk ?_)

theorem keeps_execInternalParityError (e : ParityErr) {s : State}
    (hw : Covers 0x102A7FF3AB w) (h : Keeps w r s) : Ends w r (execInternalParityError e s) := by
  unfold execInternalParityError
  with_reducible repeat' (first
    | assumption | exact covers_of hw rfl | apply ends_next | apply keeps_done | apply keeps_parityOutcome
    | apply keeps_logEv | apply keeps_raise | split | refine keeps_pair (by assumption) ?_)

theorem keeps_storeClose (stop : Nat) {s : State}
    (hw : Covers 0xA000000 w) (h : Keeps w r s) : Keeps w r (storeClose stop s) := by
  unfold storeClose
  with_reducible repeat' (beta_reduce; first
    | assumption | exact covers_of hw rfl | (intro _)
    | (extract_lets +onlyGivenNames x; first
      | (refine keeps_cut (w := w) (r := r) (s := x) ?_ ?_; (on_goal 2 => (intro hx; clear_value x)); unfold x; clear x)
      | (refine keeps_cut (w := w) (r := r) (s := x.1) ?_ ?_; (on_goal 2 => (intro hx; clear_value x)); unfold x; clear x)
      | clear_value x)
    | apply keeps_medUpd | apply keeps_dsUpd | apply keeps_doIf | exact ⟨rfl, rfl⟩ | split
    | refine keeps_pair (by assumption) ?_)

theorem keeps_systemReset (stop : Nat) {s : State} (hw : Covers 0x167FFFFFFE w) (h : Keeps w r s) : Keeps w r (systemReset stop s) := by
  have hc := keeps_storeClose stop (covers_of hw rfl) (keeps_fwCut (covers_of hw rfl) h)
  unfold systemReset
  extract_lets s1 d f dev flt pwr fw t
  repeat' (with_reducible first | apply keeps_set | exact covers_of hw rfl)
  refine ⟨hc.pending, hc.marks, fun hr => ?_, fun hr => ⟨(hc.mem hr).2, (hc.mem hr).2⟩, fun p hp => ?_⟩
  · exact tabWf_tabKeep _ _ _ (hc.regs hr)
  · have hs := hc.same p hp
    cases p <;> first | exact (covers_not hw hp rfl).elim | exact hs

theorem keeps_kickstand {s : State} (hw : Covers 0x16FFFFFFFE w) (h : Keeps w r s) :
    Keeps w r { pending := s.pending, out := s.out, draws := s.draws, fuses := s.fuses, fw := s.fw, ds := s.ds, med := s.med } := by
  refine ⟨h.pending, h.marks, fun _ => tabWf_nil _, h.mem, fun p hp => ?_⟩
  have hs := h.same p hp
  cases p <;> first | exact (covers_not hw hp rfl).elim | exact hs


theorem keeps_coldReset {s : State} (hw : Covers 0x16FFFFFFFE w) (h : Keeps w r s) : Keeps w r (coldReset s) := by
  have hb : Covers 8 w := covers_of hw rfl
  unfold coldReset
  extract_lets t dev flt u
  have hc : Keeps w r t := keeps_systemReset 3 (covers_of hw rfl) h
  have hu : Keeps w r u := keeps_kickstand hw hc
  clear_value u
  clear_value t
  with_reducible apply keeps_set _ _ hb
  with_reducible apply keeps_set _ _ hb
  exact hu

theorem keeps_execColdPowerOnReset {s : State}
    (hw : Covers 0x16FFFFFFFE w) (h : Keeps w r s) : Ends w r (execColdPowerOnReset s) := by
  unfold execColdPowerOnReset
  with_reducible repeat' (first
    | assumption | exact covers_of hw rfl | apply ends_next | apply keeps_done | apply keeps_coldReset | split
    | refine keeps_pair (by assumption) ?_)

theorem keeps_aloneRegs (why : Nat) {s : State}
    (hw : Covers 0x8 w) (h : Keeps w r s) : Keeps w r (aloneRegs why s) := by
  unfold aloneRegs
  with_reducible repeat' (first
    | assumption | exact covers_of hw rfl | apply keeps_setWord | apply keeps_set | split
    | refine keeps_pair (by assumption) ?_)

theorem keeps_romStart {s : State}
    (hw : Covers 0x80001008 w) (h : Keeps w r s) : Keeps w r (romStart s) := by
  unfold romStart
  with_reducible repeat' (beta_reduce; first
    | assumption | exact covers_of hw rfl | (intro _)
    | (extract_lets +onlyGivenNames x; first
      | (refine keeps_cut (w := w) (r := r) (s := x) ?_ ?_; (on_goal 2 => (intro hx; clear_value x)); unfold x; clear x)
      | (refine keeps_cut (w := w) (r := r) (s := x.1) ?_ ?_; (on_goal 2 => (intro hx; clear_value x)); unfold x; clear x)
      | clear_value x)
    | apply keeps_aloneRegs | apply keeps_tapUpd | apply keeps_set | apply keeps_setWord | apply keeps_doAll
    | apply keeps_loadRegion | apply keeps_devUpd | split | refine keeps_pair (by assumption) ?_)

theorem keeps_rstByPin (stop : Nat) {s : State}
    (hw : Covers 0x167FFFFFFE w) (h : Keeps w r s) : Keeps w r (rstByPin stop s) := by
  unfold rstByPin
  with_reducible repeat' (first
    | assumption | exact covers_of hw rfl | apply keeps_set | apply keeps_systemReset | split
    | refine keeps_pair (by assumption) ?_)

theorem keeps_execSysRstNAssertion {s : State}
    (hw : Covers 0x167FFFFFFE w) (h : Keeps w r s) : Ends w r (execSysRstNAssertion s) := by
  unfold execSysRstNAssertion
  with_reducible repeat' (beta_reduce; first
    | assumption | exact covers_of hw rfl | (intro _)
    | (extract_lets +onlyGivenNames x; first
      | (refine keeps_cut (w := w) (r := r) (s := x) ?_ ?_; (on_goal 2 => (intro hx; clear_value x)); unfold x; clear x)
      | (refine keeps_cut (w := w) (r := r) (s := x.1) ?_ ?_; (on_goal 2 => (intro hx; clear_value x)); unfold x; clear x)
      | clear_value x)
    | apply ends_next | apply keeps_done | apply keeps_devUpd | apply keeps_orderPreserve | apply keeps_rstByPin
    | split | refine keeps_pair (by assumption) ?_)

theorem keeps_execSysRstNRelease (straps : BitVec 8) {s : State}
    (hw : Covers 0x80001008 w) (h : Keeps w r s) : Ends w r (execSysRstNRelease straps s) := by
  unfold execSysRstNRelease
  with_reducible repeat' (beta_reduce; first
    | assumption | exact covers_of hw rfl | (intro _)
    | (extract_lets +onlyGivenNames x; first
      | (refine keeps_cut (w := w) (r := r) (s := x) ?_ ?_; (on_goal 2 => (intro hx; clear_value x)); unfold x; clear x)
      | (refine keeps_cut (w := w) (r := r) (s := x.1) ?_ ?_; (on_goal 2 => (intro hx; clear_value x)); unfold x; clear x)
      | clear_value x)
    | apply ends_next | apply keeps_done | apply keeps_devUpd | apply keeps_romStart | split
    | refine keeps_pair (by assumption) ?_)

theorem keeps_execSysPllLock {s : State}
    (hw : Covers 0x106002D3AF w) (h : Keeps w r s) : Ends w r (execSysPllLock s) := by
  unfold execSysPllLock
  with_reducible repeat' (beta_reduce; first
    | assumption | exact covers_of hw rfl | (intro _) | apply ends_next | apply keeps_done | apply keeps_doIf
    | apply keeps_raise | apply keeps_pelUpd | apply keeps_pllsLock | apply keeps_devUpd | exact ⟨rfl, rfl⟩ | split
    | refine keeps_pair (by assumption) ?_ | refine keeps_mk ?_)

theorem keeps_romStep {s : State}
    (hw : Covers 0x8 w) (h : Keeps w r s) : Keeps w r (romStep s) := by
  unfold romStep
  with_reducible repeat' (beta_reduce; first
    | assumption | exact covers_of hw rfl | (intro _)
    | (extract_lets +onlyGivenNames x; first
      | (refine keeps_cut (w := w) (r := r) (s := x) ?_ ?_; (on_goal 2 => (intro hx; clear_value x)); unfold x; clear x)
      | (refine keeps_cut (w := w) (r := r) (s := x.1) ?_ ?_; (on_goal 2 => (intro hx; clear_value x)); unfold x; clear x)
      | clear_value x)
    | apply keeps_doIf | apply keeps_set | split | refine keeps_pair (by assumption) ?_)

theorem keeps_bootCopy (unread : BitVec 4) (mute : BitVec 4) (k : Nat) {s : State}
    (hw : Covers 0x200001008 w) (h : Keeps w r s) : Keeps w r (bootCopy unread mute k s) := by
  unfold bootCopy
  with_reducible repeat' (beta_reduce; first
    | assumption | exact covers_of hw rfl | (intro _) | apply keeps_addCause | apply keeps_fwUpd | apply keeps_set
    | apply keeps_setWord | split | refine keeps_pair (by assumption) ?_)

theorem keeps_execBootCopyAccepted (unread : BitVec 4) (mute : BitVec 4) {s : State}
    (hw : Covers 0x200001008 w) (h : Keeps w r s) : Ends w r (execBootCopyAccepted unread mute s) := by
  unfold execBootCopyAccepted
  with_reducible repeat' (beta_reduce; first
    | assumption | exact covers_of hw rfl | (intro _) | apply ends_next | apply keeps_done | apply keeps_bootCopy
    | split | refine keeps_pair (by assumption) ?_)

theorem keeps_execBootNoCopyAccepted (unread : BitVec 4) (mute : BitVec 4) {s : State}
    (hw : Covers 0x8 w) (h : Keeps w r s) : Ends w r (execBootNoCopyAccepted unread mute s) := by
  unfold execBootNoCopyAccepted
  with_reducible repeat' (first
    | assumption | exact covers_of hw rfl | apply ends_next | apply keeps_done | apply keeps_bcAttn | apply keeps_set
    | split | refine keeps_pair (by assumption) ?_)

theorem keeps_execTrialBoot {s : State}
    (hw : Covers 0x16FFFFFFFE w) (h : Keeps w r s) : Ends w r (execTrialBoot s) := by
  unfold execTrialBoot
  with_reducible repeat' (beta_reduce; first
    | assumption | exact covers_of hw rfl | (intro _)
    | (extract_lets +onlyGivenNames x; first
      | (refine keeps_cut (w := w) (r := r) (s := x) ?_ ?_; (on_goal 2 => (intro hx; clear_value x)); unfold x; clear x)
      | (refine keeps_cut (w := w) (r := r) (s := x.1) ?_ ?_; (on_goal 2 => (intro hx; clear_value x)); unfold x; clear x)
      | clear_value x)
    | apply ends_next | apply keeps_done | apply keeps_romStart | apply keeps_systemReset | apply keeps_fwUpd
    | apply keeps_setCopy | split | refine keeps_pair (by assumption) ?_)

theorem keeps_setChannel (n : Nat) (c : NandChannel) {s : State}
    (hw : Covers 0x8 w) (h : Keeps w r s) : Keeps w r (setChannel n c s) := by
  unfold setChannel
  with_reducible repeat' (first
    | assumption | exact covers_of hw rfl | apply keeps_set | split | refine keeps_pair (by assumption) ?_)

theorem keeps_dramReady (d : DramOrg) {s : State}
    (hw : Covers 0x102002D3AB w) (h : Keeps w r s) : Keeps w r (dramReady d s) := by
  unfold dramReady
  with_reducible repeat' (first
    | assumption | exact covers_of hw rfl | (intro _) | apply keeps_doIf | apply keeps_raise | apply keeps_set | split
    | refine keeps_pair (by assumption) ?_)

theorem keeps_aptBack (noRecord : Bool) (r0 : AptRecord) {s : State}
    (hw : Covers 0x8 w) (h : Keeps w r s) : Keeps w r (aptBack noRecord r0 s) := by
  unfold aptBack
  with_reducible repeat' (first
    | assumption | exact covers_of hw rfl
    | (extract_lets +onlyGivenNames x; first
      | (refine keeps_cut (w := w) (r := r) (s := x) ?_ ?_; (on_goal 2 => (intro hx; clear_value x)); unfold x; clear x)
      | (refine keeps_cut (w := w) (r := r) (s := x.1) ?_ ?_; (on_goal 2 => (intro hx; clear_value x)); unfold x; clear x)
      | clear_value x)
    | apply keeps_updAptOcc | apply keeps_set | split | refine keeps_pair (by assumption) ?_)

theorem keeps_recoverStore {s : State}
    (hw : Covers 0x102A02F3AB w) (h : Keeps w r s) : Keeps w r (recoverStore s) := by
  unfold recoverStore
  with_reducible repeat' (beta_reduce; first
    | assumption | exact covers_of hw rfl | (intro _)
    | (extract_lets +onlyGivenNames x; first
      | (refine keeps_cut (w := w) (r := r) (s := x) ?_ ?_; (on_goal 2 => (intro hx; clear_value x)); unfold x; clear x)
      | (refine keeps_cut (w := w) (r := r) (s := x.1) ?_ ?_; (on_goal 2 => (intro hx; clear_value x)); unfold x; clear x)
      | clear_value x)
    | apply keeps_raise | apply keeps_set | apply keeps_updMirrorStatus | apply keeps_updWa | apply keeps_updWear
    | apply keeps_doIf | apply keeps_rebuildStarts | apply keeps_updFlushRate | apply keeps_dsUpd
    | apply keeps_drewOne | apply keeps_offStripes | apply keeps_loseUnits | apply keeps_doAll | apply keeps_aptBack
    | exact ⟨rfl, rfl⟩ | split | refine keeps_pair (by assumption) ?_)

theorem keeps_mediaReady (l : List NandChannel) {s : State}
    (hw : Covers 0x102802D3AB w) (h : Keeps w r s) : Keeps w r (mediaReady l s) := by
  unfold mediaReady
  with_reducible repeat' (beta_reduce; first
    | assumption | exact covers_of hw rfl | (intro _)
    | (extract_lets +onlyGivenNames x; first
      | (refine keeps_cut (w := w) (r := r) (s := x) ?_ ?_; (on_goal 2 => (intro hx; clear_value x)); unfold x; clear x)
      | (refine keeps_cut (w := w) (r := r) (s := x.1) ?_ ?_; (on_goal 2 => (intro hx; clear_value x)); unfold x; clear x)
      | clear_value x)
    | apply keeps_set | apply keeps_setWord | apply keeps_drewOne | apply keeps_medUpd | apply keeps_doAll
    | apply keeps_doIf | apply keeps_raise | apply keeps_setChannel | split | refine keeps_pair (by assumption) ?_)

theorem keeps_share0Granted {s : State}
    (hw : Covers 0x8 w) (h : Keeps w r s) : Keeps w r (share0Granted s) := by
  unfold share0Granted
  with_reducible repeat' (first
    | assumption | exact covers_of hw rfl | apply keeps_setShare | apply keeps_set | split
    | refine keeps_pair (by assumption) ?_)

theorem keeps_execFunctionsReady (nand : List NandChannel) (dram : DramOrg) {s : State}
    (hw : Covers 0x102A02F3AB w) (h : Keeps w r s) : Ends w r (execFunctionsReady nand dram s) := by
  unfold execFunctionsReady
  with_reducible repeat' (beta_reduce; first
    | assumption | exact covers_of hw rfl | (intro _) | apply ends_next | apply keeps_done | apply keeps_emit
    | apply keeps_devUpd | apply keeps_fnUpd | apply keeps_set | apply keeps_share0Granted | apply keeps_doIf
    | apply keeps_recoverStore | apply keeps_mediaReady | apply keeps_dramReady | apply keeps_hlUpd | split
    | refine keeps_pair (by assumption) ?_)

theorem keeps_execPwrFailRecognised {s : State}
    (hw : Covers 0x102002D3AB w) (h : Keeps w r s) : Ends w r (execPwrFailRecognised s) := by
  unfold execPwrFailRecognised
  with_reducible repeat' (first
    | assumption | exact covers_of hw rfl | apply ends_next | apply keeps_done | apply keeps_orderPreserve
    | apply keeps_raise | split | refine keeps_pair (by assumption) ?_)

theorem keeps_execThermTripRecognised (external : Bool) {s : State}
    (hw : Covers 0x102002D3AB w) (h : Keeps w r s) : Ends w r (execThermTripRecognised external s) := by
  unfold execThermTripRecognised
  with_reducible repeat' (first
    | assumption | exact covers_of hw rfl | (intro _) | apply ends_next | apply keeps_done | apply keeps_doIf
    | apply keeps_thermTrip | apply keeps_ownTrip | split | refine keeps_pair (by assumption) ?_)

theorem keeps_execCardEjectRecognised {s : State}
    (hw : Covers 0x102002D3AB w) (h : Keeps w r s) : Ends w r (execCardEjectRecognised s) := by
  unfold execCardEjectRecognised
  with_reducible repeat' (first
    | assumption | exact covers_of hw rfl | apply ends_next | apply keeps_done | apply keeps_orderExtract
    | apply keeps_raise | split | refine keeps_pair (by assumption) ?_)

theorem keeps_execDrainComplete {s : State}
    (hw : Covers 0x1000 w) (h : Keeps w r s) : Ends w r (execDrainComplete s) := by
  unfold execDrainComplete
  with_reducible repeat' (first
    | assumption | exact covers_of hw rfl | apply ends_next | apply keeps_done | apply keeps_orderPreserve | split
    | refine keeps_pair (by assumption) ?_)

theorem keeps_drainCut {s : State}
    (hw : Covers 0x10225AD3AB w) (h : Keeps w r s) : Keeps w r (drainCut s) := by
  unfold drainCut
  with_reducible repeat' (beta_reduce; first
    | assumption | exact covers_of hw rfl | (intro _)
    | (extract_lets +onlyGivenNames x; first
      | (refine keeps_cut (w := w) (r := r) (s := x) ?_ ?_; (on_goal 2 => (intro hx; clear_value x)); unfold x; clear x)
      | (refine keeps_cut (w := w) (r := r) (s := x.1) ?_ ?_; (on_goal 2 => (intro hx; clear_value x)); unfold x; clear x)
      | clear_value x)
    | apply keeps_updTags | apply keeps_hlUpd | apply keeps_doAll | apply keeps_qpUpd | apply keeps_flushEntries
    | apply keeps_finish | apply keeps_cancelDesc | split | refine keeps_pair (by assumption) ?_)

theorem keeps_execMaintenanceSafePoint {s : State}
    (hw : Covers 0x1E3A06D3AB w) (h : Keeps w r s) : Ends w r (execMaintenanceSafePoint s) := by
  unfold execMaintenanceSafePoint
  with_reducible repeat' (beta_reduce; first
    | assumption | exact covers_of hw rfl | (intro _)
    | (extract_lets +onlyGivenNames x; first
      | (refine keeps_cut (w := w) (r := r) (s := x) ?_ ?_; (on_goal 2 => (intro hx; clear_value x)); unfold x; clear x)
      | (refine keeps_cut (w := w) (r := r) (s := x.1) ?_ ?_; (on_goal 2 => (intro hx; clear_value x)); unfold x; clear x)
      | clear_value x)
    | apply ends_next | apply keeps_done | apply keeps_orderPreserve | apply keeps_mbxUpd | apply keeps_doIf
    | apply keeps_fwStop | apply keeps_medUpd | apply keeps_formatApply | split | refine keeps_pair (by assumption) ?_)

theorem keeps_devReset {s : State}
    (hw : Covers 0x16FFFFFFFE w) (h : Keeps w r s) : Keeps w r (devReset s) := by
  unfold devReset
  with_reducible repeat' (first
    | assumption | exact covers_of hw rfl | apply keeps_romStart | apply keeps_set | apply keeps_systemReset | split
    | refine keeps_pair (by assumption) ?_)

theorem keeps_execDevResetApply {s : State}
    (hw : Covers 0x16FFFFFFFE w) (h : Keeps w r s) : Ends w r (execDevResetApply s) := by
  unfold execDevResetApply
  with_reducible repeat' (first
    | assumption | exact covers_of hw rfl | apply ends_next | apply keeps_done | apply keeps_devReset | split
    | refine keeps_pair (by assumption) ?_)

theorem keeps_preserveStore (cause : Nat) {s : State}
    (hw : Covers 0x2000008 w) (h : Keeps w r s) : Keeps w r (preserveStore cause s) := by
  unfold preserveStore
  with_reducible repeat' (beta_reduce; first
    | assumption | exact covers_of hw rfl | (intro _)
    | (extract_lets +onlyGivenNames x; first
      | (refine keeps_cut (w := w) (r := r) (s := x) ?_ ?_; (on_goal 2 => (intro hx; clear_value x)); unfold x; clear x)
      | (refine keeps_cut (w := w) (r := r) (s := x.1) ?_ ?_; (on_goal 2 => (intro hx; clear_value x)); unfold x; clear x)
      | clear_value x)
    | apply keeps_set | apply keeps_dsUpd | exact ⟨rfl, rfl⟩ | split | refine keeps_pair (by assumption) ?_)

theorem keeps_emitLeave {s : State}
    (hw : Covers 0x1 w) (h : Keeps w r s) : Keeps w r (emitLeave s) := by
  unfold emitLeave
  extract_lets t
  clear_value t
  with_reducible repeat' (beta_reduce; first
    | assumption | exact covers_of hw rfl | (intro _)
    | (extract_lets +onlyGivenNames x; first
      | (refine keeps_cut (w := w) (r := r) (s := x) ?_ ?_; (on_goal 2 => (intro hx; clear_value x)); unfold x; clear x)
      | (refine keeps_cut (w := w) (r := r) (s := x.1) ?_ ?_; (on_goal 2 => (intro hx; clear_value x)); unfold x; clear x)
      | clear_value x)
    | apply keeps_doAll | apply keeps_emit | split | refine keeps_pair (by assumption) ?_)

theorem keeps_linkStop (k : Nat) {s : State}
    (hw : Covers 0x1000008009 w) (h : Keeps w r s) : Keeps w r (linkStop k s) := by
  unfold linkStop
  with_reducible repeat' (beta_reduce; first
    | assumption | exact covers_of hw rfl | (intro _)
    | (extract_lets +onlyGivenNames x; first
      | (refine keeps_cut (w := w) (r := r) (s := x) ?_ ?_; (on_goal 2 => (intro hx; clear_value x)); unfold x; clear x)
      | (refine keeps_cut (w := w) (r := r) (s := x.1) ?_ ?_; (on_goal 2 => (intro hx; clear_value x)); unfold x; clear x)
      | clear_value x)
    | apply keeps_emit | apply keeps_set | apply keeps_lineUpd | apply keeps_linkUpd | split
    | refine keeps_pair (by assumption) ?_)

theorem keeps_shed {s : State}
    (hw : Covers 0x10267ED3AB w) (h : Keeps w r s) : Keeps w r (shed s) := by
  unfold shed
  with_reducible repeat' (beta_reduce; first
    | assumption | exact covers_of hw rfl | (intro _)
    | (extract_lets +onlyGivenNames x; first
      | (refine keeps_cut (w := w) (r := r) (s := x) ?_ ?_; (on_goal 2 => (intro hx; clear_value x)); unfold x; clear x)
      | (refine keeps_cut (w := w) (r := r) (s := x.1) ?_ ?_; (on_goal 2 => (intro hx; clear_value x)); unfold x; clear x)
      | clear_value x)
    | apply keeps_updStage | apply keeps_doAll | apply keeps_updBuf | apply keeps_updC0Short | apply keeps_set
    | apply keeps_updTags | apply keeps_atsFlush | apply keeps_hlUpd | apply keeps_cadUpd | apply keeps_qpUpd
    | apply keeps_linkStop | apply keeps_doIf | apply keeps_emitLeave | apply keeps_portReset | exact ⟨rfl, rfl⟩
    | split | refine keeps_pair (by assumption) ?_ | refine keeps_mk ?_)

theorem keeps_preserveCmds {s : State}
    (hw : Covers 0x103082D3AB w) (h : Keeps w r s) : Keeps w r (preserveCmds s) := by
  unfold preserveCmds
  with_reducible repeat' (beta_reduce; first
    | assumption | exact covers_of hw rfl | (intro _)
    | (extract_lets +onlyGivenNames x; first
      | (refine keeps_cut (w := w) (r := r) (s := x) ?_ ?_; (on_goal 2 => (intro hx; clear_value x)); unfold x; clear x)
      | (refine keeps_cut (w := w) (r := r) (s := x.1) ?_ ?_; (on_goal 2 => (intro hx; clear_value x)); unfold x; clear x)
      | clear_value x)
    | apply keeps_doAll | apply keeps_cmdDone | split | refine keeps_pair (by assumption) ?_)

theorem keeps_sleepStops {s : State}
    (hw : Covers 0x102002D3AB w) (h : Keeps w r s) : Keeps w r (sleepStops s) := by
  unfold sleepStops
  with_reducible repeat' (beta_reduce; first
    | assumption | exact covers_of hw rfl | (intro _) | apply keeps_doIf | apply keeps_raise | apply keeps_set
    | apply keeps_pwrUpd | apply keeps_pllsLock | apply keeps_mergeLatched | split
    | refine keeps_pair (by assumption) ?_)

theorem keeps_preserveEnter (cause : Nat) {s : State}
    (hw : Covers 0x1276FEF3AB w) (h : Keeps w r s) : Keeps w r (preserveEnter cause s) := by
  unfold preserveEnter
  with_reducible repeat' (beta_reduce; first
    | assumption | exact covers_of hw rfl | (intro _) | apply keeps_shed | apply keeps_pelUpd | apply keeps_fltUpd
    | apply keeps_set | apply keeps_fwCut | apply keeps_preserveStore | apply keeps_preserveCmds | apply keeps_devUpd
    | apply keeps_doIf | apply keeps_modeTo | apply keeps_sleepStops | split | refine keeps_pair (by assumption) ?_)

theorem keeps_execPreserveEntry {s : State}
    (hw : Covers 0x1276FEF3AB w) (h : Keeps w r s) : Ends w r (execPreserveEntry s) := by
  unfold execPreserveEntry
  with_reducible repeat' (beta_reduce; first
    | assumption | exact covers_of hw rfl | (intro _) | apply ends_next | apply keeps_done | apply keeps_preserveEnter
    | split | refine keeps_pair (by assumption) ?_)

theorem keeps_drainLimit {s : State}
    (hw : Covers 0x1276FEF3AB w) (h : Keeps w r s) : Keeps w r (drainLimit s) := by
  unfold drainLimit
  with_reducible repeat' (first
    | assumption | exact covers_of hw rfl | apply keeps_preserveEnter | apply keeps_drainCut | split
    | refine keeps_pair (by assumption) ?_)

theorem keeps_execDrainLimitReached {s : State}
    (hw : Covers 0x10000 w) (h : Keeps w r s) : Ends w r (execDrainLimitReached s) := by
  unfold execDrainLimitReached
  with_reducible repeat' (first
    | assumption | exact covers_of hw rfl | apply ends_next | apply keeps_done | apply keeps_atBoundary | split
    | refine keeps_pair (by assumption) ?_)

theorem keeps_preserveRecords {s : State}
    (hw : Covers 0x2000008 w) (h : Keeps w r s) : Keeps w r (preserveRecords s) := by
  unfold preserveRecords
  with_reducible repeat' (beta_reduce; first
    | assumption | exact covers_of hw rfl | (intro _)
    | (extract_lets +onlyGivenNames x; first
      | (refine keeps_cut (w := w) (r := r) (s := x) ?_ ?_; (on_goal 2 => (intro hx; clear_value x)); unfold x; clear x)
      | (refine keeps_cut (w := w) (r := r) (s := x.1) ?_ ?_; (on_goal 2 => (intro hx; clear_value x)); unfold x; clear x)
      | clear_value x)
    | apply keeps_set | apply keeps_dsUpd | exact ⟨rfl, rfl⟩ | split | refine keeps_pair (by assumption) ?_)

theorem keeps_halt {s : State}
    (hw : Covers 0x16FFFFFFFE w) (h : Keeps w r s) : Keeps w r (halt s) := by
  unfold halt
  with_reducible repeat' (beta_reduce; first
    | assumption | exact covers_of hw rfl | (intro _)
    | (extract_lets +onlyGivenNames x; first
      | (refine keeps_cut (w := w) (r := r) (s := x) ?_ ?_; (on_goal 2 => (intro hx; clear_value x)); unfold x; clear x)
      | (refine keeps_cut (w := w) (r := r) (s := x.1) ?_ ?_; (on_goal 2 => (intro hx; clear_value x)); unfold x; clear x)
      | clear_value x)
    | apply keeps_rstByPin | apply keeps_devUpd | apply keeps_doIf | apply keeps_storeClose
    | apply keeps_preserveRecords | apply keeps_romStart | split | refine keeps_pair (by assumption) ?_)

theorem keeps_execPreserveHalt {s : State}
    (hw : Covers 0x16FFFFFFFE w) (h : Keeps w r s) : Ends w r (execPreserveHalt s) := by
  unfold execPreserveHalt
  with_reducible repeat' (first
    | assumption | exact covers_of hw rfl | apply ends_next | apply keeps_done | apply keeps_halt | split
    | refine keeps_pair (by assumption) ?_)

theorem keeps_execSupplyLoss {s : State}
    (hw : Covers 0x167FFFFFFE w) (h : Keeps w r s) : Ends w r (execSupplyLoss s) := by
  unfold execSupplyLoss
  with_reducible repeat' (beta_reduce; first
    | assumption | exact covers_of hw rfl | (intro _) | apply ends_next | apply keeps_done | apply keeps_devUpd
    | apply keeps_systemReset | split | refine keeps_pair (by assumption) ?_)

theorem keeps_endCmds (p : Cmd → Bool) (code : Nat) (res : List Byte) {s : State}
    (hw : Covers 0x103082D3AB w) (h : Keeps w r s) : Keeps w r (endCmds p code res s) := by
  unfold endCmds
  with_reducible repeat' (beta_reduce; first
    | assumption | exact covers_of hw rfl | (intro _) | apply keeps_doAll | apply keeps_cmdDone | split
    | refine keeps_pair (by assumption) ?_)

theorem keeps_enterDraining (cause : Nat) {s : State}
    (hw : Covers 0x103082D3AB w) (h : Keeps w r s) : Keeps w r (enterDraining cause s) := by
  unfold enterDraining
  with_reducible repeat' (beta_reduce; first
    | assumption | exact covers_of hw rfl | (intro _)
    | (extract_lets +onlyGivenNames x; first
      | (refine keeps_cut (w := w) (r := r) (s := x) ?_ ?_; (on_goal 2 => (intro hx; clear_value x)); unfold x; clear x)
      | (refine keeps_cut (w := w) (r := r) (s := x.1) ?_ ?_; (on_goal 2 => (intro hx; clear_value x)); unfold x; clear x)
      | clear_value x)
    | apply keeps_endCmds | apply keeps_doIf | apply keeps_set | apply keeps_devUpd | apply keeps_modeTo | split
    | refine keeps_pair (by assumption) ?_)

theorem keeps_enterMaintenance {s : State}
    (hw : Covers 0x1038FED3AB w) (h : Keeps w r s) : Keeps w r (enterMaintenance s) := by
  unfold enterMaintenance
  with_reducible repeat' (beta_reduce; first
    | assumption | exact covers_of hw rfl | (intro _)
    | (extract_lets +onlyGivenNames x; first
      | (refine keeps_cut (w := w) (r := r) (s := x) ?_ ?_; (on_goal 2 => (intro hx; clear_value x)); unfold x; clear x)
      | (refine keeps_cut (w := w) (r := r) (s := x.1) ?_ ?_; (on_goal 2 => (intro hx; clear_value x)); unfold x; clear x)
      | clear_value x)
    | apply keeps_doIf | apply keeps_medUpd | apply keeps_mbxUpd | apply keeps_endCmds | apply keeps_doAll
    | apply keeps_portReset | apply keeps_set | apply keeps_devUpd | apply keeps_modeTo | split
    | refine keeps_pair (by assumption) ?_)

theorem keeps_bootLog {s : State}
    (hw : Covers 0x2008 w) (h : Keeps w r s) : Keeps w r (bootLog s) := by
  unfold bootLog
  with_reducible repeat' (first
    | assumption | exact covers_of hw rfl | apply keeps_logEv | split | refine keeps_pair (by assumption) ?_)

theorem keeps_runBoundary {s : State}
    (hw : Covers 0x1038FED3AB w) (h : Keeps w r s) : Keeps w r (runBoundary s) := by
  unfold runBoundary
  with_reducible repeat' (beta_reduce; first
    | assumption | exact covers_of hw rfl | (intro _)
    | (extract_lets +onlyGivenNames x; first
      | (refine keeps_cut (w := w) (r := r) (s := x) ?_ ?_; (on_goal 2 => (intro hx; clear_value x)); unfold x; clear x)
      | (refine keeps_cut (w := w) (r := r) (s := x.1) ?_ ?_; (on_goal 2 => (intro hx; clear_value x)); unfold x; clear x)
      | clear_value x)
    | apply keeps_enterDraining | apply keeps_endCmds | apply keeps_doIf | apply keeps_modeTo | apply keeps_devUpd
    | apply keeps_enterMaintenance | apply keeps_ltrSend | split | refine keeps_pair (by assumption) ?_)

theorem keeps_bootBoundary {s : State}
    (hw : Covers 0x127EFEF3AB w) (h : Keeps w r s) : Keeps w r (bootBoundary s) := by
  unfold bootBoundary
  with_reducible repeat' (beta_reduce; first
    | assumption | exact covers_of hw rfl | (intro _)
    | (extract_lets +onlyGivenNames x; first
      | (refine keeps_cut (w := w) (r := r) (s := x) ?_ ?_; (on_goal 2 => (intro hx; clear_value x)); unfold x; clear x)
      | (refine keeps_cut (w := w) (r := r) (s := x.1) ?_ ?_; (on_goal 2 => (intro hx; clear_value x)); unfold x; clear x)
      | clear_value x)
    | apply keeps_preserveEnter | apply keeps_devUpd | apply keeps_enterMaintenance | apply keeps_doIf
    | apply keeps_enterDraining | apply keeps_bootLog | apply keeps_modeTo | apply keeps_romStep | split
    | refine keeps_pair (by assumption) ?_)

theorem keeps_modeBoundary {s : State}
    (hw : Covers 0x127EFEF3AB w) (h : Keeps w r s) : Keeps w r (modeBoundary s) := by
  unfold modeBoundary
  with_reducible repeat' (beta_reduce; first
    | assumption | exact covers_of hw rfl | (intro _)
    | (extract_lets +onlyGivenNames x; first
      | (refine keeps_cut (w := w) (r := r) (s := x) ?_ ?_; (on_goal 2 => (intro hx; clear_value x)); unfold x; clear x)
      | (refine keeps_cut (w := w) (r := r) (s := x.1) ?_ ?_; (on_goal 2 => (intro hx; clear_value x)); unfold x; clear x)
      | clear_value x)
    | apply keeps_doIf | apply keeps_runBoundary | apply keeps_bootBoundary | apply keeps_preserveEnter
    | apply keeps_devUpd | apply keeps_drainLimit | split | refine keeps_pair (by assumption) ?_)

theorem keeps_dropServing {s : State}
    (hw : Covers 0x1000 w) (h : Keeps w r s) : Keeps w r (dropServing s) := by
  unfold dropServing
  with_reducible repeat' (beta_reduce; first
    | assumption | exact covers_of hw rfl | (intro _) | apply keeps_doIf | apply keeps_devUpd | split
    | refine keeps_pair (by assumption) ?_)

theorem keeps_execEnterServing {s : State}
    (hw : Covers 0x10000 w) (h : Keeps w r s) : Ends w r (execEnterServing s) := by
  unfold execEnterServing
  with_reducible repeat' (first
    | assumption | exact covers_of hw rfl | apply ends_next | apply keeps_done | apply keeps_atBoundary | split
    | refine keeps_pair (by assumption) ?_)

end Sys2Proof.Machine
end

