-- ==== Sys2Proof/Laws/KeepsBoundary.lean ====
section
/-! SUPPORT. Laws/KeepsBoundary.lean: what every operation may change and what it keeps: host requests and the stroke boundary. -/
namespace Sys2Proof.Machine

set_option Elab.async false
set_option linter.unusedTactic false
set_option linter.unreachableTactic false
set_option linter.unusedVariables false

variable {w : Nat} {r : State}

theorem keeps_vfEnable {s : State}
    (hw : Covers 0x102003D3AB w) (h : Keeps w r s) : Keeps w r (vfEnable s) := by
  unfold vfEnable
  with_reducible repeat' (beta_reduce; first
    | assumption | exact covers_of hw rfl | (intro _)
    | (extract_lets +onlyGivenNames x; first
      | (refine keeps_cut (w := w) (r := r) (s := x) ?_ ?_; (on_goal 2 => (intro hx; clear_value x)); unfold x; clear x)
      | (refine keeps_cut (w := w) (r := r) (s := x.1) ?_ ?_; (on_goal 2 => (intro hx; clear_value x)); unfold x; clear x)
      | clear_value x)
    | apply keeps_raise | apply keeps_set | apply keeps_doAll | apply keeps_fnUpd | apply keeps_hlUpd
    | exact ⟨rfl, rfl⟩ | split | refine keeps_pair (by assumption) ?_ | refine keeps_mk ?_)

theorem keeps_vfsCreate (n : Nat) {s : State}
    (hw : Covers 0x8 w) (h : Keeps w r s) : Keeps w r (vfsCreate n s) := by
  unfold vfsCreate
  with_reducible repeat' (beta_reduce; first
    | assumption | exact covers_of hw rfl | (intro _) | apply keeps_doAll | apply keeps_set | split
    | refine keeps_pair (by assumption) ?_)

theorem keeps_vfGone (cause : Nat) (c : Nat) {s : State}
    (hw : Covers 0x106006D3AB w) (h : Keeps w r s) : Keeps w r (vfGone cause c s) := by
  unfold vfGone
  with_reducible repeat' (beta_reduce; first
    | assumption | exact covers_of hw rfl | (intro _) | apply keeps_doIf | apply keeps_ctxCause
    | apply keeps_atsDiscard | apply keeps_fnTo | split | refine keeps_pair (by assumption) ?_)

theorem keeps_vfClear {s : State}
    (hw : Covers 0x106007D3AB w) (h : Keeps w r s) : Keeps w r (vfClear s) := by
  unfold vfClear
  with_reducible repeat' (beta_reduce; first
    | assumption | exact covers_of hw rfl | (intro _) | apply keeps_raise | apply keeps_set | apply keeps_doAll
    | apply keeps_vfGone | apply keeps_hlUpd | exact ⟨rfl, rfl⟩ | split | refine keeps_pair (by assumption) ?_
    | refine keeps_mk ?_)

theorem keeps_vfSet (n : Nat) (ari : Bool) {s : State}
    (hw : Covers 0x102003D3AB w) (h : Keeps w r s) : Keeps w r (vfSet n ari s) := by
  unfold vfSet
  with_reducible repeat' (beta_reduce; first
    | assumption | exact covers_of hw rfl | (intro _) | apply keeps_vfEnable | apply keeps_hlUpd | split
    | refine keeps_pair (by assumption) ?_)

theorem keeps_vfUnset {s : State}
    (hw : Covers 0x106007D3AB w) (h : Keeps w r s) : Keeps w r (vfUnset s) := by
  unfold vfUnset
  with_reducible repeat' (first
    | assumption | exact covers_of hw rfl | apply keeps_vfClear | split | refine keeps_pair (by assumption) ?_)

theorem keeps_execVfEnableSet (n : BitVec 16) (ari : Bool) {s : State}
    (hw : Covers 0x102043D3AB w) (h : Keeps w r s) : Ends w r (execVfEnableSet n ari s) := by
  unfold execVfEnableSet
  with_reducible repeat' (first
    | assumption | exact covers_of hw rfl | (intro _) | apply ends_next | apply keeps_done | apply keeps_hostTlp
    | apply keeps_inOrder | apply keeps_vfSet | split | refine keeps_pair (by assumption) ?_)

theorem keeps_execVfEnableClear {s : State}
    (hw : Covers 0x106047D3AB w) (h : Keeps w r s) : Ends w r (execVfEnableClear s) := by
  unfold execVfEnableClear
  with_reducible repeat' (first
    | assumption | exact covers_of hw rfl | (intro _) | apply ends_next | apply keeps_done | apply keeps_hostTlp
    | apply keeps_inOrder | apply keeps_vfUnset | split | refine keeps_pair (by assumption) ?_)

theorem keeps_cfgForget (c : Nat) {s : State}
    (hw : Covers 0x20000 w) (h : Keeps w r s) : Keeps w r (cfgForget c s) := by
  unfold cfgForget
  with_reducible repeat' (beta_reduce; first
    | assumption | exact covers_of hw rfl | (intro _) | apply keeps_hlUpd | split
    | refine keeps_pair (by assumption) ?_)

theorem keeps_barSizesReset {s : State}
    (hw : Covers 0x102002D3AB w) (h : Keeps w r s) : Keeps w r (barSizesReset s) := by
  unfold barSizesReset
  with_reducible repeat' (first
    | assumption | exact covers_of hw rfl | apply keeps_barSize | split | refine keeps_pair (by assumption) ?_)

theorem keeps_flrDone (c : Nat) {s : State}
    (hw : Covers 0x40001 w) (h : Keeps w r s) : Keeps w r (flrDone c s) := by
  unfold flrDone
  with_reducible repeat' (beta_reduce; first
    | assumption | exact covers_of hw rfl | (intro _) | apply keeps_emit | apply keeps_ctxUpd | split
    | refine keeps_pair (by assumption) ?_)

theorem keeps_pfConfigReset {s : State}
    (hw : Covers 0x106007D3AB w) (h : Keeps w r s) : Keeps w r (pfConfigReset s) := by
  unfold pfConfigReset
  with_reducible repeat' (beta_reduce; first
    | assumption | exact covers_of hw rfl | (intro _) | apply keeps_hlUpd | apply keeps_barSizesReset
    | apply keeps_vfClear | split | refine keeps_pair (by assumption) ?_)

theorem keeps_flr (c : Nat) {s : State}
    (hw : Covers 0x106087D3AB w) (h : Keeps w r s) : Keeps w r (flr c s) := by
  unfold flr
  with_reducible repeat' (beta_reduce; first
    | assumption | exact covers_of hw rfl | (intro _)
    | (extract_lets +onlyGivenNames x; first
      | (refine keeps_cut (w := w) (r := r) (s := x) ?_ ?_; (on_goal 2 => (intro hx; clear_value x)); unfold x; clear x)
      | (refine keeps_cut (w := w) (r := r) (s := x.1) ?_ ?_; (on_goal 2 => (intro hx; clear_value x)); unfold x; clear x)
      | clear_value x)
    | apply keeps_flrDone | apply keeps_atsDiscard | apply keeps_mbxIdle | apply keeps_cfgForget | apply keeps_fnTo
    | apply keeps_doIf | apply keeps_pfConfigReset | apply keeps_raise | apply keeps_ctxUpd | apply keeps_ctxCause
    | split | refine keeps_pair (by assumption) ?_)

theorem keeps_execFlrReceived (c : Fin 1024) {s : State}
    (hw : Covers 0x1060C7D3AB w) (h : Keeps w r s) : Ends w r (execFlrReceived c s) := by
  unfold execFlrReceived
  with_reducible repeat' (first
    | assumption | exact covers_of hw rfl | (intro _) | apply ends_next | apply keeps_done | apply keeps_hostTlp
    | apply keeps_inOrder | apply keeps_flr | split | refine keeps_pair (by assumption) ?_)

theorem keeps_execFlrComplete (c : Fin 1024) {s : State}
    (hw : Covers 0x40001 w) (h : Keeps w r s) : Ends w r (execFlrComplete c s) := by
  unfold execFlrComplete
  with_reducible repeat' (beta_reduce; first
    | assumption | exact covers_of hw rfl | (intro _) | apply ends_next | apply keeps_done | apply keeps_flrDone
    | split | refine keeps_pair (by assumption) ?_)

theorem keeps_cfgHold (c : Nat) (dw : Nat) (v : Nat) {s : State}
    (hw : Covers 0x20000 w) (h : Keeps w r s) : Keeps w r (cfgHold c dw v s) := by
  unfold cfgHold
  with_reducible repeat' (beta_reduce; first
    | assumption | exact covers_of hw rfl | (intro _) | apply keeps_hlUpd | split
    | refine keeps_pair (by assumption) ?_)

theorem keeps_setDevCtl (c : Nat) (v : Nat) {s : State}
    (hw : Covers 0x106087D3AB w) (h : Keeps w r s) : Keeps w r (setDevCtl c v s) := by
  unfold setDevCtl
  with_reducible repeat' (beta_reduce; first
    | assumption | exact covers_of hw rfl | (intro _) | apply keeps_doIf | apply keeps_flr | apply keeps_fnUpd | split
    | refine keeps_pair (by assumption) ?_)

theorem keeps_setMsixCtl (c : Nat) (v : Nat) {s : State}
    (hw : Covers 0x2A0 w) (h : Keeps w r s) : Keeps w r (setMsixCtl c v s) := by
  unfold setMsixCtl
  with_reducible repeat' (beta_reduce; first
    | assumption | exact covers_of hw rfl | (intro _) | apply keeps_sendPendingVectors | apply keeps_fnUpd | split
    | refine keeps_pair (by assumption) ?_)

theorem keeps_setAtsEn (c : Nat) (b : Bool) {s : State}
    (hw : Covers 0x20028 w) (h : Keeps w r s) : Keeps w r (setAtsEn c b s) := by
  unfold setAtsEn
  with_reducible repeat' (beta_reduce; first
    | assumption | exact covers_of hw rfl | (intro _) | apply keeps_doIf | apply keeps_atsDiscard | apply keeps_fnUpd
    | split | refine keeps_pair (by assumption) ?_)

theorem keeps_setSriov (v : Nat) {s : State}
    (hw : Covers 0x106007D3AB w) (h : Keeps w r s) : Keeps w r (setSriov v s) := by
  unfold setSriov
  with_reducible repeat' (beta_reduce; first
    | assumption | exact covers_of hw rfl | (intro _) | apply keeps_vfEnable | apply keeps_vfClear | apply keeps_hlUpd
    | split | refine keeps_pair (by assumption) ?_)

theorem keeps_pfWrite (dw : Nat) (v : Nat) {s : State}
    (hw : Covers 0x106007D3AB w) (h : Keeps w r s) : Keeps w r (pfWrite dw v s).1 := by
  unfold pfWrite
  with_reducible repeat' (beta_reduce; first
    | assumption | exact covers_of hw rfl | (intro _) | apply keeps_cfgHold | apply keeps_hlUpd | apply keeps_setSriov
    | apply keeps_barSizeWrite | split | refine keeps_pair (by assumption) ?_)

theorem keeps_cfgWrite (c : Nat) (dw : Nat) (v : Nat) (be : BitVec 4) {s : State}
    (hw : Covers 0x106087D3AB w) (h : Keeps w r s) : Keeps w r (cfgWrite c dw v be s) := by
  unfold cfgWrite
  with_reducible repeat' (beta_reduce; first
    | assumption | exact covers_of hw rfl | (intro _) | apply keeps_setBme | apply keeps_doIf | apply keeps_cfgHold
    | apply keeps_fnUpd | apply keeps_setPmcsr | apply keeps_setMsixCtl | apply keeps_setDevCtl | apply keeps_setAtsEn
    | apply keeps_pfWrite | split | refine keeps_pair (by assumption) ?_)

theorem keeps_cfgPut (c : Nat) (dw : Nat) (v : Nat) (be : BitVec 4) {s : State}
    (hw : Covers 0x106087D3AB w) (h : Keeps w r s) : Keeps w r (cfgPut c dw v be s) := by
  unfold cfgPut
  with_reducible repeat' (first
    | assumption | exact covers_of hw rfl | apply keeps_cfgWrite | split | refine keeps_pair (by assumption) ?_)

theorem keeps_cfgServe (c : Nat) (dw : Nat) (wr : Option (Word × BitVec 4)) {s : State}
    (hw : Covers 0x106087D3AB w) (h : Keeps w r s) : Keeps w r (cfgServe c dw wr s) := by
  unfold cfgServe
  with_reducible repeat' (beta_reduce; first
    | assumption | exact covers_of hw rfl | (intro _) | apply keeps_emit | apply keeps_cfgPut | split
    | refine keeps_pair (by assumption) ?_)

theorem keeps_cfgRequest (c : Nat) (dw : Nat) (wr : Option (Word × BitVec 4)) {s : State}
    (hw : Covers 0x106087D3AB w) (h : Keeps w r s) : Keeps w r (cfgRequest c dw wr s) := by
  unfold cfgRequest
  with_reducible repeat' (first
    | assumption | exact covers_of hw rfl | apply keeps_emit | apply keeps_cfgServe | split
    | refine keeps_pair (by assumption) ?_)

theorem keeps_execConfigRequest (c : Fin 1024) (dw : Fin 1024) (wr : Option (BitVec 32 × BitVec 4)) {s : State}
    (hw : Covers 0x1060C7D3AB w) (h : Keeps w r s) : Ends w r (execConfigRequest c dw wr s) := by
  unfold execConfigRequest
  with_reducible repeat' (first
    | assumption | exact covers_of hw rfl | (intro _) | apply ends_next | apply keeps_done | apply keeps_hostTlp
    | apply keeps_inOrder | apply keeps_cfgRequest | split | refine keeps_pair (by assumption) ?_)

theorem keeps_abortDesc (k : DKey) {s : State}
    (hw : Covers 0x25A8008 w) (h : Keeps w r s) : Keeps w r (abortDesc k s) := by
  unfold abortDesc
  with_reducible repeat' (beta_reduce; first
    | assumption | exact covers_of hw rfl | (intro _) | apply keeps_qpUpd | apply keeps_cancelDesc | split
    | refine keeps_pair (by assumption) ?_)

theorem keeps_rxPosted {s : State}
    (hw : Covers 0x20000 w) (h : Keeps w r s) : Keeps w r (rxPosted s) := by
  unfold rxPosted
  with_reducible repeat' (beta_reduce; first
    | assumption | exact covers_of hw rfl | (intro _) | apply keeps_hlUpd | split
    | refine keeps_pair (by assumption) ?_)

theorem keeps_dropAllHreads {s : State}
    (hw : Covers 0x760000 w) (h : Keeps w r s) : Keeps w r (dropAllHreads s) := by
  unfold dropAllHreads
  with_reducible repeat' (beta_reduce; first
    | assumption | exact covers_of hw rfl | (intro _)
    | (extract_lets +onlyGivenNames x; first
      | (refine keeps_cut (w := w) (r := r) (s := x) ?_ ?_; (on_goal 2 => (intro hx; clear_value x)); unfold x; clear x)
      | (refine keeps_cut (w := w) (r := r) (s := x.1) ?_ ?_; (on_goal 2 => (intro hx; clear_value x)); unfold x; clear x)
      | clear_value x)
    | apply keeps_doAll | apply keeps_lbUpd | apply keeps_dropItems | apply keeps_rxPosted | apply keeps_hreadGone
    | split | refine keeps_pair (by assumption) ?_)

theorem keeps_upFailed (p : Nat) (tag : Nat) (code : Nat) {s : State}
    (hw : Covers 0x500000 w) (h : Keeps w r s) : Keeps w r (upFailed p tag code s) := by
  unfold upFailed
  with_reducible repeat' (beta_reduce; first
    | assumption | exact covers_of hw rfl | (intro _) | apply keeps_upSettle | apply keeps_upUpd | split
    | refine keeps_pair (by assumption) ?_)

theorem keeps_dropUpTags (l : List (Nat × HostTag)) {s : State}
    (hw : Covers 0x500000 w) (h : Keeps w r s) : Keeps w r (dropUpTags l s) := by
  unfold dropUpTags
  with_reducible repeat' (beta_reduce; first
    | assumption | exact covers_of hw rfl | (intro _) | apply keeps_doAll | apply keeps_upAnswered
    | apply keeps_upFailed | split | refine keeps_pair (by assumption) ?_)

theorem keeps_dlDown {s : State}
    (hw : Covers 0x10227ED3AB w) (h : Keeps w r s) : Keeps w r (dlDown s) := by
  unfold dlDown
  with_reducible repeat' (beta_reduce; first
    | assumption | exact covers_of hw rfl | (intro _)
    | (extract_lets +onlyGivenNames x; first
      | (refine keeps_cut (w := w) (r := r) (s := x) ?_ ?_; (on_goal 2 => (intro hx; clear_value x)); unfold x; clear x)
      | (refine keeps_cut (w := w) (r := r) (s := x.1) ?_ ?_; (on_goal 2 => (intro hx; clear_value x)); unfold x; clear x)
      | clear_value x)
    | apply keeps_raise | apply keeps_leftLow | apply keeps_hlUpd | apply keeps_setPtmValid
    | apply keeps_dropAllHreads | apply keeps_dropUpTags | apply keeps_updTags | apply keeps_doAll
    | apply keeps_abortDesc | apply keeps_updC0Short | apply keeps_leaveL0 | apply keeps_set | split
    | refine keeps_pair (by assumption) ?_)

theorem keeps_execDlDown {s : State}
    (hw : Covers 0x10227ED3AB w) (h : Keeps w r s) : Ends w r (execDlDown s) := by
  unfold execDlDown
  with_reducible repeat' (first
    | assumption | exact covers_of hw rfl | apply ends_next | apply keeps_done | apply keeps_dlDown | split
    | refine keeps_pair (by assumption) ?_)

theorem keeps_vfsDropped {s : State}
    (hw : Covers 0x10000 w) (h : Keeps w r s) : Keeps w r (vfsDropped s) := by
  unfold vfsDropped
  with_reducible repeat' (beta_reduce; first
    | assumption | exact covers_of hw rfl | (intro _) | exact ⟨rfl, rfl⟩ | split
    | refine keeps_pair (by assumption) ?_ | refine keeps_mk ?_)

theorem keeps_coldHeld {s : State}
    (hw : Covers 0x188 w) (h : Keeps w r s) : Keeps w r (coldHeld s) := by
  unfold coldHeld
  with_reducible repeat' (beta_reduce; first
    | assumption | exact covers_of hw rfl | (intro _) | apply keeps_doAll | apply keeps_dropHeld | apply keeps_setPba
    | apply keeps_inc | split | refine keeps_pair (by assumption) ?_)

theorem keeps_hostLinkReset {s : State}
    (hw : Covers 0x1060F7D3AB w) (h : Keeps w r s) : Keeps w r (hostLinkReset s) := by
  unfold hostLinkReset
  with_reducible repeat' (beta_reduce; first
    | assumption | exact covers_of hw rfl | (intro _)
    | (extract_lets +onlyGivenNames x; first
      | (refine keeps_cut (w := w) (r := r) (s := x) ?_ ?_; (on_goal 2 => (intro hx; clear_value x)); unfold x; clear x)
      | (refine keeps_cut (w := w) (r := r) (s := x.1) ?_ ?_; (on_goal 2 => (intro hx; clear_value x)); unfold x; clear x)
      | clear_value x)
    | apply keeps_doIf | apply keeps_ctxCause | apply keeps_devUpd | apply keeps_doAll | apply keeps_mbxIdle
    | apply keeps_ctxUpd | apply keeps_dropAllHreads | apply keeps_setPtmValid | apply keeps_set | apply keeps_updTags
    | apply keeps_atsFlush | apply keeps_hlUpd | apply keeps_barSizesReset | apply keeps_raise | apply keeps_fnTo
    | apply keeps_vfsDropped | apply keeps_vfGone | apply keeps_coldHeld | split
    | refine keeps_pair (by assumption) ?_)

theorem keeps_execDlDownClassify {s : State}
    (hw : Covers 0x1060F7D3AB w) (h : Keeps w r s) : Ends w r (execDlDownClassify s) := by
  unfold execDlDownClassify
  with_reducible repeat' (beta_reduce; first
    | assumption | exact covers_of hw rfl | (intro _)
    | (extract_lets +onlyGivenNames x; first
      | (refine keeps_cut (w := w) (r := r) (s := x) ?_ ?_; (on_goal 2 => (intro hx; clear_value x)); unfold x; clear x)
      | (refine keeps_cut (w := w) (r := r) (s := x.1) ?_ ?_; (on_goal 2 => (intro hx; clear_value x)); unfold x; clear x)
      | clear_value x)
    | apply ends_next | apply keeps_done | apply keeps_doIf | apply keeps_addCause | apply keeps_hostLinkReset
    | apply keeps_hlUpd | apply keeps_set | split | refine keeps_pair (by assumption) ?_)

theorem keeps_upWriteFailed (id : Nat) (code : Nat) {s : State}
    (hw : Covers 0x500000 w) (h : Keeps w r s) : Keeps w r (upWriteFailed id code s) := by
  unfold upWriteFailed
  with_reducible repeat' (beta_reduce; first
    | assumption | exact covers_of hw rfl | (intro _) | apply keeps_respOut | apply keeps_dropItems | split
    | refine keeps_pair (by assumption) ?_)

theorem keeps_askerFails (who : AtsFor) (a : Ans) {s : State}
    (hw : Covers 0x58000A w) (h : Keeps w r s) : Keeps w r (askerFails who a s) := by
  unfold askerFails
  with_reducible repeat' (beta_reduce; first
    | assumption | exact covers_of hw rfl | (intro _) | apply keeps_descFail | apply keeps_upFailed
    | apply keeps_upWriteFailed | apply keeps_fetchFailed | split | refine keeps_pair (by assumption) ?_)

theorem keeps_askerDenied (who : AtsFor) {s : State}
    (hw : Covers 0x10205AD3AB w) (h : Keeps w r s) : Keeps w r (askerDenied who s) := by
  unfold askerDenied
  with_reducible repeat' (beta_reduce; first
    | assumption | exact covers_of hw rfl | (intro _) | apply keeps_hostDenied | apply keeps_upFailed
    | apply keeps_upRefused | apply keeps_upWriteFailed | apply keeps_fetchFailed | split
    | refine keeps_pair (by assumption) ?_)

theorem keeps_tagEnds (use : TagUse) (a : Ans) {s : State}
    (hw : Covers 0x10207ED3AB w) (h : Keeps w r s) : Keeps w r (tagEnds use a s) := by
  unfold tagEnds
  with_reducible repeat' (beta_reduce; first
    | assumption | exact covers_of hw rfl | (intro _) | apply keeps_answer | apply keeps_upAnswered
    | apply keeps_askerFails | split | refine keeps_pair (by assumption) ?_)

theorem keeps_unexpected (c : Nat) {s : State}
    (hw : Covers 0x102002D3AB w) (h : Keeps w r s) : Keeps w r (unexpected c s) := by
  unfold unexpected
  with_reducible repeat' (first
    | assumption | exact covers_of hw rfl | apply keeps_aerAdvisory | split | refine keeps_pair (by assumption) ?_)

theorem keeps_completion (c : Nat) (tag : Nat) (st : Nat) (data : List Byte) {s : State}
    (hw : Covers 0x10207ED3AB w) (h : Keeps w r s) : Keeps w r (completion c tag st data s) := by
  unfold completion
  with_reducible repeat' (beta_reduce; first
    | assumption | exact covers_of hw rfl | (intro _) | apply keeps_unexpected | apply keeps_freeTags
    | apply keeps_tagEnds | apply keeps_doIf | apply keeps_aerAdvisory | split | refine keeps_pair (by assumption) ?_)

theorem keeps_execDeviceRequestCompletion (c : Fin 1024) (tag : Fin 1024) (st : Fin 4) (data : List Byte) {s : State}
    (hw : Covers 0x10207ED3AB w) (h : Keeps w r s) : Ends w r (execDeviceRequestCompletion c tag st data s) := by
  unfold execDeviceRequestCompletion
  with_reducible repeat' (first
    | assumption | exact covers_of hw rfl | (intro _) | apply ends_next | apply keeps_done | apply keeps_hostTlp
    | apply keeps_completion | split | refine keeps_pair (by assumption) ?_)

theorem keeps_execDeviceRequestTimeout (c : Fin 1024) (tag : Fin 1024) {s : State}
    (hw : Covers 0x10207ED3AB w) (h : Keeps w r s) : Ends w r (execDeviceRequestTimeout c tag s) := by
  unfold execDeviceRequestTimeout
  with_reducible repeat' (beta_reduce; first
    | assumption | exact covers_of hw rfl | (intro _) | apply ends_next | apply keeps_done | apply keeps_tagEnds
    | apply keeps_retireTag | apply keeps_aerAdvisory | split | refine keeps_pair (by assumption) ?_)

theorem keeps_translated (c : Nat) (iova : Addr) (ta : Addr) (log2 : Nat) (r0 : Bool) (w0 : Bool) (u : Bool) (n : Bool) (g : Bool) {s : State}
    (hw : Covers 0x10205AD3AB w) (h : Keeps w r s) : Keeps w r (translated c iova ta log2 r0 w0 u n g s) := by
  unfold translated
  with_reducible repeat' (beta_reduce; first
    | assumption | exact covers_of hw rfl | (intro _)
    | (extract_lets +onlyGivenNames x; first
      | (refine keeps_cut (w := w) (r := r) (s := x) ?_ ?_; (on_goal 2 => (intro hx; clear_value x)); unfold x; clear x)
      | (refine keeps_cut (w := w) (r := r) (s := x.1) ?_ ?_; (on_goal 2 => (intro hx; clear_value x)); unfold x; clear x)
      | clear_value x)
    | apply keeps_unexpected | apply keeps_freeTags | apply keeps_atsFill | apply keeps_askerDenied | split
    | refine keeps_pair (by assumption) ?_)

theorem keeps_execAtsTranslationCompletion (c : Fin 1024) (iova : Addr) (ta : Addr) (log2 : Fin 53) (r0 : Bool) (w0 : Bool) (u : Bool) (n : Bool) (g : Bool) {s : State}
    (hw : Covers 0x10205AD3AB w) (h : Keeps w r s) : Ends w r (execAtsTranslationCompletion c iova ta log2 r0 w0 u n g s) := by
  unfold execAtsTranslationCompletion
  with_reducible repeat' (first
    | assumption | exact covers_of hw rfl | (intro _) | apply ends_next | apply keeps_done | apply keeps_hostTlp
    | apply keeps_translated | split | refine keeps_pair (by assumption) ?_)

theorem keeps_c0Demote (c : Nat) (w0 : Nat) (len : Nat) (read : Bool) {s : State}
    (hw : Covers 0x102042D3AB w) (h : Keeps w r s) : Keeps w r (c0Demote c w0 len read s) := by
  unfold c0Demote
  with_reducible repeat' (beta_reduce; first
    | assumption | exact covers_of hw rfl | (intro _) | apply keeps_cadUpd | apply keeps_doIf | apply keeps_raise
    | apply keeps_set | apply keeps_inc | split | refine keeps_pair (by assumption) ?_)

theorem keeps_c0Begins (c : Nat) (c0 : Bool) {s : State}
    (hw : Covers 0x40000 w) (h : Keeps w r s) : Keeps w r (c0Begins c c0 s) := by
  unfold c0Begins
  with_reducible repeat' (beta_reduce; first
    | assumption | exact covers_of hw rfl | (intro _) | apply keeps_doIf | apply keeps_ctxUpd | split
    | refine keeps_pair (by assumption) ?_)

theorem keeps_strandedServe (p : Nat) (laddr : Nat) (len : Nat) (x0 : Stranded) {s : State}
    (hw : Covers 0x100008 w) (h : Keeps w r s) : Keeps w r (strandedServe p laddr len x0 s) := by
  unfold strandedServe
  dsimp only
  with_reducible repeat' (beta_reduce; first
    | assumption | exact covers_of hw rfl | (intro _)
    | (extract_lets +onlyGivenNames x; first
      | (refine keeps_cut (w := w) (r := r) (s := x) ?_ ?_; (on_goal 2 => (intro hx; clear_value x)); unfold x; clear x)
      | (refine keeps_cut (w := w) (r := r) (s := x.1) ?_ ?_; (on_goal 2 => (intro hx; clear_value x)); unfold x; clear x)
      | clear_value x)
    | apply keeps_inc | apply keeps_srbRemove | apply keeps_srbRegs | apply keeps_lbUpd | split
    | refine keeps_pair (by assumption) ?_)

theorem keeps_speculate (c : Nat) (w0 : Nat) (woff : Nat) (len : Nat) {s : State}
    (hw : Covers 0x400000 w) (h : Keeps w r s) : Keeps w r (speculate c w0 woff len s) := by
  unfold speculate
  with_reducible repeat' (beta_reduce; first
    | assumption | exact covers_of hw rfl | (intro _)
    | (extract_lets +onlyGivenNames x; first
      | (refine keeps_cut (w := w) (r := r) (s := x) ?_ ?_; (on_goal 2 => (intro hx; clear_value x)); unfold x; clear x)
      | (refine keeps_cut (w := w) (r := r) (s := x.1) ?_ ?_; (on_goal 2 => (intro hx; clear_value x)); unfold x; clear x)
      | clear_value x)
    | apply keeps_addItem | split | refine keeps_pair (by assumption) ?_)

theorem keeps_windowRead (c : Nat) (w0 : Nat) (woff : Nat) (len : Nat) {s : State}
    (hw : Covers 0x102076D3AB w) (h : Keeps w r s) : Keeps w r (windowRead c w0 woff len s) := by
  unfold windowRead
  with_reducible repeat' (beta_reduce; first
    | assumption | exact covers_of hw rfl | (intro _)
    | (extract_lets +onlyGivenNames x; first
      | (refine keeps_cut (w := w) (r := r) (s := x) ?_ ?_; (on_goal 2 => (intro hx; clear_value x)); unfold x; clear x)
      | (refine keeps_cut (w := w) (r := r) (s := x.1) ?_ ?_; (on_goal 2 => (intro hx; clear_value x)); unfold x; clear x)
      | clear_value x)
    | apply keeps_speculate | apply keeps_addItem | apply keeps_c0Begins | apply keeps_lbUpd | apply keeps_c0Demote
    | apply keeps_doAll | apply keeps_strandedServe | apply keeps_addWaiting | apply keeps_hreadSettle
    | exact ⟨rfl, rfl⟩ | split | refine keeps_pair (by assumption) ?_ | refine keeps_mk ?_)

theorem keeps_hostReadBar2 (c : Nat) (off : Nat) (len : Nat) {s : State}
    (hw : Covers 0x102076D3AB w) (h : Keeps w r s) : Keeps w r (hostReadBar2 c off len s) := by
  unfold hostReadBar2
  with_reducible repeat' (beta_reduce; first
    | assumption | exact covers_of hw rfl | (intro _) | apply keeps_answerHost | apply keeps_refuseHostRead
    | apply keeps_windowRead | split | refine keeps_pair (by assumption) ?_)

theorem keeps_execHostReadBar2 (c : Fin 1024) (off : BitVec 34) (len : Fin 4097) {s : State}
    (hw : Covers 0x102076D3AB w) (h : Keeps w r s) : Ends w r (execHostReadBar2 c off len s) := by
  unfold execHostReadBar2
  with_reducible repeat' (first
    | assumption | exact covers_of hw rfl | (intro _) | apply ends_next | apply keeps_done | apply keeps_hostTlp
    | apply keeps_hostReadBar2 | split | refine keeps_pair (by assumption) ?_)

theorem keeps_windowWrite (c : Nat) (w0 : Nat) (woff : Nat) (data : List Byte) {s : State}
    (hw : Covers 0x102056D3AB w) (h : Keeps w r s) : Keeps w r (windowWrite c w0 woff data s) := by
  unfold windowWrite
  with_reducible repeat' (first
    | assumption | exact covers_of hw rfl
    | (extract_lets +onlyGivenNames x; first
      | (refine keeps_cut (w := w) (r := r) (s := x) ?_ ?_; (on_goal 2 => (intro hx; clear_value x)); unfold x; clear x)
      | (refine keeps_cut (w := w) (r := r) (s := x.1) ?_ ?_; (on_goal 2 => (intro hx; clear_value x)); unfold x; clear x)
      | clear_value x)
    | apply keeps_addItem | apply keeps_c0Begins | apply keeps_overwrite | apply keeps_c0Demote | split
    | refine keeps_pair (by assumption) ?_)

theorem keeps_hostWriteBar2 (c : Nat) (off : Nat) (data : List Byte) {s : State} (hw : Covers 0x102056D3AB w)
    (h : Keeps w r s) : Keeps w r (hostWriteBar2 c off data s) := by
  unfold hostWriteBar2
  split
  · exact h
  · have hx := keeps_takeWseq c (covers_of hw rfl) h
    generalize takeWseq c s = x at hx
    dsimp only
    generalize hostStateRefuses x c = v
    generalize checkBar2 x c off data.length true = q
    obtain ⟨q, j⟩ := q
    cases v with
    | some b =>
      cases b
      · exact hx
      · exact keeps_refuseHostWrite _ _ _ _ _ _ _ (covers_of hw rfl) hx
    | none =>
      cases q
      · exact keeps_windowWrite _ _ _ _ (covers_of hw rfl) hx
      · dsimp only
        split
        · exact hx
        · exact keeps_refuseHostWrite _ _ _ _ _ _ _ (covers_of hw rfl) hx
      · exact keeps_refuseHostWrite _ _ _ _ _ _ _ (covers_of hw rfl) hx

theorem keeps_execHostWriteBar2 (c : Fin 1024) (off : BitVec 34) (data : List Byte) {s : State}
    (hw : Covers 0x102056D3AB w) (h : Keeps w r s) : Ends w r (execHostWriteBar2 c off data s) := by
  unfold execHostWriteBar2
  with_reducible repeat' (first
    | assumption | exact covers_of hw rfl | (intro _) | apply ends_next | apply keeps_done | apply keeps_hostPosted
    | apply keeps_hostWriteBar2 | split | refine keeps_pair (by assumption) ?_)

theorem keeps_hostReadBar4 (c : Nat) (off : Nat) (len : Nat) {s : State}
    (hw : Covers 0x102062D3AB w) (h : Keeps w r s) : Keeps w r (hostReadBar4 c off len s) := by
  unfold hostReadBar4
  with_reducible repeat' (beta_reduce; first
    | assumption | exact covers_of hw rfl | (intro _)
    | (extract_lets +onlyGivenNames x; first
      | (refine keeps_cut (w := w) (r := r) (s := x) ?_ ?_; (on_goal 2 => (intro hx; clear_value x)); unfold x; clear x)
      | (refine keeps_cut (w := w) (r := r) (s := x.1) ?_ ?_; (on_goal 2 => (intro hx; clear_value x)); unfold x; clear x)
      | clear_value x)
    | apply keeps_answerHost | apply keeps_refuseHostRead | apply keeps_addItem | exact ⟨rfl, rfl⟩ | split
    | refine keeps_pair (by assumption) ?_ | refine keeps_mk ?_)

theorem keeps_execHostReadBar4 (c : Fin 1024) (off : BitVec 36) (len : Fin 4097) {s : State}
    (hw : Covers 0x102062D3AB w) (h : Keeps w r s) : Ends w r (execHostReadBar4 c off len s) := by
  unfold execHostReadBar4
  with_reducible repeat' (first
    | assumption | exact covers_of hw rfl | (intro _) | apply ends_next | apply keeps_done | apply keeps_hostTlp
    | apply keeps_hostReadBar4 | split | refine keeps_pair (by assumption) ?_)

theorem keeps_hostWriteBar4 (c : Nat) (off : Nat) (data : List Byte) {s : State}
    (hw : Covers 0x102246D3AB w) (h : Keeps w r s) : Keeps w r (hostWriteBar4 c off data s) := by
  unfold hostWriteBar4
  with_reducible repeat' (beta_reduce; first
    | assumption | exact covers_of hw rfl | (intro _)
    | (extract_lets +onlyGivenNames x; first
      | (refine keeps_cut (w := w) (r := r) (s := x) ?_ ?_; (on_goal 2 => (intro hx; clear_value x)); unfold x; clear x)
      | (refine keeps_cut (w := w) (r := r) (s := x.1) ?_ ?_; (on_goal 2 => (intro hx; clear_value x)); unfold x; clear x)
      | clear_value x)
    | apply keeps_refuseHostWrite | apply keeps_updStage | apply keeps_addItem | apply keeps_ctxUpd | split
    | refine keeps_pair (by assumption) ?_)

theorem keeps_execHostWriteBar4 (c : Fin 1024) (off : BitVec 36) (data : List Byte) {s : State}
    (hw : Covers 0x102246D3AB w) (h : Keeps w r s) : Ends w r (execHostWriteBar4 c off data s) := by
  unfold execHostWriteBar4
  with_reducible repeat' (first
    | assumption | exact covers_of hw rfl | (intro _) | apply ends_next | apply keeps_done | apply keeps_hostPosted
    | apply keeps_hostWriteBar4 | split | refine keeps_pair (by assumption) ?_)

theorem keeps_hostPut (rest : Bool) (t : Stroke) (c : Fin 1024) (a : Nat) (i : Instr) (f : State → State) {s : State}
    (hf : ∀ (s : State), Keeps w r s → Keeps w r (f s)) (hw : Covers 0x420004 w) (h : Keeps w r s) : Keeps w r (hostPut rest t c a i f s) := by
  unfold hostPut
  with_reducible repeat' (first
    | assumption | exact covers_of hw rfl | (intro _) | apply hf | apply keeps_hostWriteReg | apply keeps_doIf
    | apply keeps_stampedAs | split | refine keeps_pair (by assumption) ?_)

theorem keeps_hostPutWord (rest : Bool) (t : Stroke) (i : Instr) (m : Master) (a : Nat) (v : Nat) {s : State}
    (hw : Covers 0x1276FFFFFF w) (h : Keeps w r s) : Keeps w r (hostPutWord rest t i m a v s) := by
  unfold hostPutWord
  with_reducible repeat' (beta_reduce; first
    | assumption | exact covers_of hw rfl | (intro _) | apply keeps_hostPut | apply keeps_putWord | split
    | refine keeps_pair (by assumption) ?_)

theorem keeps_hostTurn (rest : Bool) (t : Stroke) (i : Instr) (c : Nat) (f : State → State) {s : State}
    (hf : ∀ (s : State), Keeps w r s → Keeps w r (f s)) (hw : Covers 0x420000 w) (h : Keeps w r s) : Keeps w r (hostTurn rest t i c f s) := by
  unfold hostTurn
  with_reducible repeat' (first
    | assumption | exact covers_of hw rfl | (intro _) | apply hf | apply keeps_inOrder | split
    | refine keeps_pair (by assumption) ?_)

theorem keeps_hostGet (rest : Bool) (t : Stroke) (i : Instr) (m : Master) (a : Nat) (be : BitVec 8) (wide : Bool) {s : State}
    (hw : Covers 0x102046FFBB w) (h : Keeps w r s) : Keeps w r (hostGet rest t i m a be wide s) := by
  unfold hostGet
  with_reducible repeat' (beta_reduce; first
    | assumption | exact covers_of hw rfl | (intro _) | apply keeps_hostReadReg | apply keeps_regServe | split
    | refine keeps_pair (by assumption) ?_)

theorem keeps_hostServe (rest : Bool) (t : Stroke) (i : Instr) {s : State}
    (hw : Covers 0x1276FFFFFF w) (h : Keeps w r s) : Keeps w r (hostServe rest t i s) := by
  unfold hostServe
  cases i
  case registerWrite m a be wide v met =>
    cases m <;> first
      | exact h
      | exact keeps_hostPut _ _ _ _ _ _ (fun _ hs => keeps_putRegister _ _ _ _ _ _ (covers_of hw rfl) hs) (covers_of hw rfl) h
  case registerAnswerTimeout m a wr =>
    cases m <;> first
      | exact h
      | exact keeps_hostTurn _ _ _ _ _ (fun _ hs => keeps_hungAccess _ _ _ (covers_of hw rfl) hs) (covers_of hw rfl) h
  all_goals dsimp only
  all_goals with_reducible first
    | exact h
    | (repeat' (beta_reduce; first
    | assumption | exact covers_of hw rfl | (intro _) | apply keeps_hostGet | apply keeps_hostPutWord | apply keeps_hostTurn
    | apply keeps_wdogKicked | apply keeps_doorbellAt | apply keeps_mbxGoHost | apply keeps_cqEvtWrite
    | apply keeps_unmask | apply keeps_cfgRequest | apply keeps_barSizeWrite | apply keeps_bmeWrite
    | apply keeps_pmcsrPut | apply keeps_vfSet | apply keeps_vfUnset | apply keeps_flr | apply keeps_unsupported
    | apply keeps_turnOff | apply keeps_atsInvalidate | apply keeps_translated | apply keeps_completion
    | apply keeps_persistRead | apply keeps_wfenceRead | apply keeps_hostReadBar2 | apply keeps_hostWriteBar2
    | apply keeps_hostReadBar4 | apply keeps_hostWriteBar4))

theorem keeps_rxRun (e : RxReq) {s : State}
    (hw : Covers 0x1276FFFFFF w) (h : Keeps w r s) : Keeps w r (rxRun e s) := by
  unfold rxRun
  with_reducible repeat' (beta_reduce; first
    | assumption | exact covers_of hw rfl | (intro _) | apply keeps_doAll | apply keeps_emit | apply keeps_hostServe
    | split | refine keeps_pair (by assumption) ?_)

theorem keeps_rxTake (e : RxReq) {s : State}
    (hw : Covers 0x1276FFFFFF w) (h : Keeps w r s) : Keeps w r (rxTake e s) := by
  unfold rxTake
  with_reducible repeat' (beta_reduce; first
    | assumption | exact covers_of hw rfl | (intro _)
    | (extract_lets +onlyGivenNames x; first
      | (refine keeps_cut (w := w) (r := r) (s := x) ?_ ?_; (on_goal 2 => (intro hx; clear_value x)); unfold x; clear x)
      | (refine keeps_cut (w := w) (r := r) (s := x.1) ?_ ?_; (on_goal 2 => (intro hx; clear_value x)); unfold x; clear x)
      | clear_value x)
    | apply keeps_hlUpd | apply keeps_rxRun | split | refine keeps_pair (by assumption) ?_)

theorem keeps_rxServe {s : State}
    (hw : Covers 0x1276FFFFFF w) (h : Keeps w r s) : Keeps w r (rxServe s) := by
  unfold rxServe
  with_reducible repeat' (beta_reduce; first
    | assumption | exact covers_of hw rfl | (intro _) | apply keeps_doAll | apply keeps_rxTake | split
    | refine keeps_pair (by assumption) ?_)

theorem keeps_updDeficits {s : State}
    (hw : Covers 0x400000 w) (h : Keeps w r s) : Keeps w r (updDeficits s) := by
  unfold updDeficits
  with_reducible repeat' (beta_reduce; first
    | assumption | exact covers_of hw rfl | (intro _)
    | (extract_lets +onlyGivenNames x; first
      | (refine keeps_cut (w := w) (r := r) (s := x) ?_ ?_; (on_goal 2 => (intro hx; clear_value x)); unfold x; clear x)
      | (refine keeps_cut (w := w) (r := r) (s := x.1) ?_ ?_; (on_goal 2 => (intro hx; clear_value x)); unfold x; clear x)
      | clear_value x)
    | apply keeps_cadUpd | split | refine keeps_pair (by assumption) ?_)

theorem keeps_giveSlot (up : Bool) (id : Nat) (pay : Option (Nat × Nat × Bool)) {s : State}
    (hw : Covers 0x400000 w) (h : Keeps w r s) : Keeps w r (giveSlot up id pay s) := by
  unfold giveSlot
  with_reducible repeat' (beta_reduce; first
    | assumption | exact covers_of hw rfl | (intro _) | apply keeps_cadUpd | split
    | refine keeps_pair (by assumption) ?_)

theorem keeps_walkList (up : Bool) (cap : Nat) (es : List (BitVec 8)) {x : State × Nat} (hw : Covers 0x400000 w)
    (h : Keeps w r x.1) : Keeps w r (walkList up cap es x).1 := by
  induction es generalizing x with
  | nil => exact h
  | cons e es ih =>
    unfold walkList
    with_reducible repeat' (first
      | assumption | exact covers_of hw rfl | apply ih | apply keeps_giveSlot | split)

theorem keeps_walkSlots (up : Bool) {s : State}
    (hw : Covers 0x400000 w) (h : Keeps w r s) : Keeps w r (walkSlots up s).1 := by
  unfold walkSlots
  with_reducible repeat' (first
    | assumption | exact covers_of hw rfl | apply keeps_walkList | split | refine keeps_pair (by assumption) ?_)

theorem keeps_noteUse (used : Nat) {s : State}
    (hw : Covers 0x20000 w) (h : Keeps w r s) : Keeps w r (noteUse used s) := by
  unfold noteUse
  with_reducible repeat' (beta_reduce; first
    | assumption | exact covers_of hw rfl | (intro _)
    | (extract_lets +onlyGivenNames x; first
      | (refine keeps_cut (w := w) (r := r) (s := x) ?_ ?_; (on_goal 2 => (intro hx; clear_value x)); unfold x; clear x)
      | (refine keeps_cut (w := w) (r := r) (s := x.1) ?_ ?_; (on_goal 2 => (intro hx; clear_value x)); unfold x; clear x)
      | clear_value x)
    | apply keeps_hlUpd | split | refine keeps_pair (by assumption) ?_)

theorem keeps_dropItem (id : Nat) {s : State}
    (hw : Covers 0x400000 w) (h : Keeps w r s) : Keeps w r (dropItem id s) := by
  unfold dropItem
  with_reducible repeat' (beta_reduce; first
    | assumption | exact covers_of hw rfl | (intro _) | apply keeps_dropItems | split
    | refine keeps_pair (by assumption) ?_)

theorem keeps_toEgress (p : Nat) (e : Egr) {s : State}
    (hw : Covers 0x10207ED3AB w) (h : Keeps w r s) : Keeps w r (toEgress p e s) := by
  unfold toEgress
  with_reducible repeat' (beta_reduce; first
    | assumption | exact covers_of hw rfl | (intro _) | apply keeps_lbUpd | apply keeps_endEgr | split
    | refine keeps_pair (by assumption) ?_)

theorem keeps_hostEgress (p : Nat) (c : Nat) (cls : Nat) (l : List Egr) {s : State}
    (hw : Covers 0x10207ED3AB w) (h : Keeps w r s) : Keeps w r (hostEgress p c cls l s) := by
  unfold hostEgress
  with_reducible repeat' (beta_reduce; first
    | assumption | exact covers_of hw rfl | (intro _)
    | (extract_lets +onlyGivenNames x; first
      | (refine keeps_cut (w := w) (r := r) (s := x) ?_ ?_; (on_goal 2 => (intro hx; clear_value x)); unfold x; clear x)
      | (refine keeps_cut (w := w) (r := r) (s := x.1) ?_ ?_; (on_goal 2 => (intro hx; clear_value x)); unfold x; clear x)
      | clear_value x)
    | apply keeps_doAll | apply keeps_toEgress | apply keeps_doIf | apply keeps_lbUpd | split
    | refine keeps_pair (by assumption) ?_)

theorem keeps_commits (k : DKey) {s : State}
    (hw : Covers 0x80000 w) (h : Keeps w r s) : Keeps w r (commits k s) := by
  unfold commits
  with_reducible repeat' (beta_reduce; first
    | assumption | exact covers_of hw rfl | (intro _) | apply keeps_descUpd | split
    | refine keeps_pair (by assumption) ?_)

theorem keeps_descEgress (p : Nat) (e : Egr) {s : State}
    (hw : Covers 0x10207ED3AB w) (h : Keeps w r s) : Keeps w r (descEgress p e s) := by
  unfold descEgress
  with_reducible repeat' (beta_reduce; first
    | assumption | exact covers_of hw rfl | (intro _) | apply keeps_toEgress | apply keeps_doIf | apply keeps_commits
    | split | refine keeps_pair (by assumption) ?_)

theorem keeps_descToPeer (link : Nat) (k : DKey) (off : Nat) (len : Nat) (m : UMsg) {s : State}
    (hw : Covers 0x88000 w) (h : Keeps w r s) : Keeps w r (descToPeer link k off len m s) := by
  unfold descToPeer
  with_reducible repeat' (beta_reduce; first
    | assumption | exact covers_of hw rfl | (intro _)
    | (extract_lets +onlyGivenNames x; first
      | (refine keeps_cut (w := w) (r := r) (s := x) ?_ ?_; (on_goal 2 => (intro hx; clear_value x)); unfold x; clear x)
      | (refine keeps_cut (w := w) (r := r) (s := x.1) ?_ ?_; (on_goal 2 => (intro hx; clear_value x)); unfold x; clear x)
      | clear_value x)
    | apply keeps_sendReq | apply keeps_descIssued | apply keeps_doIf | apply keeps_descUpd | apply keeps_commits
    | split | refine keeps_pair (by assumption) ?_)

theorem keeps_descToHost (id : Nat) (k : DKey) (addr : Addr) (data : List Byte) {s : State}
    (hw : Covers 0x4A0001 w) (h : Keeps w r s) : Keeps w r (descToHost id k addr data s) := by
  unfold descToHost
  with_reducible repeat' (beta_reduce; first
    | assumption | exact covers_of hw rfl | (intro _)
    | (extract_lets +onlyGivenNames x; first
      | (refine keeps_cut (w := w) (r := r) (s := x) ?_ ?_; (on_goal 2 => (intro hx; clear_value x)); unfold x; clear x)
      | (refine keeps_cut (w := w) (r := r) (s := x.1) ?_ ?_; (on_goal 2 => (intro hx; clear_value x)); unfold x; clear x)
      | clear_value x)
    | apply keeps_descUpd | apply keeps_descIssued | apply keeps_commits | apply keeps_hostWriteVia
    | apply keeps_dropItem | split | refine keeps_pair (by assumption) ?_)

theorem keeps_keepPages (id : Nat) (kept : Pages) {s : State}
    (hw : Covers 0x400000 w) (h : Keeps w r s) : Keeps w r (keepPages id kept s) := by
  unfold keepPages
  with_reducible repeat' (beta_reduce; first
    | assumption | exact covers_of hw rfl | (intro _) | apply keeps_cadUpd | split
    | refine keeps_pair (by assumption) ?_)

theorem keeps_upWriteOut (id : Nat) (p : Nat) (c : Nat) (tag : Option Nat) (addr : Addr) (kept : Pages) (data : List Byte) {s : State}
    (hw : Covers 0x102052D3AB w) (h : Keeps w r s) : Keeps w r (upWriteOut id p c tag addr kept data s) := by
  unfold upWriteOut
  dsimp only
  with_reducible repeat' (beta_reduce; first
    | assumption | exact covers_of hw rfl | (intro _)
    | (extract_lets +onlyGivenNames x; first
      | (refine keeps_cut (w := w) (r := r) (s := x) ?_ ?_; (on_goal 2 => (intro hx; clear_value x)); unfold x; clear x)
      | (refine keeps_cut (w := w) (r := r) (s := x.1) ?_ ?_; (on_goal 2 => (intro hx; clear_value x)); unfold x; clear x)
      | clear_value x)
    | apply keeps_respOut | apply keeps_dropItem | apply keeps_findPages | apply keeps_keepPages
    | apply keeps_upRefused | apply keeps_hostWriteVia | split | refine keeps_pair (by assumption) ?_)

theorem keeps_bar4Serve (r0 : HRead) {s : State}
    (hw : Covers 0x102066D3AB w) (h : Keeps w r s) : Keeps w r (bar4Serve r0 s) := by
  unfold bar4Serve
  with_reducible repeat' (beta_reduce; first
    | assumption | exact covers_of hw rfl | (intro _) | apply keeps_hreadAns | apply keeps_aerCor
    | apply keeps_lookupAll | split | refine keeps_pair (by assumption) ?_)

theorem keeps_hostReadGoes (id : Nat) (cls : Nat) {s : State}
    (hw : Covers 0x10207ED3AB w) (h : Keeps w r s) : Keeps w r (hostReadGoes id cls s) := by
  unfold hostReadGoes
  with_reducible repeat' (beta_reduce; first
    | assumption | exact covers_of hw rfl | (intro _) | apply keeps_bar4Serve | apply keeps_hreadSettle
    | apply keeps_hostEgress | split | refine keeps_pair (by assumption) ?_)

theorem keeps_hostDataGoes (id : Nat) {s : State}
    (hw : Covers 0x102026D3AB w) (h : Keeps w r s) : Keeps w r (hostDataGoes id s) := by
  unfold hostDataGoes
  with_reducible repeat' (beta_reduce; first
    | assumption | exact covers_of hw rfl | (intro _) | apply keeps_hreadFailed | apply keeps_cplData
    | apply keeps_hreadGone | split | refine keeps_pair (by assumption) ?_)

theorem keeps_mirrorGoes (link : Nat) (n : Nat) {s : State}
    (hw : Covers 0x2008000 w) (h : Keeps w r s) : Keeps w r (mirrorGoes link n s) := by
  unfold mirrorGoes
  with_reducible repeat' (beta_reduce; first
    | assumption | exact covers_of hw rfl | (intro _) | apply keeps_dsUpd | apply keeps_sendReq | exact ⟨rfl, rfl⟩
    | split | refine keeps_pair (by assumption) ?_)

theorem keeps_moveItem (i : Item) {s : State}
    (hw : Covers 0x10227ED3AB w) (h : Keeps w r s) : Keeps w r (moveItem i s) := by
  unfold moveItem
  with_reducible repeat' (beta_reduce; first
    | assumption | exact covers_of hw rfl | (intro _)
    | (extract_lets +onlyGivenNames x; first
      | (refine keeps_cut (w := w) (r := r) (s := x) ?_ ?_; (on_goal 2 => (intro hx; clear_value x)); unfold x; clear x)
      | (refine keeps_cut (w := w) (r := r) (s := x.1) ?_ ?_; (on_goal 2 => (intro hx; clear_value x)); unfold x; clear x)
      | clear_value x)
    | apply keeps_hostEgress | apply keeps_dropItem | apply keeps_hostReadGoes | apply keeps_hostDataGoes
    | apply keeps_waitAdmission | apply keeps_descEgress | apply keeps_descToPeer | apply keeps_descToHost
    | apply keeps_commits | apply keeps_doIf | apply keeps_toEgress | apply keeps_upWriteOut | apply keeps_respOut
    | apply keeps_peerStoreRun | apply keeps_mirrorGoes | apply keeps_sendMsg | split
    | refine keeps_pair (by assumption) ?_)

theorem keeps_readyRouted {s : State}
    (hw : Covers 0x4000000 w) (h : Keeps w r s) : Keeps w r (readyRouted s) := by
  unfold readyRouted
  with_reducible repeat' (beta_reduce; first
    | assumption | exact covers_of hw rfl | (intro _)
    | (extract_lets +onlyGivenNames x; first
      | (refine keeps_cut (w := w) (r := r) (s := x) ?_ ?_; (on_goal 2 => (intro hx; clear_value x)); unfold x; clear x)
      | (refine keeps_cut (w := w) (r := r) (s := x.1) ?_ ?_; (on_goal 2 => (intro hx; clear_value x)); unfold x; clear x)
      | clear_value x)
    | exact ⟨rfl, rfl⟩ | split | refine keeps_pair (by assumption) ?_ | refine keeps_mk ?_)

theorem keeps_moveItems {s : State}
    (hw : Covers 0x10267ED3AB w) (h : Keeps w r s) : Keeps w r (moveItems s) := by
  unfold moveItems
  with_reducible repeat' (beta_reduce; first
    | assumption | exact covers_of hw rfl | (intro _) | apply keeps_doAll | apply keeps_moveItem
    | apply keeps_testRouted | apply keeps_readyRouted | split | refine keeps_pair (by assumption) ?_)

theorem keeps_slots {s : State}
    (hw : Covers 0x10267ED3AB w) (h : Keeps w r s) : Keeps w r (slots s) := by
  unfold slots
  with_reducible repeat' (beta_reduce; first
    | assumption | exact covers_of hw rfl | (intro _) | apply keeps_noteUse | apply keeps_testRouted
    | apply keeps_updDeficits | apply keeps_walkSlots | apply keeps_moveItems | split
    | refine keeps_pair (by assumption) ?_)

theorem keeps_guardsInForce {s : State}
    (hw : Covers 0x102102D3AB w) (h : Keeps w r s) : Keeps w r (guardsInForce s) := by
  unfold guardsInForce
  with_reducible repeat' (beta_reduce; first
    | assumption | exact covers_of hw rfl | (intro _)
    | (extract_lets +onlyGivenNames x; first
      | (refine keeps_cut (w := w) (r := r) (s := x) ?_ ?_; (on_goal 2 => (intro hx; clear_value x)); unfold x; clear x)
      | (refine keeps_cut (w := w) (r := r) (s := x.1) ?_ ?_; (on_goal 2 => (intro hx; clear_value x)); unfold x; clear x)
      | clear_value x)
    | apply keeps_raise | exact ⟨rfl, rfl⟩ | split | refine keeps_pair (by assumption) ?_ | refine keeps_mk ?_)

theorem keeps_attachNow (a : Nat) (c : Nat) (cmd : Nat) {s : State}
    (hw : Covers 0x1072C6D3AB w) (h : Keeps w r s) : Keeps w r (attachNow a c cmd s) := by
  unfold attachNow
  with_reducible repeat' (first
    | assumption | exact covers_of hw rfl | (intro _) | apply keeps_cmdDone | apply keeps_doIf
    | apply keeps_tandemTell | apply keeps_aptAttach | split | refine keeps_pair (by assumption) ?_)

theorem keeps_detachNow (a : Nat) (cmd : Nat) {s : State}
    (hw : Covers 0x107286D3AB w) (h : Keeps w r s) : Keeps w r (detachNow a cmd s) := by
  unfold detachNow
  with_reducible repeat' (beta_reduce; first
    | assumption | exact covers_of hw rfl | (intro _)
    | (extract_lets +onlyGivenNames x; first
      | (refine keeps_cut (w := w) (r := r) (s := x) ?_ ?_; (on_goal 2 => (intro hx; clear_value x)); unfold x; clear x)
      | (refine keeps_cut (w := w) (r := r) (s := x.1) ?_ ?_; (on_goal 2 => (intro hx; clear_value x)); unfold x; clear x)
      | clear_value x)
    | apply keeps_cmdDone | apply keeps_tandemTell | apply keeps_aptDetach | split
    | refine keeps_pair (by assumption) ?_)

theorem keeps_applyDeferred (d : Deferred) {s : State}
    (hw : Covers 0x1173FFF3EB w) (h : Keeps w r s) : Keeps w r (applyDeferred d s) := by
  unfold applyDeferred
  with_reducible repeat' (beta_reduce; first
    | assumption | exact covers_of hw rfl | (intro _) | apply keeps_cqEvtApply | apply keeps_qpOff
    | apply keeps_winMapApply | apply keeps_winUnmapApply | apply keeps_winAttrApply | apply keeps_attachNow
    | apply keeps_detachNow | apply keeps_updBudget | apply keeps_dsUpd | apply keeps_set | apply keeps_vfsCreate
    | apply keeps_engineFence | apply keeps_doIf | apply keeps_ctxMoved | apply keeps_goLive | apply keeps_ctxClear
    | apply keeps_fuseEnd | exact ⟨rfl, rfl⟩ | split | refine keeps_pair (by assumption) ?_ | refine keeps_mk ?_)

theorem keeps_applyAllDeferred {s : State}
    (hw : Covers 0x1173FFF3EB w) (h : Keeps w r s) : Keeps w r (applyAllDeferred s) := by
  unfold applyAllDeferred
  with_reducible repeat' (first
    | assumption | exact covers_of hw rfl | (intro _) | apply keeps_guardsInForce | apply keeps_doAll
    | apply keeps_applyDeferred | exact ⟨rfl, rfl⟩ | split | refine keeps_pair (by assumption) ?_ | refine keeps_mk ?_)

theorem keeps_strokeTimers {s : State}
    (hw : Covers 0x8 w) (h : Keeps w r s) : Keeps w r (strokeTimers s) := by
  unfold strokeTimers
  with_reducible repeat' (beta_reduce; first
    | assumption | exact covers_of hw rfl | (intro _) | apply keeps_doAll | apply keeps_doIf | apply keeps_dec | split
    | refine keeps_pair (by assumption) ?_)

theorem keeps_countTimers {s : State}
    (hw : Covers 0x808 w) (h : Keeps w r s) : Keeps w r (countTimers s) := by
  unfold countTimers
  with_reducible repeat' (beta_reduce; first
    | assumption | exact covers_of hw rfl | (intro _) | apply keeps_doAll | apply keeps_doIf | apply keeps_dec
    | apply keeps_strokeTimers | exact ⟨rfl, rfl⟩ | split | refine keeps_pair (by assumption) ?_ | refine keeps_mk ?_)

theorem keeps_countWdog (c : Nat) {s : State}
    (hw : Covers 0x8 w) (h : Keeps w r s) : Keeps w r (countWdog c s) := by
  unfold countWdog
  with_reducible repeat' (beta_reduce; first
    | assumption | exact covers_of hw rfl | (intro _) | apply keeps_dec | apply keeps_set | apply keeps_doIf | split
    | refine keeps_pair (by assumption) ?_)

theorem keeps_ksCount {s : State}
    (hw : Covers 0x20000008 w) (h : Keeps w r s) : Keeps w r (ksCount s) := by
  unfold ksCount
  with_reducible repeat' (beta_reduce; first
    | assumption | exact covers_of hw rfl | (intro _)
    | (extract_lets +onlyGivenNames x; first
      | (refine keeps_cut (w := w) (r := r) (s := x) ?_ ?_; (on_goal 2 => (intro hx; clear_value x)); unfold x; clear x)
      | (refine keeps_cut (w := w) (r := r) (s := x.1) ?_ ?_; (on_goal 2 => (intro hx; clear_value x)); unfold x; clear x)
      | clear_value x)
    | apply keeps_doIf | apply keeps_setWord | apply keeps_pwrUpd | split | refine keeps_pair (by assumption) ?_)

theorem keeps_countStroke {s : State}
    (hw : Covers 0x2000000C w) (h : Keeps w r s) : Keeps w r (countStroke s) := by
  unfold countStroke
  with_reducible repeat' (first
    | assumption | exact covers_of hw rfl | apply keeps_ksCount | exact ⟨rfl, rfl⟩ | split
    | refine keeps_pair (by assumption) ?_ | refine keeps_mk ?_)

theorem keeps_noteBusy {s : State}
    (hw : Covers 0x102002C00B w) (h : Keeps w r s) : Keeps w r (noteBusy s) := by
  unfold noteBusy
  with_reducible repeat' (beta_reduce; first
    | assumption | exact covers_of hw rfl | (intro _)
    | (extract_lets +onlyGivenNames x; first
      | (refine keeps_cut (w := w) (r := r) (s := x) ?_ ?_; (on_goal 2 => (intro hx; clear_value x)); unfold x; clear x)
      | (refine keeps_cut (w := w) (r := r) (s := x.1) ?_ ?_; (on_goal 2 => (intro hx; clear_value x)); unfold x; clear x)
      | clear_value x)
    | apply keeps_pwrUpd | apply keeps_doIf | apply keeps_leaveL1 | split | refine keeps_pair (by assumption) ?_)

theorem keeps_resetOvertakes {s : State}
    (hw : Covers 0x1000 w) (h : Keeps w r s) : Keeps w r (resetOvertakes s) := by
  unfold resetOvertakes
  with_reducible repeat' (beta_reduce; first
    | assumption | exact covers_of hw rfl | (intro _) | apply keeps_devUpd | split
    | refine keeps_pair (by assumption) ?_)

theorem keeps_endOfStroke {s : State}
    (hw : Covers 0x16FFFFFFFF w) (h : Keeps w r s) : Keeps w r (endOfStroke s) := by
  unfold endOfStroke
  with_reducible repeat' (beta_reduce; first
    | assumption | exact covers_of hw rfl | (intro _)
    | (extract_lets +onlyGivenNames x; first
      | (refine keeps_cut (w := w) (r := r) (s := x) ?_ ?_; (on_goal 2 => (intro hx; clear_value x)); unfold x; clear x)
      | (refine keeps_cut (w := w) (r := r) (s := x.1) ?_ ?_; (on_goal 2 => (intro hx; clear_value x)); unfold x; clear x)
      | clear_value x)
    | apply keeps_doIf | apply keeps_orderPreserve | apply keeps_msixOut | apply keeps_abortsEnd
    | apply keeps_enginesFence | apply keeps_preserveEnter | apply keeps_photoLatch | apply keeps_devReset
    | apply keeps_noteBusy | apply keeps_rankCmds | apply keeps_dropServing | apply keeps_resetOvertakes | split
    | refine keeps_pair (by assumption) ?_)

theorem keeps_statesStep (d : Due) {s : State}
    (hw : Covers 0x1C7AFEF3EB w) (h : Keeps w r s) : Keeps w r (statesStep d s) := by
  unfold statesStep
  with_reducible repeat' (beta_reduce; first
    | assumption | exact covers_of hw rfl | (intro _) | apply keeps_doAll | apply keeps_drainStart
    | apply keeps_quiesce | apply keeps_drainEnd | apply keeps_squashEnd | split
    | refine keeps_pair (by assumption) ?_)

theorem keeps_applyDue (d : Due) {s : State}
    (hw : Covers 0x1C7AFEF3EB w) (h : Keeps w r s) : Keeps w r (applyDue d s) := by
  unfold applyDue
  with_reducible repeat' (beta_reduce; first
    | assumption | exact covers_of hw rfl | (intro _) | apply keeps_updOvercommit | apply keeps_cadUpd
    | apply keeps_statesStep | apply keeps_doAll | apply keeps_shareApply | apply keeps_levelSwitch | apply keeps_doIf
    | apply keeps_commitApply | split | refine keeps_pair (by assumption) ?_)

theorem keeps_linksStep {s : State}
    (hw : Covers 0x1076FEF3AB w) (h : Keeps w r s) : Keeps w r (linksStep s) := by
  unfold linksStep
  with_reducible repeat' (beta_reduce; first
    | assumption | exact covers_of hw rfl | (intro _) | apply keeps_dsUpd | apply keeps_doAll | apply keeps_enterSolo
    | apply keeps_doIf | apply keeps_lose | apply keeps_fence | apply keeps_updRoutes | apply keeps_sendLate
    | apply keeps_windowsClose | apply keeps_ulFlush | apply keeps_ulDown | exact ⟨rfl, rfl⟩ | split
    | refine keeps_pair (by assumption) ?_)

theorem keeps_failovers (l : List Nat) {s : State}
    (hw : Covers 0x106246D3AB w) (h : Keeps w r s) : Keeps w r (failovers l s) := by
  unfold failovers
  with_reducible repeat' (beta_reduce; first
    | assumption | exact covers_of hw rfl | (intro _) | apply keeps_doAll | apply keeps_failover | split
    | refine keeps_pair (by assumption) ?_)

theorem keeps_portStep (p : Nat) {s : State}
    (hw : Covers 0x10245AD3AB w) (h : Keeps w r s) : Keeps w r (portStep p s) := by
  unfold portStep
  with_reducible repeat' (beta_reduce; first
    | assumption | exact covers_of hw rfl | (intro _) | apply keeps_upIssue | apply keeps_lintRelease
    | apply keeps_lbUpd | split | refine keeps_pair (by assumption) ?_)

theorem keeps_ctxStep (c : Nat) {s : State}
    (hw : Covers 0x102006D3AB w) (h : Keeps w r s) : Keeps w r (ctxStep c s) := by
  unfold ctxStep
  with_reducible repeat' (beta_reduce; first
    | assumption | exact covers_of hw rfl | (intro _) | apply keeps_doIf | apply keeps_pweFlush
    | apply keeps_countWdog | apply keeps_set | split | refine keeps_pair (by assumption) ?_)

theorem keeps_restartsUp {s : State}
    (hw : Covers 0x2008 w) (h : Keeps w r s) : Keeps w r (restartsUp s) := by
  unfold restartsUp
  with_reducible repeat' (beta_reduce; first
    | assumption | exact covers_of hw rfl | (intro _)
    | (extract_lets +onlyGivenNames x; first
      | (refine keeps_cut (w := w) (r := r) (s := x) ?_ ?_; (on_goal 2 => (intro hx; clear_value x)); unfold x; clear x)
      | (refine keeps_cut (w := w) (r := r) (s := x.1) ?_ ?_; (on_goal 2 => (intro hx; clear_value x)); unfold x; clear x)
      | clear_value x)
    | apply keeps_doIf | apply keeps_set | apply keeps_fltUpd | split | refine keeps_pair (by assumption) ?_)

theorem keeps_timesUp {s : State}
    (hw : Covers 0x20022008 w) (h : Keeps w r s) : Keeps w r (timesUp s) := by
  unfold timesUp
  with_reducible repeat' (beta_reduce; first
    | assumption | exact covers_of hw rfl | (intro _) | apply keeps_pwrUpd | apply keeps_set | apply keeps_restartsUp
    | apply keeps_hlUpd | split | refine keeps_pair (by assumption) ?_)

theorem keeps_newStroke (d : Due) {s : State}
    (hw : Covers 0x1F7FFFFFFF w) (h : Keeps w r s) : Keeps w r (newStroke d s) := by
  unfold newStroke
  with_reducible repeat' (beta_reduce; first
    | assumption | exact covers_of hw rfl | (intro _)
    | (extract_lets +onlyGivenNames x; first
      | (refine keeps_cut (w := w) (r := r) (s := x) ?_ ?_; (on_goal 2 => (intro hx; clear_value x)); unfold x; clear x)
      | (refine keeps_cut (w := w) (r := r) (s := x.1) ?_ ?_; (on_goal 2 => (intro hx; clear_value x)); unfold x; clear x)
      | clear_value x)
    | apply keeps_modeBoundary | apply keeps_alignStep | apply keeps_doAll | apply keeps_linkUpd
    | apply keeps_peerServe | apply keeps_portStep | apply keeps_smbServe | apply keeps_rxServe | apply keeps_slots
    | apply keeps_resyncStep | apply keeps_resendPme | apply keeps_doIf | apply keeps_eraseStep | apply keeps_timesUp
    | apply keeps_ctxStep | apply keeps_countTimers | apply keeps_d0Return | apply keeps_slip | apply keeps_applyDue
    | apply keeps_failovers | apply keeps_linksStep | apply keeps_applyAllDeferred | apply keeps_joinsStep
    | apply keeps_fwOrderGo | apply keeps_commitWakes | apply keeps_pelUpd | split
    | refine keeps_pair (by assumption) ?_)

theorem keeps_countRelease {s : State}
    (hw : Covers 0x1000 w) (h : Keeps w r s) : Keeps w r (countRelease s) := by
  unfold countRelease
  with_reducible repeat' (beta_reduce; first
    | assumption | exact covers_of hw rfl | (intro _) | apply keeps_doIf | apply keeps_devUpd | split
    | refine keeps_pair (by assumption) ?_)

theorem keeps_strokeBoundary {s : State}
    (hw : Covers 0x1FFFFFFFFF w) (h : Keeps w r s) : Keeps w r (strokeBoundary s) := by
  unfold strokeBoundary
  with_reducible repeat' (first
    | assumption | exact covers_of hw rfl
    | (extract_lets +onlyGivenNames x; first
      | (refine keeps_cut (w := w) (r := r) (s := x) ?_ ?_; (on_goal 2 => (intro hx; clear_value x)); unfold x; clear x)
      | (refine keeps_cut (w := w) (r := r) (s := x.1) ?_ ?_; (on_goal 2 => (intro hx; clear_value x)); unfold x; clear x)
      | clear_value x)
    | apply keeps_ksCount | apply keeps_countRelease | apply keeps_endOfStroke | apply keeps_restartsUp
    | apply keeps_countStroke | apply keeps_strokeTimers | apply keeps_newStroke | split
    | refine keeps_pair (by assumption) ?_)

theorem keeps_execStrokeBoundary {s : State}
    (hw : Covers 0x1FFFFFFFFF w) (h : Keeps w r s) : Ends w r (execStrokeBoundary s) := by
  unfold execStrokeBoundary
  with_reducible repeat' (first
    | assumption | exact covers_of hw rfl | apply ends_next | apply keeps_done | apply keeps_strokeBoundary | split
    | refine keeps_pair (by assumption) ?_)

end Sys2Proof.Machine
end

