-- ==== Sys2Proof/Laws/State.lean ====
section
/-! SUPPORT. Laws/State.lean: what each update of State writes and what it leaves alone, one lemma per field per update, and
the laws of register fields: a field holds what was written to it, every other field is unchanged. -/
set_option Elab.async false

namespace Sys2Proof.Machine

/-! ## Bit fields -/

theorem withBits_eq (v x : Nat) {hi lo : Nat} (h : lo ≤ hi) :
    withBits v hi lo x = v % 2 ^ lo + (x % 2 ^ (hi + 1 - lo)) * 2 ^ lo + v / 2 ^ (hi + 1) * 2 ^ (hi + 1) := by
  unfold withBits bitsOf
  have hp : 2 ^ (hi + 1) = 2 ^ lo * 2 ^ (hi + 1 - lo) := by rw [← Nat.pow_add]; congr 1; omega
  have h1 := Nat.div_add_mod v (2 ^ lo)
  have h2 := Nat.div_add_mod (v / 2 ^ lo) (2 ^ (hi + 1 - lo))
  rw [Nat.div_div_eq_div_mul, ← hp] at h2
  have h3 : v = v % 2 ^ lo + v / 2 ^ lo % 2 ^ (hi + 1 - lo) * 2 ^ lo + v / 2 ^ (hi + 1) * 2 ^ (hi + 1) := by
    calc v = 2 ^ lo * (v / 2 ^ lo) + v % 2 ^ lo := h1.symm
      _ = 2 ^ lo * (2 ^ (hi + 1 - lo) * (v / 2 ^ (hi + 1)) + v / 2 ^ lo % 2 ^ (hi + 1 - lo)) + v % 2 ^ lo := by rw [h2]
      _ = _ := by rw [hp]; ring
  generalize v / 2 ^ lo % 2 ^ (hi + 1 - lo) * 2 ^ lo = a at *
  omega

theorem withBits_mod (v x : Nat) {hi lo : Nat} (h : lo ≤ hi) : withBits v hi lo x % 2 ^ lo = v % 2 ^ lo := by
  rw [withBits_eq v x h]
  have hp : 2 ^ (hi + 1) = 2 ^ lo * 2 ^ (hi + 1 - lo) := by rw [← Nat.pow_add]; congr 1; omega
  have : v / 2 ^ (hi + 1) * 2 ^ (hi + 1) = 2 ^ lo * (2 ^ (hi + 1 - lo) * (v / 2 ^ (hi + 1))) := by
    generalize v / 2 ^ (hi + 1) = q; rw [hp]; ring
  rw [this, Nat.add_mul_mod_self_left, Nat.add_mul_mod_self_right, Nat.mod_mod]

theorem withBits_low_lt (v x : Nat) {hi lo : Nat} (h : lo ≤ hi) :
    v % 2 ^ lo + (x % 2 ^ (hi + 1 - lo)) * 2 ^ lo < 2 ^ (hi + 1) := by
  have hp : 2 ^ (hi + 1) = 2 ^ (hi + 1 - lo) * 2 ^ lo := by rw [← Nat.pow_add]; congr 1; omega
  have h1 : v % 2 ^ lo < 2 ^ lo := Nat.mod_lt _ (Nat.two_pow_pos _)
  have h2 : x % 2 ^ (hi + 1 - lo) + 1 ≤ 2 ^ (hi + 1 - lo) := Nat.mod_lt _ (Nat.two_pow_pos _)
  have h3 := Nat.mul_le_mul_right (2 ^ lo) h2
  rw [Nat.add_mul] at h3
  omega

theorem withBits_div (v x : Nat) {hi lo : Nat} (h : lo ≤ hi) : withBits v hi lo x / 2 ^ (hi + 1) = v / 2 ^ (hi + 1) := by
  rw [withBits_eq v x h, Nat.add_mul_div_right _ _ (Nat.two_pow_pos _), Nat.div_eq_of_lt (withBits_low_lt v x h), Nat.zero_add]

theorem withBits_lt {v x hi lo : Nat} (h : lo ≤ hi) (h' : hi < 32) (hv : v < 2 ^ 32) : withBits v hi lo x < 2 ^ 32 := by
  have hd := withBits_div v x h
  have h1 := Nat.div_add_mod (withBits v hi lo x) (2 ^ (hi + 1))
  have h2 := Nat.mod_lt (withBits v hi lo x) (Nat.two_pow_pos (hi + 1))
  have hp : 2 ^ 32 = 2 ^ (hi + 1) * 2 ^ (31 - hi) := by rw [← Nat.pow_add]; congr 1; omega
  have h3 : v / 2 ^ (hi + 1) < 2 ^ (31 - hi) := Nat.div_lt_of_lt_mul (by rw [← hp]; exact hv)
  have h4 := Nat.mul_le_mul_left (2 ^ (hi + 1)) h3
  rw [hd] at h1
  rw [Nat.succ_eq_add_one, Nat.mul_add] at h4
  omega

theorem bitsOf_withBits_same (v x : Nat) {hi lo : Nat} (h : lo ≤ hi) :
    bitsOf (withBits v hi lo x) hi lo = x % 2 ^ (hi + 1 - lo) := by
  have hp : 2 ^ (hi + 1) = 2 ^ (hi + 1 - lo) * 2 ^ lo := by rw [← Nat.pow_add]; congr 1; omega
  have he : withBits v hi lo x = v % 2 ^ lo + (x % 2 ^ (hi + 1 - lo) + v / 2 ^ (hi + 1) * 2 ^ (hi + 1 - lo)) * 2 ^ lo := by
    rw [withBits_eq v x h]; generalize v / 2 ^ (hi + 1) = q; rw [hp]; ring
  unfold bitsOf
  rw [he, Nat.add_mul_div_right _ _ (Nat.two_pow_pos _), Nat.div_eq_of_lt (Nat.mod_lt _ (Nat.two_pow_pos _)), Nat.zero_add,
    Nat.add_mul_mod_self_right, Nat.mod_mod]

theorem bitsOf_withBits_below (v x : Nat) {hi lo hi' lo' : Nat} (h : lo ≤ hi) (hb : hi' < lo) (h' : lo' ≤ hi') :
    bitsOf (withBits v hi lo x) hi' lo' = bitsOf v hi' lo' := by
  have key : ∀ u : Nat, bitsOf u hi' lo' = bitsOf (u % 2 ^ lo) hi' lo' := by
    intro u
    unfold bitsOf
    have e1 : 2 ^ lo = 2 ^ lo' * 2 ^ (lo - lo') := by rw [← Nat.pow_add]; congr 1; omega
    rw [e1, Nat.mod_mul_right_div_self]
    have e2 : 2 ^ (lo - lo') = 2 ^ (hi' + 1 - lo') * 2 ^ (lo - hi' - 1) := by rw [← Nat.pow_add]; congr 1; omega
    rw [e2, Nat.mod_mul_right_mod]
  rw [key, withBits_mod v x h, ← key]

theorem bitsOf_withBits_above (v x : Nat) {hi lo hi' lo' : Nat} (h : lo ≤ hi) (hb : hi < lo') :
    bitsOf (withBits v hi lo x) hi' lo' = bitsOf v hi' lo' := by
  have key : ∀ u : Nat, u / 2 ^ lo' = u / 2 ^ (hi + 1) / 2 ^ (lo' - hi - 1) := by
    intro u; rw [Nat.div_div_eq_div_mul, ← Nat.pow_add]; congr 2; omega
  unfold bitsOf
  rw [key, withBits_div v x h, ← key]

/-! ## Registers -/

theorem tabGet_setWord (s : State) (a b : Nat) (v : Word) : (s.setWord a v).word b = if b = a then v else s.word b := by
  unfold State.setWord State.word
  split
  · subst b; exact tabGet_tabSet_same resetOf s.regs a v
  · exact tabGet_tabSet_ne resetOf s.regs v ‹_›

@[simp] theorem word_setWord_same (s : State) (a : Nat) (v : Word) : (s.setWord a v).word a = v := by simp [tabGet_setWord]

@[simp] theorem word_setWord_ne (s : State) {a b : Nat} (v : Word) (h : b ≠ a) : (s.setWord a v).word b = s.word b := by
  simp [tabGet_setWord, h]

@[simp] theorem word_set_ne (s : State) (f : Field) {b : Nat} (v : Nat) (h : b ≠ f.addr) : (s.set f v).word b = s.word b := by
  unfold State.set; simp [h]

/-- The bits of a field lie in a 32-bit register. -/
abbrev Field.Fits (f : Field) : Prop := f.lo ≤ f.hi ∧ f.hi < 32

/-- A field holds what was written to it, truncated to its width. -/
@[simp] theorem get_set_same (s : State) (f : Field) (v : Nat) (h : f.lo ≤ f.hi ∧ f.hi < 32) :
    (s.set f v).get f = v % 2 ^ (f.hi + 1 - f.lo) := by
  unfold State.get State.set
  rw [word_setWord_same, BitVec.toNat_ofNat, Nat.mod_eq_of_lt (withBits_lt h.1 h.2 (BitVec.isLt _)), bitsOf_withBits_same _ _ h.1]

/-- Two fields share no bit. -/
abbrev Field.Apart (f g : Field) : Prop := (f.lo ≤ f.hi ∧ f.hi < 32 ∧ g.lo ≤ g.hi) ∧ (g.addr ≠ f.addr ∨ g.hi < f.lo ∨ f.hi < g.lo)

/-- Writing a field leaves every other one alone. -/
@[simp] theorem get_set_apart (s : State) (f g : Field) (v : Nat) (h : f.Apart g) : (s.set f v).get g = s.get g := by
  obtain ⟨⟨h1, h2, h3⟩, h4⟩ := h
  by_cases ha : g.addr = f.addr
  · unfold State.get State.set
    rw [ha, word_setWord_same, BitVec.toNat_ofNat, Nat.mod_eq_of_lt (withBits_lt h1 h2 (BitVec.isLt _))]
    rcases h4 with h4 | h4 | h4
    · exact absurd ha h4
    · exact bitsOf_withBits_below _ _ h1 h4 h3
    · exact bitsOf_withBits_above _ _ h1 h4
  · unfold State.get; rw [word_set_ne _ _ _ ha]


/-! ## One lemma per field per update -/

section setWordLaws

variable (s : State) (a : Nat) (v : Word)

@[simp] theorem setWord_pending : (s.setWord a v).pending = s.pending := rfl
@[simp] theorem setWord_out : (s.setWord a v).out = s.out := rfl
@[simp] theorem setWord_draws : (s.setWord a v).draws = s.draws := rfl
@[simp] theorem setWord_now : (s.setWord a v).now = s.now := rfl
@[simp] theorem setWord_regs : (s.setWord a v).regs = tabSet resetOf s.regs a v := rfl
@[simp] theorem setWord_banks : (s.setWord a v).banks = s.banks := rfl
@[simp] theorem setWord_fns : (s.setWord a v).fns = s.fns := rfl
@[simp] theorem setWord_msix : (s.setWord a v).msix = s.msix := rfl
@[simp] theorem setWord_pba : (s.setWord a v).pba = s.pba := rfl
@[simp] theorem setWord_held : (s.setWord a v).held = s.held := rfl
@[simp] theorem setWord_msixDue : (s.setWord a v).msixDue = s.msixDue := rfl
@[simp] theorem setWord_irqStacks : (s.setWord a v).irqStacks = s.irqStacks := rfl
@[simp] theorem setWord_holdLeft : (s.setWord a v).holdLeft = s.holdLeft := rfl
@[simp] theorem setWord_dev : (s.setWord a v).dev = s.dev := rfl
@[simp] theorem setWord_flt : (s.setWord a v).flt = s.flt := rfl
@[simp] theorem setWord_pfs : (s.setWord a v).pfs = s.pfs := rfl
@[simp] theorem setWord_ul : (s.setWord a v).ul = s.ul := rfl
@[simp] theorem setWord_lines : (s.setWord a v).lines = s.lines := rfl
@[simp] theorem setWord_deferred : (s.setWord a v).deferred = s.deferred := rfl
@[simp] theorem setWord_hl : (s.setWord a v).hl = s.hl := rfl
@[simp] theorem setWord_ctxs : (s.setWord a v).ctxs = s.ctxs := rfl
@[simp] theorem setWord_qps : (s.setWord a v).qps = s.qps := rfl
@[simp] theorem setWord_lbs : (s.setWord a v).lbs = s.lbs := rfl
@[simp] theorem setWord_hreads : (s.setWord a v).hreads = s.hreads := rfl
@[simp] theorem setWord_cad : (s.setWord a v).cad = s.cad := rfl
@[simp] theorem setWord_cmds : (s.setWord a v).cmds = s.cmds := rfl
@[simp] theorem setWord_inForce : (s.setWord a v).inForce = s.inForce := rfl
@[simp] theorem setWord_ds : (s.setWord a v).ds = s.ds := rfl
@[simp] theorem setWord_ritems : (s.setWord a v).ritems = s.ritems := rfl
@[simp] theorem setWord_med : (s.setWord a v).med = s.med := rfl
@[simp] theorem setWord_mbx : (s.setWord a v).mbx = s.mbx := rfl
@[simp] theorem setWord_pwr : (s.setWord a v).pwr = s.pwr := rfl
@[simp] theorem setWord_pel : (s.setWord a v).pel = s.pel := rfl
@[simp] theorem setWord_tap : (s.setWord a v).tap = s.tap := rfl
@[simp] theorem setWord_fuses : (s.setWord a v).fuses = s.fuses := rfl
@[simp] theorem setWord_fw : (s.setWord a v).fw = s.fw := rfl
@[simp] theorem setWord_link (j : Nat) : (s.setWord a v).link j = s.link j := rfl
@[simp] theorem setWord_fn (j : Nat) : (s.setWord a v).fn j = s.fn j := rfl
@[simp] theorem setWord_lb (j : Nat) : (s.setWord a v).lb j = s.lb j := rfl
@[simp] theorem setWord_ctx (j : Nat) : (s.setWord a v).ctx j = s.ctx j := rfl
@[simp] theorem setWord_qp (j i : Nat) : (s.setWord a v).qp j i = s.qp j i := rfl

end setWordLaws

section setLaws

variable (s : State) (a : Field) (v : Nat)

@[simp] theorem set_pending : (s.set a v).pending = s.pending := rfl
@[simp] theorem set_out : (s.set a v).out = s.out := rfl
@[simp] theorem set_draws : (s.set a v).draws = s.draws := rfl
@[simp] theorem set_now : (s.set a v).now = s.now := rfl
@[simp] theorem set_banks : (s.set a v).banks = s.banks := rfl
@[simp] theorem set_fns : (s.set a v).fns = s.fns := rfl
@[simp] theorem set_msix : (s.set a v).msix = s.msix := rfl
@[simp] theorem set_pba : (s.set a v).pba = s.pba := rfl
@[simp] theorem set_held : (s.set a v).held = s.held := rfl
@[simp] theorem set_msixDue : (s.set a v).msixDue = s.msixDue := rfl
@[simp] theorem set_irqStacks : (s.set a v).irqStacks = s.irqStacks := rfl
@[simp] theorem set_holdLeft : (s.set a v).holdLeft = s.holdLeft := rfl
@[simp] theorem set_dev : (s.set a v).dev = s.dev := rfl
@[simp] theorem set_flt : (s.set a v).flt = s.flt := rfl
@[simp] theorem set_pfs : (s.set a v).pfs = s.pfs := rfl
@[simp] theorem set_ul : (s.set a v).ul = s.ul := rfl
@[simp] theorem set_lines : (s.set a v).lines = s.lines := rfl
@[simp] theorem set_deferred : (s.set a v).deferred = s.deferred := rfl
@[simp] theorem set_hl : (s.set a v).hl = s.hl := rfl
@[simp] theorem set_ctxs : (s.set a v).ctxs = s.ctxs := rfl
@[simp] theorem set_qps : (s.set a v).qps = s.qps := rfl
@[simp] theorem set_lbs : (s.set a v).lbs = s.lbs := rfl
@[simp] theorem set_hreads : (s.set a v).hreads = s.hreads := rfl
@[simp] theorem set_cad : (s.set a v).cad = s.cad := rfl
@[simp] theorem set_cmds : (s.set a v).cmds = s.cmds := rfl
@[simp] theorem set_inForce : (s.set a v).inForce = s.inForce := rfl
@[simp] theorem set_ds : (s.set a v).ds = s.ds := rfl
@[simp] theorem set_ritems : (s.set a v).ritems = s.ritems := rfl
@[simp] theorem set_med : (s.set a v).med = s.med := rfl
@[simp] theorem set_mbx : (s.set a v).mbx = s.mbx := rfl
@[simp] theorem set_pwr : (s.set a v).pwr = s.pwr := rfl
@[simp] theorem set_pel : (s.set a v).pel = s.pel := rfl
@[simp] theorem set_tap : (s.set a v).tap = s.tap := rfl
@[simp] theorem set_fuses : (s.set a v).fuses = s.fuses := rfl
@[simp] theorem set_fw : (s.set a v).fw = s.fw := rfl
@[simp] theorem set_link (j : Nat) : (s.set a v).link j = s.link j := rfl
@[simp] theorem set_fn (j : Nat) : (s.set a v).fn j = s.fn j := rfl
@[simp] theorem set_lb (j : Nat) : (s.set a v).lb j = s.lb j := rfl
@[simp] theorem set_ctx (j : Nat) : (s.set a v).ctx j = s.ctx j := rfl
@[simp] theorem set_qp (j i : Nat) : (s.set a v).qp j i = s.qp j i := rfl

end setLaws

section incLaws

variable (s : State) (a : Field) (v : Nat)

@[simp] theorem inc_pending : (s.inc a v).pending = s.pending := rfl
@[simp] theorem inc_out : (s.inc a v).out = s.out := rfl
@[simp] theorem inc_draws : (s.inc a v).draws = s.draws := rfl
@[simp] theorem inc_now : (s.inc a v).now = s.now := rfl
@[simp] theorem inc_banks : (s.inc a v).banks = s.banks := rfl
@[simp] theorem inc_fns : (s.inc a v).fns = s.fns := rfl
@[simp] theorem inc_msix : (s.inc a v).msix = s.msix := rfl
@[simp] theorem inc_pba : (s.inc a v).pba = s.pba := rfl
@[simp] theorem inc_held : (s.inc a v).held = s.held := rfl
@[simp] theorem inc_msixDue : (s.inc a v).msixDue = s.msixDue := rfl
@[simp] theorem inc_irqStacks : (s.inc a v).irqStacks = s.irqStacks := rfl
@[simp] theorem inc_holdLeft : (s.inc a v).holdLeft = s.holdLeft := rfl
@[simp] theorem inc_dev : (s.inc a v).dev = s.dev := rfl
@[simp] theorem inc_flt : (s.inc a v).flt = s.flt := rfl
@[simp] theorem inc_pfs : (s.inc a v).pfs = s.pfs := rfl
@[simp] theorem inc_ul : (s.inc a v).ul = s.ul := rfl
@[simp] theorem inc_lines : (s.inc a v).lines = s.lines := rfl
@[simp] theorem inc_deferred : (s.inc a v).deferred = s.deferred := rfl
@[simp] theorem inc_hl : (s.inc a v).hl = s.hl := rfl
@[simp] theorem inc_ctxs : (s.inc a v).ctxs = s.ctxs := rfl
@[simp] theorem inc_qps : (s.inc a v).qps = s.qps := rfl
@[simp] theorem inc_lbs : (s.inc a v).lbs = s.lbs := rfl
@[simp] theorem inc_hreads : (s.inc a v).hreads = s.hreads := rfl
@[simp] theorem inc_cad : (s.inc a v).cad = s.cad := rfl
@[simp] theorem inc_cmds : (s.inc a v).cmds = s.cmds := rfl
@[simp] theorem inc_inForce : (s.inc a v).inForce = s.inForce := rfl
@[simp] theorem inc_ds : (s.inc a v).ds = s.ds := rfl
@[simp] theorem inc_ritems : (s.inc a v).ritems = s.ritems := rfl
@[simp] theorem inc_med : (s.inc a v).med = s.med := rfl
@[simp] theorem inc_mbx : (s.inc a v).mbx = s.mbx := rfl
@[simp] theorem inc_pwr : (s.inc a v).pwr = s.pwr := rfl
@[simp] theorem inc_pel : (s.inc a v).pel = s.pel := rfl
@[simp] theorem inc_tap : (s.inc a v).tap = s.tap := rfl
@[simp] theorem inc_fuses : (s.inc a v).fuses = s.fuses := rfl
@[simp] theorem inc_fw : (s.inc a v).fw = s.fw := rfl
@[simp] theorem inc_link (j : Nat) : (s.inc a v).link j = s.link j := rfl
@[simp] theorem inc_fn (j : Nat) : (s.inc a v).fn j = s.fn j := rfl
@[simp] theorem inc_lb (j : Nat) : (s.inc a v).lb j = s.lb j := rfl
@[simp] theorem inc_ctx (j : Nat) : (s.inc a v).ctx j = s.ctx j := rfl
@[simp] theorem inc_qp (j i : Nat) : (s.inc a v).qp j i = s.qp j i := rfl

end incLaws

section decLaws

variable (s : State) (a : Field) (v : Nat)

@[simp] theorem dec_pending : (s.dec a v).pending = s.pending := rfl
@[simp] theorem dec_out : (s.dec a v).out = s.out := rfl
@[simp] theorem dec_draws : (s.dec a v).draws = s.draws := rfl
@[simp] theorem dec_now : (s.dec a v).now = s.now := rfl
@[simp] theorem dec_banks : (s.dec a v).banks = s.banks := rfl
@[simp] theorem dec_fns : (s.dec a v).fns = s.fns := rfl
@[simp] theorem dec_msix : (s.dec a v).msix = s.msix := rfl
@[simp] theorem dec_pba : (s.dec a v).pba = s.pba := rfl
@[simp] theorem dec_held : (s.dec a v).held = s.held := rfl
@[simp] theorem dec_msixDue : (s.dec a v).msixDue = s.msixDue := rfl
@[simp] theorem dec_irqStacks : (s.dec a v).irqStacks = s.irqStacks := rfl
@[simp] theorem dec_holdLeft : (s.dec a v).holdLeft = s.holdLeft := rfl
@[simp] theorem dec_dev : (s.dec a v).dev = s.dev := rfl
@[simp] theorem dec_flt : (s.dec a v).flt = s.flt := rfl
@[simp] theorem dec_pfs : (s.dec a v).pfs = s.pfs := rfl
@[simp] theorem dec_ul : (s.dec a v).ul = s.ul := rfl
@[simp] theorem dec_lines : (s.dec a v).lines = s.lines := rfl
@[simp] theorem dec_deferred : (s.dec a v).deferred = s.deferred := rfl
@[simp] theorem dec_hl : (s.dec a v).hl = s.hl := rfl
@[simp] theorem dec_ctxs : (s.dec a v).ctxs = s.ctxs := rfl
@[simp] theorem dec_qps : (s.dec a v).qps = s.qps := rfl
@[simp] theorem dec_lbs : (s.dec a v).lbs = s.lbs := rfl
@[simp] theorem dec_hreads : (s.dec a v).hreads = s.hreads := rfl
@[simp] theorem dec_cad : (s.dec a v).cad = s.cad := rfl
@[simp] theorem dec_cmds : (s.dec a v).cmds = s.cmds := rfl
@[simp] theorem dec_inForce : (s.dec a v).inForce = s.inForce := rfl
@[simp] theorem dec_ds : (s.dec a v).ds = s.ds := rfl
@[simp] theorem dec_ritems : (s.dec a v).ritems = s.ritems := rfl
@[simp] theorem dec_med : (s.dec a v).med = s.med := rfl
@[simp] theorem dec_mbx : (s.dec a v).mbx = s.mbx := rfl
@[simp] theorem dec_pwr : (s.dec a v).pwr = s.pwr := rfl
@[simp] theorem dec_pel : (s.dec a v).pel = s.pel := rfl
@[simp] theorem dec_tap : (s.dec a v).tap = s.tap := rfl
@[simp] theorem dec_fuses : (s.dec a v).fuses = s.fuses := rfl
@[simp] theorem dec_fw : (s.dec a v).fw = s.fw := rfl
@[simp] theorem dec_link (j : Nat) : (s.dec a v).link j = s.link j := rfl
@[simp] theorem dec_fn (j : Nat) : (s.dec a v).fn j = s.fn j := rfl
@[simp] theorem dec_lb (j : Nat) : (s.dec a v).lb j = s.lb j := rfl
@[simp] theorem dec_ctx (j : Nat) : (s.dec a v).ctx j = s.ctx j := rfl
@[simp] theorem dec_qp (j i : Nat) : (s.dec a v).qp j i = s.qp j i := rfl

end decLaws

section emitLaws

variable (s : State) (o : Out)

@[simp] theorem emit_pending : (emit o s).pending = s.pending := rfl
@[simp] theorem emit_out : (emit o s).out = o :: s.out := rfl
@[simp] theorem emit_draws : (emit o s).draws = s.draws := rfl
@[simp] theorem emit_now : (emit o s).now = s.now := rfl
@[simp] theorem emit_regs : (emit o s).regs = s.regs := rfl
@[simp] theorem emit_banks : (emit o s).banks = s.banks := rfl
@[simp] theorem emit_fns : (emit o s).fns = s.fns := rfl
@[simp] theorem emit_msix : (emit o s).msix = s.msix := rfl
@[simp] theorem emit_pba : (emit o s).pba = s.pba := rfl
@[simp] theorem emit_held : (emit o s).held = s.held := rfl
@[simp] theorem emit_msixDue : (emit o s).msixDue = s.msixDue := rfl
@[simp] theorem emit_irqStacks : (emit o s).irqStacks = s.irqStacks := rfl
@[simp] theorem emit_holdLeft : (emit o s).holdLeft = s.holdLeft := rfl
@[simp] theorem emit_dev : (emit o s).dev = s.dev := rfl
@[simp] theorem emit_flt : (emit o s).flt = s.flt := rfl
@[simp] theorem emit_pfs : (emit o s).pfs = s.pfs := rfl
@[simp] theorem emit_ul : (emit o s).ul = s.ul := rfl
@[simp] theorem emit_lines : (emit o s).lines = s.lines := rfl
@[simp] theorem emit_deferred : (emit o s).deferred = s.deferred := rfl
@[simp] theorem emit_hl : (emit o s).hl = s.hl := rfl
@[simp] theorem emit_ctxs : (emit o s).ctxs = s.ctxs := rfl
@[simp] theorem emit_qps : (emit o s).qps = s.qps := rfl
@[simp] theorem emit_lbs : (emit o s).lbs = s.lbs := rfl
@[simp] theorem emit_hreads : (emit o s).hreads = s.hreads := rfl
@[simp] theorem emit_cad : (emit o s).cad = s.cad := rfl
@[simp] theorem emit_cmds : (emit o s).cmds = s.cmds := rfl
@[simp] theorem emit_inForce : (emit o s).inForce = s.inForce := rfl
@[simp] theorem emit_ds : (emit o s).ds = s.ds := rfl
@[simp] theorem emit_ritems : (emit o s).ritems = s.ritems := rfl
@[simp] theorem emit_med : (emit o s).med = s.med := rfl
@[simp] theorem emit_mbx : (emit o s).mbx = s.mbx := rfl
@[simp] theorem emit_pwr : (emit o s).pwr = s.pwr := rfl
@[simp] theorem emit_pel : (emit o s).pel = s.pel := rfl
@[simp] theorem emit_tap : (emit o s).tap = s.tap := rfl
@[simp] theorem emit_fuses : (emit o s).fuses = s.fuses := rfl
@[simp] theorem emit_fw : (emit o s).fw = s.fw := rfl
@[simp] theorem emit_word (b : Nat) : (emit o s).word b = s.word b := rfl
@[simp] theorem emit_get (g : Field) : (emit o s).get g = s.get g := rfl
@[simp] theorem emit_isSet (g : Field) : (emit o s).isSet g = s.isSet g := rfl
@[simp] theorem emit_mode : (emit o s).mode = s.mode := rfl
@[simp] theorem emit_link (j : Nat) : (emit o s).link j = s.link j := rfl
@[simp] theorem emit_fn (j : Nat) : (emit o s).fn j = s.fn j := rfl
@[simp] theorem emit_lb (j : Nat) : (emit o s).lb j = s.lb j := rfl
@[simp] theorem emit_ctx (j : Nat) : (emit o s).ctx j = s.ctx j := rfl
@[simp] theorem emit_qp (j i : Nat) : (emit o s).qp j i = s.qp j i := rfl

end emitLaws

section drewOneLaws

variable (s : State)

@[simp] theorem drewOne_pending : (s.drewOne).pending = s.pending := rfl
@[simp] theorem drewOne_out : (s.drewOne).out = s.out := rfl
@[simp] theorem drewOne_draws : (s.drewOne).draws = s.draws + 1 := rfl
@[simp] theorem drewOne_now : (s.drewOne).now = s.now := rfl
@[simp] theorem drewOne_regs : (s.drewOne).regs = s.regs := rfl
@[simp] theorem drewOne_banks : (s.drewOne).banks = s.banks := rfl
@[simp] theorem drewOne_fns : (s.drewOne).fns = s.fns := rfl
@[simp] theorem drewOne_msix : (s.drewOne).msix = s.msix := rfl
@[simp] theorem drewOne_pba : (s.drewOne).pba = s.pba := rfl
@[simp] theorem drewOne_held : (s.drewOne).held = s.held := rfl
@[simp] theorem drewOne_msixDue : (s.drewOne).msixDue = s.msixDue := rfl
@[simp] theorem drewOne_irqStacks : (s.drewOne).irqStacks = s.irqStacks := rfl
@[simp] theorem drewOne_holdLeft : (s.drewOne).holdLeft = s.holdLeft := rfl
@[simp] theorem drewOne_dev : (s.drewOne).dev = s.dev := rfl
@[simp] theorem drewOne_flt : (s.drewOne).flt = s.flt := rfl
@[simp] theorem drewOne_pfs : (s.drewOne).pfs = s.pfs := rfl
@[simp] theorem drewOne_ul : (s.drewOne).ul = s.ul := rfl
@[simp] theorem drewOne_lines : (s.drewOne).lines = s.lines := rfl
@[simp] theorem drewOne_deferred : (s.drewOne).deferred = s.deferred := rfl
@[simp] theorem drewOne_hl : (s.drewOne).hl = s.hl := rfl
@[simp] theorem drewOne_ctxs : (s.drewOne).ctxs = s.ctxs := rfl
@[simp] theorem drewOne_qps : (s.drewOne).qps = s.qps := rfl
@[simp] theorem drewOne_lbs : (s.drewOne).lbs = s.lbs := rfl
@[simp] theorem drewOne_hreads : (s.drewOne).hreads = s.hreads := rfl
@[simp] theorem drewOne_cad : (s.drewOne).cad = s.cad := rfl
@[simp] theorem drewOne_cmds : (s.drewOne).cmds = s.cmds := rfl
@[simp] theorem drewOne_inForce : (s.drewOne).inForce = s.inForce := rfl
@[simp] theorem drewOne_ds : (s.drewOne).ds = s.ds := rfl
@[simp] theorem drewOne_ritems : (s.drewOne).ritems = s.ritems := rfl
@[simp] theorem drewOne_med : (s.drewOne).med = s.med := rfl
@[simp] theorem drewOne_mbx : (s.drewOne).mbx = s.mbx := rfl
@[simp] theorem drewOne_pwr : (s.drewOne).pwr = s.pwr := rfl
@[simp] theorem drewOne_pel : (s.drewOne).pel = s.pel := rfl
@[simp] theorem drewOne_tap : (s.drewOne).tap = s.tap := rfl
@[simp] theorem drewOne_fuses : (s.drewOne).fuses = s.fuses := rfl
@[simp] theorem drewOne_fw : (s.drewOne).fw = s.fw := rfl
@[simp] theorem drewOne_word (b : Nat) : (s.drewOne).word b = s.word b := rfl
@[simp] theorem drewOne_get (g : Field) : (s.drewOne).get g = s.get g := rfl
@[simp] theorem drewOne_isSet (g : Field) : (s.drewOne).isSet g = s.isSet g := rfl
@[simp] theorem drewOne_mode : (s.drewOne).mode = s.mode := rfl
@[simp] theorem drewOne_link (j : Nat) : (s.drewOne).link j = s.link j := rfl
@[simp] theorem drewOne_fn (j : Nat) : (s.drewOne).fn j = s.fn j := rfl
@[simp] theorem drewOne_lb (j : Nat) : (s.drewOne).lb j = s.lb j := rfl
@[simp] theorem drewOne_ctx (j : Nat) : (s.drewOne).ctx j = s.ctx j := rfl
@[simp] theorem drewOne_qp (j i : Nat) : (s.drewOne).qp j i = s.qp j i := rfl

end drewOneLaws

section devUpdLaws

variable (s : State) (f : Dev → Dev)

@[simp] theorem devUpd_pending : (s.devUpd f).pending = s.pending := rfl
@[simp] theorem devUpd_out : (s.devUpd f).out = s.out := rfl
@[simp] theorem devUpd_draws : (s.devUpd f).draws = s.draws := rfl
@[simp] theorem devUpd_now : (s.devUpd f).now = s.now := rfl
@[simp] theorem devUpd_regs : (s.devUpd f).regs = s.regs := rfl
@[simp] theorem devUpd_banks : (s.devUpd f).banks = s.banks := rfl
@[simp] theorem devUpd_fns : (s.devUpd f).fns = s.fns := rfl
@[simp] theorem devUpd_msix : (s.devUpd f).msix = s.msix := rfl
@[simp] theorem devUpd_pba : (s.devUpd f).pba = s.pba := rfl
@[simp] theorem devUpd_held : (s.devUpd f).held = s.held := rfl
@[simp] theorem devUpd_msixDue : (s.devUpd f).msixDue = s.msixDue := rfl
@[simp] theorem devUpd_irqStacks : (s.devUpd f).irqStacks = s.irqStacks := rfl
@[simp] theorem devUpd_holdLeft : (s.devUpd f).holdLeft = s.holdLeft := rfl
@[simp] theorem devUpd_dev : (s.devUpd f).dev = f s.dev := rfl
@[simp] theorem devUpd_flt : (s.devUpd f).flt = s.flt := rfl
@[simp] theorem devUpd_pfs : (s.devUpd f).pfs = s.pfs := rfl
@[simp] theorem devUpd_ul : (s.devUpd f).ul = s.ul := rfl
@[simp] theorem devUpd_lines : (s.devUpd f).lines = s.lines := rfl
@[simp] theorem devUpd_deferred : (s.devUpd f).deferred = s.deferred := rfl
@[simp] theorem devUpd_hl : (s.devUpd f).hl = s.hl := rfl
@[simp] theorem devUpd_ctxs : (s.devUpd f).ctxs = s.ctxs := rfl
@[simp] theorem devUpd_qps : (s.devUpd f).qps = s.qps := rfl
@[simp] theorem devUpd_lbs : (s.devUpd f).lbs = s.lbs := rfl
@[simp] theorem devUpd_hreads : (s.devUpd f).hreads = s.hreads := rfl
@[simp] theorem devUpd_cad : (s.devUpd f).cad = s.cad := rfl
@[simp] theorem devUpd_cmds : (s.devUpd f).cmds = s.cmds := rfl
@[simp] theorem devUpd_inForce : (s.devUpd f).inForce = s.inForce := rfl
@[simp] theorem devUpd_ds : (s.devUpd f).ds = s.ds := rfl
@[simp] theorem devUpd_ritems : (s.devUpd f).ritems = s.ritems := rfl
@[simp] theorem devUpd_med : (s.devUpd f).med = s.med := rfl
@[simp] theorem devUpd_mbx : (s.devUpd f).mbx = s.mbx := rfl
@[simp] theorem devUpd_pwr : (s.devUpd f).pwr = s.pwr := rfl
@[simp] theorem devUpd_pel : (s.devUpd f).pel = s.pel := rfl
@[simp] theorem devUpd_tap : (s.devUpd f).tap = s.tap := rfl
@[simp] theorem devUpd_fuses : (s.devUpd f).fuses = s.fuses := rfl
@[simp] theorem devUpd_fw : (s.devUpd f).fw = s.fw := rfl
@[simp] theorem devUpd_word (b : Nat) : (s.devUpd f).word b = s.word b := rfl
@[simp] theorem devUpd_get (g : Field) : (s.devUpd f).get g = s.get g := rfl
@[simp] theorem devUpd_isSet (g : Field) : (s.devUpd f).isSet g = s.isSet g := rfl
@[simp] theorem devUpd_mode : (s.devUpd f).mode = s.mode := rfl
@[simp] theorem devUpd_link (j : Nat) : (s.devUpd f).link j = s.link j := rfl
@[simp] theorem devUpd_fn (j : Nat) : (s.devUpd f).fn j = s.fn j := rfl
@[simp] theorem devUpd_lb (j : Nat) : (s.devUpd f).lb j = s.lb j := rfl
@[simp] theorem devUpd_ctx (j : Nat) : (s.devUpd f).ctx j = s.ctx j := rfl
@[simp] theorem devUpd_qp (j i : Nat) : (s.devUpd f).qp j i = s.qp j i := rfl

end devUpdLaws

section fltUpdLaws

variable (s : State) (f : Flt → Flt)

@[simp] theorem fltUpd_pending : (s.fltUpd f).pending = s.pending := rfl
@[simp] theorem fltUpd_out : (s.fltUpd f).out = s.out := rfl
@[simp] theorem fltUpd_draws : (s.fltUpd f).draws = s.draws := rfl
@[simp] theorem fltUpd_now : (s.fltUpd f).now = s.now := rfl
@[simp] theorem fltUpd_regs : (s.fltUpd f).regs = s.regs := rfl
@[simp] theorem fltUpd_banks : (s.fltUpd f).banks = s.banks := rfl
@[simp] theorem fltUpd_fns : (s.fltUpd f).fns = s.fns := rfl
@[simp] theorem fltUpd_msix : (s.fltUpd f).msix = s.msix := rfl
@[simp] theorem fltUpd_pba : (s.fltUpd f).pba = s.pba := rfl
@[simp] theorem fltUpd_held : (s.fltUpd f).held = s.held := rfl
@[simp] theorem fltUpd_msixDue : (s.fltUpd f).msixDue = s.msixDue := rfl
@[simp] theorem fltUpd_irqStacks : (s.fltUpd f).irqStacks = s.irqStacks := rfl
@[simp] theorem fltUpd_holdLeft : (s.fltUpd f).holdLeft = s.holdLeft := rfl
@[simp] theorem fltUpd_dev : (s.fltUpd f).dev = s.dev := rfl
@[simp] theorem fltUpd_flt : (s.fltUpd f).flt = f s.flt := rfl
@[simp] theorem fltUpd_pfs : (s.fltUpd f).pfs = s.pfs := rfl
@[simp] theorem fltUpd_ul : (s.fltUpd f).ul = s.ul := rfl
@[simp] theorem fltUpd_lines : (s.fltUpd f).lines = s.lines := rfl
@[simp] theorem fltUpd_deferred : (s.fltUpd f).deferred = s.deferred := rfl
@[simp] theorem fltUpd_hl : (s.fltUpd f).hl = s.hl := rfl
@[simp] theorem fltUpd_ctxs : (s.fltUpd f).ctxs = s.ctxs := rfl
@[simp] theorem fltUpd_qps : (s.fltUpd f).qps = s.qps := rfl
@[simp] theorem fltUpd_lbs : (s.fltUpd f).lbs = s.lbs := rfl
@[simp] theorem fltUpd_hreads : (s.fltUpd f).hreads = s.hreads := rfl
@[simp] theorem fltUpd_cad : (s.fltUpd f).cad = s.cad := rfl
@[simp] theorem fltUpd_cmds : (s.fltUpd f).cmds = s.cmds := rfl
@[simp] theorem fltUpd_inForce : (s.fltUpd f).inForce = s.inForce := rfl
@[simp] theorem fltUpd_ds : (s.fltUpd f).ds = s.ds := rfl
@[simp] theorem fltUpd_ritems : (s.fltUpd f).ritems = s.ritems := rfl
@[simp] theorem fltUpd_med : (s.fltUpd f).med = s.med := rfl
@[simp] theorem fltUpd_mbx : (s.fltUpd f).mbx = s.mbx := rfl
@[simp] theorem fltUpd_pwr : (s.fltUpd f).pwr = s.pwr := rfl
@[simp] theorem fltUpd_pel : (s.fltUpd f).pel = s.pel := rfl
@[simp] theorem fltUpd_tap : (s.fltUpd f).tap = s.tap := rfl
@[simp] theorem fltUpd_fuses : (s.fltUpd f).fuses = s.fuses := rfl
@[simp] theorem fltUpd_fw : (s.fltUpd f).fw = s.fw := rfl
@[simp] theorem fltUpd_word (b : Nat) : (s.fltUpd f).word b = s.word b := rfl
@[simp] theorem fltUpd_get (g : Field) : (s.fltUpd f).get g = s.get g := rfl
@[simp] theorem fltUpd_isSet (g : Field) : (s.fltUpd f).isSet g = s.isSet g := rfl
@[simp] theorem fltUpd_mode : (s.fltUpd f).mode = s.mode := rfl
@[simp] theorem fltUpd_link (j : Nat) : (s.fltUpd f).link j = s.link j := rfl
@[simp] theorem fltUpd_fn (j : Nat) : (s.fltUpd f).fn j = s.fn j := rfl
@[simp] theorem fltUpd_lb (j : Nat) : (s.fltUpd f).lb j = s.lb j := rfl
@[simp] theorem fltUpd_ctx (j : Nat) : (s.fltUpd f).ctx j = s.ctx j := rfl
@[simp] theorem fltUpd_qp (j i : Nat) : (s.fltUpd f).qp j i = s.qp j i := rfl

end fltUpdLaws

section fnUpdLaws

variable (s : State) (c : Nat) (f : Fn → Fn)

@[simp] theorem fnUpd_pending : (s.fnUpd c f).pending = s.pending := rfl
@[simp] theorem fnUpd_out : (s.fnUpd c f).out = s.out := rfl
@[simp] theorem fnUpd_draws : (s.fnUpd c f).draws = s.draws := rfl
@[simp] theorem fnUpd_now : (s.fnUpd c f).now = s.now := rfl
@[simp] theorem fnUpd_regs : (s.fnUpd c f).regs = s.regs := rfl
@[simp] theorem fnUpd_banks : (s.fnUpd c f).banks = s.banks := rfl
@[simp] theorem fnUpd_fns : (s.fnUpd c f).fns = tabSet fnReset s.fns c (f (s.fn c)) := rfl
@[simp] theorem fnUpd_msix : (s.fnUpd c f).msix = s.msix := rfl
@[simp] theorem fnUpd_pba : (s.fnUpd c f).pba = s.pba := rfl
@[simp] theorem fnUpd_held : (s.fnUpd c f).held = s.held := rfl
@[simp] theorem fnUpd_msixDue : (s.fnUpd c f).msixDue = s.msixDue := rfl
@[simp] theorem fnUpd_irqStacks : (s.fnUpd c f).irqStacks = s.irqStacks := rfl
@[simp] theorem fnUpd_holdLeft : (s.fnUpd c f).holdLeft = s.holdLeft := rfl
@[simp] theorem fnUpd_dev : (s.fnUpd c f).dev = s.dev := rfl
@[simp] theorem fnUpd_flt : (s.fnUpd c f).flt = s.flt := rfl
@[simp] theorem fnUpd_pfs : (s.fnUpd c f).pfs = s.pfs := rfl
@[simp] theorem fnUpd_ul : (s.fnUpd c f).ul = s.ul := rfl
@[simp] theorem fnUpd_lines : (s.fnUpd c f).lines = s.lines := rfl
@[simp] theorem fnUpd_deferred : (s.fnUpd c f).deferred = s.deferred := rfl
@[simp] theorem fnUpd_hl : (s.fnUpd c f).hl = s.hl := rfl
@[simp] theorem fnUpd_ctxs : (s.fnUpd c f).ctxs = s.ctxs := rfl
@[simp] theorem fnUpd_qps : (s.fnUpd c f).qps = s.qps := rfl
@[simp] theorem fnUpd_lbs : (s.fnUpd c f).lbs = s.lbs := rfl
@[simp] theorem fnUpd_hreads : (s.fnUpd c f).hreads = s.hreads := rfl
@[simp] theorem fnUpd_cad : (s.fnUpd c f).cad = s.cad := rfl
@[simp] theorem fnUpd_cmds : (s.fnUpd c f).cmds = s.cmds := rfl
@[simp] theorem fnUpd_inForce : (s.fnUpd c f).inForce = s.inForce := rfl
@[simp] theorem fnUpd_ds : (s.fnUpd c f).ds = s.ds := rfl
@[simp] theorem fnUpd_ritems : (s.fnUpd c f).ritems = s.ritems := rfl
@[simp] theorem fnUpd_med : (s.fnUpd c f).med = s.med := rfl
@[simp] theorem fnUpd_mbx : (s.fnUpd c f).mbx = s.mbx := rfl
@[simp] theorem fnUpd_pwr : (s.fnUpd c f).pwr = s.pwr := rfl
@[simp] theorem fnUpd_pel : (s.fnUpd c f).pel = s.pel := rfl
@[simp] theorem fnUpd_tap : (s.fnUpd c f).tap = s.tap := rfl
@[simp] theorem fnUpd_fuses : (s.fnUpd c f).fuses = s.fuses := rfl
@[simp] theorem fnUpd_fw : (s.fnUpd c f).fw = s.fw := rfl
@[simp] theorem fnUpd_word (b : Nat) : (s.fnUpd c f).word b = s.word b := rfl
@[simp] theorem fnUpd_get (g : Field) : (s.fnUpd c f).get g = s.get g := rfl
@[simp] theorem fnUpd_isSet (g : Field) : (s.fnUpd c f).isSet g = s.isSet g := rfl
@[simp] theorem fnUpd_mode : (s.fnUpd c f).mode = s.mode := rfl
@[simp] theorem fnUpd_link (j : Nat) : (s.fnUpd c f).link j = s.link j := rfl
@[simp] theorem fnUpd_lb (j : Nat) : (s.fnUpd c f).lb j = s.lb j := rfl
@[simp] theorem fnUpd_ctx (j : Nat) : (s.fnUpd c f).ctx j = s.ctx j := rfl
@[simp] theorem fnUpd_qp (j i : Nat) : (s.fnUpd c f).qp j i = s.qp j i := rfl

end fnUpdLaws

section hlUpdLaws

variable (s : State) (f : Hl → Hl)

@[simp] theorem hlUpd_pending : (s.hlUpd f).pending = s.pending := rfl
@[simp] theorem hlUpd_out : (s.hlUpd f).out = s.out := rfl
@[simp] theorem hlUpd_draws : (s.hlUpd f).draws = s.draws := rfl
@[simp] theorem hlUpd_now : (s.hlUpd f).now = s.now := rfl
@[simp] theorem hlUpd_regs : (s.hlUpd f).regs = s.regs := rfl
@[simp] theorem hlUpd_banks : (s.hlUpd f).banks = s.banks := rfl
@[simp] theorem hlUpd_fns : (s.hlUpd f).fns = s.fns := rfl
@[simp] theorem hlUpd_msix : (s.hlUpd f).msix = s.msix := rfl
@[simp] theorem hlUpd_pba : (s.hlUpd f).pba = s.pba := rfl
@[simp] theorem hlUpd_held : (s.hlUpd f).held = s.held := rfl
@[simp] theorem hlUpd_msixDue : (s.hlUpd f).msixDue = s.msixDue := rfl
@[simp] theorem hlUpd_irqStacks : (s.hlUpd f).irqStacks = s.irqStacks := rfl
@[simp] theorem hlUpd_holdLeft : (s.hlUpd f).holdLeft = s.holdLeft := rfl
@[simp] theorem hlUpd_dev : (s.hlUpd f).dev = s.dev := rfl
@[simp] theorem hlUpd_flt : (s.hlUpd f).flt = s.flt := rfl
@[simp] theorem hlUpd_pfs : (s.hlUpd f).pfs = s.pfs := rfl
@[simp] theorem hlUpd_ul : (s.hlUpd f).ul = s.ul := rfl
@[simp] theorem hlUpd_lines : (s.hlUpd f).lines = s.lines := rfl
@[simp] theorem hlUpd_deferred : (s.hlUpd f).deferred = s.deferred := rfl
@[simp] theorem hlUpd_hl : (s.hlUpd f).hl = f s.hl := rfl
@[simp] theorem hlUpd_ctxs : (s.hlUpd f).ctxs = s.ctxs := rfl
@[simp] theorem hlUpd_qps : (s.hlUpd f).qps = s.qps := rfl
@[simp] theorem hlUpd_lbs : (s.hlUpd f).lbs = s.lbs := rfl
@[simp] theorem hlUpd_hreads : (s.hlUpd f).hreads = s.hreads := rfl
@[simp] theorem hlUpd_cad : (s.hlUpd f).cad = s.cad := rfl
@[simp] theorem hlUpd_cmds : (s.hlUpd f).cmds = s.cmds := rfl
@[simp] theorem hlUpd_inForce : (s.hlUpd f).inForce = s.inForce := rfl
@[simp] theorem hlUpd_ds : (s.hlUpd f).ds = s.ds := rfl
@[simp] theorem hlUpd_ritems : (s.hlUpd f).ritems = s.ritems := rfl
@[simp] theorem hlUpd_med : (s.hlUpd f).med = s.med := rfl
@[simp] theorem hlUpd_mbx : (s.hlUpd f).mbx = s.mbx := rfl
@[simp] theorem hlUpd_pwr : (s.hlUpd f).pwr = s.pwr := rfl
@[simp] theorem hlUpd_pel : (s.hlUpd f).pel = s.pel := rfl
@[simp] theorem hlUpd_tap : (s.hlUpd f).tap = s.tap := rfl
@[simp] theorem hlUpd_fuses : (s.hlUpd f).fuses = s.fuses := rfl
@[simp] theorem hlUpd_fw : (s.hlUpd f).fw = s.fw := rfl
@[simp] theorem hlUpd_word (b : Nat) : (s.hlUpd f).word b = s.word b := rfl
@[simp] theorem hlUpd_get (g : Field) : (s.hlUpd f).get g = s.get g := rfl
@[simp] theorem hlUpd_isSet (g : Field) : (s.hlUpd f).isSet g = s.isSet g := rfl
@[simp] theorem hlUpd_mode : (s.hlUpd f).mode = s.mode := rfl
@[simp] theorem hlUpd_link (j : Nat) : (s.hlUpd f).link j = s.link j := rfl
@[simp] theorem hlUpd_fn (j : Nat) : (s.hlUpd f).fn j = s.fn j := rfl
@[simp] theorem hlUpd_lb (j : Nat) : (s.hlUpd f).lb j = s.lb j := rfl
@[simp] theorem hlUpd_ctx (j : Nat) : (s.hlUpd f).ctx j = s.ctx j := rfl
@[simp] theorem hlUpd_qp (j i : Nat) : (s.hlUpd f).qp j i = s.qp j i := rfl

end hlUpdLaws

section linkUpdLaws

variable (s : State) (k : Nat) (f : Ul → Ul)

@[simp] theorem linkUpd_pending : (s.linkUpd k f).pending = s.pending := rfl
@[simp] theorem linkUpd_out : (s.linkUpd k f).out = s.out := rfl
@[simp] theorem linkUpd_draws : (s.linkUpd k f).draws = s.draws := rfl
@[simp] theorem linkUpd_now : (s.linkUpd k f).now = s.now := rfl
@[simp] theorem linkUpd_regs : (s.linkUpd k f).regs = s.regs := rfl
@[simp] theorem linkUpd_banks : (s.linkUpd k f).banks = s.banks := rfl
@[simp] theorem linkUpd_fns : (s.linkUpd k f).fns = s.fns := rfl
@[simp] theorem linkUpd_msix : (s.linkUpd k f).msix = s.msix := rfl
@[simp] theorem linkUpd_pba : (s.linkUpd k f).pba = s.pba := rfl
@[simp] theorem linkUpd_held : (s.linkUpd k f).held = s.held := rfl
@[simp] theorem linkUpd_msixDue : (s.linkUpd k f).msixDue = s.msixDue := rfl
@[simp] theorem linkUpd_irqStacks : (s.linkUpd k f).irqStacks = s.irqStacks := rfl
@[simp] theorem linkUpd_holdLeft : (s.linkUpd k f).holdLeft = s.holdLeft := rfl
@[simp] theorem linkUpd_dev : (s.linkUpd k f).dev = s.dev := rfl
@[simp] theorem linkUpd_flt : (s.linkUpd k f).flt = s.flt := rfl
@[simp] theorem linkUpd_pfs : (s.linkUpd k f).pfs = s.pfs := rfl
@[simp] theorem linkUpd_ul : (s.linkUpd k f).ul = tabSet ulReset s.ul k (f (s.link k)) := rfl
@[simp] theorem linkUpd_lines : (s.linkUpd k f).lines = s.lines := rfl
@[simp] theorem linkUpd_deferred : (s.linkUpd k f).deferred = s.deferred := rfl
@[simp] theorem linkUpd_hl : (s.linkUpd k f).hl = s.hl := rfl
@[simp] theorem linkUpd_ctxs : (s.linkUpd k f).ctxs = s.ctxs := rfl
@[simp] theorem linkUpd_qps : (s.linkUpd k f).qps = s.qps := rfl
@[simp] theorem linkUpd_lbs : (s.linkUpd k f).lbs = s.lbs := rfl
@[simp] theorem linkUpd_hreads : (s.linkUpd k f).hreads = s.hreads := rfl
@[simp] theorem linkUpd_cad : (s.linkUpd k f).cad = s.cad := rfl
@[simp] theorem linkUpd_cmds : (s.linkUpd k f).cmds = s.cmds := rfl
@[simp] theorem linkUpd_inForce : (s.linkUpd k f).inForce = s.inForce := rfl
@[simp] theorem linkUpd_ds : (s.linkUpd k f).ds = s.ds := rfl
@[simp] theorem linkUpd_ritems : (s.linkUpd k f).ritems = s.ritems := rfl
@[simp] theorem linkUpd_med : (s.linkUpd k f).med = s.med := rfl
@[simp] theorem linkUpd_mbx : (s.linkUpd k f).mbx = s.mbx := rfl
@[simp] theorem linkUpd_pwr : (s.linkUpd k f).pwr = s.pwr := rfl
@[simp] theorem linkUpd_pel : (s.linkUpd k f).pel = s.pel := rfl
@[simp] theorem linkUpd_tap : (s.linkUpd k f).tap = s.tap := rfl
@[simp] theorem linkUpd_fuses : (s.linkUpd k f).fuses = s.fuses := rfl
@[simp] theorem linkUpd_fw : (s.linkUpd k f).fw = s.fw := rfl
@[simp] theorem linkUpd_word (b : Nat) : (s.linkUpd k f).word b = s.word b := rfl
@[simp] theorem linkUpd_get (g : Field) : (s.linkUpd k f).get g = s.get g := rfl
@[simp] theorem linkUpd_isSet (g : Field) : (s.linkUpd k f).isSet g = s.isSet g := rfl
@[simp] theorem linkUpd_mode : (s.linkUpd k f).mode = s.mode := rfl
@[simp] theorem linkUpd_fn (j : Nat) : (s.linkUpd k f).fn j = s.fn j := rfl
@[simp] theorem linkUpd_lb (j : Nat) : (s.linkUpd k f).lb j = s.lb j := rfl
@[simp] theorem linkUpd_ctx (j : Nat) : (s.linkUpd k f).ctx j = s.ctx j := rfl
@[simp] theorem linkUpd_qp (j i : Nat) : (s.linkUpd k f).qp j i = s.qp j i := rfl

end linkUpdLaws

section lineUpdLaws

variable (s : State) (k : Nat) (f : Line → Line)

@[simp] theorem lineUpd_pending : (s.lineUpd k f).pending = s.pending := rfl
@[simp] theorem lineUpd_out : (s.lineUpd k f).out = s.out := rfl
@[simp] theorem lineUpd_draws : (s.lineUpd k f).draws = s.draws := rfl
@[simp] theorem lineUpd_now : (s.lineUpd k f).now = s.now := rfl
@[simp] theorem lineUpd_regs : (s.lineUpd k f).regs = s.regs := rfl
@[simp] theorem lineUpd_banks : (s.lineUpd k f).banks = s.banks := rfl
@[simp] theorem lineUpd_fns : (s.lineUpd k f).fns = s.fns := rfl
@[simp] theorem lineUpd_msix : (s.lineUpd k f).msix = s.msix := rfl
@[simp] theorem lineUpd_pba : (s.lineUpd k f).pba = s.pba := rfl
@[simp] theorem lineUpd_held : (s.lineUpd k f).held = s.held := rfl
@[simp] theorem lineUpd_msixDue : (s.lineUpd k f).msixDue = s.msixDue := rfl
@[simp] theorem lineUpd_irqStacks : (s.lineUpd k f).irqStacks = s.irqStacks := rfl
@[simp] theorem lineUpd_holdLeft : (s.lineUpd k f).holdLeft = s.holdLeft := rfl
@[simp] theorem lineUpd_dev : (s.lineUpd k f).dev = s.dev := rfl
@[simp] theorem lineUpd_flt : (s.lineUpd k f).flt = s.flt := rfl
@[simp] theorem lineUpd_pfs : (s.lineUpd k f).pfs = s.pfs := rfl
@[simp] theorem lineUpd_ul : (s.lineUpd k f).ul = s.ul := rfl
@[simp] theorem lineUpd_lines : (s.lineUpd k f).lines = s.lines.set k (f (s.line k)) := rfl
@[simp] theorem lineUpd_deferred : (s.lineUpd k f).deferred = s.deferred := rfl
@[simp] theorem lineUpd_hl : (s.lineUpd k f).hl = s.hl := rfl
@[simp] theorem lineUpd_ctxs : (s.lineUpd k f).ctxs = s.ctxs := rfl
@[simp] theorem lineUpd_qps : (s.lineUpd k f).qps = s.qps := rfl
@[simp] theorem lineUpd_lbs : (s.lineUpd k f).lbs = s.lbs := rfl
@[simp] theorem lineUpd_hreads : (s.lineUpd k f).hreads = s.hreads := rfl
@[simp] theorem lineUpd_cad : (s.lineUpd k f).cad = s.cad := rfl
@[simp] theorem lineUpd_cmds : (s.lineUpd k f).cmds = s.cmds := rfl
@[simp] theorem lineUpd_inForce : (s.lineUpd k f).inForce = s.inForce := rfl
@[simp] theorem lineUpd_ds : (s.lineUpd k f).ds = s.ds := rfl
@[simp] theorem lineUpd_ritems : (s.lineUpd k f).ritems = s.ritems := rfl
@[simp] theorem lineUpd_med : (s.lineUpd k f).med = s.med := rfl
@[simp] theorem lineUpd_mbx : (s.lineUpd k f).mbx = s.mbx := rfl
@[simp] theorem lineUpd_pwr : (s.lineUpd k f).pwr = s.pwr := rfl
@[simp] theorem lineUpd_pel : (s.lineUpd k f).pel = s.pel := rfl
@[simp] theorem lineUpd_tap : (s.lineUpd k f).tap = s.tap := rfl
@[simp] theorem lineUpd_fuses : (s.lineUpd k f).fuses = s.fuses := rfl
@[simp] theorem lineUpd_fw : (s.lineUpd k f).fw = s.fw := rfl
@[simp] theorem lineUpd_word (b : Nat) : (s.lineUpd k f).word b = s.word b := rfl
@[simp] theorem lineUpd_get (g : Field) : (s.lineUpd k f).get g = s.get g := rfl
@[simp] theorem lineUpd_isSet (g : Field) : (s.lineUpd k f).isSet g = s.isSet g := rfl
@[simp] theorem lineUpd_mode : (s.lineUpd k f).mode = s.mode := rfl
@[simp] theorem lineUpd_fn (j : Nat) : (s.lineUpd k f).fn j = s.fn j := rfl
@[simp] theorem lineUpd_lb (j : Nat) : (s.lineUpd k f).lb j = s.lb j := rfl
@[simp] theorem lineUpd_ctx (j : Nat) : (s.lineUpd k f).ctx j = s.ctx j := rfl
@[simp] theorem lineUpd_qp (j i : Nat) : (s.lineUpd k f).qp j i = s.qp j i := rfl

end lineUpdLaws

section lbUpdLaws

variable (s : State) (p : Nat) (f : Lb → Lb)

@[simp] theorem lbUpd_pending : (s.lbUpd p f).pending = s.pending := rfl
@[simp] theorem lbUpd_out : (s.lbUpd p f).out = s.out := rfl
@[simp] theorem lbUpd_draws : (s.lbUpd p f).draws = s.draws := rfl
@[simp] theorem lbUpd_now : (s.lbUpd p f).now = s.now := rfl
@[simp] theorem lbUpd_regs : (s.lbUpd p f).regs = s.regs := rfl
@[simp] theorem lbUpd_banks : (s.lbUpd p f).banks = s.banks := rfl
@[simp] theorem lbUpd_fns : (s.lbUpd p f).fns = s.fns := rfl
@[simp] theorem lbUpd_msix : (s.lbUpd p f).msix = s.msix := rfl
@[simp] theorem lbUpd_pba : (s.lbUpd p f).pba = s.pba := rfl
@[simp] theorem lbUpd_held : (s.lbUpd p f).held = s.held := rfl
@[simp] theorem lbUpd_msixDue : (s.lbUpd p f).msixDue = s.msixDue := rfl
@[simp] theorem lbUpd_irqStacks : (s.lbUpd p f).irqStacks = s.irqStacks := rfl
@[simp] theorem lbUpd_holdLeft : (s.lbUpd p f).holdLeft = s.holdLeft := rfl
@[simp] theorem lbUpd_dev : (s.lbUpd p f).dev = s.dev := rfl
@[simp] theorem lbUpd_flt : (s.lbUpd p f).flt = s.flt := rfl
@[simp] theorem lbUpd_pfs : (s.lbUpd p f).pfs = s.pfs := rfl
@[simp] theorem lbUpd_ul : (s.lbUpd p f).ul = s.ul := rfl
@[simp] theorem lbUpd_lines : (s.lbUpd p f).lines = s.lines := rfl
@[simp] theorem lbUpd_deferred : (s.lbUpd p f).deferred = s.deferred := rfl
@[simp] theorem lbUpd_hl : (s.lbUpd p f).hl = s.hl := rfl
@[simp] theorem lbUpd_ctxs : (s.lbUpd p f).ctxs = s.ctxs := rfl
@[simp] theorem lbUpd_qps : (s.lbUpd p f).qps = s.qps := rfl
@[simp] theorem lbUpd_lbs : (s.lbUpd p f).lbs = tabSet lbReset s.lbs p (f (s.lb p)) := rfl
@[simp] theorem lbUpd_hreads : (s.lbUpd p f).hreads = s.hreads := rfl
@[simp] theorem lbUpd_cad : (s.lbUpd p f).cad = s.cad := rfl
@[simp] theorem lbUpd_cmds : (s.lbUpd p f).cmds = s.cmds := rfl
@[simp] theorem lbUpd_inForce : (s.lbUpd p f).inForce = s.inForce := rfl
@[simp] theorem lbUpd_ds : (s.lbUpd p f).ds = s.ds := rfl
@[simp] theorem lbUpd_ritems : (s.lbUpd p f).ritems = s.ritems := rfl
@[simp] theorem lbUpd_med : (s.lbUpd p f).med = s.med := rfl
@[simp] theorem lbUpd_mbx : (s.lbUpd p f).mbx = s.mbx := rfl
@[simp] theorem lbUpd_pwr : (s.lbUpd p f).pwr = s.pwr := rfl
@[simp] theorem lbUpd_pel : (s.lbUpd p f).pel = s.pel := rfl
@[simp] theorem lbUpd_tap : (s.lbUpd p f).tap = s.tap := rfl
@[simp] theorem lbUpd_fuses : (s.lbUpd p f).fuses = s.fuses := rfl
@[simp] theorem lbUpd_fw : (s.lbUpd p f).fw = s.fw := rfl
@[simp] theorem lbUpd_word (b : Nat) : (s.lbUpd p f).word b = s.word b := rfl
@[simp] theorem lbUpd_get (g : Field) : (s.lbUpd p f).get g = s.get g := rfl
@[simp] theorem lbUpd_isSet (g : Field) : (s.lbUpd p f).isSet g = s.isSet g := rfl
@[simp] theorem lbUpd_mode : (s.lbUpd p f).mode = s.mode := rfl
@[simp] theorem lbUpd_link (j : Nat) : (s.lbUpd p f).link j = s.link j := rfl
@[simp] theorem lbUpd_fn (j : Nat) : (s.lbUpd p f).fn j = s.fn j := rfl
@[simp] theorem lbUpd_ctx (j : Nat) : (s.lbUpd p f).ctx j = s.ctx j := rfl
@[simp] theorem lbUpd_qp (j i : Nat) : (s.lbUpd p f).qp j i = s.qp j i := rfl

end lbUpdLaws

section ctxUpdLaws

variable (s : State) (c : Nat) (f : Ctx → Ctx)

@[simp] theorem ctxUpd_pending : (s.ctxUpd c f).pending = s.pending := rfl
@[simp] theorem ctxUpd_out : (s.ctxUpd c f).out = s.out := rfl
@[simp] theorem ctxUpd_draws : (s.ctxUpd c f).draws = s.draws := rfl
@[simp] theorem ctxUpd_now : (s.ctxUpd c f).now = s.now := rfl
@[simp] theorem ctxUpd_regs : (s.ctxUpd c f).regs = s.regs := rfl
@[simp] theorem ctxUpd_banks : (s.ctxUpd c f).banks = s.banks := rfl
@[simp] theorem ctxUpd_fns : (s.ctxUpd c f).fns = s.fns := rfl
@[simp] theorem ctxUpd_msix : (s.ctxUpd c f).msix = s.msix := rfl
@[simp] theorem ctxUpd_pba : (s.ctxUpd c f).pba = s.pba := rfl
@[simp] theorem ctxUpd_held : (s.ctxUpd c f).held = s.held := rfl
@[simp] theorem ctxUpd_msixDue : (s.ctxUpd c f).msixDue = s.msixDue := rfl
@[simp] theorem ctxUpd_irqStacks : (s.ctxUpd c f).irqStacks = s.irqStacks := rfl
@[simp] theorem ctxUpd_holdLeft : (s.ctxUpd c f).holdLeft = s.holdLeft := rfl
@[simp] theorem ctxUpd_dev : (s.ctxUpd c f).dev = s.dev := rfl
@[simp] theorem ctxUpd_flt : (s.ctxUpd c f).flt = s.flt := rfl
@[simp] theorem ctxUpd_pfs : (s.ctxUpd c f).pfs = s.pfs := rfl
@[simp] theorem ctxUpd_ul : (s.ctxUpd c f).ul = s.ul := rfl
@[simp] theorem ctxUpd_lines : (s.ctxUpd c f).lines = s.lines := rfl
@[simp] theorem ctxUpd_deferred : (s.ctxUpd c f).deferred = s.deferred := rfl
@[simp] theorem ctxUpd_hl : (s.ctxUpd c f).hl = s.hl := rfl
@[simp] theorem ctxUpd_ctxs : (s.ctxUpd c f).ctxs = tabSet ctxReset s.ctxs c (f (s.ctx c)) := rfl
@[simp] theorem ctxUpd_qps : (s.ctxUpd c f).qps = s.qps := rfl
@[simp] theorem ctxUpd_lbs : (s.ctxUpd c f).lbs = s.lbs := rfl
@[simp] theorem ctxUpd_hreads : (s.ctxUpd c f).hreads = s.hreads := rfl
@[simp] theorem ctxUpd_cad : (s.ctxUpd c f).cad = s.cad := rfl
@[simp] theorem ctxUpd_cmds : (s.ctxUpd c f).cmds = s.cmds := rfl
@[simp] theorem ctxUpd_inForce : (s.ctxUpd c f).inForce = s.inForce := rfl
@[simp] theorem ctxUpd_ds : (s.ctxUpd c f).ds = s.ds := rfl
@[simp] theorem ctxUpd_ritems : (s.ctxUpd c f).ritems = s.ritems := rfl
@[simp] theorem ctxUpd_med : (s.ctxUpd c f).med = s.med := rfl
@[simp] theorem ctxUpd_mbx : (s.ctxUpd c f).mbx = s.mbx := rfl
@[simp] theorem ctxUpd_pwr : (s.ctxUpd c f).pwr = s.pwr := rfl
@[simp] theorem ctxUpd_pel : (s.ctxUpd c f).pel = s.pel := rfl
@[simp] theorem ctxUpd_tap : (s.ctxUpd c f).tap = s.tap := rfl
@[simp] theorem ctxUpd_fuses : (s.ctxUpd c f).fuses = s.fuses := rfl
@[simp] theorem ctxUpd_fw : (s.ctxUpd c f).fw = s.fw := rfl
@[simp] theorem ctxUpd_word (b : Nat) : (s.ctxUpd c f).word b = s.word b := rfl
@[simp] theorem ctxUpd_get (g : Field) : (s.ctxUpd c f).get g = s.get g := rfl
@[simp] theorem ctxUpd_isSet (g : Field) : (s.ctxUpd c f).isSet g = s.isSet g := rfl
@[simp] theorem ctxUpd_mode : (s.ctxUpd c f).mode = s.mode := rfl
@[simp] theorem ctxUpd_link (j : Nat) : (s.ctxUpd c f).link j = s.link j := rfl
@[simp] theorem ctxUpd_fn (j : Nat) : (s.ctxUpd c f).fn j = s.fn j := rfl
@[simp] theorem ctxUpd_lb (j : Nat) : (s.ctxUpd c f).lb j = s.lb j := rfl
@[simp] theorem ctxUpd_qp (j i : Nat) : (s.ctxUpd c f).qp j i = s.qp j i := rfl

end ctxUpdLaws

section descUpdLaws

variable (s : State) (k : DKey) (f : Desc → Desc)

@[simp] theorem descUpd_pending : (s.descUpd k f).pending = s.pending := rfl
@[simp] theorem descUpd_out : (s.descUpd k f).out = s.out := rfl
@[simp] theorem descUpd_draws : (s.descUpd k f).draws = s.draws := rfl
@[simp] theorem descUpd_now : (s.descUpd k f).now = s.now := rfl
@[simp] theorem descUpd_regs : (s.descUpd k f).regs = s.regs := rfl
@[simp] theorem descUpd_banks : (s.descUpd k f).banks = s.banks := rfl
@[simp] theorem descUpd_fns : (s.descUpd k f).fns = s.fns := rfl
@[simp] theorem descUpd_msix : (s.descUpd k f).msix = s.msix := rfl
@[simp] theorem descUpd_pba : (s.descUpd k f).pba = s.pba := rfl
@[simp] theorem descUpd_held : (s.descUpd k f).held = s.held := rfl
@[simp] theorem descUpd_msixDue : (s.descUpd k f).msixDue = s.msixDue := rfl
@[simp] theorem descUpd_irqStacks : (s.descUpd k f).irqStacks = s.irqStacks := rfl
@[simp] theorem descUpd_holdLeft : (s.descUpd k f).holdLeft = s.holdLeft := rfl
@[simp] theorem descUpd_dev : (s.descUpd k f).dev = s.dev := rfl
@[simp] theorem descUpd_flt : (s.descUpd k f).flt = s.flt := rfl
@[simp] theorem descUpd_pfs : (s.descUpd k f).pfs = s.pfs := rfl
@[simp] theorem descUpd_ul : (s.descUpd k f).ul = s.ul := rfl
@[simp] theorem descUpd_lines : (s.descUpd k f).lines = s.lines := rfl
@[simp] theorem descUpd_deferred : (s.descUpd k f).deferred = s.deferred := rfl
@[simp] theorem descUpd_hl : (s.descUpd k f).hl = s.hl := rfl
@[simp] theorem descUpd_ctxs : (s.descUpd k f).ctxs = s.ctxs := rfl
@[simp] theorem descUpd_lbs : (s.descUpd k f).lbs = s.lbs := rfl
@[simp] theorem descUpd_hreads : (s.descUpd k f).hreads = s.hreads := rfl
@[simp] theorem descUpd_cad : (s.descUpd k f).cad = s.cad := rfl
@[simp] theorem descUpd_cmds : (s.descUpd k f).cmds = s.cmds := rfl
@[simp] theorem descUpd_inForce : (s.descUpd k f).inForce = s.inForce := rfl
@[simp] theorem descUpd_ds : (s.descUpd k f).ds = s.ds := rfl
@[simp] theorem descUpd_ritems : (s.descUpd k f).ritems = s.ritems := rfl
@[simp] theorem descUpd_med : (s.descUpd k f).med = s.med := rfl
@[simp] theorem descUpd_mbx : (s.descUpd k f).mbx = s.mbx := rfl
@[simp] theorem descUpd_pwr : (s.descUpd k f).pwr = s.pwr := rfl
@[simp] theorem descUpd_pel : (s.descUpd k f).pel = s.pel := rfl
@[simp] theorem descUpd_tap : (s.descUpd k f).tap = s.tap := rfl
@[simp] theorem descUpd_fuses : (s.descUpd k f).fuses = s.fuses := rfl
@[simp] theorem descUpd_fw : (s.descUpd k f).fw = s.fw := rfl
@[simp] theorem descUpd_word (b : Nat) : (s.descUpd k f).word b = s.word b := rfl
@[simp] theorem descUpd_get (g : Field) : (s.descUpd k f).get g = s.get g := rfl
@[simp] theorem descUpd_isSet (g : Field) : (s.descUpd k f).isSet g = s.isSet g := rfl
@[simp] theorem descUpd_mode : (s.descUpd k f).mode = s.mode := rfl
@[simp] theorem descUpd_link (j : Nat) : (s.descUpd k f).link j = s.link j := rfl
@[simp] theorem descUpd_fn (j : Nat) : (s.descUpd k f).fn j = s.fn j := rfl
@[simp] theorem descUpd_lb (j : Nat) : (s.descUpd k f).lb j = s.lb j := rfl
@[simp] theorem descUpd_ctx (j : Nat) : (s.descUpd k f).ctx j = s.ctx j := rfl

end descUpdLaws

section cadUpdLaws

variable (s : State) (f : Cad → Cad)

@[simp] theorem cadUpd_pending : (s.cadUpd f).pending = s.pending := rfl
@[simp] theorem cadUpd_out : (s.cadUpd f).out = s.out := rfl
@[simp] theorem cadUpd_draws : (s.cadUpd f).draws = s.draws := rfl
@[simp] theorem cadUpd_now : (s.cadUpd f).now = s.now := rfl
@[simp] theorem cadUpd_regs : (s.cadUpd f).regs = s.regs := rfl
@[simp] theorem cadUpd_banks : (s.cadUpd f).banks = s.banks := rfl
@[simp] theorem cadUpd_fns : (s.cadUpd f).fns = s.fns := rfl
@[simp] theorem cadUpd_msix : (s.cadUpd f).msix = s.msix := rfl
@[simp] theorem cadUpd_pba : (s.cadUpd f).pba = s.pba := rfl
@[simp] theorem cadUpd_held : (s.cadUpd f).held = s.held := rfl
@[simp] theorem cadUpd_msixDue : (s.cadUpd f).msixDue = s.msixDue := rfl
@[simp] theorem cadUpd_irqStacks : (s.cadUpd f).irqStacks = s.irqStacks := rfl
@[simp] theorem cadUpd_holdLeft : (s.cadUpd f).holdLeft = s.holdLeft := rfl
@[simp] theorem cadUpd_dev : (s.cadUpd f).dev = s.dev := rfl
@[simp] theorem cadUpd_flt : (s.cadUpd f).flt = s.flt := rfl
@[simp] theorem cadUpd_pfs : (s.cadUpd f).pfs = s.pfs := rfl
@[simp] theorem cadUpd_ul : (s.cadUpd f).ul = s.ul := rfl
@[simp] theorem cadUpd_lines : (s.cadUpd f).lines = s.lines := rfl
@[simp] theorem cadUpd_deferred : (s.cadUpd f).deferred = s.deferred := rfl
@[simp] theorem cadUpd_hl : (s.cadUpd f).hl = s.hl := rfl
@[simp] theorem cadUpd_ctxs : (s.cadUpd f).ctxs = s.ctxs := rfl
@[simp] theorem cadUpd_qps : (s.cadUpd f).qps = s.qps := rfl
@[simp] theorem cadUpd_lbs : (s.cadUpd f).lbs = s.lbs := rfl
@[simp] theorem cadUpd_hreads : (s.cadUpd f).hreads = s.hreads := rfl
@[simp] theorem cadUpd_cad : (s.cadUpd f).cad = f s.cad := rfl
@[simp] theorem cadUpd_cmds : (s.cadUpd f).cmds = s.cmds := rfl
@[simp] theorem cadUpd_inForce : (s.cadUpd f).inForce = s.inForce := rfl
@[simp] theorem cadUpd_ds : (s.cadUpd f).ds = s.ds := rfl
@[simp] theorem cadUpd_ritems : (s.cadUpd f).ritems = s.ritems := rfl
@[simp] theorem cadUpd_med : (s.cadUpd f).med = s.med := rfl
@[simp] theorem cadUpd_mbx : (s.cadUpd f).mbx = s.mbx := rfl
@[simp] theorem cadUpd_pwr : (s.cadUpd f).pwr = s.pwr := rfl
@[simp] theorem cadUpd_pel : (s.cadUpd f).pel = s.pel := rfl
@[simp] theorem cadUpd_tap : (s.cadUpd f).tap = s.tap := rfl
@[simp] theorem cadUpd_fuses : (s.cadUpd f).fuses = s.fuses := rfl
@[simp] theorem cadUpd_fw : (s.cadUpd f).fw = s.fw := rfl
@[simp] theorem cadUpd_word (b : Nat) : (s.cadUpd f).word b = s.word b := rfl
@[simp] theorem cadUpd_get (g : Field) : (s.cadUpd f).get g = s.get g := rfl
@[simp] theorem cadUpd_isSet (g : Field) : (s.cadUpd f).isSet g = s.isSet g := rfl
@[simp] theorem cadUpd_mode : (s.cadUpd f).mode = s.mode := rfl
@[simp] theorem cadUpd_link (j : Nat) : (s.cadUpd f).link j = s.link j := rfl
@[simp] theorem cadUpd_fn (j : Nat) : (s.cadUpd f).fn j = s.fn j := rfl
@[simp] theorem cadUpd_lb (j : Nat) : (s.cadUpd f).lb j = s.lb j := rfl
@[simp] theorem cadUpd_ctx (j : Nat) : (s.cadUpd f).ctx j = s.ctx j := rfl
@[simp] theorem cadUpd_qp (j i : Nat) : (s.cadUpd f).qp j i = s.qp j i := rfl

end cadUpdLaws

section cmdsUpdLaws

variable (s : State) (f : List Cmd → List Cmd)

@[simp] theorem cmdsUpd_pending : (s.cmdsUpd f).pending = s.pending := rfl
@[simp] theorem cmdsUpd_out : (s.cmdsUpd f).out = s.out := rfl
@[simp] theorem cmdsUpd_draws : (s.cmdsUpd f).draws = s.draws := rfl
@[simp] theorem cmdsUpd_now : (s.cmdsUpd f).now = s.now := rfl
@[simp] theorem cmdsUpd_regs : (s.cmdsUpd f).regs = s.regs := rfl
@[simp] theorem cmdsUpd_banks : (s.cmdsUpd f).banks = s.banks := rfl
@[simp] theorem cmdsUpd_fns : (s.cmdsUpd f).fns = s.fns := rfl
@[simp] theorem cmdsUpd_msix : (s.cmdsUpd f).msix = s.msix := rfl
@[simp] theorem cmdsUpd_pba : (s.cmdsUpd f).pba = s.pba := rfl
@[simp] theorem cmdsUpd_held : (s.cmdsUpd f).held = s.held := rfl
@[simp] theorem cmdsUpd_msixDue : (s.cmdsUpd f).msixDue = s.msixDue := rfl
@[simp] theorem cmdsUpd_irqStacks : (s.cmdsUpd f).irqStacks = s.irqStacks := rfl
@[simp] theorem cmdsUpd_holdLeft : (s.cmdsUpd f).holdLeft = s.holdLeft := rfl
@[simp] theorem cmdsUpd_dev : (s.cmdsUpd f).dev = s.dev := rfl
@[simp] theorem cmdsUpd_flt : (s.cmdsUpd f).flt = s.flt := rfl
@[simp] theorem cmdsUpd_pfs : (s.cmdsUpd f).pfs = s.pfs := rfl
@[simp] theorem cmdsUpd_ul : (s.cmdsUpd f).ul = s.ul := rfl
@[simp] theorem cmdsUpd_lines : (s.cmdsUpd f).lines = s.lines := rfl
@[simp] theorem cmdsUpd_deferred : (s.cmdsUpd f).deferred = s.deferred := rfl
@[simp] theorem cmdsUpd_hl : (s.cmdsUpd f).hl = s.hl := rfl
@[simp] theorem cmdsUpd_ctxs : (s.cmdsUpd f).ctxs = s.ctxs := rfl
@[simp] theorem cmdsUpd_qps : (s.cmdsUpd f).qps = s.qps := rfl
@[simp] theorem cmdsUpd_lbs : (s.cmdsUpd f).lbs = s.lbs := rfl
@[simp] theorem cmdsUpd_hreads : (s.cmdsUpd f).hreads = s.hreads := rfl
@[simp] theorem cmdsUpd_cad : (s.cmdsUpd f).cad = s.cad := rfl
@[simp] theorem cmdsUpd_cmds : (s.cmdsUpd f).cmds = f s.cmds := rfl
@[simp] theorem cmdsUpd_inForce : (s.cmdsUpd f).inForce = s.inForce := rfl
@[simp] theorem cmdsUpd_ds : (s.cmdsUpd f).ds = s.ds := rfl
@[simp] theorem cmdsUpd_ritems : (s.cmdsUpd f).ritems = s.ritems := rfl
@[simp] theorem cmdsUpd_med : (s.cmdsUpd f).med = s.med := rfl
@[simp] theorem cmdsUpd_mbx : (s.cmdsUpd f).mbx = s.mbx := rfl
@[simp] theorem cmdsUpd_pwr : (s.cmdsUpd f).pwr = s.pwr := rfl
@[simp] theorem cmdsUpd_pel : (s.cmdsUpd f).pel = s.pel := rfl
@[simp] theorem cmdsUpd_tap : (s.cmdsUpd f).tap = s.tap := rfl
@[simp] theorem cmdsUpd_fuses : (s.cmdsUpd f).fuses = s.fuses := rfl
@[simp] theorem cmdsUpd_fw : (s.cmdsUpd f).fw = s.fw := rfl
@[simp] theorem cmdsUpd_word (b : Nat) : (s.cmdsUpd f).word b = s.word b := rfl
@[simp] theorem cmdsUpd_get (g : Field) : (s.cmdsUpd f).get g = s.get g := rfl
@[simp] theorem cmdsUpd_isSet (g : Field) : (s.cmdsUpd f).isSet g = s.isSet g := rfl
@[simp] theorem cmdsUpd_mode : (s.cmdsUpd f).mode = s.mode := rfl
@[simp] theorem cmdsUpd_link (j : Nat) : (s.cmdsUpd f).link j = s.link j := rfl
@[simp] theorem cmdsUpd_fn (j : Nat) : (s.cmdsUpd f).fn j = s.fn j := rfl
@[simp] theorem cmdsUpd_lb (j : Nat) : (s.cmdsUpd f).lb j = s.lb j := rfl
@[simp] theorem cmdsUpd_ctx (j : Nat) : (s.cmdsUpd f).ctx j = s.ctx j := rfl
@[simp] theorem cmdsUpd_qp (j i : Nat) : (s.cmdsUpd f).qp j i = s.qp j i := rfl

end cmdsUpdLaws

section dsUpdLaws

variable (s : State) (f : Store → Store)

@[simp] theorem dsUpd_pending : (s.dsUpd f).pending = s.pending := rfl
@[simp] theorem dsUpd_out : (s.dsUpd f).out = s.out := rfl
@[simp] theorem dsUpd_draws : (s.dsUpd f).draws = s.draws := rfl
@[simp] theorem dsUpd_now : (s.dsUpd f).now = s.now := rfl
@[simp] theorem dsUpd_regs : (s.dsUpd f).regs = s.regs := rfl
@[simp] theorem dsUpd_banks : (s.dsUpd f).banks = s.banks := rfl
@[simp] theorem dsUpd_fns : (s.dsUpd f).fns = s.fns := rfl
@[simp] theorem dsUpd_msix : (s.dsUpd f).msix = s.msix := rfl
@[simp] theorem dsUpd_pba : (s.dsUpd f).pba = s.pba := rfl
@[simp] theorem dsUpd_held : (s.dsUpd f).held = s.held := rfl
@[simp] theorem dsUpd_msixDue : (s.dsUpd f).msixDue = s.msixDue := rfl
@[simp] theorem dsUpd_irqStacks : (s.dsUpd f).irqStacks = s.irqStacks := rfl
@[simp] theorem dsUpd_holdLeft : (s.dsUpd f).holdLeft = s.holdLeft := rfl
@[simp] theorem dsUpd_dev : (s.dsUpd f).dev = s.dev := rfl
@[simp] theorem dsUpd_flt : (s.dsUpd f).flt = s.flt := rfl
@[simp] theorem dsUpd_pfs : (s.dsUpd f).pfs = s.pfs := rfl
@[simp] theorem dsUpd_ul : (s.dsUpd f).ul = s.ul := rfl
@[simp] theorem dsUpd_lines : (s.dsUpd f).lines = s.lines := rfl
@[simp] theorem dsUpd_deferred : (s.dsUpd f).deferred = s.deferred := rfl
@[simp] theorem dsUpd_hl : (s.dsUpd f).hl = s.hl := rfl
@[simp] theorem dsUpd_ctxs : (s.dsUpd f).ctxs = s.ctxs := rfl
@[simp] theorem dsUpd_qps : (s.dsUpd f).qps = s.qps := rfl
@[simp] theorem dsUpd_lbs : (s.dsUpd f).lbs = s.lbs := rfl
@[simp] theorem dsUpd_hreads : (s.dsUpd f).hreads = s.hreads := rfl
@[simp] theorem dsUpd_cad : (s.dsUpd f).cad = s.cad := rfl
@[simp] theorem dsUpd_cmds : (s.dsUpd f).cmds = s.cmds := rfl
@[simp] theorem dsUpd_inForce : (s.dsUpd f).inForce = s.inForce := rfl
@[simp] theorem dsUpd_ds : (s.dsUpd f).ds = f s.ds := rfl
@[simp] theorem dsUpd_ritems : (s.dsUpd f).ritems = s.ritems := rfl
@[simp] theorem dsUpd_med : (s.dsUpd f).med = s.med := rfl
@[simp] theorem dsUpd_mbx : (s.dsUpd f).mbx = s.mbx := rfl
@[simp] theorem dsUpd_pwr : (s.dsUpd f).pwr = s.pwr := rfl
@[simp] theorem dsUpd_pel : (s.dsUpd f).pel = s.pel := rfl
@[simp] theorem dsUpd_tap : (s.dsUpd f).tap = s.tap := rfl
@[simp] theorem dsUpd_fuses : (s.dsUpd f).fuses = s.fuses := rfl
@[simp] theorem dsUpd_fw : (s.dsUpd f).fw = s.fw := rfl
@[simp] theorem dsUpd_word (b : Nat) : (s.dsUpd f).word b = s.word b := rfl
@[simp] theorem dsUpd_get (g : Field) : (s.dsUpd f).get g = s.get g := rfl
@[simp] theorem dsUpd_isSet (g : Field) : (s.dsUpd f).isSet g = s.isSet g := rfl
@[simp] theorem dsUpd_mode : (s.dsUpd f).mode = s.mode := rfl
@[simp] theorem dsUpd_link (j : Nat) : (s.dsUpd f).link j = s.link j := rfl
@[simp] theorem dsUpd_fn (j : Nat) : (s.dsUpd f).fn j = s.fn j := rfl
@[simp] theorem dsUpd_lb (j : Nat) : (s.dsUpd f).lb j = s.lb j := rfl
@[simp] theorem dsUpd_ctx (j : Nat) : (s.dsUpd f).ctx j = s.ctx j := rfl
@[simp] theorem dsUpd_qp (j i : Nat) : (s.dsUpd f).qp j i = s.qp j i := rfl

end dsUpdLaws

section medUpdLaws

variable (s : State) (f : Media → Media)

@[simp] theorem medUpd_pending : (s.medUpd f).pending = s.pending := rfl
@[simp] theorem medUpd_out : (s.medUpd f).out = s.out := rfl
@[simp] theorem medUpd_draws : (s.medUpd f).draws = s.draws := rfl
@[simp] theorem medUpd_now : (s.medUpd f).now = s.now := rfl
@[simp] theorem medUpd_regs : (s.medUpd f).regs = s.regs := rfl
@[simp] theorem medUpd_banks : (s.medUpd f).banks = s.banks := rfl
@[simp] theorem medUpd_fns : (s.medUpd f).fns = s.fns := rfl
@[simp] theorem medUpd_msix : (s.medUpd f).msix = s.msix := rfl
@[simp] theorem medUpd_pba : (s.medUpd f).pba = s.pba := rfl
@[simp] theorem medUpd_held : (s.medUpd f).held = s.held := rfl
@[simp] theorem medUpd_msixDue : (s.medUpd f).msixDue = s.msixDue := rfl
@[simp] theorem medUpd_irqStacks : (s.medUpd f).irqStacks = s.irqStacks := rfl
@[simp] theorem medUpd_holdLeft : (s.medUpd f).holdLeft = s.holdLeft := rfl
@[simp] theorem medUpd_dev : (s.medUpd f).dev = s.dev := rfl
@[simp] theorem medUpd_flt : (s.medUpd f).flt = s.flt := rfl
@[simp] theorem medUpd_pfs : (s.medUpd f).pfs = s.pfs := rfl
@[simp] theorem medUpd_ul : (s.medUpd f).ul = s.ul := rfl
@[simp] theorem medUpd_lines : (s.medUpd f).lines = s.lines := rfl
@[simp] theorem medUpd_deferred : (s.medUpd f).deferred = s.deferred := rfl
@[simp] theorem medUpd_hl : (s.medUpd f).hl = s.hl := rfl
@[simp] theorem medUpd_ctxs : (s.medUpd f).ctxs = s.ctxs := rfl
@[simp] theorem medUpd_qps : (s.medUpd f).qps = s.qps := rfl
@[simp] theorem medUpd_lbs : (s.medUpd f).lbs = s.lbs := rfl
@[simp] theorem medUpd_hreads : (s.medUpd f).hreads = s.hreads := rfl
@[simp] theorem medUpd_cad : (s.medUpd f).cad = s.cad := rfl
@[simp] theorem medUpd_cmds : (s.medUpd f).cmds = s.cmds := rfl
@[simp] theorem medUpd_inForce : (s.medUpd f).inForce = s.inForce := rfl
@[simp] theorem medUpd_ds : (s.medUpd f).ds = s.ds := rfl
@[simp] theorem medUpd_ritems : (s.medUpd f).ritems = s.ritems := rfl
@[simp] theorem medUpd_med : (s.medUpd f).med = f s.med := rfl
@[simp] theorem medUpd_mbx : (s.medUpd f).mbx = s.mbx := rfl
@[simp] theorem medUpd_pwr : (s.medUpd f).pwr = s.pwr := rfl
@[simp] theorem medUpd_pel : (s.medUpd f).pel = s.pel := rfl
@[simp] theorem medUpd_tap : (s.medUpd f).tap = s.tap := rfl
@[simp] theorem medUpd_fuses : (s.medUpd f).fuses = s.fuses := rfl
@[simp] theorem medUpd_fw : (s.medUpd f).fw = s.fw := rfl
@[simp] theorem medUpd_word (b : Nat) : (s.medUpd f).word b = s.word b := rfl
@[simp] theorem medUpd_get (g : Field) : (s.medUpd f).get g = s.get g := rfl
@[simp] theorem medUpd_isSet (g : Field) : (s.medUpd f).isSet g = s.isSet g := rfl
@[simp] theorem medUpd_mode : (s.medUpd f).mode = s.mode := rfl
@[simp] theorem medUpd_link (j : Nat) : (s.medUpd f).link j = s.link j := rfl
@[simp] theorem medUpd_fn (j : Nat) : (s.medUpd f).fn j = s.fn j := rfl
@[simp] theorem medUpd_lb (j : Nat) : (s.medUpd f).lb j = s.lb j := rfl
@[simp] theorem medUpd_ctx (j : Nat) : (s.medUpd f).ctx j = s.ctx j := rfl
@[simp] theorem medUpd_qp (j i : Nat) : (s.medUpd f).qp j i = s.qp j i := rfl

end medUpdLaws

section mbxUpdLaws

variable (s : State) (f : Mbx → Mbx)

@[simp] theorem mbxUpd_pending : (s.mbxUpd f).pending = s.pending := rfl
@[simp] theorem mbxUpd_out : (s.mbxUpd f).out = s.out := rfl
@[simp] theorem mbxUpd_draws : (s.mbxUpd f).draws = s.draws := rfl
@[simp] theorem mbxUpd_now : (s.mbxUpd f).now = s.now := rfl
@[simp] theorem mbxUpd_regs : (s.mbxUpd f).regs = s.regs := rfl
@[simp] theorem mbxUpd_banks : (s.mbxUpd f).banks = s.banks := rfl
@[simp] theorem mbxUpd_fns : (s.mbxUpd f).fns = s.fns := rfl
@[simp] theorem mbxUpd_msix : (s.mbxUpd f).msix = s.msix := rfl
@[simp] theorem mbxUpd_pba : (s.mbxUpd f).pba = s.pba := rfl
@[simp] theorem mbxUpd_held : (s.mbxUpd f).held = s.held := rfl
@[simp] theorem mbxUpd_msixDue : (s.mbxUpd f).msixDue = s.msixDue := rfl
@[simp] theorem mbxUpd_irqStacks : (s.mbxUpd f).irqStacks = s.irqStacks := rfl
@[simp] theorem mbxUpd_holdLeft : (s.mbxUpd f).holdLeft = s.holdLeft := rfl
@[simp] theorem mbxUpd_dev : (s.mbxUpd f).dev = s.dev := rfl
@[simp] theorem mbxUpd_flt : (s.mbxUpd f).flt = s.flt := rfl
@[simp] theorem mbxUpd_pfs : (s.mbxUpd f).pfs = s.pfs := rfl
@[simp] theorem mbxUpd_ul : (s.mbxUpd f).ul = s.ul := rfl
@[simp] theorem mbxUpd_lines : (s.mbxUpd f).lines = s.lines := rfl
@[simp] theorem mbxUpd_deferred : (s.mbxUpd f).deferred = s.deferred := rfl
@[simp] theorem mbxUpd_hl : (s.mbxUpd f).hl = s.hl := rfl
@[simp] theorem mbxUpd_ctxs : (s.mbxUpd f).ctxs = s.ctxs := rfl
@[simp] theorem mbxUpd_qps : (s.mbxUpd f).qps = s.qps := rfl
@[simp] theorem mbxUpd_lbs : (s.mbxUpd f).lbs = s.lbs := rfl
@[simp] theorem mbxUpd_hreads : (s.mbxUpd f).hreads = s.hreads := rfl
@[simp] theorem mbxUpd_cad : (s.mbxUpd f).cad = s.cad := rfl
@[simp] theorem mbxUpd_cmds : (s.mbxUpd f).cmds = s.cmds := rfl
@[simp] theorem mbxUpd_inForce : (s.mbxUpd f).inForce = s.inForce := rfl
@[simp] theorem mbxUpd_ds : (s.mbxUpd f).ds = s.ds := rfl
@[simp] theorem mbxUpd_ritems : (s.mbxUpd f).ritems = s.ritems := rfl
@[simp] theorem mbxUpd_med : (s.mbxUpd f).med = s.med := rfl
@[simp] theorem mbxUpd_mbx : (s.mbxUpd f).mbx = f s.mbx := rfl
@[simp] theorem mbxUpd_pwr : (s.mbxUpd f).pwr = s.pwr := rfl
@[simp] theorem mbxUpd_pel : (s.mbxUpd f).pel = s.pel := rfl
@[simp] theorem mbxUpd_tap : (s.mbxUpd f).tap = s.tap := rfl
@[simp] theorem mbxUpd_fuses : (s.mbxUpd f).fuses = s.fuses := rfl
@[simp] theorem mbxUpd_fw : (s.mbxUpd f).fw = s.fw := rfl
@[simp] theorem mbxUpd_word (b : Nat) : (s.mbxUpd f).word b = s.word b := rfl
@[simp] theorem mbxUpd_get (g : Field) : (s.mbxUpd f).get g = s.get g := rfl
@[simp] theorem mbxUpd_isSet (g : Field) : (s.mbxUpd f).isSet g = s.isSet g := rfl
@[simp] theorem mbxUpd_mode : (s.mbxUpd f).mode = s.mode := rfl
@[simp] theorem mbxUpd_link (j : Nat) : (s.mbxUpd f).link j = s.link j := rfl
@[simp] theorem mbxUpd_fn (j : Nat) : (s.mbxUpd f).fn j = s.fn j := rfl
@[simp] theorem mbxUpd_lb (j : Nat) : (s.mbxUpd f).lb j = s.lb j := rfl
@[simp] theorem mbxUpd_ctx (j : Nat) : (s.mbxUpd f).ctx j = s.ctx j := rfl
@[simp] theorem mbxUpd_qp (j i : Nat) : (s.mbxUpd f).qp j i = s.qp j i := rfl

end mbxUpdLaws

section pwrUpdLaws

variable (s : State) (f : Pwr → Pwr)

@[simp] theorem pwrUpd_pending : (s.pwrUpd f).pending = s.pending := rfl
@[simp] theorem pwrUpd_out : (s.pwrUpd f).out = s.out := rfl
@[simp] theorem pwrUpd_draws : (s.pwrUpd f).draws = s.draws := rfl
@[simp] theorem pwrUpd_now : (s.pwrUpd f).now = s.now := rfl
@[simp] theorem pwrUpd_regs : (s.pwrUpd f).regs = s.regs := rfl
@[simp] theorem pwrUpd_banks : (s.pwrUpd f).banks = s.banks := rfl
@[simp] theorem pwrUpd_fns : (s.pwrUpd f).fns = s.fns := rfl
@[simp] theorem pwrUpd_msix : (s.pwrUpd f).msix = s.msix := rfl
@[simp] theorem pwrUpd_pba : (s.pwrUpd f).pba = s.pba := rfl
@[simp] theorem pwrUpd_held : (s.pwrUpd f).held = s.held := rfl
@[simp] theorem pwrUpd_msixDue : (s.pwrUpd f).msixDue = s.msixDue := rfl
@[simp] theorem pwrUpd_irqStacks : (s.pwrUpd f).irqStacks = s.irqStacks := rfl
@[simp] theorem pwrUpd_holdLeft : (s.pwrUpd f).holdLeft = s.holdLeft := rfl
@[simp] theorem pwrUpd_dev : (s.pwrUpd f).dev = s.dev := rfl
@[simp] theorem pwrUpd_flt : (s.pwrUpd f).flt = s.flt := rfl
@[simp] theorem pwrUpd_pfs : (s.pwrUpd f).pfs = s.pfs := rfl
@[simp] theorem pwrUpd_ul : (s.pwrUpd f).ul = s.ul := rfl
@[simp] theorem pwrUpd_lines : (s.pwrUpd f).lines = s.lines := rfl
@[simp] theorem pwrUpd_deferred : (s.pwrUpd f).deferred = s.deferred := rfl
@[simp] theorem pwrUpd_hl : (s.pwrUpd f).hl = s.hl := rfl
@[simp] theorem pwrUpd_ctxs : (s.pwrUpd f).ctxs = s.ctxs := rfl
@[simp] theorem pwrUpd_qps : (s.pwrUpd f).qps = s.qps := rfl
@[simp] theorem pwrUpd_lbs : (s.pwrUpd f).lbs = s.lbs := rfl
@[simp] theorem pwrUpd_hreads : (s.pwrUpd f).hreads = s.hreads := rfl
@[simp] theorem pwrUpd_cad : (s.pwrUpd f).cad = s.cad := rfl
@[simp] theorem pwrUpd_cmds : (s.pwrUpd f).cmds = s.cmds := rfl
@[simp] theorem pwrUpd_inForce : (s.pwrUpd f).inForce = s.inForce := rfl
@[simp] theorem pwrUpd_ds : (s.pwrUpd f).ds = s.ds := rfl
@[simp] theorem pwrUpd_ritems : (s.pwrUpd f).ritems = s.ritems := rfl
@[simp] theorem pwrUpd_med : (s.pwrUpd f).med = s.med := rfl
@[simp] theorem pwrUpd_mbx : (s.pwrUpd f).mbx = s.mbx := rfl
@[simp] theorem pwrUpd_pwr : (s.pwrUpd f).pwr = f s.pwr := rfl
@[simp] theorem pwrUpd_pel : (s.pwrUpd f).pel = s.pel := rfl
@[simp] theorem pwrUpd_tap : (s.pwrUpd f).tap = s.tap := rfl
@[simp] theorem pwrUpd_fuses : (s.pwrUpd f).fuses = s.fuses := rfl
@[simp] theorem pwrUpd_fw : (s.pwrUpd f).fw = s.fw := rfl
@[simp] theorem pwrUpd_word (b : Nat) : (s.pwrUpd f).word b = s.word b := rfl
@[simp] theorem pwrUpd_get (g : Field) : (s.pwrUpd f).get g = s.get g := rfl
@[simp] theorem pwrUpd_isSet (g : Field) : (s.pwrUpd f).isSet g = s.isSet g := rfl
@[simp] theorem pwrUpd_mode : (s.pwrUpd f).mode = s.mode := rfl
@[simp] theorem pwrUpd_link (j : Nat) : (s.pwrUpd f).link j = s.link j := rfl
@[simp] theorem pwrUpd_fn (j : Nat) : (s.pwrUpd f).fn j = s.fn j := rfl
@[simp] theorem pwrUpd_lb (j : Nat) : (s.pwrUpd f).lb j = s.lb j := rfl
@[simp] theorem pwrUpd_ctx (j : Nat) : (s.pwrUpd f).ctx j = s.ctx j := rfl
@[simp] theorem pwrUpd_qp (j i : Nat) : (s.pwrUpd f).qp j i = s.qp j i := rfl

end pwrUpdLaws

section pelUpdLaws

variable (s : State) (f : Pel → Pel)

@[simp] theorem pelUpd_pending : (s.pelUpd f).pending = s.pending := rfl
@[simp] theorem pelUpd_out : (s.pelUpd f).out = s.out := rfl
@[simp] theorem pelUpd_draws : (s.pelUpd f).draws = s.draws := rfl
@[simp] theorem pelUpd_now : (s.pelUpd f).now = s.now := rfl
@[simp] theorem pelUpd_regs : (s.pelUpd f).regs = s.regs := rfl
@[simp] theorem pelUpd_banks : (s.pelUpd f).banks = s.banks := rfl
@[simp] theorem pelUpd_fns : (s.pelUpd f).fns = s.fns := rfl
@[simp] theorem pelUpd_msix : (s.pelUpd f).msix = s.msix := rfl
@[simp] theorem pelUpd_pba : (s.pelUpd f).pba = s.pba := rfl
@[simp] theorem pelUpd_held : (s.pelUpd f).held = s.held := rfl
@[simp] theorem pelUpd_msixDue : (s.pelUpd f).msixDue = s.msixDue := rfl
@[simp] theorem pelUpd_irqStacks : (s.pelUpd f).irqStacks = s.irqStacks := rfl
@[simp] theorem pelUpd_holdLeft : (s.pelUpd f).holdLeft = s.holdLeft := rfl
@[simp] theorem pelUpd_dev : (s.pelUpd f).dev = s.dev := rfl
@[simp] theorem pelUpd_flt : (s.pelUpd f).flt = s.flt := rfl
@[simp] theorem pelUpd_pfs : (s.pelUpd f).pfs = s.pfs := rfl
@[simp] theorem pelUpd_ul : (s.pelUpd f).ul = s.ul := rfl
@[simp] theorem pelUpd_lines : (s.pelUpd f).lines = s.lines := rfl
@[simp] theorem pelUpd_deferred : (s.pelUpd f).deferred = s.deferred := rfl
@[simp] theorem pelUpd_hl : (s.pelUpd f).hl = s.hl := rfl
@[simp] theorem pelUpd_ctxs : (s.pelUpd f).ctxs = s.ctxs := rfl
@[simp] theorem pelUpd_qps : (s.pelUpd f).qps = s.qps := rfl
@[simp] theorem pelUpd_lbs : (s.pelUpd f).lbs = s.lbs := rfl
@[simp] theorem pelUpd_hreads : (s.pelUpd f).hreads = s.hreads := rfl
@[simp] theorem pelUpd_cad : (s.pelUpd f).cad = s.cad := rfl
@[simp] theorem pelUpd_cmds : (s.pelUpd f).cmds = s.cmds := rfl
@[simp] theorem pelUpd_inForce : (s.pelUpd f).inForce = s.inForce := rfl
@[simp] theorem pelUpd_ds : (s.pelUpd f).ds = s.ds := rfl
@[simp] theorem pelUpd_ritems : (s.pelUpd f).ritems = s.ritems := rfl
@[simp] theorem pelUpd_med : (s.pelUpd f).med = s.med := rfl
@[simp] theorem pelUpd_mbx : (s.pelUpd f).mbx = s.mbx := rfl
@[simp] theorem pelUpd_pwr : (s.pelUpd f).pwr = s.pwr := rfl
@[simp] theorem pelUpd_pel : (s.pelUpd f).pel = f s.pel := rfl
@[simp] theorem pelUpd_tap : (s.pelUpd f).tap = s.tap := rfl
@[simp] theorem pelUpd_fuses : (s.pelUpd f).fuses = s.fuses := rfl
@[simp] theorem pelUpd_fw : (s.pelUpd f).fw = s.fw := rfl
@[simp] theorem pelUpd_word (b : Nat) : (s.pelUpd f).word b = s.word b := rfl
@[simp] theorem pelUpd_get (g : Field) : (s.pelUpd f).get g = s.get g := rfl
@[simp] theorem pelUpd_isSet (g : Field) : (s.pelUpd f).isSet g = s.isSet g := rfl
@[simp] theorem pelUpd_mode : (s.pelUpd f).mode = s.mode := rfl
@[simp] theorem pelUpd_link (j : Nat) : (s.pelUpd f).link j = s.link j := rfl
@[simp] theorem pelUpd_fn (j : Nat) : (s.pelUpd f).fn j = s.fn j := rfl
@[simp] theorem pelUpd_lb (j : Nat) : (s.pelUpd f).lb j = s.lb j := rfl
@[simp] theorem pelUpd_ctx (j : Nat) : (s.pelUpd f).ctx j = s.ctx j := rfl
@[simp] theorem pelUpd_qp (j i : Nat) : (s.pelUpd f).qp j i = s.qp j i := rfl

end pelUpdLaws

section tapUpdLaws

variable (s : State) (f : Tap → Tap)

@[simp] theorem tapUpd_pending : (s.tapUpd f).pending = s.pending := rfl
@[simp] theorem tapUpd_out : (s.tapUpd f).out = s.out := rfl
@[simp] theorem tapUpd_draws : (s.tapUpd f).draws = s.draws := rfl
@[simp] theorem tapUpd_now : (s.tapUpd f).now = s.now := rfl
@[simp] theorem tapUpd_regs : (s.tapUpd f).regs = s.regs := rfl
@[simp] theorem tapUpd_banks : (s.tapUpd f).banks = s.banks := rfl
@[simp] theorem tapUpd_fns : (s.tapUpd f).fns = s.fns := rfl
@[simp] theorem tapUpd_msix : (s.tapUpd f).msix = s.msix := rfl
@[simp] theorem tapUpd_pba : (s.tapUpd f).pba = s.pba := rfl
@[simp] theorem tapUpd_held : (s.tapUpd f).held = s.held := rfl
@[simp] theorem tapUpd_msixDue : (s.tapUpd f).msixDue = s.msixDue := rfl
@[simp] theorem tapUpd_irqStacks : (s.tapUpd f).irqStacks = s.irqStacks := rfl
@[simp] theorem tapUpd_holdLeft : (s.tapUpd f).holdLeft = s.holdLeft := rfl
@[simp] theorem tapUpd_dev : (s.tapUpd f).dev = s.dev := rfl
@[simp] theorem tapUpd_flt : (s.tapUpd f).flt = s.flt := rfl
@[simp] theorem tapUpd_pfs : (s.tapUpd f).pfs = s.pfs := rfl
@[simp] theorem tapUpd_ul : (s.tapUpd f).ul = s.ul := rfl
@[simp] theorem tapUpd_lines : (s.tapUpd f).lines = s.lines := rfl
@[simp] theorem tapUpd_deferred : (s.tapUpd f).deferred = s.deferred := rfl
@[simp] theorem tapUpd_hl : (s.tapUpd f).hl = s.hl := rfl
@[simp] theorem tapUpd_ctxs : (s.tapUpd f).ctxs = s.ctxs := rfl
@[simp] theorem tapUpd_qps : (s.tapUpd f).qps = s.qps := rfl
@[simp] theorem tapUpd_lbs : (s.tapUpd f).lbs = s.lbs := rfl
@[simp] theorem tapUpd_hreads : (s.tapUpd f).hreads = s.hreads := rfl
@[simp] theorem tapUpd_cad : (s.tapUpd f).cad = s.cad := rfl
@[simp] theorem tapUpd_cmds : (s.tapUpd f).cmds = s.cmds := rfl
@[simp] theorem tapUpd_inForce : (s.tapUpd f).inForce = s.inForce := rfl
@[simp] theorem tapUpd_ds : (s.tapUpd f).ds = s.ds := rfl
@[simp] theorem tapUpd_ritems : (s.tapUpd f).ritems = s.ritems := rfl
@[simp] theorem tapUpd_med : (s.tapUpd f).med = s.med := rfl
@[simp] theorem tapUpd_mbx : (s.tapUpd f).mbx = s.mbx := rfl
@[simp] theorem tapUpd_pwr : (s.tapUpd f).pwr = s.pwr := rfl
@[simp] theorem tapUpd_pel : (s.tapUpd f).pel = s.pel := rfl
@[simp] theorem tapUpd_tap : (s.tapUpd f).tap = f s.tap := rfl
@[simp] theorem tapUpd_fuses : (s.tapUpd f).fuses = s.fuses := rfl
@[simp] theorem tapUpd_fw : (s.tapUpd f).fw = s.fw := rfl
@[simp] theorem tapUpd_word (b : Nat) : (s.tapUpd f).word b = s.word b := rfl
@[simp] theorem tapUpd_get (g : Field) : (s.tapUpd f).get g = s.get g := rfl
@[simp] theorem tapUpd_isSet (g : Field) : (s.tapUpd f).isSet g = s.isSet g := rfl
@[simp] theorem tapUpd_mode : (s.tapUpd f).mode = s.mode := rfl
@[simp] theorem tapUpd_link (j : Nat) : (s.tapUpd f).link j = s.link j := rfl
@[simp] theorem tapUpd_fn (j : Nat) : (s.tapUpd f).fn j = s.fn j := rfl
@[simp] theorem tapUpd_lb (j : Nat) : (s.tapUpd f).lb j = s.lb j := rfl
@[simp] theorem tapUpd_ctx (j : Nat) : (s.tapUpd f).ctx j = s.ctx j := rfl
@[simp] theorem tapUpd_qp (j i : Nat) : (s.tapUpd f).qp j i = s.qp j i := rfl

end tapUpdLaws

section fuseUpdLaws

variable (s : State) (f : Fuses → Fuses)

@[simp] theorem fuseUpd_pending : (s.fuseUpd f).pending = s.pending := rfl
@[simp] theorem fuseUpd_out : (s.fuseUpd f).out = s.out := rfl
@[simp] theorem fuseUpd_draws : (s.fuseUpd f).draws = s.draws := rfl
@[simp] theorem fuseUpd_now : (s.fuseUpd f).now = s.now := rfl
@[simp] theorem fuseUpd_regs : (s.fuseUpd f).regs = s.regs := rfl
@[simp] theorem fuseUpd_banks : (s.fuseUpd f).banks = s.banks := rfl
@[simp] theorem fuseUpd_fns : (s.fuseUpd f).fns = s.fns := rfl
@[simp] theorem fuseUpd_msix : (s.fuseUpd f).msix = s.msix := rfl
@[simp] theorem fuseUpd_pba : (s.fuseUpd f).pba = s.pba := rfl
@[simp] theorem fuseUpd_held : (s.fuseUpd f).held = s.held := rfl
@[simp] theorem fuseUpd_msixDue : (s.fuseUpd f).msixDue = s.msixDue := rfl
@[simp] theorem fuseUpd_irqStacks : (s.fuseUpd f).irqStacks = s.irqStacks := rfl
@[simp] theorem fuseUpd_holdLeft : (s.fuseUpd f).holdLeft = s.holdLeft := rfl
@[simp] theorem fuseUpd_dev : (s.fuseUpd f).dev = s.dev := rfl
@[simp] theorem fuseUpd_flt : (s.fuseUpd f).flt = s.flt := rfl
@[simp] theorem fuseUpd_pfs : (s.fuseUpd f).pfs = s.pfs := rfl
@[simp] theorem fuseUpd_ul : (s.fuseUpd f).ul = s.ul := rfl
@[simp] theorem fuseUpd_lines : (s.fuseUpd f).lines = s.lines := rfl
@[simp] theorem fuseUpd_deferred : (s.fuseUpd f).deferred = s.deferred := rfl
@[simp] theorem fuseUpd_hl : (s.fuseUpd f).hl = s.hl := rfl
@[simp] theorem fuseUpd_ctxs : (s.fuseUpd f).ctxs = s.ctxs := rfl
@[simp] theorem fuseUpd_qps : (s.fuseUpd f).qps = s.qps := rfl
@[simp] theorem fuseUpd_lbs : (s.fuseUpd f).lbs = s.lbs := rfl
@[simp] theorem fuseUpd_hreads : (s.fuseUpd f).hreads = s.hreads := rfl
@[simp] theorem fuseUpd_cad : (s.fuseUpd f).cad = s.cad := rfl
@[simp] theorem fuseUpd_cmds : (s.fuseUpd f).cmds = s.cmds := rfl
@[simp] theorem fuseUpd_inForce : (s.fuseUpd f).inForce = s.inForce := rfl
@[simp] theorem fuseUpd_ds : (s.fuseUpd f).ds = s.ds := rfl
@[simp] theorem fuseUpd_ritems : (s.fuseUpd f).ritems = s.ritems := rfl
@[simp] theorem fuseUpd_med : (s.fuseUpd f).med = s.med := rfl
@[simp] theorem fuseUpd_mbx : (s.fuseUpd f).mbx = s.mbx := rfl
@[simp] theorem fuseUpd_pwr : (s.fuseUpd f).pwr = s.pwr := rfl
@[simp] theorem fuseUpd_pel : (s.fuseUpd f).pel = s.pel := rfl
@[simp] theorem fuseUpd_tap : (s.fuseUpd f).tap = s.tap := rfl
@[simp] theorem fuseUpd_fuses : (s.fuseUpd f).fuses = f s.fuses := rfl
@[simp] theorem fuseUpd_fw : (s.fuseUpd f).fw = s.fw := rfl
@[simp] theorem fuseUpd_word (b : Nat) : (s.fuseUpd f).word b = s.word b := rfl
@[simp] theorem fuseUpd_get (g : Field) : (s.fuseUpd f).get g = s.get g := rfl
@[simp] theorem fuseUpd_isSet (g : Field) : (s.fuseUpd f).isSet g = s.isSet g := rfl
@[simp] theorem fuseUpd_mode : (s.fuseUpd f).mode = s.mode := rfl
@[simp] theorem fuseUpd_link (j : Nat) : (s.fuseUpd f).link j = s.link j := rfl
@[simp] theorem fuseUpd_fn (j : Nat) : (s.fuseUpd f).fn j = s.fn j := rfl
@[simp] theorem fuseUpd_lb (j : Nat) : (s.fuseUpd f).lb j = s.lb j := rfl
@[simp] theorem fuseUpd_ctx (j : Nat) : (s.fuseUpd f).ctx j = s.ctx j := rfl
@[simp] theorem fuseUpd_qp (j i : Nat) : (s.fuseUpd f).qp j i = s.qp j i := rfl

end fuseUpdLaws

section fwUpdLaws

variable (s : State) (f : Fw → Fw)

@[simp] theorem fwUpd_pending : (s.fwUpd f).pending = s.pending := rfl
@[simp] theorem fwUpd_out : (s.fwUpd f).out = s.out := rfl
@[simp] theorem fwUpd_draws : (s.fwUpd f).draws = s.draws := rfl
@[simp] theorem fwUpd_now : (s.fwUpd f).now = s.now := rfl
@[simp] theorem fwUpd_regs : (s.fwUpd f).regs = s.regs := rfl
@[simp] theorem fwUpd_banks : (s.fwUpd f).banks = s.banks := rfl
@[simp] theorem fwUpd_fns : (s.fwUpd f).fns = s.fns := rfl
@[simp] theorem fwUpd_msix : (s.fwUpd f).msix = s.msix := rfl
@[simp] theorem fwUpd_pba : (s.fwUpd f).pba = s.pba := rfl
@[simp] theorem fwUpd_held : (s.fwUpd f).held = s.held := rfl
@[simp] theorem fwUpd_msixDue : (s.fwUpd f).msixDue = s.msixDue := rfl
@[simp] theorem fwUpd_irqStacks : (s.fwUpd f).irqStacks = s.irqStacks := rfl
@[simp] theorem fwUpd_holdLeft : (s.fwUpd f).holdLeft = s.holdLeft := rfl
@[simp] theorem fwUpd_dev : (s.fwUpd f).dev = s.dev := rfl
@[simp] theorem fwUpd_flt : (s.fwUpd f).flt = s.flt := rfl
@[simp] theorem fwUpd_pfs : (s.fwUpd f).pfs = s.pfs := rfl
@[simp] theorem fwUpd_ul : (s.fwUpd f).ul = s.ul := rfl
@[simp] theorem fwUpd_lines : (s.fwUpd f).lines = s.lines := rfl
@[simp] theorem fwUpd_deferred : (s.fwUpd f).deferred = s.deferred := rfl
@[simp] theorem fwUpd_hl : (s.fwUpd f).hl = s.hl := rfl
@[simp] theorem fwUpd_ctxs : (s.fwUpd f).ctxs = s.ctxs := rfl
@[simp] theorem fwUpd_qps : (s.fwUpd f).qps = s.qps := rfl
@[simp] theorem fwUpd_lbs : (s.fwUpd f).lbs = s.lbs := rfl
@[simp] theorem fwUpd_hreads : (s.fwUpd f).hreads = s.hreads := rfl
@[simp] theorem fwUpd_cad : (s.fwUpd f).cad = s.cad := rfl
@[simp] theorem fwUpd_cmds : (s.fwUpd f).cmds = s.cmds := rfl
@[simp] theorem fwUpd_inForce : (s.fwUpd f).inForce = s.inForce := rfl
@[simp] theorem fwUpd_ds : (s.fwUpd f).ds = s.ds := rfl
@[simp] theorem fwUpd_ritems : (s.fwUpd f).ritems = s.ritems := rfl
@[simp] theorem fwUpd_med : (s.fwUpd f).med = s.med := rfl
@[simp] theorem fwUpd_mbx : (s.fwUpd f).mbx = s.mbx := rfl
@[simp] theorem fwUpd_pwr : (s.fwUpd f).pwr = s.pwr := rfl
@[simp] theorem fwUpd_pel : (s.fwUpd f).pel = s.pel := rfl
@[simp] theorem fwUpd_tap : (s.fwUpd f).tap = s.tap := rfl
@[simp] theorem fwUpd_fuses : (s.fwUpd f).fuses = s.fuses := rfl
@[simp] theorem fwUpd_fw : (s.fwUpd f).fw = f s.fw := rfl
@[simp] theorem fwUpd_word (b : Nat) : (s.fwUpd f).word b = s.word b := rfl
@[simp] theorem fwUpd_get (g : Field) : (s.fwUpd f).get g = s.get g := rfl
@[simp] theorem fwUpd_isSet (g : Field) : (s.fwUpd f).isSet g = s.isSet g := rfl
@[simp] theorem fwUpd_mode : (s.fwUpd f).mode = s.mode := rfl
@[simp] theorem fwUpd_link (j : Nat) : (s.fwUpd f).link j = s.link j := rfl
@[simp] theorem fwUpd_fn (j : Nat) : (s.fwUpd f).fn j = s.fn j := rfl
@[simp] theorem fwUpd_lb (j : Nat) : (s.fwUpd f).lb j = s.lb j := rfl
@[simp] theorem fwUpd_ctx (j : Nat) : (s.fwUpd f).ctx j = s.ctx j := rfl
@[simp] theorem fwUpd_qp (j i : Nat) : (s.fwUpd f).qp j i = s.qp j i := rfl

end fwUpdLaws

section setPbaLaws

variable (s : State) (c : Nat) (v : BitVec 64)

@[simp] theorem setPba_pending : (s.setPba c v).pending = s.pending := rfl
@[simp] theorem setPba_out : (s.setPba c v).out = s.out := rfl
@[simp] theorem setPba_draws : (s.setPba c v).draws = s.draws := rfl
@[simp] theorem setPba_now : (s.setPba c v).now = s.now := rfl
@[simp] theorem setPba_regs : (s.setPba c v).regs = s.regs := rfl
@[simp] theorem setPba_banks : (s.setPba c v).banks = s.banks := rfl
@[simp] theorem setPba_fns : (s.setPba c v).fns = s.fns := rfl
@[simp] theorem setPba_msix : (s.setPba c v).msix = s.msix := rfl
@[simp] theorem setPba_pba : (s.setPba c v).pba = tabSet (fun _ => 0) s.pba c v := rfl
@[simp] theorem setPba_held : (s.setPba c v).held = s.held := rfl
@[simp] theorem setPba_msixDue : (s.setPba c v).msixDue = s.msixDue := rfl
@[simp] theorem setPba_irqStacks : (s.setPba c v).irqStacks = s.irqStacks := rfl
@[simp] theorem setPba_holdLeft : (s.setPba c v).holdLeft = s.holdLeft := rfl
@[simp] theorem setPba_dev : (s.setPba c v).dev = s.dev := rfl
@[simp] theorem setPba_flt : (s.setPba c v).flt = s.flt := rfl
@[simp] theorem setPba_pfs : (s.setPba c v).pfs = s.pfs := rfl
@[simp] theorem setPba_ul : (s.setPba c v).ul = s.ul := rfl
@[simp] theorem setPba_lines : (s.setPba c v).lines = s.lines := rfl
@[simp] theorem setPba_deferred : (s.setPba c v).deferred = s.deferred := rfl
@[simp] theorem setPba_hl : (s.setPba c v).hl = s.hl := rfl
@[simp] theorem setPba_ctxs : (s.setPba c v).ctxs = s.ctxs := rfl
@[simp] theorem setPba_qps : (s.setPba c v).qps = s.qps := rfl
@[simp] theorem setPba_lbs : (s.setPba c v).lbs = s.lbs := rfl
@[simp] theorem setPba_hreads : (s.setPba c v).hreads = s.hreads := rfl
@[simp] theorem setPba_cad : (s.setPba c v).cad = s.cad := rfl
@[simp] theorem setPba_cmds : (s.setPba c v).cmds = s.cmds := rfl
@[simp] theorem setPba_inForce : (s.setPba c v).inForce = s.inForce := rfl
@[simp] theorem setPba_ds : (s.setPba c v).ds = s.ds := rfl
@[simp] theorem setPba_ritems : (s.setPba c v).ritems = s.ritems := rfl
@[simp] theorem setPba_med : (s.setPba c v).med = s.med := rfl
@[simp] theorem setPba_mbx : (s.setPba c v).mbx = s.mbx := rfl
@[simp] theorem setPba_pwr : (s.setPba c v).pwr = s.pwr := rfl
@[simp] theorem setPba_pel : (s.setPba c v).pel = s.pel := rfl
@[simp] theorem setPba_tap : (s.setPba c v).tap = s.tap := rfl
@[simp] theorem setPba_fuses : (s.setPba c v).fuses = s.fuses := rfl
@[simp] theorem setPba_fw : (s.setPba c v).fw = s.fw := rfl
@[simp] theorem setPba_word (b : Nat) : (s.setPba c v).word b = s.word b := rfl
@[simp] theorem setPba_get (g : Field) : (s.setPba c v).get g = s.get g := rfl
@[simp] theorem setPba_isSet (g : Field) : (s.setPba c v).isSet g = s.isSet g := rfl
@[simp] theorem setPba_mode : (s.setPba c v).mode = s.mode := rfl
@[simp] theorem setPba_link (j : Nat) : (s.setPba c v).link j = s.link j := rfl
@[simp] theorem setPba_fn (j : Nat) : (s.setPba c v).fn j = s.fn j := rfl
@[simp] theorem setPba_lb (j : Nat) : (s.setPba c v).lb j = s.lb j := rfl
@[simp] theorem setPba_ctx (j : Nat) : (s.setPba c v).ctx j = s.ctx j := rfl
@[simp] theorem setPba_qp (j i : Nat) : (s.setPba c v).qp j i = s.qp j i := rfl

end setPbaLaws

section setHeldLaws

variable (s : State) (c : Nat) (v : BitVec 64)

@[simp] theorem setHeld_pending : (s.setHeld c v).pending = s.pending := rfl
@[simp] theorem setHeld_out : (s.setHeld c v).out = s.out := rfl
@[simp] theorem setHeld_draws : (s.setHeld c v).draws = s.draws := rfl
@[simp] theorem setHeld_now : (s.setHeld c v).now = s.now := rfl
@[simp] theorem setHeld_regs : (s.setHeld c v).regs = s.regs := rfl
@[simp] theorem setHeld_banks : (s.setHeld c v).banks = s.banks := rfl
@[simp] theorem setHeld_fns : (s.setHeld c v).fns = s.fns := rfl
@[simp] theorem setHeld_msix : (s.setHeld c v).msix = s.msix := rfl
@[simp] theorem setHeld_pba : (s.setHeld c v).pba = s.pba := rfl
@[simp] theorem setHeld_held : (s.setHeld c v).held = tabSet (fun _ => 0) s.held c v := rfl
@[simp] theorem setHeld_msixDue : (s.setHeld c v).msixDue = s.msixDue := rfl
@[simp] theorem setHeld_irqStacks : (s.setHeld c v).irqStacks = s.irqStacks := rfl
@[simp] theorem setHeld_holdLeft : (s.setHeld c v).holdLeft = s.holdLeft := rfl
@[simp] theorem setHeld_dev : (s.setHeld c v).dev = s.dev := rfl
@[simp] theorem setHeld_flt : (s.setHeld c v).flt = s.flt := rfl
@[simp] theorem setHeld_pfs : (s.setHeld c v).pfs = s.pfs := rfl
@[simp] theorem setHeld_ul : (s.setHeld c v).ul = s.ul := rfl
@[simp] theorem setHeld_lines : (s.setHeld c v).lines = s.lines := rfl
@[simp] theorem setHeld_deferred : (s.setHeld c v).deferred = s.deferred := rfl
@[simp] theorem setHeld_hl : (s.setHeld c v).hl = s.hl := rfl
@[simp] theorem setHeld_ctxs : (s.setHeld c v).ctxs = s.ctxs := rfl
@[simp] theorem setHeld_qps : (s.setHeld c v).qps = s.qps := rfl
@[simp] theorem setHeld_lbs : (s.setHeld c v).lbs = s.lbs := rfl
@[simp] theorem setHeld_hreads : (s.setHeld c v).hreads = s.hreads := rfl
@[simp] theorem setHeld_cad : (s.setHeld c v).cad = s.cad := rfl
@[simp] theorem setHeld_cmds : (s.setHeld c v).cmds = s.cmds := rfl
@[simp] theorem setHeld_inForce : (s.setHeld c v).inForce = s.inForce := rfl
@[simp] theorem setHeld_ds : (s.setHeld c v).ds = s.ds := rfl
@[simp] theorem setHeld_ritems : (s.setHeld c v).ritems = s.ritems := rfl
@[simp] theorem setHeld_med : (s.setHeld c v).med = s.med := rfl
@[simp] theorem setHeld_mbx : (s.setHeld c v).mbx = s.mbx := rfl
@[simp] theorem setHeld_pwr : (s.setHeld c v).pwr = s.pwr := rfl
@[simp] theorem setHeld_pel : (s.setHeld c v).pel = s.pel := rfl
@[simp] theorem setHeld_tap : (s.setHeld c v).tap = s.tap := rfl
@[simp] theorem setHeld_fuses : (s.setHeld c v).fuses = s.fuses := rfl
@[simp] theorem setHeld_fw : (s.setHeld c v).fw = s.fw := rfl
@[simp] theorem setHeld_word (b : Nat) : (s.setHeld c v).word b = s.word b := rfl
@[simp] theorem setHeld_get (g : Field) : (s.setHeld c v).get g = s.get g := rfl
@[simp] theorem setHeld_isSet (g : Field) : (s.setHeld c v).isSet g = s.isSet g := rfl
@[simp] theorem setHeld_mode : (s.setHeld c v).mode = s.mode := rfl
@[simp] theorem setHeld_link (j : Nat) : (s.setHeld c v).link j = s.link j := rfl
@[simp] theorem setHeld_fn (j : Nat) : (s.setHeld c v).fn j = s.fn j := rfl
@[simp] theorem setHeld_lb (j : Nat) : (s.setHeld c v).lb j = s.lb j := rfl
@[simp] theorem setHeld_ctx (j : Nat) : (s.setHeld c v).ctx j = s.ctx j := rfl
@[simp] theorem setHeld_qp (j i : Nat) : (s.setHeld c v).qp j i = s.qp j i := rfl

end setHeldLaws

section setMsixLaws

variable (s : State) (c v : Nat) (e : MsixEntry)

@[simp] theorem setMsix_pending : (s.setMsix c v e).pending = s.pending := rfl
@[simp] theorem setMsix_out : (s.setMsix c v e).out = s.out := rfl
@[simp] theorem setMsix_draws : (s.setMsix c v e).draws = s.draws := rfl
@[simp] theorem setMsix_now : (s.setMsix c v e).now = s.now := rfl
@[simp] theorem setMsix_regs : (s.setMsix c v e).regs = s.regs := rfl
@[simp] theorem setMsix_banks : (s.setMsix c v e).banks = s.banks := rfl
@[simp] theorem setMsix_fns : (s.setMsix c v e).fns = s.fns := rfl
@[simp] theorem setMsix_pba : (s.setMsix c v e).pba = s.pba := rfl
@[simp] theorem setMsix_held : (s.setMsix c v e).held = s.held := rfl
@[simp] theorem setMsix_msixDue : (s.setMsix c v e).msixDue = s.msixDue := rfl
@[simp] theorem setMsix_irqStacks : (s.setMsix c v e).irqStacks = s.irqStacks := rfl
@[simp] theorem setMsix_holdLeft : (s.setMsix c v e).holdLeft = s.holdLeft := rfl
@[simp] theorem setMsix_dev : (s.setMsix c v e).dev = s.dev := rfl
@[simp] theorem setMsix_flt : (s.setMsix c v e).flt = s.flt := rfl
@[simp] theorem setMsix_pfs : (s.setMsix c v e).pfs = s.pfs := rfl
@[simp] theorem setMsix_ul : (s.setMsix c v e).ul = s.ul := rfl
@[simp] theorem setMsix_lines : (s.setMsix c v e).lines = s.lines := rfl
@[simp] theorem setMsix_deferred : (s.setMsix c v e).deferred = s.deferred := rfl
@[simp] theorem setMsix_hl : (s.setMsix c v e).hl = s.hl := rfl
@[simp] theorem setMsix_ctxs : (s.setMsix c v e).ctxs = s.ctxs := rfl
@[simp] theorem setMsix_qps : (s.setMsix c v e).qps = s.qps := rfl
@[simp] theorem setMsix_lbs : (s.setMsix c v e).lbs = s.lbs := rfl
@[simp] theorem setMsix_hreads : (s.setMsix c v e).hreads = s.hreads := rfl
@[simp] theorem setMsix_cad : (s.setMsix c v e).cad = s.cad := rfl
@[simp] theorem setMsix_cmds : (s.setMsix c v e).cmds = s.cmds := rfl
@[simp] theorem setMsix_inForce : (s.setMsix c v e).inForce = s.inForce := rfl
@[simp] theorem setMsix_ds : (s.setMsix c v e).ds = s.ds := rfl
@[simp] theorem setMsix_ritems : (s.setMsix c v e).ritems = s.ritems := rfl
@[simp] theorem setMsix_med : (s.setMsix c v e).med = s.med := rfl
@[simp] theorem setMsix_mbx : (s.setMsix c v e).mbx = s.mbx := rfl
@[simp] theorem setMsix_pwr : (s.setMsix c v e).pwr = s.pwr := rfl
@[simp] theorem setMsix_pel : (s.setMsix c v e).pel = s.pel := rfl
@[simp] theorem setMsix_tap : (s.setMsix c v e).tap = s.tap := rfl
@[simp] theorem setMsix_fuses : (s.setMsix c v e).fuses = s.fuses := rfl
@[simp] theorem setMsix_fw : (s.setMsix c v e).fw = s.fw := rfl
@[simp] theorem setMsix_word (b : Nat) : (s.setMsix c v e).word b = s.word b := rfl
@[simp] theorem setMsix_get (g : Field) : (s.setMsix c v e).get g = s.get g := rfl
@[simp] theorem setMsix_isSet (g : Field) : (s.setMsix c v e).isSet g = s.isSet g := rfl
@[simp] theorem setMsix_mode : (s.setMsix c v e).mode = s.mode := rfl
@[simp] theorem setMsix_link (j : Nat) : (s.setMsix c v e).link j = s.link j := rfl
@[simp] theorem setMsix_fn (j : Nat) : (s.setMsix c v e).fn j = s.fn j := rfl
@[simp] theorem setMsix_lb (j : Nat) : (s.setMsix c v e).lb j = s.lb j := rfl
@[simp] theorem setMsix_ctx (j : Nat) : (s.setMsix c v e).ctx j = s.ctx j := rfl
@[simp] theorem setMsix_qp (j i : Nat) : (s.setMsix c v e).qp j i = s.qp j i := rfl

end setMsixLaws

section setStackLaws

variable (s : State) (c : Nat) (l : List (Nat × Nat))

@[simp] theorem setStack_pending : (s.setStack c l).pending = s.pending := rfl
@[simp] theorem setStack_out : (s.setStack c l).out = s.out := rfl
@[simp] theorem setStack_draws : (s.setStack c l).draws = s.draws := rfl
@[simp] theorem setStack_now : (s.setStack c l).now = s.now := rfl
@[simp] theorem setStack_regs : (s.setStack c l).regs = s.regs := rfl
@[simp] theorem setStack_banks : (s.setStack c l).banks = s.banks := rfl
@[simp] theorem setStack_fns : (s.setStack c l).fns = s.fns := rfl
@[simp] theorem setStack_msix : (s.setStack c l).msix = s.msix := rfl
@[simp] theorem setStack_pba : (s.setStack c l).pba = s.pba := rfl
@[simp] theorem setStack_held : (s.setStack c l).held = s.held := rfl
@[simp] theorem setStack_msixDue : (s.setStack c l).msixDue = s.msixDue := rfl
@[simp] theorem setStack_holdLeft : (s.setStack c l).holdLeft = s.holdLeft := rfl
@[simp] theorem setStack_dev : (s.setStack c l).dev = s.dev := rfl
@[simp] theorem setStack_flt : (s.setStack c l).flt = s.flt := rfl
@[simp] theorem setStack_pfs : (s.setStack c l).pfs = s.pfs := rfl
@[simp] theorem setStack_ul : (s.setStack c l).ul = s.ul := rfl
@[simp] theorem setStack_lines : (s.setStack c l).lines = s.lines := rfl
@[simp] theorem setStack_deferred : (s.setStack c l).deferred = s.deferred := rfl
@[simp] theorem setStack_hl : (s.setStack c l).hl = s.hl := rfl
@[simp] theorem setStack_ctxs : (s.setStack c l).ctxs = s.ctxs := rfl
@[simp] theorem setStack_qps : (s.setStack c l).qps = s.qps := rfl
@[simp] theorem setStack_lbs : (s.setStack c l).lbs = s.lbs := rfl
@[simp] theorem setStack_hreads : (s.setStack c l).hreads = s.hreads := rfl
@[simp] theorem setStack_cad : (s.setStack c l).cad = s.cad := rfl
@[simp] theorem setStack_cmds : (s.setStack c l).cmds = s.cmds := rfl
@[simp] theorem setStack_inForce : (s.setStack c l).inForce = s.inForce := rfl
@[simp] theorem setStack_ds : (s.setStack c l).ds = s.ds := rfl
@[simp] theorem setStack_ritems : (s.setStack c l).ritems = s.ritems := rfl
@[simp] theorem setStack_med : (s.setStack c l).med = s.med := rfl
@[simp] theorem setStack_mbx : (s.setStack c l).mbx = s.mbx := rfl
@[simp] theorem setStack_pwr : (s.setStack c l).pwr = s.pwr := rfl
@[simp] theorem setStack_pel : (s.setStack c l).pel = s.pel := rfl
@[simp] theorem setStack_tap : (s.setStack c l).tap = s.tap := rfl
@[simp] theorem setStack_fuses : (s.setStack c l).fuses = s.fuses := rfl
@[simp] theorem setStack_fw : (s.setStack c l).fw = s.fw := rfl
@[simp] theorem setStack_word (b : Nat) : (s.setStack c l).word b = s.word b := rfl
@[simp] theorem setStack_get (g : Field) : (s.setStack c l).get g = s.get g := rfl
@[simp] theorem setStack_isSet (g : Field) : (s.setStack c l).isSet g = s.isSet g := rfl
@[simp] theorem setStack_mode : (s.setStack c l).mode = s.mode := rfl
@[simp] theorem setStack_link (j : Nat) : (s.setStack c l).link j = s.link j := rfl
@[simp] theorem setStack_fn (j : Nat) : (s.setStack c l).fn j = s.fn j := rfl
@[simp] theorem setStack_lb (j : Nat) : (s.setStack c l).lb j = s.lb j := rfl
@[simp] theorem setStack_ctx (j : Nat) : (s.setStack c l).ctx j = s.ctx j := rfl
@[simp] theorem setStack_qp (j i : Nat) : (s.setStack c l).qp j i = s.qp j i := rfl

end setStackLaws

/-! ## Tables: the entry written and every other one -/

@[simp] theorem fnUpd_same (s : State) (k : Nat) (f : Fn → Fn) : (s.fnUpd k f).fn k = f (s.fn k) := by
  simp [State.fnUpd, State.fn]

theorem fnUpd_ne (s : State) {k j : Nat} (f : Fn → Fn) (h : j ≠ k) : (s.fnUpd k f).fn j = s.fn j := by
  simp [State.fnUpd, State.fn, tabGet_tabSet_ne _ _ _ h]

@[simp] theorem linkUpd_same (s : State) (k : Nat) (f : Ul → Ul) : (s.linkUpd k f).link k = f (s.link k) := by
  simp [State.linkUpd, State.link]

theorem linkUpd_ne (s : State) {k j : Nat} (f : Ul → Ul) (h : j ≠ k) : (s.linkUpd k f).link j = s.link j := by
  simp [State.linkUpd, State.link, tabGet_tabSet_ne _ _ _ h]

@[simp] theorem lbUpd_same (s : State) (k : Nat) (f : Lb → Lb) : (s.lbUpd k f).lb k = f (s.lb k) := by
  simp [State.lbUpd, State.lb]

theorem lbUpd_ne (s : State) {k j : Nat} (f : Lb → Lb) (h : j ≠ k) : (s.lbUpd k f).lb j = s.lb j := by
  simp [State.lbUpd, State.lb, tabGet_tabSet_ne _ _ _ h]

@[simp] theorem ctxUpd_same (s : State) (k : Nat) (f : Ctx → Ctx) : (s.ctxUpd k f).ctx k = f (s.ctx k) := by
  simp [State.ctxUpd, State.ctx]

theorem ctxUpd_ne (s : State) {k j : Nat} (f : Ctx → Ctx) (h : j ≠ k) : (s.ctxUpd k f).ctx j = s.ctx j := by
  simp [State.ctxUpd, State.ctx, tabGet_tabSet_ne _ _ _ h]

@[simp] theorem setPba_same (s : State) (c : Nat) (v : BitVec 64) : (s.setPba c v).pbaOf c = v := by
  simp [State.setPba, State.pbaOf]

@[simp] theorem setHeld_same (s : State) (c : Nat) (v : BitVec 64) : (s.setHeld c v).heldOf c = v := by
  simp [State.setHeld, State.heldOf]

@[simp] theorem setMsix_same (s : State) (c v : Nat) (e : MsixEntry) : (s.setMsix c v e).msixAt c v = e := by
  simp [State.setMsix, State.msixAt]

@[simp] theorem setStack_same (s : State) (c : Nat) (l : List (Nat × Nat)) : (s.setStack c l).stack c = l := by
  simp [State.setStack, State.stack]

/-! ## Counters -/

/-- A saturating counter steps by `n` up to its maximum. -/
theorem get_inc_same (s : State) (f : Field) (n : Nat) (h : f.Fits) : (s.inc f n).get f = min f.max (s.get f + n) := by
  unfold State.inc
  rw [get_set_same s f _ h]
  exact Nat.mod_eq_of_lt (by unfold Field.max; have := Nat.two_pow_pos (f.hi + 1 - f.lo); omega)

@[simp] theorem get_inc_apart (s : State) (f g : Field) (n : Nat) (h : f.Apart g) : (s.inc f n).get g = s.get g :=
  get_set_apart s f g _ h

@[simp] theorem get_dec_apart (s : State) (f g : Field) (n : Nat) (h : f.Apart g) : (s.dec f n).get g = s.get g :=
  get_set_apart s f g _ h

/-- The mode is its field, and every update of another field leaves it alone. -/
@[simp] theorem mode_set_apart (s : State) (f : Field) (v : Nat) (h : f.Apart Fld.DEV_MODE_MODE) : (s.set f v).mode = s.mode := by
  unfold State.mode; rw [get_set_apart s f _ v h]

@[simp] theorem isSet_set_apart (s : State) (f g : Field) (v : Nat) (h : f.Apart g) : (s.set f v).isSet g = s.isSet g := by
  unfold State.isSet; rw [get_set_apart s f g v h]

@[simp] theorem doIf_true (f : State → State) (s : State) : doIf true f s = f s := rfl

@[simp] theorem doIf_false (f : State → State) (s : State) : doIf false f s = s := rfl

/-! ## What waits: for the boundary, and in the receive buffers of the host link -/

section waitLaws

variable (s : State) (d : Deferred) (c : Nat) (t : Stroke) (rest : Bool) (w : RxWhat)

@[simp] theorem atBoundary_pending : (atBoundary d s).pending = s.pending := rfl
@[simp] theorem atBoundary_out : (atBoundary d s).out = s.out := rfl
@[simp] theorem atBoundary_draws : (atBoundary d s).draws = s.draws := rfl
@[simp] theorem atBoundary_now : (atBoundary d s).now = s.now := rfl
@[simp] theorem atBoundary_regs : (atBoundary d s).regs = s.regs := rfl
@[simp] theorem atBoundary_banks : (atBoundary d s).banks = s.banks := rfl
@[simp] theorem atBoundary_fns : (atBoundary d s).fns = s.fns := rfl
@[simp] theorem atBoundary_msix : (atBoundary d s).msix = s.msix := rfl
@[simp] theorem atBoundary_pba : (atBoundary d s).pba = s.pba := rfl
@[simp] theorem atBoundary_held : (atBoundary d s).held = s.held := rfl
@[simp] theorem atBoundary_msixDue : (atBoundary d s).msixDue = s.msixDue := rfl
@[simp] theorem atBoundary_dev : (atBoundary d s).dev = s.dev := rfl
@[simp] theorem atBoundary_flt : (atBoundary d s).flt = s.flt := rfl
@[simp] theorem atBoundary_pfs : (atBoundary d s).pfs = s.pfs := rfl
@[simp] theorem atBoundary_ul : (atBoundary d s).ul = s.ul := rfl
@[simp] theorem atBoundary_lines : (atBoundary d s).lines = s.lines := rfl
@[simp] theorem atBoundary_deferred : (atBoundary d s).deferred = s.deferred ++ [d] := rfl
@[simp] theorem atBoundary_hl : (atBoundary d s).hl = s.hl := rfl
@[simp] theorem atBoundary_ctxs : (atBoundary d s).ctxs = s.ctxs := rfl
@[simp] theorem atBoundary_qps : (atBoundary d s).qps = s.qps := rfl
@[simp] theorem atBoundary_lbs : (atBoundary d s).lbs = s.lbs := rfl
@[simp] theorem atBoundary_hreads : (atBoundary d s).hreads = s.hreads := rfl
@[simp] theorem atBoundary_cad : (atBoundary d s).cad = s.cad := rfl
@[simp] theorem atBoundary_cmds : (atBoundary d s).cmds = s.cmds := rfl
@[simp] theorem atBoundary_inForce : (atBoundary d s).inForce = s.inForce := rfl
@[simp] theorem atBoundary_ds : (atBoundary d s).ds = s.ds := rfl
@[simp] theorem atBoundary_ritems : (atBoundary d s).ritems = s.ritems := rfl
@[simp] theorem atBoundary_med : (atBoundary d s).med = s.med := rfl
@[simp] theorem atBoundary_mbx : (atBoundary d s).mbx = s.mbx := rfl
@[simp] theorem atBoundary_pwr : (atBoundary d s).pwr = s.pwr := rfl
@[simp] theorem atBoundary_pel : (atBoundary d s).pel = s.pel := rfl
@[simp] theorem atBoundary_tap : (atBoundary d s).tap = s.tap := rfl
@[simp] theorem atBoundary_fuses : (atBoundary d s).fuses = s.fuses := rfl
@[simp] theorem atBoundary_fw : (atBoundary d s).fw = s.fw := rfl
@[simp] theorem atBoundary_word (b : Nat) : (atBoundary d s).word b = s.word b := rfl
@[simp] theorem atBoundary_get (g : Field) : (atBoundary d s).get g = s.get g := rfl
@[simp] theorem atBoundary_isSet (g : Field) : (atBoundary d s).isSet g = s.isSet g := rfl
@[simp] theorem atBoundary_mode : (atBoundary d s).mode = s.mode := rfl

@[simp] theorem rxHold_pending : (rxHold c t rest w s).pending = s.pending := rfl
@[simp] theorem rxHold_out : (rxHold c t rest w s).out = s.out := rfl
@[simp] theorem rxHold_draws : (rxHold c t rest w s).draws = s.draws := rfl
@[simp] theorem rxHold_now : (rxHold c t rest w s).now = s.now := rfl
@[simp] theorem rxHold_regs : (rxHold c t rest w s).regs = s.regs := rfl
@[simp] theorem rxHold_banks : (rxHold c t rest w s).banks = s.banks := rfl
@[simp] theorem rxHold_fns : (rxHold c t rest w s).fns = s.fns := rfl
@[simp] theorem rxHold_msix : (rxHold c t rest w s).msix = s.msix := rfl
@[simp] theorem rxHold_pba : (rxHold c t rest w s).pba = s.pba := rfl
@[simp] theorem rxHold_held : (rxHold c t rest w s).held = s.held := rfl
@[simp] theorem rxHold_msixDue : (rxHold c t rest w s).msixDue = s.msixDue := rfl
@[simp] theorem rxHold_dev : (rxHold c t rest w s).dev = s.dev := rfl
@[simp] theorem rxHold_flt : (rxHold c t rest w s).flt = s.flt := rfl
@[simp] theorem rxHold_pfs : (rxHold c t rest w s).pfs = s.pfs := rfl
@[simp] theorem rxHold_ul : (rxHold c t rest w s).ul = s.ul := rfl
@[simp] theorem rxHold_lines : (rxHold c t rest w s).lines = s.lines := rfl
@[simp] theorem rxHold_deferred : (rxHold c t rest w s).deferred = s.deferred := rfl
@[simp] theorem rxHold_ctxs : (rxHold c t rest w s).ctxs = s.ctxs := rfl
@[simp] theorem rxHold_qps : (rxHold c t rest w s).qps = s.qps := rfl
@[simp] theorem rxHold_lbs : (rxHold c t rest w s).lbs = s.lbs := rfl
@[simp] theorem rxHold_hreads : (rxHold c t rest w s).hreads = s.hreads := rfl
@[simp] theorem rxHold_cmds : (rxHold c t rest w s).cmds = s.cmds := rfl
@[simp] theorem rxHold_inForce : (rxHold c t rest w s).inForce = s.inForce := rfl
@[simp] theorem rxHold_ds : (rxHold c t rest w s).ds = s.ds := rfl
@[simp] theorem rxHold_ritems : (rxHold c t rest w s).ritems = s.ritems := rfl
@[simp] theorem rxHold_med : (rxHold c t rest w s).med = s.med := rfl
@[simp] theorem rxHold_mbx : (rxHold c t rest w s).mbx = s.mbx := rfl
@[simp] theorem rxHold_pwr : (rxHold c t rest w s).pwr = s.pwr := rfl
@[simp] theorem rxHold_pel : (rxHold c t rest w s).pel = s.pel := rfl
@[simp] theorem rxHold_tap : (rxHold c t rest w s).tap = s.tap := rfl
@[simp] theorem rxHold_fuses : (rxHold c t rest w s).fuses = s.fuses := rfl
@[simp] theorem rxHold_fw : (rxHold c t rest w s).fw = s.fw := rfl
@[simp] theorem rxHold_rx : (rxHold c t rest w s).hl.rx = s.hl.rx ++ [⟨s.cad.nextId, c, t, rest, w⟩] := rfl
@[simp] theorem rxHold_tags : (rxHold c t rest w s).hl.tags = s.hl.tags := rfl
@[simp] theorem rxHold_items : (rxHold c t rest w s).cad.items = s.cad.items := rfl
@[simp] theorem rxHold_word (b : Nat) : (rxHold c t rest w s).word b = s.word b := rfl
@[simp] theorem rxHold_get (g : Field) : (rxHold c t rest w s).get g = s.get g := rfl
@[simp] theorem rxHold_isSet (g : Field) : (rxHold c t rest w s).isSet g = s.isSet g := rfl
@[simp] theorem rxHold_mode : (rxHold c t rest w s).mode = s.mode := rfl

end waitLaws

end Sys2Proof.Machine
end

