-- ==== Sys2Proof/Laws/Ops.lean ====
section
/-! SUPPORT. Laws/Ops.lean: which registers the shared operations may write: interrupt triggers, raised sources, error reports,
the fault log, mode transitions. -/
set_option Elab.async false

namespace Sys2Proof.Machine

variable {l l' : List Nat} {r s t u : State}

theorem regsOnly_refl (l : List Nat) (s : State) : RegsOnly l s s := fun _ _ => rfl

theorem regsOnly_trans (h : RegsOnly l s t) (h' : RegsOnly l t u) : RegsOnly l s u := fun a ha => (h' a ha).trans (h a ha)

theorem regsOnly_mono (h : RegsOnly l s t) (hl : ∀ a ∈ l, a ∈ l') : RegsOnly l' s t := fun a ha => h a fun hm => ha (hl a hm)

/-- A change of other parts of State keeps every register. -/
theorem regsOnly_eq (h : RegsOnly l r s) (he : t.regs = s.regs) : RegsOnly l r t := fun a ha => by
  have : t.word a = s.word a := by unfold State.word; rw [he]
  rw [this, h a ha]

theorem regsOnly_pfs (h : RegsOnly l r s) (p : Pfs) : RegsOnly l r { s with pfs := p } := h

theorem regsOnly_fnUpd (h : RegsOnly l r s) (c : Nat) (f : Fn → Fn) : RegsOnly l r (s.fnUpd c f) := h

theorem regsOnly_emit (h : RegsOnly l r s) (o : Out) : RegsOnly l r (emit o s) := h

theorem regsOnly_setWord (h : RegsOnly l r s) {a : Nat} (v : Word) (ha : a ∈ l) : RegsOnly l r (s.setWord a v) := fun b hb => by
  rw [word_setWord_ne s v (fun he : b = a => hb (by rw [he]; exact ha)), h b hb]

theorem regsOnly_set (h : RegsOnly l r s) {f : Field} (v : Nat) (ha : f.addr ∈ l) : RegsOnly l r (s.set f v) :=
  regsOnly_setWord h _ ha

theorem regsOnly_inc (h : RegsOnly l r s) {f : Field} (n : Nat) (ha : f.addr ∈ l) : RegsOnly l r (s.inc f n) :=
  regsOnly_set h _ ha

theorem regsOnly_doIf (h : RegsOnly l r s) {c : Bool} {f : State → State} (hf : ∀ s, RegsOnly l r s → RegsOnly l r (f s)) :
    RegsOnly l r (doIf c f s) := by
  cases c
  · exact h
  · exact hf s h

theorem regsOnly_doAll {α : Type} {f : α → State → State} (hf : ∀ a s, RegsOnly l r s → RegsOnly l r (f a s)) (k : List α)
    (h : RegsOnly l r s) : RegsOnly l r (doAll k f s) := by
  unfold doAll
  induction k generalizing s with
  | nil => exact h
  | cons a k ih => exact ih (hf a s h)

theorem regsOnly_word (h : RegsOnly l s t) {a : Nat} (ha : a ∉ l) : t.word a = s.word a := h a ha

theorem regsOnly_get (h : RegsOnly l s t) {f : Field} (ha : f.addr ∉ l) : t.get f = s.get f := by
  unfold State.get; rw [h f.addr ha]

/-! ## Raised sources -/

theorem regsOnly_linkUpd (h : RegsOnly l r s) (k : Nat) (f : Ul → Ul) : RegsOnly l r (s.linkUpd k f) := h

theorem regsOnly_emitUnit (k : Nat) (unit : List Byte) (h : RegsOnly l r s) : RegsOnly l r (emitUnit k unit s) :=
  regsOnly_eq (s := s) h (by unfold emitUnit lineSend; simp)

theorem regsOnly_emitBypass (k bt : Nat) (q : Bool) (b : Nat) (body : List Byte) (h : RegsOnly l r s) :
    RegsOnly l r (emitBypass k bt q b body s) := by
  unfold emitBypass bypassOut
  split
  · exact regsOnly_linkUpd h _ _
  · exact regsOnly_emit (regsOnly_emitUnit _ _ (regsOnly_linkUpd h _ _)) _

theorem regsOnly_sendBypass (k bt : Nat) (body : List Byte) (h : RegsOnly l r s) : RegsOnly l r (sendBypass k bt body s) := by
  unfold sendBypass
  simp only
  split
  · split
    · exact regsOnly_emitBypass _ _ _ _ _ (regsOnly_linkUpd h _ _)
    · exact regsOnly_linkUpd h _ _
  · exact regsOnly_emitBypass _ _ _ _ _ h

theorem regsOnly_pfsTrigger (b : Nat) (hm : Fld.PFS_STAT_MISSED.addr ∈ l) (h : RegsOnly l r s) :
    RegsOnly l r (pfsTrigger b s) := by
  have hs : ∀ (ks : List Nat) (body : List Byte) (s : State), RegsOnly l r s →
      RegsOnly l r (doAll ks (fun k => sendBypass k 12 body) s) :=
    fun ks body s h => regsOnly_doAll (fun k s h => regsOnly_sendBypass k 12 body h) ks h
  have hi : ∀ s, RegsOnly l r s → RegsOnly l r (pfsMissed s) := fun s h => regsOnly_inc h _ hm
  unfold pfsTrigger
  split
  · dsimp only
    split
    · split
      · exact regsOnly_pfs h _
      · split
        · exact regsOnly_pfs (hs _ _ _ (regsOnly_pfs h _)) _
        · split
          · exact hi _ (regsOnly_pfs (hs _ _ _ (regsOnly_pfs h _)) _)
          · exact hi _ (hs _ _ _ (regsOnly_pfs h _))
    · split
      · exact hi _ (hs _ _ _ (regsOnly_pfs h _))
      · exact regsOnly_set (f := Fld.PFS_STAT_PEL_PENDING) (regsOnly_pfs (hs _ _ _ (regsOnly_pfs h _)) _) _ hm
  · split
    · exact hi _ h
    · split
      · exact regsOnly_pfs h _
      · exact regsOnly_pfs h _

theorem regsOnly_noteWake (n : Nat) (h : RegsOnly l r s) : RegsOnly l r (noteWake n s) := by
  unfold noteWake
  split
  · exact regsOnly_eq h rfl
  · exact h

theorem regsOnly_raiseEdge (n : Nat) (hp : Adr.IC_PEND (n / 32) ∈ l) (hlo : Adr.KS_WAKE_LATCH_LO ∈ l)
    (hhi : Adr.KS_WAKE_LATCH_HI ∈ l) (hm : Fld.PFS_STAT_MISSED.addr ∈ l) (h : RegsOnly l r s) :
    RegsOnly l r (raiseEdge n s) := by
  have h0 := regsOnly_doIf (c := !servedAsleep s n) h (fun s h => regsOnly_noteWake n h)
  unfold raiseEdge
  refine regsOnly_doIf ?_ (fun s h => regsOnly_pfsTrigger 2 hm h)
  split
  · split
    · split
      · exact regsOnly_setWord h0 _ hlo
      · exact regsOnly_setWord h0 _ hhi
    · exact h0
  · exact regsOnly_setWord h0 _ hp

theorem mem_raiseRegs {n a : Nat} (h : a ∈ [Adr.IC_PEND 0, Adr.KS_WAKE_LATCH_LO, Adr.KS_WAKE_LATCH_HI, Fld.PFS_STAT_MISSED.addr,
    Fld.EV_MSIX_CNT_SENT.addr, Fld.EV_DROP_D3COLD.addr, Fld.EV_PME_PME_SENT.addr, Fld.HL_LINK_STATUS_LSTATE.addr,
    (Fld.CTX_EVT_STATUS_EVT 0).addr, Fld.MBX_BC_ATTN_MODE.addr]) : a ∈ raiseRegs n := List.mem_cons_of_mem _ h

theorem regsOnly_raiseEdge_raise (n : Nat) (h : RegsOnly (raiseRegs n) r s) : RegsOnly (raiseRegs n) r (raiseEdge n s) :=
  regsOnly_raiseEdge n List.mem_cons_self (mem_raiseRegs (by decide)) (mem_raiseRegs (by decide)) (mem_raiseRegs (by decide)) h

theorem regsOnly_devUpd (h : RegsOnly l r s) (f : Dev → Dev) : RegsOnly l r (s.devUpd f) := h

theorem regsOnly_sendPme (n c : Nat) (h : RegsOnly (raiseRegs n) r s) : RegsOnly (raiseRegs n) r (sendPme c s) := by
  unfold sendPme
  refine regsOnly_fnUpd (regsOnly_inc ?_ _ (mem_raiseRegs (by decide))) _ _
  split
  · exact regsOnly_devUpd h _
  · exact regsOnly_emit h _

theorem regsOnly_signalPme (n c : Nat) (h : RegsOnly (raiseRegs n) r s) : RegsOnly (raiseRegs n) r (signalPme c s) := by
  unfold signalPme
  split
  · exact h
  · exact regsOnly_doIf (regsOnly_fnUpd h _ _) fun s h => regsOnly_sendPme n c h

theorem regsOnly_hl (h : RegsOnly l r s) (x : Hl) : RegsOnly l r { s with hl := x } := h

theorem regsOnly_backToL0 (h : RegsOnly l r s) : RegsOnly l r (backToL0 s) := regsOnly_eq h rfl

theorem regsOnly_leaveL1 (n : Nat) (h : RegsOnly (raiseRegs n) r s) : RegsOnly (raiseRegs n) r (leaveL1 s) := by
  have he : ∀ x, RegsOnly (raiseRegs n) r x → RegsOnly (raiseRegs n) r (raiseEdge 24 x) := fun x hx =>
    regsOnly_raiseEdge 24 (mem_raiseRegs (by decide)) (mem_raiseRegs (by decide)) (mem_raiseRegs (by decide)) (mem_raiseRegs (by decide)) hx
  have hs := regsOnly_set (f := Fld.HL_LINK_STATUS_LSTATE) h (l0State s) (mem_raiseRegs (by decide))
  have hb := regsOnly_backToL0 (regsOnly_hl hs { s.hl with sub := 0 })
  unfold leaveL1
  split
  · exact he _ (regsOnly_doIf hb he)
  · exact h

theorem regsOnly_sendMsix (n c v : Nat) (q : Option Nat) (h : RegsOnly (raiseRegs n) r s) :
    RegsOnly (raiseRegs n) r (sendMsix c v q s) := by
  unfold sendMsix
  split
  · exact h
  · exact h

theorem regsOnly_trigger (n c v : Nat) (h : RegsOnly (raiseRegs n) r s) : RegsOnly (raiseRegs n) r (trigger c v none s) := by
  unfold trigger
  split
  · exact regsOnly_inc h _ (mem_raiseRegs (by decide))
  · split
    · exact regsOnly_inc h _ (mem_raiseRegs (by decide))
    · split
      · exact regsOnly_inc h _ (mem_raiseRegs (by decide))
      · split
        · simp only [countCqEvt, holdMsix]
          have h1 : RegsOnly (raiseRegs n) r (doIf (!(s.heldOf c).getLsbD v) (fun x => x.inc Fld.EV_PME_HELD 1) s) :=
            regsOnly_doIf h fun s h => regsOnly_inc h _ (mem_raiseRegs (by decide))
          exact regsOnly_signalPme n c (regsOnly_eq h1 rfl)
        · split
          · exact regsOnly_eq h rfl
          · split
            · exact regsOnly_eq h rfl
            · simp only [countCqEvt]
              exact regsOnly_sendMsix n c v none (regsOnly_leaveL1 n h)

theorem regsOnly_ctxEvent (n b : Nat) (h : RegsOnly (raiseRegs n) r s) : RegsOnly (raiseRegs n) r (ctxEvent 0 b s) := by
  unfold ctxEvent
  simp only
  split
  · exact h
  · exact regsOnly_doIf (regsOnly_set h _ (mem_raiseRegs (by decide))) fun s h => regsOnly_trigger n 0 _ h

/-- Raising a source writes no register outside raiseRegs. -/
theorem regsOnly_raise (n : Nat) (s : State) : RegsOnly (raiseRegs n) s (raise n s) := by
  have hb : ∀ (f : Field), f.addr ∈ raiseRegs n → ∀ x, RegsOnly (raiseRegs n) s x → RegsOnly (raiseRegs n) s (bcAttn f x) :=
    fun f hf x hx => regsOnly_set hx _ hf
  unfold raise
  refine regsOnly_doIf (regsOnly_doIf (regsOnly_doIf (regsOnly_doIf (regsOnly_doIf ?_ ?_) ?_) ?_) ?_) ?_
  · exact regsOnly_raiseEdge_raise n (regsOnly_refl _ _)
  · exact fun x hx => hb _ (mem_raiseRegs (by decide)) _ (regsOnly_ctxEvent n 5 hx)
  · exact fun x hx => hb _ (mem_raiseRegs (by decide)) _ (regsOnly_ctxEvent n 6 hx)
  · exact fun x hx => regsOnly_ctxEvent n 7 hx
  · exact hb _ (mem_raiseRegs (by decide))
  · exact hb _ (mem_raiseRegs (by decide))

@[simp] theorem get_raise (n : Nat) (s : State) (f : Field) (h : f.addr ∉ raiseRegs n) : (raise n s).get f = s.get f :=
  regsOnly_get (regsOnly_raise n s) h

@[simp] theorem word_raise (n : Nat) (s : State) (a : Nat) (h : a ∉ raiseRegs n) : (raise n s).word a = s.word a :=
  regsOnly_raise n s a h

@[simp] theorem isSet_raise (n : Nat) (s : State) (f : Field) (h : f.addr ∉ raiseRegs n) : (raise n s).isSet f = s.isSet f := by
  unfold State.isSet; rw [get_raise n s f h]

@[simp] theorem mode_raise (n : Nat) (s : State) (h : Fld.DEV_MODE_MODE.addr ∉ raiseRegs n) : (raise n s).mode = s.mode := by
  unfold State.mode; rw [get_raise n s _ h]

/-! ## Error reports and the fault log -/

theorem get_aerMessage (c b : Nat) (masked : Bool) (what : String) (s : State) (f : Field) :
    (aerMessage c b masked what s).get f = s.get f := by
  cases masked <;> rfl

theorem get_aerCor (c b : Nat) (s : State) (f : Field) (h : f.addr ∉ raiseRegs 28) : (aerCor c b s).get f = s.get f :=
  (get_raise 28 _ f h).trans (get_aerMessage ..)

theorem get_aerUnc (c b : Nat) (k : AerHdr) (s : State) (f : Field) (h : f.addr ∉ raiseRegs 28) : (aerUnc c b k s).get f = s.get f := by
  unfold aerUnc
  simp only
  split
  · exact (get_raise 30 _ f h).trans (get_aerMessage ..)
  · exact (get_raise 29 _ f h).trans (get_aerMessage ..)

@[simp] theorem get_reportCie (s : State) (f : Field) (h : f.addr ∉ raiseRegs 28) : (reportCie s).get f = s.get f :=
  get_aerCor 0 14 s f h

@[simp] theorem get_reportUie (s : State) (f : Field) (h : f.addr ∉ raiseRegs 28) : (reportUie s).get f = s.get f :=
  get_aerUnc 0 22 .none s f h

@[simp] theorem get_logEv (code : Nat) (d : List Byte) (s : State) (f : Field)
    (h : f.addr ∉ [Fld.DEV_FAULT_LOG_VALID.addr, Fld.DEV_FAULT_TS_STROKE_LO.addr]) : (logEv code d s).get f = s.get f := by
  have hm : ∀ x, RegsOnly [Fld.DEV_FAULT_LOG_VALID.addr, Fld.DEV_FAULT_TS_STROKE_LO.addr] s x → x.get f = s.get f :=
    fun x hx => regsOnly_get hx h
  unfold logEv
  refine hm _ (regsOnly_set (regsOnly_set (regsOnly_set (regsOnly_eq (regsOnly_refl _ _) rfl) _ ?_) _ ?_) _ ?_) <;> decide

end Sys2Proof.Machine
end

