-- ==== Sys2Proof/Laws/PerInstr.lean ====
section
/-! SUPPORT. Laws/PerInstr.lean: one lemma per row: no table word spells it, since no row of the table gives bits. -/
set_option Elab.async false

namespace Sys2Proof.Laws.Row

/-- No word of any length spells the command. -/
def Statement (i : Instr) : Prop := ∀ nbits w : Nat, decodeTableWord nbits w ≠ some i

theorem sysRstNRelease (straps : BitVec 8) : Statement (.sysRstNRelease straps) := nofun
theorem bootCopyAccepted (unread mute : BitVec 4) : Statement (.bootCopyAccepted unread mute) := nofun
theorem bootNoCopyAccepted (unread mute : BitVec 4) : Statement (.bootNoCopyAccepted unread mute) := nofun
theorem functionsReady (nand : List NandChannel) (dram : DramOrg) : Statement (.functionsReady nand dram) := nofun
theorem thermTripRecognised (external : Bool) : Statement (.thermTripRecognised external) := nofun
theorem devDrainLimitWrite (m : Master) (v : BitVec 10) : Statement (.devDrainLimitWrite m v) := nofun
theorem cadStrokeLoRead (m : Master) : Statement (.cadStrokeLoRead m) := nofun
theorem ptmDialogue (host : BitVec 64) : Statement (.ptmDialogue host) := nofun
theorem cadPtmCtlWrite (v : Word) : Statement (.cadPtmCtlWrite v) := nofun
theorem levelChangeOrder (fw : Option (Fin 4)) : Statement (.levelChangeOrder fw) := nofun
theorem thermalRefresh (t0 t1 t2 t3 t4 t5 t6 t7 : BitVec 16) : Statement (.thermalRefresh t0 t1 t2 t3 t4 t5 t6 t7) := nofun
theorem hlLinkUp (width : Fin 17) (speed : Fin 7) (flit : Bool) : Statement (.hlLinkUp width speed flit) := nofun
theorem hlLaneFail (pass : BitVec 16) : Statement (.hlLaneFail pass) := nofun
theorem configRequest (c dw : Fin 1024) (wr : Option (BitVec 32 × BitVec 4)) : Statement (.configRequest c dw wr) := nofun
theorem vfEnableSet (n : BitVec 16) (ari : Bool) : Statement (.vfEnableSet n ari) := nofun
theorem barSizeWrite (vf bar4 : Bool) (log2 : Fin 64) : Statement (.barSizeWrite vf bar4 log2) := nofun
theorem busMasterEnableWrite (c : Fin 1024) (v : Bool) : Statement (.busMasterEnableWrite c v) := nofun
theorem pmcsrWrite (c : Fin 1024) (d3 pmeEn clrStatus : Bool) : Statement (.pmcsrWrite c d3 pmeEn clrStatus) := nofun
theorem d0Return (c : Fin 1024) : Statement (.d0Return c) := nofun
theorem flrReceived (c : Fin 1024) : Statement (.flrReceived c) := nofun
theorem flrComplete (c : Fin 1024) : Statement (.flrComplete c) := nofun
theorem hostReadBar2 (c : Fin 1024) (off : BitVec 34) (len : Fin 4097) : Statement (.hostReadBar2 c off len) := nofun
theorem hostWriteBar2 (c : Fin 1024) (off : BitVec 34) (data : List Byte) : Statement (.hostWriteBar2 c off data) := nofun
theorem hostReadBar4 (c : Fin 1024) (off : BitVec 36) (len : Fin 4097) : Statement (.hostReadBar4 c off len) := nofun
theorem hostWriteBar4 (c : Fin 1024) (off : BitVec 36) (data : List Byte) : Statement (.hostWriteBar4 c off data) := nofun
theorem hostUnsupportedRequest (k : UnsupportedReq) : Statement (.hostUnsupportedRequest k) := nofun
theorem deviceRequestCompletion (c tag : Fin 1024) (st : Fin 4) (data : List Byte) : Statement (.deviceRequestCompletion c tag st data) := nofun
theorem deviceRequestTimeout (c tag : Fin 1024) : Statement (.deviceRequestTimeout c tag) := nofun
theorem atsTranslationCompletion (c : Fin 1024) (iova ta : Addr) (log2 : Fin 53) (r w u n g : Bool) : Statement (.atsTranslationCompletion c iova ta log2 r w u n g) := nofun
theorem atsInvalidationRequest (c : Fin 1024) (iova : Addr) (log2 : Fin 65) (itag : Fin 32) : Statement (.atsInvalidationRequest c iova log2 itag) := nofun
theorem atsInvalidationComplete (itag : Fin 32) : Statement (.atsInvalidationComplete itag) := nofun
theorem ctxSetShare (mb : Fin 1032) (core : Fin 4) (d : Fin 201) : Statement (.ctxSetShare mb core d) := nofun
theorem shareRecordApply (c : Fin 1024) : Statement (.shareRecordApply c) := nofun
theorem ctxQuery (mb : Fin 1032) (core : Fin 4) : Statement (.ctxQuery mb core) := nofun
theorem ctxReset (mb : Fin 1032) (core : Fin 4) (d : Fin 201) : Statement (.ctxReset mb core d) := nofun
theorem ctxDestroy (mb : Fin 1032) (core : Fin 4) (d : Fin 201) : Statement (.ctxDestroy mb core d) := nofun
theorem ctxWdogCfg (mb : Fin 1032) (core : Fin 4) : Statement (.ctxWdogCfg mb core) := nofun
theorem ctxList (mb : Fin 1032) (core : Fin 4) : Statement (.ctxList mb core) := nofun
theorem contextDrainStart (c : Fin 1024) : Statement (.contextDrainStart c) := nofun
theorem contextSquash (c : Fin 1024) : Statement (.contextSquash c) := nofun
theorem squashComplete (c : Fin 1024) : Statement (.squashComplete c) := nofun
theorem contextQuiesce (c : Fin 1024) : Statement (.contextQuiesce c) := nofun
theorem watchdogExpiry (c : Fin 1024) : Statement (.watchdogExpiry c) := nofun
theorem ctxWdogKickWrite (c : Fin 1024) : Statement (.ctxWdogKickWrite c) := nofun
theorem ctxSelWdogWrite (m : Master) (v : Word) : Statement (.ctxSelWdogWrite m v) := nofun
theorem tagQuarantineRelease (c tag : Fin 1024) (late : Bool) : Statement (.tagQuarantineRelease c tag late) := nofun
theorem qpEnable (c : Fin 1024) (q : Fin 64) : Statement (.qpEnable c q) := nofun
theorem qpDisable (c : Fin 1024) (q : Fin 64) : Statement (.qpDisable c q) := nofun
theorem doorbellWrite (c : Fin 1024) (q : Fin 64) (tail head : Option (BitVec 16)) : Statement (.doorbellWrite c q tail head) := nofun
theorem descriptorFetch (c : Fin 1024) (q : Fin 64) (data : List Byte) : Statement (.descriptorFetch c q data) := nofun
theorem descriptorFetchFail (c : Fin 1024) (q : Fin 64) (k : Fin 64) (data : List Byte) (why : FetchFailure) : Statement (.descriptorFetchFail c q k data why) := nofun
theorem descriptorDeal (c : Fin 1024) (q : Fin 64) (e : Fin 32) : Statement (.descriptorDeal c q e) := nofun
theorem nop (c : Fin 1024) (q : Fin 64) (slot : Fin 65536) : Statement (.nop c q slot) := nofun
theorem copy (c : Fin 1024) (q : Fin 64) (slot : Fin 65536) : Statement (.copy c q slot) := nofun
theorem fill (c : Fin 1024) (q : Fin 64) (slot : Fin 65536) : Statement (.fill c q slot) := nofun
theorem fence (c : Fin 1024) (q : Fin 64) (slot : Fin 65536) : Statement (.fence c q slot) := nofun
theorem persist (c : Fin 1024) (q : Fin 64) (slot : Fin 65536) : Statement (.persist c q slot) := nofun
theorem atomic (c : Fin 1024) (q : Fin 64) (slot : Fin 65536) : Statement (.atomic c q slot) := nofun
theorem send (c : Fin 1024) (q : Fin 64) (slot : Fin 65536) : Statement (.send c q slot) := nofun
theorem frameOut (c : Fin 1024) (q : Fin 64) (slot : Fin 65536) : Statement (.frameOut c q slot) := nofun
theorem mark (c : Fin 1024) (q : Fin 64) (slot : Fin 65536) : Statement (.mark c q slot) := nofun
theorem descriptorComplete (c : Fin 1024) (q : Fin 64) (slot : Fin 65536) : Statement (.descriptorComplete c q slot) := nofun
theorem completionEntryWrite (c : Fin 1024) (q : Fin 64) : Statement (.completionEntryWrite c q) := nofun
theorem qpAbortGo (c : Fin 1024) (q : Fin 64) : Statement (.qpAbortGo c q) := nofun
theorem abortResolve (c : Fin 1024) (q : Fin 64) : Statement (.abortResolve c q) := nofun
theorem spokeEngineFence (e : Fin 32) (journal : Bool) : Statement (.spokeEngineFence e journal) := nofun
theorem ctxWfenceRead (c : Fin 1024) : Statement (.ctxWfenceRead c) := nofun
theorem ctxWfenceReturn (c : Fin 1024) : Statement (.ctxWfenceReturn c) := nofun
theorem ctxWfenceTimeout (c : Fin 1024) : Statement (.ctxWfenceTimeout c) := nofun
theorem lbCtlEnWrite (p : Fin 4) (en : Bool) : Statement (.lbCtlEnWrite p en) := nofun
theorem lbRetrain (p : Fin 4) : Statement (.lbRetrain p) := nofun
theorem lbResetExit (p : Fin 4) : Statement (.lbResetExit p) := nofun
theorem lbReceiverLock (p : Fin 4) (delays : List (BitVec 7)) : Statement (.lbReceiverLock p delays) := nofun
theorem lbLockedBlocksReceived (p : Fin 4) : Statement (.lbLockedBlocksReceived p) := nofun
theorem lbTrainTimeout (p : Fin 4) (strobe : Bool) : Statement (.lbTrainTimeout p strobe) := nofun
theorem lbFailedGapExpiry (p : Fin 4) : Statement (.lbFailedGapExpiry p) := nofun
theorem lbTrainingBlocksInActive (p : Fin 4) : Statement (.lbTrainingBlocksInActive p) := nofun
theorem linkInitReceive (p : Fin 4) (counts : Word) (rev : BitVec 8) : Statement (.linkInitReceive p counts rev) := nofun
theorem linkCreditReceive (p : Fin 4) (credits : BitVec 16) : Statement (.linkCreditReceive p credits) := nofun
theorem linkNakReceive (p : Fin 4) (seq : BitVec 8) (credits : BitVec 16) : Statement (.linkNakReceive p seq credits) := nofun
theorem lbLinkError (p : Fin 4) (k : RxError) (credits : Option (BitVec 16)) : Statement (.lbLinkError p k credits) := nofun
theorem lbNakTimeout (p : Fin 4) : Statement (.lbNakTimeout p) := nofun
theorem lbCreditSend (p : Fin 4) : Statement (.lbCreditSend p) := nofun
theorem lbEgressPacket (p : Fin 4) : Statement (.lbEgressPacket p) := nofun
theorem lbReadReceive (p : Fin 4) (rx : Rx) (tag : Fin 512) (addr : BitVec 48) (len : Fin 512) : Statement (.lbReadReceive p rx tag addr len) := nofun
theorem lbWritePostedReceive (p : Fin 4) (rx : Rx) (addr : BitVec 48) (data : List Byte) : Statement (.lbWritePostedReceive p rx addr data) := nofun
theorem lbWriteAckedReceive (p : Fin 4) (rx : Rx) (tag : Fin 512) (addr : BitVec 48) (data : List Byte) : Statement (.lbWriteAckedReceive p rx tag addr data) := nofun
theorem lbMsgReceive (p : Fin 4) (rx : Rx) (id : BitVec 16) (data : List Byte) : Statement (.lbMsgReceive p rx id data) := nofun
theorem lbFrameReceive (p : Fin 4) (rx : Rx) (sof eof : Bool) (info : Word) (data : List Byte) : Statement (.lbFrameReceive p rx sof eof info data) := nofun
theorem lbSidebandReceive (p : Fin 4) (rx : Rx) (event : Fin 16) : Statement (.lbSidebandReceive p rx event) := nofun
theorem lbRespReceive (p : Fin 4) (rx : Rx) (tag : Fin 512) (code : BitVec 4) (data : List Byte) : Statement (.lbRespReceive p rx tag code data) := nofun
theorem lbAtomicReceive (p : Fin 4) (rx : Rx) : Statement (.lbAtomicReceive p rx) := nofun
theorem lbRetryLaterResend (p : Fin 4) (tag : Fin 512) : Statement (.lbRetryLaterResend p tag) := nofun
theorem windowCompletionTimeout (p : Fin 4) (tag : Fin 512) : Statement (.windowCompletionTimeout p tag) := nofun
theorem speculativeReadAbandon (p : Fin 4) : Statement (.speculativeReadAbandon p) := nofun
theorem prefetchBlockExpiry (p : Fin 4) : Statement (.prefetchBlockExpiry p) := nofun
theorem strandedEntryExpiry (p : Fin 4) (e : Fin 16) : Statement (.strandedEntryExpiry p e) := nofun
theorem lintEdge (p : Fin 4) (line : Fin 4) (rising : Bool) : Statement (.lintEdge p line rising) := nofun
theorem winMap (c : Fin 1024) (w : Fin 16) : Statement (.winMap c w) := nofun
theorem winUnmap (c : Fin 1024) (w : Fin 16) : Statement (.winUnmap c w) := nofun
theorem winAttrWrite (c : Fin 1024) (w : Fin 16) (v : Word) : Statement (.winAttrWrite c w v) := nofun
theorem routeEntryWrite (e : RouteSel) (v : BitVec 64) : Statement (.routeEntryWrite e v) := nofun
theorem routedItemDelivery (p : Fin 4) : Statement (.routedItemDelivery p) := nofun
theorem routedItemPeerSend (p : Fin 4) : Statement (.routedItemPeerSend p) := nofun
theorem aptCreate (mb : Fin 1032) (core : Fin 4) : Statement (.aptCreate mb core) := nofun
theorem aptAttach (mb : Fin 1032) (core : Fin 4) : Statement (.aptAttach mb core) := nofun
theorem aptDetach (mb : Fin 1032) (core : Fin 4) : Statement (.aptDetach mb core) := nofun
theorem aptErase (mb : Fin 1032) (core : Fin 4) : Statement (.aptErase mb core) := nofun
theorem aptQuery (mb : Fin 1032) (core : Fin 4) : Statement (.aptQuery mb core) := nofun
theorem writeAdmission (n : Fin 65536) : Statement (.writeAdmission n) := nofun
theorem ctxPersistRead (c : Fin 1024) : Statement (.ctxPersistRead c) := nofun
theorem ctxPersistReturn (c : Fin 1024) : Statement (.ctxPersistReturn c) := nofun
theorem ctxPersistTimeout (c : Fin 1024) : Statement (.ctxPersistTimeout c) := nofun
theorem mirrorAckReceive (k : Fin 4) : Statement (.mirrorAckReceive k) := nofun
theorem mirrorAckTimeout (a : Fin 2048) : Statement (.mirrorAckTimeout a) := nofun
theorem resyncComplete (a : Fin 2048) : Statement (.resyncComplete a) := nofun
theorem dsBudgetWrite (v : Word) : Statement (.dsBudgetWrite v) := nofun
theorem dsHoldupWrite (v : Word) : Statement (.dsHoldupWrite v) := nofun
theorem unitFlushComplete (a : Fin 2048) (u : BitVec 32) : Statement (.unitFlushComplete a u) := nofun
theorem stripeWrite (members : List NandBlock) (units : List (Fin 2048 × BitVec 32)) : Statement (.stripeWrite members units) := nofun
theorem dramCorrectedError (ch rank : Fin 2) (dev : Fin 10) (line : BitVec 30) : Statement (.dramCorrectedError ch rank dev line) := nofun
theorem dramUncorrectableError (ch rank : Fin 2) (line : BitVec 30) (hit : DramHit) : Statement (.dramUncorrectableError ch rank line hit) := nofun
theorem nandRead (b : NandBlock) (a : Fin 2048) (u : BitVec 32) (step : Option (Fin 11)) : Statement (.nandRead b a u step) := nofun
theorem nandProgramFail (b : NandBlock) : Statement (.nandProgramFail b) := nofun
theorem lunLost (lun : Fin 64) (cause : Fin 5) : Statement (.lunLost lun cause) := nofun
theorem rebuildComplete (dest : List (List NandBlock)) : Statement (.rebuildComplete dest) := nofun
theorem patrolPass (read : List (NandBlock × Fin 11)) : Statement (.patrolPass read) := nofun
theorem blockRefresh (victim : NandBlock) (dest : List (List NandBlock)) (after : Fin 11) : Statement (.blockRefresh victim dest after) := nofun
theorem garbageCollection (victim : NandBlock) (dest : List (List NandBlock)) : Statement (.garbageCollection victim dest) := nofun
theorem wearLevelling (victim : NandBlock) (dest : List (List NandBlock)) : Statement (.wearLevelling victim dest) := nofun
theorem storeQuery (mb : Fin 1032) (core : Fin 4) : Statement (.storeQuery mb core) := nofun
theorem storeRecord (mb : Fin 1032) (core : Fin 4) : Statement (.storeRecord mb core) := nofun
theorem storeFormat (mb : Fin 1032) (core : Fin 4) : Statement (.storeFormat mb core) := nofun
theorem mediaHealth (mb : Fin 1032) (core : Fin 4) : Statement (.mediaHealth mb core) := nofun
theorem mediaRebuild (mb : Fin 1032) (core : Fin 4) : Statement (.mediaRebuild mb core) := nofun
theorem ulCtlEnWrite (k : Fin 4) (en : Bool) : Statement (.ulCtlEnWrite k en) := nofun
theorem ulRetrain (k : Fin 4) : Statement (.ulRetrain k) := nofun
theorem ulLanesLocked (k : Fin 4) (passed : BitVec 9) : Statement (.ulLanesLocked k passed) := nofun
theorem ulTrainTimeout (k : Fin 4) : Statement (.ulTrainTimeout k) := nofun
theorem bypassInit (k : Fin 4) (back rev member topo : BitVec 8) (fresh w4 : Bool) (credits : Word) (exp : BitVec 12) (grace : BitVec 8) (map : Word) (digest : BitVec 64) : Statement (.bypassInit k back rev member topo fresh w4 credits exp grace map digest) := nofun
theorem bypassInitAck (k : Fin 4) (back epoch : BitVec 8) : Statement (.bypassInitAck k back epoch) := nofun
theorem bypassAck (k : Fin 4) (back : BitVec 8) (exp : BitVec 12) : Statement (.bypassAck k back exp) := nofun
theorem bypassNak (k : Fin 4) (back : BitVec 8) (exp : BitVec 12) : Statement (.bypassNak k back exp) := nofun
theorem bypassCredit (k : Fin 4) (back : BitVec 8) (counts : Word) : Statement (.bypassCredit k back counts) := nofun
theorem bypassStroke (k : Fin 4) (back : BitVec 8) (stroke : Stroke) (leader : Fin 8) (hops : BitVec 8) (phase : BitVec 16) (skew : BitVec 8) : Statement (.bypassStroke k back stroke leader hops phase skew) := nofun
theorem bypassDelayReq (k : Fin 4) (back : BitVec 8) (sent recv : BitVec 64) (turn : Word) : Statement (.bypassDelayReq k back sent recv turn) := nofun
theorem bypassDelayResp (k : Fin 4) (back : BitVec 8) (sent now_ : BitVec 64) (turn : Word) : Statement (.bypassDelayResp k back sent now_ turn) := nofun
theorem bypassShiftReq (k : Fin 4) (bseq back lane epoch : BitVec 8) (map : Word) : Statement (.bypassShiftReq k bseq back lane epoch map) := nofun
theorem bypassLpmReq (k : Fin 4) (bseq back st : BitVec 8) : Statement (.bypassLpmReq k bseq back st) := nofun
theorem bypassLpmAck (k : Fin 4) (bseq back st : BitVec 8) : Statement (.bypassLpmAck k bseq back st) := nofun
theorem bypassPhoto (k : Fin 4) (bseq back : BitVec 8) (stroke : Stroke) (origin : Fin 8) (src : BitVec 8) (num : BitVec 16) : Statement (.bypassPhoto k bseq back stroke origin src num) := nofun
theorem bypassPeerMbx (k : Fin 4) (bseq back : BitVec 8) (txn : BitVec 16) (idx flags : BitVec 8) (data : List Byte) : Statement (.bypassPeerMbx k bseq back txn idx flags data) := nofun
theorem bypassNull (k : Fin 4) (back : BitVec 8) (reserved : Bool) : Statement (.bypassNull k back reserved) := nofun
theorem bypassRetransmit (k : Fin 4) : Statement (.bypassRetransmit k) := nofun
theorem ulCellReceive (k : Fin 4) (vc : Fin 4) (seq : BitVec 12) (ack : Option (BitVec 12)) (crVc : Fin 4) (crCount : BitVec 8) (off : Fin 257) (reserved : Bool) (data : List Byte) : Statement (.ulCellReceive k vc seq ack crVc crCount off reserved data) := nofun
theorem ulLinkError (k : Fin 4) (e : UlError) : Statement (.ulLinkError k e) := nofun
theorem ulLaneFault (k : Fin 4) (lane : Fin 9) : Statement (.ulLaneFault k lane) := nofun
theorem ulLinkDown (k : Fin 4) : Statement (.ulLinkDown k) := nofun
theorem ulGraceExpiry (k : Fin 4) : Statement (.ulGraceExpiry k) := nofun
theorem ulCoastIdle (k : Fin 4) : Statement (.ulCoastIdle k) := nofun
theorem ulCoastExit (k : Fin 4) : Statement (.ulCoastExit k) := nofun
theorem ulParkExit (k : Fin 4) : Statement (.ulParkExit k) := nofun
theorem ulWriteReceive (k : Fin 4) : Statement (.ulWriteReceive k) := nofun
theorem ulReadReceive (k : Fin 4) : Statement (.ulReadReceive k) := nofun
theorem ulAtomicReceive (k : Fin 4) : Statement (.ulAtomicReceive k) := nofun
theorem ulRespReceive (k : Fin 4) : Statement (.ulRespReceive k) := nofun
theorem ulRoutedReceive (k : Fin 4) : Statement (.ulRoutedReceive k) := nofun
theorem mirrorWriteReceive (k : Fin 4) : Statement (.mirrorWriteReceive k) := nofun
theorem messageForward (k : Fin 4) : Statement (.messageForward k) := nofun
theorem stateView (k : Fin 4) : Statement (.stateView k) := nofun
theorem stateJoin (k : Fin 4) : Statement (.stateJoin k) := nofun
theorem stateLeave (k : Fin 4) : Statement (.stateLeave k) := nofun
theorem stateTandem (k : Fin 4) (gen : Word) (units : Fin 257) : Statement (.stateTandem k gen units) := nofun
theorem stateHandover (k : Fin 4) : Statement (.stateHandover k) := nofun
theorem stateRelocate (k : Fin 4) : Statement (.stateRelocate k) := nofun
theorem joinSend (k : Fin 4) (dst : Fin 8) : Statement (.joinSend k dst) := nofun
theorem memberLoss (m : Fin 8) : Statement (.memberLoss m) := nofun
theorem failover (c : Fin 1024) : Statement (.failover c) := nofun
theorem handoverSend (c : Fin 1024) : Statement (.handoverSend c) := nofun
theorem pelQuery (mb : Fin 1032) (core : Fin 4) : Statement (.pelQuery mb core) := nofun
theorem pelLeave (mb : Fin 1032) (core : Fin 4) : Statement (.pelLeave mb core) := nofun
theorem tandemPair (mb : Fin 1032) (core : Fin 4) (gen : Word) : Statement (.tandemPair mb core gen) := nofun
theorem tandemUnpair (mb : Fin 1032) (core : Fin 4) : Statement (.tandemUnpair mb core) := nofun
theorem tandemQuery (mb : Fin 1032) (core : Fin 4) : Statement (.tandemQuery mb core) := nofun
theorem sourceEdge (n : Fin 288) : Statement (.sourceEdge n) := nofun
theorem icPendSet (m : Master) (w : Fin 9) (bits : Word) : Statement (.icPendSet m w bits) := nofun
theorem icPendClr (m : Master) (w : Fin 9) (bits edges sets : Word) : Statement (.icPendClr m w bits edges sets) := nofun
theorem icEnSet (m : Master) (w : Fin 9) (bits clears : Word) : Statement (.icEnSet m w bits clears) := nofun
theorem icEnClr (m : Master) (w : Fin 9) (bits : Word) : Statement (.icEnClr m w bits) := nofun
theorem icClaim (m : Master) (edge : Bool) : Statement (.icClaim m edge) := nofun
theorem icEoi (m : Master) (src : BitVec 9) : Statement (.icEoi m src) := nofun
theorem holdOffExpiry (g : Fin 32) : Statement (.holdOffExpiry g) := nofun
theorem icHoldWrite (m : Master) (g : Fin 32) (strokes : BitVec 16) : Statement (.icHoldWrite m g strokes) := nofun
theorem strokeTimerExpiry (t : Fin 4) : Statement (.strokeTimerExpiry t) := nofun
theorem gpioEdge (g : Fin 16) (rising : Bool) : Statement (.gpioEdge g rising) := nofun
theorem contextEventSet (c : Fin 1024) (b : Fin 8) : Statement (.contextEventSet c b) := nofun
theorem coalescingTimerExpiry (c : Fin 1024) (q : Fin 64) : Statement (.coalescingTimerExpiry c q) := nofun
theorem cqEvtCfgWrite (c : Fin 1024) (q : Fin 64) (v : Word) : Statement (.cqEvtCfgWrite c q v) := nofun
theorem msixTriggerDelivery (c : Fin 1024) (v : Fin 64) : Statement (.msixTriggerDelivery c v) := nofun
theorem mbxDoorbellGo (mb : Fin 1032) : Statement (.mbxDoorbellGo mb) := nofun
theorem mbxWatchdogExpiry (mb : Fin 1032) : Statement (.mbxWatchdogExpiry mb) := nofun
theorem longOperationEnd (fw : Bool) (code : Fin 13) : Statement (.longOperationEnd fw code) := nofun
theorem mbxForward (mb : Fin 1032) (core : Fin 4) : Statement (.mbxForward mb core) := nofun
theorem devQuery (mb : Fin 1032) (core : Fin 4) : Statement (.devQuery mb core) := nofun
theorem devReset (mb : Fin 1032) (core : Fin 4) : Statement (.devReset mb core) := nofun
theorem maintEnter (mb : Fin 1032) (core : Fin 4) : Statement (.maintEnter mb core) := nofun
theorem prepareExtract (mb : Fin 1032) (core : Fin 4) : Statement (.prepareExtract mb core) := nofun
theorem perfSet (mb : Fin 1032) (core : Fin 4) : Statement (.perfSet mb core) := nofun
theorem sleepEnter (mb : Fin 1032) (core : Fin 4) : Statement (.sleepEnter mb core) := nofun
theorem wakeCfg (mb : Fin 1032) (core : Fin 4) : Statement (.wakeCfg mb core) := nofun
theorem thermQuery (mb : Fin 1032) (core : Fin 4) : Statement (.thermQuery mb core) := nofun
theorem powerPolicy (mb : Fin 1032) (core : Fin 4) : Statement (.powerPolicy mb core) := nofun
theorem powerQuery (mb : Fin 1032) (core : Fin 4) : Statement (.powerQuery mb core) := nofun
theorem fwQuery (mb : Fin 1032) (core : Fin 4) : Statement (.fwQuery mb core) := nofun
theorem fwStageBegin (mb : Fin 1032) (core : Fin 4) : Statement (.fwStageBegin mb core) := nofun
theorem fwStageData (mb : Fin 1032) (core : Fin 4) : Statement (.fwStageData mb core) := nofun
theorem fwStageEnd (mb : Fin 1032) (core : Fin 4) (unread : Bool) : Statement (.fwStageEnd mb core unread) := nofun
theorem fwActivate (mb : Fin 1032) (core : Fin 4) : Statement (.fwActivate mb core) := nofun
theorem fwCommit (mb : Fin 1032) (core : Fin 4) : Statement (.fwCommit mb core) := nofun
theorem fwRollback (mb : Fin 1032) (core : Fin 4) : Statement (.fwRollback mb core) := nofun
theorem fuseQuery (mb : Fin 1032) (core : Fin 4) : Statement (.fuseQuery mb core) := nofun
theorem fuseProgram (mb : Fin 1032) (core : Fin 4) (en vdd lapse bad : Bool) (got : BitVec 128) : Statement (.fuseProgram mb core en vdd lapse bad got) := nofun
theorem ifQuery (mb : Fin 1032) (core : Fin 4) : Statement (.ifQuery mb core) := nofun
theorem echo (mb : Fin 1032) (core : Fin 4) : Statement (.echo mb core) := nofun
theorem logRead (mb : Fin 1032) (core : Fin 4) : Statement (.logRead mb core) := nofun
theorem timeQuery (mb : Fin 1032) (core : Fin 4) : Statement (.timeQuery mb core) := nofun
theorem smbRegRead (dev : BitVec 7) (a : BitVec 32) : Statement (.smbRegRead dev a) := nofun
theorem smbRegWrite (dev : BitVec 7) (pec : Bool) (a v : BitVec 32) : Statement (.smbRegWrite dev pec a v) := nofun
theorem smbMbxWrite (dev : BitVec 7) (pec : Bool) (off : Fin 4096) (data : List (BitVec 8)) : Statement (.smbMbxWrite dev pec off data) := nofun
theorem smbMbxRead (dev : BitVec 7) (off : Fin 4096) (len : Fin 256) : Statement (.smbMbxRead dev off len) := nofun
theorem smbAttn (dev : BitVec 7) : Statement (.smbAttn dev) := nofun
theorem restEntry (l1 : Bool) : Statement (.restEntry l1) := nofun
theorem coreWatchdogExpiry (core : Fin 4) : Statement (.coreWatchdogExpiry core) := nofun
theorem coreFence (core : Fin 4) (parity : Bool) (just : Option (Fin 1032)) : Statement (.coreFence core parity just) := nofun
theorem faultStop (reason : Fin 6) : Statement (.faultStop reason) := nofun
theorem firmwareRestart (check : Bool) (just : List (Fin 1032)) : Statement (.firmwareRestart check just) := nofun
theorem internalParityError (e : ParityErr) : Statement (.internalParityError e) := nofun
theorem registerWrite (m : Master) (a : BitVec 32) (be : BitVec 8) (wide : Bool) (v met : BitVec 64) : Statement (.registerWrite m a be wide v met) := nofun
theorem msixVectorUnmask (c : Fin 1024) (v : Fin 64) : Statement (.msixVectorUnmask c v) := nofun
theorem registerRead (m : Master) (a : BitVec 32) (be : BitVec 8) (wide : Bool) : Statement (.registerRead m a be wide) := nofun
theorem hlLinkLayerError (k : LinkError) : Statement (.hlLinkLayerError k) := nofun
theorem markerRowReceive (k : Fin 4) (epoch : BitVec 8) (lanes : Fin 10) (flags : BitVec 8) (wrong : BitVec 9) : Statement (.markerRowReceive k epoch lanes flags wrong) := nofun
theorem ulInitSend (k : Fin 4) : Statement (.ulInitSend k) := nofun
theorem ulEgressUnit (k : Fin 4) : Statement (.ulEgressUnit k) := nofun
theorem l0pRequest (width : Fin 17) (accepted : Bool) : Statement (.l0pRequest width accepted) := nofun
theorem l1EntryRequest (accepted : Bool) : Statement (.l1EntryRequest accepted) := nofun
theorem lbBndCreditLate (p : Fin 4) : Statement (.lbBndCreditLate p) := nofun
theorem nandEraseFail (b : NandBlock) : Statement (.nandEraseFail b) := nofun
theorem delayReqSend (k : Fin 4) (t : BitVec 64) : Statement (.delayReqSend k t) := nofun
theorem ulAckSend (k : Fin 4) : Statement (.ulAckSend k) := nofun
theorem ulCreditReport (k : Fin 4) : Statement (.ulCreditReport k) := nofun
theorem ulNakRepeat (k : Fin 4) : Statement (.ulNakRepeat k) := nofun
theorem ulReplayTimeout (k : Fin 4) : Statement (.ulReplayTimeout k) := nofun
theorem stateReservedStype (k : Fin 4) : Statement (.stateReservedStype k) := nofun
theorem pelotonSplit (k : Fin 4) (leader : Fin 8) : Statement (.pelotonSplit k leader) := nofun
theorem rejoinCompare (a : Fin 2048) (other : Word) : Statement (.rejoinCompare a other) := nofun
theorem firmwareRestartComplete (rejected : Fin 4) : Statement (.firmwareRestartComplete rejected) := nofun
theorem sramUncorrectableError (a : BitVec 32) : Statement (.sramUncorrectableError a) := nofun
theorem registerAnswerTimeout (m : Master) (a : BitVec 32) (write : Bool) : Statement (.registerAnswerTimeout m a write) := nofun
theorem samplePreload (sampled cells : BitVec 2157) : Statement (.samplePreload sampled cells) := nofun
theorem extest (sampled cells : BitVec 2157) : Statement (.extest sampled cells) := nofun
theorem dapAccessGo (a : BitVec 32) (write : Bool) (data : BitVec 32) : Statement (.dapAccessGo a write data) := nofun
theorem dramAlert (ch : Fin 2) : Statement (.dramAlert ch) := nofun
theorem l0pPartnerRequest (width : Fin 17) : Statement (.l0pPartnerRequest width) := nofun
theorem coldPowerOnReset : Statement (.coldPowerOnReset) := nofun
theorem sysRstNAssertion : Statement (.sysRstNAssertion) := nofun
theorem sysPllLock : Statement (.sysPllLock) := nofun
theorem enterServing : Statement (.enterServing) := nofun
theorem pwrFailRecognised : Statement (.pwrFailRecognised) := nofun
theorem cardEjectRecognised : Statement (.cardEjectRecognised) := nofun
theorem drainComplete : Statement (.drainComplete) := nofun
theorem drainLimitReached : Statement (.drainLimitReached) := nofun
theorem maintenanceSafePoint : Statement (.maintenanceSafePoint) := nofun
theorem preserveEntry : Statement (.preserveEntry) := nofun
theorem preserveHalt : Statement (.preserveHalt) := nofun
theorem devResetApply : Statement (.devResetApply) := nofun
theorem strokeBoundary : Statement (.strokeBoundary) := nofun
theorem ptmResponseTimeout : Statement (.ptmResponseTimeout) := nofun
theorem cadCommitGo : Statement (.cadCommitGo) := nofun
theorem cadenceCommitApply : Statement (.cadenceCommitApply) := nofun
theorem levelSwitch : Statement (.levelSwitch) := nofun
theorem vidStep : Statement (.vidStep) := nofun
theorem throttleGraceExpiry : Statement (.throttleGraceExpiry) := nofun
theorem hlRecoveryEntry : Statement (.hlRecoveryEntry) := nofun
theorem hlPerstAssertion : Statement (.hlPerstAssertion) := nofun
theorem hlPerstRelease : Statement (.hlPerstRelease) := nofun
theorem hotResetReceived : Statement (.hotResetReceived) := nofun
theorem dlDown : Statement (.dlDown) := nofun
theorem dlDownClassify : Statement (.dlDownClassify) := nofun
theorem vfFrsSend : Statement (.vfFrsSend) := nofun
theorem vfEnableClear : Statement (.vfEnableClear) := nofun
theorem pmeTurnOff : Statement (.pmeTurnOff) := nofun
theorem hlAtsFlush : Statement (.hlAtsFlush) := nofun
theorem hlRetrain : Statement (.hlRetrain) := nofun
theorem ltrSend : Statement (.ltrSend) := nofun
theorem dramScrubPass : Statement (.dramScrubPass) := nofun
theorem mediaWorn : Statement (.mediaWorn) := nofun
theorem joinWaitExpiry : Statement (.joinWaitExpiry) := nofun
theorem viewSend : Statement (.viewSend) := nofun
theorem memberFence : Statement (.memberFence) := nofun
theorem strokeCompareMatch : Statement (.strokeCompareMatch) := nofun
theorem ksAlarmMatch : Statement (.ksAlarmMatch) := nofun
theorem trialBoot : Statement (.trialBoot) := nofun
theorem freewheelEntry : Statement (.freewheelEntry) := nofun
theorem freewheelExit : Statement (.freewheelExit) := nofun
theorem idleSleepOrder : Statement (.idleSleepOrder) := nofun
theorem restEntryComplete : Statement (.restEntryComplete) := nofun
theorem wakeEvent : Statement (.wakeEvent) := nofun
theorem restExit : Statement (.restExit) := nofun
theorem pfsTrigGo : Statement (.pfsTrigGo) := nofun
theorem photoNEdge : Statement (.photoNEdge) := nofun
theorem photoLatch : Statement (.photoLatch) := nofun
theorem pfsArm : Statement (.pfsArm) := nofun
theorem tapReset : Statement (.tapReset) := nofun
theorem idcode : Statement (.idcode) := nofun
theorem clamp : Statement (.clamp) := nofun
theorem highz : Statement (.highz) := nofun
theorem bypass : Statement (.bypass) := nofun
theorem dap : Statement (.dap) := nofun
theorem supplyLoss : Statement (.supplyLoss) := nofun
theorem ksXtalStart : Statement (.ksXtalStart) := nofun
theorem hlRecoveryExit : Statement (.hlRecoveryExit) := nofun

end Sys2Proof.Laws.Row
end

