-- ==== Sys2Proof/Tests/Slice0.lean ====
section
/-! SUPPORT. Tests/Slice0.lean: the model's own tests: the checks of WellFormed, small tests of single steps, and for every clause
of a statement that has hypotheses a state and operands that meet them together. -/
set_option Elab.async false
set_option linter.unusedVariables false

namespace Sys2Proof.Tests
open Sys2Proof Sys2Proof.Machine


/-- Firmware runs, in STANDBY, with DRS sent and the host link up. -/
def standby : State :=
  State.reset.devUpd (fun d => { d with sysRst := false, rom := true, counting := true, drs := true })
    |>.set Fld.DEV_BOOT_STAGE 4 |>.set Fld.HL_LINK_STATUS_DL_UP 1 |>.set Fld.HL_LINK_STATUS_LSTATE 1 |>.set Fld.PEL_STATUS_STATE 0
    |>.set Fld.DEV_MODE_MODE 1

/-- The same in SERVING. -/
def serving : State := standby.set Fld.DEV_MODE_MODE 2

/-- The same in DRAINING. -/
def draining : State := standby.set Fld.DEV_MODE_MODE 3

/-- The same in MAINTENANCE. -/
def maint : State := standby.set Fld.DEV_MODE_MODE 5

/-- The ROM tries boot copies, each of which lies in block 1 of its range. -/
def tries : State :=
  ((State.reset.devUpd fun d => { d with sysRst := false, rom := true, counting := true }).set Fld.DEV_BOOT_STAGE 3).fwUpd
    fun f => { f with copies := [0, 1, 2, 3].map fun k => (k, ⟨0x03020300, none, [1]⟩) }

/-- A command of the board controller's mailbox that a core may take. -/
def cmdIn (op : Nat) (args : List Byte) : Cmd := { id := 0, mb := 4, stamp := 0, op := op, args := args, ranked := true }

/-- A state in which it waits. -/
def waits (op : Nat) (args : List Byte) (s : State) : State :=
  (s.cmdsUpd fun _ => [cmdIn op args]) |>.set (mbxState 4) 1

/-- The same with queue pair 1 of context 1 enabled and holding a descriptor with the bytes `raw`, dealt to engine 0. -/
def holds (raw : List Byte) : State :=
  ((serving.set (Fld.CTX_STATE_STATE 1) 3).set (Fld.QP_STATUS_EN_ACTIVE 1 1) 1).set (Fld.CTX_SHARE4_DESC_MAX 1) 64 |>.set (Fld.QP_CFG_SQ_LOG2 1 1) 4 |>.set (Fld.QP_CFG_CQ_LOG2 1 1) 4
    |>.qpUpd 1 1 fun p => { p with sqTail := 1, descs := [{ slot := 0, engine := some 0, raw := some (raw ++ List.replicate (64 - raw.length) 0) }] }

/-- A descriptor of slot 0 with these bytes, dealt to engine 0. -/
def onSlot (raw : List Byte) : Desc := { slot := 0, engine := some 0, raw := some (raw ++ List.replicate (64 - raw.length) 0) }

/-- Its bytes. -/
def rawOf (raw : List Byte) : Raw := raw ++ List.replicate (64 - raw.length) 0

/-- The same before its descriptor is fetched. -/
def asked : State :=
  ((serving.set (Fld.CTX_STATE_STATE 1) 3).set (Fld.QP_STATUS_EN_ACTIVE 1 1) 1).set (Fld.CTX_SHARE4_DESC_MAX 1) 64 |>.set (Fld.QP_CFG_SQ_LOG2 1 1) 4 |>.set (Fld.QP_CFG_CQ_LOG2 1 1) 4
    |>.fnUpd 1 (fun f => { f with bme := true })
    |>.qpUpd 1 1 fun p => { p with sqTail := 1, descs := [{ slot := 0 }] }

/-- Port 0 ACTIVE. -/
def active : State := (serving.set (Fld.LB_CTL_EN 0) 1).set (Fld.LB_STATUS_STATE 0) 4

/-- The same with upstream rule 0 open for context 0. -/
def ruled : State :=
  (active.set (Fld.CTX_STATE_STATE 0) 2).set (Fld.LB_UPR_CFG_EN 0 0) 1 |>.set (Fld.LB_UPR_CFG_SIZE_LOG2 0 0) 20 |>.set (Fld.LB_UPR_CFG_RD 0 0) 1
    |>.set (Fld.LB_UPR_CFG_WR 0 0) 1 |>.fnUpd 0 fun f => { f with bme := true, enabled := true }

/-- A stranded entry of index 2. -/
def strandedAt : Stranded := ⟨2, 1, 0, 0, 0, 0, [], []⟩

/-- The store is online and aperture 1 exists; context 1 is IDLE. -/
def detached : State :=
  (serving.set Fld.DS_CFG_STATE 2).set (Fld.CTX_STATE_STATE 1) 2 |>.set (Fld.DS_APT_STATUS_VALID 1) 1 |>.set (Fld.DS_APT_STATUS_UNITS 1) 4

/-- The same with aperture 1 attached to context 1. -/
def attached : State := detached.set (Fld.DS_APT_STATUS_ATTACHED 1) 1 |>.set (Fld.DS_APT_STATUS_CTX 1) 1 |>.ctxUpd 1 fun x => { x with apt := some 1 }

/-- A response of the partner that acknowledges copy 0. -/
def ackMsg : UMsg := { mtype := 4, tag := 0 }

/-- A state in which it waits on link 0. -/
def ackWaits : State := attached.linkUpd 0 fun l => { l with rx := [(1, ackMsg)], reqs := [(0, .mirror 0, { mtype := 4 })] }

/-- The first LUNs of all channels are there, four on each. -/
def populated (s : State) : State :=
  ((List.range 8).foldl (fun s j => s.set (Fld.MED_NF_CFG_CE_MASK j) 15) s).set Fld.MED_STATUS_HEALTHY 32 |>.set Fld.MED_STATUS_POP 32

/-- Block n on each of 16 LUNs, two of a channel. -/
def sixteen (n : Nat) : List NandBlock := (List.range 16).map fun i => ((Fin.ofNat 64 (i / 2 * 8 + i % 2 * 2 + 2), Fin.ofNat 65536 n) : NandBlock)

/-- A closed stripe with unit (1, 0) on block 0 of LUN 2, its parity on LUN 10. -/
def aStripe : Stripe := ⟨[some (2, 0), some (10, 0)], 1, [(0, (1, 0))], true, 0⟩

/-- The same with that stripe, its full block on LUN 2 marked for refresh. -/
def striped : State :=
  ((populated attached).set Fld.DS_CFG_CAP_UNITS 4).medUpd fun m =>
    { m with stripes := [aStripe], blocks := 3, fill := [(131072, 174762), (655360, 174762)], marked := [(2, 0)] }

/-- Link 2 ACTIVE. -/
def linked : State := serving.set (Fld.UL_STATUS_STATE 2) 3

/-- A held cell of SEQ 5. -/
def cellFive : UCell := ⟨5, 0, 256, [], []⟩

/-- A message of a type with these bytes waits on link 2; context 1 is IDLE and has an aperture. -/
def peered (data : List Byte) (ty : Nat) : State :=
  ((linked.set (Fld.CTX_STATE_STATE 1) 2).set (Fld.DS_APT_STATUS_VALID 1) 1 |>.set (Fld.DS_APT_STATUS_UNITS 1) 4).set (Fld.WIN_CTL_EN 1 0) 1
    |>.linkUpd 2 fun l => { l with rx := [(1, { mtype := ty, ctx := 1, data := data })] }

/-- Member 3 is on link 2, and context 1 is IDLE. -/
def near : State :=
  ((linked.set (Fld.CTX_STATE_STATE 1) 2).set (Fld.UL_PEER_MEMBER 2) 3).setWord Adr.PEL_ROUTE 0xFFFF2FFF |>.set Fld.PEL_STATUS_STATE 2

/-- Arguments of FUSE_PROGRAM: the subsystem IDs. -/
def fuseArgs : List Byte := [1, 0, 0, 0, 0, 0, 0, 0, 0x34, 0x12, 0, 0, 0, 0, 0, 0]



/-- The functions' registers are ready, function 1 too. -/
def opened : State := (serving.fnUpd 0 fun f => { f with ready := true }).fnUpd 1 fun f => { f with ready := true, enabled := true, mse := true }

/-- Context 1 is IDLE, its function served, and its window 0 maps 1 MiB of port 0. -/
def mapped : State := (opened.set (Fld.CTX_STATE_STATE 1) 2).set (Fld.WIN_CTL_EN 1 0) 1

/-- A message of a type waits on link 2, its check ended this way. -/
def seen (m : UMsg) : State := linked.linkUpd 2 fun l => { l with rx := [(1, m)] }

/-- What it found: aperture 1, port 1. -/
def passed : PeerSeen := .pass (some 1) 1 0x1000 0 false

/-- A routed item of port 0 for queue pair 0 of context 0. -/
def toQueue : RItem := ⟨7, 0, 2, 5, 0, [1], 0, 0, true, false⟩

/-- A state in which it may be delivered. -/
def delivers : State :=
  { ((serving.set (Fld.CTX_STATE_STATE 0) 3).set (Fld.QP_STATUS_EN_ACTIVE 0 0) 1).set (Fld.MSG_RXB_CFG_EN 0 0) 1
    |>.set (Fld.QP_CFG_CQ_LOG2 0 0) 4 |>.fnUpd 0 (fun f => { f with bme := true }) with ritems := [toQueue] }

/-- A region grants every master the page of DEV_DRAIN_LIMIT. -/
def granted : State := (serving.setWord (Adr.ACC_REGION_LO 1) 0x00000100).setWord (Adr.ACC_REGION_HI 1) 0x9FFFF001

/-- The population of class A: full blocks, free ones beyond the reserve, worn ones of number 1, 1,000 units flushed and none
moved. -/
def roomy : State :=
  ((striped.set (Fld.MED_NF_CFG_CLASS 0) 1).set Fld.MED_PE_PE_MAX 4000).medUpd fun m =>
    { m with flushed := 1000, pe := (sixteen 1).map fun b => (blockKey (nandPair b), 7) }

/-- The state an answer leaves. -/
def left (r : Result) : State :=
  match r with
  | .next t => t
  | _ => State.reset


/-- SMBus is served: 1 ms has passed since the release of SYS_RST_N. -/
def smbUp : State := serving.devUpd fun d => { d with relTicks := 2000 }

/-- A posted write of function c waits for its slots. -/
def writing (c : Nat) : State :=
  { opened with cad := { opened.cad with nextId := 8, items := [⟨7, false, c, 2, 0, 4, 0, true, false, .hostWrite c 0 1 0 0 0 0 false false [1]⟩] } }

/-- Context 1 takes MSI-X of 8 vectors, with Bus Master Enable. -/
def vectored : State := (serving.fnUpd 1 fun f => { f with msixEn := true, bme := true }).set (Fld.CTX_SHARE5_VECTORS 1) 8

/-- A firmware restart is under way; each boot copy lies in block 1 of its range, which is retired for the copies `lost`. -/
def restarted (lost : List Nat) : State :=
  (serving.set Fld.DEV_FAULT_STATUS_RESTARTING 1).fwUpd (fun f => { f with copies := [0, 1, 2, 3].map fun k => (k, ⟨0x03020300, none, [1]⟩) })
    |>.medUpd fun m => { m with retired := lost.map fun k => (8 * k, 1) }

/-- The downward list of level 0 in the shadow holds an entry of no meaning, and the active one of level 1 no C0 entry for the weights
granted. -/
def badLists : State :=
  { serving.set Fld.CTX_POOL_C0_DN 16 with cad := { serving.cad with lists := [(0, [0xFF]), (9, [])] } }

/-- An image of another release than the boot copies' runs; each copy lies in block 1 of its range. -/
def otherRelease : State :=
  (serving.setWord Adr.DEV_FWREV 0x03030000).fwUpd fun f => { f with copies := [0, 1, 2, 3].map fun k => (k, ⟨0x03020300, none, [1]⟩) }


/-! ## Witnesses of the hypotheses of the statements -/

theorem witness_step_runs_the_front_command_0 : ∃ (s : State) (c : Instr) (cs : List Instr), s.pending = c :: cs :=
  ⟨{ serving with pending := [.ltrSend] }, .ltrSend, [], rfl⟩

theorem witness_step_runs_the_front_command_1 : ∃ s : State, s.pending = [] := ⟨serving, by decide +kernel⟩

theorem witness_every_step_keeps_the_canonical_form : ∃ s t : State, Canonical s ∧ step s = .next t :=
  ⟨State.reset, State.reset, ⟨by decide +kernel, by decide +kernel, by decide +kernel⟩, rfl⟩

theorem witness_commands_change_only_their_parts : ∃ (i : Instr) (s t : State), exec i s = .next t := ⟨.ltrSend, serving, _, rfl⟩

theorem witness_programmed_fuses_stay_programmed_0 : ∃ s t : State, step s = .next t := ⟨State.reset, State.reset, rfl⟩

theorem witness_programmed_fuses_stay_programmed_1 : ∃ (i : Instr) (s t : State), i ≠ .strokeBoundary ∧ exec i s = .next t :=
  ⟨.ltrSend, serving, _, Instr.noConfusion, rfl⟩

theorem witness_stroke_counter_steps_0 : ∃ (s : State),
    s.dev.counting = true ∧ devResetDue s = false ∧ s.pel.adopt = none :=
  ⟨serving, by decide +kernel⟩

theorem witness_bar_sizes_change_only_while_clear_0 : ∃ (bar4 : Bool) (log2 : Fin 64) (s : State),
    HostTurn s 0 ∧ (s.fn 0).mse = true :=
  ⟨false, 3, serving.fnUpd 0 fun f => { f with mse := true }, by decide +kernel⟩

theorem witness_bar_sizes_change_only_while_clear_1 : ∃ (bar4 : Bool) (log2 : Fin 64) (s : State),
    HostTurn s 0 ∧ s.hl.vfEnable = true :=
  ⟨true, 9, serving.hlUpd fun h => { h with vfEnable := true }, by decide +kernel⟩

theorem witness_bar_sizes_change_only_while_clear_2 : ∃ (log2 : Fin 64) (s : State),
    HostTurn s 0 ∧ cfgOpen s 0 = true ∧ (s.fn 0).mse = false ∧ log2.val ≤ 14 :=
  ⟨14, serving.fnUpd 0 fun f => { f with ready := true }, by decide +kernel⟩

theorem witness_bar_sizes_change_only_while_clear_3 : ∃ (log2 : Fin 64) (s : State),
    HostTurn s 0 ∧ cfgOpen s 0 = true ∧ (s.fn 0).mse = false ∧ 8 ≤ log2.val ∧ log2.val ≤ 16 :=
  ⟨8, serving.fnUpd 0 fun f => { f with ready := true }, by decide +kernel⟩

theorem witness_bar_sizes_change_only_while_clear_4 : ∃ (log2 : Fin 64) (s : State),
    HostTurn s 0 ∧ cfgOpen s 0 = true ∧ s.hl.vfEnable = false ∧ log2.val ≤ 14 :=
  ⟨0, serving.fnUpd 0 fun f => { f with ready := true }, by decide +kernel⟩

theorem witness_bar_sizes_change_only_while_clear_5 : ∃ (log2 : Fin 64) (s : State),
    HostTurn s 0 ∧ cfgOpen s 0 = true ∧ s.hl.vfEnable = false ∧ 8 ≤ log2.val ∧ log2.val ≤ 16 :=
  ⟨16, serving.fnUpd 0 fun f => { f with ready := true }, by decide +kernel⟩

theorem witness_tables_hold_no_reservation_after_reset_1 : ∃ (k : Fin 16) (s : State),
    s.dev.sysRst = false ∧ s.dev.supplies = true ∧ s.mode ≠ .preserve ∧ s.ds.dirty = [] :=
  ⟨15, serving, by decide +kernel⟩

theorem witness_resets_and_boot_rom_1 : ∃ (s : State),
    s.dev.sysRst = false ∧ s.dev.supplies = true ∧ s.mode ≠ .preserve ∧ s.ds.dirty = [] :=
  ⟨serving, by decide +kernel⟩

theorem witness_resets_and_boot_rom_2 : ∃ (s : State),
    s.dev.sysRst = false ∧ s.dev.supplies = true ∧ s.mode ≠ .preserve ∧ s.ds.dirty ≠ [] ∧ s.dev.presPend = none :=
  ⟨serving.dsUpd fun d => { d with dirty := [(0, 0)] }, by decide +kernel⟩

theorem witness_resets_and_boot_rom_3 : ∃ (straps : BitVec 8) (s : State),
    s.dev.sysRst = true ∧ s.dev.rstAtHalt = false :=
  ⟨0x81, State.reset, by decide +kernel⟩

theorem witness_resets_and_boot_rom_4 : ∃ (s : State),
    s.dev.rom = true ∧ s.dev.counting = false :=
  ⟨State.reset.devUpd fun d => { d with rom := true }, by decide +kernel⟩

theorem witness_resets_and_boot_rom_5 : ∃ (unread : BitVec 4) (mute : BitVec 4) (k : Fin 4) (s : State),
    trying s = true ∧ firstGood unread mute s = some k.val :=
  ⟨1, 0, 1, tries, by decide +kernel⟩

theorem witness_resets_and_boot_rom_6 : ∃ (unread : BitVec 4) (mute : BitVec 4) (s : State),
    trying s = true ∧ firstGood unread mute s = none :=
  ⟨0xF, 0, tries, by decide +kernel⟩

theorem witness_ready_serving_and_board_orders_0 : ∃ (nand : List NandChannel) (dram : DramOrg) (s : State),
    s.mode = .standby ∧ s.dev.drs = false ∧ s.pelState ≠ 1 ∧ dramGood dram = true :=
  ⟨[], ⟨true, false, false, 0⟩, standby.devUpd fun d => { d with drs := false }, by decide +kernel⟩

theorem witness_ready_serving_and_board_orders_1 : ∃ (s : State),
    s.mode = .standby ∧ s.dev.servingAt.isSome = true ∧ s.dev.causes = [] ∧ s.dev.presPend = none ∧ servingOvertaken s = false :=
  ⟨standby.devUpd fun d => { d with servingAt := some 5 }, by decide +kernel⟩

theorem witness_ready_serving_and_board_orders_2 : ∃ (s : State),
    s.mode = .standby ∧ s.dev.servingAt.isSome = true ∧ s.dev.causes = [] ∧ s.sleepState = 0 :=
  ⟨standby.devUpd fun d => { d with servingAt := some 5 }, by decide +kernel⟩

theorem witness_ready_serving_and_board_orders_3 : ∃ (s : State),
    recognises s = true ∧ s.dev.presPend = none :=
  ⟨serving, by decide +kernel⟩

theorem witness_ready_serving_and_board_orders_4 : ∃ (cause : Nat) (s : State),
    recognises s = true ∧ s.dev.presPend = some cause :=
  ⟨1, serving.devUpd fun d => { d with presPend := some 1 }, by decide +kernel⟩

theorem witness_ready_serving_and_board_orders_5 : ∃ (s : State),
    recognises s = true ∧ s.inRest = false :=
  ⟨tries, by decide +kernel⟩

theorem witness_ready_serving_and_board_orders_6 : ∃ (s : State),
    recognises s = true ∧ s.dev.presPend = none :=
  ⟨serving, by decide +kernel⟩

theorem witness_ready_serving_and_board_orders_7 : ∃ (cause : Nat) (s : State),
    recognises s = true ∧ s.dev.presPend = some cause :=
  ⟨1, serving.devUpd fun d => { d with presPend := some 1 }, by decide +kernel⟩

theorem witness_ready_serving_and_board_orders_8 : ∃ (s : State),
    recognises s = true ∧ s.dev.presPend = none ∧ s.dev.tripOut = false ∧ 920 ≤ s.hottest :=
  ⟨serving.set (Fld.CRP_TEMP_TEMP 3) 920, by decide +kernel⟩

theorem witness_ready_serving_and_board_orders_9 : ∃ (s : State),
    recognises s = true ∧ s.mode = .serving ∧ .cardEject ∉ s.dev.causes :=
  ⟨serving, by decide +kernel⟩

theorem witness_ready_serving_and_board_orders_10 : ∃ (s : State),
    recognises s = true ∧ s.mode = .maintenance :=
  ⟨maint, by decide +kernel⟩

theorem witness_ready_serving_and_board_orders_11 : ∃ (s : State),
    recognises s = true ∧ s.mode = .boot :=
  ⟨tries, by decide +kernel⟩

theorem witness_ready_serving_and_board_orders_12 : ∃ (s : State),
    recognises s = true ∧ s.inRest = false :=
  ⟨tries, by decide +kernel⟩

theorem witness_ready_serving_and_board_orders_13 : ∃ (s : State),
    drained s = true ∧ s.dev.presPend = none :=
  ⟨draining, by decide +kernel⟩

theorem witness_drain_limit_maintenance_and_preserve_0 : ∃ (s : State),
    drainOver { s with now := s.now + 1 } = true :=
  ⟨{ draining with now := 199999 }, by decide +kernel⟩

theorem witness_drain_limit_maintenance_and_preserve_1 : ∃ (s : State),
    drainOver s = true :=
  ⟨{ draining with now := 199999 }, by decide +kernel⟩

theorem witness_drain_limit_maintenance_and_preserve_2 : ∃ (m : Master) (v : BitVec 10) (s : State),
    (m = .bc ∨ ∃ c, m = .core c) ∧ mapCause s m 0x100030 true = none ∧ blockGated s (blockOf 0x100030) = false ∧ 1 ≤ v.toNat ∧ v.toNat ≤ 1000 :=
  ⟨.bc, 1000, serving, by decide +kernel⟩

theorem witness_drain_limit_maintenance_and_preserve_3 : ∃ (m : Master) (v : BitVec 10) (s : State),
    (m = .bc ∨ ∃ c, m = .core c) ∧ mapCause s m 0x100030 true = none ∧ blockGated s (blockOf 0x100030) = false ∧ (v = 0 ∨ 1000 < v.toNat) :=
  ⟨.bc, 1001, serving, by decide +kernel⟩

theorem witness_drain_limit_maintenance_and_preserve_4 : ∃ (v : BitVec 10) (s : State),
    HostTurn s 0 ∧ s.ds.full = false ∧ (s.fn 0).enabled = true ∧ mapCause s (.host 0) 0x100030 true = none ∧ blockGated s (blockOf 0x100030) = false ∧ 1 ≤ v.toNat ∧ v.toNat ≤ 1000 :=
  ⟨1000, opened, by decide +kernel⟩

theorem witness_drain_limit_maintenance_and_preserve_5 : ∃ (v : BitVec 10) (s : State),
    mapCause s .debug 0x100030 true = none ∧ blockGated s (blockOf 0x100030) = false :=
  ⟨5, granted, by decide +kernel⟩

theorem witness_drain_limit_maintenance_and_preserve_6 : ∃ (s : State),
    s.mode = .maintenance ∧ s.dev.heldOrder = true ∧ opRuns s = true ∧ s.dev.presPend = none :=
  ⟨(maint.devUpd fun d => { d with heldOrder := true }).mbxUpd fun m => { m with store := { m.store with op := 0x0308, state := 1 } }, by decide +kernel⟩

theorem witness_drain_limit_maintenance_and_preserve_7 : ∃ (cause : Nat) (s : State),
    s.mode ≠ .preserve ∧ s.dev.presPend = some cause ∧ cause < 256 :=
  ⟨7, serving.devUpd fun d => { d with presPend := some 7 }, by decide +kernel⟩

theorem witness_drain_limit_maintenance_and_preserve_8 : ∃ (s : State),
    s.mode = .preserve ∧ s.dev.halted = false ∧ s.ds.dirty = [] ∧ s.dev.rstAtHalt = false :=
  ⟨standby.set Fld.DEV_MODE_MODE 4, by decide +kernel⟩

theorem witness_drain_limit_maintenance_and_preserve_9 : ∃ (s : State),
    devResetDue s = true :=
  ⟨maint.devUpd fun d => { d with devResetAt := some 0 }, by decide +kernel⟩

theorem witness_strokes_and_host_time_0 : ∃ (s : State),
    s.dev.counting = false :=
  ⟨State.reset, by decide +kernel⟩

theorem witness_strokes_and_host_time_1 : ∃ (s : State),
    s.dev.counting = false ∧ s.dev.ksSlow = false ∧ s.dev.sysRst = true :=
  ⟨State.reset, by decide +kernel⟩

theorem witness_strokes_and_host_time_2 : ∃ (s : State),
    s.dev.counting = true ∧ s.mode = .preserve ∧ s.deferred = [] ∧ s.qps = [] ∧ s.msixDue = [] :=
  ⟨standby.set Fld.DEV_MODE_MODE 4, by decide +kernel⟩

theorem witness_strokes_and_host_time_3 : ∃ (m : Master) (s : State),
    (m = .bc ∨ m = .debug ∨ ∃ c, m = .core c) ∧ mapCause s m 0x280000 false = none ∧ blockGated s (blockOf 0x280000) = false :=
  ⟨.core 1, serving, by decide +kernel⟩

theorem witness_strokes_and_host_time_4 : ∃ (host : BitVec 64) (s : State),
    ptmDue s = true ∧ s.isSet Fld.CAD_PTM_CTL_DISCIPLINE = false :=
  ⟨7, (serving.hlUpd fun h => { h with ptmEn := true }).set Fld.HL_PTM_CTL_AUTO 1, by decide +kernel⟩

theorem witness_strokes_and_host_time_5 : ∃ (s : State),
    ptmDue s = true ∧ s.cad.ptmFails < 15 :=
  ⟨(serving.hlUpd fun h => { h with ptmEn := true }).set Fld.HL_PTM_CTL_AUTO 1, by decide +kernel⟩

theorem witness_strokes_and_host_time_6 : ∃ (v : Word) (s : State),
    v.getLsbD 31 = false :=
  ⟨0x10, serving.set Fld.CAD_PTM_STATUS_ANCHORED 1, by decide +kernel⟩

theorem witness_strokes_and_host_time_7 : ∃ (s : State),
    s.get Fld.CAD_COMMIT_RESULT ≠ 1 :=
  ⟨serving, by decide +kernel⟩

theorem witness_strokes_and_host_time_8 : ∃ (s : State),
    s.get Fld.CAD_COMMIT_RESULT = 1 :=
  ⟨serving.set Fld.CAD_COMMIT_RESULT 1, by decide +kernel⟩

theorem witness_strokes_and_host_time_9 : ∃ (s : State),
    commitMay s = true :=
  ⟨serving.set Fld.CAD_COMMIT_RESULT 1, by decide +kernel⟩

theorem witness_strokes_and_host_time_10 : ∃ (b : Stroke) (s : State),
    commitErr s = none :=
  ⟨0, serving, by decide +kernel⟩

theorem witness_strokes_and_host_time_11 : ∃ (b : Stroke) (e : Nat) (l : Nat) (slot : Nat) (up : Bool) (s : State),
    commitErr s = some (e, up, l, slot) :=
  ⟨0, ((commitErr badLists).getD (0, false, 0, 0)).1, ((commitErr badLists).getD (0, false, 0, 0)).2.2.1, ((commitErr badLists).getD (0, false, 0, 0)).2.2.2, ((commitErr badLists).getD (0, false, 0, 0)).2.1, badLists, by decide +kernel⟩

theorem witness_levels_and_thermal_policy_0 : ∃ (s : State),
    s.pwr.chg = none ∧ s.awake = true ∧ s.mode ≠ .preserve ∧ s.pwr.want = none ∧ s.restarting = false ∧ s.level < effective (s.get Fld.CRP_LEVEL_ORDERED) (s.get Fld.CRP_LEVEL_CAP) s.fwLevel :=
  ⟨serving.set Fld.CRP_LEVEL_ORDERED 2, by decide +kernel⟩

theorem witness_levels_and_thermal_policy_1 : ∃ (l : Nat) (src : Nat) (id : Nat) (s : State),
    s.pwr.chg = none ∧ s.awake = true ∧ s.mode ≠ .preserve ∧ s.restarting = false ∧ s.pwr.want = some (l, src, id) ∧ effective l (s.get Fld.CRP_LEVEL_CAP) s.fwLevel = s.level :=
  ⟨0, 0, 7, serving.pwrUpd fun p => { p with want := some (0, 0, 7) }, by decide +kernel⟩

theorem witness_levels_and_thermal_policy_2 : ∃ (l : Fin 4) (s : State),
    s.pwr.chg = none ∧ s.awake = true ∧ s.mode ≠ .preserve ∧ s.restarting = false ∧ fwMayOrder s l = true :=
  ⟨2, (serving.set Fld.CRP_LEVEL_AUTO 1).set Fld.CRP_LEVEL_FLOOR 3, by decide +kernel⟩

theorem witness_levels_and_thermal_policy_3 : ∃ (c : LevelChange) (s : State),
    switchDue s = some c :=
  ⟨{ target := 1, src := 3, r := 0, b := 1 }, ({ serving with now := 0 } : State).pwrUpd fun p => { p with chg := some { target := 1, src := 3, r := 0, b := 1 } }, by decide +kernel⟩

theorem witness_levels_and_thermal_policy_4 : ∃ (c : LevelChange) (s : State),
    levelErr s c.target = none ∧ c.cmd = none ∧ c.target < 4 :=
  ⟨{ target := 1, src := 3, r := 0, b := 1 }, serving.pwrUpd fun p => { p with chg := some { target := 1, src := 3, r := 0, b := 1 } }, by decide +kernel⟩

theorem witness_levels_and_thermal_policy_5 : ∃ (c : LevelChange) (id : Nat) (s : State),
    levelErr s c.target = none ∧ c.cmd = some id ∧ c.target < 4 :=
  ⟨{ target := 1, src := 3, r := 0, b := 1, cmd := some 7 }, 7, serving.pwrUpd fun p => { p with chg := some { target := 1, src := 3, r := 0, b := 1, cmd := some 7 } }, by decide +kernel⟩

theorem witness_levels_and_thermal_policy_6 : ∃ (c : LevelChange) (id : Nat) (e : Bool × Nat × Nat × Nat) (s : State),
    levelErr s c.target = some e ∧ c.cmd = some id :=
  ⟨{ target := 1, src := 3, r := 0, b := 1, cmd := some 7 }, 7, (levelErr badLists 1).getD (false, 0, 0, 0), badLists.pwrUpd fun p => { p with chg := some { target := 1, src := 3, r := 0, b := 1, cmd := some 7 } }, by decide +kernel⟩

theorem witness_levels_and_thermal_policy_7 : ∃ (c : LevelChange) (at_ : Stroke) (s : State),
    s.pwr.chg = some c ∧ c.vidAt = some at_ ∧ s.reached at_ = true ∧ s.mode ≠ .preserve ∧ c.switched = false ∧ c.refused = false ∧ c.target < 7 ∧ s.dev.vid.toNat + 8 ≤ vidOf c.target :=
  ⟨{ target := 0, src := 3, r := 0, b := 61, vidAt := some 0 }, 0, (serving.devUpd fun d => { d with vid := 40 }).pwrUpd fun p => { p with chg := some { target := 0, src := 3, r := 0, b := 61, vidAt := some 0 } }, by decide +kernel⟩

theorem witness_levels_and_thermal_policy_8 : ∃ (at_ : Stroke) (s : State),
    s.pwr.refusedAt = some at_ ∧ s.pwr.chg = none ∧ s.awake = true ∧ s.restarting = false ∧ s.mode ≠ .preserve ∧ s.isSet Fld.CAD_STATUS_THROTTLE_PEND = true ∧ s.get Fld.CAD_THROTTLE_GRACE ≠ 0 ∧ s.reached (at_ + BitVec.ofNat 48 (s.get Fld.CAD_THROTTLE_GRACE)) = true ∧ s.get Fld.CRP_LEVEL_CAP < 3 ∧ s.level < effective (s.get Fld.CRP_LEVEL_ORDERED) (s.get Fld.CRP_LEVEL_CAP + 1) s.fwLevel ∧ effective (s.get Fld.CRP_LEVEL_ORDERED) (s.get Fld.CRP_LEVEL_CAP + 1) s.fwLevel < 4 :=
  ⟨0, { (serving.set Fld.CAD_STATUS_THROTTLE_PEND 1).set Fld.CAD_THROTTLE_GRACE 8 with now := 20, pwr := { refusedAt := some 0 } }, by decide +kernel⟩

theorem witness_levels_and_thermal_policy_9 : ∃ (t0 : BitVec 16) (s : State),
    s.pwr.refreshed = none ∧ s.mode ≠ .preserve ∧ 800 ≤ tempOf t0 ∧ s.pwr.hot = false ∧ s.awake = false :=
  ⟨0x0320, serving.set Fld.CRP_SLEEP_STATE 1, by decide +kernel⟩

theorem witness_levels_and_thermal_policy_10 : ∃ (t0 : BitVec 16) (s : State),
    s.pwr.refreshed = none ∧ s.mode ≠ .preserve ∧ 800 ≤ tempOf t0 ∧ tempOf t0 < 920 ∧ s.pwr.hot = true ∧ s.awake = false :=
  ⟨0x0320, (serving.set Fld.CRP_SLEEP_STATE 1).pwrUpd fun p => { p with hot := true }, by decide +kernel⟩

theorem witness_host_link_states_0 : ∃ (width : Fin 17) (speed : Fin 7) (flit : Bool) (s : State),
    hlEnabled s = true ∧ s.mode ≠ .preserve ∧ s.isSet Fld.HL_LINK_STATUS_DL_UP = false ∧ s.hl.down = none ∧ widestWidth width (s.get Fld.HL_LINK_CTL_MAX_WIDTH) ≠ 0 ∧ 1 ≤ speed.val ∧ 1 ≤ s.get Fld.HL_LINK_CTL_MAX_SPEED :=
  ⟨16, 6, true, standby.set Fld.HL_LINK_STATUS_DL_UP 0, by decide +kernel⟩

theorem witness_host_link_states_1 : ∃ (pass : BitVec 16) (s : State),
    s.isSet Fld.HL_LINK_STATUS_DL_UP = true ∧ widestWidth (widthPassing pass) (s.get Fld.HL_LINK_CTL_MAX_WIDTH) ≠ 0 ∧ widestWidth (widthPassing pass) (s.get Fld.HL_LINK_CTL_MAX_WIDTH) < s.get Fld.HL_LINK_STATUS_TRAINED_WIDTH :=
  ⟨0x00FF, serving.set Fld.HL_LINK_STATUS_TRAINED_WIDTH 16, by decide +kernel⟩

theorem witness_host_link_states_2 : ∃ (s : State),
    s.isSet Fld.HL_LINK_STATUS_DL_UP = true ∧ s.get Fld.HL_LINK_STATUS_LSTATE = 1 :=
  ⟨serving, by decide +kernel⟩

theorem witness_host_link_states_3 : ∃ (s : State),
    s.dev.perst = false ∧ s.isSet Fld.HL_LINK_STATUS_DL_UP = true :=
  ⟨serving, by decide +kernel⟩

theorem witness_host_link_states_4 : ∃ (s : State),
    s.isSet Fld.HL_LINK_STATUS_DL_UP = true ∧ s.hl.down = none :=
  ⟨serving, by decide +kernel⟩

theorem witness_host_link_states_5 : ∃ (s : State),
    s.isSet Fld.HL_LINK_STATUS_DL_UP = true ∧ s.get Fld.HL_LINK_STATUS_LSTATE ≠ 4 ∧ s.get Fld.HL_LINK_STATUS_LSTATE ≠ 5 ∧ s.hl.sub = 0 :=
  ⟨serving, by decide +kernel⟩

theorem witness_host_link_states_6 : ∃ (s : State),
    s.isSet Fld.HL_LINK_STATUS_DL_UP = true ∧ s.mode ≠ .preserve :=
  ⟨serving, by decide +kernel⟩

theorem witness_host_link_states_7 : ∃ (at_ : Stroke) (s : State),
    s.hl.down = some at_ ∧ 200 ≤ s.since at_ ∧ s.mode = .serving ∧ s.hl.downReset = false :=
  ⟨0, { serving with now := 250, hl := { down := some 0 } }, by decide +kernel⟩

theorem witness_configuration_space_of_the_host_0 : ∃ (c : Fin 1024) (dw : Fin 1024) (wr : Option (BitVec 32 × BitVec 4)) (s : State),
    HostTurn s c ∧ (s.fn 0).ready = false :=
  ⟨5, 0, none, serving, by decide +kernel⟩

theorem witness_configuration_space_of_the_host_1 : ∃ (c : Fin 1024) (dw : Fin 1024) (wr : Option (BitVec 32 × BitVec 4)) (s : State),
    HostTurn s c ∧ (s.fn 0).ready = true ∧ (s.fn c).enabled = false :=
  ⟨1, 0, none, serving.fnUpd 0 fun f => { f with ready := true }, by decide +kernel⟩

theorem witness_configuration_space_of_the_host_2 : ∃ (c : Fin 1024) (dw : Fin 1024) (wr : Option (BitVec 32 × BitVec 4)) (s : State),
    HostTurn s c ∧ (s.fn 0).ready = true ∧ (s.fn c).enabled = true ∧ (s.fn c).ready = false :=
  ⟨1, 0, none, opened.fnUpd 1 fun f => { f with ready := false }, by decide +kernel⟩

theorem witness_configuration_space_of_the_host_3 : ∃ (c : Fin 1024) (dw : Fin 1024) (s : State),
    HostTurn s c ∧ cfgOpen s c = true :=
  ⟨1, 0, opened, by decide +kernel⟩

theorem witness_configuration_space_of_the_host_4 : ∃ (c : Fin 1024) (dw : Fin 1024) (v : BitVec 32) (be : BitVec 4) (s : State),
    HostTurn s c ∧ cfgOpen s c = true :=
  ⟨1, 1, 4, 1, opened, by decide +kernel⟩

theorem witness_configuration_space_of_the_host_5 : ∃ (ari : Bool) (s : State),
    HostTurn s 0 ∧ (s.fn 0).ready = true ∧ s.hl.vfEnable = false ∧ s.mode ≠ .maintenance :=
  ⟨true, serving.fnUpd 0 fun f => { f with ready := true }, by decide +kernel⟩

theorem witness_configuration_space_of_the_host_6 : ∃ (n : BitVec 16) (ari : Bool) (s : State),
    HostTurn s 0 ∧ (s.fn 0).ready = true ∧ s.hl.vfEnable = false ∧ s.mode ≠ .maintenance ∧ 1 ≤ n.toNat ∧ n.toNat ≤ (if ari then 1023 else 7) ∧ vfsLeft s = false :=
  ⟨7, false, opened, by decide +kernel⟩

theorem witness_configuration_space_of_the_host_7 : ∃ (s : State),
    s.hl.vfWaitFrs = true :=
  ⟨serving.hlUpd fun h => { h with vfWaitFrs := true }, by decide +kernel⟩

theorem witness_configuration_space_of_the_host_8 : ∃ (s : State),
    HostTurn s 0 ∧ (s.fn 0).ready = true ∧ s.hl.vfEnable = true :=
  ⟨(serving.fnUpd 0 fun f => { f with ready := true }).hlUpd fun h => { h with vfEnable := true }, by decide +kernel⟩

theorem witness_configuration_space_of_the_host_9 : ∃ (log2 : Fin 64) (s : State),
    HostTurn s 0 ∧ cfgOpen s 0 = true ∧ (s.fn 0).mse = false ∧ log2.val ≤ 14 ∧ s.hl.pfBar2 ≠ log2.val :=
  ⟨8, serving.fnUpd 0 fun f => { f with ready := true }, by decide +kernel⟩

theorem witness_configuration_space_of_the_host_10 : ∃ (log2 : Fin 64) (s : State),
    HostTurn s 0 ∧ 14 < log2.val :=
  ⟨15, serving, by decide +kernel⟩

theorem witness_configuration_space_of_the_host_11 : ∃ (s : State),
    HostTurn s 0 ∧ cfgOpen s 0 = true ∧ (s.fn 0).bme = false ∧ s.pbaOf 0 = 0 ∧ s.mode = .standby ∧ s.dev.drs = true :=
  ⟨standby.fnUpd 0 fun f => { f with ready := true }, by decide +kernel⟩

theorem witness_configuration_space_of_the_host_12 : ∃ (c : Fin 1024) (pme : Bool) (clr : Bool) (s : State),
    HostTurn s c ∧ cfgOpen s c = true ∧ (s.fn c).d3 = false :=
  ⟨0, true, false, serving.fnUpd 0 fun f => { f with ready := true }, by decide +kernel⟩

theorem witness_configuration_space_of_the_host_13 : ∃ (c : Fin 1024) (pme : Bool) (clr : Bool) (s : State),
    HostTurn s c ∧ cfgOpen s c = true ∧ (s.fn c).d3 = true :=
  ⟨1, true, false, opened.fnUpd 1 fun f => { f with d3 := true }, by decide +kernel⟩

theorem witness_configuration_space_of_the_host_14 : ∃ (c : Fin 1024) (s : State),
    (s.fn c).d0due = true :=
  ⟨0, serving.fnUpd 0 fun f => { f with d0due := true }, by decide +kernel⟩

theorem witness_configuration_space_of_the_host_15 : ∃ (c : Fin 1024) (v : Fin 64) (s : State),
    (s.fn c).d0due = true ∧ (s.fn c).d3 = false ∧ s.heldOf c = 1#64 <<< v.val ∧ (s.pbaOf c).getLsbD v = true ∧ s.isSet Fld.HL_LINK_STATUS_DL_UP = true ∧ s.get Fld.HL_LINK_STATUS_LSTATE ≠ 5 ∧ (s.fn c).msixEn = true ∧ (s.fn c).bme = true ∧ (s.fn c).fmask = false ∧ (s.msixAt c v).ctl.getLsbD 0 = false :=
  ⟨1, 2, (({ vectored.fnUpd 1 (fun f => { f with d0due := true }) with held := [(1, 4)] } : State).setMsix 1 2 { vectored.msixAt 1 2 with ctl := 0 }).setPba 1 4, by decide +kernel⟩

theorem witness_configuration_space_of_the_host_16 : ∃ (c : Fin 1024) (v : Fin 64) (s : State),
    (s.fn c).d0due = true ∧ s.heldOf c = 1#64 <<< v.val ∧ (s.fn c).fmask = true :=
  ⟨1, 2, ({ vectored.fnUpd 1 (fun f => { f with d0due := true, fmask := true }) with held := [(1, 4)] } : State), by decide +kernel⟩

theorem witness_host_requests_and_flr_0 : ∃ (s : State),
    HostOpen s ∧ s.ds.full = false :=
  ⟨serving, by decide +kernel⟩

theorem witness_host_requests_and_flr_1 : ∃ (c : Fin 1024) (s : State),
    HostTurn s c ∧ (s.fn c).enabled = true ∧ (s.fn c).ready = true ∧ c.val ≠ 0 ∧ (s.fn c).atsEn = false ∧ s.cst c = 6 :=
  ⟨1, (serving.fnUpd 1 fun f => { f with enabled := true, ready := true }).set (Fld.CTX_STATE_STATE 1) 6, by decide +kernel⟩

theorem witness_host_requests_and_flr_2 : ∃ (c : Fin 1024) (s : State),
    HostTurn s c ∧ (s.fn c).enabled = true ∧ (s.fn c).ready = true ∧ c.val ≠ 0 ∧ 1 ≤ s.cst c ∧ s.cst c ≤ 5 :=
  ⟨1, mapped, by decide +kernel⟩

theorem witness_host_requests_and_flr_3 : ∃ (c : Fin 1024) (s : State),
    (s.ctx c).flr = true ∧ (s.ctx c).op = none ∧ s.linkUp = true ∧ c.val ≠ 0 :=
  ⟨1, serving.ctxUpd 1 fun x => { x with flr := true }, by decide +kernel⟩

theorem witness_host_requests_and_flr_4 : ∃ (c : Fin 1024) (off : BitVec 34) (len : Fin 4097) (s : State),
    HostTurn s c ∧ outsideBar (hostNoted s) c off.toNat len (s.bar2 c) = true :=
  ⟨0, 0x3FFFFFFFF, 4, serving, by decide +kernel⟩

theorem witness_host_requests_and_flr_5 : ∃ (c : Fin 1024) (off : BitVec 34) (len : Fin 4097) (w : Nat) (s : State),
    HostOpen s ∧ outsideBar s c off.toNat len (s.bar2 c) = false ∧ hostStateRefuses s c = none ∧ checkBar2 s c off.toNat len false = (.pass, w) ∧ 1 ≤ len.val ∧ (s.lb (s.winPort c w)).pf = [] ∧ (s.lb (s.winPort c w)).srb = [] :=
  ⟨1, 0, 8, 0, mapped, by decide +kernel⟩

theorem witness_host_requests_and_flr_6 : ∃ (off : BitVec 34) (len : Fin 4097) (w : Nat) (s : State),
    HostTurn s 0 ∧ outsideBar s 0 off.toNat len (s.bar2 0) = false ∧ hostStateRefuses s 0 = none ∧ checkBar2 s 0 off.toNat len false = (.noEntry, w) :=
  ⟨0, 4, 0, opened.set (Fld.CTX_STATE_STATE 0) 2, by decide +kernel⟩

theorem witness_host_requests_and_flr_7 : ∃ (c : Fin 1024) (off : BitVec 34) (data : List Byte) (s : State),
    s.ds.full = true :=
  ⟨0, 0, [1, 2, 3, 4], serving.dsUpd fun d => { d with full := true }, by decide +kernel⟩

theorem witness_host_requests_and_flr_8 : ∃ (c : Fin 1024) (off : BitVec 34) (data : List Byte) (w : Nat) (s : State),
    HostOpen s ∧ s.ds.full = false ∧ outsideBar s c off.toNat data.length (s.bar2 c) = false ∧ hostStateRefuses s c = none ∧ checkBar2 s c off.toNat data.length true = (.pass, w) ∧ s.wseq c < 2 ^ 64 - 1 :=
  ⟨1, 0, [1, 2, 3, 4], 0, mapped, by decide +kernel⟩

theorem witness_host_requests_and_flr_9 : ∃ (c : Fin 1024) (off : BitVec 36) (len : Fin 4097) (s : State),
    HostOpen s ∧ outsideBar (hostNoted s) c off.toNat len (s.bar4 c) = false ∧ hostStateRefuses (hostNoted s) c = none ∧ checkApt (hostNoted s) (onlineApt (hostNoted s) c) off.toNat len = .pass :=
  ⟨0, 0, 4, ((serving.ctxUpd 0 fun x => { x with apt := some 0 }).set (Fld.CTX_STATE_STATE 0) 3 |>.set (Fld.DS_APT_STATUS_VALID 0) 1 |>.set (Fld.DS_APT_STATUS_ATTACHED 0) 1 |>.set (Fld.DS_APT_STATUS_UNITS 0) 8 |>.set Fld.DS_CFG_STATE 2).fnUpd 0 fun f => { f with ready := true, mse := true }, by decide +kernel⟩

theorem witness_host_requests_and_flr_10 : ∃ (c : Fin 1024) (off : BitVec 36) (data : List Byte) (s : State),
    s.ds.full = true :=
  ⟨0, 0, [1, 2, 3, 4], serving.dsUpd fun d => { d with full := true }, by decide +kernel⟩

theorem witness_host_requests_and_flr_11 : ∃ (c : Fin 1024) (off : BitVec 36) (data : List Byte) (s : State),
    HostOpen s ∧ s.ds.full = false ∧ outsideBar s c off.toNat data.length (s.bar4 c) = false ∧ hostStateRefuses s c = none ∧ checkApt s (onlineApt s c) off.toNat data.length = .pass :=
  ⟨0, 0, [1, 2, 3, 4], ((serving.ctxUpd 0 fun x => { x with apt := some 0 }).set (Fld.CTX_STATE_STATE 0) 3 |>.set (Fld.DS_APT_STATUS_VALID 0) 1 |>.set (Fld.DS_APT_STATUS_ATTACHED 0) 1 |>.set (Fld.DS_APT_STATUS_UNITS 0) 8 |>.set Fld.DS_CFG_STATE 2), by decide +kernel⟩

theorem witness_host_requests_and_flr_12 : ∃ (fn : Fin 1024) (s : State),
    HostTurn s fn :=
  ⟨1, opened, by decide +kernel⟩

theorem witness_host_requests_and_flr_13 : ∃ (fn : Fin 1024) (s : State),
    HostTurn s fn :=
  ⟨1, opened, by decide +kernel⟩

theorem witness_host_requests_and_flr_14 : ∃ (fn : Fin 1024) (s : State),
    HostTurn s fn :=
  ⟨1, opened, by decide +kernel⟩

theorem witness_host_requests_and_flr_15 : ∃ (fn : Fin 1024) (s : State),
    HostOpen s ∧ s.ds.full = false :=
  ⟨1, opened, by decide +kernel⟩

theorem witness_host_requests_and_flr_16 : ∃ (fn : Fin 1024) (s : State),
    HostOpen s ∧ s.ds.full = false :=
  ⟨1, opened, by decide +kernel⟩

theorem witness_host_requests_and_flr_17 : ∃ (fn : Fin 1024) (s : State),
    HostOpen s :=
  ⟨1, opened, by decide +kernel⟩

theorem witness_host_requests_and_flr_18 : ∃ (s : State),
    HostOpen s ∧ s.ds.full = false :=
  ⟨serving, by decide +kernel⟩

theorem witness_tags_translations_and_link_power_0 : ∃ (c : Fin 1024) (tag : Fin 1024) (st : Fin 4) (data : List Byte) (s : State),
    HostOpen s ∧ s.hl.tags.find? (tagIs c tag) = none :=
  ⟨0, 3, 0, [], serving, by decide +kernel⟩

theorem witness_tags_translations_and_link_power_1 : ∃ (c : Fin 1024) (tag : Fin 1024) (st : Fin 4) (data : List Byte) (u : Nat × HostTag) (s : State),
    HostOpen s ∧ s.hl.tags.find? (tagIs c tag) = some u ∧ u.2.quarantined = false ∧ st.val ≠ 3 ∧ (st.val ≠ 0 ∨ u.2.use.isAts = false) :=
  ⟨0, 3, 0, [1, 2, 3, 4], (3, ⟨0, .up 0 1 0 4, false, 0, false, false⟩), { serving with now := BitVec.ofNat 48 ((ctoStrokes 0).getD 0), hl := { serving.hl with tags := [(3, ⟨0, .up 0 1 0 4, false, 0, false, false⟩)] } }, by decide +kernel⟩

theorem witness_tags_translations_and_link_power_2 : ∃ (c : Fin 1024) (tag : Fin 1024) (data : List Byte) (u : Nat × HostTag) (s : State),
    HostOpen s ∧ s.hl.tags.find? (tagIs c tag) = some u ∧ u.2.quarantined = false :=
  ⟨0, 3, [1, 2, 3, 4], (3, ⟨0, .up 0 1 0 4, false, 0, false, false⟩), { serving with now := BitVec.ofNat 48 ((ctoStrokes 0).getD 0), hl := { serving.hl with tags := [(3, ⟨0, .up 0 1 0 4, false, 0, false, false⟩)] } }, by decide +kernel⟩

theorem witness_tags_translations_and_link_power_3 : ∃ (c : Fin 1024) (tag : Fin 1024) (st : Fin 4) (data : List Byte) (u : Nat × HostTag) (s : State),
    HostOpen s ∧ s.hl.tags.find? (tagIs c tag) = some u ∧ u.2.quarantined = true :=
  ⟨0, 3, 0, [1, 2, 3, 4], (3, ⟨0, .up 0 1 0 4, true, 0, false, false⟩), serving.hlUpd fun h => { h with tags := [(3, ⟨0, .up 0 1 0 4, true, 0, false, false⟩)] }, by decide +kernel⟩

theorem witness_tags_translations_and_link_power_4 : ∃ (c : Fin 1024) (tag : Fin 1024) (s : State),
    s.hl.tags.find? (tagIs c tag) = none :=
  ⟨0, 3, serving, by decide +kernel⟩

theorem witness_tags_translations_and_link_power_5 : ∃ (c : Fin 1024) (tag : Fin 1024) (u : Nat × HostTag) (n : Nat) (s : State),
    s.hl.tags.find? (tagIs c tag) = some u ∧ ctoStrokes (s.fn u.2.ctx).cto = some n ∧ n ≤ s.since u.2.issued ∧ u.2.quarantined = false :=
  ⟨0, 3, (3, ⟨0, .up 0 1 0 4, false, 0, false, false⟩), (ctoStrokes 0).getD 0, { serving with now := BitVec.ofNat 48 ((ctoStrokes 0).getD 0), hl := { serving.hl with tags := [(3, ⟨0, .up 0 1 0 4, false, 0, false, false⟩)] } }, by decide +kernel⟩

theorem witness_tags_translations_and_link_power_6 : ∃ (c : Fin 1024) (tag : Fin 1024) (u : Nat × HostTag) (s : State),
    s.hl.tags.find? (tagIs c tag) = some u ∧ (tagTimedOut s u.2 = false ∨ u.2.quarantined = true) :=
  ⟨0, 3, (3, ⟨0, .up 0 1 0 4, true, 0, false, false⟩), { serving with now := BitVec.ofNat 48 ((ctoStrokes 0).getD 0), hl := { serving.hl with tags := [(3, ⟨0, .up 0 1 0 4, true, 0, false, false⟩)] } }, by decide +kernel⟩

theorem witness_tags_translations_and_link_power_7 : ∃ (c : Fin 1024) (iova : Addr) (ta : Addr) (log2 : Fin 53) (r : Bool) (w : Bool) (u : Bool) (n : Bool) (g : Bool) (s : State),
    HostOpen s ∧ s.hl.tags.find? (atsAsks c (atsPage iova.toNat)) = none :=
  ⟨0, 0x1000, 0, 12, true, true, false, false, false, serving, by decide +kernel⟩

theorem witness_tags_translations_and_link_power_8 : ∃ (c : Fin 1024) (iova : Addr) (ta : Addr) (log2 : Fin 53) (u : Bool) (n : Bool) (g : Bool) (t : Nat) (page : Addr) (h : HostTag) (who : AtsFor) (s : State),
    HostOpen s ∧ s.hl.tags.find? (atsAsks c (atsPage iova.toNat)) = some (t, h) ∧ h.quarantined = false ∧ h.use = .ats page who :=
  ⟨1, 0x1000, 0, 12, false, false, false, 5, 0x1000, ⟨1, .ats 0x1000 (.entry 1), false, 0, false, false⟩, .entry 1, serving.hlUpd fun h => { h with tags := [(5, ⟨1, .ats 0x1000 (.entry 1), false, 0, false, false⟩)] }, by decide +kernel⟩

theorem witness_tags_translations_and_link_power_9 : ∃ (c : Fin 1024) (iova : Addr) (ta : Addr) (log2 : Fin 53) (r : Bool) (w : Bool) (u : Bool) (n : Bool) (g : Bool) (t : Nat) (h : HostTag) (s : State),
    HostOpen s ∧ s.hl.tags.find? (atsAsks c (atsPage iova.toNat)) = some (t, h) ∧ h.quarantined = false ∧ (r || w) = true :=
  ⟨1, 0x1000, 0x5000, 12, true, false, false, false, false, 5, ⟨1, .ats 0x1000 (.entry 1), false, 0, false, false⟩, serving.hlUpd fun h => { h with tags := [(5, ⟨1, .ats 0x1000 (.entry 1), false, 0, false, false⟩)] }, by decide +kernel⟩

theorem witness_tags_translations_and_link_power_10 : ∃ (c : Fin 1024) (iova : Addr) (log2 : Fin 65) (itag : Fin 32) (s : State),
    HostOpen s ∧ s.ds.full = false :=
  ⟨0, 0, 12, 5, serving, by decide +kernel⟩

theorem witness_tags_translations_and_link_power_12 : ∃ (itag : Fin 32) (e : AtsInval) (s : State),
    (s.hl.inval.find? fun e => e.itag == itag.val) = some e ∧ invalInUse s e = true ∧ s.since e.since < 4000 :=
  ⟨5, ⟨5, 1, 0x1000, 12, 0⟩, (serving.hlUpd fun h => { h with inval := [⟨5, 1, 0x1000, 12, 0⟩] }).qpUpd 1 1 fun p => { p with descs := [{ slot := 0, engine := some 0, spages := some [(1, 1)] }] }, by decide +kernel⟩

theorem witness_tags_translations_and_link_power_13 : ∃ (itag : Fin 32) (e : AtsInval) (s : State),
    (s.hl.inval.find? fun e => e.itag == itag.val) = some e ∧ (invalInUse s e = false ∨ 4000 ≤ s.since e.since) :=
  ⟨5, ⟨5, 1, 0x1000, 12, 0⟩, serving.hlUpd fun h => { h with inval := [⟨5, 1, 0x1000, 12, 0⟩] }, by decide +kernel⟩

theorem witness_tags_translations_and_link_power_15 : ∃ (s : State),
    s.isSet Fld.HL_LINK_STATUS_DL_UP = true :=
  ⟨serving, by decide +kernel⟩

theorem witness_tags_translations_and_link_power_16 : ∃ (width : Fin 17) (ok : Bool) (s : State),
    s.isSet Fld.HL_LINK_STATUS_FLIT = true ∧ s.isSet Fld.HL_LPM_CTL_L0P_EN = true ∧ (s.get Fld.HL_LINK_STATUS_LSTATE = 1 ∨ s.get Fld.HL_LINK_STATUS_LSTATE = 2) ∧ width.val ∈ linkWidths ∧ width.val < s.get Fld.HL_LINK_STATUS_WIDTH ∧ l0pMinWidth s ≤ width.val ∧ widthHoldsC0 s width = true ∧ 2000 ≤ s.hl.lowUse :=
  ⟨8, false, (((serving.set Fld.HL_LINK_STATUS_FLIT 1).set Fld.HL_LPM_CTL_L0P_EN 1).set Fld.HL_LINK_STATUS_WIDTH 16 |>.set Fld.HL_LINK_STATUS_SPEED 6).hlUpd fun h => { h with lowUse := 2000 }, by decide +kernel⟩

theorem witness_tags_translations_and_link_power_17 : ∃ (width : Fin 17) (s : State),
    width.val < s.get Fld.HL_LINK_STATUS_WIDTH ∧ s.get Fld.HL_LINK_STATUS_WIDTH ≤ s.get Fld.HL_LINK_STATUS_TRAINED_WIDTH ∧ s.inRest = false :=
  ⟨4, (serving.set Fld.HL_LINK_STATUS_WIDTH 8).set Fld.HL_LINK_STATUS_TRAINED_WIDTH 16, by decide +kernel⟩

theorem witness_tags_translations_and_link_power_18 : ∃ (ok : Bool) (s : State),
    s.hl.aspmL1 = true ∧ s.linkUp = true ∧ s.hl.tags = [] ∧ enginesIdle s = true ∧ s.get Fld.HL_LPM_CTL_L1_IDLE ≤ s.since s.pwr.tlpAt ∧ s.isSet Fld.HL_LPM_CTL_L1_WITH_C0 = true ∧ s.get Fld.HL_LINK_STATUS_LSTATE = 1 :=
  ⟨false, { ((serving.hlUpd fun h => { h with aspmL1 := true }).set Fld.HL_LPM_CTL_L1_WITH_C0 1).set Fld.HL_LPM_CTL_L1_IDLE 1 with now := 100 }, by decide +kernel⟩

theorem witness_tags_translations_and_link_power_20 : ∃ (c : Fin 1024) (tag : Fin 1024) (u : Nat × HostTag) (s : State),
    s.hl.tags.find? (tagIs c tag) = some u ∧ u.2.quarantined = true ∧ u.2.retired = false ∧ tagTimedOut s u.2 = true :=
  ⟨0, 3, (3, ⟨0, .up 0 1 0 4, true, 0, false, false⟩), { serving with now := BitVec.ofNat 48 ((ctoStrokes 0).getD 0), hl := { serving.hl with tags := [(3, ⟨0, .up 0 1 0 4, true, 0, false, false⟩)] } }, by decide +kernel⟩

theorem witness_context_commands_and_shares_0 : ∃ (mb : Fin 1032) (core : Fin 4) (d : Fin 201) (x : Cmd) (e : Nat) (s : State),
    mayTake s mb core 0x0202 = some x ∧ ctxCmdErr (takeCmd x core s) (leAt x.args 0 2) = some e :=
  ⟨4, 0, 0, cmdIn 0x0202 [9, 0], 3, waits 0x0202 [9, 0] serving, by decide +kernel⟩

theorem witness_context_commands_and_shares_1 : ∃ (mb : Fin 1032) (core : Fin 4) (d : Fin 201) (x : Cmd) (s : State),
    mayTake s mb core 0x0202 = some x ∧ ctxCmdErr (takeCmd x core s) (leAt x.args 0 2) = none ∧ resetPending (takeCmd x core s) (leAt x.args 0 2) = false ∧ shareOver (takeCmd x core s) (leAt x.args 0 2) (argWords x.args) = false ∧ shareBusy (takeCmd x core s) (leAt x.args 0 2) (argWords x.args) = false ∧ (takeCmd x core s).partner (leAt x.args 0 2) = none :=
  ⟨4, 0, 0, cmdIn 0x0202 (List.replicate 32 0), waits 0x0202 (List.replicate 32 0) (serving.set (Fld.CTX_STATE_STATE 0) 2), by decide +kernel⟩

theorem witness_context_commands_and_shares_2 : ∃ (mb : Fin 1032) (core : Fin 4) (d : Fin 201) (x : Cmd) (s : State),
    mayTake s mb core 0x0202 = some x ∧ ctxCmdErr (takeCmd x core s) (leAt x.args 0 2) = none ∧ resetPending (takeCmd x core s) (leAt x.args 0 2) = true :=
  ⟨4, 0, 0, cmdIn 0x0202 ([1, 0] ++ List.replicate 30 0), (waits 0x0202 ([1, 0] ++ List.replicate 30 0) (serving.set (Fld.CTX_STATE_STATE 1) 2)).ctxUpd 1 fun x => { x with op := some ⟨false, false, true, true, 2, 0, 1, [], 512, 0⟩ }, by decide +kernel⟩

theorem witness_context_commands_and_shares_3 : ∃ (mb : Fin 1032) (core : Fin 4) (d : Fin 201) (x : Cmd) (s : State),
    mayTake s mb core 0x0202 = some x ∧ ctxCmdErr (takeCmd x core s) (leAt x.args 0 2) = none ∧ resetPending (takeCmd x core s) (leAt x.args 0 2) = false ∧ shareOver (takeCmd x core s) (leAt x.args 0 2) (argWords x.args) = true :=
  ⟨4, 0, 0, cmdIn 0x0202 ([1, 0, 0, 0] ++ List.replicate 16 0 ++ [0, 0, 0, 0x7F] ++ List.replicate 8 0), waits 0x0202 ([1, 0, 0, 0] ++ List.replicate 16 0 ++ [0, 0, 0, 0x7F] ++ List.replicate 8 0) ((serving.set (Fld.CTX_STATE_STATE 1) 2).set Fld.CTX_POOL_QP_GRANTED 8192), by decide +kernel⟩

theorem witness_context_commands_and_shares_4 : ∃ (mb : Fin 1032) (core : Fin 4) (d : Fin 201) (x : Cmd) (s : State),
    mayTake s mb core 0x0202 = some x ∧ ctxCmdErr (takeCmd x core s) (leAt x.args 0 2) = none ∧ resetPending (takeCmd x core s) (leAt x.args 0 2) = false ∧ shareOver (takeCmd x core s) (leAt x.args 0 2) (argWords x.args) = false ∧ shareBusy (takeCmd x core s) (leAt x.args 0 2) (argWords x.args) = true :=
  ⟨4, 0, 0, cmdIn 0x0202 ([1, 0] ++ List.replicate 30 0), waits 0x0202 ([1, 0] ++ List.replicate 30 0) ((serving.set (Fld.CTX_STATE_STATE 1) 2).set (Fld.CTX_CAPS_QP_EN 1) 1), by decide +kernel⟩

theorem witness_context_commands_and_shares_5 : ∃ (mb : Fin 1032) (core : Fin 4) (x : Cmd) (s : State),
    mayTake s mb core 0x0201 = some x :=
  ⟨4, 0, cmdIn 0x0201 [0, 0], waits 0x0201 [0, 0] serving, by decide +kernel⟩

theorem witness_context_commands_and_shares_6 : ∃ (mb : Fin 1032) (core : Fin 4) (d : Fin 201) (x : Cmd) (e : Nat) (s : State),
    mayTake s mb core 0x0203 = some x ∧ ctxCmdErr (takeCmd x core s) (leAt x.args 0 2) = some e :=
  ⟨4, 0, 0, cmdIn 0x0203 [9, 0], 3, waits 0x0203 [9, 0] serving, by decide +kernel⟩

theorem witness_context_commands_and_shares_7 : ∃ (mb : Fin 1032) (core : Fin 4) (d : Fin 201) (x : Cmd) (s : State),
    mayTake s mb core 0x0203 = some x ∧ ctxCmdErr (takeCmd x core s) (leAt x.args 0 2) = none ∧ ((takeCmd x core s).ctx (leAt x.args 0 2)).op = none :=
  ⟨4, 0, 0, cmdIn 0x0203 [1, 0], waits 0x0203 [1, 0] (serving.set (Fld.CTX_STATE_STATE 1) 2), by decide +kernel⟩

theorem witness_context_commands_and_shares_8 : ∃ (mb : Fin 1032) (core : Fin 4) (d : Fin 201) (x : Cmd) (s : State),
    mayTake s mb core 0x0204 = some x ∧ ctxCmdErr (takeCmd x core s) (leAt x.args 0 2) = none ∧ ((takeCmd x core s).ctx (leAt x.args 0 2)).op = none :=
  ⟨4, 0, 0, cmdIn 0x0204 [1, 0], waits 0x0204 [1, 0] (serving.set (Fld.CTX_STATE_STATE 1) 2), by decide +kernel⟩

theorem witness_context_commands_and_shares_9 : ∃ (mb : Fin 1032) (core : Fin 4) (x : Cmd) (s : State),
    mayTake s mb core 0x0205 = some x ∧ ctxCmdErr (takeCmd x core s) (leAt x.args 0 2) = none :=
  ⟨4, 0, cmdIn 0x0205 [1, 0, 0, 0, 0xE8, 3, 0, 0x40], waits 0x0205 [1, 0, 0, 0, 0xE8, 3, 0, 0x40] (serving.set (Fld.CTX_STATE_STATE 1) 2), by decide +kernel⟩

theorem witness_context_commands_and_shares_10 : ∃ (mb : Fin 1032) (core : Fin 4) (x : Cmd) (s : State),
    mayTake s mb core 0x0206 = some x :=
  ⟨4, 0, cmdIn 0x0206 [], waits 0x0206 [] serving, by decide +kernel⟩

theorem witness_context_commands_and_shares_11 : ∃ (c : Fin 1024) (p : SharePend) (s : State),
    shareDue s c = some p :=
  ⟨0, ⟨1, 0, List.replicate 7 0, 0⟩, serving.ctxUpd 0 fun y => { y with share := some ⟨1, 0, List.replicate 7 0, 0⟩ }, by decide +kernel⟩

theorem witness_context_commands_and_shares_12 : ∃ (c : Fin 1024) (p : SharePend) (s : State),
    p.words.length = 7 ∧ resetPending s c = false ∧ ctxCmdErr s c = none ∧ shareOver s c p.words = false ∧ shareBusy s c p.words = false :=
  ⟨1, ⟨1, 0, [0, 0, 0, 0, 0x01000000, 1, 0], 0⟩, (serving.set (Fld.CTX_STATE_STATE 1) 2).ctxUpd 1 fun y => { y with share := some ⟨1, 0, [0, 0, 0, 0, 0x01000000, 1, 0], 0⟩ }, by decide +kernel⟩

theorem witness_context_commands_and_shares_13 : ∃ (c : Fin 1024) (p : SharePend) (s : State),
    resetPending s c = false ∧ ctxCmdErr s c = none ∧ shareOver s c p.words = true :=
  ⟨1, ⟨1, 0, [0, 0, 0, 0, 0x7F000000, 0, 0], 0⟩, ((serving.set (Fld.CTX_STATE_STATE 1) 2).set Fld.CTX_POOL_QP_GRANTED 8192).ctxUpd 1 fun y => { y with share := some ⟨1, 0, [0, 0, 0, 0, 0x7F000000, 0, 0], 0⟩ }, by decide +kernel⟩

theorem witness_context_commands_and_shares_14 : ∃ (c : Fin 1024) (p : SharePend) (s : State),
    resetPending s c = true :=
  ⟨1, ⟨1, 0, [0, 0, 0, 0, 0x01000000, 1, 0], 0⟩, (serving.set (Fld.CTX_STATE_STATE 1) 2).ctxUpd 1 fun y => { y with share := some ⟨1, 0, [0, 0, 0, 0, 0x01000000, 1, 0], 0⟩, op := some ⟨false, false, true, true, 2, 0, 1, [], 512, 0⟩ }, by decide +kernel⟩

theorem witness_context_reset_and_watchdog_0 : ∃ (c : Fin 1024) (o : CtxOp) (s : State),
    drainDue s c = some o :=
  ⟨1, ⟨false, false, true, true, 2, 0, 1, [], 512, 0⟩, (serving.set (Fld.CTX_STATE_STATE 1) 2).ctxUpd 1 fun x => { x with op := some ⟨false, false, true, true, 2, 0, 1, [], 512, 0⟩ }, by decide +kernel⟩

theorem witness_context_reset_and_watchdog_1 : ∃ (c : Fin 1024) (o : CtxOp) (s : State),
    (s.ctx c).op = some o ∧ s.live c = true ∧ s.partner c = none ∧ (s.ctx c).share = none ∧ (s.ctx c).pairing = none :=
  ⟨1, ⟨false, false, true, true, 2, 0, 1, [], 512, 0⟩, (serving.set (Fld.CTX_STATE_STATE 1) 3).ctxUpd 1 fun x => { x with op := some ⟨false, false, true, true, 2, 0, 1, [], 512, 0⟩ }, by decide +kernel⟩

theorem witness_context_reset_and_watchdog_2 : ∃ (c : Fin 1024) (o : CtxOp) (s : State),
    (s.ctx c).op = some o ∧ s.cst c = 1 ∧ s.partner c = none ∧ (s.ctx c).share = none ∧ (s.ctx c).pairing = none ∧ o.absent = false ∧ o.cmds = [] ∧ o.cause < 8 :=
  ⟨1, ⟨false, false, true, true, 2, 0, 1, [], 512, 0⟩, (serving.set (Fld.CTX_STATE_STATE 1) 1).ctxUpd 1 fun x => { x with op := some ⟨false, false, true, true, 2, 0, 1, [], 512, 0⟩ }, by decide +kernel⟩

theorem witness_context_reset_and_watchdog_3 : ∃ (c : Fin 1024) (s : State),
    s.cst c = 5 :=
  ⟨1, serving.set (Fld.CTX_STATE_STATE 1) 5, by decide +kernel⟩

theorem witness_context_reset_and_watchdog_4 : ∃ (c : Fin 1024) (o : CtxOp) (s : State),
    (s.ctx c).op = some o ∧ s.cst c = 4 ∧ (ctxQuiet s c = true ∨ o.tmo ≤ s.since o.start + 1) :=
  ⟨1, ⟨false, false, true, true, 2, 0, 1, [], 512, 0⟩, (serving.set (Fld.CTX_STATE_STATE 1) 4).ctxUpd 1 fun x => { x with op := some ⟨false, false, true, true, 2, 0, 1, [], 512, 0⟩ }, by decide +kernel⟩

theorem witness_context_reset_and_watchdog_5 : ∃ (c : Fin 1024) (s : State),
    s.cst c = 3 ∧ s.get (Fld.CTX_CAPS_QP_EN c) = 0 ∧ (∀ q ∈ List.range 64, s.isSet (Fld.QP_STATUS_QUIESCED c q) = true) ∧ tagsOf s c = 0 :=
  ⟨1, (List.range 64).foldl (fun s q => s.set (Fld.QP_STATUS_QUIESCED 1 q) 1) ((serving.set (Fld.CTX_STATE_STATE 1) 3).set (Fld.CTX_SHARE4_QP_MAX 1) 4 |>.set (Fld.CTX_SHARE4_DESC_MAX 1) 64), by decide +kernel⟩

theorem witness_context_reset_and_watchdog_6 : ∃ (c : Fin 1024) (o : CtxOp) (l : List Nat) (s : State),
    (s.ctx c).op = some o ∧ s.cst c = 5 ∧ c.val ∈ l ∧ o.absent = false ∧ o.destroy = false ∧ o.cmds = [] ∧ o.cause < 8 :=
  ⟨1, ⟨false, false, true, true, 2, 0, 1, [], 512, 0⟩, [1], (serving.set (Fld.CTX_STATE_STATE 1) 5).ctxUpd 1 fun x => { x with op := some ⟨false, false, true, true, 2, 0, 1, [], 512, 0⟩ }, by decide +kernel⟩

theorem witness_context_reset_and_watchdog_7 : ∃ (c : Fin 1024) (o : CtxOp) (l : List Nat) (s : State),
    (s.ctx c).op = some o ∧ s.cst c = 5 ∧ c.val ∈ l ∧ o.absent = false ∧ o.destroy = true ∧ o.cmds = [] :=
  ⟨1, ⟨true, false, true, true, 2, 0, 1, [], 512, 0⟩, [1], (serving.set (Fld.CTX_STATE_STATE 1) 5).ctxUpd 1 fun x => { x with op := some ⟨true, false, true, true, 2, 0, 1, [], 512, 0⟩ }, by decide +kernel⟩

theorem witness_context_reset_and_watchdog_8 : ∃ (c : Fin 1024) (o : CtxOp) (s : State),
    (s.ctx c).op = some o ∧ s.cst c = 4 ∧ (ctxQuiet s c = true ∨ o.tmo ≤ s.since o.start) ∧ (s.ctxIds.filter fun x => s.cst x == 5).length < 32 :=
  ⟨1, ⟨false, false, true, true, 2, 0, 1, [], 512, 0⟩, (serving.set (Fld.CTX_STATE_STATE 1) 4).ctxUpd 1 fun x => { x with op := some ⟨false, false, true, true, 2, 0, 1, [], 512, 0⟩ }, by decide +kernel⟩

theorem witness_context_reset_and_watchdog_9 : ∃ (c : Fin 1024) (s : State),
    quiescent s c = true ∧ 1 ≤ s.qpMax c ∧ 16 ≤ s.descMax c :=
  ⟨1, (List.range 64).foldl (fun s q => s.set (Fld.QP_STATUS_QUIESCED 1 q) 1) ((serving.set (Fld.CTX_STATE_STATE 1) 3).set (Fld.CTX_SHARE4_QP_MAX 1) 4 |>.set (Fld.CTX_SHARE4_DESC_MAX 1) 64), by decide +kernel⟩

theorem witness_context_reset_and_watchdog_10 : ∃ (c : Fin 1024) (s : State),
    quiescent s c = true ∧ (s.qpMax c = 0 ∨ s.descMax c < 16) :=
  ⟨1, ((List.range 64).foldl (fun s q => s.set (Fld.QP_STATUS_QUIESCED 1 q) 1) ((serving.set (Fld.CTX_STATE_STATE 1) 3).set (Fld.CTX_SHARE4_QP_MAX 1) 4 |>.set (Fld.CTX_SHARE4_DESC_MAX 1) 64)).set (Fld.CTX_SHARE4_QP_MAX 1) 0, by decide +kernel⟩

theorem witness_context_reset_and_watchdog_11 : ∃ (c : Fin 1024) (s : State),
    s.isSet (Fld.CTX_WDOG_STATUS_RUNNING c) = true ∧ s.get (Fld.CTX_WDOG_STATUS_REMAIN c) = 0 ∧ s.live c = true ∧ s.get (Fld.CTX_WDOG_STATUS_MODE c) ≠ 0 ∧ s.isSet (Fld.CTX_WDOG_STATUS_ACTION c) = false :=
  ⟨1, ((serving.set (Fld.CTX_STATE_STATE 1) 2).set (Fld.CTX_WDOG_STATUS_RUNNING 1) 1).set (Fld.CTX_WDOG_STATUS_MODE 1) 1, by decide +kernel⟩

theorem witness_context_reset_and_watchdog_12 : ∃ (c : Fin 1024) (s : State),
    HostTurn s c ∧ s.ds.full = false ∧ (s.fn c).enabled = true ∧ s.get (Fld.CTX_WDOG_STATUS_MODE c) = 1 :=
  ⟨1, (opened.set (Fld.CTX_WDOG_STATUS_MODE 1) 1).set (Fld.CTX_SEL_WDOG_PERIOD 1) 2000, by decide +kernel⟩

theorem witness_context_reset_and_watchdog_13 : ∃ (c : Fin 1024) (s : State),
    HostTurn s c ∧ s.ds.full = false ∧ s.get (Fld.CTX_WDOG_STATUS_MODE c) ≠ 1 :=
  ⟨1, serving, by decide +kernel⟩

theorem witness_context_reset_and_watchdog_14 : ∃ (v : Word) (s : State),
    HostTurn s 0 ∧ s.ds.full = false ∧ (s.fn 0).enabled = true ∧ mapCause s (.host 0) 0x180008 true = none ∧ blockGated s (blockOf 0x180008) = false ∧ bitsOf (s.bank (.host 0) Adr.CTX_SEL).toNat 9 0 = 0 :=
  ⟨0x40001000, serving.set (Fld.CTX_STATE_STATE 0) 2, by decide +kernel⟩

theorem witness_context_reset_and_watchdog_15 : ∃ (v : Word) (s : State),
    mapCause s .bc 0x180008 true = none ∧ blockGated s (blockOf 0x180008) = false ∧ ctxCmdErr s (bitsOf (s.bank .bc Adr.CTX_SEL).toNat 9 0) = none :=
  ⟨1, serving, by decide +kernel⟩

theorem witness_doorbells_and_fetching_0 : ∃ (c : Fin 1024) (q : Fin 64) (s : State),
    s.isSet (Fld.QP_STATUS_EN_ACTIVE c q) = false ∧ qpCfgErr s c q = 0 :=
  ⟨1, 1, (serving.set (Fld.CTX_STATE_STATE 1) 3).set (Fld.CTX_SHARE4_QP_MAX 1) 4, by decide +kernel⟩

theorem witness_doorbells_and_fetching_1 : ∃ (c : Fin 1024) (q : Fin 64) (s : State),
    s.isSet (Fld.QP_STATUS_EN_ACTIVE c q) = false ∧ qpCfgErr s c q ≠ 0 :=
  ⟨1, 1, serving, by decide +kernel⟩

theorem witness_doorbells_and_fetching_2 : ∃ (c : Fin 1024) (q : Fin 64) (s : State),
    s.isSet (Fld.QP_STATUS_EN_ACTIVE c q) = true :=
  ⟨1, 1, asked, by decide +kernel⟩

theorem witness_doorbells_and_fetching_3 : ∃ (c : Fin 1024) (q : Fin 64) (s : State),
    s.isSet (Fld.QP_STATUS_EN_ACTIVE c q) = true :=
  ⟨1, 1, asked, by decide +kernel⟩

theorem witness_doorbells_and_fetching_4 : ∃ (c : Fin 1024) (q : Fin 64) (s : State),
    s.isSet (Fld.QP_STATUS_EN_ACTIVE c q) = false :=
  ⟨1, 2, asked, by decide +kernel⟩

theorem witness_doorbells_and_fetching_5 : ∃ (c : Fin 1024) (q : Fin 64) (tail : BitVec 16) (s : State),
    HostTurn s c ∧ s.ds.full = false ∧ (s.fn c).enabled = true ∧ doorbellRefused (hostNoted s) c q = false ∧ tail.toNat < (hostNoted s).sqDepth c q :=
  ⟨1, 1, 5, (asked.fnUpd 1 fun f => { f with bme := true, enabled := true }), by decide +kernel⟩

theorem witness_doorbells_and_fetching_6 : ∃ (c : Fin 1024) (q : Fin 64) (tail : Option (BitVec 16)) (head : Option (BitVec 16)) (s : State),
    HostTurn s c ∧ s.ds.full = false ∧ (s.fn c).enabled = true ∧ s.cst c ≠ 0 ∧ doorbellRefused (hostNoted s) c q = true :=
  ⟨1, 2, some 5, none, (asked.fnUpd 1 fun f => { f with bme := true, enabled := true }), by decide +kernel⟩

theorem witness_doorbells_and_fetching_7 : ∃ (c : Fin 1024) (q : Fin 64) (tail : Option (BitVec 16)) (head : Option (BitVec 16)) (s : State),
    HostTurn s c ∧ s.ds.full = false ∧ ((s.fn c).enabled = false ∨ s.cst c = 0) :=
  ⟨1, 1, some 5, none, asked, by decide +kernel⟩

theorem witness_doorbells_and_fetching_8 : ∃ (c : Fin 1024) (q : Fin 64) (data : List Byte) (s : State),
    mayFetch s c q = true ∧ tagLeft s c 0 = true ∧ (s.fn c).atsEn = false ∧ s.sqDepth c q ≤ 65536 :=
  ⟨1, 1, List.replicate 64 0, asked, by decide +kernel⟩

theorem witness_doorbells_and_fetching_9 : ∃ (c : Fin 1024) (q : Fin 64) (k : Fin 64) (data : List Byte) (why : FetchFailure) (p : Nat × Nat) (s : State),
    mayFetch s c q = true ∧ tagLeft s c 0 = true ∧ (fetchPieces s c q)[k.val]? = some p ∧ s.sqDepth c q ≤ 65536 :=
  ⟨1, 1, 0, List.replicate 64 0, .timeout, (0, 64), asked, by decide +kernel⟩

theorem witness_doorbells_and_fetching_10 : ∃ (c : Fin 1024) (q : Fin 64) (data : List Byte) (why : FetchFailure) (d : Desc) (s : State),
    mayFetch s c q = true ∧ tagLeft s c 0 = true ∧ (fetchPieces s c q)[0]? = some (0, 64) ∧ (s.qp c q).unfetched.head? = some d ∧ (s.ctx c).op = none ∧ d.fenced = false :=
  ⟨1, 1, [], .timeout, { slot := 0 }, asked, by decide +kernel⟩

theorem witness_doorbells_and_fetching_11 : ∃ (c : Fin 1024) (q : Fin 64) (e : Fin 32) (d : Desc) (r : Raw) (s : State),
    nextUndealt (s.qp c q) = some d ∧ d.raw = some r ∧ s.isSet (Fld.QP_STATUS_EN_ACTIVE c q) = true ∧ s.cst c = 3 ∧ s.resting = false ∧ bitOf (s.get Fld.QM_SPOKE_FENCED_ENGINE) e = false ∧ s.cqFull c q = false ∧ fencesAllow (s.qp c q) d r = true ∧ weightsAllow s c r = true ∧ descRefusal (s.inc Fld.QM_DEALT_COUNT 1) c r = none ∧ r.mirror = false :=
  ⟨1, 1, 3, { slot := 0, raw := some (rawOf []) }, rawOf [], asked.qpUpd 1 1 fun p => { p with descs := [{ slot := 0, raw := some (rawOf []) }] }, by decide +kernel⟩

theorem witness_doorbells_and_fetching_12 : ∃ (c : Fin 1024) (q : Fin 64) (slot : Fin 65536) (d : Desc) (s : State),
    ((s.qp c q).descs.find? fun d => d.slot == slot.val && d.finished) = some d :=
  ⟨1, 1, 0, { onSlot [] with ended := true }, holds [] |>.qpUpd 1 1 fun p => { p with descs := [{ onSlot [] with ended := true }] }, by decide +kernel⟩

theorem witness_doorbells_and_fetching_13 : ∃ (c : Fin 1024) (q : Fin 64) (e : Cpl) (es : List Cpl) (s : State),
    (s.qp c q).cpls = e :: es ∧ (s.qp c q).resv = [] ∧ s.cqFull c q = false ∧ s.hostOpen c = true ∧ (s.fn c).atsEn = false :=
  ⟨1, 1, ⟨7, 1, 0, 0, false, false, false, none⟩, [], asked.qpUpd 1 1 fun p => { p with cpls := [⟨7, 1, 0, 0, false, false, false, none⟩] }, by decide +kernel⟩

theorem witness_descriptor_opcodes_0 : ∃ (c : Fin 1024) (q : Fin 64) (slot : Fin 65536) (d : Desc) (r : Raw) (s : State),
    working s c q slot 0 = some (d, r) ∧ pagesChecked s (keyOf c q d) = true :=
  ⟨1, 1, 0, onSlot [0], rawOf [0], holds [0], by decide +kernel⟩

theorem witness_descriptor_opcodes_1 : ∃ (c : Fin 1024) (q : Fin 64) (slot : Fin 65536) (d : Desc) (r : Raw) (s : State),
    working s c q slot 1 = some (d, r) ∧ pagesChecked s (keyOf c q d) = true :=
  ⟨1, 1, 0, onSlot [1], rawOf [1], holds [1], by decide +kernel⟩

theorem witness_descriptor_opcodes_2 : ∃ (c : Fin 1024) (q : Fin 64) (slot : Fin 65536) (d : Desc) (r : Raw) (s : State),
    working s c q slot 2 = some (d, r) ∧ pagesChecked s (keyOf c q d) = true :=
  ⟨1, 1, 0, onSlot [2], rawOf [2], holds [2], by decide +kernel⟩

theorem witness_descriptor_opcodes_3 : ∃ (c : Fin 1024) (q : Fin 64) (slot : Fin 65536) (d : Desc) (r : Raw) (s : State),
    working s c q slot 3 = some (d, r) ∧ pagesChecked s (keyOf c q d) = true ∧ r.scope = 0 ∧ runningRaw s (keyOf c q d) = some (d, r) ∧ earlierDone s (keyOf c q d) = true :=
  ⟨1, 1, 0, onSlot [3], rawOf [3], holds [3], by decide +kernel⟩

theorem witness_descriptor_opcodes_4 : ∃ (c : Fin 1024) (q : Fin 64) (slot : Fin 65536) (d : Desc) (r : Raw) (s : State),
    working s c q slot 3 = some (d, r) ∧ pagesChecked s (keyOf c q d) = true ∧ runningRaw s (keyOf c q d) = some (d, r) ∧ r.scope ≠ 0 ∧ earlierDone s (keyOf c q d) = true ∧ contextDone s c d.stamp = true :=
  ⟨1, 1, 0, onSlot ([3] ++ List.replicate 31 0 ++ [1]), rawOf ([3] ++ List.replicate 31 0 ++ [1]), holds ([3] ++ List.replicate 31 0 ++ [1]), by decide +kernel⟩

theorem witness_descriptor_opcodes_5 : ∃ (c : Fin 1024) (q : Fin 64) (slot : Fin 65536) (d : Desc) (r : Raw) (s : State),
    working s c q slot 3 = some (d, r) ∧ pagesChecked s (keyOf c q d) = true ∧ runningRaw s (keyOf c q d) = some (d, r) ∧ r.scope ≠ 0 ∧ contextDone s c d.stamp = false :=
  ⟨1, 1, 0, { onSlot ([3] ++ List.replicate 31 0 ++ [1]) with stamp := 5 }, rawOf ([3] ++ List.replicate 31 0 ++ [1]), ((holds ([3] ++ List.replicate 31 0 ++ [1])).qpUpd 1 1 fun p => { p with descs := [{ onSlot ([3] ++ List.replicate 31 0 ++ [1]) with stamp := 5 }] }).qpUpd 1 2 fun p => { p with descs := [{ slot := 0 }] }, by decide +kernel⟩

theorem witness_descriptor_opcodes_6 : ∃ (c : Fin 1024) (q : Fin 64) (slot : Fin 65536) (d : Desc) (r : Raw) (s : State),
    working s c q slot 3 = some (d, r) ∧ pagesChecked s (keyOf c q d) = true ∧ earlierDone s (keyOf c q d) = false :=
  ⟨1, 1, 1, { onSlot [3] with slot := 1 }, rawOf [3], holds [3] |>.qpUpd 1 1 fun p => { p with descs := [onSlot [0], { onSlot [3] with slot := 1 }] }, by decide +kernel⟩

theorem witness_descriptor_opcodes_7 : ∃ (c : Fin 1024) (q : Fin 64) (slot : Fin 65536) (d : Desc) (r : Raw) (s : State),
    working s c q slot 4 = some (d, r) ∧ pagesChecked s (keyOf c q d) = true ∧ runningRaw s (keyOf c q d) = some (d, r) ∧ earlierDone s (keyOf c q d) = true ∧ unprotectedBefore s (keyOf c q d) (d.persistAt.getD s.ds.copyNo) = false :=
  ⟨1, 1, 0, onSlot [4], rawOf [4], holds [4], by decide +kernel⟩

theorem witness_descriptor_opcodes_8 : ∃ (c : Fin 1024) (q : Fin 64) (slot : Fin 65536) (d : Desc) (r : Raw) (s : State),
    working s c q slot 5 = some (d, r) ∧ pagesChecked s (keyOf c q d) = true ∧ runningRaw s (keyOf c q d) = some (d, r) ∧ d.wnext = 0 :=
  ⟨1, 1, 0, onSlot [5, 0, 0x10], rawOf [5, 0, 0x10], holds [5, 0, 0x10], by decide +kernel⟩

theorem witness_descriptor_opcodes_9 : ∃ (c : Fin 1024) (q : Fin 64) (slot : Fin 65536) (d : Desc) (r : Raw) (s : State),
    working s c q slot 5 = some (d, r) ∧ pagesChecked s (keyOf c q d) = true ∧ runningRaw s (keyOf c q d) = some (d, r) ∧ d.wnext ≠ 0 ∧ d.old ≠ [] ∧ d.wpend = 0 :=
  ⟨1, 1, 0, { onSlot [5] with wnext := 8, old := [1, 2, 3, 4, 5, 6, 7, 8] }, rawOf [5], holds [5] |>.qpUpd 1 1 fun p => { p with descs := [{ onSlot [5] with wnext := 8, old := [1, 2, 3, 4, 5, 6, 7, 8] }] }, by decide +kernel⟩

theorem witness_descriptor_opcodes_10 : ∃ (c : Fin 1024) (q : Fin 64) (slot : Fin 65536) (d : Desc) (r : Raw) (s : State),
    working s c q slot 7 = some (d, r) ∧ pagesChecked s (keyOf c q d) = true :=
  ⟨1, 1, 0, onSlot [7], rawOf [7], holds [7], by decide +kernel⟩

theorem witness_descriptor_opcodes_11 : ∃ (c : Fin 1024) (q : Fin 64) (slot : Fin 65536) (d : Desc) (e : Desc) (r : Raw) (r2 : Raw) (s : State),
    working s c q slot 6 = some (d, r) ∧ pagesChecked s (keyOf c q d) = true ∧ runningRaw (readStep (keyOf c q d) (readStep (keyOf c q d) s)) (keyOf c q d) = some (e, r2) ∧ (contiguous (e.got.length + 1) 0 e.got).length ≠ r2.length :=
  ⟨1, 1, 0, { onSlot [6, 0, 0, 0, 0, 0, 0, 0, 0, 0, 0, 0, 0, 0, 0, 0, 0, 0, 0, 0, 0, 0, 0, 0, 8] with got := [(4, [1])], rnext := 8, rpend := 8 }, { onSlot [6, 0, 0, 0, 0, 0, 0, 0, 0, 0, 0, 0, 0, 0, 0, 0, 0, 0, 0, 0, 0, 0, 0, 0, 8] with got := [(4, [1])], rnext := 8, rpend := 8 }, rawOf [6, 0, 0, 0, 0, 0, 0, 0, 0, 0, 0, 0, 0, 0, 0, 0, 0, 0, 0, 0, 0, 0, 0, 0, 8], rawOf [6, 0, 0, 0, 0, 0, 0, 0, 0, 0, 0, 0, 0, 0, 0, 0, 0, 0, 0, 0, 0, 0, 0, 0, 8], holds [] |>.qpUpd 1 1 fun p => { p with descs := [{ onSlot [6, 0, 0, 0, 0, 0, 0, 0, 0, 0, 0, 0, 0, 0, 0, 0, 0, 0, 0, 0, 0, 0, 0, 0, 8] with got := [(4, [1])], rnext := 8, rpend := 8 }] }, by decide +kernel⟩

theorem witness_descriptor_opcodes_12 : ∃ (c : Fin 1024) (q : Fin 64) (slot : Fin 65536) (d : Desc) (e : Desc) (r : Raw) (r2 : Raw) (s : State),
    working s c q slot 6 = some (d, r) ∧ pagesChecked s (keyOf c q d) = true ∧ runningRaw (readStep (keyOf c q d) (readStep (keyOf c q d) s)) (keyOf c q d) = some (e, r2) ∧ e.localRead = false ∧ (contiguous (e.got.length + 1) 0 e.got).length = r2.length :=
  ⟨1, 1, 0, { onSlot [6, 0, 0, 0, 0, 0, 0, 0, 0, 0, 0, 0, 0, 0, 0, 0, 0, 0, 0, 0, 0, 0, 0, 0, 8] with got := [(0, [1, 2, 3, 4, 5, 6, 7, 8])], rnext := 8, rpend := 0 }, { onSlot [6, 0, 0, 0, 0, 0, 0, 0, 0, 0, 0, 0, 0, 0, 0, 0, 0, 0, 0, 0, 0, 0, 0, 0, 8] with got := [(0, [1, 2, 3, 4, 5, 6, 7, 8])], rnext := 8, rpend := 0 }, rawOf [6, 0, 0, 0, 0, 0, 0, 0, 0, 0, 0, 0, 0, 0, 0, 0, 0, 0, 0, 0, 0, 0, 0, 0, 8], rawOf [6, 0, 0, 0, 0, 0, 0, 0, 0, 0, 0, 0, 0, 0, 0, 0, 0, 0, 0, 0, 0, 0, 0, 0, 8], holds [] |>.qpUpd 1 1 fun p => { p with descs := [{ onSlot [6, 0, 0, 0, 0, 0, 0, 0, 0, 0, 0, 0, 0, 0, 0, 0, 0, 0, 0, 0, 0, 0, 0, 0, 8] with got := [(0, [1, 2, 3, 4, 5, 6, 7, 8])], rnext := 8, rpend := 0 }] }, by decide +kernel⟩

theorem witness_descriptor_opcodes_13 : ∃ (c : Fin 1024) (q : Fin 64) (slot : Fin 65536) (d : Desc) (r : Raw) (s : State),
    working s c q slot 8 = some (d, r) ∧ pagesChecked s (keyOf c q d) = true ∧ runningRaw s (keyOf c q d) = some (d, r) ∧ r.markWrite = false :=
  ⟨1, 1, 0, onSlot [8], rawOf [8], holds [8], by decide +kernel⟩

theorem witness_descriptor_opcodes_14 : ∃ (c : Fin 1024) (q : Fin 64) (slot : Fin 65536) (d : Desc) (r : Raw) (s : State),
    working s c q slot 8 = some (d, r) ∧ pagesChecked s (keyOf c q d) = true ∧ runningRaw s (keyOf c q d) = some (d, r) ∧ r.markWrite = true :=
  ⟨1, 1, 0, onSlot ([8] ++ List.replicate 39 0 ++ [1]), rawOf ([8] ++ List.replicate 39 0 ++ [1]), holds ([8] ++ List.replicate 39 0 ++ [1]), by decide +kernel⟩

theorem witness_aborts_engine_fences_and_wfence_0 : ∃ (c : Fin 1024) (q : Fin 64) (s : State),
    s.get (Fld.QP_ABORT_RESULT c q) ≠ 1 :=
  ⟨1, 1, asked, by decide +kernel⟩

theorem witness_aborts_engine_fences_and_wfence_1 : ∃ (c : Fin 1024) (q : Fin 64) (s : State),
    s.get (Fld.QP_ABORT_RESULT c q) = 1 :=
  ⟨1, 1, asked.set (Fld.QP_ABORT_RESULT 1 1) 1, by decide +kernel⟩

theorem witness_aborts_engine_fences_and_wfence_2 : ∃ (c : Fin 1024) (q : Fin 64) (s : State),
    (s.qp c q).abort = some s.now :=
  ⟨1, 1, asked.qpUpd 1 1 fun p => { p with abort := some 0 }, by decide +kernel⟩

theorem witness_aborts_engine_fences_and_wfence_3 : ∃ (c : Fin 1024) (q : Fin 64) (v : Stroke) (s : State),
    (s.qp c q).abort = some v ∧ v ≠ s.now :=
  ⟨1, 1, 7, ({ asked with now := 9 } : State).qpUpd 1 1 fun p => { p with abort := some 7 }, by decide +kernel⟩

theorem witness_aborts_engine_fences_and_wfence_4 : ∃ (c : Fin 1024) (q : Fin 64) (v : Stroke) (s : State),
    (s.qp c q).abort = some v ∧ resetStamped s c v = true :=
  ⟨1, 1, 7, (({ asked with now := 9 } : State).qpUpd 1 1 fun p => { p with abort := some 7 }).ctxUpd 1 fun x => { x with op := some ⟨false, false, true, true, 2, 7, 7, [], 512, 0⟩ }, by decide +kernel⟩

theorem witness_aborts_engine_fences_and_wfence_5 : ∃ (c : Fin 1024) (q : Fin 64) (v : Stroke) (s : State),
    (s.qp c q).abort = some v ∧ resetStamped s c v = false ∧ abortTarget (s.qp c q) (s.get (Fld.QP_ABORT_TAG_TAG c q)) = none :=
  ⟨1, 1, 7, ({ asked with now := 9 } : State).qpUpd 1 1 fun p => { p with abort := some 7 }, by decide +kernel⟩

theorem witness_aborts_engine_fences_and_wfence_6 : ∃ (c : Fin 1024) (q : Fin 64) (v : Stroke) (s : State),
    (s.qp c q).abort = some v ∧ resetStamped s c v = false ∧ abortTarget (s.qp c q) (s.get (Fld.QP_ABORT_TAG_TAG c q)) = some none :=
  ⟨1, 1, 0, asked.qpUpd 1 1 fun p => { p with abort := some 0, cpls := [⟨0, 1, 0, 0, false, false, false, some 0⟩] }, by decide +kernel⟩

theorem witness_aborts_engine_fences_and_wfence_7 : ∃ (c : Fin 1024) (q : Fin 64) (v : Stroke) (d : Desc) (s : State),
    (s.qp c q).abort = some v ∧ resetStamped s c v = false ∧ abortTarget (s.qp c q) (s.get (Fld.QP_ABORT_TAG_TAG c q)) = some (some d) ∧ d.committedBy v = true :=
  ⟨1, 1, 7, { onSlot [0] with commit := some 5 }, holds [0] |>.qpUpd 1 1 fun p => { p with abort := some 7, descs := [{ onSlot [0] with commit := some 5 }] }, by decide +kernel⟩

theorem witness_aborts_engine_fences_and_wfence_8 : ∃ (c : Fin 1024) (q : Fin 64) (v : Stroke) (d : Desc) (s : State),
    (s.qp c q).abort = some v ∧ resetStamped s c v = false ∧ abortTarget (s.qp c q) (s.get (Fld.QP_ABORT_TAG_TAG c q)) = some (some d) ∧ d.committedBy v = false :=
  ⟨1, 1, 7, onSlot [0], holds [0] |>.qpUpd 1 1 fun p => { p with abort := some 7 }, by decide +kernel⟩

theorem witness_aborts_engine_fences_and_wfence_10 : ∃ (e : Fin 32) (journal : Bool) (s : State),
    s.get Fld.QM_SPOKE_FENCED_ENGINE = 0 ∧ s.deferred = [] :=
  ⟨31, true, serving, by decide +kernel⟩

theorem witness_aborts_engine_fences_and_wfence_11 : ∃ (e : Fin 32) (journal : Bool) (s : State),
    bitOf (s.get Fld.QM_SPOKE_FENCED_ENGINE) e = true ∧ s.deferred = [] :=
  ⟨31, true, serving.set Fld.QM_SPOKE_FENCED_ENGINE (2 ^ 31), by decide +kernel⟩

theorem witness_aborts_engine_fences_and_wfence_12 : ∃ (c : Fin 1024) (s : State),
    HostOpen s :=
  ⟨1, serving, by decide +kernel⟩

theorem witness_aborts_engine_fences_and_wfence_13 : ∃ (c : Fin 1024) (r : HeldRead) (rs : List HeldRead) (s : State),
    (s.ctx c).wfence = r :: rs ∧ fenceDone s c r = true ∧ r.rest = none :=
  ⟨1, ⟨0, 0, 0, 15, none, []⟩, [], serving.ctxUpd 1 fun x => { x with wfence := [⟨0, 0, 0, 15, none, []⟩] }, by decide +kernel⟩

theorem witness_aborts_engine_fences_and_wfence_14 : ∃ (c : Fin 1024) (r : HeldRead) (rs : List HeldRead) (s : State),
    (s.ctx c).wfence = r :: rs ∧ fenceDone s c r = false ∧ heldLimit ≤ s.since r.since ∧ r.rest = none :=
  ⟨1, ⟨0, 5, 1, 15, none, []⟩, [], (({ serving with now := 124000 } : State).ctxUpd 1 fun x => { x with wfence := [⟨0, 5, 1, 15, none, []⟩] }).dsUpd fun d => { d with wait := [⟨.host 1 0, 0, 0, []⟩] }, by decide +kernel⟩

theorem witness_port_training_and_failure_1 : ∃ (p : Fin 4) (s : State),
    s.lbState p ≠ 0 ∧ s.lbState p ≠ 4 :=
  ⟨0, active.set (Fld.LB_STATUS_STATE 0) 2, by decide +kernel⟩

theorem witness_port_training_and_failure_2 : ∃ (p : Fin 4) (s : State),
    s.lbState p = 0 ∧ s.isSet (Fld.LB_CTL_EN p) = true ∧ 2 ≤ s.since (s.lb p).since ∧ (s.mode = .standby ∨ s.mode = .serving ∨ s.mode = .draining) :=
  ⟨0, { serving.set (Fld.LB_CTL_EN 0) 1 with now := 2 }, by decide +kernel⟩

theorem witness_port_training_and_failure_3 : ∃ (p : Fin 4) (s : State),
    s.isSet (Fld.LB_CTL_EN p) = false :=
  ⟨0, serving, by decide +kernel⟩

theorem witness_port_training_and_failure_4 : ∃ (p : Fin 4) (s : State),
    s.lbActive p = false :=
  ⟨0, serving, by decide +kernel⟩

theorem witness_port_training_and_failure_5 : ∃ (p : Fin 4) (s : State),
    s.lbActive p = true :=
  ⟨0, active, by decide +kernel⟩

theorem witness_port_training_and_failure_6 : ∃ (p : Fin 4) (s : State),
    s.lbActive p = true :=
  ⟨0, active, by decide +kernel⟩

theorem witness_port_training_and_failure_7 : ∃ (p : Fin 4) (delays : List (BitVec 7)) (s : State),
    s.lbState p = 1 :=
  ⟨3, List.replicate 37 5, serving.set (Fld.LB_STATUS_STATE 3) 1, by decide +kernel⟩

theorem witness_port_training_and_failure_8 : ∃ (p : Fin 4) (s : State),
    s.lbState p = 2 ∧ (s.lb p).initRcvd = false :=
  ⟨3, serving.set (Fld.LB_STATUS_STATE 3) 2, by decide +kernel⟩

theorem witness_port_training_and_failure_9 : ∃ (p : Fin 4) (strobe : Bool) (s : State),
    s.lbState p = 1 ∧ s.get (Fld.LB_TRAIN_TMO p) ≤ s.since (s.lb p).released :=
  ⟨3, true, { serving.set (Fld.LB_STATUS_STATE 3) 1 with now := 100000000 }, by decide +kernel⟩

theorem witness_port_training_and_failure_10 : ∃ (p : Fin 4) (strobe : Bool) (s : State),
    (s.lbState p = 2 ∨ s.lbState p = 3) ∧ s.get (Fld.LB_TRAIN_TMO p) ≤ s.since (s.lb p).released :=
  ⟨3, true, { serving.set (Fld.LB_STATUS_STATE 3) 3 with now := 100000000 }, by decide +kernel⟩

theorem witness_port_training_and_failure_11 : ∃ (p : Fin 4) (s : State),
    s.lbState p = 5 ∧ s.get (Fld.LB_TRAIN_GAP p) ≤ s.since (s.lb p).since :=
  ⟨3, { serving.set (Fld.LB_STATUS_STATE 3) 5 with now := 100000000 }, by decide +kernel⟩

theorem witness_port_training_and_failure_12 : ∃ (p : Fin 4) (counts : Word) (rev : BitVec 8) (s : State),
    s.lbState p = 3 ∧ rev ≠ 1 :=
  ⟨3, 0x20202020, 2, serving.set (Fld.LB_STATUS_STATE 3) 3, by decide +kernel⟩

theorem witness_port_training_and_failure_13 : ∃ (p : Fin 4) (counts : Word) (s : State),
    s.lbState p = 3 ∧ bitsOf counts.toNat 7 0 = 0 :=
  ⟨3, 0x20202000, serving.set (Fld.LB_STATUS_STATE 3) 3, by decide +kernel⟩

theorem witness_port_training_and_failure_14 : ∃ (p : Fin 4) (counts : Word) (s : State),
    s.lbState p = 3 ∧ (s.lb p).initSent = false ∧ bitsOf counts.toNat 7 0 ≠ 0 ∧ bitsOf counts.toNat 15 8 ≠ 0 ∧ bitsOf counts.toNat 23 16 ≠ 0 ∧ bitsOf counts.toNat 31 24 ≠ 0 :=
  ⟨3, 0x20202020, serving.set (Fld.LB_STATUS_STATE 3) 3, by decide +kernel⟩

theorem witness_port_training_and_failure_15 : ∃ (p : Fin 4) (counts : Word) (s : State),
    s.lbState p = 3 ∧ (s.lb p).initSent = true ∧ (s.lb p).lint = [] ∧ bitsOf counts.toNat 7 0 ≠ 0 ∧ bitsOf counts.toNat 15 8 ≠ 0 ∧ bitsOf counts.toNat 23 16 ≠ 0 ∧ bitsOf counts.toNat 31 24 ≠ 0 :=
  ⟨0, 0x04030201, (active.set (Fld.LB_STATUS_STATE 0) 3).lbUpd 0 fun l => { l with initSent := true }, by decide +kernel⟩

theorem witness_port_credits_errors_and_egress_0 : ∃ (p : Fin 4) (credits : BitVec 16) (s : State),
    s.lbActive p = true :=
  ⟨0, 0x1111, active, by decide +kernel⟩

theorem witness_port_credits_errors_and_egress_1 : ∃ (p : Fin 4) (seq : BitVec 8) (credits : BitVec 16) (i : Nat) (s : State),
    s.lbActive p = true ∧ (s.lb p).lastNak = none ∧ ((s.lb p).held.findIdx? fun e => e.1 == seq.toNat) = some i :=
  ⟨0, 5, 0, 1, active.lbUpd 0 fun l => { l with held := [(4, { op := 4 }, 0), (5, { op := 4 }, 0)] }, by decide +kernel⟩

theorem witness_port_credits_errors_and_egress_2 : ∃ (p : Fin 4) (s : State),
    s.lbActive p = true ∧ (s.lb p).errOut = false :=
  ⟨0, active, by decide +kernel⟩

theorem witness_port_credits_errors_and_egress_3 : ∃ (p : Fin 4) (s : State),
    s.lbActive p = true ∧ (s.lb p).errOut = true :=
  ⟨0, active.lbUpd 0 fun l => { l with errOut := true }, by decide +kernel⟩

theorem witness_port_credits_errors_and_egress_4 : ∃ (p : Fin 4) (v : BitVec 16) (s : State),
    s.lbActive p = true ∧ (s.lb p).errOut = true :=
  ⟨0, 5, active.lbUpd 0 fun l => { l with errOut := true }, by decide +kernel⟩

theorem witness_port_credits_errors_and_egress_5 : ∃ (p : Fin 4) (v : Option (BitVec 16)) (s : State),
    s.lbState p = 3 :=
  ⟨0, none, active.set (Fld.LB_STATUS_STATE 0) 3, by decide +kernel⟩

theorem witness_port_credits_errors_and_egress_6 : ∃ (p : Fin 4) (s : State),
    ((s.lb p).errOut = false ∨ (s.lb p).naks ≠ []) :=
  ⟨0, serving, by decide +kernel⟩

theorem witness_port_credits_errors_and_egress_7 : ∃ (p : Fin 4) (s : State),
    s.lbActive p = true ∧ (s.lb p).errOut = true ∧ (s.lb p).naks = [] :=
  ⟨0, active.lbUpd 0 fun l => { l with errOut := true }, by decide +kernel⟩

theorem witness_port_credits_errors_and_egress_8 : ∃ (p : Fin 4) (s : State),
    s.lbActive p = true ∧ ((s.lb p).freed.any (· != 0)) = true ∧ (s.lb p).naks = [] ∧ (s.lb p).replay = [] ∧ c0Ready (s.lb p) = false :=
  ⟨0, active.lbUpd 0 fun l => { l with freed := [1, 0, 0, 0] }, by decide +kernel⟩

theorem witness_port_credits_errors_and_egress_9 : ∃ (p : Fin 4) (v : Stroke) (vs : List Stroke) (s : State),
    s.lbActive p = true ∧ (s.lb p).bndSent = v :: vs ∧ 1 ≤ s.since v :=
  ⟨0, 0, [], ({ active with now := 1 } : State).lbUpd 0 fun l => { l with bndSent := [0] }, by decide +kernel⟩

theorem witness_port_credits_errors_and_egress_10 : ∃ (p : Fin 4) (n : Nat) (ns : List Nat) (s : State),
    s.lbActive p = true ∧ (s.lb p).naks = n :: ns ∧ (s.lb p).lastNak = none :=
  ⟨0, 3, [4], active.lbUpd 0 fun l => { l with naks := [3, 4] }, by decide +kernel⟩

theorem witness_port_credits_errors_and_egress_11 : ∃ (p : Fin 4) (q : Nat) (k : Pkt) (rs : List (Nat × Pkt)) (s : State),
    s.lbActive p = true ∧ (s.lb p).naks = [] ∧ (s.lb p).replay = (q, k) :: rs :=
  ⟨0, 3, { op := 2 }, [], active.lbUpd 0 fun l => { l with replay := [(3, { op := 2 })] }, by decide +kernel⟩

theorem witness_local_agents_requests_0 : ∃ (p : Fin 4) (rx : Rx) (tag : Fin 512) (addr : BitVec 48) (len : Fin 512) (c : Nat) (cls : Nat) (ha : Nat) (s : State) (u : State) (v : State),
    rxAccept p rx 2 s = (u, true) ∧ len.val ≠ 0 ∧ len.val ≤ 256 ∧ upDecide p addr.toNat len false true u = (v, .passes c cls ha) :=
  ⟨0, ⟨0, 0, false⟩, 3, 0x1000, 64, 0, 2, 0x1000, ruled, (rxAccept 0 ⟨0, 0, false⟩ 2 ruled).1, (upDecide 0 0x1000 64 false true (rxAccept 0 ⟨0, 0, false⟩ 2 ruled).1).1, by decide +kernel⟩

theorem witness_local_agents_requests_1 : ∃ (p : Fin 4) (rx : Rx) (tag : Fin 512) (addr : BitVec 48) (len : Fin 512) (code : Nat) (s : State) (u : State) (v : State),
    rxAccept p rx 2 s = (u, true) ∧ len.val ≠ 0 ∧ len.val ≤ 256 ∧ upDecide p addr.toNat len false true u = (v, .refused code) :=
  ⟨0, ⟨0, 0, false⟩, 3, 0x1000, 64, 3, active, (rxAccept 0 ⟨0, 0, false⟩ 2 active).1, (upDecide 0 0x1000 64 false true (rxAccept 0 ⟨0, 0, false⟩ 2 active).1).1, by decide +kernel⟩

theorem witness_local_agents_requests_2 : ∃ (p : Fin 4) (rx : Rx) (addr : BitVec 48) (data : List Byte) (c : Nat) (cls : Nat) (ha : Nat) (s : State) (u : State) (v : State),
    rxAccept p rx 1 s = (u, true) ∧ data ≠ [] ∧ data.length ≤ 256 ∧ upDecide p addr.toNat data.length true false u = (v, .passes c cls ha) :=
  ⟨0, ⟨0, 0, false⟩, 0x1000, [1, 2, 3], 0, 2, 0x1000, ruled, (rxAccept 0 ⟨0, 0, false⟩ 1 ruled).1, (upDecide 0 0x1000 3 true false (rxAccept 0 ⟨0, 0, false⟩ 1 ruled).1).1, by decide +kernel⟩

theorem witness_local_agents_requests_3 : ∃ (p : Fin 4) (rx : Rx) (addr : BitVec 48) (data : List Byte) (code : Nat) (s : State) (u : State) (v : State),
    rxAccept p rx 1 s = (u, true) ∧ data ≠ [] ∧ data.length ≤ 256 ∧ upDecide p addr.toNat data.length true false u = (v, .refused code) :=
  ⟨0, ⟨0, 0, false⟩, 0x1000, [1, 2, 3], 1, (ruled.set (Fld.LB_UPR_CFG_WR 0 0) 0), (rxAccept 0 ⟨0, 0, false⟩ 1 (ruled.set (Fld.LB_UPR_CFG_WR 0 0) 0)).1, (upDecide 0 0x1000 3 true false (rxAccept 0 ⟨0, 0, false⟩ 1 (ruled.set (Fld.LB_UPR_CFG_WR 0 0) 0)).1).1, by decide +kernel⟩

theorem witness_local_agents_requests_4 : ∃ (p : Fin 4) (rx : Rx) (tag : Fin 512) (addr : BitVec 48) (data : List Byte) (code : Nat) (s : State) (u : State) (v : State),
    rxAccept p rx 2 s = (u, true) ∧ data ≠ [] ∧ data.length ≤ 256 ∧ upDecide p addr.toNat data.length true true u = (v, .refused code) :=
  ⟨0, ⟨0, 0, false⟩, 7, 0x1000, [1, 2, 3], 1, (ruled.set (Fld.LB_UPR_CFG_WR 0 0) 0), (rxAccept 0 ⟨0, 0, false⟩ 2 (ruled.set (Fld.LB_UPR_CFG_WR 0 0) 0)).1, (upDecide 0 0x1000 3 true true (rxAccept 0 ⟨0, 0, false⟩ 2 (ruled.set (Fld.LB_UPR_CFG_WR 0 0) 0)).1).1, by decide +kernel⟩

theorem witness_local_agents_requests_5 : ∃ (p : Fin 4) (rx : Rx) (tag : Fin 512) (addr : BitVec 48) (data : List Byte) (c : Nat) (cls : Nat) (ha : Nat) (s : State) (u : State) (v : State),
    rxAccept p rx 2 s = (u, true) ∧ data ≠ [] ∧ data.length ≤ 256 ∧ upDecide p addr.toNat data.length true true u = (v, .passes c cls ha) :=
  ⟨0, ⟨0, 0, false⟩, 7, 0x1000, [1, 2, 3], 0, 2, 0x1000, ruled, (rxAccept 0 ⟨0, 0, false⟩ 2 ruled).1, (upDecide 0 0x1000 3 true true (rxAccept 0 ⟨0, 0, false⟩ 2 ruled).1).1, by decide +kernel⟩

theorem witness_local_agents_requests_6 : ∃ (p : Fin 4) (rx : Rx) (id : BitVec 16) (data : List Byte) (s : State) (u : State),
    rxAccept p rx 1 s = (u, true) ∧ data.length ≤ 256 ∧ routeOk u (routeNow u p 2 id.toNat) = false :=
  ⟨0, ⟨0, 0, false⟩, 5, [1], active, (rxAccept 0 ⟨0, 0, false⟩ 1 active).1, by decide +kernel⟩

theorem witness_local_agents_requests_7 : ∃ (p : Fin 4) (rx : Rx) (id : BitVec 16) (data : List Byte) (s : State) (u : State),
    rxAccept p rx 1 s = (u, true) ∧ data.length ≤ 256 :=
  ⟨0, ⟨0, 0, false⟩, 5, [1], active, (rxAccept 0 ⟨0, 0, false⟩ 1 active).1, by decide +kernel⟩

theorem witness_local_agents_requests_8 : ∃ (p : Fin 4) (rx : Rx) (sof : Bool) (eof : Bool) (info : Word) (data : List Byte) (s : State) (u : State),
    rxAccept p rx 1 s = (u, true) ∧ data ≠ [] ∧ data.length ≤ 256 ∧ frameBad (u.lb p).frame sof eof data.length = false :=
  ⟨0, ⟨0, 0, false⟩, true, true, 5, [1], active, (rxAccept 0 ⟨0, 0, false⟩ 1 active).1, by decide +kernel⟩

theorem witness_local_agents_requests_9 : ∃ (p : Fin 4) (rx : Rx) (event : Fin 16) (s : State) (u : State),
    rxAccept p rx 1 s = (u, true) :=
  ⟨0, ⟨0, 0, false⟩, 5, active, (rxAccept 0 ⟨0, 0, false⟩ 1 active).1, by decide +kernel⟩

theorem witness_local_agents_requests_10 : ∃ (p : Fin 4) (rx : Rx) (s : State) (u : State),
    rxAccept p rx 2 s = (u, true) :=
  ⟨0, ⟨0, 0, false⟩, active, (rxAccept 0 ⟨0, 0, false⟩ 2 active).1, by decide +kernel⟩

theorem witness_local_agents_requests_11 : ∃ (p : Fin 4) (rx : Rx) (tag : Fin 512) (code : BitVec 4) (data : List Byte) (s : State) (u : State),
    rxAccept p rx 3 s = (u, true) ∧ ((u.lb p).quar.contains tag.val) = true :=
  ⟨0, ⟨0, 0, false⟩, 3, 0, [], active.lbUpd 0 (fun l => { l with quar := [3] }), (rxAccept 0 ⟨0, 0, false⟩ 3 (active.lbUpd 0 fun l => { l with quar := [3] })).1, by decide +kernel⟩

theorem witness_local_agents_requests_12 : ∃ (p : Fin 4) (rx : Rx) (tag : Fin 512) (code : BitVec 4) (data : List Byte) (r : Req) (s : State) (u : State),
    rxAccept p rx 3 s = (u, true) ∧ ((u.lb p).quar.contains tag.val) = false ∧ ((u.lb p).reqs.find? fun r => r.tag == tag.val && !r.retry) = some r ∧ respAllowed r.pkt code.toNat = true ∧ data.length = respLen r.pkt code.toNat :=
  ⟨0, ⟨0, 0, false⟩, 3, 0, [], ⟨3, { op := 2 }, .nobody, 0, 0, false⟩, active.lbUpd 0 (fun l => { l with reqs := [⟨3, { op := 2 }, .nobody, 0, 0, false⟩] }), (rxAccept 0 ⟨0, 0, false⟩ 3 (active.lbUpd 0 fun l => { l with reqs := [⟨3, { op := 2 }, .nobody, 0, 0, false⟩] })).1, by decide +kernel⟩

theorem witness_port_timers_lint_and_prefetch_0 : ∃ (p : Fin 4) (tag : Fin 512) (r : Req) (s : State),
    ((s.lb p).reqs.find? fun r => r.tag == tag.val && r.retry) = some r ∧ s.lbActive p = true ∧ ((s.lb p).egress.any fun e => e.tag == some tag.val) = false :=
  ⟨0, 3, ⟨3, { op := 2 }, .nobody, 0, 0, true⟩, active.lbUpd 0 fun l => { l with reqs := [⟨3, { op := 2 }, .nobody, 0, 0, true⟩] }, by decide +kernel⟩

theorem witness_port_timers_lint_and_prefetch_1 : ∃ (p : Fin 4) (tag : Fin 512) (r : Req) (s : State),
    ((s.lb p).reqs.find? fun r => r.tag == tag.val) = some r ∧ r.tmo ≤ s.since r.issued ∧ r.src = .nobody :=
  ⟨0, 3, ⟨3, { op := 2 }, .nobody, 4, 0, false⟩, ({ active with now := 4 } : State).lbUpd 0 fun l => { l with reqs := [⟨3, { op := 2 }, .nobody, 4, 0, false⟩] }, by decide +kernel⟩

theorem witness_port_timers_lint_and_prefetch_4 : ∃ (p : Fin 4) (e : Fin 16) (x : Stranded) (s : State),
    ((s.lb p).srb.find? fun x => x.e == e.val) = some x ∧ 1024 ≤ s.since x.since :=
  ⟨0, 2, strandedAt, ({ active with now := 1024 } : State).lbUpd 0 fun l => { l with srb := [strandedAt] }, by decide +kernel⟩

theorem witness_port_timers_lint_and_prefetch_5 : ∃ (p : Fin 4) (line : Fin 4) (rising : Bool) (s : State),
    (s.isSet (Fld.LB_CTL_EN p) = false ∨ lintSelected s p line rising = false) :=
  ⟨0, 1, true, active, by decide +kernel⟩

theorem witness_port_timers_lint_and_prefetch_6 : ∃ (p : Fin 4) (line : Fin 4) (rising : Bool) (s : State),
    s.isSet (Fld.LB_CTL_EN p) = true ∧ s.mode ≠ .maintenance ∧ s.mode ≠ .preserve ∧ lintSelected s p line rising = true ∧ s.lbState p = 6 :=
  ⟨0, 1, true, (active.set (Fld.LB_STATUS_STATE 0) 6).setWord (Adr.LB_LINT_CFG 0) 0x000000F0, by decide +kernel⟩

theorem witness_port_timers_lint_and_prefetch_7 : ∃ (p : Fin 4) (line : Fin 4) (rising : Bool) (s : State),
    s.isSet (Fld.LB_CTL_EN p) = true ∧ s.mode ≠ .maintenance ∧ s.mode ≠ .preserve ∧ lintSelected s p line rising = true ∧ s.lbActive p = true ∧ (s.lb p).errOut = false ∧ (s.lb p).lintWait = [] ∧ (s.lb p).errAt ≠ some s.now :=
  ⟨0, 1, true, active.setWord (Adr.LB_LINT_CFG 0) 0x000000F0, by decide +kernel⟩

theorem witness_port_timers_lint_and_prefetch_8 : ∃ (p : Fin 4) (line : Fin 4) (rising : Bool) (s : State),
    s.isSet (Fld.LB_CTL_EN p) = true ∧ s.mode ≠ .maintenance ∧ s.mode ≠ .preserve ∧ lintSelected s p line rising = true ∧ s.lbActive p = true ∧ (s.lb p).errOut = true :=
  ⟨0, 1, true, (active.setWord (Adr.LB_LINT_CFG 0) 0x000000F0).lbUpd 0 fun l => { l with errOut := true }, by decide +kernel⟩

theorem witness_windows_routes_and_deliveries_0 : ∃ (c : Fin 1024) (w : Fin 16) (s : State),
    s.winOn c w = false :=
  ⟨1, 15, serving, by decide +kernel⟩

theorem witness_windows_routes_and_deliveries_1 : ∃ (c : Fin 1024) (w : Fin 16) (s : State),
    s.winOn c w = true ∧ .winUnmap c w ∉ s.deferred :=
  ⟨1, 15, serving.set (Fld.WIN_CTL_EN 1 15) 1, by decide +kernel⟩

theorem witness_windows_routes_and_deliveries_2 : ∃ (c : Fin 1024) (w : Fin 16) (s : State),
    .winUnmap c w ∈ s.deferred :=
  ⟨1, 15, { serving.set (Fld.WIN_CTL_EN 1 15) 1 with deferred := [.winUnmap 1 15] }, by decide +kernel⟩

theorem witness_windows_routes_and_deliveries_4 : ∃ (c : Fin 1024) (w : Fin 16) (v : Word) (s : State),
    v.getLsbD 31 = false ∧ (s.winOn c w = true ∨ winBusy s c w = true) :=
  ⟨1, 0, 5, mapped, by decide +kernel⟩

theorem witness_windows_routes_and_deliveries_5 : ∃ (c : Fin 1024) (w : Fin 16) (v : Word) (s : State),
    s.winOn c w = false ∧ winBusy s c w = false :=
  ⟨1, 15, 0x80000000, serving.set (Fld.WIN_ATTR_AUTOCLR 1 15) 1, by decide +kernel⟩

theorem witness_windows_routes_and_deliveries_6 : ∃ (c : Fin 1024) (w : Fin 16) (v : Word) (s : State),
    v.getLsbD 31 = true :=
  ⟨1, 15, 0x80000000, serving.set (Fld.WIN_ATTR_AUTOCLR 1 15) 1, by decide +kernel⟩

theorem witness_windows_routes_and_deliveries_8 : ∃ (p : Fin 4) (r : RItem) (s : State),
    (s.ritems.find? fun r => r.port == p.val && !routePeer r.route) = some r ∧ (r.tested = false ∨ routedMoved s r = false) :=
  ⟨0, toQueue, { delivers with ritems := [toQueue] }, by decide +kernel⟩

theorem witness_windows_routes_and_deliveries_9 : ∃ (r : RItem) (s : State),
    r.tested = false ∧ r.ready = true ∧ testWaits s r = false ∧ deliveryTest s r ≠ 0 :=
  ⟨toQueue, { serving with ritems := [toQueue] }, by decide +kernel⟩

theorem witness_windows_routes_and_deliveries_10 : ∃ (r : RItem) (s : State),
    r.tested = false ∧ r.ready = true ∧ testWaits s r = false ∧ deliveryTest s r = 0 :=
  ⟨toQueue, delivers, by decide +kernel⟩

theorem witness_windows_routes_and_deliveries_11 : ∃ (p : Fin 4) (r : RItem) (s : State),
    (s.ritems.find? fun r => r.port == p.val && !routePeer r.route) = some r ∧ r.tested = true ∧ routedMoved s r = true ∧ (s.qp (routeCtx r.route) (routeQp r.route)).resv.head? = some r.id ∧ s.hostOpen (routeCtx r.route) = true ∧ (s.fn (routeCtx r.route)).atsEn = false ∧ upWritesIssued s p r.id = true :=
  ⟨0, { toQueue with tested := true }, { delivers with ritems := [{ toQueue with tested := true }] }.qpUpd 0 0 fun p => { p with resv := [7] }, by decide +kernel⟩

theorem witness_windows_routes_and_deliveries_12 : ∃ (p : Fin 4) (r : RItem) (s : State),
    (s.ritems.find? fun r => r.port == p.val) = some r ∧ routePeer r.route = true ∧ r.ready = true ∧ upWritesIssued s p r.id = true ∧ s.route (routeMember r.route) = none :=
  ⟨0, { toQueue with route := 2 ^ 62 }, { active with ritems := [{ toQueue with route := 2 ^ 62 }] }, by decide +kernel⟩

theorem witness_windows_routes_and_deliveries_13 : ∃ (p : Fin 4) (k : Fin 4) (r : RItem) (s : State),
    (s.ritems.find? fun r => r.port == p.val) = some r ∧ routePeer r.route = true ∧ r.ready = true ∧ upWritesIssued s p r.id = true ∧ s.route (routeMember r.route) = some k.val :=
  ⟨0, 2, { toQueue with route := 0x4000000000300000 }, { near with ritems := [{ toQueue with route := 0x4000000000300000 }] }, by decide +kernel⟩

theorem witness_aperture_commands_0 : ∃ (mb : Fin 1032) (core : Fin 4) (x : Cmd) (s : State),
    mayTake s mb core 0x0301 = some x ∧ (takeCmd x core s).get Fld.DS_CFG_STATE ≠ 2 :=
  ⟨4, 0, cmdIn 0x0301 [1, 0, 0, 0], waits 0x0301 [1, 0, 0, 0] serving, by decide +kernel⟩

theorem witness_aperture_commands_1 : ∃ (mb : Fin 1032) (core : Fin 4) (x : Cmd) (s : State),
    mayTake s mb core 0x0301 = some x ∧ freeUnits (takeCmd x core s) < unitsReserved (takeCmd x core s) + leAt x.args 0 2 :=
  ⟨4, 0, cmdIn 0x0301 [2, 0, 0, 0], waits 0x0301 [2, 0, 0, 0] (serving.set Fld.DS_CFG_CAP_UNITS 1), by decide +kernel⟩

theorem witness_aperture_commands_2 : ∃ (s : State),
    s.aptIds.length < 2048 :=
  ⟨serving, by decide +kernel⟩

theorem witness_aperture_commands_3 : ∃ (mb : Fin 1032) (core : Fin 4) (x : Cmd) (s : State),
    mayTake s mb core 0x0301 = some x ∧ (takeCmd x core s).get Fld.DS_CFG_STATE = 2 ∧ unitsReserved (takeCmd x core s) + leAt x.args 0 2 ≤ freeUnits (takeCmd x core s) :=
  ⟨4, 0, cmdIn 0x0301 [1, 0, 0, 0], waits 0x0301 [1, 0, 0, 0] (serving.set Fld.DS_CFG_STATE 2), by decide +kernel⟩

theorem witness_aperture_commands_4 : ∃ (mb : Fin 1032) (core : Fin 4) (x : Cmd) (s : State) (u : State),
    mayTake s mb core 0x0301 = some x ∧ u = takeCmd x core s ∧ u.get Fld.DS_CFG_STATE = 2 ∧ unitsReserved u + leAt x.args 0 2 ≤ freeUnits u ∧ 1 ≤ leAt x.args 0 2 ∧ leAt x.args 0 2 ≤ 256 ∧ nextApt u < 2048 :=
  ⟨4, 0, cmdIn 0x0301 [1, 0, 0, 0], waits 0x0301 [1, 0, 0, 0] (serving.set Fld.DS_CFG_STATE 2), takeCmd (cmdIn 0x0301 [1, 0, 0, 0]) 0 (waits 0x0301 [1, 0, 0, 0] (serving.set Fld.DS_CFG_STATE 2)), by decide +kernel⟩

theorem witness_aperture_commands_5 : ∃ (mb : Fin 1032) (core : Fin 4) (x : Cmd) (s : State),
    mayTake s mb core 0x0302 = some x ∧ leAt x.args 0 2 < (takeCmd x core s).get Fld.DS_CFG_CAP_UNITS ∧ (takeCmd x core s).cst (leAt x.args 2 2) ≠ 0 ∧ aptErr (takeCmd x core s) (leAt x.args 0 2) true = none ∧ (takeCmd x core s).aptCtx (leAt x.args 0 2) = some (leAt x.args 2 2) :=
  ⟨4, 0, cmdIn 0x0302 [1, 0, 1, 0], waits 0x0302 [1, 0, 1, 0] attached, by decide +kernel⟩

theorem witness_aperture_commands_6 : ∃ (mb : Fin 1032) (core : Fin 4) (x : Cmd) (s : State) (u : State),
    mayTake s mb core 0x0302 = some x ∧ u = takeCmd x core s ∧ leAt x.args 0 2 < u.get Fld.DS_CFG_CAP_UNITS ∧ aptErr u (leAt x.args 0 2) true = none ∧ u.aptCtx (leAt x.args 0 2) = none ∧ attachPending u (leAt x.args 0 2) (leAt x.args 2 2) = false ∧ u.live (leAt x.args 2 2) = true ∧ (u.ctx (leAt x.args 2 2)).apt = none ∧ u.mirror (leAt x.args 0 2) = 0 ∧ u.ds.superseded.contains (leAt x.args 0 2) = false ∧ u.get (Fld.DS_APT_STATUS_UNITS (leAt x.args 0 2)) ≤ u.get (Fld.CTX_SHARE6_DUR_UNITS (leAt x.args 2 2)) :=
  ⟨4, 0, cmdIn 0x0302 [1, 0, 1, 0], waits 0x0302 [1, 0, 1, 0] (detached.set (Fld.CTX_SHARE6_DUR_UNITS 1) 4), takeCmd (cmdIn 0x0302 [1, 0, 1, 0]) 0 (waits 0x0302 [1, 0, 1, 0] (detached.set (Fld.CTX_SHARE6_DUR_UNITS 1) 4)), by decide +kernel⟩

theorem witness_aperture_commands_7 : ∃ (mb : Fin 1032) (core : Fin 4) (x : Cmd) (s : State),
    mayTake s mb core 0x0303 = some x ∧ aptErr (takeCmd x core s) (leAt x.args 0 2) true = none ∧ ((takeCmd x core s).aptCtx (leAt x.args 0 2)).isSome = true :=
  ⟨4, 0, cmdIn 0x0303 [1, 0], waits 0x0303 [1, 0] attached, by decide +kernel⟩

theorem witness_aperture_commands_8 : ∃ (mb : Fin 1032) (core : Fin 4) (x : Cmd) (s : State),
    mayTake s mb core 0x0303 = some x ∧ aptErr (takeCmd x core s) (leAt x.args 0 2) true = none ∧ (takeCmd x core s).aptCtx (leAt x.args 0 2) = none :=
  ⟨4, 0, cmdIn 0x0303 [1, 0], waits 0x0303 [1, 0] detached, by decide +kernel⟩

theorem witness_aperture_commands_9 : ∃ (mb : Fin 1032) (core : Fin 4) (x : Cmd) (s : State),
    mayTake s mb core 0x0304 = some x ∧ aptErr (takeCmd x core s) (leAt x.args 0 2) false = none ∧ (takeCmd x core s).aptValid (leAt x.args 0 2) = false :=
  ⟨4, 0, cmdIn 0x0304 [7, 0], waits 0x0304 [7, 0] detached, by decide +kernel⟩

theorem witness_aperture_commands_10 : ∃ (mb : Fin 1032) (core : Fin 4) (x : Cmd) (s : State),
    mayTake s mb core 0x0304 = some x ∧ aptErr (takeCmd x core s) (leAt x.args 0 2) false = none ∧ (takeCmd x core s).aptValid (leAt x.args 0 2) = true ∧ ((takeCmd x core s).aptCtx (leAt x.args 0 2)).isSome = true :=
  ⟨4, 0, cmdIn 0x0304 [1, 0], waits 0x0304 [1, 0] attached, by decide +kernel⟩

theorem witness_aperture_commands_11 : ∃ (mb : Fin 1032) (core : Fin 4) (x : Cmd) (s : State) (u : State),
    mayTake s mb core 0x0304 = some x ∧ u = takeCmd x core s ∧ aptErr u (leAt x.args 0 2) false = none ∧ u.aptValid (leAt x.args 0 2) = true ∧ u.aptCtx (leAt x.args 0 2) = none :=
  ⟨4, 0, cmdIn 0x0304 [1, 0], waits 0x0304 [1, 0] detached, takeCmd (cmdIn 0x0304 [1, 0]) 0 (waits 0x0304 [1, 0] detached), by decide +kernel⟩

theorem witness_aperture_commands_12 : ∃ (mb : Fin 1032) (core : Fin 4) (x : Cmd) (s : State),
    mayTake s mb core 0x0305 = some x ∧ x.mb < 8 ∧ leAt x.args 0 2 < (takeCmd x core s).get Fld.DS_CFG_CAP_UNITS :=
  ⟨4, 0, cmdIn 0x0305 [1, 0], waits 0x0305 [1, 0] detached, by decide +kernel⟩

theorem witness_durable_writes_persist_and_mirrors_0 : ∃ (n : Fin 65536) (x : Wr) (s : State),
    s.ds.wait[n.val]? = some x ∧ mayAdmit s x = true ∧ ((s.ds.wait.take n).any fun y => sameSource y.src x.src) = false :=
  ⟨0, ⟨.host 1 0, 1, 0, [5]⟩, (attached.set Fld.DS_BUDGET_EFF_MIB 64).dsUpd fun d => { d with wait := [⟨.host 1 0, 1, 0, [5]⟩] }, by decide +kernel⟩

theorem witness_durable_writes_persist_and_mirrors_1 : ∃ (n : Fin 65536) (x : Wr) (s : State),
    s.ds.wait[n.val]? = some x ∧ mayAdmit s x = false :=
  ⟨0, ⟨.host 1 0, 1, 0, [5]⟩, serving.dsUpd fun d => { d with wait := [⟨.host 1 0, 1, 0, [5]⟩] }, by decide +kernel⟩

theorem witness_durable_writes_persist_and_mirrors_2 : ∃ (c : Fin 1024) (s : State),
    HostOpen s ∧ ((hostNoted s).ctx c).apt = none :=
  ⟨1, serving, by decide +kernel⟩

theorem witness_durable_writes_persist_and_mirrors_3 : ∃ (c : Fin 1024) (a : Nat) (s : State),
    HostOpen s ∧ ((hostNoted s).ctx c).apt = some a :=
  ⟨1, 1, attached, by decide +kernel⟩

theorem witness_durable_writes_persist_and_mirrors_4 : ∃ (c : Fin 1024) (r : HeldRead) (rs : List HeldRead) (s : State),
    (s.ctx c).persist = r :: rs ∧ protectedTo s c r.upTo4 = true ∧ s.mode ≠ .preserve ∧ r.rest = none :=
  ⟨1, ⟨0, 0, 0, 15, none, []⟩, [], attached.ctxUpd 1 fun x => { x with persist := [⟨0, 0, 0, 15, none, []⟩] }, by decide +kernel⟩

theorem witness_durable_writes_persist_and_mirrors_5 : ∃ (c : Fin 1024) (r : HeldRead) (rs : List HeldRead) (be : Nat) (s : State),
    (s.ctx c).persist = r :: rs ∧ protectedTo s c r.upTo4 = true ∧ s.mode ≠ .preserve ∧ r.rest = some be :=
  ⟨1, ⟨0, 0, 0, 15, some 15, []⟩, [], 15, attached.ctxUpd 1 fun x => { x with persist := [⟨0, 0, 0, 15, some 15, []⟩] }, by decide +kernel⟩

theorem witness_durable_writes_persist_and_mirrors_6 : ∃ (c : Fin 1024) (s : State),
    s.mode = .preserve :=
  ⟨1, serving.set Fld.DEV_MODE_MODE 4, by decide +kernel⟩

theorem witness_durable_writes_persist_and_mirrors_7 : ∃ (c : Fin 1024) (r : HeldRead) (rs : List HeldRead) (s : State),
    (s.ctx c).persist = r :: rs ∧ protectedTo s c r.upTo4 = false ∧ heldLimit ≤ s.since r.since ∧ s.mode ≠ .preserve ∧ r.rest = none :=
  ⟨1, ⟨0, 0, 1, 15, none, []⟩, [], (({ attached with now := 124000 } : State).ctxUpd 1 fun x => { x with persist := [⟨0, 0, 1, 15, none, []⟩] }).dsUpd fun d => { d with wait := [⟨.host 1 0, 1, 0, []⟩] }, by decide +kernel⟩

theorem witness_durable_writes_persist_and_mirrors_8 : ∃ (k : Fin 4) (m : UMsg) (vc : Nat) (j : Nat) (n : Nat) (q : UMsg) (s : State),
    rxHead s k (acksMirror s k) = some (vc, m) ∧ respOf (s.linkUpd k fun l => { l with rx := l.rx.erase (vc, m) }) k m = some (j, m.tag, .mirror n, q) :=
  ⟨0, ackMsg, 1, 0, 0, { mtype := 4 }, ackWaits, by decide +kernel⟩

theorem witness_durable_writes_persist_and_mirrors_9 : ∃ (a : Fin 2048) (x : MirrorOut) (v : Stroke) (s : State),
    x ∈ s.ds.copies ∧ x.apt = a.val ∧ x.sent = some v ∧ s.get Fld.DS_MIRROR_CTL_ACK_TMO ≤ s.since v ∧ s.ds.soloDue.contains a.val = false :=
  ⟨1, ⟨0, 1, 0, none, { mtype := 4 }, some 0⟩, 0, ({ attached with now := 100000000 } : State).dsUpd fun d => { d with copies := [⟨0, 1, 0, none, { mtype := 4 }, some 0⟩] }, by decide +kernel⟩

theorem witness_durable_writes_persist_and_mirrors_10 : ∃ (a : Fin 2048) (s : State),
    s.mirror a = 3 ∧ (s.ds.bitmap.any fun u => u.1 == a.val) = false :=
  ⟨1, attached.set (Fld.DS_APT_STATUS_MIRROR 1) 3, by decide +kernel⟩

theorem witness_durable_writes_persist_and_mirrors_11 : ∃ (v : Word) (s : State),
    v.getLsbD 31 = false ∧ bitsOf v.toNat 8 0 % 16 = 0 ∧ 16 ≤ bitsOf v.toNat 8 0 ∧ bitsOf v.toNat 8 0 ≤ 256 ∧ energyOf (bitsOf v.toNat 8 0) s.flushRate ≤ s.get Fld.DS_HOLDUP_MJ :=
  ⟨16, serving, by decide +kernel⟩

theorem witness_durable_writes_persist_and_mirrors_12 : ∃ (v : Word) (s : State),
    v.getLsbD 31 = false ∧ bitsOf v.toNat 8 0 % 16 = 0 ∧ 16 ≤ bitsOf v.toNat 8 0 ∧ bitsOf v.toNat 8 0 ≤ 256 ∧ s.get Fld.DS_HOLDUP_MJ < energyOf (bitsOf v.toNat 8 0) s.flushRate ∧ s.inRest = false :=
  ⟨0x100, serving.set Fld.DS_HOLDUP_MJ 1 |>.set Fld.DS_FLUSH_RATE_MBPS 100, by decide +kernel⟩

theorem witness_durable_writes_persist_and_mirrors_13 : ∃ (v : Word) (s : State),
    v.getLsbD 31 = false ∧ bitsOf v.toNat 15 0 < energyOf (s.get Fld.DS_BUDGET_MIB) s.flushRate ∧ s.inRest = false :=
  ⟨1, serving, by decide +kernel⟩

theorem witness_durable_writes_persist_and_mirrors_14 : ∃ (v : Word) (s : State),
    v.getLsbD 31 = false ∧ energyOf (s.get Fld.DS_BUDGET_MIB) s.flushRate ≤ bitsOf v.toNat 15 0 :=
  ⟨0xFFFF, serving, by decide +kernel⟩

theorem witness_flush_stripes_and_media_errors_0 : ∃ (a : Fin 2048) (u : BitVec 32) (p : Stripe) (s : State),
    flightOf s (a.val, u.toNat) = some p :=
  ⟨1, 0, { aStripe with closed := false }, (attached.medUpd fun m => { m with stripes := [{ aStripe with closed := false }] }).dsUpd fun d => { d with dirty := [(1, 0)], flushing := [(1, 0)] }, by decide +kernel⟩

theorem witness_flush_stripes_and_media_errors_1 : ∃ (a : Fin 2048) (u : BitVec 32) (s : State),
    flightOf s (a.val, u.toNat) = none :=
  ⟨1, 0, attached, by decide +kernel⟩

theorem witness_flush_stripes_and_media_errors_2 : ∃ (members : List NandBlock) (units : List (Fin 2048 × BitVec 32)) (s : State),
    mayStripe s (members.map nandPair) (units.map fun u => (u.1.val, u.2.toNat)) = true :=
  ⟨sixteen 2, [(1, 0)], roomy.dsUpd fun d => { d with dirty := [(1, 0)], recovered := true }, by decide +kernel⟩

theorem witness_flush_stripes_and_media_errors_3 : ∃ (ch : Fin 2) (rank : Fin 2) (dev : Fin 10) (line : BitVec 30) (s : State),
    s.ds.errs = [] ∧ 2 ≤ s.get Fld.DRC_FAIL_CTL_THRESH :=
  ⟨1, 0, 9, 5, serving.set Fld.DRC_FAIL_CTL_THRESH 8, by decide +kernel⟩

theorem witness_flush_stripes_and_media_errors_4 : ∃ (ch : Fin 2) (rank : Fin 2) (line : BitVec 30) (a : Fin 2048) (u : BitVec 32) (s : State),
    s.mode ≠ .preserve :=
  ⟨1, 0, 5, 1, 0, attached.dsUpd fun d => { d with clean := [(1, 0)] }, by decide +kernel⟩

theorem witness_flush_stripes_and_media_errors_5 : ∃ (s : State),
    s.inRest = false :=
  ⟨serving, by decide +kernel⟩

theorem witness_flush_stripes_and_media_errors_6 : ∃ (b : NandBlock) (a : Fin 2048) (u : BitVec 32) (k : Fin 4) (s : State),
    ((closedStripes s).any fun p => (p.unitsOn (nandPair b)).contains (a.val, u.toNat)) = true ∧ s.lunGone (nandPair b).1 = false ∧ k ≠ 0 :=
  ⟨⟨2, 0⟩, 1, 0, 3, striped, by decide +kernel⟩

theorem witness_flush_stripes_and_media_errors_7 : ∃ (b : NandBlock) (s : State),
    s.lunOk (nandPair b).1 = true ∧ s.med.retired.contains (nandPair b) = false :=
  ⟨⟨0, 100⟩, populated attached, by decide +kernel⟩

theorem witness_flush_stripes_and_media_errors_8 : ∃ (b : NandBlock) (s : State),
    s.lunOk (nandPair b).1 = true ∧ s.med.retired.contains (nandPair b) = false :=
  ⟨⟨0, 100⟩, populated attached, by decide +kernel⟩

theorem witness_rebuild_patrol_and_wear_0 : ∃ (lun : Fin 64) (cause : Fin 5) (s : State),
    s.lunOk lun = false :=
  ⟨3, 1, serving.setWord Adr.MED_LUN_LOST_LO 8, by decide +kernel⟩

theorem witness_rebuild_patrol_and_wear_1 : ∃ (lun : Fin 64) (cause : Fin 5) (s : State),
    s.lunOk lun = true ∧ s.get Fld.DS_CFG_STATE = 0 ∧ s.med.reb = 0 :=
  ⟨3, 1, serving.set (Fld.MED_NF_CFG_CE_MASK 0) 15 |>.set (Fld.MED_NF_CFG_LUN2_MASK 0) 15, by decide +kernel⟩

theorem witness_rebuild_patrol_and_wear_2 : ∃ (dest : List (List NandBlock)) (u : State) (s : State),
    s.med.reb = 1 ∧ mediaIdle s = true ∧ rebuildInto (destPairs dest) s = (u, true) ∧ u.get Fld.MED_STATUS_STATE ≠ 0 ∧ u.med.worn = false :=
  ⟨[], (rebuildInto [] ((attached.set Fld.MED_STATUS_STATE 2).medUpd fun m => { m with reb := 1 })).1, ((attached.set Fld.MED_STATUS_STATE 2).medUpd fun m => { m with reb := 1 }), by decide +kernel⟩

theorem witness_rebuild_patrol_and_wear_3 : ∃ (dest : List (List NandBlock)) (s : State),
    (s.med.reb ≠ 1 ∨ mediaIdle s = false ∨ (rebuildInto (destPairs dest) s).2 = false) :=
  ⟨[], attached, by decide +kernel⟩

theorem witness_rebuild_patrol_and_wear_4 : ∃ (read : List (NandBlock × Fin 11)) (s : State),
    mediaIdle s = true :=
  ⟨[(⟨2, 0⟩, 9)], striped, by decide +kernel⟩

theorem witness_rebuild_patrol_and_wear_5 : ∃ (victim : NandBlock) (dest : List (List NandBlock)) (after : Fin 11) (u : State) (s : State),
    s.med.marked.contains (nandPair victim) = true ∧ mayMove s (nandPair victim) = true ∧ moveAllowed s (destPairs dest) = true ∧ moveBlock nextStripe (nandPair victim) (destPairs dest) s = (u, true) ∧ after.val < s.get Fld.MED_PATROL_CTL_REFRESH_STEP :=
  ⟨⟨2, 0⟩, [sixteen 2], 0, (moveBlock nextStripe (2, 0) (destPairs [sixteen 2]) roomy).1, roomy, by decide +kernel⟩

theorem witness_rebuild_patrol_and_wear_6 : ∃ (victim : NandBlock) (dest : List (List NandBlock)) (after : Fin 11) (u : State) (s : State),
    s.med.marked.contains (nandPair victim) = true ∧ mayMove s (nandPair victim) = true ∧ moveAllowed s (destPairs dest) = true ∧ moveBlock nextStripe (nandPair victim) (destPairs dest) s = (u, true) ∧ s.get Fld.MED_PATROL_CTL_REFRESH_STEP ≤ after.val :=
  ⟨⟨2, 0⟩, [sixteen 2], 10, (moveBlock nextStripe (2, 0) (destPairs [sixteen 2]) roomy).1, roomy, by decide +kernel⟩

theorem witness_rebuild_patrol_and_wear_7 : ∃ (ok : State → List (Nat × Nat) → Bool) (v : Nat × Nat) (dests : List (List (Nat × Nat))) (s : State),
    (moveBlock ok v dests s).2 = true :=
  ⟨fun _ _ => true, (2, 0), destPairs [sixteen 2], roomy, by decide +kernel⟩

theorem witness_rebuild_patrol_and_wear_8 : ∃ (ok : State → List (Nat × Nat) → Bool) (v : Nat × Nat) (dests : List (List (Nat × Nat))) (s : State),
    (moveBlock ok v dests s).2 = false :=
  ⟨fun _ _ => true, (2, 0), [], striped, by decide +kernel⟩

theorem witness_rebuild_patrol_and_wear_9 : ∃ (victim : NandBlock) (dest : List (List NandBlock)) (s : State),
    mayReclaim s (nandPair victim) (destPairs dest) = true ∧ (((inUse s).filter (reclaimable s)).all fun b => decide (validIn s (nandPair victim) ≤ validIn s b)) = true :=
  ⟨⟨10, 0⟩, [sixteen 2], roomy, by decide +kernel⟩

theorem witness_rebuild_patrol_and_wear_10 : ∃ (victim : NandBlock) (dest : List (List NandBlock)) (s : State),
    mayReclaim s (nandPair victim) (destPairs dest) = false :=
  ⟨⟨2, 0⟩, [sixteen 1], striped, by decide +kernel⟩

theorem witness_rebuild_patrol_and_wear_11 : ∃ (victim : NandBlock) (dest : List (List NandBlock)) (s : State),
    mayReclaim s (nandPair victim) (destPairs dest) = true ∧ s.get Fld.MED_WEAR_CTL_SPREAD < s.get Fld.MED_PE_PE_MAX - s.get Fld.MED_PE_PE_MIN ∧ s.peOf (nandPair victim) = s.get Fld.MED_PE_PE_MIN :=
  ⟨⟨2, 0⟩, [sixteen 1], roomy, by decide +kernel⟩

theorem witness_rebuild_patrol_and_wear_12 : ∃ (s : State),
    s.get Fld.MED_STATUS_STATE ≠ 0 ∧ s.med.worn = false ∧ roomOutside s = false ∧ s.inRest = false :=
  ⟨attached.set Fld.MED_STATUS_STATE 1, by decide +kernel⟩

theorem witness_rebuild_patrol_and_wear_13 : ∃ (s : State),
    (s.get Fld.MED_STATUS_STATE = 0 ∨ s.med.worn = true ∨ roomOutside s = true) :=
  ⟨serving, by decide +kernel⟩

theorem witness_rebuild_patrol_and_wear_14 : ∃ (l : Nat) (n : Nat) (s : State),
    8 ≤ n ∧ n < 10 :=
  ⟨0, 9, serving, by decide +kernel⟩

theorem witness_rebuild_patrol_and_wear_15 : ∃ (s : State) (dests : List (List (Nat × Nat))),
    moveAllowed s dests = true :=
  ⟨roomy, destPairs [sixteen 2], by decide +kernel⟩

theorem witness_store_group_commands_0 : ∃ (mb : Fin 1032) (core : Fin 4) (x : Cmd) (s : State),
    mayTake s mb core 0x0306 = some x :=
  ⟨4, 0, cmdIn 0x0306 [], waits 0x0306 [] serving, by decide +kernel⟩

theorem witness_store_group_commands_1 : ∃ (mb : Fin 1032) (core : Fin 4) (x : Cmd) (s : State),
    mayTake s mb core 0x0309 = some x :=
  ⟨4, 0, cmdIn 0x0309 [], waits 0x0309 [] serving, by decide +kernel⟩

theorem witness_store_group_commands_2 : ∃ (mb : Fin 1032) (core : Fin 4) (x : Cmd) (r : List Byte) (s : State),
    mayTake s mb core 0x0307 = some x ∧ tabFind (takeCmd x core s).ds.ctxRecord (leAt x.args 0 2) = some r ∧ (takeCmd x core s).ds.ctxRecordWritten = true :=
  ⟨4, 0, cmdIn 0x0307 [1, 0], [5], waits 0x0307 [1, 0] (serving.dsUpd fun d => { d with ctxRecord := [(1, [5])], ctxRecordWritten := true }), by decide +kernel⟩

theorem witness_store_group_commands_3 : ∃ (mb : Fin 1032) (core : Fin 4) (x : Cmd) (s : State),
    mayTake s mb core 0x0307 = some x ∧ (takeCmd x core s).ds.ctxRecordWritten = false :=
  ⟨4, 0, cmdIn 0x0307 [1, 0], waits 0x0307 [1, 0] serving, by decide +kernel⟩

theorem witness_store_group_commands_4 : ∃ (mb : Fin 1032) (core : Fin 4) (x : Cmd) (s : State),
    mayTake s mb core 0x0308 = some x ∧ storeBusy (takeCmd x core s) = true :=
  ⟨4, 0, cmdIn 0x0308 [0], waits 0x0308 [0] (serving.mbxUpd fun m => { m with store := { state := 1 } }), by decide +kernel⟩

theorem witness_store_group_commands_5 : ∃ (mb : Fin 1032) (core : Fin 4) (x : Cmd) (s : State),
    mayTake s mb core 0x0308 = some x ∧ storeBusy (takeCmd x core s) = false ∧ bitOf (leAt x.args 0 1) 0 = false ∧ carries ((takeCmd x core s).get Fld.MED_STATUS_HEALTHY) (lunUnits (takeCmd x core s)) 512 = true :=
  ⟨4, 0, cmdIn 0x0308 [0], waits 0x0308 [0] ((serving.set Fld.MED_STATUS_HEALTHY 64).set (Fld.MED_NF_CFG_CLASS 0) 3), by decide +kernel⟩

theorem witness_store_group_commands_6 : ∃ (mb : Fin 1032) (core : Fin 4) (x : Cmd) (s : State),
    mayTake s mb core 0x030A = some x ∧ storeBusy (takeCmd x core s) = false :=
  ⟨4, 0, cmdIn 0x030A [], waits 0x030A [] serving, by decide +kernel⟩

theorem witness_store_group_commands_7 : ∃ (mb : Fin 1032) (core : Fin 4) (x : Cmd) (s : State),
    mayTake s mb core 0x030A = some x ∧ storeBusy (takeCmd x core s) = true :=
  ⟨4, 0, cmdIn 0x030A [], waits 0x030A [] (serving.mbxUpd fun m => { m with store := { state := 1 } }), by decide +kernel⟩

theorem witness_link_training_and_parameters_0 : ∃ (k : Fin 4) (s : State),
    s.ulState k ≠ 0 ∧ s.ulState k ≠ 3 ∧ s.ulState k ≠ 4 :=
  ⟨2, serving.set (Fld.UL_STATUS_STATE 2) 1, by decide +kernel⟩

theorem witness_link_training_and_parameters_1 : ∃ (k : Fin 4) (s : State),
    s.ulState k ≠ 0 :=
  ⟨2, serving.set (Fld.UL_STATUS_STATE 2) 1, by decide +kernel⟩

theorem witness_link_training_and_parameters_2 : ∃ (k : Fin 4) (s : State),
    s.ulState k = 0 ∧ s.standAlone = false :=
  ⟨2, serving.set Fld.PEL_STATUS_STATE 2, by decide +kernel⟩

theorem witness_link_training_and_parameters_4 : ∃ (k : Fin 4) (passed : BitVec 9) (s : State),
    s.ulState k = 1 ∧ 4 ≤ (lanesOf passed.toNat).length :=
  ⟨2, 0x1EF, serving.set (Fld.UL_STATUS_STATE 2) 1, by decide +kernel⟩

theorem witness_link_training_and_parameters_5 : ∃ (k : Fin 4) (passed : BitVec 9) (s : State),
    s.ulState k = 1 ∧ (lanesOf passed.toNat).length < 4 :=
  ⟨2, 7, serving.set (Fld.UL_STATUS_STATE 2) 1, by decide +kernel⟩

theorem witness_link_training_and_parameters_6 : ∃ (k : Fin 4) (passed : BitVec 9) (s : State),
    training s k = false :=
  ⟨2, 7, serving, by decide +kernel⟩

theorem witness_link_training_and_parameters_7 : ∃ (k : Fin 4) (s : State),
    s.ulState k = 1 ∧ s.get (Fld.UL_TIMERS_TRAIN_TMO k) ≤ s.since (s.link k).since :=
  ⟨2, { serving.set (Fld.UL_STATUS_STATE 2) 1 with now := 100000000 }, by decide +kernel⟩

theorem witness_link_training_and_parameters_8 : ∃ (k : Fin 4) (back : BitVec 8) (rev : BitVec 8) (member : BitVec 8) (topo : BitVec 8) (fresh : Bool) (w4 : Bool) (credits : Word) (e : BitVec 12) (grace : BitVec 8) (map : Word) (digest : BitVec 64) (s : State),
    (ulHears s k = true ∨ paramHears s k = true) ∧ (rev ≠ 1 ∨ digest.toNat ≠ (s.word Adr.PEL_IDENT_LO).toNat + 2 ^ 32 * (s.word Adr.PEL_IDENT_HI).toNat) ∧ (s.link k).bheld = [] :=
  ⟨2, 0, 2, 1, 0, true, false, 0, 7, 3, 0x76543210, 0, serving.set (Fld.UL_STATUS_STATE 2) 2, by decide +kernel⟩

theorem witness_link_training_and_parameters_9 : ∃ (k : Fin 4) (back : BitVec 8) (member : BitVec 8) (topo : BitVec 8) (fresh : Bool) (w4 : Bool) (credits : Word) (e : BitVec 12) (grace : BitVec 8) (map : Word) (digest : BitVec 64) (s : State),
    ulHears s k = true ∧ digest.toNat = (s.word Adr.PEL_IDENT_LO).toNat + 2 ^ 32 * (s.word Adr.PEL_IDENT_HI).toNat ∧ (s.link k).bheld = [] :=
  ⟨2, 0, 1, 0, true, false, 0, 7, 3, 0x76543210, 0, linked, by decide +kernel⟩

theorem witness_link_training_and_parameters_10 : ∃ (k : Fin 4) (back : BitVec 8) (member : BitVec 8) (topo : BitVec 8) (fresh : Bool) (w4 : Bool) (credits : Word) (e : BitVec 12) (grace : BitVec 8) (map : Word) (digest : BitVec 64) (s : State),
    s.ulState k = 2 ∧ (s.link k).lostSync = false ∧ digest.toNat = (s.word Adr.PEL_IDENT_LO).toNat + 2 ^ 32 * (s.word Adr.PEL_IDENT_HI).toNat ∧ (s.link k).ackRcvd = false :=
  ⟨2, 0, 1, 0, true, false, 0, 7, 3, 0x76543210, 0, serving.set (Fld.UL_STATUS_STATE 2) 2, by decide +kernel⟩

theorem witness_link_training_and_parameters_11 : ∃ (k : Fin 4) (back : BitVec 8) (epoch : BitVec 8) (s : State),
    paramHears s k = false ∧ ulHears s k = false :=
  ⟨2, 0, 0, serving, by decide +kernel⟩

theorem witness_link_training_and_parameters_12 : ∃ (k : Fin 4) (back : BitVec 8) (epoch : BitVec 8) (s : State),
    ulHears s k = true :=
  ⟨2, 0, 0, linked, by decide +kernel⟩

theorem witness_link_training_and_parameters_13 : ∃ (k : Fin 4) (back : BitVec 8) (s : State),
    paramHears s k = true ∧ (s.link k).init = none :=
  ⟨2, 0, serving.set (Fld.UL_STATUS_STATE 2) 2, by decide +kernel⟩

theorem witness_link_training_and_parameters_14 : ∃ (k : Fin 4) (back : BitVec 8) (i : UInit) (s : State),
    s.ulState k = 2 ∧ (s.link k).lostSync = false ∧ (s.link k).init = some i ∧ (s.link k).ackSent = true :=
  ⟨2, 0, ⟨true, false, [0, 0, 0, 0], 7, 3⟩, (serving.set (Fld.UL_STATUS_STATE 2) 2).linkUpd 2 fun l => { l with init := some ⟨true, false, [0, 0, 0, 0], 7, 3⟩, ackSent := true }, by decide +kernel⟩

theorem witness_link_training_and_parameters_15 : ∃ (k : Fin 4) (s : State),
    (s.link k).downDue = true ∧ ulActive s k = true :=
  ⟨2, linked.linkUpd 2 fun l => { l with downDue := true }, by decide +kernel⟩

theorem witness_link_training_and_parameters_16 : ∃ (k : Fin 4) (s : State),
    graceOver s k (s.now + 1) = false :=
  ⟨2, linked, by decide +kernel⟩

theorem witness_link_training_and_parameters_17 : ∃ (k : Fin 4) (s : State),
    graceOver s k (s.now + 1) = true :=
  ⟨2, { serving.set (Fld.UL_STATUS_STATE 2) 4 |>.linkUpd 2 (fun l => { l with holdAt := some 0 }) with now := 100000000 }, by decide +kernel⟩

theorem witness_bypass_cells_0 : ∃ (k : Fin 4) (back : BitVec 8) (e : BitVec 12) (s : State),
    ulHears s k = true :=
  ⟨2, 0, 0, linked, by decide +kernel⟩

theorem witness_bypass_cells_1 : ∃ (k : Fin 4) (back : BitVec 8) (e : BitVec 12) (s : State),
    ulHears s k = false :=
  ⟨2, 0, 0, serving, by decide +kernel⟩

theorem witness_bypass_cells_2 : ∃ (k : Fin 4) (back : BitVec 8) (e : BitVec 12) (s : State) (u : State),
    ulHears s k = true ∧ u = (bypassAck k back.toNat s).inc (Fld.UL_ERR_CNT_NAK_RCVD k) 1 ∧ ((u.link k).held.any fun c => c.seq == e.toNat) = true :=
  ⟨2, 0, 5, (linked.linkUpd 2 fun l => { l with held := [cellFive] }), (bypassAck 2 0 (linked.linkUpd 2 fun l => { l with held := [cellFive] })).inc (Fld.UL_ERR_CNT_NAK_RCVD 2) 1, by decide +kernel⟩

theorem witness_bypass_cells_3 : ∃ (k : Fin 4) (back : BitVec 8) (e : BitVec 12) (s : State) (u : State),
    ulHears s k = true ∧ u = (bypassAck k back.toNat s).inc (Fld.UL_ERR_CNT_NAK_RCVD k) 1 ∧ ((u.link k).held.any fun c => c.seq == e.toNat) = false ∧ e.toNat ≠ u.get (Fld.UL_SEQ_TX_NEXT k) :=
  ⟨2, 0, 9, linked, (bypassAck 2 0 linked).inc (Fld.UL_ERR_CNT_NAK_RCVD 2) 1, by decide +kernel⟩

theorem witness_bypass_cells_4 : ∃ (k : Fin 4) (back : BitVec 8) (counts : Word) (s : State),
    ulHears s k = true ∧ (s.link k).bheld = [] ∧ (s.link k).crSeen = [0, 0, 0, 0] ∧ s.get (crAvail k 3) + bitsOf counts.toNat 31 24 < 256 :=
  ⟨2, 0, 0x20000000, linked.linkUpd 2 fun l => { l with crSeen := [0, 0, 0, 0] }, by decide +kernel⟩

theorem witness_bypass_cells_5 : ∃ (k : Fin 4) (back : BitVec 8) (stroke : Stroke) (leader : Fin 8) (hops : BitVec 8) (phase : BitVec 16) (skew : BitVec 8) (s : State),
    ulHears s k = true ∧ s.pelState ≠ 1 ∧ leader.val ≠ s.get Fld.PEL_STATUS_LEADER :=
  ⟨2, 0, 9, 3, 1, 0, 0, linked, by decide +kernel⟩

theorem witness_bypass_cells_6 : ∃ (k : Fin 4) (back : BitVec 8) (stroke : Stroke) (leader : Fin 8) (hops : BitVec 8) (phase : BitVec 16) (skew : BitVec 8) (s : State),
    ulHears s k = true ∧ leader.val = s.get Fld.PEL_STATUS_LEADER ∧ (leader.val ≠ s.me ∨ s.pelState = 1) ∧ s.pel.named = true ∧ (s.link k).bheld = [] ∧ phase.toNat < 8000 ∧ skewOf skew.toNat ≤ 1 :=
  ⟨2, 0, 9, 3, 1, 0, 1, (linked.set Fld.PEL_STATUS_LEADER 3).pelUpd fun p => { p with named := true }, by decide +kernel⟩

theorem witness_bypass_cells_7 : ∃ (k : Fin 4) (back : BitVec 8) (stroke : Stroke) (leader : Fin 8) (hops : BitVec 8) (phase : BitVec 16) (skew : BitVec 8) (s : State),
    ulHears s k = true ∧ s.pelState = 1 ∧ (s.link k).bheld = [] :=
  ⟨2, 0, 9, 3, 1, 0, 0, linked.set Fld.PEL_STATUS_STATE 1, by decide +kernel⟩

theorem witness_bypass_cells_8 : ∃ (k : Fin 4) (back : BitVec 8) (stroke : Stroke) (leader : Fin 8) (hops : BitVec 8) (phase : BitVec 16) (skew : BitVec 8) (s : State),
    ulHears s k = true ∧ s.pelState = 1 ∧ s.pel.named = true ∧ leader.val = s.get Fld.PEL_STATUS_LEADER ∧ (s.link k).bheld = [] :=
  ⟨2, 0, 9, 3, 1, 0, 0, (linked.set Fld.PEL_STATUS_STATE 1).set Fld.PEL_STATUS_LEADER 3 |>.pelUpd fun p => { p with named := true }, by decide +kernel⟩

theorem witness_bypass_cells_9 : ∃ (k : Fin 4) (back : BitVec 8) (sent : BitVec 64) (recv : BitVec 64) (turn : Word) (s : State),
    ulHears s k = true :=
  ⟨2, 0, 1, 2, 3, linked, by decide +kernel⟩

theorem witness_bypass_cells_10 : ∃ (k : Fin 4) (back : BitVec 8) (sent : BitVec 64) (now_ : BitVec 64) (turn : Word) (s : State),
    ulHears s k = true :=
  ⟨2, 0, 100, 400, 20, linked, by decide +kernel⟩

theorem witness_bypass_cells_11 : ∃ (k : Fin 4) (v : BitVec 64) (s : State),
    ulActive s k = true ∧ s.get (Fld.UL_STATUS_LPM k) ≠ 2 ∧ 2000 ≤ s.since (s.link k).delayAt :=
  ⟨2, 5, { linked with now := 2000 }, by decide +kernel⟩

theorem witness_bypass_cells_12 : ∃ (k : Fin 4) (back : BitVec 8) (s : State),
    ulHears s k = true :=
  ⟨2, 0, linked, by decide +kernel⟩

theorem witness_bypass_cells_13 : ∃ (k : Fin 4) (back : BitVec 8) (s : State),
    (paramHears s k = true ∨ ulHears s k = true) :=
  ⟨2, 0, serving.set (Fld.UL_STATUS_STATE 2) 2, by decide +kernel⟩

theorem witness_bypass_cells_14 : ∃ (k : Fin 4) (s : State),
    ulActive s k = true ∧ s.get (Fld.UL_STATUS_LPM k) ≠ 2 ∧ bypassOld s k ≠ [] :=
  ⟨2, ({ linked with now := 2000 } : State).linkUpd 2 fun l => { l with bheld := [⟨0, 12, [], 0, 0⟩] }, by decide +kernel⟩

theorem witness_bypass_cells_15 : ∃ (k : Fin 4) (s : State),
    (bypassOld s k = [] ∨ s.get (Fld.UL_STATUS_LPM k) = 2 ∨ ulActive s k = false) :=
  ⟨0, serving, by decide +kernel⟩

theorem witness_bypass_cells_16 : ∃ (k : Fin 4) (s : State),
    (∀ b ∈ (s.link k).bheld, s.since b.sent < 2) :=
  ⟨2, linked, by decide +kernel⟩

theorem witness_bypass_cells_17 : ∃ (k : Fin 4) (s : State),
    (s.link k).bheld = [] :=
  ⟨2, linked, by decide +kernel⟩

theorem witness_sequenced_bypass_cells_0 : ∃ (k : Fin 4) (bseq : BitVec 8) (back : BitVec 8) (lane : BitVec 8) (epoch : BitVec 8) (map : Word) (s : State) (u : State),
    bypassSeq k bseq.toNat back.toNat s = (u, false) :=
  ⟨2, 5, 0, 0, 1, 0, linked, (bypassSeq 2 5 0 linked).1, by decide +kernel⟩

theorem witness_sequenced_bypass_cells_1 : ∃ (k : Fin 4) (bseq : BitVec 8) (back : BitVec 8) (lane : BitVec 8) (epoch : BitVec 8) (map : Word) (s : State) (u : State),
    bypassSeq k bseq.toNat back.toNat s = (u, true) ∧ lane.toNat < 9 ∧ (u.link k).held = [] :=
  ⟨2, 0, 0, 8, 1, 0x76543218, linked, (bypassSeq 2 0 0 linked).1, by decide +kernel⟩

theorem witness_sequenced_bypass_cells_2 : ∃ (k : Fin 4) (bseq : BitVec 8) (back : BitVec 8) (s : State) (u : State),
    bypassSeq k bseq.toNat back.toNat s = (u, true) :=
  ⟨2, 0, 0, linked, (bypassSeq 2 0 0 linked).1, by decide +kernel⟩

theorem witness_sequenced_bypass_cells_3 : ∃ (k : Fin 4) (bseq : BitVec 8) (back : BitVec 8) (s : State) (u : State),
    bypassSeq k bseq.toNat back.toNat s = (u, true) ∧ ulBusy u k = true :=
  ⟨2, 0, 0, linked.linkUpd 2 (fun l => { l with held := [cellFive] }), (bypassSeq 2 0 0 (linked.linkUpd 2 fun l => { l with held := [cellFive] })).1, by decide +kernel⟩

theorem witness_sequenced_bypass_cells_4 : ∃ (k : Fin 4) (bseq : BitVec 8) (back : BitVec 8) (st : BitVec 8) (s : State) (u : State),
    bypassSeq k bseq.toNat back.toNat s = (u, true) ∧ (u.link k).lpmAsk ≠ some st.toNat ∧ (u.link k).lpmGo = none :=
  ⟨2, 0, 0, 0, linked.linkUpd 2 (fun l => { l with lpmAsk := some 1 }), (bypassSeq 2 0 0 (linked.linkUpd 2 fun l => { l with lpmAsk := some 1 })).1, by decide +kernel⟩

theorem witness_sequenced_bypass_cells_5 : ∃ (k : Fin 4) (bseq : BitVec 8) (back : BitVec 8) (st : BitVec 8) (s : State) (u : State),
    bypassSeq k bseq.toNat back.toNat s = (u, true) ∧ (u.link k).lpmAsk = some st.toNat :=
  ⟨2, 0, 0, 1, (linked.linkUpd 2 fun l => { l with lpmAsk := some 1 }), (bypassSeq 2 0 0 (linked.linkUpd 2 fun l => { l with lpmAsk := some 1 })).1, by decide +kernel⟩

theorem witness_sequenced_bypass_cells_6 : ∃ (k : Fin 4) (st : Nat) (s : State),
    (s.link k).lpmGo = some st ∧ (s.link k).held = [] ∧ ulActive s k = true ∧ st < 4 :=
  ⟨2, 1, linked.linkUpd 2 fun l => { l with lpmGo := some 1 }, by decide +kernel⟩

theorem witness_sequenced_bypass_cells_7 : ∃ (k : Fin 4) (st : Nat) (s : State),
    (s.link k).lpmGo = some st ∧ (s.link k).held ≠ [] :=
  ⟨2, 1, linked.linkUpd 2 fun l => { l with lpmGo := some 1, held := [cellFive] }, by decide +kernel⟩

theorem witness_sequenced_bypass_cells_8 : ∃ (k : Fin 4) (bseq : BitVec 8) (back : BitVec 8) (stroke : Stroke) (origin : Fin 8) (src : BitVec 8) (num : BitVec 16) (s : State) (u : State),
    bypassSeq k bseq.toNat back.toNat s = (u, true) ∧ (origin.val, num.toNat) ∈ u.pfs.seen :=
  ⟨2, 0, 0, 9, 3, 1, 7, { linked with pfs := { linked.pfs with seen := [(3, 7)] } }, (bypassSeq 2 0 0 { linked with pfs := { linked.pfs with seen := [(3, 7)] } }).1, by decide +kernel⟩

theorem witness_sequenced_bypass_cells_9 : ∃ (k : Fin 4) (bseq : BitVec 8) (back : BitVec 8) (stroke : Stroke) (origin : Fin 8) (src : BitVec 8) (num : BitVec 16) (s : State) (u : State),
    bypassSeq k bseq.toNat back.toNat s = (u, true) ∧ (origin.val, num.toNat) ∉ u.pfs.seen :=
  ⟨2, 0, 0, 9, 7, 1, 0xFFFF, linked, (bypassSeq 2 0 0 linked).1, by decide +kernel⟩

theorem witness_sequenced_bypass_cells_10 : ∃ (k : Fin 4) (bseq : BitVec 8) (back : BitVec 8) (txn : BitVec 16) (idx : BitVec 8) (flags : BitVec 8) (data : List Byte) (s : State) (u : State),
    bypassSeq k bseq.toNat back.toNat s = (u, false) :=
  ⟨2, 5, 0, 1, 0, 1, [], linked, (bypassSeq 2 5 0 linked).1, by decide +kernel⟩

theorem witness_sequenced_bypass_cells_11 : ∃ (k : Fin 4) (bseq : BitVec 8) (back : BitVec 8) (txn : BitVec 16) (flags : BitVec 8) (data : List Byte) (s : State) (u : State),
    bypassSeq k bseq.toNat back.toNat s = (u, true) ∧ flags.getLsbD 1 = false ∧ bitsOf (leAt (sliceBytes data 0 20) 0 4) 26 24 ≠ u.me ∧ u.route (bitsOf (leAt (sliceBytes data 0 20) 0 4) 26 24) = none :=
  ⟨2, 0, 0, 1, 1, [0, 0, 0, 5], linked, (bypassSeq 2 0 0 linked).1, by decide +kernel⟩

theorem witness_sequenced_bypass_cells_12 : ∃ (k : Fin 4) (bseq : BitVec 8) (back : BitVec 8) (txn : BitVec 16) (idx : BitVec 8) (flags : BitVec 8) (data : List Byte) (s : State) (u : State),
    bypassSeq k bseq.toNat back.toNat s = (u, true) ∧ flags.getLsbD 1 = false ∧ bitsOf (leAt (sliceBytes data 0 20) 0 4) 26 24 = u.me ∧ (u.mbx.relay.any fun r => r.1 == k.val && r.2.1 == txn.toNat) = false :=
  ⟨2, 0, 0, 1, 0, 0, [0, 0, 0, 0], linked, (bypassSeq 2 0 0 linked).1, by decide +kernel⟩

theorem witness_cells_errors_and_lane_faults_0 : ∃ (k : Fin 4) (vc : Fin 4) (seq : BitVec 12) (ack : Option (BitVec 12)) (cv : Fin 4) (cc : BitVec 8) (off : Fin 257) (data : List Byte) (s : State),
    ulHears s k = true ∧ seq.toNat = s.get (Fld.UL_SEQ_RX_EXP k) ∧ crUsed (s.link k) vc < ulAdvertised.getD vc 0 ∧ s.get (Fld.UL_STATUS_LPM k) = 0 ∧ (s.link k).unacked < 15 :=
  ⟨2, 1, 0, none, 0, 0, 0, [], linked, by decide +kernel⟩

theorem witness_cells_errors_and_lane_faults_1 : ∃ (k : Fin 4) (vc : Fin 4) (seq : BitVec 12) (ack : Option (BitVec 12)) (cv : Fin 4) (cc : BitVec 8) (off : Fin 257) (data : List Byte) (s : State),
    ulHears s k = true ∧ seq.toNat ≠ s.get (Fld.UL_SEQ_RX_EXP k) ∧ beforeExp (s.get (Fld.UL_SEQ_RX_EXP k)) seq.toNat = false ∧ (s.link k).errOut = false :=
  ⟨2, 1, 3, none, 0, 0, 0, [], linked, by decide +kernel⟩

theorem witness_cells_errors_and_lane_faults_2 : ∃ (k : Fin 4) (vc : Fin 4) (seq : BitVec 12) (ack : Option (BitVec 12)) (cv : Fin 4) (cc : BitVec 8) (off : Fin 257) (data : List Byte) (s : State),
    ulHears s k = true :=
  ⟨2, 1, 3, none, 0, 0, 0, [], linked, by decide +kernel⟩

theorem witness_cells_errors_and_lane_faults_3 : ∃ (k : Fin 4) (vc : Fin 4) (seq : BitVec 12) (ack : Option (BitVec 12)) (cv : Fin 4) (cc : BitVec 8) (off : Fin 257) (data : List Byte) (s : State),
    ulHears s k = true ∧ beforeExp (s.get (Fld.UL_SEQ_RX_EXP k)) seq.toNat = true :=
  ⟨2, 1, 4095, none, 0, 0, 0, [], linked, by decide +kernel⟩

theorem witness_cells_errors_and_lane_faults_4 : ∃ (k : Fin 4) (vc : Fin 4) (seq : BitVec 12) (ack : Option (BitVec 12)) (cv : Fin 4) (cc : BitVec 8) (off : Fin 257) (r : Bool) (data : List Byte) (s : State),
    ulHears s k = false :=
  ⟨2, 1, 3, none, 0, 0, 0, false, [], serving, by decide +kernel⟩

theorem witness_cells_errors_and_lane_faults_5 : ∃ (k : Fin 4) (s : State),
    ulActive s k = true ∧ s.get (Fld.UL_STATUS_LPM k) ≠ 2 ∧ (s.link k).unacked ≠ 0 :=
  ⟨2, linked.linkUpd 2 fun l => { l with unacked := 3 }, by decide +kernel⟩

theorem witness_cells_errors_and_lane_faults_6 : ∃ (k : Fin 4) (s : State),
    ulActive (ulFree k s) k = true ∧ (ulFree k s).get (Fld.UL_STATUS_LPM k) ≠ 2 ∧ ((ulFree k s).link k).crFreed ≠ ((ulFree k s).link k).crTold :=
  ⟨2, linked.linkUpd 2 fun l => { l with crFreed := [1, 0, 0, 0], crTold := [0, 0, 0, 0] }, by decide +kernel⟩

theorem witness_cells_errors_and_lane_faults_7 : ∃ (k : Fin 4) (s : State),
    ulActive s k = true :=
  ⟨2, linked, by decide +kernel⟩

theorem witness_cells_errors_and_lane_faults_8 : ∃ (k : Fin 4) (s : State),
    inParam s k = true ∧ ulActive s k = false :=
  ⟨2, serving.set (Fld.UL_STATUS_STATE 2) 2, by decide +kernel⟩

theorem witness_cells_errors_and_lane_faults_9 : ∃ (k : Fin 4) (s : State),
    ulActive s k = true ∧ (s.link k).errOut = true ∧ s.get (Fld.UL_STATUS_LPM k) ≠ 2 ∧ 2 ≤ s.since (s.link k).nakAt :=
  ⟨2, ({ linked with now := 2 } : State).linkUpd 2 fun l => { l with errOut := true }, by decide +kernel⟩

theorem witness_cells_errors_and_lane_faults_10 : ∃ (k : Fin 4) (c : UCell) (cs : List UCell) (s : State),
    (s.link k).held = c :: cs ∧ ulActive s k = true ∧ (s.link k).replay = [] ∧ 4 ≤ s.since (s.link k).heldAt :=
  ⟨2, cellFive, [], ({ linked with now := 4 } : State).linkUpd 2 fun l => { l with held := [cellFive] }, by decide +kernel⟩

theorem witness_cells_errors_and_lane_faults_11 : ∃ (k : Fin 4) (s : State),
    (s.link k).held = [] :=
  ⟨2, linked, by decide +kernel⟩

theorem witness_cells_errors_and_lane_faults_12 : ∃ (k : Fin 4) (lane : Fin 9) (s : State),
    ulActive s k = true ∧ laneUsed s k lane = true ∧ bitOf (s.get (Fld.UL_LANES_RETIRED k)) lane = false ∧ spareLane s k = none :=
  ⟨2, 3, linked.setWord (Adr.UL_MAP 2) 0x76543210, by decide +kernel⟩

theorem witness_cells_errors_and_lane_faults_13 : ∃ (k : Fin 4) (lane : Fin 9) (p : Nat) (s : State),
    ulActive s k = true ∧ laneUsed s k lane = true ∧ bitOf (s.get (Fld.UL_LANES_RETIRED k)) lane = false ∧ spareLane s k = some p ∧ (s.link k).newMap = none :=
  ⟨2, 3, 8, (linked.setWord (Adr.UL_MAP 2) 0x76543210).set (Fld.UL_LANES_PASSED 2) 511, by decide +kernel⟩

theorem witness_cells_errors_and_lane_faults_14 : ∃ (k : Fin 4) (lane : Fin 9) (s : State),
    ulActive s k = false ∧ inParam s k = false :=
  ⟨2, 3, serving, by decide +kernel⟩

theorem witness_cells_errors_and_lane_faults_15 : ∃ (k : Fin 4) (s : State),
    s.isSet (Fld.UL_LPM_COAST_EN k) = true ∧ ulActive s k = true ∧ s.get (Fld.UL_STATUS_LPM k) = 0 ∧ (s.link k).lpmAsk = none ∧ (s.link k).lpmGo = none ∧ ulBusy s k = false ∧ s.get (Fld.UL_LPM_COAST_IDLE k) ≤ s.since (s.link k).busyAt :=
  ⟨2, { linked.set (Fld.UL_LPM_COAST_EN 2) 1 with now := 100000000 }, by decide +kernel⟩

theorem witness_cells_errors_and_lane_faults_16 : ∃ (k : Fin 4) (s : State),
    s.get (Fld.UL_STATUS_LPM k) = 1 :=
  ⟨2, linked.set (Fld.UL_STATUS_LPM 2) 1, by decide +kernel⟩

theorem witness_cells_errors_and_lane_faults_17 : ∃ (k : Fin 4) (s : State),
    s.get (Fld.UL_STATUS_LPM k) = 2 :=
  ⟨2, linked.set (Fld.UL_STATUS_LPM 2) 2, by decide +kernel⟩

theorem witness_cells_errors_and_lane_faults_18 : ∃ (k : Fin 4) (lane : Fin 9) (s : State),
    ulActive s k = false ∧ inParam s k = true ∧ bitOf (s.get (Fld.UL_LANES_RETIRED k)) lane = false :=
  ⟨2, 3, serving.set (Fld.UL_STATUS_STATE 2) 2, by decide +kernel⟩

theorem witness_peer_requests_and_routed_messages_0 : ∃ (k : Fin 4) (e : Nat × UMsg) (a : Option Nat) (w : WinMap) (s : State),
    rxHead s k (forMe s 1) = some e ∧ e.2.seen = some (.pass a w.port w.laddr w.tmo w.acked) ∧ e.2.win = 255 :=
  ⟨2, (1, { mtype := 1, ctx := 1, win := 255, data := [5], seen := some passed }), some 1, { port := 1, laddr := 0x1000 }, seen { mtype := 1, ctx := 1, win := 255, data := [5], seen := some passed }, by decide +kernel⟩

theorem witness_peer_requests_and_routed_messages_1 : ∃ (k : Fin 4) (e : Nat × UMsg) (a : Option Nat) (w : WinMap) (s : State),
    rxHead s k (forMe s 1) = some e ∧ e.2.seen = some (.pass a w.port w.laddr w.tmo w.acked) ∧ e.2.win ≠ 255 :=
  ⟨2, (1, { mtype := 1, ctx := 1, win := 0, data := [5], seen := some passed }), some 1, { port := 1, laddr := 0x1000 }, seen { mtype := 1, ctx := 1, win := 0, data := [5], seen := some passed }, by decide +kernel⟩

theorem witness_peer_requests_and_routed_messages_2 : ∃ (k : Fin 4) (e : Nat × UMsg) (cause : Nat) (guard : Nat) (s : State),
    rxHead s k (forMe s 1) = some e ∧ e.2.seen = some (.denied cause guard) :=
  ⟨2, (1, { mtype := 1, ctx := 1, data := [5], seen := some (.denied 2 3) }), 2, 3, seen { mtype := 1, ctx := 1, data := [5], seen := some (.denied 2 3) }, by decide +kernel⟩

theorem witness_peer_requests_and_routed_messages_3 : ∃ (k : Fin 4) (e : Nat × UMsg) (s : State),
    rxHead s k (forMe s 1) = some e ∧ e.2.seen = some .gone :=
  ⟨2, (1, { mtype := 1, ctx := 1, seen := some .gone }), seen { mtype := 1, ctx := 1, seen := some .gone }, by decide +kernel⟩

theorem witness_peer_requests_and_routed_messages_4 : ∃ (k : Fin 4) (s : State),
    rxHead s k (forMe s 1) = none :=
  ⟨2, linked, by decide +kernel⟩

theorem witness_peer_requests_and_routed_messages_5 : ∃ (k : Fin 4) (e : Nat × UMsg) (a : Option Nat) (w : WinMap) (s : State),
    rxHead s k (forMe s 2) = some e ∧ e.2.seen = some (.pass a w.port w.laddr w.tmo w.acked) ∧ e.2.win ≠ 255 :=
  ⟨2, (1, { mtype := 2, ctx := 1, win := 0, data := [5], seen := some passed }), some 1, { port := 1, laddr := 0x1000 }, seen { mtype := 2, ctx := 1, win := 0, data := [5], seen := some passed }, by decide +kernel⟩

theorem witness_peer_requests_and_routed_messages_6 : ∃ (k : Fin 4) (e : Nat × UMsg) (a : Option Nat) (w : WinMap) (s : State),
    rxHead s k (forMe s 2) = some e ∧ e.2.seen = some (.pass a w.port w.laddr w.tmo w.acked) ∧ e.2.win = 255 :=
  ⟨2, (1, { mtype := 2, ctx := 1, win := 255, data := [5], seen := some passed }), some 1, { port := 1, laddr := 0x1000 }, seen { mtype := 2, ctx := 1, win := 255, data := [5], seen := some passed }, by decide +kernel⟩

theorem witness_peer_requests_and_routed_messages_7 : ∃ (k : Fin 4) (e : Nat × UMsg) (cause : Nat) (guard : Nat) (s : State),
    rxHead s k (forMe s 2) = some e ∧ e.2.seen = some (.denied cause guard) :=
  ⟨2, (1, { mtype := 2, ctx := 1, data := [5], seen := some (.denied 2 3) }), 2, 3, seen { mtype := 2, ctx := 1, data := [5], seen := some (.denied 2 3) }, by decide +kernel⟩

theorem witness_peer_requests_and_routed_messages_8 : ∃ (k : Fin 4) (e : Nat × UMsg) (a : Option Nat) (w : WinMap) (s : State),
    rxHead s k (forMe s 3) = some e ∧ e.2.seen = some (.pass a w.port w.laddr w.tmo w.acked) ∧ e.2.win = 255 :=
  ⟨2, (1, { mtype := 3, ctx := 1, win := 255, data := [5], seen := some passed }), some 1, { port := 1, laddr := 0x1000 }, seen { mtype := 3, ctx := 1, win := 255, data := [5], seen := some passed }, by decide +kernel⟩

theorem witness_peer_requests_and_routed_messages_9 : ∃ (k : Fin 4) (e : Nat × UMsg) (a : Option Nat) (w : WinMap) (s : State),
    rxHead s k (forMe s 3) = some e ∧ e.2.seen = some (.pass a w.port w.laddr w.tmo w.acked) ∧ e.2.win ≠ 255 :=
  ⟨2, (1, { mtype := 3, ctx := 1, win := 0, data := [5], seen := some passed }), some 1, { port := 1, laddr := 0x1000 }, seen { mtype := 3, ctx := 1, win := 0, data := [5], seen := some passed }, by decide +kernel⟩

theorem witness_peer_requests_and_routed_messages_10 : ∃ (k : Fin 4) (e : Nat × UMsg) (cause : Nat) (guard : Nat) (s : State),
    rxHead s k (forMe s 3) = some e ∧ e.2.seen = some (.denied cause guard) :=
  ⟨2, (1, { mtype := 3, ctx := 1, data := [5], seen := some (.denied 2 3) }), 2, 3, seen { mtype := 3, ctx := 1, data := [5], seen := some (.denied 2 3) }, by decide +kernel⟩

theorem witness_peer_requests_and_routed_messages_11 : ∃ (k : Fin 4) (e : Nat × UMsg) (s : State),
    rxHead s k (fun m => forMe s 4 m && !acksMirror s k m) = some e ∧ respOf (tookMsg k e s) k e.2 = none :=
  ⟨2, (1, { mtype := 4, ctx := 1, data := [5] }), peered [5] 4, by decide +kernel⟩

theorem witness_peer_requests_and_routed_messages_12 : ∃ (k : Fin 4) (e : Nat × UMsg) (j : Nat) (v : Nat) (src : ReqSrc) (x : UMsg) (s : State),
    rxHead s k (fun m => forMe s 4 m && !acksMirror s k m) = some e ∧ respOf (tookMsg k e s) k e.2 = some (j, v, src, x) ∧ (match src with | .state _ _ => true | _ => false) = false ∧ e.2.stat ≠ 6 :=
  ⟨2, (1, { mtype := 4, ctx := 1, data := [5] }), 2, 0, .nobody, { mtype := 1 }, (peered [5] 4).linkUpd 2 fun l => { l with reqs := [(0, .nobody, { mtype := 1 })] }, by decide +kernel⟩

theorem witness_peer_requests_and_routed_messages_13 : ∃ (k : Fin 4) (e : Nat × UMsg) (s : State),
    rxHead s k (forMe s 5) = some e ∧ e.2.send = false :=
  ⟨2, (1, { mtype := 5, ctx := 1, data := [5] }), peered [5] 5, by decide +kernel⟩

theorem witness_peer_requests_and_routed_messages_14 : ∃ (k : Fin 4) (e : Nat × UMsg) (s : State),
    rxHead s k (forMe s 5) = some e ∧ e.2.send = true :=
  ⟨2, (1, { mtype := 5, send := true }), linked.linkUpd 2 fun l => { l with rx := [(1, { mtype := 5, send := true })] }, by decide +kernel⟩

theorem witness_peer_requests_and_routed_messages_15 : ∃ (k : Fin 4) (e : Nat × UMsg) (a : Nat) (s : State),
    rxHead s k (forMe s 6) = some e ∧ tabGet (fun _ => none) (tookMsg k e s).ds.standby e.2.ctx = some a ∧ e.2.off + e.2.data.length ≤ (tookMsg k e s).aptSize a :=
  ⟨2, (1, { mtype := 6, ctx := 1, data := [5] }), 1, (peered [5] 6).dsUpd fun d => { d with standby := [(1, some 1)] }, by decide +kernel⟩

theorem witness_peer_requests_and_routed_messages_16 : ∃ (k : Fin 4) (e : Nat × UMsg) (s : State),
    rxHead s k (forMe s 6) = some e ∧ tabGet (fun _ => none) (tookMsg k e s).ds.standby e.2.ctx = none ∧ (tookMsg k e s).ds.backFor = [] :=
  ⟨2, (1, { mtype := 6, ctx := 1, data := [5] }), peered [5] 6, by decide +kernel⟩

theorem witness_peer_requests_and_routed_messages_17 : ∃ (k : Fin 4) (e : Nat × UMsg) (j : Nat) (s : State),
    rxHead s k (fun m => m.dst != s.me) = some e ∧ (tookMsg k e s).routeFor e.2.dst e.2.ctx = some j :=
  ⟨2, (1, { mtype := 1, dst := 3 }), 1, (linked.setWord Adr.PEL_ROUTE 0xFFFF1FFF).linkUpd 2 fun l => { l with rx := [(1, { mtype := 1, dst := 3 })] }, by decide +kernel⟩

theorem witness_peer_requests_and_routed_messages_18 : ∃ (k : Fin 4) (e : Nat × UMsg) (s : State),
    rxHead s k (fun m => m.dst != s.me) = some e ∧ (tookMsg k e s).routeFor e.2.dst e.2.ctx = none ∧ e.2.mtype = 1 :=
  ⟨2, (1, { mtype := 1, dst := 3 }), (linked.setWord Adr.PEL_ROUTE 0xFFFFFFFF).linkUpd 2 fun l => { l with rx := [(1, { mtype := 1, dst := 3 })] }, by decide +kernel⟩

theorem witness_state_messages_0 : ∃ (k : Fin 4) (e : Nat × UMsg) (s : State),
    rxHead s k (stype s 1) = some e ∧ bitOf (leAt e.2.data 6 1) 0 = false :=
  ⟨2, (1, { mtype := 7, ctx := 1, data := [1, 3, 0, 0, 8, 0, 0, 0] }), peered [1, 3, 0, 0, 8, 0, 0, 0] 7, by decide +kernel⟩

theorem witness_state_messages_1 : ∃ (k : Fin 4) (e : Nat × UMsg) (s : State),
    rxHead s k (stype s 2) = some e ∧ (tookMsg k e s).leads = false :=
  ⟨2, (1, { mtype := 7, ctx := 1, data := [2, 3, 0, 0] }), peered [2, 3, 0, 0] 7, by decide +kernel⟩

theorem witness_state_messages_2 : ∃ (k : Fin 4) (e : Nat × UMsg) (s : State),
    rxHead s k (stype s 2) = some e ∧ (tookMsg k e s).leads = true :=
  ⟨2, (1, { mtype := 7, ctx := 1, data := [2, 3, 0, 0] }), (peered [2, 3, 0, 0] 7).set Fld.PEL_STATUS_STATE 2, by decide +kernel⟩

theorem witness_state_messages_3 : ∃ (epoch : Nat) (joined : Nat) (m : Nat) (x : Loss) (s : State),
    epoch ≠ s.get Fld.PEL_VIEW_EPOCH ∧ bitOf joined m = true ∧ bitOf (s.get Fld.PEL_VIEW_JOINED) m = false ∧ x ∈ (setView epoch joined s).pel.losses :=
  ⟨5, 9, 3, ⟨2, 0, none⟩, serving.pelUpd fun p => { p with losses := [⟨2, 0, none⟩, ⟨3, 0, none⟩] }, by decide +kernel⟩

theorem witness_state_messages_4 : ∃ (k : Fin 4) (e : Nat × UMsg) (s : State),
    rxHead s k (stype s 3) = some e :=
  ⟨2, (1, { mtype := 7, ctx := 1, data := [3, 3, 0, 0] }), peered [3, 3, 0, 0] 7, by decide +kernel⟩

theorem witness_state_messages_5 : ∃ (k : Fin 4) (e : Nat × UMsg) (gen : Word) (units : Fin 257) (s : State),
    rxHead s k (stype s 4) = some e ∧ leAt e.2.data 5 1 = 0 :=
  ⟨2, (1, { mtype := 7, ctx := 1, data := [4, 1, 0, 1, 0, 0] }), 5, 1, peered [4, 1, 0, 1, 0, 0] 7, by decide +kernel⟩

theorem witness_state_messages_6 : ∃ (k : Fin 4) (e : Nat × UMsg) (gen : Word) (units : Fin 257) (s : State),
    rxHead s k (stype s 4) = some e ∧ leAt e.2.data 5 1 ≠ 0 :=
  ⟨2, (1, { mtype := 7, ctx := 1, data := [4, 1, 0, 1, 0, 3] }), 5, 1, peered [4, 1, 0, 1, 0, 3] 7, by decide +kernel⟩

theorem witness_state_messages_7 : ∃ (k : Fin 4) (e : Nat × UMsg) (c : Nat) (s : State),
    rxHead s k (stype s 5) = some e ∧ standbyOf (tookMsg k e s) (e.2.src / 1024) (leAt e.2.data 1 2) = some c ∧ (mayServe (tookMsg k e s) = false ∨ (tookMsg k e s).cst c ≠ 6) :=
  ⟨2, (1, { mtype := 7, ctx := 1, data := [5, 0, 0] }), 1, ((peered [5, 0, 0] 7).set (Fld.PEL_TANDEM_ROLE 1) 2).set (Fld.CTX_STATE_STATE 1) 2, by decide +kernel⟩

theorem witness_state_messages_8 : ∃ (k : Fin 4) (e : Nat × UMsg) (c : Nat) (s : State),
    rxHead s k (stype s 5) = some e ∧ standbyOf (tookMsg k e s) (e.2.src / 1024) (leAt e.2.data 1 2) = some c ∧ mayServe (tookMsg k e s) = true ∧ (tookMsg k e s).cst c = 6 :=
  ⟨2, (1, { mtype := 7, ctx := 1, data := [5, 0, 0] }), 1, ((peered [5, 0, 0] 7).set (Fld.PEL_TANDEM_ROLE 1) 2).set (Fld.CTX_STATE_STATE 1) 6, by decide +kernel⟩

theorem witness_state_messages_9 : ∃ (k : Fin 4) (e : Nat × UMsg) (s : State),
    rxHead s k (stype s 6) = some e :=
  ⟨2, (1, { mtype := 7, ctx := 1, data := [6, 0, 4, 2, 5, 0] }), peered [6, 0, 4, 2, 5, 0] 7, by decide +kernel⟩

theorem witness_state_messages_10 : ∃ (k : Fin 4) (e : Nat × UMsg) (s : State),
    rxHead s k (fun m => forMe s 7 m && !s.restarting && (leAt m.data 0 1 == 0 || decide (7 ≤ leAt m.data 0 1))) = some e :=
  ⟨2, (1, { mtype := 7, ctx := 1, data := [7] }), peered [7] 7, by decide +kernel⟩

theorem witness_joining_views_losses_and_fences_0 : ∃ (k : Fin 4) (dst : Fin 8) (s : State),
    s.pelState = 1 ∧ s.restarting = false ∧ joinLink s = some k.val ∧ joinTarget s = some dst.val ∧ s.pel.joinSent = false ∧ dst.val ≠ s.me :=
  ⟨2, 3, (linked.set Fld.PEL_STATUS_STATE 1).pelUpd fun p => { p with heard := [(2, 3)] }, by decide +kernel⟩

theorem witness_joining_views_losses_and_fences_1 : ∃ (k : Fin 4) (dst : Fin 8) (s : State),
    (s.pel.joinSent = true ∨ s.restarting = true ∨ joinLink s ≠ some k.val ∨ joinTarget s ≠ some dst.val) :=
  ⟨2, 3, linked.pelUpd fun p => { p with joinSent := true }, by decide +kernel⟩

theorem witness_joining_views_losses_and_fences_2 : ∃ (s : State),
    s.pelState = 1 ∧ s.pel.joinSent = false ∧ s.pel.views = [] ∧ joinTarget s = none ∧ 2000 * s.get Fld.PEL_CTL_JOIN_WAIT ≤ s.since s.pel.since ∧ (((List.range 8).filter fun m => m = s.me || (s.hop m).isSome).all fun m => decide (s.me ≤ m)) = true :=
  ⟨{ (linked.set Fld.PEL_STATUS_STATE 1).setWord Adr.PEL_ROUTE 0xFFFFFFFF with now := 1000000000 }, by decide +kernel⟩

theorem witness_joining_views_losses_and_fences_3 : ∃ (s : State),
    s.isMember = false :=
  ⟨serving, by decide +kernel⟩

theorem witness_joining_views_losses_and_fences_4 : ∃ (s : State),
    s.isMember = true ∧ s.restarting = false ∧ (2000 ≤ s.since s.pel.viewAt ∨ directMap s ≠ s.pel.saidLinks ∨ s.get Fld.PEL_VIEW_EPOCH ≠ s.pel.saidEpoch) :=
  ⟨{ linked.set Fld.PEL_STATUS_STATE 2 with now := 2000 }, by decide +kernel⟩

theorem witness_joining_views_losses_and_fences_5 : ∃ (m : Fin 8) (s : State),
    lossDue s m = true :=
  ⟨3, ((linked.set Fld.PEL_STATUS_STATE 2).set Fld.PEL_VIEW_JOINED 9).pelUpd fun p => { p with leaves := [(3, [])] }, by decide +kernel⟩

theorem witness_joining_views_losses_and_fences_7 : ∃ (m : Fin 8) (s : State),
    m.val = s.me :=
  ⟨0, linked, by decide +kernel⟩

theorem witness_joining_views_losses_and_fences_8 : ∃ (s : State),
    fenceDue s = true :=
  ⟨((linked.set Fld.PEL_STATUS_STATE 2).set Fld.PEL_VIEW_JOINED 15).setWord Adr.PEL_ROUTE 0xFFFFFFFF, by decide +kernel⟩

theorem witness_joining_views_losses_and_fences_9 : ∃ (s : State),
    fenceDue s = false :=
  ⟨serving, by decide +kernel⟩

theorem witness_joining_views_losses_and_fences_11 : ∃ (c : Fin 1024) (s : State),
    (failoverDue s (s.now + 1) c).isSome = true ∧ mayServe s = true :=
  ⟨1, (((linked.set (Fld.CTX_STATE_STATE 1) 6).set (Fld.PEL_TANDEM_ROLE 1) 2).set (Fld.PEL_TANDEM_PEER_MEMBER 1) 3).pelUpd fun p => { p with losses := [⟨3, 0, some []⟩] }, by decide +kernel⟩

theorem witness_joining_views_losses_and_fences_12 : ∃ (c : Fin 1024) (s : State),
    (failoverDue s (s.now + 1) c = none ∨ mayServe s = false) :=
  ⟨1, serving, by decide +kernel⟩

theorem witness_joining_views_losses_and_fences_13 : ∃ (c : Fin 1024) (x : Loss) (s : State),
    failoverDue s s.now c = some x ∧ mayServe s = true ∧ s.pel.liveNow < 32 :=
  ⟨1, ⟨3, 0, some []⟩, (((linked.set (Fld.CTX_STATE_STATE 1) 6).set (Fld.PEL_TANDEM_ROLE 1) 2).set (Fld.PEL_TANDEM_PEER_MEMBER 1) 3).pelUpd fun p => { p with losses := [⟨3, 0, some []⟩] }, by decide +kernel⟩

theorem witness_joining_views_losses_and_fences_14 : ∃ (c : Nat) (s : State),
    32 ≤ s.pel.liveNow :=
  ⟨0, linked.pelUpd fun p => { p with liveNow := 32 }, by decide +kernel⟩

theorem witness_joining_views_losses_and_fences_15 : ∃ (c : Fin 1024) (m : Nat) (sc : Nat) (s : State),
    s.partner c = some (m, sc) ∧ s.mode = .draining ∧ s.restarting = false ∧ (s.ctx c).handover = 0 ∧ s.cst c ≠ 7 ∧ handoverReady s c = true :=
  ⟨1, 3, 5, (((draining.set (Fld.CTX_STATE_STATE 1) 2).set (Fld.PEL_TANDEM_ROLE 1) 1).set (Fld.PEL_TANDEM_PEER_MEMBER 1) 3).set (Fld.PEL_TANDEM_PEER_CTX 1) 5, by decide +kernel⟩

theorem witness_joining_views_losses_and_fences_16 : ∃ (k : Fin 4) (leader : Fin 8) (s : State),
    s.isMember = true ∧ ulActive s k = true ∧ s.joined leader = false ∧ s.pel.split.contains k.val = false ∧ s.pelState ≠ 5 ∧ leader.val < s.get Fld.PEL_STATUS_LEADER :=
  ⟨2, 3, ((linked.set Fld.PEL_STATUS_STATE 2).set Fld.PEL_STATUS_LEADER 5).set Fld.PEL_VIEW_JOINED 32, by decide +kernel⟩

theorem witness_joining_views_losses_and_fences_17 : ∃ (a : Fin 2048) (other : Word) (r : PairRec) (s : State),
    (s.ds.pairs.find? fun r => r.apt == a.val) = some r ∧ s.isMember = true ∧ s.aptValid a = true ∧ s.aptCtx a = none ∧ s.hop (bitsOf r.word.toNat 28 26) ≠ none ∧ (s.ctx r.ctx).rejoin = false ∧ tabGet (fun _ => 0) s.ds.gens a < other.toNat :=
  ⟨1, 5, ⟨1, 0x4C010000, 4, 1⟩, (near.set (Fld.DS_APT_STATUS_VALID 1) 1).dsUpd fun d => { d with pairs := [⟨1, 0x4C010000, 4, 1⟩] }, by decide +kernel⟩

theorem witness_joining_views_losses_and_fences_18 : ∃ (a : Fin 2048) (other : Word) (r : PairRec) (s : State),
    (s.ds.pairs.find? fun r => r.apt == a.val) = some r ∧ s.isMember = true ∧ s.aptValid a = true ∧ s.aptCtx a = none ∧ s.hop (bitsOf r.word.toNat 28 26) ≠ none ∧ (s.ctx r.ctx).rejoin = false ∧ tabGet (fun _ => 0) s.ds.gens a = other.toNat ∧ s.get (Fld.PEL_TANDEM_ROLE r.ctx) = 0 ∧ bitsOf r.word.toNat 31 30 = 1 ∧ s.live r.ctx = true :=
  ⟨1, 4, ⟨1, 0x4C010000, 4, 1⟩, (near.set (Fld.DS_APT_STATUS_VALID 1) 1).dsUpd fun d => { d with pairs := [⟨1, 0x4C010000, 4, 1⟩], gens := [(1, 4)] }, by decide +kernel⟩

theorem witness_joining_views_losses_and_fences_19 : ∃ (a : Fin 2048) (other : Word) (r : PairRec) (s : State),
    (s.ds.pairs.find? fun r => r.apt == a.val) = some r ∧ (s.ctx r.ctx).rejoin = true :=
  ⟨1, 5, ⟨1, 0x4C010000, 4, 1⟩, (near.dsUpd fun d => { d with pairs := [⟨1, 0x4C010000, 4, 1⟩] }).ctxUpd 1 fun x => { x with rejoin := true }, by decide +kernel⟩

theorem witness_joining_views_losses_and_fences_20 : ∃ (a : Fin 2048) (other : Word) (s : State),
    (s.ds.pairs.find? fun r => r.apt == a.val) = none :=
  ⟨1, 5, serving, by decide +kernel⟩

theorem witness_peloton_commands_0 : ∃ (mb : Fin 1032) (core : Fin 4) (x : Cmd) (s : State),
    mayTake s mb core 0x0401 = some x :=
  ⟨4, 0, cmdIn 0x0401 [], waits 0x0401 [] serving, by decide +kernel⟩

theorem witness_peloton_commands_1 : ∃ (mb : Fin 1032) (core : Fin 4) (x : Cmd) (s : State),
    mayTake s mb core 0x0402 = some x :=
  ⟨4, 0, cmdIn 0x0402 [], waits 0x0402 [] serving, by decide +kernel⟩

theorem witness_peloton_commands_2 : ∃ (mb : Fin 1032) (core : Fin 4) (gen : Word) (x : Cmd) (s : State),
    mayTake s mb core 0x0403 = some x ∧ (takeCmd x core s).cst (leAt x.args 0 2) = 0 :=
  ⟨4, 0, 7, cmdIn 0x0403 [9, 0, 3, 0, 1, 0], waits 0x0403 [9, 0, 3, 0, 1, 0] serving, by decide +kernel⟩

theorem witness_peloton_commands_3 : ∃ (mb : Fin 1032) (core : Fin 4) (gen : Word) (x : Cmd) (s : State),
    mayTake s mb core 0x0403 = some x ∧ (takeCmd x core s).cst (leAt x.args 0 2) = 4 :=
  ⟨4, 0, 7, cmdIn 0x0403 [1, 0, 3, 0, 1, 0], waits 0x0403 [1, 0, 3, 0, 1, 0] (serving.set (Fld.CTX_STATE_STATE 1) 4), by decide +kernel⟩

theorem witness_peloton_commands_4 : ∃ (mb : Fin 1032) (core : Fin 4) (gen : Word) (x : Cmd) (s : State) (u : State) (v : State),
    mayTake s mb core 0x0403 = some x ∧ u = takeCmd x core s ∧ u.live (leAt x.args 0 2) = true ∧ u.get (Fld.PEL_TANDEM_ROLE (leAt x.args 0 2)) = 0 ∧ (u.ctx (leAt x.args 0 2)).pairing = none ∧ (u.ctx (leAt x.args 0 2)).rejoin = false ∧ (u.ctx (leAt x.args 0 2)).op = none ∧ leAt x.args 2 1 ≠ u.me ∧ bitOf (directMap u) (leAt x.args 2 1) = true ∧ sendState (leAt x.args 2 1) 4 (leAt x.args 0 2) (tandemData u (leAt x.args 0 2) (leAt x.args 4 2) 0 (shareWords u (leAt x.args 0 2))) u = (v, true) :=
  ⟨4, 0, 7, cmdIn 0x0403 [1, 0, 3, 0, 1, 0], waits 0x0403 [1, 0, 3, 0, 1, 0] near, takeCmd (cmdIn 0x0403 [1, 0, 3, 0, 1, 0]) 0 (waits 0x0403 [1, 0, 3, 0, 1, 0] near), (sendState 3 4 1 (tandemData (takeCmd (cmdIn 0x0403 [1, 0, 3, 0, 1, 0]) 0 (waits 0x0403 [1, 0, 3, 0, 1, 0] near)) 1 1 0 (shareWords (takeCmd (cmdIn 0x0403 [1, 0, 3, 0, 1, 0]) 0 (waits 0x0403 [1, 0, 3, 0, 1, 0] near)) 1)) (takeCmd (cmdIn 0x0403 [1, 0, 3, 0, 1, 0]) 0 (waits 0x0403 [1, 0, 3, 0, 1, 0] near))).1, by decide +kernel⟩

theorem witness_peloton_commands_5 : ∃ (mb : Fin 1032) (core : Fin 4) (x : Cmd) (s : State) (u : State),
    mayTake s mb core 0x0404 = some x ∧ u = takeCmd x core s ∧ u.cst (leAt x.args 0 2) ≠ 0 ∧ (u.ctx (leAt x.args 0 2)).pairing = none ∧ u.get (Fld.PEL_TANDEM_ROLE (leAt x.args 0 2)) = 1 :=
  ⟨4, 0, cmdIn 0x0404 [1, 0], waits 0x0404 [1, 0] (near.set (Fld.PEL_TANDEM_ROLE 1) 1), takeCmd (cmdIn 0x0404 [1, 0]) 0 (waits 0x0404 [1, 0] (near.set (Fld.PEL_TANDEM_ROLE 1) 1)), by decide +kernel⟩

theorem witness_peloton_commands_6 : ∃ (mb : Fin 1032) (core : Fin 4) (x : Cmd) (s : State) (u : State),
    mayTake s mb core 0x0404 = some x ∧ u = takeCmd x core s ∧ u.cst (leAt x.args 0 2) ≠ 0 ∧ (u.ctx (leAt x.args 0 2)).pairing = none ∧ u.get (Fld.PEL_TANDEM_ROLE (leAt x.args 0 2)) ≠ 1 :=
  ⟨4, 0, cmdIn 0x0404 [1, 0], waits 0x0404 [1, 0] near, takeCmd (cmdIn 0x0404 [1, 0]) 0 (waits 0x0404 [1, 0] near), by decide +kernel⟩

theorem witness_peloton_commands_7 : ∃ (mb : Fin 1032) (core : Fin 4) (x : Cmd) (s : State) (u : State),
    mayTake s mb core 0x0405 = some x ∧ u = takeCmd x core s ∧ u.cst (leAt x.args 0 2) ≠ 0 ∧ (u.ctx (leAt x.args 0 2)).apt = none :=
  ⟨4, 0, cmdIn 0x0405 [1, 0], waits 0x0405 [1, 0] near, takeCmd (cmdIn 0x0405 [1, 0]) 0 (waits 0x0405 [1, 0] near), by decide +kernel⟩

theorem witness_sources_and_pending_bits_0 : ∃ (n : Fin 288) (s : State),
    s.inRest = false ∧ sourceReserved n = false :=
  ⟨287, serving, by decide +kernel⟩

theorem witness_sources_and_pending_bits_1 : ∃ (n : Fin 288) (s : State),
    (n.val = 164 ∨ n.val = 165 ∨ n.val = 166) :=
  ⟨165, serving, by decide +kernel⟩

theorem witness_sources_and_pending_bits_2 : ∃ (n : Fin 288) (s : State),
    s.inRest = true ∧ wakeIndex n = none :=
  ⟨44, serving.set Fld.CRP_SLEEP_STATE 4, by decide +kernel⟩

theorem witness_sources_and_pending_bits_3 : ∃ (c : Fin 4) (w : Fin 9) (bits : Word) (s : State),
    mapCause s (.core c) (0x700040 + 4 * w.val) true = none ∧ blockGated s (blockOf (0x700040 + 4 * w.val)) = false :=
  ⟨0, 8, 5, serving, by decide +kernel⟩

theorem witness_sources_and_pending_bits_4 : ∃ (c : Fin 4) (w : Fin 9) (bits : Word) (edges : Word) (sets : Word) (s : State),
    mapCause s (.core c) (0x700080 + 4 * w.val) true = none ∧ blockGated s (blockOf (0x700080 + 4 * w.val)) = false :=
  ⟨0, 8, 5, 4, 1, serving, by decide +kernel⟩

theorem witness_sources_and_pending_bits_5 : ∃ (c : Fin 4) (w : Fin 9) (bits : Word) (clears : Word) (s : State),
    mapCause s (.core c) (0x700100 + 4 * w.val) true = none ∧ blockGated s (blockOf (0x700100 + 4 * w.val)) = false :=
  ⟨0, 8, 5, 4, serving, by decide +kernel⟩

theorem witness_sources_and_pending_bits_6 : ∃ (c : Fin 4) (w : Fin 9) (bits : Word) (s : State),
    mapCause s (.core c) (0x700140 + 4 * w.val) true = none ∧ blockGated s (blockOf (0x700140 + 4 * w.val)) = false :=
  ⟨0, 8, 5, serving, by decide +kernel⟩

theorem witness_sources_and_pending_bits_7 : ∃ (m : Master) (w : Fin 9) (bits : Word) (s : State),
    (m = .bc ∨ m = .debug) ∧ mapCause s m (0x700040 + 4 * w.val) true = none ∧ blockGated s (blockOf (0x700040 + 4 * w.val)) = false :=
  ⟨.bc, 8, 5, serving, by decide +kernel⟩

theorem witness_sources_and_pending_bits_8 : ∃ (m : Master) (w : Fin 9) (bits : Word) (e : Nat) (s : State),
    (m = .bc ∨ m = .debug) ∧ mapCause s m (0x700040 + 4 * w.val) true = some e :=
  ⟨.bc, 8, 5, 5, ((serving.setWord (Adr.ACC_REGION_LO 1) 0x00000700).setWord (Adr.ACC_REGION_HI 1) 0x80000007), by decide +kernel⟩

theorem witness_sources_and_pending_bits_9 : ∃ (m : Master) (w : Fin 9) (bits : Word) (s : State),
    (m = .bc ∨ m = .debug) ∧ mapCause s m (0x700140 + 4 * w.val) true = none ∧ blockGated s (blockOf (0x700140 + 4 * w.val)) = false :=
  ⟨.bc, 8, 5, serving, by decide +kernel⟩

theorem witness_sources_and_pending_bits_10 : ∃ (m : Master) (w : Fin 9) (bits : Word) (e : Nat) (s : State),
    (m = .bc ∨ m = .debug) ∧ mapCause s m (0x700140 + 4 * w.val) true = some e :=
  ⟨.bc, 8, 5, 5, ((serving.setWord (Adr.ACC_REGION_LO 1) 0x00000700).setWord (Adr.ACC_REGION_HI 1) 0x80000007), by decide +kernel⟩

theorem witness_sources_and_pending_bits_11 : ∃ (c : Fin 4) (edge : Bool) (s : State),
    s.inRest = false ∧ mapCause s (.core c) 0x700A00 false = none ∧ blockGated s (blockOf 0x700A00) = false ∧ icBest s c = none :=
  ⟨1, false, serving, by decide +kernel⟩

theorem witness_sources_and_pending_bits_12 : ∃ (c : Fin 4) (n : Nat) (s : State),
    s.inRest = false ∧ mapCause s (.core c) 0x700A00 false = none ∧ blockGated s (blockOf 0x700A00) = false ∧ icBest s c = some n ∧ n < 288 :=
  ⟨1, 5, ((serving.setWord (Adr.IC_PEND 0) 32).setWord (Adr.IC_EN 0) 32).set (Fld.IC_SRC_CFG_TARGET 5) 1, by decide +kernel⟩

theorem witness_sources_and_pending_bits_13 : ∃ (c : Fin 4) (src : BitVec 9) (p : Nat) (rest : List (Nat × Nat)) (s : State),
    mapCause s (.core c) 0x700A04 true = none ∧ blockGated s (blockOf 0x700A04) = false ∧ s.stack c = (p, src.toNat) :: rest :=
  ⟨1, 7, 0x80, [], serving.setStack 1 [(0x80, 7)], by decide +kernel⟩

theorem witness_sources_and_pending_bits_14 : ∃ (c : Fin 4) (src : BitVec 9) (p : Nat) (top : Nat) (rest : List (Nat × Nat)) (s : State),
    mapCause s (.core c) 0x700A04 true = none ∧ blockGated s (blockOf 0x700A04) = false ∧ s.stack c = (p, top) :: rest ∧ top ≠ src.toNat ∧ top < 512 :=
  ⟨1, 9, 0x80, 7, [], serving.setStack 1 [(0x80, 7)], by decide +kernel⟩

theorem witness_sources_and_pending_bits_15 : ∃ (g : Fin 32) (s : State),
    s.isSet (Fld.IC_HOLD_RUNNING g) = true ∧ tabGet (fun _ => 0) s.holdLeft g = 0 :=
  ⟨31, serving.set (Fld.IC_HOLD_RUNNING 31) 1, by decide +kernel⟩

theorem witness_sources_and_pending_bits_16 : ∃ (c : Fin 4) (g : Fin 32) (s : State),
    mapCause s (.core c) (0x700900 + 4 * g.val) true = none ∧ blockGated s (blockOf (0x700900 + 4 * g.val)) = false :=
  ⟨0, 31, serving, by decide +kernel⟩

theorem witness_sources_and_pending_bits_17 : ∃ (c : Fin 4) (g : Fin 32) (v : BitVec 16) (s : State),
    mapCause s (.core c) (0x700900 + 4 * g.val) true = none ∧ blockGated s (blockOf (0x700900 + 4 * g.val)) = false ∧ v ≠ 0 :=
  ⟨0, 31, 9, serving, by decide +kernel⟩

theorem witness_timers_events_and_msix_0 : ∃ (v : Fin 4) (s : State),
    s.isSet (Fld.IC_TMR_CTL_EN v) = true ∧ s.get (Fld.IC_TMR_CNT_REMAIN v) = 0 ∧ s.isSet (Fld.IC_TMR_CTL_PERIODIC v) = true ∧ s.inRest = false :=
  ⟨3, (serving.set (Fld.IC_TMR_CTL_EN 3) 1).set (Fld.IC_TMR_CTL_PERIODIC 3) 1 |>.set (Fld.IC_TMR_CTL_PERIOD 3) 77, by decide +kernel⟩

theorem witness_timers_events_and_msix_1 : ∃ (v : Fin 4) (s : State),
    s.isSet (Fld.IC_TMR_CTL_EN v) = true ∧ s.get (Fld.IC_TMR_CNT_REMAIN v) = 0 ∧ s.isSet (Fld.IC_TMR_CTL_PERIODIC v) = false ∧ s.inRest = false :=
  ⟨3, serving.set (Fld.IC_TMR_CTL_EN 3) 1, by decide +kernel⟩

theorem witness_timers_events_and_msix_2 : ∃ (s : State),
    s.isSet Fld.IC_STROKE_CMP_HI_EN = true ∧ s.get Fld.IC_STROKE_CMP_LO_STROKE_LO = s.nowLo ∧ s.get Fld.IC_STROKE_CMP_HI_STROKE_HI = s.nowHi ∧ s.inRest = false :=
  ⟨serving.set Fld.IC_STROKE_CMP_HI_EN 1, by decide +kernel⟩

theorem witness_timers_events_and_msix_3 : ∃ (s : State),
    s.isSet Fld.KS_CTL_ALARM_EN = true ∧ s.word Adr.KS_TIME = s.word Adr.KS_ALARM ∧ s.inRest = false :=
  ⟨serving.set Fld.KS_CTL_ALARM_EN 1 |>.setWord Adr.KS_ALARM (serving.word Adr.KS_TIME), by decide +kernel⟩

theorem witness_timers_events_and_msix_4 : ∃ (g : Fin 16) (rising : Bool) (s : State),
    s.pwr.gpio.getLsbD g.val = rising :=
  ⟨15, false, serving, by decide +kernel⟩

theorem witness_timers_events_and_msix_5 : ∃ (g : Fin 16) (s : State),
    s.pwr.gpio.getLsbD g.val = false ∧ bitOf (bitsOf (s.word Adr.KS_GPIO_EDGE).toNat (2 * g.val + 1) (2 * g.val)) 0 = false :=
  ⟨15, serving.setWord Adr.KS_GPIO_EDGE 0, by decide +kernel⟩

theorem witness_timers_events_and_msix_6 : ∃ (g : Fin 16) (s : State),
    s.pwr.gpio.getLsbD g.val = false ∧ bitOf (bitsOf (s.word Adr.KS_GPIO_EDGE).toNat (2 * g.val + 1) (2 * g.val)) 0 = true :=
  ⟨15, serving.setWord Adr.KS_GPIO_EDGE 0x40000000, by decide +kernel⟩

theorem witness_timers_events_and_msix_7 : ∃ (c : Fin 1024) (b : Fin 8) (s : State),
    (b.val = 0 ∨ c.val = 0) :=
  ⟨0, 7, serving, by decide +kernel⟩

theorem witness_timers_events_and_msix_8 : ∃ (c : Fin 1024) (b : Fin 8) (s : State),
    b.val ≠ 0 ∧ c.val ≠ 0 :=
  ⟨1, 1, serving, by decide +kernel⟩

theorem witness_timers_events_and_msix_9 : ∃ (c : Fin 1024) (q : Fin 64) (s : State),
    s.isSet (Fld.CQ_EVT_STATUS_TIMER_RUN c q) = true ∧ s.get (Fld.CQ_EVT_STATUS_REMAIN c q) = 0 :=
  ⟨1, 63, serving.set (Fld.CQ_EVT_STATUS_TIMER_RUN 1 63) 1, by decide +kernel⟩

theorem witness_timers_events_and_msix_10 : ∃ (c : Fin 1024) (q : Fin 64) (v : Word) (s : State),
    HostTurn s c ∧ s.ds.full = false ∧ ((hostNoted s).fn c).enabled = true :=
  ⟨1, 1, 5, opened, by decide +kernel⟩

theorem witness_timers_events_and_msix_11 : ∃ (c : Fin 1024) (q : Fin 64) (v : Word) (s : State),
    s.ds.full = true :=
  ⟨1, 1, 5, serving.dsUpd fun d => { d with full := true }, by decide +kernel⟩

theorem witness_timers_events_and_msix_12 : ∃ (c : Fin 1024) (v : Fin 64) (s : State),
    s.linkLost = true :=
  ⟨1, 63, serving.set Fld.HL_LINK_STATUS_DL_UP 0, by decide +kernel⟩

theorem witness_timers_events_and_msix_13 : ∃ (c : Fin 1024) (v : Fin 64) (s : State),
    s.linkLost = false ∧ (s.fn c).msixEn = false :=
  ⟨1, 63, serving, by decide +kernel⟩

theorem witness_timers_events_and_msix_14 : ∃ (c : Fin 1024) (v : Fin 64) (s : State),
    s.linkLost = false ∧ (s.fn c).msixEn = true ∧ s.vectorsOf c ≤ v.val :=
  ⟨1, 63, serving.fnUpd 1 fun f => { f with msixEn := true }, by decide +kernel⟩

theorem witness_timers_events_and_msix_15 : ∃ (c : Fin 1024) (v : Fin 64) (s : State),
    s.linkLost = false ∧ (s.fn c).msixEn = true ∧ v.val < s.vectorsOf c ∧ msixHeld s c = false ∧ (s.fn c).bme = false :=
  ⟨0, 2, (serving.fnUpd 0 fun f => { f with msixEn := true }).set (Fld.CTX_SHARE5_VECTORS 0) 8, by decide +kernel⟩

theorem witness_timers_events_and_msix_16 : ∃ (c : Fin 1024) (v : Fin 64) (s : State),
    s.linkLost = false ∧ (s.fn c).msixEn = true ∧ v.val < s.vectorsOf c ∧ msixHeld s c = true :=
  ⟨1, 2, vectored.fnUpd 1 fun f => { f with d3 := true }, by decide +kernel⟩

theorem witness_timers_events_and_msix_17 : ∃ (c : Fin 1024) (v : Fin 64) (s : State),
    s.linkLost = false ∧ (s.fn c).msixEn = true ∧ v.val < s.vectorsOf c ∧ msixHeld s c = false ∧ (s.fn c).bme = true ∧ (s.fn c).fmask = false ∧ (s.msixAt c v).ctl.getLsbD 0 = true :=
  ⟨1, 2, vectored.setMsix 1 2 { vectored.msixAt 1 2 with ctl := 1 }, by decide +kernel⟩

theorem witness_timers_events_and_msix_18 : ∃ (c : Fin 1024) (v : Fin 64) (s : State),
    s.linkLost = false ∧ (s.fn c).msixEn = true ∧ v.val < s.vectorsOf c ∧ msixHeld s c = false ∧ (s.fn c).bme = true ∧ (s.fn c).fmask = false ∧ (s.msixAt c v).ctl.getLsbD 0 = false ∧ s.get Fld.HL_LINK_STATUS_LSTATE ≠ 4 ∧ (c.val, v.val, none) ∉ s.msixDue :=
  ⟨1, 2, vectored.setMsix 1 2 { vectored.msixAt 1 2 with ctl := 0 }, by decide +kernel⟩

theorem witness_timers_events_and_msix_19 : ∃ (c : Nat) (v : Nat) (q : Option Nat) (s : State),
    s.msixDue = [(c, v, q)] ∧ s.isSet Fld.HL_LINK_STATUS_DL_UP = true ∧ s.get Fld.HL_LINK_STATUS_LSTATE ≠ 3 ∧ s.get Fld.HL_LINK_STATUS_LSTATE ≠ 4 ∧ msixHeld s c = false ∧ (s.fn c).bme = true :=
  ⟨1, 2, none, { vectored with msixDue := [(1, 2, none)] }, by decide +kernel⟩

theorem witness_timers_events_and_msix_20 : ∃ (c : Nat) (v : Nat) (q : Option Nat) (s : State),
    s.msixDue = [(c, v, q)] ∧ s.isSet Fld.HL_LINK_STATUS_DL_UP = true ∧ s.get Fld.HL_LINK_STATUS_LSTATE ≠ 3 ∧ msixHeld s c = false ∧ (s.fn c).bme = false :=
  ⟨0, 2, none, { vectored with msixDue := [(0, 2, none)] }, by decide +kernel⟩

theorem witness_timers_events_and_msix_21 : ∃ (c : Fin 1024) (v : Fin 64) (s : State),
    HostTurn s c ∧ s.ds.full = false ∧ v.val < (hostNoted s).vectorsOf c :=
  ⟨1, 0, opened.set (Fld.CTX_SHARE5_VECTORS 1) 4, by decide +kernel⟩

theorem witness_timers_events_and_msix_22 : ∃ (c : Fin 1024) (v : Fin 64) (s : State),
    HostTurn s c ∧ s.ds.full = false ∧ (hostNoted s).vectorsOf c ≤ v.val :=
  ⟨1, 63, serving, by decide +kernel⟩

theorem witness_mailboxes_and_device_commands_0 : ∃ (mb : Fin 1032) (s : State),
    mb.val = 5 ∧ s.mode = .preserve :=
  ⟨5, serving.set Fld.DEV_MODE_MODE 4, by decide +kernel⟩

theorem witness_mailboxes_and_device_commands_1 : ∃ (mb : Fin 1032) (s : State),
    mb.val = 5 ∧ s.mode ≠ .preserve ∧ mbxBusy s (mbxId mb) = true :=
  ⟨5, serving.set (mbxState (mbxId 5)) 1, by decide +kernel⟩

theorem witness_mailboxes_and_device_commands_2 : ∃ (mb : Fin 1032) (s : State),
    mb.val = 5 ∧ s.mode ≠ .preserve ∧ mbxBusy s (mbxId mb) = false :=
  ⟨5, serving, by decide +kernel⟩

theorem witness_mailboxes_and_device_commands_3 : ∃ (mb : Fin 1032) (s : State),
    mb.val = 4 ∧ s.restGated = false ∧ s.pwr.smbHeld = none :=
  ⟨4, serving, by decide +kernel⟩

theorem witness_mailboxes_and_device_commands_4 : ∃ (mb : Fin 1032) (s : State),
    mb.val < 4 ∧ HostTurn s (mbxFn mb) ∧ s.ds.full = false :=
  ⟨3, opened, by decide +kernel⟩

theorem witness_mailboxes_and_device_commands_5 : ∃ (mb : Fin 1032) (s : State),
    8 ≤ mb.val ∧ HostTurn s (mbxFn mb) ∧ s.ds.full = false ∧ ((hostNoted s).fn (mbxCtx mb)).enabled = true :=
  ⟨9, opened, by decide +kernel⟩

theorem witness_mailboxes_and_device_commands_6 : ∃ (mb : Fin 1032) (s : State),
    mb.val = 4 ∧ s.restGated = true ∧ s.pwr.smbHeld = none :=
  ⟨4, serving.set Fld.CRP_SLEEP_STATE 4, by decide +kernel⟩

theorem witness_mailboxes_and_device_commands_7 : ∃ (mb : Fin 1032) (s : State),
    (mb.val < 4 ∨ 8 ≤ mb.val) ∧ s.ds.full = true :=
  ⟨3, serving.dsUpd fun d => { d with full := true }, by decide +kernel⟩

theorem witness_mailboxes_and_device_commands_8 : ∃ (mb : Fin 1032) (x : Cmd) (s : State),
    s.cmdOf mb = some x ∧ mbxLate s x = false :=
  ⟨4, cmdIn 0x0702 [], waits 0x0702 [] (serving.set Fld.MBX_WDOG_CTL_MS 100), by decide +kernel⟩

theorem witness_mailboxes_and_device_commands_9 : ∃ (mb : Fin 1032) (x : Cmd) (s : State),
    s.cmdOf mb = some x ∧ mbxLate s x = true ∧ s.mode ≠ .preserve ∧ s.get (mbxState x.mb) = 1 ∧ x.mb = 4 ∧ x.id = 0 :=
  ⟨4, cmdIn 0x0702 [], waits 0x0702 [] { serving.set Fld.MBX_WDOG_CTL_MS 1 with now := 2000 }, by decide +kernel⟩

theorem witness_mailboxes_and_device_commands_10 : ∃ (code : Fin 13) (s : State),
    fwBusy s = false :=
  ⟨0, serving, by decide +kernel⟩

theorem witness_mailboxes_and_device_commands_11 : ∃ (code : Fin 13) (s : State),
    storeBusy s = true :=
  ⟨0, serving.mbxUpd fun m => { m with store := { state := 1, op := 0x030A, mb := 4 } }, by decide +kernel⟩

theorem witness_mailboxes_and_device_commands_12 : ∃ (mb : Fin 1032) (core : Fin 4) (x : Cmd) (s : State),
    s.cmdOf mb = some x ∧ x.fwd = true ∧ s.get (mbxState x.mb) = 1 ∧ s.mode ≠ .preserve ∧ coreRuns s core = true ∧ (s.mbx.out.any fun o => o.member == s.get (mbxField x.mb 0 26 24)) = false ∧ s.route (s.get (mbxField x.mb 0 26 24)) = none :=
  ⟨4, 0, { cmdIn 0x0702 [] with fwd := true }, (serving.cmdsUpd fun _ => [{ cmdIn 0x0702 [] with fwd := true }]).set (mbxState 4) 1 |>.set (mbxField 4 0 26 24) 5, by decide +kernel⟩

theorem witness_mailboxes_and_device_commands_13 : ∃ (mb : Fin 1032) (core : Fin 4) (k : Fin 4) (x : Cmd) (s : State),
    s.cmdOf mb = some x ∧ x.fwd = true ∧ s.get (mbxState x.mb) = 1 ∧ s.mode ≠ .preserve ∧ coreRuns s core = true ∧ (s.mbx.out.any fun o => o.member == s.get (mbxField x.mb 0 26 24)) = false ∧ s.route (s.get (mbxField x.mb 0 26 24)) = some k.val :=
  ⟨4, 0, 2, { cmdIn 0x0702 [] with fwd := true }, (near.cmdsUpd fun _ => [{ cmdIn 0x0702 [] with fwd := true }]).set (mbxState 4) 1 |>.set (mbxField 4 0 26 24) 3, by decide +kernel⟩

theorem witness_mailboxes_and_device_commands_14 : ∃ (mb : Fin 1032) (s : State),
    (mb.val = 6 ∨ mb.val = 7) :=
  ⟨6, serving, by decide +kernel⟩

theorem witness_mailboxes_and_device_commands_15 : ∃ (mb : Fin 1032) (core : Fin 4) (x : Cmd) (s : State) (u : State),
    mayTake s mb core 0x0001 = some x ∧ u = takeCmd x core s :=
  ⟨4, 0, cmdIn 1 [], waits 1 [] serving, takeCmd (cmdIn 1 []) 0 (waits 1 [] serving), by decide +kernel⟩

theorem witness_mailboxes_and_device_commands_16 : ∃ (mb : Fin 1032) (core : Fin 4) (x : Cmd) (s : State) (u : State),
    mayTake s mb core 0x0002 = some x ∧ u = takeCmd x core s ∧ u.dev.devResetAt = none :=
  ⟨4, 0, cmdIn 2 [], waits 2 [] maint, takeCmd (cmdIn 2 []) 0 (waits 2 [] maint), by decide +kernel⟩

theorem witness_mailboxes_and_device_commands_17 : ∃ (mb : Fin 1032) (core : Fin 4) (x : Cmd) (s : State) (u : State),
    mayTake s mb core 0x0003 = some x ∧ u = takeCmd x core s ∧ u.mode = .maintenance :=
  ⟨4, 0, cmdIn 3 [], waits 3 [] maint, takeCmd (cmdIn 3 []) 0 (waits 3 [] maint), by decide +kernel⟩

theorem witness_mailboxes_and_device_commands_18 : ∃ (mb : Fin 1032) (core : Fin 4) (x : Cmd) (s : State) (u : State),
    mayTake s mb core 0x0003 = some x ∧ u = takeCmd x core s ∧ (u.mode = .boot ∨ (u.mode ≠ .maintenance ∧ maintAllowed u = true)) :=
  ⟨4, 0, cmdIn 3 [], waits 3 [] standby, takeCmd (cmdIn 3 []) 0 (waits 3 [] standby), by decide +kernel⟩

theorem witness_mailboxes_and_device_commands_19 : ∃ (mb : Fin 1032) (core : Fin 4) (x : Cmd) (s : State) (u : State),
    mayTake s mb core 0x0003 = some x ∧ u = takeCmd x core s ∧ u.mode ≠ .boot ∧ u.mode ≠ .maintenance ∧ maintAllowed u = false :=
  ⟨4, 0, cmdIn 3 [], waits 3 [] (serving.hlUpd fun h => { h with vfEnable := true }), takeCmd (cmdIn 3 []) 0 (waits 3 [] (serving.hlUpd fun h => { h with vfEnable := true })), by decide +kernel⟩

theorem witness_mailboxes_and_device_commands_20 : ∃ (mb : Fin 1032) (core : Fin 4) (x : Cmd) (s : State) (u : State),
    mayTake s mb core 0x0004 = some x ∧ u = takeCmd x core s ∧ (u.mode = .standby ∨ u.mode = .serving) :=
  ⟨4, 0, cmdIn 4 [], waits 4 [] serving, takeCmd (cmdIn 4 []) 0 (waits 4 [] serving), by decide +kernel⟩

theorem witness_mailboxes_and_device_commands_21 : ∃ (mb : Fin 1032) (core : Fin 4) (x : Cmd) (s : State) (u : State),
    mayTake s mb core 0x0004 = some x ∧ u = takeCmd x core s ∧ u.mode = .draining :=
  ⟨4, 0, cmdIn 4 [], waits 4 [] draining, takeCmd (cmdIn 4 []) 0 (waits 4 [] draining), by decide +kernel⟩

theorem witness_mailboxes_and_device_commands_22 : ∃ (mb : Fin 1032) (core : Fin 4) (x : Cmd) (s : State),
    mayTake s mb core 0x0701 = some x :=
  ⟨4, 0, cmdIn 0x0701 [], waits 0x0701 [] serving, by decide +kernel⟩

theorem witness_mailboxes_and_device_commands_23 : ∃ (mb : Fin 1032) (core : Fin 4) (x : Cmd) (s : State),
    mayTake s mb core 0x0702 = some x :=
  ⟨4, 0, cmdIn 0x0702 [5, 6], waits 0x0702 [5, 6] serving, by decide +kernel⟩

theorem witness_mailboxes_and_device_commands_24 : ∃ (mb : Fin 1032) (core : Fin 4) (x : Cmd) (s : State) (u : State),
    mayTake s mb core 0x0703 = some x ∧ u = takeCmd x core s ∧ u.flt.log.length ≤ u.flt.logged ∧ u.flt.logged ≤ leAt x.args 0 4 :=
  ⟨4, 0, cmdIn 0x0703 [0, 1, 0, 0], waits 0x0703 [0, 1, 0, 0] serving, takeCmd (cmdIn 0x0703 [0, 1, 0, 0]) 0 (waits 0x0703 [0, 1, 0, 0] serving), by decide +kernel⟩

theorem witness_mailboxes_and_device_commands_25 : ∃ (mb : Fin 1032) (core : Fin 4) (x : Cmd) (s : State) (u : State) (i : Nat),
    mayTake s mb core 0x0703 = some x ∧ u = takeCmd x core s ∧ i = leAt x.args 0 4 ∧ u.flt.log.length ≤ 126 ∧ u.flt.log.length = u.flt.logged ∧ i < u.flt.logged :=
  ⟨4, 0, cmdIn 0x0703 [0, 0, 0, 0], waits 0x0703 [0, 0, 0, 0] (logEv 0x60 [5] serving), takeCmd (cmdIn 0x0703 [0, 0, 0, 0]) 0 (waits 0x0703 [0, 0, 0, 0] (logEv 0x60 [5] serving)), 0, by decide +kernel⟩

theorem witness_mailboxes_and_device_commands_26 : ∃ (mb : Fin 1032) (core : Fin 4) (x : Cmd) (s : State) (u : State),
    mayTake s mb core 0x0704 = some x ∧ u = takeCmd x core s :=
  ⟨4, 0, cmdIn 0x0704 [], waits 0x0704 [] serving, takeCmd (cmdIn 0x0704 []) 0 (waits 0x0704 [] serving), by decide +kernel⟩

theorem witness_command_results_0 : ∃ (core : Fin 4) (x : Cmd) (args : List Byte) (s : State),
    mayTake s 4 core 0x0702 = some x ∧ s.cmds.map (fun y => y.id) = [x.id] ∧ x.mb = 4 ∧ x.args = args ∧ args.length ≤ 4064 ∧ x.dropped = false :=
  ⟨0, cmdIn 0x0702 [5, 6], [5, 6], waits 0x0702 [5, 6] serving, by decide +kernel⟩

theorem witness_power_commands_0 : ∃ (mb : Fin 1032) (core : Fin 4) (x : Cmd) (s : State),
    s.awake = true ∧ mayTake s mb core 0x0101 = some x :=
  ⟨4, 0, cmdIn 0x0101 [2], waits 0x0101 [2] serving, by decide +kernel⟩

theorem witness_power_commands_1 : ∃ (mb : Fin 1032) (core : Fin 4) (s : State),
    s.awake = false :=
  ⟨4, 0, waits 0x0101 [2] (serving.set Fld.CRP_SLEEP_STATE 2), by decide +kernel⟩

theorem witness_power_commands_2 : ∃ (mb : Fin 1032) (core : Fin 4) (x : Cmd) (s : State) (u : State),
    mayTake s mb core 0x0102 = some x ∧ u = takeCmd x core s ∧ s.sleepState = 0 ∧ leAt x.args 0 1 = 1 ∧ maySleep u = true ∧ sleepKind u = 0 :=
  ⟨4, 0, cmdIn 0x0102 [1], waits 0x0102 [1] serving, takeCmd (cmdIn 0x0102 [1]) 0 (waits 0x0102 [1] serving), by decide +kernel⟩

theorem witness_power_commands_3 : ∃ (mb : Fin 1032) (core : Fin 4) (x : Cmd) (s : State) (u : State),
    mayTake s mb core 0x0102 = some x ∧ u = takeCmd x core s ∧ s.sleepState ≠ 5 ∧ sleepKind s = leAt x.args 0 1 ∧ sleepKind u = leAt x.args 0 1 :=
  ⟨4, 0, cmdIn 0x0102 [1], (waits 0x0102 [1] (serving.set Fld.CRP_SLEEP_STATE 2)), takeCmd (cmdIn 0x0102 [1]) 0 (waits 0x0102 [1] (serving.set Fld.CRP_SLEEP_STATE 2)), by decide +kernel⟩

theorem witness_power_commands_4 : ∃ (mb : Fin 1032) (core : Fin 4) (s : State),
    s.sleepState = 5 :=
  ⟨4, 0, waits 0x0102 [2] (serving.set Fld.CRP_SLEEP_STATE 5), by decide +kernel⟩

theorem witness_power_commands_5 : ∃ (mb : Fin 1032) (core : Fin 4) (x : Cmd) (s : State) (u : State),
    mayTake s mb core 0x0102 = some x ∧ u = takeCmd x core s ∧ s.sleepState = 0 ∧ leAt x.args 0 1 ≠ 0 ∧ maySleep u = false ∧ sleepKind u = 0 :=
  ⟨4, 0, cmdIn 0x0102 [2], waits 0x0102 [2] standby, takeCmd (cmdIn 0x0102 [2]) 0 (waits 0x0102 [2] standby), by decide +kernel⟩

theorem witness_power_commands_6 : ∃ (mb : Fin 1032) (core : Fin 4) (x : Cmd) (s : State) (u : State),
    s.awake = true ∧ mayTake s mb core 0x0103 = some x ∧ u = takeCmd x core s :=
  ⟨4, 0, cmdIn 0x0103 [1, 2, 3, 4, 5, 6], waits 0x0103 [1, 2, 3, 4, 5, 6] serving, takeCmd (cmdIn 0x0103 [1, 2, 3, 4, 5, 6]) 0 (waits 0x0103 [1, 2, 3, 4, 5, 6] serving), by decide +kernel⟩

theorem witness_power_commands_7 : ∃ (mb : Fin 1032) (core : Fin 4) (x : Cmd) (s : State) (u : State),
    mayTake s mb core 0x0104 = some x ∧ u = takeCmd x core s :=
  ⟨4, 0, cmdIn 0x0104 [], waits 0x0104 [] serving, takeCmd (cmdIn 0x0104 []) 0 (waits 0x0104 [] serving), by decide +kernel⟩

theorem witness_power_commands_8 : ∃ (mb : Fin 1032) (core : Fin 4) (x : Cmd) (s : State) (u : State),
    s.awake = true ∧ mayTake s mb core 0x0105 = some x ∧ u = takeCmd x core s :=
  ⟨4, 0, cmdIn 0x0105 [3, 2], waits 0x0105 [3, 2] serving, takeCmd (cmdIn 0x0105 [3, 2]) 0 (waits 0x0105 [3, 2] serving), by decide +kernel⟩

theorem witness_power_commands_9 : ∃ (mb : Fin 1032) (core : Fin 4) (x : Cmd) (s : State) (u : State),
    mayTake s mb core 0x0106 = some x ∧ u = takeCmd x core s :=
  ⟨4, 0, cmdIn 0x0106 [], waits 0x0106 [] serving, takeCmd (cmdIn 0x0106 []) 0 (waits 0x0106 [] serving), by decide +kernel⟩

theorem witness_firmware_images_and_trials_0 : ∃ (mb : Fin 1032) (core : Fin 4) (x : Cmd) (s : State) (u : State),
    mayTake s mb core 0x0501 = some x ∧ u = takeCmd x core s :=
  ⟨4, 0, cmdIn 0x0501 [], waits 0x0501 [] serving, takeCmd (cmdIn 0x0501 []) 0 (waits 0x0501 [] serving), by decide +kernel⟩

theorem witness_firmware_images_and_trials_1 : ∃ (mb : Fin 1032) (core : Fin 4) (x : Cmd) (s : State),
    mayTake s mb core 0x0502 = some x :=
  ⟨4, 0, cmdIn 0x0502 [0, 1, 0, 0], waits 0x0502 [0, 1, 0, 0] serving, by decide +kernel⟩

theorem witness_firmware_images_and_trials_2 : ∃ (mb : Fin 1032) (core : Fin 4) (x : Cmd) (s : State),
    mayTake s mb core 0x0503 = some x ∧ (takeCmd x core s).fw.stage = 0 :=
  ⟨4, 0, cmdIn 0x0503 [], waits 0x0503 [] serving, by decide +kernel⟩

theorem witness_firmware_images_and_trials_3 : ∃ (mb : Fin 1032) (core : Fin 4) (x : Cmd) (s : State),
    mayTake s mb core 0x0503 = some x ∧ (takeCmd x core s).fw.stage ≠ 0 ∧ (takeCmd x core s).fw.size < leAt x.args 0 4 + leAt x.args 4 4 :=
  ⟨4, 0, cmdIn 0x0503 [0, 0, 0, 0, 9, 0, 0, 0], waits 0x0503 [0, 0, 0, 0, 9, 0, 0, 0] (serving.fwUpd fun f => { f with stage := 1, size := 8 }), by decide +kernel⟩

theorem witness_firmware_images_and_trials_4 : ∃ (mb : Fin 1032) (core : Fin 4) (x : Cmd) (s : State) (u : State),
    mayTake s mb core 0x0503 = some x ∧ u = takeCmd x core s ∧ u.fw.stage ≠ 0 ∧ leAt x.args 0 4 + leAt x.args 4 4 ≤ u.fw.size :=
  ⟨4, 0, cmdIn 0x0503 [0, 0, 0, 0, 8, 0, 0, 0], waits 0x0503 [0, 0, 0, 0, 8, 0, 0, 0] (serving.fwUpd fun f => { f with stage := 1, size := 8 }), takeCmd (cmdIn 0x0503 [0, 0, 0, 0, 8, 0, 0, 0]) 0 (waits 0x0503 [0, 0, 0, 0, 8, 0, 0, 0] (serving.fwUpd fun f => { f with stage := 1, size := 8 })), by decide +kernel⟩

theorem witness_firmware_images_and_trials_5 : ∃ (mb : Fin 1032) (core : Fin 4) (unread : Bool) (x : Cmd) (s : State) (u : State),
    mayTake s mb core 0x0504 = some x ∧ u = takeCmd x core s ∧ u.fw.stage ≠ 0 :=
  ⟨4, 0, true, cmdIn 0x0504 [], waits 0x0504 [] (serving.fwUpd fun f => { f with stage := 1, size := 8 }), takeCmd (cmdIn 0x0504 []) 0 (waits 0x0504 [] (serving.fwUpd fun f => { f with stage := 1, size := 8 })), by decide +kernel⟩

theorem witness_firmware_images_and_trials_6 : ∃ (mb : Fin 1032) (core : Fin 4) (unread : Bool) (x : Cmd) (s : State) (u : State),
    mayTake s mb core 0x0504 = some x ∧ u = takeCmd x core s ∧ u.fw.stage = 0 :=
  ⟨4, 0, true, cmdIn 0x0504 [], waits 0x0504 [] serving, takeCmd (cmdIn 0x0504 []) 0 (waits 0x0504 [] serving), by decide +kernel⟩

theorem witness_firmware_images_and_trials_7 : ∃ (mb : Fin 1032) (core : Fin 4) (x : Cmd) (s : State) (u : State),
    mayTake s mb core 0x0505 = some x ∧ u = takeCmd x core s ∧ fwBusy u = false ∧ u.fw.stage = 2 :=
  ⟨4, 0, cmdIn 0x0505 [], waits 0x0505 [] (serving.fwUpd fun f => { f with stage := 2 }), takeCmd (cmdIn 0x0505 []) 0 (waits 0x0505 [] (serving.fwUpd fun f => { f with stage := 2 })), by decide +kernel⟩

theorem witness_firmware_images_and_trials_8 : ∃ (mb : Fin 1032) (core : Fin 4) (x : Cmd) (s : State),
    mayTake s mb core 0x0505 = some x ∧ (takeCmd x core s).fw.stage ≠ 2 :=
  ⟨4, 0, cmdIn 0x0505 [], waits 0x0505 [] serving, by decide +kernel⟩

theorem witness_firmware_images_and_trials_9 : ∃ (mb : Fin 1032) (core : Fin 4) (x : Cmd) (s : State) (u : State),
    mayTake s mb core 0x0506 = some x ∧ u = takeCmd x core s ∧ fwBusy u = false ∧ inTrial u = true :=
  ⟨4, 0, cmdIn 0x0506 [], waits 0x0506 [] otherRelease, takeCmd (cmdIn 0x0506 []) 0 (waits 0x0506 [] otherRelease), by decide +kernel⟩

theorem witness_firmware_images_and_trials_10 : ∃ (mb : Fin 1032) (core : Fin 4) (x : Cmd) (s : State) (u : State),
    mayTake s mb core 0x0507 = some x ∧ u = takeCmd x core s ∧ fwBusy u = false ∧ u.fwCopy 2 ≠ 0 ∧ u.fwCopy 2 ≠ u.word Adr.DEV_FWREV :=
  ⟨4, 0, cmdIn 0x0507 [], waits 0x0507 [] otherRelease, takeCmd (cmdIn 0x0507 []) 0 (waits 0x0507 [] otherRelease), by decide +kernel⟩

theorem witness_firmware_images_and_trials_11 : ∃ (s : State),
    inTrial s = false :=
  ⟨serving, by decide +kernel⟩

theorem witness_firmware_images_and_trials_12 : ∃ (s : State),
    inTrial s = true ∧ s.fw.counted = false ∧ s.fw.trials < 2 :=
  ⟨otherRelease, by decide +kernel⟩

theorem witness_fuse_commands_and_smbus_0 : ∃ (mb : Fin 1032) (core : Fin 4) (x : Cmd) (s : State) (u : State),
    mayTake s mb core 0x0601 = some x ∧ u = takeCmd x core s :=
  ⟨4, 0, cmdIn 0x0601 [], waits 0x0601 [] serving, takeCmd (cmdIn 0x0601 []) 0 (waits 0x0601 [] serving), by decide +kernel⟩

theorem witness_fuse_commands_and_smbus_1 : ∃ (mb : Fin 1032) (core : Fin 4) (en : Bool) (vdd : Bool) (lapse : Bool) (bad : Bool) (got : BitVec 128) (x : Cmd) (s : State) (u : State),
    mayTake s mb core 0x0602 = some x ∧ u = ((takeCmd x core s).set Fld.DBG_FUSE_STAT_FUSE_EN en.toNat).set Fld.DBG_FUSE_STAT_VDD_OK vdd.toNat ∧ u.fuses.marks.contains (fuseField x.args) = true :=
  ⟨4, 0, true, true, false, false, 0, cmdIn 0x0602 fuseArgs, (waits 0x0602 fuseArgs maint).fuseUpd (fun f => { f with marks := [1] }), ((takeCmd (cmdIn 0x0602 fuseArgs) 0 ((waits 0x0602 fuseArgs maint).fuseUpd fun f => { f with marks := [1] })).set Fld.DBG_FUSE_STAT_FUSE_EN 1).set Fld.DBG_FUSE_STAT_VDD_OK 1, by decide +kernel⟩

theorem witness_fuse_commands_and_smbus_2 : ∃ (mb : Fin 1032) (core : Fin 4) (lapse : Bool) (bad : Bool) (got : BitVec 128) (x : Cmd) (s : State) (u : State),
    mayTake s mb core 0x0602 = some x ∧ u = ((takeCmd x core s).set Fld.DBG_FUSE_STAT_FUSE_EN 0).set Fld.DBG_FUSE_STAT_VDD_OK 1 ∧ u.fuses.marks.contains (fuseField x.args) = false ∧ leAt x.args 0 1 ≠ 2 ∧ fuseClears (fuseHeld u x.args) (sliceBytes x.args 8 (fuseSize (leAt x.args 0 1))) = false :=
  ⟨4, 0, false, false, 0, cmdIn 0x0602 fuseArgs, waits 0x0602 fuseArgs maint, ((takeCmd (cmdIn 0x0602 fuseArgs) 0 (waits 0x0602 fuseArgs maint)).set Fld.DBG_FUSE_STAT_FUSE_EN 0).set Fld.DBG_FUSE_STAT_VDD_OK 1, by decide +kernel⟩

theorem witness_fuse_commands_and_smbus_3 : ∃ (mb : Fin 1032) (core : Fin 4) (lapse : Bool) (bad : Bool) (got : BitVec 128) (x : Cmd) (s : State) (u : State),
    mayTake s mb core 0x0602 = some x ∧ u = ((takeCmd x core s).set Fld.DBG_FUSE_STAT_FUSE_EN 1).set Fld.DBG_FUSE_STAT_VDD_OK 1 ∧ u.fuses.marks.contains (fuseField x.args) = false ∧ leAt x.args 0 1 ≠ 2 ∧ fuseClears (fuseHeld u x.args) (sliceBytes x.args 8 (fuseSize (leAt x.args 0 1))) = false ∧ fuseReady u = true :=
  ⟨4, 0, false, false, 0, cmdIn 0x0602 fuseArgs, waits 0x0602 fuseArgs maint, ((takeCmd (cmdIn 0x0602 fuseArgs) 0 (waits 0x0602 fuseArgs maint)).set Fld.DBG_FUSE_STAT_FUSE_EN 1).set Fld.DBG_FUSE_STAT_VDD_OK 1, by decide +kernel⟩

theorem witness_fuse_commands_and_smbus_4 : ∃ (id : Nat) (got : BitVec 128) (x : Cmd) (s : State) (u : State) (v : State),
    s.cmdId id = some x ∧ fuseReady s = true ∧ u = s.set Fld.DBG_FUSE_STAT_BUSY 0 ∧ v = ((fuseWrite x.args (sliceBytes x.args 8 (fuseSize (leAt x.args 0 1))) u).fuseUpd (fun f => { f with marks := f.marks ++ [fuseField x.args] })).set Fld.DBG_FUSE_STAT_RESULT 1 :=
  ⟨0, 0, cmdIn 0x0602 fuseArgs, waits 0x0602 fuseArgs maint, (waits 0x0602 fuseArgs maint).set Fld.DBG_FUSE_STAT_BUSY 0, ((fuseWrite fuseArgs (sliceBytes fuseArgs 8 (fuseSize (leAt fuseArgs 0 1))) ((waits 0x0602 fuseArgs maint).set Fld.DBG_FUSE_STAT_BUSY 0)).fuseUpd (fun f => { f with marks := f.marks ++ [fuseField fuseArgs] })).set Fld.DBG_FUSE_STAT_RESULT 1, by decide +kernel⟩

theorem witness_fuse_commands_and_smbus_5 : ∃ (id : Nat) (bad : Bool) (got : BitVec 128) (x : Cmd) (s : State),
    s.cmdId id = some x :=
  ⟨0, true, 3, cmdIn 0x0602 fuseArgs, waits 0x0602 fuseArgs maint, by decide +kernel⟩

theorem witness_fuse_commands_and_smbus_6 : ∃ (dev : BitVec 7) (off : Fin 4096) (len : Fin 256) (s : State),
    dev.toNat = smbAddr s ∧ SmbOpen s :=
  ⟨0x58, 32, 4, smbUp, by decide +kernel⟩

theorem witness_fuse_commands_and_smbus_7 : ∃ (dev : BitVec 7) (s : State),
    dev.toNat = smbAddr s ∧ SmbOpen s :=
  ⟨0x58, smbUp, by decide +kernel⟩

theorem witness_fuse_commands_and_smbus_8 : ∃ (dev : BitVec 7) (a : BitVec 32) (v : Word) (s : State) (u : State),
    dev.toNat = smbAddr s ∧ SmbOpen s ∧ busRead .bc (a.toNat - a.toNat % 4) s = (u, .ok v) :=
  ⟨0x58, 0x100002, smbUp.word 0x100000, smbUp, (busRead .bc 0x100000 smbUp).1, by decide +kernel⟩

theorem witness_fuse_commands_and_smbus_9 : ∃ (dev : BitVec 7) (pec : Bool) (a : BitVec 32) (v : BitVec 32) (r : Word) (s : State) (u : State),
    dev.toNat = smbAddr s ∧ SmbOpen s ∧ (s.isSet Fld.MBX_SMB_CFG_PEC_REQ = false ∨ pec = true) ∧ busWrite .bc (a.toNat - a.toNat % 4) v.toNat s = (u, .ok r) :=
  ⟨0x58, false, 0x100002, 5, 0, smbUp, (busWrite .bc 0x100000 5 smbUp).1, by decide +kernel⟩

theorem witness_fuse_commands_and_smbus_10 : ∃ (dev : BitVec 7) (a : BitVec 32) (v : BitVec 32) (s : State),
    dev.toNat = smbAddr s ∧ SmbOpen s ∧ s.isSet Fld.MBX_SMB_CFG_PEC_REQ = true :=
  ⟨0x58, 0x100002, 5, smbUp.set Fld.MBX_SMB_CFG_PEC_REQ 1, by decide +kernel⟩

theorem witness_fuse_commands_and_smbus_11 : ∃ (dev : BitVec 7) (off : Fin 4096) (data : List (BitVec 8)) (s : State),
    dev.toNat = smbAddr s ∧ SmbOpen s ∧ s.isSet Fld.MBX_SMB_CFG_PEC_REQ = true :=
  ⟨0x58, 0, [1, 2, 3, 4], smbUp.set Fld.MBX_SMB_CFG_PEC_REQ 1, by decide +kernel⟩

theorem witness_fuse_commands_and_smbus_12 : ∃ (dev : BitVec 7) (pec : Bool) (off : Fin 4096) (data : List (BitVec 8)) (s : State) (u : State),
    dev.toNat = smbAddr s ∧ SmbOpen s ∧ (s.isSet Fld.MBX_SMB_CFG_PEC_REQ = false ∨ pec = true) ∧ smbFill 4 ((List.range (data.length / 4)).map fun i => (off.val + 4 * i, leAt data (4 * i) 4)) false s = (u, false) :=
  ⟨0x58, true, 32, [1, 2, 3, 4], smbUp, (smbFill 4 [(32, 0x04030201)] false smbUp).1, by decide +kernel⟩

theorem witness_fuse_commands_and_smbus_13 : ∃ (dev : BitVec 7) (off : Fin 4096) (len : Fin 256) (s : State),
    (s.mode = .preserve ∨ dev.toNat ≠ smbAddr s ∨ s.dev.relTicks < 2000) :=
  ⟨0x58, 32, 4, serving, by decide +kernel⟩

theorem witness_fuse_commands_and_smbus_14 : ∃ (dev : BitVec 7) (a : BitVec 32) (pec : Bool) (v : BitVec 32) (s : State),
    (s.mode = .preserve ∨ dev.toNat ≠ smbAddr s ∨ s.dev.relTicks < 2000) :=
  ⟨0, 0, false, 0, serving, by decide +kernel⟩

theorem witness_fuse_commands_and_smbus_15 : ∃ (dev : BitVec 7) (s : State),
    dev.toNat = smbAddr s ∧ 2000 ≤ s.dev.relTicks ∧ s.dev.sysRst = false ∧ s.mode ≠ .preserve ∧ s.pwr.smbHeld = none ∧ s.restGated = true :=
  ⟨0x58, smbUp.set Fld.CRP_SLEEP_STATE 4, by decide +kernel⟩

theorem witness_fuse_commands_and_smbus_16 : ∃ (r : SmbReq) (s : State),
    s.pwr.smbHeld = some r ∧ s.restGated = false :=
  ⟨.attn, smbUp.pwrUpd fun p => { p with smbHeld := some .attn }, by decide +kernel⟩

theorem witness_sleep_states_and_waking_0 : ∃ (s : State),
    s.sleepState = 1 :=
  ⟨serving.set Fld.CRP_SLEEP_STATE 1, by decide +kernel⟩

theorem witness_sleep_states_and_waking_1 : ∃ (s : State),
    s.sleepState ≠ 1 :=
  ⟨serving, by decide +kernel⟩

theorem witness_sleep_states_and_waking_2 : ∃ (s : State),
    s.sleepState = 5 ∧ s.pwr.leaving = 1 :=
  ⟨(serving.set Fld.CRP_SLEEP_STATE 5).pwrUpd fun p => { p with leaving := 1 }, by decide +kernel⟩

theorem witness_sleep_states_and_waking_3 : ∃ (s : State),
    s.isSet Fld.CRP_LEVEL_IDLE_SLEEP = true ∧ s.awake = true ∧ maySleep s = true ∧ noDescs s = true ∧ 2000 ≤ s.since s.pwr.busyAt ∧ ([0, 1, 2, 3].any (coreRuns s)) = true :=
  ⟨{ serving.set Fld.CRP_LEVEL_IDLE_SLEEP 1 with now := 2000 }, by decide +kernel⟩

theorem witness_sleep_states_and_waking_4 : ∃ (s : State),
    s.isSet Fld.CRP_LEVEL_IDLE_SLEEP = false :=
  ⟨serving, by decide +kernel⟩

theorem witness_sleep_states_and_waking_5 : ∃ (l1 : Bool) (s : State),
    s.sleepState = 3 ∧ s.pwr.begun = false ∧ s.linkUp = false :=
  ⟨true, ((serving.set Fld.CRP_SLEEP_STATE 3).set Fld.HL_LINK_STATUS_DL_UP 0).set Fld.HL_LINK_STATUS_LSTATE 0, by decide +kernel⟩

theorem witness_sleep_states_and_waking_6 : ∃ (s : State),
    s.sleepState = 3 ∧ s.pwr.begun = true :=
  ⟨(serving.set Fld.CRP_SLEEP_STATE 3).pwrUpd fun p => { p with begun := true }, by decide +kernel⟩

theorem witness_sleep_states_and_waking_7 : ∃ (n : Nat) (entry : Bool) (s : State),
    s.pwr.wake = some (n, entry) ∧ s.sleepState = 4 ∧ n < 288 :=
  ⟨12, false, (serving.set Fld.CRP_SLEEP_STATE 4).pwrUpd fun p => { p with wake := some (12, false) }, by decide +kernel⟩

theorem witness_sleep_states_and_waking_8 : ∃ (n : Nat) (entry : Bool) (s : State),
    s.pwr.wake = some (n, entry) ∧ s.sleepState = 2 ∧ n < 288 :=
  ⟨12, false, (serving.set Fld.CRP_SLEEP_STATE 2).pwrUpd fun p => { p with wake := some (12, false) }, by decide +kernel⟩

theorem witness_sleep_states_and_waking_9 : ∃ (s : State),
    s.pwr.wake = none :=
  ⟨serving, by decide +kernel⟩

theorem witness_sleep_states_and_waking_10 : ∃ (s : State),
    s.sleepState = 5 ∧ s.pwr.leaving = 2 ∧ s.linkUp = false ∧ ([0, 1, 2, 3].all fun p => s.lbState p != 6) = true :=
  ⟨((serving.set Fld.CRP_SLEEP_STATE 5).set Fld.HL_LINK_STATUS_DL_UP 0).pwrUpd fun p => { p with leaving := 2 }, by decide +kernel⟩

theorem witness_core_faults_restarts_and_stops_0 : ∃ (core : Fin 4) (s : State),
    s.coreFenced core = false ∧ s.isSet Fld.DEV_FAULT_STATUS_RESTARTING = false ∧ s.inRest = false :=
  ⟨3, serving, by decide +kernel⟩

theorem witness_core_faults_restarts_and_stops_1 : ∃ (core : Fin 4) (s : State),
    s.coreFenced core = true :=
  ⟨3, serving.set (Fld.IC_CORE_STATUS_FENCED 3) 1, by decide +kernel⟩

theorem witness_core_faults_restarts_and_stops_2 : ∃ (core : Fin 4) (just : Option (Fin 1032)) (s : State),
    s.flt.fenceDue.contains (core.val, 1) = false :=
  ⟨3, none, serving, by decide +kernel⟩

theorem witness_core_faults_restarts_and_stops_3 : ∃ (core : Fin 4) (s : State),
    s.coreFenced core = false ∧ unfenced s ≠ [core.val] ∧ s.flt.fenceDue = [] :=
  ⟨3, serving, by decide +kernel⟩

theorem witness_core_faults_restarts_and_stops_4 : ∃ (reason : Fin 6) (s : State),
    s.flt.stopRuns = false :=
  ⟨0, serving, by decide +kernel⟩

theorem witness_core_faults_restarts_and_stops_5 : ∃ (reason : Fin 6) (s : State),
    s.flt.stopRuns = true :=
  ⟨2, serving.fltUpd fun f => { f with stopRuns := true }, by decide +kernel⟩

theorem witness_core_faults_restarts_and_stops_6 : ∃ (just : List (Fin 1032)) (s : State),
    s.flt.restartDue = none ∧ s.isSet Fld.DEV_FAULT_STATUS_RESTARTING = false ∧ s.mode ≠ .preserve ∧ 3 ≤ (recentRestarts s).length ∧ s.flt.stopRuns = false :=
  ⟨[], serving.fltUpd fun f => { f with restarts := [0, 0, 0] }, by decide +kernel⟩

theorem witness_core_faults_restarts_and_stops_7 : ∃ (just : List (Fin 1032)) (s : State),
    s.flt.restartDue = none :=
  ⟨[], serving, by decide +kernel⟩

theorem witness_core_faults_restarts_and_stops_8 : ∃ (s : State),
    s.flt.restartDue = none ∧ s.isSet Fld.DEV_FAULT_STATUS_RESTARTING = false ∧ s.mode ≠ .preserve ∧ (recentRestarts s).length < 3 :=
  ⟨serving, by decide +kernel⟩

theorem witness_core_faults_restarts_and_stops_9 : ∃ (rejected : Fin 4) (k : Nat) (bad : List Nat) (s : State),
    s.restarting = true ∧ restartCopy rejected s = some (k, bad) ∧ k < 4 :=
  ⟨0, 0, [], restarted [], by decide +kernel⟩

theorem witness_core_faults_restarts_and_stops_10 : ∃ (rejected : Fin 4) (s : State),
    s.restarting = true ∧ restartCopy rejected s = none :=
  ⟨0, restarted [0, 1, 2, 3], by decide +kernel⟩

theorem witness_core_faults_restarts_and_stops_11 : ∃ (rejected : Fin 4) (s : State),
    s.isSet Fld.DEV_FAULT_STATUS_RESTARTING = false :=
  ⟨2, serving, by decide +kernel⟩

theorem witness_core_faults_restarts_and_stops_12 : ∃ (s : State),
    s.inRest = false :=
  ⟨serving, by decide +kernel⟩

theorem witness_core_faults_restarts_and_stops_13 : ∃ (a : BitVec 32) (s : State),
    s.isSet Fld.DEV_FAULT_STATUS_RESTARTING = false ∧ s.flt.restartDue = none :=
  ⟨5, serving, by decide +kernel⟩

theorem witness_register_accesses_0 : ∃ (c : Fin 4) (a : BitVec 32) (be : BitVec 8) (v : Word) (s : State) (u : State),
    be.toNat % 16 = 15 ∧ busRead (.core c) (a.toNat - a.toNat % 4) s = (u, .ok v) :=
  ⟨0, 0x140002, 15, serving.word 0x140000, serving, (busRead (.core 0) 0x140000 serving).1, by decide +kernel⟩

theorem witness_register_accesses_1 : ∃ (c : Fin 4) (a : BitVec 32) (be : BitVec 8) (v : Word) (s : State) (u : State),
    be.toNat % 16 ≠ 15 ∧ busRead (.core c) (a.toNat - a.toNat % 4) s = (u, .ok v) :=
  ⟨0, 0x140002, 3, serving.word 0x140000, serving, (busRead (.core 0) 0x140000 serving).1, by decide +kernel⟩

theorem witness_register_accesses_2 : ∃ (c : Fin 1024) (a : BitVec 32) (be : BitVec 8) (v : Word) (s : State) (u : State),
    HostTurn s c ∧ ((hostNoted s).fn c).enabled = true ∧ heldAddr (a.toNat - a.toNat % 4) = false ∧ hostPasses (hostNoted s) c (a.toNat - a.toNat % 4) false = true ∧ busRead (.host c) (a.toNat - a.toNat % 4) (hostNoted s) = (u, .ok v) :=
  ⟨0, 0x140000, 15, (hostNoted opened).word 0x140000, opened, (busRead (.host 0) 0x140000 (hostNoted opened)).1, by decide +kernel⟩

theorem witness_register_accesses_3 : ∃ (c : Fin 1024) (a : BitVec 32) (be : BitVec 8) (s : State),
    HostOpen s ∧ ((hostNoted s).fn c).enabled = true ∧ heldAddr (a.toNat - a.toNat % 4) = false ∧ hostPasses (hostNoted s) c (a.toNat - a.toNat % 4) false = true ∧ writesAhead s c s.cad.nextId = true :=
  ⟨1, 0x1000, 15, writing 1, by decide +kernel⟩

theorem witness_register_accesses_4 : ∃ (a : BitVec 32) (be : BitVec 8) (e : Nat) (s : State),
    HostOpen s ∧ ((hostNoted s).fn 0).enabled = true ∧ 0x100000 ≤ a.toNat - a.toNat % 4 ∧ a.toNat - a.toNat % 4 < 0x4000000 ∧ mapCause (hostNoted s) (.host 0) (a.toNat - a.toNat % 4) false = some e :=
  ⟨0x100000, 15, 5, opened.setWord (Adr.ACC_REGION_LO 1) 0x00000100 |>.setWord (Adr.ACC_REGION_HI 1) 0x80000001, by decide +kernel⟩

theorem witness_register_accesses_5 : ∃ (c : Fin 1024) (a : BitVec 32) (be : BitVec 8) (s : State),
    HostOpen s ∧ ((hostNoted s).fn c).enabled = true ∧ a.toNat - a.toNat % 4 = 0x104 :=
  ⟨1, 0x104, 15, writing 1, by decide +kernel⟩

theorem witness_register_accesses_6 : ∃ (c : Fin 1024) (a : BitVec 32) (be : BitVec 8) (x : Nat) (s : State),
    HostOpen s ∧ ((hostNoted s).fn c).enabled = true ∧ a.toNat - a.toNat % 4 = 0x100 ∧ ((hostNoted s).ctx c).apt = some x :=
  ⟨1, 0x100, 15, 1, attached.fnUpd 1 fun f => { f with enabled := true }, by decide +kernel⟩

theorem witness_register_accesses_7 : ∃ (c : Fin 1024) (a : BitVec 32) (be : BitVec 8) (wide : Bool) (s : State),
    HostOpen s ∧ ((hostNoted s).fn c).enabled = false ∧ hostBehind s c = false :=
  ⟨5, 0x1000, 15, false, opened, by decide +kernel⟩

theorem witness_register_accesses_8 : ∃ (c : Fin 1024) (a : BitVec 32) (be : BitVec 8) (v : BitVec 64) (met : BitVec 64) (s : State),
    HostOpen s ∧ s.ds.full = false ∧ ((hostNoted s).fn c).enabled = true ∧ be.toNat % 16 = 15 ∧ hostPasses (hostNoted s) c (a.toNat - a.toNat % 4) true = true ∧ writesAhead s c s.cad.nextId = true :=
  ⟨1, 0x1000, 15, 0, 0, writing 1, by decide +kernel⟩

theorem witness_register_accesses_9 : ∃ (c : Fin 1024) (a : BitVec 32) (be : BitVec 8) (v : BitVec 64) (met : BitVec 64) (s : State),
    HostTurn s c ∧ s.ds.full = false ∧ ((hostNoted s).fn c).enabled = true ∧ be.toNat % 16 ≠ 15 :=
  ⟨0, 0x140000, 7, 5, 0, serving, by decide +kernel⟩

theorem witness_register_accesses_10 : ∃ (c : Fin 4) (a : BitVec 32) (be : BitVec 8) (e : Nat) (s : State),
    mapCause s (.core c) (a.toNat - a.toNat % 4) false = some e :=
  ⟨0, 0x00040000, 15, 5, (serving.setWord (Adr.ACC_REGION_LO 1) 0x40000040).setWord (Adr.ACC_REGION_HI 1) 0x80000000, by decide +kernel⟩

theorem witness_register_accesses_11 : ∃ (c : Fin 4) (a : BitVec 32) (be : BitVec 8) (v : BitVec 64) (met : BitVec 64) (s : State),
    be.toNat % 16 = 15 :=
  ⟨0, 0x140002, 15, 5, 0, serving, by decide +kernel⟩

theorem witness_register_accesses_12 : ∃ (c : Fin 4) (a : BitVec 32) (be : BitVec 8) (v : BitVec 64) (met : BitVec 64) (s : State),
    be.toNat % 16 ≠ 15 :=
  ⟨0, 0x140000, 7, 5, 0, serving, by decide +kernel⟩

theorem witness_register_accesses_14 : ∃ (c : Fin 4) (a : BitVec 32) (s : State),
    inBlocks (a.toNat - a.toNat % 4) = true ∧ mapCause s (.core c) (a.toNat - a.toNat % 4) false = none :=
  ⟨0, 0x140000, serving, by decide +kernel⟩

theorem witness_register_accesses_15 : ∃ (c : Fin 4) (a : BitVec 32) (s : State),
    inBlocks (a.toNat - a.toNat % 4) = true ∧ mapCause s (.core c) (a.toNat - a.toNat % 4) true = none :=
  ⟨0, 0x140000, serving, by decide +kernel⟩

theorem witness_register_accesses_16 : ∃ (c : Fin 4) (a : BitVec 32) (write : Bool) (s : State),
    inBlocks (a.toNat - a.toNat % 4) = false :=
  ⟨0, 0x00040000, true, serving, by decide +kernel⟩

theorem witness_photo_finish_and_tap_1 : ∃ (s : State),
    s.isSet Fld.PFS_CTL_PEL = false ∧ s.isSet Fld.PFS_STAT_VALID = false ∧ s.pfs.pel = none ∧ s.pfs.due = none :=
  ⟨serving, by decide +kernel⟩

theorem witness_photo_finish_and_tap_2 : ∃ (s : State),
    s.isSet Fld.PFS_CTL_PEL = false ∧ s.isSet Fld.PFS_STAT_VALID = true :=
  ⟨serving.set Fld.PFS_STAT_VALID 1, by decide +kernel⟩

theorem witness_photo_finish_and_tap_3 : ∃ (s : State),
    (raise 6 s).isSet Fld.PFS_CTL_PIN_EN = false :=
  ⟨serving.set Fld.PFS_CTL_PIN_EN 0, by decide +kernel⟩

theorem witness_photo_finish_and_tap_4 : ∃ (s : State),
    (raise 6 s).isSet Fld.PFS_CTL_PIN_EN = true :=
  ⟨serving.set Fld.PFS_CTL_PIN_EN 1, by decide +kernel⟩

theorem witness_photo_finish_and_tap_5 : ∃ (s : State),
    s.inRest = false ∧ s.isSet Fld.PFS_CTL_PIN_EN = true ∧ s.isSet Fld.PFS_CTL_PEL = false ∧ s.isSet Fld.PFS_STAT_VALID = false ∧ s.pfs.pel = none ∧ s.pfs.due = none :=
  ⟨serving.set Fld.PFS_CTL_PIN_EN 1, by decide +kernel⟩

theorem witness_photo_finish_and_tap_6 : ∃ (s : State),
    pfsDueNow s = none :=
  ⟨serving, by decide +kernel⟩

theorem witness_photo_finish_and_tap_7 : ∃ (v : Stroke) (src : Nat) (s : State),
    pfsDueNow s = some (v, src) :=
  ⟨1, 1, { serving with pfs := { serving.pfs with due := some (1, 1) } }, by decide +kernel⟩

theorem witness_photo_finish_and_tap_8 : ∃ (v : Stroke) (src : Nat) (s : State),
    src < 16 :=
  ⟨1, 1, { serving with pfs := { serving.pfs with due := some (1, 1) } }, by decide +kernel⟩

theorem witness_photo_finish_and_tap_13 : ∃ (sampled : BitVec 2157) (cells : BitVec 2157) (s : State),
    scanTime s = true ∧ bitOf (s.word Adr.DBG_POLICY).toNat 1 = false :=
  ⟨5, 6, State.reset, by decide +kernel⟩

theorem witness_photo_finish_and_tap_14 : ∃ (s : State),
    scanTime s = true ∧ bitOf (s.word Adr.DBG_POLICY).toNat 1 = false :=
  ⟨State.reset, by decide +kernel⟩

theorem witness_photo_finish_and_tap_15 : ∃ (s : State),
    scanTime s = true ∧ bitOf (s.word Adr.DBG_POLICY).toNat 1 = false :=
  ⟨State.reset, by decide +kernel⟩

theorem witness_photo_finish_and_tap_16 : ∃ (sampled : BitVec 2157) (cells : BitVec 2157) (s : State),
    scanTime s = true ∧ bitOf (s.word Adr.DBG_POLICY).toNat 1 = true :=
  ⟨5, 6, State.reset.setWord Adr.DBG_POLICY 2, by decide +kernel⟩

theorem witness_photo_finish_and_tap_17 : ∃ (s : State),
    scanTime s = false ∧ s.inRest = false :=
  ⟨serving, by decide +kernel⟩

theorem witness_photo_finish_and_tap_19 : ∃ (s : State),
    bitOf (s.word Adr.DBG_POLICY).toNat 0 = true :=
  ⟨serving.setWord Adr.DBG_POLICY 1, by decide +kernel⟩

theorem witness_photo_finish_and_tap_20 : ∃ (s : State),
    bitOf (s.word Adr.DBG_POLICY).toNat 0 = false :=
  ⟨serving, by decide +kernel⟩

theorem witness_photo_finish_and_tap_21 : ∃ (a : BitVec 32) (write : Bool) (data : BitVec 32) (s : State),
    (s.tap.instr ≠ 0x10 ∨ dapOff s = true) :=
  ⟨0x100000, false, 0, serving, by decide +kernel⟩

theorem witness_photo_finish_and_tap_22 : ∃ (a : BitVec 32) (data : BitVec 32) (r : BusAns) (s : State) (u : State),
    s.tap.instr = 0x10 ∧ dapOff s = false ∧ s.tap.opened = false ∧ busRead .debug (a.toNat - a.toNat % 4) (raise 7 ((s.set Fld.DBG_STATUS_SESSION 1).tapUpd fun t => { t with opened := true })) = (u, r) :=
  ⟨0x100002, 0, (busRead .debug 0x100000 (raise 7 (((serving.tapUpd fun t => { t with instr := 0x10 }).set Fld.DBG_STATUS_SESSION 1).tapUpd fun t => { t with opened := true }))).2, (serving.tapUpd fun t => { t with instr := 0x10 }), (busRead .debug 0x100000 (raise 7 (((serving.tapUpd fun t => { t with instr := 0x10 }).set Fld.DBG_STATUS_SESSION 1).tapUpd fun t => { t with opened := true }))).1, by decide +kernel⟩

theorem witness_photo_finish_and_tap_23 : ∃ (a : BitVec 32) (data : BitVec 32) (r : BusAns) (s : State) (u : State),
    s.tap.instr = 0x10 ∧ dapOff s = false ∧ s.tap.opened = true ∧ busRead .debug (a.toNat - a.toNat % 4) (s.set Fld.DBG_STATUS_SESSION 1) = (u, r) :=
  ⟨0x100002, 0, (busRead .debug 0x100000 ((serving.tapUpd fun t => { t with instr := 0x10, opened := true }).set Fld.DBG_STATUS_SESSION 1)).2, (serving.tapUpd fun t => { t with instr := 0x10, opened := true }), (busRead .debug 0x100000 ((serving.tapUpd fun t => { t with instr := 0x10, opened := true }).set Fld.DBG_STATUS_SESSION 1)).1, by decide +kernel⟩

theorem witness_supplies_links_and_transmitter_0 : ∃ (s : State),
    s.dev.supplies = true :=
  ⟨serving, by decide +kernel⟩

theorem witness_supplies_links_and_transmitter_1 : ∃ (s : State),
    s.dev.supplies = false :=
  ⟨serving.devUpd fun d => { d with supplies := false }, by decide +kernel⟩

theorem witness_supplies_links_and_transmitter_2 : ∃ (s : State),
    s.dev.ksReady = true :=
  ⟨serving.devUpd fun d => { d with ksReady := true }, by decide +kernel⟩

theorem witness_supplies_links_and_transmitter_3 : ∃ (ch : Fin 2) (s : State),
    s.inRest = false :=
  ⟨1, serving, by decide +kernel⟩

theorem witness_supplies_links_and_transmitter_4 : ∃ (s : State),
    s.get Fld.HL_LINK_STATUS_LSTATE = 3 :=
  ⟨serving.set Fld.HL_LINK_STATUS_LSTATE 3, by decide +kernel⟩

theorem witness_supplies_links_and_transmitter_5 : ∃ (s : State),
    s.get Fld.HL_LINK_STATUS_LSTATE ≠ 3 :=
  ⟨serving, by decide +kernel⟩

theorem witness_supplies_links_and_transmitter_6 : ∃ (width : Fin 17) (s : State),
    s.isSet Fld.HL_LINK_STATUS_FLIT = true ∧ s.get Fld.HL_LINK_STATUS_LSTATE = 1 ∧ width.val ∈ linkWidths ∧ width.val ≤ s.get Fld.HL_LINK_STATUS_TRAINED_WIDTH ∧ widthHoldsC0 s width = false :=
  ⟨4, ((serving.set Fld.HL_LINK_STATUS_FLIT 1).set Fld.HL_LINK_STATUS_TRAINED_WIDTH 16).set Fld.CAD_RSV_DN_C0 0xFFF, by decide +kernel⟩

theorem witness_supplies_links_and_transmitter_7 : ∃ (width : Fin 17) (s : State),
    s.isSet Fld.HL_LINK_STATUS_FLIT = true ∧ s.get Fld.HL_LINK_STATUS_LSTATE = 1 ∧ width.val ∈ linkWidths ∧ width.val ≤ s.get Fld.HL_LINK_STATUS_TRAINED_WIDTH ∧ widthHoldsC0 s width = true :=
  ⟨4, (serving.set Fld.HL_LINK_STATUS_FLIT 1).set Fld.HL_LINK_STATUS_TRAINED_WIDTH 16, by decide +kernel⟩

theorem witness_supplies_links_and_transmitter_17 : ∃ (s : State),
    s.hl.fec < 1024 :=
  ⟨serving, by decide +kernel⟩

theorem witness_supplies_links_and_transmitter_18 : ∃ (k : Fin 4) (epoch : BitVec 8) (lanes : Fin 10) (flags : BitVec 8) (m : Nat) (s : State),
    (s.link k).newMap = some (epoch.toNat, m) ∧ 6 ≤ lanes.val :=
  ⟨2, 3, 6, 0, 0x76543218, linked.linkUpd 2 fun l => { l with newMap := some (3, 0x76543218), lostSync := true }, by decide +kernel⟩

theorem witness_supplies_links_and_transmitter_19 : ∃ (k : Fin 4) (epoch : BitVec 8) (lanes : Fin 10) (flags : BitVec 8) (s : State),
    (s.link k).newMap = none ∧ s.get (Fld.UL_STATUS_LPM k) = 0 :=
  ⟨2, 3, 6, 0, linked, by decide +kernel⟩

theorem witness_supplies_links_and_transmitter_20 : ∃ (k : Fin 4) (epoch : BitVec 8) (lanes : Fin 10) (flags : BitVec 8) (s : State),
    (s.get (Fld.UL_STATUS_LPM k) = 1 ∧ flags.getLsbD 1 = false ∨ s.get (Fld.UL_STATUS_LPM k) = 2 ∧ flags.getLsbD 2 = true) :=
  ⟨2, 3, 6, 4, linked.set (Fld.UL_STATUS_LPM 2) 2, by decide +kernel⟩

theorem witness_supplies_links_and_transmitter_21 : ∃ (k : Fin 4) (s : State),
    inParam s k = true ∧ ((s.link k).initAt = none ∨ ∃ t0, (s.link k).initAt = some t0 ∧ 4 ≤ s.since t0) :=
  ⟨2, serving.set (Fld.UL_STATUS_STATE 2) 2, by decide +kernel⟩

theorem witness_supplies_links_and_transmitter_22 : ∃ (k : Fin 4) (t0 : Stroke) (s : State),
    (s.link k).initAt = some t0 ∧ s.since t0 < 4 :=
  ⟨2, 3, { serving with now := 5 }.linkUpd 2 fun l => { l with initAt := some 3 }, by decide +kernel⟩

theorem witness_supplies_links_and_transmitter_23 : ∃ (k : Fin 4) (s : State),
    inParam s k = false :=
  ⟨2, linked, by decide +kernel⟩

theorem witness_supplies_links_and_transmitter_24 : ∃ (k : Fin 4) (c : UCell) (qs : List Nat) (s : State),
    ulCarries s k = true ∧ s.get (Fld.UL_STATUS_LPM k) = 0 ∧ (s.link k).replay = c.seq :: qs ∧ ((s.link k).held.find? fun x => x.seq == c.seq) = some c :=
  ⟨2, cellFive, [], (near.linkUpd 2 fun l => { l with held := [cellFive], replay := [5] }), by decide +kernel⟩

theorem witness_supplies_links_and_transmitter_25 : ∃ (k : Fin 4) (s : State),
    ulCarries s k = false :=
  ⟨2, serving, by decide +kernel⟩

theorem witness_boot_steps_keep_fuses_and_media_0 : ∃ (straps : BitVec 8) (s : State),
    s.dev.sysRst = true ∧ s.dev.rstAtHalt = false :=
  ⟨0x81, State.reset, by decide +kernel⟩

theorem witness_boot_steps_keep_fuses_and_media_1 : ∃ (s : State),
    s.dev.rom = true ∧ s.dev.counting = false :=
  ⟨State.reset.devUpd fun d => { d with rom := true }, by decide +kernel⟩

theorem witness_boot_steps_keep_fuses_and_media_2 : ∃ (unread : BitVec 4) (mute : BitVec 4) (s : State),
    trying s = true ∧ firstGood unread mute s ≠ none :=
  ⟨1, 0, tries, by decide +kernel⟩

theorem witness_boot_steps_keep_fuses_and_media_3 : ∃ (unread : BitVec 4) (mute : BitVec 4) (s : State),
    trying s = true ∧ firstGood unread mute s = none :=
  ⟨0xF, 0, tries, by decide +kernel⟩

theorem witness_configuration_writes_keep_their_frame_0 : ∃ (c : Fin 1024) (dw : Fin 1024) (s : State),
    HostTurn s c ∧ cfgOpen s c = true :=
  ⟨1, 0, opened, by decide +kernel⟩

theorem witness_configuration_writes_keep_their_frame_1 : ∃ (n : BitVec 16) (ari : Bool) (s : State),
    HostTurn s 0 ∧ (s.fn 0).ready = true ∧ s.hl.vfEnable = false ∧ s.mode ≠ .maintenance ∧ 1 ≤ n.toNat ∧ n.toNat ≤ (if ari then 1023 else 7) ∧ vfsLeft s = false :=
  ⟨7, false, opened, by decide +kernel⟩

theorem witness_configuration_writes_keep_their_frame_2 : ∃ (s : State),
    s.hl.vfWaitFrs = true :=
  ⟨opened.hlUpd fun h => { h with vfWaitFrs := true }, by decide +kernel⟩

theorem witness_configuration_writes_keep_their_frame_3 : ∃ (s : State),
    HostTurn s 0 ∧ (s.fn 0).ready = true ∧ s.hl.vfEnable = true :=
  ⟨opened.hlUpd fun h => { h with vfEnable := true, numVfs := 3 }, by decide +kernel⟩

theorem witness_configuration_writes_keep_their_frame_4 : ∃ (c : Fin 1024) (on : Bool) (s : State),
    HostTurn s c ∧ cfgOpen s c = true :=
  ⟨0, true, opened, by decide +kernel⟩

theorem witness_configuration_writes_keep_their_frame_5 : ∃ (c : Fin 1024) (pme : Bool) (clr : Bool) (s : State),
    HostTurn s c ∧ cfgOpen s c = true ∧ (s.fn c).d3 = false :=
  ⟨1, true, false, opened, by decide +kernel⟩

theorem witness_configuration_writes_keep_their_frame_6 : ∃ (c : Fin 1024) (pme : Bool) (clr : Bool) (s : State),
    HostTurn s c ∧ cfgOpen s c = true ∧ (s.fn c).d3 = true :=
  ⟨1, true, false, opened.fnUpd 1 fun f => { f with d3 := true }, by decide +kernel⟩

theorem witness_configuration_writes_keep_their_frame_7 : ∃ (c : Fin 1024) (s : State),
    (s.fn c).d0due = true :=
  ⟨1, opened.fnUpd 1 fun f => { f with d0due := true }, by decide +kernel⟩

theorem witness_beats_and_lines_of_the_ports_3 : ∃ (p : Fin 4) (s : State),
    s.lbState p = 0 ∧ s.isSet (Fld.LB_CTL_EN p) = true ∧ 2 ≤ s.since (s.lb p).since ∧ (s.mode = .standby ∨ s.mode = .serving ∨ s.mode = .draining) :=
  ⟨3, { (active.set (Fld.LB_STATUS_STATE 3) 0).set (Fld.LB_CTL_EN 3) 1 with now := 2 }, by decide +kernel⟩

theorem witness_beats_and_lines_of_the_ports_4 : ∃ (p : Fin 4) (delays : List (BitVec 7)) (s : State),
    s.lbState p = 1 :=
  ⟨0, [], active.set (Fld.LB_STATUS_STATE 0) 1, by decide +kernel⟩

theorem witness_beats_and_lines_of_the_ports_5 : ∃ (p : Fin 4) (s : State),
    s.lbState p = 2 ∧ (s.lb p).initRcvd = false :=
  ⟨0, active.set (Fld.LB_STATUS_STATE 0) 2, by decide +kernel⟩

theorem witness_flush_and_reclaim_keep_the_reserve_0 : ∃ (members : List NandBlock) (units : List (Fin 2048 × BitVec 32)) (s t : State),
    s.mode ≠ .preserve ∧ tabWf (fun _ => 0) s.med.fill = true ∧ exec (.stripeWrite members units) s = .next t ∧ t.med.stripes ≠ s.med.stripes :=
  ⟨sixteen 2, [(1, 0)], roomy.dsUpd fun d => { d with dirty := [(1, 0)], recovered := true },
    left (exec (.stripeWrite (sixteen 2) [(1, 0)]) (roomy.dsUpd fun d => { d with dirty := [(1, 0)], recovered := true })),
    by decide +kernel, by decide +kernel, rfl, by decide +kernel⟩

theorem witness_flush_and_reclaim_keep_the_reserve_1 : ∃ (v : NandBlock) (d : List (List NandBlock)) (s t : State) (b : Nat),
    exec (.garbageCollection v d) s = .next t ∧ t.med.progs ≠ s.med.progs ∧ waBound s = some b :=
  ⟨⟨10, 0⟩, [sixteen 2], roomy, left (exec (.garbageCollection ⟨10, 0⟩ [sixteen 2]) roomy), 115, rfl, by decide +kernel, by decide +kernel⟩

theorem witness_flush_and_reclaim_keep_the_reserve_2 : ∃ (v : NandBlock) (d : List (List NandBlock)) (s t : State) (b : Nat),
    exec (.wearLevelling v d) s = .next t ∧ t.med.progs ≠ s.med.progs ∧ waBound s = some b :=
  ⟨⟨2, 0⟩, [sixteen 1], roomy, left (exec (.wearLevelling ⟨2, 0⟩ [sixteen 1]) roomy), 115, rfl, by decide +kernel, by decide +kernel⟩

theorem witness_flush_and_reclaim_keep_the_reserve_3 : ∃ (v : NandBlock) (d : List (List NandBlock)) (after : Fin 11) (s t : State) (b : Nat),
    exec (.blockRefresh v d after) s = .next t ∧ t.med.progs ≠ s.med.progs ∧ waBound s = some b :=
  ⟨⟨2, 0⟩, [sixteen 2], 0, roomy, left (exec (.blockRefresh ⟨2, 0⟩ [sixteen 2] 0) roomy), 115, rfl, by decide +kernel, by decide +kernel⟩

theorem witness_outputs_in_reset_1 : ∃ (p : Fin 4) (n : Fin 4) (s : State),
    s.dev.sysRst = false ∧ s.dev.supplies = true ∧ s.mode ≠ .preserve ∧ s.ds.dirty = [] :=
  ⟨0, 1, serving, by decide +kernel⟩

theorem witness_outputs_in_reset_3 : ∃ (b : Ball) (s : State),
    b ∈ [.hlRefclk, .hlPerstN, .hlRcal, .lbLint 0, .ddrAlertN 0, .nfRbN 0, .ksXtal, .photoN, .fuseEn, .strap, .tms, .tck] :=
  ⟨.ksXtal, serving, by decide +kernel⟩

theorem witness_port_traffic_keeps_the_other_ports_0 : ∃ (p : Fin 4) (q : Fin 4) (credits : BitVec 16) (s : State),
    q ≠ p ∧ s.lbActive p = true :=
  ⟨0, 3, 5, active, by decide +kernel⟩

theorem witness_port_traffic_keeps_the_other_ports_1 : ∃ (p : Fin 4) (q : Fin 4) (seq : BitVec 8) (credits : BitVec 16) (i : Nat) (s : State),
    q ≠ p ∧ s.lbActive p = true ∧ (s.lb p).lastNak = none ∧ ((s.lb p).held.findIdx? fun e => e.1 == seq.toNat) = some i :=
  ⟨0, 3, 5, 0, 0, active.lbUpd 0 fun l => { l with held := [(5, { op := 2 }, 0)] }, by decide +kernel⟩

theorem witness_port_traffic_keeps_the_other_ports_2 : ∃ (p : Fin 4) (q : Fin 4) (s : State),
    q ≠ p ∧ s.lbActive p = true ∧ (s.lb p).errOut = false :=
  ⟨0, 3, active, by decide +kernel⟩

theorem witness_port_traffic_keeps_the_other_ports_3 : ∃ (p : Fin 4) (s : State),
    s.lbActive p = true ∧ (s.lb p).errOut = true ∧ (s.lb p).naks = [] ∧ (s.lb p).outFrame = none :=
  ⟨0, active.lbUpd 0 fun l => { l with errOut := true }, by decide +kernel⟩

theorem witness_port_traffic_keeps_the_other_ports_4 : ∃ (p : Fin 4) (q : Fin 4) (s : State),
    q ≠ p ∧ s.lbActive p = true ∧ ((s.lb p).freed.any (· != 0)) = true ∧ (s.lb p).naks = [] ∧ (s.lb p).replay = [] ∧ c0Ready (s.lb p) = false :=
  ⟨0, 3, active.lbUpd 0 fun l => { l with freed := [1, 0, 0, 0] }, by decide +kernel⟩

theorem witness_port_traffic_keeps_the_other_ports_5 : ∃ (p : Fin 4) (q : Fin 4) (v : Stroke) (vs : List Stroke) (s : State),
    q ≠ p ∧ s.lbActive p = true ∧ (s.lb p).bndSent = v :: vs ∧ 1 ≤ s.since v :=
  ⟨0, 3, 0, [], { active.lbUpd 0 (fun l => { l with bndSent := [0] }) with now := 1 }, by decide +kernel⟩

theorem witness_port_traffic_keeps_the_other_ports_6 : ∃ (p : Fin 4) (q : Fin 4) (n : Nat) (ns : List Nat) (s : State),
    q ≠ p ∧ s.lbActive p = true ∧ (s.lb p).naks = n :: ns ∧ (s.lb p).lastNak = none :=
  ⟨0, 3, 5, [], active.lbUpd 0 fun l => { l with naks := [5] }, by decide +kernel⟩

theorem witness_window_and_route_writes_keep_their_frame_0 : ∃ (c : Fin 1024) (w : Fin 16) (s : State),
    s.winOn c w = false :=
  ⟨1, 15, serving, by decide +kernel⟩

theorem witness_window_and_route_writes_keep_their_frame_4 : ∃ (p : Fin 4) (r : RItem) (s : State),
    (s.ritems.find? fun r => r.port == p.val && !routePeer r.route) = some r ∧ r.tested = true ∧ routedMoved s r = true ∧ (s.qp (routeCtx r.route) (routeQp r.route)).resv.head? = some r.id ∧ s.hostOpen (routeCtx r.route) = true ∧ (s.fn (routeCtx r.route)).atsEn = false ∧ upWritesIssued s p r.id = true :=
  ⟨0, { toQueue with tested := true }, { delivers with ritems := [{ toQueue with tested := true }] }.qpUpd 0 0 fun p => { p with resv := [7] }, by decide +kernel⟩

theorem witness_window_and_route_writes_keep_their_frame_5 : ∃ (p : Fin 4) (r : RItem) (s : State),
    (s.ritems.find? fun r => r.port == p.val) = some r ∧ routePeer r.route = true ∧ r.ready = true ∧ upWritesIssued s p r.id = true ∧ s.route (routeMember r.route) = none :=
  ⟨0, { toQueue with route := 2 ^ 62 }, { active with ritems := [{ toQueue with route := 2 ^ 62 }] }, by decide +kernel⟩

theorem witness_window_and_route_writes_keep_their_frame_6 : ∃ (c : Fin 4) (a : BitVec 32) (be : BitVec 8) (v : Word) (s : State) (u : State),
    busRead (.core c) (a.toNat - a.toNat % 4) s = (u, .ok v) :=
  ⟨0, 0x140002, 3, serving.word 0x140000, serving, (busRead (.core 0) 0x140000 serving).1, by decide +kernel⟩

theorem witness_window_and_route_writes_keep_their_frame_7 : ∃ (c : Fin 4) (a : BitVec 32) (be : BitVec 8) (v : BitVec 64) (met : BitVec 64) (s : State),
    be.toNat % 16 ≠ 15 :=
  ⟨0, 0x140000, 7, 5, 0, serving, by decide +kernel⟩

theorem witness_window_and_route_writes_keep_their_frame_8 : ∃ (c : Fin 4) (a : BitVec 32) (s : State),
    inBlocks (a.toNat - a.toNat % 4) = true ∧ mapCause s (.core c) (a.toNat - a.toNat % 4) false = none :=
  ⟨0, 0x140000, serving, by decide +kernel⟩

/-! ## The checks of WellFormed: a command that no sender forms -/

theorem test_wf_functions_ready : (Instr.functionsReady [] ⟨true, false, false, 0⟩).wf = false := by decide
theorem test_wf_functions_ready_dram :
    (Instr.functionsReady (List.replicate 8 ⟨0, false, 0, 0, 0⟩) ⟨false, true, false, 0⟩).wf = false := by decide
theorem test_wf_host_read_bar2 : (Instr.hostReadBar2 1 0 0).wf = false := by decide
theorem test_wf_host_read_bar4 : (Instr.hostReadBar4 1 0 0).wf = false := by decide
theorem test_wf_host_write_bar2 : (Instr.hostWriteBar2 1 0 []).wf = false := by decide
theorem test_wf_host_write_bar4 : (Instr.hostWriteBar4 1 0 (List.replicate 513 0)).wf = false := by decide +kernel
theorem test_wf_device_request_completion :
    (Instr.deviceRequestCompletion 1 0 0 (List.replicate 4097 0)).wf = false := by decide +kernel
theorem test_wf_descriptor_fetch : (Instr.descriptorFetch 1 0 [0]).wf = false := by decide
theorem test_wf_lb_receiver_lock : (Instr.lbReceiverLock 0 []).wf = false := by decide
theorem test_wf_lb_write_posted : (Instr.lbWritePostedReceive 0 ⟨0, 0, false⟩ 0 (List.replicate 512 0)).wf = false := by decide +kernel
theorem test_wf_lb_write_acked : (Instr.lbWriteAckedReceive 0 ⟨0, 0, false⟩ 0 0 (List.replicate 512 0)).wf = false := by decide +kernel
theorem test_wf_lb_msg : (Instr.lbMsgReceive 0 ⟨0, 0, false⟩ 0 (List.replicate 512 0)).wf = false := by decide +kernel
theorem test_wf_lb_frame : (Instr.lbFrameReceive 0 ⟨0, 0, false⟩ true true 0 (List.replicate 512 0)).wf = false := by decide +kernel
theorem test_wf_lb_resp : (Instr.lbRespReceive 0 ⟨0, 0, false⟩ 0 0 (List.replicate 512 0)).wf = false := by decide +kernel
theorem test_wf_bypass_peer_mbx : (Instr.bypassPeerMbx 0 0 0 0 0 0 (List.replicate 21 0)).wf = false := by decide
theorem test_wf_ul_cell : (Instr.ulCellReceive 0 0 0 none 0 0 0 false []).wf = false := by decide
theorem test_wf_smb_mbx_write : (Instr.smbMbxWrite 0x58 true 1 [0, 0, 0, 0]).wf = false := by decide
theorem test_wf_smb_mbx_read : (Instr.smbMbxRead 0x58 4092 8).wf = false := by decide

/-! ## Single steps, expected from the spec's tables -/

/-- What a number of the next state is. -/
def after (r : Result) (f : State → Nat) : Option Nat :=
  match r with
  | .next t => some (f t)
  | _ => none

/-- DEV_RST_CAUSE after a cold power-on reset is COLD alone (Table 03-14). -/
theorem test_cold_reset_cause : after (exec .coldPowerOnReset serving) (fun t => (t.word Adr.DEV_RST_CAUSE).toNat) = some 1 := by decide +kernel
/-- VID after a cold power-on reset is 0b111000 (02 R33). -/
theorem test_cold_reset_vid : after (exec .coldPowerOnReset serving) (fun t => t.dev.vid.toNat) = some 56 := by decide +kernel
/-- The first copy of the order 0 to 3 that passes is accepted, FAILED names those before it (03 R54). -/
theorem test_boot_second_copy : after (exec (.bootCopyAccepted 0b0001 0) tries) (fun t => t.get Fld.DEV_BOOT_COPY) = some 1 := by decide +kernel
theorem test_boot_failed_bits : after (exec (.bootCopyAccepted 0b0001 0) tries) (fun t => t.get Fld.DEV_BOOT_FAILED) = some 1 := by decide +kernel
/-- With no copy ERR tells of the last one rejected: 0x05 is no NAND response (Table 03-15). -/
theorem test_boot_no_copy : after (exec (.bootNoCopyAccepted 0b0111 0b1000) tries) (fun t => t.get Fld.DEV_BOOT_ERR) = some 5 := by decide +kernel
/-- SERVING is CAUSE 0x02 (Table 03-7), entered at the boundary. -/
theorem test_serving_cause :
    after (exec .strokeBoundary { standby.devUpd fun d => { d with servingAt := some 5 } with deferred := [.serving] }) (fun t => t.get Fld.DEV_MODE_CAUSE) = some 2 := by
  decide +kernel
/-- VF Enable set in MAINTENANCE creates nothing: only the physical function is served (03 R66). -/
theorem test_no_vfs_in_maintenance :
    after (exec (.vfEnableSet 7 true) (opened.set Fld.DEV_MODE_MODE 5)) (fun t => t.hl.vfEnable.toNat) = some 0 := by decide +kernel
/-- A configuration request before the functions are ready is answered CRS (03 R57, Table 04-8). -/
theorem test_config_crs : (match exec (.configRequest 5 0 none) serving with | .next t => t.out.head? | _ => none) = some (.cpl 5 3 []) := by decide +kernel
/-- A zero byte has parity bit 1, a byte with one 1 parity bit 0 (08 R174). -/
theorem test_odd_parity : (beatParity 0, beatParity 0x00000100) = (0xF, 0xD) := by decide +kernel
/-- An SMBus access at another address than 0x58 + MEMBER_ID is not answered (02 R30). -/
theorem test_smb_other_address : after (exec (.smbAttn 0x59) smbUp) (fun t => t.out.length) = some smbUp.out.length := by decide +kernel
/-- A partial write to a 32-bit register is dropped (00 R7). -/
theorem test_partial_write_dropped :
    after (exec (.registerWrite (.core 0) 0x100030 3 false 7 0) serving) (fun t => t.get Fld.DEV_DRAIN_LIMIT_LIMIT_MS) =
      some (serving.get Fld.DEV_DRAIN_LIMIT_LIMIT_MS) := by decide +kernel
/-- A watchdog whose MODE is OFF does not fire (05 R122). -/
theorem test_watchdog_off :
    after (exec (.watchdogExpiry 1) ((serving.set (Fld.CTX_STATE_STATE 1) 2).set (Fld.CTX_WDOG_STATUS_RUNNING 1) 1)) (fun t => t.get (Fld.CTX_EVT_STATUS_EVT 1)) =
      some 0 := by decide +kernel
/-- The example of AES-256 in FIPS 197, C.3: the key 00 01 … 1f, the block 00 11 … ff. -/
theorem test_aes_256 :
    leNat (aesEncrypt (aesKeys ((List.range 32).map (BitVec.ofNat 8))) ((List.range 16).map fun i => BitVec.ofNat 8 (0x11 * i))).reverse =
      0x8EA2B7CA516745BFEAFC49904B496089 := by decide +kernel
/-- Twice the base point of P-384, by the point list of that curve that NIST gives; and the base point is on it. -/
theorem test_p384_double :
    (ecAdd ecG ecG).map Prod.fst =
        some 0x08D999057BA3D2D969260045C55B97F089025959A6F434D651D207D19FB96E9E4FE0E86EBE0E64F85B96A9C75295DF61 ∧
      (ecG.map fun p => ecOn p.1 p.2) = some true := by decide +kernel

end Sys2Proof.Tests
end

section
/-! What a command may change, and that each command answers (the statements of 00_scope.md on every command). A row's bound is
the mask of parts that its meaning `keeps_exec…` allows. -/
namespace Sys2Proof.Machine

/-! ## Masks of parts -/

theorem everyPart_find_idx (p : Part) : everyPart.find? (fun q => q.idx == p.idx) = some p := by cases p <;> rfl

theorem Part.idx_injective : Function.Injective Part.idx := fun p q h => by
  have hp := everyPart_find_idx p
  rw [h, everyPart_find_idx q] at hp
  exact (Option.some.inj hp).symm

/-- A bit of the mask of a list is set where a part of the list has that place. -/
theorem testBit_partMask (l : List Part) (n : Nat) : (partMask l).testBit n = l.any fun p => p.idx == n := by
  suffices h : ∀ m : Nat, (l.foldl (fun m p => m ||| 2 ^ p.idx) m).testBit n = (m.testBit n || l.any fun p => p.idx == n) by
    simpa [partMask] using h 0
  induction l with
  | nil => simp
  | cons p l ih => intro m; simp [ih, Nat.testBit_or, Nat.testBit_two_pow, Bool.or_assoc, beq_eq_decide]

theorem testBit_partMask_of_notMem {l : List Part} {p : Part} (h : p ∉ l) : (partMask l).testBit p.idx = false := by
  rw [testBit_partMask, List.any_eq_false]
  intro q hq he
  exact h (Part.idx_injective (beq_iff_eq.mp he) ▸ hq)

theorem only_of_keeps {l : List Part} {s t : State} (h : Keeps (partMask l) s t) : Only l s t :=
  ⟨h.pending, fun p hp => h.same p (testBit_partMask_of_notMem hp)⟩

/-! ## The parts that each command may change -/

/-- The parts that the meaning of a command may change lie in the command's list `mayChange`: one line per row, `rfl` comparing
the two masks. -/
theorem ends_exec (i : Instr) (s : State) : Ends (partMask (mayChange i)) s (exec i s) := by
  have h : ∀ w, Keeps w s s := fun w => keeps_refl w s
  unfold mayChange exec
  cases i with dsimp only
  | coldPowerOnReset => exact keeps_execColdPowerOnReset rfl (h _)
  | sysRstNAssertion => exact keeps_execSysRstNAssertion rfl (h _)
  | sysRstNRelease => exact keeps_execSysRstNRelease _ rfl (h _)
  | sysPllLock => exact keeps_execSysPllLock rfl (h _)
  | bootCopyAccepted => exact keeps_execBootCopyAccepted _ _ rfl (h _)
  | bootNoCopyAccepted => exact keeps_execBootNoCopyAccepted _ _ rfl (h _)
  | functionsReady => exact keeps_execFunctionsReady _ _ rfl (h _)
  | enterServing => exact keeps_execEnterServing rfl (h _)
  | pwrFailRecognised => exact keeps_execPwrFailRecognised rfl (h _)
  | thermTripRecognised => exact keeps_execThermTripRecognised _ rfl (h _)
  | cardEjectRecognised => exact keeps_execCardEjectRecognised rfl (h _)
  | drainComplete => exact keeps_execDrainComplete rfl (h _)
  | drainLimitReached => exact keeps_execDrainLimitReached rfl (h _)
  | devDrainLimitWrite => exact keeps_execDevDrainLimitWrite _ _ rfl (h _)
  | maintenanceSafePoint => exact keeps_execMaintenanceSafePoint rfl (h _)
  | preserveEntry => exact keeps_execPreserveEntry rfl (h _)
  | preserveHalt => exact keeps_execPreserveHalt rfl (h _)
  | devResetApply => exact keeps_execDevResetApply rfl (h _)
  | strokeBoundary => exact keeps_execStrokeBoundary rfl (h _)
  | cadStrokeLoRead => exact keeps_execCadStrokeLoRead _ rfl (h _)
  | ptmDialogue => exact keeps_execPtmDialogue _ rfl (h _)
  | ptmResponseTimeout => exact keeps_execPtmResponseTimeout rfl (h _)
  | cadPtmCtlWrite => exact keeps_execCadPtmCtlWrite _ rfl (h _)
  | cadCommitGo => exact keeps_execCadCommitGo rfl (h _)
  | cadenceCommitApply => exact keeps_execCadenceCommitApply rfl (h _)
  | levelChangeOrder => exact keeps_execLevelChangeOrder _ rfl (h _)
  | levelSwitch => exact keeps_execLevelSwitch rfl (h _)
  | vidStep => exact keeps_execVidStep rfl (h _)
  | throttleGraceExpiry => exact keeps_execThrottleGraceExpiry rfl (h _)
  | thermalRefresh => exact keeps_execThermalRefresh _ _ _ _ _ _ _ _ rfl (h _)
  | hlLinkUp => exact keeps_execHlLinkUp _ _ _ rfl (h _)
  | hlLaneFail => exact keeps_execHlLaneFail _ rfl (h _)
  | hlRecoveryEntry => exact keeps_execHlRecoveryEntry rfl (h _)
  | hlPerstAssertion => exact keeps_execHlPerstAssertion rfl (h _)
  | hlPerstRelease => exact keeps_execHlPerstRelease rfl (h _)
  | hotResetReceived => exact keeps_execHotResetReceived rfl (h _)
  | dlDown => exact keeps_execDlDown rfl (h _)
  | dlDownClassify => exact keeps_execDlDownClassify rfl (h _)
  | configRequest => exact keeps_execConfigRequest _ _ _ rfl (h _)
  | vfEnableSet => exact keeps_execVfEnableSet _ _ rfl (h _)
  | vfFrsSend => exact keeps_execVfFrsSend rfl (h _)
  | vfEnableClear => exact keeps_execVfEnableClear rfl (h _)
  | barSizeWrite => exact keeps_execBarSizeWrite _ _ _ rfl (h _)
  | busMasterEnableWrite => exact keeps_execBusMasterEnableWrite _ _ rfl (h _)
  | pmcsrWrite => exact keeps_execPmcsrWrite _ _ _ _ rfl (h _)
  | d0Return => exact keeps_execD0Return _ rfl (h _)
  | pmeTurnOff => exact keeps_execPmeTurnOff rfl (h _)
  | flrReceived => exact keeps_execFlrReceived _ rfl (h _)
  | flrComplete => exact keeps_execFlrComplete _ rfl (h _)
  | hostReadBar2 => exact keeps_execHostReadBar2 _ _ _ rfl (h _)
  | hostWriteBar2 => exact keeps_execHostWriteBar2 _ _ _ rfl (h _)
  | hostReadBar4 => exact keeps_execHostReadBar4 _ _ _ rfl (h _)
  | hostWriteBar4 => exact keeps_execHostWriteBar4 _ _ _ rfl (h _)
  | hostUnsupportedRequest => exact keeps_execHostUnsupportedRequest _ rfl (h _)
  | deviceRequestCompletion => exact keeps_execDeviceRequestCompletion _ _ _ _ rfl (h _)
  | deviceRequestTimeout => exact keeps_execDeviceRequestTimeout _ _ rfl (h _)
  | atsTranslationCompletion => exact keeps_execAtsTranslationCompletion _ _ _ _ _ _ _ _ _ rfl (h _)
  | atsInvalidationRequest => exact keeps_execAtsInvalidationRequest _ _ _ _ rfl (h _)
  | atsInvalidationComplete => exact keeps_execAtsInvalidationComplete _ rfl (h _)
  | hlAtsFlush => exact keeps_execHlAtsFlush rfl (h _)
  | hlRetrain => exact keeps_execHlRetrain rfl (h _)
  | l0pRequest => exact keeps_execL0pRequest _ _ rfl (h _)
  | l1EntryRequest => exact keeps_execL1EntryRequest _ rfl (h _)
  | ltrSend => exact keeps_execLtrSend rfl (h _)
  | ctxSetShare => exact keeps_execCtxSetShare _ _ _ rfl (h _)
  | shareRecordApply => exact keeps_execShareRecordApply _ rfl (h _)
  | ctxQuery => exact keeps_execCtxQuery _ _ rfl (h _)
  | ctxReset => exact keeps_execCtxReset _ _ _ rfl (h _)
  | ctxDestroy => exact keeps_execCtxDestroy _ _ _ rfl (h _)
  | ctxWdogCfg => exact keeps_execCtxWdogCfg _ _ rfl (h _)
  | ctxList => exact keeps_execCtxList _ _ rfl (h _)
  | contextDrainStart => exact keeps_execContextDrainStart _ rfl (h _)
  | contextSquash => exact keeps_execContextSquash _ rfl (h _)
  | squashComplete => exact keeps_execSquashComplete _ rfl (h _)
  | contextQuiesce => exact keeps_execContextQuiesce _ rfl (h _)
  | watchdogExpiry => exact keeps_execWatchdogExpiry _ rfl (h _)
  | ctxWdogKickWrite => exact keeps_execCtxWdogKickWrite _ rfl (h _)
  | ctxSelWdogWrite => exact keeps_execCtxSelWdogWrite _ _ rfl (h _)
  | tagQuarantineRelease => exact keeps_execTagQuarantineRelease _ _ _ rfl (h _)
  | qpEnable => exact keeps_execQpEnable _ _ rfl (h _)
  | qpDisable => exact keeps_execQpDisable _ _ rfl (h _)
  | doorbellWrite => exact keeps_execDoorbellWrite _ _ _ _ rfl (h _)
  | descriptorFetch => exact keeps_execDescriptorFetch _ _ _ rfl (h _)
  | descriptorFetchFail => exact keeps_execDescriptorFetchFail _ _ _ _ _ rfl (h _)
  | descriptorDeal => exact keeps_execDescriptorDeal _ _ _ rfl (h _)
  | nop => exact keeps_execNop _ _ _ rfl (h _)
  | copy => exact keeps_execCopy _ _ _ rfl (h _)
  | fill => exact keeps_execFill _ _ _ rfl (h _)
  | fence => exact keeps_execFence _ _ _ rfl (h _)
  | persist => exact keeps_execPersist _ _ _ rfl (h _)
  | atomic => exact keeps_execAtomic _ _ _ rfl (h _)
  | send => exact keeps_execSend _ _ _ rfl (h _)
  | frameOut => exact keeps_execFrameOut _ _ _ rfl (h _)
  | mark => exact keeps_execMark _ _ _ rfl (h _)
  | descriptorComplete => exact keeps_execDescriptorComplete _ _ _ rfl (h _)
  | completionEntryWrite => exact keeps_execCompletionEntryWrite _ _ rfl (h _)
  | qpAbortGo => exact keeps_execQpAbortGo _ _ rfl (h _)
  | abortResolve => exact keeps_execAbortResolve _ _ rfl (h _)
  | spokeEngineFence => exact keeps_execSpokeEngineFence _ _ rfl (h _)
  | ctxWfenceRead => exact keeps_execCtxWfenceRead _ rfl (h _)
  | ctxWfenceReturn => exact keeps_execCtxWfenceReturn _ rfl (h _)
  | ctxWfenceTimeout => exact keeps_execCtxWfenceTimeout _ rfl (h _)
  | lbCtlEnWrite => exact keeps_execLbCtlEnWrite _ _ rfl (h _)
  | lbRetrain => exact keeps_execLbRetrain _ rfl (h _)
  | lbResetExit => exact keeps_execLbResetExit _ rfl (h _)
  | lbReceiverLock => exact keeps_execLbReceiverLock _ _ rfl (h _)
  | lbLockedBlocksReceived => exact keeps_execLbLockedBlocksReceived _ rfl (h _)
  | lbTrainTimeout => exact keeps_execLbTrainTimeout _ _ rfl (h _)
  | lbFailedGapExpiry => exact keeps_execLbFailedGapExpiry _ rfl (h _)
  | lbTrainingBlocksInActive => exact keeps_execLbTrainingBlocksInActive _ rfl (h _)
  | linkInitReceive => exact keeps_execLinkInitReceive _ _ _ rfl (h _)
  | linkCreditReceive => exact keeps_execLinkCreditReceive _ _ rfl (h _)
  | linkNakReceive => exact keeps_execLinkNakReceive _ _ _ rfl (h _)
  | lbLinkError => exact keeps_execLbLinkError _ _ _ rfl (h _)
  | lbNakTimeout => exact keeps_execLbNakTimeout _ rfl (h _)
  | lbCreditSend => exact keeps_execLbCreditSend _ rfl (h _)
  | lbBndCreditLate => exact keeps_execLbBndCreditLate _ rfl (h _)
  | lbEgressPacket => exact keeps_execLbEgressPacket _ rfl (h _)
  | lbReadReceive => exact keeps_execLbReadReceive _ _ _ _ _ rfl (h _)
  | lbWritePostedReceive => exact keeps_execLbWritePostedReceive _ _ _ _ rfl (h _)
  | lbWriteAckedReceive => exact keeps_execLbWriteAckedReceive _ _ _ _ _ rfl (h _)
  | lbMsgReceive => exact keeps_execLbMsgReceive _ _ _ _ rfl (h _)
  | lbFrameReceive => exact keeps_execLbFrameReceive _ _ _ _ _ _ rfl (h _)
  | lbSidebandReceive => exact keeps_execLbSidebandReceive _ _ _ rfl (h _)
  | lbRespReceive => exact keeps_execLbRespReceive _ _ _ _ _ rfl (h _)
  | lbAtomicReceive => exact keeps_execLbAtomicReceive _ _ rfl (h _)
  | lbRetryLaterResend => exact keeps_execLbRetryLaterResend _ _ rfl (h _)
  | windowCompletionTimeout => exact keeps_execWindowCompletionTimeout _ _ rfl (h _)
  | speculativeReadAbandon => exact keeps_execSpeculativeReadAbandon _ rfl (h _)
  | prefetchBlockExpiry => exact keeps_execPrefetchBlockExpiry _ rfl (h _)
  | strandedEntryExpiry => exact keeps_execStrandedEntryExpiry _ _ rfl (h _)
  | lintEdge => exact keeps_execLintEdge _ _ _ rfl (h _)
  | winMap => exact keeps_execWinMap _ _ rfl (h _)
  | winUnmap => exact keeps_execWinUnmap _ _ rfl (h _)
  | winAttrWrite => exact keeps_execWinAttrWrite _ _ _ rfl (h _)
  | routeEntryWrite => exact keeps_execRouteEntryWrite _ _ rfl (h _)
  | routedItemDelivery => exact keeps_execRoutedItemDelivery _ rfl (h _)
  | routedItemPeerSend => exact keeps_execRoutedItemPeerSend _ rfl (h _)
  | aptCreate => exact keeps_execAptCreate _ _ rfl (h _)
  | aptAttach => exact keeps_execAptAttach _ _ rfl (h _)
  | aptDetach => exact keeps_execAptDetach _ _ rfl (h _)
  | aptErase => exact keeps_execAptErase _ _ rfl (h _)
  | aptQuery => exact keeps_execAptQuery _ _ rfl (h _)
  | writeAdmission => exact keeps_execWriteAdmission _ rfl (h _)
  | ctxPersistRead => exact keeps_execCtxPersistRead _ rfl (h _)
  | ctxPersistReturn => exact keeps_execCtxPersistReturn _ rfl (h _)
  | ctxPersistTimeout => exact keeps_execCtxPersistTimeout _ rfl (h _)
  | mirrorAckReceive => exact keeps_execMirrorAckReceive _ rfl (h _)
  | mirrorAckTimeout => exact keeps_execMirrorAckTimeout _ rfl (h _)
  | resyncComplete => exact keeps_execResyncComplete _ rfl (h _)
  | dsBudgetWrite => exact keeps_execDsBudgetWrite _ rfl (h _)
  | dsHoldupWrite => exact keeps_execDsHoldupWrite _ rfl (h _)
  | unitFlushComplete => exact keeps_execUnitFlushComplete _ _ rfl (h _)
  | stripeWrite => exact keeps_execStripeWrite _ _ rfl (h _)
  | dramCorrectedError => exact keeps_execDramCorrectedError _ _ _ _ rfl (h _)
  | dramUncorrectableError => exact keeps_execDramUncorrectableError _ _ _ _ rfl (h _)
  | dramScrubPass => exact keeps_execDramScrubPass rfl (h _)
  | nandRead => exact keeps_execNandRead _ _ _ _ rfl (h _)
  | nandProgramFail => exact keeps_execNandProgramFail _ rfl (h _)
  | nandEraseFail => exact keeps_execNandEraseFail _ rfl (h _)
  | lunLost => exact keeps_execLunLost _ _ rfl (h _)
  | rebuildComplete => exact keeps_execRebuildComplete _ rfl (h _)
  | patrolPass => exact keeps_execPatrolPass _ rfl (h _)
  | blockRefresh => exact keeps_execBlockRefresh _ _ _ rfl (h _)
  | garbageCollection => exact keeps_execGarbageCollection _ _ rfl (h _)
  | wearLevelling => exact keeps_execWearLevelling _ _ rfl (h _)
  | mediaWorn => exact keeps_execMediaWorn rfl (h _)
  | storeQuery => exact keeps_execStoreQuery _ _ rfl (h _)
  | storeRecord => exact keeps_execStoreRecord _ _ rfl (h _)
  | storeFormat => exact keeps_execStoreFormat _ _ rfl (h _)
  | mediaHealth => exact keeps_execMediaHealth _ _ rfl (h _)
  | mediaRebuild => exact keeps_execMediaRebuild _ _ rfl (h _)
  | ulCtlEnWrite => exact keeps_execUlCtlEnWrite _ _ rfl (h _)
  | ulRetrain => exact keeps_execUlRetrain _ rfl (h _)
  | ulLanesLocked => exact keeps_execUlLanesLocked _ _ rfl (h _)
  | ulTrainTimeout => exact keeps_execUlTrainTimeout _ rfl (h _)
  | bypassInit => exact keeps_execBypassInit _ _ _ _ _ _ _ _ _ _ _ _ rfl (h _)
  | bypassInitAck => exact keeps_execBypassInitAck _ _ _ rfl (h _)
  | bypassAck => exact keeps_execBypassAck _ _ _ rfl (h _)
  | bypassNak => exact keeps_execBypassNak _ _ _ rfl (h _)
  | bypassCredit => exact keeps_execBypassCredit _ _ _ rfl (h _)
  | bypassStroke => exact keeps_execBypassStroke _ _ _ _ _ _ _ rfl (h _)
  | bypassDelayReq => exact keeps_execBypassDelayReq _ _ _ _ _ rfl (h _)
  | bypassDelayResp => exact keeps_execBypassDelayResp _ _ _ _ _ rfl (h _)
  | delayReqSend => exact keeps_execDelayReqSend _ _ rfl (h _)
  | bypassShiftReq => exact keeps_execBypassShiftReq _ _ _ _ _ _ rfl (h _)
  | bypassLpmReq => exact keeps_execBypassLpmReq _ _ _ _ rfl (h _)
  | bypassLpmAck => exact keeps_execBypassLpmAck _ _ _ _ rfl (h _)
  | bypassPhoto => exact keeps_execBypassPhoto _ _ _ _ _ _ _ rfl (h _)
  | bypassPeerMbx => exact keeps_execBypassPeerMbx _ _ _ _ _ _ _ rfl (h _)
  | bypassNull => exact keeps_execBypassNull _ _ _ rfl (h _)
  | bypassRetransmit => exact keeps_execBypassRetransmit _ rfl (h _)
  | ulCellReceive => exact keeps_execUlCellReceive _ _ _ _ _ _ _ _ _ rfl (h _)
  | ulAckSend => exact keeps_execUlAckSend _ rfl (h _)
  | ulCreditReport => exact keeps_execUlCreditReport _ rfl (h _)
  | ulLinkError => exact keeps_execUlLinkError _ _ rfl (h _)
  | ulNakRepeat => exact keeps_execUlNakRepeat _ rfl (h _)
  | ulReplayTimeout => exact keeps_execUlReplayTimeout _ rfl (h _)
  | ulLaneFault => exact keeps_execUlLaneFault _ _ rfl (h _)
  | ulLinkDown => exact keeps_execUlLinkDown _ rfl (h _)
  | ulGraceExpiry => exact keeps_execUlGraceExpiry _ rfl (h _)
  | ulCoastIdle => exact keeps_execUlCoastIdle _ rfl (h _)
  | ulCoastExit => exact keeps_execUlCoastExit _ rfl (h _)
  | ulParkExit => exact keeps_execUlParkExit _ rfl (h _)
  | ulWriteReceive => exact keeps_execUlWriteReceive _ rfl (h _)
  | ulReadReceive => exact keeps_execUlReadReceive _ rfl (h _)
  | ulAtomicReceive => exact keeps_execUlAtomicReceive _ rfl (h _)
  | ulRespReceive => exact keeps_execUlRespReceive _ rfl (h _)
  | ulRoutedReceive => exact keeps_execUlRoutedReceive _ rfl (h _)
  | mirrorWriteReceive => exact keeps_execMirrorWriteReceive _ rfl (h _)
  | messageForward => exact keeps_execMessageForward _ rfl (h _)
  | stateView => exact keeps_execStateView _ rfl (h _)
  | stateJoin => exact keeps_execStateJoin _ rfl (h _)
  | stateLeave => exact keeps_execStateLeave _ rfl (h _)
  | stateTandem => exact keeps_execStateTandem _ _ _ rfl (h _)
  | stateHandover => exact keeps_execStateHandover _ rfl (h _)
  | stateRelocate => exact keeps_execStateRelocate _ rfl (h _)
  | stateReservedStype => exact keeps_execStateReservedStype _ rfl (h _)
  | joinSend => exact keeps_execJoinSend _ _ rfl (h _)
  | joinWaitExpiry => exact keeps_execJoinWaitExpiry rfl (h _)
  | viewSend => exact keeps_execViewSend rfl (h _)
  | memberLoss => exact keeps_execMemberLoss _ rfl (h _)
  | memberFence => exact keeps_execMemberFence rfl (h _)
  | failover => exact keeps_execFailover _ rfl (h _)
  | handoverSend => exact keeps_execHandoverSend _ rfl (h _)
  | pelotonSplit => exact keeps_execPelotonSplit _ _ rfl (h _)
  | rejoinCompare => exact keeps_execRejoinCompare _ _ rfl (h _)
  | pelQuery => exact keeps_execPelQuery _ _ rfl (h _)
  | pelLeave => exact keeps_execPelLeave _ _ rfl (h _)
  | tandemPair => exact keeps_execTandemPair _ _ _ rfl (h _)
  | tandemUnpair => exact keeps_execTandemUnpair _ _ rfl (h _)
  | tandemQuery => exact keeps_execTandemQuery _ _ rfl (h _)
  | sourceEdge => exact keeps_execSourceEdge _ rfl (h _)
  | icPendSet => exact keeps_execIcPendSet _ _ _ rfl (h _)
  | icPendClr => exact keeps_execIcPendClr _ _ _ _ _ rfl (h _)
  | icEnSet => exact keeps_execIcEnSet _ _ _ _ rfl (h _)
  | icEnClr => exact keeps_execIcEnClr _ _ _ rfl (h _)
  | icClaim => exact keeps_execIcClaim _ _ rfl (h _)
  | icEoi => exact keeps_execIcEoi _ _ rfl (h _)
  | holdOffExpiry => exact keeps_execHoldOffExpiry _ rfl (h _)
  | icHoldWrite => exact keeps_execIcHoldWrite _ _ _ rfl (h _)
  | strokeTimerExpiry => exact keeps_execStrokeTimerExpiry _ rfl (h _)
  | strokeCompareMatch => exact keeps_execStrokeCompareMatch rfl (h _)
  | ksAlarmMatch => exact keeps_execKsAlarmMatch rfl (h _)
  | gpioEdge => exact keeps_execGpioEdge _ _ rfl (h _)
  | contextEventSet => exact keeps_execContextEventSet _ _ rfl (h _)
  | coalescingTimerExpiry => exact keeps_execCoalescingTimerExpiry _ _ rfl (h _)
  | cqEvtCfgWrite => exact keeps_execCqEvtCfgWrite _ _ _ rfl (h _)
  | msixTriggerDelivery => exact keeps_execMsixTriggerDelivery _ _ rfl (h _)
  | mbxDoorbellGo => exact keeps_execMbxDoorbellGo _ rfl (h _)
  | mbxWatchdogExpiry => exact keeps_execMbxWatchdogExpiry _ rfl (h _)
  | longOperationEnd => exact keeps_execLongOperationEnd _ _ rfl (h _)
  | mbxForward => exact keeps_execMbxForward _ _ rfl (h _)
  | devQuery => exact keeps_execDevQuery _ _ rfl (h _)
  | devReset => exact keeps_execDevReset _ _ rfl (h _)
  | maintEnter => exact keeps_execMaintEnter _ _ rfl (h _)
  | prepareExtract => exact keeps_execPrepareExtract _ _ rfl (h _)
  | perfSet => exact keeps_execPerfSet _ _ rfl (h _)
  | sleepEnter => exact keeps_execSleepEnter _ _ rfl (h _)
  | wakeCfg => exact keeps_execWakeCfg _ _ rfl (h _)
  | thermQuery => exact keeps_execThermQuery _ _ rfl (h _)
  | powerPolicy => exact keeps_execPowerPolicy _ _ rfl (h _)
  | powerQuery => exact keeps_execPowerQuery _ _ rfl (h _)
  | fwQuery => exact keeps_execFwQuery _ _ rfl (h _)
  | fwStageBegin => exact keeps_execFwStageBegin _ _ rfl (h _)
  | fwStageData => exact keeps_execFwStageData _ _ rfl (h _)
  | fwStageEnd => exact keeps_execFwStageEnd _ _ _ rfl (h _)
  | fwActivate => exact keeps_execFwActivate _ _ rfl (h _)
  | fwCommit => exact keeps_execFwCommit _ _ rfl (h _)
  | fwRollback => exact keeps_execFwRollback _ _ rfl (h _)
  | trialBoot => exact keeps_execTrialBoot rfl (h _)
  | fuseQuery => exact keeps_execFuseQuery _ _ rfl (h _)
  | fuseProgram => exact keeps_execFuseProgram _ _ _ _ _ _ _ rfl (h _)
  | ifQuery => exact keeps_execIfQuery _ _ rfl (h _)
  | echo => exact keeps_execEcho _ _ rfl (h _)
  | logRead => exact keeps_execLogRead _ _ rfl (h _)
  | timeQuery => exact keeps_execTimeQuery _ _ rfl (h _)
  | smbRegRead => exact keeps_execSmbRegRead _ _ rfl (h _)
  | smbRegWrite => exact keeps_execSmbRegWrite _ _ _ _ rfl (h _)
  | smbMbxWrite => exact keeps_execSmbMbxWrite _ _ _ _ rfl (h _)
  | smbMbxRead => exact keeps_execSmbMbxRead _ _ _ rfl (h _)
  | smbAttn => exact keeps_execSmbAttn _ rfl (h _)
  | freewheelEntry => exact keeps_execFreewheelEntry rfl (h _)
  | freewheelExit => exact keeps_execFreewheelExit rfl (h _)
  | idleSleepOrder => exact keeps_execIdleSleepOrder rfl (h _)
  | restEntry => exact keeps_execRestEntry _ rfl (h _)
  | restEntryComplete => exact keeps_execRestEntryComplete rfl (h _)
  | wakeEvent => exact keeps_execWakeEvent rfl (h _)
  | restExit => exact keeps_execRestExit rfl (h _)
  | coreWatchdogExpiry => exact keeps_execCoreWatchdogExpiry _ rfl (h _)
  | coreFence => exact keeps_execCoreFence _ _ _ rfl (h _)
  | faultStop => exact keeps_execFaultStop _ rfl (h _)
  | firmwareRestart => exact keeps_execFirmwareRestart _ _ rfl (h _)
  | firmwareRestartComplete => exact keeps_execFirmwareRestartComplete _ rfl (h _)
  | internalParityError => exact keeps_execInternalParityError _ rfl (h _)
  | sramUncorrectableError => exact keeps_execSramUncorrectableError _ rfl (h _)
  | registerAnswerTimeout => exact keeps_execRegisterAnswerTimeout _ _ _ rfl (h _)
  | registerWrite => exact keeps_execRegisterWrite _ _ _ _ _ _ rfl (h _)
  | pfsTrigGo => exact keeps_execPfsTrigGo rfl (h _)
  | photoNEdge => exact keeps_execPhotoNEdge rfl (h _)
  | photoLatch => exact keeps_execPhotoLatch rfl (h _)
  | pfsArm => exact keeps_execPfsArm rfl (h _)
  | tapReset => exact keeps_execTapReset rfl (h _)
  | idcode => exact keeps_execIdcode rfl (h _)
  | samplePreload => exact keeps_execSamplePreload _ _ rfl (h _)
  | extest => exact keeps_execExtest _ _ rfl (h _)
  | clamp => exact keeps_execClamp rfl (h _)
  | highz => exact keeps_execHighz rfl (h _)
  | bypass => exact keeps_execBypass rfl (h _)
  | dap => exact keeps_execDap rfl (h _)
  | dapAccessGo => exact keeps_execDapAccessGo _ _ _ rfl (h _)
  | supplyLoss => exact keeps_execSupplyLoss rfl (h _)
  | ksXtalStart => exact keeps_execKsXtalStart rfl (h _)
  | dramAlert => exact keeps_execDramAlert _ rfl (h _)
  | msixVectorUnmask => exact keeps_execMsixVectorUnmask _ _ rfl (h _)
  | registerRead => exact keeps_execRegisterRead _ _ _ _ rfl (h _)
  | hlRecoveryExit => exact keeps_execHlRecoveryExit rfl (h _)
  | l0pPartnerRequest => exact keeps_execL0pPartnerRequest _ rfl (h _)
  | hlLinkLayerError => exact keeps_execHlLinkLayerError _ rfl (h _)
  | markerRowReceive => exact keeps_execMarkerRowReceive _ _ _ _ _ rfl (h _)
  | ulInitSend => exact keeps_execUlInitSend _ rfl (h _)
  | ulEgressUnit => exact keeps_execUlEgressUnit _ rfl (h _)

theorem only_of_exec {i : Instr} {s t : State} (h : exec i s = .next t) : Only (mayChange i) s t :=
  only_of_keeps (ends_exec i s t h)

/-- Settles O4: the parts that a command's meaning may change are among those its list names. -/
theorem commandsChangeOnlyTheirParts : Obligations.CommandsChangeOnlyTheirParts := by
  unfold Obligations.CommandsChangeOnlyTheirParts
  exact fun i s t h => only_of_exec h

/-! ## Every command answers -/

/-- The outcome is a next state. -/
def Answers (o : Result) : Prop := ∃ t, o = .next t

theorem answers_done (s : State) : Answers (done s) := ⟨s, rfl⟩

/-- A command of a mailbox that acts when a core takes it answers, taken or not (16 R388). -/
theorem answers_startCmd (mb core op : Nat) (f : Cmd → State → State) (s : State) : Answers (startCmd mb core op f s) := by
  unfold startCmd
  split <;> exact answers_done _

/-- A command of a mailbox that runs to its end in one row answers, taken or not (16 R388). -/
theorem answers_runCmd (mb core op : Nat) (f : Cmd → State → State × Nat × List Byte) (s : State) :
    Answers (runCmd mb core op f s) := by
  unfold runCmd
  split <;> exact answers_done _

theorem answers_ite {c : Prop} [Decidable c] {a b : Result} (ha : Answers a) (hb : Answers b) : Answers (if c then a else b) := by
  split
  · exact ha
  · exact hb

theorem answers_execSleepEnter (mb : Fin 1032) (core : Fin 4) (s : State) : Answers (execSleepEnter mb core s) := by
  unfold execSleepEnter
  split
  · exact answers_done _
  · exact answers_ite (answers_done _) (answers_runCmd ..)

/-- The rows of the mailboxes answer as their common start does; each other row's meaning is `done` of a state. -/
theorem answers_exec (i : Instr) (s : State) : Answers (exec i s) := by
  unfold exec
  cases i <;> dsimp only
  case sleepEnter mb core => exact answers_execSleepEnter mb core s
  case perfSet => exact answers_ite (answers_startCmd ..) (answers_done _)
  case wakeCfg | powerPolicy => exact answers_ite (answers_runCmd ..) (answers_done _)
  case ctxSetShare | ctxReset | ctxDestroy | aptAttach | aptDetach | pelLeave | tandemPair | maintEnter | prepareExtract |
      fuseProgram =>
    exact answers_startCmd ..
  case ctxQuery | ctxWdogCfg | ctxList | aptCreate | aptErase | aptQuery | storeQuery | storeRecord | storeFormat |
      mediaHealth | mediaRebuild | pelQuery | tandemUnpair | tandemQuery | devQuery | devReset | thermQuery | powerQuery |
      fwQuery | fwStageBegin | fwStageData | fwStageEnd | fwActivate | fwCommit | fwRollback | fuseQuery | ifQuery | echo |
      logRead | timeQuery =>
    exact answers_runCmd ..
  all_goals exact answers_done _

/-- Settles O5: no row's meaning is a fault or a refusal. -/
theorem everyCommandAnswersANextState : Obligations.EveryCommandAnswersANextState := by
  unfold Obligations.EveryCommandAnswersANextState
  exact answers_exec

end Sys2Proof.Machine
end

section
/-! Register accesses of the control cores (00 R7; 18 R445), and what writes of windows, routes and registers and leaving items
keep: the statements of 00_scope.md on accesses and on frames. -/
namespace Sys2Proof.Machine

/-! ## A core's accesses -/

theorem exec_registerRead_core (c : Fin 4) (a : BitVec 32) (be : BitVec 8) (s : State) :
    exec (.registerRead (.core c) a be false) s = .next (regServe (.core c) (a.toNat - a.toNat % 4) be false s) := rfl

theorem exec_registerWrite_core (c : Fin 4) (a : BitVec 32) (be : BitVec 8) (v met : BitVec 64) (s : State) :
    exec (.registerWrite (.core c) a be false v met) s =
      .next (putRegister (.core c) (a.toNat - a.toNat % 4) be false v met s) := rfl

theorem exec_registerAnswerTimeout_core (c : Fin 4) (a : BitVec 32) (write : Bool) (s : State) :
    exec (.registerAnswerTimeout (.core c) a write) s = .next (hungAccess (.core c) (a.toNat - a.toNat % 4) write s) := rfl

/-- A read of the bus that gives its value gives a core one answer. -/
theorem regServe_core_ok {c : Fin 4} {a : Nat} {v : Word} {s u : State} (be : BitVec 8)
    (h : busRead (.core c) a s = (u, .ok v)) :
    regServe (.core c) a be false s = readAnswer (.core c) (enabledBytes (be.toNat % 16) (leBytes 4 v.toNat)) u := by
  simp [regServe, h, noData, answerBytes]

theorem enabledBytes_length_le (be : Nat) (l : List Byte) : (enabledBytes be l).length ≤ l.length := by
  simpa [enabledBytes] using List.length_filter_le (fun x : Byte × Nat => bitOf be x.2) l.zipIdx

theorem readAnswer_core {data : List Byte} (h : data.length ≤ 4) (c : Fin 4) (u : State) :
    ∃ o, readAnswer (.core c) data u = emit o u := by
  have h8 : data.length ≠ 8 := by omega
  unfold readAnswer
  dsimp only
  rw [if_neg h8]
  split
  · exact ⟨_, rfl⟩
  · exact ⟨_, rfl⟩

theorem putRegister_part {be : BitVec 8} (h : be.toNat % 16 ≠ 15) (m : Master) (a : Nat) (v met : BitVec 64) (s : State) :
    putRegister m a be false v met s = s := by
  simp [putRegister, h]

/-- A block that gives no answer: the access is recorded, and the core reads all ones. -/
theorem hungAccess_core_read {c : Fin 4} {a : Nat} {s : State} (h : inBlocks a = true) (hm : mapCause s (.core c) a false = none) :
    hungAccess (.core c) a false s =
      emit (.reg (.core c) 0xFFFFFFFF) (recordGated (.core c) a false (!blockGated s (blockOf a)) s) := by
  simp only [hungAccess, h, hm, virtualFn]
  rfl

/-! ## A core's write of eight bytes -/

/-- A write of eight bytes goes to the address of its eight bytes, not of its word (log 165). -/
theorem exec_registerWrite_core_wide (c : Fin 4) (a : BitVec 32) (be : BitVec 8) (v met : BitVec 64) (s : State) :
    exec (.registerWrite (.core c) a be true v met) s = .next (busWrite8 (.core c) (a.toNat - a.toNat % 8) be v met s).1 := rfl

/-- A word of control-core SRAM (09 Table 09-5). -/
def sramWord (a : Nat) (s : State) : Word := tabGet (fun _ => 0) s.fw.sram a

/-- Refutes O51: its clause on a core's write of eight bytes names the address of the word. With address 0x10000004 and the lower
four byte enables the model writes the SRAM word at 0x10000000, the clause the one at 0x10000004. -/
theorem not_registerAccesses : ¬ Obligations.RegisterAccesses := by
  unfold Obligations.RegisterAccesses
  rintro ⟨-, -, -, -, -, -, -, -, -, -, -, -, -, hwide, -⟩
  have hnext := hwide 0 0x10000004 0x0F 5 0 State.reset
  rw [exec_registerWrite_core_wide] at hnext
  have hword := congrArg (sramWord 0x10000004) (Host.Outcome.next.inj hnext)
  exact absurd hword (by decide)

/-! ## Frames -/

theorem same_of_only {l : List Part} {s t : State} (h : Only l s t) (p : Part) (hp : p ∉ l) : p.same s t := h.2 p hp

theorem ds_of_only {l : List Part} {s t : State} (h : Only l s t) (hstore : .store ∉ l) (hmem : .mem ∉ l) (hnand : .nand ∉ l) :
    t.ds = s.ds := by
  have hm : t.ds.mem = s.ds.mem := same_of_only h .mem hmem
  have hn : t.ds.nand = s.ds.nand := same_of_only h .nand hnand
  calc t.ds = { t.ds with mem := s.ds.mem, nand := s.ds.nand } := by rw [← hm, ← hn]
    _ = s.ds := congrArg (fun d : Store => { d with mem := s.ds.mem, nand := s.ds.nand }) (same_of_only h .store hstore)

/-- A part outside the mask of an operation is as it was. -/
theorem ritems_of_keeps {w : Nat} {s t : State} (h : Keeps w s t) (hw : w.testBit 26 = false) : t.ritems = s.ritems := h.same .ritems hw

/-! ## Windows -/

theorem doIf_set_deferred (b : Bool) (f : Field) (v : Nat) (s : State) : (doIf b (·.set f v) s).deferred = s.deferred := by
  cases b <;> rfl

theorem winAttrWrite_deferred (c w : Nat) (v : Word) (s : State) :
    (winAttrWrite c w v s).deferred = s.deferred ++ [.winAttr c w v] := by
  simp [winAttrWrite, doIf_set_deferred]

theorem winEnable_off {c w : Nat} {s : State} (h : s.winOn c w = false) :
    winEnable c w s = { s with deferred := s.deferred ++ [.winMap c w] } := by
  simp [winEnable, h]

/-! ## Routed items that leave -/

/-- Without ATS a function whose memory requests are open has its way to the host (04 R86, R95). -/
theorem hostWay_go {c : Nat} {s : State} (ho : s.hostOpen c = true) (hats : (s.fn c).atsEn = false) (who : AtsFor) (addr n : Nat)
    (wr : Bool) : hostWay who c addr n wr s = (s, .go) := by
  have hnone : ((pagesOf addr n).find? fun p => (xlate s c (p * 4096) wr).isNone) = none := by simp [xlate, hats]
  simp [hostWay, ho, hats, hnone]

theorem deliverWay_go {r : RItem} {s : State} (ho : s.hostOpen (routeCtx r.route) = true)
    (hats : (s.fn (routeCtx r.route)).atsEn = false) : deliverWay r s = (s, .go) := by
  simp [deliverWay, hostWay_go ho hats]

theorem deliver_ritems (r : RItem) (s : State) : (deliver r s).ritems = s.ritems :=
  ritems_of_keeps (keeps_deliver (w := 0x10200AD3AB) r rfl (keeps_refl _ s)) rfl

theorem updBuf_ritems (p : Nat) (s : State) : (updBuf p s).ritems = s.ritems :=
  ritems_of_keeps (keeps_updBuf (w := 0x8) p rfl (keeps_refl _ s)) rfl

theorem countDrop_ritems (p cause kind ident route : Nat) (s : State) : (countDrop p cause kind ident route s).ritems = s.ritems :=
  ritems_of_keeps (keeps_countDrop (w := 0x80008) p cause kind ident route rfl (keeps_refl _ s)) rfl

theorem dropRItem_ritems (r : RItem) (s : State) : (dropRItem r s).ritems = s.ritems.filter fun x => x.id != r.id := by
  simp [dropRItem, dropItems, updBuf_ritems]

theorem exec_routedItemDelivery_go {p : Fin 4} {r : RItem} {s : State}
    (hr : (s.ritems.find? fun r => r.port == p.val && !routePeer r.route) = some r) (ht : r.tested = true)
    (hm : routedMoved s r = true) (hres : (s.qp (routeCtx r.route) (routeQp r.route)).resv.head? = some r.id)
    (ho : s.hostOpen (routeCtx r.route) = true) (hats : (s.fn (routeCtx r.route)).atsEn = false)
    (hu : upWritesIssued s p r.id = true) :
    exec (.routedItemDelivery p) s =
      .next (updBuf p { deliver r s with ritems := (deliver r s).ritems.filter fun x => x.id != r.id }) := by
  change execRoutedItemDelivery p s = _
  simp [execRoutedItemDelivery, hr, ht, hm, hres, hu, deliverWay_go ho hats, done]

theorem exec_routedItemPeerSend_noRoute {p : Fin 4} {r : RItem} {s : State}
    (hr : (s.ritems.find? fun r => r.port == p.val) = some r) (hp : routePeer r.route = true) (hrd : r.ready = true)
    (hu : upWritesIssued s p r.id = true) (hroute : s.route (routeMember r.route) = none) :
    exec (.routedItemPeerSend p) s = .next (dropRItem r (countDrop p 7 r.kind r.ident r.route s)) := by
  change execRoutedItemPeerSend p s = _
  simp [execRoutedItemPeerSend, hr, hp, hrd, hu, hroute, done]

/-- Settles O60: each row runs within the parts named for it; what it does to the parts it may change is computed. -/
theorem windowAndRouteWritesKeepTheirFrame : Obligations.WindowAndRouteWritesKeepTheirFrame := by
  unfold Obligations.WindowAndRouteWritesKeepTheirFrame
  refine ⟨?winMap, ?winUnmap, ?winAttr, ?route, ?deliver, ?peer, ?read, ?write, ?timeout⟩
  case winMap =>
    intro c w s hoff
    refine ⟨winEnable c w s, rfl, ?_⟩
    simp [winEnable_off hoff]
  case winUnmap =>
    intro c w s
    refine ⟨_, rfl, rfl, rfl, rfl, rfl, ?_⟩
    simp
  case winAttr =>
    intro c w v s
    refine ⟨winAttrWrite c w v s, rfl, ?_⟩
    have ho : Only [.regs, .deferred] s (winAttrWrite c w v s) := only_of_exec (i := .winAttrWrite c w v) rfl
    exact ⟨same_of_only ho .lbs (by decide), same_of_only ho .cad (by decide), ds_of_only ho (by decide) (by decide) (by decide),
      same_of_only ho .out (by decide), by simp [winAttrWrite_deferred]⟩
  case route =>
    intro i v s
    obtain ⟨t, ht⟩ := answers_exec (.routeEntryWrite (.msg i) v) s
    have ho : Only [.regs, .deferred] s t := only_of_exec ht
    exact ⟨t, ht, same_of_only ho .lbs (by decide), same_of_only ho .cad (by decide), ds_of_only ho (by decide) (by decide) (by decide),
      same_of_only ho .out (by decide), same_of_only ho .ritems (by decide)⟩
  case deliver =>
    intro p r s hr ht hm hres hopen hats hu
    have hx := exec_routedItemDelivery_go hr ht hm hres hopen hats hu
    have ho : Only (raised ++ [.qps, .ritems]) s _ := only_of_exec hx
    exact ⟨_, hx, by rw [updBuf_ritems, deliver_ritems], ds_of_only ho (by decide) (by decide) (by decide),
      same_of_only ho .fuses (by decide)⟩
  case peer =>
    intro p r s hr hp hrd hu hroute
    have hx := exec_routedItemPeerSend_noRoute hr hp hrd hu hroute
    have ho : Only [.regs, .ul, .qps, .cad, .ritems] s _ := only_of_exec hx
    exact ⟨_, hx, by rw [dropRItem_ritems, countDrop_ritems], ds_of_only ho (by decide) (by decide) (by decide),
      same_of_only ho .fuses (by decide)⟩
  case read =>
    intro c a be v s u h
    obtain ⟨o, ho⟩ := readAnswer_core (enabledBytes_length_le (be.toNat % 16) (leBytes 4 v.toNat)) c u
    refine ⟨emit o u, ?_, rfl, rfl, rfl, rfl⟩
    rw [exec_registerRead_core, regServe_core_ok be h, ho]
  case write =>
    intro c a be v met s hbe
    refine ⟨s, ?_, rfl, rfl, rfl⟩
    rw [exec_registerWrite_core, putRegister_part hbe]
  case timeout =>
    intro c a s hin hm
    have hx := exec_registerAnswerTimeout_core c a false s
    rw [hungAccess_core_read hin hm] at hx
    have ho : Only (raised ++ [.flt, .cad]) s _ := only_of_exec hx
    exact ⟨_, hx, rfl, ds_of_only ho (by decide) (by decide) (by decide), same_of_only ho .fuses (by decide)⟩

end Sys2Proof.Machine
end

section
/-! The signals of Table 02-3 at a cold power-on reset (02 R18, R33; 03 R51): a statement of 02_package_electrical.md. -/
namespace Sys2Proof.Machine

theorem exec_coldPowerOnReset (s : State) : exec .coldPowerOnReset s = .next (coldReset s) := rfl

@[simp] theorem coldReset_dev (s : State) : (coldReset s).dev = {} := rfl

/-- A cold power-on reset leaves each register but DS_CFG, whose unit and capacity NAND keeps, at its reset value. -/
theorem coldReset_regsOnly (s : State) : RegsOnly [Adr.DS_CFG] State.reset (coldReset s) :=
  regsOnly_set (regsOnly_set (regsOnly_eq (regsOnly_refl _ State.reset) rfl) _ (by decide)) _ (by decide)

theorem coldReset_get (s : State) {f : Field} (h : f.addr ≠ Adr.DS_CFG) : (coldReset s).get f = State.reset.get f :=
  regsOnly_get (coldReset_regsOnly s) (by simp [h])

/-- After a cold power-on reset LBn_RST_N stands at its reset level on the four ports of the package, which are what DEV holds a bit
for; the model's signal of any other number reads a released one. -/
theorem coldReset_drives_lbRstN (p : Nat) (s : State) : drives (coldReset s) (.lbRstN p) = if p < 4 then .low else .high := by
  have hbit : (0b1111#4).getLsbD p = decide (p < 4) := by
    by_cases hp : p < 4
    · interval_cases p <;> rfl
    · simp [hp, BitVec.getLsbD_of_ge _ _ (Nat.not_lt.mp hp)]
  by_cases hp : p < 4 <;> simp [drives, resetLevel, hbit, hp]

/-- Refutes O58: its first clause takes the signals of a local bus port of every number, and the package has four (02 Table 02-3). For
port 4 the model has no reset bit, so that it reads LB4_RST_N high after the reset, where the table's level is low. -/
theorem not_outputsInReset : ¬ Obligations.OutputsInReset := by
  unfold Obligations.OutputsInReset
  rintro ⟨hcold, -⟩
  obtain ⟨t, ht, hlevel⟩ := hcold (.lbRstN 4) State.reset
  rw [exec_coldPowerOnReset] at ht
  cases ht
  rw [coldReset_drives_lbRstN] at hlevel
  exact absurd hlevel (by decide)

/-! ## The signals that the package has -/

/-- The Ulirin link or local bus port of a signal; 0 for the signals of neither. -/
def Ball.port : Ball → Nat
  | .ulTx k | .ulRx k => k
  | .lbTxd p | .lbTxp p | .lbTxf p | .lbTxsP p | .lbTxsN p | .lbRstN p | .lbRx p | .lbLint p => p
  | _ => 0

theorem coldReset_ulState {k : Nat} (hk : k < 4) (s : State) : (coldReset s).ulState k = 0 := by
  rw [State.ulState, coldReset_get s (show 0x600004 + 65536 * k ≠ 0x480000 by omega)]
  interval_cases k <;> decide

theorem coldReset_lbState {p : Nat} (hp : p < 4) (s : State) : (coldReset s).lbState p = 0 := by
  rw [State.lbState, coldReset_get s (show 0x300004 + 65536 * p ≠ 0x480000 by omega)]
  interval_cases p <;> decide

theorem coldReset_ddrUp (n : Nat) (s : State) : ddrUp (coldReset s) n = false := by
  unfold ddrUp State.isSet
  split <;> rw [coldReset_get s (by decide)] <;> decide

theorem coldReset_stage (s : State) : (coldReset s).get Fld.DEV_BOOT_STAGE = 0 := by
  rw [coldReset_get s (by decide)]
  decide

theorem coldReset_bcIrq (s : State) : bcIrq (coldReset s) = false := by
  have hmode : (coldReset s).mode = .boot := by
    rw [State.mode, coldReset_get s (by decide)]
    decide
  have hattn : (coldReset s).word Adr.MBX_BC_ATTN = 0 := (coldReset_regsOnly s Adr.MBX_BC_ATTN (by decide)).trans (by decide)
  have hfail : (coldReset s).isSet Fld.MBX_BC_ATTN_BOOT_FAIL = false := by
    rw [State.isSet, coldReset_get s (by decide)]
    decide
  simp [bcIrq, hmode, hattn, hfail]

/-- What O58's first clause says does hold of the package (02 R18): it fails only at numbers that no link or port has. -/
theorem coldReset_drives {b : Ball} (hb : b.port < 4) (s : State) : drives (coldReset s) b = resetLevel b := by
  cases b with
  | hlTx | hlRx | hlClkreqN => simp [drives, hlEnabled]
  | hlWakeN | thermTripN | vid => simp [drives, resetLevel]
  | ulTx k | ulRx k => simp [drives, coldReset_ulState (show k < 4 from hb)]
  | lbTxd p | lbTxp p | lbTxf p | lbTxsP p | lbTxsN p | lbRx p => simp [drives, coldReset_lbState (show p < 4 from hb)]
  | lbRstN p => exact (coldReset_drives_lbRstN p s).trans (if_pos hb)
  | ddrDq | ddrDqs | ddrCa | ddrCsN | ddrCkP | ddrCkN | ddrResetN => simp [drives, coldReset_ddrUp]
  | nfDq | nfDqs | nfReP | nfReN | nfWeN | nfCle | nfAle | nfCeN =>
    simp [drives, coldReset_stage]
  | bcIrqN => simp [drives, coldReset_bcIrq]
  | _ => rfl

end Sys2Proof.Machine
end

section
/-! FUSE_QUERY and FUSE_PROGRAM (16 R407; 19 R461) and the SMBus target of the board controller (02 R30; 16 R413, R414): a statement of
02_package_electrical.md. -/
namespace Sys2Proof.Machine

/-! ## Commands that a core takes -/

/-- A command that runs to its end in one row, where a core takes it. -/
theorem runCmd_taken {mb core op : Nat} {f : Cmd → State → State × Nat × List Byte} {x : Cmd} {s : State}
    (h : mayTake s mb core op = some x) :
    runCmd mb core op f s =
      .next (cmdDone x.id (f x (takeCmd x core s)).2.1 (f x (takeCmd x core s)).2.2 (f x (takeCmd x core s)).1) := by
  simp [runCmd, h, done]

/-- A command that ends in a later row, where a core takes it. -/
theorem startCmd_taken {mb core op : Nat} {f : Cmd → State → State} {x : Cmd} {s : State} (h : mayTake s mb core op = some x) :
    startCmd mb core op f s = .next (f x (takeCmd x core s)) := by
  simp [startCmd, h, done]

/-! ## FUSE_QUERY and the start of FUSE_PROGRAM -/

theorem exec_fuseQuery_taken {mb : Fin 1032} {core : Fin 4} {x : Cmd} {s : State} (h : mayTake s mb core 0x0601 = some x) :
    exec (.fuseQuery mb core) s =
      .next (let u := takeCmd x core s
        cmdDone x.id 0 (leBytes 2 (Config.fuseBitmap u.fuses.marks).toNat ++ leBytes 2 0 ++ leBytes 4 u.fuses.subsys.toNat ++
          ((List.range 16).flatMap (regionLoaded u)) ++ leBytes 4 u.fuses.policy.toNat ++ wordBytes u Adr.PEL_IDENT_LO ++
          wordBytes u Adr.PEL_IDENT_HI) u) := by
  change execFuseQuery mb core s = _
  rw [execFuseQuery, runCmd_taken h]

theorem exec_fuseProgram_taken {mb : Fin 1032} {core : Fin 4} {x : Cmd} {s : State} (en vdd lapse bad : Bool) (got : BitVec 128)
    (h : mayTake s mb core 0x0602 = some x) :
    exec (.fuseProgram mb core en vdd lapse bad got) s = .next (fuseStart en vdd lapse bad got x (takeCmd x core s)) :=
  startCmd_taken h

/-- DBG_FUSE_STAT shows the two supplies as FUSE_PROGRAM found them. -/
def fusePins (en vdd : Bool) (s : State) : State :=
  (s.set Fld.DBG_FUSE_STAT_FUSE_EN en.toNat).set Fld.DBG_FUSE_STAT_VDD_OK vdd.toNat

/-- A field that is already marked as programmed is denied. -/
theorem fuseStart_marked {en vdd : Bool} {x : Cmd} {s u : State} (lapse bad : Bool) (got : BitVec 128) (hu : u = fusePins en vdd s)
    (hm : u.fuses.marks.contains (fuseField x.args) = true) : fuseStart en vdd lapse bad got x s = cmdDone x.id 2 [] u := by
  subst hu
  exact if_pos (Or.inl hm)

/-- FUSE_PROGRAM asks for nothing that is denied: the field is not marked, no region entry is named, and no bit is cleared. -/
structure FuseOpen (x : Cmd) (s : State) : Prop where
  unmarked : s.fuses.marks.contains (fuseField x.args) = false
  notRegion : leAt x.args 0 1 ≠ 2
  keepsBits : fuseClears (fuseHeld s x.args) (sliceBytes x.args 8 (fuseSize (leAt x.args 0 1))) = false

theorem FuseOpen.not_denied {x : Cmd} {s : State} (h : FuseOpen x s) :
    ¬ (s.fuses.marks.contains (fuseField x.args) = true ∨ (leAt x.args 0 1 = 2 ∧ leAt x.args 1 1 < 2) ∨
      fuseClears (fuseHeld s x.args) (sliceBytes x.args 8 (fuseSize (leAt x.args 0 1))) = true) := by
  rintro (hm | ⟨hr, -⟩ | hc)
  · exact Bool.eq_false_iff.mp h.unmarked hm
  · exact h.notRegion hr
  · exact Bool.eq_false_iff.mp h.keepsBits hc

/-- Without FUSE_EN programming ends at once with RESULT 2. -/
theorem fuseStart_unready {x : Cmd} {s u : State} (vdd lapse bad : Bool) (got : BitVec 128) (hu : u = fusePins false vdd s)
    (h : FuseOpen x u) : fuseStart false vdd lapse bad got x s = cmdDone x.id 9 [] (u.set Fld.DBG_FUSE_STAT_RESULT 2) := by
  subst hu
  exact (if_neg h.not_denied).trans (if_pos Bool.false_ne_true)

/-- With its conditions programming begins, and ends at a boundary. -/
theorem fuseStart_ready {x : Cmd} {s u : State} (lapse bad : Bool) (got : BitVec 128) (hu : u = fusePins true true s)
    (h : FuseOpen x u) (hready : fuseReady u = true) :
    fuseStart true true lapse bad got x s = atBoundary (.fuse x.id lapse bad got) (u.set Fld.DBG_FUSE_STAT_BUSY 1) := by
  subst hu
  have hgo : (true && true && fuseReady (fusePins true true s)) = true := by rw [hready]; rfl
  exact (if_neg h.not_denied).trans (if_neg (not_not_intro hgo))

/-! ## The end of programming -/

theorem get_hottest_lt (s : State) : s.get Fld.CRP_TEMP_MAX_HOTTEST < 8 := Nat.mod_lt _ (by decide)

/-- The conditions that the device shows do not rest on DBG_FUSE_STAT. -/
theorem fuseReady_setBusy (v : Nat) (s : State) : fuseReady (s.set Fld.DBG_FUSE_STAT_BUSY v) = fuseReady s := by
  have hhot := get_hottest_lt s
  have hapart : Fld.DBG_FUSE_STAT_BUSY.Apart (Fld.CRP_TEMP_TEMP (s.get Fld.CRP_TEMP_MAX_HOTTEST)) :=
    ⟨⟨by decide, by decide, Nat.zero_le _⟩, Or.inl (show 0x110020 + 4 * _ ≠ 0x7E0014 by omega)⟩
  unfold fuseReady State.level
  rw [get_set_apart _ _ Fld.CRP_TEMP_MAX_HOTTEST _ (by decide), get_set_apart _ _ _ _ hapart,
    mode_set_apart _ _ _ (by decide), get_set_apart _ _ Fld.CAD_STATUS_LEVEL _ (by decide)]

@[simp] theorem set_cmdId (s : State) (f : Field) (v id : Nat) : (s.set f v).cmdId id = s.cmdId id := by
  unfold State.cmdId
  rw [set_cmds]

/-- Programming that nothing disturbs ends well. -/
theorem fuseEnd_whole {id : Nat} {x : Cmd} {s : State} (got : BitVec 128) (hx : s.cmdId id = some x) (hready : fuseReady s = true) :
    fuseEnd id false false got s = fuseWhole x (s.set Fld.DBG_FUSE_STAT_BUSY 0) := by
  simp [fuseEnd, hx, fuseReady_setBusy, hready]

/-- A condition that lapsed leaves programming in part. -/
theorem fuseEnd_lapsed {id : Nat} {x : Cmd} {s : State} (bad : Bool) (got : BitVec 128) (hx : s.cmdId id = some x) :
    fuseEnd id true bad got s = fusePartly x true got (s.set Fld.DBG_FUSE_STAT_BUSY 0) := by
  simp [fuseEnd, hx]

@[simp] theorem cmdDone_fuses (id code : Nat) (res : List Byte) (s : State) : (cmdDone id code res s).fuses = s.fuses :=
  (keeps_cmdDone (w := 0x103082D3AB) id code res rfl (keeps_refl _ s)).same .fuses rfl

/-- The bits of a field are written without its mark. -/
@[simp] theorem fuseWrite_marks (args v : List Byte) (s : State) : (fuseWrite args v s).fuses.marks = s.fuses.marks := by
  unfold fuseWrite
  dsimp only [State.fuseUpd]
  split <;> rfl

theorem fusePartly_marks (x : Cmd) (lapse : Bool) (got : BitVec 128) (s : State) :
    (fusePartly x lapse got s).fuses.marks = s.fuses.marks := by
  simp [fusePartly]

/-! ## SMBus -/

/-- A transaction at the device's address is performed while the target serves (16 R414). -/
theorem smb_open {dev : BitVec 7} {s : State} (r : SmbReq) (hdev : dev.toNat = smbAddr s) (ho : SmbOpen s) :
    smb dev r s = smbRun r s := by
  obtain ⟨hticks, hrst, hmode, hheld, hrest⟩ := ho
  simp [smb, hdev, Nat.not_lt.mpr hticks, hrst, hmode, hheld, hrest]

/-- At another address, before 1 ms has passed and in PRESERVE nothing happens. -/
theorem smb_silent {dev : BitVec 7} {s : State} (r : SmbReq) (h : s.mode = .preserve ∨ dev.toNat ≠ smbAddr s ∨ s.dev.relTicks < 2000) :
    smb dev r s = s := by
  refine if_pos ?_
  tauto

/-- In Rest the address match alone is seen. -/
theorem smb_resting {dev : BitVec 7} {s : State} (r : SmbReq) (hdev : dev.toNat = smbAddr s) (hticks : 2000 ≤ s.dev.relTicks)
    (hrst : s.dev.sysRst = false) (hmode : s.mode ≠ .preserve) (hheld : s.pwr.smbHeld = none) (hrest : s.restGated = true) :
    smb dev r s = smbMatch r s := by
  simp [smb, hdev, Nat.not_lt.mpr hticks, hrst, hmode, hheld, hrest]

theorem smbServe_held {r : SmbReq} {s : State} (hheld : s.pwr.smbHeld = some r) (hrest : s.restGated = false) :
    smbServe s = smbRun r (s.pwrUpd fun p => { p with smbHeld := none }) := by
  simp [smbServe, hheld, hrest]

/-- A write whose PEC is correct, or not asked for, is performed. -/
theorem smbWrite_taken {pec : Bool} {s : State} (f : State → State) (h : s.isSet Fld.MBX_SMB_CFG_PEC_REQ = false ∨ pec = true) :
    smbWrite pec f s = f s := by
  rcases h with h | h <;> simp [smbWrite, h]

/-- A write without a correct PEC is counted alone while PEC_REQ is 1. -/
theorem smbWrite_noPec {s : State} (f : State → State) (h : s.isSet Fld.MBX_SMB_CFG_PEC_REQ = true) :
    smbWrite false f s = s.inc Fld.MBX_SMB_CNT_PEC_ERR 1 := by
  simp [smbWrite, h]

@[simp] theorem smbCount_ok (v : Word) (s : State) : smbCount (.ok v) s = s := rfl

theorem smbRegRead_answers {a v : Word} {s u : State} (h : busRead .bc (a.toNat - a.toNat % 4) s = (u, .ok v)) :
    ∃ pec, smbRegRead a s = emit (.smb 0 (leBytes 4 v.toNat) pec) u := by
  simp only [smbRegRead, h, smbCount_ok]
  exact ⟨_, rfl⟩

theorem smbRegWrite_answers {a v r : Word} {s u : State} (h : busWrite .bc (a.toNat - a.toNat % 4) v.toNat s = (u, .ok r)) :
    ∃ pec, smbRegWrite a v s = emit (.smb 0 [] pec) u := by
  simp only [smbRegWrite, h, smbCount_ok]
  exact ⟨_, rfl⟩

theorem smbMbxRead_answers (off len : Nat) (s : State) :
    ∃ pec, smbMbxRead off len s = emit (.smb 0 ((List.range len).map fun i => byteAt s (mbxBase 4 + off + i)) pec) s := ⟨_, rfl⟩

theorem smbAttn_answers (s : State) : ∃ pec, smbAttn s = emit (.smb 0 (leBytes 2 (s.word 0x788010).toNat) pec) s := ⟨_, rfl⟩

theorem smbMbxWrite_whole {off : Nat} {data : List Byte} {s u : State}
    (h : smbFill 4 ((List.range (data.length / 4)).map fun i => (off + 4 * i, leAt data (4 * i) 4)) false s = (u, false)) :
    smbMbxWrite off data s = u := by
  simp [smbMbxWrite, h]

theorem exec_smbRegRead (dev : BitVec 7) (a : BitVec 32) (s : State) : exec (.smbRegRead dev a) s = .next (smb dev (.regRead a) s) := rfl

theorem exec_smbRegWrite (dev : BitVec 7) (pec : Bool) (a v : BitVec 32) (s : State) :
    exec (.smbRegWrite dev pec a v) s = .next (smb dev (.regWrite pec a v) s) := rfl

theorem exec_smbMbxWrite (dev : BitVec 7) (pec : Bool) (off : Fin 4096) (data : List (BitVec 8)) (s : State) :
    exec (.smbMbxWrite dev pec off data) s = .next (smb dev (.mbxWrite pec off data) s) := rfl

theorem exec_smbMbxRead (dev : BitVec 7) (off : Fin 4096) (len : Fin 256) (s : State) :
    exec (.smbMbxRead dev off len) s = .next (smb dev (.mbxRead off len) s) := rfl

theorem exec_smbAttn (dev : BitVec 7) (s : State) : exec (.smbAttn dev) s = .next (smb dev .attn s) := rfl

/-- An answer on SMBus that leaves a state changes nothing else of it. -/
theorem runs_answer {i : Instr} {status : Nat} {data : List Byte} {pec : Byte} {s u : State}
    (h : exec i s = .next (emit (.smb status data pec) u)) :
    Runs i s fun t => t = { u with out := t.out } ∧ ∃ pec, t.out = .smb status data pec :: u.out :=
  ⟨_, h, rfl, pec, rfl⟩

/-- Settles O48: each row's equation, where a core takes the command or the target serves the transaction. -/
theorem fuseCommandsAndSmbus : Obligations.FuseCommandsAndSmbus := by
  unfold Obligations.FuseCommandsAndSmbus
  refine ⟨?query, ?denied, ?unready, ?begins, ?ends, ?lapses, ?mbxRead, ?attn, ?regRead, ?regWrite, ?regNoPec, ?mbxNoPec, ?mbxWrite,
    ?silentReads, ?silentRegs, ?rest, ?served⟩
  case query =>
    rintro mb core x s _ h rfl
    exact exec_fuseQuery_taken h
  case denied =>
    intro mb core en vdd lapse bad got x s u h hu hm
    rw [exec_fuseProgram_taken en vdd lapse bad got h, fuseStart_marked lapse bad got hu hm]
  case unready =>
    intro mb core lapse bad got x s u h hu hm hr hc
    rw [exec_fuseProgram_taken false true lapse bad got h, fuseStart_unready true lapse bad got hu ⟨hm, hr, hc⟩]
  case begins =>
    intro mb core lapse bad got x s u h hu hm hr hc hready
    rw [exec_fuseProgram_taken true true lapse bad got h, fuseStart_ready lapse bad got hu ⟨hm, hr, hc⟩ hready,
      atBoundary, set_deferred]
  case ends =>
    rintro id got x s _ _ hx hready rfl rfl
    exact fuseEnd_whole got hx hready
  case lapses =>
    intro id bad got x s hx
    rw [fuseEnd_lapsed bad got hx, fusePartly_marks, set_fuses]
  case mbxRead =>
    intro dev off len s hdev ho
    obtain ⟨pec, ha⟩ := smbMbxRead_answers off len s
    exact runs_answer (by rw [exec_smbMbxRead, smb_open _ hdev ho, smbRun, ha])
  case attn =>
    intro dev s hdev ho
    obtain ⟨pec, ha⟩ := smbAttn_answers s
    exact runs_answer (by rw [exec_smbAttn, smb_open _ hdev ho, smbRun, ha])
  case regRead =>
    intro dev a v s u hdev ho hr
    obtain ⟨pec, ha⟩ := smbRegRead_answers hr
    exact runs_answer (by rw [exec_smbRegRead, smb_open _ hdev ho, smbRun, ha])
  case regWrite =>
    intro dev pec a v r s u hdev ho hpec hw
    obtain ⟨p, ha⟩ := smbRegWrite_answers hw
    exact runs_answer (by rw [exec_smbRegWrite, smb_open _ hdev ho, smbRun, smbWrite_taken _ hpec, ha])
  case regNoPec =>
    intro dev a v s hdev ho hreq
    rw [exec_smbRegWrite, smb_open _ hdev ho, smbRun, smbWrite_noPec _ hreq]
  case mbxNoPec =>
    intro dev off data s hdev ho hreq
    rw [exec_smbMbxWrite, smb_open _ hdev ho, smbRun, smbWrite_noPec _ hreq]
  case mbxWrite =>
    intro dev pec off data s u hdev ho hpec hw
    rw [exec_smbMbxWrite, smb_open _ hdev ho, smbRun, smbWrite_taken _ hpec, smbMbxWrite_whole hw]
  case silentReads =>
    intro dev off len s h
    exact ⟨congrArg _ (smb_silent _ h), congrArg _ (smb_silent _ h)⟩
  case silentRegs =>
    intro dev a pec v s h
    exact ⟨congrArg _ (smb_silent _ h), congrArg _ (smb_silent _ h)⟩
  case rest =>
    intro dev s hdev hticks hrst hmode hheld hrest
    exact congrArg _ (smb_resting _ hdev hticks hrst hmode hheld hrest)
  case served =>
    intro r s hheld hrest
    exact smbServe_held hheld hrest

end Sys2Proof.Machine
end

section
/-! The boot steps (03 R50, R54 to R56): a statement of 02_package_electrical.md. -/
namespace Sys2Proof.Machine

/-! ## What the boot rows keep -/

theorem fuses_nand_of_only {l : List Part} {s t : State} (h : Only l s t) (hfuses : .fuses ∉ l) (hnand : .nand ∉ l) :
    t.fuses = s.fuses ∧ t.ds.nand = s.ds.nand :=
  ⟨same_of_only h .fuses hfuses, same_of_only h .nand hnand⟩

theorem now_of_only {l : List Part} {s t : State} (h : Only l s t) (hnow : .now ∉ l) : t.now = s.now := same_of_only h .now hnow

/-! ## The start of the ROM -/

/-- Loading the region entries of the fuses changes nothing of the device-wide state. -/
theorem dev_doAll_loadRegion (l : List Nat) (s : State) : (doAll l loadRegion s).dev = s.dev :=
  (keeps_doAll (w := 0x8) l loadRegion (fun i _ h => keeps_loadRegion i rfl h) (keeps_refl _ s)).same .dev rfl

@[simp] theorem dev_aloneRegs (why : Nat) (s : State) : (aloneRegs why s).dev = s.dev :=
  (keeps_aloneRegs (w := 0x8) why rfl (keeps_refl _ s)).same .dev rfl

/-- A stand-alone device's registers are those of the peloton. -/
theorem aloneRegs_stage (why : Nat) (s : State) : (aloneRegs why s).get Fld.DEV_BOOT_STAGE = s.get Fld.DEV_BOOT_STAGE := by
  have hl : RegsOnly [Adr.PEL_STATUS, Adr.PEL_VIEW, Adr.PEL_ROUTE] s (aloneRegs why s) := by
    unfold aloneRegs
    refine regsOnly_setWord (regsOnly_set (regsOnly_set (regsOnly_set (regsOnly_set (regsOnly_set (regsOnly_set
      (regsOnly_refl _ s) _ ?_) _ ?_) _ ?_) _ ?_) _ ?_) _ ?_) _ ?_ <;> decide
  exact regsOnly_get hl (by decide)

theorem romStart_stage (s : State) : (romStart s).get Fld.DEV_BOOT_STAGE = 1 := by
  unfold romStart
  extract_lets straps why id t
  have ht : t.get Fld.DEV_BOOT_STAGE = 1 := by
    simp only [t, tapUpd_get]
    exact get_set_same _ Fld.DEV_BOOT_STAGE 1 (by decide)
  clear_value t why
  cases why with
  | some w => exact (aloneRegs_stage w t).trans ht
  | none =>
    dsimp only
    rw [get_set_apart _ Fld.PEL_STATUS_LEADER _ _ (by decide), get_set_apart _ Fld.PEL_STATUS_MEMBER _ _ (by decide),
      get_set_apart _ Fld.PEL_STATUS_STATE _ _ (by decide), ht]

/-- The ROM leaves SYS_RST_N as it stands. -/
theorem romStart_sysRst (s : State) : (romStart s).dev.sysRst = s.dev.sysRst := by
  unfold romStart
  extract_lets straps why id t
  have ht : t.dev.sysRst = s.dev.sysRst := by
    unfold t
    rw [tapUpd_dev, set_dev, setWord_dev, setWord_dev, setWord_dev, dev_doAll_loadRegion]
    iterate 6 rw [set_dev]
    rw [devUpd_dev]
  clear_value t why
  cases why with
  | some w =>
    dsimp only
    rw [dev_aloneRegs, ht]
  | none =>
    dsimp only
    rw [set_dev, set_dev, set_dev, ht]

/-! ## The rows where their conditions hold -/

theorem exec_sysRstNRelease {s : State} (straps : BitVec 8) (hrst : s.dev.sysRst = true) (hhalt : s.dev.rstAtHalt = false) :
    exec (.sysRstNRelease straps) s =
      .next (romStart (s.devUpd fun d => { d with sysRst := false, straps := straps, supplies := true, relTicks := 0 })) := by
  change execSysRstNRelease straps s = _
  simp [execSysRstNRelease, hrst, hhalt, done]

/-- The strokes count: what the SYS PLL's lock makes of the state before its sources are raised (03 R50). -/
def strokesStarted (s : State) : State :=
  ({ s with now := 0 }.devUpd (fun d => { d with counting := true }) |> pllsLock).pelUpd fun p => { p with since := 0 }

theorem exec_sysPllLock {s : State} (hrom : s.dev.rom = true) (hcount : s.dev.counting = false) :
    exec .sysPllLock s = .next (strokesStarted s |> doIf s.standAlone (raise 11)
      |> doIf (s.isSet Fld.ACC_STATUS_FUSE_BAD) (raise 272)) := by
  change execSysPllLock s = _
  simp [execSysPllLock, hrom, hcount, done, strokesStarted]

theorem exec_bootCopyAccepted {unread mute : BitVec 4} {k : Nat} {s : State} (ht : trying s = true)
    (hk : firstGood unread mute s = some k) : exec (.bootCopyAccepted unread mute) s = .next (bootCopy unread mute k s) := by
  change execBootCopyAccepted unread mute s = _
  simp [execBootCopyAccepted, ht, hk, done]

/-- The ROM gives up: every copy is rejected (03 R56). -/
def bootRejected (unread mute : BitVec 4) (s : State) : State :=
  s |>.set Fld.DEV_BOOT_STAGE 0xF |>.set Fld.DEV_BOOT_FAILED 0xF |>.set Fld.DEV_BOOT_ERR (copyFault unread mute s 3)
    |> bcAttn Fld.MBX_BC_ATTN_BOOT_FAIL

theorem exec_bootNoCopyAccepted {unread mute : BitVec 4} {s : State} (ht : trying s = true)
    (hn : firstGood unread mute s = none) : exec (.bootNoCopyAccepted unread mute) s = .next (bootRejected unread mute s) := by
  change execBootNoCopyAccepted unread mute s = _
  simp [execBootNoCopyAccepted, ht, hn, done, bootRejected]

/-! ## STAGE after each row -/

theorem pllsLock_stage (s : State) : (pllsLock s).get Fld.DEV_BOOT_STAGE = s.get Fld.DEV_BOOT_STAGE := by
  have hl : RegsOnly [Fld.CRP_CLK_CPU_LOCK.addr] s (pllsLock s) := by
    unfold pllsLock
    refine regsOnly_set (regsOnly_set (regsOnly_set (regsOnly_set (regsOnly_set (regsOnly_refl _ s) _ ?_) _ ?_) _ ?_) _ ?_) _ ?_ <;>
      decide
  exact regsOnly_get hl (by decide)

theorem strokesStarted_stage (s : State) : (strokesStarted s).get Fld.DEV_BOOT_STAGE = s.get Fld.DEV_BOOT_STAGE := by
  unfold strokesStarted
  rw [pelUpd_get, pllsLock_stage, devUpd_get]
  rfl

theorem doIf_raise_stage (c : Bool) {n : Nat} (h : Fld.DEV_BOOT_STAGE.addr ∉ raiseRegs n) (s : State) :
    (doIf c (raise n) s).get Fld.DEV_BOOT_STAGE = s.get Fld.DEV_BOOT_STAGE := by
  cases c
  · rfl
  · exact get_raise n s _ h

/-- A source that no context event and no attention bit follows is its edge alone, which leaves the device-wide state. -/
theorem doIf_raise_dev (c : Bool) {n : Nat} (h : ∀ s, raise n s = raiseEdge n s) (s : State) : (doIf c (raise n) s).dev = s.dev := by
  cases c
  · rfl
  · rw [doIf_true, h]
    exact (keeps_raiseEdge (w := 0x102000C00B) n rfl (keeps_refl _ s)).same .dev rfl

@[simp] theorem get_addCause (c : ModeCause) (s : State) (f : Field) : (addCause c s).get f = s.get f := by
  unfold addCause
  split <;> rfl

theorem bootCopy_stage (unread mute : BitVec 4) (k : Nat) (s : State) : (bootCopy unread mute k s).get Fld.DEV_BOOT_STAGE = 4 := by
  unfold bootCopy
  rw [get_addCause, fwUpd_get, get_set_apart _ _ _ _ (by decide)]
  unfold State.get
  rw [word_setWord_ne _ _ (by decide)]
  change State.get _ _ = 4
  rw [get_set_apart _ _ _ _ (by decide), get_set_apart _ _ _ _ (by decide), get_set_apart _ _ _ _ (by decide)]
  exact get_set_same _ Fld.DEV_BOOT_STAGE 4 (by decide)

theorem bootRejected_stage (unread mute : BitVec 4) (s : State) : (bootRejected unread mute s).get Fld.DEV_BOOT_STAGE = 0xF := by
  unfold bootRejected bcAttn
  rw [get_set_apart _ _ _ _ (by decide), get_set_apart _ _ _ _ (by decide), get_set_apart _ _ _ _ (by decide)]
  exact get_set_same _ Fld.DEV_BOOT_STAGE 0xF (by decide)

/-- Settles O54: each row ends in a state of its own equation, and what its list of parts leaves out is unchanged. -/
theorem bootStepsKeepFusesAndMedia : Obligations.BootStepsKeepFusesAndMedia := by
  unfold Obligations.BootStepsKeepFusesAndMedia
  refine ⟨?release, ?lock, ?accepted, ?rejected⟩
  case release =>
    intro straps s hrst hhalt
    have hx := exec_sysRstNRelease straps hrst hhalt
    have ho : Only [.regs, .dev, .tap] s _ := only_of_exec hx
    obtain ⟨hfuses, hnand⟩ := fuses_nand_of_only ho (by decide) (by decide)
    exact ⟨_, hx, romStart_stage _, romStart_sysRst _, hfuses, hnand, now_of_only ho (by decide)⟩
  case lock =>
    intro s hrom hcount
    have hx := exec_sysPllLock hrom hcount
    have ho : Only (raised ++ [.now, .pel]) s _ := only_of_exec hx
    obtain ⟨hfuses, hnand⟩ := fuses_nand_of_only ho (by decide) (by decide)
    refine ⟨_, hx, ?counting, ?stage, hfuses, hnand⟩
    case counting =>
      rw [doIf_raise_dev _ (fun _ => rfl), doIf_raise_dev _ (fun _ => rfl)]
      rfl
    case stage =>
      rw [doIf_raise_stage _ (by decide), doIf_raise_stage _ (by decide), strokesStarted_stage]
  case accepted =>
    intro unread mute s ht hgood
    obtain ⟨k, hk⟩ := Option.ne_none_iff_exists'.mp hgood
    have hx := exec_bootCopyAccepted ht hk
    have ho : Only [.regs, .dev, .fw] s _ := only_of_exec hx
    obtain ⟨hfuses, hnand⟩ := fuses_nand_of_only ho (by decide) (by decide)
    exact ⟨_, hx, bootCopy_stage unread mute k s, hfuses, hnand, now_of_only ho (by decide)⟩
  case rejected =>
    intro unread mute s ht hnone
    have hx := exec_bootNoCopyAccepted ht hnone
    have ho : Only [.regs] s _ := only_of_exec hx
    obtain ⟨hfuses, hnand⟩ := fuses_nand_of_only ho (by decide) (by decide)
    exact ⟨_, hx, bootRejected_stage unread mute s, hfuses, hnand, now_of_only ho (by decide)⟩

end Sys2Proof.Machine
end

section

/-! The reset state (O3), and a transmitter whose stroke is full (O53). -/

namespace Sys2Proof.Machine

/-- Settles O3: the reset state lists nothing, and its fields are those of an empty State. -/
theorem resetStateIsCanonicalAndIdle : Obligations.ResetStateIsCanonicalAndIdle := by
  unfold Obligations.ResetStateIsCanonicalAndIdle
  exact ⟨⟨rfl, rfl, rfl⟩, by decide, rfl, rfl, rfl, rfl, rfl⟩

/-- A cell that link 0 holds until it is acknowledged. -/
def cellHeld : UCell := { seq := 5, vc := 0, off := 256, data := [], ends := [] }

/-- Link 0 in ACTIVE, with a cell to replay, after it has sent all the cells its stroke has room for. -/
def strokeFull : State :=
  (State.reset.set (Fld.UL_STATUS_STATE 0) 3).linkUpd 0 fun l => { l with held := [cellHeld], replay := [5], csent := 56 }

theorem execUlEgressUnit_strokeFull : execUlEgressUnit 0 strokeFull = .next strokeFull := by
  have hcarries : ulCarries strokeFull 0 = true := by decide
  have hlpm : strokeFull.get (Fld.UL_STATUS_LPM 0) = 0 := by decide
  have hroom : cellRoom strokeFull 0 ≤ (strokeFull.link 0).csent := by decide
  simp [execUlEgressUnit, done, hcarries, hlpm, hroom]

/-- Refutes O53: a link in ACTIVE that is to replay a cell, but whose stroke holds no further cell, sends nothing and
keeps the cell to replay; the clause on replayed cells has no condition on the cells already sent in the stroke. -/
theorem not_suppliesLinksAndTransmitter : ¬ Obligations.SuppliesLinksAndTransmitter := by
  unfold Obligations.SuppliesLinksAndTransmitter
  intro h
  obtain ⟨-, -, -, -, -, -, -, -, -, -, -, -, -, -, -, -, -, -, -, -, -, -, -, -, replayed, -⟩ := h
  obtain ⟨t, ht, hreplay, -⟩ := replayed 0 cellHeld [] strokeFull (by decide) (by decide) (by decide) (by decide)
  have hstays : t = strokeFull := by
    have hx : exec (.ulEgressUnit 0) strokeFull = .next strokeFull := execUlEgressUnit_strokeFull
    rw [hx] at ht
    injection ht with ht
    exact ht.symm
  rw [hstays] at hreplay
  exact absurd hreplay (by decide)

end Sys2Proof.Machine
end

section

/-! Mailboxes, their doorbells and watchdogs, and the device commands (O44). -/

namespace Sys2Proof.Machine

/-! ## A request of the host whose turn it is -/

theorem hostHeard_of_hostOpen {s : State} (h : HostOpen s) : hostHeard s = hostNoted s := by
  obtain ⟨-, -, -, hl1, -⟩ := h
  simp [hostHeard, hostNoted, leaveL1, hl1]

/-- A TLP that nothing stands in the way of has its effect at once. -/
theorem hostTlp_of_hostOpen {s : State} (h : HostOpen s) (c : Nat) (i : Instr) (f : State → State) :
    hostTlp c i f s = f (hostNoted s) := by
  have hheard := hostHeard_of_hostOpen h
  obtain ⟨hresting, hmode, hlink, -, hrx⟩ := h
  have hheld : restHeld s c = false := by simp [restHeld, hrx]
  simp [hostTlp, hresting, hmode, hlink, hheld, hheard]

theorem hostPosted_of_hostOpen {s : State} (h : HostOpen s) (hfull : s.ds.full = false) (c : Nat) (i : Instr) (f : State → State) :
    hostPosted c i f s = f (hostNoted s) := by
  simp [hostPosted, hfull, hostTlp_of_hostOpen h]

theorem hostBehind_hostNoted {s : State} {c : Nat} (h : HostTurn s c) : hostBehind (hostNoted s) c = false := by
  obtain ⟨⟨-, -, -, -, hrx⟩, hahead⟩ := h
  have hahead' : writesAhead (hostNoted s) c (hostNoted s).cad.nextId = false := hahead
  have hrx' : (hostNoted s).hl.rx = [] := hrx
  simp [hostBehind, hrx', hahead']

theorem inOrder_of_hostTurn {s : State} {c : Nat} (h : HostTurn s c) (t : Stroke) (i : Instr) (f : State → State) :
    inOrder c t i f (hostNoted s) = f (hostNoted s) := by
  simp [inOrder, hostBehind_hostNoted h]

/-- What has its effect in the stroke of its receipt has the stamps of its receipt. -/
theorem stampedAs_now {f : State → State} {s : State} (hf : (f s).now = s.now) : stampedAs s.now f s = f s := by
  have h : stampedAs s.now f s = { f s with now := s.now } := rfl
  rw [h, ← hf]

theorem mbxGo_now (mb : Nat) (s : State) : (mbxGo mb s).now = s.now :=
  (keeps_mbxGo (w := 0x103082D3AB) mb rfl (keeps_refl _ s)).same .now rfl

/-! ## The doorbell -/

theorem exec_mbxDoorbellGo_peer {mb : Fin 1032} {s : State} (h : mb.val = 5) : exec (.mbxDoorbellGo mb) s = .next (mbxGo mb s) := by
  change execMbxDoorbellGo mb s = _
  simp [execMbxDoorbellGo, done, mbxGoFrom, h]

theorem exec_mbxDoorbellGo_host {mb : Fin 1032} {s : State} (hmb : mb.val < 4 ∨ 8 ≤ mb.val) :
    exec (.mbxDoorbellGo mb) s =
      .next (hostPosted (mbxFn mb) (.mbxDoorbellGo mb) (inOrder (mbxFn mb) s.now (.mbxDoorbellGo mb) (mbxGoHost s.now mb)) s) := by
  change execMbxDoorbellGo mb s = _
  have h67 : ¬ (mb.val = 6 ∨ mb.val = 7) := by omega
  have h4 : mb.val ≠ 4 := by omega
  have h5 : mb.val ≠ 5 := by omega
  simp [execMbxDoorbellGo, done, mbxGoFrom, h67, h4, h5]

theorem exec_mbxDoorbellGo_hostTurn {mb : Fin 1032} {s : State} (hmb : mb.val < 4 ∨ 8 ≤ mb.val) (hturn : HostTurn s (mbxFn mb))
    (hfull : s.ds.full = false) (hfn : mb.val < 4 ∨ ((hostNoted s).fn (mbxCtx mb)).enabled = true) :
    exec (.mbxDoorbellGo mb) s = .next (mbxGo mb (hostNoted s)) := by
  have hgo : mbxGoHost s.now mb (hostNoted s) = mbxGo mb (hostNoted s) := by
    have hc : (decide (mb.val < 8) || ((hostNoted s).fn (mbxCtx mb)).enabled) = true := by
      rcases hfn with hlow | hen
      · simp; omega
      · simp [hen]
    unfold mbxGoHost
    rw [hc]
    exact stampedAs_now (mbxGo_now mb (hostNoted s))
  rw [exec_mbxDoorbellGo_host hmb, hostPosted_of_hostOpen hturn.1 hfull, inOrder_of_hostTurn hturn, hgo]

theorem mbxGo_preserve {mb : Nat} {s : State} (h : s.mode = .preserve) : mbxGo mb s = s := by simp [mbxGo, h]

theorem mbxGo_busy {mb : Nat} {s : State} (hmode : s.mode ≠ .preserve) (hbusy : mbxBusy s (mbxId mb) = true) :
    mbxGo mb s = s.set (mbxField (mbxId mb) 0x0C 6 6) 1 := by simp [mbxGo, hmode, hbusy]

theorem mbxGo_free {mb : Nat} {s : State} (hmode : s.mode ≠ .preserve) (hfree : mbxBusy s (mbxId mb) = false) :
    mbxGo mb s = powerWake (mbxId mb) (submit (mbxId mb) (raise (mbxSource (mbxId mb)) s)) := by simp [mbxGo, hmode, hfree]

/-! ## The end of a command of the board controller's mailbox -/

/-- The last writes of an end with TIMEOUT in the board controller's mailbox: after the status word only a counter and an attention
bit. -/
theorem mbxDone_bc_timeout (op : Nat) (stamp : Stroke) (s : State) :
    ∃ (u : State) (lo : Nat), mbxDone 4 op stamp 7 [] s = (((((u.set (mbxField 4 0x0C 23 16) 7).set (mbxField 4 0x18 31 0) lo).set (mbxState 4) 3).inc
      Fld.MBX_CNT_TIMEOUT 1).set Fld.MBX_BC_ATTN_MBX_DONE 1) := ⟨_, _, rfl⟩

theorem get_state_mbxDone_bc_timeout (op : Nat) (stamp : Stroke) (s : State) : (mbxDone 4 op stamp 7 [] s).get (mbxState 4) = 3 := by
  obtain ⟨u, lo, h⟩ := mbxDone_bc_timeout op stamp s
  rw [h, get_set_apart _ _ _ _ (by decide), get_inc_apart _ _ _ _ (by decide), get_set_same _ _ _ (by decide)]
  rfl

theorem get_code_mbxDone_bc_timeout (op : Nat) (stamp : Stroke) (s : State) :
    (mbxDone 4 op stamp 7 [] s).get (mbxField 4 0x0C 23 16) = 7 := by
  obtain ⟨u, lo, h⟩ := mbxDone_bc_timeout op stamp s
  rw [h, get_set_apart _ _ _ _ (by decide), get_inc_apart _ _ _ _ (by decide), get_set_apart _ _ _ _ (by decide),
    get_set_apart _ _ _ _ (by decide), get_set_same _ _ _ (by decide)]
  rfl

theorem mbxDone_cmds (mb op : Nat) (stamp : Stroke) (code : Nat) (res : List Byte) (s : State) :
    (mbxDone mb op stamp code res s).cmds = s.cmds :=
  (keeps_mbxDone (w := 0x103002D3AB) mb op stamp code res rfl (keeps_refl _ s)).same .cmds rfl

theorem raise_cmds (n : Nat) (s : State) : (raise n s).cmds = s.cmds :=
  (keeps_raise (w := 0x102002D3AB) n rfl (keeps_refl _ s)).same .cmds rfl

/-- A late command that waits is taken from the commands that run, and its mailbox ends with TIMEOUT. -/
theorem exec_mbxWatchdogExpiry_waiting {mb : Fin 1032} {x : Cmd} {s : State} (hx : s.cmdOf mb = some x) (hlate : mbxLate s x = true)
    (hmode : s.mode ≠ .preserve) (hwaits : s.get (mbxState x.mb) = 1) :
    exec (.mbxWatchdogExpiry mb) s = .next (raise 283 (mbxDone x.mb x.op x.stamp 7 []
      ((s.cmdsUpd fun l => l.filter fun y => y.id != x.id).mbxUpd fun m => { m with out := m.out.filter fun o => o.id != x.id }))) := by
  change execMbxWatchdogExpiry mb s = _
  simp [execMbxWatchdogExpiry, done, hx, hlate, hmode, hwaits]

theorem exec_mbxWatchdogExpiry_early {mb : Fin 1032} {x : Cmd} {s : State} (hx : s.cmdOf mb = some x) (hearly : mbxLate s x = false) :
    exec (.mbxWatchdogExpiry mb) s = .next s := by
  change execMbxWatchdogExpiry mb s = _
  simp [execMbxWatchdogExpiry, done, hx, hearly]

/-! ## Forwarding -/

theorem exec_mbxForward_noRoute {mb : Fin 1032} {core : Fin 4} {x : Cmd} {s : State} (hx : s.cmdOf mb = some x) (hfwd : x.fwd = true)
    (hwaits : s.get (mbxState x.mb) = 1) (hmode : s.mode ≠ .preserve) (hruns : coreRuns s core = true)
    (hfree : (s.mbx.out.any fun o => o.member == s.get (mbxField x.mb 0 26 24)) = false)
    (hroute : s.route (s.get (mbxField x.mb 0 26 24)) = none) :
    exec (.mbxForward mb core) s = .next (cmdDone x.id 0x0C [] s) := by
  change execMbxForward mb core s = _
  simp [execMbxForward, done, hx, hfwd, hwaits, hmode, hruns, hfree, hroute]

/-- A command that a core took is RUNNING. -/
theorem takeCmd_state (x : Cmd) (core : Nat) (s : State) : (takeCmd x core s).get (mbxState x.mb) = 2 := by
  have hfits : (mbxState x.mb).Fits := ⟨Nat.zero_le 2, show 2 < 32 by decide⟩
  rw [takeCmd, get_set_same _ _ _ hfits]
  rfl

/-- The transaction that carries a forwarded command to its member on link `k`. -/
def inTransit (x : Cmd) (core k : Nat) (s : State) : State :=
  (takeCmd x core s).mbxUpd fun b =>
    { b with txn := (s.mbx.txn + 1) % 65536, out := b.out ++ [⟨x.id, s.get (mbxField x.mb 0 26 24), s.mbx.txn, k, false, 0, []⟩] }

theorem exec_mbxForward_route {mb : Fin 1032} {core : Fin 4} {k : Nat} {x : Cmd} {s : State} (hx : s.cmdOf mb = some x)
    (hfwd : x.fwd = true) (hwaits : s.get (mbxState x.mb) = 1) (hmode : s.mode ≠ .preserve) (hruns : coreRuns s core = true)
    (hfree : (s.mbx.out.any fun o => o.member == s.get (mbxField x.mb 0 26 24)) = false)
    (hroute : s.route (s.get (mbxField x.mb 0 26 24)) = some k) :
    ∃ frames, exec (.mbxForward mb core) s = .next (doAll frames (fun b => sendBypass k 13 b) (inTransit x core k s)) := by
  refine ⟨fragments s.mbx.txn (4 * (x.mb == 4).toNat) 0 32 ((List.range 32).map (fun i => byteAt s (mbxBase x.mb + i)) ++ x.args), ?_⟩
  change execMbxForward mb core s = _
  rw [execMbxForward, hx]
  dsimp only
  rw [if_pos ⟨hfwd, hwaits, hmode, hruns, by simp [hfree]⟩, hroute]
  rfl

/-- The fragments of a transaction change no register and no mailbox. -/
theorem keeps_doAll_sendBypass (k : Nat) (frames : List (List Byte)) (s : State) :
    Keeps 0x1000008003 s (doAll frames (fun b => sendBypass k 13 b) s) :=
  keeps_doAll frames _ (fun b _ h => keeps_sendBypass k 13 b rfl h) (keeps_refl _ s)

theorem get_of_regs {s t : State} (h : t.regs = s.regs) (f : Field) : t.get f = s.get f := by
  unfold State.get State.word
  rw [h]

/-! ## The ends of LOG_READ -/

/-- The entries of the log from an index on, where none was lost. -/
theorem exec_logRead_taken {mb : Fin 1032} {core : Fin 4} {x : Cmd} {s u : State} (h : mayTake s mb core 0x0703 = some x)
    (hu : u = takeCmd x core s) :
    exec (.logRead mb core) s =
      .next (let oldest := u.flt.logged - u.flt.log.length
        let first := min u.flt.logged (max oldest (leAt x.args 0 4))
        let l := (u.flt.log.reverse.drop (first - oldest)).take 126
        cmdDone x.id 0 (leBytes 4 (first + l.length) ++ List.replicate 28 0 ++ l.flatMap logBytes) u) := by
  subst hu
  change execLogRead mb core s = _
  exact runCmd_taken h

/-! ## Commands on the mode -/

theorem exec_maintEnter_taken {mb : Fin 1032} {core : Fin 4} {x : Cmd} {s u : State} (h : mayTake s mb core 0x0003 = some x)
    (hu : u = takeCmd x core s) :
    exec (.maintEnter mb core) s = .next (match u.mode with
      | .maintenance => cmdDone x.id 0 (leBytes 6 u.modeStroke) u
      | .boot => addCause .maintEntry u
      | _ => if maintAllowed u then addCause .maintEntry u else cmdDone x.id 1 [] u) := by
  subst hu
  change execMaintEnter mb core s = _
  exact startCmd_taken h

theorem exec_maintEnter_ordered {mb : Fin 1032} {core : Fin 4} {x : Cmd} {s u : State} (h : mayTake s mb core 0x0003 = some x)
    (hu : u = takeCmd x core s) (hmode : u.mode = .boot ∨ (u.mode ≠ .maintenance ∧ maintAllowed u = true)) :
    exec (.maintEnter mb core) s = .next (addCause .maintEntry u) := by
  rw [exec_maintEnter_taken h hu]
  rcases hmode with hboot | ⟨hother, hallowed⟩
  · rw [hboot]
  · split
    case h_1 hm => exact absurd hm hother
    case h_2 => rfl
    case h_3 => rw [if_pos hallowed]

theorem exec_maintEnter_refused {mb : Fin 1032} {core : Fin 4} {x : Cmd} {s u : State} (h : mayTake s mb core 0x0003 = some x)
    (hu : u = takeCmd x core s) (hboot : u.mode ≠ .boot) (hmaint : u.mode ≠ .maintenance) (hallowed : maintAllowed u = false) :
    exec (.maintEnter mb core) s = .next (cmdDone x.id 1 [] u) := by
  rw [exec_maintEnter_taken h hu]
  split
  case h_1 hm => exact absurd hm hmaint
  case h_2 hm => exact absurd hm hboot
  case h_3 => rw [hallowed]; rfl

theorem exec_prepareExtract_taken {mb : Fin 1032} {core : Fin 4} {x : Cmd} {s u : State} (h : mayTake s mb core 0x0004 = some x)
    (hu : u = takeCmd x core s) :
    exec (.prepareExtract mb core) s = .next (match u.mode with
      | .standby | .serving => addCause .prepareExtract u
      | .draining => cmdDone x.id 0 (leBytes 6 u.dev.drainFrom.toNat) u
      | _ => orderExtract .prepareExtract u |> cmdDone x.id 0 (leBytes 6 0)) := by
  subst hu
  change execPrepareExtract mb core s = _
  exact startCmd_taken h

/-- A mode's order is among the causes after it is added. -/
theorem mem_causes_addCause (c : ModeCause) (s : State) : c ∈ (addCause c s).dev.causes := by
  unfold addCause
  split
  case isTrue h => exact h
  case isFalse => simp

/-! ## LOG_READ -/

/-- An index beyond the last entry reads no entry. -/
theorem exec_logRead_beyond {mb : Fin 1032} {core : Fin 4} {x : Cmd} {s u : State} (h : mayTake s mb core 0x0703 = some x)
    (hu : u = takeCmd x core s) (hkept : u.flt.log.length ≤ u.flt.logged) (hindex : u.flt.logged ≤ leAt x.args 0 4) :
    exec (.logRead mb core) s = .next (cmdDone x.id 0 (leBytes 4 u.flt.logged ++ List.replicate 28 0) u) := by
  have hfirst : min u.flt.logged (max (u.flt.logged - u.flt.log.length) (leAt x.args 0 4)) = u.flt.logged := by omega
  have hdrop : u.flt.log.reverse.drop (u.flt.logged - (u.flt.logged - u.flt.log.length)) = [] :=
    List.drop_eq_nil_of_le (by simp; omega)
  rw [exec_logRead_taken h hu]
  simp [hfirst, hdrop]

/-- Where every entry is kept, those from an index on are read. -/
theorem exec_logRead_from {mb : Fin 1032} {core : Fin 4} {x : Cmd} {s u : State} (h : mayTake s mb core 0x0703 = some x)
    (hu : u = takeCmd x core s) (hfew : u.flt.log.length ≤ 126) (hall : u.flt.log.length = u.flt.logged)
    (hindex : leAt x.args 0 4 < u.flt.logged) :
    exec (.logRead mb core) s = .next (cmdDone x.id 0 (leBytes 4 u.flt.logged ++ List.replicate 28 0 ++
      (u.flt.log.reverse.drop (leAt x.args 0 4)).flatMap logBytes) u) := by
  have hfirst : min u.flt.logged (max (u.flt.logged - u.flt.log.length) (leAt x.args 0 4)) = leAt x.args 0 4 := by omega
  have htake : (u.flt.log.reverse.drop (leAt x.args 0 4)).take 126 = u.flt.log.reverse.drop (leAt x.args 0 4) :=
    List.take_of_length_le (by simp; omega)
  have hcount : leAt x.args 0 4 + (u.flt.log.reverse.drop (leAt x.args 0 4)).length = u.flt.logged := by simp; omega
  rw [exec_logRead_taken h hu]
  rw [hall, Nat.sub_self] at hfirst
  simp only [hall, Nat.sub_self, Nat.sub_zero, hfirst, htake, hcount]

/-- Settles O44: the doorbell by the mailbox it belongs to, the watchdog and forwarding of a command, then each command where a core
takes it. -/
theorem mailboxesAndDeviceCommands : Obligations.MailboxesAndDeviceCommands := by
  unfold Obligations.MailboxesAndDeviceCommands
  refine ⟨?goPreserve, ?goBusy, ?goPeer, ?goBoard, ?goHost, ?goContext, ?goRest, ?goFull, ?watchEarly, ?watchLate, ?endNone, ?endStore,
    ?noRoute, ?route, ?noMailbox, ?devQuery, ?devReset, ?maintIn, ?maintOrder, ?maintRefused, ?extract, ?extractAgain, ?ifQuery, ?echo,
    ?logBeyond, ?logFrom, ?timeQuery⟩
  case goPreserve => intro mb s hmb hmode; rw [exec_mbxDoorbellGo_peer hmb, mbxGo_preserve hmode]
  case goBusy => intro mb s hmb hmode hbusy; rw [exec_mbxDoorbellGo_peer hmb, mbxGo_busy hmode hbusy]
  case goPeer => intro mb s hmb hmode hfree; rw [exec_mbxDoorbellGo_peer hmb, mbxGo_free hmode hfree]
  case goBoard =>
    intro mb s hmb hrest hsmb
    change execMbxDoorbellGo mb s = _
    simp [execMbxDoorbellGo, done, mbxGoFrom, hmb, hrest, hsmb]
  case goHost => exact fun mb s hmb hturn hfull => exec_mbxDoorbellGo_hostTurn (.inl hmb) hturn hfull (.inl hmb)
  case goContext => exact fun mb s hmb hturn hfull hfn => exec_mbxDoorbellGo_hostTurn (.inr hmb) hturn hfull (.inr hfn)
  case goRest =>
    intro mb s hmb hrest hsmb
    change execMbxDoorbellGo mb s = _
    simp [execMbxDoorbellGo, done, mbxGoFrom, hmb, hrest]
  case goFull =>
    intro mb s hmb hfull
    rw [exec_mbxDoorbellGo_host hmb]
    simp [hostPosted, hfull]
  case watchEarly => exact fun mb x s hx hearly => exec_mbxWatchdogExpiry_early hx hearly
  case watchLate =>
    intro mb x s hx hlate hmode hwaits hboard hid
    refine ⟨_, exec_mbxWatchdogExpiry_waiting hx hlate hmode hwaits, ?_, ?_, ?_⟩
    · intro y hy
      rw [raise_cmds, mbxDone_cmds, mbxUpd_cmds, cmdsUpd_cmds, List.mem_filter] at hy
      simpa [hid] using hy.2
    · rw [hboard, get_raise _ _ _ (by decide), get_state_mbxDone_bc_timeout]
    · rw [hboard, get_raise _ _ _ (by decide), get_code_mbxDone_bc_timeout]
  case endNone =>
    intro code s hidle
    change execLongOperationEnd true code s = _
    simp [execLongOperationEnd, done, hidle]
  case endStore =>
    intro code s hbusy
    change execLongOperationEnd false code s = _
    simp [execLongOperationEnd, done, hbusy]
  case noRoute => exact fun mb core x s hx hfwd hwaits hmode hruns hfree hroute => exec_mbxForward_noRoute hx hfwd hwaits hmode hruns hfree hroute
  case route =>
    intro mb core k x s hx hfwd hwaits hmode hruns hfree hroute
    obtain ⟨frames, hexec⟩ := exec_mbxForward_route hx hfwd hwaits hmode hruns hfree hroute
    have hkeeps := keeps_doAll_sendBypass k frames (inTransit x core k s)
    have hmbx := hkeeps.same .mbx rfl
    refine ⟨_, hexec, ?_, ?_, ?_⟩
    · rw [hmbx]; rfl
    · rw [hmbx]; rfl
    · rw [get_of_regs (hkeeps.same .regs rfl)]
      exact takeCmd_state x core s
  case noMailbox =>
    intro mb s hmb
    change execMbxDoorbellGo mb s = _
    simp [execMbxDoorbellGo, done, mbxGoFrom, hmb]
  case devQuery =>
    intro mb core x s u h hu
    subst hu
    change execDevQuery mb core s = _
    rw [execDevQuery, runCmd_taken h]
  case devReset =>
    intro mb core x s u h hu hnone
    subst hu
    change execDevReset mb core s = _
    rw [execDevReset, runCmd_taken h]
    simp [State.devUpd, hnone]
  case maintIn =>
    intro mb core x s u h hu hmode
    rw [exec_maintEnter_taken h hu, hmode]
  case maintOrder =>
    intro mb core x s u h hu hmode
    exact ⟨exec_maintEnter_ordered h hu hmode, _, exec_maintEnter_ordered h hu hmode, mem_causes_addCause _ _⟩
  case maintRefused => exact fun mb core x s u h hu hboot hmaint hallowed => exec_maintEnter_refused h hu hboot hmaint hallowed
  case extract =>
    intro mb core x s u h hu hmode
    rw [exec_prepareExtract_taken h hu]
    rcases hmode with hmode | hmode <;> rw [hmode]
  case extractAgain =>
    intro mb core x s u h hu hmode
    rw [exec_prepareExtract_taken h hu, hmode]
  case ifQuery =>
    intro mb core x s h
    change execIfQuery mb core s = _
    have hrevision : leBytes 1 3 ++ leBytes 1 0 = [3, 0] := by decide
    rw [execIfQuery, runCmd_taken h]
    dsimp only
    rw [hrevision]
  case echo =>
    intro mb core x s h
    change execEcho mb core s = _
    rw [execEcho, runCmd_taken h]
  case logBeyond => exact fun mb core x s u h hu hkept hindex => exec_logRead_beyond h hu hkept hindex
  case logFrom => intro mb core x s u i h hu hi hfew hall hindex; subst hi; exact exec_logRead_from h hu hfew hall hindex
  case timeQuery =>
    intro mb core x s u h hu
    subst hu
    change execTimeQuery mb core s = _
    rw [execTimeQuery, runCmd_taken h]

end Sys2Proof.Machine
end

section

/-! What stays in force under the traffic of the device: the mode, the sleep state, the host link's state and the device-wide
state. Most operations write none of it; each has one equation here. -/

namespace Sys2Proof.Machine

/-! ## The view -/

/-- The fields of the view: mode, sleep state, the host link's state as an open or ended link leaves it, and the record of DEV_RESET. -/
def steadyFields : List Field :=
  [Fld.DEV_MODE_PREV, Fld.DEV_MODE_MODE, Fld.DEV_MODE_CAUSE, Fld.CRP_SLEEP_STATE, Fld.HL_LINK_STATUS_DL_UP, Fld.HL_LINK_STATUS_FLIT,
   Fld.HL_LINK_STATUS_WIDTH, Fld.HL_LINK_STATUS_SPEED, Fld.HL_LINK_STATUS_SLOT_CAP, Fld.HL_SDOWN_VALID, Fld.DEV_RST_CAUSE_CMD_RESET]

/-- The device-wide state but for the wake pin and the reset pins of the ports. -/
def steadyDev (s : State) : Dev := { s.dev with wake := false, lbRst := 0 }

/-- The fields of the view, and the steady part of the device-wide state. -/
def steady (s : State) : List Nat × Dev := (steadyFields.map s.get, steadyDev s)

/-- A field that shares no bit with the view. -/
def Field.stray (f : Field) : Bool :=
  decide (0x150000 ≤ f.addr) || steadyFields.all fun g => decide (f.addr ≠ g.addr ∨ f.hi < 32 ∧ f.lo ≤ f.hi ∧ (f.hi < g.lo ∨ g.hi < f.lo))

theorem get_of_steady {s t : State} (h : steady t = steady s) {f : Field} (hf : f ∈ steadyFields) : t.get f = s.get f :=
  List.map_inj_left.mp (congrArg Prod.fst h) f hf

theorem mode_of_steady {s t : State} (h : steady t = steady s) : t.mode = s.mode := by
  unfold State.mode
  rw [get_of_steady h (by decide)]

theorem dev_of_steady {s t : State} (h : steady t = steady s) : steadyDev t = steadyDev s := congrArg Prod.snd h

theorem presPend_of_steady {s t : State} (h : steady t = steady s) : t.dev.presPend = s.dev.presPend :=
  show (steadyDev t).presPend = (steadyDev s).presPend from congrArg Dev.presPend (dev_of_steady h)

theorem causes_of_steady {s t : State} (h : steady t = steady s) : t.dev.causes = s.dev.causes :=
  show (steadyDev t).causes = (steadyDev s).causes from congrArg Dev.causes (dev_of_steady h)

theorem servingAt_of_steady {s t : State} (h : steady t = steady s) : t.dev.servingAt = s.dev.servingAt :=
  show (steadyDev t).servingAt = (steadyDev s).servingAt from congrArg Dev.servingAt (dev_of_steady h)

theorem perst_of_steady {s t : State} (h : steady t = steady s) : t.dev.perst = s.dev.perst :=
  show (steadyDev t).perst = (steadyDev s).perst from congrArg Dev.perst (dev_of_steady h)

theorem rom_of_steady {s t : State} (h : steady t = steady s) : t.dev.rom = s.dev.rom :=
  show (steadyDev t).rom = (steadyDev s).rom from congrArg Dev.rom (dev_of_steady h)

theorem straps_of_steady {s t : State} (h : steady t = steady s) : t.dev.straps = s.dev.straps :=
  show (steadyDev t).straps = (steadyDev s).straps from congrArg Dev.straps (dev_of_steady h)

theorem sysRst_of_steady {s t : State} (h : steady t = steady s) : t.dev.sysRst = s.dev.sysRst :=
  show (steadyDev t).sysRst = (steadyDev s).sysRst from congrArg Dev.sysRst (dev_of_steady h)

theorem steady_of_same {s t : State} (hregs : t.regs = s.regs) (hdev : t.dev = s.dev) : steady t = steady s := by
  unfold steady steadyDev State.get State.word
  rw [hregs, hdev]

/-- Every part but the registers and the device-wide state. -/
abbrev quietMask : Nat := 0x1FFFFFEFF7

theorem steady_of_keeps {s t : State} (h : Keeps quietMask s t) : steady t = steady s :=
  steady_of_same (h.same .regs rfl) (h.same .dev rfl)

theorem steady_ite {p : Prop} [Decidable p] {r : List Nat × Dev} {s t : State} (hs : steady s = r) (ht : steady t = r) :
    steady (if p then s else t) = r := by
  split
  · exact hs
  · exact ht

@[simp] theorem steady_doIf (c : Bool) {f : State → State} (s : State) (hf : ∀ s, steady (f s) = steady s) : steady (doIf c f s) = steady s := by
  cases c
  · rfl
  · exact hf s

@[simp] theorem steady_doAll {α : Type} (l : List α) {f : α → State → State} (s : State) (hf : ∀ a s, steady (f a s) = steady s) :
    steady (doAll l f s) = steady s := by
  unfold doAll
  induction l generalizing s with
  | nil => rfl
  | cons a l ih => rw [List.foldl_cons, ih, hf]

/-! ## Writes of fields -/

theorem stray_of_le {f : Field} (h : 0x150000 ≤ f.addr) : f.stray = true := by
  simp [Field.stray, h]

theorem fits_steadyFields : ∀ g ∈ steadyFields, g.lo ≤ g.hi ∧ g.hi < 32 ∧ g.addr < 0x150000 := by decide

theorem get_set_stray {f g : Field} (v : Nat) (s : State) (hf : f.stray = true) (hg : g ∈ steadyFields) : (s.set f v).get g = s.get g := by
  obtain ⟨hle, hlt, hlow⟩ := fits_steadyFields g hg
  by_cases haddr : f.addr = g.addr
  case neg =>
    unfold State.get
    rw [word_set_ne s f v (Ne.symm haddr)]
  case pos =>
    have hnear : ¬ 0x150000 ≤ f.addr := by omega
    simp only [Field.stray, hnear, decide_false, Bool.false_or, List.all_eq_true, decide_eq_true_eq] at hf
    obtain hne | ⟨hf32, hfle, hbits⟩ := hf g hg
    · exact absurd haddr hne
    · exact get_set_apart s f g v ⟨⟨by omega, by omega, by omega⟩, by omega⟩

@[simp] theorem steady_set (f : Field) (v : Nat) (s : State) (h : f.stray = true) : steady (s.set f v) = steady s := by
  have hfields : steadyFields.map (s.set f v).get = steadyFields.map s.get :=
    List.map_congr_left fun g hg => get_set_stray v s h hg
  unfold steady
  rw [hfields]
  rfl

/-! ## Updates of other parts -/

@[simp] theorem steady_emit (o : Out) (s : State) : steady (emit o s) = steady s := steady_of_same rfl rfl
@[simp] theorem steady_fnUpd (c : Nat) (f : Fn → Fn) (s : State) : steady (s.fnUpd c f) = steady s := steady_of_same rfl rfl
@[simp] theorem steady_hlUpd (f : Hl → Hl) (s : State) : steady (s.hlUpd f) = steady s := steady_of_same rfl rfl
@[simp] theorem steady_linkUpd (k : Nat) (f : Ul → Ul) (s : State) : steady (s.linkUpd k f) = steady s := steady_of_same rfl rfl
@[simp] theorem steady_lineUpd (k : Nat) (f : Line → Line) (s : State) : steady (s.lineUpd k f) = steady s := steady_of_same rfl rfl
@[simp] theorem steady_lbUpd (p : Nat) (f : Lb → Lb) (s : State) : steady (s.lbUpd p f) = steady s := steady_of_same rfl rfl
@[simp] theorem steady_ctxUpd (c : Nat) (f : Ctx → Ctx) (s : State) : steady (s.ctxUpd c f) = steady s := steady_of_same rfl rfl
@[simp] theorem steady_descUpd (k : DKey) (f : Desc → Desc) (s : State) : steady (s.descUpd k f) = steady s := steady_of_same rfl rfl
@[simp] theorem steady_cadUpd (f : Cad → Cad) (s : State) : steady (s.cadUpd f) = steady s := steady_of_same rfl rfl
@[simp] theorem steady_cmdsUpd (f : List Cmd → List Cmd) (s : State) : steady (s.cmdsUpd f) = steady s := steady_of_same rfl rfl
@[simp] theorem steady_dsUpd (f : Store → Store) (s : State) : steady (s.dsUpd f) = steady s := steady_of_same rfl rfl
@[simp] theorem steady_medUpd (f : Media → Media) (s : State) : steady (s.medUpd f) = steady s := steady_of_same rfl rfl
@[simp] theorem steady_mbxUpd (f : Mbx → Mbx) (s : State) : steady (s.mbxUpd f) = steady s := steady_of_same rfl rfl
@[simp] theorem steady_pwrUpd (f : Pwr → Pwr) (s : State) : steady (s.pwrUpd f) = steady s := steady_of_same rfl rfl
@[simp] theorem steady_pelUpd (f : Pel → Pel) (s : State) : steady (s.pelUpd f) = steady s := steady_of_same rfl rfl
@[simp] theorem steady_fltUpd (f : Flt → Flt) (s : State) : steady (s.fltUpd f) = steady s := steady_of_same rfl rfl
@[simp] theorem steady_fwUpd (f : Fw → Fw) (s : State) : steady (s.fwUpd f) = steady s := steady_of_same rfl rfl
@[simp] theorem steady_drewOne (s : State) : steady s.drewOne = steady s := steady_of_same rfl rfl
@[simp] theorem steady_setHeld (c : Nat) (v : BitVec 64) (s : State) : steady (s.setHeld c v) = steady s := steady_of_same rfl rfl
@[simp] theorem steady_setPba (c : Nat) (v : BitVec 64) (s : State) : steady (s.setPba c v) = steady s := steady_of_same rfl rfl

/-! ## Words, counters and marks -/

/-- A whole register that shares no bit with the view holds no field of it. -/
theorem addr_ne_of_stray {a : Nat} (h : Field.stray ⟨a, 31, 0⟩ = true) : ∀ g ∈ steadyFields, g.addr ≠ a := by
  rintro g hg rfl
  obtain ⟨hle, hlt, hlow⟩ := fits_steadyFields g hg
  have hnear : ¬ 0x150000 ≤ g.addr := by omega
  simp only [Field.stray, hnear, decide_false, Bool.false_or, List.all_eq_true, decide_eq_true_eq] at h
  obtain hne | ⟨-, -, hbits⟩ := h g hg
  · exact hne rfl
  · omega

@[simp] theorem steady_setWord (a : Nat) (v : Word) (s : State) (h : Field.stray ⟨a, 31, 0⟩ = true) : steady (s.setWord a v) = steady s := by
  have hfields : steadyFields.map (s.setWord a v).get = steadyFields.map s.get :=
    List.map_congr_left fun g hg => by
      unfold State.get
      rw [word_setWord_ne s v (addr_ne_of_stray h g hg)]
  unfold steady
  rw [hfields]
  rfl

@[simp] theorem steady_inc (f : Field) (n : Nat) (s : State) (h : f.stray = true) : steady (s.inc f n) = steady s := steady_set f _ s h

@[simp] theorem steady_peak (f : Field) (n : Nat) (s : State) (h : f.stray = true) : steady (s.peak f n) = steady s :=
  steady_ite (steady_set f _ s h) rfl

/-! ## The indexed registers -/

@[simp] theorem stray_IC_PEND (n : Nat) : Field.stray ⟨Adr.IC_PEND n, 31, 0⟩ = true := stray_of_le (Nat.le_add_right_of_le (by decide))
@[simp] theorem stray_CTX_EVT_STATUS_EVT (n : Nat) : (Fld.CTX_EVT_STATUS_EVT n).stray = true := stray_of_le (Nat.le_add_right_of_le (by decide))
@[simp] theorem stray_LB_STATUS_STATE (n : Nat) : (Fld.LB_STATUS_STATE n).stray = true := stray_of_le (Nat.le_add_right_of_le (by decide))
@[simp] theorem stray_MSG_BUF_USED (n : Nat) : (Fld.MSG_BUF_USED n).stray = true := stray_of_le (Nat.le_add_right_of_le (by decide))
@[simp] theorem stray_MSG_BUF_HWM (n : Nat) : (Fld.MSG_BUF_HWM n).stray = true := stray_of_le (Nat.le_add_right_of_le (by decide))
@[simp] theorem stray_UL_STATUS_STATE (n : Nat) : (Fld.UL_STATUS_STATE n).stray = true := stray_of_le (Nat.le_add_right_of_le (by decide))
@[simp] theorem stray_CTX_OCC_OUTSTANDING (n : Nat) : (Fld.CTX_OCC_OUTSTANDING n).stray = true := stray_of_le (Nat.le_add_right_of_le (by decide))
@[simp] theorem stray_CTX_STATE_OVER_DESC (n : Nat) : (Fld.CTX_STATE_OVER_DESC n).stray = true := stray_of_le (Nat.le_add_right_of_le (by decide))
@[simp] theorem stray_CTX_PWE_TAIL_TAIL (n : Nat) : (Fld.CTX_PWE_TAIL_TAIL n).stray = true := stray_of_le (Nat.le_add_right_of_le (by decide))
@[simp] theorem stray_CTX_PWE_TAIL_PHASE (n : Nat) : (Fld.CTX_PWE_TAIL_PHASE n).stray = true := stray_of_le (Nat.le_add_right_of_le (by decide))
@[simp] theorem stray_CTX_WFENCE_FAILS (n : Nat) : (Fld.CTX_WFENCE_FAILS n).stray = true := stray_of_le (Nat.le_add_right_of_le (by decide))
@[simp] theorem stray_CTX_PWE_STATUS_TOTAL (n : Nat) : (Fld.CTX_PWE_STATUS_TOTAL n).stray = true := stray_of_le (Nat.le_add_right_of_le (by decide))
@[simp] theorem stray_CTX_PWE_STATUS_LOST (n : Nat) : (Fld.CTX_PWE_STATUS_LOST n).stray = true := stray_of_le (Nat.le_add_right_of_le (by decide))
@[simp] theorem stray_MSG_DROP_CNT_NO_ROUTE (n : Nat) : (Fld.MSG_DROP_CNT_NO_ROUTE n).stray = true := stray_of_le (Nat.le_add_right_of_le (by decide))
@[simp] theorem stray_MSG_DROP_CNT_NOT_READY (n : Nat) : (Fld.MSG_DROP_CNT_NOT_READY n).stray = true := stray_of_le (Nat.le_add_right_of_le (by decide))
@[simp] theorem stray_MSG_DROP_CNT_RQ_FULL (n : Nat) : (Fld.MSG_DROP_CNT_RQ_FULL n).stray = true := stray_of_le (Nat.le_add_right_of_le (by decide))
@[simp] theorem stray_MSG_DROP_CNT_BUF_FULL (n : Nat) : (Fld.MSG_DROP_CNT_BUF_FULL n).stray = true := stray_of_le (Nat.le_add_right_of_le (by decide))
@[simp] theorem stray_MSG_DROP_CNT2_TOO_BIG (n : Nat) : (Fld.MSG_DROP_CNT2_TOO_BIG n).stray = true := stray_of_le (Nat.le_add_right_of_le (by decide))
@[simp] theorem stray_MSG_DROP_CNT2_PARTIAL (n : Nat) : (Fld.MSG_DROP_CNT2_PARTIAL n).stray = true := stray_of_le (Nat.le_add_right_of_le (by decide))
@[simp] theorem stray_MSG_DROP_CNT2_PEER_LOST (n : Nat) : (Fld.MSG_DROP_CNT2_PEER_LOST n).stray = true := stray_of_le (Nat.le_add_right_of_le (by decide))
@[simp] theorem stray_MSG_DROP_CNT2_DRAINING (n : Nat) : (Fld.MSG_DROP_CNT2_DRAINING n).stray = true := stray_of_le (Nat.le_add_right_of_le (by decide))
@[simp] theorem stray_DS_APT_STATUS_ATTACHED (n : Nat) : (Fld.DS_APT_STATUS_ATTACHED n).stray = true := stray_of_le (Nat.le_add_right_of_le (by decide))
@[simp] theorem stray_DS_APT_STATUS_CTX (n : Nat) : (Fld.DS_APT_STATUS_CTX n).stray = true := stray_of_le (Nat.le_add_right_of_le (by decide))
@[simp] theorem stray_CTX_CAPS_APERTURE (n : Nat) : (Fld.CTX_CAPS_APERTURE n).stray = true := stray_of_le (Nat.le_add_right_of_le (by decide))
@[simp] theorem stray_CTX_CAPS_MIRROR (n : Nat) : (Fld.CTX_CAPS_MIRROR n).stray = true := stray_of_le (Nat.le_add_right_of_le (by decide))
@[simp] theorem stray_CQ_EVT_STATUS_HELD (n k : Nat) : (Fld.CQ_EVT_STATUS_HELD n k).stray = true := stray_of_le (Nat.le_add_right_of_le (Nat.le_add_right_of_le (by decide)))
@[simp] theorem stray_CQ_EVT_CNT_PBA (n k : Nat) : (Fld.CQ_EVT_CNT_PBA n k).stray = true := stray_of_le (Nat.le_add_right_of_le (Nat.le_add_right_of_le (by decide)))
@[simp] theorem stray_CQ_EVT_CNT_SENT (n k : Nat) : (Fld.CQ_EVT_CNT_SENT n k).stray = true := stray_of_le (Nat.le_add_right_of_le (Nat.le_add_right_of_le (by decide)))
@[simp] theorem stray_QP_STATUS_OUTSTANDING (n k : Nat) : (Fld.QP_STATUS_OUTSTANDING n k).stray = true := stray_of_le (Nat.le_add_right_of_le (Nat.le_add_right_of_le (by decide)))
@[simp] theorem stray_QP_STATUS_QUIESCED (n k : Nat) : (Fld.QP_STATUS_QUIESCED n k).stray = true := stray_of_le (Nat.le_add_right_of_le (Nat.le_add_right_of_le (by decide)))

/-! ## The raising of a source -/

@[simp] theorem steady_noteWake (n : Nat) (s : State) : steady (noteWake n s) = steady s := steady_of_keeps (keeps_noteWake n rfl (keeps_refl _ s))

@[simp] theorem steady_sendBypass (k bt : Nat) (body : List Byte) (s : State) : steady (sendBypass k bt body s) = steady s :=
  steady_of_keeps (keeps_sendBypass k bt body rfl (keeps_refl _ s))

@[simp] theorem steady_pfs (p : Pfs) (s : State) : steady { s with pfs := p } = steady s := steady_of_same rfl rfl

@[simp] theorem steady_setPending (n : Nat) (s : State) : steady (setPending n s) = steady s := by simp [setPending]

@[simp] theorem steady_pfsMissed (s : State) : steady (pfsMissed s) = steady s := steady_inc _ _ s (by decide)

/-- A trigger of the photo finish changes only its own status. -/
@[simp] theorem steady_pfsTrigger (b : Nat) (s : State) : steady (pfsTrigger b s) = steady s := by
  unfold pfsTrigger
  refine steady_ite ?pel (steady_ite (by simp) ?own)
  case pel =>
    split
    · refine steady_ite rfl (steady_ite ?_ (steady_ite ?_ ?_)) <;> simp
    · refine steady_ite ?_ ?_ <;> simp +decide
  case own => split <;> rfl

@[simp] theorem steady_raiseEdge (n : Nat) (s : State) : steady (raiseEdge n s) = steady s := by
  unfold raiseEdge
  simp only [steady_doIf, steady_pfsTrigger, implies_true]
  split
  case isTrue => split <;> [split; skip] <;> simp +decide
  case isFalse => simp

@[simp] theorem steady_sendPme (c : Nat) (s : State) : steady (sendPme c s) = steady s := by
  simp +decide only [sendPme, steady_fnUpd, steady_inc]
  exact steady_ite rfl rfl

@[simp] theorem steady_signalPme (c : Nat) (s : State) : steady (signalPme c s) = steady s := steady_ite rfl (by simp)

@[simp] theorem steady_holdMsix (c v : Nat) (q : Option Nat) (s : State) : steady (holdMsix c v q s) = steady s := by
  cases q <;> simp +decide [holdMsix, setPbaBit]

theorem steady_countCqEvt (c : Nat) (q : Option Nat) (f : Nat → Nat → Field) (s : State) (hf : ∀ c q, (f c q).stray = true) :
    steady (countCqEvt c q f s) = steady s := by
  cases q with
  | none => rfl
  | some q => exact steady_inc _ _ s (hf c q)

@[simp] theorem steady_leaveL1 (s : State) : steady (leaveL1 s) = steady s := by
  refine steady_ite ?_ rfl
  simp only [steady_raiseEdge, steady_doIf, implies_true]
  exact steady_set _ _ s (by decide)

@[simp] theorem steady_sendMsix (c v : Nat) (q : Option Nat) (s : State) : steady (sendMsix c v q s) = steady s := steady_ite rfl rfl

@[simp] theorem steady_trigger (c v : Nat) (q : Option Nat) (s : State) : steady (trigger c v q s) = steady s := by
  have hpba := fun s => steady_countCqEvt c q Fld.CQ_EVT_CNT_PBA s (by simp)
  have hsent := fun s => steady_countCqEvt c q Fld.CQ_EVT_CNT_SENT s (by simp)
  unfold trigger
  refine steady_ite ?lost (steady_ite ?disabled (steady_ite ?beyond (steady_ite ?held (steady_ite ?noMaster (steady_ite ?masked ?sent)))))
  case lost => exact steady_inc _ _ s (by decide)
  case disabled => exact steady_inc _ _ s (by decide)
  case beyond => exact steady_inc _ _ s (by decide)
  case held => rw [steady_holdMsix, hpba]
  case noMaster => exact steady_setPba _ _ s
  case masked => rw [hpba]; exact steady_setPba _ _ s
  case sent => rw [hsent, steady_sendMsix, steady_leaveL1]

@[simp] theorem steady_ctxEvent (c b : Nat) (s : State) : steady (ctxEvent c b s) = steady s := by
  exact steady_ite rfl (by simp)

/-- Raising a source leaves the mode, the sleep state and the host link's state alone, and of the device-wide state changes the wake pin
alone. -/
@[simp] theorem steady_raise (n : Nat) (s : State) : steady (raise n s) = steady s := by
  simp +decide [raise, bcAttn]

/-! ## Queues, errors and tags -/

@[simp] theorem steady_updOverDesc (c : Nat) (s : State) : steady (updOverDesc c s) = steady s := steady_set _ _ s (by simp)

@[simp] theorem steady_qps (q : Table Qp) (s : State) : steady { s with qps := q } = steady s := steady_of_same rfl rfl

@[simp] theorem steady_qpUpd (c q : Nat) (f : Qp → Qp) (s : State) : steady (s.qpUpd c q f) = steady s := by simp [State.qpUpd]

@[simp] theorem steady_aerLogged (c b : Nat) (h : AerHdr) (s : State) : steady (aerLogged c b h s) = steady s :=
  steady_of_keeps (keeps_aerLogged c b h rfl (keeps_refl _ s))

@[simp] theorem steady_aerMessage (c b : Nat) (masked : Bool) (what : String) (s : State) : steady (aerMessage c b masked what s) = steady s :=
  steady_of_keeps (keeps_aerMessage c b masked what rfl (keeps_refl _ s))

@[simp] theorem steady_aerAdvisoryOf (c b src : Nat) (h : AerHdr) (s : State) : steady (aerAdvisoryOf c b src h s) = steady s :=
  steady_ite (by simp) (by simp)

@[simp] theorem steady_reportAbort (c addr len : Nat) (s : State) : steady (reportAbort c addr len s) = steady s :=
  steady_aerAdvisoryOf _ _ _ _ s

@[simp] theorem steady_updTags (s : State) : steady (updTags s) = steady s := by simp +decide [updTags]

@[simp] theorem steady_takeTag (c : Nat) (use : TagUse) (s : State) : steady (takeTag c use s) = steady s := by simp [takeTag]

@[simp] theorem steady_atsAsk (who : AtsFor) (c addr : Nat) (s : State) : steady (atsAsk who c addr s) = steady s :=
  steady_ite rfl (steady_ite (steady_raise 34 s) (by simp))

@[simp] theorem steady_hostWay (who : AtsFor) (c addr n : Nat) (wr : Bool) (s : State) : steady (hostWay who c addr n wr s).1 = steady s := by
  unfold hostWay
  split
  case isTrue => rfl
  case isFalse =>
    split
    case isTrue => rfl
    case isFalse =>
      split
      · rfl
      · exact steady_atsAsk _ _ _ s

/-! ## Posted-write errors and the host's reads -/

@[simp] theorem steady_pweAdvance (c : Nat) (s : State) : steady (pweAdvance c s) = steady s := by simp [pweAdvance]

@[simp] theorem steady_hostWriteOut (c a : Nat) (l : List Byte) (x y : Bool) (s : State) : steady (hostWriteOut c a l x y s) = steady s :=
  steady_of_keeps (keeps_hostWriteOut c a l x y rfl (keeps_refl _ s))

@[simp] theorem steady_pweFlushOne (c : Nat) (s : State) : steady (pweFlushOne c s) = steady s := by
  unfold pweFlushOne
  split
  case h_1 => rfl
  case h_2 e es hwait =>
    have hway := steady_hostWay (.entry c) c e.1 e.2.length true s
    split
    case h_1 t ht => rw [ht] at hway; simp [hway]
    case h_2 t way hgo ht => rw [ht] at hway; exact hway

@[simp] theorem steady_pweFlush (c : Nat) (s : State) : steady (pweFlush c s) = steady s := by simp [pweFlush]

@[simp] theorem steady_pweFail (c w seq off len resp : Nat) (s : State) : steady (pweFail c w seq off len resp s) = steady s := by
  unfold pweFail
  rw [steady_reportAbort]
  exact steady_ite (by simp) (by simp)

@[simp] theorem steady_hreadGone (r : HRead) (s : State) : steady (hreadGone r s) = steady s :=
  steady_of_keeps (keeps_hreadGone r rfl (keeps_refl _ s))

@[simp] theorem steady_hreadUpd (id : Nat) (f : HRead → HRead) (s : State) : steady (hreadUpd id f s) = steady s :=
  steady_of_keeps (keeps_hreadUpd id f rfl (keeps_refl _ s))

@[simp] theorem steady_addItem (up : Bool) (ctx cls tgt bytes : Nat) (host : Bool) (w : Work) (s : State) : steady (addItem up ctx cls tgt bytes host w s) = steady s :=
  steady_of_keeps (keeps_addItem up ctx cls tgt bytes host w rfl (keeps_refl _ s))

@[simp] theorem steady_addWaiting (up : Bool) (ctx cls tgt : Nat) (w : Work) (s : State) : steady (addWaiting up ctx cls tgt w s) = steady s :=
  steady_of_keeps (keeps_addWaiting up ctx cls tgt w rfl (keeps_refl _ s))

@[simp] theorem steady_hreadFailed (r : HRead) (off outcome : Nat) (s : State) : steady (hreadFailed r off outcome s) = steady s := by
  unfold hreadFailed
  split <;> simp

@[simp] theorem steady_hreadSettle (id : Nat) (s : State) : steady (hreadSettle id s) = steady s := by
  unfold hreadSettle
  split
  case h_1 => rfl
  case h_2 =>
    refine steady_ite rfl ?_
    split
    · exact steady_addItem _ _ _ _ _ _ _ s
    · exact steady_ite (steady_addWaiting _ _ _ _ _ s) (steady_hreadFailed _ _ _ s)

@[simp] theorem steady_hreadAns (id off : Nat) (a : Ans) (s : State) : steady (hreadAns id off a s) = steady s := by simp [hreadAns]

/-! ## The ports -/

@[simp] theorem steady_descRead (k : DKey) (off len : Nat) (a : Ans) (s : State) : steady (descRead k off len a s) = steady s :=
  steady_of_keeps (keeps_descRead k off len a rfl (keeps_refl _ s))

@[simp] theorem steady_descAtomic (k : DKey) (len : Nat) (a : Ans) (s : State) : steady (descAtomic k len a s) = steady s :=
  steady_of_keeps (keeps_descAtomic k len a rfl (keeps_refl _ s))

@[simp] theorem steady_descWrite (k : DKey) (len : Nat) (a : Ans) (s : State) : steady (descWrite k len a s) = steady s :=
  steady_of_keeps (keeps_descWrite k len a rfl (keeps_refl _ s))

@[simp] theorem steady_descFail (k : DKey) (st det : Nat) (s : State) : steady (descFail k st det s) = steady s :=
  steady_of_keeps (keeps_descFail k st det rfl (keeps_refl _ s))

@[simp] theorem steady_peerAns (m : UMsg) (a : Ans) (s : State) : steady (peerAns m a s) = steady s :=
  steady_of_keeps (keeps_peerAns m a rfl (keeps_refl _ s))

@[simp] theorem steady_c0WriteEnds (c : Nat) (c0 : Bool) (s : State) : steady (c0WriteEnds c c0 s) = steady s :=
  steady_of_keeps (keeps_c0WriteEnds c c0 rfl (keeps_refl _ s))

@[simp] theorem steady_dropItems (p : Item → Bool) (s : State) : steady (dropItems p s) = steady s :=
  steady_of_keeps (keeps_dropItems p rfl (keeps_refl _ s))

@[simp] theorem steady_answer (src : ReqSrc) (op : Nat) (a : Ans) (s : State) : steady (answer src op a s) = steady s := by
  cases src with
  | hostRead id off => exact steady_hreadAns id off a s
  | hostWrite c w seq off len =>
    cases a with
    | ok d => rfl
    | _ => exact steady_ite rfl (steady_pweFail _ _ _ _ _ _ s)
  | desc k off len => exact steady_ite (steady_descRead k off len a s) (steady_ite (steady_descAtomic k len a s) (steady_descWrite k len a s))
  | peer m _ => exact steady_peerAns m a s
  | _ => rfl

@[simp] theorem stray_dropCounter (p cause : Nat) : (dropCounter p cause).stray = true := by
  unfold dropCounter
  split <;> simp

@[simp] theorem steady_countDrop (p cause kind ident route : Nat) (s : State) : steady (countDrop p cause kind ident route s) = steady s := by
  simp +decide [countDrop]

@[simp] theorem steady_updBuf (p : Nat) (s : State) : steady (updBuf p s) = steady s := by simp [updBuf]

@[simp] theorem steady_lintFull (p line route : Nat) (s : State) : steady (lintFull p line route s) = steady s := steady_countDrop _ _ _ _ _ s

@[simp] theorem steady_framePartial (p : Nat) (s : State) : steady (framePartial p s) = steady s := by
  unfold framePartial
  split <;> simp

@[simp] theorem steady_endEgr (p : Nat) (e : Egr) (s : State) : steady (endEgr p e s) = steady s := by
  unfold endEgr
  split
  case h_1 => rfl
  case h_2 =>
    split
    · rw [steady_answer, steady_c0WriteEnds]
    · simp
    · exact steady_answer _ _ _ s
    · exact steady_ite (steady_countDrop _ _ _ _ _ s) (steady_ite (steady_countDrop _ _ _ _ _ s) rfl)

@[simp] theorem steady_endItem (p : Nat) (w : Work) (s : State) : steady (endItem p w s) = steady s := by
  unfold endItem
  split
  · split <;> simp
  · simp
  · simp
  · rfl

@[simp] theorem steady_lbRst (v : BitVec 4) (s : State) : steady (s.devUpd fun d => { d with lbRst := v }) = steady s := Prod.ext rfl rfl

/-- The state of a port shows in its reset pin, of which the view says nothing. -/
@[simp] theorem steady_portTo (p st : Nat) (s : State) : steady (portTo p st s) = steady s := by simp [portTo]

@[simp] theorem steady_leaveActive (p next : Nat) (s : State) : steady (leaveActive p next s) = steady s := by
  have hlint (e : Nat × Nat × Stroke) (s : State) :
      steady (if 16 ≤ (s.lb p).lint.length then lintFull p e.1 e.2.1 s else s.lbUpd p fun l => { l with lint := l.lint ++ [e] }) = steady s :=
    steady_ite (steady_lintFull _ _ _ s) (steady_lbUpd _ _ s)
  unfold leaveActive
  cases hout : (s.lb p).outFrame <;> cases hrouted : (s.lb p).routedFrame <;> simp [lbRaise, hlint, hout, hrouted]

@[simp] theorem steady_portReset (p : Nat) (s : State) : steady (portReset p s) = steady s :=
  steady_ite (steady_leaveActive p 0 s) (steady_ite rfl (by simp))

/-! ## The links, the stage and the translations -/

@[simp] theorem steady_linkStop (k : Nat) (s : State) : steady (linkStop k s) = steady s := by simp [linkStop]

@[simp] theorem steady_atsBump (e : Nat) (s : State) : steady (atsBump e s) = steady s := steady_of_same rfl rfl

@[simp] theorem steady_atsFlush (s : State) : steady (atsFlush s) = steady s := by simp +decide [atsFlush, atsDiscard]

@[simp] theorem steady_updC0Short (s : State) : steady (updC0Short s) = steady s := by simp +decide [updC0Short]

@[simp] theorem steady_updStage (s : State) : steady (updStage s) = steady s := by simp +decide [updStage]

@[simp] theorem steady_cancelDesc (k : DKey) (s : State) : steady (cancelDesc k s) = steady s :=
  steady_of_keeps (keeps_cancelDesc k rfl (keeps_refl _ s))

@[simp] theorem steady_dropUpTags (l : List (Nat × HostTag)) (s : State) : steady (dropUpTags l s) = steady s :=
  steady_of_keeps (keeps_dropUpTags l rfl (keeps_refl _ s))

@[simp] theorem steady_dropAllHreads (s : State) : steady (dropAllHreads s) = steady s :=
  steady_of_keeps (keeps_dropAllHreads rfl (keeps_refl _ s))

@[simp] theorem steady_abortDesc (k : DKey) (s : State) : steady (abortDesc k s) = steady s := by simp [abortDesc]

@[simp] theorem steady_setPtmValid (b : Bool) (s : State) : steady (setPtmValid b s) = steady s := steady_ite rfl (by simp +decide)

@[simp] theorem steady_leftLow (low : Bool) (s : State) : steady (leftLow low s) = steady s := by simp [leftLow]

/-! ## Commands and the store -/

@[simp] theorem steady_logConflict (mb op : Nat) (stamp : Stroke) (s : State) : steady (logConflict mb op stamp s) = steady s := by
  simp +decide [logConflict]

/-- The mailboxes lie above the registers of the view. -/
theorem le_mbxBase (mb : Nat) : 0x780000 ≤ mbxBase mb := by
  unfold mbxBase Adr.MBX_CMD Adr.MBXS_CMD
  split <;> omega

@[simp] theorem stray_mbxField (mb off hi lo : Nat) : (mbxField mb off hi lo).stray = true :=
  stray_of_le (Nat.le_add_right_of_le (Nat.le_trans (by decide) (le_mbxBase mb)))

@[simp] theorem stray_mbxState (mb : Nat) : (mbxState mb).stray = true := stray_mbxField mb _ _ _

@[simp] theorem steady_mbxEvent (mb : Nat) (s : State) : steady (mbxEvent mb s) = steady s :=
  steady_ite (steady_set _ _ s (by decide)) (steady_ite rfl (steady_ctxEvent _ _ s))

theorem steady_setByte {a : Nat} (b : Byte) (s : State) (h : 0x780000 ≤ a) : steady (setByte a b s) = steady s :=
  steady_setWord _ _ s (stray_of_le (by simp only; omega))

theorem steady_putArea {a : Nat} (l : List Byte) (s : State) (h : 0x780000 ≤ a) : steady (putArea a l s) = steady s := by
  induction l generalizing a s with
  | nil => rfl
  | cons b l ih => rw [putArea, ih _ (by omega), steady_setByte b s h]

theorem steady_drawBytes {a : Nat} (n : Nat) (s : State) (h : 0x780000 ≤ a) : steady (drawBytes a n s) = steady s := by
  induction n generalizing a s with
  | zero => rfl
  | succ n ih => rw [drawBytes, ih _ (by omega), steady_setByte _ _ h, steady_drewOne]

@[simp] theorem steady_peerReply (code : Nat) (res : List Byte) (s : State) : steady (peerReply code res s) = steady s := by
  unfold peerReply
  split <;> simp

@[simp] theorem steady_mbxDone (mb op : Nat) (stamp : Stroke) (code : Nat) (res : List Byte) (s : State) :
    steady (mbxDone mb op stamp code res s) = steady s := by
  have hbase := le_mbxBase mb
  have hput (s : State) := steady_putArea (a := mbxBase mb + 0x20) res s (by omega)
  have hdraw (n : Nat) (s : State) := steady_drawBytes (a := mbxBase mb + 0x20 + res.length) n s (by omega)
  simp +decide [mbxDone, hput, hdraw]

@[simp] theorem steady_cmdDone (id code : Nat) (res : List Byte) (s : State) : steady (cmdDone id code res s) = steady s := by
  unfold cmdDone
  split <;> simp

@[simp] theorem steady_preserveCmds (s : State) : steady (preserveCmds s) = steady s := by simp [preserveCmds]

@[simp] theorem steady_preserveStore (cause : Nat) (s : State) : steady (preserveStore cause s) = steady s :=
  steady_ite (by simp +decide) rfl

@[simp] theorem steady_fwStop (safe : Bool) (s : State) : steady (fwStop safe s) = steady s :=
  steady_of_keeps (keeps_fwStop safe rfl (keeps_refl _ s))

@[simp] theorem steady_fwCut (s : State) : steady (fwCut s) = steady s :=
  steady_of_keeps (keeps_fwCut rfl (keeps_refl _ s))

@[simp] theorem steady_emitLeave (s : State) : steady (emitLeave s) = steady s :=
  steady_of_keeps (keeps_emitLeave rfl (keeps_refl _ s))

@[simp] theorem steady_soloNext (l : List Nat) (s : State) : steady (soloNext l s) = steady s :=
  steady_of_keeps (keeps_soloNext l rfl (keeps_refl _ s))

/-! ## The store's format -/

@[simp] theorem steady_updMirrorStatus (s : State) : steady (updMirrorStatus s) = steady s := by simp +decide [updMirrorStatus]

@[simp] theorem steady_updBudget (s : State) : steady (updBudget s) = steady s := by simp +decide [updBudget]

@[simp] theorem steady_updWear (s : State) : steady (updWear s) = steady s := by simp +decide [updWear]

@[simp] theorem steady_aptDetach (a : Nat) (s : State) : steady (aptDetach a s) = steady s := by
  unfold aptDetach
  split <;> simp

theorem tabGet_tabKeep {α : Type} (d : Nat → α) (p : Nat → Bool) (t : Table α) {k : Nat} (h : p k = true) :
    tabGet d (tabKeep p t) k = tabGet d t k := by
  have hfind : tabFind (tabKeep p t) k = tabFind t k := by
    unfold tabKeep
    induction t with
    | nil => rfl
    | cons e t ih =>
      by_cases hp : p e.1 = true
      · simp [List.filter_cons_of_pos, hp, tabFind, ih]
      · have hne : e.1 ≠ k := fun he => hp (he ▸ h)
        simp [List.filter_cons_of_neg, hp, tabFind, ih, hne]
  unfold tabGet
  rw [hfind]

/-- The registers below the aperture pages stay. -/
theorem steady_formatted (st : Store) (s : State) :
    steady { s with ds := st, regs := tabKeep (fun k => decide (k < 2 ^ 36 ∨ 2 ^ 37 ≤ k)) s.regs } = steady s := by
  refine Prod.ext (List.map_congr_left fun g hg => ?_) rfl
  have hlow : g.addr < 0x150000 := (fits_steadyFields g hg).2.2
  unfold State.get State.word
  rw [tabGet_tabKeep _ _ _ (decide_eq_true (Or.inl (by omega)))]

@[simp] theorem steady_formatApply (big : Bool) (s : State) : steady (formatApply big s) = steady s := by
  unfold formatApply
  dsimp only
  rw [steady_updWear, steady_updMirrorStatus, steady_updBudget]
  iterate 7 rw [steady_set _ _ _ (by decide)]
  rw [steady_medUpd]
  exact (steady_formatted _ _).trans (by simp)

/-! ## The start of the ROM -/

@[simp] theorem steady_tapUpd (f : Tap → Tap) (s : State) : steady (s.tapUpd f) = steady s := steady_of_same rfl rfl

@[simp] theorem stray_ACC_REGION_LO (i : Nat) : Field.stray ⟨Adr.ACC_REGION_LO i, 31, 0⟩ = true :=
  stray_of_le (Nat.le_add_right_of_le (by decide))

@[simp] theorem stray_ACC_REGION_HI (i : Nat) : Field.stray ⟨Adr.ACC_REGION_HI i, 31, 0⟩ = true :=
  stray_of_le (Nat.le_add_right_of_le (by decide))

@[simp] theorem steady_loadRegion (i : Nat) (s : State) : steady (loadRegion i s) = steady s := by simp +decide [loadRegion]

@[simp] theorem steady_aloneRegs (why : Nat) (s : State) : steady (aloneRegs why s) = steady s := by simp +decide [aloneRegs]

/-- The ROM starts: of the view only that it runs changes. -/
theorem steady_romStart (s : State) : steady (romStart s) = steady (s.devUpd fun d => { d with rom := true }) := by
  unfold romStart
  dsimp only
  split <;> simp +decide

end Sys2Proof.Machine
end

section

/-! Mode transitions, and the orders that board signals raise (O11). -/

namespace Sys2Proof.Machine

/-! ## What a source leaves of the mode and the device-wide state -/

@[simp] theorem raise_mode (n : Nat) (s : State) : (raise n s).mode = s.mode := mode_of_steady (steady_raise n s)

/-! The fields of the device-wide state that orders rest on. -/

@[simp] theorem raise_presPend (n : Nat) (s : State) : (raise n s).dev.presPend = s.dev.presPend :=
  presPend_of_steady (steady_raise n s)

@[simp] theorem raise_causes (n : Nat) (s : State) : (raise n s).dev.causes = s.dev.causes := causes_of_steady (steady_raise n s)

@[simp] theorem raise_servingAt (n : Nat) (s : State) : (raise n s).dev.servingAt = s.dev.servingAt := servingAt_of_steady (steady_raise n s)

/-! ## A transition -/

theorem mode_set_code (m : Mode) (s : State) : (s.set Fld.DEV_MODE_MODE m.code).mode = m := by
  unfold State.mode
  rw [get_set_same _ _ _ (by decide)]
  cases m <;> rfl

@[simp] theorem modeTo_mode (m : Mode) (cause : Nat) (s : State) : (modeTo m cause s).mode = m := by
  rw [modeTo, raise_mode, mode_set_apart _ _ _ (by decide), mode_set_apart _ _ _ (by decide), mode_set_apart _ _ _ (by decide), mode_set_code]

theorem get_cause_modeTo (m : Mode) {cause : Nat} (s : State) (h : cause < 256) : (modeTo m cause s).get Fld.DEV_MODE_CAUSE = cause := by
  rw [modeTo, get_of_steady (steady_raise 4 _) (by decide), get_set_apart _ _ _ _ (by decide), get_set_apart _ _ _ _ (by decide),
    get_set_same _ _ _ (by decide)]
  exact Nat.mod_eq_of_lt h

theorem get_prev_modeTo (m : Mode) (cause : Nat) (s : State) : (modeTo m cause s).get Fld.DEV_MODE_PREV = s.get Fld.DEV_MODE_MODE % 8 := by
  rw [modeTo, get_of_steady (steady_raise 4 _) (by decide), get_set_apart _ _ _ _ (by decide), get_set_apart _ _ _ _ (by decide),
    get_set_apart _ _ _ _ (by decide), get_set_apart _ _ _ _ (by decide), get_set_same _ _ _ (by decide)]
  rfl

theorem modeTo_now (m : Mode) (cause : Nat) (s : State) : (modeTo m cause s).now = s.now :=
  (keeps_modeTo (w := 0x1FFFFFFFFB) m cause rfl (keeps_refl _ s)).same .now rfl

theorem modeTo_servingAt (m : Mode) (cause : Nat) (s : State) : (modeTo m cause s).dev.servingAt = s.dev.servingAt := by
  rw [modeTo, raise_servingAt, set_dev, set_dev, set_dev, set_dev, set_dev]

/-- The code of STANDBY is read only where it stands. -/
theorem get_mode_of_standby {s : State} (h : s.mode = .standby) : s.get Fld.DEV_MODE_MODE = 1 := by
  unfold State.mode Mode.ofCode at h
  split at h <;> simp_all

/-! ## The order of PRESERVE -/

theorem orderPreserve_free {cause : Nat} {s : State} (hmode : s.mode ≠ .preserve) (hfree : s.dev.presPend = none) :
    orderPreserve cause s = s.devUpd fun d => { d with presPend := some cause, devResetAt := none } := by
  simp [orderPreserve, hmode, hfree]

theorem orderPreserve_ordered {cause c : Nat} {s : State} (h : s.dev.presPend = some c) : orderPreserve cause s = s := by
  simp [orderPreserve, h]

theorem mode_of_recognises {s : State} (h : recognises s = true) : s.mode ≠ .preserve := by
  simp only [recognises, Bool.and_eq_true, bne_iff_ne] at h
  exact h.2

/-! ## Pending bits -/

theorem testBit_orBit_same (v b : Nat) : (orBit v b).testBit b = true := by
  rw [Nat.testBit_eq_decide_div_mod_eq, decide_eq_true_eq]
  unfold orBit bitOf
  split
  case isTrue h => simpa using h
  case isFalse h =>
    rw [Nat.add_div_right _ (Nat.two_pow_pos b)]
    simp only [beq_iff_eq] at h
    omega

/-- The bit of a source in the word of its pending bits, after it was set. -/
theorem isPending_setPending (n : Nat) (s : State) : isPending (setPending n s) n = true := by
  have hbit : n % 32 < 32 := Nat.mod_lt _ (by decide)
  simp [isPending, setPending, BitVec.getLsbD_ofNat, testBit_orBit_same, hbit]

/-- Outside Rest the edge of a source sets its pending bit, and a trigger of the photo finish leaves it. -/
theorem isPending_raiseEdge {n : Nat} {s : State} (hn : n < 288) (h : s.inRest = false) : isPending (raiseEdge n s) n = true := by
  have hrest : (doIf (!servedAsleep s n) (noteWake n) s).inRest = false := by
    have hsteady : steady (doIf (!servedAsleep s n) (noteWake n) s) = steady s := by simp
    rw [← h]
    unfold State.inRest
    rw [get_of_steady hsteady (by decide)]
  have hword (u : State) (c : Bool) : isPending (doIf c (pfsTrigger 2) u) n = isPending u n := by
    have hregs : RegsOnly [Fld.PFS_STAT_MISSED.addr] u (doIf c (pfsTrigger 2) u) :=
      regsOnly_doIf (fun _ _ => rfl) fun s hs => regsOnly_pfsTrigger 2 (by simp) hs
    have haddr : Adr.IC_PEND (n / 32) ∉ [Fld.PFS_STAT_MISSED.addr] := by
      simp only [Adr.IC_PEND, Fld.PFS_STAT_MISSED, List.mem_singleton]
      omega
    unfold isPending
    rw [hregs _ haddr]
  unfold raiseEdge
  simp only [hrest]
  rw [hword]
  exact isPending_setPending n _

/-- A source that no event and no attention bit follows is its edge alone. -/
theorem raise_pwrFail (s : State) : raise 0 s = raiseEdge 0 s := rfl

theorem raise_cardEject (s : State) : raise 1 s = raiseEdge 1 s := rfl

theorem isPending_raise_pwrFail {s : State} (h : s.inRest = false) : isPending (raise 0 s) 0 = true := by
  rw [raise_pwrFail, isPending_raiseEdge (by decide) h]

theorem isPending_raise_cardEject {s : State} (h : s.inRest = false) : isPending (raise 1 s) 1 = true := by
  rw [raise_cardEject, isPending_raiseEdge (by decide) h]

/-! ## The orders of the board -/

/-- An extraction order in MAINTENANCE is held, as a cause of its own. -/
theorem orderExtract_maintenance {c : ModeCause} {s : State} (h : s.mode = .maintenance) :
    orderExtract c s = addCause .heldOrder (s.devUpd fun d => { d with heldOrder := true }) := by
  rw [orderExtract, h]

theorem addCause_heldOrder (c : ModeCause) (s : State) : (addCause c s).dev.heldOrder = s.dev.heldOrder := by
  unfold addCause
  split <;> rfl

theorem addCause_mode (c : ModeCause) (s : State) : (addCause c s).mode = s.mode := by
  unfold State.mode
  rw [get_addCause]

theorem isPending_devUpd (f : Dev → Dev) (s : State) (n : Nat) : isPending (s.devUpd f) n = isPending s n := rfl

theorem isPending_orderPreserve (cause : Nat) (s : State) (n : Nat) : isPending (orderPreserve cause s) n = isPending s n := by
  unfold orderPreserve
  split <;> rfl

theorem isPending_addCause (c : ModeCause) (s : State) (n : Nat) : isPending (addCause c s) n = isPending s n := by
  unfold addCause
  split <;> rfl

theorem isPending_orderExtract (c : ModeCause) (s : State) (n : Nat) : isPending (orderExtract c s) n = isPending s n := by
  unfold orderExtract
  split <;> simp [isPending_addCause, isPending_devUpd]

theorem exec_pwrFailRecognised {s : State} (h : recognises s = true) : exec .pwrFailRecognised s = .next (orderPreserve 7 (raise 0 s)) := by
  change execPwrFailRecognised s = _
  simp [execPwrFailRecognised, done, h]

theorem exec_cardEjectRecognised {s : State} (h : recognises s = true) :
    exec .cardEjectRecognised s = .next (orderExtract .cardEject (raise 1 s)) := by
  change execCardEjectRecognised s = _
  simp [execCardEjectRecognised, done, h]

theorem exec_thermTripRecognised_external {s : State} (h : recognises s = true) :
    exec (.thermTripRecognised true) s = .next (orderPreserve 8 (raise 3 s)) := by
  change execThermTripRecognised true s = _
  simp [execThermTripRecognised, thermTrip, done, h]

/-- The trip output and the count of trips, before the order. -/
def tripped (s : State) : State := ((raise 3 s).devUpd fun d => { d with tripOut := true }).inc Fld.CRP_THROTTLE_CNT_TRIPS 1

theorem exec_thermTripRecognised_own {s : State} (h : recognises s = true) (hout : s.dev.tripOut = false) (hhot : 920 ≤ s.hottest) :
    exec (.thermTripRecognised false) s = .next (orderPreserve 8 (tripped s)) := by
  change execThermTripRecognised false s = _
  simp [execThermTripRecognised, ownTrip, thermTrip, tripped, done, h, hout, hhot]

theorem tripped_mode (s : State) : (tripped s).mode = s.mode := by
  unfold tripped State.inc
  rw [mode_set_apart _ _ _ (by decide)]
  exact raise_mode 3 s

theorem tripped_presPend (s : State) : (tripped s).dev.presPend = s.dev.presPend := raise_presPend 3 s

theorem get_trips_tripped (s : State) :
    (tripped s).get Fld.CRP_THROTTLE_CNT_TRIPS = min Fld.CRP_THROTTLE_CNT_TRIPS.max (s.get Fld.CRP_THROTTLE_CNT_TRIPS + 1) := by
  unfold tripped
  rw [get_inc_same _ _ _ (by decide), devUpd_get, get_raise _ _ _ (by decide)]

/-! ## Functions ready -/

/-- The physical function is ready, and the device's readiness is to be reported. -/
def functionsUp (s : State) : State := (s.fnUpd 0 fun f => { f with ready := true }).devUpd fun d => { d with drs := true }

/-- The readiness is reported at once, or owed until the link is up. -/
def drsReport (s : State) : State :=
  if s.linkUp then emit (.pcie 0 "DRS" 0) s else s.hlUpd fun h => { h with drsOwed := true }

theorem drsReport_dev (s : State) : (drsReport s).dev = s.dev := by
  unfold drsReport
  split <;> rfl

theorem drsReport_fn (s : State) (c : Nat) : (drsReport s).fn c = s.fn c := by
  unfold drsReport
  split <;> rfl

theorem functionsUp_ready (s : State) : ((functionsUp s).fn 0).ready = true := by
  rw [functionsUp, devUpd_fn, fnUpd_same]

theorem exec_functionsReady {nand : List NandChannel} {dram : DramOrg} {s : State} (hmode : s.mode = .standby) (hdrs : s.dev.drs = false)
    (hpel : s.pelState ≠ 1) (hgood : dramGood dram = true) :
    ∃ u : State, exec (.functionsReady nand dram) s = .next (drsReport (functionsUp u)) := by
  refine ⟨((doIf (populationGood nand) recoverStore (mediaReady nand (dramReady dram s))) |> share0Granted).set (Fld.CTX_STATE_STATE 0) 2, ?_⟩
  change execFunctionsReady nand dram s = _
  rw [execFunctionsReady, if_pos ⟨hmode, by simp [hdrs], hpel, hgood⟩]
  rfl

/-! ## SERVING at the boundary -/

/-- No cause and no order of SERVING waits. -/
def nothingDue (s : State) : State := s.devUpd fun d => { d with causes := [], servingAt := none }

theorem modeBoundary_serving {s : State} (hmode : s.mode = .standby) (hdue : s.dev.servingAt.isSome = true) (hcauses : s.dev.causes = [])
    (hawake : s.sleepState = 0) : modeBoundary s = doIf s.linkUp (ltrSend true) (modeTo .serving 2 (nothingDue s)) := by
  have hidle : s.dev.servingAt.isSome = true ∧ (nothingDue s).mode = .standby := ⟨hdue, hmode⟩
  have hrun : modeBoundary s = runBoundary s := by simp [modeBoundary, hmode, hawake]
  rw [hrun, runBoundary, hcauses]
  exact if_pos hidle

@[simp] theorem steady_ltrSend (required : Bool) (s : State) : steady (ltrSend required s) = steady s := steady_of_same rfl rfl

/-- Entry to SERVING is the transition, whose view the report of the latency tolerance leaves. -/
theorem steady_modeBoundary_serving {s : State} (hmode : s.mode = .standby) (hdue : s.dev.servingAt.isSome = true)
    (hcauses : s.dev.causes = []) (hawake : s.sleepState = 0) : steady (modeBoundary s) = steady (modeTo .serving 2 (nothingDue s)) := by
  rw [modeBoundary_serving hmode hdue hcauses hawake]
  simp

theorem doIf_ltrSend_now (c required : Bool) (s : State) : (doIf c (ltrSend required) s).now = s.now := by
  cases c <;> rfl

theorem modeBoundary_serving_now {s : State} (hmode : s.mode = .standby) (hdue : s.dev.servingAt.isSome = true)
    (hcauses : s.dev.causes = []) (hawake : s.sleepState = 0) : (modeBoundary s).now = s.now := by
  rw [modeBoundary_serving hmode hdue hcauses hawake, doIf_ltrSend_now, modeTo_now]
  rfl

/-- Settles O11: functions ready, then SERVING at its boundary, then each signal by the equation of its row. -/
theorem readyServingAndBoardOrders : Obligations.ReadyServingAndBoardOrders := by
  unfold Obligations.ReadyServingAndBoardOrders
  refine ⟨?ready, ?serving, ?boundary, ?pwrFail, ?pwrFailAgain, ?pwrFailPending, ?trip, ?tripAgain, ?ownTrip, ?ejectServing,
    ?ejectMaintenance, ?ejectBoot, ?ejectPending, ?drained⟩
  case ready =>
    intro nand dram s hmode hdrs hpel hgood
    obtain ⟨u, hx⟩ := exec_functionsReady (nand := nand) hmode hdrs hpel hgood
    have ho : Only (raised ++ [.flt, .store, .med]) s _ := only_of_exec hx
    refine ⟨_, hx, ?_, ?_, same_of_only ho .fuses (by decide)⟩
    · rw [drsReport_dev]; rfl
    · rw [drsReport_fn, functionsUp_ready]
  case serving =>
    intro s hmode hdue hcauses hpres hovertaken
    change execEnterServing s = _
    simp [execEnterServing, done, hmode, hdue, hcauses, hpres, hovertaken]
  case boundary =>
    intro s hmode hdue hcauses hawake
    have hsteady := steady_modeBoundary_serving hmode hdue hcauses hawake
    refine ⟨?_, ?_, ?_, ?_, modeBoundary_serving_now hmode hdue hcauses hawake⟩
    · rw [mode_of_steady hsteady, modeTo_mode]
    · rw [get_of_steady hsteady (by decide), get_prev_modeTo]
      exact congrArg (· % 8) (get_mode_of_standby hmode)
    · rw [get_of_steady hsteady (by decide), get_cause_modeTo _ _ (by decide)]
    · rw [servingAt_of_steady hsteady, modeTo_servingAt]
      rfl
  case pwrFail =>
    intro s h hfree
    rw [exec_pwrFailRecognised h, orderPreserve_free ((raise_mode 0 s).trans_ne (mode_of_recognises h)) ((raise_presPend 0 s).trans hfree)]
  case pwrFailAgain =>
    intro cause s h hordered
    rw [exec_pwrFailRecognised h, orderPreserve_ordered ((raise_presPend 0 s).trans hordered)]
  case pwrFailPending =>
    intro s h hrest
    exact ⟨_, exec_pwrFailRecognised h, (isPending_orderPreserve _ _ _).trans (isPending_raise_pwrFail hrest)⟩
  case trip =>
    intro s h hfree
    rw [exec_thermTripRecognised_external h,
      orderPreserve_free ((raise_mode 3 s).trans_ne (mode_of_recognises h)) ((raise_presPend 3 s).trans hfree)]
  case tripAgain =>
    intro cause s h hordered
    rw [exec_thermTripRecognised_external h, orderPreserve_ordered ((raise_presPend 3 s).trans hordered)]
  case ownTrip =>
    intro s h hfree hout hhot
    refine ⟨_, exec_thermTripRecognised_own h hout hhot, ?_⟩
    rw [orderPreserve_free ((tripped_mode s).trans_ne (mode_of_recognises h)) ((tripped_presPend s).trans hfree)]
    exact ⟨rfl, rfl, get_trips_tripped s⟩
  case ejectServing =>
    intro s h hmode hnew
    have hmode' : (raise 1 s).mode = .serving := (raise_mode 1 s).trans hmode
    have hnew' : .cardEject ∉ (raise 1 s).dev.causes := by rw [raise_causes]; exact hnew
    rw [exec_cardEjectRecognised h, orderExtract, hmode']
    simp only [addCause, hnew', if_false]
  case ejectMaintenance =>
    intro s h hmode
    have hmode' : (raise 1 s).mode = .maintenance := (raise_mode 1 s).trans hmode
    refine ⟨_, exec_cardEjectRecognised h, ?_⟩
    rw [orderExtract_maintenance hmode']
    exact ⟨addCause_heldOrder _ _, mem_causes_addCause _ _, (addCause_mode _ _).trans hmode'⟩
  case ejectBoot =>
    intro s h hmode
    have hmode' : (raise 1 s).mode = .boot := (raise_mode 1 s).trans hmode
    rw [exec_cardEjectRecognised h, orderExtract, hmode']
    simp [State.devUpd]
  case ejectPending =>
    intro s h hrest
    exact ⟨_, exec_cardEjectRecognised h, (isPending_orderExtract _ _ _).trans (isPending_raise_cardEject hrest)⟩
  case drained =>
    intro s h hfree
    have hmode : s.mode ≠ .preserve := by
      simp only [drained, Bool.and_eq_true, beq_iff_eq] at h
      rw [h.1.1.1]
      decide
    change execDrainComplete s = _
    rw [execDrainComplete, if_pos h, orderPreserve_free hmode hfree]
    rfl

end Sys2Proof.Machine
end

section

/-! The host link's states: training, lane failure, recovery, resets and down events (O15). -/

namespace Sys2Proof.Machine

/-! ## Training -/

theorem widestWidth_le (a b : Nat) : widestWidth a b ≤ 16 := by
  have hmem (o : Option Nat) (h : ∀ w, o = some w → w ∈ linkWidths) : o.getD 0 ≤ 16 := by
    cases o with
    | none => exact Nat.zero_le 16
    | some w => exact (by decide : ∀ w ∈ linkWidths, w ≤ 16) w (h w rfl)
  exact hmem _ fun w hw => List.mem_of_find?_eq_some hw

theorem get_width_setLink {w v : Nat} (s : State) (hw : w ≤ 16) : (setLink w v s).get Fld.HL_LINK_STATUS_WIDTH = w := by
  rw [setLink, get_of_steady (steady_updC0Short _) (by decide), get_set_apart _ _ _ _ (by decide), get_set_apart _ _ _ _ (by decide),
    get_set_same _ _ _ (by decide)]
  exact Nat.mod_eq_of_lt (Nat.lt_of_le_of_lt hw (by decide))

theorem get_speed_setLink {w v : Nat} (s : State) (hv : v ≤ 6) : (setLink w v s).get Fld.HL_LINK_STATUS_SPEED = v := by
  rw [setLink, get_of_steady (steady_updC0Short _) (by decide), get_set_apart _ _ _ _ (by decide), get_set_same _ _ _ (by decide)]
  exact Nat.mod_eq_of_lt (Nat.lt_of_le_of_lt hv (by decide))

theorem get_setLink {w v : Nat} (s : State) {f : Field} (hf : f ∈ steadyFields) (hwidth : Fld.HL_LINK_STATUS_WIDTH.Apart f)
    (hspeed : Fld.HL_LINK_STATUS_SPEED.Apart f) (hcap : Fld.HL_LINK_STATUS_SLOT_CAP.Apart f) : (setLink w v s).get f = s.get f := by
  rw [setLink, get_of_steady (steady_updC0Short _) hf, get_set_apart _ _ _ _ hcap, get_set_apart _ _ _ _ hspeed,
    get_set_apart _ _ _ _ hwidth]

/-- The link in L0 at the width and rate it trained to. -/
def trained (flit : Bool) (w v : Nat) (s : State) : State :=
  setLink w v ((((s.set Fld.HL_LINK_STATUS_DL_UP 1).set Fld.HL_LINK_STATUS_FLIT flit.toNat).set Fld.HL_LINK_STATUS_LSTATE 1).set
    Fld.HL_LINK_STATUS_TRAINED_WIDTH w)

theorem get_dlUp_trained (flit : Bool) (w v : Nat) (s : State) : (trained flit w v s).get Fld.HL_LINK_STATUS_DL_UP = 1 := by
  rw [trained, get_setLink _ (by decide) (by decide) (by decide) (by decide), get_set_apart _ _ _ _ (by decide),
    get_set_apart _ _ _ _ (by decide), get_set_apart _ _ _ _ (by decide), get_set_same _ _ _ (by decide)]
  rfl

theorem get_flit_trained (flit : Bool) (w v : Nat) (s : State) : (trained flit w v s).get Fld.HL_LINK_STATUS_FLIT = flit.toNat := by
  rw [trained, get_setLink _ (by decide) (by decide) (by decide) (by decide), get_set_apart _ _ _ _ (by decide),
    get_set_apart _ _ _ _ (by decide), get_set_same _ _ _ (by decide)]
  cases flit <;> rfl

/-- The rate at which the link trains. -/
def trainedSpeed (speed max : Nat) (flit : Bool) : Nat := min (min speed max) (if flit then 6 else 5)

theorem trainedSpeed_le (speed max : Nat) (flit : Bool) : trainedSpeed speed max flit ≤ 6 := by
  cases flit <;> simp [trainedSpeed]

theorem trainedSpeed_pos {speed max : Nat} (flit : Bool) (hspeed : 1 ≤ speed) (hmax : 1 ≤ max) : trainedSpeed speed max flit ≠ 0 := by
  cases flit <;> simp [trainedSpeed] <;> omega

theorem ite_trainedSpeed (speed : Fin 7) (max : Nat) (flit : Bool) :
    (if flit then min speed.val max else min (min speed.val max) 5) = trainedSpeed speed max flit := by
  have hspeed := speed.isLt
  cases flit
  · rfl
  · simp [trainedSpeed]; omega

/-- The sources of a link that comes up at another width or rate than before, and its DRS where that is owed. -/
def linkUpEvents (oldW w oldV v : Nat) (s : State) : State :=
  s |> raise 16 |> doIf (oldW != 0 && oldW != w) (raise 20) |> doIf (oldV != 0 && oldV != v) (raise 21)

theorem steady_linkUpEvents (oldW w oldV v : Nat) (s : State) : steady (linkUpEvents oldW w oldV v s) = steady s := by
  simp [linkUpEvents]

/-- What the link notes of its partner as it trains. -/
def partnerNoted (width speed : Nat) (flit : Bool) (s : State) : State :=
  (s.hlUpd fun h => { h with partW := width, partV := speed, partFlit := flit, lanes := 0xFFFF, lowUse := 0 }).devUpd
    (fun d => { d with wake := false }) |> backToL0

/-- The link comes up: after training the sources of the event, the DRS where it is owed, and the marks of a hot reset and of the DRS
cleared. -/
theorem exec_hlLinkUp {width : Fin 17} {speed : Fin 7} {flit : Bool} {s : State} (hen : hlEnabled s = true) (hmode : s.mode ≠ .preserve)
    (hlink : s.isSet Fld.HL_LINK_STATUS_DL_UP = false) (hdown : s.hl.down = none)
    (hwidth : widestWidth width (s.get Fld.HL_LINK_CTL_MAX_WIDTH) ≠ 0) (hspeed : 1 ≤ speed.val) (hmax : 1 ≤ s.get Fld.HL_LINK_CTL_MAX_SPEED) :
    ∃ r u : State, steady u = steady (trained flit (widestWidth width (s.get Fld.HL_LINK_CTL_MAX_WIDTH))
        (trainedSpeed speed (s.get Fld.HL_LINK_CTL_MAX_SPEED) flit) r) ∧
      exec (.hlLinkUp width speed flit) s =
        .next ((doIf s.hl.drsOwed (emit (.pcie 0 "DRS" 0)) u).hlUpd fun h => { h with hot := false, drsOwed := false }) := by
  have hpos := trainedSpeed_pos flit hspeed hmax
  simp only [hlEnabled, Bool.and_eq_true, Bool.not_eq_true'] at hen
  obtain ⟨⟨⟨hrom, hcounting⟩, hperst⟩, htest⟩ := hen
  refine ⟨partnerNoted width speed flit s, linkUpEvents (s.get Fld.HL_LINK_STATUS_TRAINED_WIDTH)
    (widestWidth width (s.get Fld.HL_LINK_CTL_MAX_WIDTH)) (s.get Fld.HL_LINK_STATUS_SPEED)
    (trainedSpeed speed (s.get Fld.HL_LINK_CTL_MAX_SPEED) flit) (trained _ _ _ _), steady_linkUpEvents _ _ _ _ _, ?_⟩
  change execHlLinkUp width speed flit s = _
  rw [execHlLinkUp, ite_trainedSpeed]
  dsimp only
  rw [if_neg (by simp [hrom, hcounting, hmode, htest, hperst, hwidth, hpos, hlink, hdown])]
  simp only [done, linkUpEvents, trained, partnerNoted]

/-! ## Lane failure -/

theorem raise_flt (n : Nat) (s : State) : (raise n s).flt = s.flt := (keeps_raise (w := 0x102002D3AB) n rfl (keeps_refl _ s)).same .flt rfl

theorem setLink_flt (w v : Nat) (s : State) : (setLink w v s).flt = s.flt :=
  (keeps_setLink (w := 0x102002D3AB) w v rfl (keeps_refl _ s)).same .flt rfl

@[simp] theorem steady_logEv (code : Nat) (detail : List Byte) (s : State) : steady (logEv code detail s) = steady s := by
  rw [logEv, steady_set _ _ _ (by decide), steady_set _ _ _ (by decide), steady_set _ _ _ (by decide)]
  exact steady_of_same rfl rfl

theorem get_code_logEv {code : Nat} (detail : List Byte) (s : State) (h : code < 65536) :
    (logEv code detail s).get Fld.DEV_FAULT_LOG_CODE = code := by
  rw [logEv, get_set_apart _ _ _ _ (by decide), get_set_same _ _ _ (by decide)]
  exact Nat.mod_eq_of_lt h

theorem logEv_logged (code : Nat) (detail : List Byte) (s : State) : (logEv code detail s).flt.logged = s.flt.logged + 1 := rfl

/-- The narrower link before the event is counted, raised and logged. -/
def narrowed (pass : BitVec 16) (w : Nat) (s : State) : State :=
  setLink w (s.get Fld.HL_LINK_STATUS_SPEED) ((s.hlUpd fun h => { h with lanes := pass }).set Fld.HL_LINK_STATUS_TRAINED_WIDTH w)

theorem exec_hlLaneFail {pass : BitVec 16} {s : State} (hlink : s.isSet Fld.HL_LINK_STATUS_DL_UP = true)
    (hw : widestWidth (widthPassing pass) (s.get Fld.HL_LINK_CTL_MAX_WIDTH) ≠ 0)
    (hless : widestWidth (widthPassing pass) (s.get Fld.HL_LINK_CTL_MAX_WIDTH) < s.get Fld.HL_LINK_STATUS_TRAINED_WIDTH) :
    ∃ detail, exec (.hlLaneFail pass) s = .next (logEv 0x0050 detail (raise 20
      ((narrowed pass (widestWidth (widthPassing pass) (s.get Fld.HL_LINK_CTL_MAX_WIDTH)) s).inc Fld.HL_ERR_CNT_WIDTH_DOWN 1))) := by
  refine ⟨leBytes 1 (s.get Fld.HL_LINK_STATUS_TRAINED_WIDTH) ++
    leBytes 1 (widestWidth (widthPassing pass) (s.get Fld.HL_LINK_CTL_MAX_WIDTH)), ?_⟩
  change execHlLaneFail pass s = _
  rw [execHlLaneFail, if_neg (by simp [hlink, hw]; omega)]
  simp only [done, narrowed]

/-! ## Recovery, PERST and hot reset -/

theorem leaveL0_eq (s : State) : leaveL0 s = (s.set Fld.HL_LINK_STATUS_IN_RECOVERY 1).hlUpd fun h => { h with recClear := none } := by
  unfold leaveL0 State.hlUpd
  rw [set_hl]

theorem hlUpd_congr {f g : Hl → Hl} {s : State} (h : f s.hl = g s.hl) : s.hlUpd f = s.hlUpd g := by
  unfold State.hlUpd
  rw [h]

/-- The edge of a source changes nothing of the host link but its registers. -/
theorem raiseEdge_hl (n : Nat) (s : State) : (raiseEdge n s).hl = s.hl := (keeps_raiseEdge (w := 0x102000C00B) n rfl (keeps_refl _ s)).same .hl rfl

theorem raise_perst_eq (s : State) : raise 18 s = raiseEdge 18 s := rfl

theorem exec_hlPerstAssertion {s : State} (hperst : s.dev.perst = false) (hlink : s.isSet Fld.HL_LINK_STATUS_DL_UP = true) :
    exec .hlPerstAssertion s = .next ((raise 18 (s.devUpd fun d => { d with perst := true })).hlUpd fun h => { h with downReset := true }) := by
  have hlink' : (raise 18 (s.devUpd fun d => { d with perst := true })).isSet Fld.HL_LINK_STATUS_DL_UP = true := by
    rw [← hlink]
    unfold State.isSet
    rw [get_of_steady (steady_raise 18 _) (by decide)]
    rfl
  change execHlPerstAssertion s = _
  rw [execHlPerstAssertion, if_neg (by simp [hperst]), done]
  exact congrArg _ (hlUpd_congr (by simp [hlink']))

/-! ## A down event -/

/-- The status of a down event, before what the link carried is abandoned. -/
def downNoted (s : State) : State :=
  s |>.set Fld.HL_SDOWN_VALID 1 |>.set Fld.HL_SDOWN_ABORTED (min 2047 (s.hl.tags.filter fun t => !t.2.quarantined).length)
    |>.set Fld.HL_SDOWN_TS_LO_STROKE_LO s.nowLo |>.set Fld.HL_SDOWN_TS_HI_STROKE_HI s.nowHi
    |>.set Fld.HL_LINK_STATUS_DL_UP 0
    |>.set Fld.HL_LINK_STATUS_LSTATE (if s.get Fld.HL_LINK_STATUS_LSTATE = 6 then 6 else 0) |>.set Fld.HL_LINK_STATUS_SLOT_CAP 0
    |> leaveL0 |> updC0Short

/-- The stroke of the down event, and whether it is a host-link reset. -/
def downMarked (s : State) : State :=
  (downNoted s).hlUpd fun h => { h with down := some s.now, downReset := h.downReset || h.hot || s.dev.perst }

/-- What the link carried is abandoned: descriptors, tags, the ports' requests for it, the host's reads. -/
def downAbandoned (s : State) : State :=
  downMarked s |> doAll (hostDma s) abortDesc |>.hlUpd (fun h => { h with tags := [] }) |> updTags |> dropUpTags s.hl.tags |> dropAllHreads

theorem dlDown_eq (s : State) :
    dlDown s = raise 17 (leftLow (s.get Fld.HL_LINK_STATUS_LSTATE == 4 || s.get Fld.HL_LINK_STATUS_LSTATE == 5)
      ((setPtmValid false (downAbandoned s)).hlUpd fun h => { h with ptmWait := none })) := rfl

theorem steady_downAbandoned (s : State) : steady (downAbandoned s) = steady (downNoted s) := by simp [downAbandoned, downMarked]

theorem steady_dlDown (s : State) : steady (dlDown s) = steady (downNoted s) := by
  simp [dlDown_eq, steady_downAbandoned]

theorem leaveL0_get {f : Field} (s : State) (h : Fld.HL_LINK_STATUS_IN_RECOVERY.Apart f) : (leaveL0 s).get f = s.get f := by
  rw [leaveL0_eq, hlUpd_get, get_set_apart _ _ _ _ h]

theorem get_downNoted (s : State) :
    (downNoted s).get Fld.HL_LINK_STATUS_DL_UP = 0 ∧ (downNoted s).get Fld.HL_SDOWN_VALID = 1 ∧
      (downNoted s).get Fld.HL_LINK_STATUS_SLOT_CAP = 0 := by
  unfold downNoted
  refine ⟨?up, ?valid, ?cap⟩
  case up =>
    rw [get_of_steady (steady_updC0Short _) (by decide), leaveL0_get _ (by decide), get_set_apart _ _ _ _ (by decide),
      get_set_apart _ _ _ _ (by decide), get_set_same _ _ _ (by decide)]
    rfl
  case valid =>
    rw [get_of_steady (steady_updC0Short _) (by decide), leaveL0_get _ (by decide), get_set_apart _ _ _ _ (by decide),
      get_set_apart _ _ _ _ (by decide), get_set_apart _ _ _ _ (by decide), get_set_apart _ _ _ _ (by decide),
      get_set_apart _ _ _ _ (by decide), get_set_apart _ _ _ _ (by decide), get_set_same _ _ _ (by decide)]
    rfl
  case cap =>
    rw [get_of_steady (steady_updC0Short _) (by decide), leaveL0_get _ (by decide), get_set_same _ _ _ (by decide)]
    rfl

/-- A down event leaves the mode and the last width, rate and FLIT mode alone. -/
theorem get_downNoted_of_apart {f : Field} (s : State) (hf : f ∈ steadyFields)
    (h : ∀ g ∈ [Fld.HL_SDOWN_VALID, Fld.HL_SDOWN_ABORTED, Fld.HL_SDOWN_TS_LO_STROKE_LO, Fld.HL_SDOWN_TS_HI_STROKE_HI,
      Fld.HL_LINK_STATUS_DL_UP, Fld.HL_LINK_STATUS_LSTATE, Fld.HL_LINK_STATUS_SLOT_CAP, Fld.HL_LINK_STATUS_IN_RECOVERY], g.Apart f) :
    (downNoted s).get f = s.get f := by
  unfold downNoted
  rw [get_of_steady (steady_updC0Short _) hf, leaveL0_get _ (h _ (by decide)), get_set_apart _ _ _ _ (h _ (by decide)),
    get_set_apart _ _ _ _ (h _ (by decide)), get_set_apart _ _ _ _ (h _ (by decide)), get_set_apart _ _ _ _ (h _ (by decide)),
    get_set_apart _ _ _ _ (h _ (by decide)), get_set_apart _ _ _ _ (h _ (by decide)), get_set_apart _ _ _ _ (h _ (by decide))]

/-! ## The host link's own state after a down event -/

theorem hl_doAll {α : Type} (l : List α) {f : α → State → State} (s : State) (hf : ∀ a s, (f a s).hl = s.hl) : (doAll l f s).hl = s.hl := by
  unfold doAll
  induction l generalizing s with
  | nil => rfl
  | cons a l ih => rw [List.foldl_cons, ih, hf]

theorem qpUpd_hl (c q : Nat) (f : Qp → Qp) (s : State) : (s.qpUpd c q f).hl = s.hl :=
  (keeps_qpUpd (w := 0x80008) c q f rfl (keeps_refl _ s)).same .hl rfl

/-- A descriptor that is cancelled changes tags alone. -/
theorem cancelDesc_down (k : DKey) (s : State) : (cancelDesc k s).hl.down = s.hl.down := by
  unfold cancelDesc
  dsimp only
  rw [hl_doAll _ _ fun _ _ => linkUpd_hl .., hl_doAll _ _ fun _ _ => lbUpd_hl ..]
  rfl

theorem abortDesc_down (k : DKey) (s : State) : (abortDesc k s).hl.down = s.hl.down := by
  rw [abortDesc, qpUpd_hl, cancelDesc_down]

theorem updTags_hl (s : State) : (updTags s).hl = s.hl := (keeps_updTags (w := 8) rfl (keeps_refl _ s)).same .hl rfl

theorem dropUpTags_hl (l : List (Nat × HostTag)) (s : State) : (dropUpTags l s).hl = s.hl :=
  (keeps_dropUpTags (w := 0x500000) l rfl (keeps_refl _ s)).same .hl rfl

theorem hreadGone_hl (r : HRead) (s : State) : (hreadGone r s).hl = s.hl := by
  unfold hreadGone
  cases r.c0 <;> rfl

/-- Of the host link, the reads that are dropped change the receive buffers alone. -/
theorem dropAllHreads_hl (s : State) : (dropAllHreads s).hl = (rxPosted (doAll s.hreads (fun r => hreadGone r) s)).hl := by
  unfold dropAllHreads
  dsimp only
  rw [hl_doAll _ _ fun _ _ => lbUpd_hl ..]
  rfl

theorem rxPosted_down (s : State) : (rxPosted s).hl.down = s.hl.down := rfl

theorem rxPosted_tags (s : State) : (rxPosted s).hl.tags = s.hl.tags := rfl

theorem doAll_abortDesc_down (l : List DKey) (s : State) : (doAll l abortDesc s).hl.down = s.hl.down := by
  unfold doAll
  induction l generalizing s with
  | nil => rfl
  | cons k l ih => rw [List.foldl_cons, ih, abortDesc_down]

theorem downAbandoned_down (s : State) : (downAbandoned s).hl.down = some s.now := by
  rw [downAbandoned, dropAllHreads_hl, rxPosted_down, hl_doAll _ _ hreadGone_hl, dropUpTags_hl, updTags_hl, hlUpd_hl]
  change (doAll (hostDma s) abortDesc (downMarked s)).hl.down = _
  rw [doAll_abortDesc_down, downMarked, hlUpd_hl]

theorem downAbandoned_tags (s : State) : (downAbandoned s).hl.tags = [] := by
  rw [downAbandoned, dropAllHreads_hl, rxPosted_tags, hl_doAll _ _ hreadGone_hl, dropUpTags_hl, updTags_hl, hlUpd_hl]

theorem setPtmValid_false_hl (s : State) : (setPtmValid false s).hl = s.hl := by
  have hedge (s : State) : raise 35 s = raiseEdge 35 s := rfl
  unfold setPtmValid
  split
  · rfl
  · rw [hedge, raiseEdge_hl, set_hl]

/-- What a link leaves of L1 is its substate alone. -/
theorem leftLow_hl (low : Bool) (s : State) : ∃ n, (leftLow low s).hl = { s.hl with sub := n } := by
  have hedge (s : State) : (raise 24 s).hl = s.hl := raiseEdge_hl 24 s
  unfold leftLow
  cases low <;> cases hsub : s.hl.sub != 0
  · exact ⟨s.hl.sub, rfl⟩
  · refine ⟨0, ?_⟩
    rw [doIf_false, doIf_true, hedge, hlUpd_hl]
  · refine ⟨s.hl.sub, ?_⟩
    rw [doIf_true, doIf_false, hedge]
  · refine ⟨0, ?_⟩
    rw [doIf_true, doIf_true, hedge, hedge, hlUpd_hl]

theorem dlDown_hl (s : State) : (dlDown s).hl.down = some s.now ∧ (dlDown s).hl.tags = [] ∧ (dlDown s).hl.ptmWait = none := by
  have hedge (s : State) : (raise 17 s).hl = s.hl := raiseEdge_hl 17 s
  obtain ⟨n, hlow⟩ := leftLow_hl (s.get Fld.HL_LINK_STATUS_LSTATE == 4 || s.get Fld.HL_LINK_STATUS_LSTATE == 5)
    ((setPtmValid false (downAbandoned s)).hlUpd fun h => { h with ptmWait := none })
  rw [dlDown_eq, hedge, hlow, hlUpd_hl, setPtmValid_false_hl]
  exact ⟨downAbandoned_down s, downAbandoned_tags s, rfl⟩

theorem exec_dlDown {s : State} (hlink : s.isSet Fld.HL_LINK_STATUS_DL_UP = true) (hmode : s.mode ≠ .preserve) :
    exec .dlDown s = .next (dlDown s) := by
  change execDlDown s = _
  rw [execDlDown, if_pos ⟨hlink, hmode⟩, done]

/-! ## The classification of a down event -/

/-- The class of a down event, and its marks cleared. -/
def downClassed (s : State) : State :=
  (s.set Fld.HL_SDOWN_CLASS 0).hlUpd fun h => { h with down := none, downReset := false, hot := false }

theorem exec_dlDownClassify_surprise {at_ : Stroke} {s : State} (hdown : s.hl.down = some at_) (hlate : 200 ≤ s.since at_)
    (hmode : s.mode = .serving) (hreset : s.hl.downReset = false) : exec .dlDownClassify s = .next (addCause .surpriseDown (downClassed s)) := by
  have hserving : (downClassed s).mode = .serving := by
    rw [downClassed, hlUpd_mode, mode_set_apart _ _ _ (by decide), hmode]
  have hopen : ¬ (s.since at_ < 200 ∨ s.mode = .preserve) := by
    rw [hmode]
    simp only [reduceCtorEq, or_false]
    omega
  change execDlDownClassify s = _
  rw [execDlDownClassify, hdown]
  dsimp only
  rw [if_neg hopen, hreset, if_neg Bool.false_ne_true, Bool.toNat_false, ← downClassed, if_pos hserving, done]

theorem addCause_hl (c : ModeCause) (s : State) : (addCause c s).hl = s.hl := by
  unfold addCause
  split <;> rfl

/-- Settles O15: training and lane failure by the status they set, the marks of recovery and resets by the equations of their rows, and
the down event by its note, which what it abandons leaves alone. -/
theorem hostLinkStates : Obligations.HostLinkStates := by
  unfold Obligations.HostLinkStates
  refine ⟨?up, ?lane, ?recovery, ?perst, ?release, ?hot, ?down, ?classify⟩
  case up =>
    intro width speed flit s hen hmode hlink hdown hwidth hspeed hmax
    obtain ⟨r, u, hu, hx⟩ := exec_hlLinkUp (flit := flit) hen hmode hlink hdown hwidth hspeed hmax
    have hview : steady ((doIf s.hl.drsOwed (emit (.pcie 0 "DRS" 0)) u).hlUpd fun h => { h with hot := false, drsOwed := false }) =
        steady u := by rw [steady_hlUpd, steady_doIf _ _ fun _ => steady_emit _ _]
    replace hview := hview.trans hu
    refine ⟨_, hx, ?_, ?_, ?_, ?_, rfl, rfl, ?_⟩
    · rw [get_of_steady hview (by decide), get_dlUp_trained]
    · rw [get_of_steady hview (by decide), get_flit_trained]
    · rw [get_of_steady hview (by decide), trained, get_width_setLink _ (widestWidth_le _ _)]
    · rw [get_of_steady hview (by decide), trained, get_speed_setLink _ (trainedSpeed_le _ _ _)]
      rfl
    · intro howed
      rw [howed]
      rfl
  case lane =>
    intro pass s hlink hw hless
    obtain ⟨detail, hx⟩ := exec_hlLaneFail hlink hw hless
    refine ⟨_, hx, ?_, ?_, get_code_logEv _ _ (by decide)⟩
    · rw [get_of_steady (steady_logEv _ _ _) (by decide), get_of_steady (steady_raise _ _) (by decide), get_inc_apart _ _ _ _ (by decide),
        narrowed, get_width_setLink _ (widestWidth_le _ _)]
    · rw [logEv_logged, raise_flt, inc_flt, narrowed, setLink_flt, set_flt, hlUpd_flt]
  case recovery =>
    intro s hlink hl0
    change execHlRecoveryEntry s = _
    rw [execHlRecoveryEntry, if_pos ⟨hlink, .inl hl0⟩, leaveL0_eq, done]
  case perst =>
    intro s hperst hlink
    refine ⟨_, exec_hlPerstAssertion hperst hlink, ?_, rfl, ?_, ?_⟩
    · rw [hlUpd_dev, perst_of_steady (steady_raise 18 _)]
      rfl
    · rw [hlUpd_hl, raise_perst_eq, raiseEdge_hl, devUpd_hl]
    · rw [hlUpd_mode, raise_mode, devUpd_mode]
  case release =>
    intro s hlink hdown
    change execHlPerstRelease s = _
    rw [execHlPerstRelease, hlink, Bool.not_true, doIf_false, done]
    exact congrArg _ (hlUpd_congr (by rw [devUpd_hl, hdown, Option.isSome_none, Bool.and_false]))
  case hot =>
    intro s hlink hl1 hl2 hsub
    have hlow : (s.get Fld.HL_LINK_STATUS_LSTATE == 4 || s.get Fld.HL_LINK_STATUS_LSTATE == 5) = false := by simp [hl1, hl2]
    have hstay (t : State) (ht : t.hl.sub = 0) : leftLow false t = t := by simp [leftLow, ht]
    change execHotResetReceived s = _
    rw [execHotResetReceived, hlink, doIf_true, hlow]
    dsimp only
    rw [hstay _ (by rw [leaveL0_eq, hlUpd_hl, set_hl, set_hl, hlUpd_hl]; exact hsub), done]
  case down =>
    intro s hlink hmode
    obtain ⟨hup, hvalid, hcap⟩ := get_downNoted s
    obtain ⟨hdown, htags, hptm⟩ := dlDown_hl s
    have hkept {f : Field} (hf : f ∈ steadyFields) (hg) : (dlDown s).get f = s.get f :=
      (get_of_steady (steady_dlDown s) hf).trans (get_downNoted_of_apart s hf hg)
    refine ⟨_, exec_dlDown hlink hmode, ?_, ?_, hdown, ?_, hkept (by decide) (by decide), hkept (by decide) (by decide),
      hkept (by decide) (by decide), htags, hptm, ?_⟩
    · rw [get_of_steady (steady_dlDown s) (by decide), hup]
    · rw [get_of_steady (steady_dlDown s) (by decide), hvalid]
    · rw [get_of_steady (steady_dlDown s) (by decide), hcap]
    · unfold State.mode
      rw [hkept (by decide) (by decide)]
  case classify =>
    intro at_ s hdown hlate hmode hreset
    refine ⟨_, exec_dlDownClassify_surprise hdown hlate hmode hreset, ?_, ?_, mem_causes_addCause _ _, ?_⟩
    · rw [get_addCause, downClassed, hlUpd_get, get_set_same _ _ _ (by decide)]
      rfl
    · rw [addCause_hl, downClassed, hlUpd_hl]
    · rw [addCause_mode, downClassed, hlUpd_mode, mode_set_apart _ _ _ (by decide), hmode]

end Sys2Proof.Machine
end

section

/-! The drain limit, safe points, entry to PRESERVE and its halt, and DEV_RESET (O12). -/

namespace Sys2Proof.Machine

/-! ## DEV_DRAIN_LIMIT -/

/-- The field of DEV_DRAIN_LIMIT takes 1 to 1,000. -/
def drainLimitField : FieldDef := { hi := 9, lo := 0, acc := .rw, least := 1, most := 1000 }

theorem homeOf_drainLimit (m : Master) (s : State) : homeOf s m 0x100030 = 0x100030 := by
  cases m <;> rfl

theorem regAt_drainLimit : ∃ r, regAt 0x100030 = some r ∧ r.fields = [drainLimitField] := ⟨_, rfl, rfl⟩

theorem plainWrite_drainLimit (v : Nat) (s : State) : plainWrite 0x100030 v s = writeField 0x100030 v drainLimitField s := by
  obtain ⟨r, hr, hfields⟩ := regAt_drainLimit
  simp [plainWrite, writeWord, hr, hfields, doAll]

/-- Of the registers with behaviour of their own none is DEV_DRAIN_LIMIT. -/
theorem globalWrite_of_eq_drainLimit {m : Master} {a v : Nat} {s : State} (ha : a = 0x100030) (hmbx : mbxAt a = none)
    (hhome : homeOf s m a = a) (harray : arrayWrite a v s = plainWrite a v s) : globalWrite m a v s = plainWrite a v s := by
  unfold globalWrite
  dsimp only
  split
  case h_15 =>
    rw [if_neg (by omega), if_neg (by omega), if_neg (by omega), if_neg (by omega), if_neg (by omega), hmbx]
    dsimp only
    rw [if_pos hhome, harray]
  all_goals exact absurd ha (by decide)

theorem globalWrite_drainLimit (m : Master) (v : Nat) (s : State) :
    globalWrite m 0x100030 v s = writeField 0x100030 v drainLimitField s := by
  have harray : arrayWrite 0x100030 v s = plainWrite 0x100030 v s := by simp [arrayWrite, elemAt]
  rw [globalWrite_of_eq_drainLimit rfl rfl (homeOf_drainLimit m s) harray, plainWrite_drainLimit]

theorem writeAt_drainLimit {m : Master} (v : Nat) (s : State) (hm : m ≠ .debug) :
    writeAt m 0x100030 v s = writeField 0x100030 v drainLimitField s := by
  have hin : inBlocks 0x100030 = true := by decide
  have hbank : bankedRegs.contains 0x100030 = false := by decide
  have hopen : blockShut m 0x100030 true = false := by simp [blockShut, hm]
  unfold writeAt
  rw [if_neg (not_not_intro hin), if_neg (ne_true_of_eq_false hopen), if_neg (by decide), if_neg (ne_true_of_eq_false hbank),
    globalWrite_drainLimit]

/-- The block's rule keeps the debug master out. -/
theorem writeAt_drainLimit_debug (v : Nat) (s : State) : writeAt .debug 0x100030 v s = s := by
  have hin : inBlocks 0x100030 = true := by decide
  have hshut : blockShut .debug 0x100030 true = true := by decide
  simp [writeAt, hin, hshut]

theorem putWord_drainLimit {m : Master} {s : State} (v : Nat) (hmap : mapCause s m 0x100030 true = none)
    (hgate : blockGated s (blockOf 0x100030) = false) (hpf : ∀ c, m = .host c → c.val = 0) :
    putWord m 0x100030 v s = writeAt m 0x100030 v s := by
  cases m with
  | host c =>
    have hc : c = 0 := Fin.ext (hpf c rfl)
    subst hc
    simp [putWord, busWrite, hmap, hgate, virtualFn]
  | _ => simp [putWord, busWrite, hmap, hgate]

theorem writeField_drainLimit_taken {v : BitVec 10} (s : State) (hlo : 1 ≤ v.toNat) (hhi : v.toNat ≤ 1000) :
    writeField 0x100030 v.toNat drainLimitField s = s.set Fld.DEV_DRAIN_LIMIT_LIMIT_MS v.toNat := by
  have hx : bitsOf v.toNat 9 0 = v.toNat := by simp [bitsOf]; omega
  simp [writeField, drainLimitField, hx, hlo, hhi, Fld.DEV_DRAIN_LIMIT_LIMIT_MS]

theorem writeField_drainLimit_refused {v : BitVec 10} (s : State) (h : v = 0 ∨ 1000 < v.toNat) :
    writeField 0x100030 v.toNat drainLimitField s = s := by
  have hx : bitsOf v.toNat 9 0 = v.toNat := by simp [bitsOf]; omega
  have hout : ¬ (1 ≤ v.toNat ∧ v.toNat ≤ 1000) := by
    rcases h with rfl | h
    · decide
    · omega
  simp only [writeField, drainLimitField, hx]
  rw [if_neg (by omega)]

theorem get_drainLimit_set (v : BitVec 10) (s : State) :
    (s.set Fld.DEV_DRAIN_LIMIT_LIMIT_MS v.toNat).get Fld.DEV_DRAIN_LIMIT_LIMIT_MS = v.toNat := by
  rw [get_set_same _ _ _ (by decide)]
  exact Nat.mod_eq_of_lt v.isLt

theorem exec_devDrainLimitWrite {m : Master} {v : BitVec 10} {s : State} (hm : m = .bc ∨ ∃ c, m = .core c)
    (hmap : mapCause s m 0x100030 true = none) (hgate : blockGated s (blockOf 0x100030) = false) :
    exec (.devDrainLimitWrite m v) s = .next (writeField 0x100030 v.toNat drainLimitField s) := by
  have hdebug : m ≠ .debug := by rcases hm with rfl | ⟨c, rfl⟩ <;> simp
  have hhost (c) : m ≠ .host c := by rcases hm with rfl | ⟨c, rfl⟩ <;> simp
  have harrives (f : State → State) : writeArrives m 0x100030 (.devDrainLimitWrite m v) f s = f s := by
    rcases hm with rfl | ⟨c, rfl⟩ <;> rfl
  change execDevDrainLimitWrite m v s = _
  rw [execDevDrainLimitWrite, harrives, putWord_drainLimit _ hmap hgate (fun c hc => absurd hc (hhost c)), writeAt_drainLimit _ _ hdebug, done]

theorem exec_devDrainLimitWrite_debug {v : BitVec 10} {s : State} (hmap : mapCause s .debug 0x100030 true = none)
    (hgate : blockGated s (blockOf 0x100030) = false) : exec (.devDrainLimitWrite .debug v) s = .next s := by
  change execDevDrainLimitWrite .debug v s = _
  rw [execDevDrainLimitWrite]
  change done (putWord .debug 0x100030 v.toNat s) = _
  rw [putWord_drainLimit _ hmap hgate (by simp), writeAt_drainLimit_debug, done]

/-- The physical function's write, in its turn. -/
theorem exec_devDrainLimitWrite_host {v : BitVec 10} {s : State} (hturn : HostTurn s 0) (hfull : s.ds.full = false)
    (hen : (s.fn 0).enabled = true) (hmap : mapCause s (.host 0) 0x100030 true = none)
    (hgate : blockGated s (blockOf 0x100030) = false) (hlo : 1 ≤ v.toNat) (hhi : v.toNat ≤ 1000) :
    exec (.devDrainLimitWrite (.host 0) v) s = .next ((hostNoted s).set Fld.DEV_DRAIN_LIMIT_LIMIT_MS v.toNat) := by
  have hmap' : mapCause (hostNoted s) (.host 0) 0x100030 true = none := hmap
  have hgate' : blockGated (hostNoted s) (blockOf 0x100030) = false := hgate
  have hput : putWord (.host 0) 0x100030 v.toNat (hostNoted s) = (hostNoted s).set Fld.DEV_DRAIN_LIMIT_LIMIT_MS v.toNat := by
    rw [putWord_drainLimit _ hmap' hgate' (fun c hc => by cases hc; rfl), writeAt_drainLimit _ _ (by simp), writeField_drainLimit_taken _ hlo hhi]
  have hen' : ((hostNoted s).fn 0).enabled = true := hen
  have hpasses : hostPasses (hostNoted s) 0 0x100030 true = true := by simp [hostPasses, hmap']
  have hnow : stampedAs s.now (putWord (.host 0) 0x100030 v.toNat) (hostNoted s) = putWord (.host 0) 0x100030 v.toNat (hostNoted s) :=
    stampedAs_now (s := hostNoted s) (by rw [hput]; rfl)
  change execDevDrainLimitWrite (.host 0) v s = _
  rw [execDevDrainLimitWrite, writeArrives, hostPosted_of_hostOpen hturn.1 hfull, hostWriteReg, if_neg (by simp [hen']), if_pos hpasses,
    inOrder_of_hostTurn (c := (0 : Fin 1024).val) hturn, hnow, hput, done]

/-! ## The receive buffers while sources are raised -/

theorem leaveL1_rx (s : State) : (leaveL1 s).hl.rx = s.hl.rx := by
  unfold leaveL1
  split
  · rw [raiseEdge_hl]
    cases s.hl.sub != 0
    · rfl
    · rw [doIf_true, raiseEdge_hl]
      rfl
  · rfl

theorem countCqEvt_hl (c : Nat) (q : Option Nat) (f : Nat → Nat → Field) (s : State) : (countCqEvt c q f s).hl = s.hl :=
  (keeps_countCqEvt (w := 8) c q f rfl (keeps_refl _ s)).same .hl rfl

theorem holdMsix_hl (c v : Nat) (q : Option Nat) (s : State) : (holdMsix c v q s).hl = s.hl :=
  (keeps_holdMsix (w := 0x11A9) c v q rfl (keeps_refl _ s)).same .hl rfl

theorem sendMsix_hl (c v : Nat) (q : Option Nat) (s : State) : (sendMsix c v q s).hl = s.hl :=
  (keeps_sendMsix (w := 0x200) c v q rfl (keeps_refl _ s)).same .hl rfl

/-- A vector that leaves ends L1, and changes no more of the host link. -/
theorem trigger_rx (c v : Nat) (q : Option Nat) (s : State) : (trigger c v q s).hl.rx = s.hl.rx := by
  unfold trigger
  split
  case isTrue => rw [inc_hl]
  case isFalse =>
    split
    case isTrue => rw [inc_hl]
    case isFalse =>
      split
      case isTrue => rw [inc_hl]
      case isFalse =>
        split
        case isTrue => rw [holdMsix_hl, countCqEvt_hl]
        case isFalse =>
          split
          case isTrue => rw [setPbaBit, setPba_hl]
          case isFalse =>
            split
            case isTrue => rw [countCqEvt_hl, setPbaBit, setPba_hl]
            case isFalse => rw [countCqEvt_hl, sendMsix_hl, leaveL1_rx]

theorem rx_doIf (c : Bool) {f : State → State} (s : State) (hf : ∀ s, (f s).hl.rx = s.hl.rx) : (doIf c f s).hl.rx = s.hl.rx := by
  cases c
  · rfl
  · exact hf s

theorem ctxEvent_rx (c b : Nat) (s : State) : (ctxEvent c b s).hl.rx = s.hl.rx := by
  unfold ctxEvent
  dsimp only
  split
  · rfl
  · rw [rx_doIf _ _ fun s => trigger_rx _ _ _ s, set_hl]

theorem bcAttn_rx (f : Field) (s : State) : (bcAttn f s).hl.rx = s.hl.rx := by rw [bcAttn, set_hl]

theorem raise_rx (n : Nat) (s : State) : (raise n s).hl.rx = s.hl.rx := by
  unfold raise
  rw [rx_doIf _ _ (bcAttn_rx _), rx_doIf _ _ (bcAttn_rx _), rx_doIf _ _ (ctxEvent_rx _ _),
    rx_doIf _ _ (fun s => by rw [bcAttn_rx, ctxEvent_rx]), rx_doIf _ _ (fun s => by rw [bcAttn_rx, ctxEvent_rx]), raiseEdge_hl]

theorem updC0Short_rx (s : State) : (updC0Short s).hl.rx = s.hl.rx := by
  unfold updC0Short
  rw [rx_doIf _ _ (raise_rx _), set_hl]

theorem stageFull_rx (c : Bool) (s : State) : (doIf c (fun s => s.inc Fld.DS_STAGE_FULL 1 |> raise 232) s).hl.rx = s.hl.rx := by
  cases c
  · rfl
  · rw [doIf_true, raise_rx, inc_hl]

theorem updStage_rx (s : State) : (updStage s).hl.rx = s.hl.rx := by
  unfold updStage
  dsimp only
  rw [stageFull_rx, dsUpd_hl, set_hl]

theorem updBuf_hl (p : Nat) (s : State) : (updBuf p s).hl = s.hl := (keeps_updBuf (w := 8) p rfl (keeps_refl _ s)).same .hl rfl

theorem rx_doAll {α : Type} (l : List α) {f : α → State → State} (s : State) (hf : ∀ a s, (f a s).hl.rx = s.hl.rx) :
    (doAll l f s).hl.rx = s.hl.rx := by
  unfold doAll
  induction l generalizing s with
  | nil => rfl
  | cons a l ih => rw [List.foldl_cons, ih, hf]

theorem atsFlush_rx (s : State) : (atsFlush s).hl.rx = s.hl.rx := by
  unfold atsFlush atsDiscard
  dsimp only
  rw [set_hl, rx_doAll (f := atsBump) _ _ fun _ _ => rfl, hlUpd_hl]

/-! ## The shed -/

/-- The ports, the links and the engines are emptied. -/
def shedEngines (s : State) : State :=
  s |> doAll [0, 1, 2, 3] portReset |> doIf s.isMember emitLeave |> doAll [0, 1, 2, 3] linkStop
    |> fun s => s |> doAll s.qps (fun e s => s.qpUpd (e.1 / 64) (e.1 % 64) fun q => { q with descs := [], cpls := [], abort := none })

/-- What is left of the host's requests goes, and the translations with it. -/
def shedHost (s : State) : State :=
  { s with hreads := [], ritems := [], msixDue := [], hl := { s.hl with rx := [] } }
    |>.cadUpd (fun k => { k with items := [] })
    |>.hlUpd (fun h => { h with tags := [], inval := [], down := none, downReset := false, ptmWait := none })
    |> atsFlush |> updTags

/-- The host link's registers show no link. -/
def shedLink (s : State) : State :=
  s |>.set Fld.HL_ATS_STATUS_INVAL_PEND 0
    |>.set Fld.HL_LINK_STATUS_DL_UP 0 |>.set Fld.HL_LINK_STATUS_LSTATE 0 |>.set Fld.HL_LINK_STATUS_SLOT_CAP 0 |> updC0Short

theorem shed_eq (s : State) :
    shed s = updStage (doAll [0, 1, 2, 3] updBuf (shedLink (shedHost (shedEngines s)))) := rfl

theorem steady_shedEngines (s : State) : steady (shedEngines s) = steady s := by simp [shedEngines]

theorem steady_shedHost (s : State) : steady (shedHost s) = steady s := by
  rw [shedHost, steady_updTags, steady_atsFlush, steady_hlUpd, steady_cadUpd]
  exact steady_of_same rfl rfl

theorem steady_shed (s : State) : steady (shed s) = steady (shedLink (shedHost (shedEngines s))) := by
  simp [shed_eq]

/-- The shed leaves every field of the view but the link's state and capacity. -/
theorem get_shed {f : Field} (s : State) (hf : f ∈ steadyFields) (hup : Fld.HL_LINK_STATUS_DL_UP.Apart f)
    (hcap : Fld.HL_LINK_STATUS_SLOT_CAP.Apart f) (hstate : Fld.HL_LINK_STATUS_LSTATE.Apart f)
    (hinval : Fld.HL_ATS_STATUS_INVAL_PEND.Apart f) : (shed s).get f = s.get f := by
  rw [get_of_steady (steady_shed s) hf, shedLink, get_of_steady (steady_updC0Short _) hf, get_set_apart _ _ _ _ hcap,
    get_set_apart _ _ _ _ hstate, get_set_apart _ _ _ _ hup, get_set_apart _ _ _ _ hinval, get_of_steady (steady_shedHost _) hf,
    get_of_steady (steady_shedEngines s) hf]

theorem get_dlUp_shed (s : State) : (shed s).get Fld.HL_LINK_STATUS_DL_UP = 0 := by
  rw [get_of_steady (steady_shed s) (by decide), shedLink, get_of_steady (steady_updC0Short _) (by decide),
    get_set_apart _ _ _ _ (by decide), get_set_apart _ _ _ _ (by decide), get_set_same _ _ _ (by decide)]
  rfl

theorem steadyDev_set (f : Field) (v : Nat) (s : State) : steadyDev (s.set f v) = steadyDev s := by
  rw [steadyDev, set_dev, steadyDev]

theorem steadyDev_shed (s : State) : steadyDev (shed s) = steadyDev s := by
  rw [dev_of_steady (steady_shed s), shedLink, dev_of_steady (steady_updC0Short _), steadyDev_set, steadyDev_set, steadyDev_set, steadyDev_set,
    dev_of_steady (steady_shedHost _), dev_of_steady (steady_shedEngines s)]

/-- From the host link's registers on the shed keeps every part that they and the sources do not touch. -/
theorem keeps_shed_tail (s : State) : Keeps 0x102202D3AB (shedHost (shedEngines s)) (shed s) := by
  have hregs : Keeps 0x102202D3AB (shedHost (shedEngines s)) (shedLink (shedHost (shedEngines s))) :=
    keeps_updC0Short rfl (keeps_set _ _ rfl (keeps_set _ _ rfl (keeps_set _ _ rfl (keeps_set _ _ rfl (keeps_refl _ _)))))
  exact keeps_updStage rfl (keeps_doAll _ _ (fun p _ h => keeps_updBuf p rfl h) hregs)

theorem keeps_updTags_atsFlush (s : State) : Keeps 0x20008 s (updTags (atsFlush s)) :=
  keeps_updTags rfl (keeps_atsFlush rfl (keeps_refl _ s))

theorem shed_hreads (s : State) : (shed s).hreads = [] :=
  ((keeps_shed_tail s).same .hreads rfl).trans ((keeps_updTags_atsFlush _).same .hreads rfl)

theorem shed_items (s : State) : (shed s).cad.items = [] := by
  rw [show (shed s).cad = _ from (keeps_shed_tail s).same .cad rfl, shedHost, show (updTags (atsFlush _)).cad = _ from (keeps_updTags_atsFlush _).same .cad rfl]
  rfl

theorem shed_rx (s : State) : (shed s).hl.rx = [] := by
  rw [shed_eq, updStage_rx, rx_doAll _ _ (fun p s => by rw [updBuf_hl]), shedLink, updC0Short_rx, set_hl, set_hl, set_hl, set_hl, shedHost,
    updTags_hl, atsFlush_rx]
  rfl

/-! ## PRESERVE -/

/-- The mode and the device-wide state at entry to PRESERVE, before commands, the store, firmware and the engines stop. -/
def preserveMarked (cause : Nat) (s : State) : State :=
  s |> sleepStops |> modeTo .preserve cause
    |> doIf (cause == 7 || cause == 0xA) (·.set Fld.DEV_RST_CAUSE_PWR_FAIL 1)
    |> doIf (cause == 8) (·.set Fld.DEV_RST_CAUSE_THERM_TRIP 1)
    |>.devUpd (fun d => { d with causes := [], servingAt := none, devResetAt := none, presPend := none, presFrom := some s.now })

/-- Commands, the store and firmware stop. -/
def preserveStops (cause : Nat) (s : State) : State :=
  s |> preserveCmds |> preserveStore cause |> fwCut |>.set Fld.DEV_FAULT_STATUS_RESTARTING 0
    |>.fltUpd (fun f => { f with restartDue := none, fenceDue := [] })
    |>.pelUpd (fun p => { p with stateWait := [] })

theorem preserveEnter_eq (cause : Nat) (s : State) : preserveEnter cause s = shed (preserveStops cause (preserveMarked cause s)) := rfl

theorem steady_preserveStops (cause : Nat) (s : State) : steady (preserveStops cause s) = steady s := by
  rw [preserveStops, steady_pelUpd, steady_fltUpd, steady_set _ _ _ (by decide), steady_fwCut, steady_preserveStore, steady_preserveCmds]

theorem get_preserveEnter {f : Field} (cause : Nat) (s : State) (hf : f ∈ steadyFields) (hup : Fld.HL_LINK_STATUS_DL_UP.Apart f)
    (hcap : Fld.HL_LINK_STATUS_SLOT_CAP.Apart f) (hstate : Fld.HL_LINK_STATUS_LSTATE.Apart f)
    (hinval : Fld.HL_ATS_STATUS_INVAL_PEND.Apart f) : (preserveEnter cause s).get f = (preserveMarked cause s).get f := by
  rw [preserveEnter_eq, get_shed _ hf hup hcap hstate hinval, get_of_steady (steady_preserveStops cause _) hf]

theorem steadyDev_preserveEnter (cause : Nat) (s : State) : steadyDev (preserveEnter cause s) = steadyDev (preserveMarked cause s) := by
  rw [preserveEnter_eq, steadyDev_shed, dev_of_steady (steady_preserveStops cause _)]

/-- The reset causes that entry to PRESERVE records. -/
def preserveCauses (cause : Nat) (s : State) : State :=
  s |> doIf (cause == 7 || cause == 0xA) (·.set Fld.DEV_RST_CAUSE_PWR_FAIL 1) |> doIf (cause == 8) (·.set Fld.DEV_RST_CAUSE_THERM_TRIP 1)

@[simp] theorem steady_preserveCauses (cause : Nat) (s : State) : steady (preserveCauses cause s) = steady s := by simp +decide [preserveCauses]

theorem preserveMarked_eq (cause : Nat) (s : State) :
    preserveMarked cause s = (preserveCauses cause (modeTo .preserve cause (sleepStops s))).devUpd fun d =>
      { d with causes := [], servingAt := none, devResetAt := none, presPend := none, presFrom := some s.now } := rfl

theorem get_preserveMarked {f : Field} (cause : Nat) (s : State) (hf : f ∈ steadyFields) :
    (preserveMarked cause s).get f = (modeTo .preserve cause (sleepStops s)).get f := by
  rw [preserveMarked_eq, devUpd_get, get_of_steady (steady_preserveCauses cause _) hf]

theorem preserveEnter_mode (cause : Nat) (s : State) : (preserveEnter cause s).mode = .preserve := by
  have hmode := modeTo_mode .preserve cause (sleepStops s)
  unfold State.mode at hmode ⊢
  rw [get_preserveEnter cause s (by decide) (by decide) (by decide) (by decide) (by decide), get_preserveMarked cause s (by decide), hmode]

theorem preserveEnter_cause {cause : Nat} (s : State) (h : cause < 256) : (preserveEnter cause s).get Fld.DEV_MODE_CAUSE = cause := by
  rw [get_preserveEnter cause s (by decide) (by decide) (by decide) (by decide) (by decide), get_preserveMarked cause s (by decide),
    get_cause_modeTo _ _ h]

theorem presFrom_of_steadyDev {s t : State} (h : steadyDev t = steadyDev s) : t.dev.presFrom = s.dev.presFrom :=
  show (steadyDev t).presFrom = (steadyDev s).presFrom from congrArg Dev.presFrom h

theorem presPend_of_steadyDev {s t : State} (h : steadyDev t = steadyDev s) : t.dev.presPend = s.dev.presPend :=
  show (steadyDev t).presPend = (steadyDev s).presPend from congrArg Dev.presPend h

theorem preserveEnter_presFrom (cause : Nat) (s : State) : (preserveEnter cause s).dev.presFrom = some s.now := by
  rw [presFrom_of_steadyDev (steadyDev_preserveEnter cause s), preserveMarked_eq, devUpd_dev]

theorem preserveEnter_presPend (cause : Nat) (s : State) : (preserveEnter cause s).dev.presPend = none := by
  rw [presPend_of_steadyDev (steadyDev_preserveEnter cause s), preserveMarked_eq, devUpd_dev]

theorem preserveEnter_now (cause : Nat) (s : State) : (preserveEnter cause s).now = s.now :=
  (keeps_preserveEnter (w := 0x1276FEF3AB) cause rfl (keeps_refl _ s)).same .now rfl

/-- A transition writes no field outside DEV_MODE and its time stamp, but for what its source writes. -/
theorem get_modeTo_of_apart {f : Field} (m : Mode) (cause : Nat) (s : State) (hf : f ∈ steadyFields)
    (h : f.addr ≠ Fld.DEV_MODE_MODE.addr) : (modeTo m cause s).get f = s.get f := by
  have haddr : ∀ g ∈ [Fld.DEV_MODE_PREV, Fld.DEV_MODE_MODE, Fld.DEV_MODE_CAUSE, Fld.DEV_MODE_TS_LO_STROKE_LO, Fld.DEV_MODE_TS_HI_STROKE_HI],
      f.addr ≠ g.addr := by
    revert f
    decide
  have hset (g : Field) (v : Nat) (s : State) (hg : f.addr ≠ g.addr) : (s.set g v).get f = s.get f := by
    unfold State.get
    rw [word_set_ne s g v hg]
  rw [modeTo, get_of_steady (steady_raise 4 _) hf, hset _ _ _ (haddr _ (by decide)), hset _ _ _ (haddr _ (by decide)),
    hset _ _ _ (haddr _ (by decide)), hset _ _ _ (haddr _ (by decide)), hset _ _ _ (haddr _ (by decide))]

theorem sleepStops_sleep (s : State) : (sleepStops s).get Fld.CRP_SLEEP_STATE = 0 := by
  unfold sleepStops
  have hend (c : Bool) (u : State) : steady (doIf c (fun s => s.set Fld.DRC_STATUS_SELF_REFRESH 0 |> raise 162) u) = steady u := by
    simp +decide
  rw [get_of_steady (hend _ _) (by decide), pwrUpd_get, get_set_same _ _ _ (by decide)]
  rfl

theorem preserveEnter_sleep (cause : Nat) (s : State) : (preserveEnter cause s).get Fld.CRP_SLEEP_STATE = 0 := by
  rw [get_preserveEnter cause s (by decide) (by decide) (by decide) (by decide) (by decide), get_preserveMarked cause s (by decide),
    get_modeTo_of_apart _ _ _ (by decide) (by decide), sleepStops_sleep]

theorem exec_preserveEntry {cause : Nat} {s : State} (hmode : s.mode ≠ .preserve) (hpres : s.dev.presPend = some cause) :
    exec .preserveEntry s = .next (preserveEnter cause s) := by
  change execPreserveEntry s = _
  rw [execPreserveEntry, hpres]
  dsimp only
  rw [if_neg hmode, done]

/-! ## The drain limit -/

theorem mode_of_drainOver {s : State} (h : drainOver s = true) : s.mode = .draining := by
  simp only [drainOver, Bool.and_eq_true, beq_iff_eq] at h
  exact h.1.1

/-- No cause waits. -/
def causesTaken (s : State) : State := s.devUpd fun d => { d with causes := [] }

theorem modeBoundary_drainOver {s : State} (h : drainOver s = true) :
    modeBoundary s = preserveEnter 0x0D (drainCut (causesTaken s)) := by
  have hover : drainOver (causesTaken s) = true := h
  rw [modeBoundary, mode_of_drainOver h]
  dsimp only
  rw [← causesTaken, hover, doIf_true, drainLimit]

theorem drainCut_now (s : State) : (drainCut s).now = s.now := (keeps_drainCut (w := 0x10225AD3AB) rfl (keeps_refl _ s)).same .now rfl

/-! ## A safe point in MAINTENANCE -/

/-- The running operation ends, of which a format is applied where it is due and a scrub noted, and firmware stops. -/
def operationStops (s : State) : State :=
  s |> doIf (formatDue s) (formatApply (formatBig s.mbx.store))
    |> doIf (storeBusy s && s.mbx.store.op == 0x030A) (fun s => s.medUpd fun m => { m with rescan := true })
    |> doIf (fwBusy s) (fwStop true)

theorem steady_operationStops (s : State) : steady (operationStops s) = steady s := by simp [operationStops]

/-- No operation runs. -/
def operationEnded (s : State) : State :=
  (operationStops s).mbxUpd fun m => { m with store := { m.store with state := 0 }, fw := { m.fw with state := 0 } }

theorem steady_operationEnded (s : State) : steady (operationEnded s) = steady s := by rw [operationEnded, steady_mbxUpd, steady_operationStops]

theorem exec_maintenanceSafePoint {s : State} (hmode : s.mode = .maintenance) (hheld : s.dev.heldOrder = true) (hruns : opRuns s = true) :
    exec .maintenanceSafePoint s = .next (orderPreserve 0x0E (operationEnded s)) := by
  change execMaintenanceSafePoint s = _
  rw [execMaintenanceSafePoint, if_pos ⟨hmode, hheld, hruns⟩, done]
  rfl

/-! ## The halt -/

/-- The records of PRESERVE, and the store closed, where it was recovered. -/
def haltRecords (s : State) : State := doIf s.ds.recovered (fun s => s |> preserveRecords |> storeClose 1) s

theorem keeps_haltRecords (s : State) : Keeps 0xA000008 s (haltRecords s) :=
  keeps_doIf _ _ (fun _ h => keeps_storeClose 1 rfl (keeps_preserveRecords rfl h)) (keeps_refl _ s)

theorem exec_preserveHalt {s : State} (hmode : s.mode = .preserve) (hhalted : s.dev.halted = false) (hdirty : s.ds.dirty = [])
    (hrst : s.dev.rstAtHalt = false) :
    exec .preserveHalt s = .next ((haltRecords s).devUpd fun d => { d with halted := true, counting := false }) := by
  have hkeep : ((haltRecords s).devUpd fun d => { d with halted := true, counting := false }).dev.rstAtHalt = false := by
    rw [devUpd_dev, show (haltRecords s).dev = s.dev from (keeps_haltRecords s).same .dev rfl]
    exact hrst
  change execPreserveHalt s = _
  rw [execPreserveHalt, if_pos ⟨hmode, by simp [hhalted], .inr hdirty⟩, halt, ← haltRecords]
  dsimp only
  rw [hkeep, if_neg Bool.false_ne_true, done]

theorem steady_preserveRecords (s : State) : steady (preserveRecords s) = steady s := by simp +decide [preserveRecords]

theorem haltRecords_mode (s : State) : (haltRecords s).mode = s.mode := by
  refine mode_of_steady (steady_doIf _ s fun s => ?_)
  exact (steady_of_keeps (keeps_storeClose 1 rfl (keeps_refl _ _))).trans (steady_preserveRecords s)

/-! ## DEV_RESET -/

theorem tabGet_tabKeep_dropped {α : Type} (d : Nat → α) (p : Nat → Bool) (t : Table α) {k : Nat} (h : p k = false) :
    tabGet d (tabKeep p t) k = d k := by
  have hfind : tabFind (tabKeep p t) k = none := by
    unfold tabKeep
    induction t with
    | nil => rfl
    | cons e t ih =>
      by_cases hp : p e.1 = true
      · have hne : e.1 ≠ k := fun he => by rw [he, h] at hp; exact absurd hp Bool.false_ne_true
        simp [List.filter_cons_of_pos, hp, tabFind, ih, hne]
      · simp [List.filter_cons_of_neg, hp, ih]
  unfold tabGet
  rw [hfind]
  rfl

/-- What the store and firmware leave to a system reset. -/
def resetFrom (stop : Nat) (s : State) : State := s |> fwCut |> storeClose stop

theorem keeps_resetFrom (stop : Nat) (s : State) : Keeps 0x20A000002 s (resetFrom stop s) :=
  keeps_storeClose stop rfl (keeps_fwCut rfl (keeps_refl _ s))

/-- A register outside the kickstand domain, and not among those that a system reset restores, holds its reset value. -/
theorem systemReset_word (stop : Nat) (s : State) {a : Nat} (hkept : keptReg a = false) (hfault : a ≠ Fld.DEV_FAULT_STATUS_STOP.addr)
    (hstore : a ≠ Fld.DS_CFG_MAP_UNIT.addr) : (systemReset stop s).word a = resetOf a := by
  unfold systemReset
  dsimp only
  rw [word_set_ne _ Fld.DS_CFG_CAP_UNITS _ hstore, word_set_ne _ Fld.DS_CFG_MAP_UNIT _ hstore,
    word_set_ne _ Fld.DEV_FAULT_STATUS_RESTARTS _ hfault, word_set_ne _ Fld.DEV_FAULT_STATUS_STOP_REASON _ hfault,
    word_set_ne _ Fld.DEV_FAULT_STATUS_STOP _ hfault]
  exact tabGet_tabKeep_dropped _ _ _ hkept

theorem systemReset_mode (stop : Nat) (s : State) : (systemReset stop s).mode = .boot := by
  unfold State.mode State.get
  rw [systemReset_word stop s (by decide) (by decide) (by decide)]
  decide

theorem systemReset_now (stop : Nat) (s : State) : (systemReset stop s).now = 0 := by
  unfold systemReset
  dsimp only
  iterate 5 rw [set_now]

theorem systemReset_nand (stop : Nat) (s : State) : (systemReset stop s).ds.nand = s.ds.nand := by
  unfold systemReset
  dsimp only
  iterate 5 rw [set_ds]
  exact (keeps_resetFrom stop s).same .nand rfl

theorem systemReset_dev (stop : Nat) (s : State) : (systemReset stop s).dev =
    { ksReady := s.dev.ksReady, ksSlow := s.dev.ksSlow, sysRst := s.dev.sysRst, perst := s.dev.perst, straps := s.dev.straps,
      supplies := s.dev.supplies, relTicks := s.dev.relTicks } := by
  have hdev : (resetFrom stop s).dev = s.dev := (keeps_resetFrom stop s).same .dev rfl
  unfold systemReset
  dsimp only
  iterate 5 rw [set_dev]
  rw [← hdev]
  rfl

theorem keeps_romStart_of (s : State) : Keeps 0x80001008 s (romStart s) := keeps_romStart rfl (keeps_refl _ s)

theorem exec_devResetApply {s : State} (h : devResetDue s = true) :
    exec .devResetApply s = .next (romStart ((systemReset 3 s).set Fld.DEV_RST_CAUSE_CMD_RESET 1)) := by
  change execDevResetApply s = _
  rw [execDevResetApply, if_pos h, devReset, done]

/-- Settles O12: the drain limit and its register, a safe point, entry to PRESERVE through what each of its stops and the shed keep, the
halt, and DEV_RESET through the system reset and the start of the ROM. -/
theorem drainLimitMaintenanceAndPreserve : Obligations.DrainLimitMaintenanceAndPreserve := by
  unfold Obligations.DrainLimitMaintenanceAndPreserve
  refine ⟨?reached, ?boundary, ?taken, ?refused, ?host, ?debug, ?safePoint, ?entry, ?halt, ?reset⟩
  case reached =>
    intro s h
    change execDrainLimitReached s = _
    rw [execDrainLimitReached, if_pos h, done]
  case boundary =>
    intro s h
    have hnow : (drainCut (causesTaken s)).now = s.now := drainCut_now _
    rw [modeBoundary_drainOver h]
    refine ⟨preserveEnter_mode _ _, preserveEnter_cause _ (by decide), ?_, ?_, ?_⟩
    · rw [preserveEnter_presFrom, hnow]
    · rw [preserveEnter_eq, shed_hreads]
    · rw [preserveEnter_now, hnow]
  case taken =>
    intro m v s hm hmap hgate hlo hhi
    refine ⟨_, exec_devDrainLimitWrite hm hmap hgate, ?_⟩
    rw [writeField_drainLimit_taken s hlo hhi]
    exact ⟨get_drainLimit_set v s, set_dev _ _ _, mode_set_apart _ _ _ (by decide)⟩
  case refused =>
    intro m v s hm hmap hgate hout
    refine ⟨_, exec_devDrainLimitWrite hm hmap hgate, ?_⟩
    rw [writeField_drainLimit_refused s hout]
    exact ⟨rfl, rfl⟩
  case host =>
    intro v s hturn hfull hen hmap hgate hlo hhi
    exact ⟨_, exec_devDrainLimitWrite_host hturn hfull hen hmap hgate hlo hhi, get_drainLimit_set v _,
      mode_set_apart _ _ _ (by decide)⟩
  case debug => exact fun v s hmap hgate => exec_devDrainLimitWrite_debug hmap hgate
  case safePoint =>
    intro s hmode hheld hruns hpres
    have hmode' : (operationEnded s).mode ≠ .preserve := by
      rw [mode_of_steady (steady_operationEnded s), hmode]
      decide
    have hpres' : (operationEnded s).dev.presPend = none := by rw [presPend_of_steady (steady_operationEnded s), hpres]
    refine ⟨_, exec_maintenanceSafePoint hmode hheld hruns, ?_⟩
    rw [orderPreserve_free hmode' hpres']
    exact ⟨rfl, rfl, rfl⟩
  case entry =>
    intro cause s hmode hpres hcause
    have hx := exec_preserveEntry hmode hpres
    have ho : Only (raised ++ [.flt, .ctxs, .qps, .lbs, .hreads, .cad, .cmds, .store, .ritems, .mbx, .pel, .fw]) s _ := only_of_exec hx
    have hfuses : (preserveEnter cause s).fuses = s.fuses := same_of_only ho .fuses (by decide)
    refine ⟨preserveEnter cause s, hx, preserveEnter_mode cause s, preserveEnter_cause s hcause, preserveEnter_presFrom cause s,
      preserveEnter_presPend cause s, preserveEnter_sleep cause s, ?_, hfuses, ?_, ?_, ?_⟩
    · rw [preserveEnter_eq, get_dlUp_shed]
    · rw [preserveEnter_eq, shed_hreads]
    · rw [preserveEnter_eq, shed_rx]
    · rw [preserveEnter_eq, shed_items]
  case halt =>
    intro s hmode hhalted hdirty hrst
    refine ⟨_, exec_preserveHalt hmode hhalted hdirty hrst, rfl, rfl, ?_, ?_⟩
    · rw [devUpd_mode, haltRecords_mode, hmode]
    · exact (keeps_haltRecords s).same .nand rfl
  case reset =>
    intro s hdue
    have hx := exec_devResetApply hdue
    have ho : Only [.draws, .now, .regs, .banks, .fns, .msix, .pba, .held, .msixDue, .irqStacks, .holdLeft, .dev, .flt, .pfs, .ul, .deferred, .hl,
      .ctxs, .qps, .lbs, .hreads, .cad, .cmds, .inForce, .store, .ritems, .med, .mbx, .pwr, .pel, .tap, .fw, .mem, .lines] s _ := only_of_exec hx
    have hstart := steady_romStart ((systemReset 3 s).set Fld.DEV_RST_CAUSE_CMD_RESET 1)
    have hkeeps := keeps_romStart_of ((systemReset 3 s).set Fld.DEV_RST_CAUSE_CMD_RESET 1)
    refine ⟨_, hx, ?_, ?_, romStart_stage _, ?_, ?_, ?_, same_of_only ho .fuses (by decide), ?_⟩
    · rw [mode_of_steady hstart, devUpd_mode, mode_set_apart _ _ _ (by decide), systemReset_mode]
    · rw [get_of_steady hstart (by decide), devUpd_get, get_set_same _ _ _ (by decide)]
      rfl
    · rw [show (romStart _).now = _ from hkeeps.same .now rfl, set_now, systemReset_now]
    · rw [rom_of_steady hstart, devUpd_dev]
    · rw [straps_of_steady hstart, devUpd_dev, set_dev, systemReset_dev]
    · rw [show (romStart _).ds.nand = _ from hkeeps.same .nand rfl, set_ds, systemReset_nand]

end Sys2Proof.Machine
end

section

/-! What resets, the lock of the SYS PLL and the boot ROM's outcomes leave (O10). -/

namespace Sys2Proof.Machine

/-! ## A cold power-on reset -/

theorem systemReset_mem (stop : Nat) (s : State) : (systemReset stop s).ds.mem = s.ds.nand := by
  unfold systemReset
  dsimp only
  iterate 5 rw [set_ds]
  exact (keeps_resetFrom stop s).same .nand rfl

theorem systemReset_dirty (stop : Nat) (s : State) : (systemReset stop s).ds.dirty = [] := by
  unfold systemReset
  dsimp only
  iterate 5 rw [set_ds]
  rfl

theorem coldReset_ds (s : State) : (coldReset s).ds = (systemReset 3 s).ds := by
  unfold coldReset
  dsimp only
  rw [set_ds, set_ds]

theorem coldReset_mode (s : State) : (coldReset s).mode = .boot := by
  unfold State.mode
  rw [coldReset_get s (by decide)]
  rfl

theorem coldReset_causeWord (s : State) : (coldReset s).word Adr.DEV_RST_CAUSE = 1 := by
  rw [coldReset_regsOnly s _ (by decide)]
  decide

/-! ## SYS_RST_N -/

theorem exec_sysRstNAssertion_clean {s : State} (hrst : s.dev.sysRst = false) (hsupplies : s.dev.supplies = true) (hmode : s.mode ≠ .preserve)
    (hdirty : s.ds.dirty = []) : exec .sysRstNAssertion s = .next (rstByPin 3 (s.devUpd fun d => { d with sysRst := true })) := by
  change execSysRstNAssertion s = _
  simp [execSysRstNAssertion, hrst, hsupplies, hmode, hdirty, done]

theorem rstByPin_dev (stop : Nat) (s : State) : (rstByPin stop s).dev =
    { ksReady := s.dev.ksReady, ksSlow := s.dev.ksSlow, sysRst := s.dev.sysRst, perst := s.dev.perst, straps := s.dev.straps,
      supplies := s.dev.supplies, relTicks := s.dev.relTicks } := by
  rw [rstByPin, set_dev, systemReset_dev]

theorem rstByPin_mode (stop : Nat) (s : State) : (rstByPin stop s).mode = .boot := by
  rw [rstByPin, mode_set_apart _ _ _ (by decide), systemReset_mode]

theorem rstByPin_cause (stop : Nat) (s : State) : (rstByPin stop s).get Fld.DEV_RST_CAUSE_SYS_RST = 1 := by
  rw [rstByPin, get_set_same _ _ _ (by decide)]
  rfl

theorem rstByPin_now (stop : Nat) (s : State) : (rstByPin stop s).now = 0 := by
  rw [rstByPin, set_now, systemReset_now]

theorem rstByPin_nand (stop : Nat) (s : State) : (rstByPin stop s).ds.nand = s.ds.nand := by
  rw [rstByPin, set_ds, systemReset_nand]

/-- With protected dirty data the reset waits for the halt of the PRESERVE that it orders. -/
theorem exec_sysRstNAssertion_dirty {s : State} (hrst : s.dev.sysRst = false) (hsupplies : s.dev.supplies = true) (hmode : s.mode ≠ .preserve)
    (hdirty : s.ds.dirty ≠ []) (hfree : s.dev.presPend = none) :
    exec .sysRstNAssertion s = .next (s.devUpd fun d =>
      { d with sysRst := true, presPend := some 0x0A, devResetAt := none, rstAtHalt := true }) := by
  have horder : orderPreserve 0x0A (s.devUpd fun d => { d with sysRst := true }) = _ := orderPreserve_free hmode hfree
  change execSysRstNAssertion s = _
  simp [execSysRstNAssertion, hrst, hsupplies, hmode, hdirty, done, horder]
  rfl

theorem aloneRegs_word (why : Nat) (s : State) {a : Nat} (ha : a ∉ [Adr.PEL_STATUS, Adr.PEL_VIEW, Adr.PEL_ROUTE]) :
    (aloneRegs why s).word a = s.word a := by
  have hl : RegsOnly [Adr.PEL_STATUS, Adr.PEL_VIEW, Adr.PEL_ROUTE] s (aloneRegs why s) := by
    unfold aloneRegs
    refine regsOnly_setWord (regsOnly_set (regsOnly_set (regsOnly_set (regsOnly_set (regsOnly_set (regsOnly_set
      (regsOnly_refl _ s) _ ?_) _ ?_) _ ?_) _ ?_) _ ?_) _ ?_) _ ?_ <;> decide
  exact hl a ha

/-- The debug policy is loaded from the fuses, and no later step of the ROM's start writes it. -/
theorem romStart_policy (s : State) : (romStart s).word Adr.DBG_POLICY = s.fuses.policy := by
  unfold romStart
  extract_lets straps why id t
  have ht : t.word Adr.DBG_POLICY = s.fuses.policy := by
    unfold t
    rw [tapUpd_word, word_set_ne _ _ _ (by decide), word_setWord_ne _ _ (by decide), word_setWord_ne _ _ (by decide),
      word_setWord_same]
  clear_value t why
  cases why with
  | some w => exact (aloneRegs_word w t (by decide)).trans ht
  | none =>
    dsimp only
    rw [word_set_ne _ _ _ (by decide), word_set_ne _ _ _ (by decide), word_set_ne _ _ _ (by decide), ht]

/-! ## SYS PLL lock -/

theorem strokesStarted_lock (s : State) : (strokesStarted s).get Fld.CRP_CLK_SYS_LOCK = 1 := by
  unfold strokesStarted pllsLock
  rw [pelUpd_get, get_set_apart _ _ _ _ (by decide), get_set_apart _ _ _ _ (by decide), get_set_same _ _ _ (by decide)]
  rfl

theorem doIf_raise_get (c : Bool) {n : Nat} {f : Field} (h : f.addr ∉ raiseRegs n) (s : State) : (doIf c (raise n) s).get f = s.get f := by
  cases c
  · rfl
  · exact get_raise n s _ h

theorem doIf_raise_now (c : Bool) (n : Nat) (s : State) : (doIf c (raise n) s).now = s.now :=
  (keeps_doIf c _ (fun _ h => keeps_raise (w := 0x102002D3AB) n rfl h) (keeps_refl _ s)).same .now rfl

/-! ## The ROM's outcomes -/

theorem get_setWord_ne {f : Field} {a : Nat} (v : Word) (s : State) (h : f.addr ≠ a) : (s.setWord a v).get f = s.get f := by
  unfold State.get
  rw [word_setWord_ne s v h]

theorem word_addCause (c : ModeCause) (s : State) (a : Nat) : (addCause c s).word a = s.word a := by
  unfold addCause
  split <;> rfl

theorem fw_addCause (c : ModeCause) (s : State) : (addCause c s).fw = s.fw := by
  unfold addCause
  split <;> rfl

theorem bootCopy_copy {k : Nat} (unread mute : BitVec 4) (s : State) (hk : k < 4) : (bootCopy unread mute k s).get Fld.DEV_BOOT_COPY = k := by
  unfold bootCopy
  rw [get_addCause, fwUpd_get, get_set_apart _ _ _ _ (by decide), get_setWord_ne _ _ (by decide), get_set_apart _ _ _ _ (by decide),
    get_set_apart _ _ _ _ (by decide), get_set_same _ _ _ (by decide)]
  exact Nat.mod_eq_of_lt hk

theorem bootCopy_failed {k : Nat} (unread mute : BitVec 4) (s : State) (hk : k < 4) :
    (bootCopy unread mute k s).get Fld.DEV_BOOT_FAILED = 2 ^ k - 1 := by
  unfold bootCopy
  rw [get_addCause, fwUpd_get, get_set_apart _ _ _ _ (by decide), get_setWord_ne _ _ (by decide), get_set_apart _ _ _ _ (by decide),
    get_set_same _ _ _ (by decide)]
  have hpow : 2 ^ k ≤ 2 ^ 3 := Nat.pow_le_pow_right (by decide) (by omega)
  exact Nat.mod_eq_of_lt (Nat.lt_of_le_of_lt (Nat.sub_le _ _) (Nat.lt_of_le_of_lt hpow (by decide)))

theorem bootCopy_rev (unread mute : BitVec 4) (k : Nat) (s : State) : (bootCopy unread mute k s).word Adr.DEV_FWREV = s.fwCopy k := by
  unfold bootCopy
  rw [word_addCause, fwUpd_word, word_set_ne _ _ _ (by decide), word_setWord_same]

theorem bootCopy_running (unread mute : BitVec 4) (k : Nat) (s : State) : (bootCopy unread mute k s).fw.running = s.copy k := by
  unfold bootCopy
  rw [fw_addCause, fwUpd_fw]

theorem bodyErr_le (size : Nat) (t : Table (Option Byte)) : bodyErr size t ≤ 4 := by
  unfold bodyErr
  split_ifs <;> omega

theorem copyErr_le (s : State) (k : Nat) : copyErr s k ≤ 4 := by
  unfold copyErr
  split
  · decide
  · split
    · decide
    · exact bodyErr_le _ _

theorem copyFault_le (unread mute : BitVec 4) (s : State) (k : Nat) : copyFault unread mute s k ≤ 5 := by
  have herr := copyErr_le s k
  unfold copyFault
  split_ifs <;> omega

theorem bootRejected_failed (unread mute : BitVec 4) (s : State) : (bootRejected unread mute s).get Fld.DEV_BOOT_FAILED = 0xF := by
  unfold bootRejected bcAttn
  rw [get_set_apart _ _ _ _ (by decide), get_set_apart _ _ _ _ (by decide), get_set_same _ _ _ (by decide)]
  rfl

theorem bootRejected_err (unread mute : BitVec 4) (s : State) :
    (bootRejected unread mute s).get Fld.DEV_BOOT_ERR = copyFault unread mute s 3 := by
  unfold bootRejected bcAttn
  rw [get_set_apart _ _ _ _ (by decide), get_set_same _ _ _ (by decide)]
  exact Nat.mod_eq_of_lt (Nat.lt_of_le_of_lt (copyFault_le unread mute s 3) (by decide))

theorem bootRejected_attn (unread mute : BitVec 4) (s : State) : (bootRejected unread mute s).get Fld.MBX_BC_ATTN_BOOT_FAIL = 1 := by
  unfold bootRejected bcAttn
  rw [get_set_same _ _ _ (by decide)]
  rfl

theorem bootRejected_mode (unread mute : BitVec 4) (s : State) : (bootRejected unread mute s).mode = s.mode := by
  unfold bootRejected bcAttn
  rw [mode_set_apart _ _ _ (by decide), mode_set_apart _ _ _ (by decide), mode_set_apart _ _ _ (by decide), mode_set_apart _ _ _ (by decide)]

/-- Settles O10: the two resets, the release, the lock and the ROM's outcomes, each by the equation of its row and what it leaves of each
part named. -/
theorem resetsAndBootRom : Obligations.ResetsAndBootRom := by
  unfold Obligations.ResetsAndBootRom
  refine ⟨?cold, ?clean, ?dirty, ?release, ?lock, ?accepted, ?rejected⟩
  case cold =>
    intro s
    have ho : Only [.draws, .now, .regs, .banks, .fns, .msix, .pba, .held, .msixDue, .irqStacks, .holdLeft, .dev, .flt, .pfs, .ul, .deferred,
      .hl, .ctxs, .qps, .lbs, .hreads, .cad, .cmds, .inForce, .store, .ritems, .med, .mbx, .pwr, .pel, .tap, .fw, .mem, .lines] s (coldReset s) :=
        only_of_exec (exec_coldPowerOnReset s)
    refine ⟨coldReset s, exec_coldPowerOnReset s, coldReset_dev s, rfl, rfl, rfl, rfl, coldReset_mode s, coldReset_causeWord s,
      same_of_only ho .fuses (by decide), ?_, ?_, ?_⟩
    · rw [coldReset_ds, systemReset_nand]
    · rw [coldReset_ds, systemReset_mem]
    · rw [coldReset_ds, systemReset_dirty]
  case clean =>
    intro s hrst hsupplies hmode hdirty
    have hx := exec_sysRstNAssertion_clean hrst hsupplies hmode hdirty
    have ho : Only [.draws, .now, .regs, .banks, .fns, .msix, .pba, .held, .msixDue, .irqStacks, .holdLeft, .dev, .flt, .pfs, .ul, .deferred,
      .hl, .ctxs, .qps, .lbs, .hreads, .cad, .cmds, .inForce, .store, .ritems, .med, .mbx, .pwr, .pel, .fw, .mem, .lines] s
        (rstByPin 3 (s.devUpd fun d => { d with sysRst := true })) := only_of_exec hx
    refine ⟨_, hx, ?_, ?_, ?_, rstByPin_mode _ _, rstByPin_cause _ _, rstByPin_now _ _, same_of_only ho .fuses (by decide), ?_⟩
    · rw [rstByPin_dev, devUpd_dev]
    · rw [rstByPin_dev]
    · rw [rstByPin_dev]
    · rw [rstByPin_nand, devUpd_ds]
  case dirty => exact fun s hrst hsupplies hmode hdirty hfree => exec_sysRstNAssertion_dirty hrst hsupplies hmode hdirty hfree
  case release =>
    intro straps s hrst hhalt
    have hstart := steady_romStart (s.devUpd fun d => { d with sysRst := false, straps := straps, supplies := true, relTicks := 0 })
    refine ⟨_, exec_sysRstNRelease straps hrst hhalt, ?_, ?_, ?_, romStart_stage _, romStart_policy _⟩
    · rw [sysRst_of_steady hstart, devUpd_dev, devUpd_dev]
    · rw [straps_of_steady hstart, devUpd_dev, devUpd_dev]
    · rw [rom_of_steady hstart, devUpd_dev]
  case lock =>
    intro s hrom hcount
    refine ⟨_, exec_sysPllLock hrom hcount, ?_, ?_, ?_, ?_⟩
    · rw [doIf_raise_now, doIf_raise_now]
      rfl
    · rw [doIf_raise_dev _ (fun _ => rfl), doIf_raise_dev _ (fun _ => rfl)]
      rfl
    · rw [doIf_raise_dev _ (fun _ => rfl), doIf_raise_dev _ (fun _ => rfl)]
      exact hrom
    · rw [doIf_raise_get _ (by decide), doIf_raise_get _ (by decide), strokesStarted_lock]
  case accepted =>
    intro unread mute k s ht hk
    exact ⟨_, exec_bootCopyAccepted ht hk, bootCopy_stage _ _ _ _, bootCopy_copy _ _ _ k.isLt, bootCopy_failed _ _ _ k.isLt,
      bootCopy_rev _ _ _ _, bootCopy_running _ _ _ _, mem_causes_addCause _ _⟩
  case rejected =>
    intro unread mute s ht hnone
    have hboot : s.mode = .boot := by
      simp only [trying, Bool.and_eq_true, beq_iff_eq] at ht
      exact ht.1.1.1
    exact ⟨_, exec_bootNoCopyAccepted ht hnone, bootRejected_stage _ _ _, bootRejected_failed _ _ _, bootRejected_err _ _ _,
      bootRejected_attn _ _ _, (bootRejected_mode _ _ _).trans hboot⟩

end Sys2Proof.Machine
end

section

/-! What a host TLP in its turn does, and what the edge of a source leaves of the state: the facts that the statements of
04_host_link.md rest on. -/

namespace Sys2Proof.Machine

/-! ## Repeated operations -/

/-- A view of the state that each step of a repeated operation leaves alone. -/
theorem doAll_same {α β : Type} (v : State → β) (l : List α) {f : α → State → State} (s : State) (hf : ∀ a s, v (f a s) = v s) :
    v (doAll l f s) = v s := by
  unfold doAll
  induction l generalizing s with
  | nil => rfl
  | cons a l ih => rw [List.foldl_cons, ih, hf]

theorem doIf_same {β : Type} (v : State → β) (c : Bool) {f : State → State} (s : State) (hf : ∀ s, v (f s) = v s) :
    v (doIf c f s) = v s := by
  cases c
  · rfl
  · exact hf s

theorem fn_of_fns {s t : State} (h : t.fns = s.fns) (c : Nat) : t.fn c = s.fn c := by
  unfold State.fn
  rw [h]

theorem isSet_of_get {s t : State} {f : Field} (h : t.get f = s.get f) : t.isSet f = s.isSet f := by
  unfold State.isSet
  rw [h]

/-! ## The edge of a source -/

/-- The parts that the edge of a source may change. -/
abbrev edgeMask : Nat := 0x102000C00B

theorem keeps_edge (n : Nat) (s : State) : Keeps edgeMask s (raiseEdge n s) := keeps_raiseEdge n rfl (keeps_refl _ s)

theorem raiseEdge_fns (n : Nat) (s : State) : (raiseEdge n s).fns = s.fns := (keeps_edge n s).same .fns rfl

theorem raiseEdge_fn (n : Nat) (s : State) (c : Nat) : (raiseEdge n s).fn c = s.fn c := fn_of_fns (raiseEdge_fns n s) c

/-- The registers that the edge of source `n` may write. -/
def edgeRegs (n : Nat) : List Nat := [Adr.IC_PEND (n / 32), Adr.KS_WAKE_LATCH_LO, Adr.KS_WAKE_LATCH_HI, Fld.PFS_STAT_MISSED.addr]

theorem regsOnly_edge (n : Nat) (s : State) : RegsOnly (edgeRegs n) s (raiseEdge n s) :=
  regsOnly_raiseEdge n (by simp [edgeRegs]) (by simp [edgeRegs]) (by simp [edgeRegs]) (by simp [edgeRegs]) (regsOnly_refl _ s)

theorem get_raiseEdge (n : Nat) (s : State) {f : Field} (h : f.addr ∉ edgeRegs n) : (raiseEdge n s).get f = s.get f :=
  regsOnly_get (regsOnly_edge n s) h

/-- A source that no context event and no attention bit follows. -/
def plainSource (n : Nat) : Bool := !(storeSource n || linkSource n || [2, 3, 4, 8, 9, 10].contains n)

theorem raise_plain {n : Nat} (h : plainSource n = true) (s : State) : raise n s = raiseEdge n s := by
  simp only [plainSource, Bool.not_eq_true', Bool.or_eq_false_iff, List.contains_eq_mem, decide_eq_false_iff_not, List.mem_cons,
    List.not_mem_nil, or_false, not_or] at h
  obtain ⟨⟨hstore, hlink⟩, h2, h3, h4, h8, h9, h10⟩ := h
  have hne : ∀ m, n ≠ m → (n == m) = false := fun m => beq_eq_false_iff_ne.mpr
  simp [raise, hstore, hlink, hne 2 h2, hne 3 h3, hne 4 h4, hne 8 h8, hne 9 h9, hne 10 h10]

theorem raise_plain_hl {n : Nat} (h : plainSource n = true) (s : State) : (raise n s).hl = s.hl := by
  rw [raise_plain h, raiseEdge_hl]

theorem raise_plain_fn {n : Nat} (h : plainSource n = true) (s : State) (c : Nat) : (raise n s).fn c = s.fn c := by
  rw [raise_plain h, raiseEdge_fn]

theorem doIf_raise_hl (c : Bool) {n : Nat} (h : plainSource n = true) (s : State) : (doIf c (raise n) s).hl = s.hl :=
  doIf_same State.hl c s (raise_plain_hl h)

theorem isPending_raise_plain {n : Nat} (hn : n < 288) (hplain : plainSource n = true) {s : State} (h : s.inRest = false) :
    isPending (raise n s) n = true := by
  rw [raise_plain hplain, isPending_raiseEdge hn h]

/-! ## A host TLP that nothing stands in the way of -/

/-- A request that is processed in its order, in its turn. -/
theorem hostTlp_inOrder {s : State} {c : Nat} (h : HostTurn s c) (i : Instr) (f : State → State) :
    hostTlp c i (inOrder c s.now i f) s = f (hostNoted s) := by
  rw [hostTlp_of_hostOpen h.1, inOrder_of_hostTurn h]

theorem inRest_of_hostOpen {s : State} (h : HostOpen s) : (hostNoted s).inRest = false := by
  obtain ⟨hrest, -⟩ := h
  simp only [State.resting, Bool.or_eq_false_iff] at hrest
  exact hrest.1.2

end Sys2Proof.Machine
end

section

/-! Sizes of the BARs (O8). -/

namespace Sys2Proof.Machine

theorem exec_barSizeWrite_hostTurn {s : State} (h : HostTurn s 0) (vf bar4 : Bool) (log2 : Fin 64) :
    exec (.barSizeWrite vf bar4 log2) s = .next (barSizeWrite vf bar4 log2 (hostNoted s)) :=
  congrArg done (hostTlp_inOrder h _ _)

/-- The control is open: Memory Space Enable, or VF Enable, is clear (04 R78). -/
def sizeOpen (vf : Bool) (s : State) : Bool := if vf then !s.hl.vfEnable else !(s.fn 0).mse

/-- The sizes of 04 Table 04-5. -/
def sizeLegal (bar4 : Bool) (log2 : Nat) : Bool := if bar4 then decide (8 ≤ log2 ∧ log2 ≤ 16) else decide (log2 ≤ 14)

theorem barSizeWrite_eq (vf bar4 : Bool) (log2 : Nat) (s : State) :
    barSizeWrite vf bar4 log2 s = if cfgOpen s 0 && sizeLegal bar4 log2 && sizeOpen vf s then barSize vf bar4 log2 s else s := rfl

theorem barSizeWrite_shut {vf bar4 : Bool} {log2 : Nat} {s : State} (h : sizeOpen vf s = false) : barSizeWrite vf bar4 log2 s = s := by
  simp [barSizeWrite_eq, h]

theorem barSizeWrite_illegal {vf bar4 : Bool} {log2 : Nat} {s : State} (h : sizeLegal bar4 log2 = false) :
    barSizeWrite vf bar4 log2 s = s := by
  simp [barSizeWrite_eq, h]

theorem barSizeWrite_taken {vf bar4 : Bool} {log2 : Nat} {s : State} (hcfg : cfgOpen s 0 = true) (hlegal : sizeLegal bar4 log2 = true)
    (hopen : sizeOpen vf s = true) : barSizeWrite vf bar4 log2 s = barSize vf bar4 log2 s := by
  simp [barSizeWrite_eq, hcfg, hlegal, hopen]

/-- The sizes after a write of one of them. -/
def sizePut (vf bar4 : Bool) (log2 : Nat) (h : Hl) : Hl :=
  match vf, bar4 with
  | false, false => { h with pfBar2 := log2 }
  | false, true => { h with pfBar4 := log2 }
  | true, false => { h with vfBar2 := log2 }
  | true, true => { h with vfBar4 := log2 }

theorem barSize_hl (vf bar4 : Bool) (log2 : Nat) (s : State) : (barSize vf bar4 log2 s).hl = sizePut vf bar4 log2 s.hl := by
  unfold barSize
  rw [doIf_raise_hl _ (by decide), hlUpd_hl]
  rfl

theorem runs_barSizeWrite {vf bar4 : Bool} {log2 : Fin 64} {s : State} (h : HostTurn s 0) (hcfg : cfgOpen s 0 = true)
    (hlegal : sizeLegal bar4 log2 = true) (hopen : sizeOpen vf s = true) :
    Runs (.barSizeWrite vf bar4 log2) s fun t => t.hl = sizePut vf bar4 log2 s.hl := by
  refine ⟨_, exec_barSizeWrite_hostTurn h vf bar4 log2, ?_⟩
  show (barSizeWrite vf bar4 log2 (hostNoted s)).hl = _
  rw [barSizeWrite_taken (s := hostNoted s) hcfg hlegal hopen, barSize_hl]
  rfl

/-- Settles O8: a shut control leaves the state alone, an open one takes a legal size. -/
theorem barSizesChangeOnlyWhileClear : Obligations.BarSizesChangeOnlyWhileClear := by
  unfold Obligations.BarSizesChangeOnlyWhileClear
  refine ⟨?pfShut, ?vfShut, ?pfBar2, ?pfBar4, ?vfBar2, ?vfBar4⟩
  case pfShut =>
    intro bar4 log2 s h hmse
    rw [exec_barSizeWrite_hostTurn h]
    exact congrArg _ (barSizeWrite_shut (show (!(s.fn 0).mse) = false by rw [hmse]; rfl))
  case vfShut =>
    intro bar4 log2 s h hvf
    rw [exec_barSizeWrite_hostTurn h]
    exact congrArg _ (barSizeWrite_shut (show (!s.hl.vfEnable) = false by rw [hvf]; rfl))
  case pfBar2 => exact fun log2 s h hcfg hmse hle => runs_barSizeWrite h hcfg (by simp [sizeLegal, hle]) (by simp [sizeOpen, hmse])
  case pfBar4 => exact fun log2 s h hcfg hmse hge hle => runs_barSizeWrite h hcfg (by simp [sizeLegal, hge, hle]) (by simp [sizeOpen, hmse])
  case vfBar2 => exact fun log2 s h hcfg hvf hle => runs_barSizeWrite h hcfg (by simp [sizeLegal, hle]) (by simp [sizeOpen, hvf])
  case vfBar4 => exact fun log2 s h hcfg hvf hge hle => runs_barSizeWrite h hcfg (by simp [sizeLegal, hge, hle]) (by simp [sizeOpen, hvf])

end Sys2Proof.Machine
end

section

/-! The configuration space of the host: configuration requests, SR-IOV, Bus Master Enable, power states and held vectors (O16), and what
they leave alone (O55). -/

namespace Sys2Proof.Machine

/-! ## Configuration requests -/

theorem exec_configRequest_hostTurn {s : State} {c : Fin 1024} (h : HostTurn s c) (dw : Fin 1024) (wr : Option (BitVec 32 × BitVec 4)) :
    exec (.configRequest c dw wr) s = .next (cfgRequest c dw wr (hostNoted s)) :=
  congrArg done (hostTlp_inOrder h _ _)

theorem cfgRequest_beforeDrs {s : State} {c dw : Nat} {wr : Option (Word × BitVec 4)} (h : (s.fn 0).ready = false) :
    cfgRequest c dw wr s = emit (.cpl c 3 []) s := by simp [cfgRequest, h]

theorem cfgRequest_disabled {s : State} {c dw : Nat} {wr : Option (Word × BitVec 4)} (h0 : (s.fn 0).ready = true)
    (hen : (s.fn c).enabled = false) : cfgRequest c dw wr s = emit (.cpl c 1 []) s := by simp [cfgRequest, h0, hen]

theorem cfgRequest_beforeFrs {s : State} {c dw : Nat} {wr : Option (Word × BitVec 4)} (h0 : (s.fn 0).ready = true)
    (hen : (s.fn c).enabled = true) (hready : (s.fn c).ready = false) : cfgRequest c dw wr s = emit (.cpl c 3 []) s := by
  simp [cfgRequest, h0, hen, hready]

theorem cfgRequest_open {s : State} {c : Nat} (dw : Nat) (wr : Option (Word × BitVec 4)) (h : cfgOpen s c = true) :
    cfgRequest c dw wr s = cfgServe c dw wr s := by
  simp only [cfgOpen, Bool.and_eq_true] at h
  obtain ⟨⟨h0, hen⟩, hready⟩ := h
  simp [cfgRequest, h0, hen, hready]

theorem leBytes_length (n v : Nat) : (leBytes n v).length = n := by
  induction n generalizing v with
  | zero => rfl
  | succ n ih => simp [leBytes, ih]

/-! ## VF Enable -/

theorem exec_vfEnableSet_hostTurn {s : State} (h : HostTurn s 0) (n : BitVec 16) (ari : Bool) :
    exec (.vfEnableSet n ari) s = .next (vfSet n.toNat ari (hostNoted s)) :=
  congrArg done (hostTlp_inOrder h _ _)

theorem vfSet_eq {s : State} (hready : (s.fn 0).ready = true) (hvf : s.hl.vfEnable = false) (n : Nat) (ari : Bool) :
    vfSet n ari s = vfEnable (s.hlUpd fun h => { h with numVfs := n, ari := ari }) := by
  simp [vfSet, hready, hvf]

/-- No function: BAD_NUMVFS alone. -/
theorem vfEnable_none {s : State} (hvf : s.hl.vfEnable = false) (hmode : s.mode ≠ .maintenance) (hnum : s.hl.numVfs = 0) :
    vfEnable s = raise 27 (s.set Fld.HL_SRIOV_STATUS_BAD_NUMVFS 1) := by
  simp [vfEnable, hvf, hmode, hnum]

/-- The first `n` virtual functions are enabled; their contexts wait for the boundary. -/
def vfsOn (n : Nat) (s : State) : State :=
  { s with deferred := s.deferred ++ [Deferred.vfs n] }
    |>.hlUpd (fun h => { h with vfEnable := true, vfWaitFrs := true })
    |> doAll ((List.range n).map (· + 1)) (fun c s => s.fnUpd c fun f => { f with enabled := true })
    |>.set Fld.HL_SRIOV_STATUS_ACTIVE_VFS n

theorem vfEnable_valid {s : State} (hvf : s.hl.vfEnable = false) (hmode : s.mode ≠ .maintenance) (hlo : 1 ≤ s.hl.numVfs)
    (hhi : s.hl.numVfs ≤ maxVfs s) (hleft : vfsLeft s = false) : vfEnable s = raise 27 (vfsOn s.hl.numVfs s) := by
  have hvalid : ¬ (s.hl.numVfs = 0 ∨ maxVfs s < s.hl.numVfs) := by omega
  simp [vfEnable, hvf, hmode, hvalid, hleft, vfsOn]

theorem vfsOn_hl (n : Nat) (s : State) : (vfsOn n s).hl = { s.hl with vfEnable := true, vfWaitFrs := true } := by
  unfold vfsOn
  rw [set_hl, doAll_same State.hl]
  · rfl
  · exact fun _ _ => rfl

theorem vfsOn_deferred (n : Nat) (s : State) : (vfsOn n s).deferred = s.deferred ++ [.vfs n] := by
  unfold vfsOn
  rw [set_deferred, doAll_same State.deferred]
  · rfl
  · exact fun _ _ => rfl

theorem get_activeVfs_vfsOn {n : Nat} (h : n < 2048) (s : State) : (vfsOn n s).get Fld.HL_SRIOV_STATUS_ACTIVE_VFS = n := by
  unfold vfsOn
  rw [get_set_same _ _ _ (by decide)]
  exact Nat.mod_eq_of_lt h

theorem raise_deferred (n : Nat) (s : State) : (raise n s).deferred = s.deferred :=
  (keeps_raise (w := 0x102002D3AB) n rfl (keeps_refl _ s)).same .deferred rfl

/-- NumVFs and ARI Capable Hierarchy as VF Enable is set with them. -/
def vfsAsked (n : Nat) (ari : Bool) (s : State) : State := (hostNoted s).hlUpd fun h => { h with numVfs := n, ari := ari }

theorem exec_vfEnableSet_none {s : State} (h : HostTurn s 0) (hready : (s.fn 0).ready = true) (hvf : s.hl.vfEnable = false)
    (hmode : s.mode ≠ .maintenance) (ari : Bool) :
    exec (.vfEnableSet 0 ari) s = .next (raise 27 ((vfsAsked 0 ari s).set Fld.HL_SRIOV_STATUS_BAD_NUMVFS 1)) := by
  have heq : vfSet 0 ari (hostNoted s) = vfEnable (vfsAsked 0 ari s) := vfSet_eq (s := hostNoted s) hready hvf 0 ari
  rw [exec_vfEnableSet_hostTurn h]
  exact congrArg _ (heq.trans (vfEnable_none (s := vfsAsked 0 ari s) hvf hmode rfl))

theorem exec_vfEnableSet_valid {s : State} {n : BitVec 16} {ari : Bool} (h : HostTurn s 0) (hready : (s.fn 0).ready = true)
    (hvf : s.hl.vfEnable = false) (hmode : s.mode ≠ .maintenance) (hlo : 1 ≤ n.toNat) (hhi : n.toNat ≤ if ari then 1023 else 7)
    (hleft : vfsLeft s = false) : exec (.vfEnableSet n ari) s = .next (raise 27 (vfsOn n.toNat (vfsAsked n.toNat ari s))) := by
  have heq : vfSet n.toNat ari (hostNoted s) = vfEnable (vfsAsked n.toNat ari s) := vfSet_eq (s := hostNoted s) hready hvf _ ari
  rw [exec_vfEnableSet_hostTurn h]
  exact congrArg _ (heq.trans (vfEnable_valid (s := vfsAsked n.toNat ari s) hvf hmode hlo hhi hleft))

/-! ## VF FRS -/

/-- Enabled functions are ready. -/
def vfsReady (s : State) : State :=
  { s.hlUpd (fun h => { h with vfWaitFrs := false }) with
    fns := s.fns.map fun e => (e.1, if e.2.enabled then { e.2 with ready := true } else e.2) }

theorem exec_vfFrsSend {s : State} (h : s.hl.vfWaitFrs = true) :
    exec .vfFrsSend s = .next (emit (.pcie 0 "FRS VF Enabled" 0) (vfsReady s)) := by
  change execVfFrsSend s = _
  rw [execVfFrsSend, if_pos h, done]
  rfl

theorem ready_of_mem_vfsReady {s : State} {e : Nat × Fn} (he : e ∈ (vfsReady s).fns) (hen : e.2.enabled = true) : e.2.ready = true := by
  obtain ⟨x, -, rfl⟩ := List.mem_map.mp he
  dsimp only at hen ⊢
  split at hen <;> simp_all

/-! ## VF Enable cleared -/

theorem exec_vfEnableClear_hostTurn {s : State} (h : HostTurn s 0) : exec .vfEnableClear s = .next (vfUnset (hostNoted s)) :=
  congrArg done (hostTlp_inOrder h _ _)

/-- The virtual functions are gone, and with them what VF Enable waited for. -/
def vfsOff (s : State) : State :=
  { s with deferred := s.deferred.filter fun d => match d with | .vfs _ => false | _ => true }
    |>.hlUpd (fun h => { h with vfEnable := false, vfWaitFrs := false })
    |> doAll ((List.range s.hl.numVfs).map (· + 1)) (vfGone 0)
    |>.set Fld.HL_SRIOV_STATUS_ACTIVE_VFS 0

theorem vfUnset_eq {s : State} (hready : (s.fn 0).ready = true) (hvf : s.hl.vfEnable = true) : vfUnset s = raise 27 (vfsOff s) := by
  rw [vfUnset, if_pos hready, vfClear, if_neg (not_not_intro hvf)]
  rfl

theorem exec_vfEnableClear {s : State} (h : HostTurn s 0) (hready : (s.fn 0).ready = true) (hvf : s.hl.vfEnable = true) :
    exec .vfEnableClear s = .next (raise 27 (vfsOff (hostNoted s))) := by
  rw [exec_vfEnableClear_hostTurn h]
  exact congrArg _ (vfUnset_eq (s := hostNoted s) hready hvf)

/-- The host link's own state beside its translations. -/
def beyondAts (s : State) : Hl := { s.hl with ats := [], atsSeq := [] }

theorem beyondAts_of_hl {s t : State} (h : t.hl = s.hl) : beyondAts t = beyondAts s := by
  unfold beyondAts
  rw [h]

theorem beyondAts_atsDiscard (p : AtsEntry → Bool) (s : State) : beyondAts (atsDiscard p s) = beyondAts s := by
  unfold atsDiscard
  exact doAll_same beyondAts _ _ fun _ _ => rfl

theorem fnTo_hl (c : Nat) (g : Fn → Fn) (s : State) : (fnTo c g s).hl = s.hl := by
  unfold fnTo
  rw [doIf_raise_hl _ (by decide), doIf_raise_hl _ (by decide), fnUpd_hl]

theorem ctxCause_hl (c : Nat) (destroy absent host : Bool) (cause : Nat) (s : State) :
    (ctxCause c destroy absent host cause s).hl = s.hl :=
  (keeps_ctxCause (w := 0x40048000) c destroy absent host cause rfl (keeps_refl _ s)).same .hl rfl

theorem beyondAts_vfGone (cause c : Nat) (s : State) : beyondAts (vfGone cause c s) = beyondAts s := by
  unfold vfGone
  rw [doIf_same beyondAts _ _ fun s => beyondAts_of_hl (ctxCause_hl ..), beyondAts_atsDiscard, beyondAts_of_hl (fnTo_hl ..)]

theorem beyondAts_vfsOff (s : State) : beyondAts (vfsOff s) = { beyondAts s with vfEnable := false, vfWaitFrs := false } := by
  unfold vfsOff
  rw [beyondAts_of_hl (set_hl ..), doAll_same beyondAts _ _ (beyondAts_vfGone 0)]
  rfl

theorem vfsOff_flags (s : State) : (vfsOff s).hl.vfEnable = false ∧ (vfsOff s).hl.vfWaitFrs = false :=
  ⟨show (beyondAts (vfsOff s)).vfEnable = false by rw [beyondAts_vfsOff],
    show (beyondAts (vfsOff s)).vfWaitFrs = false by rw [beyondAts_vfsOff]⟩

theorem get_activeVfs_vfsOff (s : State) : (vfsOff s).get Fld.HL_SRIOV_STATUS_ACTIVE_VFS = 0 := by
  unfold vfsOff
  rw [get_set_same _ _ _ (by decide)]
  rfl

/-! ## Bus Master Enable -/

theorem exec_busMasterEnableWrite_open {s : State} {c : Fin 1024} (h : HostTurn s c) (hcfg : cfgOpen s c = true) (v : Bool) :
    exec (.busMasterEnableWrite c v) s = .next (setBme c v (hostNoted s)) := by
  have hrun : bmeWrite c v (hostNoted s) = setBme c v (hostNoted s) := by
    rw [bmeWrite, show cfgOpen (hostNoted s) c = true from hcfg, doIf_true]
  exact (congrArg done (hostTlp_inOrder h _ _)).trans (congrArg _ hrun)

/-- Bus Master Enable changes, and vectors that it held back leave. -/
def bmeChanged (c : Nat) (v : Bool) (s : State) : State :=
  doIf v (sendPendingVectors c) (raise 38 (s.fnUpd c fun f => { f with bme := v }))

theorem setBme_same {c : Nat} {v : Bool} {s : State} (h : (s.fn c).bme = v) : setBme c v s = s := if_pos h

theorem setBme_change {c : Nat} {v : Bool} {s : State} (h : (s.fn c).bme ≠ v) :
    setBme c v s = doIf (v && c == 0 && s.dev.drs && s.mode == .standby) (fun s => s.devUpd fun d => { d with servingAt := some s.now })
      (bmeChanged c v s) := if_neg h

theorem keeps_sendPendingVectors_of (c : Nat) (s : State) : Keeps 0x280 s (sendPendingVectors c s) :=
  keeps_sendPendingVectors c rfl (keeps_refl _ s)

theorem bmeChanged_fns (c : Nat) (v : Bool) (s : State) : (bmeChanged c v s).fns = (s.fnUpd c fun f => { f with bme := v }).fns := by
  unfold bmeChanged
  rw [doIf_same State.fns _ _ fun s => (keeps_sendPendingVectors_of c s).same .fns rfl, raise_plain (by decide), raiseEdge_fns]

theorem bmeChanged_now (c : Nat) (v : Bool) (s : State) : (bmeChanged c v s).now = s.now := by
  unfold bmeChanged
  rw [doIf_same State.now _ _ fun s => (keeps_sendPendingVectors_of c s).same .now rfl, raise_plain (by decide)]
  exact (keeps_edge 38 _).same .now rfl

theorem steady_bmeChanged (c : Nat) (v : Bool) (s : State) : steady (bmeChanged c v s) = steady s := by
  unfold bmeChanged
  rw [steady_doIf _ _ fun s => steady_of_keeps (keeps_sendPendingVectors c rfl (keeps_refl _ s)), steady_raise, steady_fnUpd]

theorem setBme_bme (c : Nat) (v : Bool) (s : State) : ((setBme c v s).fn c).bme = v := by
  by_cases h : (s.fn c).bme = v
  · rw [setBme_same h, h]
  · have hserving (s : State) : (s.devUpd fun d => { d with servingAt := some s.now }).fns = s.fns := rfl
    rw [setBme_change h, fn_of_fns (s := bmeChanged c v s) (doIf_same State.fns _ _ hserving), fn_of_fns (bmeChanged_fns c v s),
      fnUpd_same]

/-- The physical function's change from 0 to 1 in STANDBY after DRS makes SERVING due. -/
theorem setBme_serving {s : State} (hbme : (s.fn 0).bme = false) (hdrs : s.dev.drs = true) (hmode : s.mode = .standby) :
    setBme 0 true s = (bmeChanged 0 true s).devUpd fun d => { d with servingAt := some (bmeChanged 0 true s).now } := by
  rw [setBme_change (by simp [hbme]), hdrs, hmode]
  rfl

/-! ## D3hot and D0 -/

theorem exec_pmcsrWrite_open {s : State} {c : Fin 1024} (h : HostTurn s c) (hcfg : cfgOpen s c = true) (d3 pme clr : Bool) :
    exec (.pmcsrWrite c d3 pme clr) s = .next (setPmcsr c d3 pme clr (hostNoted s)) := by
  have hrun : pmcsrPut c d3 pme clr (hostNoted s) = setPmcsr c d3 pme clr (hostNoted s) := by
    rw [pmcsrPut, show cfgOpen (hostNoted s) c = true from hcfg, doIf_true]
  exact (congrArg done (hostTlp_inOrder h _ _)).trans (congrArg _ hrun)

/-- The configuration bits of a function after a write of PMCSR. -/
def pmcsrBits (d3 pme clr : Bool) (f : Fn) : Fn :=
  { f with d3 := d3, pmeEn := pme, pmeStat := f.pmeStat && !clr && (d3 || !f.d3), d0due := f.d0due || (f.d3 && !d3) }

theorem setPmcsr_fn (c : Nat) (d3 pme clr : Bool) (s : State) : (setPmcsr c d3 pme clr s).fn c = pmcsrBits d3 pme clr (s.fn c) := by
  unfold setPmcsr
  dsimp only
  rw [doIf_same (State.fn · c) _ _ fun s => raise_plain_fn (n := 25) (by decide) s c, fnUpd_same]
  rfl

/-- A change of the power state raises source 25. -/
theorem isPending_setPmcsr {c : Nat} {d3 : Bool} {s : State} (h : (s.fn c).d3 ≠ d3) (hrest : s.inRest = false) (pme clr : Bool) :
    isPending (setPmcsr c d3 pme clr s) 25 = true := by
  unfold setPmcsr
  dsimp only
  rw [bne_iff_ne.mpr h, doIf_true]
  exact isPending_raise_plain (by decide) (by decide) hrest

/-! ## Held vectors after the return to D0 -/

/-- The vectors of a context that are held. -/
def heldVectors (s : State) (c : Nat) : List Nat := (List.range 64).filter fun v => (s.heldOf c).getLsbD v

/-- The held marks of a context are cleared, of its vectors and of its queue pairs. -/
def heldCleared (c : Nat) (s : State) : State :=
  doAll (List.range 64) (fun q s => s.set (Fld.CQ_EVT_STATUS_HELD c q) 0) (dropHeld c s)

theorem exec_d0Return {s : State} {c : Fin 1024} (h : (s.fn c).d0due = true) :
    exec (.d0Return c) s = .next ((doAll (heldVectors s c) (pendingVector msixNow c) (heldCleared c s)).fnUpd c fun f => { f with d0due := false }) := by
  change execD0Return c s = _
  rw [execD0Return, d0Return, if_pos h, done]
  rfl

theorem heldOf_of_held {s t : State} (h : t.held = s.held) (c : Nat) : t.heldOf c = s.heldOf c := congrArg (tabGet (fun _ => 0) · c) h

theorem pbaOf_of_pba {s t : State} (h : t.pba = s.pba) (c : Nat) : t.pbaOf c = s.pbaOf c := congrArg (tabGet (fun _ => 0) · c) h

theorem msixAt_of_msix {s t : State} (h : t.msix = s.msix) (c v : Nat) : t.msixAt c v = s.msixAt c v :=
  congrArg (tabGet msixReset · (c * 64 + v)) h

theorem keeps_pendingVector_msixNow (c v : Nat) (s : State) : Keeps 0x89 s (pendingVector msixNow c v s) :=
  keeps_pendingVector msixNow c v (fun _ _ _ h => keeps_msixNow _ _ rfl h) rfl (keeps_refl _ s)

theorem heldOf_pendingVector (c v : Nat) (s : State) : (pendingVector msixNow c v s).heldOf c = s.heldOf c :=
  heldOf_of_held ((keeps_pendingVector_msixNow c v s).same .held rfl) c

theorem heldOf_heldCleared (c : Nat) (s : State) : (heldCleared c s).heldOf c = 0 := by
  unfold heldCleared
  have hset (q : Nat) (s : State) : (s.set (Fld.CQ_EVT_STATUS_HELD c q) 0).heldOf c = s.heldOf c := heldOf_of_held (set_held _ _ _) c
  rw [doAll_same (State.heldOf · c) _ _ hset, dropHeld, setHeld_same]

theorem regsOnly_pendingVector (c v : Nat) (s : State) : RegsOnly [Fld.EV_MSIX_CNT_SENT.addr] s (pendingVector msixNow c v s) := by
  unfold pendingVector
  split
  · have hpba (x : BitVec 64) : RegsOnly [Fld.EV_MSIX_CNT_SENT.addr] s (s.setPba c x) := regsOnly_eq (regsOnly_refl _ s) rfl
    exact regsOnly_inc (regsOnly_emit (hpba _) _) _ (by decide)
  · exact regsOnly_refl _ s

theorem get_heldMark_pendingVector (c q v : Nat) (s : State) :
    (pendingVector msixNow c v s).get (Fld.CQ_EVT_STATUS_HELD c q) = s.get (Fld.CQ_EVT_STATUS_HELD c q) := by
  refine regsOnly_get (regsOnly_pendingVector c v s) ?_
  simp only [Fld.CQ_EVT_STATUS_HELD, Fld.EV_MSIX_CNT_SENT, List.mem_singleton]
  omega

/-- The held marks of two queue pairs share no bit. -/
theorem apart_heldMark {c p q : Nat} (h : p ≠ q) : (Fld.CQ_EVT_STATUS_HELD c p).Apart (Fld.CQ_EVT_STATUS_HELD c q) := by
  refine ⟨⟨Nat.le_refl 30, show 30 < 32 by decide, Nat.le_refl 30⟩, Or.inl ?_⟩
  simp only [Fld.CQ_EVT_STATUS_HELD]
  omega

theorem get_heldMark_set (c p q : Nat) (s : State) : (s.set (Fld.CQ_EVT_STATUS_HELD c p) 0).get (Fld.CQ_EVT_STATUS_HELD c q) =
    if p = q then 0 else s.get (Fld.CQ_EVT_STATUS_HELD c q) := by
  split
  case isTrue h =>
    subst h
    rw [get_set_same _ _ _ ⟨Nat.le_refl 30, show 30 < 32 by decide⟩, Nat.zero_mod]
  case isFalse h => exact get_set_apart _ _ _ _ (apart_heldMark h)

theorem get_heldMark_cleared (c q : Nat) (l : List Nat) (s : State) :
    (doAll l (fun q s => s.set (Fld.CQ_EVT_STATUS_HELD c q) 0) s).get (Fld.CQ_EVT_STATUS_HELD c q) =
      if q ∈ l then 0 else s.get (Fld.CQ_EVT_STATUS_HELD c q) := by
  unfold doAll
  induction l generalizing s with
  | nil => rfl
  | cons p l ih =>
    rw [List.foldl_cons, ih, get_heldMark_set]
    simp only [List.mem_cons, @eq_comm _ q p]
    by_cases hp : p = q
    · simp [hp]
    · simp [hp]

theorem get_heldMark_d0Return (c : Nat) (q : Fin 64) (l : List Nat) (s : State) :
    (doAll l (pendingVector msixNow c) (heldCleared c s)).get (Fld.CQ_EVT_STATUS_HELD c q) = 0 := by
  rw [doAll_same (State.get · (Fld.CQ_EVT_STATUS_HELD c q)) _ _ fun v s => get_heldMark_pendingVector c q v s, heldCleared,
    get_heldMark_cleared, if_pos (List.mem_range.mpr q.isLt)]

theorem heldOf_d0Return (c : Nat) (l : List Nat) (s : State) : (doAll l (pendingVector msixNow c) (heldCleared c s)).heldOf c = 0 := by
  rw [doAll_same (State.heldOf · c) _ _ fun v s => heldOf_pendingVector c v s, heldOf_heldCleared]

/-- The message that a vector sends. -/
def msixMessage (s : State) (c v : Nat) : Out := .msix c v (s.msixAt c v).addr (s.msixAt c v).data (steeringTag s c v)

theorem msixNow_out (c v : Nat) (s : State) : (msixNow c v s).out = msixMessage s c v :: s.out := rfl

theorem msixNow_pbaOf (c v d : Nat) (s : State) : (msixNow c v s).pbaOf d = s.pbaOf d :=
  pbaOf_of_pba ((keeps_msixNow (w := 0x9) c v rfl (keeps_refl _ s)).same .pba rfl) d

theorem msixMessage_congr {s t : State} (hmsix : t.msix = s.msix) (hhl : t.hl = s.hl) (c v : Nat) : msixMessage t c v = msixMessage s c v := by
  simp only [msixMessage, steeringTag, msixAt_of_msix hmsix, hhl]

/-- Where one vector alone is held. -/
theorem heldVectors_single {s : State} {c : Nat} {v : Fin 64} (h : s.heldOf c = 1#64 <<< v.val) : heldVectors s c = [v.val] := by
  have hbit : ∀ u ∈ List.range 64, (s.heldOf c).getLsbD u = (u == v.val) := by
    intro u hu
    have hu' := List.mem_range.mp hu
    rw [h, BitVec.getLsbD_shiftLeft, BitVec.getLsbD_one]
    rw [Bool.eq_iff_iff]
    simp
    omega
  rw [heldVectors, List.filter_congr hbit, List.filter_beq]
  rw [List.count_eq_one_of_mem List.nodup_range (List.mem_range.mpr v.isLt)]
  rfl

/-- Clearing the held marks leaves the registers of the host link. -/
theorem get_heldCleared {f : Field} (c : Nat) (s : State) (hpme : f.addr ≠ Fld.EV_PME_HELD.addr) (hlow : f.addr < 0x100000000) :
    (heldCleared c s).get f = s.get f := by
  have hset (q : Nat) (s : State) : (s.set (Fld.CQ_EVT_STATUS_HELD c q) 0).get f = s.get f := by
    unfold State.get
    rw [word_set_ne _ _ _ (by simp only [Fld.CQ_EVT_STATUS_HELD]; omega)]
  unfold heldCleared
  rw [doAll_same (State.get · f) _ _ hset, dropHeld, setHeld_get]
  unfold State.dec State.get
  rw [word_set_ne _ _ _ hpme]

theorem heldCleared_keeps (c : Nat) (s : State) : Keeps 0x108 s (heldCleared c s) :=
  keeps_doAll _ _ (fun _ _ h => keeps_set _ _ rfl h) (keeps_setHeld _ _ rfl (keeps_dec _ _ rfl (keeps_refl _ s)))

/-- The vector may leave (15 Table 15-7). -/
structure VectorFree (s : State) (c v : Nat) : Prop where
  pending : (s.pbaOf c).getLsbD v = true
  linkUp : s.isSet Fld.HL_LINK_STATUS_DL_UP = true
  enabled : (s.fn c).msixEn = true
  master : (s.fn c).bme = true
  awake : msixHeld s c = false
  unmasked : (s.fn c).fmask = false
  entry : (s.msixAt c v).ctl.getLsbD 0 = false

theorem pendingVector_free {s : State} {c v : Nat} (h : VectorFree s c v) (f : Nat → Nat → State → State) :
    pendingVector f c v s = f c v (s.setPba c (s.pbaOf c &&& ~~~(1#64 <<< v))) := by
  obtain ⟨hp, hl, he, hm, ha, hu, hc⟩ := h
  rw [pendingVector, if_pos ⟨hp, hl, he, hm, by simp [ha], by simp [hu], hc⟩]

theorem pendingVector_masked {s : State} {c : Nat} (h : (s.fn c).fmask = true) (f : Nat → Nat → State → State) (v : Nat) :
    pendingVector f c v s = s := by
  simp [pendingVector, h]

theorem getLsbD_cleared {x : BitVec 64} (v : Fin 64) : (x &&& ~~~(1#64 <<< v.val)).getLsbD v = false := by
  simp

theorem vectorFree_heldCleared {s : State} {c : Nat} {v : Nat} (h : VectorFree s c v) : VectorFree (heldCleared c s) c v := by
  have hkeeps := heldCleared_keeps c s
  have hfns : (heldCleared c s).fn c = s.fn c := fn_of_fns (hkeeps.same .fns rfl) c
  have hpba : (heldCleared c s).pbaOf c = s.pbaOf c := pbaOf_of_pba (hkeeps.same .pba rfl) c
  have hmsix : (heldCleared c s).msixAt c v = s.msixAt c v := msixAt_of_msix (hkeeps.same .msix rfl) c v
  have hlink {f : Field} (hf : f.addr = 0x140000) : (heldCleared c s).get f = s.get f := get_heldCleared c s (by rw [hf]; decide) (by rw [hf]; decide)
  obtain ⟨hp, hl, he, hm, ha, hu, hc⟩ := h
  have hheld : msixHeld (heldCleared c s) c = msixHeld s c := by
    unfold msixHeld
    rw [hfns, hlink (f := Fld.HL_LINK_STATUS_LSTATE) rfl]
  refine ⟨?_, (isSet_of_get (hlink (f := Fld.HL_LINK_STATUS_DL_UP) rfl)).trans hl, ?_, ?_, hheld.trans ha, ?_, ?_⟩
  · rwa [hpba]
  · rwa [hfns]
  · rwa [hfns]
  · rwa [hfns]
  · rwa [hmsix]

/-! ## The statements -/

/-- Settles O16: each request by the equation of its row, the return to D0 by the vectors that it lets go. -/
theorem configurationSpaceOfTheHost : Obligations.ConfigurationSpaceOfTheHost := by
  unfold Obligations.ConfigurationSpaceOfTheHost
  refine ⟨?drs, ?disabled, ?frs, ?read, ?write, ?badNum, ?enable, ?vfFrs, ?clear, ?size, ?badSize, ?master, ?toD3, ?toD0, ?d0, ?vector, ?masked⟩
  case drs =>
    intro c dw wr s h h0
    rw [exec_configRequest_hostTurn h, cfgRequest_beforeDrs (s := hostNoted s) h0]
  case disabled =>
    intro c dw wr s h h0 hen
    rw [exec_configRequest_hostTurn h, cfgRequest_disabled (s := hostNoted s) h0 hen]
  case frs =>
    intro c dw wr s h h0 hen hready
    rw [exec_configRequest_hostTurn h, cfgRequest_beforeFrs (s := hostNoted s) h0 hen hready]
  case read =>
    intro c dw s h hcfg
    rw [exec_configRequest_hostTurn h, cfgRequest_open (s := hostNoted s) _ _ hcfg, cfgServe]
  case write =>
    intro c dw v be s h hcfg
    rw [exec_configRequest_hostTurn h, cfgRequest_open (s := hostNoted s) _ _ hcfg, cfgServe]
  case badNum =>
    intro ari s h hready hvf hmode
    refine ⟨_, exec_vfEnableSet_none h hready hvf hmode ari, ?_, ?_, ?_, ?_⟩
    · rw [get_raise _ _ _ (by decide), get_set_same _ _ _ (by decide)]
      rfl
    · rw [raise_plain_hl (by decide), set_hl]
      exact hvf
    · rw [raise_plain_hl (by decide), set_hl]
      rfl
    · rw [raise_plain_fn (by decide), set_fn]
      rfl
  case enable =>
    intro n ari s h hready hvf hmode hlo hhi hleft
    have hlt : n.toNat < 2048 := by
      cases ari
      · exact Nat.lt_of_le_of_lt hhi (by decide)
      · exact Nat.lt_of_le_of_lt hhi (by decide)
    refine ⟨_, exec_vfEnableSet_valid h hready hvf hmode hlo hhi hleft, ?_⟩
    have hhl : (raise 27 (vfsOn n.toNat (vfsAsked n.toNat ari s))).hl = { (vfsAsked n.toNat ari s).hl with vfEnable := true, vfWaitFrs := true } := by
      rw [raise_plain_hl (by decide), vfsOn_hl]
    refine ⟨?_, ?_, ?_, ?_, ?_, ?_⟩
    · rw [hhl]
    · rw [hhl]
    · rw [hhl]; rfl
    · rw [hhl]; rfl
    · rw [get_raise _ _ _ (by decide), get_activeVfs_vfsOn hlt]
    · rw [raise_deferred, vfsOn_deferred]; rfl
  case vfFrs =>
    intro s h
    exact ⟨_, exec_vfFrsSend h, rfl, rfl, fun e he => ready_of_mem_vfsReady he⟩
  case clear =>
    intro s h hready hvf
    obtain ⟨hoff, hwait⟩ := vfsOff_flags (hostNoted s)
    have hhl : (raise 27 (vfsOff (hostNoted s))).hl = (vfsOff (hostNoted s)).hl := raise_plain_hl (by decide) _
    refine ⟨_, exec_vfEnableClear h hready hvf, ?_, ?_, ?_⟩
    · rw [hhl, hoff]
    · rw [hhl, hwait]
    · rw [get_raise _ _ _ (by decide), get_activeVfs_vfsOff]
  case size =>
    intro log2 s h hcfg hmse hle hne
    have hsize : barSize false false log2 (hostNoted s) = raise 37 ((hostNoted s).hlUpd fun h => { h with pfBar2 := log2 }) := by
      have hwas : ((hostNoted s).hl.pfBar2 != log2.val) = true := bne_iff_ne.mpr hne
      simp only [barSize, hwas, doIf_true]
    rw [exec_barSizeWrite_hostTurn h,
      barSizeWrite_taken (s := hostNoted s) hcfg (show sizeLegal false log2 = true by simp [sizeLegal, hle])
        (show sizeOpen false s = true by simp [sizeOpen, hmse]), hsize]
  case badSize =>
    intro log2 s h hgt
    have hbad : sizeLegal false log2 = false := by simpa [sizeLegal] using hgt
    rw [exec_barSizeWrite_hostTurn h, barSizeWrite_illegal hbad]
  case master =>
    intro s h hcfg hbme hpba hmode hdrs
    have hsteady := steady_bmeChanged 0 true (hostNoted s)
    refine ⟨_, exec_busMasterEnableWrite_open (c := 0) h hcfg true, setBme_bme 0 true (hostNoted s), ?_, ?_⟩
    · change (setBme 0 true (hostNoted s)).dev.servingAt = _
      rw [setBme_serving (s := hostNoted s) hbme hdrs hmode, devUpd_dev, bmeChanged_now]
      rfl
    · change (setBme 0 true (hostNoted s)).mode = _
      rw [setBme_serving (s := hostNoted s) hbme hdrs hmode, devUpd_mode, mode_of_steady hsteady]
      exact hmode
  case toD3 =>
    intro c pme clr s h hcfg hd3
    have hne : ((hostNoted s).fn c).d3 ≠ true := by rw [show (hostNoted s).fn c = s.fn c from rfl, hd3]; decide
    refine ⟨_, exec_pmcsrWrite_open h hcfg true pme clr, ?_, ?_, isPending_setPmcsr hne (inRest_of_hostOpen h.1) pme clr⟩ <;>
      rw [setPmcsr_fn, pmcsrBits]
  case toD0 =>
    intro c pme clr s h hcfg hd3
    have hne : ((hostNoted s).fn c).d3 ≠ false := by rw [show (hostNoted s).fn c = s.fn c from rfl, hd3]; decide
    refine ⟨_, exec_pmcsrWrite_open h hcfg false pme clr, ?_, ?_, ?_, isPending_setPmcsr hne (inRest_of_hostOpen h.1) pme clr⟩ <;>
      rw [setPmcsr_fn, pmcsrBits]
    rw [show (hostNoted s).fn c = s.fn c from rfl, hd3]
    simp
  case d0 =>
    intro c s hdue
    refine ⟨_, exec_d0Return hdue, ?_, ?_, ?_⟩
    · rw [fnUpd_same]
    · exact heldOf_d0Return c _ s
    · exact fun q => get_heldMark_d0Return c q _ s
  case vector =>
    intro c v s hdue hd3 hheld hp hup hstate hen hbme hmask hentry
    have hfree : VectorFree s c v := ⟨hp, hup, hen, hbme, by simp [msixHeld, hd3, hstate], hmask, hentry⟩
    have hkeeps := heldCleared_keeps c s
    refine ⟨_, exec_d0Return hdue, ?_⟩
    rw [heldVectors_single hheld]
    change (pendingVector msixNow c v (heldCleared c s)).out = _ ∧ ((pendingVector msixNow c v (heldCleared c s)).pbaOf c).getLsbD v = false
    rw [pendingVector_free (vectorFree_heldCleared hfree)]
    refine ⟨?_, ?_⟩
    · rw [msixNow_out, setPba_out, hkeeps.same .out rfl]
      change msixMessage _ c v :: s.out = msixMessage s c v :: s.out
      rw [msixMessage_congr (s := s)]
      · rw [setPba_msix, hkeeps.same .msix rfl]
      · rw [setPba_hl, hkeeps.same .hl rfl]
    · rw [msixNow_pbaOf, setPba_same]
      exact getLsbD_cleared v
  case masked =>
    intro c v s hdue hheld hmask
    have hkeeps := heldCleared_keeps c s
    have hmask' : ((heldCleared c s).fn c).fmask = true := by rw [fn_of_fns (hkeeps.same .fns rfl) c]; exact hmask
    refine ⟨_, exec_d0Return hdue, ?_⟩
    rw [heldVectors_single hheld]
    change (pendingVector msixNow c v (heldCleared c s)).pbaOf c = _ ∧ (pendingVector msixNow c v (heldCleared c s)).out = _
    rw [pendingVector_masked hmask']
    exact ⟨pbaOf_of_pba (hkeeps.same .pba rfl) c, hkeeps.same .out rfl⟩

/-- Settles O55: each row by its equation, and what its list of parts leaves out. -/
theorem configurationWritesKeepTheirFrame : Obligations.ConfigurationWritesKeepTheirFrame := by
  unfold Obligations.ConfigurationWritesKeepTheirFrame
  refine ⟨?read, ?enable, ?frs, ?clear, ?master, ?toD3, ?toD0, ?d0⟩
  case read =>
    intro c dw s h hcfg
    refine ⟨emit (.cpl c 0 (leBytes 4 (cfgRead (hostNoted s) c dw))) (hostNoted s), ?_, rfl, rfl, rfl, rfl, _, leBytes_length 4 _, rfl⟩
    rw [exec_configRequest_hostTurn h, cfgRequest_open (s := hostNoted s) _ _ hcfg, cfgServe]
  case enable =>
    intro n ari s h hready hvf hmode hlo hhi hleft
    have hx := exec_vfEnableSet_valid h hready hvf hmode hlo hhi hleft
    have ho : Only (raised ++ [.deferred, .cad]) s _ := only_of_exec hx
    refine ⟨_, hx, ?_, same_of_only ho .fuses (by decide), ds_of_only ho (by decide) (by decide) (by decide), now_of_only ho (by decide)⟩
    rw [raise_plain_hl (by decide), vfsOn_hl]
  case frs =>
    intro s h
    exact ⟨_, exec_vfFrsSend h, rfl, rfl, rfl, rfl⟩
  case clear =>
    intro s h hready hvf
    have hx := exec_vfEnableClear h hready hvf
    have ho : Only (raised ++ [.deferred, .ctxs, .cad, .pel]) s _ := only_of_exec hx
    obtain ⟨hfuses, hnand⟩ := fuses_nand_of_only ho (by decide) (by decide)
    refine ⟨_, hx, ?_, hfuses, hnand, now_of_only ho (by decide)⟩
    rw [raise_plain_hl (by decide), (vfsOff_flags _).1]
  case master =>
    intro c on s h hcfg
    have hx := exec_busMasterEnableWrite_open h hcfg on
    have ho : Only (raised ++ [.cad]) s _ := only_of_exec hx
    obtain ⟨hfuses, hnand⟩ := fuses_nand_of_only ho (by decide) (by decide)
    exact ⟨_, hx, setBme_bme c on _, hfuses, hnand, now_of_only ho (by decide)⟩
  case toD3 =>
    intro c pme clr s h hcfg hd3
    have hx := exec_pmcsrWrite_open h hcfg true pme clr
    have ho : Only (raised ++ [.cad]) s _ := only_of_exec hx
    obtain ⟨hfuses, hnand⟩ := fuses_nand_of_only ho (by decide) (by decide)
    exact ⟨_, hx, by rw [setPmcsr_fn, pmcsrBits], hfuses, hnand, now_of_only ho (by decide)⟩
  case toD0 =>
    intro c pme clr s h hcfg hd3
    have hx := exec_pmcsrWrite_open h hcfg false pme clr
    have ho : Only (raised ++ [.cad]) s _ := only_of_exec hx
    obtain ⟨hfuses, hnand⟩ := fuses_nand_of_only ho (by decide) (by decide)
    exact ⟨_, hx, by rw [setPmcsr_fn, pmcsrBits], hfuses, hnand, now_of_only ho (by decide)⟩
  case d0 =>
    intro c s hdue
    have hx := exec_d0Return hdue
    have ho : Only [.out, .regs, .fns, .pba, .held] s _ := only_of_exec hx
    obtain ⟨hfuses, hnand⟩ := fuses_nand_of_only ho (by decide) (by decide)
    exact ⟨_, hx, by rw [fnUpd_same], hfuses, hnand, now_of_only ho (by decide)⟩

end Sys2Proof.Machine
end

section

/-! Strokes, host time and the cadence commit (O13). -/

namespace Sys2Proof.Machine

/-! ## What was sent stays sent -/

theorem mem_out_linkUpd {o : Out} {s : State} (h : o ∈ s.out) (k : Nat) (f : Ul → Ul) : o ∈ (s.linkUpd k f).out := h

theorem mem_out_emit {o : Out} {s : State} (h : o ∈ s.out) (p : Out) : o ∈ (emit p s).out := List.mem_cons_of_mem p h

theorem mem_out_doIf {o : Out} {s : State} {f : State → State} (h : o ∈ s.out) (c : Bool) (hf : ∀ s : State, o ∈ s.out → o ∈ (f s).out) :
    o ∈ (doIf c f s).out := by
  cases c
  · exact h
  · exact hf s h

theorem mem_out_doAll {α : Type} {o : Out} {s : State} {f : α → State → State} (h : o ∈ s.out) (l : List α)
    (hf : ∀ a (s : State), o ∈ s.out → o ∈ (f a s).out) : o ∈ (doAll l f s).out := by
  unfold doAll
  induction l generalizing s with
  | nil => exact h
  | cons a l ih => exact ih (hf a s h)

theorem mem_out_emitUnit {o : Out} {s : State} (h : o ∈ s.out) (k : Nat) (unit : List Byte) : o ∈ (emitUnit k unit s).out :=
  List.mem_cons_of_mem _ h

theorem mem_out_emitBypass {o : Out} {s : State} (h : o ∈ s.out) (k bt : Nat) (q : Bool) (b : Nat) (body : List Byte) :
    o ∈ (emitBypass k bt q b body s).out := by
  unfold emitBypass bypassOut
  split
  · exact h
  · exact mem_out_emit (mem_out_emitUnit (mem_out_linkUpd h _ _) _ _) _

theorem mem_out_sendBypass {o : Out} {s : State} (h : o ∈ s.out) (k bt : Nat) (body : List Byte) : o ∈ (sendBypass k bt body s).out := by
  unfold sendBypass
  dsimp only
  split
  · split
    · exact mem_out_emitBypass (mem_out_linkUpd h _ _) _ _ _ _ _
    · exact h
  · exact mem_out_emitBypass h _ _ _ _ _

theorem mem_out_pfsTrigger {o : Out} {s : State} (h : o ∈ s.out) (b : Nat) : o ∈ (pfsTrigger b s).out := by
  have hsend (l : List Nat) (body : List Byte) (s : State) (h : o ∈ s.out) : o ∈ (doAll l (fun k => sendBypass k 12 body) s).out :=
    mem_out_doAll h l fun k _ h => mem_out_sendBypass h k 12 body
  unfold pfsTrigger pfsMissed
  dsimp only
  split
  case isTrue =>
    split
    · split
      · exact h
      · split
        · exact hsend _ _ _ h
        · split
          · exact hsend _ _ _ h
          · exact hsend _ _ _ h
    · split
      · rw [inc_out]
        exact hsend _ _ _ h
      · rw [set_out]
        exact hsend _ _ _ h
  case isFalse =>
    split
    · exact h
    · split
      · exact h
      · exact h

theorem mem_out_raiseEdge {o : Out} {s : State} (h : o ∈ s.out) (n : Nat) : o ∈ (raiseEdge n s).out := by
  have hnoted : o ∈ (doIf (!servedAsleep s n) (noteWake n) s).out := by
    refine mem_out_doIf h _ fun s h => ?_
    unfold noteWake
    split
    · exact h
    · exact h
  unfold raiseEdge
  dsimp only
  refine mem_out_doIf ?_ _ fun s h => mem_out_pfsTrigger h 2
  split
  · split
    · split
      · exact hnoted
      · exact hnoted
    · exact hnoted
  · exact hnoted

/-! ## The boundary while the counter stands, and in PRESERVE -/

theorem countRelease_counting (s : State) : (countRelease s).dev.counting = s.dev.counting :=
  doIf_same (fun s => s.dev.counting) _ s fun _ => rfl

theorem strokeBoundary_standing {s : State} (h : s.dev.counting = false) : strokeBoundary s = ksCount (countRelease s) := by
  simp [strokeBoundary, countRelease_counting, h]

theorem countRelease_of_released {s : State} (h : s.dev.sysRst = true) : countRelease s = s := by simp [countRelease, h]

theorem ksCount_of_stopped {s : State} (h : s.dev.ksSlow = false) : ksCount s = s := by simp [ksCount, h]

/-- The parts that a boundary of PRESERVE acts on. -/
structure PreserveQuiet (s : State) : Prop where
  mode : s.mode = .preserve
  deferred : s.deferred = []
  qps : s.qps = []
  msixDue : s.msixDue = []

theorem enginesFence_of_quiet {s : State} (h : s.deferred = []) : enginesFence s = s := by
  unfold enginesFence
  rw [h]
  exact congrArg (fun d => { s with deferred := d }) h.symm

theorem abortsEnd_of_quiet {s : State} (h : s.qps = []) : abortsEnd s = s := by
  rw [abortsEnd, h]
  rfl

theorem msixOut_of_quiet {s : State} (h : s.msixDue = []) : msixOut s = s := by
  unfold msixOut
  split
  · rfl
  · rw [h]
    exact congrArg (fun d => { s with msixDue := d }) h.symm

theorem drained_of_preserve {s : State} (h : s.mode = .preserve) : drained s = false := by
  simp [drained, h]

theorem devResetDue_of_preserve {s : State} (h : s.mode = .preserve) : devResetDue s = false := by
  unfold devResetDue
  split
  · simp [h]
  · rfl

/-- In PRESERVE nothing ends with the stroke. -/
theorem endOfStroke_of_preserveQuiet {s : State} (h : PreserveQuiet s) : endOfStroke s = s := by
  obtain ⟨hmode, hdeferred, hqps, hdue⟩ := h
  unfold endOfStroke
  rw [enginesFence_of_quiet hdeferred, abortsEnd_of_quiet hqps, msixOut_of_quiet hdue, drained_of_preserve hmode, doIf_false]
  dsimp only
  split
  · rw [if_pos hmode]
  · rw [devResetDue_of_preserve hmode]
    simp [hmode]

theorem preserveQuiet_countRelease {s : State} (h : PreserveQuiet s) : PreserveQuiet (countRelease s) := by
  unfold countRelease
  cases !s.dev.sysRst
  · exact h
  · obtain ⟨hmode, hdeferred, hqps, hdue⟩ := h
    exact ⟨hmode, hdeferred, hqps, hdue⟩

theorem strokeBoundary_preserve {s : State} (hcount : s.dev.counting = true) (h : PreserveQuiet s) :
    strokeBoundary s = restartsUp (countStroke (countRelease s)) := by
  have hq := preserveQuiet_countRelease h
  unfold strokeBoundary
  dsimp only
  rw [countRelease_counting, endOfStroke_of_preserveQuiet hq, countRelease_counting, hcount, hq.mode]
  simp

/-- What a boundary of PRESERVE changes. -/
theorem keeps_preserveBoundary (s : State) : Keeps 0x2000200C s (restartsUp (countStroke s)) :=
  keeps_restartsUp rfl (keeps_countStroke rfl (keeps_refl _ s))

theorem steady_preserveBoundary (s : State) : steady (restartsUp (countStroke s)) = steady s := by
  have hks : steady (countStroke s) = steady s := by
    have hks (s : State) : steady (ksCount s) = steady s := by
      unfold ksCount
      exact steady_ite rfl (by simp +decide)
    exact (hks _).trans rfl
  unfold restartsUp
  refine (steady_doIf _ _ fun s => ?_).trans hks
  exact (steady_set _ _ _ (by decide)).trans rfl

theorem ds_of_keeps {w : Nat} {s t : State} (h : Keeps w s t) (hstore : w.testBit 25 = false) (hmem : w.testBit 34 = false)
    (hnand : w.testBit 35 = false) : t.ds = s.ds := by
  have hm : t.ds.mem = s.ds.mem := h.same .mem hmem
  have hn : t.ds.nand = s.ds.nand := h.same .nand hnand
  calc t.ds = { t.ds with mem := s.ds.mem, nand := s.ds.nand } := by rw [← hm, ← hn]
    _ = s.ds := congrArg (fun d : Store => { d with mem := s.ds.mem, nand := s.ds.nand }) (h.same .store hstore)

theorem restartsUp_now (s : State) : (restartsUp s).now = s.now := (keeps_restartsUp (w := 0x2008) rfl (keeps_refl _ s)).same .now rfl

theorem ksCount_now (s : State) : (ksCount s).now = s.now := (keeps_ksCount (w := 0x20000008) rfl (keeps_refl _ s)).same .now rfl

/-! ## The stroke counter as read -/

theorem setBank_same (m : Master) (a : Nat) (v : Word) (s : State) : (setBank m a v s).bank m a = v := by
  simp [setBank, State.bank]

theorem blockShut_strokeLo (m : Master) : blockShut m 0x280000 false = false := by
  simp [blockShut, debugShut]

theorem readAt_strokeLo (m : Master) (s : State) : readAt m 0x280000 s = (strokeLoRead m s, .ok (BitVec.ofNat 32 s.nowLo)) := by
  simp [readAt, blockShut_strokeLo, show inBlocks 0x280000 = true by decide]

/-- A word read with all its bytes enabled is answered whole. -/
theorem readAnswer_word {m : Master} (h : ∀ c, m ≠ .host c) (v : Word) (s : State) :
    readAnswer m (answerBytes m 15 (.ok v)) s = emit (.reg m v) s := by
  have hbytes : answerBytes m 15 (.ok v) = leBytes 4 v.toNat := by
    simp [answerBytes, enabledBytes, leBytes, bitOf]
  have hword : BitVec.ofNat 32 (leAt (leBytes 4 v.toNat) 0 4) = v := by
    refine BitVec.eq_of_toNat_eq ?_
    have hlt := v.isLt
    simp [leAt, leBytes, sliceBytes, leNat, List.range_succ]
    omega
  rw [hbytes]
  cases m with
  | host c => exact absurd rfl (h c)
  | bc => simp only [readAnswer, leBytes_length, if_true, hword]
  | core c => simp only [readAnswer, leBytes_length, if_true, hword]
  | debug => simp only [readAnswer, leBytes_length, if_true, hword]

theorem busRead_strokeLo {m : Master} {s : State} (h : ∀ c, m ≠ .host c) (hmap : mapCause s m 0x280000 false = none)
    (hgate : blockGated s (blockOf 0x280000) = false) : busRead m 0x280000 s = (strokeLoRead m s, .ok (BitVec.ofNat 32 s.nowLo)) := by
  cases m with
  | host c => exact absurd rfl (h c)
  | bc => simp [busRead, hmap, hgate, readAt_strokeLo]
  | core c => simp [busRead, hmap, hgate, readAt_strokeLo]
  | debug => simp [busRead, hmap, hgate, readAt_strokeLo]

theorem exec_cadStrokeLoRead {m : Master} {s : State} (h : ∀ c, m ≠ .host c) (hmap : mapCause s m 0x280000 false = none)
    (hgate : blockGated s (blockOf 0x280000) = false) :
    exec (.cadStrokeLoRead m) s = .next (emit (.reg m (BitVec.ofNat 32 s.nowLo)) (strokeLoRead m s)) := by
  have hserve : regServe m 0x280000 15 false s = emit (.reg m (BitVec.ofNat 32 s.nowLo)) (strokeLoRead m s) := by
    have hword := readAnswer_word h (BitVec.ofNat 32 s.nowLo) (strokeLoRead m s)
    cases m with
    | host c => exact absurd rfl (h c)
    | bc => simpa [regServe, busRead_strokeLo h hmap hgate, noData] using hword
    | core c => simpa [regServe, busRead_strokeLo h hmap hgate, noData] using hword
    | debug => simpa [regServe, busRead_strokeLo h hmap hgate, noData] using hword
  refine congrArg done (Eq.trans ?_ hserve)
  cases m with
  | host c => exact absurd rfl (h c)
  | bc => rfl
  | core c => rfl
  | debug => rfl

/-! ## Host time -/

theorem isSet_set_bit {f : Field} (hf : f.lo = f.hi ∧ f.hi < 32) (b : Bool) (s : State) : (s.set f b.toNat).isSet f = b := by
  obtain ⟨hbit, hhi⟩ := hf
  rw [State.isSet, get_set_same _ _ _ ⟨hbit.le, hhi⟩, hbit]
  cases b <;> simp

theorem isSet_setPtmValid (b : Bool) (s : State) : (setPtmValid b s).isSet Fld.HL_PTM_STATUS_VALID = b := by
  unfold setPtmValid
  split
  case isTrue h => exact h
  case isFalse => rw [isSet_raise _ _ _ (by decide), isSet_set_bit (by decide)]

theorem setPtmValid_hl (b : Bool) (s : State) : (setPtmValid b s).hl = s.hl := by
  unfold setPtmValid
  split
  · rfl
  · rw [raise_plain_hl (by decide), set_hl]

theorem setPtmValid_cad (b : Bool) (s : State) : (setPtmValid b s).cad = s.cad :=
  (keeps_setPtmValid (w := 0x102002D3AB) b rfl (keeps_refl _ s)).same .cad rfl

theorem mem_out_setPtmValid {o : Out} {s : State} (h : o ∈ s.out) (b : Bool) : o ∈ (setPtmValid b s).out := by
  unfold setPtmValid
  split
  · exact h
  · rw [raise_plain (by decide)]
    refine mem_out_raiseEdge ?_ 35
    rwa [set_out]

theorem exec_ptmDialogue (host : BitVec 64) (s : State) : exec (.ptmDialogue host) s = execPtmDialogue host s := rfl

theorem exec_ptmResponseTimeout (s : State) : exec .ptmResponseTimeout s = execPtmResponseTimeout s := rfl

theorem execPtmDialogue_free {s : State} (host : BitVec 64) (hdue : ptmDue s = true) (hfree : s.isSet Fld.CAD_PTM_CTL_DISCIPLINE = false) :
    execPtmDialogue host s = .next ((setPtmValid true (emit (.pcie 0 "PTM" 0) (ptmNext s))).cadUpd fun c => { c with ptmFails := 0 }) := by
  rw [execPtmDialogue, if_pos hdue, hfree, doIf_false, done]

theorem execPtmResponseTimeout_few {s : State} (hdue : ptmDue s = true) (hfew : s.cad.ptmFails < 15) :
    execPtmResponseTimeout s = .next ((setPtmValid false ((emit (.pcie 0 "PTM" 0) (ptmNext s)).inc Fld.HL_PTM_STATUS_FAILS 1)).cadUpd
      fun c => { c with ptmFails := min 16 (c.ptmFails + 1), ptmGood := 0 }) := by
  rw [execPtmResponseTimeout, if_pos hdue, decide_eq_false (by omega), doIf_false, done]

theorem isSet_setLocked (b : Bool) (s : State) : (setLocked b s).isSet Fld.CAD_PTM_STATUS_LOCKED = b := by
  unfold setLocked
  split
  case isTrue h => exact h
  case isFalse =>
    rw [isSet_raise _ _ _ (by decide), isSet_of_get (get_set_apart _ _ _ _ (by decide)), isSet_set_bit (by decide)]

theorem get_setLocked {f : Field} (b : Bool) (s : State) (hraise : f.addr ∉ raiseRegs 261) (hlocked : Fld.CAD_PTM_STATUS_LOCKED.Apart f)
    (hstatus : Fld.CAD_STATUS_PTM_LOCKED.Apart f) : (setLocked b s).get f = s.get f := by
  unfold setLocked
  split
  · rfl
  · rw [get_raise _ _ _ hraise, get_set_apart _ _ _ _ hstatus, get_set_apart _ _ _ _ hlocked]

theorem bitOf_getLsbD {w : Nat} (v : BitVec w) (i : Nat) : bitOf v.toNat i = v.getLsbD i := by
  rw [bitOf, BitVec.getLsbD, Nat.testBit_eq_decide_div_mod_eq]
  rfl

/-- CAD_PTM_CTL written with DISCIPLINE 0. -/
theorem ptmCtlWrite_off {v : Word} (h : v.getLsbD 31 = false) (s : State) :
    ptmCtlWrite v s = ptmOff (doIf (decide (16 ≤ bitsOf v.toNat 7 0)) (·.set Fld.CAD_PTM_CTL_MIN_GAP (bitsOf v.toNat 7 0)) s) := by
  unfold ptmCtlWrite
  dsimp only
  rw [bitOf_getLsbD, h]
  rfl

theorem get_discipline_ptmOff (s : State) : (ptmOff s).get Fld.CAD_PTM_CTL_DISCIPLINE = 0 := by
  unfold ptmOff
  rw [cadUpd_get, get_setLocked _ _ (by decide) (by decide) (by decide), get_set_apart _ _ _ _ (by decide), get_set_same _ _ _ (by decide)]
  rfl

theorem get_anchored_ptmOff (s : State) : (ptmOff s).get Fld.CAD_PTM_STATUS_ANCHORED = 0 := by
  unfold ptmOff
  rw [cadUpd_get, get_setLocked _ _ (by decide) (by decide) (by decide), get_set_same _ _ _ (by decide)]
  rfl

theorem isSet_locked_ptmOff (s : State) : (ptmOff s).isSet Fld.CAD_PTM_STATUS_LOCKED = false := by
  unfold ptmOff
  rw [isSet_of_get (cadUpd_get _ _ _), isSet_setLocked]

/-! ## The commit -/

theorem exec_cadCommitGo_pending {s : State} (h : s.get Fld.CAD_COMMIT_RESULT = 1) : exec .cadCommitGo s = .next s :=
  congrArg done (if_pos h)

/-- The commit as asked for, before what wakes for it. -/
def commitAsked (s : State) : State :=
  ((s.setWord Adr.CAD_COMMIT 0).set Fld.CAD_COMMIT_RESULT 1).cadUpd fun c => { c with commitAt := some s.now }

theorem exec_cadCommitGo_free {s : State} (h : s.get Fld.CAD_COMMIT_RESULT ≠ 1) : exec .cadCommitGo s = .next (commitWakes (commitAsked s)) :=
  congrArg done (if_neg h)

theorem get_commitAsked (s : State) : (commitAsked s).get Fld.CAD_COMMIT_RESULT = 1 := by
  unfold commitAsked
  rw [cadUpd_get, get_set_same _ _ _ (by decide)]
  rfl

theorem commitWakes_cad (s : State) : (commitWakes s).cad = s.cad :=
  (keeps_commitWakes (w := 0x20000008) rfl (keeps_refl _ s)).same .cad rfl

/-- An exit from sleep writes the state of sleep and pending bits alone. -/
theorem get_sleepExit {f : Field} (s : State) (hsleep : Fld.CRP_SLEEP_STATE.Apart f) (hlow : f.addr < 0x700000) : (sleepExit s).get f = s.get f := by
  have hpend (n : Nat) (s : State) : (setPending n s).get f = s.get f := by
    refine get_setWord_ne _ _ ?_
    simp only [Adr.IC_PEND]
    omega
  unfold sleepExit
  split
  · refine (doIf_same (State.get · f) _ _ fun s => ?_).trans ((pwrUpd_get _ _ _).trans (get_set_apart _ _ _ _ hsleep))
    exact doAll_same (State.get · f) _ s hpend
  · rfl

theorem get_commitWakes {f : Field} (s : State) (hsleep : Fld.CRP_SLEEP_STATE.Apart f) (hlow : f.addr < 0x700000) :
    (commitWakes s).get f = s.get f :=
  doIf_same (State.get · f) _ s fun s => get_sleepExit s hsleep hlow

/-- The registers that follow the active lists. -/
def rsvRegs : List Nat :=
  [Adr.CAD_RSV_TGT_LB, Adr.CAD_RSV_TGT_UL, Fld.CAD_RSV_DN_C0.addr, Fld.CAD_RSV_UP_C0.addr, Fld.HL_LINK_STATUS_C0_SHORT.addr] ++
    raiseRegs 36 ++ [0, 1, 2, 3].flatMap fun k => (Fld.UL_STATUS_C0_SHORT k).addr :: raiseRegs (107 + 12 * k)

theorem regsOnly_raiseIn {l : List Nat} {r s : State} (h : RegsOnly l r s) {n : Nat} (hl : ∀ a ∈ raiseRegs n, a ∈ l) : RegsOnly l r (raise n s) :=
  regsOnly_trans h (regsOnly_mono (regsOnly_raise n s) hl)

theorem regsOnly_updRsv (s : State) : RegsOnly rsvRegs s (updRsv s) := by
  have hshort (s t : State) (h : RegsOnly rsvRegs s t) : RegsOnly rsvRegs s (updC0Short t) :=
    regsOnly_doIf (regsOnly_set h _ (by decide)) fun _ h => regsOnly_raiseIn h (by decide)
  have hlink (s t : State) (k : Nat) (hk : k < 4) (h : RegsOnly rsvRegs s t) : RegsOnly rsvRegs s (updUlShort k t) := by
    have hin : (Fld.UL_STATUS_C0_SHORT k).addr ∈ rsvRegs ∧ ∀ a ∈ raiseRegs (107 + 12 * k), a ∈ rsvRegs := by
      interval_cases k <;> decide
    exact regsOnly_doIf (regsOnly_set h _ hin.1) fun _ h => regsOnly_raiseIn h hin.2
  unfold updRsv
  refine hlink s _ 3 (by decide) (hlink s _ 2 (by decide) (hlink s _ 1 (by decide) (hlink s _ 0 (by decide) (hshort s _ ?_))))
  refine regsOnly_setWord (regsOnly_setWord ?_ _ (by decide)) _ (by decide)
  exact regsOnly_set (regsOnly_set (regsOnly_set (regsOnly_set (regsOnly_refl _ s) _ (by decide)) _ (by decide)) _ (by decide)) _ (by decide)

theorem updRsv_cad (s : State) : (updRsv s).cad = s.cad := (keeps_updRsv (w := 0x102002D3AB) rfl (keeps_refl _ s)).same .cad rfl

theorem raise_cad (n : Nat) (s : State) : (raise n s).cad = s.cad := (keeps_raise (w := 0x102002D3AB) n rfl (keeps_refl _ s)).same .cad rfl

/-- The shadow lists put in the places of the active lists. -/
def listsTaken (s : State) : State := doAll (List.range 8) (fun k s => setList (8 + k) (s.list k) s) s

theorem list_setList (k j : Nat) (l : List (BitVec 8)) (s : State) : (setList k l s).list j = if j = k then l else s.list j := by
  simp [setList, State.list, State.cadUpd, tabGet_tabSet]

theorem list_doAll_setList (n : Nat) (hn : n ≤ 8) (j : Nat) (s : State) :
    (doAll (List.range n) (fun k s => setList (8 + k) (s.list k) s) s).list j = if 8 ≤ j ∧ j < 8 + n then s.list (j - 8) else s.list j := by
  induction n generalizing j with
  | zero => simp [doAll]
  | succ n ih =>
    have hstep : doAll (List.range (n + 1)) (fun k s => setList (8 + k) (s.list k) s) s =
        setList (8 + n) ((doAll (List.range n) (fun k s => setList (8 + k) (s.list k) s) s).list n)
          (doAll (List.range n) (fun k s => setList (8 + k) (s.list k) s) s) := by
      simp [doAll, List.range_succ, List.foldl_append]
    rw [hstep, list_setList, ih (by omega), ih (by omega)]
    by_cases hj : j = 8 + n
    · subst hj
      rw [if_pos rfl, if_neg (by omega), if_pos (by omega), Nat.add_sub_cancel_left]
    · rw [if_neg hj]
      exact if_congr (by omega) rfl rfl

theorem list_listsTaken (k : Fin 8) (s : State) : (listsTaken s).list (8 + k) = s.list k := by
  rw [listsTaken, list_doAll_setList 8 (Nat.le_refl 8), if_pos (by omega), Nat.add_sub_cancel_left]

/-- The registers of an applied commit, before the reservations follow. -/
def commitTaken (b : Stroke) (s : State) : State :=
  ((((listsTaken s).cadUpd fun c => { c with commitAt := none }).setWord Adr.CAD_COMMIT 0).set Fld.CAD_COMMIT_RESULT 2).set
    Fld.CAD_COMMIT_TS_STROKE_LO (b.toNat % 2 ^ 32)

theorem commitApply_taken {s : State} (h : commitErr s = none) (b : Stroke) : commitApply b s = raise 256 (updRsv (commitTaken b s)) := by
  rw [commitApply, h]
  rfl

/-- The registers of a refused commit. -/
def commitRefused (e : Nat) (up : Bool) (l slot : Nat) (s : State) : State :=
  ((((((s.cadUpd fun c => { c with commitAt := none }).setWord Adr.CAD_COMMIT 0).set Fld.CAD_COMMIT_RESULT 3).set Fld.CAD_COMMIT_ERR e).set
    Fld.CAD_COMMIT_DIR up.toNat).set Fld.CAD_COMMIT_LEVEL l).set Fld.CAD_COMMIT_SLOT slot

theorem commitApply_refused {s : State} {e l slot : Nat} {up : Bool} (h : commitErr s = some (e, up, l, slot)) (b : Stroke) :
    commitApply b s = raise 257 (commitRefused e up l slot s) := by
  rw [commitApply, h]
  rfl

theorem commitApply_taken_get {s : State} (h : commitErr s = none) (b : Stroke) {f : Field} (hf : f.addr ∉ rsvRegs ++ raiseRegs 256) :
    (commitApply b s).get f = (commitTaken b s).get f := by
  rw [List.mem_append, not_or] at hf
  rw [commitApply_taken h, get_raise _ _ _ hf.2, regsOnly_get (regsOnly_updRsv _) hf.1]

theorem commitApply_taken_cad {s : State} (h : commitErr s = none) (b : Stroke) :
    (commitApply b s).cad = { (listsTaken s).cad with commitAt := none } := by
  rw [commitApply_taken h, raise_cad, updRsv_cad]
  rfl

/-- A failure found, if any, has a code that ERR holds. -/
def Coded (r : Option (Nat × Bool × Nat × Nat)) : Prop := ∀ x, r = some x → x.1 < 16

theorem coded_none : Coded none := nofun

theorem coded_some {e : Nat} (he : e < 16) (x : Bool × Nat × Nat) : Coded (some (e, x)) := by
  rintro _ ⟨⟩
  exact he

theorem coded_or {a b : Option (Nat × Bool × Nat × Nat)} (ha : Coded a) (hb : Coded b) : Coded (a <|> b) := by
  cases a with
  | none => exact hb
  | some x => exact ha

theorem coded_findSome {α : Type} {f : α → Option (Nat × Bool × Nat × Nat)} (hf : ∀ a, Coded (f a)) (l : List α) : Coded (l.findSome? f) := by
  intro x hx
  obtain ⟨a, -, ha⟩ := List.exists_of_findSome?_eq_some hx
  exact hf a x ha

theorem coded_slot {e : Nat} (he : e < 16) (up : Bool) (l : Nat) (r : Option Nat) : Coded (r.map fun slot => (e, up, l, slot)) := by
  cases r with
  | none => exact coded_none
  | some slot => exact coded_some he _

theorem coded_ite {p : Prop} [Decidable p] {a b : Option (Nat × Bool × Nat × Nat)} (ha : Coded a) (hb : Coded b) : Coded (if p then a else b) := by
  split
  · exact ha
  · exact hb

/-- The checks of 07 Table 07-5 have the codes 1 to 6. -/
theorem coded_commitErr (s : State) : Coded (commitErr s) := by
  unfold commitErr
  dsimp only
  refine coded_or ?entries (coded_or ?targets (coded_or ?bulk (coded_or ?c0 (coded_or ?c1 ?link))))
  case entries => exact coded_findSome (fun x => coded_slot (by decide) _ _ _) _
  case targets => exact coded_findSome (fun x => coded_slot (by decide) _ _ _) _
  case bulk => exact coded_findSome (fun x => coded_slot (by decide) _ _ _) _
  case c0 => exact coded_findSome (fun up => coded_ite (coded_some (by decide) _) coded_none) _
  case c1 => exact coded_findSome (fun up => coded_ite (coded_some (by decide) _) coded_none) _
  case link => exact coded_ite (coded_findSome (fun up => coded_ite (coded_some (by decide) _) coded_none) _) coded_none

/-! ## The statement -/

/-- Settles O13: each row by its equation; a commit by the checks it passes, and what its lists and registers then hold. -/
theorem strokesAndHostTime : Obligations.StrokesAndHostTime := by
  unfold Obligations.StrokesAndHostTime
  refine ⟨?standing, ?still, ?preserve, ?read, ?dialogue, ?timeout, ?off, ?go, ?again, ?due, ?taken, ?refused⟩
  case standing => exact fun s h => congrArg done (strokeBoundary_standing h)
  case still =>
    intro s h hks hrst
    refine congrArg done ?_
    rw [strokeBoundary_standing h, countRelease_of_released hrst, ksCount_of_stopped hks]
  case preserve =>
    intro s hcount hmode hdeferred hqps hdue
    have hkeeps := keeps_preserveBoundary (countRelease s)
    have hrelease := keeps_countRelease (w := 0x1000) rfl (keeps_refl _ s)
    have hrun := strokeBoundary_preserve hcount ⟨hmode, hdeferred, hqps, hdue⟩
    refine ⟨_, congrArg done hrun, ?_, ?_, hkeeps.same .dev rfl, ?_, ?_⟩
    · rw [restartsUp_now, countStroke, ksCount_now]
      exact congrArg (· + 1) (hrelease.same .now rfl)
    · rw [mode_of_steady (steady_preserveBoundary _), (preserveQuiet_countRelease ⟨hmode, hdeferred, hqps, hdue⟩).mode]
    · exact (ds_of_keeps hkeeps rfl rfl rfl).trans (ds_of_keeps hrelease rfl rfl rfl)
    · exact (hkeeps.same .out rfl).trans (hrelease.same .out rfl)
  case read =>
    intro m s hm hmap hgate
    have hhost (c : Fin 1024) : m ≠ .host c := by
      rintro rfl
      obtain hm | hm | ⟨c, hm⟩ := hm <;> cases hm
    refine ⟨_, exec_cadStrokeLoRead hhost hmap hgate, rfl, ?_, rfl, rfl⟩
    exact setBank_same m _ _ s
  case dialogue =>
    intro host s hdue hfree
    refine ⟨_, (exec_ptmDialogue host s).trans (execPtmDialogue_free host hdue hfree), ?_, ?_, rfl, ?_⟩
    · exact mem_out_setPtmValid (s := emit (.pcie 0 "PTM" 0) (ptmNext s)) List.mem_cons_self true
    · exact (isSet_of_get (cadUpd_get _ _ _)).trans (isSet_setPtmValid true _)
    · rw [cadUpd_hl, setPtmValid_hl]
      rfl
  case timeout =>
    intro s hdue hfew
    refine ⟨_, (exec_ptmResponseTimeout s).trans (execPtmResponseTimeout_few hdue hfew), ?_, ?_, rfl⟩
    · exact (isSet_of_get (cadUpd_get _ _ _)).trans (isSet_setPtmValid false _)
    · rw [cadUpd_cad, setPtmValid_cad]
      exact Nat.min_eq_right (by exact Nat.succ_le_of_lt (Nat.lt_succ_of_lt hfew))
  case off =>
    intro v s h
    refine ⟨_, congrArg done (ptmCtlWrite_off h s), get_discipline_ptmOff _, get_anchored_ptmOff _, isSet_locked_ptmOff _, rfl⟩
  case go =>
    intro s h
    refine ⟨_, exec_cadCommitGo_free h, ?_, ?_, ?_⟩
    · rw [get_commitWakes _ (by decide) (by decide), get_commitAsked]
    · rw [commitWakes_cad]
      rfl
    · rw [commitWakes_cad]
      rfl
  case again => exact fun s h => exec_cadCommitGo_pending h
  case due =>
    intro s h
    refine congrArg done ?_
    rw [h, doIf_true]
  case taken =>
    intro b s h
    have hcad := commitApply_taken_cad h b
    refine ⟨?_, ?_, ?_, fun k => ?_⟩
    · rw [commitApply_taken_get h b (by decide), commitTaken, get_set_apart _ _ _ _ (by decide), get_set_same _ _ _ (by decide)]
      rfl
    · rw [hcad]
    · rw [commitApply_taken_get h b (by decide), commitTaken, get_set_same _ _ _ (by decide)]
      exact Nat.mod_mod _ _
    · rw [State.list, hcad]
      exact list_listsTaken k s
  case refused =>
    intro b e l slot up s h
    have hcode : e < 16 := coded_commitErr s _ h
    have hcad : (commitApply b s).cad = { s.cad with commitAt := none } := by
      rw [commitApply_refused h, raise_cad]
      rfl
    have hget {f : Field} (hf : f.addr ∉ raiseRegs 257) : (commitApply b s).get f = (commitRefused e up l slot s).get f := by
      rw [commitApply_refused h, get_raise _ _ _ hf]
    refine ⟨?_, ?_, ?_, by rw [hcad], by rw [hcad]⟩
    · rw [hget (by decide), commitRefused, get_set_apart _ _ _ _ (by decide), get_set_apart _ _ _ _ (by decide),
        get_set_apart _ _ _ _ (by decide), get_set_apart _ _ _ _ (by decide), get_set_same _ _ _ (by decide)]
      rfl
    · rw [hget (by decide), commitRefused, get_set_apart _ _ _ _ (by decide), get_set_apart _ _ _ _ (by decide),
        get_set_apart _ _ _ _ (by decide), get_set_same _ _ _ (by decide)]
      exact Nat.mod_eq_of_lt hcode
    · rw [hget (by decide), commitRefused, get_set_apart _ _ _ _ (by decide), get_set_apart _ _ _ _ (by decide),
        get_set_same _ _ _ (by decide)]
      cases up <;> rfl

end Sys2Proof.Machine
end

section

/-! Tags, translations and the power of the host link (O18). -/

namespace Sys2Proof.Machine

/-! ## Tags and completions -/

theorem freeTags_tags (p : Nat × HostTag → Bool) (s : State) : (freeTags p s).hl.tags = s.hl.tags.filter fun t => !p t := by
  rw [freeTags, updTags_hl, hlUpd_hl]

theorem freeTags_hl (p : Nat × HostTag → Bool) (s : State) : (freeTags p s).hl = { s.hl with tags := s.hl.tags.filter fun t => !p t } := by
  rw [freeTags, updTags_hl, hlUpd_hl]

theorem freeTags_out (p : Nat × HostTag → Bool) (s : State) : (freeTags p s).out = s.out :=
  (keeps_freeTags (w := 0x20008) p rfl (keeps_refl _ s)).same .out rfl

theorem aerMessage_hl (c b : Nat) (masked : Bool) (what : String) (s : State) : (aerMessage c b masked what s).hl = s.hl :=
  doIf_same State.hl _ s fun _ => rfl

/-- An advisory report changes nothing of the link's own state. -/
theorem aerAdvisory_hl (c b : Nat) (s : State) : (aerAdvisory c b 28 s).hl = s.hl := by
  unfold aerAdvisory aerAdvisoryOf
  dsimp only
  split
  · rw [if_pos rfl, raise_plain_hl (by decide), aerMessage_hl]
    rfl
  · rw [raise_plain_hl (by decide), aerMessage_hl]
    rfl

theorem unexpected_hl (c : Nat) (s : State) : (unexpected c s).hl = s.hl := aerAdvisory_hl _ 16 s

theorem exec_deviceRequestCompletion_hostOpen {s : State} (h : HostOpen s) (c tag : Fin 1024) (st : Fin 4) (data : List Byte) :
    exec (.deviceRequestCompletion c tag st data) s = .next (completion c tag st data (hostNoted s)) :=
  congrArg done (hostTlp_of_hostOpen h _ _ _)

theorem completion_none {c tag : Nat} {s : State} (h : s.hl.tags.find? (tagIs c tag) = none) (st : Nat) (data : List Byte) :
    completion c tag st data s = unexpected c s := by
  rw [completion, h]

theorem completion_late {c tag : Nat} {u : Nat × HostTag} {s : State} (h : s.hl.tags.find? (tagIs c tag) = some u) (hq : u.2.quarantined = true)
    (st : Nat) (data : List Byte) : completion c tag st data s = unexpected c (freeTags (tagIs c u.1) s) := by
  rw [completion, h]
  dsimp only
  rw [if_pos hq]

theorem completion_ends {c tag : Nat} {u : Nat × HostTag} {s : State} (h : s.hl.tags.find? (tagIs c tag) = some u) (hq : u.2.quarantined = false)
    {st : Nat} (huse : st ≠ 0 ∨ u.2.use.isAts = false) (data : List Byte) : completion c tag st data s =
      tagEnds u.2.use (cplAns st data) (doIf (st == 3) (aerAdvisory c 12 28) (freeTags (tagIs c u.1) s)) := by
  have hrow : ¬ (st = 0 ∧ u.2.use.isAts = true) := by
    rintro ⟨hst, hats⟩
    obtain hne | hno := huse
    · exact hne hst
    · rw [hno] at hats
      exact Bool.noConfusion hats
  rw [completion, h]
  dsimp only
  rw [if_neg (by rw [hq]; decide), if_neg hrow]

/-! ## Completion timeouts -/

/-- What the timeout of a request does, by the tag it finds. -/
def timeoutOf (c : Nat) (s : State) (u : Nat × HostTag) : State :=
  if u.2.quarantined ∨ ¬ tagTimedOut s u.2 then s else tagEnds u.2.use .timeout (retireTag c u.1 (aerAdvisory u.2.ctx 14 31 s))

theorem exec_deviceRequestTimeout_none {c tag : Fin 1024} {s : State} (h : s.hl.tags.find? (tagIs c tag) = none) :
    exec (.deviceRequestTimeout c tag) s = .next s := by
  change execDeviceRequestTimeout c tag s = _
  rw [execDeviceRequestTimeout, h, done]

theorem exec_deviceRequestTimeout_some {c tag : Fin 1024} {u : Nat × HostTag} {s : State} (h : s.hl.tags.find? (tagIs c tag) = some u) :
    exec (.deviceRequestTimeout c tag) s = .next (timeoutOf c s u) := by
  change execDeviceRequestTimeout c tag s = _
  rw [execDeviceRequestTimeout, h, done]
  rfl

theorem tagTimedOut_of_cto {s : State} {u : HostTag} {n : Nat} (hcto : ctoStrokes (s.fn u.ctx).cto = some n) (hn : n ≤ s.since u.issued) :
    tagTimedOut s u = true := by
  rw [tagTimedOut, hcto]
  exact decide_eq_true hn

/-! ## Translations -/

/-- A number of cache entries step their SEQ: what the link holds otherwise stays. -/
theorem atsBumps_hl (l : List Nat) (s : State) : ∃ q, (doAll l atsBump s).hl = { s.hl with atsSeq := q } := by
  unfold doAll
  induction l generalizing s with
  | nil => exact ⟨_, rfl⟩
  | cons e l ih =>
    obtain ⟨q, hq⟩ := ih (atsBump e s)
    exact ⟨q, hq⟩

theorem atsDiscard_hl (p : AtsEntry → Bool) (s : State) :
    ∃ q, (atsDiscard p s).hl = { s.hl with ats := s.hl.ats.filter fun e => !p e, atsSeq := q } := by
  obtain ⟨q, hq⟩ := atsBumps_hl ((s.hl.ats.filter p).map (·.idx)) (s.hlUpd fun h => { h with ats := h.ats.filter fun e => !p e })
  refine ⟨q, ?_⟩
  unfold atsDiscard
  dsimp only
  rw [set_hl, hq]
  rfl

theorem atsDiscard_ats (p : AtsEntry → Bool) (s : State) : (atsDiscard p s).hl.ats = s.hl.ats.filter fun e => !p e := by
  obtain ⟨q, hq⟩ := atsDiscard_hl p s
  rw [hq]

theorem atsDiscard_tags (p : AtsEntry → Bool) (s : State) : (atsDiscard p s).hl.tags = s.hl.tags := by
  obtain ⟨q, hq⟩ := atsDiscard_hl p s
  rw [hq]

theorem atsDiscard_inval (p : AtsEntry → Bool) (s : State) : (atsDiscard p s).hl.inval = s.hl.inval := by
  obtain ⟨q, hq⟩ := atsDiscard_hl p s
  rw [hq]

theorem get_valid_atsDiscard (p : AtsEntry → Bool) (s : State) :
    (atsDiscard p s).get Fld.HL_ATS_STATUS_VALID = (atsDiscard p s).hl.ats.length % 2 ^ 13 := by
  unfold atsDiscard
  dsimp only
  rw [get_set_same _ _ _ (by decide), set_hl]
  rfl

/-- The least recently used of some entries goes. -/
def atsDropOldest (l : List AtsEntry) (s : State) : State :=
  match atsOldest s l with
  | some o => atsDiscard (fun e => e.idx == o.idx) s
  | none => s

theorem atsDropOldest_tags (l : List AtsEntry) (s : State) : (atsDropOldest l s).hl.tags = s.hl.tags := by
  unfold atsDropOldest
  split
  · exact atsDiscard_tags _ s
  · rfl

/-- Room across the device. -/
def atsRoomLeft (s : State) : State := if 4096 ≤ s.hl.ats.length then atsDropOldest s.hl.ats s else s

/-- Room within a context. -/
def atsRoomOf (c : Nat) (s : State) : State :=
  if s.get Fld.HL_ATS_CTL_CTX_CAP ≤ (s.hl.ats.filter fun e => e.ctx == c).length then atsDropOldest (s.hl.ats.filter fun e => e.ctx == c) s
  else s

theorem atsMakeRoom_eq (c : Nat) (s : State) : atsMakeRoom c s = atsRoomLeft (atsRoomOf c s) := rfl

theorem atsMakeRoom_tags (c : Nat) (s : State) : (atsMakeRoom c s).hl.tags = s.hl.tags := by
  have hleft (s : State) : (atsRoomLeft s).hl.tags = s.hl.tags := by
    unfold atsRoomLeft
    split
    · exact atsDropOldest_tags _ s
    · rfl
  have hof : (atsRoomOf c s).hl.tags = s.hl.tags := by
    unfold atsRoomOf
    split
    · exact atsDropOldest_tags _ s
    · rfl
  rw [atsMakeRoom_eq, hleft, hof]

/-- An empty cache has room. -/
theorem atsMakeRoom_of_empty {s : State} (h : s.hl.ats = []) (c : Nat) : atsMakeRoom c s = s := by
  simp [atsMakeRoom, h, atsOldest]

/-- The cache as it takes one translation. -/
def atsTaken (c : Nat) (iova ta : Addr) (log2 : Nat) (r w u n g : Bool) (s : State) : State :=
  atsBump (atsFree s) (s.hlUpd fun h => { h with ats := h.ats ++ [⟨atsFree s, c, iova, ta, max 12 log2, r, w, u, n, g, s.now, 0⟩] })

theorem atsTaken_tags (c : Nat) (iova ta : Addr) (log2 : Nat) (r w u n g : Bool) (s : State) :
    (atsTaken c iova ta log2 r w u n g s).hl.tags = s.hl.tags := rfl

theorem atsTaken_ats (c : Nat) (iova ta : Addr) (log2 : Nat) (r w u n g : Bool) (s : State) : (atsTaken c iova ta log2 r w u n g s).hl.ats =
    s.hl.ats ++ [⟨atsFree s, c, iova, ta, max 12 log2, r, w, u, n, g, s.now, 0⟩] := rfl

/-- VALID as the cache has filled, with HL_ATS_FULL. -/
def atsCounted (c : Nat) (s : State) : State :=
  (fun s => doIf (decide (s.get Fld.HL_ATS_CTL_CTX_CAP ≤ (s.hl.ats.filter fun e => e.ctx == c).length)) (raise 33) s)
    (s.set Fld.HL_ATS_STATUS_VALID s.hl.ats.length)

theorem atsFill_eq (c : Nat) (iova ta : Addr) (log2 : Nat) (r w u n g : Bool) (s : State) : atsFill c iova ta log2 r w u n g s =
    atsCounted c (atsTaken c iova ta log2 r w u n g (atsMakeRoom c (atsDiscard (fun e => e.ctx == c && e.iova == iova) s))) := rfl

theorem atsCounted_hl (c : Nat) (s : State) : (atsCounted c s).hl = s.hl := by
  unfold atsCounted
  dsimp only
  rw [doIf_raise_hl _ (by decide), set_hl]

theorem get_valid_atsCounted (c : Nat) (s : State) : (atsCounted c s).get Fld.HL_ATS_STATUS_VALID = s.hl.ats.length % 2 ^ 13 := by
  unfold atsCounted
  dsimp only
  rw [doIf_raise_get _ (by decide), get_set_same _ _ _ (by decide)]
  rfl

theorem atsFill_tags (c : Nat) (iova ta : Addr) (log2 : Nat) (r w u n g : Bool) (s : State) :
    (atsFill c iova ta log2 r w u n g s).hl.tags = s.hl.tags := by
  rw [atsFill_eq, atsCounted_hl, atsTaken_tags, atsMakeRoom_tags, atsDiscard_tags]

theorem atsFill_last (c : Nat) (iova ta : Addr) (log2 : Nat) (r w u n g : Bool) (s : State) :
    ((atsFill c iova ta log2 r w u n g s).hl.ats.getLast?.map fun e => (e.ctx, e.iova, e.ta, e.r, e.w)) = some (c, iova, ta, r, w) := by
  rw [atsFill_eq, atsCounted_hl, atsTaken_ats, List.getLast?_concat]
  rfl

theorem get_valid_atsFill_of_empty {s : State} (h : s.hl.ats = []) (c : Nat) (iova ta : Addr) (log2 : Nat) (r w u n g : Bool) :
    (atsFill c iova ta log2 r w u n g s).get Fld.HL_ATS_STATUS_VALID = 1 := by
  have hempty : (atsDiscard (fun e => e.ctx == c && e.iova == iova) s).hl.ats = [] := by rw [atsDiscard_ats, h]; rfl
  rw [atsFill_eq, get_valid_atsCounted, atsMakeRoom_of_empty hempty, atsTaken_ats, hempty]
  rfl

theorem exec_atsTranslationCompletion_hostOpen {s : State} (h : HostOpen s) (c : Fin 1024) (iova ta : Addr) (log2 : Fin 53) (r w u n g : Bool) :
    exec (.atsTranslationCompletion c iova ta log2 r w u n g) s = .next (translated c iova ta log2 r w u n g (hostNoted s)) :=
  congrArg done (hostTlp_of_hostOpen h _ _ _)

/-- What a translation does, by the tag that asked for it. -/
def translatedOf (c : Nat) (page ta : Addr) (log2 : Nat) (r w u n g : Bool) (s : State) : Option (Nat × HostTag) → State
  | none => unexpected c s
  | some (t, x) =>
    if x.quarantined then unexpected c (freeTags (tagIs c t) s)
    else if r || w then atsFill c page ta log2 r w u n g (freeTags (tagIs c t) s)
    else match x.use with
      | .ats _ who => askerDenied who (freeTags (tagIs c t) s)
      | _ => freeTags (tagIs c t) s

theorem translated_eq (c : Nat) (iova ta : Addr) (log2 : Nat) (r w u n g : Bool) (s : State) : translated c iova ta log2 r w u n g s =
    translatedOf c (atsPage iova.toNat) ta log2 r w u n g s (s.hl.tags.find? (atsAsks c (atsPage iova.toNat))) := rfl

theorem translated_none {c : Nat} {iova : Addr} {s : State} (h : s.hl.tags.find? (atsAsks c (atsPage iova.toNat)) = none)
    (ta : Addr) (log2 : Nat) (r w u n g : Bool) : translated c iova ta log2 r w u n g s = unexpected c s := by
  rw [translated_eq, h, translatedOf]

theorem translated_denied {c t : Nat} {x : HostTag} {who : AtsFor} {iova page : Addr} {s : State}
    (h : s.hl.tags.find? (atsAsks c (atsPage iova.toNat)) = some (t, x)) (hq : x.quarantined = false) (huse : x.use = .ats page who)
    (ta : Addr) (log2 : Nat) (u n g : Bool) :
    translated c iova ta log2 false false u n g s = askerDenied who (freeTags (tagIs c t) s) := by
  simp [translated_eq, h, translatedOf, hq, huse]

theorem translated_filled {c t : Nat} {x : HostTag} {iova : Addr} {s : State}
    (h : s.hl.tags.find? (atsAsks c (atsPage iova.toNat)) = some (t, x)) (hq : x.quarantined = false) {r w : Bool} (hrw : (r || w) = true)
    (ta : Addr) (log2 : Nat) (u n g : Bool) :
    translated c iova ta log2 r w u n g s = atsFill c (atsPage iova.toNat) ta log2 r w u n g (freeTags (tagIs c t) s) := by
  simp only [translated_eq, h, translatedOf, hq, hrw, Bool.false_eq_true, if_false, if_true]

/-! ## Invalidations -/

theorem exec_atsInvalidationRequest_hostOpen {s : State} (h : HostOpen s) (hfull : s.ds.full = false) (c : Fin 1024) (iova : Addr)
    (log2 : Fin 65) (itag : Fin 32) :
    exec (.atsInvalidationRequest c iova log2 itag) s = .next (atsInvalidate c iova log2 itag (hostNoted s)) :=
  congrArg done (hostPosted_of_hostOpen h hfull _ _ _)

/-- The request is noted before the translations that it names are discarded. -/
def invalNoted (c : Nat) (iova : Addr) (log2 itag : Nat) (s : State) : State :=
  (s.hlUpd fun h => { h with inval := h.inval ++ [⟨itag, c, iova, log2, s.now⟩] }).inc Fld.HL_ATS_STATUS_INVAL_PEND 1

theorem atsInvalidate_eq (c : Nat) (iova : Addr) (log2 itag : Nat) (s : State) :
    atsInvalidate c iova log2 itag s = raise 32 (atsDiscard (invalNames c iova log2) (invalNoted c iova log2 itag s)) := rfl

theorem invalNames_iff (c : Nat) (iova : Addr) (log2 : Nat) (e : AtsEntry) : invalNames c iova log2 e = true ↔
    e.ctx = c ∧ e.iova.toNat / 2 ^ max log2 e.log2 = iova.toNat / 2 ^ max log2 e.log2 := by
  rw [invalNames, Bool.and_eq_true, beq_iff_eq, beq_iff_eq]

/-- The completion of an invalidation, where it is not early. -/
def invalDone (itag : Nat) (e : AtsInval) (s : State) : State :=
  emit (.pcie e.ctx "Invalidate Completion" itag)
    ((s.hlUpd fun h => { h with inval := h.inval.erase e }).dec Fld.HL_ATS_STATUS_INVAL_PEND 1)

theorem exec_atsInvalidationComplete (itag : Fin 32) (s : State) :
    exec (.atsInvalidationComplete itag) s = execAtsInvalidationComplete itag s := rfl

theorem execAtsInvalidationComplete_some {itag : Fin 32} {e : AtsInval} {s : State}
    (h : (s.hl.inval.find? fun e => e.itag == itag.val) = some e) : execAtsInvalidationComplete itag s =
      .next (if invalInUse s e = true ∧ s.since e.since < 4000 then s else invalDone itag e s) := by
  rw [execAtsInvalidationComplete, h, done]
  rfl

/-! ## The link in Recovery -/

/-- The link is in Recovery and has not left it. -/
structure InRecovery (s : State) : Prop where
  lstate : s.get Fld.HL_LINK_STATUS_LSTATE = 3
  recovery : s.get Fld.HL_LINK_STATUS_IN_RECOVERY = 1
  clear : s.hl.recClear = none

theorem inRecovery_same {s t : State} (h : InRecovery s) (hword : t.word Fld.HL_LINK_STATUS_LSTATE.addr = s.word Fld.HL_LINK_STATUS_LSTATE.addr)
    (hclear : t.hl.recClear = s.hl.recClear) : InRecovery t := by
  obtain ⟨hl, hr, hc⟩ := h
  refine ⟨?_, ?_, hclear.trans hc⟩
  · rw [← hl]
    unfold State.get
    rw [hword]
  · rw [← hr]
    unfold State.get
    rw [show Fld.HL_LINK_STATUS_IN_RECOVERY.addr = Fld.HL_LINK_STATUS_LSTATE.addr from rfl, hword]

theorem inRecovery_set {s : State} (h : InRecovery s) {f : Field} (v : Nat) (hlstate : f.Apart Fld.HL_LINK_STATUS_LSTATE)
    (hrecovery : f.Apart Fld.HL_LINK_STATUS_IN_RECOVERY) : InRecovery (s.set f v) := by
  obtain ⟨hl, hr, hc⟩ := h
  refine ⟨?_, ?_, ?_⟩
  · rw [get_set_apart _ _ _ _ hlstate, hl]
  · rw [get_set_apart _ _ _ _ hrecovery, hr]
  · rw [set_hl, hc]

theorem inRecovery_inc {s : State} (h : InRecovery s) {f : Field} (n : Nat) (hf : Fld.HL_LINK_STATUS_LSTATE.addr ≠ f.addr) :
    InRecovery (s.inc f n) :=
  inRecovery_same h (word_set_ne _ _ _ hf) (congrArg Hl.recClear (inc_hl _ _ _))

theorem inRecovery_doIf {s : State} (h : InRecovery s) (c : Bool) {f : State → State} (hf : ∀ s, InRecovery s → InRecovery (f s)) :
    InRecovery (doIf c f s) := by
  cases c
  · exact h
  · exact hf s h

theorem inRecovery_doAll {α : Type} {s : State} (h : InRecovery s) (l : List α) {f : α → State → State}
    (hf : ∀ a s, InRecovery s → InRecovery (f a s)) : InRecovery (doAll l f s) := by
  unfold doAll
  induction l generalizing s with
  | nil => exact h
  | cons a l ih => exact ih (hf a s h)

theorem inRecovery_fnUpd {s : State} (h : InRecovery s) (c : Nat) (f : Fn → Fn) : InRecovery (s.fnUpd c f) := inRecovery_same h rfl rfl

theorem inRecovery_sendPme {s : State} (h : InRecovery s) (c : Nat) : InRecovery (sendPme c s) := by
  unfold sendPme
  refine inRecovery_fnUpd (inRecovery_inc ?_ 1 (by decide)) c _
  split
  · exact inRecovery_same h rfl rfl
  · exact inRecovery_same h rfl rfl

theorem inRecovery_signalPme {s : State} (h : InRecovery s) (c : Nat) : InRecovery (signalPme c s) := by
  unfold signalPme
  split
  · exact h
  · exact inRecovery_doIf (inRecovery_fnUpd h c _) _ fun _ h => inRecovery_sendPme h c

theorem inRecovery_holdMsix {s : State} (h : InRecovery s) (c v : Nat) : InRecovery (holdMsix c v none s) := by
  unfold holdMsix setPbaBit
  have hcount := inRecovery_doIf h (!(s.heldOf c).getLsbD v) fun s h => inRecovery_inc h (f := Fld.EV_PME_HELD) 1 (by decide)
  refine inRecovery_signalPme ?_ c
  dsimp only
  exact inRecovery_same hcount rfl rfl

/-- A link in Recovery is not in L1. -/
theorem leaveL1_of_inRecovery {s : State} (h : InRecovery s) : leaveL1 s = s := by
  rw [leaveL1, if_neg (by rw [h.lstate]; decide)]

theorem inRecovery_trigger {s : State} (h : InRecovery s) (c v : Nat) : InRecovery (trigger c v none s) := by
  unfold trigger
  split
  · exact inRecovery_inc h 1 (by decide)
  · split
    · exact inRecovery_inc h 1 (by decide)
    · split
      · exact inRecovery_inc h 1 (by decide)
      · split
        · exact inRecovery_holdMsix h c v
        · split
          · exact inRecovery_same h rfl rfl
          · split
            · exact inRecovery_same h rfl rfl
            · simp only [leaveL1_of_inRecovery h, countCqEvt, sendMsix]
              split
              · exact h
              · exact inRecovery_same h rfl rfl

theorem inRecovery_ctxEvent {s : State} (h : InRecovery s) (b : Nat) : InRecovery (ctxEvent 0 b s) := by
  unfold ctxEvent
  dsimp only
  split
  · exact h
  · exact inRecovery_doIf (inRecovery_set h _ (by decide) (by decide)) _ fun _ h => inRecovery_trigger h 0 _

theorem inRecovery_raiseEdge {s : State} (h : InRecovery s) (n : Nat) : InRecovery (raiseEdge n s) := by
  refine inRecovery_same h (regsOnly_word (regsOnly_edge n s) ?_) (congrArg Hl.recClear (raiseEdge_hl n s))
  simp only [edgeRegs, Adr.IC_PEND, List.mem_cons, List.not_mem_nil, or_false, not_or]
  refine ⟨?_, by decide, by decide, by decide⟩
  simp only [Fld.HL_LINK_STATUS_LSTATE]
  omega

/-- A source raised in Recovery does not end it. -/
theorem inRecovery_raise {s : State} (h : InRecovery s) (n : Nat) : InRecovery (raise n s) := by
  have hattn (f : Field) (hf : f.Apart Fld.HL_LINK_STATUS_LSTATE) (hr : f.Apart Fld.HL_LINK_STATUS_IN_RECOVERY) (s : State)
      (h : InRecovery s) : InRecovery (bcAttn f s) := inRecovery_set h 1 hf hr
  unfold raise
  refine inRecovery_doIf (inRecovery_doIf (inRecovery_doIf (inRecovery_doIf (inRecovery_doIf (inRecovery_raiseEdge h n) _ ?mode) _ ?store) _ ?link)
    _ ?therm) _ ?pel
  case mode => exact fun s h => hattn _ (by decide) (by decide) _ (inRecovery_ctxEvent h 5)
  case store => exact fun s h => hattn _ (by decide) (by decide) _ (inRecovery_ctxEvent h 6)
  case link => exact fun s h => inRecovery_ctxEvent h 7
  case therm => exact hattn _ (by decide) (by decide)
  case pel => exact hattn _ (by decide) (by decide)

theorem inRecovery_leftLow {s : State} (h : InRecovery s) (low : Bool) : InRecovery (leftLow low s) := by
  unfold leftLow
  refine inRecovery_doIf (inRecovery_doIf h _ fun s h => ?_) _ fun s h => inRecovery_raise h 24
  exact inRecovery_raise (inRecovery_same (t := s.hlUpd _) h rfl rfl) 24

theorem inRecovery_setLink {s : State} (h : InRecovery s) (w v : Nat) : InRecovery (setLink w v s) := by
  unfold setLink updC0Short
  refine inRecovery_doIf (inRecovery_set ?_ _ (by decide) (by decide)) _ fun s h => inRecovery_raise h 36
  exact inRecovery_set (inRecovery_set (inRecovery_set h _ (by decide) (by decide)) _ (by decide) (by decide)) _ (by decide) (by decide)

theorem inRecovery_leaveL0 (s : State) : InRecovery (leaveL0 (s.set Fld.HL_LINK_STATUS_LSTATE 3)) := by
  refine ⟨?_, ?_, by rw [leaveL0_eq, hlUpd_hl]⟩
  · rw [leaveL0_get _ (by decide), get_set_same _ _ _ (by decide)]
    rfl
  · rw [leaveL0_eq, hlUpd_get, get_set_same _ _ _ (by decide)]
    rfl

theorem inRecovery_hlRetrain {s : State} (h : s.isSet Fld.HL_LINK_STATUS_DL_UP = true) : InRecovery (hlRetrain s) := by
  unfold hlRetrain
  rw [if_pos h]
  refine inRecovery_setLink (inRecovery_set ?_ _ (by decide) (by decide)) _ _
  refine inRecovery_doIf (inRecovery_doIf (inRecovery_raise ?_ 22) _ fun s h => inRecovery_raise h 20) _ fun s h => inRecovery_raise h 21
  refine inRecovery_doAll (inRecovery_leftLow (inRecovery_leaveL0 s) _) _ fun c s h => ?_
  exact inRecovery_doIf h _ fun s h => inRecovery_fnUpd h c _

/-! ## L0p and L1 -/

/-- L0p at a narrower width. -/
def l0pNarrowed (w : Nat) (s : State) : State := (setLink w (s.get Fld.HL_LINK_STATUS_SPEED) s).set Fld.HL_LINK_STATUS_LSTATE 2

theorem l0pTo_narrower {w : Nat} {s : State} (hw : w < s.get Fld.HL_LINK_STATUS_WIDTH)
    (htrained : s.get Fld.HL_LINK_STATUS_WIDTH ≤ s.get Fld.HL_LINK_STATUS_TRAINED_WIDTH) : l0pTo w s = raise 23 (l0pNarrowed w s) := by
  rw [l0pTo, if_pos (Nat.lt_of_lt_of_le hw htrained), bne_iff_ne.mpr (Nat.ne_of_lt hw), doIf_true, l0pNarrowed]

theorem exec_l0pRequest (width : Fin 17) (ok : Bool) (s : State) : exec (.l0pRequest width ok) s = execL0pRequest width ok s := rfl

theorem exec_l1EntryRequest (ok : Bool) (s : State) : exec (.l1EntryRequest ok) s = execL1EntryRequest ok s := rfl

theorem l1Request_of_l0 {s : State} (h : s.get Fld.HL_LINK_STATUS_LSTATE = 1) (ok : Bool) : l1Request ok s =
    doIf ok (fun s => enterL1 (s.pwrUpd fun p => { p with outSeen := s.out.length })) (emit (.pcie 0 "L1 request" 0) s) := by
  rw [l1Request, if_pos (.inl h)]

/-! ## The statement -/

/-- Settles O18: each row by its equation; RETRAIN by what Recovery keeps. -/
theorem tagsTranslationsAndLinkPower : Obligations.TagsTranslationsAndLinkPower := by
  unfold Obligations.TagsTranslationsAndLinkPower
  refine ⟨?unexpected, ?ends, ?poisoned, ?late, ?noTimeout, ?timeout, ?notYet, ?unasked, ?denied, ?filled, ?inval, ?names, ?waits, ?completes,
    ?flush, ?retrain, ?l0p, ?narrowed, ?l1, ?ltr, ?release⟩
  case unexpected =>
    intro c tag st data s h hnone
    rw [exec_deviceRequestCompletion_hostOpen h, completion_none (s := hostNoted s) hnone]
    rfl
  case ends =>
    intro c tag st data u s h hfind hq hpoison huse
    rw [exec_deviceRequestCompletion_hostOpen h, completion_ends (s := hostNoted s) hfind hq huse, beq_eq_false_iff_ne.mpr hpoison, doIf_false]
  case poisoned =>
    intro c tag data u s h hfind hq
    rw [exec_deviceRequestCompletion_hostOpen h, completion_ends (s := hostNoted s) hfind hq (.inl (by decide))]
    rfl
  case late =>
    intro c tag st data u s h hfind hq
    refine ⟨_, exec_deviceRequestCompletion_hostOpen h c tag st data, ?_⟩
    rw [completion_late (s := hostNoted s) hfind hq]
    exact (congrArg Hl.tags (unexpected_hl _ _)).trans (freeTags_tags _ _)
  case noTimeout => exact fun c tag s h => exec_deviceRequestTimeout_none h
  case timeout =>
    intro c tag u n s hfind hcto hn hq
    rw [exec_deviceRequestTimeout_some hfind, timeoutOf, if_neg (by rw [hq, tagTimedOut_of_cto hcto hn]; decide)]
  case notYet =>
    intro c tag u s hfind hno
    have hstay : u.2.quarantined = true ∨ ¬ tagTimedOut s u.2 = true := hno.symm.imp id fun h => by rw [h]; decide
    rw [exec_deviceRequestTimeout_some hfind, timeoutOf, if_pos hstay]
  case unasked =>
    intro c iova ta log2 r w u n g s h hnone
    rw [exec_atsTranslationCompletion_hostOpen h, translated_none (s := hostNoted s) hnone]
    rfl
  case denied =>
    intro c iova ta log2 u n g t page x who s h hfind hq huse
    rw [exec_atsTranslationCompletion_hostOpen h, translated_denied (s := hostNoted s) hfind hq huse]
  case filled =>
    intro c iova ta log2 r w u n g t x s h hfind hq hrw
    refine ⟨_, exec_atsTranslationCompletion_hostOpen h c iova ta log2 r w u n g, ?_⟩
    rw [translated_filled (s := hostNoted s) hfind hq hrw]
    refine ⟨?_, atsFill_last _ _ _ _ _ _ _ _ _ _, fun hempty => get_valid_atsFill_of_empty ?_ _ _ _ _ _ _ _ _ _⟩
    · rw [atsFill_tags, freeTags_tags]
      rfl
    · rw [freeTags_hl]
      exact hempty
  case inval =>
    intro c iova log2 itag s h hfull
    refine ⟨_, exec_atsInvalidationRequest_hostOpen h hfull c iova log2 itag, ?_⟩
    have hhl := raise_plain_hl (n := 32) (by decide) (atsDiscard (invalNames c iova log2) (invalNoted c iova log2 itag (hostNoted s)))
    rw [atsInvalidate_eq]
    exact ⟨(congrArg Hl.inval hhl).trans (atsDiscard_inval _ _), (congrArg Hl.ats hhl).trans (atsDiscard_ats _ _)⟩
  case names => exact invalNames_iff
  case waits =>
    intro itag e s hfind huse hsince
    rw [exec_atsInvalidationComplete, execAtsInvalidationComplete_some hfind, if_pos ⟨huse, hsince⟩]
  case completes =>
    intro itag e s hfind hdone
    have hnot : ¬ (invalInUse s e = true ∧ s.since e.since < 4000) := by
      rintro ⟨huse, hlt⟩
      obtain hno | hge := hdone
      · rw [hno] at huse
        exact Bool.noConfusion huse
      · exact absurd hlt (Nat.not_lt.mpr hge)
    rw [exec_atsInvalidationComplete, execAtsInvalidationComplete_some hfind, if_neg hnot, invalDone]
  case flush =>
    intro s
    have hats : (atsFlush s).hl.ats = [] := by
      rw [atsFlush, atsDiscard_ats]
      exact List.filter_eq_nil_iff.mpr (by simp)
    refine ⟨atsFlush s, rfl, hats, ?_, atsDiscard_tags _ s⟩
    rw [atsFlush, get_valid_atsDiscard, ← atsFlush, hats]
    rfl
  case retrain =>
    intro s h
    obtain ⟨hl, hr, hc⟩ := inRecovery_hlRetrain h
    exact ⟨_, rfl, hl, hr, hc⟩
  case l0p =>
    intro width ok s hflit hen hstate hmem hlt hmin hc0 huse
    rw [exec_l0pRequest, execL0pRequest, if_pos ⟨hflit, hen, hstate, hmem, hlt, hmin, hc0, huse⟩, done]
  case narrowed =>
    intro width s hlt htrained hrest
    have hwidth : width.val ≤ 16 := Nat.le_of_lt_succ width.isLt
    rw [l0pTo_narrower hlt htrained]
    refine ⟨?_, ?_, isPending_raise_plain (by decide) (by decide) ?_⟩
    · rw [raise_plain (by decide), get_raiseEdge _ _ (by decide), l0pNarrowed, get_set_same _ _ _ (by decide)]
      rfl
    · rw [raise_plain (by decide), get_raiseEdge _ _ (by decide), l0pNarrowed, get_set_apart _ _ _ _ (by decide), get_width_setLink _ hwidth]
    · rw [State.inRest, l0pNarrowed, get_set_apart _ _ _ _ (by decide), get_setLink _ (by decide) (by decide) (by decide) (by decide)]
      exact hrest
  case l1 =>
    intro ok s haspm hup htags hidle hsince hc0 hstate
    rw [exec_l1EntryRequest, execL1EntryRequest, if_pos ⟨haspm, hup, htags, hidle, hsince, .inl hc0⟩, l1Request_of_l0 hstate, done]
  case ltr =>
    intro s
    change execLtrSend s = _
    rw [execLtrSend, ltrSend, done, Bool.toNat_true, Nat.one_mul]
  case release =>
    intro c tag u s hfind hq hretired htimed
    have hrow : execTagQuarantineRelease c tag false s = .next (freeTags (tagIs c u.1) s) := by
      simp [execTagQuarantineRelease, hfind, hq, hretired, htimed, done]
    exact ⟨_, hrow, freeTags_tags _ s, freeTags_out _ s⟩

end Sys2Proof.Machine
end

section

/-! A posted write to BAR2 that leaves more than an item (O17). A C0 request beyond the eighth outstanding is demoted and raises
CAD_C0_DEMOTED (source 260); where PFS_MATCH names that source and PFS_CTL.PEL is 1, the edge broadcasts a PHOTO cell on the ACTIVE
links, so that the row sends something. -/

namespace Sys2Proof.Machine

/-- In SERVING with the host link up: window 0 of the physical function carries C0 and eight C0 requests of it are outstanding, link 0 is
ACTIVE, and the demotion's source is matched for a photo-finish of the peloton. -/
def demotionMatched : State :=
  State.reset |>.set Fld.DEV_MODE_MODE 2 |>.set Fld.HL_LINK_STATUS_DL_UP 1 |>.set Fld.HL_LINK_STATUS_LSTATE 1
    |>.set (Fld.CTX_STATE_STATE 0) 3 |>.set (Fld.CTX_SHARE0_W_C0_DN 0) 1 |>.ctxUpd 0 (fun x => { x with c0out := 8 })
    |>.set (Fld.WIN_CTL_EN 0 0) 1 |>.set (Fld.WIN_ATTR_CLASS 0 0) 0 |>.set (Fld.UL_STATUS_STATE 0) 3
    |>.set Fld.PFS_CTL_MATCH_EN 1 |>.set Fld.PFS_CTL_PEL 1 |>.set Fld.PFS_MATCH_SOURCE 260

theorem demotionMatched_hostOpen : HostOpen demotionMatched ∧ demotionMatched.ds.full = false := by decide +kernel

/-- A write of one byte at the start of BAR2 passes every check. -/
theorem demotionMatched_passes :
    outsideBar demotionMatched 0 0 1 (demotionMatched.bar2 0) = false ∧ hostStateRefuses demotionMatched 0 = none ∧
      checkBar2 demotionMatched 0 0 1 true = (.pass, 0) ∧ demotionMatched.wseq 0 < 2 ^ 64 - 1 := by
  decide +kernel

/-- The write sends the blocks of the PHOTO cell and the cell. -/
theorem demotionMatched_sends : (hostWriteBar2 0 0 [0] (hostNoted demotionMatched)).out.length = 2 := by decide +kernel

theorem exec_hostWriteBar2_hostOpen {s : State} (h : HostOpen s) (hfull : s.ds.full = false) (c : Fin 1024) (off : BitVec 34)
    (data : List Byte) : exec (.hostWriteBar2 c off data) s = .next (hostWriteBar2 c off.toNat data (hostNoted s)) :=
  congrArg done (hostPosted_of_hostOpen h hfull _ _ _)

/-- Refutes O17: a posted write to BAR2 that is demoted, with its source matched, sends a PHOTO cell, so that what was sent is not as it
was. -/
theorem not_hostRequestsAndFlr : ¬ Obligations.HostRequestsAndFlr := by
  unfold Obligations.HostRequestsAndFlr
  intro h
  obtain ⟨-, -, -, -, -, -, -, -, hwrite, -⟩ := h
  obtain ⟨hopen, hfull⟩ := demotionMatched_hostOpen
  obtain ⟨hbar, hstate, hcheck, hseq⟩ := demotionMatched_passes
  obtain ⟨t, ht, -, -, hout⟩ := hwrite 0 0 [0] 0 demotionMatched hopen hfull hbar hstate hcheck hseq
  rw [exec_hostWriteBar2_hostOpen hopen hfull] at ht
  injection ht with ht
  have hlen : t.out.length = 2 := ht ▸ demotionMatched_sends
  rw [hout] at hlen
  exact absurd hlen (by decide +kernel)

end Sys2Proof.Machine
end

section

/-! The state of a context (05 Table 05-2) under what ends its work. CTX_STATE.STATE is written where the context takes a state; the
descriptors that end, the entries written, the requests abandoned and the registers cleared leave it alone. -/

namespace Sys2Proof.Machine

/-! ## Registers apart from CTX_STATE -/

/-- A field lies in another register than the state of context `c`. -/
abbrev Field.OffState (c : Nat) (f : Field) : Prop := (Fld.CTX_STATE_STATE c).addr ≠ f.addr

/-- The global registers lie below the pages of the contexts. -/
theorem offState_of_low {f : Field} (h : f.addr < 0x100000000) (c : Nat) : f.OffState c := by
  simp only [Field.OffState, Fld.CTX_STATE_STATE]
  omega

theorem cst_of_regs {s t : State} (h : t.regs = s.regs) (c : Nat) : t.cst c = s.cst c := get_of_regs h _

/-- The fields of a context's own registers and of its queue pair `q` that the end of its work writes, those of CTX_STATE apart. -/
def pageFields (c q : Nat) : List Field :=
  [Fld.CTX_CAPS_QP_EN c, Fld.CTX_WDOG_STATUS_REMAIN c, Fld.CTX_OCC_OUTSTANDING c,
   Fld.QP_STATUS_OUTSTANDING c q, Fld.QP_STATUS_QUIESCED c q, Fld.QP_STATUS_CQ_FULL c q, Fld.QP_STATUS_CQ_PHASE c q,
   Fld.QP_PTR_CQ_TAIL c q, Fld.QP_ABORT_TAG_TAG c q, Fld.QP_ABORT_RESULT c q, Fld.QP_CNT_RETRIED c q,
   Fld.CQ_EVT_STATUS_PENDING c q, Fld.CQ_EVT_STATUS_TIMER_RUN c q, Fld.CQ_EVT_STATUS_REMAIN c q, Fld.CQ_EVT_STATUS_HELD c q,
   Fld.CQ_EVT_CNT_SENT c q, Fld.CQ_EVT_CNT_PBA c q]

/-- CTX_STATE lies below them in the context's page. -/
theorem offState_of_mem {f : Field} {c q : Nat} (h : f ∈ pageFields c q) : f.OffState c := by
  have hall : ∀ f ∈ pageFields c q, (Fld.CTX_STATE_STATE c).addr < f.addr := by
    simp only [pageFields, List.forall_mem_cons, Fld.CTX_STATE_STATE, Fld.CTX_CAPS_QP_EN, Fld.CTX_WDOG_STATUS_REMAIN, Fld.CTX_OCC_OUTSTANDING,
      Fld.QP_STATUS_OUTSTANDING, Fld.QP_STATUS_QUIESCED, Fld.QP_STATUS_CQ_FULL, Fld.QP_STATUS_CQ_PHASE, Fld.QP_PTR_CQ_TAIL,
      Fld.QP_ABORT_TAG_TAG, Fld.QP_ABORT_RESULT, Fld.QP_CNT_RETRIED, Fld.CQ_EVT_STATUS_PENDING, Fld.CQ_EVT_STATUS_TIMER_RUN,
      Fld.CQ_EVT_STATUS_REMAIN, Fld.CQ_EVT_STATUS_HELD, Fld.CQ_EVT_CNT_SENT, Fld.CQ_EVT_CNT_PBA,
      List.not_mem_nil, false_implies, implies_true, and_true]
    omega
  exact Nat.ne_of_lt (hall f h)

/-- Every part but the registers. -/
abbrev regsMask : Nat := 0x1FFFFFFFF7

theorem cst_of_keeps {s t : State} (h : Keeps regsMask s t) (c : Nat) : t.cst c = s.cst c := cst_of_regs (h.same .regs rfl) c

theorem cst_ctxUpd (c d : Nat) (f : Ctx → Ctx) (s : State) : (s.ctxUpd d f).cst c = s.cst c := rfl

theorem cst_setWord {a c : Nat} (v : Word) (s : State) (h : (Fld.CTX_STATE_STATE c).addr ≠ a) : (s.setWord a v).cst c = s.cst c :=
  get_setWord_ne v s h

theorem cst_set {f : Field} {c : Nat} (v : Nat) (s : State) (h : f.OffState c) : (s.set f v).cst c = s.cst c := get_setWord_ne _ s h

theorem cst_inc {f : Field} {c : Nat} (n : Nat) (s : State) (h : f.OffState c) : (s.inc f n).cst c = s.cst c := cst_set _ s h

/-- A field of the context's page. -/
theorem cst_set_page {f : Field} {c : Nat} (q v : Nat) (s : State) (h : f ∈ pageFields c q) : (s.set f v).cst c = s.cst c :=
  cst_set v s (offState_of_mem h)

theorem cst_dec {f : Field} {c : Nat} (n : Nat) (s : State) (h : f.OffState c) : (s.dec f n).cst c = s.cst c := cst_set _ s h

/-- A fresh state code. -/
theorem cst_set_state {v : Nat} (c : Nat) (s : State) (h : v < 8) : (s.set (Fld.CTX_STATE_STATE c) v).cst c = v :=
  (get_set_same s _ v ⟨Nat.zero_le 2, show 2 < 32 by decide⟩).trans (Nat.mod_eq_of_lt h)

theorem cst_set_cplDropped (c v : Nat) (s : State) : (s.set (Fld.CTX_STATE_CPL_DROPPED c) v).cst c = s.cst c :=
  get_set_apart s _ _ v (by simp [Field.Apart, Fld.CTX_STATE_CPL_DROPPED, Fld.CTX_STATE_STATE])

theorem cst_updOverDesc (c : Nat) (s : State) : (updOverDesc c s).cst c = s.cst c :=
  get_set_apart s _ _ _ (by simp [Field.Apart, Fld.CTX_STATE_OVER_DESC, Fld.CTX_STATE_STATE])

/-! ## Raised sources and events -/

/-- Raising a source writes neither the blocks from CTX to the Ulirin links nor, of the contexts' pages, any register but the events of the
physical function. -/
theorem notMem_raiseRegs {n a : Nat} (hn : n < 512) (ha : 0x150000 ≤ a ∧ a < 0x700000 ∨ 0x100000000 ≤ a ∧ a ≠ 0x100003404) :
    a ∉ raiseRegs n := by
  simp only [raiseRegs, Adr.IC_PEND, Adr.KS_WAKE_LATCH_LO, Adr.KS_WAKE_LATCH_HI, Fld.PFS_STAT_MISSED, Fld.EV_MSIX_CNT_SENT,
    Fld.EV_DROP_D3COLD, Fld.EV_PME_PME_SENT, Fld.HL_LINK_STATUS_LSTATE, Fld.CTX_EVT_STATUS_EVT, Fld.MBX_BC_ATTN_MODE, List.mem_cons,
    List.not_mem_nil, or_false]
  omega

theorem ctxState_notMem_raiseRegs {n : Nat} (hn : n < 512) (c : Nat) : (Fld.CTX_STATE_STATE c).addr ∉ raiseRegs n := by
  refine notMem_raiseRegs hn (Or.inr ?_)
  simp only [Fld.CTX_STATE_STATE]
  omega

theorem cst_raise {n : Nat} (hn : n < 512) (c : Nat) (s : State) : (raise n s).cst c = s.cst c :=
  get_raise n s _ (ctxState_notMem_raiseRegs hn c)

theorem cst_leaveL1 (c : Nat) (s : State) : (leaveL1 s).cst c = s.cst c :=
  regsOnly_get (regsOnly_leaveL1 0 (regsOnly_refl _ s)) (ctxState_notMem_raiseRegs (by decide) c)

theorem cst_signalPme (c d : Nat) (s : State) : (signalPme d s).cst c = s.cst c :=
  regsOnly_get (regsOnly_signalPme 0 d (regsOnly_refl _ s)) (ctxState_notMem_raiseRegs (by decide) c)

/-! ## The coalescing group of a queue pair -/

theorem cst_countCqEvt {c : Nat} {f : Nat → Nat → Field} (hf : ∀ q, f c q ∈ pageFields c q) (q : Option Nat) (s : State) :
    (countCqEvt c q f s).cst c = s.cst c := by
  cases q with
  | none => rfl
  | some q => exact cst_inc 1 s (offState_of_mem (hf q))

theorem cst_holdMsix (c v : Nat) (q : Option Nat) (s : State) : (holdMsix c v q s).cst c = s.cst c := by
  have hcount : (doIf (!(s.heldOf c).getLsbD v) (·.inc Fld.EV_PME_HELD 1) s).cst c = s.cst c :=
    doIf_same (State.cst · c) _ s fun s => cst_inc 1 s (offState_of_low (by decide) c)
  unfold holdMsix
  dsimp only
  rw [cst_signalPme]
  cases q with
  | none => exact hcount
  | some q =>
    dsimp only
    rw [cst_set_page q _ _ (by simp [pageFields])]
    exact hcount

theorem cst_trigger (c v : Nat) (q : Option Nat) (s : State) : (trigger c v q s).cst c = s.cst c := by
  have hpba (s : State) : (countCqEvt c q Fld.CQ_EVT_CNT_PBA s).cst c = s.cst c := cst_countCqEvt (by simp [pageFields]) q s
  have hsent (s : State) : (countCqEvt c q Fld.CQ_EVT_CNT_SENT s).cst c = s.cst c := cst_countCqEvt (by simp [pageFields]) q s
  have hsend (s : State) : (sendMsix c v q s).cst c = s.cst c := by
    unfold sendMsix
    split <;> rfl
  have hdrop (f : Field) (hf : f.addr < 0x100000000) : (s.inc f 1).cst c = s.cst c := cst_inc 1 s (offState_of_low hf c)
  unfold trigger
  split
  · exact hdrop _ (by decide)
  split
  · exact hdrop _ (by decide)
  split
  · exact hdrop _ (by decide)
  split
  · exact (cst_holdMsix c v q _).trans (hpba s)
  split
  · rfl
  split
  · exact hpba (setPbaBit c v s)
  · exact (hsent _).trans ((hsend _).trans (cst_leaveL1 c s))

theorem cst_cqTrigger (c q : Nat) (s : State) : (cqTrigger c q s).cst c = s.cst c := by
  simp only [cqTrigger]
  rw [cst_trigger, cst_set_page q _ _ (by simp [pageFields]), cst_set_page q _ _ (by simp [pageFields]),
    cst_set_page q _ _ (by simp [pageFields])]

theorem cst_coalesce (c q : Nat) (s : State) : (coalesce c q s).cst c = s.cst c := by
  have hreach (t : State) : (if t.get (Fld.CQ_EVT_CFG_COUNT c q) ≤ t.get (Fld.CQ_EVT_STATUS_PENDING c q) then cqTrigger c q t
      else t).cst c = t.cst c := by
    split
    · exact cst_cqTrigger c q t
    · rfl
  unfold coalesce
  split
  · rfl
  · refine (hreach _).trans ((doIf_same (State.cst · c) _ _ fun s => ?_).trans (cst_inc 1 s (offState_of_mem (q := q) (by simp [pageFields]))))
    rw [cst_set_page q _ _ (by simp [pageFields]), cst_set_page q _ _ (by simp [pageFields])]

theorem cst_cqClear (c q : Nat) (s : State) : (cqClear c q s).cst c = s.cst c := by
  have hcfg : (Fld.CTX_STATE_STATE c).addr ≠ Adr.CQ_EVT_CFG c q := by
    simp only [Fld.CTX_STATE_STATE, Adr.CQ_EVT_CFG]
    omega
  have hstatus : (Fld.CQ_EVT_STATUS_PENDING c q).OffState c := offState_of_mem (q := q) (by simp [pageFields])
  exact (cst_setWord _ _ hstatus).trans (cst_setWord _ _ hcfg)

/-! ## A queue pair's registers and its descriptors -/

theorem cst_qpUpd (c q : Nat) (f : Qp → Qp) (s : State) : (s.qpUpd c q f).cst c = s.cst c := by
  unfold State.qpUpd
  dsimp only
  rw [cst_updOverDesc, cst_set_page q _ _ (by simp [pageFields]), cst_set_page q _ _ (by simp [pageFields]),
    cst_set_page q _ _ (by simp [pageFields])]
  rfl

theorem cst_countRetry (c st : Nat) (s : State) : (countRetry st s).cst c = s.cst c := by
  have hstep (b : Bool) (f : Field) (hf : f.addr < 0x100000000) (t : State) : (doIf b (·.inc f 1) t).cst c = t.cst c :=
    doIf_same (State.cst · c) b t fun s => cst_inc 1 s (offState_of_low hf c)
  simp only [countRetry]
  rw [hstep _ _ (by decide), hstep _ _ (by decide), hstep _ _ (by decide)]

theorem cst_finish (c q : Nat) (d : Desc) (st detail bytes : Nat) (s : State) : (finish c q d st detail bytes s).cst c = s.cst c := by
  unfold finish
  dsimp only
  rw [cst_countRetry, cst_qpUpd]
  split <;> rfl

theorem cst_cancelDesc (c : Nat) (k : DKey) (s : State) : (cancelDesc k s).cst c = s.cst c :=
  cst_of_keeps (keeps_cancelDesc k rfl (keeps_refl _ s)) c

theorem cst_endUnstarted (c q st : Nat) (s : State) : (endUnstarted c q st s).cst c = s.cst c :=
  doAll_same (State.cst · c) _ s fun d s => (cst_finish c q d st 0 0 _).trans (cst_cancelDesc c _ s)

theorem cst_qpClear {c : Nat} (hc : c < 1024) (q : Nat) (s : State) : (qpClear c q s).cst c = s.cst c := by
  have hcaps (s : State) : (s.dec (Fld.CTX_CAPS_QP_EN c) 1 |>.dec Fld.CTX_POOL_QP_ENABLED 1).cst c = s.cst c :=
    (cst_dec 1 _ (offState_of_low (by decide) c)).trans (cst_dec 1 s (offState_of_mem (q := q) (by simp [pageFields])))
  have hqp (o : Nat) (v : Word) (s : State) : (s.setWord (Adr.QP_SQ_BASE_LO c q + o) v).cst c = s.cst c := by
    refine cst_setWord v s ?_
    simp only [Fld.CTX_STATE_STATE, Adr.QP_SQ_BASE_LO]
    omega
  have hrxb (o : Nat) (v : Word) (s : State) : (s.setWord (Adr.MSG_RXB_BASE_LO c q + o) v).cst c = s.cst c := by
    refine cst_setWord v s ?_
    simp only [Fld.CTX_STATE_STATE, Adr.MSG_RXB_BASE_LO]
    omega
  unfold qpClear
  rw [cst_cqClear, doAll_same (State.cst · c) _ _ fun o s => hrxb o _ s, doAll_same (State.cst · c) _ _ fun o s => hqp o _ s, cst_qpUpd]
  exact doIf_same (State.cst · c) _ s hcaps

/-! ## Completion entries -/

theorem cst_updCqFull (c q : Nat) (s : State) : (updCqFull c q s).cst c = s.cst c := by
  have hset (v : Nat) : (s.set (Fld.QP_STATUS_CQ_FULL c q) v).cst c = s.cst c :=
    cst_set_page q v s (by simp [pageFields])
  unfold updCqFull
  split
  · split
    · rfl
    · exact (cst_raise (by decide) c _).trans ((cst_inc 1 _ (offState_of_low (by decide) c)).trans (hset 1))
  · exact hset 0

theorem cst_cqAdvance (c q : Nat) (s : State) : (cqAdvance c q s).cst c = s.cst c := by
  have hphase (b : Bool) (s : State) : (doIf b (fun s => s.set (Fld.QP_STATUS_CQ_PHASE c q) (1 - s.get (Fld.QP_STATUS_CQ_PHASE c q))) s).cst c =
      s.cst c := doIf_same (State.cst · c) b s fun s => cst_set_page q _ s (by simp [pageFields])
  simp only [cqAdvance]
  rw [hphase, cst_set_page q _ _ (by simp [pageFields])]

theorem cst_wdogReload (c : Nat) (s : State) : (wdogReload c s).cst c = s.cst c :=
  cst_set_page 0 _ s (by simp [pageFields])

theorem cst_writeEntry (c q : Nat) (e : Cpl) (data : List Byte) (s : State) : (writeEntry c q e data s).cst c = s.cst c := by
  have hcount (b : Bool) (s : State) : (doIf b (·.inc (Fld.QP_CNT_RETRIED c q) 1) s).cst c = s.cst c :=
    doIf_same (State.cst · c) b s fun s => cst_inc 1 s (offState_of_mem (q := q) (by simp [pageFields]))
  simp only [writeEntry]
  rw [cst_updCqFull, doIf_same (State.cst · c) _ _ (cst_coalesce c q), doIf_same (State.cst · c) _ _ (cst_wdogReload c),
    hcount, cst_cqAdvance]
  exact cst_of_keeps (keeps_hostWriteOut c _ data false false rfl (keeps_refl _ s)) c

theorem cst_updTags (c : Nat) (s : State) : (updTags s).cst c = s.cst c := by
  have hset (f : Field) (v : Nat) (hf : f.addr < 0x100000000) (s : State) : (s.set f v).cst c = s.cst c :=
    cst_set v s (offState_of_low hf c)
  simp only [updTags, State.peak]
  split
  · rw [hset _ _ (by decide), hset _ _ (by decide)]
  · rw [hset _ _ (by decide)]

theorem cst_hostWay (who : AtsFor) (c d addr n : Nat) (wr : Bool) (s : State) : (hostWay who d addr n wr s).1.cst c = s.cst c := by
  have hask (a : Nat) : (atsAsk who d a s).cst c = s.cst c := by
    unfold atsAsk
    split
    · rfl
    split
    · exact cst_raise (by decide) c s
    · exact cst_updTags c _
  unfold hostWay
  split
  · rfl
  split
  · rfl
  split
  · rfl
  · exact hask _

theorem cst_flushEntries (c q : Nat) (es : List Cpl) (s : State) : (flushEntries c q es s).cst c = s.cst c := by
  induction es generalizing s with
  | nil => rfl
  | cons e es ih =>
    unfold flushEntries
    split
    · exact cst_set_cplDropped c 1 s
    · have hway := cst_hostWay (.entry c) c c (cqSlotAddr s c q (s.get (Fld.QP_PTR_CQ_TAIL c q))) 16 true s
      split
      case h_1 heq =>
        rw [heq] at hway
        exact (ih _).trans ((cst_writeEntry c q e _ _).trans hway)
      case h_2 heq =>
        rw [heq] at hway
        exact (cst_set_cplDropped c 1 _).trans hway

/-! ## The squash -/

theorem cst_squashQp (c q : Nat) (o : CtxOp) (s : State) : (squashQp c q o s).cst c = s.cst c := by
  have hdrop (b : Bool) (s : State) : (doIf b (·.set (Fld.CTX_STATE_CPL_DROPPED c) 1) s).cst c = s.cst c :=
    doIf_same (State.cst · c) b s (cst_set_cplDropped c 1)
  have hend (d : Desc) (s : State) : (cancelDesc (keyOf c q d) s |> finish c q d stReset 0 d.bytes).cst c = s.cst c :=
    (cst_finish c q d _ _ _ _).trans (cst_cancelDesc c _ s)
  unfold squashQp
  dsimp only
  split
  · rw [cst_flushEntries, doAll_same (State.cst · c) _ _ hend, cst_qpUpd, hdrop]
  · rw [hdrop, doAll_same (State.cst · c) _ _ hend, cst_qpUpd, hdrop]

theorem cst_abandonCtx (c : Nat) (cpl : Bool) (s : State) : (abandonCtx c cpl s).cst c = s.cst c := by
  have hups (i : Item) (s : State) : (upAbandoned c i s).cst c = s.cst c := cst_of_keeps (keeps_upAbandoned c i rfl (keeps_refl _ s)) c
  have hreads (s : State) : (dropHreads c cpl s).cst c = s.cst c := cst_of_keeps (keeps_dropHreads c cpl rfl (keeps_refl _ s)) c
  have hlinks (f : Ul → Ul) (s : State) : (doAll [0, 1, 2, 3] (fun k s => s.linkUpd k f) s).cst c = s.cst c :=
    doAll_same (State.cst · c) _ s fun _ _ => rfl
  have hports (l : Nat → State → List UpRead) (f : Lb → Lb) (s : State) :
      (doAll [0, 1, 2, 3] (fun p s => (doAll (l p s) (fun u => respOut p u.tag 3 []) s).lbUpd p f) s).cst c = s.cst c :=
    doAll_same (State.cst · c) _ s fun p s => doAll_same (State.cst · c) (l p s) s fun _ _ => rfl
  unfold abandonCtx
  dsimp only
  rw [cst_updTags, hreads, hlinks, hports]
  exact doAll_same (State.cst · c) _ s hups

/-- An address outside a cleared range keeps its word. -/
theorem word_resetRange {lo n a : Nat} (s : State) (h : a < lo ∨ lo + n ≤ a) : (resetRange lo n s).word a = s.word a :=
  tabGet_tabKeep resetOf (fun a => decide (a < lo ∨ lo + n ≤ a)) s.regs (decide_eq_true h)

theorem cst_resetRange {lo n c : Nat} (s : State) (h : (Fld.CTX_STATE_STATE c).addr < lo) : (resetRange lo n s).cst c = s.cst c := by
  unfold State.cst State.get
  rw [word_resetRange s (Or.inl h)]

theorem cst_atsDiscard (c : Nat) (p : AtsEntry → Bool) (s : State) : (atsDiscard p s).cst c = s.cst c := by
  unfold atsDiscard
  dsimp only
  rw [cst_set _ _ (offState_of_low (by decide) c)]
  exact doAll_same (State.cst · c) _ _ fun _ _ => rfl

theorem cst_srbDrop {p : Nat} (hp : p < 4) (c e : Nat) (s : State) : (srbDrop p e s).cst c = s.cst c := by
  have hentry : (Fld.CTX_STATE_STATE c).addr ≠ Adr.LB_SRB0 p e := by
    simp only [Fld.CTX_STATE_STATE, Adr.LB_SRB0]
    omega
  have hcount : (Fld.LB_SRB_CNT_DROPPED p).OffState c := offState_of_low (by simp only [Fld.LB_SRB_CNT_DROPPED]; omega) c
  exact (cst_raise (by omega) c _).trans ((cst_inc 1 _ hcount).trans (cst_setWord _ _ hentry))

theorem cst_dropWindowBuffers (c d : Nat) (w : Option Nat) (s : State) : (dropWindowBuffers d w s).cst c = s.cst c := by
  have hport {p : Nat} (hp : p < 4) (f : Lb → Lb) (x : Stranded → Bool) (s : State) : (srbDropAll p x (s.lbUpd p f)).cst c = s.cst c :=
    doAll_same (State.cst · c) _ _ (cst_srbDrop hp c)
  unfold dropWindowBuffers
  dsimp only [doAll, List.foldl]
  rw [hport (by decide), hport (by decide), hport (by decide), hport (by decide)]

theorem cst_dropHeld (c d : Nat) (s : State) : (dropHeld d s).cst c = s.cst c := cst_dec _ s (offState_of_low (by decide) c)

theorem cst_ctxClear {c : Nat} (hc : c < 1024) (s : State) : (ctxClear c s).cst c = s.cst c := by
  have hviol : (Fld.CTX_STATE_STATE c).addr < Adr.CTX_VIOL_CFG c := by
    simp only [Fld.CTX_STATE_STATE, Adr.CTX_VIOL_CFG]
    omega
  have hpwe : (Fld.CTX_STATE_STATE c).addr < Adr.CTX_PWE_BASE_LO c := by
    simp only [Fld.CTX_STATE_STATE, Adr.CTX_PWE_BASE_LO]
    omega
  have hreload (b : Bool) (s : State) : (doIf b (wdogReload c) s).cst c = s.cst c := doIf_same (State.cst · c) b s (cst_wdogReload c)
  have hmsix (p : Nat × Nat × Option Nat → Bool) (v : BitVec 64) (s : State) :
      ((msixLose p (msixClear c s)).setPba c v).cst c = s.cst c := rfl
  unfold ctxClear
  rw [cst_ctxUpd, hreload, cst_dropWindowBuffers, cst_atsDiscard, cst_resetRange _ hpwe, cst_resetRange _ hviol, cst_dropHeld, hmsix]
  exact doAll_same (State.cst · c) _ s fun q s => cst_qpClear hc q s

theorem cst_squash {c : Nat} (hc : c < 1024) (o : CtxOp) (s : State) : (squash c o s).cst c = 5 := by
  simp only [squash]
  rw [cst_ctxClear hc, cst_abandonCtx, doAll_same (State.cst · c) _ _ fun q s => cst_squashQp c q o s, cst_ctxUpd,
    cst_set_state c s (by decide)]

end Sys2Proof.Machine
end

section

/-! A context's reset, destroy and drain at the boundary (05 R105, R116 to R118, R128) and its watchdog (05 R114, R122). -/

namespace Sys2Proof.Machine

/-! ## What waits for the boundary -/

theorem exec_contextDrainStart_due {c : Fin 1024} {o : CtxOp} {s : State} (h : drainDue s c = some o) :
    exec (.contextDrainStart c) s = .next (atBoundary (.drainStart c) s) := by
  change execContextDrainStart c s = _
  rw [execContextDrainStart, h, Option.isSome_some, doIf_true, done]

theorem exec_squashComplete_squashed {c : Fin 1024} {s : State} (h : s.cst c = 5) :
    exec (.squashComplete c) s = .next (atBoundary (.squashEnd c) s) := by
  change execSquashComplete c s = _
  rw [execSquashComplete, if_pos h, done]

theorem exec_contextSquash_drained {c : Fin 1024} {o : CtxOp} {s : State} (hop : (s.ctx c).op = some o) (hdrain : s.cst c = 4)
    (hend : ctxQuiet s c = true ∨ o.tmo ≤ s.since o.start + 1) :
    exec (.contextSquash c) s = .next (atBoundary (.drainEnd c) s) := by
  change execContextSquash c s = _
  rw [execContextSquash, hop]
  dsimp only
  rw [if_pos ⟨hdrain, hend⟩, done]

theorem exec_contextQuiesce_quiescent {c : Fin 1024} {s : State} (h : quiescent s c = true) :
    exec (.contextQuiesce c) s = .next (atBoundary (.quiesce c) s) := by
  change execContextQuiesce c s = _
  rw [execContextQuiesce, if_pos h, done]

theorem quiescent_iff (s : State) (c : Nat) : quiescent s c = true ↔ s.cst c = 3 ∧ s.get (Fld.CTX_CAPS_QP_EN c) = 0 ∧
    (∀ q ∈ List.range 64, s.isSet (Fld.QP_STATUS_QUIESCED c q) = true) ∧ tagsOf s c = 0 := by
  simp only [quiescent, Bool.and_eq_true, beq_iff_eq, List.all_eq_true, and_assoc]

/-! ## ACTIVE ends -/

theorem quiesce_idle {c : Nat} {s : State} (h : quiescent s c = true) (hqp : 1 ≤ s.qpMax c) (hdesc : 16 ≤ s.descMax c) :
    quiesce c s = s.set (Fld.CTX_STATE_STATE c) 2 := by
  rw [quiesce, if_pos h, if_pos ⟨hqp, hdesc⟩]

theorem quiesce_bare {c : Nat} {s : State} (h : quiescent s c = true) (hnone : s.qpMax c = 0 ∨ s.descMax c < 16) :
    quiesce c s = s.set (Fld.CTX_STATE_STATE c) 1 := by
  rw [quiesce, if_pos h, if_neg (by omega)]

/-! ## The end of a reset or destroy -/

/-- The state a reset or destroy leaves its context in (05 R117). -/
def endState (c : Nat) (o : CtxOp) (s : State) : Nat := if o.absent then 0 else if o.destroy then 1 else if s.cst c = 1 then 1 else 2

/-- The context takes its end state, with the cause of its reset; nothing of it is in progress any more. -/
def ctxEnded (c st cause : Nat) (s : State) : State :=
  s |>.set (Fld.CTX_STATE_STATE c) st |>.set (Fld.CTX_STATE_LAST_CAUSE c) cause |>.inc (Fld.CTX_STATE_RESETS c) 1
    |>.ctxUpd c fun x => { x with op := none }

/-- A bit of a context in a pending bitmap, and the event of the physical function that tells of it (15 R380). -/
def ctxNoted (f : Nat → Field) (c b : Nat) (s : State) : State := ctxEvent 0 b (setCtxBit f c s)

theorem ctxEnd_eq (c : Nat) (o : CtxOp) (s : State) :
    ctxEnd c o s = doAll o.cmds (fun id => cmdDone id 0 (leBytes 6 o.start.toNat ++ leBytes 1 (endState c o s)))
      (ctxNoted Fld.CTX_RESET_PEND_CTX c 1 (ctxEnded c (endState c o s) o.cause (doIf o.destroy (ctxDestroyed c) s))) := rfl

theorem ctxEnd_of_noCmds {o : CtxOp} (h : o.cmds = []) (c : Nat) (s : State) :
    ctxEnd c o s = ctxNoted Fld.CTX_RESET_PEND_CTX c 1 (ctxEnded c (endState c o s) o.cause (doIf o.destroy (ctxDestroyed c) s)) := by
  rw [ctxEnd_eq, h, doAll, List.foldl_nil]

theorem ctxNoted_ctx (f : Nat → Field) (c b d : Nat) (s : State) : (ctxNoted f c b s).ctx d = s.ctx d := by
  have hctxs : (ctxNoted f c b s).ctxs = s.ctxs :=
    (keeps_ctxEvent (w := 0x102002D3AB) 0 b rfl (keeps_refl _ _)).same .ctxs rfl
  unfold State.ctx
  rw [hctxs]

/-- A register that neither the bitmap nor the event is in. -/
theorem get_ctxNoted {f : Nat → Field} {g : Field} (c b : Nat) (s : State) (hraise : g.addr ∉ raiseRegs 0) (hoff : g.addr ≠ (f (c / 32)).addr) :
    (ctxNoted f c b s).get g = s.get g :=
  (regsOnly_get (regsOnly_ctxEvent 0 b (regsOnly_refl _ _)) hraise).trans (get_setWord_ne _ s hoff)

/-- CTX_STATE when a context's bit in CTX_RESET_PEND is set and told. -/
theorem get_ctxNoted_reset {c : Nat} {g : Field} (hg : g.addr = (Fld.CTX_STATE_STATE c).addr) (b : Nat) (s : State) :
    (ctxNoted Fld.CTX_RESET_PEND_CTX c b s).get g = s.get g := by
  refine get_ctxNoted c b s (hg ▸ ctxState_notMem_raiseRegs (by decide) c) ?_
  rw [hg]
  simp only [Fld.CTX_STATE_STATE, Fld.CTX_RESET_PEND_CTX]
  omega

theorem cst_ctxEnded {st : Nat} (hst : st < 8) (c cause : Nat) (s : State) : (ctxEnded c st cause s).cst c = st := by
  have hcause (s : State) : (s.set (Fld.CTX_STATE_LAST_CAUSE c) cause).cst c = s.cst c :=
    get_set_apart s _ _ _ (by simp [Field.Apart, Fld.CTX_STATE_LAST_CAUSE, Fld.CTX_STATE_STATE])
  have hresets (s : State) : (s.inc (Fld.CTX_STATE_RESETS c) 1).cst c = s.cst c :=
    get_inc_apart s _ _ _ (by simp [Field.Apart, Fld.CTX_STATE_RESETS, Fld.CTX_STATE_STATE])
  rw [ctxEnded, cst_ctxUpd, hresets, hcause, cst_set_state c s hst]

theorem get_lastCause_ctxEnded {cause : Nat} (hcause : cause < 16) (c st : Nat) (s : State) :
    (ctxEnded c st cause s).get (Fld.CTX_STATE_LAST_CAUSE c) = cause := by
  have hresets (s : State) : (s.inc (Fld.CTX_STATE_RESETS c) 1).get (Fld.CTX_STATE_LAST_CAUSE c) = s.get (Fld.CTX_STATE_LAST_CAUSE c) :=
    get_inc_apart s _ _ _ (by simp [Field.Apart, Fld.CTX_STATE_RESETS, Fld.CTX_STATE_LAST_CAUSE])
  have hset (s : State) : (s.set (Fld.CTX_STATE_LAST_CAUSE c) cause).get (Fld.CTX_STATE_LAST_CAUSE c) = cause :=
    (get_set_same s _ cause ⟨show 24 ≤ 27 by decide, show 27 < 32 by decide⟩).trans (Nat.mod_eq_of_lt hcause)
  rw [ctxEnded, ctxUpd_get, hresets, hset]

theorem endState_lt (c : Nat) (o : CtxOp) (s : State) : endState c o s < 8 := by
  unfold endState
  split_ifs <;> decide

theorem cst_ctxEnd {o : CtxOp} (h : o.cmds = []) (c : Nat) (s : State) : (ctxEnd c o s).cst c = endState c o s := by
  rw [ctxEnd_of_noCmds h]
  exact (get_ctxNoted_reset rfl 1 _).trans (cst_ctxEnded (endState_lt c o s) c o.cause _)

theorem get_lastCause_ctxEnd {o : CtxOp} (h : o.cmds = []) (hcause : o.cause < 8) (c : Nat) (s : State) :
    (ctxEnd c o s).get (Fld.CTX_STATE_LAST_CAUSE c) = o.cause := by
  have hword : (Fld.CTX_STATE_LAST_CAUSE c).addr = (Fld.CTX_STATE_STATE c).addr := rfl
  rw [ctxEnd_of_noCmds h, get_ctxNoted_reset hword]
  exact get_lastCause_ctxEnded (by omega) c _ _

theorem op_ctxEnd {o : CtxOp} (h : o.cmds = []) (c : Nat) (s : State) : ((ctxEnd c o s).ctx c).op = none := by
  rw [ctxEnd_of_noCmds h, ctxNoted_ctx, ctxEnded, ctxUpd_same]

/-- The squash of a context that is found done ends. -/
theorem squashEnd_done {c : Nat} {o : CtxOp} {l : List Nat} {s : State} (hop : (s.ctx c).op = some o) (hst : s.cst c = 5) (hl : c ∈ l) :
    squashEnd l c s = ctxEnd c o s := by
  rw [squashEnd, hop]
  exact if_pos ⟨hst, Or.inl hl⟩

theorem drainEnd_squash {c : Nat} {o : CtxOp} {s : State} (hop : (s.ctx c).op = some o) (hst : s.cst c = 4)
    (hend : ctxQuiet s c = true ∨ o.tmo ≤ s.since o.start) (hroom : (s.ctxIds.filter fun x => s.cst x == 5).length < 32) :
    drainEnd c s = squash c o s := by
  rw [drainEnd, hop]
  exact if_pos ⟨hst, hend, hroom⟩

/-! ## The start of a drain -/

theorem tandemTell_of_noPartner {c : Nat} {s : State} (h : s.partner c = none) (op : Nat) : tandemTell c op s = s := by
  rw [tandemTell, h]

/-- With no share change waiting, only the marks that none waits are written. -/
theorem shareGone_of_none {c : Nat} {s : State} (hshare : (s.ctx c).share = none) (hpairing : (s.ctx c).pairing = none) :
    shareGone c s = s.ctxUpd c fun y => { y with share := none, pairing := y.pairing.filter fun p => p.op != 1 } := by
  simp only [shareGone, hshare, hpairing]

/-- A queue pair at the start of a drain. -/
def drainQp (c q : Nat) (s : State) : State :=
  s |> endUnstarted c q stReset |>.set (Fld.QP_ABORT_TAG_TAG c q) 0 |>.set (Fld.QP_ABORT_RESULT c q) 0

/-- The context enters DRAIN, with the timeout of its drain. -/
def drainEntered (c : Nat) (o : CtxOp) (s : State) : State :=
  s |>.set (Fld.CTX_STATE_STATE c) 4 |>.ctxUpd c fun x => { x with op := some { o with tmo := s.get Fld.CTX_DRAIN_TMO_TMO } }

theorem drainStart_live {c : Nat} {o : CtxOp} {s : State} (hlive : s.live c = true) (hpartner : s.partner c = none)
    (hshare : (s.ctx c).share = none) (hpairing : (s.ctx c).pairing = none) :
    drainStart c o s = doAll (List.range 64) (drainQp c) (drainEntered c o (shareGone c s)) := by
  have hgone := shareGone_of_none hshare hpairing
  have hst : (shareGone c s).cst c = 2 ∨ (shareGone c s).cst c = 3 := by
    have hcst : (shareGone c s).cst c = s.cst c := by rw [hgone]; rfl
    rw [hcst]
    simpa [State.live] using hlive
  have hp : (shareGone c s).partner c = none := by rw [hgone]; exact hpartner
  unfold drainStart
  dsimp only
  rw [if_neg (by omega), tandemTell_of_noPartner hp, if_neg (by omega)]
  rfl

theorem drainStart_bare {c : Nat} {o : CtxOp} {s : State} (hbare : s.cst c = 1) (hpartner : s.partner c = none)
    (hshare : (s.ctx c).share = none) (hpairing : (s.ctx c).pairing = none) :
    drainStart c o s = ctxEnd c o (ctxClear c (abandonCtx c o.host (shareGone c s))) := by
  have hgone := shareGone_of_none hshare hpairing
  have hst : (shareGone c s).cst c = 1 := by rw [hgone]; exact hbare
  have hp : (shareGone c s).partner c = none := by rw [hgone]; exact hpartner
  unfold drainStart
  dsimp only
  rw [if_neg (by omega), tandemTell_of_noPartner hp, if_pos hst]

theorem cst_drainQp (c q : Nat) (s : State) : (drainQp c q s).cst c = s.cst c := by
  rw [drainQp, cst_set_page q _ _ (by simp [pageFields]), cst_set_page q _ _ (by simp [pageFields]), cst_endUnstarted]

theorem drainQp_ctx (c q d : Nat) (s : State) : (drainQp c q s).ctx d = s.ctx d := by
  have hctxs : (endUnstarted c q stReset s).ctxs = s.ctxs :=
    (keeps_endUnstarted (w := 0x25A800A) c q stReset rfl (keeps_refl _ s)).same .ctxs rfl
  change tabGet _ (endUnstarted c q stReset s).ctxs d = _
  rw [hctxs]
  rfl

theorem cst_drainStart_live {c : Nat} {o : CtxOp} {s : State} (hlive : s.live c = true) (hpartner : s.partner c = none)
    (hshare : (s.ctx c).share = none) (hpairing : (s.ctx c).pairing = none) : (drainStart c o s).cst c = 4 := by
  rw [drainStart_live hlive hpartner hshare hpairing, doAll_same (State.cst · c) _ _ (cst_drainQp c), drainEntered,
    cst_ctxUpd, cst_set_state c _ (by decide)]

theorem op_drainStart_live {c : Nat} {o : CtxOp} {s : State} (hlive : s.live c = true) (hpartner : s.partner c = none)
    (hshare : (s.ctx c).share = none) (hpairing : (s.ctx c).pairing = none) :
    ((drainStart c o s).ctx c).op = some { o with tmo := (shareGone c s).get Fld.CTX_DRAIN_TMO_TMO } := by
  have hqps (s : State) : (doAll (List.range 64) (drainQp c) s).ctx c = s.ctx c :=
    doAll_same (State.ctx · c) _ s fun q s => drainQp_ctx c q c s
  rw [drainStart_live hlive hpartner hshare hpairing, hqps, drainEntered, ctxUpd_same]

/-- A BARE context's reset ends in BARE, whether or not it is a destroy. -/
theorem endState_drainStart_bare {c : Nat} (hc : c < 1024) {o : CtxOp} {s : State} (habsent : o.absent = false) (hbare : s.cst c = 1) :
    endState c o (ctxClear c (abandonCtx c o.host s)) = 1 := by
  rw [endState, cst_ctxClear hc, cst_abandonCtx, hbare, habsent]
  simp

/-! ## The watchdog -/

/-- The watchdog of a context has fired: RUNNING 0 and WDOG_FIRED 1. -/
def wdogFired (c : Nat) (s : State) : State := s |>.set (Fld.CTX_WDOG_STATUS_RUNNING c) 0 |>.set (Fld.CTX_STATE_WDOG_FIRED c) 1

theorem exec_watchdogExpiry_fires {c : Fin 1024} {s : State} (hmode : s.get (Fld.CTX_WDOG_STATUS_MODE c) ≠ 0)
    (hruns : s.isSet (Fld.CTX_WDOG_STATUS_RUNNING c) = true) (hzero : s.get (Fld.CTX_WDOG_STATUS_REMAIN c) = 0) (hlive : s.live c = true)
    (haction : s.isSet (Fld.CTX_WDOG_STATUS_ACTION c) = false) :
    exec (.watchdogExpiry c) s = .next (ctxNoted Fld.CTX_WDOG_PEND_CTX c 2 (wdogFired c s)) := by
  change execWatchdogExpiry c s = _
  rw [execWatchdogExpiry, if_pos ⟨hmode, hruns, hzero, hlive⟩, haction, doIf_false, done, ctxNoted, wdogFired]

/-- The registers of the watchdog and of the state of a context when its bit in CTX_WDOG_PEND is set and told. -/
theorem get_ctxNoted_wdog {c : Nat} {g : Field} (hg : g.addr = (Fld.CTX_STATE_STATE c).addr ∨ g.addr = (Fld.CTX_WDOG_STATUS_MODE c).addr)
    (b : Nat) (s : State) : (ctxNoted Fld.CTX_WDOG_PEND_CTX c b s).get g = s.get g := by
  simp only [Fld.CTX_STATE_STATE, Fld.CTX_WDOG_STATUS_MODE] at hg
  refine get_ctxNoted c b s (notMem_raiseRegs (by decide) (by omega)) ?_
  simp only [Fld.CTX_WDOG_PEND_CTX]
  omega

theorem get_running_wdogFired (c : Nat) (s : State) : (wdogFired c s).get (Fld.CTX_WDOG_STATUS_RUNNING c) = 0 := by
  have hoff : (Fld.CTX_WDOG_STATUS_RUNNING c).addr ≠ (Fld.CTX_STATE_WDOG_FIRED c).addr := by
    simp only [Fld.CTX_WDOG_STATUS_RUNNING, Fld.CTX_STATE_WDOG_FIRED]
    omega
  have hset (s : State) : (s.set (Fld.CTX_WDOG_STATUS_RUNNING c) 0).get (Fld.CTX_WDOG_STATUS_RUNNING c) = 0 :=
    get_set_same s _ 0 ⟨Nat.le_refl 28, show 28 < 32 by decide⟩
  rw [wdogFired]
  exact (get_setWord_ne _ _ hoff).trans (hset s)

theorem get_fired_wdogFired (c : Nat) (s : State) : (wdogFired c s).get (Fld.CTX_STATE_WDOG_FIRED c) = 1 :=
  get_set_same _ _ 1 ⟨Nat.le_refl 31, show 31 < 32 by decide⟩

theorem bitOf_eq_testBit (v b : Nat) : bitOf v b = v.testBit b := by
  rw [bitOf, Nat.testBit_eq_decide_div_mod_eq]
  rfl

theorem bitOf_orBit_word {b : Nat} (v : Nat) (hb : b < 32) : bitOf (orBit v b % 2 ^ 32) b = true := by
  rw [bitOf_eq_testBit, Nat.testBit_mod_two_pow, testBit_orBit_same]
  simpa using hb

/-- The bit of the context in the bitmap is 1. -/
theorem bit_ctxNoted_wdog {c : Nat} (hc : c < 1024) (b : Nat) (s : State) :
    bitOf ((ctxNoted Fld.CTX_WDOG_PEND_CTX c b s).get (Fld.CTX_WDOG_PEND_CTX (c / 32))) (c % 32) = true := by
  have hraise : (Fld.CTX_WDOG_PEND_CTX (c / 32)).addr ∉ raiseRegs 0 := by
    refine notMem_raiseRegs (by decide) (Or.inl ?_)
    simp only [Fld.CTX_WDOG_PEND_CTX]
    omega
  have hset : (setCtxBit Fld.CTX_WDOG_PEND_CTX c s).get (Fld.CTX_WDOG_PEND_CTX (c / 32)) =
      orBit (s.get (Fld.CTX_WDOG_PEND_CTX (c / 32))) (c % 32) % 2 ^ 32 :=
    get_set_same s _ _ ⟨Nat.zero_le 31, show 31 < 32 by decide⟩
  rw [ctxNoted, regsOnly_get (regsOnly_ctxEvent 0 b (regsOnly_refl _ _)) hraise, hset]
  exact bitOf_orBit_word _ (by omega)

theorem wdogFired_ctx (c d : Nat) (s : State) : (wdogFired c s).ctx d = s.ctx d := by
  rw [wdogFired, set_ctx, set_ctx]

/-- A kick in its turn. -/
theorem exec_ctxWdogKickWrite_hostTurn {c : Fin 1024} {s : State} (hturn : HostTurn s c) (hfull : s.ds.full = false) :
    exec (.ctxWdogKickWrite c) s = .next (wdogKicked c (hostNoted s)) := by
  change execCtxWdogKickWrite c s = _
  rw [execCtxWdogKickWrite, hostPosted_of_hostOpen hturn.1 hfull, inOrder_of_hostTurn hturn, done]

theorem wdogKicked_kick {c : Nat} {s : State} (hen : (s.fn c).enabled = true) (hmode : s.get (Fld.CTX_WDOG_STATUS_MODE c) = 1) :
    wdogKicked c s = wdogReload c s := by
  rw [wdogKicked, hen, doIf_true, wdogKick, hmode, beq_self_eq_true, doIf_true]

theorem wdogKicked_other {c : Nat} {s : State} (hmode : s.get (Fld.CTX_WDOG_STATUS_MODE c) ≠ 1) : wdogKicked c s = s := by
  have hkick : wdogKick c s = s := by rw [wdogKick, beq_false_of_ne hmode, doIf_false]
  unfold wdogKicked
  cases (s.fn c).enabled
  · rfl
  · exact hkick

theorem bitsOf_lt (v hi lo : Nat) : bitsOf v hi lo < 2 ^ (hi + 1 - lo) := Nat.mod_lt _ (Nat.two_pow_pos _)

theorem get_remain_wdogReload (c : Nat) (s : State) :
    (wdogReload c s).get (Fld.CTX_WDOG_STATUS_REMAIN c) = s.get (Fld.CTX_SEL_WDOG_PERIOD c) :=
  (get_set_same s _ _ ⟨Nat.zero_le 23, show 23 < 32 by decide⟩).trans (Nat.mod_eq_of_lt (bitsOf_lt _ 23 0))

/-! ## CTX_SEL_WDOG -/

theorem writeAt_selWdog {m : Master} (hm : m ≠ .debug) (v : Nat) (s : State) :
    writeAt m 0x180008 v s = selWdogWrite m (BitVec.ofNat 32 v) s := by
  have hin : inBlocks 0x180008 = true := by decide
  have hbank : bankedRegs.contains 0x180008 = false := by decide
  have hopen : blockShut m 0x180008 true = false := by simp [blockShut, hm]
  unfold writeAt
  rw [if_neg (not_not_intro hin), if_neg (ne_true_of_eq_false hopen), if_neg (by decide), if_neg (ne_true_of_eq_false hbank)]
  rfl

/-- A write of CTX_SEL_WDOG that the map lets through: of the board controller, or of the physical function. -/
theorem putWord_selWdog {m : Master} {s : State} (hm : m = .bc ∨ m = .host 0) (hmap : mapCause s m 0x180008 true = none)
    (hgate : blockGated s (blockOf 0x180008) = false) (v : Word) : putWord m 0x180008 v.toNat s = selWdogWrite m v s := by
  have hwrite := writeAt_selWdog (m := m) (by rcases hm with rfl | rfl <;> simp) v.toNat s
  rw [BitVec.ofNat_toNat, BitVec.setWidth_eq] at hwrite
  rcases hm with rfl | rfl
  · simp [putWord, busWrite, hmap, hgate, hwrite]
  · simp [putWord, busWrite, hmap, hgate, virtualFn, hwrite]

theorem selWdogWrite_own {c : Fin 1024} {s : State} (h : bitsOf (s.bank (.host c) Adr.CTX_SEL).toNat 9 0 = 0) (v : Word) :
    selWdogWrite (.host c) v s = s := by
  simp [selWdogWrite, h]

theorem selWdogWrite_bc {s : State} (h : ctxCmdErr s (bitsOf (s.bank .bc Adr.CTX_SEL).toNat 9 0) = none) (v : Word) :
    selWdogWrite .bc v s = wdogWrite (bitsOf (s.bank .bc Adr.CTX_SEL).toNat 9 0) v.toNat s := by
  simp [selWdogWrite, h]

theorem exec_ctxSelWdogWrite_bc {v : Word} {s : State} (hmap : mapCause s .bc 0x180008 true = none)
    (hgate : blockGated s (blockOf 0x180008) = false) : exec (.ctxSelWdogWrite .bc v) s = .next (selWdogWrite .bc v s) :=
  congrArg done (putWord_selWdog (.inl rfl) hmap hgate v)

/-- The physical function's write, in its turn, while it selects context 0. -/
theorem exec_ctxSelWdogWrite_own {v : Word} {s : State} (hturn : HostTurn s 0) (hfull : s.ds.full = false) (hen : (s.fn 0).enabled = true)
    (hmap : mapCause s (.host 0) 0x180008 true = none) (hgate : blockGated s (blockOf 0x180008) = false)
    (hsel : bitsOf (s.bank (.host 0) Adr.CTX_SEL).toNat 9 0 = 0) : exec (.ctxSelWdogWrite (.host 0) v) s = .next (hostNoted s) := by
  have hmap' : mapCause (hostNoted s) (.host 0) 0x180008 true = none := hmap
  have hgate' : blockGated (hostNoted s) (blockOf 0x180008) = false := hgate
  have hen' : ((hostNoted s).fn 0).enabled = true := hen
  have hsel' : bitsOf ((hostNoted s).bank (.host 0) Adr.CTX_SEL).toNat 9 0 = 0 := hsel
  have hpasses : hostPasses (hostNoted s) 0 0x180008 true = true := by simp [hostPasses, hmap']
  have hput : putWord (.host 0) 0x180008 v.toNat (hostNoted s) = hostNoted s := by
    rw [putWord_selWdog (.inr rfl) hmap' hgate', selWdogWrite_own hsel']
  have hnow : stampedAs s.now (putWord (.host 0) 0x180008 v.toNat) (hostNoted s) = hostNoted s :=
    (stampedAs_now (s := hostNoted s) (congrArg State.now hput)).trans hput
  change execCtxSelWdogWrite (.host 0) v s = _
  rw [execCtxSelWdogWrite, writeArrives, hostPosted_of_hostOpen hturn.1 hfull, hostWriteReg, if_neg (by simp [hen']), if_pos hpasses,
    inOrder_of_hostTurn (c := (0 : Fin 1024).val) hturn, hnow, done]

/-! ## The statement -/

/-- Settles O20: each row of the kind marks its boundary, and what the boundary does is the equation of its operation; the state code that
an end or a squash gives stays through everything else the operation does. -/
theorem contextResetAndWatchdog : Obligations.ContextResetAndWatchdog := by
  unfold Obligations.ContextResetAndWatchdog
  refine ⟨?drainMark, ?drainLive, ?drainBare, ?squashMark, ?drainEndMark, ?quiesceMark, ?squashReset, ?squashDestroy, ?drainEnds, ?idle,
    ?bare, ?fires, ?kick, ?noKick, ?ownSel, ?bcSel⟩
  case drainMark => exact fun c o s h => exec_contextDrainStart_due h
  case drainLive =>
    intro c o s hop hlive hpartner hshare hpairing
    refine ⟨cst_drainStart_live hlive hpartner hshare hpairing, ?_⟩
    rw [op_drainStart_live hlive hpartner hshare hpairing]
    rfl
  case drainBare =>
    intro c o s hop hbare hpartner hshare hpairing habsent hcmds hcause
    have hbare' : (shareGone c s).cst c = 1 := by rw [shareGone_of_none hshare hpairing]; exact hbare
    rw [drainStart_bare hbare hpartner hshare hpairing]
    refine ⟨?_, op_ctxEnd hcmds _ _, get_lastCause_ctxEnd hcmds hcause _ _⟩
    rw [cst_ctxEnd hcmds, endState_drainStart_bare c.isLt habsent hbare']
  case squashMark => exact fun c s h => exec_squashComplete_squashed h
  case drainEndMark => exact fun c o s hop hst hend => exec_contextSquash_drained hop hst hend
  case quiesceMark =>
    exact fun c s hst hqp hquiet htags => exec_contextQuiesce_quiescent ((quiescent_iff s c).mpr ⟨hst, hqp, hquiet, htags⟩)
  case squashReset =>
    intro c o l s hop hst hl habsent hdestroy hcmds hcause
    rw [squashEnd_done hop hst hl]
    refine ⟨?_, op_ctxEnd hcmds _ _, get_lastCause_ctxEnd hcmds hcause _ _⟩
    rw [cst_ctxEnd hcmds]
    simp [endState, habsent, hdestroy, hst]
  case squashDestroy =>
    intro c o l s hop hst hl habsent hdestroy hcmds
    rw [squashEnd_done hop hst hl]
    refine ⟨?_, op_ctxEnd hcmds _ _⟩
    rw [cst_ctxEnd hcmds]
    simp [endState, habsent, hdestroy]
  case drainEnds =>
    intro c o s hop hst hend hroom
    rw [drainEnd_squash hop hst hend hroom, cst_squash c.isLt]
  case idle => exact fun c s h hqp hdesc => quiesce_idle h hqp hdesc
  case bare => exact fun c s h hnone => quiesce_bare h hnone
  case fires =>
    intro c s hruns hzero hlive hmode haction
    refine ⟨_, exec_watchdogExpiry_fires hmode hruns hzero hlive haction, ?_, ?_, bit_ctxNoted_wdog c.isLt 2 _, ?_⟩
    · exact (get_ctxNoted_wdog (g := Fld.CTX_WDOG_STATUS_RUNNING c) (.inr rfl) 2 _).trans (get_running_wdogFired c s)
    · exact (get_ctxNoted_wdog (g := Fld.CTX_STATE_WDOG_FIRED c) (.inl rfl) 2 _).trans (get_fired_wdogFired c s)
    · rw [ctxNoted_ctx, wdogFired_ctx]
  case kick =>
    intro c s hturn hfull hen hmode
    refine ⟨_, exec_ctxWdogKickWrite_hostTurn hturn hfull, ?_⟩
    rw [wdogKicked_kick (s := hostNoted s) hen hmode]
    exact get_remain_wdogReload c (hostNoted s)
  case noKick =>
    intro c s hturn hfull hmode
    rw [exec_ctxWdogKickWrite_hostTurn hturn hfull, wdogKicked_other (s := hostNoted s) hmode]
  case ownSel => exact fun v s hturn hfull hen hmap hgate hsel => exec_ctxSelWdogWrite_own hturn hfull hen hmap hgate hsel
  case bcSel =>
    intro v s hmap hgate hctx
    rw [exec_ctxSelWdogWrite_bc hmap hgate, selWdogWrite_bc hctx]

end Sys2Proof.Machine
end

section

/-! Queue pairs and their descriptors (06 R126 to R142): what an update of one writes, in State and in the registers, and what leaves the
registers of its rings alone. -/

namespace Sys2Proof.Machine

/-! ## A queue pair and one of its descriptors -/

theorem qp_of_qps {s t : State} (h : t.qps = s.qps) (c q : Nat) : t.qp c q = s.qp c q := by
  unfold State.qp
  rw [h]

theorem ctx_of_ctxs {s t : State} (h : t.ctxs = s.ctxs) (c : Nat) : t.ctx c = s.ctx c := by
  unfold State.ctx
  rw [h]

theorem qpUpd_qps (c q : Nat) (f : Qp → Qp) (s : State) : (s.qpUpd c q f).qps = tabSet qpReset s.qps (c * 64 + q) (f (s.qp c q)) := rfl

@[simp] theorem qpUpd_qp_same (c q : Nat) (f : Qp → Qp) (s : State) : (s.qpUpd c q f).qp c q = f (s.qp c q) := by
  rw [State.qp, qpUpd_qps, tabGet_tabSet_same]

/-- The descriptor that a key names, changed; every other one as it was. -/
def descAt (k : DKey) (f : Desc → Desc) (d : Desc) : Desc := if d.slot = k.slot ∧ d.gen = k.gen then f d else d

theorem descUpd_qp_same (k : DKey) (f : Desc → Desc) (s : State) :
    (s.descUpd k f).qp k.c k.q = { s.qp k.c k.q with descs := (s.qp k.c k.q).descs.map (descAt k f) } :=
  tabGet_tabSet_same qpReset s.qps (k.c * 64 + k.q) _

/-- A change that leaves a descriptor's slot and number is seen where its key is looked up. -/
theorem desc?_descUpd {k : DKey} {f : Desc → Desc} (s : State) (hslot : ∀ d, (f d).slot = d.slot) (hgen : ∀ d, (f d).gen = d.gen) :
    (s.descUpd k f).desc? k = (s.desc? k).map f := by
  have hkey : ((fun d : Desc => d.slot == k.slot && d.gen == k.gen) ∘ descAt k f) = fun d => d.slot == k.slot && d.gen == k.gen := by
    funext d
    simp only [Function.comp_apply, descAt]
    split
    · rw [hslot, hgen]
    · rfl
  simp only [State.desc?, descUpd_qp_same, List.find?_map, hkey]
  refine Option.map_congr fun d hd => ?_
  have hd' := List.find?_some (Option.mem_def.mp hd)
  simp only [Bool.and_eq_true, beq_iff_eq] at hd'
  exact if_pos hd'

theorem desc?_of_qps {s t : State} (h : t.qps = s.qps) (k : DKey) : t.desc? k = s.desc? k := by
  simp only [State.desc?, qp_of_qps h]

/-! ## The registers that follow a queue pair -/

/-- QP_STATUS of the queue pair, and the occupancy and OVER_DESC of its context. -/
def qpRegs (c q : Nat) : List Nat := [(Fld.QP_STATUS_OUTSTANDING c q).addr, (Fld.CTX_OCC_OUTSTANDING c).addr, (Fld.CTX_STATE_OVER_DESC c).addr]

variable {l : List Nat} {r s : State}

theorem regsOnly_qpUpd (h : RegsOnly l r s) {c q : Nat} (hl : qpRegs c q ⊆ l) (f : Qp → Qp) : RegsOnly l r (s.qpUpd c q f) := by
  have hstatus : (Fld.QP_STATUS_OUTSTANDING c q).addr ∈ l := hl (by simp [qpRegs])
  have hocc : (Fld.CTX_OCC_OUTSTANDING c).addr ∈ l := hl (by simp [qpRegs])
  have hover : (Fld.CTX_STATE_OVER_DESC c).addr ∈ l := hl (by simp [qpRegs])
  have hqps : RegsOnly l r { s with qps := tabSet qpReset s.qps (c * 64 + q) (f (s.qp c q)) } := h
  exact regsOnly_set (regsOnly_set (regsOnly_set (regsOnly_set hqps _ hstatus) (f := Fld.QP_STATUS_QUIESCED c q) _ hstatus) _ hocc) _ hover

/-- A field of QP_STATUS that neither the outstanding descriptors nor the state of the completion ring decide. -/
abbrev Field.StatusKept (c q : Nat) (g : Field) : Prop :=
  g.addr = (Fld.QP_STATUS_OUTSTANDING c q).addr ∧ g.lo ≤ g.hi ∧ (15 < g.lo ∧ g.hi < 28 ∨ 30 < g.lo)

theorem get_qpUpd_of_statusKept {c q : Nat} {g : Field} (h : g.StatusKept c q) (f : Qp → Qp) (s : State) : (s.qpUpd c q f).get g = s.get g := by
  obtain ⟨haddr, hfits, hbits⟩ := h
  simp only [Fld.QP_STATUS_OUTSTANDING] at haddr
  unfold State.qpUpd updOverDesc
  dsimp only
  rw [get_set_apart, get_set_apart, get_set_apart, get_set_apart]
  · rfl
  all_goals
    simp only [Field.Apart, Fld.QP_STATUS_OUTSTANDING, Fld.QP_STATUS_QUIESCED, Fld.CTX_OCC_OUTSTANDING, Fld.CTX_STATE_OVER_DESC]
    omega

/-- The registers that CQ_FULL and its stall write. -/
def fullRegs (c q : Nat) : List Nat := [(Fld.QP_STATUS_CQ_FULL c q).addr, Fld.QM_CPL_STALL_STALLS.addr] ++ raiseRegs 252

theorem regsOnly_updCqFull (h : RegsOnly l r s) {c q : Nat} (hl : fullRegs c q ⊆ l) : RegsOnly l r (updCqFull c q s) := by
  have hfull : (Fld.QP_STATUS_CQ_FULL c q).addr ∈ l := hl (by simp [fullRegs])
  have hstall : Fld.QM_CPL_STALL_STALLS.addr ∈ l := hl (by simp [fullRegs])
  unfold updCqFull
  split
  · split
    · exact h
    · exact regsOnly_raiseIn (regsOnly_inc (regsOnly_set h _ hfull) _ hstall) fun a ha => hl (List.mem_append_right _ ha)
  · exact regsOnly_set h _ hfull

theorem get_updCqFull_of_statusKept {c q : Nat} {g : Field} (h : g.StatusKept c q) (s : State) : (updCqFull c q s).get g = s.get g := by
  obtain ⟨haddr, hfits, hbits⟩ := h
  simp only [Fld.QP_STATUS_OUTSTANDING] at haddr
  have hfull (v : Nat) : (s.set (Fld.QP_STATUS_CQ_FULL c q) v).get g = s.get g := by
    refine get_set_apart _ _ _ _ ?_
    simp only [Field.Apart, Fld.QP_STATUS_CQ_FULL]
    omega
  unfold updCqFull
  split
  · split
    · rfl
    · rw [get_raise _ _ _ (notMem_raiseRegs (by decide) (by omega)), get_inc_apart, hfull]
      simp only [Field.Apart, Fld.QM_CPL_STALL_STALLS]
      omega
  · exact hfull 0

/-! ## A descriptor that ends -/

/-- The completion entry of a descriptor that ends. -/
def endEntry (d : Desc) (status detail bytes : Nat) (s : State) : Cpl :=
  { tag := descTag d s, status := retriedStatus d status, bytes := bytes, detail := detail, retried := d.fenced,
    evt := (match d.raw with | some r => r.evt | none => false) || (retriedStatus d status != stOk && retriedStatus d status != stOkRetried),
    surplus := d.surplus,
    no := if (match d.raw with | some r => decide (List.length r = 64) | none => false) then some d.no else none }

/-- A descriptor that ends OK with CMPL clear writes no entry. -/
def endsQuiet (d : Desc) (status : Nat) : Bool :=
  retriedStatus d status == stOk && (match d.raw with | some r => !r.cmpl | none => false)

theorem countRetry_qps (st : Nat) (s : State) : (countRetry st s).qps = s.qps := (keeps_countRetry (w := 8) st rfl (keeps_refl _ s)).same .qps rfl

theorem finish_qp (c q : Nat) (d : Desc) (status detail bytes : Nat) (s : State) : (finish c q d status detail bytes s).qp c q =
    { s.qp c q with
      descs := (s.qp c q).descs.filter fun x => x.slot != d.slot || x.gen != d.gen
      cpls := if endsQuiet d status || !cplWritten s c then (s.qp c q).cpls else (s.qp c q).cpls ++ [endEntry d status detail bytes s] } := by
  unfold finish
  dsimp only
  rw [qp_of_qps (countRetry_qps _ _), qpUpd_qp_same]
  cases hraw : d.raw <;> simp [endsQuiet, endEntry, hraw]

theorem finish_descs (c q : Nat) (d : Desc) (status detail bytes : Nat) (s : State) : ((finish c q d status detail bytes s).qp c q).descs =
    (s.qp c q).descs.filter fun x => x.slot != d.slot || x.gen != d.gen := by rw [finish_qp]

/-- The registers that a descriptor's end writes. -/
def finishRegs (c q : Nat) : List Nat := qpRegs c q ++ [Fld.QM_RETRY_CNT_OK_RETRIED.addr]

theorem regsOnly_countRetry (h : RegsOnly l r s) (hl : Fld.QM_RETRY_CNT_OK_RETRIED.addr ∈ l) (st : Nat) : RegsOnly l r (countRetry st s) := by
  have hstep (b : Bool) (f : Field) (hf : f.addr = Fld.QM_RETRY_CNT_OK_RETRIED.addr) (t : State) (ht : RegsOnly l r t) :
      RegsOnly l r (doIf b (·.inc f 1) t) := regsOnly_doIf ht fun u hu => regsOnly_inc hu 1 (hf ▸ hl)
  unfold countRetry
  exact hstep _ Fld.QM_RETRY_CNT_NOT_RETRIED rfl _ (hstep _ Fld.QM_RETRY_CNT_UNCERTAIN rfl _ (hstep _ Fld.QM_RETRY_CNT_OK_RETRIED rfl _ h))

theorem regsOnly_finish (h : RegsOnly l r s) {c q : Nat} (hl : finishRegs c q ⊆ l) (d : Desc) (status detail bytes : Nat) :
    RegsOnly l r (finish c q d status detail bytes s) := by
  have hretry : Fld.QM_RETRY_CNT_OK_RETRIED.addr ∈ l := hl (by simp [finishRegs])
  have hdrew : RegsOnly l r (if d.raw.isNone then s.drewOne else s) := by
    split
    · exact regsOnly_eq h rfl
    · exact h
  exact regsOnly_countRetry (regsOnly_qpUpd hdrew (fun a ha => hl (List.mem_append_left _ ha)) _) hretry _

theorem cancelDesc_regs (k : DKey) (s : State) : (cancelDesc k s).regs = s.regs :=
  (keeps_cancelDesc (w := 0x2528000) k rfl (keeps_refl _ s)).same .regs rfl

theorem cancelDesc_qps (k : DKey) (s : State) : (cancelDesc k s).qps = s.qps :=
  (keeps_cancelDesc (w := 0x2528000) k rfl (keeps_refl _ s)).same .qps rfl

end Sys2Proof.Machine
end

section

/-! What an engine does with a dealt descriptor of each opcode (06 R134, R137, R255). -/

namespace Sys2Proof.Machine

/-! ## The descriptor an engine works on -/

/-- A descriptor whose host pages are checked is worked on at once. -/
theorem onDesc_checked {c q slot op : Nat} {d : Desc} {r : Raw} {s : State} (hw : working s c q slot op = some (d, r))
    (hp : pagesChecked s (keyOf c q d) = true) (f : DKey → State → State) : onDesc c q slot op f s = .next (f (keyOf c q d) s) := by
  have hpages : checkPages (keyOf c q d) s = s := by rw [checkPages, if_pos hp]
  rw [onDesc, hw]
  dsimp only
  rw [hpages, if_pos hp, done]

theorem desc?_of_runningRaw {k : DKey} {d : Desc} {r : Raw} {s : State} (h : runningRaw s k = some (d, r)) : s.desc? k = some d := by
  unfold runningRaw at h
  split at h
  case h_1 e he =>
    split at h
    · split at h
      · rw [he, (Prod.mk.inj (Option.some.inj h)).1]
      · cases h
    · cases h
  case h_2 => cases h

theorem exists_desc?_of_pagesChecked {k : DKey} {s : State} (h : pagesChecked s k = true) : ∃ d, s.desc? k = some d := by
  cases hrun : runningRaw s k with
  | none =>
    rw [pagesChecked, hrun] at h
    cases h
  | some x => exact ⟨x.1, desc?_of_runningRaw hrun⟩

/-! ## A descriptor that has done its part -/

theorem desc?_endDesc {k : DKey} {d : Desc} {s : State} (h : s.desc? k = some d) (detail : Nat) :
    (endDesc k detail s).desc? k = some { d with ended := true, detail := detail } := by
  rw [endDesc, desc?_descUpd (f := fun d => { d with ended := true, detail := detail }) s (fun _ => rfl) (fun _ => rfl), h, Option.map_some]

theorem endDesc_ends {k : DKey} {d : Desc} {s : State} (h : s.desc? k = some d) (detail : Nat) :
    (((endDesc k detail s).desc? k).map fun x => (x.ended, x.detail)) = some (true, detail) := by
  rw [desc?_endDesc h, Option.map_some]

theorem desc?_addItem (up : Bool) (ctx cls tgt bytes : Nat) (host : Bool) (w : Work) (s : State) (k : DKey) :
    (addItem up ctx cls tgt bytes host w s).desc? k = s.desc? k := desc?_of_qps rfl k

theorem addItem_last (up : Bool) (ctx cls tgt bytes : Nat) (host : Bool) (w : Work) (s : State) :
    ((addItem up ctx cls tgt bytes host w s).cad.items.getLast?.map fun i => i.work) = some w := by
  rw [addItem, cadUpd_cad, List.getLast?_concat, Option.map_some]

/-! ## FENCE and PERSIST -/

/-- What FENCE does with a descriptor that runs. -/
def fenceWork (k : DKey) (s : State) : Option (Desc × Raw) → State
  | some (d, r) => if earlierDone s k ∧ (r.scope = 0 ∨ contextDone s k.c d.stamp) then endDesc k 0 s else s
  | none => s

theorem exec_fence_checked {c : Fin 1024} {q : Fin 64} {slot : Fin 65536} {d : Desc} {r : Raw} {s : State}
    (hw : working s c q slot 3 = some (d, r)) (hp : pagesChecked s (keyOf c q d) = true) :
    exec (.fence c q slot) s = .next (fenceWork (keyOf c q d) s (runningRaw s (keyOf c q d))) := by
  change execFence c q slot s = _
  rw [execFence, onDesc_checked hw hp]
  cases runningRaw s (keyOf c q d) <;> rfl

theorem fenceWork_done {k : DKey} {d : Desc} {r : Raw} {s : State} (hearlier : earlierDone s k = true)
    (hscope : r.scope = 0 ∨ contextDone s k.c d.stamp = true) : fenceWork k s (some (d, r)) = endDesc k 0 s := by
  rw [fenceWork, if_pos ⟨hearlier, hscope⟩]

theorem fenceWork_waits {k : DKey} {s : State} (x : Option (Desc × Raw))
    (h : earlierDone s k = false ∨ ∃ d r, x = some (d, r) ∧ r.scope ≠ 0 ∧ contextDone s k.c d.stamp = false) : fenceWork k s x = s := by
  cases x with
  | none => rfl
  | some x =>
    refine if_neg fun hdone => ?_
    obtain ⟨hearlier, hscope⟩ := hdone
    obtain hnot | ⟨d, r, hx, hctx, hlate⟩ := h
    · rw [hnot] at hearlier
      cases hearlier
    · cases hx
      obtain hzero | hdone := hscope
      · exact hctx hzero
      · rw [hlate] at hdone
        cases hdone

/-- What PERSIST does with a descriptor that runs. -/
def persistWork (k : DKey) (s : State) : Option (Desc × Raw) → State
  | some (d, _) =>
    if ¬ earlierDone s k then s
    else if unprotectedBefore s k (d.persistAt.getD s.ds.copyNo) then
      s.descUpd k fun d' => { d' with persistAt := some (d.persistAt.getD s.ds.copyNo) }
    else endDesc k s.nowLo s
  | none => s

theorem exec_persist_checked {c : Fin 1024} {q : Fin 64} {slot : Fin 65536} {d : Desc} {r : Raw} {s : State}
    (hw : working s c q slot 4 = some (d, r)) (hp : pagesChecked s (keyOf c q d) = true) :
    exec (.persist c q slot) s = .next (persistWork (keyOf c q d) s (runningRaw s (keyOf c q d))) := by
  change execPersist c q slot s = _
  rw [execPersist, onDesc_checked hw hp]
  cases runningRaw s (keyOf c q d) <;> rfl

theorem persistWork_done {k : DKey} {d : Desc} {s : State} (hearlier : earlierDone s k = true)
    (hcopies : unprotectedBefore s k (d.persistAt.getD s.ds.copyNo) = false) (r : Raw) :
    persistWork k s (some (d, r)) = endDesc k s.nowLo s := by
  rw [persistWork, if_neg (not_not_intro hearlier), if_neg (by rw [hcopies]; decide)]

/-! ## ATOMIC -/

/-- The original value of an ATOMIC goes to SRC, and the descriptor has done its part. -/
def atomicReturn (k : DKey) (d : Desc) (r : Raw) (s : State) : State :=
  s.descUpd k (fun d => { d with wpend := r.size, ended := true })
    |> addItem true k.c r.cls 9 r.size false (.descHost k 0 (BitVec.ofNat 64 r.src) (sliceBytes d.old 0 r.size))

/-- What ATOMIC does with a descriptor that runs. -/
def atomicWork (k : DKey) (s : State) : Option (Desc × Raw) → State
  | some (d, r) => if d.wnext = 0 then sendAtomic k d r s else if d.old ≠ [] ∧ d.wpend = 0 then atomicReturn k d r s else s
  | none => s

theorem exec_atomic_checked {c : Fin 1024} {q : Fin 64} {slot : Fin 65536} {d : Desc} {r : Raw} {s : State}
    (hw : working s c q slot 5 = some (d, r)) (hp : pagesChecked s (keyOf c q d) = true) :
    exec (.atomic c q slot) s = .next (atomicWork (keyOf c q d) s (runningRaw s (keyOf c q d))) := by
  change execAtomic c q slot s = _
  rw [execAtomic, onDesc_checked hw hp]
  cases runningRaw s (keyOf c q d) <;> rfl

theorem atomicReturn_ends {k : DKey} {d : Desc} {s : State} (h : s.desc? k = some d) (r : Raw) :
    (((atomicReturn k d r s).desc? k).map fun x => (x.ended, x.wpend)) = some (true, r.size) := by
  rw [atomicReturn, desc?_addItem, desc?_descUpd (f := fun d => { d with wpend := r.size, ended := true }) s (fun _ => rfl) (fun _ => rfl), h]
  rfl

/-! ## SEND -/

/-- What SEND does with a descriptor that runs, once its next pieces are asked for. -/
def sendWork (k : DKey) (s : State) : Option (Desc × Raw) → State
  | some (d, r) =>
    if ¬ d.localRead ∧ (contiguous (d.got.length + 1) 0 d.got).length = r.length then
      sendMessage k d r (contiguous (d.got.length + 1) 0 d.got) s
    else s
  | none => s

theorem exec_send_checked {c : Fin 1024} {q : Fin 64} {slot : Fin 65536} {d : Desc} {r : Raw} {s u : State}
    (hw : working s c q slot 6 = some (d, r)) (hp : pagesChecked s (keyOf c q d) = true)
    (hu : u = readStep (keyOf c q d) (readStep (keyOf c q d) s)) :
    exec (.send c q slot) s = .next (sendWork (keyOf c q d) u (runningRaw u (keyOf c q d))) := by
  change execSend c q slot s = _
  rw [execSend, onDesc_checked hw hp, hu]
  dsimp only
  cases runningRaw (readStep (keyOf c q d) (readStep (keyOf c q d) s)) (keyOf c q d) <;> rfl

/-! ## FRAME_OUT and MARK -/

theorem exec_frameOut_checked {c : Fin 1024} {q : Fin 64} {slot : Fin 65536} {d : Desc} {r : Raw} {s : State}
    (hw : working s c q slot 7 = some (d, r)) (hp : pagesChecked s (keyOf c q d) = true) : exec (.frameOut c q slot) s =
      .next (doAll (List.range burst) (fun _ s => s |> readStep (keyOf c q d) |> frameStep (keyOf c q d)) s) := by
  change execFrameOut c q slot s = _
  rw [execFrameOut, onDesc_checked hw hp]

/-- The record of MARK goes to host memory. -/
def markSend (k : DKey) (d : Desc) (r : Raw) (s : State) : State :=
  s.descUpd k (fun d => { d with wpend := 16 })
    |> addItem true k.c r.cls 9 16 false (.descHost k 0 (BitVec.ofNat 64 r.dst) (markRecord d r))

/-- What MARK does with a descriptor that runs. -/
def markWork (k : DKey) (s : State) : Option (Desc × Raw) → State
  | some (d, r) =>
    if r.markWrite then markSend k d r (endDesc k (d.dealt.toNat % 2 ^ 32) s) else endDesc k (d.dealt.toNat % 2 ^ 32) s
  | none => s

theorem exec_mark_checked {c : Fin 1024} {q : Fin 64} {slot : Fin 65536} {d : Desc} {r : Raw} {s : State}
    (hw : working s c q slot 8 = some (d, r)) (hp : pagesChecked s (keyOf c q d) = true) :
    exec (.mark c q slot) s = .next (markWork (keyOf c q d) s (runningRaw s (keyOf c q d))) := by
  change execMark c q slot s = _
  rw [execMark, onDesc_checked hw hp]
  cases runningRaw s (keyOf c q d) <;> rfl

theorem markSend_endDesc {k : DKey} {d : Desc} {s : State} (h : s.desc? k = some d) (r : Raw) (detail : Nat) :
    (((markSend k d r (endDesc k detail s)).desc? k).map fun x => (x.ended, x.detail, x.wpend)) = some (true, detail, 16) := by
  rw [markSend, desc?_addItem, desc?_descUpd (f := fun d => { d with wpend := 16 }) _ (fun _ => rfl) (fun _ => rfl), desc?_endDesc h]
  rfl

/-! ## The statement -/

/-- Settles O22: a descriptor whose pages are checked is handed to its opcode's own work, whose branch the hypotheses choose; what that
leaves of the descriptor is read at its key. -/
theorem descriptorOpcodes : Obligations.DescriptorOpcodes := by
  unfold Obligations.DescriptorOpcodes
  refine ⟨?nop, ?copy, ?fill, ?fence, ?fenceContext, ?fenceWaits, ?fenceEarlier, ?persist, ?atomicSends, ?atomicEnds, ?frame, ?sendWaits,
    ?send, ?mark, ?markRecord⟩
  case nop =>
    intro c q slot d r s hw hp
    obtain ⟨e, he⟩ := exists_desc?_of_pagesChecked hp
    exact ⟨endDesc (keyOf c q d) 0 s, onDesc_checked hw hp fun k s => endDesc k 0 s, endDesc_ends he 0⟩
  case copy => exact fun c q slot d r s hw hp => onDesc_checked hw hp fun k s => moveData true k s
  case fill => exact fun c q slot d r s hw hp => onDesc_checked hw hp fun k s => moveData false k s
  case fence =>
    intro c q slot d r s hw hp hscope hrun hearlier
    refine ⟨_, exec_fence_checked hw hp, ?_⟩
    rw [hrun, fenceWork_done hearlier (.inl hscope)]
    exact endDesc_ends (desc?_of_runningRaw hrun) _
  case fenceContext =>
    intro c q slot d r s hw hp hrun hscope hearlier hdone
    refine ⟨_, exec_fence_checked hw hp, ?_⟩
    rw [hrun, fenceWork_done hearlier (.inr hdone)]
    exact endDesc_ends (desc?_of_runningRaw hrun) _
  case fenceWaits =>
    intro c q slot d r s hw hp hrun hscope hdone
    rw [exec_fence_checked hw hp, fenceWork_waits _ (.inr ⟨d, r, hrun, hscope, hdone⟩)]
  case fenceEarlier =>
    intro c q slot d r s hw hp hearlier
    rw [exec_fence_checked hw hp, fenceWork_waits _ (.inl hearlier)]
  case persist =>
    intro c q slot d r s hw hp hrun hearlier hcopies
    refine ⟨_, exec_persist_checked hw hp, ?_⟩
    rw [hrun, persistWork_done hearlier hcopies]
    exact endDesc_ends (desc?_of_runningRaw hrun) _
  case atomicSends =>
    intro c q slot d r s hw hp hrun hnext
    rw [exec_atomic_checked hw hp, hrun, atomicWork, if_pos hnext]
  case atomicEnds =>
    intro c q slot d r s hw hp hrun hnext hold hpend
    refine ⟨_, exec_atomic_checked hw hp, ?_⟩
    rw [hrun, atomicWork, if_neg hnext, if_pos ⟨hold, hpend⟩]
    exact atomicReturn_ends (desc?_of_runningRaw hrun) _
  case frame => exact fun c q slot d r s hw hp => exec_frameOut_checked hw hp
  case sendWaits =>
    intro c q slot d e r r2 s hw hp hrun hshort
    rw [exec_send_checked hw hp rfl, hrun, sendWork, if_neg fun h => hshort h.2]
  case send =>
    intro c q slot d e r r2 s hw hp hrun hlocal hwhole
    rw [exec_send_checked hw hp rfl, hrun, sendWork, if_pos ⟨by rw [hlocal]; decide, hwhole⟩]
  case mark =>
    intro c q slot d r s hw hp hrun hwrite
    refine ⟨_, exec_mark_checked hw hp, ?_⟩
    rw [hrun, markWork, if_neg (by rw [hwrite]; decide)]
    exact endDesc_ends (desc?_of_runningRaw hrun) _
  case markRecord =>
    intro c q slot d r s hw hp hrun hwrite
    refine ⟨_, exec_mark_checked hw hp, ?_⟩
    rw [hrun, markWork, if_pos hwrite]
    exact ⟨markSend_endDesc (desc?_of_runningRaw hrun) r _, addItem_last ..⟩

end Sys2Proof.Machine
end

section

/-! Queue pairs that are enabled and disabled, doorbells, fetches, dealing and completion of descriptors (06 R127 to R139, R475). -/

namespace Sys2Proof.Machine

/-! ## Enable and disable -/

theorem exec_qpEnable (c : Fin 1024) (q : Fin 64) (s : State) : exec (.qpEnable c q) s = .next (qpEnable c q s) := rfl

theorem exec_qpDisable (c : Fin 1024) (q : Fin 64) (s : State) : exec (.qpDisable c q) s = .next (qpDisable c q s) := rfl

theorem qpEnable_error {c q : Nat} {s : State} (hoff : s.isSet (Fld.QP_STATUS_EN_ACTIVE c q) = false) (herr : qpCfgErr s c q ≠ 0) :
    qpEnable c q s = s.set (Fld.QP_STATUS_CFG_ERR c q) (qpCfgErr s c q) := by
  rw [qpEnable, if_neg (by simp [hoff]), if_pos herr]

/-- The registers of a queue pair as it is enabled. -/
def qpStarted (c q : Nat) (s : State) : State :=
  s |>.set (Fld.QP_CTL_EN c q) 1 |>.set (Fld.QP_STATUS_EN_ACTIVE c q) 1 |>.set (Fld.QP_STATUS_CQ_PHASE c q) 1 |>.setWord (Adr.QP_PTR c q) 0

/-- A queue pair that is enabled, before the counts of its context and of the pool. -/
def qpPlaced (c q : Nat) (s : State) : State :=
  s |>.qpUpd c q (fun p => { p with sqTail := 0, cqHead := 0, off := false, drops := 0 }) |> updCqFull c q

/-- The counts of enabled queue pairs. -/
def qpCounted (c : Nat) (s : State) : State := s |>.inc (Fld.CTX_CAPS_QP_EN c) 1 |>.inc Fld.CTX_POOL_QP_ENABLED 1

theorem qpEnable_enables {c q : Nat} {s : State} (hoff : s.isSet (Fld.QP_STATUS_EN_ACTIVE c q) = false) (hgood : qpCfgErr s c q = 0) :
    qpEnable c q s = qpCounted c (qpPlaced c q (qpStarted c q s)) := by
  rw [qpEnable, if_neg (by simp [hoff]), if_neg (not_not_intro hgood)]
  rfl

/-- What placing and counting an enabled queue pair writes. -/
def enableRegs (c q : Nat) : List Nat := qpRegs c q ++ fullRegs c q ++ [(Fld.CTX_CAPS_QP_EN c).addr, Fld.CTX_POOL_QP_ENABLED.addr]

theorem regsOnly_qpPlaced (c q : Nat) (s : State) : RegsOnly (enableRegs c q) s (qpCounted c (qpPlaced c q s)) := by
  have hqp : qpRegs c q ⊆ enableRegs c q := by simp [enableRegs]
  have hfull : fullRegs c q ⊆ enableRegs c q := fun a ha => by simp [enableRegs, ha]
  exact regsOnly_inc (regsOnly_inc (regsOnly_updCqFull (regsOnly_qpUpd (regsOnly_refl _ s) hqp _) hfull) 1 (by simp [enableRegs])) 1
    (by simp [enableRegs])

/-- The rings' pointers and QP_CTL are none of them. -/
theorem notMem_enableRegs {a c q : Nat} (h : a = Adr.QP_PTR c q ∨ a = (Fld.QP_CTL_EN c q).addr) : a ∉ enableRegs c q := by
  simp only [Adr.QP_PTR, Fld.QP_CTL_EN] at h
  have hraise : a ∉ raiseRegs 252 := notMem_raiseRegs (by decide) (by omega)
  simp only [enableRegs, qpRegs, fullRegs, Fld.QP_STATUS_OUTSTANDING, Fld.QP_STATUS_CQ_FULL, Fld.CTX_OCC_OUTSTANDING, Fld.CTX_STATE_OVER_DESC,
    Fld.QM_CPL_STALL_STALLS, Fld.CTX_CAPS_QP_EN, Fld.CTX_POOL_QP_ENABLED, List.mem_append, List.mem_cons, List.not_mem_nil, or_false, hraise]
  omega

theorem get_status_qpPlaced {c q : Nat} {g : Field} (h : g.StatusKept c q) (s : State) : (qpCounted c (qpPlaced c q s)).get g = s.get g := by
  have hcaps : (Fld.CTX_CAPS_QP_EN c).Apart g := by
    obtain ⟨haddr, hfits, -⟩ := h
    simp only [Fld.QP_STATUS_OUTSTANDING] at haddr
    simp only [Field.Apart, Fld.CTX_CAPS_QP_EN]
    omega
  have hpool : Fld.CTX_POOL_QP_ENABLED.Apart g := by
    obtain ⟨haddr, hfits, -⟩ := h
    simp only [Fld.QP_STATUS_OUTSTANDING] at haddr
    simp only [Field.Apart, Fld.CTX_POOL_QP_ENABLED]
    omega
  rw [qpCounted, get_inc_apart _ _ _ _ hpool, get_inc_apart _ _ _ _ hcaps, qpPlaced, get_updCqFull_of_statusKept h,
    get_qpUpd_of_statusKept h]

theorem updCqFull_qps (c q : Nat) (s : State) : (updCqFull c q s).qps = s.qps :=
  (keeps_updCqFull (w := 0x102002D3AB) c q rfl (keeps_refl _ s)).same .qps rfl

theorem qpPlaced_qp (c q : Nat) (s : State) :
    (qpCounted c (qpPlaced c q s)).qp c q = { s.qp c q with sqTail := 0, cqHead := 0, off := false, drops := 0 } := by
  rw [qpCounted, inc_qp, inc_qp, qpPlaced, qp_of_qps (updCqFull_qps c q _), qpUpd_qp_same]

theorem statusKept_active (c q : Nat) : (Fld.QP_STATUS_EN_ACTIVE c q).StatusKept c q :=
  ⟨rfl, Nat.le_refl 31, .inr (show 30 < 31 by decide)⟩

theorem statusKept_phase (c q : Nat) : (Fld.QP_STATUS_CQ_PHASE c q).StatusKept c q :=
  ⟨rfl, Nat.le_refl 25, .inl (show 15 < 25 ∧ 25 < 28 by decide)⟩

theorem qpStarted_qp (c q : Nat) (s : State) : (qpStarted c q s).qp c q = s.qp c q := by
  rw [qpStarted, setWord_qp, set_qp, set_qp, set_qp]

theorem get_ctl_qpStarted (c q : Nat) (s : State) : (qpStarted c q s).get (Fld.QP_CTL_EN c q) = 1 := by
  rw [qpStarted, get_setWord_ne _ _ (by simp [Fld.QP_CTL_EN, Adr.QP_PTR]),
    get_set_apart _ _ _ _ (by simp [Field.Apart, Fld.QP_CTL_EN, Fld.QP_STATUS_CQ_PHASE]),
    get_set_apart _ _ _ _ (by simp [Field.Apart, Fld.QP_CTL_EN, Fld.QP_STATUS_EN_ACTIVE]),
    get_set_same _ _ _ ⟨Nat.le_refl 0, show 0 < 32 by decide⟩]
  rfl

theorem get_active_qpStarted (c q : Nat) (s : State) : (qpStarted c q s).get (Fld.QP_STATUS_EN_ACTIVE c q) = 1 := by
  rw [qpStarted, get_setWord_ne _ _ (by simp [Fld.QP_STATUS_EN_ACTIVE, Adr.QP_PTR]),
    get_set_apart _ _ _ _ (by simp [Field.Apart, Fld.QP_STATUS_EN_ACTIVE, Fld.QP_STATUS_CQ_PHASE]),
    get_set_same _ _ _ ⟨Nat.le_refl 31, show 31 < 32 by decide⟩]
  rfl

theorem get_phase_qpStarted (c q : Nat) (s : State) : (qpStarted c q s).get (Fld.QP_STATUS_CQ_PHASE c q) = 1 := by
  rw [qpStarted, get_setWord_ne _ _ (by simp [Fld.QP_STATUS_CQ_PHASE, Adr.QP_PTR]),
    get_set_same _ _ _ ⟨Nat.le_refl 25, show 25 < 32 by decide⟩]
  rfl

theorem qpDisable_active {c q : Nat} {s : State} (h : s.isSet (Fld.QP_STATUS_EN_ACTIVE c q) = true) :
    qpDisable c q s = { s.set (Fld.QP_CTL_EN c q) 0 with deferred := s.deferred ++ [.qpOff c q] } := by
  rw [qpDisable, if_pos h]

theorem qpDisable_inactive {c q : Nat} {s : State} (h : s.isSet (Fld.QP_STATUS_EN_ACTIVE c q) = false) : qpDisable c q s = s := by
  rw [qpDisable, if_neg (by simp [h])]

/-! ## Doorbells -/

theorem doorbell_now (c q : Nat) (tail head : Option Nat) (s : State) : (doorbell c q tail head s).now = s.now :=
  (keeps_doorbell (w := 0x10200AD3AB) c q tail head rfl (keeps_refl _ s)).same .now rfl

/-- A doorbell in its turn. -/
theorem exec_doorbellWrite_hostTurn {c : Fin 1024} {s : State} (hturn : HostTurn s c) (hfull : s.ds.full = false) (q : Fin 64)
    (tail head : Option (BitVec 16)) :
    exec (.doorbellWrite c q tail head) s = .next (doorbell c q (tail.map (·.toNat)) (head.map (·.toNat)) (hostNoted s)) := by
  change execDoorbellWrite c q tail head s = _
  rw [execDoorbellWrite, hostPosted_of_hostOpen hturn.1 hfull, inOrder_of_hostTurn hturn, done]
  exact congrArg _ (stampedAs_now (s := hostNoted s) (doorbell_now ..))

theorem doorbell_absent {c : Nat} {s : State} (h : (s.fn c).enabled = false ∨ s.cst c = 0) (q : Nat) (tail head : Option Nat) :
    doorbell c q tail head s = s := by
  rw [doorbell, if_pos (h.imp_left fun h => by simp [h])]

theorem doorbell_refused {c q : Nat} {s : State} (hen : (s.fn c).enabled = true) (hcst : s.cst c ≠ 0) (hrefused : doorbellRefused s c q = true)
    (tail head : Option Nat) : doorbell c q tail head s = s.inc (Fld.CTX_STATE_DB_REFUSED c) 1 := by
  rw [doorbell, if_neg (by simp [hen, hcst]), if_pos hrefused]

/-- A doorbell that is not refused finds the context ACTIVE. -/
theorem cst_of_doorbellTaken {c q : Nat} {s : State} (h : doorbellRefused s c q = false) : s.cst c = 3 := by
  simp only [doorbellRefused, Bool.or_eq_false_iff, bne_eq_false_iff_eq] at h
  exact h.1.1.2

theorem doorbell_tail {c q tail : Nat} {s : State} (hen : (s.fn c).enabled = true) (htaken : doorbellRefused s c q = false)
    (htail : tail < 65536) : doorbell c q (some tail) none s = doorbellTail c q tail s := by
  rw [doorbell, if_neg (by simp [hen, cst_of_doorbellTaken htaken]), if_neg (by simp [htaken])]
  dsimp only
  rw [Nat.mod_eq_of_lt htail]

/-- The submission tail, and one descriptor for each slot that it passes. -/
theorem doorbellTail_qp {c q tail : Nat} {s : State} (h : tail < s.sqDepth c q) : ((doorbellTail c q tail s).qp c q).sqTail = tail ∧
    ((doorbellTail c q tail s).qp c q).descs.length =
      (s.qp c q).descs.length + (tail + s.sqDepth c q - (s.qp c q).sqTail) % s.sqDepth c q := by
  rw [doorbellTail, if_neg (Nat.not_le.mpr h)]
  dsimp only
  rw [qpUpd_qp_same]
  exact ⟨rfl, by rw [List.length_append, List.length_map, List.length_range]⟩

/-! ## The registers of the rings during a fetch -/

/-- The registers that the descriptors of a fetch write as they come or fail, with the reports beside them. -/
def fetchRegs (c q : Nat) : List Nat :=
  finishRegs c q ++ [(Fld.QP_CNT_OVER_SHARE c q).addr, Fld.QM_MALFORMED_VALID.addr, Fld.HL_TAG_STATUS_HWM.addr] ++ raiseRegs 28 ++ raiseRegs 249

section
variable {l : List Nat} {r s : State} {c q : Nat}

theorem finishRegs_subset_fetchRegs (c q : Nat) : finishRegs c q ⊆ fetchRegs c q := fun a ha => by simp [fetchRegs, ha]

theorem regsOnly_finishOver (h : RegsOnly (fetchRegs c q) r s) (d : Desc) : RegsOnly (fetchRegs c q) r (finishOver c q d s) := by
  have hstatus : (Fld.QP_STATUS_OVER_SHARE c q).addr ∈ fetchRegs c q := finishRegs_subset_fetchRegs c q (List.mem_cons_self ..)
  unfold finishOver
  refine regsOnly_doIf (regsOnly_inc (regsOnly_set (regsOnly_finish h (finishRegs_subset_fetchRegs c q) _ _ _ _) _ hstatus) 1
    (by simp [fetchRegs])) fun s h => regsOnly_raiseIn h fun a ha => ?_
  exact List.mem_append_right _ ha

theorem regsOnly_finishMalformed (h : RegsOnly (fetchRegs c q) r s) (off : Nat) (d : Desc) :
    RegsOnly (fetchRegs c q) r (finishMalformed c q off d s) := by
  have hstatus : (Fld.QP_STATUS_MALFORMED c q).addr ∈ fetchRegs c q := finishRegs_subset_fetchRegs c q (List.mem_cons_self ..)
  have hcount : (Fld.QP_CNT_MALFORMED c q).addr ∈ fetchRegs c q := by simp [fetchRegs, Fld.QP_CNT_MALFORMED, Fld.QP_CNT_OVER_SHARE]
  have hlog : Fld.QM_MALFORMED_VALID.addr ∈ fetchRegs c q := by simp [fetchRegs]
  unfold finishMalformed
  refine regsOnly_raiseIn ?_ fun a ha => List.mem_append_right _ ha
  have hfinished := regsOnly_finish h (finishRegs_subset_fetchRegs c q) d stMalformed off 0
  have hcounted := regsOnly_inc (regsOnly_set (f := Fld.QP_STATUS_MALFORMED c q) hfinished 1 hstatus) (f := Fld.QP_CNT_MALFORMED c q) 1 hcount
  have hvalid := regsOnly_set (f := Fld.QM_MALFORMED_VALID) hcounted 1 hlog
  have hwhere := regsOnly_set (f := Fld.QM_MALFORMED_QP) (regsOnly_set (f := Fld.QM_MALFORMED_CTX) hvalid c hlog) q hlog
  exact regsOnly_set (f := Fld.QM_MALFORMED_OFFSET) hwhere off hlog

theorem regsOnly_tookDesc (h : RegsOnly (fetchRegs c q) r s) (d : Desc) (raw : Raw) : RegsOnly (fetchRegs c q) r (tookDesc c q d raw s) := by
  have htook := regsOnly_qpUpd h (c := c) (q := q) (fun a ha => finishRegs_subset_fetchRegs c q (List.mem_append_left _ ha)) fun p =>
    { p with descs := p.descs.map fun x => if x.slot = d.slot ∧ x.gen = d.gen then { d with raw := some raw } else x }
  unfold tookDesc
  dsimp only
  split
  · exact regsOnly_finishOver htook _
  · split
    · exact regsOnly_finishMalformed htook _ _
    · exact htook

theorem regsOnly_peak (h : RegsOnly l r s) {f : Field} (v : Nat) (hf : f.addr ∈ l) : RegsOnly l r (s.peak f v) := by
  unfold State.peak
  split
  · exact regsOnly_set h _ hf
  · exact h

theorem fetchReads_regs (c : Nat) (ta : Addr) (k : List (Nat × Nat)) (s : State) :
    (fetchReads c ta k s).regs = (s.peak Fld.HL_TAG_STATUS_HWM (s.hl.tags.length + 1)).regs :=
  doAll_same State.regs k _ fun _ _ => rfl

theorem regsOnly_fetchReads (h : RegsOnly (fetchRegs c q) r s) (d : Nat) (ta : Addr) (k : List (Nat × Nat)) :
    RegsOnly (fetchRegs c q) r (fetchReads d ta k s) :=
  regsOnly_eq (regsOnly_peak h _ (by simp [fetchRegs])) (fetchReads_regs d ta k s)

theorem atsUse_regs (c : Nat) (iova : Addr) (s : State) : (atsUse c iova s).regs = s.regs := by
  unfold atsUse
  split <;> rfl

theorem regsOnly_updTags (h : RegsOnly (fetchRegs c q) r s) : RegsOnly (fetchRegs c q) r (updTags s) := by
  have hstatus : Fld.HL_TAG_STATUS_HWM.addr ∈ fetchRegs c q := by simp [fetchRegs]
  exact regsOnly_peak (regsOnly_set h (f := Fld.HL_TAG_STATUS_IN_USE) _ hstatus) _ hstatus

theorem aerMessage_regs (c b : Nat) (masked : Bool) (what : String) (s : State) : (aerMessage c b masked what s).regs = s.regs :=
  doIf_same State.regs _ s fun _ => rfl

/-- An advisory report writes the registers of its source alone. -/
theorem regsOnly_aerAdvisory (h : RegsOnly (fetchRegs c q) r s) (b : Nat) {src : Nat} (hsrc : raiseRegs src = raiseRegs 28) :
    RegsOnly (fetchRegs c q) r (aerAdvisory c b src s) := by
  have hin : raiseRegs 28 ⊆ fetchRegs c q := fun a ha => by simp [fetchRegs, ha]
  have hfatal : raiseRegs (if src = 28 then 30 else src) = raiseRegs 28 := by
    split
    · rfl
    · exact hsrc
  have hlogged : RegsOnly (fetchRegs c q) r (aerLogged c b s.tlpHdr s.drewOne) := h
  unfold aerAdvisory aerAdvisoryOf
  dsimp only
  split
  · exact regsOnly_raiseIn (regsOnly_eq hlogged (aerMessage_regs ..)) (hfatal ▸ hin)
  · exact regsOnly_raiseIn (regsOnly_eq (regsOnly_fnUpd hlogged _ _) (aerMessage_regs ..)) (hsrc ▸ hin)

theorem regsOnly_fetchReport (h : RegsOnly (fetchRegs c q) r s) (why : FetchFailure) : RegsOnly (fetchRegs c q) r (fetchReport c q why s) := by
  cases why with
  | refused => exact h
  | poisoned => exact regsOnly_aerAdvisory h 12 rfl
  | timeout => exact regsOnly_updTags (regsOnly_eq (regsOnly_aerAdvisory h 14 (src := 31) (by decide)) rfl)
  | denied => exact h

theorem regsOnly_fetchTried (h : RegsOnly (fetchRegs c q) r s) (k : Nat) (why : FetchFailure) :
    RegsOnly (fetchRegs c q) r (fetchTried c q k why s) := by
  unfold fetchTried
  split
  · exact regsOnly_fetchReads h _ _ _
  · exact h

end

/-! ## The submission head -/

/-- What the submission ring is read by: its head and its depth. -/
def ringView (c q : Nat) (s : State) : Nat × Nat := (s.get (Fld.QP_PTR_SQ_HEAD c q), s.sqDepth c q)

theorem ring_notMem_fetchRegs {a c q : Nat} (h : a = (Fld.QP_PTR_SQ_HEAD c q).addr ∨ a = (Fld.QP_CFG_SQ_LOG2 c q).addr) : a ∉ fetchRegs c q := by
  simp only [Fld.QP_PTR_SQ_HEAD, Fld.QP_CFG_SQ_LOG2] at h
  have hcor : a ∉ raiseRegs 28 := notMem_raiseRegs (by decide) (by omega)
  have hover : a ∉ raiseRegs 249 := notMem_raiseRegs (by decide) (by omega)
  simp only [fetchRegs, finishRegs, qpRegs, Fld.QP_STATUS_OUTSTANDING, Fld.CTX_OCC_OUTSTANDING, Fld.CTX_STATE_OVER_DESC,
    Fld.QM_RETRY_CNT_OK_RETRIED, Fld.QP_CNT_OVER_SHARE, Fld.QM_MALFORMED_VALID, Fld.HL_TAG_STATUS_HWM, List.mem_append, List.mem_cons,
    List.not_mem_nil, or_false, hcor, hover]
  omega

theorem ringView_of_regsOnly {c q : Nat} {s t : State} (h : RegsOnly (fetchRegs c q) s t) : ringView c q t = ringView c q s := by
  rw [ringView, ringView, State.sqDepth, State.sqDepth, regsOnly_get h (ring_notMem_fetchRegs (.inl rfl)),
    regsOnly_get h (ring_notMem_fetchRegs (.inr rfl))]

/-- The ring after its head has passed `n` slots. -/
def ringPassed (n : Nat) (v : Nat × Nat) : Nat × Nat := ((v.1 + n) % v.2, v.2)

theorem ringPassed_passed (m n : Nat) (v : Nat × Nat) : ringPassed n (ringPassed m v) = ringPassed (m + n) v := by
  simp only [ringPassed, Nat.mod_add_mod, Nat.add_assoc]

theorem ringView_passSlots {c q : Nat} {s : State} (h : s.sqDepth c q ≤ 65536) (n : Nat) :
    ringView c q (passSlots c q n s) = ringPassed n (ringView c q s) := by
  have hlt : (s.get (Fld.QP_PTR_SQ_HEAD c q) + n) % s.sqDepth c q < 65536 :=
    Nat.lt_of_lt_of_le (Nat.mod_lt _ (Nat.two_pow_pos _)) h
  have hapart : (Fld.QP_PTR_SQ_HEAD c q).Apart (Fld.QP_CFG_SQ_LOG2 c q) := by
    simp [Field.Apart, Fld.QP_PTR_SQ_HEAD, Fld.QP_CFG_SQ_LOG2]
  rw [ringView, State.sqDepth, passSlots, get_set_apart _ _ _ _ hapart, get_set_same _ _ _ ⟨Nat.zero_le 15, show 15 < 32 by decide⟩]
  exact Prod.ext (Nat.mod_eq_of_lt hlt) rfl

theorem ringView_fetched {c q : Nat} {s : State} (h : s.sqDepth c q ≤ 65536) (n : Nat) (data : List Byte) :
    ringView c q (fetched c q n data s) = ringPassed n (ringView c q s) := by
  rw [← ringView_passSlots h]
  exact doAll_same (ringView c q) _ _ fun e s => ringView_of_regsOnly (regsOnly_tookDesc (regsOnly_refl _ s) _ _)

theorem ringView_fetchFailed {c q : Nat} {s : State} (h : s.sqDepth c q ≤ 65536) (n status : Nat) :
    ringView c q (fetchFailed c q n status s) = ringPassed n (ringView c q s) := by
  rw [← ringView_passSlots h]
  exact doAll_same (ringView c q) _ _ fun d s =>
    ringView_of_regsOnly (regsOnly_finish (regsOnly_refl _ s) (finishRegs_subset_fetchRegs c q) _ _ _ _)

theorem sqDepth_of_ringView {c q : Nat} {s t : State} {n : Nat} (h : ringView c q t = ringPassed n (ringView c q s)) :
    t.sqDepth c q = s.sqDepth c q := congrArg Prod.snd h

/-! ## Fetches -/

/-- A batch is read where ATS is off. -/
theorem exec_descriptorFetch_untranslated {c : Fin 1024} {q : Fin 64} {s : State} (hmay : mayFetch s c q = true) (htag : tagLeft s c 0 = true)
    (hats : (s.fn c).atsEn = false) (data : List Byte) : exec (.descriptorFetch c q data) s =
      .next (fetched c q (fetchCount s c q) data (atsUse c (BitVec.ofNat 64 (fetchAddr s c q))
        (fetchReads c (BitVec.ofNat 64 (fetchAddr s c q)) (fetchPieces s c q) s))) := by
  have hway : xlate s c (fetchAddr s c q) false = some (BitVec.ofNat 64 (fetchAddr s c q)) := by simp [xlate, hats]
  change execDescriptorFetch c q data s = _
  rw [execDescriptorFetch, if_neg (not_not_intro hmay), if_neg (not_not_intro htag)]
  dsimp only
  rw [hway, done]

/-- The reads before the failed one, and what the failure reports, before the failed read's slots end. -/
def fetchBegun (c q k n : Nat) (data : List Byte) (why : FetchFailure) (s : State) : State :=
  s |> fetchTried c q k why |> fetched c q n data |> fetchReport c q why

theorem exec_descriptorFetchFail_piece {c : Fin 1024} {q k : Fin 64} {p : Nat × Nat} {s : State} (hmay : mayFetch s c q = true)
    (htag : tagLeft s c 0 = true) (hp : (fetchPieces s c q)[k.val]? = some p) (data : List Byte) (why : FetchFailure) :
    exec (.descriptorFetchFail c q k data why) s =
      .next (fetchFailed c q (p.2 / 64) (fetchFailStatus why) (fetchBegun c q k (p.1 / 64) data why s)) := by
  change execDescriptorFetchFail c q k data why s = _
  rw [execDescriptorFetchFail, hp]
  dsimp only
  rw [if_pos ⟨hmay, htag⟩, done, fetchBegun]

theorem ringView_fetchBegun {c q : Nat} {s : State} (h : s.sqDepth c q ≤ 65536) (k n : Nat) (data : List Byte) (why : FetchFailure) :
    ringView c q (fetchBegun c q k n data why s) = ringPassed n (ringView c q s) := by
  have htried : ringView c q (fetchTried c q k why s) = ringView c q s := ringView_of_regsOnly (regsOnly_fetchTried (regsOnly_refl _ s) k why)
  have hdepth : (fetchTried c q k why s).sqDepth c q = s.sqDepth c q := congrArg Prod.snd htried
  rw [fetchBegun, ringView_of_regsOnly (regsOnly_fetchReport (regsOnly_refl _ _) why), ringView_fetched (hdepth ▸ h), htried]

/-- Where no read came before the failed one, nothing of the queue pair or of its context has changed. -/
theorem fetched_zero (c q : Nat) (data : List Byte) (s : State) : fetched c q 0 data s = passSlots c q 0 s := rfl

theorem fetchBegun_zero_qps (c q k : Nat) (data : List Byte) (why : FetchFailure) (s : State) :
    (fetchBegun c q k 0 data why s).qps = s.qps := by
  have hreport (s : State) : (fetchReport c q why s).qps = s.qps :=
    (keeps_fetchReport (w := 0x102002D3AB) c q why rfl (keeps_refl _ s)).same .qps rfl
  rw [fetchBegun, hreport, fetched_zero, passSlots, set_qps]
  exact (keeps_fetchTried (w := 9) c q k why rfl (keeps_refl _ s)).same .qps rfl

theorem fetchBegun_zero_ctxs (c q k : Nat) (data : List Byte) (why : FetchFailure) (s : State) :
    (fetchBegun c q k 0 data why s).ctxs = s.ctxs := by
  have hreport (s : State) : (fetchReport c q why s).ctxs = s.ctxs :=
    (keeps_fetchReport (w := 0x102002D3AB) c q why rfl (keeps_refl _ s)).same .ctxs rfl
  rw [fetchBegun, hreport, fetched_zero, passSlots, set_ctxs]
  exact (keeps_fetchTried (w := 9) c q k why rfl (keeps_refl _ s)).same .ctxs rfl

/-- A failed read of one slot ends the first slot not fetched. -/
theorem fetchFailed_one {c q : Nat} {d : Desc} {s : State} (h : (s.qp c q).unfetched.head? = some d) (status : Nat) :
    fetchFailed c q 1 status s = finish c q { d with raw := some [1#8, 1#8] } status (2 ^ 30 + d.slot) 0 (passSlots c q 1 s) := by
  rw [fetchFailed, List.take_one, h]
  rfl

theorem fetchFailStatus_ne_ok (why : FetchFailure) : fetchFailStatus why ≠ stOk ∧ fetchFailStatus why ≠ stOkRetried := by
  cases why <;> decide

theorem retriedStatus_of_not_fenced {d : Desc} (h : d.fenced = false) (status : Nat) : retriedStatus d status = status := by
  rw [retriedStatus, if_neg (by simp [h])]

/-- The entry of a slot whose fetch failed carries TAG 0. -/
theorem endEntry_fetchFailed {d : Desc} (h : d.fenced = false) (why : FetchFailure) (detail : Nat) (s : State) :
    endEntry { d with raw := some [1#8, 1#8] } (fetchFailStatus why) detail 0 s =
      ⟨0, fetchFailStatus why, 0, detail, false, true, d.surplus, none⟩ := by
  obtain ⟨hok, hretried⟩ := fetchFailStatus_ne_ok why
  have hst : retriedStatus { d with raw := some [1#8, 1#8] } (fetchFailStatus why) = fetchFailStatus why := retriedStatus_of_not_fenced h _
  have htag : Raw.tag [1#8, 1#8] = 0 := by decide
  rw [endEntry, hst, bne_iff_ne.mpr hok, bne_iff_ne.mpr hretried]
  simp [descTag, htag, h]

theorem endsQuiet_fetchFailed {d : Desc} (h : d.fenced = false) (raw : Option Raw) (why : FetchFailure) :
    endsQuiet { d with raw := raw } (fetchFailStatus why) = false := by
  have hst : retriedStatus { d with raw := raw } (fetchFailStatus why) = fetchFailStatus why := retriedStatus_of_not_fenced h _
  rw [endsQuiet, hst, beq_eq_false_iff_ne.mpr (fetchFailStatus_ne_ok why).1, Bool.false_and]

/-! ## Dealing -/

/-- What a dealt descriptor becomes: it keeps its windows, its aperture and the pages found. -/
def dealt (c e : Nat) (r : Raw) (s : State) (d : Desc) : Desc :=
  { d with engine := some e, dealt := s.now, swin := winMap s c r.srcWin, dwin := winMap s c r.dstWin,
           apt := (onlineApt s c).getD 0, spages := knownPages s c r.src (hostSpan r false) (r.opcode == 5),
           dpages := knownPages s c r.dst (hostSpan r true) true }

theorem dealDesc_passes {c : Nat} {r : Raw} {s : State} (hpass : descRefusal (s.inc Fld.QM_DEALT_COUNT 1) c r = none) (hmirror : r.mirror = false)
    (q e : Nat) (d : Desc) : dealDesc c q e d r s =
      (s.inc Fld.QM_DEALT_COUNT 1).descUpd (keyOf c q d) (dealt c e r (s.inc Fld.QM_DEALT_COUNT 1)) := by
  rw [dealDesc]
  dsimp only
  rw [hpass]
  dsimp only
  rw [if_neg (by simp [hmirror])]
  rfl

theorem exec_descriptorDeal_allowed {c : Fin 1024} {q : Fin 64} {e : Fin 32} {d : Desc} {r : Raw} {s : State}
    (hnext : nextUndealt (s.qp c q) = some d) (hraw : d.raw = some r)
    (hallowed : s.isSet (Fld.QP_STATUS_EN_ACTIVE c q) = true ∧ s.cst c = 3 ∧ ¬ s.resting = true ∧
      bitOf (s.get Fld.QM_SPOKE_FENCED_ENGINE) e = false ∧ ¬ s.cqFull c q = true ∧ fencesAllow (s.qp c q) d r = true ∧ weightsAllow s c r = true) :
    exec (.descriptorDeal c q e) s = .next (dealDesc c q e d r s) := by
  change execDescriptorDeal c q e s = _
  rw [execDescriptorDeal, hnext]
  dsimp only
  rw [hraw]
  dsimp only
  rw [if_pos hallowed, done]

/-- A change at the key of a descriptor of the ring is found in it. -/
theorem mem_descs_descUpd {c q : Nat} {d : Desc} {s : State} (h : d ∈ (s.qp c q).descs) (f : Desc → Desc) :
    f d ∈ ((s.descUpd (keyOf c q d) f).qp c q).descs := by
  have hat : descAt (keyOf c q d) f d = f d := if_pos ⟨rfl, rfl⟩
  have hqp : ((s.descUpd (keyOf c q d) f).qp c q).descs = (s.qp c q).descs.map (descAt (keyOf c q d) f) :=
    congrArg Qp.descs (descUpd_qp_same (keyOf c q d) f s)
  rw [hqp, ← hat]
  exact List.mem_map_of_mem h

/-! ## Completion -/

/-- How a finished descriptor ends: by its failure, or with status OK. -/
def completed (c q : Nat) (d : Desc) (s : State) : State :=
  match d.fail with
  | some (st, det) => finish c q d st det d.bytes s
  | none => finish c q d stOk d.detail d.bytes s

theorem exec_descriptorComplete_finished {c : Fin 1024} {q : Fin 64} {slot : Fin 65536} {d : Desc} {s : State}
    (h : ((s.qp c q).descs.find? fun d => d.slot == slot.val && d.finished) = some d) :
    exec (.descriptorComplete c q slot) s = .next (completed c q d s) := by
  change execDescriptorComplete c q slot s = _
  rw [execDescriptorComplete, h]
  rfl

theorem completed_descs (c q : Nat) (d : Desc) (s : State) :
    ((completed c q d s).qp c q).descs = (s.qp c q).descs.filter fun x => x.slot != d.slot || x.gen != d.gen := by
  unfold completed
  split <;> exact finish_descs ..

/-- The oldest entry is written, and leaves the queue pair. -/
theorem exec_completionEntryWrite_room {c : Fin 1024} {q : Fin 64} {e : Cpl} {es : List Cpl} {s : State} (hcpls : (s.qp c q).cpls = e :: es)
    (hresv : (s.qp c q).resv = []) (hroom : s.cqFull c q = false) (hopen : s.hostOpen c = true) (hats : (s.fn c).atsEn = false) :
    ∃ u : State, exec (.completionEntryWrite c q) s = .next (u.qpUpd c q fun p => { p with cpls := es }) := by
  refine ⟨writeEntry c q e (cplBytes e (s.get (Fld.QP_PTR_SQ_HEAD c q)) (s.isSet (Fld.QP_STATUS_CQ_PHASE c q))
    (s.get (Fld.CTX_WFENCE_FAILS c) != 0)) s, ?_⟩
  change execCompletionEntryWrite c q s = _
  rw [execCompletionEntryWrite, hcpls]
  dsimp only
  rw [if_neg (by simp [hroom, hresv]), hostWay_go hopen hats, done]

/-! ## The statement -/

/-- Settles O21: each row by the equation of its branch; the submission head by what a fetch leaves of its ring's registers. -/
theorem doorbellsAndFetching : Obligations.DoorbellsAndFetching := by
  unfold Obligations.DoorbellsAndFetching
  refine ⟨?enable, ?cfgErr, ?disable, ?disabled, ?inactive, ?tail, ?refused, ?absent, ?fetch, ?fetchFail, ?failEntry, ?deal, ?complete, ?entry⟩
  case enable =>
    intro c q s hoff hgood
    have hregs := regsOnly_qpPlaced c q (qpStarted c q s)
    have hqp := qpPlaced_qp c q (qpStarted c q s)
    refine ⟨_, exec_qpEnable c q s, ?_⟩
    dsimp only
    rw [qpEnable_enables hoff hgood, hqp, qpStarted_qp]
    refine ⟨?_, ?_, ?_, ?_, rfl, rfl, rfl⟩
    · rw [regsOnly_get hregs (notMem_enableRegs (.inr rfl)), get_ctl_qpStarted]
    · rw [get_status_qpPlaced (statusKept_active c q), get_active_qpStarted]
    · rw [get_status_qpPlaced (statusKept_phase c q), get_phase_qpStarted]
    · rw [regsOnly_word hregs (notMem_enableRegs (.inl rfl)), qpStarted, word_setWord_same]
  case cfgErr =>
    intro c q s hoff herr
    rw [exec_qpEnable, qpEnable_error hoff herr]
  case disable =>
    intro c q s hon
    rw [exec_qpDisable, qpDisable_active hon]
  case disabled =>
    intro c q s hon
    have hapart : (Fld.QP_CTL_EN c q).Apart (Fld.QP_STATUS_EN_ACTIVE c q) := by simp [Field.Apart, Fld.QP_CTL_EN, Fld.QP_STATUS_EN_ACTIVE]
    have hctl : (s.set (Fld.QP_CTL_EN c q) 0).get (Fld.QP_CTL_EN c q) = 0 := by
      rw [get_set_same _ _ _ ⟨Nat.le_refl 0, show 0 < 32 by decide⟩, Nat.zero_mod]
    refine ⟨_, exec_qpDisable c q s, ?_⟩
    dsimp only
    rw [qpDisable_active hon]
    exact ⟨hctl, (isSet_set_apart s _ _ 0 hapart).trans hon⟩
  case inactive =>
    intro c q s hoff
    rw [exec_qpDisable, qpDisable_inactive hoff]
  case tail =>
    intro c q tail s hturn hfull hen htaken htail
    refine ⟨_, exec_doorbellWrite_hostTurn hturn hfull q _ _, ?_⟩
    dsimp only
    rw [Option.map_some, Option.map_none, doorbell_tail (s := hostNoted s) hen htaken tail.isLt]
    exact doorbellTail_qp htail
  case refused =>
    intro c q tail head s hturn hfull hen hcst hrefused
    rw [exec_doorbellWrite_hostTurn hturn hfull, doorbell_refused (s := hostNoted s) hen hcst hrefused]
  case absent =>
    intro c q tail head s hturn hfull habsent
    rw [exec_doorbellWrite_hostTurn hturn hfull, doorbell_absent (s := hostNoted s) habsent]
  case fetch =>
    intro c q data s hmay htag hats hdepth
    have hreads : RegsOnly (fetchRegs c q) s (atsUse c (BitVec.ofNat 64 (fetchAddr s c q))
        (fetchReads c (BitVec.ofNat 64 (fetchAddr s c q)) (fetchPieces s c q) s)) :=
      regsOnly_eq (regsOnly_fetchReads (regsOnly_refl _ s) _ _ _) (atsUse_regs _ _ _)
    have hview := ringView_of_regsOnly hreads
    refine ⟨_, exec_descriptorFetch_untranslated hmay htag hats data, ?_⟩
    have hfetched := ringView_fetched ((congrArg Prod.snd hview).trans_le hdepth) (fetchCount s c q) data
    rw [hview] at hfetched
    exact congrArg Prod.fst hfetched
  case fetchFail =>
    intro c q k data why p s hmay htag hp hdepth
    have hview := ringView_fetchBegun hdepth k (p.1 / 64) data why
    refine ⟨_, exec_descriptorFetchFail_piece hmay htag hp data why, ?_⟩
    have hfailed := ringView_fetchFailed ((sqDepth_of_ringView hview).trans_le hdepth) (p.2 / 64) (fetchFailStatus why)
    rw [hview, ringPassed_passed] at hfailed
    exact (congrArg Prod.fst hfailed).trans (congrArg (· % s.sqDepth c q) (Nat.add_assoc _ _ _).symm)
  case failEntry =>
    intro c q data why d s hmay htag hp hhead hop hfenced
    have hqp := qp_of_qps (fetchBegun_zero_qps c q 0 data why s) c q
    have hctx := ctx_of_ctxs (fetchBegun_zero_ctxs c q 0 data why s) c
    have hhead' : ((fetchBegun c q 0 0 data why s).qp c q).unfetched.head? = some d := by rw [hqp]; exact hhead
    have hwritten : cplWritten (passSlots c q 1 (fetchBegun c q 0 0 data why s)) c = true := by
      rw [cplWritten, passSlots, set_ctx, hctx, hop]
    refine ⟨_, exec_descriptorFetchFail_piece hmay htag (k := 0) hp data why, ?_⟩
    change ((fetchFailed c q 1 (fetchFailStatus why) (fetchBegun c q 0 0 data why s)).qp c q).cpls = _
    rw [fetchFailed_one hhead', finish_qp, endsQuiet_fetchFailed hfenced, hwritten, endEntry_fetchFailed hfenced, passSlots, set_qp, hqp]
    rfl
  case deal =>
    intro c q e d r s hnext hraw hactive hcst hrest hfree hroom hfences hweights hpass hmirror
    refine ⟨_, exec_descriptorDeal_allowed hnext hraw ⟨hactive, hcst, by simp [hrest], hfree, by simp [hroom], hfences, hweights⟩, ?_⟩
    dsimp only
    rw [dealDesc_passes hpass hmirror]
    have hmem : d ∈ ((s.inc Fld.QM_DEALT_COUNT 1).qp c q).descs := List.mem_of_find?_eq_some hnext
    exact ⟨_, mem_descs_descUpd hmem _, rfl, rfl, rfl, rfl⟩
  case complete => exact fun c q slot d s h => ⟨_, exec_descriptorComplete_finished h, completed_descs c q d s⟩
  case entry =>
    intro c q e es s hcpls hresv hroom hopen hats
    obtain ⟨u, hu⟩ := exec_completionEntryWrite_room hcpls hresv hroom hopen hats
    exact ⟨_, hu, congrArg Qp.cpls (qpUpd_qp_same ..)⟩

end Sys2Proof.Machine
end

section

/-! Aborts, spoke-engine fences and held reads of CTX_WFENCE (06 R142 to R144, R147). -/

namespace Sys2Proof.Machine

/-! ## Aborts -/

theorem exec_qpAbortGo (c : Fin 1024) (q : Fin 64) (s : State) : exec (.qpAbortGo c q) s = .next (qpAbortGo c q s) := rfl

theorem qpAbortGo_free {c q : Nat} {s : State} (h : s.get (Fld.QP_ABORT_RESULT c q) ≠ 1) :
    qpAbortGo c q s = (s.set (Fld.QP_ABORT_RESULT c q) 1).qpUpd c q fun p => { p with abort := some s.now } := by
  rw [qpAbortGo, if_neg h]

theorem qpAbortGo_pending {c q : Nat} {s : State} (h : s.get (Fld.QP_ABORT_RESULT c q) = 1) : qpAbortGo c q s = s := by
  rw [qpAbortGo, if_pos h]

/-- QP_ABORT is none of the registers that follow the queue pair. -/
theorem result_notMem_qpRegs (c q : Nat) : (Fld.QP_ABORT_RESULT c q).addr ∉ qpRegs c q := by
  simp only [qpRegs, Fld.QP_ABORT_RESULT, Fld.QP_STATUS_OUTSTANDING, Fld.CTX_OCC_OUTSTANDING, Fld.CTX_STATE_OVER_DESC, List.mem_cons,
    List.not_mem_nil, or_false]
  omega

/-- RESULT as it was set, whatever of the queue pair changes with it. -/
theorem get_result_set_qpUpd {v : Nat} (h : v < 8) (c q : Nat) (f : Qp → Qp) (s : State) :
    ((s.set (Fld.QP_ABORT_RESULT c q) v).qpUpd c q f).get (Fld.QP_ABORT_RESULT c q) = v := by
  rw [regsOnly_get (regsOnly_qpUpd (regsOnly_refl _ _) (List.Subset.refl _) f) (result_notMem_qpRegs c q),
    get_set_same _ _ _ ⟨Nat.zero_le 2, show 2 < 32 by decide⟩]
  exact Nat.mod_eq_of_lt h

theorem get_result_abortDone {v : Nat} (h : v < 8) (c q : Nat) (s : State) : (abortDone c q v s).get (Fld.QP_ABORT_RESULT c q) = v :=
  get_result_set_qpUpd h c q _ s

theorem abortDone_qp (c q v : Nat) (s : State) : (abortDone c q v s).qp c q = { s.qp c q with abort := none } := by
  rw [abortDone, qpUpd_qp_same, set_qp]

theorem exec_abortResolve_thisStroke {c : Fin 1024} {q : Fin 64} {s : State} (h : (s.qp c q).abort = some s.now) :
    exec (.abortResolve c q) s = .next (atBoundary (.abortEnd c q) s) := by
  change execAbortResolve c q s = _
  rw [execAbortResolve, if_pos h, done]

theorem exec_abortResolve_earlier {c : Fin 1024} {q : Fin 64} {v : Stroke} {s : State} (h : (s.qp c q).abort = some v) (hv : v ≠ s.now) :
    exec (.abortResolve c q) s = .next (abortResolve c q s) := by
  change execAbortResolve c q s = _
  rw [execAbortResolve, if_neg (by rw [h]; exact fun he => hv (Option.some.inj he)), done]

theorem abortResolve_reset {c q : Nat} {v : Stroke} {s : State} (h : (s.qp c q).abort = some v) (hreset : resetStamped s c v = true) :
    abortResolve c q s = abortDone c q 0 s := by
  rw [abortResolve, h]
  exact if_pos hreset

/-- What an abort does once its target is known. -/
def abortOf (c q : Nat) (v : Stroke) (s : State) : Option (Option Desc) → State
  | none => abortDone c q 4 s
  | some none => abortDone c q 3 s
  | some (some d) => if d.committedBy v then abortDone c q 3 s else abortDone c q 2 (finish c q d stAborted 0 0 (cancelDesc (keyOf c q d) s))

theorem abortResolve_target {c q : Nat} {v : Stroke} {s : State} {x : Option (Option Desc)} (h : (s.qp c q).abort = some v)
    (hreset : resetStamped s c v = false) (hx : abortTarget (s.qp c q) (s.get (Fld.QP_ABORT_TAG_TAG c q)) = x) :
    abortResolve c q s = abortOf c q v s x := by
  rw [abortResolve, h]
  dsimp only
  rw [if_neg (by rw [hreset]; decide), hx]
  cases x with
  | none => rfl
  | some x => cases x <;> rfl

/-! ## Engine fences -/

theorem exec_spokeEngineFence (e : Fin 32) (journal : Bool) (s : State) :
    exec (.spokeEngineFence e journal) s = .next (atBoundary (.engineFence e.val journal) s) := rfl

/-- The one fence of a stroke in which nothing else waits for the boundary. -/
theorem enginesFence_one {e : Nat} {journal : Bool} {s : State} (h : s.deferred = []) :
    enginesFence (atBoundary (.engineFence e journal) s) = engineFence e journal s := by
  have hs : { s with deferred := [] } = s := congrArg (fun d => { s with deferred := d }) h.symm
  simp only [enginesFence, atBoundary, h, List.nil_append, doAll, List.foldl_cons, List.foldl_nil]
  exact congrArg (engineFence e journal) hs

theorem engineFence_again {e : Nat} {s : State} (h : bitOf (s.get Fld.QM_SPOKE_FENCED_ENGINE) e = true) (journal : Bool) :
    engineFence e journal s = s := by
  rw [engineFence]
  exact if_pos h

/-- A fence in the registers of the engines: the bit, and the log with the descriptors re-dealt. -/
def fenceNoted (e : Nat) (journal : Bool) (again : Nat) (s : State) : State :=
  s |>.set Fld.QM_SPOKE_FENCED_ENGINE (orBit (s.get Fld.QM_SPOKE_FENCED_ENGINE) e)
    |>.set Fld.DEV_FAULT_STATUS_SPOKES_FENCED (popCount 32 (orBit (s.get Fld.QM_SPOKE_FENCED_ENGINE) e))
    |>.set Fld.QM_SPOKE_LOG_VALID 1 |>.set Fld.QM_SPOKE_LOG_ENGINE e |>.set Fld.QM_SPOKE_LOG_CAUSE (1 + journal.toNat)
    |>.set Fld.QM_SPOKE_LOG_REDEALT (min 65535 again) |>.set Fld.QM_SPOKE_TS_STROKE_LO s.nowLo

/-- The lowest-numbered engine but `e`. -/
def otherEngine (e : Nat) : Nat := ((List.range 32).find? fun i => !bitOf (orBit 0 e) i).getD 0

/-- What a first fence of the device does beside its registers: the descriptors that the engine held, source 248 and the event, the log
entry and the Corrected Internal Error. -/
def fenceFollowed (e : Nat) (journal : Bool) (again : Nat) (held : List (Nat × Nat × Desc)) (s : State) : State :=
  s |> doAll held (fun h s => refence h.1 h.2.1 (otherEngine e) h.2.2 s) |> raise 248 |> ctxEvent 0 3
    |> logEv 0x0010 (leBytes 1 e ++ leBytes 1 (1 + journal.toNat) ++ leBytes 2 again) |> reportCie

theorem popCount_first : ∀ e : Fin 32, popCount 32 (orBit 0 e) = 1 := by decide

theorem engineFence_first {e : Fin 32} {s : State} (h : s.get Fld.QM_SPOKE_FENCED_ENGINE = 0) (journal : Bool) : engineFence e journal s =
    fenceFollowed e journal (redealt s (heldBy s e)) (heldBy s e) (fenceNoted e journal (redealt s (heldBy s e)) s) := by
  have hfree : bitOf 0 e = false := by simp [bitOf]
  unfold engineFence
  dsimp only
  rw [h, if_neg (by rw [hfree]; decide), if_pos (popCount_first e), fenceFollowed, fenceNoted, h]
  rfl

/-- The registers of fenced engines and of their log. -/
def spokeRegs : List Nat := [Fld.QM_SPOKE_FENCED_ENGINE.addr, Fld.QM_SPOKE_LOG_ENGINE.addr]

theorem spoke_notMem_finishRegs {a : Nat} (h : a ∈ spokeRegs) (c q : Nat) : a ∉ finishRegs c q := by
  simp only [spokeRegs, Fld.QM_SPOKE_FENCED_ENGINE, Fld.QM_SPOKE_LOG_ENGINE, List.mem_cons, List.not_mem_nil, or_false] at h
  simp only [finishRegs, qpRegs, Fld.QP_STATUS_OUTSTANDING, Fld.CTX_OCC_OUTSTANDING, Fld.CTX_STATE_OVER_DESC, Fld.QM_RETRY_CNT_OK_RETRIED,
    List.cons_append, List.nil_append, List.mem_cons, List.not_mem_nil, or_false]
  omega

theorem spoke_notMem_raiseRegs {n a : Nat} (hn : n < 512) (h : a ∈ spokeRegs) : a ∉ raiseRegs n := by
  refine notMem_raiseRegs hn ?_
  simp only [spokeRegs, Fld.QM_SPOKE_FENCED_ENGINE, Fld.QM_SPOKE_LOG_ENGINE, List.mem_cons, List.not_mem_nil, or_false] at h
  omega

theorem regsOnly_refence (c q takes : Nat) (d : Desc) (s : State) : RegsOnly (finishRegs c q) s (refence c q takes d s) := by
  have hcancel : RegsOnly (finishRegs c q) s (cancelDesc (keyOf c q d) s) := regsOnly_eq (regsOnly_refl _ s) (cancelDesc_regs _ s)
  unfold refence
  split
  · exact regsOnly_refl _ s
  · dsimp only
    split
    · exact regsOnly_qpUpd hcancel (List.subset_append_left ..) _
    · exact regsOnly_finish hcancel (List.Subset.refl _) _ _ _ _
    · exact regsOnly_finish hcancel (List.Subset.refl _) _ _ _ _

/-- What follows a fence leaves the engines' registers alone. -/
theorem get_fenceFollowed {f : Field} (hf : f.addr ∈ spokeRegs) (e : Nat) (journal : Bool) (again : Nat)
    (held : List (Nat × Nat × Desc)) (s : State) : (fenceFollowed e journal again held s).get f = s.get f := by
  have hlog : f.addr ∉ [Fld.DEV_FAULT_LOG_VALID.addr, Fld.DEV_FAULT_TS_STROKE_LO.addr] := by
    simp only [spokeRegs, Fld.QM_SPOKE_FENCED_ENGINE, Fld.QM_SPOKE_LOG_ENGINE, List.mem_cons, List.not_mem_nil, or_false] at hf
    simp only [Fld.DEV_FAULT_LOG_VALID, Fld.DEV_FAULT_TS_STROKE_LO, List.mem_cons, List.not_mem_nil, or_false]
    omega
  have hevent (s : State) : (ctxEvent 0 3 s).get f = s.get f :=
    regsOnly_get (regsOnly_ctxEvent 0 3 (regsOnly_refl _ s)) (spoke_notMem_raiseRegs (by decide) hf)
  simp only [fenceFollowed]
  rw [get_reportCie _ _ (spoke_notMem_raiseRegs (by decide) hf), get_logEv _ _ _ _ hlog, hevent,
    get_raise _ _ _ (spoke_notMem_raiseRegs (by decide) hf)]
  exact doAll_same (State.get · f) _ s fun h s => regsOnly_get (regsOnly_refence h.1 h.2.1 _ h.2.2 s) (spoke_notMem_finishRegs hf _ _)

theorem get_fenced_fenceNoted {s : State} (h : s.get Fld.QM_SPOKE_FENCED_ENGINE = 0) (e : Fin 32) (journal : Bool) (again : Nat) :
    (fenceNoted e journal again s).get Fld.QM_SPOKE_FENCED_ENGINE = 2 ^ e.val := by
  have hbit : orBit 0 e = 2 ^ e.val := by simp [orBit, bitOf]
  have hlt : 2 ^ e.val < 2 ^ 32 := Nat.pow_lt_pow_right (by decide) e.isLt
  rw [fenceNoted, get_set_apart _ _ _ _ (by decide), get_set_apart _ _ _ _ (by decide), get_set_apart _ _ _ _ (by decide),
    get_set_apart _ _ _ _ (by decide), get_set_apart _ _ _ _ (by decide), get_set_apart _ _ _ _ (by decide),
    get_set_same _ _ _ (by decide), h, hbit]
  exact Nat.mod_eq_of_lt hlt

theorem get_engine_fenceNoted (e : Fin 32) (journal : Bool) (again : Nat) (s : State) :
    (fenceNoted e journal again s).get Fld.QM_SPOKE_LOG_ENGINE = e := by
  rw [fenceNoted, get_set_apart _ _ _ _ (by decide), get_set_apart _ _ _ _ (by decide), get_set_apart _ _ _ _ (by decide),
    get_set_same _ _ _ (by decide)]
  exact Nat.mod_eq_of_lt e.isLt

theorem get_cause_fenceNoted (e : Nat) (journal : Bool) (again : Nat) (s : State) :
    (fenceNoted e journal again s).get Fld.QM_SPOKE_LOG_CAUSE = 1 + journal.toNat := by
  rw [fenceNoted, get_set_apart _ _ _ _ (by decide), get_set_apart _ _ _ _ (by decide), get_set_same _ _ _ (by decide)]
  cases journal <;> rfl

theorem engineFence_deferred (e : Nat) (journal : Bool) (s : State) : (engineFence e journal s).deferred = s.deferred :=
  (keeps_engineFence (w := 0x10225AF3AB) e journal rfl (keeps_refl _ s)).same .deferred rfl

/-! ## Held reads of CTX_WFENCE -/

theorem exec_ctxWfenceRead_hostOpen {c : Fin 1024} {s : State} (h : HostOpen s) :
    exec (.ctxWfenceRead c) s = .next (wfenceRead c 15 (hostNoted s)) := by
  change execCtxWfenceRead c s = _
  rw [execCtxWfenceRead, hostTlp_of_hostOpen h, done]

theorem wfence_wfenceRead (c be : Nat) (s : State) : ((wfenceRead c be s).ctx c).wfence = (s.ctx c).wfence ++ [heldNow s c be none] := by
  rw [wfenceRead, ctxUpd_same]

theorem exec_ctxWfenceReturn_done {c : Fin 1024} {r : HeldRead} {rs : List HeldRead} {s : State} (h : (s.ctx c).wfence = r :: rs)
    (hdone : fenceDone s c r = true) : exec (.ctxWfenceReturn c) s = .next (wfenceReturn c false r s) := by
  change execCtxWfenceReturn c s = _
  rw [execCtxWfenceReturn, h]
  dsimp only
  rw [if_pos hdone, done]

theorem exec_ctxWfenceTimeout_late {c : Fin 1024} {r : HeldRead} {rs : List HeldRead} {s : State} (h : (s.ctx c).wfence = r :: rs)
    (hdone : fenceDone s c r = false) (hlate : heldLimit ≤ s.since r.since) :
    exec (.ctxWfenceTimeout c) s = .next (wfenceReturn c true r s) := by
  change execCtxWfenceTimeout c s = _
  rw [execCtxWfenceTimeout, h]
  dsimp only
  rw [if_pos ⟨hlate, by rw [hdone]; decide⟩, done]

/-- CTX_WFENCE is cleared and its oldest held read is no longer held. -/
def wfenceCleared (c : Nat) (incomplete : Bool) (s : State) : State :=
  s |>.set (Fld.CTX_WFENCE_FAILS c) 0 |>.set (Fld.CTX_WFENCE_INCOMPLETE c) incomplete.toNat
    |>.ctxUpd c fun x => { x with wfence := x.wfence.drop 1 }

/-- A read of CTX_WFENCE alone is answered at once. -/
theorem wfenceReturn_alone {r : HeldRead} (h : r.rest = none) (c : Nat) (incomplete : Bool) (s : State) : wfenceReturn c incomplete r s =
    emit (.cpl c 0 (r.pre ++ enabledBytes r.be (leBytes 4 (incomplete.toNat * 2 ^ 31 + s.get (Fld.CTX_WFENCE_FAILS c)))))
      (wfenceCleared c incomplete s) := by
  simp only [wfenceReturn, heldAnswer, h, wfenceCleared]

theorem get_fails_wfenceCleared (c : Nat) (incomplete : Bool) (s : State) :
    (wfenceCleared c incomplete s).get (Fld.CTX_WFENCE_FAILS c) = 0 := by
  have happart : (Fld.CTX_WFENCE_INCOMPLETE c).Apart (Fld.CTX_WFENCE_FAILS c) := by
    simp [Field.Apart, Fld.CTX_WFENCE_INCOMPLETE, Fld.CTX_WFENCE_FAILS]
  rw [wfenceCleared, ctxUpd_get, get_set_apart _ _ _ _ happart, get_set_same _ _ _ ⟨Nat.zero_le 15, show 15 < 32 by decide⟩, Nat.zero_mod]

theorem wfence_wfenceCleared {c : Nat} {r : HeldRead} {rs : List HeldRead} {s : State} (h : (s.ctx c).wfence = r :: rs) (incomplete : Bool) :
    ((wfenceCleared c incomplete s).ctx c).wfence = rs := by
  rw [wfenceCleared, ctxUpd_same, set_ctx, set_ctx, h, List.drop_one, List.tail_cons]

/-- The answer of the oldest held read, what it clears, and the reads that stay held. -/
theorem wfenceReturn_answers {c : Nat} {r : HeldRead} {rs : List HeldRead} {s : State} (h : (s.ctx c).wfence = r :: rs) (hrest : r.rest = none)
    (incomplete : Bool) : ((wfenceReturn c incomplete r s).ctx c).wfence = rs ∧
      (wfenceReturn c incomplete r s).get (Fld.CTX_WFENCE_FAILS c) = 0 ∧ (wfenceReturn c incomplete r s).out.head? =
        some (.cpl c 0 (r.pre ++ enabledBytes r.be (leBytes 4 (incomplete.toNat * 2 ^ 31 + s.get (Fld.CTX_WFENCE_FAILS c))))) := by
  rw [wfenceReturn_alone hrest, emit_ctx, emit_get, emit_out, List.head?_cons]
  exact ⟨wfence_wfenceCleared h incomplete, get_fails_wfenceCleared c incomplete s, rfl⟩

/-! ## The statement -/

/-- Settles O23: aborts by the equation of what their target says, the first fence of an engine by what follows it and leaves its registers
alone, a held read by its answer. -/
theorem abortsEngineFencesAndWfence : Obligations.AbortsEngineFencesAndWfence := by
  unfold Obligations.AbortsEngineFencesAndWfence
  refine ⟨?go, ?goPending, ?atEnd, ?earlier, ?reset, ?noTarget, ?ended, ?committed, ?aborted, ?fenceMark, ?firstFence, ?fenceAgain, ?read,
    ?answer, ?timeout⟩
  case go =>
    intro c q s h
    refine ⟨_, exec_qpAbortGo c q s, ?_⟩
    rw [qpAbortGo_free h]
    exact ⟨get_result_set_qpUpd (by decide) c q _ s, by rw [qpUpd_qp_same]⟩
  case goPending =>
    intro c q s h
    rw [exec_qpAbortGo, qpAbortGo_pending h]
  case atEnd => exact fun c q s h => exec_abortResolve_thisStroke h
  case earlier => exact fun c q v s h hv => exec_abortResolve_earlier h hv
  case reset =>
    intro c q v s h hreset
    rw [abortResolve_reset h hreset, abortDone_qp]
    exact ⟨get_result_abortDone (by decide) c q s, rfl, rfl⟩
  case noTarget =>
    intro c q v s h hreset htarget
    rw [abortResolve_target h hreset htarget, abortOf, abortDone_qp]
    exact ⟨get_result_abortDone (by decide) c q s, rfl, rfl⟩
  case ended =>
    intro c q v s h hreset htarget
    rw [abortResolve_target h hreset htarget, abortOf, abortDone_qp]
    exact ⟨get_result_abortDone (by decide) c q s, rfl, rfl⟩
  case committed =>
    intro c q v d s h hreset htarget hcommit
    rw [abortResolve_target h hreset htarget, abortOf, if_pos hcommit, abortDone_qp]
    exact ⟨get_result_abortDone (by decide) c q s, rfl, rfl⟩
  case aborted =>
    intro c q v d s h hreset htarget hcommit
    rw [abortResolve_target h hreset htarget, abortOf, if_neg (by rw [hcommit]; decide), abortDone_qp]
    refine ⟨get_result_abortDone (by decide) c q _, rfl, ?_⟩
    dsimp only
    rw [finish_descs, qp_of_qps (cancelDesc_qps _ s)]
  case fenceMark => exact fun e journal s => exec_spokeEngineFence e journal s
  case firstFence =>
    intro e journal s hnone hquiet
    refine ⟨_, exec_spokeEngineFence e journal s, ?_⟩
    dsimp only
    rw [enginesFence_one hquiet, engineFence_deferred, hquiet, engineFence_first hnone, get_fenceFollowed (by decide), get_fenceFollowed (by decide),
      get_fenceFollowed (by decide)]
    exact ⟨get_fenced_fenceNoted hnone e journal _, get_engine_fenceNoted e journal _ s, get_cause_fenceNoted e journal _ s, rfl⟩
  case fenceAgain =>
    intro e journal s hbit hquiet
    exact ⟨_, exec_spokeEngineFence e journal s, (enginesFence_one hquiet).trans (engineFence_again hbit journal)⟩
  case read =>
    intro c s h
    exact ⟨_, exec_ctxWfenceRead_hostOpen h, wfence_wfenceRead c 15 (hostNoted s)⟩
  case answer =>
    intro c r rs s h hdone hrest
    have hanswer := wfenceReturn_answers h hrest false
    rw [Bool.toNat_false, Nat.zero_mul, Nat.zero_add] at hanswer
    exact ⟨_, exec_ctxWfenceReturn_done h hdone, hanswer⟩
  case timeout =>
    intro c r rs s h hdone hlate hrest
    have hanswer := wfenceReturn_answers h hrest true
    rw [Bool.toNat_true, Nat.one_mul] at hanswer
    exact ⟨_, exec_ctxWfenceTimeout_late h hdone hlate, hanswer⟩

end Sys2Proof.Machine
end

section

/-! The cadence tables after a system reset (O9). -/

namespace Sys2Proof.Machine

theorem coldReset_cad (s : State) : (coldReset s).cad = {} := rfl

theorem systemReset_cad (stop : Nat) (s : State) : (systemReset stop s).cad = {} := by
  unfold systemReset
  dsimp only
  iterate 5 rw [set_cad]

theorem rstByPin_cad (stop : Nat) (s : State) : (rstByPin stop s).cad = {} := by
  rw [rstByPin, set_cad, systemReset_cad]

/-- A cadence table that nothing has written reads C2 in every slot (07 R161). -/
theorem list_of_cad_reset {s : State} (h : s.cad = {}) (k : Nat) : s.list k = List.replicate (slotsOf (k % 4)) 0x02 := by
  rw [State.list, h]
  rfl

/-- Settles O9: both resets leave the tables of the cadence unwritten, and an unwritten list reads C2 throughout. -/
theorem tablesHoldNoReservationAfterReset : Obligations.TablesHoldNoReservationAfterReset := by
  unfold Obligations.TablesHoldNoReservationAfterReset
  refine ⟨?cold, ?pin⟩
  case cold => exact fun k s => ⟨_, exec_coldPowerOnReset s, list_of_cad_reset (coldReset_cad s) k⟩
  case pin =>
    intro k s hrst hsupplies hmode hdirty
    exact ⟨_, exec_sysRstNAssertion_clean hrst hsupplies hmode hdirty, list_of_cad_reset (rstByPin_cad _ _) k⟩

end Sys2Proof.Machine
end

section

/-! Level changes, the steps of VID and the forced throttle step (O14). -/

namespace Sys2Proof.Machine

/-! ## The order of a level -/

/-- A level may be ordered: no change is in progress and the device is awake, runs its firmware and is not in PRESERVE (17 R419, 18 R441). -/
structure MayOrder (s : State) : Prop where
  chg : s.pwr.chg = none
  awake : s.awake = true
  restarting : s.restarting = false
  mode : s.mode ≠ .preserve

/-- The effective level that the ordered level gives under the thermal cap. -/
def State.orderedLevel (s : State) (ordered : Nat) : Nat := effective ordered (s.get Fld.CRP_LEVEL_CAP) s.fwLevel

theorem MayOrder.not_barred {s : State} (h : MayOrder s) :
    ¬ (s.pwr.chg.isSome = true ∨ ¬ s.awake = true ∨ s.restarting = true ∨ s.mode = .preserve) := by
  simp [h.chg, h.awake, h.restarting, h.mode]

theorem exec_levelChangeOrder_idle {s : State} (h : MayOrder s) (hwant : s.pwr.want = none) :
    exec (.levelChangeOrder none) s = .next (levelOrder (s.orderedLevel (s.get Fld.CRP_LEVEL_ORDERED)) 3 none none none none s) := by
  change execLevelChangeOrder none s = _
  unfold execLevelChangeOrder
  rw [hwant]
  exact congrArg done (if_neg h.not_barred)

theorem exec_levelChangeOrder_wanted {s : State} (h : MayOrder s) {l src id : Nat} (hwant : s.pwr.want = some (l, src, id)) :
    exec (.levelChangeOrder none) s =
      .next (levelOrder (s.orderedLevel l) src (some id) (some l) none none (s.pwrUpd fun p => { p with want := none })) := by
  change execLevelChangeOrder none s = _
  unfold execLevelChangeOrder
  rw [hwant]
  exact congrArg done (if_neg h.not_barred)

theorem exec_levelChangeOrder_firmware {s : State} (h : MayOrder s) (l : Fin 4) (hmay : fwMayOrder s l = true) :
    exec (.levelChangeOrder (some l)) s = .next (s.pwrUpd fun p => { p with fwWant := some (.level l) }) := by
  refine congrArg done ((if_neg h.not_barred).trans ?_)
  dsimp only
  rw [hmay, doIf_true]

/-- A change to a lower voltage, which VID follows only after it (17 R418). -/
theorem levelOrder_lower {target : Nat} {s : State} (h : s.level < target) (src : Nat) :
    levelOrder target src none none none none s = s.pwrUpd fun p => { p with chg := some { target, src, r := s.now, b := s.now + 41 } } := by
  have hnot : ¬ target < s.level := Nat.lt_asymm h
  simp [levelOrder, startChange, hnot, Nat.ne_of_gt h]

theorem levelOrder_same {target id l : Nat} {s : State} (h : target = s.level) (src : Nat) :
    levelOrder target src (some id) (some l) none none s = cmdDone id 0 (leBytes 6 0) (s.set Fld.CRP_LEVEL_ORDERED l) := by
  simp [levelOrder, levelSame, takeLevel, h]

/-! ## Registers of a level -/

theorem setLevel_now (l : Nat) (s : State) : (setLevel l s).now = s.now :=
  (keeps_setLevel (w := 0x102002D3AB) l rfl (keeps_refl _ s)).same .now rfl

theorem takeLevel_now (ordered cap fw : Option Nat) (s : State) : (takeLevel ordered cap fw s).now = s.now :=
  (keeps_takeLevel (w := 0x20000008) ordered cap fw rfl (keeps_refl _ s)).same .now rfl

/-- The registers of a level before the reservations follow. -/
def levelShown (l : Nat) (s : State) : State := ((s.set Fld.CRP_LEVEL_CUR l).set Fld.CAD_STATUS_LEVEL l).inc Fld.CRP_LEVEL_CHANGES 1

/-- The reservations and source 13 reach no other register than their own. -/
theorem get_setLevel (l : Nat) (s : State) {f : Field} (h : f.addr ∉ rsvRegs ++ raiseRegs 13) : (setLevel l s).get f = (levelShown l s).get f := by
  rw [List.mem_append, not_or] at h
  exact (get_raise 13 _ f h.2).trans (regsOnly_get (regsOnly_updRsv _) h.1)

theorem get_setLevel_apart (l : Nat) (s : State) {f : Field} (h : f.addr ∉ rsvRegs ++ raiseRegs 13)
    (hf : ∀ g ∈ [Fld.CRP_LEVEL_CUR, Fld.CAD_STATUS_LEVEL, Fld.CRP_LEVEL_CHANGES], g.Apart f) : (setLevel l s).get f = s.get f := by
  simp only [List.forall_mem_cons, List.not_mem_nil, false_imp_iff, implies_true, and_true] at hf
  obtain ⟨hcur, hlevel, hchanges⟩ := hf
  rw [get_setLevel l s h, levelShown, get_inc_apart _ _ _ _ hchanges, get_set_apart _ _ _ _ hlevel, get_set_apart _ _ _ _ hcur]

theorem get_cur_setLevel {l : Nat} (h : l < 4) (s : State) : (setLevel l s).get Fld.CRP_LEVEL_CUR = l := by
  rw [get_setLevel l s (by decide), levelShown, get_inc_apart _ _ _ _ (by decide), get_set_apart _ _ _ _ (by decide), get_set_same _ _ _ (by decide)]
  exact Nat.mod_eq_of_lt h

theorem get_level_setLevel {l : Nat} (h : l < 4) (s : State) : (setLevel l s).get Fld.CAD_STATUS_LEVEL = l := by
  rw [get_setLevel l s (by decide), levelShown, get_inc_apart _ _ _ _ (by decide), get_set_same _ _ _ (by decide)]
  exact Nat.mod_eq_of_lt h

/-- The fields that an accepted change brings beside the level. -/
def takenFields : List Field := [Fld.CRP_LEVEL_ORDERED, Fld.CRP_LEVEL_CAP, Fld.CRP_THROTTLE_CNT_STEPS, Fld.CAD_STATUS_THROTTLE_PEND]

/-- What ends with a cap moved down a level: the throttle step that waits, counted (07 R169). -/
def stepTaken (s : State) : State :=
  ((s.inc Fld.CRP_THROTTLE_CNT_STEPS 1).set Fld.CAD_STATUS_THROTTLE_PEND 0).pwrUpd fun p => { p with refusedAt := none }

theorem get_stepTaken (s : State) {f : Field} (hsteps : Fld.CRP_THROTTLE_CNT_STEPS.Apart f) (hpend : Fld.CAD_STATUS_THROTTLE_PEND.Apart f) :
    (stepTaken s).get f = s.get f := by
  rw [stepTaken, pwrUpd_get, get_set_apart _ _ _ _ hpend, get_inc_apart _ _ _ _ hsteps]

/-- The ordered level that a change brings, where it brings one. -/
def orderedTaken (ordered : Option Nat) (s : State) : State := match ordered with | some l => s.set Fld.CRP_LEVEL_ORDERED l | none => s

/-- The thermal cap that a change brings, where it brings one. -/
def capTaken (cap : Option Nat) (s : State) : State :=
  match cap with
  | some l => doIf (decide (s.get Fld.CRP_LEVEL_CAP < l)) stepTaken (s.set Fld.CRP_LEVEL_CAP l)
  | none => s

/-- The firmware level that a change brings, where it brings one. -/
def fwTaken (fw : Option Nat) (s : State) : State := match fw with | some l => s.pwrUpd (fun p => { p with fw := l }) | none => s

theorem takeLevel_eq (ordered cap fw : Option Nat) (s : State) :
    takeLevel ordered cap fw s = fwTaken fw (capTaken cap (orderedTaken ordered s)) := rfl

theorem get_orderedTaken (ordered : Option Nat) (s : State) {f : Field} (h : Fld.CRP_LEVEL_ORDERED.Apart f) :
    (orderedTaken ordered s).get f = s.get f := by
  cases ordered with
  | none => rfl
  | some l => exact get_set_apart _ _ _ _ h

theorem get_capTaken (cap : Option Nat) (s : State) {f : Field} (hcap : Fld.CRP_LEVEL_CAP.Apart f) (hsteps : Fld.CRP_THROTTLE_CNT_STEPS.Apart f)
    (hpend : Fld.CAD_STATUS_THROTTLE_PEND.Apart f) : (capTaken cap s).get f = s.get f := by
  cases cap with
  | none => rfl
  | some l =>
    unfold capTaken
    dsimp only
    rw [doIf_same (State.get · f) _ _ fun s => get_stepTaken s hsteps hpend, get_set_apart _ _ _ _ hcap]

theorem fwTaken_get (fw : Option Nat) (s : State) (f : Field) : (fwTaken fw s).get f = s.get f := by
  cases fw <;> rfl

theorem get_takeLevel (ordered cap fw : Option Nat) (s : State) {f : Field} (h : ∀ g ∈ takenFields, g.Apart f) :
    (takeLevel ordered cap fw s).get f = s.get f := by
  simp only [takenFields, List.forall_mem_cons, List.not_mem_nil, false_imp_iff, implies_true, and_true] at h
  obtain ⟨hordered, hcap, hsteps, hpend⟩ := h
  rw [takeLevel_eq, fwTaken_get, get_capTaken _ _ hcap hsteps hpend, get_orderedTaken _ _ hordered]

theorem takeLevel_lowerCap {cap : Nat} {s : State} (h : s.get Fld.CRP_LEVEL_CAP < cap) :
    takeLevel none (some cap) none s = stepTaken (s.set Fld.CRP_LEVEL_CAP cap) := by
  change doIf (decide (s.get Fld.CRP_LEVEL_CAP < cap)) stepTaken (s.set Fld.CRP_LEVEL_CAP cap) = _
  rw [decide_eq_true h, doIf_true]

theorem vidRest_get (c : LevelChange) (b : Stroke) (s : State) (f : Field) : (vidRest c b s).get f = s.get f := rfl

theorem vidMove_get (down : Bool) (s : State) (f : Field) : (vidMove down s).get f = s.get f := rfl

theorem vidMove_now (down : Bool) (s : State) : (vidMove down s).now = s.now := rfl

/-! ## Stroke B -/

theorem exec_levelSwitch_due {c : LevelChange} {s : State} (h : switchDue s = some c) : exec .levelSwitch s = .next (atBoundary .levelNow s) := by
  change execLevelSwitch s = _
  simp [execLevelSwitch, h, done]

/-- An accepted change, before its command completes. -/
def levelTaken (c : LevelChange) (s : State) : State :=
  vidRest c c.b (doIf (decide (s.level < c.target)) (vidMove true) (takeLevel c.ordered c.cap c.fw (setLevel c.target s)))

/-- The command that ordered a change, where one did, ends. -/
def changeEnds (cmd : Option Nat) (code : Nat) (res : List Byte) (s : State) : State :=
  match cmd with
  | some id => cmdDone id code res s
  | none => s

theorem levelSwitch_taken {c : LevelChange} {s : State} (h : levelErr s c.target = none) :
    levelSwitch c s = changeEnds c.cmd 0 (leBytes 6 c.b.toNat) (levelTaken c s) := by
  unfold levelSwitch
  rw [h]
  rfl

theorem get_levelTaken (c : LevelChange) (s : State) {f : Field} (h : ∀ g ∈ takenFields, g.Apart f) :
    (levelTaken c s).get f = (setLevel c.target s).get f := by
  rw [levelTaken, vidRest_get, doIf_same (State.get · f) _ _ fun s => vidMove_get true s f, get_takeLevel _ _ _ _ h]

theorem levels_levelTaken {c : LevelChange} (h : c.target < 4) (s : State) :
    (levelTaken c s).get Fld.CRP_LEVEL_CUR = c.target ∧ (levelTaken c s).get Fld.CAD_STATUS_LEVEL = c.target := by
  rw [get_levelTaken c s (by decide), get_levelTaken c s (by decide)]
  exact ⟨get_cur_setLevel h s, get_level_setLevel h s⟩

theorem levelTaken_now (c : LevelChange) (s : State) : (levelTaken c s).now = s.now := by
  change (doIf _ (vidMove true) _).now = _
  rw [doIf_same State.now _ _ (vidMove_now true), takeLevel_now, setLevel_now]

/-- A refused throttle step waits, from its first refusal on (07 R169). -/
def stepWaits (c : LevelChange) (s : State) : State :=
  (s.set Fld.CAD_STATUS_THROTTLE_PEND 1).pwrUpd fun p => { p with refusedAt := some (p.refusedAt.getD c.b) }

/-- A change that brings the cap a higher level number is a throttle step. -/
def isThrottle (c : LevelChange) (s : State) : Bool :=
  match c.cap with
  | some l => decide (s.get Fld.CRP_LEVEL_CAP < l)
  | none => false

/-- A refused change moves VID back where it had begun to follow (17 R418). -/
def vidBack (c : LevelChange) (s : State) : State :=
  s.pwrUpd fun p => { p with chg := if s.dev.vid.toNat = vidOf s.level then none else some { c with refused := true, vidAt := some c.b } }

/-- A refused change, logged. -/
def levelLogged (c : LevelChange) (e : Bool × Nat × Nat × Nat) (s : State) : State := levelLog c.src c.target e.1 e.2.1 e.2.2.1 e.2.2.2 s

/-- A refused change, before its command completes. -/
def levelHeld (c : LevelChange) (e : Bool × Nat × Nat × Nat) (s : State) : State :=
  vidBack c (doIf (isThrottle c (levelLogged c e s)) (stepWaits c) (levelLogged c e s))

theorem levelSwitch_refused {c : LevelChange} {e : Bool × Nat × Nat × Nat} {s : State} (h : levelErr s c.target = some e) :
    levelSwitch c s = changeEnds c.cmd 0x0A (leBytes 4 ((levelHeld c e s).word Adr.CAD_LEVEL_LOG).toNat) (levelHeld c e s) := by
  unfold levelSwitch
  rw [h]
  rfl

theorem vidBack_get (c : LevelChange) (s : State) (f : Field) : (vidBack c s).get f = s.get f := rfl

theorem get_stepWaits (c : LevelChange) (s : State) {f : Field} (h : Fld.CAD_STATUS_THROTTLE_PEND.Apart f) : (stepWaits c s).get f = s.get f := by
  rw [stepWaits, pwrUpd_get, get_set_apart _ _ _ _ h]

/-- The fields of the log of refused level changes lie in one register. -/
theorem regsOnly_levelLog (src l : Nat) (up : Bool) (cls needed avail : Nat) (s : State) :
    RegsOnly (Adr.CAD_LEVEL_LOG :: raiseRegs 258) s (levelLog src l up cls needed avail s) := by
  unfold levelLog
  refine regsOnly_raiseIn ?_ fun a ha => List.mem_cons_of_mem _ ha
  refine regsOnly_set (regsOnly_set (regsOnly_set (regsOnly_set (regsOnly_set (regsOnly_set (regsOnly_set
    (regsOnly_setWord (regsOnly_refl _ s) _ ?_) _ ?_) _ ?_) _ ?_) _ ?_) _ ?_) _ ?_) _ ?_ <;> exact List.mem_cons_self

theorem get_levelHeld (c : LevelChange) (e : Bool × Nat × Nat × Nat) (s : State) {f : Field} (hf : f.addr ∉ Adr.CAD_LEVEL_LOG :: raiseRegs 258)
    (hpend : Fld.CAD_STATUS_THROTTLE_PEND.Apart f) : (levelHeld c e s).get f = s.get f := by
  rw [levelHeld, vidBack_get, doIf_same (State.get · f) _ _ fun s => get_stepWaits c s hpend, levelLogged, 
    regsOnly_get (regsOnly_levelLog _ _ _ _ _ _ _) hf]

/-! ## Steps of VID -/

theorem exec_vidStep_due {c : LevelChange} {at_ : Stroke} {s : State} (hchg : s.pwr.chg = some c) (hat : c.vidAt = some at_)
    (hreached : s.reached at_ = true) (hmode : s.mode ≠ .preserve) : exec .vidStep s = .next (vidStep c s) := by
  change execVidStep s = _
  simp [execVidStep, hchg, hat, hreached, hmode, done]

/-- Before B a change toward a higher voltage moves VID up one level. -/
theorem vidStep_up {c : LevelChange} {s : State} (hswitched : c.switched = false) (hrefused : c.refused = false)
    (hroom : s.dev.vid.toNat < vidOf c.target) : ∃ next, vidStep c s = (vidMove false s).pwrUpd fun p => { p with chg := next } := by
  have hne : s.dev.vid.toNat ≠ s.dev.vid.toNat + 8 := by omega
  simp only [vidStep, hswitched, hrefused, Bool.or_self, Bool.false_eq_true, if_false, hroom, if_true]
  rw [bne_iff_ne.mpr hne, doIf_true, decide_eq_false (by omega)]
  exact ⟨_, rfl⟩

/-! ## A throttle step without the check -/

/-- The C0 slots are overcommitted, which R169 allows a forced step. -/
def overcommitted (s : State) : State := raise 259 (s.set Fld.CAD_STATUS_C0_OVERCOMMIT 1)

/-- The level and the cap of a forced step to `target`, and its count. -/
def stepForced (target : Nat) (s : State) : State :=
  (takeLevel none (some (s.get Fld.CRP_LEVEL_CAP + 1)) none (setLevel target s)).inc Fld.CRP_THROTTLE_CNT_FORCED 1

/-- The forced step to `target`, before VID follows it. -/
def throttleForced (target : Nat) (s : State) : State := doIf (levelErr s target).isSome overcommitted (stepForced target s)

/-- VID follows a forced step. -/
def vidFollows (c : LevelChange) (s : State) : State := vidRest c s.now ((vidMove true s).pwrUpd fun p => { p with chg := some c })

theorem vidFollows_get (c : LevelChange) (s : State) (f : Field) : (vidFollows c s).get f = s.get f := rfl

theorem vidFollows_vid (c : LevelChange) (s : State) : (vidFollows c s).dev.vid = s.dev.vid - 8 := rfl

theorem exec_throttleGraceExpiry_due {at_ : Stroke} {s : State} (h : MayOrder s) (hat : s.pwr.refusedAt = some at_)
    (hpend : s.isSet Fld.CAD_STATUS_THROTTLE_PEND = true) (hgrace : s.get Fld.CAD_THROTTLE_GRACE ≠ 0)
    (hreached : s.reached (at_ + BitVec.ofNat 48 (s.get Fld.CAD_THROTTLE_GRACE)) = true) (hcap : s.get Fld.CRP_LEVEL_CAP < 3) {target : Nat}
    (htarget : target = effective (s.get Fld.CRP_LEVEL_ORDERED) (s.get Fld.CRP_LEVEL_CAP + 1) s.fwLevel) (hlower : s.level < target) :
    exec .throttleGraceExpiry s = .next (vidFollows { target, src := 2, r := s.now, b := s.now } (throttleForced target s)) := by
  subst htarget
  have hle : s.get Fld.CRP_LEVEL_CAP + 1 ≤ 3 := hcap
  have hdue : (s.isSet Fld.CAD_STATUS_THROTTLE_PEND && s.get Fld.CAD_THROTTLE_GRACE != 0 &&
      s.reached (at_ + BitVec.ofNat 48 (s.get Fld.CAD_THROTTLE_GRACE))) = true := by
    rw [hpend, bne_iff_ne.mpr hgrace, hreached]
    rfl
  change execThrottleGraceExpiry s = _
  unfold execThrottleGraceExpiry
  rw [hat, h.chg]
  dsimp only
  rw [if_pos ⟨hdue, rfl, hle, h.awake, ne_true_of_eq_false h.restarting, h.mode⟩, decide_eq_true hlower]
  rfl

theorem get_overcommitted (s : State) {f : Field} (hf : f.addr ∉ raiseRegs 259) (hover : Fld.CAD_STATUS_C0_OVERCOMMIT.Apart f) :
    (overcommitted s).get f = s.get f := by
  rw [overcommitted, get_raise _ _ _ hf, get_set_apart _ _ _ _ hover]

theorem get_throttleForced (target : Nat) (s : State) {f : Field} (hf : f.addr ∉ raiseRegs 259) (hover : Fld.CAD_STATUS_C0_OVERCOMMIT.Apart f) :
    (throttleForced target s).get f = (stepForced target s).get f := by
  rw [throttleForced, doIf_same (State.get · f) _ _ fun s => get_overcommitted s hf hover]

theorem get_cap_setLevel (l : Nat) (s : State) : (setLevel l s).get Fld.CRP_LEVEL_CAP = s.get Fld.CRP_LEVEL_CAP :=
  get_setLevel_apart l s (by decide) (by decide)

/-- The cap that a forced step finds is one below its own. -/
theorem stepForced_eq (target : Nat) (s : State) : stepForced target s =
    (stepTaken ((setLevel target s).set Fld.CRP_LEVEL_CAP (s.get Fld.CRP_LEVEL_CAP + 1))).inc Fld.CRP_THROTTLE_CNT_FORCED 1 := by
  have hlower : (setLevel target s).get Fld.CRP_LEVEL_CAP < s.get Fld.CRP_LEVEL_CAP + 1 := by
    rw [get_cap_setLevel]
    exact Nat.lt_succ_self _
  rw [stepForced, takeLevel_lowerCap hlower]

theorem get_cap_throttleForced {s : State} (h : s.get Fld.CRP_LEVEL_CAP < 3) (target : Nat) :
    (throttleForced target s).get Fld.CRP_LEVEL_CAP = s.get Fld.CRP_LEVEL_CAP + 1 := by
  rw [get_throttleForced _ _ (by decide) (by decide), stepForced_eq, get_inc_apart _ _ _ _ (by decide), get_stepTaken _ (by decide) (by decide),
    get_set_same _ _ _ (by decide)]
  exact Nat.mod_eq_of_lt (Nat.succ_lt_succ h)

theorem get_cur_throttleForced {target : Nat} (h : target < 4) (s : State) : (throttleForced target s).get Fld.CRP_LEVEL_CUR = target := by
  rw [get_throttleForced _ _ (by decide) (by decide), stepForced, get_inc_apart _ _ _ _ (by decide), get_takeLevel _ _ _ _ (by decide),
    get_cur_setLevel h]

theorem get_pend_throttleForced (target : Nat) (s : State) : (throttleForced target s).get Fld.CAD_STATUS_THROTTLE_PEND = 0 := by
  rw [get_throttleForced _ _ (by decide) (by decide), stepForced_eq, get_inc_apart _ _ _ _ (by decide), stepTaken, pwrUpd_get,
    get_set_same _ _ _ (by decide), Nat.zero_mod]

theorem get_forced_throttleForced (target : Nat) (s : State) : (throttleForced target s).get Fld.CRP_THROTTLE_CNT_FORCED =
    min Fld.CRP_THROTTLE_CNT_FORCED.max (s.get Fld.CRP_THROTTLE_CNT_FORCED + 1) := by
  rw [get_throttleForced _ _ (by decide) (by decide), stepForced, get_inc_same _ _ _ (by decide), get_takeLevel _ _ _ _ (by decide),
    get_setLevel_apart _ _ (by decide) (by decide)]

theorem vid_of_steady {s t : State} (h : steady t = steady s) : t.dev.vid = s.dev.vid :=
  show (steadyDev t).vid = (steadyDev s).vid from congrArg Dev.vid (dev_of_steady h)

theorem raise_vid (n : Nat) (s : State) : (raise n s).dev.vid = s.dev.vid := vid_of_steady (steady_raise n s)

theorem updUlShort_vid (k : Nat) (s : State) : (updUlShort k s).dev.vid = s.dev.vid := by
  unfold updUlShort
  dsimp only
  rw [doIf_same (fun s => s.dev.vid) _ _ (raise_vid _), set_dev]

theorem updRsv_vid (s : State) : (updRsv s).dev.vid = s.dev.vid := by
  unfold updRsv
  dsimp only
  rw [doAll_same (fun s => s.dev.vid) _ _ updUlShort_vid, vid_of_steady (steady_updC0Short _), setWord_dev, setWord_dev, set_dev, set_dev, set_dev,
    set_dev]

theorem setLevel_vid (l : Nat) (s : State) : (setLevel l s).dev.vid = s.dev.vid := by
  rw [setLevel, raise_vid, updRsv_vid, inc_dev, set_dev, set_dev]

theorem overcommitted_vid (s : State) : (overcommitted s).dev.vid = s.dev.vid := by
  rw [overcommitted, raise_vid, set_dev]

theorem stepTaken_dev (s : State) : (stepTaken s).dev = s.dev := by
  rw [stepTaken, pwrUpd_dev, set_dev, inc_dev]

theorem throttleForced_vid (target : Nat) (s : State) : (throttleForced target s).dev.vid = s.dev.vid := by
  rw [throttleForced, doIf_same (fun s => s.dev.vid) _ _ overcommitted_vid, stepForced_eq, inc_dev, stepTaken_dev, set_dev, setLevel_vid]

end Sys2Proof.Machine
end

section

/-! The thermal policy, and what a refresh leaves pending (O14). -/

namespace Sys2Proof.Machine

/-! ## The thermal policy -/

/-- Eight equal readings. -/
def evenTemps (t : BitVec 16) : List (BitVec 16) := List.replicate 8 t

theorem foldl_max_tempOf (t : BitVec 16) : ((evenTemps t).map tempOf).foldl max (-32768) = tempOf t := by
  have hlow : -32768 ≤ tempOf t := by
    have := BitVec.le_toInt t
    simpa [tempOf] using this
  simp [evenTemps, List.replicate, hlow]

theorem exec_thermalRefresh_first {t : BitVec 16} {s : State} (hfirst : s.pwr.refreshed = none) (hmode : s.mode ≠ .preserve) :
    exec (.thermalRefresh t t t t t t t t) s =
      .next (ownTrip (thermalPolicy (tempOf t) (setTemps (evenTemps t) (s.pwrUpd fun p => { p with refreshed := some s.now })))) := by
  change execThermalRefresh t t t t t t t t s = _
  rw [← foldl_max_tempOf t]
  unfold execThermalRefresh
  rw [hfirst]
  exact congrArg done (if_pos ⟨rfl, hmode⟩)

/-- The registers of the sensors. -/
def tempRegs : List Nat := Fld.CRP_TEMP_MAX_HWM.addr :: (List.range 8).map fun k => (Fld.CRP_TEMP_TEMP k).addr

theorem regsOnly_setTemps (l : List (BitVec 16)) (s : State) : RegsOnly tempRegs s (setTemps l s) := by
  unfold setTemps
  refine regsOnly_doIf (regsOnly_set (f := Fld.CRP_TEMP_MAX_HOTTEST) ?_ _ (by decide)) fun s h => regsOnly_set h _ (by decide)
  have htemps : ∀ ks : List Nat, (∀ k ∈ ks, (Fld.CRP_TEMP_TEMP k).addr ∈ tempRegs) → ∀ u, RegsOnly tempRegs s u →
      RegsOnly tempRegs s (doAll ks (fun k s => s.set (Fld.CRP_TEMP_TEMP k) (l.getD k 0).toNat) u) := by
    intro ks
    induction ks with
    | nil => exact fun _ _ h => h
    | cons k ks ih =>
      intro hks u h
      exact ih (fun j hj => hks j (List.mem_cons_of_mem _ hj)) _ (regsOnly_set h _ (hks k List.mem_cons_self))
  exact htemps _ (by decide) _ (regsOnly_refl _ s)

theorem temp_apart {j k : Nat} (h : j ≠ k) : (Fld.CRP_TEMP_TEMP k).Apart (Fld.CRP_TEMP_TEMP j) := by
  refine ⟨⟨Nat.zero_le 15, show 15 < 32 by decide, Nat.zero_le 15⟩, .inl ?_⟩
  simp only [Fld.CRP_TEMP_TEMP]
  omega

theorem get_temp_doAll (l : List (BitVec 16)) (n k : Nat) (h : k < n) (s : State) :
    (doAll (List.range n) (fun k s => s.set (Fld.CRP_TEMP_TEMP k) (l.getD k 0).toNat) s).get (Fld.CRP_TEMP_TEMP k) = (l.getD k 0).toNat := by
  induction n with
  | zero => exact absurd h (Nat.not_lt_zero k)
  | succ n ih =>
    unfold doAll at ih ⊢
    rw [List.range_succ, List.foldl_append, List.foldl_cons, List.foldl_nil]
    by_cases hk : k = n
    · subst hk
      rw [get_set_same _ _ _ ⟨Nat.zero_le 15, show 15 < 32 by decide⟩]
      exact Nat.mod_eq_of_lt (BitVec.isLt _)
    · rw [get_set_apart _ _ _ _ (temp_apart hk), ih (by omega)]

theorem max_apart_temp {f : Field} (hf : f ∈ [Fld.CRP_TEMP_MAX_HOTTEST, Fld.CRP_TEMP_MAX_HWM]) {k : Nat} (h : k < 8) :
    f.Apart (Fld.CRP_TEMP_TEMP k) := by
  have hfits : ∀ f ∈ [Fld.CRP_TEMP_MAX_HOTTEST, Fld.CRP_TEMP_MAX_HWM], f.Fits ∧ f.addr = 0x110040 := by decide
  obtain ⟨⟨hlo, hhi⟩, haddr⟩ := hfits f hf
  refine ⟨⟨hlo, hhi, Nat.zero_le 15⟩, .inl ?_⟩
  rw [haddr]
  simp only [Fld.CRP_TEMP_TEMP]
  omega

theorem getD_evenTemps {k : Nat} (h : k < 8) (t : BitVec 16) : (evenTemps t).getD k 0 = t := by
  interval_cases k <;> rfl

theorem get_temp_setTemps {k : Nat} (h : k < 8) (t : BitVec 16) (s : State) : (setTemps (evenTemps t) s).get (Fld.CRP_TEMP_TEMP k) = t.toNat := by
  unfold setTemps
  dsimp only
  rw [doIf_same (State.get · (Fld.CRP_TEMP_TEMP k)) _ _ fun s => get_set_apart _ _ _ _ (max_apart_temp (by decide) h),
    get_set_apart _ _ _ _ (max_apart_temp (by decide) h), get_temp_doAll _ _ _ h, getD_evenTemps h]

theorem hottest_of_even {t : BitVec 16} {s : State} (h : ∀ k < 8, s.get (Fld.CRP_TEMP_TEMP k) = t.toNat) : s.hottest = tempOf t := by
  rw [← foldl_max_tempOf t, State.hottest]
  refine congrArg (List.foldl max (-32768)) ?_
  have hmap : (List.range 8).map (fun k => tempOf (BitVec.ofNat 16 (s.get (Fld.CRP_TEMP_TEMP k)))) = (List.range 8).map fun _ => tempOf t :=
    List.map_congr_left fun k hk => by rw [h k (List.mem_range.mp hk), BitVec.ofNat_toNat, BitVec.setWidth_eq]
  rw [hmap]
  rfl

/-- At or above 100 °C a device that does not run orders no step: the crossing is noted (17 R430). -/
theorem thermalPolicy_asleep {top : Int} {s : State} (htop : 800 ≤ top) (h : s.awake = false) : thermalPolicy top s =
    (if s.pwr.hot then s else (raise 2 s).pwrUpd fun p => { p with hot := true, stepAt := none }).pwrUpd fun p => { p with cool := 0 } := by
  simp [thermalPolicy, htop, h]

theorem ownTrip_below {s : State} (h : s.hottest < 920) : ownTrip s = s := by
  refine if_neg ?_
  rintro ⟨-, -, hhot⟩
  exact Int.not_le.mpr h hhot

/-- The trip that the device asserts itself, counted. -/
def tripShown (s : State) : State := (s.devUpd fun d => { d with tripOut := true }).inc Fld.CRP_THROTTLE_CNT_TRIPS 1

theorem thermTrip_eq (own : Bool) (s : State) : thermTrip own s = orderPreserve 8 (doIf own tripShown (raise 3 s)) := rfl

theorem orderPreserve_frame (cause : Nat) (s : State) : (orderPreserve cause s).regs = s.regs ∧ (orderPreserve cause s).pwr = s.pwr := by
  unfold orderPreserve
  split <;> exact ⟨rfl, rfl⟩

theorem get_ownTrip (s : State) {f : Field} (h : f.addr ∉ raiseRegs 3) (htrips : Fld.CRP_THROTTLE_CNT_TRIPS.Apart f) :
    (ownTrip s).get f = s.get f := by
  have hshown (s : State) : (tripShown s).get f = s.get f := by rw [tripShown, get_inc_apart _ _ _ _ htrips, devUpd_get]
  unfold ownTrip
  split
  · rw [thermTrip_eq, get_of_regs (orderPreserve_frame _ _).1, doIf_same (State.get · f) _ _ hshown, get_raise _ _ _ h]
  · rfl

/-- What the policy notes of the hottest reading. -/
def thermalNotes (s : State) : Bool × Option Stroke := (s.pwr.hot, s.pwr.refreshed)

theorem thermalNotes_noteWake (n : Nat) (s : State) : thermalNotes (noteWake n s) = thermalNotes s := by
  unfold noteWake
  split <;> rfl

theorem thermalNotes_pfsTrigger (b : Nat) (s : State) : thermalNotes (pfsTrigger b s) = thermalNotes s := by
  have hpwr : (pfsTrigger b s).pwr = s.pwr := (keeps_pfsTrigger (w := 0x100000C00B) b rfl (keeps_refl _ s)).same .pwr rfl
  rw [thermalNotes, hpwr, thermalNotes]

theorem thermalNotes_raiseEdge (n : Nat) (s : State) : thermalNotes (raiseEdge n s) = thermalNotes s := by
  have hwake (c : Bool) : thermalNotes (doIf c (noteWake n) s) = thermalNotes s := doIf_same thermalNotes c s (thermalNotes_noteWake n)
  unfold raiseEdge
  dsimp only
  rw [doIf_same thermalNotes _ _ (thermalNotes_pfsTrigger 2)]
  split
  · split
    · split <;> exact hwake _
    · exact hwake _
  · exact hwake _

/-- A thermal source is its edge and the attention bit of the board controller. -/
theorem raise_therm {n : Nat} (h : n = 2 ∨ n = 3) (s : State) : raise n s = bcAttn Fld.MBX_BC_ATTN_THERM (raiseEdge n s) := by
  rcases h with rfl | rfl <;> rfl

theorem thermalNotes_raise {n : Nat} (h : n = 2 ∨ n = 3) (s : State) : thermalNotes (raise n s) = thermalNotes s := by
  rw [raise_therm h]
  exact thermalNotes_raiseEdge n s

theorem thermalNotes_ownTrip (s : State) : thermalNotes (ownTrip s) = thermalNotes s := by
  have hshown (s : State) : thermalNotes (tripShown s) = thermalNotes s := rfl
  unfold ownTrip
  split
  · rw [thermTrip_eq, thermalNotes, (orderPreserve_frame _ _).2]
    change thermalNotes (doIf true tripShown (raise 3 s)) = _
    rw [doIf_same thermalNotes _ _ hshown, thermalNotes_raise (.inr rfl)]
  · rfl

/-! ## Pending bits that stay -/

theorem testBit_orBit_of {v j : Nat} (b : Nat) (h : v.testBit j = true) : (orBit v b).testBit j = true := by
  unfold orBit
  split
  case isTrue => exact h
  case isFalse hb =>
    have heven : v / 2 ^ b % 2 = 0 := by simpa [bitOf] using hb
    rw [Nat.add_comm]
    obtain hj | rfl | hj := Nat.lt_trichotomy j b
    · rw [Nat.testBit_two_pow_add_gt hj, h]
    · rw [Nat.testBit_eq_decide_div_mod_eq, heven] at h
      exact absurd h (by decide)
    · have hhigh : (2 ^ b + v) / 2 ^ (b + 1) = v / 2 ^ (b + 1) := by
        rw [Nat.pow_succ, ← Nat.div_div_eq_div_mul, ← Nat.div_div_eq_div_mul, Nat.add_div_left _ (Nat.two_pow_pos b)]
        omega
      obtain ⟨i, rfl⟩ := Nat.exists_eq_add_of_lt hj
      rw [show b + i + 1 = i + (b + 1) by omega, ← Nat.testBit_div_two_pow] at h ⊢
      rw [hhigh, h]

/-- Setting a pending bit leaves every other one that is set. -/
theorem isPending_setPending_of {m : Nat} {s : State} (n : Nat) (h : isPending s m = true) : isPending (setPending n s) m = true := by
  unfold isPending setPending at *
  by_cases ha : Adr.IC_PEND (m / 32) = Adr.IC_PEND (n / 32)
  · have hbit : m % 32 < 32 := Nat.mod_lt _ (by decide)
    rw [ha] at h ⊢
    rw [word_setWord_same, BitVec.getLsbD_ofNat, decide_eq_true hbit, Bool.true_and]
    exact testBit_orBit_of _ h
  · rw [word_setWord_ne _ _ ha, h]

theorem isPending_of_regsOnly {l : List Nat} {s t : State} {n : Nat} (h : RegsOnly l s t) (hn : Adr.IC_PEND (n / 32) ∉ l) :
    isPending t n = isPending s n := by
  unfold isPending
  rw [h _ hn]

/-- The pending words of the 288 sources lie between these addresses. -/
theorem pend_ne_outside {n a : Nat} (h : a < 0x700000 ∨ 0x7C0000 ≤ a) (hn : n < 288) : Adr.IC_PEND (n / 32) ≠ a := by
  simp only [Adr.IC_PEND]
  omega

theorem isPending_raiseEdge_of {m : Nat} {s : State} (n : Nat) (hm : m < 288) (h : isPending s m = true) : isPending (raiseEdge n s) m = true := by
  have hlatch (a : Nat) (ha : a = Adr.KS_WAKE_LATCH_LO ∨ a = Adr.KS_WAKE_LATCH_HI) (v : Word) (u : State) :
      isPending (u.setWord a v) m = isPending u m := by
    have hne : Adr.IC_PEND (m / 32) ≠ a := pend_ne_outside (by rcases ha with rfl | rfl <;> decide) hm
    unfold isPending
    rw [word_setWord_ne _ _ hne]
  have htrigger (c : Bool) (u : State) : isPending (doIf c (pfsTrigger 2) u) m = isPending u m := by
    refine doIf_same (isPending · m) c u fun u => ?_
    refine isPending_of_regsOnly (regsOnly_pfsTrigger (l := [Fld.PFS_STAT_MISSED.addr]) 2 (by decide) (regsOnly_refl _ u)) ?_
    exact fun hmem => pend_ne_outside (by decide) hm (List.mem_singleton.mp hmem)
  have hwake (c : Bool) : isPending (doIf c (noteWake n) s) m = true := by
    rw [doIf_same (isPending · m) c s fun u => isPending_of_regsOnly (regsOnly_noteWake (l := []) n (regsOnly_refl _ u)) List.not_mem_nil, h]
  unfold raiseEdge
  dsimp only
  rw [htrigger]
  split
  case isTrue =>
    split
    · split
      · rw [hlatch _ (.inl rfl), hwake]
      · rw [hlatch _ (.inr rfl), hwake]
    · exact hwake _
  case isFalse => exact isPending_setPending_of n (hwake _)

theorem isPending_bcAttn_therm {n : Nat} (h : n < 288) (s : State) : isPending (bcAttn Fld.MBX_BC_ATTN_THERM s) n = isPending s n := by
  unfold isPending bcAttn
  rw [word_set_ne _ _ _ ?_]
  simp only [Adr.IC_PEND, Fld.MBX_BC_ATTN_THERM]
  omega

theorem isPending_raise_thermAlert {s : State} (h : s.inRest = false) : isPending (raise 2 s) 2 = true := by
  rw [raise_therm (.inl rfl), isPending_bcAttn_therm (by decide), isPending_raiseEdge (by decide) h]

theorem isPending_tripShown {n : Nat} (h : n < 288) (s : State) : isPending (tripShown s) n = isPending s n := by
  have hne : Adr.IC_PEND (n / 32) ≠ Fld.CRP_THROTTLE_CNT_TRIPS.addr := pend_ne_outside (by decide) h
  unfold isPending tripShown State.inc
  rw [word_set_ne _ _ _ hne, devUpd_word]

theorem isPending_ownTrip_of {m : Nat} {s : State} (hm : m < 288) (h : isPending s m = true) : isPending (ownTrip s) m = true := by
  unfold ownTrip
  split
  · rw [thermTrip_eq, isPending_orderPreserve, doIf_same (isPending · m) _ _ (isPending_tripShown hm), raise_therm (.inr rfl),
      isPending_bcAttn_therm hm, isPending_raiseEdge_of 3 hm h]
  · exact h

/-! ## A refresh above 100 °C -/

/-- The sensors as read: eight equal readings, the first refresh. -/
def sensorsRead (t : BitVec 16) (s : State) : State := setTemps (evenTemps t) (s.pwrUpd fun p => { p with refreshed := some s.now })

theorem regsOnly_sensorsRead (t : BitVec 16) (s : State) : RegsOnly tempRegs s (sensorsRead t s) := regsOnly_setTemps _ _

theorem sensorsRead_pwr (t : BitVec 16) (s : State) : (sensorsRead t s).pwr = { s.pwr with refreshed := some s.now } :=
  (keeps_setTemps _ (w := 8) rfl (keeps_refl _ _)).same .pwr rfl

theorem sleep_sensorsRead (t : BitVec 16) (s : State) : (sensorsRead t s).get Fld.CRP_SLEEP_STATE = s.get Fld.CRP_SLEEP_STATE :=
  regsOnly_get (regsOnly_sensorsRead t s) (by decide)

theorem awake_sensorsRead (t : BitVec 16) (s : State) : (sensorsRead t s).awake = s.awake := by
  rw [State.awake, sleep_sensorsRead, State.awake]

theorem inRest_sensorsRead (t : BitVec 16) (s : State) : (sensorsRead t s).inRest = s.inRest := by
  rw [State.inRest, sleep_sensorsRead, State.inRest]

/-- The crossing of 100 °C, noted once. -/
def crossed (s : State) : State := ((raise 2 s).pwrUpd fun p => { p with hot := true, stepAt := none }).pwrUpd fun p => { p with cool := 0 }

theorem thermalPolicy_crossing {t : BitVec 16} {s : State} (htop : 800 ≤ tempOf t) (hhot : s.pwr.hot = false) (hawake : s.awake = false) :
    thermalPolicy (tempOf t) (sensorsRead t s) = crossed (sensorsRead t s) := by
  rw [thermalPolicy_asleep htop ((awake_sensorsRead t s).trans hawake), sensorsRead_pwr, if_neg (ne_true_of_eq_false hhot), crossed]

theorem thermalPolicy_stillHot {t : BitVec 16} {s : State} (htop : 800 ≤ tempOf t) (hhot : s.pwr.hot = true) (hawake : s.awake = false) :
    thermalPolicy (tempOf t) (sensorsRead t s) = (sensorsRead t s).pwrUpd fun p => { p with cool := 0 } := by
  rw [thermalPolicy_asleep htop ((awake_sensorsRead t s).trans hawake), sensorsRead_pwr, if_pos hhot]

theorem thermalNotes_crossed (s : State) : thermalNotes (crossed s) = (true, s.pwr.refreshed) :=
  congrArg (Prod.mk true) (congrArg Prod.snd (thermalNotes_raise (.inl rfl) s))

theorem isPending_pwrUpd (f : Pwr → Pwr) (s : State) (n : Nat) : isPending (s.pwrUpd f) n = isPending s n := rfl

theorem isPending_crossed {s : State} (h : s.inRest = false) : isPending (crossed s) 2 = true := by
  rw [crossed, isPending_pwrUpd, isPending_pwrUpd, isPending_raise_thermAlert h]

theorem get_temp_crossed {k : Nat} (h : k < 8) (hoff : (Fld.CRP_TEMP_TEMP k).addr ∉ raiseRegs 2) (t : BitVec 16) (s : State) :
    (crossed (sensorsRead t s)).get (Fld.CRP_TEMP_TEMP k) = t.toNat := by
  rw [crossed, pwrUpd_get, pwrUpd_get, get_raise _ _ _ hoff, sensorsRead, get_temp_setTemps h]

theorem ownTrip_stillHot {t : BitVec 16} (h : tempOf t < 920) (s : State) :
    ownTrip ((sensorsRead t s).pwrUpd fun p => { p with cool := 0 }) = (sensorsRead t s).pwrUpd fun p => { p with cool := 0 } := by
  refine ownTrip_below ?_
  rw [hottest_of_even (t := t) fun k hk => ?_]
  · exact h
  · rw [pwrUpd_get, sensorsRead, get_temp_setTemps hk]

/-! ## The statement -/

/-- Settles O14: each row by its equation; the registers of a level by what follows them; a refresh by the policy and the trip after it. -/
theorem levelsAndThermalPolicy : Obligations.LevelsAndThermalPolicy := by
  unfold Obligations.LevelsAndThermalPolicy
  refine ⟨?lower, ?same, ?firmware, ?due, ?taken, ?takenCmd, ?refused, ?vid, ?forced, ?crossing, ?hot⟩
  case lower =>
    intro s hchg hawake hmode hwant hrestarting hlower
    have hrun := exec_levelChangeOrder_idle ⟨hchg, hawake, hrestarting, hmode⟩ hwant
    exact ⟨_, hrun.trans (congrArg Host.Outcome.next (levelOrder_lower hlower 3)), rfl, rfl, rfl⟩
  case same =>
    intro l src id s hchg hawake hmode hrestarting hwant hsame
    have hsame' : s.orderedLevel l = (s.pwrUpd fun p => { p with want := none }).level := hsame
    exact (exec_levelChangeOrder_wanted ⟨hchg, hawake, hrestarting, hmode⟩ hwant).trans (congrArg Host.Outcome.next (levelOrder_same hsame' src))
  case firmware => exact fun l s hchg hawake hmode hrestarting hmay => exec_levelChangeOrder_firmware ⟨hchg, hawake, hrestarting, hmode⟩ l hmay
  case due => exact fun c s h => exec_levelSwitch_due h
  case taken =>
    intro c s h hcmd htarget
    obtain ⟨hcur, hlevel⟩ := levels_levelTaken htarget s
    rw [levelSwitch_taken h, hcmd]
    exact ⟨hcur, hlevel, levelTaken_now c s⟩
  case takenCmd =>
    intro c id s h hcmd htarget
    refine ⟨_, ?_, levels_levelTaken htarget s⟩
    rw [levelSwitch_taken h, hcmd, changeEnds]
  case refused =>
    intro c id e s h hcmd
    refine ⟨levelHeld c e s, ?_, get_levelHeld c e s (by decide) (by decide), get_levelHeld c e s (by decide) (by decide)⟩
    rw [levelSwitch_refused h, hcmd, changeEnds]
  case vid =>
    intro c at_ s hchg hat hreached hmode hswitched hrefused _ hroom
    obtain ⟨next, hstep⟩ := vidStep_up hswitched hrefused (show s.dev.vid.toNat < vidOf c.target by omega)
    exact ⟨_, (exec_vidStep_due hchg hat hreached hmode).trans (congrArg Host.Outcome.next hstep), rfl, rfl⟩
  case forced =>
    intro at_ s hat hchg hawake hrestarting hmode hpend hgrace hreached hcap hlower htarget
    refine ⟨_, exec_throttleGraceExpiry_due ⟨hchg, hawake, hrestarting, hmode⟩ hat hpend hgrace hreached hcap rfl hlower, ?_⟩
    beta_reduce
    rw [vidFollows_get, vidFollows_get, vidFollows_get, vidFollows_get, vidFollows_vid, throttleForced_vid]
    exact ⟨get_cap_throttleForced hcap _, get_cur_throttleForced htarget s, get_pend_throttleForced _ s, rfl, get_forced_throttleForced _ s⟩
  case crossing =>
    intro t s hfirst hmode htop hhot hawake
    have hnotes : thermalNotes (ownTrip (crossed (sensorsRead t s))) = (true, some s.now) := by
      rw [thermalNotes_ownTrip, thermalNotes_crossed, sensorsRead_pwr]
    have htemp {k : Nat} (hk : k < 8) (halert : (Fld.CRP_TEMP_TEMP k).addr ∉ raiseRegs 2) (htrip : (Fld.CRP_TEMP_TEMP k).addr ∉ raiseRegs 3)
        (hapart : Fld.CRP_THROTTLE_CNT_TRIPS.Apart (Fld.CRP_TEMP_TEMP k)) :
        (ownTrip (crossed (sensorsRead t s))).get (Fld.CRP_TEMP_TEMP k) = t.toNat := by
      rw [get_ownTrip _ htrip hapart, get_temp_crossed hk halert]
    refine ⟨ownTrip (crossed (sensorsRead t s)), ?_, congrArg Prod.fst hnotes, congrArg Prod.snd hnotes,
      htemp (by decide) (by decide) (by decide) (by decide), htemp (by decide) (by decide) (by decide) (by decide), fun hrest => ?_⟩
    · rw [exec_thermalRefresh_first hfirst hmode, ← sensorsRead, thermalPolicy_crossing htop hhot hawake]
    · exact isPending_ownTrip_of (by decide) (isPending_crossed ((inRest_sensorsRead t s).trans hrest))
  case hot =>
    intro t s hfirst hmode htop hbelow hhot hawake
    refine ⟨(sensorsRead t s).pwrUpd fun p => { p with cool := 0 }, ?_, ?_, ?_⟩
    · rw [exec_thermalRefresh_first hfirst hmode, ← sensorsRead, thermalPolicy_stillHot htop hhot hawake, ownTrip_stillHot hbelow]
    · rw [pwrUpd_pwr, sensorsRead_pwr]
      exact hhot
    · rw [pwrUpd_word, regsOnly_sensorsRead t s _ (by decide)]

end Sys2Proof.Machine
end

section

/-! Bypass cells on an ACTIVE link: acknowledgement, credits, strokes, delay, and what is sent again (O35). -/

namespace Sys2Proof.Machine

/-! ## Cells that are heard -/

section
variable {k : Fin 4} {s : State}

theorem exec_bypassAck_heard (h : ulHears s k = true) (back : BitVec 8) (e : BitVec 12) :
    exec (.bypassAck k back e) s = .next (ackCover k e.toNat (bypassAck k back.toNat s)) :=
  congrArg done (if_pos h)

theorem exec_bypassAck_unheard (h : ulHears s k = false) (back : BitVec 8) (e : BitVec 12) : exec (.bypassAck k back e) s = .next s :=
  congrArg done (if_neg (ne_true_of_eq_false h))

/-- A NAK before its SEQ is judged: its BACK acknowledges, and it is counted. -/
def nakHeard (k : Nat) (back : BitVec 8) (s : State) : State := (bypassAck k back.toNat s).inc (Fld.UL_ERR_CNT_NAK_RCVD k) 1

theorem exec_bypassNak_held (h : ulHears s k = true) (back : BitVec 8) {e : BitVec 12}
    (hheld : (((nakHeard k back s).link k).held.any fun c => c.seq == e.toNat) = true) :
    exec (.bypassNak k back e) s = .next (ulReplay k e.toNat (ackCover k e.toNat (nakHeard k back s))) := by
  change execBypassNak k back e s = _
  rw [execBypassNak, if_neg (not_not_intro h)]
  exact congrArg done (if_pos (.inl hheld))

theorem exec_bypassNak_neither (h : ulHears s k = true) (back : BitVec 8) {e : BitVec 12}
    (hheld : (((nakHeard k back s).link k).held.any fun c => c.seq == e.toNat) = false)
    (hnext : e.toNat ≠ (nakHeard k back s).get (Fld.UL_SEQ_TX_NEXT k)) :
    exec (.bypassNak k back e) s = .next (ulProto k 2 e.toNat (nakHeard k back s)) := by
  change execBypassNak k back e s = _
  rw [execBypassNak, if_neg (not_not_intro h)]
  exact congrArg done (if_neg fun hor => hor.elim (ne_true_of_eq_false hheld) hnext)

theorem exec_bypassCredit_heard (h : ulHears s k = true) (back : BitVec 8) (counts : Word) : exec (.bypassCredit k back counts) s =
    .next (doAll [0, 1, 2, 3] (fun vc => ulCredit k vc (bitsOf counts.toNat (8 * vc + 7) (8 * vc))) (bypassAck k back.toNat s)) :=
  congrArg done (if_pos h)

theorem exec_bypassDelayReq_heard (h : ulHears s k = true) (back : BitVec 8) (sent recv : BitVec 64) (turn : Word) :
    exec (.bypassDelayReq k back sent recv turn) s =
      .next (sendBypass k 8 (leBytes 8 sent.toNat ++ leBytes 8 recv.toNat ++ leBytes 4 turn.toNat) (bypassAck k back.toNat s)) :=
  congrArg done (if_pos h)

theorem exec_bypassDelayResp_heard (h : ulHears s k = true) (back : BitVec 8) (sent now_ : BitVec 64) (turn : Word) :
    exec (.bypassDelayResp k back sent now_ turn) s =
      .next ((bypassAck k back.toNat s).set (Fld.UL_DELAY_ONE_WAY k) (min 65535 (((now_ - sent).toNat - turn.toNat) / 2))) :=
  congrArg done (if_pos h)

theorem exec_delayReqSend_due (h : ulActive s k = true) (hpark : s.get (Fld.UL_STATUS_LPM k) ≠ 2) (hdue : 2000 ≤ s.since (s.link k).delayAt)
    (v : BitVec 64) :
    exec (.delayReqSend k v) s = .next (sendBypass k 7 (leBytes 8 v.toNat) (s.linkUpd k fun l => { l with delayAt := s.now })) :=
  congrArg done (if_pos ⟨h, hpark, hdue⟩)

theorem exec_bypassNull_heard (h : ulHears s k = true) (back : BitVec 8) : exec (.bypassNull k back false) s = .next (bypassAck k back.toNat s) :=
  congrArg done (if_pos h)

theorem exec_bypassNull_reserved (h : paramHears s k = true ∨ ulHears s k = true) (back : BitVec 8) :
    exec (.bypassNull k back true) s = .next (s.inc (Fld.UL_BYP_BAD k) 1) := by
  change done (doIf (paramHears s k || ulHears s k) (fun s => s.inc (Fld.UL_BYP_BAD k) 1) s) = _
  rw [Bool.or_eq_true_iff.mpr h, doIf_true, done]

/-- With no sequenced cell held there is nothing that BACK releases. -/
theorem bypassAck_none {k : Nat} (h : (s.link k).bheld = []) (back : Nat) : bypassAck k back s = s := by
  simp [bypassAck, h]

end

/-! ## Credits -/

theorem crAvail_apart (k : Nat) {vc : Nat} (h : vc < 3) : (crAvail k vc).Apart (crAvail k 3) := by
  interval_cases vc <;>
    simp [Field.Apart, crAvail, Fld.UL_CREDIT_AVAIL_VC0, Fld.UL_CREDIT_AVAIL_VC1, Fld.UL_CREDIT_AVAIL_VC2, Fld.UL_CREDIT_AVAIL_VC3]

theorem get_ulCredit_lower {vc : Nat} (h : vc < 3) (k n : Nat) (s : State) : (ulCredit k vc n s).get (crAvail k 3) = s.get (crAvail k 3) := by
  rw [ulCredit, linkUpd_get, get_set_apart _ _ _ _ (crAvail_apart k h)]

theorem crSeen_ulCredit (k vc n : Nat) (s : State) : ((ulCredit k vc n s).link k).crSeen = (s.link k).crSeen.set vc n := by
  rw [ulCredit, linkUpd_same, set_link]

/-- The first count of a channel adds all of its credits. -/
theorem get_ulCredit_first {k n : Nat} {s : State} (hseen : (s.link k).crSeen.getD 3 0 = 0) (hn : n < 256) (hroom : s.get (crAvail k 3) + n < 256) :
    (ulCredit k 3 n s).get (crAvail k 3) = s.get (crAvail k 3) + n := by
  have hd : (n + 256 - (s.link k).crSeen.getD 3 0) % 256 = n := by
    rw [hseen, Nat.sub_zero, Nat.add_mod_right, Nat.mod_eq_of_lt hn]
  rw [ulCredit, linkUpd_get, get_set_same _ _ _ ⟨show 24 ≤ 31 by decide, show 31 < 32 by decide⟩, hd]
  exact Nat.mod_eq_of_lt hroom

/-- A CREDIT cell on the first counts of the four channels. -/
theorem get_credits_first {k : Nat} {counts : Word} {s : State} (hseen : (s.link k).crSeen = [0, 0, 0, 0])
    (hroom : s.get (crAvail k 3) + bitsOf counts.toNat 31 24 < 256) :
    (doAll [0, 1, 2, 3] (fun vc => ulCredit k vc (bitsOf counts.toNat (8 * vc + 7) (8 * vc))) s).get (crAvail k 3) =
      s.get (crAvail k 3) + bitsOf counts.toNat 31 24 := by
  simp only [doAll, List.foldl_cons, List.foldl_nil]
  rw [get_ulCredit_first, get_ulCredit_lower (by decide), get_ulCredit_lower (by decide), get_ulCredit_lower (by decide)]
  · rw [crSeen_ulCredit, crSeen_ulCredit, crSeen_ulCredit, hseen]
    rfl
  · exact Nat.mod_lt _ (by decide)
  · rw [get_ulCredit_lower (by decide), get_ulCredit_lower (by decide), get_ulCredit_lower (by decide)]
    exact hroom

/-! ## Strokes -/

/-- The member that a STROKE cell names is noted while this one joins (log 186). -/
def leaderHeard (k leader : Nat) (s : State) : State :=
  doIf (s.pelState == 1 && !s.pel.heard.contains (k, leader)) (·.pelUpd fun p => { p with heard := p.heard ++ [(k, leader)] }) s

/-- A STROKE cell is of the leader that this member follows, or that it joins. -/
def ofLeader (leader : Nat) (s : State) : Bool := leader == s.get Fld.PEL_STATUS_LEADER && (leader != s.me || s.pelState == 1) && s.pel.named

/-- What the leader's STROKE cell tells beside the alignment: skew, the stroke in which it came, and the hops from the leader. -/
def strokeNoted (leader : Nat) (hops skew : BitVec 8) (s : State) : State :=
  ((s.set Fld.CAD_PEL_ALIGN_SKEW skew.toNat).cadUpd fun c => { c with mark := some s.now, leader := some leader }).pelUpd
    fun p => { p with hops := if p.adopt.isSome || s.isMember then min p.hops hops.toNat else hops.toNat }

/-- A JOINING member adopts the count of the leader's cell, one more, at the next boundary (logs 130 and 170). -/
def countAdopted (stroke : Stroke) (s : State) : State := s.pelUpd fun p => { p with adopt := some (stroke + 1) }

/-- The leader's STROKE cell. -/
def strokeTaken (stroke : Stroke) (leader : Nat) (hops : BitVec 8) (phase : BitVec 16) (skew : BitVec 8) (s : State) : State :=
  strokeNoted leader hops skew s
    |> doIf (decide (skewOf skew.toNat ≤ 1) && decide (phase.toNat < 8000)) alignGained
    |> doIf (decide (8 < skewOf skew.toNat)) alignLost
    |> doIf (s.pelState == 1) (countAdopted stroke)

section
variable {k : Fin 4} {s : State}

theorem exec_bypassStroke_heard (h : ulHears s k = true) (back : BitVec 8) (stroke : Stroke) (leader : Fin 8) (hops : BitVec 8)
    (phase : BitVec 16) (skew : BitVec 8) : exec (.bypassStroke k back stroke leader hops phase skew) s =
      .next (doIf (ofLeader leader s) (strokeTaken stroke leader hops phase skew)
        (doIf (s.pelState == 1 && !s.pel.heard.contains (k.val, leader.val)) (·.pelUpd fun p => { p with heard := p.heard ++ [(k.val, leader.val)] })
          (bypassAck k back.toNat s))) := by
  change execBypassStroke k back stroke leader hops phase skew s = _
  rw [execBypassStroke, if_neg (not_not_intro h)]
  rfl

theorem exec_bypassStroke_free (h : ulHears s k = true) (hfree : (s.link k).bheld = []) (back : BitVec 8) (stroke : Stroke) (leader : Fin 8)
    (hops : BitVec 8) (phase : BitVec 16) (skew : BitVec 8) : exec (.bypassStroke k back stroke leader hops phase skew) s =
      .next (doIf (ofLeader leader s) (strokeTaken stroke leader hops phase skew) (leaderHeard k leader s)) := by
  rw [exec_bypassStroke_heard h, bypassAck_none hfree]
  rfl

theorem exec_bypassStroke_other (h : ulHears s k = true) (hjoin : s.pelState ≠ 1) {leader : Fin 8}
    (hleader : leader.val ≠ s.get Fld.PEL_STATUS_LEADER) (back : BitVec 8) (stroke : Stroke) (hops : BitVec 8) (phase : BitVec 16)
    (skew : BitVec 8) :
    exec (.bypassStroke k back stroke leader hops phase skew) s = .next (bypassAck k back.toNat s) := by
  rw [exec_bypassStroke_heard h, ofLeader, beq_false_of_ne hleader, beq_false_of_ne hjoin]
  rfl

end

theorem leaderHeard_get (k leader : Nat) (s : State) (f : Field) : (leaderHeard k leader s).get f = s.get f :=
  doIf_same (State.get · f) _ _ fun _ => rfl

theorem leaderHeard_now (k leader : Nat) (s : State) : (leaderHeard k leader s).now = s.now := doIf_same State.now _ _ fun _ => rfl

theorem mem_heard_leaderHeard {k leader : Nat} {s : State} (h : s.pelState = 1) : (k, leader) ∈ (leaderHeard k leader s).pel.heard := by
  unfold leaderHeard
  rw [h]
  cases hc : s.pel.heard.contains (k, leader)
  · exact List.mem_append_right _ (List.mem_singleton_self _)
  · exact List.contains_iff_mem.mp hc

/-! What the changes of alignment leave. -/

abbrev alignMask : Nat := 0x102002D3AB

theorem keeps_alignSteps (gained lost : Bool) (s : State) : Keeps alignMask s (doIf lost alignLost (doIf gained alignGained s)) :=
  keeps_doIf _ _ (fun _ h => keeps_alignLost rfl h) (keeps_doIf _ _ (fun _ h => keeps_alignGained rfl h) (keeps_refl _ s))

theorem pel_alignSteps (gained lost : Bool) (s : State) : (doIf lost alignLost (doIf gained alignGained s)).pel = s.pel :=
  (keeps_alignSteps gained lost s).same .pel rfl

theorem cad_alignSteps (gained lost : Bool) (s : State) : (doIf lost alignLost (doIf gained alignGained s)).cad = s.cad :=
  (keeps_alignSteps gained lost s).same .cad rfl

theorem now_alignSteps (gained lost : Bool) (s : State) : (doIf lost alignLost (doIf gained alignGained s)).now = s.now :=
  (keeps_alignSteps gained lost s).same .now rfl

theorem strokeTaken_now (stroke : Stroke) (leader : Nat) (hops : BitVec 8) (phase : BitVec 16) (skew : BitVec 8) (s : State) :
    (strokeTaken stroke leader hops phase skew s).now = s.now := by
  have hadopted (s : State) : (countAdopted stroke s).now = s.now := rfl
  rw [strokeTaken, doIf_same State.now _ _ hadopted, now_alignSteps]
  rfl

theorem strokeTaken_cad (stroke : Stroke) (leader : Nat) (hops : BitVec 8) (phase : BitVec 16) (skew : BitVec 8) (s : State) :
    (strokeTaken stroke leader hops phase skew s).cad = { s.cad with mark := some s.now, leader := some leader } := by
  have hadopted (s : State) : (countAdopted stroke s).cad = s.cad := rfl
  rw [strokeTaken, doIf_same State.cad _ _ hadopted, cad_alignSteps]
  rfl

theorem strokeTaken_heard (stroke : Stroke) (leader : Nat) (hops : BitVec 8) (phase : BitVec 16) (skew : BitVec 8) (s : State) :
    (strokeTaken stroke leader hops phase skew s).pel.heard = s.pel.heard := by
  have hadopted (s : State) : (countAdopted stroke s).pel.heard = s.pel.heard := rfl
  rw [strokeTaken, doIf_same (fun s => s.pel.heard) _ _ hadopted, pel_alignSteps]
  rfl

theorem strokeTaken_adopt {s : State} (h : s.pelState = 1) (stroke : Stroke) (leader : Nat) (hops : BitVec 8) (phase : BitVec 16) (skew : BitVec 8) :
    (strokeTaken stroke leader hops phase skew s).pel.adopt = some (stroke + 1) := by
  unfold strokeTaken
  rw [h]
  rfl

/-- ALIGNED is one bit. -/
theorem get_aligned_of_isSet {s : State} (h : s.isSet Fld.CAD_PEL_ALIGN_ALIGNED = true) : s.get Fld.CAD_PEL_ALIGN_ALIGNED = 1 := by
  have hlt : s.get Fld.CAD_PEL_ALIGN_ALIGNED < 2 := Nat.mod_lt _ (by decide)
  have hne : s.get Fld.CAD_PEL_ALIGN_ALIGNED ≠ 0 := bne_iff_ne.mp h
  omega

theorem get_aligned_alignGained (s : State) : (alignGained s).get Fld.CAD_PEL_ALIGN_ALIGNED = 1 := by
  unfold alignGained
  split
  case isTrue h => exact get_aligned_of_isSet h
  case isFalse =>
    rw [get_raise _ _ _ (by decide), get_set_apart _ _ _ _ (by decide), get_set_same _ _ _ (by decide)]
    rfl

theorem get_skew_alignGained (s : State) : (alignGained s).get Fld.CAD_PEL_ALIGN_SKEW = s.get Fld.CAD_PEL_ALIGN_SKEW := by
  unfold alignGained
  split
  · rfl
  · rw [get_raise _ _ _ (by decide), get_set_apart _ _ _ _ (by decide), get_set_apart _ _ _ _ (by decide)]

theorem get_skew_strokeNoted (leader : Nat) (hops skew : BitVec 8) (s : State) :
    (strokeNoted leader hops skew s).get Fld.CAD_PEL_ALIGN_SKEW = skew.toNat := by
  unfold strokeNoted
  rw [pelUpd_get, cadUpd_get, get_set_same _ _ _ (by decide)]
  exact Nat.mod_eq_of_lt (BitVec.isLt _)

/-- A marker within one hub cycle aligns. -/
theorem strokeTaken_get_of_aligned {phase : BitVec 16} {skew : BitVec 8} (hphase : phase.toNat < 8000) (hskew : skewOf skew.toNat ≤ 1)
    (stroke : Stroke) (leader : Nat) (hops : BitVec 8) (s : State) (f : Field) :
    (strokeTaken stroke leader hops phase skew s).get f = (alignGained (strokeNoted leader hops skew s)).get f := by
  have hadopted (s : State) : (countAdopted stroke s).get f = s.get f := rfl
  have hclose : ¬ 8 < skewOf skew.toNat := by omega
  rw [strokeTaken, doIf_same (State.get · f) _ _ hadopted, decide_eq_true hphase, decide_eq_true hskew, decide_eq_false hclose, Bool.and_self,
    doIf_false, doIf_true]

/-! ## Cells that are sent again -/

theorem emitBypass_regs (k bt : Nat) (seqd : Bool) (bseq : Nat) (body : List Byte) (s : State) : (emitBypass k bt seqd bseq body s).regs = s.regs :=
  (keeps_emitBypass (w := 0x1000008003) k bt seqd bseq body rfl (keeps_refl _ s)).same .regs rfl

theorem bypassOut_link (k bt : Nat) (seqd : Bool) (bseq : Nat) (body : List Byte) (s : State) :
    (bypassOut k bt seqd bseq body s).link k = { s.link k with bsent := (s.link k).bsent + 1 } := by
  change (s.linkUpd k fun l => { l with bsent := l.bsent + 1 }).link k = _
  rw [linkUpd_same]

/-- A cell that leaves or waits changes of its link what the stroke's cells count alone. -/
theorem emitBypass_link (k bt : Nat) (seqd : Bool) (bseq : Nat) (body : List Byte) (s : State) :
    ((emitBypass k bt seqd bseq body s).link k).bheld = (s.link k).bheld ∧
      ((emitBypass k bt seqd bseq body s).link k).downDue = (s.link k).downDue := by
  unfold emitBypass
  split
  · rw [linkUpd_same]
    exact ⟨rfl, rfl⟩
  · rw [bypassOut_link]
    exact ⟨rfl, rfl⟩

/-- The old cells sent again. -/
def oldSent (k : Nat) (s : State) : State := doAll (bypassOld s k) (fun b => emitBypass k b.bt true b.seq b.body) s

theorem oldSent_regs (k : Nat) (s : State) : (oldSent k s).regs = s.regs := doAll_same State.regs _ s fun _ _ => emitBypass_regs _ _ _ _ _ _

theorem oldSent_bheld (k : Nat) (s : State) : ((oldSent k s).link k).bheld = (s.link k).bheld :=
  doAll_same (fun s => (s.link k).bheld) _ s fun _ _ => (emitBypass_link _ _ _ _ _ _).1

theorem oldSent_downDue (k : Nat) (s : State) : ((oldSent k s).link k).downDue = (s.link k).downDue :=
  doAll_same (fun s => (s.link k).downDue) _ s fun _ _ => (emitBypass_link _ _ _ _ _ _).2

/-- A held cell after the old ones were sent again in stroke `t`. -/
def cellAfter (old : List BCell) (t : Stroke) (b : BCell) : BCell :=
  if (old.any fun x => x.seq == b.seq) then { b with sent := t, tries := b.tries + 1 } else b

/-- The old cells sent again and counted. -/
def oldCounted (k : Nat) (s : State) : State :=
  ((oldSent k s).inc (Fld.UL_BYP_RETX k) (bypassOld s k).length).linkUpd k fun l => { l with bheld := l.bheld.map (cellAfter (bypassOld s k) s.now) }

/-- The eighth sending of one cell takes the link down. -/
def retransmitted (k : Nat) (s : State) : State := doIf ((bypassOld s k).any fun b => decide (8 ≤ b.tries + 1)) (ulDownCause k) (oldCounted k s)

theorem exec_bypassRetransmit_old {k : Fin 4} {s : State} (hactive : ulActive s k = true) (hpark : s.get (Fld.UL_STATUS_LPM k) ≠ 2)
    (hold : bypassOld s k ≠ []) : exec (.bypassRetransmit k) s = .next (retransmitted k s) :=
  congrArg done (if_pos ⟨hactive, hpark, hold⟩)

theorem exec_bypassRetransmit_none {k : Fin 4} {s : State} (h : bypassOld s k = [] ∨ s.get (Fld.UL_STATUS_LPM k) = 2 ∨ ulActive s k = false) :
    exec (.bypassRetransmit k) s = .next s := by
  refine congrArg done (if_neg ?_)
  rintro ⟨hactive, hpark, hold⟩
  obtain h | h | h := h
  · exact hold h
  · exact hpark h
  · exact ne_true_of_eq_false h hactive

theorem ulDownCause_get (k : Nat) (s : State) (f : Field) : (ulDownCause k s).get f = s.get f := rfl

theorem ulDownCause_bheld (k : Nat) (s : State) : ((ulDownCause k s).link k).bheld = (s.link k).bheld := by
  rw [ulDownCause, linkUpd_same]

theorem retransmitted_get (k : Nat) (s : State) (f : Field) :
    (retransmitted k s).get f = ((oldSent k s).inc (Fld.UL_BYP_RETX k) (bypassOld s k).length).get f :=
  doIf_same (State.get · f) _ _ fun s => ulDownCause_get k s f

theorem get_retx_retransmitted (k : Nat) (s : State) : (retransmitted k s).get (Fld.UL_BYP_RETX k) =
    min (Fld.UL_BYP_RETX k).max (s.get (Fld.UL_BYP_RETX k) + (bypassOld s k).length) := by
  rw [retransmitted_get, get_inc_same _ _ _ ⟨show 16 ≤ 31 by decide, show 31 < 32 by decide⟩, get_of_regs (oldSent_regs k s)]

theorem retransmitted_bheld (k : Nat) (s : State) :
    ((retransmitted k s).link k).bheld = (s.link k).bheld.map (cellAfter (bypassOld s k) s.now) := by
  refine (doIf_same (fun s => (s.link k).bheld) _ _ fun s => ulDownCause_bheld k s).trans ?_
  rw [oldCounted, linkUpd_same, inc_link, oldSent_bheld]

theorem cellAfter_seq (old : List BCell) (t : Stroke) (b : BCell) : (cellAfter old t b).seq = b.seq := by
  unfold cellAfter
  split <;> rfl

theorem cellAfter_sent {old : List BCell} {b : BCell} (h : (old.any fun x => x.seq == b.seq) = true) (t : Stroke) : (cellAfter old t b).sent = t := by
  rw [cellAfter, if_pos h]

theorem oldCounted_downDue (k : Nat) (s : State) : ((oldCounted k s).link k).downDue = (s.link k).downDue := by
  rw [oldCounted, linkUpd_same, inc_link]
  exact oldSent_downDue k s

theorem ulActive_oldCounted (k : Nat) (s : State) : ulActive (oldCounted k s) k = ulActive s k := by
  have hapart : (Fld.UL_BYP_RETX k).Apart (Fld.UL_STATUS_STATE k) := by
    refine ⟨⟨show 16 ≤ 31 by decide, show 31 < 32 by decide, show 29 ≤ 31 by decide⟩, .inl ?_⟩
    simp only [Fld.UL_BYP_RETX, Fld.UL_STATUS_STATE]
    omega
  unfold ulActive State.ulState oldCounted
  rw [linkUpd_get, get_inc_apart _ _ _ _ hapart, get_of_regs (oldSent_regs k s)]

theorem retransmitted_downDue_early {k : Nat} {s : State} (h : ∀ b ∈ bypassOld s k, b.tries < 7) :
    ((retransmitted k s).link k).downDue = (s.link k).downDue := by
  have hnone : ((bypassOld s k).any fun b => decide (8 ≤ b.tries + 1)) = false :=
    List.any_eq_false.mpr fun b hb => by simpa using h b hb
  rw [retransmitted, hnone, doIf_false, oldCounted_downDue]

theorem retransmitted_downDue_eighth {k : Nat} {s : State} (hactive : ulActive s k = true) (h : ∃ b ∈ bypassOld s k, 7 ≤ b.tries) :
    ((retransmitted k s).link k).downDue = true := by
  obtain ⟨b, hb, htries⟩ := h
  have hsome : ((bypassOld s k).any fun b => decide (8 ≤ b.tries + 1)) = true :=
    List.any_eq_true.mpr ⟨b, hb, decide_eq_true (by omega)⟩
  rw [retransmitted, hsome, doIf_true, ulDownCause, linkUpd_same, ulActive_oldCounted, hactive, Bool.or_true]

/-- No held cell is old before its time. -/
theorem bypassOld_of_young {k : Nat} {s : State} (h : ∀ b ∈ (s.link k).bheld, s.since b.sent < 2) : bypassOld s k = [] :=
  List.dropWhile_eq_nil_iff.mpr fun b hb => decide_eq_true (h b hb)

theorem bypassOld_of_none {k : Nat} {s : State} (h : (s.link k).bheld = []) : bypassOld s k = [] := by
  rw [bypassOld, h, List.dropWhile_nil]

/-! ## The statement -/

/-- Settles O35: each row by its equation; a credit by the four counts, a stroke by what alignment leaves, and what is sent again by what a
cell that leaves changes of its link. -/
theorem bypassCells : Obligations.BypassCells := by
  unfold Obligations.BypassCells
  refine ⟨?ack, ?ackUnheard, ?nakHeld, ?nakNeither, ?credit, ?strokeOther, ?strokeAligned, ?strokeHeard, ?strokeAdopted, ?delayReq, ?delayResp,
    ?delaySend, ?null, ?reserved, ?again, ?noneDue, ?young, ?noneHeld⟩
  case ack => exact fun k back e s h => exec_bypassAck_heard h back e
  case ackUnheard => exact fun k back e s h => exec_bypassAck_unheard h back e
  case nakHeld =>
    rintro k back e s _ h rfl hheld
    exact exec_bypassNak_held h back hheld
  case nakNeither =>
    rintro k back e s _ h rfl hheld hnext
    exact exec_bypassNak_neither h back hheld hnext
  case credit =>
    intro k back counts s h hfree hseen hroom
    refine ⟨_, exec_bypassCredit_heard h back counts, ?_⟩
    rw [bypassAck_none hfree]
    exact get_credits_first hseen hroom
  case strokeOther => exact fun k back stroke leader hops phase skew s h hjoin hleader =>
    exec_bypassStroke_other h hjoin hleader back stroke hops phase skew
  case strokeAligned =>
    intro k back stroke leader hops phase skew s h hleader hfollows hnamed hfree hphase hskew
    have hof : ofLeader leader s = true := by
      simp only [ofLeader, Bool.and_eq_true, Bool.or_eq_true, beq_iff_eq, bne_iff_ne]
      exact ⟨⟨hleader, hfollows⟩, hnamed⟩
    refine ⟨_, exec_bypassStroke_free h hfree back stroke leader hops phase skew, ?_⟩
    rw [hof, doIf_true]
    beta_reduce
    rw [strokeTaken_get_of_aligned hphase hskew, strokeTaken_get_of_aligned hphase hskew, strokeTaken_cad, strokeTaken_now,
      get_aligned_alignGained, get_skew_alignGained, get_skew_strokeNoted, leaderHeard_now]
    exact ⟨rfl, rfl, rfl, rfl, rfl⟩
  case strokeHeard =>
    intro k back stroke leader hops phase skew s h hjoin hfree
    refine ⟨_, exec_bypassStroke_free h hfree back stroke leader hops phase skew, ?_⟩
    beta_reduce
    rw [doIf_same (fun s => s.pel.heard) _ _ fun s => strokeTaken_heard stroke leader hops phase skew s]
    exact mem_heard_leaderHeard hjoin
  case strokeAdopted =>
    intro k back stroke leader hops phase skew s h hjoin hnamed hleader hfree
    have hof : ofLeader leader s = true := by
      simp only [ofLeader, Bool.and_eq_true, Bool.or_eq_true, beq_iff_eq, bne_iff_ne]
      exact ⟨⟨hleader, .inr hjoin⟩, hnamed⟩
    refine ⟨_, exec_bypassStroke_free h hfree back stroke leader hops phase skew, ?_⟩
    rw [hof, doIf_true]
    exact strokeTaken_adopt ((leaderHeard_get _ _ _ _).trans hjoin) _ _ _ _ _
  case delayReq => exact fun k back sent recv turn s h => exec_bypassDelayReq_heard h back sent recv turn
  case delayResp =>
    intro k back sent now_ turn s h
    refine ⟨_, exec_bypassDelayResp_heard h back sent now_ turn, ?_⟩
    beta_reduce
    rw [get_set_same _ _ _ ⟨Nat.zero_le 15, show 15 < 32 by decide⟩]
    exact Nat.mod_eq_of_lt (Nat.lt_of_le_of_lt (Nat.min_le_left _ _) (show 65535 < 2 ^ 16 by decide))
  case delaySend => exact fun k v s h hpark hdue => exec_delayReqSend_due h hpark hdue v
  case null => exact fun k back s h => exec_bypassNull_heard h back
  case reserved => exact fun k back s h => exec_bypassNull_reserved h back
  case again =>
    intro k s hactive hpark hold
    refine ⟨_, exec_bypassRetransmit_old hactive hpark hold, get_retx_retransmitted k s, ?_, ?_, retransmitted_downDue_early,
      retransmitted_downDue_eighth hactive⟩
    · rw [retransmitted_bheld, List.map_map]
      exact List.map_congr_left fun b _ => cellAfter_seq _ _ b
    · rw [retransmitted_bheld]
      intro b hb hany
      obtain ⟨b, -, rfl⟩ := List.mem_map.mp hb
      rw [cellAfter_seq] at hany
      exact cellAfter_sent hany _
  case noneDue => exact fun k s h => exec_bypassRetransmit_none h
  case young => exact fun k s h => bypassOld_of_young h
  case noneHeld => exact fun k s h => exec_bypassRetransmit_none (.inl (bypassOld_of_none h))

end Sys2Proof.Machine
end

section

/-! A local bus port: its registers and its part of State under what a port does, and the beats it drives: the facts that the statements
of 08_local_bus.md rest on. -/

namespace Sys2Proof.Machine

/-! ## Registers of the ports -/

/-- A register of the local bus ports. -/
abbrev PortReg (a : Nat) : Prop := 0x300000 ≤ a ∧ a < 0x340000

/-- The fields of a port that training, link errors, responses and timeouts write. -/
def portFields (p : Nat) : List Field :=
  [Fld.LB_CTL_EN p, Fld.LB_STATUS_STATE p, Fld.LB_STATUS_BND_SHORT p, Fld.LB_TRAIN_STAT_FAILS p, Fld.LB_TRAIN_STAT_LAST_ERR p,
   Fld.LB_ERR_CNT_CRC p, Fld.LB_ERR_CNT_PARITY p, Fld.LB_ERR_CNT_NAK_SENT p, Fld.LB_ERR_CNT_NAK_RCVD p, Fld.LB_TMO_CNT_TIMEOUT p,
   Fld.LB_TMO_CNT_LATE p, Fld.LB_SRB_CNT_DROPPED p]

theorem portReg_of_mem {p : Fin 4} {f : Field} (h : f ∈ portFields p) : PortReg f.addr := by
  have hall : ∀ p : Fin 4, ∀ f ∈ portFields p, PortReg f.addr := by decide
  exact hall p f h

theorem fits_of_mem {p : Fin 4} {f : Field} (h : f ∈ portFields p) : f.Fits := by
  have hall : ∀ p : Fin 4, ∀ f ∈ portFields p, f.Fits := by decide
  exact hall p f h

/-! ## A port's sources -/

section lbRaiseLaws

variable {p : Fin 4} {off : Nat} (s : State)

/-- No source that a port raises writes a register of the ports. -/
theorem lbRaise_word (hoff : off < 16) {a : Nat} (ha : PortReg a) : (lbRaise p off s).word a = s.word a :=
  word_raise _ s a (notMem_raiseRegs (by omega) (by omega))

theorem lbRaise_get (hoff : off < 16) {f : Field} (hf : f ∈ portFields p) : (lbRaise p off s).get f = s.get f := by
  unfold State.get
  rw [lbRaise_word s hoff (portReg_of_mem hf)]

theorem lbRaise_keeps (p off : Nat) : Keeps 0x102002D3AB s (lbRaise p off s) := keeps_lbRaise p off rfl (keeps_refl _ s)

theorem lbRaise_lbs (p off : Nat) : (lbRaise p off s).lbs = s.lbs := (lbRaise_keeps s p off).same .lbs rfl

@[simp] theorem lbRaise_lb (p off q : Nat) : (lbRaise p off s).lb q = s.lb q := by
  unfold State.lb
  rw [lbRaise_lbs]

@[simp] theorem lbRaise_now (p off : Nat) : (lbRaise p off s).now = s.now := (lbRaise_keeps s p off).same .now rfl

theorem lbRaise_lbState (hoff : off < 16) : (lbRaise p off s).lbState p = s.lbState p := lbRaise_get s hoff (by simp [portFields])

theorem lbRaise_lbActive (hoff : off < 16) : (lbRaise p off s).lbActive p = s.lbActive p := by
  unfold State.lbActive
  rw [lbRaise_lbState s hoff]

end lbRaiseLaws

/-! ## The state of a port -/

section portToLaws

variable (p st : Nat) (s : State)

theorem portTo_get {f : Field} (h : (Fld.LB_STATUS_STATE p).Apart f) : (portTo p st s).get f = s.get f := by
  unfold portTo
  dsimp only
  rw [emit_get, devUpd_get, lbUpd_get, get_set_apart s _ f st h]

theorem portTo_lbState {st : Nat} (h : st < 8) : (portTo p st s).lbState p = st := by
  have hset : (s.set (Fld.LB_STATUS_STATE p) st).get (Fld.LB_STATUS_STATE p) = st % 2 ^ 3 :=
    get_set_same s _ st ⟨show 29 ≤ 31 by decide, show 31 < 32 by decide⟩
  unfold State.lbState portTo
  dsimp only
  rw [emit_get, devUpd_get, lbUpd_get, hset]
  exact Nat.mod_eq_of_lt h

theorem portTo_lb : (portTo p st s).lb p = { s.lb p with since := s.now } := by
  unfold portTo
  dsimp only
  rw [emit_lb, devUpd_lb, lbUpd_same, set_lb]

theorem portTo_out : (portTo p st s).out = .lbTx p (lbDrives st).1 (lbDrives st).2 :: s.out := by
  unfold portTo
  dsimp only
  rw [emit_out, devUpd_out, lbUpd_out, set_out]

theorem portTo_now : (portTo p st s).now = s.now := by
  unfold portTo
  dsimp only
  rw [emit_now, devUpd_now, lbUpd_now, set_now]

end portToLaws

theorem lbUpd_lbState (p q : Nat) (f : Lb → Lb) (s : State) : (s.lbUpd q f).lbState p = s.lbState p := rfl

theorem lbState_of_active {p : Nat} {s : State} (h : s.lbActive p = true) : s.lbState p = 4 := beq_iff_eq.mp h

theorem lbActive_of_lbState {p : Nat} {s : State} (h : s.lbState p = 4) : s.lbActive p = true := beq_iff_eq.mpr h

theorem not_lbActive_of_lbState {p : Nat} {s : State} (h : s.lbState p ≠ 4) : s.lbActive p = false := beq_eq_false_iff_ne.mpr h

/-- A field of a port beside STATE shares no bit with a port's STATE. -/
theorem lbState_set {p : Nat} {f : Field} (h : f.Apart (Fld.LB_STATUS_STATE p)) (v : Nat) (s : State) :
    (s.set f v).lbState p = s.lbState p := get_set_apart s f _ v h

/-! ## Beats -/

theorem getLsbD_eq_bitOf (d : Word) (k i : Nat) : d.getLsbD (8 * k + i) = bitOf (d.toNat / 2 ^ (8 * k)) i := by
  rw [BitVec.getLsbD, Nat.testBit_eq_decide_div_mod_eq, bitOf, Nat.div_div_eq_div_mul, ← Nat.pow_add, beq_eq_decide]

/-- How many bits of byte `k` are 1. -/
theorem onesOf_eq_popCount (d : Word) (k : Nat) :
    ((List.range 8).filter fun i => d.getLsbD (8 * k + i)).length = popCount 8 (d.toNat / 2 ^ (8 * k)) := by
  simp only [popCount, getLsbD_eq_bitOf]

/-- The bits of a number made of four. -/
theorem fourBits_getLsbD (b : Fin 4 → Fin 2) (k : Fin 4) :
    ((BitVec.ofNat 4 (([0, 1, 2, 3].map fun i : Fin 4 => (b i).val * 2 ^ i.val).sum)).getLsbD k.val).toNat = (b k).val := by
  have hall : ∀ x y z w : Fin 2, ∀ k : Fin 4,
      ((BitVec.ofNat 4 (x.val * 2 ^ 0 + (y.val * 2 ^ 1 + (z.val * 2 ^ 2 + (w.val * 2 ^ 3 + 0))))).getLsbD k.val).toNat = (![x, y, z, w] k).val := by
    decide
  have hb : ![b 0, b 1, b 2, b 3] = b := by
    ext i
    fin_cases i <;> rfl
  exact (hall (b 0) (b 1) (b 2) (b 3) k).trans (by rw [hb])

/-- Every beat the device makes carries odd parity on each byte (08 R174). -/
theorem oddParity_beat (d : Word) (frame : Bool) : OddParity (beat d frame) := by
  intro k
  have hbit : ((beat d frame).parity.getLsbD k.val).toNat = (popCount 8 (d.toNat / 2 ^ (8 * k.val)) + 1) % 2 :=
    fourBits_getLsbD (fun i => ⟨(popCount 8 (d.toNat / 2 ^ (8 * i.val)) + 1) % 2, Nat.mod_lt _ (by decide)⟩) k
  rw [hbit]
  change (((List.range 8).filter fun i => d.getLsbD (8 * k.val + i)).length + _) % 2 = 1
  rw [onesOf_eq_popCount]
  omega

theorem oddParity_packetBeats (ws : List Word) : ∀ b ∈ packetBeats ws, OddParity b := by
  cases ws with
  | nil => exact fun b hb => absurd hb List.not_mem_nil
  | cons w ws =>
    intro b hb
    obtain rfl | hb := List.mem_cons.mp hb
    · exact oddParity_beat w true
    · obtain ⟨x, -, rfl⟩ := List.mem_map.mp hb
      exact oddParity_beat x false

theorem packetBeats_data (ws : List Word) : (packetBeats ws).map Beat.data = ws := by
  cases ws with
  | nil => rfl
  | cons w ws => simp [packetBeats, beat, Function.comp_def]

theorem packetBeats_length (ws : List Word) : (packetBeats ws).length = ws.length := by
  rw [← List.length_map Beat.data, packetBeats_data]

/-- Of a packet's beats the first alone has its frame bit set (08 R175). -/
theorem packetBeats_frame (ws : List Word) : (packetBeats ws).map Beat.frame = (List.range ws.length).map (fun n => n == 0) := by
  cases ws with
  | nil => rfl
  | cons w ws =>
    simp [packetBeats, beat, List.range_succ_eq_map, Function.comp_def]

/-! ## What a port sends -/

section emitPktLaws

variable (p : Nat) (k : Pkt) (seq : Nat) (s : State)

theorem tellCredits_lb : (tellCredits p s).lb p = { s.lb p with
    told := ((s.lb p).told.zip (s.lb p).freed).map (fun x => (x.1 + min 7 x.2) % 16), freed := (s.lb p).freed.map fun n => n - 7 } :=
  lbUpd_same s p _

/-- A packet leaves as its beats, of which header and trailer are five (08 R175, R180, R183). -/
theorem emitPkt_out : ∃ ws : List Word, ws.length = 5 + ceilDiv (padBeats k.data).length 4 ∧
    (emitPkt p k seq s).out = .lb p (packetBeats ws) :: s.out := by
  refine ⟨_, ?_, rfl⟩
  simp only [List.length_append, hdrWords, beatWords, List.length_cons, List.length_nil, List.length_map, List.length_range]
  omega

theorem emitPkt_regs : (emitPkt p k seq s).regs = s.regs := rfl

theorem emitPkt_get (f : Field) : (emitPkt p k seq s).get f = s.get f := rfl

theorem emitPkt_now : (emitPkt p k seq s).now = s.now := rfl

theorem emitPkt_lb : (emitPkt p k seq s).lb p = (tellCredits p s).lb p := rfl

end emitPktLaws

/-! ## Training -/

section trainingRows

variable {p : Fin 4} {s : State}

theorem exec_lbResetExit_trains (hstate : s.lbState p = 0) (hen : s.isSet (Fld.LB_CTL_EN p) = true)
    (hsince : 2 ≤ s.since (s.lb p).since) (hmode : s.mode = .standby ∨ s.mode = .serving ∨ s.mode = .draining) :
    exec (.lbResetExit p) s = .next (startTrain p s) := by
  change execLbResetExit p s = _
  rw [execLbResetExit, if_pos ⟨hstate, hen, hsince, hmode⟩, done]

theorem exec_lbResetExit_disabled (hen : s.isSet (Fld.LB_CTL_EN p) = false) : exec (.lbResetExit p) s = .next s := by
  change execLbResetExit p s = _
  rw [execLbResetExit, if_neg (by simp [hen]), done]

end trainingRows

theorem startTrain_lbState (p : Nat) (s : State) : (startTrain p s).lbState p = 1 := by
  have hapart : (Fld.LB_TRAIN_STAT_ATTEMPTS p).Apart (Fld.LB_STATUS_STATE p) := by
    simp [Field.Apart, Fld.LB_TRAIN_STAT_ATTEMPTS, Fld.LB_STATUS_STATE]
  unfold startTrain State.lbState
  rw [lbUpd_get, get_inc_apart _ _ _ _ hapart]
  exact portTo_lbState p s (by decide)

theorem startTrain_out (p : Nat) (s : State) : (startTrain p s).out = .lbTx p true .train :: s.out := by
  unfold startTrain
  rw [lbUpd_out, inc_out, portTo_out]
  rfl

/-! ### The receiver locks -/

/-- The deskew value of a line is shown (08 R178). -/
def deskewOne (p : Nat) (delays : List (BitVec 7)) (k : Nat) (s : State) : State :=
  s.set (Fld.LB_DESKEW_VALID p k) 1 |>.set (Fld.LB_DESKEW_DELAY p k) (delays.getD k 0).toNat

/-- The deskew values of the lines below `n` are shown. -/
def deskewed (p n : Nat) (delays : List (BitVec 7)) (s : State) : State := doAll (List.range n) (deskewOne p delays) s

theorem exec_lbReceiverLock_locks {p : Fin 4} {s : State} (h : s.lbState p = 1) (delays : List (BitVec 7)) :
    exec (.lbReceiverLock p delays) s = .next (deskewed p 37 delays (portTo p 2 s)) := by
  change execLbReceiverLock p delays s = _
  rw [execLbReceiverLock, if_pos h]
  rfl

section deskewLaws

variable (p : Fin 4) (delays : List (BitVec 7)) (s : State)

theorem deskewed_succ (n : Nat) : deskewed p (n + 1) delays s = deskewOne p delays n (deskewed p n delays s) := by
  unfold deskewed doAll
  rw [List.range_succ, List.foldl_append, List.foldl_cons, List.foldl_nil]

theorem deskewed_out (n : Nat) : (deskewed p n delays s).out = s.out :=
  doAll_same State.out _ s fun k s => by rw [deskewOne, set_out, set_out]

theorem deskewed_lbState (n : Nat) : (deskewed p n delays s).lbState p = s.lbState p :=
  doAll_same (State.lbState · p) _ s fun k s => by
    have hvalid : (Fld.LB_DESKEW_VALID p k).Apart (Fld.LB_STATUS_STATE p) := by
      simp only [Field.Apart, Fld.LB_DESKEW_VALID, Fld.LB_STATUS_STATE]
      omega
    have hdelay : (Fld.LB_DESKEW_DELAY p k).Apart (Fld.LB_STATUS_STATE p) := by
      simp only [Field.Apart, Fld.LB_DESKEW_DELAY, Fld.LB_STATUS_STATE]
      omega
    rw [deskewOne, lbState_set hdelay, lbState_set hvalid]

/-- The value shown of a line: VALID and DELAY of its own register. -/
theorem get_deskewOne (k : Nat) : (deskewOne p delays k s).get (Fld.LB_DESKEW_VALID p k) = 1 ∧
    (deskewOne p delays k s).get (Fld.LB_DESKEW_DELAY p k) = (delays.getD k 0).toNat := by
  have hapart : (Fld.LB_DESKEW_DELAY p k).Apart (Fld.LB_DESKEW_VALID p k) := by
    simp [Field.Apart, Fld.LB_DESKEW_VALID, Fld.LB_DESKEW_DELAY]
  unfold deskewOne
  rw [get_set_apart _ _ _ _ hapart, get_set_same _ _ _ ⟨le_refl 7, show 7 < 32 by decide⟩,
    get_set_same _ _ _ ⟨Nat.zero_le 6, show 6 < 32 by decide⟩]
  exact ⟨rfl, Nat.mod_eq_of_lt (BitVec.isLt _)⟩

/-- The register of another line stands. -/
theorem get_deskewOne_ne {j k : Nat} (h : k ≠ j) : (deskewOne p delays j s).get (Fld.LB_DESKEW_VALID p k) = s.get (Fld.LB_DESKEW_VALID p k) ∧
    (deskewOne p delays j s).get (Fld.LB_DESKEW_DELAY p k) = s.get (Fld.LB_DESKEW_DELAY p k) := by
  have hoff {f g : Field} (hf : f.Fits) (hg : g.Fits) (haddr : g.addr ≠ f.addr) : f.Apart g := ⟨⟨hf.1, hf.2, hg.1⟩, .inl haddr⟩
  have haddr : 0x300100 + 65536 * p.val + 4 * k ≠ 0x300100 + 65536 * p.val + 4 * j := by omega
  have hvalid (i : Nat) : (Fld.LB_DESKEW_VALID p i).Fits := ⟨le_refl 7, show 7 < 32 by decide⟩
  have hdelay (i : Nat) : (Fld.LB_DESKEW_DELAY p i).Fits := ⟨Nat.zero_le 6, show 6 < 32 by decide⟩
  unfold deskewOne
  rw [get_set_apart _ _ _ _ (hoff (hdelay j) (hvalid k) haddr), get_set_apart _ _ _ _ (hoff (hvalid j) (hvalid k) haddr),
    get_set_apart _ _ _ _ (hoff (hdelay j) (hdelay k) haddr), get_set_apart _ _ _ _ (hoff (hvalid j) (hdelay k) haddr)]
  exact ⟨rfl, rfl⟩

theorem get_deskewed {n k : Nat} (h : k < n) : (deskewed p n delays s).get (Fld.LB_DESKEW_VALID p k) = 1 ∧
    (deskewed p n delays s).get (Fld.LB_DESKEW_DELAY p k) = (delays.getD k 0).toNat := by
  induction n with
  | zero => exact absurd h (Nat.not_lt_zero k)
  | succ n ih =>
    rw [deskewed_succ]
    by_cases hk : k = n
    · subst hk
      exact get_deskewOne p delays _ k
    · obtain ⟨hvalid, hdelay⟩ := get_deskewOne_ne p delays (deskewed p n delays s) hk
      rw [hvalid, hdelay]
      exact ih (by omega)

end deskewLaws

/-! ### INIT -/

/-- A port enters INIT and sends its LINK INIT (08 R177, R188). -/
def initSends (p : Nat) (s : State) : State :=
  portTo p 3 s |>.lbUpd p (fun l => { l with freed := [0, 0, 0, 0], told := [0, 0, 0, 0] }) |> emitPkt p linkInit 0
    |>.lbUpd p fun l => { l with initSent := true }

theorem initSends_initSent (p : Nat) (s : State) : ((initSends p s).lb p).initSent = true := by
  rw [initSends, lbUpd_same]

theorem initSends_initRcvd (p : Nat) (s : State) : ((initSends p s).lb p).initRcvd = (s.lb p).initRcvd := by
  rw [initSends, lbUpd_same, emitPkt_lb, tellCredits_lb, lbUpd_same, portTo_lb]

theorem initSends_lbState (p : Nat) (s : State) : (initSends p s).lbState p = 3 := by
  unfold initSends State.lbState
  rw [lbUpd_get, emitPkt_get, lbUpd_get]
  exact portTo_lbState p s (by decide)

theorem initSends_out (p : Nat) (s : State) : ∃ ws : List Word, ws.length = 5 ∧
    (initSends p s).out = .lb p (packetBeats ws) :: .lbTx p true .idle :: s.out := by
  obtain ⟨ws, hlen, hout⟩ := emitPkt_out p linkInit 0 ((portTo p 3 s).lbUpd p fun l => { l with freed := [0, 0, 0, 0], told := [0, 0, 0, 0] })
  refine ⟨ws, hlen, ?_⟩
  rw [initSends, lbUpd_out, hout, lbUpd_out, portTo_out]
  rfl

theorem tryActive_unheard {p : Nat} {s : State} (h : (s.lb p).initRcvd = false) : tryActive p s = s := by simp [tryActive, h]

theorem tryActive_unsent {p : Nat} {s : State} (h : (s.lb p).initSent = false) : tryActive p s = s := by simp [tryActive, h]

theorem exec_lbLockedBlocksReceived_unheard {p : Fin 4} {s : State} (hstate : s.lbState p = 2) (hr : (s.lb p).initRcvd = false) :
    exec (.lbLockedBlocksReceived p) s = .next (initSends p s) := by
  change execLbLockedBlocksReceived p s = _
  rw [execLbLockedBlocksReceived, if_pos hstate]
  exact congrArg done (tryActive_unheard ((initSends_initRcvd p s).trans hr))

/-- Settles O56: the parity of a beat is computed byte by byte; what a port drives is what `portTo` puts out for its state. -/
theorem beatsAndLinesOfThePorts : Obligations.BeatsAndLinesOfThePorts := by
  unfold Obligations.BeatsAndLinesOfThePorts
  refine ⟨oddParity_beat, fun ws => ⟨oddParity_packetBeats ws, packetBeats_data ws, packetBeats_frame ws⟩, by decide, ?train, ?lock, ?init⟩
  case train =>
    intro p s hstate hen hsince hmode
    refine ⟨_, exec_lbResetExit_trains hstate hen hsince hmode, startTrain_lbState p s, ?_⟩
    rw [startTrain_out]
    exact List.mem_cons_self
  case lock =>
    intro p delays s hstate
    refine ⟨_, exec_lbReceiverLock_locks hstate delays, ?_, ?_⟩
    · rw [deskewed_lbState]
      exact portTo_lbState p s (by decide)
    · rw [deskewed_out, portTo_out]
      exact List.mem_cons_self
  case init =>
    intro p s hstate hr
    obtain ⟨ws, hlen, hout⟩ := initSends_out p s
    refine ⟨_, exec_lbLockedBlocksReceived_unheard hstate hr, ?_, packetBeats ws, ?_, ?_, oddParity_packetBeats ws⟩
    · simp [hout]
    · rw [hout, List.head?_cons]
    · rw [packetBeats_length, hlen]

end Sys2Proof.Machine
end

section

/-! How a local bus port trains, fails and enters ACTIVE (08 R177 to R179, R188, R209). -/

namespace Sys2Proof.Machine

/-- A one-bit field that is set reads 1. -/
theorem get_of_isSet_bit {f : Field} (hf : f.lo = f.hi) {s : State} (h : s.isSet f = true) : s.get f = 1 := by
  have hlt : s.get f < 2 ^ (f.hi + 1 - f.lo) := bitsOf_lt _ _ _
  have hone : f.hi + 1 - f.lo = 1 := by omega
  have hne : s.get f ≠ 0 := bne_iff_ne.mp h
  rw [hone] at hlt
  omega

/-! ## Enable and retrain -/

section enableRows

variable {p : Fin 4} {s : State}

theorem exec_lbCtlEnWrite_on (p : Fin 4) (s : State) : exec (.lbCtlEnWrite p true) s = .next (s.set (Fld.LB_CTL_EN p) 1) := rfl

theorem en_apart_state (p : Nat) : (Fld.LB_CTL_EN p).Apart (Fld.LB_STATUS_STATE p) := by
  simp [Field.Apart, Fld.LB_CTL_EN, Fld.LB_STATUS_STATE]

theorem state_apart_en (p : Nat) : (Fld.LB_STATUS_STATE p).Apart (Fld.LB_CTL_EN p) := by
  simp [Field.Apart, Fld.LB_CTL_EN, Fld.LB_STATUS_STATE]

/-- A port that trains or has failed goes to RESET (08 Table 08-12; log 219). -/
theorem portReset_training {p : Nat} {s : State} (hreset : s.lbState p ≠ 0) (hactive : s.lbState p ≠ 4) :
    portReset p s = (portTo p 0 s).lbUpd p fun l => { l with initSent := false, initRcvd := false } := by
  rw [portReset, not_lbActive_of_lbState hactive, if_neg Bool.false_ne_true, if_neg hreset]

theorem exec_lbCtlEnWrite_off (hreset : s.lbState p ≠ 0) (hactive : s.lbState p ≠ 4) :
    exec (.lbCtlEnWrite p false) s = .next ((portTo p 0 (s.set (Fld.LB_CTL_EN p) 0)).lbUpd p fun l =>
      { l with initSent := false, initRcvd := false }) := by
  have hset : (s.set (Fld.LB_CTL_EN p) 0).lbState p = s.lbState p := lbState_set (en_apart_state p) 0 s
  change done (lbCtlEn p false s) = _
  rw [lbCtlEn, Bool.toNat_false, Bool.not_false, doIf_true, portReset_training (hset.trans_ne hreset) (hset.trans_ne hactive), done]

theorem exec_lbRetrain_idle (h : s.lbActive p = false) : exec (.lbRetrain p) s = .next s := by
  change done (lbRetrain p s) = _
  rw [lbRetrain, h, doIf_false, done]

theorem exec_lbRetrain_active (h : s.lbActive p = true) : exec (.lbRetrain p) s = .next (leaveActive p 0 s) := by
  change done (lbRetrain p s) = _
  rw [lbRetrain, h, doIf_true, done]

theorem exec_lbTrainingBlocksInActive_active (h : s.lbActive p = true) :
    exec (.lbTrainingBlocksInActive p) s = .next (startTrain p (leaveActive p 1 s)) := by
  change execLbTrainingBlocksInActive p s = _
  rw [execLbTrainingBlocksInActive, if_pos h, done]

end enableRows

/-! ## Failed training -/

section failedLaws

variable (p : Fin 4) (s : State)

theorem portFailed_get {f : Field} (hf : f ∈ portFields p) (herr : (Fld.LB_TRAIN_STAT_LAST_ERR p).Apart f)
    (hfails : (Fld.LB_TRAIN_STAT_FAILS p).Apart f) (err : Nat) : (portFailed p err s).get f = (portTo p 5 s).get f := by
  unfold portFailed
  rw [lbUpd_get, lbRaise_get _ (by decide) hf, get_inc_apart _ _ _ _ hfails, get_set_apart _ _ _ _ herr]

theorem portFailed_lbState (err : Nat) : (portFailed p err s).lbState p = 5 := by
  refine (portFailed_get p s (by simp [portFields]) ?_ ?_ err).trans (portTo_lbState p s (by decide))
  · simp [Field.Apart, Fld.LB_TRAIN_STAT_LAST_ERR, Fld.LB_STATUS_STATE]
  · simp [Field.Apart, Fld.LB_TRAIN_STAT_FAILS, Fld.LB_STATUS_STATE]

theorem portFailed_lastErr {err : Nat} (h : err < 256) : (portFailed p err s).get (Fld.LB_TRAIN_STAT_LAST_ERR p) = err := by
  have hfails : (Fld.LB_TRAIN_STAT_FAILS p).Apart (Fld.LB_TRAIN_STAT_LAST_ERR p) := by
    simp [Field.Apart, Fld.LB_TRAIN_STAT_FAILS, Fld.LB_TRAIN_STAT_LAST_ERR]
  unfold portFailed
  rw [lbUpd_get, lbRaise_get _ (by decide) (by simp [portFields]), get_inc_apart _ _ _ _ hfails,
    get_set_same _ _ _ ⟨Nat.zero_le 7, show 7 < 32 by decide⟩]
  exact Nat.mod_eq_of_lt h

end failedLaws

section failedRows

variable {p : Fin 4} {s : State}

/-- LAST_ERR of a training timeout, by the state it meets (08 R179). -/
theorem exec_lbTrainTimeout_due {strobe : Bool} {err : Nat} (hdue : s.get (Fld.LB_TRAIN_TMO p) ≤ s.since (s.lb p).released)
    (herr : s.lbState p = 1 ∧ err = (if strobe then 2 else 1) ∨ (s.lbState p = 2 ∨ s.lbState p = 3) ∧ err = s.lbState p + 1) :
    exec (.lbTrainTimeout p strobe) s = .next (portFailed p err s) := by
  change execLbTrainTimeout p strobe s = _
  rw [execLbTrainTimeout, if_pos hdue]
  obtain ⟨hstate, rfl⟩ | ⟨hstate | hstate, rfl⟩ := herr <;> rw [hstate] <;> rfl

theorem exec_lbFailedGapExpiry_due (hstate : s.lbState p = 5) (hdue : s.get (Fld.LB_TRAIN_GAP p) ≤ s.since (s.lb p).since) :
    exec (.lbFailedGapExpiry p) s = .next (portTo p 0 s) := by
  change execLbFailedGapExpiry p s = _
  rw [execLbFailedGapExpiry, if_pos ⟨hstate, hdue⟩, done]

theorem exec_linkInitReceive_rev {counts : Word} {rev : BitVec 8} (hstate : s.lbState p = 3) (hrev : rev ≠ 1) :
    exec (.linkInitReceive p counts rev) s = .next (portFailed p 5 s) := by
  change execLinkInitReceive p counts rev s = _
  rw [execLinkInitReceive, if_neg (not_not_intro hstate), if_pos hrev, done]

theorem exec_linkInitReceive_zero {counts : Word} (hstate : s.lbState p = 3) (hzero : bitsOf counts.toNat 7 0 = 0) :
    exec (.linkInitReceive p counts 1) s = .next (portFailed p 6 s) := by
  change execLinkInitReceive p counts 1 s = _
  rw [execLinkInitReceive, if_neg (not_not_intro hstate), if_neg (not_not_intro rfl), if_pos (by simp [hzero]), done]

end failedRows

/-! ## A valid LINK INIT -/

section bndShortLaws

variable {p : Fin 4} (s : State)

theorem bndShort_lb (p q : Nat) : (bndShort p s).lb q = s.lb q := by
  unfold bndShort
  split
  · rfl
  · rw [lbRaise_lb, set_lb]

theorem bndShort_word {a : Nat} (ha : PortReg a) (hne : a ≠ (Fld.LB_STATUS_BND_SHORT p).addr) : (bndShort p s).word a = s.word a := by
  unfold bndShort
  split
  · rfl
  · rw [lbRaise_word _ (by decide) ha, word_set_ne _ _ _ hne]

theorem bndShort_get {f : Field} (hf : f ∈ portFields p) (hapart : (Fld.LB_STATUS_BND_SHORT p).Apart f) : (bndShort p s).get f = s.get f := by
  unfold bndShort
  split
  · rfl
  · rw [lbRaise_get _ (by decide) hf, get_set_apart _ _ _ _ hapart]

theorem bndShort_lbState : (bndShort p s).lbState p = s.lbState p :=
  bndShort_get s (by simp [portFields]) (by simp [Field.Apart, Fld.LB_STATUS_BND_SHORT, Fld.LB_STATUS_STATE])

theorem get_bndShort : (bndShort p s).get (Fld.LB_STATUS_BND_SHORT p) = 1 := by
  unfold bndShort
  split
  case isTrue hset => exact get_of_isSet_bit rfl hset
  case isFalse =>
    rw [lbRaise_get _ (by decide) (by simp [portFields]), get_set_same _ _ _ ⟨le_refl 28, show 28 < 32 by decide⟩]
    rfl

end bndShortLaws

/-- A valid LINK INIT is taken: its counts, and whether the agent's BND count is short (08 R188, R190). -/
def initHeard (p : Nat) (counts : Word) (s : State) : State :=
  s.setWord (Adr.LB_CRED p) counts
    |>.lbUpd p (fun l => { l with initRcvd := true, agent := [bitsOf counts.toNat 7 0, bitsOf counts.toNat 15 8, bitsOf counts.toNat 23 16,
                                                             bitsOf counts.toNat 31 24] })
    |> doIf (decide (bitsOf counts.toNat 7 0 < 32)) (bndShort p)

section initHeardLaws

variable {p : Fin 4} {counts : Word} {s : State}

theorem exec_linkInitReceive_good (hstate : s.lbState p = 3) (hbnd : bitsOf counts.toNat 7 0 ≠ 0) (hp : bitsOf counts.toNat 15 8 ≠ 0)
    (hnp : bitsOf counts.toNat 23 16 ≠ 0) (hrsp : bitsOf counts.toNat 31 24 ≠ 0) :
    exec (.linkInitReceive p counts 1) s = .next (tryActive p (initHeard p counts s)) := by
  change execLinkInitReceive p counts 1 s = _
  rw [execLinkInitReceive, if_neg (not_not_intro hstate), if_neg (not_not_intro rfl), if_neg (by simp [hbnd, hp, hnp, hrsp])]
  rfl

variable (p counts s)

theorem initHeard_lb : (initHeard p counts s).lb p =
    { s.lb p with initRcvd := true, agent := [bitsOf counts.toNat 7 0, bitsOf counts.toNat 15 8, bitsOf counts.toNat 23 16,
                                              bitsOf counts.toNat 31 24] } := by
  rw [initHeard, doIf_same (State.lb · p) _ _ fun s => bndShort_lb s p p, lbUpd_same, setWord_lb]

theorem initHeard_lbState : (initHeard p counts s).lbState p = s.lbState p := by
  rw [initHeard, doIf_same (State.lbState · p) _ _ fun s => bndShort_lbState s]
  refine get_setWord_ne counts s ?_
  simp [Fld.LB_STATUS_STATE, Adr.LB_CRED]

theorem initHeard_cred : (initHeard p counts s).word (Adr.LB_CRED p) = counts := by
  have hreg : PortReg (Adr.LB_CRED p) := by
    simp only [PortReg, Adr.LB_CRED]
    omega
  rw [initHeard, doIf_same (State.word · (Adr.LB_CRED p)) _ _ fun s => bndShort_word s hreg (by simp [Fld.LB_STATUS_BND_SHORT, Adr.LB_CRED]),
    lbUpd_word, word_setWord_same]

theorem get_initHeard_bndShort : (initHeard p counts s).get (Fld.LB_STATUS_BND_SHORT p) =
    if bitsOf counts.toNat 7 0 < 32 then 1 else s.get (Fld.LB_STATUS_BND_SHORT p) := by
  unfold initHeard
  by_cases hshort : bitsOf counts.toNat 7 0 < 32
  · rw [decide_eq_true hshort, doIf_true, get_bndShort, if_pos hshort]
  · rw [decide_eq_false hshort, doIf_false, lbUpd_get, if_neg hshort]
    exact get_setWord_ne counts s (by simp [Fld.LB_STATUS_BND_SHORT, Adr.LB_CRED])

end initHeardLaws

/-! ## ACTIVE is entered -/

theorem tryActive_enters {p : Nat} {s : State} (hstate : s.lbState p = 3) (hsent : (s.lb p).initSent = true) (hrcvd : (s.lb p).initRcvd = true) :
    tryActive p s = enterActive p s := by
  rw [tryActive, if_pos ⟨hstate, hsent, hrcvd⟩]

/-- Entry to ACTIVE before the LINT edges held become items (08 R209). -/
def activeStart (p : Nat) (s : State) : State :=
  portTo p 4 s
    |>.lbUpd p (fun l => { l with txSeq := 0, rxSeq := 0, cred := l.agent, seen := [0, 0, 0, 0], freed := [0, 0, 0, 0],
                                  told := [0, 0, 0, 0], lint := [], lintWait := [], bndSent := [] })
    |> lbRaise p 0

theorem enterActive_of_no_lint {p : Nat} {s : State} (h : (s.lb p).lint = []) : enterActive p s = activeStart p s := by
  rw [enterActive, h]
  rfl

section activeStartLaws

variable (p : Fin 4) (s : State)

theorem activeStart_lb : ((activeStart p s).lb p).txSeq = 0 ∧ ((activeStart p s).lb p).rxSeq = 0 := by
  rw [activeStart, lbRaise_lb, lbUpd_same]
  exact ⟨rfl, rfl⟩

theorem activeStart_lbState : (activeStart p s).lbState p = 4 := by
  unfold activeStart State.lbState
  rw [lbRaise_get _ (by decide) (by simp [portFields]), lbUpd_get]
  exact portTo_lbState p s (by decide)

theorem get_activeStart_bndShort : (activeStart p s).get (Fld.LB_STATUS_BND_SHORT p) = s.get (Fld.LB_STATUS_BND_SHORT p) := by
  unfold activeStart
  rw [lbRaise_get _ (by decide) (by simp [portFields]), lbUpd_get]
  exact portTo_get p 4 s (by simp [Field.Apart, Fld.LB_STATUS_BND_SHORT, Fld.LB_STATUS_STATE])

end activeStartLaws

/-- Settles O24: one equation for each row under its conditions, then the registers of the state it names. -/
theorem portTrainingAndFailure : Obligations.PortTrainingAndFailure := by
  unfold Obligations.PortTrainingAndFailure
  refine ⟨exec_lbCtlEnWrite_on, ?off, fun _ _ => exec_lbResetExit_trains, fun _ _ => exec_lbResetExit_disabled, fun _ _ => exec_lbRetrain_idle,
    fun _ _ => exec_lbRetrain_active, fun _ _ => exec_lbTrainingBlocksInActive_active, ?lock, ?blocks, ?timeoutTrain, ?timeout, ?gap, ?rev, ?zero,
    ?noted, ?active⟩
  case off =>
    intro p s hreset hactive
    refine ⟨_, exec_lbCtlEnWrite_off hreset hactive, (lbUpd_lbState p p _ _).trans (portTo_lbState p _ (by decide)), ?_⟩
    rw [lbUpd_get, portTo_get p 0 _ (state_apart_en p), get_set_same _ _ _ ⟨le_refl 31, show 31 < 32 by decide⟩]
    rfl
  case lock =>
    intro p delays s hstate
    refine ⟨_, exec_lbReceiverLock_locks hstate delays, ?_, fun k hk => get_deskewed p delays _ (List.mem_range.mp hk)⟩
    rw [deskewed_lbState]
    exact portTo_lbState p s (by decide)
  case blocks =>
    exact fun p s hstate hr => ⟨_, exec_lbLockedBlocksReceived_unheard hstate hr, initSends_lbState p s, initSends_initSent p s⟩
  case timeoutTrain =>
    intro p strobe s hstate hdue
    refine ⟨_, exec_lbTrainTimeout_due hdue (.inl ⟨hstate, rfl⟩), portFailed_lbState p s _, portFailed_lastErr p s ?_⟩
    cases strobe <;> decide
  case timeout =>
    intro p strobe s hstate hdue
    exact ⟨_, exec_lbTrainTimeout_due hdue (.inr ⟨hstate, rfl⟩), portFailed_lbState p s _, portFailed_lastErr p s (by omega)⟩
  case gap => exact fun p s hstate hdue => ⟨_, exec_lbFailedGapExpiry_due hstate hdue, portTo_lbState p s (by decide)⟩
  case rev =>
    exact fun p counts rev s hstate hrev => ⟨_, exec_linkInitReceive_rev hstate hrev, portFailed_lbState p s 5, portFailed_lastErr p s (by decide)⟩
  case zero =>
    exact fun p counts s hstate hzero => ⟨_, exec_linkInitReceive_zero hstate hzero, portFailed_lbState p s 6, portFailed_lastErr p s (by decide)⟩
  case noted =>
    intro p counts s hstate hsent hbnd hp hnp hrsp
    refine ⟨_, exec_linkInitReceive_good hstate hbnd hp hnp hrsp, ?_⟩
    beta_reduce
    rw [tryActive_unsent (by rw [initHeard_lb]; exact hsent), initHeard_lbState, initHeard_lb, initHeard_cred]
    exact ⟨hstate, rfl, rfl⟩
  case active =>
    intro p counts s hstate hsent hlint hbnd hp hnp hrsp
    have hlb := initHeard_lb p counts s
    refine ⟨_, exec_linkInitReceive_good hstate hbnd hp hnp hrsp, ?_⟩
    beta_reduce
    rw [tryActive_enters ((initHeard_lbState p counts s).trans hstate) (by rw [hlb]; exact hsent) (by rw [hlb]),
      enterActive_of_no_lint (by rw [hlb]; exact hlint), activeStart_lbState, get_activeStart_bndShort, get_initHeard_bndShort]
    exact ⟨rfl, (activeStart_lb p _).1, (activeStart_lb p _).2, rfl⟩

end Sys2Proof.Machine
end

section

/-! Credits, NAKs, link errors and what leaves of an ACTIVE local bus port, and what of it stays within the port (08 R184 to R192). -/

namespace Sys2Proof.Machine

/-! ## Credits and link errors -/

section creditLaws

variable (p : Nat) (v : BitVec 16) (s : State)

/-- The counts of a received trailer, as the port keeps them (08 R189). -/
def seenOf (v : BitVec 16) : List Nat := [bitsOf v.toNat 3 0, bitsOf v.toNat 7 4, bitsOf v.toNat 11 8, bitsOf v.toNat 15 12]

theorem takeCredits_lb : ∃ (cred : List Nat) (bnd : List Stroke), (takeCredits p v s).lb p =
    { s.lb p with cred := cred, seen := seenOf v, bndSent := bnd } := ⟨_, _, lbUpd_same s p _⟩

theorem takeCredits_lb_ne {q : Nat} (h : q ≠ p) : (takeCredits p v s).lb q = s.lb q := lbUpd_ne s _ h

theorem takeCredits_get (f : Field) : (takeCredits p v s).get f = s.get f := rfl

theorem takeCredits_now : (takeCredits p v s).now = s.now := rfl

end creditLaws

section linkErrorLaws

variable (p : Fin 4) (s : State)

/-- A link error asks for one NAK with the expected SEQ while none is outstanding (08 R185, R187). -/
theorem linkError_lb : (linkError p s).lb p =
    { s.lb p with errAt := some s.now, errOut := true, naks := if (s.lb p).errOut then (s.lb p).naks else (s.lb p).naks ++ [(s.lb p).rxSeq] } := by
  unfold linkError
  simp only [lbUpd_same, lbRaise_lb]
  cases hout : (s.lb p).errOut
  · rw [if_neg Bool.false_ne_true, if_neg Bool.false_ne_true, lbUpd_same, lbUpd_same, lbRaise_lb]
  · rw [if_pos rfl, if_pos rfl, lbUpd_same, lbRaise_lb, ← hout]

theorem linkError_lb_ne {q : Nat} (h : q ≠ p) : (linkError p s).lb q = s.lb q := by
  unfold linkError
  dsimp only
  split
  · rw [lbUpd_ne _ _ h, lbRaise_lb]
  · rw [lbUpd_ne _ _ h, lbUpd_ne _ _ h, lbRaise_lb]

theorem linkError_get {f : Field} (hf : f ∈ portFields p) : (linkError p s).get f = s.get f := by
  unfold linkError
  dsimp only
  split
  · rw [lbUpd_get, lbRaise_get _ (by decide) hf]
  · rw [lbUpd_get, lbUpd_get, lbRaise_get _ (by decide) hf]

end linkErrorLaws

section linkErrorRows

variable {p : Fin 4} {s : State}

theorem exec_lbLinkError_crc (h : s.lbActive p = true) :
    exec (.lbLinkError p .crc none) s = .next (linkError p (s.inc (Fld.LB_ERR_CNT_CRC p) 1)) := by
  change execLbLinkError p .crc none s = _
  rw [execLbLinkError, if_pos h]
  rfl

theorem exec_lbLinkError_parity (h : s.lbActive p = true) :
    exec (.lbLinkError p .parity none) s = .next (linkError p (s.inc (Fld.LB_ERR_CNT_PARITY p) 1)) := by
  change execLbLinkError p .parity none s = _
  rw [execLbLinkError, if_pos h]
  rfl

theorem exec_lbLinkError_op (h : s.lbActive p = true) (v : BitVec 16) :
    exec (.lbLinkError p .op (some v)) s = .next (linkError p (takeCredits p v s)) := by
  change execLbLinkError p .op (some v) s = _
  rw [execLbLinkError, if_pos h]
  rfl

theorem exec_lbLinkError_init (h : s.lbState p = 3) (v : Option (BitVec 16)) : exec (.lbLinkError p .crc v) s = .next (portFailed p 4 s) := by
  change execLbLinkError p .crc v s = _
  rw [execLbLinkError, not_lbActive_of_lbState (by rw [h]; decide), if_neg Bool.false_ne_true, if_pos ⟨h, by decide⟩, done]

theorem exec_linkCreditReceive_active (h : s.lbActive p = true) (credits : BitVec 16) :
    exec (.linkCreditReceive p credits) s = .next (takeCredits p credits s) := by
  change execLinkCreditReceive p credits s = _
  rw [execLinkCreditReceive, if_pos h, done]

theorem exec_lbNakTimeout_idle (h : (s.lb p).errOut = false ∨ (s.lb p).naks ≠ []) : exec (.lbNakTimeout p) s = .next s := by
  change execLbNakTimeout p s = _
  rw [execLbNakTimeout, if_neg fun ⟨_, hout, hnaks⟩ => h.elim (fun hf => by simp [hf] at hout) (absurd hnaks), done]

theorem exec_lbNakTimeout_due (h : s.lbActive p = true) (hout : (s.lb p).errOut = true) (hnaks : (s.lb p).naks = []) :
    exec (.lbNakTimeout p) s = .next (leaveActive p 0 s) := by
  change execLbNakTimeout p s = _
  rw [execLbNakTimeout, if_pos ⟨h, hout, hnaks⟩, done]

theorem exec_lbBndCreditLate_late {v : Stroke} {vs : List Stroke} (h : s.lbActive p = true) (hsent : (s.lb p).bndSent = v :: vs)
    (hlate : 1 ≤ s.since v) : exec (.lbBndCreditLate p) s = .next (bndShort p s) := by
  change execLbBndCreditLate p s = _
  simp only [execLbBndCreditLate, hsent]
  rw [if_pos ⟨h, hlate⟩, done]

end linkErrorRows

/-! ## NAKs and replay -/

theorem nakSeen_first {p : Nat} {s : State} (h : (s.lb p).lastNak = none) :
    nakSeen p s = s.lbUpd p fun l => { l with lastNak := some s.now } := by
  simp only [nakSeen, h]

/-- A NAK comes: its credits are taken, it is counted, LBn_LINK_ERR is raised (08 R186, R187). -/
def lbNakHeard (p : Nat) (credits : BitVec 16) (s : State) : State :=
  takeCredits p credits s |>.inc (Fld.LB_ERR_CNT_NAK_RCVD p) 1 |> lbRaise p 3

/-- The packets from a place of the held ones on go again; the NAK is noted (08 R186, R187). -/
def lbReplayFrom (p i : Nat) (s : State) : State :=
  s.lbUpd p (fun l => { l with replay := ((s.lb p).held.drop i).map fun e => (e.1, e.2.1) })
    |>.lbUpd p fun l => { l with lastNak := some s.now }

section nakLaws

variable (p : Fin 4) (credits : BitVec 16) (s : State)

theorem lbNakHeard_lb (q : Nat) : (lbNakHeard p credits s).lb q = (takeCredits p credits s).lb q := by
  rw [lbNakHeard, lbRaise_lb, inc_lb]

theorem lbNakHeard_now : (lbNakHeard p credits s).now = s.now := by
  rw [lbNakHeard, lbRaise_now, inc_now, takeCredits_now]

theorem get_lbNakHeard_rcvd : (lbNakHeard p credits s).get (Fld.LB_ERR_CNT_NAK_RCVD p) =
    min (Fld.LB_ERR_CNT_NAK_RCVD p).max (s.get (Fld.LB_ERR_CNT_NAK_RCVD p) + 1) := by
  rw [lbNakHeard, lbRaise_get _ (by decide) (by simp [portFields]), get_inc_same _ _ _ (fits_of_mem (p := p) (by simp [portFields])), takeCredits_get]

theorem lbNakHeard_lbState : (lbNakHeard p credits s).lbState p = s.lbState p := by
  have hapart : (Fld.LB_ERR_CNT_NAK_RCVD p).Apart (Fld.LB_STATUS_STATE p) := by
    simp [Field.Apart, Fld.LB_ERR_CNT_NAK_RCVD, Fld.LB_STATUS_STATE]
  rw [lbNakHeard, lbRaise_lbState _ (by decide)]
  exact get_inc_apart _ _ _ _ hapart

variable {p credits s}

theorem exec_linkNakReceive_held {seq : BitVec 8} {i : Nat} (h : s.lbActive p = true) (hlast : (s.lb p).lastNak = none)
    (hheld : ((s.lb p).held.findIdx? fun e => e.1 == seq.toNat) = some i) :
    exec (.linkNakReceive p seq credits) s = .next (lbReplayFrom p i (lbNakHeard p credits s)) := by
  obtain ⟨cred, bnd, hlb⟩ := takeCredits_lb p credits s
  have hheld' : (((lbNakHeard p credits s).lb p).held.findIdx? fun e => e.1 == seq.toNat) = some i := by
    rw [lbNakHeard_lb, hlb]
    exact hheld
  have hlast' : ((lbNakHeard p credits s).lb p).lastNak = none := by
    rw [lbNakHeard_lb, hlb]
    exact hlast
  change execLinkNakReceive p seq credits s = _
  rw [execLinkNakReceive, if_neg (not_not_intro h)]
  change done (match ((lbNakHeard p credits s).lb p).held.findIdx? fun e => e.1 == seq.toNat with
    | none => protoErr p 7 seq.toNat (lbNakHeard p credits s)
    | some i => _) = _
  rw [hheld']
  exact congrArg done (nakSeen_first (by rw [lbUpd_same]; exact hlast'))

end nakLaws

/-! ## Egress -/

section emitLaws

variable (p : Nat) (k : Pkt) (seq : Nat) (s : State)

theorem emitPkt_naks : ((emitPkt p k seq s).lb p).naks = (s.lb p).naks := by rw [emitPkt_lb, tellCredits_lb]

theorem emitPkt_replay : ((emitPkt p k seq s).lb p).replay = (s.lb p).replay := by rw [emitPkt_lb, tellCredits_lb]

theorem emitPkt_held : ((emitPkt p k seq s).lb p).held = (s.lb p).held := by rw [emitPkt_lb, tellCredits_lb]

theorem emitPkt_lastNak : ((emitPkt p k seq s).lb p).lastNak = (s.lb p).lastNak := by rw [emitPkt_lb, tellCredits_lb]

theorem emitPkt_lb_ne {q : Nat} (h : q ≠ p) : (emitPkt p k seq s).lb q = s.lb q :=
  (show (emitPkt p k seq s).lb q = (tellCredits p s).lb q from rfl).trans (lbUpd_ne s _ h)

end emitLaws

/-- The first NAK that waits leaves and is counted (08 R192). -/
def lbNakSent (p n : Nat) (ns : List Nat) (s : State) : State :=
  s.lbUpd p (fun l => { l with naks := ns }) |>.inc (Fld.LB_ERR_CNT_NAK_SENT p) 1 |> emitPkt p { op := 12, sub := 2, aux := n } 0

section egressRows

variable {p : Fin 4} {s : State}

theorem exec_lbCreditSend_freed (h : s.lbActive p = true) (hfreed : ((s.lb p).freed.any (· != 0)) = true) (hnaks : (s.lb p).naks = [])
    (hreplay : (s.lb p).replay = []) (hready : c0Ready (s.lb p) = false) :
    exec (.lbCreditSend p) s = .next (emitPkt p { op := 12, sub := 0 } 0 s) := by
  change execLbCreditSend p s = _
  rw [execLbCreditSend, if_pos ⟨h, hfreed, hnaks, hreplay, hready⟩, done]

theorem lbNakSent_lb_naks (p n : Nat) (ns : List Nat) (s : State) : ((lbNakSent p n ns s).lb p).naks = ns := by
  rw [lbNakSent, emitPkt_naks, inc_lb, lbUpd_same]

theorem lbNakSent_lb_ne {p q : Nat} (hq : q ≠ p) (n : Nat) (ns : List Nat) (s : State) : (lbNakSent p n ns s).lb q = s.lb q := by
  rw [lbNakSent, emitPkt_lb_ne _ _ _ _ hq, inc_lb, lbUpd_ne _ _ hq]

theorem lbNakSent_now (p n : Nat) (ns : List Nat) (s : State) : (lbNakSent p n ns s).now = s.now := by
  rw [lbNakSent, emitPkt_now, inc_now, lbUpd_now]

theorem get_lbNakSent (p : Fin 4) (n : Nat) (ns : List Nat) (s : State) : (lbNakSent p n ns s).get (Fld.LB_ERR_CNT_NAK_SENT p) =
    min (Fld.LB_ERR_CNT_NAK_SENT p).max (s.get (Fld.LB_ERR_CNT_NAK_SENT p) + 1) := by
  rw [lbNakSent, emitPkt_get, get_inc_same _ _ _ (fits_of_mem (p := p) (by simp [portFields])), lbUpd_get]

theorem exec_lbEgressPacket_nak {n : Nat} {ns : List Nat} (h : s.lbActive p = true) (hnaks : (s.lb p).naks = n :: ns)
    (hlast : (s.lb p).lastNak = none) :
    exec (.lbEgressPacket p) s = .next ((lbNakSent p n ns s).lbUpd p fun l => { l with lastNak := some s.now }) := by
  have hlast' : ((lbNakSent p n ns s).lb p).lastNak = none := by
    rw [lbNakSent, emitPkt_lastNak, inc_lb, lbUpd_same]
    exact hlast
  change execLbEgressPacket p s = _
  rw [execLbEgressPacket, if_neg (not_not_intro h)]
  simp only [hnaks]
  rw [← lbNakSent_now p n ns s]
  exact congrArg done (nakSeen_first hlast')

theorem exec_lbEgressPacket_replay {q : Nat} {k : Pkt} {rs : List (Nat × Pkt)} (h : s.lbActive p = true) (hnaks : (s.lb p).naks = [])
    (hreplay : (s.lb p).replay = (q, k) :: rs) :
    exec (.lbEgressPacket p) s = .next (emitPkt p k q (s.lbUpd p fun l =>
      { l with replay := rs, held := l.held.map fun e => if e.1 = q then (q, e.2.1, s.now) else e })) := by
  change execLbEgressPacket p s = _
  rw [execLbEgressPacket, if_neg (not_not_intro h)]
  simp only [hnaks, hreplay]
  rfl

end egressRows

/-- Settles O25: one equation for each row under its conditions, then the port and the counters of the state it names. -/
theorem portCreditsErrorsAndEgress : Obligations.PortCreditsErrorsAndEgress := by
  unfold Obligations.PortCreditsErrorsAndEgress
  refine ⟨fun _ credits _ h => exec_linkCreditReceive_active h credits, ?nak, ?crc, ?parity, ?op, ?init, fun _ _ => exec_lbNakTimeout_idle,
    fun _ _ => exec_lbNakTimeout_due, fun _ _ => exec_lbCreditSend_freed, ?bnd, ?nakOut, ?replay⟩
  case nak =>
    intro p seq credits i s h hlast hheld
    obtain ⟨cred, bnd, hlb⟩ := takeCredits_lb p credits s
    refine ⟨_, exec_linkNakReceive_held h hlast hheld, ?_⟩
    beta_reduce
    rw [lbReplayFrom, lbUpd_same, lbUpd_same, lbUpd_get, lbUpd_get, get_lbNakHeard_rcvd, lbNakHeard_now, lbNakHeard_lb, hlb]
    exact ⟨rfl, rfl, rfl⟩
  case crc =>
    intro p s h hout
    refine ⟨_, exec_lbLinkError_crc h, ?_⟩
    beta_reduce
    rw [linkError_lb, linkError_get _ _ (by simp [portFields]), get_inc_same _ _ _ (fits_of_mem (p := p) (by simp [portFields])), inc_lb, inc_now, hout]
    exact ⟨rfl, rfl, rfl, rfl⟩
  case parity =>
    intro p s h hout
    refine ⟨_, exec_lbLinkError_parity h, ?_⟩
    beta_reduce
    rw [linkError_lb, linkError_get _ _ (by simp [portFields]), get_inc_same _ _ _ (fits_of_mem (p := p) (by simp [portFields])), inc_lb, hout]
    exact ⟨rfl, rfl⟩
  case op =>
    intro p v s h hout
    obtain ⟨cred, bnd, hlb⟩ := takeCredits_lb p v s
    refine ⟨_, exec_lbLinkError_op h v, ?_⟩
    beta_reduce
    rw [linkError_lb, hlb]
    exact ⟨if_pos hout, rfl⟩
  case init => exact fun p v s hstate => ⟨_, exec_lbLinkError_init hstate v, portFailed_lbState p s 4, portFailed_lastErr p s (by decide)⟩
  case bnd =>
    intro p v vs s h hsent hlate
    refine ⟨_, exec_lbBndCreditLate_late h hsent hlate, ?_, (bndShort_lbState s).trans (lbState_of_active h)⟩
    rw [State.isSet, get_bndShort]
    rfl
  case nakOut =>
    intro p n ns s h hnaks hlast
    refine ⟨_, exec_lbEgressPacket_nak h hnaks hlast, ?_⟩
    beta_reduce
    rw [lbUpd_same, lbUpd_get, get_lbNakSent]
    exact ⟨lbNakSent_lb_naks p n ns s, rfl, rfl⟩
  case replay =>
    intro p q k rs s h hnaks hreplay
    refine ⟨_, exec_lbEgressPacket_replay h hnaks hreplay, ?_⟩
    beta_reduce
    rw [emitPkt_replay, emitPkt_held, lbUpd_same]
    exact ⟨rfl, rfl⟩

end Sys2Proof.Machine
end

section

/-! What a port shows of itself while the requests it leaves ACTIVE with are answered: STATE, and whether a link error is outstanding
(08 R187, R209). Answers write registers of other blocks only. -/

namespace Sys2Proof.Machine

/-! ## The view -/

/-- What a port shows: STATE, and whether an error is outstanding. -/
def portView (p : Fin 4) (s : State) : Nat × Bool := (s.lbState p, (s.lb p).errOut)

/-- A field of another block than the local bus ports. -/
abbrev Field.OffPorts (f : Field) : Prop := ¬ PortReg f.addr

section portViewLaws

variable (p : Fin 4) (s : State)

theorem portView_of_same {p : Fin 4} {s t : State} (hword : t.word (Fld.LB_STATUS_STATE p).addr = s.word (Fld.LB_STATUS_STATE p).addr)
    (hlbs : t.lbs = s.lbs) : portView p t = portView p s := by
  unfold portView State.lbState State.get State.lb
  rw [hword, hlbs]

theorem word_of_regs {s t : State} (h : t.regs = s.regs) (a : Nat) : t.word a = s.word a := by
  unfold State.word
  rw [h]

/-- Every part but the registers and the ports. -/
abbrev offPortsMask : Nat := 0x1FFFEFFFF7

theorem portView_of_keeps {p : Fin 4} {s t : State} (h : Keeps offPortsMask s t) : portView p t = portView p s :=
  portView_of_same (word_of_regs (h.same .regs rfl) _) (h.same .lbs rfl)

theorem portView_of_regsOnly {p : Fin 4} {n : Nat} (hn : n < 512) {s t : State} (h : RegsOnly (raiseRegs n) s t) (hlbs : t.lbs = s.lbs) :
    portView p t = portView p s := by
  have hreg : PortReg (Fld.LB_STATUS_STATE p).addr := portReg_of_mem (p := p) (by simp [portFields])
  exact portView_of_same (h _ (notMem_raiseRegs hn (by omega))) hlbs

theorem portView_doIf (c : Bool) {f : State → State} (hf : ∀ s, portView p (f s) = portView p s) : portView p (doIf c f s) = portView p s :=
  doIf_same (portView p) c s hf

theorem portView_doAll {α : Type} (l : List α) {f : α → State → State} (hf : ∀ a s, portView p (f a s) = portView p s) :
    portView p (doAll l f s) = portView p s := doAll_same (portView p) l s hf

theorem portView_set {f : Field} (h : f.OffPorts) (v : Nat) : portView p (s.set f v) = portView p s := by
  have hreg : PortReg (Fld.LB_STATUS_STATE p).addr := portReg_of_mem (p := p) (by simp [portFields])
  refine portView_of_same (word_set_ne s f v fun he => h ?_) (set_lbs s f v)
  rwa [← he]

theorem portView_inc {f : Field} (h : f.OffPorts) (n : Nat) : portView p (s.inc f n) = portView p s := portView_set p s h _

theorem portView_peak {f : Field} (h : f.OffPorts) (n : Nat) : portView p (s.peak f n) = portView p s := by
  unfold State.peak
  split
  · exact portView_set p s h _
  · rfl

/-- A change of the port that leaves the mark of an error alone. -/
theorem portView_lbUpd (f : Lb → Lb) (h : (f (s.lb p)).errOut = (s.lb p).errOut) : portView p (s.lbUpd p f) = portView p s := by
  unfold portView
  rw [lbUpd_lbState, lbUpd_same, h]

theorem offPorts_of_le {f : Field} (h : 0x340000 ≤ f.addr) : f.OffPorts := fun hreg => absurd hreg.2 (Nat.not_lt.mpr h)

theorem portView_raise {n : Nat} (hn : n < 512) : portView p (raise n s) = portView p s :=
  portView_of_regsOnly hn (regsOnly_raise n s) ((keeps_raise (w := 0x102002D3AB) n rfl (keeps_refl _ s)).same .lbs rfl)

theorem portView_trigger (c v : Nat) : portView p (trigger c v none s) = portView p s :=
  portView_of_regsOnly (n := 0) (by decide) (regsOnly_trigger 0 c v (regsOnly_refl _ s))
    ((keeps_trigger (w := 0x102002D3AB) c v none rfl (keeps_refl _ s)).same .lbs rfl)

/-! ## Queue pairs and the bridge -/

/-- The registers of a queue pair and of its context that follow its descriptors. -/
theorem offPorts_of_mem_page {f : Field} {c q : Nat} (h : f ∈ pageFields c q) : f.OffPorts := by
  have hall : ∀ f ∈ pageFields c q, 0x340000 ≤ f.addr := by
    simp only [pageFields, List.forall_mem_cons, Fld.CTX_CAPS_QP_EN, Fld.CTX_WDOG_STATUS_REMAIN, Fld.CTX_OCC_OUTSTANDING,
      Fld.QP_STATUS_OUTSTANDING, Fld.QP_STATUS_QUIESCED, Fld.QP_STATUS_CQ_FULL, Fld.QP_STATUS_CQ_PHASE, Fld.QP_PTR_CQ_TAIL,
      Fld.QP_ABORT_TAG_TAG, Fld.QP_ABORT_RESULT, Fld.QP_CNT_RETRIED, Fld.CQ_EVT_STATUS_PENDING, Fld.CQ_EVT_STATUS_TIMER_RUN,
      Fld.CQ_EVT_STATUS_REMAIN, Fld.CQ_EVT_STATUS_HELD, Fld.CQ_EVT_CNT_SENT, Fld.CQ_EVT_CNT_PBA,
      List.not_mem_nil, false_implies, implies_true, and_true]
    omega
  exact offPorts_of_le (hall f h)

theorem portView_descUpd (k : DKey) (f : Desc → Desc) : portView p (s.descUpd k f) = portView p s := rfl

theorem portView_qpUpd (c q : Nat) (f : Qp → Qp) : portView p (s.qpUpd c q f) = portView p s := by
  have hpage {g : Field} (hg : g ∈ pageFields c q) (v : Nat) (s : State) : portView p (s.set g v) = portView p s :=
    portView_set p s (offPorts_of_mem_page hg) v
  unfold State.qpUpd
  dsimp only
  rw [updOverDesc, portView_set p _ (offPorts_of_le (Nat.le_add_right_of_le (by decide))), hpage (by simp [pageFields]), hpage (by simp [pageFields]),
    hpage (by simp [pageFields])]
  rfl

theorem offPorts_dropCounter (q cause : Nat) : (dropCounter q cause).OffPorts := by
  have hle : 0x340000 ≤ (dropCounter q cause).addr := by
    unfold dropCounter
    split <;> exact Nat.le_add_right_of_le (by decide)
  exact offPorts_of_le hle

theorem portView_countDrop (q cause kind ident route : Nat) : portView p (countDrop q cause kind ident route s) = portView p s := by
  have hlog {f : Field} (hf : 0x340000 ≤ f.addr) (v : Nat) (s : State) : portView p (s.set f v) = portView p s :=
    portView_set p s (offPorts_of_le hf) v
  unfold countDrop
  rw [portView_doIf p _ _ fun s => portView_qpUpd p s _ _ _, hlog (by decide), hlog (by decide), hlog (by decide), hlog (by decide),
    hlog (by decide), hlog (by decide), portView_inc p s (offPorts_dropCounter q cause)]

theorem portView_updBuf (q : Nat) : portView p (updBuf q s) = portView p s := by
  unfold updBuf
  dsimp only
  rw [portView_peak p _ (offPorts_of_le (Nat.le_add_right_of_le (by decide))), portView_set p _ (offPorts_of_le (Nat.le_add_right_of_le (by decide)))]

theorem portView_framePartial : portView p (framePartial p s) = portView p s := by
  unfold framePartial
  split
  · rfl
  · rw [portView_updBuf, portView_doIf p _ _ fun s => portView_countDrop p s _ _ _ _ _, portView_lbUpd p _ _ rfl]

/-- An edge that waited for the end of a link error is latched, or dropped where the queue of the port is full (08 R208). -/
theorem portView_latch (e : Nat × Nat × Stroke) :
    portView p (if 16 ≤ (s.lb p).lint.length then lintFull p e.1 e.2.1 s else s.lbUpd p fun l => { l with lint := l.lint ++ [e] }) = portView p s := by
  split
  · exact portView_countDrop p s _ _ _ _ _
  · exact portView_lbUpd p s _ rfl

/-! ## Answers -/

theorem portView_reportAbort (c a len : Nat) : portView p (reportAbort c a len s) = portView p s := by
  have hmsg (b : Nat) (masked : Bool) (what : String) (s : State) : portView p (aerMessage c b masked what s) = portView p s :=
    portView_of_keeps (keeps_aerMessage c b masked what rfl (keeps_refl _ s))
  have hlog (b : Nat) (h : AerHdr) : portView p (aerLogged c b h s) = portView p s :=
    portView_of_keeps (keeps_aerLogged c b h rfl (keeps_refl _ s))
  unfold reportAbort aerAdvisoryOf
  dsimp only
  split
  · rw [portView_raise p _ (by decide), hmsg, hlog]
  · rw [portView_raise p _ (by decide), hmsg]
    exact hlog 15 (.built c a len)

theorem portView_takeTag (c : Nat) (use : TagUse) : portView p (takeTag c use s) = portView p s := by
  unfold takeTag updTags
  rw [portView_peak p _ (by decide), portView_set p _ (by decide)]
  rfl

theorem portView_hostWay (who : AtsFor) (c a n : Nat) (wr : Bool) : portView p (hostWay who c a n wr s).1 = portView p s := by
  have hask (x : Nat) : portView p (atsAsk who c x s) = portView p s := by
    unfold atsAsk
    split
    · rfl
    split
    · exact portView_raise p s (by decide)
    · exact portView_takeTag p s c _
  unfold hostWay
  split
  · rfl
  split
  · rfl
  split
  · rfl
  · exact hask _

theorem portView_pweFlushOne (c : Nat) : portView p (pweFlushOne c s) = portView p s := by
  unfold pweFlushOne
  split
  case h_1 => rfl
  case h_2 e es hwait =>
    have hway := portView_hostWay p s (.entry c) c e.1 e.2.length true
    split
    case h_1 t ht =>
      rw [ht] at hway
      refine Eq.trans ?_ hway
      refine (portView_trigger p _ c _).trans ?_
      exact portView_of_keeps (keeps_hostWriteOut c e.1 e.2 false false rfl (keeps_refl _ t))
    case h_2 t way hgo ht =>
      rw [ht] at hway
      exact hway

theorem portView_pweFail (c w seq off len resp : Nat) : portView p (pweFail c w seq off len resp s) = portView p s := by
  have hpage {f : Field} (hf : 0x340000 ≤ f.addr) (v : Nat) (s : State) : portView p (s.set f v) = portView p s :=
    portView_set p s (offPorts_of_le hf) v
  have hinc {f : Field} (hf : 0x340000 ≤ f.addr) (s : State) : portView p (s.inc f 1) = portView p s := portView_inc p s (offPorts_of_le hf) 1
  have hadv (s : State) : portView p (pweAdvance c s) = portView p s := by
    unfold pweAdvance
    dsimp only
    rw [portView_doIf p _ _ fun s => hpage (Nat.le_add_right_of_le (by decide)) _ s, hpage (Nat.le_add_right_of_le (by decide))]
  have hctx (f : Ctx → Ctx) (s : State) : portView p (s.ctxUpd c f) = portView p s := rfl
  have hstart : portView p (s.inc (Fld.CTX_PWE_STATUS_TOTAL c) 1 |>.inc (Fld.CTX_WFENCE_FAILS c) 1) = portView p s := by
    rw [hinc (Nat.le_add_right_of_le (by decide)), hinc (Nat.le_add_right_of_le (by decide))]
  unfold pweFail
  rw [portView_reportAbort]
  split
  · refine (portView_doAll p _ _ fun _ s => portView_pweFlushOne p s c).trans ((hadv _).trans ?_)
    exact hstart
  · rw [portView_raise p _ (by decide), hctx, hinc (Nat.le_add_right_of_le (by decide))]
    exact hstart

theorem portView_hreadAns (id off : Nat) (a : Ans) : portView p (hreadAns id off a s) = portView p s := by
  have hfailed (r : HRead) (at_ outcome : Nat) (s : State) : portView p (hreadFailed r at_ outcome s) = portView p s := by
    have hgone : portView p (hreadGone r s) = portView p s := portView_of_keeps (keeps_hreadGone r rfl (keeps_refl _ s))
    unfold hreadFailed
    split
    · exact hgone
    · exact hgone
    · exact (portView_reportAbort p _ _ _ _).trans hgone
  have hsettle (s : State) : portView p (hreadSettle id s) = portView p s := by
    unfold hreadSettle
    split
    · rfl
    split
    · rfl
    split
    · rfl
    split
    · rfl
    · exact hfailed _ _ _ s
  exact (hsettle _).trans (portView_of_keeps (keeps_hreadUpd id _ rfl (keeps_refl _ s)))

theorem portView_answer (src : ReqSrc) (op : Nat) (a : Ans) : portView p (answer src op a s) = portView p s := by
  cases src with
  | hostRead id off => exact portView_hreadAns p s id off a
  | hostWrite c w seq off len =>
    cases a with
    | ok d => rfl
    | _ =>
      refine (apply_ite (portView p) _ _ _).trans ?_
      rw [portView_pweFail, ite_self]
  | desc k off len =>
    simp only [answer]
    split
    · exact portView_of_keeps (keeps_descRead k off len a rfl (keeps_refl _ s))
    split
    · exact portView_of_keeps (keeps_descAtomic k len a rfl (keeps_refl _ s))
    · exact portView_of_keeps (keeps_descWrite k len a rfl (keeps_refl _ s))
  | peer m _ => exact portView_of_keeps (keeps_peerAns m a rfl (keeps_refl _ s))
  | _ => rfl

theorem portView_endEgr (q : Nat) (e : Egr) : portView p (endEgr q e s) = portView p s := by
  unfold endEgr
  split
  · rfl
  split
  · rw [portView_answer]
    exact portView_of_keeps (keeps_c0WriteEnds _ _ rfl (keeps_refl _ s))
  · exact (doIf_same (portView p) _ _ fun s => portView_descUpd p s _ _).trans (portView_answer p s _ _ _)
  · exact portView_answer p s _ _ _
  split
  · exact portView_countDrop p s _ _ _ _ _
  split
  · exact portView_countDrop p s _ _ _ _ _
  · rfl

theorem portView_endItem (q : Nat) (w : Work) : portView p (endItem q w s) = portView p s := by
  have hall (l : List Egr) : portView p (doAll l (endEgr q) s) = portView p s := portView_doAll p s l fun e s => portView_endEgr p s q e
  unfold endItem
  split
  · split
    · exact hall _
    · rfl
  · exact hall _
  · exact portView_endEgr p s q _
  · rfl

/-! ## Leaving ACTIVE -/

/-- A port that leaves ACTIVE shows its next state and no error outstanding (08 R209). -/
theorem portView_leaveActive {next : Nat} (h : next < 8) : portView p (leaveActive p next s) = (next, false) := by
  have hraise (s : State) : portView p (lbRaise p 1 s) = portView p s := portView_raise p s (by omega)
  have hdrop (f : Item → Bool) (s : State) : portView p (dropItems f s) = portView p s := portView_of_keeps (keeps_dropItems f rfl (keeps_refl _ s))
  unfold leaveActive
  dsimp only
  refine (portView_doAll p _ _ fun i s => portView_endItem p s p (Item.work i)).trans ?_
  refine (portView_doAll p _ _ fun e s => portView_endEgr p s p e).trans ?_
  refine (portView_doAll p _ _ fun r s => portView_answer p s _ _ _).trans ?_
  have hleft : portView p ((dropItems (towardPort p) (lbRaise p 1 (portTo p next s))).lbUpd p fun l =>
      { l with egress := [], reqs := [], quar := [], pf := [], held := [], replay := [], naks := [], errOut := false, errAt := none,
               lastNak := none, outFrame := none, routedFrame := none, rframes := [], bndSent := [], initSent := false, initRcvd := false }) =
      (next, false) := by
    unfold portView
    rw [lbUpd_same, lbUpd_lbState]
    exact congrArg (·, false) ((congrArg Prod.fst ((hdrop _ _).trans (hraise _))).trans (portTo_lbState p s h))
  have hframes (t : State) (ht : portView p t = (next, false)) :
      portView p ((doAll (s.lb p).lintWait (fun e s => if 16 ≤ (s.lb p).lint.length then lintFull p e.1 e.2.1 s
        else s.lbUpd p fun l => { l with lint := l.lint ++ [e] }) (framePartial p t)).lbUpd p fun l => { l with lintWait := [] }) = (next, false) := by
    rw [portView_lbUpd p _ _ rfl, portView_doAll p _ _ fun e s => portView_latch p s e, portView_framePartial, ht]
  have hend := hframes _ hleft
  have hfail (k : DKey) (st det : Nat) (f : Desc → Desc) (s : State) : portView p ((descFail k st det s).descUpd k f) = portView p s :=
    (portView_descUpd p _ k f).trans (portView_of_keeps (keeps_descFail k st det rfl (keeps_refl _ s)))
  split
  · rw [portView_countDrop]
    split
    · exact (hfail _ _ _ _ _).trans hend
    · exact hend
  split
  · exact (hfail _ _ _ _ _).trans hend
  · exact hend

end portViewLaws

theorem leaveActive_lbState (p : Fin 4) (s : State) {next : Nat} (h : next < 8) : (leaveActive p next s).lbState p = next :=
  congrArg Prod.fst (portView_leaveActive p s h)

theorem leaveActive_errOut (p : Fin 4) (s : State) {next : Nat} (h : next < 8) : ((leaveActive p next s).lb p).errOut = false :=
  congrArg Prod.snd (portView_leaveActive p s h)

/-! ## What stays within a port -/

theorem ne_of_fin {p q : Fin 4} (h : q ≠ p) : q.val ≠ p.val := fun he => h (Fin.ext he)

/-- Settles O59: each row runs to the state that its equation gives; the other ports are read off it, store and fuses off the parts that
the row may change. -/
theorem portTrafficKeepsTheOtherPorts : Obligations.PortTrafficKeepsTheOtherPorts := by
  unfold Obligations.PortTrafficKeepsTheOtherPorts
  refine ⟨?credit, ?nak, ?error, ?timeout, ?freed, ?bnd, ?egress⟩
  case credit =>
    exact fun p q credits s hq h => ⟨_, exec_linkCreditReceive_active h credits, takeCredits_lb_ne p credits s (ne_of_fin hq), rfl, rfl, rfl⟩
  case nak =>
    intro p q seq credits i s hq h hlast hheld
    have hx := exec_linkNakReceive_held (credits := credits) h hlast hheld
    have ho : Only (raised ++ [.ctxs, .qps, .lbs, .hreads, .cad]) s _ := only_of_exec hx
    refine ⟨_, hx, ?_, ds_of_only ho (by decide) (by decide) (by decide), same_of_only ho .fuses (by decide), ?_⟩
    · rw [lbReplayFrom, lbUpd_ne _ _ (ne_of_fin hq), lbUpd_ne _ _ (ne_of_fin hq), lbNakHeard_lb, takeCredits_lb_ne p credits s (ne_of_fin hq)]
    · refine lbActive_of_lbState ?_
      rw [lbReplayFrom, lbUpd_lbState, lbUpd_lbState, lbNakHeard_lbState]
      exact lbState_of_active h
  case error =>
    intro p q s hq h hout
    have hx := exec_lbLinkError_crc h
    have ho : Only (raised ++ [.lbs]) s _ := only_of_exec hx
    refine ⟨_, hx, ?_, ds_of_only ho (by decide) (by decide) (by decide), same_of_only ho .fuses (by decide), ?_⟩
    · rw [linkError_lb_ne p _ (ne_of_fin hq), inc_lb]
    · rw [linkError_lb]
  case timeout =>
    exact fun p s h hout hnaks hframe => ⟨_, exec_lbNakTimeout_due h hout hnaks, leaveActive_lbState p s (by decide), leaveActive_errOut p s (by decide)⟩
  case freed =>
    intro p q s hq h hfreed hnaks hreplay hready
    have hx := exec_lbCreditSend_freed h hfreed hnaks hreplay hready
    have ho : Only [.out, .lbs] s _ := only_of_exec hx
    obtain ⟨ws, -, hout⟩ := emitPkt_out p { op := 12, sub := 0 } 0 s
    refine ⟨_, hx, emitPkt_lb_ne p _ 0 s (ne_of_fin hq), ds_of_only ho (by decide) (by decide) (by decide), same_of_only ho .fuses (by decide),
      same_of_only ho .regs (by decide), ?_⟩
    rw [hout, List.length_cons]
  case bnd =>
    intro p q v vs s hq h hsent hlate
    have hx := exec_lbBndCreditLate_late h hsent hlate
    have ho : Only raised s _ := only_of_exec hx
    refine ⟨_, hx, bndShort_lb s p q, ds_of_only ho (by decide) (by decide) (by decide), same_of_only ho .fuses (by decide), ?_⟩
    rw [State.isSet, get_bndShort]
    rfl
  case egress =>
    intro p q n ns s hq h hnaks hlast
    have hx := exec_lbEgressPacket_nak h hnaks hlast
    have ho : Only (raised ++ [.ctxs, .qps, .lbs, .hreads, .cad]) s _ := only_of_exec hx
    refine ⟨_, hx, ?_, ds_of_only ho (by decide) (by decide) (by decide), same_of_only ho .fuses (by decide), ?_⟩
    · rw [lbUpd_ne _ _ (ne_of_fin hq), lbNakSent_lb_ne (ne_of_fin hq)]
    · rw [lbUpd_same]
      exact lbNakSent_lb_naks p n ns s

end Sys2Proof.Machine
end

section

/-! Packets of the local agent that a port accepts (08 R181, R182, R201, R206; 10 R233, R237). -/

namespace Sys2Proof.Machine

/-! ## Upstream requests -/

section upstreamRows

variable {p : Fin 4} {rx : Rx} {s u v : State} {code c cls ha : Nat}

section reads

variable {tag len : Fin 512} {addr : BitVec 48}

theorem exec_lbReadReceive_refused (h : rxAccept p rx 2 s = (u, true)) (hlen : len.val ≠ 0) (hmax : len.val ≤ 256)
    (hd : upDecide p addr.toNat len false true u = (v, .refused code)) :
    exec (.lbReadReceive p rx tag addr len) s = .next (respOut p tag code [] v) := by
  change execLbReadReceive p rx tag addr len s = _
  simp only [execLbReadReceive, h, not_true_eq_false, if_false, if_neg (not_or.mpr ⟨hlen, Nat.not_lt.mpr hmax⟩), hd, done]

theorem exec_lbReadReceive_passes (h : rxAccept p rx 2 s = (u, true)) (hlen : len.val ≠ 0) (hmax : len.val ≤ 256)
    (hd : upDecide p addr.toNat len false true u = (v, .passes c cls ha)) :
    exec (.lbReadReceive p rx tag addr len) s = .next (upIssue p (v.lbUpd p fun l =>
      { l with ups := l.ups ++ [{ tag := tag, c := c, cls := cls, addr := ha, len := len, after := v.cad.nextId,
                                  pages := knownPages v c ha len false }] })) := by
  change execLbReadReceive p rx tag addr len s = _
  simp only [execLbReadReceive, h, not_true_eq_false, if_false, if_neg (not_or.mpr ⟨hlen, Nat.not_lt.mpr hmax⟩), hd, done]

end reads

section writes

variable {tag : Option Nat} {addr : Nat} {data : List Byte}

theorem write_len (hdata : data ≠ []) (hmax : data.length ≤ 256) : ¬ (data.length = 0 ∨ 256 < data.length) :=
  not_or.mpr ⟨mt List.length_eq_zero_iff.mp hdata, Nat.not_lt.mpr hmax⟩

/-- An upstream write that passes waits for the host link, with the pages it was checked against (08 R206). -/
theorem upWrite_passes (h : rxAccept p rx (if tag.isSome then 2 else 1) s = (u, true)) (hdata : data ≠ []) (hmax : data.length ≤ 256)
    (hd : upDecide p addr data.length true tag.isSome u = (v, .passes c cls ha)) :
    upWrite p rx tag addr data s = addItem true c cls 9 data.length false
      (.upWrite p c tag (BitVec.ofNat 64 ha) (knownPages v c ha data.length true) data) v := by
  unfold upWrite
  simp only [h, not_true_eq_false, if_false, if_neg (write_len hdata hmax), hd]

theorem upWrite_posted_refused (h : rxAccept p rx 1 s = (u, true)) (hdata : data ≠ []) (hmax : data.length ≤ 256)
    (hd : upDecide p addr data.length true false u = (v, .refused code)) : upWrite p rx none addr data s = v := by
  unfold upWrite
  simp only [Option.isSome_none, Bool.false_eq_true, if_false, h, not_true_eq_false, if_neg (write_len hdata hmax), hd]

theorem upWrite_acked_refused {t : Nat} (h : rxAccept p rx 2 s = (u, true)) (hdata : data ≠ []) (hmax : data.length ≤ 256)
    (hd : upDecide p addr data.length true true u = (v, .refused code)) : upWrite p rx (some t) addr data s = respOut p t code [] v := by
  unfold upWrite
  simp only [Option.isSome_some, if_true, h, not_true_eq_false, if_false, if_neg (write_len hdata hmax), hd]

end writes

end upstreamRows

/-! ## Items for the bridge, and what the agent may not send -/

section itemRows

variable {p : Fin 4} {rx : Rx} {s u : State}

theorem exec_lbMsgReceive_accepted {id : BitVec 16} {data : List Byte} (h : rxAccept p rx 1 s = (u, true)) (hmax : data.length ≤ 256) :
    exec (.lbMsgReceive p rx id data) s = .next (acceptItem p 2 id.toNat data u) := by
  change execLbMsgReceive p rx id data s = _
  simp only [execLbMsgReceive, h, not_true_eq_false, if_false, if_neg (Nat.not_lt.mpr hmax), done]

theorem acceptItem_noRoute {kind ident : Nat} {data : List Byte} (h : routeOk u (routeNow u p kind ident) = false) :
    acceptItem p kind ident data u = countDrop p 1 kind ident 0 u := by
  rw [acceptItem, acceptWith, h, if_pos Bool.false_ne_true]

theorem exec_lbFrameReceive_accepted {sof eof : Bool} {info : Word} {data : List Byte} (h : rxAccept p rx 1 s = (u, true))
    (hdata : data ≠ []) (hmax : data.length ≤ 256) (hgood : frameBad (u.lb p).frame sof eof data.length = false) :
    exec (.lbFrameReceive p rx sof eof info data) s = .next (frameSegment p sof eof info.toNat data u) := by
  change execLbFrameReceive p rx sof eof info data s = _
  simp only [execLbFrameReceive, h, not_true_eq_false, if_false, if_neg (write_len hdata hmax), hgood, Bool.false_eq_true, done]

theorem exec_lbSidebandReceive_accepted {event : Fin 16} (h : rxAccept p rx 1 s = (u, true)) :
    exec (.lbSidebandReceive p rx event) s = .next (acceptItem p 3 event [] u) := by
  change execLbSidebandReceive p rx event s = _
  simp only [execLbSidebandReceive, h, if_true, done]

theorem exec_lbAtomicReceive_accepted (h : rxAccept p rx 2 s = (u, true)) :
    exec (.lbAtomicReceive p rx) s = .next (protoErr p 8 rx.seq.toNat u) := by
  change execLbAtomicReceive p rx s = _
  simp only [execLbAtomicReceive, h, if_true, done]

end itemRows

/-! ## Responses -/

section responseRows

variable {p : Fin 4} {rx : Rx} {tag : Fin 512} {code : BitVec 4} {data : List Byte} {s u : State}

/-- The late answer to a request that timed out: its tag is free again, and it is counted (08 R201). -/
theorem exec_lbRespReceive_late (h : rxAccept p rx 3 s = (u, true)) (hquar : ((u.lb p).quar.contains tag.val) = true) :
    exec (.lbRespReceive p rx tag code data) s =
      .next ((u.lbUpd p fun l => { l with quar := l.quar.filter (· != tag.val) }).inc (Fld.LB_TMO_CNT_LATE p) 1) := by
  change execLbRespReceive p rx tag code data s = _
  simp only [execLbRespReceive, h, not_true_eq_false, if_false, if_pos hquar, done]

theorem exec_lbRespReceive_answers {r : Req} (h : rxAccept p rx 3 s = (u, true)) (hquar : ((u.lb p).quar.contains tag.val) = false)
    (hreq : ((u.lb p).reqs.find? fun r => r.tag == tag.val && !r.retry) = some r) (hcode : respAllowed r.pkt code.toNat = true)
    (hlen : data.length = respLen r.pkt code.toNat) :
    exec (.lbRespReceive p rx tag code data) s = .next (respond p r code.toNat data u) := by
  change execLbRespReceive p rx tag code data s = _
  simp only [execLbRespReceive, h, not_true_eq_false, if_false, hquar, Bool.false_eq_true, hreq, hcode, ne_eq, hlen, done]

end responseRows

/-- Settles O26: one equation for each packet that the port accepts, under the verdict of its tests. -/
theorem localAgentsRequests : Obligations.LocalAgentsRequests := by
  unfold Obligations.LocalAgentsRequests
  refine ⟨?readPasses, ?readRefused, ?postedPasses, ?postedRefused, ?ackedRefused, ?ackedPasses, ?msgDropped, ?msg, ?frame, ?sideband, ?atomic, ?late,
    ?answers⟩
  case readPasses => exact fun p rx tag addr len c cls ha s u v h hlen hmax hd => exec_lbReadReceive_passes h hlen hmax hd
  case readRefused => exact fun p rx tag addr len code s u v h hlen hmax hd => ⟨_, exec_lbReadReceive_refused h hlen hmax hd, rfl⟩
  case postedPasses => exact fun p rx addr data c cls ha s u v h hdata hmax hd => congrArg done (upWrite_passes (tag := none) h hdata hmax hd)
  case postedRefused => exact fun p rx addr data code s u v h hdata hmax hd => congrArg done (upWrite_posted_refused h hdata hmax hd)
  case ackedRefused => exact fun p rx tag addr data code s u v h hdata hmax hd => congrArg done (upWrite_acked_refused h hdata hmax hd)
  case ackedPasses =>
    exact fun p rx tag addr data c cls ha s u v h hdata hmax hd => congrArg done (upWrite_passes (tag := some tag.val) h hdata hmax hd)
  case msgDropped =>
    intro p rx id data s u h hmax hroute
    rw [exec_lbMsgReceive_accepted h hmax, acceptItem_noRoute hroute]
  case msg => exact fun p rx id data s u h hmax => exec_lbMsgReceive_accepted h hmax
  case frame => exact fun p rx sof eof info data s u h hdata hmax hgood => exec_lbFrameReceive_accepted h hdata hmax hgood
  case sideband => exact fun p rx event s u h => exec_lbSidebandReceive_accepted h
  case atomic => exact fun p rx s u h => exec_lbAtomicReceive_accepted h
  case late =>
    intro p rx tag code data s u h hquar
    refine ⟨_, exec_lbRespReceive_late h hquar, ?_⟩
    beta_reduce
    rw [inc_lb, lbUpd_same, get_inc_same _ _ _ (fits_of_mem (p := p) (by simp [portFields])), lbUpd_get]
    exact ⟨by simp, rfl⟩
  case answers => exact fun p rx tag code data r s u h hquar hreq hcode hlen => exec_lbRespReceive_answers h hquar hreq hcode hlen

end Sys2Proof.Machine
end

section

/-! What a local bus port does by itself: retries, timeouts, its prefetch and stranded reads, the edges of its LINT lines (08 R201, R203,
R205, R207, R208). -/

namespace Sys2Proof.Machine

/-! ## Requests -/

section requestRows

variable {p : Fin 4} {tag : Fin 512} {r : Req} {s : State}

theorem exec_lbRetryLaterResend_waits (hreq : ((s.lb p).reqs.find? fun r => r.tag == tag.val && r.retry) = some r) (h : s.lbActive p = true)
    (hout : ((s.lb p).egress.any fun e => e.tag == some tag.val) = false) :
    exec (.lbRetryLaterResend p tag) s = .next (s.lbUpd p fun l =>
      { l with egress := l.egress ++ [{ pkt := r.pkt, src := some r.src, tmo := r.tmo, tag := some tag }] }) := by
  change execLbRetryLaterResend p tag s = _
  simp only [execLbRetryLaterResend, hreq, h, hout, Bool.false_eq_true, not_false_eq_true, and_self, if_true, done]

/-- A request ends timed out: it is gone, and its tag is quarantined and counted (08 R201). -/
def reqTimedOut (p tag : Nat) (s : State) : State :=
  reqGone p tag s
    |>.lbUpd p (fun l => { l with quar := l.quar ++ [tag], egress := l.egress.filter fun e => e.tag != some tag })
    |>.inc (Fld.LB_TMO_CNT_TIMEOUT p) 1 |> lbRaise p 8 |> lbRaise p 14

theorem exec_windowCompletionTimeout_due (hreq : ((s.lb p).reqs.find? fun r => r.tag == tag.val) = some r) (hdue : r.tmo ≤ s.since r.issued)
    (hsrc : r.src = .nobody) : exec (.windowCompletionTimeout p tag) s = .next (reqTimedOut p tag s) := by
  change execWindowCompletionTimeout p tag s = _
  simp only [execWindowCompletionTimeout, hreq, if_pos hdue, hsrc]
  rfl

theorem reqTimedOut_lb (p tag : Nat) (s : State) : (reqTimedOut p tag s).lb p = { s.lb p with
    reqs := (s.lb p).reqs.filter (fun r => r.tag != tag), quar := (s.lb p).quar ++ [tag],
    egress := (s.lb p).egress.filter fun e => e.tag != some tag } := by
  rw [reqTimedOut, lbRaise_lb, lbRaise_lb, inc_lb, lbUpd_same, reqGone, lbUpd_same]

theorem get_reqTimedOut (p : Fin 4) (tag : Nat) (s : State) : (reqTimedOut p tag s).get (Fld.LB_TMO_CNT_TIMEOUT p) =
    min (Fld.LB_TMO_CNT_TIMEOUT p).max (s.get (Fld.LB_TMO_CNT_TIMEOUT p) + 1) := by
  have hmem : Fld.LB_TMO_CNT_TIMEOUT p ∈ portFields p := by simp [portFields]
  rw [reqTimedOut, lbRaise_get _ (by decide) hmem, lbRaise_get _ (by decide) hmem, get_inc_same _ _ _ (fits_of_mem hmem), lbUpd_get, reqGone,
    lbUpd_get]

end requestRows

/-! ## Speculative reads -/

/-- Items that satisfy a test leave none that does. -/
theorem dropItems_none (f : Item → Bool) (s : State) : ((dropItems f s).cad.items.any f) = false := by
  simp [dropItems, State.cadUpd]

section stranded

variable {p : Fin 4} {e : Fin 16} {s : State}

theorem exec_strandedEntryExpiry_due {x : Stranded} (hx : ((s.lb p).srb.find? fun x => x.e == e.val) = some x) (hdue : 1024 ≤ s.since x.since) :
    exec (.strandedEntryExpiry p e) s = .next (srbDrop p e s) := by
  change execStrandedEntryExpiry p e s = _
  simp only [execStrandedEntryExpiry, hx, if_pos hdue, done]

theorem srbDrop_srb (p e : Nat) (s : State) : ((srbDrop p e s).lb p).srb = (s.lb p).srb.filter fun x => x.e != e := by
  rw [srbDrop, lbRaise_lb, inc_lb, srbRemove, setWord_lb, lbUpd_same]

theorem get_srbDrop (p : Fin 4) (e : Nat) (s : State) : (srbDrop p e s).get (Fld.LB_SRB_CNT_DROPPED p) =
    min (Fld.LB_SRB_CNT_DROPPED p).max (s.get (Fld.LB_SRB_CNT_DROPPED p) + 1) := by
  have hmem : Fld.LB_SRB_CNT_DROPPED p ∈ portFields p := by simp [portFields]
  have hne : (Fld.LB_SRB_CNT_DROPPED p).addr ≠ Adr.LB_SRB0 p e := by
    simp only [Fld.LB_SRB_CNT_DROPPED, Adr.LB_SRB0]
    omega
  rw [srbDrop, lbRaise_get _ (by decide) hmem, get_inc_same _ _ _ (fits_of_mem hmem), srbRemove, get_setWord_ne _ _ hne, lbUpd_get]

end stranded

/-! ## LINT -/

section lintRows

variable {p line : Fin 4} {rising : Bool} {s : State}

theorem exec_lintEdge_ignored (h : s.isSet (Fld.LB_CTL_EN p) = false ∨ lintSelected s p line rising = false) :
    exec (.lintEdge p line rising) s = .next s := by
  change execLintEdge p line rising s = _
  rw [execLintEdge, if_pos (by rcases h with h | h <;> simp [h]), done]

/-- An edge counts: the port is enabled, the mode takes edges, and LB_LINT_CFG selects it (08 R207). -/
abbrev LintCounts (s : State) (p line : Fin 4) (rising : Bool) : Prop :=
  s.isSet (Fld.LB_CTL_EN p) = true ∧ s.mode ≠ .maintenance ∧ s.mode ≠ .preserve ∧ lintSelected s p line rising = true

theorem lint_not_ignored (h : LintCounts s p line rising) :
    ¬ (¬ s.isSet (Fld.LB_CTL_EN p) = true ∨ s.mode = .maintenance ∨ s.mode = .preserve ∨ ¬ lintSelected s p line rising = true) := by
  obtain ⟨hen, hmaint, hpres, hsel⟩ := h
  simp [hen, hmaint, hpres, hsel]

/-- In HELD an edge is latched until the port is ACTIVE again (17 R425). -/
theorem exec_lintEdge_held (h : LintCounts s p line rising) (hstate : s.lbState p = 6) :
    exec (.lintEdge p line rising) s = .next ((lbRaise p 13 s).lbUpd p fun l => { l with lint := l.lint ++ [(line.val, routeNow s p 3 line, s.now)] }) := by
  change execLintEdge p line rising s = _
  rw [execLintEdge, if_neg (lint_not_ignored h), if_pos hstate, done]

theorem exec_lintEdge_item (h : LintCounts s p line rising) (hactive : s.lbActive p = true) (hout : (s.lb p).errOut = false)
    (hwait : (s.lb p).lintWait = []) (herr : (s.lb p).errAt ≠ some s.now) :
    exec (.lintEdge p line rising) s = .next (acceptItem p 3 line [] (lbRaise p 13 s)) := by
  have hstate : s.lbState p ≠ 6 := by simp [lbState_of_active hactive]
  have hfree : ¬ ((s.lb p).errOut = true ∨ (s.lb p).lintWait ≠ [] ∨ (s.lb p).errAt = some s.now) := by simp [hout, hwait, herr]
  change execLintEdge p line rising s = _
  rw [execLintEdge, if_neg (lint_not_ignored h), if_neg hstate]
  simp only [lbRaise_lb, lbRaise_now, lbRaise_lbActive s (show 13 < 16 by decide), if_pos hactive, if_neg hfree, done]

theorem exec_lintEdge_waits (h : LintCounts s p line rising) (hactive : s.lbActive p = true) (hout : (s.lb p).errOut = true) :
    exec (.lintEdge p line rising) s = .next ((lbRaise p 13 s).lbUpd p fun l =>
      { l with lintWait := l.lintWait ++ [(line.val, routeNow (lbRaise p 13 s) p 3 line, s.now)] }) := by
  have hstate : s.lbState p ≠ 6 := by simp [lbState_of_active hactive]
  change execLintEdge p line rising s = _
  rw [execLintEdge, if_neg (lint_not_ignored h), if_neg hstate]
  simp only [lbRaise_lb, lbRaise_now, lbRaise_lbActive s (show 13 < 16 by decide), if_pos hactive, hout, true_or, if_true, done]

end lintRows

/-- Settles O27: one equation for each row under its conditions, then the lists and counters of the state it names. -/
theorem portTimersLintAndPrefetch : Obligations.PortTimersLintAndPrefetch := by
  unfold Obligations.PortTimersLintAndPrefetch
  refine ⟨fun _ _ _ _ => exec_lbRetryLaterResend_waits, ?timeout, ?abandon, ?prefetch, ?stranded, fun _ _ _ _ => exec_lintEdge_ignored, ?held, ?item,
    ?waits⟩
  case timeout =>
    intro p tag r s hreq hdue hsrc
    refine ⟨_, exec_windowCompletionTimeout_due hreq hdue hsrc, ?_⟩
    beta_reduce
    rw [reqTimedOut_lb]
    exact ⟨by simp, by simp, get_reqTimedOut p tag s⟩
  case abandon => exact fun p s => ⟨_, rfl, dropItems_none _ s⟩
  case prefetch =>
    intro p s
    refine ⟨_, rfl, fun b hb => ?_⟩
    rw [lbUpd_same, List.mem_filter] at hb
    exact of_decide_eq_true hb.2
  case stranded =>
    intro p e x s hx hdue
    refine ⟨_, exec_strandedEntryExpiry_due hx hdue, ?_⟩
    beta_reduce
    rw [srbDrop_srb]
    exact ⟨by simp, get_srbDrop p e s⟩
  case held =>
    intro p line rising s hen hmaint hpres hsel hstate
    refine ⟨_, exec_lintEdge_held ⟨hen, hmaint, hpres, hsel⟩ hstate, ?_⟩
    beta_reduce
    rw [lbUpd_same, lbRaise_lb, List.map_append]
    rfl
  case item =>
    exact fun p line rising s hen hmaint hpres hsel hactive hout hwait herr => exec_lintEdge_item ⟨hen, hmaint, hpres, hsel⟩ hactive hout hwait herr
  case waits =>
    intro p line rising s hen hmaint hpres hsel hactive hout
    refine ⟨_, exec_lintEdge_waits ⟨hen, hmaint, hpres, hsel⟩ hactive hout, ?_⟩
    beta_reduce
    rw [lbUpd_same, lbRaise_lb, List.map_append]
    rfl

end Sys2Proof.Machine
end

section

/-! Windows, route entries and routed items (08 R196 to R198; 10 R235, R239, R240, R242). -/

namespace Sys2Proof.Machine

/-! ## Windows -/

section windowRows

variable {c : Fin 1024} {w : Fin 16} {v : Word} {s : State}

theorem exec_winMap_on (h : s.winOn c w = true) (hfree : .winUnmap c w ∉ s.deferred) : exec (.winMap c w) s = .next s := by
  change done (winEnable c w s) = _
  rw [winEnable, if_pos ⟨h, by simpa using hfree⟩, done]

/-- A window whose unmapping waits is mapped again behind it (log 196). -/
theorem exec_winMap_unmapping (h : .winUnmap c w ∈ s.deferred) :
    exec (.winMap c w) s = .next { s with deferred := s.deferred ++ [.winMap c w] } := by
  change done (winEnable c w s) = _
  rw [winEnable, if_neg (by simp [h]), done]

theorem exec_winAttrWrite (c : Fin 1024) (w : Fin 16) (v : Word) (s : State) : exec (.winAttrWrite c w v) s = .next (winAttrWrite c w v s) := rfl

theorem winAttrWrite_busy (hclr : v.getLsbD 31 = false) (h : s.winOn c w = true ∨ winBusy s c w = true) :
    winAttrWrite c w v s = { s with deferred := s.deferred ++ [.winAttr c w v] } := by
  rw [winAttrWrite, hclr, Bool.or_eq_true_iff.mpr h, Bool.not_true, doIf_false, doIf_false]

theorem autoclr_apart_once (c w : Nat) : (Fld.WIN_ATTR_AUTOCLR c w).Apart (Fld.WIN_ATTR_ONCE c w) := by
  simp [Field.Apart, Fld.WIN_ATTR_AUTOCLR, Fld.WIN_ATTR_ONCE]

/-- ONCE of a window that is off and not busy takes its value at once (08 R196, R198). -/
theorem get_winAttrWrite_once (hoff : s.winOn c w = false) (hidle : winBusy s c w = false) :
    (winAttrWrite c w v s).get (Fld.WIN_ATTR_ONCE c w) = bitsOf v.toNat 5 5 := by
  rw [winAttrWrite, hoff, hidle, Bool.or_false, Bool.not_false, doIf_true,
    doIf_same (State.get · (Fld.WIN_ATTR_ONCE c w)) _ _ fun s => get_set_apart s _ _ 0 (autoclr_apart_once c w),
    get_set_same _ _ _ ⟨le_refl 5, show 5 < 32 by decide⟩]
  exact Nat.mod_eq_of_lt (bitsOf_lt v.toNat 5 5)

/-- Writing 1 to AUTOCLR clears it (08 R198). -/
theorem get_winAttrWrite_autoclr (h : v.getLsbD 31 = true) : (winAttrWrite c w v s).get (Fld.WIN_ATTR_AUTOCLR c w) = 0 := by
  rw [winAttrWrite, h, doIf_true, get_set_same _ _ _ ⟨le_refl 31, show 31 < 32 by decide⟩, Nat.zero_mod]

end windowRows

/-! ## Route entries -/

/-- A route entry takes its two words and its mark for the boundary (08 R235). -/
theorem exec_routeEntryWrite_msg (i : Fin 65536) (v : BitVec 64) (s : State) :
    exec (.routeEntryWrite (.msg i) v) s = .next
      (({ s with deferred := s.deferred ++ [Deferred.route (Adr.MSG_RT_LO i) v] }.setWord (Adr.MSG_RT_LO i) (v.setWidth 32)).setWord
        (Adr.MSG_RT_LO i + 4) ((v >>> 32).setWidth 32)) := rfl

/-! ## Routed items toward a queue pair -/

section routedRows

variable {p k : Fin 4} {r : RItem} {s : State}

theorem exec_routedItemDelivery_waits (hr : (s.ritems.find? fun r => r.port == p.val && !routePeer r.route) = some r)
    (h : r.tested = false ∨ routedMoved s r = false) : exec (.routedItemDelivery p) s = .next s := by
  change execRoutedItemDelivery p s = _
  simp only [execRoutedItemDelivery, hr]
  rw [if_neg (by rcases h with h | h <;> simp [h]), done]

theorem testItem_dropped (ht : r.tested = false) (hr : r.ready = true) (hw : testWaits s r = false) (hd : deliveryTest s r ≠ 0) :
    testItem r s = countDrop r.port (deliveryTest s r) r.kind r.ident r.route (dropRItem r s) := by
  simp only [testItem, ht, hr, hw, hd, Bool.false_eq_true, not_true_eq_false, or_self, if_false, ne_eq, not_false_eq_true, if_true]

/-- An item that passes its tests is marked, and takes the next completion index of its queue pair (10 R239, R240). -/
def reserved (r : RItem) (s : State) : State :=
  { s with ritems := s.ritems.map fun (x : RItem) => if x.id = r.id then { x with tested := true } else x }
    |>.qpUpd (routeCtx r.route) (routeQp r.route) fun q => { q with resv := q.resv ++ [r.id] }

theorem testItem_reserves (ht : r.tested = false) (hr : r.ready = true) (hw : testWaits s r = false) (hd : deliveryTest s r = 0) :
    testItem r s = updCqFull (routeCtx r.route) (routeQp r.route) (reserved r s) := by
  simp only [testItem, ht, hr, hw, hd, Bool.false_eq_true, not_true_eq_false, or_self, if_false, ne_eq]
  rfl

theorem reserved_resv (r : RItem) (s : State) : ((reserved r s).qp (routeCtx r.route) (routeQp r.route)).resv =
    (s.qp (routeCtx r.route) (routeQp r.route)).resv ++ [r.id] := by
  rw [reserved, qpUpd_qp_same]
  rfl

theorem qpUpd_keeps (c q : Nat) (f : Qp → Qp) (s : State) : Keeps 0x80008 s (s.qpUpd c q f) := keeps_qpUpd c q f rfl (keeps_refl _ s)

theorem updCqFull_keeps (c q : Nat) (s : State) : Keeps 0x102002D3AB s (updCqFull c q s) := keeps_updCqFull c q rfl (keeps_refl _ s)

theorem reserved_ritems (r : RItem) (s : State) :
    (reserved r s).ritems = s.ritems.map fun (x : RItem) => if x.id = r.id then { x with tested := true } else x :=
  (qpUpd_keeps _ _ _ _).same .ritems rfl

theorem reserved_deferred (r : RItem) (s : State) : (reserved r s).deferred = s.deferred := (qpUpd_keeps _ _ _ _).same .deferred rfl

/-! ## Routed items toward a peer -/

theorem exec_routedItemPeerSend_sends (hr : (s.ritems.find? fun r => r.port == p.val) = some r) (hp : routePeer r.route = true)
    (hready : r.ready = true) (hu : upWritesIssued s p r.id = true) (hroute : s.route (routeMember r.route) = some k.val) :
    exec (.routedItemPeerSend p) s =
      .next (dropRItem r ((doAll (routedMsgs r s) (sendMsg k) s).inc (Fld.MSG_DELIV_CNT_COUNT p) 1)) := by
  change execRoutedItemPeerSend p s = _
  simp only [execRoutedItemPeerSend, hr, hp, hready, hu, hroute, and_self, if_true, done]

theorem dropRItem_link (r : RItem) (s : State) (k : Nat) : (dropRItem r s).link k = s.link k := by
  have hul : (dropRItem r s).ul = s.ul := (keeps_dropRItem (w := 0x4400008) r rfl (keeps_refl _ s)).same .ul rfl
  unfold State.link
  rw [hul]

/-- Messages join the stream of a link in their order (13 R321). -/
theorem doAll_sendMsg_tx (k : Nat) (l : List UMsg) (s : State) : ((doAll l (sendMsg k) s).link k).tx = (s.link k).tx ++ l := by
  unfold doAll
  induction l generalizing s with
  | nil => simp
  | cons m l ih => rw [List.foldl_cons, ih, sendMsg, linkUpd_same, List.append_assoc, List.singleton_append]

/-- An item that has left the list is in it no more. -/
theorem notMem_of_filter {l t : List RItem} (h : t = l.filter fun x => x.id != r.id) : ∀ x ∈ t, x.id ≠ r.id := by
  subst h
  exact fun x hx => bne_iff_ne.mp (List.mem_filter.mp hx).2

end routedRows

/-- Settles O28: one equation for each row and for the test of an item, then the registers and lists of the state it names. -/
theorem windowsRoutesAndDeliveries : Obligations.WindowsRoutesAndDeliveries := by
  unfold Obligations.WindowsRoutesAndDeliveries
  refine ⟨fun c w s h => congrArg done (winEnable_off h), fun _ _ _ => exec_winMap_on, fun _ _ _ => exec_winMap_unmapping, fun _ _ _ => rfl, ?busy,
    ?once, ?autoclr, ?route, fun _ _ _ => exec_routedItemDelivery_waits, fun _ _ => testItem_dropped, ?reserves, ?delivers,
    fun _ _ _ => exec_routedItemPeerSend_noRoute, ?sends⟩
  case busy => exact fun c w v s hclr h => congrArg done (winAttrWrite_busy hclr h)
  case once => exact fun c w v s hoff hidle => ⟨_, exec_winAttrWrite c w v s, winAttrWrite_deferred c w v s, get_winAttrWrite_once hoff hidle⟩
  case autoclr => exact fun c w v s h => ⟨_, exec_winAttrWrite c w v s, winAttrWrite_deferred c w v s, get_winAttrWrite_autoclr h⟩
  case route =>
    intro i v s
    refine ⟨_, exec_routeEntryWrite_msg i v s, ?_, ?_, rfl⟩
    · rw [word_setWord_ne _ _ (by omega), word_setWord_same]
    · rw [word_setWord_same]
  case reserves =>
    intro r s ht hr hw hd
    rw [testItem_reserves ht hr hw hd]
    have hkeeps := updCqFull_keeps (routeCtx r.route) (routeQp r.route) (reserved r s)
    refine ⟨?_, ?_, (hkeeps.same .deferred rfl).trans (reserved_deferred r s)⟩
    · have hqps := updCqFull_qps (routeCtx r.route) (routeQp r.route) (reserved r s)
      rw [State.qp, hqps]
      exact reserved_resv r s
    · rw [show (updCqFull _ _ (reserved r s)).ritems = (reserved r s).ritems from hkeeps.same .ritems rfl, reserved_ritems, List.length_map]
  case delivers =>
    intro p r s hr ht hm hres hopen hats hu
    refine ⟨_, exec_routedItemDelivery_go hr ht hm hres hopen hats hu, ?_⟩
    exact notMem_of_filter (updBuf_ritems _ _)
  case sends =>
    intro p k r s hr hp hready hu hroute
    have hx := exec_routedItemPeerSend_sends hr hp hready hu hroute
    refine ⟨hx, _, hx, notMem_of_filter (dropRItem_ritems r _), ?_⟩
    rw [dropRItem_link, inc_link, doAll_sendMsg_tx, List.length_append]

end Sys2Proof.Machine
end

section

/-! Messages of peers taken from a link: requests as their check at acceptance ended, responses, routed items, mirror writes, forwarding
(09 R217; 10 R242; 11 R260; 13 R323; 14 R348, R349). -/

namespace Sys2Proof.Machine

/-! ## The message taken -/

section messageTaken
variable {k : Nat} {p : UMsg → Bool} {e : Nat × UMsg} {s : State}

theorem onMsg_none (f : UMsg → State → State) (h : rxHead s k p = none) : onMsg k p f s = .next s := by
  rw [onMsg, h, done]

theorem onMsg_some (f : UMsg → State → State) (h : rxHead s k p = some e) :
    onMsg k p f s = .next (ulFree k (f e.2 (tookMsg k e s))) := by
  rw [onMsg, h, done, tookMsg]

end messageTaken

/-! ## Requests as their check ended (09 R217) -/

section peerRequests
variable {k : Nat} {p : UMsg → Bool} {e : Nat × UMsg} {s : State}

theorem onMsg_peerChecked_pass (f : UMsg → Option Nat → WinMap → State → State) {a : Option Nat} {port laddr tmo : Nat} {acked : Bool}
    (h : rxHead s k p = some e) (hseen : e.2.seen = some (.pass a port laddr tmo acked)) :
    onMsg k p (fun m => peerChecked (f m) m) s =
      .next (ulFree k (f e.2 a { port := port, laddr := laddr, tmo := tmo, acked := acked } (tookMsg k e s))) := by
  rw [onMsg_some _ h, peerChecked, hseen, Option.getD_some]

theorem onMsg_peerChecked_denied (f : UMsg → Option Nat → WinMap → State → State) {cause guard : Nat}
    (h : rxHead s k p = some e) (hseen : e.2.seen = some (.denied cause guard)) :
    onMsg k p (fun m => peerChecked (f m) m) s = .next (ulFree k (peerRefused e.2 cause guard (tookMsg k e s))) := by
  rw [onMsg_some _ h, peerChecked, hseen, Option.getD_some]

theorem onMsg_peerChecked_gone (f : UMsg → Option Nat → WinMap → State → State)
    (h : rxHead s k p = some e) (hseen : e.2.seen = some .gone) :
    onMsg k p (fun m => peerChecked (f m) m) s = .next (ulFree k (peerAns e.2 .notIssued (tookMsg k e s))) := by
  rw [onMsg_some _ h, peerChecked, hseen, Option.getD_some]

end peerRequests

section requestRows
variable {k : Fin 4} {e : Nat × UMsg} {a : Option Nat} {w : WinMap} {s : State}

theorem exec_ulWriteReceive_aperture (h : rxHead s k (forMe s 1) = some e)
    (hseen : e.2.seen = some (.pass a w.port w.laddr w.tmo w.acked)) (hwin : e.2.win = 255) :
    exec (.ulWriteReceive k) s = .next (ulFree k (peerToStore e.2 e.2.data.length a (tookMsg k e s))) := by
  change execUlWriteReceive k s = _
  rw [execUlWriteReceive, onMsg_peerChecked_pass _ h hseen, if_pos hwin]

theorem exec_ulWriteReceive_window (h : rxHead s k (forMe s 1) = some e)
    (hseen : e.2.seen = some (.pass a w.port w.laddr w.tmo w.acked)) (hwin : e.2.win ≠ 255) :
    exec (.ulWriteReceive k) s = .next (ulFree k (peerToPort e.2 { op := if w.acked then 2 else 1, len := e.2.data.length, data := e.2.data }
      e.2.data.length w (tookMsg k e s))) := by
  change execUlWriteReceive k s = _
  rw [execUlWriteReceive, onMsg_peerChecked_pass _ h hseen, if_neg hwin]
  rfl

theorem exec_ulWriteReceive_denied {cause guard : Nat} (h : rxHead s k (forMe s 1) = some e) (hseen : e.2.seen = some (.denied cause guard)) :
    exec (.ulWriteReceive k) s = .next (ulFree k (peerRefused e.2 cause guard (tookMsg k e s))) := by
  change execUlWriteReceive k s = _
  exact onMsg_peerChecked_denied _ h hseen

theorem exec_ulWriteReceive_gone (h : rxHead s k (forMe s 1) = some e) (hseen : e.2.seen = some .gone) :
    exec (.ulWriteReceive k) s = .next (ulFree k (peerAns e.2 .notIssued (tookMsg k e s))) := by
  change execUlWriteReceive k s = _
  exact onMsg_peerChecked_gone _ h hseen

theorem exec_ulWriteReceive_none (h : rxHead s k (forMe s 1) = none) : exec (.ulWriteReceive k) s = .next s := by
  change execUlWriteReceive k s = _
  exact onMsg_none _ h

theorem exec_ulReadReceive_aperture (h : rxHead s k (forMe s 2) = some e)
    (hseen : e.2.seen = some (.pass a w.port w.laddr w.tmo w.acked)) (hwin : e.2.win = 255) :
    exec (.ulReadReceive k) s = .next (ulFree k (peerToStore e.2 0 a (tookMsg k e s))) := by
  change execUlReadReceive k s = _
  rw [execUlReadReceive, onMsg_peerChecked_pass _ h hseen, if_pos hwin]

theorem exec_ulReadReceive_window (h : rxHead s k (forMe s 2) = some e)
    (hseen : e.2.seen = some (.pass a w.port w.laddr w.tmo w.acked)) (hwin : e.2.win ≠ 255) :
    exec (.ulReadReceive k) s = .next (ulFree k (peerToPort e.2 { op := 0, len := readLen e.2 } 0 w (tookMsg k e s))) := by
  change execUlReadReceive k s = _
  rw [execUlReadReceive, onMsg_peerChecked_pass _ h hseen, if_neg hwin]
  rfl

theorem exec_ulReadReceive_denied {cause guard : Nat} (h : rxHead s k (forMe s 2) = some e) (hseen : e.2.seen = some (.denied cause guard)) :
    exec (.ulReadReceive k) s = .next (ulFree k (peerRefused e.2 cause guard (tookMsg k e s))) := by
  change execUlReadReceive k s = _
  exact onMsg_peerChecked_denied _ h hseen

theorem exec_ulAtomicReceive_aperture (h : rxHead s k (forMe s 3) = some e)
    (hseen : e.2.seen = some (.pass a w.port w.laddr w.tmo w.acked)) (hwin : e.2.win = 255) :
    exec (.ulAtomicReceive k) s = .next (ulFree k (peerAns e.2 (.code 1) (tookMsg k e s))) := by
  change execUlAtomicReceive k s = _
  rw [execUlAtomicReceive, onMsg_peerChecked_pass _ h hseen, if_pos hwin]

theorem exec_ulAtomicReceive_window (h : rxHead s k (forMe s 3) = some e)
    (hseen : e.2.seen = some (.pass a w.port w.laddr w.tmo w.acked)) (hwin : e.2.win ≠ 255) :
    exec (.ulAtomicReceive k) s = .next (ulFree k (peerToPort e.2 { op := 3, sub := e.2.stat, len := atomicSize e.2, data := e.2.data }
      e.2.data.length w (tookMsg k e s))) := by
  change execUlAtomicReceive k s = _
  rw [execUlAtomicReceive, onMsg_peerChecked_pass _ h hseen, if_neg hwin]
  rfl

theorem exec_ulAtomicReceive_denied {cause guard : Nat} (h : rxHead s k (forMe s 3) = some e) (hseen : e.2.seen = some (.denied cause guard)) :
    exec (.ulAtomicReceive k) s = .next (ulFree k (peerRefused e.2 cause guard (tookMsg k e s))) := by
  change execUlAtomicReceive k s = _
  exact onMsg_peerChecked_denied _ h hseen

end requestRows

/-! ## Responses, routed items, mirror writes and forwarding -/

section otherMessages
variable {k : Fin 4} {e : Nat × UMsg} {s : State}

theorem exec_ulRespReceive_unknown (h : rxHead s k (fun m => forMe s 4 m && !acksMirror s k m) = some e)
    (hresp : respOf (tookMsg k e s) k e.2 = none) : exec (.ulRespReceive k) s =
      .next (ulFree k (ulProto k 6 (((tookMsg k e s).get (Fld.UL_SEQ_RX_EXP k) + 4095) % 4096) (tookMsg k e s))) := by
  change execUlRespReceive k s = _
  rw [execUlRespReceive, onMsg_some _ h, hresp]

/-- A response that draws no offset of a media error (log 7) and answers no STATE message goes to what asked. -/
theorem exec_ulRespReceive_answers {j v : Nat} {src : ReqSrc} {x : UMsg}
    (h : rxHead s k (fun m => forMe s 4 m && !acksMirror s k m) = some e) (hresp : respOf (tookMsg k e s) k e.2 = some (j, v, src, x))
    (hsrc : ∀ t c, src ≠ .state t c) (hstat : e.2.stat ≠ 6) : exec (.ulRespReceive k) s =
      .next (ulFree k (answer src (if x.mtype = 2 then 0 else if x.mtype = 3 then 3 else 2) (ansOf (tookMsg k e s) e.2)
        (reqEnds j v (tookMsg k e s)))) := by
  have hdraw : (e.2.stat == 6) = false := beq_false_of_ne hstat
  change execUlRespReceive k s = _
  rw [execUlRespReceive, onMsg_some _ h, hresp]
  cases src
  case state t c => exact absurd rfl (hsrc t c)
  all_goals simp only [hdraw, doIf, Bool.false_eq_true, if_false]

theorem exec_ulRoutedReceive_item (h : rxHead s k (forMe s 5) = some e) (hsend : e.2.send = false) :
    exec (.ulRoutedReceive k) s = .next (ulFree k (routedHere e.2 (tookMsg k e s))) := by
  change execUlRoutedReceive k s = _
  rw [execUlRoutedReceive, onMsg_some _ h, if_neg (by simp [hsend])]

theorem exec_ulRoutedReceive_send (h : rxHead s k (forMe s 5) = some e) (hsend : e.2.send = true) :
    exec (.ulRoutedReceive k) s = .next (ulFree k (sendHere e.2 (tookMsg k e s))) := by
  change execUlRoutedReceive k s = _
  rw [execUlRoutedReceive, onMsg_some _ h, if_pos hsend]

theorem exec_mirrorWriteReceive_inside {a : Nat} (h : rxHead s k (forMe s 6) = some e)
    (hstandby : tabGet (fun _ => none) (tookMsg k e s).ds.standby e.2.ctx = some a)
    (hsize : e.2.off + e.2.data.length ≤ (tookMsg k e s).aptSize a) :
    exec (.mirrorWriteReceive k) s = .next (ulFree k (mirrorIn e.2 a (tookMsg k e s))) := by
  change execMirrorWriteReceive k s = _
  rw [execMirrorWriteReceive, onMsg_some _ h]
  simp only [hstandby, if_pos hsize]

theorem exec_mirrorWriteReceive_nowhere (h : rxHead s k (forMe s 6) = some e)
    (hstandby : tabGet (fun _ => none) (tookMsg k e s).ds.standby e.2.ctx = none) (hback : (tookMsg k e s).ds.backFor = []) :
    exec (.mirrorWriteReceive k) s = .next (ulFree k (peerAns e.2 .notIssued (tookMsg k e s))) := by
  change execMirrorWriteReceive k s = _
  rw [execMirrorWriteReceive, onMsg_some _ h]
  simp only [hstandby, hback, List.find?_nil]

theorem exec_messageForward_route {j : Nat} (h : rxHead s k (fun m => m.dst != s.me) = some e)
    (hroute : (tookMsg k e s).routeFor e.2.dst e.2.ctx = some j) : exec (.messageForward k) s =
      .next (ulFree k (addItem false 0 e.2.cls (4 + j) e.2.data.length false (.message e.2) (tookMsg k e s))) := by
  change execMessageForward k s = _
  rw [execMessageForward, onMsg_some _ h, hroute]

theorem exec_messageForward_noRoute (h : rxHead s k (fun m => m.dst != s.me) = some e)
    (hroute : (tookMsg k e s).routeFor e.2.dst e.2.ctx = none) (hreq : e.2.mtype ∈ [1, 2, 3, 6, 7]) :
    exec (.messageForward k) s = .next (ulFree k (peerAns e.2 .notIssued (tookMsg k e s))) := by
  change execMessageForward k s = _
  rw [execMessageForward, onMsg_some _ h]
  simp only [hroute, if_pos (Or.inl (List.contains_iff_mem.mpr hreq))]

end otherMessages

/-- Settles O38: each row takes its message off the link; a request goes on as its check ended, the rest by the equation of its branch. -/
theorem peerRequestsAndRoutedMessages : Obligations.PeerRequestsAndRoutedMessages := by
  unfold Obligations.PeerRequestsAndRoutedMessages
  refine ⟨fun _ _ _ _ _ => exec_ulWriteReceive_aperture, fun _ _ _ _ _ => exec_ulWriteReceive_window,
    fun _ _ _ _ _ => exec_ulWriteReceive_denied, fun _ _ _ => exec_ulWriteReceive_gone, fun _ _ => exec_ulWriteReceive_none,
    fun _ _ _ _ _ => exec_ulReadReceive_window, fun _ _ _ _ _ => exec_ulReadReceive_aperture,
    fun _ _ _ _ _ => exec_ulReadReceive_denied,
    fun _ _ _ _ _ => exec_ulAtomicReceive_aperture, fun _ _ _ _ _ => exec_ulAtomicReceive_window,
    fun _ _ _ _ _ => exec_ulAtomicReceive_denied,
    fun _ _ _ => exec_ulRespReceive_unknown, ?answers,
    fun _ _ _ => exec_ulRoutedReceive_item, fun _ _ _ => exec_ulRoutedReceive_send,
    fun _ _ _ _ => exec_mirrorWriteReceive_inside, fun _ _ _ => exec_mirrorWriteReceive_nowhere,
    fun _ _ _ _ => exec_messageForward_route, ?noRoute⟩
  case answers =>
    intro k e j v src x s h hresp hsrc hstat
    refine exec_ulRespReceive_answers h hresp ?_ hstat
    rintro t c rfl
    exact Bool.noConfusion hsrc
  case noRoute =>
    intro k e s h hroute hwrite
    exact exec_messageForward_noRoute h hroute (by simp [hwrite])

end Sys2Proof.Machine
end

section

/-! The canonical form of the register file and of aperture memory, kept by every step (11 R247; 20 R464). -/

namespace Sys2Proof.Machine

/-- What an operation keeps of its state, the canonical form is among. -/
theorem canonical_of_keeps {w : Nat} {s t : State} (h : Keeps w s t) (hs : Canonical s) : Canonical t := by
  obtain ⟨hregs, hbytes⟩ := hs
  exact ⟨h.regs hregs, h.mem hbytes⟩

theorem canonical_exec {i : Instr} {s t : State} (hs : Canonical s) (h : exec i s = .next t) : Canonical t :=
  canonical_of_keeps (ends_exec i s t h) hs

theorem step_idle {s : State} (h : s.pending = []) : step s = .next s := by
  simp [step, h]

theorem step_front {c : Instr} {cs : List Instr} {s : State} (h : s.pending = c :: cs) : step s = exec c { s with pending := cs } := by
  simp [step, h]

/-- Settles O2: an idle step changes nothing, and the row at the front keeps the form as it keeps what it may not change. -/
theorem everyStepKeepsTheCanonicalForm : Obligations.EveryStepKeepsTheCanonicalForm := by
  unfold Obligations.EveryStepKeepsTheCanonicalForm
  intro s t hs ht
  cases hq : s.pending with
  | nil =>
    rw [step_idle hq] at ht
    cases ht
    exact hs
  | cons c cs =>
    rw [step_front hq] at ht
    have hrest : Canonical { s with pending := cs } := hs
    exact canonical_exec hrest ht

end Sys2Proof.Machine
end

section

/-! What the raising of a source leaves of the store, the media engine and the DRAM controller, and that it is then pending (15 R366, R380). -/

namespace Sys2Proof.Machine

/-- What follows the edge of a source writes no pending word but the first. -/
theorem regsOnly_raise_edge (n : Nat) (s : State) : RegsOnly (raiseRegs 0) (raiseEdge n s) (raise n s) := by
  have hb : ∀ (f : Field), f.addr ∈ raiseRegs 0 → ∀ x, RegsOnly (raiseRegs 0) (raiseEdge n s) x →
      RegsOnly (raiseRegs 0) (raiseEdge n s) (bcAttn f x) := fun f hf x hx => regsOnly_set hx _ hf
  unfold raise
  refine regsOnly_doIf (regsOnly_doIf (regsOnly_doIf (regsOnly_doIf (regsOnly_doIf (regsOnly_refl _ _) ?_) ?_) ?_) ?_) ?_
  · exact fun x hx => hb _ (by decide) _ (regsOnly_ctxEvent 0 5 hx)
  · exact fun x hx => hb _ (by decide) _ (regsOnly_ctxEvent 0 6 hx)
  · exact fun x hx => regsOnly_ctxEvent 0 7 hx
  · exact hb _ (by decide)
  · exact hb _ (by decide)

/-- Outside Rest a source that is raised is pending, whatever events follow it. -/
theorem isPending_raise {n : Nat} (hlow : 32 ≤ n) (hn : n < 288) {s : State} (h : s.inRest = false) : isPending (raise n s) n = true := by
  have hword : Adr.IC_PEND (n / 32) ∉ raiseRegs 0 := by
    simp only [raiseRegs, Adr.IC_PEND, Adr.KS_WAKE_LATCH_LO, Adr.KS_WAKE_LATCH_HI, Fld.PFS_STAT_MISSED, Fld.EV_MSIX_CNT_SENT,
      Fld.EV_DROP_D3COLD, Fld.EV_PME_PME_SENT, Fld.HL_LINK_STATUS_LSTATE, Fld.CTX_EVT_STATUS_EVT, Fld.MBX_BC_ATTN_MODE,
      List.mem_cons, List.not_mem_nil, or_false, not_or]
    omega
  rw [isPending_of_regsOnly (regsOnly_raise_edge n s) hword, isPending_raiseEdge hn h]

theorem raise_ds (n : Nat) (s : State) : (raise n s).ds = s.ds :=
  ds_of_keeps (keeps_raise (w := 0x102002D3AB) n rfl (keeps_refl _ s)) rfl rfl rfl

theorem raise_med (n : Nat) (s : State) : (raise n s).med = s.med :=
  (keeps_raise (w := 0x102002D3AB) n rfl (keeps_refl _ s)).same .med rfl

end Sys2Proof.Machine
end

section

/-! Admission of durable writes, reads of CTX_PERSIST, mirror acknowledgements, and writes of the budget and the hold-up energy
(11 R251 to R264). -/

namespace Sys2Proof.Machine

/-! ## Admission (11 R251) -/

section admission
variable {n : Fin 65536} {x : Wr} {s : State}

theorem exec_writeAdmission_admits (hx : s.ds.wait[n.val]? = some x) (hmay : mayAdmit s x = true)
    (hfirst : ((s.ds.wait.take n).any fun y => sameSource y.src x.src) = false) : exec (.writeAdmission n) s =
      .next (s.dsUpd (fun d => { d with wait := d.wait.eraseIdx n }) |> cacheWrite x |> mirrorWrite x |> admittedFor x |> updStage) := by
  change execWriteAdmission n s = _
  rw [execWriteAdmission, hx]
  exact congrArg Host.Outcome.next (if_pos ⟨hmay, by simp [hfirst]⟩)

theorem exec_writeAdmission_stays (hx : s.ds.wait[n.val]? = some x) (hmay : mayAdmit s x = false) :
    exec (.writeAdmission n) s = .next s := by
  change execWriteAdmission n s = _
  rw [execWriteAdmission, hx]
  exact congrArg Host.Outcome.next (if_neg fun h => by simp [hmay] at h)

end admission

/-! ## Reads of CTX_PERSIST (11 R254) -/

/-- All bytes of a word are enabled. -/
theorem enabledBytes_word (v : Nat) : enabledBytes 15 (leBytes 4 v) = leBytes 4 v := by
  simp [enabledBytes, leBytes, bitOf]

section barrierReads
variable {c : Nat} {r : HeldRead} {s : State}

theorem heldAnswer_whole (h : r.rest = none) (v : Nat) :
    heldAnswer c v r s = emit (.cpl c 0 (r.pre ++ enabledBytes r.be (leBytes 4 v))) s := by
  rw [heldAnswer, h]

theorem heldAnswer_goesOn {be : Nat} (h : r.rest = some be) (v : Nat) : heldAnswer c v r s = s.ctxUpd c fun x =>
    { x with wfence := x.wfence ++ [{ r with be := be, rest := none, pre := r.pre ++ enabledBytes r.be (leBytes 4 v) }] } := by
  rw [heldAnswer, h]

/-- A read that returns leaves the list, whichever answer it gets. -/
theorem persistReturn_persist {rs : List HeldRead} (h : (s.ctx c).persist = r :: rs) (v : Nat) :
    ((persistReturn c v r s).ctx c).persist = rs := by
  cases hrest : r.rest with
  | none => simp [persistReturn, heldAnswer_whole hrest, h]
  | some be => simp [persistReturn, heldAnswer_goesOn hrest, h]

theorem persistReturn_answers (h : r.rest = none) (v : Nat) :
    (persistReturn c v r s).out.head? = some (.cpl c 0 (r.pre ++ enabledBytes r.be (leBytes 4 v))) := by
  simp [persistReturn, heldAnswer_whole h]

/-- Of eight bytes the read goes on with CTX_WFENCE, and nothing is answered yet. -/
theorem persistReturn_goesOn {be : Nat} (h : r.rest = some be) (v : Nat) : (persistReturn c v r s).out = s.out ∧
    (((persistReturn c v r s).ctx c).wfence.getLast?.map fun x => (x.since, x.upTo2, x.upTo4, x.be)) =
      some (r.since, r.upTo2, r.upTo4, be) := by
  simp [persistReturn, heldAnswer_goesOn h]

end barrierReads

section persistRows
variable {c : Fin 1024} {r : HeldRead} {rs : List HeldRead} {s : State}

theorem exec_ctxPersistRead_open (h : HostOpen s) : exec (.ctxPersistRead c) s = .next (persistRead c 15 none (hostNoted s)) :=
  congrArg Host.Outcome.next (hostTlp_of_hostOpen h _ _ _)

theorem persistRead_noAperture (be : Nat) (rest : Option Nat) (h : (s.ctx c).apt = none) : persistRead c be rest s =
    heldAnswer c (2 ^ 30) (heldNow s c be rest) (s.setWord (Adr.CTX_PERSIST c) (BitVec.ofNat 32 (2 ^ 30))) := by
  rw [persistRead, h]
  rfl

theorem persistRead_held {a : Nat} (be : Nat) (rest : Option Nat) (h : (s.ctx c).apt = some a) : persistRead c be rest s =
    s.ctxUpd c fun x => { x with persist := x.persist ++ [heldNow s c be rest] } := by
  rw [persistRead, h]

theorem exec_ctxPersistReturn_protected (h : (s.ctx c).persist = r :: rs) (hprot : protectedTo s c r.upTo4 = true)
    (hmode : s.mode ≠ .preserve) : exec (.ctxPersistReturn c) s =
      .next (persistReturn c (persistWord (soloSeen s c r.upTo4) false false (s.since r.since)) r s) := by
  change execCtxPersistReturn c s = _
  rw [execCtxPersistReturn, h]
  exact congrArg Host.Outcome.next (if_pos ⟨hprot, hmode⟩)

theorem exec_ctxPersistTimeout_late (h : (s.ctx c).persist = r :: rs) (hprot : protectedTo s c r.upTo4 = false)
    (hlate : heldLimit ≤ s.since r.since) (hmode : s.mode ≠ .preserve) : exec (.ctxPersistTimeout c) s =
      .next (persistReturn c (persistWord (soloSeen s c r.upTo4) false true (s.since r.since)) r s) := by
  change execCtxPersistTimeout c s = _
  rw [execCtxPersistTimeout, h]
  exact congrArg Host.Outcome.next (if_pos ⟨hlate, by simp [hprot], hmode⟩)

/-- In PRESERVE no read returns. -/
theorem exec_ctxPersistReturn_preserve (h : s.mode = .preserve) : exec (.ctxPersistReturn c) s = .next s := by
  change execCtxPersistReturn c s = _
  rw [execCtxPersistReturn]
  split <;> simp [h, done]

theorem exec_ctxPersistTimeout_preserve (h : s.mode = .preserve) : exec (.ctxPersistTimeout c) s = .next s := by
  change execCtxPersistTimeout c s = _
  rw [execCtxPersistTimeout]
  split <;> simp [h, done]

end persistRows

/-! ## Mirrors (11 R253, R260, R261) -/

theorem exec_mirrorAckReceive_acks {k : Fin 4} {e : Nat × UMsg} {j t n : Nat} {q : UMsg} {s : State}
    (h : rxHead s k (acksMirror s k) = some e) (hresp : respOf (tookMsg k e s) k e.2 = some (j, t, .mirror n, q)) :
    exec (.mirrorAckReceive k) s = .next (ulFree k (mirrorAcked n (reqEnds j t (tookMsg k e s)))) := by
  change execMirrorAckReceive k s = _
  rw [execMirrorAckReceive, onMsg_some _ h]
  simp only [hresp]

theorem exec_mirrorAckTimeout_late {a : Fin 2048} {x : MirrorOut} {v : Stroke} {s : State} (hx : x ∈ s.ds.copies) (ha : x.apt = a.val)
    (hsent : x.sent = some v) (hlate : s.get Fld.DS_MIRROR_CTL_ACK_TMO ≤ s.since v) :
    exec (.mirrorAckTimeout a) s = .next (soloNext [a.val] s) := by
  change execMirrorAckTimeout a s = _
  rw [execMirrorAckTimeout, if_pos]
  · rfl
  · exact List.any_eq_true.mpr ⟨x, hx, by simp [ha, hsent, hlate]⟩

theorem soloNext_fresh {a : Nat} {s : State} (h : s.ds.soloDue.contains a = false) :
    soloNext [a] s = s.dsUpd fun d => { d with soloDue := d.soloDue ++ [a] } := by
  unfold soloNext State.dsUpd
  simp only [List.filter_cons, h, Bool.not_false, if_true, List.filter_nil]

theorem exec_resyncComplete_empty {a : Fin 2048} {s : State} (hmirror : s.mirror a = 3)
    (hempty : (s.ds.bitmap.any fun u => u.1 == a.val) = false) :
    exec (.resyncComplete a) s = .next (raise 236 (updMirrorStatus (s.set (Fld.DS_APT_STATUS_MIRROR a) 1))) := by
  change execResyncComplete a s = _
  rw [execResyncComplete, if_pos ⟨hmirror, by simp [hempty]⟩]
  rfl

/-- The counts of SOLO and RESYNC stand in one register. -/
theorem regsOnly_updMirrorStatus (s : State) : RegsOnly [Fld.DS_MIRROR_STATUS_SOLO.addr] s (updMirrorStatus s) :=
  regsOnly_set (regsOnly_set (regsOnly_refl _ s) _ (by decide)) _ (by decide)

theorem mirror_set_tandem (a : Nat) (s : State) : (s.set (Fld.DS_APT_STATUS_MIRROR a) 1).mirror a = 1 :=
  get_set_same s (Fld.DS_APT_STATUS_MIRROR a) 1 ⟨show 28 ≤ 29 by decide, show 29 < 32 by decide⟩

/-- What follows the end of a resync leaves the state of the mirror. -/
theorem mirror_resynced (a : Nat) (s : State) : (raise 236 (updMirrorStatus s)).mirror a = s.mirror a := by
  have haddr : (Fld.DS_APT_STATUS_MIRROR a).addr = 0x1000000004 + 32 * a := rfl
  have hraise : (Fld.DS_APT_STATUS_MIRROR a).addr ∉ raiseRegs 236 := notMem_raiseRegs (by decide) (by omega)
  have hstatus : (Fld.DS_APT_STATUS_MIRROR a).addr ∉ [Fld.DS_MIRROR_STATUS_SOLO.addr] := by
    simp only [haddr, Fld.DS_MIRROR_STATUS_SOLO, List.mem_singleton]
    omega
  rw [State.mirror, get_raise _ _ _ hraise, regsOnly_get (regsOnly_updMirrorStatus s) hstatus, State.mirror]

/-! ## The budget and the hold-up energy (11 R264) -/

/-- A write that needs more energy than there is: REFUSED is set, and source 234 raised. -/
def energyRefused (f : Field) (s : State) : State := raise 234 (s.set f 1)

section energyWrites
variable {v : Word} {s : State}

theorem exec_dsBudgetWrite_fits (hclr : v.getLsbD 31 = false) (hstep : bitsOf v.toNat 8 0 % 16 = 0) (hlow : 16 ≤ bitsOf v.toNat 8 0)
    (hhigh : bitsOf v.toNat 8 0 ≤ 256) (hfits : energyOf (bitsOf v.toNat 8 0) s.flushRate ≤ s.get Fld.DS_HOLDUP_MJ) :
    exec (.dsBudgetWrite v) s = .next { s with deferred := s.deferred ++ [.budget (bitsOf v.toNat 8 0)] } := by
  change execDsBudgetWrite v s = _
  simp only [execDsBudgetWrite, dsBudgetWrite, done, hclr, doIf_false, ne_eq, hstep, not_true_eq_false, Nat.not_lt.mpr hlow,
    Nat.not_lt.mpr hhigh, or_self, Nat.not_lt.mpr hfits, if_false]

theorem exec_dsBudgetWrite_beyond (hclr : v.getLsbD 31 = false) (hstep : bitsOf v.toNat 8 0 % 16 = 0) (hlow : 16 ≤ bitsOf v.toNat 8 0)
    (hhigh : bitsOf v.toNat 8 0 ≤ 256) (hbeyond : s.get Fld.DS_HOLDUP_MJ < energyOf (bitsOf v.toNat 8 0) s.flushRate) :
    exec (.dsBudgetWrite v) s = .next (energyRefused Fld.DS_BUDGET_REFUSED s) := by
  change execDsBudgetWrite v s = _
  simp only [execDsBudgetWrite, dsBudgetWrite, done, energyRefused, hclr, doIf_false, ne_eq, hstep, not_true_eq_false,
    Nat.not_lt.mpr hlow, Nat.not_lt.mpr hhigh, or_self, hbeyond, if_true, if_false]

theorem exec_dsHoldupWrite_fits (hclr : v.getLsbD 31 = false)
    (hfits : energyOf (s.get Fld.DS_BUDGET_MIB) s.flushRate ≤ bitsOf v.toNat 15 0) :
    exec (.dsHoldupWrite v) s = .next { s with deferred := s.deferred ++ [.holdup (bitsOf v.toNat 15 0)] } := by
  change execDsHoldupWrite v s = _
  simp only [execDsHoldupWrite, dsHoldupWrite, done, hclr, doIf_false, Nat.not_lt.mpr hfits, if_false]

theorem exec_dsHoldupWrite_beyond (hclr : v.getLsbD 31 = false)
    (hbeyond : bitsOf v.toNat 15 0 < energyOf (s.get Fld.DS_BUDGET_MIB) s.flushRate) :
    exec (.dsHoldupWrite v) s = .next (energyRefused Fld.DS_HOLDUP_REFUSED s) := by
  change execDsHoldupWrite v s = _
  simp only [execDsHoldupWrite, dsHoldupWrite, done, energyRefused, hclr, doIf_false, hbeyond, if_true]

end energyWrites

theorem get_energyRefused {f g : Field} (h : g.addr ∉ raiseRegs 234) (s : State) : (energyRefused f s).get g = (s.set f 1).get g :=
  get_raise 234 _ g h

theorem isPending_energyRefused {f : Field} {s : State} (h : f.Apart Fld.CRP_SLEEP_STATE) (hrest : s.inRest = false) :
    isPending (energyRefused f s) 234 = true := by
  refine isPending_raise (by decide) (by decide) ?_
  rw [State.inRest, get_set_apart _ _ _ _ h]
  exact hrest

/-- Settles O30: each row by the equation of its branch; the answers, the mirror and REFUSED are read off it. -/
theorem durableWritesPersistAndMirrors : Obligations.DurableWritesPersistAndMirrors := by
  unfold Obligations.DurableWritesPersistAndMirrors
  refine ⟨fun _ _ _ => exec_writeAdmission_admits, fun _ _ _ => exec_writeAdmission_stays, ?noAperture, ?held, ?returns, ?goesOn,
    fun _ _ h => ⟨exec_ctxPersistReturn_preserve h, exec_ctxPersistTimeout_preserve h⟩, ?late, ?acked, ?ackLate, ?resynced,
    fun _ _ => exec_dsBudgetWrite_fits, ?budgetRefused, ?holdupRefused, fun _ _ => exec_dsHoldupWrite_fits⟩
  case noAperture =>
    intro c s ho hapt
    refine ⟨_, exec_ctxPersistRead_open ho, ?_⟩
    rw [persistRead_noAperture _ _ hapt, heldAnswer_whole rfl]
    simp [heldNow, enabledBytes_word]
  case held =>
    intro c a s ho hapt
    refine ⟨_, exec_ctxPersistRead_open ho, ?_⟩
    beta_reduce
    rw [persistRead_held _ _ hapt, ctxUpd_same]
    rfl
  case returns =>
    intro c r rs s hr hprot hmode hrest
    exact ⟨_, exec_ctxPersistReturn_protected hr hprot hmode, persistReturn_persist hr _, persistReturn_answers hrest _⟩
  case goesOn =>
    intro c r rs be s hr hprot hmode hrest
    exact ⟨_, exec_ctxPersistReturn_protected hr hprot hmode, persistReturn_persist hr _, persistReturn_goesOn hrest _⟩
  case late =>
    intro c r rs s hr hprot hlate hmode hrest
    exact ⟨_, exec_ctxPersistTimeout_late hr hprot hlate hmode, persistReturn_persist hr _, persistReturn_answers hrest _⟩
  case acked =>
    intro k m vc j n q s h hresp
    exact exec_mirrorAckReceive_acks h hresp
  case ackLate =>
    intro a x v s hx ha hsent hlate hfresh
    rw [exec_mirrorAckTimeout_late hx ha hsent hlate, soloNext_fresh hfresh]
  case resynced =>
    intro a s hmirror hempty
    refine ⟨_, exec_resyncComplete_empty hmirror hempty, ?_⟩
    beta_reduce
    rw [mirror_resynced, mirror_set_tandem]
  case budgetRefused =>
    intro v s hclr hstep hlow hhigh hbeyond hrest
    refine ⟨_, exec_dsBudgetWrite_beyond hclr hstep hlow hhigh hbeyond, ?_, ?_, isPending_energyRefused (by decide) hrest⟩
    · rw [get_energyRefused (by decide), get_set_same _ _ _ (by decide)]
      rfl
    · rw [get_energyRefused (by decide), get_set_apart _ _ _ _ (by decide)]
  case holdupRefused =>
    intro v s hclr hbeyond hrest
    refine ⟨_, exec_dsHoldupWrite_beyond hclr hbeyond, ?_, ?_, isPending_energyRefused (by decide) hrest⟩
    · rw [get_energyRefused (by decide), get_set_same _ _ _ (by decide)]
      rfl
    · rw [get_energyRefused (by decide), get_set_apart _ _ _ _ (by decide)]

end Sys2Proof.Machine
end

section

/-! Flushes and stripes (11 R251; 12 R285, R286), errors of DRAM (11 R272 to R274) and of NAND (12 R283, R284, R294). -/

namespace Sys2Proof.Machine

/-! ## Wear and write amplification follow the media engine -/

/-- The registers that the wear figures write, and those that its warning does. -/
def wearRegs : List Nat := [Adr.MED_LIFE, Adr.MED_PE] ++ raiseRegs 243

theorem regsOnly_updWear (s : State) : RegsOnly wearRegs s (updWear s) := by
  unfold updWear
  refine regsOnly_doIf (regsOnly_set (regsOnly_set (regsOnly_set (regsOnly_set (regsOnly_refl _ s) _ ?_) _ ?_) _ ?_) _ ?_)
    fun x hx => regsOnly_raiseIn hx fun a ha => List.mem_append_right _ ha
  all_goals exact List.mem_append_left _ (by decide)

theorem updWear_ds (s : State) : (updWear s).ds = s.ds :=
  ds_of_keeps (keeps_updWear (w := 0x102002D3AB) rfl (keeps_refl _ s)) rfl rfl rfl

theorem updWear_med (s : State) : (updWear s).med = s.med := (keeps_updWear (w := 0x102002D3AB) rfl (keeps_refl _ s)).same .med rfl

theorem updWa_ds (s : State) : (updWa s).ds = s.ds := ds_of_keeps (keeps_updWa (w := 0x8) rfl (keeps_refl _ s)) rfl rfl rfl

theorem updWa_med (s : State) : (updWa s).med = s.med := (keeps_updWa (w := 0x8) rfl (keeps_refl _ s)).same .med rfl

/-! ## The cache's counts -/

/-- The registers that follow the cache of an aperture. -/
def dirtyRegs (a : Nat) : List Nat := [Fld.DS_DIRTY_DIRTY.addr, Adr.DS_APT_OCC a, Adr.DS_APT_LOST a, Adr.DS_APT_RESYNC a]

theorem regsOnly_updAptOcc {a : Nat} {r s : State} (h : RegsOnly (dirtyRegs a) r s) : RegsOnly (dirtyRegs a) r (updAptOcc a s) := by
  unfold updAptOcc
  refine regsOnly_set (regsOnly_set (regsOnly_set (regsOnly_set h _ ?_) _ ?_) _ ?_) _ ?_
  all_goals simp [dirtyRegs, Fld.DS_APT_OCC_CACHE_MIB, Fld.DS_APT_OCC_DIRTY, Fld.DS_APT_LOST_LOST, Fld.DS_APT_RESYNC_REMAIN, Adr.DS_APT_OCC,
    Adr.DS_APT_LOST, Adr.DS_APT_RESYNC]

theorem regsOnly_updDirty (a : Nat) (s : State) : RegsOnly (dirtyRegs a) s (updDirty a s) :=
  regsOnly_updAptOcc (regsOnly_peak (regsOnly_set (regsOnly_refl _ s) _ List.mem_cons_self) _ List.mem_cons_self)

theorem updDirty_ds (a : Nat) (s : State) : (updDirty a s).ds = s.ds :=
  ds_of_keeps (keeps_updDirty (w := 0x8) a rfl (keeps_refl _ s)) rfl rfl rfl

/-! ## A confirmed flush (11 R251; 12 R286) -/

/-- The store once the units of a stripe are confirmed: they are clean, and copied to NAND. -/
def confirmed (us : List (Nat × Nat)) (s : State) : Store :=
  { s.ds with
    dirty := s.ds.dirty.filter (fun u => !us.contains u), flushing := s.ds.flushing.filter (fun u => !us.contains u),
    clean := s.ds.clean ++ us, bad := s.ds.bad.filter (fun u => !us.contains u),
    nand := us.foldl (fun t u => copyBytes s.ds.mem t (unitKeys s u).1 (unitKeys s u).2) s.ds.nand,
    presDirty := s.ds.presDirty.filter (fun u => !us.contains u),
    presFlushed := if s.mode = .preserve then s.ds.presFlushed + us.length else s.ds.presFlushed }

theorem closeStripe_ds (p : Stripe) (s : State) : (closeStripe p s).ds = confirmed (p.units.map (·.2)) s :=
  doAll_same State.ds _ _ updDirty_ds

theorem exec_unitFlushComplete_onItsWay {a : Fin 2048} {u : BitVec 32} {p : Stripe} {s : State} (h : flightOf s (a.val, u.toNat) = some p) :
    exec (.unitFlushComplete a u) s = .next (closeStripe p s) := by
  change execUnitFlushComplete a u s = _
  simp [execUnitFlushComplete, h, done]

theorem exec_unitFlushComplete_none {a : Fin 2048} {u : BitVec 32} {s : State} (h : flightOf s (a.val, u.toNat) = none) :
    exec (.unitFlushComplete a u) s = .next s := by
  change execUnitFlushComplete a u s = _
  simp [execUnitFlushComplete, h, done]

/-- A confirmed unit is clean: neither dirty nor on its way. -/
theorem confirmed_clean {us : List (Nat × Nat)} {s : State} {x : Nat × Nat} (h : x ∈ us) :
    x ∉ (confirmed us s).dirty ∧ x ∉ (confirmed us s).flushing ∧ x ∈ (confirmed us s).clean := by
  have hfilter (l : List (Nat × Nat)) : x ∉ l.filter fun u => !us.contains u := by simp [h]
  exact ⟨hfilter _, hfilter _, List.mem_append_right _ h⟩

/-! ## A stripe written (12 R286) -/

/-- A stripe whose units are on their way, before the figures follow it. -/
def stripeSent (ms us : List (Nat × Nat)) (s : State) : State :=
  (addStripe false ms us s).dsUpd fun d => { d with flushing := d.flushing ++ us }

theorem exec_stripeWrite_permitted {members : List NandBlock} {units : List (Fin 2048 × BitVec 32)} {ms us : List (Nat × Nat)} {s : State}
    (hms : ms = members.map nandPair) (hus : us = units.map fun u => (u.1.val, u.2.toNat)) (h : mayStripe s ms us = true) :
    exec (.stripeWrite members units) s = .next (updWear (countFlush (placesOf s ms) us.length (stripeSent ms us s))) := by
  subst hms hus
  change execStripeWrite members units s = _
  simp [execStripeWrite, h, done, stripeSent]

theorem countFlush_ds (places units : Nat) (s : State) : (countFlush places units s).ds = s.ds := updWa_ds _

theorem countFlush_stripes (places units : Nat) (s : State) : (countFlush places units s).med.stripes = s.med.stripes := by
  rw [countFlush, updWa_med]
  rfl

theorem countFlush_count (places units : Nat) (s : State) : (countFlush places units s).med.count = s.med.count := by
  rw [countFlush, updWa_med]
  rfl

/-- The places name the units in their order. -/
theorem placeUnits_units (per parity : Nat) (us : List (Nat × Nat)) : (placeUnits per parity us).map (·.2) = us := by
  simp [placeUnits, Function.comp_def]

theorem stripeSent_last (ms us : List (Nat × Nat)) (s : State) :
    ((stripeSent ms us s).med.stripes.getLast?.map fun p => (p.members, p.parity, p.units.map (·.2), p.closed)) =
      some (ms.map some, s.med.count % ms.length, us, false) := by
  simp [stripeSent, addStripe, placeUnits_units]

/-! ## Errors of DRAM (11 R272 to R274) -/

/-- The registers that record an error. -/
def eccRegs : List Nat := [Fld.DRC_ECC_LOG_VALID.addr, Fld.DRC_ECC_ADDR_LINE.addr, Fld.DRC_ECC_TS_STROKE_LO.addr]

section eccLaws
variable (unc : Bool) (ch rank dev line : Nat) (s : State)

theorem regsOnly_eccLog : RegsOnly eccRegs s (eccLog unc ch rank dev line s) := by
  unfold eccLog
  refine regsOnly_set (regsOnly_set (regsOnly_set (regsOnly_set (regsOnly_set (regsOnly_set (regsOnly_set (regsOnly_refl _ s)
    _ ?_) _ ?_) _ ?_) _ ?_) _ ?_) _ ?_) _ ?_
  all_goals decide

theorem eccLog_ds : (eccLog unc ch rank dev line s).ds = s.ds :=
  ds_of_keeps (keeps_eccLog (w := 0x8) unc ch rank dev line rfl (keeps_refl _ s)) rfl rfl rfl

theorem get_line_eccLog (h : line < 2 ^ 30) : (eccLog unc ch rank dev line s).get Fld.DRC_ECC_ADDR_LINE = line := by
  unfold eccLog
  rw [get_set_apart _ _ _ _ (by decide), get_set_same _ _ _ (by decide)]
  exact Nat.mod_eq_of_lt h

theorem get_uncorr_eccLog : (eccLog unc ch rank dev line s).get Fld.DRC_ECC_LOG_UNCORR = unc.toNat := by
  unfold eccLog
  rw [get_set_apart _ _ _ _ (by decide), get_set_apart _ _ _ _ (by decide), get_set_apart _ _ _ _ (by decide),
    get_set_apart _ _ _ _ (by decide), get_set_apart _ _ _ _ (by decide), get_set_same _ _ _ (by decide)]
  cases unc <;> rfl

end eccLaws

/-- A corrected error is remembered, beside those of the same window. -/
def errNoted (ch rank dev : Nat) (s : State) : State :=
  s.dsUpd fun d => { d with errs := (ch, rank, dev, s.now) :: d.errs.filter fun e => decide (s.since e.2.2.2 < 2 ^ 20) }

/-- A device of which as many errors are remembered as THRESH says is marked. -/
def markDue (ch rank dev : Nat) (s : State) : State :=
  if s.get Fld.DRC_FAIL_CTL_THRESH ≤ (s.ds.errs.filter fun e => e.1 == ch && e.2.1 == rank && e.2.2.1 == dev).length ∧
      (ch, rank, dev) ∉ s.ds.failed then markDevice ch rank dev s
  else s

theorem markDue_below {ch rank dev : Nat} {s : State} (h : s.ds.errs.length < s.get Fld.DRC_FAIL_CTL_THRESH) : markDue ch rank dev s = s := by
  refine if_neg fun hdue => ?_
  have hlen := List.length_filter_le (fun e : Nat × Nat × Nat × Stroke => e.1 == ch && e.2.1 == rank && e.2.2.1 == dev) s.ds.errs
  omega

/-- A corrected error counted, recorded, raised and remembered. -/
def corrected (ch rank : Fin 2) (dev : Fin 10) (line : BitVec 30) (s : State) : State :=
  errNoted ch rank dev (raise (152 + ch) (eccLog false ch rank dev line.toNat (s.inc (Fld.DRC_ECC_CNT_CORR ch) 1)))

section correctedErrors
variable {ch rank : Fin 2} {dev : Fin 10} {line : BitVec 30} {s : State}

theorem exec_dramCorrectedError : exec (.dramCorrectedError ch rank dev line) s = .next (markDue ch rank dev (corrected ch rank dev line s)) := rfl

theorem get_corrected {f : Field} (h : f.addr ∉ raiseRegs (152 + ch)) : (corrected ch rank dev line s).get f =
    (eccLog false ch rank dev line.toNat (s.inc (Fld.DRC_ECC_CNT_CORR ch) 1)).get f := by
  rw [corrected, errNoted, dsUpd_get, get_raise _ _ _ h]

theorem corrected_failed : (corrected ch rank dev line s).ds.failed = s.ds.failed := by
  rw [corrected, errNoted, dsUpd_ds, raise_ds, eccLog_ds, inc_ds]

theorem corrected_errs_first (h : s.ds.errs = []) : (corrected ch rank dev line s).ds.errs.length = 1 := by
  simp only [corrected, errNoted, dsUpd_ds, raise_ds, eccLog_ds, inc_ds, h, List.filter_nil, List.length_singleton]

theorem get_corr_corrected : (corrected ch rank dev line s).get (Fld.DRC_ECC_CNT_CORR ch) =
    min (Fld.DRC_ECC_CNT_CORR ch).max (s.get (Fld.DRC_ECC_CNT_CORR ch) + 1) := by
  have haddr : (Fld.DRC_ECC_CNT_CORR ch).addr = 0x580010 + 4 * ch.val := rfl
  have hraise : (Fld.DRC_ECC_CNT_CORR ch).addr ∉ raiseRegs (152 + ch) := notMem_raiseRegs (by omega) (by omega)
  have hlog : (Fld.DRC_ECC_CNT_CORR ch).addr ∉ eccRegs := by
    simp only [haddr, eccRegs, Fld.DRC_ECC_LOG_VALID, Fld.DRC_ECC_ADDR_LINE, Fld.DRC_ECC_TS_STROKE_LO, List.mem_cons, List.not_mem_nil, or_false]
    omega
  have hfits : (Fld.DRC_ECC_CNT_CORR ch).Fits := ⟨show 16 ≤ 31 by decide, show 31 < 32 by decide⟩
  rw [get_corrected hraise, regsOnly_get (regsOnly_eccLog _ _ _ _ _ _) hlog, get_inc_same _ _ _ hfits]

theorem get_line_corrected : (corrected ch rank dev line s).get Fld.DRC_ECC_ADDR_LINE = line.toNat := by
  rw [get_corrected (notMem_raiseRegs (by omega) (by decide)), get_line_eccLog _ _ _ _ _ _ line.isLt]

theorem get_thresh_corrected : (corrected ch rank dev line s).get Fld.DRC_FAIL_CTL_THRESH = s.get Fld.DRC_FAIL_CTL_THRESH := by
  have hne : Fld.DRC_FAIL_CTL_THRESH.addr ≠ (Fld.DRC_ECC_CNT_CORR ch).addr := by
    simp only [Fld.DRC_FAIL_CTL_THRESH, Fld.DRC_ECC_CNT_CORR]
    omega
  rw [get_corrected (notMem_raiseRegs (by omega) (by decide)), regsOnly_get (regsOnly_eccLog _ _ _ _ _ _) (by decide)]
  exact get_setWord_ne _ s hne

/-- The first error of a device does not reach a threshold above 1. -/
theorem exec_dramCorrectedError_first (herrs : s.ds.errs = []) (hthresh : 2 ≤ s.get Fld.DRC_FAIL_CTL_THRESH) :
    exec (.dramCorrectedError ch rank dev line) s = .next (corrected ch rank dev line s) := by
  rw [exec_dramCorrectedError, markDue_below]
  rw [corrected_errs_first herrs, get_thresh_corrected]
  exact hthresh

end correctedErrors

/-- An uncorrectable error counted, recorded, raised and logged, before its effect. -/
def uncorrectedNoted (ch rank line : Nat) (hit : DramHit) (s : State) : State :=
  logEv 0x0021 (leBytes 1 ch ++ leBytes 1 (dramRegion hit) ++ leBytes 2 0 ++ leBytes 4 line)
    (raise (154 + ch) (eccLog true ch rank 15 line (s.inc (Fld.DRC_ECC_CNT_UNCORR ch) 1)))

theorem logEv_ds (code : Nat) (detail : List Byte) (s : State) : (logEv code detail s).ds = s.ds :=
  ds_of_keeps (keeps_logEv (w := 0x2008) code detail rfl (keeps_refl _ s)) rfl rfl rfl

theorem uncorrectedNoted_ds (ch rank line : Nat) (hit : DramHit) (s : State) : (uncorrectedNoted ch rank line hit s).ds = s.ds := by
  rw [uncorrectedNoted, logEv_ds, raise_ds, eccLog_ds, inc_ds]

theorem get_uncorr_uncorrectedNoted {ch : Nat} (h : ch < 2) (rank line : Nat) (hit : DramHit) (s : State) :
    (uncorrectedNoted ch rank line hit s).get Fld.DRC_ECC_LOG_UNCORR = 1 := by
  rw [uncorrectedNoted, get_logEv _ _ _ _ (by decide), get_raise _ _ _ (notMem_raiseRegs (by omega) (by decide)), get_uncorr_eccLog]
  rfl

/-- An uncorrectable error in a clean unit takes the unit out of the cache. -/
theorem exec_dramUncorrectableError_clean (ch rank : Fin 2) (line : BitVec 30) (a : Fin 2048) (u : BitVec 32) (s : State) :
    exec (.dramUncorrectableError ch rank line (.clean a u)) s =
      .next (updDirty a ((uncorrectedNoted ch rank line.toNat (.clean a u) s).dsUpd fun d =>
        { d with clean := d.clean.filter (· != (a.val, u.toNat)) })) := rfl

theorem get_uncorr_updDirty (a : Nat) (s : State) : (updDirty a s).get Fld.DRC_ECC_LOG_UNCORR = s.get Fld.DRC_ECC_LOG_UNCORR := by
  refine regsOnly_get (regsOnly_updDirty a s) ?_
  simp only [dirtyRegs, Fld.DS_DIRTY_DIRTY, Adr.DS_APT_OCC, Adr.DS_APT_LOST, Adr.DS_APT_RESYNC, Fld.DRC_ECC_LOG_UNCORR, List.mem_cons,
    List.not_mem_nil, or_false]
  omega

theorem exec_dramScrubPass (s : State) : exec .dramScrubPass s = .next (raise 161 (s.inc Fld.DRC_SCRUB_PASSES 1)) := rfl

/-! ## Errors of NAND (12 R283, R294) -/

/-- A read on a LUN in use that a step 1 to 3 of the ladder decoded counts as a hard retry alone. -/
theorem exec_nandRead_hardRetry {b : NandBlock} {a : Fin 2048} {u : BitVec 32} {n : Fin 11} {s : State}
    (hheld : ((closedStripes s).any fun p => (p.unitsOn (nandPair b)).contains (a.val, u.toNat)) = true)
    (hlun : s.lunGone (nandPair b).1 = false) (hlow : 1 ≤ n.val) (hhigh : n.val < 4) :
    exec (.nandRead b a u (some n)) s = .next (s.inc Fld.MED_RETRY_HIST_HARD_RETRY 1) := by
  have hrecon : n.val ≠ 10 := by omega
  have hsoft : ¬ 8 ≤ n.val := by omega
  have hmark : ¬ 4 ≤ n.val := by omega
  have hstep : mediaStep (nandPair b).1 n.val s = s.inc Fld.MED_RETRY_HIST_HARD_RETRY 1 := by
    simp [mediaStep, hrecon, hsoft, hlow]
  change execNandRead b a u (some n) s = _
  rw [execNandRead]
  simp only [hheld, hlun, Option.map_some, Bool.false_eq_true, if_false, if_true, Option.getD_some, hmark, decide_false, Bool.false_and,
    doIf_false, hstep]
  rfl

/-- The registers that the retirement of a block may write. -/
def retireRegs : List Nat := Adr.MED_WA :: (wearRegs ++ raiseRegs 244)

theorem regsOnly_retire (b : Nat × Nat) (s : State) : RegsOnly retireRegs s (retire b s) := by
  have hwa : Fld.MED_WA_RETIRED.addr ∈ retireRegs := List.mem_cons_self
  have hlife : Fld.MED_LIFE_SPARE_PCT.addr ∈ retireRegs := List.mem_cons_of_mem _ List.mem_cons_self
  have hwear : ∀ a ∈ wearRegs, a ∈ retireRegs := fun a ha => List.mem_cons_of_mem _ (List.mem_append_left _ ha)
  have hspare : ∀ a ∈ raiseRegs 244, a ∈ retireRegs := fun a ha => List.mem_cons_of_mem _ (List.mem_append_right _ ha)
  have hnoted (u : State) (v : Nat) (hu : RegsOnly retireRegs s u) :
      RegsOnly retireRegs s ((u.inc Fld.MED_WA_RETIRED 1).set Fld.MED_LIFE_SPARE_PCT v) := regsOnly_set (regsOnly_inc hu 1 hwa) v hlife
  unfold retire
  split
  · exact regsOnly_refl _ s
  · refine regsOnly_trans ?_ (regsOnly_mono (regsOnly_updWear _) hwear)
    refine regsOnly_doIf ?_ fun x hx => regsOnly_raiseIn hx hspare
    exact hnoted _ _ (regsOnly_refl _ s)

/-- A block that is retired is among the retired ones. -/
theorem mem_retired_retire {b : Nat × Nat} {s : State} (h : s.med.retired.contains b = false) : b ∈ (retire b s).med.retired := by
  rw [retire, if_neg (by rw [h]; exact Bool.false_ne_true), updWear_med, doIf_same State.med _ _ (raise_med 244), set_med, inc_med, drewOne_med, medUpd_med]
  simp

/-- A fail of a block is counted and raised, and the block retired. -/
def blockFails (f : Field) (off : Nat) (x : Nat × Nat) (s : State) : State := retire x (nfRaise x.1 off (s.inc f 1))

theorem mem_retired_blockFails {x : Nat × Nat} {s : State} (h : s.med.retired.contains x = false) (f : Field) (off : Nat) :
    x ∈ (blockFails f off x s).med.retired := by
  have hmed : (nfRaise x.1 off (s.inc f 1)).med = s.med := (raise_med _ _).trans (inc_med s f 1)
  exact mem_retired_retire (by rw [hmed, h])

/-- The count of fails, which stands among the registers of the NAND channels. -/
theorem get_blockFails {f : Field} {off : Nat} {x : Nat × Nat} (hf : f.Fits) (haddr : 0x500100 ≤ f.addr ∧ f.addr < 0x580000)
    (hx : x.1 < 64) (hoff : off < 8) (s : State) : (blockFails f off x s).get f = min f.max (s.get f + 1) := by
  have hchannel : lunChannel x.1 < 8 := by unfold lunChannel; omega
  have hraise : f.addr ∉ raiseRegs (168 + 8 * lunChannel x.1 + off) := notMem_raiseRegs (by omega) (by omega)
  have hretire : f.addr ∉ retireRegs := by
    simp only [retireRegs, wearRegs, List.mem_cons, List.mem_append, List.not_mem_nil, or_false, not_or]
    refine ⟨?_, ⟨⟨?_, ?_⟩, notMem_raiseRegs (by omega) (by omega)⟩, notMem_raiseRegs (by omega) (by omega)⟩
    all_goals simp only [Adr.MED_WA, Adr.MED_LIFE, Adr.MED_PE]; omega
  rw [blockFails, regsOnly_get (regsOnly_retire x _) hretire, nfRaise, get_raise _ _ _ hraise, get_inc_same _ _ _ hf]

/-- What a program fail does besides to the stripes on the block. -/
def stripesFail (marks : Bool) (x : Nat × Nat) (s : State) : State :=
  doIf marks (·.medUpd fun m => { m with marked := m.marked ++ [x] })
    ((flightsFail (· == x) s).medUpd fun m => { m with stripes := m.stripes.map (·.failsOn x) })

theorem stripesFail_retired (marks : Bool) (x : Nat × Nat) (s : State) : (stripesFail marks x s).med.retired = s.med.retired := by
  have hflights : (flightsFail (· == x) s).med.retired = s.med.retired := by
    unfold flightsFail
    split <;> rfl
  cases marks
  · exact hflights
  · exact hflights

theorem get_stripesFail (marks : Bool) (x : Nat × Nat) (s : State) (f : Field) : (stripesFail marks x s).get f = s.get f := by
  have hflights : (flightsFail (· == x) s).get f = s.get f :=
    get_of_regs ((keeps_flightsFail (w := 0xA000000) _ rfl (keeps_refl _ s)).same .regs rfl) f
  cases marks
  · exact hflights
  · exact hflights

section nandFails
variable {b : NandBlock} {s : State}

theorem exec_nandProgramFail_inUse (h : s.lunOk (nandPair b).1 = true) : ∃ marks : Bool, exec (.nandProgramFail b) s =
    .next (stripesFail marks (nandPair b) (blockFails (Fld.MED_NF_CNT_PROG_FAIL (lunChannel (nandPair b).1)) 1 (nandPair b) s)) := by
  refine ⟨(closedStripes s).any (fun p => p.members.contains (some (nandPair b))) && !s.med.marked.contains (nandPair b), ?_⟩
  change execNandProgramFail b s = _
  rw [execNandProgramFail, if_pos h]
  rfl

theorem exec_nandEraseFail_inUse (h : s.lunOk (nandPair b).1 = true) : exec (.nandEraseFail b) s =
    .next (blockFails (Fld.MED_NF_CNT_ERASE_FAIL (lunChannel (nandPair b).1)) 2 (nandPair b) s) := by
  change execNandEraseFail b s = _
  rw [execNandEraseFail, if_pos h]
  rfl

end nandFails

/-- The counts of a NAND channel stand at its own address. -/
theorem channelCount_addr {l : Nat} (h : l < 64) : 0x500100 ≤ 0x500104 + 8 * lunChannel l ∧ 0x500104 + 8 * lunChannel l < 0x580000 := by
  unfold lunChannel
  omega

/-- Settles O31: each row by its equation, and what the figures and sources that follow it leave of stripes, cache and counts. -/
theorem flushStripesAndMediaErrors : Obligations.FlushStripesAndMediaErrors := by
  unfold Obligations.FlushStripesAndMediaErrors
  refine ⟨?flush, fun _ _ _ => exec_unitFlushComplete_none, ?stripe, ?corrected, ?clean, ?scrub, ?read, ?program, ?erase⟩
  case flush =>
    intro a u p s h
    refine ⟨_, exec_unitFlushComplete_onItsWay h, ?_, ?_, ?_⟩ <;> rw [closeStripe_ds]
    · exact fun x hx => confirmed_clean (List.mem_map_of_mem hx)
    · rfl
    · rfl
  case stripe =>
    intro members units s h
    refine ⟨_, exec_stripeWrite_permitted rfl rfl h, ?_⟩
    beta_reduce
    rw [updWear_ds, updWear_med, countFlush_ds, countFlush_stripes, countFlush_count, stripeSent_last, List.length_map, List.map_map]
    exact ⟨rfl, rfl, rfl, rfl⟩
  case corrected =>
    intro ch rank dev line s herrs hthresh
    exact ⟨_, exec_dramCorrectedError_first herrs hthresh, get_corr_corrected, get_line_corrected, corrected_failed⟩
  case clean =>
    intro ch rank line a u s _
    refine ⟨_, exec_dramUncorrectableError_clean ch rank line a u s, ?_, ?_, ?_⟩
    · simp [updDirty_ds]
    · rw [get_uncorr_updDirty, dsUpd_get, get_uncorr_uncorrectedNoted ch.isLt]
    · rw [updDirty_ds, dsUpd_ds, uncorrectedNoted_ds]
  case scrub =>
    intro s hrest
    refine ⟨_, exec_dramScrubPass s, ?_, isPending_raise (by decide) (by decide) ?_⟩
    · rw [get_raise _ _ _ (by decide), get_inc_same _ _ _ (by decide)]
    · rw [State.inRest, get_inc_apart _ _ _ _ (by decide)]
      exact hrest
  case read =>
    intro b a u k s hheld hlun hk
    have hpos : k.val ≠ 0 := fun h => hk (Fin.ext h)
    exact exec_nandRead_hardRetry hheld hlun (by dsimp only; omega) (by dsimp only; omega)
  case program =>
    intro b s hlun hretired
    obtain ⟨marks, hx⟩ := exec_nandProgramFail_inUse hlun
    refine ⟨_, hx, ?_, ?_⟩
    · rw [stripesFail_retired]
      exact mem_retired_blockFails hretired _ _
    · rw [get_stripesFail]
      exact get_blockFails ⟨show 24 ≤ 31 by decide, show 31 < 32 by decide⟩ (channelCount_addr b.1.isLt) b.1.isLt (by decide) s
  case erase =>
    intro b s hlun hretired
    exact ⟨_, exec_nandEraseFail_inUse hlun, mem_retired_blockFails hretired _ _,
      get_blockFails ⟨show 16 ≤ 23 by decide, show 23 < 32 by decide⟩ (channelCount_addr b.1.isLt) b.1.isLt (by decide) s⟩

end Sys2Proof.Machine
end

section

/-! APT_CREATE (11 R248). The end of a command writes to the mailbox of the first command of its number that is not done. Where that is
another command, of a mailbox whose page lies over the registers of the apertures, the end overwrites the aperture just created. -/

namespace Sys2Proof.Machine

/-! ## A row of registers written -/

/-- Registers `addr 0` to `addr (n - 1)` written. -/
def fillWords (addr : Nat → Nat) (v : Nat → Word) (n : Nat) (s : State) : State :=
  doAll (List.range n) (fun i s => s.setWord (addr i) (v i)) s

section fillLaws
variable {addr : Nat → Nat} {v : Nat → Word} {n : Nat} {s : State}

theorem fillWords_succ : fillWords addr v (n + 1) s = (fillWords addr v n s).setWord (addr n) (v n) := by
  simp [fillWords, doAll, List.range_succ]

theorem word_fillWords_ne {b : Nat} (h : ∀ i, b ≠ addr i) : (fillWords addr v n s).word b = s.word b := by
  induction n with
  | zero => rfl
  | succ n ih => rw [fillWords_succ, word_setWord_ne _ _ (h n), ih]

theorem word_fillWords_at (hinj : Function.Injective addr) {i : Nat} (hi : i < n) : (fillWords addr v n s).word (addr i) = v i := by
  induction n with
  | zero => exact absurd hi (Nat.not_lt_zero i)
  | succ n ih =>
    rw [fillWords_succ]
    by_cases h : i = n
    · rw [h, word_setWord_same]
    · rw [word_setWord_ne _ _ (hinj.ne h), ih (by omega)]

theorem fillWords_cmds : (fillWords addr v n s).cmds = s.cmds := doAll_same State.cmds _ s fun _ _ => rfl

theorem fillWords_draws : (fillWords addr v n s).draws = s.draws := doAll_same State.draws _ s fun _ _ => rfl

theorem get_fillWords_ne {f : Field} (h : ∀ i, f.addr ≠ addr i) : (fillWords addr v n s).get f = s.get f := by
  rw [State.get, word_fillWords_ne h, State.get]

end fillLaws

/-! ## Drawn bytes -/

/-- The last drawn byte is written last. -/
theorem drawBytes_succ (a n : Nat) (s : State) :
    drawBytes a (n + 1) s = setByte (a + n) ((drawBytes a n s).draw.truncate 8) (drawBytes a n s).drewOne := by
  induction n generalizing a s with
  | zero => rfl
  | succ n ih =>
    have hrest := ih (a + 1) (setByte a (s.draw.truncate 8) s.drewOne)
    rw [Nat.add_right_comm, Nat.add_assoc] at hrest
    exact hrest

theorem drawBytes_draws (a n : Nat) (s : State) : (drawBytes a n s).draws = s.draws + n := by
  induction n generalizing a s with
  | zero => rfl
  | succ n ih =>
    change (drawBytes (a + 1) n (setByte a (s.draw.truncate 8) s.drewOne)).draws = _
    rw [ih]
    exact Nat.add_right_comm s.draws 1 n

theorem putArea_draws (a : Nat) (l : List Byte) (s : State) : (putArea a l s).draws = s.draws := by
  induction l generalizing a s with
  | nil => rfl
  | cons b l ih => exact ih (a + 1) (setByte a b s)

/-! ## A mailbox over the registers of the apertures -/

/-- The slot of context 0xF0000: its page is that of the apertures' registers, and byte 7 of its argument area the highest of
DS_APT_STATUS of aperture 513. -/
def strayMb : Nat := 0xF0008

/-- The highest byte of DS_APT_STATUS of aperture 513. -/
def topByte : Field := ⟨Adr.DS_APT_STATUS 513, 31, 24⟩

theorem mirror_eq_topByte (s : State) : s.mirror 513 = s.get topByte / 16 % 4 := by
  simp only [State.mirror, State.get, topByte, Fld.DS_APT_STATUS_MIRROR, Adr.DS_APT_STATUS, bitsOf]
  omega

/-- An event of a context writes its event register and what a trigger writes. -/
theorem regsOnly_ctxEvent_of (c b : Nat) (s : State) : RegsOnly ((Fld.CTX_EVT_STATUS_EVT c).addr :: raiseRegs 0) s (ctxEvent c b s) := by
  unfold ctxEvent
  dsimp only
  split
  · exact regsOnly_refl _ s
  · have hset : RegsOnly ((Fld.CTX_EVT_STATUS_EVT c).addr :: raiseRegs 0) s _ :=
      regsOnly_set (regsOnly_refl _ s) (orBit (s.get (Fld.CTX_EVT_STATUS_EVT c)) b) List.mem_cons_self
    exact regsOnly_doIf hset fun x hx => regsOnly_trans hx
      (regsOnly_mono (regsOnly_trigger 0 c _ (regsOnly_refl _ x)) fun a ha => List.mem_cons_of_mem _ ha)

/-- A result of two bytes for eight bytes of arguments leaves there six drawn bytes, the last of them in the aperture's register. -/
theorem topByte_mbxDone {op : Nat} {stamp : Stroke} {res : List Byte} {s : State} (hres : res.length = 2)
    (hargs : s.get (mbxField strayMb 0x04 11 0) = 8) :
    (mbxDone strayMb op stamp 0 res s).get topByte = ((Config.drawn (s.draws + 5)).truncate 8).toNat % 2 ^ 8 := by
  have hevent (u : State) : (mbxEvent strayMb u).get topByte = u.get topByte :=
    regsOnly_get (regsOnly_ctxEvent_of (mbxCtx strayMb) 0 u) (by decide)
  have hdrawn (u : State) : (drawBytes (mbxBase strayMb + 0x20 + 2) 6 u).get topByte = ((Config.drawn (u.draws + 5)).truncate 8).toNat % 2 ^ 8 := by
    rw [drawBytes_succ, State.draw, drawBytes_draws]
    exact get_set_same _ topByte _ (by decide)
  rw [mbxDone]
  simp only [hargs, hres]
  change (mbxEvent strayMb _).get topByte = _
  rw [hevent]
  change (State.set _ (mbxState strayMb) 3).get topByte = _
  rw [get_set_apart _ _ _ _ (by decide), get_set_apart _ _ _ _ (by decide), get_set_apart _ _ _ _ (by decide),
    get_set_apart _ _ _ _ (by decide), hdrawn, putArea_draws]

/-! ## Two commands of one number -/

/-- A core that takes a command writes the state of its mailbox. -/
theorem get_takeCmd {x : Cmd} {f : Field} (h : f.addr ≠ (mbxState x.mb).addr) (core : Nat) (s : State) :
    (takeCmd x core s).get f = s.get f := by
  rw [takeCmd, State.set, get_setWord_ne _ _ h, cmdsUpd_get]

/-- An APT_CREATE of one unit in host mailbox 0, mirrored or not. -/
def createCmd (mirrored : Bool) : Cmd :=
  { id := 0, mb := 0, stamp := 0, op := 0x0301, args := [1, 0, if mirrored then 1 else 0], ranked := true }

/-- Another command of its number. -/
def strayCmd : Cmd := { id := 0, mb := strayMb, stamp := 0, op := 0x0701 }

/-- DS_APT_STATUS of apertures 0 to 512, which exist and have no unit; the low bits of the last are the stray mailbox's ARGLEN of 8. -/
def clashStatus (a : Nat) : Word := if a < 512 then 0x80000000 else if a = 512 then 0x80000008 else 0

/-- An online store of 512 units, and a command that waits in host mailbox 0. -/
def clashRegs : State := ((State.reset.set Fld.DS_CFG_STATE 2).set Fld.DS_CFG_CAP_UNITS 512).set (mbxState 0) 1

/-- The two commands; the apertures 0 to 512 exist, and no context has a partner. -/
@[irreducible] def clash (mirrored : Bool) : State :=
  fillWords Adr.DS_APT_STATUS clashStatus 2048 (fillWords Adr.PEL_TANDEM (fun _ => 0) 1024
    (clashRegs.cmdsUpd fun _ => [strayCmd, createCmd mirrored]))

/-- A core has taken the APT_CREATE. -/
def clashTaken (mirrored : Bool) : State := takeCmd (createCmd mirrored) 0 (clash mirrored)

theorem aptStatus_injective : Function.Injective Adr.DS_APT_STATUS := fun a b h => by
  simp only [Adr.DS_APT_STATUS] at h
  omega

theorem pelTandem_injective : Function.Injective Adr.PEL_TANDEM := fun a b h => by
  simp only [Adr.PEL_TANDEM] at h
  omega

section clashes
variable {mirrored : Bool}

theorem clash_eq : clash mirrored = fillWords Adr.DS_APT_STATUS clashStatus 2048 (fillWords Adr.PEL_TANDEM (fun _ => 0) 1024
    (clashRegs.cmdsUpd fun _ => [strayCmd, createCmd mirrored])) := by
  unfold clash
  with_reducible rfl

theorem get_clash_low {f : Field} (h : f.addr < 0x100000000) : (clash mirrored).get f = clashRegs.get f := by
  rw [clash_eq, get_fillWords_ne fun i => ?apts, get_fillWords_ne fun i => ?ctxs]
  · rfl
  case apts => simp only [Adr.DS_APT_STATUS]; omega
  case ctxs => simp only [Adr.PEL_TANDEM]; omega

theorem word_clash_status {a : Nat} (h : a < 2048) : (clash mirrored).word (Adr.DS_APT_STATUS a) = clashStatus a := by
  rw [clash_eq, word_fillWords_at aptStatus_injective h]

theorem role_clash {c : Nat} (h : c < 1024) : (clash mirrored).get (Fld.PEL_TANDEM_ROLE c) = 0 := by
  have hword : (clash mirrored).word (Adr.PEL_TANDEM c) = 0 := by
    rw [clash_eq, word_fillWords_ne, word_fillWords_at pelTandem_injective h]
    intro i
    simp only [Adr.PEL_TANDEM, Adr.DS_APT_STATUS]
    omega
  change bitsOf ((clash mirrored).word (Adr.PEL_TANDEM c)).toNat 31 30 = 0
  rw [hword]
  rfl

theorem clash_cmds : (clash mirrored).cmds = [strayCmd, createCmd mirrored] := by
  rw [clash_eq, fillWords_cmds, fillWords_cmds, cmdsUpd_cmds]

theorem clash_draws : (clash mirrored).draws = 0 := by
  rw [clash_eq, fillWords_draws, fillWords_draws]
  rfl

theorem mayTake_clash : mayTake (clash mirrored) 0 0 0x0301 = some (createCmd mirrored) := by
  have hcmd : (clash mirrored).cmdOf 0 = some (createCmd mirrored) := by
    rw [State.cmdOf, clash_cmds]
    rfl
  have hwaits : (clash mirrored).cmds.any (waitsFor (createCmd mirrored)) = false := by
    rw [clash_cmds]
    rfl
  have hpend : (clash mirrored).get (mbxState (createCmd mirrored).mb) = 1 := by
    change (clash mirrored).get (mbxState 0) = 1
    rw [get_clash_low (by decide)]
    decide
  have hmode : (clash mirrored).mode ≠ .preserve := by
    rw [State.mode, get_clash_low (by decide)]
    decide
  have hruns : coreRuns (clash mirrored) 0 = true := by
    simp only [coreRuns, State.inRest, State.isSet]
    rw [get_clash_low (by decide), get_clash_low (by decide), get_clash_low (by decide)]
    decide
  have hobj : (createCmd mirrored).obj ≠ .mode := by
    cases mirrored <;> decide
  rw [mayTake, hcmd]
  exact if_pos ⟨rfl, Bool.false_ne_true, hpend, rfl, hmode, hruns, Or.inl hobj, by simp [hwaits]⟩

theorem get_clashTaken {f : Field} (h : f.addr ≠ (mbxState 0).addr) : (clashTaken mirrored).get f = (clash mirrored).get f := by
  rw [clashTaken, get_takeCmd h]

theorem get_clashTaken_status {a : Nat} (h : a < 2048) (hi lo : Nat) :
    (clashTaken mirrored).get ⟨Adr.DS_APT_STATUS a, hi, lo⟩ = bitsOf (clashStatus a).toNat hi lo := by
  have hne : Adr.DS_APT_STATUS a ≠ (mbxState 0).addr := by
    have haddr : (mbxState 0).addr = 0x78000C := rfl
    simp only [Adr.DS_APT_STATUS, haddr]
    omega
  rw [get_clashTaken hne, State.get, word_clash_status h]

theorem aptValid_clashTaken {a : Nat} (h : a < 2048) : (clashTaken mirrored).aptValid a = decide (a ≤ 512) := by
  change ((clashTaken mirrored).get ⟨Adr.DS_APT_STATUS a, 31, 31⟩ != 0) = _
  rw [get_clashTaken_status h, clashStatus]
  split
  · rw [decide_eq_true (by omega)]
    rfl
  · split
    · rw [decide_eq_true (by omega)]
      rfl
    · rw [decide_eq_false (by omega)]
      rfl

theorem units_clashTaken {a : Nat} (h : a < 2048) : (clashTaken mirrored).get (Fld.DS_APT_STATUS_UNITS a) = 0 := by
  change (clashTaken mirrored).get ⟨Adr.DS_APT_STATUS a, 26, 18⟩ = _
  rw [get_clashTaken_status h, clashStatus]
  split
  · rfl
  · split <;> rfl

theorem nextApt_clashTaken : nextApt (clashTaken mirrored) = 513 := by
  have hfind : (List.range 2048).find? (fun a => !(clashTaken mirrored).aptValid a) = some 513 := by
    rw [List.find?_range_eq_some]
    refine ⟨?_, by simp, fun j hj => ?_⟩
    · rw [aptValid_clashTaken (by decide)]
      rfl
    · rw [aptValid_clashTaken (by omega), decide_eq_true (by omega)]
      rfl
  rw [nextApt, hfind, Option.getD_some]

theorem freeUnits_clashTaken : freeUnits (clashTaken mirrored) = 512 := by
  have hcap : (clashTaken mirrored).get Fld.DS_CFG_CAP_UNITS = 512 := by
    rw [get_clashTaken (by decide), get_clash_low (by decide)]
    decide
  have hsum : ((clashTaken mirrored).aptIds.map fun a => (clashTaken mirrored).get (Fld.DS_APT_STATUS_UNITS a)).sum = 0 := by
    refine List.sum_eq_zero fun x hx => ?_
    obtain ⟨a, ha, rfl⟩ := List.mem_map.mp hx
    exact units_clashTaken (List.mem_range.mp (List.mem_filter.mp ha).1)
  rw [freeUnits, hcap, hsum]

theorem unitsReserved_clashTaken : unitsReserved (clashTaken mirrored) = 0 := by
  have hnone : ((clashTaken mirrored).ctxIds.filter fun c => (clashTaken mirrored).get (Fld.PEL_TANDEM_ROLE c) == 2) = [] := by
    refine List.filter_eq_nil_iff.mpr fun c hc => ?_
    have hrange : c < 1024 := List.mem_range.mp (List.mem_filter.mp hc).1
    have hne : (Fld.PEL_TANDEM_ROLE c).addr ≠ (mbxState 0).addr := by
      have haddr : (mbxState 0).addr = 0x78000C := rfl
      simp only [Fld.PEL_TANDEM_ROLE, haddr]
      omega
    rw [get_clashTaken hne, role_clash hrange]
    decide
  rw [unitsReserved, hnone]
  rfl

theorem online_clashTaken : (clashTaken mirrored).get Fld.DS_CFG_STATE = 2 := by
  rw [get_clashTaken (by decide), get_clash_low (by decide)]
  decide

theorem units_createCmd : leAt (createCmd mirrored).args 0 2 = 1 := by
  cases mirrored <;> decide

theorem mirrored_createCmd : bitOf (leAt (createCmd mirrored).args 2 1) 0 = mirrored := by
  cases mirrored <;> decide

theorem fits_clashTaken : unitsReserved (clashTaken mirrored) + leAt (createCmd mirrored).args 0 2 ≤ freeUnits (clashTaken mirrored) := by
  rw [unitsReserved_clashTaken, freeUnits_clashTaken, units_createCmd]
  decide

end clashes

/-! ## The aperture created, and its command's end -/

theorem exec_aptCreate_fits {mb : Fin 1032} {core : Fin 4} {x : Cmd} {s u : State} (h : mayTake s mb core 0x0301 = some x)
    (hu : u = takeCmd x core s) (honline : u.get Fld.DS_CFG_STATE = 2) (hfits : unitsReserved u + leAt x.args 0 2 ≤ freeUnits u) :
    exec (.aptCreate mb core) s = .next (cmdDone x.id 0 (leBytes 2 (nextApt u))
      (aptCreate (nextApt u) (leAt x.args 0 2) (bitOf (leAt x.args 2 1) 0) u)) := by
  subst hu
  change execAptCreate mb core s = _
  rw [execAptCreate, runCmd_taken h]
  simp only [honline, Nat.not_lt.mpr hfits, ne_eq, not_true_eq_false, or_self, if_false]

theorem regsOnly_dsUpd {l : List Nat} {r s : State} (h : RegsOnly l r s) (f : Store → Store) : RegsOnly l r (s.dsUpd f) := h

/-- The registers that a new aperture takes. -/
theorem regsOnly_aptCreate (a units : Nat) (mirror : Bool) (s : State) :
    RegsOnly (Adr.DS_APT_STATUS a :: dirtyRegs a) s (aptCreate a units mirror s) := by
  have hstatus (u : State) (f : Field) (v : Nat) (hf : f.addr = Adr.DS_APT_STATUS a) (hu : RegsOnly (Adr.DS_APT_STATUS a :: dirtyRegs a) s u) :
      RegsOnly (Adr.DS_APT_STATUS a :: dirtyRegs a) s (u.set f v) := regsOnly_set hu v (hf ▸ List.mem_cons_self)
  have hclear : RegsOnly (Adr.DS_APT_STATUS a :: dirtyRegs a) s (s.setWord (Adr.DS_APT_STATUS a) 0) :=
    regsOnly_setWord (regsOnly_refl _ s) 0 List.mem_cons_self
  unfold aptCreate
  refine regsOnly_trans ?_ (regsOnly_mono (regsOnly_updAptOcc (regsOnly_refl _ _)) fun b hb => List.mem_cons_of_mem _ hb)
  exact regsOnly_dsUpd (hstatus _ _ _ rfl (hstatus _ _ _ rfl (hstatus _ _ _ rfl hclear))) _

theorem aptCreate_draws (a units : Nat) (mirror : Bool) (s : State) : (aptCreate a units mirror s).draws = s.draws :=
  (keeps_aptCreate (w := 0x2000008) a units mirror rfl (keeps_refl _ s)).same .draws rfl

theorem aptCreate_cmds (a units : Nat) (mirror : Bool) (s : State) : (aptCreate a units mirror s).cmds = s.cmds :=
  (keeps_aptCreate (w := 0x2000008) a units mirror rfl (keeps_refl _ s)).same .cmds rfl

theorem takeCmd_draws (x : Cmd) (core : Nat) (s : State) : (takeCmd x core s).draws = s.draws := rfl

theorem takeCmd_cmds (x : Cmd) (core : Nat) (s : State) :
    (takeCmd x core s).cmds = s.cmds.map fun y => if y.id = x.id then { y with core := some core } else y := rfl

/-- A command over is the first of its number that is not done, and the end is written to its mailbox. -/
theorem cmdDone_of_cmdId {id code : Nat} {res : List Byte} {x : Cmd} {s : State} (h : s.cmdId id = some x) (hkept : x.dropped = false) :
    cmdDone id code res s = mbxDone x.mb x.op x.stamp code res (s.cmdsUpd fun l => l.filter fun y => y.id != id) := by
  simp [cmdDone, h, hkept]

/-- The aperture created in the clash, before its command ends. -/
def clashCreated (mirrored : Bool) : State := aptCreate 513 1 mirrored (clashTaken mirrored)

section clashEnds
variable {mirrored : Bool}

theorem clashCreated_draws : (clashCreated mirrored).draws = 0 := by
  rw [clashCreated, aptCreate_draws, clashTaken, takeCmd_draws, clash_draws]

theorem cmdId_clashCreated : (clashCreated mirrored).cmdId 0 = some { strayCmd with core := some 0 } := by
  rw [State.cmdId, clashCreated, aptCreate_cmds, clashTaken, takeCmd_cmds, clash_cmds]
  rfl

theorem argLen_clashCreated : (clashCreated mirrored).get (mbxField strayMb 0x04 11 0) = 8 := by
  rw [clashCreated, regsOnly_get (regsOnly_aptCreate _ _ _ _) (by decide)]
  exact get_clashTaken_status (a := 512) (by decide) 11 0

/-- The end of the command overwrites the highest byte of the new aperture's register with a drawn one. -/
theorem topByte_clash : (cmdDone 0 0 (leBytes 2 513) (clashCreated mirrored)).get topByte =
    ((Config.drawn 5).truncate 8).toNat % 2 ^ 8 := by
  have hargs (f : List Cmd → List Cmd) : ((clashCreated mirrored).cmdsUpd f).get (mbxField strayMb 0x04 11 0) = 8 := by
    rw [cmdsUpd_get, argLen_clashCreated]
  rw [cmdDone_of_cmdId cmdId_clashCreated rfl]
  change (mbxDone strayMb 0x0701 0 0 (leBytes 2 513) ((clashCreated mirrored).cmdsUpd fun l => l.filter fun y => y.id != 0)).get topByte = _
  rw [topByte_mbxDone rfl (hargs _), cmdsUpd_draws, clashCreated_draws]

theorem exec_aptCreate_clash : exec (.aptCreate 0 0) (clash mirrored) = .next (cmdDone 0 0 (leBytes 2 513) (clashCreated mirrored)) := by
  rw [exec_aptCreate_fits (u := clashTaken mirrored) mayTake_clash rfl online_clashTaken fits_clashTaken, nextApt_clashTaken,
    units_createCmd, mirrored_createCmd, clashCreated]
  rfl

end clashEnds

/-- Refutes O29: its clause on the aperture that APT_CREATE leaves holds of every state. In the state `clash` two commands not done have
one number, and the end of an APT_CREATE writes drawn bytes over the register of the new aperture 513: its MIRROR reads the same
whether the command asked for a mirror or not. -/
theorem not_apertureCommands : ¬ Obligations.ApertureCommands := by
  unfold Obligations.ApertureCommands
  rintro ⟨-, -, -, -, hcreated, -⟩
  have hmirror (mirrored : Bool) : ((Config.drawn 5).truncate 8).toNat % 2 ^ 8 / 16 % 4 = if mirrored then 2 else 0 := by
    obtain ⟨t, ht, -, -, hread⟩ := hcreated 0 0 (createCmd mirrored) (clash mirrored) (clashTaken mirrored) mayTake_clash rfl
      online_clashTaken fits_clashTaken (by rw [units_createCmd]) (by rw [units_createCmd]; decide) (by rw [nextApt_clashTaken]; decide)
    rw [exec_aptCreate_clash] at ht
    cases ht
    rw [nextApt_clashTaken, mirror_eq_topByte, topByte_clash] at hread
    rw [hread]
    cases mirrored <;> rfl
  have hno := hmirror false
  have hyes := hmirror true
  rw [hno] at hyes
  exact absurd hyes (by decide)

end Sys2Proof.Machine
end

section

/-! Moves of valid data into new stripes, and write amplification (12 R285, R286, R289 to R291). -/

namespace Sys2Proof.Machine

/-! ## Units go into new stripes -/

/-- The unit places programmed and the units flushed, which write amplification sets against each other. -/
def programCounts (s : State) : Nat × Nat := (s.med.progs, s.med.flushed)

theorem programCounts_of_med {s t : State} (h : t.med = s.med) : programCounts t = programCounts s := by
  rw [programCounts, h, programCounts]

theorem programCounts_updWear (s : State) : programCounts (updWear s) = programCounts s := programCounts_of_med (updWear_med s)

theorem openStripes_programCounts (ok : State → List (Nat × Nat) → Bool) (dests : List (List (Nat × Nat))) (us : List (Nat × Nat)) (s : State) :
    programCounts (openStripes ok dests us s).1 = programCounts s := by
  induction dests generalizing us s with
  | nil => rfl
  | cons ms rest ih =>
    rw [openStripes]
    split
    · rfl
    · rw [ih]
      rfl

theorem relocateUnits_programCounts (ok : State → List (Nat × Nat) → Bool) (dests : List (List (Nat × Nat))) (us : List (Nat × Nat))
    (s : State) : programCounts (relocateUnits ok dests us s).1 = programCounts s := by
  have hopen := openStripes_programCounts ok dests us (offStripes us.contains s)
  rw [relocateUnits]
  split
  next t h =>
    rw [h] at hopen
    exact (programCounts_updWear t).trans hopen
  next => rfl

/-- New stripes that will not do change nothing. -/
theorem relocateUnits_refused {ok : State → List (Nat × Nat) → Bool} {dests : List (List (Nat × Nat))} {us : List (Nat × Nat)} {s : State}
    (h : (relocateUnits ok dests us s).2 = false) : (relocateUnits ok dests us s).1 = s := by
  rw [relocateUnits] at h ⊢
  split at h
  next => cases h
  next => rfl

theorem relocateUnits_ds (ok : State → List (Nat × Nat) → Bool) (dests : List (List (Nat × Nat))) (us : List (Nat × Nat)) (s : State) :
    (relocateUnits ok dests us s).1.ds = s.ds :=
  ds_of_keeps (keeps_relocateUnits (w := 0x102802D3AB) ok dests us rfl (keeps_refl _ s)) rfl rfl rfl

/-! ## A block moves -/

/-- The units of a block are put into new stripes, none of which takes the block itself. -/
def moved (ok : State → List (Nat × Nat) → Bool) (v : Nat × Nat) (dests : List (List (Nat × Nat))) (s : State) : State × Bool :=
  relocateUnits (fun s ms => !ms.contains v && ok s ms) dests (movesOff s v) s

/-- The erase of a block is ordered once its data is elsewhere, and the `cost` places programmed are counted. -/
def blockMoved (v : Nat × Nat) (cost : Nat) (t : State) : State :=
  updWa <| t.medUpd fun m =>
    { m with progs := m.progs + cost, erasing := m.erasing ++ [v], marked := m.marked.filter (· != v), stripes := m.stripes.map (·.without v) }

section moves
variable {ok : State → List (Nat × Nat) → Bool} {v : Nat × Nat} {dests : List (List (Nat × Nat))} {s : State}

theorem moveBlock_eq : moveBlock ok v dests s =
    if (moved ok v dests s).2 then (blockMoved v (moveCost s dests) (moved ok v dests s).1, true) else (s, false) := by
  have hrefused (h : (moved ok v dests s).2 = false) : (moved ok v dests s).1 = s := relocateUnits_refused h
  change (match moved ok v dests s with
    | (t, true) => (blockMoved v (moveCost s dests) t, true)
    | (t, false) => (t, false)) = _
  revert hrefused
  rcases moved ok v dests s with ⟨t, _ | _⟩
  · exact fun h => congrArg (·, false) (h rfl)
  · exact fun _ => rfl

theorem moveBlock_done (h : (moveBlock ok v dests s).2 = true) :
    (moveBlock ok v dests s).1 = blockMoved v (moveCost s dests) (moved ok v dests s).1 := by
  rw [moveBlock_eq] at h ⊢
  split at h
  next hmoved => rw [if_pos hmoved]
  next => cases h

theorem moveBlock_refused (h : (moveBlock ok v dests s).2 = false) : (moveBlock ok v dests s).1 = s := by
  rw [moveBlock_eq] at h ⊢
  split at h
  next => cases h
  next hmoved => rw [if_neg hmoved]

theorem programCounts_moveBlock (h : (moveBlock ok v dests s).2 = true) :
    programCounts (moveBlock ok v dests s).1 = (s.med.progs + moveCost s dests, s.med.flushed) := by
  have hcounts : programCounts (moved ok v dests s).1 = programCounts s := relocateUnits_programCounts ..
  obtain ⟨hprogs, hflushed⟩ := Prod.mk.inj hcounts
  rw [moveBlock_done h, blockMoved, programCounts_of_med (updWa_med _), programCounts, medUpd_med, hprogs, hflushed]

end moves

/-! ## The bound of Table 12-5 -/

/-- Write amplification is within `b` hundredths. -/
abbrev AmplifiedWithin (b : Nat) (s : State) : Prop := 100 * s.med.progs ≤ b * s.med.flushed

theorem amplifiedWithin_of_programCounts {b : Nat} {s t : State} (h : programCounts t = programCounts s) (hs : AmplifiedWithin b s) :
    AmplifiedWithin b t := by
  obtain ⟨hprogs, hflushed⟩ := Prod.mk.inj h
  rw [AmplifiedWithin, hprogs, hflushed]
  exact hs

theorem waAllows_bound {b n new : Nat} {s : State} (hb : waBound s = some b) (h : waAllows s n new = true) :
    100 * (s.med.progs + n) ≤ b * (s.med.flushed + new) := by
  simpa [waAllows, hb] using h

/-- The parts of what a move is allowed: the reserve stays untouched, and write amplification within its bound. -/
theorem moveAllowed_iff {s : State} {dests : List (List (Nat × Nat))} : moveAllowed s dests = true ↔
    reserveSets s + (dests.map List.length).sum ≤ freeSets s ∧ waAllows s (moveCost s dests) 0 = true := by
  simp [moveAllowed, roomFor]

/-- A move that is allowed and programs units keeps the bound. -/
theorem moveBlock_amplifiedWithin {ok : State → List (Nat × Nat) → Bool} {v : Nat × Nat} {dests : List (List (Nat × Nat))} {s : State} {b : Nat}
    (hb : waBound s = some b) (hallowed : moveAllowed s dests = true) (hdone : (moveBlock ok v dests s).2 = true) :
    AmplifiedWithin b (moveBlock ok v dests s).1 := by
  obtain ⟨hprogs, hflushed⟩ := Prod.mk.inj (programCounts_moveBlock hdone)
  rw [AmplifiedWithin, hprogs, hflushed]
  exact waAllows_bound hb (moveAllowed_iff.mp hallowed).2

/-! ## The rows that move a block (12 R288, R289, R293) -/

section reclaim
variable {victim : NandBlock} {dest : List (List NandBlock)} {after : Fin 11} {s : State}

theorem exec_garbageCollection : exec (.garbageCollection victim dest) s = .next
    (if mayReclaim s (nandPair victim) (destPairs dest) ∧
        ((inUse s).filter (reclaimable s)).all (fun b => decide (validIn s (nandPair victim) ≤ validIn s b)) then
      (moveBlock nextStripe (nandPair victim) (destPairs dest) s).1
    else s) := rfl

theorem exec_wearLevelling : exec (.wearLevelling victim dest) s = .next
    (if mayReclaim s (nandPair victim) (destPairs dest) ∧ s.get Fld.MED_WEAR_CTL_SPREAD < s.get Fld.MED_PE_PE_MAX - s.get Fld.MED_PE_PE_MIN ∧
        s.peOf (nandPair victim) = s.get Fld.MED_PE_PE_MIN then
      (moveBlock (membersOk (wornThan (s.peOf (nandPair victim)))) (nandPair victim) (destPairs dest) s).1
    else s) := rfl

/-- A refreshed block: counted, read again after the move, and retired where its reads still need REFRESH_STEP. -/
def refreshEnds (v : Nat × Nat) (still : Bool) (after : Nat) (u : State) : State :=
  doIf still (retire v) (mediaStep v.1 after (u.inc Fld.MED_REFRESH_CNT_BLOCKS 1))

theorem exec_blockRefresh_moves (hmarked : s.med.marked.contains (nandPair victim) = true) (hmay : mayMove s (nandPair victim) = true)
    (hallowed : moveAllowed s (destPairs dest) = true) {u : State} (hmove : moveBlock nextStripe (nandPair victim) (destPairs dest) s = (u, true)) :
    exec (.blockRefresh victim dest after) s =
      .next (refreshEnds (nandPair victim) (decide (s.get Fld.MED_PATROL_CTL_REFRESH_STEP ≤ after.val)) after u) := by
  change execBlockRefresh victim dest after s = _
  rw [execBlockRefresh, if_pos ⟨hmarked, hmay, hallowed⟩]
  simp only [hmove]
  rfl

theorem exec_blockRefresh_refused (h : (moveBlock nextStripe (nandPair victim) (destPairs dest) s).2 = false) :
    exec (.blockRefresh victim dest after) s = .next s := by
  have hmove : moveBlock nextStripe (nandPair victim) (destPairs dest) s = (s, false) := Prod.ext (moveBlock_refused h) h
  change execBlockRefresh victim dest after s = _
  rw [execBlockRefresh]
  simp only [hmove]
  exact congrArg Host.Outcome.next (ite_self s)

theorem exec_blockRefresh_forbidden (h : ¬ (s.med.marked.contains (nandPair victim) = true ∧ mayMove s (nandPair victim) = true ∧
    moveAllowed s (destPairs dest) = true)) : exec (.blockRefresh victim dest after) s = .next s := by
  change execBlockRefresh victim dest after s = _
  rw [execBlockRefresh, if_neg h]
  rfl

end reclaim

theorem mayReclaim_allowed {s : State} {v : Nat × Nat} {dests : List (List (Nat × Nat))} (h : mayReclaim s v dests = true) :
    moveAllowed s dests = true := (Bool.and_eq_true_iff.mp h).2

theorem mediaStep_med (l n : Nat) (s : State) : (mediaStep l n s).med = s.med :=
  (keeps_mediaStep (w := 0x102002D3AB) l n rfl (keeps_refl _ s)).same .med rfl

theorem programCounts_retire (b : Nat × Nat) (s : State) : programCounts (retire b s) = programCounts s := by
  rw [retire]
  split
  · rfl
  · rw [programCounts_updWear, programCounts_of_med (doIf_same State.med _ _ (raise_med 244))]
    rfl

theorem programCounts_refreshEnds (v : Nat × Nat) (still : Bool) (after : Nat) (u : State) :
    programCounts (refreshEnds v still after u) = programCounts u := by
  rw [refreshEnds, doIf_same programCounts _ _ (programCounts_retire v), programCounts_of_med (mediaStep_med _ _ _)]
  rfl

end Sys2Proof.Machine
end

section

/-! The free-block reserve under a flush (12 R290). Free page sets are counted on the LUNs in use. Whether a LUN is in use is read from a
register of its channel, and for a LUN beyond the 64 that there are that register is one of another block. -/

namespace Sys2Proof.Machine

/-! ## A stripe that is not permitted -/

theorem exec_stripeWrite_refused {members : List NandBlock} {units : List (Fin 2048 × BitVec 32)} {s : State}
    (h : mayStripe s (members.map nandPair) (units.map fun u => (u.1.val, u.2.toNat)) = false) : exec (.stripeWrite members units) s = .next s := by
  change execStripeWrite members units s = _
  simp [execStripeWrite, h, done]

/-- The stripe written, before the figures of write amplification and wear follow it. -/
def stripeWritten (ms us : List (Nat × Nat)) (s : State) : State := updWear (countFlush (placesOf s ms) us.length (stripeSent ms us s))

theorem exec_stripeWrite_written {members : List NandBlock} {units : List (Fin 2048 × BitVec 32)} {s : State}
    (h : mayStripe s (members.map nandPair) (units.map fun u => (u.1.val, u.2.toNat)) = true) : exec (.stripeWrite members units) s =
      .next (stripeWritten (members.map nandPair) (units.map fun u => (u.1.val, u.2.toNat)) s) :=
  exec_stripeWrite_permitted rfl rfl h

theorem stripeWritten_stripes (ms us : List (Nat × Nat)) (s : State) :
    (stripeWritten ms us s).med.stripes = (stripeSent ms us s).med.stripes := by
  rw [stripeWritten, updWear_med, countFlush_stripes]

/-! ## A page set of a LUN that the device does not have -/

/-- A LUN whose channel would have its MED_NF_CFG at the address of MBX_BC_ATTN, so that STORE stands there for a bit of LUN2_MASK. -/
def strayLun : Nat := 8 * ((Fld.MBX_BC_ATTN_STORE.addr - (Fld.MED_NF_CFG_CLASS 0).addr) / 8) + 1

/-- Block 0 of two LUNs. -/
def strayMembers : List NandBlock := [(2, 0), (4, 0)]

/-- Unit 0 of aperture 1. -/
def strayUnits : List (Fin 2048 × BitVec 32) := [(1, 0)]

/-- Two LUNs with an open block each, at the rated P/E cycles, of which MED_LIFE does not tell yet; a dirty unit; and 2^32 page sets
programmed on the stray LUN, which is not in use while MBX_BC_ATTN.STORE is 0. -/
def strayState : State :=
  (State.reset.set (Fld.MED_NF_CFG_CLASS 0) 1 |>.set (Fld.MED_NF_CFG_CE_MASK 0) 6 |>.set Fld.MED_STATUS_HEALTHY 2 |>.set Fld.MED_STATUS_LOST 1
    |>.set Fld.MED_WEAR_CTL_WARN_PCT 100 |>.set Fld.MBX_BC_ATTN_MBX_DONE 1).medUpd (fun m => { m with
      blocks := 1, flushed := 1000, pe := [(blockKey (2, 0), 3000), (blockKey (4, 0), 3000)],
      fill := [(blockKey (2, 0), 1), (blockKey (4, 0), 1), (blockKey (strayLun, 0), 2 ^ 32)] })
    |>.dsUpd fun d => { d with dirty := [(1, 0)], recovered := true }

/-- The stripe written raises MED_WEAR_WARN, which sets MBX_BC_ATTN.STORE. -/
def strayWritten : State := stripeWritten (strayMembers.map nandPair) (strayUnits.map fun u => (u.1.val, u.2.toNat)) strayState

theorem exec_stripeWrite_strayState : exec (.stripeWrite strayMembers strayUnits) strayState = .next strayWritten :=
  exec_stripeWrite_written (by decide +kernel)

theorem stripes_strayWritten : strayWritten.med.stripes ≠ strayState.med.stripes := by
  rw [strayWritten, stripeWritten_stripes]
  decide +kernel

/-- The stray LUN counts as in use, and its page sets are more than the two LUNs have. -/
theorem freeSets_strayWritten : freeSets strayWritten = 0 := by decide +kernel

theorem reserveSets_pos (s : State) : 0 < reserveSets s := by
  unfold reserveSets
  omega

/-- Refutes O57: its first clause takes a table of programmed page sets that names any LUN. In `strayState` a stripe is permitted outside
the reserve, but the wear warning that follows it changes the register which, for a LUN of number `strayLun`, the model reads as the
population of its channel: page sets of that LUN count from then on, and none is free. -/
theorem not_flushAndReclaimKeepTheReserve : ¬ Obligations.FlushAndReclaimKeepTheReserve := by
  unfold Obligations.FlushAndReclaimKeepTheReserve
  rintro ⟨hreserve, -⟩
  have hkept := hreserve strayMembers strayUnits strayState strayWritten (by decide +kernel) (by decide +kernel) exec_stripeWrite_strayState
    stripes_strayWritten
  rw [freeSets_strayWritten] at hkept
  exact absurd hkept (Nat.not_le.mpr (reserveSets_pos _))

/-! ## Page sets programmed -/

/-- Page sets programmed on the blocks whose keys satisfy `p`. -/
def setsOn (p : Nat → Bool) (fill : Table Nat) : Nat := ((tabKeep p fill).map (·.2)).sum

/-- Page sets of a table with one more programmed on each of these blocks. -/
def programmed (ms : List (Nat × Nat)) (fill : Table Nat) : Table Nat :=
  ms.foldl (fun t b => tabSet (fun _ => 0) t (blockKey b) (tabGet (fun _ => 0) t (blockKey b) + 1)) fill

theorem freeSets_eq (s : State) :
    freeSets s = s.get Fld.MED_STATUS_HEALTHY * lunSets s - setsOn (fun k => s.lunOk (blockAt k).1) s.med.fill := rfl

theorem setsOn_nil (p : Nat → Bool) : setsOn p [] = 0 := rfl

theorem setsOn_cons (p : Nat → Bool) (k n : Nat) (t : Table Nat) : setsOn p ((k, n) :: t) = (if p k then n else 0) + setsOn p t := by
  unfold setsOn tabKeep
  rw [List.filter_cons]
  split <;> simp_all

theorem setsOn_congr {p q : Nat → Bool} {fill : Table Nat} (h : ∀ e ∈ fill, p e.1 = q e.1) : setsOn p fill = setsOn q fill := by
  unfold setsOn tabKeep
  rw [List.filter_congr h]

/-- A key below every key of a table is not in it. -/
theorem tabFind_below {α : Type} {t : Table α} {l k : Nat} (h : tabRising (some l) t = true) (hk : k ≤ l) : tabFind t k = none := by
  induction t generalizing l with
  | nil => rfl
  | cons e t ih =>
    obtain ⟨j, v⟩ := e
    simp only [tabRising, Bool.and_eq_true, decide_eq_true_eq] at h
    obtain ⟨hlj, hrest⟩ := h
    rw [tabFind, if_neg (by omega)]
    exact ih hrest (by omega)

/-- One page set more on a block is at most one more on those counted. -/
theorem setsOn_tabPut_le (p : Nat → Bool) {fill : Table Nat} (h : tabRising none fill = true) (k : Nat) :
    setsOn p (tabPut fill k (tabGet (fun _ => 0) fill k + 1)) ≤ setsOn p fill + 1 := by
  induction fill with
  | nil =>
    rw [tabPut, setsOn_cons, tabGet_nil]
    split <;> omega
  | cons e t ih =>
    obtain ⟨j, n⟩ := e
    have hrest : tabRising (some j) t = true := h
    rw [tabPut, tabGet, tabFind]
    by_cases hjk : j = k
    · subst hjk
      rw [if_pos rfl, if_pos rfl, Option.getD_some, setsOn_cons, setsOn_cons]
      split <;> omega
    · rw [if_neg hjk, if_neg hjk]
      split
      next hkj =>
        rw [tabFind_below hrest (Nat.le_of_lt hkj), Option.getD_none, setsOn_cons p k]
        split <;> omega
      next =>
        have hput : setsOn p (tabPut t k ((tabFind t k).getD 0 + 1)) ≤ setsOn p t + 1 := ih (tabRising_none hrest)
        rw [setsOn_cons, setsOn_cons]
        omega

theorem setsOn_programmed_le (p : Nat → Bool) (ms : List (Nat × Nat)) {fill : Table Nat} (h : tabWf (fun _ => 0) fill = true) :
    setsOn p (programmed ms fill) ≤ setsOn p fill + ms.length := by
  induction ms generalizing fill with
  | nil => exact Nat.le_refl _
  | cons b ms ih =>
    have hone : setsOn p (tabSet (fun _ => 0) fill (blockKey b) (tabGet (fun _ => 0) fill (blockKey b) + 1)) ≤ setsOn p fill + 1 := by
      rw [tabSet, if_neg (Nat.succ_ne_zero _)]
      exact setsOn_tabPut_le p (Bool.and_eq_true_iff.mp h).1 _
    have hrest := ih (tabWf_tabSet (fun _ => 0) fill (blockKey b) (tabGet (fun _ => 0) fill (blockKey b) + 1) h)
    rw [List.length_cons]
    exact Nat.le_trans hrest (by omega)

/-! ## What a stripe written leaves of the population -/

/-- The registers that the figures of a stripe written may write. -/
def stripeRegs : List Nat := Adr.MED_WA :: wearRegs

theorem regsOnly_stripeWritten (ms us : List (Nat × Nat)) (s : State) : RegsOnly stripeRegs s (stripeWritten ms us s) := by
  have hwa (u : State) : RegsOnly stripeRegs u (updWa u) := by
    unfold updWa
    split
    · exact regsOnly_refl _ u
    · exact regsOnly_set (regsOnly_refl _ u) _ List.mem_cons_self
  have hsent : RegsOnly stripeRegs s (countFlush (placesOf s ms) us.length (stripeSent ms us s)) :=
    regsOnly_trans (regsOnly_eq (regsOnly_refl _ s) rfl) (hwa _)
  exact regsOnly_trans hsent (regsOnly_mono (regsOnly_updWear _) fun a ha => List.mem_cons_of_mem _ ha)

theorem stripeWritten_fill (ms us : List (Nat × Nat)) (s : State) : (stripeWritten ms us s).med.fill = programmed ms s.med.fill := by
  rw [stripeWritten, updWear_med, countFlush, updWa_med]
  rfl

/-- The registers of the population: MED_STATUS and the lost LUNs, and MED_NF_CFG of the eight channels. -/
abbrev PopulationAddr (a : Nat) : Prop := 0x500000 ≤ a ∧ a < 0x500010 ∨ 0x500100 ≤ a ∧ a < 0x500140

theorem population_notMem_stripeRegs {a : Nat} (h : PopulationAddr a) : a ∉ stripeRegs := by
  simp only [stripeRegs, wearRegs, List.mem_cons, List.mem_append, List.not_mem_nil, or_false, not_or]
  refine ⟨?_, ⟨?_, ?_⟩, notMem_raiseRegs (by decide) (by omega)⟩
  all_goals simp only [Adr.MED_WA, Adr.MED_LIFE, Adr.MED_PE]; omega

section population
variable {s t : State}

theorem get_of_population (h : RegsOnly stripeRegs s t) {f : Field} (hf : PopulationAddr f.addr) : t.get f = s.get f :=
  regsOnly_get h (population_notMem_stripeRegs hf)

theorem lunOk_of_regsOnly (h : RegsOnly stripeRegs s t) {l : Nat} (hl : l < 64) : t.lunOk l = s.lunOk l := by
  have hce : t.get (Fld.MED_NF_CFG_CE_MASK (l / 8)) = s.get (Fld.MED_NF_CFG_CE_MASK (l / 8)) :=
    get_of_population h (by simp only [PopulationAddr, Fld.MED_NF_CFG_CE_MASK]; omega)
  have hsecond : t.get (Fld.MED_NF_CFG_LUN2_MASK (l / 8)) = s.get (Fld.MED_NF_CFG_LUN2_MASK (l / 8)) :=
    get_of_population h (by simp only [PopulationAddr, Fld.MED_NF_CFG_LUN2_MASK]; omega)
  have hlow : t.word Adr.MED_LUN_LOST_LO = s.word Adr.MED_LUN_LOST_LO := h _ (population_notMem_stripeRegs (by decide))
  have hhigh : t.word Adr.MED_LUN_LOST_HI = s.word Adr.MED_LUN_LOST_HI := h _ (population_notMem_stripeRegs (by decide))
  rw [State.lunOk, State.lunOk, State.lunThere, State.lunThere, State.lunGone, State.lunGone, hce, hsecond, hlow, hhigh]

theorem lunSets_of_regsOnly (h : RegsOnly stripeRegs s t) : lunSets t = lunSets s := by
  rw [lunSets, lunSets, lunUnits, lunUnits, get_of_population h (by decide)]

end population

/-! ## What holds of the LUNs there are -/

/-- Outside PRESERVE a permitted stripe has at most 16 members, and 16 page sets are free above the reserve. -/
theorem mayStripe_room {s : State} {ms us : List (Nat × Nat)} (hmode : s.mode ≠ .preserve) (h : mayStripe s ms us = true) :
    ms.length ≤ 16 ∧ reserveSets s + 16 ≤ freeSets s := by
  simp only [mayStripe, nextStripe, membersOk, roomOutside, roomFor, if_neg hmode, Bool.and_eq_true, beq_iff_eq, decide_eq_true_eq] at h
  omega

/-- Where the table of programmed page sets names LUNs that the device has, a stripe written outside PRESERVE leaves the reserve untouched. -/
theorem stripeWrite_keepsReserve {members : List NandBlock} {units : List (Fin 2048 × BitVec 32)} {s t : State} (hmode : s.mode ≠ .preserve)
    (hwf : tabWf (fun _ => 0) s.med.fill = true) (hluns : ∀ e ∈ s.med.fill, (blockAt e.1).1 < 64)
    (hexec : exec (.stripeWrite members units) s = .next t) (hstripes : t.med.stripes ≠ s.med.stripes) : reserveSets t ≤ freeSets t := by
  cases hmay : mayStripe s (members.map nandPair) (units.map fun u => (u.1.val, u.2.toNat)) with
  | false =>
    rw [exec_stripeWrite_refused hmay] at hexec
    cases hexec
    exact absurd rfl hstripes
  | true =>
    rw [exec_stripeWrite_written hmay] at hexec
    cases hexec
    obtain ⟨hlen, hroom⟩ := mayStripe_room hmode hmay
    generalize members.map nandPair = ms at hlen ⊢
    generalize (units.map fun u => (u.1.val, u.2.toNat)) = us
    have hregs := regsOnly_stripeWritten ms us s
    have hcounted : setsOn (fun k => (stripeWritten ms us s).lunOk (blockAt k).1) s.med.fill =
        setsOn (fun k => s.lunOk (blockAt k).1) s.med.fill := setsOn_congr fun e he => lunOk_of_regsOnly hregs (hluns e he)
    have hsets := setsOn_programmed_le (fun k => (stripeWritten ms us s).lunOk (blockAt k).1) ms hwf
    rw [reserveSets, freeSets_eq, lunSets_of_regsOnly hregs, get_of_population hregs (by decide), stripeWritten_fill]
    rw [reserveSets, freeSets_eq] at hroom
    omega

section bounds
variable {victim : NandBlock} {dest : List (List NandBlock)} {after : Fin 11} {s t : State} {b : Nat}

/-- A move of which something is programmed was made. -/
theorem moveBlock_done_of_progs {ok : State → List (Nat × Nat) → Bool} {v : Nat × Nat} {dests : List (List (Nat × Nat))}
    (h : (moveBlock ok v dests s).1.med.progs ≠ s.med.progs) : (moveBlock ok v dests s).2 = true :=
  Bool.eq_true_of_not_eq_false fun hrefused => h (by rw [moveBlock_refused hrefused])

/-- A row that moves a block only where this is allowed keeps the bound. -/
theorem ite_moveBlock_amplifiedWithin {c : Prop} [Decidable c] {ok : State → List (Nat × Nat) → Bool} {v : Nat × Nat}
    {dests : List (List (Nat × Nat))} (hc : c → moveAllowed s dests = true) (ht : t = if c then (moveBlock ok v dests s).1 else s)
    (hprogs : t.med.progs ≠ s.med.progs) (hb : waBound s = some b) : AmplifiedWithin b t := by
  subst ht
  split at hprogs
  next h =>
    rw [if_pos h]
    exact moveBlock_amplifiedWithin hb (hc h) (moveBlock_done_of_progs hprogs)
  next => exact absurd rfl hprogs

theorem garbageCollection_amplifiedWithin (hexec : exec (.garbageCollection victim dest) s = .next t) (hprogs : t.med.progs ≠ s.med.progs)
    (hb : waBound s = some b) : AmplifiedWithin b t :=
  ite_moveBlock_amplifiedWithin (fun h => mayReclaim_allowed h.1) (Host.Outcome.next.inj (hexec.symm.trans exec_garbageCollection)) hprogs hb

theorem wearLevelling_amplifiedWithin (hexec : exec (.wearLevelling victim dest) s = .next t) (hprogs : t.med.progs ≠ s.med.progs)
    (hb : waBound s = some b) : AmplifiedWithin b t :=
  ite_moveBlock_amplifiedWithin (fun h => mayReclaim_allowed h.1) (Host.Outcome.next.inj (hexec.symm.trans exec_wearLevelling)) hprogs hb

theorem blockRefresh_amplifiedWithin (hexec : exec (.blockRefresh victim dest after) s = .next t) (hprogs : t.med.progs ≠ s.med.progs)
    (hb : waBound s = some b) : AmplifiedWithin b t := by
  by_cases hmay : s.med.marked.contains (nandPair victim) = true ∧ mayMove s (nandPair victim) = true ∧ moveAllowed s (destPairs dest) = true
  · obtain ⟨hmarked, hmove, hallowed⟩ := hmay
    cases hdone : (moveBlock nextStripe (nandPair victim) (destPairs dest) s).2 with
    | false =>
      rw [exec_blockRefresh_refused hdone] at hexec
      cases hexec
      exact absurd rfl hprogs
    | true =>
      rw [exec_blockRefresh_moves hmarked hmove hallowed (Prod.ext rfl hdone)] at hexec
      cases hexec
      exact amplifiedWithin_of_programCounts (programCounts_refreshEnds ..) (moveBlock_amplifiedWithin hb hallowed hdone)
  · rw [exec_blockRefresh_forbidden hmay] at hexec
    cases hexec
    exact absurd rfl hprogs

end bounds

end Sys2Proof.Machine
end

section

/-! Lost LUNs and their rebuild, patrol, refresh and reclaim, and WORN (12 R283, R288 to R296, R301, R302). -/

namespace Sys2Proof.Machine

/-! ## The state of the store's media (12 R301) -/

theorem updMedState_med (s : State) : (updMedState s).med = s.med := (keeps_updMedState (w := 0x8) rfl (keeps_refl _ s)).same .med rfl

theorem logEv_med (code : Nat) (detail : List Byte) (s : State) : (logEv code detail s).med = s.med :=
  (keeps_logEv (w := 0x2008) code detail rfl (keeps_refl _ s)).same .med rfl

theorem get_updMedState_apart {f : Field} (h : Fld.MED_STATUS_STATE.Apart f) (s : State) : (updMedState s).get f = s.get f := by
  unfold updMedState
  split
  · rfl
  · exact get_set_apart _ _ _ _ h

theorem state_updMedState_worn {s : State} (hstate : s.get Fld.MED_STATUS_STATE ≠ 0) (hworn : s.med.worn = true) :
    (updMedState s).get Fld.MED_STATUS_STATE = 4 := by
  rw [updMedState, if_neg hstate, if_pos hworn, get_set_same _ _ _ (by decide)]
  rfl

theorem state_updMedState_normal {s : State} (hstate : s.get Fld.MED_STATUS_STATE ≠ 0) (hworn : s.med.worn = false) (hreb : s.med.reb = 0) :
    (updMedState s).get Fld.MED_STATUS_STATE = 1 := by
  have hnot (n : Nat) (hn : n ≠ 0) : s.med.reb ≠ n := hreb ▸ hn.symm
  rw [updMedState, if_neg hstate, if_neg (by simp [hworn]), if_neg (hnot 2 (by decide)), if_neg (hnot 1 (by decide)), get_set_same _ _ _ (by decide)]
  rfl

/-! ## A LUN lost (12 R295 to R297) -/

/-- The register that names a LUN when it is lost. -/
def lostWord (l : Nat) : Nat := if l < 32 then Adr.MED_LUN_LOST_LO else Adr.MED_LUN_LOST_HI

/-- Its bit there. -/
def lostBit (l : Nat) : Field := ⟨lostWord l, l % 32, l % 32⟩

theorem lostWord_range (l : Nat) : 0x500004 ≤ lostWord l ∧ lostWord l < 0x500010 := by
  unfold lostWord
  split <;> decide

theorem lostBit_apart {f : Field} (hfits : f.Fits) (haddr : f.addr = Adr.MED_STATUS) (l : Nat) : f.Apart (lostBit l) := by
  have hne : lostWord l ≠ Adr.MED_STATUS := Nat.ne_of_gt (lt_of_lt_of_le (by decide) (lostWord_range l).1)
  exact ⟨⟨hfits.1, hfits.2, Nat.le_refl _⟩, Or.inl (haddr ▸ hne)⟩

theorem lunGone_eq {l : Nat} (hl : l < 64) (s : State) : s.lunGone l = (s.get (lostBit l) == 1) := by
  have hbit (v b : Nat) : bitOf v b = (bitsOf v b b == 1) := by simp [bitOf, bitsOf]
  change _ = (bitsOf (s.word (lostWord l)).toNat (l % 32) (l % 32) == 1)
  rw [State.lunGone, ← hbit, lostWord]
  split
  · rw [Nat.mod_eq_of_lt ‹_›]
  · rw [show l % 32 = l - 32 by omega]

/-- The LUN is marked lost and counted. -/
def lunMarked (l : Nat) (s : State) : State :=
  s.setWord (lostWord l) (BitVec.ofNat 32 (orBit (s.word (lostWord l)).toNat (l % 32))) |>.inc Fld.MED_STATUS_LOST 1 |>.dec Fld.MED_STATUS_HEALTHY 1

/-- The sources, the log entry, the figures and the report that follow. -/
def lossReported (l cause : Nat) (s : State) : State :=
  s |> doIf (cause == 1) (fun s => s.inc (Fld.MED_NF_CNT_RB_TMO (lunChannel l)) 1 |> nfRaise l 0)
    |> nfRaise l 5 |> raise 240 |> logEv 0x0030 (leBytes 1 l ++ leBytes 1 cause) |> updFlushRate
    |> flightsFail (fun b => b.1 == l) |> updWear |> reportCie

theorem lunLost_first {l : Nat} {s : State} (hok : s.lunOk l = true) (hreb : s.med.reb = 0) (cause : Nat) :
    lunLost l cause s = rebuildStarts l (lossReported l cause (lunMarked l s)) := by
  rw [lunLost, if_neg (not_not_intro hok)]
  simp only [hreb, bne_self_eq_false, Bool.false_eq_true, if_false]
  rfl

theorem exec_lunLost_gone {lun : Fin 64} {s : State} (h : s.lunOk lun = false) (cause : Fin 5) : exec (.lunLost lun cause) s = .next s := by
  change done (lunLost lun (cause + 1) s) = _
  rw [lunLost, if_pos (by simp [h])]
  rfl

theorem lost_lunMarked (l : Nat) (s : State) :
    (lunMarked l s).get Fld.MED_STATUS_LOST = min Fld.MED_STATUS_LOST.max (s.get Fld.MED_STATUS_LOST + 1) := by
  have hne : Fld.MED_STATUS_LOST.addr ≠ lostWord l := Nat.ne_of_lt (lt_of_lt_of_le (by decide) (lostWord_range l).1)
  rw [lunMarked, get_dec_apart _ _ _ _ (by decide), get_inc_same _ _ _ (by decide), get_setWord_ne _ _ hne]

theorem gone_lunMarked {l : Nat} (hl : l < 64) (s : State) : (lunMarked l s).lunGone l = true := by
  have hbit : bitOf (orBit (s.word (lostWord l)).toNat (l % 32) % 2 ^ 32) (l % 32) = true := bitOf_orBit_word _ (Nat.mod_lt _ (by decide))
  rw [lunGone_eq hl, lunMarked, get_dec_apart _ _ _ _ (lostBit_apart (by decide) rfl l),
    get_inc_apart _ _ _ _ (lostBit_apart (by decide) rfl l), State.get]
  dsimp only [lostBit]
  rw [word_setWord_same, BitVec.toNat_ofNat]
  simpa [bitOf, bitsOf] using hbit

/-- The registers that name the LUNs and their states, below the wear figures. -/
abbrev LunAddr (a : Nat) : Prop := 0x500000 ≤ a ∧ a < 0x500010

section lunFields
variable {f : Field}

theorem lun_notMem_raiseRegs (h : LunAddr f.addr) {n : Nat} (hn : n < 512) : f.addr ∉ raiseRegs n := notMem_raiseRegs hn (by omega)

theorem get_nfRaise (h : 0x500000 ≤ f.addr ∧ f.addr < 0x580000) {l off : Nat} (hl : l < 64) (hoff : off < 8) (s : State) :
    (nfRaise l off s).get f = s.get f :=
  get_raise _ _ _ (notMem_raiseRegs (by unfold lunChannel; omega) (by omega))

theorem get_updBudget (h : LunAddr f.addr) (s : State) : (updBudget s).get f = s.get f := by
  have hoff (a : Nat) (ha : a < 0x500000) : f.addr ≠ a := by omega
  refine (doIf_raise_get _ (lun_notMem_raiseRegs h (by decide)) _).trans ?_
  iterate 4 refine (get_setWord_ne _ _ (hoff _ (by decide))).trans ?_
  rfl

theorem get_updFlushRate (h : LunAddr f.addr) (s : State) : (updFlushRate s).get f = s.get f := by
  have hne : f.addr ≠ Fld.DS_FLUSH_RATE_LUNS.addr := ne_of_gt (lt_of_lt_of_le (by decide) h.1)
  exact (get_updBudget h _).trans ((get_setWord_ne _ _ hne).trans (get_setWord_ne _ _ hne))

theorem get_updWear_lun (h : LunAddr f.addr) (s : State) : (updWear s).get f = s.get f := by
  refine regsOnly_get (regsOnly_updWear s) ?_
  simp only [wearRegs, List.mem_append, List.mem_cons, List.not_mem_nil, or_false, not_or, Adr.MED_LIFE, Adr.MED_PE]
  exact ⟨by omega, lun_notMem_raiseRegs h (by decide)⟩

theorem get_flightsFail (at_ : Nat × Nat → Bool) (s : State) : (flightsFail at_ s).get f = s.get f :=
  get_of_regs ((keeps_flightsFail (w := 0xA000000) at_ rfl (keeps_refl _ s)).same .regs rfl) f

theorem get_readyTimeout (h : LunAddr f.addr) {l : Nat} (hl : l < 64) (s : State) :
    (nfRaise l 0 (s.inc (Fld.MED_NF_CNT_RB_TMO (lunChannel l)) 1)).get f = s.get f := by
  have hne : f.addr ≠ (Fld.MED_NF_CNT_RB_TMO (lunChannel l)).addr := by
    simp only [Fld.MED_NF_CNT_RB_TMO]
    omega
  exact (get_nfRaise (by omega) hl (by decide) _).trans (get_setWord_ne _ _ hne)

theorem get_lossReported (h : LunAddr f.addr) {l : Nat} (hl : l < 64) (cause : Nat) (s : State) : (lossReported l cause s).get f = s.get f := by
  have hlog : f.addr ∉ [Fld.DEV_FAULT_LOG_VALID.addr, Fld.DEV_FAULT_TS_STROKE_LO.addr] := by
    simp only [Fld.DEV_FAULT_LOG_VALID, Fld.DEV_FAULT_TS_STROKE_LO, List.mem_cons, List.not_mem_nil, or_false]
    omega
  rw [lossReported, get_reportCie _ _ (lun_notMem_raiseRegs h (by decide)), get_updWear_lun h, get_flightsFail, get_updFlushRate h,
    get_logEv _ _ _ _ hlog, get_raise _ _ _ (lun_notMem_raiseRegs h (by decide)), get_nfRaise (by omega) hl (by decide)]
  exact doIf_same (State.get · f) _ _ (get_readyTimeout h hl)

/-- The start of a rebuild writes STATE and MED_REBUILD_STATUS. -/
theorem get_rebuildStarts (h : LunAddr f.addr) (hstate : Fld.MED_STATUS_STATE.Apart f) (l : Nat) (s : State) :
    (rebuildStarts l s).get f = s.get f := by
  have hne : f.addr ≠ Fld.MED_REBUILD_STATUS_ACTIVE.addr := ne_of_lt (lt_of_lt_of_le h.2 (by decide))
  have hshown (u : State) : ((u.set Fld.MED_REBUILD_STATUS_LUN l).set Fld.MED_REBUILD_STATUS_PERMILLE 0).get f = u.get f :=
    (get_setWord_ne _ _ hne).trans (get_setWord_ne _ _ hne)
  refine (get_updMedState_apart hstate _).trans ((doIf_raise_get _ (lun_notMem_raiseRegs h (by decide)) _).trans ?_)
  exact (doIf_same (State.get · f) _ _ hshown).trans (get_setWord_ne _ _ hne)

end lunFields

theorem gone_lunLost {l : Nat} (hl : l < 64) {s : State} (hok : s.lunOk l = true) (hreb : s.med.reb = 0) (cause : Nat) :
    (lunLost l cause s).lunGone l = true := by
  have haddr : LunAddr (lostBit l).addr := ⟨Nat.le_trans (by decide) (lostWord_range l).1, (lostWord_range l).2⟩
  have hapart : Fld.MED_STATUS_STATE.Apart (lostBit l) := lostBit_apart (by decide) rfl l
  rw [lunLost_first hok hreb, lunGone_eq hl, get_rebuildStarts haddr hapart, get_lossReported haddr hl, ← lunGone_eq hl, gone_lunMarked hl]

theorem lost_lunLost {l : Nat} (hl : l < 64) {s : State} (hok : s.lunOk l = true) (hreb : s.med.reb = 0) (cause : Nat) :
    (lunLost l cause s).get Fld.MED_STATUS_LOST = min Fld.MED_STATUS_LOST.max (s.get Fld.MED_STATUS_LOST + 1) := by
  rw [lunLost_first hok hreb, get_rebuildStarts (by decide) (by decide), get_lossReported (by decide) hl, lost_lunMarked]

/-! ## A rebuild ends (12 R296) -/

/-- The rebuild is over: shown, logged with `detail`, and told. -/
def rebuildEnds (detail : List Byte) (u : State) : State :=
  raise 241 (updMedState (logEv 0x0031 detail
    (((u.medUpd fun m => { m with reb := 0 }).set Fld.MED_REBUILD_STATUS_ACTIVE 0).set Fld.MED_REBUILD_STATUS_PERMILLE 1000)))

section rebuilds
variable {dest : List (List NandBlock)} {u s : State} {detail : List Byte}

theorem exec_rebuildComplete_fits (hreb : s.med.reb = 1) (hidle : mediaIdle s = true) (hinto : rebuildInto (destPairs dest) s = (u, true)) :
    exec (.rebuildComplete dest) s = .next (rebuildEnds
      (leBytes 4 (s.get Fld.MED_REBUILD_STATUS_LUN) ++ leBytes 4 ((closedStripes s).filter (Stripe.hurt s)).length) u) := by
  change execRebuildComplete dest s = _
  rw [execRebuildComplete, if_pos ⟨hreb, hidle⟩]
  simp only [hinto]
  rfl

theorem exec_rebuildComplete_stays (h : s.med.reb ≠ 1 ∨ mediaIdle s = false ∨ (rebuildInto (destPairs dest) s).2 = false) :
    exec (.rebuildComplete dest) s = .next s := by
  change execRebuildComplete dest s = _
  rw [execRebuildComplete]
  rcases h with hreb | hidle | hrefused
  · rw [if_neg fun hmay => hreb hmay.1]
    rfl
  · rw [if_neg fun hmay => by simp [hidle] at hmay]
    rfl
  · have hinto : rebuildInto (destPairs dest) s = (s, false) := Prod.ext (relocateUnits_refused hrefused) hrefused
    simp only [hinto]
    exact congrArg Host.Outcome.next (ite_self s)

theorem rebuildEnds_med : (rebuildEnds detail u).med = { u.med with reb := 0 } := by
  rw [rebuildEnds, raise_med, updMedState_med, logEv_med, set_med, set_med, medUpd_med]

/-- What the end of a rebuild shows of a field that neither its source nor its log entry write. -/
theorem get_rebuildEnds {f : Field} (h : 0x500000 ≤ f.addr ∧ f.addr < 0x580000) (hstate : Fld.MED_STATUS_STATE.Apart f) :
    (rebuildEnds detail u).get f = ((u.set Fld.MED_REBUILD_STATUS_ACTIVE 0).set Fld.MED_REBUILD_STATUS_PERMILLE 1000).get f := by
  have hlog : f.addr ∉ [Fld.DEV_FAULT_LOG_VALID.addr, Fld.DEV_FAULT_TS_STROKE_LO.addr] := by
    simp only [Fld.DEV_FAULT_LOG_VALID, Fld.DEV_FAULT_TS_STROKE_LO, List.mem_cons, List.not_mem_nil, or_false]
    omega
  rw [rebuildEnds, get_raise _ _ _ (notMem_raiseRegs (by decide) (by omega)), get_updMedState_apart hstate, get_logEv _ _ _ _ hlog]
  rfl

theorem state_rebuildEnds (hstate : u.get Fld.MED_STATUS_STATE ≠ 0) (hworn : u.med.worn = false) :
    (rebuildEnds detail u).get Fld.MED_STATUS_STATE = 1 := by
  rw [rebuildEnds, get_raise _ _ _ (notMem_raiseRegs (by decide) (by decide))]
  refine state_updMedState_normal ?_ ?_ ?_
  · rw [get_logEv _ _ _ _ (by decide), get_set_apart _ _ _ _ (by decide), get_set_apart _ _ _ _ (by decide), medUpd_get]
    exact hstate
  · rw [logEv_med, set_med, set_med, medUpd_med]
    exact hworn
  · rw [logEv_med, set_med, set_med, medUpd_med]

end rebuilds

/-! ## Reads, and a patrol pass (12 R283, R293) -/

theorem mediaStep_soft {n : Nat} (hlow : 8 ≤ n) (hhigh : n < 10) (l : Nat) (s : State) :
    mediaStep l n s = nfRaise l 3 (s.inc Fld.MED_RETRY_HIST_SOFT 1) := by
  have hrecon : n ≠ 10 := by omega
  simp [mediaStep, hlow, hrecon]

/-- A read that is counted writes, of the media's registers, MED_RETRY_HIST alone. -/
theorem get_mediaStep {f : Field} (h : 0x500000 ≤ f.addr ∧ f.addr < 0x580000) (hne : f.addr ≠ Adr.MED_RETRY_HIST) {l : Nat} (hl : l < 64)
    (n : Nat) (s : State) : (mediaStep l n s).get f = s.get f := by
  refine (doIf_same (State.get · f) _ _ (get_nfRaise h hl (by decide))).trans ?_
  dsimp only
  split
  · exact get_setWord_ne _ _ hne
  · split
    · exact get_setWord_ne _ _ hne
    · split
      · exact get_setWord_ne _ _ hne
      · rfl

/-- The reads of a patrol pass are counted. -/
def patrolRead (read : List (NandBlock × Fin 11)) (s : State) : State :=
  doAll (read.filter fun x => (inUse s).contains (nandPair x.1)) (fun x => mediaStep x.1.1 x.2) s

/-- The blocks that a patrol pass marks. -/
def patrolMarks (read : List (NandBlock × Fin 11)) (s : State) : List (Nat × Nat) :=
  ((read.filter fun x => decide (s.get Fld.MED_PATROL_CTL_REFRESH_STEP ≤ x.2.val)).map fun x => nandPair x.1).filter fun b =>
    (inUse s).contains b && !s.med.marked.contains b

section patrol
variable {read : List (NandBlock × Fin 11)} {s : State}

theorem exec_patrolPass_idle (h : mediaIdle s = true) : exec (.patrolPass read) s = .next
    (raise 246 (((patrolRead read s).medUpd fun m => { m with marked := m.marked ++ patrolMarks read s }).inc Fld.MED_PATROL_STATUS_PASSES 1)) := by
  change execPatrolPass read s = _
  rw [execPatrolPass, if_pos h]
  rfl

theorem patrolRead_med : (patrolRead read s).med = s.med := doAll_same State.med _ s fun _ => mediaStep_med _ _

theorem passes_patrolRead : (patrolRead read s).get Fld.MED_PATROL_STATUS_PASSES = s.get Fld.MED_PATROL_STATUS_PASSES :=
  doAll_same (State.get · Fld.MED_PATROL_STATUS_PASSES) _ s fun x => get_mediaStep (by decide) (by decide) x.1.1.isLt _

/-- A block in use whose read needed REFRESH_STEP or more is marked, if it was not before. -/
theorem mem_patrolMarks {x : NandBlock × Fin 11} (hx : x ∈ read) (huse : (inUse s).contains (nandPair x.1) = true)
    (hstep : s.get Fld.MED_PATROL_CTL_REFRESH_STEP ≤ x.2.val) : nandPair x.1 ∈ s.med.marked ++ patrolMarks read s := by
  by_cases hmarked : nandPair x.1 ∈ s.med.marked
  · exact List.mem_append_left _ hmarked
  · refine List.mem_append_right _ (List.mem_filter.mpr ⟨List.mem_map.mpr ⟨x, List.mem_filter.mpr ⟨hx, decide_eq_true hstep⟩, rfl⟩, ?_⟩)
    rw [huse]
    simp [hmarked]

end patrol

/-! ## A block moved (12 R285, R293) -/

section blocks
variable {v : Nat × Nat} {n : Nat} {t : State}

theorem mem_erasing_blockMoved : v ∈ (blockMoved v n t).med.erasing := by
  rw [blockMoved, updWa_med, medUpd_med]
  exact List.mem_append_right _ List.mem_cons_self

theorem notMem_without (v : Nat × Nat) (p : Stripe) : some v ∉ (p.without v).members := by
  intro h
  obtain ⟨x, -, hx⟩ := List.mem_map.mp h
  split at hx
  next => cases hx
  next hne => exact hne hx

theorem notMem_stripes_blockMoved : ∀ p ∈ (blockMoved v n t).med.stripes, some v ∉ p.members := by
  rw [blockMoved, updWa_med, medUpd_med]
  intro p hp
  obtain ⟨q, -, rfl⟩ := List.mem_map.mp hp
  exact notMem_without v q

theorem blockMoved_ds : (blockMoved v n t).ds = t.ds := updWa_ds _

end blocks

/-! ## WORN (12 R301) -/

/-- The free blocks outside the reserve are exhausted. -/
def wornShown (s : State) : State := updMedState (s.medUpd fun m => { m with worn := true })

section wornRows
variable {s : State}

theorem exec_mediaWorn_enters (hstate : s.get Fld.MED_STATUS_STATE ≠ 0) (hworn : s.med.worn = false) (hroom : roomOutside s = false) :
    exec .mediaWorn s = .next (raise 245 (wornShown s)) := by
  change execMediaWorn s = _
  rw [execMediaWorn, if_neg (by simp [hstate, hworn, hroom])]
  rfl

theorem exec_mediaWorn_stays (h : s.get Fld.MED_STATUS_STATE = 0 ∨ s.med.worn = true ∨ roomOutside s = true) : exec .mediaWorn s = .next s := by
  change execMediaWorn s = _
  rw [execMediaWorn, if_pos h]
  rfl

theorem wornShown_inRest : (wornShown s).inRest = s.inRest := by
  rw [State.inRest, wornShown, get_updMedState_apart (by decide), medUpd_get, State.inRest]

end wornRows

/-- Settles O32: each row by its equation under its conditions; a lost LUN by what the reports and the rebuild's start leave of its mark and
of the count, and a move by the block that was moved. -/
theorem rebuildPatrolAndWear : Obligations.RebuildPatrolAndWear := by
  unfold Obligations.RebuildPatrolAndWear
  refine ⟨fun _ cause _ h => exec_lunLost_gone h cause, ?lost, ?rebuilt, fun _ _ => exec_rebuildComplete_stays, ?patrol, ?refresh, ?retired, ?moves,
    fun _ _ _ _ => moveBlock_refused, ?collected, ?forbidden, ?levelled, ?worn, fun _ => exec_mediaWorn_stays, ?soft,
    fun _ _ h => (moveAllowed_iff.mp h).1⟩
  case lost =>
    intro lun cause s hok _ hreb
    exact ⟨lunLost lun (cause + 1) s, rfl, gone_lunLost lun.isLt hok hreb _, lost_lunLost lun.isLt hok hreb _⟩
  case rebuilt =>
    intro dest u s hreb hidle hinto hstate hworn
    refine ⟨_, exec_rebuildComplete_fits hreb hidle hinto, state_rebuildEnds hstate hworn, ?_, ?_, ?_, ?_⟩
    · rw [get_rebuildEnds (by decide) (by decide), get_set_same _ _ _ (by decide)]
      rfl
    · rw [get_rebuildEnds (by decide) (by decide), get_set_apart _ _ _ _ (by decide), get_set_same _ _ _ (by decide)]
      rfl
    · rw [rebuildEnds_med]
    · rw [rebuildEnds_med]
  case patrol =>
    intro read s hidle
    refine ⟨_, exec_patrolPass_idle hidle, ?_, fun x hx huse hstep => ?_⟩
    · rw [get_raise _ _ _ (notMem_raiseRegs (by decide) (by decide)), get_inc_same _ _ _ (by decide), medUpd_get, passes_patrolRead]
    · rw [raise_med, inc_med, medUpd_med, patrolRead_med]
      exact mem_patrolMarks hx huse hstep
  case refresh =>
    intro victim dest after u s hmarked hmay hallowed hmove hafter
    rw [exec_blockRefresh_moves hmarked hmay hallowed hmove, refreshEnds, decide_eq_false (Nat.not_le.mpr hafter)]
    rfl
  case retired =>
    intro victim dest after u s hmarked hmay hallowed hmove hafter
    rw [exec_blockRefresh_moves hmarked hmay hallowed hmove, refreshEnds, decide_eq_true hafter]
    rfl
  case moves =>
    intro ok v dests s hdone
    rw [moveBlock_done hdone]
    exact ⟨mem_erasing_blockMoved, notMem_stripes_blockMoved, blockMoved_ds.trans (relocateUnits_ds ..)⟩
  case collected =>
    intro victim dest s hmay hleast
    rw [exec_garbageCollection, if_pos ⟨hmay, hleast⟩]
  case forbidden =>
    intro victim dest s hmay
    rw [exec_garbageCollection, exec_wearLevelling, hmay]
    exact ⟨congrArg _ (if_neg fun h => Bool.false_ne_true h.1), congrArg _ (if_neg fun h => Bool.false_ne_true h.1)⟩
  case levelled =>
    intro victim dest s hmay hspread hleast
    rw [exec_wearLevelling, if_pos ⟨hmay, hspread, hleast⟩]
  case worn =>
    intro s hstate hworn hroom hrest
    refine ⟨_, exec_mediaWorn_enters hstate hworn hroom, ?_, isPending_raise (by decide) (by decide) (wornShown_inRest.trans hrest)⟩
    rw [get_raise _ _ _ (notMem_raiseRegs (by decide) (by decide))]
    exact state_updMedState_worn hstate rfl
  case soft =>
    intro l n s hlow hhigh
    exact ⟨_, mediaStep_soft hlow hhigh l s, get_inc_same _ _ _ (by decide)⟩

end Sys2Proof.Machine
end

section

/-! The commands of the STORE and MEDIA groups (12 R281, R300, R301; 16 R404). -/

namespace Sys2Proof.Machine

section storeGroup
variable {mb : Fin 1032} {core : Fin 4} {x : Cmd} {s u : State}

/-- The entry that STORE_RECORD answers: the context's, of a record that was written. -/
theorem exec_storeRecord_found (h : mayTake s mb core 0x0307 = some x) (hu : takeCmd x core s = u) {r : List Byte}
    (hentry : tabFind u.ds.ctxRecord (leAt x.args 0 2) = some r) (hwritten : u.ds.ctxRecordWritten = true) :
    exec (.storeRecord mb core) s = .next (cmdDone x.id 0 r u) := by
  subst hu
  change execStoreRecord mb core s = _
  rw [execStoreRecord, runCmd_taken h]
  simp only [hentry, hwritten, if_true]

/-- Without a record there is none to answer. -/
theorem exec_storeRecord_none (h : mayTake s mb core 0x0307 = some x) (hu : takeCmd x core s = u) (hwritten : u.ds.ctxRecordWritten = false) :
    exec (.storeRecord mb core) s = .next (cmdDone x.id 3 [] u) := by
  subst hu
  change execStoreRecord mb core s = _
  rw [execStoreRecord, runCmd_taken h]
  cases tabFind (takeCmd x core s).ds.ctxRecord (leAt x.args 0 2) with
  | none => rfl
  | some r => simp only [hwritten, Bool.false_eq_true, if_false]

theorem exec_storeFormat_busy (h : mayTake s mb core 0x0308 = some x) (hu : takeCmd x core s = u) (hbusy : storeBusy u = true) :
    exec (.storeFormat mb core) s = .next (cmdDone x.id 1 [] u) := by
  subst hu
  change execStoreFormat mb core s = _
  rw [execStoreFormat, runCmd_taken h]
  simp only [hbusy, if_true]

/-- The format of 128 GiB starts where the population carries it. -/
theorem exec_storeFormat_small (h : mayTake s mb core 0x0308 = some x) (hu : takeCmd x core s = u) (hfree : storeBusy u = false)
    (hsmall : bitOf (leAt x.args 0 1) 0 = false) (hcarries : carries (u.get Fld.MED_STATUS_HEALTHY) (lunUnits u) 512 = true) :
    exec (.storeFormat mb core) s = .next (cmdDone x.id 0 [] (storeStart x 0x0308 u).1) := by
  subst hu
  change execStoreFormat mb core s = _
  rw [execStoreFormat, runCmd_taken h]
  simp only [hfree, hsmall, hcarries, Bool.false_eq_true, if_false, not_true_eq_false]
  rfl

theorem exec_mediaRebuild_busy (h : mayTake s mb core 0x030A = some x) (hu : takeCmd x core s = u) (hbusy : storeBusy u = true) :
    exec (.mediaRebuild mb core) s = .next (cmdDone x.id 1 [] u) := by
  subst hu
  change execMediaRebuild mb core s = _
  rw [execMediaRebuild, runCmd_taken h]
  simp only [hbusy, if_true]

theorem exec_mediaRebuild_free (h : mayTake s mb core 0x030A = some x) (hu : takeCmd x core s = u) (hfree : storeBusy u = false) :
    exec (.mediaRebuild mb core) s = .next (cmdDone x.id 0 [] (storeStart x 0x030A u).1) := by
  subst hu
  change execMediaRebuild mb core s = _
  rw [execMediaRebuild, runCmd_taken h]
  simp only [hfree, Bool.false_eq_true, if_false]
  rfl

end storeGroup

/-- Settles O33: the two queries answer the registers of the state in which a core has taken them, the others by the branch that the store
group's operation and the record decide. -/
theorem storeGroupCommands : Obligations.StoreGroupCommands := by
  unfold Obligations.StoreGroupCommands
  refine ⟨?query, ?health, fun _ _ _ _ _ h hentry hwritten => exec_storeRecord_found h rfl hentry hwritten,
    fun _ _ _ _ h hwritten => exec_storeRecord_none h rfl hwritten, fun _ _ _ _ h hbusy => exec_storeFormat_busy h rfl hbusy,
    fun _ _ _ _ h hfree hsmall hcarries => exec_storeFormat_small h rfl hfree hsmall hcarries,
    fun _ _ _ _ h hfree => exec_mediaRebuild_free h rfl hfree, fun _ _ _ _ h hbusy => exec_mediaRebuild_busy h rfl hbusy⟩
  case query =>
    intro mb core x s h
    change execStoreQuery mb core s = _
    rw [execStoreQuery, runCmd_taken h]
  case health =>
    intro mb core x s h
    change execMediaHealth mb core s = _
    rw [execMediaHealth, runCmd_taken h]

end Sys2Proof.Machine
end

section

/-! One step of the queue (16 R388) and the commands of the PEL, TANDEM, POWER and FW groups (14 R356, R357; 16 R405, R406, R409, R410;
17 R417, R418, R421). -/

namespace Sys2Proof.Machine

/-- Settles O1: the two branches of the step. -/
theorem stepRunsTheFrontCommand : Obligations.StepRunsTheFrontCommand := by
  unfold Obligations.StepRunsTheFrontCommand
  exact ⟨fun _ _ _ h => step_front h, fun _ h => step_idle h⟩

/-! ## PEL and TANDEM commands -/

section pelGroup
variable {mb : Fin 1032} {core : Fin 4} {gen : Word} {x : Cmd} {s u v : State}

theorem exec_tandemPair_taken (h : mayTake s mb core 0x0403 = some x) :
    exec (.tandemPair mb core gen) s = .next (tandemPairCmd gen.toNat x (takeCmd x core s)) := by
  change execTandemPair mb core gen s = _
  rw [execTandemPair, startCmd_taken h]

theorem tandemPairCmd_absent {n : Nat} (habsent : u.cst (leAt x.args 0 2) = 0) : tandemPairCmd n x u = cmdDone x.id 3 [] u := by
  simp only [tandemPairCmd, habsent, if_true]

/-- A context in DRAINING is not live, so its pairing waits. -/
theorem tandemPairCmd_draining {n : Nat} (hdraining : u.cst (leAt x.args 0 2) = 4) : tandemPairCmd n x u = cmdDone x.id 1 [] u := by
  have hdead : u.live (leAt x.args 0 2) = false := by simp [State.live, hdraining]
  simp [tandemPairCmd, hdraining, hdead]

/-- The pairing of a live context that has none starts where its PAIR message goes. -/
theorem tandemPairCmd_sent {n : Nat} (hlive : u.live (leAt x.args 0 2) = true) (hrole : u.get (Fld.PEL_TANDEM_ROLE (leAt x.args 0 2)) = 0)
    (hunpaired : (u.ctx (leAt x.args 0 2)).pairing = none) (hrejoin : (u.ctx (leAt x.args 0 2)).rejoin = false)
    (hop : (u.ctx (leAt x.args 0 2)).op = none) (hother : leAt x.args 2 1 ≠ u.me) (hdirect : bitOf (directMap u) (leAt x.args 2 1) = true)
    (hsend : sendState (leAt x.args 2 1) 4 (leAt x.args 0 2)
      (tandemData u (leAt x.args 0 2) (leAt x.args 4 2) 0 (shareWords u (leAt x.args 0 2))) u = (v, true)) :
    tandemPairCmd n x u = v.ctxUpd (leAt x.args 0 2) fun y =>
      { y with pairing := some { op := 0, member := leAt x.args 2 1, sctx := leAt x.args 4 2, cmd := x.id, gen := n } } := by
  have hpresent : u.cst (leAt x.args 0 2) ≠ 0 := fun h0 => by simp [State.live, h0] at hlive
  simp [tandemPairCmd, hpresent, hlive, hrole, hunpaired, hrejoin, hop, hother, hdirect, hsend]

theorem exec_tandemUnpair_home (h : mayTake s mb core 0x0404 = some x) (hu : u = takeCmd x core s) (hpresent : u.cst (leAt x.args 0 2) ≠ 0)
    (hidle : (u.ctx (leAt x.args 0 2)).pairing = none) (hrole : u.get (Fld.PEL_TANDEM_ROLE (leAt x.args 0 2)) = 1) :
    exec (.tandemUnpair mb core) s = .next (cmdDone x.id 0 [] (unpairHome (leAt x.args 0 2) (tandemTell (leAt x.args 0 2) 3 u))) := by
  subst hu
  change execTandemUnpair mb core s = _
  rw [execTandemUnpair, runCmd_taken h]
  simp [hpresent, hidle, hrole]

theorem exec_tandemUnpair_other (h : mayTake s mb core 0x0404 = some x) (hu : u = takeCmd x core s) (hpresent : u.cst (leAt x.args 0 2) ≠ 0)
    (hidle : (u.ctx (leAt x.args 0 2)).pairing = none) (hrole : u.get (Fld.PEL_TANDEM_ROLE (leAt x.args 0 2)) ≠ 1) :
    exec (.tandemUnpair mb core) s = .next (cmdDone x.id 0 [] u) := by
  subst hu
  change execTandemUnpair mb core s = _
  rw [execTandemUnpair, runCmd_taken h]
  simp [hpresent, hidle, hrole]

/-- TANDEM_QUERY of a context without an aperture answers a status word of 0. -/
theorem exec_tandemQuery_noApt (h : mayTake s mb core 0x0405 = some x) (hu : u = takeCmd x core s) (hpresent : u.cst (leAt x.args 0 2) ≠ 0)
    (hapt : (u.ctx (leAt x.args 0 2)).apt = none) :
    exec (.tandemQuery mb core) s = .next (cmdDone x.id 0 (leBytes 4 (tandemWord u (leAt x.args 0 2)) ++
      wordBytes u (Adr.PEL_GEN (leAt x.args 0 2)) ++ [0, 0, 0, 0]) u) := by
  have hzero : leBytes 4 0 = [0, 0, 0, 0] := by decide
  subst hu
  change execTandemQuery mb core s = _
  rw [execTandemQuery, runCmd_taken h]
  simp [hpresent, hapt, hzero]

end pelGroup

/-- Settles O41: PEL_QUERY and PEL_LEAVE have one row, the TANDEM commands one for each branch on the context's state and role. -/
theorem pelotonCommands : Obligations.PelotonCommands := by
  unfold Obligations.PelotonCommands
  refine ⟨?query, ?leave, ?absent, ?draining, ?sent, fun _ _ _ _ _ => exec_tandemUnpair_home, fun _ _ _ _ _ => exec_tandemUnpair_other,
    fun _ _ _ _ _ => exec_tandemQuery_noApt⟩
  case query =>
    intro mb core x s h
    change execPelQuery mb core s = _
    rw [execPelQuery, runCmd_taken h]
  case leave =>
    intro mb core x s h
    change execPelLeave mb core s = _
    rw [execPelLeave, startCmd_taken h]
  case absent =>
    intro mb core gen x s h habsent
    rw [exec_tandemPair_taken h, tandemPairCmd_absent habsent]
  case draining =>
    intro mb core gen x s h hdraining
    rw [exec_tandemPair_taken h, tandemPairCmd_draining hdraining]
  case sent =>
    intro mb core gen x s u v h hu hlive hrole hunpaired hrejoin hop hother hdirect hsend
    subst hu
    rw [exec_tandemPair_taken h, tandemPairCmd_sent hlive hrole hunpaired hrejoin hop hother hdirect hsend]

/-! ## POWER and THERM commands -/

section powerGroup
variable {mb : Fin 1032} {core : Fin 4} {x : Cmd} {s u : State}

theorem exec_perfSet_awake (hawake : s.awake = true) (h : mayTake s mb core 0x0101 = some x) :
    exec (.perfSet mb core) s =
      .next ((takeCmd x core s).pwrUpd fun p => { p with want := some (leAt x.args 0 1, if x.mb = 4 then 1 else 0, x.id) }) := by
  change execPerfSet mb core s = _
  rw [execPerfSet, if_pos hawake, startCmd_taken h]

theorem exec_perfSet_asleep (hasleep : s.awake = false) : exec (.perfSet mb core) s = .next s := by
  change execPerfSet mb core s = _
  simp [execPerfSet, hasleep, done]

/-- SLEEP_ENTER during the exit from a sleep state waits, whether or not a core may take it. -/
theorem exec_sleepEnter_leaving (hleaving : s.sleepState = 5) : exec (.sleepEnter mb core) s = .next s := by
  change execSleepEnter mb core s = _
  unfold execSleepEnter
  cases mayTake s mb core 0x0102 with
  | none => rfl
  | some x => simp [hleaving, done]

/-- SLEEP_ENTER that is not held up by another state's exit or entry is run on the state in which it was taken. -/
theorem exec_sleepEnter_taken (h : mayTake s mb core 0x0102 = some x) (hleaving : s.sleepState ≠ 5)
    (hstate : s.sleepState = 0 ∨ sleepKind s = leAt x.args 0 1) :
    exec (.sleepEnter mb core) s = .next (
      if sleepKind (takeCmd x core s) = leAt x.args 0 1 then cmdDone x.id 0 (leBytes 6 (takeCmd x core s).pwr.sleepAt.toNat) (takeCmd x core s)
      else if maySleep (takeCmd x core s) ∧ (leAt x.args 0 1 = 1 ∨ mayRest (takeCmd x core s)) then
        cmdDone x.id 0 (leBytes 6 (takeCmd x core s).now.toNat) (sleepBegin (leAt x.args 0 1) (takeCmd x core s))
      else cmdDone x.id 1 [] (takeCmd x core s)) := by
  have hfree : ¬ (s.sleepState = 5 ∨ (s.sleepState ≠ 0 ∧ s.sleepState ≠ 2 ∧ sleepKind s ≠ leAt x.args 0 1)) := by tauto
  change execSleepEnter mb core s = _
  simp only [execSleepEnter, h, if_neg hfree, runCmd_taken h]
  split <;> [rfl; split <;> rfl]

theorem exec_wakeCfg_awake (hawake : s.awake = true) (h : mayTake s mb core 0x0103 = some x) (hu : u = takeCmd x core s) :
    exec (.wakeCfg mb core) s = .next (cmdDone x.id 0 (leBytes 6 u.wakeEn) (setWakeEn (leAt x.args 0 6) u)) := by
  subst hu
  change execWakeCfg mb core s = _
  rw [execWakeCfg, if_pos hawake, runCmd_taken h]

theorem exec_powerPolicy_awake (hawake : s.awake = true) (h : mayTake s mb core 0x0105 = some x) (hu : u = takeCmd x core s) :
    exec (.powerPolicy mb core) s =
      .next (cmdDone x.id 0 (leBytes 1 (u.get Fld.CRP_LEVEL_IDLE_SLEEP + 2 * u.get Fld.CRP_LEVEL_AUTO) ++ leBytes 1 (u.get Fld.CRP_LEVEL_FLOOR))
        (((u.set Fld.CRP_LEVEL_IDLE_SLEEP (leAt x.args 0 1 % 2)).set Fld.CRP_LEVEL_AUTO (leAt x.args 0 1 / 2)).set Fld.CRP_LEVEL_FLOOR
          (leAt x.args 1 1))) := by
  subst hu
  change execPowerPolicy mb core s = _
  rw [execPowerPolicy, if_pos hawake, runCmd_taken h]

end powerGroup

/-- Settles O46: the commands that wait in a sleep state by their guard, SLEEP_ENTER by the sleep state in force and the conditions of an
entry, the others by their one row. -/
theorem powerCommands : Obligations.PowerCommands := by
  unfold Obligations.PowerCommands
  refine ⟨fun _ _ _ _ => exec_perfSet_awake, fun _ _ _ => exec_perfSet_asleep, ?enter, ?inForce, fun _ _ _ => exec_sleepEnter_leaving, ?busy,
    fun _ _ _ _ _ => exec_wakeCfg_awake, ?therm, fun _ _ _ _ _ => exec_powerPolicy_awake, ?power⟩
  case enter =>
    intro mb core x s u h hu hawake hkind hmay hnone
    subst hu
    rw [exec_sleepEnter_taken h (by omega) (.inl hawake), hnone, hkind, if_neg (by decide), if_pos ⟨hmay, .inl rfl⟩]
  case inForce =>
    intro mb core x s u h hu hleaving hkind hkindTaken
    subst hu
    rw [exec_sleepEnter_taken h hleaving (.inr hkind), if_pos hkindTaken]
  case busy =>
    intro mb core x s u h hu hawake hkind hmay hnone
    subst hu
    rw [exec_sleepEnter_taken h (by omega) (.inl hawake), hnone, if_neg hkind.symm, if_neg (by simp [hmay])]
  case therm =>
    intro mb core x s u h hu
    subst hu
    change execThermQuery mb core s = _
    rw [execThermQuery, runCmd_taken h]
  case power =>
    intro mb core x s u h hu
    subst hu
    change execPowerQuery mb core s = _
    rw [execPowerQuery, runCmd_taken h]

/-! ## Firmware images -/

section fwGroup
variable {mb : Fin 1032} {core : Fin 4} {unread : Bool} {x : Cmd} {s u : State}

theorem exec_fwStageData_unstaged (h : mayTake s mb core 0x0503 = some x) (hstage : (takeCmd x core s).fw.stage = 0) :
    exec (.fwStageData mb core) s = .next (cmdDone x.id 1 [] (takeCmd x core s)) := by
  change execFwStageData mb core s = _
  rw [execFwStageData, runCmd_taken h]
  simp only [hstage, if_true]

theorem exec_fwStageData_beyond (h : mayTake s mb core 0x0503 = some x) (hstage : (takeCmd x core s).fw.stage ≠ 0)
    (hbeyond : (takeCmd x core s).fw.size < leAt x.args 0 4 + leAt x.args 4 4) :
    exec (.fwStageData mb core) s = .next (cmdDone x.id 3 [] (takeCmd x core s)) := by
  change execFwStageData mb core s = _
  rw [execFwStageData, runCmd_taken h]
  simp only [hstage, hbeyond, if_false, if_true]

theorem exec_fwStageData_within (h : mayTake s mb core 0x0503 = some x) (hu : u = takeCmd x core s) (hstage : u.fw.stage ≠ 0)
    (hwithin : leAt x.args 0 4 + leAt x.args 4 4 ≤ u.fw.size) :
    exec (.fwStageData mb core) s = .next (cmdDone x.id 0 [] (u.fwUpd fun f => { f with
      stage := 1
      bytes := (List.range (leAt x.args 4 4)).foldl
        (fun t i => tabSet (fun _ => none) t (leAt x.args 0 4 + i) (some (x.args.getD (32 + i) 0))) u.fw.bytes })) := by
  subst hu
  change execFwStageData mb core s = _
  rw [execFwStageData, runCmd_taken h]
  simp only [hstage, Nat.not_lt.mpr hwithin, if_false]

/-- FW_STAGE_END of a stage is decided by the error of its image. -/
theorem exec_fwStageEnd_staged (h : mayTake s mb core 0x0504 = some x) (hu : u = takeCmd x core s) (hstage : u.fw.stage ≠ 0) :
    exec (.fwStageEnd mb core unread) s = .next (if imageErr u unread = 0 then cmdDone x.id 0 [] (u.fwUpd fun f => { f with stage := 2 })
      else cmdDone x.id 0xB (leBytes 1 (imageErr u unread)) (u.fwUpd fun f => { f with stage := 1 })) := by
  subst hu
  change execFwStageEnd mb core unread s = _
  rw [execFwStageEnd, runCmd_taken h]
  simp only [hstage, if_false]
  split <;> rfl

theorem exec_fwStageEnd_unstaged (h : mayTake s mb core 0x0504 = some x) (hu : u = takeCmd x core s) (hstage : u.fw.stage = 0) :
    exec (.fwStageEnd mb core unread) s = .next (cmdDone x.id 1 [] u) := by
  subst hu
  change execFwStageEnd mb core unread s = _
  rw [execFwStageEnd, runCmd_taken h]
  simp only [hstage, if_true]

/-- The start of the writing of image copies ends its command OK, with no bytes. -/
theorem fwStart_ends (x : Cmd) (img : Image) (todo : List Nat) (u : State) : (fwStart x img todo u).2 = (0, []) := rfl

theorem exec_fwActivate_verified (h : mayTake s mb core 0x0505 = some x) (hu : u = takeCmd x core s) (hfree : fwBusy u = false)
    (hstage : u.fw.stage = 2) : exec (.fwActivate mb core) s = .next (cmdDone x.id 0 [] (fwStart x u.staged [0, 1] u).1) := by
  subst hu
  change execFwActivate mb core s = _
  rw [execFwActivate, runCmd_taken h, if_neg (by simp [hfree, hstage]), fwStart_ends]

theorem exec_fwActivate_unverified (h : mayTake s mb core 0x0505 = some x) (hstage : (takeCmd x core s).fw.stage ≠ 2) :
    exec (.fwActivate mb core) s = .next (cmdDone x.id 1 [] (takeCmd x core s)) := by
  change execFwActivate mb core s = _
  rw [execFwActivate, runCmd_taken h, if_pos (.inr hstage)]

theorem exec_fwCommit_trial (h : mayTake s mb core 0x0506 = some x) (hu : u = takeCmd x core s) (hfree : fwBusy u = false)
    (htrial : inTrial u = true) : exec (.fwCommit mb core) s = .next (cmdDone x.id 0 [] (fwStart x u.fw.running [2, 3] u).1) := by
  subst hu
  change execFwCommit mb core s = _
  rw [execFwCommit, runCmd_taken h, if_neg (by simp [hfree, htrial]), fwStart_ends]

theorem exec_fwRollback_older (h : mayTake s mb core 0x0507 = some x) (hu : u = takeCmd x core s) (hfree : fwBusy u = false)
    (hcopy : u.fwCopy 2 ≠ 0) (hother : u.fwCopy 2 ≠ u.word Adr.DEV_FWREV) :
    exec (.fwRollback mb core) s = .next (cmdDone x.id 0 [] (fwStart x (u.copy 2) [0, 1] u).1) := by
  subst hu
  change execFwRollback mb core s = _
  rw [execFwRollback, runCmd_taken h, if_neg (not_or.mpr ⟨by simp [hfree], not_or.mpr ⟨hcopy, hother⟩⟩), fwStart_ends]

theorem exec_trialBoot_none (hnone : inTrial s = false) : exec .trialBoot s = .next s := by
  change execTrialBoot s = _
  simp [execTrialBoot, hnone, done]

/-- The first and the second boot of a trial are counted once; the third would give it up. -/
theorem exec_trialBoot_counts (htrial : inTrial s = true) (huncounted : s.fw.counted = false) (hfew : s.fw.trials < 2) :
    exec .trialBoot s = .next (s.fwUpd fun f => { f with trials := f.trials + 1, counted := true }) := by
  have hmore : ¬ 3 ≤ (s.fwUpd fun f => { f with trials := f.trials + 1, counted := true }).fw.trials := by
    change ¬ 3 ≤ s.fw.trials + 1
    omega
  change execTrialBoot s = _
  simp only [execTrialBoot, htrial, huncounted, Bool.false_eq_true, not_false_eq_true, and_self, if_true, if_neg hmore, done]

end fwGroup

/-- Settles O47: the staging commands by the stage and the size, the three that write copies by their condition, the trial boot by its
count. -/
theorem firmwareImagesAndTrials : Obligations.FirmwareImagesAndTrials := by
  unfold Obligations.FirmwareImagesAndTrials
  refine ⟨?query, ?begin, fun _ _ _ _ => exec_fwStageData_unstaged, fun _ _ _ _ => exec_fwStageData_beyond,
    fun _ _ _ _ _ => exec_fwStageData_within, fun _ _ _ _ _ _ => exec_fwStageEnd_staged, fun _ _ _ _ _ _ => exec_fwStageEnd_unstaged,
    fun _ _ _ _ _ => exec_fwActivate_verified, fun _ _ _ _ => exec_fwActivate_unverified, fun _ _ _ _ _ => exec_fwCommit_trial,
    fun _ _ _ _ _ => exec_fwRollback_older, fun _ => exec_trialBoot_none, fun _ => exec_trialBoot_counts⟩
  case query =>
    intro mb core x s u h hu
    subst hu
    change execFwQuery mb core s = _
    rw [execFwQuery, runCmd_taken h]
  case begin =>
    intro mb core x s h
    change execFwStageBegin mb core s = _
    rw [execFwStageBegin, runCmd_taken h]

end Sys2Proof.Machine
end

section

/-! Three statements that the model does not meet: the JOIN of a link whose tags are all in use (O40), a source that a sleeping device
latches although it is not wake-capable (O42) and the edge of PHOTO_N that is matched as well (O52). -/

namespace Sys2Proof.Machine

/-! ## A JOIN that waits for a tag (13 R323; 14 R346) -/

/-- A request of a link whose 4,096 tags are all in use joins no stream yet. -/
theorem tx_sendReq_of_tagsOut {s : State} {k : Nat} (hout : tagsOut s k = true) (src : ReqSrc) (m : UMsg) :
    ((sendReq k src m s).link k).tx = (s.link k).tx := by
  simp [sendReq, hout]

/-- A JOIN on such a link does not lengthen the link's stream. -/
theorem tx_joinSend_of_tagsOut {k : Fin 4} {dst : Fin 8} {s t : State} (hout : tagsOut s k = true)
    (h : exec (.joinSend k dst) s = .next t) : (t.link k).tx.length ≠ (s.link k).tx.length + 1 := by
  have hsame : (t.link k).tx = (s.link k).tx := by
    change execJoinSend k dst s = _ at h
    rw [execJoinSend, done] at h
    rw [← Host.Outcome.next.inj h]
    split
    · exact tx_sendReq_of_tagsOut hout _ _
    · rfl
  rw [hsame]
  omega

/-- JOINING member 1, which has heard leader 0 on link 0, its first ACTIVE link, with these requests without a response there. -/
def joiningWith (reqs : List (Nat × ReqSrc × UMsg)) : State :=
  State.reset |>.set Fld.PEL_STATUS_STATE 1 |>.set (Fld.UL_STATUS_STATE 0) 3 |>.set Fld.DEV_STRAP_MEMBER_ID 1
    |>.pelUpd (fun p => { p with heard := [(0, 0)] }) |>.linkUpd 0 (fun l => { l with reqs := reqs })

theorem reqs_joiningWith (reqs : List (Nat × ReqSrc × UMsg)) : ((joiningWith reqs).link 0).reqs = reqs := by
  simp [joiningWith]

/-- Every tag of the link is in use. -/
def joiningWithoutTags : State := joiningWith (List.replicate 4096 (0, .state 2 0, { mtype := 0 }))

theorem joiningWithoutTags_joins :
    joiningWithoutTags.pelState = 1 ∧ joiningWithoutTags.restarting = false ∧ joinLink joiningWithoutTags = some 0 ∧
      joinTarget joiningWithoutTags = some 0 ∧ joiningWithoutTags.pel.joinSent = false ∧ 0 ≠ joiningWithoutTags.me := by
  decide +kernel

theorem tagsOut_joiningWithoutTags : tagsOut joiningWithoutTags 0 = true := by
  rw [tagsOut, joiningWithoutTags, reqs_joiningWith, List.length_replicate, decide_eq_true (Nat.le_refl 4096)]

/-- Refutes O40: its clause on the JOIN adds it to the link's stream. With all 4,096 tags of the link in use it waits for a tag and the
stream keeps its length. -/
theorem not_joiningViewsLossesAndFences : ¬ Obligations.JoiningViewsLossesAndFences := by
  unfold Obligations.JoiningViewsLossesAndFences
  rintro ⟨hjoin, -⟩
  obtain ⟨hstate, hrunning, hlink, htarget, hunsent, hother⟩ := joiningWithoutTags_joins
  obtain ⟨t, ht, -, hlen, -⟩ := hjoin 0 0 joiningWithoutTags hstate hrunning hlink htarget hunsent hother
  exact tx_joinSend_of_tagsOut (k := 0) tagsOut_joiningWithoutTags ht hlen

/-! ## The edge of source 4 in Rest (15 R368, R377; 17 R427) -/

/-- In Rest with the host link in L1: context 0's event bit 5, which source 4 sets, is enabled and its vector 0 can be sent. -/
def restingWithModeEvent : State :=
  State.reset |>.set Fld.CRP_SLEEP_STATE 4 |>.set (Fld.CTX_EVT_EN_EN 0) 0x20 |>.set (Fld.CTX_EVT_CFG_EN 0) 1
    |>.set (Fld.CTX_SHARE5_VECTORS 0) 1 |>.set Fld.HL_LINK_STATUS_DL_UP 1 |>.set Fld.HL_LINK_STATUS_LSTATE 4
    |>.devUpd (fun d => { d with perst := false }) |>.fnUpd 0 (fun f => { f with msixEn := true, bme := true })
    |>.setMsix 0 0 { ctl := 0 }

/-- Source 4 is not wake-capable, yet its message takes the link out of L1, whose source 24 is. -/
theorem restingWithModeEvent_latches :
    restingWithModeEvent.inRest = true ∧ wakeIndex 4 = none ∧ restingWithModeEvent.word Adr.KS_WAKE_LATCH_LO = 0 ∧
      (raise 4 restingWithModeEvent).word Adr.KS_WAKE_LATCH_LO = 0x4000 := by
  decide +kernel

theorem exec_sourceEdge {n : Fin 288} {s : State} (hn : sourceReserved n = false) : exec (.sourceEdge n) s = .next (raise n s) := by
  change execSourceEdge n s = _
  simp [execSourceEdge, hn, done]

/-- Refutes O42: its clause on Rest has nothing latched by a source that is not wake-capable. The edge of source 4 sets event bit 5 of
context 0, whose message takes the host link out of L1, and source 24 is latched. -/
theorem not_sourcesAndPendingBits : ¬ Obligations.SourcesAndPendingBits := by
  unfold Obligations.SourcesAndPendingBits
  rintro ⟨-, -, hrest, -⟩
  obtain ⟨hin, hwake, hbefore, hafter⟩ := restingWithModeEvent_latches
  obtain ⟨t, ht, -, hlatch, -⟩ := hrest 4 restingWithModeEvent hin hwake
  rw [exec_sourceEdge (by decide)] at ht
  rw [← Host.Outcome.next.inj ht, hbefore] at hlatch
  exact absurd (hafter.symm.trans hlatch) (by decide)

/-! ## An edge of PHOTO_N whose source is matched (19 R452) -/

/-- PIN_EN is 1 and PFS_MATCH names source 6, the source of the PHOTO_N edge itself. -/
def photoEdgeMatched : State :=
  State.reset |>.set Fld.PFS_CTL_PIN_EN 1 |>.set Fld.PFS_CTL_MATCH_EN 1 |>.set Fld.PFS_MATCH_SOURCE 6

theorem photoEdgeMatched_armed :
    photoEdgeMatched.inRest = false ∧ photoEdgeMatched.isSet Fld.PFS_CTL_PIN_EN = true ∧ photoEdgeMatched.isSet Fld.PFS_CTL_PEL = false ∧
      photoEdgeMatched.isSet Fld.PFS_STAT_VALID = false ∧ photoEdgeMatched.pfs.pel = none ∧ photoEdgeMatched.pfs.due = none := by
  decide +kernel

/-- Both triggers of the stroke are in the sources of the one latch. -/
theorem due_photoEdgeMatched :
    (raise 6 photoEdgeMatched |> doIf ((raise 6 photoEdgeMatched).isSet Fld.PFS_CTL_PIN_EN) (pfsTrigger 1)).pfs.due = some (1, 6) := by
  decide +kernel

/-- Refutes O52: its clause on the PHOTO_N edge has source bit 1 alone in the latch that becomes due. Where PFS_MATCH names source 6 the
edge triggers source bit 2 as well. -/
theorem not_photoFinishAndTap : ¬ Obligations.PhotoFinishAndTap := by
  unfold Obligations.PhotoFinishAndTap
  rintro ⟨-, -, -, -, -, hedge, -⟩
  obtain ⟨hrest, hpin, hpel, hvalid, hnone, hdue⟩ := photoEdgeMatched_armed
  obtain ⟨t, ht, hlatch, -⟩ := hedge photoEdgeMatched hrest hpin hpel hvalid hnone hdue
  change execPhotoNEdge photoEdgeMatched = _ at ht
  rw [← Host.Outcome.next.inj ht] at hlatch
  exact absurd (due_photoEdgeMatched.symm.trans hlatch) (by decide +kernel)

end Sys2Proof.Machine
end

section

/-! The bytes of a mailbox and the end of a command of the board controller's (16 R390, R396, R398, R400). -/

namespace Sys2Proof.Machine

/-! ## Bytes of the registers and buffers -/

/-- The bits of a register that hold the byte at an address. -/
def byteField (a : Nat) : Field := ⟨a - a % 4, 8 * (a % 4) + 7, 8 * (a % 4)⟩

theorem byteField_fits (a : Nat) : (byteField a).Fits := by
  simp only [Field.Fits, byteField]
  omega

theorem byteField_apart {a b : Nat} (h : a ≠ b) : (byteField a).Apart (byteField b) := by
  simp only [Field.Apart, byteField]
  omega

theorem setByte_eq_set (a : Nat) (b : Byte) (s : State) : setByte a b s = s.set (byteField a) b.toNat := rfl

theorem byteAt_eq_get (s : State) (a : Nat) : byteAt s a = BitVec.ofNat 8 (s.get (byteField a)) := by
  have hwidth : 8 * (a % 4) + 7 + 1 - 8 * (a % 4) = 8 := by omega
  apply BitVec.eq_of_toNat_eq
  simp [byteAt, State.get, byteField, bitsOf, hwidth]

theorem byteAt_setByte_same (a : Nat) (b : Byte) (s : State) : byteAt (setByte a b s) a = b := by
  have hwidth : (byteField a).hi + 1 - (byteField a).lo = 8 := by
    simp only [byteField]
    omega
  rw [byteAt_eq_get, setByte_eq_set, get_set_same _ _ _ (byteField_fits a), hwidth, Nat.mod_eq_of_lt b.isLt, BitVec.ofNat_toNat,
    BitVec.setWidth_eq]

theorem byteAt_setByte_ne {a b : Nat} (h : a ≠ b) (v : Byte) (s : State) : byteAt (setByte a v s) b = byteAt s b := by
  rw [byteAt_eq_get, byteAt_eq_get, setByte_eq_set, get_set_apart _ _ _ _ (byteField_apart h)]

/-- A field of another register leaves a byte alone. -/
theorem byteAt_set_ne {f : Field} {a : Nat} (h : a - a % 4 ≠ f.addr) (v : Nat) (s : State) : byteAt (s.set f v) a = byteAt s a := by
  rw [byteAt, byteAt, word_set_ne s f v h]

/-- An area written leaves the bytes before it alone. -/
theorem byteAt_putArea_of_lt {a b : Nat} (h : b < a) (l : List Byte) (s : State) : byteAt (putArea a l s) b = byteAt s b := by
  induction l generalizing a s with
  | nil => rfl
  | cons v l ih => exact (ih (by omega) (setByte a v s)).trans (byteAt_setByte_ne (by omega) v s)

theorem byteAt_putArea {l : List Byte} {i : Nat} (h : i < l.length) (a : Nat) (s : State) :
    byteAt (putArea a l s) (a + i) = l.getD i 0 := by
  induction l generalizing a i s with
  | nil => exact absurd h (Nat.not_lt_zero i)
  | cons v l ih =>
    cases i with
    | zero => exact (byteAt_putArea_of_lt (Nat.lt_succ_self a) l (setByte a v s)).trans (byteAt_setByte_same a v s)
    | succ i =>
      have hrest := ih (Nat.lt_of_succ_lt_succ h) (a + 1) (setByte a v s)
      rwa [Nat.add_right_comm, Nat.add_assoc] at hrest

theorem byteAt_drawBytes_of_lt {a b : Nat} (h : b < a) (n : Nat) (s : State) : byteAt (drawBytes a n s) b = byteAt s b := by
  induction n generalizing a s with
  | zero => rfl
  | succ n ih => exact (ih (by omega) _).trans (byteAt_setByte_ne (by omega) _ _)

/-! ## The end of a command of the board controller's mailbox -/

/-- The result area of mailbox 4 as the end of a command leaves it, before the fields of its header. -/
def resultArea (res : List Byte) (s : State) : State :=
  s |> putArea (mbxBase 4 + 0x20) res
    |> drawBytes (mbxBase 4 + 0x20 + res.length) (s.get (mbxField 4 0x04 11 0) - res.length)

/-- DONE with code 0 in mailbox 4: the result, the header and the board controller's attention bit. -/
theorem mbxDone_bc_ok (op : Nat) (stamp : Stroke) (res : List Byte) (s : State) :
    mbxDone 4 op stamp 0 res s = ((((((resultArea res s).set (mbxField 4 0x10 11 0) res.length).set (mbxField 4 0x0C 23 16) 0).set
      (mbxField 4 0x18 31 0) s.nowLo).set (mbxState 4) 3).set Fld.MBX_BC_ATTN_MBX_DONE 1) := rfl

section mbxDoneBc
variable (op : Nat) (stamp : Stroke) (res : List Byte) (s : State)

theorem get_mbxDone_bc_state : (mbxDone 4 op stamp 0 res s).get (mbxState 4) = 3 := by
  rw [mbxDone_bc_ok, get_set_apart _ _ _ _ (by decide), get_set_same _ _ _ (by decide)]
  rfl

theorem get_mbxDone_bc_code : (mbxDone 4 op stamp 0 res s).get (mbxField 4 0x0C 23 16) = 0 := by
  rw [mbxDone_bc_ok, get_set_apart _ _ _ _ (by decide), get_set_apart _ _ _ _ (by decide), get_set_apart _ _ _ _ (by decide),
    get_set_same _ _ _ (by decide)]
  rfl

theorem get_mbxDone_bc_length : (mbxDone 4 op stamp 0 res s).get (mbxField 4 0x10 11 0) = res.length % 4096 := by
  rw [mbxDone_bc_ok, get_set_apart _ _ _ _ (by decide), get_set_apart _ _ _ _ (by decide), get_set_apart _ _ _ _ (by decide),
    get_set_apart _ _ _ _ (by decide), get_set_same _ _ _ (by decide)]
  rfl

theorem get_mbxDone_bc_stroke : (mbxDone 4 op stamp 0 res s).get (mbxField 4 0x18 31 0) = s.nowLo := by
  have hlow : s.nowLo < 2 ^ 32 := Nat.mod_lt _ (by decide)
  rw [mbxDone_bc_ok, get_set_apart _ _ _ _ (by decide), get_set_apart _ _ _ _ (by decide), get_set_same _ _ _ (by decide)]
  exact Nat.mod_eq_of_lt hlow

variable {res} in
/-- The result stands from offset 0x20 of the mailbox on. -/
theorem byteAt_mbxDone_bc {i : Nat} (hi : i < res.length) (hfits : res.length ≤ 4064) :
    byteAt (mbxDone 4 op stamp 0 res s) (mbxBase 4 + 0x20 + i) = res.getD i 0 := by
  have hbase : mbxBase 4 = 0x784000 := rfl
  have hfield (off hi lo : Nat) (hoff : off < 0x20) :
      mbxBase 4 + 0x20 + i - (mbxBase 4 + 0x20 + i) % 4 ≠ (mbxField 4 off hi lo).addr := by
    simp only [mbxField, hbase]
    omega
  have hattn : mbxBase 4 + 0x20 + i - (mbxBase 4 + 0x20 + i) % 4 ≠ Fld.MBX_BC_ATTN_MBX_DONE.addr := by
    simp only [hbase, Fld.MBX_BC_ATTN_MBX_DONE]
    omega
  rw [mbxDone_bc_ok, byteAt_set_ne hattn, mbxState, byteAt_set_ne (hfield _ _ _ (by decide)), byteAt_set_ne (hfield _ _ _ (by decide)),
    byteAt_set_ne (hfield _ _ _ (by decide)), byteAt_set_ne (hfield _ _ _ (by decide)), resultArea,
    byteAt_drawBytes_of_lt (by omega), byteAt_putArea hi]

end mbxDoneBc

/-- A command that a core may take is among those that are not done. -/
theorem mem_cmds_of_mayTake {mb core op : Nat} {x : Cmd} {s : State} (h : mayTake s mb core op = some x) : x ∈ s.cmds := by
  unfold mayTake at h
  split at h
  case h_1 y hy =>
    split at h
    · exact Option.some.inj h ▸ List.mem_of_find?_eq_some hy
    · exact absurd h (by simp)
  case h_2 => exact absurd h (by simp)

/-- ECHO, alone among the commands, ends in the mailbox it came from and no command is left. -/
theorem exec_echo_alone {mb : Fin 1032} {core : Fin 4} {x : Cmd} {s : State} (h : mayTake s mb core 0x0702 = some x)
    (halone : s.cmds.map (fun y => y.id) = [x.id]) (hkept : x.dropped = false) :
    exec (.echo mb core) s = .next (mbxDone x.mb x.op x.stamp 0 x.args ((takeCmd x core s).cmdsUpd fun _ => [])) := by
  obtain ⟨y, hy, -⟩ := List.map_eq_singleton_iff.mp halone
  have hxy : x = y := List.mem_singleton.mp (hy ▸ mem_cmds_of_mayTake h)
  have htaken : (takeCmd x core s).cmds = [{ x with core := some core.val }] := by
    rw [takeCmd_cmds, hy, ← hxy]
    simp
  have hfound : (takeCmd x core s).cmdId x.id = some { x with core := some core.val } := by
    rw [State.cmdId, htaken]
    simp
  have hnone : ((takeCmd x core s).cmdsUpd fun l => l.filter fun z => z.id != x.id) = (takeCmd x core s).cmdsUpd fun _ => [] := by
    simp only [State.cmdsUpd, htaken]
    simp
  change execEcho mb core s = _
  rw [execEcho, runCmd_taken h, cmdDone_of_cmdId hfound hkept, hnone]

/-- Settles O45: ECHO's end is that of every command of the mailbox, with the arguments as its result. -/
theorem commandResults : Obligations.CommandResults := by
  unfold Obligations.CommandResults
  intro core x args s h halone hmb hargs hlen hkept
  subst hargs
  have hx := exec_echo_alone (mb := 4) h halone hkept
  rw [hmb] at hx
  refine ⟨_, hx, get_mbxDone_bc_state _ _ _ _, get_mbxDone_bc_code _ _ _ _, ?_, get_mbxDone_bc_stroke _ _ _ _, ?_,
    now_of_only (only_of_exec hx) (of_decide_eq_true rfl), fun i hi => byteAt_mbxDone_bc _ _ _ (List.mem_range.mp hi) hlen⟩
  · exact (get_mbxDone_bc_length _ _ _ _).trans (Nat.mod_eq_of_lt (by omega))
  · rw [mbxDone_cmds]
    rfl

end Sys2Proof.Machine
end

section

/-! The marks of the fuse array (19 R461; 16 R407). -/

namespace Sys2Proof.Machine

/-- Only a stroke boundary lists the fuse array among the parts that it may change. -/
theorem fuses_notMem_mayChange {i : Instr} (hi : i ≠ .strokeBoundary) : Part.fuses ∉ mayChange i := by
  cases i with
  | strokeBoundary => exact absurd rfl hi
  | _ => exact of_decide_eq_true rfl

/-- Settles O6: the marks grow in every operation, and the fuse array is outside what the other commands may change. -/
theorem programmedFusesStayProgrammed : Obligations.ProgrammedFusesStayProgrammed := by
  unfold Obligations.ProgrammedFusesStayProgrammed
  refine ⟨fun s t h => ?_, fun i s t hi h => same_of_only (only_of_exec h) .fuses (fuses_notMem_mayChange hi)⟩
  cases hp : s.pending with
  | nil =>
    rw [step_idle hp] at h
    cases h
    exact List.Subset.refl _
  | cons c cs =>
    rw [step_front hp] at h
    exact (ends_exec c { s with pending := cs } t h).marks

end Sys2Proof.Machine
end

section

/-! Stroke timers, compare and alarm, GPIO, context events, coalescing and the delivery of MSI-X triggers (15 R368, R380 to R383;
17 R433; 04 R472). -/

namespace Sys2Proof.Machine

/-! ## Stroke timers, the stroke compare and the KS alarm (15 R368; 17 R433) -/

theorem get_set_of_addr_ne {f g : Field} (h : g.addr ≠ f.addr) (v : Nat) (s : State) : (s.set f v).get g = s.get g := get_setWord_ne _ _ h

theorem inRest_set_of_addr_ne {f : Field} (h : Fld.CRP_SLEEP_STATE.addr ≠ f.addr) (v : Nat) (s : State) : (s.set f v).inRest = s.inRest := by
  rw [State.inRest, get_set_of_addr_ne h, State.inRest]

/-- The raising of a source writes none of the timer registers. -/
theorem notMem_raiseRegs_timer {n a : Nat} (hn : n < 288) (ha : 0x700E00 ≤ a ∧ a < 0x701000) : a ∉ raiseRegs n := by
  simp only [raiseRegs, Adr.IC_PEND, Adr.KS_WAKE_LATCH_LO, Adr.KS_WAKE_LATCH_HI, Fld.PFS_STAT_MISSED, Fld.EV_MSIX_CNT_SENT,
    Fld.EV_DROP_D3COLD, Fld.EV_PME_PME_SENT, Fld.HL_LINK_STATUS_LSTATE, Fld.CTX_EVT_STATUS_EVT, Fld.MBX_BC_ATTN_MODE, List.mem_cons,
    List.not_mem_nil, or_false]
  omega

section strokeTimer
variable {v : Fin 4} {s : State} (hen : s.isSet (Fld.IC_TMR_CTL_EN v) = true) (hzero : s.get (Fld.IC_TMR_CNT_REMAIN v) = 0)
include hen hzero

theorem exec_strokeTimerExpiry_periodic (hper : s.isSet (Fld.IC_TMR_CTL_PERIODIC v) = true) : exec (.strokeTimerExpiry v) s =
    .next (raise (276 + v) (s.set (Fld.IC_TMR_CNT_REMAIN v) (s.get (Fld.IC_TMR_CTL_PERIOD v)))) := by
  change execStrokeTimerExpiry v s = _
  rw [execStrokeTimerExpiry, if_pos ⟨hen, hzero⟩, if_pos hper, done]

theorem exec_strokeTimerExpiry_single (hper : s.isSet (Fld.IC_TMR_CTL_PERIODIC v) = false) : exec (.strokeTimerExpiry v) s =
    .next (raise (276 + v) (s.set (Fld.IC_TMR_CTL_EN v) 0)) := by
  change execStrokeTimerExpiry v s = _
  rw [execStrokeTimerExpiry, if_pos ⟨hen, hzero⟩, if_neg (by simp [hper]), done]

end strokeTimer

/-- A field of a timer is left alone by the timer's source. -/
theorem get_raise_timer (v : Fin 4) {f : Field} (hf : f.addr = 0x700E00 + 8 * v ∨ f.addr = 0x700E04 + 8 * v) (s : State) :
    (raise (276 + v) s).get f = s.get f :=
  get_raise _ _ _ (notMem_raiseRegs_timer (by omega) (by omega))

/-- A periodic timer reloads its period and stays enabled. -/
theorem strokeTimerExpiry_reloads {v : Fin 4} {s : State} (hen : s.isSet (Fld.IC_TMR_CTL_EN v) = true)
    (hzero : s.get (Fld.IC_TMR_CNT_REMAIN v) = 0) (hper : s.isSet (Fld.IC_TMR_CTL_PERIODIC v) = true) (hrest : s.inRest = false) :
    Runs (.strokeTimerExpiry v) s fun t => t.get (Fld.IC_TMR_CNT_REMAIN v) = s.get (Fld.IC_TMR_CTL_PERIOD v) ∧
      t.isSet (Fld.IC_TMR_CTL_EN v) = true ∧ isPending t (276 + v.val) = true := by
  have hfits : (Fld.IC_TMR_CNT_REMAIN v).Fits := ⟨Nat.zero_le 23, show 23 < 32 by decide⟩
  have hwidth : s.get (Fld.IC_TMR_CTL_PERIOD v) < 2 ^ 24 := Nat.mod_lt _ (Nat.two_pow_pos 24)
  have hother : (Fld.IC_TMR_CTL_EN v).addr ≠ (Fld.IC_TMR_CNT_REMAIN v).addr := by
    simp only [Fld.IC_TMR_CTL_EN, Fld.IC_TMR_CNT_REMAIN]
    omega
  have hsleep : Fld.CRP_SLEEP_STATE.addr ≠ (Fld.IC_TMR_CNT_REMAIN v).addr := by
    simp only [Fld.CRP_SLEEP_STATE, Fld.IC_TMR_CNT_REMAIN]
    omega
  refine ⟨_, exec_strokeTimerExpiry_periodic hen hzero hper, ?_, ?_,
    isPending_raise (by omega) (by omega) ((inRest_set_of_addr_ne hsleep _ s).trans hrest)⟩
  · rw [get_raise_timer v (.inr rfl), get_set_same _ _ _ hfits]
    exact Nat.mod_eq_of_lt hwidth
  · rw [isSet_of_get ((get_raise_timer v (.inl rfl) _).trans (get_set_of_addr_ne hother _ s)), hen]

/-- A timer that is not periodic disables itself. -/
theorem strokeTimerExpiry_stops {v : Fin 4} {s : State} (hen : s.isSet (Fld.IC_TMR_CTL_EN v) = true)
    (hzero : s.get (Fld.IC_TMR_CNT_REMAIN v) = 0) (hper : s.isSet (Fld.IC_TMR_CTL_PERIODIC v) = false) (hrest : s.inRest = false) :
    Runs (.strokeTimerExpiry v) s fun t => t.isSet (Fld.IC_TMR_CTL_EN v) = false ∧ isPending t (276 + v.val) = true := by
  have hfits : (Fld.IC_TMR_CTL_EN v).Fits := ⟨Nat.le_refl 31, show 31 < 32 by decide⟩
  have hsleep : Fld.CRP_SLEEP_STATE.addr ≠ (Fld.IC_TMR_CTL_EN v).addr := by
    simp only [Fld.CRP_SLEEP_STATE, Fld.IC_TMR_CTL_EN]
    omega
  refine ⟨_, exec_strokeTimerExpiry_single hen hzero hper, ?_,
    isPending_raise (by omega) (by omega) ((inRest_set_of_addr_ne hsleep _ s).trans hrest)⟩
  rw [isSet_of_get (get_raise_timer v (.inl rfl) _), State.isSet, get_set_same _ _ _ hfits]
  rfl

/-- A one-bit field cleared before a source is raised that does not write it reads 0, and the source is pending. -/
theorem disarmed_raise {f : Field} {n : Nat} {s : State} (hfits : f.Fits) (hf : f.addr ∉ raiseRegs n) (hlow : 32 ≤ n) (hn : n < 288)
    (hsleep : Fld.CRP_SLEEP_STATE.addr ≠ f.addr) (hrest : s.inRest = false) :
    (raise n (s.set f 0)).isSet f = false ∧ isPending (raise n (s.set f 0)) n = true := by
  refine ⟨?_, isPending_raise hlow hn ((inRest_set_of_addr_ne hsleep 0 s).trans hrest)⟩
  rw [isSet_raise n _ f hf, State.isSet, get_set_same _ _ _ hfits, Nat.zero_mod]
  rfl

theorem exec_strokeCompareMatch_armed {s : State} (hen : s.isSet Fld.IC_STROKE_CMP_HI_EN = true)
    (hlo : s.get Fld.IC_STROKE_CMP_LO_STROKE_LO = s.nowLo) (hhi : s.get Fld.IC_STROKE_CMP_HI_STROKE_HI = s.nowHi) :
    exec .strokeCompareMatch s = .next (raise 280 (s.set Fld.IC_STROKE_CMP_HI_EN 0)) := by
  change execStrokeCompareMatch s = _
  rw [execStrokeCompareMatch, if_pos ⟨hen, hlo, hhi⟩, done]

theorem exec_ksAlarmMatch_armed {s : State} (hen : s.isSet Fld.KS_CTL_ALARM_EN = true) (htime : s.word Adr.KS_TIME = s.word Adr.KS_ALARM) :
    exec .ksAlarmMatch s = .next (raise 281 (s.set Fld.KS_CTL_ALARM_EN 0)) := by
  change execKsAlarmMatch s = _
  rw [execKsAlarmMatch, if_pos ⟨hen, htime⟩, done]

/-! ## GPIO (17 R433) -/

/-- The level of input `g` changed. -/
def gpioChanged (g : Nat) (s : State) : State := s.pwrUpd fun p => { p with gpio := p.gpio ^^^ (1#16 <<< g) }

theorem exec_gpioEdge_level {g : Fin 16} {rising : Bool} {s : State} (h : s.pwr.gpio.getLsbD g.val = rising) :
    exec (.gpioEdge g rising) s = .next s := by
  change execGpioEdge g rising s = _
  simp only [execGpioEdge, if_pos h, done]

theorem exec_gpioEdge_rising {g : Fin 16} {s : State} (h : s.pwr.gpio.getLsbD g.val = false) :
    exec (.gpioEdge g true) s = .next (doIf (bitOf (bitsOf (s.word Adr.KS_GPIO_EDGE).toNat (2 * g.val + 1) (2 * g.val)) 0)
      (fun s => s.set Fld.KS_GPIO_STATUS_SEEN (orBit (s.get Fld.KS_GPIO_STATUS_SEEN) g.val) |> raise 12) (gpioChanged g s)) := by
  change execGpioEdge g true s = _
  simp only [execGpioEdge, h, Bool.false_eq_true, if_false, if_true, done]
  rfl

theorem bitOf_orBit_mod (v : Nat) {b n : Nat} (hb : b < n) : bitOf (orBit v b % 2 ^ n) b = true := by
  rw [bitOf_eq_testBit, Nat.testBit_mod_two_pow, testBit_orBit_same]
  simpa using hb

theorem gpioEdge_seen {g : Fin 16} {s : State} (h : s.pwr.gpio.getLsbD g.val = false)
    (hsel : bitOf (bitsOf (s.word Adr.KS_GPIO_EDGE).toNat (2 * g.val + 1) (2 * g.val)) 0 = true) :
    Runs (.gpioEdge g true) s fun t => bitOf (t.get Fld.KS_GPIO_STATUS_SEEN) g.val = true := by
  refine ⟨_, exec_gpioEdge_rising h, ?_⟩
  rw [hsel, doIf_true]
  change bitOf ((raise 12 _).get _) _ = true
  rw [get_raise _ _ _ (by decide), get_set_same _ _ _ (by decide)]
  exact bitOf_orBit_mod _ g.isLt

/-! ## Context events (15 R380) -/

/-- The registers that the delivery of a trigger may write, no event register of a context among them. -/
def triggerRegs : List Nat :=
  [Adr.IC_PEND 0, Adr.KS_WAKE_LATCH_LO, Adr.KS_WAKE_LATCH_HI, Fld.PFS_STAT_MISSED.addr, Fld.EV_MSIX_CNT_SENT.addr, Fld.EV_DROP_D3COLD.addr,
   Fld.EV_PME_HELD.addr, Fld.HL_LINK_STATUS_LSTATE.addr]

theorem regsOnly_triggerRegs_leaveL1 {r s : State} (h : RegsOnly triggerRegs r s) : RegsOnly triggerRegs r (leaveL1 s) := by
  have hedge (u : State) (hu : RegsOnly triggerRegs r u) : RegsOnly triggerRegs r (raiseEdge 24 u) :=
    regsOnly_trans hu (regsOnly_mono (regsOnly_edge 24 u) (by decide))
  have hset := regsOnly_set (f := Fld.HL_LINK_STATUS_LSTATE) h (l0State s) (by decide)
  have hback := regsOnly_backToL0 (regsOnly_hl hset { s.hl with sub := 0 })
  unfold leaveL1
  split
  · exact hedge _ (regsOnly_doIf hback hedge)
  · exact h

theorem regsOnly_triggerRegs_holdMsix (c v : Nat) {r s : State} (h : RegsOnly triggerRegs r s) :
    RegsOnly triggerRegs r (holdMsix c v none s) := by
  have hheld : RegsOnly triggerRegs r (doIf (!(s.heldOf c).getLsbD v) (fun x => x.inc Fld.EV_PME_HELD 1) s) :=
    regsOnly_doIf h fun u hu => regsOnly_inc hu _ (by decide)
  have hpme (u : State) (hu : RegsOnly triggerRegs r u) : RegsOnly triggerRegs r (sendPme c u) := by
    unfold sendPme
    refine regsOnly_fnUpd (regsOnly_inc ?_ _ (by decide)) _ _
    split
    · exact regsOnly_devUpd hu _
    · exact regsOnly_emit hu _
  have hsignal (u : State) (hu : RegsOnly triggerRegs r u) : RegsOnly triggerRegs r (signalPme c u) := by
    unfold signalPme
    split
    · exact hu
    · exact regsOnly_doIf (regsOnly_fnUpd hu _ _) hpme
  exact hsignal _ (regsOnly_eq hheld rfl)

theorem regsOnly_triggerRegs_trigger (c v : Nat) {r s : State} (h : RegsOnly triggerRegs r s) : RegsOnly triggerRegs r (trigger c v none s) := by
  have hmsix (u : State) (hu : RegsOnly triggerRegs r u) : RegsOnly triggerRegs r (sendMsix c v none u) := by
    unfold sendMsix
    split <;> exact hu
  unfold trigger
  split
  · exact regsOnly_inc h _ (by decide)
  split
  · exact regsOnly_inc h _ (by decide)
  split
  · exact regsOnly_inc h _ (by decide)
  split
  · exact regsOnly_triggerRegs_holdMsix c v h
  split
  · exact regsOnly_eq h rfl
  split
  · exact regsOnly_eq h rfl
  · exact hmsix _ (regsOnly_triggerRegs_leaveL1 h)

theorem evt_notMem_triggerRegs (c : Nat) : (Fld.CTX_EVT_STATUS_EVT c).addr ∉ triggerRegs := by
  simp only [triggerRegs, Adr.IC_PEND, Adr.KS_WAKE_LATCH_LO, Adr.KS_WAKE_LATCH_HI, Fld.PFS_STAT_MISSED, Fld.EV_MSIX_CNT_SENT,
    Fld.EV_DROP_D3COLD, Fld.EV_PME_HELD, Fld.HL_LINK_STATUS_LSTATE, Fld.CTX_EVT_STATUS_EVT, List.mem_cons, List.not_mem_nil, or_false]
  omega

/-- An event of a context sets its bit, which its message leaves. -/
theorem bitOf_ctxEvent (c : Nat) {b : Nat} (hb : b < 8) (s : State) : bitOf ((ctxEvent c b s).get (Fld.CTX_EVT_STATUS_EVT c)) b = true := by
  have hfits : (Fld.CTX_EVT_STATUS_EVT c).Fits := ⟨Nat.zero_le 7, show 7 < 32 by decide⟩
  unfold ctxEvent
  simp only
  split
  case isTrue hset => exact hset
  case isFalse =>
    rw [regsOnly_get (regsOnly_doIf (regsOnly_refl triggerRegs _) fun u hu => regsOnly_triggerRegs_trigger c _ hu)
      (evt_notMem_triggerRegs c), get_set_same _ _ _ hfits]
    exact bitOf_orBit_mod _ hb

/-! ## Coalescing (15 R381) -/

theorem exec_cqEvtCfgWrite_open {c : Fin 1024} {q : Fin 64} {v : Word} {s : State} (h : HostTurn s c) (hfull : s.ds.full = false)
    (henabled : ((hostNoted s).fn c).enabled = true) :
    exec (.cqEvtCfgWrite c q v) s = .next { hostNoted s with deferred := s.deferred ++ [.cqEvt c q v] } := by
  change execCqEvtCfgWrite c q v s = _
  rw [execCqEvtCfgWrite, hostPosted_of_hostOpen h.1 hfull, inOrder_of_hostTurn h, cqEvtWrite, henabled, doIf_true, done]
  rfl

/-! ## The delivery of a trigger (15 R383, Table 15-7) -/

section delivery
variable {c : Fin 1024} {v : Fin 64} {s : State}

theorem exec_msixTriggerDelivery : exec (.msixTriggerDelivery c v) s = .next (trigger c v none s) := rfl

variable (hlink : s.linkLost = false) (hen : (s.fn c).msixEn = true) (hbacked : v.val < s.vectorsOf c)
include hlink hen hbacked

/-- A backed vector of a function with MSI-X goes through the rows on the function's state. -/
theorem trigger_backed : trigger c v none s =
    if msixHeld s c then holdMsix c v none s
    else if ¬ (s.fn c).bme then setPbaBit c v s
    else if (s.fn c).fmask || (s.msixAt c v).ctl.getLsbD 0 then setPbaBit c v s
    else sendMsix c v none (leaveL1 s) := by
  simp [trigger, hlink, hen, Nat.not_le.mpr hbacked, countCqEvt]

theorem trigger_held (hheld : msixHeld s c = true) : trigger c v none s = holdMsix c v none s := by
  rw [trigger_backed hlink hen hbacked, if_pos hheld]

theorem trigger_noMaster (hfree : msixHeld s c = false) (hbme : (s.fn c).bme = false) : trigger c v none s = setPbaBit c v s := by
  rw [trigger_backed hlink hen hbacked, if_neg (by simp [hfree]), if_pos (by simp [hbme])]

theorem trigger_masked (hfree : msixHeld s c = false) (hbme : (s.fn c).bme = true) (hmask : (s.msixAt c v).ctl.getLsbD 0 = true) :
    trigger c v none s = setPbaBit c v s := by
  rw [trigger_backed hlink hen hbacked, if_neg (by simp [hfree]), if_neg (by simp [hbme]), if_pos (by rw [hmask, Bool.or_true])]

/-- An MSI-X write becomes due where the link is not in L1 and none of the vector is due yet. -/
theorem trigger_sent (hfree : msixHeld s c = false) (hbme : (s.fn c).bme = true) (hfmask : (s.fn c).fmask = false)
    (hmask : (s.msixAt c v).ctl.getLsbD 0 = false) (hl1 : s.get Fld.HL_LINK_STATUS_LSTATE ≠ 4) (hnew : (c.val, v.val, none) ∉ s.msixDue) :
    trigger c v none s = { s with msixDue := s.msixDue ++ [(c.val, v.val, none)] } := by
  rw [trigger_backed hlink hen hbacked, if_neg (by simp [hfree]), if_neg (by simp [hbme]), if_neg (by rw [hfmask, hmask]; exact Bool.false_ne_true), leaveL1,
    if_neg hl1, sendMsix, if_neg hnew]

end delivery

theorem heldOf_signalPme (c : Nat) (s : State) : (signalPme c s).held = s.held :=
  (keeps_signalPme (w := 0x1029) c rfl (keeps_refl _ s)).same .held rfl

theorem msixDue_holdMsix (c v : Nat) (s : State) : (holdMsix c v none s).msixDue = s.msixDue :=
  (keeps_holdMsix (w := 0x11A9) c v none rfl (keeps_refl _ s)).same .msixDue rfl

/-- A held trigger sets the vector's held mark. -/
theorem getLsbD_heldOf_holdMsix (c : Nat) {v : Nat} (hv : v < 64) (s : State) : ((holdMsix c v none s).heldOf c).getLsbD v = true := by
  rw [holdMsix, State.heldOf, heldOf_signalPme]
  simp [State.setHeld, hv]

/-! ## MSI-X writes that are due (15 R382; 04 R472) -/

section msixOutSingle
variable {c v : Nat} {q : Option Nat} {s : State} (hdue : s.msixDue = [(c, v, q)]) (hup : s.isSet Fld.HL_LINK_STATUS_DL_UP = true)
  (hl0 : s.get Fld.HL_LINK_STATUS_LSTATE ≠ 3) (hfree : msixHeld s c = false)
include hdue hup hl0 hfree

/-- The one MSI-X write due, on a link that is up and not in Recovery, of a function that is not held, goes by Bus Master Enable. -/
theorem msixOut_single : msixOut s =
    if ¬ (s.fn c).bme then setPbaBit c v { s with msixDue := [] } else msixNow c v (leaveL1 { s with msixDue := [] }) := by
  have hup' : ({ s with msixDue := [] } : State).isSet Fld.HL_LINK_STATUS_DL_UP = true := hup
  have hfree' : msixHeld { s with msixDue := [] } c = false := hfree
  rw [msixOut, if_neg fun h => hl0 h.1, hdue]
  simp only [List.map_cons, List.map_nil, List.eraseDups_cons, List.filter_nil, List.eraseDups_nil, doAll, List.foldl_cons, List.foldl_nil,
    hup', hfree', Bool.false_eq_true, if_false, not_true_eq_false]
  rfl

theorem msixOut_noMaster (hbme : (s.fn c).bme = false) : msixOut s = setPbaBit c v { s with msixDue := [] } := by
  rw [msixOut_single hdue hup hl0 hfree, if_pos (by simp [hbme])]

theorem msixOut_master (hbme : (s.fn c).bme = true) (hl1 : s.get Fld.HL_LINK_STATUS_LSTATE ≠ 4) :
    msixOut s = msixNow c v { s with msixDue := [] } := by
  have hl1' : ¬ ({ s with msixDue := [] } : State).get Fld.HL_LINK_STATUS_LSTATE = 4 := hl1
  rw [msixOut_single hdue hup hl0 hfree, if_neg (by simp [hbme]), leaveL1, if_neg hl1']

end msixOutSingle

/-- What leaves, and its count. -/
theorem msixNow_sends (c v : Nat) (s : State) :
    (msixNow c v s).out = .msix c v (s.msixAt c v).addr (s.msixAt c v).data (steeringTag s c v) :: s.out ∧
      (msixNow c v s).msixDue = s.msixDue ∧
      (msixNow c v s).get Fld.EV_MSIX_CNT_SENT = min Fld.EV_MSIX_CNT_SENT.max (s.get Fld.EV_MSIX_CNT_SENT + 1) :=
  ⟨rfl, rfl, get_inc_same _ _ _ (by decide)⟩

/-! ## Unmasking (15 R379, R383) -/

theorem msix_sendPendingVector (c v : Nat) (s : State) : (sendPendingVector c v s).msix = s.msix :=
  (keeps_sendPendingVector (w := 0x280) c v rfl (keeps_refl _ s)).same .msix rfl

theorem exec_msixVectorUnmask_open {c : Fin 1024} {v : Fin 64} {s : State} (h : HostTurn s c) (hfull : s.ds.full = false) :
    exec (.msixVectorUnmask c v) s = .next (unmask c v (hostNoted s)) := by
  change execMsixVectorUnmask c v s = _
  rw [execMsixVectorUnmask, hostPosted_of_hostOpen h.1 hfull, inOrder_of_hostTurn h, done]

theorem msixAt_unmask {c v : Nat} {s : State} (hbacked : v < s.vectorsOf c) :
    (unmask c v s).msixAt c v = { s.msixAt c v with ctl := (s.msixAt c v).ctl &&& ~~~1#32 } := by
  rw [unmask, if_pos hbacked, State.msixAt, msix_sendPendingVector]
  simp [State.setMsix]

/-- Settles O43: each timer and match by its two writes, each row of Table 15-7 as a branch of the trigger, the write of a due MSI-X by
the function's Bus Master Enable. -/
theorem timersEventsAndMsix : Obligations.TimersEventsAndMsix := by
  unfold Obligations.TimersEventsAndMsix
  refine ⟨fun _ _ => strokeTimerExpiry_reloads, fun _ _ => strokeTimerExpiry_stops, ?compare, ?alarm, fun _ _ _ => exec_gpioEdge_level,
    ?unselected, fun _ _ => gpioEdge_seen, ?event, ?noEvent, ?coalescing, fun _ _ _ _ => exec_cqEvtCfgWrite_open, ?full, ?lost, ?disabled,
    ?beyond, ?noMaster, ?held, ?masked, ?sent, ?out, ?pending, ?unmask, ?unbacked⟩
  case compare =>
    intro s hen hlo hhi hrest
    exact ⟨_, exec_strokeCompareMatch_armed hen hlo hhi, disarmed_raise (by decide) (by decide) (by decide) (by decide) (by decide) hrest⟩
  case alarm =>
    intro s hen htime hrest
    exact ⟨_, exec_ksAlarmMatch_armed hen htime, disarmed_raise (by decide) (by decide) (by decide) (by decide) (by decide) hrest⟩
  case unselected =>
    intro g s h hsel
    rw [exec_gpioEdge_rising h, hsel]
    rfl
  case event =>
    intro c b s h
    exact ⟨_, congrArg Host.Outcome.next (if_pos h), bitOf_ctxEvent c b.isLt s⟩
  case noEvent =>
    intro c b s hb hc
    exact congrArg Host.Outcome.next (if_neg (not_or.mpr ⟨hb, hc⟩))
  case coalescing =>
    intro c q s hrun hzero
    exact congrArg Host.Outcome.next (if_pos ⟨hrun, hzero⟩)
  case full =>
    intro c q v s hfull
    exact congrArg Host.Outcome.next (if_pos hfull)
  case lost =>
    intro c v s hlost
    exact congrArg Host.Outcome.next (if_pos hlost)
  case disabled =>
    intro c v s hlink hen
    rw [exec_msixTriggerDelivery, trigger, if_neg (by simp [hlink]), if_pos (by simp [hen])]
  case beyond =>
    intro c v s hlink hen hbeyond
    rw [exec_msixTriggerDelivery, trigger, if_neg (by simp [hlink]), if_neg (by simp [hen]), if_pos hbeyond]
  case noMaster =>
    intro c v s hlink hen hbacked hfree hbme
    rw [exec_msixTriggerDelivery, trigger_noMaster hlink hen hbacked hfree hbme]
  case held =>
    intro c v s hlink hen hbacked hheld
    refine ⟨_, exec_msixTriggerDelivery, ?_⟩
    rw [trigger_held hlink hen hbacked hheld]
    exact ⟨getLsbD_heldOf_holdMsix c v.isLt s, msixDue_holdMsix c v s⟩
  case masked =>
    intro c v s hlink hen hbacked hfree hbme _ hmask
    rw [exec_msixTriggerDelivery, trigger_masked hlink hen hbacked hfree hbme hmask]
  case sent =>
    intro c v s hlink hen hbacked hfree hbme hfmask hmask hl1 hnew
    rw [exec_msixTriggerDelivery, trigger_sent hlink hen hbacked hfree hbme hfmask hmask hl1 hnew]
  case out =>
    intro c v q s hdue hup hl0 hl1 hfree hbme
    rw [msixOut_master hdue hup hl0 hfree hbme hl1]
    exact msixNow_sends c v { s with msixDue := [] }
  case pending =>
    intro c v q s hdue hup hl0 hfree hbme
    exact msixOut_noMaster hdue hup hl0 hfree hbme
  case unmask =>
    intro c v s h hfull hbacked
    have hx := exec_msixVectorUnmask_open (v := v) h hfull
    have ho := only_of_exec hx
    refine ⟨_, hx, msixAt_unmask hbacked, ds_of_only ho ?_ ?_ ?_, same_of_only ho .fuses ?_⟩ <;> exact of_decide_eq_true rfl
  case unbacked =>
    intro c v s h hfull hbeyond
    rw [exec_msixVectorUnmask_open h hfull, unmask, if_neg (Nat.not_lt.mpr hbeyond)]

end Sys2Proof.Machine
end

section

/-! What the raising of a source leaves of a part of State that only the edge of a source touches (15 R366, R380). -/

namespace Sys2Proof.Machine

/-- A view of State that neither events, messages and triggers of a source nor its edge change. -/
structure Unraised {α : Type} (g : State → α) : Prop where
  other : ∀ {s t : State}, Keeps 0x213AB s t → g t = g s
  edge : ∀ (n : Nat) (s : State), g (raiseEdge n s) = g s

namespace Unraised
variable {α : Type} {g : State → α} (hg : Unraised g)
include hg

theorem set (f : Field) (v : Nat) (s : State) : g (s.set f v) = g s := hg.other (keeps_set f v rfl (keeps_refl _ s))

theorem leaveL1 (s : State) : g (Machine.leaveL1 s) = g s := by
  unfold Machine.leaveL1
  split
  · rw [hg.edge, doIf_same g _ _ (hg.edge 24), hg.other (keeps_backToL0 rfl (keeps_refl _ _))]
    exact (hg.other (keeps_hlUpd (fun h => { h with sub := 0 }) rfl (keeps_refl _ _))).trans (hg.set _ _ s)
  · rfl

theorem trigger (c v : Nat) (s : State) : g (Machine.trigger c v none s) = g s := by
  have hinc (f : Field) (u : State) : g (u.inc f 1) = g u := hg.other (keeps_inc f 1 rfl (keeps_refl _ u))
  have hpba (u : State) : g (setPbaBit c v u) = g u := hg.other (keeps_setPbaBit c v rfl (keeps_refl _ u))
  unfold Machine.trigger
  split
  · exact hinc _ s
  split
  · exact hinc _ s
  split
  · exact hinc _ s
  split
  · exact hg.other (keeps_holdMsix c v none rfl (keeps_refl _ s))
  split
  · exact hpba s
  split
  · exact hpba s
  · exact (hg.other (keeps_sendMsix c v none rfl (keeps_refl _ _))).trans (hg.leaveL1 s)

theorem ctxEvent (c b : Nat) (s : State) : g (Machine.ctxEvent c b s) = g s := by
  unfold Machine.ctxEvent
  dsimp only
  split
  · rfl
  · rw [doIf_same g _ _ (hg.trigger c _), hg.set]

theorem raise (n : Nat) (s : State) : g (Machine.raise n s) = g s := by
  have hbc (f : Field) (u : State) : g (bcAttn f u) = g u := hg.set f 1 u
  unfold Machine.raise
  rw [doIf_same g _ _ (hbc _), doIf_same g _ _ (hbc _), doIf_same g _ _ (hg.ctxEvent 0 7), doIf_same g, doIf_same g, hg.edge]
  · exact fun u => (hbc _ _).trans (hg.ctxEvent 0 5 u)
  · exact fun u => (hbc _ _).trans (hg.ctxEvent 0 6 u)

end Unraised

/-- The notes of levels and sleep but for the wake event of a sleep. -/
def sleepNotes (s : State) : Pwr := { s.pwr with wake := none }

theorem sleepNotes_leaving (s : State) : (sleepNotes s).leaving = s.pwr.leaving := rfl

theorem sleepNotes_busyAt (s : State) : (sleepNotes s).busyAt = s.pwr.busyAt := rfl

theorem sleepNotes_ringAt (s : State) : (sleepNotes s).ringAt = s.pwr.ringAt := rfl

theorem sleepNotes_of_pwr {s t : State} (h : t.pwr = s.pwr) : sleepNotes t = sleepNotes s := by rw [sleepNotes, h, sleepNotes]

theorem sleepNotes_noteWake (n : Nat) (s : State) : sleepNotes (noteWake n s) = sleepNotes s := by
  unfold noteWake
  split <;> rfl

theorem sleepNotes_raiseEdge (n : Nat) (s : State) : sleepNotes (raiseEdge n s) = sleepNotes s := by
  have hwake (c : Bool) : sleepNotes (doIf c (noteWake n) s) = sleepNotes s := doIf_same sleepNotes c s (sleepNotes_noteWake n)
  have hpfs (u : State) : sleepNotes (pfsTrigger 2 u) = sleepNotes u :=
    sleepNotes_of_pwr ((keeps_pfsTrigger (w := 0x100000C00B) 2 rfl (keeps_refl _ u)).same .pwr rfl)
  unfold raiseEdge
  dsimp only
  rw [doIf_same sleepNotes _ _ hpfs]
  split
  · split
    · split <;> exact hwake _
    · exact hwake _
  · exact hwake _

/-- Raising a source may note the wake event of a sleep and no more of the levels and sleep. -/
theorem unraised_sleepNotes : Unraised sleepNotes := ⟨fun h => sleepNotes_of_pwr (h.same .pwr rfl), sleepNotes_raiseEdge⟩

end Sys2Proof.Machine
end

section

/-! Freewheel, Rest, wake events and exits (17 R420 to R428). -/

namespace Sys2Proof.Machine

/-! ## Freewheel (17 R420, R421) -/

theorem exec_freewheelEntry_entering {s : State} (h : s.sleepState = 1) : exec .freewheelEntry s =
    .next ((doAll ([0, 1, 2, 3].filter fun k => ulActive s k && s.get (Fld.UL_STATUS_LPM k) == 0 && (s.link k).lpmAsk.isNone)
      (fun k => lpmRequest k 1) s).set Fld.CRP_SLEEP_STATE 2) := congrArg Host.Outcome.next (if_pos h)

/-- Coast or Park left writes the link's status and raises a source of the link. -/
theorem get_lpmLeave {f : Field} {k : Nat} (row : Nat) (s : State) (hlink : f.addr ≠ (Fld.UL_STATUS_LPM k).addr)
    (hraise : f.addr ∉ raiseRegs (104 + 12 * k + 9)) : (lpmLeave k row s).get f = s.get f := by
  have hmarker (u : State) : (markerRow k row u).regs = u.regs := (keeps_markerRow (w := 0x1000000001) k row rfl (keeps_refl _ u)).same .regs rfl
  have hlate (u : State) : (sendLate k u).regs = u.regs := (keeps_sendLate (w := 0x1000008003) k rfl (keeps_refl _ u)).same .regs rfl
  rw [lpmLeave, ulRaise, get_raise _ _ _ hraise, get_of_regs (hlate _), linkUpd_get, emit_get, get_of_regs (hmarker _), get_set_of_addr_ne hlink]

theorem sleepNotes_lpmLeave (k row : Nat) (s : State) : sleepNotes (lpmLeave k row s) = sleepNotes s := by
  have hmarker (u : State) : (markerRow k row u).pwr = u.pwr := (keeps_markerRow (w := 0x1000000001) k row rfl (keeps_refl _ u)).same .pwr rfl
  have hlate (u : State) : (sendLate k u).pwr = u.pwr := (keeps_sendLate (w := 0x1000008003) k rfl (keeps_refl _ u)).same .pwr rfl
  rw [lpmLeave, ulRaise, unraised_sleepNotes.raise]
  exact sleepNotes_of_pwr (by rw [hlate, linkUpd_pwr, emit_pwr, hmarker, set_pwr])

theorem doAll_lpmLeave_sleepNotes (l : List Nat) (row : Nat) (s : State) :
    sleepNotes (doAll l (fun k => lpmLeave k row) s) = sleepNotes s := doAll_same sleepNotes l s fun k u => sleepNotes_lpmLeave k row u

/-- The state in which the exit from Freewheel ends, before its source is raised. -/
def freewheelLeft (s : State) : State :=
  (doAll ([0, 1, 2, 3].filter fun k => s.get (Fld.UL_STATUS_LPM k) == 1) (fun k => lpmLeave k 0) s).set Fld.CRP_SLEEP_STATE 0
    |>.pwrUpd fun p => { p with wake := none, leaving := 0 }

theorem exec_freewheelExit_leaving {s : State} (h : s.sleepState = 5) (hleaving : s.pwr.leaving = 1) :
    exec .freewheelExit s = .next (raise 14 (freewheelLeft s)) := by
  change execFreewheelExit s = _
  rw [execFreewheelExit, if_pos ⟨h, hleaving⟩, done, freewheelLeft]

theorem sleepNotes_freewheelLeft (s : State) : sleepNotes (freewheelLeft s) = { s.pwr with wake := none, leaving := 0 } := by
  have hlinks := doAll_lpmLeave_sleepNotes ([0, 1, 2, 3].filter fun k => s.get (Fld.UL_STATUS_LPM k) == 1) 0 s
  rw [sleepNotes, sleepNotes] at hlinks
  rw [sleepNotes, freewheelLeft, pwrUpd_pwr, set_pwr]
  exact congrArg (fun p : Pwr => { p with leaving := 0 }) hlinks

/-- The sleep state written last is what a source raised then leaves. -/
theorem sleepState_raise (n : Nat) (s : State) : (raise n s).sleepState = s.sleepState := get_of_steady (steady_raise n s) (by decide)

theorem exec_idleSleepOrder_idle {s : State} (hset : s.isSet Fld.CRP_LEVEL_IDLE_SLEEP = true) (hawake : s.awake = true)
    (hmay : maySleep s = true) (hnone : noDescs s = true) (hidle : 2000 ≤ s.since s.pwr.busyAt)
    (hruns : ([0, 1, 2, 3].any (coreRuns s)) = true) : exec .idleSleepOrder s = .next (s.pwrUpd fun p => { p with fwWant := some .sleep }) :=
  congrArg Host.Outcome.next (if_pos ⟨hset, hawake, hmay, hnone, hidle, hruns⟩)

/-! ## Entry to Rest (17 R423) -/

section lowWord
variable {a : Nat} (ha : a < 0x300000)
include ha

theorem word_set_high {f : Field} (hf : 0x300000 ≤ f.addr) (v : Nat) (s : State) : (s.set f v).word a = s.word a :=
  word_set_ne _ _ _ (by omega)

/-- A partial frame is counted and recorded in the registers of the bridge. -/
theorem word_countDrop_partial (p info route : Nat) (s : State) : (countDrop p 6 1 info route s).word a = s.word a := by
  have hcounter : 0x300000 ≤ (dropCounter p 6).addr := by
    simp only [dropCounter, Fld.MSG_DROP_CNT2_PARTIAL]
    omega
  have hset (f : Field) (hf : 0x300000 ≤ f.addr) (v : Nat) (u : State) : (u.set f v).word a = u.word a := word_set_high ha hf v u
  rw [countDrop, show ((6 == 3 || 6 == 4 || 6 == 5) && bitOf route 63 && !routePeer route) = false from rfl, doIf,
    if_neg Bool.false_ne_true, hset _ (by decide), hset _ (by decide), hset _ (by decide), hset _ (by decide), hset _ (by decide),
    hset _ (by decide), State.inc, hset _ hcounter]

theorem word_updBuf (p : Nat) (s : State) : (updBuf p s).word a = s.word a := by
  have hused : 0x300000 ≤ (Fld.MSG_BUF_USED p).addr := by
    simp only [Fld.MSG_BUF_USED]
    omega
  have hpeak : 0x300000 ≤ (Fld.MSG_BUF_HWM p).addr := hused
  unfold updBuf State.peak
  dsimp only
  split
  · rw [word_set_high ha hpeak, word_set_high ha hused]
  · exact word_set_high ha hused _ s

theorem word_framePartial (p : Nat) (s : State) : (framePartial p s).word a = s.word a := by
  unfold framePartial
  split
  · rfl
  · rw [word_updBuf ha, doIf_same (State.word · a) _ _ (word_countDrop_partial ha p _ _), lbUpd_word]

/-- Holding a port writes the registers of the port and of the bridge. -/
theorem word_portHold (p : Nat) (s : State) : (portHold p s).word a = s.word a := by
  have hstate : 0x300000 ≤ (Fld.LB_STATUS_STATE p).addr := by
    simp only [Fld.LB_STATUS_STATE]
    omega
  unfold portHold
  split
  · rw [lbUpd_word, word_framePartial ha, portTo, emit_word, devUpd_word, lbUpd_word, word_set_high ha hstate]
  · rfl

end lowWord

/-- The state in which the entry to Rest has begun and cleared the wake latches. -/
def restBegun (s : State) : State :=
  ((s.pwrUpd fun p => { p with begun := true }).setWord Adr.KS_WAKE_LATCH_LO 0).setWord Adr.KS_WAKE_LATCH_HI 0

/-- Links are asked for Park and the ports held. -/
def restLinks (l : List Nat) (s : State) : State := doAll [0, 1, 2, 3] portHold (doAll l (fun k => lpmRequest k 2) s)

theorem word_restLinks {a : Nat} (ha : a < 0x300000) (l : List Nat) (s : State) : (restLinks l s).word a = s.word a := by
  have hask (k : Nat) (u : State) : (lpmRequest k 2 u).word a = u.word a :=
    (regsOnly_sendBypass (l := []) k 10 _ (regsOnly_refl _ _)) a List.not_mem_nil
  exact (doAll_same (State.word · a) _ _ fun p u => word_portHold ha p u).trans (doAll_same (State.word · a) l s hask)

theorem pwr_restLinks (l : List Nat) (s : State) : (restLinks l s).pwr = s.pwr := by
  have hhold (p : Nat) (u : State) : (portHold p u).pwr = u.pwr := (keeps_portHold (w := 0x181009) p rfl (keeps_refl _ u)).same .pwr rfl
  have hask (k : Nat) (u : State) : (lpmRequest k 2 u).pwr = u.pwr :=
    (keeps_lpmRequest (w := 0x1000008003) k 2 rfl (keeps_refl _ u)).same .pwr rfl
  exact (doAll_same State.pwr _ _ hhold).trans (doAll_same State.pwr l s hask)

/-- With the host link down the entry asks the ACTIVE links outside Park for it, and holds the ports. -/
theorem exec_restEntry_begins {l1 : Bool} {s : State} (h : s.sleepState = 3) (hbegun : s.pwr.begun = false) (hdown : s.linkUp = false) :
    exec (.restEntry l1) s = .next ((restLinks ([0, 1, 2, 3].filter fun k => ulActive s k && s.get (Fld.UL_STATUS_LPM k) != 2)
      (restBegun s)).set Fld.DRC_STATUS_SELF_REFRESH 1) := by
  change execRestEntry l1 s = _
  rw [execRestEntry, if_pos ⟨h, by simp [hbegun]⟩, hdown, done, restLinks, restBegun]
  rfl

theorem restEntry_begins {l1 : Bool} {s : State} (h : s.sleepState = 3) (hbegun : s.pwr.begun = false) (hdown : s.linkUp = false) :
    Runs (.restEntry l1) s fun t => t.get Fld.DRC_STATUS_SELF_REFRESH = 1 ∧ t.pwr.begun = true ∧ t.word Adr.KS_WAKE_LATCH_LO = 0 ∧
      t.word Adr.KS_WAKE_LATCH_HI = 0 := by
  refine ⟨_, exec_restEntry_begins h hbegun hdown, get_set_same _ _ _ (by decide), ?_, ?_, ?_⟩
  · rw [set_pwr, pwr_restLinks, restBegun, setWord_pwr, setWord_pwr]
    rfl
  · rw [word_set_ne _ _ _ (by decide), word_restLinks (by decide), restBegun, word_setWord_ne _ _ (by decide), word_setWord_same]
  · rw [word_set_ne _ _ _ (by decide), word_restLinks (by decide), restBegun, word_setWord_same]

/-- Rest with the PLLs of the gated domains unlocked. -/
def restEntered (s : State) : State :=
  (((((s.set Fld.CRP_SLEEP_STATE 4).set Fld.CRP_CLK_CPU_LOCK 0).set Fld.CRP_CLK_HUB_LOCK 0).set Fld.CRP_CLK_SYS_LOCK 0).set
    Fld.CRP_CLK_DRAM_LOCK 0).set Fld.CRP_CLK_LB_LOCK 0

theorem exec_restEntryComplete_begun {s : State} (h : s.sleepState = 3) (hbegun : s.pwr.begun = true) :
    exec .restEntryComplete s = .next (restEntered s) := by
  change execRestEntryComplete s = _
  rw [execRestEntryComplete, if_pos ⟨h, hbegun⟩, done, restEntered]

theorem restEntered_rests (s : State) :
    (restEntered s).inRest = true ∧ (restEntered s).get Fld.CRP_CLK_SYS_LOCK = 0 ∧ (restEntered s).now = s.now := by
  refine ⟨?_, ?_, ?_⟩
  · rw [State.inRest, restEntered, get_set_of_addr_ne (by decide), get_set_of_addr_ne (by decide), get_set_of_addr_ne (by decide),
      get_set_of_addr_ne (by decide), get_set_of_addr_ne (by decide), get_set_same _ _ _ (by decide)]
    rfl
  · rw [restEntered, get_set_apart _ _ _ _ (by decide), get_set_apart _ _ _ _ (by decide), get_set_same _ _ _ (by decide)]
    rfl
  · rw [restEntered, set_now, set_now, set_now, set_now, set_now, set_now]

/-! ## Wake events (17 R427, R428) -/

/-- KS_LAST_WAKE and its time as the exit for source `n` records them, `kind` being the state that is left. -/
def wakeRecorded (n : Nat) (entry : Bool) (kind : Nat) (time : Word) (s : State) : State :=
  (((((s.setWord Adr.KS_LAST_WAKE 0).set Fld.KS_LAST_WAKE_VALID 1).set Fld.KS_LAST_WAKE_DURING_ENTRY entry.toNat).set Fld.KS_LAST_WAKE_FROM
    kind).set Fld.KS_LAST_WAKE_SOURCE n).set Fld.KS_LAST_WAKE_INDEX ((wakeIndex n).getD 0) |>.setWord Adr.KS_LAST_WAKE_TS time

theorem exec_wakeEvent_noted {n : Nat} {entry : Bool} {s : State} (hwake : s.pwr.wake = some (n, entry))
    (hstate : s.sleepState = 2 ∨ s.sleepState = 4) :
    exec .wakeEvent s = .next (wakeRecorded n entry (sleepKind s) (s.word Adr.KS_TIME) (sleepExit s)) := by
  change execWakeEvent s = _
  simp only [execWakeEvent, hwake, if_pos hstate, done]
  rfl

section wakeRecorded
variable (n : Nat) (entry : Bool) (kind : Nat) (time : Word) (s : State)

theorem wakeRecorded_pwr : (wakeRecorded n entry kind time s).pwr = s.pwr := by
  rw [wakeRecorded, setWord_pwr, set_pwr, set_pwr, set_pwr, set_pwr, set_pwr, setWord_pwr]

theorem get_wakeRecorded_sleep : (wakeRecorded n entry kind time s).get Fld.CRP_SLEEP_STATE = s.get Fld.CRP_SLEEP_STATE := by
  rw [wakeRecorded, get_setWord_ne _ _ (by decide), get_set_of_addr_ne (by decide), get_set_of_addr_ne (by decide),
    get_set_of_addr_ne (by decide), get_set_of_addr_ne (by decide), get_set_of_addr_ne (by decide), get_setWord_ne _ _ (by decide)]

variable {n} in
theorem get_wakeRecorded_source (hn : n < 288) : (wakeRecorded n entry kind time s).get Fld.KS_LAST_WAKE_SOURCE = n := by
  rw [wakeRecorded, get_setWord_ne _ _ (by decide), get_set_apart _ _ _ _ (by decide), get_set_same _ _ _ (by decide)]
  exact Nat.mod_eq_of_lt (Nat.lt_trans hn (by decide))

theorem get_wakeRecorded_from : (wakeRecorded n entry kind time s).get Fld.KS_LAST_WAKE_FROM = kind % 4 := by
  rw [wakeRecorded, get_setWord_ne _ _ (by decide), get_set_apart _ _ _ _ (by decide), get_set_apart _ _ _ _ (by decide),
    get_set_same _ _ _ (by decide)]
  rfl

theorem get_wakeRecorded_entry : (wakeRecorded n entry kind time s).get Fld.KS_LAST_WAKE_DURING_ENTRY = entry.toNat := by
  rw [wakeRecorded, get_setWord_ne _ _ (by decide), get_set_apart _ _ _ _ (by decide), get_set_apart _ _ _ _ (by decide),
    get_set_apart _ _ _ _ (by decide), get_set_same _ _ _ (by decide)]
  cases entry <;> rfl

end wakeRecorded

/-- An exit from a sleep state in force reads 5, and the state left is noted. -/
theorem sleepExit_leaves {s : State} (hstate : s.sleepState = 2 ∨ s.sleepState = 4) :
    (sleepExit s).get Fld.CRP_SLEEP_STATE = 5 ∧ (sleepExit s).pwr.leaving = sleepKind s := by
  have hsleeps : s.sleeps = true := decide_eq_true (by change 1 ≤ s.sleepState ∧ s.sleepState ≤ 4; omega)
  have hmerged (u : State) : (mergeLatched u).pwr = u.pwr := (keeps_mergeLatched (w := 0x8) rfl (keeps_refl _ u)).same .pwr rfl
  have hpending (n : Nat) (u : State) : (setPending n u).get Fld.CRP_SLEEP_STATE = u.get Fld.CRP_SLEEP_STATE := by
    refine get_setWord_ne _ _ ?_
    simp only [Adr.IC_PEND, Fld.CRP_SLEEP_STATE]
    omega
  have hkept (u : State) : (mergeLatched u).get Fld.CRP_SLEEP_STATE = u.get Fld.CRP_SLEEP_STATE :=
    doAll_same (State.get · Fld.CRP_SLEEP_STATE) _ u hpending
  rw [sleepExit, if_pos hsleeps]
  refine ⟨(doIf_same (State.get · Fld.CRP_SLEEP_STATE) _ _ hkept).trans ?_, congrArg Pwr.leaving (doIf_same State.pwr _ _ hmerged)⟩
  rw [pwrUpd_get, get_set_same _ _ _ (by decide)]
  rfl

/-- What a noted wake event leaves in force and recorded. -/
theorem wakeEvent_leaves {n : Nat} {entry : Bool} {s : State} (hwake : s.pwr.wake = some (n, entry))
    (hstate : s.sleepState = 2 ∨ s.sleepState = 4) (hn : n < 288) :
    Runs .wakeEvent s fun t => t.get Fld.CRP_SLEEP_STATE = 5 ∧ t.pwr.leaving = sleepKind s ∧ t.get Fld.KS_LAST_WAKE_SOURCE = n ∧
      t.get Fld.KS_LAST_WAKE_DURING_ENTRY = entry.toNat ∧ t.get Fld.KS_LAST_WAKE_FROM = sleepKind s % 4 ∧
      t.word Adr.KS_LAST_WAKE_TS = s.word Adr.KS_TIME := by
  obtain ⟨hexit, hleaving⟩ := sleepExit_leaves hstate
  exact ⟨_, exec_wakeEvent_noted hwake hstate, (get_wakeRecorded_sleep ..).trans hexit,
    (congrArg Pwr.leaving (wakeRecorded_pwr ..)).trans hleaving, 
    get_wakeRecorded_source _ _ _ _ hn, get_wakeRecorded_entry .., get_wakeRecorded_from ..,
    word_setWord_same ..⟩

/-! ## The exit from Rest (17 R423 to R425) -/

/-- The state of the exit from Rest as the DRAM leaves self-refresh. -/
def restLeft (s : State) : State :=
  (((pllsLock s).set Fld.CRP_CLK_RING_OSC 0xF).set Fld.DRC_STATUS_SELF_REFRESH 0).set Fld.CRP_SLEEP_STATE 0
    |>.pwrUpd fun p => { p with wake := none, leaving := 0, begun := false, ringAt := some s.now }

/-- With the host link down and no port held, the exit ends with the links' exit from Park. -/
theorem exec_restExit_ends {s : State} (h : s.sleepState = 5) (hleaving : s.pwr.leaving = 2) (hdown : s.linkUp = false)
    (hports : ([0, 1, 2, 3].all fun p => s.lbState p != 6) = true) :
    exec .restExit s = .next (raise 14 (doAll ([0, 1, 2, 3].filter fun k => s.get (Fld.UL_STATUS_LPM k) == 2) (fun k => lpmLeave k 4)
      (raise 162 (restLeft s)))) := by
  have hnone : ([0, 1, 2, 3].filter fun p => s.lbState p == 6) = [] := by
    rw [List.filter_eq_nil_iff]
    intro p hp
    have hp' := List.all_eq_true.mp hports p hp
    simpa using hp'
  change execRestExit s = _
  rw [execRestExit, if_pos ⟨h, hleaving⟩, hnone, hdown, done, restLeft]
  rfl

/-- The sleep state and the state of DRAM are left alone by the sources and the links of the exit. -/
theorem get_restExit_tail {f : Field} (hf : f.addr = 0x110004 ∨ f.addr = 0x580004) {l : List Nat} (hl : ∀ k ∈ l, k < 4) (s : State) :
    (raise 14 (doAll l (fun k => lpmLeave k 4) (raise 162 s))).get f = s.get f := by
  have hraise (n : Nat) (hn : n < 288) : f.addr ∉ raiseRegs n := by
    rcases hf with hf | hf <;> rw [hf]
    · simp only [raiseRegs, Adr.IC_PEND, Adr.KS_WAKE_LATCH_LO, Adr.KS_WAKE_LATCH_HI, Fld.PFS_STAT_MISSED, Fld.EV_MSIX_CNT_SENT,
        Fld.EV_DROP_D3COLD, Fld.EV_PME_PME_SENT, Fld.HL_LINK_STATUS_LSTATE, Fld.CTX_EVT_STATUS_EVT, Fld.MBX_BC_ATTN_MODE, List.mem_cons,
        List.not_mem_nil, or_false]
      omega
    · exact notMem_raiseRegs (by omega) (by omega)
  have hlinks (u : State) : (doAll l (fun k => lpmLeave k 4) u).get f = u.get f := by
    induction l generalizing u with
    | nil => rfl
    | cons k l ih =>
      have hk := hl k List.mem_cons_self
      have haddr : f.addr ≠ (Fld.UL_STATUS_LPM k).addr := by
        simp only [Fld.UL_STATUS_LPM]
        omega
      exact (ih (fun j hj => hl j (List.mem_cons_of_mem _ hj)) _).trans (get_lpmLeave 4 u haddr (hraise _ (by omega)))
  rw [get_raise _ _ _ (hraise 14 (by decide)), hlinks, get_raise _ _ _ (hraise 162 (by decide))]

theorem sleepNotes_restExit_tail (l : List Nat) (s : State) :
    sleepNotes (raise 14 (doAll l (fun k => lpmLeave k 4) (raise 162 s))) = sleepNotes s := by
  rw [unraised_sleepNotes.raise, doAll_lpmLeave_sleepNotes, unraised_sleepNotes.raise]

/-- An exit from Rest ends awake, on the ring oscillator from now on. -/
theorem restExit_ends {s : State} (h : s.sleepState = 5) (hleaving : s.pwr.leaving = 2) (hdown : s.linkUp = false)
    (hports : ([0, 1, 2, 3].all fun p => s.lbState p != 6) = true) :
    Runs .restExit s fun t => t.get Fld.CRP_SLEEP_STATE = 0 ∧ t.pwr.leaving = 0 ∧ t.pwr.ringAt = some s.now ∧
      t.get Fld.DRC_STATUS_SELF_REFRESH = 0 := by
  have hlinks : ∀ k ∈ [0, 1, 2, 3].filter fun k => s.get (Fld.UL_STATUS_LPM k) == 2, k < 4 := fun k hk => by
    have hmem := List.mem_of_mem_filter hk
    simp at hmem
    omega
  have hnotes := sleepNotes_restExit_tail ([0, 1, 2, 3].filter fun k => s.get (Fld.UL_STATUS_LPM k) == 2) (restLeft s)
  refine ⟨_, exec_restExit_ends h hleaving hdown hports, ?_, ?_, ?_, ?_⟩
  · rw [get_restExit_tail (.inl rfl) hlinks, restLeft, pwrUpd_get, get_set_same _ _ _ (by decide)]
    rfl
  · rw [← sleepNotes_leaving, hnotes]
    rfl
  · rw [← sleepNotes_ringAt, hnotes]
    rfl
  · rw [get_restExit_tail (.inr rfl) hlinks, restLeft, pwrUpd_get, get_set_of_addr_ne (by decide), get_set_same _ _ _ (by decide)]
    rfl

/-- Settles O49: each entry, order, wake event and exit by its one row; what is noted of sleep outlives the sources raised. -/
theorem sleepStatesAndWaking : Obligations.SleepStatesAndWaking := by
  unfold Obligations.SleepStatesAndWaking
  refine ⟨?entry, ?noEntry, ?exit, fun _ => exec_idleSleepOrder_idle, ?noOrder, fun _ _ => restEntry_begins, ?complete, ?wakeRest,
    ?wakeFreewheel, ?noWake, fun _ => restExit_ends⟩
  case entry =>
    intro s h
    have hx := exec_freewheelEntry_entering h
    exact ⟨_, hx, get_set_same _ _ _ (by decide), now_of_only (only_of_exec hx) (by decide)⟩
  case noEntry =>
    intro s h
    change execFreewheelEntry s = _
    rw [execFreewheelEntry, if_neg h, done]
  case exit =>
    intro s h hleaving
    have hnotes := (unraised_sleepNotes.raise 14 (freewheelLeft s)).trans (sleepNotes_freewheelLeft s)
    refine ⟨_, exec_freewheelExit_leaving h hleaving, ?_, ?_, ?_⟩
    · refine (sleepState_raise 14 _).trans ?_
      rw [State.sleepState, freewheelLeft, pwrUpd_get, get_set_same _ _ _ (by decide)]
      rfl
    · rw [← sleepNotes_leaving, hnotes]
    · rw [← sleepNotes_busyAt, hnotes]
  case noOrder =>
    intro s h
    change execIdleSleepOrder s = _
    rw [execIdleSleepOrder, if_neg (by simp [h]), done]
  case complete =>
    intro s h hbegun
    exact ⟨_, exec_restEntryComplete_begun h hbegun, restEntered_rests s⟩
  case wakeRest =>
    intro n entry s hwake hstate hn
    have hkind : sleepKind s = 2 := by simp [sleepKind, hstate]
    obtain ⟨t, ht, hsleep, hleaving, hsource, hduring, hfrom, htime⟩ := wakeEvent_leaves hwake (.inr hstate) hn
    rw [hkind] at hleaving hfrom
    exact ⟨t, ht, hsleep, hleaving, hsource, hduring, hfrom, htime⟩
  case wakeFreewheel =>
    intro n entry s hwake hstate hn
    have hkind : sleepKind s = 1 := by simp [sleepKind, hstate]
    obtain ⟨t, ht, hsleep, hleaving, hsource, -, hfrom, -⟩ := wakeEvent_leaves hwake (.inl hstate) hn
    rw [hkind] at hleaving hfrom
    exact ⟨t, ht, hsleep, hleaving, hsource, hfrom⟩
  case noWake =>
    intro s hwake
    change execWakeEvent s = _
    simp only [execWakeEvent, hwake, done]

end Sys2Proof.Machine
end

section

/-! The registers below the mailboxes under the end and the interruption of a command, and the faults of the control cores (16 R396, R397;
18 R436 to R443). -/

namespace Sys2Proof.Machine

/-! ## Registers below the mailboxes -/

theorem word_ite {p : Prop} [Decidable p] {s t u : State} {a : Nat} (hs : s.word a = u.word a) (ht : t.word a = u.word a) :
    (if p then s else t).word a = u.word a := by
  split
  · exact hs
  · exact ht

section belowMailboxes
variable {a : Nat} (ha : a < 0x780000)

section
include ha

theorem word_set_mailbox {f : Field} (hf : 0x780000 ≤ f.addr) (v : Nat) (s : State) : (s.set f v).word a = s.word a :=
  word_set_ne _ _ _ (by omega)

theorem word_set_mbxField (mb off hi lo v : Nat) (s : State) : (s.set (mbxField mb off hi lo) v).word a = s.word a :=
  word_set_mailbox ha (Nat.le_add_right_of_le (le_mbxBase mb)) v s

theorem word_setByte {b : Nat} (hb : 0x780000 ≤ b) (v : Byte) (s : State) : (setByte b v s).word a = s.word a :=
  word_setWord_ne _ _ (by omega)

theorem word_putArea {b : Nat} (hb : 0x780000 ≤ b) (l : List Byte) (s : State) : (putArea b l s).word a = s.word a := by
  induction l generalizing b s with
  | nil => rfl
  | cons v l ih => exact (ih (by omega) _).trans (word_setByte ha hb v s)

theorem word_drawBytes {b : Nat} (hb : 0x780000 ≤ b) (n : Nat) (s : State) : (drawBytes b n s).word a = s.word a := by
  induction n generalizing b s with
  | zero => rfl
  | succ n ih => exact (ih (by omega) _).trans (word_setByte ha hb _ _)

theorem word_logConflict (mb op : Nat) (stamp : Stroke) (s : State) : (logConflict mb op stamp s).word a = s.word a := by
  rw [logConflict, State.inc, word_set_mailbox ha (by decide), word_set_mailbox ha (by decide), word_set_mailbox ha (by decide),
    word_set_mailbox ha (by decide), word_set_mailbox ha (by decide), word_set_mailbox ha (by decide)]

end

variable (hr : a ∉ raiseRegs 0)
include ha hr

theorem word_mbxEvent (mb : Nat) (s : State) : (mbxEvent mb s).word a = s.word a := by
  have hevt : a ∉ (Fld.CTX_EVT_STATUS_EVT (mbxCtx mb)).addr :: raiseRegs 0 := by
    rw [List.mem_cons, not_or]
    refine ⟨?_, hr⟩
    simp only [Fld.CTX_EVT_STATUS_EVT]
    omega
  unfold mbxEvent
  split
  · exact word_set_mailbox ha (by decide) _ s
  split
  · rfl
  · exact regsOnly_ctxEvent_of _ 0 s a hevt

theorem word_mbxDone (mb op : Nat) (stamp : Stroke) (code : Nat) (res : List Byte) (s : State) :
    (mbxDone mb op stamp code res s).word a = s.word a := by
  have hbase := le_mbxBase mb
  have hpeer (u : State) : (peerReply code res u).word a = u.word a := by
    have hregs : (peerReply code res u).regs = u.regs := (keeps_peerReply (w := 0x1010008003) code res rfl (keeps_refl _ u)).same .regs rfl
    rw [State.word, hregs, State.word]
  have hcount {f : Field} (hf : 0x780000 ≤ f.addr) (u : State) : (u.inc f 1).word a = u.word a := word_set_mailbox ha hf _ u
  unfold mbxDone
  rw [word_mbxEvent ha hr, doIf_same (State.word · a) _ _ hpeer, doIf_same (State.word · a) _ _ (hcount (by decide)),
    doIf_same (State.word · a) _ _ (hcount (by decide)), doIf_same (State.word · a) _ _ (word_logConflict ha mb op stamp), mbxState,
    word_set_mbxField ha, word_set_mbxField ha, word_set_mbxField ha, word_set_mbxField ha, word_drawBytes ha (by omega),
    word_putArea ha (by omega)]

theorem word_cmdDone (id code : Nat) (res : List Byte) (s : State) : (cmdDone id code res s).word a = s.word a := by
  unfold cmdDone
  split
  · rfl
  · rw [doIf_same (State.word · a) _ _ (word_mbxDone ha hr _ _ _ code res), cmdsUpd_word]

theorem word_cmdInterrupted (x : Cmd) (s : State) : (cmdInterrupted x s).word a = s.word a := by
  unfold cmdInterrupted
  dsimp only
  refine word_ite rfl (word_ite ?again ?ended)
  case again =>
    rw [State.inc, word_set_mailbox ha (by decide), word_set_mbxField ha, mbxState, word_set_mbxField ha, mbxUpd_word, cmdsUpd_word]
  case ended =>
    rw [word_cmdDone ha hr]
    refine doAll_same (State.word · a) _ s fun c u => ?_
    split
    · split <;> rfl
    · rfl

theorem word_interruptCore (core : Nat) (just : Option Nat) (s : State) : (interruptCore core just s).word a = s.word a :=
  doAll_same (State.word · a) _ s (word_cmdInterrupted ha hr)

theorem word_stateLost (stype c : Nat) (s : State) : (stateLost stype c s).word a = s.word a := by
  unfold stateLost
  split
  · split
    · rw [word_cmdDone ha hr, ctxUpd_word]
    · rfl
  all_goals rfl

/-- The STATE messages that waited for the end of a restart. -/
theorem word_sendWaiting (s : State) : (sendWaiting s).word a = s.word a := by
  refine doAll_same (State.word · a) _ _ fun x u => ?_
  dsimp only
  refine word_ite ?_ (word_stateLost ha hr _ _ u)
  have hregs : (sendState x.1 x.2.1 x.2.2.1 x.2.2.2 u).1.regs = u.regs :=
    (keeps_sendState (w := 0x40008000) _ _ _ _ rfl (keeps_refl _ u)).same .regs rfl
  rw [State.word, hregs, State.word]

end belowMailboxes

theorem get_of_word {s t : State} {f : Field} (h : t.word f.addr = s.word f.addr) : t.get f = s.get f := by
  rw [State.get, h, State.get]

/-- The device's own registers, which neither a source raised nor the end of a command writes. -/
theorem notMem_raiseRegs_device {n a : Nat} (ha : a < 0x120000) : a ∉ raiseRegs n := by
  simp only [raiseRegs, Adr.IC_PEND, Adr.KS_WAKE_LATCH_LO, Adr.KS_WAKE_LATCH_HI, Fld.PFS_STAT_MISSED, Fld.EV_MSIX_CNT_SENT,
    Fld.EV_DROP_D3COLD, Fld.EV_PME_PME_SENT, Fld.HL_LINK_STATUS_LSTATE, Fld.CTX_EVT_STATUS_EVT, Fld.MBX_BC_ATTN_MODE, List.mem_cons,
    List.not_mem_nil, or_false]
  omega

end Sys2Proof.Machine
end

section

/-! Core watchdogs and fences, fault stops, restarts, parity and SRAM errors (18 R436 to R443). -/

namespace Sys2Proof.Machine

/-! ## Watchdogs and fences (18 R436, R437) -/

theorem exec_coreWatchdogExpiry_running {core : Fin 4} {s : State} (hfree : s.coreFenced core = false)
    (hrunning : s.isSet Fld.DEV_FAULT_STATUS_RESTARTING = false) (hrest : s.inRest = false) : exec (.coreWatchdogExpiry core) s =
      .next ((raise 282 s).fltUpd fun f => { f with fenceDue := f.fenceDue ++ [(core.val, 1)] }) := by
  change execCoreWatchdogExpiry core s = _
  rw [execCoreWatchdogExpiry, if_neg (by simp [hfree, hrunning, hrest]), done]

/-- The one bit of a field, as a bit of its register. -/
theorem isSet_eq_testBit {f : Field} (h : f.hi = f.lo) (s : State) : s.isSet f = (s.word f.addr).toNat.testBit f.lo := by
  rw [State.isSet, State.get, bitsOf, h, Nat.add_sub_cancel_left, Nat.pow_one, Nat.testBit_eq_decide_div_mod_eq]
  rcases Nat.mod_two_eq_zero_or_one ((s.word f.addr).toNat / 2 ^ f.lo) with hz | hz <;> rw [hz] <;> rfl

/-- A pending bit that is set takes no bit from the word it lies in. -/
theorem coreFenced_setPending (c n : Nat) {s : State} (h : s.coreFenced c = true) : (setPending n s).coreFenced c = true := by
  rw [State.coreFenced, isSet_eq_testBit rfl] at h ⊢
  by_cases ha : (Fld.IC_CORE_STATUS_FENCED c).addr = Adr.IC_PEND (n / 32)
  · have hlo : (Fld.IC_CORE_STATUS_FENCED c).lo < 32 := show 31 < 32 by decide
    rw [setPending, ha, word_setWord_same, BitVec.toNat_ofNat, Nat.testBit_mod_two_pow, ← ha, testBit_orBit_of _ h, decide_eq_true hlo]
    rfl
  · rw [setPending, word_setWord_ne _ _ ha, h]

theorem coreFenced_icFence (c : Nat) (s : State) : (icFence c s).coreFenced c = true := by
  have hfits : (Fld.IC_CORE_STATUS_FENCED c).Fits := ⟨Nat.le_refl 31, show 31 < 32 by decide⟩
  have hset : (s.set (Fld.IC_CORE_STATUS_FENCED c) 1).coreFenced c = true := by
    rw [State.coreFenced, State.isSet, get_set_same _ _ _ hfits]
    rfl
  have hpending (l : List Nat) (u : State) (hu : u.coreFenced c = true) : (doAll l setPending u).coreFenced c = true := by
    induction l generalizing u with
    | nil => exact hu
    | cons n l ih => exact ih _ (coreFenced_setPending c n hu)
  unfold icFence icUnstack
  refine hpending _ _ ?_
  rw [State.coreFenced, isSet_of_get (setStack_get _ _ _ _)]
  exact hset

/-- Below the interrupt controller the fence of a core changes nothing. -/
theorem word_icFence {a : Nat} (ha : a < 0x700000) (c : Nat) (s : State) : (icFence c s).word a = s.word a := by
  have hpending (n : Nat) (u : State) : (setPending n u).word a = u.word a := by
    refine word_setWord_ne _ _ ?_
    simp only [Adr.IC_PEND]
    omega
  have hfenced : a ≠ (Fld.IC_CORE_STATUS_FENCED c).addr := by
    simp only [Fld.IC_CORE_STATUS_FENCED]
    omega
  rw [icFence, icUnstack, doAll_same (State.word · a) _ _ hpending, setStack_word, word_set_ne _ _ _ hfenced]

/-- A core fenced with what it ran, before its fence is counted. -/
def fencedCore (core : Nat) (just : Option Nat) (s : State) : State := bcAttn Fld.MBX_BC_ATTN_CORE (interruptCore core just (icFence core s))

theorem coreFence_counts {core cause : Nat} {just : Option Nat} {s : State} (hfree : s.coreFenced core = false)
    (hlast : unfenced s ≠ [core]) (hdue : s.flt.fenceDue = []) : ∃ degrades : Bool, coreFence core cause just s =
      (if degrades then reportDegraded else reportCie) (logEv 0x0011 (leBytes 1 core ++ leBytes 1 cause)
        ((fencedCore core just s).inc Fld.DEV_FAULT_CNT_CORE_FENCES 1)) := by
  have hsame : (s.fltUpd fun f => { f with fenceDue := f.fenceDue.filter fun x => x.1 != core }) = s := by
    have hflt : { s.flt with fenceDue := s.flt.fenceDue.filter fun x => x.1 != core } = s.flt := by rw [hdue, List.filter_nil, ← hdue]
    rw [State.fltUpd, hflt]
  refine ⟨!((unfenced s).length == 4), ?_⟩
  rw [coreFence, hsame, if_neg (by simp [hfree]), if_neg hlast, fencedCore]
  cases (unfenced s).length == 4
  · simp only [Bool.not_false, Bool.false_eq_true, if_true, if_false]
  · simp only [Bool.not_true, Bool.false_eq_true, if_true, if_false]

/-- A report of a fault writes DEGRADED at most, outside the registers of a source. -/
theorem get_report {f : Field} (degrades : Bool) (s : State) (hf : f.addr ∉ raiseRegs 28) (hd : Fld.DEV_FAULT_STATUS_DEGRADED.Apart f) :
    ((if degrades then reportDegraded else reportCie) s).get f = s.get f := by
  cases degrades
  · exact get_reportCie s f hf
  · exact (get_reportUie _ f hf).trans (get_set_apart _ _ _ _ hd)

theorem coreFence_fences {core : Fin 4} {s : State} (hfree : s.coreFenced core = false) (hlast : unfenced s ≠ [core.val])
    (hdue : s.flt.fenceDue = []) : Runs (.coreFence core true none) s fun t => t.coreFenced core = true ∧
      t.get Fld.DEV_FAULT_CNT_CORE_FENCES = min Fld.DEV_FAULT_CNT_CORE_FENCES.max (s.get Fld.DEV_FAULT_CNT_CORE_FENCES + 1) := by
  obtain ⟨degrades, hfence⟩ := coreFence_counts (cause := 2) (just := none) hfree hlast hdue
  refine ⟨_, congrArg Host.Outcome.next hfence, ?_, ?_⟩
  · have haddr : (Fld.IC_CORE_STATUS_FENCED core).addr ∉ raiseRegs 28 := by
      simp only [raiseRegs, Adr.IC_PEND, Adr.KS_WAKE_LATCH_LO, Adr.KS_WAKE_LATCH_HI, Fld.PFS_STAT_MISSED, Fld.EV_MSIX_CNT_SENT,
        Fld.EV_DROP_D3COLD, Fld.EV_PME_PME_SENT, Fld.HL_LINK_STATUS_LSTATE, Fld.CTX_EVT_STATUS_EVT, Fld.MBX_BC_ATTN_MODE, List.mem_cons,
        List.not_mem_nil, or_false, Fld.IC_CORE_STATUS_FENCED]
      omega
    have hne {a : Nat} (ha : a < 0x700000 ∨ 0x780000 ≤ a) : (Fld.IC_CORE_STATUS_FENCED core).addr ≠ a := by
      simp only [Fld.IC_CORE_STATUS_FENCED]
      omega
    have hlow : (Fld.IC_CORE_STATUS_FENCED core).addr < 0x780000 := by
      simp only [Fld.IC_CORE_STATUS_FENCED]
      omega
    have hlog : (Fld.IC_CORE_STATUS_FENCED core).addr ∉ [Fld.DEV_FAULT_LOG_VALID.addr, Fld.DEV_FAULT_TS_STROKE_LO.addr] := by
      simp only [List.mem_cons, List.not_mem_nil, or_false, not_or]
      exact ⟨hne (.inl (by decide)), hne (.inl (by decide))⟩
    have hapart : Fld.DEV_FAULT_STATUS_DEGRADED.Apart (Fld.IC_CORE_STATUS_FENCED core) :=
      ⟨⟨by decide, by decide, Nat.le_refl 31⟩, .inl (hne (.inl (by decide)))⟩
    refine (isSet_of_get ?_).trans (coreFenced_icFence core s)
    rw [get_report _ _ haddr hapart, get_logEv _ _ _ _ hlog, State.inc, get_set_of_addr_ne (hne (.inl (by decide))), fencedCore, bcAttn,
      get_set_of_addr_ne (hne (.inr (by decide))), get_of_word (word_interruptCore hlow haddr _ _ _)]
  · rw [get_report _ _ (by decide) (by decide), get_logEv _ _ _ _ (by decide), get_inc_same _ _ _ (by decide)]
    have hcount : (fencedCore core none s).get Fld.DEV_FAULT_CNT_CORE_FENCES = s.get Fld.DEV_FAULT_CNT_CORE_FENCES := by
      rw [fencedCore, bcAttn, get_set_of_addr_ne (by decide), get_of_word (word_interruptCore (by decide) (by decide) _ _ _),
        get_of_word (word_icFence (by decide) _ _)]
    rw [hcount]

/-! ## The fault stop (18 R438) -/

/-- STOP and its reason with the log entry of the fault stop. -/
def stopShown (reason : Nat) (s : State) : State :=
  logEv 0x0013 (leBytes 1 reason) ((s.set Fld.DEV_FAULT_STATUS_STOP 1).set Fld.DEV_FAULT_STATUS_STOP_REASON reason)

theorem get_orderExtract (c : ModeCause) (s : State) (f : Field) : (orderExtract c s).get f = s.get f := by
  unfold orderExtract
  split
  · exact get_addCause c s f
  · exact get_addCause c s f
  · rfl
  · exact get_addCause _ _ f
  · rfl
  · rfl

section faultStop
variable {reason : Nat} {s : State} (hfirst : s.flt.stopRuns = false)
include hfirst

theorem faultStop_first : faultStop reason s =
    sleepExit ((orderExtract .prepareExtract (reportUie (stopShown reason s))).fltUpd fun f => { f with stopRuns := true }) := by
  have hidle : ¬ faultStopRuns s = true := by simp [faultStopRuns, hfirst]
  rw [faultStop, if_neg hidle]
  rfl

/-- What follows the log entry leaves the device's fault registers alone. -/
theorem get_faultStop {f : Field} (hf : f.addr < 0x120000) (hsleep : Fld.CRP_SLEEP_STATE.Apart f) :
    (faultStop reason s).get f = (stopShown reason s).get f := by
  rw [faultStop_first hfirst, get_sleepExit _ hsleep (by omega), fltUpd_get, get_orderExtract, get_reportUie _ _ (notMem_raiseRegs_device hf)]

theorem faultStop_stops (hreason : reason < 16) : (faultStop reason s).isSet Fld.DEV_FAULT_STATUS_STOP = true ∧
    (faultStop reason s).get Fld.DEV_FAULT_STATUS_STOP_REASON = reason ∧ (faultStop reason s).get Fld.DEV_FAULT_LOG_CODE = 0x13 ∧
      (faultStop reason s).flt.stopRuns = true := by
  refine ⟨?_, ?_, ?_, ?_⟩
  · rw [State.isSet, get_faultStop hfirst (by decide) (by decide), stopShown, get_logEv _ _ _ _ (by decide),
      get_set_apart _ _ _ _ (by decide), get_set_same _ _ _ (by decide)]
    rfl
  · rw [get_faultStop hfirst (by decide) (by decide), stopShown, get_logEv _ _ _ _ (by decide), get_set_same _ _ _ (by decide)]
    exact Nat.mod_eq_of_lt hreason
  · rw [get_faultStop hfirst (by decide) (by decide), stopShown, get_code_logEv _ _ (by decide)]
  · rw [faultStop_first hfirst]
    have hexit (u : State) : (sleepExit u).flt = u.flt := (keeps_sleepExit (w := 0x20000008) rfl (keeps_refl _ u)).same .flt rfl
    rw [hexit]
    rfl

end faultStop

/-! ## Firmware restarts (18 R440 to R442) -/

section restart
variable {just : List Nat} {trigger : Nat} {s : State} (hidle : s.isSet Fld.DEV_FAULT_STATUS_RESTARTING = false) (hmode : s.mode ≠ .preserve)
include hidle hmode

theorem fwRestart_fourth (hmany : 3 ≤ (recentRestarts s).length) :
    fwRestart trigger just s = faultStop 3 (s.fltUpd fun f => { f with restartDue := none }) := by
  rw [fwRestart, if_neg (by simp [hidle, hmode]), if_pos hmany]

/-- The cores are stopped: their stacks are pending again and their commands interrupted. -/
def coresStopped (just : List Nat) (s : State) : State :=
  doAll just (fun mb s => interruptCore 4 (some mb) s) (doAll (unfenced s) (fun c s => s |> icUnstack c |> interruptCore c none) s)

theorem fwRestart_runs (hfew : (recentRestarts s).length < 3) : ∃ clock : Nat, fwRestart trigger just s =
    (((((((coresStopped just s).fltUpd fun f =>
      { f with restartDue := some trigger, restarts := recentRestarts s ++ [s.now], restartAt := s.now, fenceDue := [] }).set
        Fld.DEV_FAULT_STATUS_RESTARTING 1).set Fld.CRP_CLK_RING_OSC clock).pwrUpd fun p => { p with ringAt := none }).set
          Fld.DEV_FAULT_STATUS_RESTARTS ((recentRestarts s).length + 1)).inc Fld.DEV_FAULT_CNT_FW_RESTARTS 1).set Fld.MBX_BC_ATTN_CORE 1 := by
  refine ⟨((unfenced s).head?.map fun c => 2 ^ c).getD 0, ?_⟩
  rw [fwRestart, if_neg (by simp [hidle, hmode]), if_neg (Nat.not_le.mpr hfew), coresStopped, bcAttn]

end restart

theorem exec_firmwareRestart_check {just : List (Fin 1032)} {s : State} (hnone : s.flt.restartDue = none) :
    exec (.firmwareRestart true just) s = .next (fwRestart 3 (just.map (·.val)) s) := by
  change execFirmwareRestart true just s = _
  simp only [execFirmwareRestart, hnone, if_true, done]

theorem firmwareRestart_stops {just : List (Fin 1032)} {s : State} (hnone : s.flt.restartDue = none)
    (hidle : s.isSet Fld.DEV_FAULT_STATUS_RESTARTING = false) (hmode : s.mode ≠ .preserve) (hmany : 3 ≤ (recentRestarts s).length)
    (hfirst : s.flt.stopRuns = false) : Runs (.firmwareRestart true just) s fun t =>
      t.get Fld.DEV_FAULT_STATUS_STOP_REASON = 3 ∧ t.isSet Fld.DEV_FAULT_STATUS_RESTARTING = false := by
  have hfirst' : (s.fltUpd fun f => { f with restartDue := none }).flt.stopRuns = false := hfirst
  obtain ⟨-, hreason, -, -⟩ := faultStop_stops hfirst' (reason := 3) (by decide)
  refine ⟨_, (exec_firmwareRestart_check hnone).trans (congrArg Host.Outcome.next (fwRestart_fourth hidle hmode hmany)), hreason, ?_⟩
  rw [isSet_of_get (get_faultStop hfirst' (by decide) (by decide)), stopShown, State.isSet, get_logEv _ _ _ _ (by decide),
    get_set_apart _ _ _ _ (by decide), get_set_apart _ _ _ _ (by decide), fltUpd_get]
  exact hidle

theorem firmwareRestart_starts {s : State} (hnone : s.flt.restartDue = none) (hidle : s.isSet Fld.DEV_FAULT_STATUS_RESTARTING = false)
    (hmode : s.mode ≠ .preserve) (hfew : (recentRestarts s).length < 3) : Runs (.firmwareRestart true []) s fun t =>
      t.isSet Fld.DEV_FAULT_STATUS_RESTARTING = true ∧ t.flt.restartDue = some 3 ∧ t.flt.fenceDue = [] ∧ t.flt.restartAt = s.now ∧
        t.now = s.now := by
  obtain ⟨clock, hstart⟩ := fwRestart_runs (just := []) (trigger := 3) hidle hmode hfew
  have hx := (exec_firmwareRestart_check (just := []) hnone).trans (congrArg Host.Outcome.next hstart)
  refine ⟨_, hx, ?_, ?_, ?_, ?_, now_of_only (only_of_exec hx) (of_decide_eq_true rfl)⟩
  · rw [State.isSet, get_set_of_addr_ne (by decide), State.inc, get_set_of_addr_ne (by decide), get_set_apart _ _ _ _ (by decide),
      pwrUpd_get, get_set_of_addr_ne (by decide), get_set_same _ _ _ (by decide)]
    rfl
  all_goals rw [set_flt, inc_flt, set_flt, pwrUpd_flt, set_flt, set_flt, fltUpd_flt]

/-! ## The end of a restart (18 R440, R441) -/

/-- The rejections of the restart are shown. -/
def rejectsShown (bad : List Nat) (s : State) : State :=
  doIf (!bad.isEmpty) (fun s => s.set Fld.DEV_BOOT_ERR (rejectErr s (bad.getLast?.getD 0)) |>.drewOne) s

/-- The copy that runs, its release and the clocks, as the restart ends. -/
def restartShown (k : Nat) (bad : List Nat) (s : State) : State :=
  (((((rejectsShown bad s).set Fld.DEV_BOOT_COPY k).set Fld.DEV_BOOT_FAILED (bad.foldl orBit (s.get Fld.DEV_BOOT_FAILED))).setWord
    Adr.DEV_FWREV (s.fwCopy k)).fwUpd (fun f => { f with running := s.copy k })).set Fld.CRP_CLK_RING_OSC 0
    |>.set Fld.DEV_FAULT_STATUS_RESTARTING 0

theorem restartEnd_eq (k : Nat) (bad : List Nat) (s : State) : ∃ detail, restartEnd k bad s =
    sendWaiting ((logEv 0x0012 detail (restartShown k bad s)).fltUpd fun f => { f with restartDue := none }) := ⟨_, rfl⟩

theorem firmwareRestartComplete_ends {rejected : Fin 4} {k : Nat} {bad : List Nat} {s : State} (hrestart : s.restarting = true)
    (hcopy : restartCopy rejected s = some (k, bad)) (hk : k < 4) : Runs (.firmwareRestartComplete rejected) s fun t =>
      t.isSet Fld.DEV_FAULT_STATUS_RESTARTING = false ∧ t.flt.restartDue = none ∧ t.get Fld.DEV_FAULT_LOG_CODE = 0x12 ∧
        t.get Fld.DEV_BOOT_COPY = k ∧ t.get Fld.CRP_CLK_RING_OSC = 0 ∧ t.word Adr.DEV_FWREV = s.fwCopy k := by
  obtain ⟨detail, hend⟩ := restartEnd_eq k bad s
  have hx : exec (.firmwareRestartComplete rejected) s = .next (restartEnd k bad s) := by
    change execFirmwareRestartComplete rejected s = _
    simp only [execFirmwareRestartComplete, hrestart, if_true, hcopy, done]
  have hword {a : Nat} (ha : a < 0x120000) (u : State) : (sendWaiting u).word a = u.word a :=
    word_sendWaiting (by omega) (notMem_raiseRegs_device ha) u
  have hget {f : Field} (hf : f.addr < 0x120000) (u : State) : (sendWaiting u).get f = u.get f := get_of_word (hword hf u)
  have hflt (u : State) : (sendWaiting u).flt = u.flt := (keeps_sendWaiting (w := 0x107086D3AB) rfl (keeps_refl _ u)).same .flt rfl
  refine ⟨_, hx.trans (congrArg Host.Outcome.next hend), ?_, ?_, ?_, ?_, ?_, ?_⟩
  · rw [State.isSet, hget (by decide), fltUpd_get, get_logEv _ _ _ _ (by decide), restartShown, get_set_same _ _ _ (by decide)]
    rfl
  · rw [hflt, fltUpd_flt]
  · rw [hget (by decide), fltUpd_get, get_code_logEv _ _ (by decide)]
  · rw [hget (by decide), fltUpd_get, get_logEv _ _ _ _ (by decide), restartShown, get_set_of_addr_ne (by decide),
      get_set_of_addr_ne (by decide), fwUpd_get, get_setWord_ne _ _ (by decide), get_set_apart _ _ _ _ (by decide),
      get_set_same _ _ _ (by decide)]
    exact Nat.mod_eq_of_lt hk
  · rw [hget (by decide), fltUpd_get, get_logEv _ _ _ _ (by decide), restartShown, get_set_of_addr_ne (by decide),
      get_set_same _ _ _ (by decide)]
    rfl
  · have hlog (d : List Byte) (u : State) : (logEv 0x0012 d u).word Adr.DEV_FWREV = u.word Adr.DEV_FWREV := by
      rw [logEv, word_set_ne _ _ _ (by decide), word_set_ne _ _ _ (by decide), word_set_ne _ _ _ (by decide)]
      rfl
    rw [hword (by decide), fltUpd_word, hlog, restartShown, word_set_ne _ _ _ (by decide), word_set_ne _ _ _ (by decide), fwUpd_word,
      word_setWord_same]

/-! ## Parity and SRAM errors (18 R440, R443) -/

/-- The log writes no pending word. -/
theorem isPending_logEv {n : Nat} (hn : n < 288) (code : Nat) (d : List Byte) (s : State) : isPending (logEv code d s) n = isPending s n := by
  have hset (f : Field) (v : Nat) (u : State) (hf : f.addr < 0x700000) : isPending (u.set f v) n = isPending u n := by
    unfold isPending
    rw [word_set_ne _ _ _ (pend_ne_outside (.inl hf) hn)]
  rw [logEv, hset _ _ _ (by decide), hset _ _ _ (by decide), hset _ _ _ (by decide)]
  rfl

/-- A report of a corrected error leaves every source pending that is. -/
theorem isPending_reportCie_of {n : Nat} (hn : n < 288) {s : State} (h : isPending s n = true) : isPending (reportCie s) n = true := by
  have hmessage (c : Bool) (o : Out) (u : State) : isPending (doIf c (emit o) u) n = isPending u n := doIf_same (isPending · n) c u fun _ => rfl
  rw [reportCie, aerCor, raise_plain (by decide)]
  refine isPending_raiseEdge_of 28 hn ?_
  rw [aerMessage, hmessage]
  exact h

theorem devParity_reports {s : State} (hrest : s.inRest = false) : Runs (.internalParityError .dev) s fun t =>
    isPending t 15 = true ∧ t.get Fld.DEV_FAULT_LOG_CODE = 0x60 ∧ t.now = s.now := by
  have hx : exec (.internalParityError .dev) s = .next (reportCie (logEv 0x0060 (leBytes 2 15) (raise 15 s))) := rfl
  refine ⟨_, hx, isPending_reportCie_of (by decide) ?_, ?_, now_of_only (only_of_exec hx) (by decide)⟩
  · rw [isPending_logEv (by decide), isPending_raise_plain (by decide) (by decide) hrest]
  · rw [get_reportCie _ _ (by decide), get_code_logEv _ _ (by decide)]

/-- The error counted and logged. -/
def sramErrorLogged (a : Nat) (s : State) : State :=
  logEv 0x0080 (leBytes 4 0 ++ leBytes 4 a) ((s.inc Fld.DEV_SRAM_ECC_UNCORR 1).inc Fld.DEV_FAULT_CNT_SRAM_UNCORR 1)

theorem restartDue_sramErrorLogged (a : Nat) (s : State) : (sramErrorLogged a s).flt.restartDue = s.flt.restartDue := by
  rw [sramErrorLogged, logEv, set_flt, set_flt, set_flt, inc_flt, inc_flt]

theorem exec_sramUncorrectableError_idle {a : BitVec 32} {s : State} (hidle : s.isSet Fld.DEV_FAULT_STATUS_RESTARTING = false) :
    exec (.sramUncorrectableError a) s =
      .next ((sramErrorLogged a.toNat s).fltUpd fun f => { f with restartDue := some (f.restartDue.getD 2) }) := by
  change execSramUncorrectableError a s = _
  rw [execSramUncorrectableError, hidle, Bool.not_false, doIf_true, done, sramErrorLogged]

theorem sramError_restarts {a : BitVec 32} {s : State} (hidle : s.isSet Fld.DEV_FAULT_STATUS_RESTARTING = false)
    (hnone : s.flt.restartDue = none) : Runs (.sramUncorrectableError a) s fun t => t.flt.restartDue = some 2 ∧
      t.get Fld.DEV_SRAM_ECC_UNCORR = min Fld.DEV_SRAM_ECC_UNCORR.max (s.get Fld.DEV_SRAM_ECC_UNCORR + 1) := by
  refine ⟨_, exec_sramUncorrectableError_idle hidle, ?_, ?_⟩
  · rw [fltUpd_flt, restartDue_sramErrorLogged, hnone, Option.getD_none]
  · rw [fltUpd_get, sramErrorLogged, get_logEv _ _ _ _ (by decide), get_inc_apart _ _ _ _ (by decide), get_inc_same _ _ _ (by decide)]

/-- Settles O50: a fence, a fault stop and a restart each by the branch its conditions choose; the registers they show lie below what the
sources raised and the commands interrupted write. -/
theorem coreFaultsRestartsAndStops : Obligations.CoreFaultsRestartsAndStops := by
  unfold Obligations.CoreFaultsRestartsAndStops
  refine ⟨?watchdog, ?fenced, ?notDue, fun _ _ => coreFence_fences, ?stop, ?stopped, fun _ _ => firmwareRestart_stops, ?noCheck,
    fun _ => firmwareRestart_starts, fun _ _ _ _ => firmwareRestartComplete_ends, ?noCopy, ?notRestarting, fun _ => devParity_reports,
    fun _ _ => sramError_restarts⟩
  case watchdog =>
    intro core s hfree hidle hrest
    refine ⟨_, exec_coreWatchdogExpiry_running hfree hidle hrest, ?_, isPending_raise (by decide) (by decide) hrest⟩
    rw [fltUpd_flt, raise_flt]
  case fenced =>
    intro core s hfenced
    exact congrArg Host.Outcome.next (if_pos (.inl hfenced))
  case notDue =>
    intro core just s hnone
    change execCoreFence core false just s = _
    rw [execCoreFence, if_neg Bool.false_ne_true, hnone, if_neg Bool.false_ne_true, done]
  case stop =>
    intro reason s hfirst
    exact ⟨_, rfl, faultStop_stops hfirst (by omega)⟩
  case stopped =>
    intro reason s hruns
    exact congrArg Host.Outcome.next (if_pos hruns)
  case noCheck =>
    intro just s hnone
    change execFirmwareRestart false just s = _
    simp only [execFirmwareRestart, hnone, Bool.false_eq_true, if_false, done]
  case noCopy =>
    intro rejected s hrestart hnone
    change execFirmwareRestartComplete rejected s = _
    simp only [execFirmwareRestartComplete, hrestart, if_true, hnone, done]
  case notRestarting =>
    intro rejected s hidle
    have hidle' : s.restarting = false := hidle
    change execFirmwareRestartComplete rejected s = _
    simp only [execFirmwareRestartComplete, hidle', Bool.false_eq_true, if_false, done]

end Sys2Proof.Machine
end

section

/-! What a link keeps beside its bypass channel, and the registers of the links, under the operations of a link: the facts that the
statements on training, sequenced bypass cells, link errors and lane faults rest on (13 R304 to R340). -/

namespace Sys2Proof.Machine

/-! ## A link beside its bypass channel -/

/-- What a link keeps, with its bypass cells held, waiting and sent left out. -/
def ulNotes (l : Ul) : Ul := { l with bseq := 0, bheld := [], bwait := [], bsent := 0, blate := [] }

def linkNotes (k : Nat) (s : State) : Ul := ulNotes (s.link k)

/-- A field of a link beside the bypass channel, read through its notes. -/
theorem of_linkNotes {α : Type} (g : Ul → α) (hg : ∀ l, g (ulNotes l) = g l) {k : Nat} {s t : State} (h : linkNotes k t = linkNotes k s) :
    g (t.link k) = g (s.link k) := by
  rw [← hg (t.link k), ← hg (s.link k)]
  exact congrArg g h

theorem link_of_linkNotes {α : Type} (g : Ul → α) (hg : ∀ l, g (ulNotes l) = g l) {k : Nat} {t : State} {l : Ul} (h : linkNotes k t = l) :
    g (t.link k) = g l := by
  rw [← hg (t.link k)]
  exact congrArg g h

theorem linkNotes_of_ul {s t : State} (h : t.ul = s.ul) (k : Nat) : linkNotes k t = linkNotes k s := by
  unfold linkNotes State.link
  rw [h]

theorem linkNotes_set (k : Nat) (f : Field) (v : Nat) (s : State) : linkNotes k (s.set f v) = linkNotes k s := rfl

theorem linkNotes_inc (k : Nat) (f : Field) (n : Nat) (s : State) : linkNotes k (s.inc f n) = linkNotes k s := rfl

theorem linkNotes_lineUpd (k j : Nat) (f : Line → Line) (s : State) : linkNotes k (s.lineUpd j f) = linkNotes k s := rfl

/-- A change of a link's bypass channel leaves every link's notes. -/
theorem linkNotes_linkUpd (k j : Nat) {f : Ul → Ul} (hf : ∀ l, ulNotes (f l) = ulNotes l) (s : State) :
    linkNotes k (s.linkUpd j f) = linkNotes k s := by
  unfold linkNotes
  by_cases h : k = j
  · rw [h, linkUpd_same, hf]
  · rw [linkUpd_ne _ _ h]

theorem linkNotes_markerRow (k j flags : Nat) (s : State) : linkNotes k (markerRow j flags s) = linkNotes k s :=
  linkNotes_of_ul ((keeps_markerRow (w := 0x1000000001) j flags rfl (keeps_refl _ s)).same .ul rfl) k

theorem linkNotes_bypassOut (k j bt : Nat) (seqd : Bool) (bseq : Nat) (body : List Byte) (s : State) :
    linkNotes k (bypassOut j bt seqd bseq body s) = linkNotes k s := by
  have hunit (c : List Byte) (u : State) : linkNotes k (emitUnit j c u) = linkNotes k u :=
    linkNotes_of_ul ((keeps_emitUnit (w := 0x1000000003) j c rfl (keeps_refl _ u)).same .ul rfl) k
  have hemit (o : Out) (u : State) : linkNotes k (emit o u) = linkNotes k u := rfl
  rw [bypassOut, hemit, hunit]
  exact linkNotes_linkUpd k j (by exact fun _ => rfl) s

theorem linkNotes_emitBypass (k j bt : Nat) (seqd : Bool) (bseq : Nat) (body : List Byte) (s : State) :
    linkNotes k (emitBypass j bt seqd bseq body s) = linkNotes k s := by
  unfold emitBypass
  split
  · exact linkNotes_linkUpd k j (by exact fun _ => rfl) s
  · exact linkNotes_bypassOut k j bt seqd bseq body s

theorem linkNotes_sendBypass (k j bt : Nat) (body : List Byte) (s : State) : linkNotes k (sendBypass j bt body s) = linkNotes k s := by
  unfold sendBypass
  dsimp only
  split
  · split
    · rw [linkNotes_emitBypass]
      exact linkNotes_linkUpd k j (by exact fun _ => rfl) s
    · exact linkNotes_linkUpd k j (by exact fun _ => rfl) s
  · exact linkNotes_emitBypass k j bt false 0 body s

theorem linkNotes_sendLate (k j : Nat) (s : State) : linkNotes k (sendLate j s) = linkNotes k s := by
  have hout (l : List (Nat × Bool × Nat × List Byte)) (u : State) :
      linkNotes k (doAll l (fun b => bypassOut j b.1 b.2.1 b.2.2.1 b.2.2.2) u) = linkNotes k u :=
    doAll_same (linkNotes k) l u fun b v => linkNotes_bypassOut k j b.1 b.2.1 b.2.2.1 b.2.2.2 v
  unfold sendLate
  split
  · rfl
  · dsimp only
    rw [hout]
    exact linkNotes_linkUpd k j (by exact fun _ => rfl) s

/-- A photo-finish trigger sends PHOTO cells, which changes of a link no more than its bypass channel. -/
theorem linkNotes_pfsTrigger (k b : Nat) (s : State) : linkNotes k (pfsTrigger b s) = linkNotes k s := by
  have hphoto (l : List Nat) (body : List Byte) (u : State) : linkNotes k (doAll l (fun j => sendBypass j 12 body) u) = linkNotes k u :=
    doAll_same (linkNotes k) l u fun j v => linkNotes_sendBypass k j 12 body v
  have hpfs (p : Pfs) (u : State) : linkNotes k { u with pfs := p } = linkNotes k u := rfl
  have hmissed (u : State) : linkNotes k (pfsMissed u) = linkNotes k u := rfl
  unfold pfsTrigger
  dsimp only
  split
  · split
    · split
      · exact hpfs _ _
      · split
        · rw [hpfs, hphoto, hpfs]
        · split
          · rw [hmissed, hpfs, hphoto, hpfs]
          · rw [hmissed, hphoto, hpfs]
    · split
      · rw [hmissed, hphoto, hpfs]
      · rw [linkNotes_set, hpfs, hphoto, hpfs]
  · split
    · exact hmissed s
    · split <;> exact hpfs _ _

theorem linkNotes_raiseEdge (k n : Nat) (s : State) : linkNotes k (raiseEdge n s) = linkNotes k s := by
  have hnote (u : State) : linkNotes k (noteWake n u) = linkNotes k u :=
    linkNotes_of_ul ((keeps_noteWake (w := 0x20000000) n rfl (keeps_refl _ u)).same .ul rfl) k
  have hpend (u : State) : linkNotes k (setPending n u) = linkNotes k u := rfl
  have hwake (c : Bool) : linkNotes k (doIf c (noteWake n) s) = linkNotes k s := doIf_same (linkNotes k) c s hnote
  unfold raiseEdge
  dsimp only
  rw [doIf_same (linkNotes k) _ _ (linkNotes_pfsTrigger k 2)]
  split
  · split
    · split <;> exact hwake _
    · exact hwake _
  · exact (hpend _).trans (hwake _)

theorem unraised_linkNotes (k : Nat) : Unraised (linkNotes k) := ⟨fun h => linkNotes_of_ul (h.same .ul rfl) k, linkNotes_raiseEdge k⟩

theorem linkNotes_raise (k n : Nat) (s : State) : linkNotes k (raise n s) = linkNotes k s := (unraised_linkNotes k).raise n s

theorem linkNotes_ulRaise (k j off : Nat) (s : State) : linkNotes k (ulRaise j off s) = linkNotes k s := linkNotes_raise k _ s

theorem linkNotes_logEv (k code : Nat) (d : List Byte) (s : State) : linkNotes k (logEv code d s) = linkNotes k s :=
  linkNotes_of_ul ((keeps_logEv (w := 0x2008) code d rfl (keeps_refl _ s)).same .ul rfl) k

theorem linkNotes_ulDownCause (k : Nat) (s : State) :
    linkNotes k (ulDownCause k s) = { linkNotes k s with downDue := (s.link k).downDue || ulActive s k } := by
  rw [ulDownCause, linkNotes, linkUpd_same]
  rfl

/-! ## The registers of the links -/

theorem get_markerRow (k flags : Nat) (s : State) (f : Field) : (markerRow k flags s).get f = s.get f :=
  get_of_regs ((keeps_markerRow (w := 0x1000000001) k flags rfl (keeps_refl _ s)).same .regs rfl) f

theorem get_sendBypass (k bt : Nat) (body : List Byte) (s : State) (f : Field) : (sendBypass k bt body s).get f = s.get f :=
  get_of_regs ((keeps_sendBypass (w := 0x1000008003) k bt body rfl (keeps_refl _ s)).same .regs rfl) f

theorem get_sendLate (k : Nat) (s : State) (f : Field) : (sendLate k s).get f = s.get f :=
  get_of_regs ((keeps_sendLate (w := 0x1000008003) k rfl (keeps_refl _ s)).same .regs rfl) f

/-- The raising of a link's source writes no register of a link. -/
theorem get_ulRaise {k off : Nat} (hk : k < 4) (hoff : off < 12) {f : Field} (hf : 0x600000 ≤ f.addr ∧ f.addr < 0x700000) (s : State) :
    (ulRaise k off s).get f = s.get f := get_raise _ _ _ (notMem_raiseRegs (by omega) (by omega))

/-! A register of each of the four links is a function of the link; what holds of two such registers is decided over the links. -/

abbrev OfLink (G : Nat → Field) : Prop := ∀ j : Fin 4, 0x600000 ≤ (G j).addr ∧ (G j).addr < 0x700000

/-- A register of a link that a replay does not show. -/
abbrev OffReplay (G : Nat → Field) : Prop := OfLink G ∧ ∀ j : Fin 4, (Fld.UL_STATUS_REPLAY j).Apart (G j)

section ofLink
variable (F G : Nat → Field)

theorem get_set_link_same (h : ∀ j : Fin 4, (F j).Fits) (k : Fin 4) (v : Nat) (s : State) :
    (s.set (F k) v).get (F k) = v % 2 ^ ((F k).hi + 1 - (F k).lo) := get_set_same _ _ _ (h k)

theorem get_inc_link_same (h : ∀ j : Fin 4, (F j).Fits) (k : Fin 4) (v : Nat) (s : State) :
    (s.inc (F k) v).get (F k) = min (F k).max (s.get (F k) + v) := get_inc_same _ _ _ (h k)

theorem get_set_link (h : ∀ j : Fin 4, (F j).Apart (G j)) (k : Fin 4) (v : Nat) (s : State) : (s.set (F k) v).get (G k) = s.get (G k) :=
  get_set_apart _ _ _ _ (h k)

theorem get_inc_link (h : ∀ j : Fin 4, (F j).Apart (G j)) (k : Fin 4) (v : Nat) (s : State) : (s.inc (F k) v).get (G k) = s.get (G k) :=
  get_inc_apart _ _ _ _ (h k)

theorem get_ulRaise_link (hG : OfLink G) (off : Nat) (hoff : off < 12) (k : Fin 4) (s : State) : (ulRaise k off s).get (G k) = s.get (G k) :=
  get_ulRaise k.isLt hoff (hG k) s

theorem get_logEv_link (hG : OfLink G) (code : Nat) (d : List Byte) (k : Fin 4) (s : State) : (logEv code d s).get (G k) = s.get (G k) := by
  refine get_logEv _ _ _ _ ?_
  have hlow := (hG k).1
  simp only [Fld.DEV_FAULT_LOG_VALID, Fld.DEV_FAULT_TS_STROKE_LO, List.mem_cons, List.not_mem_nil, or_false]
  omega

/-- A replay shows REPLAY at most. -/
theorem get_ulReplay_link (hG : OffReplay G) (k : Fin 4) (e : Nat) (s : State) : (ulReplay k e s).get (G k) = s.get (G k) := by
  rw [ulReplay, replayFrom, get_ulRaise_link G hG.1 4 (by decide),
    doIf_same (State.get · (G k)) _ _ fun u => get_set_link Fld.UL_STATUS_REPLAY G hG.2 k 1 u, linkUpd_get, get_markerRow]

end ofLink

/-! ## Replay (13 R332) -/

/-- A link with the cells `qs` to be sent again. -/
def ulReplays (qs : List Nat) (last : Option Nat) (at_ : Stroke) (l : Ul) : Ul := { l with replay := qs, replayTo := last, heldAt := at_ }

/-- A replay notes what is sent again and the stroke. -/
theorem linkNotes_ulReplay (k e : Nat) (s : State) : ∃ qs last at_, linkNotes k (ulReplay k e s) = ulReplays qs last at_ (linkNotes k s) := by
  rw [ulReplay, replayFrom, linkNotes_ulRaise, doIf_same (linkNotes k) _ _ fun _ => linkNotes_set k _ _ _, linkNotes, linkUpd_same,
    ← linkNotes_markerRow k k 8 s]
  exact ⟨_, _, _, rfl⟩

end Sys2Proof.Machine
end

section

/-! Sequenced bypass cells that are accepted: shifts, Coast and Park, photo-finish and forwarded commands (13 R317, R334, R336; 16 R412;
19 R454). -/

namespace Sys2Proof.Machine

/-! ## SHIFT_REQ (13 R334) -/

/-- The transmitter with its new map and epoch, its marker row sent, and the shift shown and logged. -/
def shiftTaken (k : Nat) (lane epoch : BitVec 8) (map : Word) (s : State) : State :=
  logEv 0x0040 (leBytes 1 k ++ leBytes 1 1 ++ leBytes 1 lane.toNat)
    ((((markerRow k 1 ((s.linkUpd k fun l => { l with txMap := map.toNat, txEpoch := epoch.toNat }).lineUpd k
      fun l => { l with epoch := epoch.toNat, next := none })).lineUpd k fun l => { l with map := map.toNat }).set
        (Fld.UL_STATUS_SPARE_TX k) 0).set (Fld.UL_STATUS_SHIFT k) 1)

section accepted
variable {k : Fin 4} {bseq back : BitVec 8} {s u : State} (hseq : bypassSeq k bseq.toNat back.toNat s = (u, true))
include hseq

theorem exec_bypassShiftReq_accepted {lane : BitVec 8} (hlane : lane.toNat < 9) (epoch : BitVec 8) (map : Word) :
    ∃ e, exec (.bypassShiftReq k bseq back lane epoch map) s = .next (ulReplay k e (shiftTaken k lane epoch map u)) := by
  change ∃ e, execBypassShiftReq k bseq back lane epoch map s = _
  simp only [execBypassShiftReq, hseq, hlane, and_self, if_true, done]
  exact ⟨_, rfl⟩

/-- The transmitter uses the new map and epoch, and its spare carries no lane. -/
theorem bypassShiftReq_shifts {lane : BitVec 8} (hlane : lane.toNat < 9) (epoch : BitVec 8) (map : Word) :
    Runs (.bypassShiftReq k bseq back lane epoch map) s fun t => (t.link k).txMap = map.toNat ∧ (t.link k).txEpoch = epoch.toNat ∧
      t.get (Fld.UL_STATUS_SHIFT k) = 1 ∧ t.get (Fld.UL_STATUS_SPARE_TX k) = 0 := by
  obtain ⟨e, hx⟩ := exec_bypassShiftReq_accepted hseq hlane epoch map
  have hshift : linkNotes k (shiftTaken k lane epoch map u) =
      ulNotes { u.link k with txMap := map.toNat, txEpoch := epoch.toNat } := by
    rw [shiftTaken, linkNotes_logEv, linkNotes_set, linkNotes_set, linkNotes_lineUpd, linkNotes_markerRow, linkNotes_lineUpd, linkNotes,
      linkUpd_same]
  obtain ⟨qs, last, at_, hreplay⟩ := linkNotes_ulReplay k e (shiftTaken k lane epoch map u)
  rw [hshift] at hreplay
  refine ⟨_, hx, congrArg Ul.txMap hreplay, congrArg Ul.txEpoch hreplay, ?_, ?_⟩
  · rw [get_ulReplay_link Fld.UL_STATUS_SHIFT (by decide), shiftTaken, get_logEv_link Fld.UL_STATUS_SHIFT (by decide), get_set_link_same Fld.UL_STATUS_SHIFT (by decide)]
    rfl
  · rw [get_ulReplay_link Fld.UL_STATUS_SPARE_TX (by decide), shiftTaken, get_logEv_link Fld.UL_STATUS_SPARE_TX (by decide),
      get_set_link Fld.UL_STATUS_SHIFT Fld.UL_STATUS_SPARE_TX (by decide), get_set_link_same Fld.UL_STATUS_SPARE_TX (by decide)]
    rfl

/-! ## Coast and Park (13 R336) -/

theorem exec_bypassLpmReq_park : exec (.bypassLpmReq k bseq back 2) s =
    .next (lpmTry k ((sendBypass k 11 [2] u).linkUpd k fun l => { l with lpmGo := some 2 })) := by
  change execBypassLpmReq k bseq back 2 s = _
  rw [execBypassLpmReq, hseq]
  rfl

theorem exec_bypassLpmReq_busy (hbusy : ulBusy u k = true) : exec (.bypassLpmReq k bseq back 1) s = .next (sendBypass k 11 [0] u) := by
  have hrefused : ¬ ((1 : BitVec 8) = 2 ∨ ((1 : BitVec 8) = 1 ∧ ¬ ulBusy u k = true)) := by simp [hbusy]
  change execBypassLpmReq k bseq back 1 s = _
  rw [execBypassLpmReq, hseq]
  exact congrArg done ((if_neg (not_not_intro rfl)).trans (if_neg hrefused))

theorem exec_bypassLpmAck_accepted (st : BitVec 8) : exec (.bypassLpmAck k bseq back st) s = .next (lpmTry k (u.linkUpd k fun l =>
    { l with lpmAsk := none, lpmGo := if (u.link k).lpmAsk = some st.toNat then (u.link k).lpmAsk else l.lpmGo })) := by
  change execBypassLpmAck k bseq back st s = _
  rw [execBypassLpmAck, hseq]
  rfl

theorem exec_bypassLpmAck_granted {st : BitVec 8} (hask : (u.link k).lpmAsk = some st.toNat) : exec (.bypassLpmAck k bseq back st) s =
    .next (lpmTry k (u.linkUpd k fun l => { l with lpmAsk := none, lpmGo := some st.toNat })) := by
  rw [exec_bypassLpmAck_accepted hseq]
  simp only [hask, if_true]

end accepted

section lpm
variable {k : Fin 4} {st : Nat} {s : State}

theorem lpmTry_none (hgo : (s.link k).lpmGo = none) : lpmTry k s = s := by
  rw [lpmTry, hgo]

theorem lpmTry_held (hgo : (s.link k).lpmGo = some st) (hheld : (s.link k).held ≠ []) : lpmTry k s = s := by
  rw [lpmTry, hgo]
  exact if_neg fun h => hheld (List.isEmpty_iff.mp h.1)

theorem lpmTry_taken (hgo : (s.link k).lpmGo = some st) (hheld : (s.link k).held = []) (hactive : ulActive s k = true) : lpmTry k s =
    ulRaise k 9 (((emit (.ulLine k 0 0) (markerRow k 2 s)).set (Fld.UL_STATUS_LPM k) st).linkUpd k fun l => { l with lpmGo := none }) := by
  rw [lpmTry, hgo]
  exact if_pos ⟨List.isEmpty_iff.mpr hheld, hactive⟩

/-- The link enters the state accepted, and nothing waits to enter any longer. -/
theorem lpmTry_enters (hgo : (s.link k).lpmGo = some st) (hheld : (s.link k).held = []) (hactive : ulActive s k = true) (hst : st < 4) :
    (lpmTry k s).get (Fld.UL_STATUS_LPM k) = st ∧ ((lpmTry k s).link k).lpmGo = none := by
  rw [lpmTry_taken hgo hheld hactive]
  constructor
  · rw [get_ulRaise_link Fld.UL_STATUS_LPM (by decide) 9 (by decide), linkUpd_get, get_set_link_same Fld.UL_STATUS_LPM (by decide)]
    exact Nat.mod_eq_of_lt hst
  · rw [of_linkNotes (·.lpmGo) (fun _ => rfl) (linkNotes_ulRaise k k 9 _), linkUpd_same]

end lpm

/-- An LPM_ACK that grants nothing asked for ends the request alone. -/
theorem bypassLpmAck_ends {k : Fin 4} {bseq back st : BitVec 8} {s u : State} (hseq : bypassSeq k bseq.toNat back.toNat s = (u, true))
    (hask : (u.link k).lpmAsk ≠ some st.toNat) (hgo : (u.link k).lpmGo = none) :
    Runs (.bypassLpmAck k bseq back st) s fun t => (t.link k).lpmAsk = none ∧ t.get (Fld.UL_STATUS_LPM k) = u.get (Fld.UL_STATUS_LPM k) := by
  refine ⟨_, exec_bypassLpmAck_accepted hseq st, ?_⟩
  simp only [if_neg hask]
  rw [lpmTry_none (by rw [linkUpd_same, hgo]), linkUpd_same, linkUpd_get]
  exact ⟨rfl, rfl⟩

/-! ## PHOTO (19 R454, R455) -/

/-- What a PHOTO cell names waits or is missed: the status of the block changes, and no pair seen. -/
theorem photoPend_keeps (at_ : Stroke) (s : State) {f : Field} (hf : f.addr ≠ Fld.PFS_STAT_PEL_PENDING.addr) :
    (photoPend at_ s).get f = s.get f ∧ (photoPend at_ s).pfs.seen = s.pfs.seen := by
  have hmissed (u : State) : (pfsMissed u).get f = u.get f ∧ (pfsMissed u).pfs.seen = u.pfs.seen :=
    ⟨get_setWord_ne _ _ hf, by rw [pfsMissed, inc_pfs]⟩
  have hpend (l : Option (Stroke × Nat)) (u : State) :
      (({ u with pfs := { u.pfs with pel := l } } : State).set Fld.PFS_STAT_PEL_PENDING 1).get f = u.get f ∧
        (({ u with pfs := { u.pfs with pel := l } } : State).set Fld.PFS_STAT_PEL_PENDING 1).pfs.seen = u.pfs.seen :=
    ⟨get_setWord_ne _ _ hf, by rw [set_pfs]⟩
  unfold photoPend
  dsimp only
  split
  · exact hmissed s
  · split
    · exact hpend _ s
    · split
      · exact hpend _ s
      · split
        · exact ⟨(hpend _ _).1.trans (hmissed s).1, (hpend _ _).2.trans (hmissed s).2⟩
        · exact hmissed s

/-- The pair recorded in PFS_BCAST. -/
def photoRecorded (origin num : Nat) (s : State) : State :=
  (((({ s with pfs := { s.pfs with seen := (origin, num) :: s.pfs.seen } } : State).setWord Adr.PFS_BCAST 0).set
    Fld.PFS_BCAST_VALID 1).set Fld.PFS_BCAST_ORIGIN origin).set Fld.PFS_BCAST_NUMBER num

/-- The PHOTO cell goes on, on the links `l`. -/
def photoForwarded (l : List Nat) (body : List Byte) (s : State) : State := doAll l (fun j => sendBypass j 12 body) s

theorem get_photoForwarded (l : List Nat) (body : List Byte) (s : State) (f : Field) : (photoForwarded l body s).get f = s.get f :=
  doAll_same (State.get · f) l s fun j u => get_sendBypass j 12 body u f

theorem pfs_photoForwarded (l : List Nat) (body : List Byte) (s : State) : (photoForwarded l body s).pfs = s.pfs :=
  doAll_same State.pfs l s fun j u => (keeps_sendBypass (w := 0x1000008003) j 12 body rfl (keeps_refl _ u)).same .pfs rfl

section photo
variable {k : Fin 4} {bseq back : BitVec 8} {stroke : Stroke} {origin : Fin 8} {src : BitVec 8} {num : BitVec 16} {s u : State}
  (hseq : bypassSeq k bseq.toNat back.toNat s = (u, true))
include hseq

theorem exec_bypassPhoto_seen (hseen : (origin.val, num.toNat) ∈ u.pfs.seen) :
    exec (.bypassPhoto k bseq back stroke origin src num) s = .next u := by
  change execBypassPhoto k bseq back stroke origin src num s = _
  simp only [execBypassPhoto, hseq, hseen, or_true, if_true, done]

theorem exec_bypassPhoto_new (hnew : (origin.val, num.toNat) ∉ u.pfs.seen) : ∃ l body,
    exec (.bypassPhoto k bseq back stroke origin src num) s =
      .next (photoPend stroke (photoForwarded l body (photoRecorded origin num.toNat u))) := by
  change ∃ l body, execBypassPhoto k bseq back stroke origin src num s = _
  simp only [execBypassPhoto, hseq, hnew, not_true_eq_false, or_self, if_false, done]
  exact ⟨_, _, rfl⟩

theorem bypassPhoto_records (hnew : (origin.val, num.toNat) ∉ u.pfs.seen) :
    Runs (.bypassPhoto k bseq back stroke origin src num) s fun t => (origin.val, num.toNat) ∈ t.pfs.seen ∧
      t.get Fld.PFS_BCAST_ORIGIN = origin.val ∧ t.get Fld.PFS_BCAST_NUMBER = num.toNat ∧ t.get Fld.PFS_BCAST_VALID = 1 := by
  obtain ⟨l, body, hx⟩ := exec_bypassPhoto_new (stroke := stroke) (src := src) hseq hnew
  have hget {f : Field} (hf : f.addr ≠ Fld.PFS_STAT_PEL_PENDING.addr) (v : State) :
      (photoPend stroke (photoForwarded l body v)).get f = v.get f :=
    (photoPend_keeps stroke _ hf).1.trans (get_photoForwarded l body v f)
  have hseen (v : State) : (photoPend stroke (photoForwarded l body v)).pfs.seen = v.pfs.seen :=
    (photoPend_keeps stroke _ (f := Fld.PFS_BCAST_VALID) (by decide)).2.trans (congrArg Pfs.seen (pfs_photoForwarded l body v))
  refine ⟨_, hx, ?_, ?_, ?_, ?_⟩
  · rw [hseen, photoRecorded, set_pfs, set_pfs, set_pfs, setWord_pfs]
    exact List.mem_cons_self
  · rw [hget (by decide), photoRecorded, get_set_apart _ _ _ _ (by decide), get_set_same _ _ _ (by decide)]
    exact Nat.mod_eq_of_lt origin.isLt
  · rw [hget (by decide), photoRecorded, get_set_same _ _ _ (by decide)]
    exact Nat.mod_eq_of_lt num.isLt
  · rw [hget (by decide), photoRecorded, get_set_apart _ _ _ _ (by decide), get_set_apart _ _ _ _ (by decide),
      get_set_same _ _ _ (by decide)]
    rfl

end photo

/-! ## PEER_MBX (16 R412) -/

section peerMbx
variable {k : Fin 4} {bseq back : BitVec 8} {txn : BitVec 16} {flags : BitVec 8} {data : List Byte} {s u : State}
  (hseq : bypassSeq k bseq.toNat back.toNat s = (u, true)) (hrequest : flags.getLsbD 1 = false)
include hseq hrequest

theorem exec_bypassPeerMbx_noRoute (hother : bitsOf (leAt (sliceBytes data 0 20) 0 4) 26 24 ≠ u.me)
    (hroute : u.route (bitsOf (leAt (sliceBytes data 0 20) 0 4) 26 24) = none) :
    exec (.bypassPeerMbx k bseq back txn 0 flags data) s = .next u := by
  change execBypassPeerMbx k bseq back txn 0 flags data s = _
  simp only [execBypassPeerMbx, hseq, hrequest, hother, hroute, not_true_eq_false, Bool.false_eq_true, if_false, ne_eq, not_false_eq_true,
    and_self, if_true, done]

theorem exec_bypassPeerMbx_own {idx : BitVec 8} (hme : bitsOf (leAt (sliceBytes data 0 20) 0 4) 26 24 = u.me)
    (hend : (u.mbx.relay.any fun r => r.1 == k.val && r.2.1 == txn.toNat) = false) :
    exec (.bypassPeerMbx k bseq back txn idx flags data) s =
      .next (requestPart k txn.toNat idx.toNat (flags.getLsbD 2) (flags.getLsbD 0) (sliceBytes data 0 20) u) := by
  change execBypassPeerMbx k bseq back txn idx flags data s = _
  simp only [execBypassPeerMbx, hseq, hrequest, hme, hend, not_true_eq_false, Bool.false_eq_true, if_false, ne_eq, and_false, done]

end peerMbx

/-- Settles O36: each row by its equation once the cell is accepted; what it sends changes of a link no more than its bypass channel. -/
theorem sequencedBypassCells : Obligations.SequencedBypassCells := by
  unfold Obligations.SequencedBypassCells
  refine ⟨?shiftRefused, ?shift, ?park, ?busy, ?ackEnds, ?ackGranted, ?enters, ?held, ?seen, ?records, ?mbxRefused, ?noRoute, ?own⟩
  case shiftRefused =>
    intro k bseq back lane epoch map s u hseq
    change execBypassShiftReq k bseq back lane epoch map s = _
    simp only [execBypassShiftReq, hseq, Bool.false_eq_true, false_and, if_false, done]
  case shift => exact fun _ _ _ _ epoch map _ _ hseq hlane _ => bypassShiftReq_shifts hseq hlane epoch map
  case park => exact fun _ _ _ _ _ => exec_bypassLpmReq_park
  case busy => exact fun _ _ _ _ _ => exec_bypassLpmReq_busy
  case ackEnds => exact fun _ _ _ _ _ _ => bypassLpmAck_ends
  case ackGranted => exact fun _ _ _ _ _ _ hseq => exec_bypassLpmAck_granted hseq
  case enters => exact fun _ _ _ => lpmTry_enters
  case held => exact fun _ _ _ => lpmTry_held
  case seen => exact fun _ _ _ _ _ _ _ _ _ => exec_bypassPhoto_seen
  case records => exact fun _ _ _ _ _ _ _ _ _ => bypassPhoto_records
  case mbxRefused =>
    intro k bseq back txn idx flags data s u hseq
    change execBypassPeerMbx k bseq back txn idx flags data s = _
    simp only [execBypassPeerMbx, hseq, Bool.false_eq_true, not_false_eq_true, if_true, done]
  case noRoute => exact fun _ _ _ _ _ _ _ _ => exec_bypassPeerMbx_noRoute
  case own => exact fun _ _ _ _ _ _ _ _ _ hseq hrequest => exec_bypassPeerMbx_own hseq hrequest

end Sys2Proof.Machine
end

section

/-! Cells received, acknowledgements, link errors and lane faults, Coast and Park (13 R324 to R337). -/

namespace Sys2Proof.Machine

/-! ## Received cells (13 R328, R329) -/

/-- The ACK field of a cell. -/
def ackTaken (k : Nat) (ack : Option (BitVec 12)) (s : State) : State :=
  match ack with
  | some a => ackCover k a.toNat s
  | none => s

theorem unacked_lpmTry (k : Nat) (s : State) : ((lpmTry k s).link k).unacked = (s.link k).unacked := by
  unfold lpmTry
  split
  · split
    · rw [of_linkNotes (·.unacked) (fun _ => rfl) (linkNotes_ulRaise k k 9 _), linkUpd_same, set_link, emit_link]
      exact of_linkNotes (·.unacked) (fun _ => rfl) (linkNotes_markerRow k k 2 s)
    · rfl
  · rfl

theorem peak_link (f : Field) (v j : Nat) (s : State) : (s.peak f v).link j = s.link j := by
  unfold State.peak
  split
  · rw [set_link]
  · rfl

theorem link_updHeld (k j : Nat) (s : State) : (updHeld k s).link j = s.link j := by
  rw [updHeld, peak_link, set_link]

theorem unacked_ackCover (k e : Nat) (s : State) : ((ackCover k e s).link k).unacked = (s.link k).unacked := by
  unfold ackCover
  dsimp only
  split
  · rw [unacked_lpmTry, link_updHeld, linkUpd_same]
  · rfl

theorem unacked_ackTaken (k : Nat) (ack : Option (BitVec 12)) (s : State) : ((ackTaken k ack s).link k).unacked = (s.link k).unacked := by
  cases ack with
  | none => rfl
  | some a => exact unacked_ackCover k a.toNat s

theorem unacked_ulCredit (k vc n : Nat) (s : State) : ((ulCredit k vc n s).link k).unacked = (s.link k).unacked := by
  rw [ulCredit, linkUpd_same, set_link]

theorem unacked_ulFree (k : Nat) (s : State) : ((ulFree k s).link k).unacked = (s.link k).unacked := by
  refine doAll_same (fun u => (u.link k).unacked) [0, 1, 2, 3] s fun vc u => ?_
  split
  · rfl
  · rw [linkUpd_same]

theorem unacked_ulProto (k code seq : Nat) (s : State) : ((ulProto k code seq s).link k).unacked = (s.link k).unacked := by
  have hnotes : linkNotes k (ulProto k code seq s) = { linkNotes k s with downDue := (linkNotes k (ulProto k code seq s)).downDue } := by
    rw [ulProto, linkNotes_ulDownCause, linkNotes_ulRaise, linkNotes_set, linkNotes_set, linkNotes_set]
  exact (link_of_linkNotes (·.unacked) (fun _ => rfl) hnotes).trans rfl

/-- An accepted cell is one more to acknowledge, one that breaks the protocol none. -/
theorem unacked_ulAccept (k vc off seq : Nat) (data : List Byte) (s : State) :
    ((ulAccept k vc off seq data s).link k).unacked ≤ (s.link k).unacked + 1 := by
  unfold ulAccept
  dsimp only
  split
  · rw [unacked_ulProto]
    exact Nat.le_succ _
  · rw [unacked_ulFree, set_link, linkUpd_same]

/-- The expected cell: its ACK field acknowledges, its credit field adds credits, and its payload joins the stream. -/
def cellTaken (k vc off : Nat) (seq : BitVec 12) (cv : Nat) (cc : BitVec 8) (ack : Option (BitVec 12)) (data : List Byte) (s : State) : State :=
  ulAccept k vc off seq.toNat (sliceBytes data 0 256) (ulCredit k cv cc.toNat (ackTaken k ack s))

theorem unacked_cellTaken (k vc off : Nat) (seq : BitVec 12) (cv : Nat) (cc : BitVec 8) (ack : Option (BitVec 12)) (data : List Byte)
    (s : State) : ((cellTaken k vc off seq cv cc ack data s).link k).unacked ≤ (s.link k).unacked + 1 := by
  have haccept := unacked_ulAccept k vc off seq.toNat (sliceBytes data 0 256) (ulCredit k cv cc.toNat (ackTaken k ack s))
  rwa [unacked_ulCredit, unacked_ackTaken] at haccept

section heard
variable {k vc cv : Fin 4} {seq : BitVec 12} {ack : Option (BitVec 12)} {cc : BitVec 8} {off : Fin 257} {data : List Byte} {s : State}
  (hhears : ulHears s k = true)
include hhears

theorem exec_ulCellReceive_reserved :
    exec (.ulCellReceive k vc seq ack cv cc off true data) s = .next (ulProto k 4 seq.toNat s) := by
  change execUlCellReceive k vc seq ack cv cc off true data s = _
  exact congrArg done ((if_neg (not_not_intro hhears)).trans (if_pos rfl))

theorem exec_ulCellReceive_other (hseq : seq.toNat ≠ s.get (Fld.UL_SEQ_RX_EXP k)) :
    exec (.ulCellReceive k vc seq ack cv cc off false data) s =
      .next (if beforeExp (s.get (Fld.UL_SEQ_RX_EXP k)) seq.toNat then sendAck k s
        else if (s.link k).errOut then s else ulProto k 1 seq.toNat s) := by
  change execUlCellReceive k vc seq ack cv cc off false data s = _
  exact congrArg done (((if_neg (not_not_intro hhears)).trans (if_neg Bool.false_ne_true)).trans (if_neg hseq))

/-- The expected cell within credits, on a link out of Coast with fewer than fifteen cells unacknowledged. -/
theorem exec_ulCellReceive_expected (hseq : seq.toNat = s.get (Fld.UL_SEQ_RX_EXP k))
    (hcredit : crUsed (s.link k) vc < ulAdvertised.getD vc 0) (hrun : s.get (Fld.UL_STATUS_LPM k) = 0) (hfew : (s.link k).unacked < 15) :
    exec (.ulCellReceive k vc seq ack cv cc off false data) s =
      .next (cellTaken k vc off seq cv cc ack data s) := by
  have hbound := unacked_cellTaken k vc off seq cv cc ack data s
  have hnone : decide (16 ≤ ((cellTaken k vc off seq cv cc ack data s).link k).unacked) = false := decide_eq_false (by omega)
  change execUlCellReceive k vc seq ack cv cc off false data s = _
  refine congrArg done ((((if_neg (not_not_intro hhears)).trans (if_neg Bool.false_ne_true)).trans (if_pos hseq)).trans
    ((if_neg (Nat.not_le.mpr hcredit)).trans ?_))
  rw [hrun, show ((0 : Nat) == 1) = false from rfl, doIf_false]
  change doIf (decide (16 ≤ ((cellTaken k vc off seq cv cc ack data s).link k).unacked)) (sendAck k) (cellTaken k vc off seq cv cc ack data s) = _
  rw [hnone, doIf_false]

end heard

/-! ## Link errors (13 R330) -/

/-- A link after a NAK went. -/
def ulNaks (at_ : Stroke) (due : Bool) (l : Ul) : Ul := { l with nakNo := l.nakNo + 1, nakAt := at_, downDue := due }

theorem linkNotes_sendNak (k : Nat) (s : State) : ∃ due, linkNotes k (sendNak k s) = ulNaks s.now due (linkNotes k s) := by
  have hsent (v : Nat) (body : List Byte) : linkNotes k (sendBypass k 4 body ((s.inc (Fld.UL_ERR_CNT_NAK_SENT k) v).linkUpd k fun l =>
      { l with nakNo := l.nakNo + 1, nakAt := s.now })) = ulNaks s.now (s.link k).downDue (linkNotes k s) := by
    rw [linkNotes_sendBypass, linkNotes, linkUpd_same, inc_link]
    rfl
  unfold sendNak
  cases decide (4 ≤ (s.link k).nakNo + 1)
  · exact ⟨_, hsent _ _⟩
  · rw [doIf_true, linkNotes_ulDownCause, hsent]
    exact ⟨_, rfl⟩

/-- A link after an error: delineation is lost, and an error is outstanding. -/
def ulErred (no : Nat) (at_ : Stroke) (due : Bool) (left : Nat) (l : Ul) : Ul :=
  { l with lostSync := true, errOut := true, nakNo := no, nakAt := at_, downDue := due, rxLeft := left }

theorem linkNotes_ulLinkError {k : Nat} {s : State} (hactive : ulActive s k = true) : ∃ no at_ due left,
    linkNotes k (ulLinkError k s) = ulErred no at_ due left (linkNotes k s) := by
  have hnoted (no left v : Nat) : linkNotes k (ulRaise k 5 (((s.linkUpd k fun l =>
      { l with lostSync := true, errOut := true, nakNo := no, rxLeft := left }).drewOne).set (Fld.UL_STATUS_REPLAY k) v)) =
        ulErred no (s.link k).nakAt (s.link k).downDue left (linkNotes k s) := by
    rw [linkNotes_ulRaise, linkNotes_set, linkNotes, drewOne_link, linkUpd_same]
    rfl
  unfold ulLinkError
  rw [if_pos hactive]
  cases (s.link k).errOut
  · obtain ⟨due, hnak⟩ := linkNotes_sendNak k (ulRaise k 5 (((s.linkUpd k fun l =>
      { l with lostSync := true, errOut := true, nakNo := 0, rxLeft := s.draw.toNat % 241 }).drewOne).set (Fld.UL_STATUS_REPLAY k) 1))
    rw [hnoted] at hnak
    exact ⟨_, _, _, _, hnak⟩
  · exact ⟨_, _, _, _, hnoted _ _ _⟩

/-- A link that lost delineation alone. -/
def ulLost (l : Ul) : Ul := { l with lostSync := true }

/-- Before ACTIVE an error costs the delineation alone. -/
theorem linkNotes_ulLinkError_early {k : Nat} {s : State} (hactive : ulActive s k = false) :
    linkNotes k (ulLinkError k s) = ulLost (linkNotes k s) := by
  unfold ulLinkError
  rw [if_neg (by simp [hactive]), linkNotes_ulRaise, linkNotes, linkUpd_same]
  rfl

/-- A register of a link that neither shows a replay nor counts a NAK. -/
abbrev OffError (G : Nat → Field) : Prop := OffReplay G ∧ ∀ j : Fin 4, (Fld.UL_ERR_CNT_NAK_SENT j).Apart (G j)

section registers
variable (G : Nat → Field) (hG : OffError G) (k : Fin 4) (s : State)
include hG

theorem get_sendNak_link : (sendNak k s).get (G k) = s.get (G k) := by
  rw [sendNak, doIf_same (State.get · (G k)) _ _ fun u => ulDownCause_get k u (G k), get_sendBypass, linkUpd_get,
    get_inc_link Fld.UL_ERR_CNT_NAK_SENT G hG.2]

/-- A link error shows REPLAY and counts its NAK. -/
theorem get_ulLinkError_link : (ulLinkError k s).get (G k) = s.get (G k) := by
  have hreplay := hG.1
  unfold ulLinkError
  dsimp only
  split
  · rw [doIf_same (State.get · (G k)) _ _ fun u => get_sendNak_link G hG k u, get_ulRaise_link G hreplay.1 5 (by decide),
      get_set_link Fld.UL_STATUS_REPLAY G hreplay.2, drewOne_get, linkUpd_get]
  · rw [get_ulRaise_link G hreplay.1 5 (by decide), linkUpd_get]

end registers

theorem ulActive_of_get {k : Nat} {s t : State} (h : t.get (Fld.UL_STATUS_STATE k) = s.get (Fld.UL_STATUS_STATE k)) :
    ulActive t k = ulActive s k := by
  rw [ulActive, State.ulState, h, ulActive, State.ulState]

theorem exec_ulLinkError_crc {k : Fin 4} {s : State} (hactive : ulActive s k = true) :
    exec (.ulLinkError k .crc) s = .next (ulLinkError k (s.inc (Fld.UL_ERR_CNT_CRC k) 1)) := by
  change execUlLinkError k .crc s = _
  rw [execUlLinkError, if_pos (.inl hactive), done]

theorem exec_ulLinkError_bypassCrc {k : Fin 4} {s : State} (hparam : inParam s k = true) :
    exec (.ulLinkError k .bypassCrc) s = .next (ulLinkError k (s.inc (Fld.UL_BYP_CRC k) 1)) := by
  change execUlLinkError k .bypassCrc s = _
  rw [execUlLinkError, if_pos (.inr hparam), done]

theorem ulLinkError_crc {k : Fin 4} {s : State} (hactive : ulActive s k = true) : Runs (.ulLinkError k .crc) s fun t =>
    (t.link k).lostSync = true ∧ (t.link k).errOut = true ∧
      t.get (Fld.UL_ERR_CNT_CRC k) = min (Fld.UL_ERR_CNT_CRC k).max (s.get (Fld.UL_ERR_CNT_CRC k) + 1) := by
  have hactive' : ulActive (s.inc (Fld.UL_ERR_CNT_CRC k) 1) k = true :=
    (ulActive_of_get (get_inc_link Fld.UL_ERR_CNT_CRC Fld.UL_STATUS_STATE (by decide) k 1 s)).trans hactive
  obtain ⟨no, at_, due, left, hnotes⟩ := linkNotes_ulLinkError hactive'
  refine ⟨_, exec_ulLinkError_crc hactive, link_of_linkNotes (·.lostSync) (fun _ => rfl) hnotes,
    link_of_linkNotes (·.errOut) (fun _ => rfl) hnotes, ?_⟩
  rw [get_ulLinkError_link Fld.UL_ERR_CNT_CRC (by decide), get_inc_link_same Fld.UL_ERR_CNT_CRC (by decide)]

theorem ulLinkError_early {k : Fin 4} {s : State} (hparam : inParam s k = true) (hactive : ulActive s k = false) :
    Runs (.ulLinkError k .bypassCrc) s fun t => (t.link k).lostSync = true ∧ (t.link k).errOut = (s.link k).errOut ∧
      t.get (Fld.UL_BYP_CRC k) = min (Fld.UL_BYP_CRC k).max (s.get (Fld.UL_BYP_CRC k) + 1) := by
  have hactive' : ulActive (s.inc (Fld.UL_BYP_CRC k) 1) k = false :=
    (ulActive_of_get (get_inc_link Fld.UL_BYP_CRC Fld.UL_STATUS_STATE (by decide) k 1 s)).trans hactive
  have hnotes := (linkNotes_ulLinkError_early hactive').trans (congrArg ulLost (linkNotes_inc k _ _ s))
  refine ⟨_, exec_ulLinkError_bypassCrc hparam, link_of_linkNotes (·.lostSync) (fun _ => rfl) hnotes,
    (link_of_linkNotes (·.errOut) (fun _ => rfl) hnotes).trans rfl, ?_⟩
  rw [get_ulLinkError_link Fld.UL_BYP_CRC (by decide), get_inc_link_same Fld.UL_BYP_CRC (by decide)]

theorem ulNakRepeat_sends {k : Fin 4} {s : State} (hactive : ulActive s k = true) (herr : (s.link k).errOut = true)
    (hpark : s.get (Fld.UL_STATUS_LPM k) ≠ 2) (hdue : 2 ≤ s.since (s.link k).nakAt) :
    Runs (.ulNakRepeat k) s fun t => (t.link k).nakNo = (s.link k).nakNo + 1 ∧ (t.link k).nakAt = s.now := by
  obtain ⟨due, hnotes⟩ := linkNotes_sendNak k s
  exact ⟨_, congrArg done (if_pos ⟨hactive, hpark, herr, hdue⟩), link_of_linkNotes (·.nakNo) (fun _ => rfl) hnotes,
    link_of_linkNotes (·.nakAt) (fun _ => rfl) hnotes⟩

/-! ## Lane faults (13 R333 to R335) -/

/-- A receive lane that lost block lock. -/
def laneUnlocked (k lane : Nat) (s : State) : State := s.set (Fld.UL_LANE_RX_LOCKED k lane) 0

/-- A receive lane is retired. -/
def laneRetired (k lane : Nat) (s : State) : State := s.set (Fld.UL_LANES_RETIRED k) (orBit (s.get (Fld.UL_LANES_RETIRED k)) lane)

section lane
variable {k : Fin 4} {lane : Fin 9} {s : State}

/-- A lane's own register lies behind the registers of its link. -/
theorem get_laneUnlocked (G : Nat → Field) (h : ∀ (l : Fin 9) (j : Fin 4), (G j).addr ≠ (Fld.UL_LANE_RX_LOCKED j l).addr) :
    (laneUnlocked k lane s).get (G k) = s.get (G k) := get_set_of_addr_ne (h lane k) _ _

theorem map_laneUnlocked : (laneUnlocked k lane s).word (Adr.UL_MAP k) = s.word (Adr.UL_MAP k) := by
  refine word_set_ne _ _ _ ?_
  simp only [Adr.UL_MAP, Fld.UL_LANE_RX_LOCKED]
  omega

theorem ulActive_laneUnlocked : ulActive (laneUnlocked k lane s) k = ulActive s k := ulActive_of_get (get_laneUnlocked Fld.UL_STATUS_STATE (by decide))

theorem inParam_laneUnlocked : inParam (laneUnlocked k lane s) k = inParam s k := by
  have hlink : (laneUnlocked k lane s).link k = s.link k := set_link _ _ _ _
  rw [inParam, State.ulState, get_laneUnlocked Fld.UL_STATUS_STATE (by decide), hlink, inParam, State.ulState]

theorem laneUsed_laneUnlocked : laneUsed (laneUnlocked k lane s) k lane = laneUsed s k lane := by
  rw [laneUsed, map_laneUnlocked, laneUsed]

theorem spareLane_laneUnlocked : spareLane (laneUnlocked k lane s) k = spareLane s k := by
  rw [spareLane, map_laneUnlocked, isSet_of_get (get_laneUnlocked Fld.UL_STATUS_W4 (by decide)), get_laneUnlocked Fld.UL_LANES_PASSED (by decide),
    get_laneUnlocked Fld.UL_LANES_RETIRED (by decide), spareLane]

theorem retired_laneRetired : bitOf ((laneRetired k lane s).get (Fld.UL_LANES_RETIRED k)) lane = true := by
  rw [laneRetired, get_set_link_same Fld.UL_LANES_RETIRED (by decide)]
  exact bitOf_orBit_mod _ lane.isLt

theorem ulActive_laneRetired : ulActive (laneRetired k lane s) k = ulActive s k :=
  ulActive_of_get (get_set_link Fld.UL_LANES_RETIRED Fld.UL_STATUS_STATE (by decide) k _ s)

theorem locked_laneRetired : (laneRetired k lane s).get (Fld.UL_LANE_RX_LOCKED k lane) = s.get (Fld.UL_LANE_RX_LOCKED k lane) :=
  have h : ∀ (l : Fin 9) (j : Fin 4), (Fld.UL_LANE_RX_LOCKED j l).addr ≠ (Fld.UL_LANES_RETIRED j).addr := by decide
  get_set_of_addr_ne (h lane k) _ _

theorem locked_laneUnlocked : (laneUnlocked k lane s).get (Fld.UL_LANE_RX_LOCKED k lane) = 0 := by
  have h : ∀ (l : Fin 9) (j : Fin 4), (Fld.UL_LANE_RX_LOCKED j l).Fits := by decide
  rw [laneUnlocked, get_set_same _ _ _ (h lane k)]
  rfl

theorem locked_ulLinkError : (ulLinkError k s).get (Fld.UL_LANE_RX_LOCKED k lane) = s.get (Fld.UL_LANE_RX_LOCKED k lane) := by
  have hoff : ∀ l : Fin 9, OffError (fun j => Fld.UL_LANE_RX_LOCKED j l) := by decide
  exact get_ulLinkError_link (fun j => Fld.UL_LANE_RX_LOCKED j lane) (hoff lane) k s

theorem exec_ulLaneFault_heard (h : ulActive s k = true ∨ inParam s k = true) :
    exec (.ulLaneFault k lane) s = .next (laneFault k lane (laneUnlocked k lane s)) := by
  change done (laneFault k lane (doIf (ulActive s k || inParam s k) (laneUnlocked k lane) s)) = _
  rw [Bool.or_eq_true_iff.mpr h, doIf_true, done]

theorem exec_ulLaneFault_unheard (hactive : ulActive s k = false) (hparam : inParam s k = false) :
    exec (.ulLaneFault k lane) s = .next s := by
  have hsame : laneFault k lane s = s := by
    unfold laneFault
    dsimp only
    rw [hactive, hparam, doIf_false]
    split
    · rfl
    · exact if_pos Bool.false_ne_true
  change done (laneFault k lane (doIf (ulActive s k || inParam s k) (laneUnlocked k lane) s)) = _
  rw [hactive, hparam, Bool.or_self, doIf_false, hsame, done]

section notRetired
variable (hretired : bitOf (s.get (Fld.UL_LANES_RETIRED k)) lane = false)
include hretired

/-- In the INIT exchange a faulty lane is retired. -/
theorem laneFault_exchange (hactive : ulActive s k = false) (hparam : inParam s k = true) :
    laneFault k lane s = ulLinkError k (laneRetired k lane s) := by
  have hidle : ¬ ulActive s k = true := by simp [hactive]
  rw [laneFault, if_neg (by simp [hretired]), if_pos hidle, hparam, doIf_true, laneRetired]

variable (hactive : ulActive s k = true) (hused : laneUsed s k lane = true)
include hactive hused

theorem laneFault_down (hspare : spareLane s k = none) : laneFault k lane s = ulDownCause k (ulLinkError k (laneRetired k lane s)) := by
  rw [laneFault, if_neg (by simp [hretired]), if_neg (not_not_intro hactive), if_neg (not_not_intro hused), hspare]
  rfl

theorem laneFault_shift {p : Nat} (hspare : spareLane s k = some p) (hnone : (s.link k).newMap = none) :
    laneFault k lane s = shiftStart k lane p (laneRetired k lane s) := by
  rw [laneFault, if_neg (by simp [hretired]), if_neg (not_not_intro hactive), if_neg (not_not_intro hused), hspare]
  exact if_neg (by simp [hnone])

end notRetired

end lane

/-! ## The receive direction shifts (13 R334) -/

theorem linkNotes_reportCie (k : Nat) (s : State) : linkNotes k (reportCie s) = linkNotes k s := by
  have hfn (c : Nat) (f : Fn → Fn) (u : State) : linkNotes k (u.fnUpd c f) = linkNotes k u := rfl
  have hemit (o : Out) (u : State) : linkNotes k (emit o u) = linkNotes k u := rfl
  rw [reportCie, aerCor, linkNotes_raise, aerMessage, doIf_same (linkNotes k) _ _ (hemit _), hfn]

/-- The map and epoch to come, as SHIFT_REQ asks for them. -/
def mapWanted (k lane spare : Nat) (s : State) : Nat × Nat :=
  ((s.get (Fld.UL_LANES_EPOCH k) + 1) % 256, swapLane (s.word (Adr.UL_MAP k)).toNat lane spare)

/-- The shift shown, counted, noted and logged. -/
def shiftNoted (k lane spare : Nat) (s : State) : State :=
  logEv 0x0040 (leBytes 1 k ++ leBytes 1 0 ++ leBytes 1 lane) (ulRaise k 2
    ((((s.set (Fld.UL_STATUS_SPARE_RX k) 0).set (Fld.UL_STATUS_SHIFT k) 1).inc (Fld.UL_EVT_CNT_SHIFTS k) 1).linkUpd k
      fun l => { l with newMap := some (mapWanted k lane spare s) }))

theorem shiftStart_eq (k lane spare : Nat) (s : State) : ∃ body,
    shiftStart k lane spare s = reportCie (sendBypass k 9 body (ulLinkError k (shiftNoted k lane spare s))) := ⟨_, rfl⟩

theorem linkNotes_shiftNoted (k lane spare : Nat) (s : State) :
    linkNotes k (shiftNoted k lane spare s) = ulNotes { s.link k with newMap := some (mapWanted k lane spare s) } := by
  rw [shiftNoted, linkNotes_logEv, linkNotes_ulRaise, linkNotes, linkUpd_same, inc_link, set_link, set_link]

/-- A register of a link that neither shows nor counts a shift. -/
abbrev OffShift (G : Nat → Field) : Prop := OffError G ∧
  ∀ j : Fin 4, (Fld.UL_EVT_CNT_SHIFTS j).Apart (G j) ∧ (Fld.UL_STATUS_SHIFT j).Apart (G j) ∧ (Fld.UL_STATUS_SPARE_RX j).Apart (G j)

section
variable (G : Nat → Field) (hG : OffShift G) (k : Fin 4) (lane spare : Nat) (s : State)
include hG

theorem get_shiftNoted_link : (shiftNoted k lane spare s).get (G k) = s.get (G k) := by
  obtain ⟨hcount, hshift, hspare⟩ := hG.2 k
  have hlink := hG.1.1.1
  rw [shiftNoted, get_logEv_link G hlink, get_ulRaise_link G hlink 2 (by decide), linkUpd_get, get_inc_apart _ _ _ _ hcount,
    get_set_apart _ _ _ _ hshift, get_set_apart _ _ _ _ hspare]

theorem get_shiftStart_link : (shiftStart k lane spare s).get (G k) = s.get (G k) := by
  obtain ⟨body, hstart⟩ := shiftStart_eq k lane spare s
  have haddr := hG.1.1.1 k
  rw [hstart, get_reportCie _ _ (notMem_raiseRegs (by decide) (by omega)), get_sendBypass, get_ulLinkError_link G hG.1,
    get_shiftNoted_link G hG]

end

theorem shiftStart_link {k : Fin 4} {s : State} (hactive : ulActive s k = true) (lane spare : Nat) :
    ((shiftStart k lane spare s).link k).newMap = some (mapWanted k lane spare s) ∧
      ((shiftStart k lane spare s).link k).lostSync = true := by
  obtain ⟨body, hstart⟩ := shiftStart_eq k lane spare s
  have hactive' : ulActive (shiftNoted k lane spare s) k = true :=
    (ulActive_of_get (get_shiftNoted_link Fld.UL_STATUS_STATE (by decide) k lane spare s)).trans hactive
  obtain ⟨no, at_, due, left, hnotes⟩ := linkNotes_ulLinkError hactive'
  rw [linkNotes_shiftNoted, ← linkNotes_sendBypass k k 9 body, ← linkNotes_reportCie, ← hstart] at hnotes
  exact ⟨link_of_linkNotes (·.newMap) (fun _ => rfl) hnotes, link_of_linkNotes (·.lostSync) (fun _ => rfl) hnotes⟩

/-! ## The three ends of a lane fault -/

theorem downDue_ulDownCause (k : Nat) (s : State) : ((ulDownCause k s).link k).downDue = ((s.link k).downDue || ulActive s k) := by
  rw [ulDownCause, linkUpd_same]

theorem lostSync_ulDownCause (k : Nat) (s : State) : ((ulDownCause k s).link k).lostSync = (s.link k).lostSync := by
  rw [ulDownCause, linkUpd_same]

section lane
variable {k : Fin 4} {lane : Fin 9} {s : State} (hretired : bitOf (s.get (Fld.UL_LANES_RETIRED k)) lane = false)
include hretired

theorem notRetired_laneUnlocked : bitOf ((laneUnlocked k lane s).get (Fld.UL_LANES_RETIRED k)) lane = false := by
  rw [get_laneUnlocked Fld.UL_LANES_RETIRED (by decide), hretired]

/-- In the INIT exchange the lane is retired and unlocked. -/
theorem ulLaneFault_exchange (hactive : ulActive s k = false) (hparam : inParam s k = true) : Runs (.ulLaneFault k lane) s fun t =>
    bitOf (t.get (Fld.UL_LANES_RETIRED k)) lane = true ∧ t.get (Fld.UL_LANE_RX_LOCKED k lane) = 0 := by
  have hfault := laneFault_exchange (notRetired_laneUnlocked hretired) (ulActive_laneUnlocked.trans hactive) (inParam_laneUnlocked.trans hparam)
  refine ⟨_, (exec_ulLaneFault_heard (.inr hparam)).trans (congrArg Host.Outcome.next hfault), ?_, ?_⟩
  · rw [get_ulLinkError_link Fld.UL_LANES_RETIRED (by decide), retired_laneRetired]
  · rw [locked_ulLinkError, locked_laneRetired, locked_laneUnlocked]

variable (hactive : ulActive s k = true) (hused : laneUsed s k lane = true)
include hactive hused

theorem ulLaneFault_down (hspare : spareLane s k = none) : Runs (.ulLaneFault k lane) s fun t =>
    (t.link k).downDue = true ∧ bitOf (t.get (Fld.UL_LANES_RETIRED k)) lane = true ∧ (t.link k).lostSync = true ∧
      t.get (Fld.UL_LANE_RX_LOCKED k lane) = 0 := by
  have hactive' : ulActive (laneRetired k lane (laneUnlocked k lane s)) k = true :=
    ulActive_laneRetired.trans (ulActive_laneUnlocked.trans hactive)
  have hlast : ulActive (ulLinkError k (laneRetired k lane (laneUnlocked k lane s))) k = true :=
    (ulActive_of_get (get_ulLinkError_link Fld.UL_STATUS_STATE (by decide) k _)).trans hactive'
  have hfault := laneFault_down (notRetired_laneUnlocked hretired) (ulActive_laneUnlocked.trans hactive) (laneUsed_laneUnlocked.trans hused)
    (spareLane_laneUnlocked.trans hspare)
  obtain ⟨no, at_, due, left, hnotes⟩ := linkNotes_ulLinkError hactive'
  refine ⟨_, (exec_ulLaneFault_heard (.inl hactive)).trans (congrArg Host.Outcome.next hfault), ?_, ?_, ?_, ?_⟩
  · rw [downDue_ulDownCause, hlast, Bool.or_true]
  · rw [ulDownCause_get, get_ulLinkError_link Fld.UL_LANES_RETIRED (by decide), retired_laneRetired]
  · exact (lostSync_ulDownCause k _).trans (link_of_linkNotes (·.lostSync) (fun _ => rfl) hnotes)
  · rw [ulDownCause_get, locked_ulLinkError, locked_laneRetired, locked_laneUnlocked]

theorem ulLaneFault_shifts {p : Nat} (hspare : spareLane s k = some p) (hnone : (s.link k).newMap = none) :
    Runs (.ulLaneFault k lane) s fun t => bitOf (t.get (Fld.UL_LANES_RETIRED k)) lane = true ∧
      (t.link k).newMap = some ((s.get (Fld.UL_LANES_EPOCH k) + 1) % 256, swapLane (s.word (Adr.UL_MAP k)).toNat lane p) ∧
        (t.link k).lostSync = true := by
  have hactive' : ulActive (laneRetired k lane (laneUnlocked k lane s)) k = true :=
    ulActive_laneRetired.trans (ulActive_laneUnlocked.trans hactive)
  have hnone' : ((laneUnlocked k lane s).link k).newMap = none := by rw [laneUnlocked, set_link, hnone]
  have hfault := laneFault_shift (notRetired_laneUnlocked hretired) (ulActive_laneUnlocked.trans hactive) (laneUsed_laneUnlocked.trans hused)
    (spareLane_laneUnlocked.trans hspare) hnone'
  have hmap : (laneRetired k lane (laneUnlocked k lane s)).word (Adr.UL_MAP k) = s.word (Adr.UL_MAP k) := by
    rw [laneRetired, word_set_ne _ _ _ (by simp only [Adr.UL_MAP, Fld.UL_LANES_RETIRED]; omega), map_laneUnlocked]
  have hwanted : mapWanted k lane p (laneRetired k lane (laneUnlocked k lane s)) = mapWanted k lane p s := by
    rw [mapWanted, hmap, laneRetired, get_set_link Fld.UL_LANES_RETIRED Fld.UL_LANES_EPOCH (by decide), get_laneUnlocked Fld.UL_LANES_EPOCH (by decide), mapWanted]
  obtain ⟨hnew, hlost⟩ := shiftStart_link hactive' lane p
  refine ⟨_, (exec_ulLaneFault_heard (.inl hactive)).trans (congrArg Host.Outcome.next hfault), ?_, ?_, hlost⟩
  · rw [get_shiftStart_link Fld.UL_LANES_RETIRED (by decide), retired_laneRetired]
  · rw [hnew, hwanted, mapWanted]

end lane

/-! ## Coast and Park are left (13 R336, R337) -/

theorem lpmLeave_runs (k : Fin 4) (row : Nat) (s : State) :
    (lpmLeave k row s).get (Fld.UL_STATUS_LPM k) = 0 ∧ ((lpmLeave k row s).link k).busyAt = s.now := by
  constructor
  · rw [lpmLeave, get_ulRaise_link Fld.UL_STATUS_LPM (by decide) 9 (by decide), get_sendLate, linkUpd_get, emit_get, get_markerRow,
      get_set_link_same Fld.UL_STATUS_LPM (by decide)]
    rfl
  · rw [lpmLeave, of_linkNotes (·.busyAt) (fun _ => rfl) (linkNotes_ulRaise k k 9 _),
      of_linkNotes (·.busyAt) (fun _ => rfl) (linkNotes_sendLate k k _), linkUpd_same]

theorem ulCreditReport_tells {k : Fin 4} {s : State} (hactive : ulActive (ulFree k s) k = true)
    (hpark : (ulFree k s).get (Fld.UL_STATUS_LPM k) ≠ 2) (hnew : ((ulFree k s).link k).crFreed ≠ ((ulFree k s).link k).crTold) :
    Runs (.ulCreditReport k) s fun t => (t.link k).crTold = ((ulFree k s).link k).crFreed := by
  refine ⟨_, congrArg done (if_pos ⟨hactive, hpark, hnew⟩), ?_⟩
  beta_reduce
  rw [of_linkNotes (·.crTold) (fun _ => rfl) (linkNotes_sendBypass k k 5 _ _), linkUpd_same]

theorem exec_ulReplayTimeout_due {k : Fin 4} {c : UCell} {cs : List UCell} {s : State} (hheld : (s.link k).held = c :: cs)
    (hactive : ulActive s k = true) (hfree : (s.link k).replay = []) (hdue : 4 ≤ s.since (s.link k).heldAt) :
    exec (.ulReplayTimeout k) s = .next (ulReplay k c.seq s) := by
  change execUlReplayTimeout k s = _
  simp only [execUlReplayTimeout, hheld]
  exact congrArg done (if_pos ⟨hactive, hfree, hdue⟩)

theorem exec_ulReplayTimeout_none {k : Fin 4} {s : State} (hheld : (s.link k).held = []) : exec (.ulReplayTimeout k) s = .next s := by
  change execUlReplayTimeout k s = _
  simp only [execUlReplayTimeout, hheld, done]

theorem exec_ulCoastIdle_asks {k : Fin 4} {s : State} (hen : s.isSet (Fld.UL_LPM_COAST_EN k) = true) (hactive : ulActive s k = true)
    (hrun : s.get (Fld.UL_STATUS_LPM k) = 0) (hask : (s.link k).lpmAsk = none) (hgo : (s.link k).lpmGo = none) (hidle : ulBusy s k = false)
    (hdue : s.get (Fld.UL_LPM_COAST_IDLE k) ≤ s.since (s.link k).busyAt) : exec (.ulCoastIdle k) s = .next (lpmRequest k 1 s) :=
  congrArg done (if_pos ⟨hen, hactive, hrun, by rw [hask]; rfl, by rw [hgo]; rfl, by simp [hidle], hdue⟩)

/-- Settles O37: a received cell by the branch it takes, with what its acknowledgement and acceptance make of the cells unacknowledged; an error
and a lane fault by what they note of the link and the registers they leave. -/
theorem cellsErrorsAndLaneFaults : Obligations.CellsErrorsAndLaneFaults := by
  unfold Obligations.CellsErrorsAndLaneFaults
  refine ⟨?expected, ?ahead, fun _ _ _ _ _ _ _ _ _ => exec_ulCellReceive_reserved, ?again, ?unheard, ?ack, fun _ _ => ulCreditReport_tells,
    fun _ _ => ulLinkError_crc, fun _ _ => ulLinkError_early, fun _ _ => ?nak, fun _ _ _ _ => exec_ulReplayTimeout_due,
    fun _ _ => exec_ulReplayTimeout_none, ?down, ?shift, fun _ _ _ => exec_ulLaneFault_unheard, fun _ _ => exec_ulCoastIdle_asks, ?coast, ?park,
    ?exchange⟩
  case expected =>
    intro k vc seq ack cv cc off data s hhears hseq hcredit hrun hfew
    cases ack <;> exact exec_ulCellReceive_expected hhears hseq hcredit hrun hfew
  case ahead =>
    intro k vc seq ack cv cc off data s hhears hseq hbefore herr
    rw [exec_ulCellReceive_other hhears hseq, hbefore, herr]
    rfl
  case again =>
    intro k vc seq ack cv cc off data s hhears hbefore
    have hseq : seq.toNat ≠ s.get (Fld.UL_SEQ_RX_EXP k) := by
      intro h
      simp [beforeExp, h] at hbefore
    rw [exec_ulCellReceive_other hhears hseq, hbefore]
    rfl
  case unheard => exact fun k vc seq ack cv cc off r data s hhears => congrArg done (if_pos (by simp [hhears]))
  case ack => exact fun k s hactive hpark hnew => congrArg done (if_pos ⟨hactive, hpark, hnew⟩)
  case nak => exact fun hactive herr hpark hdue => ulNakRepeat_sends hactive herr hpark hdue
  case down => exact fun _ _ _ hactive hused hretired hspare => ulLaneFault_down hretired hactive hused hspare
  case shift => exact fun _ _ _ _ hactive hused hretired hspare hnone => ulLaneFault_shifts hretired hactive hused hspare hnone
  case coast => exact fun k s hcoast => ⟨_, congrArg done (if_pos hcoast), lpmLeave_runs k 0 s⟩
  case park => exact fun k s hpark => ⟨_, congrArg done (if_pos hpark), lpmLeave_runs k 4 s⟩
  case exchange => exact fun _ _ _ hactive hparam hretired => ulLaneFault_exchange hretired hactive hparam

end Sys2Proof.Machine
end

section

/-! Training, the INIT exchange, UL_CTL, down causes and the grace period (13 R311 to R318, R335 to R340). -/

namespace Sys2Proof.Machine

/-! ## Training (13 R311 to R313) -/

/-- A register of a link that lies before its receive lanes. -/
abbrev BeforeLanes (G : Nat → Field) : Prop := ∀ j : Fin 4, (G j).addr < 0x600100 + 65536 * j

theorem get_setLane {f g : Field} {k p : Nat} (hg : g.addr < 0x600100 + 65536 * k) (hf : f.addr = 0x600100 + 65536 * k + 4 * p) (v : Nat)
    (s : State) : (s.set f v).get g = s.get g := get_set_of_addr_ne (by omega) v s

/-- A register of a link that the start of a training leaves. -/
abbrev OffTraining (G : Nat → Field) : Prop :=
  BeforeLanes G ∧ ∀ j : Fin 4, (Fld.UL_LANES_EPOCH j).Apart (G j) ∧ (Fld.UL_LANES_RETIRED j).Apart (G j)

section register
variable (G : Nat → Field)

theorem get_lanesForget_link (hG : OffTraining G) (k : Fin 4) (s : State) : (lanesForget k s).get (G k) = s.get (G k) := by
  obtain ⟨hepoch, hretired⟩ := hG.2 k
  rw [lanesForget, doAll_same (State.get · (G k)) _ _ fun p u => get_setLane (f := Fld.UL_LANE_RX_LOCKED k p) (hG.1 k) rfl 0 u,
    get_set_apart _ _ _ _ hretired, get_set_apart _ _ _ _ hepoch]

theorem get_trainStart_link (hG : OffTraining G) (k : Fin 4) (s : State) : (trainStart k s).get (G k) = s.get (G k) := by
  unfold trainStart
  dsimp only
  rw [get_markerRow, emit_get, emit_get, get_lanesForget_link G hG, drewOne_get, lineUpd_get, linkUpd_get]

theorem get_laneMeasures_link (hlanes : BeforeLanes G) (n : Nat) (k : Fin 4) (s : State) :
    (doAll (List.range 9) (fun p => laneMeasure k n p) s).get (G k) = s.get (G k) := by
  refine doAll_same (State.get · (G k)) _ s fun p u => ?_
  rw [laneMeasure, drewOne_get, get_setLane (f := Fld.UL_LANE_RX_EYE k p) (hlanes k) rfl, get_setLane (f := Fld.UL_LANE_RX_DFE1 k p) (hlanes k) rfl,
    get_setLane (f := Fld.UL_LANE_RX_CTLE k p) (hlanes k) rfl, get_setLane (f := Fld.UL_LANE_RX_LOCKED k p) (hlanes k) rfl]

end register

theorem epoch_lanesForget (k : Fin 4) (s : State) : (lanesForget k s).get (Fld.UL_LANES_EPOCH k) = 0 := by
  have hlanes : BeforeLanes Fld.UL_LANES_EPOCH := by decide
  rw [lanesForget, doAll_same (State.get · (Fld.UL_LANES_EPOCH k)) _ _
    fun p u => get_setLane (f := Fld.UL_LANE_RX_LOCKED k p) (hlanes k) rfl 0 u, get_set_link Fld.UL_LANES_RETIRED Fld.UL_LANES_EPOCH (by decide),
    get_set_link_same Fld.UL_LANES_EPOCH (by decide)]
  rfl

theorem epoch_trainStart (k : Fin 4) (s : State) : (trainStart k s).get (Fld.UL_LANES_EPOCH k) = 0 := by
  unfold trainStart
  dsimp only
  rw [get_markerRow, emit_get, emit_get, epoch_lanesForget]

theorem link_lanesForget (k j : Nat) (s : State) : (lanesForget k s).link j = s.link j := by
  rw [lanesForget, doAll_same (State.link · j) _ _ fun p u => set_link u _ _ j, set_link, set_link]

theorem link_laneMeasures (k n j : Nat) (s : State) : (doAll (List.range 9) (fun p => laneMeasure k n p) s).link j = s.link j := by
  refine doAll_same (State.link · j) _ s fun p u => ?_
  rw [laneMeasure, drewOne_link, set_link, set_link, set_link, set_link]

theorem lineUpd_link (k j : Nat) (f : Line → Line) (s : State) : (s.lineUpd k f).link j = s.link j := rfl

/-- A training keeps the stroke in which the state was entered, and takes the preset. -/
theorem trainStart_link (k : Nat) (s : State) :
    ((trainStart k s).link k).since = (s.link k).since ∧ ((trainStart k s).link k).preset = presetOf s k := by
  unfold trainStart
  dsimp only
  rw [of_linkNotes (·.since) (fun _ => rfl) (linkNotes_markerRow k k 4 _), of_linkNotes (·.preset) (fun _ => rfl) (linkNotes_markerRow k k 4 _),
    emit_link, emit_link, link_lanesForget, drewOne_link, lineUpd_link, linkUpd_same]
  exact ⟨rfl, rfl⟩

section ulTo
variable (k : Fin 4) (st : Nat) (s : State)

theorem get_ulTo_link (G : Nat → Field) (h : ∀ j : Fin 4, (Fld.UL_STATUS_STATE j).Apart (G j)) :
    (ulTo k st s).get (G k) = s.get (G k) := by
  rw [ulTo, linkUpd_get, get_set_link Fld.UL_STATUS_STATE G h]

theorem state_ulTo {st : Nat} (hst : st < 8) : (ulTo k st s).get (Fld.UL_STATUS_STATE k) = st := by
  rw [ulTo, linkUpd_get, get_set_link_same Fld.UL_STATUS_STATE (by decide)]
  exact Nat.mod_eq_of_lt hst

theorem link_ulTo : (ulTo k st s).link k = { s.link k with since := s.now } := by
  rw [ulTo, linkUpd_same, set_link]

end ulTo

theorem ulTrain_runs (k : Fin 4) (s : State) : (ulTrain k s).ulState k = 1 ∧ ((ulTrain k s).link k).since = s.now := by
  constructor
  · rw [State.ulState, ulTrain, get_trainStart_link Fld.UL_STATUS_STATE (by decide), state_ulTo k s (by decide)]
  · rw [ulTrain, (trainStart_link k _).1, link_ulTo]

/-- A register of a link that TRAIN leaves. -/
abbrev OffTrain (G : Nat → Field) : Prop := OffTraining G ∧ ∀ j : Fin 4, (Fld.UL_STATUS_STATE j).Apart (G j)

theorem get_ulTrain_link (G : Nat → Field) (hG : OffTrain G) (k : Fin 4) (s : State) : (ulTrain k s).get (G k) = s.get (G k) := by
  rw [ulTrain, get_trainStart_link G hG.1, get_ulTo_link k 1 s G hG.2]

/-! ## UL_CTL (13 R311, R338) -/

section ulCtl
variable {k : Fin 4} {s : State}

theorem exec_ulCtlEn_off (hreset : s.ulState k ≠ 0) (hactive : s.ulState k ≠ 3) (hhold : s.ulState k ≠ 4) :
    exec (.ulCtlEnWrite k false) s = .next (emit (.ulLine k 0 0) (ulTo k 0 (s.set (Fld.UL_CTL_EN k) 0))) := by
  change done (ulCtlEn k false s) = _
  unfold ulCtlEn
  dsimp only
  rw [if_neg Bool.false_ne_true, if_neg hreset, if_neg fun h => h.elim hactive hhold]
  rfl

theorem exec_ulCtlEn_running (hreset : s.ulState k ≠ 0) : exec (.ulCtlEnWrite k true) s = .next (s.set (Fld.UL_CTL_EN k) 1) := by
  change done (ulCtlEn k true s) = _
  unfold ulCtlEn
  dsimp only
  rw [if_pos rfl, if_neg fun h => hreset h.1]
  rfl

theorem exec_ulCtlEn_starts (hreset : s.ulState k = 0) (halone : s.standAlone = false) :
    exec (.ulCtlEnWrite k true) s = .next (ulTrain k (s.set (Fld.UL_CTL_EN k) 1)) := by
  have haddr : Fld.PEL_STATUS_STATE.addr ≠ (Fld.UL_CTL_EN k).addr := by
    simp only [Fld.PEL_STATUS_STATE, Fld.UL_CTL_EN]
    omega
  have hmember : (s.set (Fld.UL_CTL_EN k) 1).standAlone = false := by
    rw [State.standAlone, get_set_of_addr_ne haddr]
    exact halone
  change done (ulCtlEn k true s) = _
  unfold ulCtlEn
  dsimp only
  rw [if_pos rfl, Bool.toNat_true, if_pos ⟨hreset, by simp [hmember]⟩, done]

theorem ulCtlEn_resets (hreset : s.ulState k ≠ 0) (hactive : s.ulState k ≠ 3) (hhold : s.ulState k ≠ 4) :
    Runs (.ulCtlEnWrite k false) s fun t => t.ulState k = 0 ∧ t.get (Fld.UL_CTL_EN k) = 0 := by
  refine ⟨_, exec_ulCtlEn_off hreset hactive hhold, ?_, ?_⟩
  · rw [State.ulState, emit_get, state_ulTo _ _ (by decide)]
  · rw [emit_get, get_ulTo_link k 0 _ Fld.UL_CTL_EN (by decide), get_set_link_same Fld.UL_CTL_EN (by decide)]
    rfl

theorem ulCtlEn_trains (hreset : s.ulState k = 0) (halone : s.standAlone = false) : Runs (.ulCtlEnWrite k true) s fun t =>
    t.ulState k = 1 ∧ t.get (Fld.UL_CTL_EN k) = 1 ∧ (t.link k).since = s.now := by
  obtain ⟨hstate, hsince⟩ := ulTrain_runs k (s.set (Fld.UL_CTL_EN k) 1)
  refine ⟨_, exec_ulCtlEn_starts hreset halone, hstate, ?_, ?_⟩
  · rw [get_ulTrain_link Fld.UL_CTL_EN (by decide), get_set_link_same Fld.UL_CTL_EN (by decide)]
    rfl
  · rw [hsince, set_now]

/-- RETRAIN makes an ACTIVE link due to go down, and marks the training it orders. -/
theorem ulRetrain_marks : Runs (.ulRetrain k) s fun t => (t.link k).downDue = ((s.link k).downDue || ulActive s k) ∧
    (s.ulState k ≠ 0 → (t.link k).retrain = true) ∧ t.ulState k = s.ulState k ∧ t.regs = s.regs := by
  have hx : exec (.ulRetrain k) s = .next (doIf (s.ulState k != 0) (·.linkUpd k fun l => { l with retrain := true }) (ulDownCause k s)) := rfl
  have hmark (u : State) : (u.linkUpd k fun l => { l with retrain := true }).regs = u.regs := rfl
  have hregs : (doIf (s.ulState k != 0) (·.linkUpd k fun l => { l with retrain := true }) (ulDownCause k s)).regs = s.regs :=
    doIf_same State.regs _ _ hmark
  refine ⟨_, hx, ?_, ?_, get_of_regs hregs _, hregs⟩
  · rw [doIf_same (fun u : State => (u.link k).downDue) _ _ fun u => by rw [linkUpd_same], downDue_ulDownCause]
  · intro hreset
    rw [bne_iff_ne.mpr hreset, doIf_true, linkUpd_same]

end ulCtl

/-! ## Lanes locked (13 R313) -/

/-- What the receiver found on its lanes, noted and told. -/
def lanesTold (k n : Nat) (s : State) : State :=
  (doAll (List.range 9) (fun p => laneMeasure k n p) ((s.set (Fld.UL_LANES_PASSED k) n).set (Fld.UL_LANES_RETIRED k) (511 - n))).linkUpd k
    fun l => { l with told := true }

theorem link_lanesTold (k n : Nat) (s : State) : (lanesTold k n s).link k = { s.link k with told := true } := by
  rw [lanesTold, linkUpd_same, link_laneMeasures, set_link, set_link]

section lanes
variable {k : Fin 4} {passed : BitVec 9} {s : State}

/-- A register of a link that the lanes found leave. -/
abbrev OffLanes (G : Nat → Field) : Prop :=
  BeforeLanes G ∧ ∀ j : Fin 4, (Fld.UL_LANES_PASSED j).Apart (G j) ∧ (Fld.UL_LANES_RETIRED j).Apart (G j)

theorem get_lanesTold_link (G : Nat → Field) (hG : OffLanes G) (n : Nat) : (lanesTold k n s).get (G k) = s.get (G k) := by
  obtain ⟨hpassed, hretired⟩ := hG.2 k
  rw [lanesTold, linkUpd_get, get_laneMeasures_link G hG.1, get_set_apart _ _ _ _ hretired, get_set_apart _ _ _ _ hpassed]

theorem passed_lanesTold : (lanesTold k passed.toNat s).get (Fld.UL_LANES_PASSED k) = passed.toNat := by
  rw [lanesTold, linkUpd_get, get_laneMeasures_link Fld.UL_LANES_PASSED (by decide), get_set_link Fld.UL_LANES_RETIRED Fld.UL_LANES_PASSED (by decide),
    get_set_link_same Fld.UL_LANES_PASSED (by decide)]
  exact Nat.mod_eq_of_lt passed.isLt

theorem retired_lanesTold : (lanesTold k passed.toNat s).get (Fld.UL_LANES_RETIRED k) = 511 - passed.toNat := by
  rw [lanesTold, linkUpd_get, get_laneMeasures_link Fld.UL_LANES_RETIRED (by decide), get_set_link_same Fld.UL_LANES_RETIRED (by decide)]
  exact Nat.mod_eq_of_lt (Nat.lt_of_le_of_lt (Nat.sub_le _ _) (show 511 < 2 ^ 9 by decide))

theorem exec_ulLanesLocked_training (h : training s k = true) : exec (.ulLanesLocked k passed) s =
    .next (doIf (decide (4 ≤ (lanesOf passed.toNat).length)) (lanesMapped k passed.toNat) (lanesTold k passed.toNat s)) := by
  change execUlLanesLocked k passed s = _
  unfold execUlLanesLocked
  dsimp only
  rw [if_pos h, done]
  rfl

theorem exec_ulLanesLocked_idle (h : training s k = false) : exec (.ulLanesLocked k passed) s = .next s :=
  congrArg done (if_neg (by simp [h]))

theorem training_of_train (h : s.ulState k = 1) : training s k = true := by
  rw [training, h]
  rfl

/-- A register of a link that the entry of PARAM leaves. -/
abbrev OffMap (G : Nat → Field) : Prop :=
  ∀ j : Fin 4, (G j).addr ≠ Adr.UL_MAP j ∧ (Fld.UL_STATUS_SPARE_RX j).Apart (G j) ∧ (Fld.UL_STATUS_STATE j).Apart (G j)

theorem get_lanesMapped_link (G : Nat → Field) (hG : OffMap G) (n : Nat) : (lanesMapped k n s).get (G k) = s.get (G k) := by
  obtain ⟨hmap, hspare, -⟩ := hG k
  rw [lanesMapped, doIf_same (State.get · (G k)) _ _ fun u => get_ulTo_link k 2 u G fun j => (hG j).2.2, linkUpd_get,
    get_set_apart _ _ _ _ hspare, get_setWord_ne _ _ hmap]

/-- The link enters PARAM with its lanes mapped. -/
theorem lanesMapped_runs (n : Nat) (h : s.ulState k = 1) : (lanesMapped k n s).ulState k = 2 ∧ ((lanesMapped k n s).link k).locked = true := by
  rw [lanesMapped, h]
  exact ⟨state_ulTo k _ (by decide), by rw [beq_self_eq_true, doIf_true, link_ulTo, linkUpd_same]⟩

theorem ulLanesLocked_maps (htrain : s.ulState k = 1) (hfour : 4 ≤ (lanesOf passed.toNat).length) : Runs (.ulLanesLocked k passed) s fun t =>
    t.ulState k = 2 ∧ t.get (Fld.UL_LANES_PASSED k) = passed.toNat ∧ t.get (Fld.UL_LANES_RETIRED k) = 511 - passed.toNat ∧
      (t.link k).locked = true := by
  have hx := exec_ulLanesLocked_training (passed := passed) (training_of_train htrain)
  rw [decide_eq_true hfour, doIf_true] at hx
  have htrain' : (lanesTold k passed.toNat s).ulState k = 1 := (get_lanesTold_link Fld.UL_STATUS_STATE (by decide) _).trans htrain
  obtain ⟨hstate, hlocked⟩ := lanesMapped_runs passed.toNat htrain'
  refine ⟨_, hx, hstate, ?_, ?_, hlocked⟩
  · rw [get_lanesMapped_link Fld.UL_LANES_PASSED (by decide), passed_lanesTold]
  · rw [get_lanesMapped_link Fld.UL_LANES_RETIRED (by decide), retired_lanesTold]

theorem ulLanesLocked_tells (htrain : s.ulState k = 1) (hfew : (lanesOf passed.toNat).length < 4) : Runs (.ulLanesLocked k passed) s fun t =>
    t.ulState k = 1 ∧ t.get (Fld.UL_LANES_PASSED k) = passed.toNat ∧ t.get (Fld.UL_LANES_RETIRED k) = 511 - passed.toNat ∧
      t.link k = { s.link k with told := true } := by
  have hx := exec_ulLanesLocked_training (passed := passed) (training_of_train htrain)
  rw [decide_eq_false (Nat.not_le.mpr hfew), doIf_false] at hx
  exact ⟨_, hx, (get_lanesTold_link Fld.UL_STATUS_STATE (by decide) _).trans htrain, passed_lanesTold, retired_lanesTold, link_lanesTold _ _ _⟩

/-! ## TRAIN_TMO (13 R311, R312) -/

/-- The failed training counted, and its end noted. -/
def trainFailed (k : Nat) (s : State) : State :=
  (doIf (!(s.link k).told) (·.set (Fld.UL_LANES_PASSED k) 0) (s.inc (Fld.UL_EVT_CNT_TRAIN_FAIL k) 1)).linkUpd k fun l => { l with since := s.now }

theorem exec_ulTrainTimeout_over (htrain : training s k = true) (hover : s.get (Fld.UL_TIMERS_TRAIN_TMO k) ≤ s.since (s.link k).since) :
    exec (.ulTrainTimeout k) s = .next (trainStart k (trainFailed k s)) := congrArg done (if_pos ⟨htrain, hover⟩)

theorem get_trainFailed (f : Field) (hpassed : (Fld.UL_LANES_PASSED k).Apart f) :
    (trainFailed k s).get f = (s.inc (Fld.UL_EVT_CNT_TRAIN_FAIL k) 1).get f := by
  rw [trainFailed, linkUpd_get, doIf_same (State.get · f) _ _ fun u => get_set_apart u _ _ _ hpassed]

/-- The preset is chosen by registers that a failed training leaves. -/
theorem presetOf_trainFailed : presetOf (trainFailed k s) k = presetOf s k := by
  have hstrap : (Fld.UL_LANES_PASSED k).Apart Fld.DEV_STRAP_UL_PRESET_CLASS ∧
      (Fld.UL_EVT_CNT_TRAIN_FAIL k).Apart Fld.DEV_STRAP_UL_PRESET_CLASS := by
    have h : ∀ j : Fin 4, (Fld.UL_LANES_PASSED j).Apart Fld.DEV_STRAP_UL_PRESET_CLASS ∧
      (Fld.UL_EVT_CNT_TRAIN_FAIL j).Apart Fld.DEV_STRAP_UL_PRESET_CLASS := by decide
    exact h k
  have hpreset : ∀ j : Fin 4, (Fld.UL_LANES_PASSED j).Apart (Fld.UL_PRESET_PRESET j) := by decide
  rw [presetOf, get_trainFailed _ hstrap.1, get_inc_apart _ _ _ _ hstrap.2, get_trainFailed _ (hpreset k),
    get_inc_link Fld.UL_EVT_CNT_TRAIN_FAIL Fld.UL_PRESET_PRESET (by decide), presetOf]

theorem ulTrainTimeout_retrains (htrain : s.ulState k = 1) (hover : s.get (Fld.UL_TIMERS_TRAIN_TMO k) ≤ s.since (s.link k).since) :
    Runs (.ulTrainTimeout k) s fun t => t.ulState k = 1 ∧ (t.link k).since = s.now ∧ (t.link k).preset = presetOf s k ∧
      t.get (Fld.UL_LANES_EPOCH k) = 0 ∧
        t.get (Fld.UL_EVT_CNT_TRAIN_FAIL k) = min (Fld.UL_EVT_CNT_TRAIN_FAIL k).max (s.get (Fld.UL_EVT_CNT_TRAIN_FAIL k) + 1) := by
  have hstate : ∀ j : Fin 4, (Fld.UL_LANES_PASSED j).Apart (Fld.UL_STATUS_STATE j) := by decide
  have hcount : ∀ j : Fin 4, (Fld.UL_LANES_PASSED j).Apart (Fld.UL_EVT_CNT_TRAIN_FAIL j) := by decide
  obtain ⟨hsince, hpreset⟩ := trainStart_link k (trainFailed k s)
  refine ⟨_, exec_ulTrainTimeout_over (training_of_train htrain) hover, ?_, ?_, ?_, epoch_trainStart k _, ?_⟩
  · rw [State.ulState, get_trainStart_link Fld.UL_STATUS_STATE (by decide), get_trainFailed _ (hstate k),
      get_inc_link Fld.UL_EVT_CNT_TRAIN_FAIL Fld.UL_STATUS_STATE (by decide)]
    exact htrain
  · rw [hsince, trainFailed, linkUpd_same]
  · rw [hpreset, presetOf_trainFailed]
  · rw [get_trainStart_link Fld.UL_EVT_CNT_TRAIN_FAIL (by decide), get_trainFailed _ (hcount k), get_inc_link_same Fld.UL_EVT_CNT_TRAIN_FAIL (by decide)]

end lanes

end Sys2Proof.Machine
end

section

/-! The INIT exchange, down causes and the grace period (13 R318, R335 to R340). -/

namespace Sys2Proof.Machine

/-! ## INIT (13 R318) -/

/-- What this member's INIT names as its peloton's digest. -/
abbrev ownDigest (s : State) : Nat := (s.word Adr.PEL_IDENT_LO).toNat + 2 ^ 32 * (s.word Adr.PEL_IDENT_HI).toNat

theorem linkNotes_bypassAck (k back : Nat) (s : State) : linkNotes k (bypassAck k back s) = linkNotes k s := by
  have hfrag (b : List Byte) (u : State) : linkNotes k (fragAcked k b u) = linkNotes k u := linkNotes_of_ul (by rw [fragAcked, mbxUpd_ul]) k
  have hfrags (l : List BCell) (u : State) : linkNotes k (doAll l (fun b => fragAcked k b.body) u) = linkNotes k u :=
    doAll_same (linkNotes k) l u fun b v => hfrag b.body v
  have hsent (l : List (Nat × List Byte)) (u : State) : linkNotes k (doAll l (fun b => sendBypass k b.1 b.2) u) = linkNotes k u :=
    doAll_same (linkNotes k) l u fun b v => linkNotes_sendBypass k k b.1 b.2 v
  unfold bypassAck
  dsimp only
  split
  · rfl
  · rw [hsent, hfrags]
    exact linkNotes_linkUpd k k (by exact fun _ => rfl) s

theorem get_bypassAck (k back : Nat) (s : State) (f : Field) : (bypassAck k back s).get f = s.get f :=
  get_of_regs ((keeps_bypassAck (w := 0x1010008003) k back rfl (keeps_refl _ s)).same .regs rfl) f

theorem ulState_bypassAck (k back : Nat) (s : State) : (bypassAck k back s).ulState k = s.ulState k := get_bypassAck k back s _

section init
variable {k : Fin 4} {back rev member topo : BitVec 8} {fresh w4 : Bool} {credits : Word} {e : BitVec 12} {grace : BitVec 8} {map : Word}
  {digest : BitVec 64} {s : State}

theorem exec_bypassInit_refused (hhears : ulHears s k = true ∨ paramHears s k = true) (hwrong : rev ≠ 1 ∨ digest.toNat ≠ ownDigest s) :
    exec (.bypassInit k back rev member topo fresh w4 credits e grace map digest) s = .next (ulRaise k 10
      (((bypassAck k back.toNat s).set (Fld.UL_PEER_REV k) rev.toNat).set (Fld.UL_PEER_MISMATCH k) 1)) := by
  change execBypassInit k back rev member topo fresh w4 credits e grace map digest s = _
  unfold execBypassInit
  dsimp only
  rw [if_neg (not_not_intro hhears), if_pos hwrong, done]

/-- A refused INIT shows its revision with MISMATCH and is not answered. -/
theorem bypassInit_refuses (hhears : ulHears s k = true ∨ paramHears s k = true) (hwrong : rev ≠ 1 ∨ digest.toNat ≠ ownDigest s) :
    Runs (.bypassInit k back rev member topo fresh w4 credits e grace map digest) s fun t =>
      t.isSet (Fld.UL_PEER_MISMATCH k) = true ∧ t.get (Fld.UL_PEER_REV k) = rev.toNat ∧ t.ulState k = s.ulState k ∧
        (t.link k).ackSent = (s.link k).ackSent := by
  refine ⟨_, exec_bypassInit_refused hhears hwrong, ?_, ?_, ?_, ?_⟩
  · rw [State.isSet, get_ulRaise_link Fld.UL_PEER_MISMATCH (by decide) 10 (by decide), get_set_link_same Fld.UL_PEER_MISMATCH (by decide)]
    rfl
  · rw [get_ulRaise_link Fld.UL_PEER_REV (by decide) 10 (by decide), get_set_link Fld.UL_PEER_MISMATCH Fld.UL_PEER_REV (by decide), get_set_link_same Fld.UL_PEER_REV (by decide)]
    exact Nat.mod_eq_of_lt rev.isLt
  · rw [State.ulState, get_ulRaise_link Fld.UL_STATUS_STATE (by decide) 10 (by decide), get_set_link Fld.UL_PEER_MISMATCH Fld.UL_STATUS_STATE (by decide),
      get_set_link Fld.UL_PEER_REV Fld.UL_STATUS_STATE (by decide), get_bypassAck, State.ulState]
  · rw [of_linkNotes (·.ackSent) (fun _ => rfl) (linkNotes_ulRaise k k 10 _), set_link, set_link,
      of_linkNotes (·.ackSent) (fun _ => rfl) (linkNotes_bypassAck k back.toNat s)]

theorem exec_bypassInit_active (hhears : ulHears s k = true) (hdigest : digest.toNat = ownDigest s) (hfree : (s.link k).bheld = []) :
    exec (.bypassInit k back 1 member topo fresh w4 credits e grace map digest) s =
      .next (sendBypass k 2 (leBytes 1 (s.link k).txEpoch) s) := by
  have hactive : ulActive s k = true := (Bool.and_eq_true_iff.mp hhears).1
  change execBypassInit k back 1 member topo fresh w4 credits e grace map digest s = _
  unfold execBypassInit
  dsimp only
  rw [if_neg (not_not_intro (.inl hhears)), if_neg (fun h => h.elim (absurd rfl) (absurd hdigest)), bypassAck_none hfree, if_pos hactive, done]

/-- What the far end's INIT tells of it, shown. -/
def peerShown (k : Nat) (member topo : BitVec 8) (cr : List Nat) (s : State) : State :=
  doAll [0, 1, 2, 3] (fun vc s => s.set (crPeer k vc) (cr.getD vc 0)) (peerKnown k (bitsOf member.toNat 2 0) (bitsOf topo.toNat 1 0) s)

/-- The INIT adopted and answered. -/
def initAnswered (k : Nat) (i : UInit) (map : Nat) (s : State) : State :=
  (sendBypass k 2 (leBytes 1 0) (s.linkUpd k fun l => { l with init := some i, txMap := map, txEpoch := 0, ackSent := true })).lineUpd k
    fun l => { l with next := some (0, map) }

theorem exec_bypassInit_adopted (hhears : paramHears s k = true) (hactive : ulActive s k = false) (hdigest : digest.toNat = ownDigest s) :
    ∃ cr, exec (.bypassInit k back 1 member topo fresh w4 credits e grace map digest) s = .next (tryUp k
      (initAnswered k ⟨fresh, w4, cr, e.toNat, grace.toNat⟩ map.toNat (peerShown k member topo cr (bypassAck k back.toNat s)))) := by
  have hactive' : ¬ ulActive (bypassAck k back.toNat s) k = true := by
    rw [ulActive_of_get (get_bypassAck k back.toNat s _), hactive]
    exact Bool.false_ne_true
  change ∃ cr, execBypassInit k back 1 member topo fresh w4 credits e grace map digest s = _
  unfold execBypassInit
  dsimp only
  rw [if_neg (not_not_intro (.inr hhears)), if_neg (fun h => h.elim (absurd rfl) (absurd hdigest)), if_neg hactive', done]
  exact ⟨_, rfl⟩

theorem linkNotes_peerShown (cr : List Nat) : linkNotes k (peerShown k member topo cr s) = linkNotes k s := by
  rw [peerShown, doAll_same (linkNotes k) _ _ fun vc u => linkNotes_set k _ _ u, peerKnown, doIf_same (linkNotes k) _ _ fun u => linkNotes_raise k 8 u,
    linkNotes_set, linkNotes_set, linkNotes_set, linkNotes_set]

theorem state_peerShown (cr : List Nat) : (peerShown k member topo cr s).ulState k = s.ulState k := by
  have hcredit (vc : Nat) (u : State) : (u.set (crPeer k vc) (cr.getD vc 0)).get (Fld.UL_STATUS_STATE k) = u.get (Fld.UL_STATUS_STATE k) := by
    refine get_set_of_addr_ne ?_ _ _
    unfold crPeer
    split <;> simp only [Fld.UL_CREDIT_PEER_VC0, Fld.UL_CREDIT_PEER_VC1, Fld.UL_CREDIT_PEER_VC2, Fld.UL_CREDIT_PEER_VC3, Fld.UL_STATUS_STATE] <;>
      omega
  have hmiswired : ∀ j : Fin 4, (Fld.UL_STATUS_STATE j).addr ≠ Fld.PEL_STATUS_MISWIRED.addr := by decide
  have hraise : ∀ j : Fin 4, (Fld.UL_STATUS_STATE j).addr ∉ raiseRegs 8 := by decide
  rw [State.ulState, peerShown, doAll_same (State.get · (Fld.UL_STATUS_STATE k)) _ _ hcredit, peerKnown,
    doIf_raise_get _ (hraise k), get_set_of_addr_ne (hmiswired k), get_set_link Fld.UL_PEER_REV Fld.UL_STATUS_STATE (by decide),
    get_set_link Fld.UL_PEER_TOPOLOGY Fld.UL_STATUS_STATE (by decide), get_set_link Fld.UL_PEER_MEMBER Fld.UL_STATUS_STATE (by decide), State.ulState]

/-- A link that adopted and answered the INIT. -/
def ulAnswers (i : UInit) (map : Nat) (l : Ul) : Ul := { l with init := some i, txMap := map, txEpoch := 0, ackSent := true }

theorem linkNotes_initAnswered (i : UInit) (m : Nat) : linkNotes k (initAnswered k i m s) = ulAnswers i m (linkNotes k s) := by
  rw [initAnswered, linkNotes_lineUpd, linkNotes_sendBypass, linkNotes, linkUpd_same]
  rfl

theorem state_initAnswered (i : UInit) (m : Nat) : (initAnswered k i m s).ulState k = s.ulState k := by
  rw [State.ulState, initAnswered, lineUpd_get, get_sendBypass, linkUpd_get, State.ulState]

/-! ## The end of the exchange (13 R339) -/

theorem tryUp_noInit (h : (s.link k).init = none) : tryUp k s = s := by
  rw [tryUp, h]

theorem tryUp_noAck (h : (s.link k).ackRcvd = false) : tryUp k s = s := by
  unfold tryUp
  split
  · exact if_pos fun hall => ne_true_of_eq_false h hall.2.2
  · rfl

theorem bypassInit_adopts (hparam : s.ulState k = 2) (hsync : (s.link k).lostSync = false) (hdigest : digest.toNat = ownDigest s)
    (hack : (s.link k).ackRcvd = false) : Runs (.bypassInit k back 1 member topo fresh w4 credits e grace map digest) s fun t =>
      t.ulState k = 2 ∧ (t.link k).ackSent = true ∧ (t.link k).txMap = map.toNat ∧
        ((t.link k).init.map fun i => (i.fresh, i.w4, i.exp, i.grace)) = some (fresh, w4, e.toNat, grace.toNat) := by
  have hhears : paramHears s k = true := by
    rw [paramHears, inParam, hparam, hsync]
    rfl
  have hactive : ulActive s k = false := by
    rw [ulActive, hparam]
    rfl
  obtain ⟨cr, hx⟩ := exec_bypassInit_adopted (back := back) (member := member) (topo := topo) (fresh := fresh) (w4 := w4) (credits := credits)
    (e := e) (grace := grace) (map := map) hhears hactive hdigest
  have hnotes := linkNotes_initAnswered (k := k) (s := peerShown k member topo cr (bypassAck k back.toNat s))
    ⟨fresh, w4, cr, e.toNat, grace.toNat⟩ map.toNat
  rw [linkNotes_peerShown, linkNotes_bypassAck] at hnotes
  rw [tryUp_noAck ((link_of_linkNotes (·.ackRcvd) (fun _ => rfl) hnotes).trans hack)] at hx
  refine ⟨_, hx, ?_, link_of_linkNotes (·.ackSent) (fun _ => rfl) hnotes, link_of_linkNotes (·.txMap) (fun _ => rfl) hnotes, ?_⟩
  · rw [state_initAnswered, state_peerShown, ulState_bypassAck, hparam]
  · exact link_of_linkNotes (fun l => l.init.map fun i => (i.fresh, i.w4, i.exp, i.grace)) (fun _ => rfl) hnotes

end init

/-! ## INIT_ACK (13 R318) -/

section initAck
variable {k : Fin 4} {back : BitVec 8} {s : State}

theorem ulHears_of_param (h : paramHears s k = true) : ulHears s k = false := by
  have hparam : inParam s k = true := (Bool.and_eq_true_iff.mp h).1
  have hactive : ulActive s k = false := by
    rw [ulActive, beq_eq_false_iff_ne]
    intro h3
    rw [inParam, h3] at hparam
    exact absurd hparam (by simp)
  rw [ulHears, hactive, Bool.false_and]

/-- An INIT_ACK of the map in use counts. -/
def ackCounted (k : Nat) (s : State) : State := s.linkUpd k fun l => { l with ackRcvd := true }

theorem exec_bypassInitAck_param (h : paramHears s k = true) : exec (.bypassInitAck k back 0) s = .next (tryUp k (ackCounted k s)) :=
  congrArg done ((if_neg (by simp [ulHears_of_param h])).trans (if_pos ⟨h, rfl⟩))

theorem exec_bypassInitAck_heard {epoch : BitVec 8} (h : ulHears s k = true) :
    exec (.bypassInitAck k back epoch) s = .next (bypassAck k back.toNat s) := congrArg done (if_pos h)

theorem exec_bypassInitAck_unheard {epoch : BitVec 8} (hparam : paramHears s k = false) (hhears : ulHears s k = false) :
    exec (.bypassInitAck k back epoch) s = .next s :=
  congrArg done ((if_neg (by simp [hhears])).trans (if_neg (by simp [hparam])))

/-- In PARAM, with both ends' INITs answered, the link starts. -/
theorem tryUp_starts {i : UInit} (hparam : s.ulState k = 2) (hinit : (s.link k).init = some i) (hsent : (s.link k).ackSent = true)
    (hrcvd : (s.link k).ackRcvd = true) : tryUp k s = ulUp k i (ulStart k i s) := by
  have hin : inParam s k = true := by
    rw [inParam, hparam]
    rfl
  have hhold : ¬ s.ulState k = 4 := by
    rw [hparam]
    decide
  rw [tryUp, hinit]
  exact (if_neg (not_not_intro ⟨hin, hsent, hrcvd⟩)).trans ((if_neg fun h => hhold h.1).trans (if_neg hhold))

end initAck

/-! ## ACTIVE is entered (13 R335) -/

section up
variable (k : Fin 4) (i : UInit) (s : State)

theorem linkNotes_bypassStart : linkNotes k (bypassStart k s) = { linkNotes k s with bexp := 0 } := by
  have hsent (l : List (Nat × List Byte)) (u : State) : linkNotes k (doAll l (fun b => sendBypass k b.1 b.2) u) = linkNotes k u :=
    doAll_same (linkNotes k) l u fun b v => linkNotes_sendBypass k k b.1 b.2 v
  unfold bypassStart
  dsimp only
  rw [hsent, linkNotes, linkUpd_same]
  rfl

theorem get_bypassStart (f : Field) : (bypassStart k s).get f = s.get f := by
  have hsent (l : List (Nat × List Byte)) (u : State) : (doAll l (fun b => sendBypass k b.1 b.2) u).get f = u.get f :=
    doAll_same (State.get · f) l u fun b v => get_sendBypass k b.1 b.2 v f
  unfold bypassStart
  dsimp only
  rw [hsent, linkUpd_get]

theorem linkNotes_setWord (a : Nat) (v : Word) : linkNotes k (s.setWord a v) = linkNotes k s := rfl

theorem linkNotes_updRoutes : linkNotes k (updRoutes s) = linkNotes k s := by
  unfold updRoutes
  split
  · rfl
  · dsimp only
    rw [linkNotes_set, linkNotes_setWord]

theorem linkNotes_updUlShort : linkNotes k (updUlShort k s) = linkNotes k s := by
  unfold updUlShort
  dsimp only
  rw [doIf_same (linkNotes k) _ _ fun u => linkNotes_raise k _ u, linkNotes_set]

theorem linkNotes_reportDegraded : linkNotes k (reportDegraded s) = linkNotes k s := by
  have hemit (o : Out) (u : State) : linkNotes k (emit o u) = linkNotes k u := rfl
  have hlogged (c b : Nat) (h : AerHdr) (u : State) : linkNotes k (aerLogged c b h u) = linkNotes k u := rfl
  rw [reportDegraded, reportUie, aerUnc]
  split
  · rw [linkNotes_raise, aerMessage, doIf_same (linkNotes k) _ _ (hemit _), hlogged, linkNotes_set]
  · rw [linkNotes_raise, aerMessage, doIf_same (linkNotes k) _ _ (hemit _), hlogged, linkNotes_set]

theorem state_updRoutes : (updRoutes s).get (Fld.UL_STATUS_STATE k) = s.get (Fld.UL_STATUS_STATE k) := by
  have hroute : ∀ j : Fin 4, (Fld.UL_STATUS_STATE j).addr ≠ Adr.PEL_ROUTE ∧ (Fld.UL_STATUS_STATE j).addr ≠ Fld.PEL_VIEW_REACH.addr := by decide
  unfold updRoutes
  split
  · rfl
  · dsimp only
    rw [get_set_of_addr_ne (hroute k).2, get_setWord_ne _ _ (hroute k).1]

theorem state_updUlShort : (updUlShort k s).get (Fld.UL_STATUS_STATE k) = s.get (Fld.UL_STATUS_STATE k) := by
  unfold updUlShort
  dsimp only
  rw [doIf_same (State.get · (Fld.UL_STATUS_STATE k)) _ _ fun u => get_raise _ u _ (notMem_raiseRegs (by omega) (.inl ?range)),
    get_set_link Fld.UL_STATUS_C0_SHORT Fld.UL_STATUS_STATE (by decide)]
  case range =>
    simp only [Fld.UL_STATUS_STATE]
    omega

theorem state_reportDegraded : (reportDegraded s).get (Fld.UL_STATUS_STATE k) = s.get (Fld.UL_STATUS_STATE k) := by
  have h : ∀ j : Fin 4, (Fld.UL_STATUS_STATE j).addr ∉ raiseRegs 28 ∧ (Fld.UL_STATUS_STATE j).addr ≠ Fld.DEV_FAULT_STATUS_DEGRADED.addr := by
    decide
  rw [reportDegraded, get_reportUie _ _ (h k).1, get_set_of_addr_ne (h k).2]

theorem state_narrow : (narrow k s).get (Fld.UL_STATUS_STATE k) = s.get (Fld.UL_STATUS_STATE k) := by
  have hmap : ∀ j : Fin 4, (Fld.UL_STATUS_STATE j).addr ≠ Adr.UL_MAP j := by decide
  unfold narrow
  dsimp only
  rw [lineUpd_get, linkUpd_get, get_set_link Fld.UL_STATUS_SPARE_RX Fld.UL_STATUS_STATE (by decide), get_setWord_ne _ _ (hmap k)]

/-- ACTIVE before the cells of the exchange leave: the link's notes and its width. -/
def upNoted (i : UInit) (s : State) : State :=
  (((((doIf (i.w4 || rxW4 s k) (narrow k) (ulTo k 3 s)).linkUpd k fun l =>
    { l with holdAt := none, fresh := false, errOut := false, nakNo := 0, downDue := false, busyAt := s.now,
             heldAt := s.now, upAt := s.now, stalled := false, lostSync := false, retrain := false }).set
      (Fld.UL_STATUS_W4 k) (i.w4 || rxW4 s k).toNat).set (Fld.UL_STATUS_SPARE_TX k)
        (if i.w4 || rxW4 s k then 0 else s.draw.toNat % 2)).drewOne)

/-- What a link at W = 4 reports. -/
def degradedTold (s : State) : State := logEv 0x0041 (leBytes 1 k) (reportDegraded s)

theorem ulUp_eq : ∃ new : Bool, ulUp k i s = doIf new (degradedTold k) (doIf (i.w4 || rxW4 s k) (ulRaise k 3) (ulRaise k 0
    (updRoutes (updUlShort k (bypassStart k (emit (.ulLine k 1024 0) (upNoted k i s))))))) := ⟨_, rfl⟩

theorem state_upNoted : (upNoted k i s).get (Fld.UL_STATUS_STATE k) = 3 := by
  rw [upNoted, drewOne_get, get_set_link Fld.UL_STATUS_SPARE_TX Fld.UL_STATUS_STATE (by decide), get_set_link Fld.UL_STATUS_W4 Fld.UL_STATUS_STATE (by decide),
    linkUpd_get, doIf_same (State.get · (Fld.UL_STATUS_STATE k)) _ _ fun u => state_narrow k u, state_ulTo k s (by decide)]

theorem link_upNoted : ((upNoted k i s).link k).upAt = s.now ∧ ((upNoted k i s).link k).fresh = false ∧
    ((upNoted k i s).link k).errOut = false := by
  rw [upNoted, drewOne_link, set_link, set_link, linkUpd_same]
  exact ⟨rfl, rfl, rfl⟩

theorem state_ulUp : (ulUp k i s).ulState k = 3 := by
  obtain ⟨new, hup⟩ := ulUp_eq k i s
  have htold (u : State) : (degradedTold k u).get (Fld.UL_STATUS_STATE k) = u.get (Fld.UL_STATUS_STATE k) := by
    rw [degradedTold, get_logEv_link Fld.UL_STATUS_STATE (by decide), state_reportDegraded]
  rw [State.ulState, hup, doIf_same (State.get · (Fld.UL_STATUS_STATE k)) _ _ htold,
    doIf_same (State.get · (Fld.UL_STATUS_STATE k)) _ _ fun u => get_ulRaise_link Fld.UL_STATUS_STATE (by decide) 3 (by decide) k u,
    get_ulRaise_link Fld.UL_STATUS_STATE (by decide) 0 (by decide), state_updRoutes, state_updUlShort, get_bypassStart, emit_get, state_upNoted]

/-- What follows in the entry of ACTIVE leaves the link's notes but for the next cell expected on the bypass channel. -/
theorem linkNotes_ulUp : linkNotes k (ulUp k i s) = { linkNotes k (upNoted k i s) with bexp := 0 } := by
  obtain ⟨new, hup⟩ := ulUp_eq k i s
  have htold (u : State) : linkNotes k (degradedTold k u) = linkNotes k u := by
    rw [degradedTold, linkNotes_logEv, linkNotes_reportDegraded]
  have hemit (o : Out) (u : State) : linkNotes k (emit o u) = linkNotes k u := rfl
  rw [hup, doIf_same (linkNotes k) _ _ htold, doIf_same (linkNotes k) _ _ fun u => linkNotes_ulRaise k k 3 u, linkNotes_ulRaise,
    linkNotes_updRoutes, linkNotes_updUlShort, linkNotes_bypassStart, hemit]

theorem now_ulStart : (ulStart k i s).now = s.now := (keeps_ulStart (w := 0x8008) k i rfl (keeps_refl _ s)).same .now rfl

theorem ulUp_link : ((ulUp k i s).link k).upAt = s.now ∧ ((ulUp k i s).link k).fresh = false ∧ ((ulUp k i s).link k).errOut = false := by
  obtain ⟨hat, hfresh, herr⟩ := link_upNoted k i s
  have hnotes := linkNotes_ulUp k i s
  exact ⟨(link_of_linkNotes (·.upAt) (fun _ => rfl) hnotes).trans hat, (link_of_linkNotes (·.fresh) (fun _ => rfl) hnotes).trans hfresh,
    (link_of_linkNotes (·.errOut) (fun _ => rfl) hnotes).trans herr⟩

end up

section initAck
variable {k : Fin 4} {back : BitVec 8} {s : State}

theorem bypassInitAck_starts {i : UInit} (hparam : s.ulState k = 2) (hsync : (s.link k).lostSync = false) (hinit : (s.link k).init = some i)
    (hsent : (s.link k).ackSent = true) : Runs (.bypassInitAck k back 0) s fun t =>
      t.ulState k = 3 ∧ (t.link k).upAt = s.now ∧ (t.link k).fresh = false ∧ (t.link k).errOut = false := by
  have hhears : paramHears s k = true := by
    rw [paramHears, inParam, hparam, hsync]
    rfl
  have hstarts : tryUp k (ackCounted k s) = ulUp k i (ulStart k i (ackCounted k s)) :=
    tryUp_starts hparam (by rw [ackCounted, linkUpd_same, hinit]) (by rw [ackCounted, linkUpd_same, hsent]) (by rw [ackCounted, linkUpd_same])
  obtain ⟨hat, hfresh, herr⟩ := ulUp_link k i (ulStart k i (ackCounted k s))
  exact ⟨_, (exec_bypassInitAck_param hhears).trans (congrArg Host.Outcome.next hstarts), state_ulUp _ _ _, hat.trans (now_ulStart _ _ _), hfresh, herr⟩

theorem exec_bypassInitAck_counts (hhears : paramHears s k = true) (hinit : (s.link k).init = none) :
    exec (.bypassInitAck k back 0) s = .next (ackCounted k s) := by
  rw [exec_bypassInitAck_param hhears, tryUp_noInit (by rw [ackCounted, linkUpd_same, hinit])]

end initAck

/-! ## Down (13 R338) -/

section down
variable (k : Fin 4) (at_ : Stroke) (s : State)

/-- The link in HOLD, its training begun. -/
def heldNoted (s : State) : State :=
  (ulTo k 4 (ulTrain k s)).linkUpd k fun l => { l with downDue := false, holdAt := some at_, errOut := false, nakNo := 0, lpmAsk := none, lpmGo := none }

/-- UL_LPM, a shift and a replay ended, and the down event noted with its stroke. -/
def downShown (s : State) : State :=
  (((lpmEnds k s).set (Fld.UL_STATUS_SHIFT k) 0).set (Fld.UL_STATUS_REPLAY k) 0).set (Fld.UL_DOWN_TS_STROKE_LO k) (at_.toNat % 2 ^ 32)

theorem ulDown_eq : ulDown k at_ s = ulRaise k 1 ((downShown k at_ (heldNoted k at_ s)).inc (Fld.UL_EVT_CNT_DOWNS k) 1) := rfl

theorem get_lpmEnds_link (G : Nat → Field) (hG : OfLink G) (hlpm : ∀ j : Fin 4, (Fld.UL_STATUS_LPM j).Apart (G j)) :
    (lpmEnds k s).get (G k) = s.get (G k) := by
  refine doIf_same (State.get · (G k)) _ s fun u => ?_
  rw [get_ulRaise_link G hG 9 (by decide), get_set_link Fld.UL_STATUS_LPM G hlpm]

theorem linkNotes_downShown : linkNotes k (downShown k at_ s) = linkNotes k s := by
  have hends : linkNotes k (lpmEnds k s) = linkNotes k s :=
    doIf_same (linkNotes k) _ s fun u => (linkNotes_ulRaise k k 9 _).trans (linkNotes_set k _ _ u)
  rw [downShown, linkNotes_set, linkNotes_set, linkNotes_set, hends]

theorem state_downShown : (downShown k at_ s).get (Fld.UL_STATUS_STATE k) = s.get (Fld.UL_STATUS_STATE k) := by
  rw [downShown, get_set_link Fld.UL_DOWN_TS_STROKE_LO Fld.UL_STATUS_STATE (by decide), get_set_link Fld.UL_STATUS_REPLAY Fld.UL_STATUS_STATE (by decide),
    get_set_link Fld.UL_STATUS_SHIFT Fld.UL_STATUS_STATE (by decide), get_lpmEnds_link k s Fld.UL_STATUS_STATE (by decide) (by decide)]

theorem downs_downShown : (downShown k at_ s).get (Fld.UL_EVT_CNT_DOWNS k) = s.get (Fld.UL_EVT_CNT_DOWNS k) := by
  rw [downShown, get_set_link Fld.UL_DOWN_TS_STROKE_LO Fld.UL_EVT_CNT_DOWNS (by decide), get_set_link Fld.UL_STATUS_REPLAY Fld.UL_EVT_CNT_DOWNS (by decide),
    get_set_link Fld.UL_STATUS_SHIFT Fld.UL_EVT_CNT_DOWNS (by decide), get_lpmEnds_link k s Fld.UL_EVT_CNT_DOWNS (by decide) (by decide)]

theorem downs_heldNoted : (heldNoted k at_ s).get (Fld.UL_EVT_CNT_DOWNS k) = s.get (Fld.UL_EVT_CNT_DOWNS k) := by
  rw [heldNoted, linkUpd_get, get_ulTo_link k 4 _ Fld.UL_EVT_CNT_DOWNS (by decide), get_ulTrain_link Fld.UL_EVT_CNT_DOWNS (by decide)]

theorem state_heldNoted : (heldNoted k at_ s).get (Fld.UL_STATUS_STATE k) = 4 := by
  rw [heldNoted, linkUpd_get, state_ulTo _ _ (by decide)]

theorem ulDown_holds : (ulDown k at_ s).ulState k = 4 ∧ ((ulDown k at_ s).link k).downDue = false ∧ ((ulDown k at_ s).link k).holdAt = some at_ ∧
    (ulDown k at_ s).get (Fld.UL_EVT_CNT_DOWNS k) = min (Fld.UL_EVT_CNT_DOWNS k).max (s.get (Fld.UL_EVT_CNT_DOWNS k) + 1) := by
  have hnotes : linkNotes k (ulDown k at_ s) = linkNotes k (heldNoted k at_ s) := by
    rw [ulDown_eq, linkNotes_ulRaise, linkNotes_inc, linkNotes_downShown]
  refine ⟨?_, ?_, ?_, ?_⟩
  · rw [State.ulState, ulDown_eq, get_ulRaise_link Fld.UL_STATUS_STATE (by decide) 1 (by decide), get_inc_link Fld.UL_EVT_CNT_DOWNS Fld.UL_STATUS_STATE (by decide),
      state_downShown, state_heldNoted]
  · rw [of_linkNotes (·.downDue) (fun _ => rfl) hnotes, heldNoted, linkUpd_same]
  · rw [of_linkNotes (·.holdAt) (fun _ => rfl) hnotes, heldNoted, linkUpd_same]
  · rw [ulDown_eq, get_ulRaise_link Fld.UL_EVT_CNT_DOWNS (by decide) 1 (by decide), get_inc_link_same Fld.UL_EVT_CNT_DOWNS (by decide), downs_downShown, downs_heldNoted]

end down

/-- Settles O34: each row by its equation; what trains, answers or takes down a link writes the registers and notes that the statement names,
and what follows it on the bypass channel and in the raised sources leaves them. -/
theorem linkTrainingAndParameters : Obligations.LinkTrainingAndParameters := by
  unfold Obligations.LinkTrainingAndParameters
  refine ⟨fun _ _ => ulCtlEn_resets, fun _ _ => exec_ulCtlEn_running, fun _ _ hreset halone =>
    ⟨exec_ulCtlEn_starts hreset halone, ulCtlEn_trains hreset halone⟩, fun _ _ => ulRetrain_marks, fun _ _ _ => ulLanesLocked_maps,
    fun _ _ _ => ulLanesLocked_tells, fun _ _ _ => exec_ulLanesLocked_idle, fun _ _ => ulTrainTimeout_retrains, ?refused, ?answered, ?adopted,
    fun _ _ _ _ => exec_bypassInitAck_unheard, fun _ _ _ _ => exec_bypassInitAck_heard, fun _ _ _ => exec_bypassInitAck_counts,
    fun _ _ _ _ => bypassInitAck_starts, ?down, ?early, ?ended⟩
  case refused => exact fun _ _ _ _ _ _ _ _ _ _ _ _ _ hhears hwrong _ => bypassInit_refuses hhears hwrong
  case answered => exact fun _ _ _ _ _ _ _ _ _ _ _ _ hhears hdigest hfree => exec_bypassInit_active hhears hdigest hfree
  case adopted => exact fun _ _ _ _ _ _ _ _ _ _ _ _ hparam hsync hdigest hack => bypassInit_adopts hparam hsync hdigest hack
  case down => exact fun k s hdue hactive => ⟨_, congrArg done (if_pos ⟨hdue, hactive⟩), ulDown_holds k (s.now + 1) s⟩
  case early => exact fun k s h => congrArg done (if_neg (ne_true_of_eq_false h))
  case ended => exact fun k s h => congrArg done (if_pos h)

end Sys2Proof.Machine
end
